-- ==== Sys2Proof/Syntax.lean ====
section
/-! DEFINITION. The commands of the block: one constructor per row of the opcode table, with the
operands that the row's event carries.  A command is an access by software, a message or a
packet that arrives, a pin, a timer or an internal event of one of the block's engines; what
nature decides (a measured value, an error that a code finds) is an operand. -/

namespace Sys2Proof

/-- Which agent makes a register access: function 0 is the PF, 1 to 32 the VFs; `mgt` marks an
access by a management session, made with the PF's authority (R392). -/
structure Access where
  func : Nat
  mgt : Bool
  /-- 0: BAR0, 2: BAR2 doorbell pages, 4: the MSI-X BAR; 8: the function's configuration space (R10) -/
  bar : Nat
  off : Nat
  /-- access size in bytes -/
  size : Nat
  write : Bool
  deriving DecidableEq, Repr

/-- Where damage lies in a packet: nowhere, in its payload, or in its header, with the node whose router finds it
(R194). -/
inductive Damage where
  | none
  | payload
  | header (node : Nat)
  deriving DecidableEq, Repr

/-- What a memory word's error-correcting code finds (R156, R201). -/
inductive EccErr where
  | none
  | single
  | double
  deriving DecidableEq, Repr

/-- The arrival of a packet that is a header alone; `lost`: the node whose router finds its header damaged, and drops
it (R194). -/
structure Arrival where
  packet : Nat
  lost : Option Nat
  deriving DecidableEq, Repr

/-- The arrival of a packet, and the damage that it took on its way (R194). -/
structure Delivery where
  packet : Nat
  damage : Damage
  deriving DecidableEq, Repr

/-- The end of a core's bulk load; `bad`: an engine and its row whose record could not be corrected (R201). -/
structure BulkEnd where
  core : Nat
  bad : Option (Nat × Nat)
  deriving DecidableEq, Repr

/-- A sequencer thread (R165). -/
inductive Thr where
  | vec
  | itm
  deriving DecidableEq, Repr

/-- A calibration cycle's setting (R117): an injection, or a reference cycle on even or odd
rows. -/
inductive CalSetting where
  | inject (units : Nat)
  | refEven
  | refOdd
  deriving DecidableEq, Repr

/-- Why a bulk load runs (R112): failover first, then migration, generation and mirror loads;
a full reload at a frame boundary is best effort. -/
inductive BulkKind where
  | failover
  | migration
  | generation
  | mirror
  | start
  | reload
  deriving DecidableEq, Repr


/-- What an INIT frame of a Canopy port carries, and the round trip that this end measured (R308). -/
structure InitInfo where
  format : Nat
  device : Nat
  dimX : Nat
  dimY : Nat
  dimZ : Nat
  order : Nat
  port : Nat
  credits : List Nat
  rttNs : Nat
  deriving DecidableEq, Repr

/-- A KEY_OFFER (R384). -/
structure KeyOffer where
  pub : List Nat
  random : List Nat
  device : Nat
  port : Nat
  gen : Nat
  chain : List Nat
  deriving DecidableEq, Repr

/-- A request on a management session (Table 16.2). -/
structure MgtMsg where
  session : Nat
  tag : Nat
  /-- a reserved bit of the header is set, or LENGTH is above 1,048,576 -/
  bad : Bool
  payload : List Nat
  deriving DecidableEq, Repr

/-- A clock that is lost (Table 17.3). -/
inductive Clock where
  /-- the array clock of some cores -/
  | array (cores : List Nat)
  | core (core : Nat)
  | fabric
  | dram
  | pcie
  | canopy (port : Nat)
  | keep
  | housekeeping
  | field
  deriving DecidableEq, Repr


/-- The commands (spec/opcode_table.json). -/
inductive Instr where
  /-- A write to a register that has no row of its own (R15). -/
  | registerWrite (a : Access) (value : Nat)
  /-- A read of the low word of a 64-bit pair (R13). -/
  | lowWordRead (a : Access)
  /-- A read of a register holding RC fields (R15, R16). -/
  | rcFieldRead (a : Access)
  /-- A BAR access that R12 or R14 discards, or that finds its block unavailable (R444). -/
  | accessDiscarded (a : Access)
  /-- A write to a block's counter control register (R61). -/
  | counterClear (a : Access) (value : Nat)
  /-- One bit-plane cycle of an engine (R38); `standin`: it is the cycle that the engine's open rewrite window
  occupies (R110). -/
  | bitPlaneCycle (core engine : Nat) (standin : Bool)
  /-- The oldest granted split replay of an engine runs (R46); `standin` as for BIT_PLANE_CYCLE. -/
  | splitReplay (core engine : Nat) (standin : Bool)
  /-- An engine's vector reaches the accumulators (R43). -/
  | vectorComplete (core engine : Nat)
  /-- A write to ENG_CFG (R58). -/
  | engCfgWrite (core engine value : Nat)
  /-- An engine's correction or ρ fit ages beyond 2 × T (R119). -/
  | calValidExpiry (core engine : Nat)
  /-- A transfer sweep of a tile (R84). -/
  | transferSweep (core tile : Nat)
  /-- A drain sweep of a tile (R95). -/
  | drainSweep (core tile : Nat)
  /-- The restorer begins a sweep (R109). -/
  | sweepStart (core : Nat)
  /-- The restorer visits its next row (R110); `lagUs` is how far behind schedule the visit
  comes, `err` what the read of the row record met, in the 64 B block `block` of it. -/
  | rowVisit (core lagUs block : Nat) (err : EccErr)
  /-- A sweep ends (R129); `ppm` is the droop rate the restorer measured. -/
  | sweepEnd (core ppm : Nat)
  /-- A bulk load starts (R112): for the core itself, or from the masters of the core that a
  Lookout mirrors. -/
  | bulkLoad (core source : Nat) (kind : BulkKind)
  /-- A bulk load completes (R112). -/
  | bulkLoadDone (b : BulkEnd)
  /-- A calibration cycle of one segment (R116). -/
  | calibrationCycle (core engine seg : Nat) (setting : CalSetting) (split : Bool)
  /-- A regular calibration pass of one segment ends (R118). -/
  | calPassDone (core engine seg : Nat)
  /-- A start-up calibration pass on a stopped core (R117). -/
  | startupPass (core : Nat)
  /-- The writing of level 0 into a core's engines completes (R108). -/
  | cellZeroDone (core : Nat)
  /-- A spare substitution is commanded (R124). -/
  | spareSubstitute (core engine column : Nat)
  /-- A filled spare takes effect (R124). -/
  | spareActivate (core engine spare : Nat)
  /-- The verification read of a new generation ends (R125). -/
  | genVerifyDone (context model : Nat)
  /-- A stage's placement epoch advances in a stage-by-stage switch (R127). -/
  | stageSwitchAdvance (context model stage : Nat)
  /-- The old cores of a switched stage are released (R127). -/
  | oldPlacementRelease (context model stage : Nat)
  /-- The management controller forms a model digest (R130). -/
  | modelDigestForm (context model : Nat)
  /-- RST_CTRL.CAL_PASS (R133). -/
  | rstCalPass (core : Nat)
  /-- RST_CTRL.PASSPORT_SNAP (R131). -/
  | passportSnap (core : Nat)
  /-- RST_COMMIT (R133). -/
  | rstCommit (core : Nat)
  /-- CORE_CTRL.START (R140). -/
  | coreStart (core : Nat)
  /-- CORE_CTRL.STOP (R141). -/
  | coreStop (core : Nat)
  /-- CORE_CTRL.HALT (R141). -/
  | coreHalt (core : Nat)
  /-- CORE_CTRL.RESUME (R141). -/
  | coreResume (core : Nat)
  /-- CORE_CTRL.STEP (R141). -/
  | coreStep (core : Nat)
  /-- Every begun vector of the core has drained (R141). -/
  | coreVectorBoundary (core : Nat)
  /-- A cadence slot starts in the stage of a core (R143). -/
  | cadenceSlot (core : Nat)
  /-- The cadence banks of a core's stage switch (R145). -/
  | bankSwitch (core : Nat)
  /-- A write to CORE_CAD_CFG (R162). -/
  | cadCfgWrite (core value : Nat)
  /-- A scratch row outlives T (R150). -/
  | scratchRowExpire (core se row : Nat)
  /-- The scrubber reads an SRAM word (R156). -/
  | sramScrub (core word : Nat) (err : EccErr)
  /-- A spill chunk fetch completes (R160). -/
  | chunkFetchDone (core buf win : Nat)
  /-- CORE_DBG_CTRL.ENTER (R161). -/
  | debugEnter (core : Nat)
  /-- CORE_DBG_CTRL.EXIT (R161). -/
  | debugExit (core : Nat)
  /-- The sequencer takes the oldest eligible vector (R167); `err` is what the reads of program
  memory met. -/
  | vecEntry (core : Nat) (err : EccErr)
  /-- The ITEM entry of the oldest item due begins (R165). -/
  | itemEntry (core : Nat)
  /-- The instruction NOP at a thread's PC (Table 7.1). -/
  | seqNop (core : Nat) (t : Thr)
  /-- END. -/
  | endEntry (core : Nat) (t : Thr)
  /-- SETA. -/
  | seta (core : Nat) (t : Thr)
  /-- ADDA. -/
  | adda (core : Nat) (t : Thr)
  /-- LOOP. -/
  | loop (core : Nat) (t : Thr)
  /-- ISSUE. -/
  | issue (core : Nat) (t : Thr)
  /-- DRAIN. -/
  | drain (core : Nat) (t : Thr)
  /-- SEND. -/
  | send (core : Nat) (t : Thr)
  /-- The exit core emits the output packet that a SEND waits with (R169). -/
  | sendEmit (core : Nat) (t : Thr)
  /-- SCRW. -/
  | scrw (core : Nat) (t : Thr)
  /-- VOP. -/
  | vop (core : Nat) (t : Thr)
  /-- FETCH. -/
  | fetch (core : Nat) (t : Thr)
  /-- WBACK. -/
  | wback (core : Nat) (t : Thr)
  /-- FENCE. -/
  | fence (core : Nat) (t : Thr)
  /-- SIGNAL. -/
  | signal (core : Nat) (t : Thr)
  /-- WAITC. -/
  | waitc (core : Nat)
  /-- VERDICT. -/
  | verdict (core : Nat) (t : Thr)
  /-- OUTH. -/
  | outh (core : Nat) (t : Thr)
  /-- A write of RING_DB_SQ_TAIL (R237). -/
  | sqDoorbell (func ring value : Nat)
  /-- A write of RING_DB_CQ_HEAD (R244). -/
  | cqDoorbell (func ring value : Nat)
  /-- The device takes a ring's next descriptor (R238). -/
  | descriptorTake (func ring : Nat)
  /-- An ITEM descriptor runs (R222). -/
  | item (func ring : Nat)
  /-- The NOP command (R241). -/
  | nop (func ring : Nat)
  /-- AREA_WRITE; `data` is what the reads of the source returned, none where they failed twice. -/
  | areaWrite (func ring : Nat) (data : Option (List Nat))
  /-- AREA_READ (R241). -/
  | areaRead (func ring : Nat)
  /-- LOAD (R182). -/
  | load (func ring : Nat)
  /-- A load's start-up passes and bulk loads have ended (R182, R183). -/
  | loadComplete (context model : Nat)
  /-- UNLOAD (R186). -/
  | unload (func ring : Nat)
  /-- ADMIT (R214); `contract` is what the read of the contract returned. -/
  | admitLane (func ring : Nat) (contract : Option (List Nat))
  /-- RELEASE (R218). -/
  | release (func ring : Nat)
  /-- A releasing lane's items have ended (R218). -/
  | releaseComplete (lane : Nat)
  /-- SUSPEND (R463). -/
  | suspend (func ring : Nat)
  /-- RESUME (R463). -/
  | resume (func ring : Nat)
  /-- SWITCH (R241). -/
  | switch (func ring : Nat)
  /-- PEER_WINDOW (R247); `ok`: the translation of the window succeeds. -/
  | peerWindow (func ring : Nat) (ok : Bool)
  /-- BIND (R236). -/
  | bind (func ring : Nat)
  /-- AREA_FREE (R241). -/
  | areaFree (func ring : Nat)
  /-- The repeated read of a descriptor fails (R242). -/
  | descriptorReadFail (tag : Nat)
  /-- The repeated read of an input fails (R249). -/
  | hostReadFail (tag : Nat)
  /-- A read's first completion comes after `ns` nanoseconds (R234). -/
  | slowRead (tag ns : Nat)
  /-- RING_MOD.TIME_US has passed since the oldest pending completion (R246). -/
  | irqModTimer (func ring : Nat)
  /-- An ATS invalidation covers a ring's peer window (R248); `ok`: re-translation succeeds. -/
  | atsInvalidate (func ring : Nat) (ok : Bool)
  /-- A function level reset of VF `vf`, 1 to 32 (R250). -/
  | vfFlr (vf : Nat)
  /-- A function level reset of the PF (R250). -/
  | pfFlr
  /-- A function's Bus Master Enable is set (R250). -/
  | busMasterEnable (func : Nat)
  /-- RING_CTRL.START (R252). -/
  | ringStart (func ring : Nat)
  /-- RING_CTRL.STOP (R250). -/
  | ringStop (func ring : Nat)
  /-- A stopping ring has released and completed everything (R250). -/
  | ringStopped (func ring : Nat)
  /-- A commit of RING_MOD (R252). -/
  | ringCommit (func ring : Nat)
  /-- The PCIe link retrains to a rate and width (R231). -/
  | linkRetrain (gen width : Nat) (flit : Bool)
  /-- A write of ITEM_SEL_HI (R227). -/
  | itemLookup (value : Nat)
  /-- A read of host or peer memory returns data, or fails for the first time (R238, R249). -/
  | hostReadCompletion (tag : Nat) (data : List Nat) (ok : Bool)
  /-- The device takes the first packet of a Canopy-input lane's next item (R209). -/
  | firstPacketTake (lane : Nat)
  /-- A vector packet reaches a stage's entry core (R196). -/
  | vectorPacket (packet : Nat) (damage : Damage)
  /-- A K part reaches a core (R136). -/
  | kpartPacket (packet : Nat) (damage : Damage)
  /-- An exit part reaches the exit core (R169). -/
  | exitPart (packet : Nat) (damage : Damage)
  /-- A group transfer reaches an N exit (R86). -/
  | groupTransfer (packet : Nat) (damage : Damage)
  /-- An epoch-close packet arrives (R197). -/
  | epochClose (a : Arrival)
  /-- A DRAM read request is served (R201). -/
  | memoryRead (a : Arrival) (err : EccErr)
  /-- A DRAM write request is served (R195). -/
  | memoryWrite (packet : Nat) (damage : Damage)
  /-- Read data reaches its consumer (R195). -/
  | readData (packet : Nat) (damage : Damage)
  /-- A receipt, a NACK or an acknowledgement reaches a sender (R138, R195). -/
  | receipt (a : Arrival)
  /-- No receipt for a held packet arrives in time (R195). -/
  | receiptTimeout (packet : Nat)
  /-- The patrol scrubber reads a page (R201); `block` and `err` say what it met. -/
  | patrolScrub (page block : Nat) (err : EccErr)
  /-- A DRAM scheduling round begins (R202). -/
  | dramRound
  /-- A commit of FAB_CFG (R203). -/
  | fabCommit
  /-- CNP_CTRL.START (R331). -/
  | cnpStart
  /-- CNP_CTRL.STOP (R331). -/
  | cnpStop
  /-- A port completes physical training (R308). -/
  | portTrained (port : Nat)
  /-- An INIT frame arrives (R308). -/
  | initFrame (port : Nat) (info : InitInfo)
  /-- A KEY_OFFER arrives (R384). -/
  | keyOffer (port : Nat) (offer : KeyOffer)
  /-- A KEY_CONFIRM arrives with its signature (R384). -/
  | keyConfirm (port : Nat) (sig : List Nat)
  /-- A fenced port retries (R308). -/
  | fenceRetry (port : Nat)
  /-- The 300 bytes of a frame arrive (R312). -/
  | cnpFrameRx (port : Nat) (bytes : List Nat)
  /-- ACK has not advanced in time (R312). -/
  | cnpAckTimeout (port : Nat)
  /-- A lane loses lock, or no valid frame arrives for 1 µs (R314). -/
  | portDown (port : Nat)
  /-- A port's link key is renewed (R313). -/
  | keyRenewal (port : Nat)
  /-- A cage reports a fault, an excessive class or no module, or that it is well again (R451). -/
  | moduleFault (cage : Nat) (fault : Bool)
  /-- No receipt for a packet to a peer arrives in time (R317). -/
  | cnpReceiptTimeout (packet : Nat)
  /-- An ADD reaches the counter unit (R325). -/
  | add (a : Delivery)
  /-- A CLAIM reaches the counter unit (R324). -/
  | claim (a : Delivery)
  /-- A WAIT_GE reaches the counter unit (R324). -/
  | waitGe (a : Delivery)
  /-- A PEEK reaches the counter unit (R324). -/
  | peek (a : Delivery)
  /-- A retraction of a peer arrives (R356). -/
  | cnpRetraction (packet : Nat)
  /-- A peer's model digest arrives (R329). -/
  | modelDigestPacket (packet : Nat)
  /-- PERIOD_MS has passed since the last model digests were sent (R329). -/
  | modelDigestTimer
  /-- A lane binding query arrives (R318). -/
  | bindingQuery (packet : Nat)
  /-- A lane binding reply arrives (R318). -/
  | bindingReply (packet : Nat)
  /-- No binding reply for a lane arrives within 100 µs (R318). -/
  | bindingTimeout (lane : Nat)
  /-- An item credit arrives (R318). -/
  | itemCredit (packet : Nat)
  /-- A binding end arrives (R318). -/
  | bindingEnd (packet : Nat)
  /-- A Lookout's step ends, and it moves to the next rotation entry (R336): Lookout place 0 or 1. -/
  | dwellEnd (place : Nat)
  /-- A Lookout re-executes its oldest sample and compares it (R338). -/
  | sampleCompare (place : Nat)
  /-- A subject re-runs a mismatched tile use into its check tile (R339). -/
  | checkRerun (core : Nat)
  /-- A known-answer kernel runs; `ok`: its digest matches (R342). -/
  | katRun (core : Nat) (ok : Bool)
  /-- REL_CTRL.KAT_NOW (R342). -/
  | katNow (core : Nat)
  /-- The monitor window of a column of a core's tile ends (R344). -/
  | rangeWindow (core column : Nat)
  /-- A core is declared failed; `fatal`: it reports a fatal internal error (R350). -/
  | coreFailed (core : Nat) (fatal : Bool)
  /-- A loaded Lookout joins the stage of the core it replaces (R351). -/
  | failoverJoin (core : Nat)
  /-- A rewritten master has been read back (R357). -/
  | repairDone (core engine : Nat)
  /-- The verification of a model after a digest difference ends (R358). -/
  | modelVerifyDone (context model : Nat)
  /-- REL_COMMIT (R360). -/
  | relCommit
  /-- The mailbox runs CTX_DEFINE (R367). -/
  | ctxDefine
  /-- The mailbox runs CTX_ENROLL (R367). -/
  | ctxEnroll
  /-- The mailbox runs CTX_REVOKE (R367). -/
  | ctxRevoke
  /-- The mailbox runs CTX_SWAP (R382). -/
  | ctxSwap
  /-- The mailbox runs CTX_DESTROY (R383). -/
  | ctxDestroy
  /-- The mailbox runs ATTEST (R371). -/
  | attest
  /-- The mailbox runs KEY_ROTATE (R378). -/
  | keyRotate
  /-- The mailbox runs REL_READ (R376). -/
  | relRead
  /-- The mailbox runs KEY_RELEASE (R376). -/
  | keyRelease
  /-- The mailbox runs CERT_READ (R371). -/
  | certRead
  /-- No key release arrives within REL_TO_S (R376). -/
  | releaseTimeout (context : Nat)
  /-- ROT_PERIOD_H has passed since a context's last rotation (R378). -/
  | rotationTimer (context : Nat)
  /-- Every page of a rotating context carries the new key (R378). -/
  | rotationDone (context : Nat)
  /-- A page scrub completes (R379). -/
  | pageScrubDone (page : Nat)
  /-- A context passes a frame boundary that it waits for (R380). -/
  | frameBoundary (context : Nat)
  /-- A bleeding core converts to 0 for 16 cycles (R381). -/
  | decayCertified (core : Nat)
  /-- A bleeding core is not certified within 40 ms (R381). -/
  | decayTimeout (core : Nat)
  /-- The device stops settling (R373). -/
  | settlingEnd
  /-- An attestation request has been queued for 2 s (R373). -/
  | attestTimeout
  /-- An SPDM GET_MEASUREMENTS with its nonce (R374). -/
  | getMeasurements (nonce : List Nat)
  /-- TDISP STOP_INTERFACE of a VF (R368). -/
  | stopInterface (vf : Nat)
  /-- A loss of the IDE stream, or a write that would break the lock (R368). -/
  | tdiError (vf : Nat)
  /-- KEEP_COMMIT (R385). -/
  | keepCommit
  /-- TDISP locks a VF's interface (R368). -/
  | lockInterface (vf : Nat)
  /-- TDISP starts a locked interface; `ide`: IDE_KM has keyed its stream (R368). -/
  | startInterface (vf : Nat) (ide : Bool)
  /-- The barrier link trains (R258). -/
  | barrierLinkUp
  /-- The barrier link goes down (R263). -/
  | barrierLinkDown
  /-- A barrier frame is received (R259), by the field section or by the host section; `flips` are the bit
  numbers of its 1,024 bits that arrive inverted. -/
  | barrierFrameRx (toField : Bool) (flips : List Nat)
  /-- ACK has not advanced for 2 µs at the field section or the host section (R259). -/
  | barrierRetxTimeout (field : Bool)
  /-- The 10 µs timer of the field section or the host section (R262); `positions` are the four encoder
  positions as the field section has them. -/
  | heartbeatTimer (field : Bool) (positions : List Nat)
  /-- The oldest message received by the field section or the host section is a heartbeat (R262). -/
  | heartbeat (field : Bool)
  /-- The field controller stops holding the host present (R279). -/
  | hostLost
  /-- The oldest message received by the field section is a host state that reports running (R280). -/
  | hostPresent
  /-- The host section stops holding the field section present (R263). -/
  | fieldLost
  /-- The oldest message received by the host section is an item-created (R222). -/
  | itemCreated
  /-- The oldest message received by the field section is a verdict (R269). -/
  | verdictMsg
  /-- The oldest message received by the field section is a retraction (R272). -/
  | retraction
  /-- The oldest message received by the field section is a general-output setpoint (R280). -/
  | setpointGpo
  /-- The oldest message received by the field section is an analogue setpoint (R294). -/
  | setpointAnalogue
  /-- The oldest message received by the host section is an ADC report (R301). -/
  | adcReport
  /-- The oldest message received by the field section or the host section is a state message (R263). -/
  | stateMsg (field : Bool)
  /-- The oldest message received by the host section is a retraction result (R354). -/
  | retractionResult
  /-- The oldest message received by the host section is a field event (R283). -/
  | fieldEventMsg
  /-- The oldest message received by the host section carries positions (R224). -/
  | positionsMsg
  /-- The oldest message received by the field section is a configuration write (R260). -/
  | configWrite
  /-- The oldest message received by the host section is a configuration read reply (R281). -/
  | configReadReply
  /-- The oldest message received by the field section is firmware data (R402). -/
  | firmwareData
  /-- The oldest message received by the field section is a firmware command (R402). -/
  | firmwareCommand
  /-- The oldest message received by the host section is a firmware result (R402). -/
  | firmwareResult
  /-- The field supply browns out, or stays above its limit (R254, R456). -/
  | fieldBrownout
  /-- The field supply has recovered (R254). -/
  | fieldBrownoutEnd
  /-- FRST_N is held low (R255). -/
  | frstNAssert
  /-- FRST_N is released (R255). -/
  | frstNRelease
  /-- The field controller reports READY; `positions` are the encoder positions and `levels` the filtered
  trigger levels as they stand (R256). -/
  | fieldReady (positions : List Nat) (levels : Nat)
  /-- The field watchdog expires (R421). -/
  | fieldWatchdog
  /-- A filtered edge of a trigger input, with the encoder positions latched (R264, R268). -/
  | triggerEdge (trigger : Nat) (rising : Bool) (positions : List Nat)
  /-- An encoder fault, which may be an open or shorted pair (R264, R273). -/
  | encoderFault (encoder : Nat) (wire : Bool)
  /-- An encoder fault clears, with the position the encoder then has (R273). -/
  | encoderFaultClear (encoder pos : Nat)
  /-- The encoder reaches the cutoff of the lane's trigger number `n` (R269). -/
  | cutoffReached (lane n pos : Nat)
  /-- The encoder reaches the on position of an entry of a reject output, less LEAD (R270). -/
  | rejectOn (output encoder pos : Nat)
  /-- The encoder reaches the off position of an entry of a reject output, less LEAD (R270). -/
  | rejectOff (output encoder pos : Nat)
  /-- A reject output's continuous on-time reaches MAX_ON_US (R270). -/
  | maxOnExpiry (output : Nat)
  /-- The encoder passes the latest due position plus PULSE of the lane's trigger number `n` (R268). -/
  | recordFree (lane n pos : Nat)
  /-- FLD_LANE_CTRL.ENABLE of a lane (R267). -/
  | laneEnable (lane : Nat)
  /-- FLD_LANE_CTRL.DISABLE of a lane (R267). -/
  | laneDisable (lane : Nat)
  /-- A write on the verdict port (R277). -/
  | vpWriteAck (slot value : Nat)
  /-- An SPI read of words from a slot on (R278). -/
  | spiRead (slot count : Nat)
  /-- An SPI acknowledge of words from a slot on (R278). -/
  | spiAck (slot : Nat) (words : List Nat)
  /-- A write in the field proxy window (R281). -/
  | proxyWrite (a : Access) (value : Nat)
  /-- A read in the field proxy window (R281). -/
  | proxyRead (a : Access)
  /-- No reply came to the proxied read within 5 µs (R281). -/
  | proxyReadTimeout
  /-- A write of FLD_GW_COMMIT (R281). -/
  | fldGwCommit
  /-- A write of FLD_COMMIT, with or without NV (R282). -/
  | fldCommit (nv : Bool)
  /-- A non-volatile write completes: 0 policy and timeout, 1 spans and analogue policy, 2 calibration
  factors (R282, R292, R297). -/
  | nvWriteDone (kind : Nat)
  /-- FADC_CTRL.START; `cal` tells whether CAL was written in the same write (R289). -/
  | fadcStart (cal : Bool)
  /-- FADC_CTRL.STOP (R289). -/
  | fadcStop
  /-- FADC_CTRL.CAL (R292). -/
  | fadcCal
  /-- Self-calibration ends (R292): for converter A gains 0 to 5, then converter B, the sums of the 1,024
  codes of the steps zero, positive, negative, zero. -/
  | fadcCalDone (sums : List (Int × Int × Int × Int))
  /-- FADC_CTRL.CAL_STORE (R292). -/
  | calStore
  /-- The last conversion of a sequence entry ends; `raw` are its raw codes in order (R287, R288). -/
  | entryResult (entry : Nat) (raw : List Int)
  /-- A write of FADC_COMMIT (R290). -/
  | fadcCommit
  /-- The 1 ms monitor report: die temperature, field supply and 3.3 V rail (R291). -/
  | monitorReport (temp : Int) (supply rail : Nat)
  /-- A write of FDAC_SET (R294). -/
  | fdacSet (code : Nat)
  /-- An output's waiting code is applied (R294). -/
  | updateApply (output : Nat)
  /-- A deglitch hold ends (R295). -/
  | deglitchHoldEnd (output : Nat)
  /-- A write of FDAC_COMMIT, with or without NV (R296, R297). -/
  | fdacCommit (nv : Bool)
  /-- 25 µs into a span change (R296). -/
  | spanSwitch (output : Nat)
  /-- 50 µs into a span change (R296). -/
  | spanChangeEnd (output : Nat)
  /-- A current output has fallen short for 100 µs (R298). -/
  | openLoop (output : Nat)
  /-- A current output has been within 1 % for 100 µs (R298). -/
  | openLoopClear (output : Nat)
  /-- A housekeeping entry's conversions end: the raw codes of each of its channels, and the module power
  in mW as a mean over 100 ms (R299, R415). -/
  | hkEntryResult (entry : Nat) (raw : List (List Nat)) (mw : Nat)
  /-- A write of HK_COMMIT (R303). -/
  | hkCommit
  /-- A write of HK_AOSP_SEND (R294). -/
  | hkAospSend (mask : Nat)
  /-- No monitor report has arrived for 10 ms (R301). -/
  | fieldTempLost
  /-- Slot power comes good (R416); `sense` are the sense pins, `auxOk` tells whether the auxiliary 12 V is at or
  above 10.8 V. -/
  | hostPowerOn (sense : Nat) (auxOk : Bool)
  /-- PERST# is deasserted (R416). -/
  | perstDeassert
  /-- A conventional reset (R418). -/
  | conventionalReset
  /-- GLB_RST_CTRL.DEVICE (R419), with the pins as the reset finds them (R414). -/
  | deviceReset (sense : Nat) (auxOk : Bool)
  /-- GLB_RST_CTRL.CORE_RST (R420). -/
  | coreReset (core : Nat)
  /-- GLB_RST_CTRL.STOP (R430). -/
  | stopCommand
  /-- The orderly stop's drain ends (R430). -/
  | drainEnd
  /-- The management controller's watchdog expires (R421). -/
  | mgtWatchdog
  /-- A clock is lost (R422). -/
  | clockLoss (clock : Clock)
  /-- A rate-of-rise level may be withdrawn (R427). -/
  | thermalWithdraw (level : Nat)
  /-- A core may be back within the guardband (R428). -/
  | guardEnd (core : Nat)
  /-- A die sensor reaches 125 °C (R431). -/
  | thermalTrip
  /-- The auxiliary 12 V has stayed below 10.8 V for 100 µs (R415). -/
  | auxSupplyFail
  /-- Mean power may have stayed below 290 W for 1 s (R415). -/
  | overpowerClear
  /-- A write of GLB_THM_COMMIT (R432). -/
  | glbThmCommit
  /-- A write of CNP_COMMIT (R331). -/
  | cnpCommit
  /-- Slot power is removed (R362). -/
  | hostPowerLoss
  /-- Housekeeping values may be older than 10 ms (R430). -/
  | housekeepingStale
  /-- A Keep firmware image reaches the management port in recovery (R364). -/
  | recoveryImage (image : List Nat)
  /-- A TLS handshake (R389): the client's certificate chain; `ok` tells whether everything else about it is as R389
  asks, the validity periods included. -/
  | sessionHandshake (chain : List Nat) (ok : Bool)
  /-- A session may have carried no message for 300 s (R392). -/
  | sessionIdleTimeout (session : Nat)
  /-- A session's telemetry is due (R400). -/
  | telemetryTimer (session : Nat)
  /-- The activated part reports ready (R404). -/
  | fwReady
  /-- The activated part has not reported ready within its limit (R404). -/
  | fwReadyTimeout
  /-- A held trial has run for 600 s (R404). -/
  | fwHoldTimeout
  /-- A re-test ends; `ok` tells whether the unit passed (R409). -/
  | retestDone (ok : Bool)
  /-- A write of MGT_COMMIT (R411). -/
  | mgtCommit
  /-- The message HELLO (R394). -/
  | hello (m : MgtMsg)
  /-- The message CLAIM (R391). -/
  | claimModule (m : MgtMsg)
  /-- The message SUBSCRIBE (R398). -/
  | subscribe (m : MgtMsg)
  /-- The message EVENT_ACK (R398). -/
  | eventAck (m : MgtMsg)
  /-- The message FAULT_ACK (R359). -/
  | faultAck (m : MgtMsg)
  /-- The message TELEMETRY_CFG (R400). -/
  | telemetryCfg (m : MgtMsg)
  /-- The message REG_READ (R392). -/
  | regRead (m : MgtMsg)
  /-- The message REG_WRITE (R392). -/
  | regWrite (m : MgtMsg)
  /-- The message RING_CMD (R396). -/
  | ringCmd (m : MgtMsg)
  /-- The message KEEP_CMD (R396). -/
  | keepCmd (m : MgtMsg)
  /-- The message FW_STAGE (R402). -/
  | fwStage (m : MgtMsg)
  /-- The message FW_ACTIVATE (R403). -/
  | fwActivate (m : MgtMsg)
  /-- The message FW_COMMIT (R404). -/
  | fwCommit (m : MgtMsg)
  /-- The message FW_ROLLBACK (R404). -/
  | fwRollback (m : MgtMsg)
  /-- The message UNIT_RETIRE (R408). -/
  | unitRetire (m : MgtMsg)
  /-- The message UNIT_RETEST (R409). -/
  | unitRetest (m : MgtMsg)
  /-- The message UNIT_RECAL (R407). -/
  | unitRecal (m : MgtMsg)
  /-- The message PASSPORT_READ (R394). -/
  | passportRead (m : MgtMsg)
  /-- The message REPAIR (R357). -/
  | repair (m : MgtMsg)
  /-- The message PEER_LIST (R407). -/
  | peerList (m : MgtMsg)
  /-- The message ANCHOR_SET (R390). -/
  | anchorSet (m : MgtMsg)
  /-- The message TIME_SET (R401). -/
  | timeSet (m : MgtMsg)
  /-- The message CONFIG_EXPORT (R410). -/
  | configExport (m : MgtMsg)
  /-- The message CONFIG_IMPORT (R413). -/
  | configImport (m : MgtMsg)
  deriving DecidableEq, Repr

end Sys2Proof
end

