-- ==== Sys2Proof/Decode.lean ====
section
/-! DEFINITION. Words of the opcode table.  No row of spec/opcode_table.json gives bits: the block takes commands, not
encoded instructions, so no word spells one. -/

namespace Sys2Proof

/-- The command that a word spells by the table's bits: none, for every word. -/
def decodeTableWord (_nbits _w : Nat) : Option Instr := none

end Sys2Proof
end

