-- ==== Sys2Proof/Machine/Tab.lean ====
section
/-! DEFINITION. Sparse tables by number, and the small numeric helpers every block uses.
A table is a list of (key, value) pairs with strictly rising keys; `Tab.set` keeps that form.
A key that is not listed reads as the default its reader names. -/

namespace Sys2Proof.Machine

/-- A sparse table: pairs of a key and a value, keys strictly rising. -/
abbrev Tab (α : Type) := List (Nat × α)

/-- The value listed under a key. -/
def Tab.find {α : Type} : Tab α → Nat → Option α
  | [], _ => none
  | (k, v) :: r, n => if k = n then some v else Tab.find r n

/-- The value listed under a key, or a default. -/
def Tab.getD {α : Type} (t : Tab α) (n : Nat) (d : α) : α := (Tab.find t n).getD d

/-- List a value under a key, in key order, replacing what stood there. -/
def Tab.set {α : Type} : Tab α → Nat → α → Tab α
  | [], n, v => [(n, v)]
  | (k, w) :: r, n, v =>
    if n < k then (n, v) :: (k, w) :: r
    else if n = k then (n, v) :: r
    else (k, w) :: Tab.set r n v

/-- Take a key out of the table. -/
def Tab.erase {α : Type} (t : Tab α) (n : Nat) : Tab α := t.filter (fun p => p.1 != n)

/-- Set a key to a value, or take it out where the value is the default. -/
def Tab.put {α : Type} [DecidableEq α] (d : α) (t : Tab α) (n : Nat) (v : α) : Tab α :=
  if v = d then Tab.erase t n else Tab.set t n v

/-- Change what stands under a key, starting from a default. -/
def Tab.upd {α : Type} (t : Tab α) (n : Nat) (d : α) (f : α → α) : Tab α :=
  Tab.set t n (f (Tab.getD t n d))

/-- Keep the entries whose key and value pass a test. -/
def Tab.keep {α : Type} (t : Tab α) (p : Nat → α → Bool) : Tab α := t.filter (fun e => p e.1 e.2)

/-- Change every value. -/
def Tab.mapv {α β : Type} (t : Tab α) (f : Nat → α → β) : Tab β := t.map (fun e => (e.1, f e.1 e.2))

/-- The keys rise strictly. -/
def Tab.sorted {α : Type} : Tab α → Bool
  | [] => true
  | (k, _) :: r => r.all (fun e => decide (k < e.1)) && Tab.sorted r

/-- Bits `lo` up to `lo + w - 1` of a number. -/
def bits (v lo w : Nat) : Nat := v / 2 ^ lo % 2 ^ w

/-- One bit of a number. -/
def bit (v i : Nat) : Bool := v.testBit i

/-- A truth value as a number. -/
def ofBool (b : Bool) : Nat := if b then 1 else 0

/-- Set a bit of a number. -/
def setBit (v i : Nat) : Nat := v ||| 2 ^ i

/-- Clear a bit of a number. -/
def clrBit (v i : Nat) : Nat := if v.testBit i then v - 2 ^ i else v

/-- A `w`-bit pattern read as two's complement. -/
def sext (w v : Nat) : Int :=
  let u := v % 2 ^ w
  if 2 * u < 2 ^ w then (u : Int) else (u : Int) - (2 ^ w : Nat)

/-- The `w`-bit pattern of an integer, modulo 2^w. -/
def toBits (w : Nat) (v : Int) : Nat := (v % ((2 ^ w : Nat) : Int)).toNat

/-- Hold an integer within bounds. -/
def clampI (lo hi v : Int) : Int := if v < lo then lo else if hi < v then hi else v

/-- Hold an integer within the range of a `w`-bit signed number. -/
def satS (w : Nat) (v : Int) : Int := clampI (-(2 ^ (w - 1) : Nat)) ((2 ^ (w - 1) : Nat) - 1) v

/-- Division rounding up. -/
def ceilDiv (a b : Nat) : Nat := (a + b - 1) / b

/-- The numbers from `a` up to `a + n - 1`. -/
def rangeFrom (a n : Nat) : List Nat := (List.range n).map (fun i => a + i)

/-- The number of ones among the lowest 64 bits. -/
def popcount (v : Nat) : Nat := ((List.range 64).filter (fun i => v.testBit i)).length

/-- The `n` bytes of a number, lowest first (R11). -/
def bytesOf (n v : Nat) : List Nat := (List.range n).map (fun i => v / 256 ^ i % 256)

/-- The number that bytes spell, lowest first (R11). -/
def ofBytes : List Nat → Nat
  | [] => 0
  | b :: r => b % 256 + 256 * ofBytes r

/-- The `n` bytes of a string from position `a`, 0 beyond its end. -/
def slice (l : List Nat) (a n : Nat) : List Nat :=
  (List.range n).map (fun i => l.getD (a + i) 0)

/-- The little-endian number in `n` bytes of a string from position `a`. -/
def leAt (l : List Nat) (a n : Nat) : Nat := ofBytes (slice l a n)

/-- Put an element in a list at a position, if the position exists. -/
def setAt {α : Type} (l : List α) (i : Nat) (v : α) : List α := l.set i v

end Sys2Proof.Machine
end

