-- ==== Sys2Proof/Machine/Crc.lean ====
section
/-! DEFINITION. CRC-32 with the IEEE 802.3 polynomial (R259, R309) and the even parity of 32-bit words
(R194). -/

namespace Sys2Proof.Machine

/-- One bit of the reflected CRC. -/
def crcBit (c : Nat) : Nat := if c % 2 = 1 then (c / 2) ^^^ 0xEDB88320 else c / 2

/-- One byte of the reflected CRC. -/
def crcByte (c b : Nat) : Nat := (List.range 8).foldl (fun c _ => crcBit c) (c ^^^ b % 256)

/-- CRC-32 of bytes. -/
def crc32 (l : List Nat) : Nat := l.foldl crcByte 0xFFFFFFFF ^^^ 0xFFFFFFFF

/-- The even-parity bit of a word: 1 where the number of ones is odd. -/
def parityBit (w : Nat) : Nat := popcount w % 2

/-- The parity bits of the 32-bit words of some bytes, word 0 in bit 0. -/
def parityWord (l : List Nat) : Nat :=
  (List.range (l.length / 4)).foldl (fun n i => n + parityBit (leAt l (4 * i) 4) * 2 ^ i) 0

end Sys2Proof.Machine
end

