-- ==== Sys2Proof/Machine/Keccak.lean ====
section
/-! DEFINITION. SHAKE256 (FIPS 202), which R128, R130, R170, R175 and R391 name for every
digest of the module, over byte strings. -/

namespace Sys2Proof.Machine

/-- A 64-bit lane turned left. -/
def rotl64 (v n : Nat) : Nat := (v * 2 ^ (n % 64) + v / 2 ^ (64 - n % 64)) % 2 ^ 64

/-- The lanes in the order in which the turns grow: from (1, 0), (x, y) goes to (y, 2x + 3y).  Lane (x, y) stands at
position x + 5y; the k-th lane of the walk turns by k (k + 1) / 2. -/
def turnWalk (pos : Nat) : Nat → Nat → List (Nat × Nat)
  | 0, _ => []
  | n + 1, k => (pos, k * (k + 1) / 2 % 64) :: turnWalk (pos / 5 + 5 * ((2 * (pos % 5) + 3 * (pos / 5)) % 5)) n (k + 1)

/-- By how much the lane at a position turns; the lane at 0 does not. -/
def laneTurn (pos : Nat) : Nat := Tab.getD (turnWalk 1 24 1) pos 0

/-- The bit source of the round constants: an 8-bit shift register with feedback x^8 + x^6 + x^5 + x^4 + 1. -/
def constStep (v : Nat) : Nat := if v < 128 then 2 * v else (2 * v) ^^^ 0x171

/-- A round's constant from the source: seven bits, the j-th at place 2^j - 1; and the source after them. -/
def roundConst (v : Nat) : Nat × Nat :=
  (List.range 7).foldl (fun (p : Nat × Nat) j => (p.1 + p.2 % 2 * 2 ^ (2 ^ j - 1), constStep p.2)) (0, v)

/-- The constants of `n` rounds. -/
def roundConsts : Nat → Nat → List Nat
  | 0, _ => []
  | n + 1, v => (roundConst v).1 :: roundConsts n (roundConst v).2

/-- One round of Keccak-f[1600] on 25 lanes. -/
def keccakRound (a : List Nat) (rc : Nat) : List Nat :=
  let at' (l : List Nat) (x y : Nat) : Nat := l.getD (x % 5 + 5 * (y % 5)) 0
  let c := (List.range 5).map (fun x => (List.range 5).foldl (fun t y => t ^^^ at' a x y) 0)
  let d := (List.range 5).map (fun x => c.getD ((x + 4) % 5) 0 ^^^ rotl64 (c.getD ((x + 1) % 5) 0) 1)
  let th := (List.range 25).map (fun i => a.getD i 0 ^^^ d.getD (i % 5) 0)
  -- b at (y, 2x + 3y) is the turned lane (x, y); read the other way round
  let b := (List.range 25).map (fun i =>
    let u := i % 5
    let v := i / 5
    let x := (u + 3 * v) % 5
    let y := u
    rotl64 (at' th x y) (laneTurn (x + 5 * y)))
  let ch := (List.range 25).map (fun i =>
    let x := i % 5
    let y := i / 5
    at' b x y ^^^ ((2 ^ 64 - 1 - at' b (x + 1) y) &&& at' b (x + 2) y))
  match ch with
  | [] => []
  | h :: t => (h ^^^ rc) :: t

/-- Keccak-f[1600]. -/
def keccakF (a : List Nat) : List Nat := (roundConsts 24 1).foldl keccakRound a

/-- The message with the SHAKE padding, a multiple of 136 bytes. -/
def shakePad (m : List Nat) : List Nat :=
  let r := 136 - m.length % 136
  if r = 1 then m ++ [0x9F] else m ++ [0x1F] ++ List.replicate (r - 2) 0 ++ [0x80]

/-- Absorb a padded message, `n` blocks of it from block `k` on. -/
def shakeAbsorb (m : List Nat) : Nat → Nat → List Nat → List Nat
  | 0, _, a => a
  | n + 1, k, a =>
    let blk := (List.range 25).map (fun i => if i < 17 then leAt m (136 * k + 8 * i) 8 else 0)
    shakeAbsorb m n (k + 1) (keccakF ((List.range 25).map (fun i => a.getD i 0 ^^^ blk.getD i 0)))

/-- The first `n` bytes of the SHAKE256 output over a message, up to 136. -/
def shake256n (n : Nat) (m : List Nat) : List Nat :=
  let p := shakePad m
  let a := shakeAbsorb p (p.length / 136) 0 (List.replicate 25 0)
  ((a.take 17).flatMap (bytesOf 8)).take n

/-- The 64-byte SHAKE256 output over a message. -/
def shake256 (m : List Nat) : List Nat := shake256n 64 m

/-- Absorb a padded message in blocks of 72 bytes. -/
def sha3Absorb (m : List Nat) : Nat → Nat → List Nat → List Nat
  | 0, _, a => a
  | n + 1, k, a =>
    let blk := (List.range 25).map (fun i => if i < 9 then leAt m (72 * k + 8 * i) 8 else 0)
    sha3Absorb m n (k + 1) (keccakF ((List.range 25).map (fun i => a.getD i 0 ^^^ blk.getD i 0)))

/-- The SHA3-512 digest of a message. -/
def sha3 (m : List Nat) : List Nat :=
  let r := 72 - m.length % 72
  let p := if r = 1 then m ++ [0x86] else m ++ [0x06] ++ List.replicate (r - 2) 0 ++ [0x80]
  ((sha3Absorb p (p.length / 72) 0 (List.replicate 25 0)).take 8).flatMap (bytesOf 8)

end Sys2Proof.Machine
end

