-- ==== Sys2Proof/Config.lean ====
section
/-! DEFINITION. The free values: what the spec leaves open and nothing in this model may know.
Every constant here is opaque and has no body, so no proof can see a value of it.  A constant
applied to the counter `State.free`, which a step advances past every value it draws, gives a
fresh value each time; a constant applied to operands is a function the part fixes and the
spec does not state.  Assumption log entries 2 to 5. -/

namespace Sys2Proof.Config

/-- The systematic error of one conversion in 1/256 LSB (R52): offset, gain, static non-linearity and
settling together.  On a calibrated engine the corrected value is held to the limits of Table 2.4. -/
opaque convError : Nat → Int

/-- The random error of one conversion in 1/256 LSB (R52): thermal noise, of which the spec states the
root mean square and no bound. -/
opaque convNoise : Nat → Int

/-- A number drawn from the Keep's random generator (R89, R378, R384). -/
opaque random : Nat → Nat

/-- A measured quantity for which the spec states no value: a calibration mean, a fit, a
passport byte, a telemetry sample. -/
opaque measured : Nat → Nat

/-- A value of a register or field that the spec leaves unstated after an operation. -/
opaque unstated : Nat → Nat

/-- The FP32 functions of Tables 4.4 and 6.5: exp, log, reciprocal square root, sigmoid, tanh,
GELU, SiLU, reciprocal, by function number and operand pattern.  The spec bounds their error
by 4 ulp and fixes no result (R99, R153). -/
opaque fpFunction : Nat → Nat → Nat

/-- The mantissa bits of a NaN in a format for which the spec names no canonical NaN, by
mantissa width. -/
opaque nanMantissa : Nat → Nat

/-- Ed448 verification: public key, message, signature (RFC 8032). -/
opaque ed448Verify : List Nat → List Nat → List Nat → Bool

/-- Ed448 signature by a key of the device: key number, message. -/
opaque ed448Sign : Nat → List Nat → List Nat

/-- X448 shared secret: own secret number, peer's public key. -/
opaque x448 : Nat → List Nat → List Nat

/-- The X448 public key of a secret number. -/
opaque x448Public : Nat → List Nat

/-- HKDF and the other key derivations: label number, input bytes. -/
opaque derive : Nat → List Nat → List Nat

/-- AES-256-GCM opening: key, nonce, additional data, ciphertext with its tag; none where the
tag does not verify. -/
opaque gcmOpen : List Nat → List Nat → List Nat → List Nat → Option (List Nat)

/-- AES-256-GCM sealing: key, nonce, additional data, plaintext; the ciphertext with its 16-byte tag. -/
opaque gcmSeal : List Nat → List Nat → List Nat → List Nat → List Nat

/-- The public key that a DER certificate chain ends in. -/
opaque chainKey : List Nat → List Nat

/-- The SERIAL that the identity of a certificate chain's leaf names. -/
opaque chainSerial : List Nat → Nat

/-- AES-256-CTR: key, counter block, data. -/
opaque ctr : List Nat → List Nat → List Nat → List Nat

/-- The chain and signature rules of certificates (X.509): whether a DER chain leads from its
leaf key to a root key. -/
opaque chainValid : List Nat → List Nat → Bool

/-- Bytes of a certificate of the device, by certificate number and position. -/
opaque certByte : Nat → Nat → Nat

/-- Non-volatile contents that differ from part to part, by item and index: serial numbers,
calibration factors, the housekeeping table. -/
opaque nonVolatile : Nat → Nat → Nat

/-- A product of the housekeeping conversion chain: the engineering value of a channel for a
raw code (R299). -/
opaque housekeepingScale : Nat → Nat → Int

end Sys2Proof.Config
end

