-- ==== Sys2Proof/Machine/Num.lean ====
section
/-! DEFINITION. Number formats (Tables 3.4 and 3.7) and exact arithmetic on them: a value is a
sign, a mantissa and a power of two, every operation is exact on those and one rounding gives
the result's pattern. -/

namespace Sys2Proof.Machine

/-- A floating value: NaN, an infinity, or (-1)^neg × m × 2^e. -/
inductive FV where
  | nan
  | inf (neg : Bool)
  | fin (neg : Bool) (m : Nat) (e : Int)
  deriving DecidableEq, Repr

/-- A floating format: exponent bits, mantissa bits, and whether it has infinities. -/
structure FFmt where
  eb : Nat
  mb : Nat
  hasInf : Bool
  deriving DecidableEq, Repr

/-- IEEE binary32. -/
def fp32 : FFmt := ⟨8, 23, true⟩
/-- IEEE binary16. -/
def fp16 : FFmt := ⟨5, 10, true⟩
/-- bfloat16. -/
def bf16 : FFmt := ⟨8, 7, true⟩
/-- OCP FP8 E4M3: no infinity, one NaN pattern per sign. -/
def e4m3 : FFmt := ⟨4, 3, false⟩
/-- OCP FP8 E5M2. -/
def e5m2 : FFmt := ⟨5, 2, true⟩
/-- IEEE binary64. -/
def fp64 : FFmt := ⟨11, 52, true⟩

/-- The exponent bias. -/
def FFmt.bias (f : FFmt) : Int := (2 ^ (f.eb - 1) : Nat) - 1

/-- The exponent of the least significant bit of the subnormals. -/
def FFmt.emin (f : FFmt) : Int := 1 - f.bias - f.mb

/-- The largest finite pattern without its sign. -/
def FFmt.maxPat (f : FFmt) : Nat :=
  if f.hasInf then (2 ^ f.eb - 1) * 2 ^ f.mb - 1 else 2 ^ (f.eb + f.mb) - 2

/-- The pattern of positive infinity. -/
def FFmt.infPat (f : FFmt) : Nat := (2 ^ f.eb - 1) * 2 ^ f.mb

/-- The NaN that the device writes: the canonical one of Table 3.7, and for a format the table
does not give a NaN whose mantissa is free. -/
def FFmt.nanPat (f : FFmt) : Nat :=
  if f = e4m3 then 0x7F
  else if f = e5m2 then 0x7E
  else if f = bf16 then 0x7FC0
  else f.infPat + 1 + Config.nanMantissa f.mb % (2 ^ f.mb - 1)

/-- The weight of the sign bit. -/
def FFmt.signBit (f : FFmt) : Nat := 2 ^ (f.eb + f.mb)

/-- The value that a pattern denotes. -/
def FFmt.decode (f : FFmt) (p : Nat) : FV :=
  let neg := decide (p / f.signBit % 2 = 1)
  let ex := p / 2 ^ f.mb % 2 ^ f.eb
  let m := p % 2 ^ f.mb
  if f.hasInf && ex == 2 ^ f.eb - 1 then (if m = 0 then .inf neg else .nan)
  else if !f.hasInf && ex == 2 ^ f.eb - 1 && m == 2 ^ f.mb - 1 then .nan
  else if ex = 0 then .fin neg m f.emin
  else .fin neg (m + 2 ^ f.mb) (ex - 1 + f.emin)

/-- m × 2^e as a whole number of units of 2^u, rounded down, and the remainder's first 16 bits
with a flag for bits beyond them. -/
def cutAt (m : Nat) (e u : Int) : Nat × Nat × Bool :=
  if u ≤ e then (m * 2 ^ (e - u).toNat, 0, false)
  else
    let k := (u - e).toNat
    let q := m / 2 ^ k
    let r := m % 2 ^ k
    let f := r * 65536 / 2 ^ k
    (q, f, decide (r * 65536 % 2 ^ k ≠ 0))

/-- The exponent of the unit in the last place at which a format holds m × 2^e. -/
def FFmt.ulpExp (f : FFmt) (m : Nat) (e : Int) : Int :=
  max f.emin ((Nat.log2 m : Int) + e - f.mb)

/-- How a conversion rounds: to nearest even, or upwards when a 16-bit number lies below the
remainder's first 16 bits (R101). -/
inductive Rnd where
  | even
  | stoch (u : Nat)
  deriving DecidableEq, Repr

/-- The first 16 bits of the remainder of a negative value above the next value below it, from those of its
magnitude above the magnitude's floor. -/
def negRest (f : Nat) (sticky : Bool) : Nat := if sticky then 65535 - f else 65536 - f

/-- Whether a magnitude, given as whole part, first 16 remainder bits and sticky flag, rounds away from zero.  The
stochastic mode starts from the value below, which for a negative value is the larger magnitude (R101). -/
def Rnd.up (r : Rnd) (neg : Bool) (q f : Nat) (sticky : Bool) : Bool :=
  match r with
  | .even => if f > 32768 then true else if f < 32768 then false else sticky || q % 2 == 1
  | .stoch u => if !neg then decide (u < f) else (f != 0 || sticky) && decide (negRest f sticky ≤ u)

/-- A value in a format's pattern, without regard to overflow: magnitude pattern. -/
def FFmt.magPat (f : FFmt) (r : Rnd) (neg : Bool) (m : Nat) (e : Int) : Nat :=
  if m = 0 then 0
  else
    let u := f.ulpExp m e
    let (q, fr, st) := cutAt m e u
    let q := if r.up neg q fr st then q + 1 else q
    -- q is the significand in units of 2^u; the pattern of a value is linear within a binade
    ((u - f.emin).toNat) * 2 ^ f.mb + q

/-- A value's pattern under IEEE 754: overflow gives an infinity, NaNs are kept. -/
def FFmt.encIeee (f : FFmt) (v : FV) : Nat :=
  match v with
  | .nan => f.nanPat
  | .inf n => ofBool n * f.signBit + f.infPat
  | .fin n m e =>
    let p := f.magPat .even n m e
    ofBool n * f.signBit + (if f.maxPat < p then f.infPat else p)

/-- The result of a conversion under R76: the pattern, whether it saturated, whether a NaN was
written. -/
structure Conv where
  pat : Nat
  sat : Bool
  nan : Bool
  deriving DecidableEq, Repr

/-- A value's pattern under R76: overflow and infinities saturate to the largest finite value
of the sign, a zero result is +0, a NaN is the canonical one. -/
def FFmt.encSat (f : FFmt) (r : Rnd) (v : FV) : Conv :=
  match v with
  | .nan => ⟨f.nanPat, false, true⟩
  | .inf n => ⟨ofBool n * f.signBit + f.maxPat, true, false⟩
  | .fin n m e =>
    let p := f.magPat r n m e
    if f.maxPat < p then ⟨ofBool n * f.signBit + f.maxPat, true, false⟩
    else if p = 0 then ⟨0, false, false⟩
    else ⟨ofBool n * f.signBit + p, false, false⟩

/-- The exact integer part of a value rounded under a mode. -/
def roundInt (r : Rnd) (neg : Bool) (m : Nat) (e : Int) : Int :=
  let (q, f, st) := cutAt m e 0
  let q := if r.up neg q f st then q + 1 else q
  if neg then -(q : Int) else q

/-- A value as a `w`-bit two's-complement integer under R76. -/
def encInt (w : Nat) (r : Rnd) (v : FV) : Conv :=
  match v with
  | .nan => ⟨0, false, true⟩
  | .inf n => ⟨toBits w (satS w (if n then -(2 ^ w : Nat) else (2 ^ w : Nat))), true, false⟩
  | .fin n m e =>
    let i := roundInt r n m e
    ⟨toBits w (satS w i), decide (satS w i ≠ i), false⟩

/-- An integer as a value. -/
def FV.ofInt (i : Int) : FV := .fin (decide (i < 0)) i.natAbs 0

/-- A sum, exact. -/
def FV.add (a b : FV) : FV :=
  match a, b with
  | .nan, _ => .nan
  | _, .nan => .nan
  | .inf x, .inf y => if x = y then .inf x else .nan
  | .inf x, .fin _ _ _ => .inf x
  | .fin _ _ _, .inf y => .inf y
  | .fin x m e, .fin y n f =>
    let u := min e f
    let p : Int := (if x then -1 else 1) * ((m * 2 ^ (e - u).toNat : Nat) : Int)
    let q : Int := (if y then -1 else 1) * ((n * 2 ^ (f - u).toNat : Nat) : Int)
    let s := p + q
    if s = 0 then .fin (x && y) 0 u else .fin (decide (s < 0)) s.natAbs u

/-- The value with its sign changed. -/
def FV.neg : FV → FV
  | .nan => .nan
  | .inf n => .inf (!n)
  | .fin n m e => .fin (!n) m e

/-- The magnitude. -/
def FV.abs : FV → FV
  | .nan => .nan
  | .inf _ => .inf false
  | .fin _ m e => .fin false m e

/-- A product, exact. -/
def FV.mul (a b : FV) : FV :=
  match a, b with
  | .nan, _ => .nan
  | _, .nan => .nan
  | .inf x, .inf y => .inf (x != y)
  | .inf x, .fin y n _ => if n = 0 then .nan else .inf (x != y)
  | .fin x m _, .inf y => if m = 0 then .nan else .inf (x != y)
  | .fin x m e, .fin y n f => .fin (x != y) (m * n) (e + f)

/-- A quotient, with enough bits and a sticky bit that every later rounding to a format of up
to 52 mantissa bits is that of the exact quotient. -/
def FV.div (a b : FV) : FV :=
  match a, b with
  | .nan, _ => .nan
  | _, .nan => .nan
  | .inf _, .inf _ => .nan
  | .inf x, .fin y _ _ => .inf (x != y)
  | .fin x _ _, .inf y => .fin (x != y) 0 0
  | .fin x m e, .fin y n f =>
    if n = 0 then (if m = 0 then .nan else .inf (x != y))
    else
      let k := 130 + Nat.log2 n
      let q := m * 2 ^ k / n
      let st := ofBool (decide (m * 2 ^ k % n ≠ 0))
      .fin (x != y) (2 * q + st) (e - f - k - 1)

/-- Whether a value is below another, with -0 below +0 (R462); false on NaN. -/
def FV.lt (a b : FV) : Bool :=
  match a, b with
  | .nan, _ => false
  | _, .nan => false
  | .inf x, .inf y => x && !y
  | .inf x, .fin _ _ _ => x
  | .fin _ _ _, .inf y => !y
  | .fin x m e, .fin y n f =>
    let u := min e f
    let p : Int := (if x then -1 else 1) * ((m * 2 ^ (e - u).toNat : Nat) : Int)
    let q : Int := (if y then -1 else 1) * ((n * 2 ^ (f - u).toNat : Nat) : Int)
    if p < q then true else if q < p then false
    else m == 0 && n == 0 && x && !y

/-- Whether a value is 0. -/
def FV.isZero : FV → Bool
  | .fin _ m _ => m == 0
  | _ => false

/-- minimumNumber (R462). -/
def FV.minNum (a b : FV) : FV :=
  match a, b with
  | .nan, y => y
  | x, .nan => x
  | x, y => if FV.lt y x then y else x

/-- maximumNumber (R462). -/
def FV.maxNum (a b : FV) : FV :=
  match a, b with
  | .nan, y => y
  | x, .nan => x
  | x, y => if FV.lt x y then y else x

/-- Round to FP32 under IEEE 754 and take the value again. -/
def FV.r32 (v : FV) : FV := fp32.decode (fp32.encIeee v)

/-- Round to FP32, holding at the largest finite value; the flag says that it was held (R98). -/
def FV.r32sat (v : FV) : FV × Bool :=
  match v with
  | .nan => (.nan, false)
  | _ => let c := fp32.encSat .even v; (fp32.decode c.pat, c.sat)

/-- Round to binary64. -/
def FV.r64 (v : FV) : FV := fp64.decode (fp64.encIeee v)

/-! ### Format codes (Table 3.4) -/

/-- Bits per element of a format code; 0 where the code is reserved. -/
def fmtBits (c : Nat) : Nat :=
  if c ≤ 1 then 8 else if c ≤ 3 then 4 else if c ≤ 5 then 8 else if c ≤ 7 then 16
  else if c = 8 then 32 else if c = 9 then 16 else if c = 10 then 32 else 0

/-- Whether a format code may be a staging input (Table 3.4). -/
def fmtStaging (c : Nat) : Bool := decide (c ≤ 7)

/-- Whether a format code may be an epilogue output (Table 3.4). -/
def fmtEpilogue (c : Nat) : Bool := c == 0 || c == 2 || c == 4 || c == 5 || c == 7

/-- Whether the vector unit takes a format code (Table 3.4). -/
def fmtVector (c : Nat) : Bool := c == 0 || (decide (4 ≤ c) && decide (c ≤ 10))

/-- Whether a format code is floating. -/
def fmtFloat (c : Nat) : Bool := decide (4 ≤ c) && decide (c ≤ 8)

/-- The floating format of a code. -/
def fmtF (c : Nat) : FFmt :=
  if c = 4 then e4m3 else if c = 5 then e5m2 else if c = 6 then fp16 else if c = 7 then bf16
  else fp32

/-- The integer that a pattern of an integer format code denotes. -/
def fmtInt (c p : Nat) : Int :=
  if c = 1 then (p % 256 : Nat) else if c = 3 then (p % 16 : Nat) else sext (fmtBits c) p

/-- The value that a pattern of a format code denotes. -/
def fmtValue (c p : Nat) : FV :=
  if fmtFloat c then (fmtF c).decode p else FV.ofInt (fmtInt c p)

/-- Element `i` of a vector of elements of a format code in a byte string (R70). -/
def elemAt (c : Nat) (l : List Nat) (i : Nat) : Nat :=
  if fmtBits c = 4 then (if i % 2 = 0 then l.getD (i / 2) 0 % 16 else l.getD (i / 2) 0 / 16 % 16)
  else leAt l (i * (fmtBits c / 8)) (fmtBits c / 8)

/-- The bytes that hold `n` elements of a format code. -/
def fmtBytes (c n : Nat) : Nat := ceilDiv (n * fmtBits c) 8

/-- A vector of patterns of a format code as bytes (R70). -/
def packElems (c : Nat) (ps : List Nat) : List Nat :=
  if fmtBits c = 4 then
    (List.range (ceilDiv ps.length 2)).map
      (fun k => ps.getD (2 * k) 0 % 16 + 16 * (ps.getD (2 * k + 1) 0 % 16))
  else ps.flatMap (fun p => bytesOf (fmtBits c / 8) p)

/-- A value in the pattern of a format code under R76. -/
def convTo (c : Nat) (r : Rnd) (v : FV) : Conv :=
  if fmtFloat c && c != 6 && c != 8 then (fmtF c).encSat r v
  else if c = 6 || c = 8 then ⟨(fmtF c).encIeee v, false, false⟩
  else if c = 1 || c = 3 then
    -- an unsigned destination does not occur; its range would be 0 upwards
    match v with
    | .nan => ⟨0, false, true⟩
    | .inf n => ⟨if n then 0 else 2 ^ fmtBits c - 1, true, false⟩
    | .fin n m e =>
      let i := roundInt r n m e
      let j := clampI 0 ((2 ^ fmtBits c : Nat) - 1) i
      ⟨j.toNat, decide (i ≠ j), false⟩
  else encInt (fmtBits c) r v

/-- round_half_even of a quotient of integers by a positive number. -/
def roundHalfEven (n : Int) (d : Nat) : Int :=
  let q := n / (d : Int)
  let r := n % (d : Int)
  if 2 * r > d then q + 1 else if 2 * r < d then q else if q % 2 = 0 then q else q + 1

end Sys2Proof.Machine
end

