-- ==== Sys2Proof/Machine/Elem.lean ====
section
/-! DEFINITION. The elementary functions of Tables 4.4 and 6.5, which the spec holds to within 4 ulp of FP32 of the
exact function (R99, R153): a reference value with far more bits than FP32 has, and the free value about it. -/

namespace Sys2Proof.Machine

/-- Fractional bits of the fixed-point numbers here. -/
def fixBits : Nat := 192

/-- 1 in fixed point. -/
def fixOne : Int := ((2 ^ fixBits : Nat) : Int)

/-- ln 2 in fixed point: Σ 1 ÷ (n × 2^n). -/
def fixLn2 : Int :=
  (((List.range 192).foldl (fun t n => t + 2 ^ (fixBits + 8) / ((n + 1) * 2 ^ (n + 1))) 0 / 256 : Nat) : Int)

/-- √(2 ÷ π) in fixed point. -/
def fixRoot : Int := 5008402561253905729789098622498677126536126712276965002673

/-- A product in fixed point. -/
def fixMul (a b : Int) : Int := a * b / fixOne

/-- A finite value in fixed point, held to ±256. -/
def fixOf (neg : Bool) (m : Nat) (e : Int) : Int :=
  let k := e + fixBits
  let mag : Int := if 300 < (Nat.log2 m : Int) + k then 256 * fixOne
    else min (256 * fixOne) (if 0 ≤ k then ((m * 2 ^ k.toNat : Nat) : Int) else ((m / 2 ^ (-k).toNat : Nat) : Int))
  if neg then -mag else mag

/-- e^x of a fixed-point number: 2^k × e^r with |r| at most ln 2, by its series. -/
def expFix (x : Int) : FV :=
  let k := x / fixLn2
  let r := x - k * fixLn2
  let s := (List.range 48).foldl (fun (p : Int × Int) n =>
    let t := fixMul p.2 r / ((n : Int) + 1)
    (p.1 + t, t)) (fixOne, fixOne)
  .fin false s.1.toNat (k - fixBits)

/-- e^y. -/
def expVal (y : FV) : FV :=
  match y with
  | .nan => .nan
  | .inf n => if n then .fin false 0 0 else .inf false
  | .fin n m e => expFix (fixOf n m e)

/-- The natural logarithm: of the significand by 2 artanh((f − 1) ÷ (f + 1)), and the exponent's share of ln 2. -/
def logVal (y : FV) : FV :=
  match y with
  | .nan => .nan
  | .inf n => if n then .nan else .inf false
  | .fin n m e =>
    if m = 0 then .inf true
    else if n then .nan
    else
      let b := Nat.log2 m
      let f : Int := ((m * 2 ^ fixBits / 2 ^ b : Nat) : Int)
      let z := (f - fixOne) * fixOne / (f + fixOne)
      let zz := fixMul z z
      let s := (List.range 64).foldl (fun (p : Int × Int) k => (p.1 + p.2 / (2 * (k : Int) + 1), fixMul p.2 zz)) (0, z)
      let v := 2 * s.1 + (e + (b : Int)) * fixLn2
      .fin (decide (v < 0)) v.natAbs (-(fixBits : Int))

/-- The reciprocal; of a zero the infinity of its sign (R153). -/
def recipVal (y : FV) : FV := (FV.ofInt 1).div y

/-- The reciprocal square root. -/
def rsqrtVal (y : FV) : FV :=
  match y with
  | .nan => .nan
  | .inf n => if n then .nan else .fin false 0 0
  | .fin n m e =>
    if m = 0 then .inf n
    else if n then .nan
    else
      let odd := e % 2 ≠ 0
      let m := if odd then 2 * m else m
      let e := if odd then e - 1 else e
      .fin false (Nat.sqrt (2 ^ 384 / m)) (-(e / 2) - 192)

/-- 1 ÷ (1 + e^−y). -/
def sigmoidVal (y : FV) : FV :=
  match y with
  | .nan => .nan
  | .inf n => if n then .fin false 0 0 else FV.ofInt 1
  | y => (FV.ofInt 1).div ((FV.ofInt 1).add (expVal y.neg))

/-- Tanh: (1 − e^−2y) ÷ (1 + e^−2y), and for small values its series. -/
def tanhVal (y : FV) : FV :=
  match y with
  | .nan => .nan
  | .inf n => FV.ofInt (if n then -1 else 1)
  | .fin n m e =>
    let y := FV.fin n m e
    if m = 0 then y
    else if (Nat.log2 m : Int) + e < -12 then
      let y3 := (y.mul y).mul y
      (y.add ((y3.div (FV.ofInt 3)).neg)).add (((y3.mul y).mul y).div (FV.fin false 15 (-1)))
    else
      let q := expVal (FV.fin (!n) m (e + 1))
      ((FV.ofInt 1).add q.neg).div ((FV.ofInt 1).add q)

/-- GELU in its tanh form: y × sigmoid(2 √(2/π) (y + 0.044715 y³)). -/
def geluVal (y : FV) : FV :=
  let c := ((y.mul y).mul y).mul ((FV.ofInt 44715).div (FV.ofInt 1000000))
  y.mul (sigmoidVal ((y.add c).mul (.fin false fixRoot.toNat (1 - (fixBits : Int)))))

/-- SiLU. -/
def siluVal (y : FV) : FV := y.mul (sigmoidVal y)

/-- The exact function by number: 0 exp, 1 log, 2 reciprocal, 3 reciprocal square root, 4 sigmoid, 5 tanh, 6 GELU,
7 SiLU. -/
def exactFn (k : Nat) (y : FV) : FV :=
  if k = 0 then expVal y
  else if k = 1 then logVal y
  else if k = 2 then recipVal y
  else if k = 3 then rsqrtVal y
  else if k = 4 then sigmoidVal y
  else if k = 5 then tanhVal y
  else if k = 6 then geluVal y
  else siluVal y

/-- The place of an FP32 pattern among the finite and infinite values in order, from 0 at zero. -/
def fp32Order (p : Nat) : Int := if p < 2 ^ 31 then (p : Int) else -((p - 2 ^ 31 : Nat) : Int)

/-- The pattern at a place in that order, held at the infinities. -/
def fp32At (i : Int) : Nat :=
  let m := Nat.min i.natAbs fp32.infPat
  if i < 0 then 2 ^ 31 + m else m

/-- A function that the spec holds to 4 ulp of FP32 (R99, R153): for a finite value the FP32 value nearest to the exact
result, moved by a free number of at most 4 places (log entry 120).  Infinities and NaNs follow IEEE 754; the exact
result is a pole's infinity where there is one. -/
def freeFn (k : Nat) (y : FV) : FV :=
  match y, exactFn k y with
  | .fin n m e, .fin n' m' e' =>
    let d := (Config.fpFunction k (fp32.encIeee (.fin n m e)) % 9 : Nat)
    fp32.decode (fp32At (fp32Order (fp32.encIeee (.fin n' m' e')) + (d : Int) - 4))
  | _, .nan => .nan
  | _, v => v.r32

end Sys2Proof.Machine
end

