-- ==== Sys2Proof/Machine/Regs.lean ====
section
/-! DEFINITION. The register space of the module: every register of the field maps of the
spec (Tables 2.8 to 19.6) as data.  A register is named by its PF BAR0 offset in instance 0
(core 0, engine 0, ring block 0, counter 0); field controller registers stand at
0x00D1_0000 plus their field address, as the proxy shows them (R281, R441); HIF_VF_ID, which
only VF BAR0 holds, is given the number 0x1000_0000.  Offsets follow Tables 19.9 to 19.11. -/

namespace Sys2Proof.Machine

/-- The access codes of Table 0.5 (R15). -/
inductive Acc where
  | ro | rw | rws | w1c | wo | rc | stg
  deriving DecidableEq, Repr

/-- One field of a field map: its register, its lowest bit, its width, its access code and its
reset value.  Reset values marked NV, per instance or per resource in the spec stand here as
the values the assumption log names. -/
structure Fld where
  reg : Nat
  lo : Nat
  width : Nat
  acc : Acc
  reset : Nat
  deriving DecidableEq, Repr

/-- The number that names a field: its register and its lowest bit. -/
def Fld.code (f : Fld) : Nat := f.reg * 32 + f.lo

/-- The key under which instance `i` of a field is stored. -/
def Fld.key (f : Fld) (i : Nat) : Nat := Nat.pair f.code i

/-- A 32-bit event counter and the FREEZE field of its block's counter control (R61). -/
structure Ctr where
  cnt : Fld
  frz : Fld
  deriving DecidableEq, Repr

/-- How many instances a register has and how its offset reaches them (R21, R441, R442). -/
inductive Bank where
  /-- one register -/
  | one
  /-- one per core, 64 KiB apart -/
  | core
  /-- one per engine, 256 B apart in its core's window -/
  | engine
  /-- one per ring block, 64 B apart -/
  | ring
  /-- one per sync counter, 16 B apart: 0 to 16,383 ordinary, from 16,384 sealed -/
  | sync
  /-- `count` registers `stride` bytes apart -/
  | arr (stride count : Nat)
  deriving DecidableEq, Repr

/-- One register: its offset in instance 0, its instances and its fields. -/
structure Reg where
  off : Nat
  bank : Bank
  flds : List Fld
  deriving DecidableEq, Repr


/-! ### Table 19.5 -/

/-- GLB_ID [15:0] PART, RO. -/
def F.GLB_ID_PART : Fld := ⟨0x0, 0, 16, .ro, 0x9632⟩

/-- GLB_ID [23:16] STEP, RO. -/
def F.GLB_ID_STEP : Fld := ⟨0x0, 16, 8, .ro, 0xb0⟩

/-- GLB_ID [31:24] MAP, RO. -/
def F.GLB_ID_MAP : Fld := ⟨0x0, 24, 8, .ro, 1⟩

/-- The register GLB_ID (Table 19.5). -/
def R.GLB_ID : Reg :=
  ⟨0x0, .one, [F.GLB_ID_PART, F.GLB_ID_STEP, F.GLB_ID_MAP]⟩

/-- GLB_CAPS [5:0] CORES, RO. -/
def F.GLB_CAPS_CORES : Fld := ⟨0x4, 0, 6, .ro, 0x20⟩

/-- GLB_CAPS [13:8] ENGINES, RO. -/
def F.GLB_CAPS_ENGINES : Fld := ⟨0x4, 8, 6, .ro, 0x24⟩

/-- GLB_CAPS [21:16] CONTEXTS, RO. -/
def F.GLB_CAPS_CONTEXTS : Fld := ⟨0x4, 16, 6, .ro, 0x20⟩

/-- GLB_CAPS [27:24] RESIDENT, RO. -/
def F.GLB_CAPS_RESIDENT : Fld := ⟨0x4, 24, 4, .ro, 8⟩

/-- The register GLB_CAPS (Table 19.5). -/
def R.GLB_CAPS : Reg :=
  ⟨0x4, .one, [F.GLB_CAPS_CORES,
    F.GLB_CAPS_ENGINES,
    F.GLB_CAPS_CONTEXTS,
    F.GLB_CAPS_RESIDENT]⟩

/-- GLB_SERIAL_LO [31:0] SERIAL, RO (reset: NV). -/
def F.GLB_SERIAL_LO_SERIAL : Fld := ⟨0x8, 0, 32, .ro, 0⟩

/-- The register GLB_SERIAL_LO (Table 19.5). -/
def R.GLB_SERIAL_LO : Reg :=
  ⟨0x8, .one, [F.GLB_SERIAL_LO_SERIAL]⟩

/-- GLB_SERIAL_HI [31:0] SERIAL, RO (reset: NV). -/
def F.GLB_SERIAL_HI_SERIAL : Fld := ⟨0xC, 0, 32, .ro, 0⟩

/-- The register GLB_SERIAL_HI (Table 19.5). -/
def R.GLB_SERIAL_HI : Reg :=
  ⟨0xC, .one, [F.GLB_SERIAL_HI_SERIAL]⟩

/-- GLB_STATUS [0] ACC_SEEN, W1C. -/
def F.GLB_STATUS_ACC_SEEN : Fld := ⟨0x10, 0, 1, .w1c, 0⟩

/-- GLB_STATUS [1] ANY, RO. -/
def F.GLB_STATUS_ANY : Fld := ⟨0x10, 1, 1, .ro, 0⟩

/-- The register GLB_STATUS (Table 19.5). -/
def R.GLB_STATUS : Reg :=
  ⟨0x10, .one, [F.GLB_STATUS_ACC_SEEN, F.GLB_STATUS_ANY]⟩

/-- GLB_SUMMARY [31:0] BLOCKS, RO. -/
def F.GLB_SUMMARY_BLOCKS : Fld := ⟨0x14, 0, 32, .ro, 0⟩

/-- The register GLB_SUMMARY (Table 19.5). -/
def R.GLB_SUMMARY : Reg :=
  ⟨0x14, .one, [F.GLB_SUMMARY_BLOCKS]⟩

/-- GLB_SUMMARY_CORE [31:0] CORES, RO. -/
def F.GLB_SUMMARY_CORE_CORES : Fld := ⟨0x18, 0, 32, .ro, 0⟩

/-- The register GLB_SUMMARY_CORE (Table 19.5). -/
def R.GLB_SUMMARY_CORE : Reg :=
  ⟨0x18, .one, [F.GLB_SUMMARY_CORE_CORES]⟩

/-- GLB_ACC_LO [25:0] OFFSET, RO. -/
def F.GLB_ACC_LO_OFFSET : Fld := ⟨0x20, 0, 26, .ro, 0⟩

/-- GLB_ACC_LO [26] WRITE, RO. -/
def F.GLB_ACC_LO_WRITE : Fld := ⟨0x20, 26, 1, .ro, 0⟩

/-- GLB_ACC_LO [28:27] KIND, RO. -/
def F.GLB_ACC_LO_KIND : Fld := ⟨0x20, 27, 2, .ro, 0⟩

/-- The register GLB_ACC_LO (Table 19.5). -/
def R.GLB_ACC_LO : Reg :=
  ⟨0x20, .one, [F.GLB_ACC_LO_OFFSET, F.GLB_ACC_LO_WRITE, F.GLB_ACC_LO_KIND]⟩

/-- GLB_ACC_HI [5:0] FUNCTION, RC. -/
def F.GLB_ACC_HI_FUNCTION : Fld := ⟨0x24, 0, 6, .rc, 0⟩

/-- GLB_ACC_HI [6] MGT, RC. -/
def F.GLB_ACC_HI_MGT : Fld := ⟨0x24, 6, 1, .rc, 0⟩

/-- GLB_ACC_HI [7] BAR, RC. -/
def F.GLB_ACC_HI_BAR : Fld := ⟨0x24, 7, 1, .rc, 0⟩

/-- GLB_ACC_HI [31] VALID, RC. -/
def F.GLB_ACC_HI_VALID : Fld := ⟨0x24, 31, 1, .rc, 0⟩

/-- The register GLB_ACC_HI (Table 19.5). -/
def R.GLB_ACC_HI : Reg :=
  ⟨0x24, .one, [F.GLB_ACC_HI_FUNCTION,
    F.GLB_ACC_HI_MGT,
    F.GLB_ACC_HI_BAR,
    F.GLB_ACC_HI_VALID]⟩

/-- GLB_ACC_CNT [31:0] COUNT, RO. -/
def F.GLB_ACC_CNT_COUNT : Fld := ⟨0x28, 0, 32, .ro, 0⟩

/-- The register GLB_ACC_CNT (Table 19.5). -/
def R.GLB_ACC_CNT : Reg :=
  ⟨0x28, .one, [F.GLB_ACC_CNT_COUNT]⟩

/-- GLB_CNT_CTRL [0] CLEAR, WO. -/
def F.GLB_CNT_CTRL_CLEAR : Fld := ⟨0x30, 0, 1, .wo, 0⟩

/-- GLB_CNT_CTRL [1] FREEZE, RW. -/
def F.GLB_CNT_CTRL_FREEZE : Fld := ⟨0x30, 1, 1, .rw, 0⟩

/-- The register GLB_CNT_CTRL (Table 19.5). -/
def R.GLB_CNT_CTRL : Reg :=
  ⟨0x30, .one, [F.GLB_CNT_CTRL_CLEAR, F.GLB_CNT_CTRL_FREEZE]⟩

/-- GLB_SCRATCH [31:0] VALUE, RW. -/
def F.GLB_SCRATCH_VALUE : Fld := ⟨0x40, 0, 32, .rw, 0⟩

/-- The register GLB_SCRATCH (Table 19.5). -/
def R.GLB_SCRATCH : Reg :=
  ⟨0x40, .arr 4 4, [F.GLB_SCRATCH_VALUE]⟩

/-! ### Table 16.10 -/

/-- MGT_STATUS [1:0] LINK, RO. -/
def F.MGT_STATUS_LINK : Fld := ⟨0x10000, 0, 2, .ro, 0⟩

/-- MGT_STATUS [4:2] SESSIONS, RO. -/
def F.MGT_STATUS_SESSIONS : Fld := ⟨0x10000, 2, 3, .ro, 0⟩

/-- MGT_STATUS [5] CLAIMED, RO (reset: NV). -/
def F.MGT_STATUS_CLAIMED : Fld := ⟨0x10000, 5, 1, .ro, 0⟩

/-- MGT_STATUS [6] CFG_INVALID, W1C. -/
def F.MGT_STATUS_CFG_INVALID : Fld := ⟨0x10000, 6, 1, .w1c, 0⟩

/-- The register MGT_STATUS (Table 16.10). -/
def R.MGT_STATUS : Reg :=
  ⟨0x10000, .one, [F.MGT_STATUS_LINK,
    F.MGT_STATUS_SESSIONS,
    F.MGT_STATUS_CLAIMED,
    F.MGT_STATUS_CFG_INVALID]⟩

/-- MGT_CFG [0] HOST_IRQ_EN, STG. -/
def F.MGT_CFG_HOST_IRQ_EN : Fld := ⟨0x10004, 0, 1, .stg, 0⟩

/-- MGT_CFG [16:8] VECTOR, STG. -/
def F.MGT_CFG_VECTOR : Fld := ⟨0x10004, 8, 9, .stg, 0⟩

/-- The register MGT_CFG (Table 16.10). -/
def R.MGT_CFG : Reg :=
  ⟨0x10004, .one, [F.MGT_CFG_HOST_IRQ_EN, F.MGT_CFG_VECTOR]⟩

/-- MGT_HOST_MASK [31:0] BLOCKS, STG. -/
def F.MGT_HOST_MASK_BLOCKS : Fld := ⟨0x10008, 0, 32, .stg, 0⟩

/-- The register MGT_HOST_MASK (Table 16.10). -/
def R.MGT_HOST_MASK : Reg :=
  ⟨0x10008, .one, [F.MGT_HOST_MASK_BLOCKS]⟩

/-- MGT_COMMIT [0] COMMIT, WO. -/
def F.MGT_COMMIT_COMMIT : Fld := ⟨0x1000C, 0, 1, .wo, 0⟩

/-- The register MGT_COMMIT (Table 16.10). -/
def R.MGT_COMMIT : Reg :=
  ⟨0x1000C, .one, [F.MGT_COMMIT_COMMIT]⟩

/-- MGT_TIME_LO [31:0] COUNT, RO. -/
def F.MGT_TIME_LO_COUNT : Fld := ⟨0x10010, 0, 32, .ro, 0⟩

/-- The register MGT_TIME_LO (Table 16.10). -/
def R.MGT_TIME_LO : Reg :=
  ⟨0x10010, .one, [F.MGT_TIME_LO_COUNT]⟩

/-- MGT_TIME_HI [31:0] COUNT, RO. -/
def F.MGT_TIME_HI_COUNT : Fld := ⟨0x10014, 0, 32, .ro, 0⟩

/-- The register MGT_TIME_HI (Table 16.10). -/
def R.MGT_TIME_HI : Reg :=
  ⟨0x10014, .one, [F.MGT_TIME_HI_COUNT]⟩

/-- MGT_TIME_OFS [31:0] SECONDS, RO. -/
def F.MGT_TIME_OFS_SECONDS : Fld := ⟨0x10018, 0, 32, .ro, 0⟩

/-- The register MGT_TIME_OFS (Table 16.10). -/
def R.MGT_TIME_OFS : Reg :=
  ⟨0x10018, .one, [F.MGT_TIME_OFS_SECONDS]⟩

/-- MGT_EVT_HEAD [31:0] NEXT, RO. -/
def F.MGT_EVT_HEAD_NEXT : Fld := ⟨0x1001C, 0, 32, .ro, 0⟩

/-- The register MGT_EVT_HEAD (Table 16.10). -/
def R.MGT_EVT_HEAD : Reg :=
  ⟨0x1001C, .one, [F.MGT_EVT_HEAD_NEXT]⟩

/-- MGT_EVT_SEL [17:0] SLOT, RW. -/
def F.MGT_EVT_SEL_SLOT : Fld := ⟨0x10020, 0, 18, .rw, 0⟩

/-- MGT_EVT_SEL [22:20] WORD, RW. -/
def F.MGT_EVT_SEL_WORD : Fld := ⟨0x10020, 20, 3, .rw, 0⟩

/-- The register MGT_EVT_SEL (Table 16.10). -/
def R.MGT_EVT_SEL : Reg :=
  ⟨0x10020, .one, [F.MGT_EVT_SEL_SLOT, F.MGT_EVT_SEL_WORD]⟩

/-- MGT_EVT_DATA [31:0] DATA, RO. -/
def F.MGT_EVT_DATA_DATA : Fld := ⟨0x10024, 0, 32, .ro, 0⟩

/-- The register MGT_EVT_DATA (Table 16.10). -/
def R.MGT_EVT_DATA : Reg :=
  ⟨0x10024, .one, [F.MGT_EVT_DATA_DATA]⟩

/-- MGT_FW_SEL [2:0] TYPE, RW. -/
def F.MGT_FW_SEL_TYPE : Fld := ⟨0x10028, 0, 3, .rw, 1⟩

/-- The register MGT_FW_SEL (Table 16.10). -/
def R.MGT_FW_SEL : Reg :=
  ⟨0x10028, .one, [F.MGT_FW_SEL_TYPE]⟩

/-- MGT_FW_DATA [0] ACTIVE, RO (reset: NV). -/
def F.MGT_FW_DATA_ACTIVE : Fld := ⟨0x1002C, 0, 1, .ro, 0⟩

/-- MGT_FW_DATA [1] A_VALID, RO (reset: NV). -/
def F.MGT_FW_DATA_A_VALID : Fld := ⟨0x1002C, 1, 1, .ro, 1⟩

/-- MGT_FW_DATA [2] B_VALID, RO (reset: NV). -/
def F.MGT_FW_DATA_B_VALID : Fld := ⟨0x1002C, 2, 1, .ro, 0⟩

/-- MGT_FW_DATA [5:4] STATE, RO. -/
def F.MGT_FW_DATA_STATE : Fld := ⟨0x1002C, 4, 2, .ro, 0⟩

/-- The register MGT_FW_DATA (Table 16.10). -/
def R.MGT_FW_DATA : Reg :=
  ⟨0x1002C, .one, [F.MGT_FW_DATA_ACTIVE,
    F.MGT_FW_DATA_A_VALID,
    F.MGT_FW_DATA_B_VALID,
    F.MGT_FW_DATA_STATE]⟩

/-- MGT_CNT_SESSION [31:0] COUNT, RO. -/
def F.MGT_CNT_SESSION_COUNT : Fld := ⟨0x10040, 0, 32, .ro, 0⟩

/-- The register MGT_CNT_SESSION (Table 16.10). -/
def R.MGT_CNT_SESSION : Reg :=
  ⟨0x10040, .one, [F.MGT_CNT_SESSION_COUNT]⟩

/-- MGT_CNT_AUTHFAIL [31:0] COUNT, RO. -/
def F.MGT_CNT_AUTHFAIL_COUNT : Fld := ⟨0x10044, 0, 32, .ro, 0⟩

/-- The register MGT_CNT_AUTHFAIL (Table 16.10). -/
def R.MGT_CNT_AUTHFAIL : Reg :=
  ⟨0x10044, .one, [F.MGT_CNT_AUTHFAIL_COUNT]⟩

/-- MGT_CNT_EVLOST [31:0] COUNT, RO. -/
def F.MGT_CNT_EVLOST_COUNT : Fld := ⟨0x10048, 0, 32, .ro, 0⟩

/-- The register MGT_CNT_EVLOST (Table 16.10). -/
def R.MGT_CNT_EVLOST : Reg :=
  ⟨0x10048, .one, [F.MGT_CNT_EVLOST_COUNT]⟩

/-- MGT_CNT_MSGBAD [31:0] COUNT, RO. -/
def F.MGT_CNT_MSGBAD_COUNT : Fld := ⟨0x1004C, 0, 32, .ro, 0⟩

/-- The register MGT_CNT_MSGBAD (Table 16.10). -/
def R.MGT_CNT_MSGBAD : Reg :=
  ⟨0x1004C, .one, [F.MGT_CNT_MSGBAD_COUNT]⟩

/-- MGT_CNT_CTRL [0] CLEAR, WO. -/
def F.MGT_CNT_CTRL_CLEAR : Fld := ⟨0x10050, 0, 1, .wo, 0⟩

/-- MGT_CNT_CTRL [1] FREEZE, RW. -/
def F.MGT_CNT_CTRL_FREEZE : Fld := ⟨0x10050, 1, 1, .rw, 0⟩

/-- The register MGT_CNT_CTRL (Table 16.10). -/
def R.MGT_CNT_CTRL : Reg :=
  ⟨0x10050, .one, [F.MGT_CNT_CTRL_CLEAR, F.MGT_CNT_CTRL_FREEZE]⟩

/-! ### Table 17.8 -/

/-- GLB_PWR_STATUS [1:0] STATE, RO. -/
def F.GLB_PWR_STATUS_STATE : Fld := ⟨0x20000, 0, 2, .ro, 0⟩

/-- GLB_PWR_STATUS [2] AUX_OK, RO. -/
def F.GLB_PWR_STATUS_AUX_OK : Fld := ⟨0x20000, 2, 1, .ro, 0⟩

/-- GLB_PWR_STATUS [4:3] SENSE, RO. -/
def F.GLB_PWR_STATUS_SENSE : Fld := ⟨0x20000, 3, 2, .ro, 0⟩

/-- The register GLB_PWR_STATUS (Table 17.8). -/
def R.GLB_PWR_STATUS : Reg :=
  ⟨0x20000, .one, [F.GLB_PWR_STATUS_STATE,
    F.GLB_PWR_STATUS_AUX_OK,
    F.GLB_PWR_STATUS_SENSE]⟩

/-- GLB_PWR_MW [19:0] MW, RO. -/
def F.GLB_PWR_MW_MW : Fld := ⟨0x20004, 0, 20, .ro, 0⟩

/-- The register GLB_PWR_MW (Table 17.8). -/
def R.GLB_PWR_MW : Reg :=
  ⟨0x20004, .one, [F.GLB_PWR_MW_MW]⟩

/-- GLB_RST_CTRL [0] DEVICE, WO. -/
def F.GLB_RST_CTRL_DEVICE : Fld := ⟨0x20008, 0, 1, .wo, 0⟩

/-- GLB_RST_CTRL [1] CORE_RST, WO. -/
def F.GLB_RST_CTRL_CORE_RST : Fld := ⟨0x20008, 1, 1, .wo, 0⟩

/-- GLB_RST_CTRL [2] STOP, WO. -/
def F.GLB_RST_CTRL_STOP : Fld := ⟨0x20008, 2, 1, .wo, 0⟩

/-- GLB_RST_CTRL [12:8] CORE, WO. -/
def F.GLB_RST_CTRL_CORE : Fld := ⟨0x20008, 8, 5, .wo, 0⟩

/-- The register GLB_RST_CTRL (Table 17.8). -/
def R.GLB_RST_CTRL : Reg :=
  ⟨0x20008, .one, [F.GLB_RST_CTRL_DEVICE,
    F.GLB_RST_CTRL_CORE_RST,
    F.GLB_RST_CTRL_STOP,
    F.GLB_RST_CTRL_CORE]⟩

/-- GLB_RST_CAUSE [3:0] CAUSE, RO (reset: NV). -/
def F.GLB_RST_CAUSE_CAUSE : Fld := ⟨0x2000C, 0, 4, .ro, 0⟩

/-- The register GLB_RST_CAUSE (Table 17.8). -/
def R.GLB_RST_CAUSE : Reg :=
  ⟨0x2000C, .one, [F.GLB_RST_CAUSE_CAUSE]⟩

/-- GLB_CLK_STATUS [0] GUARD, RO. -/
def F.GLB_CLK_STATUS_GUARD : Fld := ⟨0x20010, 0, 1, .ro, 0⟩

/-- GLB_CLK_STATUS [5:1] LOCK, RO. -/
def F.GLB_CLK_STATUS_LOCK : Fld := ⟨0x20010, 1, 5, .ro, 0⟩

/-- The register GLB_CLK_STATUS (Table 17.8). -/
def R.GLB_CLK_STATUS : Reg :=
  ⟨0x20010, .one, [F.GLB_CLK_STATUS_GUARD, F.GLB_CLK_STATUS_LOCK]⟩

/-- GLB_THM_STATUS [1:0] LEVEL, RO. -/
def F.GLB_THM_STATUS_LEVEL : Fld := ⟨0x20020, 0, 2, .ro, 0⟩

/-- GLB_THM_STATUS [2] GUARD_ANY, RO. -/
def F.GLB_THM_STATUS_GUARD_ANY : Fld := ⟨0x20020, 2, 1, .ro, 0⟩

/-- GLB_THM_STATUS [3] STOPPING, RO. -/
def F.GLB_THM_STATUS_STOPPING : Fld := ⟨0x20020, 3, 1, .ro, 0⟩

/-- GLB_THM_STATUS [4] CFG_INVALID, W1C. -/
def F.GLB_THM_STATUS_CFG_INVALID : Fld := ⟨0x20020, 4, 1, .w1c, 0⟩

/-- GLB_THM_STATUS [5] RESET_REFUSED, W1C. -/
def F.GLB_THM_STATUS_RESET_REFUSED : Fld := ⟨0x20020, 5, 1, .w1c, 0⟩

/-- GLB_THM_STATUS [31:16] RISE_MAX, RO. -/
def F.GLB_THM_STATUS_RISE_MAX : Fld := ⟨0x20020, 16, 16, .ro, 0⟩

/-- The register GLB_THM_STATUS (Table 17.8). -/
def R.GLB_THM_STATUS : Reg :=
  ⟨0x20020, .one, [F.GLB_THM_STATUS_LEVEL,
    F.GLB_THM_STATUS_GUARD_ANY,
    F.GLB_THM_STATUS_STOPPING,
    F.GLB_THM_STATUS_CFG_INVALID,
    F.GLB_THM_STATUS_RESET_REFUSED,
    F.GLB_THM_STATUS_RISE_MAX]⟩

/-- GLB_THM_RISE [7:0] RISE1, STG. -/
def F.GLB_THM_RISE_RISE1 : Fld := ⟨0x20024, 0, 8, .stg, 8⟩

/-- GLB_THM_RISE [15:8] RISE2, STG. -/
def F.GLB_THM_RISE_RISE2 : Fld := ⟨0x20024, 8, 8, .stg, 0x10⟩

/-- GLB_THM_RISE [23:16] RISE3, STG. -/
def F.GLB_THM_RISE_RISE3 : Fld := ⟨0x20024, 16, 8, .stg, 0x20⟩

/-- The register GLB_THM_RISE (Table 17.8). -/
def R.GLB_THM_RISE : Reg :=
  ⟨0x20024, .one, [F.GLB_THM_RISE_RISE1, F.GLB_THM_RISE_RISE2, F.GLB_THM_RISE_RISE3]⟩

/-- GLB_THM_ABS [11:0] GUARD_C, STG. -/
def F.GLB_THM_ABS_GUARD_C : Fld := ⟨0x20028, 0, 12, .stg, 0x640⟩

/-- GLB_THM_ABS [27:16] STOP_C, STG. -/
def F.GLB_THM_ABS_STOP_C : Fld := ⟨0x20028, 16, 12, .stg, 0x6e0⟩

/-- The register GLB_THM_ABS (Table 17.8). -/
def R.GLB_THM_ABS : Reg :=
  ⟨0x20028, .one, [F.GLB_THM_ABS_GUARD_C, F.GLB_THM_ABS_STOP_C]⟩

/-- GLB_THM_MISC [11:0] DRAM_STOP, STG. -/
def F.GLB_THM_MISC_DRAM_STOP : Fld := ⟨0x2002C, 0, 12, .stg, 0x5f0⟩

/-- GLB_THM_MISC [22:16] DRAIN, STG. -/
def F.GLB_THM_MISC_DRAIN : Fld := ⟨0x2002C, 16, 7, .stg, 0xa⟩

/-- The register GLB_THM_MISC (Table 17.8). -/
def R.GLB_THM_MISC : Reg :=
  ⟨0x2002C, .one, [F.GLB_THM_MISC_DRAM_STOP, F.GLB_THM_MISC_DRAIN]⟩

/-- GLB_THM_COMMIT [0] COMMIT, WO. -/
def F.GLB_THM_COMMIT_COMMIT : Fld := ⟨0x20030, 0, 1, .wo, 0⟩

/-- The register GLB_THM_COMMIT (Table 17.8). -/
def R.GLB_THM_COMMIT : Reg :=
  ⟨0x20030, .one, [F.GLB_THM_COMMIT_COMMIT]⟩

/-- GLB_THM_SEL [4:0] CORE, RW. -/
def F.GLB_THM_SEL_CORE : Fld := ⟨0x20034, 0, 5, .rw, 0⟩

/-- The register GLB_THM_SEL (Table 17.8). -/
def R.GLB_THM_SEL : Reg :=
  ⟨0x20034, .one, [F.GLB_THM_SEL_CORE]⟩

/-- GLB_THM_DATA [15:0] TJ, RO. -/
def F.GLB_THM_DATA_TJ : Fld := ⟨0x20038, 0, 16, .ro, 0⟩

/-- GLB_THM_DATA [31:16] RISE, RO. -/
def F.GLB_THM_DATA_RISE : Fld := ⟨0x20038, 16, 16, .ro, 0⟩

/-- The register GLB_THM_DATA (Table 17.8). -/
def R.GLB_THM_DATA : Reg :=
  ⟨0x20038, .one, [F.GLB_THM_DATA_TJ, F.GLB_THM_DATA_RISE]⟩

/-- GLB_THM_CNT_L1 [31:0] COUNT, RO. -/
def F.GLB_THM_CNT_L1_COUNT : Fld := ⟨0x20040, 0, 32, .ro, 0⟩

/-- The register GLB_THM_CNT_L1 (Table 17.8). -/
def R.GLB_THM_CNT_L1 : Reg :=
  ⟨0x20040, .one, [F.GLB_THM_CNT_L1_COUNT]⟩

/-- GLB_THM_CNT_L2 [31:0] COUNT, RO. -/
def F.GLB_THM_CNT_L2_COUNT : Fld := ⟨0x20044, 0, 32, .ro, 0⟩

/-- The register GLB_THM_CNT_L2 (Table 17.8). -/
def R.GLB_THM_CNT_L2 : Reg :=
  ⟨0x20044, .one, [F.GLB_THM_CNT_L2_COUNT]⟩

/-- GLB_THM_CNT_L3 [31:0] COUNT, RO. -/
def F.GLB_THM_CNT_L3_COUNT : Fld := ⟨0x20048, 0, 32, .ro, 0⟩

/-- The register GLB_THM_CNT_L3 (Table 17.8). -/
def R.GLB_THM_CNT_L3 : Reg :=
  ⟨0x20048, .one, [F.GLB_THM_CNT_L3_COUNT]⟩

/-- GLB_THM_CNT_GUARD [31:0] COUNT, RO. -/
def F.GLB_THM_CNT_GUARD_COUNT : Fld := ⟨0x2004C, 0, 32, .ro, 0⟩

/-- The register GLB_THM_CNT_GUARD (Table 17.8). -/
def R.GLB_THM_CNT_GUARD : Reg :=
  ⟨0x2004C, .one, [F.GLB_THM_CNT_GUARD_COUNT]⟩

/-- GLB_THM_CNT_CTRL [0] CLEAR, WO. -/
def F.GLB_THM_CNT_CTRL_CLEAR : Fld := ⟨0x20050, 0, 1, .wo, 0⟩

/-- GLB_THM_CNT_CTRL [1] FREEZE, RW. -/
def F.GLB_THM_CNT_CTRL_FREEZE : Fld := ⟨0x20050, 1, 1, .rw, 0⟩

/-- The register GLB_THM_CNT_CTRL (Table 17.8). -/
def R.GLB_THM_CNT_CTRL : Reg :=
  ⟨0x20050, .one, [F.GLB_THM_CNT_CTRL_CLEAR, F.GLB_THM_CNT_CTRL_FREEZE]⟩

/-! ### Table 6.7 -/

/-- CORE_ID [4:0] CORE, RO (reset: Per instance). -/
def F.CORE_ID_CORE : Fld := ⟨0x100000, 0, 5, .ro, 0⟩

/-- CORE_ID [10:8] COLUMN, RO (reset: Per instance). -/
def F.CORE_ID_COLUMN : Fld := ⟨0x100000, 8, 3, .ro, 0⟩

/-- CORE_ID [13:12] ROW, RO (reset: Per instance). -/
def F.CORE_ID_ROW : Fld := ⟨0x100000, 12, 2, .ro, 0⟩

/-- The register CORE_ID (Table 6.7). -/
def R.CORE_ID : Reg :=
  ⟨0x100000, .core, [F.CORE_ID_CORE, F.CORE_ID_COLUMN, F.CORE_ID_ROW]⟩

/-- CORE_CTRL [0] START, WO. -/
def F.CORE_CTRL_START : Fld := ⟨0x100004, 0, 1, .wo, 0⟩

/-- CORE_CTRL [1] STOP, WO. -/
def F.CORE_CTRL_STOP : Fld := ⟨0x100004, 1, 1, .wo, 0⟩

/-- CORE_CTRL [2] HALT, WO. -/
def F.CORE_CTRL_HALT : Fld := ⟨0x100004, 2, 1, .wo, 0⟩

/-- CORE_CTRL [3] RESUME, WO. -/
def F.CORE_CTRL_RESUME : Fld := ⟨0x100004, 3, 1, .wo, 0⟩

/-- CORE_CTRL [4] STEP, WO. -/
def F.CORE_CTRL_STEP : Fld := ⟨0x100004, 4, 1, .wo, 0⟩

/-- The register CORE_CTRL (Table 6.7). -/
def R.CORE_CTRL : Reg :=
  ⟨0x100004, .core, [F.CORE_CTRL_START,
    F.CORE_CTRL_STOP,
    F.CORE_CTRL_HALT,
    F.CORE_CTRL_RESUME,
    F.CORE_CTRL_STEP]⟩

/-- CORE_STATUS [2:0] STATE, RO. -/
def F.CORE_STATUS_STATE : Fld := ⟨0x100008, 0, 3, .ro, 0⟩

/-- CORE_STATUS [3] REFUSED_WRITE, W1C. -/
def F.CORE_STATUS_REFUSED_WRITE : Fld := ⟨0x100008, 3, 1, .w1c, 0⟩

/-- CORE_STATUS [4] START_REFUSED, W1C. -/
def F.CORE_STATUS_START_REFUSED : Fld := ⟨0x100008, 4, 1, .w1c, 0⟩

/-- CORE_STATUS [5] HALT_REFUSED, W1C. -/
def F.CORE_STATUS_HALT_REFUSED : Fld := ⟨0x100008, 5, 1, .w1c, 0⟩

/-- CORE_STATUS [6] SRAM_UE_SEEN, W1C. -/
def F.CORE_STATUS_SRAM_UE_SEEN : Fld := ⟨0x100008, 6, 1, .w1c, 0⟩

/-- CORE_STATUS [7] CFG_INVALID, W1C. -/
def F.CORE_STATUS_CFG_INVALID : Fld := ⟨0x100008, 7, 1, .w1c, 0⟩

/-- CORE_STATUS [8] DEBUG, RO. -/
def F.CORE_STATUS_DEBUG : Fld := ⟨0x100008, 8, 1, .ro, 0⟩

/-- CORE_STATUS [15:12] REASON, RO. -/
def F.CORE_STATUS_REASON : Fld := ⟨0x100008, 12, 4, .ro, 0⟩

/-- The register CORE_STATUS (Table 6.7). -/
def R.CORE_STATUS : Reg :=
  ⟨0x100008, .core, [F.CORE_STATUS_STATE,
    F.CORE_STATUS_REFUSED_WRITE,
    F.CORE_STATUS_START_REFUSED,
    F.CORE_STATUS_HALT_REFUSED,
    F.CORE_STATUS_SRAM_UE_SEEN,
    F.CORE_STATUS_CFG_INVALID,
    F.CORE_STATUS_DEBUG,
    F.CORE_STATUS_REASON]⟩

/-- CORE_ROLE [1:0] ROLE, RO. -/
def F.CORE_ROLE_ROLE : Fld := ⟨0x10000C, 0, 2, .ro, 0⟩

/-- CORE_ROLE [2] ENTRY, RO. -/
def F.CORE_ROLE_ENTRY : Fld := ⟨0x10000C, 2, 1, .ro, 0⟩

/-- CORE_ROLE [3] EXIT, RO. -/
def F.CORE_ROLE_EXIT : Fld := ⟨0x10000C, 3, 1, .ro, 0⟩

/-- CORE_ROLE [8:4] CONTEXT, RO. -/
def F.CORE_ROLE_CONTEXT : Fld := ⟨0x10000C, 4, 5, .ro, 0⟩

/-- CORE_ROLE [11:9] K_PART, RO. -/
def F.CORE_ROLE_K_PART : Fld := ⟨0x10000C, 9, 3, .ro, 0⟩

/-- CORE_ROLE [14:12] N_PART, RO. -/
def F.CORE_ROLE_N_PART : Fld := ⟨0x10000C, 12, 3, .ro, 0⟩

/-- CORE_ROLE [31:16] STAGE, RO. -/
def F.CORE_ROLE_STAGE : Fld := ⟨0x10000C, 16, 16, .ro, 0⟩

/-- The register CORE_ROLE (Table 6.7). -/
def R.CORE_ROLE : Reg :=
  ⟨0x10000C, .core, [F.CORE_ROLE_ROLE,
    F.CORE_ROLE_ENTRY,
    F.CORE_ROLE_EXIT,
    F.CORE_ROLE_CONTEXT,
    F.CORE_ROLE_K_PART,
    F.CORE_ROLE_N_PART,
    F.CORE_ROLE_STAGE]⟩

/-- CORE_EPOCH [15:0] EPOCH, RO. -/
def F.CORE_EPOCH_EPOCH : Fld := ⟨0x100010, 0, 16, .ro, 0⟩

/-- The register CORE_EPOCH (Table 6.7). -/
def R.CORE_EPOCH : Reg :=
  ⟨0x100010, .core, [F.CORE_EPOCH_EPOCH]⟩

/-- CORE_CAD_CFG [12:0] LEN, RWS. -/
def F.CORE_CAD_CFG_LEN : Fld := ⟨0x100020, 0, 13, .rws, 0x64⟩

/-- CORE_CAD_CFG [19:16] SLOT_PLANES, RWS. -/
def F.CORE_CAD_CFG_SLOT_PLANES : Fld := ⟨0x100020, 16, 4, .rws, 8⟩

/-- The register CORE_CAD_CFG (Table 6.7). -/
def R.CORE_CAD_CFG : Reg :=
  ⟨0x100020, .core, [F.CORE_CAD_CFG_LEN, F.CORE_CAD_CFG_SLOT_PLANES]⟩

/-- CORE_CAD_STATUS [11:0] POS, RO. -/
def F.CORE_CAD_STATUS_POS : Fld := ⟨0x100024, 0, 12, .ro, 0⟩

/-- CORE_CAD_STATUS [12] BANK, RO. -/
def F.CORE_CAD_STATUS_BANK : Fld := ⟨0x100024, 12, 1, .ro, 0⟩

/-- CORE_CAD_STATUS [13] SWITCH_PENDING, RO. -/
def F.CORE_CAD_STATUS_SWITCH_PENDING : Fld := ⟨0x100024, 13, 1, .ro, 0⟩

/-- The register CORE_CAD_STATUS (Table 6.7). -/
def R.CORE_CAD_STATUS : Reg :=
  ⟨0x100024, .core, [F.CORE_CAD_STATUS_POS,
    F.CORE_CAD_STATUS_BANK,
    F.CORE_CAD_STATUS_SWITCH_PENDING]⟩

/-- CORE_CAD_SEL [11:0] ENTRY, RW. -/
def F.CORE_CAD_SEL_ENTRY : Fld := ⟨0x100028, 0, 12, .rw, 0⟩

/-- CORE_CAD_SEL [12] INACTIVE, RW. -/
def F.CORE_CAD_SEL_INACTIVE : Fld := ⟨0x100028, 12, 1, .rw, 0⟩

/-- The register CORE_CAD_SEL (Table 6.7). -/
def R.CORE_CAD_SEL : Reg :=
  ⟨0x100028, .core, [F.CORE_CAD_SEL_ENTRY, F.CORE_CAD_SEL_INACTIVE]⟩

/-- CORE_CAD_DATA [15:0] ENTRY_VALUE, RO. -/
def F.CORE_CAD_DATA_ENTRY_VALUE : Fld := ⟨0x10002C, 0, 16, .ro, 0⟩

/-- The register CORE_CAD_DATA (Table 6.7). -/
def R.CORE_CAD_DATA : Reg :=
  ⟨0x10002C, .core, [F.CORE_CAD_DATA_ENTRY_VALUE]⟩

/-- CORE_SCR_STATUS [3:0] ZEROED, W1C. -/
def F.CORE_SCR_STATUS_ZEROED : Fld := ⟨0x100030, 0, 4, .w1c, 0⟩

/-- The register CORE_SCR_STATUS (Table 6.7). -/
def R.CORE_SCR_STATUS : Reg :=
  ⟨0x100030, .core, [F.CORE_SCR_STATUS_ZEROED]⟩

/-- CORE_SRAM_ERR [19:0] WORD, RC. -/
def F.CORE_SRAM_ERR_WORD : Fld := ⟨0x100040, 0, 20, .rc, 0⟩

/-- CORE_SRAM_ERR [30] UE, RC. -/
def F.CORE_SRAM_ERR_UE : Fld := ⟨0x100040, 30, 1, .rc, 0⟩

/-- CORE_SRAM_ERR [31] VALID, RC. -/
def F.CORE_SRAM_ERR_VALID : Fld := ⟨0x100040, 31, 1, .rc, 0⟩

/-- The register CORE_SRAM_ERR (Table 6.7). -/
def R.CORE_SRAM_ERR : Reg :=
  ⟨0x100040, .core, [F.CORE_SRAM_ERR_WORD,
    F.CORE_SRAM_ERR_UE,
    F.CORE_SRAM_ERR_VALID]⟩

/-- CORE_CNT_SLOT_LANE [31:0] COUNT, RO. -/
def F.CORE_CNT_SLOT_LANE_COUNT : Fld := ⟨0x100060, 0, 32, .ro, 0⟩

/-- The register CORE_CNT_SLOT_LANE (Table 6.7). -/
def R.CORE_CNT_SLOT_LANE : Reg :=
  ⟨0x100060, .core, [F.CORE_CNT_SLOT_LANE_COUNT]⟩

/-- CORE_CNT_SLOT_IDLE [31:0] COUNT, RO. -/
def F.CORE_CNT_SLOT_IDLE_COUNT : Fld := ⟨0x100064, 0, 32, .ro, 0⟩

/-- The register CORE_CNT_SLOT_IDLE (Table 6.7). -/
def R.CORE_CNT_SLOT_IDLE : Reg :=
  ⟨0x100064, .core, [F.CORE_CNT_SLOT_IDLE_COUNT]⟩

/-- CORE_CNT_GLADE [31:0] COUNT, RO. -/
def F.CORE_CNT_GLADE_COUNT : Fld := ⟨0x100068, 0, 32, .ro, 0⟩

/-- The register CORE_CNT_GLADE (Table 6.7). -/
def R.CORE_CNT_GLADE : Reg :=
  ⟨0x100068, .core, [F.CORE_CNT_GLADE_COUNT]⟩

/-- CORE_CNT_SCRROW [31:0] COUNT, RO. -/
def F.CORE_CNT_SCRROW_COUNT : Fld := ⟨0x10006C, 0, 32, .ro, 0⟩

/-- The register CORE_CNT_SCRROW (Table 6.7). -/
def R.CORE_CNT_SCRROW : Reg :=
  ⟨0x10006C, .core, [F.CORE_CNT_SCRROW_COUNT]⟩

/-- CORE_CNT_SCRSTALE [31:0] COUNT, RO. -/
def F.CORE_CNT_SCRSTALE_COUNT : Fld := ⟨0x100070, 0, 32, .ro, 0⟩

/-- The register CORE_CNT_SCRSTALE (Table 6.7). -/
def R.CORE_CNT_SCRSTALE : Reg :=
  ⟨0x100070, .core, [F.CORE_CNT_SCRSTALE_COUNT]⟩

/-- CORE_CNT_STGEXC [31:0] COUNT, RO. -/
def F.CORE_CNT_STGEXC_COUNT : Fld := ⟨0x100074, 0, 32, .ro, 0⟩

/-- The register CORE_CNT_STGEXC (Table 6.7). -/
def R.CORE_CNT_STGEXC : Reg :=
  ⟨0x100074, .core, [F.CORE_CNT_STGEXC_COUNT]⟩

/-- CORE_CNT_SRAM_CE [31:0] COUNT, RO. -/
def F.CORE_CNT_SRAM_CE_COUNT : Fld := ⟨0x100078, 0, 32, .ro, 0⟩

/-- The register CORE_CNT_SRAM_CE (Table 6.7). -/
def R.CORE_CNT_SRAM_CE : Reg :=
  ⟨0x100078, .core, [F.CORE_CNT_SRAM_CE_COUNT]⟩

/-- CORE_CNT_SRAM_UE [31:0] COUNT, RO. -/
def F.CORE_CNT_SRAM_UE_COUNT : Fld := ⟨0x10007C, 0, 32, .ro, 0⟩

/-- The register CORE_CNT_SRAM_UE (Table 6.7). -/
def R.CORE_CNT_SRAM_UE : Reg :=
  ⟨0x10007C, .core, [F.CORE_CNT_SRAM_UE_COUNT]⟩

/-- CORE_CNT_VUSAT [31:0] COUNT, RO. -/
def F.CORE_CNT_VUSAT_COUNT : Fld := ⟨0x100080, 0, 32, .ro, 0⟩

/-- The register CORE_CNT_VUSAT (Table 6.7). -/
def R.CORE_CNT_VUSAT : Reg :=
  ⟨0x100080, .core, [F.CORE_CNT_VUSAT_COUNT]⟩

/-- CORE_CNT_SPILLWAIT [31:0] COUNT, RO. -/
def F.CORE_CNT_SPILLWAIT_COUNT : Fld := ⟨0x100084, 0, 32, .ro, 0⟩

/-- The register CORE_CNT_SPILLWAIT (Table 6.7). -/
def R.CORE_CNT_SPILLWAIT : Reg :=
  ⟨0x100084, .core, [F.CORE_CNT_SPILLWAIT_COUNT]⟩

/-- CORE_CNT_CTRL [0] CLEAR, WO. -/
def F.CORE_CNT_CTRL_CLEAR : Fld := ⟨0x100090, 0, 1, .wo, 0⟩

/-- CORE_CNT_CTRL [1] FREEZE, RW. -/
def F.CORE_CNT_CTRL_FREEZE : Fld := ⟨0x100090, 1, 1, .rw, 0⟩

/-- The register CORE_CNT_CTRL (Table 6.7). -/
def R.CORE_CNT_CTRL : Reg :=
  ⟨0x100090, .core, [F.CORE_CNT_CTRL_CLEAR, F.CORE_CNT_CTRL_FREEZE]⟩

/-- CORE_DBG_CTRL [0] ENTER, WO. -/
def F.CORE_DBG_CTRL_ENTER : Fld := ⟨0x1000A0, 0, 1, .wo, 0⟩

/-- CORE_DBG_CTRL [1] EXIT, WO. -/
def F.CORE_DBG_CTRL_EXIT : Fld := ⟨0x1000A0, 1, 1, .wo, 0⟩

/-- The register CORE_DBG_CTRL (Table 6.7). -/
def R.CORE_DBG_CTRL : Reg :=
  ⟨0x1000A0, .core, [F.CORE_DBG_CTRL_ENTER, F.CORE_DBG_CTRL_EXIT]⟩

/-! ### Table 4.8 -/

/-- CORE_EPI_CFG [0] SEED_FIX, RWS. -/
def F.CORE_EPI_CFG_SEED_FIX : Fld := ⟨0x100800, 0, 1, .rws, 0⟩

/-- The register CORE_EPI_CFG (Table 4.8). -/
def R.CORE_EPI_CFG : Reg :=
  ⟨0x100800, .core, [F.CORE_EPI_CFG_SEED_FIX]⟩

/-- CORE_EPI_STATUS [0] REFUSED_WRITE, W1C. -/
def F.CORE_EPI_STATUS_REFUSED_WRITE : Fld := ⟨0x100804, 0, 1, .w1c, 0⟩

/-- CORE_EPI_STATUS [1] ACC_SAT_SEEN, W1C. -/
def F.CORE_EPI_STATUS_ACC_SAT_SEEN : Fld := ⟨0x100804, 1, 1, .w1c, 0⟩

/-- CORE_EPI_STATUS [2] FALLBACK_SEEN, W1C. -/
def F.CORE_EPI_STATUS_FALLBACK_SEEN : Fld := ⟨0x100804, 2, 1, .w1c, 0⟩

/-- The register CORE_EPI_STATUS (Table 4.8). -/
def R.CORE_EPI_STATUS : Reg :=
  ⟨0x100804, .core, [F.CORE_EPI_STATUS_REFUSED_WRITE,
    F.CORE_EPI_STATUS_ACC_SAT_SEEN,
    F.CORE_EPI_STATUS_FALLBACK_SEEN]⟩

/-- CORE_EPI_SEED_BASE [31:0] SEED_BASE, RWS. -/
def F.CORE_EPI_SEED_BASE_SEED_BASE : Fld := ⟨0x100808, 0, 32, .rws, 0⟩

/-- The register CORE_EPI_SEED_BASE (Table 4.8). -/
def R.CORE_EPI_SEED_BASE : Reg :=
  ⟨0x100808, .core, [F.CORE_EPI_SEED_BASE_SEED_BASE]⟩

/-- CORE_EPI_TILE_USE [31:0] T, RO. -/
def F.CORE_EPI_TILE_USE_T : Fld := ⟨0x10080C, 0, 32, .ro, 0⟩

/-- The register CORE_EPI_TILE_USE (Table 4.8). -/
def R.CORE_EPI_TILE_USE : Reg :=
  ⟨0x10080C, .core, [F.CORE_EPI_TILE_USE_T]⟩

/-- CORE_EPI_SEED_LAST [15:0] SEED, RO. -/
def F.CORE_EPI_SEED_LAST_SEED : Fld := ⟨0x100810, 0, 16, .ro, 0⟩

/-- CORE_EPI_SEED_LAST [16] TILE, RO. -/
def F.CORE_EPI_SEED_LAST_TILE : Fld := ⟨0x100810, 16, 1, .ro, 0⟩

/-- The register CORE_EPI_SEED_LAST (Table 4.8). -/
def R.CORE_EPI_SEED_LAST : Reg :=
  ⟨0x100810, .core, [F.CORE_EPI_SEED_LAST_SEED, F.CORE_EPI_SEED_LAST_TILE]⟩

/-- CORE_EPI_TILE [1:0] STATE, RO. -/
def F.CORE_EPI_TILE_STATE : Fld := ⟨0x100814, 0, 2, .ro, 0⟩

/-- CORE_EPI_TILE [7:2] GROUP_PASSES, RO. -/
def F.CORE_EPI_TILE_GROUP_PASSES : Fld := ⟨0x100814, 2, 6, .ro, 0⟩

/-- CORE_EPI_TILE [16:8] GROUPS, RO. -/
def F.CORE_EPI_TILE_GROUPS : Fld := ⟨0x100814, 8, 9, .ro, 0⟩

/-- CORE_EPI_TILE [22:17] IN_FLIGHT, RO. -/
def F.CORE_EPI_TILE_IN_FLIGHT : Fld := ⟨0x100814, 17, 6, .ro, 0⟩

/-- CORE_EPI_TILE [23] FALLBACK, RO. -/
def F.CORE_EPI_TILE_FALLBACK : Fld := ⟨0x100814, 23, 1, .ro, 0⟩

/-- The register CORE_EPI_TILE (Table 4.8). -/
def R.CORE_EPI_TILE : Reg :=
  ⟨0x100814, .core, [F.CORE_EPI_TILE_STATE,
    F.CORE_EPI_TILE_GROUP_PASSES,
    F.CORE_EPI_TILE_GROUPS,
    F.CORE_EPI_TILE_IN_FLIGHT,
    F.CORE_EPI_TILE_FALLBACK]⟩

/-- CORE_EPI_CNT_SAT [31:0] COUNT, RO. -/
def F.CORE_EPI_CNT_SAT_COUNT : Fld := ⟨0x100820, 0, 32, .ro, 0⟩

/-- The register CORE_EPI_CNT_SAT (Table 4.8). -/
def R.CORE_EPI_CNT_SAT : Reg :=
  ⟨0x100820, .core, [F.CORE_EPI_CNT_SAT_COUNT]⟩

/-- CORE_EPI_CNT_NAN [31:0] COUNT, RO. -/
def F.CORE_EPI_CNT_NAN_COUNT : Fld := ⟨0x100824, 0, 32, .ro, 0⟩

/-- The register CORE_EPI_CNT_NAN (Table 4.8). -/
def R.CORE_EPI_CNT_NAN : Reg :=
  ⟨0x100824, .core, [F.CORE_EPI_CNT_NAN_COUNT]⟩

/-- CORE_EPI_CNT_ACCSAT [31:0] COUNT, RO. -/
def F.CORE_EPI_CNT_ACCSAT_COUNT : Fld := ⟨0x100828, 0, 32, .ro, 0⟩

/-- The register CORE_EPI_CNT_ACCSAT (Table 4.8). -/
def R.CORE_EPI_CNT_ACCSAT : Reg :=
  ⟨0x100828, .core, [F.CORE_EPI_CNT_ACCSAT_COUNT]⟩

/-- CORE_EPI_CNT_FALLBACK [31:0] COUNT, RO. -/
def F.CORE_EPI_CNT_FALLBACK_COUNT : Fld := ⟨0x10082C, 0, 32, .ro, 0⟩

/-- The register CORE_EPI_CNT_FALLBACK (Table 4.8). -/
def R.CORE_EPI_CNT_FALLBACK : Reg :=
  ⟨0x10082C, .core, [F.CORE_EPI_CNT_FALLBACK_COUNT]⟩

/-- CORE_EPI_CNT_DRAINWAIT [31:0] COUNT, RO. -/
def F.CORE_EPI_CNT_DRAINWAIT_COUNT : Fld := ⟨0x100830, 0, 32, .ro, 0⟩

/-- The register CORE_EPI_CNT_DRAINWAIT (Table 4.8). -/
def R.CORE_EPI_CNT_DRAINWAIT : Reg :=
  ⟨0x100830, .core, [F.CORE_EPI_CNT_DRAINWAIT_COUNT]⟩

/-- CORE_EPI_CNT_TWAIT [31:0] COUNT, RO. -/
def F.CORE_EPI_CNT_TWAIT_COUNT : Fld := ⟨0x100834, 0, 32, .ro, 0⟩

/-- The register CORE_EPI_CNT_TWAIT (Table 4.8). -/
def R.CORE_EPI_CNT_TWAIT : Reg :=
  ⟨0x100834, .core, [F.CORE_EPI_CNT_TWAIT_COUNT]⟩

/-- CORE_EPI_CNT_PRESAT [31:0] COUNT, RO. -/
def F.CORE_EPI_CNT_PRESAT_COUNT : Fld := ⟨0x100838, 0, 32, .ro, 0⟩

/-- The register CORE_EPI_CNT_PRESAT (Table 4.8). -/
def R.CORE_EPI_CNT_PRESAT : Reg :=
  ⟨0x100838, .core, [F.CORE_EPI_CNT_PRESAT_COUNT]⟩

/-- CORE_EPI_CNT_CTRL [0] CLEAR, WO. -/
def F.CORE_EPI_CNT_CTRL_CLEAR : Fld := ⟨0x100840, 0, 1, .wo, 0⟩

/-- CORE_EPI_CNT_CTRL [1] FREEZE, RW. -/
def F.CORE_EPI_CNT_CTRL_FREEZE : Fld := ⟨0x100840, 1, 1, .rw, 0⟩

/-- The register CORE_EPI_CNT_CTRL (Table 4.8). -/
def R.CORE_EPI_CNT_CTRL : Reg :=
  ⟨0x100840, .core, [F.CORE_EPI_CNT_CTRL_CLEAR, F.CORE_EPI_CNT_CTRL_FREEZE]⟩

/-- CORE_EPI_L2_SEL [14:0] COLUMN, RW. -/
def F.CORE_EPI_L2_SEL_COLUMN : Fld := ⟨0x100880, 0, 15, .rw, 0⟩

/-- CORE_EPI_L2_SEL [16] TILE, RW. -/
def F.CORE_EPI_L2_SEL_TILE : Fld := ⟨0x100880, 16, 1, .rw, 0⟩

/-- The register CORE_EPI_L2_SEL (Table 4.8). -/
def R.CORE_EPI_L2_SEL : Reg :=
  ⟨0x100880, .core, [F.CORE_EPI_L2_SEL_COLUMN, F.CORE_EPI_L2_SEL_TILE]⟩

/-- CORE_EPI_L2_LO [31:0] VALUE_LO, RO. -/
def F.CORE_EPI_L2_LO_VALUE_LO : Fld := ⟨0x100884, 0, 32, .ro, 0⟩

/-- The register CORE_EPI_L2_LO (Table 4.8). -/
def R.CORE_EPI_L2_LO : Reg :=
  ⟨0x100884, .core, [F.CORE_EPI_L2_LO_VALUE_LO]⟩

/-- CORE_EPI_L2_HI [31:0] VALUE_HI, RO. -/
def F.CORE_EPI_L2_HI_VALUE_HI : Fld := ⟨0x100888, 0, 32, .ro, 0⟩

/-- The register CORE_EPI_L2_HI (Table 4.8). -/
def R.CORE_EPI_L2_HI : Reg :=
  ⟨0x100888, .core, [F.CORE_EPI_L2_HI_VALUE_HI]⟩

/-! ### Table 7.12 -/

/-- SEQ_STATUS [1:0] VEC_STATE, RO. -/
def F.SEQ_STATUS_VEC_STATE : Fld := ⟨0x101000, 0, 2, .ro, 0⟩

/-- SEQ_STATUS [3:2] ITEM_STATE, RO. -/
def F.SEQ_STATUS_ITEM_STATE : Fld := ⟨0x101000, 2, 2, .ro, 0⟩

/-- SEQ_STATUS [14:4] VEC_PC, RO. -/
def F.SEQ_STATUS_VEC_PC : Fld := ⟨0x101000, 4, 11, .ro, 0⟩

/-- SEQ_STATUS [25:15] ITEM_PC, RO. -/
def F.SEQ_STATUS_ITEM_PC : Fld := ⟨0x101000, 15, 11, .ro, 0⟩

/-- SEQ_STATUS [26] LOADED, RO. -/
def F.SEQ_STATUS_LOADED : Fld := ⟨0x101000, 26, 1, .ro, 0⟩

/-- SEQ_STATUS [27] INIT_DONE, RO. -/
def F.SEQ_STATUS_INIT_DONE : Fld := ⟨0x101000, 27, 1, .ro, 0⟩

/-- SEQ_STATUS [28] PM_UE_SEEN, W1C. -/
def F.SEQ_STATUS_PM_UE_SEEN : Fld := ⟨0x101000, 28, 1, .w1c, 0⟩

/-- The register SEQ_STATUS (Table 7.12). -/
def R.SEQ_STATUS : Reg :=
  ⟨0x101000, .core, [F.SEQ_STATUS_VEC_STATE,
    F.SEQ_STATUS_ITEM_STATE,
    F.SEQ_STATUS_VEC_PC,
    F.SEQ_STATUS_ITEM_PC,
    F.SEQ_STATUS_LOADED,
    F.SEQ_STATUS_INIT_DONE,
    F.SEQ_STATUS_PM_UE_SEEN]⟩

/-- SEQ_PROG [11:0] LEN, RO. -/
def F.SEQ_PROG_LEN : Fld := ⟨0x101004, 0, 12, .ro, 0⟩

/-- SEQ_PROG [22:12] VEC_PC, RO. -/
def F.SEQ_PROG_VEC_PC : Fld := ⟨0x101004, 12, 11, .ro, 0⟩

/-- SEQ_PROG [23] ITEM_EN, RO. -/
def F.SEQ_PROG_ITEM_EN : Fld := ⟨0x101004, 23, 1, .ro, 0⟩

/-- The register SEQ_PROG (Table 7.12). -/
def R.SEQ_PROG : Reg :=
  ⟨0x101004, .core, [F.SEQ_PROG_LEN, F.SEQ_PROG_VEC_PC, F.SEQ_PROG_ITEM_EN]⟩

/-- SEQ_BUDGET [7:0] VEC_INSTR, RO. -/
def F.SEQ_BUDGET_VEC_INSTR : Fld := ⟨0x101008, 0, 8, .ro, 0⟩

/-- SEQ_BUDGET [31:16] ITEM_CYC, RO. -/
def F.SEQ_BUDGET_ITEM_CYC : Fld := ⟨0x101008, 16, 16, .ro, 0⟩

/-- The register SEQ_BUDGET (Table 7.12). -/
def R.SEQ_BUDGET : Reg :=
  ⟨0x101008, .core, [F.SEQ_BUDGET_VEC_INSTR, F.SEQ_BUDGET_ITEM_CYC]⟩

/-- SEQ_BREAK [10:0] PC, RW. -/
def F.SEQ_BREAK_PC : Fld := ⟨0x10100C, 0, 11, .rw, 0⟩

/-- SEQ_BREAK [16] EN, RW. -/
def F.SEQ_BREAK_EN : Fld := ⟨0x10100C, 16, 1, .rw, 0⟩

/-- The register SEQ_BREAK (Table 7.12). -/
def R.SEQ_BREAK : Reg :=
  ⟨0x10100C, .core, [F.SEQ_BREAK_PC, F.SEQ_BREAK_EN]⟩

/-- SEQ_PM_SEL [11:0] WORD, RW. -/
def F.SEQ_PM_SEL_WORD : Fld := ⟨0x101010, 0, 12, .rw, 0⟩

/-- The register SEQ_PM_SEL (Table 7.12). -/
def R.SEQ_PM_SEL : Reg :=
  ⟨0x101010, .core, [F.SEQ_PM_SEL_WORD]⟩

/-- SEQ_PM_DATA [31:0] DATA, RO. -/
def F.SEQ_PM_DATA_DATA : Fld := ⟨0x101014, 0, 32, .ro, 0⟩

/-- The register SEQ_PM_DATA (Table 7.12). -/
def R.SEQ_PM_DATA : Reg :=
  ⟨0x101014, .core, [F.SEQ_PM_DATA_DATA]⟩

/-- SEQ_A_SEL [3:0] REG, RW. -/
def F.SEQ_A_SEL_REG : Fld := ⟨0x101018, 0, 4, .rw, 0⟩

/-- The register SEQ_A_SEL (Table 7.12). -/
def R.SEQ_A_SEL : Reg :=
  ⟨0x101018, .core, [F.SEQ_A_SEL_REG]⟩

/-- SEQ_A_DATA [22:0] VALUE, RO. -/
def F.SEQ_A_DATA_VALUE : Fld := ⟨0x10101C, 0, 23, .ro, 0⟩

/-- The register SEQ_A_DATA (Table 7.12). -/
def R.SEQ_A_DATA : Reg :=
  ⟨0x10101C, .core, [F.SEQ_A_DATA_VALUE]⟩

/-- SEQ_DIGEST_SEL [3:0] WORD, RW. -/
def F.SEQ_DIGEST_SEL_WORD : Fld := ⟨0x101020, 0, 4, .rw, 0⟩

/-- The register SEQ_DIGEST_SEL (Table 7.12). -/
def R.SEQ_DIGEST_SEL : Reg :=
  ⟨0x101020, .core, [F.SEQ_DIGEST_SEL_WORD]⟩

/-- SEQ_DIGEST_DATA [31:0] DATA, RO. -/
def F.SEQ_DIGEST_DATA_DATA : Fld := ⟨0x101024, 0, 32, .ro, 0⟩

/-- The register SEQ_DIGEST_DATA (Table 7.12). -/
def R.SEQ_DIGEST_DATA : Reg :=
  ⟨0x101024, .core, [F.SEQ_DIGEST_DATA_DATA]⟩

/-- SEQ_CNT_VEC [31:0] COUNT, RO. -/
def F.SEQ_CNT_VEC_COUNT : Fld := ⟨0x101040, 0, 32, .ro, 0⟩

/-- The register SEQ_CNT_VEC (Table 7.12). -/
def R.SEQ_CNT_VEC : Reg :=
  ⟨0x101040, .core, [F.SEQ_CNT_VEC_COUNT]⟩

/-- SEQ_CNT_ITEM [31:0] COUNT, RO. -/
def F.SEQ_CNT_ITEM_COUNT : Fld := ⟨0x101044, 0, 32, .ro, 0⟩

/-- The register SEQ_CNT_ITEM (Table 7.12). -/
def R.SEQ_CNT_ITEM : Reg :=
  ⟨0x101044, .core, [F.SEQ_CNT_ITEM_COUNT]⟩

/-- SEQ_CNT_ITEMWAIT [31:0] COUNT, RO. -/
def F.SEQ_CNT_ITEMWAIT_COUNT : Fld := ⟨0x101048, 0, 32, .ro, 0⟩

/-- The register SEQ_CNT_ITEMWAIT (Table 7.12). -/
def R.SEQ_CNT_ITEMWAIT : Reg :=
  ⟨0x101048, .core, [F.SEQ_CNT_ITEMWAIT_COUNT]⟩

/-- SEQ_CNT_VRANGE [31:0] COUNT, RO. -/
def F.SEQ_CNT_VRANGE_COUNT : Fld := ⟨0x10104C, 0, 32, .ro, 0⟩

/-- The register SEQ_CNT_VRANGE (Table 7.12). -/
def R.SEQ_CNT_VRANGE : Reg :=
  ⟨0x10104C, .core, [F.SEQ_CNT_VRANGE_COUNT]⟩

/-- SEQ_CNT_PM_CE [31:0] COUNT, RO. -/
def F.SEQ_CNT_PM_CE_COUNT : Fld := ⟨0x101050, 0, 32, .ro, 0⟩

/-- The register SEQ_CNT_PM_CE (Table 7.12). -/
def R.SEQ_CNT_PM_CE : Reg :=
  ⟨0x101050, .core, [F.SEQ_CNT_PM_CE_COUNT]⟩

/-- SEQ_CNT_PM_UE [31:0] COUNT, RO. -/
def F.SEQ_CNT_PM_UE_COUNT : Fld := ⟨0x101054, 0, 32, .ro, 0⟩

/-- The register SEQ_CNT_PM_UE (Table 7.12). -/
def R.SEQ_CNT_PM_UE : Reg :=
  ⟨0x101054, .core, [F.SEQ_CNT_PM_UE_COUNT]⟩

/-- SEQ_CNT_CTRL [0] CLEAR, WO. -/
def F.SEQ_CNT_CTRL_CLEAR : Fld := ⟨0x101060, 0, 1, .wo, 0⟩

/-- SEQ_CNT_CTRL [1] FREEZE, RW. -/
def F.SEQ_CNT_CTRL_FREEZE : Fld := ⟨0x101060, 1, 1, .rw, 0⟩

/-- The register SEQ_CNT_CTRL (Table 7.12). -/
def R.SEQ_CNT_CTRL : Reg :=
  ⟨0x101060, .core, [F.SEQ_CNT_CTRL_CLEAR, F.SEQ_CNT_CTRL_FREEZE]⟩

/-! ### Table 5.7 -/

/-- RST_CTRL [0] CAL_PASS, WO. -/
def F.RST_CTRL_CAL_PASS : Fld := ⟨0x102000, 0, 1, .wo, 0⟩

/-- RST_CTRL [1] PASSPORT_SNAP, WO. -/
def F.RST_CTRL_PASSPORT_SNAP : Fld := ⟨0x102000, 1, 1, .wo, 0⟩

/-- The register RST_CTRL (Table 5.7). -/
def R.RST_CTRL : Reg :=
  ⟨0x102000, .core, [F.RST_CTRL_CAL_PASS, F.RST_CTRL_PASSPORT_SNAP]⟩

/-- RST_STATUS [1:0] STATE, RO. -/
def F.RST_STATUS_STATE : Fld := ⟨0x102004, 0, 2, .ro, 0⟩

/-- RST_STATUS [2] LAG, W1C. -/
def F.RST_STATUS_LAG : Fld := ⟨0x102004, 2, 1, .w1c, 0⟩

/-- RST_STATUS [3] DROOP_LIMIT, W1C. -/
def F.RST_STATUS_DROOP_LIMIT : Fld := ⟨0x102004, 3, 1, .w1c, 0⟩

/-- RST_STATUS [4] DIGEST_MISMATCH, W1C. -/
def F.RST_STATUS_DIGEST_MISMATCH : Fld := ⟨0x102004, 4, 1, .w1c, 0⟩

/-- RST_STATUS [5] CAL_FAIL, W1C. -/
def F.RST_STATUS_CAL_FAIL : Fld := ⟨0x102004, 5, 1, .w1c, 0⟩

/-- RST_STATUS [6] SPARE_EXHAUSTED, W1C. -/
def F.RST_STATUS_SPARE_EXHAUSTED : Fld := ⟨0x102004, 6, 1, .w1c, 0⟩

/-- RST_STATUS [7] LIM_INVALID, W1C. -/
def F.RST_STATUS_LIM_INVALID : Fld := ⟨0x102004, 7, 1, .w1c, 0⟩

/-- RST_STATUS [8] GEN_PENDING, RO. -/
def F.RST_STATUS_GEN_PENDING : Fld := ⟨0x102004, 8, 1, .ro, 0⟩

/-- The register RST_STATUS (Table 5.7). -/
def R.RST_STATUS : Reg :=
  ⟨0x102004, .core, [F.RST_STATUS_STATE,
    F.RST_STATUS_LAG,
    F.RST_STATUS_DROOP_LIMIT,
    F.RST_STATUS_DIGEST_MISMATCH,
    F.RST_STATUS_CAL_FAIL,
    F.RST_STATUS_SPARE_EXHAUSTED,
    F.RST_STATUS_LIM_INVALID,
    F.RST_STATUS_GEN_PENDING]⟩

/-- RST_PERIOD [13:0] CUR_US, RO. -/
def F.RST_PERIOD_CUR_US : Fld := ⟨0x102008, 0, 14, .ro, 0xfa0⟩

/-- RST_PERIOD [29:16] TARGET_US, RO. -/
def F.RST_PERIOD_TARGET_US : Fld := ⟨0x102008, 16, 14, .ro, 0xfa0⟩

/-- The register RST_PERIOD (Table 5.7). -/
def R.RST_PERIOD : Reg :=
  ⟨0x102008, .core, [F.RST_PERIOD_CUR_US, F.RST_PERIOD_TARGET_US]⟩

/-- RST_PERIOD_LIM [13:0] MIN_US, STG. -/
def F.RST_PERIOD_LIM_MIN_US : Fld := ⟨0x10200C, 0, 14, .stg, 0x3e8⟩

/-- RST_PERIOD_LIM [29:16] MAX_US, STG. -/
def F.RST_PERIOD_LIM_MAX_US : Fld := ⟨0x10200C, 16, 14, .stg, 0x1f40⟩

/-- The register RST_PERIOD_LIM (Table 5.7). -/
def R.RST_PERIOD_LIM : Reg :=
  ⟨0x10200C, .core, [F.RST_PERIOD_LIM_MIN_US, F.RST_PERIOD_LIM_MAX_US]⟩

/-- RST_COMMIT [0] COMMIT, WO. -/
def F.RST_COMMIT_COMMIT : Fld := ⟨0x102010, 0, 1, .wo, 0⟩

/-- The register RST_COMMIT (Table 5.7). -/
def R.RST_COMMIT : Reg :=
  ⟨0x102010, .core, [F.RST_COMMIT_COMMIT]⟩

/-- RST_DROOP [15:0] PPM_MS, RO. -/
def F.RST_DROOP_PPM_MS : Fld := ⟨0x102014, 0, 16, .ro, 0⟩

/-- The register RST_DROOP (Table 5.7). -/
def R.RST_DROOP : Reg :=
  ⟨0x102014, .core, [F.RST_DROOP_PPM_MS]⟩

/-- RST_GEN [31:0] GEN, RO. -/
def F.RST_GEN_GEN : Fld := ⟨0x102018, 0, 32, .ro, 0⟩

/-- The register RST_GEN (Table 5.7). -/
def R.RST_GEN : Reg :=
  ⟨0x102018, .core, [F.RST_GEN_GEN]⟩

/-- RST_GEN_NEXT [31:0] GEN, RO. -/
def F.RST_GEN_NEXT_GEN : Fld := ⟨0x10201C, 0, 32, .ro, 0⟩

/-- The register RST_GEN_NEXT (Table 5.7). -/
def R.RST_GEN_NEXT : Reg :=
  ⟨0x10201C, .core, [F.RST_GEN_NEXT_GEN]⟩

/-- RST_SLOT [0] ACTIVE, RO. -/
def F.RST_SLOT_ACTIVE : Fld := ⟨0x102020, 0, 1, .ro, 0⟩

/-- RST_SLOT [1] NEXT_READY, RO. -/
def F.RST_SLOT_NEXT_READY : Fld := ⟨0x102020, 1, 1, .ro, 0⟩

/-- The register RST_SLOT (Table 5.7). -/
def R.RST_SLOT : Reg :=
  ⟨0x102020, .core, [F.RST_SLOT_ACTIVE, F.RST_SLOT_NEXT_READY]⟩

/-- RST_LAG [15:0] MAX_LAG_US, RO. -/
def F.RST_LAG_MAX_LAG_US : Fld := ⟨0x102024, 0, 16, .ro, 0⟩

/-- The register RST_LAG (Table 5.7). -/
def R.RST_LAG : Reg :=
  ⟨0x102024, .core, [F.RST_LAG_MAX_LAG_US]⟩

/-- RST_CAL_SEL [5:0] ENGINE, RW. -/
def F.RST_CAL_SEL_ENGINE : Fld := ⟨0x102030, 0, 6, .rw, 0⟩

/-- RST_CAL_SEL [16:6] COLUMN, RW. -/
def F.RST_CAL_SEL_COLUMN : Fld := ⟨0x102030, 6, 11, .rw, 0⟩

/-- RST_CAL_SEL [17] SEG, RW. -/
def F.RST_CAL_SEL_SEG : Fld := ⟨0x102030, 17, 1, .rw, 0⟩

/-- RST_CAL_SEL [19:18] KIND, RW. -/
def F.RST_CAL_SEL_KIND : Fld := ⟨0x102030, 18, 2, .rw, 0⟩

/-- The register RST_CAL_SEL (Table 5.7). -/
def R.RST_CAL_SEL : Reg :=
  ⟨0x102030, .core, [F.RST_CAL_SEL_ENGINE,
    F.RST_CAL_SEL_COLUMN,
    F.RST_CAL_SEL_SEG,
    F.RST_CAL_SEL_KIND]⟩

/-- RST_CAL_DATA [15:0] GAIN, RO. -/
def F.RST_CAL_DATA_GAIN : Fld := ⟨0x102034, 0, 16, .ro, 0⟩

/-- RST_CAL_DATA [27:16] OFFSET, RO. -/
def F.RST_CAL_DATA_OFFSET : Fld := ⟨0x102034, 16, 12, .ro, 0⟩

/-- RST_CAL_DATA [28] VALID, RO. -/
def F.RST_CAL_DATA_VALID : Fld := ⟨0x102034, 28, 1, .ro, 0⟩

/-- The register RST_CAL_DATA (Table 5.7). -/
def R.RST_CAL_DATA : Reg :=
  ⟨0x102034, .core, [F.RST_CAL_DATA_GAIN,
    F.RST_CAL_DATA_OFFSET,
    F.RST_CAL_DATA_VALID]⟩

/-- RST_SPARE_SEL [5:0] ENGINE, RW. -/
def F.RST_SPARE_SEL_ENGINE : Fld := ⟨0x102040, 0, 6, .rw, 0⟩

/-- RST_SPARE_SEL [13:8] SPARE, RW. -/
def F.RST_SPARE_SEL_SPARE : Fld := ⟨0x102040, 8, 6, .rw, 0⟩

/-- The register RST_SPARE_SEL (Table 5.7). -/
def R.RST_SPARE_SEL : Reg :=
  ⟨0x102040, .core, [F.RST_SPARE_SEL_ENGINE, F.RST_SPARE_SEL_SPARE]⟩

/-- RST_SPARE_DATA [10:0] TARGET, RO (reset: NV). -/
def F.RST_SPARE_DATA_TARGET : Fld := ⟨0x102044, 0, 11, .ro, 0⟩

/-- RST_SPARE_DATA [13:12] STATE, RO (reset: NV). -/
def F.RST_SPARE_DATA_STATE : Fld := ⟨0x102044, 12, 2, .ro, 0⟩

/-- The register RST_SPARE_DATA (Table 5.7). -/
def R.RST_SPARE_DATA : Reg :=
  ⟨0x102044, .core, [F.RST_SPARE_DATA_TARGET, F.RST_SPARE_DATA_STATE]⟩

/-- RST_DIGEST_SEL [5:0] ENGINE, RW. -/
def F.RST_DIGEST_SEL_ENGINE : Fld := ⟨0x102048, 0, 6, .rw, 0⟩

/-- RST_DIGEST_SEL [11:8] WORD, RW. -/
def F.RST_DIGEST_SEL_WORD : Fld := ⟨0x102048, 8, 4, .rw, 0⟩

/-- RST_DIGEST_SEL [12] WHICH, RW. -/
def F.RST_DIGEST_SEL_WHICH : Fld := ⟨0x102048, 12, 1, .rw, 0⟩

/-- The register RST_DIGEST_SEL (Table 5.7). -/
def R.RST_DIGEST_SEL : Reg :=
  ⟨0x102048, .core, [F.RST_DIGEST_SEL_ENGINE,
    F.RST_DIGEST_SEL_WORD,
    F.RST_DIGEST_SEL_WHICH]⟩

/-- RST_DIGEST_DATA [31:0] DATA, RO. -/
def F.RST_DIGEST_DATA_DATA : Fld := ⟨0x10204C, 0, 32, .ro, 0⟩

/-- The register RST_DIGEST_DATA (Table 5.7). -/
def R.RST_DIGEST_DATA : Reg :=
  ⟨0x10204C, .core, [F.RST_DIGEST_DATA_DATA]⟩

/-- RST_PASS_SEL [5:0] ENGINE, RW. -/
def F.RST_PASS_SEL_ENGINE : Fld := ⟨0x102050, 0, 6, .rw, 0⟩

/-- RST_PASS_SEL [20:8] WORD, RW. -/
def F.RST_PASS_SEL_WORD : Fld := ⟨0x102050, 8, 13, .rw, 0⟩

/-- The register RST_PASS_SEL (Table 5.7). -/
def R.RST_PASS_SEL : Reg :=
  ⟨0x102050, .core, [F.RST_PASS_SEL_ENGINE, F.RST_PASS_SEL_WORD]⟩

/-- RST_PASS_DATA [31:0] DATA, RO. -/
def F.RST_PASS_DATA_DATA : Fld := ⟨0x102054, 0, 32, .ro, 0⟩

/-- The register RST_PASS_DATA (Table 5.7). -/
def R.RST_PASS_DATA : Reg :=
  ⟨0x102054, .core, [F.RST_PASS_DATA_DATA]⟩

/-- RST_CNT_SWEEP [31:0] COUNT, RO. -/
def F.RST_CNT_SWEEP_COUNT : Fld := ⟨0x102060, 0, 32, .ro, 0⟩

/-- The register RST_CNT_SWEEP (Table 5.7). -/
def R.RST_CNT_SWEEP : Reg :=
  ⟨0x102060, .core, [F.RST_CNT_SWEEP_COUNT]⟩

/-- RST_CNT_STANDIN [31:0] COUNT, RO. -/
def F.RST_CNT_STANDIN_COUNT : Fld := ⟨0x102064, 0, 32, .ro, 0⟩

/-- The register RST_CNT_STANDIN (Table 5.7). -/
def R.RST_CNT_STANDIN : Reg :=
  ⟨0x102064, .core, [F.RST_CNT_STANDIN_COUNT]⟩

/-- RST_CNT_CALPASS [31:0] COUNT, RO. -/
def F.RST_CNT_CALPASS_COUNT : Fld := ⟨0x102068, 0, 32, .ro, 0⟩

/-- The register RST_CNT_CALPASS (Table 5.7). -/
def R.RST_CNT_CALPASS : Reg :=
  ⟨0x102068, .core, [F.RST_CNT_CALPASS_COUNT]⟩

/-- RST_CNT_LAGSWEEP [31:0] COUNT, RO. -/
def F.RST_CNT_LAGSWEEP_COUNT : Fld := ⟨0x10206C, 0, 32, .ro, 0⟩

/-- The register RST_CNT_LAGSWEEP (Table 5.7). -/
def R.RST_CNT_LAGSWEEP : Reg :=
  ⟨0x10206C, .core, [F.RST_CNT_LAGSWEEP_COUNT]⟩

/-- RST_CNT_CTRL [0] CLEAR, WO. -/
def F.RST_CNT_CTRL_CLEAR : Fld := ⟨0x102070, 0, 1, .wo, 0⟩

/-- RST_CNT_CTRL [1] FREEZE, RW. -/
def F.RST_CNT_CTRL_FREEZE : Fld := ⟨0x102070, 1, 1, .rw, 0⟩

/-- The register RST_CNT_CTRL (Table 5.7). -/
def R.RST_CNT_CTRL : Reg :=
  ⟨0x102070, .core, [F.RST_CNT_CTRL_CLEAR, F.RST_CNT_CTRL_FREEZE]⟩

/-! ### Table 2.8 -/

/-- ENG_ID [5:0] ENGINE, RO (reset: Per instance). -/
def F.ENG_ID_ENGINE : Fld := ⟨0x104000, 0, 6, .ro, 0⟩

/-- ENG_ID [6] KIND, RO (reset: Per instance). -/
def F.ENG_ID_KIND : Fld := ⟨0x104000, 6, 1, .ro, 0⟩

/-- ENG_ID [12:8] CORE, RO (reset: Per instance). -/
def F.ENG_ID_CORE : Fld := ⟨0x104000, 8, 5, .ro, 0⟩

/-- ENG_ID [24:16] LANES, RO. -/
def F.ENG_ID_LANES : Fld := ⟨0x104000, 16, 9, .ro, 0x150⟩

/-- The register ENG_ID (Table 2.8). -/
def R.ENG_ID : Reg :=
  ⟨0x104000, .engine, [F.ENG_ID_ENGINE, F.ENG_ID_KIND, F.ENG_ID_CORE, F.ENG_ID_LANES]⟩

/-! ### Table 2.9 -/

/-- ENG_CFG [1:0] SLICE_PLAN, RWS. -/
def F.ENG_CFG_SLICE_PLAN : Fld := ⟨0x104008, 0, 2, .rws, 0⟩

/-- ENG_CFG [7:4] PLANES, RWS. -/
def F.ENG_CFG_PLANES : Fld := ⟨0x104008, 4, 4, .rws, 8⟩

/-- ENG_CFG [8] SIGNED, RWS. -/
def F.ENG_CFG_SIGNED : Fld := ⟨0x104008, 8, 1, .rws, 1⟩

/-- ENG_CFG [9] SPLIT_EN, RWS. -/
def F.ENG_CFG_SPLIT_EN : Fld := ⟨0x104008, 9, 1, .rws, 1⟩

/-- ENG_CFG [11:10] REPLAY_MAX, RWS. -/
def F.ENG_CFG_REPLAY_MAX : Fld := ⟨0x104008, 10, 2, .rws, 2⟩

/-- ENG_CFG [13:12] SEG_EN, RWS. -/
def F.ENG_CFG_SEG_EN : Fld := ⟨0x104008, 12, 2, .rws, 3⟩

/-- The register ENG_CFG (Table 2.9). -/
def R.ENG_CFG : Reg :=
  ⟨0x104008, .engine, [F.ENG_CFG_SLICE_PLAN,
    F.ENG_CFG_PLANES,
    F.ENG_CFG_SIGNED,
    F.ENG_CFG_SPLIT_EN,
    F.ENG_CFG_REPLAY_MAX,
    F.ENG_CFG_SEG_EN]⟩

/-! ### Table 2.10 -/

/-- ENG_STATUS [0] CAL_VALID, RO. -/
def F.ENG_STATUS_CAL_VALID : Fld := ⟨0x10400C, 0, 1, .ro, 0⟩

/-- ENG_STATUS [1] REFUSED_WRITE, W1C. -/
def F.ENG_STATUS_REFUSED_WRITE : Fld := ⟨0x10400C, 1, 1, .w1c, 0⟩

/-- ENG_STATUS [2] CFG_INVALID, W1C. -/
def F.ENG_STATUS_CFG_INVALID : Fld := ⟨0x10400C, 2, 1, .w1c, 0⟩

/-- ENG_STATUS [3] CLIP_SEEN, W1C. -/
def F.ENG_STATUS_CLIP_SEEN : Fld := ⟨0x10400C, 3, 1, .w1c, 0⟩

/-- ENG_STATUS [4] UNCAL_RUN, W1C. -/
def F.ENG_STATUS_UNCAL_RUN : Fld := ⟨0x10400C, 4, 1, .w1c, 0⟩

/-- ENG_STATUS [5] SUSPECT, RO. -/
def F.ENG_STATUS_SUSPECT : Fld := ⟨0x10400C, 5, 1, .ro, 0⟩

/-- ENG_STATUS [9:8] STATE, RO. -/
def F.ENG_STATUS_STATE : Fld := ⟨0x10400C, 8, 2, .ro, 0⟩

/-- The register ENG_STATUS (Table 2.10). -/
def R.ENG_STATUS : Reg :=
  ⟨0x10400C, .engine, [F.ENG_STATUS_CAL_VALID,
    F.ENG_STATUS_REFUSED_WRITE,
    F.ENG_STATUS_CFG_INVALID,
    F.ENG_STATUS_CLIP_SEEN,
    F.ENG_STATUS_UNCAL_RUN,
    F.ENG_STATUS_SUSPECT,
    F.ENG_STATUS_STATE]⟩

/-! ### Table 2.11 -/

/-- ENG_SLIP [1:0] SLIP_CYC, RO. -/
def F.ENG_SLIP_SLIP_CYC : Fld := ⟨0x104010, 0, 2, .ro, 0⟩

/-- ENG_SLIP [9:8] MAX_CYC, RO. -/
def F.ENG_SLIP_MAX_CYC : Fld := ⟨0x104010, 8, 2, .ro, 0⟩

/-- The register ENG_SLIP (Table 2.11). -/
def R.ENG_SLIP : Reg :=
  ⟨0x104010, .engine, [F.ENG_SLIP_SLIP_CYC, F.ENG_SLIP_MAX_CYC]⟩

/-- ENG_SAT_LAST [10:0] COLUMN, RC. -/
def F.ENG_SAT_LAST_COLUMN : Fld := ⟨0x104014, 0, 11, .rc, 0⟩

/-- ENG_SAT_LAST [14:12] PLANE, RC. -/
def F.ENG_SAT_LAST_PLANE : Fld := ⟨0x104014, 12, 3, .rc, 0⟩

/-- ENG_SAT_LAST [16] SEG, RC. -/
def F.ENG_SAT_LAST_SEG : Fld := ⟨0x104014, 16, 1, .rc, 0⟩

/-- ENG_SAT_LAST [17] HALF, RC. -/
def F.ENG_SAT_LAST_HALF : Fld := ⟨0x104014, 17, 1, .rc, 0⟩

/-- ENG_SAT_LAST [18] UPPER, RC. -/
def F.ENG_SAT_LAST_UPPER : Fld := ⟨0x104014, 18, 1, .rc, 0⟩

/-- ENG_SAT_LAST [19] CLIPPED, RC. -/
def F.ENG_SAT_LAST_CLIPPED : Fld := ⟨0x104014, 19, 1, .rc, 0⟩

/-- ENG_SAT_LAST [31] VALID, RC. -/
def F.ENG_SAT_LAST_VALID : Fld := ⟨0x104014, 31, 1, .rc, 0⟩

/-- The register ENG_SAT_LAST (Table 2.11). -/
def R.ENG_SAT_LAST : Reg :=
  ⟨0x104014, .engine, [F.ENG_SAT_LAST_COLUMN,
    F.ENG_SAT_LAST_PLANE,
    F.ENG_SAT_LAST_SEG,
    F.ENG_SAT_LAST_HALF,
    F.ENG_SAT_LAST_UPPER,
    F.ENG_SAT_LAST_CLIPPED,
    F.ENG_SAT_LAST_VALID]⟩

/-- ENG_TIMING [15:0] CYCLE_PS, RO. -/
def F.ENG_TIMING_CYCLE_PS : Fld := ⟨0x104018, 0, 16, .ro, 0x3e80⟩

/-- ENG_TIMING [16] GUARD, RO. -/
def F.ENG_TIMING_GUARD : Fld := ⟨0x104018, 16, 1, .ro, 0⟩

/-- The register ENG_TIMING (Table 2.11). -/
def R.ENG_TIMING : Reg :=
  ⟨0x104018, .engine, [F.ENG_TIMING_CYCLE_PS, F.ENG_TIMING_GUARD]⟩

/-! ### Table 2.12 -/

/-- ENG_CNT_VEC [31:0] COUNT, RO. -/
def F.ENG_CNT_VEC_COUNT : Fld := ⟨0x104020, 0, 32, .ro, 0⟩

/-- The register ENG_CNT_VEC (Table 2.12). -/
def R.ENG_CNT_VEC : Reg :=
  ⟨0x104020, .engine, [F.ENG_CNT_VEC_COUNT]⟩

/-- ENG_CNT_PLANE [31:0] COUNT, RO. -/
def F.ENG_CNT_PLANE_COUNT : Fld := ⟨0x104024, 0, 32, .ro, 0⟩

/-- The register ENG_CNT_PLANE (Table 2.12). -/
def R.ENG_CNT_PLANE : Reg :=
  ⟨0x104024, .engine, [F.ENG_CNT_PLANE_COUNT]⟩

/-- ENG_CNT_PSKIP [31:0] COUNT, RO. -/
def F.ENG_CNT_PSKIP_COUNT : Fld := ⟨0x104028, 0, 32, .ro, 0⟩

/-- The register ENG_CNT_PSKIP (Table 2.12). -/
def R.ENG_CNT_PSKIP : Reg :=
  ⟨0x104028, .engine, [F.ENG_CNT_PSKIP_COUNT]⟩

/-- ENG_CNT_SEGSKIP [31:0] COUNT, RO. -/
def F.ENG_CNT_SEGSKIP_COUNT : Fld := ⟨0x10402C, 0, 32, .ro, 0⟩

/-- The register ENG_CNT_SEGSKIP (Table 2.12). -/
def R.ENG_CNT_SEGSKIP : Reg :=
  ⟨0x10402C, .engine, [F.ENG_CNT_SEGSKIP_COUNT]⟩

/-- ENG_CNT_SPLIT [31:0] COUNT, RO. -/
def F.ENG_CNT_SPLIT_COUNT : Fld := ⟨0x104030, 0, 32, .ro, 0⟩

/-- The register ENG_CNT_SPLIT (Table 2.12). -/
def R.ENG_CNT_SPLIT : Reg :=
  ⟨0x104030, .engine, [F.ENG_CNT_SPLIT_COUNT]⟩

/-- ENG_CNT_SAT [31:0] COUNT, RO. -/
def F.ENG_CNT_SAT_COUNT : Fld := ⟨0x104034, 0, 32, .ro, 0⟩

/-- The register ENG_CNT_SAT (Table 2.12). -/
def R.ENG_CNT_SAT : Reg :=
  ⟨0x104034, .engine, [F.ENG_CNT_SAT_COUNT]⟩

/-- ENG_CNT_CLIP [31:0] COUNT, RO. -/
def F.ENG_CNT_CLIP_COUNT : Fld := ⟨0x104038, 0, 32, .ro, 0⟩

/-- The register ENG_CNT_CLIP (Table 2.12). -/
def R.ENG_CNT_CLIP : Reg :=
  ⟨0x104038, .engine, [F.ENG_CNT_CLIP_COUNT]⟩

/-- ENG_CNT_SLIPCLIP [31:0] COUNT, RO. -/
def F.ENG_CNT_SLIPCLIP_COUNT : Fld := ⟨0x10403C, 0, 32, .ro, 0⟩

/-- The register ENG_CNT_SLIPCLIP (Table 2.12). -/
def R.ENG_CNT_SLIPCLIP : Reg :=
  ⟨0x10403C, .engine, [F.ENG_CNT_SLIPCLIP_COUNT]⟩

/-- ENG_CNT_CTRL [0] CLEAR, WO. -/
def F.ENG_CNT_CTRL_CLEAR : Fld := ⟨0x104040, 0, 1, .wo, 0⟩

/-- ENG_CNT_CTRL [1] FREEZE, RW. -/
def F.ENG_CNT_CTRL_FREEZE : Fld := ⟨0x104040, 1, 1, .rw, 0⟩

/-- The register ENG_CNT_CTRL (Table 2.12). -/
def R.ENG_CNT_CTRL : Reg :=
  ⟨0x104040, .engine, [F.ENG_CNT_CTRL_CLEAR, F.ENG_CNT_CTRL_FREEZE]⟩

/-! ### Table 2.13 -/

/-- ENG_DBG_SEL [9:0] COLUMN, RW. -/
def F.ENG_DBG_SEL_COLUMN : Fld := ⟨0x104080, 0, 10, .rw, 0⟩

/-- ENG_DBG_SEL [12] TILE, RW. -/
def F.ENG_DBG_SEL_TILE : Fld := ⟨0x104080, 12, 1, .rw, 0⟩

/-- The register ENG_DBG_SEL (Table 2.13). -/
def R.ENG_DBG_SEL : Reg :=
  ⟨0x104080, .engine, [F.ENG_DBG_SEL_COLUMN, F.ENG_DBG_SEL_TILE]⟩

/-- ENG_DBG_DATA [31:0] VALUE, RO. -/
def F.ENG_DBG_DATA_VALUE : Fld := ⟨0x104084, 0, 32, .ro, 0⟩

/-- The register ENG_DBG_DATA (Table 2.13). -/
def R.ENG_DBG_DATA : Reg :=
  ⟨0x104084, .engine, [F.ENG_DBG_DATA_VALUE]⟩

/-- ENG_DBG_STATUS [0] OPEN, RO. -/
def F.ENG_DBG_STATUS_OPEN : Fld := ⟨0x104088, 0, 1, .ro, 0⟩

/-- The register ENG_DBG_STATUS (Table 2.13). -/
def R.ENG_DBG_STATUS : Reg :=
  ⟨0x104088, .engine, [F.ENG_DBG_STATUS_OPEN]⟩

/-! ### Table 8.8 -/

/-- FAB_ID [3:0] COLS, RO. -/
def F.FAB_ID_COLS : Fld := ⟨0x300000, 0, 4, .ro, 8⟩

/-- FAB_ID [7:4] ROWS, RO. -/
def F.FAB_ID_ROWS : Fld := ⟨0x300000, 4, 4, .ro, 4⟩

/-- FAB_ID [15:8] NODES, RO. -/
def F.FAB_ID_NODES : Fld := ⟨0x300000, 8, 8, .ro, 0x2d⟩

/-- The register FAB_ID (Table 8.8). -/
def R.FAB_ID : Reg :=
  ⟨0x300000, .one, [F.FAB_ID_COLS, F.FAB_ID_ROWS, F.FAB_ID_NODES]⟩

/-- FAB_STATUS [0] HDR_PAR_SEEN, W1C. -/
def F.FAB_STATUS_HDR_PAR_SEEN : Fld := ⟨0x300004, 0, 1, .w1c, 0⟩

/-- FAB_STATUS [1] PAY_PAR_SEEN, W1C. -/
def F.FAB_STATUS_PAY_PAR_SEEN : Fld := ⟨0x300004, 1, 1, .w1c, 0⟩

/-- FAB_STATUS [2] TIMEOUT_SEEN, W1C. -/
def F.FAB_STATUS_TIMEOUT_SEEN : Fld := ⟨0x300004, 2, 1, .w1c, 0⟩

/-- FAB_STATUS [3] EPOCH_AHEAD_SEEN, W1C. -/
def F.FAB_STATUS_EPOCH_AHEAD_SEEN : Fld := ⟨0x300004, 3, 1, .w1c, 0⟩

/-- FAB_STATUS [4] CFG_INVALID, W1C. -/
def F.FAB_STATUS_CFG_INVALID : Fld := ⟨0x300004, 4, 1, .w1c, 0⟩

/-- The register FAB_STATUS (Table 8.8). -/
def R.FAB_STATUS : Reg :=
  ⟨0x300004, .one, [F.FAB_STATUS_HDR_PAR_SEEN,
    F.FAB_STATUS_PAY_PAR_SEEN,
    F.FAB_STATUS_TIMEOUT_SEEN,
    F.FAB_STATUS_EPOCH_AHEAD_SEEN,
    F.FAB_STATUS_CFG_INVALID]⟩

/-- FAB_CFG [7:0] RECEIPT_TO_US, STG. -/
def F.FAB_CFG_RECEIPT_TO_US : Fld := ⟨0x300008, 0, 8, .stg, 2⟩

/-- The register FAB_CFG (Table 8.8). -/
def R.FAB_CFG : Reg :=
  ⟨0x300008, .one, [F.FAB_CFG_RECEIPT_TO_US]⟩

/-- FAB_COMMIT [0] COMMIT, WO. -/
def F.FAB_COMMIT_COMMIT : Fld := ⟨0x30000C, 0, 1, .wo, 0⟩

/-- The register FAB_COMMIT (Table 8.8). -/
def R.FAB_COMMIT : Reg :=
  ⟨0x30000C, .one, [F.FAB_COMMIT_COMMIT]⟩

/-- FAB_ERR_LAST [5:0] NODE, RC. -/
def F.FAB_ERR_LAST_NODE : Fld := ⟨0x300010, 0, 6, .rc, 0⟩

/-- FAB_ERR_LAST [9:8] KIND, RC. -/
def F.FAB_ERR_LAST_KIND : Fld := ⟨0x300010, 8, 2, .rc, 0⟩

/-- FAB_ERR_LAST [15:12] TYPE, RC. -/
def F.FAB_ERR_LAST_TYPE : Fld := ⟨0x300010, 12, 4, .rc, 0⟩

/-- FAB_ERR_LAST [31] VALID, RC. -/
def F.FAB_ERR_LAST_VALID : Fld := ⟨0x300010, 31, 1, .rc, 0⟩

/-- The register FAB_ERR_LAST (Table 8.8). -/
def R.FAB_ERR_LAST : Reg :=
  ⟨0x300010, .one, [F.FAB_ERR_LAST_NODE,
    F.FAB_ERR_LAST_KIND,
    F.FAB_ERR_LAST_TYPE,
    F.FAB_ERR_LAST_VALID]⟩

/-- FAB_LINK_SEL [4:0] ROUTER, RW. -/
def F.FAB_LINK_SEL_ROUTER : Fld := ⟨0x300020, 0, 5, .rw, 0⟩

/-- FAB_LINK_SEL [7:5] PORT, RW. -/
def F.FAB_LINK_SEL_PORT : Fld := ⟨0x300020, 5, 3, .rw, 0⟩

/-- The register FAB_LINK_SEL (Table 8.8). -/
def R.FAB_LINK_SEL : Reg :=
  ⟨0x300020, .one, [F.FAB_LINK_SEL_ROUTER, F.FAB_LINK_SEL_PORT]⟩

/-- FAB_LINK_DATA [15:0] LOAD, RO. -/
def F.FAB_LINK_DATA_LOAD : Fld := ⟨0x300024, 0, 16, .ro, 0⟩

/-- FAB_LINK_DATA [31:16] PEAK_Q, RO. -/
def F.FAB_LINK_DATA_PEAK_Q : Fld := ⟨0x300024, 16, 16, .ro, 0⟩

/-- The register FAB_LINK_DATA (Table 8.8). -/
def R.FAB_LINK_DATA : Reg :=
  ⟨0x300024, .one, [F.FAB_LINK_DATA_LOAD, F.FAB_LINK_DATA_PEAK_Q]⟩

/-- FAB_EPOCH_SEL [4:0] CONTEXT, RW. -/
def F.FAB_EPOCH_SEL_CONTEXT : Fld := ⟨0x300030, 0, 5, .rw, 0⟩

/-- FAB_EPOCH_SEL [31:16] STAGE, RW. -/
def F.FAB_EPOCH_SEL_STAGE : Fld := ⟨0x300030, 16, 16, .rw, 0⟩

/-- The register FAB_EPOCH_SEL (Table 8.8). -/
def R.FAB_EPOCH_SEL : Reg :=
  ⟨0x300030, .one, [F.FAB_EPOCH_SEL_CONTEXT, F.FAB_EPOCH_SEL_STAGE]⟩

/-- FAB_EPOCH_DATA [15:0] CUR, RO. -/
def F.FAB_EPOCH_DATA_CUR : Fld := ⟨0x300034, 0, 16, .ro, 0⟩

/-- FAB_EPOCH_DATA [16] PREV_OPEN, RO. -/
def F.FAB_EPOCH_DATA_PREV_OPEN : Fld := ⟨0x300034, 16, 1, .ro, 0⟩

/-- The register FAB_EPOCH_DATA (Table 8.8). -/
def R.FAB_EPOCH_DATA : Reg :=
  ⟨0x300034, .one, [F.FAB_EPOCH_DATA_CUR, F.FAB_EPOCH_DATA_PREV_OPEN]⟩

/-- FAB_EPOCH_OLD [15:0] OLDEST, RO. -/
def F.FAB_EPOCH_OLD_OLDEST : Fld := ⟨0x300038, 0, 16, .ro, 0⟩

/-- The register FAB_EPOCH_OLD (Table 8.8). -/
def R.FAB_EPOCH_OLD : Reg :=
  ⟨0x300038, .one, [F.FAB_EPOCH_OLD_OLDEST]⟩

/-- FAB_CNT_HDRPAR [31:0] COUNT, RO. -/
def F.FAB_CNT_HDRPAR_COUNT : Fld := ⟨0x300040, 0, 32, .ro, 0⟩

/-- The register FAB_CNT_HDRPAR (Table 8.8). -/
def R.FAB_CNT_HDRPAR : Reg :=
  ⟨0x300040, .one, [F.FAB_CNT_HDRPAR_COUNT]⟩

/-- FAB_CNT_PAYPAR [31:0] COUNT, RO. -/
def F.FAB_CNT_PAYPAR_COUNT : Fld := ⟨0x300044, 0, 32, .ro, 0⟩

/-- The register FAB_CNT_PAYPAR (Table 8.8). -/
def R.FAB_CNT_PAYPAR : Reg :=
  ⟨0x300044, .one, [F.FAB_CNT_PAYPAR_COUNT]⟩

/-- FAB_CNT_RETX [31:0] COUNT, RO. -/
def F.FAB_CNT_RETX_COUNT : Fld := ⟨0x300048, 0, 32, .ro, 0⟩

/-- The register FAB_CNT_RETX (Table 8.8). -/
def R.FAB_CNT_RETX : Reg :=
  ⟨0x300048, .one, [F.FAB_CNT_RETX_COUNT]⟩

/-- FAB_CNT_TIMEOUT [31:0] COUNT, RO. -/
def F.FAB_CNT_TIMEOUT_COUNT : Fld := ⟨0x30004C, 0, 32, .ro, 0⟩

/-- The register FAB_CNT_TIMEOUT (Table 8.8). -/
def R.FAB_CNT_TIMEOUT : Reg :=
  ⟨0x30004C, .one, [F.FAB_CNT_TIMEOUT_COUNT]⟩

/-- FAB_CNT_EPOCHDISC [31:0] COUNT, RO. -/
def F.FAB_CNT_EPOCHDISC_COUNT : Fld := ⟨0x300050, 0, 32, .ro, 0⟩

/-- The register FAB_CNT_EPOCHDISC (Table 8.8). -/
def R.FAB_CNT_EPOCHDISC : Reg :=
  ⟨0x300050, .one, [F.FAB_CNT_EPOCHDISC_COUNT]⟩

/-- FAB_CNT_REPLAY [31:0] COUNT, RO. -/
def F.FAB_CNT_REPLAY_COUNT : Fld := ⟨0x300054, 0, 32, .ro, 0⟩

/-- The register FAB_CNT_REPLAY (Table 8.8). -/
def R.FAB_CNT_REPLAY : Reg :=
  ⟨0x300054, .one, [F.FAB_CNT_REPLAY_COUNT]⟩

/-- FAB_CNT_CTRL [0] CLEAR, WO. -/
def F.FAB_CNT_CTRL_CLEAR : Fld := ⟨0x300060, 0, 1, .wo, 0⟩

/-- FAB_CNT_CTRL [1] FREEZE, RW. -/
def F.FAB_CNT_CTRL_FREEZE : Fld := ⟨0x300060, 1, 1, .rw, 0⟩

/-- The register FAB_CNT_CTRL (Table 8.8). -/
def R.FAB_CNT_CTRL : Reg :=
  ⟨0x300060, .one, [F.FAB_CNT_CTRL_CLEAR, F.FAB_CNT_CTRL_FREEZE]⟩

/-! ### Table 8.10 -/

/-- MEM_ID [7:0] GIB_PER_STACK, RO. -/
def F.MEM_ID_GIB_PER_STACK : Fld := ⟨0x400000, 0, 8, .ro, 0x18⟩

/-- MEM_ID [9:8] STACKS, RO. -/
def F.MEM_ID_STACKS : Fld := ⟨0x400000, 8, 2, .ro, 2⟩

/-- MEM_ID [31:16] PEAK_GBS, RO. -/
def F.MEM_ID_PEAK_GBS : Fld := ⟨0x400000, 16, 16, .ro, 0x640⟩

/-- The register MEM_ID (Table 8.10). -/
def R.MEM_ID : Reg :=
  ⟨0x400000, .one, [F.MEM_ID_GIB_PER_STACK, F.MEM_ID_STACKS, F.MEM_ID_PEAK_GBS]⟩

/-- MEM_STATUS [0] CE_SEEN, W1C. -/
def F.MEM_STATUS_CE_SEEN : Fld := ⟨0x400004, 0, 1, .w1c, 0⟩

/-- MEM_STATUS [1] UE_SEEN, W1C. -/
def F.MEM_STATUS_UE_SEEN : Fld := ⟨0x400004, 1, 1, .w1c, 0⟩

/-- MEM_STATUS [2] WPAR_SEEN, W1C. -/
def F.MEM_STATUS_WPAR_SEEN : Fld := ⟨0x400004, 2, 1, .w1c, 0⟩

/-- MEM_STATUS [3] SCRUB_ACTIVE, RO. -/
def F.MEM_STATUS_SCRUB_ACTIVE : Fld := ⟨0x400004, 3, 1, .ro, 0⟩

/-- The register MEM_STATUS (Table 8.10). -/
def R.MEM_STATUS : Reg :=
  ⟨0x400004, .one, [F.MEM_STATUS_CE_SEEN,
    F.MEM_STATUS_UE_SEEN,
    F.MEM_STATUS_WPAR_SEEN,
    F.MEM_STATUS_SCRUB_ACTIVE]⟩

/-- MEM_SHARE_RST [15:0] G_RST, RO. -/
def F.MEM_SHARE_RST_G_RST : Fld := ⟨0x400008, 0, 16, .ro, 0x640⟩

/-- The register MEM_SHARE_RST (Table 8.10). -/
def R.MEM_SHARE_RST : Reg :=
  ⟨0x400008, .one, [F.MEM_SHARE_RST_G_RST]⟩

/-- MEM_SHARE_LOAD [15:0] LOAD, RO. -/
def F.MEM_SHARE_LOAD_LOAD : Fld := ⟨0x40000C, 0, 16, .ro, 0⟩

/-- The register MEM_SHARE_LOAD (Table 8.10). -/
def R.MEM_SHARE_LOAD : Reg :=
  ⟨0x40000C, .one, [F.MEM_SHARE_LOAD_LOAD]⟩

/-- MEM_SHARE_ADM [15:0] ADM, RO. -/
def F.MEM_SHARE_ADM_ADM : Fld := ⟨0x400010, 0, 16, .ro, 0x3728⟩

/-- MEM_SHARE_ADM [31:16] ADM_USED, RO. -/
def F.MEM_SHARE_ADM_ADM_USED : Fld := ⟨0x400010, 16, 16, .ro, 0⟩

/-- The register MEM_SHARE_ADM (Table 8.10). -/
def R.MEM_SHARE_ADM : Reg :=
  ⟨0x400010, .one, [F.MEM_SHARE_ADM_ADM, F.MEM_SHARE_ADM_ADM_USED]⟩

/-- MEM_ERR_LO [31:0] ADDR_LO, RO. -/
def F.MEM_ERR_LO_ADDR_LO : Fld := ⟨0x400014, 0, 32, .ro, 0⟩

/-- The register MEM_ERR_LO (Table 8.10). -/
def R.MEM_ERR_LO : Reg :=
  ⟨0x400014, .one, [F.MEM_ERR_LO_ADDR_LO]⟩

/-- MEM_ERR_HI [3:0] ADDR_HI, RC. -/
def F.MEM_ERR_HI_ADDR_HI : Fld := ⟨0x400018, 0, 4, .rc, 0⟩

/-- MEM_ERR_HI [8] UE, RC. -/
def F.MEM_ERR_HI_UE : Fld := ⟨0x400018, 8, 1, .rc, 0⟩

/-- MEM_ERR_HI [9] WPAR, RC. -/
def F.MEM_ERR_HI_WPAR : Fld := ⟨0x400018, 9, 1, .rc, 0⟩

/-- MEM_ERR_HI [31] VALID, RC. -/
def F.MEM_ERR_HI_VALID : Fld := ⟨0x400018, 31, 1, .rc, 0⟩

/-- The register MEM_ERR_HI (Table 8.10). -/
def R.MEM_ERR_HI : Reg :=
  ⟨0x400018, .one, [F.MEM_ERR_HI_ADDR_HI,
    F.MEM_ERR_HI_UE,
    F.MEM_ERR_HI_WPAR,
    F.MEM_ERR_HI_VALID]⟩

/-- MEM_PAGE_SEL [15:0] PAGE, RW. -/
def F.MEM_PAGE_SEL_PAGE : Fld := ⟨0x400020, 0, 16, .rw, 0⟩

/-- The register MEM_PAGE_SEL (Table 8.10). -/
def R.MEM_PAGE_SEL : Reg :=
  ⟨0x400020, .one, [F.MEM_PAGE_SEL_PAGE]⟩

/-- MEM_PAGE_DATA [5:0] OWNER, RO. -/
def F.MEM_PAGE_DATA_OWNER : Fld := ⟨0x400024, 0, 6, .ro, 0x3f⟩

/-- MEM_PAGE_DATA [9:8] USE, RO. -/
def F.MEM_PAGE_DATA_USE : Fld := ⟨0x400024, 8, 2, .ro, 0⟩

/-- MEM_PAGE_DATA [12] KEYGEN, RO. -/
def F.MEM_PAGE_DATA_KEYGEN : Fld := ⟨0x400024, 12, 1, .ro, 0⟩

/-- The register MEM_PAGE_DATA (Table 8.10). -/
def R.MEM_PAGE_DATA : Reg :=
  ⟨0x400024, .one, [F.MEM_PAGE_DATA_OWNER,
    F.MEM_PAGE_DATA_USE,
    F.MEM_PAGE_DATA_KEYGEN]⟩

/-- MEM_MASTER_SEL [4:0] CORE, RW. -/
def F.MEM_MASTER_SEL_CORE : Fld := ⟨0x400028, 0, 5, .rw, 0⟩

/-- MEM_MASTER_SEL [12:8] ENGINE, RW. -/
def F.MEM_MASTER_SEL_ENGINE : Fld := ⟨0x400028, 8, 5, .rw, 0⟩

/-- The register MEM_MASTER_SEL (Table 8.10). -/
def R.MEM_MASTER_SEL : Reg :=
  ⟨0x400028, .one, [F.MEM_MASTER_SEL_CORE, F.MEM_MASTER_SEL_ENGINE]⟩

/-- MEM_MASTER_DATA [9:0] REGION, RO. -/
def F.MEM_MASTER_DATA_REGION : Fld := ⟨0x40002C, 0, 10, .ro, 0⟩

/-- MEM_MASTER_DATA [31] BOUND, RO. -/
def F.MEM_MASTER_DATA_BOUND : Fld := ⟨0x40002C, 31, 1, .ro, 0⟩

/-- The register MEM_MASTER_DATA (Table 8.10). -/
def R.MEM_MASTER_DATA : Reg :=
  ⟨0x40002C, .one, [F.MEM_MASTER_DATA_REGION, F.MEM_MASTER_DATA_BOUND]⟩

/-- MEM_BW_SEL [2:0] CLASS, RW. -/
def F.MEM_BW_SEL_CLASS : Fld := ⟨0x400030, 0, 3, .rw, 0⟩

/-- The register MEM_BW_SEL (Table 8.10). -/
def R.MEM_BW_SEL : Reg :=
  ⟨0x400030, .one, [F.MEM_BW_SEL_CLASS]⟩

/-- MEM_BW_DATA [15:0] USED, RO. -/
def F.MEM_BW_DATA_USED : Fld := ⟨0x400034, 0, 16, .ro, 0⟩

/-- The register MEM_BW_DATA (Table 8.10). -/
def R.MEM_BW_DATA : Reg :=
  ⟨0x400034, .one, [F.MEM_BW_DATA_USED]⟩

/-- MEM_CNT_CE [31:0] COUNT, RO. -/
def F.MEM_CNT_CE_COUNT : Fld := ⟨0x400040, 0, 32, .ro, 0⟩

/-- The register MEM_CNT_CE (Table 8.10). -/
def R.MEM_CNT_CE : Reg :=
  ⟨0x400040, .one, [F.MEM_CNT_CE_COUNT]⟩

/-- MEM_CNT_UE [31:0] COUNT, RO. -/
def F.MEM_CNT_UE_COUNT : Fld := ⟨0x400044, 0, 32, .ro, 0⟩

/-- The register MEM_CNT_UE (Table 8.10). -/
def R.MEM_CNT_UE : Reg :=
  ⟨0x400044, .one, [F.MEM_CNT_UE_COUNT]⟩

/-- MEM_CNT_WPAR [31:0] COUNT, RO. -/
def F.MEM_CNT_WPAR_COUNT : Fld := ⟨0x400048, 0, 32, .ro, 0⟩

/-- The register MEM_CNT_WPAR (Table 8.10). -/
def R.MEM_CNT_WPAR : Reg :=
  ⟨0x400048, .one, [F.MEM_CNT_WPAR_COUNT]⟩

/-- MEM_CNT_SCRUB [31:0] COUNT, RO. -/
def F.MEM_CNT_SCRUB_COUNT : Fld := ⟨0x40004C, 0, 32, .ro, 0⟩

/-- The register MEM_CNT_SCRUB (Table 8.10). -/
def R.MEM_CNT_SCRUB : Reg :=
  ⟨0x40004C, .one, [F.MEM_CNT_SCRUB_COUNT]⟩

/-- MEM_CNT_CTRL [0] CLEAR, WO. -/
def F.MEM_CNT_CTRL_CLEAR : Fld := ⟨0x400060, 0, 1, .wo, 0⟩

/-- MEM_CNT_CTRL [1] FREEZE, RW. -/
def F.MEM_CNT_CTRL_FREEZE : Fld := ⟨0x400060, 1, 1, .rw, 0⟩

/-- The register MEM_CNT_CTRL (Table 8.10). -/
def R.MEM_CNT_CTRL : Reg :=
  ⟨0x400060, .one, [F.MEM_CNT_CTRL_CLEAR, F.MEM_CNT_CTRL_FREEZE]⟩

/-! ### Table 10.9 -/

/-- HIF_ID [5:0] VFS, RO. -/
def F.HIF_ID_VFS : Fld := ⟨0x500000, 0, 6, .ro, 0x20⟩

/-- HIF_ID [15:8] PF_RINGS, RO. -/
def F.HIF_ID_PF_RINGS : Fld := ⟨0x500000, 8, 8, .ro, 0x80⟩

/-- HIF_ID [23:16] VF_RINGS, RO. -/
def F.HIF_ID_VF_RINGS : Fld := ⟨0x500000, 16, 8, .ro, 8⟩

/-- The register HIF_ID (Table 10.9). -/
def R.HIF_ID : Reg :=
  ⟨0x500000, .one, [F.HIF_ID_VFS, F.HIF_ID_PF_RINGS, F.HIF_ID_VF_RINGS]⟩

/-- HIF_LINK [3:0] GEN, RO. -/
def F.HIF_LINK_GEN : Fld := ⟨0x500004, 0, 4, .ro, 0⟩

/-- HIF_LINK [8:4] WIDTH, RO. -/
def F.HIF_LINK_WIDTH : Fld := ⟨0x500004, 4, 5, .ro, 0⟩

/-- HIF_LINK [9] FLIT, RO. -/
def F.HIF_LINK_FLIT : Fld := ⟨0x500004, 9, 1, .ro, 0⟩

/-- HIF_LINK [10] ATS, RO. -/
def F.HIF_LINK_ATS : Fld := ⟨0x500004, 10, 1, .ro, 0⟩

/-- The register HIF_LINK (Table 10.9). -/
def R.HIF_LINK : Reg :=
  ⟨0x500004, .one, [F.HIF_LINK_GEN, F.HIF_LINK_WIDTH, F.HIF_LINK_FLIT, F.HIF_LINK_ATS]⟩

/-- HIF_STATUS [0] LINK_DEGRADED, W1C. -/
def F.HIF_STATUS_LINK_DEGRADED : Fld := ⟨0x500008, 0, 1, .w1c, 0⟩

/-- HIF_STATUS [1] READ_ERR_SEEN, W1C. -/
def F.HIF_STATUS_READ_ERR_SEEN : Fld := ⟨0x500008, 1, 1, .w1c, 0⟩

/-- HIF_STATUS [2] SLOW_READ_SEEN, W1C. -/
def F.HIF_STATUS_SLOW_READ_SEEN : Fld := ⟨0x500008, 2, 1, .w1c, 0⟩

/-- HIF_STATUS [3] REFUSED_WRITE, W1C. -/
def F.HIF_STATUS_REFUSED_WRITE : Fld := ⟨0x500008, 3, 1, .w1c, 0⟩

/-- The register HIF_STATUS (Table 10.9). -/
def R.HIF_STATUS : Reg :=
  ⟨0x500008, .one, [F.HIF_STATUS_LINK_DEGRADED,
    F.HIF_STATUS_READ_ERR_SEEN,
    F.HIF_STATUS_SLOW_READ_SEEN,
    F.HIF_STATUS_REFUSED_WRITE]⟩

/-- HIF_LAT [15:0] MAX_NS, RO. -/
def F.HIF_LAT_MAX_NS : Fld := ⟨0x50000C, 0, 16, .ro, 0⟩

/-- HIF_LAT [31:16] LIMIT_NS, RO. -/
def F.HIF_LAT_LIMIT_NS : Fld := ⟨0x50000C, 16, 16, .ro, 0x384⟩

/-- The register HIF_LAT (Table 10.9). -/
def R.HIF_LAT : Reg :=
  ⟨0x50000C, .one, [F.HIF_LAT_MAX_NS, F.HIF_LAT_LIMIT_NS]⟩

/-- HIF_VF_SEL [4:0] VF, RW. -/
def F.HIF_VF_SEL_VF : Fld := ⟨0x500010, 0, 5, .rw, 0⟩

/-- The register HIF_VF_SEL (Table 10.9). -/
def R.HIF_VF_SEL : Reg :=
  ⟨0x500010, .one, [F.HIF_VF_SEL_VF]⟩

/-- HIF_VF_CTX [31:0] MASK, RWS. -/
def F.HIF_VF_CTX_MASK : Fld := ⟨0x500014, 0, 32, .rws, 0⟩

/-- The register HIF_VF_CTX (Table 10.9). -/
def R.HIF_VF_CTX : Reg :=
  ⟨0x500014, .one, [F.HIF_VF_CTX_MASK]⟩

/-- HIF_CNT_DB_BAD [31:0] COUNT, RO. -/
def F.HIF_CNT_DB_BAD_COUNT : Fld := ⟨0x500020, 0, 32, .ro, 0⟩

/-- The register HIF_CNT_DB_BAD (Table 10.9). -/
def R.HIF_CNT_DB_BAD : Reg :=
  ⟨0x500020, .one, [F.HIF_CNT_DB_BAD_COUNT]⟩

/-- HIF_CNT_DESC_BAD [31:0] COUNT, RO. -/
def F.HIF_CNT_DESC_BAD_COUNT : Fld := ⟨0x500024, 0, 32, .ro, 0⟩

/-- The register HIF_CNT_DESC_BAD (Table 10.9). -/
def R.HIF_CNT_DESC_BAD : Reg :=
  ⟨0x500024, .one, [F.HIF_CNT_DESC_BAD_COUNT]⟩

/-- HIF_CNT_RDERR [31:0] COUNT, RO. -/
def F.HIF_CNT_RDERR_COUNT : Fld := ⟨0x500028, 0, 32, .ro, 0⟩

/-- The register HIF_CNT_RDERR (Table 10.9). -/
def R.HIF_CNT_RDERR : Reg :=
  ⟨0x500028, .one, [F.HIF_CNT_RDERR_COUNT]⟩

/-- HIF_CNT_SLOWREAD [31:0] COUNT, RO. -/
def F.HIF_CNT_SLOWREAD_COUNT : Fld := ⟨0x50002C, 0, 32, .ro, 0⟩

/-- The register HIF_CNT_SLOWREAD (Table 10.9). -/
def R.HIF_CNT_SLOWREAD : Reg :=
  ⟨0x50002C, .one, [F.HIF_CNT_SLOWREAD_COUNT]⟩

/-- HIF_CNT_ATSINV [31:0] COUNT, RO. -/
def F.HIF_CNT_ATSINV_COUNT : Fld := ⟨0x500030, 0, 32, .ro, 0⟩

/-- The register HIF_CNT_ATSINV (Table 10.9). -/
def R.HIF_CNT_ATSINV : Reg :=
  ⟨0x500030, .one, [F.HIF_CNT_ATSINV_COUNT]⟩

/-- HIF_CNT_REFETCH [31:0] COUNT, RO. -/
def F.HIF_CNT_REFETCH_COUNT : Fld := ⟨0x500034, 0, 32, .ro, 0⟩

/-- The register HIF_CNT_REFETCH (Table 10.9). -/
def R.HIF_CNT_REFETCH : Reg :=
  ⟨0x500034, .one, [F.HIF_CNT_REFETCH_COUNT]⟩

/-- HIF_CNT_CTRL [0] CLEAR, WO. -/
def F.HIF_CNT_CTRL_CLEAR : Fld := ⟨0x500040, 0, 1, .wo, 0⟩

/-- HIF_CNT_CTRL [1] FREEZE, RW. -/
def F.HIF_CNT_CTRL_FREEZE : Fld := ⟨0x500040, 1, 1, .rw, 0⟩

/-- The register HIF_CNT_CTRL (Table 10.9). -/
def R.HIF_CNT_CTRL : Reg :=
  ⟨0x500040, .one, [F.HIF_CNT_CTRL_CLEAR, F.HIF_CNT_CTRL_FREEZE]⟩

/-! ### Table 10.11 -/

/-- RING_SQ_BASE_LO [31:12] ADDR, RWS. -/
def F.RING_SQ_BASE_LO_ADDR : Fld := ⟨0x501000, 12, 20, .rws, 0⟩

/-- The register RING_SQ_BASE_LO (Table 10.11). -/
def R.RING_SQ_BASE_LO : Reg :=
  ⟨0x501000, .ring, [F.RING_SQ_BASE_LO_ADDR]⟩

/-- RING_SQ_BASE_HI [31:0] ADDR, RWS. -/
def F.RING_SQ_BASE_HI_ADDR : Fld := ⟨0x501004, 0, 32, .rws, 0⟩

/-- The register RING_SQ_BASE_HI (Table 10.11). -/
def R.RING_SQ_BASE_HI : Reg :=
  ⟨0x501004, .ring, [F.RING_SQ_BASE_HI_ADDR]⟩

/-- RING_CFG [4:0] SQ_LOG2, RWS. -/
def F.RING_CFG_SQ_LOG2 : Fld := ⟨0x501008, 0, 5, .rws, 4⟩

/-- RING_CFG [12:8] CQ_LOG2, RWS. -/
def F.RING_CFG_CQ_LOG2 : Fld := ⟨0x501008, 8, 5, .rws, 4⟩

/-- RING_CFG [14:13] KIND, RWS. -/
def F.RING_CFG_KIND : Fld := ⟨0x501008, 13, 2, .rws, 0⟩

/-- RING_CFG [24:16] VECTOR, RWS. -/
def F.RING_CFG_VECTOR : Fld := ⟨0x501008, 16, 9, .rws, 0⟩

/-- RING_CFG [25] IRQ_EN, RWS. -/
def F.RING_CFG_IRQ_EN : Fld := ⟨0x501008, 25, 1, .rws, 0⟩

/-- The register RING_CFG (Table 10.11). -/
def R.RING_CFG : Reg :=
  ⟨0x501008, .ring, [F.RING_CFG_SQ_LOG2,
    F.RING_CFG_CQ_LOG2,
    F.RING_CFG_KIND,
    F.RING_CFG_VECTOR,
    F.RING_CFG_IRQ_EN]⟩

/-- RING_STATUS [1:0] STATE, RO. -/
def F.RING_STATUS_STATE : Fld := ⟨0x50100C, 0, 2, .ro, 0⟩

/-- RING_STATUS [2] START_REFUSED, W1C. -/
def F.RING_STATUS_START_REFUSED : Fld := ⟨0x50100C, 2, 1, .w1c, 0⟩

/-- RING_STATUS [3] REFUSED_WRITE, W1C. -/
def F.RING_STATUS_REFUSED_WRITE : Fld := ⟨0x50100C, 3, 1, .w1c, 0⟩

/-- RING_STATUS [4] DB_BAD, W1C. -/
def F.RING_STATUS_DB_BAD : Fld := ⟨0x50100C, 4, 1, .w1c, 0⟩

/-- RING_STATUS [5] CQH_BAD, W1C. -/
def F.RING_STATUS_CQH_BAD : Fld := ⟨0x50100C, 5, 1, .w1c, 0⟩

/-- RING_STATUS [6] MOD_INVALID, W1C. -/
def F.RING_STATUS_MOD_INVALID : Fld := ⟨0x50100C, 6, 1, .w1c, 0⟩

/-- RING_STATUS [11:8] REASON, RO. -/
def F.RING_STATUS_REASON : Fld := ⟨0x50100C, 8, 4, .ro, 0⟩

/-- RING_STATUS [12] BOUND, RO. -/
def F.RING_STATUS_BOUND : Fld := ⟨0x50100C, 12, 1, .ro, 0⟩

/-- RING_STATUS [18:13] LANE, RO. -/
def F.RING_STATUS_LANE : Fld := ⟨0x50100C, 13, 6, .ro, 0⟩

/-- The register RING_STATUS (Table 10.11). -/
def R.RING_STATUS : Reg :=
  ⟨0x50100C, .ring, [F.RING_STATUS_STATE,
    F.RING_STATUS_START_REFUSED,
    F.RING_STATUS_REFUSED_WRITE,
    F.RING_STATUS_DB_BAD,
    F.RING_STATUS_CQH_BAD,
    F.RING_STATUS_MOD_INVALID,
    F.RING_STATUS_REASON,
    F.RING_STATUS_BOUND,
    F.RING_STATUS_LANE]⟩

/-- RING_CQ_BASE_LO [31:12] ADDR, RWS. -/
def F.RING_CQ_BASE_LO_ADDR : Fld := ⟨0x501010, 12, 20, .rws, 0⟩

/-- The register RING_CQ_BASE_LO (Table 10.11). -/
def R.RING_CQ_BASE_LO : Reg :=
  ⟨0x501010, .ring, [F.RING_CQ_BASE_LO_ADDR]⟩

/-- RING_CQ_BASE_HI [31:0] ADDR, RWS. -/
def F.RING_CQ_BASE_HI_ADDR : Fld := ⟨0x501014, 0, 32, .rws, 0⟩

/-- The register RING_CQ_BASE_HI (Table 10.11). -/
def R.RING_CQ_BASE_HI : Reg :=
  ⟨0x501014, .ring, [F.RING_CQ_BASE_HI_ADDR]⟩

/-- RING_SQ_HEAD [31:0] COUNT, RO. -/
def F.RING_SQ_HEAD_COUNT : Fld := ⟨0x501018, 0, 32, .ro, 0⟩

/-- The register RING_SQ_HEAD (Table 10.11). -/
def R.RING_SQ_HEAD : Reg :=
  ⟨0x501018, .ring, [F.RING_SQ_HEAD_COUNT]⟩

/-- RING_SQ_TAIL [31:0] COUNT, RO. -/
def F.RING_SQ_TAIL_COUNT : Fld := ⟨0x50101C, 0, 32, .ro, 0⟩

/-- The register RING_SQ_TAIL (Table 10.11). -/
def R.RING_SQ_TAIL : Reg :=
  ⟨0x50101C, .ring, [F.RING_SQ_TAIL_COUNT]⟩

/-- RING_CQ_TAIL [31:0] COUNT, RO. -/
def F.RING_CQ_TAIL_COUNT : Fld := ⟨0x501020, 0, 32, .ro, 0⟩

/-- The register RING_CQ_TAIL (Table 10.11). -/
def R.RING_CQ_TAIL : Reg :=
  ⟨0x501020, .ring, [F.RING_CQ_TAIL_COUNT]⟩

/-- RING_CQ_HEAD [31:0] COUNT, RO. -/
def F.RING_CQ_HEAD_COUNT : Fld := ⟨0x501024, 0, 32, .ro, 0⟩

/-- The register RING_CQ_HEAD (Table 10.11). -/
def R.RING_CQ_HEAD : Reg :=
  ⟨0x501024, .ring, [F.RING_CQ_HEAD_COUNT]⟩

/-- RING_HEADWB_LO [31:2] ADDR, RWS. -/
def F.RING_HEADWB_LO_ADDR : Fld := ⟨0x501028, 2, 30, .rws, 0⟩

/-- The register RING_HEADWB_LO (Table 10.11). -/
def R.RING_HEADWB_LO : Reg :=
  ⟨0x501028, .ring, [F.RING_HEADWB_LO_ADDR]⟩

/-- RING_HEADWB_HI [31:0] ADDR, RWS. -/
def F.RING_HEADWB_HI_ADDR : Fld := ⟨0x50102C, 0, 32, .rws, 0⟩

/-- The register RING_HEADWB_HI (Table 10.11). -/
def R.RING_HEADWB_HI : Reg :=
  ⟨0x50102C, .ring, [F.RING_HEADWB_HI_ADDR]⟩

/-- RING_MOD [7:0] COUNT, STG. -/
def F.RING_MOD_COUNT : Fld := ⟨0x501030, 0, 8, .stg, 1⟩

/-- RING_MOD [17:8] TIME_US, STG. -/
def F.RING_MOD_TIME_US : Fld := ⟨0x501030, 8, 10, .stg, 0⟩

/-- The register RING_MOD (Table 10.11). -/
def R.RING_MOD : Reg :=
  ⟨0x501030, .ring, [F.RING_MOD_COUNT, F.RING_MOD_TIME_US]⟩

/-- RING_COMMIT [0] COMMIT, WO. -/
def F.RING_COMMIT_COMMIT : Fld := ⟨0x501034, 0, 1, .wo, 0⟩

/-- The register RING_COMMIT (Table 10.11). -/
def R.RING_COMMIT : Reg :=
  ⟨0x501034, .ring, [F.RING_COMMIT_COMMIT]⟩

/-- RING_CTRL [0] START, WO. -/
def F.RING_CTRL_START : Fld := ⟨0x501038, 0, 1, .wo, 0⟩

/-- RING_CTRL [1] STOP, WO. -/
def F.RING_CTRL_STOP : Fld := ⟨0x501038, 1, 1, .wo, 0⟩

/-- The register RING_CTRL (Table 10.11). -/
def R.RING_CTRL : Reg :=
  ⟨0x501038, .ring, [F.RING_CTRL_START, F.RING_CTRL_STOP]⟩

/-- RING_SQ_TAKE [31:0] COUNT, RO. -/
def F.RING_SQ_TAKE_COUNT : Fld := ⟨0x50103C, 0, 32, .ro, 0⟩

/-- The register RING_SQ_TAKE (Table 10.11). -/
def R.RING_SQ_TAKE : Reg :=
  ⟨0x50103C, .ring, [F.RING_SQ_TAKE_COUNT]⟩

/-! ### Table 9.11 -/

/-- ADM_ID [6:0] LANES, RO. -/
def F.ADM_ID_LANES : Fld := ⟨0x600000, 0, 7, .ro, 0x40⟩

/-- The register ADM_ID (Table 9.11). -/
def R.ADM_ID : Reg :=
  ⟨0x600000, .one, [F.ADM_ID_LANES]⟩

/-- ADM_STATUS [0] BUSY, RO. -/
def F.ADM_STATUS_BUSY : Fld := ⟨0x600004, 0, 1, .ro, 0⟩

/-- ADM_STATUS [1] FROZEN, RO. -/
def F.ADM_STATUS_FROZEN : Fld := ⟨0x600004, 1, 1, .ro, 0⟩

/-- ADM_STATUS [15:8] LAST_CODE, RO. -/
def F.ADM_STATUS_LAST_CODE : Fld := ⟨0x600004, 8, 8, .ro, 0⟩

/-- The register ADM_STATUS (Table 9.11). -/
def R.ADM_STATUS : Reg :=
  ⟨0x600004, .one, [F.ADM_STATUS_BUSY, F.ADM_STATUS_FROZEN, F.ADM_STATUS_LAST_CODE]⟩

/-- ADM_CAPS [15:0] PCIE_GBS, RO. -/
def F.ADM_CAPS_PCIE_GBS : Fld := ⟨0x600008, 0, 16, .ro, 0x460⟩

/-- ADM_CAPS [31:16] GUARD, RO (reset: NV). -/
def F.ADM_CAPS_GUARD : Fld := ⟨0x600008, 16, 16, .ro, 0x1400⟩

/-- The register ADM_CAPS (Table 9.11). -/
def R.ADM_CAPS : Reg :=
  ⟨0x600008, .one, [F.ADM_CAPS_PCIE_GBS, F.ADM_CAPS_GUARD]⟩

/-- ADM_LANE_SEL [5:0] LANE, RW. -/
def F.ADM_LANE_SEL_LANE : Fld := ⟨0x600010, 0, 6, .rw, 0⟩

/-- The register ADM_LANE_SEL (Table 9.11). -/
def R.ADM_LANE_SEL : Reg :=
  ⟨0x600010, .one, [F.ADM_LANE_SEL_LANE]⟩

/-- ADM_LANE_STATE [2:0] STATE, RO. -/
def F.ADM_LANE_STATE_STATE : Fld := ⟨0x600014, 0, 3, .ro, 0⟩

/-- ADM_LANE_STATE [3] BROKEN, W1C. -/
def F.ADM_LANE_STATE_BROKEN : Fld := ⟨0x600014, 3, 1, .w1c, 0⟩

/-- ADM_LANE_STATE [4] THERMAL, RO. -/
def F.ADM_LANE_STATE_THERMAL : Fld := ⟨0x600014, 4, 1, .ro, 0⟩

/-- ADM_LANE_STATE [5] FIELD, RO. -/
def F.ADM_LANE_STATE_FIELD : Fld := ⟨0x600014, 5, 1, .ro, 0⟩

/-- ADM_LANE_STATE [12:8] CONTEXT, RO. -/
def F.ADM_LANE_STATE_CONTEXT : Fld := ⟨0x600014, 8, 5, .ro, 0⟩

/-- ADM_LANE_STATE [19:14] SUSP_REASONS, RO. -/
def F.ADM_LANE_STATE_SUSP_REASONS : Fld := ⟨0x600014, 14, 6, .ro, 0⟩

/-- The register ADM_LANE_STATE (Table 9.11). -/
def R.ADM_LANE_STATE : Reg :=
  ⟨0x600014, .one, [F.ADM_LANE_STATE_STATE,
    F.ADM_LANE_STATE_BROKEN,
    F.ADM_LANE_STATE_THERMAL,
    F.ADM_LANE_STATE_FIELD,
    F.ADM_LANE_STATE_CONTEXT,
    F.ADM_LANE_STATE_SUSP_REASONS]⟩

/-- ADM_LANE_WCR [31:0] NS, RO. -/
def F.ADM_LANE_WCR_NS : Fld := ⟨0x600018, 0, 32, .ro, 0⟩

/-- The register ADM_LANE_WCR (Table 9.11). -/
def R.ADM_LANE_WCR : Reg :=
  ⟨0x600018, .one, [F.ADM_LANE_WCR_NS]⟩

/-- ADM_LANE_DT [31:0] NS, RO. -/
def F.ADM_LANE_DT_NS : Fld := ⟨0x60001C, 0, 32, .ro, 0⟩

/-- The register ADM_LANE_DT (Table 9.11). -/
def R.ADM_LANE_DT : Reg :=
  ⟨0x60001C, .one, [F.ADM_LANE_DT_NS]⟩

/-- ADM_LANE_CNT_ITEM [31:0] COUNT, RO. -/
def F.ADM_LANE_CNT_ITEM_COUNT : Fld := ⟨0x600020, 0, 32, .ro, 0⟩

/-- The register ADM_LANE_CNT_ITEM (Table 9.11). -/
def R.ADM_LANE_CNT_ITEM : Reg :=
  ⟨0x600020, .one, [F.ADM_LANE_CNT_ITEM_COUNT]⟩

/-- ADM_LANE_CNT_LATE [31:0] COUNT, RO. -/
def F.ADM_LANE_CNT_LATE_COUNT : Fld := ⟨0x600024, 0, 32, .ro, 0⟩

/-- The register ADM_LANE_CNT_LATE (Table 9.11). -/
def R.ADM_LANE_CNT_LATE : Reg :=
  ⟨0x600024, .one, [F.ADM_LANE_CNT_LATE_COUNT]⟩

/-- ADM_RES_SEL [2:0] RESOURCE, RW. -/
def F.ADM_RES_SEL_RESOURCE : Fld := ⟨0x600030, 0, 3, .rw, 0⟩

/-- The register ADM_RES_SEL (Table 9.11). -/
def R.ADM_RES_SEL : Reg :=
  ⟨0x600030, .one, [F.ADM_RES_SEL_RESOURCE]⟩

/-- ADM_RES_USED [31:0] USED, RO. -/
def F.ADM_RES_USED_USED : Fld := ⟨0x600034, 0, 32, .ro, 0⟩

/-- The register ADM_RES_USED (Table 9.11). -/
def R.ADM_RES_USED : Reg :=
  ⟨0x600034, .one, [F.ADM_RES_USED_USED]⟩

/-- ADM_RES_CAP [31:0] CAP, RO (reset: Per resource). -/
def F.ADM_RES_CAP_CAP : Fld := ⟨0x600038, 0, 32, .ro, 0⟩

/-- The register ADM_RES_CAP (Table 9.11). -/
def R.ADM_RES_CAP : Reg :=
  ⟨0x600038, .one, [F.ADM_RES_CAP_CAP]⟩

/-- ADM_CNT_ADMIT [31:0] COUNT, RO. -/
def F.ADM_CNT_ADMIT_COUNT : Fld := ⟨0x600040, 0, 32, .ro, 0⟩

/-- The register ADM_CNT_ADMIT (Table 9.11). -/
def R.ADM_CNT_ADMIT : Reg :=
  ⟨0x600040, .one, [F.ADM_CNT_ADMIT_COUNT]⟩

/-- ADM_CNT_REFUSE [31:0] COUNT, RO. -/
def F.ADM_CNT_REFUSE_COUNT : Fld := ⟨0x600044, 0, 32, .ro, 0⟩

/-- The register ADM_CNT_REFUSE (Table 9.11). -/
def R.ADM_CNT_REFUSE : Reg :=
  ⟨0x600044, .one, [F.ADM_CNT_REFUSE_COUNT]⟩

/-- ADM_CNT_BROKEN [31:0] COUNT, RO. -/
def F.ADM_CNT_BROKEN_COUNT : Fld := ⟨0x600048, 0, 32, .ro, 0⟩

/-- The register ADM_CNT_BROKEN (Table 9.11). -/
def R.ADM_CNT_BROKEN : Reg :=
  ⟨0x600048, .one, [F.ADM_CNT_BROKEN_COUNT]⟩

/-- ADM_CNT_CTRL [0] CLEAR, WO. -/
def F.ADM_CNT_CTRL_CLEAR : Fld := ⟨0x600050, 0, 1, .wo, 0⟩

/-- ADM_CNT_CTRL [1] FREEZE, RW. -/
def F.ADM_CNT_CTRL_FREEZE : Fld := ⟨0x600050, 1, 1, .rw, 0⟩

/-- The register ADM_CNT_CTRL (Table 9.11). -/
def R.ADM_CNT_CTRL : Reg :=
  ⟨0x600050, .one, [F.ADM_CNT_CTRL_CLEAR, F.ADM_CNT_CTRL_FREEZE]⟩

/-- CTX_STATUS [0] LOW, RO. -/
def F.CTX_STATUS_LOW : Fld := ⟨0x601000, 0, 1, .ro, 0⟩

/-- CTX_STATUS [1] EXHAUSTED_SEEN, W1C. -/
def F.CTX_STATUS_EXHAUSTED_SEEN : Fld := ⟨0x601000, 1, 1, .w1c, 0⟩

/-- CTX_STATUS [2] UE_SEEN, W1C. -/
def F.CTX_STATUS_UE_SEEN : Fld := ⟨0x601000, 2, 1, .w1c, 0⟩

/-- The register CTX_STATUS (Table 9.11). -/
def R.CTX_STATUS : Reg :=
  ⟨0x601000, .one, [F.CTX_STATUS_LOW,
    F.CTX_STATUS_EXHAUSTED_SEEN,
    F.CTX_STATUS_UE_SEEN]⟩

/-- CTX_FREE [20:0] FREE, RO. -/
def F.CTX_FREE_FREE : Fld := ⟨0x601004, 0, 21, .ro, 0x100000⟩

/-- The register CTX_FREE (Table 9.11). -/
def R.CTX_FREE : Reg :=
  ⟨0x601004, .one, [F.CTX_FREE_FREE]⟩

/-- CTX_INDEX [16:0] USED, RO. -/
def F.CTX_INDEX_USED : Fld := ⟨0x601008, 0, 17, .ro, 0⟩

/-- The register CTX_INDEX (Table 9.11). -/
def R.CTX_INDEX : Reg :=
  ⟨0x601008, .one, [F.CTX_INDEX_USED]⟩

/-- CTX_CNT_NOCTX [31:0] COUNT, RO. -/
def F.CTX_CNT_NOCTX_COUNT : Fld := ⟨0x601010, 0, 32, .ro, 0⟩

/-- The register CTX_CNT_NOCTX (Table 9.11). -/
def R.CTX_CNT_NOCTX : Reg :=
  ⟨0x601010, .one, [F.CTX_CNT_NOCTX_COUNT]⟩

/-- CTX_CNT_UNJOINED [31:0] COUNT, RO. -/
def F.CTX_CNT_UNJOINED_COUNT : Fld := ⟨0x601014, 0, 32, .ro, 0⟩

/-- The register CTX_CNT_UNJOINED (Table 9.11). -/
def R.CTX_CNT_UNJOINED : Reg :=
  ⟨0x601014, .one, [F.CTX_CNT_UNJOINED_COUNT]⟩

/-- CTX_CNT_DUP [31:0] COUNT, RO. -/
def F.CTX_CNT_DUP_COUNT : Fld := ⟨0x601018, 0, 32, .ro, 0⟩

/-- The register CTX_CNT_DUP (Table 9.11). -/
def R.CTX_CNT_DUP : Reg :=
  ⟨0x601018, .one, [F.CTX_CNT_DUP_COUNT]⟩

/-- CTX_CNT_NOINPUT [31:0] COUNT, RO. -/
def F.CTX_CNT_NOINPUT_COUNT : Fld := ⟨0x60101C, 0, 32, .ro, 0⟩

/-- The register CTX_CNT_NOINPUT (Table 9.11). -/
def R.CTX_CNT_NOINPUT : Reg :=
  ⟨0x60101C, .one, [F.CTX_CNT_NOINPUT_COUNT]⟩

/-- CTX_CNT_NOLANE [31:0] COUNT, RO. -/
def F.CTX_CNT_NOLANE_COUNT : Fld := ⟨0x601020, 0, 32, .ro, 0⟩

/-- The register CTX_CNT_NOLANE (Table 9.11). -/
def R.CTX_CNT_NOLANE : Reg :=
  ⟨0x601020, .one, [F.CTX_CNT_NOLANE_COUNT]⟩

/-- CTX_CNT_UE [31:0] COUNT, RO. -/
def F.CTX_CNT_UE_COUNT : Fld := ⟨0x601024, 0, 32, .ro, 0⟩

/-- The register CTX_CNT_UE (Table 9.11). -/
def R.CTX_CNT_UE : Reg :=
  ⟨0x601024, .one, [F.CTX_CNT_UE_COUNT]⟩

/-- CTX_CNT_CTRL [0] CLEAR, WO. -/
def F.CTX_CNT_CTRL_CLEAR : Fld := ⟨0x601030, 0, 1, .wo, 0⟩

/-- CTX_CNT_CTRL [1] FREEZE, RW. -/
def F.CTX_CNT_CTRL_FREEZE : Fld := ⟨0x601030, 1, 1, .rw, 0⟩

/-- The register CTX_CNT_CTRL (Table 9.11). -/
def R.CTX_CNT_CTRL : Reg :=
  ⟨0x601030, .one, [F.CTX_CNT_CTRL_CLEAR, F.CTX_CNT_CTRL_FREEZE]⟩

/-- ITEM_SEL_LO [31:0] ID_LO, RW. -/
def F.ITEM_SEL_LO_ID_LO : Fld := ⟨0x602000, 0, 32, .rw, 0⟩

/-- The register ITEM_SEL_LO (Table 9.11). -/
def R.ITEM_SEL_LO : Reg :=
  ⟨0x602000, .one, [F.ITEM_SEL_LO_ID_LO]⟩

/-- ITEM_SEL_HI [15:0] ID_HI, RW. -/
def F.ITEM_SEL_HI_ID_HI : Fld := ⟨0x602004, 0, 16, .rw, 0⟩

/-- ITEM_SEL_HI [21:16] LANE, RW. -/
def F.ITEM_SEL_HI_LANE : Fld := ⟨0x602004, 16, 6, .rw, 0⟩

/-- The register ITEM_SEL_HI (Table 9.11). -/
def R.ITEM_SEL_HI : Reg :=
  ⟨0x602004, .one, [F.ITEM_SEL_HI_ID_HI, F.ITEM_SEL_HI_LANE]⟩

/-- ITEM_STATUS [0] FOUND, RO. -/
def F.ITEM_STATUS_FOUND : Fld := ⟨0x602008, 0, 1, .ro, 0⟩

/-- ITEM_STATUS [1] BUSY, RO. -/
def F.ITEM_STATUS_BUSY : Fld := ⟨0x602008, 1, 1, .ro, 0⟩

/-- ITEM_STATUS [2] INDEXED, RO. -/
def F.ITEM_STATUS_INDEXED : Fld := ⟨0x602008, 2, 1, .ro, 0⟩

/-- ITEM_STATUS [3] HIDDEN, RO. -/
def F.ITEM_STATUS_HIDDEN : Fld := ⟨0x602008, 3, 1, .ro, 0⟩

/-- The register ITEM_STATUS (Table 9.11). -/
def R.ITEM_STATUS : Reg :=
  ⟨0x602008, .one, [F.ITEM_STATUS_FOUND,
    F.ITEM_STATUS_BUSY,
    F.ITEM_STATUS_INDEXED,
    F.ITEM_STATUS_HIDDEN]⟩

/-- ITEM_WORD_SEL [4:0] WORD, RW. -/
def F.ITEM_WORD_SEL_WORD : Fld := ⟨0x60200C, 0, 5, .rw, 0⟩

/-- The register ITEM_WORD_SEL (Table 9.11). -/
def R.ITEM_WORD_SEL : Reg :=
  ⟨0x60200C, .one, [F.ITEM_WORD_SEL_WORD]⟩

/-- ITEM_WORD_DATA [31:0] DATA, RO. -/
def F.ITEM_WORD_DATA_DATA : Fld := ⟨0x602010, 0, 32, .ro, 0⟩

/-- The register ITEM_WORD_DATA (Table 9.11). -/
def R.ITEM_WORD_DATA : Reg :=
  ⟨0x602010, .one, [F.ITEM_WORD_DATA_DATA]⟩

/-! ### Table 13.10 -/

/-- CNP_ID [2:0] PORTS, RO. -/
def F.CNP_ID_PORTS : Fld := ⟨0x700000, 0, 3, .ro, 6⟩

/-- CNP_ID [15:8] MAX_DEVICES, RO. -/
def F.CNP_ID_MAX_DEVICES : Fld := ⟨0x700000, 8, 8, .ro, 0x80⟩

/-- The register CNP_ID (Table 13.10). -/
def R.CNP_ID : Reg :=
  ⟨0x700000, .one, [F.CNP_ID_PORTS, F.CNP_ID_MAX_DEVICES]⟩

/-- CNP_STATUS [0] REFUSED_WRITE, W1C. -/
def F.CNP_STATUS_REFUSED_WRITE : Fld := ⟨0x700004, 0, 1, .w1c, 0⟩

/-- CNP_STATUS [1] CFG_INVALID, W1C. -/
def F.CNP_STATUS_CFG_INVALID : Fld := ⟨0x700004, 1, 1, .w1c, 0⟩

/-- CNP_STATUS [2] START_REFUSED, W1C. -/
def F.CNP_STATUS_START_REFUSED : Fld := ⟨0x700004, 2, 1, .w1c, 0⟩

/-- CNP_STATUS [3] FENCE_SEEN, W1C. -/
def F.CNP_STATUS_FENCE_SEEN : Fld := ⟨0x700004, 3, 1, .w1c, 0⟩

/-- CNP_STATUS [4] DIGEST_DIFF_SEEN, W1C. -/
def F.CNP_STATUS_DIGEST_DIFF_SEEN : Fld := ⟨0x700004, 4, 1, .w1c, 0⟩

/-- CNP_STATUS [11:8] REASON, RO. -/
def F.CNP_STATUS_REASON : Fld := ⟨0x700004, 8, 4, .ro, 0⟩

/-- The register CNP_STATUS (Table 13.10). -/
def R.CNP_STATUS : Reg :=
  ⟨0x700004, .one, [F.CNP_STATUS_REFUSED_WRITE,
    F.CNP_STATUS_CFG_INVALID,
    F.CNP_STATUS_START_REFUSED,
    F.CNP_STATUS_FENCE_SEEN,
    F.CNP_STATUS_DIGEST_DIFF_SEEN,
    F.CNP_STATUS_REASON]⟩

/-- CNP_CTRL [0] START, WO. -/
def F.CNP_CTRL_START : Fld := ⟨0x700008, 0, 1, .wo, 0⟩

/-- CNP_CTRL [1] STOP, WO. -/
def F.CNP_CTRL_STOP : Fld := ⟨0x700008, 1, 1, .wo, 0⟩

/-- The register CNP_CTRL (Table 13.10). -/
def R.CNP_CTRL : Reg :=
  ⟨0x700008, .one, [F.CNP_CTRL_START, F.CNP_CTRL_STOP]⟩

/-- CNP_TOPO [7:0] DIM_X, RWS (reset: NV). -/
def F.CNP_TOPO_DIM_X : Fld := ⟨0x70000C, 0, 8, .rws, 1⟩

/-- CNP_TOPO [15:8] DIM_Y, RWS (reset: NV). -/
def F.CNP_TOPO_DIM_Y : Fld := ⟨0x70000C, 8, 8, .rws, 1⟩

/-- CNP_TOPO [23:16] DIM_Z, RWS (reset: NV). -/
def F.CNP_TOPO_DIM_Z : Fld := ⟨0x70000C, 16, 8, .rws, 1⟩

/-- The register CNP_TOPO (Table 13.10). -/
def R.CNP_TOPO : Reg :=
  ⟨0x70000C, .one, [F.CNP_TOPO_DIM_X, F.CNP_TOPO_DIM_Y, F.CNP_TOPO_DIM_Z]⟩

/-- CNP_TOPO_ID [6:0] DEVICE, RWS (reset: NV). -/
def F.CNP_TOPO_ID_DEVICE : Fld := ⟨0x700010, 0, 7, .rws, 0⟩

/-- CNP_TOPO_ID [10:8] ORDER, RWS (reset: NV). -/
def F.CNP_TOPO_ID_ORDER : Fld := ⟨0x700010, 8, 3, .rws, 0⟩

/-- The register CNP_TOPO_ID (Table 13.10). -/
def R.CNP_TOPO_ID : Reg :=
  ⟨0x700010, .one, [F.CNP_TOPO_ID_DEVICE, F.CNP_TOPO_ID_ORDER]⟩

/-- CNP_CFG [13:0] ACK_TO_NS, STG. -/
def F.CNP_CFG_ACK_TO_NS : Fld := ⟨0x700014, 0, 14, .stg, 0xbb8⟩

/-- CNP_CFG [22:16] RECEIPT_TO_US, STG. -/
def F.CNP_CFG_RECEIPT_TO_US : Fld := ⟨0x700014, 16, 7, .stg, 0x14⟩

/-- The register CNP_CFG (Table 13.10). -/
def R.CNP_CFG : Reg :=
  ⟨0x700014, .one, [F.CNP_CFG_ACK_TO_NS, F.CNP_CFG_RECEIPT_TO_US]⟩

/-- CNP_COMMIT [0] COMMIT, WO. -/
def F.CNP_COMMIT_COMMIT : Fld := ⟨0x700018, 0, 1, .wo, 0⟩

/-- The register CNP_COMMIT (Table 13.10). -/
def R.CNP_COMMIT : Reg :=
  ⟨0x700018, .one, [F.CNP_COMMIT_COMMIT]⟩

/-- CNP_DIGEST_CFG [13:0] PERIOD_MS, STG. -/
def F.CNP_DIGEST_CFG_PERIOD_MS : Fld := ⟨0x70001C, 0, 14, .stg, 0x64⟩

/-- CNP_DIGEST_CFG [16] EN, STG. -/
def F.CNP_DIGEST_CFG_EN : Fld := ⟨0x70001C, 16, 1, .stg, 1⟩

/-- The register CNP_DIGEST_CFG (Table 13.10). -/
def R.CNP_DIGEST_CFG : Reg :=
  ⟨0x70001C, .one, [F.CNP_DIGEST_CFG_PERIOD_MS, F.CNP_DIGEST_CFG_EN]⟩

/-- CNP_DIGEST_PEERS [31:0] MASK, STG. -/
def F.CNP_DIGEST_PEERS_MASK : Fld := ⟨0x700020, 0, 32, .stg, 0⟩

/-- The register CNP_DIGEST_PEERS (Table 13.10). -/
def R.CNP_DIGEST_PEERS : Reg :=
  ⟨0x700020, .arr 4 4, [F.CNP_DIGEST_PEERS_MASK]⟩

/-- CNP_PORT_SEL [2:0] PORT, RW. -/
def F.CNP_PORT_SEL_PORT : Fld := ⟨0x700040, 0, 3, .rw, 0⟩

/-- The register CNP_PORT_SEL (Table 13.10). -/
def R.CNP_PORT_SEL : Reg :=
  ⟨0x700040, .one, [F.CNP_PORT_SEL_PORT]⟩

/-- CNP_PORT_STATUS [2:0] STATE, RO. -/
def F.CNP_PORT_STATUS_STATE : Fld := ⟨0x700044, 0, 3, .ro, 0⟩

/-- CNP_PORT_STATUS [7:4] FENCE, RO. -/
def F.CNP_PORT_STATUS_FENCE : Fld := ⟨0x700044, 4, 4, .ro, 0⟩

/-- CNP_PORT_STATUS [8] KEY, RO. -/
def F.CNP_PORT_STATUS_KEY : Fld := ⟨0x700044, 8, 1, .ro, 0⟩

/-- The register CNP_PORT_STATUS (Table 13.10). -/
def R.CNP_PORT_STATUS : Reg :=
  ⟨0x700044, .one, [F.CNP_PORT_STATUS_STATE,
    F.CNP_PORT_STATUS_FENCE,
    F.CNP_PORT_STATUS_KEY]⟩

/-- CNP_PORT_PEER [6:0] DEVICE, RO. -/
def F.CNP_PORT_PEER_DEVICE : Fld := ⟨0x700048, 0, 7, .ro, 0⟩

/-- CNP_PORT_PEER [10:8] PORT, RO. -/
def F.CNP_PORT_PEER_PORT : Fld := ⟨0x700048, 8, 3, .ro, 0⟩

/-- CNP_PORT_PEER [31] VALID, RO. -/
def F.CNP_PORT_PEER_VALID : Fld := ⟨0x700048, 31, 1, .ro, 0⟩

/-- The register CNP_PORT_PEER (Table 13.10). -/
def R.CNP_PORT_PEER : Reg :=
  ⟨0x700048, .one, [F.CNP_PORT_PEER_DEVICE,
    F.CNP_PORT_PEER_PORT,
    F.CNP_PORT_PEER_VALID]⟩

/-- CNP_PORT_DELAY [11:0] RTT_NS, RO. -/
def F.CNP_PORT_DELAY_RTT_NS : Fld := ⟨0x70004C, 0, 12, .ro, 0⟩

/-- CNP_PORT_DELAY [27:16] D_NS, RO. -/
def F.CNP_PORT_DELAY_D_NS : Fld := ⟨0x70004C, 16, 12, .ro, 0⟩

/-- The register CNP_PORT_DELAY (Table 13.10). -/
def R.CNP_PORT_DELAY : Reg :=
  ⟨0x70004C, .one, [F.CNP_PORT_DELAY_RTT_NS, F.CNP_PORT_DELAY_D_NS]⟩

/-- CNP_PORT_LOAD [15:0] LOAD, RO. -/
def F.CNP_PORT_LOAD_LOAD : Fld := ⟨0x700050, 0, 16, .ro, 0⟩

/-- CNP_PORT_LOAD [31:16] CAP, RO. -/
def F.CNP_PORT_LOAD_CAP : Fld := ⟨0x700050, 16, 16, .ro, 0xa2⟩

/-- The register CNP_PORT_LOAD (Table 13.10). -/
def R.CNP_PORT_LOAD : Reg :=
  ⟨0x700050, .one, [F.CNP_PORT_LOAD_LOAD, F.CNP_PORT_LOAD_CAP]⟩

/-- CNP_ROUTE_SEL [6:0] DEVICE, RW. -/
def F.CNP_ROUTE_SEL_DEVICE : Fld := ⟨0x700060, 0, 7, .rw, 0⟩

/-- The register CNP_ROUTE_SEL (Table 13.10). -/
def R.CNP_ROUTE_SEL : Reg :=
  ⟨0x700060, .one, [F.CNP_ROUTE_SEL_DEVICE]⟩

/-- CNP_ROUTE_DATA [2:0] PORT, RO. -/
def F.CNP_ROUTE_DATA_PORT : Fld := ⟨0x700064, 0, 3, .ro, 7⟩

/-- CNP_ROUTE_DATA [15:8] HOPS, RO. -/
def F.CNP_ROUTE_DATA_HOPS : Fld := ⟨0x700064, 8, 8, .ro, 0⟩

/-- The register CNP_ROUTE_DATA (Table 13.10). -/
def R.CNP_ROUTE_DATA : Reg :=
  ⟨0x700064, .one, [F.CNP_ROUTE_DATA_PORT, F.CNP_ROUTE_DATA_HOPS]⟩

/-- CNP_CNT_CRC [31:0] COUNT, RO. -/
def F.CNP_CNT_CRC_COUNT : Fld := ⟨0x700080, 0, 32, .ro, 0⟩

/-- The register CNP_CNT_CRC (Table 13.10). -/
def R.CNP_CNT_CRC : Reg :=
  ⟨0x700080, .one, [F.CNP_CNT_CRC_COUNT]⟩

/-- CNP_CNT_AUTH [31:0] COUNT, RO. -/
def F.CNP_CNT_AUTH_COUNT : Fld := ⟨0x700084, 0, 32, .ro, 0⟩

/-- The register CNP_CNT_AUTH (Table 13.10). -/
def R.CNP_CNT_AUTH : Reg :=
  ⟨0x700084, .one, [F.CNP_CNT_AUTH_COUNT]⟩

/-- CNP_CNT_RETX [31:0] COUNT, RO. -/
def F.CNP_CNT_RETX_COUNT : Fld := ⟨0x700088, 0, 32, .ro, 0⟩

/-- The register CNP_CNT_RETX (Table 13.10). -/
def R.CNP_CNT_RETX : Reg :=
  ⟨0x700088, .one, [F.CNP_CNT_RETX_COUNT]⟩

/-- CNP_CNT_NAK [31:0] COUNT, RO. -/
def F.CNP_CNT_NAK_COUNT : Fld := ⟨0x70008C, 0, 32, .ro, 0⟩

/-- The register CNP_CNT_NAK (Table 13.10). -/
def R.CNP_CNT_NAK : Reg :=
  ⟨0x70008C, .one, [F.CNP_CNT_NAK_COUNT]⟩

/-- CNP_CNT_NOROUTE [31:0] COUNT, RO. -/
def F.CNP_CNT_NOROUTE_COUNT : Fld := ⟨0x700090, 0, 32, .ro, 0⟩

/-- The register CNP_CNT_NOROUTE (Table 13.10). -/
def R.CNP_CNT_NOROUTE : Reg :=
  ⟨0x700090, .one, [F.CNP_CNT_NOROUTE_COUNT]⟩

/-- CNP_CNT_UNBOUND [31:0] COUNT, RO. -/
def F.CNP_CNT_UNBOUND_COUNT : Fld := ⟨0x700094, 0, 32, .ro, 0⟩

/-- The register CNP_CNT_UNBOUND (Table 13.10). -/
def R.CNP_CNT_UNBOUND : Reg :=
  ⟨0x700094, .one, [F.CNP_CNT_UNBOUND_COUNT]⟩

/-- CNP_CNT_DIGESTERR [31:0] COUNT, RO. -/
def F.CNP_CNT_DIGESTERR_COUNT : Fld := ⟨0x700098, 0, 32, .ro, 0⟩

/-- The register CNP_CNT_DIGESTERR (Table 13.10). -/
def R.CNP_CNT_DIGESTERR : Reg :=
  ⟨0x700098, .one, [F.CNP_CNT_DIGESTERR_COUNT]⟩

/-- CNP_CNT_DIGESTSKIP [31:0] COUNT, RO. -/
def F.CNP_CNT_DIGESTSKIP_COUNT : Fld := ⟨0x70009C, 0, 32, .ro, 0⟩

/-- The register CNP_CNT_DIGESTSKIP (Table 13.10). -/
def R.CNP_CNT_DIGESTSKIP : Reg :=
  ⟨0x70009C, .one, [F.CNP_CNT_DIGESTSKIP_COUNT]⟩

/-- CNP_CNT_TTL [31:0] COUNT, RO. -/
def F.CNP_CNT_TTL_COUNT : Fld := ⟨0x7000A0, 0, 32, .ro, 0⟩

/-- The register CNP_CNT_TTL (Table 13.10). -/
def R.CNP_CNT_TTL : Reg :=
  ⟨0x7000A0, .one, [F.CNP_CNT_TTL_COUNT]⟩

/-- CNP_CNT_CTRL [0] CLEAR, WO. -/
def F.CNP_CNT_CTRL_CLEAR : Fld := ⟨0x7000B0, 0, 1, .wo, 0⟩

/-- CNP_CNT_CTRL [1] FREEZE, RW. -/
def F.CNP_CNT_CTRL_FREEZE : Fld := ⟨0x7000B0, 1, 1, .rw, 0⟩

/-- The register CNP_CNT_CTRL (Table 13.10). -/
def R.CNP_CNT_CTRL : Reg :=
  ⟨0x7000B0, .one, [F.CNP_CNT_CTRL_CLEAR, F.CNP_CNT_CTRL_FREEZE]⟩

/-! ### Table 13.12 -/

/-- SYNC_VALUE [31:0] VALUE, RO. -/
def F.SYNC_VALUE_VALUE : Fld := ⟨0x800000, 0, 32, .ro, 0⟩

/-- The register SYNC_VALUE (Table 13.12). -/
def R.SYNC_VALUE : Reg :=
  ⟨0x800000, .sync, [F.SYNC_VALUE_VALUE]⟩

/-- SYNC_WAIT [11:0] CLAIMS, RO. -/
def F.SYNC_WAIT_CLAIMS : Fld := ⟨0x800004, 0, 12, .ro, 0⟩

/-- SYNC_WAIT [23:12] WAITS, RO. -/
def F.SYNC_WAIT_WAITS : Fld := ⟨0x800004, 12, 12, .ro, 0⟩

/-- SYNC_WAIT [24] OVF, W1C. -/
def F.SYNC_WAIT_OVF : Fld := ⟨0x800004, 24, 1, .w1c, 0⟩

/-- SYNC_WAIT [25] ALLOC, RO. -/
def F.SYNC_WAIT_ALLOC : Fld := ⟨0x800004, 25, 1, .ro, 0⟩

/-- The register SYNC_WAIT (Table 13.12). -/
def R.SYNC_WAIT : Reg :=
  ⟨0x800004, .sync, [F.SYNC_WAIT_CLAIMS,
    F.SYNC_WAIT_WAITS,
    F.SYNC_WAIT_OVF,
    F.SYNC_WAIT_ALLOC]⟩

/-- SYNC_LAST [6:0] DEVICE, RO. -/
def F.SYNC_LAST_DEVICE : Fld := ⟨0x800008, 0, 7, .ro, 0⟩

/-- SYNC_LAST [13:8] NODE, RO. -/
def F.SYNC_LAST_NODE : Fld := ⟨0x800008, 8, 6, .ro, 0⟩

/-- SYNC_LAST [18:14] CONTEXT, RO. -/
def F.SYNC_LAST_CONTEXT : Fld := ⟨0x800008, 14, 5, .ro, 0⟩

/-- SYNC_LAST [31] VALID, RO. -/
def F.SYNC_LAST_VALID : Fld := ⟨0x800008, 31, 1, .ro, 0⟩

/-- The register SYNC_LAST (Table 13.12). -/
def R.SYNC_LAST : Reg :=
  ⟨0x800008, .sync, [F.SYNC_LAST_DEVICE,
    F.SYNC_LAST_NODE,
    F.SYNC_LAST_CONTEXT,
    F.SYNC_LAST_VALID]⟩

/-- SYNC_OWNER [4:0] CONTEXT, RO. -/
def F.SYNC_OWNER_CONTEXT : Fld := ⟨0x80000C, 0, 5, .ro, 0⟩

/-- SYNC_OWNER [31:16] STAGE, RO. -/
def F.SYNC_OWNER_STAGE : Fld := ⟨0x80000C, 16, 16, .ro, 0⟩

/-- The register SYNC_OWNER (Table 13.12). -/
def R.SYNC_OWNER : Reg :=
  ⟨0x80000C, .sync, [F.SYNC_OWNER_CONTEXT, F.SYNC_OWNER_STAGE]⟩

/-- SYNC_ID [14:0] COUNTERS, RO. -/
def F.SYNC_ID_COUNTERS : Fld := ⟨0x900000, 0, 15, .ro, 0x4000⟩

/-- SYNC_ID [22:16] SEALED, RO. -/
def F.SYNC_ID_SEALED : Fld := ⟨0x900000, 16, 7, .ro, 0x40⟩

/-- The register SYNC_ID (Table 13.12). -/
def R.SYNC_ID : Reg :=
  ⟨0x900000, .one, [F.SYNC_ID_COUNTERS, F.SYNC_ID_SEALED]⟩

/-- SYNC_STATUS [0] OVF_SEEN, W1C. -/
def F.SYNC_STATUS_OVF_SEEN : Fld := ⟨0x900004, 0, 1, .w1c, 0⟩

/-- SYNC_STATUS [1] STRAY_SEEN, W1C. -/
def F.SYNC_STATUS_STRAY_SEEN : Fld := ⟨0x900004, 1, 1, .w1c, 0⟩

/-- SYNC_STATUS [2] WAITFULL_SEEN, W1C. -/
def F.SYNC_STATUS_WAITFULL_SEEN : Fld := ⟨0x900004, 2, 1, .w1c, 0⟩

/-- The register SYNC_STATUS (Table 13.12). -/
def R.SYNC_STATUS : Reg :=
  ⟨0x900004, .one, [F.SYNC_STATUS_OVF_SEEN,
    F.SYNC_STATUS_STRAY_SEEN,
    F.SYNC_STATUS_WAITFULL_SEEN]⟩

/-- SYNC_FREE [14:0] FREE, RO. -/
def F.SYNC_FREE_FREE : Fld := ⟨0x900008, 0, 15, .ro, 0x4000⟩

/-- SYNC_FREE [30:16] LARGEST, RO. -/
def F.SYNC_FREE_LARGEST : Fld := ⟨0x900008, 16, 15, .ro, 0x4000⟩

/-- The register SYNC_FREE (Table 13.12). -/
def R.SYNC_FREE : Reg :=
  ⟨0x900008, .one, [F.SYNC_FREE_FREE, F.SYNC_FREE_LARGEST]⟩

/-- SYNC_WAITTAB [12:0] USED, RO. -/
def F.SYNC_WAITTAB_USED : Fld := ⟨0x90000C, 0, 13, .ro, 0⟩

/-- SYNC_WAITTAB [28:16] PEAK, RO. -/
def F.SYNC_WAITTAB_PEAK : Fld := ⟨0x90000C, 16, 13, .ro, 0⟩

/-- The register SYNC_WAITTAB (Table 13.12). -/
def R.SYNC_WAITTAB : Reg :=
  ⟨0x90000C, .one, [F.SYNC_WAITTAB_USED, F.SYNC_WAITTAB_PEAK]⟩

/-- SYNC_CNT_STRAY [31:0] COUNT, RO. -/
def F.SYNC_CNT_STRAY_COUNT : Fld := ⟨0x900020, 0, 32, .ro, 0⟩

/-- The register SYNC_CNT_STRAY (Table 13.12). -/
def R.SYNC_CNT_STRAY : Reg :=
  ⟨0x900020, .one, [F.SYNC_CNT_STRAY_COUNT]⟩

/-- SYNC_CNT_OVERFLOW [31:0] COUNT, RO. -/
def F.SYNC_CNT_OVERFLOW_COUNT : Fld := ⟨0x900024, 0, 32, .ro, 0⟩

/-- The register SYNC_CNT_OVERFLOW (Table 13.12). -/
def R.SYNC_CNT_OVERFLOW : Reg :=
  ⟨0x900024, .one, [F.SYNC_CNT_OVERFLOW_COUNT]⟩

/-- SYNC_CNT_WAITFULL [31:0] COUNT, RO. -/
def F.SYNC_CNT_WAITFULL_COUNT : Fld := ⟨0x900028, 0, 32, .ro, 0⟩

/-- The register SYNC_CNT_WAITFULL (Table 13.12). -/
def R.SYNC_CNT_WAITFULL : Reg :=
  ⟨0x900028, .one, [F.SYNC_CNT_WAITFULL_COUNT]⟩

/-- SYNC_CNT_DUP [31:0] COUNT, RO. -/
def F.SYNC_CNT_DUP_COUNT : Fld := ⟨0x90002C, 0, 32, .ro, 0⟩

/-- The register SYNC_CNT_DUP (Table 13.12). -/
def R.SYNC_CNT_DUP : Reg :=
  ⟨0x90002C, .one, [F.SYNC_CNT_DUP_COUNT]⟩

/-- SYNC_CNT_CTRL [0] CLEAR, WO. -/
def F.SYNC_CNT_CTRL_CLEAR : Fld := ⟨0x900040, 0, 1, .wo, 0⟩

/-- SYNC_CNT_CTRL [1] FREEZE, RW. -/
def F.SYNC_CNT_CTRL_FREEZE : Fld := ⟨0x900040, 1, 1, .rw, 0⟩

/-- The register SYNC_CNT_CTRL (Table 13.12). -/
def R.SYNC_CNT_CTRL : Reg :=
  ⟨0x900040, .one, [F.SYNC_CNT_CTRL_CLEAR, F.SYNC_CNT_CTRL_FREEZE]⟩

/-! ### Table 14.14 -/

/-- REL_ID [7:0] SAMPLE_Q, RO. -/
def F.REL_ID_SAMPLE_Q : Fld := ⟨0xA00000, 0, 8, .ro, 8⟩

/-- REL_ID [31:16] FR_SLOTS_LOG2, RO. -/
def F.REL_ID_FR_SLOTS_LOG2 : Fld := ⟨0xA00000, 16, 16, .ro, 0x10⟩

/-- The register REL_ID (Table 14.14). -/
def R.REL_ID : Reg :=
  ⟨0xA00000, .one, [F.REL_ID_SAMPLE_Q, F.REL_ID_FR_SLOTS_LOG2]⟩

/-- REL_STATUS [0] CFG_INVALID, W1C. -/
def F.REL_STATUS_CFG_INVALID : Fld := ⟨0xA00004, 0, 1, .w1c, 0⟩

/-- REL_STATUS [1] CONFIRM_SEEN, W1C. -/
def F.REL_STATUS_CONFIRM_SEEN : Fld := ⟨0xA00004, 1, 1, .w1c, 0⟩

/-- REL_STATUS [2] KAT_FAIL_SEEN, W1C. -/
def F.REL_STATUS_KAT_FAIL_SEEN : Fld := ⟨0xA00004, 2, 1, .w1c, 0⟩

/-- REL_STATUS [3] RANGE_SEEN, W1C. -/
def F.REL_STATUS_RANGE_SEEN : Fld := ⟨0xA00004, 3, 1, .w1c, 0⟩

/-- REL_STATUS [4] RETIRE_SEEN, W1C. -/
def F.REL_STATUS_RETIRE_SEEN : Fld := ⟨0xA00004, 4, 1, .w1c, 0⟩

/-- REL_STATUS [5] FR_LOST_SEEN, W1C. -/
def F.REL_STATUS_FR_LOST_SEEN : Fld := ⟨0xA00004, 5, 1, .w1c, 0⟩

/-- REL_STATUS [9:8] LOOKOUTS, RO. -/
def F.REL_STATUS_LOOKOUTS : Fld := ⟨0xA00004, 8, 2, .ro, 2⟩

/-- The register REL_STATUS (Table 14.14). -/
def R.REL_STATUS : Reg :=
  ⟨0xA00004, .one, [F.REL_STATUS_CFG_INVALID,
    F.REL_STATUS_CONFIRM_SEEN,
    F.REL_STATUS_KAT_FAIL_SEEN,
    F.REL_STATUS_RANGE_SEEN,
    F.REL_STATUS_RETIRE_SEEN,
    F.REL_STATUS_FR_LOST_SEEN,
    F.REL_STATUS_LOOKOUTS]⟩

/-- REL_CTRL [0] KAT_NOW, WO. -/
def F.REL_CTRL_KAT_NOW : Fld := ⟨0xA00008, 0, 1, .wo, 0⟩

/-- REL_CTRL [12:8] CORE, WO. -/
def F.REL_CTRL_CORE : Fld := ⟨0xA00008, 8, 5, .wo, 0⟩

/-- The register REL_CTRL (Table 14.14). -/
def R.REL_CTRL : Reg :=
  ⟨0xA00008, .one, [F.REL_CTRL_KAT_NOW, F.REL_CTRL_CORE]⟩

/-- REL_CFG [0] RETRACT_SCOPE, STG. -/
def F.REL_CFG_RETRACT_SCOPE : Fld := ⟨0xA0000C, 0, 1, .stg, 0⟩

/-- The register REL_CFG (Table 14.14). -/
def R.REL_CFG : Reg :=
  ⟨0xA0000C, .one, [F.REL_CFG_RETRACT_SCOPE]⟩

/-- REL_SHADOW_CFG [13:0] DWELL_US, STG. -/
def F.REL_SHADOW_CFG_DWELL_US : Fld := ⟨0xA00010, 0, 14, .stg, 0x5dc⟩

/-- REL_SHADOW_CFG [21:16] SAMPLE_EVERY, STG. -/
def F.REL_SHADOW_CFG_SAMPLE_EVERY : Fld := ⟨0xA00010, 16, 6, .stg, 4⟩

/-- REL_SHADOW_CFG [27:24] TOL_SCALE, STG. -/
def F.REL_SHADOW_CFG_TOL_SCALE : Fld := ⟨0xA00010, 24, 4, .stg, 0xf⟩

/-- The register REL_SHADOW_CFG (Table 14.14). -/
def R.REL_SHADOW_CFG : Reg :=
  ⟨0xA00010, .one, [F.REL_SHADOW_CFG_DWELL_US,
    F.REL_SHADOW_CFG_SAMPLE_EVERY,
    F.REL_SHADOW_CFG_TOL_SCALE]⟩

/-- REL_RANGE_CFG [16:0] WINDOW, STG. -/
def F.REL_RANGE_CFG_WINDOW : Fld := ⟨0xA00014, 0, 17, .stg, 0x1000⟩

/-- REL_RANGE_CFG [20] CONVICT, STG. -/
def F.REL_RANGE_CFG_CONVICT : Fld := ⟨0xA00014, 20, 1, .stg, 0⟩

/-- The register REL_RANGE_CFG (Table 14.14). -/
def R.REL_RANGE_CFG : Reg :=
  ⟨0xA00014, .one, [F.REL_RANGE_CFG_WINDOW, F.REL_RANGE_CFG_CONVICT]⟩

/-- REL_COMMIT [0] COMMIT, WO. -/
def F.REL_COMMIT_COMMIT : Fld := ⟨0xA00018, 0, 1, .wo, 0⟩

/-- The register REL_COMMIT (Table 14.14). -/
def R.REL_COMMIT : Reg :=
  ⟨0xA00018, .one, [F.REL_COMMIT_COMMIT]⟩

/-- REL_LOOKOUT [4:0] CORE0, RO (reset: NV). -/
def F.REL_LOOKOUT_CORE0 : Fld := ⟨0xA00020, 0, 5, .ro, 0xb⟩

/-- REL_LOOKOUT [20:16] CORE1, RO (reset: NV). -/
def F.REL_LOOKOUT_CORE1 : Fld := ⟨0xA00020, 16, 5, .ro, 0x14⟩

/-- REL_LOOKOUT [12:8] SUBJECT0, RO. -/
def F.REL_LOOKOUT_SUBJECT0 : Fld := ⟨0xA00020, 8, 5, .ro, 0⟩

/-- REL_LOOKOUT [28:24] SUBJECT1, RO. -/
def F.REL_LOOKOUT_SUBJECT1 : Fld := ⟨0xA00020, 24, 5, .ro, 0⟩

/-- REL_LOOKOUT [14:13] STATE0, RO. -/
def F.REL_LOOKOUT_STATE0 : Fld := ⟨0xA00020, 13, 2, .ro, 0⟩

/-- REL_LOOKOUT [30:29] STATE1, RO. -/
def F.REL_LOOKOUT_STATE1 : Fld := ⟨0xA00020, 29, 2, .ro, 0⟩

/-- The register REL_LOOKOUT (Table 14.14). -/
def R.REL_LOOKOUT : Reg :=
  ⟨0xA00020, .one, [F.REL_LOOKOUT_CORE0,
    F.REL_LOOKOUT_SUBJECT0,
    F.REL_LOOKOUT_STATE0,
    F.REL_LOOKOUT_CORE1,
    F.REL_LOOKOUT_SUBJECT1,
    F.REL_LOOKOUT_STATE1]⟩

/-- REL_UNIT_SEL [1:0] KIND, RW. -/
def F.REL_UNIT_SEL_KIND : Fld := ⟨0xA00024, 0, 2, .rw, 0⟩

/-- REL_UNIT_SEL [12:8] CORE, RW. -/
def F.REL_UNIT_SEL_CORE : Fld := ⟨0xA00024, 8, 5, .rw, 0⟩

/-- REL_UNIT_SEL [21:16] ENGINE, RW. -/
def F.REL_UNIT_SEL_ENGINE : Fld := ⟨0xA00024, 16, 6, .rw, 0⟩

/-- REL_UNIT_SEL [31:23] LANE, RW. -/
def F.REL_UNIT_SEL_LANE : Fld := ⟨0xA00024, 23, 9, .rw, 0⟩

/-- The register REL_UNIT_SEL (Table 14.14). -/
def R.REL_UNIT_SEL : Reg :=
  ⟨0xA00024, .one, [F.REL_UNIT_SEL_KIND,
    F.REL_UNIT_SEL_CORE,
    F.REL_UNIT_SEL_ENGINE,
    F.REL_UNIT_SEL_LANE]⟩

/-- REL_UNIT_DATA [1:0] STATE, RO (reset: NV). -/
def F.REL_UNIT_DATA_STATE : Fld := ⟨0xA00028, 0, 2, .ro, 0⟩

/-- REL_UNIT_DATA [3:2] FAILS, RO. -/
def F.REL_UNIT_DATA_FAILS : Fld := ⟨0xA00028, 2, 2, .ro, 0⟩

/-- REL_UNIT_DATA [11:4] CLEAN, RO. -/
def F.REL_UNIT_DATA_CLEAN : Fld := ⟨0xA00028, 4, 8, .ro, 0⟩

/-- REL_UNIT_DATA [19:12] REASON, RO. -/
def F.REL_UNIT_DATA_REASON : Fld := ⟨0xA00028, 12, 8, .ro, 0⟩

/-- The register REL_UNIT_DATA (Table 14.14). -/
def R.REL_UNIT_DATA : Reg :=
  ⟨0xA00028, .one, [F.REL_UNIT_DATA_STATE,
    F.REL_UNIT_DATA_FAILS,
    F.REL_UNIT_DATA_CLEAN,
    F.REL_UNIT_DATA_REASON]⟩

/-- REL_FR_HEAD [31:0] NEXT, RO. -/
def F.REL_FR_HEAD_NEXT : Fld := ⟨0xA00030, 0, 32, .ro, 0⟩

/-- The register REL_FR_HEAD (Table 14.14). -/
def R.REL_FR_HEAD : Reg :=
  ⟨0xA00030, .one, [F.REL_FR_HEAD_NEXT]⟩

/-- REL_FR_SEL [15:0] SLOT, RW. -/
def F.REL_FR_SEL_SLOT : Fld := ⟨0xA00034, 0, 16, .rw, 0⟩

/-- REL_FR_SEL [21:16] WORD, RW. -/
def F.REL_FR_SEL_WORD : Fld := ⟨0xA00034, 16, 6, .rw, 0⟩

/-- The register REL_FR_SEL (Table 14.14). -/
def R.REL_FR_SEL : Reg :=
  ⟨0xA00034, .one, [F.REL_FR_SEL_SLOT, F.REL_FR_SEL_WORD]⟩

/-- REL_FR_DATA [31:0] DATA, RO. -/
def F.REL_FR_DATA_DATA : Fld := ⟨0xA00038, 0, 32, .ro, 0⟩

/-- The register REL_FR_DATA (Table 14.14). -/
def R.REL_FR_DATA : Reg :=
  ⟨0xA00038, .one, [F.REL_FR_DATA_DATA]⟩

/-- REL_CNT_SAMPLE [31:0] COUNT, RO. -/
def F.REL_CNT_SAMPLE_COUNT : Fld := ⟨0xA00040, 0, 32, .ro, 0⟩

/-- The register REL_CNT_SAMPLE (Table 14.14). -/
def R.REL_CNT_SAMPLE : Reg :=
  ⟨0xA00040, .one, [F.REL_CNT_SAMPLE_COUNT]⟩

/-- REL_CNT_SKIP [31:0] COUNT, RO. -/
def F.REL_CNT_SKIP_COUNT : Fld := ⟨0xA00044, 0, 32, .ro, 0⟩

/-- The register REL_CNT_SKIP (Table 14.14). -/
def R.REL_CNT_SKIP : Reg :=
  ⟨0xA00044, .one, [F.REL_CNT_SKIP_COUNT]⟩

/-- REL_CNT_NOCOMP [31:0] COUNT, RO. -/
def F.REL_CNT_NOCOMP_COUNT : Fld := ⟨0xA00048, 0, 32, .ro, 0⟩

/-- The register REL_CNT_NOCOMP (Table 14.14). -/
def R.REL_CNT_NOCOMP : Reg :=
  ⟨0xA00048, .one, [F.REL_CNT_NOCOMP_COUNT]⟩

/-- REL_CNT_MISMATCH [31:0] COUNT, RO. -/
def F.REL_CNT_MISMATCH_COUNT : Fld := ⟨0xA0004C, 0, 32, .ro, 0⟩

/-- The register REL_CNT_MISMATCH (Table 14.14). -/
def R.REL_CNT_MISMATCH : Reg :=
  ⟨0xA0004C, .one, [F.REL_CNT_MISMATCH_COUNT]⟩

/-- REL_CNT_CONFIRM [31:0] COUNT, RO. -/
def F.REL_CNT_CONFIRM_COUNT : Fld := ⟨0xA00050, 0, 32, .ro, 0⟩

/-- The register REL_CNT_CONFIRM (Table 14.14). -/
def R.REL_CNT_CONFIRM : Reg :=
  ⟨0xA00050, .one, [F.REL_CNT_CONFIRM_COUNT]⟩

/-- REL_CNT_KAT [31:0] COUNT, RO. -/
def F.REL_CNT_KAT_COUNT : Fld := ⟨0xA00054, 0, 32, .ro, 0⟩

/-- The register REL_CNT_KAT (Table 14.14). -/
def R.REL_CNT_KAT : Reg :=
  ⟨0xA00054, .one, [F.REL_CNT_KAT_COUNT]⟩

/-- REL_CNT_KATFAIL [31:0] COUNT, RO. -/
def F.REL_CNT_KATFAIL_COUNT : Fld := ⟨0xA00058, 0, 32, .ro, 0⟩

/-- The register REL_CNT_KATFAIL (Table 14.14). -/
def R.REL_CNT_KATFAIL : Reg :=
  ⟨0xA00058, .one, [F.REL_CNT_KATFAIL_COUNT]⟩

/-- REL_CNT_RANGE [31:0] COUNT, RO. -/
def F.REL_CNT_RANGE_COUNT : Fld := ⟨0xA0005C, 0, 32, .ro, 0⟩

/-- The register REL_CNT_RANGE (Table 14.14). -/
def R.REL_CNT_RANGE : Reg :=
  ⟨0xA0005C, .one, [F.REL_CNT_RANGE_COUNT]⟩

/-- REL_CNT_RETRACT [31:0] COUNT, RO. -/
def F.REL_CNT_RETRACT_COUNT : Fld := ⟨0xA00060, 0, 32, .ro, 0⟩

/-- The register REL_CNT_RETRACT (Table 14.14). -/
def R.REL_CNT_RETRACT : Reg :=
  ⟨0xA00060, .one, [F.REL_CNT_RETRACT_COUNT]⟩

/-- REL_CNT_FAILOVER [31:0] COUNT, RO. -/
def F.REL_CNT_FAILOVER_COUNT : Fld := ⟨0xA00064, 0, 32, .ro, 0⟩

/-- The register REL_CNT_FAILOVER (Table 14.14). -/
def R.REL_CNT_FAILOVER : Reg :=
  ⟨0xA00064, .one, [F.REL_CNT_FAILOVER_COUNT]⟩

/-- REL_CNT_RETIRE [31:0] COUNT, RO. -/
def F.REL_CNT_RETIRE_COUNT : Fld := ⟨0xA00068, 0, 32, .ro, 0⟩

/-- The register REL_CNT_RETIRE (Table 14.14). -/
def R.REL_CNT_RETIRE : Reg :=
  ⟨0xA00068, .one, [F.REL_CNT_RETIRE_COUNT]⟩

/-- REL_CNT_FRLOST [31:0] COUNT, RO. -/
def F.REL_CNT_FRLOST_COUNT : Fld := ⟨0xA0006C, 0, 32, .ro, 0⟩

/-- The register REL_CNT_FRLOST (Table 14.14). -/
def R.REL_CNT_FRLOST : Reg :=
  ⟨0xA0006C, .one, [F.REL_CNT_FRLOST_COUNT]⟩

/-- REL_CNT_CTRL [0] CLEAR, WO. -/
def F.REL_CNT_CTRL_CLEAR : Fld := ⟨0xA00070, 0, 1, .wo, 0⟩

/-- REL_CNT_CTRL [1] FREEZE, RW. -/
def F.REL_CNT_CTRL_FREEZE : Fld := ⟨0xA00070, 1, 1, .rw, 0⟩

/-- The register REL_CNT_CTRL (Table 14.14). -/
def R.REL_CNT_CTRL : Reg :=
  ⟨0xA00070, .one, [F.REL_CNT_CTRL_CLEAR, F.REL_CNT_CTRL_FREEZE]⟩

/-! ### Table 15.11 -/

/-- KEEP_ID [7:0] CONTEXTS, RO. -/
def F.KEEP_ID_CONTEXTS : Fld := ⟨0xB00000, 0, 8, .ro, 0x20⟩

/-- KEEP_ID [11:8] RESIDENT, RO. -/
def F.KEEP_ID_RESIDENT : Fld := ⟨0xB00000, 8, 4, .ro, 8⟩

/-- The register KEEP_ID (Table 15.11). -/
def R.KEEP_ID : Reg :=
  ⟨0xB00000, .one, [F.KEEP_ID_CONTEXTS, F.KEEP_ID_RESIDENT]⟩

/-- KEEP_STATUS [1:0] STATE, RO. -/
def F.KEEP_STATUS_STATE : Fld := ⟨0xB00004, 0, 2, .ro, 0⟩

/-- KEEP_STATUS [2] REFUSED_WRITE, W1C. -/
def F.KEEP_STATUS_REFUSED_WRITE : Fld := ⟨0xB00004, 2, 1, .w1c, 0⟩

/-- KEEP_STATUS [3] CFG_INVALID, W1C. -/
def F.KEEP_STATUS_CFG_INVALID : Fld := ⟨0xB00004, 3, 1, .w1c, 0⟩

/-- KEEP_STATUS [4] ROTATING, RO. -/
def F.KEEP_STATUS_ROTATING : Fld := ⟨0xB00004, 4, 1, .ro, 0⟩

/-- KEEP_STATUS [5] CONF_ACTIVE, RO. -/
def F.KEEP_STATUS_CONF_ACTIVE : Fld := ⟨0xB00004, 5, 1, .ro, 0⟩

/-- The register KEEP_STATUS (Table 15.11). -/
def R.KEEP_STATUS : Reg :=
  ⟨0xB00004, .one, [F.KEEP_STATUS_STATE,
    F.KEEP_STATUS_REFUSED_WRITE,
    F.KEEP_STATUS_CFG_INVALID,
    F.KEEP_STATUS_ROTATING,
    F.KEEP_STATUS_CONF_ACTIVE]⟩

/-- KEEP_MB_CMD [7:0] CMD, RW. -/
def F.KEEP_MB_CMD_CMD : Fld := ⟨0xB00008, 0, 8, .rw, 0⟩

/-- KEEP_MB_CMD [12:8] CONTEXT, RW. -/
def F.KEEP_MB_CMD_CONTEXT : Fld := ⟨0xB00008, 8, 5, .rw, 0⟩

/-- KEEP_MB_CMD [28:16] LEN, RW. -/
def F.KEEP_MB_CMD_LEN : Fld := ⟨0xB00008, 16, 13, .rw, 0⟩

/-- The register KEEP_MB_CMD (Table 15.11). -/
def R.KEEP_MB_CMD : Reg :=
  ⟨0xB00008, .one, [F.KEEP_MB_CMD_CMD, F.KEEP_MB_CMD_CONTEXT, F.KEEP_MB_CMD_LEN]⟩

/-- KEEP_MB_CTRL [0] GO, WO. -/
def F.KEEP_MB_CTRL_GO : Fld := ⟨0xB0000C, 0, 1, .wo, 0⟩

/-- The register KEEP_MB_CTRL (Table 15.11). -/
def R.KEEP_MB_CTRL : Reg :=
  ⟨0xB0000C, .one, [F.KEEP_MB_CTRL_GO]⟩

/-- KEEP_MB_STATUS [0] BUSY, RO. -/
def F.KEEP_MB_STATUS_BUSY : Fld := ⟨0xB00010, 0, 1, .ro, 0⟩

/-- KEEP_MB_STATUS [1] DONE, W1C. -/
def F.KEEP_MB_STATUS_DONE : Fld := ⟨0xB00010, 1, 1, .w1c, 0⟩

/-- KEEP_MB_STATUS [15:8] STATUS, RO. -/
def F.KEEP_MB_STATUS_STATUS : Fld := ⟨0xB00010, 8, 8, .ro, 0⟩

/-- KEEP_MB_STATUS [28:16] OUT_LEN, RO. -/
def F.KEEP_MB_STATUS_OUT_LEN : Fld := ⟨0xB00010, 16, 13, .ro, 0⟩

/-- The register KEEP_MB_STATUS (Table 15.11). -/
def R.KEEP_MB_STATUS : Reg :=
  ⟨0xB00010, .one, [F.KEEP_MB_STATUS_BUSY,
    F.KEEP_MB_STATUS_DONE,
    F.KEEP_MB_STATUS_STATUS,
    F.KEEP_MB_STATUS_OUT_LEN]⟩

/-- KEEP_CTX_SEL [4:0] CONTEXT, RW. -/
def F.KEEP_CTX_SEL_CONTEXT : Fld := ⟨0xB00020, 0, 5, .rw, 0⟩

/-- The register KEEP_CTX_SEL (Table 15.11). -/
def R.KEEP_CTX_SEL : Reg :=
  ⟨0xB00020, .one, [F.KEEP_CTX_SEL_CONTEXT]⟩

/-- KEEP_CTX_STATE [2:0] STATE, RO. -/
def F.KEEP_CTX_STATE_STATE : Fld := ⟨0xB00024, 0, 3, .ro, 0⟩

/-- KEEP_CTX_STATE [3] CONF, RO. -/
def F.KEEP_CTX_STATE_CONF : Fld := ⟨0xB00024, 3, 1, .ro, 0⟩

/-- KEEP_CTX_STATE [6:4] TDI, RO. -/
def F.KEEP_CTX_STATE_TDI : Fld := ⟨0xB00024, 4, 3, .ro, 0⟩

/-- KEEP_CTX_STATE [11:8] KEYS, RO (reset: NV). -/
def F.KEEP_CTX_STATE_KEYS : Fld := ⟨0xB00024, 8, 4, .ro, 0⟩

/-- KEEP_CTX_STATE [12] KEYGEN, RO. -/
def F.KEEP_CTX_STATE_KEYGEN : Fld := ⟨0xB00024, 12, 1, .ro, 0⟩

/-- KEEP_CTX_STATE [13] ROTATING, RO. -/
def F.KEEP_CTX_STATE_ROTATING : Fld := ⟨0xB00024, 13, 1, .ro, 0⟩

/-- KEEP_CTX_STATE [21:16] OWNER, RO. -/
def F.KEEP_CTX_STATE_OWNER : Fld := ⟨0xB00024, 16, 6, .ro, 0⟩

/-- The register KEEP_CTX_STATE (Table 15.11). -/
def R.KEEP_CTX_STATE : Reg :=
  ⟨0xB00024, .one, [F.KEEP_CTX_STATE_STATE,
    F.KEEP_CTX_STATE_CONF,
    F.KEEP_CTX_STATE_TDI,
    F.KEEP_CTX_STATE_KEYS,
    F.KEEP_CTX_STATE_KEYGEN,
    F.KEEP_CTX_STATE_ROTATING,
    F.KEEP_CTX_STATE_OWNER]⟩

/-- KEEP_CONF_CFG [0] POWER, STG (reset: NV). -/
def F.KEEP_CONF_CFG_POWER : Fld := ⟨0xB00030, 0, 1, .stg, 0⟩

/-- KEEP_CONF_CFG [1] CNP_POLICY, STG (reset: NV). -/
def F.KEEP_CONF_CFG_CNP_POLICY : Fld := ⟨0xB00030, 1, 1, .stg, 0⟩

/-- KEEP_CONF_CFG [15:8] REL_TO_S, STG. -/
def F.KEEP_CONF_CFG_REL_TO_S : Fld := ⟨0xB00030, 8, 8, .stg, 0xa⟩

/-- KEEP_CONF_CFG [31:20] ROT_PERIOD_H, STG (reset: NV). -/
def F.KEEP_CONF_CFG_ROT_PERIOD_H : Fld := ⟨0xB00030, 20, 12, .stg, 0x2d0⟩

/-- The register KEEP_CONF_CFG (Table 15.11). -/
def R.KEEP_CONF_CFG : Reg :=
  ⟨0xB00030, .one, [F.KEEP_CONF_CFG_POWER,
    F.KEEP_CONF_CFG_CNP_POLICY,
    F.KEEP_CONF_CFG_REL_TO_S,
    F.KEEP_CONF_CFG_ROT_PERIOD_H]⟩

/-- KEEP_COMMIT [0] COMMIT, WO. -/
def F.KEEP_COMMIT_COMMIT : Fld := ⟨0xB00034, 0, 1, .wo, 0⟩

/-- The register KEEP_COMMIT (Table 15.11). -/
def R.KEEP_COMMIT : Reg :=
  ⟨0xB00034, .one, [F.KEEP_COMMIT_COMMIT]⟩

/-- KEEP_RESETGEN [31:0] DEVICE, RO (reset: NV). -/
def F.KEEP_RESETGEN_DEVICE : Fld := ⟨0xB00038, 0, 32, .ro, 0⟩

/-- The register KEEP_RESETGEN (Table 15.11). -/
def R.KEEP_RESETGEN : Reg :=
  ⟨0xB00038, .one, [F.KEEP_RESETGEN_DEVICE]⟩

/-- KEEP_CORE_SEL [4:0] CORE, RW. -/
def F.KEEP_CORE_SEL_CORE : Fld := ⟨0xB00040, 0, 5, .rw, 0⟩

/-- The register KEEP_CORE_SEL (Table 15.11). -/
def R.KEEP_CORE_SEL : Reg :=
  ⟨0xB00040, .one, [F.KEEP_CORE_SEL_CORE]⟩

/-- KEEP_CORE_DATA [15:0] RESETGEN, RO. -/
def F.KEEP_CORE_DATA_RESETGEN : Fld := ⟨0xB00044, 0, 16, .ro, 0⟩

/-- KEEP_CORE_DATA [16] CLEAN, RO. -/
def F.KEEP_CORE_DATA_CLEAN : Fld := ⟨0xB00044, 16, 1, .ro, 1⟩

/-- KEEP_CORE_DATA [18:17] DECAY, RO. -/
def F.KEEP_CORE_DATA_DECAY : Fld := ⟨0xB00044, 17, 2, .ro, 0⟩

/-- The register KEEP_CORE_DATA (Table 15.11). -/
def R.KEEP_CORE_DATA : Reg :=
  ⟨0xB00044, .one, [F.KEEP_CORE_DATA_RESETGEN,
    F.KEEP_CORE_DATA_CLEAN,
    F.KEEP_CORE_DATA_DECAY]⟩

/-- KEEP_SVN_SEL [2:0] TYPE, RW. -/
def F.KEEP_SVN_SEL_TYPE : Fld := ⟨0xB00048, 0, 3, .rw, 1⟩

/-- The register KEEP_SVN_SEL (Table 15.11). -/
def R.KEEP_SVN_SEL : Reg :=
  ⟨0xB00048, .one, [F.KEEP_SVN_SEL_TYPE]⟩

/-- KEEP_SVN_DATA [31:0] COUNTER, RO (reset: NV). -/
def F.KEEP_SVN_DATA_COUNTER : Fld := ⟨0xB0004C, 0, 32, .ro, 0⟩

/-- The register KEEP_SVN_DATA (Table 15.11). -/
def R.KEEP_SVN_DATA : Reg :=
  ⟨0xB0004C, .one, [F.KEEP_SVN_DATA_COUNTER]⟩

/-- KEEP_CNT_ATTEST [31:0] COUNT, RO. -/
def F.KEEP_CNT_ATTEST_COUNT : Fld := ⟨0xB00060, 0, 32, .ro, 0⟩

/-- The register KEEP_CNT_ATTEST (Table 15.11). -/
def R.KEEP_CNT_ATTEST : Reg :=
  ⟨0xB00060, .one, [F.KEEP_CNT_ATTEST_COUNT]⟩

/-- KEEP_CNT_QUEUED [31:0] COUNT, RO. -/
def F.KEEP_CNT_QUEUED_COUNT : Fld := ⟨0xB00064, 0, 32, .ro, 0⟩

/-- The register KEEP_CNT_QUEUED (Table 15.11). -/
def R.KEEP_CNT_QUEUED : Reg :=
  ⟨0xB00064, .one, [F.KEEP_CNT_QUEUED_COUNT]⟩

/-- KEEP_CNT_MBREFUSE [31:0] COUNT, RO. -/
def F.KEEP_CNT_MBREFUSE_COUNT : Fld := ⟨0xB00068, 0, 32, .ro, 0⟩

/-- The register KEEP_CNT_MBREFUSE (Table 15.11). -/
def R.KEEP_CNT_MBREFUSE : Reg :=
  ⟨0xB00068, .one, [F.KEEP_CNT_MBREFUSE_COUNT]⟩

/-- KEEP_CNT_RELFAIL [31:0] COUNT, RO. -/
def F.KEEP_CNT_RELFAIL_COUNT : Fld := ⟨0xB0006C, 0, 32, .ro, 0⟩

/-- The register KEEP_CNT_RELFAIL (Table 15.11). -/
def R.KEEP_CNT_RELFAIL : Reg :=
  ⟨0xB0006C, .one, [F.KEEP_CNT_RELFAIL_COUNT]⟩

/-- KEEP_CNT_DECAYFAIL [31:0] COUNT, RO. -/
def F.KEEP_CNT_DECAYFAIL_COUNT : Fld := ⟨0xB00070, 0, 32, .ro, 0⟩

/-- The register KEEP_CNT_DECAYFAIL (Table 15.11). -/
def R.KEEP_CNT_DECAYFAIL : Reg :=
  ⟨0xB00070, .one, [F.KEEP_CNT_DECAYFAIL_COUNT]⟩

/-- KEEP_CNT_CTRL [0] CLEAR, WO. -/
def F.KEEP_CNT_CTRL_CLEAR : Fld := ⟨0xB00080, 0, 1, .wo, 0⟩

/-- KEEP_CNT_CTRL [1] FREEZE, RW. -/
def F.KEEP_CNT_CTRL_FREEZE : Fld := ⟨0xB00080, 1, 1, .rw, 0⟩

/-- The register KEEP_CNT_CTRL (Table 15.11). -/
def R.KEEP_CNT_CTRL : Reg :=
  ⟨0xB00080, .one, [F.KEEP_CNT_CTRL_CLEAR, F.KEEP_CNT_CTRL_FREEZE]⟩

/-- KEEP_MB_DATA [31:0] DATA, RW. -/
def F.KEEP_MB_DATA_DATA : Fld := ⟨0xB01000, 0, 32, .rw, 0⟩

/-- The register KEEP_MB_DATA (Table 15.11). -/
def R.KEEP_MB_DATA : Reg :=
  ⟨0xB01000, .arr 4 1024, [F.KEEP_MB_DATA_DATA]⟩

/-! ### Table 12.11 -/

/-- HK_ID [7:0] CHANNELS, RO. -/
def F.HK_ID_CHANNELS : Fld := ⟨0xC00000, 0, 8, .ro, 0x80⟩

/-- HK_ID [15:8] ENTRIES, RO. -/
def F.HK_ID_ENTRIES : Fld := ⟨0xC00000, 8, 8, .ro, 0x40⟩

/-- The register HK_ID (Table 12.11). -/
def R.HK_ID : Reg :=
  ⟨0xC00000, .one, [F.HK_ID_CHANNELS, F.HK_ID_ENTRIES]⟩

/-- HK_STATUS [0] CFG_INVALID, W1C. -/
def F.HK_STATUS_CFG_INVALID : Fld := ⟨0xC00004, 0, 1, .w1c, 0⟩

/-- HK_STATUS [1] FIELD_TEMP_LOST, RO. -/
def F.HK_STATUS_FIELD_TEMP_LOST : Fld := ⟨0xC00004, 1, 1, .ro, 0⟩

/-- The register HK_STATUS (Table 12.11). -/
def R.HK_STATUS : Reg :=
  ⟨0xC00004, .one, [F.HK_STATUS_CFG_INVALID, F.HK_STATUS_FIELD_TEMP_LOST]⟩

/-- HK_ROUND [15:0] LOOP_A_US, RO. -/
def F.HK_ROUND_LOOP_A_US : Fld := ⟨0xC00008, 0, 16, .ro, 0⟩

/-- HK_ROUND [31:16] LOOP_B_US, RO. -/
def F.HK_ROUND_LOOP_B_US : Fld := ⟨0xC00008, 16, 16, .ro, 0⟩

/-- The register HK_ROUND (Table 12.11). -/
def R.HK_ROUND : Reg :=
  ⟨0xC00008, .one, [F.HK_ROUND_LOOP_A_US, F.HK_ROUND_LOOP_B_US]⟩

/-- HK_ENT_SEL [5:0] ENTRY, RW. -/
def F.HK_ENT_SEL_ENTRY : Fld := ⟨0xC00010, 0, 6, .rw, 0⟩

/-- The register HK_ENT_SEL (Table 12.11). -/
def R.HK_ENT_SEL : Reg :=
  ⟨0xC00010, .one, [F.HK_ENT_SEL_ENTRY]⟩

/-- HK_ENT_DATA [31:0] WORD, RO (reset: NV). -/
def F.HK_ENT_DATA_WORD : Fld := ⟨0xC00014, 0, 32, .ro, 0⟩

/-- The register HK_ENT_DATA (Table 12.11). -/
def R.HK_ENT_DATA : Reg :=
  ⟨0xC00014, .one, [F.HK_ENT_DATA_WORD]⟩

/-- HK_CH_SEL [6:0] CHANNEL, RW. -/
def F.HK_CH_SEL_CHANNEL : Fld := ⟨0xC00020, 0, 7, .rw, 0⟩

/-- The register HK_CH_SEL (Table 12.11). -/
def R.HK_CH_SEL : Reg :=
  ⟨0xC00020, .one, [F.HK_CH_SEL_CHANNEL]⟩

/-- HK_CH_DATA [15:0] VALUE, RO. -/
def F.HK_CH_DATA_VALUE : Fld := ⟨0xC00024, 0, 16, .ro, 0⟩

/-- HK_CH_DATA [27:16] RAW, RO. -/
def F.HK_CH_DATA_RAW : Fld := ⟨0xC00024, 16, 12, .ro, 0⟩

/-- HK_CH_DATA [28] OUT, RO. -/
def F.HK_CH_DATA_OUT : Fld := ⟨0xC00024, 28, 1, .ro, 0⟩

/-- HK_CH_DATA [29] VALID, RO. -/
def F.HK_CH_DATA_VALID : Fld := ⟨0xC00024, 29, 1, .ro, 0⟩

/-- The register HK_CH_DATA (Table 12.11). -/
def R.HK_CH_DATA : Reg :=
  ⟨0xC00024, .one, [F.HK_CH_DATA_VALUE,
    F.HK_CH_DATA_RAW,
    F.HK_CH_DATA_OUT,
    F.HK_CH_DATA_VALID]⟩

/-- HK_WLO [15:0] BOUND, STG. -/
def F.HK_WLO_BOUND : Fld := ⟨0xC00028, 0, 16, .stg, 0x8000⟩

/-- The register HK_WLO (Table 12.11). -/
def R.HK_WLO : Reg :=
  ⟨0xC00028, .one, [F.HK_WLO_BOUND]⟩

/-- HK_WHI [15:0] BOUND, STG. -/
def F.HK_WHI_BOUND : Fld := ⟨0xC0002C, 0, 16, .stg, 0x7fff⟩

/-- The register HK_WHI (Table 12.11). -/
def R.HK_WHI : Reg :=
  ⟨0xC0002C, .one, [F.HK_WHI_BOUND]⟩

/-- HK_HYST [15:0] HYST, STG. -/
def F.HK_HYST_HYST : Fld := ⟨0xC00030, 0, 16, .stg, 0⟩

/-- The register HK_HYST (Table 12.11). -/
def R.HK_HYST : Reg :=
  ⟨0xC00030, .one, [F.HK_HYST_HYST]⟩

/-- HK_COMMIT [0] COMMIT, WO. -/
def F.HK_COMMIT_COMMIT : Fld := ⟨0xC00034, 0, 1, .wo, 0⟩

/-- The register HK_COMMIT (Table 12.11). -/
def R.HK_COMMIT : Reg :=
  ⟨0xC00034, .one, [F.HK_COMMIT_COMMIT]⟩

/-- HK_WIN_STATUS [31:0] LEFT, W1C. -/
def F.HK_WIN_STATUS_LEFT : Fld := ⟨0xC00040, 0, 32, .w1c, 0⟩

/-- The register HK_WIN_STATUS (Table 12.11). -/
def R.HK_WIN_STATUS : Reg :=
  ⟨0xC00040, .arr 4 4, [F.HK_WIN_STATUS_LEFT]⟩

/-- HK_CNT_ROUND [31:0] COUNT, RO. -/
def F.HK_CNT_ROUND_COUNT : Fld := ⟨0xC00060, 0, 32, .ro, 0⟩

/-- The register HK_CNT_ROUND (Table 12.11). -/
def R.HK_CNT_ROUND : Reg :=
  ⟨0xC00060, .one, [F.HK_CNT_ROUND_COUNT]⟩

/-- HK_CNT_WIN [31:0] COUNT, RO. -/
def F.HK_CNT_WIN_COUNT : Fld := ⟨0xC00064, 0, 32, .ro, 0⟩

/-- The register HK_CNT_WIN (Table 12.11). -/
def R.HK_CNT_WIN : Reg :=
  ⟨0xC00064, .one, [F.HK_CNT_WIN_COUNT]⟩

/-- HK_CNT_CTRL [0] CLEAR, WO. -/
def F.HK_CNT_CTRL_CLEAR : Fld := ⟨0xC00068, 0, 1, .wo, 0⟩

/-- HK_CNT_CTRL [1] FREEZE, RW. -/
def F.HK_CNT_CTRL_FREEZE : Fld := ⟨0xC00068, 1, 1, .rw, 0⟩

/-- The register HK_CNT_CTRL (Table 12.11). -/
def R.HK_CNT_CTRL : Reg :=
  ⟨0xC00068, .one, [F.HK_CNT_CTRL_CLEAR, F.HK_CNT_CTRL_FREEZE]⟩

/-- HK_AOSP_CODE01 [31:0] CODES, RW. -/
def F.HK_AOSP_CODE01_CODES : Fld := ⟨0xC00080, 0, 32, .rw, 0⟩

/-- The register HK_AOSP_CODE01 (Table 12.11). -/
def R.HK_AOSP_CODE01 : Reg :=
  ⟨0xC00080, .one, [F.HK_AOSP_CODE01_CODES]⟩

/-- HK_AOSP_CODE23 [31:0] CODES, RW. -/
def F.HK_AOSP_CODE23_CODES : Fld := ⟨0xC00084, 0, 32, .rw, 0⟩

/-- The register HK_AOSP_CODE23 (Table 12.11). -/
def R.HK_AOSP_CODE23 : Reg :=
  ⟨0xC00084, .one, [F.HK_AOSP_CODE23_CODES]⟩

/-- HK_AOSP_SEND [3:0] MASK, WO. -/
def F.HK_AOSP_SEND_MASK : Fld := ⟨0xC00088, 0, 4, .wo, 0⟩

/-- The register HK_AOSP_SEND (Table 12.11). -/
def R.HK_AOSP_SEND : Reg :=
  ⟨0xC00088, .one, [F.HK_AOSP_SEND_MASK]⟩

/-- HK_FADC_RES [31:0] RESULT, RO. -/
def F.HK_FADC_RES_RESULT : Fld := ⟨0xC00100, 0, 32, .ro, 0⟩

/-- The register HK_FADC_RES (Table 12.11). -/
def R.HK_FADC_RES : Reg :=
  ⟨0xC00100, .arr 4 64, [F.HK_FADC_RES_RESULT]⟩

/-! ### Table 11.12 -/

/-- FLD_GW_STATUS [1:0] LINK, RO. -/
def F.FLD_GW_STATUS_LINK : Fld := ⟨0xD00000, 0, 2, .ro, 0⟩

/-- FLD_GW_STATUS [2] FIELD_PRESENT, RO. -/
def F.FLD_GW_STATUS_FIELD_PRESENT : Fld := ⟨0xD00000, 2, 1, .ro, 0⟩

/-- FLD_GW_STATUS [3] PROXY_TIMEOUT, W1C. -/
def F.FLD_GW_STATUS_PROXY_TIMEOUT : Fld := ⟨0xD00000, 3, 1, .w1c, 0⟩

/-- FLD_GW_STATUS [4] FIELD_LOST_SEEN, W1C. -/
def F.FLD_GW_STATUS_FIELD_LOST_SEEN : Fld := ⟨0xD00000, 4, 1, .w1c, 0⟩

/-- FLD_GW_STATUS [5] CFG_INVALID, W1C. -/
def F.FLD_GW_STATUS_CFG_INVALID : Fld := ⟨0xD00000, 5, 1, .w1c, 0⟩

/-- FLD_GW_STATUS [6] WRITE_LOST, W1C. -/
def F.FLD_GW_STATUS_WRITE_LOST : Fld := ⟨0xD00000, 6, 1, .w1c, 0⟩

/-- FLD_GW_STATUS [15:8] FIELD_GEN, RO. -/
def F.FLD_GW_STATUS_FIELD_GEN : Fld := ⟨0xD00000, 8, 8, .ro, 0⟩

/-- The register FLD_GW_STATUS (Table 11.12). -/
def R.FLD_GW_STATUS : Reg :=
  ⟨0xD00000, .one, [F.FLD_GW_STATUS_LINK,
    F.FLD_GW_STATUS_FIELD_PRESENT,
    F.FLD_GW_STATUS_PROXY_TIMEOUT,
    F.FLD_GW_STATUS_FIELD_LOST_SEEN,
    F.FLD_GW_STATUS_CFG_INVALID,
    F.FLD_GW_STATUS_WRITE_LOST,
    F.FLD_GW_STATUS_FIELD_GEN]⟩

/-- FLD_GW_CFG [9:0] FIELD_TO, STG. -/
def F.FLD_GW_CFG_FIELD_TO : Fld := ⟨0xD00004, 0, 10, .stg, 0x14⟩

/-- The register FLD_GW_CFG (Table 11.12). -/
def R.FLD_GW_CFG : Reg :=
  ⟨0xD00004, .one, [F.FLD_GW_CFG_FIELD_TO]⟩

/-- FLD_GW_COMMIT [0] COMMIT, WO. -/
def F.FLD_GW_COMMIT_COMMIT : Fld := ⟨0xD00008, 0, 1, .wo, 0⟩

/-- The register FLD_GW_COMMIT (Table 11.12). -/
def R.FLD_GW_COMMIT : Reg :=
  ⟨0xD00008, .one, [F.FLD_GW_COMMIT_COMMIT]⟩

/-- FLD_GW_CNT_RXDISC [31:0] COUNT, RO. -/
def F.FLD_GW_CNT_RXDISC_COUNT : Fld := ⟨0xD00010, 0, 32, .ro, 0⟩

/-- The register FLD_GW_CNT_RXDISC (Table 11.12). -/
def R.FLD_GW_CNT_RXDISC : Reg :=
  ⟨0xD00010, .one, [F.FLD_GW_CNT_RXDISC_COUNT]⟩

/-- FLD_GW_CNT_RETX [31:0] COUNT, RO. -/
def F.FLD_GW_CNT_RETX_COUNT : Fld := ⟨0xD00014, 0, 32, .ro, 0⟩

/-- The register FLD_GW_CNT_RETX (Table 11.12). -/
def R.FLD_GW_CNT_RETX : Reg :=
  ⟨0xD00014, .one, [F.FLD_GW_CNT_RETX_COUNT]⟩

/-- FLD_GW_CNT_LINKDOWN [31:0] COUNT, RO. -/
def F.FLD_GW_CNT_LINKDOWN_COUNT : Fld := ⟨0xD00018, 0, 32, .ro, 0⟩

/-- The register FLD_GW_CNT_LINKDOWN (Table 11.12). -/
def R.FLD_GW_CNT_LINKDOWN : Reg :=
  ⟨0xD00018, .one, [F.FLD_GW_CNT_LINKDOWN_COUNT]⟩

/-- FLD_GW_CNT_WLOST [31:0] COUNT, RO. -/
def F.FLD_GW_CNT_WLOST_COUNT : Fld := ⟨0xD0001C, 0, 32, .ro, 0⟩

/-- The register FLD_GW_CNT_WLOST (Table 11.12). -/
def R.FLD_GW_CNT_WLOST : Reg :=
  ⟨0xD0001C, .one, [F.FLD_GW_CNT_WLOST_COUNT]⟩

/-- FLD_GW_CNT_CTRL [0] CLEAR, WO. -/
def F.FLD_GW_CNT_CTRL_CLEAR : Fld := ⟨0xD00020, 0, 1, .wo, 0⟩

/-- FLD_GW_CNT_CTRL [1] FREEZE, RW. -/
def F.FLD_GW_CNT_CTRL_FREEZE : Fld := ⟨0xD00020, 1, 1, .rw, 0⟩

/-- The register FLD_GW_CNT_CTRL (Table 11.12). -/
def R.FLD_GW_CNT_CTRL : Reg :=
  ⟨0xD00020, .one, [F.FLD_GW_CNT_CTRL_CLEAR, F.FLD_GW_CNT_CTRL_FREEZE]⟩

/-- FLD_ID [7:0] TRIGGERS, RO. -/
def F.FLD_ID_TRIGGERS : Fld := ⟨0xD10000, 0, 8, .ro, 0x10⟩

/-- FLD_ID [11:8] ENCODERS, RO. -/
def F.FLD_ID_ENCODERS : Fld := ⟨0xD10000, 8, 4, .ro, 4⟩

/-- FLD_ID [15:12] REJECTS, RO. -/
def F.FLD_ID_REJECTS : Fld := ⟨0xD10000, 12, 4, .ro, 8⟩

/-- FLD_ID [23:16] GPOS, RO. -/
def F.FLD_ID_GPOS : Fld := ⟨0xD10000, 16, 8, .ro, 0x10⟩

/-- The register FLD_ID (Table 11.12). -/
def R.FLD_ID : Reg :=
  ⟨0xD10000, .one, [F.FLD_ID_TRIGGERS, F.FLD_ID_ENCODERS, F.FLD_ID_REJECTS, F.FLD_ID_GPOS]⟩

/-- FLD_STATUS [1:0] STATE, RO. -/
def F.FLD_STATUS_STATE : Fld := ⟨0xD10004, 0, 2, .ro, 0⟩

/-- FLD_STATUS [2] NV_VALID, RO (reset: NV). -/
def F.FLD_STATUS_NV_VALID : Fld := ⟨0xD10004, 2, 1, .ro, 1⟩

/-- FLD_STATUS [3] REFUSED_WRITE, W1C. -/
def F.FLD_STATUS_REFUSED_WRITE : Fld := ⟨0xD10004, 3, 1, .w1c, 0⟩

/-- FLD_STATUS [4] LANE_REFUSED, W1C. -/
def F.FLD_STATUS_LANE_REFUSED : Fld := ⟨0xD10004, 4, 1, .w1c, 0⟩

/-- FLD_STATUS [5] ENC_FAULT_SEEN, W1C. -/
def F.FLD_STATUS_ENC_FAULT_SEEN : Fld := ⟨0xD10004, 5, 1, .w1c, 0⟩

/-- FLD_STATUS [6] QFULL_SEEN, W1C. -/
def F.FLD_STATUS_QFULL_SEEN : Fld := ⟨0xD10004, 6, 1, .w1c, 0⟩

/-- FLD_STATUS [7] CFG_INVALID, W1C. -/
def F.FLD_STATUS_CFG_INVALID : Fld := ⟨0xD10004, 7, 1, .w1c, 0⟩

/-- FLD_STATUS [15:8] FIELD_GEN, RO (reset: NV). -/
def F.FLD_STATUS_FIELD_GEN : Fld := ⟨0xD10004, 8, 8, .ro, 0⟩

/-- The register FLD_STATUS (Table 11.12). -/
def R.FLD_STATUS : Reg :=
  ⟨0xD10004, .one, [F.FLD_STATUS_STATE,
    F.FLD_STATUS_NV_VALID,
    F.FLD_STATUS_REFUSED_WRITE,
    F.FLD_STATUS_LANE_REFUSED,
    F.FLD_STATUS_ENC_FAULT_SEEN,
    F.FLD_STATUS_QFULL_SEEN,
    F.FLD_STATUS_CFG_INVALID,
    F.FLD_STATUS_FIELD_GEN]⟩

/-- FLD_RDREQ [15:0] ADDR, WO. -/
def F.FLD_RDREQ_ADDR : Fld := ⟨0xD10008, 0, 16, .wo, 0⟩

/-- FLD_RDREQ [31:16] TAG, WO. -/
def F.FLD_RDREQ_TAG : Fld := ⟨0xD10008, 16, 16, .wo, 0⟩

/-- The register FLD_RDREQ (Table 11.12). -/
def R.FLD_RDREQ : Reg :=
  ⟨0xD10008, .one, [F.FLD_RDREQ_ADDR, F.FLD_RDREQ_TAG]⟩

/-- FLD_POL_SEL [4:0] OUTPUT, RW. -/
def F.FLD_POL_SEL_OUTPUT : Fld := ⟨0xD10010, 0, 5, .rw, 0⟩

/-- The register FLD_POL_SEL (Table 11.12). -/
def R.FLD_POL_SEL : Reg :=
  ⟨0xD10010, .one, [F.FLD_POL_SEL_OUTPUT]⟩

/-- FLD_POL [1:0] ACTION, STG (reset: NV). -/
def F.FLD_POL_ACTION : Fld := ⟨0xD10014, 0, 2, .stg, 0⟩

/-- FLD_POL [2] LEVEL, STG (reset: NV). -/
def F.FLD_POL_LEVEL : Fld := ⟨0xD10014, 2, 1, .stg, 0⟩

/-- The register FLD_POL (Table 11.12). -/
def R.FLD_POL : Reg :=
  ⟨0xD10014, .one, [F.FLD_POL_ACTION, F.FLD_POL_LEVEL]⟩

/-- FLD_HOST_TO [9:0] TO, STG (reset: NV). -/
def F.FLD_HOST_TO_TO : Fld := ⟨0xD10018, 0, 10, .stg, 0x14⟩

/-- The register FLD_HOST_TO (Table 11.12). -/
def R.FLD_HOST_TO : Reg :=
  ⟨0xD10018, .one, [F.FLD_HOST_TO_TO]⟩

/-- FLD_COMMIT [0] COMMIT, WO. -/
def F.FLD_COMMIT_COMMIT : Fld := ⟨0xD1001C, 0, 1, .wo, 0⟩

/-- FLD_COMMIT [1] NV, WO. -/
def F.FLD_COMMIT_NV : Fld := ⟨0xD1001C, 1, 1, .wo, 0⟩

/-- The register FLD_COMMIT (Table 11.12). -/
def R.FLD_COMMIT : Reg :=
  ⟨0xD1001C, .one, [F.FLD_COMMIT_COMMIT, F.FLD_COMMIT_NV]⟩

/-- FLD_TRIG_SEL [3:0] TRIGGER, RW. -/
def F.FLD_TRIG_SEL_TRIGGER : Fld := ⟨0xD10020, 0, 4, .rw, 0⟩

/-- The register FLD_TRIG_SEL (Table 11.12). -/
def R.FLD_TRIG_SEL : Reg :=
  ⟨0xD10020, .one, [F.FLD_TRIG_SEL_TRIGGER]⟩

/-- FLD_TRIG_CFG [7:0] FILTER, RWS. -/
def F.FLD_TRIG_CFG_FILTER : Fld := ⟨0xD10024, 0, 8, .rws, 2⟩

/-- FLD_TRIG_CFG [8] INVERT, RWS. -/
def F.FLD_TRIG_CFG_INVERT : Fld := ⟨0xD10024, 8, 1, .rws, 0⟩

/-- The register FLD_TRIG_CFG (Table 11.12). -/
def R.FLD_TRIG_CFG : Reg :=
  ⟨0xD10024, .one, [F.FLD_TRIG_CFG_FILTER, F.FLD_TRIG_CFG_INVERT]⟩

/-- FLD_TRIG_LEVEL [15:0] LEVEL, RO. -/
def F.FLD_TRIG_LEVEL_LEVEL : Fld := ⟨0xD10028, 0, 16, .ro, 0⟩

/-- The register FLD_TRIG_LEVEL (Table 11.12). -/
def R.FLD_TRIG_LEVEL : Reg :=
  ⟨0xD10028, .one, [F.FLD_TRIG_LEVEL_LEVEL]⟩

/-- FLD_ENC_SEL [1:0] ENCODER, RW. -/
def F.FLD_ENC_SEL_ENCODER : Fld := ⟨0xD10030, 0, 2, .rw, 0⟩

/-- The register FLD_ENC_SEL (Table 11.12). -/
def R.FLD_ENC_SEL : Reg :=
  ⟨0xD10030, .one, [F.FLD_ENC_SEL_ENCODER]⟩

/-- FLD_ENC_CFG [0] MODE, RWS. -/
def F.FLD_ENC_CFG_MODE : Fld := ⟨0xD10034, 0, 1, .rws, 0⟩

/-- FLD_ENC_CFG [1] INVERT, RWS. -/
def F.FLD_ENC_CFG_INVERT : Fld := ⟨0xD10034, 1, 1, .rws, 0⟩

/-- FLD_ENC_CFG [2] TERM, RWS. -/
def F.FLD_ENC_CFG_TERM : Fld := ⟨0xD10034, 2, 1, .rws, 1⟩

/-- FLD_ENC_CFG [3] FAULT_HOLD, RWS. -/
def F.FLD_ENC_CFG_FAULT_HOLD : Fld := ⟨0xD10034, 3, 1, .rws, 1⟩

/-- The register FLD_ENC_CFG (Table 11.12). -/
def R.FLD_ENC_CFG : Reg :=
  ⟨0xD10034, .one, [F.FLD_ENC_CFG_MODE,
    F.FLD_ENC_CFG_INVERT,
    F.FLD_ENC_CFG_TERM,
    F.FLD_ENC_CFG_FAULT_HOLD]⟩

/-- FLD_ENC_POS [31:0] POS, RO. -/
def F.FLD_ENC_POS_POS : Fld := ⟨0xD10038, 0, 32, .ro, 0⟩

/-- The register FLD_ENC_POS (Table 11.12). -/
def R.FLD_ENC_POS : Reg :=
  ⟨0xD10038, .one, [F.FLD_ENC_POS_POS]⟩

/-- FLD_ENC_STATUS [0] FAULT, RO. -/
def F.FLD_ENC_STATUS_FAULT : Fld := ⟨0xD1003C, 0, 1, .ro, 0⟩

/-- FLD_ENC_STATUS [1] FAULT_SEEN, W1C. -/
def F.FLD_ENC_STATUS_FAULT_SEEN : Fld := ⟨0xD1003C, 1, 1, .w1c, 0⟩

/-- FLD_ENC_STATUS [2] WIRE, RO. -/
def F.FLD_ENC_STATUS_WIRE : Fld := ⟨0xD1003C, 2, 1, .ro, 0⟩

/-- The register FLD_ENC_STATUS (Table 11.12). -/
def R.FLD_ENC_STATUS : Reg :=
  ⟨0xD1003C, .one, [F.FLD_ENC_STATUS_FAULT,
    F.FLD_ENC_STATUS_FAULT_SEEN,
    F.FLD_ENC_STATUS_WIRE]⟩

/-- FLD_LANE_SEL [5:0] LANE, RW. -/
def F.FLD_LANE_SEL_LANE : Fld := ⟨0xD10040, 0, 6, .rw, 0⟩

/-- FLD_LANE_SEL [12:8] WORD, RW. -/
def F.FLD_LANE_SEL_WORD : Fld := ⟨0xD10040, 8, 5, .rw, 0⟩

/-- The register FLD_LANE_SEL (Table 11.12). -/
def R.FLD_LANE_SEL : Reg :=
  ⟨0xD10040, .one, [F.FLD_LANE_SEL_LANE, F.FLD_LANE_SEL_WORD]⟩

/-- FLD_LANE_DATA [31:0] DATA, RWS. -/
def F.FLD_LANE_DATA_DATA : Fld := ⟨0xD10044, 0, 32, .rws, 0⟩

/-- The register FLD_LANE_DATA (Table 11.12). -/
def R.FLD_LANE_DATA : Reg :=
  ⟨0xD10044, .one, [F.FLD_LANE_DATA_DATA]⟩

/-- FLD_LANE_CTRL [0] ENABLE, WO. -/
def F.FLD_LANE_CTRL_ENABLE : Fld := ⟨0xD10048, 0, 1, .wo, 0⟩

/-- FLD_LANE_CTRL [1] DISABLE, WO. -/
def F.FLD_LANE_CTRL_DISABLE : Fld := ⟨0xD10048, 1, 1, .wo, 0⟩

/-- The register FLD_LANE_CTRL (Table 11.12). -/
def R.FLD_LANE_CTRL : Reg :=
  ⟨0xD10048, .one, [F.FLD_LANE_CTRL_ENABLE, F.FLD_LANE_CTRL_DISABLE]⟩

/-- FLD_LANE_STATUS [1:0] STATE, RO. -/
def F.FLD_LANE_STATUS_STATE : Fld := ⟨0xD1004C, 0, 2, .ro, 0⟩

/-- FLD_LANE_STATUS [5:2] REASON, RO. -/
def F.FLD_LANE_STATUS_REASON : Fld := ⟨0xD1004C, 2, 4, .ro, 0⟩

/-- FLD_LANE_STATUS [8:6] OUTPUT, RO. -/
def F.FLD_LANE_STATUS_OUTPUT : Fld := ⟨0xD1004C, 6, 3, .ro, 0⟩

/-- FLD_LANE_STATUS [31:16] ITEMS, RO. -/
def F.FLD_LANE_STATUS_ITEMS : Fld := ⟨0xD1004C, 16, 16, .ro, 0⟩

/-- The register FLD_LANE_STATUS (Table 11.12). -/
def R.FLD_LANE_STATUS : Reg :=
  ⟨0xD1004C, .one, [F.FLD_LANE_STATUS_STATE,
    F.FLD_LANE_STATUS_REASON,
    F.FLD_LANE_STATUS_OUTPUT,
    F.FLD_LANE_STATUS_ITEMS]⟩

/-- FLD_REJ_SEL [2:0] OUTPUT, RW. -/
def F.FLD_REJ_SEL_OUTPUT : Fld := ⟨0xD10050, 0, 3, .rw, 0⟩

/-- The register FLD_REJ_SEL (Table 11.12). -/
def R.FLD_REJ_SEL : Reg :=
  ⟨0xD10050, .one, [F.FLD_REJ_SEL_OUTPUT]⟩

/-- FLD_REJ_CFG [7:0] LEAD_COUNTS, RWS. -/
def F.FLD_REJ_CFG_LEAD_COUNTS : Fld := ⟨0xD10054, 0, 8, .rws, 0⟩

/-- FLD_REJ_CFG [23:8] MAX_ON_US, RWS. -/
def F.FLD_REJ_CFG_MAX_ON_US : Fld := ⟨0xD10054, 8, 16, .rws, 0⟩

/-- The register FLD_REJ_CFG (Table 11.12). -/
def R.FLD_REJ_CFG : Reg :=
  ⟨0xD10054, .one, [F.FLD_REJ_CFG_LEAD_COUNTS, F.FLD_REJ_CFG_MAX_ON_US]⟩

/-- FLD_REJ_STATUS [0] ON, RO. -/
def F.FLD_REJ_STATUS_ON : Fld := ⟨0xD10058, 0, 1, .ro, 0⟩

/-- FLD_REJ_STATUS [12:1] QUEUE, RO. -/
def F.FLD_REJ_STATUS_QUEUE : Fld := ⟨0xD10058, 1, 12, .ro, 0⟩

/-- FLD_REJ_STATUS [27:16] PEAK, RO. -/
def F.FLD_REJ_STATUS_PEAK : Fld := ⟨0xD10058, 16, 12, .ro, 0⟩

/-- The register FLD_REJ_STATUS (Table 11.12). -/
def R.FLD_REJ_STATUS : Reg :=
  ⟨0xD10058, .one, [F.FLD_REJ_STATUS_ON,
    F.FLD_REJ_STATUS_QUEUE,
    F.FLD_REJ_STATUS_PEAK]⟩

/-- FLD_GPO_SRC [31:0] SRC, STG. -/
def F.FLD_GPO_SRC_SRC : Fld := ⟨0xD10060, 0, 32, .stg, 0⟩

/-- The register FLD_GPO_SRC (Table 11.12). -/
def R.FLD_GPO_SRC : Reg :=
  ⟨0xD10060, .one, [F.FLD_GPO_SRC_SRC]⟩

/-- FLD_GPO_LEVEL [15:0] LEVEL, RO. -/
def F.FLD_GPO_LEVEL_LEVEL : Fld := ⟨0xD10064, 0, 16, .ro, 0⟩

/-- The register FLD_GPO_LEVEL (Table 11.12). -/
def R.FLD_GPO_LEVEL : Reg :=
  ⟨0xD10064, .one, [F.FLD_GPO_LEVEL_LEVEL]⟩

/-- FLD_VT_SEL [11:0] SLOT, RW. -/
def F.FLD_VT_SEL_SLOT : Fld := ⟨0xD10070, 0, 12, .rw, 0⟩

/-- The register FLD_VT_SEL (Table 11.12). -/
def R.FLD_VT_SEL : Reg :=
  ⟨0xD10070, .one, [F.FLD_VT_SEL_SLOT]⟩

/-- FLD_VT_DATA [15:0] WORD, RO. -/
def F.FLD_VT_DATA_WORD : Fld := ⟨0xD10074, 0, 16, .ro, 0⟩

/-- The register FLD_VT_DATA (Table 11.12). -/
def R.FLD_VT_DATA : Reg :=
  ⟨0xD10074, .one, [F.FLD_VT_DATA_WORD]⟩

/-- FLD_CNT_ITEM [31:0] COUNT, RO. -/
def F.FLD_CNT_ITEM_COUNT : Fld := ⟨0xD10080, 0, 32, .ro, 0⟩

/-- The register FLD_CNT_ITEM (Table 11.12). -/
def R.FLD_CNT_ITEM : Reg :=
  ⟨0xD10080, .one, [F.FLD_CNT_ITEM_COUNT]⟩

/-- FLD_CNT_LATE [31:0] COUNT, RO. -/
def F.FLD_CNT_LATE_COUNT : Fld := ⟨0xD10084, 0, 32, .ro, 0⟩

/-- The register FLD_CNT_LATE (Table 11.12). -/
def R.FLD_CNT_LATE : Reg :=
  ⟨0xD10084, .one, [F.FLD_CNT_LATE_COUNT]⟩

/-- FLD_CNT_UNKNOWN [31:0] COUNT, RO. -/
def F.FLD_CNT_UNKNOWN_COUNT : Fld := ⟨0xD10088, 0, 32, .ro, 0⟩

/-- The register FLD_CNT_UNKNOWN (Table 11.12). -/
def R.FLD_CNT_UNKNOWN : Reg :=
  ⟨0xD10088, .one, [F.FLD_CNT_UNKNOWN_COUNT]⟩

/-- FLD_CNT_WITHHELD [31:0] COUNT, RO. -/
def F.FLD_CNT_WITHHELD_COUNT : Fld := ⟨0xD1008C, 0, 32, .ro, 0⟩

/-- The register FLD_CNT_WITHHELD (Table 11.12). -/
def R.FLD_CNT_WITHHELD : Reg :=
  ⟨0xD1008C, .one, [F.FLD_CNT_WITHHELD_COUNT]⟩

/-- FLD_CNT_QFULL [31:0] COUNT, RO. -/
def F.FLD_CNT_QFULL_COUNT : Fld := ⟨0xD10090, 0, 32, .ro, 0⟩

/-- The register FLD_CNT_QFULL (Table 11.12). -/
def R.FLD_CNT_QFULL : Reg :=
  ⟨0xD10090, .one, [F.FLD_CNT_QFULL_COUNT]⟩

/-- FLD_CNT_NOREC [31:0] COUNT, RO. -/
def F.FLD_CNT_NOREC_COUNT : Fld := ⟨0xD10094, 0, 32, .ro, 0⟩

/-- The register FLD_CNT_NOREC (Table 11.12). -/
def R.FLD_CNT_NOREC : Reg :=
  ⟨0xD10094, .one, [F.FLD_CNT_NOREC_COUNT]⟩

/-- FLD_CNT_ENCERR [31:0] COUNT, RO. -/
def F.FLD_CNT_ENCERR_COUNT : Fld := ⟨0xD10098, 0, 32, .ro, 0⟩

/-- The register FLD_CNT_ENCERR (Table 11.12). -/
def R.FLD_CNT_ENCERR : Reg :=
  ⟨0xD10098, .one, [F.FLD_CNT_ENCERR_COUNT]⟩

/-- FLD_CNT_VTOVR [31:0] COUNT, RO. -/
def F.FLD_CNT_VTOVR_COUNT : Fld := ⟨0xD1009C, 0, 32, .ro, 0⟩

/-- The register FLD_CNT_VTOVR (Table 11.12). -/
def R.FLD_CNT_VTOVR : Reg :=
  ⟨0xD1009C, .one, [F.FLD_CNT_VTOVR_COUNT]⟩

/-- FLD_CNT_ACKBAD [31:0] COUNT, RO. -/
def F.FLD_CNT_ACKBAD_COUNT : Fld := ⟨0xD100A0, 0, 32, .ro, 0⟩

/-- The register FLD_CNT_ACKBAD (Table 11.12). -/
def R.FLD_CNT_ACKBAD : Reg :=
  ⟨0xD100A0, .one, [F.FLD_CNT_ACKBAD_COUNT]⟩

/-- FLD_CNT_RXDISC [31:0] COUNT, RO. -/
def F.FLD_CNT_RXDISC_COUNT : Fld := ⟨0xD100A4, 0, 32, .ro, 0⟩

/-- The register FLD_CNT_RXDISC (Table 11.12). -/
def R.FLD_CNT_RXDISC : Reg :=
  ⟨0xD100A4, .one, [F.FLD_CNT_RXDISC_COUNT]⟩

/-- FLD_CNT_RETX [31:0] COUNT, RO. -/
def F.FLD_CNT_RETX_COUNT : Fld := ⟨0xD100A8, 0, 32, .ro, 0⟩

/-- The register FLD_CNT_RETX (Table 11.12). -/
def R.FLD_CNT_RETX : Reg :=
  ⟨0xD100A8, .one, [F.FLD_CNT_RETX_COUNT]⟩

/-- FLD_CNT_CTRL [0] CLEAR, WO. -/
def F.FLD_CNT_CTRL_CLEAR : Fld := ⟨0xD100B0, 0, 1, .wo, 0⟩

/-- FLD_CNT_CTRL [1] FREEZE, RW. -/
def F.FLD_CNT_CTRL_FREEZE : Fld := ⟨0xD100B0, 1, 1, .rw, 0⟩

/-- The register FLD_CNT_CTRL (Table 11.12). -/
def R.FLD_CNT_CTRL : Reg :=
  ⟨0xD100B0, .one, [F.FLD_CNT_CTRL_CLEAR, F.FLD_CNT_CTRL_FREEZE]⟩

/-! ### Table 12.11 -/

/-- FADC_ID [4:0] INPUTS, RO. -/
def F.FADC_ID_INPUTS : Fld := ⟨0xD11000, 0, 5, .ro, 0x10⟩

/-- FADC_ID [14:8] ENTRIES, RO. -/
def F.FADC_ID_ENTRIES : Fld := ⟨0xD11000, 8, 7, .ro, 0x40⟩

/-- The register FADC_ID (Table 12.11). -/
def R.FADC_ID : Reg :=
  ⟨0xD11000, .one, [F.FADC_ID_INPUTS, F.FADC_ID_ENTRIES]⟩

/-- FADC_STATUS [1:0] STATE, RO. -/
def F.FADC_STATUS_STATE : Fld := ⟨0xD11004, 0, 2, .ro, 0⟩

/-- FADC_STATUS [2] REFUSED_WRITE, W1C. -/
def F.FADC_STATUS_REFUSED_WRITE : Fld := ⟨0xD11004, 2, 1, .w1c, 0⟩

/-- FADC_STATUS [3] START_REFUSED, W1C. -/
def F.FADC_STATUS_START_REFUSED : Fld := ⟨0xD11004, 3, 1, .w1c, 0⟩

/-- FADC_STATUS [4] CAL_FAIL, W1C. -/
def F.FADC_STATUS_CAL_FAIL : Fld := ⟨0xD11004, 4, 1, .w1c, 0⟩

/-- FADC_STATUS [5] CFG_INVALID, W1C. -/
def F.FADC_STATUS_CFG_INVALID : Fld := ⟨0xD11004, 5, 1, .w1c, 0⟩

/-- FADC_STATUS [6] SAT_SEEN, W1C. -/
def F.FADC_STATUS_SAT_SEEN : Fld := ⟨0xD11004, 6, 1, .w1c, 0⟩

/-- FADC_STATUS [7] NV_BUSY, RO. -/
def F.FADC_STATUS_NV_BUSY : Fld := ⟨0xD11004, 7, 1, .ro, 0⟩

/-- FADC_STATUS [11:8] REASON, RO. -/
def F.FADC_STATUS_REASON : Fld := ⟨0xD11004, 8, 4, .ro, 0⟩

/-- The register FADC_STATUS (Table 12.11). -/
def R.FADC_STATUS : Reg :=
  ⟨0xD11004, .one, [F.FADC_STATUS_STATE,
    F.FADC_STATUS_REFUSED_WRITE,
    F.FADC_STATUS_START_REFUSED,
    F.FADC_STATUS_CAL_FAIL,
    F.FADC_STATUS_CFG_INVALID,
    F.FADC_STATUS_SAT_SEEN,
    F.FADC_STATUS_NV_BUSY,
    F.FADC_STATUS_REASON]⟩

/-- FADC_CTRL [0] START, WO. -/
def F.FADC_CTRL_START : Fld := ⟨0xD11008, 0, 1, .wo, 0⟩

/-- FADC_CTRL [1] STOP, WO. -/
def F.FADC_CTRL_STOP : Fld := ⟨0xD11008, 1, 1, .wo, 0⟩

/-- FADC_CTRL [2] CAL, WO. -/
def F.FADC_CTRL_CAL : Fld := ⟨0xD11008, 2, 1, .wo, 0⟩

/-- FADC_CTRL [3] CAL_STORE, WO. -/
def F.FADC_CTRL_CAL_STORE : Fld := ⟨0xD11008, 3, 1, .wo, 0⟩

/-- The register FADC_CTRL (Table 12.11). -/
def R.FADC_CTRL : Reg :=
  ⟨0xD11008, .one, [F.FADC_CTRL_START,
    F.FADC_CTRL_STOP,
    F.FADC_CTRL_CAL,
    F.FADC_CTRL_CAL_STORE]⟩

/-- FADC_CFG [0] MODE, RWS. -/
def F.FADC_CFG_MODE : Fld := ⟨0xD1100C, 0, 1, .rws, 0⟩

/-- FADC_CFG [13:8] SPLIT, RWS. -/
def F.FADC_CFG_SPLIT : Fld := ⟨0xD1100C, 8, 6, .rws, 0x20⟩

/-- The register FADC_CFG (Table 12.11). -/
def R.FADC_CFG : Reg :=
  ⟨0xD1100C, .one, [F.FADC_CFG_MODE, F.FADC_CFG_SPLIT]⟩

/-- FADC_COMMIT [0] COMMIT, WO. -/
def F.FADC_COMMIT_COMMIT : Fld := ⟨0xD11010, 0, 1, .wo, 0⟩

/-- The register FADC_COMMIT (Table 12.11). -/
def R.FADC_COMMIT : Reg :=
  ⟨0xD11010, .one, [F.FADC_COMMIT_COMMIT]⟩

/-- FADC_LOOP [15:0] LOOP_A, RO. -/
def F.FADC_LOOP_LOOP_A : Fld := ⟨0xD11014, 0, 16, .ro, 0⟩

/-- FADC_LOOP [31:16] LOOP_B, RO. -/
def F.FADC_LOOP_LOOP_B : Fld := ⟨0xD11014, 16, 16, .ro, 0⟩

/-- The register FADC_LOOP (Table 12.11). -/
def R.FADC_LOOP : Reg :=
  ⟨0xD11014, .one, [F.FADC_LOOP_LOOP_A, F.FADC_LOOP_LOOP_B]⟩

/-- FADC_WIN_STATUS [31:0] LEFT, W1C. -/
def F.FADC_WIN_STATUS_LEFT : Fld := ⟨0xD11018, 0, 32, .w1c, 0⟩

/-- The register FADC_WIN_STATUS (Table 12.11). -/
def R.FADC_WIN_STATUS : Reg :=
  ⟨0xD11018, .arr 4 2, [F.FADC_WIN_STATUS_LEFT]⟩

/-- FADC_CALF_SEL [0] CONV, RW. -/
def F.FADC_CALF_SEL_CONV : Fld := ⟨0xD11020, 0, 1, .rw, 0⟩

/-- FADC_CALF_SEL [6:4] GAIN, RW. -/
def F.FADC_CALF_SEL_GAIN : Fld := ⟨0xD11020, 4, 3, .rw, 0⟩

/-- The register FADC_CALF_SEL (Table 12.11). -/
def R.FADC_CALF_SEL : Reg :=
  ⟨0xD11020, .one, [F.FADC_CALF_SEL_CONV, F.FADC_CALF_SEL_GAIN]⟩

/-- FADC_CALF_OFS [19:0] OFFSET, RWS (reset: NV). -/
def F.FADC_CALF_OFS_OFFSET : Fld := ⟨0xD11024, 0, 20, .rws, 0⟩

/-- The register FADC_CALF_OFS (Table 12.11). -/
def R.FADC_CALF_OFS : Reg :=
  ⟨0xD11024, .one, [F.FADC_CALF_OFS_OFFSET]⟩

/-- FADC_CALF_GAIN [23:0] GAIN, RWS (reset: NV). -/
def F.FADC_CALF_GAIN_GAIN : Fld := ⟨0xD11028, 0, 24, .rws, 0x400000⟩

/-- The register FADC_CALF_GAIN (Table 12.11). -/
def R.FADC_CALF_GAIN : Reg :=
  ⟨0xD11028, .one, [F.FADC_CALF_GAIN_GAIN]⟩

/-- FADC_CNT_SAT [31:0] COUNT, RO. -/
def F.FADC_CNT_SAT_COUNT : Fld := ⟨0xD11030, 0, 32, .ro, 0⟩

/-- The register FADC_CNT_SAT (Table 12.11). -/
def R.FADC_CNT_SAT : Reg :=
  ⟨0xD11030, .one, [F.FADC_CNT_SAT_COUNT]⟩

/-- FADC_CNT_WIN [31:0] COUNT, RO. -/
def F.FADC_CNT_WIN_COUNT : Fld := ⟨0xD11034, 0, 32, .ro, 0⟩

/-- The register FADC_CNT_WIN (Table 12.11). -/
def R.FADC_CNT_WIN : Reg :=
  ⟨0xD11034, .one, [F.FADC_CNT_WIN_COUNT]⟩

/-- FADC_CNT_RPTSKIP [31:0] COUNT, RO. -/
def F.FADC_CNT_RPTSKIP_COUNT : Fld := ⟨0xD11038, 0, 32, .ro, 0⟩

/-- The register FADC_CNT_RPTSKIP (Table 12.11). -/
def R.FADC_CNT_RPTSKIP : Reg :=
  ⟨0xD11038, .one, [F.FADC_CNT_RPTSKIP_COUNT]⟩

/-- FADC_CNT_CTRL [0] CLEAR, WO. -/
def F.FADC_CNT_CTRL_CLEAR : Fld := ⟨0xD11040, 0, 1, .wo, 0⟩

/-- FADC_CNT_CTRL [1] FREEZE, RW. -/
def F.FADC_CNT_CTRL_FREEZE : Fld := ⟨0xD11040, 1, 1, .rw, 0⟩

/-- The register FADC_CNT_CTRL (Table 12.11). -/
def R.FADC_CNT_CTRL : Reg :=
  ⟨0xD11040, .one, [F.FADC_CNT_CTRL_CLEAR, F.FADC_CNT_CTRL_FREEZE]⟩

/-- FADC_ENT_CTL [31:0] CTL, RWS. -/
def F.FADC_ENT_CTL_CTL : Fld := ⟨0xD11100, 0, 32, .rws, 0⟩

/-- The register FADC_ENT_CTL (Table 12.11). -/
def R.FADC_ENT_CTL : Reg :=
  ⟨0xD11100, .arr 16 64, [F.FADC_ENT_CTL_CTL]⟩

/-- FADC_ENT_WLO [17:0] BOUND, STG. -/
def F.FADC_ENT_WLO_BOUND : Fld := ⟨0xD11104, 0, 18, .stg, 0x20000⟩

/-- The register FADC_ENT_WLO (Table 12.11). -/
def R.FADC_ENT_WLO : Reg :=
  ⟨0xD11104, .arr 16 64, [F.FADC_ENT_WLO_BOUND]⟩

/-- FADC_ENT_WHI [17:0] BOUND, STG. -/
def F.FADC_ENT_WHI_BOUND : Fld := ⟨0xD11108, 0, 18, .stg, 0x1ffff⟩

/-- The register FADC_ENT_WHI (Table 12.11). -/
def R.FADC_ENT_WHI : Reg :=
  ⟨0xD11108, .arr 16 64, [F.FADC_ENT_WHI_BOUND]⟩

/-- FADC_ENT_HYST [15:0] HYST, STG. -/
def F.FADC_ENT_HYST_HYST : Fld := ⟨0xD1110C, 0, 16, .stg, 0⟩

/-- The register FADC_ENT_HYST (Table 12.11). -/
def R.FADC_ENT_HYST : Reg :=
  ⟨0xD1110C, .arr 16 64, [F.FADC_ENT_HYST_HYST]⟩

/-- FADC_RES [17:0] VALUE, RO. -/
def F.FADC_RES_VALUE : Fld := ⟨0xD11800, 0, 18, .ro, 0⟩

/-- FADC_RES [18] OUT, RO. -/
def F.FADC_RES_OUT : Fld := ⟨0xD11800, 18, 1, .ro, 0⟩

/-- FADC_RES [19] SAT, RO. -/
def F.FADC_RES_SAT : Fld := ⟨0xD11800, 19, 1, .ro, 0⟩

/-- FADC_RES [20] VALID, RO. -/
def F.FADC_RES_VALID : Fld := ⟨0xD11800, 20, 1, .ro, 0⟩

/-- FADC_RES [31:24] LOOP, RO. -/
def F.FADC_RES_LOOP : Fld := ⟨0xD11800, 24, 8, .ro, 0⟩

/-- The register FADC_RES (Table 12.11). -/
def R.FADC_RES : Reg :=
  ⟨0xD11800, .arr 4 64, [F.FADC_RES_VALUE,
    F.FADC_RES_OUT,
    F.FADC_RES_SAT,
    F.FADC_RES_VALID,
    F.FADC_RES_LOOP]⟩

/-- FDAC_ID [2:0] OUTPUTS, RO. -/
def F.FDAC_ID_OUTPUTS : Fld := ⟨0xD12000, 0, 3, .ro, 4⟩

/-- The register FDAC_ID (Table 12.11). -/
def R.FDAC_ID : Reg :=
  ⟨0xD12000, .one, [F.FDAC_ID_OUTPUTS]⟩

/-- FDAC_STATUS [0] CFG_INVALID, W1C. -/
def F.FDAC_STATUS_CFG_INVALID : Fld := ⟨0xD12004, 0, 1, .w1c, 0⟩

/-- FDAC_STATUS [1] OPEN_LOOP_SEEN, W1C. -/
def F.FDAC_STATUS_OPEN_LOOP_SEEN : Fld := ⟨0xD12004, 1, 1, .w1c, 0⟩

/-- FDAC_STATUS [2] NV_BUSY, RO. -/
def F.FDAC_STATUS_NV_BUSY : Fld := ⟨0xD12004, 2, 1, .ro, 0⟩

/-- The register FDAC_STATUS (Table 12.11). -/
def R.FDAC_STATUS : Reg :=
  ⟨0xD12004, .one, [F.FDAC_STATUS_CFG_INVALID,
    F.FDAC_STATUS_OPEN_LOOP_SEEN,
    F.FDAC_STATUS_NV_BUSY]⟩

/-- FDAC_SEL [1:0] OUTPUT, RW. -/
def F.FDAC_SEL_OUTPUT : Fld := ⟨0xD12008, 0, 2, .rw, 0⟩

/-- The register FDAC_SEL (Table 12.11). -/
def R.FDAC_SEL : Reg :=
  ⟨0xD12008, .one, [F.FDAC_SEL_OUTPUT]⟩

/-- FDAC_CFG [2:0] SPAN, STG (reset: NV). -/
def F.FDAC_CFG_SPAN : Fld := ⟨0xD1200C, 0, 3, .stg, 7⟩

/-- FDAC_CFG [3] DEGLITCH, STG (reset: NV). -/
def F.FDAC_CFG_DEGLITCH : Fld := ⟨0xD1200C, 3, 1, .stg, 1⟩

/-- The register FDAC_CFG (Table 12.11). -/
def R.FDAC_CFG : Reg :=
  ⟨0xD1200C, .one, [F.FDAC_CFG_SPAN, F.FDAC_CFG_DEGLITCH]⟩

/-- FDAC_POL [1:0] ACTION, STG (reset: NV). -/
def F.FDAC_POL_ACTION : Fld := ⟨0xD12010, 0, 2, .stg, 0⟩

/-- FDAC_POL [31:16] CODE, STG (reset: NV). -/
def F.FDAC_POL_CODE : Fld := ⟨0xD12010, 16, 16, .stg, 0⟩

/-- The register FDAC_POL (Table 12.11). -/
def R.FDAC_POL : Reg :=
  ⟨0xD12010, .one, [F.FDAC_POL_ACTION, F.FDAC_POL_CODE]⟩

/-- FDAC_COMMIT [0] COMMIT, WO. -/
def F.FDAC_COMMIT_COMMIT : Fld := ⟨0xD12014, 0, 1, .wo, 0⟩

/-- FDAC_COMMIT [1] NV, WO. -/
def F.FDAC_COMMIT_NV : Fld := ⟨0xD12014, 1, 1, .wo, 0⟩

/-- The register FDAC_COMMIT (Table 12.11). -/
def R.FDAC_COMMIT : Reg :=
  ⟨0xD12014, .one, [F.FDAC_COMMIT_COMMIT, F.FDAC_COMMIT_NV]⟩

/-- FDAC_SET [15:0] CODE, WO. -/
def F.FDAC_SET_CODE : Fld := ⟨0xD12018, 0, 16, .wo, 0⟩

/-- The register FDAC_SET (Table 12.11). -/
def R.FDAC_SET : Reg :=
  ⟨0xD12018, .one, [F.FDAC_SET_CODE]⟩

/-- FDAC_OUT [15:0] CODE, RO. -/
def F.FDAC_OUT_CODE : Fld := ⟨0xD1201C, 0, 16, .ro, 0⟩

/-- FDAC_OUT [18:16] STATE, RO. -/
def F.FDAC_OUT_STATE : Fld := ⟨0xD1201C, 16, 3, .ro, 0⟩

/-- FDAC_OUT [19] OPEN_LOOP, RO. -/
def F.FDAC_OUT_OPEN_LOOP : Fld := ⟨0xD1201C, 19, 1, .ro, 0⟩

/-- The register FDAC_OUT (Table 12.11). -/
def R.FDAC_OUT : Reg :=
  ⟨0xD1201C, .one, [F.FDAC_OUT_CODE, F.FDAC_OUT_STATE, F.FDAC_OUT_OPEN_LOOP]⟩

/-- FDAC_CNT_COALESCE [31:0] COUNT, RO. -/
def F.FDAC_CNT_COALESCE_COUNT : Fld := ⟨0xD12020, 0, 32, .ro, 0⟩

/-- The register FDAC_CNT_COALESCE (Table 12.11). -/
def R.FDAC_CNT_COALESCE : Reg :=
  ⟨0xD12020, .one, [F.FDAC_CNT_COALESCE_COUNT]⟩

/-- FDAC_CNT_OPENLOOP [31:0] COUNT, RO. -/
def F.FDAC_CNT_OPENLOOP_COUNT : Fld := ⟨0xD12024, 0, 32, .ro, 0⟩

/-- The register FDAC_CNT_OPENLOOP (Table 12.11). -/
def R.FDAC_CNT_OPENLOOP : Reg :=
  ⟨0xD12024, .one, [F.FDAC_CNT_OPENLOOP_COUNT]⟩

/-- FDAC_CNT_CTRL [0] CLEAR, WO. -/
def F.FDAC_CNT_CTRL_CLEAR : Fld := ⟨0xD12030, 0, 1, .wo, 0⟩

/-- FDAC_CNT_CTRL [1] FREEZE, RW. -/
def F.FDAC_CNT_CTRL_FREEZE : Fld := ⟨0xD12030, 1, 1, .rw, 0⟩

/-- The register FDAC_CNT_CTRL (Table 12.11). -/
def R.FDAC_CNT_CTRL : Reg :=
  ⟨0xD12030, .one, [F.FDAC_CNT_CTRL_CLEAR, F.FDAC_CNT_CTRL_FREEZE]⟩

/-! ### Table 19.6 -/

/-- HIF_VF_ID [5:0] VF, RO (reset: Per instance). -/
def F.HIF_VF_ID_VF : Fld := ⟨0x10000000, 0, 6, .ro, 0⟩

/-- HIF_VF_ID [15:8] RINGS, RO. -/
def F.HIF_VF_ID_RINGS : Fld := ⟨0x10000000, 8, 8, .ro, 8⟩

/-- HIF_VF_ID [23:16] VECTORS, RO. -/
def F.HIF_VF_ID_VECTORS : Fld := ⟨0x10000000, 16, 8, .ro, 0x30⟩

/-- The register HIF_VF_ID (Table 19.6). -/
def R.HIF_VF_ID : Reg :=
  ⟨0x10000000, .one, [F.HIF_VF_ID_VF, F.HIF_VF_ID_RINGS, F.HIF_VF_ID_VECTORS]⟩

/-! ### The counters, each with the FREEZE field that holds it (R61) -/

/-- The counter MGT_CNT_SESSION. -/
def C.MGT_CNT_SESSION : Ctr := ⟨F.MGT_CNT_SESSION_COUNT, F.MGT_CNT_CTRL_FREEZE⟩

/-- The counter MGT_CNT_AUTHFAIL. -/
def C.MGT_CNT_AUTHFAIL : Ctr := ⟨F.MGT_CNT_AUTHFAIL_COUNT, F.MGT_CNT_CTRL_FREEZE⟩

/-- The counter MGT_CNT_EVLOST. -/
def C.MGT_CNT_EVLOST : Ctr := ⟨F.MGT_CNT_EVLOST_COUNT, F.MGT_CNT_CTRL_FREEZE⟩

/-- The counter MGT_CNT_MSGBAD. -/
def C.MGT_CNT_MSGBAD : Ctr := ⟨F.MGT_CNT_MSGBAD_COUNT, F.MGT_CNT_CTRL_FREEZE⟩

/-- The counter GLB_THM_CNT_L1. -/
def C.GLB_THM_CNT_L1 : Ctr := ⟨F.GLB_THM_CNT_L1_COUNT, F.GLB_THM_CNT_CTRL_FREEZE⟩

/-- The counter GLB_THM_CNT_L2. -/
def C.GLB_THM_CNT_L2 : Ctr := ⟨F.GLB_THM_CNT_L2_COUNT, F.GLB_THM_CNT_CTRL_FREEZE⟩

/-- The counter GLB_THM_CNT_L3. -/
def C.GLB_THM_CNT_L3 : Ctr := ⟨F.GLB_THM_CNT_L3_COUNT, F.GLB_THM_CNT_CTRL_FREEZE⟩

/-- The counter GLB_THM_CNT_GUARD. -/
def C.GLB_THM_CNT_GUARD : Ctr := ⟨F.GLB_THM_CNT_GUARD_COUNT, F.GLB_THM_CNT_CTRL_FREEZE⟩

/-- The counter CORE_CNT_SLOT_LANE. -/
def C.CORE_CNT_SLOT_LANE : Ctr := ⟨F.CORE_CNT_SLOT_LANE_COUNT, F.CORE_CNT_CTRL_FREEZE⟩

/-- The counter CORE_CNT_SLOT_IDLE. -/
def C.CORE_CNT_SLOT_IDLE : Ctr := ⟨F.CORE_CNT_SLOT_IDLE_COUNT, F.CORE_CNT_CTRL_FREEZE⟩

/-- The counter CORE_CNT_GLADE. -/
def C.CORE_CNT_GLADE : Ctr := ⟨F.CORE_CNT_GLADE_COUNT, F.CORE_CNT_CTRL_FREEZE⟩

/-- The counter CORE_CNT_SCRROW. -/
def C.CORE_CNT_SCRROW : Ctr := ⟨F.CORE_CNT_SCRROW_COUNT, F.CORE_CNT_CTRL_FREEZE⟩

/-- The counter CORE_CNT_SCRSTALE. -/
def C.CORE_CNT_SCRSTALE : Ctr := ⟨F.CORE_CNT_SCRSTALE_COUNT, F.CORE_CNT_CTRL_FREEZE⟩

/-- The counter CORE_CNT_STGEXC. -/
def C.CORE_CNT_STGEXC : Ctr := ⟨F.CORE_CNT_STGEXC_COUNT, F.CORE_CNT_CTRL_FREEZE⟩

/-- The counter CORE_CNT_SRAM_CE. -/
def C.CORE_CNT_SRAM_CE : Ctr := ⟨F.CORE_CNT_SRAM_CE_COUNT, F.CORE_CNT_CTRL_FREEZE⟩

/-- The counter CORE_CNT_SRAM_UE. -/
def C.CORE_CNT_SRAM_UE : Ctr := ⟨F.CORE_CNT_SRAM_UE_COUNT, F.CORE_CNT_CTRL_FREEZE⟩

/-- The counter CORE_CNT_VUSAT. -/
def C.CORE_CNT_VUSAT : Ctr := ⟨F.CORE_CNT_VUSAT_COUNT, F.CORE_CNT_CTRL_FREEZE⟩

/-- The counter CORE_CNT_SPILLWAIT. -/
def C.CORE_CNT_SPILLWAIT : Ctr := ⟨F.CORE_CNT_SPILLWAIT_COUNT, F.CORE_CNT_CTRL_FREEZE⟩

/-- The counter CORE_EPI_CNT_SAT. -/
def C.CORE_EPI_CNT_SAT : Ctr := ⟨F.CORE_EPI_CNT_SAT_COUNT, F.CORE_EPI_CNT_CTRL_FREEZE⟩

/-- The counter CORE_EPI_CNT_NAN. -/
def C.CORE_EPI_CNT_NAN : Ctr := ⟨F.CORE_EPI_CNT_NAN_COUNT, F.CORE_EPI_CNT_CTRL_FREEZE⟩

/-- The counter CORE_EPI_CNT_ACCSAT. -/
def C.CORE_EPI_CNT_ACCSAT : Ctr := ⟨F.CORE_EPI_CNT_ACCSAT_COUNT, F.CORE_EPI_CNT_CTRL_FREEZE⟩

/-- The counter CORE_EPI_CNT_FALLBACK. -/
def C.CORE_EPI_CNT_FALLBACK : Ctr := ⟨F.CORE_EPI_CNT_FALLBACK_COUNT, F.CORE_EPI_CNT_CTRL_FREEZE⟩

/-- The counter CORE_EPI_CNT_DRAINWAIT. -/
def C.CORE_EPI_CNT_DRAINWAIT : Ctr := ⟨F.CORE_EPI_CNT_DRAINWAIT_COUNT, F.CORE_EPI_CNT_CTRL_FREEZE⟩

/-- The counter CORE_EPI_CNT_TWAIT. -/
def C.CORE_EPI_CNT_TWAIT : Ctr := ⟨F.CORE_EPI_CNT_TWAIT_COUNT, F.CORE_EPI_CNT_CTRL_FREEZE⟩

/-- The counter CORE_EPI_CNT_PRESAT. -/
def C.CORE_EPI_CNT_PRESAT : Ctr := ⟨F.CORE_EPI_CNT_PRESAT_COUNT, F.CORE_EPI_CNT_CTRL_FREEZE⟩

/-- The counter SEQ_CNT_VEC. -/
def C.SEQ_CNT_VEC : Ctr := ⟨F.SEQ_CNT_VEC_COUNT, F.SEQ_CNT_CTRL_FREEZE⟩

/-- The counter SEQ_CNT_ITEM. -/
def C.SEQ_CNT_ITEM : Ctr := ⟨F.SEQ_CNT_ITEM_COUNT, F.SEQ_CNT_CTRL_FREEZE⟩

/-- The counter SEQ_CNT_ITEMWAIT. -/
def C.SEQ_CNT_ITEMWAIT : Ctr := ⟨F.SEQ_CNT_ITEMWAIT_COUNT, F.SEQ_CNT_CTRL_FREEZE⟩

/-- The counter SEQ_CNT_VRANGE. -/
def C.SEQ_CNT_VRANGE : Ctr := ⟨F.SEQ_CNT_VRANGE_COUNT, F.SEQ_CNT_CTRL_FREEZE⟩

/-- The counter SEQ_CNT_PM_CE. -/
def C.SEQ_CNT_PM_CE : Ctr := ⟨F.SEQ_CNT_PM_CE_COUNT, F.SEQ_CNT_CTRL_FREEZE⟩

/-- The counter SEQ_CNT_PM_UE. -/
def C.SEQ_CNT_PM_UE : Ctr := ⟨F.SEQ_CNT_PM_UE_COUNT, F.SEQ_CNT_CTRL_FREEZE⟩

/-- The counter RST_CNT_SWEEP. -/
def C.RST_CNT_SWEEP : Ctr := ⟨F.RST_CNT_SWEEP_COUNT, F.RST_CNT_CTRL_FREEZE⟩

/-- The counter RST_CNT_STANDIN. -/
def C.RST_CNT_STANDIN : Ctr := ⟨F.RST_CNT_STANDIN_COUNT, F.RST_CNT_CTRL_FREEZE⟩

/-- The counter RST_CNT_CALPASS. -/
def C.RST_CNT_CALPASS : Ctr := ⟨F.RST_CNT_CALPASS_COUNT, F.RST_CNT_CTRL_FREEZE⟩

/-- The counter RST_CNT_LAGSWEEP. -/
def C.RST_CNT_LAGSWEEP : Ctr := ⟨F.RST_CNT_LAGSWEEP_COUNT, F.RST_CNT_CTRL_FREEZE⟩

/-- The counter ENG_CNT_VEC. -/
def C.ENG_CNT_VEC : Ctr := ⟨F.ENG_CNT_VEC_COUNT, F.ENG_CNT_CTRL_FREEZE⟩

/-- The counter ENG_CNT_PLANE. -/
def C.ENG_CNT_PLANE : Ctr := ⟨F.ENG_CNT_PLANE_COUNT, F.ENG_CNT_CTRL_FREEZE⟩

/-- The counter ENG_CNT_PSKIP. -/
def C.ENG_CNT_PSKIP : Ctr := ⟨F.ENG_CNT_PSKIP_COUNT, F.ENG_CNT_CTRL_FREEZE⟩

/-- The counter ENG_CNT_SEGSKIP. -/
def C.ENG_CNT_SEGSKIP : Ctr := ⟨F.ENG_CNT_SEGSKIP_COUNT, F.ENG_CNT_CTRL_FREEZE⟩

/-- The counter ENG_CNT_SPLIT. -/
def C.ENG_CNT_SPLIT : Ctr := ⟨F.ENG_CNT_SPLIT_COUNT, F.ENG_CNT_CTRL_FREEZE⟩

/-- The counter ENG_CNT_SAT. -/
def C.ENG_CNT_SAT : Ctr := ⟨F.ENG_CNT_SAT_COUNT, F.ENG_CNT_CTRL_FREEZE⟩

/-- The counter ENG_CNT_CLIP. -/
def C.ENG_CNT_CLIP : Ctr := ⟨F.ENG_CNT_CLIP_COUNT, F.ENG_CNT_CTRL_FREEZE⟩

/-- The counter ENG_CNT_SLIPCLIP. -/
def C.ENG_CNT_SLIPCLIP : Ctr := ⟨F.ENG_CNT_SLIPCLIP_COUNT, F.ENG_CNT_CTRL_FREEZE⟩

/-- The counter FAB_CNT_HDRPAR. -/
def C.FAB_CNT_HDRPAR : Ctr := ⟨F.FAB_CNT_HDRPAR_COUNT, F.FAB_CNT_CTRL_FREEZE⟩

/-- The counter FAB_CNT_PAYPAR. -/
def C.FAB_CNT_PAYPAR : Ctr := ⟨F.FAB_CNT_PAYPAR_COUNT, F.FAB_CNT_CTRL_FREEZE⟩

/-- The counter FAB_CNT_RETX. -/
def C.FAB_CNT_RETX : Ctr := ⟨F.FAB_CNT_RETX_COUNT, F.FAB_CNT_CTRL_FREEZE⟩

/-- The counter FAB_CNT_TIMEOUT. -/
def C.FAB_CNT_TIMEOUT : Ctr := ⟨F.FAB_CNT_TIMEOUT_COUNT, F.FAB_CNT_CTRL_FREEZE⟩

/-- The counter FAB_CNT_EPOCHDISC. -/
def C.FAB_CNT_EPOCHDISC : Ctr := ⟨F.FAB_CNT_EPOCHDISC_COUNT, F.FAB_CNT_CTRL_FREEZE⟩

/-- The counter FAB_CNT_REPLAY. -/
def C.FAB_CNT_REPLAY : Ctr := ⟨F.FAB_CNT_REPLAY_COUNT, F.FAB_CNT_CTRL_FREEZE⟩

/-- The counter MEM_CNT_CE. -/
def C.MEM_CNT_CE : Ctr := ⟨F.MEM_CNT_CE_COUNT, F.MEM_CNT_CTRL_FREEZE⟩

/-- The counter MEM_CNT_UE. -/
def C.MEM_CNT_UE : Ctr := ⟨F.MEM_CNT_UE_COUNT, F.MEM_CNT_CTRL_FREEZE⟩

/-- The counter MEM_CNT_WPAR. -/
def C.MEM_CNT_WPAR : Ctr := ⟨F.MEM_CNT_WPAR_COUNT, F.MEM_CNT_CTRL_FREEZE⟩

/-- The counter MEM_CNT_SCRUB. -/
def C.MEM_CNT_SCRUB : Ctr := ⟨F.MEM_CNT_SCRUB_COUNT, F.MEM_CNT_CTRL_FREEZE⟩

/-- The counter HIF_CNT_DB_BAD. -/
def C.HIF_CNT_DB_BAD : Ctr := ⟨F.HIF_CNT_DB_BAD_COUNT, F.HIF_CNT_CTRL_FREEZE⟩

/-- The counter HIF_CNT_DESC_BAD. -/
def C.HIF_CNT_DESC_BAD : Ctr := ⟨F.HIF_CNT_DESC_BAD_COUNT, F.HIF_CNT_CTRL_FREEZE⟩

/-- The counter HIF_CNT_RDERR. -/
def C.HIF_CNT_RDERR : Ctr := ⟨F.HIF_CNT_RDERR_COUNT, F.HIF_CNT_CTRL_FREEZE⟩

/-- The counter HIF_CNT_SLOWREAD. -/
def C.HIF_CNT_SLOWREAD : Ctr := ⟨F.HIF_CNT_SLOWREAD_COUNT, F.HIF_CNT_CTRL_FREEZE⟩

/-- The counter HIF_CNT_ATSINV. -/
def C.HIF_CNT_ATSINV : Ctr := ⟨F.HIF_CNT_ATSINV_COUNT, F.HIF_CNT_CTRL_FREEZE⟩

/-- The counter HIF_CNT_REFETCH. -/
def C.HIF_CNT_REFETCH : Ctr := ⟨F.HIF_CNT_REFETCH_COUNT, F.HIF_CNT_CTRL_FREEZE⟩

/-- The counter ADM_LANE_CNT_ITEM. -/
def C.ADM_LANE_CNT_ITEM : Ctr := ⟨F.ADM_LANE_CNT_ITEM_COUNT, F.ADM_CNT_CTRL_FREEZE⟩

/-- The counter ADM_LANE_CNT_LATE. -/
def C.ADM_LANE_CNT_LATE : Ctr := ⟨F.ADM_LANE_CNT_LATE_COUNT, F.ADM_CNT_CTRL_FREEZE⟩

/-- The counter ADM_CNT_ADMIT. -/
def C.ADM_CNT_ADMIT : Ctr := ⟨F.ADM_CNT_ADMIT_COUNT, F.ADM_CNT_CTRL_FREEZE⟩

/-- The counter ADM_CNT_REFUSE. -/
def C.ADM_CNT_REFUSE : Ctr := ⟨F.ADM_CNT_REFUSE_COUNT, F.ADM_CNT_CTRL_FREEZE⟩

/-- The counter ADM_CNT_BROKEN. -/
def C.ADM_CNT_BROKEN : Ctr := ⟨F.ADM_CNT_BROKEN_COUNT, F.ADM_CNT_CTRL_FREEZE⟩

/-- The counter CTX_CNT_NOCTX. -/
def C.CTX_CNT_NOCTX : Ctr := ⟨F.CTX_CNT_NOCTX_COUNT, F.CTX_CNT_CTRL_FREEZE⟩

/-- The counter CTX_CNT_UNJOINED. -/
def C.CTX_CNT_UNJOINED : Ctr := ⟨F.CTX_CNT_UNJOINED_COUNT, F.CTX_CNT_CTRL_FREEZE⟩

/-- The counter CTX_CNT_DUP. -/
def C.CTX_CNT_DUP : Ctr := ⟨F.CTX_CNT_DUP_COUNT, F.CTX_CNT_CTRL_FREEZE⟩

/-- The counter CTX_CNT_NOINPUT. -/
def C.CTX_CNT_NOINPUT : Ctr := ⟨F.CTX_CNT_NOINPUT_COUNT, F.CTX_CNT_CTRL_FREEZE⟩

/-- The counter CTX_CNT_NOLANE. -/
def C.CTX_CNT_NOLANE : Ctr := ⟨F.CTX_CNT_NOLANE_COUNT, F.CTX_CNT_CTRL_FREEZE⟩

/-- The counter CTX_CNT_UE. -/
def C.CTX_CNT_UE : Ctr := ⟨F.CTX_CNT_UE_COUNT, F.CTX_CNT_CTRL_FREEZE⟩

/-- The counter CNP_CNT_CRC. -/
def C.CNP_CNT_CRC : Ctr := ⟨F.CNP_CNT_CRC_COUNT, F.CNP_CNT_CTRL_FREEZE⟩

/-- The counter CNP_CNT_AUTH. -/
def C.CNP_CNT_AUTH : Ctr := ⟨F.CNP_CNT_AUTH_COUNT, F.CNP_CNT_CTRL_FREEZE⟩

/-- The counter CNP_CNT_RETX. -/
def C.CNP_CNT_RETX : Ctr := ⟨F.CNP_CNT_RETX_COUNT, F.CNP_CNT_CTRL_FREEZE⟩

/-- The counter CNP_CNT_NAK. -/
def C.CNP_CNT_NAK : Ctr := ⟨F.CNP_CNT_NAK_COUNT, F.CNP_CNT_CTRL_FREEZE⟩

/-- The counter CNP_CNT_NOROUTE. -/
def C.CNP_CNT_NOROUTE : Ctr := ⟨F.CNP_CNT_NOROUTE_COUNT, F.CNP_CNT_CTRL_FREEZE⟩

/-- The counter CNP_CNT_UNBOUND. -/
def C.CNP_CNT_UNBOUND : Ctr := ⟨F.CNP_CNT_UNBOUND_COUNT, F.CNP_CNT_CTRL_FREEZE⟩

/-- The counter CNP_CNT_DIGESTERR. -/
def C.CNP_CNT_DIGESTERR : Ctr := ⟨F.CNP_CNT_DIGESTERR_COUNT, F.CNP_CNT_CTRL_FREEZE⟩

/-- The counter CNP_CNT_DIGESTSKIP. -/
def C.CNP_CNT_DIGESTSKIP : Ctr := ⟨F.CNP_CNT_DIGESTSKIP_COUNT, F.CNP_CNT_CTRL_FREEZE⟩

/-- The counter CNP_CNT_TTL. -/
def C.CNP_CNT_TTL : Ctr := ⟨F.CNP_CNT_TTL_COUNT, F.CNP_CNT_CTRL_FREEZE⟩

/-- The counter SYNC_CNT_STRAY. -/
def C.SYNC_CNT_STRAY : Ctr := ⟨F.SYNC_CNT_STRAY_COUNT, F.SYNC_CNT_CTRL_FREEZE⟩

/-- The counter SYNC_CNT_OVERFLOW. -/
def C.SYNC_CNT_OVERFLOW : Ctr := ⟨F.SYNC_CNT_OVERFLOW_COUNT, F.SYNC_CNT_CTRL_FREEZE⟩

/-- The counter SYNC_CNT_WAITFULL. -/
def C.SYNC_CNT_WAITFULL : Ctr := ⟨F.SYNC_CNT_WAITFULL_COUNT, F.SYNC_CNT_CTRL_FREEZE⟩

/-- The counter SYNC_CNT_DUP. -/
def C.SYNC_CNT_DUP : Ctr := ⟨F.SYNC_CNT_DUP_COUNT, F.SYNC_CNT_CTRL_FREEZE⟩

/-- The counter REL_CNT_SAMPLE. -/
def C.REL_CNT_SAMPLE : Ctr := ⟨F.REL_CNT_SAMPLE_COUNT, F.REL_CNT_CTRL_FREEZE⟩

/-- The counter REL_CNT_SKIP. -/
def C.REL_CNT_SKIP : Ctr := ⟨F.REL_CNT_SKIP_COUNT, F.REL_CNT_CTRL_FREEZE⟩

/-- The counter REL_CNT_NOCOMP. -/
def C.REL_CNT_NOCOMP : Ctr := ⟨F.REL_CNT_NOCOMP_COUNT, F.REL_CNT_CTRL_FREEZE⟩

/-- The counter REL_CNT_MISMATCH. -/
def C.REL_CNT_MISMATCH : Ctr := ⟨F.REL_CNT_MISMATCH_COUNT, F.REL_CNT_CTRL_FREEZE⟩

/-- The counter REL_CNT_CONFIRM. -/
def C.REL_CNT_CONFIRM : Ctr := ⟨F.REL_CNT_CONFIRM_COUNT, F.REL_CNT_CTRL_FREEZE⟩

/-- The counter REL_CNT_KAT. -/
def C.REL_CNT_KAT : Ctr := ⟨F.REL_CNT_KAT_COUNT, F.REL_CNT_CTRL_FREEZE⟩

/-- The counter REL_CNT_KATFAIL. -/
def C.REL_CNT_KATFAIL : Ctr := ⟨F.REL_CNT_KATFAIL_COUNT, F.REL_CNT_CTRL_FREEZE⟩

/-- The counter REL_CNT_RANGE. -/
def C.REL_CNT_RANGE : Ctr := ⟨F.REL_CNT_RANGE_COUNT, F.REL_CNT_CTRL_FREEZE⟩

/-- The counter REL_CNT_RETRACT. -/
def C.REL_CNT_RETRACT : Ctr := ⟨F.REL_CNT_RETRACT_COUNT, F.REL_CNT_CTRL_FREEZE⟩

/-- The counter REL_CNT_FAILOVER. -/
def C.REL_CNT_FAILOVER : Ctr := ⟨F.REL_CNT_FAILOVER_COUNT, F.REL_CNT_CTRL_FREEZE⟩

/-- The counter REL_CNT_RETIRE. -/
def C.REL_CNT_RETIRE : Ctr := ⟨F.REL_CNT_RETIRE_COUNT, F.REL_CNT_CTRL_FREEZE⟩

/-- The counter REL_CNT_FRLOST. -/
def C.REL_CNT_FRLOST : Ctr := ⟨F.REL_CNT_FRLOST_COUNT, F.REL_CNT_CTRL_FREEZE⟩

/-- The counter KEEP_CNT_ATTEST. -/
def C.KEEP_CNT_ATTEST : Ctr := ⟨F.KEEP_CNT_ATTEST_COUNT, F.KEEP_CNT_CTRL_FREEZE⟩

/-- The counter KEEP_CNT_QUEUED. -/
def C.KEEP_CNT_QUEUED : Ctr := ⟨F.KEEP_CNT_QUEUED_COUNT, F.KEEP_CNT_CTRL_FREEZE⟩

/-- The counter KEEP_CNT_MBREFUSE. -/
def C.KEEP_CNT_MBREFUSE : Ctr := ⟨F.KEEP_CNT_MBREFUSE_COUNT, F.KEEP_CNT_CTRL_FREEZE⟩

/-- The counter KEEP_CNT_RELFAIL. -/
def C.KEEP_CNT_RELFAIL : Ctr := ⟨F.KEEP_CNT_RELFAIL_COUNT, F.KEEP_CNT_CTRL_FREEZE⟩

/-- The counter KEEP_CNT_DECAYFAIL. -/
def C.KEEP_CNT_DECAYFAIL : Ctr := ⟨F.KEEP_CNT_DECAYFAIL_COUNT, F.KEEP_CNT_CTRL_FREEZE⟩

/-- The counter HK_CNT_ROUND. -/
def C.HK_CNT_ROUND : Ctr := ⟨F.HK_CNT_ROUND_COUNT, F.HK_CNT_CTRL_FREEZE⟩

/-- The counter HK_CNT_WIN. -/
def C.HK_CNT_WIN : Ctr := ⟨F.HK_CNT_WIN_COUNT, F.HK_CNT_CTRL_FREEZE⟩

/-- The counter FLD_GW_CNT_RXDISC. -/
def C.FLD_GW_CNT_RXDISC : Ctr := ⟨F.FLD_GW_CNT_RXDISC_COUNT, F.FLD_GW_CNT_CTRL_FREEZE⟩

/-- The counter FLD_GW_CNT_RETX. -/
def C.FLD_GW_CNT_RETX : Ctr := ⟨F.FLD_GW_CNT_RETX_COUNT, F.FLD_GW_CNT_CTRL_FREEZE⟩

/-- The counter FLD_GW_CNT_LINKDOWN. -/
def C.FLD_GW_CNT_LINKDOWN : Ctr := ⟨F.FLD_GW_CNT_LINKDOWN_COUNT, F.FLD_GW_CNT_CTRL_FREEZE⟩

/-- The counter FLD_GW_CNT_WLOST. -/
def C.FLD_GW_CNT_WLOST : Ctr := ⟨F.FLD_GW_CNT_WLOST_COUNT, F.FLD_GW_CNT_CTRL_FREEZE⟩

/-- The counter FLD_CNT_ITEM. -/
def C.FLD_CNT_ITEM : Ctr := ⟨F.FLD_CNT_ITEM_COUNT, F.FLD_CNT_CTRL_FREEZE⟩

/-- The counter FLD_CNT_LATE. -/
def C.FLD_CNT_LATE : Ctr := ⟨F.FLD_CNT_LATE_COUNT, F.FLD_CNT_CTRL_FREEZE⟩

/-- The counter FLD_CNT_UNKNOWN. -/
def C.FLD_CNT_UNKNOWN : Ctr := ⟨F.FLD_CNT_UNKNOWN_COUNT, F.FLD_CNT_CTRL_FREEZE⟩

/-- The counter FLD_CNT_WITHHELD. -/
def C.FLD_CNT_WITHHELD : Ctr := ⟨F.FLD_CNT_WITHHELD_COUNT, F.FLD_CNT_CTRL_FREEZE⟩

/-- The counter FLD_CNT_QFULL. -/
def C.FLD_CNT_QFULL : Ctr := ⟨F.FLD_CNT_QFULL_COUNT, F.FLD_CNT_CTRL_FREEZE⟩

/-- The counter FLD_CNT_NOREC. -/
def C.FLD_CNT_NOREC : Ctr := ⟨F.FLD_CNT_NOREC_COUNT, F.FLD_CNT_CTRL_FREEZE⟩

/-- The counter FLD_CNT_ENCERR. -/
def C.FLD_CNT_ENCERR : Ctr := ⟨F.FLD_CNT_ENCERR_COUNT, F.FLD_CNT_CTRL_FREEZE⟩

/-- The counter FLD_CNT_VTOVR. -/
def C.FLD_CNT_VTOVR : Ctr := ⟨F.FLD_CNT_VTOVR_COUNT, F.FLD_CNT_CTRL_FREEZE⟩

/-- The counter FLD_CNT_ACKBAD. -/
def C.FLD_CNT_ACKBAD : Ctr := ⟨F.FLD_CNT_ACKBAD_COUNT, F.FLD_CNT_CTRL_FREEZE⟩

/-- The counter FLD_CNT_RXDISC. -/
def C.FLD_CNT_RXDISC : Ctr := ⟨F.FLD_CNT_RXDISC_COUNT, F.FLD_CNT_CTRL_FREEZE⟩

/-- The counter FLD_CNT_RETX. -/
def C.FLD_CNT_RETX : Ctr := ⟨F.FLD_CNT_RETX_COUNT, F.FLD_CNT_CTRL_FREEZE⟩

/-- The counter FADC_CNT_SAT. -/
def C.FADC_CNT_SAT : Ctr := ⟨F.FADC_CNT_SAT_COUNT, F.FADC_CNT_CTRL_FREEZE⟩

/-- The counter FADC_CNT_WIN. -/
def C.FADC_CNT_WIN : Ctr := ⟨F.FADC_CNT_WIN_COUNT, F.FADC_CNT_CTRL_FREEZE⟩

/-- The counter FADC_CNT_RPTSKIP. -/
def C.FADC_CNT_RPTSKIP : Ctr := ⟨F.FADC_CNT_RPTSKIP_COUNT, F.FADC_CNT_CTRL_FREEZE⟩

/-- The counter FDAC_CNT_COALESCE. -/
def C.FDAC_CNT_COALESCE : Ctr := ⟨F.FDAC_CNT_COALESCE_COUNT, F.FDAC_CNT_CTRL_FREEZE⟩

/-- The counter FDAC_CNT_OPENLOOP. -/
def C.FDAC_CNT_OPENLOOP : Ctr := ⟨F.FDAC_CNT_OPENLOOP_COUNT, F.FDAC_CNT_CTRL_FREEZE⟩

/-! ### Every register, in rising order of offset -/

/-- Registers, part 0. -/
def Reg.part0 : List Reg :=
  [R.GLB_ID, R.GLB_CAPS, R.GLB_SERIAL_LO, R.GLB_SERIAL_HI, R.GLB_STATUS, R.GLB_SUMMARY, R.GLB_SUMMARY_CORE, R.GLB_ACC_LO, R.GLB_ACC_HI, R.GLB_ACC_CNT, R.GLB_CNT_CTRL, R.GLB_SCRATCH, R.MGT_STATUS, R.MGT_CFG, R.MGT_HOST_MASK, R.MGT_COMMIT, R.MGT_TIME_LO, R.MGT_TIME_HI, R.MGT_TIME_OFS, R.MGT_EVT_HEAD, R.MGT_EVT_SEL, R.MGT_EVT_DATA, R.MGT_FW_SEL, R.MGT_FW_DATA, R.MGT_CNT_SESSION, R.MGT_CNT_AUTHFAIL, R.MGT_CNT_EVLOST, R.MGT_CNT_MSGBAD, R.MGT_CNT_CTRL, R.GLB_PWR_STATUS]

/-- Registers, part 1. -/
def Reg.part1 : List Reg :=
  [R.GLB_PWR_MW, R.GLB_RST_CTRL, R.GLB_RST_CAUSE, R.GLB_CLK_STATUS, R.GLB_THM_STATUS, R.GLB_THM_RISE, R.GLB_THM_ABS, R.GLB_THM_MISC, R.GLB_THM_COMMIT, R.GLB_THM_SEL, R.GLB_THM_DATA, R.GLB_THM_CNT_L1, R.GLB_THM_CNT_L2, R.GLB_THM_CNT_L3, R.GLB_THM_CNT_GUARD, R.GLB_THM_CNT_CTRL, R.CORE_ID, R.CORE_CTRL, R.CORE_STATUS, R.CORE_ROLE, R.CORE_EPOCH, R.CORE_CAD_CFG, R.CORE_CAD_STATUS, R.CORE_CAD_SEL, R.CORE_CAD_DATA, R.CORE_SCR_STATUS, R.CORE_SRAM_ERR, R.CORE_CNT_SLOT_LANE, R.CORE_CNT_SLOT_IDLE, R.CORE_CNT_GLADE]

/-- Registers, part 2. -/
def Reg.part2 : List Reg :=
  [R.CORE_CNT_SCRROW, R.CORE_CNT_SCRSTALE, R.CORE_CNT_STGEXC, R.CORE_CNT_SRAM_CE, R.CORE_CNT_SRAM_UE, R.CORE_CNT_VUSAT, R.CORE_CNT_SPILLWAIT, R.CORE_CNT_CTRL, R.CORE_DBG_CTRL, R.CORE_EPI_CFG, R.CORE_EPI_STATUS, R.CORE_EPI_SEED_BASE, R.CORE_EPI_TILE_USE, R.CORE_EPI_SEED_LAST, R.CORE_EPI_TILE, R.CORE_EPI_CNT_SAT, R.CORE_EPI_CNT_NAN, R.CORE_EPI_CNT_ACCSAT, R.CORE_EPI_CNT_FALLBACK, R.CORE_EPI_CNT_DRAINWAIT, R.CORE_EPI_CNT_TWAIT, R.CORE_EPI_CNT_PRESAT, R.CORE_EPI_CNT_CTRL, R.CORE_EPI_L2_SEL, R.CORE_EPI_L2_LO, R.CORE_EPI_L2_HI, R.SEQ_STATUS, R.SEQ_PROG, R.SEQ_BUDGET, R.SEQ_BREAK]

/-- Registers, part 3. -/
def Reg.part3 : List Reg :=
  [R.SEQ_PM_SEL, R.SEQ_PM_DATA, R.SEQ_A_SEL, R.SEQ_A_DATA, R.SEQ_DIGEST_SEL, R.SEQ_DIGEST_DATA, R.SEQ_CNT_VEC, R.SEQ_CNT_ITEM, R.SEQ_CNT_ITEMWAIT, R.SEQ_CNT_VRANGE, R.SEQ_CNT_PM_CE, R.SEQ_CNT_PM_UE, R.SEQ_CNT_CTRL, R.RST_CTRL, R.RST_STATUS, R.RST_PERIOD, R.RST_PERIOD_LIM, R.RST_COMMIT, R.RST_DROOP, R.RST_GEN, R.RST_GEN_NEXT, R.RST_SLOT, R.RST_LAG, R.RST_CAL_SEL, R.RST_CAL_DATA, R.RST_SPARE_SEL, R.RST_SPARE_DATA, R.RST_DIGEST_SEL, R.RST_DIGEST_DATA, R.RST_PASS_SEL]

/-- Registers, part 4. -/
def Reg.part4 : List Reg :=
  [R.RST_PASS_DATA, R.RST_CNT_SWEEP, R.RST_CNT_STANDIN, R.RST_CNT_CALPASS, R.RST_CNT_LAGSWEEP, R.RST_CNT_CTRL, R.ENG_ID, R.ENG_CFG, R.ENG_STATUS, R.ENG_SLIP, R.ENG_SAT_LAST, R.ENG_TIMING, R.ENG_CNT_VEC, R.ENG_CNT_PLANE, R.ENG_CNT_PSKIP, R.ENG_CNT_SEGSKIP, R.ENG_CNT_SPLIT, R.ENG_CNT_SAT, R.ENG_CNT_CLIP, R.ENG_CNT_SLIPCLIP, R.ENG_CNT_CTRL, R.ENG_DBG_SEL, R.ENG_DBG_DATA, R.ENG_DBG_STATUS, R.FAB_ID, R.FAB_STATUS, R.FAB_CFG, R.FAB_COMMIT, R.FAB_ERR_LAST, R.FAB_LINK_SEL]

/-- Registers, part 5. -/
def Reg.part5 : List Reg :=
  [R.FAB_LINK_DATA, R.FAB_EPOCH_SEL, R.FAB_EPOCH_DATA, R.FAB_EPOCH_OLD, R.FAB_CNT_HDRPAR, R.FAB_CNT_PAYPAR, R.FAB_CNT_RETX, R.FAB_CNT_TIMEOUT, R.FAB_CNT_EPOCHDISC, R.FAB_CNT_REPLAY, R.FAB_CNT_CTRL, R.MEM_ID, R.MEM_STATUS, R.MEM_SHARE_RST, R.MEM_SHARE_LOAD, R.MEM_SHARE_ADM, R.MEM_ERR_LO, R.MEM_ERR_HI, R.MEM_PAGE_SEL, R.MEM_PAGE_DATA, R.MEM_MASTER_SEL, R.MEM_MASTER_DATA, R.MEM_BW_SEL, R.MEM_BW_DATA, R.MEM_CNT_CE, R.MEM_CNT_UE, R.MEM_CNT_WPAR, R.MEM_CNT_SCRUB, R.MEM_CNT_CTRL, R.HIF_ID]

/-- Registers, part 6. -/
def Reg.part6 : List Reg :=
  [R.HIF_LINK, R.HIF_STATUS, R.HIF_LAT, R.HIF_VF_SEL, R.HIF_VF_CTX, R.HIF_CNT_DB_BAD, R.HIF_CNT_DESC_BAD, R.HIF_CNT_RDERR, R.HIF_CNT_SLOWREAD, R.HIF_CNT_ATSINV, R.HIF_CNT_REFETCH, R.HIF_CNT_CTRL, R.RING_SQ_BASE_LO, R.RING_SQ_BASE_HI, R.RING_CFG, R.RING_STATUS, R.RING_CQ_BASE_LO, R.RING_CQ_BASE_HI, R.RING_SQ_HEAD, R.RING_SQ_TAIL, R.RING_CQ_TAIL, R.RING_CQ_HEAD, R.RING_HEADWB_LO, R.RING_HEADWB_HI, R.RING_MOD, R.RING_COMMIT, R.RING_CTRL, R.RING_SQ_TAKE, R.ADM_ID, R.ADM_STATUS]

/-- Registers, part 7. -/
def Reg.part7 : List Reg :=
  [R.ADM_CAPS, R.ADM_LANE_SEL, R.ADM_LANE_STATE, R.ADM_LANE_WCR, R.ADM_LANE_DT, R.ADM_LANE_CNT_ITEM, R.ADM_LANE_CNT_LATE, R.ADM_RES_SEL, R.ADM_RES_USED, R.ADM_RES_CAP, R.ADM_CNT_ADMIT, R.ADM_CNT_REFUSE, R.ADM_CNT_BROKEN, R.ADM_CNT_CTRL, R.CTX_STATUS, R.CTX_FREE, R.CTX_INDEX, R.CTX_CNT_NOCTX, R.CTX_CNT_UNJOINED, R.CTX_CNT_DUP, R.CTX_CNT_NOINPUT, R.CTX_CNT_NOLANE, R.CTX_CNT_UE, R.CTX_CNT_CTRL, R.ITEM_SEL_LO, R.ITEM_SEL_HI, R.ITEM_STATUS, R.ITEM_WORD_SEL, R.ITEM_WORD_DATA, R.CNP_ID]

/-- Registers, part 8. -/
def Reg.part8 : List Reg :=
  [R.CNP_STATUS, R.CNP_CTRL, R.CNP_TOPO, R.CNP_TOPO_ID, R.CNP_CFG, R.CNP_COMMIT, R.CNP_DIGEST_CFG, R.CNP_DIGEST_PEERS, R.CNP_PORT_SEL, R.CNP_PORT_STATUS, R.CNP_PORT_PEER, R.CNP_PORT_DELAY, R.CNP_PORT_LOAD, R.CNP_ROUTE_SEL, R.CNP_ROUTE_DATA, R.CNP_CNT_CRC, R.CNP_CNT_AUTH, R.CNP_CNT_RETX, R.CNP_CNT_NAK, R.CNP_CNT_NOROUTE, R.CNP_CNT_UNBOUND, R.CNP_CNT_DIGESTERR, R.CNP_CNT_DIGESTSKIP, R.CNP_CNT_TTL, R.CNP_CNT_CTRL, R.SYNC_VALUE, R.SYNC_WAIT, R.SYNC_LAST, R.SYNC_OWNER, R.SYNC_ID]

/-- Registers, part 9. -/
def Reg.part9 : List Reg :=
  [R.SYNC_STATUS, R.SYNC_FREE, R.SYNC_WAITTAB, R.SYNC_CNT_STRAY, R.SYNC_CNT_OVERFLOW, R.SYNC_CNT_WAITFULL, R.SYNC_CNT_DUP, R.SYNC_CNT_CTRL, R.REL_ID, R.REL_STATUS, R.REL_CTRL, R.REL_CFG, R.REL_SHADOW_CFG, R.REL_RANGE_CFG, R.REL_COMMIT, R.REL_LOOKOUT, R.REL_UNIT_SEL, R.REL_UNIT_DATA, R.REL_FR_HEAD, R.REL_FR_SEL, R.REL_FR_DATA, R.REL_CNT_SAMPLE, R.REL_CNT_SKIP, R.REL_CNT_NOCOMP, R.REL_CNT_MISMATCH, R.REL_CNT_CONFIRM, R.REL_CNT_KAT, R.REL_CNT_KATFAIL, R.REL_CNT_RANGE, R.REL_CNT_RETRACT]

/-- Registers, part 10. -/
def Reg.part10 : List Reg :=
  [R.REL_CNT_FAILOVER, R.REL_CNT_RETIRE, R.REL_CNT_FRLOST, R.REL_CNT_CTRL, R.KEEP_ID, R.KEEP_STATUS, R.KEEP_MB_CMD, R.KEEP_MB_CTRL, R.KEEP_MB_STATUS, R.KEEP_CTX_SEL, R.KEEP_CTX_STATE, R.KEEP_CONF_CFG, R.KEEP_COMMIT, R.KEEP_RESETGEN, R.KEEP_CORE_SEL, R.KEEP_CORE_DATA, R.KEEP_SVN_SEL, R.KEEP_SVN_DATA, R.KEEP_CNT_ATTEST, R.KEEP_CNT_QUEUED, R.KEEP_CNT_MBREFUSE, R.KEEP_CNT_RELFAIL, R.KEEP_CNT_DECAYFAIL, R.KEEP_CNT_CTRL, R.KEEP_MB_DATA, R.HK_ID, R.HK_STATUS, R.HK_ROUND, R.HK_ENT_SEL, R.HK_ENT_DATA]

/-- Registers, part 11. -/
def Reg.part11 : List Reg :=
  [R.HK_CH_SEL, R.HK_CH_DATA, R.HK_WLO, R.HK_WHI, R.HK_HYST, R.HK_COMMIT, R.HK_WIN_STATUS, R.HK_CNT_ROUND, R.HK_CNT_WIN, R.HK_CNT_CTRL, R.HK_AOSP_CODE01, R.HK_AOSP_CODE23, R.HK_AOSP_SEND, R.HK_FADC_RES, R.FLD_GW_STATUS, R.FLD_GW_CFG, R.FLD_GW_COMMIT, R.FLD_GW_CNT_RXDISC, R.FLD_GW_CNT_RETX, R.FLD_GW_CNT_LINKDOWN, R.FLD_GW_CNT_WLOST, R.FLD_GW_CNT_CTRL, R.FLD_ID, R.FLD_STATUS, R.FLD_RDREQ, R.FLD_POL_SEL, R.FLD_POL, R.FLD_HOST_TO, R.FLD_COMMIT, R.FLD_TRIG_SEL]

/-- Registers, part 12. -/
def Reg.part12 : List Reg :=
  [R.FLD_TRIG_CFG, R.FLD_TRIG_LEVEL, R.FLD_ENC_SEL, R.FLD_ENC_CFG, R.FLD_ENC_POS, R.FLD_ENC_STATUS, R.FLD_LANE_SEL, R.FLD_LANE_DATA, R.FLD_LANE_CTRL, R.FLD_LANE_STATUS, R.FLD_REJ_SEL, R.FLD_REJ_CFG, R.FLD_REJ_STATUS, R.FLD_GPO_SRC, R.FLD_GPO_LEVEL, R.FLD_VT_SEL, R.FLD_VT_DATA, R.FLD_CNT_ITEM, R.FLD_CNT_LATE, R.FLD_CNT_UNKNOWN, R.FLD_CNT_WITHHELD, R.FLD_CNT_QFULL, R.FLD_CNT_NOREC, R.FLD_CNT_ENCERR, R.FLD_CNT_VTOVR, R.FLD_CNT_ACKBAD, R.FLD_CNT_RXDISC, R.FLD_CNT_RETX, R.FLD_CNT_CTRL, R.FADC_ID]

/-- Registers, part 13. -/
def Reg.part13 : List Reg :=
  [R.FADC_STATUS, R.FADC_CTRL, R.FADC_CFG, R.FADC_COMMIT, R.FADC_LOOP, R.FADC_WIN_STATUS, R.FADC_CALF_SEL, R.FADC_CALF_OFS, R.FADC_CALF_GAIN, R.FADC_CNT_SAT, R.FADC_CNT_WIN, R.FADC_CNT_RPTSKIP, R.FADC_CNT_CTRL, R.FADC_ENT_CTL, R.FADC_ENT_WLO, R.FADC_ENT_WHI, R.FADC_ENT_HYST, R.FADC_RES, R.FDAC_ID, R.FDAC_STATUS, R.FDAC_SEL, R.FDAC_CFG, R.FDAC_POL, R.FDAC_COMMIT, R.FDAC_SET, R.FDAC_OUT, R.FDAC_CNT_COALESCE, R.FDAC_CNT_OPENLOOP, R.FDAC_CNT_CTRL, R.HIF_VF_ID]

/-- Every register of the field maps. -/
def Reg.all : List Reg :=
  Reg.part0 ++ Reg.part1 ++ Reg.part2 ++ Reg.part3 ++ Reg.part4 ++ Reg.part5 ++ Reg.part6 ++ Reg.part7 ++ Reg.part8 ++ Reg.part9 ++ Reg.part10 ++ Reg.part11 ++ Reg.part12 ++ Reg.part13

end Sys2Proof.Machine
end

