-- ==== Sys2Proof/Machine/State.lean ====
section
/-! DEFINITION. The state of the module as plain data, its faults and refusals, and the state
after reset. -/

namespace Sys2Proof.Machine

/-! ### Events, outputs and the access log -/

/-- One event record (Table 16.5).  255 and 65,535 stand where the spec's record says none. -/
structure EventRec where
  seq : Nat
  code : Nat
  source : Nat
  device : Nat
  time : Nat
  context : Nat
  core : Nat
  engine : Nat
  lane : Nat
  argA : Nat
  count : Nat
  item : Nat
  argB : Nat
  deriving DecidableEq, Repr

/-- An event to log; the fields that do not apply keep the value the record layout states. -/
structure Ev where
  code : Nat
  source : Nat := 0
  context : Nat := 255
  core : Nat := 255
  engine : Nat := 255
  lane : Nat := 255
  argA : Nat := 65535
  count : Nat := 1
  item : Nat := 0
  argB : Nat := 0
  deriving DecidableEq, Repr

/-- What the device sends to the world outside it, as the model's own trace: nothing in the
model reads it. -/
inductive Out where
  /-- bytes written to host memory by a function -/
  | hostWrite (func addr : Nat) (bytes : List Nat)
  /-- an MSI-X message of a function's vector -/
  | msix (func vector : Nat)
  /-- a read request to host or peer memory -/
  | hostRead (func addr len tag : Nat)
  /-- a reply on a management session: message type, the request's TAG, status, payload -/
  | reply (session msg tag status : Nat) (payload : List Nat)
  /-- a part of a reply that is longer than 1 MiB, with FLAGS.LAST clear -/
  | replyPart (session msg tag status : Nat) (payload : List Nat)
  /-- a pushed message on a management session -/
  | push (session msg : Nat) (payload : List Nat)
  /-- a frame or packet sent by a Canopy port -/
  | canopy (port kind : Nat) (payload : List Nat)
  /-- words returned by the SPI target -/
  | spi (words : List Nat)
  /-- the bytes an SPDM or TDISP exchange returns -/
  | spdm (func : Nat) (payload : List Nat)
  deriving DecidableEq, Repr

/-! ### Engines (R35 to R63) -/

/-- A split replay that the engine has granted and not yet run (R46): its plane, its segment and
the physical columns that saturated. -/
structure SplitReq where
  plane : Nat
  seg : Nat
  cols : List Nat
  deriving DecidableEq, Repr

/-- A row write queued for a scratch engine (R147 to R150): its number among the core's writes, the vector whose
entry issued it, and whether it is the core's own upkeep, which writes level 0. -/
structure RowWrite where
  se : Nat
  row : Nat
  col0 : Nat
  values : List Int
  num : Nat := 0
  lane : Nat := 0
  item : Nat := 0
  index : Nat := 0
  /-- the thread that issued it: 0 VEC, 1 ITEM -/
  thr : Nat := 0
  upkeep : Bool := false
  deriving DecidableEq, Repr

/-- A vector in an engine: staged, or running (R41 to R49).  `clock` counts bit-plane cycles from
the slot start to the end of the last issued cycle, the slip included. -/
structure EngVec where
  tile : Nat
  planes : Nat
  signed : Bool
  /-- staged 8-bit patterns by row; a row not listed is 0 -/
  inputs : Tab Nat
  /-- the next plane to look at -/
  plane : Nat
  clock : Nat
  issued : Nat
  replays : Nat
  splits : List SplitReq
  /-- the running sum of each output column (R42) -/
  sums : Tab Int
  /-- clipped segment-columns of each output column (R104) -/
  clips : Tab Nat
  /-- the pass's position along K among the passes of its chain in this tile use (R88) -/
  pass : Nat
  /-- a vector in the second staging buffer has not begun -/
  begun : Bool
  /-- the vector it is part of: lane, item and number within the item -/
  lane : Nat
  item : Nat
  index : Nat
  eout : Int
  /-- rows injected as stand-ins through the whole vector, and their writes that are still to be made (R149) -/
  exact : List Nat
  writes : List RowWrite := []
  /-- the number of the core's row writes when it was issued: earlier ones take effect for it -/
  mark : Nat := 0
  /-- its tile had a drain pending when it was issued, so it waits (R94) -/
  waits : Bool
  /-- that wait has been counted -/
  counted : Bool
  deriving DecidableEq, Repr

/-- A mapping entry of the model image (R176). -/
structure MapEnt where
  stage : Nat
  pos : Nat
  engine : Nat
  plan : Nat
  chainPos : Nat
  matrix : Nat
  kOff : Nat
  rows : Nat
  cols : Nat
  nOff : Nat
  wOff : Nat
  wLen : Nat
  /-- the tile's index within its stage, in table order (R128) -/
  index : Nat
  digest : List Nat
  deriving DecidableEq, Repr

/-- What a pass found of one segment-column and conversion kind (R118): offset Q8.4, injection gain
Q2.14, and when the pass ended.  The gain of R40 follows from it and from the cell factor in force. -/
structure CalPair where
  ofs : Nat
  inj : Nat
  time : Nat
  deriving DecidableEq, Repr

/-- A reference sample (R115): expected charge E, q in 1/16384, and its time in ns. -/
structure RefSample where
  e : Nat
  q : Int
  time : Nat
  deriving DecidableEq, Repr

/-- A rewrite window (R110): the row, the record read for the visit, when it opened, and whether the bit-plane
cycle that it occupies has run. -/
structure Window where
  row : Nat
  record : List Nat
  opened : Nat
  used : Bool
  deriving DecidableEq, Repr

/-- A noise passport snapshot (R131, R132): the header fields that are not fixed, and the free
value from which its measured bytes are drawn. -/
structure Passport where
  cls : Nat
  revision : Nat
  plan : Nat
  tj : Int
  sweeps : Nat
  draw : Nat
  /-- FLAGS of each physical column -/
  flags : List Nat
  /-- the draw and the class at the last revision -/
  revDraw : Nat
  revCls : Nat
  deriving DecidableEq, Repr

/-- One engine: what the array and the tree hold beside the engine's registers. -/
structure Engine where
  /-- charge level of the cell at row r, physical column c under key r * 1344 + c -/
  cells : Tab Nat := []
  /-- the running vector -/
  run : Option EngVec := none
  /-- a vector whose last cycle has ended and whose contribution is in the tree (R43) -/
  tree : Option EngVec := none
  /-- the vector in the second staging buffer (R167) -/
  next : Option EngVec := none
  /-- idle slots that passed while the running vector had cycles left (R49) -/
  idle : Nat := 0
  /-- the mapping entry of the tile it holds, and the head of its chain (R81) -/
  map : Option MapEnt := none
  head : Nat := 0
  /-- correction in force under key (column * 2 + segment) * 3 + kind -/
  cal : Tab CalPair := []
  /-- new corrections that take effect at the next vector start (R119) -/
  calNew : Tab CalPair := []
  /-- cell factor ρ, Q2.14, and the time its fit ended, under key (group * 2 + segment) * 3 + kind -/
  rho : Tab (Nat × Nat) := []
  rhoNew : Tab (Nat × Nat) := []
  /-- the reference samples of the fit, latest first, under key (group * 2 + segment) * 3 + kind (R115) -/
  refs : Tab (List RefSample) := []
  /-- the restorer's last rewrite window in this engine (R110) -/
  window : Option Window := none
  /-- trial bit weights of each converter lane, segment and half from the last start-up pass (R117) -/
  bitWeights : Tab (List Nat) := []
  /-- cycles of the calibration pass in progress on each segment -/
  calCycles : Tab Nat := []
  /-- a regular pass has been requested (RST_CTRL.CAL_PASS) -/
  calAsked : Bool := false
  /-- the engine is in service (R108) -/
  inService : Bool := false
  /-- every cell has been written from the active slot since the engine entered service (R140) -/
  written : Bool := false
  /-- bytes folded into the digest of the sweep in progress -/
  folded : List Nat := []
  /-- the last completed digest -/
  digest : List Nat := []
  /-- the expected digest from the model image -/
  expected : List Nat := []
  passport : Option Passport := none
  /-- revision bookkeeping: time of the last REVISION increase -/
  revisedAt : Nat := 0
  deriving DecidableEq, Repr

/-- An engine that holds nothing. -/
def Engine.empty : Engine := {}

/-! ### Tiles and the epilogue (R80 to R107) -/

/-- A drain that a program has requested of a tile (R94 to R96). -/
structure DrainReq where
  desc : Nat
  next : Nat
  nextZero : Bool
  group : Bool
  addr : Nat
  first : Nat
  last : Nat
  /-- whether the request has been counted as waiting -/
  waited : Bool
  /-- the vector whose output the drain forms -/
  lane : Nat
  item : Nat
  vec : Nat
  /-- the thread that waits at the DRAIN: 0 VEC, 1 ITEM -/
  thr : Nat
  deriving DecidableEq, Repr

/-- What a fallback tile's drain handed to the vector unit (R93): its request, the use's shift, exponent and begin
descriptor, and by column the scaled values, the generator states and the clips. -/
structure Handed where
  req : DrainReq
  shift : Nat
  eout : Int
  desc : Nat
  vals : Tab Nat
  gens : Tab Nat
  clips : Tab Nat
  deriving DecidableEq, Repr

/-- One of a core's two tiles (R80 to R96).  Columns are keyed by engine * 1024 + output column
of the chain's head. -/
structure Tile where
  acc : Tab Int := []
  /-- the second level: the partial sums that wait at levels 0 to 8 (R85) -/
  l2 : Tab (List (Option Int)) := []
  shift : Nat := 0
  seed : Nat := 0
  /-- seed and shift of the heads whose use began earlier than that of the others: a drain has not covered them -/
  older : Tab (Nat × Nat) := []
  /-- passes of the open group, by head engine (R84) -/
  groupPass : Tab Nat := []
  /-- passes since the use began, by head engine: generator steps (R88) -/
  usePass : Tab Nat := []
  /-- passes issued but not yet accumulated plus passes accumulated, by head engine -/
  issuedPass : Tab Nat := []
  groups : Nat := 0
  /-- passes and rows since the last begin that is not KEEP, by head engine, those from other cores included (R82) -/
  total : Tab Nat := []
  rows : Tab Nat := []
  /-- a fallback tile: the descriptor whose preload source was not resident (R93) -/
  fallback : Option Nat := none
  /-- the descriptor that began the use, none after NEXT_ZERO -/
  desc : Option Nat := none
  eout : Int := 0
  drain : Option DrainReq := none
  /-- clip events of the use, by column (R104) -/
  clips : Tab Nat := []
  /-- drained fallback values that wait for their preload source, oldest first -/
  handed : List Handed := []
  /-- the use is picked for a shadow sample by this Lookout (R337): the passes and groups so far,
  and its begin values -/
  picked : Option Nat := none
  passes : List (Nat × EngVec) := []
  /-- cores whose group of this use has landed (R86) -/
  got : List Nat := []
  groupsIn : Tab Int := []
  start : Tab Int := []
  deriving DecidableEq, Repr

/-- A tile that nothing has begun. -/
def Tile.empty : Tile := {}

/-- The statistics record of one output column (R104). -/
structure ColStat where
  count : Nat := 0
  clips : Nat := 0
  /-- FP32 patterns -/
  min : Nat := 0
  max : Nat := 0
  /-- binary64 patterns -/
  sum : Nat := 0
  sumsq : Nat := 0
  deriving DecidableEq, Repr

/-- A statistics record's empty value. -/
def ColStat.empty : ColStat := {}

/-! ### The restorer (R108 to R134) -/

/-- A bulk load of a core's engines (R112). -/
structure BulkLoad where
  kind : BulkKind
  slot : Nat
  /-- the core whose master regions are read: itself, or the subject a Lookout mirrors -/
  source : Nat
  paused : Bool
  deriving DecidableEq, Repr

/-- What a core's restorer is doing beside its registers. -/
structure Restorer where
  sweeping : Bool := false
  /-- next visit: row and index into the engines in service -/
  row : Nat := 0
  idx : Nat := 0
  /-- start of the sweep in progress, ns -/
  started : Nat := 0
  sweeps : Nat := 0
  /-- the period was halved by the first rate-of-rise level (R122) -/
  halved : Bool := false
  /-- a first δ has been measured since reset -/
  measured : Bool := false
  bulk : Option BulkLoad := none
  /-- writing of level 0 in progress (R108) -/
  zeroing : Bool := false
  /-- completed sweeps at the time each substitution began, by engine * 64 + spare -/
  subSweep : Tab Nat := []
  /-- rows visited behind schedule beyond 0.1 T in this sweep -/
  lagged : Bool := false
  deriving DecidableEq, Repr

/-- A restorer after reset. -/
def Restorer.empty : Restorer := {}

/-! ### Cores (R135 to R163) -/

/-- Where a core stands in a model (R23, R136). -/
structure Place where
  context : Nat
  /-- MODEL_ID of the model -/
  model : Nat
  stage : Nat
  pos : Nat
  deriving DecidableEq, Repr

/-- One input vector of a stage: who it belongs to, its place in core SRAM, its bytes, and the
exponent information that floating staging needs (R72, R73). -/
structure VecIn where
  lane : Nat
  item : Nat
  index : Nat
  epoch : Nat
  addr : Nat
  bytes : List Nat
  /-- the whole stage input vector, as the entry core holds it -/
  full : List Nat
  /-- its share has landed in this core -/
  landed : Bool
  /-- its VEC entry has been taken -/
  taken : Bool
  /-- every ISSUE of its VEC entry has staged it (R167) -/
  staged : Bool
  /-- it has begun in a slot -/
  begun : Bool
  /-- its VEC entry has ended -/
  ended : Bool
  /-- every staging read ended without an uncorrectable error, so the sender was receipted (R138) -/
  acked : Bool
  /-- its output packet has been acknowledged by the next stage (R24) -/
  done : Bool
  /-- source node and packet sequence number, for the receipt -/
  src : Nat
  seq : Nat
  deriving DecidableEq, Repr

/-- Bytes in context pages: the pages that hold them, in order, and the offset of the first byte. -/
structure Paged where
  pages : List Nat
  off : Nat
  deriving DecidableEq, Repr

/-- A buffer of a core position, placed by the loader (R159, R180). -/
structure Buffer where
  buf : Nat
  cls : Nat
  size : Nat
  chunk : Nat
  /-- base of the buffer or of its two-chunk window in core SRAM -/
  base : Nat
  /-- spilled: to host memory, or to the context's DRAM spill area -/
  spilled : Bool
  host : Bool
  /-- spilled: where it begins in the pages of the spill area, or in the lane's spill buffer -/
  home : Nat
  pages : List Nat
  /-- the DRAM copy of its initial contents, none for a buffer without -/
  init : Option Paged
  /-- which chunk each window holds, none while nothing is resident -/
  win0 : Option Nat
  win1 : Option Nat
  deriving DecidableEq, Repr

/-- A chunk fetch in progress (R160). -/
structure Fetch where
  thread : Nat
  buf : Nat
  chunk : Nat
  win : Nat
  /-- the vector whose entry started it -/
  lane : Nat := 0
  item : Nat := 0
  index : Nat := 0
  /-- when it began (ns) -/
  since : Nat := 0
  deriving DecidableEq, Repr

/-- A stop, halt or step that waits for the vector boundary (R141). -/
inductive CoreReq where
  | none
  | stop
  | halt
  | stepping
  deriving DecidableEq, Repr

/-- A part of the stage's output that another N exit sent (R169): its place in elements, its
element width in bits, its elements, and its bytes. -/
structure ExitPart where
  lane : Nat
  item : Nat
  index : Nat
  part : Nat
  nOff : Nat
  bits : Nat
  elems : Nat
  bytes : List Nat
  deriving DecidableEq, Repr

/-- Count and sums of one N part of a vector (R103), binary64 patterns; `addr` is where the exit
core writes the stage's reduction record, none where the descriptor's STATS is 0. -/
structure ExitSum where
  lane : Nat
  item : Nat
  index : Nat
  part : Nat
  count : Nat
  sum : Nat
  sumsq : Nat
  addr : Option Nat
  deriving DecidableEq, Repr

/-- What a core holds beside its registers. -/
structure CoreSt where
  place : Option Place := none
  /-- cadence banks 0 and 1: entries by position, 0 (free) where not listed -/
  bank0 : Tab Nat := []
  bank1 : Tab Nat := []
  req : CoreReq := .none
  /-- input vectors, oldest first -/
  vins : List VecIn := []
  scrQueue : List RowWrite := []
  /-- the number of the next row write -/
  scrNext : Nat := 0
  /-- last write of each scratch row, ns, under se * 2048 + row -/
  scrTime : Tab Nat := []
  /-- scratch rows the core zeroed since the program last wrote them -/
  scrZeroed : List Nat := []
  buffers : List Buffer := []
  /-- consumers waiting on a chunk have been counted -/
  fetches : List Fetch := []
  /-- epilogue descriptors, 8 words each -/
  descs : Tab (List Nat) := []
  /-- activation tables: 64 entries of x_lo, slope, intercept -/
  tables : Tab (List (Nat × Nat × Nat)) := []
  stats : Tab ColStat := []
  /-- parts of N exits that have landed (R169) -/
  parts : List ExitPart := []
  /-- count and sums of its own N part, and in the exit core of the others (R103) -/
  exitSums : List ExitSum := []
  /-- SRAM words that repeat an uncorrectable error -/
  badWords : List Nat := []
  /-- tile the previous ISSUE to each engine took, for TILE 0b11 and alternation -/
  lastTile : Tab Nat := []
  /-- no slot has started since START -/
  fresh : Bool := true
  /-- next place in the receive area (R158) -/
  rxNext : Nat := 0
  /-- glade windows since the stage started, and whether the slot in progress is an odd one that no
  check has used yet (R335) -/
  glades : Nat := 0
  check : Bool := false
  deriving DecidableEq, Repr

/-- A core that holds nothing. -/
def CoreSt.empty : CoreSt := {}

/-! ### Sequencers (R164 to R170, R187) -/

/-- One loop in progress: first instruction, last instruction, runs left after this one. -/
structure LoopFrame where
  first : Nat
  last : Nat
  left : Nat
  deriving DecidableEq, Repr

/-- What a thread is running. -/
inductive Entry where
  | idle
  | init
  | vec
  | item
  deriving DecidableEq, Repr

/-- A sequencer thread (R165): its program counter, its loops, and its posted work. -/
structure Thread where
  entry : Entry := .idle
  pc : Nat := 0
  loops : List LoopFrame := []
  /-- the item and vector the entry serves -/
  lane : Nat := 0
  item : Nat := 0
  index : Nat := 0
  /-- A1 of this entry (R166) -/
  a1 : Nat := 0
  /-- sequence numbers of sends that have no receipt yet -/
  sends : List Nat := []
  /-- a verdict was published in this entry -/
  verdict : Bool := false
  /-- tiles this entry's ISSUEs took, by engine -/
  tiles : Tab Nat := []
  /-- it waits at a DRAIN whose request stands (R94) -/
  draining : Bool := false
  /-- stalled on a wait, or at the breakpoint (SEQ_STATUS) -/
  stalled : Bool := false
  atBreak : Bool := false
  deriving DecidableEq, Repr

/-- A thread that runs nothing. -/
def Thread.empty : Thread := {}

/-- An item whose ITEM entry is due (R165). -/
structure ItemDue where
  lane : Nat
  item : Nat
  index : Nat
  a1 : Nat
  counted : Bool
  deriving DecidableEq, Repr

/-- A core's stage sequencer beside its registers. -/
structure Sequencer where
  /-- program memory: instruction words by number -/
  pm : Tab Nat := []
  vec : Thread := .empty
  itm : Thread := .empty
  /-- A2 to A15; A0 reads 0 and A1 belongs to the thread -/
  regs : Tab Nat := []
  due : List ItemDue := []
  itemPc : Nat := 0
  begin0 : Nat := 0
  begin1 : Nat := 0
  digest : List Nat := []
  /-- the core joined its stage by a failover, so every WAITC completes at once (R351) -/
  joined : Bool := false
  deriving DecidableEq, Repr

/-- A sequencer without a program. -/
def Sequencer.empty : Sequencer := {}

/-! ### Models (R171 to R186) -/

/-- One column of a qualification envelope (R181): bounds as FP32 patterns, and clips per
million. -/
structure EnvCol where
  minLo : Nat
  maxHi : Nat
  meanLo : Nat
  meanHi : Nat
  varLo : Nat
  varHi : Nat
  clipPpm : Nat
  deriving DecidableEq, Repr

/-- A program record and its instructions (R177). -/
structure Program where
  stage : Nat
  pos : Nat
  len : Nat
  vecPc : Nat
  /-- none where the program has no ITEM entry -/
  itemPc : Option Nat
  itemCyc : Nat
  begin0 : Nat
  begin1 : Nat
  words : List Nat
  deriving DecidableEq, Repr

/-- A stage record (Table 7.8) and where the stage stands. -/
structure StageRec where
  stage : Nat
  cores : Nat
  kK : Nat
  kN : Nat
  entryPos : Nat
  exitPos : Nat
  slotPlanes : Nat
  last : Bool
  acceptsOther : Bool
  cadLen : Nat
  gladeEvery : Nat
  noiseClass : Nat
  passportFmt : Nat
  syncCount : Nat
  inElems : Nat
  outElems : Nat
  vecPerItem : Nat
  nextStage : Nat
  nextDevice : Nat
  /-- physical cores by position -/
  placed : List Nat
  /-- first sync counter of its block -/
  syncBase : Nat
  envelope : List EnvCol
  /-- range monitoring is off after an unload of the envelope or without one -/
  generation : Nat
  deriving DecidableEq, Repr

/-- A generation that is written and not yet switched on every stage (R125). -/
structure NextGen where
  gen : Nat
  /-- its digests have all matched -/
  ready : Bool
  rolling : Bool
  maps : List MapEnt
  digest : List Nat
  envelopes : List (List EnvCol)
  /-- descriptors and activation tables, by (stage * 8 + position) * 64 and * 4 -/
  descs : Tab (List Nat)
  tables : Tab (List (Nat × Nat × Nat))
  /-- the DRAM copy of a buffer's new contents, by (stage * 8 + position) * 256 + buffer -/
  inits : Tab Paged
  sections : Tab (List Nat)
  /-- mapping entries whose new slot the restorer has read: all, with their digests -/
  slot : Nat
  flags : Nat
  imageAt : Nat
  waiter : Option (Nat × Nat)
  report : Nat
  /-- stages already on it, and those that a stage-by-stage switch has still to take -/
  switched : List Nat
  todo : List Nat
  deriving DecidableEq, Repr

/-- A stage switching to its target cores (R127), or migrating. -/
structure Switching where
  stage : Nat
  targets : List Nat
  old : List Nat
  advanced : Bool
  /-- to the model's next generation; false: a migration -/
  toNext : Bool
  /-- targets that were Lookouts, which a failover takes back; a target that was taken back stands as 255 -/
  looks : List Nat
  deriving DecidableEq, Repr

/-- Where a model stands. -/
inductive ModelState where
  /-- the loader has placed it and step 8 of R182 runs -/
  | starting
  | loaded
  | unloading
  deriving DecidableEq, Repr

/-- A loaded model. -/
structure Model where
  context : Nat
  id : Nat
  gen : Nat
  slot : Nat
  state : ModelState
  stages : List StageRec
  maps : List MapEnt
  programs : List Program
  /-- master region of each mapping entry, in table order -/
  regions : List Nat
  expected : List Nat
  digest : List Nat
  /-- tiles that have completed a sweep since the model digest was last formed -/
  swept : List Nat
  next : Option NextGen
  switching : Option Switching
  unshielded : Bool
  /-- the DIGEST of each section of its image, by type (R185, R372) -/
  sections : Tab (List Nat)
  /-- its image was ENCRYPTED -/
  encrypted : Bool
  /-- the context pages that hold its copies and spill areas -/
  pages : List Nat
  /-- the DRAM copies of its programs, by stage * 8 + position -/
  copies : Tab Paged
  /-- the command that waits for the load's end: function, ring, descriptor number -/
  waiter : Option (Nat × Nat × Nat)
  /-- the pool of R172 when it was placed, for the load report -/
  report : Nat
  flags : Nat
  /-- offset in the load area at which its image still stands (R357) -/
  imageAt : Option Nat
  /-- a peer device's digest differs and verification runs (R358) -/
  verifying : Bool
  /-- the lowest-numbered stage registered on a peer device, by device (R323) -/
  peerStages : Tab Nat
  /-- sweeps that the model's cores had completed when its digest was last formed (R329) -/
  sweptAt : Nat
  /-- a core into which a write of the load failed (R182) -/
  failed : Option Nat := none
  deriving DecidableEq, Repr

/-! ### Fabric and DRAM (R189 to R205) -/

/-- Packet types (Table 8.2). -/
inductive PktType where
  | vector
  | kpart
  | exitPart
  | group
  | memRead
  | memWrite
  | readData
  | receipt
  | signal
  | epochClose
  | control
  /-- the Canopy types 0x10 to 0x13 (R315) -/
  | retraction
  | digest
  | counterOp
  | binding
  deriving DecidableEq, Repr

/-- One message on the fabric (R192): its header fields, its payload, and the model's own number
for it. -/
structure Packet where
  key : Nat := 0
  typ : PktType := .control
  src : Nat := 0
  dst : Nat := 0
  context : Nat := 0
  model : Nat := 0
  stage : Nat := 0
  epoch : Nat := 0
  eout : Int := 0
  lane : Nat := 0
  item : Nat := 0
  vseq : Nat := 0
  nOff : Nat := 0
  addr : Nat := 0
  len : Nat := 0
  payload : List Nat := []
  /-- group transfer: column and value, and what comes with them: passes and rows by head, clips by column -/
  cols : List (Nat × Int) := []
  counts : List (Nat × Nat × Nat) := []
  clips : Tab Nat := []
  /-- exit part: its sums (R103), and its element width in bits -/
  sums : List ExitSum := []
  elemBits : Nat := 0
  nack : Bool := false
  retx : Bool := false
  /-- receipt, read data: the key of the packet it answers -/
  ref : Nat := 0
  /-- the packet came from, or goes to, a peer device over Canopy -/
  remote : Bool := false
  /-- the peer device it goes to or comes from, and the stage there -/
  dev : Nat := 0
  dstStage : Nat := 0
  /-- when it was posted, ns -/
  sentNs : Nat := 0
  /-- the thread that posted it, for FENCE: core * 2 + thread -/
  thread : Option Nat := none
  deriving DecidableEq, Repr

/-- A packet with nothing in it. -/
def Packet.empty : Packet := {}

/-- What a receiver knows of a stage's placement epochs (R196 to R198). -/
structure EpochSt where
  cur : Nat
  prevOpen : Bool
  /-- old cores whose epoch close has not arrived -/
  waiting : List Nat
  deriving DecidableEq, Repr

/-- An entry of the page table (R199, R200): owner (0 to 31, 0x3E system, 0x3F free), use, key
generation, and for context pages the page's index in its area. -/
structure PageEnt where
  owner : Nat
  use : Nat
  keygen : Nat
  index : Nat
  /-- free only once a scrub has completed (R379) -/
  scrub : Bool
  deriving DecidableEq, Repr

/-- The fabric and the memory controllers. -/
structure Fabric where
  /-- packets under way, oldest first -/
  net : List Packet := []
  /-- packets a sender keeps until their receipt (R195) -/
  held : List Packet := []
  /-- packets that wait at the Canopy node for their port (R315) -/
  canopy : List Packet := []
  nextKey : Nat := 1
  /-- epochs by stage key: what the stage's exit core knows, for exit parts and group transfers -/
  epochs : Tab EpochSt := []
  /-- what the following stage's entry core knows, for vector packets -/
  entries : Tab EpochSt := []
  /-- K parts, exit parts and group transfers whose first failure has been treated (Table 8.3) -/
  struck : List Packet := []
  /-- VC0 flits sent, and still under way, since the counters were cleared (R203) -/
  vc0 : Nat := 0
  /-- page table by page number; a page not listed is free, or belongs to its fixed region -/
  pages : Tab PageEnt := []
  /-- master region bound to engine core * 32 + e (R200) -/
  bound : Tab Nat := []
  /-- credit left in the round and measured use, by class of Table 8.5 -/
  credit : Tab Nat := []
  used : Tab Nat := []
  /-- spill traffic of the last millisecond: when, and bytes -/
  traffic : List (Nat × Nat) := []
  /-- patrol scrubber position: page -/
  patrol : Nat := 0
  deriving DecidableEq, Repr

/-- A fabric that carries nothing. -/
def Fabric.empty : Fabric := {}

/-! ### Rings and reads of host memory (R235 to R250) -/

/-- A descriptor that the device has taken (R238). -/
structure Taken where
  number : Nat
  /-- its 64 bytes, empty while they have not arrived -/
  bytes : List Nat
  takenNs : Nat
  /-- the checks of R241 have passed -/
  checked : Bool
  /-- the command's own steps have begun -/
  started : Bool
  released : Bool
  /-- it still reserves a completion slot -/
  slot : Bool
  /-- for a command of a management session: the bytes that came with it, and those that its reply
  returns (R396) -/
  input : List Nat
  output : List Nat
  /-- TAG of that session's message -/
  mtag : Nat
  /-- untaken when its lane was released: it completes with 0x67 once its bytes are there (R241) -/
  flushed : Bool := false
  /-- its function was reset while it ran: it runs to its end, and what it writes is discarded (R250) -/
  orphan : Bool := false
  deriving DecidableEq, Repr

/-- A ring pair beside its registers: key function * 128 + ring; function 33 holds the command
descriptors of management sessions (R396). -/
structure Ring where
  taken : List Taken := []
  /-- the peer window: address and length (R247) -/
  window : Option (Nat × Nat) := none
  /-- its translations are in force -/
  windowOk : Bool := false
  /-- pending completions: CQ_TAIL after each, and when it was written (R246) -/
  irq : List (Nat × Nat) := []
  /-- last head write-back, ns -/
  wroteHead : Nat := 0
  /-- an advance of SQ_HEAD waits for its write-back -/
  headDue : Bool := false
  deriving DecidableEq, Repr

/-- A ring that nothing has used. -/
def Ring.empty : Ring := {}

/-- What an outstanding read of host or peer memory is for. -/
inductive ReadFor where
  /-- the descriptor of a ring with a take number -/
  | desc (ring number : Nat)
  /-- bytes of the input of the item in a context record, from an offset on -/
  | input (record off : Nat)
  /-- an input read again for the entry core (R249) -/
  | again (record off : Nat)
  /-- bytes of a command's source -/
  | source (ring number : Nat)
  /-- a spill chunk in host memory -/
  | chunk (core buf win : Nat)
  deriving DecidableEq, Repr

/-- An outstanding read of host or peer memory. -/
structure HostRead where
  tag : Nat
  func : Nat
  addr : Nat
  len : Nat
  use : ReadFor
  /-- it has failed once and been repeated -/
  again : Bool
  peer : Bool
  deriving DecidableEq, Repr


/-- How a function identifies itself on PCI Express (R10). -/
structure PciId where
  vendor : Nat
  device : Nat
  cls : Nat
  revision : Nat
  deriving DecidableEq, Repr

/-! ### Items (R220 to R228) -/

/-- Context states (Table 9.6). -/
inductive ItemState where
  | created
  | running
  | formed
  | sent
  | withheld
  | retracted
  deriving DecidableEq, Repr

/-- Where an item's input came from and where its completion goes. -/
structure Origin where
  /-- function and ring of the descriptor; `canopy` for a Canopy-input lane -/
  func : Nat
  ring : Nat
  tag : Nat
  inAddr : Nat
  inLen : Nat
  outAddr : Nat
  outLen : Nat
  canopy : Bool
  peer : Bool
  /-- descriptor number, for the order of completions and releases -/
  number : Nat
  deriving DecidableEq, Repr

/-- One item context record (Table 9.5), and what the item's delivery needs. -/
structure ItemCtx where
  item : Nat
  lane : Nat
  state : ItemState
  trig : Bool
  input : Bool
  cpl : Bool
  indexed : Bool
  trigger : Nat
  encoder : Nat
  verdict : Nat
  confidence : Nat
  trigPos : Nat
  accept : Nat
  lseq : Nat
  feature : List Nat
  due : List Nat
  /-- placement epoch by place of the stage in the lane's chain -/
  epochs : Tab Nat
  origin : Option Origin
  /-- input bytes still to arrive -/
  inLeft : Nat
  /-- when the item was accepted, when its verdict was formed (ns) -/
  acceptNs : Nat
  formedNs : Nat
  /-- position at or beyond which the context closes (R224) -/
  closing : Nat
  /-- events of Table 14.7 that the item has met -/
  faults : Nat
  /-- its OUTH bytes and its delivery have been accounted for -/
  delivered : Bool
  /-- the lane was unshielded when the item was accepted -/
  unshielded : Bool
  /-- its lane has field outputs, also once the lane is freed (R218, R224) -/
  field : Bool := false
  /-- the host was slow with it: a slow read, a link at a lower rate or width, or a host spill stream (R210, cause 4) -/
  slow : Bool := false
  deriving DecidableEq, Repr

/-! ### Lanes (R206 to R219) -/

/-- One stage of an admitted lane's chain: its entries, W, and S and h rounded up to ns. -/
structure LaneStage where
  stage : Nat
  entries : List Nat
  w : Nat
  s : Nat
  h : Nat
  deriving DecidableEq, Repr

/-- A lane's contract (Table 9.1) and where the lane stands beside its registers. -/
structure Lane where
  ref : Bool := false
  field : Bool := false
  cpl : Bool := false
  thermal : Bool := false
  shield : Bool := false
  src : Bool := false
  context : Nat := 0
  encoder : Nat := 0
  first : Nat := 0
  last : Nat := 0
  model : Nat := 0
  period : Nat := 0
  service : Nat := 0
  deadline : Nat := 0
  fmax : Nat := 0
  pitch : Nat := 0
  travel : Nat := 0
  submit : Nat := 0
  inBytes : Nat := 0
  outBytes : Nat := 0
  inRate : Nat := 0
  outRate : Nat := 0
  /-- host spill buffer: address and bytes -/
  spillAddr : Nat := 0
  spillLen : Nat := 0
  /-- the item ring it is bound to -/
  ring : Option Nat := none
  unshielded : Bool := false
  chain : List LaneStage := []
  /-- H_lane and C_lane (R214) -/
  hCount : Nat := 0
  cCount : Nat := 0
  /-- an admission that waits for the peer's binding reply (R318): ring key, take number, contract
  and when the query left -/
  asked : Option (Nat × Nat × List Nat × Nat) := none
  /-- stages whose bank switch the admission or release still awaits -/
  switches : List Nat := []
  /-- the command that awaits the admission or the release: ring key and take number -/
  waiter : Option (Nat × Nat) := none
  lastTake : Option Nat := none
  /-- number of items accepted since admission -/
  lseq : Nat := 0
  /-- vectors of the lane discarded at a bank switch (R145) -/
  discarded : Nat := 0
  /-- items begun since admission: identifier and time -/
  begun : List (Nat × Nat) := []
  /-- packets of items not yet taken that wait in a Canopy-input lane's receive queue -/
  queue : List Packet := []
  /-- the peer device that feeds a Canopy-input lane, and that the lane's last stage feeds -/
  peerIn : Option Nat := none
  peerOut : Option (Nat × Nat) := none
  /-- last item whose first packet left for the peer (R318) -/
  outItem : Option Nat := none
  /-- item credits left towards the peer (R318) -/
  credits : Nat := 0
  deriving DecidableEq, Repr

/-- A lane that nothing has admitted. -/
def Lane.empty : Lane := {}


/-! ### The barrier link (R258 to R263) -/

/-- A message-bearing frame as its sender keeps it: number and up to seven 16 B messages. -/
structure BarFrame where
  seq : Nat
  msgs : List (List Nat)
  deriving DecidableEq, Repr

/-- One side of the barrier link. -/
structure BarSide where
  /-- SEQ of its next new frame, and of the next frame it expects -/
  next : Nat := 0
  expect : Nat := 0
  /-- frames not yet acknowledged, oldest first, and how many of them the wire has yet to carry -/
  unacked : List BarFrame := []
  resend : Nat := 0
  /-- messages handed over and not yet in a frame -/
  queue : List (List Nat) := []
  /-- NAK goes into its next frame; a gap is open that has been answered -/
  nak : Bool := false
  gap : Bool := false
  /-- messages received and not yet acted on -/
  inbox : List (List Nat) := []
  /-- consecutive bad frames -/
  bad : Nat := 0
  /-- last valid frame, last heartbeat, last progress of ACK, ns -/
  heard : Nat := 0
  beat : Nat := 0
  acked : Nat := 0
  /-- its own heartbeat count -/
  beats : Nat := 0
  deriving DecidableEq, Repr

/-- A side after training. -/
def BarSide.empty : BarSide := {}

/-- A command that waits while the host section reads FLD_LANE_STATUS of its lane (R215): its ring and number, the
lane, and for an ADMIT its contract with the peer that the lane's last stage is bound to, the lane there and
its credits. -/
structure FieldAsk where
  ring : Nat
  number : Nat
  lane : Nat
  contract : Option (List Nat)
  peer : Option (Nat × Nat × Nat)
  deriving DecidableEq, Repr

/-- A proxied read in progress (R281), by a function, for a REG_READ of a management session, or by the host section
itself. -/
structure ProxyRead where
  func : Nat
  /-- field address -/
  addr : Nat
  tag : Nat
  /-- when it was sent, ns -/
  since : Nat
  /-- session and TAG of a REG_READ, the words still to read after this one, and those read so far -/
  sess : Option (Nat × Nat)
  more : Nat
  got : List Nat
  own : Option FieldAsk := none
  deriving DecidableEq, Repr

/-- The barrier link, and the host section's side of the gateway. -/
structure Barrier where
  up : Bool := false
  host : BarSide := .empty
  field : BarSide := .empty
  /-- when the link went down, ns -/
  downAt : Nat := 0
  /-- the host section holds the field section present -/
  fieldHere : Bool := false
  /-- reset generation and state the field section last reported -/
  fieldGen : Nat := 0
  fieldState : Nat := 0
  /-- the host section's own reset generation and state -/
  hostGen : Nat := 0
  hostState : Nat := 0
  /-- host copies of the lane field records and of other field registers, by address (R266) -/
  copies : Tab Nat := []
  /-- encoder positions last reported -/
  positions : Tab Nat := []
  /-- proxied reads without reply, oldest first -/
  proxy : List ProxyRead := []
  proxyTag : Nat := 0
  /-- a proxied write was lost since the last proxied read (R281) -/
  lostWrite : Bool := false
  /-- the field section has reported its reset generation -/
  fieldKnown : Bool := false
  deriving DecidableEq, Repr

/-- A link that is down. -/
def Barrier.empty : Barrier := {}


/-! ### The field section (R254 to R301) -/

/-- A trigger that the field controller keeps: an item record (R268), or an entry of the trigger
FIFO while the firmware restarts (R406), which has no identifier. -/
structure FieldRec where
  lane : Nat
  /-- the lane's trigger count, which gives slot and TAG (R275) -/
  n : Nat
  pos : Nat
  item : Option Nat
  /-- the code in effect, once a verdict or the cutoff has given one -/
  code : Option Nat := none
  /-- outputs on which an actuation of the item was enqueued, and outputs whose due position has
  been commanded -/
  enq : Nat := 0
  reached : Nat := 0
  /-- the host's reset generation when the record was made (R280) -/
  hostGen : Nat := 0
  deriving DecidableEq, Repr

/-- One entry of a reject output's queue (R270). -/
structure RejEntry where
  enc : Nat
  on : Nat
  off : Nat
  lane : Nat
  /-- its on command has been made -/
  started : Bool := false
  deriving DecidableEq, Repr

/-- A reject output beside its registers. -/
structure RejOut where
  queue : List RejEntry := []
  /-- since when the output is on, ns -/
  since : Option Nat := none
  /-- MAX_ON_US switched it off -/
  maxed : Bool := false
  /-- it follows its host-absent policy, and the level it had when it took it -/
  policy : Bool := false
  held : Bool := false
  deriving DecidableEq, Repr

/-- An analogue output beside its registers (R294 to R298). -/
structure AnaOut where
  /-- a code that waits -/
  waiting : Option Nat := none
  /-- when the last update was applied, and when its deglitch hold ends, ns -/
  last : Option Nat := none
  hold : Option Nat := none
  /-- span change: when its step 2 was made, the new span, and whether step 3 is past -/
  change : Option (Nat × Nat × Bool) := none
  /-- spans of later commits queued behind it -/
  queued : List Nat := []
  /-- the span in force -/
  span : Nat := 7
  /-- the host-absent policy holds the output -/
  policy : Bool := false
  deriving DecidableEq, Repr

/-- Where the field firmware stands (R402 to R406): running, restarting from the trial slot, or
restarting from its previous slot. -/
inductive FieldFw where
  | running
  | restarting
  | back
  deriving DecidableEq, Repr

/-- Which block a commit of the field section is of. -/
inductive FieldCommit where
  | policy (nv : Bool)
  | bounds
  | spans (nv : Bool)
  deriving DecidableEq, Repr

/-- The field section beside its registers. -/
structure FieldSec where
  /-- the field supply stands and no brown-out holds; FRST_N is low; READY was reported -/
  supply : Bool := false
  frst : Bool := false
  ready : Bool := false
  /-- a field event waits to report the last brown-out -/
  brown : Bool := false
  /-- identifier counter [39:0] (R265) -/
  next : Nat := 0
  /-- triggers since enable, by lane -/
  counts : Tab Nat := []
  recs : List FieldRec := []
  outs : Tab RejOut := []
  /-- the verdict table by slot (Table 11.8) -/
  vt : Tab Nat := []
  /-- non-volatile values by `Fld.key`; unlisted ones are as the field map's reset -/
  nv : Tab Nat := []
  /-- non-volatile writes in progress: kind and values (R282, R292, R297) -/
  nvWrites : List (Nat × Tab Nat) := []
  /-- general output levels last set, outputs that keep their policy level, and the levels they
  had when it took effect -/
  gpo : Nat := 0
  gpoPolicy : Bool := false
  gpoHeld : Nat := 0
  /-- the host is held present; its reset generation and state as last reported -/
  hostHere : Bool := false
  hostGen : Nat := 0
  hostState : Nat := 0
  /-- events that wait for the link, and how many were dropped (R283) -/
  events : List (List Nat) := []
  dropped : Nat := 0
  /-- rate-limited events: time of the last one by code and instance, and the one held back with
  its occurrences -/
  lastEv : Tab Nat := []
  heldEv : Tab (List Nat × Nat) := []
  fw : FieldFw := .running
  /-- the firmware command whose restart is in progress -/
  fwCmd : Nat := 0
  /-- the field controller's own firmware slots (R402): image bytes by slot, the slots that hold what was shipped,
  the active slot, whether the other one runs in trial, and the anti-rollback counter -/
  fwSlots : Tab (List Nat) := []
  fwShipped : List Nat := [0]
  fwSlot : Nat := 0
  fwTrial : Bool := false
  fwSvn : Nat := 0
  /-- commits that wait while the field firmware restarts (R406), with the values that were staged when
  each was written: what is staged after it takes effect with a later one (R16) -/
  commits : List (FieldCommit × Tab Nat) := []
  /-- the entry each loop of the sequencer converts, the completed-loop counts being registers -/
  loopA : Option Nat := none
  loopB : Option Nat := none
  /-- disarmed window comparators -/
  disarmed : List Nat := []
  /-- when self-calibration began, ns -/
  calStart : Option Nat := none
  aos : Tab AnaOut := []
  deriving DecidableEq, Repr

/-- A field section without supply. -/
def FieldSec.empty : FieldSec := {}

/-! ### The housekeeping monitor and the host's analogue setpoints (R294, R299 to R301) -/

/-- The host section's side of the analogue blocks, beside its registers. -/
structure Hk where
  /-- setpoint message that waits for its 1 µs spacing: mask and codes; time of the last one, ns -/
  aosp : Option (Nat × List Nat) := none
  aospLast : Option Nat := none
  /-- last monitor report received, ns -/
  monitor : Option Nat := none
  /-- disarmed window comparators, by channel -/
  disarmed : List Nat := []
  /-- the entry each loop converts -/
  loopA : Nat := 0
  loopB : Nat := 1
  /-- which loops have completed since the last round -/
  doneA : Bool := false
  doneB : Bool := false
  /-- when the last entry result came, ns -/
  fresh : Nat := 0
  /-- the 100 ms window in progress (Table 15.5), the sums and counts of its samples, and the means over
  the last complete one: VALUE under the channel, GLB_PWR_MW under 128, TJ under 129 + core, RISE
  under 161 + core, RAW under 256 + channel -/
  window : Nat := 0
  sums : Tab (Int × Nat) := []
  means : Tab Int := []
  deriving DecidableEq, Repr

/-- A monitor that has converted nothing. -/
def Hk.empty : Hk := {}


/-! ### Sync counters (R322 to R327) -/

/-- A claim or a wait that a counter has queued: who asked, the amount or target, and for a core's
INIT thread its core. -/
structure CtrWait where
  dev : Nat
  node : Nat
  context : Nat
  tag : Nat
  index : Nat
  amount : Nat
  claim : Bool
  core : Option Nat
  deriving DecidableEq, Repr

/-- The counter unit beside its registers: queues by counter number, sealed counters from 16,384;
the tags of the last 64 ADDs applied from each origin node. -/
structure Sync where
  waits : Tab (List CtrWait) := []
  seen : Tab (List Nat) := []
  deriving DecidableEq, Repr

/-- A counter unit that nothing waits on. -/
def Sync.empty : Sync := {}

/-! ### Canopy ports (R305 to R317, R384) -/

/-- The keys of a link: this end's transmit and receive keys with their salts, and the generation. -/
structure LinkKey where
  tx : List Nat
  txSalt : List Nat
  rx : List Nat
  rxSalt : List Nat
  gen : Nat
  deriving DecidableEq, Repr

/-- A Canopy port beside its registers. -/
structure CnpPort where
  /-- physical training has ended and the INIT exchange runs -/
  trained : Bool := false
  /-- flits to send, by credit index (Table 13.4) -/
  queues : Tab (List (List Nat)) := []
  /-- data frames not yet acknowledged, by number, as they were sent -/
  unacked : List (Nat × List Nat) := []
  /-- data frames sent and received in order since the port came up; SEQ is the count modulo 2^24 -/
  sent : Nat := 0
  received : Nat := 0
  /-- idle frames sent and received under the key -/
  idleOut : Nat := 0
  idleIn : Nat := 0
  /-- idle frames received under the key before it -/
  idleOld : Nat := 0
  /-- NAK goes into the next frame; the gap has been answered -/
  nak : Bool := false
  gap : Bool := false
  /-- the next frame has an ACK to carry -/
  ackDue : Bool := false
  /-- credit held, and returns owed, by credit index -/
  credit : Tab Nat := []
  owed : Tab Nat := []
  /-- flits received that do not yet make a whole packet, by credit index -/
  rx : Tab (List (List Nat)) := []
  key : Option LinkKey := none
  prev : Option LinkKey := none
  /-- the keying in progress: own secret number and offer, and the peer's offer -/
  secret : Nat := 0
  mine : Option KeyOffer := none
  theirs : Option KeyOffer := none
  /-- times of authentication failures in the last millisecond -/
  authFails : List Nat := []
  /-- frames in a row that failed -/
  bad : Nat := 0
  /-- last progress of ACK, last keying, fencing: ns -/
  ackNs : Nat := 0
  keyedNs : Nat := 0
  fencedNs : Nat := 0
  /-- when the next frame may leave, ps, and the frame positions so far (R310) -/
  nextPs : Nat := 0
  turn : Nat := 0
  deriving DecidableEq, Repr

/-- A port that is down. -/
def CnpPort.empty : CnpPort := {}

/-- The Canopy block. -/
structure Cnp where
  ports : Tab CnpPort := []
  /-- STOP has not been given since the last START -/
  running : Bool := false
  /-- cages that report a fault -/
  faulty : List Nat := []
  /-- segments of messages that arrive in several packets: origin device, node and tag to the next SEG
  and the bytes so far -/
  parts : Tab (Nat × List Nat) := []
  /-- when model digests were last sent, ns -/
  digestNs : Nat := 0
  deriving DecidableEq, Repr

/-- A Canopy block at rest. -/
def Cnp.empty : Cnp := {}

/-! ### Reliability (R334 to R361) -/

/-- A shadow sample (R337). -/
structure Sample where
  lookout : Nat
  core : Nat
  tile : Nat
  /-- engines and the vectors staged in them, in pass order -/
  passes : List (Nat × EngVec)
  seed : Nat
  shift : Nat
  /-- begin values and the groups received from other cores, by column -/
  start : Tab Int
  groups : Tab Int
  /-- the subject's drained values by column -/
  drained : Tab Int
  /-- a side clipped, saturated or ran uncalibrated -/
  spoiled : Bool
  lane : Nat
  item : Nat
  /-- the Lookout's values, once it has compared -/
  mirror : Tab Int
  deriving DecidableEq, Repr

/-- One of the two Lookouts beside REL_LOOKOUT. -/
structure Lookout where
  /-- placement rank of its last ordinary subject plus one, 0 for none, and ordinary steps since the
  last inserted one -/
  pos : Nat := 0
  steps : Nat := 0
  /-- the step in progress was inserted for a suspect -/
  inserted : Bool := false
  dwellStart : Nat := 0
  comparable : Nat := 0
  failed : Bool := false
  /-- the suspects it has mirrored in inserted steps, and the placement epoch of its subject -/
  turn : Nat := 0
  epoch : Nat := 0
  /-- the context whose weights its cells hold, if any (R28) -/
  ctx : Option Nat := none
  deriving DecidableEq, Repr

/-- A Lookout that has made no step. -/
def Lookout.empty : Lookout := {}

/-- A failover in progress (R351). -/
structure Failover where
  core : Nat
  lookout : Nat
  context : Nat
  model : Nat
  stage : Nat
  pos : Nat
  /-- the Lookout holds the stage's weights and code -/
  loaded : Bool
  deriving DecidableEq, Repr

/-- A column's windows in the range monitor (R343, R344). -/
structure RangeCol where
  /-- start of the window in progress and of the first of the violations in a row, ns -/
  since : Nat
  first : Nat
  viol : Nat
  /-- its record was reset under R157 in this window -/
  skip : Bool
  deriving DecidableEq, Repr

/-- A repair of a convicted master in progress (R357). -/
structure Repairing where
  core : Nat
  engine : Nat
  /-- the context's load area no longer holds the image -/
  waiting : Bool
  /-- when the conviction came, ns -/
  since : Nat
  deriving DecidableEq, Repr

/-- A barrier retraction whose results are still to come (R354): its fault, the next record's SEQ, the
64 header bytes of its records, and the entries its results have added. -/
structure Retracting where
  fault : Nat
  seq : Nat
  hdr : List Nat
  lane : Nat
  entries : List (List Nat) := []
  deriving DecidableEq, Repr

/-- The reliability controller. -/
structure Rel where
  samples : List Sample := []
  /-- samples returned to their subjects (R339) -/
  returned : List Sample := []
  lookouts : Tab Lookout := []
  /-- suspect cores, oldest first -/
  suspects : List Nat := []
  /-- end of the last clean window: by core * 4 + kind (0 dwell, 1 known-answer run), and by
  4096 + core * 64 + engine for the last sweep with a matching digest, ns -/
  clean : Tab Nat := []
  /-- known-answer kernels that differed once and run again: core to kernel -/
  katAgain : Tab Nat := []
  /-- known-answer windows used in the run on a core; the core whose turn it is; an asked run -/
  katWindows : Tab Nat := []
  katCore : Nat := 0
  katAsked : Option Nat := none
  /-- a digest has differed in the run in progress -/
  katFail : Bool := false
  ranges : Tab RangeCol := []
  failovers : List Failover := []
  repairs : List Repairing := []
  /-- the fault record ring: 256 bytes by slot (R359) -/
  faults : Tab (List Nat) := []
  nextFault : Nat := 0
  /-- barrier retractions whose results are still to come, oldest first -/
  retracting : List Retracting := []
  /-- packets whose epoch lay ahead, which no correct sender issues (R196): source and destination node -/
  aheads : List (Nat × Nat) := []
  /-- last uncorrectable memory error of a core's bank, by core * 64 + bank, ns -/
  bankUe : Tab Nat := []
  /-- second failures by route, source * 64 + destination -/
  routes : Tab Nat := []
  /-- retractions sent to peers so far, and the numbers applied by origin device -/
  retractions : Nat := 0
  applied : Tab Nat := []
  /-- places of REL_LOOKOUT whose recorded core has yet to take the role after a full reset (R26) -/
  lookDue : List Nat := []
  deriving DecidableEq, Repr

/-- A reliability controller that has seen nothing. -/
def Rel.empty : Rel := {}


/-! ### The Keep (R362 to R387) -/

/-- A load that waits for its weights key (R376): the load area offset of its image, the command
that waits, and what binds the answer to the request. -/
structure PendLoad where
  off : Nat
  perm : Bool
  ring : Nat
  number : Nat
  model : Nat
  gen : Nat
  keyId : Nat
  /-- the secret number of the load key L, and REPORT_DATA -/
  secret : Nat
  data : List Nat
  /-- the signed release request -/
  request : List Nat
  since : Nat
  deriving DecidableEq, Repr

/-- Why a context passes a frame boundary (R380). -/
inductive FrameWhy where
  /-- a model switches to its ready generation, in a stage or in all: 0 for all (R126, R127) -/
  | switch (model stage : Nat)
  /-- the context leaves for another (R382) -/
  | swap
  /-- the epoch window of a stage (R198) -/
  | epoch
  /-- new microcode for a core (R405) -/
  | microcode (core : Nat)
  deriving DecidableEq, Repr

/-- A weights key (R376): context, model, generation and 32 bytes. -/
structure WeightsKey where
  context : Nat
  model : Nat
  gen : Nat
  key : List Nat
  nonce : List Nat
  deriving DecidableEq, Repr

/-- A context's definition in non-volatile memory (R367): its CONFIDENTIAL flag, and its enrolled
signing keys by slot, KEY_ID and public key. -/
structure CtxDef where
  conf : Bool
  keys : Tab (Nat × List Nat)
  deriving DecidableEq, Repr

/-- Who sent a mailbox command or an attestation request. -/
inductive KeepFrom where
  /-- the Keep mailbox registers -/
  | mailbox
  /-- a management session, with the TAG of its message -/
  | session (id tag : Nat)
  /-- SPDM on the PF's mailbox -/
  | spdm
  deriving DecidableEq, Repr

/-- An attestation request that waits for the end of settling (R373). -/
structure AttReq where
  ctx : Nat
  nonce : List Nat
  data : List Nat
  by' : KeepFrom
  since : Nat
  deriving DecidableEq, Repr

/-- A mailbox command that waits for the Keep's restart (R403). -/
structure KeepAsk where
  by' : KeepFrom
  cmd : Nat
  ctx : Nat
  input : List Nat
  deriving DecidableEq, Repr

/-- Why the device is settling (R373). -/
inductive Settle where
  | activation
  | core (core : Nat)
  | management
  | field
  | switching (context model : Nat)
  deriving DecidableEq, Repr

/-- A core that a hand-over bleeds (R381): when its bleed began, how often it failed, and the context
it still counts as belonging to. -/
structure Bleed where
  since : Nat
  fails : Nat
  context : Nat
  deriving DecidableEq, Repr

/-- A swap in progress (R382): the context that leaves, the one that enters, who asked, and whether
the frame boundary has passed. -/
structure Swap where
  leave : Nat
  enter : Nat
  by' : KeepFrom
  left : Bool
  /-- the entering context's cores are loading -/
  entering : Bool
  deriving DecidableEq, Repr

/-- A context that is being destroyed (R383), and who asked; none for a TDISP request or a function
level reset. -/
structure Destroy where
  context : Nat
  by' : Option KeepFrom
  deriving DecidableEq, Repr

/-- The Keep beside its registers. -/
structure Keep where
  /-- TDI state by VF: 0 CONFIG_UNLOCKED, 1 CONFIG_LOCKED, 2 RUN, 3 ERROR (R368) -/
  tdi : Tab Nat := []
  /-- loads that wait for a key release, by context -/
  pend : Tab PendLoad := []
  wkeys : List WeightsKey := []
  /-- frame boundaries asked for, by context -/
  frames : Tab (List FrameWhy) := []
  /-- the definitions of contexts -/
  defs : Tab CtxDef := []
  /-- attestation requests that wait, oldest first -/
  queue : List AttReq := []
  /-- commands that wait for the Keep's restart, oldest first -/
  waiting : List KeepAsk := []
  /-- why the device is settling -/
  settle : List Settle := []
  /-- contexts whose key rotates, and the time of each context's last rotation, ns -/
  rot : List Nat := []
  rotated : Tab Nat := []
  /-- cores whose start waits for its seed while the Keep restarts (R403) -/
  starts : List Nat := []
  /-- cores that bleed -/
  bleed : Tab Bleed := []
  swap : Option Swap := none
  /-- models of contexts that are swapped out, with the state of each core position by
  (stage * 8 + position), and the pages that hold their masters -/
  parked : List (Model × List (Nat × CoreSt)) := []
  destroy : List Destroy := []
  /-- cores that a frame boundary has stopped and the next frame starts again, with the state they had -/
  resume : Tab Nat := []
  /-- the secret numbers drawn so far name keys: the attestation key of this boot, and the device
  identity key's number -/
  ak : Nat := 0
  /-- the SPDM session that carries IDE_KM has keyed a VF's stream, by VF -/
  ide : List Nat := []
  deriving DecidableEq, Repr

/-- A Keep with no context. -/
def Keep.empty : Keep := {}

/-! ### Power and temperature (R414 to R433) -/

/-- Thermal control, the supplies and the orderly stop, beside their registers. -/
structure Power where
  /-- the array clock runs at its guardbanded rate (R423) -/
  slow : Bool := false
  /-- cores beyond the guardband (R428) -/
  guard : List Nat := []
  /-- housekeeping rounds kept for the rates of rise: end of the round and channel codes -/
  rounds : List (Nat × Tab Int) := []
  /-- since when every rise that a level watches has stayed below half its threshold, by level,
  ns + 1 -/
  below : Tab Nat := []
  /-- since when a guarded core's sensors have stayed low, by core, ns + 1 -/
  cool : Tab Nat := []
  /-- lanes that thermal control suspended -/
  suspended : List Nat := []
  /-- the orderly stop in progress: cause, when its drain ends, ns -/
  stop : Option (Nat × Nat) := none
  /-- module power has been above 300 W -/
  overpower : Bool := false
  /-- since when mean power has stayed below 290 W, ns + 1 -/
  coolPower : Nat := 0
  /-- slot power is good; the host section is powered -/
  slotPower : Bool := false
  /-- the PCIe link is up -/
  linkUp : Bool := false
  /-- the thermal trip has switched the rails off, until slot power is removed (R431) -/
  trip : Bool := false
  /-- the latch by which the next start reports a trip -/
  tripped : Bool := false
  /-- the supply or the sense code was found insufficient at the last start (R414) -/
  limited : Bool := false
  /-- working cores that are reset once they have left their stage (R420) -/
  resetting : List Nat := []
  deriving DecidableEq, Repr

/-- A module without slot power. -/
def Power.empty : Power := {}


/-! ### Management (R388 to R413) -/

/-- An open management session (R389 to R392). -/
structure Session where
  id : Nat
  /-- trust anchor slot, 255 for a client of an unclaimed module -/
  anchor : Nat
  role : Nat
  /-- the client's public key -/
  key : List Nat
  /-- the first message must be CLAIM -/
  claiming : Bool
  lastMsg : Nat
  /-- next SEQ to push and the block mask -/
  sub : Option (Nat × Nat)
  /-- next fault record number to push -/
  faultNext : Nat
  /-- telemetry period in ms, 0 for none -/
  period : Nat
  /-- microsecond count of the last telemetry record plus one -/
  teleAt : Nat
  /-- items delivered and late per lane at the last telemetry record -/
  teleItem : Tab Nat
  teleLate : Tab Nat
  deriving DecidableEq, Repr

/-- The module EEPROM (R460), which no command of the host writes: MAC address, static management addresses (R388) and
layout revision of the bracket (Table 20.1).  What a module holds differs from one to the next (log entry 4). -/
structure Eeprom where
  mac : Nat := 0
  addrs : List Nat := []
  layout : Nat := 0
  deriving DecidableEq, Repr

/-- An enrolled trust anchor (R390). -/
structure Anchor where
  role : Nat
  key : List Nat
  deriving DecidableEq, Repr

/-- Where an activation stands (R403, R404). -/
inductive ActPhase where
  | restarting
  | trial
  | backing
  deriving DecidableEq, Repr

/-- A firmware activation in progress (R403 to R406). -/
structure Activation where
  typ : Nat
  hold : Bool
  atFrame : Bool
  /-- the session and TAG of FW_ACTIVATE, and of the FW_ROLLBACK that waits for its reply -/
  session : Nat
  tag : Nat
  undo : Option (Nat × Nat)
  /-- FW_ACTIVATE has its reply -/
  answered : Bool
  /-- when the present phase began, ns -/
  started : Nat
  phase : ActPhase
  /-- the slot that was active before -/
  prev : Nat
  /-- cores still to take new microcode -/
  cores : List Nat
  /-- the core that has new microcode and takes the next position, and the core that moves to it -/
  target : Option Nat
  moving : Option Nat
  deriving DecidableEq, Repr

/-- A re-test in progress (R409). -/
structure Retest where
  kind : Nat
  core : Nat
  lane : Nat
  engine : Nat
  deriving DecidableEq, Repr

/-- What the management controller and the management part of the Keep's record hold. -/
structure Mgmt where
  sessions : List Session := []
  nextId : Nat := 0
  anchors : Tab Anchor := []
  /-- times of failed claims in the last hour, ns -/
  failedClaims : List Nat := []
  /-- every record below this SEQ, and every fault record below this number, is acknowledged -/
  acked : Nat := 0
  faultAcked : Nat := 0
  /-- firmware slots: image bytes by type * 2 + slot; RAISE_SVN, SVN and version once validated -/
  images : Tab (List Nat) := []
  /-- slots that hold the image the module was shipped with, whose bytes are free values -/
  factory : List Nat := [2, 4, 6, 8, 10]
  /-- sessions that are staging, by type -/
  staging : Tab Nat := []
  /-- the FW_STAGE that waits for the field controller's validation: session and TAG -/
  stage5 : Option (Nat × Nat) := none
  act : Option Activation := none
  retest : Option Retest := none
  /-- Canopy peer list (R407), in non-volatile memory -/
  peers : List Nat := []
  /-- a host notification waits for its 10 µs spacing (R399) -/
  notify : Bool := false
  notified : Nat := 0
  /-- the module has a wall-clock time (R389) -/
  timeSet : Bool := false
  /-- the management controller is restarting -/
  down : Bool := false
  eeprom : Eeprom := {}
  deriving DecidableEq, Repr

/-- Management after the first power-up of an unclaimed module. -/
def Mgmt.empty : Mgmt := {}

/-- The whole state of the module: every register, queue, buffer, counter, mode and pin the spec
gives it, and the queue of commands that wait. -/
structure State where
  /-- commands that wait, first in first out -/
  pending : List Instr
  /-- time since State.reset in ns; a step on an empty queue advances it -/
  ns : Nat
  /-- MODEL'S OWN: number of free values drawn so far (assumption log 2) -/
  free : Nat
  /-- every register field that differs from its reset value, by `Fld.key` -/
  fields : Tab Nat
  /-- staged values of STG fields that no commit has applied yet, by `Fld.key` (R15) -/
  staged : Tab Nat
  /-- latched high words of 64-bit reads, by register and function (R13) -/
  latch : Tab Nat
  /-- low words of 64-bit writes that wait for their high word (R13) -/
  lowHeld : Tab Nat
  /-- what the last read returned -/
  readData : List Nat
  /-- the event log in DRAM: record s in slot s mod 262,144 (R398) -/
  events : Tab EventRec
  /-- when each rate-limited event was last logged, by code and instance, ns -/
  lastLog : Tab Nat
  /-- rate-limited events held back: when they are due, ns, and their record with its occurrences -/
  heldLog : Tab (Nat × Ev)
  /-- MODEL'S OWN: everything sent out of the module so far -/
  out : List Out
  /-- engines by core * 64 + engine -/
  engines : Tab Engine
  /-- tiles by core * 2 + tile -/
  tiles : Tab Tile
  /-- restorers by core -/
  rst : Tab Restorer
  /-- cores by number -/
  cores : Tab CoreSt
  /-- sequencers by core -/
  seqs : Tab Sequencer
  /-- core SRAM bytes by core * 2^23 + address -/
  sram : List Host.Cell
  models : List Model
  fab : Fabric
  /-- DRAM bytes by device address, decrypted (R199) -/
  dram : List Host.Cell
  /-- item context records by record number (R220) -/
  items : Tab ItemCtx
  mgmt : Mgmt
  /-- rings by function * 128 + ring -/
  rings : Tab Ring
  reads : List HostRead
  /-- MODEL'S OWN: number of the next read -/
  nextTag : Nat
  /-- MSI-X table dwords by function * 2^16 + byte offset / 4, and pending vectors by
  function * 2^16 + vector -/
  msix : Tab Nat
  msixPending : List Nat
  /-- functions whose Bus Master Enable is set, and those with ATS enabled -/
  busMaster : List Nat
  ats : List Nat
  lanes : Tab Lane
  bar : Barrier
  field : FieldSec
  hk : Hk
  cnp : Cnp
  sync : Sync
  rel : Rel
  keep : Keep
  power : Power
  /-- time of the last host-section power-up, ns (R401) -/
  bootNs : Nat
  deriving DecidableEq, Repr

/-- The faults: an access to an address the spec says does not exist. -/
inductive Fault where
  /-- A DRAM access at or above 48 GiB (R199): raised by MEMORY_READ and MEMORY_WRITE; safe. -/
  | dramAddress (addr : Nat)
  /-- A core SRAM access at or above 6 MiB, which R155 says cannot arise: raised by SRAM_SCRUB;
  safe. -/
  | sramAddress (addr : Nat)
  deriving DecidableEq, Repr

/-- The refusals. -/
inductive Refusal where
  /-- A command whose meaning is not written: raised by the dispatch alone; safe. -/
  | notModelled (mnemonic : String)
  deriving DecidableEq, Repr

/-! ### Reset -/

/-- The words of the shipped housekeeping table (Table 12.8, in the layout of R299). -/
def shippedTable : List Nat :=
  [0 + 71 * 2 ^ 7 + 2 ^ 15 + 7 * 2 ^ 16 + 5 * 2 ^ 24,
   72 + 3 * 2 ^ 7 + 2 ^ 14 + 15 * 2 ^ 16 + 20 * 2 ^ 24,
   76 + 23 * 2 ^ 7 + 2 ^ 14 + 2 ^ 15 + 15 * 2 ^ 16 + 20 * 2 ^ 24]

/-- The fields whose value as shipped differs from instance to instance, or from the reset value of the field. -/
def shippedFields : Tab Nat := shippedTable.zipIdx.map (fun (p : Nat × Nat) => (F.HK_ENT_DATA_WORD.key p.2, p.1))

/-- A module as shipped, before its first power-up: every register at its reset value, those that stand in
non-volatile memory at the value they are shipped with, and nothing held anywhere. -/
def State.reset : State where
  pending := []
  ns := 0
  free := 0
  fields := shippedFields
  staged := []
  latch := []
  lowHeld := []
  readData := []
  events := []
  lastLog := []
  heldLog := []
  out := []
  engines := []
  tiles := []
  rst := []
  cores := []
  seqs := []
  sram := []
  models := []
  fab := .empty
  dram := []
  items := []
  mgmt := .empty
  rings := []
  reads := []
  nextTag := 0
  msix := []
  msixPending := []
  busMaster := []
  ats := []
  lanes := []
  bar := .empty
  field := .empty
  hk := .empty
  cnp := .empty
  sync := .empty
  rel := .empty
  keep := .empty
  power := .empty
  bootNs := 0

end Sys2Proof.Machine
end

