-- ==== Sys2Proof/Machine/Ops.lean ====
section
/-! DEFINITION. The named operations over the state that every meaning is written in: register
fields, counters, the event log, free values, core SRAM and DRAM bytes, outputs, and access to
the parts of the state by number. -/

namespace Sys2Proof.Machine

/-- The outcome of a command. -/
abbrev Res := Host.Outcome State Fault Refusal

/-! ### Register fields -/

/-- The value of instance `i` of a register field. -/
def State.fget (s : State) (f : Fld) (i : Nat) : Nat := Tab.getD s.fields (f.key i) f.reset

/-- Give instance `i` of a register field a value, cut to its width. -/
def State.fset (s : State) (f : Fld) (i v : Nat) : State :=
  { s with fields := Tab.put f.reset s.fields (f.key i) (v % 2 ^ f.width) }

/-- Whether a field is not 0. -/
def State.fon (s : State) (f : Fld) (i : Nat) : Bool := s.fget f i != 0

/-- The staged value of an STG field: what was last written, or the value in force (R15). -/
def State.staging (s : State) (f : Fld) (i : Nat) : Nat := Tab.getD s.staged (f.key i) (s.fget f i)

/-- Stage a value for an STG field. -/
def State.stage (s : State) (f : Fld) (i v : Nat) : State :=
  { s with staged := Tab.set s.staged (f.key i) (v % 2 ^ f.width) }

/-- Apply the staged value of one STG field. -/
def State.applyStaged (s : State) (f : Fld) (i : Nat) : State := s.fset f i (s.staging f i)

/-- Apply the staged values of several fields. -/
def State.applyAll (s : State) (l : List (Fld × Nat)) : State :=
  l.foldl (fun t p => t.applyStaged p.1 p.2) s

/-- Count `n` occurrences in instance `i` of a saturating counter whose FREEZE field is instance
`j` (R61). -/
def State.countAt (s : State) (c : Ctr) (i j n : Nat) : State :=
  if s.fon c.frz j then s else s.fset c.cnt i (min 0xFFFFFFFF (s.fget c.cnt i + n))

/-- Count one occurrence. -/
def State.count (s : State) (c : Ctr) (i : Nat) : State := s.countAt c i i 1

/-- Count `n` occurrences. -/
def State.countN (s : State) (c : Ctr) (i n : Nat) : State := s.countAt c i i n

/-- Set a field to 1. -/
def State.flag (s : State) (f : Fld) (i : Nat) : State := s.fset f i 1

/-! ### Free values -/

/-- Draw `n` free values: the counter moves past them. -/
def State.draw (s : State) (n : Nat) : State := { s with free := s.free + n }

/-! ### Outputs -/

/-- Send something out of the module. -/
def State.emit (s : State) (o : Out) : State := { s with out := s.out ++ [o] }

/-! ### Time -/

/-- The management microsecond count (R401). -/
def State.us (s : State) : Nat := (s.ns - s.bootNs) / 1000

/-! ### Events (R397 to R399) -/

/-- The 32 bytes of an event record (Table 16.5). -/
def EventRec.bytes (r : EventRec) : List Nat :=
  bytesOf 4 r.seq ++ bytesOf 2 r.code ++ [r.source, r.device] ++ bytesOf 8 r.time
    ++ [r.context, r.core, r.engine, r.lane] ++ bytesOf 2 r.argA ++ bytesOf 2 (min 65535 r.count)
    ++ bytesOf 6 r.item ++ bytesOf 2 r.argB

/-- Whether a context is confidential (KEEP_CTX_STATE.CONF). -/
def State.conf (s : State) (ctx : Nat) : Bool := decide (ctx < 32) && s.fon F.KEEP_CTX_STATE_CONF ctx

/-- A record as it may leave the device: LANE, ARG_A, ARG_B and ITEM read 0 for a confidential
context (R397). -/
def State.maskRec (s : State) (r : EventRec) : EventRec :=
  if s.conf r.context then { r with lane := 0, argA := 0, argB := 0, item := 0 } else r

/-- Push a new record to a session that is subscribed and has received every earlier one. -/
def State.pushTo (s : State) (r : EventRec) (e : Session) : List Out × Session :=
  match e.sub with
  | none => ([], e)
  | some (n, m) =>
    if n = r.seq then
      (if m.testBit (r.code / 256) then [Out.push e.id 0x0004 (s.maskRec r).bytes] else [],
        { e with sub := some (n + 1, m) })
    else ([], e)

/-- Reply on a management session, if it is still open (R393). -/
def State.replyTo (s : State) (session msg tag status : Nat) (payload : List Nat) : State :=
  if s.mgmt.sessions.any (fun e => e.id == session) then s.emit (.reply session msg tag status payload) else s

/-- A reply of any length: one longer than 1 MiB is answered in parts (R393). -/
def State.replyLong (s : State) (session msg tag status : Nat) (payload : List Nat) : State :=
  let n := if s.mgmt.sessions.any (fun e => e.id == session) then (payload.length - 1) / 2 ^ 20 else 0
  let part (i : Nat) : Out := .replyPart session msg tag status ((payload.drop (i * 2 ^ 20)).take (2 ^ 20))
  ({ s with out := s.out ++ (List.range n).map part } : State).replyTo session msg tag status (payload.drop (n * 2 ^ 20))

/-- Ask for the host notification of R399 for a record; a tick sends it, at most one message per 10 µs. -/
def State.notifyHost (s : State) (code : Nat) : State :=
  if s.fon F.MGT_CFG_HOST_IRQ_EN 0 && (s.fget F.MGT_HOST_MASK_BLOCKS 0).testBit (code / 256) then
    { s with mgmt := { s.mgmt with notify := true } }
  else s

/-- Write an event record into the log, push it, and notify the host (R397 to R399). -/
def State.log (s : State) (e : Ev) : State :=
  let q := s.fget F.MGT_EVT_HEAD_NEXT 0
  let r : EventRec := ⟨q, e.code, e.source, s.fget F.CNP_TOPO_ID_DEVICE 0, s.us, e.context, e.core,
    e.engine, e.lane, e.argA % 65536, e.count, e.item, e.argB % 65536⟩
  -- a record overwritten before a role-1 session acknowledged it is lost (R398)
  let s := if (Tab.find s.events (q % 262144)).isSome && decide (s.mgmt.acked + 262144 ≤ q) then
      s.count C.MGT_CNT_EVLOST 0 else s
  let s := { s with events := Tab.set s.events (q % 262144) r }
  let s := s.fset F.MGT_EVT_HEAD_NEXT 0 (q + 1)
  let ps : List (List Out × Session) := s.mgmt.sessions.map (s.pushTo r)
  let s := { s with
    out := s.out ++ ps.flatMap Prod.fst
    mgmt := { s.mgmt with sessions := ps.map Prod.snd } }
  s.notifyHost e.code

/-- Log an event at most once per `limit` ns for each instance `i`.  Occurrences in between are held
back, and summarised in COUNT of the next record, or of one that a later tick writes. -/
def State.logRate (s : State) (limit i : Nat) (e : Ev) : State :=
  let k := Nat.pair e.code i
  let held := (Tab.find s.heldLog k).elim 0 (fun (p : Nat × Ev) => p.2.count)
  match Tab.find s.lastLog k with
  | some t =>
    if s.ns < t + limit then
      { s with heldLog := Tab.set s.heldLog k (t + limit, { e with count := e.count + held }) }
    else
      let s := s.log { e with count := e.count + held }
      { s with lastLog := Tab.set s.lastLog k s.ns, heldLog := Tab.erase s.heldLog k }
  | none => { s.log e with lastLog := Tab.set s.lastLog k s.ns }

/-- Write the records of held-back events that have become due. -/
def State.logDue (s : State) : State :=
  (s.heldLog.filter (fun (p : Nat × Nat × Ev) => decide (p.2.1 ≤ s.ns))).foldl (fun (s : State) (p : Nat × Nat × Ev) =>
    { s.log p.2.2 with lastLog := Tab.set s.lastLog p.1 s.ns, heldLog := Tab.erase s.heldLog p.1 }) s

/-! ### Serving (R414, R417, R430) -/

/-- Whether the host section runs, limited or not, and no orderly stop has begun: it then takes descriptors,
first packets and commands. -/
def State.serving (s : State) : Bool :=
  (s.fget F.GLB_PWR_STATUS_STATE 0 == 1 || s.fget F.GLB_PWR_STATUS_STATE 0 == 2) && !s.fon F.GLB_THM_STATUS_STOPPING 0

/-! ### Parts of the state by number -/

/-- Engine `e` of core `c`. -/
def State.engine (s : State) (c e : Nat) : Engine := Tab.getD s.engines (c * 64 + e) .empty

/-- Replace engine `e` of core `c`. -/
def State.setEngine (s : State) (c e : Nat) (g : Engine) : State :=
  { s with engines := Tab.set s.engines (c * 64 + e) g }

/-- The instance number of an engine's registers. -/
def eng (c e : Nat) : Nat := c * 64 + e

/-- The engines of a core in service (R108). -/
def State.inService (s : State) (c : Nat) : List Nat :=
  (List.range 32).filter (fun e => (s.engine c e).inService)

/-- The engines of a core whose corrections are kept: those in service, and the scratch engines
of a core that serves a stage or mirrors one (R151). -/
def State.calEngines (s : State) (c : Nat) : List Nat :=
  s.inService c ++ (if (s.inService c).isEmpty then [] else [32, 33, 34, 35])

/-- Sweep period T of a core in ns. -/
def State.periodNs (s : State) (c : Nat) : Nat := s.fget F.RST_PERIOD_CUR_US c * 1000

/-- The length of a bit-plane cycle in ns: 16, or 20 at the guardbanded rate (R38, R423). -/
def State.cycleNs (s : State) : Nat := if s.power.slow then 20 else 16

/-- Tile `t` of core `c`. -/
def State.tile (s : State) (c t : Nat) : Tile := Tab.getD s.tiles (c * 2 + t) .empty

/-- Replace tile `t` of core `c`. -/
def State.setTile (s : State) (c t : Nat) (x : Tile) : State :=
  { s with tiles := Tab.set s.tiles (c * 2 + t) x }

/-- The restorer of core `c`. -/
def State.restorer (s : State) (c : Nat) : Restorer := Tab.getD s.rst c .empty

/-- Replace the restorer of core `c`. -/
def State.setRst (s : State) (c : Nat) (r : Restorer) : State := { s with rst := Tab.set s.rst c r }

/-- Core `c`. -/
def State.core (s : State) (c : Nat) : CoreSt := Tab.getD s.cores c .empty

/-- Replace core `c`. -/
def State.setCore (s : State) (c : Nat) (x : CoreSt) : State :=
  { s with cores := Tab.set s.cores c x }

/-- The sequencer of core `c`. -/
def State.seq (s : State) (c : Nat) : Sequencer := Tab.getD s.seqs c .empty

/-- Replace the sequencer of core `c`. -/
def State.setSeq (s : State) (c : Nat) (x : Sequencer) : State :=
  { s with seqs := Tab.set s.seqs c x }

/-! ### Bytes in core SRAM and in DRAM -/

/-- The byte at an address of a canonical cell list; an address not listed reads 0. -/
def cellGet : List Host.Cell → Nat → Nat
  | [], _ => 0
  | c :: r, a => if c.1 = a then c.2.toNat else cellGet r a

/-- Store a byte at an address, keeping the canonical form: addresses rise strictly and no entry
is 0. -/
def cellSet : List Host.Cell → Nat → BitVec 8 → List Host.Cell
  | [], a, b => if b = 0 then [] else [(a, b)]
  | c :: r, a, b =>
    if a < c.1 then (if b = 0 then c :: r else (a, b) :: c :: r)
    else if a = c.1 then (if b = 0 then r else (a, b) :: r)
    else c :: cellSet r a b

/-- The canonical form of a cell list. -/
def cellsWf : List Host.Cell → Bool
  | [] => true
  | c :: r => c.2 != 0 && r.all (fun d => decide (c.1 < d.1)) && cellsWf r

/-- Store bytes at consecutive addresses. -/
def cellWrite (m : List Host.Cell) (a : Nat) : List Nat → List Host.Cell
  | [] => m
  | b :: r => cellWrite (cellSet m a (BitVec.ofNat 8 b)) (a + 1) r

/-- Read `n` bytes from consecutive addresses. -/
def cellRead (m : List Host.Cell) (a n : Nat) : List Nat :=
  (List.range n).map (fun i => cellGet m (a + i))

/-- The size of a core's SRAM: 6 MiB (R155). -/
def sramSize : Nat := 6 * 2 ^ 20

/-- Read bytes of a core's SRAM. -/
def State.sramRead (s : State) (c a n : Nat) : List Nat := cellRead s.sram (c * 2 ^ 23 + a) n

/-- Write bytes of a core's SRAM; nothing lies beyond its end (R155). -/
def State.sramWrite (s : State) (c a : Nat) (b : List Nat) : State :=
  { s with sram := cellWrite s.sram (c * 2 ^ 23 + a) (b.take (sramSize - a)) }

/-- The size of device DRAM: 48 GiB (R199). -/
def dramSize : Nat := 48 * 2 ^ 30

/-- Read bytes of DRAM. -/
def State.dramRead (s : State) (a n : Nat) : List Nat := cellRead s.dram a n

/-- Write bytes of DRAM. -/
def State.dramWrite (s : State) (a : Nat) (b : List Nat) : State :=
  { s with dram := cellWrite s.dram a b }

/-- The indexes of the 1 MiB pages that `n` bytes from an offset on touch. -/
def areaPages (off n : Nat) : List Nat :=
  if n = 0 then [] else rangeFrom (off / 2 ^ 20) ((off + n - 1) / 2 ^ 20 + 1 - off / 2 ^ 20)

/-- `n` bytes from offset `o` on, page by page: address, place among the bytes, and length. -/
def Paged.pieces (p : Paged) (o n : Nat) : List (Nat × Nat × Nat) :=
  let a := p.off + o
  (areaPages a n).map (fun i =>
    let lo := Nat.max a (i * 2 ^ 20)
    let hi := Nat.min (a + n) ((i + 1) * 2 ^ 20)
    (p.pages.getD i 0 * 2 ^ 20 + lo % 2 ^ 20, lo - a, hi - lo))

/-- Whether any of `n` bytes lies in a page. -/
def Paged.inPage (p : Paged) (n pg : Nat) : Bool := (p.pieces 0 n).any (fun x => x.1 / 2 ^ 20 == pg)

/-- Read bytes in context pages. -/
def State.pagedRead (s : State) (p : Paged) (n : Nat) : List Nat := (p.pieces 0 n).flatMap (fun x => s.dramRead x.1 x.2.2)

/-- Write bytes in context pages. -/
def State.pagedWrite (s : State) (p : Paged) (b : List Nat) : State :=
  (p.pieces 0 b.length).foldl (fun s x => s.dramWrite x.1 (slice b x.2.1 x.2.2)) s

/-! ### Packets -/

/-- The virtual channel of a packet type (R191). -/
def PktType.vc : PktType → Nat
  | .vector => 0
  | .kpart => 0
  | .exitPart => 0
  | .group => 0
  | .epochClose => 0
  | .signal => 0
  | .retraction => 0
  | .memRead => 1
  | .memWrite => 1
  | .readData => 2
  | .receipt => 3
  | .control => 3
  | .digest => 3
  | .counterOp => 3
  | .binding => 3

/-- The flits of a packet's message, headers included (R192); a group transfer takes 8 bytes a column. -/
def Packet.flits (p : Packet) : Nat :=
  let n := ceilDiv (Nat.max p.payload.length (8 * p.cols.length)) 64
  n + Nat.max 1 (ceilDiv n 64)

/-- The VC0 flits of a packet. -/
def Packet.vc0 (p : Packet) : Nat := if p.typ.vc = 0 then p.flits else 0

/-- Put a packet on the fabric under a number of its own. -/
def State.post (s : State) (p : Packet) : State :=
  let k := s.fab.nextKey
  { s with fab := { s.fab with
      net := s.fab.net ++ [{ p with key := k, sentNs := s.ns }], nextKey := k + 1, vc0 := s.fab.vc0 + p.vc0 } }

/-- Put a packet on the fabric and keep it until its receipt, a read until its data (R195). -/
def State.postHeld (s : State) (p : Packet) : State :=
  let k := s.fab.nextKey
  let q := { p with key := k, sentNs := s.ns }
  { s with fab := { s.fab with
      net := s.fab.net ++ [q], held := s.fab.held ++ [q], nextKey := k + 1, vc0 := s.fab.vc0 + p.vc0 } }

/-- Whether packets of a type are kept until a receipt when they go to a peer: those of VC0 (R195,
Table 13.3). -/
def PktType.kept (t : PktType) : Bool := t == .vector || t == .epochClose || t == .signal || t == .retraction

/-- Give a packet to the Canopy node; one of VC0 is kept until its receipt (R317). -/
def State.toPeer (s : State) (p : Packet) : State :=
  let k := s.fab.nextKey
  let q := { p with key := k, remote := true, sentNs := s.ns }
  { s with fab := { s.fab with canopy := s.fab.canopy ++ [q]
                               held := if p.typ.kept then s.fab.held ++ [q] else s.fab.held, nextKey := k + 1 } }

/-- Whether two packets take one virtual channel from one source to one destination (R191). -/
def Packet.sameWay (p q : Packet) : Bool :=
  p.typ.vc == q.typ.vc && p.src == q.src && p.dst == q.dst && p.remote == q.remote && p.dev == q.dev

/-- The packet under way with a number, where it is the next to arrive: within one virtual channel packets from
one source to one destination arrive in the order sent (R191). -/
def State.packet (s : State) (k : Nat) : Option Packet :=
  (s.fab.net.find? (fun p => p.key == k)).bind (fun p =>
    (s.fab.net.find? (fun q => q.sameWay p)).filter (fun q => q.key == k))

/-- Take a packet off the fabric. -/
def State.unpost (s : State) (k : Nat) : State :=
  { s with fab := { s.fab with net := s.fab.net.filter (fun p => p.key != k) } }

/-- Answer a packet with a receipt on VC3 (R195); one for a peer goes to the Canopy node and names the
sender's tag. -/
def State.receipt (s : State) (p : Packet) (nack : Bool) : State :=
  let r : Packet := { Packet.empty with
    typ := .receipt, src := p.dst, dst := p.src, context := p.context, ref := p.key, nack := nack }
  if p.remote then s.toPeer { r with ref := p.ref, dev := p.dev } else s.post r

end Sys2Proof.Machine
end

