-- ==== Sys2Proof/Machine/Stages.lean ====
section
/-! DEFINITION. Where cores stand in models: the stage of a core, the cores of a stage, K chains
and N exits (R23, R136, R171), and the shape of the columns of a core's tile. -/

namespace Sys2Proof.Machine

/-- The model with an identifier in a context. -/
def State.model (s : State) (ctx id : Nat) : Option Model :=
  s.models.find? (fun m => m.context == ctx && m.id == id)

/-- Replace a model. -/
def State.setModel (s : State) (m : Model) : State :=
  { s with models := s.models.map (fun x => if x.context = m.context ∧ x.id = m.id then m else x) }

/-- The stage record of a number in a model. -/
def Model.stage (m : Model) (n : Nat) : Option StageRec := m.stages.find? (fun r => r.stage == n)

/-- While a stage hands over to its target cores (R127), its old cores keep their own placement until
they are released. -/
def Model.oldRecord (m : Model) (c : Nat) (r : StageRec) : StageRec :=
  match m.switching with
  | none => r
  | some w => if w.advanced && w.stage == r.stage && w.old.contains c && !w.targets.contains c then { r with placed := w.old } else r

/-- The model and stage that a core serves. -/
def State.stageOf (s : State) (c : Nat) : Option (Model × StageRec) :=
  match (s.core c).place with
  | none => none
  | some p =>
    match s.model p.context p.model with
    | none => none
    | some m => (m.stage p.stage).map (fun r => (m, m.oldRecord c r))

/-- The key of a stage: context, model, stage number. -/
def stageKey (ctx model stage : Nat) : Nat := Nat.pair ctx (Nat.pair model stage)

/-- The context a core serves, 255 for none. -/
def State.ctxOf (s : State) (c : Nat) : Nat :=
  match (s.core c).place with
  | none => 255
  | some p => p.context

/-- The cores that run the stage of a core; the core alone where it serves none. -/
def State.peers (s : State) (c : Nat) : List Nat :=
  match s.stageOf c with
  | none => [c]
  | some (_, r) => if r.placed.contains c then r.placed else [c]

/-- The position of a core in its stage. -/
def State.posOf (s : State) (c : Nat) : Nat :=
  match (s.core c).place with
  | none => 0
  | some p => p.pos

/-- The entry core of a stage. -/
def StageRec.entry (r : StageRec) : Nat := r.placed.getD r.entryPos 0

/-- The exit core of a stage. -/
def StageRec.exit (r : StageRec) : Nat := r.placed.getD r.exitPos 0

/-- The K part of a position (R171). -/
def StageRec.kPart (r : StageRec) (p : Nat) : Nat := p % max 1 r.kK

/-- The N part of a position (R171). -/
def StageRec.nPart (r : StageRec) (p : Nat) : Nat := p / max 1 r.kK

/-- Whether a position is the N exit of its chain: the highest K part (R136). -/
def StageRec.isExit (r : StageRec) (p : Nat) : Bool := r.kPart p == r.kK - 1

/-- The core at the N exit of a position's chain. -/
def StageRec.chainExit (r : StageRec) (p : Nat) : Nat :=
  r.placed.getD (r.nPart p * max 1 r.kK + (r.kK - 1)) 0

/-- The placement epoch in force for a stage, as its exit core knows it (R196). -/
def State.epoch (s : State) (key : Nat) : EpochSt := Tab.getD s.fab.epochs key ⟨0, false, []⟩

/-- A stage's epochs as the following stage's entry core knows them (R196). -/
def State.entryEpoch (s : State) (key : Nat) : EpochSt := Tab.getD s.fab.entries key ⟨0, false, []⟩

/-- The epoch under which a core of a stage sends: an old core sends under the epoch before the
advance (R127, R197). -/
def State.sendEpoch (s : State) (c : Nat) (m : Model) (r : StageRec) : Nat :=
  let e := (s.epoch (stageKey m.context m.id r.stage)).cur
  match m.switching with
  | none => e
  | some w => if w.advanced && w.stage == r.stage && w.old.contains c && !w.targets.contains c then (e + 65535) % 65536 else e

/-- Replace what a stage's exit core knows of its epochs. -/
def State.setEpoch (s : State) (key : Nat) (e : EpochSt) : State :=
  { s with fab := { s.fab with epochs := Tab.set s.fab.epochs key e } }

/-- Replace what the following stage's entry core knows of a stage's epochs. -/
def State.setEntryEpoch (s : State) (key : Nat) (e : EpochSt) : State :=
  { s with fab := { s.fab with entries := Tab.set s.fab.entries key e } }

/-- Every receiver of a stage's packets takes an epoch, with no previous one open. -/
def State.newEpoch (s : State) (key e : Nat) : State := (s.setEpoch key ⟨e, false, []⟩).setEntryEpoch key ⟨e, false, []⟩

/-! ### Slice plans (Table 3.1) -/

/-- Slices per weight. -/
def planSlices (p : Nat) : Nat := if p = 0 then 5 else if p = 1 then 4 else if p = 2 then 3 else 2

/-- Output columns. -/
def planCols (p : Nat) : Nat :=
  if p = 0 then 256 else if p = 1 then 320 else if p = 2 then 416 else 640

/-- Bits of a weight in a row record (R77). -/
def planBits (p : Nat) : Nat := if p = 0 then 8 else if p = 1 then 6 else if p = 2 then 4 else 2

/-- Used bytes of a row record (Table 3.8). -/
def planUsed (p : Nat) : Nat := planCols p * planBits p / 8

/-- The significances of the slices, most significant first. -/
def planSig (p : Nat) : List Int :=
  if p = 0 then [-128, 64, 32, 8, 1] else if p = 1 then [-32, 16, 4, 1]
  else if p = 2 then [-8, 4, 1] else [1, -1]

/-- The lowest bit and width of each slice's field in the weight's two's-complement pattern;
under S2 bit 0 of the code is the [+] slice and bit 1 the [−] slice (R65, R78). -/
def planField (p : Nat) : List (Nat × Nat) :=
  if p = 0 then [(7, 1), (6, 1), (5, 1), (3, 2), (0, 3)]
  else if p = 1 then [(5, 1), (4, 1), (2, 2), (0, 2)]
  else if p = 2 then [(3, 1), (2, 1), (0, 2)] else [(0, 1), (1, 1)]

/-- The level of slice `j` of a weight pattern (R65, R66). -/
def sliceLevel (p w j : Nat) : Nat :=
  let f := (planField p).getD j (0, 0)
  bits w f.1 f.2

/-- The slice plan an engine runs under; a scratch engine always runs under S8 (R147). -/
def State.plan (s : State) (c e : Nat) : Nat :=
  if 32 ≤ e then 0 else s.fget F.ENG_CFG_SLICE_PLAN (eng c e)

/-- The physical column of spare number `sp` (Table 5.7). -/
def spareColumn (sp : Nat) : Nat := if sp < 32 then 1312 + sp else 1216 + sp

/-- The instance number of a spare map entry. -/
def spareInst (c e sp : Nat) : Nat := (c * 64 + e) * 64 + sp

/-- The spare in use for a physical slice column, if any (R124): only an active spare's value is
taken by the tree. -/
def State.spareFor (s : State) (c e col : Nat) : Option Nat :=
  (List.range 64).find? (fun sp =>
    s.fget F.RST_SPARE_DATA_STATE (spareInst c e sp) == 2
      && s.fget F.RST_SPARE_DATA_TARGET (spareInst c e sp) == col)

/-- The physical column whose value the tree takes for a slice column (R67, R124). -/
def State.physical (s : State) (c e col : Nat) : Nat :=
  match s.spareFor c e col with
  | none => col
  | some sp => spareColumn sp

/-! ### Chains and tile columns (R81, R88) -/

/-- The chain head of an engine: set by the loader; a scratch engine that no ISSUE names with a lower one is its own
head (R81, log entry 114). -/
def State.headOf (s : State) (c e : Nat) : Nat :=
  let g := s.engine c e
  if 32 ≤ e then (if 32 ≤ g.head then g.head else e)
  else if g.map.isSome then g.head else e

/-- Whether an engine is the head of a chain that the core's tile holds: a stationary engine with a tile, or a scratch
engine that an ISSUE of the program names. -/
def State.isHead (s : State) (c e : Nat) : Bool :=
  (if 32 ≤ e then decide (32 ≤ (s.engine c e).head) else (s.engine c e).map.isSome) && s.headOf c e == e

/-- The index within the core's tile of column 0 of a head: the columns of lower heads come
first. -/
def State.colBase (s : State) (c e : Nat) : Nat :=
  (List.range e).foldl (fun n h => if s.isHead c h then n + planCols (s.plan c h) else n) 0

/-- The key of an output column of a head in a tile's tables. -/
def colKey (e n : Nat) : Nat := e * 1024 + n

/-- The columns of a head that the stage uses (R176): all of a scratch engine's. -/
def State.usedCols (s : State) (c e : Nat) : Nat :=
  match (s.engine c e).map with
  | none => planCols (s.plan c e)
  | some m => m.cols

end Sys2Proof.Machine
end

