-- ==== Sys2Proof/Machine/Operands.lean ====
section
/-! DEFINITION. Operand forms: weights in row records and cells (R65 to R79), the fields of
sequencer instructions (Table 7.1) and of epilogue descriptors (Table 4.5), and the staging of
inputs (R71 to R74). -/

namespace Sys2Proof.Machine

/-! ### Row records (R77) -/

/-- The DRAM address of a row record. -/
def recordAddr (region slot row : Nat) : Nat := region * 2 ^ 20 + slot * 2 ^ 19 + row * 256

/-- The weight pattern of output column `n` in a record's bytes. -/
def recordWeight (plan : Nat) (rec : List Nat) (n : Nat) : Nat :=
  let w := planBits plan
  bits (leAt rec (w * n / 8) 2) (w * n % 8) w

/-- The level that a record asks of a physical slice column. -/
def recordLevel (plan : Nat) (rec : List Nat) (col : Nat) : Nat :=
  let j := planSlices plan
  if col < planCols plan * j then sliceLevel plan (recordWeight plan rec (col / j)) (col % j) else 0

/-- The weight an integer level list stands for (R65). -/
def weightOf (plan w : Nat) : Int :=
  if plan = 3 then (if w = 1 then 1 else if w = 2 then -1 else 0) else sext (planBits plan) w

/-- The level of reference column k on row `r` (Table 5.2). -/
def refLevel (k r : Nat) : Nat :=
  let i := r % 1024
  let j := k / 4
  if k % 4 = 0 then (if i % 5 = j % 5 then 1 else 0)
  else if k % 4 = 1 then (if i % 16 = j then 3 else 0)
  else if k % 4 = 2 then (if i % 32 = j then 7 else 0)
  else if i % 10 = j then 2 else 0

/-! ### Cells -/

/-- The level of the cell at a row and physical column. -/
def Engine.level (g : Engine) (row col : Nat) : Nat := Tab.getD g.cells (row * 1344 + col) 0

/-- Write the level of a cell. -/
def Engine.setLevel (g : Engine) (row col v : Nat) : Engine :=
  { g with cells := Tab.put 0 g.cells (row * 1344 + col) v }

/-- Write a row's slice cells from a function of the physical column, its reference cells to
their patterns, and its spare cells from the columns they stand in for (R109, R124, R147). -/
def Engine.writeRow (g : Engine) (row : Nat) (lev : Nat → Nat) (spare : Nat → Option Nat) : Engine :=
  let g := (List.range 1280).foldl (fun g c => g.setLevel row c (lev c)) g
  let g := (List.range 32).foldl (fun g k => g.setLevel row (1280 + k) (refLevel k row)) g
  (List.range 64).foldl (fun g sp =>
    match spare sp with
    | none => if sp < 32 then g.setLevel row (spareColumn sp) 0 else g
    | some t => g.setLevel row (spareColumn sp) (lev t)) g

/-- Write level 0 into every cell. -/
def Engine.zero (g : Engine) : Engine := { g with cells := [] }

/-- An engine out of service: its cells hold level 0 and it holds no tile; its converters keep their corrections
(R108). -/
def Engine.out (g : Engine) : Engine :=
  { Engine.empty with cal := g.cal, calNew := g.calNew, rho := g.rho, rhoNew := g.rhoNew, bitWeights := g.bitWeights }

/-- The reference group of a physical column (R113). -/
def groupOf (col : Nat) : Nat := if col < 1280 then col / 40 else (col - 1280) % 32

/-- The key of a correction: column, segment and kind (0 full, 1 lower half, 2 upper half). -/
def calKey (col seg kind : Nat) : Nat := (col * 2 + seg) * 3 + kind

/-- What the last pass found of a segment-column and kind. -/
def Engine.pair (g : Engine) (col seg kind : Nat) : CalPair :=
  Tab.getD g.cal (calKey col seg kind) ⟨0, 0, 0⟩

/-- The cell factor ρ in force for a column's group, segment and kind, in Q2.14: 1 until a fit has ended. -/
def Engine.rhoOf (g : Engine) (col seg kind : Nat) : Nat :=
  (Tab.getD g.rho ((groupOf col * 2 + seg) * 3 + kind) (16384, 0)).1

/-- G = 1 ÷ (a × ρ) as unsigned Q2.14 (R118), to nearest. -/
def gainOf (inj rho : Nat) : Nat :=
  let d := inj * rho
  if d = 0 then 0 else Nat.min 65535 ((2 * 16384 ^ 3 + d) / (2 * d))

/-- A row of a queued write after it: the columns of its range take its values, the others keep theirs. -/
def RowWrite.level (w : RowWrite) (old : Nat → Nat) (col : Nat) : Nat :=
  let n := col / 5
  if w.upkeep then 0
  else if decide (w.col0 ≤ n) && decide (n < w.col0 + w.values.length) then
    sliceLevel 0 (toBits 8 (w.values.getD (n - w.col0) 0)) (col % 5)
  else old col

/-- The level of a cell once the pending writes of its row are made. -/
def Engine.pendLevel (g : Engine) (ws : List RowWrite) (row col : Nat) : Nat :=
  (ws.filter (fun w => w.row == row)).foldl (fun l w => w.level (fun _ => l) col) (g.level row col)

/-- The column a spare is filled for: substitution in progress or active (R124). -/
def State.spareTarget (s : State) (c e sp : Nat) : Option Nat :=
  let st := s.fget F.RST_SPARE_DATA_STATE (spareInst c e sp)
  if st = 1 || st = 2 then some (s.fget F.RST_SPARE_DATA_TARGET (spareInst c e sp)) else none

/-- The levels that a row of an engine holds after a rewrite from a record: a column whose spare
is active is written 0 (R124). -/
def State.rowLevels (s : State) (c e : Nat) (rec : List Nat) (col : Nat) : Nat :=
  match s.spareFor c e col with
  | some _ => 0
  | none => recordLevel (s.plan c e) rec col

/-- Rewrite row `row` of a stationary engine from a record of its master (R109). -/
def State.rewriteRow (s : State) (c e row : Nat) (rec : List Nat) : State :=
  let g := s.engine c e
  let g := (List.range 1280).foldl (fun g col => g.setLevel row col (s.rowLevels c e rec col)) g
  let g := (List.range 32).foldl (fun g k => g.setLevel row (1280 + k) (refLevel k row)) g
  let g := (List.range 64).foldl (fun g sp =>
    match s.spareTarget c e sp with
    | none => if sp < 32 then g.setLevel row (spareColumn sp) 0 else g
    | some t => g.setLevel row (spareColumn sp) (recordLevel (s.plan c e) rec t)) g
  s.setEngine c e g

/-! ### Sequencer instructions (Table 7.1) -/

/-- The opcode of an instruction word. -/
def insOp (w : Nat) : Nat := bits w 58 6

/-- A register-and-offset operand's registers stand at [57:54] and its offset at [53:37] in
ISSUE, SEND, SCRW, VERDICT and OUTH. -/
def insAs (w : Nat) : Nat := bits w 54 4
/-- OFF of ISSUE, SEND, SCRW, VERDICT and OUTH. -/
def insOff (w : Nat) : Nat := bits w 37 17

/-- The fields of an ISSUE. -/
structure IssueOp where
  as : Nat
  off : Nat
  first : Nat
  last : Nat
  tile : Nat
  fmt : Nat
  m4 : Bool
  deriving DecidableEq, Repr

/-- Read an ISSUE. -/
def issueOp (w : Nat) : IssueOp :=
  ⟨insAs w, insOff w, bits w 31 6, bits w 25 6, bits w 23 2, bits w 19 4, bit w 18⟩

/-- The fields of a DRAIN. -/
structure DrainOp where
  tile : Nat
  desc : Nat
  next : Nat
  group : Bool
  ad : Nat
  off : Nat
  first : Nat
  last : Nat
  nextZero : Bool
  deriving DecidableEq, Repr

/-- Read a DRAIN. -/
def drainOp (w : Nat) : DrainOp :=
  ⟨bits w 56 2, bits w 50 6, bits w 44 6, bit w 43, bits w 39 4, bits w 22 17, bits w 16 6,
   bits w 10 6, bit w 9⟩

/-- The fields of an SCRW. -/
structure ScrwOp where
  as : Nat
  off : Nat
  se : Nat
  ar : Nat
  row : Nat
  col0 : Nat
  cnt : Nat
  fmt : Nat
  deriving DecidableEq, Repr

/-- Read an SCRW. -/
def scrwOp (w : Nat) : ScrwOp :=
  ⟨insAs w, insOff w, bits w 35 2, bits w 31 4, bits w 20 11, bits w 12 8, bits w 4 8, bits w 0 4⟩

/-- The fields of a VOP. -/
structure VopOp where
  op : Nat
  fd : Nat
  fs : Nat
  ad : Nat
  as1 : Nat
  as2 : Nat
  n : Nat
  param : Nat
  deriving DecidableEq, Repr

/-- Read a VOP. -/
def vopOp (w : Nat) : VopOp :=
  ⟨bits w 51 7, bits w 47 4, bits w 43 4, bits w 39 4, bits w 35 4, bits w 31 4, bits w 15 16,
   bits w 0 15⟩

/-! ### Epilogue descriptors (Table 4.5) -/

/-- The fields of an epilogue descriptor in its device form. -/
structure Desc where
  shift : Nat
  begin : Nat
  preFmt : Nat
  preShift : Nat
  fallback : Bool
  perColumn : Bool
  biasEn : Bool
  biasBf16 : Bool
  act : Nat
  actTable : Nat
  outFmt : Nat
  stoch : Bool
  stats : Bool
  scale : Nat
  scaleAddr : Nat
  biasAddr : Nat
  preAddr : Nat
  p0 : Nat
  p1 : Nat
  statAddr : Nat
  deriving DecidableEq, Repr

/-- Read a descriptor's eight words. -/
def descOf (w : List Nat) : Desc :=
  let a := w.getD 0 0
  ⟨bits a 0 5, bits a 5 2, bits a 7 2, bits a 9 5, bit a 14, bit a 15, bit a 16, bit a 17,
   bits a 18 5, bits a 23 2, bits a 25 4, bit a 29, bit a 30, w.getD 1 0, bits (w.getD 2 0) 0 23,
   bits (w.getD 3 0) 0 23, bits (w.getD 4 0) 0 23, w.getD 5 0, w.getD 6 0, bits (w.getD 7 0) 0 23⟩

/-- Descriptor `i` of a core. -/
def State.desc (s : State) (c i : Nat) : Desc := descOf (Tab.getD (s.core c).descs i [])

/-! ### Staging (R71 to R74) -/

/-- The planes of an integer format (Table 3.5). -/
def intPlanes (fmt : Nat) : Nat := if fmt ≤ 1 then 8 else 4

/-- Whether an integer format's inputs are signed (Table 3.5). -/
def intSigned (fmt : Nat) : Bool := fmt == 0 || fmt == 2

/-- A source value as staging takes it: an infinity as the largest finite value of its format, a
NaN as 0 (R74). -/
def stageValue (fmt p : Nat) : FV :=
  match fmtValue fmt p with
  | .nan => .fin false 0 0
  | .inf n => (fmtF fmt).decode (ofBool n * (fmtF fmt).signBit + (fmtF fmt).maxPat)
  | v => v

/-- floor(log2 |x|) of a non-zero finite value. -/
def FV.logFloor : FV → Option Int
  | .fin _ m e => if m = 0 then none else some ((Nat.log2 m : Int) + e)
  | _ => none

/-- The larger of two optional numbers. -/
def maxOpt (a b : Option Int) : Option Int :=
  match a, b with
  | none, y => y
  | x, none => x
  | some x, some y => some (max x y)

/-- E_b of a block of values, none where every value is 0 (R72). -/
def blockExp (m : Nat) (vs : List FV) : Option Int :=
  (vs.foldl (fun t v => maxOpt t v.logFloor) none).map
    (fun e => clampI (-127) 127 (e - ((m : Int) - 2)))

/-- round_half_even(v ÷ 2^k) as an integer. -/
def FV.roundAt (v : FV) (k : Int) : Int :=
  match v with
  | .fin n m e => roundInt .even n m (e - k)
  | _ => 0

/-- A vector staged in block-floating form (R72, R73): the staged integers and E_out. -/
def blockFloat (m p : Nat) (vs : List FV) : List Int × Int :=
  let nb := ceilDiv vs.length 128
  let es := (List.range nb).map (fun b => blockExp m ((vs.drop (128 * b)).take 128))
  match es.foldl maxOpt none with
  | none => (vs.map (fun _ => 0), 0)
  | some ev =>
    let lim : Int := (2 ^ (m - 1) : Nat) - 1
    let a := (List.range vs.length).map (fun i =>
      match es.getD (i / 128) none with
      | none => 0
      | some eb =>
        let mi := clampI (-lim) lim ((vs.getD i .nan).roundAt eb)
        let d := ((p : Int) - m) - (ev - eb)
        if 0 ≤ d then mi * (2 ^ d.toNat : Nat) else roundHalfEven mi (2 ^ (-d).toNat))
    (a, ev - ((p : Int) - m))

/-- The elements of a vector in a format. -/
def elems (fmt n : Nat) (b : List Nat) : List Nat := (List.range n).map (elemAt fmt b)

/-- The NaNs among the elements of a floating vector (R74). -/
def nanCount (fmt : Nat) (ps : List Nat) : Nat :=
  if fmtFloat fmt then (ps.filter (fun p => decide (fmtValue fmt p = .nan))).length else 0

end Sys2Proof.Machine
end

