-- ==== Sys2Proof/Machine/Engine.lean ====
section
/-! DEFINITION. The charge engine (R35 to R63): bit-plane cycles, split replays, slip, and the
way of a vector's contribution into the accumulators (R80 to R91). -/

namespace Sys2Proof.Machine

/-! ### Conversions (R37 to R40) -/

/-- The code of a conversion of a charge in units, with an error in 1/256 LSB, and whether it
saturated (R39). -/
def convert (charge : Nat) (err : Int) : Nat × Bool :=
  let x : Int := (charge : Int) * 256 + err
  if x > 65408 then (255, true) else ((clampI 0 255 ((x + 128) / 256)).toNat, false)

/-- The corrected value of a code (R40): gain Q2.14, offset Q8.4. -/
def correct (gain ofs code : Nat) : Int :=
  roundHalfEven (((code : Int) * 16 - sext 12 ofs) * (gain : Int)) 262144

/-- The bound of R53 on the systematic error of a conversion, in 1/1000 LSB. -/
def sysBound (code : Nat) : Int := 850 + 2 * (code : Int)

/-- A corrected value of a calibrated engine (R52): the systematic part of its error is held to the limits of
Table 2.4 about the charge and its noise (log entry 113). -/
def holdBudget (charge : Nat) (noise : Int) (code : Nat) (v : Int) : Int :=
  let x := 1000 * ((charge : Int) * 256 + noise)
  let e := 256 * sysBound code
  clampI (-((e - x) / 256000)) ((x + e) / 256000) v

/-- The segment of a row (R35). -/
def segOf (row : Nat) : Nat := row / 1024

/-- Whether a segment is enabled (ENG_CFG.SEG_EN). -/
def State.segEn (s : State) (c e seg : Nat) : Bool :=
  (s.fget F.ENG_CFG_SEG_EN (eng c e)).testBit seg

/-- The rows of a vector whose bit of a plane is 1 in an enabled segment. -/
def State.rowsOn (s : State) (c e : Nat) (v : EngVec) (plane seg : Nat) : List Nat :=
  if s.segEn c e seg then
    (v.inputs.filter (fun p => segOf p.1 == seg && p.2.testBit plane)).map (fun p => p.1)
  else []

/-- Whether a plane has a 1 in a segment (R44). -/
def State.planeOn (s : State) (c e : Nat) (v : EngVec) (plane seg : Nat) : Bool :=
  !(s.rowsOn c e v plane seg).isEmpty

/-- Whether a plane is issued at all (R44). -/
def State.planeIssued (s : State) (c e : Nat) (v : EngVec) (plane : Nat) : Bool :=
  s.planeOn c e v plane 0 || s.planeOn c e v plane 1

/-- The next plane that is issued, from `p` on, and how many planes it skips. -/
def State.nextPlane (s : State) (c e : Nat) (v : EngVec) : Nat → Nat → Nat → Nat × Nat
  | 0, p, k => (p, k)
  | n + 1, p, k =>
    if v.planes ≤ p then (p, k)
    else if s.planeIssued c e v p then (p, k) else s.nextPlane c e v n (p + 1) (k + 1)

/-- The planes still to be issued from `p` on. -/
def State.planesLeft (s : State) (c e : Nat) (v : EngVec) (p : Nat) : Nat :=
  ((List.range 8).filter (fun q => decide (p ≤ q) && decide (q < v.planes) && s.planeIssued c e v q)).length

/-- The row in an engine's rewrite window: one that opened within the length of a cycle, and whose cycle has not
run (R110). -/
def State.windowRow (s : State) (g : Engine) : Option Window :=
  match g.window with
  | none => none
  | some w => if !w.used && decide (s.ns < w.opened + s.cycleNs) then some w else none

/-- Rows that the array does not drive in a cycle: the row in its rewrite window and the rows
that a scratch write path injects (R51, R149). -/
def standRows (v : EngVec) (w : Option Window) : List Nat := (w.map (fun w => w.row)).toList ++ v.exact

/-- The charge on a column's line from a list of driven rows (R37). -/
def Engine.charge (g : Engine) (rows : List Nat) (col : Nat) : Nat :=
  rows.foldl (fun t r => t + g.level r col) 0

/-- The stand-in's exact contribution to a slice column: the levels of the stood-in rows, of a rewrite window from
the record read for its visit, of a scratch row with its new values (R51, R110, R149). -/
def State.standLevel (s : State) (c e : Nat) (v : EngVec) (w : Option Window) (rows : List Nat) (col : Nat) : Nat :=
  let g := s.engine c e
  rows.foldl (fun t r =>
    match w with
    | some x => t + (if x.row = r then recordLevel (s.plan c e) x.record col else g.pendLevel v.writes r col)
    | none => t + g.pendLevel v.writes r col) 0

/-- One converted physical segment-column of a cycle. -/
structure Conversion where
  col : Nat
  seg : Nat
  code : Nat
  value : Int
  sat : Bool
  deriving DecidableEq, Repr

/-- One conversion of a physical column's line, full or half, with the free values numbered `n`. -/
def State.reading (s : State) (c e : Nat) (rows : List Nat) (ph seg kind n : Nat) : Conversion :=
  let g := s.engine c e
  let q := g.charge rows ph
  let r := convert q (Config.convError n + Config.convNoise n)
  let p := g.pair ph seg kind
  let v := correct (gainOf p.inj (g.rhoOf ph seg kind)) p.ofs r.1
  ⟨ph, seg, r.1, if !r.2 && s.fon F.ENG_STATUS_CAL_VALID (eng c e) then holdBudget q (Config.convNoise n) r.1 v else v, r.2⟩

/-- Convert every physical column of one segment in full (R36), drawing one free value for each from the
counter at `n`. -/
def State.convertSeg (s : State) (c e : Nat) (rows : List Nat) (seg n : Nat) : List Conversion :=
  (List.range 1344).map (fun ph => s.reading c e rows ph seg 0 (n + ph))

/-- The reference columns: 1,280 to 1,311 (R113). -/
def refCol (k : Nat) : Nat := 1280 + k

/-! ### Reference samples and the cell factor (R115) -/

/-- ρ = Σ E × q ÷ Σ E² of samples in Q2.14, none without a sample. -/
def fitRho (l : List RefSample) : Option Nat :=
  let d := l.foldl (fun t x => t + x.e * x.e) 0
  if d = 0 then none else some (Nat.min 65535 (roundHalfEven (l.foldl (fun t x => t + (x.e : Int) * x.q) 0) d).toNat)

/-- The window of the fit: the most recent 4,096 samples, or those of the last T ÷ 8, whichever are fewer. -/
def fitWindow (t now : Nat) (l : List RefSample) : List RefSample :=
  (l.take 4096).filter (fun x => decide (now ≤ x.time + t / 8))

/-- q of a reference column's code in 1/16384: (c − O_ref) ÷ a_ref, none before its calibration. -/
def refQ (p : CalPair) (code : Nat) : Option Int :=
  if p.inj = 0 then none else some (roundHalfEven (((code : Int) * 16 - sext 12 p.ofs) * 16777216) p.inj)

/-- A reference sample of one group, segment and kind, from the rows driven and the reference column's code;
expected charges below 16 are discarded. -/
def Engine.addRef (g : Engine) (t now k seg kind : Nat) (rows : List Nat) (code : Nat) : Engine :=
  let e := rows.foldl (fun n r => n + refLevel k r) 0
  match refQ (g.pair (refCol k) seg kind) code with
  | none => g
  | some q =>
    if e < 16 then g
    else
      let key := (k * 2 + seg) * 3 + kind
      let l := fitWindow t now (⟨e, q, now⟩ :: Tab.getD g.refs key [])
      let g := { g with refs := Tab.set g.refs key l }
      match fitRho l with
      | none => g
      | some r => { g with rhoNew := Tab.set g.rhoNew key (r, now) }

/-- Reference samples of every group from a list of codes by group. -/
def Engine.addRefs (g : Engine) (t now seg kind : Nat) (rows codes : List Nat) : Engine :=
  (List.range 32).foldl (fun g k => g.addRef t now k seg kind rows (codes.getD k 0)) g

/-- The codes of the 32 reference columns of a segment for driven rows, with free values from `n`. -/
def State.refCodes (s : State) (c e : Nat) (rows : List Nat) (seg kind n : Nat) : List Nat :=
  (List.range 32).map (fun k => (s.reading c e rows (refCol k) seg kind (n + k)).code)

/-- The lower and the upper half of rows of a segment (R46). -/
def lowerHalf (rows : List Nat) : List Nat := rows.filter (fun r => decide (r % 1024 < 512))
/-- The upper half of rows of a segment. -/
def upperHalf (rows : List Nat) : List Nat := rows.filter (fun r => decide (512 ≤ r % 1024))

/-- The significance of a slice column (R42). -/
def colSig (plan col : Nat) : Int := (planSig plan).getD (col % planSlices plan) 0

/-- Add a slice column's value into the running sums with its significance and plane weight
(R42). -/
def addSlice (plan : Nat) (sums : Tab Int) (col : Nat) (w v : Int) : Tab Int :=
  let n := col / planSlices plan
  Tab.set sums n (Tab.getD sums n 0 + w * (colSig plan col) * v)

/-- The weight of a plane: 2^p, negative for the top plane of signed inputs (R42). -/
def planeWeight (v : EngVec) (p : Nat) : Int :=
  if v.signed && p + 1 == v.planes then -((2 ^ p : Nat) : Int) else ((2 ^ p : Nat) : Int)

/-- Add one to an entry of a table of counts. -/
def tally (t : Tab Nat) (k : Nat) : Tab Nat := Tab.set t k (Tab.getD t k 0 + 1)

/-- Record a saturated segment-column in ENG_SAT_LAST (R60). -/
def State.satLast (s : State) (c e col plane seg : Nat) (half upper clipped : Bool) : State :=
  let i := eng c e
  let s := s.fset F.ENG_SAT_LAST_COLUMN i col
  let s := s.fset F.ENG_SAT_LAST_PLANE i plane
  let s := s.fset F.ENG_SAT_LAST_SEG i seg
  let s := s.fset F.ENG_SAT_LAST_HALF i (ofBool half)
  let s := s.fset F.ENG_SAT_LAST_UPPER i (ofBool upper)
  let s := s.fset F.ENG_SAT_LAST_CLIPPED i (ofBool clipped)
  s.fset F.ENG_SAT_LAST_VALID i 1

/-- Clip a segment-plane (R48): count it, set CLIP_SEEN, record it and log it. -/
def State.clip (s : State) (c e col plane seg : Nat) (half upper slipOnly : Bool) : State :=
  let i := eng c e
  let s := s.count C.ENG_CNT_CLIP i
  let s := if slipOnly then s.count C.ENG_CNT_SLIPCLIP i else s
  let s := s.flag F.ENG_STATUS_CLIP_SEEN i
  let s := s.satLast c e col plane seg half upper true
  s.logRate 1000000 i { code := 0x0302, core := c, engine := e, argA := col }

/-- What the engine decides about the saturated columns of one segment of a cycle (R47): granted
a split replay, or clipped, and clipped for lack of slip allowance alone. -/
inductive SatDecision where
  | none
  | replay
  | clip (slipOnly : Bool)
  deriving DecidableEq, Repr

/-- The test of R47, in bit-plane cycles from the slot start: `done` cycles have been run or
granted and `left` planes are still to come. -/
def satDecide (splitEn : Bool) (replays maxReplays planes done left : Nat) : SatDecision :=
  let c1 := splitEn
  let c2 := decide (replays < maxReplays)
  let c3 := decide (done + left + 1 ≤ planes + 2)
  if c1 && c2 then (if c3 then .replay else .clip true) else .clip false

/-- Slip after a vector's last cycle (R49): what is left of its cycles beyond its slot and the
idle slots that passed meanwhile. -/
def State.setSlip (s : State) (c e clock idle : Nat) : State :=
  let i := eng c e
  let sp := s.fget F.CORE_CAD_CFG_SLOT_PLANES c
  let slip := clock - sp * (1 + idle)
  let s := s.fset F.ENG_SLIP_SLIP_CYC i (min 2 slip)
  if s.fget F.ENG_SLIP_MAX_CYC i < slip then s.fset F.ENG_SLIP_MAX_CYC i (min 2 slip) else s

/-- Whether every cycle of a vector has been issued. -/
def State.vecDone (s : State) (c e : Nat) (v : EngVec) : Bool :=
  v.splits.isEmpty && s.planesLeft c e v v.plane == 0

/-- Let a begun vector in the second staging buffer run once the running one has issued its last
cycle, which then stands in the tree. -/
def State.advance (s : State) (c e : Nat) : State :=
  let g := s.engine c e
  match g.run, g.tree, g.next with
  | some v, none, some w =>
    if w.begun && s.vecDone c e v then
      let i := eng c e
      -- a vector without a cycle repays its slip as it leaves (R45, R49)
      let s := if v.issued = 0 then s.setSlip c e v.clock g.idle else s
      let w := { w with clock := s.fget F.ENG_SLIP_SLIP_CYC i }
      s.setEngine c e { g with run := some w, tree := some v, next := none, idle := 0 }
    else s
  | none, _, some w =>
    if w.begun then
      let w := { w with clock := s.fget F.ENG_SLIP_SLIP_CYC (eng c e) }
      s.setEngine c e { g with run := some w, next := none, idle := 0 }
    else s
  | _, _, _ => s

/-- Take new corrections and cell factors into force at a vector start (R119). -/
def Engine.takeCal (g : Engine) : Engine :=
  { g with
    cal := g.calNew.foldl (fun t p => Tab.set t p.1 p.2) g.cal
    rho := g.rhoNew.foldl (fun t p => Tab.set t p.1 p.2) g.rho
    calNew := []
    rhoNew := [] }

/-! ### Scratch row writes (R148 to R150) -/

/-- Write one queued row of a scratch engine physically: its cells, its time, and whether it stands as zeroed. -/
def State.writeScratch (s : State) (c e : Nat) (w : RowWrite) : State :=
  let g := s.engine c e
  let s := s.setEngine c e (g.writeRow w.row (w.level (g.level w.row)) (s.spareTarget c e))
  let k := s.core c
  let key := w.se * 2048 + w.row
  let s := s.setCore c { k with
    scrTime := if w.upkeep then Tab.erase k.scrTime key else Tab.set k.scrTime key s.ns
    scrZeroed := (k.scrZeroed.filter (fun r => r != key)) ++ (if w.upkeep then [key] else []) }
  if w.upkeep then s else s.count C.CORE_CNT_SCRROW c

/-- A write window (R148): up to four of the running vector's row writes are made in one bit-plane cycle. -/
def State.writeWindow (s : State) (c e : Nat) : State :=
  match (s.engine c e).run with
  | none => s
  | some v =>
    let s := s.setEngine c e { s.engine c e with run := some { v with writes := v.writes.drop 4 } }
    (v.writes.take 4).foldl (fun s w => s.writeScratch c e w) s

/-- A write window in a cycle in which the engine is idle: queued rows, of those before a vector that is already
issued. -/
def State.idleWindow (s : State) (c e : Nat) : State :=
  let k := s.core c
  let limit := (s.engine c e).next.map (fun v => v.mark)
  let ws := (k.scrQueue.filter (fun w => w.se + 32 == e && limit.elim true (fun n => decide (w.num < n)))).take 4
  let s := s.setCore c { k with scrQueue := k.scrQueue.filter (fun w => !ws.contains w) }
  ws.foldl (fun s w => s.writeScratch c e w) s

/-! ### The cycle (R38 to R51) -/

/-- The decisions about the saturated columns of both segments of a cycle, one after the other (R47, R49). -/
def State.satDecisions (s : State) (c e : Nat) (v : EngVec) (left : Nat) (sat0 sat1 : List Nat) : SatDecision × SatDecision :=
  let i := eng c e
  let en := s.fon F.ENG_CFG_SPLIT_EN i
  let mx := s.fget F.ENG_CFG_REPLAY_MAX i
  let d0 := if sat0.isEmpty then .none else satDecide en v.replays mx v.planes (v.clock + 1) left
  let r0 := if d0 = .replay then 1 else 0
  (d0, if sat1.isEmpty then .none else satDecide en (v.replays + r0) mx v.planes (v.clock + 1 + r0) left)

/-- What one segment of a plane brings to the running sums: each slice column's corrected value and stand-in, but
for a column that a replay takes instead (R46, R51). -/
def State.segSums (s : State) (c e : Nat) (v : EngVec) (x : Option Window) (conv : List Conversion) (stand : List Nat)
    (replay : Bool) (w : Int) (sums : Tab Int) : Tab Int :=
  let plan := s.plan c e
  if conv.isEmpty && stand.isEmpty then sums
  else (List.range (planCols plan * planSlices plan)).foldl (fun t col =>
    let y := conv.getD (s.physical c e col) ⟨0, 0, 0, 0, false⟩
    if y.sat && replay then t
    else
      let t := if conv.isEmpty then t else addSlice plan t col w y.value
      let l := s.standLevel c e v x stand col
      if l = 0 then t else addSlice plan t col w l) sums

/-- Clip events of a segment by output column: the slice columns whose physical column keeps its code 255 (R48,
R104). -/
def State.clipTally (s : State) (c e : Nat) (sat : List Nat) (clips : Tab Nat) : Tab Nat :=
  let plan := s.plan c e
  if sat.isEmpty then clips
  else (List.range (planCols plan * planSlices plan)).foldl (fun t col =>
    if sat.contains (s.physical c e col) then tally t (col / planSlices plan) else t) clips

/-- The columns of a decision to clip. -/
def SatDecision.clipped (d : SatDecision) (l : List Nat) : List Nat :=
  match d with
  | .clip _ => l
  | _ => []

/-- The records of one cycle's saturations in ENG_SAT_LAST, the one that stands written last: a clip goes before a
replayed saturation, the lowest column before others.  Where one column saturates in both segments the record is
segment 1's, which the spec leaves open (R60, log entry 115). -/
def State.satRecords (s : State) (c e p : Nat) (d0 d1 : SatDecision) (sat0 sat1 : List Nat) : State :=
  let rec1 (s : State) (d : SatDecision) (l : List Nat) (k : Nat) : State :=
    match d, l with
    | .replay, col :: _ => s.satLast c e col p k false false false
    | _, _ => s
  let rec2 (s : State) (d : SatDecision) (l : List Nat) (k : Nat) : State :=
    match d, l with
    | .clip so, col :: _ => s.clip c e col p k false false so
    | _, _ => s
  let lower := decide (sat1.headD 2000 ≤ sat0.headD 2000)
  let s := if lower then rec1 (rec1 s d0 sat0 0) d1 sat1 1 else rec1 (rec1 s d1 sat1 1) d0 sat0 0
  if lower then rec2 (rec2 s d0 sat0 0) d1 sat1 1 else rec2 (rec2 s d1 sat1 1) d0 sat0 0

/-- The cycle proper: the plane `p` of the running vector `v` is issued; `standin` as in BIT_PLANE_CYCLE. -/
def State.issuePlane (s : State) (c e : Nat) (v : EngVec) (p skipped : Nat) (standin : Bool) : State :=
  let i := eng c e
  let g := s.engine c e
  let x := if standin then s.windowRow g else none
  let st := standRows v x
  let n0 := s.free
  let seg (k : Nat) : List Nat := (s.rowsOn c e v p k).filter (fun r => !st.contains r)
  let stoodIn (k : Nat) : List Nat := (s.rowsOn c e v p k).filter (fun r => st.contains r)
  let conv0 := if (seg 0).isEmpty then [] else s.convertSeg c e (seg 0) 0 n0
  let conv1 := if (seg 1).isEmpty then [] else s.convertSeg c e (seg 1) 1 (n0 + 1344)
  let w := planeWeight v p
  let left := s.planesLeft c e v (p + 1)
  let sat0 := (conv0.filter (fun y => y.sat)).map (fun y => y.col)
  let sat1 := (conv1.filter (fun y => y.sat)).map (fun y => y.col)
  let d := s.satDecisions c e v left sat0 sat1
  let r0 := ofBool (decide (d.1 = .replay))
  let r1 := ofBool (decide (d.2 = .replay))
  let sums := s.segSums c e v x conv0 (stoodIn 0) (r0 == 1) w v.sums
  let sums := s.segSums c e v x conv1 (stoodIn 1) (r1 == 1) w sums
  let clips := s.clipTally c e (d.2.clipped sat1) (s.clipTally c e (d.1.clipped sat0) v.clips)
  let splits := (if r0 = 1 then [⟨p, 0, sat0⟩] else []) ++ (if r1 = 1 then [⟨p, 1, sat1⟩] else [])
  let v := { v with
    plane := p + 1, clock := v.clock + 1, issued := v.issued + 1
    replays := v.replays + r0 + r1, splits := v.splits ++ splits, sums := sums, clips := clips }
  let codes (l : List Conversion) : List Nat := ((l.drop 1280).take 32).map (fun y => y.code)
  let cal := (s.calEngines c).contains e
  let g := if cal && !conv0.isEmpty then g.addRefs (s.periodNs c) s.ns 0 0 (seg 0) (codes conv0) else g
  let g := if cal && !conv1.isEmpty then g.addRefs (s.periodNs c) s.ns 1 0 (seg 1) (codes conv1) else g
  let hit := x.elim false (fun y => (stoodIn 0 ++ stoodIn 1).contains y.row)
  let g := { g with run := some v, window := g.window.map (fun y => { y with used := y.used || standin }) }
  let s := (s.setEngine c e g).draw 2688
  let s := if hit then s.count C.RST_CNT_STANDIN c else s
  let s := s.countN C.ENG_CNT_PSKIP i skipped
  let s := s.count C.ENG_CNT_PLANE i
  let s := s.countN C.ENG_CNT_SEGSKIP i
    (ofBool (!s.planeOn c e v p 0) + ofBool (!s.planeOn c e v p 1))
  let s := s.countN C.ENG_CNT_SAT i (sat0.length + sat1.length)
  let s := if s.fon F.ENG_STATUS_CAL_VALID i then s else s.flag F.ENG_STATUS_UNCAL_RUN i
  let s := s.satRecords c e p d.1 d.2 sat0 sat1
  let s := s.writeWindow c e
  if s.vecDone c e v then s.setSlip c e v.clock g.idle else s

/-- The halves of one saturated column (R46): each half is converted on its own. -/
def State.splitCol (s : State) (c e : Nat) (rows : List Nat) (seg ph n : Nat) : Int × Bool × Bool :=
  let lo := s.reading c e (lowerHalf rows) ph seg 1 n
  let hi := s.reading c e (upperHalf rows) ph seg 2 (n + 1)
  (lo.value + hi.value, lo.sat, hi.sat)

/-- The replay proper: the granted request `q` of the running vector `v`.  Where both halves of a column saturate
the record names the lower one, which the spec leaves open (R60, log entry 115). -/
def State.runSplit (s : State) (c e : Nat) (v : EngVec) (q : SplitReq) (rest : List SplitReq) (standin : Bool) : State :=
  let i := eng c e
  let plan := s.plan c e
  let g := s.engine c e
  let x := if standin then s.windowRow g else none
  let st := standRows v x
  let rows := (s.rowsOn c e v q.plane q.seg).filter (fun r => !st.contains r)
  let stood := (s.rowsOn c e v q.plane q.seg).filter (fun r => st.contains r)
  let n0 := s.free
  let w := planeWeight v q.plane
  let res := (List.range q.cols.length).map (fun k =>
    (q.cols.getD k 0, s.splitCol c e rows q.seg (q.cols.getD k 0) (n0 + 2 * k)))
  let sums := (List.range (planCols plan * planSlices plan)).foldl (fun t col =>
    match res.find? (fun y => y.1 == s.physical c e col) with
    | none => t
    | some y => addSlice plan t col w (y.2.1 + (s.standLevel c e v x stood col : Int))) v.sums
  let clipped := res.filter (fun y => y.2.2.1 || y.2.2.2)
  let clips := s.clipTally c e (clipped.map (fun y => y.1)) v.clips
  let v := { v with clock := v.clock + 1, issued := v.issued + 1, splits := rest, sums := sums, clips := clips }
  let n1 := n0 + 2688
  let g := if (s.calEngines c).contains e then
      (g.addRefs (s.periodNs c) s.ns q.seg 1 (lowerHalf rows) (s.refCodes c e (lowerHalf rows) q.seg 1 n1)).addRefs
        (s.periodNs c) s.ns q.seg 2 (upperHalf rows) (s.refCodes c e (upperHalf rows) q.seg 2 (n1 + 32))
    else g
  let hit := x.elim false (fun y => stood.contains y.row)
  let g := { g with run := some v, window := g.window.map (fun y => { y with used := y.used || standin }) }
  let s := (s.setEngine c e g).draw 2752
  let s := if hit then s.count C.RST_CNT_STANDIN c else s
  let s := s.count C.ENG_CNT_PLANE i
  let s := s.count C.ENG_CNT_SPLIT i
  let s := s.countN C.ENG_CNT_SAT i
    (clipped.foldl (fun n y => n + ofBool y.2.2.1 + ofBool y.2.2.2) 0)
  let s := match clipped with
    | [] => s
    | y :: _ => s.clip c e y.1 q.plane q.seg true (!y.2.2.1) false
  let s := s.writeWindow c e
  if s.vecDone c e v then s.setSlip c e v.clock g.idle else s

/-! ### Accumulation (R81 to R89) -/

/-- One step of a column's generator (R88). -/
def genStep (g : Nat) : Nat := if g % 2 = 1 then (g / 2) ^^^ 0xB400 else g / 2

/-- `n` steps of a generator. -/
def genSteps : Nat → Nat → Nat
  | 0, g => g
  | n + 1, g => genSteps n (genStep g)

/-- A column's generator state when its tile begins (R88). -/
def genStart (seed n : Nat) : Nat :=
  let g := seed ^^^ (n * 0x9E37 % 65536)
  if g = 0 then 1 else g

/-- round_sr (R88): the rounding of x ÷ 2^s with the generator's new state. -/
def roundSr (x : Int) (sh gen : Nat) : Int :=
  if sh = 0 then x
  else
    let q := x / ((2 ^ sh : Nat) : Int)
    let f := (x % ((2 ^ sh : Nat) : Int)).toNat
    let u := gen / 2 ^ (16 - sh)
    if u < f then q + 1 else q

/-- Hold a sum at the accumulator's limits (R83); the flag says that it was held. -/
def hold32 (v : Int) : Int × Bool :=
  let w := clampI (-2147483648) 2147483647 v
  (w, decide (w ≠ v))

/-- Hold a sum at the second level's limits (R85). -/
def hold40 (v : Int) : Int × Bool :=
  let w := clampI (-549755813887) 549755813887 v
  (w, decide (w ≠ v))

/-- The seed and the shift under which a head's columns stand. -/
def Tile.useOf (x : Tile) (h : Nat) : Nat × Nat := Tab.getD x.older h (x.seed, x.shift)
/-- The tile seed of a head's use (R89). -/
def Tile.seedOf (x : Tile) (h : Nat) : Nat := (x.useOf h).1
/-- The shift of a head's use (R95). -/
def Tile.shiftOf (x : Tile) (h : Nat) : Nat := (x.useOf h).2

/-- Add to an entry of a table of counts. -/
def bump (t : Tab Nat) (k n : Nat) : Tab Nat := if n = 0 then t else Tab.set t k (Tab.getD t k 0 + n)

/-- Count an accumulator saturation of a column and log it (R83). -/
def State.accSat (s : State) (c t key : Nat) : State :=
  let x := s.tile c t
  let s := s.setTile c t { x with clips := tally x.clips key }
  let s := s.count C.CORE_EPI_CNT_ACCSAT c
  let s := s.flag F.CORE_EPI_STATUS_ACC_SAT_SEEN c
  s.logRate 1000000 c { code := 0x0402, core := c }

/-- Add one column's contribution into the head's accumulator (R83). -/
def State.addPass (s : State) (c t h base pass n : Nat) (x : Int) : State :=
  let tl := s.tile c t
  let key := colKey h n
  let g := genSteps (pass + 1) (genStart (tl.seedOf h) (base + n))
  let (v, sat) := hold32 (Tab.getD tl.acc key 0 + roundSr x (tl.shiftOf h) g)
  let s := s.setTile c t { tl with acc := Tab.put 0 tl.acc key v }
  if sat then s.accSat c t key else s

/-- Add a vector's contribution into the accumulators and count the pass. -/
def State.accumulate (s : State) (c e : Nat) (v : EngVec) : State :=
  let h := s.headOf c e
  let base := s.colBase c h
  let s := (List.range (planCols (s.plan c e))).foldl
    (fun s n => s.addPass c v.tile h base v.pass n (Tab.getD v.sums n 0)) s
  let x := s.tile c v.tile
  let clips := v.clips.foldl (fun t p => bump t (colKey h p.1) p.2) x.clips
  let rows := match (s.engine c e).map with
    | none => 2048
    | some m => m.rows
  s.setTile c v.tile { x with
    clips := clips
    groupPass := tally x.groupPass h
    usePass := tally x.usePass h
    total := tally x.total h
    rows := bump x.rows h rows }

/-- The vector of an engine whose contribution comes next: the one in the tree, else the running
one once it has issued its last cycle. -/
def State.finishing (s : State) (c e : Nat) : Option EngVec :=
  let g := s.engine c e
  match g.tree with
  | some v => some v
  | none =>
    match g.run with
    | none => none
    | some v => if s.vecDone c e v then some v else none

/-- Take a finished vector out of its engine, counting the planes it skipped at its end. -/
def State.retireVec (s : State) (c e : Nat) (v : EngVec) : State :=
  let i := eng c e
  let g := s.engine c e
  let s := s.count C.ENG_CNT_VEC i
  match g.tree with
  | some _ => s.setEngine c e { g with tree := none }
  | none =>
    let s := s.setEngine c e { g with run := none, idle := 0 }
    -- a vector without a cycle leaves its slip as a vector of no length does (R45, R49)
    if v.issued = 0 then s.setSlip c e v.clock g.idle else s

/-- The planes a finished vector skipped after its last issued one (R44). -/
def skippedTail (v : EngVec) : Nat := v.planes - v.plane

/-- VECTOR_COMPLETE (R43, R83): a group that already holds 32 passes takes no further one before
its transfer sweep (R84). -/
def execVectorComplete (c e : Nat) (s : State) : Res :=
  match s.finishing c e with
  | none => .next s
  | some v =>
    if 32 ≤ Tab.getD (s.tile c v.tile).groupPass (s.headOf c e) 0 then .next s
    else
      let s := s.accumulate c e v
      let s := s.countN C.ENG_CNT_PSKIP (eng c e) (skippedTail v)
      let s := s.retireVec c e v
      .next (s.advance c e)

/-! ### Registers (R56 to R63) -/

/-- A core's windows ignore writes once it is retired (Table 6.2). -/
def State.retired (s : State) (c : Nat) : Bool := s.fget F.CORE_STATUS_STATE c == 4

/-- Whether RWS fields of a core are locked: it runs or is halted (R139). -/
def State.coreLocked (s : State) (c : Nat) : Bool :=
  s.fget F.CORE_STATUS_STATE c == 2 || s.fget F.CORE_STATUS_STATE c == 3

/-- The fields of an ENG_CFG value that R58 and R147 allow. -/
def engCfgOk (e v : Nat) : Bool :=
  let p := bits v 4 4
  decide (1 ≤ p) && decide (p ≤ 8) && bits v 10 2 != 3 && bits v 12 2 != 0
    && (decide (e < 32) || bits v 0 2 == 0)

/-- ENG_CFG_WRITE (R56, R58). -/
def execEngCfgWrite (c e v : Nat) (s : State) : Res :=
  let i := eng c e
  if s.retired c then .next s
  else if s.coreLocked c then
    .next ((s.flag F.ENG_STATUS_REFUSED_WRITE i).log { code := 0x0301, core := c, engine := e })
  else if engCfgOk e v then
    let s := s.fset F.ENG_CFG_SLICE_PLAN i (bits v 0 2)
    let s := s.fset F.ENG_CFG_PLANES i (bits v 4 4)
    let s := s.fset F.ENG_CFG_SIGNED i (bits v 8 1)
    let s := s.fset F.ENG_CFG_SPLIT_EN i (bits v 9 1)
    let s := s.fset F.ENG_CFG_REPLAY_MAX i (bits v 10 2)
    .next (s.fset F.ENG_CFG_SEG_EN i (bits v 12 2))
  else .next ((s.flag F.ENG_STATUS_CFG_INVALID i).log { code := 0x0303, core := c, engine := e })

/-! ### Transfer sweeps (R84, R85) -/

/-- A value enters a column's second level at level `k` (R85): levels from `k` on. -/
def l2Enter : List (Option Int) → Int → List (Option Int) × Bool
  | [], _ => ([], false)
  | none :: r, v => (some v :: r, false)
  | some w :: r, v =>
    let (h, st) := hold40 (w + v)
    let (r', st') := l2Enter r h
    (none :: r', st || st')

/-- An empty second level: levels 0 to 8. -/
def l2Empty : List (Option Int) := List.replicate 9 none

/-- The sum that a drain forms of the waiting partial sums, in ascending level order, and whether
it was held (R85). -/
def l2Sum (l : List (Option Int)) : Int × Bool :=
  l.foldl (fun p x =>
    match x with
    | none => p
    | some v => let (h, st) := hold40 (p.1 + v); (h, p.2 || st)) (0, false)

/-- A group's value arrives at a column's second level. -/
def State.l2Add (s : State) (c t key : Nat) (v : Int) : State :=
  let x := s.tile c t
  let (l, sat) := l2Enter (Tab.getD x.l2 key l2Empty) v
  let s := s.setTile c t { x with l2 := Tab.set x.l2 key l }
  if sat then s.accSat c t key else s

/-- The heads of a core's tile. -/
def State.heads (s : State) (c : Nat) : List Nat := (List.range 36).filter (s.isHead c)

/-- The column keys that a tile holds. -/
def State.tileCols (s : State) (c : Nat) : List Nat :=
  (s.heads c).flatMap (fun h => (List.range (planCols (s.plan c h))).map (colKey h))

/-- The core whose reduction unit holds the second level of a core's tile: the exit core of its
chain. -/
def State.l2Core (s : State) (c : Nat) : Nat :=
  match s.stageOf c with
  | none => c
  | some (_, r) => r.chainExit (s.posOf c)

/-- The key in core `d` of the column that key `k` names in core `c` of the same stage: the same
matrix column of the same stage. -/
def State.keyIn (s : State) (c d k : Nat) : Nat :=
  if c = d then k
  else
    match (s.engine c (k / 1024)).map with
    | none => k
    | some m =>
      let n := m.nOff + k % 1024
      match (s.heads d).find? (fun h =>
        match (s.engine d h).map with
        | none => false
        | some q => q.matrix == m.matrix && decide (q.nOff ≤ n) && decide (n < q.nOff + q.cols)) with
      | none => k
      | some h =>
        match (s.engine d h).map with
        | none => k
        | some q => colKey h (n - q.nOff)

/-- The passes and rows of a core's tile that go over to the core that holds its second level, by that core's
heads. -/
def State.countsFor (s : State) (c d t : Nat) : List (Nat × Nat × Nat) :=
  let x := s.tile c t
  (x.total.map (fun p => (s.keyIn c d (colKey p.1 0) / 1024, p.2, Tab.getD x.rows p.1 0)))

/-- A group's passes and rows count in the core that holds the second level, and so does the group (R82, R86). -/
def Tile.addGroup (x : Tile) (counts : List (Nat × Nat × Nat)) : Tile :=
  { x with
    groups := x.groups + 1
    total := counts.foldl (fun t p => bump t p.1 p.2.1) x.total
    rows := counts.foldl (fun t p => bump t p.1 p.2.2) x.rows }

/-- Whether a pass waits that would take a chain's open group of a tile past 32 (R84). -/
def State.groupFull (s : State) (c t : Nat) : Bool :=
  (List.range 36).any (fun e => (s.finishing c e).elim false (fun v =>
    v.tile == t && decide (32 ≤ Tab.getD (s.tile c t).groupPass (s.headOf c e) 0)))

/-- TRANSFER_SWEEP (R84): before a pass that would take a chain's open group past 32, every column's value moves to
the second level and the accumulators are cleared. -/
def execTransferSweep (c t : Nat) (s : State) : Res :=
  if s.groupFull c t then
    let x := s.tile c t
    let d := s.l2Core c
    let counts := if d = c then [] else s.countsFor c d t
    let s := (s.tileCols c).foldl (fun s k => s.l2Add d t (s.keyIn c d k) (Tab.getD x.acc k 0)) s
    let s := s.setTile d t ((s.tile d t).addGroup counts)
    let y := s.tile c t
    .next (s.setTile c t { y with
      acc := [], groupPass := [], total := if d = c then y.total else [], rows := if d = c then y.rows else [] })
  else .next s

end Sys2Proof.Machine
end

