-- ==== Sys2Proof/Machine/Tile.lean ====
section
/-! DEFINITION. Draining a tile: the fused epilogue, the reduction unit, the begin of the next
use, and the fallback to the vector unit (R92 to R107). -/

namespace Sys2Proof.Machine

/-! ### Activations (R99, R100) -/

/-- One segment of an activation table: x_lo, slope, intercept as FP32 patterns. -/
abbrev TableSeg := Nat × Nat × Nat

/-- The segment of a table that covers a value (R100). -/
def tableSeg (l : List TableSeg) (y : FV) : TableSeg :=
  l.foldl (fun b e => if FV.lt y (fp32.decode e.1) then b else e) (l.headD (0, 0, 0))

/-- The piecewise-linear function of a table, as one fused multiply-add (R100). -/
def tableFn (l : List TableSeg) (y : FV) : FV :=
  let e := tableSeg l y
  (((fp32.decode e.2.1).mul y).add (fp32.decode e.2.2)).r32

/-- The activation codes of Table 4.4 on an FP32 value. -/
def activate (d : Desc) (tab : List TableSeg) (y : FV) : FV :=
  match y with
  | .nan => .nan
  | _ =>
    if d.act = 1 then FV.maxNum y (.fin false 0 0)
    else if d.act = 2 then
      (if FV.lt y (.fin true 0 0) then ((fp32.decode d.p0).mul y).r32 else y)
    else if d.act = 3 then freeFn 6 y
    else if d.act = 4 then freeFn 7 y
    else if d.act = 5 then freeFn 4 y
    else if d.act = 6 then freeFn 5 y
    else if d.act = 7 then FV.minNum (FV.maxNum y (fp32.decode d.p0)) (fp32.decode d.p1)
    else if d.act = 8 then tableFn tab y
    else y

/-! ### One column through the epilogue (R98) -/

/-- What a column's way through the epilogue yields: y after step 2, whether steps 1 and 2
saturated, and the converted element. -/
structure ColOut where
  y : FV
  sats : Nat
  conv : Conv
  deriving DecidableEq, Repr

/-- Step 1: a × 2^(s + E_out) × σ, exact and rounded once (R98). -/
def scaleStep (a : Int) (sh : Nat) (eout : Int) (sigma : FV) : FV × Bool :=
  let v := (FV.ofInt a).mul sigma
  match v with
  | .fin n m e => (FV.fin n m (e + sh + eout)).r32sat
  | x => x.r32sat

/-- The per-tensor or per-column scale of a descriptor. -/
def State.sigma (s : State) (c : Nat) (d : Desc) (k : Nat) : FV :=
  if d.perColumn then fp32.decode (leAt (s.sramRead c (d.scaleAddr + 4 * k) 4) 0 4)
  else fp32.decode d.scale

/-- The bias of a column. -/
def State.bias (s : State) (c : Nat) (d : Desc) (k : Nat) : FV :=
  if d.biasBf16 then bf16.decode (leAt (s.sramRead c (d.biasAddr + 2 * k) 2) 0 2)
  else fp32.decode (leAt (s.sramRead c (d.biasAddr + 4 * k) 4) 0 4)

/-- Steps 2 to 4 on a scaled value (R98), with the generator state for stochastic rounding. -/
def State.finishCol (s : State) (c : Nat) (d : Desc) (k : Nat) (y : FV) (sats gen : Nat) : ColOut :=
  let (y2, st) := if d.biasEn then (y.add (s.bias c d k)).r32sat else (y, false)
  let tab := Tab.getD (s.core c).tables d.actTable []
  let z := activate d tab y2
  let r := if d.stoch then Rnd.stoch gen else Rnd.even
  ⟨y2, sats + ofBool st, convTo d.outFmt r z⟩

/-- The element number of a column in the output of a drain of engines `first` onward.  Stationary columns follow the
mapping's N offsets from the first head's on; the columns of scratch engines stand behind them, 256 for each scratch
head of the range in ascending order, which the spec leaves open (log entry 116). -/
def State.outIndex (s : State) (c first e n : Nat) : Nat :=
  let ms := ((s.heads c).filter (fun h => decide (first ≤ h))).filterMap (fun h => (s.engine c h).map)
  let base := (ms.head?).elim 0 (fun m => m.nOff)
  match (s.engine c e).map with
  | some m => m.nOff - base + n
  | none =>
    let scr := ((s.heads c).filter (fun h => decide (32 ≤ h) && decide (first ≤ h) && decide (h < e))).length
    ms.foldl (fun k m => Nat.max k (m.nOff - base + m.cols)) 0 + 256 * scr + n

/-- The columns that a drain of heads `first` to `last` covers, in ascending order: engine,
column, and element number. -/
def State.drainCols (s : State) (c first last : Nat) : List (Nat × Nat × Nat) :=
  ((s.heads c).filter (fun h => decide (first ≤ h) && decide (h ≤ last))).flatMap
    (fun h => (List.range (s.usedCols c h)).map (fun n => (h, n, s.outIndex c first h n)))

/-- A column's value at a drain: its second level, with the open group added last (R85). -/
def State.colValue (s : State) (c t key : Nat) : Int × Bool :=
  let x := s.tile c t
  let a := Tab.getD x.acc key 0
  match Tab.find x.l2 key with
  | none => (a, false)
  | some l =>
    let (v, st) := l2Sum l
    let (w, st') := hold40 (v + a)
    (w, st || st')

/-! ### Statistics (R103, R104) -/

/-- Add a value to a column's statistics record (R104): counts saturate, sums are binary64. -/
def ColStat.add (r : ColStat) (y : FV) (clips : Nat) : ColStat :=
  let p := fp32.encIeee y
  let first := r.count == 0
  let mn := if first then p else fp32.encIeee (FV.minNum (fp32.decode r.min) y)
  let mx := if first then p else fp32.encIeee (FV.maxNum (fp32.decode r.max) y)
  let satSum (v : FV) : Nat := (fp64.encSat .even v).pat
  ⟨Nat.min 0xFFFFFFFF (r.count + 1), Nat.min 0xFFFFFFFF (r.clips + clips), mn, mx,
   satSum ((fp64.decode r.sum).add y), satSum ((fp64.decode r.sumsq).add (y.mul y))⟩

/-- Σy and Σy² in binary64 of values with their numbers of a 512-column block (R103): each block's partial sum,
formed in ascending column order, which the spec leaves open (log entry 119), is added in ascending block order. -/
def blockSums (ys : List (Nat × FV)) : FV × FV :=
  let zero : FV := .fin false 0 0
  (List.range (ys.foldl (fun n y => Nat.max n (y.1 + 1)) 0)).foldl (fun (t : FV × FV) k =>
    let blk := (ys.filter (fun y => y.1 == k)).map (fun y => y.2)
    let p := blk.foldl (fun (q : FV × FV) y => ((q.1.add y).r64, (q.2.add (y.mul y)).r64)) (zero, zero)
    if blk.isEmpty then t else ((t.1.add p.1).r64, (t.2.add p.2).r64)) (zero, zero)

/-- The 32 bytes of a reduction record (Table 4.6): VAR is S2 ÷ count − mean² of the exact quotients, rounded once, at
the end; the spec leaves open where it rounds before (R103, log entry 119). -/
def reductionBytes (count : Nat) (sum sumsq : FV) : List Nat :=
  let n := FV.ofInt count
  let mean := sum.div n
  let var := (sumsq.div n).add ((mean.mul mean).neg)
  let var := if FV.lt var (.fin false 0 0) then .fin false 0 0 else var
  bytesOf 4 count ++ bytesOf 4 0 ++ bytesOf 8 (fp64.encIeee sum) ++ bytesOf 8 (fp64.encIeee sumsq)
    ++ bytesOf 4 (fp32.encIeee mean) ++ bytesOf 4 (fp32.encIeee var)

/-! ### Beginning a tile (R89, R92) -/

/-- The seed of the next tile begin (R89), which counts as a begin. -/
def State.nextSeed (s : State) (c : Nat) : Nat × State :=
  let t := s.fget F.CORE_EPI_TILE_USE_T c
  let seed := ((s.fget F.CORE_EPI_SEED_BASE_SEED_BASE c + t * 0x9E3779B9) % 2 ^ 32) / 65536
  let s := s.fset F.CORE_EPI_TILE_USE_T c (t + 1)
  (seed, s.fset F.CORE_EPI_SEED_LAST_SEED c seed)

/-- A preload element: sign-extended, shifted and held at ±(2^29 − 1) (R87, R92). -/
def preloadValue (d : Desc) (b : List Nat) (k : Nat) : Int × Bool :=
  let v : Int :=
    if d.preFmt = 0 then sext 32 (leAt b (4 * k) 4)
    else if d.preFmt = 1 then sext 16 (leAt b (2 * k) 2) * ((2 ^ d.preShift : Nat) : Int)
    else sext 8 (leAt b k 1) * ((2 ^ d.preShift : Nat) : Int)
  let w := clampI (-536870911) 536870911 v
  (w, decide (w ≠ v))

/-- Bytes per preload element. -/
def preWidth (d : Desc) : Nat := if d.preFmt = 0 then 4 else if d.preFmt = 1 then 2 else 1

/-- Whether core SRAM holds the `n` bytes from an address: every window of a spilled buffer that they reach into
holds a chunk (R93, R160). -/
def State.resident (s : State) (c a n : Nat) : Bool :=
  (s.core c).buffers.all (fun b =>
    let inWin (w : Nat) : Bool := decide (a < b.base + (w + 1) * b.chunk) && decide (b.base + w * b.chunk < a + Nat.max 1 n)
    !b.spilled || ((!inWin 0 || b.win0.isSome) && (!inWin 1 || b.win1.isSome)))

/-- Drop the entries of a table of columns that belong to some heads. -/
def dropCols {α : Type} (t : Tab α) (hs : List Nat) : Tab α := t.filter (fun p => !hs.contains (p.1 / 1024))
/-- Drop the entries of a table of heads. -/
def dropHeads {α : Type} (t : Tab α) (hs : List Nat) : Tab α := t.filter (fun p => !hs.contains p.1)

/-- A tile whose heads `hs` begin again empty; `whole` where these are all of its heads. -/
def Tile.clear (x : Tile) (hs : List Nat) (whole : Bool) : Tile :=
  { x with
    acc := dropCols x.acc hs, l2 := dropCols x.l2 hs, clips := dropCols x.clips hs
    groupPass := dropHeads x.groupPass hs, usePass := dropHeads x.usePass hs, issuedPass := dropHeads x.issuedPass hs
    total := dropHeads x.total hs, rows := dropHeads x.rows hs
    groups := if whole then 0 else x.groups, eout := if whole then 0 else x.eout
    fallback := none, drain := none, picked := none, passes := [], got := [], groupsIn := [], start := [] }

/-- A tile whose heads `hs` go on under a new seed (R92): values, second level, counts and, where the preload of the
use is still owed, the fallback mark stay, which the spec leaves open for the mark (R93, log entry 119). -/
def Tile.keepOn (x : Tile) (hs : List Nat) : Tile :=
  { x with
    clips := dropCols x.clips hs, usePass := dropHeads x.usePass hs, issuedPass := dropHeads x.issuedPass hs
    drain := none, picked := none, passes := [], got := [] }

/-- The heads of a tile that a drain of engines `first` to `last` covers. -/
def State.swept (s : State) (c first last : Nat) : List Nat :=
  (s.heads c).filter (fun h => decide (first ≤ h) && decide (h ≤ last))

/-- Begin the columns `cols` of a tile, those of its heads from `first` to `last`, by a descriptor or, with `zero`,
empty under the shift of the use just drained (R92, R95); the other heads go on as they are. -/
def State.beginTile (s : State) (c t : Nat) (desc : Option Nat) (zero : Bool) (first last : Nat) : State :=
  let (seed, s) := s.nextSeed c
  let s := s.fset F.CORE_EPI_SEED_LAST_TILE c t
  let x := s.tile c t
  let hs := s.swept c first last
  let rest := (s.heads c).filter (fun h => !hs.contains h)
  let same := x.shiftOf (hs.headD 0)
  let x := { x with older := rest.foldl (fun o h => Tab.set o h (x.useOf h)) [], seed := seed, shift := same }
  let y := x.clear hs rest.isEmpty
  match (if zero then none else desc) with
  | none => s.setTile c t { y with desc := none }
  | some dn =>
    let d := s.desc c dn
    if d.begin = 2 then s.setTile c t { x.keepOn hs with desc := some dn }
    else
      let y := { y with shift := d.shift, desc := some dn }
      if d.begin = 1 then s.setTile c t y
      else
        let cols := s.drainCols c first last
        let n := preWidth d * (cols.foldl (fun n p => max n (p.2.2 + 1)) 0)
        if d.fallback && !s.resident c d.preAddr n then
          let s := s.setTile c t { y with fallback := some dn }
          let s := s.count C.CORE_EPI_CNT_FALLBACK c
          let s := s.flag F.CORE_EPI_STATUS_FALLBACK_SEEN c
          s.log { code := 0x0404, core := c }
        else
          let src := s.sramRead c d.preAddr n
          let vals := cols.map (fun p => (colKey p.1 p.2.1, preloadValue d src p.2.2))
          let sat := vals.filter (fun v => v.2.2)
          let s := s.setTile c t { y with
            acc := vals.foldl (fun a v => Tab.put 0 a v.1 v.2.1) y.acc
            clips := sat.foldl (fun k v => tally k v.1) y.clips }
          s.countN C.CORE_EPI_CNT_PRESAT c sat.length

/-! ### The drain sweep (R94, R95) -/

/-- Whether cycles of vectors issued before a drain request are still in flight (R94). -/
def State.inFlight (s : State) (c t : Nat) : Bool :=
  (List.range 36).any (fun e =>
    let g := s.engine c e
    let on (v : Option EngVec) : Bool :=
      match v with
      | none => false
      | some v => v.tile == t && !v.waits
    on g.run || on g.tree || on g.next)

/-- The generator state with which a column's conversion rounds (R101). -/
def State.convGen (s : State) (c t e n : Nat) : Nat :=
  let x := s.tile c t
  let k := if x.shiftOf e = 0 then 0 else Tab.getD x.usePass e 0
  genSteps (k + 1) (genStart (x.seedOf e) (s.colBase c e + n))

/-- Record what a drain's columns counted: saturations, NaNs, statistics with the use's clips (R76, R98, R104). -/
def State.epiCounts (s : State) (c : Nat) (clips : Tab Nat) (res : List (Nat × ColOut)) : State :=
  let sats := res.foldl (fun n r => n + r.2.sats + ofBool r.2.conv.sat) 0
  let nans := (res.filter (fun r => r.2.conv.nan)).length
  let s := s.countN C.CORE_EPI_CNT_SAT c sats
  let s := s.countN C.CORE_EPI_CNT_NAN c nans
  let s := if nans = 0 then s else s.logRate 1000000 c { code := 0x0403, core := c }
  let k := s.core c
  s.setCore c { k with stats := res.foldl (fun m r =>
    Tab.set m r.1 ((Tab.getD m r.1 .empty).add r.2.y
      (Tab.getD clips r.1 0 + ofBool r.2.conv.sat))) k.stats }

/-- Combine the counts and sums of a vector's N parts once every part is there, in ascending core order, and write the
reduction record (R103). -/
def State.combineSums (s : State) (c lane item index : Nat) : State :=
  match s.stageOf c with
  | none => s
  | some (_, r) =>
    let k := s.core c
    let es := k.exitSums.filter (fun e => e.lane == lane && e.item == item && e.index == index)
    let ps := (List.range 32).filterMap (fun d => es.find? (fun e =>
      decide (e.part < r.kN) && r.placed[e.part * max 1 r.kK + (r.kK - 1)]? == some d))
    if ps.length < r.kN then s
    else
      let s := s.setCore c { k with exitSums := k.exitSums.filter (fun e => !ps.contains e) }
      match (ps.find? (fun e => e.addr.isSome)).bind (fun e => e.addr) with
      | none => s
      | some a =>
        let t := ps.foldl (fun (t : Nat × FV × FV) e =>
          (t.1 + e.count, (t.2.1.add (fp64.decode e.sum)).r64, (t.2.2.add (fp64.decode e.sumsq)).r64))
          (0, .fin false 0 0, .fin false 0 0)
        s.sramWrite c a (reductionBytes t.1 t.2.1 t.2.2)

/-- The reduction unit at the end of a drain: the stage's exit core writes the record itself where
N lies in one core; elsewhere each N exit's count and sums wait for the exit core (R103). -/
def State.reduce (s : State) (c : Nat) (d : Desc) (q : DrainReq) (count : Nat) (sum sumsq : FV) : State :=
  match s.stageOf c with
  | none => if d.stats then s.sramWrite c d.statAddr (reductionBytes count sum sumsq) else s
  | some (_, r) =>
    if r.kN ≤ 1 then
      (if d.stats then s.sramWrite c d.statAddr (reductionBytes count sum sumsq) else s)
    else
      let k := s.core c
      let e : ExitSum := ⟨q.lane, q.item, q.vec, r.nPart (s.posOf c), count, fp64.encIeee sum,
        fp64.encIeee sumsq, if c = r.exit && d.stats then some d.statAddr else none⟩
      let s := s.setCore c { k with exitSums := k.exitSums ++ [e] }
      if c = r.exit then s.combineSums c q.lane q.item q.vec else s

/-- The 512-column block of a drained column, counted from the first column of the sweep (R95). -/
def State.colBlock (s : State) (c first e n : Nat) : Nat := (s.colBase c e + n - s.colBase c first) / 512

/-- Write a drain's output elements, its counts and its reduction from the columns' results. -/
def State.deliverCols (s : State) (c : Nat) (q : DrainReq) (clips : Tab Nat) (res : List ((Nat × Nat × Nat) × ColOut)) : State :=
  let d := s.desc c q.desc
  let n := res.foldl (fun n r => max n (r.1.2.2 + 1)) 0
  let pats := (List.range n).map (fun k =>
    match res.find? (fun r => r.1.2.2 == k) with
    | none => 0
    | some r => r.2.conv.pat)
  let s := s.sramWrite c q.addr (packElems d.outFmt pats)
  let s := s.epiCounts c clips (res.map (fun r => (colKey r.1.1 r.1.2.1, r.2)))
  let first := (s.swept c q.first q.last).headD 0
  let ss := blockSums (res.map (fun r => (s.colBlock c first r.1.1 r.1.2.1, r.2.y)))
  s.reduce c d q res.length ss.1 ss.2

/-- The values of a tile's columns at a drain; a hold at the second level's limits counts (R85). -/
def State.drainValues (s : State) (c t : Nat) (cols : List (Nat × Nat × Nat)) : List ((Nat × Nat × Nat) × Int) × State :=
  let vals := cols.map (fun p => (p, s.colValue c t (colKey p.1 p.2.1)))
  (vals.map (fun v => (v.1, v.2.1)),
   (vals.filter (fun v => v.2.2)).foldl (fun s v => s.accSat c t (colKey v.1.1 v.1.2.1)) s)

/-- The epilogue part of a drain: convert every column and write the output elements. -/
def State.epilogue (s : State) (c t : Nat) (q : DrainReq) (cols : List (Nat × Nat × Nat)) : State :=
  let d := s.desc c q.desc
  let (vals, s) := s.drainValues c t cols
  let x := s.tile c t
  s.deliverCols c q x.clips (vals.map (fun v =>
    let (y, st) := scaleStep v.2 (x.shiftOf v.1.1) x.eout (s.sigma c d v.1.2.2)
    (v.1, s.finishCol c d v.1.2.2 y (ofBool st) (if d.stoch then s.convGen c t v.1.1 v.1.2.1 else 0))))

/-- A fallback tile's drain: scale only, and hand the FP32 values to the vector unit (R93). -/
def State.handOver (s : State) (c t dn : Nat) (q : DrainReq) (cols : List (Nat × Nat × Nat)) : State :=
  let d := s.desc c q.desc
  let (vals, s) := s.drainValues c t cols
  let x := s.tile c t
  let ys := vals.map (fun v => (colKey v.1.1 v.1.2.1, scaleStep v.2 (x.shiftOf v.1.1) x.eout (s.sigma c d v.1.2.2)))
  let s := s.countN C.CORE_EPI_CNT_SAT c (ys.filter (fun v => v.2.2)).length
  s.setTile c t { x with handed := x.handed ++ [⟨q, x.shiftOf ((s.swept c q.first q.last).headD 0), x.eout, dn,
    ys.foldl (fun m v => Tab.set m v.1 (fp32.encIeee v.2.1)) [],
    cols.foldl (fun m p => Tab.set m (colKey p.1 p.2.1) (s.convGen c t p.1 p.2.1)) [], x.clips⟩] }

/-- The bytes of its preload source that a handed-over drain needs. -/
def State.handedBytes (s : State) (c : Nat) (h : Handed) : Nat :=
  preWidth (s.desc c h.desc) * ((s.drainCols c h.req.first h.req.last).foldl (fun n p => max n (p.2.2 + 1)) 0)

/-- The vector unit's part of the fallback: add the preload vector, saturated under R87 and scaled, then bias,
activation, conversion and reduction (R93, R100). -/
def State.finishHanded (s : State) (c : Nat) (h : Handed) : State :=
  let d := s.desc c h.req.desc
  let b := s.desc c h.desc
  let cols := s.drainCols c h.req.first h.req.last
  let src := s.sramRead c b.preAddr (s.handedBytes c h)
  let pre := cols.map (fun p => (p, preloadValue b src p.2.2))
  let sat := pre.filter (fun v => v.2.2)
  let s := s.countN C.CORE_EPI_CNT_PRESAT c sat.length
  let clips := sat.foldl (fun k v => tally k (colKey v.1.1 v.1.2.1)) h.clips
  s.deliverCols c h.req clips (pre.map (fun v =>
    let key := colKey v.1.1 v.1.2.1
    let y := fp32.decode (Tab.getD h.vals key 0)
    let (u, st) := scaleStep v.2.1 h.shift h.eout (s.sigma c d v.1.2.2)
    let (y', st') := (y.add u).r32sat
    (v.1, s.finishCol c d v.1.2.2 y' (ofBool st + ofBool st') (Tab.getD h.gens key 1))))

/-- The vector unit ends the handed-over drains of a tile whose preload source is resident; the others wait (R93). -/
def State.fallbackFinish (s : State) (c t : Nat) : State :=
  let ready (h : Handed) : Bool := s.resident c (s.desc c h.desc).preAddr (s.handedBytes c h)
  let hs := (s.tile c t).handed
  let s := (hs.filter ready).foldl (fun s h => s.finishHanded c h) s
  s.setTile c t { s.tile c t with handed := hs.filter (fun h => !ready h) }

/-- A non-exit core's drain: the tile leaves as one group for the chain's N exit, with the passes, rows and clips of
its columns (R82, R86, R104). -/
def State.groupOut (s : State) (c t : Nat) (q : DrainReq) (cols : List (Nat × Nat × Nat)) : State :=
  match s.stageOf c with
  | none => s
  | some (m, r) =>
    let d := r.chainExit (s.posOf c)
    let (vals, s) := s.drainValues c t cols
    let x := s.tile c t
    let hs := s.swept c q.first q.last
    let out := (s.countsFor c d t).filter (fun p => hs.any (fun h => s.keyIn c d (colKey h 0) / 1024 == p.1))
    let clips := (x.clips.filter (fun p => hs.contains (p.1 / 1024))).map (fun p => (s.keyIn c d p.1, p.2))
    let s := s.postHeld { Packet.empty with
      typ := .group, src := c, dst := d, context := m.context, model := m.id, stage := r.stage
      epoch := s.sendEpoch c m r, eout := x.eout, nOff := t, counts := out, clips := clips
      cols := vals.map (fun v => (s.keyIn c d (colKey v.1.1 v.1.2.1), v.2))
      lane := q.lane, item := q.item, vseq := q.vec }
    s.setTile c t { x with total := dropHeads x.total hs, rows := dropHeads x.rows hs }

/-- The next use begins in the sweep (R92, R95), and vectors that waited for the drain may begin. -/
def State.nextUse (s : State) (c t : Nat) (q : DrainReq) : State :=
  let s := s.beginTile c t (some q.next) q.nextZero q.first q.last
  (List.range 36).foldl (fun s e =>
    let g := s.engine c e
    match g.next with
    | some v => if v.tile = t && v.waits then s.setEngine c e { g with next := some { v with waits := false } } else s
    | none => s) s

/-- The sweep of a tile whose drain may run: hand out the values, then begin the next use. -/
def State.sweepTile (s : State) (c t : Nat) (q : DrainReq) : State :=
  let cols := s.drainCols c q.first q.last
  let s :=
    if q.group then s.groupOut c t q cols
    else match (s.tile c t).fallback with
      | some dn => (s.handOver c t dn q cols).fallbackFinish c t
      | none => s.epilogue c t q cols
  s.nextUse c t q

end Sys2Proof.Machine
end

