-- ==== Sys2Proof/Machine/Vpu.lean ====
section
/-! DEFINITION. The vector unit (R152 to R154, R462): the operations of Table 7.2 on vectors in
core SRAM. -/

namespace Sys2Proof.Machine

/-- An operand as an FP32 value (R153): INT32 is rounded to nearest even, the others are exact. -/
def toF32 (fmt p : Nat) : FV := if fmt = 10 then (fmtValue fmt p).r32 else fmtValue fmt p

/-- Whether an operation is floating (R153). -/
def vopFloating (o : VopOp) : Bool :=
  fmtFloat o.fs || fmtFloat o.fd || (decide (0x20 ≤ o.op) && decide (o.op ≤ 0x28))
    || o.op == 0x38 || o.op == 0x3C || o.op == 0x3D

/-- A vector of patterns of a format at an address of core SRAM. -/
def State.vec (s : State) (c fmt a n : Nat) : List Nat :=
  elems fmt n (s.sramRead c a (fmtBytes fmt n))

/-- The elementwise floating operations, each rounded once to FP32 (R153, R462). -/
def fpElem (op : Nat) (x y z : FV) : FV :=
  if op = 0 then (x.add y).r32
  else if op = 1 then (x.add y.neg).r32
  else if op = 2 then (x.mul y).r32
  else if op = 3 then FV.minNum x y
  else if op = 4 then FV.maxNum x y
  else if op = 5 then ((x.mul y).add z).r32
  else if op = 6 then x.abs
  else if op = 7 then x.neg
  else if op = 8 then
    -- a comparison takes the zeros as equal
    (if FV.lt y x && !(x.isZero && y.isZero) then FV.ofInt 1 else FV.ofInt 0)
  else if op = 9 then (if z.isZero then y else x)
  else x

/-- The elementwise integer operations, exact (R153). -/
def intElem (op : Nat) (x y z : Int) : Int :=
  if op = 0 then x + y
  else if op = 1 then x - y
  else if op = 2 then x * y
  else if op = 3 then min x y
  else if op = 4 then max x y
  else if op = 5 then x * y + z
  else if op = 6 then (x.natAbs : Int)
  else if op = 7 then -x
  else if op = 8 then (if y < x then 1 else 0)
  else if op = 9 then (if z = 0 then y else x)
  else x

/-- The functions 0x20 to 0x27 of Table 7.2 (R153). -/
def vopFn (op : Nat) (y : FV) : FV :=
  freeFn (op - 0x20) y

/-- Values added pairwise in a tree: neighbours first, then the pairs in the same way; a place
without a value passes its partner on (R462). -/
def pairTree : Nat → List (Option FV) → List (Option FV)
  | 0, l => l
  | n + 1, l =>
    let h := (List.range (ceilDiv l.length 2)).map (fun j =>
      match l.getD (2 * j) none, l.getD (2 * j + 1) none with
      | none, y => y
      | x, none => x
      | some x, some y => some ((x.add y).r32))
    pairTree n h

/-- The floating sum reduction in its fixed order (R462). -/
def fpSum (vs : List FV) : FV :=
  let lanes := (List.range 256).map (fun l =>
    (List.range (ceilDiv (vs.length - l) 256)).foldl (fun (t : Option FV) k =>
      let x := vs.getD (l + 256 * k) .nan
      match t with
      | none => some x
      | some y => some ((y.add x).r32)) none)
  ((pairTree 8 lanes).getD 0 none).getD (.fin false 0 0)

/-- The lowest index of the maximum, NaNs ignored and the zeros equal (R462). -/
def argmax (vs : List FV) : Nat :=
  ((List.range vs.length).foldl (fun (b : Option (Nat × FV)) i =>
    match vs.getD i .nan, b with
    | .nan, b => b
    | v, none => some (i, v)
    | v, some (j, w) => if FV.lt w v && !(w.isZero && v.isZero) then some (i, v) else some (j, w))
    none).elim 0 (fun p => p.1)

/-- Softmax of FP32 values, in the steps of Table 6.5. -/
def softmax (vs : List FV) : List FV :=
  let m := vs.foldl FV.maxNum .nan
  let es := vs.map (fun v => freeFn 0 ((v.add m.neg).r32))
  let r := vopFn 0x22 (fpSum es)
  es.map (fun e => (e.mul r).r32)

/-- A result in the destination's format, with whether it saturated. -/
def vopConv (fd : Nat) (v : FV) : Nat × Bool :=
  let c := convTo fd .even v
  (c.pat, c.sat)

/-- An integer result held at the destination's limits. -/
def vopInt (fd : Nat) (v : Int) : Nat × Bool :=
  let w := satS (fmtBits fd) v
  (toBits (fmtBits fd) w, decide (w ≠ v))

/-- The mean of a window of integers: exact where it is whole; otherwise the spec states no
rounding, and the choice between the neighbours is free. -/
def intMean (sum : Int) (w n : Nat) : Int :=
  let q := sum / (w : Int)
  if sum % (w : Int) = 0 then q else q + (Config.unstated n % 2 : Nat)

/-- The results of a VOP as patterns of FD, each with whether it saturated. -/
def State.vopResults (s : State) (c : Nat) (o : VopOp) (aD a1 a2 : Nat) : List (Nat × Bool) :=
  let fl := vopFloating o
  let n := o.n
  let xs := s.vec c o.fs a1 (if o.op = 0x40 || o.op = 0x41 then n * (o.param % 256) else n)
  let fx := xs.map (toF32 o.fs)
  let ix := xs.map (fmtInt o.fs)
  if o.op ≤ 9 then
    let ys := s.vec c o.fs a2 n
    let zs := s.vec c o.fd aD n
    (List.range n).map (fun i =>
      if fl then
        vopConv o.fd (fpElem o.op (fx.getD i .nan) (toF32 o.fs (ys.getD i 0)) (toF32 o.fd (zs.getD i 0)))
      else vopInt o.fd (intElem o.op (ix.getD i 0) (fmtInt o.fs (ys.getD i 0)) (fmtInt o.fd (zs.getD i 0))))
  else if o.op = 0x10 then
    if fl then fx.map (vopConv o.fd) else ix.map (vopInt o.fd)
  else if o.op = 0x11 then
    let m := if o.param % 2 = 1 then 4 else 8
    let p := s.fget F.CORE_CAD_CFG_SLOT_PLANES c
    (blockFloat m p (xs.map (stageValue o.fs))).1.map (vopInt o.fd)
  else if o.op ≤ 0x27 then fx.map (fun v => vopConv o.fd (vopFn o.op v))
  else if o.op = 0x28 then
    let tab := Tab.getD (s.core c).tables (o.param % 4) []
    fx.map (fun v => vopConv o.fd (match v with
      | .nan => .nan
      | v => tableFn tab v))
  else if o.op = 0x30 then
    if fl then [vopConv o.fd (fpSum fx)] else [vopInt o.fd (ix.foldl (fun t x => t + x) 0)]
  else if o.op = 0x31 then
    if fl then [vopConv o.fd (fx.foldl FV.maxNum .nan)] else [vopInt o.fd (ix.tail.foldl max (ix.headD 0))]
  else if o.op = 0x32 then
    if fl then [vopConv o.fd (fx.foldl FV.minNum .nan)] else [vopInt o.fd (ix.tail.foldl min (ix.headD 0))]
  else if o.op = 0x33 then
    [(toBits 32 (argmax (if fl then fx else ix.map FV.ofInt) : Nat), false)]
  else if o.op = 0x38 then (softmax fx).map (vopConv o.fd)
  else if o.op = 0x3C || o.op = 0x3D then
    let r := s.sramRead c a2 32
    let base := ((s.core c).buffers.find? (fun b => b.buf == o.param % 256)).elim 0 (fun b => b.base)
    let prm := s.vec c o.fs base (2 * n)
    let mean := if o.op = 0x3C then fp32.decode (leAt r 24 4) else .fin false 0 0
    let var := if o.op = 0x3C then fp32.decode (leAt r 28 4)
      else ((fp64.decode (leAt r 16 8)).div (FV.ofInt (leAt r 0 4))).r32
    let k := freeFn 3 var
    (List.range n).map (fun i =>
      let d := ((fx.getD i .nan).add mean.neg).r32
      let y := (((d.mul k).r32).mul (toF32 o.fs (prm.getD i 0))).r32
      vopConv o.fd ((y.add (toF32 o.fs (prm.getD (n + i) 0))).r32))
  else if o.op = 0x40 then
    let w := o.param % 256
    (List.range n).map (fun i =>
      if fl then vopConv o.fd (((fx.drop (i * w)).take w).foldl FV.maxNum .nan)
      else
        let l := (ix.drop (i * w)).take w
        vopInt o.fd (l.tail.foldl max (l.headD 0)))
  else if o.op = 0x41 then
    let w := o.param % 256
    (List.range n).map (fun i =>
      if fl then
        let l := (fx.drop (i * w)).take w
        let t := l.tail.foldl (fun t x => (t.add x).r32) (l.headD .nan)
        vopConv o.fd ((t.div (FV.ofInt w)).r32)
      else vopInt o.fd (intMean (((ix.drop (i * w)).take w).foldl (fun t x => t + x) 0) w (s.free + i)))
  else if o.op = 0x48 then
    let idx := s.vec c 9 a2 n
    (List.range n).map (fun i =>
      let k := fmtInt 9 (idx.getD i 0)
      let p := if 0 ≤ k then (s.vec c o.fs (a1 + fmtBytes o.fs k.toNat) 1).getD 0 0
        else Config.unstated (s.free + i) % 2 ^ fmtBits o.fs
      if fl then vopConv o.fd (toF32 o.fs p) else vopInt o.fd (fmtInt o.fs p))
  else []

/-- The destination format of a VOP: argmax writes INT32. -/
def vopDest (o : VopOp) : Nat := if o.op = 0x33 then 10 else o.fd

/-- The operands of a VOP in core SRAM: register and bytes; a gather's source has no length of its own (R152). -/
def vopSpans (o : VopOp) : List (Nat × Nat) :=
  let n1 := if o.op = 0x40 || o.op = 0x41 then o.n * Nat.max 1 (o.param % 256) else o.n
  let one := decide (0x30 ≤ o.op) && decide (o.op ≤ 0x33)
  [(o.ad, fmtBytes (vopDest o) (if one then 1 else o.n))]
    ++ (if o.op = 0x48 then [] else [(o.as1, fmtBytes o.fs n1)])
    ++ (if o.op ≤ 5 || o.op = 8 || o.op = 9 then [(o.as2, fmtBytes o.fs o.n)]
        else if o.op = 0x3C || o.op = 0x3D then [(o.as2, 32)]
        else if o.op = 0x48 then [(o.as2, 2 * o.n)] else [])

/-- A VOP's effect: the destination vector and the saturation count (R153). -/
def State.runVop (s : State) (c : Nat) (o : VopOp) (aD a1 a2 : Nat) : State :=
  let r := s.vopResults c o aD a1 a2
  let s := (s.sramWrite c aD (packElems (vopDest o) (r.map (fun p => p.1)))).draw o.n
  s.countN C.CORE_CNT_VUSAT c (r.filter (fun p => p.2)).length

end Sys2Proof.Machine
end

