-- ==== Sys2Proof/Machine/Seq.lean ====
section
/-! DEFINITION. The stage sequencer (R164 to R168): threads, and the instructions that touch
only their own core (Table 7.1). -/

namespace Sys2Proof.Machine

/-- A thread of a core. -/
def State.thread (s : State) (c : Nat) (t : Thr) : Thread :=
  match t with
  | .vec => (s.seq c).vec
  | .itm => (s.seq c).itm

/-- The number of a thread of a core. -/
def threadNum (t : Thr) : Nat :=
  match t with
  | .vec => 0
  | .itm => 1

/-- The number of a thread in packets. -/
def thrNum (c : Nat) (t : Thr) : Nat := c * 2 + threadNum t

/-- Replace a thread. -/
def State.setThread (s : State) (c : Nat) (t : Thr) (x : Thread) : State :=
  let q := s.seq c
  match t with
  | .vec => s.setSeq c { q with vec := x }
  | .itm => s.setSeq c { q with itm := x }

/-- Whether the VEC thread has an instruction that can issue: the ITEM thread then does not (R165). -/
def State.vecIssues (s : State) (c : Nat) : Bool :=
  let x := s.thread c .vec
  x.entry != .idle && !x.stalled && !x.atBreak

/-- The instruction word at a thread's PC, when the thread runs and the word has the opcode; no
thread issues before its core runs (INIT included, R164), and the VEC thread goes first (R165). -/
def State.fetchOp (s : State) (c : Nat) (t : Thr) (op : Nat) : Option Nat :=
  let x := s.thread c t
  if x.entry = .idle || (t == .itm && s.vecIssues c) then none
  else
    let w := Tab.getD (s.seq c).pm x.pc 0
    if insOp w = op then some w else none

/-- The next PC and loops after the instruction at `pc` (LOOP, Table 7.1). -/
def stepPc (pc : Nat) : List LoopFrame → Nat × List LoopFrame
  | [] => (pc + 1, [])
  | f :: r =>
    if f.last = pc then
      (if f.left = 0 then stepPc pc r else (f.first, { f with left := f.left - 1 } :: r))
    else (pc + 1, f :: r)

/-- The breakpoint of R187: in debug mode the VEC thread's arrival at the PC asks for a halt at
the next vector boundary. -/
def State.checkBreak (s : State) (c : Nat) (t : Thr) : State :=
  let x := s.thread c t
  if t = .vec && s.fon F.CORE_STATUS_DEBUG c && s.fon F.SEQ_BREAK_EN c
      && s.fget F.SEQ_BREAK_PC c == x.pc && x.entry == .vec then
    let k := s.core c
    let s := s.setCore c { k with req := .halt }
    let s := s.setThread c t { x with atBreak := true }
    s.log { code := 0x0702, core := c, argA := x.pc }
  else s

/-- Move a thread past the instruction it has issued. -/
def State.next (s : State) (c : Nat) (t : Thr) : State :=
  let x := s.thread c t
  let p := stepPc x.pc x.loops
  (s.setThread c t { x with pc := p.1, loops := p.2, draining := false, stalled := false, atBreak := false }).checkBreak c t

/-- Stall a thread at its instruction. -/
def State.stall (s : State) (c : Nat) (t : Thr) : State :=
  s.setThread c t { s.thread c t with stalled := true }

/-- A consumer waits for a chunk that is not resident; the wait is counted once (R160). -/
def State.spillWait (s : State) (c : Nat) (t : Thr) : State :=
  let s := if (s.thread c t).stalled then s else s.count C.CORE_CNT_SPILLWAIT c
  s.stall c t

/-- The value of an address register as a thread reads it (R166). -/
def State.areg (s : State) (c : Nat) (t : Thr) (r : Nat) : Nat :=
  if r = 0 then 0 else if r = 1 then (s.thread c t).a1 else Tab.getD (s.seq c).regs r 0

/-- Write an address register; A0 ignores it and A1 is read-only (R166). -/
def State.setAreg (s : State) (c r v : Nat) : State :=
  if r ≤ 1 then s
  else
    let q := s.seq c
    s.setSeq c { q with regs := Tab.put 0 q.regs r (v % 2 ^ 23) }

/-- A memory operand: register plus offset × 64 B (R166). -/
def State.operand (s : State) (c : Nat) (t : Thr) (r off : Nat) : Nat :=
  (s.areg c t r + off * 64) % 2 ^ 23

/-- The base that SETA takes from a buffer (R180). -/
def State.bufBase (s : State) (c b : Nat) : Nat :=
  ((s.core c).buffers.find? (fun x => x.buf == b)).elim 0 (fun x => x.base)

/-- SEQ_NOP. -/
def execSeqNop (c : Nat) (t : Thr) (s : State) : Res :=
  match s.fetchOp c t 0x00 with
  | none => .next s
  | some _ => .next (s.next c t)

/-- SETA. -/
def execSeta (c : Nat) (t : Thr) (s : State) : Res :=
  match s.fetchOp c t 0x02 with
  | none => .next s
  | some w =>
    let b := bits w 46 8
    let base := if b = 255 then 0 else s.bufBase c b
    .next ((s.setAreg c (bits w 54 4) (base + bits w 0 23)).next c t)

/-- The address that ADDA computes: an advance of IMM × 64 B, wrapped within WRAP × 64 B of the
ring's base where WRAP is not 0. -/
def addaValue (ad ab wrap : Nat) (imm : Int) : Nat :=
  let v := (ad : Int) + imm * 64
  if wrap = 0 then (v % (2 ^ 23 : Nat)).toNat
  else (((ab : Int) + (v - (ab : Int)) % ((wrap * 64 : Nat) : Int)) % (2 ^ 23 : Nat)).toNat

/-- ADDA. -/
def execAdda (c : Nat) (t : Thr) (s : State) : Res :=
  match s.fetchOp c t 0x03 with
  | none => .next s
  | some w =>
    let ad := bits w 54 4
    let v := addaValue (s.areg c t ad) (s.areg c t (bits w 33 4)) (bits w 37 17) (sext 20 (bits w 0 20))
    .next ((s.setAreg c ad v).next c t)

/-- LOOP. -/
def execLoop (c : Nat) (t : Thr) (s : State) : Res :=
  match s.fetchOp c t 0x04 with
  | none => .next s
  | some w =>
    let x := s.thread c t
    let f : LoopFrame := ⟨x.pc + 1, bits w 16 11, bits w 0 16 - 1⟩
    .next ((s.setThread c t { x with pc := x.pc + 1, loops := f :: x.loops, stalled := false }).checkBreak c t)

/-! ### ISSUE (R71 to R74, R166, R167) -/

/-- The first element of a core's K part: the least K_OFF of its mapping entries of a matrix. -/
def State.kBase (s : State) (c matrix : Nat) : Nat :=
  ((List.range 32).foldl (fun (b : Option Nat) e =>
    match (s.engine c e).map with
    | none => b
    | some m => if m.matrix = matrix then some (match b with
        | none => m.kOff
        | some x => min x m.kOff) else b) none).getD 0

/-- The elements that a matrix's K part spans in this core. -/
def State.kSpan (s : State) (c matrix : Nat) : Nat :=
  (List.range 32).foldl (fun b e =>
    match (s.engine c e).map with
    | none => b
    | some m => if m.matrix = matrix then max b (m.kOff + m.rows - s.kBase c matrix) else b) 0

/-- The vector that a thread's entry serves. -/
def State.curVec (s : State) (c : Nat) (x : Thread) : Option VecIn :=
  (s.core c).vins.find? (fun v => v.lane == x.lane && v.item == x.item && v.index == x.index)

/-- The elements of a stage's input vector that a core's engines take: first and one past last. -/
def State.kPartOf (s : State) (c : Nat) : Nat × Nat :=
  let ms := (List.range 32).filterMap (fun e => (s.engine c e).map)
  let lo := ms.foldl (fun b (m : MapEnt) => match b with
    | none => some m.kOff
    | some x => some (Nat.min x m.kOff)) (none : Option Nat)
  (lo.getD 0, ms.foldl (fun b (m : MapEnt) => Nat.max b (m.kOff + m.rows)) 0)

/-- What an ISSUE stages: the staged integers, where element 0 of the list is element `base` of
the stage's vector and element `scratch` the first of a chain of scratch engines; E_out; and which elements were a
NaN taken as 0. -/
structure Staged where
  vals : List Int
  base : Nat
  scratch : Nat
  eout : Int
  nans : List Bool
  deriving DecidableEq, Repr

/-- The bytes of core SRAM that an ISSUE reads where it does not name the stage's own input: the K part of its
matrix, or 2,048 elements for each scratch engine (R81). -/
def State.issueBytes (s : State) (c : Nat) (o : IssueOp) : Nat :=
  fmtBytes o.fmt (if o.first < 32 then s.kSpan c (((s.engine c o.first).map).elim 0 (fun q => q.matrix))
    else 2048 * (o.last + 1 - o.first))

/-- Stage the input that an ISSUE names.  The stage's own input vector is staged whole, so that
every core uses one E_v (R73); other data is staged from core SRAM as it stands there. -/
def State.stageInput (s : State) (c : Nat) (x : Thread) (o : IssueOp) (a : Nat) : Staged :=
  let m := if o.m4 then 4 else 8
  let p := s.fget F.CORE_CAD_CFG_SLOT_PLANES c
  let matrix := ((s.engine c o.first).map).elim 0 (fun q => q.matrix)
  let whole := match s.curVec c x with
    | none => none
    | some v => if v.addr = a then some v.full else none
  let bytes := whole.getD (s.sramRead c a (s.issueBytes c o))
  let n := bytes.length * 8 / max 1 (fmtBits o.fmt)
  let ps := elems o.fmt n bytes
  let base := if whole.isSome then 0 else if o.first < 32 then s.kBase c matrix else 0
  let scr := if whole.isSome then (s.kPartOf c).1 else 0
  if fmtFloat o.fmt then
    let r := blockFloat m p (ps.map (stageValue o.fmt))
    ⟨r.1, base, scr, r.2, ps.map (fun y => decide (fmtValue o.fmt y = .nan))⟩
  else ⟨ps.map (fmtInt o.fmt), base, scr, 0, []⟩

/-- The elements that an engine takes: the rows of its mapping entry (R176); for the engines of a scratch chain
2,048 each, in ascending order (R81, log entry 114). -/
def State.engineSpan (s : State) (c e : Nat) (st : Staged) : Nat × Nat :=
  match (s.engine c e).map with
  | none => (st.scratch + 2048 * (e - s.headOf c e), 2048)
  | some m => (m.kOff - st.base, m.rows)

/-- The rows of one engine from staged values. -/
def State.engineInputs (s : State) (c e planes : Nat) (st : Staged) : Tab Nat :=
  let p := s.engineSpan c e st
  ((List.range p.2).map (fun r => (r, toBits planes (st.vals.getD (p.1 + r) 0)))).filter (fun p => p.2 != 0)

/-- The NaNs among the elements that some engines take, each counted once (R74). -/
def State.nansStaged (s : State) (c : Nat) (es : List Nat) (st : Staged) : Nat :=
  let spans := es.map (fun e => s.engineSpan c e st)
  ((List.range st.nans.length).filter (fun i => st.nans.getD i false
    && spans.any (fun p => decide (p.1 ≤ i) && decide (i < p.1 + p.2)))).length

/-- The tile an ISSUE takes for an engine: alternate, named, or as the previous ISSUE (R96). -/
def State.issueTile (s : State) (c e tile : Nat) : Nat :=
  let l := Tab.getD (s.core c).lastTile e 1
  if tile = 1 then 0 else if tile = 2 then 1 else if tile = 3 then l else 1 - l

/-- Stage a vector into one engine's second staging buffer. -/
def State.stageEngine (s : State) (c e tile : Nat) (x : Thread) (st : Staged) (fmt : Nat) : State :=
  let i := eng c e
  let planes := if fmtFloat fmt then s.fget F.CORE_CAD_CFG_SLOT_PLANES c else intPlanes fmt
  let inputs := s.engineInputs c e planes st
  let v : EngVec := {
    tile := tile, planes := s.fget F.ENG_CFG_PLANES i, signed := s.fon F.ENG_CFG_SIGNED i
    inputs := inputs, plane := 0, clock := 0, issued := 0, replays := 0, splits := [], sums := []
    clips := [], pass := 0, begun := false, lane := x.lane, item := x.item, index := x.index
    eout := st.eout, exact := [], mark := (s.core c).scrNext, waits := (s.tile c tile).drain.isSome, counted := false }
  let g := s.engine c e
  let s := s.setEngine c e { g with next := some v }
  let k := s.core c
  s.setCore c { k with lastTile := Tab.set k.lastTile e tile }

/-- Whether the program holds a further ISSUE between a PC and the END of the entry. -/
def issueAhead (pm : Tab Nat) : Nat → Nat → Bool
  | 0, _ => false
  | n + 1, pc =>
    let w := Tab.getD pm pc 0
    if insOp w = 0x01 then false else if insOp w = 0x05 then true else issueAhead pm n (pc + 1)

/-- Once every staging read of a vector has completed in every core of its stage, its entry core
acknowledges it to the stage that sent it (R138). -/
def State.ackVec (s : State) (c lane item index : Nat) : State :=
  match s.stageOf c with
  | none => s
  | some (_, r) =>
    let mine (x : VecIn) : Bool := x.lane == lane && x.item == item && x.index == index
    let k := s.core r.entry
    match k.vins.find? mine with
    | none => s
    | some v =>
      if v.acked || !(s.peers c).all (fun d => (s.core d).vins.any (fun x => mine x && x.staged)) then s
      else
        let s := s.setCore r.entry { k with vins := k.vins.map (fun x => if mine x then { x with acked := true } else x) }
        if 32 ≤ v.src then s
        else s.post { Packet.empty with typ := .control, src := r.entry, dst := v.src
                                        context := s.ctxOf c, ref := v.seq / 2, len := v.seq % 2, lane := lane, item := item, vseq := index }

/-- Whether an entry at a PC issues no further vector: no ISSUE stands ahead, and no open loop leads back to one
(R167). -/
def stagingOver (pm : Tab Nat) (x : Thread) : Bool :=
  !issueAhead pm 2048 x.pc && x.loops.all (fun f => f.left == 0
    || (rangeFrom f.first (f.last + 1 - f.first)).all (fun k => insOp (Tab.getD pm k 0) != 0x05))

/-- Once the entry of a thread's vector issues no more, the vector counts as staged in its core (R167). -/
def State.noteStaged (s : State) (c : Nat) (t : Thr) : State :=
  let x := s.thread c t
  if !stagingOver (s.seq c).pm x then s
  else
    let k := s.core c
    (s.setCore c { k with vins := k.vins.map (fun v =>
      if v.lane = x.lane ∧ v.item = x.item ∧ v.index = x.index then { v with staged := true } else v) }).ackVec
        c x.lane x.item x.index

/-- The ISSUE proper: the engines it names take the vector. -/
def State.runIssue (s : State) (c : Nat) (t : Thr) (o : IssueOp) (es : List Nat) : State :=
  let x := s.thread c t
  let a := s.operand c t o.as o.off
  let st := s.stageInput c x o a
  let tile := s.issueTile c o.first o.tile
  let s := es.foldl (fun s e => s.stageEngine c e tile x st o.fmt) s
  let nans := s.nansStaged c es st
  let s := s.countN C.CORE_CNT_STGEXC c nans
  let s := if nans = 0 then s else s.logRate 1000000 c { code := 0x0609, core := c, lane := x.lane }
  let x := s.thread c t
  let s := s.setThread c t { x with tiles := es.foldl (fun m e => Tab.set m e tile) x.tiles }
  (s.next c t).noteStaged c t

/-- ISSUE: it waits while a staging buffer it needs is taken (R167). -/
def execIssue (c : Nat) (t : Thr) (s : State) : Res :=
  match s.fetchOp c t 0x05 with
  | none => .next s
  | some w =>
    let o := issueOp w
    let es := (rangeFrom o.first (o.last + 1 - o.first)).filter
      (fun e => decide (32 ≤ e) || (s.engine c e).map.isSome)
    if !s.resident c (s.operand c t o.as o.off) (s.issueBytes c o) then .next (s.spillWait c t)
    else if es.any (fun e => (s.engine c e).next.isSome) then .next (s.stall c t)
    else .next (s.runIssue c t o es)

/-! ### DRAIN, SCRW, VOP, FETCH, WBACK, FENCE -/

/-- DRAIN (R94, R96): request a drain, and wait until it has run (log entry 117); the request itself waits while the
tile already has one. -/
def execDrain (c : Nat) (t : Thr) (s : State) : Res :=
  match s.fetchOp c t 0x06 with
  | none => .next s
  | some w =>
    let o := drainOp w
    let x := s.thread c t
    let tl := if o.tile = 1 then 0 else if o.tile = 2 then 1
      else if o.tile = 3 then Tab.getD (s.core c).lastTile o.first 0 else Tab.getD x.tiles o.first 0
    let y := s.tile c tl
    if x.draining || y.drain.isSome then .next (s.stall c t)
    else
      let fl := s.inFlight c tl
      let q : DrainReq := ⟨o.desc, o.next, o.nextZero, o.group, s.operand c t o.ad o.off, o.first,
        o.last, fl, x.lane, x.item, x.index, threadNum t⟩
      let s := s.setTile c tl { y with drain := some q }
      let s := if fl then s.count C.CORE_EPI_CNT_DRAINWAIT c else s
      .next ((s.setThread c t { x with draining := true }).stall c t)

/-- SCRW: convert to INT8, saturating to nearest even, and queue the row write (R147). -/
def execScrw (c : Nat) (t : Thr) (s : State) : Res :=
  match s.fetchOp c t 0x08 with
  | none => .next s
  | some w =>
    let o := scrwOp w
    if !s.resident c (s.operand c t o.as o.off) (fmtBytes o.fmt (o.cnt + 1)) then .next (s.spillWait c t) else
    let ps := s.vec c o.fmt (s.operand c t o.as o.off) (o.cnt + 1)
    let cs := ps.map (fun p => encInt 8 .even (fmtValue o.fmt p))
    let vals := cs.map (fun x => sext 8 x.pat)
    let row := (s.areg c t o.ar + o.row) % 2048
    let k := s.core c
    let y := s.thread c t
    let s := s.setCore c { k with
      scrQueue := k.scrQueue ++ [⟨o.se, row, o.col0, vals.take (256 - o.col0), k.scrNext, y.lane, y.item, y.index, threadNum t, false⟩]
      scrNext := k.scrNext + 1 }
    let s := s.countN C.CORE_CNT_VUSAT c (cs.filter (fun x => x.sat)).length
    .next (s.next c t)

/-- VOP (R152, R153). -/
def execVop (c : Nat) (t : Thr) (s : State) : Res :=
  match s.fetchOp c t 0x09 with
  | none => .next s
  | some w =>
    let o := vopOp w
    if (vopSpans o).any (fun p => !s.resident c (s.areg c t p.1) p.2) then .next (s.spillWait c t)
    else .next ((s.runVop c o (s.areg c t o.ad) (s.areg c t o.as1) (s.areg c t o.as2)).next c t)

/-- The record of a buffer of a core. -/
def State.buffer (s : State) (c b : Nat) : Option Buffer := (s.core c).buffers.find? (fun x => x.buf == b)

/-- Replace a buffer of a core. -/
def State.setBuffer (s : State) (c : Nat) (b : Buffer) : State :=
  let k := s.core c
  s.setCore c { k with buffers := k.buffers.map (fun x => if x.buf = b.buf then b else x) }

/-- The DRAM stack of an address (R199). -/
def dramStack (a : Nat) : Nat := [8, 12, 16, 20, 24, 28, 32].foldl (fun n i => (n + ofBool (bit a i)) % 2) 0

/-- The edge node that serves an address for a core: the stack's port in the core's mesh row
(R189, R190). -/
def dramPort (c a : Nat) : Nat := 32 + 4 * dramStack a + c / 8

/-- The offset of a chunk in the area that a spilled buffer lives in. -/
def chunkAddr (b : Buffer) (chunk : Nat) : Nat := b.home + chunk * b.chunk

/-- A chunk in the pages of the DRAM spill area, page by page. -/
def chunkPieces (b : Buffer) (chunk : Nat) : List (Nat × Nat × Nat) := (⟨b.pages, chunkAddr b chunk⟩ : Paged).pieces 0 b.chunk

/-- Where a chunk of a buffer in host memory lies for a thread: the function of its lane's ring and the address in the
spill buffer that the lane supplies; none for INIT, which serves no lane (log entry 39). -/
def State.hostChunk (s : State) (y : Thread) (b : Buffer) (chunk : Nat) : Option (Nat × Nat) :=
  let x := Tab.getD s.lanes y.lane .empty
  if y.entry = .init ∨ x.spillAddr = 0 then none
  else some (x.ring.elim 0 (fun k => k / 128), x.spillAddr + chunkAddr b chunk)

/-- The address of a window in core SRAM. -/
def winAddr (b : Buffer) (win : Nat) : Nat := b.base + win * b.chunk

/-- FETCH (R160): start the fetch, from host memory over PCI Express, or from DRAM by a read on the
fabric; a buffer that is not spilled is resident already. -/
def execFetch (c : Nat) (t : Thr) (s : State) : Res :=
  match s.fetchOp c t 0x0A with
  | none => .next s
  | some w =>
    let b := bits w 50 8
    match s.buffer c b with
    | none => .next (s.next c t)
    | some x =>
      if x.spilled then
        let win := bits w 33 1
        let x := if win = 0 then { x with win0 := none } else { x with win1 := none }
        let s := s.setBuffer c x
        let k := s.core c
        let y := s.thread c t
        let ch := bits w 34 16
        let s := s.setCore c { k with fetches := k.fetches ++ [⟨threadNum t, b, ch, win, y.lane, y.item, y.index, s.ns⟩] }
        -- a chunk in host memory is read over PCI Express
        let s := if x.host then
            match s.hostChunk y x ch with
            | none => s
            | some (f, a) =>
              let tag := s.nextTag
              { s.emit (.hostRead f a x.chunk tag) with
                reads := s.reads ++ [⟨tag, f, a, x.chunk, .chunk c b win, false, false⟩], nextTag := tag + 1 }
          else
            (chunkPieces x ch).foldl (fun s q => s.postHeld { Packet.empty with
              typ := .memRead, src := c, dst := dramPort c q.1, context := s.ctxOf c, addr := q.1
              len := q.2.2, vseq := q.2.1, nOff := b * 2 + win }) s
        .next (s.next c t)
      else .next (s.next c t)

/-- WBACK (R160): post the window as a chunk, to DRAM as a memory write or to host memory. -/
def execWback (c : Nat) (t : Thr) (s : State) : Res :=
  match s.fetchOp c t 0x0B with
  | none => .next s
  | some w =>
    match s.buffer c (bits w 50 8) with
    | none => .next (s.next c t)
    | some x =>
      if x.spilled then
        let win := bits w 33 1
        let data := s.sramRead c (winAddr x win) x.chunk
        let y := s.thread c t
        let s := if x.host then
            match s.hostChunk y x (bits w 34 16) with
            | none => s
            | some (f, h) => s.emit (.hostWrite f h data)
          else (chunkPieces x (bits w 34 16)).foldl (fun s q => s.postHeld { Packet.empty with
            typ := .memWrite, src := c, dst := dramPort c q.1, context := s.ctxOf c, addr := q.1, len := q.2.2
            payload := slice data q.2.1 q.2.2, thread := some (thrNum c t), lane := y.lane, item := y.item, vseq := y.index }) s
        .next (s.next c t)
      else .next (s.next c t)

/-- The scratch row writes of programs that a core has still to make: queued, and taken by a vector that runs. -/
def State.rowsLeft (s : State) (c : Nat) : List RowWrite :=
  ((s.core c).scrQueue ++ [32, 33, 34, 35].flatMap (fun e =>
    let g := s.engine c e
    [g.run, g.tree, g.next].flatMap (fun v => v.elim [] (fun w => w.writes)))).filter (fun w => !w.upkeep)

/-- Whether a thread's posted work of the kinds of a FENCE mask is still under way: the vector
unit's work completes as it is issued, that of a fallback when its source is there; sends and write-backs wait for
their receipts; scratch writes for their row; fetches for their chunk (R168). -/
def State.fenceWaits (s : State) (c : Nat) (t : Thr) (mask : Nat) : Bool :=
  let mine (p : Packet) : Bool := p.thread == some (thrNum c t)
  let sends := s.fab.held.any (fun p => mine p && (p.typ == .vector || p.typ == .exitPart || p.typ == .signal))
  let wbs := s.fab.held.any (fun p => mine p && p.typ == .memWrite)
  (mask.testBit 0 && (List.range 2).any (fun k => (s.tile c k).handed.any (fun h => h.req.thr == threadNum t)))
    || (mask.testBit 1 && sends) || (mask.testBit 2 && (s.rowsLeft c).any (fun w => w.thr == threadNum t))
    || (mask.testBit 3 && (wbs || (s.core c).fetches.any (fun f => f.thread == threadNum t)))

/-- FENCE. -/
def execFence (c : Nat) (t : Thr) (s : State) : Res :=
  match s.fetchOp c t 0x0C with
  | none => .next s
  | some w => if s.fenceWaits c t (bits w 0 4) then .next (s.stall c t) else .next (s.next c t)

end Sys2Proof.Machine
end

