-- ==== Sys2Proof/Machine/HostOps.lean ====
section
/-! DEFINITION. Ring pairs as shared operations (R235 to R246): completions, releases, head
write-back and interrupts; reads of host memory; and messages handed to the barrier link. -/

namespace Sys2Proof.Machine

/-! ### Rings -/

/-- The key of a function's ring. -/
def ringKey (func k : Nat) : Nat := func * 128 + k

/-- The function number under which the commands of management sessions run (R396). -/
def mgtFunc : Nat := 33

/-- A ring by key. -/
def State.ring (s : State) (k : Nat) : Ring := Tab.getD s.rings k .empty

/-- Replace a ring. -/
def State.setRing (s : State) (k : Nat) (r : Ring) : State := { s with rings := Tab.set s.rings k r }

/-- A function's rings: 128 on the PF, 8 on a VF (R251). -/
def ringCount (func : Nat) : Nat := if func = 0 then 128 else 8

/-- The PCI identity of a function: 0 is the physical function, the others are virtual (R10). -/
def pciId (func : Nat) : PciId :=
  { vendor := 0x1D7F, device := if func = 0 then 0x9632 else 0x9633, cls := 0x120000, revision := 0xB0 }

/-- A 32-bit word of a function's configuration space: vendor and device ID at offset 0, revision ID and class code
at offset 8, and the ATS capability at 0x100 with its control in bits 31:16 of word 0x104 (invalidate queue depth 32,
ENABLE in bit 31; R229), which is where PCI Express has them (log entry 108); the other words are PCI Express's own and
read 0 here. -/
def State.pciConfig (s : State) (func off : Nat) : Nat :=
  let p := pciId func
  if off = 0 then p.vendor + 0x10000 * p.device else if off = 8 then p.revision + 0x100 * p.cls
  else if off = 0x100 then 0x1000F else if off = 0x104 then 0x20 + 2 ^ 31 * ofBool (s.ats.contains func) else 0

/-- A write to a function's configuration space: ENABLE of its ATS capability (R229, log entry 108). -/
def State.pciWrite (s : State) (func off v : Nat) : State :=
  if off != 0x104 then s
  else { s with ats := if bit v 31 then func :: s.ats.filter (fun f => f != func) else s.ats.filter (fun f => f != func) }

/-- The keys of a function's rings. -/
def ringsOf (func : Nat) : List Nat := (List.range (ringCount func)).map (ringKey func)

/-- The sizes of a ring's two parts. -/
def State.sqSize (s : State) (k : Nat) : Nat := 2 ^ s.fget F.RING_CFG_SQ_LOG2 k
/-- The size of the completion ring. -/
def State.cqSize (s : State) (k : Nat) : Nat := 2 ^ s.fget F.RING_CFG_CQ_LOG2 k

/-- A difference of free-running 32-bit counts (R235). -/
def cntDiff (a b : Nat) : Nat := (a + 2 ^ 32 - b % 2 ^ 32) % 2 ^ 32

/-- The address of the submission ring. -/
def State.sqBase (s : State) (k : Nat) : Nat :=
  s.fget F.RING_SQ_BASE_LO_ADDR k * 4096 + s.fget F.RING_SQ_BASE_HI_ADDR k * 2 ^ 32
/-- The address of the completion ring. -/
def State.cqBase (s : State) (k : Nat) : Nat :=
  s.fget F.RING_CQ_BASE_LO_ADDR k * 4096 + s.fget F.RING_CQ_BASE_HI_ADDR k * 2 ^ 32
/-- The head write-back address, 0 for none. -/
def State.headAddr (s : State) (k : Nat) : Nat :=
  s.fget F.RING_HEADWB_LO_ADDR k * 4 + s.fget F.RING_HEADWB_HI_ADDR k * 2 ^ 32

/-- The descriptor that a ring holds under a take number. -/
def State.takenDesc (s : State) (k n : Nat) : Option Taken := (s.ring k).taken.find? (fun t => t.number == n)

/-- Change a taken descriptor. -/
def State.updTaken (s : State) (k n : Nat) (f : Taken → Taken) : State :=
  let r := s.ring k
  s.setRing k { r with taken := r.taken.map (fun t => if t.number = n then f t else t) }

/-! ### MSI-X -/

/-- Whether a vector's table entry is masked; entries are masked until software writes them
(PRESUMED from PCI Express: assumption log 12). -/
def State.vecMasked (s : State) (func vec : Nat) : Bool :=
  (Tab.getD s.msix (func * 65536 + vec * 4 + 3) 1).testBit 0

/-- Send an MSI-X message, or hold it pending while its vector is masked (R246). -/
def State.sendMsix (s : State) (func vec : Nat) : State :=
  if s.vecMasked func vec then
    (if s.msixPending.contains (func * 65536 + vec) then s
     else { s with msixPending := s.msixPending ++ [func * 65536 + vec] })
  else s.emit (.msix func vec)

/-- Send the message that covers every completion of a ring written so far. -/
def State.ringMsg (s : State) (k : Nat) : State :=
  let r := s.ring k
  (s.setRing k { r with irq := [] }).sendMsix (k / 128) (s.fget F.RING_CFG_VECTOR k)

/-- The message that a pending count of RING_MOD.COUNT causes (R246). -/
def State.ringIrq (s : State) (k : Nat) : State :=
  if s.fon F.RING_CFG_IRQ_EN k && decide (s.fget F.RING_MOD_COUNT k ≤ (s.ring k).irq.length)
      && decide (0 < (s.ring k).irq.length) then s.ringMsg k else s

/-! ### Releases (R239) -/

/-- SQ_HEAD past every released descriptor whose predecessors are released. -/
def headPast (l : List Taken) : Nat → Nat → Nat
  | 0, h => h
  | n + 1, h => if l.any (fun t => t.number == h && t.released) then headPast l n ((h + 1) % 2 ^ 32) else h

/-- Write SQ_HEAD back, at most once a microsecond. -/
def State.headWriteback (s : State) (k : Nat) : State :=
  let r := s.ring k
  if s.headAddr k = 0 || decide (mgtFunc ≤ k / 128) then s
  else if r.wroteHead = 0 || decide (r.wroteHead + 1000 ≤ s.ns + 1) then
    (s.setRing k { r with wroteHead := s.ns + 1, headDue := false }).emit
      (.hostWrite (k / 128) (s.headAddr k) (bytesOf 4 (s.fget F.RING_SQ_HEAD_COUNT k)))
  else s.setRing k { r with headDue := true }

/-- Advance SQ_HEAD and forget descriptors that nothing needs any more. -/
def State.advanceHead (s : State) (k : Nat) : State :=
  let r := s.ring k
  let h := s.fget F.RING_SQ_HEAD_COUNT k
  let h' := headPast r.taken r.taken.length h
  let s := s.fset F.RING_SQ_HEAD_COUNT k h'
  let s := s.setRing k { r with
    taken := r.taken.filter (fun t => t.slot || decide (cntDiff t.number h' < 2 ^ 31)) }
  if h' = h then s else s.headWriteback k

/-- Release a descriptor. -/
def State.releaseDesc (s : State) (k n : Nat) : State :=
  (s.updTaken k n (fun t => { t with released := true })).advanceHead k

/-- Free the completion slot of a descriptor without a write (R243). -/
def State.freeSlot (s : State) (k n : Nat) : State :=
  (s.updTaken k n (fun t => { t with slot := false })).advanceHead k

/-! ### Completions (R242, R243) -/

/-- The fields of a completion that do not come from its descriptor. -/
structure Cpl where
  status : Nat
  item : Bool := false
  verdict : Nat := 0
  conf : Nat := 0
  lat : Nat := 0
  /-- release the descriptor with this completion -/
  release : Bool := true

/-- The 32 bytes of a completion (Table 10.6). -/
def cplBytes (d : List Nat) (c : Cpl) (head tail size : Nat) : List Nat :=
  slice d 4 4 ++ [c.status, d.getD 0 0, if c.item then d.getD 3 0 % 64 else 0, 0] ++ slice d 8 6 ++ [0, 0]
    ++ bytesOf 4 head ++ [c.verdict, 0] ++ bytesOf 2 c.conf ++ bytesOf 4 (min 0xFFFFFFFF c.lat)
    ++ [0, 0, 0, 1 - tail / size % 2]

/-- Write the completion of a taken descriptor, if its slot still stands: after a function level
reset none does. -/
def State.complete (s : State) (k n : Nat) (c : Cpl) : State :=
  match s.takenDesc k n with
  | none => s
  | some t =>
    if !t.slot then s
    else if t.orphan then s.setRing k { s.ring k with taken := (s.ring k).taken.filter (fun x => x.number != n) }
    else if mgtFunc ≤ k / 128 then
      (s.setRing k { s.ring k with taken := (s.ring k).taken.filter (fun x => x.number != n) }).replyLong
        (k - mgtFunc * 128) 0x0020 t.mtag 0 (cplBytes t.bytes c 0 0 1 ++ t.output)
    else
      let s := if c.release then s.releaseDesc k n else s
      let tail := s.fget F.RING_CQ_TAIL_COUNT k
      let size := s.cqSize k
      let s := s.emit (.hostWrite (k / 128) (s.cqBase k + tail % size * 32)
        (cplBytes t.bytes c (s.fget F.RING_SQ_HEAD_COUNT k) tail size))
      let s := s.fset F.RING_CQ_TAIL_COUNT k (tail + 1)
      let s := s.freeSlot k n
      if bit (t.bytes.getD 1 0) 1 then s
      else
        let r := s.ring k
        (s.setRing k { r with irq := r.irq ++ [((tail + 1) % 2 ^ 32, s.ns)] }).ringIrq k

/-- Complete a command. -/
def State.done (s : State) (k n status : Nat) : State := s.complete k n { status := status }

/-! ### Reads of host and peer memory -/

/-- Issue a read. -/
def State.hostRead (s : State) (func addr len : Nat) (use : ReadFor) (peer : Bool) : State :=
  let t := s.nextTag
  { s.emit (.hostRead func addr len t) with
    reads := s.reads ++ [⟨t, func, addr, len, use, false, peer⟩], nextTag := t + 1 }

/-- The outstanding read with a tag. -/
def State.findRead (s : State) (tag : Nat) : Option HostRead := s.reads.find? (fun r => r.tag == tag)

/-- A read has ended. -/
def State.endRead (s : State) (tag : Nat) : State :=
  { s with reads := s.reads.filter (fun r => r.tag != tag) }

/-! ### Barrier messages (Table 11.4) -/

/-- Hand a message to the host section's transmitter. -/
def State.toField (s : State) (m : List Nat) : State :=
  { s with bar := { s.bar with host := { s.bar.host with queue := s.bar.host.queue ++ [slice m 0 16] } } }

/-- Hand a message to the field section's transmitter; a full queue of 4,096 drops it (R262). -/
def State.toHost (s : State) (m : List Nat) : State :=
  if 4096 ≤ s.bar.field.queue.length then s.count C.FLD_CNT_RXDISC 0
  else { s with bar := { s.bar with field := { s.bar.field with queue := s.bar.field.queue ++ [slice m 0 16] } } }

/-- A verdict message. -/
def msgVerdict (lane code item conf : Nat) : List Nat :=
  [0x02, lane, code, 0] ++ bytesOf 6 item ++ bytesOf 2 conf

/-- A retraction message. -/
def msgRetraction (lane first last : Nat) : List Nat :=
  [0x03, lane, 0, 0] ++ bytesOf 6 first ++ bytesOf 6 last

/-- A configuration write message. -/
def msgConfig (addr v : Nat) : List Nat := [0x08, 0] ++ bytesOf 2 addr ++ bytesOf 4 v

/-- A byte of the host section's copy of a lane's field record (R266): word w of lane l stands
under l * 24 + w. -/
def State.copyByte (s : State) (lane off : Nat) : Nat :=
  bits (Tab.getD s.bar.copies (lane * 24 + off / 4) 0) (8 * (off % 4)) 8

/-- A little-endian number in the host section's copy of a field record. -/
def State.copyNum (s : State) (lane off n : Nat) : Nat :=
  ofBytes ((List.range n).map (fun i => s.copyByte lane (off + i)))

end Sys2Proof.Machine
end

