-- ==== Sys2Proof/Machine/ItemOps.lean ====
section
/-! DEFINITION. Lanes and item contexts as shared operations (R208, R210, R219 to R226, R243,
R463): suspension reasons, contexts, verdicts, completions, delivery. -/

namespace Sys2Proof.Machine

/-! ### Lanes -/

/-- A lane. -/
def State.lane (s : State) (l : Nat) : Lane := Tab.getD s.lanes l .empty

/-- Replace a lane. -/
def State.setLane (s : State) (l : Nat) (x : Lane) : State := { s with lanes := Tab.set s.lanes l x }

/-- A lane's state: 0 free, 1 admitting, 2 admitted, 3 suspended, 4 releasing. -/
def State.laneState (s : State) (l : Nat) : Nat := s.fget F.ADM_LANE_STATE_STATE l

/-- Whether a lane is admitted or suspended. -/
def State.laneUp (s : State) (l : Nat) : Bool := s.laneState l == 2 || s.laneState l == 3

/-- The lanes that are not free. -/
def State.laneList (s : State) : List Nat := (List.range 64).filter (fun l => s.laneState l != 0)

/-- Whether a lane's chain includes a stage. -/
def State.laneUses (s : State) (l ctx model stage : Nat) : Bool :=
  let x := s.lane l
  s.laneState l != 0 && x.context == ctx && x.model == model && x.chain.any (fun r => r.stage == stage)

/-- The lanes whose chain includes a stage. -/
def State.lanesOf (s : State) (ctx model stage : Nat) : List Nat :=
  (List.range 64).filter (fun l => s.laneUses l ctx model stage)

/-- Report a broken contract of a lane (R210). -/
def State.breakLane (s : State) (l cause : Nat) : State :=
  let s := s.countAt C.ADM_CNT_BROKEN 0 0 1
  let s := s.flag F.ADM_LANE_STATE_BROKEN l
  s.log { code := 0x0A07, context := (s.lane l).context, lane := l, argA := cause }

/-! ### Contexts (R220, R221) -/

/-- The contexts of an item identifier: record number and context. -/
def State.ctxsOf (s : State) (item : Nat) : List (Nat × ItemCtx) :=
  s.items.filter (fun (p : Nat × ItemCtx) => p.2.item == item)

/-- The context of an item on a lane. -/
def State.ctxOn (s : State) (item lane : Nat) : Option (Nat × ItemCtx) :=
  (s.ctxsOf item).find? (fun (p : Nat × ItemCtx) => p.2.lane == lane)

/-- A record's context. -/
def State.item (s : State) (r : Nat) : Option ItemCtx := Tab.find s.items r

/-- Replace a record's context. -/
def State.setItem (s : State) (r : Nat) (x : ItemCtx) : State := { s with items := Tab.set s.items r x }

/-- Free records. -/
def State.freeCtx (s : State) : Nat := 1048576 - s.items.length

/-- Index entries in use: contexts in CREATED, RUNNING or FORMED (R221). -/
def State.indexUsed (s : State) : Nat :=
  (s.items.filter (fun (p : Nat × ItemCtx) => p.2.indexed)).length

/-- Whether a new context can be made (R221, R225). -/
def State.canCreate (s : State) : Bool := decide (0 < s.freeCtx) && decide (s.indexUsed < 65536)

/-- The lowest record not in use. -/
def State.freeRecord (s : State) : Nat :=
  ((List.range (s.items.length + 1)).find? (fun r => (Tab.find s.items r).isNone)).getD 0

/-- CTX_STATUS.LOW as the free count stands, with its event when it becomes 1 (R225). -/
def State.ctxLow (s : State) : State :=
  if decide (s.freeCtx < 65536) then
    (if s.fon F.CTX_STATUS_LOW 0 then s else (s.flag F.CTX_STATUS_LOW 0).log { code := 0x0B01 })
  else s.fset F.CTX_STATUS_LOW 0 0

/-- Create a context in the lowest free record. -/
def State.createItem (s : State) (x : ItemCtx) : State :=
  (s.setItem s.freeRecord { x with indexed := true, field := (s.lane x.lane).field }).ctxLow

/-- Return a record to the free list (R224). -/
def State.closeItem (s : State) (r : Nat) : State :=
  ({ s with items := Tab.erase s.items r } : State).ctxLow

/-- Move a context to a state; the index keeps only CREATED, RUNNING and FORMED (R221). -/
def State.itemState (s : State) (r : Nat) (st : ItemState) : State :=
  match s.item r with
  | none => s
  | some x => s.setItem r { x with
      state := st, indexed := st == .created || st == .running || st == .formed }

/-- A context with nothing known but its identifier and lane. -/
def ItemCtx.fresh (item lane : Nat) : ItemCtx :=
  { item := item, lane := lane, state := .created, trig := false, input := false, cpl := false
    indexed := true, trigger := 0, encoder := 0, verdict := 0xFF, confidence := 0, trigPos := 0
    accept := 0, lseq := 0, feature := [], due := [], epochs := [], origin := none, inLeft := 0
    acceptNs := 0, formedNs := 0, closing := 0, faults := 0, delivered := false, unshielded := false }

/-- Due positions at reject outputs 0 to 7 (Table 9.5): 0xFFFFFFFF where the lane does not use the
output. -/
def State.dueList (s : State) (l pos : Nat) : List Nat :=
  (List.range 8).map (fun k =>
    if (s.copyByte l 8).testBit k then (pos + s.copyNum l (20 + 4 * k) 4) % 2 ^ 32 else 0xFFFFFFFF)

/-- The later of two positions in serial order (R220). -/
def serialMax (a b : Nat) : Nat := if (b + 2 ^ 32 - a) % 2 ^ 32 < 2 ^ 31 then b else a

/-- Whether position `p` is at or beyond `q` in serial order. -/
def serialGe (p q : Nat) : Bool := decide ((p + 2 ^ 32 - q % 2 ^ 32) % 2 ^ 32 < 2 ^ 31)

/-- The closing position of an item (R224): its largest due position, or the verdict table
position where the lane uses no reject output. -/
def State.closingPos (s : State) (l pos : Nat) : Nat :=
  let ds := (s.dueList l pos).filter (fun d => d != 0xFFFFFFFF)
  match ds with
  | [] => (pos + s.copyNum l 16 4) % 2 ^ 32
  | d :: r => r.foldl serialMax d

/-! ### Pipeline work of an item -/

/-- Abandon the pipeline work of an item: its vectors leave every core, and its packets the
fabric. -/
def State.abandon (s : State) (l item : Nat) : State :=
  let mine (v : VecIn) : Bool := v.lane == l && v.item == item
  let s := { s with
    cores := Tab.mapv s.cores (fun _ (c : CoreSt) => { c with vins := c.vins.filter (fun v => !mine v) })
    seqs := Tab.mapv s.seqs (fun _ (q : Sequencer) =>
      { q with due := q.due.filter (fun d => !(d.lane == l && d.item == item)) })
    reads := s.reads.filter (fun r =>
      match r.use with
      | .input n _ => (s.item n).elim true (fun (x : ItemCtx) => !(x.lane == l && x.item == item))
      | .again n _ => (s.item n).elim true (fun (x : ItemCtx) => !(x.lane == l && x.item == item))
      | _ => true) }
  { s with fab := { s.fab with
      net := s.fab.net.filter (fun p => !(p.lane == l && p.item == item && p.typ == .vector))
      held := s.fab.held.filter (fun p => !(p.lane == l && p.item == item && p.typ == .vector)) } }

/-! ### Verdicts and completions (R223, R243) -/

/-- Send an item's verdict message: the context enters SENT, or WITHHELD for 0xFF (R223). -/
def State.sendVerdict (s : State) (r code : Nat) : State :=
  match s.item r with
  | none => s
  | some x =>
    let s := s.toField (msgVerdict x.lane code x.item (if code = 0xFF then 0 else x.confidence))
    s.itemState r (if code = 0xFF then .withheld else .sent)

/-! ### Suspension (R219, R463) -/

/-- A lane gains a suspension reason (R463); items that triggers have created and that have no input yet take the
withheld action at once (R219). -/
def State.suspend (s : State) (l bit' argA : Nat) : State :=
  let m := s.fget F.ADM_LANE_STATE_SUSP_REASONS l
  if !s.laneUp l || m.testBit bit' then s
  else
    let s := s.fset F.ADM_LANE_STATE_SUSP_REASONS l (setBit m bit')
    let s := s.fset F.ADM_LANE_STATE_STATE l 3
    let s := (s.items.filter (fun (p : Nat × ItemCtx) => p.2.lane == l && p.2.trig && p.2.state == .created)).foldl
      (fun s (p : Nat × ItemCtx) => s.sendVerdict p.1 0xFF) s
    s.log { code := 0x0A04, context := (s.lane l).context, lane := l, argA := argA, argB := bit' }

/-- A lane loses a suspension reason; with the last one it returns to the admitted state (R463). -/
def State.unsuspend (s : State) (l bit' : Nat) : State :=
  let m := s.fget F.ADM_LANE_STATE_SUSP_REASONS l
  if !m.testBit bit' then s
  else
    let s := s.fset F.ADM_LANE_STATE_SUSP_REASONS l (clrBit m bit')
    if clrBit m bit' = 0 && s.laneState l == 3 then
      (s.fset F.ADM_LANE_STATE_STATE l 2).log
        { code := 0x0A05, context := (s.lane l).context, lane := l }
    else s

/-- Suspend several lanes for a reason. -/
def State.suspendAll (s : State) (ls : List Nat) (bit' argA : Nat) : State :=
  ls.foldl (fun s l => s.suspend l bit' argA) s

/-! ### Completion and delivery (R33, R243) -/

/-- Write an item's completion, once (R243); with status 0x00 a lane with CPL clear only frees
its slot. -/
def State.completeItem (s : State) (r status verdict : Nat) : State :=
  match s.item r with
  | none => s
  | some x =>
    match x.origin with
    | none => s
    | some o =>
      if o.canopy || x.cpl then s
      else
        let s := s.setItem r { x with cpl := true }
        if status = 0 && !(s.lane x.lane).cpl then s.freeSlot o.ring o.number
        else s.complete o.ring o.number
          { status := status, item := true, verdict := verdict, release := status != 0
            conf := if verdict = 0xFF then 0 else x.confidence, lat := s.ns - x.acceptNs }

/-- Whether an item delivered now is late (R208, R210). -/
def State.isLate (s : State) (x : ItemCtx) : Bool :=
  let l := s.lane x.lane
  let el := s.ns - x.acceptNs
  if l.ref then decide ((l.deadline - 1) * 1000000000 < el * l.fmax) else decide (l.deadline * 625 < el * 1000)

/-- The cause of a late item: the first code of R210's table that holds.  A lane that R352 or R357 has stopped falls
under the first. -/
def State.lateCause (s : State) (x : ItemCtx) : Nat :=
  if 2 ≤ x.faults || (s.fget F.ADM_LANE_STATE_SUSP_REASONS x.lane).testBit 3 then 1
  else if (s.lane x.lane).field && !s.bar.fieldHere then 2
  else if s.laneState x.lane == 3 then 3
  else if x.slow then 4
  else 1

/-- The host was slow with an item (R210, cause 4). -/
def State.itemSlow (s : State) (item lane : Nat) : State :=
  match s.ctxOn item lane with
  | none => s
  | some (n, x) => s.setItem n { x with slow := true }

/-- Whether an item's completion has been written, or none is to be: on a lane without CPL, or for input from a
peer. -/
def State.completed (s : State) (x : ItemCtx) : Bool :=
  x.cpl || !(s.lane x.lane).cpl || x.origin.elim true (fun o => o.canopy)

/-- An accepted item is delivered (R33): it is counted, and reported if it is late (R210).  A lane without
field outputs closes the context. -/
def State.deliver (s : State) (r : Nat) : State :=
  match s.item r with
  | none => s
  | some x =>
    if x.delivered || !x.input || !s.completed x then s
    else
      let s := s.setItem r { x with delivered := true }
      let s := s.countAt C.ADM_LANE_CNT_ITEM x.lane 0 1
      let s :=
        if s.isLate x then
          let s := s.countAt C.ADM_LANE_CNT_LATE x.lane 0 1
          let s := s.logRate 1000000 x.lane { code := 0x0A06, context := (s.lane x.lane).context, lane := x.lane, item := x.item }
          s.breakLane x.lane (s.lateCause x)
        else s
      if (s.lane x.lane).field then s else s.closeItem r

/-- Complete an item with status 0x00; on a lane without field outputs that is its delivery. -/
def State.completeOk (s : State) (r verdict : Nat) : State :=
  match s.item r with
  | none => s
  | some x =>
    let s := s.completeItem r 0 verdict
    if (s.lane x.lane).field then s else s.deliver r

/-- The item takes its lane's withheld action: with field outputs and TRIG set, the withheld
verdict is sent; the context enters WITHHELD and its pipeline work is abandoned. -/
def State.withholdItem (s : State) (r : Nat) : State :=
  match s.item r with
  | none => s
  | some x =>
    let s := s.abandon x.lane x.item
    if x.state = .withheld || x.state = .retracted then s
    else if (s.lane x.lane).field && x.trig && x.state != .sent then s.sendVerdict r 0xFF
    else s.itemState r .withheld

/-- End an accepted item with a non-zero status: its withheld verdict goes out where a trigger
has joined it, and a lane without field outputs closes the context. -/
def State.endItem (s : State) (r status : Nat) : State :=
  match s.item r with
  | none => s
  | some x =>
    let s := s.withholdItem r
    let s := s.completeItem r status 0xFF
    if (s.lane x.lane).field then s else s.closeItem r

/-- VERDICT_FORMED (R223): the context records the verdict. -/
def State.verdictFormed (s : State) (r code conf : Nat) (feature : List Nat) : State :=
  match s.item r with
  | none => s
  | some x =>
    if x.state != .running then s
    else
      let s := s.setItem r { x with
        verdict := code, confidence := conf, feature := feature, state := .formed, formedNs := s.ns }
      if !(s.lane x.lane).field then s.completeOk r code
      else if x.trig then
        (if s.bar.fieldHere && x.item / 2 ^ 40 == s.bar.fieldGen then (s.sendVerdict r code).completeOk r code
         else ((s.completeItem r 0x45 0xFF).closeItem r))
      else
        let s := s.completeItem r 0x41 0xFF
        let s := s.count C.CTX_CNT_UNJOINED 0
        let s := s.logRate 1000000 0 { code := 0x0B03, context := (s.lane x.lane).context, lane := x.lane, item := x.item }
        s.closeItem r

/-- Release an item's descriptor once the entry core of the lane's first stage holds none of its
input vectors (R239). -/
def State.inputDone (s : State) (r : Nat) : State :=
  match s.item r with
  | none => s
  | some x =>
    match x.origin with
    | none => s
    | some o => if o.canopy || x.inLeft != 0 then s else s.releaseDesc o.ring o.number

end Sys2Proof.Machine
end

