-- ==== Sys2Proof/Machine/RelOps.lean ====
section
/-! DEFINITION. The reliability controller as shared operations (R26, R27, R335, R347, R348, R353
to R355, R359): units, Lookouts, fault records, convictions and retractions. -/

namespace Sys2Proof.Machine

/-! ### Units (R347) -/

/-- The unit number of a core, of an engine, of a converter lane. -/
def unitCore (c : Nat) : Nat := c
/-- The unit number of an engine. -/
def unitEngine (c e : Nat) : Nat := 1024 + c * 64 + e
/-- The unit number of a converter lane. -/
def unitLane (c e l : Nat) : Nat := 65536 + (c * 64 + e) * 512 + l

/-- The kind of a unit for fault records: 1 core, 2 engine, 3 converter lane. -/
def unitKind (u : Nat) : Nat := if u < 1024 then 1 else if u < 65536 then 2 else 3
/-- The core of a unit. -/
def unitOf (u : Nat) : Nat := if u < 1024 then u else if u < 65536 then (u - 1024) / 64 else (u - 65536) / 512 / 64
/-- The engine of a unit, 255 for a core. -/
def unitEng (u : Nat) : Nat := if u < 1024 then 255 else if u < 65536 then (u - 1024) % 64 else (u - 65536) / 512 % 64
/-- The converter lane of a unit, 0xFFFF for others. -/
def unitLaneNo (u : Nat) : Nat := if u < 65536 then 0xFFFF else (u - 65536) % 512

/-- A unit's state: 0 clean, 1 suspect, 2 retired. -/
def State.unit (s : State) (u : Nat) : Nat := s.fget F.REL_UNIT_DATA_STATE u

/-! ### Fault records (R359) -/

/-- The varying fields of a fault record's header (Table 14.11). -/
structure Fault256 where
  kind : Nat
  reason : Nat
  action : Nat
  core : Nat := 255
  engine : Nat := 255
  laneCol : Nat := 0xFFFF
  context : Nat := 0
  /-- the device that convicted; 255 for this one -/
  device : Nat := 255
  stage : Nat := 0
  generation : Nat := 0
  epochFirst : Nat := 0
  epochLast : Nat := 0
  model : Nat := 0

/-- One entry of a fault record (Table 14.12). -/
def faultEntry (typ lane outs peer first last : Nat) : List Nat :=
  [typ, lane, outs, peer] ++ bytesOf 6 first ++ bytesOf 6 last

/-- The 64 header bytes of a fault record (Table 14.11). -/
def faultHdr (us f seq count flags : Nat) (h : Fault256) : List Nat :=
  bytesOf 4 f ++ bytesOf 2 seq ++ [count, flags, h.kind, h.reason, h.action, h.core, h.engine, 0]
    ++ bytesOf 2 h.laneCol ++ [h.context, h.device] ++ bytesOf 2 h.stage ++ bytesOf 4 h.generation
    ++ bytesOf 2 h.epochFirst ++ bytesOf 2 h.epochLast ++ [0, 0, 0, 0] ++ bytesOf 8 us
    ++ bytesOf 16 h.model ++ bytesOf 8 0

/-- Store a 256-byte record under the next number, and push it (R359). -/
def State.storeFault (s : State) (f : Nat) (b : List Nat) : State :=
  let n := s.fget F.REL_FR_HEAD_NEXT 0
  let b := slice b 0 256
  let s :=
    if (Tab.find s.rel.faults (n % 65536)).isSome && decide (s.mgmt.faultAcked + 65536 ≤ n) then
      ((s.count C.REL_CNT_FRLOST 0).flag F.REL_STATUS_FR_LOST_SEEN 0).log { code := 0x140D, argA := f }
    else s
  let s := { s with rel := { s.rel with faults := Tab.set s.rel.faults (n % 65536) b } }
  let s := s.fset F.REL_FR_HEAD_NEXT 0 (n + 1)
  let ps : List (List Out × Session) := s.mgmt.sessions.map (fun e =>
    if e.sub.isSome && e.faultNext == n then ([Out.push e.id 0x0006 b], { e with faultNext := n + 1 }) else ([], e))
  { s with out := s.out ++ ps.flatMap Prod.fst, mgmt := { s.mgmt with sessions := ps.map Prod.snd } }

/-- Write one record: number it, store it, push it (R359). -/
def State.putFault (s : State) (f seq : Nat) (h : Fault256) (es : List (List Nat)) (last retr esc lost : Bool) : State :=
  s.storeFault f (faultHdr s.us f seq es.length (ofBool last + 2 * ofBool retr + 4 * ofBool esc + 8 * ofBool lost) h ++ es.flatten)

/-- Write the records of one fault, twelve entries in each; what would overwrite its own first record is dropped, and the last
record says so. -/
def State.putFaults (s : State) (f : Nat) (h : Fault256) (retr esc : Bool) : Nat → Nat → List (List Nat) → State
  | 0, _, _ => s
  | n + 1, seq, es =>
    let rest := es.drop 12
    let lost := !rest.isEmpty && decide (65535 ≤ seq)
    let s := s.putFault f seq h (es.take 12) (rest.isEmpty || lost) retr esc lost
    if rest.isEmpty || lost then s else s.putFaults f h retr esc n (seq + 1) rest

/-- Write a fault: every confirmation, conviction, failover, retirement and Lookout loss does. -/
def State.fault (s : State) (h : Fault256) (es : List (List Nat)) : State :=
  let f := s.rel.nextFault
  let s := { s with rel := { s.rel with nextFault := f + 1 } }
  let h := { h with device := if h.device = 255 then s.fget F.CNP_TOPO_ID_DEVICE 0 else h.device }
  let typ (k : Nat) : Bool := es.any (fun e => e.headD 0 == k)
  s.putFaults f h (typ 1 || typ 5) (typ 2 || typ 4 || typ 6) (es.length + 1) 0 es

/-- A fault about a unit, without entries. -/
def State.unitFault (s : State) (u reason action : Nat) : State :=
  let c := unitOf u
  let p := (s.core c).place
  s.fault { kind := unitKind u, reason := reason, action := action, core := c, engine := unitEng u
            laneCol := unitLaneNo u, context := p.elim 0 (fun p => p.context)
            stage := p.elim 0 (fun p => p.stage), model := p.elim 0 (fun p => p.model) } []

/-! ### Lookouts (R26, R27, R340) -/

/-- The place in REL_LOOKOUT that a core holds, if it is a Lookout. -/
def State.lookoutOf (s : State) (c : Nat) : Option Nat :=
  if s.fget F.REL_LOOKOUT_STATE0 0 != 0 && s.fget F.REL_LOOKOUT_CORE0 0 == c then some 0
  else if s.fget F.REL_LOOKOUT_STATE1 0 != 0 && s.fget F.REL_LOOKOUT_CORE1 0 == c then some 1
  else none

/-- The fields of place k of REL_LOOKOUT: core, subject and state. -/
def lookCore (k : Nat) : Fld := if k = 0 then F.REL_LOOKOUT_CORE0 else F.REL_LOOKOUT_CORE1
/-- The subject field of place k. -/
def lookSubject (k : Nat) : Fld := if k = 0 then F.REL_LOOKOUT_SUBJECT0 else F.REL_LOOKOUT_SUBJECT1
/-- The state field of place k: 0 absent, 1 loading, 2 mirroring, 3 idle. -/
def lookState (k : Nat) : Fld := if k = 0 then F.REL_LOOKOUT_STATE0 else F.REL_LOOKOUT_STATE1

/-- A Lookout beside its register. -/
def State.lookout (s : State) (k : Nat) : Lookout := Tab.getD s.rel.lookouts k .empty
/-- Replace a Lookout. -/
def State.setLookout (s : State) (k : Nat) (x : Lookout) : State :=
  { s with rel := { s.rel with lookouts := Tab.set s.rel.lookouts k x } }

/-- The core of a Lookout place that mirrors, with its subject. -/
def State.mirroring (s : State) (k : Nat) : Option (Nat × Nat) :=
  if s.fget (lookState k) 0 = 2 then some (s.fget (lookCore k) 0, s.fget (lookSubject k) 0) else none

/-- Lookouts standing. -/
def State.lookouts (s : State) : List Nat := (List.range 2).filter (fun k => s.fget (lookState k) 0 != 0)

/-- Free cores, lowest first (R25); a limited host section keeps every core gated (R414). -/
def State.freeCores (s : State) : List Nat :=
  if s.fget F.GLB_PWR_STATUS_STATE 0 == 2 then [] else (List.range 32).filter (fun c => s.fget F.CORE_ROLE_ROLE c == 0 && s.fget F.CORE_STATUS_STATE c != 4
    && s.unit (unitCore c) != 2 && !(s.restorer c).zeroing)

/-- Give a core the Lookout role in place k. -/
def State.makeLookout (s : State) (k c : Nat) : State :=
  let s := s.fset (lookCore k) 0 c
  let s := s.fset (lookState k) 0 3
  let s := s.fset F.CORE_ROLE_ROLE c 2
  let s := s.fset F.CORE_STATUS_STATE c 1
  let s := s.setLookout k .empty
  let s := { s with rel := { s.rel with lookDue := s.rel.lookDue.filter (fun x => x != k) } }
  s.fset F.REL_STATUS_LOOKOUTS 0 s.lookouts.length

/-- The recorded core that a place still waits for after a full reset, unless it is retired (R26). -/
def State.dueCore (s : State) (k : Nat) : Option Nat :=
  let c := s.fget (lookCore k) 0
  if s.fget (lookState k) 0 == 0 && s.rel.lookDue.contains k && s.unit (unitCore c) != 2 then some c else none

/-- The core that a place takes, of the cores not taken so far: the recorded core that it waits for, else the
lowest-numbered free core that no place waits for (R26, R27). -/
def State.seat (s : State) (k : Nat) (taken : List Nat) : Option Nat :=
  match s.dueCore k with
  | some c => if s.freeCores.contains c then some c else none
  | none => s.freeCores.find? (fun c => !taken.contains c && s.dueCore (1 - k) != some c)

/-- The free cores that the Lookout places which stand empty will take, whether they bleed or not: no mapping
takes them, so that a shielded mapping uses at most 30 cores (R23). -/
def State.reserve (s : State) : List Nat :=
  (List.range 2).foldl (fun l k =>
    if s.fget (lookState k) 0 != 0 then l else l ++ (s.seat k l).toList) []

/-- Cores take the Lookout role until two Lookouts stand (R26, R27); a core that bleeds still counts as its last
context's (R381), so a recorded core is waited for, and another is passed over. -/
def State.designate (s : State) : State :=
  (List.range 2).foldl (fun s k =>
    if s.fget (lookState k) 0 != 0 then s
    else
      match s.seat k ((List.range 32).filter (fun c => (Tab.find s.keep.bleed c).isSome && s.dueCore k != some c)) with
      | none => s
      | some c => if (Tab.find s.keep.bleed c).isSome then s else s.makeLookout k c) s

/-- With no Lookout left every lane is unshielded; an event says so of each lane (R27; the code is the model's
choice, log entry 112). -/
def State.unshieldLanes (s : State) : State :=
  if !s.lookouts.isEmpty then s
  else
    let ls := (List.range 64).filter (fun l => s.laneState l != 0 && !(s.lane l).unshielded)
    let s := { s with lanes := Tab.mapv s.lanes (fun _ (l : Lane) => { l with unshielded := true }) }
    ls.foldl (fun s l => s.log { code := 0x0713, context := (s.lane l).context, lane := l }) s

/-- Begin to write level 0 into a core's cells (R108). -/
def State.beginZero (s : State) (c : Nat) : State :=
  let r := s.restorer c
  let s := if r.sweeping && r.lagged then s.count C.RST_CNT_LAGSWEEP c else s
  let s := s.setRst c { r with sweeping := false, bulk := none, zeroing := true }
  s.fset F.RST_STATUS_STATE c 3

/-- A Lookout is lost (R340). -/
def State.loseLookout (s : State) (k : Nat) : State :=
  let c := s.fget (lookCore k) 0
  let s := s.fset (lookState k) 0 0
  let s := s.fset F.REL_STATUS_LOOKOUTS 0 s.lookouts.length
  let s := { s with rel := { s.rel with samples := s.rel.samples.filter (fun x => x.lookout != k) } }
  let s := s.log { code := 0x140A, core := c, argA := s.lookouts.length, argB := s.rel.nextFault }
  let s := s.fault { kind := 1, reason := 0x0A, action := 0, core := c } []
  s.unshieldLanes.designate

/-! ### Suspects, confirmed failures, retirement (R347, R348) -/

/-- A unit becomes a suspect on a trigger of Table 14.6. -/
def State.suspect (s : State) (u reason : Nat) : State :=
  if s.unit u = 2 then s
  else
    let s := s.fset F.REL_UNIT_DATA_REASON u reason
    if s.unit u = 1 then s
    else
      let s := s.fset F.REL_UNIT_DATA_STATE u 1
      let s := s.fset F.REL_UNIT_DATA_CLEAN u 0
      let s := if u < 32 then { s with rel := { s.rel with suspects := s.rel.suspects ++ [u] } } else s
      s.log { code := 0x1405, core := unitOf u, engine := unitEng u, argA := unitLaneNo u }

/-- Remove a core that serves no stage: a free core becomes Retired; a Lookout is replaced, and its cells leave
service (R25, R108). -/
def State.removeCore (s : State) (c : Nat) : State :=
  let wasLook := s.lookoutOf c
  let s := s.fset F.CORE_STATUS_STATE c 4
  let s := s.fset F.CORE_ROLE_ROLE c 3
  match wasLook with
  | none => s
  | some k => (s.beginZero c).loseLookout k

/-- Retire a unit (R348).  An engine takes its core with it; a working core then fails over
(CORE_FAILED), a Lookout is replaced, a free core becomes Retired. -/
def State.retireUnit (s : State) (u reason : Nat) : State :=
  if s.unit u = 2 then s
  else
    let s := s.fset F.REL_UNIT_DATA_STATE u 2
    let s := s.fset F.REL_UNIT_DATA_REASON u reason
    let s := { s with rel := { s.rel with suspects := s.rel.suspects.filter (fun x => x != u) } }
    let s := s.count C.REL_CNT_RETIRE 0
    let s := s.flag F.REL_STATUS_RETIRE_SEEN 0
    let s := s.log { code := 0x1407, core := unitOf u, engine := unitEng u, argA := unitLaneNo u, argB := s.rel.nextFault }
    s.unitFault u reason 4

/-- Retire a unit and what it takes with it. -/
def State.retire (s : State) (u reason : Nat) : State :=
  let s := s.retireUnit u reason
  if 65536 ≤ u then s
  else
    let c := unitOf u
    let s := s.retireUnit (unitCore c) reason
    if s.fget F.CORE_ROLE_ROLE c = 1 then s else s.removeCore c

/-- A confirmed failure of a unit: counted, its clean count starts again, and the third retires
it. -/
def State.confirm (s : State) (u reason : Nat) : State :=
  if s.unit u = 2 then s
  else
    let s := s.suspect u reason
    let n := min 3 (s.fget F.REL_UNIT_DATA_FAILS u + 1)
    let s := s.fset F.REL_UNIT_DATA_FAILS u n
    let s := s.fset F.REL_UNIT_DATA_CLEAN u 0
    let s := s.count C.REL_CNT_CONFIRM 0
    let s := s.flag F.REL_STATUS_CONFIRM_SEEN 0
    let s := s.log { code := 0x1402, core := unitOf u, engine := unitEng u, argA := unitLaneNo u, argB := s.rel.nextFault }
    let s := s.unitFault u reason 2
    if 3 ≤ n then s.retire u reason else s

/-- A clean window of a unit; 64 in a row clear a suspect. -/
def State.cleanWindow (s : State) (u : Nat) : State :=
  if s.unit u != 1 then s
  else
    let n := s.fget F.REL_UNIT_DATA_CLEAN u + 1
    if 64 ≤ n then
      let s := s.fset F.REL_UNIT_DATA_STATE u 0
      let s := s.fset F.REL_UNIT_DATA_CLEAN u 0
      let s := s.fset F.REL_UNIT_DATA_FAILS u 0
      let s := { s with rel := { s.rel with suspects := s.rel.suspects.filter (fun x => x != u) } }
      s.log { code := 0x1406, core := unitOf u, engine := unitEng u, argA := unitLaneNo u }
    else s.fset F.REL_UNIT_DATA_CLEAN u n

/-! ### Convictions (R353 to R355) -/

/-- Whether an identifier lies in a range, by serial arithmetic with a window of 2^47 (R220). -/
def inRange48 (first last item : Nat) : Bool :=
  decide ((item + 2 ^ 48 - first % 2 ^ 48) % 2 ^ 48 ≤ (last + 2 ^ 48 - first % 2 ^ 48) % 2 ^ 48)

/-- The identifier range of a lane over an interval that begins at a time: the first item begun
at or after it, to the last begun. -/
def Lane.rangeSince (l : Lane) (t : Nat) : Option (Nat × Nat) :=
  let xs := (l.begun.filter (fun (p : Nat × Nat) => decide (t ≤ p.2))).map (fun (p : Nat × Nat) => p.1)
  match xs with
  | [] => none
  | x :: r => some (x, (x :: r).getLastD x)

/-- Act on one item of a convicted range (Table 14.10), with the fault record entries it adds. -/
def State.convictItem (s : State) (l : Nat) (r : Nat) (x : ItemCtx) : State × List (List Nat) :=
  match x.state with
  | .running =>
    let s := (s.withholdItem r).completeItem r 0 0xFF
    let s := if (s.lane l).field then s else s.closeItem r
    (s, [faultEntry 3 l 0 0 x.item x.item])
  | .formed =>
    let s := (s.withholdItem r).completeItem r 0 0xFF
    let s := if (s.lane l).field then s else s.closeItem r
    (s, [faultEntry 3 l 0 0 x.item x.item])
  | .sent => (s.itemState r .retracted, [])
  | _ => (s, [])

/-- Act on a lane's range (R354): items first, then one barrier retraction, which follows the
verdict messages already handed over (R34). -/
def State.convictLane (s : State) (l first last : Nat) : State × List (List Nat) :=
  let xs := s.items.filter (fun (p : Nat × ItemCtx) => p.2.lane == l && inRange48 first last p.2.item)
  let sent := xs.any (fun (p : Nat × ItemCtx) => p.2.state == .sent)
  let live := xs.length
  let (s, es) := xs.foldl (fun (a : State × List (List Nat)) p =>
    let (t, e) := a.1.convictItem l p.1 p.2
    (t, a.2 ++ e)) (s, [])
  let total := (s.lane l).begun.filter (fun (p : Nat × Nat) => inRange48 first last p.1)
  let closed := decide (live < total.length)
  if (s.lane l).field then
    let s := s.toField (msgRetraction l first last)
    (s, es ++ (if sent then [faultEntry 1 l 0 0 first last] else [])
          ++ (if closed then [faultEntry 4 l 0 0 first last] else []))
  else (s, es ++ (if closed then [faultEntry 6 l 0 0 first last] else []))

/-- The payload of a Canopy retraction (Table 13.8). -/
def cnpRetraction (number origin reason stage ef el first last gen : Nat) : List Nat :=
  slice (bytesOf 4 number ++ [origin, reason] ++ bytesOf 2 stage ++ bytesOf 2 ef ++ bytesOf 2 el
    ++ bytesOf 6 first ++ bytesOf 6 last ++ bytesOf 4 gen) 0 64

/-- Send a Canopy retraction for a lane's range to the device that its results went to (R355). -/
def State.retractPeer (s : State) (l reason stage ef el first last gen : Nat) : State × List (List Nat) :=
  match (s.lane l).peerOut with
  | none => (s, [])
  | some (dev, lane) =>
    let n := s.rel.retractions
    let s := { s with rel := { s.rel with retractions := n + 1 } }
    let me := s.fget F.CNP_TOPO_ID_DEVICE 0
    let s := s.toPeer { Packet.empty with
      typ := .retraction, src := 43, dst := 255, dev := dev, context := (s.lane l).context
      model := (s.lane l).model, lane := lane
      payload := cnpRetraction n me reason stage ef el first last gen }
    (s, [faultEntry 5 l 0 dev first last])

/-- Write the fault record of a conviction, and await the results of the barrier retractions sent for some lanes (R354,
R359). -/
def State.faultAwait (s : State) (h : Fault256) (es : List (List Nat)) (lanes : List Nat) : State :=
  let f := s.rel.nextFault
  let s := s.fault h es
  let h := { h with device := if h.device = 255 then s.fget F.CNP_TOPO_ID_DEVICE 0 else h.device }
  let fld : List Retracting := (lanes.filter (fun l => (s.lane l).field)).map (fun l =>
    ({ fault := f, seq := Nat.max 1 (ceilDiv es.length 12), hdr := faultHdr 0 f 0 0 0 h, lane := l } : Retracting))
  { s with rel := { s.rel with retracting := s.rel.retracting ++ fld } }

/-- Act on the ranges of several lanes, and write the fault record (R354, R355). -/
def State.convictRanges (s : State) (h : Fault256) (rs : List (Nat × Nat × Nat)) : State :=
  let (s, es) := rs.foldl (fun (a : State × List (List Nat)) (r : Nat × Nat × Nat) =>
    let (t, e) := a.1.convictLane r.1 r.2.1 r.2.2
    let (t, e') := t.retractPeer r.1 h.reason h.stage h.epochFirst h.epochLast r.2.1 r.2.2 h.generation
    (t, a.2 ++ e ++ e')) (s, [])
  let s := s.count C.REL_CNT_RETRACT 0
  let f := s.rel.nextFault
  let tells := rs.any (fun (r : Nat × Nat × Nat) => (s.lane r.1).field || (s.lane r.1).peerOut.isSome)
  let h := { h with action := h.action ||| 16 * ofBool tells }
  let s := s.faultAwait h es (rs.map (fun (r : Nat × Nat × Nat) => r.1))
  s.log { code := 0x1409, context := h.context, core := h.core, engine := h.engine, argA := f }

/-- Convict a core's stage over the interval from a time to now (R353). -/
def State.convict (s : State) (c engine kind reason laneCol since : Nat) : State :=
  match s.stageOf c with
  | none => s
  | some (m, r) =>
    let e := (s.epoch (stageKey m.context m.id r.stage)).cur
    let ls := s.lanesOf m.context m.id r.stage
    let rs := ls.filterMap (fun l => ((s.lane l).rangeSince since).map (fun (p : Nat × Nat) => (l, p.1, p.2)))
    s.convictRanges { kind := kind, reason := reason, action := 2, core := c, engine := engine
                      laneCol := laneCol, context := m.context, stage := r.stage, generation := m.gen
                      epochFirst := e, epochLast := e, model := m.id } rs

/-- The end of a core's last clean window of a kind: 0 dwell, 1 known-answer run. -/
def State.cleanAt (s : State) (c kind : Nat) : Nat := Tab.getD s.rel.clean (c * 4 + kind) 0

/-- Record a clean point. -/
def State.setClean (s : State) (key : Nat) : State :=
  { s with rel := { s.rel with clean := Tab.set s.rel.clean key s.ns } }

end Sys2Proof.Machine
end

