-- ==== Sys2Proof/Machine/ThermalOps.lean ====
section
/-! DEFINITION. Shared operations on corrections and temperature (R54, R55, R119, R422 to R428):
a fall of CAL_VALID, the rate-of-rise levels, and a core beyond the guardband. -/

namespace Sys2Proof.Machine

/-- CAL_VALID of an engine falls (R54, R55). -/
def State.calFall (s : State) (c e : Nat) : State :=
  let i := eng c e
  if !s.fon F.ENG_STATUS_CAL_VALID i then s
  else
    let s := s.fset F.ENG_STATUS_CAL_VALID i 0
    if s.fget F.CORE_STATUS_STATE c = 2 then
      let s := s.flag F.ENG_STATUS_UNCAL_RUN i
      let s := s.log { code := 0x0304, context := s.ctxOf c, core := c, engine := e }
      s.suspect (unitEngine c e) 0x08
    else s

/-- Whether every segment-column has a correction, and every group a cell factor, measured within
the last 2 × T (R119). -/
def State.calCurrent (s : State) (c e : Nat) : Bool :=
  let g := s.engine c e
  let old (t : Nat) : Bool := decide (t + 2 * s.periodNs c < s.ns)
  let cal := g.calNew.foldl (fun t p => Tab.set t p.1 p.2) g.cal
  let rho := g.rhoNew.foldl (fun t p => Tab.set t p.1 p.2) g.rho
  cal.length == 8064 && cal.all (fun p => !old p.2.time)
    && rho.length == 192 && rho.all (fun p => !old p.2.2)

/-- CAL_VALID of an engine under R119: set when every correction is current and its core is
within the guardband. -/
def State.calRise (s : State) (c e : Nat) : State :=
  if s.calCurrent c e && !s.power.guard.contains c then s.flag F.ENG_STATUS_CAL_VALID (eng c e) else s

/-! ### Rate-of-rise levels (R426, R427) -/

/-- Change the level in force: counted, logged. -/
def State.levelChange (s : State) (k : Nat) : State :=
  let s := s.fset F.GLB_THM_STATUS_LEVEL 0 k
  let s := s.log { code := 0x0101, argA := k }
  if k = 1 then s.count C.GLB_THM_CNT_L1 0
  else if k = 2 then s.count C.GLB_THM_CNT_L2 0
  else if k = 3 then s.count C.GLB_THM_CNT_L3 0 else s

/-- Level 1 at a core: its restorer halves its period (R122). -/
def State.halvePeriod (s : State) (c : Nat) : State :=
  let r := s.restorer c
  if r.halved then s
  else
    let t := s.fget F.RST_PERIOD_CUR_US c / 2 / 250 * 250
    let s := s.fset F.RST_PERIOD_CUR_US c (max t (s.fget F.RST_PERIOD_LIM_MIN_US c))
    s.setRst c { r with halved := true }

/-- The actions of level 3 beyond those of level 2: the array clock steps down, then every
admitted lane with THERMAL clear is suspended. -/
def State.levelThree (s : State) : State :=
  let s := ({ s with power := { s.power with slow := true } } : State).flag F.GLB_CLK_STATUS_GUARD 0
  let ls := (List.range 64).filter (fun l => s.laneUp l && !(s.lane l).thermal)
  let s := s.suspendAll ls 1 0xFFFF
  { s with power := { s.power with suspended := s.power.suspended ++ ls } }

/-- Raise the level in force to `k` with the actions of each level passed. -/
def State.raiseLevel (s : State) (k : Nat) : State :=
  let now := s.fget F.GLB_THM_STATUS_LEVEL 0
  if k ≤ now || s.fon F.GLB_THM_STATUS_STOPPING 0 then s
  else
    let s := s.levelChange k
    let s := if 2 ≤ k then s.flag F.ADM_STATUS_FROZEN 0 else s
    if 3 ≤ k then s.levelThree else s

/-- A core is beyond the guardband (R428). -/
def State.guardOn (s : State) (c : Nat) : State :=
  if s.power.guard.contains c then s
  else
    let s := { s with power := { s.power with guard := s.power.guard ++ [c], cool := Tab.erase s.power.cool c } }
    let s := s.flag F.GLB_THM_STATUS_GUARD_ANY 0
    let s := s.count C.GLB_THM_CNT_GUARD 0
    let s := s.raiseLevel 3
    let s := (List.range 36).foldl (fun s e => s.calFall c e) s
    s.log { code := 0x0102, core := c }

end Sys2Proof.Machine
end

