-- ==== Sys2Proof/Machine/Restorer.lean ====
section
/-! DEFINITION. The restorer (R108 to R134): sweeps, bulk loads, calibration, spares, digests
and noise passports. -/

namespace Sys2Proof.Machine

/-! ### Digests (R128 to R130) -/

/-- The 16 B header of an engine digest. -/
def digestHeader (gen plan stage index : Nat) : List Nat :=
  bytesOf 4 gen ++ [plan, 0] ++ bytesOf 2 stage ++ bytesOf 2 index ++ bytesOf 6 0

/-- The used bytes of row `row` of a master slot. -/
def State.masterRow (s : State) (region slot plan row : Nat) : List Nat :=
  s.dramRead (recordAddr region slot row) (planUsed plan)

/-- The engine digest of a master slot (R128). -/
def State.masterDigest (s : State) (region slot gen plan stage index : Nat) : List Nat :=
  shake256 (digestHeader gen plan stage index
    ++ (List.range 2048).flatMap (s.masterRow region slot plan))

/-- The master region an engine is bound to. -/
def State.region (s : State) (c e : Nat) : Nat := Tab.getD s.fab.bound (c * 32 + e) 0

/-- The generation that a core runs or mirrors. -/
def State.genOf (s : State) (c : Nat) : Nat := s.fget F.RST_GEN_GEN c

/-- The header of an engine's digest as the engine stands. -/
def State.engineHeader (s : State) (c e : Nat) : List Nat :=
  match (s.engine c e).map with
  | none => digestHeader (s.genOf c) (s.plan c e) 0 0
  | some m => digestHeader (s.genOf c) (s.plan c e) m.stage m.index

/-- A master that its own digest convicts (R129, R353, R357): the items since the last matching
sweep are convicted, and the repair begins, or waits for the image. -/
def State.convictMaster (s : State) (c e : Nat) : State :=
  let owner := match s.lookoutOf c with
    | none => c
    | some k => s.fget (lookSubject k) 0
  if s.rel.repairs.any (fun r => r.core == owner && r.engine == e) then s
  else
    let s := s.convict owner e 4 0x04 0xFFFF (Tab.getD s.rel.clean (4096 + owner * 64 + e) 0)
    match s.stageOf owner with
    | none => s
    | some (m, _) =>
      let wait := m.imageAt.isNone
      let s := { s with rel := { s.rel with repairs := s.rel.repairs ++ [⟨owner, e, wait, s.ns⟩] } }
      if wait then
        let s := s.log { code := 0x140C, context := m.context, core := owner, engine := e }
        let ls := (List.range 64).filter (fun l =>
          s.laneUp l && (s.lane l).context == m.context && (s.lane l).model == m.id)
        let s := s.suspendAll ls 3 0xFFFF
        ls.foldl (fun s l => s.breakLane l 1) s
      else s

/-- DIGEST_MISMATCH (R129): the restorer keeps rewriting from the same master. -/
def State.digestMismatch (s : State) (c e : Nat) : State :=
  let s := s.flag F.RST_STATUS_DIGEST_MISMATCH c
  let s := s.log { code := 0x0503, context := s.ctxOf c, core := c, engine := e }
  s.convictMaster c e

/-- Compare an engine's finished digest with the expected one. -/
def State.checkDigest (s : State) (c e : Nat) (d : List Nat) : State :=
  let g := s.engine c e
  let s := s.setEngine c e { g with digest := d }
  if d = g.expected then s.setClean (4096 + c * 64 + e) else s.digestMismatch c e

/-! ### Sweeps (R109, R110, R120 to R123) -/

/-- T at the start of a sweep (R121): shorter at once, longer by at most 250 µs. -/
def nextPeriod (cur target lo hi : Nat) (halved measured : Bool) : Nat :=
  if halved || !measured then cur
  else
    let t := max lo (min hi (target / 250 * 250))
    if t < cur then t else min t (cur + 250)

/-- SWEEP_START (R109): a period after the last start, while nothing else runs. -/
def execSweepStart (c : Nat) (s : State) : Res :=
  let r := s.restorer c
  let due := r.sweeps = 0 && r.started = 0 || decide (r.started + s.periodNs c ≤ s.ns)
  if r.sweeping || r.bulk.isSome || r.zeroing || (s.inService c).isEmpty || !due then .next s
  else
    let t := nextPeriod (s.fget F.RST_PERIOD_CUR_US c) (s.fget F.RST_PERIOD_TARGET_US c)
      (s.fget F.RST_PERIOD_LIM_MIN_US c) (s.fget F.RST_PERIOD_LIM_MAX_US c) r.halved r.measured
    let s := s.fset F.RST_PERIOD_CUR_US c t
    let s := s.setRst c { r with sweeping := true, row := 0, idx := 0, started := s.ns, lagged := false }
    let s := (s.inService c).foldl (fun s e =>
      let g := s.engine c e
      s.setEngine c e { g with folded := s.engineHeader c e }) s
    .next (s.fset F.RST_STATUS_STATE c 1)

/-- Record how far behind schedule a visit comes (R123). -/
def State.visitLag (s : State) (c lagUs : Nat) : State :=
  let s := if s.fget F.RST_LAG_MAX_LAG_US c < lagUs then s.fset F.RST_LAG_MAX_LAG_US c (min 65535 lagUs) else s
  let r := s.restorer c
  if s.fget F.RST_PERIOD_CUR_US c < 10 * lagUs && !r.lagged then
    let s := s.setRst c { r with lagged := true }
    let s := s.flag F.RST_STATUS_LAG c
    s.logRate 1000000 c { code := 0x0501, core := c }
  else s

/-- An uncorrectable DRAM read is recorded (R201). -/
def State.memUe (s : State) (addr : Nat) : State :=
  let s := s.count C.MEM_CNT_UE 0
  let s := s.flag F.MEM_STATUS_UE_SEEN 0
  let s := s.fset F.MEM_ERR_LO_ADDR_LO 0 (addr % 2 ^ 32)
  let s := s.fset F.MEM_ERR_HI_ADDR_HI 0 (addr / 2 ^ 32)
  let s := s.fset F.MEM_ERR_HI_UE 0 1
  let s := s.fset F.MEM_ERR_HI_WPAR 0 0
  let s := s.fset F.MEM_ERR_HI_VALID 0 1
  s.log { code := 0x0902, argA := addr / 2 ^ 20, argB := addr / 2 ^ 4 }

/-- A corrected DRAM read is counted, recorded and logged at most once per second (R201, R205). -/
def State.memCe (s : State) (addr : Nat) : State :=
  let s := s.count C.MEM_CNT_CE 0
  let s := s.flag F.MEM_STATUS_CE_SEEN 0
  let s := s.fset F.MEM_ERR_LO_ADDR_LO 0 (addr % 2 ^ 32)
  let s := s.fset F.MEM_ERR_HI_ADDR_HI 0 (addr / 2 ^ 32)
  let s := s.fset F.MEM_ERR_HI_UE 0 0
  let s := s.fset F.MEM_ERR_HI_WPAR 0 0
  let s := s.fset F.MEM_ERR_HI_VALID 0 1
  s.logRate 1000000000 0 { code := 0x0901, argA := addr / 2 ^ 20, argB := addr / 2 ^ 4 }

/-- The visit proper (R109, R110): one record gives the row's cells, the bytes folded and, through the window that
opens, the stand-in; a row whose record cannot be read is left out of this sweep (R201).  An error lies in the
64 B block `block` of the record. -/
def State.visitRow (s : State) (c e row block : Nat) (err : EccErr) : State :=
  let slot := s.fget F.RST_SLOT_ACTIVE c
  let reg := s.region c e
  let at' := recordAddr reg slot row + block % 4 * 64
  match err with
  | .double => (s.memUe at').digestMismatch c e
  | _ =>
    let s := if err = .single then s.memCe at' else s
    let rec' := s.masterRow reg slot (s.plan c e) row
    let s := s.rewriteRow c e row rec'
    let g := s.engine c e
    s.setEngine c e { g with folded := g.folded ++ rec', window := some ⟨row, rec', s.ns, false⟩ }

/-- Whether an engine's last rewrite window is still open: it occupies one whole bit-plane cycle (R110). -/
def State.windowOpen (s : State) (c e : Nat) : Bool :=
  match (s.engine c e).window with
  | none => false
  | some w => decide (s.ns < w.opened + s.cycleNs)

/-- Whether the restorer may open a rewrite window in an engine: at most 4 stand open in a core, each in a
different engine (R110). -/
def State.mayOpen (s : State) (c e : Nat) : Bool :=
  !s.windowOpen c e && decide (((s.inService c).filter (s.windowOpen c)).length < 4)

/-- ROW_VISIT (R110): rows ascending, and for each row the engines in service ascending. -/
def execRowVisit (c lagUs block : Nat) (err : EccErr) (s : State) : Res :=
  let r := s.restorer c
  let es := s.inService c
  let e := es.getD r.idx 0
  if !r.sweeping || decide (2048 ≤ r.row) || es.isEmpty || !s.mayOpen c e then .next s
  else
    let s := s.visitRow c e r.row block err
    let s := s.visitLag c lagUs
    let r := s.restorer c
    .next (s.setRst c (if r.idx + 1 < es.length then { r with idx := r.idx + 1 }
      else { r with row := r.row + 1, idx := 0 }))

/-- T_t in µs for a droop rate in ppm per ms (R121), rounded down to 250 µs.  Where TARGET_US has no room for it, or
no droop was found, it shows the largest multiple of 250 that fits, 16,250, which the spec leaves open (log entry 118). -/
def targetUs (ppm : Nat) : Nat := if ppm = 0 then 16250 else min 16250 (20000000 / (11 * ppm) / 250 * 250)

/-- The droop rate that the restorer measured takes effect (R120 to R123). -/
def State.droop (s : State) (c ppm : Nat) : State :=
  let s := s.fset F.RST_DROOP_PPM_MS c ppm
  let t := targetUs ppm
  let s := s.fset F.RST_PERIOD_TARGET_US c t
  let r := s.restorer c
  let s := s.setRst c { r with measured := true }
  if t < s.fget F.RST_PERIOD_LIM_MIN_US c then
    let s := s.flag F.RST_STATUS_DROOP_LIMIT c
    let s := s.log { code := 0x0502, core := c, argA := ppm }
    s.guardOn c
  else s

/-- A tile of a model has completed a sweep (R130). -/
def State.noteSwept (s : State) (c e : Nat) : State :=
  match s.stageOf c, (s.engine c e).map with
  | some (m, _), some k =>
    let i := m.maps.findIdx (fun x => x.stage == k.stage && x.pos == s.posOf c && x.engine == e)
    -- a tile counts for the generation that its core holds
    if m.swept.contains i || s.fget F.RST_GEN_GEN c != m.gen then s else s.setModel { m with swept := m.swept ++ [i] }
  | _, _ => s

/-- SWEEP_END (R129). -/
def execSweepEnd (c ppm : Nat) (s : State) : Res :=
  let r := s.restorer c
  if !r.sweeping || decide (r.row < 2048) then .next s
  else
    let s := s.setRst c { r with sweeping := false, sweeps := r.sweeps + 1 }
    let s := s.fset F.RST_STATUS_STATE c 0
    let s := s.count C.RST_CNT_SWEEP c
    let s := if r.lagged then s.count C.RST_CNT_LAGSWEEP c else s
    let s := (s.inService c).foldl (fun s e =>
      let g := s.engine c e
      let s := s.setEngine c e { g with written := true, folded := [] }
      let s := s.checkDigest c e (shake256 g.folded)
      s.noteSwept c e) s
    .next (s.droop c ppm)

/-- Sweeps that a model's cores have completed. -/
def State.modelSweeps (s : State) (m : Model) : Nat :=
  (m.stages.flatMap (fun (r : StageRec) => r.placed)).foldl (fun n c => n + (s.restorer c).sweeps) 0

/-- MODEL_DIGEST_FORM (R130); it pauses while the management controller restarts (R403). -/
def execModelDigestForm (ctx id : Nat) (s : State) : Res :=
  match s.model ctx id with
  | none => .next s
  | some m =>
    if s.mgmt.down || m.swept.length < m.maps.length || m.maps.isEmpty || m.next.elim false (fun n => !n.switched.isEmpty)
    then .next s
    else
      let ds := m.maps.flatMap (fun k =>
        match m.stage k.stage with
        | none => []
        | some r => (s.engine (r.placed.getD k.pos 0) k.engine).digest)
      .next (s.setModel { m with swept := [], sweptAt := s.modelSweeps m
                                 digest := shake256 (bytesOf 4 m.gen ++ bytesOf 4 m.maps.length ++ ds) })

/-! ### Calibration (R116 to R119) -/

/-- The place of a calibration setting among the five of R117. -/
def calIndex : CalSetting → Option Nat
  | .inject 0 => some 0
  | .inject 64 => some 1
  | .inject 128 => some 2
  | .inject 192 => some 3
  | .inject _ => none
  | _ => some 4

/-- Whether a begun vector's next cycle leaves a segment undriven, for data and for a replay. -/
def State.vecLeaves (s : State) (c e seg : Nat) (v : EngVec) : Bool :=
  let p := (s.nextPlane c e v 9 v.plane 0).1
  v.splits.all (fun q => q.seg != seg) && !s.planeOn c e v p seg

/-- Whether a segment of an engine is known to be driven neither for data nor for a replay in the
cycle that begins now (R116): by the running vector, or by one that has begun behind it and runs next. -/
def State.segFree (s : State) (c e seg : Nat) : Bool :=
  let g := s.engine c e
  let after := g.next.all (fun v => !v.begun || s.vecLeaves c e seg v)
  match g.run with
  | none => after
  | some v => s.vecLeaves c e seg v && (!s.vecDone c e v || after)

/-- The rows of a segment that a reference cycle drives: alternately the even and the odd ones (R117). -/
def refRows (seg : Nat) (odd : Bool) : List Nat :=
  (List.range 512).map (fun k => seg * 1024 + 2 * k + ofBool odd)

/-- Reference samples of a cycle that drives rows of a segment in one configuration, with free values from `n`. -/
def State.refCycle (s : State) (c e : Nat) (g : Engine) (seg : Nat) (split : Bool) (rows : List Nat) (n : Nat) : Engine :=
  let t := s.periodNs c
  if split then
    (g.addRefs t s.ns seg 1 (lowerHalf rows) (s.refCodes c e (lowerHalf rows) seg 1 n)).addRefs t s.ns seg 2
      (upperHalf rows) (s.refCodes c e (upperHalf rows) seg 2 (n + 32))
  else g.addRefs t s.ns seg 0 rows (s.refCodes c e rows seg 0 n)

/-- Whether a setting is due in a pass that has run `done` cycles at it: 16 each, and the reference cycles alternate,
even rows first (R117, log entry 113). -/
def settingDue (setting : CalSetting) (done : Nat) : Bool :=
  decide (done < 16) && (match setting with
    | .refEven => done % 2 == 0
    | .refOdd => done % 2 == 1
    | .inject _ => true)

/-- CALIBRATION_CYCLE (R116, R117): its conversions feed the restorer alone. -/
def execCalibrationCycle (c e seg : Nat) (setting : CalSetting) (split : Bool) (s : State) : Res :=
  if !(s.calEngines c).contains e || decide (2 ≤ seg) || !s.segFree c e seg then .next s
  else
    match calIndex setting with
    | none => .next s
    | some k =>
      let g := s.engine c e
      let key := seg * 16 + k * 2 + ofBool split
      let done := Tab.getD g.calCycles key 0
      if !settingDue setting done then .next s
      else
        let g := { g with calCycles := Tab.set g.calCycles key (done + 1) }
        let rows := (refRows seg (done % 2 == 1)).filter (fun r => (s.windowRow g).all (fun w => w.row != r))
        let g := if k = 4 then s.refCycle c e g seg split rows s.free else g
        .next ((s.setEngine c e g).draw 64)

/-- A pair formed from a pass (R118): none where the segment-column fails calibration.  `ofs` in 1/16 LSB, `inj` and
`rho` in Q2.14, `noise` the square of the noise estimate in 1/1024 LSB². -/
def formPair (ofs inj : Int) (rho noise time : Nat) : Option CalPair :=
  let d := inj * (rho : Int)
  if 10 * 2 ^ 28 < 8 * d || 10 * d < 8 * 2 ^ 28 || 128 < ofs.natAbs || 16384 < 100 * noise then none
  else some ⟨toBits 12 ofs, inj.toNat, time⟩

/-- The cell factor of a column's group, segment and kind that the last fit gave. -/
def Engine.rhoLast (g : Engine) (col seg kind : Nat) : Nat :=
  match Tab.find g.rhoNew ((groupOf col * 2 + seg) * 3 + kind) with
  | some r => r.1
  | none => g.rhoOf col seg kind

/-- What a column's 16 codes at setting `i` of a regular pass sum to: free within the code range. -/
def codeSum (k i : Nat) : Int := ((Config.measured (k + i) % 4081 : Nat) : Int)

/-- The outcome of a regular pass for one column and kind (R118): O is the mean code at injection 0, a the slope of
the least-squares line through the origin on what is left at 0, 64, 128 and 192 units (log entry 113). -/
def State.passPair (s : State) (c e n col seg kind : Nat) : Option CalPair :=
  let k := n + (col * 3 + kind) * 5
  let o := codeSum k 0
  let t := (codeSum k 1 - o) + 2 * (codeSum k 2 - o) + 3 * (codeSum k 3 - o)
  formPair o (roundHalfEven (16384 * t) 14336) ((s.engine c e).rhoLast col seg kind) (Config.measured (k + 4)) s.ns

/-- What a column's 64 codes at setting `i` of a start-up pass sum to. -/
def startSum (k i : Nat) : Int := ((Config.measured (k + i) % 16321 : Nat) : Int)

/-- The outcome of a start-up pass for one column and kind (R117, R118): injections of 0 and of 2^b units. -/
def State.startPair (s : State) (c e n col seg kind : Nat) : Option CalPair :=
  let k := n + (col * 3 + kind) * 10
  let o := startSum k 0
  let t := (List.range 8).foldl (fun (t : Int) b => t + ((2 ^ b : Nat) : Int) * (startSum k (b + 1) - o)) 0
  formPair (roundHalfEven o 4) (roundHalfEven (256 * t) 21845) ((s.engine c e).rhoLast col seg kind)
    (Config.measured (k + 9)) s.ns

/-- A column's lane fails calibration: the previous pair stays (R118). -/
def State.calFail (s : State) (c e col : Nat) : State :=
  let s := s.flag F.RST_STATUS_CAL_FAIL c
  let s := s.logRate 1000000 c { code := 0x0504, context := s.ctxOf c, core := c, engine := e, argA := col }
  let u := unitLane c e (col / 4)
  if s.unit u = 1 then s.confirm u 0x08 else s.suspect u 0x08

/-- Form the pairs of one segment at the end of a regular or a start-up pass. -/
def State.formPass (s : State) (c e seg : Nat) (startup : Bool) : State :=
  let n := s.free
  let res := (List.range 1344).flatMap (fun col => (List.range 3).map (fun kind =>
    (col, kind, if startup then s.startPair c e n col seg kind else s.passPair c e n col seg kind)))
  let good := res.filterMap (fun (x : Nat × Nat × Option CalPair) => x.2.2.map (fun p => (calKey x.1 seg x.2.1, p)))
  let badCols := ((res.filter (fun (x : Nat × Nat × Option CalPair) => x.2.2.isNone)).map (fun x => x.1)).dedup
  let g := s.engine c e
  let s := s.setEngine c e { g with calNew := good.foldl (fun t p => Tab.set t p.1 p.2) g.calNew }
  let s := s.draw (1344 * (if startup then 30 else 15))
  let s := badCols.foldl (fun s col => s.calFail c e col) s
  (List.range 336).foldl (fun s l =>
    if badCols.any (fun col => col / 4 == l) then s else s.cleanWindow (unitLane c e l)) s

/-- CAL_PASS_DONE (R118): every setting has run 16 cycles in both configurations. -/
def execCalPassDone (c e seg : Nat) (s : State) : Res :=
  let g := s.engine c e
  let full := (List.range 10).all (fun k => decide (16 ≤ Tab.getD g.calCycles (seg * 16 + k) 0))
  if !(s.calEngines c).contains e || decide (2 ≤ seg) || !full then .next s
  else
    let s := s.setEngine c e { g with
      calCycles := g.calCycles.filter (fun p => p.1 / 16 != seg), calAsked := false }
    let s := s.formPass c e seg false
    let s := s.count C.RST_CNT_CALPASS c
    .next (s.calRise c e)

/-- The 64 reference cycles of a start-up pass in both configurations of both segments: the reference columns'
new corrections serve them. -/
def State.startupRefs (s : State) (c e : Nat) : State :=
  let g := s.engine c e
  let n := s.free
  let g' := (List.range 256).foldl (fun g k =>
    s.refCycle c e g (k / 128) (k % 2 == 1) (refRows (k / 128) (k / 2 % 2 == 1)) (n + 64 * k)) g.takeCal
  (s.setEngine c e { g with refs := g'.refs, rhoNew := g'.rhoNew.foldl (fun t p => Tab.set t p.1 p.2) g.rhoNew }).draw 16384

/-- A start-up pass on one engine (R117): the trial bit weights of each converter lane for each segment and half,
and pairs and cell factors of both segments. -/
def State.startupEngine (s : State) (c e : Nat) : State :=
  let n := s.free
  let g := s.engine c e
  let g := { g with bitWeights := (List.range 1344).map (fun k =>
      (k, (List.range 8).map (fun b => Config.measured (n + k * 8 + b)))) }
  let s := (s.setEngine c e g).draw 10752
  let s := (s.formPass c e 0 true).formPass c e 1 true
  (s.startupRefs c e).calRise c e

/-- STARTUP_PASS (R117): while the core is stopped. -/
def execStartupPass (c : Nat) (s : State) : Res :=
  if s.fget F.CORE_STATUS_STATE c != 1 then .next s
  else .next ((s.calEngines c).foldl (fun s e => s.startupEngine c e) s)

/-- CAL_VALID_EXPIRY (R119). -/
def execCalValidExpiry (c e : Nat) (s : State) : Res :=
  if s.calCurrent c e then .next s else .next (s.calFall c e)

/-- RST_CAL_PASS (R133): a regular pass on every engine in service at the next opportunities. -/
def execRstCalPass (c : Nat) (s : State) : Res :=
  if s.retired c then .next s
  else .next ((s.inService c).foldl (fun s e => s.setEngine c e { s.engine c e with calAsked := true }) s)

/-! ### Spares (R124) -/

/-- The spares that a plan has: those of the reference groups, and under S4 the slice columns
that it leaves unused. -/
def sparesOf (plan : Nat) : List Nat := if plan = 2 then List.range 64 else List.range 32

/-- The spare that a substitution takes: the free spare of the column's own group, else the
lowest-numbered free one. -/
def State.pickSpare (s : State) (c e col : Nat) : Option Nat :=
  let free (sp : Nat) : Bool := s.fget F.RST_SPARE_DATA_STATE (spareInst c e sp) == 0
  if free (groupOf col) then some (groupOf col) else (sparesOf (s.plan c e)).find? free

/-- Substitute a spare for one slice column, unless one already stands or fills in for it. -/
def State.substitute (s : State) (c e col : Nat) : State :=
  let used := planCols (s.plan c e) * planSlices (s.plan c e)
  if used ≤ col || (s.spareFor c e col).isSome
      || (List.range 64).any (fun sp => s.spareTarget c e sp == some col) then s
  else
    match s.pickSpare c e col with
    | none =>
      let s := s.flag F.RST_STATUS_SPARE_EXHAUSTED c
      let s := s.log { code := 0x0506, core := c, engine := e, argA := col }
      s.retire (unitEngine c e) 0x08
    | some sp =>
      let i := spareInst c e sp
      let s := s.fset F.RST_SPARE_DATA_TARGET i col
      let s := s.fset F.RST_SPARE_DATA_STATE i 1
      let r := s.restorer c
      let n := r.sweeps + (if r.sweeping then 2 else 1)
      s.setRst c { r with subSweep := Tab.set r.subSweep (e * 64 + sp) n }

/-- SPARE_SUBSTITUTE (R124): a slice column, and with a failed converter lane each of that lane's columns. -/
def execSpareSubstitute (c e col : Nat) (s : State) : Res :=
  .next ((if s.unit (unitLane c e (col / 4)) = 2 then rangeFrom (col / 4 * 4) 4 else [col]).foldl
    (fun s x => s.substitute c e x) s)

/-- Whether an engine stands between two vectors: none is part-way through its cycles. -/
def State.atVectorStart (s : State) (c e : Nat) : Bool :=
  (s.engine c e).run.all (fun v => v.issued == 0)

/-- SPARE_ACTIVATE (R124): once a complete sweep has passed since the substitution began, at a vector start. -/
def execSpareActivate (c e sp : Nat) (s : State) : Res :=
  let i := spareInst c e sp
  let r := s.restorer c
  if s.fget F.RST_SPARE_DATA_STATE i != 1 || decide (r.sweeps < Tab.getD r.subSweep (e * 64 + sp) 1)
      || !s.atVectorStart c e then .next s
  else
    let col := s.fget F.RST_SPARE_DATA_TARGET i
    let s := s.fset F.RST_SPARE_DATA_STATE i 2
    let s := s.setRst c { r with subSweep := Tab.erase r.subSweep (e * 64 + sp) }
    let s := s.log { code := 0x0505, core := c, engine := e, argA := col }
    .next (s.unitFault (unitLane c e (col / 4)) 0x08 32)

/-! ### Cells leaving service (R108, R25) -/

/-- The cells of a core hold level 0 and none of its engines is in service. -/
def State.zeroCore (s : State) (c : Nat) : State :=
  (List.range 36).foldl (fun s e =>
    let s := s.setEngine c e .empty
    s.fset F.ENG_STATUS_CAL_VALID (eng c e) 0) s

/-- The reference columns of an engine hold their full pattern, every other cell level 0 (R381 step 3). -/
def Engine.refOnly (g : Engine) : Engine :=
  { g with cells := (List.range 2048).flatMap (fun row => (List.range 32).filterMap (fun k =>
      if refLevel k row = 0 then none else some (row * 1344 + (1280 + k), refLevel k row))) }

/-- A core's cells are held at their bleed bias (R381 steps 3 and 4). -/
def State.beginBleed (s : State) (c fails ctx : Nat) : State :=
  let s := (List.range 32).foldl (fun s e => s.setEngine c e (s.engine c e).refOnly) s
  let s := { s with keep := { s.keep with bleed := Tab.set s.keep.bleed c ⟨s.ns, fails, ctx⟩ } }
  s.fset F.KEEP_CORE_DATA_DECAY c 1

/-! ### Passports (R131, R132) -/

/-- A free byte of a passport: field `k` of the record of a segment-column. -/
def passByte (draw col seg k : Nat) : Nat := Config.measured (draw + (2 * col + seg) * 8 + k) % 256

/-- The noise class: the least n for which every slice and spare segment-column in use keeps
within (0.2 + 0.025 n) LSB. -/
def noiseClass (draw : Nat) (cols : List Nat) : Option Nat :=
  (List.range 9).find? (fun n => cols.all (fun col => (List.range 2).all (fun seg =>
    [0, 6, 7].all (fun k => decide (passByte draw col seg k * 10 ≤ 512 + 64 * n)))))

/-- The slice and spare columns of an engine in use. -/
def State.colsInUse (s : State) (c e : Nat) : List Nat :=
  (List.range (planCols (s.plan c e) * planSlices (s.plan c e))).map (s.physical c e)

/-- A byte of a passport record as the number it holds: OFS_RES and GAIN_RES are signed. -/
def passValue (draw col seg k : Nat) : Int :=
  if k = 1 || k = 2 then sext 8 (passByte draw col seg k) else (passByte draw col seg k : Int)

/-- Whether any byte of any record differs by more than 16 units between two draws. -/
def passMoved (a b : Nat) : Bool :=
  (List.range 1344).any (fun col => (List.range 2).any (fun seg => [0, 1, 2, 3, 4, 6, 7].any (fun k =>
    decide (16 < (passValue a col seg k - passValue b col seg k).natAbs))))

/-- FLAGS of a physical column of an engine (Table 5.5). -/
def State.passFlags (s : State) (c e col : Nat) : Nat :=
  let spare := (List.range 64).any (fun sp => spareColumn sp == col
    && s.fget F.RST_SPARE_DATA_STATE (spareInst c e sp) == 2)
  let retired := s.unit (unitLane c e (col / 4)) == 2
  ofBool spare + 2 * ofBool retired + 4 * ofBool (decide (1280 ≤ col) && decide (col < 1312))

/-- Snapshot an engine's noise passport.  REVISION rises with a class other than that of the last revision, or with
a byte that has moved since then, and at most once per second; CLASS is 8 where no class fits, which the spec leaves
open (R132, log entry 118). -/
def State.snapEngine (s : State) (c e : Nat) : State :=
  let d := s.free
  let s := s.draw 21504
  let g := s.engine c e
  let cls := noiseClass d (s.colsInUse c e)
  let s := if cls.isNone then s.suspect (unitEngine c e) 0x08 else s
  let k := cls.getD 8
  let tj : Int := sext 16 (s.fget F.GLB_THM_DATA_TJ c)
  let p : Passport := match g.passport with
    | none => ⟨k, 0, s.plan c e, tj, (s.restorer c).sweeps, d, (List.range 1344).map (s.passFlags c e), d, k⟩
    | some q =>
      let due := decide (g.revisedAt + 1000000000 ≤ s.ns) && (q.revCls != k || passMoved q.revDraw d)
      ⟨k, if due then q.revision + 1 else q.revision, s.plan c e, tj, (s.restorer c).sweeps, d,
       (List.range 1344).map (s.passFlags c e), if due then d else q.revDraw, if due then k else q.revCls⟩
  let old := g.passport.elim 0 (fun q => q.revision)
  let g := s.engine c e
  s.setEngine c e { g with passport := some p, revisedAt := if p.revision = old then g.revisedAt else s.ns }

/-- PASSPORT_SNAP (R131): every engine in service. -/
def execPassportSnap (c : Nat) (s : State) : Res :=
  if s.retired c then .next s
  else .next ((s.inService c).foldl (fun s e => s.snapEngine c e) s)

/-- The 21,568 bytes of a snapshot (Tables 5.4 and 5.5). -/
def State.passportBytes (s : State) (c e : Nat) (p : Passport) : List Nat :=
  bytesOf 2 1 ++ bytesOf 2 p.cls ++ bytesOf 4 p.revision ++ bytesOf 8 (Config.nonVolatile 0 0)
    ++ [c, e, p.plan, 0] ++ bytesOf 2 (toBits 16 p.tj) ++ [0, 0] ++ bytesOf 8 p.sweeps ++ bytesOf 32 0
    ++ (List.range 1344).flatMap (fun col => (List.range 2).flatMap (fun seg =>
      let b (k : Nat) : Nat := passByte p.draw col seg k
      [b 0, b 1, b 2, b 3, b 4, p.flags.getD col 0, b 6, b 7]))

/-- RST_COMMIT (R133). -/
def execRstCommit (c : Nat) (s : State) : Res :=
  let lo := s.staging F.RST_PERIOD_LIM_MIN_US c
  let hi := s.staging F.RST_PERIOD_LIM_MAX_US c
  if s.retired c then .next s
  else if 1000 ≤ lo && lo ≤ hi && hi ≤ 8000 && lo % 250 == 0 && hi % 250 == 0 then
    .next (s.applyAll [(F.RST_PERIOD_LIM_MIN_US, c), (F.RST_PERIOD_LIM_MAX_US, c)])
  else .next ((s.flag F.RST_STATUS_LIM_INVALID c).log { code := 0x0508, core := c })

end Sys2Proof.Machine
end

