-- ==== Sys2Proof/Machine/CoreCtl.lean ====
section
/-! DEFINITION. Core control (R139 to R146, R150, R155 to R163): start, stop, halt and step, the
cadence slot, drains with their shadow samples, scratch upkeep, core SRAM errors, spill
fetches and debug mode. -/

namespace Sys2Proof.Machine

/-! ### The receive area and input vectors (R136, R158, R343, R464) -/

/-- Output columns of a core's tile. -/
def State.tileSize (s : State) (c : Nat) : Nat :=
  (s.heads c).foldl (fun n h => n + planCols (s.plan c h)) 0

/-- The first byte of the running statistics records (R343). -/
def State.statBase (s : State) (c : Nat) : Nat := sramSize - 32 * s.tileSize c

/-- The first byte of the 64 KiB area for fabric receive and entry-hold queues, directly below the
statistics records. -/
def State.rxBase (s : State) (c : Nat) : Nat := s.statBase c - 65536

/-- A place for `n` bytes in the receive area: the receive path takes the next 64 B boundary and
wraps at the area's end (R464 leaves the place open). -/
def State.rxPlace (s : State) (c n : Nat) : Nat × State :=
  let k := s.core c
  let o := if 65536 < k.rxNext + n then 0 else k.rxNext
  (s.rxBase c + o, s.setCore c { k with rxNext := (o + ceilDiv n 64 * 64) % 65536 })

/-- Bytes from bit position `e * w` on of a vector's bytes, for elements `lo` to `hi - 1` of width
`w` bits. -/
def elemBytes (b : List Nat) (lo hi w : Nat) : List Nat :=
  let n := leAt b 0 b.length
  bytesOf (ceilDiv ((hi - lo) * w) 8) (bits n (lo * w) ((hi - lo) * w))

/-- The format in which a stage takes its input: that of the first ISSUE in its programs whose operand stands at A1
(R464). -/
def State.inFmt (s : State) (c : Nat) : Nat :=
  ((s.peers c).findSome? (fun d => ((s.seq d).pm.find? (fun p => insOp p.2 == 0x05 && insAs p.2 == 1)).map
    (fun p => (issueOp p.2).fmt))).getD 0

/-- Put an input vector into a core: its share of the elements lies at `addr` (R136, R166).  What the bytes hold beyond
the last element is 0 (R70, R72). -/
def State.landVec (s : State) (c : Nat) (v : VecIn) (entry : Bool) (elems : Nat) : State :=
  let w := fmtBits (s.inFmt c)
  let v := { v with full := bytesOf (ceilDiv (elems * w) 8) (leAt v.full 0 v.full.length % 2 ^ (elems * w)) }
  let (lo, hi) := s.kPartOf c
  let hi := if hi ≤ lo then elems else Nat.min hi elems
  let data := if entry then v.full else elemBytes v.full lo hi w
  let (a, s) := s.rxPlace c data.length
  let s := s.sramWrite c a data
  let v := { v with addr := if entry then a + lo * w / 8 else a, bytes := elemBytes v.full lo hi w, landed := true }
  let k := s.core c
  let old := k.vins.any (fun x => x.lane == v.lane && x.item == v.item && x.index == v.index)
  s.setCore c { k with vins :=
    if old then k.vins.map (fun x => if x.lane = v.lane ∧ x.item = v.item ∧ x.index = v.index then v else x)
    else k.vins ++ [v] }

/-- The entry core sends every other core of the stage its K part (R136). -/
def State.sendKParts (s : State) (c : Nat) (v : VecIn) : State :=
  match s.stageOf c with
  | none => s
  | some (m, r) =>
    let e := s.sendEpoch c m r
    (r.placed.filter (fun d => d != c)).foldl (fun s d => s.postHeld { Packet.empty with
      typ := .kpart, src := c, dst := d, context := m.context, model := m.id, stage := r.stage
      epoch := e, lane := v.lane, item := v.item, vseq := v.index, payload := v.full }) s

/-- Forget what the cores of a stage have done with a vector: its contribution is discarded, and
the tiles it ran in begin again. -/
def State.dropVec (s : State) (c : Nat) (lane item index : Nat) : State :=
  let is (w : Option EngVec) : Bool := match w with
    | some w => w.lane == lane && w.item == item && w.index == index
    | none => false
  let s := (List.range 2).foldl (fun s t =>
    let x := s.tile c t
    if x.drain.elim false (fun q => q.lane == lane && q.item == item && q.vec == index && q.thr == 0) then
      s.setTile c t { x with drain := none }
    else s) s
  (List.range 36).foldl (fun s e =>
    let g := s.engine c e
    if is g.run || is g.tree || is g.next then
      let t := ((if is g.run then g.run else if is g.tree then g.tree else g.next).map (fun w => w.tile)).getD 0
      -- row writes that the vector had taken stay due
      let back := [g.run, g.tree, g.next].flatMap (fun v => if is v then v.elim [] (fun w => w.writes) else [])
      let s := s.setEngine c e { g with
        run := if is g.run then none else g.run
        tree := if is g.tree then none else g.tree
        next := if is g.next then none else g.next }
      let k := s.core c
      let s := s.setCore c { k with scrQueue := back ++ k.scrQueue }
      if is g.run || is g.tree then s.beginTile c t (s.tile c t).desc false 0 35 else s
    else s) s

/-- Replay a vector of a stage from the input that its entry core holds (R138, R157, R195). -/
def State.replayVec (s : State) (c : Nat) (lane item index : Nat) : State :=
  let ps := s.peers c
  let entry := match s.stageOf c with
    | none => c
    | some (_, r) => r.entry
  let mine (x : VecIn) : Bool := x.lane == lane && x.item == item && x.index == index
  let s := ps.foldl (fun s d =>
    let s := s.dropVec d lane item index
    let q := s.seq d
    let s := s.setSeq d { q with
      vec := if q.vec.entry == .vec && q.vec.lane == lane && q.vec.item == item && q.vec.index == index
        then Thread.empty else q.vec }
    let k := s.core d
    s.setCore d { k with vins := k.vins.map (fun x => if mine x then
      { x with landed := d == entry, taken := false, staged := false, begun := false, ended := false, acked := false }
      else x) }) s
  let s := { s with items := Tab.mapv s.items (fun _ (x : ItemCtx) =>
    if x.lane = lane ∧ x.item = item then { x with faults := x.faults + 1 } else x) }
  match (s.core entry).vins.find? mine with
  | none => s
  | some v => s.sendKParts entry v

/-- Replay every vector of a core that has not ended (R187). -/
def State.replayAll (s : State) (c : Nat) : State :=
  ((s.core c).vins.filter (fun v => !v.ended)).foldl (fun s v => s.replayVec c v.lane v.item v.index) s

/-! ### Starting and stopping (R139 to R141) -/

/-- The active cadence bank of a core. -/
def State.activeBank (s : State) (c : Nat) : Tab Nat :=
  if s.fon F.CORE_CAD_STATUS_BANK c then (s.core c).bank1 else (s.core c).bank0

/-- The inactive cadence bank of a core. -/
def State.otherBank (s : State) (c : Nat) : Tab Nat :=
  if s.fon F.CORE_CAD_STATUS_BANK c then (s.core c).bank0 else (s.core c).bank1

/-- Replace the inactive cadence bank. -/
def State.setOtherBank (s : State) (c : Nat) (b : Tab Nat) : State :=
  let k := s.core c
  s.setCore c (if s.fon F.CORE_CAD_STATUS_BANK c then { k with bank0 := b } else { k with bank1 := b })

/-- The kind of a cadence entry: 0 free, 1 lane, 2 glade (Table 6.3). -/
def entryKind (v : Nat) : Nat := bits v 6 2

/-- The glade rule (R144). -/
def gladeRule (bank : Tab Nat) (len : Nat) : Bool :=
  if len < 100 then (List.range len).any (fun i => entryKind (Tab.getD bank i 0) == 2)
  else (List.range len).all (fun i => (List.range 100).any (fun j => entryKind (Tab.getD bank ((i + j) % len) 0) == 2))

/-- Whether every engine of a core that the restorer calibrates has CAL_VALID (R55, R140, R151). -/
def State.allCalibrated (s : State) (c : Nat) : Bool :=
  (s.calEngines c).all (fun e => s.fon F.ENG_STATUS_CAL_VALID (eng c e))

/-- The first failing condition of a START, 0 when it may go ahead (R140). -/
def State.startReason (s : State) (c : Nat) : Nat :=
  if s.fget F.CORE_STATUS_STATE c != 1 then 6
  else if !s.fon F.SEQ_STATUS_LOADED c then 1
  else if !s.allCalibrated c then 2
  else if !gladeRule (s.activeBank c) (s.fget F.CORE_CAD_CFG_LEN c) then 3
  else if (s.inService c).any (fun e => !(s.engine c e).written) then 4
  else if (s.lookoutOf c).isSome || (s.core c).place.isNone then 5
  else 0

/-- Level 0 in every row of a core's scratch engines (R150). -/
def State.zeroScratch (s : State) (c : Nat) : State :=
  let s := [32, 33, 34, 35].foldl (fun s e => s.setEngine c e (s.engine c e).refOnly) s
  s.setCore c { s.core c with scrQueue := [], scrTime := [], scrZeroed := [] }

/-- What a start does once it is allowed (R89, R92, R140, R164, R166): INIT runs first. -/
def State.beginCore (s : State) (c : Nat) : State :=
  let s := s.fset F.CORE_STATUS_STATE c 2
  let s := s.fset F.CORE_STATUS_DEBUG c 0
  let s := s.fset F.CORE_CAD_STATUS_POS c 0
  let s := s.fset F.SEQ_STATUS_INIT_DONE c 0
  let s := s.zeroScratch c
  let k := s.core c
  let s := s.setCore c { k with req := .none, fresh := true, lastTile := [], glades := 0, check := false }
  let q := s.seq c
  let s := s.setSeq c { q with joined := false, regs := [], due := [], vec := .empty, itm := { Thread.empty with entry := .init } }
  let fix := s.fon F.CORE_EPI_CFG_SEED_FIX c && !s.conf (s.ctxOf c)
  let s := if fix then s else
    (s.fset F.CORE_EPI_SEED_BASE_SEED_BASE c (Config.random s.free)).draw 1
  let s := s.fset F.CORE_EPI_TILE_USE_T c 0
  (s.beginTile c 0 (some q.begin0) false 0 35).beginTile c 1 (some q.begin1) false 0 35

/-- Whether a start of a core must wait for its seed: the Keep restarts (R89, R403). -/
def State.seedWaits (s : State) (c : Nat) : Bool :=
  s.fget F.KEEP_STATUS_STATE 0 == 0 && !(s.fon F.CORE_EPI_CFG_SEED_FIX c && !s.conf (s.ctxOf c))

/-- A START under R140. -/
def State.coreStart (s : State) (c : Nat) : State :=
  if s.retired c then s
  else
    let r := s.startReason c
    if r = 0 then
      (if s.seedWaits c then { s with keep := { s.keep with starts := s.keep.starts.filter (fun d => d != c) ++ [c] } }
       else s.beginCore c)
    else
      let s := s.flag F.CORE_STATUS_START_REFUSED c
      let s := s.fset F.CORE_STATUS_REASON c r
      s.log { code := 0x0602, context := s.ctxOf c, core := c, argA := r }

/-- CORE_START. -/
def execCoreStart (c : Nat) (s : State) : Res := .next (s.coreStart c)

/-- Whether the core's stage serves an admitted lane that is not suspended; admitting and
releasing lanes count (R141). -/
def State.serves (s : State) (c : Nat) : Bool :=
  match s.stageOf c with
  | none => false
  | some (m, r) => (s.lanesOf m.context m.id r.stage).any (fun l => s.laneState l != 3)

/-- A STOP or HALT under R141.  One that follows an accepted one before the boundary takes its place, which the spec
leaves open (log entry 121). -/
def State.coreAsk (s : State) (c : Nat) (req : CoreReq) : State :=
  let st := s.fget F.CORE_STATUS_STATE c
  if s.retired c || !(st == 2 || (st == 3 && req == .stop)) then s
  else if s.serves c then
    (s.flag F.CORE_STATUS_HALT_REFUSED c).log { code := 0x0603, context := s.ctxOf c, core := c }
  else s.setCore c { s.core c with req := req }

/-- CORE_STOP. -/
def execCoreStop (c : Nat) (s : State) : Res := .next (s.coreAsk c .stop)

/-- CORE_HALT. -/
def execCoreHalt (c : Nat) (s : State) : Res := .next (s.coreAsk c .halt)

/-- A RESUME of a halted core, which ends debug mode (R141, R161).  An engine without CAL_VALID does not leave the
stopped state that a halted core's engines report, so the core stays halted (R55, R139, log entry 121). -/
def State.coreResume (s : State) (c : Nat) : State :=
  if s.fget F.CORE_STATUS_STATE c != 3 || !s.allCalibrated c then s
  else
    let s := s.fset F.CORE_STATUS_STATE c 2
    let s := s.fset F.CORE_STATUS_DEBUG c 0
    s.setCore c { s.core c with req := .none }

/-- CORE_RESUME. -/
def execCoreResume (c : Nat) (s : State) : Res := .next (s.coreResume c)

/-- A STEP of a halted core: it may begin the vectors of one lane slot (R141). -/
def State.coreStep (s : State) (c : Nat) : State :=
  if s.fget F.CORE_STATUS_STATE c != 3 then s
  else s.setCore c { s.core c with req := .stepping }

/-- CORE_STEP. -/
def execCoreStep (c : Nat) (s : State) : Res := .next (s.coreStep c)

/-- Whether every vector begun in the core has drained (R141). -/
def State.atBoundary (s : State) (c : Nat) : Bool :=
  (List.range 36).all (fun e =>
    let g := s.engine c e
    g.run.isNone && g.tree.isNone && (g.next.elim true (fun v => !v.begun)))
  && (List.range 2).all (fun t => (s.tile c t).issuedPass.isEmpty)

/-- CORE_VECTOR_BOUNDARY (R141): an accepted STOP or HALT takes effect. -/
def execCoreVectorBoundary (c : Nat) (s : State) : Res :=
  let k := s.core c
  if !s.atBoundary c then .next s
  else
    match k.req with
    | .stop => .next ((s.fset F.CORE_STATUS_STATE c 1).setCore c { k with req := .none })
    | .halt => .next ((s.fset F.CORE_STATUS_STATE c 3).setCore c { k with req := .none })
    | _ => .next s

/-! ### Cadence slots (R137, R143) -/

/-- Whether a core may begin a vector in the slot that starts. -/
def State.mayBegin (s : State) (c : Nat) : Bool :=
  let k := s.core c
  (s.fget F.CORE_STATUS_STATE c == 2 && k.req == .none)
    || (s.fget F.CORE_STATUS_STATE c == 3 && k.req == .stepping)

/-- Whether slots of a core run: it is running or halted, and INIT has ended. -/
def State.slotsRun (s : State) (c : Nat) : Bool := s.coreLocked c && s.fon F.SEQ_STATUS_INIT_DONE c

/-- The oldest eligible vector of a lane: staged in every core of the stage and not begun. -/
def State.eligible (s : State) (ps : List Nat) (l : Nat) : Option VecIn :=
  match ps with
  | [] => none
  | c :: _ => (s.core c).vins.find? (fun v => v.lane == l && !v.begun && ps.all (fun d =>
      (s.core d).vins.any (fun x => x.lane == l && x.item == v.item && x.index == v.index && x.staged && !x.begun)))

/-- Whether an engine's second staging buffer holds a vector. -/
def heldVec (g : Engine) (v : VecIn) : Bool :=
  match g.next with
  | none => false
  | some w => w.lane == v.lane && w.item == v.item && w.index == v.index && !w.begun

/-- An idle slot or glade window for one engine: its slip returns towards 0, or the running vector
passes another slot (R49). -/
def State.idleSlot (s : State) (c e : Nat) : State :=
  let g := s.engine c e
  match g.run with
  | some _ => s.setEngine c e { g with idle := g.idle + 1 }
  | none =>
    let i := eng c e
    s.fset F.ENG_SLIP_SLIP_CYC i (s.fget F.ENG_SLIP_SLIP_CYC i - s.fget F.CORE_CAD_CFG_SLOT_PLANES c)

/-- A vector that drives a scratch row zeroed under R150, and not written again for it, counts the row once. -/
def State.staleRows (s : State) (c e : Nat) (inputs : Tab Nat) (exact : List Nat) : State :=
  if e < 32 then s
  else
    let k := s.core c
    let hit := k.scrZeroed.filter (fun r => r / 2048 == e - 32 && (Tab.find inputs (r % 2048)).isSome
      && !exact.contains (r % 2048))
    if hit.isEmpty then s
    else
      let s := s.setCore c { k with scrZeroed := k.scrZeroed.filter (fun r => !hit.contains r) }
      let s := s.countN C.CORE_CNT_SCRSTALE c hit.length
      let z := s.fget F.CORE_SCR_STATUS_ZEROED c
      let s := s.fset F.CORE_SCR_STATUS_ZEROED c (z ||| 2 ^ (e - 32))
      s.logRate 1000000 c { code := 0x0606, core := c, engine := e }

/-- Of the row writes queued for a scratch engine before a vector, those that fall within the vector's cycles are
taken for it, four to a cycle: they are made in its write windows, and the rows are injected through the whole
vector.  The others wait (R149). -/
def State.takeWrites (s : State) (c e : Nat) (w : EngVec) : EngVec × State :=
  if e < 32 then (w, s)
  else
    let k := s.core c
    let mine := (k.scrQueue.filter (fun x => x.se + 32 == e && decide (x.num < w.mark))).take (4 * s.planesLeft c e w 0)
    ({ w with writes := mine, exact := mine.map (fun x => x.row) },
     s.setCore c { k with scrQueue := k.scrQueue.filter (fun x => !mine.contains x) })

/-- Begin an engine's staged vector in the slot that starts (R81, R88, R119, R137). -/
def State.beginVec (s : State) (c e : Nat) : State :=
  let g := s.engine c e
  match g.next with
  | none => s
  | some w =>
    let h := s.headOf c e
    let x := s.tile c w.tile
    let n := Tab.getD x.issuedPass h 0
    let (w, s) := s.takeWrites c e { w with begun := true, pass := n }
    let s := s.staleRows c e w.inputs w.exact
    let s := s.setTile c w.tile { x with
      issuedPass := Tab.set x.issuedPass h (n + 1), eout := w.eout
      passes := if x.picked.isSome then x.passes ++ [(e, w)] else x.passes }
    let s := s.setEngine c e { g.takeCal with next := some w }
    (s.calRise c e).advance c e

/-- A lane slot begins a vector in every core of the stage.  A STEP is used up by the first slot that begins one, which
the spec leaves open (R141, log entry 121). -/
def State.beginSlot (s : State) (ps : List Nat) (v : VecIn) : State :=
  ps.foldl (fun s c =>
    let s := (List.range 36).foldl (fun s e =>
      if heldVec (s.engine c e) v then s.beginVec c e else s.idleSlot c e) s
    let k := s.core c
    let s := s.setCore c { k with
      vins := k.vins.map (fun x => if x.lane = v.lane ∧ x.item = v.item ∧ x.index = v.index
        then { x with begun := true } else x)
      req := if k.req = .stepping then .halt else k.req }
    s.count C.CORE_CNT_SLOT_LANE c) s

/-- Count the wait of vectors whose tile still drains, once each (R94). -/
def State.countWaits (s : State) (ps : List Nat) (v : VecIn) : State :=
  ps.foldl (fun s c =>
    let es := (List.range 36).filter (fun e => heldVec (s.engine c e) v
      && ((s.engine c e).next.elim false (fun w => w.waits && !w.counted)))
    if es.isEmpty then s
    else
      let s := es.foldl (fun s e =>
        let g := s.engine c e
        s.setEngine c e { g with next := g.next.map (fun w => { w with counted := true }) }) s
      (s.count C.CORE_EPI_CNT_TWAIT c).log { code := 0x0405, core := c }) s

/-- A glade window passes in a core: the odd ones belong to the checks (R335). -/
def State.glade (s : State) (c : Nat) : State :=
  let k := s.core c
  (s.setCore c { k with glades := k.glades + 1, check := k.glades % 2 == 1 }).count C.CORE_CNT_GLADE c

/-- Idle slots in every core of the stage. -/
def State.idleAll (s : State) (ps : List Nat) (glade : Bool) : State :=
  ps.foldl (fun s c =>
    let s := (List.range 36).foldl (fun s e => s.idleSlot c e) s
    if glade then s.glade c else s.count C.CORE_CNT_SLOT_IDLE c) s

/-- The position of the slot that starts. -/
def State.nextPos (s : State) (c : Nat) : Nat :=
  if (s.core c).fresh then 0
  else (s.fget F.CORE_CAD_STATUS_POS c + 1) % max 1 (s.fget F.CORE_CAD_CFG_LEN c)

/-- CADENCE_SLOT (R143) in the stage of a core.  The first slot of a table cycle waits for a bank
switch that is pending (R145). -/
def execCadenceSlot (c : Nat) (s : State) : Res :=
  let ps := s.peers c
  let p := s.nextPos c
  if !ps.all s.slotsRun || (p == 0 && s.fon F.CORE_CAD_STATUS_SWITCH_PENDING c) then .next s
  else
    let s := ps.foldl (fun s d => (s.fset F.CORE_CAD_STATUS_POS d p).setCore d { s.core d with fresh := false, check := false }) s
    let ent := Tab.getD (s.activeBank c) p 0
    if entryKind ent = 1 && ps.all s.mayBegin then
      match s.eligible ps (ent % 64) with
      | none => .next (s.idleAll ps false)
      | some v =>
        let waits := ps.any (fun d => (List.range 36).any (fun e => heldVec (s.engine d e) v
          && ((s.engine d e).next.elim false (fun w => w.waits))))
        if waits then .next ((s.countWaits ps v).idleAll ps false) else .next (s.beginSlot ps v)
    else .next (s.idleAll ps (entryKind ent == 2))

/-! ### Drains and shadow samples (R86, R94, R95, R337) -/

/-- The cores whose groups a core's drain adds: the rest of its K chain, for the N exit. -/
def State.chainOthers (s : State) (c : Nat) : List Nat :=
  match s.stageOf c with
  | none => []
  | some (_, r) =>
    let p := s.posOf c
    if r.isExit p then (r.placed.zipIdx.filter (fun (x : Nat × Nat) =>
      r.nPart x.2 == r.nPart p && x.2 != p)).map (fun (x : Nat × Nat) => x.1) else []

/-- Whether a drain request of a tile may run: nothing is in flight, and every group of the chain
has landed (R86, R94). -/
def State.drainReady (s : State) (c t : Nat) (q : DrainReq) : Bool :=
  !s.inFlight c t && (q.group || (s.chainOthers c).all (fun d => (s.tile c t).got.contains d))

/-- The sample of a picked tile use goes to its Lookout, or is skipped where the queue of 8 is
full (R337). -/
def State.sendSample (s : State) (c t : Nat) (q : DrainReq) : State :=
  let x := s.tile c t
  match x.picked, x.passes with
  | some k, p :: r =>
    if 8 ≤ (s.rel.samples.filter (fun m => m.lookout == k)).length then s.count C.REL_CNT_SKIP 0
    else
      let cols := s.drainCols c q.first q.last
      let vals := cols.foldl (fun m y => Tab.set m (colKey y.1 y.2.1) (s.colValue c t (colKey y.1 y.2.1)).1) []
      let uncal := (p :: r).any (fun y => !s.fon F.ENG_STATUS_CAL_VALID (eng c y.1))
      let m : Sample := ⟨k, c, t, p :: r, x.seed, x.shift, x.start, x.groupsIn, vals,
        !x.clips.isEmpty || uncal || cols.any (fun y => (s.colValue c t (colKey y.1 y.2.1)).2), p.2.lane, p.2.item, []⟩
      let s := s.count C.REL_CNT_SAMPLE 0
      { s with rel := { s.rel with samples := s.rel.samples ++ [m] } }
  | _, _ => s

/-- The pick of a tile use that begins: one in SAMPLE_EVERY of the uses that begin with PRELOAD or
ZERO on stationary chains, while a Lookout mirrors the core (R337).  The draw is a free value. -/
def State.pickUse (s : State) (c t : Nat) (q : DrainReq) : State :=
  let keep := !q.nextZero && (s.desc c q.next).begin == 2
  let ks := (List.range 2).filter (fun k => (s.mirroring k).elim false (fun p => p.2 == c))
  match ks with
  | [] => s
  | k :: _ =>
    let x := s.tile c t
    if keep || x.fallback.isSome || decide (32 ≤ q.last) then s
    else
      let n := Config.random s.free
      let s := s.draw 1
      if n % max 1 (s.fget F.REL_SHADOW_CFG_SAMPLE_EVERY 0) = 0 then
        s.setTile c t { x with picked := some k, start := x.acc, groupsIn := [], passes := [] }
      else s

/-- A thread goes on from a DRAIN whose sweep has run and whose output is in core SRAM (R94, log entry 117). -/
def State.wakeDrain (s : State) (c : Nat) (t : Thr) : State :=
  let x := s.thread c t
  let open' := (List.range 2).any (fun k =>
    let y := s.tile c k
    y.drain.elim false (fun q => q.thr == threadNum t) || y.handed.any (fun h => h.req.thr == threadNum t))
  if x.draining && !open' then s.next c t else s

/-- Both threads go on where their drains have ended. -/
def State.wakeDrains (s : State) (c : Nat) : State := (s.wakeDrain c .vec).wakeDrain c .itm

/-! ### Registers (R162) -/

/-- CAD_CFG_WRITE (R162). -/
def execCadCfgWrite (c v : Nat) (s : State) : Res :=
  let len := bits v 0 13
  let sp := bits v 16 4
  if s.retired c then .next s
  else if s.coreLocked c then
    .next ((s.flag F.CORE_STATUS_REFUSED_WRITE c).log { code := 0x0601, context := s.ctxOf c, core := c })
  else if 4 ≤ len && len ≤ 4096 && 1 ≤ sp && sp ≤ 8 then
    .next ((s.fset F.CORE_CAD_CFG_LEN c len).fset F.CORE_CAD_CFG_SLOT_PLANES c sp)
  else .next ((s.flag F.CORE_STATUS_CFG_INVALID c).log { code := 0x0607, context := s.ctxOf c, core := c })

/-- The write of level 0 that a scratch row is due. -/
def State.upkeepOf (s : State) (c se row : Nat) : RowWrite :=
  { se := se, row := row, col0 := 0, values := [], num := (s.core c).scrNext, upkeep := true }

/-- SCRATCH_ROW_EXPIRE (R150): level 0 in a write window that the program leaves unused, at once where no vector runs
in the engine, else behind the writes that are queued. -/
def execScratchRowExpire (c se row : Nat) (s : State) : Res :=
  let e := 32 + se
  let k := s.core c
  let w := s.upkeepOf c se row
  match Tab.find k.scrTime (se * 2048 + row) with
  | none => .next s
  | some t =>
    if 4 ≤ se || 2048 ≤ row || decide (s.ns ≤ t + s.periodNs c)
        || k.scrQueue.any (fun x => x.se == se && x.row == row)
        || ((s.engine c e).run).elim false (fun v => v.writes.any (fun x => x.row == row)) then .next s
    else if (s.engine c e).run.isNone then .next (s.writeScratch c e w)
    else .next (s.setCore c { k with scrQueue := k.scrQueue ++ [w], scrNext := k.scrNext + 1 })

/-! ### Core SRAM errors (R156, R157) -/

/-- Record an SRAM error. -/
def State.sramErr (s : State) (c word : Nat) (ue : Bool) : State :=
  let s := s.fset F.CORE_SRAM_ERR_WORD c word
  let s := s.fset F.CORE_SRAM_ERR_UE c (ofBool ue)
  s.fset F.CORE_SRAM_ERR_VALID c 1

/-- Replay the vector of a core that an error affects: the one its VEC thread works on, else the oldest whose entry has been
taken and has not ended (log entry 122). -/
def State.replayAffected (s : State) (c : Nat) : State :=
  let x := (s.seq c).vec
  if x.entry = .vec then s.replayVec c x.lane x.item x.index
  else match (s.core c).vins.find? (fun v => v.taken && !v.ended) with
    | none => s
    | some v => s.replayVec c v.lane v.item v.index

/-- A context's copy of a CONSTANTS record of a stage, kept in DRAM (R157): address and bytes are
what the loader wrote into the buffer. -/
def State.reloadBuffer (s : State) (c : Nat) (b : Buffer) : State :=
  match b.init with
  | none => s
  | some a => s.sramWrite c b.base (s.pagedRead a b.size)

/-- Ask for an input vector again: the sending stage replays it from its own entry-held input; the first stage of a lane
reads it again from its source (R157, R249).  The peer that fed a Canopy lane holds the input no longer, and the item ends as
where a re-read fails (log entry 122). -/
def State.requestVec (s : State) (c : Nat) (v : VecIn) : State :=
  let k := s.core c
  let s := s.setCore c { k with vins := k.vins.map (fun x =>
    if x.lane = v.lane ∧ x.item = v.item ∧ x.index = v.index then { x with landed := false } else x) }
  match s.ctxOn v.item v.lane, s.stageOf c with
  | some (r, x), some (m, st) =>
    if (s.lane v.lane).first = st.stage then
      match x.origin with
      | none => s
      | some o =>
        if o.canopy then s.endItem r 0x64
        else
          let n := v.full.length
          let s := s.count C.HIF_CNT_REFETCH 0
          s.hostRead o.func (o.inAddr + v.index * n) n (.again r (v.index * n)) o.peer
    else
      match m.stages.find? (fun p => p.nextStage == st.stage && p.nextDevice == 255) with
      | none => s
      | some p => s.replayVec p.entry v.lane v.item v.index
  | _, _ => s

/-- A write of a load into a core has failed: the load is refused (R182 steps 7 and 8). -/
def State.loadFailed (s : State) (c : Nat) : State :=
  match s.stageOf c with
  | some (m, _) =>
    if m.state == .starting && m.waiter.isSome && m.failed.isNone then s.setModel { m with failed := some c } else s
  | none => s

/-- Where the receive area of a core holds a vector: the whole input in the entry core, its share in the others. -/
def State.heldAt (s : State) (c : Nat) (v : VecIn) (a : Nat) : Bool :=
  let entry := (s.stageOf c).elim false (fun (x : Model × StageRec) => x.2.entry == c)
  let base := if entry then v.addr - (s.kPartOf c).1 * fmtBits (s.inFmt c) / 8 else v.addr
  let n := if entry then v.full.length else v.bytes.length
  v.landed && decide (base < a + 8) && decide (a < base + n)

/-- SRAM_UE (R157): in the receive area the input that the entry core holds is asked for again, and a share in another core
is a transient buffer. -/
def State.sramUe (s : State) (c word : Nat) : State :=
  let s := s.count C.CORE_CNT_SRAM_UE c
  let s := s.sramErr c word true
  let s := s.flag F.CORE_STATUS_SRAM_UE_SEEN c
  let s := s.log { code := 0x0605, context := s.ctxOf c, core := c, argA := word, argB := word / 65536 }
  let key := c * 64 + word * 8 / 64 % 48
  let again := match Tab.find s.rel.bankUe key with
    | none => false
    | some t => decide (s.ns ≤ t + 3600000000000)
  let s := { s with rel := { s.rel with bankUe := Tab.set s.rel.bankUe key s.ns } }
  let s := if again then s.confirm (unitCore c) 0x09 else s.suspect (unitCore c) 0x09
  let s := s.loadFailed c
  let a := word * 8
  if s.statBase c ≤ a then
    let col := s.tileSize c - 1 - (sramSize - 1 - a) / 32
    let s := s.setCore c { s.core c with stats := Tab.erase (s.core c).stats ((s.tileCols c).getD col 0) }
    let k := c * 65536 + col
    let rc := Tab.getD s.rel.ranges k ⟨s.ns, 0, 0, false⟩
    { s with rel := { s.rel with ranges := Tab.set s.rel.ranges k { rc with skip := true } } }
  else if s.rxBase c ≤ a then
    match (s.core c).vins.find? (fun v => s.heldAt c v a), s.stageOf c with
    | some v, some (_, r) => if r.entry = c then s.requestVec c v else s.replayVec c v.lane v.item v.index
    | _, _ => s
  else
    match (s.core c).buffers.find? (fun b => decide (b.base ≤ a) && decide (a < b.base + b.size)) with
    | none => s.replayAffected c
    | some b => (s.reloadBuffer c b).replayAffected c

/-- A corrected SRAM error (R156). -/
def State.sramCe (s : State) (c word : Nat) : State :=
  let s := s.count C.CORE_CNT_SRAM_CE c
  let s := s.sramErr c word false
  s.logRate 1000000000 c { code := 0x0604, context := s.ctxOf c, core := c, argA := word, argB := word / 65536 }

/-- SRAM_SCRUB (R156): nothing lies beyond the 6 MiB (R155). -/
def execSramScrub (c word : Nat) (err : EccErr) (s : State) : Res :=
  if sramSize ≤ word * 8 then .fault (.sramAddress (word * 8))
  else
    match err with
    | .none => .next s
    | .single => .next (s.sramCe c word)
    | .double => .next (s.sramUe c word)

/-! ### Spill fetches and debug mode (R160, R161) -/

/-- DEBUG_ENTER (R161, R370): a halted or stopped core of a context that is not confidential, whose cells hold no
charge of a confidential one; never a Lookout. -/
def execDebugEnter (c : Nat) (s : State) : Res :=
  let st := s.fget F.CORE_STATUS_STATE c
  if (st == 1 || st == 3) && !s.conf (s.ctxOf c) && s.fon F.KEEP_CORE_DATA_CLEAN c && s.fget F.CORE_ROLE_ROLE c != 2 then
    .next ((s.flag F.CORE_STATUS_DEBUG c).log { code := 0x0608, context := s.ctxOf c, core := c })
  else .next s

/-- DEBUG_EXIT (R161). -/
def execDebugExit (c : Nat) (s : State) : Res :=
  if s.retired c then .next s else .next (s.fset F.CORE_STATUS_DEBUG c 0)

end Sys2Proof.Machine
end

