-- ==== Sys2Proof/Machine/Seq2.lean ====
section
/-! DEFINITION. The stage sequencer's entries and the instructions that reach beyond their core
(R24, R165, R167, R169, R170, R187): VEC_ENTRY, ITEM_ENTRY, END, SEND, SEND_EMIT, VERDICT and
OUTH. -/

namespace Sys2Proof.Machine

/-! ### Releasing held inputs (R24, R239) -/

/-- A stage forgets an input vector that it no longer has to hold.  In the lane's first stage,
once none of the item's vectors is left, the item's descriptor is released (R239). -/
def State.releaseVec (s : State) (c lane item index : Nat) : State :=
  let mine (x : VecIn) : Bool := x.lane == lane && x.item == item && x.index == index
  let s := (s.peers c).foldl (fun s d =>
    let k := s.core d
    s.setCore d { k with
      vins := k.vins.filter (fun x => !mine x)
      parts := k.parts.filter (fun p => !(p.lane == lane && p.item == item && p.index == index)) }) s
  match s.stageOf c, s.ctxOn item lane with
  | some (_, r), some (n, _) =>
    if (s.lane lane).first = r.stage && !(s.core r.entry).vins.any (fun x => x.lane == lane && x.item == item)
    then s.inputDone n else s
  | _, _ => s

/-- Release every input vector of an item that a stage holds. -/
def State.releaseItemVecs (s : State) (c lane item : Nat) : State :=
  let entry := match s.stageOf c with
    | none => c
    | some (_, r) => r.entry
  ((s.core entry).vins.filter (fun x => x.lane == lane && x.item == item)).foldl
    (fun s x => s.releaseVec c lane item x.index) s

/-- Whether a core has nothing left to run for an item: no vector whose VEC entry has not ended,
and no ITEM entry due or running. -/
def State.itemOver (s : State) (c lane item : Nat) : Bool :=
  let q := s.seq c
  !(s.core c).vins.any (fun x => x.lane == lane && x.item == item && !x.ended)
    && !q.due.any (fun d => d.lane == lane && d.item == item)
    && !(q.itm.entry == .item && q.itm.lane == lane && q.itm.item == item)

/-- Whether work that a vector's VEC entry posted in a core is under way (R24): packets without a receipt, fetches,
scratch row writes, and a fallback that waits for its source. -/
def State.postedLeft (s : State) (c lane item index : Nat) : Bool :=
  s.fab.held.any (fun p => p.thread == some (thrNum c .vec) && p.lane == lane && p.item == item && p.vseq == index)
    || (s.core c).fetches.any (fun f => f.thread == 0 && f.lane == lane && f.item == item && f.index == index)
    || (s.rowsLeft c).any (fun w => w.thr == 0 && w.lane == lane && w.item == item && w.index == index)
    || (List.range 2).any (fun t => (s.tile c t).handed.any (fun h =>
      h.req.thr == 0 && h.req.lane == lane && h.req.item == item && h.req.vec == index))

/-- The model's last stage has finished with an item when its ITEM entry has ended in every core,
or, without ITEM entries, with a vector when its VEC entry has ended and its posted work has
completed (R24). -/
def State.finishLast (s : State) (c lane item index : Nat) : State :=
  match s.stageOf c with
  | none => s
  | some (_, r) =>
    if !r.last then s
    else if s.fon F.SEQ_PROG_ITEM_EN c then
      (if (s.peers c).all (fun d => s.itemOver d lane item)
          && decide (r.vecPerItem ≤ ((s.core c).vins.filter (fun x => x.lane == lane && x.item == item)).length)
       then s.releaseItemVecs c lane item else s)
    else if (s.peers c).all (fun d => !s.postedLeft d lane item index
        && (s.core d).vins.all (fun x => !(x.lane == lane && x.item == item && x.index == index) || x.ended))
    then s.releaseVec c lane item index else s

/-- Posted work of a core has completed: a last stage without ITEM entries may now be finished with vectors whose
entries have ended (R24). -/
def State.finishPosted (s : State) (c : Nat) : State :=
  match s.stageOf c with
  | none => s
  | some (_, r) =>
    if !r.last || s.fon F.SEQ_PROG_ITEM_EN c then s
    else ((s.core c).vins.filter (fun v => v.ended)).foldl (fun s v => s.finishLast c v.lane v.item v.index) s

/-! ### Cycles and drains, whose end may complete posted work -/

/-- BIT_PLANE_CYCLE (R38 to R51, R148): the running vector's next plane that is not all zero; in an idle scratch
engine a write window. -/
def execBitPlaneCycle (c e : Nat) (standin : Bool) (s : State) : Res :=
  let s := s.advance c e
  match (s.engine c e).run with
  | none => .next ((s.idleWindow c e).finishPosted c)
  | some v =>
    let r := s.nextPlane c e v 9 v.plane 0
    if !v.splits.isEmpty || decide (v.planes ≤ r.1) then .next s
    else .next ((s.issuePlane c e v r.1 r.2 standin).finishPosted c)

/-- SPLIT_REPLAY (R46): the oldest granted replay of the running vector. -/
def execSplitReplay (c e : Nat) (standin : Bool) (s : State) : Res :=
  match (s.engine c e).run with
  | none => .next s
  | some v =>
    match v.splits with
    | [] => .next s
    | q :: rest => .next ((s.runSplit c e v q rest standin).finishPosted c)


/-- DRAIN_SWEEP (R95). -/
def execDrainSweep (c t : Nat) (s : State) : Res :=
  match (s.tile c t).drain with
  | none => .next s
  | some q =>
    if !s.drainReady c t q then .next s
    else .next (((((s.sendSample c t q).sweepTile c t q).pickUse c t q).wakeDrains c).finishPosted c)

/-! ### Entries (R165 to R167, R187) -/

/-- An uncorrectable error in program memory (R187): the program is reloaded from the context's
copy, and every vector in the core is replayed. -/
def State.pmUe (s : State) (c : Nat) : State :=
  let s := s.count C.SEQ_CNT_PM_UE c
  let s := s.flag F.SEQ_STATUS_PM_UE_SEEN c
  let s := s.log { code := 0x0701, context := s.ctxOf c, core := c }
  let s := s.suspect (unitCore c) 0x09
  let q := s.seq c
  let copy := match (s.core c).place with
    | none => none
    | some p => (s.model p.context p.model).bind (fun (m : Model) => Tab.find m.copies (p.stage * 8 + p.pos))
  let s := match copy with
    | none => s
    | some a =>
      let n := q.pm.length
      let b := s.pagedRead a (8 * n)
      s.setSeq c { q with pm := (List.range n).map (fun i => (i, leAt b (8 * i) 8)) }
  s.replayAll c

/-- The engines that the ISSUEs of an entry name. -/
def issueEngines (pm : Tab Nat) : Nat → Nat → List Nat
  | 0, _ => []
  | n + 1, pc =>
    let w := Tab.getD pm pc 0
    if insOp w = 0x01 then []
    else if insOp w = 0x05 then
      let o := issueOp w
      rangeFrom o.first (o.last + 1 - o.first) ++ issueEngines pm n (pc + 1)
    else issueEngines pm n (pc + 1)

/-- The vector that a core's VEC thread may take: landed, not taken, and the oldest of its lane
(R167). -/
def oldestReady : List VecIn → List Nat → Option VecIn
  | [], _ => none
  | v :: r, seen =>
    if v.taken then oldestReady r seen
    else if v.landed && !seen.contains v.lane then some v
    else oldestReady r (v.lane :: seen)

/-- A stage serves an item: the item's context takes the stage's placement epoch (R126, R220). -/
def State.noteServed (s : State) (c lane item : Nat) : State :=
  match s.stageOf c, s.ctxOn item lane with
  | some (m, r), some (n, x) =>
    match (s.lane lane).chain.findIdx? (fun (q : LaneStage) => q.stage == r.stage) with
    | none => s
    | some i => s.setItem n { x with epochs := Tab.set x.epochs i (s.sendEpoch c m r) }
  | _, _ => s

/-- VEC_ENTRY (R167). -/
def execVecEntry (c : Nat) (err : EccErr) (s : State) : Res :=
  let q := s.seq c
  let pc := s.fget F.SEQ_PROG_VEC_PC c
  let es := issueEngines q.pm 2048 pc
  if q.vec.entry != .idle || !s.slotsRun c || !s.mayBegin c
      || es.any (fun e => (s.engine c e).next.isSome) then .next s
  else
    match oldestReady (s.core c).vins [] with
    | none => .next s
    | some v =>
      match err with
      | .double => .next (s.pmUe c)
      | _ =>
        let s := if err = .single then s.count C.SEQ_CNT_PM_CE c else s
        let k := s.core c
        let s := s.setCore c { k with vins := k.vins.map (fun x =>
          if x.lane = v.lane ∧ x.item = v.item ∧ x.index = v.index then { x with taken := true } else x) }
        let s := s.setThread c .vec { Thread.empty with
          entry := .vec, pc := pc, lane := v.lane, item := v.item, index := v.index, a1 := v.addr }
        -- an entry without an ISSUE stages nothing
        .next (((s.noteServed c v.lane v.item).noteStaged c .vec).checkBreak c .vec)

/-- ITEM_ENTRY (R165): the ITEM thread is free and the oldest due entry begins. -/
def execItemEntry (c : Nat) (s : State) : Res :=
  let q := s.seq c
  match q.due with
  | [] => .next s
  | d :: r =>
    if q.itm.entry != .idle || s.fget F.CORE_STATUS_STATE c != 2 then .next s
    else
      .next (s.setSeq c { q with due := r, itm := { Thread.empty with
        entry := .item, pc := q.itemPc, lane := d.lane, item := d.item, index := d.index, a1 := d.a1 } })

/-- The end of a VEC entry; after the item's last vector its ITEM entry is due (R164, R165). -/
def State.endVec (s : State) (c : Nat) (x : Thread) : State :=
  let s := s.setThread c .vec .empty
  let s := s.count C.SEQ_CNT_VEC c
  let k := s.core c
  let s := s.setCore c { k with vins := k.vins.map (fun v =>
    if v.lane = x.lane ∧ v.item = x.item ∧ v.index = x.index then { v with ended := true } else v) }
  let last := match s.stageOf c with
    | none => false
    | some (_, r) => x.index + 1 == r.vecPerItem
  let s :=
    if last && s.fon F.SEQ_PROG_ITEM_EN c then
      let q := s.seq c
      let late := q.itm.entry == .item || !q.due.isEmpty
      let s := s.setSeq c { q with due := q.due ++ [⟨x.lane, x.item, x.index, x.a1, late⟩] }
      if late then s.count C.SEQ_CNT_ITEMWAIT c else s
    else s
  s.finishLast c x.lane x.item x.index

/-- The end of an ITEM entry; in the model's last stage an item without a VERDICT takes its lane's
withheld action (R170). -/
def State.endItemEntry (s : State) (c : Nat) (x : Thread) : State :=
  let s := s.setThread c .itm .empty
  let s := s.count C.SEQ_CNT_ITEM c
  let s := match s.stageOf c, s.ctxOn x.item x.lane with
    | some (_, r), some (n, y) =>
      -- only the exit core's program publishes the verdict (log entry 31)
      if r.last && !x.verdict && c == r.exit && y.state == ItemState.running then
        let s := (s.withholdItem n).completeItem n 0 0xFF
        if (s.lane x.lane).field then s else s.closeItem n
      else s
    | _, _ => s
  s.finishLast c x.lane x.item x.index

/-- END (R164). -/
def execEndEntry (c : Nat) (t : Thr) (s : State) : Res :=
  match s.fetchOp c t 0x01 with
  | none => .next s
  | some _ =>
    let x := s.thread c t
    match x.entry with
    | .idle => .next s
    | .init => .next ((s.setThread c t .empty).flag F.SEQ_STATUS_INIT_DONE c)
    | .vec => .next (s.endVec c x)
    | .item => .next (s.endItemEntry c x)

/-! ### SEND (R169) -/

/-- The fields of a SEND. -/
structure SendOp where
  as : Nat
  off : Nat
  len : Nat
  dest : Nat
  deriving DecidableEq, Repr

/-- Read a SEND. -/
def sendOp (w : Nat) : SendOp := ⟨insAs w, insOff w, bits w 21 16, bits w 18 3⟩

/-- The DRAIN whose output a SEND carries: the last one before it that drains to core SRAM. -/
def drainBefore (pm : Tab Nat) : Nat → Nat → Option DrainOp
  | 0, _ => none
  | n + 1, pc =>
    let w := Tab.getD pm pc 0
    if insOp w = 0x06 && !(drainOp w).group then some (drainOp w)
    else if pc = 0 then none else drainBefore pm n (pc - 1)

/-- The parts of the other N exits that a vector's output packet needs have all landed. -/
def State.partsReady (s : State) (c : Nat) (x : Thread) : Bool :=
  match s.stageOf c with
  | none => true
  | some (_, r) =>
    let me := r.nPart (s.posOf c)
    (List.range r.kN).all (fun p => p == me || (s.core c).parts.any (fun q =>
      q.lane == x.lane && q.item == x.item && q.index == x.index && q.part == p))

/-- The stage that follows a stage on this device, with its record. -/
def Model.nextOn (m : Model) (r : StageRec) : Option StageRec :=
  if r.last || r.nextDevice != 255 then none else m.stage r.nextStage

/-- Write `n` bits into core SRAM from bit `pos` of an address on; the bits beside them stay (R70). -/
def State.sramBits (s : State) (c a pos n v : Nat) : State :=
  let k := ceilDiv (pos % 8 + n) 8
  let x := leAt (s.sramRead c (a + pos / 8) k) 0 k
  let p := pos % 8
  s.sramWrite c (a + pos / 8) (bytesOf k (x % 2 ^ p + v % 2 ^ n * 2 ^ p + x / 2 ^ (p + n) * 2 ^ (p + n)))

/-- Emit the stage's output packet from the exit core: the parts are put in at their N_OFF, in
ascending N part order (R136, R169). -/
def State.emitOutput (s : State) (c : Nat) (t : Thr) (o : SendOp) : State :=
  let x := s.thread c t
  let a := s.operand c t o.as o.off
  let k := s.core c
  let mine := k.parts.filter (fun q => q.lane == x.lane && q.item == x.item && q.index == x.index)
  let s := (List.range 8).foldl (fun s p =>
    match mine.find? (fun q => q.part == p) with
    | none => s
    | some q => s.sramBits c a (q.nOff * q.bits) (q.elems * q.bits) (leAt q.bytes 0 q.bytes.length)) s
  let s := s.setCore c { k with parts := k.parts.filter (fun q => !mine.contains q) }
  match s.stageOf c with
  | none => s
  | some (m, r) =>
    let pk : Packet := { Packet.empty with
      typ := .vector, src := c, context := m.context, model := m.id, stage := r.stage
      epoch := s.sendEpoch c m r, lane := x.lane, item := x.item
      vseq := if t = .vec then x.index else 0
      payload := s.sramRead c a (o.len * 64), thread := some (thrNum c t) }
    if o.dest = 3 then
      s.toPeer { pk with dst := 41, dev := r.nextDevice, dstStage := r.nextStage }
    else
      match m.nextOn r with
      | none => s
      | some n => s.postHeld { pk with dst := n.entry, dstStage := n.stage }

/-- An N exit sends its part, with its count and sums, to the exit core (R103, R136). -/
def State.sendPart (s : State) (c : Nat) (t : Thr) (o : SendOp) (pc : Nat) : State :=
  let x := s.thread c t
  let a := s.operand c t o.as o.off
  match s.stageOf c with
  | none => s
  | some (m, r) =>
    let k := s.core c
    let mine := k.exitSums.filter (fun e => e.lane == x.lane && e.item == x.item && e.index == x.index)
    let s := s.setCore c { k with exitSums := k.exitSums.filter (fun e => !mine.contains e) }
    let (w, n, k) := match drainBefore (s.seq c).pm 2048 pc with
      | none => (8, 0, o.len * 64)
      | some d => (fmtBits (s.desc c d.desc).outFmt,
          (((s.swept c d.first d.last).head?).bind (fun h => (s.engine c h).map)).elim 0 (fun g => g.nOff),
          (s.drainCols c d.first d.last).foldl (fun k p => Nat.max k (p.2.2 + 1)) 0)
    s.postHeld { Packet.empty with
      typ := .exitPart, src := c, dst := r.exit, context := m.context, model := m.id, stage := r.stage
      epoch := s.sendEpoch c m r, lane := x.lane, item := x.item
      vseq := x.index, nOff := n, elemBits := w, len := k, sums := mine, payload := s.sramRead c a (o.len * 64)
      thread := some (thrNum c t) }

/-- SEND (R169): posted; in the exit core an output packet waits for the parts. -/
def execSend (c : Nat) (t : Thr) (s : State) : Res :=
  match s.fetchOp c t 0x07 with
  | none => .next s
  | some w =>
    let o := sendOp w
    let x := s.thread c t
    if !s.resident c (s.operand c t o.as o.off) (o.len * 64) then .next (s.spillWait c t)
    else if o.dest = 1 then .next ((s.sendPart c t o x.pc).next c t)
    else if s.partsReady c x then .next ((s.emitOutput c t o).next c t)
    else .next (s.stall c t)

/-- SEND_EMIT (R169): the parts that a waiting SEND needs are there. -/
def execSendEmit (c : Nat) (t : Thr) (s : State) : Res :=
  match s.fetchOp c t 0x07 with
  | none => .next s
  | some w =>
    let o := sendOp w
    let x := s.thread c t
    if o.dest = 1 || !x.stalled || !s.partsReady c x then .next s
    else .next ((s.emitOutput c t o).next c t)

/-! ### VERDICT and OUTH (R168, R170) -/

/-- A verdict out of range or repeated is counted and reported. -/
def State.verdictOdd (s : State) (c : Nat) : State :=
  (s.count C.SEQ_CNT_VRANGE c).logRate 1000000 c { code := 0x0703, context := s.ctxOf c, core := c }

/-- VERDICT (R170): accepted once in the ITEM entry of the model's last stage. -/
def execVerdict (c : Nat) (t : Thr) (s : State) : Res :=
  match s.fetchOp c t 0x0F with
  | none => .next s
  | some w =>
    let x := s.thread c t
    if x.entry != .item then .next (s.next c t)
    else if x.verdict then .next ((s.verdictOdd c).next c t)
    else
      let rec8 := s.sramRead c (s.operand c t (insAs w) (insOff w)) 8
      let raw := rec8.getD 0 0
      let s := if 15 < raw then s.verdictOdd c else s
      let code := if 15 < raw then 1 else raw
      let feature := (shake256 (s.sramRead c (s.areg c t (bits w 33 4)) (bits w 17 16 * 64))).take 8
      let s := s.setThread c t { x with verdict := true }
      let s := match s.stageOf c, s.ctxOn x.item x.lane with
        | some (_, r), some (n, y) =>
          if !r.last then s
          else if y.state != ItemState.running && y.verdict != 0xFF then s.verdictOdd c
          else s.verdictFormed n code (leAt rec8 2 2) feature
        | _, _ => s
      .next (s.next c t)

/-- OUTH (Table 7.1): bytes to the item's host output buffer, which belongs to the device until
the item's completion is written (R239). -/
def execOuth (c : Nat) (t : Thr) (s : State) : Res :=
  match s.fetchOp c t 0x10 with
  | none => .next s
  | some w =>
    let x := s.thread c t
    let a := s.operand c t (insAs w) (insOff w)
    let len := bits w 21 16 * 64
    if !s.resident c a len then .next (s.spillWait c t)
    else
      let s := match s.ctxOn x.item x.lane with
        | none => s
        | some (_, y) =>
          match y.origin with
          | none => s
          | some o => if o.canopy || y.cpl then s
                      else s.emit (.hostWrite o.func (o.outAddr + bits w 0 21 * 64) (s.sramRead c a len))
      .next (s.next c t)

end Sys2Proof.Machine
end

