-- ==== Sys2Proof/Machine/Rings.lean ====
section
/-! DEFINITION. Rings and doorbells (R232 to R252): doorbells, takes, descriptor checks, reads of
host memory and their failures, interrupts, function level resets, and the short commands. -/

namespace Sys2Proof.Machine

/-! ### Ownership (R233) -/

/-- The function that owns a context: the VF that HIF_VF_CTX assigns it to, else the PF. -/
def State.ownerOf (s : State) (ctx : Nat) : Nat :=
  ((List.range 32).find? (fun v => (s.fget F.HIF_VF_CTX_MASK v).testBit ctx)).elim 0 (fun v => v + 1)

/-- The function whose authority a ring key carries: a management session acts for the owner of
the context a command names (R396). -/
def State.ringFunc (s : State) (k ctx : Nat) : Nat := if mgtFunc ≤ k / 128 then s.ownerOf ctx else k / 128

/-- Whether a ring index names a ring of a function. -/
def ringExists (func k : Nat) : Bool := decide (func ≤ 32) && decide (k < ringCount func)

/-! ### Doorbells (R237, R244, R246) -/

/-- A tail doorbell that is ignored. -/
def State.dbBad (s : State) (k : Nat) : State :=
  let s := s.flag F.RING_STATUS_DB_BAD k
  let s := s.count C.HIF_CNT_DB_BAD 0
  s.logRate 1000000 k { code := 0x0D02, argA := k % 128, argB := k / 128 }

/-- A tail doorbell of a ring key. -/
def State.doorTail (s : State) (k t : Nat) : State :=
  let tail := s.fget F.RING_SQ_TAIL_COUNT k
  if s.fget F.RING_STATUS_STATE k = 1 && decide (cntDiff t tail ≤ s.sqSize k)
      && decide (cntDiff t (s.fget F.RING_SQ_HEAD_COUNT k) ≤ s.sqSize k) then s.fset F.RING_SQ_TAIL_COUNT k t
  else s.dbBad k

/-- SQ_DOORBELL (R237); a page of no ring lies outside the BAR. -/
def execSqDoorbell (func ring value : Nat) (s : State) : Res :=
  if ringExists func ring then .next (s.doorTail (ringKey func ring) (value % 2 ^ 32)) else .next s

/-- Completions that a head doorbell covers are no longer pending (R246). -/
def irqAfter (irq : List (Nat × Nat)) (h : Nat) : List (Nat × Nat) :=
  irq.filter (fun (p : Nat × Nat) => !decide (cntDiff h p.1 < 2 ^ 31))

/-- A head doorbell of a ring key (R244), whatever the ring's state. -/
def State.doorHead (s : State) (k h : Nat) : State :=
  let head := s.fget F.RING_CQ_HEAD_COUNT k
  if cntDiff h head ≤ cntDiff (s.fget F.RING_CQ_TAIL_COUNT k) head then
    let r := s.ring k
    (s.fset F.RING_CQ_HEAD_COUNT k h).setRing k { r with irq := irqAfter r.irq h }
  else (s.flag F.RING_STATUS_CQH_BAD k).count C.HIF_CNT_DB_BAD 0

/-- CQ_DOORBELL (R244). -/
def execCqDoorbell (func ring value : Nat) (s : State) : Res :=
  if ringExists func ring then .next (s.doorHead (ringKey func ring) (value % 2 ^ 32)) else .next s

/-- IRQ_MOD_TIMER (R246). -/
def execIrqModTimer (func ring : Nat) (s : State) : Res :=
  let k := ringKey func ring
  match (s.ring k).irq with
  | [] => .next s
  | (_, t) :: _ =>
    let us := s.fget F.RING_MOD_TIME_US k
    if s.fon F.RING_CFG_IRQ_EN k && us != 0 && decide (t + us * 1000 ≤ s.ns) then .next (s.ringMsg k) else .next s

/-! ### Ring control (R250, R252) -/

/-- The first cause for which a START is ignored, 0 for none (R252). -/
def State.ringStartReason (s : State) (func k : Nat) : Nat :=
  let sq := s.fget F.RING_CFG_SQ_LOG2 k
  let cq := s.fget F.RING_CFG_CQ_LOG2 k
  if s.fget F.RING_STATUS_STATE k != 0 then 5
  else if sq < 4 || 16 < sq || cq < 4 || 16 < cq then 1
  else if 2 ≤ s.fget F.RING_CFG_KIND k then 2
  else if s.fon F.RING_CFG_IRQ_EN k && decide ((if func = 0 then 512 else 48) ≤ s.fget F.RING_CFG_VECTOR k) then 3
  else if !s.busMaster.contains func then 4 else 0

/-- Set the four counts and the take count of a ring to 0 (R235). -/
def State.zeroCounts (s : State) (k : Nat) : State :=
  let s := s.fset F.RING_SQ_HEAD_COUNT k 0
  let s := s.fset F.RING_SQ_TAIL_COUNT k 0
  let s := s.fset F.RING_CQ_TAIL_COUNT k 0
  let s := s.fset F.RING_CQ_HEAD_COUNT k 0
  s.fset F.RING_SQ_TAKE_COUNT k 0

/-- RING_START (R252). -/
def execRingStart (func ring : Nat) (s : State) : Res :=
  if !ringExists func ring then .next s
  else
    let k := ringKey func ring
    let r := s.ringStartReason func k
    if r = 0 then
      let s := (s.zeroCounts k).fset F.RING_STATUS_STATE k 1
      let x := s.ring k
      .next (s.setRing k { x with taken := x.taken.filter (fun t => t.orphan), irq := [], wroteHead := 0, headDue := false })
    else
      let s := s.flag F.RING_STATUS_START_REFUSED k
      let s := s.fset F.RING_STATUS_REASON k r
      .next (s.log { code := 0x0D01, argA := ring, argB := func })

/-- RING_STOP (R250). -/
def execRingStop (func ring : Nat) (s : State) : Res :=
  let k := ringKey func ring
  if ringExists func ring && s.fget F.RING_STATUS_STATE k == 1 then .next (s.fset F.RING_STATUS_STATE k 2)
  else .next s

/-- RING_STOPPED (R250): no taken descriptor is unreleased or holds a slot. -/
def execRingStopped (func ring : Nat) (s : State) : Res :=
  let k := ringKey func ring
  if ringExists func ring && s.fget F.RING_STATUS_STATE k == 2 && (s.ring k).taken.all (fun t => t.orphan || (t.released && !t.slot)) then
    .next ((s.fset F.RING_STATUS_STATE k 0).log { code := 0x0D04, argA := ring, argB := func })
  else .next s

/-- RING_COMMIT (R252). -/
def execRingCommit (func ring : Nat) (s : State) : Res :=
  if !ringExists func ring then .next s
  else
    let k := ringKey func ring
    if s.staging F.RING_MOD_COUNT k = 0 then
      .next ((s.flag F.RING_STATUS_MOD_INVALID k).log { code := 0x0D06, argA := ring, argB := func })
    else .next ((s.applyAll [(F.RING_MOD_COUNT, k), (F.RING_MOD_TIME_US, k)]).ringIrq k)

/-! ### Descriptor fields and checks (R240, R241) -/

/-- The opcode of a descriptor. -/
def dOp (d : List Nat) : Nat := d.getD 0 0
/-- CONTEXT. -/
def dCtx (d : List Nat) : Nat := d.getD 2 0 % 32
/-- LANE. -/
def dLane (d : List Nat) : Nat := d.getD 3 0 % 64
/-- ITEM. -/
def dItem (d : List Nat) : Nat := leAt d 8 6
/-- IN_ADDR. -/
def dInAddr (d : List Nat) : Nat := leAt d 16 8
/-- IN_LEN. -/
def dInLen (d : List Nat) : Nat := leAt d 24 4
/-- OUT_ADDR. -/
def dOutAddr (d : List Nat) : Nat := leAt d 32 8
/-- OUT_LEN. -/
def dOutLen (d : List Nat) : Nat := leAt d 40 4
/-- ARG0. -/
def dArg0 (d : List Nat) : Nat := leAt d 48 8
/-- ARG1. -/
def dArg1 (d : List Nat) : Nat := leAt d 56 8
/-- MODEL_ID of a descriptor that names one in ARG0 and ARG1. -/
def dModel (d : List Nat) : Nat := dArg0 d + dArg1 d * 2 ^ 64

/-- The fields that an opcode uses (Table 10.4), by bit: 0 CONTEXT, 1 LANE, 2 ITEM, 3 MODE,
4 IN_ADDR and IN_LEN, 5 OUT_ADDR and OUT_LEN, 6 ARG0, 7 ARG1. -/
def dUses (op : Nat) : List Nat :=
  if op = 0x01 then [0, 1, 2, 4, 5] else if op = 0x11 then [0, 4, 6] else if op = 0x12 then [0, 5, 6]
  else if op = 0x13 then [0, 5, 6, 7] else if op = 0x14 then [0, 6, 7] else if op = 0x15 then [4, 5, 6, 7]
  else if op = 0x16 || op = 0x17 || op = 0x18 then [1] else if op = 0x19 then [0, 3, 6, 7]
  else if op = 0x1A then [4, 6] else if op = 0x1B then [1, 6] else if op = 0x1C then [0] else []

/-- Whether an opcode is defined. -/
def dKnown (op : Nat) : Bool := op == 1 || (decide (0x10 ≤ op) && decide (op ≤ 0x1C))

/-- The bits of ARG0 that an opcode uses. -/
def dArg0Mask (op : Nat) : Nat :=
  if op = 0x15 then 0xFFFFFFFF000000FF else if op = 0x1A || op = 0x1B then 0xFF else 2 ^ 64 - 1

/-- The form of a descriptor: opcode, reserved bits, MODE, unused fields (R240, R241). -/
def dForm (d : List Nat) : Bool :=
  let op := dOp d
  let u := dUses op
  let use (i : Nat) (v : Nat) : Bool := u.contains i || v == 0
  let fl := d.getD 1 0
  dKnown op && decide (fl < 4) && (op == 1 || !bit fl 0)
    && decide (d.getD 2 0 < 32) && decide (d.getD 3 0 < 64) && d.getD 15 0 == 0
    && leAt d 28 4 == 0 && leAt d 44 4 == 0
    && use 0 (d.getD 2 0) && use 1 (d.getD 3 0) && use 2 (dItem d) && use 3 (d.getD 14 0) && decide (d.getD 14 0 ≤ 1)
    && use 4 (dInAddr d) && use 4 (dInLen d) && use 5 (dOutAddr d) && use 5 (dOutLen d)
    && use 6 (dArg0 d) && use 7 (dArg1 d) && (dArg0 d &&& dArg0Mask op) == dArg0 d
    && (op != 0x13 || decide (dArg1 d ≤ 1)) && (op != 0x15 || dInLen d == 128)

/-- The status of the checks of R241 on a descriptor of a ring, 0 where it passes. -/
def State.descStatus (s : State) (k : Nat) (d : List Nat) : Nat :=
  let op := dOp d
  let u := dUses op
  let itemRing := decide (k / 128 < mgtFunc) && s.fget F.RING_CFG_KIND k == 1
  let l := dLane d
  let func := s.ringFunc k (if u.contains 0 then dCtx d else (s.lane l).context)
  if !dForm d then 0x60
  else if (op == 1) != itemRing then 0x61
  else if (u.contains 0 && s.ownerOf (dCtx d) != func)
      || (u.contains 1 && s.laneState l != 0 && s.ownerOf (s.lane l).context != func)
      || (op == 1 && s.laneState l != 0 && (s.lane l).context != dCtx d) then 0x62
  else if op = 1 && (s.fget F.RING_STATUS_LANE k != l || dInLen d != (s.lane l).inBytes
      || decide (dOutLen d < (s.lane l).outBytes)) then 0x63
  else if (op == 0x1A || op == 0x1B) && !ringExists func (dArg0 d % 256) then 0x60
  else if (op = 0x11 && decide (2 ^ 31 < dArg0 d + dInLen d)) || (op = 0x12 && decide (2 ^ 31 < dArg0 d + dOutLen d)) then 0x66
  else if bit (d.getD 1 0) 0 then
    match (s.ring k).window with
    | none => 0x65
    | some (a, n) => if (s.ring k).windowOk && decide (a ≤ dInAddr d) && decide (dInAddr d + dInLen d ≤ a + n) then 0 else 0x65
  else 0

/-- Complete a descriptor that fails its checks. -/
def State.descBad (s : State) (k n status : Nat) : State :=
  let s := s.count C.HIF_CNT_DESC_BAD 0
  let s := s.logRate 1000000 k { code := 0x0D03, argA := k % 128, argB := k / 128 }
  let item := (s.takenDesc k n).any (fun t => dOp t.bytes == 1)
  s.complete k n { status := status, item := item, verdict := if item then 0xFF else 0 }

/-- The time from a descriptor's take, which is its item's acceptance (R238), to now. -/
def State.sinceTake (s : State) (k n : Nat) : Nat := (s.takenDesc k n).elim 0 (fun t => s.ns - t.takenNs)

/-- The bytes of a taken descriptor are there: one that a release found untaken completes with 0x67 (R241); any other is
checked, and a suspended lane's ITEM completes at once with 0x44 (R219, R241, R243). -/
def State.descArrive (s : State) (k n : Nat) (d : List Nat) : State :=
  let s := s.updTaken k n (fun t => { t with bytes := d, checked := true })
  if (s.takenDesc k n).any (fun t => t.flushed) then s.complete k n { status := 0x67, item := true, verdict := 0xFF }
  else
    let st := s.descStatus k d
    if st != 0 then s.descBad k n st
    else if dOp d = 1 && s.laneState (dLane d) == 3 then
      s.complete k n { status := 0x44, item := true, verdict := 0xFF, lat := s.sinceTake k n }
    else s

/-! ### Takes (R209, R238) -/

/-- Whether a context takes nothing because of a frame boundary (R380) or its TDI (R368). -/
def State.ctxHeld (s : State) (ctx : Nat) : Bool := (Tab.find s.keep.frames ctx).isSome

/-- Whether a function's rings take: Bus Master Enable is set, and a VF's TDI is unlocked, or in RUN under a
keyed IDE stream (R250, R368). -/
def State.funcTakes (s : State) (func : Nat) : Bool :=
  s.busMaster.contains func && (let t := Tab.getD s.keep.tdi func 0; t == 0 || (t == 2 && s.keep.ide.contains func))

/-- The take conditions of R238. -/
def State.mayTake (s : State) (func k : Nat) : Bool :=
  let r := s.ring k
  let used := cntDiff (s.fget F.RING_CQ_TAIL_COUNT k) (s.fget F.RING_CQ_HEAD_COUNT k)
  let res := (r.taken.filter (fun t => t.slot)).length
  let kind := s.fget F.RING_CFG_KIND k
  let l := s.fget F.RING_STATUS_LANE k
  s.serving && s.fget F.RING_STATUS_STATE k == 1 && s.funcTakes func
    && decide (0 < cntDiff (s.fget F.RING_SQ_TAIL_COUNT k) (s.fget F.RING_SQ_TAKE_COUNT k))
    && decide (used + res < s.cqSize k)
    && (if kind = 0 then res == 0
        else s.fon F.RING_STATUS_BOUND k && s.laneUp l && !s.ctxHeld (s.lane l).context
          && (match (s.lane l).lastTake with
              | none => true
              | some t => decide (t + (s.lane l).period ≤ s.ns))
          && !(r.window.isSome && !r.windowOk))

/-- Issue the read of a ring's descriptor. -/
def State.readDesc (s : State) (k n : Nat) : State :=
  s.hostRead (k / 128) (s.sqBase k + n % s.sqSize k * 64) 64 (.desc k n) false

/-- DESCRIPTOR_TAKE (R238).  Reading up to 4 descriptors ahead, which the device may do, is not shown (log entry 140). -/
def execDescriptorTake (func ring : Nat) (s : State) : Res :=
  let k := ringKey func ring
  if !ringExists func ring || !s.mayTake func k then .next s
  else
    let n := s.fget F.RING_SQ_TAKE_COUNT k
    let s := s.fset F.RING_SQ_TAKE_COUNT k (n + 1)
    let l := s.fget F.RING_STATUS_LANE k
    let s := if s.fget F.RING_CFG_KIND k = 1 then s.setLane l { s.lane l with lastTake := some s.ns } else s
    let r := s.ring k
    let t : Taken := { number := n, bytes := [], takenNs := s.ns, checked := false, started := false, released := false
                       slot := true, input := [], output := [], mtag := 0 }
    .next ((s.setRing k { r with taken := r.taken ++ [t] }).readDesc k n)

/-! ### Read completions (R234, R242, R249) -/

/-- Input bytes arrive in the receive area of the lane's entry core (R464): once a whole vector
is there it lands and its K parts leave. -/
def State.inputBytes (s : State) (n off : Nat) (data : List Nat) : State :=
  match s.item n with
  | none => s
  | some x =>
    let l := s.lane x.lane
    let s := s.setItem n { x with inLeft := x.inLeft - data.length }
    match (s.model l.context l.model).bind (fun (m : Model) => m.stage l.first) with
    | none => s
    | some (r : StageRec) =>
      let part := l.inBytes / Nat.max 1 r.vecPerItem
      let vs := (List.range r.vecPerItem).filter (fun v =>
        decide (off ≤ v * part) && decide (v * part + part ≤ off + data.length))
      vs.foldl (fun s v =>
        let vi : VecIn := ⟨x.lane, x.item, v, 0, 0, [], slice data (v * part - off) part, false, false,
          false, false, false, false, false, 40, 0⟩
        let s := s.landVec r.entry vi true r.inElems
        match (s.core r.entry).vins.find? (fun y => y.lane == x.lane && y.item == x.item && y.index == v) with
        | none => s
        | some y => s.sendKParts r.entry y) s

/-- An accepted item's read has failed twice (R243, R249). -/
def State.inputLost (s : State) (n status : Nat) : State :=
  let s := s.count C.HIF_CNT_RDERR 0
  let s := s.flag F.HIF_STATUS_READ_ERR_SEEN 0
  let s := match s.item n with
    | none => s
    | some x => s.log { code := 0x0C02, context := (s.lane x.lane).context, lane := x.lane, item := x.item
                        argA := x.origin.elim 0 (fun o => o.func) }
  s.endItem n status

/-- The repeated read of a descriptor has failed (R242): its completion holds nothing of it. -/
def State.descLost (s : State) (k n : Nat) : State :=
  let s := s.updTaken k n (fun t => { t with bytes := List.replicate 64 0, checked := true })
  s.complete k n { status := 0x64 }

/-- A read has failed for good. -/
def State.readLost (s : State) (r : HostRead) : State :=
  let s := s.endRead r.tag
  match r.use with
  | .desc k n => s.descLost k n
  | .input n _ => s.inputLost n 0x64
  | .again n _ => s.inputLost n 0x64
  | .source k n => s.done k n 0x64
  | .chunk c _ _ => s.replayAffected c

/-- DESCRIPTOR_READ_FAIL (R242). -/
def execDescriptorReadFail (tag : Nat) (s : State) : Res :=
  match s.findRead tag with
  | none => .next s
  | some r =>
    match r.use with
    | .desc _ _ => if r.again then .next (s.readLost r) else .next s
    | _ => .next s

/-- HOST_READ_FAIL (R249). -/
def execHostReadFail (tag : Nat) (s : State) : Res :=
  match s.findRead tag with
  | none => .next s
  | some r =>
    match r.use with
    | .desc _ _ => .next s
    | _ => if r.again then .next (s.readLost r) else .next s

/-- A read that fails for the first time is repeated (R242, R249). -/
def State.readRepeat (s : State) (r : HostRead) : State :=
  { s.emit (.hostRead r.func r.addr r.len r.tag) with
    reads := s.reads.map (fun x => if x.tag = r.tag then { x with again := true } else x) }

/-- HOST_READ_COMPLETION (R238, R249). -/
def execHostReadCompletion (tag : Nat) (data : List Nat) (ok : Bool) (s : State) : Res :=
  match s.findRead tag with
  | none => .next s
  | some r =>
    if !ok then (if r.again then .next s else .next (s.readRepeat r))
    else
      let s := s.endRead tag
      let b := (slice data 0 r.len).map (fun x => x % 256)
      match r.use with
      | .desc k n => .next (s.descArrive k n b)
      | .input n off => .next (s.inputBytes n off b)
      | .again n off => .next (s.inputBytes n off b)
      | .source _ _ => .next s
      | .chunk c buf win =>
        match s.buffer c buf with
        | none => .next s
        | some x => .next (s.sramWrite c (winAddr x win) b)

/-- The item that a read serves has met a slow host (R210, R234). -/
def State.readSlow (s : State) (r : HostRead) : State :=
  let mark (n : Nat) : State := (s.item n).elim s (fun x => s.setItem n { x with slow := true })
  match r.use with
  | .input n _ => mark n
  | .again n _ => mark n
  | .chunk c buf win =>
    match (s.core c).fetches.find? (fun f => f.buf == buf && f.win == win) with
    | none => s
    | some f => s.itemSlow f.item f.lane
  | _ => s

/-- SLOW_READ (R234). -/
def execSlowRead (tag ns : Nat) (s : State) : Res :=
  match s.findRead tag with
  | none => .next s
  | some r =>
    if ns ≤ s.fget F.HIF_LAT_LIMIT_NS 0 then .next s
    else
      let s := s.count C.HIF_CNT_SLOWREAD 0
      let s := s.fset F.HIF_LAT_MAX_NS 0 (Nat.max (s.fget F.HIF_LAT_MAX_NS 0) (Nat.min 65535 ns))
      let s := (s.flag F.HIF_STATUS_SLOW_READ_SEEN 0).readSlow r
      .next (s.logRate 1000000000 0 { code := 0x0C03, argA := r.func })

/-! ### Commands (Table 10.4) -/

/-- The checked descriptor with an opcode that a ring has taken and not begun. -/
def State.cmd (s : State) (k op : Nat) : Option Taken :=
  (s.ring k).taken.find? (fun t => t.checked && t.slot && !t.started && dOp t.bytes == op)

/-- Mark a command begun; it completes later. -/
def State.begun (s : State) (k n : Nat) : State := s.updTaken k n (fun t => { t with started := true })

/-- The key of the ring that a command row names: a ring pair of a function, or the commands of a
management session. -/
def cmdKey (func ring : Nat) : Nat := ringKey func ring

/-- The function that a command's accesses to host memory use. -/
def State.cmdFunc (s : State) (k : Nat) (d : List Nat) : Nat := s.ringFunc k (dCtx d)

/-- Write a command's output: to host memory, or into the reply of a management session (R396). -/
def State.cmdWrite (s : State) (k : Nat) (t : Taken) (f : Nat) (b : List Nat) : State :=
  if t.orphan then s
  else if mgtFunc ≤ k / 128 then s.updTaken k t.number (fun x => { x with output := b })
  else s.emit (.hostWrite f (dOutAddr t.bytes) b)

/-- The input of a command: what came with it over management, else what the device read. -/
def cmdInput (k : Nat) (t : Taken) (data : Option (List Nat)) : Option (List Nat) :=
  if mgtFunc ≤ k / 128 then some t.input else data

/-- Whether a command's output does not fit (status 0x69); over management the length is ignored. -/
def outShort (k : Nat) (t : Taken) (n : Nat) : Bool := decide (k / 128 < mgtFunc) && decide (dOutLen t.bytes < n)

/-- NOP. -/
def execNop (func ring : Nat) (s : State) : Res :=
  match s.cmd (cmdKey func ring) 0x10 with
  | none => .next s
  | some t => .next (s.done (cmdKey func ring) t.number 0)

/-! #### The load area (R200, R241) -/

/-- The page of a context's load area with an index. -/
def State.areaPage (s : State) (ctx i : Nat) : Option Nat :=
  (s.fab.pages.find? (fun (p : Nat × PageEnt) => p.2.owner == ctx && p.2.use == 1 && p.2.index == i)).map Prod.fst

/-- The lowest free context page. -/
def State.freePage (s : State) : Option Nat :=
  (rangeFrom 1280 (s.fab.pages.length + 1)).find? (fun p => decide (p < 49152) && (Tab.find s.fab.pages p).isNone)

/-- Give a context a page. -/
def State.allocPage (s : State) (ctx use index : Nat) : Option State :=
  match s.freePage with
  | none => none
  | some p =>
    let e : PageEnt := ⟨ctx, use, s.fget F.KEEP_CTX_STATE_KEYGEN ctx, index, false⟩
    some { s with fab := { s.fab with pages := Tab.set s.fab.pages p e } }

/-- Allocate the load-area pages of a list of indexes that have none. -/
def State.allocArea (s : State) (ctx : Nat) : List Nat → Option State
  | [] => some s
  | i :: r =>
    match s.areaPage ctx i with
    | some _ => s.allocArea ctx r
    | none => (s.allocPage ctx 1 i).bind (fun t => t.allocArea ctx r)

/-- Write bytes into a context's load area. -/
def State.areaPut (s : State) (ctx off : Nat) (b : List Nat) : State :=
  (areaPages off b.length).foldl (fun s i =>
    match s.areaPage ctx i with
    | none => s
    | some p =>
      let lo := Nat.max off (i * 2 ^ 20)
      let hi := Nat.min (off + b.length) ((i + 1) * 2 ^ 20)
      s.dramWrite (p * 2 ^ 20 + lo % 2 ^ 20) (slice b (lo - off) (hi - lo))) s

/-- Read bytes of a context's load area; a range that nothing allocated reads 0. -/
def State.areaGet (s : State) (ctx off n : Nat) : List Nat :=
  (areaPages off n).flatMap (fun i =>
    let lo := Nat.max off (i * 2 ^ 20)
    let hi := Nat.min (off + n) ((i + 1) * 2 ^ 20)
    match s.areaPage ctx i with
    | none => List.replicate (hi - lo) 0
    | some p => s.dramRead (p * 2 ^ 20 + lo % 2 ^ 20) (hi - lo))

/-- Whether a load of a context is in progress. -/
def State.loading (s : State) (ctx : Nat) : Bool :=
  (Tab.find s.keep.pend ctx).isSome || s.models.any (fun (m : Model) => m.context == ctx && (m.state == ModelState.starting
    || m.next.elim false (fun n => !n.ready)))

/-- Release pages of a context to their scrub (R379). -/
def State.scrubPages (s : State) (p : PageEnt → Bool) : State :=
  let ps := Tab.mapv s.fab.pages (fun _ (e : PageEnt) => if p e then { e with scrub := true } else e)
  { s with fab := { s.fab with pages := ps } }

/-- AREA_WRITE: waits while a load of the context runs. -/
def execAreaWrite (func ring : Nat) (data : Option (List Nat)) (s : State) : Res :=
  let k := cmdKey func ring
  match s.cmd k 0x11 with
  | none => .next s
  | some t =>
    let d := t.bytes
    let ctx := dCtx d
    if s.loading ctx then .next s
    else
      match s.allocArea ctx (areaPages (dArg0 d) (dInLen d)) with
      | none => .next (s.done k t.number 0x66)
      | some u =>
        match cmdInput k t data with
        | none => .next (s.done k t.number 0x64)
        | some b =>
          let u := u.areaPut ctx (dArg0 d) ((slice b 0 (dInLen d)).map (fun x => x % 256))
          -- a model whose image stood there no longer has it in the load area (R357)
          let hit (m : Model) : Bool := m.context == ctx && m.imageAt.elim false (fun o =>
            decide (o < dArg0 d + dInLen d) && decide (dArg0 d < o + leAt (s.areaGet ctx (o + 40) 8) 0 8))
          let u := { u with models := u.models.map (fun (m : Model) => if hit m then { m with imageAt := none } else m) }
          .next (u.complete k t.number { status := 0, lat := dInLen d })

/-- AREA_READ. -/
def execAreaRead (func ring : Nat) (s : State) : Res :=
  let k := cmdKey func ring
  match s.cmd k 0x12 with
  | none => .next s
  | some t =>
    let d := t.bytes
    let s := s.cmdWrite k t (s.cmdFunc k d) (s.areaGet (dCtx d) (dArg0 d) (dOutLen d))
    .next (s.complete k t.number { status := 0, lat := dOutLen d })

/-- AREA_FREE. -/
def execAreaFree (func ring : Nat) (s : State) : Res :=
  let k := cmdKey func ring
  match s.cmd k 0x1C with
  | none => .next s
  | some t =>
    let ctx := dCtx t.bytes
    if s.loading ctx then .next (s.done k t.number 0x68)
    else
      let s := s.scrubPages (fun e => e.owner == ctx && e.use == 1)
      let s := { s with models := s.models.map (fun (m : Model) => if m.context = ctx then { m with imageAt := none } else m) }
      .next (s.done k t.number 0)

/-! #### Binding and peer windows (R236, R247, R248) -/

/-- Bind a lane to an item ring. -/
def State.bindRing (s : State) (k l : Nat) : State :=
  let s := s.flag F.RING_STATUS_BOUND k
  let s := s.fset F.RING_STATUS_LANE k l
  s.setLane l { s.lane l with ring := some k }

/-- Unbind a lane's item ring. -/
def State.unbindLane (s : State) (l : Nat) : State :=
  match (s.lane l).ring with
  | none => s
  | some k =>
    let s := s.fset F.RING_STATUS_BOUND k 0
    let s := s.fset F.RING_STATUS_LANE k 0
    s.setLane l { s.lane l with ring := none }

/-- Whether a ring is an unbound item ring. -/
def State.bindable (s : State) (k : Nat) : Bool := s.fget F.RING_CFG_KIND k == 1 && !s.fon F.RING_STATUS_BOUND k

/-- BIND (R236, R241). -/
def execBind (func ring : Nat) (s : State) : Res :=
  let k := cmdKey func ring
  match s.cmd k 0x1B with
  | none => .next s
  | some t =>
    let l := dLane t.bytes
    let g := ringKey (s.ringFunc k (s.lane l).context) (dArg0 t.bytes % 256)
    if s.laneUp l && (s.lane l).ring.isNone && s.bindable g then .next ((s.bindRing g l).done k t.number 0)
    else .next (s.done k t.number 0x68)

/-- PEER_WINDOW (R247): with ATS enabled the window's translation must succeed, in a cache of
8,192 entries of 4 KiB. -/
def execPeerWindow (func ring : Nat) (ok : Bool) (s : State) : Res :=
  let k := cmdKey func ring
  match s.cmd k 0x1A with
  | none => .next s
  | some t =>
    let d := t.bytes
    let g := ringKey (s.ringFunc k 0) (dArg0 d % 256)
    let r := s.ring g
    let n := dInLen d
    let pages (w : Option (Nat × Nat)) : Nat := w.elim 0 (fun w => if w.2 = 0 then 0 else (w.1 + w.2 - 1) / 4096 + 1 - w.1 / 4096)
    if n = 0 then .next ((s.setRing g { r with window := none, windowOk := false }).done k t.number 0)
    else if s.ats.contains (g / 128) then
      let used := s.rings.foldl (fun m (p : Nat × Ring) => if p.1 = g then m else m + pages p.2.window) 0
      if ok && decide (used + pages (some (dInAddr d, n)) ≤ 8192) then
        .next ((s.setRing g { r with window := some (dInAddr d, n), windowOk := true }).done k t.number 0)
      else .next (s.done k t.number 0x65)
    else .next ((s.setRing g { r with window := some (dInAddr d, n), windowOk := true }).done k t.number 0)

/-- ATS_INVALIDATE (R248): where re-translation fails, the ring's PEER descriptors and the
accepted items whose reads are not all issued complete with 0x65. -/
def execAtsInvalidate (func ring : Nat) (ok : Bool) (s : State) : Res :=
  let k := ringKey func ring
  let r := s.ring k
  if !s.ats.contains func || r.window.isNone then .next s
  else
    let s := s.count C.HIF_CNT_ATSINV 0
    if ok then .next (s.setRing k { r with windowOk := true })
    else
      let s := s.setRing k { r with windowOk := false, window := none }
      let xs := s.items.filter (fun (p : Nat × ItemCtx) =>
        p.2.origin.elim false (fun o => o.ring == k && o.peer) && p.2.inLeft != 0)
      .next (xs.foldl (fun s (p : Nat × ItemCtx) =>
        { s.endItem p.1 0x65 with reads := s.reads.filter (fun q => !(q.use == .input p.1 0)) }) s)

/-! ### Function level resets (R250) -/

/-- The fields of a ring block that a function level reset returns to their reset values. -/
def ringFields : List Fld := [F.RING_SQ_BASE_LO_ADDR, F.RING_SQ_BASE_HI_ADDR, F.RING_CFG_SQ_LOG2, F.RING_CFG_CQ_LOG2,
  F.RING_CFG_KIND, F.RING_CFG_VECTOR, F.RING_CFG_IRQ_EN, F.RING_STATUS_STATE, F.RING_STATUS_START_REFUSED,
  F.RING_STATUS_REFUSED_WRITE, F.RING_STATUS_DB_BAD, F.RING_STATUS_CQH_BAD, F.RING_STATUS_MOD_INVALID,
  F.RING_STATUS_REASON, F.RING_STATUS_BOUND, F.RING_STATUS_LANE, F.RING_CQ_BASE_LO_ADDR, F.RING_CQ_BASE_HI_ADDR,
  F.RING_SQ_HEAD_COUNT, F.RING_SQ_TAIL_COUNT, F.RING_CQ_TAIL_COUNT, F.RING_CQ_HEAD_COUNT, F.RING_SQ_TAKE_COUNT,
  F.RING_HEADWB_LO_ADDR, F.RING_HEADWB_HI_ADDR, F.RING_MOD_COUNT, F.RING_MOD_TIME_US]

/-- Return fields of instance `i` to their reset values, staged values included. -/
def State.resetFields (s : State) (fs : List Fld) (i : Nat) : State :=
  fs.foldl (fun s f => { s.fset f i f.reset with staged := Tab.erase s.staged (f.key i) }) s

/-- Reset a function's rings, MSI-X state and reads (R250 steps 1 to 3 and 5). -/
def State.resetFunc (s : State) (func : Nat) : State :=
  let ks := ringsOf func
  let s := (List.range 64).foldl (fun s l => match (s.lane l).ring with
    | none => s
    | some k => if k / 128 = func then s.unbindLane l else s) s
  let s := ks.foldl (fun s k => (s.setRing k .empty).resetFields ringFields k) s
  { s with
    reads := s.reads.filter (fun r => r.func != func || (match r.use with
      | .chunk _ _ _ => true
      | _ => false))
    msix := Tab.keep s.msix (fun k _ => k / 65536 != func)
    msixPending := s.msixPending.filter (fun v => v / 65536 != func)
    busMaster := s.busMaster.filter (fun f => f != func)
    ats := s.ats.filter (fun f => f != func) }

/-- A function level reset (R250): a command in progress runs to its end with its writes discarded, and so does an item
that was accepted, whose completion is discarded. -/
def State.flr (s : State) (func : Nat) : State :=
  let left := (ringsOf func).map (fun k => (k, if s.fget F.RING_CFG_KIND k = 1 then [] else
    ((s.ring k).taken.filter (fun (t : Taken) => t.checked && t.slot)).map (fun (t : Taken) => { t with orphan := true })))
  let s := { s with items := Tab.mapv s.items (fun _ (x : ItemCtx) =>
    { x with origin := x.origin.map (fun (o : Origin) => if !o.canopy && o.func == func then { o with number := 2 ^ 32 } else o) }) }
  left.foldl (fun s (p : Nat × List Taken) => if p.2.isEmpty then s else s.setRing p.1 { s.ring p.1 with taken := p.2 })
    (s.resetFunc func)

/-! BUS_MASTER_ENABLE stands in Items.lean, the function level resets in Keep.lean. -/

/-- LINK_RETRAIN (R230, R231). -/
def pcieGbs (gen width : Nat) : Nat :=
  let rate := if gen = 6 then 64 else if gen = 5 then 32 else if gen = 4 then 16 else if gen = 3 then 8 else 0
  1120 * rate * width / (64 * 16)

/-- LINK_RETRAIN (R231): a retrain to a lower rate or width, which the first training is not, is reported, and the items
under way may be late for it; a retrain to more does not clear anything. -/
def execLinkRetrain (gen width : Nat) (flit : Bool) (s : State) : Res :=
  if !s.power.linkUp || gen = 0 || 6 < gen || !(width == 1 || width == 2 || width == 4 || width == 8 || width == 16) then .next s
  else
    let lower := s.fget F.HIF_LINK_GEN 0 != 0
      && (decide (gen < s.fget F.HIF_LINK_GEN 0) || decide (width < s.fget F.HIF_LINK_WIDTH 0))
    let s := s.fset F.HIF_LINK_GEN 0 gen
    let s := s.fset F.HIF_LINK_WIDTH 0 width
    let s := s.fset F.HIF_LINK_FLIT 0 (ofBool flit)
    let s := s.fset F.ADM_CAPS_PCIE_GBS 0 (pcieGbs gen width)
    if lower then
      let s := { s with items := Tab.mapv s.items (fun _ (x : ItemCtx) => if x.input then { x with slow := true } else x) }
      .next ((s.flag F.HIF_STATUS_LINK_DEGRADED 0).log { code := 0x0C01, argA := 0, argB := width * 16 + gen })
    else .next s

end Sys2Proof.Machine
end

