-- ==== Sys2Proof/Machine/Items.lean ====
section
/-! DEFINITION. Items (R209, R219 to R227, R464): the join of inputs and triggers, item-created
messages, positions, record reads that fail, and the item lookup. -/

namespace Sys2Proof.Machine

/-! ### Acceptance (R32, R209, R222) -/

/-- The entry core's clock at a time: one cycle is 0.625 ns. -/
def coreCycles (ns : Nat) : Nat := ns * 8 / 5 % 2 ^ 32

/-- The epochs under which a lane's stages serve an item that begins now. -/
def State.laneEpochs (s : State) (l : Nat) : Tab Nat :=
  let x := s.lane l
  x.chain.zipIdx.map (fun (p : LaneStage × Nat) =>
    (p.2, (s.epoch (stageKey x.context x.model p.1.stage)).cur))

/-- Accept an item's input in a record: RUNNING, numbered within its lane, and remembered for the
ranges of later convictions. -/
def State.acceptItem (s : State) (n : Nat) (o : Option Origin) (t : Nat) : State :=
  match s.item n with
  | none => s
  | some x =>
    let l := s.lane x.lane
    let s := s.setItem n { x with
      state := .running, indexed := true, input := true, accept := coreCycles t, lseq := l.lseq
      acceptNs := t, origin := o, epochs := s.laneEpochs x.lane, inLeft := l.inBytes, unshielded := l.unshielded }
    s.setLane x.lane { l with lseq := (l.lseq + 1) % 2 ^ 32, begun := l.begun ++ [(x.item, s.ns)] }

/-- The join of an input with its context (Table 9.7): the record it runs in, or a status. -/
def State.joinInput (s : State) (l item : Nat) (o : Option Origin) (t : Nat) : State × Option Nat × Nat :=
  match s.ctxOn item l with
  | some (n, x) =>
    if x.state = .created then (s.acceptItem n o t, some n, 0)
    else (s.count C.CTX_CNT_DUP 0, none, 0x42)
  | none =>
    match s.ctxsOf item with
    | (n, x) :: _ =>
      (if x.state = .created && x.trig then s.sendVerdict n 0xFF else s, none, 0x47)
    | [] =>
      if !s.canCreate then (s, none, 0x43)
      else
        let n := s.freeRecord
        let s := s.createItem (ItemCtx.fresh item l)
        (s.acceptItem n o t, some n, 0)

/-- ITEM (R222, R238): the join, and the read of the input. -/
def execItem (func ring : Nat) (s : State) : Res :=
  let k := ringKey func ring
  match s.cmd k 1 with
  | none => .next s
  | some t =>
    let d := t.bytes
    let s := s.begun k t.number
    let peer := bit (d.getD 1 0) 0
    let o : Origin := ⟨func, k, leAt d 4 4, dInAddr d, dInLen d, dOutAddr d, dOutLen d, false, peer, t.number⟩
    match s.joinInput (dLane d) (dItem d) (some o) t.takenNs with
    | (s, none, st) => .next (s.complete k t.number { status := st, item := true, verdict := 0xFF, lat := s.sinceTake k t.number })
    | (s, some n, _) =>
      if s.busMaster.contains func then .next (s.hostRead func (dInAddr d) (dInLen d) (.input n 0) peer)
      else
        -- a read that cannot be issued (R250)
        match s.item n with
        | none => .next s
        | some x => .next (if (s.lane x.lane).field && x.trig then s.sendVerdict n 0xFF else s)

/-- BUS_MASTER_ENABLE (R250): accepted items whose reads could not be issued end. -/
def execBusMasterEnable (func : Nat) (s : State) : Res :=
  if 32 < func then .next s
  else
    let s := if s.busMaster.contains func then s else { s with busMaster := s.busMaster ++ [func] }
    let stuck := s.items.filter (fun (p : Nat × ItemCtx) =>
      p.2.origin.elim false (fun o => o.func == func && !o.canopy) && p.2.inLeft != 0 && p.2.input
        && !s.reads.any (fun r => match r.use with
          | .input n _ => n == p.1
          | _ => false))
    .next (stuck.foldl (fun s (p : Nat × ItemCtx) => s.inputLost p.1 0x64) s)

/-! ### Canopy-input lanes (R209, R318) -/

/-- A vector of a stage lands in its entry core, which sends the other cores their K parts. -/
def State.enterVec (s : State) (c : Nat) (v : VecIn) (elems : Nat) : State :=
  let s := s.landVec c v true elems
  match (s.core c).vins.find? (fun y => y.lane == v.lane && y.item == v.item && y.index == v.index) with
  | none => s
  | some y => s.sendKParts c y

/-- The input vector that a packet carries; `seq` holds the packet's number and whether an ITEM thread
sent it. -/
def Packet.vec (p : Packet) (lane : Nat) : VecIn :=
  ⟨lane, p.item, p.vseq, p.epoch, 0, [], p.payload, false, false, false, false, false, false, false,
    if p.remote then 41 else p.src, p.key * 2 + (p.thread.getD 0) % 2⟩

/-- A queued packet of an accepted item enters the lane's first stage. -/
def State.enterPacket (s : State) (l n : Nat) (p : Packet) : State :=
  let x := s.lane l
  match (s.model x.context x.model).bind (fun (m : Model) => m.stage x.first) with
  | none => s
  | some (r : StageRec) =>
    let s := match s.item n with
      | none => s
      | some c => s.setItem n { c with inLeft := c.inLeft - p.payload.length }
    s.enterVec r.entry (p.vec l) r.inElems

/-- Return an item credit to the peer that feeds a lane (R318): a binding message. -/
def State.returnCredit (s : State) (l item : Nat) : State :=
  match (s.lane l).peerIn with
  | none => s
  | some dev => s.toPeer { Packet.empty with
      typ := .binding, src := 42, dst := 42, dev := dev, context := (s.lane l).context
      model := (s.lane l).model, lane := l, item := item, nOff := 3 }

/-- FIRST_PACKET_TAKE (R209): at most one item per P; a suspended lane drops the item. -/
def execFirstPacketTake (l : Nat) (s : State) : Res :=
  let x := s.lane l
  match x.queue with
  | [] => .next s
  | p :: _ =>
    let paced := match x.lastTake with
      | none => true
      | some t => decide (t + x.period ≤ s.ns)
    if !s.serving || !s.laneUp l || s.ctxHeld x.context || !paced then .next s
    else
      let mine := x.queue.filter (fun q => q.item == p.item)
      let s := s.setLane l { x with queue := x.queue.filter (fun q => q.item != p.item), lastTake := some s.ns }
      if s.laneState l = 3 then .next (s.returnCredit l p.item)
      else
        let o : Origin := ⟨0, 0, 0, 0, x.inBytes, 0, 0, true, true, 0⟩
        match s.joinInput l p.item (some o) s.ns with
        | (s, none, _) => .next (s.returnCredit l p.item)
        | (s, some n, _) => .next (mine.foldl (fun s q => s.enterPacket l n q) s)

/-! ### Item-created (R222, R224, R225) -/

/-- A position message closes the contexts of an encoder that have been passed (R224). -/
def State.positionAt (s : State) (e pos : Nat) : State :=
  let done := s.items.filter (fun (p : Nat × ItemCtx) =>
    p.2.trig && p.2.encoder == e && p.2.field && serialGe pos p.2.closing
      && !(p.2.input && p.2.inLeft != 0))
  let s := { s with bar := { s.bar with positions := Tab.set s.bar.positions e pos } }
  done.foldl (fun s (p : Nat × ItemCtx) =>
    let s := if p.2.state = .created then s.countAt C.CTX_CNT_NOINPUT 0 0 1 else s
    s.closeItem p.1) s

/-- The trigger part of a context: position, encoder, trigger input, due and closing positions. -/
def State.withTrigger (s : State) (x : ItemCtx) (enc trig pos : Nat) : ItemCtx :=
  { x with trig := true, encoder := enc, trigger := trig, trigPos := pos, due := s.dueList x.lane pos
           closing := s.closingPos x.lane pos }

/-- An item-created message (Table 9.7): lane, encoder, trigger input, item, position. -/
def State.itemCreated (s : State) (l enc trig item pos : Nat) : State :=
  let s := s.positionAt enc pos
  match s.ctxOn item l with
    | some (n, x) =>
      if x.trig || !(x.state == .running || x.state == .formed) then s.count C.CTX_CNT_DUP 0
      else s.setItem n (s.withTrigger x enc trig pos)
    | none =>
      if !(s.ctxsOf item).isEmpty then s.count C.CTX_CNT_DUP 0
      else if !s.laneUp l then s.count C.CTX_CNT_NOLANE 0
      else if !s.canCreate then
        let s := s.toField (msgVerdict l 0xFF item 0)
        let s := s.count C.CTX_CNT_NOCTX 0
        let s := s.flag F.CTX_STATUS_EXHAUSTED_SEEN 0
        s.logRate 1000000 0 { code := 0x0B02, context := (s.lane l).context, lane := l, item := item }
      else
        let n := s.freeRecord
        let s := s.createItem (s.withTrigger (ItemCtx.fresh item l) enc trig pos)
        -- a suspended lane's triggers take the withheld action at once (R219)
        if s.laneState l = 3 then s.sendVerdict n 0xFF else s

/-! ### The loss of a record (R226) -/

/-- A context record's read fails (R226). -/
def State.recordLost (s : State) (n : Nat) : State :=
  match s.item n with
  | none => s
  | some x =>
    let s := s.abandon x.lane x.item
    -- no verdict crosses before the item-created message has come (R34)
    let s := if x.state = .sent || x.state = .withheld || x.state = .retracted || !(s.lane x.lane).field || !x.trig then s
      else s.sendVerdict n 0xFF
    let s := s.completeItem n 0x46 0xFF
    let s := s.count C.CTX_CNT_UE 0
    let s := s.flag F.CTX_STATUS_UE_SEEN 0
    let s := s.log { code := 0x0B04, context := (s.lane x.lane).context, lane := x.lane, item := x.item }
    s.closeItem n

/-! ### The lookup (R227) -/

/-- The 128 bytes of a context record (Table 9.5). -/
def ItemCtx.bytes (x : ItemCtx) : List Nat :=
  let st := match x.state with
    | .created => 1
    | .running => 2
    | .formed => 3
    | .sent => 4
    | .withheld => 5
    | .retracted => 6
  bytesOf 6 x.item ++ [x.lane, st + 8 * ofBool x.trig + 16 * ofBool x.input + 32 * ofBool x.cpl + 64 * ofBool x.indexed,
    x.trigger + 16 * x.encoder, x.verdict] ++ bytesOf 2 x.confidence ++ bytesOf 4 x.trigPos ++ bytesOf 4 x.accept
    ++ bytesOf 4 x.lseq ++ slice x.feature 0 8
    ++ (List.range 8).flatMap (fun k => bytesOf 4 (x.due.getD k 0xFFFFFFFF))
    ++ (List.range 32).flatMap (fun i => bytesOf 2 (Tab.getD x.epochs i 0))

/-- ITEM_LOOKUP (R227): ITEM_SEL_HI is written, and the lookup runs at once.  An item of a
confidential context is foreign to the PF (R369). -/
def execItemLookup (value : Nat) (s : State) : Res :=
  let s := s.fset F.ITEM_SEL_HI_ID_HI 0 (bits value 0 16)
  let s := s.fset F.ITEM_SEL_HI_LANE 0 (bits value 16 6)
  let item := s.fget F.ITEM_SEL_LO_ID_LO 0 + bits value 0 16 * 2 ^ 32
  let l := bits value 16 6
  match s.ctxOn item l with
  | none =>
    let s := s.fset F.ITEM_STATUS_FOUND 0 0
    let s := s.fset F.ITEM_STATUS_INDEXED 0 0
    .next (s.fset F.ITEM_STATUS_HIDDEN 0 0)
  | some (_, x) =>
    let hid := s.conf (s.lane l).context
    let s := s.fset F.ITEM_STATUS_FOUND 0 (ofBool (!hid))
    let s := s.fset F.ITEM_STATUS_INDEXED 0 (ofBool (!hid && x.indexed))
    .next (s.fset F.ITEM_STATUS_HIDDEN 0 (ofBool hid))

end Sys2Proof.Machine
end

