-- ==== Sys2Proof/Machine/Programs.lean ====
section
/-! DEFINITION. What the loader and the admission engine read from stage programs (R146, R154,
R160, R168, R193, R211): the instructions that an entry issues, their work, the flows of a stage
on the fabric, and exact fractions. -/

namespace Sys2Proof.Machine

/-! ### Fractions -/

/-- An exact non-negative quantity: numerator and a denominator above 0. -/
abbrev Frac := Nat × Nat

/-- A whole number. -/
def Frac.nat (n : Nat) : Frac := (n, 1)
/-- Sum. -/
def Frac.add (a b : Frac) : Frac := if a.2 = b.2 then (a.1 + b.1, a.2) else (a.1 * b.2 + b.1 * a.2, a.2 * b.2)
/-- Product with a number. -/
def Frac.scale (a : Frac) (n : Nat) : Frac := (a.1 * n, a.2)
/-- Product. -/
def Frac.mul (a b : Frac) : Frac := (a.1 * b.1, a.2 * b.2)
/-- Whether one is at most the other. -/
def Frac.le (a b : Frac) : Bool := decide (a.1 * b.2 ≤ b.1 * a.2)
/-- The larger. -/
def Frac.max (a b : Frac) : Frac := if a.le b then b else a
/-- Rounded up. -/
def Frac.up (a : Frac) : Nat := ceilDiv a.1 (Nat.max 1 a.2)
/-- Rounded down. -/
def Frac.down (a : Frac) : Nat := a.1 / Nat.max 1 a.2
/-- Sum of a list. -/
def Frac.sum (l : List Frac) : Frac := l.foldl Frac.add (0, 1)
/-- Largest of a list. -/
def Frac.maxOf (l : List Frac) : Frac := l.foldl Frac.max (0, 1)

/-! ### Traces (R168) -/

/-- The instructions that an entry issues, with every loop expanded, from a PC to its END; none
where they are more than the fuel. -/
def traceEntry (pm : List Nat) : Nat → Nat → List LoopFrame → Option (List (Nat × Nat))
  | 0, _, _ => none
  | n + 1, pc, ls =>
    let w := pm.getD pc 0
    if pm.length ≤ pc then none
    else if insOp w = 0x01 then some [(pc, w)]
    else
      let r := if insOp w = 0x04 then (pc + 1, ({ first := pc + 1, last := bits w 16 11, left := bits w 0 16 - 1 } : LoopFrame) :: ls)
        else stepPc pc ls
      (traceEntry pm n r.1 r.2).map (fun l => (pc, w) :: l)

/-- The most instructions an ITEM entry may issue. -/
def maxItem : Nat := 65535

/-- More than any INIT entry issues: 2,048 instructions under four nested loops of 65,535. -/
def maxInit : Nat := 2 ^ 75

/-- The words that a program's VEC entry issues, END included. -/
def Program.vecTrace (g : Program) : List Nat :=
  ((traceEntry g.words (maxItem + 1) g.vecPc []).getD []).map Prod.snd

/-- The words that its ITEM entry issues. -/
def Program.itemTrace (g : Program) : List Nat :=
  match g.itemPc with
  | none => []
  | some pc => ((traceEntry g.words (maxItem + 1) pc []).getD []).map Prod.snd

/-! ### Vector-unit work (Table 6.5, R154) -/

/-- Issue cycles of an instruction in the vector unit. -/
def vuCycles (w : Nat) : Nat :=
  if insOp w = 0x08 then ceilDiv (bits w 4 8 + 1) 256 + 2
  else if insOp w = 0x09 then
    let o := vopOp w
    let e := ceilDiv o.n 256
    if o.op ≤ 0x11 then e
    else if o.op ≤ 0x28 then ceilDiv o.n 64
    else if o.op ≤ 0x33 then e + 8
    else if o.op = 0x38 then 2 * e + ceilDiv o.n 64 + 20
    else if o.op = 0x3C || o.op = 0x3D then 2 * e + 12
    else if o.op = 0x40 || o.op = 0x41 then e * bits o.param 0 8
    else ceilDiv o.n 128
  else 0

/-- Vector-unit cycles attached to the slot of an item's last vector. -/
def Program.vuWork (g : Program) : Nat := (g.vecTrace ++ g.itemTrace).foldl (fun n w => n + vuCycles w) 0

/-- The programs of a stage, by position. -/
def Model.stagePrograms (m : Model) (r : StageRec) : List Program :=
  (List.range r.cores).filterMap (fun p => m.programs.find? (fun g => g.stage == r.stage && g.pos == p))

/-- The mapping entries of a core position. -/
def Model.mapsAt (m : Model) (stage pos : Nat) : List MapEnt :=
  m.maps.filter (fun e => e.stage == stage && e.pos == pos)

/-- The heads of a program's scratch chains: the lowest scratch engine of each ISSUE that names some (R81, log entry
114). -/
def scratchHeads (ws : List Nat) : List Nat :=
  ((ws.filter (fun w => insOp w == 0x05 && decide (32 ≤ (issueOp w).last))).map (fun w => Nat.max 32 (issueOp w).first)).dedup

/-- The heads of a core position: engine and used columns of each, those of scratch chains 256. -/
def headsOf (ms : List MapEnt) (ws : List Nat) : List (Nat × Nat) :=
  (ms.filter (fun e => e.chainPos == 0)).map (fun e => (e.engine, e.cols)) ++ (scratchHeads ws).map (fun e => (e, planCols 0))

/-- The columns that engines `first` to `last` cover. -/
def colsIn (hs : List (Nat × Nat)) (first last : Nat) : Nat :=
  (hs.filter (fun h => decide (first ≤ h.1) && decide (h.1 ≤ last))).foldl (fun n h => n + h.2) 0

/-- The columns that a DRAIN covers. -/
def drainColumns (hs : List (Nat × Nat)) (o : DrainOp) : Nat := colsIn hs o.first o.last

/-- The heads of a loaded position. -/
def Model.headsAt (m : Model) (g : Program) : List (Nat × Nat) := headsOf (m.mapsAt g.stage g.pos) g.vecTrace

/-- The most columns that begin with a descriptor: those of a drain whose NEXT it is, or all where the stage starts
with it. -/
def beginCols (hs : List (Nat × Nat)) (ws : List Nat) (begin0 begin1 i : Nat) : Nat :=
  ws.foldl (fun n w =>
    if insOp w = 6 && !(drainOp w).nextZero && (drainOp w).next == i then Nat.max n (drainColumns hs (drainOp w)) else n)
    (if begin0 = i ∨ begin1 = i then colsIn hs 0 35 else 0)

/-- The vector-unit cost of descriptor `i` where its preloads may fall back (R93): ⌈columns ÷ 256⌉ × 8. -/
def fallbackCost (hs : List (Nat × Nat)) (ws : List Nat) (begin0 begin1 : Nat) (d : Desc) (i : Nat) : Nat :=
  if d.fallback then ceilDiv (beginCols hs ws begin0 begin1 i) 256 * 8 else 0

/-- The cost of the stage's largest FALLBACK descriptor (Table 9.2). -/
def Model.fallbackWork (m : Model) (r : StageRec) (descs : Nat → Nat → Desc) : Nat :=
  (m.stagePrograms r).foldl (fun t g => (List.range 64).foldl (fun t i =>
    Nat.max t (fallbackCost (m.headsAt g) (g.vecTrace ++ g.itemTrace) g.begin0 g.begin1 (descs g.pos i) i)) t) 0

/-! ### Flows (R190, R192, R193) -/

/-- The router of a node, and its port for an edge node (Table 8.1): 0 north, 1 east, 2 south,
3 west, 4 local. -/
def nodeAt (n : Nat) : Nat × Option Nat :=
  if n < 32 then (n, none)
  else if n < 36 then ((n - 32) * 8, some 3)
  else if n < 40 then ((n - 36) * 8 + 7, some 1)
  else if n = 40 then (27, some 2)
  else if n = 41 then (4, some 0)
  else if n = 42 then (3, some 0)
  else if n = 43 then (28, some 2) else (26, some 2)

/-- The outbound links of a route between routers in dimension order (R190): router * 8 + port. -/
def routeLinks (a b : Nat) : List Nat :=
  let ca := a % 8
  let cb := b % 8
  let ra := a / 8
  let rb := b / 8
  let row := if ca ≤ cb then (rangeFrom ca (cb - ca)).map (fun c => (ra * 8 + c) * 8 + 1)
    else (List.range (ca - cb)).map (fun i => (ra * 8 + (ca - i)) * 8 + 3)
  let col := if ra ≤ rb then (rangeFrom ra (rb - ra)).map (fun r => (r * 8 + cb) * 8 + 2)
    else (List.range (ra - rb)).map (fun i => ((ra - i) * 8 + cb) * 8)
  row ++ col

/-- The links of a route between nodes, and its hop count. -/
def nodeLinks (a b : Nat) : List Nat × Nat :=
  let (x, _) := nodeAt a
  let (y, q) := nodeAt b
  let l := routeLinks x y
  let l := match q with
    | none => l
    | some p => l ++ [y * 8 + p]
  (l, l.length + (if 32 ≤ a then 1 else 0))

/-- The flits of a message of `n` payload bytes, headers included (R192). -/
def msgFlits (n : Nat) : Nat :=
  let f := ceilDiv n 64
  f + Nat.max 1 (ceilDiv f 64)

/-- One flow: its stage, its nodes, the flits of its messages, and the planes of its stage's slots. -/
structure Flow where
  stage : Nat
  src : Nat
  dst : Nat
  flits : Nat
  planes : Nat
  /-- 0 K part, 1 group, 2 exit part, 3 vector, 4 signal -/
  kind : Nat
  /-- the peer device that it goes to, 255 where it stays on this device -/
  dev : Nat := 255
  deriving DecidableEq, Repr

/-- The load of a flow in 1/13440 flit per ns: f ÷ (planes × 16 ns). -/
def Flow.load (f : Flow) : Nat := f.flits * 840 / Nat.max 1 f.planes

/-- 6 flits per ns in that unit (R193). -/
def maxLoad : Nat := 80640

/-- The bytes of a column's value in a group transfer (log entry 34). -/
def groupBytes : Nat := 8

/-- The staging format of the first ISSUE of a program that names its input. -/
def Program.inFmt (g : Program) : Nat :=
  ((g.vecTrace.find? (fun w => insOp w == 0x05 && insAs w == 1)).map (fun w => bits w 19 4)).getD 0

/-- The flows of a stage whose cores are placed (R136, R169, R193).  The epoch closes of a switch belong to no flow: the
example after R220 counts a link's vector flow alone. -/
def Model.flows (m : Model) (r : StageRec) : List Flow :=
  let cores := r.placed.zipIdx
  let key := stageKey m.context m.id r.stage
  let fmt := ((m.stagePrograms r).head?.map (fun g => g.inFmt)).getD 0
  let kparts := (cores.filter (fun (c : Nat × Nat) => c.2 != r.entryPos)).map (fun (c : Nat × Nat) =>
    let ms := m.mapsAt r.stage c.2
    let lo := ms.foldl (fun b e => Nat.min b e.kOff) (2 ^ 32)
    let hi := ms.foldl (fun b e => Nat.max b (e.kOff + e.rows)) 0
    ({ stage := key, src := r.entry, dst := c.1, flits := msgFlits (fmtBytes fmt (hi - lo)), planes := r.slotPlanes, kind := 0 } : Flow))
  let sends := cores.flatMap (fun (c : Nat × Nat) =>
    match m.programs.find? (fun g => g.stage == r.stage && g.pos == c.2) with
    | none => []
    | some g =>
      (g.vecTrace ++ g.itemTrace).filterMap (fun w =>
        if insOp w = 0x06 && (drainOp w).group then
          some ({ stage := key, src := c.1, dst := r.chainExit c.2, flits := msgFlits (drainColumns (m.headsAt g) (drainOp w) * groupBytes)
                  planes := r.slotPlanes, kind := 1 } : Flow)
        else if insOp w = 0x0D then
          some ({ stage := key, src := c.1, dst := 41, flits := msgFlits 64, planes := r.slotPlanes, kind := 4
                  dev := if bit w 57 then 255 else bits w 50 7 } : Flow)
        else if insOp w = 0x07 then
          let o := sendOp w
          let dst := if o.dest = 1 then r.exit else if o.dest = 3 then 41
            else (m.nextOn r).elim r.exit (fun n => n.entry)
          some ({ stage := key, src := c.1, dst := dst, flits := msgFlits (o.len * 64), planes := r.slotPlanes
                  kind := if o.dest = 1 then 2 else 3, dev := if o.dest = 3 then r.nextDevice else 255 } : Flow)
        else none))
  (kparts ++ sends).eraseDups.filter (fun f => f.src != f.dst)

/-- The flow of input vectors from the Canopy node to the entry core of a lane's first stage. -/
def Model.inFlow (m : Model) (x : Lane) : List Flow :=
  match (if x.src then m.stage x.first else none) with
  | none => []
  | some r => [{ stage := stageKey m.context m.id r.stage, src := 41, dst := r.entry
                 flits := msgFlits (ceilDiv x.inBytes (Nat.max 1 r.vecPerItem)), planes := r.slotPlanes, kind := 3 }]

/-- The committed flows of the lanes in a list. -/
def State.laneFlows (s : State) (ls : List Nat) : List Flow :=
  (ls.flatMap (fun l =>
    let x := s.lane l
    match s.model x.context x.model with
    | none => []
    | some m => m.inFlow x ++ x.chain.flatMap (fun q => match m.stage q.stage with
      | none => []
      | some r => m.flows r))).eraseDups

/-- The lanes that hold reservations: every lane that is not free. -/
def State.held (s : State) : List Nat := s.laneList

/-- The load of a link under a list of flows. -/
def linkLoad (fs : List Flow) (link : Nat) : Nat :=
  (fs.filter (fun f => (nodeLinks f.src f.dst).1.contains link)).foldl (fun n f => n + f.load) 0

/-- F of R193 for a route: the flits of the flows on its most loaded link. -/
def routeF (fs : List Flow) (f : Flow) : Nat :=
  let ls := (nodeLinks f.src f.dst).1
  let best := ls.foldl (fun (b : Option (Nat × Nat)) l =>
    let v := linkLoad fs l
    match b with
    | none => some (l, v)
    | some (k, w) => if w < v then some (l, v) else some (k, w)) none
  match best with
  | none => f.flits
  | some (l, _) => (fs.filter (fun g => (nodeLinks g.src g.dst).1.contains l)).foldl (fun n g => n + g.flits) 0

/-- t_fab of a flow (R193). -/
def tFab (fs : List Flow) (f : Flow) : Frac :=
  (40 + 4 * (nodeLinks f.src f.dst).2 + routeF fs f, 2)

end Sys2Proof.Machine
end

