-- ==== Sys2Proof/Machine/CnpOps.lean ====
section
/-! DEFINITION. Topology and routes between devices (R306, R307), and the link terms that admission
counts (R320, R321). -/

namespace Sys2Proof.Machine

/-- The three dimensions. -/
def State.dims (s : State) : List Nat :=
  [s.fget F.CNP_TOPO_DIM_X 0, s.fget F.CNP_TOPO_DIM_Y 0, s.fget F.CNP_TOPO_DIM_Z 0]

/-- This device's identifier. -/
def State.me (s : State) : Nat := s.fget F.CNP_TOPO_ID_DEVICE 0

/-- Coordinate `d` (0 X, 1 Y, 2 Z) of an identifier under dimensions (R306). -/
def coord (dims : List Nat) (dev d : Nat) : Nat :=
  let x := Nat.max 1 (dims.getD 0 1)
  let y := Nat.max 1 (dims.getD 1 1)
  if d = 0 then dev % x else if d = 1 then dev / x % y else dev / (x * y)

/-- The identifier at coordinates. -/
def devAt (dims : List Nat) (x y z : Nat) : Nat := x + dims.getD 0 1 * (y + dims.getD 1 1 * z)

/-- The product of the dimensions. -/
def devices (dims : List Nat) : Nat := dims.foldl (fun n d => n * d) 1

/-- The dimension sequence of an ORDER (R307). -/
def orderSeq (o : Nat) : List Nat :=
  if o = 0 then [0, 1, 2] else if o = 1 then [0, 2, 1] else if o = 2 then [1, 0, 2]
  else if o = 3 then [1, 2, 0] else if o = 4 then [2, 0, 1] else [2, 1, 0]

/-- Whether a port is used under dimensions (R306): port 2d faces +, 2d + 1 faces −. -/
def portUsed (dims : List Nat) (p : Nat) : Bool :=
  let n := dims.getD (p / 2) 1
  if n ≤ 1 then false else if n = 2 then p % 2 == 0 else true

/-- The neighbour that a port faces, and that neighbour's port towards this device. -/
def neighbour (dims : List Nat) (dev p : Nat) : Nat × Nat :=
  let d := p / 2
  let n := Nat.max 1 (dims.getD d 1)
  let c (i : Nat) : Nat := if i = d then (if p % 2 = 0 then (coord dims dev i + 1) % n else (coord dims dev i + n - 1) % n)
    else coord dims dev i
  (devAt dims (c 0) (c 1) (c 2), if n = 2 then p else if p % 2 = 0 then p + 1 else p - 1)

/-- Steps that a route makes in a dimension, and whether in the + direction: the shorter way, + where
both are equal (R307). -/
def dimSteps (n a b : Nat) : Nat × Bool :=
  let up := (b + n - a) % Nat.max 1 n
  let down := (a + n - b) % Nat.max 1 n
  if up ≤ down then (up, true) else (down, false)

/-- The first port of the route to a device, and its number of links; none for this device. -/
def State.routeTo (s : State) (dev : Nat) : Option (Nat × Nat) :=
  let ds := s.dims
  let hops := [0, 1, 2].foldl (fun t d => t + (dimSteps (ds.getD d 1) (coord ds s.me d) (coord ds dev d)).1) 0
  let first := (orderSeq (s.fget F.CNP_TOPO_ID_ORDER 0)).find? (fun d => (dimSteps (ds.getD d 1) (coord ds s.me d) (coord ds dev d)).1 != 0)
  first.map (fun d => (2 * d + (if (dimSteps (ds.getD d 1) (coord ds s.me d) (coord ds dev d)).2 then 0 else 1), hops))

/-- A port's state: 0 down, 1 training, 2 keying, 3 up, 4 fenced, 5 unused. -/
def State.port (s : State) (p : Nat) : Nat := s.fget F.CNP_PORT_STATUS_STATE p

/-- The port of a route whose first link is up. -/
def State.portTo (s : State) (dev : Nat) : Option Nat :=
  if devices s.dims ≤ dev then none
  else match s.routeTo dev with
    | none => none
    | some (p, _) => if s.port p = 3 then some p else none

/-! ### Admission's link figures (R320, R321) -/

/-- The committed outbound flows of a port: the vectors and signals of lanes to a device behind it. -/
def State.portFlows (s : State) (ls : List Nat) (p : Nat) : List Flow :=
  (s.laneFlows ls).filter (fun f => f.dst == 41 && f.dev != 255 && (s.routeTo f.dev).elim false (fun q => q.1 == p))

/-- The link term of a Canopy crossing to or from a device beside the flows `fs`, its own among them: 800 ns,
300 ns + d per link, and 1.42 ns × F.  The delay of links beyond this device's own is taken as that
of its own port (log entry 35). -/
def State.linkTerm (s : State) (dev : Nat) (fs : List Flow) : Frac :=
  match s.routeTo dev with
  | none => (800, 1)
  | some (p, n) =>
    let f := fs.foldl (fun t g => t + g.flits) 0
    (80000 + n * 100 * (300 + s.fget F.CNP_PORT_DELAY_D_NS p) + 142 * f, 100)

/-- 162/256 flit per ns in the unit of `Flow.load`. -/
def maxPortLoad : Nat := 13440 * 162 / 256

end Sys2Proof.Machine
end

