-- ==== Sys2Proof/Machine/Admit.lean ====
section
/-! DEFINITION. Admission, release and suspension of lanes, and the cadence bank switch (R145,
R146, R206 to R219, R236, R318, R424, R463). -/

namespace Sys2Proof.Machine

/-! ### The contract (Table 9.1, R207) -/

/-- The lane that a contract describes, with nothing admitted. -/
def contractLane (b : List Nat) : Lane :=
  let f := b.getD 1 0
  let p := leAt b 24 4
  let sv := leAt b 28 4
  { ref := bit f 0, field := bit f 1, cpl := bit f 2, thermal := bit f 3, shield := bit f 4, src := bit f 5
    context := b.getD 2 0 % 32, encoder := b.getD 3 0, first := leAt b 4 2, last := leAt b 6 2
    model := leAt b 8 16, period := p, service := if sv = 0 then p else sv, deadline := leAt b 32 4
    fmax := leAt b 36 4, pitch := leAt b 40 4, travel := leAt b 44 4, submit := leAt b 48 4
    inBytes := leAt b 52 4, outBytes := leAt b 56 4, inRate := leAt b 60 4, outRate := leAt b 64 4 }

/-- Whether a contract is well formed (R207). -/
def contractOk (b : List Nat) : Bool :=
  let x := contractLane b
  let enc := x.ref || x.field
  decide (b.getD 0 0 ≤ 63) && decide (b.getD 1 0 < 64) && decide (b.getD 2 0 < 32)
    && (slice b 68 60).all (fun v => v == 0) && decide (x.encoder ≤ 3)
    && decide (1 ≤ x.inBytes) && decide (x.inBytes ≤ 16777216) && (x.field || x.cpl)
    && decide (1000 ≤ x.period) && decide (x.service ≤ x.period) && x.deadline != 0
    && (!enc || (decide (1 ≤ x.fmax) && decide (x.fmax ≤ 4000000)))
    && (!x.field || decide (x.period * x.fmax ≤ x.pitch * 1000000000))

/-- D_t in ns (R208). -/
def Lane.dt (x : Lane) : Frac :=
  if x.ref then ((x.deadline - 1) * 1000000000, Nat.max 1 x.fmax) else (x.deadline * 5, 8)

/-- H_lane. -/
def Lane.hFig (x : Lane) : Nat :=
  let a := (Frac.nat x.submit).add x.dt
  ceilDiv a.1 (a.2 * Nat.max 1 x.period) + 1

/-- C_lane. -/
def Lane.cFig (x : Lane) : Nat :=
  if x.field then Nat.max x.hFig (ceilDiv x.travel (Nat.max 1 x.pitch) + 2) else x.hFig

/-- The ingress reservation in bytes per ns. -/
def Lane.ingress (x : Lane) : Frac :=
  if x.inRate = 0 then (x.inBytes, Nat.max 1 x.period) else (x.inRate, 1000)

/-- The egress reservation in bytes per ns. -/
def Lane.egress (x : Lane) : Frac :=
  if x.outRate = 0 then (x.outBytes, Nat.max 1 x.period) else (x.outRate, 1000)

/-! ### The chain and what its stages need -/

/-- The stages from one to another through NEXT_STAGE links on this device. -/
def Model.chain (m : Model) : Nat → Nat → Nat → Option (List StageRec)
  | 0, _, _ => none
  | n + 1, a, b =>
    match m.stage a with
    | none => none
    | some r =>
      if a = b then some [r]
      else if r.last || r.nextDevice != 255 then none
      else (m.chain n r.nextStage b).map (fun l => r :: l)

/-- Bytes that an item fetches from and writes back to a spilled buffer of a position. -/
def Model.spillBytes (m : Model) (r : StageRec) (pos : Nat) (b : Buffer) : Nat × Nat :=
  match m.programs.find? (fun g => g.stage == r.stage && g.pos == pos) with
  | none => (0, 0)
  | some g =>
    let n (op : Nat) (l : List Nat) : Nat := (l.filter (fun w => insOp w == op && bits w 50 8 == b.buf)).length
    ((n 0x0A g.vecTrace * r.vecPerItem + n 0x0A g.itemTrace) * b.chunk,
     (n 0x0B g.vecTrace * r.vecPerItem + n 0x0B g.itemTrace) * b.chunk)

/-- The spilled buffers of a stage: buffer, F_b and W_b. -/
def State.spills (s : State) (m : Model) (r : StageRec) : List (Buffer × Nat × Nat) :=
  r.placed.zipIdx.flatMap (fun (c : Nat × Nat) =>
    ((s.core c.1).buffers.filter (fun b => b.spilled)).map (fun b => (b, m.spillBytes r c.2 b)))

/-- The reservation of a lane's spill streams that pass a test, in bytes per ns (Table 9.2). -/
def State.spillRate (s : State) (x : Lane) (f : Buffer × Nat × Nat → Nat) : Frac :=
  match s.model x.context x.model with
  | none => (0, 1)
  | some m =>
    (x.chain.filterMap (fun q => m.stage q.stage)).foldl (fun t r =>
      (s.spills m r).foldl (fun t b => t.add (f b, Nat.max 1 x.service)) t) (0, 1)

/-- Rows that an item writes into a scratch engine of a position (R151). -/
def Model.scratchRows (m : Model) (r : StageRec) (pos se : Nat) : Nat :=
  match m.programs.find? (fun g => g.stage == r.stage && g.pos == pos) with
  | none => 0
  | some g =>
    let n (l : List Nat) : Nat := (l.filter (fun w => insOp w == 0x08 && bits w 35 2 == se)).length
    n g.vecTrace * r.vecPerItem + n g.itemTrace

/-- g as a fraction: 1, or the guardband ratio for a lane with THERMAL set. -/
def State.guardRatio (s : State) (x : Lane) : Frac :=
  if x.thermal then (s.fget F.ADM_CAPS_GUARD 0, 4096) else (1, 1)

/-- t_int of a stage: the longest path of a group and an exit part. -/
def tInt (fs mine : List Flow) : Frac :=
  let gs := mine.filter (fun f => f.kind == 1)
  let es := mine.filter (fun f => f.kind == 2)
  let tail (n : Nat) : Frac := Frac.maxOf ((es.filter (fun f => f.src == n)).map (tFab fs))
  Frac.max (Frac.maxOf (gs.map (fun g => (tFab fs g).add (tail g.dst)))) (Frac.maxOf (es.map (tFab fs)))

/-- Every term of S_s but the slot wait (Table 9.2). -/
def State.stageX (s : State) (x : Lane) (m : Model) (r : StageRec) (fs : List Flow) : Frac :=
  let g := s.guardRatio x
  let ps := m.stagePrograms r
  let vu := ps.foldl (fun n p => Nat.max n p.vuWork) 0
  let fb := m.fallbackWork r (fun pos d => s.desc (r.placed.getD pos 0) d)
  let item := ps.foldl (fun n p => Nat.max n (if p.itemPc.isSome then p.itemCyc else 0)) 0
  let spill := Frac.maxOf ((s.spills m r).map (fun b =>
    (Frac.nat (if b.1.host then 3200 else 800)).add (b.1.chunk * x.service, Nat.max 1 (b.2.1 + b.2.2))))
  let slow : Frac := ((g.1 - g.2) * (16 * r.slotPlanes + 56), g.2)
  Frac.sum [(250, 1), slow, if r.cores ≤ 1 then (0, 1) else tInt fs (m.flows r), (vu * 5, 8), (fb * 5, 8),
    (item * 10, 8), spill]

/-- h_s (Table 9.2). -/
def Model.stageH (m : Model) (r : StageRec) (prev : Option StageRec) (fs : List Flow) : Frac :=
  let k := if r.cores ≤ 1 then (0, 1) else Frac.maxOf (((m.flows r).filter (fun f => f.kind == 0)).map (tFab fs))
  let v := match prev with
    | none => (0, 1)
    | some p => Frac.maxOf (((m.flows p).filter (fun f => f.kind == 3)).map (tFab fs))
  Frac.sum [(10, 1), k, v]

/-! ### Choosing entries (R213) -/

/-- The first position at or after `t`, cyclically, that passes a test. -/
def firstFrom (len t : Nat) (ok : Nat → Bool) : Option Nat :=
  ((List.range len).map (fun i => (t + i) % len)).find? ok

/-- Choose n entries spread over a table. -/
def spread (len n : Nat) (free : Nat → Bool) : Nat → List Nat → Option (List Nat)
  | 0, acc => some acc
  | k + 1, acc =>
    let j := n - (k + 1)
    match firstFrom len (j * len / n) (fun e => free e && !acc.contains e) with
    | none => none
    | some e => spread len n free k (acc ++ [e])

/-- Put numbers in ascending order. -/
def ascending (l : List Nat) : List Nat := l.foldl (fun t x =>
  t.filter (fun y => decide (y ≤ x)) ++ [x] ++ t.filter (fun y => decide (x < y))) []

/-- W_m of a list of ascending entries of a table (R146). -/
def slotWait (es : List Nat) (len m : Nat) : Nat :=
  let n := es.length
  (List.range n).foldl (fun w i =>
    Nat.max w (es.getD ((i + m) % n) 0 + (i + m) / n * len - es.getD i 0)) 0

/-- The loop of R213 from n on: the entries that meet the service period, none where n passes the
free entries. -/
def chooseLoop (len v : Nat) (free : Nat → Bool) (nFree : Nat) (fits : Nat → Bool) : Nat → Nat → Option (List Nat)
  | 0, _ => none
  | k + 1, n =>
    if nFree < n then none
    else
      match spread len n free n [] with
      | none => none
      | some es =>
        let es := ascending es
        if fits (slotWait es len v) then some es else chooseLoop len v free nFree fits k (n + 1)

/-- What R213 finds for a stage: entries; or code, NEEDED and AVAILABLE. -/
inductive Chosen where
  | entries (es : List Nat)
  | refuse (code needed available : Nat)
  deriving DecidableEq, Repr

/-- R213 for one stage on its inactive bank. -/
def State.chooseEntries (s : State) (x : Lane) (r : StageRec) (xs : Frac) : Chosen :=
  let c := r.placed.getD 0 0
  let bank := s.otherBank c
  let len := s.fget F.CORE_CAD_CFG_LEN c
  let slot := s.fget F.CORE_CAD_CFG_SLOT_PLANES c * 16
  let g := s.guardRatio x
  let kind (e : Nat) : Nat := entryKind (Tab.getD bank e 0)
  let free (e : Nat) : Bool := kind e == 0
  let noGlade (e : Nat) : Bool := kind e == 0 || kind e == 2
  let nFree := ((List.range len).filter free).length
  let nAll := ((List.range len).filter noGlade).length
  let fits (w : Nat) : Bool := ((Frac.scale g (w * slot)).add xs).le (x.service, 1)
  if Frac.le (x.service, 1) xs then .refuse 0x27 0xFFFFFFFF nFree
  else
    -- ceil(v * len * g * l / (p_svc - x))
    let num := r.vecPerItem * len * g.1 * slot * xs.2
    let den := g.2 * (x.service * xs.2 - xs.1)
    let n0 := Nat.max 1 (ceilDiv num (Nat.max 1 den))
    match chooseLoop len r.vecPerItem free nFree fits (len + 1) n0 with
    | some es => .entries es
    | none =>
      let empty (e : Nat) : Bool := kind e != 2
      let nEmpty := ((List.range len).filter empty).length
      let needed := (chooseLoop len r.vecPerItem empty nEmpty fits (len + 1) n0).elim 0xFFFFFFFF (fun es => es.length)
      match chooseLoop len r.vecPerItem noGlade nAll fits (len + 1) n0 with
      | some _ => .refuse 0x28 needed nFree
      | none => .refuse 0x27 needed nFree

/-! ### The checks (R214, R215) -/

/-- Check 0x31: the lane's field record, as the host section holds it, agrees with the contract; `on` is what the read
of FLD_LANE_STATUS has told (R215). -/
def State.fieldCheck (s : State) (l : Nat) (x : Lane) (on : Bool) : Bool :=
  !x.field || (on && s.copyByte l 1 % 4 == x.encoder && decide (x.pitch ≤ s.copyNum l 12 4)
    && decide (s.copyNum l 16 4 ≤ x.travel)
    && (List.range 8).all (fun k => !(s.copyByte l 8).testBit k || decide (s.copyNum l (20 + 4 * k) 4 ≤ x.travel)))

/-- The bytes of host memory that the buffers of a chain's stages take. -/
def State.hostSpill (s : State) (ch : List StageRec) : Nat :=
  (ch.flatMap (fun r => r.placed.flatMap (fun c => (s.core c).buffers.filter (fun b => b.host)))).foldl
    (fun n b => Nat.max n (b.home + b.size)) 0

/-- The model tests of R207 and R464 on a chain, that every stage runs, and that the host spill buffer that the lane
supplies holds the model's buffers in host memory (check 0x23; log entry 39).  Peers' stage records are not here to be
read: a first stage counts as one that a peer names where no stage of this device leads to it (log entry 123). -/
def State.modelCheck (s : State) (x : Lane) (m : Model) (ch : List StageRec) (spill : Nat × Nat) : Bool :=
  let need := s.hostSpill ch

  match ch.head?, ch.getLast? with
  | some f, some z =>
    ch.all (fun r => r.placed.all (fun c => s.fget F.CORE_STATUS_STATE c == 2))
      && (z.nextStage == 0xFFFF || z.nextDevice != 255 || z.last)
      && (!x.src || !m.stages.any (fun r => r.nextDevice == 255 && r.nextStage == f.stage && !r.last))
      && f.vecPerItem != 0 && x.inBytes % Nat.max 1 f.vecPerItem == 0
      && (m.stagePrograms f).all (fun g => fmtBytes g.inFmt f.inElems == x.inBytes / Nat.max 1 f.vecPerItem)
      && ch.all (fun r => (m.stagePrograms r).all (fun g => (g.vecTrace ++ g.itemTrace).all (fun w =>
          insOp w != 0x10 || decide (bits w 0 21 * 64 + bits w 21 16 * 64 ≤ x.outBytes))))
      && (need == 0 || (spill.1 != 0 && decide (need ≤ spill.2)))
  | _, _ => false

/-- A refusal's figures. -/
structure Refused where
  code : Nat
  stage : Nat := 0xFFFF
  needed : Nat := 0
  available : Nat := 0
  wcr : Nat := 0
  deriving DecidableEq, Repr

/-- What an admission commits for each stage of the chain. -/
abbrev ChainPlan := List (StageRec × List Nat × Nat × Frac × Frac)

/-- Entries, W, S and h of every stage in chain order, or the first refusal. -/
def State.planChain (s : State) (x : Lane) (m : Model) (fs : List Flow) : List StageRec → Option StageRec → ChainPlan → Refused ⊕ ChainPlan
  | [], _, acc => .inr acc
  | r :: rest, prev, acc =>
    let xs := s.stageX x m r fs
    match s.chooseEntries x r xs with
    | .refuse c n a => .inl { code := c, stage := r.stage, needed := n, available := a }
    | .entries es =>
      let c := r.placed.getD 0 0
      let w := slotWait es (s.fget F.CORE_CAD_CFG_LEN c) r.vecPerItem
      let sv := (Frac.scale (s.guardRatio x) (w * s.fget F.CORE_CAD_CFG_SLOT_PLANES c * 16)).add xs
      s.planChain x m fs rest (some r) (acc ++ [(r, es, w, sv, m.stageH r prev fs)])

/-- Σ over lanes of a fraction. -/
def State.sumLanes (s : State) (f : Lane → Frac) : Frac := Frac.sum (s.held.map (fun l => f (s.lane l)))

/-- The scratch check (R151, R424): the first stage whose scratch engine is overloaded. -/
def State.scratchCheck (s : State) (x : Lane) (m : Model) (ch : List StageRec) : Option Refused :=
  let g : Frac := (s.fget F.ADM_CAPS_GUARD 0, 4096)
  let rate (y : Lane) (n : Nat) : Frac := (n * 1000000000, Nat.max 1 y.period)
  (ch.flatMap (fun r => (List.range r.cores).flatMap (fun p => (List.range 4).filterMap (fun se =>
    let others := (s.lanesOf x.context x.model r.stage).map s.lane
    let n := m.scratchRows r p se
    let all := Frac.sum ((x :: others).map (fun y => rate y n))
    let hot := Frac.sum (((x :: others).filter (fun y => y.thermal)).map (fun y => rate y n))
    if all.le (247500000, 1) && (hot.mul g).le (247500000, 1) then none
    else
      let used := Frac.sum (others.map (fun y => rate y n))
      some { code := 0x29, stage := r.stage, needed := (rate x n).up, available := 247500000 - used.up })))).head?

/-- Refusal 0x2A of a link that carries `old` and would carry `new`: the lane's demand and what remains, in 1/256 flit
per ns (R216). -/
def overload (old new cap : Nat) : Option Refused :=
  if new ≤ cap then none
  else some { code := 0x2A, needed := ceilDiv ((new - old) * 256) 13440, available := (cap - old) * 256 / 13440 }

/-- The fabric check (R193): the committed flows before and with the new lane. -/
def fabricCheck (old fs : List Flow) : Option Refused :=
  let links := (fs.flatMap (fun f => (nodeLinks f.src f.dst).1)).eraseDups
  (links.filterMap (fun k => overload (linkLoad old k) (linkLoad fs k) maxLoad)).head?

/-- t_in (Table 9.2).  The device that will feed a Canopy-input lane binds only after the admission (R318), so the link
term is that of the farthest device (log entry 124). -/
def State.tIn (s : State) (x : Lane) (fs : List Flow) : Frac :=
  let body : Frac := if x.inRate = 0 then (x.period, 1) else (x.inBytes * 1000, x.inRate)
  if x.src then
    (Frac.maxOf (((List.range (devices s.dims)).filter (fun d => d != s.me)).map (fun d =>
      s.linkTerm d (fs.filter (fun f => f.src == 41))))).add body
  else (Frac.nat 2000).add body

/-- t_out (Table 9.2); `pfs` are the flows on the first port of the route to the peer, those of the lane among them. -/
def State.tOut (s : State) (x : Lane) (z : StageRec) (pfs : List Flow) : Frac :=
  let tv : Frac := if x.field then (1500, 1) else (0, 1)
  let tc : Frac :=
    if z.nextDevice != 255 && !z.last then
      s.linkTerm z.nextDevice pfs
    else if x.cpl then
      (Frac.nat 1000).add (if x.outBytes = 0 then (0, 1) else if x.outRate = 0 then (x.period, 1) else (x.outBytes * 1000, x.outRate))
    else (0, 1)
  tv.max tc

/-- The checks of Table 9.3 after 0x21 and 0x22, in order: a refusal, or the plan and R; `on` tells whether the field
lane is on. -/
def State.admission (s : State) (l : Nat) (x : Lane) (on : Bool) (spill : Nat × Nat) : Refused ⊕ (ChainPlan × Frac) :=
  match s.model x.context x.model with
  | none => .inl { code := 0x23 }
  | some m =>
    match (if m.state == .loaded then m.chain 33 x.first x.last else none) with
    | none => .inl { code := 0x23 }
    | some ch =>
      let x := { x with chain := ch.map (fun r => (⟨r.stage, [], 0, 0, 0⟩ : LaneStage)) }
      let pcie : Frac := (s.fget F.ADM_CAPS_PCIE_GBS 0 * 9, 100)
      let rate := (s.sumLanes (fun y => (1000000000, Nat.max 1 y.period))).add (1000000000, Nat.max 1 x.period)
      let t := s.setLane l x
      let fs := (s.laneFlows s.held ++ t.laneFlows [l]).eraseDups
      if !s.modelCheck x m ch spill then .inl { code := 0x23 }
      else if !s.fieldCheck l x on then .inl { code := 0x31 }
      else if x.shield && m.unshielded then .inl { code := 0x24 }
      else if s.fon F.ADM_STATUS_FROZEN 0 then .inl { code := 0x25 }
      else if !rate.le (32000000, 1) then .inl { code := 0x26 }
      else
        match s.planChain x m fs ch none [] with
        | .inl e => .inl e
        | .inr plan =>
          match s.scratchCheck x m ch with
          | some e => .inl e
          | none =>
            match fabricCheck (s.laneFlows s.held).eraseDups fs with
            | some e => .inl e
            | none =>
              let z := ch.getLastD (ch.headD ⟨0, 0, 0, 0, 0, 0, 0, false, false, 0, 0, 0, 0, 0, 0, 0, 0, 0, 0, [], 0, [], 0⟩)
              let out := z.nextDevice != 255 && !z.last
              let pfs := if out then t.portFlows (s.held ++ [l]) ((s.routeTo z.nextDevice).elim 0 (fun q => q.1)) else []
              let pold := if out then s.portFlows s.held ((s.routeTo z.nextDevice).elim 0 (fun q => q.1)) else []
              let port := overload (pold.foldl (fun n f => n + f.load) 0) (pfs.foldl (fun n f => n + f.load) 0) maxPortLoad
              let dram (y : Lane) (u : State) : Frac := u.spillRate y (fun b => if b.1.host then 0 else b.2.1 + b.2.2)
              let usedD := s.sumLanes (fun y => dram y s)
              let sumD := usedD.add (dram x t)
              let adm : Frac := (s.fget F.MEM_SHARE_ADM_ADM 0, 10)
              let inn (y : Lane) (u : State) : Frac := y.ingress.add (u.spillRate y (fun b => if b.1.host then b.2.1 else 0))
              let outt (y : Lane) (u : State) : Frac := y.egress.add (u.spillRate y (fun b => if b.1.host then b.2.2 else 0))
              let usedI := s.sumLanes (fun y => inn y s)
              let usedO := s.sumLanes (fun y => outt y s)
              let ten (f : Frac) : Frac := Frac.scale f 10
              let left (cap used : Frac) : Nat := (ten cap).down - (ten used).up
              let cSum := s.held.foldl (fun n k => n + (s.lane k).cCount) 0
              let hSum := s.held.foldl (fun n k => n + (s.lane k).hCount) 0
              let r := Frac.sum ([s.tIn x fs, s.tOut x z pfs, if m.unshielded || x.unshielded then (0, 1) else (80000, 1)]
                ++ plan.map (fun p => p.2.2.2.1.add p.2.2.2.2))
              match port with
              | some e => .inl e
              | none =>
              if !sumD.le adm then .inl { code := 0x2B, needed := (ten (dram x t)).up, available := left adm usedD }
              else if !(usedI.add (inn x t)).le pcie then .inl { code := 0x2C, needed := (ten (inn x t)).up, available := left pcie usedI }
              else if !(usedO.add (outt x t)).le pcie then .inl { code := 0x2D, needed := (ten (outt x t)).up, available := left pcie usedO }
              else if 983040 < cSum + x.cFig then .inl { code := 0x2E, needed := x.cFig, available := 983040 - cSum }
              else if s.freeCtx < 65536 then .inl { code := 0x2E, needed := 65536, available := s.freeCtx }
              else if 61440 < hSum + x.hFig then .inl { code := 0x2F, needed := x.hFig, available := 61440 - hSum }
              else if !r.le x.dt then .inl { code := 0x30, needed := r.up, available := x.dt.down, wcr := r.up }
              else .inr (plan, r)

/-! ### Results (R216) -/

/-- The admission result (Table 9.4), with the stage records of an admitted lane. -/
def resultBytes (status l stage needed avail wcr dt stages : Nat) (ch : List LaneStage) : List Nat :=
  [status, l] ++ bytesOf 2 stage ++ bytesOf 4 needed ++ bytesOf 4 avail ++ bytesOf 4 wcr ++ bytesOf 4 dt
    ++ bytesOf 4 stages ++ bytesOf 8 0
    ++ ch.flatMap (fun q => bytesOf 2 q.stage ++ bytesOf 2 q.entries.length ++ bytesOf 2 q.w ++ bytesOf 2 0
      ++ bytesOf 4 q.s ++ bytesOf 4 q.h)

/-- Write a result to the address that the command names, and complete the command. -/
def State.admResult (s : State) (k n : Nat) (b : List Nat) : State :=
  let s := s.fset F.ADM_STATUS_LAST_CODE 0 (b.getD 0 0)
  match s.takenDesc k n with
  | none => s
  | some t =>
    let f := s.ringFunc k (b.getD 1 0 |> fun l => (s.lane l).context)
    (s.cmdWrite k t f b).done k n (b.getD 0 0)

/-- N of a contract (Table 9.4): the stages from FIRST_STAGE to LAST_STAGE, 0 where no chain leads there. -/
def State.chainLen (s : State) (x : Lane) : Nat :=
  ((s.model x.context x.model).bind (fun (m : Model) => m.chain 33 x.first x.last)).elim 0 (fun l => l.length)

/-- Refuse a lane. -/
def State.admRefuse (s : State) (k n l : Nat) (x : Lane) (e : Refused) : State :=
  let s := s.countAt C.ADM_CNT_REFUSE 0 0 1
  let s := s.log { code := 0x0A02, context := x.context, lane := l, argA := e.code }
  s.admResult k n (resultBytes e.code l e.stage e.needed e.available e.wcr x.dt.down (s.chainLen x) [])

/-- The lane is admitted: reported, counted, its result written (R217). -/
def State.laneAdmitted (s : State) (l : Nat) : State :=
  let x := s.lane l
  let s := s.fset F.ADM_LANE_STATE_STATE l 2
  let s := s.countAt C.ADM_CNT_ADMIT 0 0 1
  let s := s.log { code := 0x0A01, context := x.context, lane := l }
  match x.waiter with
  | none => s
  | some (k, n) =>
    let s := s.setLane l { x with waiter := none }
    s.admResult k n (resultBytes 0 l 0xFFFF 0 0 (s.fget F.ADM_LANE_WCR_NS l) (s.fget F.ADM_LANE_DT_NS l) x.chain.length x.chain)

/-- Ask the cores of a stage for a bank switch. -/
def State.askSwitch (s : State) (cs : List Nat) : State :=
  cs.foldl (fun s c => s.flag F.CORE_CAD_STATUS_SWITCH_PENDING c) s

/-- Commit an admission: entries into the inactive banks, reservations, a free lane's counters. -/
def State.admCommit (s : State) (k n l : Nat) (x : Lane) (spill : Nat × Nat) (ring : Option Nat) (plan : ChainPlan) (r : Frac) : State :=
  let ch := plan.map (fun p => (⟨p.1.stage, p.2.1, p.2.2.1, p.2.2.2.1.up, p.2.2.2.2.up⟩ : LaneStage))
  let x := { x with chain := ch, hCount := x.hFig, cCount := x.cFig, spillAddr := spill.1, spillLen := spill.2
                    switches := ch.map (fun q => q.stage), waiter := some (k, n) }
  let s := s.setLane l x
  let s := plan.foldl (fun s p => p.1.placed.foldl (fun s c =>
    s.setOtherBank c (p.2.1.foldl (fun b e => Tab.set b e (64 + l)) (s.otherBank c))) s) s
  let s := plan.foldl (fun s p => s.askSwitch p.1.placed) s
  let s := s.fset F.ADM_LANE_STATE_STATE l 1
  let s := s.fset F.ADM_LANE_STATE_BROKEN l 0
  let s := s.fset F.ADM_LANE_STATE_THERMAL l (ofBool x.thermal)
  let s := s.fset F.ADM_LANE_STATE_FIELD l (ofBool x.field)
  let s := s.fset F.ADM_LANE_STATE_CONTEXT l x.context
  let s := s.fset F.ADM_LANE_STATE_SUSP_REASONS l 0
  let s := s.fset F.ADM_LANE_WCR_NS l r.up
  let s := s.fset F.ADM_LANE_DT_NS l x.dt.down
  let s := s.fset F.ADM_LANE_CNT_ITEM_COUNT l 0
  let s := s.fset F.ADM_LANE_CNT_LATE_COUNT l 0
  match ring with
  | none => s
  | some g => s.bindRing g l

/-! ### ADMIT (R206, R217, R241, R318) -/

/-- Commands that the admission engine and the loader take one at a time (R217). -/
def serialOps : List Nat := [0x13, 0x14, 0x15, 0x16]

/-- Whether an admission, a release, a load or an unload is in progress. -/
def State.admBusy (s : State) : Bool :=
  (List.range 64).any (fun l => s.laneState l == 1 || s.laneState l == 4 || (s.lane l).asked.isSome)
    || s.bar.proxy.any (fun p => p.own.any (fun q => q.contract.isSome)) || s.models.any (fun m => m.state == .starting || m.state == .unloading) || !s.keep.pend.isEmpty

/-- Whether a serialised command may run: nothing is in progress, and none taken earlier waits. -/
def State.serialTurn (s : State) (t : Taken) : Bool :=
  !s.admBusy && s.rings.all (fun (p : Nat × Ring) => p.2.taken.all (fun u =>
    !(u.checked && u.slot && !u.started && serialOps.contains (dOp u.bytes)) || decide (t.takenNs ≤ u.takenNs)))

/-- The binding query of a lane whose last stage sends to a peer (R318). -/
def State.bindQuery (s : State) (l : Nat) (x : Lane) (dev stage : Nat) : State :=
  s.toPeer { Packet.empty with
    typ := .binding, src := 42, dst := 255, dev := dev, dstStage := stage, context := x.context
    model := x.model, lane := l, nOff := 1 }

/-- The function through which a lane's host memory is reached: that of its item ring. -/
def State.laneFunc (s : State) (l : Nat) : Nat := (s.lane l).ring.elim 0 (fun k => k / 128)

/-- The initial contents of a new lane's buffers in host memory, from the context's copies (log entry 39). -/
def State.putHostSpill (s : State) (l : Nat) : State :=
  let x := s.lane l
  match s.model x.context x.model with
  | none => s
  | some m =>
    let bs := (x.chain.filterMap (fun q => m.stage q.stage)).flatMap (fun r => r.placed.flatMap (fun c =>
      (s.core c).buffers.filter (fun b => b.host)))
    bs.foldl (fun s b => match b.init with
      | none => s
      | some a => s.emit (.hostWrite (s.laneFunc l) (x.spillAddr + b.home) (s.pagedRead a b.size))) s

/-- Run an admission whose contract is well formed, whose peer, if any, has confirmed, and whose field lane is on or
not; `peer` is the device that its last stage sends to, the lane there, and the credits it holds. -/
def State.admRun (s : State) (k n l : Nat) (x : Lane) (d : List Nat) (on : Bool) (peer : Option (Nat × Nat × Nat)) : State :=
  let spill := (dArg1 d, dArg0 d / 2 ^ 32)
  match s.admission l x on spill with
  | .inl e => s.admRefuse k n l x e
  | .inr (plan, r) =>
    let ring := if x.src then none else some (ringKey (s.ringFunc k x.context) (dArg0 d % 256))
    let s := (s.admCommit k n l x spill ring plan r).putHostSpill l
    match peer with
    | none => s
    | some (dev, lane, cr) => s.setLane l { s.lane l with peerOut := some (dev, lane), credits := cr }

/-- The host section reads FLD_LANE_STATUS of a lane on behalf of a command (R215): it selects the lane, asks for the
register, and gives the selection back that software made last.  The messages pass in the order of all others. -/
def State.askField (s : State) (q : FieldAsk) : State :=
  let t := s.bar.proxyTag
  let p : ProxyRead := { func := 0, addr := 0x4C, tag := t, since := s.ns, sess := none, more := 0, got := [], own := some q }
  let s := { s with bar := { s.bar with proxyTag := (t + 1) % 65536, proxy := s.bar.proxy ++ [p] } }
  ((s.toField (msgConfig 0x40 q.lane)).toField (msgConfig 8 (0x4C + 65536 * t))).toField
    (msgConfig 0x40 (Tab.getD s.bar.copies 0x10040 0))

/-- Whether a read of a field register can be sent. -/
def State.fieldAskable (s : State) : Bool := s.bar.up && s.bar.fieldHere

/-- An admission goes on once its peer has confirmed: a lane with field outputs waits for the state of its field
lane, and has none where the field section cannot be reached. -/
def State.admField (s : State) (k n l : Nat) (d b : List Nat) (peer : Option (Nat × Nat × Nat)) : State :=
  let x := contractLane b
  if x.field && s.fieldAskable then s.askField ⟨k, n, l, some b, peer⟩ else s.admRun k n l x d false peer

/-- Begin an admission: contract, lane, and for a lane that sends to a peer its binding. -/
def State.admBegin (s : State) (k n : Nat) (d b : List Nat) : State :=
  let l := b.getD 0 0
  let x := contractLane b
  if !contractOk b then s.admRefuse k n (l % 64) x { code := 0x21 }
  else if s.laneState l != 0 then s.admRefuse k n l x { code := 0x22 }
  else
    match (s.model x.context x.model).bind (fun (m : Model) => m.stage x.last) with
    | none => s.admRefuse k n l x { code := 0x23 }
    | some (z : StageRec) =>
      if z.nextDevice != 255 && !z.last then
        (s.setLane l { Lane.empty with asked := some (k, n, b, s.ns) }).bindQuery l x z.nextDevice z.nextStage
      else s.admField k n l d b none

/-- ADMIT (R214). -/
def execAdmitLane (func ring : Nat) (contract : Option (List Nat)) (s : State) : Res :=
  let k := cmdKey func ring
  match s.cmd k 0x15 with
  | none => .next s
  | some t =>
    let d := t.bytes
    if outShort k t 544 then .next (s.done k t.number 0x69)
    else
      match cmdInput k t contract with
      | none => .next (s.done k t.number 0x64)
      | some c =>
        let b := (slice c 0 128).map (fun v => v % 256)
        let x := contractLane b
        let f := s.ringFunc k x.context
        if s.ownerOf x.context != f then .next (s.descBad k t.number 0x62)
        else if !x.src && !ringExists f (dArg0 d % 256) then .next (s.descBad k t.number 0x60)
        else if !x.src && !s.bindable (ringKey f (dArg0 d % 256)) then .next (s.done k t.number 0x68)
        else if !s.serialTurn t then .next s
        else .next ((s.begun k t.number).admBegin k t.number d b)

/-! ### Release (R218, R241) -/

/-- The taken count of untaken descriptors of a ring. -/
def State.untaken (s : State) (k : Nat) : Nat :=
  cntDiff (s.fget F.RING_SQ_TAIL_COUNT k) (s.fget F.RING_SQ_TAKE_COUNT k)

/-- Take every untaken descriptor of a lane's item ring: each completes with 0x67 once its bytes, which the completion
echoes, have been read (R241, R242). -/
def State.flushRing (s : State) (k : Nat) : State :=
  (List.range (s.untaken k)).foldl (fun s _ =>
    let n := s.fget F.RING_SQ_TAKE_COUNT k
    let s := s.fset F.RING_SQ_TAKE_COUNT k (n + 1)
    let r := s.ring k
    let t : Taken := { number := n, bytes := [], takenNs := s.ns, checked := false, started := true, released := false
                       slot := true, input := [], output := [], mtag := 0, flushed := true }
    (s.setRing k { r with taken := r.taken ++ [t] }).readDesc k n) s

/-- A lane begins to be released: it takes nothing more, and its ring is flushed and unbound. -/
def State.beginRelease (s : State) (l : Nat) : State :=
  let s := s.fset F.ADM_LANE_STATE_STATE l 4
  let s := match (s.lane l).ring with
    | none => s
    | some k => (s.flushRing k).unbindLane l
  let x := s.lane l
  let s := s.setLane l { x with queue := [] }
  -- a bound peer learns of it (R318)
  let tell (s : State) (dev lane : Nat) : State := s.toPeer { Packet.empty with
    typ := .binding, src := 42, dst := 42, dev := dev, context := x.context, model := x.model, lane := lane, nOff := 4 }
  let s := match x.peerOut with
    | none => s
    | some (dev, lane) => tell s dev lane
  match x.peerIn with
  | none => s
  | some dev => tell s dev l

/-- RELEASE (R218). -/
def execRelease (func ring : Nat) (s : State) : Res :=
  let k := cmdKey func ring
  match s.cmd k 0x16 with
  | none => .next s
  | some t =>
    let l := dLane t.bytes
    if !s.laneUp l then .next (s.done k t.number 0x6A)
    else if !s.serialTurn t then .next s
    else
      let s := (s.begun k t.number).beginRelease l
      .next (s.setLane l { s.lane l with waiter := some (k, t.number) })

/-- Whether an accepted item is still undelivered within its D_t. -/
def State.itemWaits (s : State) (x : ItemCtx) : Bool :=
  x.input && !x.delivered && !s.isLate x && x.state != .withheld && x.state != .retracted

/-- End an undelivered item of a released lane (R218): it is late, its withheld verdict goes out,
and it completes with 0x48. -/
def State.endReleased (s : State) (n : Nat) : State :=
  match s.item n with
  | none => s
  | some x =>
    if !x.input || x.delivered then s
    else
      let s := s.countAt C.ADM_LANE_CNT_LATE x.lane 0 1
      let s := s.logRate 1000000 x.lane { code := 0x0A06, context := (s.lane x.lane).context, lane := x.lane, item := x.item }
      let s := s.breakLane x.lane (s.lateCause x)
      (s.setItem n { x with delivered := true }).endItem n 0x48

/-- Free a lane (R218). -/
def State.freeLane (s : State) (l : Nat) : State :=
  let x := s.lane l
  let s := s.fset F.ADM_LANE_STATE_STATE l 0
  let s := s.fset F.ADM_LANE_STATE_SUSP_REASONS l 0
  let s := s.fset F.ADM_LANE_STATE_THERMAL l 0
  let s := s.fset F.ADM_LANE_STATE_FIELD l 0
  let s := s.fset F.ADM_LANE_STATE_CONTEXT l 0
  let s := s.fset F.ADM_LANE_WCR_NS l 0
  let s := s.fset F.ADM_LANE_DT_NS l 0
  let s := { s with lanes := Tab.erase s.lanes l }
  let s := s.log { code := 0x0A03, context := x.context, lane := l }
  match x.waiter with
  | none => s
  | some (k, n) => s.done k n 0

/-- Take a lane's entries out of the banks of its stages: out of the inactive bank alone in a core that runs (R145). The
lane waits for the switch of every stage whose cores all run; where some stand still no switch can come. -/
def State.dropEntries (s : State) (l : Nat) : State :=
  let x := s.lane l
  match s.model x.context x.model with
  | none => s.freeLane l
  | some m =>
    let rs := x.chain.filterMap (fun q => m.stage q.stage)
    let clean (b : Tab Nat) : Tab Nat := b.filter (fun (p : Nat × Nat) => p.2 != 64 + l)
    let s := rs.foldl (fun s r => r.placed.foldl (fun s c =>
      let k := s.core c
      if s.coreLocked c then (s.setOtherBank c (clean (s.otherBank c))).askSwitch [c]
      else s.setCore c { k with bank0 := clean k.bank0, bank1 := clean k.bank1 }) s) s
    let live := rs.filter (fun r => r.placed.all (fun c => s.coreLocked c))
    let s := s.setLane l { x with switches := live.map (fun r => r.stage) }
    if live.isEmpty then s.freeLane l else s

/-- RELEASE_COMPLETE (R218): every accepted item has been delivered or has passed its D_t. -/
def execReleaseComplete (l : Nat) (s : State) : Res :=
  let mine := s.items.filter (fun (p : Nat × ItemCtx) => p.2.lane == l)
  if s.laneState l != 4 || !(s.lane l).switches.isEmpty || mine.any (fun (p : Nat × ItemCtx) => s.itemWaits p.2) then .next s
  else .next ((mine.foldl (fun s (p : Nat × ItemCtx) => s.endReleased p.1) s).dropEntries l)

/-! ### SUSPEND and RESUME (R463) -/

/-- SUSPEND. -/
def execSuspend (func ring : Nat) (s : State) : Res :=
  let k := cmdKey func ring
  match s.cmd k 0x17 with
  | none => .next s
  | some t =>
    let l := dLane t.bytes
    if s.laneUp l then .next ((s.suspend l 0 0).done k t.number 0) else .next (s.done k t.number 0x6A)

/-- RESUME of a lane ends: with bit 2 held, the field record must pass check 0x31. -/
def State.resumeLane (s : State) (k n l : Nat) (on : Bool) : State :=
  let m := s.fget F.ADM_LANE_STATE_SUSP_REASONS l
  if !s.laneUp l || !(m.testBit 0 || m.testBit 2) || (m.testBit 2 && !s.fieldCheck l (s.lane l) on) then s.done k n 0x6A
  else ((s.unsuspend l 0).unsuspend l 2).done k n 0

/-- FLD_LANE_STATUS has been read for a command, or the read has failed: the command goes on. -/
def State.fieldTold (s : State) (q : FieldAsk) (on : Bool) : State :=
  match s.takenDesc q.ring q.number with
  | none => s
  | some t =>
    match q.contract with
    | some b => s.admRun q.ring q.number q.lane (contractLane b) t.bytes on q.peer
    | none => s.resumeLane q.ring q.number q.lane on

/-- RESUME: with bit 2 held, the state of the field lane is read first (R215). -/
def execResume (func ring : Nat) (s : State) : Res :=
  let k := cmdKey func ring
  match s.cmd k 0x18 with
  | none => .next s
  | some t =>
    let l := dLane t.bytes
    let m := s.fget F.ADM_LANE_STATE_SUSP_REASONS l
    if !s.laneUp l || !(m.testBit 0 || m.testBit 2) then .next (s.done k t.number 0x6A)
    else if m.testBit 2 && (s.lane l).field && s.fieldAskable then
      .next ((s.begun k t.number).askField ⟨k, t.number, l, none, none⟩)
    else .next (s.resumeLane k t.number l false)

/-! ### Chunks (R160) -/

/-- The term t_0 + CHUNK ÷ β within which a chunk of a buffer in host memory is to arrive (R160, Table 9.2). -/
def State.spillTerm (s : State) (c : Nat) (b : Buffer) (l : Nat) : Frac :=
  match s.stageOf c with
  | none => (3200, 1)
  | some (m, r) =>
    let n := m.spillBytes r (s.posOf c) b
    (Frac.nat 3200).add (b.chunk * (s.lane l).service, Nat.max 1 (n.1 + n.2))

/-- CHUNK_FETCH_DONE (R160): the chunk is resident, and a fallback that waited for it ends
(R93). -/
def execChunkFetchDone (c buf win : Nat) (s : State) : Res :=
  match (s.core c).fetches.find? (fun f => f.buf == buf && f.win == win), s.buffer c buf with
  | some f, some b =>
    if s.reads.any (fun r => r.use == .chunk c buf win) || (s.fab.net ++ s.fab.held).any (fun p =>
        (p.typ == .memRead && p.src == c || p.typ == .readData && p.dst == c) && p.nOff == buf * 2 + win)
    then .next s
    else
      let s := s.setBuffer c (if win = 0 then { b with win0 := some f.chunk } else { b with win1 := some f.chunk })
      let k := s.core c
      let s := s.setCore c { k with fetches := k.fetches.filter (fun g => !(g.buf == buf && g.win == win)) }
      let s := if b.host && !(Frac.nat (s.ns - f.since)).le (s.spillTerm c b f.lane) then s.itemSlow f.item f.lane else s
      .next ((((s.fallbackFinish c 0).fallbackFinish c 1).wakeDrains c).finishPosted c)
  | _, _ => .next s

/-! ### The bank switch (R145, R217, R218) -/

/-- Discard the waiting vectors of lanes that hold no entry any more, counted under their lane. -/
def State.dropWaiting (s : State) (ps : List Nat) : State :=
  ps.foldl (fun s c =>
    let has (l : Nat) : Bool := (s.activeBank c).any (fun (p : Nat × Nat) => entryKind p.2 == 1 && p.2 % 64 == l)
    let k := s.core c
    let gone := k.vins.filter (fun v => !v.begun && !has v.lane && s.laneState v.lane == 4)
    let s := gone.foldl (fun s v => s.setLane v.lane { s.lane v.lane with discarded := (s.lane v.lane).discarded + 1 }) s
    s.setCore c { k with vins := k.vins.filter (fun v => !gone.contains v) }) s

/-- A stage's switch has happened: the lanes that await it go on. -/
def State.switchSeen (s : State) (ctx model stage : Nat) : State :=
  (List.range 64).foldl (fun s l =>
    let x := s.lane l
    if x.context = ctx && x.model == model && x.switches.contains stage then
      let s := s.setLane l { x with switches := x.switches.filter (fun q => q != stage) }
      if (s.lane l).switches.isEmpty then
        (if s.laneState l = 1 then s.laneAdmitted l else if s.laneState l = 4 then s.freeLane l else s)
      else s
    else s) s

/-- BANK_SWITCH (R145): at the first slot of a table cycle, in every core of the stage. -/
def execBankSwitch (c : Nat) (s : State) : Res :=
  let ps := s.peers c
  if !s.fon F.CORE_CAD_STATUS_SWITCH_PENDING c || !ps.all s.slotsRun || s.nextPos c != 0 then .next s
  else
    let s := ps.foldl (fun s d =>
      let s := s.fset F.CORE_CAD_STATUS_BANK d (1 - s.fget F.CORE_CAD_STATUS_BANK d)
      let s := s.fset F.CORE_CAD_STATUS_SWITCH_PENDING d 0
      s.setOtherBank d (s.activeBank d)) s
    let s := s.dropWaiting ps
    match (s.core c).place with
    | none => .next s
    | some p => .next (s.switchSeen p.context p.model p.stage)

end Sys2Proof.Machine
end

