-- ==== Sys2Proof/Machine/Image.lean ====
section
/-! DEFINITION. The model image and what the loader checks before it writes anything (R68, R71, R78,
R87, R99 to R102, R154, R165 to R181): the header, the sections, the programs, the descriptors, the
mapping and the sums. -/

namespace Sys2Proof.Machine

/-- A refusal of Table 7.9: its status, and what the report names. -/
structure LoadErr where
  status : Nat
  stage : Nat := 0xFFFF
  index : Nat := 0
  deriving DecidableEq, Repr

/-- The first refusal of a list of checks. -/
def firstErr (l : List (Option LoadErr)) : Option LoadErr := (l.find? (fun e => e.isSome)).join

/-- A check that refuses with a code. -/
def refuseIf (b : Bool) (e : LoadErr) : Option LoadErr := if b then some e else none

/-- Whether bytes `lo` to `hi - 1` are 0. -/
def zeroBytes (b : List Nat) (lo hi : Nat) : Bool := (slice b lo (hi - lo)).all (fun x => x == 0)

/-! ### Header, section table and trailer (R174, R175) -/

/-- One entry of the section table (Table 7.5). -/
structure Sect where
  typ : Nat
  flags : Nat
  off : Nat
  len : Nat
  digest : List Nat
  deriving DecidableEq, Repr

/-- The section table of an image. -/
def sectTable (b : List Nat) : List Sect :=
  (List.range (leAt b 10 2)).map (fun i =>
    let o := leAt b 48 8 + 96 * i
    ⟨leAt b o 2, leAt b (o + 2) 2, leAt b (o + 8) 8, leAt b (o + 16) 8, slice b (o + 32) 64⟩)

/-- FLAGS of the header. -/
def imgRolling (b : List Nat) : Bool := bit (b.getD 9 0) 0
/-- UNSHIELDED_OK. -/
def imgUnshieldedOk (b : List Nat) : Bool := bit (b.getD 9 0) 1
/-- ENCRYPTED. -/
def imgEncrypted (b : List Nat) : Bool := bit (b.getD 9 0) 2
/-- MODEL_ID. -/
def imgId (b : List Nat) : Nat := leAt b 16 16
/-- GENERATION. -/
def imgGen (b : List Nat) : Nat := leAt b 32 4
/-- IMAGE_LEN. -/
def imgLen (b : List Nat) : Nat := leAt b 40 8
/-- MODEL_DIGEST. -/
def imgDigest (b : List Nat) : List Nat := slice b 64 64

/-- The section of a type. -/
def imgSect (b : List Nat) (t : Nat) : Option Sect := (sectTable b).find? (fun x => x.typ == t)

/-- The bytes of a section. -/
def sectBytes (b : List Nat) (t : Nat) : List Nat := (imgSect b t).elim [] (fun x => slice b x.off x.len)

/-- One entry of the section table is well formed. -/
def sectOk (b : List Nat) (i : Nat) : Bool :=
  let o := leAt b 48 8 + 96 * i
  let t := leAt b o 2
  let f := leAt b (o + 2) 2
  let a := leAt b (o + 8) 8
  let n := leAt b (o + 16) 8
  decide (1 ≤ t) && decide (t ≤ 9) && (f == 0 || (t == 3 && f == 1 && imgEncrypted b))
    && (t != 3 || (f == 1) == imgEncrypted b)
    && leAt b (o + 4) 4 == 0 && leAt b (o + 24) 8 == 0
    && a % 64 == 0 && decide (leAt b 48 8 + 96 * leAt b 10 2 ≤ a) && decide (a + n + 256 ≤ imgLen b)

/-- Two byte ranges do not overlap. -/
def apart (a n c m : Nat) : Bool := n == 0 || m == 0 || decide (a + n ≤ c) || decide (c + m ≤ a)

/-- Step 1 of R182: the header, the section table, the trailer and the required sections. -/
def headerCheck (b : List Nat) : Option LoadErr :=
  let n := leAt b 10 2
  let t := sectTable b
  let types := t.map (fun x => x.typ)
  let tab := leAt b 48 8
  let trailer := imgLen b - 256
  let req := [1, 2, 3, 4, 5, 6, 7] ++ (if imgEncrypted b then [9] else [])
  let bad : LoadErr := { status := 0x01 }
  firstErr [
    refuseIf (leAt b 0 4 != 0x494D5651 || leAt b 4 2 != 1) bad,
    refuseIf (leAt b 6 2 != 0x9632 || decide (0xB0 < b.getD 8 0)) { status := 0x02 },
    refuseIf (decide (8 ≤ b.getD 9 0) || n < 7 || 16 < n) bad,
    refuseIf (leAt b 12 4 == 0 || decide ((if imgUnshieldedOk b then 32 else 30) < leAt b 12 4)) bad,
    refuseIf (imgGen b == 0 || !zeroBytes b 56 64 || !zeroBytes b 128 256) bad,
    refuseIf (decide (2 ^ 31 < imgLen b)) { status := 0x18 },
    refuseIf (decide (imgLen b < 512) || decide (tab < 256) || decide (trailer < tab + 96 * n)) bad,
    refuseIf (!(List.range n).all (sectOk b)) bad,
    refuseIf (!types.Nodup || !req.all (fun r => types.contains r)) bad,
    refuseIf (!(types.contains 9) == imgEncrypted b) bad,
    refuseIf (!(t.zipIdx.all (fun (x : Sect × Nat) => apart x.1.off x.1.len tab (96 * n)
      && t.zipIdx.all (fun (y : Sect × Nat) => x.2 == y.2 || apart x.1.off x.1.len y.1.off y.1.len)))) bad,
    refuseIf ((imgSect b 1).elim true (fun x => x.len != 64 * leAt b 12 4)) bad,
    refuseIf ((imgSect b 2).elim true (fun x => x.len != 96 * leAt b 36 4)) bad,
    refuseIf (leAt b trailer 4 != 0x47535651 || !zeroBytes b (trailer + 179) (trailer + 256)) bad]

/-- The bytes that the signature covers: the SHAKE256 digest of the header and the section table. -/
def signedDigest (b : List Nat) : List Nat := shake256 (slice b 0 256 ++ slice b (leAt b 48 8) (96 * leAt b 10 2))

/-- Step 2 of R182: the signature under a key in force, then every section DIGEST.  A key is its
KEY_ID and its public key. -/
def signatureCheck (b : List Nat) (keys : List (Nat × List Nat)) : Option LoadErr :=
  let tr := imgLen b - 256
  let k := (leAt b (tr + 4) 4, slice b (tr + 8) 57)
  firstErr [
    refuseIf (!keys.contains k || !Config.ed448Verify k.2 (signedDigest b) (slice b (tr + 65) 114)) { status := 0x03 },
    refuseIf (!(sectTable b).all (fun x => shake256 (slice b x.off x.len) == x.digest)) { status := 0x04 }]

/-! ### Records -/

/-- The stage records of an image (Table 7.8). -/
def imgStages (b : List Nat) : List StageRec :=
  let t := sectBytes b 1
  (List.range (leAt b 12 4)).map (fun i =>
    let o := 64 * i
    { stage := leAt t o 2, cores := t.getD (o + 2) 0, kK := bits (t.getD (o + 3) 0) 0 4
      kN := bits (t.getD (o + 3) 0) 4 4, entryPos := t.getD (o + 4) 0, exitPos := t.getD (o + 5) 0
      slotPlanes := t.getD (o + 6) 0, last := bit (t.getD (o + 7) 0) 0, acceptsOther := bit (t.getD (o + 7) 0) 1
      cadLen := leAt t (o + 8) 2, gladeEvery := t.getD (o + 10) 0, noiseClass := t.getD (o + 11) 0
      passportFmt := leAt t (o + 12) 2, syncCount := leAt t (o + 14) 2, inElems := leAt t (o + 16) 4
      outElems := leAt t (o + 20) 4, vecPerItem := leAt t (o + 24) 4, nextStage := leAt t (o + 28) 2
      nextDevice := t.getD (o + 30) 0, placed := [], syncBase := 0, envelope := [], generation := imgGen b })

/-- The mapping entries (R176); a tile's index is its place among its stage's entries. -/
def imgMaps (b : List Nat) : List MapEnt :=
  let t := sectBytes b 2
  let es := (List.range (leAt b 36 4)).map (fun i =>
    let o := 96 * i
    ({ stage := leAt t o 2, pos := t.getD (o + 2) 0, engine := t.getD (o + 3) 0, plan := t.getD (o + 4) 0
       chainPos := t.getD (o + 5) 0, matrix := t.getD (o + 6) 0, kOff := leAt t (o + 8) 4
       rows := leAt t (o + 12) 2, cols := leAt t (o + 14) 2, nOff := leAt t (o + 16) 4
       wOff := leAt t (o + 20) 4, wLen := leAt t (o + 24) 4, index := 0, digest := slice t (o + 32) 64 } : MapEnt))
  es.zipIdx.map (fun (e : MapEnt × Nat) =>
    { e.1 with index := ((es.take e.2).filter (fun x => x.stage == e.1.stage)).length })

/-- The number of core positions of an image. -/
def imgPositions (b : List Nat) : List (Nat × Nat) :=
  (imgStages b).flatMap (fun r => (List.range r.cores).map (fun p => (r.stage, p)))

/-- The program records with their instructions (R177). -/
def imgPrograms (b : List Nat) : List Program :=
  let t := sectBytes b 4
  (List.range (imgPositions b).length).map (fun i =>
    let o := 32 * i
    let n := leAt t (o + 4) 2
    let a := leAt t (o + 16) 8
    { stage := leAt t o 2, pos := t.getD (o + 2) 0, len := n, vecPc := leAt t (o + 6) 2
      itemPc := if leAt t (o + 8) 2 = 0xFFFF then none else some (leAt t (o + 8) 2), itemCyc := leAt t (o + 12) 4
      begin0 := t.getD (o + 24) 0, begin1 := t.getD (o + 25) 0
      words := (List.range (Nat.min n 2048)).map (fun j => leAt t (a + 8 * j) 8) })

/-- The reserved bytes of the program records, and where their instructions lie. -/
def programsOk (b : List Nat) : Bool :=
  let t := sectBytes b 4
  (List.range (imgPositions b).length).all (fun i =>
    let o := 32 * i
    t.getD (o + 3) 0 == 0 && zeroBytes t (o + 10) (o + 12) && zeroBytes t (o + 26) (o + 32)
      && decide (leAt t (o + 16) 8 + 8 * leAt t (o + 4) 2 ≤ t.length))

/-- A buffer record (R180). -/
structure BufRec where
  stage : Nat
  pos : Nat
  cls : Nat
  size : Nat
  chunk : Nat
  buf : Nat
  init : Option Nat
  deriving DecidableEq, Repr

/-- The buffer records. -/
def imgBufs (b : List Nat) : List BufRec :=
  let t := sectBytes b 7
  (List.range (t.length / 16)).map (fun i =>
    let o := 16 * i
    { stage := leAt t o 2, pos := t.getD (o + 2) 0, cls := t.getD (o + 3) 0, size := leAt t (o + 4) 4
      chunk := leAt t (o + 8) 4, buf := t.getD (o + 12) 0
      init := if leAt t (o + 14) 2 = 0xFFFF then none else some (leAt t (o + 14) 2) })

/-- The buffers of a core position. -/
def bufsOf (l : List BufRec) (stage pos : Nat) : List BufRec := l.filter (fun x => x.stage == stage && x.pos == pos)

/-- Descriptor `i` of a core position as its image words. -/
def imgDesc (b : List Nat) (place i : Nat) : List Nat :=
  let t := sectBytes b 5
  (List.range 8).map (fun w => leAt t (place * (64 * 32 + 4096) + 32 * i + 4 * w) 4)

/-- Activation table `i` of a core position: x_lo, slope, intercept. -/
def imgTable (b : List Nat) (place i : Nat) : List (Nat × Nat × Nat) :=
  let t := sectBytes b 5
  (List.range 64).map (fun e =>
    let o := place * (64 * 32 + 4096) + 2048 + 1024 * i + 16 * e
    (leAt t o 4, leAt t (o + 4) 4, leAt t (o + 8) 4))

/-- The envelopes of an image by stage (R181). -/
def envelopes : Nat → List Nat → List (Nat × List EnvCol)
  | 0, _ => []
  | n + 1, t =>
    if t.length < 16 then []
    else
      let k := leAt t 4 4
      let cols := (List.range k).map (fun i =>
        let o := 16 + 32 * i
        ({ minLo := leAt t o 4, maxHi := leAt t (o + 4) 4, meanLo := leAt t (o + 8) 4, meanHi := leAt t (o + 12) 4
           varLo := leAt t (o + 16) 4, varHi := leAt t (o + 20) 4, clipPpm := leAt t (o + 24) 4 } : EnvCol))
      (leAt t 0 2, cols) :: envelopes n (t.drop (16 + 32 * k))

/-- The envelope of a stage, empty without one. -/
def imgEnvelope (b : List Nat) (stage : Nat) : List EnvCol :=
  ((envelopes 33 (sectBytes b 8)).find? (fun e => e.1 == stage)).elim [] Prod.snd

/-- The bytes of a CONSTANTS record: the buffers with initial contents in order of their index, each
record as long as its buffer. -/
def imgConstant (b : List Nat) (bufs : List BufRec) (i : Nat) : List Nat :=
  let sizeOf (j : Nat) : Nat := ((bufs.find? (fun x => x.init == some j)).map (fun x => x.size)).getD 0
  slice (sectBytes b 6) ((List.range i).foldl (fun a j => a + sizeOf j) 0) (sizeOf i)

/-- The used bytes of a row record of a tile, from the plaintext of WEIGHTS; columns and rows that the tile does not
use are 0 (R68, R79). -/
def tileRow (w : List Nat) (e : MapEnt) (row : Nat) : List Nat :=
  let n := planUsed e.plan
  if row < e.rows then bytesOf n (leAt (slice w (e.wOff + row * n) n) 0 n % 2 ^ (e.cols * planBits e.plan))
  else List.replicate n 0

/-- The used bytes of a tile's 2,048 row records. -/
def tileBytes (w : List Nat) (e : MapEnt) : List Nat := (List.range 2048).flatMap (tileRow w e)

/-! ### Stage records and mapping (R171, R176, R178) -/

/-- A stage record's fields lie in their ranges (Table 7.8). -/
def stageOk (b : List Nat) (i : Nat) (r : StageRec) : Bool :=
  let t := sectBytes b 1
  let prev := if i = 0 then 0 else leAt t (64 * (i - 1)) 2
  decide (prev < r.stage) && decide (1 ≤ r.cores) && decide (r.cores ≤ 8) && r.kK * r.kN == r.cores
    && decide (1 ≤ r.slotPlanes) && decide (r.slotPlanes ≤ 8) && decide (4 ≤ r.cadLen) && decide (r.cadLen ≤ 4096)
    && decide (1 ≤ r.gladeEvery) && decide (r.gladeEvery ≤ 100) && (decide (r.noiseClass ≤ 8) || r.noiseClass == 0xFF)
    && decide (r.syncCount ≤ 1024) && decide (t.getD (64 * i + 7) 0 < 4) && zeroBytes t (64 * i + 31) (64 * i + 64)
    && (r.last == (r.nextStage == 0xFFFF))

/-- R171 and R176 for one tile among its stage's entries. -/
def mapEntOk (r : StageRec) (ms : List MapEnt) (e : MapEnt) : Bool :=
  decide (e.pos < r.cores) && decide (e.engine < 32) && decide (e.plan ≤ 3)
    && decide (1 ≤ e.rows) && decide (e.rows ≤ 2048) && decide (1 ≤ e.cols) && decide (e.cols ≤ planCols e.plan)
    && e.wLen == e.rows * planUsed e.plan
    -- no engine appears twice
    && !ms.any (fun f => decide (f.index < e.index) && f.pos == e.pos && f.engine == e.engine)
    -- a chain's engines are consecutive from its head
    && (e.chainPos == 0 || ms.any (fun h => h.pos == e.pos && h.matrix == e.matrix && h.nOff == e.nOff
      && h.chainPos + 1 == e.chainPos && h.engine + 1 == e.engine && h.plan == e.plan && h.cols == e.cols))
    -- the tiles of one N part cover the same columns in every K part
    && (List.range r.cores).all (fun q => r.nPart e.pos != r.nPart q || ms.any (fun f =>
      f.pos == q && f.matrix == e.matrix && f.nOff == e.nOff && f.cols == e.cols))

/-- R171 for one stage: the entry and exit positions, and the first tile refused. -/
def mapStageBad (r : StageRec) (ms : List MapEnt) : Option LoadErr :=
  firstErr [
    refuseIf (!(decide (r.entryPos < r.cores) && decide (r.exitPos < r.cores) && r.isExit r.exitPos))
      { status := 0x0D, stage := r.stage },
    (ms.find? (fun e => !mapEntOk r ms e)).map (fun e => { status := 0x0D, stage := r.stage, index := e.index })]

/-- The entries stand grouped by ascending stage, so that a stage's entries are contiguous (R176, Table 7.7). -/
def contiguous (l : List Nat) : Bool := (l.zip (l.drop 1)).all (fun p => decide (p.1 ≤ p.2))

/-- Whether a weight of an S2 tile is coded 0b11 (R78). -/
def s2Bad (w : List Nat) (e : MapEnt) : Bool :=
  e.plan == 3 && (List.range e.rows).any (fun row =>
    (tileRow w e row).any (fun x => (List.range 4).any (fun k => bits x (2 * k) 2 == 3)))

/-- The mapping checks of step 4. -/
def mappingCheck (b w : List Nat) : Option LoadErr :=
  let st := imgStages b
  let ms := imgMaps b
  let t := sectBytes b 2
  let raw := (List.range ms.length).all (fun i => t.getD (96 * i + 7) 0 == 0 && zeroBytes t (96 * i + 28) (96 * i + 32))
  firstErr ([
    refuseIf (!(st.zipIdx.all (fun (x : StageRec × Nat) => stageOk b x.2 x.1))) { status := 0x01 },
    refuseIf (!raw || !contiguous (ms.map (fun e => e.stage))
      || !ms.all (fun e => st.any (fun r => r.stage == e.stage))) { status := 0x0D }]
    ++ st.map (fun r => mapStageBad r (ms.filter (fun e => e.stage == r.stage)))
    ++ ms.map (fun e => refuseIf (decide (w.length < e.wOff + e.wLen)) { status := 0x0D, stage := e.stage, index := e.index })
    ++ ms.map (fun e => refuseIf (s2Bad w e) { status := 0x0E, stage := e.stage, index := e.index }))

/-- The glade rule on the cadence template (R178). -/
def cadenceCheck (r : StageRec) : Option LoadErr :=
  refuseIf (decide (r.gladeEvery ≤ r.cadLen) && r.cadLen % r.gladeEvery != 0) { status := 0x0F, stage := r.stage }

/-- The cadence template of a stage: its glade entries (R178). -/
def gladeBank (r : StageRec) : Tab Nat :=
  (List.range r.cadLen).foldl (fun t i =>
    if r.cadLen < r.gladeEvery then (if i + 1 = r.cadLen then Tab.set t i 128 else t)
    else if (i + 1) % r.gladeEvery = 0 then Tab.set t i 128 else t) []

/-! ### Programs: what each instruction may say (R168, R169, R170) -/

/-- The bits that Table 7.1 names for an opcode. -/
def insMask (op : Nat) : Nat :=
  let f (hi lo : Nat) : Nat := 2 ^ (hi + 1) - 2 ^ lo
  f 63 58 + (if op = 0x02 then f 57 46 + f 22 0
  else if op = 0x03 then f 57 33 + f 19 0
  else if op = 0x04 then f 26 0
  else if op = 0x05 then f 57 18
  else if op = 0x06 then f 57 9
  else if op = 0x07 then f 57 18
  else if op = 0x08 then f 57 0
  else if op = 0x09 then f 57 0
  else if op = 0x0A || op = 0x0B then f 57 33
  else if op = 0x0C then f 3 0
  else if op = 0x0D then f 57 20
  else if op = 0x0E then f 49 20
  else if op = 0x0F then f 57 17
  else if op = 0x10 then f 57 21 + f 20 0
  else 0)

/-- Whether a VOP code is defined (Table 7.2). -/
def vopKnown (op : Nat) : Bool :=
  decide (op ≤ 9) || op == 0x10 || op == 0x11 || (decide (0x20 ≤ op) && decide (op ≤ 0x28))
    || (decide (0x30 ≤ op) && decide (op ≤ 0x33)) || op == 0x38 || op == 0x3C || op == 0x3D || op == 0x40
    || op == 0x41 || op == 0x48

/-- Whether a VOP's PARAM has a meaning. -/
def vopParamOk (o : VopOp) (bufs : List BufRec) : Bool :=
  if o.op = 0x11 then decide (o.param ≤ 1)
  else if o.op = 0x28 then decide (o.param ≤ 3)
  else if o.op = 0x3C || o.op = 0x3D then decide (o.param < 256) && bufs.any (fun x => x.buf == o.param)
  else if o.op = 0x40 || o.op = 0x41 then decide (1 ≤ o.param) && decide (o.param < 256)
  else o.param == 0

/-- Which entry an instruction stands in: 0 INIT, 1 VEC, 2 ITEM. -/
abbrev Where := Nat

/-- Whether an opcode is defined and its reserved bits are 0 (R168 item 7). -/
def encodingOk (w : Nat) : Bool := decide (insOp w ≤ 0x10) && w &&& insMask (insOp w) == w

/-- What R168 (items 6, 8, 9 and 11), R169, R170 and R179 say of one instruction. -/
def insOk (r : StageRec) (pos : Nat) (bufs : List BufRec) (wh : Where) (w : Nat) : Bool :=
  let op := insOp w
  (if op = 0x02 || op = 0x03 then bits w 54 4 != 1 && (op != 0x02 || bits w 46 8 == 255 || bufs.any (fun x => x.buf == bits w 46 8))
    else if op = 0x05 then
      wh == 1 && decide ((issueOp w).first ≤ (issueOp w).last) && decide ((issueOp w).last ≤ 35)
    else if op = 0x06 then decide ((drainOp w).first ≤ (drainOp w).last) && decide ((drainOp w).last ≤ 35)
    else if op = 0x07 then
      let d := (sendOp w).dest
      if pos = r.exitPos then d == 0 || d == 3 else d == 1
    else if op = 0x09 then vopKnown (vopOp w).op && vopParamOk (vopOp w) bufs
    else if op = 0x0A || op = 0x0B then
      bufs.any (fun x => x.buf == bits w 50 8 && x.chunk != 0 && decide ((bits w 34 16 + 1) * x.chunk ≤ x.size))
    else if op = 0x0D then decide (1 ≤ bits w 20 16) && decide (bits w 36 14 < r.syncCount)
    else if op = 0x0E then wh == 0 && decide (bits w 36 14 < r.syncCount)
    else if op = 0x0F then wh == 2 && r.last
    else true)

/-- The first END at or after a PC. -/
def endAt (pm : List Nat) : Nat → Nat → Option Nat
  | 0, _ => none
  | n + 1, pc => if pm.length ≤ pc then none else if insOp (pm.getD pc 0) = 1 then some pc else endAt pm n (pc + 1)

/-- The first LOOP of an entry that breaks R168 (items 4 and 11): loops nest properly, at most 4 deep; `open'` holds the
last instruction of every loop that is open at `pc`. -/
def badLoop (pm : List Nat) (stop : Nat) : Nat → Nat → List Nat → Option Nat
  | 0, _, _ => none
  | n + 1, pc, open' =>
    if stop ≤ pc then none
    else
      let w := pm.getD pc 0
      let ls := open'.filter (fun e => decide (pc ≤ e))
      if insOp w = 0x04 then
        let e := bits w 16 11
        if bits w 0 16 != 0 && decide (pc < e) && decide (e < stop) && ls.all (fun x => decide (e ≤ x))
          && decide (ls.length < 4) then badLoop pm stop n (pc + 1) (e :: ls) else some pc
      else badLoop pm stop n (pc + 1) ls

/-- An entry as the loader reads it: its PC, where it ends, and every instruction as it runs. -/
structure EntryTrace where
  wh : Where
  pc : Nat
  run : List (Nat × Nat)
  deriving DecidableEq, Repr

/-- The trace of an entry, or the instruction at which it is refused: it does not end, its loops do not nest, or it
issues too much. -/
def entryTrace (g : Program) (wh : Where) (pc limit : Nat) : Nat ⊕ EntryTrace :=
  match endAt g.words 2048 pc with
  | none => .inl pc
  | some stop =>
    match badLoop g.words stop 2048 pc [], traceEntry g.words (limit + 1) pc [] with
    | some i, _ => .inl i
    | none, none => .inl pc
    | none, some l => if limit < l.length then .inl pc else .inr ⟨wh, pc, l⟩

/-- Every entry of a program, or the instruction at which R168 (items 1, 2, 4, 11) refuses it. -/
def programTraces (r : StageRec) (g : Program) : Nat ⊕ List EntryTrace :=
  match entryTrace g 0 0 maxInit, entryTrace g 1 g.vecPc (64 * r.slotPlanes / 5) with
  | .inl i, _ => .inl i
  | _, .inl i => .inl i
  | .inr i, .inr v =>
    match g.itemPc with
    | none => .inr [i, v]
    | some pc =>
      match entryTrace g 2 pc (Nat.min g.itemCyc maxItem) with
      | .inl i => .inl i
      | .inr t => .inr [i, v, t]

/-- The entries of a program that the loader has accepted. -/
def tracesOf (r : StageRec) (g : Program) : List EntryTrace := (programTraces r g).elim (fun _ => []) id

/-- The engines that an ISSUE names. -/
def issueRange (w : Nat) : List Nat := rangeFrom (issueOp w).first ((issueOp w).last + 1 - (issueOp w).first)

/-- The first ISSUE of a run that names an engine again (R168 item 5). -/
def issueTwice : List (Nat × Nat) → List Nat → Option Nat
  | [], _ => none
  | x :: r, es =>
    if insOp x.2 = 5 then (if (issueRange x.2).any es.contains then some x.1 else issueTwice r (es ++ issueRange x.2))
    else issueTwice r es

/-- The first DRAIN with TILE 0b00 that no ISSUE to its FIRST engine precedes (R168 item 10). -/
def badDrain : List (Nat × Nat) → List Nat → Option Nat
  | [], _ => none
  | x :: r, es =>
    if insOp x.2 = 5 then badDrain r (es ++ issueRange x.2)
    else if insOp x.2 = 6 && (drainOp x.2).tile == 0 && !es.contains (drainOp x.2).first then some x.1
    else badDrain r es

/-- The address registers that a run writes. -/
def regsWritten (l : List (Nat × Nat)) : List Nat :=
  (l.filterMap (fun x => if insOp x.2 = 2 || insOp x.2 = 3 then some (bits x.2 54 4) else none)).filter (fun a => a != 0)

/-! ### Programs: where each operand points (R168 items 3 and 13) -/

/-- What a register holds while the loader traces it: an offset from a base; base 255 is address 0
and base 256 the vector's input. -/
abbrev RegVal := Nat × Int

/-- The registers at a point of the trace. -/
abbrev RegFile := List RegVal

/-- The value of a register. -/
def regOf (f : RegFile) (a : Nat) : RegVal := if a = 0 then (255, 0) else if a = 1 then (256, 0) else f.getD a (255, 0)

/-- A SETA or ADDA on the traced registers, none where the addresses have no common base. -/
def traceReg (f : RegFile) (w : Nat) : Option RegFile :=
  let ad := bits w 54 4
  if insOp w = 2 then some (if ad = 0 then f else f.set ad (bits w 46 8, (bits w 0 23 : Int)))
  else if insOp w = 3 then
    let v := regOf f ad
    let wrap := bits w 37 17
    let o := v.2 + sext 20 (bits w 0 20) * 64
    if wrap = 0 then some (if ad = 0 then f else f.set ad (v.1, o))
    else
      let b := regOf f (bits w 33 4)
      if b.1 = v.1 then some (if ad = 0 then f else f.set ad (v.1, b.2 + (o - b.2) % ((wrap * 64 : Nat) : Int))) else none
  else some f

/-- What the loader traces a program against: the buffers with the bytes that an operand may reach in them, the bytes of
the vector's input behind A1, the position's tiles and heads, and its descriptors. -/
structure TraceEnv where
  bufs : List BufRec
  input : Nat
  maps : List MapEnt
  heads : List (Nat × Nat)
  descs : Nat → Desc

/-- Whether `n` bytes from an operand lie in core SRAM and in what its base names: a buffer, or the input at A1, whose
bytes the receive path lays out in whole 64 B. -/
def TraceEnv.holds (v : TraceEnv) (f : RegFile) (a off n : Nat) : Bool :=
  let x := regOf f a
  let lo := x.2 + (off * 64 : Nat)
  let top := if x.1 = 255 then some sramSize else if x.1 = 256 then some v.input
    else (v.bufs.find? (fun b => b.buf == x.1)).map (fun b => b.size)
  decide (0 ≤ lo) && top.elim false (fun m => decide (lo + n ≤ m))

/-- The first element of a matrix's K part, and the elements that it spans, under a position's mapping. -/
def mapSpan (ms : List MapEnt) (matrix : Nat) : Nat :=
  let es := ms.filter (fun e => e.matrix == matrix)
  let lo := es.foldl (fun n e => Nat.min n e.kOff) ((es.head?).elim 0 (fun e => e.kOff))
  es.foldl (fun n e => Nat.max n (e.kOff + e.rows - lo)) 0

/-- The elements that a sweep of engines `first` to `last` writes, or that begin with a vector for them (log entry
116). -/
def sweepElems (ms : List MapEnt) (hs : List (Nat × Nat)) (first last : Nat) : Nat :=
  let es := (rangeFrom first (32 - first)).filterMap (fun e => ms.find? (fun m => m.engine == e && m.chainPos == 0))
  let base := (es.head?).elim 0 (fun m => m.nOff)
  let top (l : List MapEnt) : Nat := l.foldl (fun k m => Nat.max k (m.nOff - base + m.cols)) 0
  let scr := hs.filter (fun h => decide (32 ≤ h.1) && decide (first ≤ h.1) && decide (h.1 ≤ last))
  if scr.isEmpty then top (es.filter (fun m => decide (m.engine ≤ last))) else top es + colsIn scr 32 35

/-- Whether the operands of an instruction lie where they may (R168 item 3). -/
def TraceEnv.operandsIn (v : TraceEnv) (f : RegFile) (w : Nat) : Bool :=
  let op := insOp w
  let here (a off n : Nat) : Bool := v.holds f a off n
  if op = 0x05 then
    let o := issueOp w
    if o.first < 32 then
      here o.as o.off (fmtBytes o.fmt (mapSpan v.maps (((v.maps.find? (fun e => e.engine == o.first)).map (fun e => e.matrix)).getD 0)))
    else (regOf f o.as == (256, 0) && o.off == 0) || here o.as o.off (fmtBytes o.fmt (2048 * (o.last + 1 - o.first)))
  else if op = 0x06 then
    let o := drainOp w
    o.group || here o.ad o.off (fmtBytes (v.descs o.desc).outFmt (sweepElems v.maps v.heads o.first o.last))
  else if op = 0x07 then here (sendOp w).as (sendOp w).off ((sendOp w).len * 64)
  else if op = 0x08 then here (scrwOp w).as (scrwOp w).off (fmtBytes (scrwOp w).fmt ((scrwOp w).cnt + 1))
  else if op = 0x09 then
    let o := vopOp w
    (vopSpans o).all (fun p => here p.1 0 p.2)
      && ((o.op != 0x3C && o.op != 0x3D) || (v.bufs.find? (fun b => b.buf == o.param % 256)).elim false
        (fun b => decide (fmtBytes o.fs (2 * o.n) ≤ b.size)))
  else if op = 0x0F then here (insAs w) (insOff w) 8 && here (bits w 33 4) 0 (bits w 17 16 * 64)
  else if op = 0x10 then here (insAs w) (insOff w) (bits w 21 16 * 64)
  else true

/-- Trace a run over the registers, or the instruction at which an operand or an address leaves its place. -/
def TraceEnv.run (v : TraceEnv) : List (Nat × Nat) → RegFile → Nat ⊕ RegFile
  | [], f => .inr f
  | x :: r, f =>
    if !v.operandsIn f x.2 then .inl x.1
    else match traceReg f x.2 with
      | none => .inl x.1
      | some g => v.run r g

/-- Run a list of runs over the registers. -/
def TraceEnv.runs (v : TraceEnv) : List (List (Nat × Nat)) → RegFile → Nat ⊕ RegFile
  | [], f => .inr f
  | l :: r, f =>
    match v.run l f with
    | .inl i => .inl i
    | .inr g => v.runs r g

/-- Item after item until the registers repeat (R168): the instruction at which an operand leaves its place, or the
first where nothing repeats within 65,536 items. -/
def TraceEnv.items (v : TraceEnv) (item : List (List (Nat × Nat))) : Nat → RegFile → List RegFile → Option Nat
  | 0, _, _ => some 0
  | n + 1, f, seen =>
    if seen.contains f then none
    else match v.runs item f with
      | .inl i => some i
      | .inr g => v.items item n g (f :: seen)

/-- The registers at the start of INIT. -/
def regs0 : RegFile := List.replicate 16 (255, 0)

/-- The runs of one traced item. -/
def itemRuns (r : StageRec) (ts : List EntryTrace) : List (List (Nat × Nat)) :=
  let v := (ts.find? (fun t => t.wh == 1)).elim [] (fun t => t.run)
  List.replicate r.vecPerItem v ++ (ts.filter (fun t => t.wh == 2)).map (fun t => t.run)

/-- Items 3 and 13 of R168 on a program: INIT, then item after item. -/
def TraceEnv.bad (v : TraceEnv) (r : StageRec) (ts : List EntryTrace) : Option Nat :=
  match v.run ((ts.find? (fun t => t.wh == 0)).elim [] (fun t => t.run)) regs0 with
  | .inl i => some i
  | .inr f => v.items (itemRuns r ts) 65536 f []

/-- The bytes of a stage's input that lie behind A1 in a core position: the K part's elements, in the entry core all that
follow its own first one (R136, R166), in whole 64 B. -/
def inputBytes (r : StageRec) (pos fmt : Nat) (ms : List MapEnt) : Nat :=
  let lo := ms.foldl (fun n e => Nat.min n e.kOff) ((ms.head?).elim 0 (fun e => e.kOff))
  let hi := ms.foldl (fun n e => Nat.max n (e.kOff + e.rows)) 0
  let hi := if pos = r.entryPos ∨ hi ≤ lo then r.inElems else Nat.min hi r.inElems
  ceilDiv (fmtBytes fmt (hi - lo)) 64 * 64

/-- The format in which a stage takes its input: that of the first ISSUE in its programs whose operand stands at A1
(R464). -/
def imgInFmt (b : List Nat) (stage : Nat) : Nat :=
  (((imgPrograms b).filter (fun g => g.stage == stage)).findSome? (fun g =>
    (g.words.find? (fun w => insOp w == 0x05 && insAs w == 1)).map (fun w => (issueOp w).fmt))).getD 0

/-! ### Formats (R69, R71, R182) -/

/-- The ISSUEs of a stage's programs. -/
def issuesOf (ts : List EntryTrace) : List IssueOp :=
  ts.flatMap (fun t => (t.run.filter (fun x => insOp x.2 == 5)).map (fun x => issueOp x.2))

/-- The planes and signedness that a staging format gives an engine; a floating format uses every
plane of the slot. -/
def fmtPlanes (r : StageRec) (fmt : Nat) : Nat × Bool :=
  if fmtFloat fmt then (r.slotPlanes, true) else (intPlanes fmt, intSigned fmt)

/-- The first instruction of a program that the format checks of step 4 refuse: its formats (R69), the settings of R72,
and engines named with conflicting formats. -/
def badFormat (r : StageRec) (ts : List EntryTrace) : Option Nat :=
  let is := issuesOf ts
  let issueOk (o : IssueOp) : Bool :=
    fmtStaging o.fmt && decide ((fmtPlanes r o.fmt).1 ≤ r.slotPlanes)
      && (if fmtFloat o.fmt then decide ((if o.m4 then 4 else 8) ≤ r.slotPlanes) else !o.m4)
      && is.all (fun p => decide (p.last < o.first) || decide (o.last < p.first) || fmtPlanes r o.fmt == fmtPlanes r p.fmt)
  let ok (w : Nat) : Bool :=
    (insOp w != 5 || issueOk (issueOp w)) && (insOp w != 8 || fmtVector (scrwOp w).fmt)
      && (insOp w != 9 || (fmtVector (vopOp w).fd && fmtVector (vopOp w).fs))
  ((ts.flatMap (fun t => t.run)).find? (fun x => !ok x.2)).map Prod.fst

/-! ### Descriptors and tables (R99, R100, R102, R180) -/

/-- A finite FP32 pattern. -/
def fp32Finite (p : Nat) : Bool := bits p 23 8 != 255

/-- An activation table: x_lo strictly ascending, nothing infinite or NaN (R100). -/
def tableOk (l : List (Nat × Nat × Nat)) : Bool :=
  l.all (fun e => fp32Finite e.1 && fp32Finite e.2.1 && fp32Finite e.2.2)
    && (l.zip (l.drop 1)).all (fun p => FV.lt (fp32.decode p.1.1) (fp32.decode p.2.1))

/-- One address word of an image descriptor: it names `n` bytes of a buffer, or nothing. -/
def refOk (bufs : List BufRec) (w n : Nat) (used : Bool) : Bool :=
  let k := bits w 24 8
  let o := bits w 0 24
  if k = 255 then o == 0 && !used
  else match bufs.find? (fun x => x.buf == k) with
    | none => false
    | some x => o % 64 == 0 && decide (o + (if used then n else 0) ≤ x.size)

/-- A descriptor's fields and references; `cols` is the most elements that a drain gives it, and `pre` the most that
begin with it. -/
def descOk (bufs : List BufRec) (l : List Nat) (cols pre : Nat) : Bool :=
  let d := descOf l
  decide (d.shift ≤ 16) && d.begin != 3 && d.preFmt != 3 && decide (d.preShift ≤ 24) && decide (d.act ≤ 8)
    && fmtEpilogue d.outFmt && !bit (l.getD 0 0) 31
    && refOk bufs (l.getD 2 0) (4 * cols) (d.perColumn && decide (0 < cols))
    && refOk bufs (l.getD 3 0) ((if d.biasBf16 then 2 else 4) * cols) (d.biasEn && decide (0 < cols))
    && refOk bufs (l.getD 4 0) (preWidth d * pre) (d.begin == 0 && decide (0 < pre))
    && refOk bufs (l.getD 7 0) 32 (d.stats && decide (0 < cols))

/-- The words that a program's entries run. -/
def wordsOf (ts : List EntryTrace) : List Nat := ts.flatMap (fun t => t.run.map Prod.snd)

/-- The most elements that a program's drains put through a descriptor. -/
def TraceEnv.drained (v : TraceEnv) (ts : List EntryTrace) (i : Nat) : Nat :=
  (wordsOf ts).foldl (fun n w =>
    let o := drainOp w
    if insOp w = 6 && !o.group && o.desc == i then Nat.max n (sweepElems v.maps v.heads o.first o.last) else n) 0

/-- The most elements that begin with a descriptor: at a drain whose NEXT it is, or at stage start. -/
def TraceEnv.begun (v : TraceEnv) (g : Program) (ts : List EntryTrace) (i : Nat) : Nat :=
  (wordsOf ts).foldl (fun n w =>
    let o := drainOp w
    if insOp w = 6 && !o.nextZero && o.next == i then Nat.max n (sweepElems v.maps v.heads o.first o.last) else n)
    (if g.begin0 = i ∨ g.begin1 = i then sweepElems v.maps v.heads 0 35 else 0)

/-- The first descriptor of a position that is refused (R102, R180). -/
def badDesc (b : List Nat) (v : TraceEnv) (g : Program) (place : Nat) (ts : List EntryTrace) : Option Nat :=
  (List.range 64).find? (fun i => !descOk v.bufs (imgDesc b place i) (v.drained ts i) (v.begun g ts i))

/-! ### The sum check (R87) -/

/-- A head's use of a tile in the sum check: its shift; the passes and rows of the run of uses, those of other K cores
with them; the largest M of its passes; and whether a KEEP begin has continued a use and a PRELOAD or ZERO begin ended
one. -/
structure SumHead where
  shift : Nat
  passes : Nat := 0
  rows : Nat := 0
  bound : Nat := 0
  kept : Bool := false
  ended : Bool := false
  deriving DecidableEq, Repr

/-- The sum check at a point of the run: the uses by tile * 64 + head; the groups of each tile's run and its open group;
the tile that each engine took last; the drains so far that sent a group, each with the passes and rows of its heads; how
many drains each tile has had; the first tile that fails, and the first NEXT descriptor whose KEEP has another shift. -/
structure SumSt where
  heads : Tab SumHead := []
  groups : Tab Nat := []
  openGrp : Tab Nat := []
  last : Tab Nat := []
  sent : List (Nat × Tab (Nat × Nat)) := []
  drains : Tab Nat := []
  bad : Option Nat := none
  badKeep : Option Nat := none

/-- M of R87 for a plan and staging format. -/
def sumBound (fmt plan : Nat) : Nat :=
  let x := if fmtFloat fmt || intSigned fmt then 2 ^ ((if fmtFloat fmt then 8 else intPlanes fmt) - 1) else 2 ^ intPlanes fmt - 1
  2048 * (if plan = 3 then 1 else 2 ^ (planBits plan - 1)) * x

/-- The head of an engine's chain under a position's mapping. -/
def mapHead (ms : List MapEnt) (e : MapEnt) : Nat :=
  ((ms.find? (fun h => h.matrix == e.matrix && h.nOff == e.nOff && h.chainPos == 0)).map (fun h => h.engine)).getD e.engine

/-- The passes that an ISSUE makes: the head, the rows and the plan of each engine (R81, R82). -/
def issuePasses (ms : List MapEnt) (o : IssueOp) : List (Nat × Nat × Nat) :=
  (rangeFrom o.first (o.last + 1 - o.first)).filterMap (fun i =>
    if 32 ≤ i then some (Nat.max 32 o.first, 2048, 0)
    else (ms.find? (fun e => e.engine == i)).map (fun e => (mapHead ms e, e.rows, e.plan)))

/-- A head's use of a tile; `start` gives the shift with which each tile begins at stage start. -/
def SumSt.headOf (a : SumSt) (start : Nat → Nat) (t h : Nat) : SumHead := Tab.getD a.heads (t * 64 + h) { shift := start t }

/-- The limits of R87 on a tile's run: each head's groups, rows and passes, and the tile's groups. -/
def SumSt.check (a : SumSt) (t : Nat) (u : SumHead) : SumSt :=
  let ok := decide (Nat.min u.passes 32 * ceilDiv (u.bound + 262144) (2 ^ u.shift) ≤ 1610612736)
    && decide (u.passes ≤ 2048) && decide (u.rows ≤ 4194304) && decide (Tab.getD a.groups t 1 ≤ 256)
  { a with bad := if ok then a.bad else some (a.bad.getD t) }

/-- One pass: a group of the whole tile closes before a pass that would take a chain past 32 (R84). -/
def SumSt.pass (a : SumSt) (start : Nat → Nat) (fmt t : Nat) (p : Nat × Nat × Nat) : SumSt :=
  let key := t * 64 + p.1
  let a := if Tab.getD a.openGrp key 0 < 32 then a
    else { a with groups := Tab.set a.groups t (Tab.getD a.groups t 1 + 1), openGrp := a.openGrp.filter (fun q => q.1 / 64 != t) }
  let u := a.headOf start t p.1
  let u := { u with passes := u.passes + 1, rows := u.rows + p.2.1, bound := Nat.max u.bound (sumBound fmt p.2.2) }
  ({ a with heads := Tab.set a.heads key u, openGrp := Tab.set a.openGrp key (Tab.getD a.openGrp key 0 + 1) } : SumSt).check t u

/-- A drained head takes in what the other K cores sent for the same use, then begins its next use (R86, R92, R95). -/
def SumSt.drainHead (a : SumSt) (start : Nat → Nat) (d : Nat → Desc) (others : List (Tab (Nat × Nat))) (t : Nat) (o : DrainOp)
    (h : Nat) : SumSt :=
  let key := t * 64 + h
  let u := a.headOf start t h
  let got := others.map (fun m => Tab.getD m h (0, 0))
  let u := { u with passes := got.foldl (fun n g => n + g.1) u.passes, rows := got.foldl (fun n g => n + g.2) u.rows }
  let a := a.check t u
  let x := d o.next
  let fresh (k : Nat) : SumHead := { shift := k, kept := u.kept, ended := true }
  if o.nextZero then { a with heads := Tab.set a.heads key (fresh u.shift) }
  else if x.begin = 2 then
    { a with
      heads := Tab.set a.heads key { u with kept := true }
      badKeep := if x.shift = u.shift then a.badKeep else some (a.badKeep.getD o.next) }
  else { a with heads := Tab.set a.heads key (fresh x.shift) }

/-- One instruction of the sum check; `others` gives, for each other K core, what its drains of a tile sent, in order. -/
def SumSt.step (v : TraceEnv) (start : Nat → Nat) (others : List (List (Nat × Tab (Nat × Nat)))) (a : SumSt) (w : Nat) : SumSt :=
  if insOp w = 5 then
    let o := issueOp w
    let l := Tab.getD a.last o.first 1
    let t := if o.tile = 0 then 1 - l else if o.tile = 1 then 0 else if o.tile = 2 then 1 else l
    let a := (issuePasses v.maps o).foldl (fun a p => a.pass start o.fmt t p) a
    { a with last := (issueRange w).foldl (fun m e => Tab.set m e t) a.last }
  else if insOp w = 6 then
    let o := drainOp w
    let t := if o.tile = 1 then 0 else if o.tile = 2 then 1 else Tab.getD a.last o.first 0
    let k := Tab.getD a.drains t 0
    let hs := (v.heads.filter (fun h => decide (o.first ≤ h.1) && decide (h.1 ≤ o.last))).map Prod.fst
    let mine := others.map (fun l => (((l.filter (fun x => x.1 == t))[k]?).map Prod.snd).getD [])
    let sent := hs.map (fun h => (h, ((a.headOf start t h).passes, (a.headOf start t h).rows)))
    let keep := !o.nextZero && (v.descs o.next).begin == 2
    -- each other K core's groups join the tile's
    let more := mine.foldl (fun n m => n + (m.foldl (fun k p => Nat.max k (ceilDiv p.2.1 32)) 0)) 0
    let a := { a with groups := Tab.set a.groups t (Tab.getD a.groups t 1 + more) }
    let a := hs.foldl (fun a h => a.drainHead start v.descs mine t o h) a
    let a := if keep then a else { a with
      groups := Tab.set a.groups t 1, openGrp := a.openGrp.filter (fun q => !(q.1 / 64 == t && hs.contains (q.1 % 64))) }
    { a with sent := if o.group then a.sent ++ [(t, sent)] else a.sent, drains := Tab.set a.drains t (k + 1) }
  else a

/-- The sum check over four traced items of a position. -/
def sumTrace (r : StageRec) (g : Program) (v : TraceEnv) (ts : List EntryTrace) (others : List (List (Nat × Tab (Nat × Nat)))) :
    SumSt :=
  let item := ((itemRuns r ts).flatten).map Prod.snd
  let start (t : Nat) : Nat := (v.descs (if t = 0 then g.begin0 else g.begin1)).shift
  (item ++ item ++ item ++ item).foldl (fun a w => a.step v start others w) {}

/-- The first tile that the sum check refuses: a use past the limits, or KEEP uses that no PRELOAD or ZERO begin ends. -/
def SumSt.badTile (a : SumSt) : Option Nat :=
  match a.bad with
  | some t => some t
  | none => (a.heads.find? (fun p => p.2.kept && !p.2.ended)).map (fun p => p.1 / 64)

/-! ### Buffers (R180) -/

/-- The buffer records are well formed. -/
def bufsOk (b : List Nat) : Bool :=
  let l := imgBufs b
  let t := sectBytes b 7
  t.length % 16 == 0 && (List.range (t.length / 16)).all (fun i => t.getD (16 * i + 13) 0 == 0)
    && l.all (fun x => decide (x.cls ≤ 3) && x.size % 64 == 0 && x.chunk % 64 == 0 && decide (x.buf ≤ 254)
      && (if x.cls < 2 then x.chunk == 0 else decide (0 < x.chunk) && decide (2 * x.chunk ≤ x.size)))
    && (l.map (fun x => (x.stage, x.pos, x.buf))).Nodup
    && l.all (fun x => (imgPositions b).contains (x.stage, x.pos))

/-! ### Step 4 of R182 -/

/-- What a position's program is traced against, with the buffers as given. -/
def traceEnv (b : List Nat) (r : StageRec) (g : Program) (place : Nat) (bufs : List BufRec) : TraceEnv :=
  let ms := (imgMaps b).filter (fun e => e.stage == r.stage && e.pos == g.pos)
  { bufs := bufs, input := inputBytes r g.pos (imgInFmt b r.stage) ms, maps := ms, heads := headsOf ms (wordsOf (tracesOf r g))
    descs := fun i => descOf (imgDesc b place i) }

/-- What the drains of the other K cores of a position's chain send, under the heads of that position (R86). -/
def othersSent (b : List Nat) (r : StageRec) (g : Program) (v : TraceEnv) : List (List (Nat × Tab (Nat × Nat))) :=
  if !r.isExit g.pos then []
  else ((imgPrograms b).filter (fun q =>
      q.stage == r.stage && q.pos != g.pos && r.nPart q.pos == r.nPart g.pos)).map (fun q =>
    let u := traceEnv b r q (((imgPositions b).idxOf? (r.stage, q.pos)).getD 0) []
    let mine (h : Nat) : Nat := ((u.maps.find? (fun e => e.engine == h)).bind (fun e =>
      v.maps.find? (fun f => f.chainPos == 0 && f.matrix == e.matrix && f.nOff == e.nOff))).elim h (fun f => f.engine)
    (sumTrace r q u (tracesOf r q) []).sent.map (fun (x : Nat × Tab (Nat × Nat)) =>
      (x.1, x.2.foldl (fun t (y : Nat × Nat × Nat) => Tab.set t (mine y.1) y.2) [])))

/-- The checks of one core position, in the order that step 4 lists them. -/
def positionCheck (b : List Nat) (r : StageRec) (g : Program) (place : Nat) : Option LoadErr :=
  let bufs := bufsOf (imgBufs b) r.stage g.pos
  let e (c i : Nat) : LoadErr := { status := c, stage := r.stage, index := i }
  match programTraces r g with
  | .inl i => some (e 0x07 i)
  | .inr ts =>
    let v := traceEnv b r g place bufs
    let vecW := (ts.filter (fun t => t.wh == 1)).flatMap (fun t => regsWritten t.run)
    let itm := (ts.filter (fun t => t.wh == 2)).flatMap (fun t => t.run)
    let sums := sumTrace r g v ts (othersSent b r g v)
    firstErr [
      refuseIf (decide (g.len < 1) || decide (2048 < g.len)) (e 0x07 0),
      (g.words.zipIdx.find? (fun (x : Nat × Nat) => !encodingOk x.1)).map (fun x => e 0x07 x.2),
      (ts.findSome? (fun t => (t.run.find? (fun x => !insOk r g.pos bufs t.wh x.2)).map Prod.fst)).map (fun i => e 0x07 i),
      (ts.findSome? (fun t => if t.wh = 1 then issueTwice t.run [] else none)).map (fun i => e 0x07 i),
      (ts.findSome? (fun t => badDrain t.run [])).map (fun i => e 0x07 i),
      (itm.find? (fun x => (regsWritten [x]).any vecW.contains)).map (fun x => e 0x07 x.1),
      (v.bad r ts).map (fun i => e 0x07 i),
      (badFormat r ts).map (fun i => e 0x08 i),
      (badDesc b v g place ts).map (fun i => e 0x09 i),
      sums.badKeep.map (fun i => e 0x09 i),
      ((List.range 4).find? (fun i => !tableOk (imgTable b place i))).map (fun i => e 0x09 i),
      refuseIf (decide (64 ≤ g.begin0) || decide (64 ≤ g.begin1)) (e 0x07 0),
      sums.badTile.map (fun i => e 0x0A i)]

/-- The operands and references of a position once its buffers are placed: in a spilled buffer they reach no further
than its window of two chunks (R102, R155, R180). -/
def windowCheck (b : List Nat) (r : StageRec) (g : Program) (place : Nat) (bufs : List BufRec) : Option LoadErr :=
  let ts := tracesOf r g
  let v := traceEnv b r g place bufs
  firstErr [
    (v.bad r ts).map (fun i => { status := 0x07, stage := r.stage, index := i }),
    (badDesc b v g place ts).map (fun i => { status := 0x09, stage := r.stage, index := i })]

/-- The program of a core position, with the position's place in the image. -/
def programAt (b : List Nat) (stage pos : Nat) : Option (Program × Nat) :=
  match (imgPositions b).idxOf? (stage, pos), (imgPrograms b).find? (fun g => g.stage == stage && g.pos == pos) with
  | some i, some g => some (g, i)
  | _, _ => none

/-- The vector-unit work of a stage, with the fallback cost of every descriptor that has FALLBACK (R154). -/
def workCheck (b : List Nat) (r : StageRec) : Option LoadErr :=
  let work (g : Program) : Nat :=
    let ms := (imgMaps b).filter (fun e => e.stage == r.stage && e.pos == g.pos)
    let i := ((imgPositions b).idxOf? (r.stage, g.pos)).getD 0
    let ws := g.vecTrace ++ g.itemTrace
    (List.range 64).foldl (fun n k => n + fallbackCost (headsOf ms ws) ws g.begin0 g.begin1 (descOf (imgDesc b i k)) k) g.vuWork
  refuseIf ((List.range r.cores).any (fun p => (programAt b r.stage p).elim false (fun (x : Program × Nat) =>
    decide (128 * r.slotPlanes / 5 < work x.1)))) { status := 0x0B, stage := r.stage }

/-- Step 4 of R182 on the image and the plaintext of WEIGHTS. -/
def structureCheck (b w : List Nat) : Option LoadErr :=
  let st := imgStages b
  firstErr ([
    refuseIf (!bufsOk b || !programsOk b) { status := 0x07 },
    refuseIf ((sectBytes b 5).length != (imgPositions b).length * 6144) { status := 0x09 }]
    ++ st.flatMap (fun r => (List.range r.cores).map (fun p =>
      match programAt b r.stage p with
      | none => some { status := 0x07, stage := r.stage }
      | some (g, i) => positionCheck b r g i))
    ++ st.map (workCheck b)
    ++ [mappingCheck b w]
    ++ st.map cadenceCheck)

/-- The image at an offset of a context's load area. -/
def State.image (s : State) (ctx off : Nat) : List Nat :=
  let h := s.areaGet ctx off 256
  if 2 ^ 31 < imgLen h then h else s.areaGet ctx off (Nat.max 256 (imgLen h))

end Sys2Proof.Machine
end

