-- ==== Sys2Proof/Machine/Fabric.lean ====
section
/-! DEFINITION. The fabric and the memory controllers (R86, R136, R169, R192 to R205): arrivals by
packet type, parity failures, receipts and their timeouts, placement epochs, DRAM accesses, the
patrol scrubber and the scheduling round. -/

namespace Sys2Proof.Machine

/-! ### Errors (R195, R203) -/

/-- The number of a packet type (Table 8.2; the Canopy types are R315's). -/
def PktType.code : PktType → Nat
  | .vector => 1
  | .kpart => 2
  | .exitPart => 3
  | .group => 4
  | .memRead => 5
  | .memWrite => 6
  | .readData => 7
  | .receipt => 8
  | .signal => 9
  | .epochClose => 10
  | .control => 11
  | .retraction => 16
  | .digest => 17
  | .counterOp => 18
  | .binding => 19

/-- Record a fabric error: 0 header parity, 1 payload parity, 2 timeout, 3 epoch ahead. -/
def State.fabErr (s : State) (node kind : Nat) (p : Packet) : State :=
  let s := s.fset F.FAB_ERR_LAST_NODE 0 node
  let s := s.fset F.FAB_ERR_LAST_KIND 0 kind
  let s := s.fset F.FAB_ERR_LAST_TYPE 0 (p.typ.code % 16)
  s.fset F.FAB_ERR_LAST_VALID 0 1

/-- Header parity fails at the router of a node: the packet is dropped, and its sender waits for a receipt. -/
def State.hdrFail (s : State) (p : Packet) (node : Nat) : State :=
  let s := s.unpost p.key
  let s := s.count C.FAB_CNT_HDRPAR 0
  let s := s.flag F.FAB_STATUS_HDR_PAR_SEEN 0
  let s := s.fabErr node 0 p
  s.log { code := 0x0801, context := p.context, argA := node, item := p.item }

/-- Payload parity fails at the consumer: counted, recorded and logged. -/
def State.payFail (s : State) (p : Packet) : State :=
  let s := s.unpost p.key
  let s := s.count C.FAB_CNT_PAYPAR 0
  let s := s.flag F.FAB_STATUS_PAY_PAR_SEEN 0
  let s := s.fabErr p.dst 1 p
  s.log { code := 0x0802, context := p.context, argA := p.dst, item := p.item }

/-- A second failure of a transfer: the cores at both ends of the route become suspects
(Table 14.6); `late` marks a receipt timeout, which R350 counts. -/
def State.secondFail (s : State) (p : Packet) (late : Bool) : State :=
  let k := (p.src * 64 + p.dst) * 2 + ofBool late
  let s := { s with rel := { s.rel with routes := Tab.set s.rel.routes k (Tab.getD s.rel.routes k 0 + 1) } }
  let s := if p.src < 32 then s.suspect (unitCore p.src) 0 else s
  if p.dst < 32 then s.suspect (unitCore p.dst) 0 else s

/-- Replay a vector of a stage after a fabric failure (Table 8.3). -/
def State.fabReplay (s : State) (c : Nat) (p : Packet) : State :=
  (s.count C.FAB_CNT_REPLAY 0).replayVec c p.lane p.item p.vseq

/-- Whether two packets are one transfer: the same part of the same vector over the same way. -/
def Packet.sameTransfer (p q : Packet) : Bool :=
  p.typ == q.typ && p.src == q.src && p.dst == q.dst && p.context == q.context && p.lane == q.lane && p.item == q.item
    && p.vseq == q.vseq && p.nOff == q.nOff

/-- A K part, exit part or group transfer got through: a later failure of it is a first one. -/
def State.partOk (s : State) (p : Packet) : State :=
  { s with fab := { s.fab with struck := s.fab.struck.filter (fun q => !q.sameTransfer p) } }

/-- The payload of a K part, exit part or group transfer fails (Table 8.3): NACK, and the stage replays the vector; the
second failure of the transfer is reported as a fault as well. -/
def State.partFail (s : State) (p : Packet) : State :=
  let s := (s.payFail p).receipt p true
  let again := p.retx || s.fab.struck.any (fun q => q.sameTransfer p)
  let s := s.partOk p
  let s := if again then s.secondFail p false else
    { s with fab := { s.fab with struck := s.fab.struck ++ [{ p with payload := [], cols := [], sums := [] }] } }
  s.fabReplay p.dst p

/-! ### Regions of DRAM (R199, R201) -/

/-- Write the copies that a page holds of a context's programs and constants again, from the images that still stand in its
load area (R201). -/
def State.rewriteCopies (s : State) (ctx pg : Nat) : State :=
  (s.models.filter (fun (m : Model) => m.context == ctx)).foldl (fun s (m : Model) =>
    match m.imageAt with
    | none => s
    | some off =>
      let b := s.image ctx off
      m.stages.foldl (fun s (r : StageRec) => r.placed.zipIdx.foldl (fun s (x : Nat × Nat) =>
        let s := match Tab.find m.copies (r.stage * 8 + x.2), programAt b r.stage x.2 with
          | some p, some (g, _) => if p.inPage (8 * g.words.length) pg then s.pagedWrite p (g.words.flatMap (bytesOf 8)) else s
          | _, _ => s
        let recs := bufsOf (imgBufs b) r.stage x.2
        (s.core x.1).buffers.foldl (fun s (y : Buffer) =>
          match y.init, (recs.find? (fun z => z.buf == y.buf)).bind (fun z => z.init) with
          | some p, some n => if p.inPage y.size pg then s.pagedWrite p (imgConstant b (imgBufs b) n) else s
          | _, _ => s) s) s) s) s

/-- The requester's action after an uncorrectable read outside the master pool, by region. -/
def State.regionUe (s : State) (addr : Nat) : State :=
  let pg := addr / 2 ^ 20
  if pg < 1024 then
    -- the engines bound to the region stand as digest mismatches
    (s.fab.bound.filter (fun (b : Nat × Nat) => b.2 == pg)).foldl
      (fun s (b : Nat × Nat) => s.digestMismatch (b.1 / 32) (b.1 % 32)) s
  else if pg < 1152 then
    s.recordLost ((addr - 0x40000000) / 128)
  else if pg < 1280 then s
  else
    match Tab.find s.fab.pages pg with
    | none => s
    | some e =>
      let cs := (List.range 32).filter (fun c => s.ctxOf c == e.owner)
      if e.use = 2 then
        -- the copies are written again from the image in the load area; a core that uses such a constant replays
        cs.foldl (fun s c =>
          let bs := (s.core c).buffers.filter (fun b => b.init.elim false (fun a => a.inPage b.size pg))
          if bs.isEmpty then s else (bs.foldl (fun s b => s.reloadBuffer c b) s).replayAffected c) (s.rewriteCopies e.owner pg)
      else if e.use = 3 then
        cs.foldl (fun s c =>
          if (s.core c).buffers.any (fun b => b.spilled && !b.host && (⟨b.pages, b.home⟩ : Paged).inPage b.size pg)
          then s.replayAffected c else s) s
      else s

/-! ### Placement epochs (R196 to R198) -/

/-- How far epoch `p` lies ahead of `e`, modulo 65,536. -/
def epochAhead (e p : Nat) : Nat := (p + 65536 - e % 65536) % 65536

/-- What R196 makes of a packet's epoch: 0 accepted, 1 discarded, 2 discarded and ahead. -/
def EpochSt.judge (e : EpochSt) (p : Nat) : Nat :=
  if p = e.cur then 0
  else if epochAhead p e.cur = 1 && e.prevOpen then 0
  else if epochAhead e.cur p < 32768 then 2 else 1

/-- A packet that R196 discards: counted, answered with a plain receipt, and where its epoch lies
ahead reported to the reliability controller. -/
def State.epochDiscard (s : State) (p : Packet) (ahead : Bool) : State :=
  let s := s.unpost p.key
  let s := s.count C.FAB_CNT_EPOCHDISC 0
  let s := s.logRate 1000000 0 { code := 0x0804, context := p.context, argA := p.dst, item := p.item }
  let s := if ahead then
      let s := (s.flag F.FAB_STATUS_EPOCH_AHEAD_SEEN 0).fabErr p.dst 3 p
      { s with rel := { s.rel with aheads := s.rel.aheads ++ [(p.src, p.dst)] } }
    else s
  s.receipt p false

/-- The first epoch that a retraction which this device formed names for a stage: one whose results from the field section
are still to come, or one that a peer has not yet receipted. -/
def State.epochsRetracting (s : State) (ctx model stage : Nat) : List Nat :=
  let me := s.fget F.CNP_TOPO_ID_DEVICE 0
  let fs := s.rel.retracting.filterMap (fun q =>
    let h := q.hdr
    if h.getD 16 0 = ctx ∧ h.getD 17 0 = me ∧ leAt h 18 2 = stage ∧ leAt h 40 16 = model then some (leAt h 24 2) else none)
  let ps := (s.fab.held ++ s.fab.canopy).filterMap (fun p =>
    let b := p.payload
    if p.typ = .retraction ∧ p.context = ctx ∧ p.model = model ∧ b.getD 4 0 = me ∧ leAt b 6 2 = stage then some (leAt b 8 2)
    else none)
  fs ++ ps

/-- The epochs of a stage that packets under way, on the device or to a peer, live item contexts and pending retractions
name.  A packet from a peer names the peer's stage, numbered apart. -/
def State.epochsNamed (s : State) (ctx model stage : Nat) : List Nat :=
  let ps := (s.fab.net ++ s.fab.held ++ s.fab.canopy).filter (fun p =>
    p.context == ctx && p.model == model && p.stage == stage
      && (p.typ == .vector || p.typ == .kpart || p.typ == .exitPart || p.typ == .group || p.typ == .epochClose))
  let xs := s.items.filterMap (fun (x : Nat × ItemCtx) =>
    let l := s.lane x.2.lane
    if l.context = ctx ∧ l.model = model then
      ((l.chain.zipIdx.find? (fun (q : LaneStage × Nat) => q.1.stage == stage)).bind
        (fun (q : LaneStage × Nat) => Tab.find x.2.epochs q.2))
    else none)
  ps.map (fun p => p.epoch) ++ xs ++ s.epochsRetracting ctx model stage

/-- E_old of a stage (R198): the epoch named that lies furthest behind the current one. -/
def State.epochOld (s : State) (ctx model stage : Nat) : Nat :=
  let e := (s.epoch (stageKey ctx model stage)).cur
  (s.epochsNamed ctx model stage).foldl (fun o p => if epochAhead o e < epochAhead p e then p else o) e

/-- Ask for a frame boundary of a context (R380). -/
def State.askFrame (s : State) (ctx : Nat) (w : FrameWhy) : State :=
  let l := Tab.getD s.keep.frames ctx []
  if l.contains w then s
  else { s with keep := { s.keep with frames := Tab.set s.keep.frames ctx (l ++ [w]) } }

/-- Whether an advance would break the window of R198. -/
def State.epochFull (s : State) (ctx model stage : Nat) : Bool :=
  let e := (s.epoch (stageKey ctx model stage)).cur
  decide (32768 ≤ epochAhead (s.epochOld ctx model stage) (e + 1))

/-- A planned advance (R197): every receiver moves to e + 1.  The previous epoch stays open in the exit core until each
other old core has closed it, and in the next stage's entry core until the old exit core has.  The advance is held where
it would break the window of R198. -/
def State.advancePlanned (s : State) (m : Model) (r : StageRec) (old : List Nat) : State × Bool :=
  let k := stageKey m.context m.id r.stage
  let e := s.epoch k
  if s.epochFull m.context m.id r.stage then
    ((s.log { code := 0x0805, context := m.context, argA := r.stage }).askFrame m.context .epoch, false)
  else
    let n := (e.cur + 1) % 65536
    let exit := old.getD r.exitPos 0
    let inner := old.filter (fun c => c != exit)
    let after := (m.nextOn r).isSome
    ((s.setEpoch k ⟨n, !inner.isEmpty, inner⟩).setEntryEpoch k ⟨n, after, if after then [exit] else []⟩, true)

/-- Each core of the old placement sends an epoch close behind its last packet (R197): the old exit core to the next
stage's entry core, here or on a peer, the others to the old exit core. -/
def State.sendCloses (s : State) (m : Model) (r : StageRec) (old : List Nat) : State :=
  let e := ((s.epoch (stageKey m.context m.id r.stage)).cur + 65535) % 65536
  let exit := old.getD r.exitPos 0
  old.foldl (fun s c =>
    let p : Packet := { Packet.empty with typ := .epochClose, src := c, context := m.context, model := m.id, stage := r.stage, epoch := e }
    if c ≠ exit then s.postHeld { p with dst := exit }
    else if r.last then s
    else if r.nextDevice ≠ 255 then s.toPeer { p with dst := 255, dev := r.nextDevice, dstStage := r.nextStage }
    else match m.nextOn r with
      | none => s
      | some n => s.postHeld { p with dst := n.entry }) s

/-- A failover advance (R197): the previous epoch closes at once.  Where it breaks the window of
R198 the frame boundary is forced and the items that name an epoch outside it are withheld. -/
def State.advanceFailover (s : State) (m : Model) (r : StageRec) : State :=
  let k := stageKey m.context m.id r.stage
  let e := s.epoch k
  let full := s.epochFull m.context m.id r.stage
  let n := (e.cur + 1) % 65536
  let s := s.newEpoch k n
  if !full then s
  else
    let s := (s.log { code := 0x0805, context := m.context, argA := r.stage }).askFrame m.context .epoch
    let out := s.items.filter (fun (x : Nat × ItemCtx) =>
      let l := s.lane x.2.lane
      decide (l.context = m.context ∧ l.model = m.id) && (l.chain.zipIdx.any (fun (q : LaneStage × Nat) =>
        q.1.stage == r.stage && (Tab.find x.2.epochs q.2).elim false (fun p => decide (32768 ≤ epochAhead p n)))))
    out.foldl (fun s (x : Nat × ItemCtx) => s.withholdItem x.1) s

/-- A receiver's epochs after a close from a core: the previous epoch closes with the last close. -/
def EpochSt.close (e : EpochSt) (epoch src : Nat) : EpochSt :=
  if epochAhead epoch e.cur = 1 && e.waiting.contains src then
    let w := e.waiting.filter (fun c => c != src)
    { e with waiting := w, prevOpen := !w.isEmpty }
  else e

/-- EPOCH_CLOSE (R197).  Each old core sends to one of the two receivers, the one that waits for it. -/
def execEpochClose (a : Arrival) (s : State) : Res :=
  match s.packet a.packet with
  | none => .next s
  | some p =>
    if p.typ != .epochClose then .next s
    else
      match a.lost with
      | some n => .next (s.hdrFail p n)
      | none =>
        let k := stageKey p.context p.model p.stage
        let s := s.unpost a.packet
        let s := s.setEpoch k ((s.epoch k).close p.epoch p.src)
        let s := s.setEntryEpoch k ((s.entryEpoch k).close p.epoch p.src)
        .next (s.receipt p false)

/-! ### Arrivals in cores (R86, R136, R169, R196) -/

/-- Deliver a vector packet to a stage's entry core: a Canopy-input lane queues it until the item
is taken (R209); a vector whose item no longer runs, or that has landed already, is dropped. -/
def State.landPacket (s : State) (p : Packet) : State :=
  let l := s.lane p.lane
  match (s.model p.context p.model).bind (fun (m : Model) => m.stage p.dstStage) with
  | none => s
  | some (r : StageRec) =>
    let old := (s.core r.entry).vins.find? (fun v => v.lane == p.lane && v.item == p.item && v.index == p.vseq)
    if p.remote && l.first == r.stage then
      let wait : State := s.setLane p.lane { l with queue := l.queue ++ [p] }
      match s.ctxOn p.item p.lane with
      | some (n, x) =>
        if x.state = .running then (if old.elim true (fun v => !v.landed) then s.enterPacket p.lane n p else s)
        -- the join decides when the item's first packet is taken (Table 9.7); a repeat of a finished item's is dropped
        else if x.state = .created || (p.vseq == 0 && !p.retx) then wait
        else s
      | none => wait
    else
      match s.ctxOn p.item p.lane with
      | some (_, x) =>
        if x.state = .running && old.elim true (fun v => !v.landed) then s.enterVec r.entry (p.vec p.lane) r.inElems
        else s
      | none => s

/-- VECTOR_PACKET (R195, R196). -/
def execVectorPacket (packet : Nat) (damage : Damage) (s : State) : Res :=
  match s.packet packet with
  | none => .next s
  | some p =>
    if p.typ != .vector then .next s
    else
      match damage with
      | .header n => .next (s.hdrFail p n)
      | .payload => .next ((s.payFail p).receipt p true)
      | .none =>
        let j := (s.entryEpoch (stageKey p.context p.model p.stage)).judge p.epoch
        if j != 0 then .next (s.epochDiscard p (j == 2))
        else .next (((s.unpost packet).landPacket p).receipt p false)

/-- KPART_PACKET (R136): a core's share of the stage's input lands. -/
def execKpartPacket (packet : Nat) (damage : Damage) (s : State) : Res :=
  match s.packet packet with
  | none => .next s
  | some p =>
    if p.typ != .kpart then .next s
    else
      match damage with
      | .header n => .next (s.hdrFail p n)
      | .payload => .next (s.partFail p)
      | .none =>
        let s := s.unpost packet
        let old := (s.core p.dst).vins.find? (fun v => v.lane == p.lane && v.item == p.item && v.index == p.vseq)
        let s := match s.stageOf p.dst with
          | none => s
          | some (_, r) =>
            if old.elim false (fun v => v.landed) then s
            else s.landVec p.dst { p.vec p.lane with full := p.payload } false r.inElems
        .next ((s.partOk p).receipt p false)

/-- EXIT_PART (R103, R169): the part waits at its N_OFF for the exit core's SEND, and its count and
sums for the reduction record. -/
def execExitPart (packet : Nat) (damage : Damage) (s : State) : Res :=
  match s.packet packet with
  | none => .next s
  | some p =>
    if p.typ != .exitPart then .next s
    else
      match damage with
      | .header n => .next (s.hdrFail p n)
      | .payload => .next (s.partFail p)
      | .none =>
        let j := (s.epoch (stageKey p.context p.model p.stage)).judge p.epoch
        if j != 0 then .next (s.epochDiscard p (j == 2))
        else
          let s := s.unpost packet
          let part := match s.stageOf p.dst with
            | none => 0
            | some (_, r) => r.nPart (s.posOf p.src)
          let k := s.core p.dst
          let mine (q : ExitPart) : Bool := q.lane == p.lane && q.item == p.item && q.index == p.vseq && q.part == part
          let s := s.setCore p.dst { k with
            parts := k.parts.filter (fun q => !mine q) ++ [⟨p.lane, p.item, p.vseq, part, p.nOff, p.elemBits, p.len, p.payload⟩]
            exitSums := k.exitSums ++ p.sums }
          .next (((s.combineSums p.dst p.lane p.item p.vseq).partOk p).receipt p false)

/-- GROUP_TRANSFER (R86): the group enters the second level.  A core's next group waits until the
use that took its last one has drained. -/
def execGroupTransfer (packet : Nat) (damage : Damage) (s : State) : Res :=
  match s.packet packet with
  | none => .next s
  | some p =>
    if p.typ != .group then .next s
    else
      match damage with
      | .header n => .next (s.hdrFail p n)
      | .payload => .next (s.partFail p)
      | .none =>
        let j := (s.epoch (stageKey p.context p.model p.stage)).judge p.epoch
        if j != 0 then .next (s.epochDiscard p (j == 2))
        else
          let t := p.nOff % 2
          if (s.tile p.dst t).got.contains p.src then .next s
          else
            let s := s.unpost packet
            let s := p.cols.foldl (fun s (v : Nat × Int) => s.l2Add p.dst t v.1 v.2) s
            let x := s.tile p.dst t
            let s := s.setTile p.dst t { x.addGroup p.counts with
              got := x.got ++ [p.src], eout := p.eout
              clips := p.clips.foldl (fun m (v : Nat × Nat) => bump m v.1 v.2) x.clips
              groupsIn := if x.picked.isNone then x.groupsIn else
                p.cols.foldl (fun m (v : Nat × Int) => Tab.set m v.1 (Tab.getD m v.1 0 + v.2)) x.groupsIn }
            .next ((s.partOk p).receipt p false)

/-! ### DRAM (R195, R199, R201) -/

/-- Whether the scheduling round still has room for spill traffic: its share, or what is left to best effort (R202). -/
def State.memOpen (s : State) : Bool := decide (0 < Tab.getD s.fab.credit 4 0) || decide (0 < Tab.getD s.fab.credit 5 0)

/-- Spill traffic takes its bytes from its share, and what the share does not hold from best effort; it is measured
(R202, R204). -/
def State.useCredit (s : State) (n : Nat) : State :=
  let c := Tab.getD s.fab.credit 4 0
  let t := Tab.set s.fab.credit 4 (c - n)
  { s with fab := { s.fab with
      credit := Tab.set t 5 (Tab.getD t 5 0 - (n - c))
      traffic := s.fab.traffic.filter (fun (p : Nat × Nat) => decide (s.ns < p.1 + 1000000)) ++ [(s.ns, n)] } }

/-- MEMORY_READ (R201): a read that cannot be corrected is returned as failed.  A read waits while the round has no room
for it. -/
def execMemoryRead (a : Arrival) (err : EccErr) (s : State) : Res :=
  match s.packet a.packet with
  | none => .next s
  | some p =>
    if p.typ != .memRead then .next s
    else
      match a.lost with
      | some n => .next (s.hdrFail p n)
      | none =>
        if dramSize < p.addr + p.len then .fault (.dramAddress p.addr)
        else if !s.memOpen then .next s
        else
          let s := (s.unpost a.packet).useCredit p.len
          let d : Packet := { p with typ := .readData, src := p.dst, dst := p.src, ref := p.key }
          match err with
          | .double => .next ((s.memUe p.addr).post { d with nack := true, payload := [] })
          | .single => .next ((s.memCe p.addr).post { d with payload := s.dramRead p.addr p.len })
          | .none => .next (s.post { d with payload := s.dramRead p.addr p.len })

/-- Record a write whose data failed parity (R195, R204). -/
def State.memWpar (s : State) (addr : Nat) : State :=
  let s := s.count C.MEM_CNT_WPAR 0
  let s := s.flag F.MEM_STATUS_WPAR_SEEN 0
  let s := s.fset F.MEM_ERR_LO_ADDR_LO 0 (addr % 2 ^ 32)
  let s := s.fset F.MEM_ERR_HI_ADDR_HI 0 (addr / 2 ^ 32)
  let s := s.fset F.MEM_ERR_HI_UE 0 0
  let s := s.fset F.MEM_ERR_HI_WPAR 0 1
  let s := s.fset F.MEM_ERR_HI_VALID 0 1
  s.log { code := 0x0903, argA := addr / 2 ^ 20, argB := addr / 2 ^ 4 }

/-- MEMORY_WRITE (R195).  A write waits while the round has no room for it. -/
def execMemoryWrite (packet : Nat) (damage : Damage) (s : State) : Res :=
  match s.packet packet with
  | none => .next s
  | some p =>
    if p.typ != .memWrite then .next s
    else
      match damage with
      | .header n => .next (s.hdrFail p n)
      | .payload => .next (((s.payFail p).memWpar p.addr).receipt p true)
      | .none =>
        if dramSize < p.addr + p.payload.length then .fault (.dramAddress p.addr)
        else if !s.memOpen then .next s
        else .next ((((s.unpost packet).useCredit p.payload.length).dramWrite p.addr p.payload).receipt p false)

/-- A sender drops a packet it kept. -/
def State.unhold (s : State) (k : Nat) : State :=
  { s with fab := { s.fab with held := s.fab.held.filter (fun p => p.key != k) } }

/-- A sender sends a packet it kept once more. -/
def State.resend (s : State) (p : Packet) : State :=
  let q := { p with retx := true, sentNs := s.ns }
  let held := s.fab.held.map (fun x => if x.key = p.key then q else x)
  if p.remote then
    { s with fab := { s.fab with canopy := s.fab.canopy.filter (fun x => x.key != p.key) ++ [q], held := held } }
  else
    let s := s.count C.FAB_CNT_RETX 0
    { s with fab := { s.fab with
        net := s.fab.net.filter (fun x => x.key != p.key) ++ [q], held := held, vc0 := s.fab.vc0 + q.vc0 } }

/-- A read that failed for good: the requester acts as after an uncorrectable read of its region, and its fetch ends.
`p` is the request. -/
def State.readFailed (s : State) (p : Packet) : State :=
  let s := s.unhold p.key
  let k := s.core p.src
  let s := s.setCore p.src { k with fetches := k.fetches.filter (fun f => f.buf * 2 + f.win != p.nOff) }
  (s.replayAffected p.src).finishPosted p.src

/-- READ_DATA (R195): the words land in their window.  Data that fails is asked for again once; data that a router drops is
missed by the request's timeout. -/
def execReadData (packet : Nat) (damage : Damage) (s : State) : Res :=
  match s.packet packet with
  | none => .next s
  | some p =>
    if p.typ != .readData then .next s
    else
      match damage with
      | .header n => .next (s.hdrFail p n)
      | .payload =>
        let s := s.payFail p
        .next (match s.fab.held.find? (fun q => q.key == p.ref) with
          | none => s
          | some q => if q.retx then (s.secondFail p false).readFailed q else s.resend q)
      | .none =>
        let s := s.unpost packet
        match s.fab.held.find? (fun q => q.key == p.ref) with
        | none => .next s
        | some q =>
          if p.nack then .next (s.readFailed q)
          else
            let s := s.unhold q.key
            match s.buffer p.dst (p.nOff / 2) with
            | none => .next s
            | some b => .next (s.sramWrite p.dst (winAddr b (p.nOff % 2) + p.vseq) p.payload)

/-! ### Receipts (R138, R195) -/

/-- What follows a second failure by packet type (Table 8.3). -/
def State.lost (s : State) (p : Packet) : State :=
  let s := s.unhold p.key
  let s := { s with fab := { s.fab with net := s.fab.net.filter (fun x => x.key != p.key) } }
  match p.typ with
  | .vector => s.fabReplay p.src p
  | .kpart => s.fabReplay p.src p
  | .exitPart => s.fabReplay p.dst p
  | .group => s.fabReplay p.dst p
  | .memWrite => s.regionUe p.addr
  | .memRead => s.readFailed p
  | _ => s

/-- An input vector is acknowledged to the stage that sent it, which need not hold its own input any
longer (R24, R138). -/
def State.acknowledged (s : State) (p : Packet) : State :=
  if p.thread.elim true (fun t => t % 2 == 0) then s.releaseVec p.src p.lane p.item p.vseq
  else s.releaseItemVecs p.src p.lane p.item

/-- RECEIPT (R138, R195).  A vector's send buffer is freed by its receipt; the acknowledgement from
the next stage's entry core, or for a peer the receipt itself, releases the held input. -/
def execReceipt (a : Arrival) (s : State) : Res :=
  match s.packet a.packet with
  | none => .next s
  | some p =>
    if p.typ != .control && p.typ != .receipt then .next s
    else
      match a.lost with
      | some n => .next (s.hdrFail p n)
      | none =>
        let s := s.unpost a.packet
        if p.typ = .control then
          -- the stage whose exit core sent the vector is that core's stage
          .next (s.acknowledged { p with src := p.dst, thread := if p.len = 1 then some 1 else none })
        else
          match s.fab.held.find? (fun q => q.key == p.ref) with
          | none => .next s
          | some q =>
            if !p.nack then
              let s := s.unhold q.key
              .next ((if q.remote && q.typ == .vector then s.acknowledged q else s).finishPosted q.src)
            else if q.typ = .kpart || q.typ = .exitPart || q.typ = .group then .next ((s.unhold q.key).finishPosted q.src)
            else if q.retx then .next (((s.secondFail q false).lost q).finishPosted q.src)
            else .next (s.resend q)

/-- RECEIPT_TIMEOUT (R195): the packet counts as lost; it is sent once more, and the second time
treated as Table 8.3 says for its type. -/
def execReceiptTimeout (packet : Nat) (s : State) : Res :=
  match s.fab.held.find? (fun q => q.key == packet) with
  | none => .next s
  | some q =>
    if q.remote || decide (s.ns < q.sentNs + s.fget F.FAB_CFG_RECEIPT_TO_US 0 * 1000) then .next s
    else
      let s := s.count C.FAB_CNT_TIMEOUT 0
      let s := s.flag F.FAB_STATUS_TIMEOUT_SEEN 0
      let s := s.fabErr q.src 2 q
      let s := s.log { code := 0x0803, context := q.context, argA := q.src, item := q.item }
      if q.retx then .next (((s.secondFail q true).lost q).finishPosted q.src) else .next (s.resend q)

/-! ### The patrol scrubber, the round and the commit (R201 to R203) -/

/-- PATROL_SCRUB (R201): the next page outside the master pool; the page after 49,151 is the first
of the next round. -/
def execPatrolScrub (page block : Nat) (err : EccErr) (s : State) : Res :=
  if page != 1024 + s.fab.patrol then .next s
  else
    let a := page * 2 ^ 20 + block % 16384 * 64
    let s := match err with
      | .none => s
      | .single => s.memCe a
      | .double => (s.memUe a).regionUe a
    if page = 49151 then
      let s := { s with fab := { s.fab with patrol := 0 } }
      .next ((s.count C.MEM_CNT_SCRUB 0).fset F.MEM_STATUS_SCRUB_ACTIVE 0 0)
    else
      let s := { s with fab := { s.fab with patrol := s.fab.patrol + 1 } }
      .next (s.flag F.MEM_STATUS_SCRUB_ACTIVE 0)

/-- The share of a class of Table 8.5 in 0.1 GB/s; best effort has none of its own. -/
def State.memShare (s : State) (cls : Nat) : Nat :=
  if cls = 0 then s.fget F.MEM_SHARE_RST_G_RST 0
  else if cls = 1 then s.fget F.MEM_SHARE_LOAD_LOAD 0
  else if cls = 2 then 200
  else if cls = 3 then 80
  else if cls = 4 then s.fget F.MEM_SHARE_ADM_ADM 0
  else 0

/-- DRAM_ROUND (R202): every class gets its share of 1 µs in bytes as credit, and best effort what the other classes left of
the round before.  What the classes but the admitted streams used over the last millisecond is a measured value. -/
def execDramRound (s : State) : Res :=
  let n := s.free
  let s := s.draw 6
  let spare := (List.range 5).foldl (fun t k => t + Tab.getD s.fab.credit k 0) 0
  let s := { s with fab := { s.fab with
    credit := (List.range 6).foldl (fun t k => Tab.set t k (if k = 5 then spare else s.memShare k * 100)) s.fab.credit
    used := (List.range 6).foldl (fun t k => Tab.set t k (Config.measured (n + k) % 65536)) s.fab.used } }
  .next s

/-- FAB_COMMIT (R203). -/
def execFabCommit (s : State) : Res :=
  let v := s.staging F.FAB_CFG_RECEIPT_TO_US 0
  if v < 1 || 16 < v then .next ((s.flag F.FAB_STATUS_CFG_INVALID 0).log { code := 0x0806 })
  else .next (s.applyStaged F.FAB_CFG_RECEIPT_TO_US 0)

end Sys2Proof.Machine
end

