-- ==== Sys2Proof/Machine/KeepOps.lean ====
section
/-! DEFINITION. The Keep as shared operations (R362 to R373, R385, R386): the identity record, the
attestation report, settling, context states, and the end of a mailbox command. -/

namespace Sys2Proof.Machine

/-! ### Identity and firmware (R363, R366) -/

/-- The module's serial number. -/
def serialNo : Nat := Config.nonVolatile 0 0 % 2 ^ 64

/-- The identity record (Table 15.3): its provisioned contents differ from part to part. -/
def identityBytes : List Nat :=
  bytesOf 2 1 ++ bytesOf 2 0x9632 ++ [0xB0, 0, 0, 0] ++ (List.range 8).map (fun i => Config.nonVolatile 1 i % 256)
    ++ [Config.nonVolatile 2 0 % 256, Config.nonVolatile 2 1 % 256, Config.nonVolatile 2 2 % 256, 0]
    ++ bytesOf 8 serialNo ++ bytesOf 4 (Config.nonVolatile 2 3)
    ++ (List.range 57).map (fun i => Config.nonVolatile 3 i % 256) ++ List.replicate 39 0

/-- The image with which a slot was shipped: free bytes behind the fixed part of the header. -/
def factoryImage (typ : Nat) : List Nat := (List.range 65536).map (fun i => Config.nonVolatile (16 + typ) i % 256)

/-- The image in a slot of a firmware type. -/
def State.fwImage (s : State) (typ slot : Nat) : List Nat :=
  if s.mgmt.factory.contains (typ * 2 + slot) then factoryImage typ else Tab.getD s.mgmt.images (typ * 2 + slot) []

/-- The measurement of an image: the digest of its header and body (R363). -/
def fwMeasure (b : List Nat) : List Nat :=
  if b.isEmpty then List.replicate 64 0 else shake256 (slice b 0 (128 + leAt b 16 4))

/-- The active slot of a firmware type. -/
def State.fwActive (s : State) (typ : Nat) : Nat := s.fget F.MGT_FW_DATA_ACTIVE typ

/-- One firmware entry of an attestation report; the field entry is 0 while the field section is
absent. -/
def State.fwEntry (s : State) (typ : Nat) : List Nat :=
  let slot := s.fwActive typ
  let b := s.fwImage typ slot
  if typ = 5 && !s.bar.fieldHere then List.replicate 80 0
  else [typ, slot, 0, 0] ++ bytesOf 4 (leAt b 8 4) ++ bytesOf 4 (s.fget F.KEEP_SVN_DATA_COUNTER typ)
    ++ bytesOf 4 (leAt b 12 4) ++ fwMeasure b

/-! ### The attestation report (R371, R372, Table 15.6) -/

/-- The TDI state of a context as KEEP_CTX_STATE.TDI shows it. -/
def State.tdiOf (s : State) (ctx : Nat) : Nat :=
  let v := s.ownerOf ctx
  match if v = 0 then none else Tab.find s.keep.tdi v with
  | none => 0
  | some t => t + 1

/-- The state of a context (Table 15.4 in order). -/
def State.ctxState (s : State) (ctx : Nat) : Nat := s.fget F.KEEP_CTX_STATE_STATE ctx

/-- The program digest of a model (R372). -/
def State.programDigest (s : State) (m : Model) : List Nat :=
  let ds := m.stages.flatMap (fun r => r.placed.flatMap (fun c => (s.seq c).digest))
  shake256 (ds ++ [5, 6, 7].flatMap (fun t => Tab.getD m.sections t []))

/-- One model entry of a report; a digest not yet formed reads 0. -/
def State.modelEntry (s : State) (m : Model) : List Nat :=
  slice (bytesOf 16 m.id ++ bytesOf 4 m.gen ++ [ofBool m.encrypted + 2 * ofBool m.unshielded] ++ List.replicate 11 0
    ++ slice m.digest 0 64 ++ s.programDigest m) 0 160

/-- One core entry of a report. -/
def State.coreEntry (s : State) (c : Nat) : List Nat :=
  let p := (s.core c).place
  let st := p.elim 0 (fun p => p.stage)
  let ep := p.elim 0 (fun p => (s.epoch (stageKey p.context p.model p.stage)).cur)
  [c, s.fget F.CORE_ROLE_ROLE c, p.elim 0 (fun p => p.context), s.fget F.CORE_STATUS_STATE c]
    ++ bytesOf 4 (s.fget F.KEEP_CORE_DATA_RESETGEN c) ++ bytesOf 2 st ++ bytesOf 2 ep
    ++ [s.fget F.KEEP_CORE_DATA_CLEAN c, 0, 0, 0]

/-- One context entry of a report. -/
def State.ctxEntry (s : State) (ctx : Nat) : List Nat :=
  [s.ctxState ctx, ofBool ((Tab.find s.keep.defs ctx).elim false (fun d => d.conf)) + 2 * ofBool (s.conf ctx),
   s.tdiOf ctx, s.fget F.KEEP_CTX_STATE_KEYGEN ctx, s.ownerOf ctx, 0, 0, 0]

/-- The 2,818 bytes of a report on a context, signed by the attestation key. -/
def State.report (s : State) (ctx : Nat) (nonce data : List Nat) : List Nat :=
  let ms := s.models.filter (fun m => m.context == ctx && m.state == .loaded)
  let body :=
    bytesOf 4 0x54415651 ++ bytesOf 2 1 ++ bytesOf 2 2818
      ++ [ctx, ofBool (s.conf ctx) + 2 * ofBool s.bar.fieldHere + 4 * ofBool (s.fget F.KEEP_STATUS_STATE 0 == 2)
            + 8 * ofBool (ms.any (fun m => m.unshielded)), s.tdiOf ctx, s.fget F.REL_STATUS_LOOKOUTS 0]
      ++ bytesOf 4 (s.fget F.KEEP_RESETGEN_DEVICE 0) ++ slice nonce 0 32
      ++ [s.bar.fieldGen % 256] ++ List.replicate 15 0 ++ identityBytes
      ++ [1, 2, 3, 4, 5].flatMap s.fwEntry
      ++ (List.range 32).flatMap s.coreEntry ++ (List.range 32).flatMap s.ctxEntry
      ++ slice (ms.flatMap s.modelEntry) 0 1280 ++ slice data 0 64
  body ++ slice (Config.ed448Sign s.keep.ak (shake256 body)) 0 114

/-! ### Settling (R373) -/

/-- The device begins to settle for a reason. -/
def State.settleOn (s : State) (w : Settle) : State :=
  let s := if s.keep.settle.contains w then s else { s with keep := { s.keep with settle := s.keep.settle ++ [w] } }
  if s.fget F.KEEP_STATUS_STATE 0 = 1 then s.fset F.KEEP_STATUS_STATE 0 3 else s

/-- A reason to settle has ended. -/
def State.settleOff (s : State) (w : Settle) : State :=
  let s := { s with keep := { s.keep with settle := s.keep.settle.filter (fun x => x != w) } }
  if s.keep.settle.isEmpty && s.fget F.KEEP_STATUS_STATE 0 == 3 then s.fset F.KEEP_STATUS_STATE 0 1 else s

/-- Whether the device is settling for requests on a context: a generation switch counts for its own
context alone. -/
def State.settling (s : State) (ctx : Nat) : Bool :=
  s.keep.settle.any (fun w =>
    match w with
    | .switching c _ => c == ctx
    | _ => true)

/-! ### Mailbox results (R385, R386) -/

/-- Write bytes into KEEP_MB_DATA. -/
def State.mbWrite (s : State) (b : List Nat) : State :=
  (List.range (ceilDiv (Nat.min 4096 b.length) 4)).foldl (fun s i =>
    s.fset F.KEEP_MB_DATA_DATA i (leAt b (4 * i) 4)) s

/-- The bytes in KEEP_MB_DATA. -/
def State.mbRead (s : State) (n : Nat) : List Nat :=
  slice ((List.range (ceilDiv n 4)).flatMap (fun i => bytesOf 4 (s.fget F.KEEP_MB_DATA_DATA i))) 0 n

/-- Answer a mailbox command: in the mailbox's registers, or in the reply of a management session.
A refused command is counted. -/
def State.keepDone (s : State) (by' : KeepFrom) (status : Nat) (out : List Nat) : State :=
  let s := if status = 0 then s else s.count C.KEEP_CNT_MBREFUSE 0
  match by' with
  | .mailbox =>
    let s := s.mbWrite out
    let s := s.fset F.KEEP_MB_STATUS_BUSY 0 0
    let s := s.fset F.KEEP_MB_STATUS_DONE 0 1
    let s := s.fset F.KEEP_MB_STATUS_STATUS 0 status
    s.fset F.KEEP_MB_STATUS_OUT_LEN 0 out.length
  | .session id tag => s.replyTo id 0x0021 tag 0 (status :: out)
  | .spdm => s.emit (.spdm 0 (status :: out))

/-! ### Context states (R367, R368) -/

/-- Put a context into a state. -/
def State.setCtxState (s : State) (ctx v : Nat) : State := s.fset F.KEEP_CTX_STATE_STATE ctx v

/-- Whether a context is confidential under R368: a VF whose TDI is locked or runs owns it, and its
definition has CONFIDENTIAL set. -/
def State.confNow (s : State) (ctx : Nat) : Bool :=
  let t := Tab.getD s.keep.tdi (s.ownerOf ctx) 0
  s.ownerOf ctx != 0 && (t == 1 || t == 2) && (Tab.find s.keep.defs ctx).elim false (fun d => d.conf)

/-- Bring what depends on ownership and TDI states up to date: CONF, TDI and OWNER of every context, the
debug mode of cores whose context has become confidential (R161), and CONF_ACTIVE. -/
def State.ctxRefresh (s : State) : State :=
  let s := (List.range 32).foldl (fun s x =>
    let s := s.fset F.KEEP_CTX_STATE_CONF x (ofBool (s.confNow x))
    let s := s.fset F.KEEP_CTX_STATE_TDI x (s.tdiOf x)
    s.fset F.KEEP_CTX_STATE_OWNER x (s.ownerOf x)) s
  let s := (List.range 32).foldl (fun s c =>
    if s.conf (s.ctxOf c) then (s.fset F.CORE_STATUS_DEBUG c 0).fset F.KEEP_CORE_DATA_CLEAN c 0 else s) s
  s.fset F.KEEP_STATUS_CONF_ACTIVE 0 (ofBool ((List.range 32).any (fun x => s.conf x && s.ctxState x == 2)))

/-- Resident contexts. -/
def State.residents (s : State) : List Nat := (List.range 32).filter (fun x => s.ctxState x == 2)

end Sys2Proof.Machine
end

