-- ==== Sys2Proof/Machine/Place.lean ====
section
/-! DEFINITION. Placement (R111, R112, R158, R159, R172, R179, R183, R200, R202): the core pool, the
bandwidth shares, sync counter blocks, DRAM pages, buffers, and the load report. -/

namespace Sys2Proof.Machine

/-! ### Bandwidth shares (R111, R202) -/

/-- The bytes of one sweep of a core's engines in service. -/
def State.sweepBytes (s : State) (c : Nat) : Nat :=
  (s.inService c).foldl (fun n e => n + 2048 * planUsed (s.plan c e)) 0

/-- The working cores of every model. -/
def State.stageCores (s : State) : List Nat :=
  s.models.flatMap (fun (m : Model) => m.stages.flatMap (fun (r : StageRec) => r.placed))

/-- Recompute G_rst, the load reserve and the admissible bandwidth, in 0.1 GB/s. -/
def State.shares (s : State) : State :=
  let cs := s.stageCores.map s.sweepBytes
  let sum := cs.foldl (fun a b => a + b) 0 + 2 * cs.foldl Nat.max 0
  let g := Nat.max 1600 (ceilDiv sum 90000)
  let load := if s.models.any (fun (m : Model) => !m.unshielded) then 5600 else 0
  let s := s.fset F.MEM_SHARE_RST_G_RST 0 g
  let s := s.fset F.MEM_SHARE_LOAD_LOAD 0 load
  s.fset F.MEM_SHARE_ADM_ADM 0 (16000 - g - load - 280)

/-! ### The pool (R25, R172) -/

/-- The core with a placement rank. -/
def rankCore (r : Nat) : Nat := let row := r / 8; 8 * row + (if row % 2 = 0 then r % 8 else 7 - r % 8)

/-- Whether a core is held for another context by a hand-over (R381). -/
def State.heldFor (s : State) (ctx c : Nat) : Bool :=
  (Tab.find s.keep.bleed c).elim false (fun (b : Bleed) => b.context != ctx)

/-- The free cores that a context may take, lowest number first. -/
def State.freeFor (s : State) (ctx : Nat) : List Nat := s.freeCores.filter (fun c => !s.heldFor ctx c)

/-- The pool of R172, in rank order: the free cores that no empty Lookout place is to take. -/
def State.pool (s : State) (ctx : Nat) : List Nat :=
  ((List.range 32).map rankCore).filter (fun c => (s.freeFor ctx).contains c && !s.reserve.contains c)

/-- The Lookouts' cores that no failover has taken, ascending. -/
def State.lookoutCores (s : State) : List Nat :=
  (List.range 32).filter (fun c => (s.lookoutOf c).isSome && !s.rel.failovers.any (fun f => f.lookout == c))

/-- CORES_SHORT of each stage: placement runs until the pool is empty. -/
def shortfall : List Nat → Nat → List Nat
  | [], _ => []
  | n :: r, left => if n ≤ left then 0 :: shortfall r (left - n) else (n - left) :: shortfall r 0

/-- Each stage takes the next cores of the pool. -/
def takeCores : List Nat → List Nat → List (List Nat)
  | [], _ => []
  | n :: r, pool => pool.take n :: takeCores r (pool.drop n)

/-! ### Sync counter blocks (R179, R322) -/

/-- The blocks in use: first counter and count. -/
def State.syncBlocks (s : State) : List (Nat × Nat) :=
  (s.models ++ s.keep.parked.map Prod.fst).flatMap (fun (m : Model) => (m.stages.filter (fun (r : StageRec) => r.syncCount != 0)).map
    (fun (r : StageRec) => (r.syncBase, r.syncCount)))

/-- First fit among blocks in use, from counter 0 upwards. -/
def firstFit (used : List (Nat × Nat)) (n : Nat) : Option Nat :=
  let ok (b : Nat) : Bool := decide (b + n ≤ 16384) && used.all (fun u => decide (b + n ≤ u.1) || decide (u.1 + u.2 ≤ b))
  (0 :: used.map (fun u => u.1 + u.2)).foldl (fun t b =>
    if ok b then some (t.elim b (fun x => Nat.min x b)) else t) none

/-- A block for every stage, none where the free counters do not suffice. -/
def syncFit : List Nat → List (Nat × Nat) → Option (List Nat)
  | [], _ => some []
  | n :: r, used =>
    if n = 0 then (syncFit r used).map (fun l => 0 :: l)
    else (firstFit used n).bind (fun b => (syncFit r ((b, n) :: used)).map (fun l => b :: l))

/-- Give a block of counters to a stage; each holds 0. -/
def State.syncTake (s : State) (base n ctx stage : Nat) : State :=
  (rangeFrom base n).foldl (fun s i =>
    let s := s.fset F.SYNC_VALUE_VALUE i 0
    let s := s.fset F.SYNC_WAIT_ALLOC i 1
    let s := s.fset F.SYNC_OWNER_CONTEXT i ctx
    s.fset F.SYNC_OWNER_STAGE i stage) s

/-! ### DRAM pages (R199, R200) -/

/-- The lowest `n` free context pages from a page on, lowest first; fewer where fewer are free. -/
def lowFree (t : Tab PageEnt) : Nat → Nat → Nat → List Nat
  | 0, _, _ => []
  | f + 1, p, n =>
    if n = 0 ∨ 49152 ≤ p then []
    else if (Tab.find t p).isNone then p :: lowFree t f (p + 1) (n - 1)
    else lowFree t f (p + 1) n

/-- Give free context pages to a context for a use, lowest-numbered first; none where they do not suffice. -/
def State.takePages (s : State) (ctx use n : Nat) : Option (List Nat × State) :=
  let ps := lowFree s.fab.pages (n + s.fab.pages.length) 1280 n
  if ps.length < n then none
  else
    let g := s.fget F.KEEP_CTX_STATE_KEYGEN ctx
    some (ps, { s with fab := { s.fab with pages := ps.zipIdx.foldl (fun t (x : Nat × Nat) =>
      Tab.set t x.1 ⟨ctx, use, g, x.2, false⟩) s.fab.pages } })

/-- The lowest free master regions. -/
def State.freeRegions (s : State) : List Nat :=
  (List.range 1024).filter (fun p => (Tab.find s.fab.pages p).isNone)

/-! ### Buffers (R158, R159, R180) -/

/-- The bytes of core SRAM that buffers may take under a position's mapping: what the statistics
records and the 64 KiB receive area leave. -/
def bufferSpace (ms : List MapEnt) : Nat :=
  sramSize - 65536 - 32 * ((ms.filter (fun e => e.chainPos == 0)).foldl (fun n e => n + planCols e.plan) 1024)

/-- Whether a buffer must be resident: its class, or a descriptor without fallback preloads from it
(R93, R159). -/
def pinned (descs : List (List Nat)) (x : BufRec) : Bool :=
  decide (x.cls < 2) || descs.any (fun l =>
    let d := descOf l
    d.begin == 0 && !d.fallback && bits (l.getD 4 0) 24 8 == x.buf && x.buf != 255)

/-- Spillable buffers in order: each goes into core SRAM while it fits beside the two-chunk windows of
those after it. -/
def placeSpill : List BufRec → Nat → Nat → Option (List (BufRec × Nat × Bool))
  | [], _, _ => some []
  | x :: r, base, left =>
    let later := r.foldl (fun n y => n + 2 * y.chunk) 0
    if x.size + later ≤ left then (placeSpill r (base + x.size) (left - x.size)).map (fun l => (x, base, false) :: l)
    else if 2 * x.chunk ≤ left then
      (placeSpill r (base + 2 * x.chunk) (left - 2 * x.chunk)).map (fun l => (x, base, true) :: l)
    else none

/-- Buffers at consecutive addresses. -/
def placeFixed : List BufRec → Nat → List (BufRec × Nat × Bool)
  | [], _ => []
  | x :: r, base => (x, base, false) :: placeFixed r (base + x.size)

/-- The bases of a core position's buffers, none where they do not fit. -/
def placeBuffers (ms : List MapEnt) (descs : List (List Nat)) (bufs : List BufRec) : Option (List (BufRec × Nat × Bool)) :=
  let a := bufs.filter (pinned descs)
  let b := bufs.filter (fun x => !pinned descs x)
  let n := a.foldl (fun n x => n + x.size) 0
  let space := bufferSpace ms
  if space < n then none else (placeSpill b n (space - n)).map (fun l => placeFixed a 0 ++ l)

/-- Pages for `n` bytes. -/
def pagesFor (n : Nat) : Nat := ceilDiv n (2 ^ 20)

/-- Homes for a list of sizes from an address on. -/
def homes : List Nat → Nat → List Nat
  | [], _ => []
  | n :: r, a => a :: homes r (a + n)

/-- What the loader gives a core position: its buffers, and the pages of its program and constants and
of its spill area. -/
structure PosPlan where
  stage : Nat
  pos : Nat
  core : Nat
  bufs : List Buffer
  pages : List Nat
  /-- the copy of the program, which the constants follow -/
  copy : Paged
  deriving DecidableEq, Repr

/-- The spilled buffers of a placement that lie in DRAM: all, or those but class 3 where that lies in host memory. -/
def dramBufs (l : List (BufRec × Nat × Bool)) (host : Bool) : List (BufRec × Nat × Bool) :=
  l.filter (fun x => x.2.2 && !(host && x.1.cls == 3))

/-- The bytes of some buffers. -/
def bufBytes (l : List (BufRec × Nat × Bool)) : Nat := l.foldl (fun n x => n + x.1.size) 0

/-- The buffers of a core position with their homes and the copies of their initial contents, in pages `ps` and `hs`.  The
home of a buffer in host memory is its offset, from `off` on, in the spill buffer that a lane supplies (log entry 39). -/
def placedBufs (l : List (BufRec × Nat × Bool)) (inits : List Nat) (host : Bool) (ps spill : List Nat) (off : Nat) : List Buffer :=
  let hs := homes (l.map (fun x => if x.2.2 && !(host && x.1.cls == 3) then x.1.size else 0)) 0
  let os := homes (l.map (fun x => if x.2.2 && host && x.1.cls == 3 then x.1.size else 0)) off
  (l.zip (inits.zip (hs.zip os))).map (fun (y : (BufRec × Nat × Bool) × Nat × Nat × Nat) =>
    let x := y.1.1
    let h := y.1.2.2 && host && x.cls == 3
    { buf := x.buf, cls := x.cls, size := x.size, chunk := x.chunk, base := y.1.2.1, spilled := y.1.2.2
      host := h, home := if h then y.2.2.2 else y.2.2.1, pages := if y.1.2.2 && !h then spill else []
      init := x.init.map (fun _ => ⟨ps, y.2.1⟩)
      win0 := none, win1 := none })

/-- The bytes that a core position's copies take: its program, and the initial contents of its buffers. -/
def copyBytes (l : List (BufRec × Nat × Bool)) (len : Nat) : Nat :=
  l.foldl (fun n x => if x.1.init.isSome then n + x.1.size else n) (8 * len)

/-- The plan of a core position whose copies lie in pages `ps`, and whose spilled buffers in pages `hs`. -/
def posPlan (r : StageRec) (pos c : Nat) (l : List (BufRec × Nat × Bool)) (len : Nat) (ps hs : List Nat) (host : Bool)
    (off : Nat) : PosPlan :=
  let inits := homes (l.map (fun x => if x.1.init.isSome then x.1.size else 0)) (8 * len)
  ⟨r.stage, pos, c, placedBufs l inits host ps hs off, ps ++ hs, ⟨ps, 0⟩⟩

/-- The pages of the spilled buffers of a core position, and whether class 3 lies in host memory, where it goes if the pages
do not suffice and the context is not confidential (assumption log 39). -/
def State.spillPages (s : State) (ctx : Nat) (l : List (BufRec × Nat × Bool)) : Option (List Nat × Bool × State) :=
  ((s.takePages ctx 3 (pagesFor (bufBytes (dramBufs l false)))).map (fun y => (y.1, false, y.2))).or
    (if s.conf ctx then none
     else (s.takePages ctx 3 (pagesFor (bufBytes (dramBufs l true)))).map (fun y => (y.1, true, y.2)))

/-- Take the pages of a core position's copies and of its spilled buffers. -/
def State.planPages (s : State) (ctx : Nat) (r : StageRec) (pos c : Nat) (l : List (BufRec × Nat × Bool)) (len off : Nat) :
    LoadErr ⊕ (PosPlan × State) :=
  let full : LoadErr ⊕ (PosPlan × State) := .inl { status := 0x18, stage := r.stage }
  (s.takePages ctx 2 (pagesFor (copyBytes l len))).elim full (fun x =>
    (x.2.spillPages ctx l).elim full (fun y => .inr (posPlan r pos c l len x.1 y.1 y.2.1 off, y.2.2)))

/-- The first buffer, as a record of BUFFERS, for which a core position has no place. -/
def unplaced (b : List Nat) (ms : List MapEnt) (descs : List (List Nat)) (bufs : List BufRec) : Nat :=
  let l := bufs.filter (pinned descs) ++ bufs.filter (fun x => !pinned descs x)
  let n := ((List.range l.length).find? (fun n => (placeBuffers ms descs (l.take (n + 1))).isNone)).getD 0
  ((l[n]?).bind (fun x => (imgBufs b).idxOf? x)).getD 0

/-- Place the buffers of a core position, those in host memory from offset `off` on; what a program reaches in a spilled
buffer must lie in its window; the state returned holds the pages taken. -/
def State.planPos (s : State) (ctx : Nat) (b : List Nat) (r : StageRec) (pos c off : Nat) : LoadErr ⊕ (PosPlan × State) :=
  match programAt b r.stage pos with
  | none => .inl { status := 0x07, stage := r.stage }
  | some (g, i) =>
    let ms := (imgMaps b).filter (fun e => e.stage == r.stage && e.pos == pos)
    let descs := (List.range 64).map (imgDesc b i)
    let bufs := bufsOf (imgBufs b) r.stage pos
    match placeBuffers ms descs bufs with
    | none => .inl { status := 0x0C, stage := r.stage, index := unplaced b ms descs bufs }
    | some l =>
      match windowCheck b r g i (l.map (fun x => if x.2.2 then { x.1 with size := 2 * x.1.chunk } else x.1)) with
      | some e => .inl e
      | none => s.planPages ctx r pos c l g.len off

/-- Place the buffers of every core position in turn, those in host memory from offset `off` on. -/
def State.planAll (s : State) (ctx : Nat) (b : List Nat) : List (StageRec × Nat × Nat) → Nat → LoadErr ⊕ (List PosPlan × State)
  | [], _ => .inr ([], s)
  | (r, pos, c) :: rest, off =>
    match s.planPos ctx b r pos c off with
    | .inl e => .inl e
    | .inr (p, t) =>
      match t.planAll ctx b rest (off + (p.bufs.filter (fun x => x.host)).foldl (fun n x => n + x.size) 0) with
      | .inl e => .inl e
      | .inr (l, u) => .inr (p :: l, u)

/-! ### The load report (R183) -/

/-- Engines that a stage's matrices need under a plan. -/
def engUnder (ms : List MapEnt) (plan : Nat) : Nat :=
  let xs := (ms.map (fun e => e.matrix)).dedup
  xs.foldl (fun n x =>
    let es := ms.filter (fun e => e.matrix == x)
    let k := es.foldl (fun t e => Nat.max t (e.kOff + e.rows)) 0
    let m := es.foldl (fun t e => Nat.max t (e.nOff + e.cols)) 0
    n + ceilDiv k 2048 * ceilDiv m (planCols plan)) 0

/-- One stage record of a report. -/
def reportStage (ms : List MapEnt) (r : StageRec) (short : Nat) (taken : List Nat) (noEnv : Bool) : List Nat :=
  let es := ms.filter (fun e => e.stage == r.stage)
  let mask := taken.foldl (fun m c => m ||| 2 ^ c) 0
  slice (bytesOf 2 r.stage ++ [r.cores, short] ++ bytesOf 2 es.length
    ++ bytesOf 2 (es.length - 32 * (r.cores - short))
    ++ [0, 1, 2, 3].flatMap (fun p => bytesOf 2 (engUnder es p))
    ++ bytesOf 4 mask ++ bytesOf 4 (es.foldl (fun n e => n + e.rows * e.cols) 0) ++ [ofBool noEnv]) 0 32

/-- The report of a load: its header, and one record per stage where the image's stage records could be
read. -/
def loadReport (b : List Nat) (e : LoadErr) (unshielded : Bool) (avail : Nat) (shorts : List Nat)
    (taken : List (List Nat)) : List Nat :=
  let st := if (headerCheck b).isNone then imgStages b else []
  let ms := if (headerCheck b).isNone then imgMaps b else []
  let noEnv (r : StageRec) : Bool := (imgEnvelope b r.stage).isEmpty
  slice ([e.status, ofBool unshielded + 2 * ofBool (st.any noEnv), st.foldl (fun n r => n + r.cores) 0, avail]
      ++ bytesOf 2 e.stage ++ [0, 0] ++ bytesOf 4 e.index ++ bytesOf 4 ms.length
      ++ bytesOf 4 (ms.foldl (fun n x => n + x.rows * x.cols) 0) ++ bytesOf 4 st.length) 0 32
    ++ st.zipIdx.flatMap (fun (x : StageRec × Nat) =>
      reportStage ms x.1 (shorts.getD x.2 0) (taken.getD x.2 []) (noEnv x.1))

end Sys2Proof.Machine
end

