-- ==== Sys2Proof/Machine/Sync.lean ====
section
/-! DEFINITION. The sync counter unit (R319, R322 to R327): ADD, CLAIM, WAIT_GE and PEEK, and the
sequencer's SIGNAL and WAITC. -/

namespace Sys2Proof.Machine

/-! ### Operation records (Table 13.6) -/

/-- A counter operation record. -/
structure CtrOp where
  op : Nat
  status : Nat := 0
  index : Nat
  operand : Nat
  tag : Nat := 0
  node : Nat
  context : Nat
  value : Nat := 0
  deriving DecidableEq, Repr

/-- The 64 bytes of a record. -/
def CtrOp.bytes (o : CtrOp) : List Nat :=
  slice ([o.op, o.status] ++ bytesOf 2 o.index ++ bytesOf 4 o.operand ++ bytesOf 2 o.tag ++ [o.node, o.context]
    ++ bytesOf 4 o.value) 0 64

/-- Read a record. -/
def ctrOp (b : List Nat) : CtrOp :=
  ⟨b.getD 0 0, b.getD 1 0, leAt b 2 2, leAt b 4 4, leAt b 8 2, b.getD 10 0, b.getD 11 0, leAt b 12 4⟩

/-- Whether OP and OPERAND lie in the table. -/
def CtrOp.ok (o : CtrOp) : Bool :=
  if o.op = 1 then decide (1 ≤ o.operand) && decide (o.operand ≤ 65535)
  else if o.op = 4 then o.operand == 0 else o.op == 2 || o.op == 3

/-! ### Addressing (R316, R322, R323) -/

/-- The registered stage that a pair of MODEL_ID and stage number names. -/
def State.registered (s : State) (model stage : Nat) : Option (Model × StageRec) :=
  s.models.findSome? (fun (m : Model) => if m.id = model then (m.stage stage).map (fun (r : StageRec) => (m, r)) else none)

/-- The stage whose block an operation names: on this device the one in the sender's context (R179), from a peer the
registered one (R323). -/
def State.blockOf (s : State) (p : Packet) : Option (Model × StageRec) :=
  if p.remote then s.registered p.model p.dstStage
  else (s.model p.context p.model).bind (fun (m : Model) => (m.stage p.dstStage).map (fun (r : StageRec) => (m, r)))

/-- The counter of a stage's block that an operation from a node names, or the status that refuses it: sealed counters
take operations from node 44 alone (R322). -/
def ctrOf (who : Option (Model × StageRec)) (src : Nat) (o : CtrOp) : Nat ⊕ Nat :=
  if bit o.index 14 then
    (if src = 44 then .inr (16384 + o.index % 64) else .inl 4)
  else
    match who with
    | none => .inl 1
    | some (_, r) =>
      if r.syncCount = 0 then .inl 1
      else if r.syncCount ≤ o.index % 16384 then .inl 2
      else .inr (r.syncBase + o.index % 16384)

/-- How a record names the origin of an operation (R333): device and node. -/
def originWord (dev node : Nat) : Nat := dev % 128 * 64 + node % 64

/-- A malformed record (R323). -/
def State.badRecord (s : State) : State := s.count C.SYNC_CNT_STRAY 0

/-- An operation that resolves to no block (R323). -/
def State.stray (s : State) (o : CtrOp) (dev : Nat) : State :=
  let s := s.badRecord.flag F.SYNC_STATUS_STRAY_SEEN 0
  s.logRate 1000000 0 { code := 0x1302, context := o.context % 32, argA := o.index, argB := originWord dev o.node }

/-! ### Waiters (R324, R327) -/

/-- The waits of a counter, in order of arrival. -/
def State.waitsOf (s : State) (i : Nat) : List CtrWait := Tab.getD s.sync.waits i []

/-- Replace the waits of a counter; SYNC_WAIT and SYNC_WAITTAB follow. -/
def State.setWaits (s : State) (i : Nat) (l : List CtrWait) : State :=
  let s := { s with sync := { s.sync with waits := Tab.put [] s.sync.waits i l } }
  let s := s.fset F.SYNC_WAIT_CLAIMS i (l.filter (fun w => w.claim)).length
  let s := s.fset F.SYNC_WAIT_WAITS i (l.filter (fun w => !w.claim)).length
  let used := s.sync.waits.foldl (fun n (p : Nat × List CtrWait) => n + p.2.length) 0
  let s := s.fset F.SYNC_WAITTAB_USED 0 used
  s.fset F.SYNC_WAITTAB_PEAK 0 (Nat.max used (s.fget F.SYNC_WAITTAB_PEAK 0))

/-- The value of a counter. -/
def State.ctr (s : State) (i : Nat) : Nat := s.fget F.SYNC_VALUE_VALUE i

/-- Answer a requester: a core's INIT thread goes on; a peer receives a reply packet; a client of this
device receives one on the management node. -/
def State.ctrReply (s : State) (w : CtrWait) (status value : Nat) : State :=
  match w.core with
  | some c => if status = 0 then s.next c .itm else s
  | none =>
    let o : CtrOp := ⟨(if w.claim then 2 else 3) + 0x80, status, w.index, w.amount, w.tag, w.node, w.context, value⟩
    let p : Packet := { Packet.empty with
      typ := .counterOp, src := 41, dst := w.node, context := w.context, dev := w.dev, payload := o.bytes }
    if w.dev = s.fget F.CNP_TOPO_ID_DEVICE 0 then s.post p else s.toPeer p

/-- Complete claims from the head of the queue for as long as each can be met. -/
def State.headClaims (s : State) (i : Nat) : Nat → State
  | 0 => s
  | n + 1 =>
    match (s.waitsOf i).find? (fun w => w.claim) with
    | none => s
    | some w =>
      if s.ctr i < w.amount then s
      else
        let v := s.ctr i - w.amount
        let s := s.fset F.SYNC_VALUE_VALUE i v
        let s := s.setWaits i ((s.waitsOf i).erase w)
        (s.ctrReply w 0 v).headClaims i n

/-- Everything that a counter's value lets complete: first the waits that it has reached, then claims
from the head of the queue (R325). -/
def State.settleCtr (s : State) (i : Nat) : State :=
  let v := s.ctr i
  let ready := (s.waitsOf i).filter (fun w => !w.claim && decide (w.amount ≤ v))
  let s := s.setWaits i ((s.waitsOf i).filter (fun w => !(!w.claim && decide (w.amount ≤ v))))
  let s := ready.foldl (fun s w => s.ctrReply w 0 v) s
  s.headClaims i (s.waitsOf i).length

/-- Queue a claim or a wait, or refuse it where the table is full (R327); a claim that meets an empty claim queue and a value
large enough never waits. -/
def State.queueWait (s : State) (i : Nat) (w : CtrWait) : State :=
  if w.claim && decide (w.amount ≤ s.ctr i) && !(s.waitsOf i).any (fun x => x.claim) then
    (s.fset F.SYNC_VALUE_VALUE i (s.ctr i - w.amount)).ctrReply w 0 (s.ctr i - w.amount)
  else if 4096 ≤ s.fget F.SYNC_WAITTAB_USED 0 then
    let s := s.count C.SYNC_CNT_WAITFULL 0
    let s := s.flag F.SYNC_STATUS_WAITFULL_SEEN 0
    let s := s.log { code := 0x1303, context := s.fget F.SYNC_OWNER_CONTEXT i, argA := i, argB := originWord w.dev w.node }
    s.ctrReply w 3 (s.ctr i)
  else s.setWaits i (s.waitsOf i ++ [w])

/-- Release the counters of a block: every waiter receives status 0x05, and each returns to 0 (R322). -/
def State.syncDrop (s : State) (base n : Nat) : State :=
  (rangeFrom base n).foldl (fun s i =>
    let ws := s.waitsOf i
    let s := s.setWaits i []
    let s := ws.foldl (fun s w => s.ctrReply w 5 0) s
    [F.SYNC_VALUE_VALUE, F.SYNC_WAIT_ALLOC, F.SYNC_WAIT_OVF, F.SYNC_OWNER_CONTEXT, F.SYNC_OWNER_STAGE, F.SYNC_LAST_DEVICE,
      F.SYNC_LAST_NODE, F.SYNC_LAST_CONTEXT, F.SYNC_LAST_VALID].foldl (fun s f => s.fset f i 0) s) s

/-! ### Operations (R324 to R327) -/

/-- Apply an ADD to a counter (R325, R326). -/
def State.addCtr (s : State) (i n dev node ctx : Nat) : State :=
  let v := s.ctr i + n
  let s := s.fset F.SYNC_VALUE_VALUE i (Nat.min v 0xFFFFFFFF)
  let s :=
    if 0xFFFFFFFF < v then
      let s := s.flag F.SYNC_WAIT_OVF i
      let s := s.flag F.SYNC_STATUS_OVF_SEEN 0
      let s := s.count C.SYNC_CNT_OVERFLOW 0
      s.logRate 1000000 i { code := 0x1301, context := s.fget F.SYNC_OWNER_CONTEXT i, argA := i, argB := originWord dev node }
    else s
  let s := s.fset F.SYNC_LAST_DEVICE i dev
  let s := s.fset F.SYNC_LAST_NODE i node
  let s := s.fset F.SYNC_LAST_CONTEXT i ctx
  let s := s.fset F.SYNC_LAST_VALID i 1
  s.settleCtr i

/-- The device that a packet comes from. -/
def State.originDev (s : State) (p : Packet) : Nat :=
  if p.remote then p.dev else s.fget F.CNP_TOPO_ID_DEVICE 0

/-- Whether an earlier VC0 packet of the same origin node on a peer has arrived and is not yet
receipted (R319); a retraction waits for those of every node there. -/
def State.behindSends (s : State) (p : Packet) : Bool :=
  p.remote && s.fab.net.any (fun q => q.remote && q.dev == p.dev && (q.src == p.src || p.typ == .retraction) && q.typ.kept
    && decide (q.key < p.key))

/-- What damage makes of an operation's packet (Table 8.3): a signal whose payload fails is answered with NACK, a request is
discarded; none where nothing is damaged. -/
def State.opDamaged (s : State) (p : Packet) (d : Damage) : Option State :=
  match d with
  | .none => none
  | .header n => some (s.hdrFail p n)
  | .payload => some (if p.typ = .signal then (s.payFail p).receipt p true else s.payFail p)

/-- An ADD that arrived whole (R325).  A retransmitted ADD that has been applied is receipted only. -/
def State.addArrive (s : State) (p : Packet) : State :=
  let o := ctrOp p.payload
  let dev := s.originDev p
  let org := dev * 256 + o.node
  let tags := Tab.getD s.sync.seen org []
  let s := s.unpost p.key
  if o.op != 1 || !o.ok then s.badRecord.receipt p false
  else if p.retx && tags.contains (p.ref % 65536) then (s.count C.SYNC_CNT_DUP 0).receipt p false
  else
    match ctrOf (s.blockOf p) p.src o with
    | .inl st => (if st = 1 then s.stray o dev else s).receipt p false
    | .inr i =>
      let l := tags ++ [p.ref % 65536]
      let s := { s with sync := { s.sync with seen := Tab.set s.sync.seen org (l.drop (l.length - 64)) } }
      (s.addCtr i o.operand dev o.node o.context).receipt p false

/-- ADD (R325): a signal packet at the counter unit. -/
def execAdd (a : Delivery) (s : State) : Res :=
  match s.packet a.packet with
  | none => .next s
  | some p =>
    if p.typ != .signal || s.behindSends p then .next s
    else .next ((s.opDamaged p a.damage).getD (s.addArrive p))

/-- A request of the counter unit other than ADD: the operation and who asked. -/
def State.ctrAsk (s : State) (p : Packet) (o : CtrOp) : CtrWait :=
  ⟨s.originDev p, o.node, o.context, o.tag, o.index, o.operand, o.op == 2, none⟩

/-- Answer a request at once. -/
def State.ctrAnswer (s : State) (p : Packet) (o : CtrOp) (status value : Nat) : State :=
  let r : Packet := { Packet.empty with
    typ := .counterOp, src := 41, dst := o.node, context := o.context, dev := s.originDev p
    payload := { o with op := o.op % 128 + 0x80, status := status, value := value }.bytes }
  if p.remote then s.toPeer r else s.post r

/-- A counter operation packet at the counter unit with an OP of the given kind: its counter, or what is left where it is
damaged or refused. -/
def State.ctrRequest (s : State) (a : Delivery) (op : Nat) : Option (Packet × CtrOp × (Nat ⊕ State)) :=
  match s.packet a.packet with
  | none => none
  | some p =>
    let o := ctrOp p.payload
    if p.typ != .counterOp || decide (128 ≤ o.op) || o.op != op then none
    else match s.opDamaged p a.damage with
    | some t => some (p, o, .inr t)
    | none =>
      let s := s.unpost a.packet
      if !o.ok then some (p, o, .inr (s.badRecord.ctrAnswer p o 2 0))
      else match ctrOf (s.blockOf p) p.src o with
        | .inl st => some (p, o, .inr ((if st = 1 then s.stray o (s.originDev p) else s).ctrAnswer p o st 0))
        | .inr i => some (p, o, .inl i)

/-- CLAIM (R324).  A claim joins the queue; a CLAIM of 0 completes at once. -/
def execClaim (a : Delivery) (s : State) : Res :=
  match s.ctrRequest a 2 with
  | none => .next s
  | some (_, _, .inr t) => .next t
  | some (p, o, .inl i) =>
    let s := s.unpost a.packet
    if o.operand = 0 then .next (s.ctrAnswer p o 0 (s.ctr i))
    else .next ((s.queueWait i (s.ctrAsk p o)).settleCtr i)

/-- WAIT_GE (R324). -/
def execWaitGe (a : Delivery) (s : State) : Res :=
  match s.ctrRequest a 3 with
  | none => .next s
  | some (_, _, .inr t) => .next t
  | some (p, o, .inl i) =>
    let s := s.unpost a.packet
    if o.operand ≤ s.ctr i then .next (s.ctrAnswer p o 0 (s.ctr i))
    else .next (s.queueWait i (s.ctrAsk p o))

/-- PEEK (R324), and a record whose OP lies outside the table. -/
def execPeek (a : Delivery) (s : State) : Res :=
  match s.packet a.packet with
  | none => .next s
  | some p =>
    let o := ctrOp p.payload
    if p.typ = .counterOp ∧ o.op < 128 ∧ (o.op = 0 ∨ o.op = 1 ∨ 4 < o.op) then
      .next ((s.opDamaged p a.damage).getD ((s.unpost a.packet).badRecord.ctrAnswer p o 2 0))
    else
      match s.ctrRequest a 4 with
      | none => .next s
      | some (_, _, .inr t) => .next t
      | some (p, o, .inl i) => .next ((s.unpost a.packet).ctrAnswer p o 0 (s.ctr i))

/-! ### SIGNAL and WAITC (Table 7.1, R319, R324) -/

/-- SIGNAL: behind the thread's earlier sends on this device; to a peer it leaves behind them on
VC0. -/
def execSignal (c : Nat) (t : Thr) (s : State) : Res :=
  match s.fetchOp c t 0x0D with
  | none => .next s
  | some w =>
    let local' := bit w 57
    match s.stageOf c with
    | none => .next s
    | some (m, r) =>
      let dev := bits w 50 7
      if local' && s.fab.held.any (fun p => p.thread == some (thrNum c t)) then .next (s.stall c t)
      else
        let o : CtrOp := { op := 1, index := bits w 36 14, operand := bits w 20 16, node := c, context := m.context }
        let p : Packet := { Packet.empty with
          typ := .signal, src := c, context := m.context, model := m.id, stage := r.stage, payload := o.bytes
          thread := some (thrNum c t) }
        if local' then .next ((s.postHeld { p with dst := 41, dstStage := r.stage, ref := s.fab.nextKey }).next c t)
        else
          let st := if dev = r.nextDevice then r.nextStage else Tab.getD m.peerStages dev 0xFFFF
          .next ((s.toPeer { p with dst := 255, dev := dev, dstStage := st }).next c t)

/-- WAITC: a CLAIM by the core's INIT thread, which stalls until the reply; in a core that joined by a
failover it completes at once (R351).  A retried instruction finds
its claim queued. -/
def execWaitc (c : Nat) (s : State) : Res :=
  match s.fetchOp c .itm 0x0E with
  | none => .next s
  | some w =>
    if (s.seq c).joined then .next (s.next c .itm)
    else if s.sync.waits.any (fun (p : Nat × List CtrWait) => p.2.any (fun x => x.core == some c)) then .next s
    else
      match s.stageOf c with
      | none => .next s
      | some (m, r) =>
        let i := r.syncBase + bits w 36 14
        let n := bits w 20 16
        if n = 0 then .next (s.next c .itm)
        else
          let s := s.stall c .itm
          let q : CtrWait := ⟨s.fget F.CNP_TOPO_ID_DEVICE 0, c, m.context, 0, bits w 36 14, n, true, some c⟩
          .next ((s.queueWait i q).settleCtr i)

end Sys2Proof.Machine
end

