-- ==== Sys2Proof/Machine/Loader.lean ====
section
/-! DEFINITION. The loader (R112, R125 to R127, R182 to R186, R376): LOAD, its completion, new
generations, UNLOAD, SWITCH, bulk loads, and the stage-by-stage switch. -/

namespace Sys2Proof.Machine

/-! ### What a load writes into a core (R182 step 7) -/

/-- An address word of an image descriptor in its device form (R180). -/
def resolveWord (bufs : List Buffer) (w : Nat) : Nat :=
  if bits w 24 8 = 255 then 0
  else (bufs.find? (fun (x : Buffer) => x.buf == bits w 24 8)).elim 0 (fun (x : Buffer) => (x.base + bits w 0 24) % 2 ^ 23)

/-- A descriptor in its device form. -/
def resolveDesc (bufs : List Buffer) (l : List Nat) : List Nat :=
  l.zipIdx.map (fun (x : Nat × Nat) => if x.2 = 2 ∨ x.2 = 3 ∨ x.2 = 4 ∨ x.2 = 7 then resolveWord bufs x.1 else x.1)

/-- The 64 descriptors of a core position. -/
def descTab (b : List Nat) (place : Nat) (bufs : List Buffer) : Tab (List Nat) :=
  (List.range 64).map (fun i => (i, resolveDesc bufs (imgDesc b place i)))

/-- The four activation tables of a core position. -/
def tableTab (b : List Nat) (place : Nat) : Tab (List (Nat × Nat × Nat)) :=
  (List.range 4).map (fun i => (i, imgTable b place i))

/-- Set ENG_CFG of the engines that a program's ISSUEs name; the scratch engines that one ISSUE names form a chain
(R81, log entry 114). -/
def State.setFormats (s : State) (c : Nat) (r : StageRec) (ts : List EntryTrace) : State :=
  let s := [32, 33, 34, 35].foldl (fun s e => s.setEngine c e { s.engine c e with head := 0 }) s
  (issuesOf ts).foldl (fun s o =>
    (rangeFrom o.first (o.last + 1 - o.first)).foldl (fun s e =>
      let f := fmtPlanes r o.fmt
      let s := if e < 32 then s else s.setEngine c e { s.engine c e with head := Nat.max 32 o.first }
      (s.fset F.ENG_CFG_PLANES (eng c e) f.1).fset F.ENG_CFG_SIGNED (eng c e) (ofBool f.2)) s) s

/-- An engine leaves service, with its master binding (R108). -/
def State.engineOut (s : State) (c e : Nat) : State :=
  let s := s.setEngine c e (s.engine c e).out
  { s with fab := { s.fab with bound := Tab.erase s.fab.bound (c * 32 + e) } }

/-- Put the tiles of a position's mapping into a core's engines, bound to their master regions; the others are not
in service. -/
def State.setEngines (s : State) (c : Nat) (ms : List MapEnt) (regions : List Nat) : State :=
  let s := (List.range 32).foldl (fun s e => s.engineOut c e) s
  (ms.zip regions).foldl (fun s (x : MapEnt × Nat) =>
    let e := x.1.engine
    let s := s.setEngine c e { Engine.empty with
      map := some x.1, head := mapHead ms x.1, inService := true, expected := x.1.digest }
    let s := s.fset F.ENG_CFG_SLICE_PLAN (eng c e) x.1.plan
    let s := s.fset F.ENG_STATUS_STATE (eng c e) 1
    { s with fab := { s.fab with bound := Tab.set s.fab.bound (c * 32 + e) x.2 } }) s

/-- Give a core its role in a stage. -/
def State.setRole (s : State) (c : Nat) (ctx : Nat) (r : StageRec) (pos : Nat) : State :=
  let s := s.fset F.CORE_ROLE_ROLE c 1
  let s := s.fset F.CORE_ROLE_ENTRY c (ofBool (pos == r.entryPos))
  let s := s.fset F.CORE_ROLE_EXIT c (ofBool (pos == r.exitPos))
  let s := s.fset F.CORE_ROLE_CONTEXT c ctx
  let s := s.fset F.CORE_ROLE_K_PART c (r.kPart pos)
  let s := s.fset F.CORE_ROLE_N_PART c (r.nPart pos)
  let s := s.fset F.CORE_ROLE_STAGE c r.stage
  let s := s.fset F.CORE_STATUS_STATE c 1
  let s := if (Tab.find s.keep.bleed c).isSome then
      ({ s with keep := { s.keep with bleed := Tab.erase s.keep.bleed c } } : State).fset F.KEEP_CORE_DATA_DECAY c 0
    else s
  if s.conf ctx then s.fset F.KEEP_CORE_DATA_CLEAN c 0 else s

/-- Load a program into a core's sequencer. -/
def State.setProgram (s : State) (c : Nat) (r : StageRec) (g : Program) : State :=
  let ts := tracesOf r g
  let v := (ts.find? (fun t => t.wh == 1)).elim 0 (fun t => t.run.length)
  let q : Sequencer := { Sequencer.empty with
    pm := g.words.zipIdx.map (fun (x : Nat × Nat) => (x.2, x.1)), itemPc := g.itemPc.getD 0
    begin0 := g.begin0, begin1 := g.begin1, digest := shake256 (g.words.flatMap (bytesOf 8)) }
  let s := s.setSeq c q
  let s := s.fset F.SEQ_STATUS_LOADED c 1
  let s := s.fset F.SEQ_STATUS_INIT_DONE c 0
  let s := s.fset F.SEQ_PROG_LEN c g.len
  let s := s.fset F.SEQ_PROG_VEC_PC c g.vecPc
  let s := s.fset F.SEQ_PROG_ITEM_EN c (ofBool g.itemPc.isSome)
  let s := s.fset F.SEQ_BUDGET_VEC_INSTR c v
  let s := s.fset F.SEQ_BUDGET_ITEM_CYC c g.itemCyc
  s.setFormats c r ts

/-- Put a buffer's initial contents in place: in core SRAM, or at its home where it is spilled. -/
def State.putConstant (s : State) (c : Nat) (x : Buffer) : State :=
  match x.init with
  | none => s
  | some a =>
    let d := s.pagedRead a x.size
    if !x.spilled then s.sramWrite c x.base d
    else if x.host then s else s.pagedWrite ⟨x.pages, x.home⟩ d

/-- Write one core position (R182 step 7). -/
def State.installCore (s : State) (ctx : Nat) (b : List Nat) (r : StageRec) (pl : PosPlan) (ms : List MapEnt)
    (regions : List Nat) : State :=
  match programAt b r.stage pl.pos with
  | none => s
  | some (g, i) =>
    let c := pl.core
    let bank := gladeBank r
    let s := s.setCore c { CoreSt.empty with
      place := some ⟨ctx, imgId b, r.stage, pl.pos⟩, bank0 := bank, bank1 := bank, buffers := pl.bufs
      descs := descTab b i pl.bufs, tables := tableTab b i }
    let s := s.setRole c ctx r pl.pos
    let s := s.fset F.CORE_CAD_CFG_LEN c r.cadLen
    let s := s.fset F.CORE_CAD_CFG_SLOT_PLANES c r.slotPlanes
    let s := s.fset F.RST_SLOT_ACTIVE c 0
    let s := s.fset F.RST_GEN_GEN c (imgGen b)
    let s := (s.setEngines c ms regions).setProgram c r g
    -- the copies of the program and of the constants, from which R157 and R187 reload
    let s := s.pagedWrite pl.copy (g.words.flatMap (bytesOf 8))
    let recs := bufsOf (imgBufs b) r.stage pl.pos
    pl.bufs.foldl (fun s (x : Buffer) =>
      let k := (recs.find? (fun y => y.buf == x.buf)).bind (fun y => y.init)
      match x.init, k with
      | some a, some n => (s.pagedWrite a (imgConstant b (imgBufs b) n)).putConstant c x
      | _, _ => s) s

/-- Write a tile's 2,048 row records into a slot of its master region, padding bytes as 0 (R77, R79). -/
def State.writeMaster (s : State) (region slot : Nat) (w : List Nat) (e : MapEnt) : State :=
  (List.range 2048).foldl (fun s row => s.dramWrite (recordAddr region slot row)
    (tileRow w e row ++ List.replicate (256 - planUsed e.plan) 0)) s

/-! ### The end of a load command -/

/-- A load in progress: the command's ring key and number, its context, the image's place and the
permission of R184. -/
structure LoadReq where
  k : Nat
  n : Nat
  ctx : Nat
  off : Nat
  perm : Bool
  deriving DecidableEq, Repr

/-- Write the load report and complete the command. -/
def State.loadEnd (s : State) (q : LoadReq) (status : Nat) (rep : List Nat) : State :=
  match s.takenDesc q.k q.n with
  | none => s
  | some t => (s.cmdWrite q.k t (s.cmdFunc q.k t.bytes) rep).done q.k q.n status

/-- Refuse a load: reported, logged (R183, R188). -/
def State.loadRefuse (s : State) (q : LoadReq) (b : List Nat) (e : LoadErr) (avail : Nat) (shorts : List Nat) : State :=
  let s := s.log { code := 0x0711, context := q.ctx, argA := e.status, item := imgId b % 2 ^ 48 }
  s.loadEnd q e.status (loadReport b e false avail shorts [])

/-- Whether a context's load area holds `n` bytes at an offset: every page of the range is allocated (R174). -/
def State.areaHolds (s : State) (ctx off n : Nat) : Bool := (areaPages off n).all (fun i => (s.areaPage ctx i).isSome)

/-- The keys in force for a context: KEY_ID and public key of every enrolled key (R175). -/
def State.modelKeys (s : State) (ctx : Nat) : List (Nat × List Nat) :=
  (Tab.find s.keep.defs ctx).elim [] (fun d => d.keys.map (fun (x : Nat × Nat × List Nat) => x.2))

/-! ### New generations (R125, R185) -/

/-- The DIGEST of each section of an image, by type. -/
def imgSections (b : List Nat) : Tab (List Nat) := (sectTable b).foldl (fun t x => Tab.set t x.typ x.digest) []

/-- What a loaded model refuses in an image that bears its MODEL_ID. -/
def Model.genCheck (m : Model) (b : List Nat) : Option LoadErr :=
  let bare (l : List MapEnt) : List MapEnt := l.map (fun e => { e with digest := [] })
  firstErr [
    refuseIf (decide (imgGen b ≤ m.gen)) { status := 0x05 },
    refuseIf m.next.isSome { status := 0x15 },
    refuseIf (!([1, 4, 7].all (fun t => Tab.getD (imgSections b) t [] == Tab.getD m.sections t []))
      || bare (imgMaps b) != bare m.maps) { status := 0x16 }]

/-- The new contents of the buffers of a model: a copy of every record, by (stage * 8 + position) * 256 +
buffer, none where no pages are left. -/
def State.newInits (s : State) (ctx : Nat) (b : List Nat) : Option (Tab Paged × List Nat × State) :=
  let recs := (imgBufs b).filter (fun x => x.init.isSome)
  let total := recs.foldl (fun n x => n + x.size) 0
  if total = 0 then some ([], [], s)
  else (s.takePages ctx 2 (pagesFor total)).map (fun (ps, s) =>
    let hs : List Paged := (homes (recs.map (fun x => x.size)) 0).map (fun o => ⟨ps, o⟩)
    let s := (recs.zip hs).foldl (fun s x => match x.1.init with
      | none => s
      | some i => s.pagedWrite x.2 (imgConstant b (imgBufs b) i)) s
    ((recs.zip hs).foldl (fun t x => Tab.set t ((x.1.stage * 8 + x.1.pos) * 256 + x.1.buf) x.2) [], ps, s))

/-- Write a new generation into the inactive slots of a model's masters; it becomes ready when the
restorer has read it (R125). -/
def State.loadGeneration (s : State) (q : LoadReq) (m : Model) (b w : List Nat) : State :=
  match s.newInits q.ctx b with
  | none => s.loadRefuse q b { status := 0x18 } (s.pool q.ctx).length []
  | some (inits, pages, s) =>
    let slot := 1 - m.slot
    let maps := imgMaps b
    let s := (maps.zip m.regions).foldl (fun s (x : MapEnt × Nat) => s.writeMaster x.2 slot w x.1) s
    let posBufs (st pos : Nat) : List Buffer :=
      match m.stage st with
      | none => []
      | some (r : StageRec) => (s.core (r.placed.getD pos 0)).buffers
    let descs := (imgPositions b).zipIdx.flatMap (fun (x : (Nat × Nat) × Nat) => (List.range 64).map (fun i =>
      ((x.1.1 * 8 + x.1.2) * 64 + i, resolveDesc (posBufs x.1.1 x.1.2) (imgDesc b x.2 i))))
    let tables := (imgPositions b).zipIdx.flatMap (fun (x : (Nat × Nat) × Nat) => (List.range 4).map (fun i =>
      ((x.1.1 * 8 + x.1.2) * 4 + i, imgTable b x.2 i)))
    let n : NextGen := {
      gen := imgGen b, ready := false, rolling := imgRolling b, maps := maps, digest := imgDigest b
      envelopes := m.stages.map (fun (r : StageRec) => imgEnvelope b r.stage)
      descs := descs.foldl (fun t x => Tab.set t x.1 x.2) [], tables := tables.foldl (fun t x => Tab.set t x.1 x.2) []
      inits := inits, sections := imgSections b, slot := slot, flags := ofBool (imgEncrypted b), imageAt := q.off
      waiter := some (q.k, q.n), report := 0, switched := [], todo := [] }
    s.setModel { m with next := some n, pages := m.pages ++ pages }

/-- The verification read of a new generation finds a wrong digest (R129): the master's slot is reported as convicted; no
item has used it. -/
def State.genMismatch (s : State) (m : Model) (t : MapEnt) : State :=
  match m.stage t.stage with
  | none => s
  | some r =>
    let c := r.placed.getD t.pos 0
    let s := s.flag F.RST_STATUS_DIGEST_MISMATCH c
    let s := s.log { code := 0x0503, context := m.context, core := c, engine := t.engine }
    s.convict c t.engine 4 0x04 0xFFFF (s.ns + 1)

/-- GEN_VERIFY_DONE (R125): every engine digest of the new slot, and the model digest, decide whether
the generation becomes ready. -/
def execGenVerifyDone (ctx id : Nat) (s : State) : Res :=
  match s.model ctx id with
  | none => .next s
  | some m =>
    match m.next with
    | none => .next s
    | some n =>
      if n.ready then .next s
      else
        let ds := (n.maps.zip m.regions).map (fun (x : MapEnt × Nat) =>
          s.masterDigest x.2 n.slot n.gen x.1.plan x.1.stage x.1.index)
        let ok := ds == n.maps.map (fun e => e.digest)
          && shake256 (bytesOf 4 n.gen ++ bytesOf 4 n.maps.length ++ ds.flatten) == n.digest
        let w := n.waiter.getD (0, 0)
        let q : LoadReq := ⟨w.1, w.2, ctx, n.imageAt, false⟩
        let b := s.image ctx n.imageAt
        if ok then
          let s := s.setModel { m with next := some { n with ready := true, waiter := none } }
          let s := m.stages.foldl (fun s (r : StageRec) => r.placed.foldl (fun s c =>
            let s := s.fset F.RST_SLOT_NEXT_READY c 1
            let s := s.fset F.RST_GEN_NEXT_GEN c n.gen
            s.fset F.RST_STATUS_GEN_PENDING c 1) s) s
          let s := s.log { code := 0x0710, context := ctx, argA := 0, item := id % 2 ^ 48 }
          .next (s.loadEnd q 0 (loadReport b { status := 0 } m.unshielded (s.pool ctx).length [] (m.stages.map (fun (r : StageRec) => r.placed))))
        else
          let i := (ds.zip (n.maps.map (fun e => e.digest))).findIdx (fun x => x.1 != x.2)
          let s := (ds.zip n.maps).foldl (fun s (x : List Nat × MapEnt) => if x.1 = x.2.digest then s else s.genMismatch m x.2) s
          let s := s.setModel { m with next := none }
          .next (s.loadRefuse q b { status := 0x14, stage := (n.maps[i]?).elim 0xFFFF (fun e => e.stage), index := i }
            (s.pool ctx).length [])

/-! ### Placement and writing (R172, R182 steps 5 to 8, R184) -/

/-- Whether an engine meets a stage's noise class and passport format (R132): its passport, or a
measurement made now, which is a free value. -/
def State.noiseOk (s : State) (r : StageRec) (c e k plan : Nat) : Bool :=
  r.noiseClass == 0xFF && r.passportFmt == 0 ||
    (let cls := match (s.engine c e).passport with
      | some p => some p.cls
      | none => noiseClass (s.free + 21504 * k) ((List.range (planCols plan * planSlices plan)).map (s.physical c e))
     (r.noiseClass == 0xFF || cls.elim false (fun n => decide (n ≤ r.noiseClass))) && decide (r.passportFmt ≤ 1))

/-- The first tile whose engine does not meet its stage's noise class. -/
def State.noiseCheck (s : State) (placed : List StageRec) (maps : List MapEnt) : Option LoadErr :=
  firstErr (maps.zipIdx.map (fun (x : MapEnt × Nat) =>
    match placed.find? (fun r => r.stage == x.1.stage) with
    | none => none
    | some r => refuseIf (!s.noiseOk r (r.placed.getD x.1.pos 0) x.1.engine x.2 x.1.plan)
        { status := 0x13, stage := r.stage, index := x.2 }))

/-- The devices and stages that a program's SIGNALs address beyond the next stage (R323). -/
def signalDevs (r : StageRec) (ts : List EntryTrace) : List Nat :=
  (ts.flatMap (fun t => t.run.filterMap (fun x =>
    if insOp x.2 = 0x0D && !bit x.2 57 && bits x.2 50 7 != r.nextDevice then some (bits x.2 50 7) else none))).dedup

/-- Ask peers for the lowest-numbered stage of a model that they hold (R323). -/
def State.askStages (s : State) (ctx id : Nat) (devs : List Nat) : State :=
  devs.foldl (fun s d => s.toPeer { Packet.empty with
    typ := .binding, src := 42, dst := 255, dev := d, dstStage := 0xFFFF, context := ctx, model := id, lane := 63, nOff := 5 }) s

/-- Lookouts whose cores are taken leave their role. -/
def State.leaveLookouts (s : State) (cs : List Nat) : State :=
  (List.range 2).foldl (fun s k =>
    if s.fget (lookState k) 0 != 0 && cs.contains (s.fget (lookCore k) 0) then
      let s := s.fset (lookState k) 0 0
      let s := { s with rel := { s.rel with samples := s.rel.samples.filter (fun x => x.lookout != k) } }
      s.fset F.REL_STATUS_LOOKOUTS 0 s.lookouts.length
    else s) s

/-- A load that fails at step 6 of R182 gives back its pages and its cores, which are written to level 0 (R108) before
they become free. -/
def State.releaseTaken (s : State) (pages cores : List Nat) : State :=
  let s := { s with fab := { s.fab with
    pages := Tab.mapv s.fab.pages (fun p (e : PageEnt) => if pages.contains p then { e with scrub := true } else e) } }
  cores.foldl (fun s c => s.beginZero c) (s.leaveLookouts cores)

/-- Steps 5 to 7 of R182 on an image that has passed its checks; `w` is the plaintext of WEIGHTS.
Step 8 goes on with start-up passes and bulk loads. -/
def State.loadPlace (s : State) (q : LoadReq) (b w : List Nat) : State :=
  let st := imgStages b
  let maps := imgMaps b
  let needs := st.map (fun r => r.cores)
  let pool := s.pool q.ctx
  let short := shortfall needs pool.length
  let sum := short.foldl (fun a x => a + x) 0
  let looks := s.lookoutCores
  let failAt := ((st.zip short).find? (fun (x : StageRec × Nat) => x.2 != 0)).elim 0xFFFF (fun (x : StageRec × Nat) => x.1.stage)
  let full := !(s.residents.contains q.ctx) && decide (8 ≤ s.residents.length)
  let others := (List.range 64).any (fun l => s.laneState l != 0 && (s.lane l).context != q.ctx && !(s.lane l).unshielded)
  let unsh := decide (0 < sum) && decide (sum ≤ looks.length)
  if full || (decide (0 < sum) && !unsh) then s.loadRefuse q b { status := 0x10, stage := failAt } pool.length short
  else if unsh && !(imgUnshieldedOk b && q.perm) then s.loadRefuse q b { status := 0x11, stage := failAt } pool.length short
  else if unsh && others then s.loadRefuse q b { status := 0x12, stage := failAt } pool.length short
  else
    let taken := takeCores needs (pool ++ (if unsh then looks else []))
    let placed := (st.zip taken).map (fun (x : StageRec × List Nat) => { x.1 with placed := x.2, envelope := imgEnvelope b x.1.stage })
    let n := s.noiseCheck placed maps
    let s := s.draw (21504 * maps.length)
    let jobs := placed.flatMap (fun r => r.placed.zipIdx.map (fun (x : Nat × Nat) => (r, x.2, x.1)))
    let regions := s.freeRegions.take maps.length
    match n with
    | some e => s.loadRefuse q b e pool.length short
    | none =>
    match s.planAll q.ctx b jobs 0 with
    | .inl e => s.loadRefuse q b e pool.length short
    | .inr (plans, u) =>
    match syncFit (placed.map (fun r => r.syncCount)) s.syncBlocks with
    | none => s.loadRefuse q b { status := 0x19 } pool.length short
    | some bases =>
    if regions.length < maps.length then s.loadRefuse q b { status := 0x18 } pool.length short
    else
      -- step 6: masters and digests; a mismatch releases everything that the load took
      let digs := maps.map (fun e => shake256 (digestHeader (imgGen b) e.plan e.stage e.index ++ tileBytes w e))
      let bad := (digs.zip maps).findIdx (fun x => x.1 != x.2.digest)
      let model := shake256 (bytesOf 4 (imgGen b) ++ bytesOf 4 maps.length ++ digs.flatten)
      let kg := u.fget F.KEEP_CTX_STATE_KEYGEN q.ctx
      let u := { u with fab := { u.fab with pages := regions.foldl (fun t p => Tab.set t p ⟨q.ctx, 0, kg, 0, false⟩) u.fab.pages } }
      let u := (maps.zip regions).foldl (fun s (x : MapEnt × Nat) => s.writeMaster x.2 0 w x.1) u
      if bad < maps.length || model != imgDigest b then
        (u.releaseTaken (regions ++ plans.flatMap (fun p => p.pages)) taken.flatten).loadRefuse
          q b { status := 0x14, stage := (maps[bad]?).elim 0xFFFF (fun e => e.stage), index := (maps[bad]?).elim 0 (fun e => e.index) }
          pool.length short
      else
        let placed := (placed.zip bases).map (fun (x : StageRec × Nat) => { x.1 with syncBase := x.2 })
        let u := placed.foldl (fun s r => s.syncTake r.syncBase r.syncCount q.ctx r.stage) u
        -- Lookouts that the mapping takes leave their role
        let u := u.leaveLookouts taken.flatten
        let u := plans.foldl (fun s (p : PosPlan) =>
          match placed.find? (fun r => r.stage == p.stage) with
          | none => s
          | some r =>
            let mine := (maps.zip regions).filter (fun (x : MapEnt × Nat) => x.1.stage == p.stage && x.1.pos == p.pos)
            s.installCore q.ctx b r p (mine.map Prod.fst) (mine.map Prod.snd)) u
        let m : Model := {
          context := q.ctx, id := imgId b, gen := imgGen b, slot := 0, state := .starting, stages := placed, maps := maps
          programs := imgPrograms b, regions := regions, expected := imgDigest b, digest := model, swept := []
          next := none, switching := none, unshielded := unsh, sections := imgSections b, encrypted := imgEncrypted b
          pages := plans.flatMap (fun p => p.pages)
          copies := plans.foldl (fun t (p : PosPlan) => Tab.set t (p.stage * 8 + p.pos) p.copy) [], waiter := some (q.k / 128, q.k, q.n), report := pool.length
          flags := ofBool q.perm, imageAt := some q.off, verifying := false, peerStages := [], sweptAt := 0 }
        let u := { u with models := u.models ++ [m] }
        let u := if unsh then u.log { code := 0x0713, context := q.ctx, argA := 0, item := imgId b % 2 ^ 48 } else u
        let u := placed.foldl (fun s r => s.newEpoch (stageKey q.ctx (imgId b) r.stage) 0) u
        let devs := (placed.flatMap (fun r => (List.range r.cores).flatMap (fun p =>
          match programAt b r.stage p with
          | none => []
          | some (g, _) => signalDevs r (tracesOf r g)))).dedup
        let u := u.askStages q.ctx (imgId b) devs
        (u.setCtxState q.ctx 2).ctxRefresh.shares

/-- Step 4 of R182 on the plaintext of WEIGHTS, then the new generation or the placement. -/
def State.loadPlain (s : State) (q : LoadReq) (b w : List Nat) : State :=
  match structureCheck b w with
  | some e => s.loadRefuse q b e (s.pool q.ctx).length []
  | none =>
    match s.model q.ctx (imgId b) with
    | some m => s.loadGeneration q m b w
    | none => s.loadPlace q b w

/-! ### The weights key (R375, R376) -/

/-- The KEYWRAP section is well formed. -/
def keywrapOk (b : List Nat) : Bool :=
  let k := sectBytes b 9
  k.length == 64 && leAt k 0 4 == 0x574B5651 && leAt k 4 2 == 1 && decide (leAt k 6 2 < 2) && zeroBytes k 40 64

/-- Ask for the release of the weights key: a load key, and the request that REL_READ returns. -/
def State.askRelease (s : State) (q : LoadReq) (b : List Nat) : State :=
  let kw := sectBytes b 9
  let secret := Config.random s.free
  let pub := Config.x448Public secret
  let data := shake256 (kw ++ pub ++ bytesOf 16 (imgId b) ++ bytesOf 4 (imgGen b))
  let nonce := (List.range 32).map (fun i => Config.random (s.free + 1 + i) % 256)
  let req := s.report q.ctx nonce data ++ pub
  let s := s.draw 33
  let p : PendLoad := ⟨q.off, q.perm, q.k, q.n, imgId b, imgGen b, leAt kw 8 4, secret, data, req, s.ns⟩
  { s with keep := { s.keep with pend := Tab.set s.keep.pend q.ctx p } }

/-- The weights key that the Keep holds for an image, if any. -/
def State.wkey (s : State) (ctx id gen : Nat) : Option WeightsKey :=
  s.keep.wkeys.find? (fun k => k.context == ctx && k.model == id && k.gen == gen)

/-- The plaintext of an image's WEIGHTS. -/
def State.weights (s : State) (ctx : Nat) (b : List Nat) : List Nat :=
  match (if imgEncrypted b then s.wkey ctx (imgId b) (imgGen b) else none) with
  | none => sectBytes b 3
  | some k => Config.ctr k.key (slice k.nonce 0 12 ++ [0, 0, 0, 0]) (sectBytes b 3)

/-- Steps 1 to 3 of R182. -/
def State.loadBegin (s : State) (q : LoadReq) : State :=
  let b := s.image q.ctx q.off
  let avail := (s.pool q.ctx).length
  match firstErr [headerCheck b, refuseIf (!s.areaHolds q.ctx q.off (imgLen b)) { status := 0x18 }] with
  | some e => s.loadRefuse q b e avail []
  | none =>
    match firstErr [signatureCheck b (s.modelKeys q.ctx), (s.model q.ctx (imgId b)).bind (fun m => m.genCheck b)] with
    | some e => s.loadRefuse q b e avail []
    | none =>
      if !imgEncrypted b then s.loadPlain q b (sectBytes b 3)
      else if !keywrapOk b then s.loadRefuse q b { status := 0x01 } avail []
      else if bit (leAt (sectBytes b 9) 6 2) 0 && !s.conf q.ctx then s.loadRefuse q b { status := 0x06 } avail []
      else s.askRelease q b

/-- LOAD (R182, R241): refused at once while another load of the context is in progress, and otherwise
taken in turn; one that needs a key release waits while the Keep restarts (R403). -/
def execLoad (func ring : Nat) (s : State) : Res :=
  let k := cmdKey func ring
  match s.cmd k 0x13 with
  | none => .next s
  | some t =>
    let d := t.bytes
    let q : LoadReq := ⟨k, t.number, dCtx d, dArg0 d, bit (dArg1 d) 0⟩
    if outShort k t 1056 then .next (s.done k t.number 0x69)
    else if s.fget F.KEEP_STATUS_STATE 0 == 0 && imgEncrypted (s.image q.ctx q.off) then .next s
    else if s.loading q.ctx then
      .next (s.loadRefuse q (s.image q.ctx q.off) { status := 0x17 } (s.pool q.ctx).length [])
    else if !s.serialTurn t then .next s
    else .next ((s.begun k t.number).loadBegin q)

/-! ### Release of a model (R182, R186) -/

/-- A core leaves its stage: its program and buffers go, and its restorer writes level 0. -/
def State.vacate (s : State) (c : Nat) : State :=
  let s := s.setCore c { CoreSt.empty with place := (s.core c).place }
  let s := s.setSeq c .empty
  let s := (List.range 2).foldl (fun s t => s.setTile c t .empty) s
  let s := [F.SEQ_STATUS_LOADED, F.SEQ_STATUS_INIT_DONE, F.SEQ_PROG_LEN, F.SEQ_PROG_VEC_PC, F.SEQ_PROG_ITEM_EN,
    F.SEQ_BUDGET_VEC_INSTR, F.SEQ_BUDGET_ITEM_CYC, F.CORE_ROLE_ENTRY, F.CORE_ROLE_EXIT, F.CORE_ROLE_CONTEXT,
    F.CORE_ROLE_K_PART, F.CORE_ROLE_N_PART, F.CORE_ROLE_STAGE, F.CORE_CAD_STATUS_SWITCH_PENDING].foldl
    (fun s f => s.fset f c 0) s
  let s := s.fset F.CORE_STATUS_STATE c 1
  let s := s.zeroScratch c
  let s := { s with fab := { s.fab with bound := Tab.keep s.fab.bound (fun k _ => k / 32 != c) } }
  s.beginZero c

/-- Release a model's masters, pages, counters and keys. -/
def State.releaseModel (s : State) (m : Model) : State :=
  let s := m.stages.foldl (fun s (r : StageRec) => s.syncDrop r.syncBase r.syncCount) s
  let gone := m.regions ++ m.pages
  let s := { s with fab := { s.fab with
    pages := Tab.mapv s.fab.pages (fun p (e : PageEnt) => if gone.contains p then { e with scrub := true } else e) } }
  { s with keep := { s.keep with wkeys := s.keep.wkeys.filter (fun k => !(k.context == m.context && k.model == m.id)) } }

/-- A context without models and loads is no longer resident (Table 15.4). -/
def State.leaveResident (s : State) (ctx : Nat) : State :=
  if s.ctxState ctx = 2 && !s.models.any (fun (m : Model) => m.context == ctx) then (s.setCtxState ctx 1).ctxRefresh else s

/-- Take a model out of the device. -/
def State.dropModel (s : State) (m : Model) : State :=
  let s := (m.stages.flatMap (fun (r : StageRec) => r.placed)).foldl (fun s c => s.vacate c) s
  let s := s.releaseModel m
  let s := { s with models := s.models.filter (fun (x : Model) => !(x.context == m.context && x.id == m.id)) }
  (s.leaveResident m.context).shares

/-- Whether a core's start-up pass has run. -/
def State.passed (s : State) (c : Nat) : Bool := (s.calEngines c).all (fun e => !(s.engine c e).bitWeights.isEmpty)

/-- A swap is over once every model of the entering context runs (R382). -/
def State.swapEnd (s : State) (ctx : Nat) : State :=
  match s.keep.swap with
  | none => s
  | some w =>
    if w.entering && w.enter == ctx && s.models.all (fun (m : Model) => m.context != ctx || m.state == .loaded) then
      ({ s with keep := { s.keep with swap := none } } : State).keepDone w.by' 0 []
    else s

/-- LOAD_COMPLETE (R182 step 8, R183): once every start-up pass and bulk load has ended, the cores
start; a core that cannot start refuses the load. -/
def execLoadComplete (ctx id : Nat) (s : State) : Res :=
  match s.model ctx id with
  | none => .next s
  | some m =>
    let cs := m.stages.flatMap (fun (r : StageRec) => r.placed)
    if m.state != .starting || (m.failed.isNone && !cs.all (fun c => s.passed c && (s.restorer c).bulk.isNone
        && (s.inService c).all (fun e => (s.engine c e).written))) then .next s
    else
      let w := m.waiter.getD (0, 0, 0)
      let off := m.imageAt.getD 0
      let q : LoadReq := ⟨w.2.1, w.2.2, ctx, off, bit m.flags 0⟩
      let b := s.image ctx off
      let avail := m.report
      match (m.failed.orElse (fun _ => cs.find? (fun c => s.startReason c != 0))), m.waiter with
      | some _, none => .next s
      | none, none =>
        let s := cs.foldl (fun s c => s.coreStart c) s
        .next ((s.setModel { m with state := .loaded }).swapEnd ctx)
      | some c, some _ =>
        let st := (s.core c).place.elim 0xFFFF (fun p => p.stage)
        let s := s.dropModel m
        .next (s.loadRefuse q b { status := 0x1B, stage := st, index := c } avail [])
      | none, some _ =>
        let s := cs.foldl (fun s c => s.coreStart c) s
        let s := s.setModel { m with state := .loaded, waiter := none }
        let s := s.log { code := 0x0710, context := ctx, argA := 0, item := id % 2 ^ 48 }
        .next (s.loadEnd q 0 (loadReport b { status := 0 } m.unshielded avail [] (m.stages.map (fun (r : StageRec) => r.placed))))

/-- UNLOAD (R186): the model's cores stop at their next vector boundary, and its cells are written to
level 0. -/
def execUnload (func ring : Nat) (s : State) : Res :=
  let k := cmdKey func ring
  match s.cmd k 0x14 with
  | none => .next s
  | some t =>
    let d := t.bytes
    let ctx := dCtx d
    if !s.serialTurn t then .next s
    else
      match s.model ctx (dModel d) with
      | none => .next (s.done k t.number 0x1C)
      | some m =>
        if (List.range 64).any (fun l => s.laneState l != 0 && (s.lane l).context == ctx && (s.lane l).model == m.id) then
          .next (s.done k t.number 0x1A)
        else if !(m.stages.flatMap (fun (r : StageRec) => r.placed)).all s.atBoundary then .next s
        else
          let s := (s.dropModel m).log { code := 0x0712, context := ctx, argA := 0, item := m.id % 2 ^ 48 }
          .next (s.done k t.number 0)

/-! ### Switching to a ready generation (R126, R127) -/

/-- Put a core of a stage on its model's new generation: digests, descriptors, tables and constants. -/
def State.genCore (s : State) (n : NextGen) (stage pos c : Nat) : State :=
  let key := stage * 8 + pos
  let k := s.core c
  let s := s.setCore c { k with
    descs := (List.range 64).map (fun i => (i, Tab.getD n.descs (key * 64 + i) []))
    tables := (List.range 4).map (fun i => (i, Tab.getD n.tables (key * 4 + i) []))
    buffers := k.buffers.map (fun (x : Buffer) => { x with init := x.init.map (fun a => Tab.getD n.inits (key * 256 + x.buf) a) }) }
  let s := (n.maps.filter (fun e => e.stage == stage && e.pos == pos)).foldl (fun s e =>
    let g := s.engine c e.engine
    s.setEngine c e.engine { g with map := some e, expected := e.digest, written := false }) s
  let s := s.fset F.RST_GEN_GEN c n.gen
  let s := s.fset F.RST_SLOT_ACTIVE c n.slot
  let s := s.fset F.RST_SLOT_NEXT_READY c 0
  let s := s.fset F.RST_GEN_NEXT_GEN c 0
  let s := s.fset F.RST_STATUS_GEN_PENDING c 0
  (s.core c).buffers.foldl (fun s (x : Buffer) => s.putConstant c x) s

/-- Make a core a copy of a working core, for a migration, a generation switch or a failover: its place,
program, buffers, banks, tiles and master bindings. -/
def State.cloneCore (s : State) (src dst : Nat) : State :=
  match (s.core src).place, s.stageOf src with
  | some p, some (_, r) =>
    let k := s.core src
    let s := s.setCore dst { CoreSt.empty with
      place := some p, bank0 := k.bank0, bank1 := k.bank1, buffers := k.buffers.map (fun (x : Buffer) => { x with win0 := none, win1 := none })
      descs := k.descs, tables := k.tables }
    let s := s.setRole dst p.context r p.pos
    let q := s.seq src
    let s := s.setSeq dst { Sequencer.empty with
      pm := q.pm, itemPc := q.itemPc, begin0 := q.begin0, begin1 := q.begin1, digest := q.digest }
    let s := [F.SEQ_STATUS_LOADED, F.SEQ_PROG_LEN, F.SEQ_PROG_VEC_PC, F.SEQ_PROG_ITEM_EN, F.SEQ_BUDGET_VEC_INSTR,
      F.SEQ_BUDGET_ITEM_CYC, F.CORE_CAD_CFG_LEN, F.CORE_CAD_CFG_SLOT_PLANES, F.CORE_CAD_STATUS_BANK, F.CORE_CAD_STATUS_SWITCH_PENDING, F.RST_GEN_GEN,
      F.RST_SLOT_ACTIVE].foldl (fun s f => s.fset f dst (s.fget f src)) s
    let s := (List.range 36).foldl (fun s e =>
      let s := [F.ENG_CFG_SLICE_PLAN, F.ENG_CFG_PLANES, F.ENG_CFG_SIGNED, F.ENG_CFG_SPLIT_EN, F.ENG_CFG_REPLAY_MAX,
        F.ENG_CFG_SEG_EN].foldl (fun s f => s.fset f (eng dst e) (s.fget f (eng src e))) s
      let g := s.engine src e
      if 32 ≤ e then s.setEngine dst e { s.engine dst e with head := g.head }
      else if !g.inService then s.engineOut dst e
      else
        let s := s.setEngine dst e { s.engine dst e with
          cells := [], map := g.map, head := g.head, inService := true, written := false, expected := g.expected }
        { s with fab := { s.fab with bound := Tab.set s.fab.bound (dst * 32 + e) (s.region src e) } }) s
    let s := k.buffers.foldl (fun s (x : Buffer) => if x.spilled then s else s.putConstant dst x) s
    s
  | _, _ => s

/-- A core becomes the target of a position of a stage: a copy of its core, on the new generation where there is one. -/
def State.takeTarget (s : State) (next : Option NextGen) (stage pos src dst : Nat) : State :=
  let s := if src = dst then s else s.cloneCore src dst
  match next with
  | none => s
  | some n => s.genCore n stage pos dst

/-- The switch of a stage to target cores begins (R127 step 1): Lookouts that are taken leave their
role. -/
def State.beginSwitching (s : State) (m : Model) (r : StageRec) (targets : List Nat) (toNext : Bool) : State :=
  let looks := targets.filter s.lookoutCores.contains
  let s := s.leaveLookouts targets
  let next := if toNext then m.next else none
  let s := (r.placed.zip targets).zipIdx.foldl (fun s (x : (Nat × Nat) × Nat) => s.takeTarget next r.stage x.2 x.1.1 x.1.2) s
  s.setModel { m with switching := some ⟨r.stage, targets, r.placed, false, toNext, looks⟩ }

/-- A switch gives up a target before its epoch advances (R127). -/
def State.dropTarget (s : State) (m : Model) (w : Switching) (d : Nat) : State :=
  s.setModel { m with switching := some { w with
    targets := w.targets.map (fun c => if c = d then 255 else c), looks := w.looks.filter (fun c => c != d) } }

/-- The switches that gave up a target go on where a core is available again (R127). -/
def State.retarget (s : State) : State :=
  s.models.foldl (fun s (m : Model) =>
    match m.switching with
    | none => s
    | some w =>
      match w.targets.idxOf? 255, s.freeFor m.context ++ s.lookoutCores with
      | some i, d :: _ =>
        let look := s.lookoutCores.contains d
        let s := (s.leaveLookouts [d]).takeTarget (if w.toNext then m.next else none) w.stage i (w.old.getD i 0) d
        s.setModel { m with switching := some { w with
          targets := w.targets.set i d, looks := if look then w.looks ++ [d] else w.looks } }
      | _, _ => s) s

/-- Every stage of a model runs its new generation (R127 step 5): the old slot is released, and the
command that asked for the switch completes. -/
def State.finishGen (s : State) (ctx id : Nat) : State :=
  match s.model ctx id with
  | none => s
  | some m =>
    match m.next with
    | none => s
    | some n =>
      if !m.stages.all (fun (r : StageRec) => n.switched.contains r.stage) then s
      else
        let stages := (m.stages.zip n.envelopes).map (fun (x : StageRec × List EnvCol) =>
          { x.1 with envelope := x.2, generation := n.gen })
        let s := s.setModel { m with
          gen := n.gen, slot := n.slot, maps := n.maps, expected := n.digest, digest := n.digest, swept := []
          stages := stages, sections := n.sections, encrypted := n.flags == 1, imageAt := some n.imageAt, next := none }
        let s := { s with keep := { s.keep with wkeys := s.keep.wkeys.filter (fun k =>
          !(k.context == ctx && k.model == id && k.gen != n.gen)) } }
        let s := s.log { code := 0x0507, context := ctx, core := ((n.switched.getLast?).bind m.stage).elim 255 (fun r => r.entry), item := id % 2 ^ 48, argA := n.gen }
        let s := s.settleOff (.switching ctx id)
        match n.waiter with
        | none => s
        | some (k, j) => s.done k j 0

/-- Begin the stage-by-stage switch of the next stage that waits for one; a stage for which cores are
short waits for the next frame boundary (R127 step 1). -/
def State.nextStageSwitch (s : State) (ctx id : Nat) : Nat → State
  | 0 => s
  | fuel + 1 =>
    match s.model ctx id with
    | none => s
    | some m =>
      match m.next with
      | none => s
      | some n =>
        match (if m.switching.isSome then [] else n.todo) with
        | [] => s
        | st :: rest =>
          let m := { m with next := some { n with todo := rest } }
          match m.stage st with
          | none => s
          | some (r : StageRec) =>
            let pool := s.freeFor ctx ++ s.lookoutCores
            if pool.length < r.cores then
              let s := (s.setModel m).log { code := 0x0509, context := ctx, core := r.entry, argA := st }
              (s.askFrame ctx (.switch id st)).nextStageSwitch ctx id fuel
            else s.beginSwitching m r (pool.take r.cores) true

/-- SWITCH (R126, R241): at a frame boundary, or stage by stage where the generation is rolling. -/
def execSwitch (func ring : Nat) (s : State) : Res :=
  let k := cmdKey func ring
  match s.cmd k 0x19 with
  | none => .next s
  | some t =>
    let d := t.bytes
    let ctx := dCtx d
    match s.model ctx (dModel d) with
    | none => .next (s.done k t.number 0x6B)
    | some m =>
      match m.next with
      | none => .next (s.done k t.number 0x6B)
      | some n =>
        let mode := d.getD 14 0
        if !n.ready then .next (s.done k t.number 0x6B)
        else if mode = 1 && !n.rolling then .next (s.done k t.number 0x6C)
        else if n.waiter.isSome then .next s
        else
          let s := (s.begun k t.number).settleOn (.switching ctx m.id)
          let todo := if mode = 1 then m.stages.map (fun (r : StageRec) => r.stage) else []
          let s := s.setModel { m with next := some { n with waiter := some (k, t.number), todo := todo } }
          if mode = 1 then .next (s.nextStageSwitch ctx m.id 33) else .next (s.askFrame ctx (.switch m.id 0))

/-- Whether the engines of a core hold the weights they should. -/
def State.coreLoaded (s : State) (c : Nat) : Bool :=
  (s.restorer c).bulk.isNone && (s.inService c).all (fun e => (s.engine c e).written)

/-- Whether a core's VEC and ITEM threads have nothing under way. -/
def State.threadsIdle (s : State) (c : Nat) : Bool := (s.seq c).vec.entry == .idle && (s.seq c).itm.entry == .idle

/-- STAGE_SWITCH_ADVANCE (R127 step 3): at the stage's next vector boundary the placement epoch
advances, and every later vector goes to the targets. -/
def execStageSwitchAdvance (ctx id stage : Nat) (s : State) : Res :=
  match s.model ctx id with
  | none => .next s
  | some m =>
    match m.switching, m.stage stage with
    | some w, some r =>
      let fresh := w.targets.filter (fun c => !w.old.contains c)
      if w.stage != stage || w.advanced || w.targets.contains 255 || !fresh.all (fun c => s.coreLoaded c && s.startReason c == 0)
          || !w.old.all s.atBoundary then .next s
      else
        let (s, ok) := s.advancePlanned m r w.old
        if !ok then .next s
        else
          let m := { m with
            switching := some { w with advanced := true }
            stages := m.stages.map (fun (x : StageRec) => if x.stage = stage then { x with placed := w.targets } else x) }
          .next (fresh.foldl (fun s c => s.coreStart c) (s.setModel m))
    | _, _ => .next s

/-- Whether a core of a stage still owes something: a vector, a thread's work, or a packet without its
receipt. -/
def State.coreOwes (s : State) (c : Nat) : Bool :=
  (s.core c).vins.any (fun v => !v.done) || !s.threadsIdle c || !(s.seq c).due.isEmpty
    || s.fab.held.any (fun p => p.src == c) || s.fab.net.any (fun p => p.dst == c && p.typ != .receipt)

/-- OLD_PLACEMENT_RELEASE (R127 steps 4 and 5): the old cores send their epoch closes, are written to
level 0 and become free. -/
def execOldPlacementRelease (ctx id stage : Nat) (s : State) : Res :=
  match s.model ctx id with
  | none => .next s
  | some m =>
    match m.switching, m.stage stage with
    | some w, some r =>
      let gone := w.old.filter (fun c => !w.targets.contains c)
      if w.stage != stage || !w.advanced || gone.any s.coreOwes then .next s
      else
        let s := s.sendCloses m r w.old
        let next := match (if w.toNext then m.next else none) with
          | none => m.next
          | some n => some { n with switched := n.switched ++ [stage] }
        let s := s.setModel { m with switching := none, next := next }
        let s := gone.foldl (fun s c => s.vacate c) s
        let s := s.designate.retarget
        .next ((s.finishGen ctx id).nextStageSwitch ctx id 33)
    | _, _ => .next s

/-! ### The frame after a boundary (R126, R380) -/

/-- The next frame of a context begins once its cores hold their weights: the cores that the boundary
stopped start again, a switch that it made is finished, and the context takes work again. -/
def State.frameResume (s : State) (ctx : Nat) : State :=
  let cs := s.keep.resume.filter (fun (p : Nat × Nat) => s.ctxOf p.1 == ctx)
  if Tab.getD s.keep.frames ctx [.epoch] != [] || !cs.all (fun (p : Nat × Nat) => s.coreLoaded p.1) then s
  else
    let s := { s with keep := { s.keep with
      frames := Tab.erase s.keep.frames ctx, resume := s.keep.resume.filter (fun (p : Nat × Nat) => !cs.contains p) } }
    let s := cs.foldl (fun s (p : Nat × Nat) =>
      let s := s.coreStart p.1
      if p.2 = 3 then s.coreAsk p.1 .halt else s) s
    (s.models.filter (fun (m : Model) => m.context == ctx)).foldl (fun s (m : Model) => s.finishGen ctx m.id) s

/-! ### Bulk loads (R28, R112) -/

/-- A failover in progress that takes a core for a subject. -/
def State.failoverOf (s : State) (c source : Nat) : Bool :=
  s.rel.failovers.any (fun f => f.lookout == c && f.core == source && !f.loaded)

/-- Whether a bulk load may start on a core (R112). -/
def State.bulkDue (s : State) (c source : Nat) (kind : BulkKind) : Bool :=
  (s.restorer c).bulk.isNone && !(s.restorer c).zeroing &&
    match kind with
    | .start => source == c && (s.stageOf c).elim false (fun (x : Model × StageRec) => x.1.state == .starting)
    | .mirror => (s.lookoutOf c).elim false (fun k => s.fget (lookState k) 0 == 1 && s.fget (lookSubject k) 0 == source)
        && !s.failoverOf c source
    | .failover => s.failoverOf c source
    | .migration => s.models.any (fun (m : Model) => m.switching.elim false (fun w => !w.toNext && (w.old.zip w.targets).contains (source, c)))
    | .generation => s.models.any (fun (m : Model) => m.switching.elim false (fun w => w.toNext && (w.old.zip w.targets).contains (source, c)))
    | .reload => source == c && s.fget F.CORE_STATUS_STATE c == 1 && (s.stageOf c).elim false (fun (x : Model × StageRec) => x.1.state == .loaded)

/-- The bulk loads that a failover load overtakes (R112, R182). -/
def yields (k : BulkKind) : Bool := k == .migration || k == .generation || k == .start

/-- Pause, or resume, the loads that a failover load overtakes (R112), those of a starting model among them (R182). -/
def State.pauseLoads (s : State) (on : Bool) : State :=
  (List.range 32).foldl (fun s c =>
    let r := s.restorer c
    match r.bulk with
    | some b => if yields b.kind then s.setRst c { r with bulk := some { b with paused := on } } else s
    | none => s) s

/-- The engines of a Lookout take the tiles of its subject; those that the subject does not use leave service.
Where its cells hold the weights of another context, every cell is written to level 0 first (R28). -/
def State.mirrorEngines (s : State) (c source : Nat) : State :=
  let ctx := s.ctxOf source
  let k := (s.lookoutOf c).getD 0
  let old := (s.lookout k).ctx
  let s := s.setLookout k { s.lookout k with ctx := some ctx }
  let s := if s.conf ctx then s.fset F.KEEP_CORE_DATA_CLEAN c 0 else s
  let s := s.fset F.CORE_ROLE_CONTEXT c ctx
  let s := s.fset F.RST_GEN_GEN c (s.genOf source)
  let s := s.fset F.RST_SLOT_ACTIVE c (s.fget F.RST_SLOT_ACTIVE source)
  (List.range 32).foldl (fun s e =>
    let g := s.engine source e
    let h := s.engine c e
    let h := if old = some ctx then h else h.zero
    let s := [F.ENG_CFG_SLICE_PLAN, F.ENG_CFG_PLANES, F.ENG_CFG_SIGNED, F.ENG_CFG_SPLIT_EN, F.ENG_CFG_REPLAY_MAX,
      F.ENG_CFG_SEG_EN].foldl (fun s f => s.fset f (eng c e) (s.fget f (eng source e))) s
    if g.inService then
      let s := s.setEngine c e { h with
        map := g.map, head := g.head, inService := true, written := false, expected := g.expected
        run := none, tree := none, next := none }
      { s with fab := { s.fab with bound := Tab.set s.fab.bound (c * 32 + e) (s.region source e) } }
    else s.engineOut c e) s

/-- BULK_LOAD (R112). -/
def execBulkLoad (core source : Nat) (kind : BulkKind) (s : State) : Res :=
  if !s.bulkDue core source kind then .next s
  else
    let s := if kind = .mirror then s.mirrorEngines core source
      else if kind = .failover && (s.stageOf core).isNone then s.mirrorEngines core source else s
    let s := if kind = .failover then s.pauseLoads true else s
    let held := yields kind && (List.range 32).any (fun c =>
      (s.restorer c).bulk.elim false (fun b => b.kind == .failover))
    let r := s.restorer core
    let s := if r.sweeping && r.lagged then s.count C.RST_CNT_LAGSWEEP core else s
    let s := s.setRst core { r with sweeping := false, bulk := some ⟨kind, s.fget F.RST_SLOT_ACTIVE core, source, held⟩ }
    .next (s.fset F.RST_STATUS_STATE core 2)

/-- Every row of an engine is written from a master slot, and the digest of what was read is checked.  A row that cannot be
read, `bad`, is not written, and the engine stands as a digest mismatch (R201). -/
def State.bulkEngine (s : State) (c e slot : Nat) (bad : Option Nat) : State :=
  let g := s.region c e
  let plan := s.plan c e
  let s := (List.range 2048).foldl (fun s row =>
    if bad = some row then s else s.rewriteRow c e row (s.masterRow g slot plan row)) s
  let x := s.engine c e
  let s := s.setEngine c e { x with written := true, folded := [] }
  match bad with
  | some row => (s.memUe (recordAddr g slot row)).digestMismatch c e
  | none => s.checkDigest c e (shake256 (s.engineHeader c e ++ (List.range 2048).flatMap (s.masterRow g slot plan)))

/-- BULK_LOAD_DONE (R112): digests are checked; a failover load lets the loads that it paused resume. -/
def execBulkLoadDone (load : BulkEnd) (s : State) : Res :=
  let core := load.core
  let r := s.restorer core
  match r.bulk with
  | none => .next s
  | some b =>
    if b.paused then .next s
    else
      let s := (s.inService core).foldl (fun s e => s.bulkEngine core e b.slot (load.bad.bind (fun x => if x.1 = e then some x.2 else none))) s
      let s := s.setRst core { s.restorer core with bulk := none }
      let s := s.fset F.RST_STATUS_STATE core 0
      match b.kind with
      | .failover =>
        let s := { s with rel := { s.rel with failovers := s.rel.failovers.map (fun f =>
          if f.lookout = core then { f with loaded := true } else f) } }
        let more := (List.range 32).any (fun c => (s.restorer c).bulk.elim false (fun x => x.kind == .failover))
        .next (if more then s else s.pauseLoads false)
      | .mirror =>
        match s.lookoutOf core with
        | none => .next s
        | some k =>
          let s := s.fset (lookState k) 0 2
          let s := s.fset F.CORE_STATUS_STATE core 2
          .next (s.setLookout k { s.lookout k with dwellStart := s.ns, comparable := 0, failed := false })
      | .reload => .next (s.frameResume (s.ctxOf core))
      | _ => .next s

end Sys2Proof.Machine
end

