-- ==== Sys2Proof/Machine/Canopy.lean ====
section
/-! DEFINITION. Canopy links (R305 to R318, R328 to R331, R355, R356, R384): ports, keying, frames,
packets between devices, lane bindings, digests and retractions. -/

namespace Sys2Proof.Machine

/-! ### Ports (R306 to R308, R314) -/

/-- A port beside its registers. -/
def State.cport (s : State) (p : Nat) : CnpPort := Tab.getD s.cnp.ports p .empty

/-- Replace a port. -/
def State.setCport (s : State) (p : Nat) (x : CnpPort) : State := { s with cnp := { s.cnp with ports := Tab.set s.cnp.ports p x } }

/-- Put a port into a state. -/
def State.setPort (s : State) (p st : Nat) : State := s.fset F.CNP_PORT_STATUS_STATE p st

/-- The buffers of each credit class in flits (Table 13.4). -/
def creditSizes : List Nat := [512, 512, 64, 64, 16, 16]

/-- Fence a port for a reason of Table 13.1. -/
def State.fencePort (s : State) (p reason : Nat) : State :=
  let s := s.setCport p { CnpPort.empty with fencedNs := s.ns }
  let s := s.setPort p 4
  let s := s.fset F.CNP_PORT_STATUS_FENCE p reason
  let s := s.flag F.CNP_STATUS_FENCE_SEEN 0
  s.log { code := 0x1203, engine := p, argA := reason }

/-- A port goes down (R314): its buffers and its key are discarded, and it retrains while the block
runs. -/
def State.dropPort (s : State) (p : Nat) : State :=
  let was := s.port p
  let s := s.setCport p .empty
  let s := s.fset F.CNP_PORT_PEER_VALID p 0
  let s := s.fset F.CNP_PORT_STATUS_KEY p 0
  let s := if was = 3 then s.log { code := 0x1202, engine := p } else s
  s.setPort p (if s.cnp.running then 1 else 0)

/-- The cause for which a START is ignored, 0 for none (R331). -/
def State.cnpStartReason (s : State) : Nat :=
  let n := devices s.dims
  if s.dims.contains 0 || n < 1 || 128 < n then 1
  else if n ≤ s.me then 2
  else if 5 < s.fget F.CNP_TOPO_ID_ORDER 0 then 3 else 0

/-- Bring a port up: a used port trains, an unused one is held unused (R306). -/
def State.bringUp (s : State) (p : Nat) : State :=
  if !portUsed s.dims p then s.setPort p 5
  else if s.cnp.faulty.contains (p / 2) then s.fencePort p 6
  else if s.port p = 3 || s.port p = 2 then s
  else ((s.setCport p .empty).setPort p 1).fset F.CNP_PORT_STATUS_FENCE p 0

/-- CNP_START (R331). -/
def execCnpStart (s : State) : Res :=
  let r := s.cnpStartReason
  if r = 0 then
    let s := { s with cnp := { s.cnp with running := true } }
    .next ((List.range 6).foldl State.bringUp s)
  else
    let s := s.flag F.CNP_STATUS_START_REFUSED 0
    let s := s.fset F.CNP_STATUS_REASON 0 r
    .next (s.log { code := 0x1209, argA := r })

/-- CNP_STOP (R331): every port goes down. -/
def execCnpStop (s : State) : Res :=
  let s := { s with cnp := { s.cnp with running := false } }
  .next ((List.range 6).foldl (fun s p => if s.port p = 5 then s else s.dropPort p) s)

/-- The bytes of an INIT frame before its echo, in the order of the rule's list (R308). -/
def initFields (format device : Nat) (dims : List Nat) (order port : Nat) (credits : List Nat) : List Nat :=
  bytesOf 2 format ++ [device] ++ dims ++ [order, port] ++ credits.flatMap (bytesOf 2)

/-- The INIT frame that this end sends, with an echo of the last INIT received; of nothing, an echo of zeros. -/
def State.initBytes (s : State) (p : Nat) (echo : List Nat) : List Nat :=
  initFields 1 s.me s.dims (s.fget F.CNP_TOPO_ID_ORDER 0) p creditSizes ++ slice echo 0 20

/-- An INIT frame received, as the echo repeats it. -/
def initEcho (i : InitInfo) : List Nat :=
  initFields i.format i.device [i.dimX, i.dimY, i.dimZ] i.order i.port ((List.range 6).map (fun k => i.credits.getD k 0))

/-- PORT_TRAINED (R308): the INIT exchange begins. -/
def execPortTrained (p : Nat) (s : State) : Res :=
  let x := s.cport p
  if 6 ≤ p || s.port p != 1 || x.trained then .next s
  else .next ((s.setCport p { x with trained := true }).emit (.canopy p 2 (s.initBytes p [])))

/-- This end's certificate chain. -/
def ownChain : List Nat := (List.range 4096).map (Config.certByte 0)

/-- The root key of the chain of trust, provisioned in the part. -/
def rootKey : List Nat := (List.range 57).map (fun i => Config.nonVolatile 4 i % 256)

/-- The bytes of a KEY_OFFER, in the order of R384. -/
def offerBytes (o : KeyOffer) : List Nat := o.pub ++ o.random ++ [o.device, o.port] ++ bytesOf 4 o.gen ++ o.chain

/-- A port draws an ephemeral key and sends its offer (R384). -/
def State.sendOffer (s : State) (p gen : Nat) : State :=
  let n := s.free
  let s := s.draw 33
  let k := Config.random n
  let o : KeyOffer := ⟨Config.x448Public k, (List.range 32).map (fun i => Config.random (n + 1 + i) % 256), s.me, p, gen, ownChain⟩
  (s.setCport p { s.cport p with secret := k, mine := some o, theirs := none }).emit (.canopy p 3 (offerBytes o))

/-- The first case of Table 13.1 that an INIT frame meets, 0 for none. -/
def State.initReason (s : State) (p : Nat) (i : InitInfo) : Nat :=
  let n := neighbour s.dims s.me p
  if i.device != n.1 then 1
  else if i.format != 1 || [i.dimX, i.dimY, i.dimZ] != s.dims || i.order != s.fget F.CNP_TOPO_ID_ORDER 0 || i.port != n.2 then 2
  else if 2500 < i.rttNs then 3 else 0

/-- INIT_FRAME (R308). -/
def execInitFrame (p : Nat) (i : InitInfo) (s : State) : Res :=
  let x := s.cport p
  if 6 ≤ p || s.port p != 1 || !x.trained then .next s
  else
    let s := s.fset F.CNP_PORT_PEER_DEVICE p i.device
    let s := s.fset F.CNP_PORT_PEER_PORT p i.port
    let s := s.fset F.CNP_PORT_PEER_VALID p 1
    let s := s.fset F.CNP_PORT_DELAY_RTT_NS p i.rttNs
    let s := s.fset F.CNP_PORT_DELAY_D_NS p (ceilDiv (ceilDiv i.rttNs 2) 10 * 10)
    let s := s.emit (.canopy p 2 (s.initBytes p (initEcho i)))
    let r := s.initReason p i
    if r != 0 then .next (s.fencePort p r)
    else
      let s := s.setPort p 2
      let s := s.setCport p { x with credit := (List.range 6).map (fun k => (k, i.credits.getD k 0)) }
      .next (s.sendOffer p 0)

/-! ### Keying (R313, R384) -/

/-- The digest that both ends sign: both offers, the lower device identifier's first. -/
def offersDigest (a b : KeyOffer) : List Nat :=
  if a.device ≤ b.device then shake256 (offerBytes a ++ offerBytes b) else shake256 (offerBytes b ++ offerBytes a)

/-- The bytes of an ASCII name. -/
def ascii (t : String) : List Nat := t.toList.map (fun c => c.toNat)

/-- KEY_OFFER (R384): once both offers are held, this end signs them. -/
def execKeyOffer (p : Nat) (o : KeyOffer) (s : State) : Res :=
  let x := s.cport p
  if 6 ≤ p || !(s.port p == 2 || s.port p == 3) then .next s
  else
    -- a peer that renews its key first finds no offer of this end, which then makes one
    let s := if x.mine.isNone then s.sendOffer p o.gen else s
    let x := s.cport p
    match x.mine with
    | none => .next s
    | some m =>
      .next ((s.setCport p { x with theirs := some o }).emit (.canopy p 4 (Config.ed448Sign s.keep.ak (offersDigest m o))))

/-- The keys of both directions (R384). -/
def linkKeys (secret : Nat) (m o : KeyOffer) (t : List Nat) : LinkKey :=
  let b := shake256n 72 (ascii "QV-CANOPY-KEY" ++ Config.x448 secret o.pub ++ t ++ bytesOf 4 m.gen)
  let lo : List Nat × List Nat := (slice b 0 32, slice b 64 4)
  let hi : List Nat × List Nat := (slice b 32 32, slice b 68 4)
  if m.device ≤ o.device then ⟨lo.1, lo.2, hi.1, hi.2, m.gen⟩ else ⟨hi.1, hi.2, lo.1, lo.2, m.gen⟩

/-- KEY_CONFIRM (R384): the chain, the signature and the peer policy decide; the ephemeral secret is
destroyed. -/
def execKeyConfirm (p : Nat) (sig : List Nat) (s : State) : Res :=
  let x := s.cport p
  if 6 ≤ p || !(s.port p == 2 || s.port p == 3) then .next s
  else
    match x.mine, x.theirs with
    | some m, some o =>
      let t := offersDigest m o
      let ok := Config.chainValid o.chain rootKey && Config.ed448Verify (Config.chainKey o.chain) t sig && m.gen == o.gen
        && (!s.fon F.KEEP_CONF_CFG_CNP_POLICY 0 || s.mgmt.peers.contains (Config.chainSerial o.chain))
      if !ok then .next (s.fencePort p 5)
      else
        let k := linkKeys x.secret m o t
        let up := s.port p == 3
        let s := s.setCport p { x with
          key := some k, prev := if up then x.key else none, secret := 0, mine := none, theirs := none, keyedNs := s.ns
          idleOut := 0, idleIn := 0, idleOld := x.idleIn, ackNs := s.ns }
        let s := s.fset F.CNP_PORT_STATUS_KEY p (k.gen % 2)
        if up then .next s else .next ((s.setPort p 3).log { code := 0x1201, engine := p })
    | _, _ => .next s

/-- KEY_RENEWAL (R313): every 3,600 s a port sets up its next key. -/
def execKeyRenewal (p : Nat) (s : State) : Res :=
  let x := s.cport p
  match x.key with
  | none => .next s
  | some k =>
    if 6 ≤ p || s.port p != 3 || x.mine.isSome || s.ns < x.keyedNs + 3600000000000 then .next s
    else .next (s.sendOffer p (k.gen + 1))

/-- FENCE_RETRY (R308): a fenced port retries every 1 s. -/
def execFenceRetry (p : Nat) (s : State) : Res :=
  let x := s.cport p
  if 6 ≤ p || s.port p != 4 || !s.cnp.running || s.ns < x.fencedNs + 1000000000 then .next s
  else .next (s.bringUp p)

/-- PORT_DOWN (R314). -/
def execPortDown (p : Nat) (s : State) : Res :=
  if p < 6 && (s.port p == 1 || s.port p == 2 || s.port p == 3) then .next (s.dropPort p) else .next s

/-- MODULE_FAULT (R308, R451): both ports of a faulty cage fence with reason 0x6. -/
def execModuleFault (cage : Nat) (fault : Bool) (s : State) : Res :=
  if 3 ≤ cage then .next s
  else if !fault then .next { s with cnp := { s.cnp with faulty := s.cnp.faulty.filter (fun c => c != cage) } }
  else
    let s := if s.cnp.faulty.contains cage then s else { s with cnp := { s.cnp with faulty := s.cnp.faulty ++ [cage] } }
    .next ([2 * cage, 2 * cage + 1].foldl (fun s p => if s.port p = 5 || s.port p = 0 then s else s.fencePort p 6) s)

/-! ### Packets as flits (Tables 8.2 and 13.5) -/

/-- The type of a code that may cross a link (R315). -/
def crossType (c : Nat) : Option PktType :=
  if c = 1 then some .vector else if c = 8 then some .receipt else if c = 9 then some .signal
  else if c = 10 then some .epochClose else if c = 16 then some .retraction else if c = 17 then some .digest
  else if c = 18 then some .counterOp else if c = 19 then some .binding else none

/-- The virtual channel of a type between devices (Table 13.3). -/
def PktType.chan (t : PktType) : Nat := if t.kept then 0 else 1

/-- DIGEST of a packet (R328). -/
def packetDigest (h payload : List Nat) : List Nat :=
  shake256n 8 (slice h 8 2 ++ slice h 16 6 ++ slice h 24 4 ++ slice h 14 2 ++ [h.getD 33 0] ++ slice h 6 2 ++ slice h 40 16 ++ payload)

/-- The lane that a packet names to the peer that receives it: the peer's own lane (R316). -/
def State.peerLane (s : State) (p : Packet) : Nat :=
  if p.typ = .vector then (s.lane p.lane).peerOut.elim p.lane Prod.snd else p.lane

/-- The header of segment `i` of a message. -/
def State.header (s : State) (p : Packet) (i : Nat) (last : Bool) (payload : List Nat) : List Nat :=
  let tag := if p.typ = .receipt then p.ref else p.key
  let h := [p.typ.code, ofBool last + 2 * ofBool p.nack + 4 * ofBool p.retx, payload.length / 64, p.src, p.dst, p.context]
    ++ bytesOf 2 p.stage ++ bytesOf 2 p.epoch ++ bytesOf 2 (toBits 16 p.eout) ++ [s.peerLane p % 64, 0] ++ bytesOf 2 i
    ++ bytesOf 6 p.item ++ bytesOf 2 tag ++ bytesOf 4 p.vseq ++ bytesOf 4 p.nOff
    ++ [p.dev, s.me] ++ bytesOf 2 p.dstStage ++ [0, 80, 0, 0] ++ bytesOf 16 p.model
  h ++ packetDigest (slice h 0 64) payload

/-- The flits of a message in a class: packets of a header, whose ROUTE names the class, and up to 64 payload flits (R192,
Table 13.5). -/
def State.flitsOf (s : State) (p : Packet) (cls : Nat) : List (List Nat) :=
  let body := slice p.payload 0 (ceilDiv p.payload.length 64 * 64)
  let n := Nat.max 1 (ceilDiv body.length 4096)
  (List.range n).flatMap (fun i =>
    let part := slice body (4096 * i) (Nat.min 4096 (body.length - 4096 * i))
    (s.header p i (i + 1 == n) part).set 36 cls :: (List.range (part.length / 64)).map (fun j => slice part (64 * j) 64))

/-! ### Sending (R307, R309 to R312, R318) -/

/-- Whether the link of a port crosses its dimension's dateline (R307). -/
def State.dateline (s : State) (p : Nat) : Bool :=
  let n := s.dims.getD (p / 2) 1
  let c := coord s.dims s.me (p / 2)
  if p % 2 = 0 then c + 1 == n else c == 0

/-- A packet without a route is discarded (R307). -/
def State.noRoute (s : State) : State := (s.count C.CNP_CNT_NOROUTE 0).logRate 1000000 0 { code := 0x1205 }

/-- Queue flits at a port under a credit index. -/
def State.queueFlits (s : State) (p idx : Nat) (fs : List (List Nat)) : State :=
  let x := s.cport p
  s.setCport p { x with queues := Tab.set x.queues idx (Tab.getD x.queues idx [] ++ fs) }

/-- Whether a packet is the first of an item for its lane's peer and needs an item credit. -/
def State.needsCredit (s : State) (p : Packet) : Bool :=
  p.typ == .vector && (s.lane p.lane).peerOut.isSome && (s.lane p.lane).outItem != some p.item

/-- Whether an earlier VC0 packet to the same device still waits at the Canopy node in front of one that may not pass it
(R317, R319): of the same core, and for a vector of the same lane; a retraction passes none. -/
def State.behindWaiting (s : State) (p : Packet) : Bool :=
  p.typ.kept && s.fab.canopy.any (fun q => q.typ.kept && q.dev == p.dev && decide (q.key < p.key)
    && (p.typ == .retraction || (q.src == p.src && (p.typ != .vector || q.lane == p.lane))))

/-- Send, or keep, one packet that waits at the Canopy node. -/
def State.canopySend (s : State) (p : Packet) : State :=
  let gone (s : State) : State := { s with fab := { s.fab with canopy := s.fab.canopy.filter (fun q => q.key != p.key) } }
  match s.portTo p.dev with
  | none => (gone s).noRoute
  | some port =>
    let l := s.lane p.lane
    if (s.needsCredit p && l.credits == 0) || s.behindWaiting p then s
    else
      let s := if s.needsCredit p then s.setLane p.lane { l with credits := l.credits - 1, outItem := some p.item } else s
      (gone s).queueFlits port (2 * p.typ.chan + ofBool (s.dateline port)) (s.flitsOf p (ofBool (s.dateline port)))

/-- The credit index whose turn a frame position is: VC0 first, but VC1 in one position of 16 and VC2 in
three (R310); then whatever else is ready. -/
def State.frameIndex (s : State) (p : Nat) : Option Nat :=
  let x := s.cport p
  let ready (i : Nat) : Bool := !(Tab.getD x.queues i []).isEmpty && decide (0 < Tab.getD x.credit i 0)
  let t := x.turn % 16
  let order := if t = 3 then [2, 3, 4, 5, 0, 1] else if t % 4 = 3 then [4, 5, 0, 1, 2, 3] else [0, 1, 2, 3, 4, 5]
  order.find? ready

/-- The nonce of a frame (R313). -/
def frameNonce (salt : List Nat) (fn : Nat) : List Nat := slice salt 0 4 ++ bytesOf 8 fn

/-- The 300 bytes of a frame (Table 13.2). -/
def frameBytes (k : LinkKey) (seq ack kind vc cls : Nat) (nak : Bool) (creds : List (Nat × Nat)) (fs : List (List Nat)) (fn : Nat) : List Nat :=
  let c (i : Nat) : Nat × Nat := creds.getD i (7, 0)
  let h := bytesOf 3 seq ++ bytesOf 3 ack ++ [kind + 4 * ofBool nak + 8 * (k.gen % 2), vc + 4 * cls + 8 * fs.length,
    (c 0).1, (c 0).2, (c 1).1, (c 1).2, 0, 0, 0, 0]
  let body := slice fs.flatten 0 256
  let b := h ++ slice (Config.gcmSeal k.tx (frameNonce k.txSalt fn) h (body ++ bytesOf 8 (parityWord body))) 0 280
  b ++ bytesOf 4 (crc32 b)

/-- The two credit returns of the next frame, and what is left owed. -/
def takeOwed (o : Tab Nat) : List (Nat × Nat) × Tab Nat :=
  let xs := (o.filter (fun (e : Nat × Nat) => e.2 != 0)).take 2
  let ret := xs.map (fun (e : Nat × Nat) => (e.1, Nat.min 255 e.2))
  (ret, ret.foldl (fun t e => Tab.set t e.1 (Tab.getD t e.1 0 - e.2)) o)

/-- One frame position of an up port: a data frame where a channel is ready and fewer than 512 are
outstanding, else an idle frame where it has something to say. -/
def State.sendFrame (s : State) (p : Nat) : State :=
  let x := s.cport p
  match x.key with
  | none => s
  | some k =>
    if s.port p != 3 || decide (s.ns * 1000 < x.nextPs) then s
    else
      let (creds, owed) := takeOwed x.owed
      let x := { x with nextPs := Nat.max x.nextPs (s.ns * 1000) + 5670, turn := x.turn + 1 }
      let ack := (x.received + 2 ^ 24 - 1) % 2 ^ 24
      match (if x.unacked.length < 512 then s.frameIndex p else none) with
      | some i =>
        let fs := (Tab.getD x.queues i []).take (Nat.min 4 (Tab.getD x.credit i 0))
        let b := frameBytes k (x.sent % 2 ^ 24) ack 1 (i / 2) (i % 2) x.nak creds fs x.sent
        let y := { x with
          queues := Tab.set x.queues i ((Tab.getD x.queues i []).drop fs.length)
          credit := Tab.set x.credit i (Tab.getD x.credit i 0 - fs.length), owed := owed
          unacked := x.unacked ++ [(x.sent, b)], sent := x.sent + 1, nak := false, ackDue := false
          ackNs := if x.unacked.isEmpty then s.ns else x.ackNs }
        (s.setCport p y).emit (.canopy p 1 b)
      | none =>
        if x.nak || x.ackDue || !creds.isEmpty then
          let b := frameBytes k 0 ack 0 0 0 x.nak creds [] (2 ^ 63 + x.idleOut)
          (s.setCport p { x with owed := owed, nak := false, ackDue := false, idleOut := x.idleOut + 1 }).emit (.canopy p 0 b)
        else s

/-- What the Canopy ports do at a tick. -/
def State.canopyTick (s : State) : State :=
  let s := s.fab.canopy.foldl (fun s p => s.canopySend p) s
  (List.range 6).foldl State.sendFrame s

/-- Send the unacknowledged data frames of a port again, in order, as they were first sent (R312). -/
def State.resendFrames (s : State) (p : Nat) : State :=
  let x := s.cport p
  let s := s.countN C.CNP_CNT_RETX 0 x.unacked.length
  let s := x.unacked.foldl (fun s (f : Nat × List Nat) => s.emit (.canopy p 1 f.2)) s
  s.setCport p { x with ackNs := s.ns, nextPs := Nat.max x.nextPs (s.ns * 1000) + 5670 * x.unacked.length }

/-- CNP_ACK_TIMEOUT (R312). -/
def execCnpAckTimeout (p : Nat) (s : State) : Res :=
  let x := s.cport p
  if 6 ≤ p || s.port p != 3 || x.unacked.isEmpty || s.ns < x.ackNs + s.fget F.CNP_CFG_ACK_TO_NS 0 then .next s
  else .next (s.resendFrames p)

/-! ### Receiving (R312, R315, R316, R328) -/

/-- An unresolved packet (R316). -/
def State.unbound (s : State) (q : Packet) : State :=
  let s := s.count C.CNP_CNT_UNBOUND 0
  let s := s.logRate 1000000 0 { code := 0x1206, argA := q.dev }
  s.receipt q true

/-- The number under which a receiver keeps the epochs of a peer's stage, apart from its own stages'. -/
def peerStage (dev stage : Nat) : Nat := stage + 65536 * (dev + 1)

/-- A receiver follows the epochs of a peer's stage as its packets show them (log entry 57): the first
packet gives the epoch, and one that is one ahead advances it with the previous one open. -/
def State.followEpoch (s : State) (q : Packet) : State :=
  let k := stageKey q.context q.model q.stage
  match Tab.find s.fab.entries k with
  | none => s.setEntryEpoch k ⟨q.epoch, false, []⟩
  | some e => if epochAhead e.cur q.epoch = 1 then s.setEntryEpoch k ⟨q.epoch, true, [q.src]⟩ else s

/-- Deliver a whole message from a peer to its node (R316). -/
def State.deliverPeer (s : State) (q : Packet) : State :=
  let put (s : State) (q : Packet) : State := s.post q
  match q.typ with
  | .receipt =>
    match s.fab.held.find? (fun h => h.remote && h.dev == q.dev && h.key % 65536 == q.ref) with
    | none => s
    | some h => put s { q with ref := h.key, remote := true }
  | .vector =>
    match s.registered q.model q.dstStage with
    | none => s.unbound q
    | some (m, r) =>
      let q := { q with dst := r.entry, context := m.context, stage := peerStage q.dev q.stage }
      put (s.followEpoch q) q
  | .epochClose =>
    match s.registered q.model q.dstStage with
    | none => s.unbound q
    | some (m, r) => put s { q with dst := r.entry, context := m.context, stage := peerStage q.dev q.stage }
  | .signal => put s { q with dst := 41 }
  | .counterOp => put s { q with dst := if q.dst = 255 then 41 else q.dst }
  | .retraction => put s { q with dst := 43 }
  | .digest => put s { q with dst := 44 }
  | .binding => put s { q with dst := 42 }
  | _ => s

/-- A packet whose DIGEST differs (R328): like a payload parity failure; a second one is a fault of the
origin. -/
def State.digestErr (s : State) (q : Packet) : State :=
  let s := s.count C.CNP_CNT_DIGESTERR 0
  let s := s.log { code := 0x1207, argA := q.dev, item := q.item }
  let s := if q.retx then s.fault { kind := 7, reason := 5, action := 0, device := q.dev, stage := q.stage, model := q.model } [] else s
  if q.typ.kept then s.receipt q true else s

/-- One packet, header and payload, that is for this device. -/
def State.peerPacket (s : State) (t : PktType) (h payload : List Nat) : State :=
  let dev := h.getD 33 0
  let q : Packet := { Packet.empty with
    typ := t, src := h.getD 3 0, dst := h.getD 4 0, context := h.getD 5 0 % 32, stage := leAt h 6 2, epoch := leAt h 8 2
    eout := sext 16 (leAt h 10 2), lane := h.getD 12 0 % 64, item := leAt h 16 6, ref := leAt h 22 2, vseq := leAt h 24 4
    nOff := leAt h 28 4, payload := payload, nack := bit (h.getD 1 0) 1, retx := bit (h.getD 1 0) 2, remote := true, dev := dev
    dstStage := leAt h 34 2, model := leAt h 40 16 }
  if packetDigest (slice h 0 64) payload != slice h 56 8 then s.digestErr q
  else
    let seg := leAt h 14 2
    let key := (dev * 64 + q.src % 64) * 65536 + q.ref
    let old := if seg = 0 then (0, []) else Tab.getD s.cnp.parts key (0, [])
    if old.1 != seg then s
    else if bit (h.getD 1 0) 0 then
      let s := { s with cnp := { s.cnp with parts := Tab.erase s.cnp.parts key } }
      s.deliverPeer { q with payload := old.2 ++ payload }
    else { s with cnp := { s.cnp with parts := Tab.set s.cnp.parts key (seg + 1, old.2 ++ payload) } }

/-- A packet for another device is forwarded from port to port (R307, R315). -/
def State.forward (s : State) (p idx : Nat) (h : List Nat) (body : List (List Nat)) : State :=
  if h.getD 37 0 ≤ 1 then s.count C.CNP_CNT_TTL 0
  else
    match s.portTo (h.getD 32 0) with
    | none => s.noRoute
    | some o =>
      let cls := if o / 2 = p / 2 && idx % 2 = 1 then 1 else ofBool (s.dateline o)
      let h := (h.set 36 cls).set 37 (h.getD 37 0 - 1)
      s.queueFlits o (idx / 2 * 2 + cls) (h :: body)

/-- Take whole packets from what a port has received under a credit index; each flit passed on returns
its credit. -/
def State.takePackets (s : State) (p idx : Nat) : Nat → State
  | 0 => s
  | fuel + 1 =>
    let x := s.cport p
    match Tab.getD x.rx idx [] with
    | [] => s
    | h :: rest =>
      let n := h.getD 2 0
      if rest.length < n then s
      else
        let s := s.setCport p { x with rx := Tab.set x.rx idx (rest.drop n), owed := Tab.set x.owed idx (Tab.getD x.owed idx 0 + n + 1) }
        let body := rest.take n
        let s :=
          match crossType (h.getD 0 0) with
          | none => s.count C.CNP_CNT_NOROUTE 0
          | some t => if h.getD 32 0 = s.me then s.peerPacket t h body.flatten else s.forward p idx h body
        s.takePackets p idx fuel

/-- A frame fails a check: NAK once for each gap, and the port goes down after 64 in a row. -/
def State.badFrame (s : State) (p : Nat) : State :=
  let x := s.cport p
  let s := s.setCport p { x with bad := x.bad + 1, nak := x.nak || !x.gap, gap := true }
  if 64 ≤ x.bad + 1 then s.dropPort p else s

/-- A tag fails (R313): 16 within a millisecond fence the port. -/
def State.badTag (s : State) (p : Nat) : State :=
  let s := s.count C.CNP_CNT_AUTH 0
  let s := s.logRate 1000000 p { code := 0x1204, engine := p }
  let x := s.cport p
  let fs := x.authFails.filter (fun t => decide (s.ns ≤ t + 1000000)) ++ [s.ns]
  let s := s.setCport p { x with authFails := fs }
  if 16 ≤ fs.length then s.fencePort p 4 else s.badFrame p

/-- ACK, NAK and credit returns of an accepted frame, data or idle. -/
def State.frameBack (s : State) (p : Nat) (b : List Nat) : State :=
  let x := s.cport p
  let ack := leAt b 3 3
  let left := x.unacked.filter (fun (f : Nat × List Nat) => !decide ((ack + 2 ^ 24 - f.1 % 2 ^ 24) % 2 ^ 24 < 2 ^ 23))
  let add (t : Tab Nat) (i n : Nat) : Tab Nat := if i < 6 then Tab.set t i (Tab.getD t i 0 + n) else t
  let cr := add (add x.credit (b.getD 8 0 % 8) (b.getD 9 0)) (b.getD 10 0 % 8) (b.getD 11 0)
  -- the old key is retired once ACK covers the last frame sent under it (R313)
  let old := left.any (fun (f : Nat × List Nat) => x.key.elim false (fun k => bits (f.2.getD 6 0) 3 1 != k.gen % 2))
  let s := s.setCport p { x with
    unacked := left, credit := cr, prev := if old then x.prev else none, bad := 0
    ackNs := if left.length < x.unacked.length then s.ns else x.ackNs }
  if bit (b.getD 6 0) 2 then s.resendFrames p else s

/-- The key that a frame names: the one in use or the one before. -/
def CnpPort.keyFor (x : CnpPort) (b : Nat) : Option LinkKey :=
  match x.key with
  | none => none
  | some k => if k.gen % 2 = b then some k else x.prev

/-- Whether a frame names the key in use. -/
def CnpPort.current (x : CnpPort) (b : Nat) : Bool := x.key.elim false (fun k => k.gen % 2 == b)

/-- An idle frame has come, whole or not: it counts under its key (R313). -/
def CnpPort.idleSeen (x : CnpPort) (kind b : Nat) : CnpPort :=
  if kind != 0 then x else if x.current b then { x with idleIn := x.idleIn + 1 } else { x with idleOld := x.idleOld + 1 }

/-- The 64-bit number of a data frame: its SEQ extended by the wraps since the port came up, with a window of 2^23
(R312, R313). -/
def CnpPort.extend (x : CnpPort) (seq : Nat) : Nat :=
  let d := (seq + 2 ^ 24 - x.received % 2 ^ 24) % 2 ^ 24
  if d < 2 ^ 23 then x.received + d else x.received + d - 2 ^ 24

/-- A data frame that passes its checks but is not the next one: NAK once for each gap; one that was accepted before
leaves no gap (R312). -/
def State.seqFrame (s : State) (p seq : Nat) : State :=
  let x := s.cport p
  let s := s.count C.CNP_CNT_NAK 0
  if x.extend seq < x.received then s else s.setCport p { x with nak := x.nak || !x.gap, gap := true }

/-- CNP_FRAME_RX (R312). -/
def execCnpFrameRx (p : Nat) (bytes : List Nat) (s : State) : Res :=
  let b := (slice bytes 0 300).map (fun v => v % 256)
  let x := s.cport p
  let kind := b.getD 6 0 % 4
  if 6 ≤ p || s.port p != 3 || kind == 2 then .next s
  else
    let kb := bits (b.getD 6 0) 3 1
    let s := s.setCport p (x.idleSeen kind kb)
    if crc32 (slice b 0 296) != leAt b 296 4 then .next ((s.count C.CNP_CNT_CRC 0).badFrame p)
    else match x.keyFor kb with
    | none => .next (s.badTag p)
    | some k =>
      let seq := leAt b 0 3
      let fn := if kind = 1 then x.extend seq else 2 ^ 63 + (if x.current kb then x.idleIn else x.idleOld)
      match Config.gcmOpen k.rx (frameNonce k.rxSalt fn) (slice b 0 16) (slice b 16 280) with
      | none => .next (s.badTag p)
      | some plain =>
        if kind != 1 then .next (s.frameBack p b)
        else if seq != x.received % 2 ^ 24 then .next (s.seqFrame p seq)
        else if parityWord (slice plain 0 256) != leAt plain 256 8 then .next ((s.count C.CNP_CNT_CRC 0).badFrame p)
        else
          let idx := 2 * (b.getD 7 0 % 4) + bits (b.getD 7 0) 2 1
          let n := Nat.min 4 (bits (b.getD 7 0) 3 3)
          let fs := (List.range n).map (fun i => slice plain (64 * i) 64)
          let x := { x with received := x.received + 1, gap := false, ackDue := true
                            rx := Tab.set x.rx idx (Tab.getD x.rx idx [] ++ fs) }
          .next (((s.setCport p x).frameBack p b).takePackets p idx 520)

/-! ### Receipts between devices (R317) -/

/-- CNP_RECEIPT_TIMEOUT (R317): sent once more with RETX; the second failure follows Table 8.3, and a
retraction goes on until it has its receipt (R330). -/
def execCnpReceiptTimeout (packet : Nat) (s : State) : Res :=
  match s.fab.held.find? (fun q => q.key == packet) with
  | none => .next s
  | some q =>
    if !q.remote || decide (s.ns < q.sentNs + s.fget F.CNP_CFG_RECEIPT_TO_US 0 * 1000) then .next s
    else if q.retx && q.typ != .retraction then .next ((s.secondFail q true).lost q)
    else .next (s.resend q)

/-! ### Lane bindings (R318) -/

/-- The code of a binding message. -/
def Packet.bindCode (p : Packet) : Nat := if p.typ = .binding then p.nOff else 0

/-- BINDING_QUERY (R318): matched to an admitted SRC lane that is not yet bound; a query for a stage
number (R323) is answered with the lowest-numbered registered stage. -/
def execBindingQuery (packet : Nat) (s : State) : Res :=
  match s.packet packet with
  | none => .next s
  | some p =>
    if p.bindCode = 1 then
      let s := s.unpost packet
      match (List.range 64).find? (fun l => s.laneUp l && (s.lane l).src && (s.lane l).peerIn.isNone
          && (s.lane l).model == p.model && (s.lane l).first == p.dstStage) with
      | none => .next s
      | some l =>
        let s := s.setLane l { s.lane l with peerIn := some p.dev }
        .next (s.toPeer { Packet.empty with
          typ := .binding, src := 42, dst := 42, dev := p.dev, context := (s.lane l).context, model := p.model
          lane := l, vseq := p.lane, item := 2, nOff := 2 })
    else if p.bindCode = 5 then
      let s := s.unpost packet
      let st := (s.models.filter (fun (m : Model) => m.id == p.model)).flatMap (fun (m : Model) => m.stages.map (fun (r : StageRec) => r.stage))
      match st with
      | [] => .next s
      | a :: r => .next (s.toPeer { Packet.empty with
          typ := .binding, src := 42, dst := 42, dev := p.dev, model := p.model, dstStage := r.foldl Nat.min a, nOff := 6 })
    else .next s

/-- BINDING_REPLY (R318): the admission goes on with the peer's lane and its item credits. -/
def execBindingReply (packet : Nat) (s : State) : Res :=
  match s.packet packet with
  | none => .next s
  | some p =>
    if p.bindCode = 6 then
      let s := s.unpost packet
      .next { s with models := s.models.map (fun (m : Model) =>
        if m.id = p.model then { m with peerStages := Tab.set m.peerStages p.dev p.dstStage } else m) }
    else if p.bindCode = 2 then
      let s := s.unpost packet
      let l := p.vseq
      match (s.lane l).asked with
      | none => .next s
      | some (k, n, b, _) =>
        let s := s.setLane l { s.lane l with asked := none }
        match s.takenDesc k n with
        | none => .next (s.setLane l .empty)
        | some t =>
          .next (s.admField k n l t.bytes b (some (p.dev, p.lane, p.item)))
    else .next s

/-- BINDING_TIMEOUT (R318): without a reply within 100 µs check 0x23 fails. -/
def execBindingTimeout (l : Nat) (s : State) : Res :=
  match (s.lane l).asked with
  | none => .next s
  | some (k, n, b, t) =>
    if s.ns < t + 100000 then .next s
    else .next ((s.setLane l .empty).admRefuse k n l (contractLane b) { code := 0x23 })

/-- The lane that sends to a peer's lane. -/
def State.laneTo (s : State) (dev lane : Nat) : Option Nat := (List.range 64).find? (fun l => (s.lane l).peerOut == some (dev, lane))

/-- ITEM_CREDIT (R318). -/
def execItemCredit (packet : Nat) (s : State) : Res :=
  match s.packet packet with
  | none => .next s
  | some p =>
    if p.bindCode != 3 then .next s
    else
      let s := s.unpost packet
      match s.laneTo p.dev p.lane with
      | none => .next s
      | some l => .next (s.setLane l { s.lane l with credits := (s.lane l).credits + 1 })

/-- BINDING_END (R318): the lane that sends to the peer's lane, or the lane that the peer fed, is
reported as broken by a fault beyond the fault reserve. -/
def execBindingEnd (packet : Nat) (s : State) : Res :=
  match s.packet packet with
  | none => .next s
  | some p =>
    if p.bindCode != 4 then .next s
    else
      let s := s.unpost packet
      match (if (s.lane p.lane).peerIn = some p.dev then some p.lane else s.laneTo p.dev p.lane) with
      | none => .next s
      | some l => .next ((s.setLane l { s.lane l with peerIn := none, peerOut := none, credits := 0 }).breakLane l 1)

/-! ### Digests and retractions (R329, R330, R356, R358) -/

/-- MODEL_DIGEST_TIMER (R329); the exchange pauses while the management controller restarts (R403). -/
def execModelDigestTimer (s : State) : Res :=
  if s.mgmt.down || !s.fon F.CNP_DIGEST_CFG_EN 0 || s.ns < s.cnp.digestNs + s.fget F.CNP_DIGEST_CFG_PERIOD_MS 0 * 1000000 then .next s
  else
    let s := { s with cnp := { s.cnp with digestNs := s.ns } }
    let devs := (List.range 128).filter (fun d => d != s.me && bit (s.fget F.CNP_DIGEST_PEERS_MASK (d / 32)) (d % 32))
    let ms := s.models.filter (fun (m : Model) => !m.digest.isEmpty)
    .next (ms.foldl (fun s (m : Model) => devs.foldl (fun s d => s.toPeer { Packet.empty with
      typ := .digest, src := 44, dst := 255, dev := d, context := m.context, model := m.id
      payload := slice (bytesOf 4 m.gen ++ bytesOf 4 (s.modelSweeps m - m.sweptAt)) 0 64 ++ slice m.digest 0 64 }) s) s)

/-- MODEL_DIGEST_PACKET (R329): a difference starts verification (R358). -/
def execModelDigestPacket (packet : Nat) (s : State) : Res :=
  match s.packet packet with
  | none => .next s
  | some p =>
    if p.typ != .digest || s.mgmt.down then .next s
    else
      let s := s.unpost packet
      match s.models.find? (fun (m : Model) => m.id == p.model && m.gen == leAt p.payload 0 4 && !m.digest.isEmpty) with
      | none => .next (s.count C.CNP_CNT_DIGESTSKIP 0)
      | some m =>
        if m.digest = slice p.payload 64 64 then .next s
        else
          let s := s.flag F.CNP_STATUS_DIGEST_DIFF_SEEN 0
          let s := s.log { code := 0x1208, context := m.context, argA := p.dev, argB := s.me }
          .next (s.setModel { m with verifying := true })

/-- CNP_RETRACTION (R330, R356): applied once, to the named lane's items, and forwarded with REASON
0x06. -/
def execCnpRetraction (packet : Nat) (s : State) : Res :=
  match s.packet packet with
  | none => .next s
  | some p =>
    if p.typ != .retraction || s.behindSends p then .next s
    else
      let b := p.payload
      let s := s.unpost packet
      let number := leAt b 0 4
      let origin := b.getD 4 0
      let key := origin * 2 ^ 32 + number
      if (Tab.find s.rel.applied key).isSome then .next (s.receipt p false)
      else
        let s := { s with rel := { s.rel with applied := Tab.set s.rel.applied key 1 } }
        let l := p.lane
        let x := s.lane l
        let (s, es) := s.convictLane l (leAt b 12 6) (leAt b 18 6)
        let (s, more) := match x.peerOut with
          | none => (s, [])
          | some (dev, lane) =>
            (s.toPeer { Packet.empty with
              typ := .retraction, src := 43, dst := 255, dev := dev, context := x.context, model := x.model, lane := lane
              payload := b.set 5 6 }, [faultEntry 5 l 0 dev (leAt b 12 6) (leAt b 18 6)])
        let s := s.faultAwait { kind := 7, reason := b.getD 5 0, action := ofBool (x.field || !more.isEmpty) * 16, context := x.context
                                device := origin, stage := leAt b 6 2, generation := leAt b 24 4, epochFirst := leAt b 8 2
                                epochLast := leAt b 10 2, model := p.model } (es ++ more) [l]
        .next (s.receipt p false)

end Sys2Proof.Machine
end

