-- ==== Sys2Proof/Machine/RegOps.lean ====
section
/-! DEFINITION. The register map as a function (R12 to R16, R441, R442): which register and which
instance of it an offset of PF BAR0 names, the instance that a select register chooses for a
window register, and what a write does to each kind of field. -/

namespace Sys2Proof.Machine

/-- The instance of a banked register that lies `d` bytes beyond its first instance. -/
def bankInst (b : Bank) (d : Nat) : Option Nat :=
  match b with
  | .one => if d = 0 then some 0 else none
  | .core => if d % 0x10000 = 0 && decide (d / 0x10000 < 32) then some (d / 0x10000) else none
  | .engine =>
    let c := d / 0x10000
    let r := d % 0x10000
    if r % 0x100 = 0 && decide (r / 0x100 < 36) && decide (c < 32) then some (c * 64 + r / 0x100) else none
  | .ring => if d % 0x40 = 0 && decide (d / 0x40 < 128) then some (d / 0x40) else none
  | .sync =>
    if d % 16 = 0 && decide (d / 16 < 16384) then some (d / 16)
    else if decide (0x40000 ≤ d) && d % 16 = 0 && decide ((d - 0x40000) / 16 < 64) then some (16384 + (d - 0x40000) / 16)
    else none
  | .arr stride count => if d % stride = 0 && decide (d / stride < count) then some (d / stride) else none

/-- Whether a register has an instance at an offset, and which. -/
def Reg.instAt (r : Reg) (off : Nat) : Option Nat := if off < r.off then none else bankInst r.bank (off - r.off)

/-- The register at an offset, and its instance. -/
def regAt (off : Nat) : Option (Reg × Nat) :=
  Reg.all.findSome? (fun r => (r.instAt off).map (fun i => (r, i)))

/-- The number of the unit that REL_UNIT_SEL names. -/
def State.selUnit (s : State) : Nat :=
  let c := s.fget F.REL_UNIT_SEL_CORE 0
  let e := s.fget F.REL_UNIT_SEL_ENGINE 0
  match s.fget F.REL_UNIT_SEL_KIND 0 with
  | 0 => c
  | 1 => 1024 + c * 64 + e
  | _ => 65536 + (c * 64 + e) * 512 + s.fget F.REL_UNIT_SEL_LANE 0

/-- The instance that a select register chooses for a window register; other registers keep the instance
their offset gives. -/
def State.selInst (s : State) (off i : Nat) : Nat :=
  let g (f : Fld) : Nat := s.fget f 0
  match off with
  | 0x1002C => g F.MGT_FW_SEL_TYPE
  | 0x20038 => g F.GLB_THM_SEL_CORE
  | 0x500014 => g F.HIF_VF_SEL_VF
  | 0x600014 => g F.ADM_LANE_SEL_LANE
  | 0x600018 => g F.ADM_LANE_SEL_LANE
  | 0x60001C => g F.ADM_LANE_SEL_LANE
  | 0x600020 => g F.ADM_LANE_SEL_LANE
  | 0x600024 => g F.ADM_LANE_SEL_LANE
  | 0x700044 => g F.CNP_PORT_SEL_PORT
  | 0x700048 => g F.CNP_PORT_SEL_PORT
  | 0x70004C => g F.CNP_PORT_SEL_PORT
  | 0xA00028 => s.selUnit
  | 0xB00024 => g F.KEEP_CTX_SEL_CONTEXT
  | 0xB00044 => g F.KEEP_CORE_SEL_CORE
  | 0xB0004C => g F.KEEP_SVN_SEL_TYPE
  | 0xC00014 => g F.HK_ENT_SEL_ENTRY
  | 0xC00024 => g F.HK_CH_SEL_CHANNEL
  | 0xC00028 => g F.HK_CH_SEL_CHANNEL
  | 0xC0002C => g F.HK_CH_SEL_CHANNEL
  | 0xC00030 => g F.HK_CH_SEL_CHANNEL
  | 0xD10014 => g F.FLD_POL_SEL_OUTPUT
  | 0xD10024 => g F.FLD_TRIG_SEL_TRIGGER
  | 0xD10034 => g F.FLD_ENC_SEL_ENCODER
  | 0xD10038 => g F.FLD_ENC_SEL_ENCODER
  | 0xD1003C => g F.FLD_ENC_SEL_ENCODER
  | 0xD10044 => g F.FLD_LANE_SEL_LANE * 24 + g F.FLD_LANE_SEL_WORD
  | 0xD10048 => g F.FLD_LANE_SEL_LANE
  | 0xD1004C => g F.FLD_LANE_SEL_LANE
  | 0xD10054 => g F.FLD_REJ_SEL_OUTPUT
  | 0xD10058 => g F.FLD_REJ_SEL_OUTPUT
  | 0xD10074 => g F.FLD_VT_SEL_SLOT
  | 0xD11024 => g F.FADC_CALF_SEL_CONV * 8 + g F.FADC_CALF_SEL_GAIN
  | 0xD11028 => g F.FADC_CALF_SEL_CONV * 8 + g F.FADC_CALF_SEL_GAIN
  | 0xD1200C => g F.FDAC_SEL_OUTPUT
  | 0xD12010 => g F.FDAC_SEL_OUTPUT
  | 0xD12018 => g F.FDAC_SEL_OUTPUT
  | 0xD1201C => g F.FDAC_SEL_OUTPUT
  | _ => i

/-- What a read of a field returns before any effect of the read (Table 0.5). -/
def State.readFld (s : State) (f : Fld) (i : Nat) : Nat :=
  match f.acc with
  | .wo => 0
  | .stg => s.staging f i
  | _ => s.fget f i

/-- The word of a register's stored fields. -/
def State.regWord (s : State) (r : Reg) (i : Nat) : Nat :=
  r.flds.foldl (fun n f => n + s.readFld f i * 2 ^ f.lo) 0

/-- What a written word does to one field (Table 0.5): RWS here is a write that the owning function allows,
and WO acts elsewhere. -/
def State.writeFld (s : State) (f : Fld) (i v : Nat) : State :=
  let x := bits v f.lo f.width
  match f.acc with
  | .rw => s.fset f i x
  | .rws => s.fset f i x
  | .w1c => s.fset f i (s.fget f i - (s.fget f i &&& x))
  | .stg => s.stage f i x
  | _ => s

/-- What a written word does to a register's fields. -/
def State.writeReg (s : State) (r : Reg) (i v : Nat) : State :=
  r.flds.foldl (fun s f => s.writeFld f i v) s

/-- Whether a register holds RWS fields. -/
def Reg.rws (r : Reg) : Bool := r.flds.any (fun f => f.acc == .rws)

/-- The register offset of a stored field's key. -/
def keyReg (k : Nat) : Nat := (Nat.unpair k).1 / 32

/-- Whether a register stands on the field side. -/
def fieldSide (reg : Nat) : Bool := decide (0xD10000 ≤ reg) && decide (reg < 0xD20000)

/-- Return every register of an offset range to its reset values, staged values included. -/
def State.clearRegs (s : State) (lo hi : Nat) : State :=
  let p (k : Nat) : Bool := decide (keyReg k < lo) || decide (hi ≤ keyReg k)
  { s with fields := Tab.keep s.fields (fun k _ => p k), staged := Tab.keep s.staged (fun k _ => p k) }

/-! ### Counter control (R61) -/

/-- What CLEAR of a counter control register clears in the instance written. -/
def cntFields (off : Nat) : List Fld :=
  match off with
  | 0x30 =>
    [F.GLB_ACC_CNT_COUNT]
  | 0x10050 =>
    [F.MGT_CNT_SESSION_COUNT, F.MGT_CNT_AUTHFAIL_COUNT, F.MGT_CNT_EVLOST_COUNT, F.MGT_CNT_MSGBAD_COUNT]
  | 0x20050 =>
    [F.GLB_THM_CNT_L1_COUNT, F.GLB_THM_CNT_L2_COUNT, F.GLB_THM_CNT_L3_COUNT, F.GLB_THM_CNT_GUARD_COUNT]
  | 0x100090 =>
    [F.CORE_CNT_SLOT_LANE_COUNT, F.CORE_CNT_SLOT_IDLE_COUNT, F.CORE_CNT_GLADE_COUNT, F.CORE_CNT_SCRROW_COUNT,
     F.CORE_CNT_SCRSTALE_COUNT, F.CORE_CNT_STGEXC_COUNT, F.CORE_CNT_SRAM_CE_COUNT, F.CORE_CNT_SRAM_UE_COUNT,
     F.CORE_CNT_VUSAT_COUNT, F.CORE_CNT_SPILLWAIT_COUNT]
  | 0x100840 =>
    [F.CORE_EPI_CNT_SAT_COUNT, F.CORE_EPI_CNT_NAN_COUNT, F.CORE_EPI_CNT_ACCSAT_COUNT,
     F.CORE_EPI_CNT_FALLBACK_COUNT, F.CORE_EPI_CNT_DRAINWAIT_COUNT, F.CORE_EPI_CNT_TWAIT_COUNT,
     F.CORE_EPI_CNT_PRESAT_COUNT]
  | 0x101060 =>
    [F.SEQ_CNT_VEC_COUNT, F.SEQ_CNT_ITEM_COUNT, F.SEQ_CNT_ITEMWAIT_COUNT, F.SEQ_CNT_VRANGE_COUNT,
     F.SEQ_CNT_PM_CE_COUNT, F.SEQ_CNT_PM_UE_COUNT]
  | 0x102070 =>
    [F.RST_CNT_SWEEP_COUNT, F.RST_CNT_STANDIN_COUNT, F.RST_CNT_CALPASS_COUNT, F.RST_CNT_LAGSWEEP_COUNT,
     F.RST_LAG_MAX_LAG_US]
  | 0x104040 =>
    [F.ENG_CNT_VEC_COUNT, F.ENG_CNT_PLANE_COUNT, F.ENG_CNT_PSKIP_COUNT, F.ENG_CNT_SEGSKIP_COUNT,
     F.ENG_CNT_SPLIT_COUNT, F.ENG_CNT_SAT_COUNT, F.ENG_CNT_CLIP_COUNT, F.ENG_CNT_SLIPCLIP_COUNT,
     F.ENG_SLIP_MAX_CYC]
  | 0x300060 =>
    [F.FAB_CNT_HDRPAR_COUNT, F.FAB_CNT_PAYPAR_COUNT, F.FAB_CNT_RETX_COUNT, F.FAB_CNT_TIMEOUT_COUNT,
     F.FAB_CNT_EPOCHDISC_COUNT, F.FAB_CNT_REPLAY_COUNT]
  | 0x400060 =>
    [F.MEM_CNT_CE_COUNT, F.MEM_CNT_UE_COUNT, F.MEM_CNT_WPAR_COUNT, F.MEM_CNT_SCRUB_COUNT]
  | 0x500040 =>
    [F.HIF_CNT_DB_BAD_COUNT, F.HIF_CNT_DESC_BAD_COUNT, F.HIF_CNT_RDERR_COUNT, F.HIF_CNT_SLOWREAD_COUNT,
     F.HIF_CNT_ATSINV_COUNT, F.HIF_CNT_REFETCH_COUNT, F.HIF_LAT_MAX_NS]
  | 0x600050 =>
    [F.ADM_CNT_ADMIT_COUNT, F.ADM_CNT_REFUSE_COUNT, F.ADM_CNT_BROKEN_COUNT]
  | 0x601030 =>
    [F.CTX_CNT_NOCTX_COUNT, F.CTX_CNT_UNJOINED_COUNT, F.CTX_CNT_DUP_COUNT, F.CTX_CNT_NOINPUT_COUNT,
     F.CTX_CNT_NOLANE_COUNT, F.CTX_CNT_UE_COUNT]
  | 0x7000B0 =>
    [F.CNP_CNT_CRC_COUNT, F.CNP_CNT_AUTH_COUNT, F.CNP_CNT_RETX_COUNT, F.CNP_CNT_NAK_COUNT,
     F.CNP_CNT_NOROUTE_COUNT, F.CNP_CNT_UNBOUND_COUNT, F.CNP_CNT_DIGESTERR_COUNT, F.CNP_CNT_DIGESTSKIP_COUNT,
     F.CNP_CNT_TTL_COUNT]
  | 0x900040 =>
    [F.SYNC_CNT_STRAY_COUNT, F.SYNC_CNT_OVERFLOW_COUNT, F.SYNC_CNT_WAITFULL_COUNT, F.SYNC_CNT_DUP_COUNT,
     F.SYNC_WAITTAB_PEAK]
  | 0xA00070 =>
    [F.REL_CNT_SAMPLE_COUNT, F.REL_CNT_SKIP_COUNT, F.REL_CNT_NOCOMP_COUNT, F.REL_CNT_MISMATCH_COUNT,
     F.REL_CNT_CONFIRM_COUNT, F.REL_CNT_KAT_COUNT, F.REL_CNT_KATFAIL_COUNT, F.REL_CNT_RANGE_COUNT,
     F.REL_CNT_RETRACT_COUNT, F.REL_CNT_FAILOVER_COUNT, F.REL_CNT_RETIRE_COUNT, F.REL_CNT_FRLOST_COUNT]
  | 0xB00080 =>
    [F.KEEP_CNT_ATTEST_COUNT, F.KEEP_CNT_QUEUED_COUNT, F.KEEP_CNT_MBREFUSE_COUNT, F.KEEP_CNT_RELFAIL_COUNT,
     F.KEEP_CNT_DECAYFAIL_COUNT]
  | 0xC00068 =>
    [F.HK_CNT_ROUND_COUNT, F.HK_CNT_WIN_COUNT]
  | 0xD00020 =>
    [F.FLD_GW_CNT_RXDISC_COUNT, F.FLD_GW_CNT_RETX_COUNT, F.FLD_GW_CNT_LINKDOWN_COUNT, F.FLD_GW_CNT_WLOST_COUNT]
  | 0xD100B0 =>
    [F.FLD_CNT_ITEM_COUNT, F.FLD_CNT_LATE_COUNT, F.FLD_CNT_UNKNOWN_COUNT, F.FLD_CNT_WITHHELD_COUNT,
     F.FLD_CNT_QFULL_COUNT, F.FLD_CNT_NOREC_COUNT, F.FLD_CNT_ENCERR_COUNT, F.FLD_CNT_VTOVR_COUNT,
     F.FLD_CNT_ACKBAD_COUNT, F.FLD_CNT_RXDISC_COUNT, F.FLD_CNT_RETX_COUNT]
  | 0xD11040 =>
    [F.FADC_CNT_SAT_COUNT, F.FADC_CNT_WIN_COUNT, F.FADC_CNT_RPTSKIP_COUNT]
  | 0xD12030 =>
    [F.FDAC_CNT_COALESCE_COUNT, F.FDAC_CNT_OPENLOOP_COUNT]
  | _ => []

/-- What CLEAR clears in every instance. -/
def cntAll (off : Nat) : List Fld :=
  match off with
  | 0x600050 => [F.ADM_LANE_CNT_ITEM_COUNT, F.ADM_LANE_CNT_LATE_COUNT]
  | 0xD100B0 => [F.FLD_REJ_STATUS_PEAK]
  | _ => []

/-- CLEAR of a counter control register. -/
def State.clearCounters (s : State) (off i : Nat) : State :=
  let one := (cntFields off).map (fun f => f.key i)
  let every := (cntAll off).map Fld.code
  -- every PEAK_Q starts again from what is under way (R203)
  let s : State := if off != 0x300060 then s else
    { s with fab := { s.fab with vc0 := s.fab.net.foldl (fun n p => n + p.vc0) 0 } }
  { s with fields := Tab.keep s.fields (fun k _ => !one.contains k && !every.contains (Nat.unpair k).1) }

/-- A write to a counter control register: CLEAR, then FREEZE. -/
def State.writeCntCtrl (s : State) (r : Reg) (i v : Nat) : State :=
  let s := if bit v 0 then s.clearCounters r.off i else s
  s.writeReg r i v

/-- Whether a register is a counter control register. -/
def Reg.cntCtrl (r : Reg) : Bool := !(cntFields r.off).isEmpty

end Sys2Proof.Machine
end

