-- ==== Sys2Proof/Machine/Link.lean ====
section
/-! DEFINITION. The barrier link (R258 to R263): frames and their checks, acknowledgement and
retransmission, training and loss, heartbeats, and the messages that each side has received and not
yet acted on. -/

namespace Sys2Proof.Machine

/-! ### Frames (Table 11.3) -/

/-- The 128 bytes of a frame. -/
def barBytes (seq ack flags : Nat) (msgs : List (List Nat)) : List Nat :=
  let slots := slice (msgs.flatMap (fun m => slice m 0 16)) 0 112
  let b := bytesOf 2 seq ++ bytesOf 2 ack ++ [flags, msgs.length, 0, 0] ++ slots ++ bytesOf 4 (parityWord slots)
  b ++ bytesOf 4 (crc32 b)

/-- Invert the bits of a byte string that a list names. -/
def flipBits (b flips : List Nat) : List Nat :=
  flips.foldl (fun b k => b.modify (k / 8) (fun x => x ^^^ 2 ^ (k % 8))) b

/-- Whether a message type may go to the field section, or to the host section (Table 1.2). -/
def msgAllowed (toField : Bool) (typ : Nat) : Bool :=
  if toField then [2, 3, 4, 6, 7, 8].contains typ else [1, 5, 6, 7, 9].contains typ

/-- The messages in a frame. -/
def frameMsgs (b : List Nat) : List (List Nat) := (List.range (b.getD 5 0)).map (fun i => slice b (8 + 16 * i) 16)

/-- The checks of R259 that do not look at SEQ: CRC, parity, count, types and directions. -/
def frameOk (toField : Bool) (b : List Nat) : Bool :=
  leAt b 124 4 == crc32 (slice b 0 124)
    && parityWord (slice b 8 112) == bits (leAt b 120 4) 0 28
    && decide (b.getD 5 0 ≤ 7) && (frameMsgs b).all (fun m => msgAllowed toField (m.headD 0))

/-! ### The sides -/

/-- One side of the link. -/
def Barrier.side (b : Barrier) (field : Bool) : BarSide := if field then b.field else b.host

/-- Replace one side. -/
def State.setSide (s : State) (field : Bool) (x : BarSide) : State :=
  if field then { s with bar := { s.bar with field := x } } else { s with bar := { s.bar with host := x } }

/-- Apply a received ACK and NAK to a side's own transmission (R259). -/
def BarSide.acknowledge (x : BarSide) (ack : Nat) (nak : Bool) (now : Nat) : BarSide :=
  let k := x.unacked.findIdx? (fun f => f.seq == ack)
  let x := match k with
    | none => x
    | some i =>
      let rest := x.unacked.drop (i + 1)
      { x with unacked := rest, resend := Nat.min x.resend rest.length, acked := now }
  if nak then { x with resend := x.unacked.length, acked := now } else x

/-- What a side transmits next: its bytes, and the side afterwards; whether the frame is sent again. -/
def BarSide.transmit (x : BarSide) (now : Nat) : List Nat × BarSide × Bool :=
  let ack := (x.expect + 65535) % 65536
  let fl := 2 * ofBool x.nak
  let y := { x with nak := false }
  if x.resend != 0 then
    let f := x.unacked.getD (x.unacked.length - x.resend) ⟨0, []⟩
    (barBytes f.seq ack fl f.msgs, { y with resend := x.resend - 1 }, true)
  else if x.queue.isEmpty || decide (64 ≤ x.unacked.length) then (barBytes 0 ack (fl + 1) [], y, false)
  else
    let f : BarFrame := ⟨x.next, x.queue.take 7⟩
    (barBytes f.seq ack fl f.msgs,
      { y with next := (x.next + 1) % 65536, queue := x.queue.drop 7, unacked := x.unacked ++ [f]
               acked := if x.unacked.isEmpty then now else x.acked }, false)

/-! ### Lost writes (R281) -/

/-- Configuration writes are lost: counted, flagged, logged. -/
def State.writesLost (s : State) (n : Nat) : State :=
  if n = 0 then s
  else
    let s := s.countN C.FLD_GW_CNT_WLOST 0 n
    let s := s.flag F.FLD_GW_STATUS_WRITE_LOST 0
    let s := { s with bar := { s.bar with lostWrite := true } }
    s.logRate 1000000 0 { code := 0x0E0E, count := n }

/-- Whether a message is a proxied write: a configuration write that is no read request. -/
def isWriteMsg (m : List Nat) : Bool := m.headD 0 == 8 && leAt m 2 2 != 8

/-! ### Training and loss (R258, R263) -/

/-- A side that starts again from 0, with what it has received and what it has yet to send. -/
def BarSide.restart (x : BarSide) (now : Nat) : BarSide :=
  { BarSide.empty with queue := x.queue, inbox := x.inbox, heard := now, beat := x.beat, acked := now, beats := x.beats }

/-- Whether both sides of the link have power, so that it trains (R258). -/
def State.linkPowered (s : State) : Bool := s.power.slotPower && s.field.supply && !s.field.frst

/-- A link that is not up trains while both sides have power, and is down otherwise. -/
def State.linkTrain (s : State) : State := if s.bar.up then s else s.fset F.FLD_GW_STATUS_LINK 0 (ofBool s.linkPowered)

/-- The link goes down: frames held for retransmission are discarded, the writes in them are lost, and the host section
knows of no reset of the field controller that still runs. -/
def State.linkDown (s : State) : State :=
  if !s.bar.up then s.linkTrain
  else
    let lost := (s.bar.host.unacked.flatMap (fun f => f.msgs)).countP isWriteMsg
    let s := { s with bar := { s.bar with
      up := false, downAt := s.ns, host := s.bar.host.restart s.ns, field := s.bar.field.restart s.ns } }
    let s := s.linkTrain
    let s := s.count C.FLD_GW_CNT_LINKDOWN 0
    ((s.log { code := 0x0E01 }).settleOff .field).writesLost lost

/-- BARRIER_LINK_DOWN (R263). -/
def execBarrierLinkDown (s : State) : Res := .next s.linkDown

/-- The host section's state message (Table 11.5). -/
def State.sendHostState (s : State) : State :=
  s.toField [6, 0, s.bar.hostState, s.bar.hostGen % 256]

/-- The field controller's state: 0 starting, 1 host absent, 2 normal. -/
def State.fieldMode (s : State) : Nat := if !s.field.ready then 0 else if s.field.hostHere then 2 else 1

/-- The field section's state message. -/
def State.sendFieldState (s : State) : State :=
  let g := s.fget F.FLD_STATUS_FIELD_GEN 0
  s.toHost ([6, 0, s.fieldMode, g] ++ bytesOf 6 (g * 2 ^ 40 + s.field.next))

/-- A field event message. -/
def fieldEventMsg (code lane out item occ : Nat) : List Nat :=
  [6, 2] ++ bytesOf 2 code ++ bytesOf 6 item ++ [lane, out] ++ bytesOf 4 (Nat.min occ 0xFFFFFFFF)

/-- Send a field event, or keep it for the link's return (R283). -/
def State.sendEvent (s : State) (m : List Nat) : State :=
  if s.bar.up then
    let m := slice m 0 12 ++ bytesOf 4 (Nat.min (leAt m 12 4 + s.field.dropped) 0xFFFFFFFF)
    ({ s with field := { s.field with dropped := 0 } } : State).toHost m
  else if s.field.events.length < 256 then { s with field := { s.field with events := s.field.events ++ [m] } }
  else { s with field := { s.field with dropped := s.field.dropped + 1 } }

/-- Log a field event. -/
def State.fieldEvent (s : State) (code lane out item : Nat) : State := s.sendEvent (fieldEventMsg code lane out item 1)

/-- Log a field event at most once per millisecond for each instance; the next one, or a later tick,
carries the occurrences in between. -/
def State.fieldEventRate (s : State) (code i lane out item : Nat) : State :=
  let k := Nat.pair code i
  let held := (Tab.find s.field.heldEv k).elim 0 Prod.snd
  let m := fieldEventMsg code lane out item (held + 1)
  match Tab.find s.field.lastEv k with
  | some t =>
    if s.ns < t + 1000000 then
      { s with field := { s.field with heldEv := Tab.set s.field.heldEv k (m, held + 1) } }
    else { s.sendEvent m with field := { (s.sendEvent m).field with
      lastEv := Tab.set s.field.lastEv k s.ns, heldEv := Tab.erase s.field.heldEv k } }
  | none => { s.sendEvent m with field := { (s.sendEvent m).field with lastEv := Tab.set s.field.lastEv k s.ns } }

/-- Send the summaries of held-back field events that have become due. -/
def State.fieldEventsDue (s : State) : State :=
  (s.field.heldEv.filter (fun (p : Nat × List Nat × Nat) =>
      decide (Tab.getD s.field.lastEv p.1 0 + 1000000 ≤ s.ns))).foldl (fun (s : State) (p : Nat × List Nat × Nat) =>
    let s := s.sendEvent p.2.1
    { s with field := { s.field with lastEv := Tab.set s.field.lastEv p.1 s.ns, heldEv := Tab.erase s.field.heldEv p.1 } }) s

/-- BARRIER_LINK_UP (R258): both sides must be powered; each then sends its state, and the field section
the events it kept. -/
def execBarrierLinkUp (s : State) : Res :=
  if s.bar.up || !s.linkPowered then .next s
  else
    let s := { s with bar := { s.bar with up := true, host := s.bar.host.restart s.ns, field := s.bar.field.restart s.ns } }
    let s := s.fset F.FLD_GW_STATUS_LINK 0 2
    let s := s.log { code := 0x0E02 }
    let s := s.sendHostState.sendFieldState
    let es := s.field.events
    let s := { s with field := { s.field with events := [] } }
    .next (es.foldl (fun s m => s.sendEvent m) s)

/-! ### Reception (R259) -/

/-- A frame is discarded: counted, and answered with NAK once for each gap. -/
def State.discardFrame (s : State) (field gap : Bool) : State :=
  let s := if field then s.count C.FLD_CNT_RXDISC 0 else s.count C.FLD_GW_CNT_RXDISC 0
  let x := s.bar.side field
  if gap then s.setSide field { x with nak := x.nak || !x.gap, gap := true } else s

/-- The messages of a side's frames that an ACK covers. -/
def BarSide.ackedMsgs (x : BarSide) (ack : Nat) : List (List Nat) :=
  match x.unacked.findIdx? (fun f => f.seq == ack) with
  | none => []
  | some i => (x.unacked.take (i + 1)).flatMap BarFrame.msgs

/-- The host section learns from an ACK that the field controller has received verdict messages: their items are
delivered (R19, R33). -/
def State.verdictsAcked (s : State) (ms : List (List Nat)) : State :=
  (ms.filter (fun m => m.headD 0 == 2)).foldl (fun s m =>
    match s.ctxOn (leAt m 4 6) (m.getD 1 0) with
    | some (n, x) => if x.state == .sent || x.state == .withheld || x.state == .retracted then s.deliver n else s
    | none => s) s

/-- A side takes what a frame that it accepts, or an IDLE frame, acknowledges. -/
def State.takeAck (s : State) (field : Bool) (b : List Nat) : State :=
  let x := s.bar.side field
  let s := s.setSide field (({ x with heard := s.ns, bad := 0 } : BarSide).acknowledge (leAt b 2 2) (bit (b.getD 4 0) 1) s.ns)
  if field then s else s.verdictsAcked (x.ackedMsgs (leAt b 2 2))

/-- BARRIER_FRAME_RX (R259).  A frame that is discarded has no effect but its counter and NAK (R20). -/
def execBarrierFrameRx (toField : Bool) (flips : List Nat) (s : State) : Res :=
  if !s.bar.up then .next s
  else
    let (b, tx, again) := (s.bar.side (!toField)).transmit s.ns
    let s := s.setSide (!toField) tx
    let s := if again then s.count (if toField then C.FLD_GW_CNT_RETX else C.FLD_CNT_RETX) 0 else s
    let b := flipBits b flips
    let x := s.bar.side toField
    if !frameOk toField b then
      let s := (s.setSide toField { x with bad := x.bad + 1 }).discardFrame toField true
      .next (if 32 ≤ x.bad + 1 then s.linkDown else s)
    else
      let seq := leAt b 0 2
      if bit (b.getD 4 0) 0 then .next (s.takeAck toField b)
      else if seq = x.expect then
        let s := s.takeAck toField b
        let y := s.bar.side toField
        .next (s.setSide toField { y with expect := (y.expect + 1) % 65536, gap := false, inbox := y.inbox ++ frameMsgs b })
      else
        -- a frame that was accepted before leaves no gap
        let old := decide ((x.expect + 65536 - seq) % 65536 ≤ 64)
        .next (s.discardFrame toField (!old))

/-- BARRIER_RETX_TIMEOUT (R259). -/
def execBarrierRetxTimeout (field : Bool) (s : State) : Res :=
  let x := s.bar.side field
  if !s.bar.up || x.unacked.isEmpty || s.ns < x.acked + 2000 then .next s
  else .next (s.setSide field { x with resend := x.unacked.length, acked := s.ns })

/-! ### Messages received -/

/-- Whether a message must wait while the field firmware restarts (R406): verdicts, retractions and
setpoints do. -/
def fwWaits (m : List Nat) : Bool := [2, 3, 4].contains (m.headD 0)

/-- The position in a side's inbox of the message it acts on next: the oldest one; the field section acts once
READY, and passes over the messages that wait for its firmware. -/
def State.msgAt (s : State) (field : Bool) : Option Nat :=
  let q := (s.bar.side field).inbox
  if !field then (if q.isEmpty then none else some 0)
  else if !s.field.ready then none
  else match s.field.fw with
    | .running => if q.isEmpty then none else some 0
    | _ => q.findIdx? (fun m => !fwWaits m)

/-- The message that a side acts on next. -/
def State.front (s : State) (field : Bool) : Option (List Nat) :=
  (s.msgAt field).bind (fun i => (s.bar.side field).inbox[i]?)

/-- Take that message away. -/
def State.pop (s : State) (field : Bool) : State :=
  match s.msgAt field with
  | none => s
  | some i => s.setSide field { s.bar.side field with inbox := (s.bar.side field).inbox.eraseIdx i }

/-- Act on the oldest message of a side when it satisfies a condition. -/
def State.onMsg (s : State) (field : Bool) (p : List Nat → Bool) (f : State → List Nat → State) : Res :=
  match s.front field with
  | none => .next s
  | some m => if p m then .next (f (s.pop field) m) else .next s

/-- Whether a message has a type. -/
def isType (t : Nat) (m : List Nat) : Bool := m.headD 0 == t

/-- Whether a message is a status of a kind. -/
def isStatus (k : Nat) (m : List Nat) : Bool := m.headD 0 == 6 && m.getD 1 0 == k

/-- HEARTBEAT (R262): the receiver's record that the other section is present. -/
def execHeartbeat (field : Bool) (s : State) : Res :=
  s.onMsg field (isType 7) (fun s _ => s.setSide field { s.bar.side field with beat := s.ns })

end Sys2Proof.Machine
end

