-- ==== Sys2Proof/Machine/FieldOps.lean ====
section
/-! DEFINITION. The field controller's shared operations (R255, R264 to R282): lane field records,
the verdict table, the reject queues and output levels, the withheld action, and triggers. -/

namespace Sys2Proof.Machine

/-! ### Lane field records (Table 11.6) -/

/-- A byte of a lane's field record. -/
def State.lrByte (s : State) (l off : Nat) : Nat := bits (s.fget F.FLD_LANE_DATA_DATA (l * 24 + off / 4)) (8 * (off % 4)) 8

/-- A little-endian number of a lane's field record. -/
def State.lrNum (s : State) (l off n : Nat) : Nat := ofBytes ((List.range n).map (fun i => s.lrByte l (off + i)))

/-- The encoder of a lane. -/
def State.lrEnc (s : State) (l : Nat) : Nat := s.lrByte l 1 % 4
/-- The outputs a lane uses. -/
def State.lrOuts (s : State) (l : Nat) : List Nat := (List.range 8).filter (fun k => (s.lrByte l 8).testBit k)
/-- Actuation width. -/
def State.lrPulse (s : State) (l : Nat) : Nat := s.lrNum l 10 2
/-- Shortest spacing of triggers. -/
def State.lrPitch (s : State) (l : Nat) : Nat := s.lrNum l 12 4
/-- Due position `k` of an item triggered at a position. -/
def State.lrDue (s : State) (l k pos : Nat) : Nat := (pos + s.lrNum l (20 + 4 * k) 4) % 2 ^ 32
/-- The outputs fired for a verdict code, within those the lane uses. -/
def State.lrFire (s : State) (l c : Nat) : List Nat := (List.range 8).filter (fun k => (s.lrByte l (52 + c % 16)).testBit k)
/-- The withheld code. -/
def State.lrWithheld (s : State) (l : Nat) : Nat := s.lrByte l 2 % 16

/-- A lane's state: 0 off, 1 on, 2 draining. -/
def State.fLane (s : State) (l : Nat) : Nat := s.fget F.FLD_LANE_STATUS_STATE l

/-- The lanes that are not off. -/
def State.fLanes (s : State) : List Nat := (List.range 64).filter (fun l => s.fLane l != 0)

/-- An item's cutoff: its earliest due position among VT_OFFSET and the offsets of its outputs (R266). -/
def State.cutoff (s : State) (l pos : Nat) : Nat :=
  let os := s.lrNum l 16 4 :: (s.lrOuts l).map (fun k => s.lrNum l (20 + 4 * k) 4)
  (pos + os.foldl Nat.min (s.lrNum l 16 4)) % 2 ^ 32

/-- The position after which an item's record is freed (R268). -/
def State.freeAt (s : State) (l pos : Nat) : Nat :=
  let os := (s.lrOuts l).map (fun k => s.lrNum l (20 + 4 * k) 4)
  let m := match os with
    | [] => s.lrNum l 16 4
    | o :: r => r.foldl Nat.max o
  (pos + m + s.lrPulse l) % 2 ^ 32

/-! ### Encoders -/

/-- An encoder's position. -/
def State.encPos (s : State) (e : Nat) : Nat := s.fget F.FLD_ENC_POS_POS e

/-- Whether an encoder has a fault. -/
def State.encBad (s : State) (e : Nat) : Bool := s.fon F.FLD_ENC_STATUS_FAULT e

/-- LEAD of an output. -/
def State.lead (s : State) (k : Nat) : Nat := s.fget F.FLD_REJ_CFG_LEAD_COUNTS k

/-- Position `q` less LEAD, in counts modulo 2^32. -/
def lessLead (q lead : Nat) : Nat := (q + 2 ^ 32 - lead) % 2 ^ 32

/-- An encoder stands at a position: each live item's due positions that it has reached, less LEAD, count as
commanded. -/
def State.encMove (s : State) (e pos : Nat) : State :=
  let s := s.fset F.FLD_ENC_POS_POS e pos
  let f : FieldRec → FieldRec := fun r =>
    if s.lrEnc r.lane != e || s.encBad e then r
    else { r with reached := (s.lrOuts r.lane).foldl (fun m k =>
      if serialGe (pos % 2 ^ 32) (lessLead (s.lrDue r.lane k r.pos) (s.lead k)) then setBit m k else m) r.reached }
  { s with field := { s.field with recs := s.field.recs.map f } }

/-- Take four encoder positions. -/
def State.encAll (s : State) (ps : List Nat) : State :=
  ps.zipIdx.foldl (fun s (p : Nat × Nat) => if p.2 < 4 then s.encMove p.2 p.1 else s) s

/-! ### The verdict table (R274, R275) -/

/-- A verdict table word. -/
def vtWord (code : Nat) (withheld valid retracted : Bool) (tag : Nat) : Nat :=
  code % 16 + 16 * ofBool withheld + 32 * ofBool valid + 64 * ofBool retracted + 128 * (tag % 512)

/-- The slot of a lane's trigger number `n`. -/
def State.vtSlot (s : State) (l n : Nat) : Nat := (s.lrNum l 4 2 + n % s.lrNum l 6 2) % 4096

/-- A word of the table. -/
def State.vtGet (s : State) (slot : Nat) : Nat := Tab.getD s.field.vt slot 0

/-- Write a word of the table whole. -/
def State.vtSet (s : State) (slot w : Nat) : State :=
  { s with field := { s.field with vt := Tab.put 0 s.field.vt slot (w % 65536) } }

/-- Write the slot of a lane's trigger. -/
def State.vtPut (s : State) (l n code : Nat) (withheld valid retracted : Bool) : State :=
  s.vtSet (s.vtSlot l n) (vtWord code withheld valid retracted n)

/-! ### Reject queues (R270, R271) -/

/-- A reject output. -/
def State.rej (s : State) (k : Nat) : RejOut := Tab.getD s.field.outs k {}

/-- Replace a reject output. -/
def State.setRej (s : State) (k : Nat) (x : RejOut) : State :=
  { s with field := { s.field with outs := Tab.set s.field.outs k x } }

/-- The earlier of two positions in serial order. -/
def serialMin (a b : Nat) : Nat := if serialGe a b then b else a

/-- Change the last entry of a list that satisfies a condition. -/
def modifyLast {α : Type} (p : α → Bool) (f : α → α) (l : List α) : List α :=
  match l.reverse.findIdx? p with
  | none => l
  | some i => l.modify (l.length - 1 - i) f

/-- The entry with the largest off position on an encoder. -/
def widest (e : Nat) (q : List RejEntry) : Option RejEntry :=
  (q.filter (fun x => x.enc == e)).foldl (fun a x => some (a.elim x (fun y => if serialGe y.off x.off then y else x))) none

/-- The widening of R271: the output's entry with the largest off position covers the new window. -/
def State.widen (s : State) (k l on off : Nat) : State :=
  let x := s.rej k
  let grow (y : RejEntry) : RejEntry := { y with on := serialMin y.on on, off := serialMax y.off off }
  let s := match widest (s.lrEnc l) x.queue with
    | none => s
    | some w => s.setRej k { x with queue := modifyLast (fun y => y == w) grow x.queue }
  let s := s.count C.FLD_CNT_QFULL 0
  let s := s.flag F.FLD_STATUS_QFULL_SEEN 0
  s.fieldEventRate 0x0E05 0 l k 0

/-- Enqueue the actuation of a lane for due position `d` on an output: merged into the lane's most recent
entry, in an entry of its own, or by widening.  A window that the encoder has passed is not enqueued. -/
def State.actuate (s : State) (k l d : Nat) : State :=
  let e := s.lrEnc l
  let off := (d + s.lrPulse l) % 2 ^ 32
  if serialGe (s.encPos e) (lessLead off (s.lead k)) then s
  else
    let x := s.rej k
    let near (y : RejEntry) : Bool := y.lane == l && serialGe d y.on && serialGe ((y.off + s.lrPitch l) % 2 ^ 32) d
    let join (y : RejEntry) : RejEntry := { y with off := serialMax y.off off }
    if (x.queue.reverse.find? (fun y => y.lane == l)).any near then
      s.setRej k { x with queue := modifyLast (fun y => y.lane == l) join x.queue }
    else if x.queue.length < 2048 then
      s.setRej k { x with queue := x.queue ++ [({ enc := e, on := d, off := off, lane := l } : RejEntry)] }
    else s.widen k l d off

/-! ### Output levels (R270, R273, R279, R280) -/

/-- The encoders with a fault among those of the lanes that use an output. -/
def State.badEncs (s : State) (k : Nat) : List Nat :=
  ((s.fLanes.filter (fun l => (s.lrByte l 8).testBit k)).map s.lrEnc).filter s.encBad

/-- The level that an output's queue or an encoder fault asks for. -/
def State.rejBase (s : State) (k : Nat) : Bool :=
  let es := s.badEncs k
  if es.isEmpty then (s.rej k).queue.any (fun y => y.started)
  else es.any (fun e => s.fon F.FLD_ENC_CFG_FAULT_HOLD e)

/-- An output's level. -/
def State.rejLevel (s : State) (k : Nat) : Bool :=
  let x := s.rej k
  let follow := s.rejBase k && !x.maxed
  if !s.field.ready then false
  else if !x.policy then follow
  else match s.fget F.FLD_POL_ACTION k with
    | 0 => false
    | 1 => x.held
    | 2 => s.fon F.FLD_POL_LEVEL k
    | _ => follow

/-- The level of a general output.  The level that the reserved source gives is free. -/
def State.gpoLevel (s : State) (g : Nat) : Bool :=
  if !s.field.ready then false
  else match bits (s.fget F.FLD_GPO_SRC_SRC 0) (2 * g) 2 with
    | 0 =>
      if !s.field.gpoPolicy then s.field.gpo.testBit g
      else match s.fget F.FLD_POL_ACTION (8 + g) with
        | 0 => false
        | 1 => s.field.gpoHeld.testBit g
        | _ => s.fon F.FLD_POL_LEVEL (8 + g)
    | 1 => s.field.hostHere
    | 2 => true
    | _ => Config.unstated (0x1000 + g) % 2 == 1

/-- A reject output that has drained after the loss of the host takes its policy (R279). -/
def State.drainOut (s : State) (k : Nat) : State :=
  let x := s.rej k
  if !s.field.ready || s.field.hostHere || x.policy || !x.queue.isEmpty
      || s.field.recs.any (fun r => (s.lrByte r.lane 8).testBit k) then s
  else s.setRej k { x with policy := true, held := s.rejLevel k }

/-- Bring a reject output's registers and on-time up to date. -/
def State.refreshOut (s : State) (k : Nat) : State :=
  let s := s.drainOut k
  let x := s.rej k
  let s := s.setRej k { x with maxed := x.maxed && s.rejBase k }
  let on := s.rejLevel k
  let x := s.rej k
  let s := s.setRej k { x with since := if on then some (x.since.getD s.ns) else none }
  let n := x.queue.length
  let s := s.fset F.FLD_REJ_STATUS_ON k (ofBool on)
  let s := s.fset F.FLD_REJ_STATUS_QUEUE k n
  s.fset F.FLD_REJ_STATUS_PEAK k (Nat.max n (s.fget F.FLD_REJ_STATUS_PEAK k))

/-- The live records of a lane. -/
def State.live (s : State) (l : Nat) : Nat := (s.field.recs.filter (fun r => r.lane == l && r.item.isSome)).length

/-- A draining lane without records becomes off (R267). -/
def State.refreshLane (s : State) (l : Nat) : State :=
  let s := s.fset F.FLD_LANE_STATUS_ITEMS l (Nat.min 65535 (s.live l))
  if s.fLane l == 2 && !s.field.recs.any (fun r => r.lane == l) then s.fset F.FLD_LANE_STATUS_STATE l 0 else s

/-- Bring the field controller's registers up to date with its records, queues and outputs. -/
def State.fieldRefresh (s : State) : State :=
  let s := s.fLanes.foldl (fun s l => s.refreshLane l) s
  let s := (List.range 8).foldl (fun s k => s.refreshOut k) s
  let s := s.fset F.FLD_STATUS_STATE 0 s.fieldMode
  s.fset F.FLD_GPO_LEVEL_LEVEL 0 ((List.range 16).foldl (fun n g => if s.gpoLevel g then setBit n g else n) 0)

/-! ### Verdicts, cutoffs and triggers (R268, R269, R275, R279) -/

/-- Change the record of a lane's trigger. -/
def State.setRec (s : State) (l n : Nat) (f : FieldRec → FieldRec) : State :=
  let g : FieldRec → FieldRec := fun r => if r.lane == l && r.n == n then f r else r
  { s with field := { s.field with recs := s.field.recs.map g } }

/-- Remove the record of a lane's trigger. -/
def State.dropRec (s : State) (l n : Nat) : State :=
  { s with field := { s.field with recs := s.field.recs.filter (fun r => !(r.lane == l && r.n == n)) } }

/-- Enqueue the actuations of a trigger on some outputs. -/
def State.actuateAll (s : State) (l pos : Nat) (ks : List Nat) : State :=
  ks.foldl (fun s k => s.actuate k l (s.lrDue l k pos)) s

/-- A verdict takes effect on a record (R269): slot and actuations. -/
def State.takeEffect (s : State) (r : FieldRec) (code : Nat) (withheld : Bool) : State :=
  let c := if withheld then s.lrWithheld r.lane else code % 16
  let ks := s.lrFire r.lane c
  let s := s.vtPut r.lane r.n c withheld true false
  let s := s.actuateAll r.lane r.pos ks
  s.setRec r.lane r.n (fun x => { x with code := some c, enq := ks.foldl setBit x.enq })

/-- A trigger without identifier takes the withheld action (R268, R406). -/
def State.withholdTrigger (s : State) (l n pos : Nat) : State :=
  let s := s.vtPut l n (s.lrWithheld l) true true false
  let s := s.actuateAll l pos (s.lrFire l (s.lrWithheld l))
  s.count C.FLD_CNT_NOREC 0

/-- A trigger while the host is present (R268): identifier, record and item-created, or the withheld
action where no record or no space in the transmit queue is free.  `pend` tells whether the slot is
still to be written. -/
def State.newItem (s : State) (l n trig pos : Nat) (pend : Bool) : State :=
  if 65536 ≤ (s.field.recs.filter (fun r => r.item.isSome)).length || 4096 ≤ s.bar.field.queue.length then
    (s.withholdTrigger l n pos).fieldEventRate 0x0E06 0 l 255 0
  else
    let id := s.fget F.FLD_STATUS_FIELD_GEN 0 * 2 ^ 40 + s.field.next
    let s := if pend then s.vtPut l n 0 false false false else s
    let s := { s with field := { s.field with
      next := (s.field.next + 1) % 2 ^ 40
      recs := s.field.recs ++ [({ lane := l, n := n, pos := pos, item := some id, hostGen := s.field.hostGen } : FieldRec)] } }
    let s := s.count C.FLD_CNT_ITEM 0
    s.toHost ([1, l, trig + 16 * s.lrEnc l, 0] ++ bytesOf 6 id ++ bytesOf 4 pos)

/-- A trigger while the host is absent (R279): outputs under ACTION 0b11 reject the item. -/
def State.absentTrigger (s : State) (l n pos : Nat) : State :=
  let us := (s.lrOuts l).filter (fun k => s.fget F.FLD_POL_ACTION k == 3)
  if us.isEmpty then s.vtPut l n 0 false false false
  else
    let s := s.vtPut l n (s.lrWithheld l) true true false
    s.actuateAll l pos ((s.lrFire l (s.lrWithheld l)).filter us.contains)

/-- A trigger edge on one enabled lane. -/
def State.laneTrigger (s : State) (l trig pos : Nat) : State :=
  let n := Tab.getD s.field.counts l 0
  let s := { s with field := { s.field with counts := Tab.set s.field.counts l (n + 1) } }
  let s :=
    if bit (s.lrByte l 0) 6 && bit (s.vtGet (s.vtSlot l n)) 5 then
      (s.count C.FLD_CNT_VTOVR 0).fieldEventRate 0x0E0B 0 l 255 0
    else s
  match s.field.fw with
  | .running => if s.field.hostHere then s.newItem l n trig pos true else s.absentTrigger l n pos
  | _ =>
    if (s.field.recs.filter (fun r => r.item.isNone)).length < 4096 then
      let s := s.vtPut l n 0 false false false
      { s with field := { s.field with recs := s.field.recs ++ [({ lane := l, n := n, pos := pos, item := none } : FieldRec)] } }
    else s.withholdTrigger l n pos

/-- The new firmware takes the trigger FIFO in order (R406). -/
def State.takeFifo (s : State) : State :=
  let q := s.field.recs.filter (fun r => r.item.isNone)
  let s := { s with field := { s.field with recs := s.field.recs.filter (fun r => r.item.isSome) } }
  q.foldl (fun s r =>
    if s.field.hostHere then s.newItem r.lane r.n (s.lrByte r.lane 0 % 16) r.pos false else s.absentTrigger r.lane r.n r.pos) s

/-- The cutoff of a record passes without a verdict (R269); an entry of the trigger FIFO leaves it
(R406). -/
def State.cutoffPass (s : State) (r : FieldRec) : State :=
  match r.item with
  | some _ => (s.takeEffect r 0 true).count C.FLD_CNT_WITHHELD 0
  | none => (s.dropRec r.lane r.n).withholdTrigger r.lane r.n r.pos

/-! ### Resets (R254 to R256, R265, R418) -/

/-- Load the values that the field section's non-volatile memory holds: those of its own registers. -/
def State.loadNv (s : State) : State :=
  { s with fields := (s.field.nv.filter (fun p => fieldSide (keyReg p.1))).foldl (fun t p => Tab.set t p.1 p.2) s.fields }

/-- The field controller is reset: every register, record and queue is lost, and the link goes down. -/
def State.fieldReset (s : State) : State :=
  let s := (s.clearRegs 0xD10000 0xD20000).linkDown
  let f := s.field
  let s := { s with field := { FieldSec.empty with
    supply := f.supply, frst := f.frst, brown := f.brown, nv := f.nv
    fwSlots := f.fwSlots, fwShipped := f.fwShipped, fwSlot := f.fwSlot, fwSvn := f.fwSvn } }
  let side : BarSide := { BarSide.empty with heard := s.ns }
  ({ s with bar := { s.bar with field := side } } : State).loadNv

end Sys2Proof.Machine
end

