-- ==== Sys2Proof/Machine/Rel.lean ====
section
/-! DEFINITION. The reliability controller (R334 to R361): the Lookout rotation, shadow samples,
known-answer kernels, range monitoring, failover, repair and verification. -/

namespace Sys2Proof.Machine

/-! ### The rotation (R336, R345, R347) -/

/-- The rotation list: every working core of every resident mapping, in ascending placement rank. -/
def State.rotation (s : State) : List Nat :=
  ((List.range 32).map rankCore).filter (fun c => s.fget F.CORE_ROLE_ROLE c == 1
    && (s.stageOf c).elim false (fun (x : Model × StageRec) => x.1.state == .loaded && s.ctxState x.1.context == 2))

/-- Whether the Lookout of a place steps through the list in ascending order. -/
def State.ascends (s : State) (k : Nat) : Bool :=
  s.fget (lookState (1 - k)) 0 == 0 || decide (s.fget (lookCore k) 0 < s.fget (lookCore (1 - k)) 0)

/-- The next ordinary subject: the rank that follows the last one, in the Lookout's direction. -/
def State.nextSubject (s : State) (k : Nat) (l : List Nat) : Option Nat :=
  let p := (s.lookout k).pos
  if s.ascends k then (l.find? (fun c => decide (p < rankCore c + 1))).or l.head?
  else (l.reverse.find? (fun c => decide (rankCore c + 1 < p))).or l.reverse.head?

/-- The placement epoch of a core's stage. -/
def State.epochAt (s : State) (c : Nat) : Nat :=
  match s.stageOf c with
  | none => 0
  | some (m, r) => (s.epoch (stageKey m.context m.id r.stage)).cur

/-- A Lookout begins to load a subject. -/
def State.takeSubject (s : State) (k c : Nat) (x : Lookout) : State :=
  let s := s.fset (lookSubject k) 0 c
  let s := s.fset (lookState k) 0 1
  s.setLookout k { x with comparable := 0, failed := false, epoch := s.epochAt c }

/-- A Lookout begins its next step: an inserted one for a suspect after every ⌈N ÷ 4⌉ ordinary steps,
else the next entry of the list; with an empty list it is idle. -/
def State.beginStep (s : State) (k : Nat) : State :=
  let l := s.rotation
  let x := s.lookout k
  let sus := s.rel.suspects.filter (fun c => l.contains c)
  if !sus.isEmpty && decide (ceilDiv l.length 4 ≤ x.steps) then
    s.takeSubject k (sus.getD (x.turn % sus.length) 0) { x with steps := 0, turn := x.turn + 1, inserted := true }
  else
    match s.nextSubject k l with
    | none => (s.fset (lookState k) 0 3).fset F.CORE_STATUS_STATE (s.fget (lookCore k) 0) 1
    | some c => s.takeSubject k c { x with steps := x.steps + 1, pos := rankCore c + 1, inserted := false }

/-- The length of a Lookout's dwell in ns. -/
def State.dwellNs (s : State) (k : Nat) : Nat :=
  let d := s.fget F.REL_SHADOW_CFG_DWELL_US 0 * 1000
  if (s.lookout k).inserted then d / 4 else d

/-- Whether a Lookout's step is over: its time has passed, its subject's epoch has advanced, or its
subject has left the list. -/
def State.stepOver (s : State) (k : Nat) : Bool :=
  let x := s.lookout k
  let c := s.fget (lookSubject k) 0
  let early := !s.rotation.contains c || s.epochAt c != x.epoch
  match s.fget (lookState k) 0 with
  | 1 => early
  | 2 => early || decide (x.dwellStart + s.dwellNs k ≤ s.ns)
  | 3 => !s.rotation.isEmpty
  | _ => false

/-- A clean window of a core and its engines (R347). -/
def State.coreClean (s : State) (c : Nat) : State :=
  (List.range 36).foldl (fun s e => s.cleanWindow (unitEngine c e)) (s.cleanWindow (unitCore c))

/-- Forget the samples that wait at a Lookout. -/
def State.dropSamples (s : State) (k : Nat) : State :=
  { s with rel := { s.rel with samples := s.rel.samples.filter (fun x => x.lookout != k) } }

/-- DWELL_END (R336); while the Keep restarts, the seed of the next dwell is still to come (R403). -/
def execDwellEnd (k : Nat) (s : State) : Res :=
  if 2 ≤ k || !s.stepOver k || s.fget F.KEEP_STATUS_STATE 0 == 0 || s.rel.failovers.any (fun f => f.lookout == s.fget (lookCore k) 0) then .next s
  else
    let x := s.lookout k
    let c := s.fget (lookSubject k) 0
    let s := if s.fget (lookState k) 0 = 2 && decide (64 ≤ x.comparable) && !x.failed
      then (s.setClean (c * 4)).coreClean c else s
    .next ((s.dropSamples k).beginStep k)

/-! ### The tolerance (R338) -/

/-- The systematic bound of one pass in hundredths of a product unit: Table 2.5 at 8 and 4 planes, and
the sum that the table evaluates for any other number (log entry 59). -/
def passBound (plan planes : Nat) : Nat :=
  if planes = 8 then [161609, 36761, 9017, 1387].getD plan 0 * 100
  else if planes = 4 then [9506, 2162, 530, 82].getD plan 0 * 100
  else 272 * (2 ^ planes - 1) * [233, 53, 13, 2].getD plan 0

/-- The square of the noise of one pass, in 10⁻⁴ product units squared. -/
def passNoise (plan planes : Nat) : Nat :=
  if planes = 8 then [1227900, 301100, 75200, 11800].getD plan 0 ^ 2
  else if planes = 4 then [76600, 18800, 4700, 740].getD plan 0 ^ 2
  else 3200 * ((4 ^ planes - 1) / 3) * [21569, 1297, 81, 2].getD plan 0

/-- The square root rounded up. -/
def sqrtUp (n : Nat) : Nat := if Nat.sqrt n ^ 2 = n then Nat.sqrt n else Nat.sqrt n + 1

/-- τ for a column that sums passes of given plans and planes at a shift. -/
def tolerance (scale shift : Nat) (ps : List (Nat × Nat)) : Nat :=
  let e := ps.foldl (fun t p => t + passBound p.1 p.2) 0
  let v := ps.foldl (fun t p => t + passNoise p.1 p.2) 0 + (if shift = 0 then 0 else 2500 * ps.length * 4 ^ shift)
  let k := scale + 1
  ceilDiv (2 * e * k + sqrtUp (k ^ 2 * 128 * v)) (1600 * 2 ^ shift) + 2 * ps.length

/-- τ for a column of a sample. -/
def State.tauOf (s : State) (m : Sample) (key : Nat) : Nat :=
  let ps := m.passes.filter (fun (p : Nat × EngVec) => s.headOf m.core p.1 == key / 1024)
  tolerance (s.fget F.REL_SHADOW_CFG_TOL_SCALE 0) m.shift (ps.map (fun (p : Nat × EngVec) => (s.plan m.core p.1, p.2.planes)))

/-- Whether two results of a sample agree: within τ in every column. -/
def State.agree (s : State) (m : Sample) (a b : Tab Int) : Bool :=
  m.drained.all (fun (p : Nat × Int) => decide ((Tab.getD a p.1 0 - Tab.getD b p.1 0).natAbs ≤ s.tauOf m p.1))

/-! ### Running a tile use again (R338, R339) -/

/-- Run the cycles of an engine's vector to their end. -/
def State.rerunCycles (s : State) (c e : Nat) : Nat → State
  | 0 => s
  | n + 1 =>
    match (s.engine c e).run with
    | none => s
    | some v =>
      match v.splits with
      | q :: rest => (s.runSplit c e v q rest true).rerunCycles c e n
      | [] =>
        let p := s.nextPlane c e v 9 v.plane 0
        if v.planes ≤ p.1 then s else (s.issuePlane c e v p.1 p.2 true).rerunCycles c e n

/-- Run one pass again and add it into the tile; a full group moves to the core's own second level, or
belongs to the chain's exit and leaves. -/
def State.rerunPass (s : State) (own : Bool) (c e : Nat) (v : EngVec) : State :=
  let v := { v with plane := 0, clock := 0, issued := 0, replays := 0, splits := [], sums := [], clips := [], writes := [], begun := true }
  let s := s.setEngine c e { s.engine c e with run := some v, tree := none, next := none, idle := 0 }
  let s := s.rerunCycles c e 40
  let s := match (s.engine c e).run with
    | none => s
    | some w => s.accumulate c e w
  let x := s.tile c v.tile
  if !x.groupPass.any (fun p => decide (32 ≤ p.2)) then s
  else
    let s := if own then (s.tileCols c).foldl (fun s k => s.l2Add c v.tile k (Tab.getD x.acc k 0)) s else s
    s.setTile c v.tile { s.tile c v.tile with acc := [], groupPass := [] }

/-- Execute a sample's tile use on core `c`, from the same begin value and seed and with the same groups:
the values by column, whether a side clipped, saturated or ran uncalibrated, and the state, in which only
counts, flags and free values have moved. -/
def State.rerunUse (s : State) (m : Sample) (c : Nat) : Tab Int × Bool × State :=
  let own := s.l2Core m.core == m.core
  let t := s.setTile c m.tile { Tile.empty with seed := m.seed, shift := m.shift, acc := m.start }
  let t := m.passes.foldl (fun t (p : Nat × EngVec) => t.rerunPass own c p.1 { p.2 with tile := m.tile }) t
  let vals := m.drained.map (fun (p : Nat × Int) =>
    (p.1, (hold40 ((t.colValue c m.tile p.1).1 + Tab.getD m.groups p.1 0)).1))
  let odd := !(t.tile c m.tile).clips.isEmpty || m.drained.any (fun (p : Nat × Int) => (t.colValue c m.tile p.1).2)
    || m.passes.any (fun (p : Nat × EngVec) => !s.fon F.ENG_STATUS_CAL_VALID (eng c p.1))
  (vals, odd, { t with engines := s.engines, tiles := s.tiles })

/-- SAMPLE_COMPARE (R338). -/
def execSampleCompare (k : Nat) (s : State) : Res :=
  match s.mirroring k, s.rel.samples.find? (fun x => x.lookout == k) with
  | some (c, subj), some m =>
    if m.core != subj then .next s
    else
      let s := { s with rel := { s.rel with samples := s.rel.samples.erase m } }
      let (l, odd, s) := s.rerunUse m c
      if m.spoiled || odd then .next (s.count C.REL_CNT_NOCOMP 0)
      else
        let x := s.lookout k
        let s := s.setLookout k { x with comparable := x.comparable + 1 }
        if s.agree m m.drained l then .next s
        else
          let s := s.count C.REL_CNT_MISMATCH 0
          let s := s.logRate 1000000 subj { code := 0x1401, context := s.ctxOf subj, core := subj, lane := m.lane, item := m.item }
          .next { s with rel := { s.rel with returned := s.rel.returned ++ [{ m with mirror := l }] } }
  | _, _ => .next s

/-- The dwells in progress on a core, or of it as a Lookout, are not clean. -/
def State.dwellFailed (s : State) (c : Nat) : State :=
  (List.range 2).foldl (fun s k =>
    if s.fget (lookState k) 0 != 0 && s.fget (lookSubject k) 0 == c then s.setLookout k { s.lookout k with failed := true } else s) s

/-- The conviction of a core by a sample (R353): the items since its last clean dwell, or the sampled use's
alone. -/
def State.convictSample (s : State) (m : Sample) : State :=
  if !s.fon F.REL_CFG_RETRACT_SCOPE 0 then s.convict m.core 255 1 0x01 0xFFFF (s.cleanAt m.core 0)
  else
    match s.stageOf m.core with
    | none => s
    | some (d, r) =>
      let e := s.epochAt m.core
      s.convictRanges { kind := 1, reason := 0x01, action := 2, core := m.core, context := d.context, stage := r.stage
                        generation := d.gen, epochFirst := e, epochLast := e, model := d.id } [(m.lane, m.item, m.item)]

/-- CHECK_RERUN (R339, Table 14.2): in an odd glade window the subject runs the tile use again.  Table 14.6
counts the third row as a confirmed failure of both (log entry 60). -/
def execCheckRerun (c : Nat) (s : State) : Res :=
  match s.rel.returned.find? (fun x => x.core == c) with
  | none => .next s
  | some m =>
    if !(s.core c).check then .next s
    else
      let s := s.setCore c { s.core c with check := false }
      let s := { s with rel := { s.rel with returned := s.rel.returned.erase m } }
      let look := s.fget (lookCore m.lookout) 0
      let (r, _, s) := s.rerunUse m c
      let withO := s.agree m r m.drained
      let withL := s.agree m r m.mirror
      if withO && withL then .next (s.suspect (unitCore c) 0x01)
      else if withO then .next (s.confirm (unitCore look) 0x01)
      else
        let s := ((s.dwellFailed c).confirm (unitCore c) 0x01)
        if withL then .next (s.convictSample m) else .next (s.confirm (unitCore look) 0x01)

/-! ### Known-answer kernels (R341, R342) -/

/-- The cores that known-answer runs visit: working cores and Lookouts, in ascending number. -/
def State.katCores (s : State) : List Nat :=
  (List.range 32).filter (fun c => (s.fget F.CORE_ROLE_ROLE c == 1 && s.slotsRun c) || (s.lookoutOf c).isSome)

/-- The core whose run it is. -/
def State.katTurn (s : State) : Option Nat :=
  match s.rel.katAsked with
  | some c => some c
  | none => (s.katCores.find? (fun c => decide (s.rel.katCore ≤ c))).or s.katCores.head?

/-- A run on a core ends: a passed one is a clean window. -/
def State.katEnd (s : State) (c : Nat) : State :=
  let s := if s.rel.katFail then s else (s.setClean (c * 4 + 1)).coreClean c
  { s with rel := { s.rel with
      katCore := if s.rel.katAsked.isSome then s.rel.katCore else c + 1
      katAsked := none, katFail := false, katWindows := Tab.erase s.rel.katWindows c, katAgain := Tab.erase s.rel.katAgain c } }

/-- KAT_RUN (R342): one kernel in an odd glade window of the core, or in any slot of a Lookout. -/
def execKatRun (c : Nat) (ok : Bool) (s : State) : Res :=
  if s.katTurn != some c || !((s.core c).check || (s.lookoutOf c).isSome) then .next s
  else
    let s := s.setCore c { s.core c with check := false }
    let n := Tab.getD s.rel.katWindows c 0
    let again := (Tab.find s.rel.katAgain c).isSome
    let s := s.count C.REL_CNT_KAT 0
    let s := { s with rel := { s.rel with
      katWindows := Tab.set s.rel.katWindows c (n + 1)
      katFail := s.rel.katFail || !ok
      katAgain := if !ok && !again then Tab.set s.rel.katAgain c (n % 6) else Tab.erase s.rel.katAgain c } }
    let s : State :=
      if ok then (if again then s.suspect (unitCore c) 0x02 else s)
      else
        let s := s.count C.REL_CNT_KATFAIL 0
        let s := s.flag F.REL_STATUS_KAT_FAIL_SEEN 0
        let s := s.log { code := 0x1403, context := s.ctxOf c, core := c }
        if again then ((s.dwellFailed c).confirm (unitCore c) 0x02).convict c 255 1 0x02 0xFFFF (s.cleanAt c 1) else s
    let limit := if s.unit (unitCore c) = 1 then 256 else 64
    .next (if limit ≤ n + 1 && (Tab.find s.rel.katAgain c).isNone then s.katEnd c else s)

/-- KAT_NOW (R342): the suite runs at once on the named core. -/
def execKatNow (c : Nat) (s : State) : Res :=
  if !s.katCores.contains c then .next s
  else .next { s with rel := { s.rel with
    katAsked := some c, katFail := false, katWindows := Tab.erase s.rel.katWindows c, katAgain := Tab.erase s.rel.katAgain c } }

/-! ### Range monitoring (R343, R344) -/

/-- An FP32 pattern's value. -/
def f32 (p : Nat) : FV := fp32.decode p

/-- Whether a window's statistics violate an envelope; mean and variance are compared without rounding. -/
def envViolated (e : EnvCol) (r : ColStat) : Bool :=
  let n := FV.ofInt r.count
  let sum := fp64.decode r.sum
  let v := (n.mul (fp64.decode r.sumsq)).add (sum.mul sum).neg
  let nn := n.mul n
  sum.lt ((f32 e.meanLo).mul n) || ((f32 e.meanHi).mul n).lt sum
    || v.lt ((f32 e.varLo).mul nn) || ((f32 e.varHi).mul nn).lt v
    || (f32 r.min).lt (f32 e.minLo) || (f32 e.maxHi).lt (f32 r.max)
    || decide (e.clipPpm * r.count < r.clips * 1000000)

/-- The envelope of a column of a core's tile: the record of the output column that its mapping entry
gives (log entry 61). -/
def State.envFor (s : State) (c key : Nat) : Option EnvCol :=
  match s.stageOf c, (s.engine c (key / 1024)).map with
  | some (_, r), some m => if key % 1024 < m.cols then r.envelope[m.nOff + key % 1024]? else none
  | _, _ => none

/-- The cores that feed a column of a core's tile: those of its N part. -/
def State.feeders (s : State) (c : Nat) : List Nat :=
  match s.stageOf c with
  | none => [c]
  | some (_, r) => (r.placed.zipIdx.filter (fun (x : Nat × Nat) => r.nPart x.2 == r.nPart (s.posOf c))).map (fun (x : Nat × Nat) => x.1)

/-- RANGE_WINDOW (R343, R344) of column `j` of a core's tile. -/
def execRangeWindow (c j : Nat) (s : State) : Res :=
  match (s.tileCols c)[j]? with
  | none => .next s
  | some key =>
    match s.envFor c key, s.stageOf c with
    | some e, some (_, r) =>
      let k := c * 65536 + j
      let st := Tab.getD (s.core c).stats key .empty
      let w := Tab.getD s.rel.ranges k ⟨s.ns, 0, 0, false⟩
      if st.count < s.fget F.REL_RANGE_CFG_WINDOW 0 && decide (s.ns < w.since + 100000000) then
        .next { s with rel := { s.rel with ranges := Tab.set s.rel.ranges k w } }
      else
        let s := s.setCore c { s.core c with stats := Tab.erase (s.core c).stats key }
        let bad := !w.skip && decide (256 ≤ st.count) && envViolated e st
        let n := if bad then w.viol + 1 else 0
        let from' := if n = 1 then w.since else w.first
        let hit := n == 3 && s.fon F.REL_RANGE_CFG_CONVICT 0
        let s := { s with rel := { s.rel with
          ranges := Tab.set s.rel.ranges k ⟨s.ns, from', if hit then 0 else n, false⟩ } }
        if !bad then .next s
        else
          let s := s.count C.REL_CNT_RANGE 0
          let s := s.flag F.REL_STATUS_RANGE_SEEN 0
          let s := s.logRate 1000000 (s.ctxOf c * 65536 + r.stage) { code := 0x1404, context := s.ctxOf c, core := c, argA := j }
          let s := (s.feeders c).foldl (fun s d => s.suspect (unitCore d) 0x03) s
          .next (if hit then s.convict c 255 1 0x03 0xFFFF from' else s)
    | _, _ => .next s

/-! ### Failover (R350 to R352) -/

/-- Whether R350 declares a core failed: it is retired, it reports a fatal error, or a transfer addressed to
it has met a second receipt timeout. -/
def State.failing (s : State) (c : Nat) (fatal : Bool) : Bool :=
  fatal || s.unit (unitCore c) == 2 || s.rel.routes.any (fun (p : Nat × Nat) => p.1 % 2 == 1 && p.1 / 2 % 64 == c)

/-- The Lookout place that replaces a core: the one mirroring it, else the lower core number. -/
def State.pickLookout (s : State) (c : Nat) : Option Nat :=
  let ks := s.lookouts.filter (fun k => !s.rel.failovers.any (fun f => f.lookout == s.fget (lookCore k) 0))
  (ks.find? (fun k => s.fget (lookState k) 0 == 2 && s.fget (lookSubject k) 0 == c)).or
    (match ks with
      | [0, 1] => some (if s.fget (lookCore 0) 0 ≤ s.fget (lookCore 1) 0 then 0 else 1)
      | k :: _ => some k
      | [] => none)

/-- The Lookout of a place is taken for a failed core: its dwell ends, and it loads unless it mirrors the core
already. -/
def State.takeLookout (s : State) (k c : Nat) (m : Model) (r : StageRec) : State :=
  let d := s.fget (lookCore k) 0
  let ready := s.fget (lookState k) 0 == 2 && s.fget (lookSubject k) 0 == c
  let s := s.dropSamples k
  let s := if ready then s else
    let s := s.fset (lookSubject k) 0 c
    let s := s.fset (lookState k) 0 1
    s.setRst d { s.restorer d with bulk := none }
  { s with rel := { s.rel with
      failovers := s.rel.failovers.filter (fun f => f.core != c) ++ [(⟨c, d, m.context, m.id, r.stage, s.posOf c, ready⟩ : Failover)] } }

/-- A failover that finds no Lookout takes one back that a switch still loads as its target (R127): the core stands in an
empty place again. -/
def State.takeBack (s : State) : State :=
  let found := s.models.findSome? (fun (m : Model) => m.switching.bind (fun w =>
    if w.advanced then none else w.looks.head?.map (fun d => (m, w, d))))
  match (List.range 2).find? (fun k => s.fget (lookState k) 0 == 0), found with
  | some k, some (m, w, d) => (((s.setCore d .empty).setSeq d .empty).dropTarget m w d).makeLookout k d
  | _, _ => s

/-- A Lookout is found for a failed core, one that a switch has taken as its target where no other stands. -/
def State.seekLookout (s : State) (c : Nat) : State := if (s.pickLookout c).isNone then s.takeBack else s

/-- A target of a switch fails before the epoch advances: the switch gives it up, and the core retires. -/
def State.targetFailed (s : State) (c : Nat) (m : Model) : State :=
  match m.switching with
  | none => s
  | some w =>
    if w.advanced || w.old.contains c || !w.targets.contains c then s
    else (((s.dropTarget m w c).retireUnit (unitCore c) 0x07).removeCore c).retarget

/-- No Lookout is available (R352): the stage stops, and every lane through it is suspended. -/
def State.stopStage (s : State) (c : Nat) (m : Model) (r : StageRec) : State :=
  let ls := s.lanesOf m.context m.id r.stage
  let s := s.suspendAll ls 3 r.stage
  let s := ls.foldl (fun s l => s.breakLane l 1) s
  let s := { s with rel := { s.rel with
    failovers := s.rel.failovers ++ [(⟨c, 255, m.context, m.id, r.stage, s.posOf c, false⟩ : Failover)] } }
  s.unitFault (unitCore c) 0x07 64

/-- A working core is declared failed (Table 14.8, steps 1 to 3). -/
def State.declareFailed (s : State) (c : Nat) (m : Model) (r : StageRec) : State :=
  let s := s.fset F.CORE_STATUS_STATE c 1
  let s := { s with
    rel := { s.rel with routes := Tab.keep s.rel.routes (fun k _ => !(k % 2 == 1 && k / 2 % 64 == c)) }
    fab := { s.fab with net := s.fab.net.filter (fun p => p.src != c && p.dst != c) } }
  let s := (s.advanceFailover m r).seekLookout c
  match s.pickLookout c with
  | none => s.stopStage c m r
  | some k => s.takeLookout k c m r

/-- CORE_FAILED (R350): a working core fails over, a Lookout is replaced, a free core becomes Retired.  A
core whose stage found no Lookout takes one that stands now. -/
def execCoreFailed (c : Nat) (fatal : Bool) (s : State) : Res :=
  if 32 ≤ c || !s.failing c fatal then .next s
  else
    match s.rel.failovers.find? (fun f => f.core == c), s.stageOf c with
    | some f, some (m, r) =>
      if f.lookout != 255 then .next s
      else
        let s := s.seekLookout c
        match s.pickLookout c with
        | none => .next s
        | some k => .next (s.takeLookout k c m r)
    | none, some (m, r) =>
      if s.fget F.CORE_ROLE_ROLE c = 1 && r.placed.contains c then .next (s.declareFailed c m r)
      else .next (s.targetFailed c m)
    | _, none =>
      if s.fget F.CORE_STATUS_STATE c = 4 then .next s else .next ((s.retireUnit (unitCore c) 0x07).removeCore c)

/-- A Lookout has left its place for a stage: a free core takes the role, or the loss is reported (R27,
R340). -/
def State.lookoutSpent (s : State) (k : Nat) : State :=
  let c := s.fget (lookCore k) 0
  let s := s.fset (lookState k) 0 0
  let s := s.fset F.REL_STATUS_LOOKOUTS 0 s.lookouts.length
  let s := s.designate.retarget
  if s.fget (lookState k) 0 != 0 then s
  else
    let s := s.log { code := 0x140A, core := c, argA := s.lookouts.length, argB := s.rel.nextFault }
    (s.fault { kind := 1, reason := 0x0A, action := 0, core := c } []).unshieldLanes

/-- The Lookout takes the failed core's role, position, program and banks, keeps the weights it has loaded,
and runs INIT with every WAITC complete. -/
def State.joinStage (s : State) (old c : Nat) : State :=
  let t := s.cloneCore old c
  let t := (List.range 32).foldl (fun t e => t.setEngine c e { s.engine c e with run := none, tree := none, next := none }) t
  let t := t.beginCore c
  let t := t.setSeq c { t.seq c with joined := true }
  let t := t.setCore c { t.core c with fresh := (s.core old).fresh }
  t.fset F.CORE_CAD_STATUS_POS c (s.fget F.CORE_CAD_STATUS_POS old)

/-- The unacknowledged vectors of a stage are replayed from its entry; where the entry itself was replaced, it
asks for them again. -/
def State.replayStage (s : State) (old c : Nat) (vins : List VecIn) : State :=
  match s.stageOf c with
  | none => s
  | some (_, r) =>
    if r.entry = c then
      let vs := (vins.filter (fun v => !v.done)).map (fun v =>
        { v with landed := false, taken := false, staged := false, begun := false, ended := false, acked := false })
      let s := s.setCore c { s.core c with vins := vs }
      let s := vs.foldl (fun s v => (s.peers c).foldl (fun s d => if d = c then s else s.dropVec d v.lane v.item v.index) s) s
      let s := vs.foldl (fun s v => s.requestVec c v) s
      let mine := s.fab.held.filter (fun p => p.dst == old)
      let s := { s with fab := { s.fab with held := s.fab.held.map (fun p => if p.dst = old then { p with dst := c } else p) } }
      mine.foldl (fun s p => s.resend { p with dst := c }) s
    else ((s.core r.entry).vins.filter (fun v => !v.done)).foldl (fun s v => s.replayVec r.entry v.lane v.item v.index) s

/-- FAILOVER_JOIN (Table 14.8, steps 5 to 7). -/
def execFailoverJoin (c : Nat) (s : State) : Res :=
  match s.rel.failovers.find? (fun f => f.lookout == c && f.loaded), s.lookoutOf c with
  | some f, some k =>
    match s.model f.context f.model with
    | none => .next s
    | some m =>
      -- an engine without CAL_VALID does not leave the stopped state (R55)
      if s.seedWaits c || !s.allCalibrated c then .next s
      else
      let old := f.core
      let vins := (s.core old).vins
      let s := s.joinStage old c
      let s := s.setModel { m with stages := m.stages.map (fun (r : StageRec) =>
        { r with placed := r.placed.map (fun d => if d = old then c else d) }) }
      let s := { s with rel := { s.rel with failovers := s.rel.failovers.filter (fun x => x.core != old) } }
      let s := (s.fset (lookState k) 0 0).replayStage old c vins
      let s := s.retireUnit (unitCore old) 0x07
      let s := s.vacate old
      let s := s.fset F.CORE_STATUS_STATE old 4
      let s := s.fset F.CORE_ROLE_ROLE old 3
      let s := s.count C.REL_CNT_FAILOVER 0
      let s := s.fault { kind := 1, reason := 0x07, action := 12, core := old, context := f.context, stage := f.stage
                         generation := m.gen, model := m.id } []
      let s := s.log { code := 0x1408, context := f.context, core := old, argA := c, argB := s.rel.nextFault - 1 }
      let s := (s.lanesOf f.context f.model f.stage).foldl (fun s l => s.unsuspend l 3) s
      .next (s.lookoutSpent k)
  | _, _ => .next s

/-! ### Repair and verification (R357, R358) -/

/-- A model's lanes resume when none of its masters awaits re-delivery. -/
def State.repairsEnd (s : State) (m : Model) : State :=
  if s.rel.repairs.any (fun r => r.waiting && (s.stageOf r.core).elim false (fun (x : Model × StageRec) =>
      x.1.context == m.context && x.1.id == m.id)) then s
  else ((List.range 64).filter (fun l => (s.lane l).context == m.context && (s.lane l).model == m.id && s.laneUp l)).foldl
    (fun s l => s.unsuspend l 3) s

/-- A convicted tile's master slot is rewritten from the image and read back; the conviction's interval
ends here. -/
def State.repairTile (s : State) (c e : Nat) (rep : Repairing) (m : Model) (t : MapEnt) (off : Nat) : State :=
  let g := s.region c e
  let s := s.writeMaster g m.slot (s.weights m.context (s.image m.context off)) t
  let s := { s with rel := { s.rel with repairs := s.rel.repairs.erase rep } }
  let s := s.convict c e 4 0x04 0xFFFF rep.since
  if s.masterDigest g m.slot m.gen t.plan t.stage t.index == (s.engine c e).expected then
    (s.setClean (4096 + c * 64 + e)).repairsEnd m
  else (s.suspect (unitEngine c e) 0x04).digestMismatch c e

/-- REPAIR_DONE (R357). -/
def execRepairDone (c e : Nat) (s : State) : Res :=
  match s.rel.repairs.find? (fun r => r.core == c && r.engine == e && !r.waiting), s.stageOf c with
  | some rep, some (m, _) =>
    match m.imageAt, (s.engine c e).map with
    | some off, some t => .next (s.repairTile c e rep m t off)
    | _, _ => .next s
  | _, _ => .next s

/-- The master of a mapping entry is convicted. -/
def State.convictTile (s : State) (m : Model) (e : MapEnt) : State :=
  match m.stage e.stage with
  | none => s
  | some r => s.digestMismatch (r.placed.getD e.pos 0) e.engine

/-- MODEL_VERIFY_DONE (R358): every master is read back against its expected digest; if all match, the two
devices hold different images. -/
def execModelVerifyDone (ctx id : Nat) (s : State) : Res :=
  match s.model ctx id with
  | none => .next s
  | some m =>
    if !m.verifying then .next s
    else
      let s := s.setModel { m with verifying := false }
      let ds := (m.maps.zip m.regions).map (fun (x : MapEnt × Nat) =>
        (x.1, s.masterDigest x.2 m.slot m.gen x.1.plan x.1.stage x.1.index))
      let bad := ds.filter (fun (x : MapEnt × List Nat) => x.2 != x.1.digest)
      let model := shake256 (bytesOf 4 m.gen ++ bytesOf 4 m.maps.length ++ (ds.map Prod.snd).flatten)
      if bad.isEmpty && model == m.expected then .next (s.log { code := 0x140B, context := ctx, item := id % 2 ^ 48 })
      else .next (bad.foldl (fun s (x : MapEnt × List Nat) => s.convictTile m x.1) s)

/-- REL_COMMIT (R360). -/
def execRelCommit (s : State) : Res :=
  let d := s.staging F.REL_SHADOW_CFG_DWELL_US 0
  let n := s.staging F.REL_SHADOW_CFG_SAMPLE_EVERY 0
  let w := s.staging F.REL_RANGE_CFG_WINDOW 0
  if 500 ≤ d && d ≤ 10000 && 1 ≤ n && n ≤ 63 && 256 ≤ w && w ≤ 65536 then
    .next (s.applyAll [(F.REL_CFG_RETRACT_SCOPE, 0), (F.REL_SHADOW_CFG_DWELL_US, 0), (F.REL_SHADOW_CFG_SAMPLE_EVERY, 0),
      (F.REL_SHADOW_CFG_TOL_SCALE, 0), (F.REL_RANGE_CFG_WINDOW, 0), (F.REL_RANGE_CFG_CONVICT, 0)])
  else .next ((s.flag F.REL_STATUS_CFG_INVALID 0).log { code := 0x140E })

end Sys2Proof.Machine
end

