-- ==== Sys2Proof/Machine/Keep.lean ====
section
/-! DEFINITION. The Keep (R362 to R387): the mailbox commands, key release and rotation, page scrubs, frame
boundaries, hand-over and swap, destruction, attestation, and the TDISP states of the VFs with their
function level resets (R250). -/

namespace Sys2Proof.Machine

/-! ### Contexts and interfaces (R367, R368) -/

/-- The TDI state of a VF: 0 CONFIG_UNLOCKED, 1 CONFIG_LOCKED, 2 RUN, 3 ERROR. -/
def State.tdi (s : State) (vf : Nat) : Nat := Tab.getD s.keep.tdi vf 0

/-- Put a VF's TDI into a state. -/
def State.setTdi (s : State) (vf t : Nat) : State :=
  ({ s with keep := { s.keep with
      tdi := Tab.set s.keep.tdi vf t, ide := if t = 2 then s.keep.ide else s.keep.ide.filter (fun v => v != vf) } } : State).ctxRefresh

/-- Whether a context's owner has locked its interface. -/
def State.locked (s : State) (ctx : Nat) : Bool :=
  let v := s.ownerOf ctx
  v != 0 && (s.tdi v == 1 || s.tdi v == 2)

/-- The contexts of a VF. -/
def State.ctxsOfVf (s : State) (vf : Nat) : List Nat := (List.range 32).filter (fun x => s.ownerOf x == vf)

/-- The contexts of a VF that its locked interface makes confidential. -/
def State.vfConf (s : State) (vf : Nat) : List Nat :=
  (s.ctxsOfVf vf).filter (fun x => (Tab.find s.keep.defs x).elim false (fun d => d.conf))

/-- The lanes of a context. -/
def State.ctxLanes (s : State) (ctx : Nat) : List Nat :=
  (List.range 64).filter (fun l => s.laneState l != 0 && (s.lane l).context == ctx)

/-- The models of a context. -/
def State.ctxModels (s : State) (ctx : Nat) : List Model := s.models.filter (fun (m : Model) => m.context == ctx)

/-- The working cores of a context. -/
def State.ctxCores (s : State) (ctx : Nat) : List Nat :=
  (s.ctxModels ctx).flatMap (fun (m : Model) => m.stages.flatMap (fun (r : StageRec) => r.placed))

/-- The bits of KEEP_CTX_STATE.KEYS. -/
def keyBits (d : CtxDef) : Nat := d.keys.foldl (fun n (k : Nat × Nat × List Nat) => setBit n k.1) 0

/-- Replace a context's definition. -/
def State.setDef (s : State) (ctx : Nat) (d : CtxDef) : State :=
  ({ s with keep := { s.keep with defs := Tab.set s.keep.defs ctx d } } : State).fset F.KEEP_CTX_STATE_KEYS ctx (keyBits d)

/-- The TDI of a VF moves to ERROR: its lanes are suspended. -/
def State.tdiFail (s : State) (vf : Nat) : State :=
  if s.tdi vf != 1 && s.tdi vf != 2 then s
  else
    let s := s.setTdi vf 3
    let s := (s.ctxsOfVf vf).foldl (fun s x => s.suspendAll (s.ctxLanes x) 5 0xFFFF) s
    s.log { code := 0x1506, argA := vf }

/-- TDI_ERROR (R368). -/
def execTdiError (vf : Nat) (s : State) : Res := if vf = 0 || 32 < vf then .next s else .next (s.tdiFail vf)

/-- LOCK_INTERFACE (R368). -/
def execLockInterface (vf : Nat) (s : State) : Res :=
  if vf = 0 || 32 < vf || s.tdi vf != 0 then .next s else .next (s.setTdi vf 1)

/-- START_INTERFACE (R368). -/
def execStartInterface (vf : Nat) (ide : Bool) (s : State) : Res :=
  if vf = 0 || 32 < vf || s.tdi vf != 1 then .next s
  else
    let s := s.setTdi vf 2
    .next (if ide then { s with keep := { s.keep with ide := s.keep.ide ++ [vf] } } else s)

/-- CTX_DEFINE (R367). -/
def State.ctxDefine (s : State) (by' : KeepFrom) (ctx : Nat) (b : List Nat) : State :=
  if b.length != 1 || 1 < b.getD 0 0 then s.keepDone by' 1 []
  else if s.ctxState ctx != 0 then s.keepDone by' 2 []
  else
    let s := s.setDef ctx ⟨b.getD 0 0 == 1, []⟩
    let s := s.fset F.KEEP_CTX_STATE_KEYGEN ctx 0
    let s := { s with keep := { s.keep with rotated := Tab.set s.keep.rotated ctx s.ns } }
    ((s.setCtxState ctx 1).ctxRefresh).keepDone by' 0 []

/-- Why CTX_ENROLL or CTX_REVOKE of a slot is refused, 0 for none. -/
def State.keyRefusal (s : State) (ctx slot : Nat) (ok : Bool) : Nat :=
  if !ok || 4 ≤ slot then 1
  else if s.locked ctx then 5
  else if s.ctxState ctx = 0 || s.ctxState ctx = 4 then 2 else 0

/-- CTX_ENROLL (R367). -/
def State.ctxEnroll (s : State) (by' : KeepFrom) (ctx : Nat) (b : List Nat) : State :=
  let slot := b.getD 0 0
  let r := s.keyRefusal ctx slot (b.length == 65 && zeroBytes b 1 4)
  match r, Tab.find s.keep.defs ctx with
  | 0, some d => (s.setDef ctx { d with keys := Tab.set d.keys slot (leAt b 4 4, slice b 8 57) }).keepDone by' 0 []
  | 0, none => s.keepDone by' 2 []
  | _, _ => s.keepDone by' r []

/-- CTX_REVOKE (R367). -/
def State.ctxRevoke (s : State) (by' : KeepFrom) (ctx : Nat) (b : List Nat) : State :=
  let slot := b.getD 0 0
  let r := s.keyRefusal ctx slot (b.length == 1)
  match r, Tab.find s.keep.defs ctx with
  | 0, some d =>
    if (Tab.find d.keys slot).isNone then s.keepDone by' 8 []
    else (s.setDef ctx { d with keys := Tab.erase d.keys slot }).keepDone by' 0 []
  | 0, none => s.keepDone by' 2 []
  | _, _ => s.keepDone by' r []

/-! ### Swap (R382) -/

/-- Free context pages. -/
def State.freePages (s : State) : Nat :=
  47872 - (s.fab.pages.filter (fun (p : Nat × PageEnt) => decide (1280 ≤ p.1))).length

/-- The parked models of a context. -/
def State.parkedOf (s : State) (ctx : Nat) : List (Model × List (Nat × CoreSt)) :=
  s.keep.parked.filter (fun p => p.1.context == ctx)

/-- Whether the parked models of a context would place on the free cores together with those that another
releases, and both contexts' masters have room. -/
def State.swapFits (s : State) (leave enter : Nat) : Bool :=
  let need := (s.parkedOf enter).foldl (fun n p => n + (p.1.stages.foldl (fun n (r : StageRec) => n + r.cores) 0)) 0
  let out := (s.ctxModels leave).foldl (fun n (m : Model) => n + m.regions.length) 0
  let inn := (s.parkedOf enter).foldl (fun n p => n + p.1.regions.length) 0
  let cores := ((s.ctxCores leave).filter (fun c => s.unit (unitCore c) != 2)).length
  decide (need ≤ (s.pool enter).length + cores) && decide (out ≤ s.freePages) && decide (inn ≤ s.freeRegions.length + out)

/-- CTX_SWAP (R382). -/
def State.ctxSwap (s : State) (by' : KeepFrom) (leave : Nat) (b : List Nat) : State :=
  let enter := b.getD 0 0
  if b.length != 1 || 32 ≤ enter then s.keepDone by' 1 []
  else if s.keep.swap.isSome then s.keepDone by' 3 []
  else if s.ctxState leave != 2 || s.ctxState enter != 1
      || (s.ctxLanes leave).any (fun l => s.laneState l != 3) || !s.swapFits leave enter then s.keepDone by' 2 []
  else
    let s := { s with keep := { s.keep with swap := some ⟨leave, enter, by', false, false⟩ } }
    (s.setCtxState leave 3).askFrame leave .swap

/-- Copy one page of DRAM to another. -/
def State.copyPage (s : State) (src dst : Nat) : State := s.dramWrite (dst * 2 ^ 20) (s.dramRead (src * 2 ^ 20) (2 ^ 20))

/-- A page waits for its scrub. -/
def State.scrubPage (s : State) (p : Nat) : State :=
  { s with fab := { s.fab with pages := Tab.mapv s.fab.pages (fun q (e : PageEnt) => if q = p then { e with scrub := true } else e) } }

/-- Park one master region into a page of its context. -/
def State.parkRegion (s : State) (ctx region : Nat) : State × Nat :=
  match s.freePage with
  | none => (s, region)
  | some p =>
    match s.allocPage ctx 2 0 with
    | none => (s, region)
    | some t => ((t.copyPage region p).scrubPage region, p)

/-- Park a model: its masters go into pages of its own context, and what each core position holds is kept. -/
def State.parkModel (s : State) (m : Model) : State :=
  let saved := m.stages.flatMap (fun (r : StageRec) => r.placed.zipIdx.map (fun (x : Nat × Nat) =>
    (r.stage * 8 + x.2, { s.core x.1 with bank0 := s.activeBank x.1, bank1 := s.otherBank x.1 })))
  let (s, pages) := m.regions.foldl (fun (a : State × List Nat) g =>
    let (t, p) := a.1.parkRegion m.context g
    (t, a.2 ++ [p])) (s, [])
  { s with
    models := s.models.filter (fun (x : Model) => !(x.context == m.context && x.id == m.id))
    keep := { s.keep with parked := s.keep.parked ++ [({ m with regions := pages, waiter := none }, saved)] } }

/-- Put one core position of a parked model on a core. -/
def State.restoreCore (s : State) (m : Model) (r : StageRec) (pos c : Nat) (k : CoreSt) : State :=
  let s := s.setCore c { CoreSt.empty with
    place := some ⟨m.context, m.id, r.stage, pos⟩, bank0 := k.bank0, bank1 := k.bank1
    buffers := k.buffers.map (fun (x : Buffer) => { x with win0 := none, win1 := none }), descs := k.descs, tables := k.tables }
  let s := s.setRole c m.context r pos
  let s := s.fset F.CORE_CAD_CFG_LEN c r.cadLen
  let s := s.fset F.CORE_CAD_CFG_SLOT_PLANES c r.slotPlanes
  let s := s.fset F.CORE_CAD_STATUS_BANK c 0
  let s := s.fset F.RST_SLOT_ACTIVE c m.slot
  let s := s.fset F.RST_GEN_GEN c m.gen
  let s := match m.next with
    | none => s
    | some n => (s.fset F.RST_SLOT_NEXT_READY c (ofBool n.ready)).fset F.RST_GEN_NEXT_GEN c n.gen
  let mine := (m.maps.zip m.regions).filter (fun (x : MapEnt × Nat) => x.1.stage == r.stage && x.1.pos == pos)
  let s := s.setEngines c (mine.map Prod.fst) (mine.map Prod.snd)
  let s := match m.programs.find? (fun g => g.stage == r.stage && g.pos == pos) with
    | none => s
    | some g => s.setProgram c r g
  (s.core c).buffers.foldl (fun s (x : Buffer) => s.putConstant c x) s

/-- Restore a parked model: masters into regions, verified by digest, and its positions onto the cores of the
pool; its start-up passes and bulk loads follow. -/
def State.restoreModel (s : State) (m : Model) (saved : List (Nat × CoreSt)) : State :=
  let taken := takeCores (m.stages.map (fun (r : StageRec) => r.cores)) (s.pool m.context)
  let regions := s.freeRegions.take m.regions.length
  let kg := s.fget F.KEEP_CTX_STATE_KEYGEN m.context
  let s := (m.regions.zip regions).foldl (fun s (x : Nat × Nat) =>
    let s := { s with fab := { s.fab with pages := Tab.set s.fab.pages x.2 ⟨m.context, 0, kg, 0, false⟩ } }
    (s.copyPage x.1 x.2).scrubPage x.1) s
  let stages := (m.stages.zip taken).map (fun (x : StageRec × List Nat) => { x.1 with placed := x.2 })
  let m := { m with stages := stages, regions := regions, state := .starting, swept := [] }
  let s := { s with models := s.models ++ [m] }
  let s := stages.foldl (fun s (r : StageRec) => r.placed.zipIdx.foldl (fun s (x : Nat × Nat) =>
    s.restoreCore m r x.2 x.1 ((saved.find? (fun y => y.1 == r.stage * 8 + x.2)).elim .empty Prod.snd)) s) s
  (m.maps.zip regions).foldl (fun s (x : MapEnt × Nat) =>
    if s.masterDigest x.2 m.slot m.gen x.1.plan x.1.stage x.1.index == x.1.digest then s else s.convictTile m x.1) s

/-- Whether a core is still being handed over from a context. -/
def State.handingOver (s : State) (ctx : Nat) : Bool :=
  s.keep.bleed.any (fun (p : Nat × Bleed) => p.2.context == ctx)
    || (List.range 32).any (fun c => (s.restorer c).zeroing && s.ctxOf c == ctx)

/-- The entering context of a swap takes the cores once the leaving one has given them up. -/
def State.swapGo (s : State) : State :=
  match s.keep.swap with
  | none => s
  | some w =>
    if !w.left || w.entering || s.handingOver w.leave then s
    else
      let ps := s.parkedOf w.enter
      let need := ps.foldl (fun n p => n + (p.1.stages.foldl (fun n (r : StageRec) => n + r.cores) 0)) 0
      let s := s.setCtxState w.leave 1
      if (s.pool w.enter).length < need then
        -- a core was lost on the way
        (({ s with keep := { s.keep with swap := none } } : State).ctxRefresh.shares).keepDone w.by' 2 []
      else
        let s := { s with keep := { s.keep with
          swap := some { w with entering := true }, parked := s.keep.parked.filter (fun p => p.1.context != w.enter) } }
        let s := ps.foldl (fun s p => s.restoreModel p.1 p.2) s
        let s := if ps.isEmpty then s else s.setCtxState w.enter 2
        (s.ctxRefresh.shares).swapEnd w.enter

/-! ### Frame boundaries (R380) -/

/-- Whether an accepted item of a context is between acceptance and delivery. -/
def State.itemsOpen (s : State) (ctx : Nat) : Bool :=
  s.items.any (fun (p : Nat × ItemCtx) => (s.lane p.2.lane).context == ctx && p.2.input && !p.2.delivered
    && p.2.state != .withheld && p.2.state != .retracted)

/-- Empty the on-die state of a core (Table 15.8), and put back its constants. -/
def State.emptyCore (s : State) (c : Nat) : State :=
  let s := { s with sram := s.sram.filter (fun x => x.1 / 2 ^ 23 != c) }
  let s := (List.range 36).foldl (fun s e =>
    s.setEngine c e { s.engine c e with run := none, tree := none, next := none, idle := 0 }) s
  let s := (s.setTile c 0 .empty).setTile c 1 .empty
  let s := s.zeroScratch c
  let k := s.core c
  let s := s.setCore c { k with
    vins := [], fetches := [], stats := [], parts := [], exitSums := [], lastTile := [], rxNext := 0, req := .none
    check := false, buffers := k.buffers.map (fun (x : Buffer) => { x with win0 := none, win1 := none }) }
  let q := s.seq c
  let s := s.setSeq c { q with vec := .empty, itm := .empty, regs := [], due := [] }
  let s := s.fset F.CORE_STATUS_STATE c 1
  (s.core c).buffers.foldl (fun s (x : Buffer) => s.putConstant c x) s

/-- A model takes its ready generation, in one stage or in all (R126). -/
def State.frameSwitch (s : State) (ctx id stage : Nat) : State :=
  match s.model ctx id with
  | none => s
  | some m =>
    match m.next with
    | none => s
    | some n =>
      let rs := m.stages.filter (fun (r : StageRec) => (stage == 0 || r.stage == stage) && !n.switched.contains r.stage)
      let s := rs.foldl (fun s (r : StageRec) => r.placed.zipIdx.foldl (fun s (x : Nat × Nat) => s.genCore n r.stage x.2 x.1) s) s
      s.setModel { m with next := some { n with switched := n.switched ++ rs.map (fun (r : StageRec) => r.stage) } }

/-- The old epochs of a context's stages have no packet and no item left (R198). -/
def State.frameEpochs (s : State) (ctx : Nat) : State :=
  (s.ctxModels ctx).foldl (fun s (m : Model) => m.stages.foldl (fun s (r : StageRec) =>
    let k := stageKey ctx m.id r.stage
    s.newEpoch k (s.epoch k).cur) s) s

/-- The context leaves: its masters are parked and its cores are handed over (R381, R382). -/
def State.frameSwap (s : State) (ctx : Nat) : State :=
  let cs := s.ctxCores ctx
  let s := (s.ctxModels ctx).foldl (fun s (m : Model) => s.parkModel m) s
  let s := cs.foldl (fun s c => s.vacate c) s
  let s := { s with keep := { s.keep with
    swap := s.keep.swap.map (fun (w : Swap) => ({ w with left := true } : Swap)), resume := s.keep.resume.filter (fun (p : Nat × Nat) => !cs.contains p.1) } }
  s.swapGo

/-- What a boundary was asked for. -/
def State.frameDo (s : State) (ctx : Nat) : FrameWhy → State
  | .switch id stage => s.frameSwitch ctx id stage
  | .swap => s.frameSwap ctx
  | .epoch => s.frameEpochs ctx
  | .microcode c =>
    let f : Activation → Activation := fun a => { a with cores := a.cores.filter (fun d => d != c) }
    { s with mgmt := { s.mgmt with act := s.mgmt.act.map f } }

/-- FRAME_BOUNDARY (R380). -/
def execFrameBoundary (ctx : Nat) (s : State) : Res :=
  let ws := Tab.getD s.keep.frames ctx []
  let cs := s.ctxCores ctx
  if ws.isEmpty || s.itemsOpen ctx || !cs.all s.atBoundary then .next s
  else
    let live := (cs.filter s.coreLocked).map (fun c => (c, s.fget F.CORE_STATUS_STATE c))
    let s := { s with keep := { s.keep with
      frames := Tab.set s.keep.frames ctx [], resume := live.foldl (fun t (p : Nat × Nat) => Tab.set t p.1 p.2) s.keep.resume } }
    let s := cs.foldl (fun s c => s.emptyCore c) s
    let s := ws.foldl (fun s w => s.frameDo ctx w) s
    .next (s.frameResume ctx)

/-! ### Destruction (R379, R383) -/

/-- End a lane at once: its items end, and the lane is free. -/
def State.endLane (s : State) (l : Nat) : State :=
  let was := s.laneState l
  let s := if was = 4 then s else s.beginRelease l
  let mine := s.items.filter (fun (p : Nat × ItemCtx) => p.2.lane == l)
  let s := mine.foldl (fun s (p : Nat × ItemCtx) => s.endReleased p.1) s
  let x := s.lane l
  if was = 1 then
    let s := (s.setLane l { x with waiter := none }).freeLane l
    match x.waiter with
    | none => s
    | some (k, n) => s.done k n 0x67
  else s.freeLane l

/-- A load of a context that waits for its key, or that has not started, ends refused. -/
def State.endLoads (s : State) (ctx : Nat) : State :=
  let s := match Tab.find s.keep.pend ctx with
    | none => s
    | some p =>
      let s := { s with keep := { s.keep with pend := Tab.erase s.keep.pend ctx } }
      s.loadRefuse ⟨p.ring, p.number, ctx, p.off, p.perm⟩ (s.image ctx p.off) { status := 0x06 } 0 []
  (s.ctxModels ctx).foldl (fun s (m : Model) =>
    match (if m.state = .starting then m.waiter else none) with
    | none => s
    | some (_, k, n) => s.loadRefuse ⟨k, n, ctx, m.imageAt.getD 0, false⟩ (s.image ctx (m.imageAt.getD 0)) { status := 0x1B } 0 []) s

/-- Steps 1 to 3 of R383; `by'` is none for an interface that is stopped or reset. -/
def State.destroyCtx (s : State) (ctx : Nat) (by' : Option KeepFrom) : State :=
  let s := (s.ctxLanes ctx).foldl (fun s l => s.endLane l) s
  let s := s.endLoads ctx
  let s := (s.ctxModels ctx).foldl (fun s (m : Model) => s.dropModel m) s
  let s := (s.parkedOf ctx).foldl (fun s p => s.releaseModel p.1) s
  let s := { s with keep := { s.keep with
    parked := s.keep.parked.filter (fun p => p.1.context != ctx)
    wkeys := s.keep.wkeys.filter (fun k => k.context != ctx), frames := Tab.erase s.keep.frames ctx
    rot := s.keep.rot.filter (fun x => x != ctx), destroy := s.keep.destroy ++ [(⟨ctx, by'⟩ : Destroy)] } }
  let s := s.scrubPages (fun e => e.owner == ctx)
  let s := s.fset F.KEEP_CTX_STATE_ROTATING ctx 0
  let s := s.fset F.KEEP_STATUS_ROTATING 0 (ofBool (!s.keep.rot.isEmpty))
  (s.setCtxState ctx 4).ctxRefresh

/-- Step 4 of R383 for a context whose cores have been handed over and whose pages are scrubbed. -/
def State.destroyOne (s : State) (d : Destroy) : State :=
  if s.handingOver d.context || s.fab.pages.any (fun (p : Nat × PageEnt) => p.2.owner == d.context) then s
  else
    let s := { s with keep := { s.keep with
      destroy := s.keep.destroy.erase d, defs := Tab.erase s.keep.defs d.context } }
    let s := s.fset F.KEEP_CTX_STATE_KEYS d.context 0
    let s := s.fset F.KEEP_CTX_STATE_KEYGEN d.context 0
    let s := (s.setCtxState d.context 0).log { code := 0x1507, context := d.context }
    match d.by' with
    | some b => (s.ctxRefresh).keepDone b 0 []
    | none =>
      let v := s.ownerOf d.context
      if s.keep.destroy.any (fun x => s.ownerOf x.context == v) then s.ctxRefresh else s.setTdi v 0

/-- Look whether a destruction can end. -/
def State.destroyGo (s : State) : State := s.keep.destroy.foldl (fun s d => s.destroyOne d) s

/-- CTX_DESTROY (R383). -/
def State.ctxDestroy (s : State) (by' : KeepFrom) (ctx : Nat) (b : List Nat) : State :=
  if !b.isEmpty then s.keepDone by' 1 []
  else if !(s.ctxState ctx == 1 || s.ctxState ctx == 2) || s.keep.swap.any (fun w => w.enter == ctx) then s.keepDone by' 2 []
  else (s.destroyCtx ctx (some by')).destroyGo

/-- Destroy every confidential context of a VF; its TDI is unlocked when the scrubs have ended. -/
def State.endInterface (s : State) (vf : Nat) : State :=
  let xs := (s.vfConf vf).filter (fun x => s.ctxState x != 0 && s.ctxState x != 4)
  if xs.isEmpty then s.setTdi vf 0 else (xs.foldl (fun s x => s.destroyCtx x none) s).destroyGo

/-- STOP_INTERFACE (R368). -/
def execStopInterface (vf : Nat) (s : State) : Res :=
  if vf = 0 || 32 < vf || s.tdi vf = 0 then .next s else .next (s.endInterface vf)

/-- VF_FLR (R250, R368). -/
def execVfFlr (vf : Nat) (s : State) : Res :=
  if vf = 0 || 32 < vf then .next s
  else
    let s := (s.flr vf).log { code := 0x0C04, argA := vf }
    .next (if s.tdi vf = 0 then s else s.endInterface vf)

/-- PF_FLR (R250): the PF and every VF; a locked interface moves to ERROR. -/
def execPfFlr (s : State) : Res :=
  let s := (List.range 33).foldl (fun s f => s.flr f) s
  let s := s.log { code := 0x0C04, argA := 0 }
  .next ((rangeFrom 1 32).foldl (fun s v => s.tdiFail v) s)

/-- PAGE_SCRUB_DONE (R379): every block of the page is written as zero, and the page is free. -/
def execPageScrubDone (page : Nat) (s : State) : Res :=
  match Tab.find s.fab.pages page with
  | none => .next s
  | some e =>
    if !e.scrub then .next s
    else
      let s := { s with
        dram := s.dram.filter (fun x => x.1 / 2 ^ 20 != page)
        fab := { s.fab with pages := Tab.erase s.fab.pages page } }
      .next s.destroyGo

/-! ### Decay certification (R381) -/

/-- DECAY_CERTIFIED (R381 step 5): every former cell has lost its charge, and the core passes on. -/
def execDecayCertified (c : Nat) (s : State) : Res :=
  match Tab.find s.keep.bleed c with
  | none => .next s
  | some _ =>
    let s := (List.range 36).foldl (fun s e => s.setEngine c e (s.engine c e).zero) s
    let s := { s with keep := { s.keep with bleed := Tab.erase s.keep.bleed c } }
    let s := s.fset F.KEEP_CORE_DATA_DECAY c 2
    let s := s.fset F.KEEP_CORE_DATA_CLEAN c 1
    .next ((s.swapGo).destroyGo).designate.retarget

/-- DECAY_TIMEOUT (R381): not certified within 40 ms, the core repeats steps 3 to 5 and becomes a suspect; a
second failure retires it. -/
def execDecayTimeout (c : Nat) (s : State) : Res :=
  match Tab.find s.keep.bleed c with
  | none => .next s
  | some b =>
    if s.ns < b.since + 40000000 then .next s
    else
      let s := s.count C.KEEP_CNT_DECAYFAIL 0
      let s := s.log { code := 0x1505, context := b.context, core := c }
      if b.fails = 0 then .next ((s.suspect (unitCore c) 0).beginBleed c 1 b.context)
      else
        let s := { s with keep := { s.keep with bleed := Tab.erase s.keep.bleed c } }
        let s := s.fset F.KEEP_CORE_DATA_DECAY c 3
        .next (((s.retire (unitCore c) 0).swapGo).destroyGo)

/-! ### Key rotation (R378) -/

/-- A rotation starts: pages allocated from now on take the new key generation. -/
def State.rotate (s : State) (ctx : Nat) : State :=
  let s := s.fset F.KEEP_CTX_STATE_KEYGEN ctx (1 - s.fget F.KEEP_CTX_STATE_KEYGEN ctx)
  let s := { s with keep := { s.keep with rot := s.keep.rot ++ [ctx], rotated := Tab.set s.keep.rotated ctx s.ns } }
  (s.fset F.KEEP_CTX_STATE_ROTATING ctx 1).fset F.KEEP_STATUS_ROTATING 0 1

/-- Whether a context is defined or resident. -/
def State.ctxLive (s : State) (ctx : Nat) : Bool := s.ctxState ctx == 1 || s.ctxState ctx == 2

/-- KEY_ROTATE (R378). -/
def State.keyRotate (s : State) (by' : KeepFrom) (ctx : Nat) (b : List Nat) : State :=
  if !b.isEmpty then s.keepDone by' 1 []
  else if !s.ctxLive ctx then s.keepDone by' 2 []
  else if s.keep.rot.contains ctx then s.keepDone by' 3 []
  else (s.rotate ctx).keepDone by' 0 []

/-- ROTATION_TIMER (R378). -/
def execRotationTimer (ctx : Nat) (s : State) : Res :=
  let h := s.fget F.KEEP_CONF_CFG_ROT_PERIOD_H 0
  if h = 0 || s.fget F.KEEP_STATUS_STATE 0 = 0 || !s.ctxLive ctx || s.keep.rot.contains ctx
      || decide (s.ns < Tab.getD s.keep.rotated ctx 0 + h * 3600000000000) then .next s
  else .next (s.rotate ctx)

/-- ROTATION_DONE (R378): every page has the new generation, and no read under the old key is in flight. -/
def execRotationDone (ctx : Nat) (s : State) : Res :=
  if !s.keep.rot.contains ctx || s.fget F.KEEP_STATUS_STATE 0 == 0 || (s.fab.net ++ s.fab.held).any (fun p => (p.typ == .memRead || p.typ == .readData) && p.context == ctx) then .next s
  else
    let g := s.fget F.KEEP_CTX_STATE_KEYGEN ctx
    let s := { s with
      fab := { s.fab with pages := Tab.mapv s.fab.pages (fun _ (e : PageEnt) => if e.owner = ctx then { e with keygen := g } else e) }
      keep := { s.keep with rot := s.keep.rot.filter (fun x => x != ctx) } }
    let s := s.fset F.KEEP_CTX_STATE_ROTATING ctx 0
    let s := s.fset F.KEEP_STATUS_ROTATING 0 (ofBool (!s.keep.rot.isEmpty))
    .next (s.log { code := 0x1504, context := ctx })

/-! ### Key release (R376) -/

/-- REL_READ: the pending release request. -/
def State.relRead (s : State) (by' : KeepFrom) (ctx : Nat) (b : List Nat) : State :=
  if !b.isEmpty then s.keepDone by' 1 []
  else match Tab.find s.keep.pend ctx with
    | none => s.keepDone by' 8 []
    | some p => s.keepDone by' 0 (slice p.request 0 2874)

/-- A pending load ends without its key. -/
def State.releaseFail (s : State) (ctx : Nat) (p : PendLoad) : State :=
  let s := { s with keep := { s.keep with pend := Tab.erase s.keep.pend ctx } }
  let s := s.log { code := 0x1503, context := ctx }
  s.loadRefuse ⟨p.ring, p.number, ctx, p.off, p.perm⟩ (s.image ctx p.off) { status := 0x06 } (s.pool ctx).length []

/-- The weights key in an answer of the key service, if its tag verifies. -/
def unwrapKey (p : PendLoad) (b : List Nat) : Option (List Nat) :=
  let k := shake256n 32 (ascii "QV-WEIGHTS" ++ Config.x448 p.secret (slice b 0 56) ++ p.data)
  Config.gcmOpen k (slice b 56 12) (bytesOf 16 p.model ++ bytesOf 4 p.gen ++ bytesOf 4 p.keyId) (slice b 68 48)

/-- KEY_RELEASE: the weights key is unwrapped, and the load goes on. -/
def State.keyRelease (s : State) (by' : KeepFrom) (ctx : Nat) (b : List Nat) : State :=
  if b.length != 116 then s.keepDone by' 1 []
  else match Tab.find s.keep.pend ctx with
    | none => s.keepDone by' 3 []
    | some p =>
      match unwrapKey p b with
      | none => (((s.count C.KEEP_CNT_RELFAIL 0).releaseFail ctx p).keepDone by' 7 [])
      | some k =>
        let img := s.image ctx p.off
        let w : WeightsKey := ⟨ctx, p.model, p.gen, slice k 0 32, slice (sectBytes img 9) 12 12⟩
        let s := { s with keep := { s.keep with pend := Tab.erase s.keep.pend ctx, wkeys := s.keep.wkeys ++ [w] } }
        let s := s.keepDone by' 0 []
        s.loadPlain ⟨p.ring, p.number, ctx, p.off, p.perm⟩ img (s.weights ctx img)

/-- RELEASE_TIMEOUT (R376). -/
def execReleaseTimeout (ctx : Nat) (s : State) : Res :=
  match Tab.find s.keep.pend ctx with
  | none => .next s
  | some p =>
    if s.fget F.KEEP_STATUS_STATE 0 = 0 || s.ns < p.since + s.fget F.KEEP_CONF_CFG_REL_TO_S 0 * 1000000000 then .next s else .next (s.releaseFail ctx p)

/-! ### Attestation (R371, R373, R374) -/

/-- CERT_READ: up to 4,096 bytes of a certificate of the chain from an offset on. -/
def State.certRead (s : State) (by' : KeepFrom) (_ctx : Nat) (b : List Nat) : State :=
  if b.length != 8 || !zeroBytes b 1 4 then s.keepDone by' 1 []
  else if 4 ≤ b.getD 0 0 then s.keepDone by' 8 []
  else s.keepDone by' 0 ((List.range 4096).map (fun i => Config.certByte (b.getD 0 0) (leAt b 4 4 + i) % 256))

/-- The measurement blocks of GET_MEASUREMENTS: 1 to 5 the SHA3-512 digests of the firmware images, 0xF0 the
report for context 0. -/
def State.measurements (s : State) (nonce : List Nat) : List Nat :=
  [1, 2, 3, 4, 5].flatMap (fun t => t :: sha3 (s.fwImage t (s.fwActive t)))
    ++ 0xF0 :: s.report 0 nonce (List.replicate 64 0)

/-- Answer an attestation request. -/
def State.attAnswer (s : State) (r : AttReq) : State :=
  match r.by' with
  | .spdm => s.emit (.spdm 0 (s.measurements r.nonce))
  | b => s.keepDone b 0 (s.report r.ctx r.nonce r.data)

/-- Take an attestation request: answered at once, or queued while the device is settling. -/
def State.attRequest (s : State) (r : AttReq) : State :=
  if !s.settling r.ctx then s.attAnswer r
  else if 16 ≤ s.keep.queue.length then s.keepDone r.by' 4 []
  else ({ s with keep := { s.keep with queue := s.keep.queue ++ [r] } } : State).count C.KEEP_CNT_QUEUED 0

/-- ATTEST (R371). -/
def State.attest (s : State) (by' : KeepFrom) (ctx : Nat) (b : List Nat) : State :=
  let s := s.count C.KEEP_CNT_ATTEST 0
  if b.length != 96 then s.keepDone by' 1 []
  else s.attRequest ⟨ctx, slice b 0 32, slice b 32 64, by', s.ns⟩

/-- GET_MEASUREMENTS (R374). -/
def execGetMeasurements (nonce : List Nat) (s : State) : Res :=
  .next (s.attRequest ⟨0, slice nonce 0 32, List.replicate 64 0, .spdm, s.ns⟩)

/-- SETTLING_END (R373): the requests that need wait no longer are answered in arrival order. -/
def execSettlingEnd (s : State) : Res :=
  let rs := s.keep.queue.filter (fun r => !s.settling r.ctx)
  let s := { s with keep := { s.keep with queue := s.keep.queue.filter (fun r => s.settling r.ctx) } }
  .next (rs.foldl (fun s r => s.attAnswer r) s)

/-- ATTEST_TIMEOUT (R373). -/
def execAttestTimeout (s : State) : Res :=
  let late (r : AttReq) : Bool := decide (r.since + 2000000000 ≤ s.ns)
  let rs := s.keep.queue.filter late
  let s := { s with keep := { s.keep with queue := s.keep.queue.filter (fun r => !late r) } }
  .next (rs.foldl (fun s r => s.keepDone r.by' 6 []) s)

/-! ### The mailbox (R385, R386) -/

/-- Run a command of Table 15.12. -/
def State.keepRun (s : State) (by' : KeepFrom) (cmd ctx : Nat) (b : List Nat) : State :=
  match cmd with
  | 1 => s.ctxDefine by' ctx b
  | 2 => s.ctxEnroll by' ctx b
  | 3 => s.ctxRevoke by' ctx b
  | 4 => s.ctxSwap by' ctx b
  | 5 => s.ctxDestroy by' ctx b
  | 6 => s.attest by' ctx b
  | 7 => s.keyRotate by' ctx b
  | 8 => s.relRead by' ctx b
  | 9 => s.keyRelease by' ctx b
  | 10 => s.certRead by' ctx b
  | _ => s.keepDone by' 1 []

/-- Take a command: it runs at once, or waits while the Keep restarts (R403). -/
def State.keepTake (s : State) (q : KeepAsk) : State :=
  if s.fget F.KEEP_STATUS_STATE 0 = 0 then { s with keep := { s.keep with waiting := s.keep.waiting ++ [q] } }
  else s.keepRun q.by' q.cmd q.ctx q.input

/-- KEEP_MB_CTRL.GO: the mailbox runs the command that KEEP_MB_CMD names; while one runs GO does nothing, and
until the host section runs only ATTEST is run (R417). -/
def State.mailboxGo (s : State) : State :=
  if s.fon F.KEEP_MB_STATUS_BUSY 0 || (s.fget F.GLB_PWR_STATUS_STATE 0 == 0 && s.fget F.KEEP_MB_CMD_CMD 0 != 6) then s
  else
    let s := s.fset F.KEEP_MB_STATUS_BUSY 0 1
    let n := s.fget F.KEEP_MB_CMD_LEN 0
    if 4096 < n then s.keepDone .mailbox 1 []
    else s.keepTake ⟨.mailbox, s.fget F.KEEP_MB_CMD_CMD 0, s.fget F.KEEP_MB_CMD_CONTEXT 0, s.mbRead n⟩

/-- GO with one command of Table 15.12 in KEEP_MB_CMD. -/
def State.mailbox (s : State) (cmd : Nat) : State := if s.fget F.KEEP_MB_CMD_CMD 0 = cmd then s.mailboxGo else s

/-- CTX_DEFINE. -/
def execCtxDefine (s : State) : Res := .next (s.mailbox 1)
/-- CTX_ENROLL. -/
def execCtxEnroll (s : State) : Res := .next (s.mailbox 2)
/-- CTX_REVOKE. -/
def execCtxRevoke (s : State) : Res := .next (s.mailbox 3)
/-- CTX_SWAP. -/
def execCtxSwap (s : State) : Res := .next (s.mailbox 4)
/-- CTX_DESTROY. -/
def execCtxDestroy (s : State) : Res := .next (s.mailbox 5)
/-- ATTEST. -/
def execAttest (s : State) : Res := .next (s.mailbox 6)
/-- KEY_ROTATE. -/
def execKeyRotate (s : State) : Res := .next (s.mailbox 7)
/-- REL_READ. -/
def execRelRead (s : State) : Res := .next (s.mailbox 8)
/-- KEY_RELEASE. -/
def execKeyRelease (s : State) : Res := .next (s.mailbox 9)
/-- CERT_READ. -/
def execCertRead (s : State) : Res := .next (s.mailbox 10)

/-- KEEP_COMMIT (R385). -/
def execKeepCommit (s : State) : Res :=
  let t := s.staging F.KEEP_CONF_CFG_REL_TO_S 0
  if 1 ≤ t && t ≤ 60 then
    .next (s.applyAll [(F.KEEP_CONF_CFG_POWER, 0), (F.KEEP_CONF_CFG_CNP_POLICY, 0), (F.KEEP_CONF_CFG_REL_TO_S, 0),
      (F.KEEP_CONF_CFG_ROT_PERIOD_H, 0)])
  else .next ((s.flag F.KEEP_STATUS_CFG_INVALID 0).log { code := 0x1509 })

end Sys2Proof.Machine
end

