-- ==== Sys2Proof/Machine/FwOps.lean ====
section
/-! DEFINITION. Firmware images and activations as shared operations (R363, R365, R402 to R404): the
validity of an image, the flags of a slot, and the end of an activation by commit or rollback. -/

namespace Sys2Proof.Machine

/-- Answer a management request, if its session is still open (R393); MGT_CNT_MSGBAD counts statuses 0x01
and 0x02. -/
def State.answer (s : State) (session msg tag status : Nat) (payload : List Nat) : State :=
  let s := if status = 1 || status = 2 then s.count C.MGT_CNT_MSGBAD 0 else s
  s.replyTo session msg tag status payload

/-- Whether a public key belongs to the root key of mask ROM, or to one of the 8 enrolled key digests that
is not revoked. -/
def fwKeyOk (k : List Nat) : Bool :=
  let d := slice (shake256 k) 0 32
  d == slice (shake256 rootKey) 0 32
    || (List.range 8).any (fun j => Config.nonVolatile 6 j % 2 == 0
        && d == (List.range 32).map (fun i => Config.nonVolatile 5 (j * 32 + i) % 256))

/-- The public key in an image's trailer. -/
def fwKey (b : List Nat) : List Nat := slice b (128 + leAt b 16 4 + 8) 57

/-- Whether an image is well formed for a type and signed by the key it names (R363). -/
def fwSigned (typ : Nat) (b : List Nat) : Bool :=
  let n := 128 + leAt b 16 4
  leAt b 0 4 == 0x57465651 && leAt b 4 2 == 1 && b.getD 6 0 == typ && decide (b.getD 7 0 < 2)
    && leAt b 20 2 == 0x9632 && decide (b.getD 22 0 ≤ 0xB0) && zeroBytes b 23 128
    && decide (n + 256 ≤ b.length) && leAt b n 4 == 0x47535651 && zeroBytes b (n + 179) (n + 256)
    && Config.ed448Verify (fwKey b) (fwMeasure b) (slice b (n + 65) 114)

/-- Whether an image is valid for a type (R363). -/
def State.fwValid (s : State) (typ : Nat) (b : List Nat) : Bool :=
  fwSigned typ b && fwKeyOk (fwKey b) && decide (s.fget F.KEEP_SVN_DATA_COUNTER typ ≤ leAt b 8 4)

/-- Whether a slot's image is valid for its type; what was shipped in it meets R363 but for the counter, which
can rise above its SVN (R365). -/
def State.fwSlotOk (s : State) (typ slot : Nat) : Bool :=
  if s.mgmt.factory.contains (typ * 2 + slot) then decide (s.fget F.KEEP_SVN_DATA_COUNTER typ ≤ leAt (factoryImage typ) 8 4)
  else s.fwValid typ (s.fwImage typ slot)

/-- The valid flag of a slot. -/
def slotValid (slot : Nat) : Fld := if slot = 0 then F.MGT_FW_DATA_A_VALID else F.MGT_FW_DATA_B_VALID

/-- Set a slot's valid flag from its image. -/
def State.fwCheck (s : State) (typ slot : Nat) : State :=
  s.fset (slotValid slot) typ (ofBool (s.fwSlotOk typ slot))

/-- The inactive slot of a type. -/
def State.fwIdle (s : State) (typ : Nat) : Nat := 1 - s.fwActive typ

/-- How long a part may take to report ready (Table 16.7), ns. -/
def readyLimit (typ : Nat) : Nat :=
  match typ with
  | 1 => 500000000
  | 2 => 2000000000
  | 5 => 50000000
  | _ => 100000

/-- The anchor slot of a session, for the records that name it (R412). -/
def State.anchorOf (s : State) (id : Nat) : Nat := (s.mgmt.sessions.find? (fun e => e.id == id)).elim 255 (fun e => e.anchor)

/-- An activation ends by commit (R404, R365): the trial slot becomes active, and the counter rises. -/
def State.fwCommit (s : State) (a : Activation) : State :=
  let slot := 1 - a.prev
  let b := s.fwImage a.typ slot
  let s := { s with mgmt := { s.mgmt with act := none } }
  let s := s.fset F.MGT_FW_DATA_ACTIVE a.typ slot
  let s := s.fset F.MGT_FW_DATA_STATE a.typ 0
  let s :=
    if bit (b.getD 7 0) 0 && decide (s.fget F.KEEP_SVN_DATA_COUNTER a.typ < leAt b 8 4) then
      let s := s.fset F.KEEP_SVN_DATA_COUNTER a.typ (leAt b 8 4)
      ((s.fwCheck a.typ 0).fwCheck a.typ 1).log { code := 0x1502, argA := a.typ }
    else s
  (s.log { code := 0x1606, engine := s.anchorOf a.session, argA := a.typ }).settleOff .activation

/-- An activation ends by rollback (R404): FW_ACTIVATE is answered 0x07, or FW_ROLLBACK 0x00. -/
def State.fwRolledBack (s : State) (a : Activation) : State :=
  let s := { s with mgmt := { s.mgmt with act := none } }
  let s := s.fset F.MGT_FW_DATA_ACTIVE a.typ a.prev
  let s := s.fset F.MGT_FW_DATA_STATE a.typ 0
  let s := s.log { code := 0x1607, engine := s.anchorOf a.session, argA := a.typ }
  let s := match a.undo with
    | some (id, tag) => s.answer id 0x0033 tag 0 []
    | none => if a.answered then s else s.answer a.session 0x0031 a.tag 7 []
  s.settleOff .activation

/-- A part has reported ready in its trial (R404): committed, unless HOLD was set. -/
def State.fwReady (s : State) (a : Activation) : State :=
  let s := s.answer a.session 0x0031 a.tag 0 []
  if a.hold then
    ({ s with mgmt := { s.mgmt with act := some { a with phase := ActPhase.trial, started := s.ns, answered := true } } } : State).fset F.MGT_FW_DATA_STATE a.typ 3
  else s.fwCommit a

/-- A part goes back to its previous slot (R404). -/
def State.fwBack (s : State) (a : Activation) (undo : Option (Nat × Nat)) : State :=
  ({ s with mgmt := { s.mgmt with act := some { a with phase := ActPhase.backing, started := s.ns, undo := undo } } } : State).fset
    F.MGT_FW_DATA_STATE a.typ 2

end Sys2Proof.Machine
end

