-- ==== Sys2Proof/Machine/FieldAna.lean ====
section
/-! DEFINITION. The field analogue blocks (R284 to R298): the input sequencer, its window comparators and
self-calibration, the analogue outputs with their deglitch holds, span changes and host-absent policies, and the
non-volatile writes of the field controller. -/

namespace Sys2Proof.Machine

/-! ### Non-volatile writes (R282, R292, R297) -/

/-- The fields that a non-volatile write stores: 0 policy and timeout, 1 spans and analogue policy, 2
calibration factors. -/
def nvFields (kind : Nat) : List (Fld × Nat) :=
  match kind with
  | 0 => (F.FLD_HOST_TO_TO, 0) :: (List.range 24).flatMap (fun k => [(F.FLD_POL_ACTION, k), (F.FLD_POL_LEVEL, k)])
  | 1 => (List.range 4).flatMap (fun k =>
      [(F.FDAC_CFG_SPAN, k), (F.FDAC_CFG_DEGLITCH, k), (F.FDAC_POL_ACTION, k), (F.FDAC_POL_CODE, k)])
  | _ => [0, 1].flatMap (fun c => (List.range 6).flatMap (fun g =>
      [(F.FADC_CALF_OFS_OFFSET, c * 8 + g), (F.FADC_CALF_GAIN_GAIN, c * 8 + g)]))

/-- The flag of a kind while a write is in progress. -/
def State.nvFlag (s : State) (kind : Nat) : State :=
  let busy := s.field.nvWrites.any (fun (p : Nat × Tab Nat) => p.1 == kind)
  match kind with
  | 0 => s.fset F.FLD_STATUS_NV_VALID 0 (ofBool (!busy))
  | 1 => s.fset F.FDAC_STATUS_NV_BUSY 0 (ofBool busy)
  | _ => s.fset F.FADC_STATUS_NV_BUSY 0 (ofBool busy)

/-- Start a non-volatile write of the values in force. -/
def State.nvStart (s : State) (kind : Nat) : State :=
  let ks := (nvFields kind).map (fun (p : Fld × Nat) => p.1.key p.2)
  let snap : Tab Nat := Tab.keep s.fields (fun k _ => ks.contains k)
  ({ s with field := { s.field with nvWrites := s.field.nvWrites ++ [(kind, snap)] } } : State).nvFlag kind

/-- NV_WRITE_DONE (R282, R292, R297): the oldest write of a kind completes. -/
def execNvWriteDone (kind : Nat) (s : State) : Res :=
  match s.field.nvWrites.find? (fun (p : Nat × Tab Nat) => p.1 == kind) with
  | none => .next s
  | some p =>
    let ks := (nvFields kind).map (fun (p : Fld × Nat) => p.1.key p.2)
    let kept : Tab Nat := Tab.keep s.field.nv (fun k _ => !ks.contains k)
    let s := { s with field := { s.field with
      nv := p.2.foldl (fun t (x : Nat × Nat) => Tab.set t x.1 x.2) kept, nvWrites := s.field.nvWrites.erase p } }
    .next (s.nvFlag kind)

/-- A write that the owning function does not allow (R282). -/
def State.fieldRefuse (s : State) : State := (s.flag F.FLD_STATUS_REFUSED_WRITE 0).fieldEvent 0x0E09 255 255 0

/-! ### The sequencer (R286 to R289) -/

/-- A field of an entry's control word. -/
def State.entBits (s : State) (n lo w : Nat) : Nat := bits (s.fget F.FADC_ENT_CTL_CTL n) lo w

/-- The entries of a loop: from the first to one with LAST set, or to the limit. -/
def State.loopFrom (s : State) (n limit : Nat) : Nat → List Nat
  | 0 => []
  | f + 1 => if limit < n then [] else if s.entBits n 9 1 = 1 || n = limit then [n] else n :: s.loopFrom (n + 1) limit f

/-- Whether the mode is dual, and SPLIT. -/
def State.adcDual (s : State) : Bool := s.fon F.FADC_CFG_MODE 0
/-- The first entry of loop B. -/
def State.adcSplit (s : State) : Nat := s.fget F.FADC_CFG_SPLIT 0

/-- Loop A's entries. -/
def State.loopAEnts (s : State) : List Nat := s.loopFrom 0 (if s.adcDual then s.adcSplit - 1 else 63) 64
/-- Loop B's entries. -/
def State.loopBEnts (s : State) : List Nat := if s.adcDual then s.loopFrom s.adcSplit 63 64 else []

/-- Why START is refused, 0 where it is not (R289). -/
def State.adcReason (s : State) (cal : Bool) : Nat :=
  let a := s.loopAEnts
  let b := s.loopBEnts
  if (a ++ b).any (fun n => decide (6 ≤ s.entBits n 4 3) || s.entBits n 7 2 == 3) then 1
  else if s.adcDual && (a.any (fun n => s.entBits n 7 2 != 0) || b.any (fun n => s.entBits n 7 2 != 1)) then 2
  else if s.adcDual && s.adcSplit == 0 then 3
  else if s.fget F.FADC_STATUS_STATE 0 == 2 || cal then 4 else 0

/-- FADC_CTRL.START (R288 to R290). -/
def State.adcStart (s : State) (cal : Bool) : State :=
  match s.adcReason cal with
  | 0 =>
    let s := (List.range 64).foldl (fun s n => s.fset F.FADC_RES_VALID n 0) s
    let s := { s with field := { s.field with
      loopA := some 0, loopB := if s.adcDual then some s.adcSplit else none, disarmed := [] } }
    s.fset F.FADC_STATUS_STATE 0 1
  | r => ((s.flag F.FADC_STATUS_START_REFUSED 0).fset F.FADC_STATUS_REASON 0 r).fieldEvent 0x0F04 255 255 0

/-- FADC_CTRL.STOP (R289). -/
def State.adcStop (s : State) : State :=
  if s.fget F.FADC_STATUS_STATE 0 != 1 then s
  else ({ s with field := { s.field with loopA := none, loopB := none } } : State).fset F.FADC_STATUS_STATE 0 0

/-- FADC_START (R289). -/
def execFadcStart (cal : Bool) (s : State) : Res := if s.field.ready then .next (s.adcStart cal) else .next s

/-- FADC_STOP (R289). -/
def execFadcStop (s : State) : Res := if s.field.ready then .next s.adcStop else .next s

/-- A corrected code (R285): raw code, converter and gain. -/
def State.corrected (s : State) (r : Int) (conv gain : Nat) : Int :=
  let i := conv * 8 + gain
  let o := sext 20 (s.fget F.FADC_CALF_OFS_OFFSET i)
  let g : Int := s.fget F.FADC_CALF_GAIN_GAIN i
  satS 18 (roundHalfEven ((16 * r - o) * g) (16 * 2 ^ 22))

/-- Whether a raw code lies at an end of the range. -/
def rawSat (r : Int) : Bool := r == -131072 || r == 131071

/-- The corrected codes of an entry; an interleaved entry alternates, starting with converter A. -/
def State.entCodes (s : State) (n : Nat) (raw : List Int) : List Int :=
  raw.zipIdx.map (fun (p : Int × Nat) =>
    let c := match s.entBits n 7 2 with
      | 0 => 0
      | 1 => 1
      | _ => p.2 % 2
    s.corrected p.1 c (s.entBits n 4 3))

/-- A result's window comparator (R290): whether it lies outside, and the state afterwards. -/
def State.adcWindow (s : State) (n : Nat) (v : Int) : Bool × State :=
  let lo := sext 18 (s.fget F.FADC_ENT_WLO_BOUND n)
  let hi := sext 18 (s.fget F.FADC_ENT_WHI_BOUND n)
  let hy : Int := s.fget F.FADC_ENT_HYST_HYST n
  let out := decide (v < lo) || decide (hi < v)
  if s.entBits n 11 1 = 0 then (out, s)
  else if s.field.disarmed.contains n then
    if decide (lo + hy ≤ v) && decide (v ≤ hi - hy) then
      (out, { s with field := { s.field with disarmed := s.field.disarmed.filter (fun m => m != n) } })
    else (out, s)
  else if out then
    let s := { s with field := { s.field with disarmed := s.field.disarmed ++ [n] } }
    let s := s.fset F.FADC_WIN_STATUS_LEFT (n / 32) (setBit (s.fget F.FADC_WIN_STATUS_LEFT (n / 32)) (n % 32))
    (out, (s.count C.FADC_CNT_WIN 0).fieldEventRate 0x0F01 n 255 n 0)
  else (out, s)

/-- An entry's result is sent in a report (R291). -/
def State.adcReport (s : State) (n : Nat) (v : Int) (out sat : Bool) (loop : Nat) : State :=
  if s.entBits n 10 1 = 0 || !s.field.hostHere then s
  else if 2048 < s.bar.field.queue.length then s.count C.FADC_CNT_RPTSKIP 0
  else s.toHost ([5, 0, n, ofBool out + 2 * ofBool sat] ++ bytesOf 4 (toBits 32 v) ++ bytesOf 4 loop)

/-- The entry after one of a loop, and whether the loop is complete. -/
def nextEntry (es : List Nat) (n : Nat) : Nat × Bool :=
  if es.getLast? == some n then (es.headD 0, true) else (n + 1, false)

/-- A loop moves on after an entry. -/
def State.adcAdvance (s : State) (b : Bool) (n : Nat) : State :=
  let (m, done) := nextEntry (if b then s.loopBEnts else s.loopAEnts) n
  let f := if b then F.FADC_LOOP_LOOP_B else F.FADC_LOOP_LOOP_A
  let s := if done then s.fset f 0 (s.fget f 0 + 1) else s
  if b then { s with field := { s.field with loopB := some m } } else { s with field := { s.field with loopA := some m } }

/-- ENTRY_RESULT (R285 to R291). -/
def execEntryResult (n : Nat) (raw : List Int) (s : State) : Res :=
  let isB := s.field.loopB == some n
  if s.fget F.FADC_STATUS_STATE 0 != 1 || !(isB || s.field.loopA == some n) || raw.length != s.entBits n 12 8 + 1
      || raw.any (fun r => decide (r < -131072) || decide (131071 < r)) then .next s
  else
    let sats := raw.countP rawSat
    let sat := decide (0 < sats)
    let s := s.countN C.FADC_CNT_SAT 0 sats
    let s := if sat then s.flag F.FADC_STATUS_SAT_SEEN 0 else s
    let v := roundHalfEven ((s.entCodes n raw).foldl (fun a b => a + b) 0) raw.length
    let (out, s) := s.adcWindow n v
    let loop := s.fget (if isB then F.FADC_LOOP_LOOP_B else F.FADC_LOOP_LOOP_A) 0
    let s := s.fset F.FADC_RES_VALUE n (toBits 18 v)
    let s := s.fset F.FADC_RES_OUT n (ofBool out)
    let s := s.fset F.FADC_RES_SAT n (ofBool sat)
    let s := s.fset F.FADC_RES_VALID n 1
    let s := s.fset F.FADC_RES_LOOP n (loop % 256)
    .next ((s.adcReport n v out sat loop).adcAdvance isB n)

/-- The bounds that a commit would put in force satisfy R290. -/
def State.boundsOk (s : State) : Bool :=
  (List.range 64).all (fun n =>
    let lo := sext 18 (s.staging F.FADC_ENT_WLO_BOUND n)
    let hi := sext 18 (s.staging F.FADC_ENT_WHI_BOUND n)
    let hy : Int := s.staging F.FADC_ENT_HYST_HYST n
    decide (lo ≤ hi) && decide (2 * hy ≤ hi - lo))

/-- FADC_COMMIT.COMMIT; while the field firmware restarts it waits (R290, R406). -/
def State.adcCommit (s : State) : State :=
  if s.field.fw != .running then { s with field := { s.field with commits := s.field.commits ++ [(FieldCommit.bounds, s.staged)] } }
  else if !s.boundsOk then s.flag F.FADC_STATUS_CFG_INVALID 0
  else s.applyAll ((List.range 64).flatMap (fun n =>
    [(F.FADC_ENT_WLO_BOUND, n), (F.FADC_ENT_WHI_BOUND, n), (F.FADC_ENT_HYST_HYST, n)]))

/-- FADC_COMMIT (R290). -/
def execFadcCommit (s : State) : Res := if s.field.ready then .next s.adcCommit else .next s

/-! ### Self-calibration (R292) -/

/-- FADC_CTRL.CAL. -/
def State.adcCal (s : State) : State :=
  if s.fget F.FADC_STATUS_STATE 0 != 0 then (s.flag F.FADC_STATUS_REFUSED_WRITE 0).fieldRefuse
  else ({ s with field := { s.field with calStart := some s.ns } } : State).fset F.FADC_STATUS_STATE 0 2

/-- FADC_CAL (R292). -/
def execFadcCal (s : State) : Res := if s.field.ready then .next s.adcCal else .next s

/-- A quotient as a register value: the spec does not say how it is rounded, so an inexact one takes either
neighbour. -/
def openRound (free : Nat) (n d : Int) : Int :=
  if n % d = 0 then n / d else n / d + (Config.unstated free % 2 : Nat)

/-- Whether a pair of factors lies in the bounds of R292: offset within 512 LSB, gain within 0.99 to 1.01. -/
def calPairOk (x : Int × Int × Int × Int) : Bool :=
  let z := x.1 + x.2.2.2
  let d := x.2.1 - x.2.2.1
  let t : Int := 2359296 * 1024
  decide ((z.natAbs : Int) ≤ 512 * 2048) && decide (0 < d) && decide (99 * 10 * d ≤ 100 * t) && decide (100 * t ≤ 101 * 10 * d)

/-- FADC_CAL_DONE (R292). -/
def execFadcCalDone (sums : List (Int × Int × Int × Int)) (s : State) : Res :=
  match s.field.calStart with
  | none => .next s
  | some t =>
    if s.ns < t + 12800000 || sums.length != 12 then .next s
    else
      let s := { s with field := { s.field with calStart := none } }
      let s := s.fset F.FADC_STATUS_STATE 0 0
      if !sums.all calPairOk then .next ((s.flag F.FADC_STATUS_CAL_FAIL 0).fieldEvent 0x0F03 255 255 0)
      else
        let n := s.free
        let s := sums.zipIdx.foldl (fun s (p : (Int × Int × Int × Int) × Nat) =>
          let i := p.2 / 6 * 8 + p.2 % 6
          let o := openRound (n + 2 * p.2) (p.1.1 + p.1.2.2.2) 128
          let g := openRound (n + 2 * p.2 + 1) (2 ^ 22 * 2359296 * 1024) (10 * (p.1.2.1 - p.1.2.2.1))
          (s.fset F.FADC_CALF_OFS_OFFSET i (toBits 20 o)).fset F.FADC_CALF_GAIN_GAIN i (toBits 24 g)) s
        .next ((s.draw 24).fieldEvent 0x0F02 255 255 0)

/-- CAL_STORE (R292). -/
def execCalStore (s : State) : Res := if s.field.ready then .next (s.nvStart 2) else .next s

/-- MONITOR_REPORT (R291): only while the host is present. -/
def execMonitorReport (temp : Int) (supply rail : Nat) (s : State) : Res :=
  if !s.field.ready || !s.field.hostHere then .next s
  else .next (s.toHost ([5, 1] ++ bytesOf 2 (toBits 16 temp) ++ bytesOf 2 supply ++ bytesOf 2 rail))

/-! ### Analogue outputs (R293 to R298) -/

/-- An analogue output. -/
def State.ao (s : State) (k : Nat) : AnaOut := Tab.getD s.field.aos k {}

/-- Replace an analogue output. -/
def State.setAo (s : State) (k : Nat) (x : AnaOut) : State := { s with field := { s.field with aos := Tab.set s.field.aos k x } }

/-- The safe code of a span (Table 12.5). -/
def safeCode (span : Nat) : Nat := if span = 2 || span = 3 then 32768 else 0

/-- Put a code in force, with a deglitch hold for a major transition (R295); `st` is the state to show
without a hold. -/
def State.aoCode (s : State) (k code st : Nat) : State :=
  let x := s.ao k
  let major := s.fon F.FDAC_CFG_DEGLITCH k && code / 4096 % 16 != s.fget F.FDAC_OUT_CODE k / 4096
  let s := s.setAo k { x with hold := if major then some (s.ns + 1500) else none }
  let s := s.fset F.FDAC_OUT_CODE k code
  s.fset F.FDAC_OUT_STATE k (if major && st == 1 then 2 else st)

/-- Apply an output's waiting code. -/
def State.aoApply (s : State) (k : Nat) : State :=
  let x := s.ao k
  match x.waiting with
  | none => s
  | some c =>
    let s := s.setAo k { x with waiting := none, last := some s.ns, policy := false }
    if x.span = 7 then s.fset F.FDAC_OUT_CODE k c else s.aoCode k c 1

/-- A code arrives at an output (R294); while the host is absent the policy holds it. -/
def State.aoSet (s : State) (k code : Nat) : State :=
  if !s.field.hostHere then s
  else
    let x := s.ao k
    let s := if x.waiting.isSome then s.count C.FDAC_CNT_COALESCE 0 else s
    s.setAo k { x with waiting := some (code % 65536) }

/-- FDAC_SET (R294): a code for the output that FDAC_SEL selects. -/
def execFdacSet (code : Nat) (s : State) : Res :=
  if s.field.ready then .next (s.aoSet (s.fget F.FDAC_SEL_OUTPUT 0) code) else .next s

/-- UPDATE_APPLY (R294). -/
def execUpdateApply (k : Nat) (s : State) : Res :=
  let x := s.ao k
  if 4 ≤ k || !s.field.ready || x.hold.isSome || x.change.isSome || x.last.any (fun t => decide (s.ns < t + 1000)) then .next s
  else .next (s.aoApply k)

/-- DEGLITCH_HOLD_END (R295). -/
def execDeglitchHoldEnd (k : Nat) (s : State) : Res :=
  let x := s.ao k
  match x.hold with
  | none => .next s
  | some t =>
    if s.ns < t then .next s
    else
      let s := s.setAo k { x with hold := none }
      .next (if s.fget F.FDAC_OUT_STATE k = 2 then s.fset F.FDAC_OUT_STATE k 1 else s)

/-- A span change begins (Table 12.7, step 2): the old safe value, or nothing from OFF. -/
def State.aoChange (s : State) (k new : Nat) : State :=
  let x := s.ao k
  let s := if x.span = 7 then s else s.aoCode k (safeCode x.span) 3
  (s.setAo k { s.ao k with change := some (s.ns, new, false) }).fset F.FDAC_OUT_STATE k 3

/-- The span that an output will have once everything queued has run. -/
def AnaOut.target (x : AnaOut) : Nat := x.queued.getLastD (x.change.elim x.span (fun c => c.2.1))

/-- A commit asks an output for a span. -/
def State.aoSpan (s : State) (k new : Nat) : State :=
  let x := s.ao k
  if x.target = new then s
  else if x.change.isSome then s.setAo k { x with queued := x.queued ++ [new] }
  else s.aoChange k new

/-- An output takes its host-absent policy (R297). -/
def State.aoPolicy (s : State) (k : Nat) : State :=
  let x := s.ao k
  let s := s.setAo k { x with policy := true, waiting := none }
  if x.change.isSome then s
  else if x.span = 7 then s.fset F.FDAC_OUT_STATE k 0
  else match s.fget F.FDAC_POL_ACTION k with
    | 0 => s.fset F.FDAC_OUT_STATE k 0
    | 1 => s.fset F.FDAC_OUT_STATE k 4
    | 2 => (s.fset F.FDAC_OUT_CODE k (safeCode x.span)).fset F.FDAC_OUT_STATE k 4
    | _ => (s.fset F.FDAC_OUT_CODE k (s.fget F.FDAC_POL_CODE k)).fset F.FDAC_OUT_STATE k 4

/-- A span change has ended: the next one begins, a waiting code is applied, or the policy holds. -/
def State.aoEnd (s : State) (k : Nat) : State :=
  let x := s.ao k
  match x.queued with
  | n :: r =>
    let s := s.setAo k { x with queued := r }
    s.aoChange k n
  | [] => if x.policy then s.aoPolicy k else if x.span = 7 then s else s.aoApply k

/-- SPAN_SWITCH (Table 12.7, step 3). -/
def execSpanSwitch (k : Nat) (s : State) : Res :=
  let x := s.ao k
  match x.change with
  | some (t, new, false) =>
    if s.ns < t + 25000 then .next s
    else if new = 7 then
      let s := s.setAo k { x with span := 7, change := none, hold := none }
      .next ((s.fset F.FDAC_OUT_STATE k 0).aoEnd k)
    else
      let s := s.setAo k { x with span := new, change := some (t, new, true), hold := none }
      .next (s.fset F.FDAC_OUT_CODE k (safeCode new))
  | _ => .next s

/-- SPAN_CHANGE_END (Table 12.7, step 4). -/
def execSpanChangeEnd (k : Nat) (s : State) : Res :=
  let x := s.ao k
  match x.change with
  | some (t, _, true) =>
    if s.ns < t + 50000 then .next s
    else
      let s := s.setAo k { x with change := none }
      .next ((s.fset F.FDAC_OUT_STATE k 1).aoEnd k)
  | _ => .next s

/-- FDAC_COMMIT.COMMIT; while the field firmware restarts it waits (R296, R297, R406). -/
def State.dacCommit (s : State) (nv : Bool) : State :=
  if s.field.fw != .running then { s with field := { s.field with commits := s.field.commits ++ [(FieldCommit.spans nv, s.staged)] } }
  else if (List.range 4).any (fun k => [5, 6].contains (s.staging F.FDAC_CFG_SPAN k)) then s.flag F.FDAC_STATUS_CFG_INVALID 0
  else
    let s := s.applyAll (nvFields 1)
    let s := (List.range 4).foldl (fun s k => s.aoSpan k (s.fget F.FDAC_CFG_SPAN k)) s
    if nv then s.nvStart 1 else s

/-- FDAC_COMMIT (R296, R297). -/
def execFdacCommit (nv : Bool) (s : State) : Res := if s.field.ready then .next (s.dacCommit nv) else .next s

/-- OPEN_LOOP (R298): an output in the current span that drives. -/
def execOpenLoop (k : Nat) (s : State) : Res :=
  if 4 ≤ k || !s.field.ready || (s.ao k).span != 4 || s.fget F.FDAC_OUT_STATE k == 0 || s.fon F.FDAC_OUT_OPEN_LOOP k then .next s
  else
    let s := s.flag F.FDAC_OUT_OPEN_LOOP k
    let s := s.flag F.FDAC_STATUS_OPEN_LOOP_SEEN 0
    .next ((s.count C.FDAC_CNT_OPENLOOP 0).fieldEvent 0x1001 255 k 0)

/-- OPEN_LOOP_CLEAR (R298). -/
def execOpenLoopClear (k : Nat) (s : State) : Res :=
  if 4 ≤ k then .next s else .next (s.fset F.FDAC_OUT_OPEN_LOOP k 0)

end Sys2Proof.Machine
end

