-- ==== Sys2Proof/Machine/FieldReg.lean ====
section
/-! DEFINITION. The field controller's registers (R267, R279 to R282, R289, R406): the enable and disable of a
lane, the policy commit, register writes and reads by field address, and the proxy in the field gateway
window. -/

namespace Sys2Proof.Machine

/-! ### Enabling a lane (R267) -/

/-- The lanes that are enabled once lane `l` is. -/
def State.withLane (s : State) (l : Nat) : List Nat := s.fLanes.filter (fun m => m != l) ++ [l]

/-- Check 0x1: the record's own values. -/
def State.recordOk (s : State) (l : Nat) : Bool :=
  let b (o : Nat) : Nat := s.lrByte l o
  b 0 / 128 == 0 && bits (b 0) 4 2 != 0 && b 1 / 4 == 0 && decide (b 2 ≤ 15) && b 3 == 0 && b 9 == 0 && b 52 == 0
    && (rangeFrom 68 28).all (fun o => b o == 0)
    && decide (1 ≤ s.lrNum l 6 2) && decide (s.lrNum l 4 2 + s.lrNum l 6 2 ≤ 4096)
    && decide (1 ≤ s.lrPulse l) && decide (2 ≤ s.lrPitch l) && decide (s.lrNum l 16 4 < 2 ^ 31)
    && (s.lrOuts l).all (fun k => decide (1 ≤ s.lrNum l (20 + 4 * k) 4) && decide (s.lrNum l (20 + 4 * k) 4 < 2 ^ 31))

/-- Check 0x2: the slot ranges of two lanes do not overlap. -/
def State.slotsApart (s : State) (l m : Nat) : Bool :=
  decide (s.lrNum l 4 2 + s.lrNum l 6 2 ≤ s.lrNum m 4 2) || decide (s.lrNum m 4 2 + s.lrNum m 6 2 ≤ s.lrNum l 4 2)

/-- Check 0x3: CLASS_MAP lies within OUT_MASK. -/
def State.classesOk (s : State) (l : Nat) : Bool :=
  (List.range 16).all (fun c => (List.range 8).all (fun k => !(s.lrByte l (52 + c)).testBit k || (s.lrByte l 8).testBit k))

/-- Check 0x5: the queue entries that the lanes may need on an output. -/
def State.queueNeed (s : State) (l k : Nat) : Nat :=
  let ls := (s.withLane l).filter (fun m => (s.lrByte m 8).testBit k)
  (ls.map (fun m => ceilDiv (s.lrNum m (20 + 4 * k) 4 + s.lrPulse m) (2 * s.lrPitch m) + 1)).sum

/-- The largest due offset of a lane; VT_OFFSET where it uses no output (R268). -/
def State.dueMax (s : State) (l : Nat) : Nat :=
  match (s.lrOuts l).map (fun k => s.lrNum l (20 + 4 * k) 4) with
  | [] => s.lrNum l 16 4
  | o :: r => r.foldl Nat.max o

/-- Check 0x6: the item records that the lanes may need. -/
def State.recordNeed (s : State) (l : Nat) : Nat :=
  ((s.withLane l).map (fun m => ceilDiv (s.dueMax m + s.lrPulse m) (s.lrPitch m) + 1)).sum

/-- The first check that refuses a lane, with the output of check 0x5; 0 where all pass. -/
def State.enableReason (s : State) (l : Nat) : Nat × Nat :=
  if !s.recordOk l then (1, 0)
  else if !(s.fLanes.filter (fun m => m != l)).all (s.slotsApart l) then (2, 0)
  else if !s.classesOk l then (3, 0)
  else if s.lrPitch l ≤ s.lrPulse l then (4, 0)
  else match (List.range 8).find? (fun k => decide (2048 < s.queueNeed l k)) with
    | some k => (5, k)
    | none =>
      if 65536 < s.recordNeed l then (6, 0)
      else if s.encBad (s.lrEnc l) then (7, 0) else (0, 0)

/-- FLD_LANE_CTRL.ENABLE (R267). -/
def State.enableLane (s : State) (l : Nat) : State :=
  if s.fLane l != 0 then s
  else match s.enableReason l with
    | (0, _) =>
      let s := s.fset F.FLD_LANE_STATUS_STATE l 1
      ({ s with field := { s.field with counts := Tab.set s.field.counts l 0 } } : State).fieldRefresh
    | (r, k) =>
      let s := s.flag F.FLD_STATUS_LANE_REFUSED 0
      let s := s.fset F.FLD_LANE_STATUS_REASON l r
      let s := if r = 5 then s.fset F.FLD_LANE_STATUS_OUTPUT l k else s
      s.fieldEvent 0x0E08 l (if r = 5 then k else 255) 0

/-- FLD_LANE_CTRL.DISABLE (R267). -/
def State.disableLane (s : State) (l : Nat) : State :=
  if s.fLane l = 1 then (s.fset F.FLD_LANE_STATUS_STATE l 2).fieldRefresh else s

/-- LANE_ENABLE (R267); a lane is part of the configuration that a field activation freezes (R406). -/
def execLaneEnable (lane : Nat) (s : State) : Res :=
  if !s.field.ready || 64 ≤ lane then .next s
  else if s.field.fw != .running then .next s.fieldRefuse else .next (s.enableLane lane)

/-- LANE_DISABLE (R267). -/
def execLaneDisable (lane : Nat) (s : State) : Res :=
  if !s.field.ready || 64 ≤ lane then .next s
  else if s.field.fw != .running then .next s.fieldRefuse else .next (s.disableLane lane)

/-! ### The policy commit (R279, R282) -/

/-- FLD_COMMIT; while the field firmware restarts it waits (R406). -/
def State.fldCommit (s : State) (nv : Bool) : State :=
  if s.field.fw != .running then { s with field := { s.field with commits := s.field.commits ++ [(FieldCommit.policy nv, s.staged)] } }
  else
    let t := s.staging F.FLD_HOST_TO_TO 0
    if t < 2 || 1000 < t || (rangeFrom 8 16).any (fun k => s.staging F.FLD_POL_ACTION k == 3) then
      s.flag F.FLD_STATUS_CFG_INVALID 0
    else
      let s := s.applyAll ((F.FLD_GPO_SRC_SRC, 0) :: nvFields 0)
      let s := if nv then s.nvStart 0 else s
      s.fieldRefresh

/-- FLD_COMMIT (R282). -/
def execFldCommit (nv : Bool) (s : State) : Res := if s.field.ready then .next (s.fldCommit nv) else .next s

/-- A commit of the field section. -/
def State.runCommit (s : State) (c : FieldCommit) : State :=
  match c with
  | .policy nv => s.fldCommit nv
  | .bounds => s.adcCommit
  | .spans nv => s.dacCommit nv

/-- Replace the staged values. -/
def State.restage (s : State) (l : Tab Nat) : State := { s with staged := l }

/-- A commit that waited takes effect with the values that were staged when it was written (R16). -/
def State.lateCommit (s : State) (p : FieldCommit × Tab Nat) : State :=
  ((s.restage p.2).runCommit p.1).restage s.staged

/-- The commits that waited take effect in order (R406). -/
def State.runCommits (s : State) : State :=
  s.field.commits.foldl State.lateCommit { s with field := { s.field with commits := [] } }

/-! ### Registers by field address (R282, R302) -/

/-- Whether the function that owns a register's RWS fields runs, so that a write is refused (R267, R289,
R406). -/
def State.fieldOwned (s : State) (off : Nat) : Bool :=
  if s.field.fw != .running then true
  else match off with
    | 0xD10044 => s.fLane (s.fget F.FLD_LANE_SEL_LANE 0) != 0
    | 0xD10024 => s.fLanes.any (fun l => s.lrByte l 0 % 16 == s.fget F.FLD_TRIG_SEL_TRIGGER 0)
    | 0xD10034 => s.fLanes.any (fun l => s.lrEnc l == s.fget F.FLD_ENC_SEL_ENCODER 0)
    | 0xD10054 => s.fLanes.any (fun l => (s.lrByte l 8).testBit (s.fget F.FLD_REJ_SEL_OUTPUT 0))
    | _ => s.fget F.FADC_STATUS_STATE 0 != 0

/-- Whether a select register's value selects nothing at a window register. -/
def State.fieldNothing (s : State) (off : Nat) : Bool :=
  match off with
  | 0xD10044 => decide (24 ≤ s.fget F.FLD_LANE_SEL_WORD 0)
  | 0xD10014 => decide (24 ≤ s.fget F.FLD_POL_SEL_OUTPUT 0)
  | 0xD11024 => decide (6 ≤ s.fget F.FADC_CALF_SEL_GAIN 0)
  | 0xD11028 => decide (6 ≤ s.fget F.FADC_CALF_SEL_GAIN 0)
  | _ => false

/-- A write to a register without an operation of its own. -/
def State.fieldPlain (s : State) (off v : Nat) : State :=
  match regAt off with
  | none => s
  | some (r, i) =>
    if r.cntCtrl then s.writeCntCtrl r i v
    else if s.fieldNothing off then s
    else if r.rws && s.fieldOwned off then
      (if 0xD11000 ≤ off then s.flag F.FADC_STATUS_REFUSED_WRITE 0 else s).fieldRefuse
    else s.writeReg r (s.selInst off i) v

/-- FADC_CTRL (R289, R292). -/
def State.adcCtrl (s : State) (v : Nat) : State :=
  let s := if bit v 0 then s.adcStart (bit v 2) else s
  let s := if bit v 1 then s.adcStop else s
  let s := if bit v 2 then s.adcCal else s
  if bit v 3 then s.nvStart 2 else s

/-- FLD_LANE_CTRL: ENABLE, then DISABLE; both are refused while the configuration is frozen (R406). -/
def State.laneCtrl (s : State) (v : Nat) : State :=
  let l := s.fget F.FLD_LANE_SEL_LANE 0
  if s.field.fw != .running then s.fieldRefuse
  else
    let s := if bit v 0 then s.enableLane l else s
    if bit v 1 then s.disableLane l else s

/-- What a read of a field register returns. -/
def State.fieldRead (s : State) (addr : Nat) : Nat :=
  let off := 0xD10000 + addr
  if off = 0xD10074 then s.vtGet (s.fget F.FLD_VT_SEL_SLOT 0)
  else if s.fieldNothing off then 0
  else match regAt off with
    | none => 0
    | some (r, i) => s.regWord r (s.selInst off i)

/-- A configuration write at the field controller (R260): a write to FLD_RDREQ is answered. -/
def State.fieldWrite (s : State) (addr v : Nat) : State :=
  match addr with
  | 0x0008 => s.toHost ([9, 0] ++ bytesOf 2 (v % 65536) ++ bytesOf 4 (s.fieldRead (v % 65536)) ++ bytesOf 2 (v / 65536))
  | 0x001C => if bit v 0 then s.fldCommit (bit v 1) else s
  | 0x0048 => s.laneCtrl v
  | 0x1008 => s.adcCtrl v
  | 0x1010 => if bit v 0 then s.adcCommit else s
  | 0x2014 => if bit v 0 then s.dacCommit (bit v 1) else s
  | 0x2018 => s.aoSet (s.fget F.FDAC_SEL_OUTPUT 0) (v % 65536)
  | _ => (s.fieldPlain (0xD10000 + addr) v).fieldRefresh

/-- CONFIG_WRITE (R260, R281, R282). -/
def execConfigWrite (s : State) : Res :=
  s.onMsg true (isType 8) (fun s m => s.fieldWrite (leAt m 2 2) (leAt m 4 4))

/-! ### The proxy (R281) -/

/-- The host section's copy of a field register that a passed write leaves (R215, R266). -/
def State.copyWrite (s : State) (addr v : Nat) : State :=
  let c (k : Nat) : Nat := Tab.getD s.bar.copies k 0
  let k := if addr = 0x44 then bits (c 0x10040) 0 6 * 24 + bits (c 0x10040) 8 5 else 0x10000 + addr
  if addr = 0x44 && 24 ≤ bits (c 0x10040) 8 5 then s
  else { s with bar := { s.bar with copies := Tab.set s.bar.copies k v } }

/-- A passed write that changes an admitted lane's field record, or disables its field lane, suspends the lane
(R215). -/
def State.copySuspend (s : State) (addr v : Nat) : State :=
  let l := bits (Tab.getD s.bar.copies 0x10040 0) 0 6
  if (addr = 0x44 || (addr = 0x48 && bit v 1)) && (s.lane l).field then s.suspend l 2 0x31 else s

/-- A proxied write: posted, or lost. -/
def State.proxyPost (s : State) (addr v : Nat) : State :=
  if !s.bar.up || !s.bar.fieldHere then s.writesLost 1
  else ((s.copySuspend addr v).copyWrite addr v).toField (msgConfig addr v)

/-- Whether an access is a 32-bit access of the PF to the proxy window (R12, R441); the field controller itself
discards one to an address it does not define. -/
def proxied (a : Access) (write : Bool) : Bool :=
  a.func == 0 && a.bar == 0 && a.write == write && a.size == 4 && a.off % 4 == 0
    && decide (0xD10000 ≤ a.off) && decide (a.off < 0xD20000)

/-- PROXY_WRITE (R281). -/
def execProxyWrite (a : Access) (value : Nat) (s : State) : Res :=
  if s.power.slotPower && proxied a true then .next (s.proxyPost (a.off - 0xD10000) (value % 2 ^ 32)) else .next s

/-- Hand over the next read of a REG_READ, or answer it. -/
def State.proxyNext (s : State) (p : ProxyRead) : State :=
  let t := s.bar.proxyTag
  let s := { s with bar := { s.bar with proxyTag := (t + 1) % 65536, proxy := s.bar.proxy ++ [{ p with tag := t, since := s.ns }] } }
  s.toField (msgConfig 8 (p.addr + 65536 * t))

/-- A proxied read times out: 0, flagged, logged. -/
def State.proxyFail (s : State) : State := (s.flag F.FLD_GW_STATUS_PROXY_TIMEOUT 0).log { code := 0x0E0A }

/-- A proxied read has its value; one of the host section's own tells a command whether its field lane is on. -/
def State.proxyDone (s : State) (p : ProxyRead) (v : Nat) : State :=
  match p.own with
  | some q => s.fieldTold q (v % 4 == 1)
  | none =>
    match p.sess with
    | none => { s with readData := [v] }
    | some (id, tag) => s.answer id 0x0010 tag 0 ((p.got ++ [v]).flatMap (bytesOf 4))

/-- Run a proxied read: handed over, or timed out at once where the field section is not present, the link is
down, or a write was lost since the last read; the next words of a REG_READ follow. -/
def State.proxyRun (s : State) : Nat → ProxyRead → State
  | 0, p => s.proxyDone p 0
  | n + 1, p =>
    if s.bar.up && s.bar.fieldHere && !s.bar.lostWrite then s.proxyNext p
    else
      let s := { s with bar := { s.bar with lostWrite := false } }
      let s := s.proxyFail
      if p.more = 0 then s.proxyDone p 0
      else s.proxyRun n { p with addr := (p.addr + 4) % 65536, more := p.more - 1, got := p.got ++ [0] }

/-- A word of a proxied read has come: the next one follows, or the read ends. -/
def State.proxyWord (s : State) (p : ProxyRead) (v : Nat) : State :=
  if p.more = 0 then s.proxyDone p v
  else s.proxyRun p.more { p with addr := (p.addr + 4) % 65536, more := p.more - 1, got := p.got ++ [v] }

/-- Start a proxied read of `n` words. -/
def State.proxyAsk (s : State) (func addr n : Nat) (sess : Option (Nat × Nat)) : State :=
  s.proxyRun n { func := func, addr := addr, tag := 0, since := s.ns, sess := sess, more := n - 1, got := [] }

/-- PROXY_READ (R281). -/
def execProxyRead (a : Access) (s : State) : Res :=
  if s.power.slotPower && proxied a false then .next (s.proxyAsk a.func (a.off - 0xD10000) 1 none) else .next s

/-- Take a proxied read away. -/
def State.proxyDrop (s : State) (p : ProxyRead) : State :=
  { s with bar := { s.bar with proxy := s.bar.proxy.filter (fun q => q != p) } }

/-- CONFIG_READ_REPLY (R281): it completes the proxied read with its tag. -/
def execConfigReadReply (s : State) : Res :=
  s.onMsg false (isType 9) (fun s m =>
    match s.bar.proxy.find? (fun p => p.tag == leAt m 8 2) with
    | none => s
    | some p => (s.proxyDrop p).proxyWord p (leAt m 4 4))

/-- PROXY_READ_TIMEOUT (R281). -/
def execProxyReadTimeout (s : State) : Res :=
  match s.bar.proxy with
  | [] => .next s
  | p :: _ =>
    if s.ns < p.since + 5000 then .next s
    else
      let s := s.proxyDrop p
      .next ((if p.own.isSome then s else s.proxyFail).proxyWord p 0)

/-- FLD_GW_COMMIT (R281). -/
def execFldGwCommit (s : State) : Res :=
  let v := s.staging F.FLD_GW_CFG_FIELD_TO 0
  if v < 2 || 1000 < v then .next (s.flag F.FLD_GW_STATUS_CFG_INVALID 0)
  else .next (s.applyStaged F.FLD_GW_CFG_FIELD_TO 0)

end Sys2Proof.Machine
end

