-- ==== Sys2Proof/Machine/PowerOps.lean ====
section
/-! DEFINITION. Shared operations of supplies and temperature (R415, R425 to R430): admission's freeze, the
withdrawal of levels, and the orderly stop. -/

namespace Sys2Proof.Machine

/-- ADM_STATUS.FROZEN as the level in force, module power and the orderly stop ask for it (R415, R426,
R430). -/
def State.frozen (s : State) : State :=
  s.fset F.ADM_STATUS_FROZEN 0 (ofBool
    (decide (2 ≤ s.fget F.GLB_THM_STATUS_LEVEL 0) || s.power.overpower || s.fon F.GLB_THM_STATUS_STOPPING 0))

/-- The orderly stop begins (R430, step 1): cause, and drain in ns. -/
def State.stopBegin (s : State) (cause drain : Nat) : State :=
  if s.fon F.GLB_THM_STATUS_STOPPING 0 || s.fget F.GLB_PWR_STATUS_STATE 0 = 0 then s
  else
    let s := (s.flag F.GLB_THM_STATUS_STOPPING 0).frozen
    let ls := (List.range 64).filter s.laneUp
    let s := ls.foldl (fun s l => (s.suspend l 4 0xFFFF).breakLane l 3) s
    { s with power := { s.power with stop := some (cause, s.ns + drain) } }

/-- The drain that GLB_THM_MISC sets, ns. -/
def State.drainNs (s : State) : Nat := s.fget F.GLB_THM_MISC_DRAIN 0 * 100000

/-- An accepted item that is not delivered ends (R430, step 3). -/
def State.stopItem (s : State) (n : Nat) : State :=
  match s.item n with
  | none => s
  | some x =>
    if x.delivered then s
    else
      let s := if x.state == .created || x.state == .running || x.state == .formed then s.withholdItem n else s
      ((s.completeItem n 0x44 0xFF)).closeItem n

/-- Every core stops and its rails go off: nothing runs, and cells, SRAM and tiles lose what they held. -/
def State.coresOff (s : State) : State :=
  let cs := (List.range 32).filter (fun c => s.fget F.CORE_STATUS_STATE c != 4)
  let s := cs.foldl (fun s c =>
    let s := s.fset F.CORE_STATUS_STATE c 0
    (List.range 36).foldl (fun s e => s.fset F.ENG_STATUS_CAL_VALID (eng c e) 0) s) s
  { s with
    engines := [], tiles := [], rst := [], seqs := [], sram := []
    cores := Tab.mapv s.cores (fun _ (x : CoreSt) => { CoreSt.empty with place := x.place })
    fab := { s.fab with net := [], held := [] }
    rel := { s.rel with samples := [], returned := [], failovers := [] } }

/-- The orderly stop's drain ends (R430, steps 3 to 6). -/
def State.stopEnd (s : State) (cause : Nat) : State :=
  let s := (s.items.map Prod.fst).foldl (fun s n => s.stopItem n) s
  let s := ({ s with bar := { s.bar with hostState := 2 } } : State).sendHostState
  let s := s.coresOff
  let s := s.fset F.GLB_PWR_STATUS_STATE 0 3
  let s := { s with power := { s.power with stop := none } }
  s.log { code := 0x0103, argA := cause }

/-! ### The rates of rise (R425 to R428) -/

/-- A channel's scaled value. -/
def State.hkVal (s : State) (ch : Nat) : Int := sext 16 (s.fget F.HK_CH_DATA_VALUE ch)

/-- The round that a rise counts from: the latest one that ended at least 10 ms before. -/
def thenRound (now : Nat) (rs : List (Nat × Tab Int)) : Option (Nat × Tab Int) :=
  (rs.filter (fun (r : Nat × Tab Int) => decide (r.1 + 10000000 ≤ now))).getLast?

/-- A die channel's rise as a fraction: 1/16 °C per 10 ms times the denominator. -/
def State.chRise (s : State) (t : Option (Nat × Tab Int)) (ch : Nat) : Int :=
  match t with
  | none => 0
  | some r => (s.hkVal ch - Tab.getD r.2 ch 0) * 10000000

/-- The denominator of every rise. -/
def riseDen (now : Nat) (t : Option (Nat × Tab Int)) : Nat := t.elim 1 (fun r => Nat.max 1 (now - r.1))

/-- A core's rise: the larger of its two channels. -/
def State.coreRise (s : State) (t : Option (Nat × Tab Int)) (c : Nat) : Int :=
  max (s.chRise t (2 * c)) (s.chRise t (2 * c + 1))

/-- The device rise: the largest over channels 0 to 71. -/
def State.deviceRise (s : State) (t : Option (Nat × Tab Int)) : Int :=
  (List.range 72).foldl (fun m ch => max m (s.chRise t ch)) (s.chRise t 0)

/-- A core's hotter sensor. -/
def State.coreTemp (s : State) (c : Nat) : Int := max (s.hkVal (2 * c)) (s.hkVal (2 * c + 1))

/-- A 12-bit limit register as a temperature. -/
def State.limit (s : State) (f : Fld) : Int := s.fget f 0

/-- Since when a condition has held: the time it began plus one, kept while it holds. -/
def sinceWhen (t : Tab Nat) (k : Nat) (ok : Bool) (now : Nat) : Tab Nat :=
  if !ok then Tab.erase t k else if (Tab.find t k).isSome then t else Tab.set t k (now + 1)

/-- The 100 ms window that a time lies in (Table 15.5). -/
def State.meanWindow (s : State) : Nat := (s.ns - s.bootNs) / 100000000

/-- At the end of a 100 ms window its samples give the means that foreign readers see; a mean that is no whole
number is either neighbour. -/
def State.rollMeans (s : State) : State :=
  if s.hk.window = s.meanWindow then s
  else
    let n := s.free
    let ms := s.hk.sums.zipIdx.foldl (fun (t : Tab Int) (p : (Nat × Int × Nat) × Nat) =>
      Tab.set t p.1.1 (openRound (n + p.2) p.1.2.1 p.1.2.2)) s.hk.means
    { s with free := n + s.hk.sums.length, hk := { s.hk with window := s.meanWindow, sums := [], means := ms } }

/-- Add a sample to the 100 ms window in progress. -/
def State.sample (s : State) (k : Nat) (v : Int) : State :=
  let p := Tab.getD s.hk.sums k (0, 0)
  { s with hk := { s.hk with sums := Tab.set s.hk.sums k (p.1 + v, p.2 + 1) } }

/-- The registers that show temperatures and rises; a rise that is no whole number of units shows as either
neighbour. -/
def State.showRises (s : State) (t : Option (Nat × Tab Int)) : State :=
  let d : Int := riseDen s.ns t
  let n := s.free
  let s := (List.range 32).foldl (fun s c =>
    let s := s.fset F.GLB_THM_DATA_TJ c (toBits 16 (s.coreTemp c))
    let r := satS 16 (openRound (n + c) (s.coreRise t c) d)
    ((s.fset F.GLB_THM_DATA_RISE c (toBits 16 r)).sample (129 + c) (s.coreTemp c)).sample (161 + c) r) s
  let r := satS 16 (openRound (n + 32) (s.deviceRise t) d)
  ((s.fset F.GLB_THM_STATUS_RISE_MAX 0 (toBits 16 r)).sample 193 r).draw 33

/-- The levels that the rises reach (R426). -/
def State.riseLevels (s : State) (t : Option (Nat × Tab Int)) : State :=
  let d : Int := riseDen s.ns t
  let dev := s.deviceRise t
  let r1 : Int := s.fget F.GLB_THM_RISE_RISE1 0
  let r2 : Int := s.fget F.GLB_THM_RISE_RISE2 0
  let r3 : Int := s.fget F.GLB_THM_RISE_RISE3 0
  let hot := (List.range 32).filter (fun c => decide (r1 * d ≤ s.coreRise t c))
  let s := hot.foldl (fun s c => s.halvePeriod c) s
  let s := s.raiseLevel (if r3 * d ≤ dev then 3 else if r2 * d ≤ dev then 2 else if hot.isEmpty then 0 else 1)
  let b := s.power.below
  let b := sinceWhen b 2 (decide (2 * dev < r2 * d)) s.ns
  let b := sinceWhen b 3 (decide (2 * dev < r3 * d)) s.ns
  let b := (List.range 32).foldl (fun b c => sinceWhen b (16 + c) (decide (2 * s.coreRise t c < r1 * d)) s.ns) b
  { s with power := { s.power with below := b } }

/-- The guardband (R428). -/
def State.guardBand (s : State) : State :=
  let g := s.limit F.GLB_THM_ABS_GUARD_C
  let s := (List.range 32).foldl (fun s c => if g ≤ s.coreTemp c then s.guardOn c else s) s
  let cool := (List.range 32).foldl (fun t c => sinceWhen t c (decide (s.coreTemp c < g - 80)) s.ns) s.power.cool
  { s with power := { s.power with cool := cool } }

/-- The stop thresholds (R430). -/
def State.stopLimits (s : State) : State :=
  let s := if (List.range 72).any (fun ch => decide (s.limit F.GLB_THM_ABS_STOP_C ≤ s.hkVal ch)) then s.stopBegin 1 s.drainNs else s
  if (rangeFrom 72 4).any (fun ch => decide (s.limit F.GLB_THM_MISC_DRAM_STOP ≤ s.hkVal ch)) then s.stopBegin 2 s.drainNs else s

/-- Thermal control after a housekeeping round (R425 to R430). -/
def State.thermalRound (s : State) : State :=
  let t := thenRound s.ns s.power.rounds
  let now : Nat × Tab Int := (s.ns, (List.range 72).map (fun ch => (ch, s.hkVal ch)))
  let s := s.showRises t
  let s := s.stopLimits
  let s := if s.fon F.GLB_THM_STATUS_STOPPING 0 then s else (s.riseLevels t).guardBand
  let keep := s.power.rounds.filter (fun (r : Nat × Tab Int) => t.elim true (fun x => decide (x.1 ≤ r.1)))
  { s with power := { s.power with rounds := keep ++ [now] } }

/-! ### Withdrawal (R427, R428) -/

/-- Whether a condition has held for 100 ms. -/
def heldFor100 (t : Tab Nat) (k now : Nat) : Bool := (Tab.find t k).any (fun x => decide (x + 100000000 ≤ now + 1))

/-- Whether a level may be withdrawn; level 3 also stands while a core is beyond the guardband (R428). -/
def State.mayWithdraw (s : State) (k : Nat) : Bool :=
  s.fget F.GLB_THM_STATUS_LEVEL 0 == k && !s.fon F.GLB_THM_STATUS_STOPPING 0
    && match k with
      | 3 => heldFor100 s.power.below 3 s.ns && s.power.guard.isEmpty
      | 2 => heldFor100 s.power.below 2 s.ns
      | 1 => (List.range 32).all (fun c => !(s.restorer c).halved || heldFor100 s.power.below (16 + c) s.ns)
      | _ => false

/-- The level after one is withdrawn: the next lower one in force. -/
def State.lowerLevel (s : State) (k : Nat) : Nat :=
  if k = 3 then 2 else if k = 2 && (List.range 32).any (fun c => (s.restorer c).halved) then 1 else 0

/-- Withdraw the level in force; the level it changes to is logged and counted (R427). -/
def State.withdraw (s : State) (k : Nat) : State :=
  let s :=
    if k = 3 then
      let s := ({ s with power := { s.power with slow := false, suspended := [] } } : State).fset F.GLB_CLK_STATUS_GUARD 0 0
      (List.range 64).foldl (fun s l => s.unsuspend l 1) s
    else if k = 1 then { s with rst := Tab.mapv s.rst (fun _ (r : Restorer) => { r with halved := false }) }
    else s
  let n := s.lowerLevel k
  (s.levelChange n).frozen

end Sys2Proof.Machine
end

