-- ==== Sys2Proof/Machine/HkMon.lean ====
section
/-! DEFINITION. The housekeeping monitor (R299 to R303, R415 to R417): its two loops and their results, window
comparators, rounds, the field temperature, and the analogue setpoints that the host section sends. -/

namespace Sys2Proof.Machine

/-! ### The table (R299) -/

/-- A field of an entry word. -/
def State.hkBits (s : State) (n lo w : Nat) : Nat := bits (s.fget F.HK_ENT_DATA_WORD n) lo w
/-- The first channel of an entry. -/
def State.hkFirst (s : State) (n : Nat) : Nat := s.hkBits n 0 7
/-- The number of channels of an entry. -/
def State.hkCount (s : State) (n : Nat) : Nat := s.hkBits n 7 7 + 1
/-- Conversions of each channel. -/
def State.hkRepeat (s : State) (n : Nat) : Nat := s.hkBits n 16 8 + 1
/-- Whether an entry ends its loop. -/
def State.hkLast (s : State) (n : Nat) : Bool := s.hkBits n 15 1 == 1

/-- The last entry of the loop that begins at an entry. -/
def State.hkEnd (s : State) (n : Nat) : Nat :=
  ((rangeFrom n 64).find? (fun m => s.hkLast m || decide (63 ≤ m))).getD 63

/-- The first entry of loop B. -/
def State.hkSecond (s : State) : Nat := s.hkEnd 0 + 1

/-- A loop's time in µs: each channel converts REPEAT times at 1 MS/s after its DELAY. -/
def State.hkLoopUs (s : State) (n : Nat) : Nat :=
  ((rangeFrom n (s.hkEnd n + 1 - n)).map (fun m => s.hkCount m * (s.hkRepeat m + s.hkBits m 24 8))).sum

/-! ### Results -/

/-- A channel's window comparator (R290 with the HK_ registers). -/
def State.hkWindow (s : State) (ch : Nat) : State :=
  let v := s.hkVal ch
  let lo := sext 16 (s.fget F.HK_WLO_BOUND ch)
  let hi := sext 16 (s.fget F.HK_WHI_BOUND ch)
  let hy : Int := s.fget F.HK_HYST_HYST ch
  let out := decide (v < lo) || decide (hi < v)
  let s := s.fset F.HK_CH_DATA_OUT ch (ofBool out)
  if s.hk.disarmed.contains ch then
    if decide (lo + hy ≤ v) && decide (v ≤ hi - hy) then
      { s with hk := { s.hk with disarmed := s.hk.disarmed.filter (fun m => m != ch) } }
    else s
  else if out then
    let s := { s with hk := { s.hk with disarmed := s.hk.disarmed ++ [ch] } }
    let s := s.fset F.HK_WIN_STATUS_LEFT (ch / 32) (setBit (s.fget F.HK_WIN_STATUS_LEFT (ch / 32)) (ch % 32))
    (s.count C.HK_CNT_WIN 0).logRate 1000000 ch { code := 0x1101, engine := ch }
  else s

/-- A channel takes the mean of its raw codes. -/
def State.hkResult (s : State) (ch : Nat) (raw : List Nat) : State :=
  let mean := (roundHalfEven ((raw.sum : Nat) : Int) raw.length).toNat
  let s := s.fset F.HK_CH_DATA_RAW ch mean
  let s := s.fset F.HK_CH_DATA_VALUE ch (toBits 16 (Config.housekeepingScale ch mean))
  let s := s.fset F.HK_CH_DATA_VALID ch (ofBool (decide (ch < 100) || decide (126 < ch)))
  ((s.sample ch (s.hkVal ch)).sample (256 + ch) mean).hkWindow ch

/-- The first complete round of a host section that has booted (Table 17.1, step 9): it runs, limited where its
supply is, and says so to the field.  The cores of the Keep's record are to take the Lookout role (R26). -/
def State.hostRuns (s : State) : State :=
  if s.fget F.GLB_PWR_STATUS_STATE 0 != 0 || s.mgmt.down || s.fget F.KEEP_STATUS_STATE 0 == 0 || s.fget F.KEEP_STATUS_STATE 0 == 2 then s
  else
    let s := if s.power.limited then (s.fset F.GLB_PWR_STATUS_STATE 0 2).log { code := 0x0104 }
      else ({ s.fset F.GLB_PWR_STATUS_STATE 0 1 with rel := { s.rel with lookDue := [0, 1] } } : State).designate
    let s := { s with bar := { s.bar with hostState := 1 } }
    let s := if s.bar.up then s.sendHostState else s
    s.settleOff .management

/-- A round is complete once both loops have completed since the last one (R300). -/
def State.hkRound (s : State) : State :=
  if !(s.hk.doneA && s.hk.doneB) then s
  else
    let s := { s with hk := { s.hk with doneA := false, doneB := false } }
    ((s.count C.HK_CNT_ROUND 0).thermalRound).hostRuns

/-- Module power as a mean over 100 ms (R415). -/
def State.hkPower (s : State) (mw : Nat) : State :=
  let s := (s.fset F.GLB_PWR_MW_MW 0 (Nat.min mw 0xFFFFF)).sample 128 mw
  let cool := if mw < 290000 then (if s.power.coolPower = 0 then s.ns + 1 else s.power.coolPower) else 0
  let s := { s with power := { s.power with coolPower := cool } }
  if 300000 < mw && !s.power.overpower then
    let s := { s with power := { s.power with overpower := true } }
    (s.log { code := 0x0105 }).frozen
  else s

/-- A loop moves on after an entry; at its last one it completes. -/
def State.hkAdvance (s : State) (b : Bool) (n : Nat) : State :=
  let start := if b then s.hkSecond else 0
  if s.hkEnd start = n then
    let us := s.hkLoopUs start
    let s := s.fset (if b then F.HK_ROUND_LOOP_B_US else F.HK_ROUND_LOOP_A_US) 0 us
    let s := if b then { s with hk := { s.hk with loopB := start, doneB := true } }
      else { s with hk := { s.hk with loopA := start, doneA := true } }
    s.hkRound
  else if b then { s with hk := { s.hk with loopB := n + 1 } } else { s with hk := { s.hk with loopA := n + 1 } }

/-- HK_ENTRY_RESULT (R299, R300, R415, R425 to R430). -/
def execHkEntryResult (n : Nat) (raw : List (List Nat)) (mw : Nat) (s : State) : Res :=
  if !s.power.slotPower || s.power.trip || !(s.hk.loopA == n || s.hk.loopB == n) || raw.length != s.hkCount n
      || raw.any (fun r => r.length != s.hkRepeat n || r.any (fun x => decide (4096 ≤ x))) then .next s
  else
    let b := s.hk.loopA != n
    let s := { s with hk := { s.hk with fresh := s.ns } }
    let s := s.rollMeans.hkPower mw
    let s := raw.zipIdx.foldl (fun s (p : List Nat × Nat) => s.hkResult ((s.hkFirst n + p.2) % 128) p.1) s
    .next (s.hkAdvance b n)

/-- HK_COMMIT (R303): window bounds that keep R290's rule. -/
def execHkCommit (s : State) : Res :=
  let ok := (List.range 128).all (fun ch =>
    let lo := sext 16 (s.staging F.HK_WLO_BOUND ch)
    let hi := sext 16 (s.staging F.HK_WHI_BOUND ch)
    let hy : Int := s.staging F.HK_HYST_HYST ch
    decide (lo ≤ hi) && decide (2 * hy ≤ hi - lo))
  if !ok then .next (s.flag F.HK_STATUS_CFG_INVALID 0)
  else .next (s.applyAll ((List.range 128).flatMap (fun ch => [(F.HK_WLO_BOUND, ch), (F.HK_WHI_BOUND, ch), (F.HK_HYST_HYST, ch)])))

/-! ### The field temperature (R301) -/

/-- A monitor report reaches channel 127. -/
def State.hkMonitor (s : State) (temp : Int) : State :=
  let s := { s with hk := { s.hk with monitor := some s.ns } }
  let s := s.fset F.HK_STATUS_FIELD_TEMP_LOST 0 0
  let s := s.fset F.HK_CH_DATA_VALUE 127 (toBits 16 temp)
  let s := s.fset F.HK_CH_DATA_VALID 127 1
  (s.rollMeans.sample 127 temp).hkWindow 127

/-- FIELD_TEMP_LOST (R301): logged once, until a report arrives again. -/
def execFieldTempLost (s : State) : Res :=
  if !s.power.slotPower || s.fon F.HK_STATUS_FIELD_TEMP_LOST 0 || s.ns < s.hk.monitor.getD s.bootNs + 10000000 then .next s
  else
    let s := s.flag F.HK_STATUS_FIELD_TEMP_LOST 0
    .next ((s.fset F.HK_CH_DATA_VALID 127 0).log { code := 0x1102, engine := 127 })

/-! ### Analogue setpoints (R294) -/

/-- The codes of HK_AOSP_CODE01 and HK_AOSP_CODE23. -/
def State.aospCodes (s : State) : List Nat :=
  let a := s.fget F.HK_AOSP_CODE01_CODES 0
  let b := s.fget F.HK_AOSP_CODE23_CODES 0
  [a % 65536, a / 65536, b % 65536, b / 65536]

/-- Send the setpoint message that waits, once 1 µs has passed since the last one. -/
def State.aospFlush (s : State) : State :=
  match s.hk.aosp with
  | none => s
  | some (m, cs) =>
    if s.hk.aospLast.any (fun t => decide (s.ns < t + 1000)) then s
    else
      let s := { s with hk := { s.hk with aosp := none, aospLast := some s.ns } }
      s.toField ([4, 1, m, 0] ++ cs.flatMap (bytesOf 2))

/-- HK_AOSP_SEND (R294): a SEND within 1 µs merges into the message that waits. -/
def execHkAospSend (mask : Nat) (s : State) : Res :=
  let m := mask % 16
  let now := s.aospCodes
  let p := match s.hk.aosp with
    | none => (m, now.zipIdx.map (fun (x : Nat × Nat) => if m.testBit x.2 then x.1 else 0))
    | some (w, cs) => (w ||| m, (List.range 4).map (fun k => if m.testBit k then now.getD k 0 else cs.getD k 0))
  .next (({ s with hk := { s.hk with aosp := some p } } : State).aospFlush)

end Sys2Proof.Machine
end

