-- ==== Sys2Proof/Machine/FieldMsg.lean ====
section
/-! DEFINITION. The messages of the barrier link at their receivers (R262, R263, R269, R272, R279, R280, R283, R294,
R301, R354, R402): heartbeats and presence, verdicts, retractions, setpoints, reports, events, positions and
the exchange of field firmware. -/

namespace Sys2Proof.Machine

/-! ### The field controller and the host (R263, R279, R280) -/

/-- FLD_HOST_TO in ns. -/
def State.hostTo (s : State) : Nat := s.fget F.FLD_HOST_TO_TO 0 * 10000

/-- The field controller stops holding the host present (R279, R297). -/
def State.hostGone (s : State) : State :=
  if !s.field.hostHere then s
  else
    let f := { s.field with hostHere := false, gpoPolicy := true, gpoHeld := s.fget F.FLD_GPO_LEVEL_LEVEL 0 }
    let s := { s with field := f }
    let s := (List.range 4).foldl (fun s k => s.aoPolicy k) s
    let s := s.fieldEvent 0x0E03 255 255 0
    let s := if s.bar.up then s.sendFieldState else s
    s.fieldRefresh

/-- The field controller holds the host present: reject outputs leave their policy.  A new generation reported
while the host was never lost (R403) leaves verdicts of present items in force. -/
def State.hostCome (s : State) (gen st : Nat) : State :=
  let was := s.field.hostHere
  let recs := s.field.recs.map (fun (r : FieldRec) => if was && r.hostGen == s.field.hostGen then { r with hostGen := gen } else r)
  let s := { s with
    field := { s.field with
      recs := recs, hostHere := true, hostGen := gen, hostState := st
      outs := Tab.mapv s.field.outs (fun _ (x : RejOut) => { x with policy := false }) }
    bar := { s.bar with field := { s.bar.field with beat := s.ns } } }
  let s := if was then s else s.sendFieldState
  s.fieldRefresh

/-- HOST_LOST (R263, R279): the link has been down, or no heartbeat has arrived, for FLD_HOST_TO. -/
def execHostLost (s : State) : Res :=
  let silent := decide (s.bar.field.beat + s.hostTo ≤ s.ns)
  let down := !s.bar.up && decide (s.bar.downAt + s.hostTo ≤ s.ns)
  if s.field.ready && s.field.hostHere && (silent || down) then .next s.hostGone else .next s

/-- Whether a message is a host state that reports running. -/
def hostRunning (m : List Nat) : Bool := isStatus 0 m && m.getD 2 0 == 1

/-- HOST_PRESENT (R280). -/
def execHostPresent (s : State) : Res :=
  s.onMsg true hostRunning (fun s m => s.hostCome (m.getD 3 0) 1)

/-- A state message at the field controller. -/
def State.stateAtField (s : State) (m : List Nat) : State :=
  if m.getD 2 0 = 1 then s.hostCome (m.getD 3 0) 1
  else { s.hostGone with field := { s.hostGone.field with hostState := m.getD 2 0, hostGen := m.getD 3 0 } }

/-! ### The host section and the field (R210, R215, R224, R263) -/

/-- FLD_GW_CFG.FIELD_TO in ns. -/
def State.fieldTo (s : State) : Nat := s.fget F.FLD_GW_CFG_FIELD_TO 0 * 10000

/-- Close a context that the field section will not act on any more; CREATED ones are counted. -/
def State.closeLost (s : State) (n : Nat) : State :=
  let s := if (s.item n).any (fun x => x.state == .created) then s.countAt C.CTX_CNT_NOINPUT 0 0 1 else s
  s.closeItem n

/-- The contexts of lanes with field outputs in one of some states. -/
def State.fieldItems (s : State) (p : ItemCtx → Bool) : List Nat :=
  (s.items.filter (fun (q : Nat × ItemCtx) => (s.lane q.2.lane).field && p q.2)).map Prod.fst

/-- Whether a context waits for nothing but the field section: its verdict has been sent. -/
def sentState (x : ItemCtx) : Bool := x.state == .sent || x.state == .withheld || x.state == .retracted

/-- Write the record of a barrier retraction's results (R354, R359). -/
def State.retractEnd (s : State) (r : Retracting) : State :=
  let s := { s with rel := { s.rel with retracting := s.rel.retracting.erase r } }
  let rec' (seq : Nat) (es : List (List Nat)) (last : Bool) : List Nat :=
    bytesOf 4 r.fault ++ bytesOf 2 seq ++ [es.length, ofBool last + 4] ++ slice r.hdr 8 24 ++ bytesOf 8 s.us
      ++ slice r.hdr 40 24 ++ es.flatten
  let n := ceilDiv r.entries.length 12
  let s := (List.range n).foldl (fun s i =>
    s.storeFault r.fault (rec' (r.seq + i) ((r.entries.drop (12 * i)).take 12) (i + 1 == n))) s
  let f (q : Retracting) : Retracting := if q.fault = r.fault then { q with seq := q.seq + n } else q
  { s with rel := { s.rel with retracting := s.rel.retracting.map f } }

/-- The host section stops holding the field section present (R263). -/
def State.fieldGone (s : State) : State :=
  if !s.bar.fieldHere then s
  else
    let s := { s with bar := { s.bar with fieldHere := false } }
    let s := s.fset F.FLD_GW_STATUS_FIELD_PRESENT 0 0
    let s := s.flag F.FLD_GW_STATUS_FIELD_LOST_SEEN 0
    let s := s.log { code := 0x0E0D }
    let s := ((List.range 64).filter (fun l => s.laneUp l && (s.lane l).field)).foldl (fun s l => s.breakLane l 2) s
    let s := (s.fieldItems sentState).foldl (fun s n => s.closeLost n) s
    s.rel.retracting.foldl (fun s r => s.retractEnd r) s

/-- FIELD_LOST (R263). -/
def execFieldLost (s : State) : Res :=
  let silent := decide (s.bar.host.beat + s.fieldTo ≤ s.ns)
  let down := !s.bar.up && decide (s.bar.downAt + s.fieldTo ≤ s.ns)
  if s.bar.fieldHere && (silent || down) then .next s.fieldGone else .next s

/-- The field controller has reset (R215, R263): lanes with field outputs are suspended, contexts made before the
reset close, and the copies of its registers return to their reset values; firmware in trial is back on its
previous slot (R403). -/
def State.fieldWasReset (s : State) (old : Nat) : State :=
  let s := ((List.range 64).filter (fun l => (s.lane l).field)).foldl (fun s l => s.suspend l 2 0x31) s
  let mine (x : ItemCtx) : Bool := x.item / 2 ^ 40 == old && (sentState x || x.state == .created)
  let s := (s.fieldItems mine).foldl (fun s n => s.closeLost n) s
  let s := { s with bar := { s.bar with copies := [] } }
  match s.mgmt.act with
  | some a => if a.typ = 5 then s.fwRolledBack a else s
  | none => s

/-- A state message at the host section: the device settles while the field controller starts (R373). -/
def State.stateAtHost (s : State) (m : List Nat) : State :=
  let gen := m.getD 3 0
  let old := s.bar.fieldGen
  let reset := s.bar.fieldKnown && gen != old
  let s := { s with bar := { s.bar with fieldGen := gen, fieldState := m.getD 2 0, fieldKnown := true } }
  let s := s.fset F.FLD_GW_STATUS_FIELD_GEN 0 gen
  let s := if reset then s.fieldWasReset old else s
  if m.getD 2 0 = 0 then s.fieldGone.settleOn .field
  else
    let s := s.settleOff .field
    let host := { s.bar.host with beat := s.ns }
    let s := { s with bar := { s.bar with fieldHere := true, host := host } }
    s.flag F.FLD_GW_STATUS_FIELD_PRESENT 0

/-- STATE_MSG (R263). -/
def execStateMsg (field : Bool) (s : State) : Res :=
  s.onMsg field (isStatus 0) (fun s m => if field then s.stateAtField m else s.stateAtHost m)

/-! ### Heartbeats and positions (R262) -/

/-- Both position messages, when an enabled lane uses an encoder. -/
def State.sendPositions (s : State) : State :=
  if s.fLanes.isEmpty then s
  else
    let bad := (List.range 4).foldl (fun n e => if s.encBad e then setBit n e else n) 0
    let m (k a : Nat) : List Nat := [6, k, bad, 0] ++ bytesOf 4 (s.encPos a) ++ bytesOf 4 (s.encPos (a + 1))
    (s.toHost (m 3 0)).toHost (m 4 2)

/-- HEARTBEAT_TIMER (R262). -/
def execHeartbeatTimer (field : Bool) (positions : List Nat) (s : State) : Res :=
  let x := s.bar.side field
  if !s.bar.up || (field && !s.field.ready) then .next s
  else
    let beats := (x.beats + 1) % 65536
    let s := s.setSide field { x with beats := beats }
    let m : List Nat := [7, 0] ++ bytesOf 2 beats
    if field then .next ((s.encAll (positions.map (fun p => p % 2 ^ 32))).toHost m).sendPositions else .next (s.toField m)

/-- POSITIONS_MSG (R224). -/
def execPositionsMsg (s : State) : Res :=
  s.onMsg false (fun m => isStatus 3 m || isStatus 4 m) (fun s m =>
    let e := if m.getD 1 0 = 3 then 0 else 2
    (s.positionAt e (leAt m 4 4)).positionAt (e + 1) (leAt m 8 4))

/-! ### Items (R222, R269, R272) -/

/-- ITEM_CREATED (R222). -/
def execItemCreated (s : State) : Res :=
  s.onMsg false (isType 1) (fun s m =>
    s.itemCreated (m.getD 1 0 % 64) (bits (m.getD 2 0) 4 2) (m.getD 2 0 % 16) (leAt m 4 6) (leAt m 10 4))

/-- A verdict at the field controller (R269, R280). -/
def State.verdictAt (s : State) (lane code item : Nat) : State :=
  match s.field.recs.find? (fun r => r.lane == lane && r.item == some item) with
  | none => s.count C.FLD_CNT_UNKNOWN 0
  | some r =>
    let e := s.lrEnc lane
    let past := !s.encBad e && serialGe (s.encPos e) (s.cutoff lane r.pos)
    if r.code.isSome || past then (s.count C.FLD_CNT_LATE 0).fieldEventRate 0x0E04 lane lane 255 item
    else if r.hostGen != s.field.hostGen then s
    else (s.takeEffect r code (code == 255)).fieldRefresh

/-- VERDICT_MSG (R269). -/
def execVerdictMsg (s : State) : Res :=
  s.onMsg true (isType 2) (fun s m => s.verdictAt (m.getD 1 0 % 64) (m.getD 2 0) (leAt m 4 6))

/-- One item of a retraction (R272), with its result message. -/
def State.retractRec (s : State) (r : FieldRec) : State × List Nat :=
  let l := r.lane
  let ks := (s.lrFire l (s.lrWithheld l)).filter (fun k => !r.reached.testBit k)
  let s := s.actuateAll l r.pos ks
  let s := s.setRec l r.n (fun x => { x with enq := ks.foldl setBit x.enq })
  let here := s.vtGet (s.vtSlot l r.n) / 128 == r.n % 512
  let s := if here then s.vtPut l r.n (s.lrWithheld l) true true true else s
  (s, [6, 1, 0, 0] ++ bytesOf 6 (r.item.getD 0) ++ [r.enq &&& r.reached, ofBool (!here)])

/-- A retraction at the field controller: every live record of the range with a verdict in effect. -/
def State.retractAt (s : State) (lane first last : Nat) : State :=
  let rs := s.field.recs.filter (fun r => r.lane == lane && r.code.isSome && r.item.any (fun i => inRange48 first last i))
  if rs.isEmpty then s.toHost ([6, 1, 0, 0] ++ bytesOf 6 0 ++ [0, 6])
  else
    let n := rs.length
    (rs.zipIdx.foldl (fun s (p : FieldRec × Nat) =>
      let (s, m) := s.retractRec p.1
      s.toHost (if p.2 + 1 = n then m.modify 11 (fun x => x + 2) else m)) s).fieldRefresh

/-- RETRACTION (R272). -/
def execRetraction (s : State) : Res :=
  s.onMsg true (isType 3) (fun s m => s.retractAt (m.getD 1 0 % 64) (leAt m 4 6) (leAt m 10 6))

/-- A retraction result at the host section (R354). -/
def State.resultAt (s : State) (m : List Nat) : State :=
  match s.rel.retracting with
  | [] => s
  | r :: rest =>
    let outs := m.getD 10 0
    let fl := m.getD 11 0
    let item := leAt m 4 6
    let r' := if bit fl 2 || outs = 0 then r else { r with entries := r.entries ++ [faultEntry 2 r.lane outs 0 item item] }
    let s := { s with rel := { s.rel with retracting := r' :: rest } }
    if bit fl 1 then s.retractEnd r' else s

/-- RETRACTION_RESULT (R354). -/
def execRetractionResult (s : State) : Res := s.onMsg false (isStatus 1) (fun s m => s.resultAt m)

/-! ### Setpoints and reports (R280, R291, R294, R301) -/

/-- General output levels (R280): while the host is absent the policy holds them. -/
def State.gpoSet (s : State) (mask levels : Nat) : State :=
  if !s.field.hostHere then s
  else
    let v := (s.field.gpo &&& (65535 - mask % 65536)) ||| (levels &&& mask % 65536)
    State.fieldRefresh { s with field := { s.field with gpo := v, gpoPolicy := false } }

/-- SETPOINT_GPO (R280). -/
def execSetpointGpo (s : State) : Res :=
  s.onMsg true (fun m => isType 4 m && m.getD 1 0 == 0) (fun s m => s.gpoSet (leAt m 2 2) (leAt m 4 2))

/-- SETPOINT_ANALOGUE (R294). -/
def execSetpointAnalogue (s : State) : Res :=
  s.onMsg true (fun m => isType 4 m && m.getD 1 0 == 1) (fun s m =>
    (List.range 4).foldl (fun s k => if (m.getD 2 0).testBit k then s.aoSet k (leAt m (4 + 2 * k) 2) else s) s)

/-- ADC_REPORT (R301). -/
def execAdcReport (s : State) : Res :=
  s.onMsg false (isType 5) (fun s m =>
    if m.getD 1 0 = 0 then
      let fl := m.getD 3 0
      s.fset F.HK_FADC_RES_RESULT (m.getD 2 0 % 64)
        (leAt m 4 4 % 2 ^ 18 + 2 ^ 18 * (fl % 2) + 2 ^ 19 * (fl / 2 % 2) + 2 ^ 20 + 2 ^ 24 * (m.getD 8 0 % 256))
    else s.hkMonitor (sext 16 (leAt m 2 2)))

/-- FIELD_EVENT_MSG (R283, R397). -/
def execFieldEventMsg (s : State) : Res :=
  s.onMsg false (isStatus 2) (fun s m =>
    s.log { code := leAt m 2 2, source := 1, lane := m.getD 10 0, engine := m.getD 11 0, item := leAt m 4 6, count := leAt m 12 4 })

/-! ### Field firmware (R402, R404, R406) -/

/-- Put bytes into an image at an offset; bytes that nothing has written read 0. -/
def putBytes (l : List Nat) (off : Nat) (b : List Nat) : List Nat :=
  let l := l ++ List.replicate (off - l.length) 0
  l.take off ++ b ++ l.drop (off + b.length)

/-- The size of a slot (R402). -/
def slotSize (typ : Nat) : Nat := if typ = 5 then 2 * 2 ^ 20 else 8 * 2 ^ 20

/-- The image in a firmware slot of the field controller. -/
def State.fieldImage (s : State) (slot : Nat) : List Nat :=
  if s.field.fwShipped.contains slot then factoryImage 5 else Tab.getD s.field.fwSlots slot []

/-- Whether the field controller finds its image in a slot valid (R363, R364): what was shipped is, and another one
against the root key digest that its own ROM holds; neither lies below the counter. -/
def State.fieldFwOk (s : State) (slot : Nat) : Bool :=
  let b := s.fieldImage slot
  (s.field.fwShipped.contains slot || (fwSigned 5 b && slice (shake256 (fwKey b)) 0 32 == slice (shake256 rootKey) 0 32))
    && decide (s.field.fwSvn ≤ leAt b 8 4)

/-- The field controller's inactive slot. -/
def State.fieldIdle (s : State) : Nat := 1 - s.field.fwSlot

/-- Write the field controller's inactive slot. -/
def State.fieldFlash (s : State) (b : List Nat) : State :=
  { s with field := { s.field with
      fwSlots := Tab.set s.field.fwSlots s.fieldIdle b
      fwShipped := s.field.fwShipped.filter (fun x => x != s.fieldIdle) } }

/-- The field controller's trial slot becomes active; the counter rises where its image asks for it (R365, R404). -/
def State.fieldFwKeep (s : State) : State :=
  if !s.field.fwTrial then s
  else
    let b := s.fieldImage s.fieldIdle
    let svn := if bit (b.getD 7 0) 0 then Nat.max s.field.fwSvn (leAt b 8 4) else s.field.fwSvn
    { s with field := { s.field with fwSlot := s.fieldIdle, fwTrial := false, fwSvn := svn } }

/-- Write image bytes into the inactive slot of a type, as the host section holds it; nothing lies beyond the slot. -/
def State.fwPut (s : State) (typ off : Nat) (b : List Nat) : State :=
  let k := typ * 2 + s.fwIdle typ
  let im := Tab.set s.mgmt.images k (putBytes (s.fwImage typ (s.fwIdle typ)) off (b.take (slotSize typ - off)))
  { s with mgmt := { s.mgmt with images := im, factory := s.mgmt.factory.filter (fun x => x != k) } }

/-- Erase the inactive slot of a type. -/
def State.fwErase (s : State) (typ : Nat) : State :=
  let k := typ * 2 + s.fwIdle typ
  { s with mgmt := { s.mgmt with images := Tab.erase s.mgmt.images k, factory := s.mgmt.factory.filter (fun x => x != k) } }

/-- FIRMWARE_DATA (R402). -/
def execFirmwareData (s : State) : Res :=
  s.onMsg true (isStatus 5) (fun s m =>
    let off := leAt m 4 4
    if off < slotSize 5 then s.fieldFlash (putBytes (s.fieldImage s.fieldIdle) off ((slice m 8 8).take (slotSize 5 - off))) else s)

/-- Send a firmware result. -/
def State.fwResult (s : State) (cmd res : Nat) : State := s.toHost [6, 7, cmd, res]

/-- The field firmware restarts: configuration frozen, scheduler hardware running on (R406). -/
def State.fwRestart (s : State) (f : FieldFw) (cmd : Nat) : State :=
  { s with field := { s.field with fw := f, fwCmd := cmd, fwTrial := f == .restarting || (f == .running && s.field.fwTrial) } }

/-- A firmware command at the field controller. -/
def State.fwCommandAt (s : State) (c : Nat) : State :=
  if s.field.fw != .running then s.fwResult c 2
  else match c with
    | 1 => (s.fieldFlash []).fwResult 1 0
    | 2 => s.fwResult 2 (ofBool (!s.fieldFwOk s.fieldIdle))
    | 3 => if s.fieldFwOk s.fieldIdle then s.fwRestart .restarting 3 else s.fwResult 3 1
    | 4 => s.fieldFwKeep.fwResult 4 0
    | 5 => s.fwRestart .back 5
    | _ => s

/-- FIRMWARE_COMMAND (R402). -/
def execFirmwareCommand (s : State) : Res := s.onMsg true (isStatus 6) (fun s m => s.fwCommandAt (m.getD 2 0))

/-- Send a firmware command to the field controller. -/
def State.fwTell (s : State) (c : Nat) : State := s.toField [6, 6, c]

/-- A firmware result at the host section. -/
def State.fwResultAt (s : State) (c r : Nat) : State :=
  match c with
  | 2 =>
    match s.mgmt.stage5 with
    | none => s
    | some (id, tag) =>
      let s := { s with mgmt := { s.mgmt with stage5 := none, staging := Tab.erase s.mgmt.staging 5 } }
      let s := s.fset (slotValid (s.fwIdle 5)) 5 (ofBool (r == 0))
      let s := s.fset F.MGT_FW_DATA_STATE 5 0
      if r = 0 then (s.log { code := 0x1604, engine := s.anchorOf id, argA := 5 }).answer id 0x0030 tag 0 [] else s.answer id 0x0030 tag 6 []
  | 3 =>
    match s.mgmt.act with
    | some a =>
      if a.typ != 5 then s
      else if r = 0 then (if a.hold then s.fwReady a else (s.fwReady a).fwTell 4)
      else s.fwRolledBack a
    | none => s
  | 5 =>
    match s.mgmt.act with
    | some a => if a.typ = 5 then s.fwRolledBack a else s
    | none => s
  | _ => s

/-- FIRMWARE_RESULT (R402). -/
def execFirmwareResult (s : State) : Res :=
  s.onMsg false (isStatus 7) (fun s m => s.fwResultAt (m.getD 2 0) (m.getD 3 0))

/-- The restarted field firmware is ready (R406): the result, then the trigger FIFO, the commits that waited. -/
def State.fieldFwReady (s : State) : State :=
  let back := s.field.fw == .back
  let c := s.field.fwCmd
  let s := s.fwRestart .running 0
  let s := s.fwResult c (if back && c = 3 then 3 else 0)
  (s.takeFifo.runCommits).fieldRefresh

/-- The restarted field firmware is not ready in time: it goes back to its previous slot, and where that fails
too the section resets (R406). -/
def State.fieldFwLate (s : State) : State :=
  if s.field.fw == .restarting then s.fwRestart .back s.field.fwCmd else s.fieldReset

end Sys2Proof.Machine
end

