-- ==== Sys2Proof/Machine/FieldHw.lean ====
section
/-! DEFINITION. The field section's own events (R254 to R256, R264, R268 to R278, R421): supply and reset, trigger
edges, encoder faults, cutoffs, reject commands, and the verdict port and SPI target. -/

namespace Sys2Proof.Machine

/-! ### Supply and reset (R254 to R256, R418, R421) -/

/-- FIELD_BROWNOUT (R254). -/
def execFieldBrownout (s : State) : Res :=
  if !s.field.supply then .next s
  else .next ({ s with field := { s.field with supply := false, brown := true } } : State).fieldReset

/-- FIELD_BROWNOUT_END (R254). -/
def execFieldBrownoutEnd (s : State) : Res :=
  .next ({ s with field := { s.field with supply := true } } : State).linkTrain

/-- FRST_N_ASSERT (R255). -/
def execFrstNAssert (s : State) : Res :=
  if s.field.frst then .next s
  else .next ({ s with field := { s.field with frst := true } } : State).fieldReset

/-- FRST_N_RELEASE (R255). -/
def execFrstNRelease (s : State) : Res :=
  .next ({ s with field := { s.field with frst := false } } : State).linkTrain

/-- FIELD_READY (R256, R265, R297): the reset generation has risen, non-volatile values are in force, and the outputs
take their host-absent policies. -/
def execFieldReady (positions : List Nat) (levels : Nat) (s : State) : Res :=
  if !s.field.supply || s.field.frst || s.field.ready then .next s
  else
    let s := s.loadNv
    let gen := (s.fget F.FLD_STATUS_FIELD_GEN 0 + 1) % 256
    let s := s.fset F.FLD_STATUS_FIELD_GEN 0 gen
    let nv := Tab.put 0 s.field.nv (F.FLD_STATUS_FIELD_GEN.key 0) gen
    let brown := s.field.brown
    let s := { s with field := { s.field with ready := true, gpoPolicy := true, nv := nv, brown := false } }
    let s := s.fset F.FLD_STATUS_NV_VALID 0 1
    let s := s.fset F.FLD_TRIG_LEVEL_LEVEL 0 levels
    let s := s.encAll (positions.map (fun p => p % 2 ^ 32))
    let s := (List.range 4).foldl (fun s k => (s.setAo k { span := s.fget F.FDAC_CFG_SPAN k }).aoPolicy k) s
    let s := if brown then s.fieldEvent 0x0E0C 255 255 0 else s
    let s := if s.bar.up then s.sendFieldState else s
    .next s.fieldRefresh

/-- FIELD_WATCHDOG (R421). -/
def execFieldWatchdog (s : State) : Res :=
  if !s.field.supply || s.field.frst then .next s else .next s.fieldReset

/-! ### Triggers and encoders (R264, R268, R273) -/

/-- Whether an edge is one that a lane acts on. -/
def edgeOk (edges : Nat) (rising : Bool) : Bool := edges.testBit (if rising then 0 else 1)

/-- TRIGGER_EDGE (R264, R268). -/
def execTriggerEdge (trigger : Nat) (rising : Bool) (positions : List Nat) (s : State) : Res :=
  if !s.field.ready || 16 ≤ trigger then .next s
  else
    let w := s.fget F.FLD_TRIG_LEVEL_LEVEL 0
    let s := s.fset F.FLD_TRIG_LEVEL_LEVEL 0 (if rising then setBit w trigger else clrBit w trigger)
    let s := s.encAll (positions.map (fun p => p % 2 ^ 32))
    let ls := (List.range 64).filter (fun l =>
      s.fLane l == 1 && s.lrByte l 0 % 16 == trigger && edgeOk (bits (s.lrByte l 0) 4 2) rising)
    .next (ls.foldl (fun s l => s.laneTrigger l trigger (s.encPos (s.lrEnc l))) s).fieldRefresh

/-- ENCODER_FAULT (R264, R273). -/
def execEncoderFault (encoder : Nat) (wire : Bool) (s : State) : Res :=
  if !s.field.ready || 4 ≤ encoder then .next s
  else
    let was := s.encBad encoder
    let s := s.count C.FLD_CNT_ENCERR 0
    let s := s.flag F.FLD_ENC_STATUS_FAULT encoder
    let s := s.flag F.FLD_ENC_STATUS_FAULT_SEEN encoder
    let s := s.fset F.FLD_ENC_STATUS_WIRE encoder (ofBool wire)
    let s := s.flag F.FLD_STATUS_ENC_FAULT_SEEN 0
    if was then .next s else .next ((s.fieldEvent 0x0E07 255 255 0).sendPositions).fieldRefresh

/-- The entries of an output after its encoder stands at a position: those whose off position is passed are gone, those
whose on position is passed are on. -/
def State.rejMove (s : State) (k e pos : Nat) : State :=
  let x := s.rej k
  let passed (y : RejEntry) : Bool := y.enc == e && serialGe pos (lessLead y.off (s.lead k))
  let on (y : RejEntry) : RejEntry :=
    if y.enc == e && serialGe pos (lessLead y.on (s.lead k)) then { y with started := true } else y
  s.setRej k { x with queue := (x.queue.filter (fun y => !passed y)).map on }

/-- ENCODER_FAULT_CLEAR (R273). -/
def execEncoderFaultClear (encoder pos : Nat) (s : State) : Res :=
  if !s.field.ready || !s.encBad encoder then .next s
  else
    let p := pos % 2 ^ 32
    let s := s.fset F.FLD_ENC_STATUS_FAULT encoder 0
    let s := s.fset F.FLD_ENC_STATUS_WIRE encoder 0
    let s := s.encMove encoder p
    let s := (List.range 8).foldl (fun s k => s.rejMove k encoder p) s
    let late := s.field.recs.filter (fun r =>
      r.code.isNone && s.lrEnc r.lane == encoder && serialGe p (s.cutoff r.lane r.pos))
    let s := late.foldl (fun s r => s.cutoffPass r) s
    .next ((s.fieldEvent 0x0E07 255 255 0).sendPositions).fieldRefresh

/-! ### Cutoffs and reject commands (R268 to R270) -/

/-- CUTOFF_REACHED (R269). -/
def execCutoffReached (lane n pos : Nat) (s : State) : Res :=
  match s.field.recs.find? (fun r => r.lane == lane && r.n == n) with
  | none => .next s
  | some r =>
    let p := pos % 2 ^ 32
    if !s.field.ready || r.code.isSome || s.encBad (s.lrEnc lane) || !serialGe p (s.cutoff lane r.pos) then .next s
    else .next ((s.encMove (s.lrEnc lane) p).cutoffPass r).fieldRefresh

/-- REJECT_ON (R270). -/
def execRejectOn (output encoder pos : Nat) (s : State) : Res :=
  if !s.field.ready || 8 ≤ output || 4 ≤ encoder || s.encBad encoder then .next s
  else
    let p := pos % 2 ^ 32
    let s := s.encMove encoder p
    let x := s.rej output
    let on (y : RejEntry) : RejEntry :=
      if y.enc == encoder && serialGe p (lessLead y.on (s.lead output)) then { y with started := true } else y
    .next (s.setRej output { x with queue := x.queue.map on }).fieldRefresh

/-- REJECT_OFF (R270). -/
def execRejectOff (output encoder pos : Nat) (s : State) : Res :=
  if !s.field.ready || 8 ≤ output || 4 ≤ encoder || s.encBad encoder then .next s
  else
    let p := pos % 2 ^ 32
    .next ((s.encMove encoder p).rejMove output encoder p).fieldRefresh

/-- MAX_ON_EXPIRY (R270). -/
def execMaxOnExpiry (output : Nat) (s : State) : Res :=
  let x := s.rej output
  let m := s.fget F.FLD_REJ_CFG_MAX_ON_US output
  if 8 ≤ output || m = 0 || !x.since.any (fun t => decide (t + m * 1000 ≤ s.ns)) then .next s
  else .next (s.setRej output { x with maxed := true }).fieldRefresh

/-- RECORD_FREE (R267, R268). -/
def execRecordFree (lane n pos : Nat) (s : State) : Res :=
  match s.field.recs.find? (fun r => r.lane == lane && r.n == n) with
  | none => .next s
  | some r =>
    let p := pos % 2 ^ 32
    if !s.field.ready || r.code.isNone || s.encBad (s.lrEnc lane) || !serialGe p (s.freeAt lane r.pos) then .next s
    else .next ((s.encMove (s.lrEnc lane) p).dropRec lane n).fieldRefresh

/-! ### The verdict port and the SPI target (R274 to R278) -/

/-- A write on a port (R277). -/
def State.vtAck (s : State) (slot v : Nat) : State :=
  let w := s.vtGet slot
  let mine := s.fLanes.any (fun l => bit (s.lrByte l 0) 6 && decide (s.lrNum l 4 2 ≤ slot)
    && decide (slot < s.lrNum l 4 2 + s.lrNum l 6 2))
  if mine && bit w 5 && v % 65536 / 128 == w / 128 then s.vtSet slot (clrBit w 5) else s.count C.FLD_CNT_ACKBAD 0

/-- VP_WRITE_ACK (R277). -/
def execVpWriteAck (slot value : Nat) (s : State) : Res :=
  if s.field.ready then .next (s.vtAck (slot % 4096) value) else .next s

/-- SPI_READ (R278). -/
def execSpiRead (slot count : Nat) (s : State) : Res :=
  if s.field.ready then .next (s.emit (.spi ((List.range count).map (fun i => s.vtGet ((slot + i) % 4096))))) else .next s

/-- SPI_ACK (R278). -/
def execSpiAck (slot : Nat) (words : List Nat) (s : State) : Res :=
  if s.field.ready then .next (words.zipIdx.foldl (fun s (p : Nat × Nat) => s.vtAck ((slot + p.2) % 4096) p.1) s) else .next s

end Sys2Proof.Machine
end

