-- ==== Sys2Proof/Machine/ResetOps.lean ====
section
/-! DEFINITION. What the reset of a core clears (R418, Table 17.2), as shared operations. -/

namespace Sys2Proof.Machine

/-- Whether a register instance belongs to the window of core `c`; the record of substitutions is the Keep's. -/
def ofCore (c k : Nat) : Bool :=
  let r := keyReg k
  let i := (Nat.unpair k).2
  decide (0x100000 ≤ r) && decide (r < 0x110000) && r != 0x102044 && (if r < 0x104000 then i == c else i / 64 == c)

/-- Every register of a core returns to its reset value. -/
def State.clearCoreRegs (s : State) (c : Nat) : State :=
  { s with fields := Tab.keep s.fields (fun k _ => !ofCore c k), staged := Tab.keep s.staged (fun k _ => !ofCore c k) }

/-- Reset one core (R420): its SRAM, program memory, tiles, cadence banks, registers and scratch rows; its master
bindings and the weights in its cells stay. -/
def State.clearCore (s : State) (c : Nat) : State :=
  let s := s.clearCoreRegs c
  let s := { s with
    sram := s.sram.filter (fun x => x.1 / 2 ^ 23 != c)
    seqs := Tab.erase s.seqs c
    cores := Tab.set s.cores c { CoreSt.empty with place := (s.core c).place }
    tiles := Tab.keep s.tiles (fun k _ => k / 2 != c)
    rst := Tab.erase s.rst c }
  let s := (List.range 36).foldl (fun s e =>
    let g := s.engine c e
    let cells := if e < 32 then g.cells else []
    let f : Engine := { Engine.empty with cells := cells, map := g.map, head := g.head, inService := g.inService, written := g.written, expected := g.expected }
    s.setEngine c e f) s
  let s := s.fset F.KEEP_CORE_DATA_RESETGEN c (s.fget F.KEEP_CORE_DATA_RESETGEN c + 1)
  { s with power := { s.power with resetting := s.power.resetting.filter (fun x => x != c) } }

end Sys2Proof.Machine
end

