-- ==== Sys2Proof/Machine/Power.lean ====
section
/-! DEFINITION. Power, reset, clocks and temperature (R362 to R366, R414 to R433): power-up and the Keep's boot, each
kind of reset, the loss of a clock, the orderly stop, and the return from thermal levels. -/

namespace Sys2Proof.Machine

/-! ### Boot (R364, R416) -/

/-- A firmware type starts from its active slot, or from the other one where that is not valid (R364). -/
def State.bootFw (s : State) (typ : Nat) : State :=
  let s := (s.fwCheck typ 0).fwCheck typ 1
  let a := s.fwActive typ
  if s.fon (slotValid a) typ || !s.fon (slotValid (1 - a)) typ then s
  else (s.fset F.MGT_FW_DATA_ACTIVE typ (1 - a)).log { code := 0x1501, argA := typ }

/-- Whether a type has a slot to start from. -/
def State.fwBoots (s : State) (typ : Nat) : Bool := s.fon (slotValid (s.fwActive typ)) typ

/-- An activation that a reset or a power loss has interrupted is rolled back at the next start (R404, R421). -/
def State.undoTrial (s : State) : State :=
  match s.mgmt.act with
  | none => s
  | some a => if a.typ = 5 then (s.fwBack a none).fwTell 5 else s.fwRolledBack a

/-- The Keep boots (R364 steps 1 to 5): the device reset generation rises and a new attestation key is derived. -/
def State.bootKeep (s : State) : State :=
  let s := s.undoTrial.bootFw 1
  if !s.fwBoots 1 then s.fset F.KEEP_STATUS_STATE 0 2
  else
    let g := s.fget F.KEEP_RESETGEN_DEVICE 0 + 1
    let s := s.fset F.KEEP_RESETGEN_DEVICE 0 g
    let s := { s with keep := { s.keep with ak := s.free }, bar := { s.bar with hostGen := g % 256 }, free := s.free + 1 }
    let s := s.bootFw 2
    let s := if s.fwBoots 2 then (s.bootFw 3).bootFw 4 else s
    if [2, 3, 4].all s.fwBoots then (s.fset F.KEEP_STATUS_STATE 0 1).settleOn .management
    else s.fset F.KEEP_STATUS_STATE 0 2

/-- Every context exists again from its definition, under a new key, and holds no page and no model (R362, R419). -/
def State.bootContexts (s : State) : State :=
  let s := (List.range 32).foldl (fun s x =>
    let s := s.setCtxState x (ofBool (Tab.find s.keep.defs x).isSome)
    let s := s.fset F.KEEP_CTX_STATE_KEYGEN x 0
    s.fset F.KEEP_CTX_STATE_ROTATING x 0) s
  let s := { s with keep := { s.keep with rotated := s.keep.defs.map (fun (p : Nat × CtxDef) => (p.1, s.ns)) } }
  s.ctxRefresh

/-- Retirements come back from the Keep's record (R348). -/
def State.bootCores (s : State) : State :=
  (List.range 32).foldl (fun s c =>
    if s.unit (unitCore c) = 2 then (s.fset F.CORE_STATUS_STATE c 4).fset F.CORE_ROLE_ROLE c 3 else s) s

/-- The supply as the Keep finds it (R414, R450): both sense pins open permits 150 W. -/
def State.readSupply (s : State) (sense : Nat) (auxOk : Bool) : State :=
  let s := s.fset F.GLB_PWR_STATUS_SENSE 0 sense
  let s := s.fset F.GLB_PWR_STATUS_AUX_OK 0 (ofBool auxOk)
  { s with power := { s.power with limited := sense % 4 == 3 || !auxOk } }

/-- The host section starts from slot power (Table 17.1, steps 1 to 8). -/
def State.powerOn (s : State) (sense : Nat) (auxOk : Bool) : State :=
  let cause := if s.power.tripped then 4 else 0
  let s := { s with bootNs := s.ns, power := { s.power with slotPower := true, tripped := false } }
  let s := s.readSupply sense auxOk
  let s := s.fset F.GLB_CLK_STATUS_LOCK 0 31
  let s := s.linkTrain
  let s := s.bootKeep
  let s := (s.bootContexts).bootCores
  let s := s.fset F.GLB_RST_CAUSE_CAUSE 0 cause
  s.log { code := 0x0106, argA := cause }

/-- HOST_POWER_ON (R416). -/
def execHostPowerOn (sense : Nat) (auxOk : Bool) (s : State) : Res :=
  if s.power.slotPower || s.power.trip then .next s else .next (s.powerOn sense auxOk)

/-- PERST_DEASSERT (R416): the link begins to train; LINK_RETRAIN gives the format it trains to. -/
def execPerstDeassert (s : State) : Res :=
  if !s.power.slotPower then .next s else .next { s with power := { s.power with linkUp := true } }

/-! ### Loss of power (R362, R418, R431) -/

/-- The fields that stand in non-volatile memory. -/
def nvCodes : List Nat :=
  [F.RST_SPARE_DATA_TARGET, F.RST_SPARE_DATA_STATE, F.ADM_CAPS_GUARD, F.HK_ENT_DATA_WORD, F.CNP_TOPO_DIM_X, F.CNP_TOPO_DIM_Y,
    F.CNP_TOPO_DIM_Z, F.CNP_TOPO_ID_DEVICE, F.CNP_TOPO_ID_ORDER,
    F.REL_UNIT_DATA_STATE, F.KEEP_CTX_STATE_KEYS, F.KEEP_CONF_CFG_POWER, F.KEEP_CONF_CFG_CNP_POLICY,
    F.KEEP_CONF_CFG_ROT_PERIOD_H, F.KEEP_RESETGEN_DEVICE, F.KEEP_SVN_DATA_COUNTER, F.MGT_STATUS_CLAIMED,
    F.MGT_FW_DATA_ACTIVE, F.MGT_FW_DATA_A_VALID, F.MGT_FW_DATA_B_VALID, F.GLB_RST_CAUSE_CAUSE].map Fld.code

/-- What the management controller and the Keep hold in non-volatile memory. -/
def Mgmt.nv (m : Mgmt) : Mgmt :=
  { Mgmt.empty with anchors := m.anchors, images := m.images, factory := m.factory, peers := m.peers, act := m.act, nextId := m.nextId,
                    eeprom := m.eeprom }

/-- The host section loses power: what is volatile in it, DRAM and every key are lost; the field section runs on. -/
def State.hostLoss (s : State) : State :=
  let s := s.linkDown
  let keep (k : Nat) : Bool := fieldSide (keyReg k) || nvCodes.contains (Nat.unpair k).1
  let bar : Barrier := { Barrier.empty with field := s.bar.field, downAt := s.ns }
  let defs := s.keep.defs
  { s with
    fields := Tab.keep s.fields (fun k _ => keep k), staged := Tab.keep s.staged (fun k _ => fieldSide (keyReg k))
    latch := [], lowHeld := [], events := [], lastLog := [], heldLog := [], engines := [], tiles := [], rst := []
    cores := [], seqs := [], sram := [], models := [], fab := .empty, dram := [], items := [], mgmt := s.mgmt.nv
    rings := [], reads := [], msix := [], msixPending := [], busMaster := [], ats := [], lanes := [], bar := bar
    hk := .empty, cnp := { Cnp.empty with faulty := s.cnp.faulty }, sync := .empty, rel := .empty
    keep := { Keep.empty with defs := defs }, power := { Power.empty with trip := s.power.trip, tripped := s.power.tripped } }

/-- HOST_POWER_LOSS (R362). -/
def execHostPowerLoss (s : State) : Res :=
  if !s.power.slotPower && !s.power.trip then .next s
  else
    let s := s.hostLoss
    .next { s with power := { s.power with trip := false } }

/-- THERMAL_TRIP (R431): every rail goes off until slot power has been removed. -/
def execThermalTrip (s : State) : Res :=
  if !s.power.slotPower then .next s
  else
    let s := s.hostLoss
    .next { s with power := { s.power with trip := true, tripped := true } }

/-! ### Conventional and device reset (R418, R419) -/

/-- Every function resets as at a PF FLR, and every locked interface fails (R250, R368). -/
def State.resetFuncs (s : State) : State :=
  let s := (List.range 33).foldl (fun s f => s.resetFunc f) s
  (rangeFrom 1 32).foldl (fun s v => s.tdiFail v) s

/-- A conventional reset: the PCI Express interface too, so the link is down until PERST# is deasserted again. -/
def State.conventional (s : State) : State :=
  let s := s.resetFuncs
  let s := [F.HIF_LINK_GEN, F.HIF_LINK_WIDTH, F.HIF_LINK_FLIT, F.HIF_LINK_ATS].foldl (fun s f => s.fset f 0 f.reset) s
  { s with power := { s.power with linkUp := false } }

/-- CONVENTIONAL_RESET (R418). -/
def execConventionalReset (s : State) : Res := if !s.power.slotPower then .next s else .next s.conventional

/-- Fields of the blocks that restart which a device reset leaves: what is non-volatile, the event log's head, and
each core's reset generation and decay state. -/
def survivors : List Nat :=
  nvCodes ++ [F.MGT_EVT_HEAD_NEXT, F.KEEP_CORE_DATA_RESETGEN, F.KEEP_CORE_DATA_CLEAN, F.KEEP_CORE_DATA_DECAY].map Fld.code

/-- Registers that a device reset clears: those of cores, of lanes and counter blocks, of the Keep and of the
management controller. -/
def resetRegs (reg : Nat) : Bool :=
  (decide (0x10000 ≤ reg) && decide (reg < 0x11000)) || (decide (0x100000 ≤ reg) && decide (reg < 0x110000))
    || (decide (0x600014 ≤ reg) && decide (reg < 0x600028)) || (decide (0x800000 ≤ reg) && decide (reg < 0x900000))
    || (decide (0xB00000 ≤ reg) && decide (reg < 0xB10000))

/-- A core at a device reset (R419 step 4): cleared, and where it held charge, bleeding before it is gated. -/
def State.resetCoreAll (s : State) (c : Nat) : State :=
  let ctx := (s.core c).place.elim (s.fget F.CORE_ROLE_CONTEXT c) (fun p => p.context)
  let held := s.fget F.CORE_ROLE_ROLE c == 1 || s.fget F.CORE_ROLE_ROLE c == 2 || (s.core c).place.isSome
  let s := s.clearCore c
  let s := { s with cores := Tab.erase s.cores c }
  let s := s.zeroCore c
  if held && s.unit (unitCore c) != 2 then s.beginBleed c 0 ctx else s

/-- What a device reset makes of the state once every lane has ended. -/
def State.deviceClear (s : State) : State :=
  let s := s.resetFuncs
  let s := (List.range 32).foldl (fun s c => s.resetCoreAll c) s
  let keep (k : Nat) : Bool := !resetRegs (keyReg k) || survivors.contains (Nat.unpair k).1
  let tdi := s.keep.tdi
  { s with
    fields := Tab.keep s.fields (fun k _ => keep k), staged := Tab.keep s.staged (fun k _ => !resetRegs (keyReg k))
    latch := [], lowHeld := [], models := []
    fab := { Fabric.empty with nextKey := s.fab.nextKey }
    dram := s.dram.filter (fun (x : Host.Cell) => decide (1024 * 2 ^ 20 ≤ x.1) && decide (x.1 < 1280 * 2 ^ 20))
    items := [], rings := [], reads := [], lanes := [], sync := .empty
    mgmt := { s.mgmt.nv with acked := s.mgmt.acked, faultAcked := s.mgmt.faultAcked }
    rel := { Rel.empty with faults := s.rel.faults, nextFault := s.rel.nextFault, suspects := s.rel.suspects
                            retractions := s.rel.retractions, applied := s.rel.applied, bankUe := s.rel.bankUe }
    keep := { Keep.empty with defs := s.keep.defs, tdi := tdi, bleed := s.keep.bleed }
    power := { s.power with stop := none, suspended := [], resetting := [] } }

/-- Every lane ends as in the orderly stop, with no drain. -/
def State.endLanes (s : State) : State :=
  let ls := (List.range 64).filter s.laneUp
  let s := ls.foldl (fun s l => (s.suspend l 4 0xFFFF).breakLane l 3) s
  (s.items.map Prod.fst).foldl (fun s n => s.stopItem n) s

/-- A device reset (R419). -/
def State.reset' (s : State) (cause sense : Nat) (auxOk : Bool) : State :=
  let s := ({ s with bar := { s.bar with hostState := 2 } } : State).sendHostState
  let s := s.endLanes.deviceClear.shares
  let s := [F.REL_LOOKOUT_STATE0, F.REL_LOOKOUT_STATE1, F.REL_LOOKOUT_CORE0, F.REL_LOOKOUT_CORE1, F.REL_STATUS_LOOKOUTS,
    F.GLB_THM_STATUS_STOPPING, F.GLB_PWR_STATUS_STATE].foldl (fun s f => s.fset f 0 f.reset) s
  let s := s.fset F.GLB_CLK_STATUS_LOCK 0 31
  let s := s.frozen.readSupply sense auxOk
  let s := s.bootKeep
  let s := (s.bootContexts).bootCores
  let s := s.fset F.GLB_RST_CAUSE_CAUSE 0 cause
  s.log { code := 0x0106, argA := cause }

/-- A reset that the device ignores (R420, R430). -/
def State.resetRefused (s : State) (core : Nat) : State :=
  (s.flag F.GLB_THM_STATUS_RESET_REFUSED 0).log { code := 0x0107, core := core }

/-- Whether a sensor is too hot for a device reset (R430). -/
def State.hotForReset (s : State) : Bool :=
  (List.range 72).any (fun ch => decide (s.limit F.GLB_THM_ABS_STOP_C - 240 < s.hkVal ch))
    || (rangeFrom 72 4).any (fun ch => decide (s.limit F.GLB_THM_MISC_DRAM_STOP - 160 < s.hkVal ch))

/-- GLB_RST_CTRL.DEVICE. -/
def State.deviceReset (s : State) (sense : Nat) (auxOk : Bool) : State :=
  if !s.power.slotPower then s else if s.hotForReset then s.resetRefused 255 else s.reset' 1 sense auxOk

/-- DEVICE_RESET (R419, R430). -/
def execDeviceReset (sense : Nat) (auxOk : Bool) (s : State) : Res := .next (s.deviceReset sense auxOk)

/-- The pins as they were last read. -/
def State.resetNow (s : State) (cause : Nat) : State :=
  s.reset' cause (s.fget F.GLB_PWR_STATUS_SENSE 0) (s.fon F.GLB_PWR_STATUS_AUX_OK 0)

/-- MGT_WATCHDOG (R421). -/
def execMgtWatchdog (s : State) : Res := if !s.power.slotPower then .next s else .next (s.resetNow 2)

/-! ### Core reset (R420) -/

/-- A core that serves no stage is reset, runs a start-up pass, and is free. -/
def State.resetFree (s : State) (c : Nat) : State :=
  let s := s.clearCore c
  let s := (s.calEngines c).foldl (fun s e => s.startupEngine c e) s
  (s.fset F.CORE_STATUS_STATE c 0).fset F.CORE_ROLE_ROLE c 0

/-- Begin to move a working core off its stage (R127 steps 1 to 4); none where no target is available, or another
switch of the model runs. -/
def State.leaveStage (s : State) (c : Nat) : Option State :=
  match s.stageOf c with
  | none => none
  | some (m, r) =>
    match s.freeFor m.context ++ s.lookoutCores with
    | [] => none
    | d :: _ =>
      if m.switching.isSome then none
      else some (s.beginSwitching m r (r.placed.map (fun x => if x = c then d else x)) false)

/-- GLB_RST_CTRL.CORE_RST, by the core's role. -/
def State.coreReset (s : State) (c : Nat) : State :=
  if 32 ≤ c || s.power.resetting.contains c || s.fget F.GLB_PWR_STATUS_STATE 0 == 3 then s
  else match s.fget F.CORE_ROLE_ROLE c with
    | 0 => ((s.settleOn (.core c)).resetFree c).settleOff (.core c)
    | 1 =>
      match s.leaveStage c with
      | none => s.resetRefused c
      | some t => ({ t with power := { t.power with resetting := t.power.resetting ++ [c] } } : State).settleOn (.core c)
    | 2 =>
      match s.lookoutOf c with
      | none => s
      | some k => ((((s.settleOn (.core c)).dropSamples k).resetFree c).makeLookout k c).settleOff (.core c)
    | _ => s

/-- CORE_RESET (R420). -/
def execCoreReset (core : Nat) (s : State) : Res := if !s.power.slotPower then .next s else .next (s.coreReset core)

/-- A core whose cells have been zeroed after it left a context begins to bleed, unless it is retired. -/
def State.bleedAfter (s : State) (c : Nat) (held : Option Place) : State :=
  match held with
  | none => s
  | some p => if s.unit (unitCore c) = 2 then s else s.beginBleed c 0 p.context

/-- A working core that left its stage for a reset is reset once it is zeroed (R420). -/
def State.zeroedReset (s : State) (c : Nat) : State :=
  if !s.power.resetting.contains c then s
  else if s.unit (unitCore c) = 2 then
    ({ s with power := { s.power with resetting := s.power.resetting.filter (fun x => x != c) } } : State).settleOff (.core c)
  else (s.resetFree c).settleOff (.core c)

/-- CELL_ZERO_DONE (R108): the core becomes free, or stays retired, and is then reset where that was asked for; a
free core may become a Lookout (R27).  A core that a context has held bleeds until it is certified (R381). -/
def execCellZeroDone (c : Nat) (s : State) : Res :=
  let r := s.restorer c
  if !r.zeroing then .next s
  else
    let held := (s.core c).place
    let s := s.zeroCore c
    let s := s.bleedAfter c held
    let s := s.setRst c { r with zeroing := false }
    let s := s.fset F.RST_STATUS_STATE c 0
    let s := s.setCore c { s.core c with place := none, scrTime := [], scrZeroed := [], scrQueue := [] }
    let s := if s.unit (unitCore c) = 2 then s.fset F.CORE_STATUS_STATE c 4
      else (s.fset F.CORE_STATUS_STATE c 0).fset F.CORE_ROLE_ROLE c 0
    .next (s.zeroedReset c).designate.retarget

/-! ### Clocks (R422) -/

/-- A PLL has lost lock. -/
def State.lockLost (s : State) (bit' : Nat) : State :=
  s.fset F.GLB_CLK_STATUS_LOCK 0 (clrBit (s.fget F.GLB_CLK_STATUS_LOCK 0) bit')

/-- A core that has lost its clock has a fatal internal error (R350). -/
def State.coreDead (s : State) (c : Nat) : State :=
  match execCoreFailed c true s with
  | .next t => t
  | _ => s

/-- The event of a clock loss. -/
def State.clockEvent (s : State) (core engine : Nat) : State := s.log { code := 0x0108, core := core, engine := engine }

/-- CLOCK_LOSS (Table 17.3). -/
def execClockLoss (clock : Clock) (s : State) : Res :=
  match clock with
  | .field => execFieldWatchdog s
  | .keep => if !s.power.slotPower then .next s
    else .next (s.hostLoss.powerOn (s.fget F.GLB_PWR_STATUS_SENSE 0) (s.fon F.GLB_PWR_STATUS_AUX_OK 0))
  | c =>
    if !s.power.slotPower then .next s
    else match c with
      | .array cs => .next ((cs.filter (fun c => decide (c < 32))).foldl (fun s c => s.coreDead c) ((s.lockLost 0).clockEvent 255 255))
      | .core c => .next ((s.clockEvent c 255).coreDead c)
      | .fabric => .next (((s.lockLost 1).clockEvent 255 255).resetNow 3)
      | .dram => .next (((s.lockLost 2).clockEvent 255 255).resetNow 3)
      | .pcie => .next (s.clockEvent 255 255).conventional
      | .canopy p =>
        let s := s.clockEvent 255 p
        if p < 6 && (s.port p == 1 || s.port p == 2 || s.port p == 3) then .next (s.dropPort p) else .next s
      | _ =>
        let s := (s.lockLost 4).clockEvent 255 255
        .next (s.stopBegin 3 s.drainNs)

/-! ### The orderly stop (R430) and the supplies (R415) -/

/-- STOP_COMMAND (R430). -/
def execStopCommand (s : State) : Res := .next (s.stopBegin 5 s.drainNs)

/-- DRAIN_END (R430). -/
def execDrainEnd (s : State) : Res :=
  match s.power.stop with
  | none => .next s
  | some (cause, t) => if t ≤ s.ns then .next (s.stopEnd cause) else .next s

/-- Whether cores run: some core is neither gated nor retired. -/
def State.coresRun (s : State) : Bool :=
  (List.range 32).any (fun c => s.fget F.CORE_STATUS_STATE c != 0 && s.fget F.CORE_STATUS_STATE c != 4)

/-- AUX_SUPPLY_FAIL (R415): while cores run, the orderly stop with no drain. -/
def execAuxSupplyFail (s : State) : Res :=
  if !s.power.slotPower then .next s
  else
    let s := s.fset F.GLB_PWR_STATUS_AUX_OK 0 0
    if s.coresRun then .next (s.stopBegin 4 0) else .next s

/-- OVERPOWER_CLEAR (R415). -/
def execOverpowerClear (s : State) : Res :=
  if !s.power.overpower || s.power.coolPower = 0 || s.ns + 1 < s.power.coolPower + 1000000000 then .next s
  else .next ({ s with power := { s.power with overpower := false } } : State).frozen

/-- HOUSEKEEPING_STALE (R430). -/
def execHousekeepingStale (s : State) : Res :=
  if s.ns ≤ s.hk.fresh + 10000000 then .next s else .next (s.stopBegin 3 s.drainNs)

/-! ### Temperature (R427, R428, R432) -/

/-- THERMAL_WITHDRAW (R427). -/
def execThermalWithdraw (level : Nat) (s : State) : Res := if s.mayWithdraw level then .next (s.withdraw level) else .next s

/-- GUARD_END (R428): CAL_VALID returns under R119. -/
def execGuardEnd (core : Nat) (s : State) : Res :=
  if !s.power.guard.contains core || !heldFor100 s.power.cool core s.ns || s.fon F.RST_STATUS_DROOP_LIMIT core then .next s
  else
    let g := s.power.guard.filter (fun c => c != core)
    let s := { s with power := { s.power with guard := g } }
    let s := s.fset F.GLB_THM_STATUS_GUARD_ANY 0 (ofBool (!g.isEmpty))
    let s := s.log { code := 0x0102, core := core }
    .next ((List.range 36).foldl (fun s e => s.calRise core e) s)

/-- GLB_THM_COMMIT (R432). -/
def execGlbThmCommit (s : State) : Res :=
  let g (f : Fld) : Nat := s.staging f 0
  let ok := decide (0 < g F.GLB_THM_RISE_RISE1) && decide (g F.GLB_THM_RISE_RISE1 < g F.GLB_THM_RISE_RISE2)
    && decide (g F.GLB_THM_RISE_RISE2 < g F.GLB_THM_RISE_RISE3) && decide (g F.GLB_THM_ABS_GUARD_C < g F.GLB_THM_ABS_STOP_C)
    && decide (g F.GLB_THM_ABS_STOP_C ≤ 1840) && decide (g F.GLB_THM_MISC_DRAM_STOP ≤ 1600) && decide (g F.GLB_THM_MISC_DRAIN ≤ 100)
  if ok then .next (s.applyAll ([F.GLB_THM_RISE_RISE1, F.GLB_THM_RISE_RISE2, F.GLB_THM_RISE_RISE3, F.GLB_THM_ABS_GUARD_C,
    F.GLB_THM_ABS_STOP_C, F.GLB_THM_MISC_DRAM_STOP, F.GLB_THM_MISC_DRAIN].map (fun f => (f, 0))))
  else .next ((s.flag F.GLB_THM_STATUS_CFG_INVALID 0).log { code := 0x0109 })

/-- CNP_COMMIT (R331). -/
def State.cnpCommit (s : State) : State :=
  let a := s.staging F.CNP_CFG_ACK_TO_NS 0
  let r := s.staging F.CNP_CFG_RECEIPT_TO_US 0
  let p := s.staging F.CNP_DIGEST_CFG_PERIOD_MS 0
  if decide (1000 ≤ a) && decide (a ≤ 10000) && decide (4 ≤ r) && decide (r ≤ 100) && decide (10 ≤ p) && decide (p ≤ 10000) then
    s.applyAll ([(F.CNP_CFG_ACK_TO_NS, 0), (F.CNP_CFG_RECEIPT_TO_US, 0), (F.CNP_DIGEST_CFG_PERIOD_MS, 0), (F.CNP_DIGEST_CFG_EN, 0)]
      ++ (List.range 4).map (fun i => (F.CNP_DIGEST_PEERS_MASK, i)))
  else (s.flag F.CNP_STATUS_CFG_INVALID 0).log { code := 0x120B }

/-- CNP_COMMIT (R331). -/
def execCnpCommit (s : State) : Res := .next s.cnpCommit

/-! ### Recovery (R364) -/

/-- RECOVERY_IMAGE (R364 step 1): a valid Keep firmware image goes into the slot that is marked active; the reset
that follows boots it. -/
def execRecoveryImage (image : List Nat) (s : State) : Res :=
  let b := image.map (fun x => x % 256)
  if !s.power.slotPower || s.fget F.KEEP_STATUS_STATE 0 != 2 || slotSize 1 < b.length || !s.fwValid 1 b then .next s
  else
    let k := 2 + s.fwActive 1
    let m := { s.mgmt with images := Tab.set s.mgmt.images k b, factory := s.mgmt.factory.filter (fun x => x != k) }
    .next (({ s with mgmt := m } : State).fset (slotValid (s.fwActive 1)) 1 1)

end Sys2Proof.Machine
end

