-- ==== Sys2Proof/Machine/View.lean ====
section
/-! DEFINITION. What a read of a register of PF BAR0 shows (R57, R59, R62, R105, R187, R204, R227, R332, R369, R447):
the registers that windows and live quantities form at the read, and the views that Table 15.5 gives foreign
readers of a confidential context. -/

namespace Sys2Proof.Machine

/-! ### Registers and 64-bit pairs -/

/-- The register at an offset of PF BAR0, and its instance.  CORE_EPI_TILE1 of core c is instance 32 + c of the
tile register. -/
def findReg (off : Nat) : Option (Reg × Nat) :=
  match regAt off with
  | some x => some x
  | none => if off < 4 then none else match regAt (off - 4) with
    | some (r, i) => if r.off = 0x100814 then some (r, 32 + i) else none
    | none => none

/-- Whether a register is the low word of a 64-bit pair (R13, R445). -/
def pairLow (off : Nat) : Bool :=
  [0x8, 0x20, 0x10010, 0x100884, 0x400014, 0x501000, 0x501010, 0x501028, 0x602000].contains off

/-- The core whose window a register instance belongs to. -/
def instCore (r : Reg) (i : Nat) : Option Nat :=
  match r.bank with
  | .core => some (i % 32)
  | .engine => some (i / 64)
  | _ => none

/-- Whether a core belongs to a confidential context. -/
def State.confCore (s : State) (c : Nat) : Bool := s.conf (s.ctxOf c)

/-! ### Summaries (R447) -/

/-- Whether a W1C field of a register is 1 in an instance that a test admits. -/
def State.sticky (s : State) (r : Reg) (ok : Nat → Bool) : Bool :=
  s.fields.any (fun (p : Nat × Nat) => p.2 != 0 && ok (Nat.unpair p.1).2
    && r.flds.any (fun f => f.acc == .w1c && f.code == (Nat.unpair p.1).1))

/-- GLB_SUMMARY. -/
def State.summary (s : State) : Nat :=
  let any (r : Reg) : Bool := s.sticky r (fun _ => true)
  let core (r : Reg) : Bool := s.sticky r (fun i => (instCore r i).all (fun c => !s.confCore c))
  let set (n b : Nat) (p : Bool) : Nat := if p then setBit n b else n
  let n := set 0 0x01 (any R.GLB_STATUS || any R.GLB_THM_STATUS)
  let n := set n 0x03 (core R.ENG_STATUS)
  let n := set n 0x04 (core R.CORE_EPI_STATUS)
  let n := set n 0x05 (core R.RST_STATUS)
  let n := set n 0x06 (core R.CORE_STATUS || core R.CORE_SCR_STATUS)
  let n := set n 0x07 (core R.SEQ_STATUS)
  let n := set n 0x08 (any R.FAB_STATUS)
  let n := set n 0x09 (any R.MEM_STATUS)
  let n := set n 0x0A (any R.ADM_LANE_STATE)
  let n := set n 0x0B (any R.CTX_STATUS)
  let n := set n 0x0C (any R.HIF_STATUS)
  let n := set n 0x0D (s.sticky R.RING_STATUS (fun i => decide (i < 128)))
  let n := set n 0x0E (any R.FLD_GW_STATUS)
  let n := set n 0x11 (any R.HK_STATUS)
  let n := set n 0x12 (any R.CNP_STATUS)
  let n := set n 0x13 (any R.SYNC_STATUS || any R.SYNC_WAIT)
  let n := set n 0x14 (any R.REL_STATUS)
  let n := set n 0x15 (any R.KEEP_STATUS)
  set n 0x16 (any R.MGT_STATUS)

/-- GLB_SUMMARY_CORE. -/
def State.summaryCore (s : State) : Nat :=
  (List.range 32).foldl (fun n c =>
    let here (r : Reg) : Bool := s.sticky r (fun i => instCore r i == some c)
    if !s.confCore c && (here R.CORE_STATUS || here R.CORE_SCR_STATUS || here R.CORE_EPI_STATUS || here R.SEQ_STATUS
        || here R.RST_STATUS || here R.ENG_STATUS) then setBit n c else n) 0

/-! ### The core window -/

/-- A word of a byte string. -/
def wordOf (b : List Nat) (w : Nat) : Nat := leAt b (4 * w) 4

/-- CORE_EPI_TILE of a tile (Table 4.8).  A sweep is one step of the model, so a read never meets one. -/
def State.tileWord (s : State) (c t : Nat) : Nat :=
  let x := s.tile c t
  let used := x.desc.isSome || !x.usePass.isEmpty || !x.issuedPass.isEmpty
  let st := if x.drain.isSome then 2 else if used then 1 else 0
  let top := x.groupPass.foldl (fun n (p : Nat × Nat) => Nat.max n p.2) 0
  let fly (v : Option EngVec) : Nat := v.elim 0 (fun v => if v.tile = t then v.issued else 0)
  let n := (List.range 36).foldl (fun n e => n + fly (s.engine c e).run + fly (s.engine c e).tree) 0
  st + 4 * Nat.min 32 top + 256 * Nat.min 256 x.groups + 2 ^ 17 * Nat.min 63 n + 2 ^ 23 * ofBool x.fallback.isSome

/-- The second-level value that CORE_EPI_L2_SEL chooses (R85, R105): columns in ascending order of head and output
column. -/
def State.l2View (s : State) (c : Nat) : Int :=
  if !s.fon F.CORE_STATUS_DEBUG c then 0
  else
    let x := s.tile c (s.fget F.CORE_EPI_L2_SEL_TILE c)
    match (s.tileCols c)[s.fget F.CORE_EPI_L2_SEL_COLUMN c]? with
    | none => 0
    | some k => (l2Sum (Tab.getD x.l2 k [])).1

/-- The accumulator that ENG_DBG_SEL chooses (R62, R105). -/
def State.accView (s : State) (c e : Nat) : Int :=
  let col := s.fget F.ENG_DBG_SEL_COLUMN (eng c e)
  if !s.fon F.CORE_STATUS_DEBUG c || planCols (s.plan c e) ≤ col then 0
  else Tab.getD (s.tile c (s.fget F.ENG_DBG_SEL_TILE (eng c e))).acc (colKey e col) 0

/-- A thread's state as SEQ_STATUS shows it. -/
def threadCode (x : Thread) : Nat :=
  if x.entry == .idle then 0 else if x.atBreak then 3 else if x.stalled then 2 else 1

/-- SEQ_STATUS. -/
def State.seqStatus (s : State) (c : Nat) : Nat :=
  let q := s.seq c
  s.regWord R.SEQ_STATUS c + threadCode q.vec + 4 * threadCode q.itm + 16 * (q.vec.pc % 2048) + 2 ^ 15 * (q.itm.pc % 2048)

/-- The word of program memory that SEQ_PM_SEL chooses. -/
def State.pmView (s : State) (c : Nat) : Nat :=
  let w := s.fget F.SEQ_PM_SEL_WORD c
  let i := Tab.getD (s.seq c).pm (w / 2) 0
  if w % 2 = 0 then i % 2 ^ 32 else i / 2 ^ 32 % 2 ^ 32

/-- The address register that SEQ_A_SEL chooses; A1 is the VEC thread's. -/
def State.aView (s : State) (c : Nat) : Nat :=
  let q := s.seq c
  let k := s.fget F.SEQ_A_SEL_REG c
  if k = 0 then 0 else if k = 1 then q.vec.a1 else Tab.getD q.regs k 0

/-- RST_CAL_DATA: what RST_CAL_SEL chooses, current while it is within 2 T (R119). -/
def State.calView (s : State) (c : Nat) : Nat :=
  let e := s.fget F.RST_CAL_SEL_ENGINE c
  let col := s.fget F.RST_CAL_SEL_COLUMN c
  let seg := s.fget F.RST_CAL_SEL_SEG c
  let kind := s.fget F.RST_CAL_SEL_KIND c
  let g := s.engine c e
  let fresh (t : Nat) : Nat := 2 ^ 28 * ofBool (decide (s.ns ≤ t + 2 * s.periodNs c))
  if 32 ≤ e || 1344 ≤ col || !g.inService then 0
  else if kind = 3 then (Tab.find g.rho ((groupOf col * 2 + seg) * 3)).elim 0 (fun r => r.1 % 65536 + fresh r.2)
  else (Tab.find g.cal (calKey col seg kind)).elim 0
    (fun p => gainOf p.inj (g.rhoOf col seg kind) % 65536 + 65536 * (p.ofs % 4096) + fresh p.time)

/-- RST_SPARE_DATA: what RST_SPARE_SEL chooses; spares 32 to 63 exist only under S4, and an engine not in service
reads 0 elsewhere (R133). -/
def State.spareView (s : State) (c : Nat) : Nat :=
  let e := s.fget F.RST_SPARE_SEL_ENGINE c
  let sp := s.fget F.RST_SPARE_SEL_SPARE c
  if 32 ≤ e then 0
  else if 32 ≤ sp && s.plan c e != 2 then 0x3000
  else if !(s.engine c e).inService then 0
  else s.regWord R.RST_SPARE_DATA (spareInst c e sp)

/-- RST_DIGEST_DATA. -/
def State.digestView (s : State) (c : Nat) : Nat :=
  let e := s.fget F.RST_DIGEST_SEL_ENGINE c
  let g := s.engine c e
  if 32 ≤ e || !g.inService then 0
  else wordOf (if s.fon F.RST_DIGEST_SEL_WHICH c then g.expected else g.digest) (s.fget F.RST_DIGEST_SEL_WORD c)

/-- RST_PASS_DATA. -/
def State.passView (s : State) (c : Nat) : Nat :=
  let e := s.fget F.RST_PASS_SEL_ENGINE c
  if 32 ≤ e || !(s.engine c e).inService then 0
  else (s.engine c e).passport.elim 0 (fun p => wordOf (s.passportBytes c e p) (s.fget F.RST_PASS_SEL_WORD c))

/-- ENG_STATUS (R59, Table 6.2): STATE follows the core's state, SUSPECT the unit states of the engine and of its
lanes. -/
def State.engStatus (s : State) (c e : Nat) : Nat :=
  let i := eng c e
  let held (u : Nat) : Bool := s.unit u == 1
  let sus := held (unitEngine c e) || (List.range 336).any (fun l => held (unitLane c e l))
  let st := s.fget F.CORE_STATUS_STATE c
  let gone := st == 4 || s.unit (unitEngine c e) == 2
  let code := if gone then 3 else if st = 2 then 2 else if st = 0 then 0 else 1
  s.fget F.ENG_STATUS_CAL_VALID i + 2 * s.fget F.ENG_STATUS_REFUSED_WRITE i + 4 * s.fget F.ENG_STATUS_CFG_INVALID i
    + 8 * s.fget F.ENG_STATUS_CLIP_SEEN i + 16 * s.fget F.ENG_STATUS_UNCAL_RUN i + 32 * ofBool sus + 256 * code

/-- ENG_TIMING: 16 ns per bit-plane cycle, 20 ns at the guardbanded rate (R423). -/
def State.engTiming (s : State) : Nat := if s.power.slow then 20000 + 65536 else 16000

/-! ### Fabric, memory, admission, Canopy -/

/-- FAB_LINK_DATA of the port that FAB_LINK_SEL chooses: its committed load; the peak queue is measured. -/
def State.linkView (s : State) : Nat :=
  let r := s.fget F.FAB_LINK_SEL_ROUTER 0
  let p := s.fget F.FAB_LINK_SEL_PORT 0
  let fs := s.laneFlows s.held
  let v := if p < 4 then linkLoad fs (r * 8 + p)
    else (fs.filter (fun f => f.dst == r)).foldl (fun n f => n + f.load) 0
  if 4 < p then 0
  else Nat.min 65535 (ceilDiv (v * 256) 13440) + 65536 * (Config.measured s.free % (Nat.min 65535 s.fab.vc0 + 1))

/-- The stage of a context that FAB_EPOCH_SEL chooses. -/
def State.epochSel (s : State) : Option (Model × StageRec) :=
  let x := s.fget F.FAB_EPOCH_SEL_CONTEXT 0
  let g := s.fget F.FAB_EPOCH_SEL_STAGE 0
  s.models.findSome? (fun (m : Model) => if m.context = x then (m.stage g).map (fun r => (m, r)) else none)

/-- FAB_EPOCH_DATA. -/
def State.epochView (s : State) : Nat :=
  s.epochSel.elim 0 (fun p =>
    let k := stageKey p.1.context p.1.id p.2.stage
    (s.epoch k).cur % 65536 + 65536 * ofBool ((s.epoch k).prevOpen || (s.entryEpoch k).prevOpen))

/-- FAB_EPOCH_OLD. -/
def State.epochOldView (s : State) : Nat :=
  s.epochSel.elim 0 (fun p => s.epochOld p.1.context p.1.id p.2.stage % 65536)

/-- MEM_BW_DATA.USED of a class: for the admitted streams the mean of their traffic over the last millisecond, in 0.1 GB/s;
for the others what DRAM_ROUND measured. -/
def State.memUsed (s : State) (cls : Nat) : Nat :=
  if cls = 4 then
    Nat.min 65535 ((s.fab.traffic.filter (fun (p : Nat × Nat) => decide (s.ns < p.1 + 1000000))).foldl
      (fun n (p : Nat × Nat) => n + p.2) 0 / 100000)
  else if cls < 6 then Tab.getD s.fab.used cls 0 % 65536 else 0

/-- DRAM bandwidth that admission has reserved, in bytes per ns. -/
def State.dramUsed (s : State) : Frac :=
  s.sumLanes (fun y => s.spillRate y (fun b => if b.1.host then 0 else b.2.1 + b.2.2))

/-- MEM_PAGE_DATA of the page that MEM_PAGE_SEL chooses (Table 8.4); 0 for a confidential context's page. -/
def State.pageView (s : State) : Nat :=
  let p := s.fget F.MEM_PAGE_SEL_PAGE 0
  if 49152 ≤ p then 0
  else if 1024 ≤ p && p < 1280 then 0x3E
  else match Tab.find s.fab.pages p with
    | none => 0x3F
    | some e => if s.conf e.owner then 0 else e.owner % 64 + 256 * (e.use % 4) + 4096 * (e.keygen % 2)

/-- MEM_MASTER_DATA of the engine that MEM_MASTER_SEL chooses; 0 for a confidential context's engine. -/
def State.masterView (s : State) : Nat :=
  let c := s.fget F.MEM_MASTER_SEL_CORE 0
  if s.confCore c then 0
  else (Tab.find s.fab.bound (c * 32 + s.fget F.MEM_MASTER_SEL_ENGINE 0)).elim 0 (fun r => r % 1024 + 2 ^ 31)

/-- Committed amounts by resource (Table 9.11): item rate, PCI Express in and out, DRAM, contexts, index. -/
def State.resUsed (s : State) (k : Nat) : Nat :=
  let ten (f : Frac) : Nat := (Frac.scale f 10).up
  match k with
  | 0 => (s.sumLanes (fun y => (1000000, Nat.max 1 y.period))).up
  | 1 => ten (s.sumLanes (fun y => y.ingress.add (s.spillRate y (fun b => if b.1.host then b.2.1 else 0))))
  | 2 => ten (s.sumLanes (fun y => y.egress.add (s.spillRate y (fun b => if b.1.host then b.2.2 else 0))))
  | 3 => ten s.dramUsed
  | 4 => s.held.foldl (fun n l => n + (s.lane l).cCount) 0
  | 5 => s.held.foldl (fun n l => n + (s.lane l).hCount) 0
  | _ => 0

/-- Admissible amounts by resource. -/
def State.resCap (s : State) (k : Nat) : Nat :=
  match k with
  | 0 => 32000
  | 1 => s.fget F.ADM_CAPS_PCIE_GBS 0 * 9 / 10
  | 2 => s.fget F.ADM_CAPS_PCIE_GBS 0 * 9 / 10
  | 3 => s.fget F.MEM_SHARE_ADM_ADM 0
  | 4 => 983040
  | 5 => 61440
  | _ => 0

/-- The word of the item found at the last lookup (R227). -/
def State.itemWord (s : State) : Nat :=
  if !s.fon F.ITEM_STATUS_FOUND 0 then 0
  else
    let item := s.fget F.ITEM_SEL_LO_ID_LO 0 + s.fget F.ITEM_SEL_HI_ID_HI 0 * 2 ^ 32
    let l := s.fget F.ITEM_SEL_HI_LANE 0
    match s.ctxOn item l with
    | none => 0
    | some (_, x) => if s.conf (s.lane l).context then 0 else wordOf x.bytes (s.fget F.ITEM_WORD_SEL_WORD 0)

/-- CNP_PORT_LOAD of the selected port. -/
def State.portLoad (s : State) : Nat :=
  let p := s.fget F.CNP_PORT_SEL_PORT 0
  let v := (s.portFlows s.held p).eraseDups.foldl (fun n f => n + f.load) 0
  if 6 ≤ p then 0 else Nat.min 65535 (ceilDiv (v * 256) 13440) + 65536 * 0xA2

/-- CNP_ROUTE_DATA of the selected device. -/
def State.routeView (s : State) : Nat :=
  let d := s.fget F.CNP_ROUTE_SEL_DEVICE 0
  if d = s.me then 6
  else if devices s.dims ≤ d then 7
  else (s.routeTo d).elim 7 (fun q => q.1 + 256 * q.2)

/-- The runs of free sync counters: FREE and LARGEST (Table 13.12). -/
def State.syncFreeView (s : State) : Nat :=
  let us := s.syncBlocks
  let used := us.foldl (fun n u => n + u.2) 0
  let run (b : Nat) : Nat :=
    if us.any (fun u => decide (u.1 ≤ b) && decide (b < u.1 + u.2)) then 0
    else us.foldl (fun e u => if b ≤ u.1 then Nat.min e u.1 else e) 16384 - b
  let top := (0 :: us.map (fun u => u.1 + u.2)).foldl (fun n b => Nat.max n (run b)) 0
  16384 - used + 65536 * top

/-- Whether a counter register follows R61 and belongs to a context's cores, engines, epilogues, restorers,
sequencers or to reliability (Table 15.5). -/
def quantised (off : Nat) : Bool :=
  [0x100090, 0x100840, 0x101060, 0x102070, 0x104040, 0xA00070].any (fun c =>
    (cntFields c).any (fun f => f.reg == off && f.width == 32))

/-- A foreign counter (R369). -/
def quanta (v : Nat) : Nat := v / 4096 * 4096

/-! ### Power and temperature (Table 15.5) -/

/-- A 100 ms mean as a field of `w` bits. -/
def State.meanBits (s : State) (k w : Nat) : Nat := toBits w (Tab.getD s.hk.means k 0)

/-- HK_CH_DATA as a foreign reader sees it. -/
def State.hkView (s : State) : Nat :=
  let ch := s.fget F.HK_CH_SEL_CHANNEL 0
  let raw := s.regWord R.HK_CH_DATA ch
  if s.fon F.KEEP_STATUS_CONF_ACTIVE 0 && (decide (ch < 100) || ch == 127) then
    if s.fon F.KEEP_CONF_CFG_POWER 0 then 2 ^ 29
    else s.meanBits ch 16 + 65536 * s.meanBits (256 + ch) 12 + raw / 2 ^ 28 * 2 ^ 28
  else raw

/-- Module power as a foreign reader sees it. -/
def State.mwView (s : State) : Nat :=
  if !s.fon F.KEEP_STATUS_CONF_ACTIVE 0 then s.fget F.GLB_PWR_MW_MW 0
  else if s.fon F.KEEP_CONF_CFG_POWER 0 then 0 else s.meanBits 128 20

/-- A core's temperature and rise as a foreign reader sees them. -/
def State.thmView (s : State) (c : Nat) : Nat :=
  if !s.fon F.KEEP_STATUS_CONF_ACTIVE 0 then s.regWord R.GLB_THM_DATA c
  else if s.fon F.KEEP_CONF_CFG_POWER 0 then 0
  else s.meanBits (129 + c) 16 + 65536 * s.meanBits (161 + c) 16

/-! ### The view -/

/-- What a read of instance `i` of a register shows, `i` as its offset gives it; the registers that no case names
show their fields. -/
def State.viewWord (s : State) (r : Reg) (i : Nat) : Nat :=
  let j := s.selInst r.off i
  let plain := s.regWord r j
  let word := toBits 32
  let clear (c : Nat) (v : Nat) : Nat := if s.confCore c then 0 else v
  if quantised r.off && (instCore r i).elim (s.fon F.KEEP_STATUS_CONF_ACTIVE 0) s.confCore then quanta plain
  else match r.off with
  | 0x8 => serialNo % 2 ^ 32
  | 0xC => serialNo / 2 ^ 32 % 2 ^ 32
  | 0x10 => s.fget F.GLB_STATUS_ACC_SEEN 0 + 2 * ofBool (s.summary != 0)
  | 0x14 => s.summary
  | 0x18 => s.summaryCore
  | 0x10000 => plain - 4 * s.fget F.MGT_STATUS_SESSIONS 0 + 4 * Nat.min 7 s.mgmt.sessions.length
  | 0x10010 => s.us % 2 ^ 32
  | 0x10014 => s.us / 2 ^ 32 % 2 ^ 32
  | 0x10024 => (Tab.find s.events (s.fget F.MGT_EVT_SEL_SLOT 0)).elim 0 (fun e =>
      wordOf (s.maskRec e).bytes (s.fget F.MGT_EVT_SEL_WORD 0))
  | 0x1002C => if 1 ≤ j && j ≤ 5 then plain else 0
  | 0x20004 => s.mwView
  | 0x20038 => s.thmView j
  | 0x100000 => i % 32 + 256 * (i % 8) + 4096 * (i / 8 % 4)
  | 0x100010 => s.epochAt i % 65536
  | 0x10002C => Tab.getD (if s.fon F.CORE_CAD_SEL_INACTIVE i then s.otherBank i else s.activeBank i) (s.fget F.CORE_CAD_SEL_ENTRY i) 0 % 65536
  | 0x100800 => clear i plain
  | 0x100808 => clear i plain
  | 0x100810 => clear i plain
  | 0x100814 => s.tileWord (i % 32) (i / 32)
  | 0x100884 => word (s.l2View i)
  | 0x100888 => word (s.l2View i / 2 ^ 32)
  | 0x101000 => s.seqStatus i
  | 0x101014 => clear i (s.pmView i)
  | 0x10101C => clear i (if s.fon F.CORE_STATUS_DEBUG i then s.aView i else 0)
  | 0x101024 => wordOf (s.seq i).digest (s.fget F.SEQ_DIGEST_SEL_WORD i)
  | 0x102034 => s.calView i
  | 0x102044 => s.spareView i
  | 0x10204C => s.digestView i
  | 0x102054 => s.passView i
  | 0x104000 => i % 64 + 64 * ofBool (decide (32 ≤ i % 64)) + 256 * (i / 64) + 2 ^ 16 * 0x150
  | 0x10400C => s.engStatus (i / 64) (i % 64)
  | 0x104018 => s.engTiming
  | 0x104084 => word (s.accView (i / 64) (i % 64))
  | 0x104088 => s.fget F.CORE_STATUS_DEBUG (i / 64)
  | 0x300024 => s.linkView
  | 0x300034 => s.epochView
  | 0x300038 => s.epochOldView
  | 0x400010 => s.fget F.MEM_SHARE_ADM_ADM 0 + 65536 * Nat.min 65535 (Frac.scale s.dramUsed 10).up
  | 0x400024 => s.pageView
  | 0x40002C => s.masterView
  | 0x400034 => s.memUsed (s.fget F.MEM_BW_SEL_CLASS 0)
  | 0x500004 => plain % 1024 + 1024 * ofBool (s.ats.contains 0)
  | 0x600004 => plain / 2 * 2 + ofBool s.admBusy
  | 0x600014 => if s.conf (s.lane j).context then 0 else plain
  | 0x600018 => if s.conf (s.lane j).context then 0 else plain
  | 0x60001C => if s.conf (s.lane j).context then 0 else plain
  | 0x600020 => if s.conf (s.lane j).context then quanta plain else plain
  | 0x600024 => if s.conf (s.lane j).context then quanta plain else plain
  | 0x600034 => s.resUsed (s.fget F.ADM_RES_SEL_RESOURCE 0)
  | 0x600038 => s.resCap (s.fget F.ADM_RES_SEL_RESOURCE 0)
  | 0x601004 => s.freeCtx
  | 0x601008 => s.indexUsed
  | 0x602010 => s.itemWord
  | 0x700044 => if j < 6 then plain else 0
  | 0x700048 => if j < 6 then plain else 0
  | 0x70004C => if j < 6 then plain else 0
  | 0x700050 => s.portLoad
  | 0x700064 => s.routeView
  | 0x800000 => if i < 16384 && s.fon F.SYNC_WAIT_ALLOC i && s.conf (s.fget F.SYNC_OWNER_CONTEXT i) then 0 else plain
  | 0x800004 => if 16384 ≤ i || (s.fon F.SYNC_WAIT_ALLOC i && s.conf (s.fget F.SYNC_OWNER_CONTEXT i)) then 0 else plain
  | 0x800008 => if 16384 ≤ i || (s.fon F.SYNC_WAIT_ALLOC i && s.conf (s.fget F.SYNC_OWNER_CONTEXT i)) then 0 else plain
  | 0x80000C => if 16384 ≤ i || (s.fon F.SYNC_WAIT_ALLOC i && s.conf (s.fget F.SYNC_OWNER_CONTEXT i)) then 0 else plain
  | 0x900008 => s.syncFreeView
  | 0xA00028 => if s.fget F.REL_UNIT_SEL_KIND 0 = 3 then 0 else plain
  | 0xA00038 => (Tab.find s.rel.faults (s.fget F.REL_FR_SEL_SLOT 0)).elim 0 (fun b =>
      if s.conf (b.getD 16 0) then 0 else wordOf b (s.fget F.REL_FR_SEL_WORD 0))
  | 0xB00010 => if s.fget F.KEEP_STATUS_STATE 0 = 0 then plain / 2 * 2 + 1 else plain
  | 0xB0004C => if 1 ≤ j && j ≤ 5 then plain else 0
  | 0xC00024 => s.hkView
  | _ => plain

/-! ### Indicators and the FRU record (R448, R449) -/

/-- What a bracket LED shows. -/
inductive Led where
  | off | green | amber | amberFlashing | red
  deriving DecidableEq, Repr

/-- LED H: the supply state of the host section (R448). -/
def State.ledHost (s : State) : Led :=
  if !s.power.slotPower then .off
  else match s.fget F.GLB_PWR_STATUS_STATE 0 with
    | 1 => .green
    | 3 => .red
    | _ => .amber

/-- LED F: the state of the field section (R448, Table 11.1); a brown-out shows as the reset state. -/
def State.ledField (s : State) : Led :=
  if !s.field.supply then (if s.field.brown then .amberFlashing else .off)
  else if s.field.frst || !s.field.ready then .amberFlashing
  else match s.fget F.FLD_STATUS_STATE 0 with
    | 2 => .green
    | _ => .amber

/-- The FRU record on the SMBus: part number, stepping and module serial (R449). -/
def fruRecord : Nat × Nat × Nat := (F.GLB_ID_PART.reset, F.GLB_ID_STEP.reset, serialNo)

end Sys2Proof.Machine
end

