-- ==== Sys2Proof/Machine/Access.lean ====
section
/-! DEFINITION. Register accesses (R12 to R16, R61, R441 to R446): which are discarded and recorded, what a write
does, what a read returns, and the rows of the access family. -/

namespace Sys2Proof.Machine

/-! ### Which register an access names -/

/-- The function number under which an access's pair words are latched and held: 33 for management. -/
def accWho (a : Access) : Nat := if a.mgt then 33 else a.func

/-- Whether an offset lies in the proxy window (R441). -/
def inProxy (off : Nat) : Bool := decide (0xD10000 ≤ off) && decide (off < 0xD20000)

/-- The register that a BAR0 access names, and its instance (Tables 19.1 and 19.3). -/
def accTarget (a : Access) : Option (Reg × Nat) :=
  if a.func = 0 then (if a.off < 0x4000000 then findReg a.off else none)
  else if a.off = 0 then some (R.HIF_VF_ID, a.func)
  else if 0x1000 ≤ a.off && a.off < 0x1200 then
    (findReg (0x501000 + (a.off - 0x1000))).map (fun p => (p.1, ringKey a.func p.2))
  else none

/-- The MSI-X dword or pending word that an access names: its byte offset in the function's table, or in its pending
array plus 0x10000 (R232, R443). -/
def accMsix (a : Access) : Option Nat :=
  if a.func = 0 then
    if a.bar != 4 then none
    else if a.off < 0x2000 then some a.off
    else if a.off < 0x2040 then some (0x10000 + (a.off - 0x2000)) else none
  else if a.bar != 0 then none
  else if 0x2000 ≤ a.off && a.off < 0x2300 then some (a.off - 0x2000)
  else if 0x3000 ≤ a.off && a.off < 0x3008 then some (0x10000 + (a.off - 0x3000)) else none

/-- Whether a register's block is unavailable (R444): the core windows after step 5 of the orderly stop.  Device resets
are one step of the model, so no access falls into one. -/
def State.unavailable (s : State) (a : Access) : Bool :=
  a.func == 0 && decide (0x100000 ≤ a.off) && decide (a.off < 0x300000) && s.fget F.GLB_PWR_STATUS_STATE 0 == 3

/-- Why an access is discarded: KIND of R444, none for one that is served.  DESIGN CHOICE (log entry 95): an access
that is of a wrong size or alignment and also names no register is recorded as one of wrong size; R12 and R444
give no order. -/
def State.accessKind (s : State) (a : Access) : Option Nat :=
  let whole := a.size == 4 && a.off % 4 == 0
  if (accMsix a).isSome then (if whole || (a.size == 8 && a.off % 8 == 0) then none else some 0)
  else if a.bar != 0 then none
  else if !whole then some 0
  else if a.func == 0 && inProxy a.off then none
  else if (accTarget a).isNone then some 1
  else if s.unavailable a then some 2 else none

/-- The counter of discarded accesses (R446). -/
def accCtr : Ctr := ⟨F.GLB_ACC_CNT_COUNT, F.GLB_CNT_CTRL_FREEZE⟩

/-- Record a discarded access (R444, R446). -/
def State.accError (s : State) (a : Access) (kind : Nat) : State :=
  let hide := a.func != 0 && (s.ctxsOfVf a.func).any s.conf
  let s := s.fset F.GLB_ACC_LO_OFFSET 0 (if hide then 0 else a.off)
  let s := s.fset F.GLB_ACC_LO_WRITE 0 (ofBool a.write)
  let s := s.fset F.GLB_ACC_LO_KIND 0 kind
  let s := s.fset F.GLB_ACC_HI_FUNCTION 0 a.func
  let s := s.fset F.GLB_ACC_HI_MGT 0 (ofBool a.mgt)
  let s := s.fset F.GLB_ACC_HI_VALID 0 1
  let s := (s.count accCtr 0).flag F.GLB_STATUS_ACC_SEEN 0
  s.logRate 1000000000 0 { code := 0x010A }

/-- Whether an access can reach the device: the host section is powered, and the link is up for the host's. -/
def State.reached (s : State) (a : Access) : Bool :=
  s.power.slotPower && (a.mgt || s.power.linkUp) && decide (a.func ≤ 32) && (!a.mgt || a.func == 0)

/-! ### MSI-X tables -/

/-- A table dword: masked until it is written (PCI Express). -/
def State.msixGet (s : State) (func off : Nat) : Nat :=
  Tab.getD s.msix (func * 65536 + off / 4) (if off % 16 = 12 then 1 else 0)

/-- A vector that is unmasked sends the message that it owes. -/
def State.msixFlush (s : State) (func vec : Nat) : State :=
  let k := func * 65536 + vec
  if s.msixPending.contains k && !s.vecMasked func vec then
    ({ s with msixPending := s.msixPending.filter (fun v => v != k) } : State).emit (.msix func vec)
  else s

/-- Write a table dword; the pending array ignores writes. -/
def State.msixPut (s : State) (func off v : Nat) : State :=
  if 0x10000 ≤ off then s
  else
    let x := if off % 16 = 12 then v % 2 else if off % 16 = 0 then v / 4 % 2 ^ 30 * 4 else v % 2 ^ 32
    ({ s with msix := Tab.set s.msix (func * 65536 + off / 4) x } : State).msixFlush func (off / 16)

/-- Read a table dword or a pending word. -/
def State.msixRead (s : State) (func off : Nat) : Nat :=
  if off < 0x10000 then s.msixGet func off
  else (List.range 32).foldl (fun n b =>
    if s.msixPending.contains (func * 65536 + (off - 0x10000) * 8 + b) then setBit n b else n) 0

/-! ### Writes -/

/-- Run a meaning that always goes on. -/
def State.run (s : State) (f : State → Res) : State :=
  match f s with
  | .next t => t
  | .fault _ => s
  | .refused _ => s

/-- MGT_COMMIT (R16, R399, R411). -/
def State.mgtCommit (s : State) : State :=
  if s.staging F.MGT_CFG_VECTOR 0 ≤ 511 then
    s.applyAll [(F.MGT_CFG_HOST_IRQ_EN, 0), (F.MGT_CFG_VECTOR, 0), (F.MGT_HOST_MASK_BLOCKS, 0)]
  else (s.flag F.MGT_STATUS_CFG_INVALID 0).log { code := 0x160C }

/-- Whether a ring's registers are locked: the ring runs, or its function's TDI is locked (R252, R368). -/
def State.ringLocked (s : State) (k : Nat) : Bool :=
  s.fget F.RING_STATUS_STATE k != 0 || s.tdi (k / 128) == 1 || s.tdi (k / 128) == 2

/-- A refused write to a ring's registers (R252); one that would break a lock moves the TDI to ERROR (R368). -/
def State.ringRefuse (s : State) (k : Nat) : State :=
  let s := (s.flag F.RING_STATUS_REFUSED_WRITE k).log { code := 0x0D05, argA := k % 128, argB := k / 128 }
  s.tdiFail (k / 128)

/-- HIF_VF_CTX (R233, R251, R368): the selected VF's contexts; those of another VF are not taken. -/
def State.vfCtxWrite (s : State) (v : Nat) : State :=
  let x := s.fget F.HIF_VF_SEL_VF 0
  let vf := x + 1
  let still := (ringsOf vf).all (fun k => s.fget F.RING_STATUS_STATE k == 0)
  if !still || s.tdi vf == 1 || s.tdi vf == 2 then
    ((s.flag F.HIF_STATUS_REFUSED_WRITE 0).log { code := 0x0C05, argA := vf }).tdiFail vf
  else
    let m := (List.range 32).foldl (fun m c =>
      if bit v c && (s.ownerOf c == 0 || s.ownerOf c == vf) then setBit m c else m) 0
    (s.fset F.HIF_VF_CTX_MASK x m).ctxRefresh

/-- CNP_TOPO and CNP_TOPO_ID (R331): the Canopy block is stopped while every port is down, unused or fenced after
STOP. -/
def State.topoWrite (s : State) (r : Reg) (v : Nat) : State :=
  let still := !s.cnp.running && (List.range 6).all (fun p => s.port p == 0 || s.port p == 4 || s.port p == 5)
  if still then s.writeReg r 0 v else (s.flag F.CNP_STATUS_REFUSED_WRITE 0).log { code := 0x120A }

/-- An RWS register of the epilogue (R106). -/
def State.epiWrite (s : State) (r : Reg) (c v : Nat) : State :=
  if s.coreLocked c then
    (s.flag F.CORE_EPI_STATUS_REFUSED_WRITE c).log { code := 0x0401, context := s.ctxOf c, core := c }
  else s.writeReg r c v

/-- KEEP_MB_CMD and KEEP_MB_DATA (R385): refused while a command runs or the Keep restarts. -/
def State.mbRegWrite (s : State) (r : Reg) (i v : Nat) : State :=
  if s.fon F.KEEP_MB_STATUS_BUSY 0 || s.fget F.KEEP_STATUS_STATE 0 == 0 then
    (s.flag F.KEEP_STATUS_REFUSED_WRITE 0).log { code := 0x1508 }
  else s.writeReg r i v

/-- CORE_CTRL: only the first of STOP, HALT, STEP, RESUME and START in one write is acted on (R141). -/
def State.coreCtrl (s : State) (c v : Nat) : State :=
  if bit v 1 then s.coreAsk c .stop
  else if bit v 2 then s.coreAsk c .halt
  else if bit v 4 then s.coreStep c
  else if bit v 3 then s.coreResume c
  else if bit v 0 then s.coreStart c
  else s

/-- GLB_RST_CTRL: the orderly stop, then the device reset, then the core reset. -/
def State.rstCtrl (s : State) (v : Nat) : State :=
  let s := if bit v 2 then s.stopBegin 5 s.drainNs else s
  if bit v 0 then s.deviceReset (s.fget F.GLB_PWR_STATUS_SENSE 0) (s.fon F.GLB_PWR_STATUS_AUX_OK 0)
  else if bit v 1 then s.coreReset (bits v 8 5) else s

/-- Do `f` where a bit of a written word is 1. -/
def State.onBit (s : State) (v b : Nat) (f : State → Res) : State := if bit v b then s.run f else s

/-- The register one word above. -/
def highOf (r : Reg) : Reg := (Reg.all.find? (fun h => h.off == r.off + 4)).getD r

/-- The register one word below. -/
def lowOf (r : Reg) : Reg := (Reg.all.find? (fun l => l.off + 4 == r.off)).getD r

/-- The key under which a word of a pair waits or is latched. -/
def pairKey (off i who : Nat) : Nat := (off * 64 + who) * 8192 + i

/-- The low word that waits takes effect with its high word (R13). -/
def State.takeLow (s : State) (r : Reg) (i who : Nat) : State :=
  let k := pairKey (r.off - 4) i who
  match Tab.find s.lowHeld k with
  | none => s
  | some w => ({ s with lowHeld := Tab.erase s.lowHeld k } : State).writeReg (lowOf r) i w

/-- A low word waits for its high word (R13). -/
def State.holdLow (s : State) (r : Reg) (i who v : Nat) : State :=
  { s with lowHeld := Tab.set s.lowHeld (pairKey r.off i who) v }

/-- A write to a ring block's register. -/
def State.ringWrite (s : State) (r : Reg) (k who v : Nat) : State :=
  let func := k / 128
  let ring := k % 128
  if r.off = 0x501034 then s.onBit v 0 (execRingCommit func ring)
  else if r.off = 0x501038 then (s.onBit v 0 (execRingStart func ring)).onBit v 1 (execRingStop func ring)
  else if (r.rws && s.ringLocked k) || (r.off == 0x501030 && (s.tdi func == 1 || s.tdi func == 2)) then s.ringRefuse k
  else if pairLow r.off then s.holdLow r k who v
  else if r.rws then (s.takeLow r k who).writeReg r k v
  else s.writeReg r k v

/-- What a write of a 32-bit word to a register does. -/
def State.regWrite (s : State) (who : Nat) (r : Reg) (i v : Nat) : State :=
  let j := s.selInst r.off i
  if (instCore r i).any s.retired then s
  else if r.cntCtrl then s.writeCntCtrl r i v
  else match r.bank with
  | .ring => s.ringWrite r i who v
  | _ => match r.off with
    | 0x1000C => if bit v 0 then s.mgtCommit else s
    | 0x20008 => s.rstCtrl v
    | 0x20030 => s.onBit v 0 execGlbThmCommit
    | 0x100004 => s.coreCtrl i v
    | 0x100020 => s.run (execCadCfgWrite i v)
    | 0x1000A0 => (s.onBit v 0 (execDebugEnter i)).onBit v 1 (execDebugExit i)
    | 0x100800 => s.epiWrite r i v
    | 0x100808 => s.epiWrite r i v
    | 0x102000 => (s.onBit v 0 (execRstCalPass i)).onBit v 1 (execPassportSnap i)
    | 0x102010 => s.onBit v 0 (execRstCommit i)
    | 0x104008 => s.run (execEngCfgWrite (i / 64) (i % 64) v)
    | 0x30000C => s.onBit v 0 execFabCommit
    | 0x500014 => s.vfCtxWrite v
    | 0x602000 => s.holdLow r i who v
    | 0x602004 => (s.takeLow r i who).run (execItemLookup v)
    | 0x700008 => (s.onBit v 0 execCnpStart).onBit v 1 execCnpStop
    | 0x70000C => s.topoWrite r v
    | 0x700010 => s.topoWrite r v
    | 0x700018 => s.onBit v 0 execCnpCommit
    | 0xA00008 => s.onBit v 0 (execKatNow (bits v 8 5))
    | 0xA00018 => s.onBit v 0 execRelCommit
    | 0xB00008 => s.mbRegWrite r i v
    | 0xB01000 => s.mbRegWrite r i v
    | 0xB0000C => if bit v 0 then s.mailboxGo else s
    | 0xB00034 => s.onBit v 0 execKeepCommit
    | 0xC00034 => s.onBit v 0 execHkCommit
    | 0xC00088 => s.run (execHkAospSend v)
    | 0xD00008 => s.onBit v 0 execFldGwCommit
    | _ => s.writeReg r j v

/-- A write in BAR2: a doorbell, or a write that is discarded and counted (R232). -/
def State.doorWrite (s : State) (a : Access) (v : Nat) : State :=
  let ring := a.off / 4096
  if a.size = 4 && a.off % 4096 = 0 && ring < ringCount a.func then s.run (execSqDoorbell a.func ring v)
  else if a.size = 4 && a.off % 4096 = 4 && ring < ringCount a.func then s.run (execCqDoorbell a.func ring v)
  else s.count C.HIF_CNT_DB_BAD 0

/-- What a write access does, once it has reached the device. -/
def State.busWrite (s : State) (a : Access) (value : Nat) : State :=
  if a.bar = 2 then s.doorWrite a (value % 2 ^ 32)
  else match s.accessKind a with
  | some k => s.accError a k
  | none =>
    match accMsix a with
    | some off =>
      let s := s.msixPut a.func off (value % 2 ^ 32)
      if a.size = 8 then s.msixPut a.func (off + 4) (value / 2 ^ 32 % 2 ^ 32) else s
    | none =>
      if a.bar = 8 then (if a.size = 4 then s.pciWrite a.func a.off value else s)
      else if a.func = 0 && a.bar = 0 && inProxy a.off then s.proxyPost (a.off - 0xD10000) (value % 2 ^ 32)
      else if a.bar != 0 then s
      else (accTarget a).elim s (fun p => s.regWrite (accWho a) p.1 p.2 (value % 2 ^ 32))

/-! ### Reads -/

/-- What reading a register clears (Table 0.5, R204, R446): its RC fields, and the whole record of a pair. -/
def State.readClear (s : State) (r : Reg) (i : Nat) : State :=
  let s := (r.flds.filter (fun f => f.acc == .rc)).foldl (fun s f => s.fset f i 0) s
  if r.off = 0x24 || r.off = 0x400018 then (lowOf r).flds.foldl (fun s f => s.fset f i 0) s else s

/-- Read a register: the value, and the state after the read.  The low word of a pair latches its high word, and the
next read of the high word returns what was latched (R13).  DESIGN CHOICE (log entry 107): the latched word is kept
for the function that read the low word until that function's next read of the high word, however late, and an RC
read of a high word clears the fields as they then stand, also where a newer record has taken their place. -/
def State.regRead (s : State) (who : Nat) (r : Reg) (i : Nat) : Nat × State :=
  let s := s.rollMeans
  let k := pairKey r.off i who
  let v := (Tab.find s.latch k).getD (s.viewWord r i)
  let s := { s with latch := Tab.erase s.latch k }
  let s := if pairLow r.off then
      { s with latch := Tab.set s.latch (pairKey (r.off + 4) i who) (s.viewWord (highOf r) i) } else s
  let s := if r.off = 0x300024 then s.draw 1 else s
  (v, s.readClear r i)

/-- What a read access returns and does, once it has reached the device; the proxy's reads are a row of their own. -/
def State.busRead (s : State) (a : Access) : Nat × State :=
  match s.accessKind a with
  | some k => (0, s.accError a k)
  | none =>
    match accMsix a with
    | some off =>
      (s.msixRead a.func off + (if a.size = 8 then 2 ^ 32 * s.msixRead a.func (off + 4) else 0), s)
    | none =>
      if a.bar = 8 then (s.pciConfig a.func (a.off / 4 * 4) / 2 ^ (8 * (a.off % 4)) % 2 ^ (8 * a.size), s)
      else if a.bar != 0 then (0, s)
      else match accTarget a with
        | none => (0, s)
        | some (r, i) => if r.off = 0x10000000 then (a.func + 256 * 8 + 65536 * 0x30, s) else s.regRead (accWho a) r i

/-- A read by the host: what it returned stays as the last read's data. -/
def State.hostGet (s : State) (a : Access) : State :=
  let p := s.busRead a
  { p.2 with readData := [p.1] }

/-! ### The rows -/

/-- Whether a register holds RC fields. -/
def Reg.rc (r : Reg) : Bool := r.flds.any (fun f => f.acc == .rc)

/-- REGISTER_WRITE (R15): a write access that reaches the device. -/
def execRegisterWrite (a : Access) (value : Nat) (s : State) : Res :=
  if a.write && s.reached a then .next (s.busWrite a value) else .next s

/-- LOW_WORD_READ (R13): a read of a register that holds no RC field; that of a pair's low word latches the high
one. -/
def execLowWordRead (a : Access) (s : State) : Res :=
  if !a.write && s.reached a && !(a.func == 0 && a.bar == 0 && inProxy a.off) && !(accTarget a).any (fun p => p.1.rc) then
    .next (s.hostGet a)
  else .next s

/-- RC_FIELD_READ (R15, R16): a read of a register that holds RC fields. -/
def execRcFieldRead (a : Access) (s : State) : Res :=
  if !a.write && s.reached a && a.bar == 0 && (accTarget a).any (fun p => p.1.rc) then .next (s.hostGet a) else .next s

/-- ACCESS_DISCARDED (R444). -/
def execAccessDiscarded (a : Access) (s : State) : Res :=
  match s.accessKind a with
  | some k =>
    if !s.reached a then .next s
    else if a.write then .next (s.accError a k) else .next { s.accError a k with readData := [0] }
  | none => .next s

/-- COUNTER_CLEAR (R61): a write to a counter control register. -/
def execCounterClear (a : Access) (value : Nat) (s : State) : Res :=
  if a.write && s.reached a && a.bar == 0 && (accTarget a).any (fun p => p.1.cntCtrl) then .next (s.busWrite a value)
  else .next s

/-- MGT_COMMIT (R16, R411). -/
def execMgtCommit (s : State) : Res := .next s.mgtCommit

end Sys2Proof.Machine
end

