-- ==== Sys2Proof/Machine/Sess.lean ====
section
/-! DEFINITION. Management sessions (R389 to R401): handshakes and claims, subscriptions and acknowledgements,
telemetry, the time, register access, and the state queries of Table 16.3. -/

namespace Sys2Proof.Machine

/-! ### Sessions (R389 to R394) -/

/-- The open session with a number. -/
def State.session (s : State) (id : Nat) : Option Session := s.mgmt.sessions.find? (fun e => e.id == id)

/-- Change a session. -/
def State.updSession (s : State) (id : Nat) (f : Session → Session) : State :=
  { s with mgmt := { s.mgmt with sessions := s.mgmt.sessions.map (fun e => if e.id = id then f e else e) } }

/-- Close a session: what it was staging is abandoned, but for an image that the field controller is validating. -/
def State.closeSession (s : State) (id : Nat) : State :=
  let waits (typ : Nat) : Bool := typ == 5 && s.mgmt.stage5.any (fun p => p.1 == id)
  let gone := s.mgmt.staging.filter (fun (p : Nat × Nat) => p.2 == id && !waits p.1)
  let s := gone.foldl (fun s (p : Nat × Nat) => s.fset F.MGT_FW_DATA_STATE p.1 0) s
  { s with mgmt := { s.mgmt with
    sessions := s.mgmt.sessions.filter (fun e => e.id != id)
    staging := Tab.keep s.mgmt.staging (fun k v => v != id || waits k) } }

/-- Whether the management controller serves its port: powered, not restarting, and not in the recovery of R364
that leaves only the mask-ROM image. -/
def State.mgtUp (s : State) : Bool := s.power.slotPower && !s.mgmt.down && s.fwBoots 1 && s.fwBoots 2

/-- Run a message of a session (R391 to R395): a claiming session accepts CLAIM alone; then the header and the role
are checked. -/
def State.mgtRun (s : State) (m : MgtMsg) (typ role : Nat) (f : State → Session → State) : Res :=
  match (if s.mgtUp then s.session m.session else none) with
  | none => .next s
  | some e =>
    if e.claiming && typ != 0x0002 then .next (s.closeSession e.id)
    else
      let now := s.ns
      let s := s.updSession e.id (fun e => { e with lastMsg := now })
      if m.bad then .next (s.answer e.id typ m.tag 1 [])
      else if e.role < role then .next (s.answer e.id typ m.tag 2 [])
      else .next (f s e)

/-- The trust anchor to which a chain leads, the lowest slot first. -/
def State.anchorFor (s : State) (chain : List Nat) : Option (Nat × Anchor) :=
  s.mgmt.anchors.find? (fun (p : Nat × Anchor) => Config.chainValid chain p.2.key)

/-- Open a session. -/
def State.openSession (s : State) (chain : List Nat) (anchor role : Nat) (claiming : Bool) : State :=
  let id := s.mgmt.nextId
  let e : Session := {
    id := id, anchor := anchor, role := role, key := Config.chainKey chain, claiming := claiming, lastMsg := s.ns
    sub := none, faultNext := 0, period := 0, teleAt := 0, teleItem := [], teleLate := [] }
  let s := { s with mgmt := { s.mgmt with sessions := s.mgmt.sessions ++ [e], nextId := id + 1 } }
  (s.count C.MGT_CNT_SESSION 0).log { code := 0x1601, engine := anchor }

/-- A failed handshake: counted, and logged at most once a second. -/
def State.authFail (s : State) : State := (s.count C.MGT_CNT_AUTHFAIL 0).logRate 1000000000 0 { code := 0x1602 }

/-- The link has shown its rate by the first handshake; which of the two it is, the spec leaves to
auto-negotiation. -/
def State.linkSeen (s : State) : State :=
  if s.fget F.MGT_STATUS_LINK 0 != 0 then s
  else (s.fset F.MGT_STATUS_LINK 0 (1 + Config.unstated s.free % 2)).draw 1

/-- SESSION_HANDSHAKE (R389 to R392): `ok` says whether everything but the trust in the chain is as R389 asks, the
validity periods included once TIME_SET has given the device a time. -/
def execSessionHandshake (chain : List Nat) (ok : Bool) (s : State) : Res :=
  if !s.mgtUp || 4 ≤ s.mgmt.sessions.length then .next s
  else
    let s := s.linkSeen
    if !ok then .next s.authFail
    else if s.fon F.MGT_STATUS_CLAIMED 0 then
      match s.anchorFor chain with
      | none => .next s.authFail
      | some (k, a) => .next (s.openSession chain k a.role false)
    else if Config.chainValid chain (Config.chainKey chain) then .next (s.openSession chain 255 0 true)
    else .next s.authFail

/-- SESSION_IDLE_TIMEOUT (R392). -/
def execSessionIdleTimeout (id : Nat) (s : State) : Res :=
  match s.session id with
  | none => .next s
  | some e => if s.ns < e.lastMsg + 300000000000 then .next s else .next (s.closeSession id)

/-! ### CLAIM and HELLO (R391, R394) -/

/-- The stored digest of the claim code. -/
def claimDigest : List Nat := (List.range 64).map (fun i => Config.nonVolatile 7 i % 256)

/-- A claim that fails: the session is closed. -/
def State.claimFail (s : State) (id : Nat) (compared : Bool) : State :=
  let s := if compared then { s with mgmt := { s.mgmt with failedClaims := s.mgmt.failedClaims ++ [s.ns] } } else s
  s.closeSession id

/-- CLAIM_MODULE (R391); a sixth claim within an hour of five failed ones is not accepted. -/
def execClaimModule (m : MgtMsg) (s : State) : Res :=
  s.mgtRun m 0x0002 0 (fun s e =>
    if s.fon F.MGT_STATUS_CLAIMED 0 || !e.claiming then s.answer e.id 0x0002 m.tag 4 []
    else
      let recent := s.mgmt.failedClaims.filter (fun t => decide (s.ns < t + 3600000000000))
      let s := { s with mgmt := { s.mgmt with failedClaims := recent } }
      if 5 ≤ recent.length then s.claimFail e.id false
      else if shake256 (m.payload.map (fun b => b % 256)) != claimDigest then s.claimFail e.id true
      else
        let s := { s with mgmt := { s.mgmt with anchors := Tab.set s.mgmt.anchors 0 ⟨2, e.key⟩ } }
        let s := s.fset F.MGT_STATUS_CLAIMED 0 1
        let s := s.updSession e.id (fun e => { e with claiming := false, anchor := 0, role := 2 })
        (s.log { code := 0x1603, engine := 0 }).answer e.id 0x0002 m.tag 0 [])

/-- The reply to HELLO. -/
def State.helloBytes (s : State) : List Nat :=
  bytesOf 2 1 ++ identityBytes ++ [1, 2, 3, 4, 5].flatMap (fun t =>
    let b := s.fwImage t (s.fwActive t)
    bytesOf 4 (leAt b 12 4) ++ bytesOf 4 (leAt b 8 4))

/-- HELLO (R394). -/
def execHello (m : MgtMsg) (s : State) : Res := s.mgtRun m 0x0001 0 (fun s e => s.answer e.id 0x0001 m.tag 0 s.helloBytes)

/-! ### Events and fault records (R359, R398) -/

/-- Push the records that the log holds from one SEQ on to the head, and subscribe the session to what follows. -/
def State.catchUp (s : State) (id seq mask : Nat) : State :=
  let h := s.fget F.MGT_EVT_HEAD_NEXT 0
  let rs := (rangeFrom seq (h - seq)).filterMap (fun q => Tab.find s.events (q % 262144))
  let outs := (rs.filter (fun (r : EventRec) => mask.testBit (r.code / 256))).map (fun (r : EventRec) => Out.push id 0x0004 (s.maskRec r).bytes)
  ({ s with out := s.out ++ outs } : State).updSession id (fun e => { e with sub := some (Nat.max seq h, mask) })

/-- Tell a session how many records it has missed (R398), as a record of the log that it receives first. -/
def State.eventsLost (s : State) (id n : Nat) : State :=
  let q := s.fget F.MGT_EVT_HEAD_NEXT 0
  let k := Nat.min 65535 n
  let s := s.log { code := 0x160A, count := k, argB := k }
  match Tab.find s.events (q % 262144) with
  | none => s
  | some r => s.emit (.push id 0x0004 r.bytes)

/-- Push the fault records that no session has acknowledged, and what follows. -/
def State.catchFaults (s : State) (id : Nat) : State :=
  let h := s.fget F.REL_FR_HEAD_NEXT 0
  let f := Nat.max s.mgmt.faultAcked (h - 65536)
  let outs := (rangeFrom f (h - f)).filterMap (fun n => (Tab.find s.rel.faults (n % 65536)).map (fun b => Out.push id 0x0006 b))
  ({ s with out := s.out ++ outs } : State).updSession id (fun e => { e with faultNext := h })

/-- Subscribe a session from a SEQ on (R398). -/
def State.subscribe (s : State) (id seq mask : Nat) : State :=
  let h := s.fget F.MGT_EVT_HEAD_NEXT 0
  let s := s.catchFaults id
  if seq = 0xFFFFFFFF then s.updSession id (fun e => { e with sub := some (h, mask) })
  else
    let oldest := h - 262144
    if seq < oldest then (s.eventsLost id (oldest - seq)).catchUp id oldest mask
    else if h < seq then s.updSession id (fun e => { e with sub := some (seq, mask) })
    else s.catchUp id seq mask

/-- SUBSCRIBE (R398). -/
def execSubscribe (m : MgtMsg) (s : State) : Res :=
  s.mgtRun m 0x0003 0 (fun s e =>
    if m.payload.length != 8 then s.answer e.id 0x0003 m.tag 1 []
    else (s.answer e.id 0x0003 m.tag 0 []).subscribe e.id (leAt m.payload 0 4) (leAt m.payload 4 4))

/-- EVENT_ACK (R398): every record up to a SEQ is acknowledged. -/
def execEventAck (m : MgtMsg) (s : State) : Res :=
  s.mgtRun m 0x0005 1 (fun s e =>
    if m.payload.length != 4 then s.answer e.id 0x0005 m.tag 1 []
    else
      let n := Nat.min (s.fget F.MGT_EVT_HEAD_NEXT 0) (leAt m.payload 0 4 + 1)
      ({ s with mgmt := { s.mgmt with acked := Nat.max s.mgmt.acked n } } : State).answer e.id 0x0005 m.tag 0 [])

/-- FAULT_ACK (R359). -/
def execFaultAck (m : MgtMsg) (s : State) : Res :=
  s.mgtRun m 0x0007 1 (fun s e =>
    if m.payload.length != 4 then s.answer e.id 0x0007 m.tag 1 []
    else
      let n := Nat.min (s.fget F.REL_FR_HEAD_NEXT 0) (leAt m.payload 0 4 + 1)
      ({ s with mgmt := { s.mgmt with faultAcked := Nat.max s.mgmt.faultAcked n } } : State).answer e.id 0x0007 m.tag 0 [])

/-! ### Telemetry (R400) -/

/-- A temperature channel as the management network sees it (Table 15.5). -/
def State.chanView (s : State) (ch : Nat) : Int :=
  if !s.fon F.KEEP_STATUS_CONF_ACTIVE 0 then s.hkVal ch
  else if s.fon F.KEEP_CONF_CFG_POWER 0 then 0 else Tab.getD s.hk.means ch 0

/-- The highest of some channels. -/
def State.chanMax (s : State) (l : List Nat) : Int := l.foldl (fun m ch => max m (s.chanView ch)) (s.chanView (l.headD 0))

/-- The device rise as the management network sees it. -/
def State.riseView (s : State) : Nat :=
  if !s.fon F.KEEP_STATUS_CONF_ACTIVE 0 then s.fget F.GLB_THM_STATUS_RISE_MAX 0
  else if s.fon F.KEEP_CONF_CFG_POWER 0 then 0 else s.meanBits 193 16

/-- A count as the management network sees it. -/
def State.foreignCnt (s : State) (l v : Nat) : Nat := if s.conf (s.lane l).context then quanta v else v

/-- The change of a counter since the last record; a counter that was cleared counts from 0. -/
def since (now old : Nat) : Nat := if old ≤ now then now - old else now

/-- One entry of CORES. -/
def State.teleCore (s : State) (c : Nat) : List Nat :=
  [s.fget F.CORE_STATUS_STATE c, s.fget F.CORE_ROLE_ROLE c, s.unit (unitCore c), 0]
    ++ bytesOf 2 (s.fget F.RST_PERIOD_CUR_US c) ++ bytesOf 2 (s.fget F.RST_DROOP_PPM_MS c)

/-- One entry of LANES; a confidential context's lanes read 0 but for their counters. -/
def State.teleLane (s : State) (e : Session) (l : Nat) : List Nat :=
  let hide := s.conf (s.lane l).context
  let it := s.foreignCnt l (s.fget F.ADM_LANE_CNT_ITEM_COUNT l)
  let late := s.foreignCnt l (s.fget F.ADM_LANE_CNT_LATE_COUNT l)
  let slack := if hide then 0 else toBits 32 ((s.fget F.ADM_LANE_DT_NS l : Int) - s.fget F.ADM_LANE_WCR_NS l)
  [if hide then 0 else s.regWord R.ADM_LANE_STATE l % 256, 0, 0, 0]
    ++ bytesOf 4 (since it (Tab.getD e.teleItem l 0)) ++ bytesOf 4 (since late (Tab.getD e.teleLate l 0)) ++ bytesOf 4 slack

/-- The telemetry record (Table 16.6). -/
def State.teleBytes (s : State) (e : Session) : List Nat :=
  bytesOf 8 s.us ++ bytesOf 4 (s.fget F.MGT_EVT_HEAD_NEXT 0)
    ++ [s.fget F.KEEP_STATUS_CONF_ACTIVE 0 + 2 * ofBool (!s.keep.settle.isEmpty) + 4 * ofBool s.bar.fieldHere
        + 8 * s.fget F.ADM_STATUS_FROZEN 0, s.fget F.REL_STATUS_LOOKOUTS 0, 0, 0]
    ++ bytesOf 4 s.mwView ++ bytesOf 2 (toBits 16 (s.chanMax (List.range 72)))
    ++ bytesOf 2 (toBits 16 (s.chanMax (rangeFrom 72 4))) ++ bytesOf 2 s.riseView ++ List.replicate 6 0
    ++ (List.range 32).flatMap s.teleCore ++ (List.range 64).flatMap (s.teleLane e)
    ++ (List.range 6).flatMap (fun k => bytesOf 4 (s.resUsed k) ++ bytesOf 4 (s.resCap k))

/-- Push a telemetry record, and note the counters it was formed from. -/
def State.telemetry (s : State) (e : Session) : State :=
  let items := (List.range 64).map (fun l => (l, s.foreignCnt l (s.fget F.ADM_LANE_CNT_ITEM_COUNT l)))
  let lates := (List.range 64).map (fun l => (l, s.foreignCnt l (s.fget F.ADM_LANE_CNT_LATE_COUNT l)))
  let t := s.us + 1
  (s.emit (.push e.id 0x0009 (s.teleBytes e))).updSession e.id (fun e => { e with teleAt := t, teleItem := items, teleLate := lates })

/-- Whether a multiple of a session's period has come since its last record. -/
def State.teleDue (s : State) (e : Session) : Bool :=
  let p := e.period * 1000
  e.period != 0 && decide ((e.teleAt - 1) / p < s.us / p)

/-- TELEMETRY_TIMER (R400). -/
def execTelemetryTimer (id : Nat) (s : State) : Res :=
  match (if s.mgtUp then s.session id else none) with
  | none => .next s
  | some e => if s.teleDue e then .next (s.rollMeans.telemetry e) else .next s

/-- TELEMETRY_CFG (R400): 0 stops. -/
def execTelemetryCfg (m : MgtMsg) (s : State) : Res :=
  s.mgtRun m 0x0008 0 (fun s e =>
    let p := leAt m.payload 0 4
    if m.payload.length != 4 || !(p == 0 || (decide (10 ≤ p) && decide (p ≤ 10000))) then s.answer e.id 0x0008 m.tag 1 []
    else
      let t := s.us + 1
      (s.updSession e.id (fun e => { e with period := p, teleAt := t })).answer e.id 0x0008 m.tag 0 [])

/-! ### Time (R401) -/

/-- TIME_SET (R401): MGT_TIME_OFS holds the wall-clock seconds at count 0. -/
def execTimeSet (m : MgtMsg) (s : State) : Res :=
  s.mgtRun m 0x0052 1 (fun s e =>
    if m.payload.length != 8 then s.answer e.id 0x0052 m.tag 1 []
    else
      let s := s.fset F.MGT_TIME_OFS_SECONDS 0 ((leAt m.payload 0 8 - s.us) / 1000000)
      ({ s with mgmt := { s.mgmt with timeSet := true } } : State).answer e.id 0x0052 m.tag 0 [])

/-! ### Register access (R392) -/

/-- The access that a management session makes with the PF's authority. -/
def mgtAccess (space off : Nat) (write : Bool) : Access :=
  { func := 0, mgt := true, bar := 0, off := if space = 1 then 0xD10000 + off else off, size := 4, write := write }

/-- Read words one after the other; words of the proxy window come from the field controller, and the reply waits
for them. -/
def State.regWords (s : State) (id tag space off : Nat) : Nat → List Nat → State
  | 0, got => s.answer id 0x0010 tag 0 (got.flatMap (bytesOf 4))
  | n + 1, got =>
    let a := mgtAccess space off false
    if proxied a false then
      let more := Nat.min n ((0xD20000 - 4 - a.off) / 4)
      s.proxyRun (n + 1) { func := 0, addr := a.off - 0xD10000, tag := 0, since := s.ns, sess := some (id, tag), more := more, got := got }
    else
      let r := s.busRead a
      r.2.regWords id tag space (off + 4) n (got ++ [r.1])

/-- REG_READ (R392, R394). -/
def execRegRead (m : MgtMsg) (s : State) : Res :=
  s.mgtRun m 0x0010 0 (fun s e =>
    let space := m.payload.getD 0 0
    let off := leAt m.payload 4 4
    let n := leAt m.payload 8 2
    if m.payload.length != 10 || 1 < space || n = 0 || 256 < n || (space == 1 && decide (0x10000 < off + 4 * n))
        || (decide (off < 0xD20000) && decide (0xD10000 < off + 4 * n) && decide (0xD20000 < off + 4 * n)) then
      s.answer e.id 0x0010 m.tag 1 []
    else s.regWords e.id m.tag space off n [])

/-- REG_WRITE (R392, R394). -/
def execRegWrite (m : MgtMsg) (s : State) : Res :=
  s.mgtRun m 0x0011 1 (fun s e =>
    let space := m.payload.getD 0 0
    let off := leAt m.payload 4 4
    if m.payload.length != 12 || 1 < space || (space == 1 && decide (0x10000 ≤ off)) then s.answer e.id 0x0011 m.tag 1 []
    else (s.busWrite (mgtAccess space off true) (leAt m.payload 8 4)).answer e.id 0x0011 m.tag 0 [])

/-! ### Passports, peers and anchors (R131, R390, R407) -/

/-- PASSPORT_READ (R131): a fresh snapshot of one engine in service. -/
def execPassportRead (m : MgtMsg) (s : State) : Res :=
  s.mgtRun m 0x0043 0 (fun s e =>
    let c := m.payload.getD 0 0
    let g := m.payload.getD 1 0
    if m.payload.length != 2 || 32 ≤ c || 32 ≤ g then s.answer e.id 0x0043 m.tag 1 []
    else if s.retired c || !(s.inService c).contains g then s.answer e.id 0x0043 m.tag 4 []
    else
      let s := s.snapEngine c g
      s.answer e.id 0x0043 m.tag 0 ((s.engine c g).passport.elim [] (fun p => s.passportBytes c g p)))

/-- PEER_LIST (R407): up to 128 serials. -/
def execPeerList (m : MgtMsg) (s : State) : Res :=
  s.mgtRun m 0x0050 2 (fun s e =>
    let n := m.payload.length
    if n % 8 != 0 || 1024 < n then s.answer e.id 0x0050 m.tag 1 []
    else
      ({ s with mgmt := { s.mgmt with peers := (List.range (n / 8)).map (fun i => leAt m.payload (8 * i) 8) } } : State).answer
        e.id 0x0050 m.tag 0 [])

/-- Put an anchor into a slot, or empty the slot with role 0xFF. -/
def anchorPut (t : Tab Anchor) (slot role : Nat) (key : List Nat) : Tab Anchor :=
  if role = 0xFF then Tab.erase t slot else Tab.set t slot ⟨role, key⟩

/-- Whether an administrator anchor is left. -/
def anchorsOk (t : Tab Anchor) : Bool := t.any (fun (p : Nat × Anchor) => p.2.role == 2)

/-- ANCHOR_SET (R390). -/
def execAnchorSet (m : MgtMsg) (s : State) : Res :=
  s.mgtRun m 0x0051 2 (fun s e =>
    let slot := m.payload.getD 0 0
    let role := m.payload.getD 1 0
    if m.payload.length != 65 || 4 ≤ slot || !(decide (role ≤ 2) || role == 0xFF) then s.answer e.id 0x0051 m.tag 1 []
    else
      let t := anchorPut s.mgmt.anchors slot role (slice m.payload 8 57)
      if anchorsOk t then ({ s with mgmt := { s.mgmt with anchors := t } } : State).answer e.id 0x0051 m.tag 0 []
      else s.answer e.id 0x0051 m.tag 4 [])

end Sys2Proof.Machine
end

