-- ==== Sys2Proof/Machine/FwMgt.lean ====
section
/-! DEFINITION. Firmware in service (R402 to R406), and the ring and mailbox commands that management sessions carry
(R396). -/

namespace Sys2Proof.Machine

/-! ### Staging (R402) -/

/-- Whether the field controller can be reached over the barrier. -/
def State.fieldReach (s : State) : Bool := s.bar.up && s.bar.fieldHere

/-- Image bytes on their way to the field controller: firmware data messages of eight bytes each. -/
def State.fwSend (s : State) (off : Nat) (b : List Nat) : State :=
  (List.range (ceilDiv b.length 8)).foldl (fun s i =>
    s.toField ([6, 5, 0, 0] ++ bytesOf 4 (off + 8 * i) ++ slice b (8 * i) 8)) s

/-- Why FW_STAGE is refused, 0 for none: another activation of the type, another session, or no field controller. -/
def State.stageRefusal (s : State) (id typ : Nat) : Nat :=
  if s.mgmt.act.any (fun a => a.typ == typ) || (Tab.find s.mgmt.staging typ).any (fun x => x != id)
      || (typ == 5 && s.mgmt.stage5.isSome) then 3
  else if typ = 5 && !s.fieldReach then 4 else 0

/-- DONE: the slot is validated here, or by the field controller. -/
def State.stageDone (s : State) (e : Session) (tag typ : Nat) : State :=
  if typ = 5 then ({ s with mgmt := { s.mgmt with stage5 := some (e.id, tag) } } : State).fwTell 2
  else
    let s := s.fwCheck typ (s.fwIdle typ)
    let s := ({ s with mgmt := { s.mgmt with staging := Tab.erase s.mgmt.staging typ } } : State).fset F.MGT_FW_DATA_STATE typ 0
    if s.fon (slotValid (s.fwIdle typ)) typ then
      (s.log { code := 0x1604, engine := e.anchor, argA := typ }).answer e.id 0x0030 tag 0 []
    else s.answer e.id 0x0030 tag 6 []

/-- Write image bytes into the inactive slot; the slot is not valid until it has been validated. -/
def State.stageBytes (s : State) (typ off : Nat) (b : List Nat) (first : Bool) : State :=
  let s := s.fset (slotValid (s.fwIdle typ)) typ 0
  let s := s.fset F.MGT_FW_DATA_STATE typ 1
  let s := if !first then s else (if typ = 5 then s.fwTell 1 else s).fwErase typ
  (if typ = 5 then s.fwSend off b else s).fwPut typ off b

/-- FW_STAGE (R402). -/
def execFwStage (m : MgtMsg) (s : State) : Res :=
  s.mgtRun m 0x0030 2 (fun s e =>
    let p := m.payload
    let typ := p.getD 0 0
    let fl := p.getD 1 0
    let off := leAt p 4 4
    let b := (p.drop 8).map (fun x => x % 256)
    if p.length < 8 || typ = 0 || 5 < typ || 3 < fl || slotSize typ < off + b.length then s.answer e.id 0x0030 m.tag 1 []
    else if s.stageRefusal e.id typ != 0 then s.answer e.id 0x0030 m.tag (s.stageRefusal e.id typ) []
    else
      let s := { s with mgmt := { s.mgmt with staging := Tab.set s.mgmt.staging typ e.id } }
      let s := s.stageBytes typ off b (bit fl 0)
      if bit fl 1 then s.stageDone e m.tag typ else s.answer e.id 0x0030 m.tag 0 [])

/-! ### Activation (R403 to R406) -/

/-- The Keep goes down to restart: what it had queued ends without an answer (R373). -/
def State.keepDown (s : State) : State :=
  let mb := s.keep.queue.any (fun r => r.by' == .mailbox)
  let s := if mb then s.fset F.KEEP_MB_STATUS_BUSY 0 0 else s
  ({ s with keep := { s.keep with queue := [] } } : State).fset F.KEEP_STATUS_STATE 0 0

/-- The Keep runs again (R364 steps 2 and 3, R403): the device reset generation rises, a new attestation key is
derived, and what waited goes on. -/
def State.keepUp (s : State) : State :=
  let g := s.fget F.KEEP_RESETGEN_DEVICE 0 + 1
  let s := s.fset F.KEEP_RESETGEN_DEVICE 0 g
  let s := { s with keep := { s.keep with ak := s.free }, bar := { s.bar with hostGen := g % 256 }, free := s.free + 1 }
  let s := s.fset F.KEEP_STATUS_STATE 0 (if s.keep.settle.isEmpty then 1 else 3)
  let qs := s.keep.waiting
  let cs := s.keep.starts
  let s := { s with keep := { s.keep with waiting := [], starts := [] } }
  let s := qs.foldl (fun s q => s.keepRun q.by' q.cmd q.ctx q.input) s
  cs.foldl (fun s c => s.coreStart c) s

/-- The management controller goes down to restart: sessions close. -/
def State.mgtDown (s : State) : State :=
  let s := s.mgmt.sessions.foldl (fun s e => s.closeSession e.id) s
  { s with mgmt := { s.mgmt with down := true } }

/-- Change the activation in progress. -/
def State.setAct (s : State) (f : Activation → Activation) : State :=
  { s with mgmt := { s.mgmt with act := s.mgmt.act.map f } }

/-- The cores that hold a stage, which take microcode one at a time (R405). -/
def State.workCores (s : State) : List Nat := (List.range 32).filter (fun c => s.fget F.CORE_ROLE_ROLE c == 1)

/-- Free cores that a core's context may take, then the Lookouts. -/
def State.microPool (s : State) (c : Nat) : List Nat := s.freeFor (s.ctxOf c) ++ s.lookoutCores

/-- The part begins to restart, from its trial slot or from its previous one. -/
def State.partDown (s : State) (a : Activation) : State :=
  match a.typ with
  | 1 => s.keepDown
  | 2 => s.mgtDown
  | 5 => s.fwTell (if a.phase = .backing then 5 else 3)
  | _ =>
    let cs := s.workCores
    let s := s.setAct (fun a => { a with cores := cs, target := none, moving := none })
    if a.atFrame then cs.foldl (fun s c => s.askFrame (s.ctxOf c) (.microcode c)) s else s

/-- An activation goes back to its previous slot. -/
def State.actBack (s : State) (a : Activation) (undo : Option (Nat × Nat)) : State :=
  (s.fwBack a undo).partDown { a with phase := ActPhase.backing }

/-- The part that was activated is ready: its trial begins, or its rollback ends. -/
def State.actReady (s : State) (a : Activation) : State :=
  match a.phase with
  | .restarting => s.fwReady a
  | .backing => s.fwRolledBack a
  | .trial => s

/-- Why FW_ACTIVATE is refused, 0 for none. -/
def State.actRefusal (s : State) (typ : Nat) (atFrame : Bool) : Nat :=
  if s.mgmt.act.isSome || (Tab.find s.mgmt.staging typ).isSome then 3
  else if !s.fon (slotValid (s.fwIdle typ)) typ then 6
  else if typ = 5 then (if s.fieldReach then 0 else 4)
  else if (typ = 3 || typ = 4) && !atFrame && s.workCores.any (fun c => (s.microPool c).isEmpty) then 4 else 0

/-- An activation starts (R403): the device settles, and every locked TDI moves to ERROR. -/
def State.actStart (s : State) (e : Session) (tag typ : Nat) (hold atFrame : Bool) : State :=
  let a : Activation := {
    typ := typ, hold := hold, atFrame := atFrame, session := e.id, tag := tag, undo := none, answered := false
    started := s.ns, phase := .restarting, prev := s.fwActive typ, cores := [], target := none, moving := none }
  let s := { s with mgmt := { s.mgmt with act := some a } }
  let s := (s.fset F.MGT_FW_DATA_STATE typ 2).settleOn .activation
  let s := (rangeFrom 1 32).foldl (fun s v => s.tdiFail v) s
  (s.log { code := 0x1605, engine := e.anchor, argA := typ }).partDown a

/-- FW_ACTIVATE (R403). -/
def execFwActivate (m : MgtMsg) (s : State) : Res :=
  s.mgtRun m 0x0031 2 (fun s e =>
    let typ := m.payload.getD 0 0
    let fl := m.payload.getD 1 0
    let r := s.actRefusal typ (bit fl 1)
    if m.payload.length != 2 || typ = 0 || 5 < typ || 3 < fl then s.answer e.id 0x0031 m.tag 1 []
    else if r != 0 then s.answer e.id 0x0031 m.tag r []
    else s.actStart e m.tag typ (bit fl 0) (bit fl 1))

/-- The next core takes new microcode (R405 steps 2 and 3): its role and position move to the target, which is the
core that was vacated last, or a free core or Lookout. -/
def State.microNext (s : State) (a : Activation) : State :=
  if a.moving.any (fun c => s.fget F.CORE_ROLE_ROLE c == 1) then s
  else
    match a.cores with
    | [] => s.actReady a
    | d :: rest =>
      match s.stageOf d with
      | none => s.setAct (fun a => { a with cores := rest })
      | some (m, r) =>
        let pool := s.microPool d
        let want := a.moving.filter (fun c => pool.contains c)
        match want.or pool.head? with
        | none => s
        | some t =>
          if m.switching.isSome || !r.placed.contains d then s
          else
            let s := s.beginSwitching m r (r.placed.map (fun c => if c = d then t else c)) false
            let now := s.ns
            s.setAct (fun a => { a with cores := rest, moving := some d, target := some t, started := now })

/-- FW_READY (R404 to R406). -/
def execFwReady (s : State) : Res :=
  match s.mgmt.act with
  | none => .next (if s.field.fw != .running then s.fieldFwReady else s)
  | some a =>
    if a.typ = 5 || (a.phase = .trial && s.field.fw != .running) then .next (if s.field.fw != .running then s.fieldFwReady else s)
    else if a.phase = .trial then .next s
    else match a.typ with
      | 1 => .next (s.keepUp.actReady a)
      | 2 => .next (({ s with mgmt := { s.mgmt with down := false } } : State).actReady a)
      | _ => .next (if a.atFrame then (if a.cores.isEmpty then s.actReady a else s) else s.microNext a)

/-- FW_READY_TIMEOUT (R404, R406): the part goes back; where field firmware fails to go back too, its section
resets. -/
def execFwReadyTimeout (s : State) : Res :=
  match s.mgmt.act with
  | none => .next (if s.field.fw != .running then s.fieldFwLate else s)
  | some a =>
    if a.phase = .trial || s.ns < a.started + readyLimit a.typ then .next s
    else if a.typ = 5 then
      let now := s.ns
      match s.field.fw with
      | .restarting => .next (s.fieldFwLate.setAct (fun a => { a with started := now }))
      | .back => .next (s.fieldFwLate.fwRolledBack a)
      | .running => .next (s.fwRolledBack a)
    else if a.phase = .backing || a.moving.any (fun c => s.fget F.CORE_ROLE_ROLE c == 1) then .next s
    else .next (s.actBack a none)

/-- FW_HOLD_TIMEOUT (R404). -/
def execFwHoldTimeout (s : State) : Res :=
  match s.mgmt.act with
  | none => .next s
  | some a => if a.phase != .trial || s.ns < a.started + 600000000000 then .next s else .next (s.actBack a none)

/-- The activation of a type that runs its trial. -/
def State.trialOf (s : State) (typ : Nat) : Option Activation := s.mgmt.act.filter (fun a => a.typ == typ && a.phase == .trial)

/-- FW_COMMIT (R404). -/
def execFwCommit (m : MgtMsg) (s : State) : Res :=
  s.mgtRun m 0x0032 2 (fun s e =>
    let typ := m.payload.getD 0 0
    if m.payload.length != 1 || typ = 0 || 5 < typ then s.answer e.id 0x0032 m.tag 1 []
    else match s.trialOf typ with
      | none => s.answer e.id 0x0032 m.tag 4 []
      | some a => ((if typ = 5 then s.fwTell 4 else s).fwCommit a).answer e.id 0x0032 m.tag 0 [])

/-- FW_ROLLBACK (R404): the reply comes when the part runs its previous slot again. -/
def execFwRollback (m : MgtMsg) (s : State) : Res :=
  s.mgtRun m 0x0033 2 (fun s e =>
    let typ := m.payload.getD 0 0
    if m.payload.length != 1 || typ = 0 || 5 < typ then s.answer e.id 0x0033 m.tag 1 []
    else match s.trialOf typ with
      | none => s.answer e.id 0x0033 m.tag 4 []
      | some a => s.actBack a (some (e.id, m.tag)))

/-! ### Commands over management (R396) -/

/-- The role that a ring command needs. -/
def ringRole (op : Nat) : Nat := if [0x11, 0x12, 0x13, 0x14, 0x1C].contains op then 2 else 1

/-- The context of a ring command: its own, or its lane's. -/
def State.ringCtx (s : State) (d : List Nat) : Nat := if (dUses (dOp d)).contains 1 then (s.lane (dLane d)).context else dCtx d

/-- Whether a ring command names a context at all. -/
def namesCtx (d : List Nat) : Bool := (dUses (dOp d)).contains 0 || (dUses (dOp d)).contains 1

/-- A ring command's descriptor with IN_ADDR, OUT_ADDR and their lengths ignored: IN_LEN is the input's, and OUT_LEN
stays where it says how much an AREA_READ reads. -/
def mgtDesc (d : List Nat) (n : Nat) : List Nat :=
  let op := dOp d
  let inLen := if op = 0x11 || op = 0x15 then n else 0
  slice d 0 16 ++ List.replicate 8 0 ++ bytesOf 4 inLen ++ slice d 28 4 ++ List.replicate 8 0
    ++ (if op = 0x12 then slice d 40 4 else [0, 0, 0, 0]) ++ slice d 44 20

/-- Hand a descriptor to the commands of a session. -/
def State.ringTake (s : State) (id tag : Nat) (d input : List Nat) : State :=
  let k := ringKey mgtFunc id
  let n := s.fget F.RING_SQ_TAKE_COUNT k
  let s := s.fset F.RING_SQ_TAKE_COUNT k (n + 1)
  let r := s.ring k
  let t : Taken := { number := n, bytes := [], takenNs := s.ns, checked := false, started := false, released := false
                     slot := true, input := input, output := [], mtag := tag }
  (s.setRing k { r with taken := r.taken ++ [t] }).descArrive k n d

/-- RING_CMD (R396). -/
def execRingCmd (m : MgtMsg) (s : State) : Res :=
  let d := (m.payload.take 64).map (fun x => x % 256)
  let input := (m.payload.drop 64).map (fun x => x % 256)
  let op := dOp d
  s.mgtRun m 0x0020 (ringRole op) (fun s e =>
    if d.length < 64 then s.answer e.id 0x0020 m.tag 1 []
    else if namesCtx d && s.conf (s.ringCtx d) && op != 0x16 && op != 0x17 then s.answer e.id 0x0020 m.tag 5 []
    else if op = 0x01 || op = 0x1A || op = 0x1B then s.answer e.id 0x0020 m.tag 0 (cplBytes d { status := 0x61 } 0 0 1)
    else if !s.serving then s.answer e.id 0x0020 m.tag 4 []
    else s.ringTake e.id m.tag (mgtDesc d input.length) input)

/-- KEEP_CMD (R386, R396, R417). -/
def execKeepCmd (m : MgtMsg) (s : State) : Res :=
  let cmd := m.payload.getD 0 0
  let ctx := m.payload.getD 1 0
  s.mgtRun m 0x0021 (if cmd = 6 || cmd = 10 then 0 else 2) (fun s e =>
    if m.payload.length < 4 || 32 ≤ ctx then s.answer e.id 0x0021 m.tag 1 []
    else if s.fget F.GLB_PWR_STATUS_STATE 0 = 0 && cmd != 6 then s.answer e.id 0x0021 m.tag 4 []
    else s.keepTake ⟨.session e.id m.tag, cmd, ctx, (m.payload.drop 4).map (fun x => x % 256)⟩)

end Sys2Proof.Machine
end

