-- ==== Sys2Proof/Machine/Units.lean ====
section
/-! DEFINITION. Units over the management port (R357, R407 to R409): retiring, re-testing and recalibrating them, and
the repair of a convicted master. -/

namespace Sys2Proof.Machine

/-- The unit that a UNIT message names: kind 0 core, 1 engine, 2 converter lane. -/
def msgUnit (p : List Nat) : Nat :=
  let c := p.getD 1 0
  match p.getD 0 0 with
  | 0 => unitCore c
  | 1 => unitEngine c (p.getD 2 0)
  | _ => unitLane c (p.getD 2 0) (leAt p 4 2)

/-- Whether a UNIT message names a unit of the module. -/
def msgUnitOk (p : List Nat) : Bool :=
  let k := p.getD 0 0
  decide (k ≤ 2) && decide (p.getD 1 0 < 32) && (k == 0 || decide (p.getD 2 0 < 36)) && (k != 2 || decide (leAt p 4 2 < 336))

/-- UNIT_RETIRE (R408): the third confirmed failure of the unit; its trigger's reason stays as it is. -/
def execUnitRetire (m : MgtMsg) (s : State) : Res :=
  s.mgtRun m 0x0040 2 (fun s e =>
    let p := m.payload
    let u := msgUnit p
    let c := p.getD 1 0
    if p.length != 7 || !msgUnitOk p then s.answer e.id 0x0040 m.tag 1 []
    else if s.unit u = 2 then s.answer e.id 0x0040 m.tag 0 []
    else if u < 65536 && s.fget F.CORE_ROLE_ROLE c == 1 && s.lookouts.isEmpty && !bit (p.getD 6 0) 0 then
      s.answer e.id 0x0040 m.tag 4 []
    else
      let s := s.fset F.REL_UNIT_DATA_FAILS u 3
      (s.retire u (s.fget F.REL_UNIT_DATA_REASON u)).answer e.id 0x0040 m.tag 0 [])

/-- UNIT_RETEST (R409): a retired core or converter lane goes under test; a core is stopped for it. -/
def execUnitRetest (m : MgtMsg) (s : State) : Res :=
  s.mgtRun m 0x0041 2 (fun s e =>
    let p := m.payload
    let u := msgUnit p
    let c := p.getD 1 0
    let k := p.getD 0 0
    if p.length != 7 || !msgUnitOk p || p.getD 6 0 != 0 then s.answer e.id 0x0041 m.tag 1 []
    else if s.mgmt.retest.isSome then s.answer e.id 0x0041 m.tag 3 []
    else if k = 1 || s.unit u != 2 || (k == 0 && !s.retired c) then s.answer e.id 0x0041 m.tag 4 []
    else
      let t : Retest := ⟨k, c, leAt p 4 2, p.getD 2 0⟩
      let s := { s with mgmt := { s.mgmt with retest := some t } }
      (if k = 0 then s.fset F.CORE_STATUS_STATE c 1 else s).answer e.id 0x0041 m.tag 0 [])

/-- A unit that has passed becomes a suspect that must earn its clean windows. -/
def State.unitBack (s : State) (u : Nat) : State :=
  let s := s.fset F.REL_UNIT_DATA_STATE u 1
  let s := s.fset F.REL_UNIT_DATA_FAILS u 0
  let s := s.fset F.REL_UNIT_DATA_CLEAN u 0
  let s := if u < 32 then { s with rel := { s.rel with suspects := s.rel.suspects.filter (fun x => x != u) ++ [u] } } else s
  s.log { code := 0x1405, core := unitOf u, engine := unitEng u, argA := unitLaneNo u }

/-- A core that has passed is free, and its retired engines pass with it. -/
def State.coreBack (s : State) (c : Nat) : State :=
  let es := (List.range 36).filter (fun e => s.unit (unitEngine c e) == 2)
  let s := es.foldl (fun s e => s.unitBack (unitEngine c e)) (s.unitBack (unitCore c))
  let s := (s.calEngines c).foldl (fun s e => s.startupEngine c e) s
  ((s.fset F.CORE_STATUS_STATE c 0).fset F.CORE_ROLE_ROLE c 0).designate.retarget

/-- RETEST_DONE (R409). -/
def execRetestDone (ok : Bool) (s : State) : Res :=
  match s.mgmt.retest with
  | none => .next s
  | some t =>
    let s := { s with mgmt := { s.mgmt with retest := none } }
    let u := if t.kind = 0 then unitCore t.core else unitLane t.core t.engine t.lane
    let v : Ev := { code := if ok then 0x1608 else 0x1609, core := t.core, engine := unitEng u, argA := unitLaneNo u }
    if ok then .next ((if t.kind = 0 then s.coreBack t.core else s.unitBack u).log v)
    else .next ((if t.kind = 0 then s.fset F.CORE_STATUS_STATE t.core 4 else s).log v)

/-- UNIT_RECAL (R407): CAL_PASS on each core named. -/
def execUnitRecal (m : MgtMsg) (s : State) : Res :=
  s.mgtRun m 0x0042 1 (fun s e =>
    if m.payload.length != 4 then s.answer e.id 0x0042 m.tag 1 []
    else
      let cs := (List.range 32).filter (fun c => bit (leAt m.payload 0 4) c)
      (cs.foldl (fun s c => s.run (execRstCalPass c)) s).answer e.id 0x0042 m.tag 0 [])

/-! ### Repair (R357) -/

/-- Whether an image in a load area is the active generation's and passes steps 1 to 3 of R182. -/
def State.repairOk (s : State) (m : Model) (id gen off : Nat) : Bool :=
  let b := s.image m.context off
  (headerCheck b).isNone && (signatureCheck b (s.modelKeys m.context)).isNone && imgId b == id && imgGen b == gen && m.gen == gen
    && (!imgEncrypted b || (s.wkey m.context id gen).isSome)

/-- The model's repairs that wait go on from the image at an offset. -/
def State.repairFrom (s : State) (m : Model) (off : Nat) : State :=
  let s := s.setModel { m with imageAt := some off }
  let mine (r : Repairing) : Bool :=
    (s.stageOf r.core).elim false (fun (x : Model × StageRec) => x.1.context == m.context && x.1.id == m.id)
  let rs := s.rel.repairs.map (fun r => if mine r then { r with waiting := false } else r)
  { s with rel := { s.rel with repairs := rs } }

/-- REPAIR (R357). -/
def execRepair (m : MgtMsg) (s : State) : Res :=
  s.mgtRun m 0x0044 2 (fun s e =>
    let p := m.payload
    let ctx := p.getD 0 0
    let id := leAt p 4 16
    if p.length != 32 || 32 ≤ ctx then s.answer e.id 0x0044 m.tag 1 []
    else match s.model ctx id with
      | none => s.answer e.id 0x0044 m.tag 4 []
      | some x =>
        if s.repairOk x id (leAt p 20 4) (leAt p 24 8) then (s.repairFrom x (leAt p 24 8)).answer e.id 0x0044 m.tag 0 []
        else s.answer e.id 0x0044 m.tag 4 [])

end Sys2Proof.Machine
end

