-- ==== Sys2Proof/Machine/CfgRec.lean ====
section
/-! DEFINITION. The configuration record (R410, R413): its parts, its export and its import. -/

namespace Sys2Proof.Machine

/-! ### The management key (R389) -/

/-- The certificate chain of the management key, whose bytes and length differ from part to part. -/
def mgtChain : List Nat := (List.range (Config.certByte 5 0 % 8192 + 1)).map (fun i => Config.certByte 4 i % 256)

/-- The number that names the management key's secret. -/
def mgtSecret : Nat := Config.nonVolatile 8 0

/-! ### Parts (Table 16.13) -/

/-- The registers of a part that lie in registers, in order, with their instances. -/
def partRegs (p : Nat) : List (Reg × Nat) :=
  match p with
  | 0 => (List.range 1536).map (fun i => (R.FLD_LANE_DATA, i))
  | 1 => (List.range 16).map (fun i => (R.FLD_TRIG_CFG, i)) ++ (List.range 4).map (fun i => (R.FLD_ENC_CFG, i))
      ++ (List.range 8).map (fun i => (R.FLD_REJ_CFG, i))
  | 2 => (List.range 24).map (fun i => (R.FLD_POL, i)) ++ [(R.FLD_HOST_TO, 0), (R.FLD_GPO_SRC, 0)]
  | 3 => (R.FADC_CFG, 0) :: (List.range 64).flatMap (fun i =>
        [(R.FADC_ENT_CTL, i), (R.FADC_ENT_WLO, i), (R.FADC_ENT_WHI, i), (R.FADC_ENT_HYST, i)])
      ++ [0, 1].flatMap (fun c => (List.range 6).flatMap (fun g =>
        [(R.FADC_CALF_OFS, c * 8 + g), (R.FADC_CALF_GAIN, c * 8 + g)]))
  | 4 => (List.range 4).flatMap (fun k => [(R.FDAC_CFG, k), (R.FDAC_POL, k)])
  | 5 => [(R.CNP_TOPO, 0), (R.CNP_TOPO_ID, 0), (R.CNP_DIGEST_CFG, 0)] ++ (List.range 4).map (fun i => (R.CNP_DIGEST_PEERS, i))
  | 7 => [(R.KEEP_CONF_CFG, 0)]
  | 8 => [(R.REL_CFG, 0), (R.REL_SHADOW_CFG, 0), (R.REL_RANGE_CFG, 0)]
  | 9 => [(R.RST_PERIOD_LIM, 0)]
  | _ => []

/-- The length of a part's body. -/
def partLen (p : Nat) : Nat := if p = 6 then 1028 else if p = 10 then 288 else 4 * (partRegs p).length

/-- One anchor slot of part 10. -/
def anchorBytes (t : Tab Anchor) (i : Nat) : List Nat :=
  match Tab.find t i with
  | none => 0xFF :: List.replicate 71 0
  | some a => slice (a.role :: List.replicate 7 0 ++ slice a.key 0 57) 0 72

/-- The body of a part. -/
def State.partBytes (s : State) (p : Nat) : List Nat :=
  if p = 6 then bytesOf 4 s.mgmt.peers.length ++ slice (s.mgmt.peers.flatMap (bytesOf 8)) 0 1024
  else if p = 10 then (List.range 4).flatMap (anchorBytes s.mgmt.anchors)
  else (partRegs p).flatMap (fun x => bytesOf 4 (s.regWord x.1 x.2))

/-- Write a part's words into its registers: staged fields stay staged. -/
def State.partWrite (s : State) (p : Nat) (b : List Nat) : State :=
  (partRegs p).zipIdx.foldl (fun s (x : (Reg × Nat) × Nat) => s.writeReg x.1.1 x.1.2 (leAt b (4 * x.2) 4)) s

/-- The state after a commit whose check passes; none where it fails. -/
def State.committed (s : State) (ok : Bool) (f : State → State) : Option State := if ok then some (f s) else none

/-- Whether the field controller takes configuration: reachable, and its firmware running (R406). -/
def State.fieldTakes (s : State) : Bool := s.fieldReach && s.field.ready && s.field.fw == .running

/-- Part 0: the records, their copies in the host section, and the suspension of R215. -/
def State.importLanes (s : State) (b : List Nat) : Option State :=
  if !s.fieldTakes || !s.fLanes.isEmpty then none
  else
    let s := s.partWrite 0 b
    let cs := (List.range 1536).foldl (fun (t : Tab Nat) i => Tab.set t i (leAt b (4 * i) 4)) s.bar.copies
    let s := { s with bar := { s.bar with copies := cs } }
    some (((List.range 64).filter (fun l => (s.lane l).field)).foldl (fun s l => s.suspend l 2 0x31) s).fieldRefresh

/-- Part 2: host-absent policies, committed with NV. -/
def State.importPolicy (s : State) (b : List Nat) : Option State :=
  if !s.fieldTakes then none
  else
    let t := s.partWrite 2 b
    let n := t.staging F.FLD_HOST_TO_TO 0
    t.committed (decide (2 ≤ n) && decide (n ≤ 1000) && (rangeFrom 8 16).all (fun k => t.staging F.FLD_POL_ACTION k != 3))
      (fun s => s.fldCommit true)

/-- Part 3: the sequence table, the bounds and the calibration factors. -/
def State.importAdc (s : State) (b : List Nat) : Option State :=
  if !s.fieldTakes || s.fget F.FADC_STATUS_STATE 0 != 0 then none
  else
    let t := s.partWrite 3 b
    t.committed t.boundsOk (fun s => s.adcCommit)

/-- Part 4: spans and policies, committed with NV. -/
def State.importDac (s : State) (b : List Nat) : Option State :=
  if !s.fieldTakes then none
  else
    let t := s.partWrite 4 b
    t.committed ((List.range 4).all (fun k => t.staging F.FDAC_CFG_SPAN k != 5 && t.staging F.FDAC_CFG_SPAN k != 6)) (fun s => s.dacCommit true)

/-- Part 5: the Canopy topology, while the block is stopped. -/
def State.importTopo (s : State) (b : List Nat) : Option State :=
  let still := !s.cnp.running && (List.range 6).all (fun p => s.port p == 0 || s.port p == 4 || s.port p == 5)
  if !still then none
  else
    let t := s.partWrite 5 b
    let p := t.staging F.CNP_DIGEST_CFG_PERIOD_MS 0
    t.committed (decide (10 ≤ p) && decide (p ≤ 10000)) (fun s =>
      s.applyAll ([(F.CNP_DIGEST_CFG_PERIOD_MS, 0), (F.CNP_DIGEST_CFG_EN, 0)] ++ (List.range 4).map (fun i => (F.CNP_DIGEST_PEERS_MASK, i))))

/-- Part 8. -/
def State.importRel (s : State) (b : List Nat) : Option State :=
  let t := s.partWrite 8 b
  let d := t.staging F.REL_SHADOW_CFG_DWELL_US 0
  let n := t.staging F.REL_SHADOW_CFG_SAMPLE_EVERY 0
  let w := t.staging F.REL_RANGE_CFG_WINDOW 0
  t.committed (decide (500 ≤ d) && decide (d ≤ 10000) && decide (1 ≤ n) && decide (n ≤ 63) && decide (256 ≤ w) && decide (w ≤ 65536))
    (fun s => s.run execRelCommit)

/-- Part 9: the limits go to every core whose window takes writes. -/
def State.importPeriod (s : State) (b : List Nat) : Option State :=
  let cs := (List.range 32).filter (fun c => !s.retired c)
  let w := leAt b 0 4
  let lo := bits w 0 14
  let hi := bits w 16 14
  s.committed (decide (1000 ≤ lo) && decide (lo ≤ hi) && decide (hi ≤ 8000) && lo % 250 == 0 && hi % 250 == 0)
    (fun s => cs.foldl (fun s c => (s.writeReg R.RST_PERIOD_LIM c w).run (execRstCommit c)) s)

/-- The anchors that part 10 names, and whether each slot is well formed. -/
def anchorsOf (b : List Nat) : Tab Anchor × Bool :=
  (List.range 4).foldl (fun (a : Tab Anchor × Bool) i =>
    let o := 72 * i
    let r := b.getD o 0
    let ok := (decide (r ≤ 2) || r == 0xFF) && zeroBytes b (o + 1) (o + 8) && zeroBytes b (o + 65) (o + 72)
    (if r = 0xFF then a.1 else Tab.set a.1 i ⟨r, slice b (o + 8) 57⟩, a.2 && ok)) ([], true)

/-- Apply a part; none where it is refused whole. -/
def State.importPart (s : State) (p : Nat) (b : List Nat) : Option State :=
  match p with
  | 0 => s.importLanes b
  | 1 => if !s.fieldTakes || !s.fLanes.isEmpty then none else some (s.partWrite 1 b).fieldRefresh
  | 2 => s.importPolicy b
  | 3 => s.importAdc b
  | 4 => s.importDac b
  | 5 => s.importTopo b
  | 6 =>
    let n := leAt b 0 4
    s.committed (decide (n ≤ 128)) (fun s =>
      { s with mgmt := { s.mgmt with peers := (List.range n).map (fun i => leAt b (4 + 8 * i) 8) } })
  | 7 =>
    let t := s.partWrite 7 b
    let r := t.staging F.KEEP_CONF_CFG_REL_TO_S 0
    t.committed (decide (1 ≤ r) && decide (r ≤ 60)) (fun s => s.run execKeepCommit)
  | 8 => s.importRel b
  | 9 => s.importPeriod b
  | _ =>
    let a := anchorsOf b
    s.committed (a.2 && anchorsOk a.1) (fun s => { s with mgmt := { s.mgmt with anchors := a.1 } })

/-! ### Export (R410) -/

/-- A byte string padded to a multiple of 64. -/
def pad64 (b : List Nat) : List Nat := b ++ List.replicate (ceilDiv b.length 64 * 64 - b.length) 0

/-- The parts that an export holds: those of the field section only while it can be reached. -/
def State.exportParts (s : State) : List Nat := if s.fieldReach then List.range 11 else rangeFrom 5 6

/-- Offsets of the parts, each on a 64 B boundary. -/
def partOffs : List Nat → Nat → List (Nat × Nat)
  | [], _ => []
  | p :: r, a => (p, a) :: partOffs r (ceilDiv (a + partLen p) 64 * 64)

/-- The configuration record. -/
def State.configRecord (s : State) : List Nat :=
  let ps := s.exportParts
  let offs := partOffs ps (ceilDiv (64 + 16 * ps.length) 64 * 64)
  let dir := offs.flatMap (fun x => bytesOf 2 x.1 ++ [0, 0] ++ bytesOf 4 x.2 ++ bytesOf 4 (partLen x.1) ++ [0, 0, 0, 0])
  let bodies := ps.flatMap (fun p => pad64 (s.partBytes p))
  let chainAt := ceilDiv (64 + 16 * ps.length) 64 * 64 + bodies.length
  let total := chainAt + mgtChain.length + 256
  let hdr := bytesOf 4 0x46435651 ++ bytesOf 2 1 ++ bytesOf 2 0x9632 ++ bytesOf 8 serialNo ++ bytesOf 8 s.us
    ++ bytesOf 4 ps.length ++ bytesOf 4 chainAt ++ bytesOf 4 mgtChain.length ++ bytesOf 4 total ++ List.replicate 24 0
  let b := pad64 (hdr ++ dir) ++ bodies ++ mgtChain
  b ++ bytesOf 4 0x47535651 ++ [0, 0, 0, 0] ++ slice (Config.chainKey mgtChain) 0 57
    ++ slice (Config.ed448Sign mgtSecret (shake256 b)) 0 114 ++ List.replicate 77 0

/-- CONFIG_EXPORT (R410, R413). -/
def execConfigExport (m : MgtMsg) (s : State) : Res :=
  s.mgtRun m 0x0053 0 (fun s e => s.answer e.id 0x0053 m.tag 0 s.configRecord)

/-! ### Import (R413) -/

/-- The directory of a record: part, offset, length, and whether the entry's other bytes are 0. -/
def configDir (b : List Nat) : List (Nat × Nat × Nat × Bool) :=
  (List.range (leAt b 24 4)).map (fun i =>
    let o := 64 + 16 * i
    (leAt b o 2, leAt b (o + 4) 4, leAt b (o + 8) 4, zeroBytes b (o + 2) (o + 4) && zeroBytes b (o + 12) (o + 16)))

/-- The checks of R413 on a record. -/
def configOk (b : List Nat) : Bool :=
  let n := leAt b 24 4
  let co := leAt b 28 4
  let cl := leAt b 32 4
  let t := leAt b 36 4 - 256
  decide (64 ≤ b.length) && leAt b 0 4 == 0x46435651 && leAt b 4 2 == 1 && leAt b 6 2 == 0x9632
    && decide (1 ≤ n) && decide (n ≤ 11) && leAt b 36 4 == b.length && decide (256 ≤ b.length)
    && decide (1 ≤ cl) && decide (cl ≤ 8192) && co + cl == t
    && (let d := configDir b
        (d.map (fun x => x.1)).Nodup
          && d.all (fun x => decide (x.1 ≤ 10) && x.2.2.1 == partLen x.1 && x.2.1 % 64 == 0 && decide (64 + 16 * n ≤ x.2.1)
            && decide (x.2.1 + x.2.2.1 ≤ co) && x.2.2.2))
    && (let key := slice b (t + 8) 57
        leAt b t 4 == 0x47535651 && Config.chainValid (slice b co cl) rootKey && Config.chainKey (slice b co cl) == key
          && Config.ed448Verify key (shake256 (slice b 0 t)) (slice b (t + 65) 114))

/-- Apply a record's parts in directory order; the mask names those refused. -/
def State.configApply (s : State) (b : List Nat) : State × Nat :=
  (configDir b).foldl (fun (a : State × Nat) x =>
    match a.1.importPart x.1 (slice b x.2.1 x.2.2.1) with
    | some t => (t, a.2)
    | none => (a.1, setBit a.2 x.1)) (s, 0)

/-- CONFIG_IMPORT (R410, R413). -/
def execConfigImport (m : MgtMsg) (s : State) : Res :=
  let b := m.payload.map (fun x => x % 256)
  s.mgtRun m 0x0054 2 (fun s e =>
    if !configOk b then s.answer e.id 0x0054 m.tag 1 []
    else
      let r := s.configApply b
      (r.1.log { code := 0x160B, engine := e.anchor, argB := r.2 }).answer e.id 0x0054 m.tag 0 (bytesOf 4 r.2))

end Sys2Proof.Machine
end

