-- ==== Sys2Proof/Machine/Dispatch.lean ====
section
/-! DEFINITION. One arm per command: each a direct call of the command's meaning. -/

namespace Sys2Proof.Machine

/-- A command's effect on everything but the queue. -/
def exec (i : Instr) (s : State) : Host.Outcome State Fault Refusal :=
  match i with
  | .registerWrite a value => Sys2Proof.Machine.execRegisterWrite a value s
  | .lowWordRead a => Sys2Proof.Machine.execLowWordRead a s
  | .rcFieldRead a => Sys2Proof.Machine.execRcFieldRead a s
  | .accessDiscarded a => Sys2Proof.Machine.execAccessDiscarded a s
  | .counterClear a value => Sys2Proof.Machine.execCounterClear a value s
  | .bitPlaneCycle core engine standin => Sys2Proof.Machine.execBitPlaneCycle core engine standin s
  | .splitReplay core engine standin => Sys2Proof.Machine.execSplitReplay core engine standin s
  | .vectorComplete core engine => Sys2Proof.Machine.execVectorComplete core engine s
  | .engCfgWrite core engine value => Sys2Proof.Machine.execEngCfgWrite core engine value s
  | .calValidExpiry core engine => Sys2Proof.Machine.execCalValidExpiry core engine s
  | .transferSweep core tile => Sys2Proof.Machine.execTransferSweep core tile s
  | .drainSweep core tile => Sys2Proof.Machine.execDrainSweep core tile s
  | .sweepStart core => Sys2Proof.Machine.execSweepStart core s
  | .rowVisit core lagUs block err => Sys2Proof.Machine.execRowVisit core lagUs block err s
  | .sweepEnd core ppm => Sys2Proof.Machine.execSweepEnd core ppm s
  | .bulkLoad core source kind => Sys2Proof.Machine.execBulkLoad core source kind s
  | .bulkLoadDone b => Sys2Proof.Machine.execBulkLoadDone b s
  | .calibrationCycle core engine seg setting split => Sys2Proof.Machine.execCalibrationCycle core engine seg setting split s
  | .calPassDone core engine seg => Sys2Proof.Machine.execCalPassDone core engine seg s
  | .startupPass core => Sys2Proof.Machine.execStartupPass core s
  | .cellZeroDone core => Sys2Proof.Machine.execCellZeroDone core s
  | .spareSubstitute core engine column => Sys2Proof.Machine.execSpareSubstitute core engine column s
  | .spareActivate core engine spare => Sys2Proof.Machine.execSpareActivate core engine spare s
  | .genVerifyDone context model => Sys2Proof.Machine.execGenVerifyDone context model s
  | .stageSwitchAdvance context model stage => Sys2Proof.Machine.execStageSwitchAdvance context model stage s
  | .oldPlacementRelease context model stage => Sys2Proof.Machine.execOldPlacementRelease context model stage s
  | .modelDigestForm context model => Sys2Proof.Machine.execModelDigestForm context model s
  | .rstCalPass core => Sys2Proof.Machine.execRstCalPass core s
  | .passportSnap core => Sys2Proof.Machine.execPassportSnap core s
  | .rstCommit core => Sys2Proof.Machine.execRstCommit core s
  | .coreStart core => Sys2Proof.Machine.execCoreStart core s
  | .coreStop core => Sys2Proof.Machine.execCoreStop core s
  | .coreHalt core => Sys2Proof.Machine.execCoreHalt core s
  | .coreResume core => Sys2Proof.Machine.execCoreResume core s
  | .coreStep core => Sys2Proof.Machine.execCoreStep core s
  | .coreVectorBoundary core => Sys2Proof.Machine.execCoreVectorBoundary core s
  | .cadenceSlot core => Sys2Proof.Machine.execCadenceSlot core s
  | .bankSwitch core => Sys2Proof.Machine.execBankSwitch core s
  | .cadCfgWrite core value => Sys2Proof.Machine.execCadCfgWrite core value s
  | .scratchRowExpire core se row => Sys2Proof.Machine.execScratchRowExpire core se row s
  | .sramScrub core word err => Sys2Proof.Machine.execSramScrub core word err s
  | .chunkFetchDone core buf win => Sys2Proof.Machine.execChunkFetchDone core buf win s
  | .debugEnter core => Sys2Proof.Machine.execDebugEnter core s
  | .debugExit core => Sys2Proof.Machine.execDebugExit core s
  | .vecEntry core err => Sys2Proof.Machine.execVecEntry core err s
  | .itemEntry core => Sys2Proof.Machine.execItemEntry core s
  | .seqNop core t => Sys2Proof.Machine.execSeqNop core t s
  | .endEntry core t => Sys2Proof.Machine.execEndEntry core t s
  | .seta core t => Sys2Proof.Machine.execSeta core t s
  | .adda core t => Sys2Proof.Machine.execAdda core t s
  | .loop core t => Sys2Proof.Machine.execLoop core t s
  | .issue core t => Sys2Proof.Machine.execIssue core t s
  | .drain core t => Sys2Proof.Machine.execDrain core t s
  | .send core t => Sys2Proof.Machine.execSend core t s
  | .sendEmit core t => Sys2Proof.Machine.execSendEmit core t s
  | .scrw core t => Sys2Proof.Machine.execScrw core t s
  | .vop core t => Sys2Proof.Machine.execVop core t s
  | .fetch core t => Sys2Proof.Machine.execFetch core t s
  | .wback core t => Sys2Proof.Machine.execWback core t s
  | .fence core t => Sys2Proof.Machine.execFence core t s
  | .signal core t => Sys2Proof.Machine.execSignal core t s
  | .waitc core => Sys2Proof.Machine.execWaitc core s
  | .verdict core t => Sys2Proof.Machine.execVerdict core t s
  | .outh core t => Sys2Proof.Machine.execOuth core t s
  | .sqDoorbell func ring value => Sys2Proof.Machine.execSqDoorbell func ring value s
  | .cqDoorbell func ring value => Sys2Proof.Machine.execCqDoorbell func ring value s
  | .descriptorTake func ring => Sys2Proof.Machine.execDescriptorTake func ring s
  | .item func ring => Sys2Proof.Machine.execItem func ring s
  | .nop func ring => Sys2Proof.Machine.execNop func ring s
  | .areaWrite func ring data => Sys2Proof.Machine.execAreaWrite func ring data s
  | .areaRead func ring => Sys2Proof.Machine.execAreaRead func ring s
  | .load func ring => Sys2Proof.Machine.execLoad func ring s
  | .loadComplete context model => Sys2Proof.Machine.execLoadComplete context model s
  | .unload func ring => Sys2Proof.Machine.execUnload func ring s
  | .admitLane func ring contract => Sys2Proof.Machine.execAdmitLane func ring contract s
  | .release func ring => Sys2Proof.Machine.execRelease func ring s
  | .releaseComplete lane => Sys2Proof.Machine.execReleaseComplete lane s
  | .suspend func ring => Sys2Proof.Machine.execSuspend func ring s
  | .resume func ring => Sys2Proof.Machine.execResume func ring s
  | .switch func ring => Sys2Proof.Machine.execSwitch func ring s
  | .peerWindow func ring ok => Sys2Proof.Machine.execPeerWindow func ring ok s
  | .bind func ring => Sys2Proof.Machine.execBind func ring s
  | .areaFree func ring => Sys2Proof.Machine.execAreaFree func ring s
  | .descriptorReadFail tag => Sys2Proof.Machine.execDescriptorReadFail tag s
  | .hostReadFail tag => Sys2Proof.Machine.execHostReadFail tag s
  | .slowRead tag ns => Sys2Proof.Machine.execSlowRead tag ns s
  | .irqModTimer func ring => Sys2Proof.Machine.execIrqModTimer func ring s
  | .atsInvalidate func ring ok => Sys2Proof.Machine.execAtsInvalidate func ring ok s
  | .vfFlr vf => Sys2Proof.Machine.execVfFlr vf s
  | .pfFlr => Sys2Proof.Machine.execPfFlr s
  | .busMasterEnable func => Sys2Proof.Machine.execBusMasterEnable func s
  | .ringStart func ring => Sys2Proof.Machine.execRingStart func ring s
  | .ringStop func ring => Sys2Proof.Machine.execRingStop func ring s
  | .ringStopped func ring => Sys2Proof.Machine.execRingStopped func ring s
  | .ringCommit func ring => Sys2Proof.Machine.execRingCommit func ring s
  | .linkRetrain gen width flit => Sys2Proof.Machine.execLinkRetrain gen width flit s
  | .itemLookup value => Sys2Proof.Machine.execItemLookup value s
  | .hostReadCompletion tag data ok => Sys2Proof.Machine.execHostReadCompletion tag data ok s
  | .firstPacketTake lane => Sys2Proof.Machine.execFirstPacketTake lane s
  | .vectorPacket packet damage => Sys2Proof.Machine.execVectorPacket packet damage s
  | .kpartPacket packet damage => Sys2Proof.Machine.execKpartPacket packet damage s
  | .exitPart packet damage => Sys2Proof.Machine.execExitPart packet damage s
  | .groupTransfer packet damage => Sys2Proof.Machine.execGroupTransfer packet damage s
  | .epochClose a => Sys2Proof.Machine.execEpochClose a s
  | .memoryRead a err => Sys2Proof.Machine.execMemoryRead a err s
  | .memoryWrite packet damage => Sys2Proof.Machine.execMemoryWrite packet damage s
  | .readData packet damage => Sys2Proof.Machine.execReadData packet damage s
  | .receipt a => Sys2Proof.Machine.execReceipt a s
  | .receiptTimeout packet => Sys2Proof.Machine.execReceiptTimeout packet s
  | .patrolScrub page block err => Sys2Proof.Machine.execPatrolScrub page block err s
  | .dramRound => Sys2Proof.Machine.execDramRound s
  | .fabCommit => Sys2Proof.Machine.execFabCommit s
  | .cnpStart => Sys2Proof.Machine.execCnpStart s
  | .cnpStop => Sys2Proof.Machine.execCnpStop s
  | .portTrained port => Sys2Proof.Machine.execPortTrained port s
  | .initFrame port info => Sys2Proof.Machine.execInitFrame port info s
  | .keyOffer port offer => Sys2Proof.Machine.execKeyOffer port offer s
  | .keyConfirm port sig => Sys2Proof.Machine.execKeyConfirm port sig s
  | .fenceRetry port => Sys2Proof.Machine.execFenceRetry port s
  | .cnpFrameRx port bytes => Sys2Proof.Machine.execCnpFrameRx port bytes s
  | .cnpAckTimeout port => Sys2Proof.Machine.execCnpAckTimeout port s
  | .portDown port => Sys2Proof.Machine.execPortDown port s
  | .keyRenewal port => Sys2Proof.Machine.execKeyRenewal port s
  | .moduleFault cage fault => Sys2Proof.Machine.execModuleFault cage fault s
  | .cnpReceiptTimeout packet => Sys2Proof.Machine.execCnpReceiptTimeout packet s
  | .add a => Sys2Proof.Machine.execAdd a s
  | .claim a => Sys2Proof.Machine.execClaim a s
  | .waitGe a => Sys2Proof.Machine.execWaitGe a s
  | .peek a => Sys2Proof.Machine.execPeek a s
  | .cnpRetraction packet => Sys2Proof.Machine.execCnpRetraction packet s
  | .modelDigestPacket packet => Sys2Proof.Machine.execModelDigestPacket packet s
  | .modelDigestTimer => Sys2Proof.Machine.execModelDigestTimer s
  | .bindingQuery packet => Sys2Proof.Machine.execBindingQuery packet s
  | .bindingReply packet => Sys2Proof.Machine.execBindingReply packet s
  | .bindingTimeout lane => Sys2Proof.Machine.execBindingTimeout lane s
  | .itemCredit packet => Sys2Proof.Machine.execItemCredit packet s
  | .bindingEnd packet => Sys2Proof.Machine.execBindingEnd packet s
  | .dwellEnd place => Sys2Proof.Machine.execDwellEnd place s
  | .sampleCompare place => Sys2Proof.Machine.execSampleCompare place s
  | .checkRerun core => Sys2Proof.Machine.execCheckRerun core s
  | .katRun core ok => Sys2Proof.Machine.execKatRun core ok s
  | .katNow core => Sys2Proof.Machine.execKatNow core s
  | .rangeWindow core column => Sys2Proof.Machine.execRangeWindow core column s
  | .coreFailed core fatal => Sys2Proof.Machine.execCoreFailed core fatal s
  | .failoverJoin core => Sys2Proof.Machine.execFailoverJoin core s
  | .repairDone core engine => Sys2Proof.Machine.execRepairDone core engine s
  | .modelVerifyDone context model => Sys2Proof.Machine.execModelVerifyDone context model s
  | .relCommit => Sys2Proof.Machine.execRelCommit s
  | .ctxDefine => Sys2Proof.Machine.execCtxDefine s
  | .ctxEnroll => Sys2Proof.Machine.execCtxEnroll s
  | .ctxRevoke => Sys2Proof.Machine.execCtxRevoke s
  | .ctxSwap => Sys2Proof.Machine.execCtxSwap s
  | .ctxDestroy => Sys2Proof.Machine.execCtxDestroy s
  | .attest => Sys2Proof.Machine.execAttest s
  | .keyRotate => Sys2Proof.Machine.execKeyRotate s
  | .relRead => Sys2Proof.Machine.execRelRead s
  | .keyRelease => Sys2Proof.Machine.execKeyRelease s
  | .certRead => Sys2Proof.Machine.execCertRead s
  | .releaseTimeout context => Sys2Proof.Machine.execReleaseTimeout context s
  | .rotationTimer context => Sys2Proof.Machine.execRotationTimer context s
  | .rotationDone context => Sys2Proof.Machine.execRotationDone context s
  | .pageScrubDone page => Sys2Proof.Machine.execPageScrubDone page s
  | .frameBoundary context => Sys2Proof.Machine.execFrameBoundary context s
  | .decayCertified core => Sys2Proof.Machine.execDecayCertified core s
  | .decayTimeout core => Sys2Proof.Machine.execDecayTimeout core s
  | .settlingEnd => Sys2Proof.Machine.execSettlingEnd s
  | .attestTimeout => Sys2Proof.Machine.execAttestTimeout s
  | .getMeasurements nonce => Sys2Proof.Machine.execGetMeasurements nonce s
  | .stopInterface vf => Sys2Proof.Machine.execStopInterface vf s
  | .tdiError vf => Sys2Proof.Machine.execTdiError vf s
  | .keepCommit => Sys2Proof.Machine.execKeepCommit s
  | .lockInterface vf => Sys2Proof.Machine.execLockInterface vf s
  | .startInterface vf ide => Sys2Proof.Machine.execStartInterface vf ide s
  | .barrierLinkUp => Sys2Proof.Machine.execBarrierLinkUp s
  | .barrierLinkDown => Sys2Proof.Machine.execBarrierLinkDown s
  | .barrierFrameRx toField flips => Sys2Proof.Machine.execBarrierFrameRx toField flips s
  | .barrierRetxTimeout field => Sys2Proof.Machine.execBarrierRetxTimeout field s
  | .heartbeatTimer field positions => Sys2Proof.Machine.execHeartbeatTimer field positions s
  | .heartbeat field => Sys2Proof.Machine.execHeartbeat field s
  | .hostLost => Sys2Proof.Machine.execHostLost s
  | .hostPresent => Sys2Proof.Machine.execHostPresent s
  | .fieldLost => Sys2Proof.Machine.execFieldLost s
  | .itemCreated => Sys2Proof.Machine.execItemCreated s
  | .verdictMsg => Sys2Proof.Machine.execVerdictMsg s
  | .retraction => Sys2Proof.Machine.execRetraction s
  | .setpointGpo => Sys2Proof.Machine.execSetpointGpo s
  | .setpointAnalogue => Sys2Proof.Machine.execSetpointAnalogue s
  | .adcReport => Sys2Proof.Machine.execAdcReport s
  | .stateMsg field => Sys2Proof.Machine.execStateMsg field s
  | .retractionResult => Sys2Proof.Machine.execRetractionResult s
  | .fieldEventMsg => Sys2Proof.Machine.execFieldEventMsg s
  | .positionsMsg => Sys2Proof.Machine.execPositionsMsg s
  | .configWrite => Sys2Proof.Machine.execConfigWrite s
  | .configReadReply => Sys2Proof.Machine.execConfigReadReply s
  | .firmwareData => Sys2Proof.Machine.execFirmwareData s
  | .firmwareCommand => Sys2Proof.Machine.execFirmwareCommand s
  | .firmwareResult => Sys2Proof.Machine.execFirmwareResult s
  | .fieldBrownout => Sys2Proof.Machine.execFieldBrownout s
  | .fieldBrownoutEnd => Sys2Proof.Machine.execFieldBrownoutEnd s
  | .frstNAssert => Sys2Proof.Machine.execFrstNAssert s
  | .frstNRelease => Sys2Proof.Machine.execFrstNRelease s
  | .fieldReady positions levels => Sys2Proof.Machine.execFieldReady positions levels s
  | .fieldWatchdog => Sys2Proof.Machine.execFieldWatchdog s
  | .triggerEdge trigger rising positions => Sys2Proof.Machine.execTriggerEdge trigger rising positions s
  | .encoderFault encoder wire => Sys2Proof.Machine.execEncoderFault encoder wire s
  | .encoderFaultClear encoder pos => Sys2Proof.Machine.execEncoderFaultClear encoder pos s
  | .cutoffReached lane n pos => Sys2Proof.Machine.execCutoffReached lane n pos s
  | .rejectOn output encoder pos => Sys2Proof.Machine.execRejectOn output encoder pos s
  | .rejectOff output encoder pos => Sys2Proof.Machine.execRejectOff output encoder pos s
  | .maxOnExpiry output => Sys2Proof.Machine.execMaxOnExpiry output s
  | .recordFree lane n pos => Sys2Proof.Machine.execRecordFree lane n pos s
  | .laneEnable lane => Sys2Proof.Machine.execLaneEnable lane s
  | .laneDisable lane => Sys2Proof.Machine.execLaneDisable lane s
  | .vpWriteAck slot value => Sys2Proof.Machine.execVpWriteAck slot value s
  | .spiRead slot count => Sys2Proof.Machine.execSpiRead slot count s
  | .spiAck slot words => Sys2Proof.Machine.execSpiAck slot words s
  | .proxyWrite a value => Sys2Proof.Machine.execProxyWrite a value s
  | .proxyRead a => Sys2Proof.Machine.execProxyRead a s
  | .proxyReadTimeout => Sys2Proof.Machine.execProxyReadTimeout s
  | .fldGwCommit => Sys2Proof.Machine.execFldGwCommit s
  | .fldCommit nv => Sys2Proof.Machine.execFldCommit nv s
  | .nvWriteDone kind => Sys2Proof.Machine.execNvWriteDone kind s
  | .fadcStart cal => Sys2Proof.Machine.execFadcStart cal s
  | .fadcStop => Sys2Proof.Machine.execFadcStop s
  | .fadcCal => Sys2Proof.Machine.execFadcCal s
  | .fadcCalDone sums => Sys2Proof.Machine.execFadcCalDone sums s
  | .calStore => Sys2Proof.Machine.execCalStore s
  | .entryResult entry raw => Sys2Proof.Machine.execEntryResult entry raw s
  | .fadcCommit => Sys2Proof.Machine.execFadcCommit s
  | .monitorReport temp supply rail => Sys2Proof.Machine.execMonitorReport temp supply rail s
  | .fdacSet code => Sys2Proof.Machine.execFdacSet code s
  | .updateApply output => Sys2Proof.Machine.execUpdateApply output s
  | .deglitchHoldEnd output => Sys2Proof.Machine.execDeglitchHoldEnd output s
  | .fdacCommit nv => Sys2Proof.Machine.execFdacCommit nv s
  | .spanSwitch output => Sys2Proof.Machine.execSpanSwitch output s
  | .spanChangeEnd output => Sys2Proof.Machine.execSpanChangeEnd output s
  | .openLoop output => Sys2Proof.Machine.execOpenLoop output s
  | .openLoopClear output => Sys2Proof.Machine.execOpenLoopClear output s
  | .hkEntryResult entry raw mw => Sys2Proof.Machine.execHkEntryResult entry raw mw s
  | .hkCommit => Sys2Proof.Machine.execHkCommit s
  | .hkAospSend mask => Sys2Proof.Machine.execHkAospSend mask s
  | .fieldTempLost => Sys2Proof.Machine.execFieldTempLost s
  | .hostPowerOn sense auxOk => Sys2Proof.Machine.execHostPowerOn sense auxOk s
  | .perstDeassert => Sys2Proof.Machine.execPerstDeassert s
  | .conventionalReset => Sys2Proof.Machine.execConventionalReset s
  | .deviceReset sense auxOk => Sys2Proof.Machine.execDeviceReset sense auxOk s
  | .coreReset core => Sys2Proof.Machine.execCoreReset core s
  | .stopCommand => Sys2Proof.Machine.execStopCommand s
  | .drainEnd => Sys2Proof.Machine.execDrainEnd s
  | .mgtWatchdog => Sys2Proof.Machine.execMgtWatchdog s
  | .clockLoss clock => Sys2Proof.Machine.execClockLoss clock s
  | .thermalWithdraw level => Sys2Proof.Machine.execThermalWithdraw level s
  | .guardEnd core => Sys2Proof.Machine.execGuardEnd core s
  | .thermalTrip => Sys2Proof.Machine.execThermalTrip s
  | .auxSupplyFail => Sys2Proof.Machine.execAuxSupplyFail s
  | .overpowerClear => Sys2Proof.Machine.execOverpowerClear s
  | .glbThmCommit => Sys2Proof.Machine.execGlbThmCommit s
  | .cnpCommit => Sys2Proof.Machine.execCnpCommit s
  | .hostPowerLoss => Sys2Proof.Machine.execHostPowerLoss s
  | .housekeepingStale => Sys2Proof.Machine.execHousekeepingStale s
  | .recoveryImage image => Sys2Proof.Machine.execRecoveryImage image s
  | .sessionHandshake chain ok => Sys2Proof.Machine.execSessionHandshake chain ok s
  | .sessionIdleTimeout session => Sys2Proof.Machine.execSessionIdleTimeout session s
  | .telemetryTimer session => Sys2Proof.Machine.execTelemetryTimer session s
  | .fwReady => Sys2Proof.Machine.execFwReady s
  | .fwReadyTimeout => Sys2Proof.Machine.execFwReadyTimeout s
  | .fwHoldTimeout => Sys2Proof.Machine.execFwHoldTimeout s
  | .retestDone ok => Sys2Proof.Machine.execRetestDone ok s
  | .mgtCommit => Sys2Proof.Machine.execMgtCommit s
  | .hello m => Sys2Proof.Machine.execHello m s
  | .claimModule m => Sys2Proof.Machine.execClaimModule m s
  | .subscribe m => Sys2Proof.Machine.execSubscribe m s
  | .eventAck m => Sys2Proof.Machine.execEventAck m s
  | .faultAck m => Sys2Proof.Machine.execFaultAck m s
  | .telemetryCfg m => Sys2Proof.Machine.execTelemetryCfg m s
  | .regRead m => Sys2Proof.Machine.execRegRead m s
  | .regWrite m => Sys2Proof.Machine.execRegWrite m s
  | .ringCmd m => Sys2Proof.Machine.execRingCmd m s
  | .keepCmd m => Sys2Proof.Machine.execKeepCmd m s
  | .fwStage m => Sys2Proof.Machine.execFwStage m s
  | .fwActivate m => Sys2Proof.Machine.execFwActivate m s
  | .fwCommit m => Sys2Proof.Machine.execFwCommit m s
  | .fwRollback m => Sys2Proof.Machine.execFwRollback m s
  | .unitRetire m => Sys2Proof.Machine.execUnitRetire m s
  | .unitRetest m => Sys2Proof.Machine.execUnitRetest m s
  | .unitRecal m => Sys2Proof.Machine.execUnitRecal m s
  | .passportRead m => Sys2Proof.Machine.execPassportRead m s
  | .repair m => Sys2Proof.Machine.execRepair m s
  | .peerList m => Sys2Proof.Machine.execPeerList m s
  | .anchorSet m => Sys2Proof.Machine.execAnchorSet m s
  | .timeSet m => Sys2Proof.Machine.execTimeSet m s
  | .configExport m => Sys2Proof.Machine.execConfigExport m s
  | .configImport m => Sys2Proof.Machine.execConfigImport m s

end Sys2Proof.Machine
end

