-- ==== Sys2Proof/Machine/Tick.lean ====
section
/-! DEFINITION. What the block does at a tick of its own clock: time passes, and what the block itself has put off
until a moment that has now come takes place. -/

namespace Sys2Proof.Machine

/-- The host notification that has been asked for, 10 µs after the last one (R399). -/
def State.notifyDue (s : State) : State :=
  if s.mgmt.notify && (s.mgmt.notified == 0 || decide (s.mgmt.notified + 10000 ≤ s.ns + 1)) then
    ({ s with mgmt := { s.mgmt with notified := s.ns + 1, notify := false } } : State).sendMsix 0 (s.fget F.MGT_CFG_VECTOR 0)
  else s

/-- Head write-backs that wait for their microsecond (R239). -/
def State.headsDue (s : State) : State :=
  (s.rings.filter (fun (p : Nat × Ring) => p.2.headDue)).foldl (fun s (p : Nat × Ring) => s.headWriteback p.1) s

/-- One nanosecond passes: notifications, head write-backs, event records held back by a rate limit, Canopy frames,
field events, and the analogue setpoint message that waits. -/
def State.tick (s : State) : State :=
  let s := { s with ns := s.ns + 1 }
  let s := if s.power.slotPower then ((s.logDue).notifyDue).headsDue else s
  let s := if s.power.slotPower then s.canopyTick.aospFlush else s
  s.fieldEventsDue

end Sys2Proof.Machine
end

