-- ==== Sys2Proof/Safety.lean ====
section
/-! DEFINITION. Safe steps: what a run must never meet, and what it means that a command completes. -/

namespace Sys2Proof.Machine

/-- A step that answers a next state. -/
def Runs (s : State) : Prop := ∃ t, step s = .next t

/-- A command that completes, with a next state of which `P` holds. -/
def Does (c : Instr) (s : State) (P : State → Prop) : Prop := ∃ t, exec c s = .next t ∧ P t

/-- The memories of the module are in their one canonical form: addresses strictly rising, no byte listed that reads
as an unlisted one does. -/
def State.memWf (s : State) : Bool := cellsWf s.dram && cellsWf s.sram

/-- Every register field of `t` reads as in `s`, but for the listed fields and instances. -/
def FieldsBut (l : List (Fld × Nat)) (s t : State) : Prop :=
  ∀ (f : Fld) (i : Nat), (∀ p ∈ l, f.code ≠ p.1.code ∨ i ≠ p.2) → t.fget f i = s.fget f i

/-- Nothing but register fields differs, and of those only the listed ones. -/
def OnlyFields (l : List (Fld × Nat)) (s t : State) : Prop := t = { s with fields := t.fields } ∧ FieldsBut l s t

/-- Two tables agree but at one key. -/
def SameBut {α : Type} (k : Nat) (a b : Tab α) : Prop := ∀ j : Nat, j ≠ k → Tab.find b j = Tab.find a j

/-- Two memories agree but in the `n` bytes from `a`. -/
def BytesBut (a n : Nat) (m m' : List Host.Cell) : Prop := ∀ x : Nat, x < a ∨ a + n ≤ x → cellGet m' x = cellGet m x

/-! ### Frames -/

/-- The blocks of registers (Tables 19.1, 19.2 and 10.2). -/
inductive RegBlock where
  /-- global identity and status -/
  | glb
  /-- management -/
  | mgt
  /-- power, reset, clocks and thermal -/
  | thm
  /-- core control and cadence -/
  | core
  /-- tiles and epilogue -/
  | epi
  /-- sequencer -/
  | seq
  /-- restorer -/
  | rst
  /-- engines -/
  | eng
  /-- fabric -/
  | fab
  /-- DRAM controller -/
  | mem
  /-- host interface -/
  | hif
  /-- ring blocks -/
  | ring
  /-- admission and lanes -/
  | adm
  /-- item context engine -/
  | ctx
  /-- item lookup -/
  | item
  /-- Canopy -/
  | cnp
  /-- sync counter views -/
  | sync
  /-- sync counter control -/
  | syncCtl
  /-- reliability -/
  | rel
  /-- Keep mailbox -/
  | keep
  /-- housekeeping -/
  | hk
  /-- field gateway -/
  | gw
  /-- field controller -/
  | fld
  /-- field analogue inputs -/
  | fadc
  /-- field analogue outputs -/
  | fdac
  /-- VF BAR0 alone -/
  | vf
  deriving DecidableEq, Repr

/-- The block of a register, by its offset (R441, R442, R281). -/
def RegBlock.of (reg : Nat) : RegBlock :=
  if reg < 0x10000 then .glb
  else if reg < 0x20000 then .mgt
  else if reg < 0x100000 then .thm
  else if reg < 0x100800 then .core
  else if reg < 0x101000 then .epi
  else if reg < 0x102000 then .seq
  else if reg < 0x104000 then .rst
  else if reg < 0x300000 then .eng
  else if reg < 0x400000 then .fab
  else if reg < 0x500000 then .mem
  else if reg < 0x501000 then .hif
  else if reg < 0x600000 then .ring
  else if reg < 0x601000 then .adm
  else if reg < 0x602000 then .ctx
  else if reg < 0x700000 then .item
  else if reg < 0x800000 then .cnp
  else if reg < 0x900000 then .sync
  else if reg < 0xA00000 then .syncCtl
  else if reg < 0xB00000 then .rel
  else if reg < 0xC00000 then .keep
  else if reg < 0xD00000 then .hk
  else if reg < 0xD10000 then .gw
  else if reg < 0xD11000 then .fld
  else if reg < 0xD12000 then .fadc
  else if reg < 0xD20000 then .fdac
  else .vf

/-- A part of the state: a block of registers, or a component beside the registers. -/
inductive StatePart where
  | regs (b : RegBlock)
  | free | staged | latch | lowHeld | readData | events | lastLog | heldLog | out | engines | tiles | rst | cores |
    seqs | sram | models | fab | dram | items | mgmt | rings | reads | nextTag | msix | msixPending | busMaster |
    ats | lanes | bar | field | hk | cnp | sync | rel | keep | power | bootNs
  deriving DecidableEq, Repr

/-- `t` differs from `s` in the parts of `ps` only; neither the queue nor the time differs. -/
def ChangesOnly (ps : List StatePart) (s t : State) : Prop :=
  t.pending = s.pending ∧ t.ns = s.ns ∧
  (∀ (f : Fld) (i : Nat), StatePart.regs (RegBlock.of (f.code / 32)) ∉ ps → t.fget f i = s.fget f i) ∧
  (StatePart.free ∉ ps → t.free = s.free) ∧
  (StatePart.staged ∉ ps → t.staged = s.staged) ∧
  (StatePart.latch ∉ ps → t.latch = s.latch) ∧
  (StatePart.lowHeld ∉ ps → t.lowHeld = s.lowHeld) ∧
  (StatePart.readData ∉ ps → t.readData = s.readData) ∧
  (StatePart.events ∉ ps → t.events = s.events) ∧
  (StatePart.lastLog ∉ ps → t.lastLog = s.lastLog) ∧
  (StatePart.heldLog ∉ ps → t.heldLog = s.heldLog) ∧
  (StatePart.out ∉ ps → t.out = s.out) ∧
  (StatePart.engines ∉ ps → t.engines = s.engines) ∧
  (StatePart.tiles ∉ ps → t.tiles = s.tiles) ∧
  (StatePart.rst ∉ ps → t.rst = s.rst) ∧
  (StatePart.cores ∉ ps → t.cores = s.cores) ∧
  (StatePart.seqs ∉ ps → t.seqs = s.seqs) ∧
  (StatePart.sram ∉ ps → t.sram = s.sram) ∧
  (StatePart.models ∉ ps → t.models = s.models) ∧
  (StatePart.fab ∉ ps → t.fab = s.fab) ∧
  (StatePart.dram ∉ ps → t.dram = s.dram) ∧
  (StatePart.items ∉ ps → t.items = s.items) ∧
  (StatePart.mgmt ∉ ps → t.mgmt = s.mgmt) ∧
  (StatePart.rings ∉ ps → t.rings = s.rings) ∧
  (StatePart.reads ∉ ps → t.reads = s.reads) ∧
  (StatePart.nextTag ∉ ps → t.nextTag = s.nextTag) ∧
  (StatePart.msix ∉ ps → t.msix = s.msix) ∧
  (StatePart.msixPending ∉ ps → t.msixPending = s.msixPending) ∧
  (StatePart.busMaster ∉ ps → t.busMaster = s.busMaster) ∧
  (StatePart.ats ∉ ps → t.ats = s.ats) ∧
  (StatePart.lanes ∉ ps → t.lanes = s.lanes) ∧
  (StatePart.bar ∉ ps → t.bar = s.bar) ∧
  (StatePart.field ∉ ps → t.field = s.field) ∧
  (StatePart.hk ∉ ps → t.hk = s.hk) ∧
  (StatePart.cnp ∉ ps → t.cnp = s.cnp) ∧
  (StatePart.sync ∉ ps → t.sync = s.sync) ∧
  (StatePart.rel ∉ ps → t.rel = s.rel) ∧
  (StatePart.keep ∉ ps → t.keep = s.keep) ∧
  (StatePart.power ∉ ps → t.power = s.power) ∧
  (StatePart.bootNs ∉ ps → t.bootNs = s.bootNs)

/-- Every block of registers: an access can reach any register of its function. -/
def allRegs : List StatePart := [.regs .glb, .regs .mgt, .regs .thm, .regs .core, .regs .epi, .regs .seq, .regs
    .rst, .regs .eng, .regs .fab, .regs .mem, .regs .hif, .regs .ring, .regs .adm, .regs .ctx, .regs .item, .regs
    .cnp, .regs .sync, .regs .syncCtl, .regs .rel, .regs .keep, .regs .hk, .regs .gw, .regs .fld, .regs .fadc, .regs
    .fdac, .regs .vf]

/-- What an event record, an event push and the notification of the host change (R397 to R399). -/
def logParts : List StatePart := [.regs .mgt, .events, .out, .mgmt]

end Sys2Proof.Machine
end

