-- ==== Sys2Proof/WellFormed.lean ====
section
/-! DEFINITION. Well-formed commands: every operand names something that the module has, and every number fits
the width that the spec gives it. -/

namespace Sys2Proof

/-- Whether every element of a list is a byte. -/
def bytesOk (l : List Nat) : Bool := l.all (fun b => decide (b < 256))

/-- An access: a function of the module (R229), a BAR that it has (R12, R232), and a management access by the PF. -/
def accOk (a : Access) : Bool :=
  decide (a.func ≤ 32) && (!a.mgt || a.func == 0) && (a.bar == 0 || a.bar == 2 || a.bar == 4 || (a.bar == 8 && !a.mgt))
    && (a.size == 1 || a.size == 2 || a.size == 4 || a.size == 8)

/-- Damage: a header fails at a router of one of the 45 nodes (R189). -/
def damageOk : Damage → Bool
  | .header n => decide (n < 45)
  | _ => true

/-- A ring pair: 128 of the PF, 8 of a VF (R251), or the commands of a management session, which stand as function 33
(R396). -/
def ringOk (func ring : Nat) : Bool := func == 33 || (func == 0 && decide (ring < 128)) || (decide (func ≤ 32) && decide (ring < 8))

/-- The positions of the four encoders (R264). -/
def posOk (l : List Nat) : Bool := l.length == 4 && l.all (fun p => decide (p < 2 ^ 32))

/-- Whether a command is well formed. -/
def Instr.wellFormed : Instr → Bool
  | .registerWrite a value => accOk a && decide (value < 2 ^ 32)
  | .lowWordRead a => accOk a
  | .rcFieldRead a => accOk a
  | .accessDiscarded a => accOk a
  | .counterClear a value => accOk a && decide (value < 2 ^ 32)
  | .bitPlaneCycle core engine _ => decide (core < 32) && decide (engine < 36)
  | .splitReplay core engine _ => decide (core < 32) && decide (engine < 36)
  | .vectorComplete core engine => decide (core < 32) && decide (engine < 36)
  | .engCfgWrite core engine value => decide (core < 32) && decide (engine < 36) && decide (value < 2 ^ 32)
  | .calValidExpiry core engine => decide (core < 32) && decide (engine < 36)
  | .transferSweep core tile => decide (core < 32) && decide (tile < 2)
  | .drainSweep core tile => decide (core < 32) && decide (tile < 2)
  | .sweepStart core => decide (core < 32)
  | .rowVisit core _ block _ => decide (core < 32) && decide (block < 4)
  | .sweepEnd core ppm => decide (core < 32) && decide (ppm < 65536)
  | .bulkLoad core source _ => decide (core < 32) && decide (source < 32)
  | .bulkLoadDone b => decide (b.core < 32) && b.bad.all (fun x => decide (x.1 < 32) && decide (x.2 < 2048))
  | .calibrationCycle core engine seg _ _ => decide (core < 32) && decide (engine < 36) && decide (seg < 2)
  | .calPassDone core engine seg => decide (core < 32) && decide (engine < 36) && decide (seg < 2)
  | .startupPass core => decide (core < 32)
  | .cellZeroDone core => decide (core < 32)
  | .spareSubstitute core engine column => decide (core < 32) && decide (engine < 32) && decide (column < 1280)
  | .spareActivate core engine spare => decide (core < 32) && decide (engine < 32) && decide (spare < 64)
  | .genVerifyDone context model => decide (context < 32) && decide (model < 2 ^ 128)
  | .stageSwitchAdvance context model stage => decide (context < 32) && decide (model < 2 ^ 128) && decide (stage < 65536)
  | .oldPlacementRelease context model stage => decide (context < 32) && decide (model < 2 ^ 128) && decide (stage < 65536)
  | .modelDigestForm context model => decide (context < 32) && decide (model < 2 ^ 128)
  | .rstCalPass core => decide (core < 32)
  | .passportSnap core => decide (core < 32)
  | .rstCommit core => decide (core < 32)
  | .coreStart core => decide (core < 32)
  | .coreStop core => decide (core < 32)
  | .coreHalt core => decide (core < 32)
  | .coreResume core => decide (core < 32)
  | .coreStep core => decide (core < 32)
  | .coreVectorBoundary core => decide (core < 32)
  | .cadenceSlot core => decide (core < 32)
  | .bankSwitch core => decide (core < 32)
  | .cadCfgWrite core value => decide (core < 32) && decide (value < 2 ^ 32)
  | .scratchRowExpire core se row => decide (core < 32) && decide (se < 4) && decide (row < 2048)
  | .sramScrub core word _ => decide (core < 32) && decide (word < 2 ^ 20)
  | .chunkFetchDone core buf win => decide (core < 32) && decide (buf < 256) && decide (win < 2)
  | .debugEnter core => decide (core < 32)
  | .debugExit core => decide (core < 32)
  | .vecEntry core _ => decide (core < 32)
  | .itemEntry core => decide (core < 32)
  | .seqNop core _ => decide (core < 32)
  | .endEntry core _ => decide (core < 32)
  | .seta core _ => decide (core < 32)
  | .adda core _ => decide (core < 32)
  | .loop core _ => decide (core < 32)
  | .issue core _ => decide (core < 32)
  | .drain core _ => decide (core < 32)
  | .send core _ => decide (core < 32)
  | .sendEmit core _ => decide (core < 32)
  | .scrw core _ => decide (core < 32)
  | .vop core _ => decide (core < 32)
  | .fetch core _ => decide (core < 32)
  | .wback core _ => decide (core < 32)
  | .fence core _ => decide (core < 32)
  | .signal core _ => decide (core < 32)
  | .waitc core => decide (core < 32)
  | .verdict core _ => decide (core < 32)
  | .outh core _ => decide (core < 32)
  | .sqDoorbell func ring value => ringOk func ring && decide (value < 2 ^ 32)
  | .cqDoorbell func ring value => ringOk func ring && decide (value < 2 ^ 32)
  | .descriptorTake func ring => ringOk func ring
  | .item func ring => ringOk func ring
  | .nop func ring => ringOk func ring
  | .areaWrite func ring data => ringOk func ring && data.all bytesOk
  | .areaRead func ring => ringOk func ring
  | .load func ring => ringOk func ring
  | .loadComplete context model => decide (context < 32) && decide (model < 2 ^ 128)
  | .unload func ring => ringOk func ring
  | .admitLane func ring contract => ringOk func ring && contract.all bytesOk
  | .release func ring => ringOk func ring
  | .releaseComplete lane => decide (lane < 64)
  | .suspend func ring => ringOk func ring
  | .resume func ring => ringOk func ring
  | .switch func ring => ringOk func ring
  | .peerWindow func ring _ => ringOk func ring
  | .bind func ring => ringOk func ring
  | .areaFree func ring => ringOk func ring
  | .descriptorReadFail _ => true
  | .hostReadFail _ => true
  | .slowRead _ _ => true
  | .irqModTimer func ring => ringOk func ring
  | .atsInvalidate func ring _ => ringOk func ring
  | .vfFlr vf => decide (1 ≤ vf ∧ vf ≤ 32)
  | .pfFlr => true
  | .busMasterEnable func => decide (func ≤ 32)
  | .ringStart func ring => ringOk func ring
  | .ringStop func ring => ringOk func ring
  | .ringStopped func ring => ringOk func ring
  | .ringCommit func ring => ringOk func ring
  | .linkRetrain gen width _ => decide (1 ≤ gen ∧ gen ≤ 6) && decide ([1, 2, 4, 8, 16].contains width = true)
  | .itemLookup value => decide (value < 2 ^ 32)
  | .hostReadCompletion _ data _ => bytesOk data
  | .firstPacketTake lane => decide (lane < 64)
  | .vectorPacket _ damage => damageOk damage
  | .kpartPacket _ damage => damageOk damage
  | .exitPart _ damage => damageOk damage
  | .groupTransfer _ damage => damageOk damage
  | .epochClose a => a.lost.all (fun n => decide (n < 45))
  | .memoryRead a _ => a.lost.all (fun n => decide (n < 45))
  | .memoryWrite _ damage => damageOk damage
  | .readData _ damage => damageOk damage
  | .receipt a => a.lost.all (fun n => decide (n < 45))
  | .receiptTimeout _ => true
  | .patrolScrub page block _ => decide (page < 49152) && decide (block < 2 ^ 20)
  | .dramRound => true
  | .fabCommit => true
  | .cnpStart => true
  | .cnpStop => true
  | .portTrained port => decide (port < 6)
  | .initFrame port _ => decide (port < 6)
  | .keyOffer port offer => decide (port < 6) && bytesOk offer.pub && bytesOk offer.random && bytesOk offer.chain
  | .keyConfirm port sig => decide (port < 6) && bytesOk sig
  | .fenceRetry port => decide (port < 6)
  | .cnpFrameRx port bytes => decide (port < 6) && bytesOk bytes
  | .cnpAckTimeout port => decide (port < 6)
  | .portDown port => decide (port < 6)
  | .keyRenewal port => decide (port < 6)
  | .moduleFault cage _ => decide (cage < 3)
  | .cnpReceiptTimeout _ => true
  | .add a => damageOk a.damage
  | .claim a => damageOk a.damage
  | .waitGe a => damageOk a.damage
  | .peek a => damageOk a.damage
  | .cnpRetraction _ => true
  | .modelDigestPacket _ => true
  | .modelDigestTimer => true
  | .bindingQuery _ => true
  | .bindingReply _ => true
  | .bindingTimeout lane => decide (lane < 64)
  | .itemCredit _ => true
  | .bindingEnd _ => true
  | .dwellEnd place => decide (place < 2)
  | .sampleCompare place => decide (place < 2)
  | .checkRerun core => decide (core < 32)
  | .katRun core _ => decide (core < 32)
  | .katNow core => decide (core < 32)
  | .rangeWindow core column => decide (core < 32) && decide (column < 1344)
  | .coreFailed core _ => decide (core < 32)
  | .failoverJoin core => decide (core < 32)
  | .repairDone core engine => decide (core < 32) && decide (engine < 36)
  | .modelVerifyDone context model => decide (context < 32) && decide (model < 2 ^ 128)
  | .relCommit => true
  | .ctxDefine => true
  | .ctxEnroll => true
  | .ctxRevoke => true
  | .ctxSwap => true
  | .ctxDestroy => true
  | .attest => true
  | .keyRotate => true
  | .relRead => true
  | .keyRelease => true
  | .certRead => true
  | .releaseTimeout context => decide (context < 32)
  | .rotationTimer context => decide (context < 32)
  | .rotationDone context => decide (context < 32)
  | .pageScrubDone page => decide (page < 49152)
  | .frameBoundary context => decide (context < 32)
  | .decayCertified core => decide (core < 32)
  | .decayTimeout core => decide (core < 32)
  | .settlingEnd => true
  | .attestTimeout => true
  | .getMeasurements nonce => bytesOk nonce
  | .stopInterface vf => decide (1 ≤ vf ∧ vf ≤ 32)
  | .tdiError vf => decide (1 ≤ vf ∧ vf ≤ 32)
  | .keepCommit => true
  | .lockInterface vf => decide (1 ≤ vf ∧ vf ≤ 32)
  | .startInterface vf _ => decide (1 ≤ vf ∧ vf ≤ 32)
  | .barrierLinkUp => true
  | .barrierLinkDown => true
  | .barrierFrameRx _ flips => flips.all (fun b => decide (b < 1024))
  | .barrierRetxTimeout _ => true
  | .heartbeatTimer _ positions => posOk positions
  | .heartbeat _ => true
  | .hostLost => true
  | .hostPresent => true
  | .fieldLost => true
  | .itemCreated => true
  | .verdictMsg => true
  | .retraction => true
  | .setpointGpo => true
  | .setpointAnalogue => true
  | .adcReport => true
  | .stateMsg _ => true
  | .retractionResult => true
  | .fieldEventMsg => true
  | .positionsMsg => true
  | .configWrite => true
  | .configReadReply => true
  | .firmwareData => true
  | .firmwareCommand => true
  | .firmwareResult => true
  | .fieldBrownout => true
  | .fieldBrownoutEnd => true
  | .frstNAssert => true
  | .frstNRelease => true
  | .fieldReady positions levels => posOk positions && decide (levels < 65536)
  | .fieldWatchdog => true
  | .triggerEdge trigger _ positions => decide (trigger < 16) && posOk positions
  | .encoderFault encoder _ => decide (encoder < 4)
  | .encoderFaultClear encoder pos => decide (encoder < 4) && decide (pos < 2 ^ 32)
  | .cutoffReached lane n pos => decide (lane < 64) && decide (n < 2 ^ 32) && decide (pos < 2 ^ 32)
  | .rejectOn output encoder pos => decide (output < 8) && decide (encoder < 4) && decide (pos < 2 ^ 32)
  | .rejectOff output encoder pos => decide (output < 8) && decide (encoder < 4) && decide (pos < 2 ^ 32)
  | .maxOnExpiry output => decide (output < 8)
  | .recordFree lane n pos => decide (lane < 64) && decide (n < 2 ^ 32) && decide (pos < 2 ^ 32)
  | .laneEnable lane => decide (lane < 64)
  | .laneDisable lane => decide (lane < 64)
  | .vpWriteAck slot value => decide (slot < 4096) && decide (value < 2 ^ 32)
  | .spiRead slot count => decide (slot < 4096) && decide (count ≤ 4096)
  | .spiAck slot words => decide (slot < 4096) && words.all (fun w => decide (w < 65536))
  | .proxyWrite a value => accOk a && decide (value < 2 ^ 32)
  | .proxyRead a => accOk a
  | .proxyReadTimeout => true
  | .fldGwCommit => true
  | .fldCommit _ => true
  | .nvWriteDone kind => decide (kind < 3)
  | .fadcStart _ => true
  | .fadcStop => true
  | .fadcCal => true
  | .fadcCalDone _ => true
  | .calStore => true
  | .entryResult entry _ => decide (entry < 64)
  | .fadcCommit => true
  | .monitorReport _ supply rail => decide (supply < 65536) && decide (rail < 65536)
  | .fdacSet code => decide (code < 65536)
  | .updateApply output => decide (output < 4)
  | .deglitchHoldEnd output => decide (output < 4)
  | .fdacCommit _ => true
  | .spanSwitch output => decide (output < 4)
  | .spanChangeEnd output => decide (output < 4)
  | .openLoop output => decide (output < 4)
  | .openLoopClear output => decide (output < 4)
  | .hkEntryResult entry _ mw => decide (entry < 64) && decide (mw < 2 ^ 20)
  | .hkCommit => true
  | .hkAospSend mask => decide (mask < 16)
  | .fieldTempLost => true
  | .hostPowerOn sense _ => decide (sense < 4)
  | .perstDeassert => true
  | .conventionalReset => true
  | .deviceReset sense _ => decide (sense < 4)
  | .coreReset core => decide (core < 32)
  | .stopCommand => true
  | .drainEnd => true
  | .mgtWatchdog => true
  | .clockLoss _ => true
  | .thermalWithdraw level => decide (level < 4)
  | .guardEnd core => decide (core < 32)
  | .thermalTrip => true
  | .auxSupplyFail => true
  | .overpowerClear => true
  | .glbThmCommit => true
  | .cnpCommit => true
  | .hostPowerLoss => true
  | .housekeepingStale => true
  | .recoveryImage image => bytesOk image
  | .sessionHandshake chain _ => bytesOk chain
  | .sessionIdleTimeout _ => true
  | .telemetryTimer _ => true
  | .fwReady => true
  | .fwReadyTimeout => true
  | .fwHoldTimeout => true
  | .retestDone _ => true
  | .mgtCommit => true
  | .hello m => bytesOk m.payload
  | .claimModule m => bytesOk m.payload
  | .subscribe m => bytesOk m.payload
  | .eventAck m => bytesOk m.payload
  | .faultAck m => bytesOk m.payload
  | .telemetryCfg m => bytesOk m.payload
  | .regRead m => bytesOk m.payload
  | .regWrite m => bytesOk m.payload
  | .ringCmd m => bytesOk m.payload
  | .keepCmd m => bytesOk m.payload
  | .fwStage m => bytesOk m.payload
  | .fwActivate m => bytesOk m.payload
  | .fwCommit m => bytesOk m.payload
  | .fwRollback m => bytesOk m.payload
  | .unitRetire m => bytesOk m.payload
  | .unitRetest m => bytesOk m.payload
  | .unitRecal m => bytesOk m.payload
  | .passportRead m => bytesOk m.payload
  | .repair m => bytesOk m.payload
  | .peerList m => bytesOk m.payload
  | .anchorSet m => bytesOk m.payload
  | .timeSet m => bytesOk m.payload
  | .configExport m => bytesOk m.payload
  | .configImport m => bytesOk m.payload

end Sys2Proof
end

