-- ==== Sys2Proof/Certificates/Slice0/Obligations.lean ====
section
/-! DEFINITION. The statements for the provers.  A statement that says what a command does has the form `Does c s P`:
the command answers a next state, and `P` holds of it. -/

open Sys2Proof Sys2Proof.Machine

/-! ### The queue and reset -/

/-- A step takes the command at the front of the queue and runs it on the state with the queue's rest. -/
def Obligations.step_runs_the_front_command : Prop :=
  ∀ (s : State) (c : Instr) (rest : List Instr),
    step { s with pending := c :: rest } = exec c { s with pending := rest }

/-- A step on an empty queue is a tick: one nanosecond passes, and the management microsecond count of R401 counts it (the
model's choice: assumption log 1). -/
def Obligations.step_on_an_empty_queue_is_a_tick : Prop :=
  (∀ (s : State),
    s.pending = [] →
    ∃ t, step s = .next t ∧ t.ns = s.ns + 1 ∧ t.pending = [] ∧ t.bootNs = s.bootNs ∧ t.us = (s.ns + 1 - s.bootNs) / 1000)

/-! ### Register accesses -/

/-- An access by the PF, or by a management session, to a whole word of BAR0. -/
abbrev wordAccess (a : Access) (off : Nat) (write : Bool) : Prop :=
  a.func = 0 ∧ a.bar = 0 ∧ a.off = off ∧ a.size = 4 ∧ a.write = write
/-- A counter has gone up by `n`, unless it is frozen or full (R61). -/
abbrev Counted (c : Ctr) (i n : Nat) (s t : State) : Prop :=
  t.fget c.cnt i = if s.fon c.frz i then s.fget c.cnt i else min 0xFFFFFFFF (s.fget c.cnt i + n) % 2 ^ c.cnt.width

/-- What a written word does to each field of a register, by its access code (R15, Table 0.5): RW and, while the owner is
stopped, RWS take the written bits; a W1C bit written 1 is cleared; STG stages; RO and RC ignore the write. -/
def Obligations.written_words_follow_the_access_codes : Prop :=
  (∀ (s : State) (r : Reg) (i v : Nat),
    r ∈ Reg.all →
    ∀ f ∈ r.flds,
        ((f.acc = .rw ∨ f.acc = .rws) → (s.writeReg r i v).fget f i = v / 2 ^ f.lo % 2 ^ f.width) ∧
        ((f.acc = .w1c ∧ f.width = 1 ∧ s.fget f i < 2) → (s.writeReg r i v).fget f i = if v.testBit f.lo then 0 else s.fget f i) ∧
        (f.acc = .stg → (s.writeReg r i v).staging f i = v / 2 ^ f.lo % 2 ^ f.width ∧ (s.writeReg r i v).fget f i = s.fget f i) ∧
        ((f.acc = .ro ∨ f.acc = .rc ∨ f.acc = .wo) → (s.writeReg r i v).fget f i = s.fget f i))

/-- REGISTER_WRITE: a word written to GLB_SCRATCHn takes effect at once, a 1 clears GLB_STATUS.ACC_SEEN, and a word
written to MGT_HOST_MASK is staged; nothing else changes. -/
def Obligations.register_write_reaches_its_register : Prop :=
  (∀ (s : State) (a : Access) (k v : Nat),
    s.reached a = true →
    k < 4 →
    wordAccess a (0x40 + 4 * k) true →
    Does (.registerWrite a v) s (fun t => t.fget F.GLB_SCRATCH_VALUE k = v % 2 ^ 32 ∧ OnlyFields [(F.GLB_SCRATCH_VALUE, k)] s t)) ∧
  (∀ (s : State) (a : Access) (v : Nat),
    s.reached a = true →
    wordAccess a 0x10 true →
    v.testBit 0 = true →
    s.fget F.GLB_STATUS_ACC_SEEN 0 < 2 →
    Does (.registerWrite a v) s (fun t => t.fget F.GLB_STATUS_ACC_SEEN 0 = 0 ∧ OnlyFields [(F.GLB_STATUS_ACC_SEEN, 0)] s t)) ∧
  (∀ (s : State) (a : Access) (v : Nat),
    s.reached a = true →
    wordAccess a 0x10008 true →
    Does (.registerWrite a v) s (fun t => t.staging F.MGT_HOST_MASK_BLOCKS 0 = v % 2 ^ 32 ∧ t = { s with staged := t.staged }))

/-- LOW_WORD_READ, of every register of BAR0 without RC fields: the read returns the word that an earlier read of the
pair's low word latched for this function, else the register's; a read of a pair's low word latches the high word as
it is at this moment (R13), and no register changes. RC_FIELD_READ, of every register with RC fields: the read returns
the register's word in the same way and leaves every RC field of the register at 0, and the whole record of GLB_ACC
and of MEM_ERR (Table 0.5); no other register changes. A read of a function's PCI Express configuration space returns
the identification of R10: vendor and device ID at offset 0, and revision and class code at offset 8 (their places are
PCI Express's: assumption log 108). As one case each, MGT_TIME_LO returns the low word of the microsecond count and
latches its high word (R401), and GLB_ACC_HI returns its record's word and clears the record. -/
def Obligations.reads_latch_and_clear : Prop :=
  (∀ (s : State) (a : Access) (r : Reg) (i : Nat),
    s.reached a = true →
    a.write = false →
    a.bar = 0 →
    s.accessKind a = none →
    accMsix a = none →
    a.func ≠ 0 ∨ inProxy a.off = false →
    accTarget a = some (r, i) →
    r.rc = false →
    r.off ≠ R.HIF_VF_ID.off →
    Does (.lowWordRead a) s (fun t => t.readData = [(Tab.find s.latch (pairKey r.off i (accWho a))).getD (s.rollMeans.viewWord r i)] ∧
        (pairLow r.off = true → Tab.find t.latch (pairKey (r.off + 4) i (accWho a)) = some (s.rollMeans.viewWord (highOf r) i)) ∧
        t.fields = s.fields ∧ t.staged = s.staged ∧ t.lowHeld = s.lowHeld)) ∧
  (∀ (s : State) (a : Access) (r : Reg) (i : Nat),
    s.reached a = true →
    a.write = false →
    a.bar = 0 →
    s.accessKind a = none →
    accMsix a = none →
    a.func ≠ 0 ∨ inProxy a.off = false →
    accTarget a = some (r, i) →
    r.rc = true →
    Does (.rcFieldRead a) s (fun t => t.readData = [(Tab.find s.latch (pairKey r.off i (accWho a))).getD (s.rollMeans.viewWord r i)] ∧
        (∀ f ∈ r.flds, f.acc = .rc → t.fget f i = 0) ∧
        (r.off = R.GLB_ACC_HI.off ∨ r.off = R.MEM_ERR_HI.off → ∀ f ∈ (lowOf r).flds, t.fget f i = 0) ∧
        (∀ (f : Fld) (j : Nat), (∀ g ∈ r.flds ++ (lowOf r).flds, f.code ≠ g.code) → t.fget f j = s.fget f j))) ∧
  (∀ (s : State) (a : Access),
    s.reached a = true →
    a.bar = 8 →
    a.off = 0 →
    a.size = 4 →
    a.write = false →
    Does (.lowWordRead a) s (fun t => t.readData = [if a.func = 0 then 0x96321D7F else 0x96331D7F] ∧ t = { s with readData := t.readData })) ∧
  (∀ (s : State) (a : Access),
    s.reached a = true →
    a.bar = 8 →
    a.off = 8 →
    a.size = 4 →
    a.write = false →
    Does (.lowWordRead a) s (fun t => t.readData = [0x120000B0] ∧ t = { s with readData := t.readData })) ∧
  (∀ (s : State) (a : Access),
    s.reached a = true →
    wordAccess a 0x10010 false →
    Tab.find s.latch (pairKey 0x10010 0 (accWho a)) = none →
    Does (.lowWordRead a) s (fun t => t.readData = [s.us % 2 ^ 32] ∧ Tab.find t.latch (pairKey 0x10014 0 (accWho a)) = some (s.us / 2 ^ 32 % 2 ^ 32) ∧
        t = { s with readData := t.readData, latch := t.latch, hk := t.hk, free := t.free })) ∧
  (∀ (s : State) (a : Access),
    s.reached a = true →
    wordAccess a 0x24 false →
    Tab.find s.latch (pairKey 0x24 0 (accWho a)) = none →
    Does (.rcFieldRead a) s (fun t => t.readData = [s.fget F.GLB_ACC_HI_FUNCTION 0 + 2 ^ F.GLB_ACC_HI_MGT.lo * s.fget F.GLB_ACC_HI_MGT 0
          + 2 ^ F.GLB_ACC_HI_VALID.lo * s.fget F.GLB_ACC_HI_VALID 0] ∧
        t.fget F.GLB_ACC_HI_VALID 0 = 0 ∧ t.fget F.GLB_ACC_HI_FUNCTION 0 = 0 ∧ t.fget F.GLB_ACC_LO_OFFSET 0 = 0))

/-- What a discarded access with cause `k` leaves: the access completes, a read returns 0, the record of R444 names the
cause, the direction, the function and the offset, and the access is counted. -/
abbrev Discarded (a : Access) (k : Nat) (s t : State) : Prop :=
  t.fget F.GLB_ACC_LO_KIND 0 = k ∧ t.fget F.GLB_ACC_LO_WRITE 0 = ofBool a.write ∧ t.fget F.GLB_ACC_HI_FUNCTION 0 = a.func ∧
  t.fget F.GLB_ACC_HI_MGT 0 = ofBool a.mgt ∧ t.fget F.GLB_ACC_HI_VALID 0 = 1 ∧ t.fget F.GLB_STATUS_ACC_SEEN 0 = 1 ∧
  Counted accCtr 0 1 s t ∧ t.readData = (if a.write = true then s.readData else [0]) ∧ t.staged = s.staged ∧
  (a.func = 0 → t.fget F.GLB_ACC_LO_OFFSET 0 = a.off % 2 ^ 26)

/-- ACCESS_DISCARDED, of the PF's BAR0: an access of another size or alignment than a whole word leaves KIND 0; a whole
word at an offset that no chapter defines, outside the proxy window, KIND 1; a word of a core's window after the
orderly stop has ended with the cores stopped, KIND 2. In each case the access completes, a read returns 0, the record
holds the cause, the direction, the function and the offset, ACC_SEEN is set and the access counted (R444). (That an
access that is both is recorded as KIND 0 is the model's choice: assumption log 95.) -/
def Obligations.discarded_access_is_recorded : Prop :=
  (∀ (s : State) (a : Access),
    s.reached a = true →
    a.func = 0 →
    a.bar = 0 →
    a.size ≠ 4 ∨ a.off % 4 ≠ 0 →
    Does (.accessDiscarded a) s (fun t => Discarded a 0 s t)) ∧
  (∀ (s : State) (a : Access),
    s.reached a = true →
    a.func = 0 →
    a.bar = 0 →
    a.size = 4 →
    a.off % 4 = 0 →
    inProxy a.off = false →
    accTarget a = none →
    Does (.accessDiscarded a) s (fun t => Discarded a 1 s t)) ∧
  (∀ (s : State) (a : Access),
    s.reached a = true →
    a.func = 0 →
    a.bar = 0 →
    a.size = 4 →
    a.off % 4 = 0 →
    (accTarget a).isSome = true →
    0x100000 ≤ a.off →
    a.off < 0x300000 →
    s.fget F.GLB_PWR_STATUS_STATE 0 = 3 →
    Does (.accessDiscarded a) s (fun t => Discarded a 2 s t))

/-- COUNTER_CLEAR, of every counter control register: a write with CLEAR sets every counter that the register controls in
the instance written to 0, the other fields of the register take the written bits, and no other register field changes
(R61). -/
def Obligations.counter_clear_clears_the_block : Prop :=
  (∀ (s : State) (a : Access) (v : Nat) (r : Reg) (i : Nat),
    s.reached a = true →
    a.write = true →
    a.bar = 0 →
    s.accessKind a = none →
    accMsix a = none →
    a.func ≠ 0 ∨ inProxy a.off = false →
    accTarget a = some (r, i) →
    r.cntCtrl = true →
    (instCore r i).any s.retired = false →
    v.testBit 0 = true →
    Does (.counterClear a v) s (fun t => (∀ f ∈ cntFields r.off, t.fget f i = 0) ∧ (∀ f ∈ cntAll r.off, ∀ j : Nat, t.fget f j = 0) ∧
        (∀ f ∈ r.flds, f.acc = .rw → t.fget f i = v / 2 ^ f.lo % 2 ^ f.width) ∧
        (∀ (f : Fld) (j : Nat), (∀ g ∈ cntFields r.off ++ r.flds, f.code ≠ g.code ∨ j ≠ i) → (∀ g ∈ cntAll r.off, f.code ≠ g.code) →
          t.fget f j = s.fget f j)))

/-- MGT_COMMIT: a legal set of staged fields takes effect together (R411). -/
def Obligations.mgt_commit_applies_the_staged_fields : Prop :=
  (∀ (s : State),
    s.staging F.MGT_CFG_VECTOR 0 ≤ 511 →
    s.staging F.MGT_CFG_HOST_IRQ_EN 0 < 2 →
    s.staging F.MGT_HOST_MASK_BLOCKS 0 < 2 ^ 32 →
    Does (.mgtCommit) s (fun t => t.fget F.MGT_CFG_VECTOR 0 = s.staging F.MGT_CFG_VECTOR 0 ∧
        t.fget F.MGT_CFG_HOST_IRQ_EN 0 = s.staging F.MGT_CFG_HOST_IRQ_EN 0 ∧
        t.fget F.MGT_HOST_MASK_BLOCKS 0 = s.staging F.MGT_HOST_MASK_BLOCKS 0 ∧
        OnlyFields [(F.MGT_CFG_VECTOR, 0), (F.MGT_CFG_HOST_IRQ_EN, 0), (F.MGT_HOST_MASK_BLOCKS, 0)] s t))

/-! ### The barrier link -/

/-- The bytes that the sender of a frame to the field section, or from it, transmits next. -/
def nextFrame (s : State) (toField : Bool) : List Nat := ((s.bar.side (!toField)).transmit s.ns).1

/-- BARRIER_LINK_UP and BARRIER_LINK_DOWN: training starts both sides again from frame 0 and hands over the kept field
events; the loss of the link discards the frames held for retransmission. BARRIER_FRAME_RX and BARRIER_RETX_TIMEOUT:
an undamaged message frame with the expected number is accepted in order; a frame that fails a check is discarded, and
answered with NAK once for each gap; 2 µs without progress of ACK, every unacknowledged frame is sent again (R259). -/
def Obligations.barrier_link_and_frames : Prop :=
  (∀ (s : State),
    s.bar.up = false →
    s.power.slotPower = true →
    s.field.supply = true →
    s.field.frst = false →
    Does (.barrierLinkUp) s (fun t => t.bar.up = true ∧ t.fget F.FLD_GW_STATUS_LINK 0 = 2 ∧ t.bar.host.next = 0 ∧ t.bar.host.expect = 0 ∧
        t.bar.field.next = 0 ∧ t.bar.field.expect = 0 ∧ t.field.events = [])) ∧
  (∀ (s : State),
    s.bar.up = true →
    Does (.barrierLinkDown) s (fun t => t.bar.up = false ∧ t.bar.downAt = s.ns ∧ t.fget F.FLD_GW_STATUS_LINK 0 = ofBool s.linkPowered ∧
        t.bar.host.unacked = [] ∧ t.bar.field.unacked = [] ∧ t.bar.host.inbox = s.bar.host.inbox ∧
        t.bar.field.queue = s.bar.field.queue)) ∧
  (∀ (s : State) (d : Bool),
    s.bar.up = true →
    frameOk d (nextFrame s d) = true →
    bit ((nextFrame s d).getD 4 0) 0 = false →
    leAt (nextFrame s d) 0 2 = (s.bar.side d).expect →
    Does (.barrierFrameRx d []) s (fun t => (t.bar.side d).inbox = (s.bar.side d).inbox ++ frameMsgs (nextFrame s d) ∧
        (t.bar.side d).expect = ((s.bar.side d).expect + 1) % 65536 ∧ (t.bar.side d).heard = s.ns ∧ (t.bar.side d).bad = 0)) ∧
  (∀ (s : State) (d : Bool) (flips : List Nat),
    s.bar.up = true →
    frameOk d (flipBits (nextFrame s d) flips) = false →
    (s.bar.side d).bad < 31 →
    Does (.barrierFrameRx d flips) s (fun t => (t.bar.side d).inbox = (s.bar.side d).inbox ∧ (t.bar.side d).expect = (s.bar.side d).expect ∧
        (t.bar.side d).bad = (s.bar.side d).bad + 1 ∧ ((s.bar.side d).gap = false → (t.bar.side d).nak = true))) ∧
  (∀ (s : State) (d : Bool),
    s.bar.up = true →
    (s.bar.side d).unacked ≠ [] →
    (s.bar.side d).acked + 2000 ≤ s.ns →
    Does (.barrierRetxTimeout d) s (fun t => (t.bar.side d).resend = (s.bar.side d).unacked.length ∧ (t.bar.side d).acked = s.ns ∧
        (t.bar.side d).unacked = (s.bar.side d).unacked ∧ t.bar.side (!d) = s.bar.side (!d)))

/-! ### Presence of the two sections -/

/-! ### Messages across the barrier -/

/-- A message has been taken from a side's inbox, and what each side has sent stands before what it sends now. -/
abbrev Taken (d : Bool) (s t : State) : Prop := (t.bar.side d).inbox = ((s.pop d).bar.side d).inbox

/-- ITEM_CREATED makes a context for the item on its lane (R222); VERDICT_MSG gives its code to the live record of the
item, once and before the cutoff (R269); RETRACTION answers a range without records with one result (R272).
SETPOINT_GPO sets the outputs of its mask and leaves the others (R280); SETPOINT_ANALOGUE gives its codes to the
outputs of its mask (R294); ADC_REPORT writes the result register of its entry or records the monitor report (R301). -/
def Obligations.item_and_analogue_messages : Prop :=
  (∀ (s : State) (m : List Nat),
    s.front false = some m →
    isType 1 m = true →
    s.laneState (m.getD 1 0 % 64) = 2 →
    (s.ctxsOf (leAt m 4 6)) = [] →
    ((s.pop false).positionAt (bits (m.getD 2 0) 4 2) (leAt m 10 4)).canCreate = true →
    Does (.itemCreated) s (fun t => Taken false s t ∧ ((t.ctxOn (leAt m 4 6) (m.getD 1 0 % 64)).any (fun (p : Nat × ItemCtx) => p.2.trig && p.2.trigPos == leAt m 10 4)) = true)) ∧
  (∀ (s : State) (m : List Nat) (r : FieldRec),
    s.front true = some m →
    isType 2 m = true →
    s.field.recs = [r] →
    r.lane = m.getD 1 0 % 64 →
    r.item = some (leAt m 4 6) →
    r.code = none →
    r.hostGen = s.field.hostGen →
    s.encBad (s.lrEnc r.lane) = false →
    serialGe (s.encPos (s.lrEnc r.lane)) (s.cutoff r.lane r.pos) = false →
    Does (.verdictMsg) s (fun t => t.field.recs.map (fun (x : FieldRec) => (x.lane, x.n, x.pos, x.item, x.code)) =
        [(r.lane, r.n, r.pos, r.item, some (if m.getD 2 0 = 255 then s.lrWithheld r.lane else m.getD 2 0 % 16))])) ∧
  (∀ (s : State) (m : List Nat),
    s.front true = some m →
    isType 3 m = true →
    s.field.recs.all (fun r => r.code.isNone) = true →
    s.bar.field.queue.length < 4096 →
    Does (.retraction) s (fun t => Taken true s t ∧ t.bar.field.queue = s.bar.field.queue ++ [[6, 1, 0, 0, 0, 0, 0, 0, 0, 0, 0, 6, 0, 0, 0, 0]] ∧
        t = { s with bar := t.bar })) ∧
  (∀ (s : State) (m : List Nat),
    s.front true = some m →
    isType 4 m = true →
    m.getD 1 0 = 0 →
    s.field.hostHere = true →
    Does (.setpointGpo) s (fun t => Taken true s t ∧ t.field.gpoPolicy = false ∧
        t.field.gpo = ((s.field.gpo &&& (65535 - leAt m 2 2 % 65536)) ||| (leAt m 4 2 &&& leAt m 2 2 % 65536)))) ∧
  (∀ (s : State) (m : List Nat),
    s.front true = some m →
    isType 4 m = true →
    m.getD 1 0 = 1 →
    s.field.hostHere = true →
    Does (.setpointAnalogue) s (fun t => Taken true s t ∧ [0, 1, 2, 3].map (fun (k : Nat) => (t.ao k).waiting) = [0, 1, 2, 3].map (fun (k : Nat) =>
        if (m.getD 2 0).testBit k then some (leAt m (4 + 2 * k) 2 % 65536) else (s.ao k).waiting))) ∧
  (∀ (s : State) (m : List Nat),
    s.front false = some m →
    isType 5 m = true →
    m.getD 1 0 = 0 →
    Does (.adcReport) s (fun t => Taken false s t ∧ t.fget F.HK_FADC_RES_RESULT (m.getD 2 0 % 64) % 2 ^ 18 = leAt m 4 4 % 2 ^ 18 ∧
        OnlyFields [(F.HK_FADC_RES_RESULT, m.getD 2 0 % 64)] { s with bar := t.bar } t)) ∧
  (∀ (s : State) (m : List Nat),
    s.front false = some m →
    isType 5 m = true →
    m.getD 1 0 = 1 →
    Does (.adcReport) s (fun t => Taken false s t ∧ t.hk.monitor = some s.ns))

/-- HEARTBEAT_TIMER counts and sends a heartbeat, HEARTBEAT records it, HOST_LOST and HOST_PRESENT end and begin the field
section's presence of the host, and FIELD_LOST ends the host's presence of the field section (R262, R263, R279, R280).
STATE_MSG records the other section's state and reset generation (R263, R279); FIELD_EVENT_MSG logs the field event as
the next record (R283); POSITIONS_MSG records both positions (R224); RETRACTION_RESULT adds an entry for its item to
the result record in progress, and keeps waiting while it is not the last (R354). -/
def Obligations.heartbeats_and_status_messages : Prop :=
  (∀ (s : State) (ps : List Nat),
    s.bar.up = true →
    Does (.heartbeatTimer false ps) s (fun t => t.bar.host.beats = (s.bar.host.beats + 1) % 65536 ∧
        t.bar.host.queue = s.bar.host.queue ++ [slice ([7, 0] ++ bytesOf 2 ((s.bar.host.beats + 1) % 65536)) 0 16] ∧
        t = { s with bar := { s.bar with host := t.bar.host } })) ∧
  (∀ (s : State) (ps : List Nat),
    s.bar.up = true →
    s.field.ready = true →
    Does (.heartbeatTimer true ps) s (fun t => t.bar.field.beats = (s.bar.field.beats + 1) % 65536 ∧ t.bar.host = s.bar.host)) ∧
  (∀ (s : State) (d : Bool) (m : List Nat),
    s.front d = some m →
    isType 7 m = true →
    Does (.heartbeat d) s (fun t => (t.bar.side d).beat = s.ns ∧ (t.bar.side d).inbox = ((s.pop d).bar.side d).inbox ∧ t = { s with bar := t.bar })) ∧
  (∀ (s : State),
    s.field.ready = true →
    s.field.hostHere = true →
    s.bar.field.beat + s.hostTo ≤ s.ns →
    Does (.hostLost) s (fun t => t.field.hostHere = false ∧ t.field.gpoPolicy = true)) ∧
  (∀ (s : State) (m : List Nat),
    s.front true = some m →
    hostRunning m = true →
    Does (.hostPresent) s (fun t => t.field.hostHere = true ∧ t.field.hostState = 1 ∧ t.field.hostGen = m.getD 3 0)) ∧
  (∀ (s : State),
    s.bar.fieldHere = true →
    s.bar.host.beat + s.fieldTo ≤ s.ns →
    Does (.fieldLost) s (fun t => t.bar.fieldHere = false ∧ t.fget F.FLD_GW_STATUS_FIELD_PRESENT 0 = 0 ∧ t.fget F.FLD_GW_STATUS_FIELD_LOST_SEEN 0 = 1)) ∧
  (∀ (s : State) (m : List Nat),
    s.front true = some m →
    isStatus 0 m = true →
    m.getD 2 0 = 1 →
    Does (.stateMsg true) s (fun t => t.field.hostHere = true ∧ t.field.hostGen = m.getD 3 0 ∧ t.field.hostState = 1)) ∧
  (∀ (s : State) (m : List Nat),
    s.front true = some m →
    isStatus 0 m = true →
    m.getD 2 0 ≠ 1 →
    Does (.stateMsg true) s (fun t => t.field.hostHere = false ∧ t.field.hostGen = m.getD 3 0 ∧ t.field.hostState = m.getD 2 0)) ∧
  (∀ (s : State) (m : List Nat),
    s.front false = some m →
    isStatus 0 m = true →
    s.bar.fieldKnown = true →
    s.bar.fieldGen = m.getD 3 0 →
    m.getD 2 0 ≠ 0 →
    m.getD 3 0 < 256 →
    Does (.stateMsg false) s (fun t => Taken false s t ∧ t.bar.fieldHere = true ∧ t.bar.fieldState = m.getD 2 0 ∧ t.fget F.FLD_GW_STATUS_FIELD_PRESENT 0 = 1 ∧
        t.fget F.FLD_GW_STATUS_FIELD_GEN 0 = m.getD 3 0)) ∧
  (∀ (s : State) (m : List Nat),
    s.front false = some m →
    isStatus 2 m = true →
    Does (.fieldEventMsg) s (fun t => Taken false s t ∧
        (Tab.find t.events (s.fget F.MGT_EVT_HEAD_NEXT 0 % 262144)).map
          (fun (e : EventRec) => (e.code, e.source, e.item, e.lane, e.engine, e.count)) =
        some (leAt m 2 2, 1, leAt m 4 6, m.getD 10 0, m.getD 11 0, leAt m 12 4))) ∧
  (∀ (s : State) (m : List Nat),
    s.front false = some m →
    isStatus 3 m = true →
    Does (.positionsMsg) s (fun t => Taken false s t ∧ Tab.find t.bar.positions 0 = some (leAt m 4 4) ∧ Tab.find t.bar.positions 1 = some (leAt m 8 4))) ∧
  (∀ (s : State) (m : List Nat) (r : Retracting) (rest : List Retracting),
    s.front false = some m →
    isStatus 1 m = true →
    s.rel.retracting = r :: rest →
    bit (m.getD 11 0) 1 = false →
    bit (m.getD 11 0) 2 = false →
    m.getD 10 0 ≠ 0 →
    Does (.retractionResult) s (fun t => Taken false s t ∧ t.rel.retracting = { r with entries := r.entries ++
          [faultEntry 2 r.lane (m.getD 10 0) 0 (leAt m 4 6) (leAt m 4 6)] } :: rest ∧ t = { s with bar := t.bar, rel := t.rel }))

/-- CONFIG_WRITE writes the field register (here FLD_SCRATCH), or answers a write of FLD_RDREQ with that register's value
and TAG; CONFIG_READ_REPLY completes the proxied read with its tag (R281); FIRMWARE_DATA writes into the inactive
slot, FIRMWARE_COMMAND answers while the firmware restarts with 2, and FIRMWARE_RESULT ends a staging (R402). -/
def Obligations.proxied_words_and_field_firmware : Prop :=
  (∀ (s : State) (m : List Nat),
    s.front true = some m →
    isType 8 m = true →
    leAt m 2 2 = 0x0008 →
    s.bar.field.queue.length < 4096 →
    Does (.configWrite) s (fun t => Taken true s t ∧ t.bar.field.queue = s.bar.field.queue ++ [slice ([9, 0] ++ bytesOf 2 (leAt m 4 4 % 65536) ++
          bytesOf 4 ((s.pop true).fieldRead (leAt m 4 4 % 65536)) ++ bytesOf 2 (leAt m 4 4 / 65536)) 0 16] ∧ t.fields = s.fields)) ∧
  (∀ (s : State) (m : List Nat) (p : ProxyRead),
    s.front false = some m →
    isType 9 m = true →
    s.bar.proxy = [p] →
    p.tag = leAt m 8 2 →
    p.sess = none →
    p.more = 0 →
    Does (.configReadReply) s (fun t => Taken false s t ∧ t.bar.proxy = [] ∧ t.readData = [leAt m 4 4] ∧ t = { s with bar := t.bar, readData := t.readData })) ∧
  (∀ (s : State) (m : List Nat),
    s.front true = some m →
    isStatus 5 m = true →
    leAt m 4 4 < slotSize 5 →
    Does (.firmwareData) s (fun t => Taken true s t ∧
        t.fieldImage s.fieldIdle = putBytes (s.fieldImage s.fieldIdle) (leAt m 4 4) ((slice m 8 8).take (slotSize 5 - leAt m 4 4)) ∧
        t = { s with bar := t.bar, field := t.field })) ∧
  (∀ (s : State) (m : List Nat),
    s.front true = some m →
    isStatus 6 m = true →
    s.field.fw = .running →
    m.getD 2 0 = 5 →
    Does (.firmwareCommand) s (fun t => Taken true s t ∧ t.field.fw = FieldFw.back ∧ t.field.fwCmd = 5 ∧ t = { s with bar := t.bar, field := t.field })) ∧
  (∀ (s : State) (m : List Nat) (id tag : Nat),
    s.front false = some m →
    isStatus 7 m = true →
    m.getD 2 0 = 2 →
    s.mgmt.stage5 = some (id, tag) →
    Does (.firmwareResult) s (fun t => Taken false s t ∧ t.mgmt.stage5 = none ∧ t.fget F.MGT_FW_DATA_STATE 5 = 0 ∧
        t.fget (slotValid (s.fwIdle 5)) 5 = if m.getD 3 0 = 0 then 1 else 0))

/-! ### The charge engine and accumulation -/

/-- BIT_PLANE_CYCLE: with no granted replay waiting, the running vector of an engine issues its next plane that drives a
row, passing over those that drive none, which costs one cycle of the vector (R38, R42 to R44); where every plane of
it has been issued and a begun vector stands behind it, that one becomes the running vector and issues its first
plane. In the cycle that a rewrite window occupies, a driven row stands in and counts in RST_CNT_STANDIN, and the
window is used up; any other cycle leaves both (R51, R110). SPLIT_REPLAY runs the oldest granted replay, which costs
one cycle and moves on no plane (R46). VECTOR_COMPLETE counts the pass in the open group of the vector's chain and in
the tile's use (R83). None of them changes another engine. ENG_CFG_WRITE: a legal value takes effect while the core
neither runs nor is halted, and changes nothing else; while it does, the write is refused and REFUSED_WRITE set; an
illegal value sets CFG_INVALID (R58). CAL_VALID_EXPIRY: without current corrections CAL_VALID falls (R119). -/
def Obligations.engines_run_and_keep_legal_values : Prop :=
  (∀ (s : State) (c e : Nat) (v : EngVec) (p : Nat) (si : Bool),
    (s.engine c e).run = some v →
    v.splits = [] →
    v.planes ≤ 8 →
    v.plane ≤ p ∧ p < v.planes →
    s.planeIssued c e v p = true →
    (List.range p).all (fun q => decide (q < v.plane) || !s.planeIssued c e v q) = true →
    Does (.bitPlaneCycle c e si) s (fun t => (t.engine c e).run.map (fun (w : EngVec) => (w.plane, w.clock, w.issued)) = some (p + 1, v.clock + 1, v.issued + 1) ∧
        SameBut (eng c e) s.engines t.engines)) ∧
  (∀ (s : State) (c e : Nat) (v : EngVec) (p : Nat) (w : Window),
    (s.engine c e).run = some v →
    v.splits = [] →
    v.planes ≤ 8 →
    v.plane ≤ p ∧ p < v.planes →
    s.planeIssued c e v p = true →
    (List.range p).all (fun q => decide (q < v.plane) || !s.planeIssued c e v q) = true →
    s.windowRow (s.engine c e) = some w →
    w.row < 2048 →
    (s.rowsOn c e v p (segOf w.row)).contains w.row = true →
    Does (.bitPlaneCycle c e true) s (fun t => Counted C.RST_CNT_STANDIN c 1 s t ∧ (t.engine c e).window = some { w with used := true })) ∧
  (∀ (s : State) (c e : Nat) (v : EngVec) (p : Nat),
    (s.engine c e).run = some v →
    v.splits = [] →
    v.planes ≤ 8 →
    v.plane ≤ p ∧ p < v.planes →
    s.planeIssued c e v p = true →
    (List.range p).all (fun q => decide (q < v.plane) || !s.planeIssued c e v q) = true →
    Does (.bitPlaneCycle c e false) s (fun t => (t.engine c e).window = (s.engine c e).window ∧ t.fget F.RST_CNT_STANDIN_COUNT c = s.fget F.RST_CNT_STANDIN_COUNT c)) ∧
  (∀ (s : State) (c e : Nat) (v u : EngVec) (si : Bool),
    (s.engine c e).run = some v →
    (s.engine c e).tree = none →
    (s.engine c e).next = some u →
    u.begun = true →
    s.vecDone c e v = true →
    u.splits = [] →
    u.plane = 0 →
    0 < u.planes →
    (s.advance c e).planeIssued c e { u with clock := (s.advance c e).fget F.ENG_SLIP_SLIP_CYC (eng c e) } 0 = true →
    Does (.bitPlaneCycle c e si) s (fun t => (t.engine c e).run.map (fun (w : EngVec) => (w.lane, w.item, w.index, w.plane, w.issued)) = some (u.lane, u.item, u.index, 1, u.issued + 1) ∧
        (t.engine c e).tree = some v ∧ (t.engine c e).next = none ∧ SameBut (eng c e) s.engines t.engines)) ∧
  (∀ (s : State) (c e : Nat) (v : EngVec) (q : SplitReq) (rest : List SplitReq) (si : Bool),
    (s.engine c e).run = some v →
    v.splits = q :: rest →
    Does (.splitReplay c e si) s (fun t => (t.engine c e).run.map (fun (w : EngVec) => (w.splits, w.plane, w.clock, w.issued)) =
          some (rest, v.plane, v.clock + 1, v.issued + 1) ∧ SameBut (eng c e) s.engines t.engines)) ∧
  (∀ (s : State) (c e : Nat) (v : EngVec),
    s.finishing c e = some v →
    Tab.getD (s.tile c v.tile).groupPass (s.headOf c e) 0 < 32 →
    Does (.vectorComplete c e) s (fun t => Tab.getD (t.tile c v.tile).groupPass (s.headOf c e) 0 = Tab.getD (s.tile c v.tile).groupPass (s.headOf c e) 0 + 1 ∧
        Tab.getD (t.tile c v.tile).usePass (s.headOf c e) 0 = Tab.getD (s.tile c v.tile).usePass (s.headOf c e) 0 + 1 ∧
        SameBut (eng c e) s.engines t.engines)) ∧
  (∀ (s : State) (c e v : Nat),
    s.retired c = false →
    s.coreLocked c = false →
    engCfgOk e v = true →
    Does (.engCfgWrite c e v) s (fun t => t.fget F.ENG_CFG_SLICE_PLAN (eng c e) = v % 4 ∧ t.fget F.ENG_CFG_PLANES (eng c e) = v / 16 % 16 ∧
        t.fget F.ENG_CFG_SIGNED (eng c e) = v / 256 % 2 ∧ t.fget F.ENG_CFG_SPLIT_EN (eng c e) = v / 512 % 2 ∧
        t.fget F.ENG_CFG_REPLAY_MAX (eng c e) = v / 1024 % 4 ∧ t.fget F.ENG_CFG_SEG_EN (eng c e) = v / 4096 % 4 ∧
        OnlyFields [(F.ENG_CFG_SLICE_PLAN, eng c e), (F.ENG_CFG_PLANES, eng c e), (F.ENG_CFG_SIGNED, eng c e),
          (F.ENG_CFG_SPLIT_EN, eng c e), (F.ENG_CFG_REPLAY_MAX, eng c e), (F.ENG_CFG_SEG_EN, eng c e)] s t)) ∧
  (∀ (s : State) (c e v : Nat),
    s.retired c = false →
    s.coreLocked c = true →
    Does (.engCfgWrite c e v) s (fun t => t.fget F.ENG_STATUS_REFUSED_WRITE (eng c e) = 1 ∧ t.fget F.ENG_CFG_PLANES (eng c e) = s.fget F.ENG_CFG_PLANES (eng c e) ∧
        t.fget F.ENG_CFG_SLICE_PLAN (eng c e) = s.fget F.ENG_CFG_SLICE_PLAN (eng c e))) ∧
  (∀ (s : State) (c e v : Nat),
    s.retired c = false →
    s.coreLocked c = false →
    engCfgOk e v = false →
    Does (.engCfgWrite c e v) s (fun t => t.fget F.ENG_STATUS_CFG_INVALID (eng c e) = 1 ∧ t.fget F.ENG_CFG_PLANES (eng c e) = s.fget F.ENG_CFG_PLANES (eng c e))) ∧
  (∀ (s : State) (c e : Nat),
    s.calCurrent c e = false →
    s.fon F.ENG_STATUS_CAL_VALID (eng c e) = true →
    s.fget F.CORE_STATUS_STATE c ≠ 2 →
    Does (.calValidExpiry c e) s (fun t => t.fget F.ENG_STATUS_CAL_VALID (eng c e) = 0 ∧ OnlyFields [(F.ENG_STATUS_CAL_VALID, eng c e)] s t)) ∧
  (∀ (s : State) (c e : Nat),
    s.calCurrent c e = false →
    s.fon F.ENG_STATUS_CAL_VALID (eng c e) = true →
    s.fget F.CORE_STATUS_STATE c = 2 →
    Does (.calValidExpiry c e) s (fun t => t.fget F.ENG_STATUS_CAL_VALID (eng c e) = 0 ∧ t.fget F.ENG_STATUS_UNCAL_RUN (eng c e) = 1))

/-- A value within the limits is held as it is, and outside them at the nearer limit (R83, R85); a value that enters the
second level adds exactly itself to the sum that a drain forms, where nothing is held (R85); the generator of R88
keeps its 16 bits and never becomes 0. -/
def Obligations.sums_are_kept_and_moved_exactly : Prop :=
  (∀ v : Int, -2147483648 ≤ v → v ≤ 2147483647 → hold32 v = (v, false)) ∧
  (∀ v : Int, 2147483647 < v → hold32 v = (2147483647, true)) ∧
  (∀ v : Int, v < -2147483648 → hold32 v = (-2147483648, true)) ∧
  (∀ (l : List (Option Int)) (v : Int), (l2Enter l v).2 = false → (∃ x ∈ l, x = none) →
    (((l2Enter l v).1.filterMap id).sum = (l.filterMap id).sum + v ∧ (l2Enter l v).1.length = l.length)) ∧
  (∀ g : Nat, 0 < g → g < 65536 → 0 < genStep g ∧ genStep g < 65536) ∧
  (∀ x : Int, ∀ sh gen : Nat, sh ≤ 16 → roundSr x sh gen = x / ((2 ^ sh : Nat) : Int) ∨
    roundSr x sh gen = x / ((2 ^ sh : Nat) : Int) + 1)

/-- TRANSFER_SWEEP: where a finished vector waits whose pass would take its chain's open group past 32, every accumulator
of the tile is cleared and its open group empty, a group more is counted in the tile that holds the second level, and
outside the tiles only registers and what they report change (R84). DRAIN_SWEEP: a requested drain that is ready
(nothing of the tile in flight, and every group of the other K cores there where the drain wants them) runs, and the
request is gone (R94, R95). -/
def Obligations.tiles_transfer_and_drain : Prop :=
  (∀ (s : State) (c k : Nat),
    s.groupFull c k = true →
    Does (.transferSweep c k) s (fun t => (t.tile c k).acc = [] ∧ (t.tile c k).groupPass = [] ∧ (t.tile (s.l2Core c) k).groups = (s.tile (s.l2Core c) k).groups + 1 ∧
        t = { s with tiles := t.tiles, fields := t.fields, events := t.events, lastLog := t.lastLog, heldLog := t.heldLog, out := t.out, mgmt := t.mgmt })) ∧
  (∀ (s : State) (c k : Nat) (q : DrainReq),
    (s.tile c k).drain = some q →
    s.drainReady c k q = true →
    Does (.drainSweep c k) s (fun t => (t.tile c k).drain = none))

/-! ### The restorer -/

/-- SWEEP_START begins at row 0 a period after the last start while nothing else runs (R109); ROW_VISIT takes rows
ascending and for each row the engines in service ascending (R110); SWEEP_END counts the sweep after its last row
(R129). BULK_LOAD: a load that may run takes the restorer from its sweep and RST_STATUS reads it (R112).
BULK_LOAD_DONE: an unpaused load ends and every engine in service counts as written. CELL_ZERO_DONE: once level 0 is
written the restorer is free and the core holds no place (R108). -/
def Obligations.sweeps_and_bulk_loads : Prop :=
  (∀ (s : State) (c : Nat),
    (s.restorer c).sweeping = false →
    (s.restorer c).bulk = none →
    (s.restorer c).zeroing = false →
    s.inService c ≠ [] →
    (s.restorer c).started + s.periodNs c ≤ s.ns →
    Does (.sweepStart c) s (fun t => (t.restorer c).sweeping = true ∧ (t.restorer c).row = 0 ∧ (t.restorer c).idx = 0 ∧ (t.restorer c).started = s.ns ∧
        t.fget F.RST_STATUS_STATE c = 1 ∧ t = { s with fields := t.fields, engines := t.engines, rst := t.rst })) ∧
  (∀ (s : State) (c us k : Nat),
    (s.restorer c).sweeping = true →
    (s.restorer c).row < 2048 →
    s.inService c ≠ [] →
    s.mayOpen c ((s.inService c).getD (s.restorer c).idx 0) = true →
    Does (.rowVisit c us k .none) s (fun t => ((t.restorer c).row, (t.restorer c).idx) = (if (s.restorer c).idx + 1 < (s.inService c).length
          then ((s.restorer c).row, (s.restorer c).idx + 1) else ((s.restorer c).row + 1, 0)))) ∧
  (∀ (s : State) (c ppm : Nat),
    (s.restorer c).sweeping = true →
    2048 ≤ (s.restorer c).row →
    Does (.sweepEnd c ppm) s (fun t => (t.restorer c).sweeping = false ∧ (t.restorer c).sweeps = (s.restorer c).sweeps + 1)) ∧
  (∀ (s : State) (c d : Nat) (k : BulkKind),
    s.bulkDue c d k = true →
    Does (.bulkLoad c d k) s (fun t => (t.restorer c).bulk.map (fun (b : BulkLoad) => (b.kind, b.source)) = some (k, d) ∧ (t.restorer c).sweeping = false ∧
        t.fget F.RST_STATUS_STATE c = 2)) ∧
  (∀ (s : State) (c : Nat) (b : BulkLoad),
    (s.restorer c).bulk = some b →
    b.paused = false →
    Does (.bulkLoadDone ⟨c, none⟩) s (fun t => (t.restorer c).bulk = none)) ∧
  (∀ (s : State) (c : Nat),
    (s.restorer c).zeroing = true →
    s.power.resetting = [] →
    Does (.cellZeroDone c) s (fun t => (t.restorer c).zeroing = false ∧ (t.core c).place = none ∧ (s.unit (unitCore c) = 2 → t.fget F.CORE_STATUS_STATE c = 4)))

/-- CALIBRATION_CYCLE counts a cycle of its setting on an engine whose segment is free (R116, R117); CAL_PASS_DONE ends a
pass that has 16 cycles of each setting in both configurations (R118); STARTUP_PASS measures the bit weights of every
engine of a stopped core (R117); RST_CAL_PASS asks for a pass on every engine in service (R133); PASSPORT_SNAP gives
every engine in service a passport (R131). SPARE_SUBSTITUTE gives a column in use the free spare of its group, else
the lowest free one; SPARE_ACTIVATE makes it active once a complete sweep has passed (R124). RST_COMMIT applies limits
between 1,000 and 8,000 us in steps of 250, and leaves them otherwise (R133). -/
def Obligations.calibration_and_spares : Prop :=
  (∀ (s : State) (c e seg : Nat),
    (s.calEngines c).contains e = true →
    seg < 2 →
    s.segFree c e seg = true →
    Does (.calibrationCycle c e seg (.inject 64) false) s (fun t => Tab.getD (t.engine c e).calCycles (seg * 16 + 2) 0 = Tab.getD (s.engine c e).calCycles (seg * 16 + 2) 0 + 1 ∧
        SameBut (eng c e) s.engines t.engines ∧ t = { s with engines := t.engines, free := t.free })) ∧
  (∀ (s : State) (c e seg : Nat),
    (s.calEngines c).contains e = true →
    seg < 2 →
    (List.range 10).all (fun k => decide (16 ≤ Tab.getD (s.engine c e).calCycles (seg * 16 + k) 0)) = true →
    Does (.calPassDone c e seg) s (fun t => (t.engine c e).calCycles.all (fun (p : Nat × Nat) => p.1 / 16 != seg) = true ∧ (t.engine c e).calAsked = false)) ∧
  (∀ (s : State) (c : Nat),
    s.fget F.CORE_STATUS_STATE c = 1 →
    s.calEngines c = [2, 32, 33, 34, 35] →
    Does (.startupPass c) s (fun t => ((Tab.find (t.engine c 2).bitWeights 0).map List.length = some 8) ∧ t.free = s.free + 5 * (5568 + 2 * (1344 * 9)))) ∧
  (∀ (s : State) (c : Nat),
    s.retired c = false →
    Does (.rstCalPass c) s (fun t => (s.inService c).all (fun (e : Nat) => (t.engine c e).calAsked) = true ∧ t = { s with engines := t.engines })) ∧
  (∀ (s : State) (c : Nat),
    s.retired c = false →
    Does (.passportSnap c) s (fun t => (s.inService c).all (fun (e : Nat) => (t.engine c e).passport.isSome) = true)) ∧
  (∀ (s : State) (c e col sp : Nat),
    col < planCols (s.plan c e) * planSlices (s.plan c e) →
    s.spareFor c e col = none →
    (List.range 64).all (fun sp => s.spareTarget c e sp != some col) = true →
    s.pickSpare c e col = some sp →
    s.unit (unitLane c e (col / 4)) ≠ 2 →
    col < 2048 →
    Does (.spareSubstitute c e col) s (fun t => t.fget F.RST_SPARE_DATA_TARGET (spareInst c e sp) = col ∧ t.fget F.RST_SPARE_DATA_STATE (spareInst c e sp) = 1 ∧
        FieldsBut [(F.RST_SPARE_DATA_TARGET, spareInst c e sp), (F.RST_SPARE_DATA_STATE, spareInst c e sp)] s t ∧
        t = { s with fields := t.fields, rst := t.rst })) ∧
  (∀ (s : State) (c e sp : Nat),
    s.fget F.RST_SPARE_DATA_STATE (spareInst c e sp) = 1 →
    Tab.getD (s.restorer c).subSweep (e * 64 + sp) 1 ≤ (s.restorer c).sweeps →
    s.atVectorStart c e = true →
    Does (.spareActivate c e sp) s (fun t => t.fget F.RST_SPARE_DATA_STATE (spareInst c e sp) = 2)) ∧
  (∀ (s : State) (c lo hi : Nat),
    s.retired c = false →
    s.staging F.RST_PERIOD_LIM_MIN_US c = lo →
    s.staging F.RST_PERIOD_LIM_MAX_US c = hi →
    1000 ≤ lo →
    lo ≤ hi →
    hi ≤ 8000 →
    lo % 250 = 0 →
    hi % 250 = 0 →
    Does (.rstCommit c) s (fun t => t.fget F.RST_PERIOD_LIM_MIN_US c = lo ∧ t.fget F.RST_PERIOD_LIM_MAX_US c = hi ∧
        OnlyFields [(F.RST_PERIOD_LIM_MIN_US, c), (F.RST_PERIOD_LIM_MAX_US, c)] s t))

/-- GEN_VERIFY_DONE makes a generation whose digests all match ready (R125); STAGE_SWITCH_ADVANCE sends later vectors to
the targets at the vector boundary, and OLD_PLACEMENT_RELEASE ends the switch (R127); MODEL_DIGEST_FORM forms the
digest once every tile has completed a sweep (R130). -/
def Obligations.generations_switch_and_digests_form : Prop :=
  (∀ (s : State) (ctx id : Nat) (m : Model) (n : NextGen),
    s.model ctx id = some m →
    m.next = some n →
    n.ready = false →
    (n.maps.zip m.regions).map (fun (x : MapEnt × Nat) => s.masterDigest x.2 n.slot n.gen x.1.plan x.1.stage x.1.index) = n.maps.map (fun e => e.digest) →
    shake256 (bytesOf 4 n.gen ++ bytesOf 4 n.maps.length ++ (n.maps.map (fun e => e.digest)).flatten) = n.digest →
    Does (.genVerifyDone ctx id) s (fun t => ((t.model ctx id).bind (fun (x : Model) => x.next)).any (fun (x : NextGen) => x.ready) = true)) ∧
  (∀ (s : State) (ctx id stage : Nat) (m : Model) (w : Switching) (r : StageRec),
    s.model ctx id = some m →
    m.switching = some w →
    m.stage stage = some r →
    w.stage = stage →
    w.advanced = false →
    (w.targets.filter (fun c => !w.old.contains c)) = [] →
    w.old.all s.atBoundary = true →
    s.epochFull m.context m.id r.stage = false →
    Does (.stageSwitchAdvance ctx id stage) s (fun t => ((t.model ctx id).bind (fun (x : Model) => x.switching)).any (fun (x : Switching) => x.advanced) = true ∧
        ((t.model ctx id).bind (fun (x : Model) => x.stage stage)).map (fun (x : StageRec) => x.placed) = some w.targets)) ∧
  (∀ (s : State) (ctx id stage : Nat) (m : Model) (w : Switching) (r : StageRec),
    s.model ctx id = some m →
    m.switching = some w →
    m.stage stage = some r →
    w.stage = stage →
    w.advanced = true →
    m.next = none →
    (w.old.filter (fun c => !w.targets.contains c)).all (fun c => !s.coreOwes c) = true →
    Does (.oldPlacementRelease ctx id stage) s (fun t => (t.model ctx id).map (fun (x : Model) => x.switching) = some none)) ∧
  (∀ (s : State) (ctx id : Nat) (m : Model),
    s.model ctx id = some m →
    s.mgmt.down = false →
    m.maps.length ≤ m.swept.length →
    m.maps ≠ [] →
    Does (.modelDigestForm ctx id) s (fun t => (t.model ctx id).map (fun (x : Model) => (x.swept, x.sweptAt)) = some ([], s.modelSweeps m) ∧ t = { s with models := t.models }))

/-! ### Core control -/

/-- CORE_START begins a stopped core that meets every condition, INIT first, or refuses it with the first condition that
fails (R140); CORE_STOP and CORE_HALT wait for the vector boundary and are refused while the stage serves a lane; at
the boundary the core is stopped or halted; CORE_RESUME runs a halted core whose engines hold current corrections and
ends debug mode, and leaves one with an engine without them halted (the model's reading of R55 and R139: assumption
log 121); CORE_STEP lets it begin one lane slot (R141). -/
def Obligations.core_commands_change_its_state : Prop :=
  (∀ (s : State) (c : Nat),
    s.retired c = false →
    s.startReason c = 0 →
    s.seedWaits c = false →
    Does (.coreStart c) s (fun t => t.fget F.CORE_STATUS_STATE c = 2 ∧ t.fget F.SEQ_STATUS_INIT_DONE c = 0 ∧ (t.seq c).itm.entry = .init ∧ (t.seq c).vec.entry = .idle ∧
        (t.core c).fresh = true)) ∧
  (∀ (s : State) (c r : Nat),
    s.retired c = false →
    s.startReason c = r →
    r ≠ 0 →
    r < 8 →
    Does (.coreStart c) s (fun t => t.fget F.CORE_STATUS_START_REFUSED c = 1 ∧ t.fget F.CORE_STATUS_REASON c = r ∧
        t.fget F.CORE_STATUS_STATE c = s.fget F.CORE_STATUS_STATE c ∧ t.cores = s.cores ∧ t.seqs = s.seqs ∧ t.engines = s.engines)) ∧
  (∀ (s : State) (c : Nat),
    s.fget F.CORE_STATUS_STATE c = 2 →
    s.serves c = false →
    Does (.coreStop c) s (fun t => (t.core c).req = .stop ∧ SameBut c s.cores t.cores ∧ t = { s with cores := t.cores })) ∧
  (∀ (s : State) (c : Nat),
    s.fget F.CORE_STATUS_STATE c = 2 →
    s.serves c = false →
    Does (.coreHalt c) s (fun t => (t.core c).req = .halt ∧ SameBut c s.cores t.cores ∧ t = { s with cores := t.cores })) ∧
  (∀ (s : State) (c : Nat),
    s.fget F.CORE_STATUS_STATE c = 2 →
    s.serves c = true →
    Does (.coreHalt c) s (fun t => t.fget F.CORE_STATUS_HALT_REFUSED c = 1 ∧ t.cores = s.cores ∧ t.fget F.CORE_STATUS_STATE c = 2)) ∧
  (∀ (s : State) (c : Nat),
    s.fget F.CORE_STATUS_STATE c = 3 →
    s.allCalibrated c = true →
    Does (.coreResume c) s (fun t => t.fget F.CORE_STATUS_STATE c = 2 ∧ t.fget F.CORE_STATUS_DEBUG c = 0 ∧ (t.core c).req = .none ∧
        FieldsBut [(F.CORE_STATUS_STATE, c), (F.CORE_STATUS_DEBUG, c)] s t ∧ t = { s with fields := t.fields, cores := t.cores })) ∧
  (∀ (s : State) (c : Nat),
    s.fget F.CORE_STATUS_STATE c = 3 →
    s.allCalibrated c = false →
    Does (.coreResume c) s (fun t => t = s)) ∧
  (∀ (s : State) (c : Nat),
    s.fget F.CORE_STATUS_STATE c = 3 →
    Does (.coreStep c) s (fun t => (t.core c).req = .stepping ∧ SameBut c s.cores t.cores ∧ t = { s with cores := t.cores })) ∧
  (∀ (s : State) (c : Nat),
    s.atBoundary c = true →
    (s.core c).req = .stop →
    Does (.coreVectorBoundary c) s (fun t => t.fget F.CORE_STATUS_STATE c = 1 ∧ (t.core c).req = .none ∧ FieldsBut [(F.CORE_STATUS_STATE, c)] s t)) ∧
  (∀ (s : State) (c : Nat),
    s.atBoundary c = true →
    (s.core c).req = .halt →
    Does (.coreVectorBoundary c) s (fun t => t.fget F.CORE_STATUS_STATE c = 3 ∧ (t.core c).req = .none ∧ FieldsBut [(F.CORE_STATUS_STATE, c)] s t))

/-- CADENCE_SLOT: a slot moves the position to the next entry in every core of the stage, here seen in the core named
(R143). BANK_SWITCH: at the first slot of a table cycle the other bank becomes active (R145). CAD_CFG_WRITE: a legal
length and slot length take effect while the core neither runs nor is halted; otherwise the write is refused or marked
invalid (R162). SCRATCH_ROW_EXPIRE writes 0 into a scratch row that was not written for a sweep period and remembers
it (R150); SRAM_SCRUB of an undamaged word changes nothing and of a corrected one only counts and reports it (R156),
and beyond the 6 MiB it faults (the model's stop, R155: assumption log 5); CHUNK_FETCH_DONE makes the chunk resident
in its window (R160). -/
def Obligations.cadence_and_core_memory : Prop :=
  (∀ (s : State) (c : Nat),
    (s.peers c).all s.slotsRun = true →
    s.nextPos c ≠ 0 →
    Does (.cadenceSlot c) s (fun t => t.fget F.CORE_CAD_STATUS_POS c = s.nextPos c % 4096 ∧ (t.core c).fresh = false)) ∧
  (∀ (s : State) (c : Nat),
    s.fon F.CORE_CAD_STATUS_SWITCH_PENDING c = true →
    (s.peers c).all s.slotsRun = true →
    (s.peers c).Nodup →
    s.nextPos c = 0 →
    s.fget F.CORE_CAD_STATUS_BANK c < 2 →
    Does (.bankSwitch c) s (fun t => t.fget F.CORE_CAD_STATUS_BANK c = 1 - s.fget F.CORE_CAD_STATUS_BANK c ∧ t.fget F.CORE_CAD_STATUS_SWITCH_PENDING c = 0)) ∧
  (∀ (s : State) (c v : Nat),
    s.retired c = false →
    s.coreLocked c = false →
    4 ≤ v % 8192 →
    v % 8192 ≤ 4096 →
    1 ≤ v / 65536 % 16 →
    v / 65536 % 16 ≤ 8 →
    Does (.cadCfgWrite c v) s (fun t => t.fget F.CORE_CAD_CFG_LEN c = v % 8192 ∧ t.fget F.CORE_CAD_CFG_SLOT_PLANES c = v / 65536 % 16 ∧
        OnlyFields [(F.CORE_CAD_CFG_LEN, c), (F.CORE_CAD_CFG_SLOT_PLANES, c)] s t)) ∧
  (∀ (s : State) (c v : Nat),
    s.retired c = false →
    s.coreLocked c = true →
    Does (.cadCfgWrite c v) s (fun t => t.fget F.CORE_STATUS_REFUSED_WRITE c = 1 ∧ t.fget F.CORE_CAD_CFG_LEN c = s.fget F.CORE_CAD_CFG_LEN c)) ∧
  (∀ (s : State) (c se row w : Nat),
    Tab.find (s.core c).scrTime (se * 2048 + row) = some w →
    se < 4 →
    row < 2048 →
    w + s.periodNs c < s.ns →
    Does (.scratchRowExpire c se row) s (fun t => Tab.find (t.core c).scrTime (se * 2048 + row) = none ∧ (t.core c).scrZeroed = (s.core c).scrZeroed ++ [se * 2048 + row] ∧
        (List.range 1280).all (fun (k : Nat) => Tab.getD (t.engine c (32 + se)).cells (row * 1344 + k) 0 == 0) = true)) ∧
  (∀ (s : State) (c w : Nat),
    w * 8 < sramSize →
    Does (.sramScrub c w .none) s (fun t => t = s)) ∧
  (∀ (s : State) (c w : Nat),
    w * 8 < sramSize →
    Does (.sramScrub c w .single) s (fun t => t = { s with fields := t.fields, events := t.events, lastLog := t.lastLog, heldLog := t.heldLog, out := t.out, mgmt := t.mgmt } ∧
        (s.fget F.CORE_CNT_CTRL_FREEZE c = 0 → s.fget F.CORE_CNT_SRAM_CE_COUNT c < 0xFFFFFFFF →
          t.fget F.CORE_CNT_SRAM_CE_COUNT c = s.fget F.CORE_CNT_SRAM_CE_COUNT c + 1))) ∧
  (∀ (s : State) (c w : Nat) (err : EccErr),
    sramSize ≤ w * 8 →
    exec (.sramScrub c w err) s = .fault (.sramAddress (w * 8))) ∧
  (∀ (s : State) (c buf win : Nat) (f : Fetch) (b : Buffer),
    (s.core c).fetches = [f] →
    f.buf = buf →
    f.win = win →
    (s.core c).buffers = [b] →
    b.buf = buf →
    win < 2 →
    s.reads = [] →
    s.fab.net = [] →
    Does (.chunkFetchDone c buf win) s (fun t => (t.core c).fetches = [] ∧ (t.core c).buffers = [if win = 0 then { b with win0 := some f.chunk } else { b with win1 := some f.chunk }]))

/-- DEBUG_ENTER sets DEBUG on a stopped or halted core whose cells are clean, that is no Lookout and serves no
confidential context, and on no other core; DEBUG_EXIT clears it (R161, R370). -/
def Obligations.debug_mode_is_entered_and_left : Prop :=
  (∀ (s : State) (c : Nat),
    s.fget F.CORE_STATUS_STATE c = 1 ∨ s.fget F.CORE_STATUS_STATE c = 3 →
    s.conf (s.ctxOf c) = false →
    s.fon F.KEEP_CORE_DATA_CLEAN c = true →
    s.fget F.CORE_ROLE_ROLE c ≠ 2 →
    Does (.debugEnter c) s (fun t => t.fget F.CORE_STATUS_DEBUG c = 1)) ∧
  (∀ (s : State) (c : Nat),
    s.conf (s.ctxOf c) = true →
    Does (.debugEnter c) s (fun t => t = s)) ∧
  (∀ (s : State) (c : Nat),
    s.retired c = false →
    Does (.debugExit c) s (fun t => t.fget F.CORE_STATUS_DEBUG c = 0 ∧ OnlyFields [(F.CORE_STATUS_DEBUG, c)] s t))

/-! ### The stage sequencer -/

/-- A thread has moved past its instruction, its loops taken into account (R164, R168). -/
abbrev Moved (c : Nat) (th : Thr) (s t : State) : Prop :=
  ((t.thread c th).pc, (t.thread c th).loops) = stepPc (s.thread c th).pc (s.thread c th).loops

/-- VEC_ENTRY: a free VEC thread of a running core takes the oldest ready vector, with A1 at its address (R165 to R167);
ITEM_ENTRY: a free ITEM thread takes the oldest due entry (R165); END frees its thread, and the end of INIT sets
INIT_DONE (R164). NOP only moves on; SETA and ADDA write their destination register, which is not A0 or A1, and leave
every other one (R166); LOOP opens a loop over the instructions that follow (R168); FENCE moves on once the named work
is done, and stalls before (R168). -/
def Obligations.entries_and_address_instructions : Prop :=
  (∀ (s : State) (c : Nat) (v : VecIn),
    (s.seq c).vec.entry = .idle →
    s.slotsRun c = true →
    s.mayBegin c = true →
    (issueEngines (s.seq c).pm 2048 (s.fget F.SEQ_PROG_VEC_PC c)).all (fun e => (s.engine c e).next.isNone) = true →
    oldestReady (s.core c).vins [] = some v →
    Does (.vecEntry c .none) s (fun t => (t.seq c).vec.entry = Entry.vec ∧ (t.seq c).vec.pc = s.fget F.SEQ_PROG_VEC_PC c ∧ (t.seq c).vec.a1 = v.addr ∧
        ((t.seq c).vec.lane, (t.seq c).vec.item, (t.seq c).vec.index) = (v.lane, v.item, v.index))) ∧
  (∀ (s : State) (c : Nat) (d : ItemDue) (r : List ItemDue),
    (s.seq c).due = d :: r →
    (s.seq c).itm.entry = .idle →
    s.fget F.CORE_STATUS_STATE c = 2 →
    Does (.itemEntry c) s (fun t => (t.seq c).itm.entry = Entry.item ∧ (t.seq c).itm.pc = (s.seq c).itemPc ∧ (t.seq c).due = r ∧ (t.seq c).itm.a1 = d.a1 ∧
        t = { s with seqs := t.seqs })) ∧
  (∀ (s : State) (c w : Nat),
    s.fetchOp c .itm 0x01 = some w →
    (s.seq c).itm.entry = .init →
    Does (.endEntry c .itm) s (fun t => (t.seq c).itm.entry = Entry.idle ∧ t.fget F.SEQ_STATUS_INIT_DONE c = 1 ∧ OnlyFields [(F.SEQ_STATUS_INIT_DONE, c)] { s with seqs := t.seqs } t)) ∧
  (∀ (s : State) (c w : Nat),
    s.fetchOp c .vec 0x01 = some w →
    (s.seq c).vec.entry = .vec →
    Does (.endEntry c .vec) s (fun t => (t.seq c).vec.entry = Entry.idle)) ∧
  (∀ (s : State) (c w : Nat) (th : Thr),
    s.fetchOp c th 0x00 = some w →
    Does (.seqNop c th) s (fun t => Moved c th s t ∧ (t.seq c).regs = (s.seq c).regs ∧ t.engines = s.engines ∧ t.sram = s.sram)) ∧
  (∀ (s : State) (c w : Nat) (th : Thr),
    s.fetchOp c th 0x02 = some w →
    Does (.seta c th) s (fun t => Moved c th s t ∧
        (2 ≤ bits w 54 4 → t.areg c th (bits w 54 4) =
          ((if bits w 46 8 = 255 then 0 else s.bufBase c (bits w 46 8)) + bits w 0 23) % 2 ^ 23) ∧
        (List.range 16).all (fun (r : Nat) => (r == bits w 54 4 && decide (2 ≤ r)) || t.areg c th r == s.areg c th r) = true)) ∧
  (∀ (s : State) (c w : Nat) (th : Thr),
    s.fetchOp c th 0x03 = some w →
    Does (.adda c th) s (fun t => Moved c th s t ∧
        (2 ≤ bits w 54 4 → t.areg c th (bits w 54 4) =
          addaValue (s.areg c th (bits w 54 4)) (s.areg c th (bits w 33 4)) (bits w 37 17) (sext 20 (bits w 0 20)) % 2 ^ 23) ∧
        (List.range 16).all (fun (r : Nat) => (r == bits w 54 4 && decide (2 ≤ r)) || t.areg c th r == s.areg c th r) = true)) ∧
  (∀ (s : State) (c w : Nat) (th : Thr),
    s.fetchOp c th 0x04 = some w →
    Does (.loop c th) s (fun t => (t.thread c th).pc = (s.thread c th).pc + 1 ∧
        (t.thread c th).loops = ⟨(s.thread c th).pc + 1, bits w 16 11, bits w 0 16 - 1⟩ :: (s.thread c th).loops)) ∧
  (∀ (s : State) (c w : Nat) (th : Thr),
    s.fetchOp c th 0x0C = some w →
    s.fenceWaits c th (bits w 0 4) = false →
    Does (.fence c th) s (fun t => Moved c th s t)) ∧
  (∀ (s : State) (c w : Nat) (th : Thr),
    s.fetchOp c th 0x0C = some w →
    s.fenceWaits c th (bits w 0 4) = true →
    Does (.fence c th) s (fun t => (t.thread c th).pc = (s.thread c th).pc ∧ (t.thread c th).stalled = true ∧ t = { s with seqs := t.seqs }))

/-- ISSUE: with its operand resident and every second staging buffer free, each engine it names takes the vector (R167);
while a buffer is taken it stalls. DRAIN: a tile without a request takes this one, with its descriptor, its next use
and its address, and the thread waits there until the sweep has run (R94, R96; that the thread waits is the model's
reading: assumption log 117). SEND of a part posts it to the exit core (R169); SEND and SEND_EMIT in the exit core
post the stage's output packet once every part has landed, to the next stage of the model (R169, R136). -/
def Obligations.issues_drains_and_sends : Prop :=
  (∀ (s : State) (c w : Nat) (th : Thr) (es : List Nat),
    s.fetchOp c th 0x05 = some w →
    s.resident c (s.operand c th (issueOp w).as (issueOp w).off) (s.issueBytes c (issueOp w)) = true →
    es = (rangeFrom (issueOp w).first ((issueOp w).last + 1 - (issueOp w).first)).filter (fun e => decide (32 ≤ e) || (s.engine c e).map.isSome) →
    es.all (fun e => (s.engine c e).next.isNone) = true →
    Does (.issue c th) s (fun t => es.all (fun (e : Nat) => (t.engine c e).next.any (fun (v : EngVec) =>
          v.lane == (s.thread c th).lane && v.item == (s.thread c th).item && v.index == (s.thread c th).index && !v.begun)) = true)) ∧
  (∀ (s : State) (c w : Nat) (th : Thr),
    s.fetchOp c th 0x05 = some w →
    s.resident c (s.operand c th (issueOp w).as (issueOp w).off) (s.issueBytes c (issueOp w)) = true →
    (s.engine c 33).next.isSome = true →
    (issueOp w).first ≤ 33 →
    33 ≤ (issueOp w).last →
    Does (.issue c th) s (fun t => (t.thread c th).stalled = true ∧ (t.thread c th).pc = (s.thread c th).pc ∧ t = { s with seqs := t.seqs })) ∧
  (∀ (s : State) (c w k : Nat) (th : Thr),
    s.fetchOp c th 0x06 = some w →
    k = (if (drainOp w).tile = 1 then 0 else if (drainOp w).tile = 2 then 1 else if (drainOp w).tile = 3 then Tab.getD (s.core c).lastTile (drainOp w).first 0 else Tab.getD (s.thread c th).tiles (drainOp w).first 0) →
    (s.tile c k).drain = none →
    (s.thread c th).draining = false →
    Does (.drain c th) s (fun t => (t.thread c th).pc = (s.thread c th).pc ∧ (t.thread c th).draining = true ∧ (t.thread c th).stalled = true ∧ (t.tile c k).drain.map (fun (q : DrainReq) => (q.desc, q.next, q.nextZero, q.group, q.addr)) =
        some ((drainOp w).desc, (drainOp w).next, (drainOp w).nextZero, (drainOp w).group, s.operand c th (drainOp w).ad (drainOp w).off))) ∧
  (∀ (s : State) (c w : Nat) (th : Thr) (m : Model) (r : StageRec),
    s.fetchOp c th 0x07 = some w →
    s.resident c (s.operand c th (sendOp w).as (sendOp w).off) ((sendOp w).len * 64) = true →
    (sendOp w).dest = 1 →
    s.stageOf c = some (m, r) →
    Does (.send c th) s (fun t => Moved c th s t ∧ (t.fab.held.getLast?).map (fun (p : Packet) => (p.typ, p.src, p.dst, p.payload)) =
          some (PktType.exitPart, c, r.exit, s.sramRead c (s.operand c th (sendOp w).as (sendOp w).off) ((sendOp w).len * 64)) ∧
        t.fab.held.length = s.fab.held.length + 1)) ∧
  (∀ (s : State) (c w : Nat) (th : Thr) (m : Model) (r n : StageRec),
    s.fetchOp c th 0x07 = some w →
    s.resident c (s.operand c th (sendOp w).as (sendOp w).off) ((sendOp w).len * 64) = true →
    (sendOp w).dest ≠ 1 →
    (sendOp w).dest ≠ 3 →
    s.partsReady c (s.thread c th) = true →
    s.stageOf c = some (m, r) →
    m.nextOn r = some n →
    Does (.send c th) s (fun t => Moved c th s t ∧ (t.fab.held.getLast?).map (fun (p : Packet) => (p.typ, p.src, p.dst, p.dstStage)) =
          some (PktType.vector, c, n.entry, n.stage) ∧ t.fab.held.length = s.fab.held.length + 1)) ∧
  (∀ (s : State) (c w : Nat) (th : Thr) (m : Model) (r : StageRec),
    s.fetchOp c th 0x07 = some w →
    (sendOp w).dest = 3 →
    (s.thread c th).stalled = true →
    s.partsReady c (s.thread c th) = true →
    s.stageOf c = some (m, r) →
    Does (.sendEmit c th) s (fun t => Moved c th s t ∧ (t.fab.canopy.getLast?).map (fun (p : Packet) => (p.typ, p.src, p.dev, p.dstStage)) =
          some (PktType.vector, c, r.nextDevice, r.nextStage) ∧ t.fab.held.length = s.fab.held.length + 1))

/-- SCRW queues one row write of converted values (R147); VOP writes the packed results at its destination and nothing
else of SRAM (R153); FETCH of a buffer spilled to DRAM empties the window and posts the read, WBACK posts the window's
bytes as a memory write, and both only move on for a buffer that is not spilled (R160). -/
def Obligations.vector_unit_and_spill_instructions : Prop :=
  (∀ (s : State) (c w : Nat) (th : Thr),
    s.fetchOp c th 0x08 = some w →
    s.resident c (s.operand c th (scrwOp w).as (scrwOp w).off) (fmtBytes (scrwOp w).fmt ((scrwOp w).cnt + 1)) = true →
    Does (.scrw c th) s (fun t => Moved c th s t ∧ ((t.core c).scrQueue.getLast?).map (fun (q : RowWrite) => (q.se, q.row, q.col0)) =
          some ((scrwOp w).se, (s.areg c th (scrwOp w).ar + (scrwOp w).row) % 2048, (scrwOp w).col0) ∧
        (t.core c).scrQueue.length = (s.core c).scrQueue.length + 1)) ∧
  (∀ (s : State) (c w : Nat) (th : Thr),
    s.fetchOp c th 0x09 = some w →
    (vopSpans (vopOp w)).all (fun (x : Nat × Nat) => s.resident c (s.areg c th x.1) x.2) = true →
    Does (.vop c th) s (fun t => Moved c th s t ∧ t.sram = (s.sramWrite c (s.areg c th (vopOp w).ad) (packElems (vopDest (vopOp w))
          ((s.vopResults c (vopOp w) (s.areg c th (vopOp w).ad) (s.areg c th (vopOp w).as1) (s.areg c th (vopOp w).as2)).map (fun p => p.1)))).sram ∧
        t.free = s.free + (vopOp w).n)) ∧
  (∀ (s : State) (c w : Nat) (th : Thr) (x : Buffer),
    s.fetchOp c th 0x0A = some w →
    s.buffer c (bits w 50 8) = some x →
    x.spilled = true →
    x.host = false →
    Does (.fetch c th) s (fun t => Moved c th s t ∧ (t.fab.net.getLast?).map (fun (p : Packet) => (p.typ, p.src, p.addr, p.len)) =
          some (PktType.memRead, c, chunkAddr x (bits w 34 16), x.chunk) ∧ (t.core c).fetches.length = (s.core c).fetches.length + 1)) ∧
  (∀ (s : State) (c w : Nat) (th : Thr) (x : Buffer),
    s.fetchOp c th 0x0B = some w →
    s.buffer c (bits w 50 8) = some x →
    x.spilled = true →
    x.host = false →
    Does (.wback c th) s (fun t => Moved c th s t ∧ (t.fab.held.getLast?).map (fun (p : Packet) => (p.typ, p.src, p.addr, p.payload)) =
          some (PktType.memWrite, c, chunkAddr x (bits w 34 16), s.sramRead c (winAddr x (bits w 33 1)) x.chunk))) ∧
  (∀ (s : State) (c w : Nat) (th : Thr) (x : Buffer),
    s.fetchOp c th 0x0B = some w →
    s.buffer c (bits w 50 8) = some x →
    x.spilled = false →
    Does (.wback c th) s (fun t => Moved c th s t ∧ t.fab = s.fab ∧ t.sram = s.sram))

/-- SIGNAL posts a counter operation of its index and amount (R319); WAITC of amount 0 moves on, and one that a counter
holds takes its amount at once (R324); VERDICT in an ITEM entry is accepted once, and elsewhere only moves on (R170);
OUTH writes core SRAM into the item's host output buffer (R168). -/
def Obligations.program_counters_verdicts_and_outputs : Prop :=
  (∀ (s : State) (c w : Nat) (th : Thr) (m : Model) (r : StageRec),
    s.fetchOp c th 0x0D = some w →
    s.stageOf c = some (m, r) →
    bit w 57 = true →
    s.fab.held.all (fun p => p.thread != some (thrNum c th)) = true →
    Does (.signal c th) s (fun t => Moved c th s t ∧ (t.fab.held.getLast?).map (fun (p : Packet) => (p.typ, p.src, p.dst, p.payload)) =
          some (PktType.signal, c, 41, ({ op := 1, index := bits w 36 14, operand := bits w 20 16, node := c, context := m.context } : CtrOp).bytes))) ∧
  (∀ (s : State) (c w : Nat) (m : Model) (r : StageRec),
    s.fetchOp c .itm 0x0E = some w →
    (s.seq c).joined = false →
    s.sync.waits = [] →
    s.stageOf c = some (m, r) →
    bits w 20 16 ≠ 0 →
    bits w 20 16 ≤ s.ctr (r.syncBase + bits w 36 14) →
    s.ctr (r.syncBase + bits w 36 14) < 2 ^ 32 →
    s.fget F.SYNC_WAITTAB_USED 0 < 4096 →
    Does (.waitc c) s (fun t => Moved c .itm s t ∧ t.ctr (r.syncBase + bits w 36 14) = s.ctr (r.syncBase + bits w 36 14) - bits w 20 16)) ∧
  (∀ (s : State) (c w : Nat) (th : Thr),
    s.fetchOp c th 0x0F = some w →
    (s.thread c th).entry = .item →
    (s.thread c th).verdict = false →
    Does (.verdict c th) s (fun t => Moved c th s t ∧ (t.thread c th).verdict = true)) ∧
  (∀ (s : State) (c w n : Nat) (th : Thr) (y : ItemCtx) (o : Origin),
    s.fetchOp c th 0x10 = some w →
    s.resident c (s.operand c th (insAs w) (insOff w)) (bits w 21 16 * 64) = true →
    s.ctxOn (s.thread c th).item (s.thread c th).lane = some (n, y) →
    y.origin = some o →
    o.canopy = false →
    y.cpl = false →
    Does (.outh c th) s (fun t => Moved c th s t ∧ Out.hostWrite o.func (o.outAddr + bits w 0 21 * 64)
        (s.sramRead c (s.operand c th (insAs w) (insOff w)) (bits w 21 16 * 64)) ∈ t.out))

/-! ### The loader's end and the fabric -/

/-- An undamaged packet of the current epoch lands where its type says: a vector in the entry core of its stage, a K part
in its core, an exit part among the parts of the exit core, a group transfer in the second level of its tile, an epoch
close in its stage's epoch; a vector with a payload error is answered with a negative receipt (R86, R136, R169, R195
to R197). RECEIPT: a positive receipt frees the packet that its sender kept; RECEIPT_TIMEOUT: a packet without its
receipt within RECEIPT_TO_US is sent once more (R195). -/
def Obligations.packets_land_and_are_receipted : Prop :=
  (∀ (s : State) (k n : Nat) (p : Packet) (r : StageRec) (x : ItemCtx),
    s.packet k = some p →
    p.typ = .vector →
    p.remote = false →
    (s.entryEpoch (stageKey p.context p.model p.stage)).judge p.epoch = 0 →
    (s.model p.context p.model).bind (fun m => m.stage p.dstStage) = some r →
    s.ctxOn p.item p.lane = some (n, x) →
    x.state = .running →
    (s.core r.entry).vins = [] →
    Does (.vectorPacket k .none) s (fun t => (t.core r.entry).vins.map (fun (v : VecIn) => (v.lane, v.item, v.index, v.landed, v.taken)) = [(p.lane, p.item, p.vseq, true, false)] ∧
        (t.fab.net.getLast?).map (fun (q : Packet) => (q.typ, q.ref, q.nack)) = some (PktType.receipt, p.key, false))) ∧
  (∀ (s : State) (k : Nat) (p : Packet),
    s.packet k = some p →
    p.typ = .vector →
    p.remote = false →
    Does (.vectorPacket k .payload) s (fun t => t.fget F.FAB_STATUS_PAY_PAR_SEEN 0 = 1 ∧ t.cores = s.cores ∧ t.sram = s.sram ∧
        (t.fab.net.getLast?).map (fun (q : Packet) => (q.typ, q.ref, q.nack)) = some (PktType.receipt, p.key, true))) ∧
  (∀ (s : State) (k : Nat) (p : Packet) (m : Model) (r : StageRec),
    s.packet k = some p →
    p.typ = .kpart →
    s.stageOf p.dst = some (m, r) →
    (s.core p.dst).vins = [] →
    Does (.kpartPacket k .none) s (fun t => (t.core p.dst).vins.map (fun (v : VecIn) => (v.lane, v.item, v.index, v.landed)) = [(p.lane, p.item, p.vseq, true)])) ∧
  (∀ (s : State) (k : Nat) (p : Packet),
    s.packet k = some p →
    p.typ = .exitPart →
    (s.epoch (stageKey p.context p.model p.stage)).judge p.epoch = 0 →
    Does (.exitPart k .none) s (fun t => (t.core p.dst).parts.any (fun (q : ExitPart) => q.lane == p.lane && q.item == p.item && q.index == p.vseq && q.bytes == p.payload) = true)) ∧
  (∀ (s : State) (k : Nat) (p : Packet),
    s.packet k = some p →
    p.typ = .group →
    (s.epoch (stageKey p.context p.model p.stage)).judge p.epoch = 0 →
    (s.tile p.dst (p.nOff % 2)).got.contains p.src = false →
    Does (.groupTransfer k .none) s (fun t => (t.tile p.dst (p.nOff % 2)).got = (s.tile p.dst (p.nOff % 2)).got ++ [p.src] ∧ (t.tile p.dst (p.nOff % 2)).eout = p.eout)) ∧
  (∀ (s : State) (k : Nat) (p : Packet) (e : EpochSt),
    s.packet k = some p →
    p.typ = .epochClose →
    s.epoch (stageKey p.context p.model p.stage) = e →
    epochAhead p.epoch e.cur = 1 →
    e.waiting.contains p.src = true →
    Does (.epochClose ⟨k, none⟩) s (fun t => t.epoch (stageKey p.context p.model p.stage) = { e with
        waiting := e.waiting.filter (fun c => c != p.src), prevOpen := !(e.waiting.filter (fun c => c != p.src)).isEmpty })) ∧
  (∀ (s : State) (k : Nat) (p q : Packet),
    s.packet k = some p →
    p.typ = .receipt →
    p.nack = false →
    s.fab.held = [q] →
    q.key = p.ref →
    q.remote = false →
    Does (.receipt ⟨k, none⟩) s (fun t => t.fab.held = [] ∧ t = { s with fab := t.fab })) ∧
  (∀ (s : State) (k : Nat) (q : Packet),
    s.fab.held = [q] →
    q.key = k →
    q.remote = false →
    q.retx = false →
    q.sentNs + s.fget F.FAB_CFG_RECEIPT_TO_US 0 * 1000 ≤ s.ns →
    Does (.receiptTimeout k) s (fun t => t.fab.held = [{ q with retx := true, sentNs := s.ns }] ∧ t.fget F.FAB_STATUS_TIMEOUT_SEEN 0 = 1 ∧
        t.fab.net = s.fab.net.filter (fun x => x.key != k) ++ [{ q with retx := true, sentNs := s.ns }]))

/-- MEMORY_READ returns the bytes at its address; MEMORY_WRITE stores its payload there and leaves every other byte; each
takes from the round's credit, without which it waits; READ_DATA puts the words of a request that waits for them in
the buffer's window and frees the request; an access beyond the 48 GiB of R199 faults (the model's stop: assumption
log 5). PATROL_SCRUB advances page by page outside the master pool and begins again after the last (R201); DRAM_ROUND
gives every class the bytes of its share (R202); FAB_COMMIT applies RECEIPT_TO_US from 1 to 16 and refuses others
(R203). -/
def Obligations.memory_requests_and_the_controller : Prop :=
  (∀ (s : State) (k : Nat) (p : Packet),
    s.packet k = some p →
    p.typ = .memRead →
    p.addr + p.len ≤ dramSize →
    s.memOpen = true →
    Does (.memoryRead ⟨k, none⟩ .none) s (fun t => (t.fab.net.getLast?).map (fun (q : Packet) => (q.typ, q.ref, q.payload)) = some (PktType.readData, p.key, s.dramRead p.addr p.len) ∧
        t = { s with fab := t.fab })) ∧
  (∀ (s : State) (k : Nat) (p : Packet),
    s.packet k = some p →
    p.typ = .memWrite →
    p.addr + p.payload.length ≤ dramSize →
    s.memOpen = true →
    cellsWf s.dram = true →
    Does (.memoryWrite k .none) s (fun t => t.dramRead p.addr p.payload.length = p.payload.map (fun b => b % 256) ∧ BytesBut p.addr p.payload.length s.dram t.dram ∧
        t = { s with fab := t.fab, dram := t.dram })) ∧
  (∀ (s : State) (k : Nat) (p : Packet),
    s.packet k = some p →
    p.typ = .memWrite →
    dramSize < p.addr + p.payload.length →
    exec (.memoryWrite k .none) s = .fault (.dramAddress p.addr)) ∧
  (∀ (s : State) (k : Nat) (p : Packet) (err : EccErr),
    s.packet k = some p →
    p.typ = .memRead →
    dramSize < p.addr + p.len →
    exec (.memoryRead ⟨k, none⟩ err) s = .fault (.dramAddress p.addr)) ∧
  (∀ (s : State) (k : Nat) (p q : Packet) (b : Buffer),
    s.packet k = some p →
    p.typ = .readData →
    p.nack = false →
    s.fab.held.find? (fun x => x.key == p.ref) = some q →
    s.buffer p.dst (p.nOff / 2) = some b →
    Does (.readData k .none) s (fun t => t.sram = (s.sramWrite p.dst (winAddr b (p.nOff % 2) + p.vseq) p.payload).sram ∧ t.fab.held = s.fab.held.filter (fun x => x.key != p.ref) ∧
        t = { s with fab := t.fab, sram := t.sram })) ∧
  (∀ (s : State) (b : Nat),
    s.fab.patrol < 48127 →
    Does (.patrolScrub (1024 + s.fab.patrol) b .none) s (fun t => t.fab.patrol = s.fab.patrol + 1 ∧ t.fget F.MEM_STATUS_SCRUB_ACTIVE 0 = 1 ∧ OnlyFields [(F.MEM_STATUS_SCRUB_ACTIVE, 0)] { s with fab := t.fab } t)) ∧
  (∀ (s : State) (b : Nat),
    s.fab.patrol = 48127 →
    Does (.patrolScrub 49151 b .none) s (fun t => t.fab.patrol = 0 ∧ t.fget F.MEM_STATUS_SCRUB_ACTIVE 0 = 0)) ∧
  (∀ (s : State),
    Does (.dramRound) s (fun t => [0, 1, 2, 3, 4, 5].map (fun (k : Nat) => Tab.find t.fab.credit k) = [0, 1, 2, 3, 4, 5].map (fun (k : Nat) => some (s.memShare k * 100)) ∧
        t = { s with fab := t.fab, free := t.free })) ∧
  (∀ (s : State) (v : Nat),
    s.staging F.FAB_CFG_RECEIPT_TO_US 0 = v →
    1 ≤ v →
    v ≤ 16 →
    Does (.fabCommit) s (fun t => t.fget F.FAB_CFG_RECEIPT_TO_US 0 = v ∧ OnlyFields [(F.FAB_CFG_RECEIPT_TO_US, 0)] s t)) ∧
  (∀ (s : State),
    16 < s.staging F.FAB_CFG_RECEIPT_TO_US 0 →
    Does (.fabCommit) s (fun t => t.fget F.FAB_CFG_RECEIPT_TO_US 0 = s.fget F.FAB_CFG_RECEIPT_TO_US 0 ∧ t.fget F.FAB_STATUS_CFG_INVALID 0 = 1))

/-! ### Rings -/

/-- DESCRIPTOR_TAKE counts the take, reserves a completion slot and reads the 64 bytes (R238); HOST_READ_COMPLETION hands
them to the ring, and a first failure repeats the read (R242, R249); DESCRIPTOR_READ_FAIL and HOST_READ_FAIL end a
read that fails again; SLOW_READ records a latency beyond the limit (R234). -/
def Obligations.descriptors_are_taken_and_read : Prop :=
  (∀ (s : State) (f r : Nat),
    ringExists f r = true →
    s.mayTake f (ringKey f r) = true →
    s.fget F.RING_CFG_KIND (ringKey f r) = 0 →
    Does (.descriptorTake f r) s (fun t => t.fget F.RING_SQ_TAKE_COUNT (ringKey f r) = (s.fget F.RING_SQ_TAKE_COUNT (ringKey f r) + 1) % 2 ^ 32 ∧
        (t.ring (ringKey f r)).taken.length = (s.ring (ringKey f r)).taken.length + 1 ∧
        t.reads = s.reads ++ [⟨s.nextTag, f, s.sqBase (ringKey f r) + s.fget F.RING_SQ_TAKE_COUNT (ringKey f r) % s.sqSize (ringKey f r) * 64, 64,
          .desc (ringKey f r) (s.fget F.RING_SQ_TAKE_COUNT (ringKey f r)), false, false⟩] ∧
        OnlyFields [(F.RING_SQ_TAKE_COUNT, ringKey f r)] { s with rings := t.rings, reads := t.reads, nextTag := t.nextTag, out := t.out } t)) ∧
  (∀ (s : State) (tag c buf win : Nat) (r : HostRead) (x : Buffer) (d : List Nat),
    s.findRead tag = some r →
    r.use = .chunk c buf win →
    s.buffer c buf = some x →
    Does (.hostReadCompletion tag d true) s (fun t => t.sram = (s.sramWrite c (winAddr x win) ((slice d 0 r.len).map (fun v => v % 256))).sram ∧
        t.reads = s.reads.filter (fun q => q.tag != tag) ∧ t = { s with sram := t.sram, reads := t.reads })) ∧
  (∀ (s : State) (tag : Nat) (r : HostRead) (d : List Nat),
    s.findRead tag = some r →
    r.again = false →
    Does (.hostReadCompletion tag d false) s (fun t => t.reads = s.reads.map (fun x => if x.tag = tag then { x with again := true } else x) ∧
        t = { s with reads := t.reads, out := t.out })) ∧
  (∀ (s : State) (tag k n : Nat) (r : HostRead),
    s.findRead tag = some r →
    r.use = .desc k n →
    r.again = true →
    Does (.descriptorReadFail tag) s (fun t => t.reads = s.reads.filter (fun q => q.tag != tag))) ∧
  (∀ (s : State) (tag n off : Nat) (r : HostRead),
    s.findRead tag = some r →
    r.use = .input n off →
    r.again = true →
    Does (.hostReadFail tag) s (fun t => t.fget F.HIF_STATUS_READ_ERR_SEEN 0 = 1 ∧ t.reads = s.reads.filter (fun q => q.tag != tag))) ∧
  (∀ (s : State) (tag ns : Nat),
    (s.findRead tag).isSome = true →
    s.fget F.HIF_LAT_LIMIT_NS 0 < ns →
    ns < 65536 →
    s.fget F.HIF_LAT_MAX_NS 0 < 65536 →
    Does (.slowRead tag ns) s (fun t => t.fget F.HIF_STATUS_SLOW_READ_SEEN 0 = 1 ∧ t.fget F.HIF_LAT_MAX_NS 0 = max (s.fget F.HIF_LAT_MAX_NS 0) ns ∧ t.reads = s.reads))

/-- SQ_DOORBELL: a tail within the queue's size of both the tail and the head of a running ring becomes SQ_TAIL, and any
other value is refused (R237). RING_START starts a ring that meets every condition with its counts at 0, and otherwise
names the first that fails (R252, R235); RING_STOP and RING_STOPPED end it (R250); RING_COMMIT applies a moderation of
1 or more (R252); IRQ_MOD_TIMER sends the message of completions that have waited TIME_US (R246); ATS_INVALIDATE keeps
or loses the peer window (R248). -/
def Obligations.doorbells_and_ring_control : Prop :=
  (∀ (s : State) (f r v : Nat),
    ringExists f r = true →
    s.fget F.RING_STATUS_STATE (ringKey f r) = 1 →
    cntDiff (v % 2 ^ 32) (s.fget F.RING_SQ_TAIL_COUNT (ringKey f r)) ≤ s.sqSize (ringKey f r) →
    cntDiff (v % 2 ^ 32) (s.fget F.RING_SQ_HEAD_COUNT (ringKey f r)) ≤ s.sqSize (ringKey f r) →
    Does (.sqDoorbell f r v) s (fun t => t.fget F.RING_SQ_TAIL_COUNT (ringKey f r) = v % 2 ^ 32 ∧ OnlyFields [(F.RING_SQ_TAIL_COUNT, ringKey f r)] s t)) ∧
  (∀ (s : State) (f r v : Nat),
    ringExists f r = true →
    s.sqSize (ringKey f r) < cntDiff (v % 2 ^ 32) (s.fget F.RING_SQ_TAIL_COUNT (ringKey f r)) →
    Does (.sqDoorbell f r v) s (fun t => t.fget F.RING_SQ_TAIL_COUNT (ringKey f r) = s.fget F.RING_SQ_TAIL_COUNT (ringKey f r) ∧
        t.fget F.RING_STATUS_DB_BAD (ringKey f r) = 1)) ∧
  (∀ (s : State) (f r : Nat),
    ringExists f r = true →
    s.ringStartReason f (ringKey f r) = 0 →
    Does (.ringStart f r) s (fun t => t.fget F.RING_STATUS_STATE (ringKey f r) = 1 ∧ t.fget F.RING_SQ_TAIL_COUNT (ringKey f r) = 0 ∧ t.fget F.RING_SQ_HEAD_COUNT (ringKey f r) = 0 ∧
        t.fget F.RING_CQ_TAIL_COUNT (ringKey f r) = 0 ∧ t.fget F.RING_CQ_HEAD_COUNT (ringKey f r) = 0 ∧ (t.ring (ringKey f r)).taken = (s.ring (ringKey f r)).taken.filter (fun (x : Taken) => x.orphan) ∧
        t = { s with fields := t.fields, rings := t.rings })) ∧
  (∀ (s : State) (f r k : Nat),
    ringExists f r = true →
    s.ringStartReason f (ringKey f r) = k →
    k ≠ 0 →
    k < 8 →
    Does (.ringStart f r) s (fun t => t.fget F.RING_STATUS_START_REFUSED (ringKey f r) = 1 ∧ t.fget F.RING_STATUS_REASON (ringKey f r) = k ∧
        t.fget F.RING_STATUS_STATE (ringKey f r) = s.fget F.RING_STATUS_STATE (ringKey f r) ∧ t.rings = s.rings)) ∧
  (∀ (s : State) (f r : Nat),
    ringExists f r = true →
    s.fget F.RING_STATUS_STATE (ringKey f r) = 1 →
    Does (.ringStop f r) s (fun t => t.fget F.RING_STATUS_STATE (ringKey f r) = 2 ∧ OnlyFields [(F.RING_STATUS_STATE, ringKey f r)] s t)) ∧
  (∀ (s : State) (f r : Nat),
    ringExists f r = true →
    s.fget F.RING_STATUS_STATE (ringKey f r) = 2 →
    (s.ring (ringKey f r)).taken.all (fun x => x.released && !x.slot) = true →
    Does (.ringStopped f r) s (fun t => t.fget F.RING_STATUS_STATE (ringKey f r) = 0)) ∧
  (∀ (s : State) (f r v : Nat),
    ringExists f r = true →
    s.staging F.RING_MOD_COUNT (ringKey f r) = v →
    v ≠ 0 →
    v < 256 →
    Does (.ringCommit f r) s (fun t => t.fget F.RING_MOD_COUNT (ringKey f r) = v ∧ FieldsBut [(F.RING_MOD_COUNT, ringKey f r), (F.RING_MOD_TIME_US, ringKey f r)] s t)) ∧
  (∀ (s : State) (f r n a : Nat) (rest : List (Nat × Nat)),
    (s.ring (ringKey f r)).irq = (n, a) :: rest →
    s.fon F.RING_CFG_IRQ_EN (ringKey f r) = true →
    s.fget F.RING_MOD_TIME_US (ringKey f r) ≠ 0 →
    a + s.fget F.RING_MOD_TIME_US (ringKey f r) * 1000 ≤ s.ns →
    Does (.irqModTimer f r) s (fun t => (t.ring (ringKey f r)).irq = [] ∧ t = { s with rings := t.rings, out := t.out, msixPending := t.msixPending })) ∧
  (∀ (s : State) (f r : Nat),
    s.ats.contains f = true →
    (s.ring (ringKey f r)).window.isSome = true →
    Does (.atsInvalidate f r true) s (fun t => (t.ring (ringKey f r)).windowOk = true ∧ (t.ring (ringKey f r)).window = (s.ring (ringKey f r)).window))

/-- VF_FLR and PF_FLR clear the function's rings but for commands that still run, its reads and bus mastering, the PF's
that of every function (R250); BUS_MASTER_ENABLE sets bus mastering; LINK_RETRAIN sets generation, width and format
(R231). -/
def Obligations.functions_reset_and_the_link_retrains : Prop :=
  (∀ (s : State) (v : Nat),
    1 ≤ v →
    v ≤ 32 →
    s.tdi v = 0 →
    Does (.vfFlr v) s (fun t => t.busMaster.contains v = false ∧ t.reads.all (fun (r : HostRead) => r.func != v || (match r.use with
          | .chunk _ _ _ => true
          | _ => false)) = true ∧ (List.range 8).all (fun (k : Nat) => (t.ring (ringKey v k)).taken.all (fun (x : Taken) => x.orphan) && (t.ring (ringKey v k)).irq.isEmpty && (t.ring (ringKey v k)).window.isNone) = true)) ∧
  (∀ (s : State),
    Does (.pfFlr) s (fun t => t.busMaster.all (fun (v : Nat) => decide (32 < v)) = true)) ∧
  (∀ (s : State) (f : Nat),
    f ≤ 32 →
    s.items = [] →
    Does (.busMasterEnable f) s (fun t => t.busMaster.contains f = true ∧ t = { s with busMaster := t.busMaster })) ∧
  (∀ (s : State) (g w : Nat) (flit : Bool),
    s.power.linkUp = true →
    1 ≤ g →
    g ≤ 6 →
    w = 1 ∨ w = 2 ∨ w = 4 ∨ w = 8 ∨ w = 16 →
    Does (.linkRetrain g w flit) s (fun t => t.fget F.HIF_LINK_GEN 0 = g ∧ t.fget F.HIF_LINK_WIDTH 0 = w ∧ t.fget F.HIF_LINK_FLIT 0 = ofBool flit))

/-! ### Ring commands -/

/-- The completion of a ring's command is written, with its STATUS, and the completion queue advances (R242). -/
abbrev Completed (k status : Nat) (s t : State) : Prop :=
  t.fget F.RING_CQ_TAIL_COUNT k = (s.fget F.RING_CQ_TAIL_COUNT k + 1) % 2 ^ 32 ∧
  t.out.any (fun o => match o with
    | .hostWrite f a b => f == k / 128 && a == s.cqBase k + s.fget F.RING_CQ_TAIL_COUNT k % s.cqSize k * 32 && b.getD 4 256 == status
    | _ => false) = true
/-- A command that a host function's ring runs next. -/
abbrev Runnable (f r op : Nat) (d : Taken) (s : State) : Prop :=
  ringExists f r = true ∧ s.cmd (ringKey f r) op = some d ∧ s.takenDesc (ringKey f r) d.number = some d

/-- ITEM makes a running context for a new item and issues the read of its input (R222); a second input of the same item
completes with status 0x42 (R243). ITEM_LOOKUP finds the context of its item and lane unless it is confidential
(R227). -/
def Obligations.item_descriptors_join_their_context : Prop :=
  (∀ (s : State) (f r : Nat) (d : Taken),
    Runnable f r 1 d s →
    s.ctxsOf (dItem d.bytes) = [] →
    s.canCreate = true →
    s.busMaster.contains f = true →
    Does (.item f r) s (fun t => (t.ctxOn (dItem d.bytes) (dLane d.bytes)).any (fun (p : Nat × ItemCtx) => p.2.state == .running && p.2.input) = true ∧
        t.reads.length = s.reads.length + 1 ∧ (t.reads.getLast?).map (fun (q : HostRead) => (q.func, q.addr)) = some (f, dInAddr d.bytes))) ∧
  (∀ (s : State) (f r n : Nat) (d : Taken) (x : ItemCtx),
    Runnable f r 1 d s →
    d.released = true →
    s.ctxOn (dItem d.bytes) (dLane d.bytes) = some (n, x) →
    x.state ≠ .created →
    f ≤ 32 →
    Does (.item f r) s (fun t => Completed (ringKey f r) 0x42 s t ∧ t.items = s.items)) ∧
  (∀ (s : State) (v n : Nat) (x : ItemCtx),
    s.ctxOn (s.fget F.ITEM_SEL_LO_ID_LO 0 + v % 65536 * 2 ^ 32) (v / 65536 % 64) = some (n, x) →
    s.conf (s.lane (v / 65536 % 64)).context = false →
    Does (.itemLookup v) s (fun t => t.fget F.ITEM_STATUS_FOUND 0 = 1 ∧ t.fget F.ITEM_STATUS_HIDDEN 0 = 0 ∧ t.fget F.ITEM_STATUS_INDEXED 0 = ofBool x.indexed ∧ t = { s with fields := t.fields })) ∧
  (∀ (s : State) (v : Nat),
    s.ctxOn (s.fget F.ITEM_SEL_LO_ID_LO 0 + v % 65536 * 2 ^ 32) (v / 65536 % 64) = none →
    Does (.itemLookup v) s (fun t => t.fget F.ITEM_STATUS_FOUND 0 = 0))

/-- NOP completes (R241); AREA_WRITE stores its input in the context's load area and AREA_READ returns it (R200, R241);
AREA_FREE gives the area's pages to their scrub; PEER_WINDOW sets a ring's window (R247); BIND gives an unbound lane
an unbound item ring (R236); each with status 0, and a BIND of a bound ring with 0x68. -/
def Obligations.commands_complete_with_their_status : Prop :=
  (∀ (s : State) (f r : Nat) (d : Taken),
    Runnable f r 0x10 d s →
    Does (.nop f r) s (fun t => Completed (ringKey f r) 0 s t ∧ t = { s with fields := t.fields, rings := t.rings, out := t.out, msixPending := t.msixPending })) ∧
  (∀ (s u : State) (f r : Nat) (d : Taken) (b : List Nat),
    Runnable f r 0x11 d s →
    s.loading (dCtx d.bytes) = false →
    s.allocArea (dCtx d.bytes) (areaPages (dArg0 d.bytes) (dInLen d.bytes)) = some u →
    b.length = dInLen d.bytes →
    Does (.areaWrite f r (some b)) s (fun t => Completed (ringKey f r) 0 s t ∧ t.dram = (u.areaPut (dCtx d.bytes) (dArg0 d.bytes) (b.map (fun x => x % 256))).dram)) ∧
  (∀ (s : State) (f r : Nat) (d : Taken),
    Runnable f r 0x12 d s →
    Does (.areaRead f r) s (fun t => Completed (ringKey f r) 0 s t ∧ Out.hostWrite (s.ringFunc (ringKey f r) (dCtx d.bytes)) (dOutAddr d.bytes) (s.areaGet (dCtx d.bytes) (dArg0 d.bytes) (dOutLen d.bytes)) ∈ t.out ∧ t.dram = s.dram)) ∧
  (∀ (s : State) (f r : Nat) (d : Taken),
    Runnable f r 0x1C d s →
    s.loading (dCtx d.bytes) = false →
    Does (.areaFree f r) s (fun t => Completed (ringKey f r) 0 s t ∧ t.fab.pages.all (fun (p : Nat × PageEnt) => !(p.2.owner == dCtx d.bytes && p.2.use == 1) || p.2.scrub) = true)) ∧
  (∀ (s : State) (f r : Nat) (d : Taken),
    Runnable f r 0x1A d s →
    dInLen d.bytes ≠ 0 →
    s.ats = [] →
    Does (.peerWindow f r true) s (fun t => Completed (ringKey f r) 0 s t ∧ (t.ring (ringKey (s.ringFunc (ringKey f r) 0) (dArg0 d.bytes % 256))).window = some (dInAddr d.bytes, dInLen d.bytes) ∧
        (t.ring (ringKey (s.ringFunc (ringKey f r) 0) (dArg0 d.bytes % 256))).windowOk = true)) ∧
  (∀ (s : State) (f r g : Nat) (d : Taken),
    Runnable f r 0x1B d s →
    g = ringKey (s.ringFunc (ringKey f r) (s.lane (dLane d.bytes)).context) (dArg0 d.bytes % 256) →
    s.laneUp (dLane d.bytes) = true →
    (s.lane (dLane d.bytes)).ring = none →
    s.bindable g = true →
    Does (.bind f r) s (fun t => Completed (ringKey f r) 0 s t ∧ (t.lane (dLane d.bytes)).ring = some g ∧ t.fget F.RING_STATUS_BOUND g = 1 ∧ t.fget F.RING_STATUS_LANE g = dLane d.bytes)) ∧
  (∀ (s : State) (f r g : Nat) (d : Taken),
    Runnable f r 0x1B d s →
    g = ringKey (s.ringFunc (ringKey f r) (s.lane (dLane d.bytes)).context) (dArg0 d.bytes % 256) →
    s.bindable g = false →
    Does (.bind f r) s (fun t => Completed (ringKey f r) 0x68 s t ∧ t.lanes = s.lanes))

/-- LOAD_COMPLETE: once every start-up pass and bulk load of the model's cores has ended and each may start, the cores
start and the model is loaded (R182 step 8, R183). LOAD in its turn: an image whose header fails its check is refused
with that check's status, and no model changes; an encrypted image that passes steps 1 and 2 of R182 waits for the
release of its key; and where a plain image makes a model that was not there, the model has the image's generation and
digest, is starting, and its LOAD waits for that (R182); UNLOAD of a model that no lane uses, at its vector boundary,
takes it out (R186); SWITCH to a ready generation asks for a frame boundary (R126). -/
def Obligations.models_load_switch_and_unload : Prop :=
  (∀ (s : State) (ctx id : Nat) (m : Model),
    s.model ctx id = some m →
    m.state = .starting →
    m.waiter.isSome = true →
    (m.stages.flatMap (fun (r : StageRec) => r.placed)).all (fun c => s.passed c && (s.restorer c).bulk.isNone && (s.inService c).all (fun e => (s.engine c e).written) && s.startReason c == 0) = true →
    Does (.loadComplete ctx id) s (fun t => (t.model ctx id).map (fun (x : Model) => (x.state, x.waiter)) = some (ModelState.loaded, none))) ∧
  (∀ (s : State) (f r : Nat) (d : Taken) (e : LoadErr),
    Runnable f r 0x13 d s →
    s.fget F.KEEP_STATUS_STATE 0 ≠ 0 →
    1056 ≤ dOutLen d.bytes →
    s.loading (dCtx d.bytes) = false →
    s.serialTurn d = true →
    headerCheck (s.image (dCtx d.bytes) (dArg0 d.bytes)) = some e →
    Does (.load f r) s (fun t => Completed (ringKey f r) e.status s t ∧ t.models = s.models)) ∧
  (∀ (s : State) (f r : Nat) (d : Taken) (b : List Nat),
    Runnable f r 0x13 d s →
    f ≤ 32 →
    s.fget F.KEEP_STATUS_STATE 0 ≠ 0 →
    1056 ≤ dOutLen d.bytes →
    s.loading (dCtx d.bytes) = false →
    s.serialTurn d = true →
    s.image (dCtx d.bytes) (dArg0 d.bytes) = b →
    Does (.load f r) s (fun t => (headerCheck b = none ∧ s.areaHolds (dCtx d.bytes) (dArg0 d.bytes) (imgLen b) = true ∧ signatureCheck b (s.modelKeys (dCtx d.bytes)) = none ∧
          s.model (dCtx d.bytes) (imgId b) = none ∧ imgEncrypted b = true ∧ keywrapOk b = true ∧ bit (leAt (sectBytes b 9) 6 2) 0 = false →
          t.models = s.models ∧ (Tab.find t.keep.pend (dCtx d.bytes)).map (fun (p : PendLoad) => (p.off, p.ring, p.number, p.model, p.gen)) =
            some (dArg0 d.bytes, ringKey f r, d.number, imgId b, imgGen b)) ∧
        (s.model (dCtx d.bytes) (imgId b) = none → (t.model (dCtx d.bytes) (imgId b)).all (fun (m : Model) => m.state == .starting && m.gen == imgGen b &&
          m.expected == imgDigest b && m.waiter == some (ringKey f r / 128, ringKey f r, d.number)) = true))) ∧
  (∀ (s : State) (f r : Nat) (d : Taken) (m : Model),
    Runnable f r 0x14 d s →
    s.serialTurn d = true →
    s.model (dCtx d.bytes) (dModel d.bytes) = some m →
    (List.range 64).all (fun l => s.laneState l == 0 || (s.lane l).context != dCtx d.bytes || (s.lane l).model != m.id) = true →
    (m.stages.flatMap (fun (x : StageRec) => x.placed)).all s.atBoundary = true →
    Does (.unload f r) s (fun t => Completed (ringKey f r) 0 s t ∧ t.model (dCtx d.bytes) (dModel d.bytes) = none)) ∧
  (∀ (s : State) (f r : Nat) (d : Taken) (m : Model) (n : NextGen),
    Runnable f r 0x19 d s →
    s.model (dCtx d.bytes) (dModel d.bytes) = some m →
    m.next = some n →
    n.ready = true →
    n.waiter = none →
    d.bytes.getD 14 0 = 0 →
    Does (.switch f r) s (fun t => ((t.model (dCtx d.bytes) (dModel d.bytes)).bind (fun (x : Model) => x.next)).any (fun (x : NextGen) => x.waiter == some (ringKey f r, d.number)) = true ∧
        (Tab.getD t.keep.frames (dCtx d.bytes) []).contains (FrameWhy.switch m.id 0) = true))

/-- ADMIT of a well-formed contract for a free lane of a loaded model: where the lane's last stage sends to a peer, the
lane asks that peer for a binding; where it does not, and the contract names no field output, the lane is being
admitted if it passes the admission tests and stays free if not (R214, R217, R318); SUSPEND gives an admitted lane its
reason and its suspended state, and RESUME takes reasons 0 and 2 away (R463); RELEASE moves the lane to releasing, and
RELEASE_COMPLETE frees a lane whose stages hold none of its entries (R218); an ADMIT whose contract could not be read
completes with 0x64 (R214); FIRST_PACKET_TAKE takes an item of a Canopy-input lane (R209). -/
def Obligations.lanes_are_suspended_resumed_and_released : Prop :=
  (∀ (s : State) (f r : Nat) (d : Taken),
    Runnable f r 0x17 d s →
    s.laneState (dLane d.bytes) = 2 →
    (s.fget F.ADM_LANE_STATE_SUSP_REASONS (dLane d.bytes)).testBit 0 = false →
    Does (.suspend f r) s (fun t => Completed (ringKey f r) 0 s t ∧ t.laneState (dLane d.bytes) = 3 ∧ (t.fget F.ADM_LANE_STATE_SUSP_REASONS (dLane d.bytes)).testBit 0 = true)) ∧
  (∀ (s : State) (f r : Nat) (d : Taken),
    Runnable f r 0x18 d s →
    s.laneState (dLane d.bytes) = 3 →
    s.fget F.ADM_LANE_STATE_SUSP_REASONS (dLane d.bytes) = 1 →
    Does (.resume f r) s (fun t => Completed (ringKey f r) 0 s t ∧ t.laneState (dLane d.bytes) = 2 ∧ t.fget F.ADM_LANE_STATE_SUSP_REASONS (dLane d.bytes) = 0)) ∧
  (∀ (s : State) (f r : Nat) (d : Taken),
    Runnable f r 0x16 d s →
    s.laneUp (dLane d.bytes) = true →
    s.serialTurn d = true →
    (s.lane (dLane d.bytes)).ring = none →
    Does (.release f r) s (fun t => t.laneState (dLane d.bytes) = 4 ∧ (t.lane (dLane d.bytes)).waiter = some (ringKey f r, d.number) ∧ (t.lane (dLane d.bytes)).queue = [])) ∧
  (∀ (s : State) (l : Nat),
    s.laneState l = 4 →
    (s.lane l).switches = [] →
    s.items.all (fun p => p.2.lane != l) = true →
    s.model (s.lane l).context (s.lane l).model = none →
    Does (.releaseComplete l) s (fun t => t.laneState l = 0)) ∧
  (∀ (s : State) (f r : Nat) (d : Taken),
    Runnable f r 0x15 d s →
    544 ≤ dOutLen d.bytes →
    f ≤ 32 →
    Does (.admitLane f r none) s (fun t => Completed (ringKey f r) 0x64 s t ∧ t.lanes = s.lanes)) ∧
  (∀ (s : State) (f r : Nat) (d : Taken) (b : List Nat) (z : StageRec),
    Runnable f r 0x15 d s →
    f ≤ 32 →
    544 ≤ dOutLen d.bytes →
    b.length = 128 →
    b.all (fun v => decide (v < 256)) = true →
    contractOk b = true →
    s.ownerOf (contractLane b).context = s.ringFunc (ringKey f r) (contractLane b).context →
    (contractLane b).src = true →
    s.serialTurn d = true →
    s.laneState (b.getD 0 0) = 0 →
    (s.model (contractLane b).context (contractLane b).model).bind (fun (m : Model) => m.stage (contractLane b).last) = some z →
    z.last = false →
    z.nextDevice ≠ 255 →
    Does (.admitLane f r (some b)) s (fun t => (t.lane (b.getD 0 0)).asked = some (ringKey f r, d.number, b, s.ns) ∧
        (t.fab.canopy.getLast?).map (fun (p : Packet) => (p.typ, p.dev, p.dstStage, p.model, p.lane)) =
          some (PktType.binding, z.nextDevice, z.nextStage, (contractLane b).model, b.getD 0 0) ∧ t.laneState (b.getD 0 0) = 0)) ∧
  (∀ (s : State) (f r : Nat) (d : Taken) (b : List Nat) (z : StageRec),
    Runnable f r 0x15 d s →
    f ≤ 32 →
    544 ≤ dOutLen d.bytes →
    b.length = 128 →
    b.all (fun v => decide (v < 256)) = true →
    contractOk b = true →
    s.ownerOf (contractLane b).context = s.ringFunc (ringKey f r) (contractLane b).context →
    (contractLane b).field = false →
    (contractLane b).src = false →
    ringExists (s.ringFunc (ringKey f r) (contractLane b).context) (dArg0 d.bytes % 256) = true →
    s.bindable (ringKey (s.ringFunc (ringKey f r) (contractLane b).context) (dArg0 d.bytes % 256)) = true →
    s.serialTurn d = true →
    s.laneState (b.getD 0 0) = 0 →
    (s.model (contractLane b).context (contractLane b).model).bind (fun (m : Model) => m.stage (contractLane b).last) = some z →
    z.last = true →
    Does (.admitLane f r (some b)) s (fun t => (match (s.begun (ringKey f r) d.number).admission (b.getD 0 0) (contractLane b) false (dArg1 d.bytes, dArg0 d.bytes / 2 ^ 32) with
          | .inl _ => decide (t.laneState (b.getD 0 0) = 0 ∧ t.lanes = s.lanes)
          | .inr _ => decide (t.laneState (b.getD 0 0) = 1 ∧ (t.lane (b.getD 0 0)).waiter = some (ringKey f r, d.number) ∧
              (t.lane (b.getD 0 0)).model = (contractLane b).model)) = true)) ∧
  (∀ (s : State) (l : Nat) (p : Packet),
    (s.lane l).queue = [p] →
    (s.lane l).lastTake = none →
    s.serving = true →
    s.laneState l = 2 →
    s.ctxHeld (s.lane l).context = false →
    s.ctxsOf p.item = [] →
    s.canCreate = true →
    Does (.firstPacketTake l) s (fun t => (t.ctxOn p.item l).any (fun (q : Nat × ItemCtx) => q.2.state == .running && q.2.input) = true ∧ (t.lane l).queue = [] ∧ (t.lane l).lastTake = some s.ns))

/-! ### The field section -/

/-- The field controller holds nothing that outlives its reset. -/
abbrev FieldCleared (t : State) : Prop :=
  t.field.ready = false ∧ t.field.recs = [] ∧ t.field.outs = [] ∧ t.field.vt = [] ∧ t.field.nvWrites = [] ∧ t.bar.up = false

/-- FIELD_BROWNOUT, FRST_N_ASSERT and FIELD_WATCHDOG reset the field controller: its records, queues and verdict table are
lost, the link falls, and non-volatile values stay (R254, R255, R421); FIELD_BROWNOUT_END and FRST_N_RELEASE bring
back the supply and the pin, and LINK shows training where both sides then have power (log entry 141); FIELD_READY
raises FIELD_GEN and takes the reported encoder positions and trigger levels (R256, R265). -/
def Obligations.the_field_section_resets_and_becomes_ready : Prop :=
  (∀ (s : State),
    s.field.supply = true →
    Does (.fieldBrownout) s (fun t => t.field.supply = false ∧ t.field.brown = true ∧ FieldCleared t ∧ t.field.nv = s.field.nv)) ∧
  (∀ (s : State),
    s.field.supply = false →
    Does (.fieldBrownoutEnd) s (fun t => t.field = { s.field with supply := true } ∧
        t.fget F.FLD_GW_STATUS_LINK 0 = (if s.bar.up then s.fget F.FLD_GW_STATUS_LINK 0 else ofBool (s.power.slotPower && !s.field.frst)) ∧
        OnlyFields [(F.FLD_GW_STATUS_LINK, 0)] { s with field := t.field } t)) ∧
  (∀ (s : State),
    s.field.frst = false →
    Does (.frstNAssert) s (fun t => t.field.frst = true ∧ FieldCleared t ∧ t.field.nv = s.field.nv ∧ t.field.supply = s.field.supply)) ∧
  (∀ (s : State),
    s.field.frst = true →
    Does (.frstNRelease) s (fun t => t.field = { s.field with frst := false } ∧
        t.fget F.FLD_GW_STATUS_LINK 0 = (if s.bar.up then s.fget F.FLD_GW_STATUS_LINK 0 else ofBool (s.power.slotPower && s.field.supply)) ∧
        OnlyFields [(F.FLD_GW_STATUS_LINK, 0)] { s with field := t.field } t)) ∧
  (∀ (s : State),
    s.field.supply = true →
    s.field.frst = false →
    Does (.fieldWatchdog) s (fun t => FieldCleared t ∧ t.field.nv = s.field.nv ∧ t.field.supply = true ∧ t.field.frst = false)) ∧
  (∀ (s : State) (a b c d levels : Nat),
    s.field.supply = true →
    s.field.frst = false →
    s.field.ready = false →
    Does (.fieldReady [a, b, c, d] levels) s (fun t => t.field.ready = true ∧ t.fget F.FLD_STATUS_FIELD_GEN 0 = (s.loadNv.fget F.FLD_STATUS_FIELD_GEN 0 + 1) % 256 ∧
        t.fget F.FLD_STATUS_NV_VALID 0 = 1 ∧ t.fget F.FLD_TRIG_LEVEL_LEVEL 0 = levels % 65536 ∧
        (List.range 4).map t.encPos = [a % 2 ^ 32, b % 2 ^ 32, c % 2 ^ 32, d % 2 ^ 32] ∧ t.field.gpoPolicy = true ∧
        t.fget F.FLD_STATUS_STATE 0 = t.fieldMode ∧ (List.range 4).all (fun k => (t.ao k).policy) = true))

/-- TRIGGER_EDGE while the host is present gives the one lane that acts on it an item record with the next identifier, and
takes the trigger's level and the encoder positions (R268); ENCODER_FAULT sets the fault flags and counts it, and
ENCODER_FAULT_CLEAR removes the fault and takes the position (R264, R273). CUTOFF_REACHED without a verdict gives the
item the withheld code, its slot and a count (R269); REJECT_ON starts the entries whose on position less LEAD is
reached, and REJECT_OFF frees those whose off position is; MAX_ON_EXPIRY holds the output off while its command stands
(R270); RECORD_FREE frees the record of an item that is decided and passed (R268). -/
def Obligations.triggers_encoders_and_cutoffs : Prop :=
  (∀ (s : State) (trigger l a b c d : Nat) (rising : Bool),
    s.field.ready = true →
    s.field.hostHere = true →
    s.field.fw = .running →
    trigger < 16 →
    (List.range 64).filter (fun (x : Nat) => s.fLane x == 1 && s.lrByte x 0 % 16 == trigger && edgeOk (bits (s.lrByte x 0) 4 2) rising) = [l] →
    (s.field.recs.filter (fun r => r.item.isSome)).length < 65536 →
    s.bar.field.queue.length < 4096 →
    bit (s.lrByte l 0) 6 = false →
    Does (.triggerEdge trigger rising [a, b, c, d]) s (fun t => t.field.recs.getLast? = some { lane := l, n := Tab.getD s.field.counts l 0, pos := [a, b, c, d].getD (s.lrEnc l) 0 % 2 ^ 32, item := some (s.fget F.FLD_STATUS_FIELD_GEN 0 * 2 ^ 40 + s.field.next), hostGen := s.field.hostGen } ∧
        t.field.recs.length = s.field.recs.length + 1 ∧ t.field.next = (s.field.next + 1) % 2 ^ 40 ∧
        t.vtGet (s.vtSlot l (Tab.getD s.field.counts l 0)) = vtWord 0 false false false (Tab.getD s.field.counts l 0) ∧
        (bit (t.fget F.FLD_TRIG_LEVEL_LEVEL 0) trigger) = rising ∧ (List.range 4).map t.encPos = [a % 2 ^ 32, b % 2 ^ 32, c % 2 ^ 32, d % 2 ^ 32] ∧
        Counted C.FLD_CNT_ITEM 0 1 s t)) ∧
  (∀ (s : State) (e : Nat) (wire : Bool),
    s.field.ready = true →
    e < 4 →
    Does (.encoderFault e wire) s (fun t => t.encBad e = true ∧ t.fget F.FLD_ENC_STATUS_FAULT_SEEN e = 1 ∧ t.fget F.FLD_ENC_STATUS_WIRE e = ofBool wire ∧
        t.fget F.FLD_STATUS_ENC_FAULT_SEEN 0 = 1 ∧ Counted C.FLD_CNT_ENCERR 0 1 s t ∧ t.field.recs = s.field.recs)) ∧
  (∀ (s : State) (e pos : Nat),
    s.field.ready = true →
    s.encBad e = true →
    e < 4 →
    Does (.encoderFaultClear e pos) s (fun t => t.encBad e = false ∧ t.fget F.FLD_ENC_STATUS_WIRE e = 0 ∧ t.encPos e = pos % 2 ^ 32)) ∧
  (∀ (s : State) (l n pos id : Nat) (r : FieldRec),
    s.field.ready = true →
    s.field.recs = [r] →
    r.lane = l →
    r.n = n →
    r.code = none →
    r.item = some id →
    s.encBad (s.lrEnc l) = false →
    serialGe (pos % 2 ^ 32) (s.cutoff l r.pos) = true →
    Does (.cutoffReached l n pos) s (fun t => t.field.recs.map (fun (x : FieldRec) => (x.lane, x.n, x.item, x.code)) = [(l, n, some id, some (s.lrWithheld l))] ∧
        t.vtGet (s.vtSlot l n) = vtWord (s.lrWithheld l) true true false n % 65536 ∧ t.encPos (s.lrEnc l) = pos % 2 ^ 32 ∧
        Counted C.FLD_CNT_WITHHELD 0 1 s t)) ∧
  (∀ (s : State) (k e pos : Nat),
    s.field.ready = true →
    k < 8 →
    e < 4 →
    s.encBad e = false →
    Does (.rejectOn k e pos) s (fun t => (t.rej k).queue = (s.rej k).queue.map (fun (y : RejEntry) =>
          if y.enc = e ∧ serialGe (pos % 2 ^ 32) (lessLead y.on (s.lead k)) = true then { y with started := true } else y) ∧
        t.encPos e = pos % 2 ^ 32 ∧ (∀ j : Fin 8, j.val ≠ k → (t.rej j.val).queue = (s.rej j.val).queue))) ∧
  (∀ (s : State) (k e pos : Nat),
    s.field.ready = true →
    k < 8 →
    e < 4 →
    s.encBad e = false →
    Does (.rejectOff k e pos) s (fun t => (t.rej k).queue = ((s.rej k).queue.filter (fun (y : RejEntry) =>
            !(y.enc == e && serialGe (pos % 2 ^ 32) (lessLead y.off (s.lead k))))).map (fun (y : RejEntry) =>
          if y.enc = e ∧ serialGe (pos % 2 ^ 32) (lessLead y.on (s.lead k)) = true then { y with started := true } else y) ∧
        t.encPos e = pos % 2 ^ 32)) ∧
  (∀ (s : State) (k n m : Nat),
    k < 8 →
    s.fget F.FLD_REJ_CFG_MAX_ON_US k = m →
    m ≠ 0 →
    (s.rej k).since = some n →
    n + m * 1000 ≤ s.ns →
    Does (.maxOnExpiry k) s (fun t => (t.rej k).maxed = t.rejBase k ∧ t.fget F.FLD_REJ_STATUS_ON k = ofBool (t.rejLevel k) ∧ (t.rej k).queue = (s.rej k).queue)) ∧
  (∀ (s : State) (l n pos : Nat) (r : FieldRec),
    s.field.ready = true →
    s.field.recs.find? (fun (x : FieldRec) => x.lane == l && x.n == n) = some r →
    r.code.isSome = true →
    s.encBad (s.lrEnc l) = false →
    serialGe (pos % 2 ^ 32) (s.freeAt l r.pos) = true →
    Does (.recordFree l n pos) s (fun t => t.field.recs.any (fun (x : FieldRec) => x.lane == l && x.n == n) = false ∧ t.encPos (s.lrEnc l) = pos % 2 ^ 32 ∧ t.field.vt = s.field.vt))

/-- LANE_ENABLE turns on a lane that passes every check with its trigger count at 0, and names the first check that fails
otherwise; LANE_DISABLE drains it (R267). VP_WRITE_ACK and SPI_ACK clear VALID of an acknowledged slot and count every
other write, and SPI_READ sends ascending slots (R277, R278). PROXY_WRITE and PROXY_READ pass to the field section
over the link, a lost write is counted, and PROXY_READ_TIMEOUT answers 0; FLD_GW_COMMIT takes a legal timeout (R281). -/
def Obligations.field_lanes_and_the_verdict_port : Prop :=
  (∀ (s : State) (l : Nat),
    s.field.ready = true →
    s.field.fw = .running →
    l < 64 →
    s.fLane l = 0 →
    s.enableReason l = (0, 0) →
    Does (.laneEnable l) s (fun t => t.fLane l = 1 ∧ Tab.getD t.field.counts l 9 = 0 ∧ t.field.recs = s.field.recs)) ∧
  (∀ (s : State) (l r k : Nat),
    s.field.ready = true →
    s.field.fw = .running →
    l < 64 →
    s.fLane l = 0 →
    s.enableReason l = (r, k) →
    r ≠ 0 →
    Does (.laneEnable l) s (fun t => t.fLane l = 0 ∧ t.fget F.FLD_STATUS_LANE_REFUSED 0 = 1 ∧ t.fget F.FLD_LANE_STATUS_REASON l = r ∧
        (r = 5 → t.fget F.FLD_LANE_STATUS_OUTPUT l = k))) ∧
  (∀ (s : State) (l : Nat),
    s.field.ready = true →
    s.field.fw = .running →
    l < 64 →
    s.fLane l = 1 →
    Does (.laneDisable l) s (fun t => t.fLane l = (if s.field.recs.any (fun r => r.lane == l) then 2 else 0) ∧ t.field.recs = s.field.recs)) ∧
  (∀ (s : State) (slot v : Nat),
    s.field.ready = true →
    slot < 4096 →
    s.fLanes.any (fun l => bit (s.lrByte l 0) 6 && decide (s.lrNum l 4 2 ≤ slot) && decide (slot < s.lrNum l 4 2 + s.lrNum l 6 2)) = true →
    bit (s.vtGet slot) 5 = true →
    v % 65536 / 128 = s.vtGet slot / 128 →
    Does (.vpWriteAck slot v) s (fun t => t = s.vtSet slot (clrBit (s.vtGet slot) 5))) ∧
  (∀ (s : State) (slot v : Nat),
    s.field.ready = true →
    slot < 4096 →
    bit (s.vtGet slot) 5 = false →
    Does (.vpWriteAck slot v) s (fun t => Counted C.FLD_CNT_ACKBAD 0 1 s t ∧ t.field = s.field)) ∧
  (∀ (s : State) (slot count : Nat),
    s.field.ready = true →
    Does (.spiRead slot count) s (fun t => t = { s with out := s.out ++ [.spi ((List.range count).map (fun (i : Nat) => s.vtGet ((slot + i) % 4096)))] })) ∧
  (∀ (s : State) (slot v : Nat),
    s.field.ready = true →
    slot < 4096 →
    s.fLanes.any (fun l => bit (s.lrByte l 0) 6 && decide (s.lrNum l 4 2 ≤ slot) && decide (slot < s.lrNum l 4 2 + s.lrNum l 6 2)) = true →
    bit (s.vtGet slot) 5 = true →
    v % 65536 / 128 = s.vtGet slot / 128 →
    Does (.spiAck slot [v]) s (fun t => t = s.vtSet slot (clrBit (s.vtGet slot) 5))) ∧
  (∀ (s : State) (a : Access) (v : Nat),
    s.power.slotPower = true →
    proxied a true = true →
    s.bar.up = true →
    s.bar.fieldHere = true →
    0xD10050 ≤ a.off →
    Does (.proxyWrite a v) s (fun t => t.bar.host.queue = s.bar.host.queue ++ [slice ([8, 0] ++ bytesOf 2 (a.off - 0xD10000) ++ bytesOf 4 (v % 2 ^ 32)) 0 16] ∧
        Tab.getD t.bar.copies (a.off - 0xD10000 + 0x10000) 0 = v % 2 ^ 32 ∧ t = { s with bar := t.bar })) ∧
  (∀ (s : State) (a : Access) (v : Nat),
    s.power.slotPower = true →
    proxied a true = true →
    s.bar.up = false →
    Does (.proxyWrite a v) s (fun t => t.fget F.FLD_GW_STATUS_WRITE_LOST 0 = 1 ∧ t.bar.lostWrite = true ∧ Counted C.FLD_GW_CNT_WLOST 0 1 s t ∧ t.bar.host = s.bar.host)) ∧
  (∀ (s : State) (a : Access),
    s.power.slotPower = true →
    proxied a false = true →
    s.bar.up = true →
    s.bar.fieldHere = true →
    s.bar.lostWrite = false →
    Does (.proxyRead a) s (fun t => t.bar.proxy.map (fun (p : ProxyRead) => (p.addr, p.tag, p.since, p.more)) =
          s.bar.proxy.map (fun (p : ProxyRead) => (p.addr, p.tag, p.since, p.more)) ++ [(a.off - 0xD10000, s.bar.proxyTag, s.ns, 0)] ∧
        t.bar.host.queue.length = s.bar.host.queue.length + 1 ∧ t = { s with bar := t.bar })) ∧
  (∀ (s : State) (p : ProxyRead),
    s.bar.proxy = [p] →
    p.since + 5000 ≤ s.ns →
    p.sess = none →
    p.more = 0 →
    Does (.proxyReadTimeout) s (fun t => t.readData = [0] ∧ t.bar.proxy = [] ∧ t.fget F.FLD_GW_STATUS_PROXY_TIMEOUT 0 = 1)) ∧
  (∀ (s : State) (v : Nat),
    s.staging F.FLD_GW_CFG_FIELD_TO 0 = v →
    2 ≤ v →
    v ≤ 1000 →
    Does (.fldGwCommit) s (fun t => t.fget F.FLD_GW_CFG_FIELD_TO 0 = v ∧ OnlyFields [(F.FLD_GW_CFG_FIELD_TO, 0)] s t))

/-! ### The analogue blocks -/

/-- FADC_START starts both loops at their first entries or names why not, and FADC_STOP ends them (R289); ENTRY_RESULT
writes the rounded mean of its conversions with its flags (R288); FADC_CAL takes 12.8 ms while the sequencer is
stopped, FADC_CAL_DONE keeps the old factors where a pair is out of bounds, and CAL_STORE starts the non-volatile
write (R292); FADC_COMMIT takes legal bounds and ignores others whole (R290); MONITOR_REPORT is sent while the host is
present (R291). -/
def Obligations.the_field_sequencer_runs_and_calibrates : Prop :=
  (∀ (s : State) (cal : Bool),
    s.field.ready = true →
    s.adcReason cal = 0 →
    Does (.fadcStart cal) s (fun t => t.fget F.FADC_STATUS_STATE 0 = 1 ∧ t.field.loopA = some 0 ∧ t.field.loopB = (if s.adcDual then some s.adcSplit else none) ∧
        t.field.disarmed = [] ∧ (List.range 64).all (fun n => t.fget F.FADC_RES_VALID n == 0) = true)) ∧
  (∀ (s : State) (cal : Bool) (r : Nat),
    s.field.ready = true →
    s.adcReason cal = r →
    r ≠ 0 →
    Does (.fadcStart cal) s (fun t => t.fget F.FADC_STATUS_START_REFUSED 0 = 1 ∧ t.fget F.FADC_STATUS_REASON 0 = r ∧
        t.fget F.FADC_STATUS_STATE 0 = s.fget F.FADC_STATUS_STATE 0 ∧ t.field.loopA = s.field.loopA ∧ t.field.loopB = s.field.loopB)) ∧
  (∀ (s : State),
    s.field.ready = true →
    s.fget F.FADC_STATUS_STATE 0 = 1 →
    Does (.fadcStop) s (fun t => t.fget F.FADC_STATUS_STATE 0 = 0 ∧ t.field.loopA = none ∧ t.field.loopB = none ∧ FieldsBut [(F.FADC_STATUS_STATE, 0)] s t)) ∧
  (∀ (s : State) (n : Nat) (raw : List Int),
    s.fget F.FADC_STATUS_STATE 0 = 1 →
    s.field.loopA = some n →
    s.field.loopB = none →
    n < 64 →
    raw.length = s.entBits n 12 8 + 1 →
    raw.all (fun r => decide (-131072 ≤ r) && decide (r ≤ 131071)) = true →
    Does (.entryResult n raw) s (fun t => t.fget F.FADC_RES_VALUE n = toBits 18 (roundHalfEven ((s.entCodes n raw).foldl (fun a b => a + b) 0) raw.length) ∧
        t.fget F.FADC_RES_SAT n = ofBool (raw.any rawSat) ∧ t.fget F.FADC_RES_VALID n = 1 ∧
        t.fget F.FADC_RES_LOOP n = s.fget F.FADC_LOOP_LOOP_A 0 % 256 ∧ t.field.loopA = some (nextEntry s.loopAEnts n).1)) ∧
  (∀ (s : State),
    s.field.ready = true →
    s.fget F.FADC_STATUS_STATE 0 = 0 →
    Does (.fadcCal) s (fun t => t.fget F.FADC_STATUS_STATE 0 = 2 ∧ t.field.calStart = some s.ns ∧ OnlyFields [(F.FADC_STATUS_STATE, 0)] { s with field := t.field } t)) ∧
  (∀ (s : State),
    s.field.ready = true →
    s.fget F.FADC_STATUS_STATE 0 ≠ 0 →
    Does (.fadcCal) s (fun t => t.fget F.FADC_STATUS_REFUSED_WRITE 0 = 1 ∧ t.fget F.FLD_STATUS_REFUSED_WRITE 0 = 1 ∧ t.field.calStart = s.field.calStart ∧
        t.fget F.FADC_STATUS_STATE 0 = s.fget F.FADC_STATUS_STATE 0)) ∧
  (∀ (s : State) (b : Nat) (sums : List (Int × Int × Int × Int)),
    s.field.calStart = some b →
    b + 12800000 ≤ s.ns →
    sums.length = 12 →
    sums.all calPairOk = false →
    Does (.fadcCalDone sums) s (fun t => t.fget F.FADC_STATUS_STATE 0 = 0 ∧ t.fget F.FADC_STATUS_CAL_FAIL 0 = 1 ∧ t.field.calStart = none ∧
        (List.range 16).all (fun i => t.fget F.FADC_CALF_OFS_OFFSET i == s.fget F.FADC_CALF_OFS_OFFSET i
          && t.fget F.FADC_CALF_GAIN_GAIN i == s.fget F.FADC_CALF_GAIN_GAIN i) = true)) ∧
  (∀ (s : State) (b : Nat) (sums : List (Int × Int × Int × Int)),
    s.field.calStart = some b →
    b + 12800000 ≤ s.ns →
    sums.length = 12 →
    sums.all calPairOk = true →
    Does (.fadcCalDone sums) s (fun t => t.fget F.FADC_STATUS_STATE 0 = 0 ∧ t.fget F.FADC_STATUS_CAL_FAIL 0 = s.fget F.FADC_STATUS_CAL_FAIL 0 ∧ t.field.calStart = none ∧
        t.free = s.free + 24 ∧ t.fget F.FADC_CALF_OFS_OFFSET 0 = toBits 20 (openRound s.free ((sums.getD 0 (0, 0, 0, 0)).1 + (sums.getD 0 (0, 0, 0, 0)).2.2.2) 128) % 2 ^ 20)) ∧
  (∀ (s : State),
    s.field.ready = true →
    Does (.calStore) s (fun t => t.fget F.FADC_STATUS_NV_BUSY 0 = 1 ∧ t.field.nvWrites.length = s.field.nvWrites.length + 1 ∧ OnlyFields [(F.FADC_STATUS_NV_BUSY, 0)] { s with field := t.field } t)) ∧
  (∀ (s : State),
    s.field.ready = true →
    s.field.fw = .running →
    s.boundsOk = true →
    Does (.fadcCommit) s (fun t => (List.range 64).all (fun n => [F.FADC_ENT_WLO_BOUND, F.FADC_ENT_WHI_BOUND, F.FADC_ENT_HYST_HYST].all (fun f => t.fget f n == s.staging f n % 2 ^ f.width)) = true ∧
        t = { s with fields := t.fields })) ∧
  (∀ (s : State),
    s.field.ready = true →
    s.field.fw = .running →
    s.boundsOk = false →
    Does (.fadcCommit) s (fun t => t = s.flag F.FADC_STATUS_CFG_INVALID 0)) ∧
  (∀ (s : State) (temp : Int) (supply rail : Nat),
    s.field.ready = true →
    s.field.hostHere = true →
    s.bar.field.queue.length < 4096 →
    Does (.monitorReport temp supply rail) s (fun t => t.bar.field.queue = s.bar.field.queue ++ [slice ([5, 1] ++ bytesOf 2 (toBits 16 temp) ++ bytesOf 2 supply ++ bytesOf 2 rail) 0 16] ∧ t = { s with bar := t.bar }))

/-- FDAC_SET puts a code in waiting, and UPDATE_APPLY puts it in force 1 µs after the last one (R294); DEGLITCH_HOLD_END
ends a hold (R295); FDAC_COMMIT, SPAN_SWITCH and SPAN_CHANGE_END run the span change (R296); OPEN_LOOP and
OPEN_LOOP_CLEAR set and clear the flag (R298); FLD_COMMIT applies its staged policy, and NV_WRITE_DONE makes a write's
values the ones kept (R282, R297). -/
def Obligations.the_analogue_outputs : Prop :=
  (∀ (s : State) (code : Nat),
    s.field.ready = true →
    s.field.hostHere = true →
    Does (.fdacSet code) s (fun t => (t.ao (s.fget F.FDAC_SEL_OUTPUT 0)).waiting = some (code % 65536) ∧
        t.fget F.FDAC_OUT_CODE (s.fget F.FDAC_SEL_OUTPUT 0) = s.fget F.FDAC_OUT_CODE (s.fget F.FDAC_SEL_OUTPUT 0) ∧
        ((s.ao (s.fget F.FDAC_SEL_OUTPUT 0)).waiting.isSome = true → Counted C.FDAC_CNT_COALESCE 0 1 s t))) ∧
  (∀ (s : State) (k c : Nat) (x : AnaOut),
    k < 4 →
    s.field.ready = true →
    s.ao k = x →
    x.hold = none →
    x.change = none →
    x.waiting = some c →
    c < 65536 →
    x.last.all (fun t => decide (t + 1000 ≤ s.ns)) = true →
    Does (.updateApply k) s (fun t => t.fget F.FDAC_OUT_CODE k = c ∧ (t.ao k).waiting = none ∧ (t.ao k).last = some s.ns)) ∧
  (∀ (s : State) (k e : Nat),
    (s.ao k).hold = some e →
    e ≤ s.ns →
    Does (.deglitchHoldEnd k) s (fun t => (t.ao k).hold = none ∧ t.fget F.FDAC_OUT_STATE k = (if s.fget F.FDAC_OUT_STATE k = 2 then 1 else s.fget F.FDAC_OUT_STATE k))) ∧
  (∀ (s : State) (nv : Bool),
    s.field.ready = true →
    s.field.fw = .running →
    (List.range 4).any (fun k => [5, 6].contains (s.staging F.FDAC_CFG_SPAN k)) = false →
    Does (.fdacCommit nv) s (fun t => (List.range 4).all (fun k => [F.FDAC_CFG_SPAN, F.FDAC_CFG_DEGLITCH, F.FDAC_POL_ACTION, F.FDAC_POL_CODE].all (fun f => t.fget f k == s.staging f k % 2 ^ f.width)
          && ((s.ao k).change.isNone && !(s.ao k).queued.isEmpty || (t.ao k).target == s.staging F.FDAC_CFG_SPAN k % 8)) = true)) ∧
  (∀ (s : State) (nv : Bool),
    s.field.ready = true →
    s.field.fw = .running →
    (List.range 4).any (fun k => [5, 6].contains (s.staging F.FDAC_CFG_SPAN k)) = true →
    Does (.fdacCommit nv) s (fun t => t = s.flag F.FDAC_STATUS_CFG_INVALID 0)) ∧
  (∀ (s : State) (k b n : Nat),
    (s.ao k).change = some (b, n, false) →
    b + 25000 ≤ s.ns →
    n ≠ 7 →
    Does (.spanSwitch k) s (fun t => (t.ao k).span = n ∧ (t.ao k).change = some (b, n, true) ∧ t.fget F.FDAC_OUT_CODE k = safeCode n % 65536)) ∧
  (∀ (s : State) (k b n : Nat),
    (s.ao k).change = some (b, n, true) →
    b + 50000 ≤ s.ns →
    (s.ao k).queued = [] →
    (s.ao k).policy = false →
    (s.ao k).waiting = none →
    Does (.spanChangeEnd k) s (fun t => (t.ao k).change = none ∧ t.fget F.FDAC_OUT_STATE k = 1 ∧ t.fget F.FDAC_OUT_CODE k = s.fget F.FDAC_OUT_CODE k)) ∧
  (∀ (s : State) (k : Nat),
    k < 4 →
    s.field.ready = true →
    (s.ao k).span = 4 →
    s.fget F.FDAC_OUT_STATE k ≠ 0 →
    s.fon F.FDAC_OUT_OPEN_LOOP k = false →
    Does (.openLoop k) s (fun t => t.fget F.FDAC_OUT_OPEN_LOOP k = 1 ∧ t.fget F.FDAC_STATUS_OPEN_LOOP_SEEN 0 = 1 ∧ Counted C.FDAC_CNT_OPENLOOP 0 1 s t ∧ t.field.aos = s.field.aos)) ∧
  (∀ (s : State) (k : Nat),
    k < 4 →
    Does (.openLoopClear k) s (fun t => t.fget F.FDAC_OUT_OPEN_LOOP k = 0 ∧ OnlyFields [(F.FDAC_OUT_OPEN_LOOP, k)] s t)) ∧
  (∀ (s : State) (nv : Bool),
    s.field.ready = true →
    s.field.fw = .running →
    2 ≤ s.staging F.FLD_HOST_TO_TO 0 →
    s.staging F.FLD_HOST_TO_TO 0 ≤ 1000 →
    (rangeFrom 8 16).any (fun k => s.staging F.FLD_POL_ACTION k == 3) = false →
    Does (.fldCommit nv) s (fun t => t.fget F.FLD_HOST_TO_TO 0 = s.staging F.FLD_HOST_TO_TO 0 ∧ t.fget F.FLD_GPO_SRC_SRC 0 = s.staging F.FLD_GPO_SRC_SRC 0 % 2 ^ 32 ∧
        (List.range 24).all (fun k => [F.FLD_POL_ACTION, F.FLD_POL_LEVEL].all (fun f => t.fget f k == s.staging f k % 2 ^ f.width)) = true ∧
        (nv = true → t.fget F.FLD_STATUS_NV_VALID 0 = 0))) ∧
  (∀ (s : State) (kind : Nat) (v : Tab Nat),
    s.field.nvWrites = [(kind, v)] →
    Does (.nvWriteDone kind) s (fun t => t.field.nvWrites = [] ∧ (kind = 1 → t.fget F.FDAC_STATUS_NV_BUSY 0 = 0) ∧ (kind = 0 → t.fget F.FLD_STATUS_NV_VALID 0 = 1) ∧
        (kind = 2 → t.fget F.FADC_STATUS_NV_BUSY 0 = 0) ∧
        (v ≠ [] → (Tab.find t.field.nv (v.getLastD (0, 0)).1).isSome = true)))

/-- HK_ENTRY_RESULT writes each channel's mean code and moves its loop on (R299); HK_COMMIT takes legal bounds and ignores
others whole (R303); HK_AOSP_SEND sends the masked codes of the setpoint registers (R294); FIELD_TEMP_LOST marks
channel 127 invalid 10 ms after the last report (R301). -/
def Obligations.the_housekeeping_monitor : Prop :=
  (∀ (s : State) (n x mw : Nat),
    s.power.slotPower = true →
    s.power.trip = false →
    s.hk.loopA = n →
    s.hkCount n = 1 →
    s.hkRepeat n = 1 →
    x < 4096 →
    s.hkEnd 0 ≠ n →
    s.hkFirst n < 64 →
    Does (.hkEntryResult n [[x]] mw) s (fun t => t.fget F.HK_CH_DATA_RAW (s.hkFirst n) = x ∧ t.fget F.HK_CH_DATA_VALID (s.hkFirst n) = 1 ∧
        t.fget F.HK_CH_DATA_VALUE (s.hkFirst n) = toBits 16 (Config.housekeepingScale (s.hkFirst n) x) ∧
        t.hk.loopA = n + 1 ∧ t.hk.fresh = s.ns)) ∧
  (∀ (s : State),
    (List.range 128).all (fun (ch : Nat) =>
          decide (sext 16 (s.staging F.HK_WLO_BOUND ch) ≤ sext 16 (s.staging F.HK_WHI_BOUND ch)) &&
          decide (2 * (s.staging F.HK_HYST_HYST ch : Int) ≤ sext 16 (s.staging F.HK_WHI_BOUND ch) - sext 16 (s.staging F.HK_WLO_BOUND ch))) = true →
    Does (.hkCommit) s (fun t => (List.range 128).all (fun ch => [F.HK_WLO_BOUND, F.HK_WHI_BOUND, F.HK_HYST_HYST].all (fun f => t.fget f ch == s.staging f ch % 2 ^ f.width)) = true ∧
        t = { s with fields := t.fields })) ∧
  (∀ (s : State) (ch : Nat),
    ch < 128 →
    sext 16 (s.staging F.HK_WHI_BOUND ch) < sext 16 (s.staging F.HK_WLO_BOUND ch) →
    Does (.hkCommit) s (fun t => t = s.flag F.HK_STATUS_CFG_INVALID 0)) ∧
  (∀ (s : State) (mask : Nat),
    s.hk.aosp = none →
    s.hk.aospLast = none →
    mask < 16 →
    Does (.hkAospSend mask) s (fun t => t.bar.host.queue = s.bar.host.queue ++ [slice ([4, 1, mask, 0] ++
          (s.aospCodes.zipIdx.map (fun (x : Nat × Nat) => if mask.testBit x.2 then x.1 else 0)).flatMap (bytesOf 2)) 0 16] ∧
        t.hk.aospLast = some s.ns ∧ t.hk.aosp = none ∧ t = { s with bar := t.bar, hk := t.hk })) ∧
  (∀ (s : State),
    s.power.slotPower = true →
    s.fget F.HK_STATUS_FIELD_TEMP_LOST 0 = 0 →
    s.hk.monitor.getD s.bootNs + 10000000 ≤ s.ns →
    Does (.fieldTempLost) s (fun t => t.fget F.HK_STATUS_FIELD_TEMP_LOST 0 = 1 ∧ t.fget F.HK_CH_DATA_VALID 127 = 0 ∧
        t.fget F.MGT_EVT_HEAD_NEXT 0 = (s.fget F.MGT_EVT_HEAD_NEXT 0 + 1) % 2 ^ 32))

/-! ### Canopy and the sync counters -/

/-- What decides a KEY_CONFIRM (R384): the chain, the signature, the generations and the peer policy. -/
abbrev keysOk (s : State) (m o : KeyOffer) (sig : List Nat) : Bool :=
  Config.chainValid o.chain rootKey && Config.ed448Verify (Config.chainKey o.chain) (offersDigest m o) sig && m.gen == o.gen
    && (!s.fon F.KEEP_CONF_CFG_CNP_POLICY 0 || s.mgmt.peers.contains (Config.chainSerial o.chain))

/-- CNP_START trains every used port or names why not, and CNP_STOP takes every port down (R331); PORT_TRAINED sends INIT,
and INIT_FRAME goes on to keying or fences with the first case of Table 13.1 (R308); KEY_OFFER answers with this end's
signature, KEY_CONFIRM keys the port or fences it with reason 5, and KEY_RENEWAL offers the next key (R313, R384);
PORT_DOWN discards buffers and key (R314); FENCE_RETRY trains again after 1 s; MODULE_FAULT fences both ports of a
cage (R451); CNP_COMMIT takes legal values and ignores others whole. -/
def Obligations.canopy_ports_train_key_and_fence : Prop :=
  (∀ (s : State),
    s.cnpStartReason = 0 →
    Does (.cnpStart) s (fun t => t.cnp.running = true ∧ (List.range 6).map t.port = (List.range 6).map (fun (p : Nat) =>
          if !portUsed s.dims p then 5 else if s.cnp.faulty.contains (p / 2) then 4
          else if s.port p = 3 || s.port p = 2 then s.port p else 1))) ∧
  (∀ (s : State) (r : Nat),
    s.cnpStartReason = r →
    r ≠ 0 →
    Does (.cnpStart) s (fun t => t.fget F.CNP_STATUS_START_REFUSED 0 = 1 ∧ t.fget F.CNP_STATUS_REASON 0 = r ∧ t.cnp = s.cnp)) ∧
  (∀ (s : State),
    Does (.cnpStop) s (fun t => t.cnp.running = false ∧ (List.range 6).map t.port = (List.range 6).map (fun (p : Nat) => if s.port p = 5 then 5 else 0))) ∧
  (∀ (s : State) (p : Nat),
    p < 6 →
    s.port p = 1 →
    (s.cport p).trained = false →
    Does (.portTrained p) s (fun t => (t.cport p).trained = true ∧ t.out = s.out ++ [.canopy p 2 (s.initBytes p [])] ∧ t = { s with cnp := t.cnp, out := t.out })) ∧
  (∀ (s : State) (p : Nat) (i : InitInfo),
    p < 6 →
    s.port p = 1 →
    (s.cport p).trained = true →
    s.initReason p i = 0 →
    Does (.initFrame p i) s (fun t => t.port p = 2 ∧ t.fget F.CNP_PORT_PEER_VALID p = 1 ∧ t.fget F.CNP_PORT_PEER_DEVICE p = i.device % 2 ^ F.CNP_PORT_PEER_DEVICE.width ∧
        t.fget F.CNP_PORT_DELAY_RTT_NS p = i.rttNs % 2 ^ F.CNP_PORT_DELAY_RTT_NS.width ∧
        (t.cport p).credit = (List.range 6).map (fun (k : Nat) => (k, i.credits.getD k 0)) ∧ (t.cport p).mine.map (fun (o : KeyOffer) => (o.port, o.gen)) = some (p, 0) ∧
        t.free = s.free + 33)) ∧
  (∀ (s : State) (p r : Nat) (i : InitInfo),
    p < 6 →
    s.port p = 1 →
    (s.cport p).trained = true →
    s.initReason p i = r →
    r ≠ 0 →
    Does (.initFrame p i) s (fun t => t.port p = 4 ∧ t.fget F.CNP_PORT_STATUS_FENCE p = r ∧ t.fget F.CNP_STATUS_FENCE_SEEN 0 = 1 ∧ (t.cport p).fencedNs = s.ns)) ∧
  (∀ (s : State) (p : Nat) (m o : KeyOffer),
    p < 6 →
    s.port p = 2 →
    (s.cport p).mine = some m →
    Does (.keyOffer p o) s (fun t => (t.cport p).mine = some m ∧ (t.cport p).theirs = some o ∧
        t.out = s.out ++ [.canopy p 4 (Config.ed448Sign s.keep.ak (offersDigest m o))] ∧ t = { s with cnp := t.cnp, out := t.out })) ∧
  (∀ (s : State) (p : Nat) (m o : KeyOffer) (sig : List Nat),
    p < 6 →
    s.port p = 2 →
    (s.cport p).mine = some m →
    (s.cport p).theirs = some o →
    Does (.keyConfirm p sig) s (fun t => (keysOk s m o sig = true → t.port p = 3 ∧ (t.cport p).key = some (linkKeys (s.cport p).secret m o (offersDigest m o)) ∧
          (t.cport p).secret = 0 ∧ (t.cport p).mine = none ∧ (t.cport p).theirs = none) ∧
        (keysOk s m o sig = false → t.port p = 4 ∧ t.fget F.CNP_PORT_STATUS_FENCE p = 5 ∧ (t.cport p).key = none))) ∧
  (∀ (s : State) (p : Nat) (k : LinkKey),
    p < 6 →
    s.port p = 3 →
    (s.cport p).key = some k →
    (s.cport p).mine = none →
    (s.cport p).keyedNs + 3600000000000 ≤ s.ns →
    Does (.keyRenewal p) s (fun t => (t.cport p).mine.map (fun (o : KeyOffer) => (o.device, o.port, o.gen)) = some (s.me, p, k.gen + 1) ∧ (t.cport p).key = some k ∧
        t.port p = 3 ∧ t = { s with cnp := t.cnp, out := t.out, free := s.free + 33 })) ∧
  (∀ (s : State) (p : Nat),
    p < 6 →
    s.port p = 4 →
    s.cnp.running = true →
    (s.cport p).fencedNs + 1000000000 ≤ s.ns →
    portUsed s.dims p = true →
    s.cnp.faulty.contains (p / 2) = false →
    Does (.fenceRetry p) s (fun t => t.port p = 1 ∧ t.fget F.CNP_PORT_STATUS_FENCE p = 0 ∧ (t.cport p).key = none)) ∧
  (∀ (s : State) (p : Nat),
    p < 6 →
    s.port p = 3 →
    Does (.portDown p) s (fun t => t.port p = (if s.cnp.running then 1 else 0) ∧ (t.cport p).key = none ∧ (t.cport p).unacked = [] ∧ (t.cport p).queues = [] ∧
        t.fget F.CNP_PORT_PEER_VALID p = 0)) ∧
  (∀ (s : State) (cage : Nat),
    cage < 3 →
    Does (.moduleFault cage true) s (fun t => t.cnp.faulty.contains cage = true ∧ [2 * cage, 2 * cage + 1].all (fun (p : Nat) =>
          if s.port p = 5 || s.port p = 0 then t.port p == s.port p else t.port p == 4 && t.fget F.CNP_PORT_STATUS_FENCE p == 6) = true)) ∧
  (∀ (s : State) (cage : Nat),
    cage < 3 →
    Does (.moduleFault cage false) s (fun t => t = { s with cnp := { s.cnp with faulty := s.cnp.faulty.filter (fun (c : Nat) => c != cage) } })) ∧
  (∀ (s : State) (a r d : Nat),
    s.staging F.CNP_CFG_ACK_TO_NS 0 = a →
    s.staging F.CNP_CFG_RECEIPT_TO_US 0 = r →
    s.staging F.CNP_DIGEST_CFG_PERIOD_MS 0 = d →
    1000 ≤ a ∧ a ≤ 10000 ∧ 4 ≤ r ∧ r ≤ 100 ∧ 10 ≤ d ∧ d ≤ 10000 →
    Does (.cnpCommit) s (fun t => t.fget F.CNP_CFG_ACK_TO_NS 0 = a ∧ t.fget F.CNP_CFG_RECEIPT_TO_US 0 = r ∧ t.fget F.CNP_DIGEST_CFG_PERIOD_MS 0 = d ∧ t = { s with fields := t.fields })) ∧
  (∀ (s : State),
    s.staging F.CNP_CFG_RECEIPT_TO_US 0 < 4 →
    Does (.cnpCommit) s (fun t => t.fget F.CNP_STATUS_CFG_INVALID 0 = 1 ∧ t.fget F.CNP_CFG_RECEIPT_TO_US 0 = s.fget F.CNP_CFG_RECEIPT_TO_US 0))

/-- CNP_FRAME_RX counts a frame with a bad CRC and asks for it again, and accepts an authentic data frame that is next in
order (R312, R313); CNP_ACK_TIMEOUT sends the unacknowledged frames again; CNP_RECEIPT_TIMEOUT sends a kept packet
once more (R317); MODEL_DIGEST_TIMER and MODEL_DIGEST_PACKET exchange digests, and a difference starts verification
(R329); CNP_RETRACTION is applied once (R330, R356). -/
def Obligations.canopy_frames_and_receipts : Prop :=
  (∀ (s : State) (p : Nat) (b : List Nat),
    p < 6 →
    s.port p = 3 →
    b.length = 300 →
    b.all (fun v => decide (v < 256)) = true →
    b.getD 6 0 % 4 ≠ 2 →
    crc32 (slice b 0 296) ≠ leAt b 296 4 →
    (s.cport p).bad < 63 →
    Does (.cnpFrameRx p b) s (fun t => Counted C.CNP_CNT_CRC 0 1 s t ∧ (t.cport p).bad = (s.cport p).bad + 1 ∧ (t.cport p).received = (s.cport p).received ∧
        ((s.cport p).gap = false → (t.cport p).nak = true) ∧ t.fab = s.fab)) ∧
  (∀ (s : State) (p : Nat) (b : List Nat) (k : LinkKey),
    p < 6 →
    s.port p = 3 →
    b.length = 300 →
    b.all (fun v => decide (v < 256)) = true →
    b.getD 6 0 = 1 →
    crc32 (slice b 0 296) = leAt b 296 4 →
    (s.cport p).keyFor 0 = some k →
    leAt b 0 3 = (s.cport p).received →
    (s.cport p).received < 2 ^ 24 →
    (s.cport p).bad < 63 →
    (s.cport p).authFails = [] →
    Does (.cnpFrameRx p b) s (fun t => ((Config.gcmOpen k.rx (frameNonce k.rxSalt (s.cport p).received) (slice b 0 16) (slice b 16 280)).elim
          (decide ((t.cport p).received = (s.cport p).received) && decide ((t.cport p).authFails = [s.ns]))
          (fun (x : List Nat) => if parityWord (slice x 0 256) = leAt x 256 8 then decide ((t.cport p).received = (s.cport p).received + 1) && decide ((t.cport p).bad = 0)
            else decide ((t.cport p).received = (s.cport p).received) && decide ((t.cport p).bad = (s.cport p).bad + 1))) = true)) ∧
  (∀ (s : State) (p : Nat),
    p < 6 →
    s.port p = 3 →
    (s.cport p).unacked ≠ [] →
    (s.cport p).ackNs + s.fget F.CNP_CFG_ACK_TO_NS 0 ≤ s.ns →
    Does (.cnpAckTimeout p) s (fun t => t.out = s.out ++ (s.cport p).unacked.map (fun (f : Nat × List Nat) => .canopy p 1 f.2) ∧ (t.cport p).unacked = (s.cport p).unacked ∧
        (t.cport p).ackNs = s.ns ∧ Counted C.CNP_CNT_RETX 0 (s.cport p).unacked.length s t)) ∧
  (∀ (s : State) (k : Nat) (q : Packet),
    s.fab.held.find? (fun x => x.key == k) = some q →
    q.remote = true →
    q.sentNs + s.fget F.CNP_CFG_RECEIPT_TO_US 0 * 1000 ≤ s.ns →
    q.retx = false →
    Does (.cnpReceiptTimeout k) s (fun t => t.fab.canopy = s.fab.canopy.filter (fun (x : Packet) => x.key != k) ++ [{ q with retx := true, sentNs := s.ns }] ∧ t = { s with fab := t.fab } ∧
        t.fab.held.length = s.fab.held.length)) ∧
  (∀ (s : State) (k : Nat) (p : Packet),
    s.packet k = some p →
    p.typ = .retraction →
    s.behindSends p = false →
    (Tab.find s.rel.applied (p.payload.getD 4 0 * 2 ^ 32 + leAt p.payload 0 4)).isSome = true →
    Does (.cnpRetraction k) s (fun t => t = (s.unpost k).receipt p false)) ∧
  (∀ (s : State) (k : Nat) (p : Packet),
    s.packet k = some p →
    p.typ = .retraction →
    s.behindSends p = false →
    Tab.find s.rel.applied (p.payload.getD 4 0 * 2 ^ 32 + leAt p.payload 0 4) = none →
    Does (.cnpRetraction k) s (fun t => Tab.find t.rel.applied (p.payload.getD 4 0 * 2 ^ 32 + leAt p.payload 0 4) = some 1)) ∧
  (∀ (s : State) (k : Nat) (p : Packet) (m : Model),
    s.packet k = some p →
    p.typ = .digest →
    s.mgmt.down = false →
    s.models.find? (fun (x : Model) => x.id == p.model && x.gen == leAt p.payload 0 4 && !x.digest.isEmpty) = some m →
    Does (.modelDigestPacket k) s (fun t => (m.digest = slice p.payload 64 64 → t = s.unpost k) ∧
        (m.digest ≠ slice p.payload 64 64 → t.fget F.CNP_STATUS_DIGEST_DIFF_SEEN 0 = 1 ∧ (t.model m.context m.id).map (fun (x : Model) => x.verifying) = some true))) ∧
  (∀ (s : State) (m : Model),
    s.mgmt.down = false →
    s.fget F.CNP_DIGEST_CFG_EN 0 = 1 →
    s.cnp.digestNs + s.fget F.CNP_DIGEST_CFG_PERIOD_MS 0 * 1000000 ≤ s.ns →
    s.models = [m] →
    m.digest ≠ [] →
    Does (.modelDigestTimer) s (fun t => t.cnp.digestNs = s.ns ∧ t.fab.canopy.length = s.fab.canopy.length +
          ((List.range 128).filter (fun (d : Nat) => d != s.me && bit (s.fget F.CNP_DIGEST_PEERS_MASK (d / 32)) (d % 32))).length ∧
        t = { s with cnp := t.cnp, fab := t.fab }))

/-- BINDING_QUERY binds the lowest admitted lane that fits and replies, BINDING_REPLY records a peer's stage,
BINDING_TIMEOUT refuses the lane after 100 µs, ITEM_CREDIT adds a credit, and BINDING_END reports the broken lane
(R318). ADD adds once and saturates (R325, R326), CLAIM subtracts when the counter can meet it and waits otherwise,
WAIT_GE answers once the counter has reached its value, and PEEK answers at once (R324). -/
def Obligations.canopy_bindings_and_sync_counters : Prop :=
  (∀ (s : State) (k l : Nat) (p : Packet),
    s.packet k = some p →
    p.bindCode = 1 →
    (List.range 64).find? (fun (l : Nat) => s.laneUp l && (s.lane l).src && (s.lane l).peerIn.isNone
          && (s.lane l).model == p.model && (s.lane l).first == p.dstStage) = some l →
    Does (.bindingQuery k) s (fun t => (t.lane l).peerIn = some p.dev ∧ t.fab.canopy.length = s.fab.canopy.length + 1 ∧
        t.fab.canopy.getLast?.map (fun (q : Packet) => (q.typ, q.nOff, q.dev, q.lane, q.vseq)) = some (.binding, 2, p.dev, l, p.lane) ∧
        t = { s with fab := t.fab, lanes := t.lanes })) ∧
  (∀ (s : State) (k : Nat) (p : Packet),
    s.packet k = some p →
    p.bindCode = 6 →
    Does (.bindingReply k) s (fun t => t.models = s.models.map (fun (m : Model) => if m.id = p.model then { m with peerStages := Tab.set m.peerStages p.dev p.dstStage } else m) ∧
        t = { s.unpost k with models := t.models })) ∧
  (∀ (s : State) (l k n a : Nat) (b : List Nat),
    (s.lane l).asked = some (k, n, b, a) →
    a + 100000 ≤ s.ns →
    Does (.bindingTimeout l) s (fun t => t.lane l = Lane.empty ∧ t.fget F.ADM_STATUS_LAST_CODE 0 = 0x23)) ∧
  (∀ (s : State) (k l : Nat) (p : Packet),
    s.packet k = some p →
    p.bindCode = 3 →
    s.laneTo p.dev p.lane = some l →
    Does (.itemCredit k) s (fun t => (t.lane l).credits = (s.lane l).credits + 1 ∧ t = { s.unpost k with lanes := t.lanes } ∧ SameBut l s.lanes t.lanes)) ∧
  (∀ (s : State) (k l : Nat) (p : Packet),
    s.packet k = some p →
    p.bindCode = 4 →
    (s.lane p.lane).peerIn ≠ some p.dev →
    s.laneTo p.dev p.lane = some l →
    Does (.bindingEnd k) s (fun t => (t.lane l).peerIn = none ∧ (t.lane l).peerOut = none ∧ (t.lane l).credits = 0 ∧ t.fget F.ADM_LANE_STATE_BROKEN l = 1 ∧ Counted C.ADM_CNT_BROKEN 0 1 s t)) ∧
  (∀ (s : State) (k i : Nat) (p : Packet) (o : CtrOp),
    s.packet k = some p →
    k < s.fab.nextKey →
    p.typ = .signal →
    s.behindSends p = false →
    ctrOp p.payload = o →
    o.op = 1 →
    o.ok = true →
    p.retx = false →
    ctrOf (s.blockOf p) p.src o = .inr i →
    s.waitsOf i = [] →
    Does (.add ⟨k, .none⟩) s (fun t => t.ctr i = Nat.min (s.ctr i + o.operand) 0xFFFFFFFF ∧ t.fget F.SYNC_LAST_VALID i = 1 ∧
        t.fget F.SYNC_WAIT_OVF i = (if 0xFFFFFFFF < s.ctr i + o.operand then 1 else s.fget F.SYNC_WAIT_OVF i) ∧ t.packet k = none ∧
        (p.remote = false → t.fab.net.getLast?.map (fun (q : Packet) => (q.typ, q.dst, q.ref)) = some (.receipt, p.src, p.key)))) ∧
  (∀ (s : State) (k : Nat) (p : Packet) (o : CtrOp),
    s.packet k = some p →
    k < s.fab.nextKey →
    p.typ = .signal →
    s.behindSends p = false →
    ctrOp p.payload = o →
    o.op = 1 →
    o.ok = true →
    p.retx = true →
    (Tab.getD s.sync.seen (s.originDev p * 64 + o.node) []).contains (p.ref % 65536) = true →
    Does (.add ⟨k, .none⟩) s (fun t => Counted C.SYNC_CNT_DUP 0 1 s t ∧ (∀ j : Nat, t.ctr j = s.ctr j) ∧ t.packet k = none ∧ t.sync = s.sync)) ∧
  (∀ (s : State) (k i : Nat) (p : Packet) (o : CtrOp),
    s.ctrRequest ⟨k, .none⟩ 2 = some (p, o, .inl i) →
    o.operand ≠ 0 →
    s.waitsOf i = [] →
    s.fget F.SYNC_WAITTAB_USED 0 < 4096 →
    o.operand ≤ s.ctr i →
    Does (.claim ⟨k, .none⟩) s (fun t => t.ctr i = (s.ctr i - o.operand) % 2 ^ 32 ∧ t.waitsOf i = [] ∧ t.fget F.SYNC_WAIT_CLAIMS i = 0)) ∧
  (∀ (s : State) (k i : Nat) (p : Packet) (o : CtrOp),
    s.ctrRequest ⟨k, .none⟩ 2 = some (p, o, .inl i) →
    s.waitsOf i = [] →
    s.fget F.SYNC_WAITTAB_USED 0 < 4096 →
    s.ctr i < o.operand →
    Does (.claim ⟨k, .none⟩) s (fun t => t.ctr i = s.ctr i ∧ t.waitsOf i = [s.ctrAsk p o] ∧ t.fget F.SYNC_WAIT_CLAIMS i = 1 ∧ t.fab.net = (s.unpost k).fab.net)) ∧
  (∀ (s : State) (k i : Nat) (p : Packet) (o : CtrOp),
    s.ctrRequest ⟨k, .none⟩ 3 = some (p, o, .inl i) →
    o.operand ≤ s.ctr i →
    Does (.waitGe ⟨k, .none⟩) s (fun t => t = (s.unpost k).ctrAnswer p o 0 (s.ctr i))) ∧
  (∀ (s : State) (k i : Nat) (p : Packet) (o : CtrOp),
    s.ctrRequest ⟨k, .none⟩ 3 = some (p, o, .inl i) →
    s.fget F.SYNC_WAITTAB_USED 0 < 4096 →
    s.ctr i < o.operand →
    Does (.waitGe ⟨k, .none⟩) s (fun t => t.ctr i = s.ctr i ∧ t.waitsOf i = s.waitsOf i ++ [s.ctrAsk p o])) ∧
  (∀ (s : State) (k i : Nat) (p : Packet) (o : CtrOp),
    s.ctrRequest ⟨k, .none⟩ 4 = some (p, o, .inl i) →
    Does (.peek ⟨k, .none⟩) s (fun t => t = (s.unpost k).ctrAnswer p o 0 (s.ctr i)))

/-! ### Reliability -/

/-- The state in which the subject of a returned sample runs its tile use again. -/
def atRerun (s : State) (c : Nat) (m : Sample) : State :=
  let u := s.setCore c { s.core c with check := false }
  { u with rel := { u.rel with returned := u.rel.returned.erase m } }

/-- DWELL_END moves a Lookout to the next core of the rotation (R336); SAMPLE_COMPARE counts a spoiled sample and compares
any other (R338); CHECK_RERUN follows the first two rows of Table 14.2 (R339); KAT_RUN counts its kernel and runs a
failed one again, and KAT_NOW asks for a run on a named core (R342); RANGE_WINDOW waits for a full window and starts
the count of violations again after a good one (R344); REL_COMMIT takes legal values and ignores others whole. -/
def Obligations.lookouts_compare_and_check : Prop :=
  (∀ (s : State) (k c : Nat),
    k < 2 →
    s.stepOver k = true →
    s.fget F.KEEP_STATUS_STATE 0 ≠ 0 →
    s.rel.failovers = [] →
    s.rel.suspects = [] →
    s.fget (lookState k) 0 ≠ 2 →
    s.nextSubject k s.rotation = some c →
    c < 32 →
    Does (.dwellEnd k) s (fun t => t.fget (lookSubject k) 0 = c ∧ t.fget (lookState k) 0 = 1 ∧ (t.lookout k).pos = rankCore c + 1 ∧ (t.lookout k).inserted = false ∧
        (t.lookout k).steps = (s.lookout k).steps + 1 ∧ t = { s with fields := t.fields, rel := t.rel })) ∧
  (∀ (s : State) (k c d : Nat) (m : Sample),
    s.mirroring k = some (c, d) →
    s.rel.samples.find? (fun x => x.lookout == k) = some m →
    m.core = d →
    m.spoiled = false →
    (({ s with rel := { s.rel with samples := s.rel.samples.erase m } } : State).rerunUse m c).2.1 = false →
    Does (.sampleCompare k) s (fun t => (t.lookout k).comparable = (s.lookout k).comparable + 1 ∧ t.rel.samples = s.rel.samples.erase m ∧ t.engines = s.engines ∧ t.tiles = s.tiles)) ∧
  (∀ (s : State) (k c d : Nat) (m : Sample),
    s.mirroring k = some (c, d) →
    s.rel.samples.find? (fun x => x.lookout == k) = some m →
    m.core = d →
    m.spoiled = true →
    Does (.sampleCompare k) s (fun t => t.rel.samples = s.rel.samples.erase m ∧ (t.lookout k).comparable = (s.lookout k).comparable ∧ t.rel.returned = s.rel.returned ∧
        t.engines = s.engines ∧ t.tiles = s.tiles)) ∧
  (∀ (s u : State) (c : Nat) (m : Sample) (r : Tab Int) (odd : Bool),
    s.rel.returned.find? (fun x => x.core == c) = some m →
    (s.core c).check = true →
    (atRerun s c m).rerunUse m c = (r, odd, u) →
    u.agree m r m.drained = true →
    Does (.checkRerun c) s (fun t => t = (if u.agree m r m.mirror then u.suspect (unitCore c) 1 else u.confirm (unitCore (s.fget (lookCore m.lookout) 0)) 1))) ∧
  (∀ (s : State) (c : Nat),
    s.katTurn = some c →
    (s.core c).check = true →
    Tab.find s.rel.katAgain c = none →
    Tab.getD s.rel.katWindows c 0 < 63 →
    Does (.katRun c true) s (fun t => Counted C.REL_CNT_KAT 0 1 s t ∧ Tab.getD t.rel.katWindows c 0 = Tab.getD s.rel.katWindows c 0 + 1 ∧ (t.core c).check = false ∧
        t.rel.katFail = s.rel.katFail ∧ t = { s with fields := t.fields, cores := t.cores, rel := t.rel })) ∧
  (∀ (s : State) (c : Nat),
    s.katTurn = some c →
    (s.core c).check = true →
    Tab.find s.rel.katAgain c = none →
    Does (.katRun c false) s (fun t => Counted C.REL_CNT_KATFAIL 0 1 s t ∧ t.fget F.REL_STATUS_KAT_FAIL_SEEN 0 = 1 ∧ t.rel.katFail = true ∧
        Tab.find t.rel.katAgain c = some (Tab.getD s.rel.katWindows c 0 % 6) ∧ (t.core c).check = false)) ∧
  (∀ (s : State) (c : Nat),
    s.katCores.contains c = true →
    Does (.katNow c) s (fun t => t.rel.katAsked = some c ∧ t.rel.katFail = false ∧ Tab.find t.rel.katWindows c = none ∧ Tab.find t.rel.katAgain c = none ∧ t = { s with rel := t.rel })) ∧
  (∀ (s : State) (c j key : Nat) (e : EnvCol) (m : Model) (r : StageRec),
    (s.tileCols c)[j]? = some key →
    s.envFor c key = some e →
    s.stageOf c = some (m, r) →
    s.fget F.REL_RANGE_CFG_WINDOW 0 ≤ (Tab.getD (s.core c).stats key .empty).count →
    envViolated e (Tab.getD (s.core c).stats key .empty) = false →
    Does (.rangeWindow c j) s (fun t => Tab.getD t.rel.ranges (c * 65536 + j) ⟨0, 0, 9, true⟩ = ⟨s.ns, (Tab.getD s.rel.ranges (c * 65536 + j) ⟨s.ns, 0, 0, false⟩).first, 0, false⟩ ∧
        Tab.find (t.core c).stats key = none ∧ t = { s with cores := t.cores, rel := t.rel })) ∧
  (∀ (s : State) (d n w : Nat),
    s.staging F.REL_SHADOW_CFG_DWELL_US 0 = d →
    s.staging F.REL_SHADOW_CFG_SAMPLE_EVERY 0 = n →
    s.staging F.REL_RANGE_CFG_WINDOW 0 = w →
    500 ≤ d ∧ d ≤ 10000 ∧ 1 ≤ n ∧ n ≤ 63 ∧ 256 ≤ w ∧ w ≤ 65536 →
    Does (.relCommit) s (fun t => t.fget F.REL_SHADOW_CFG_DWELL_US 0 = d ∧ t.fget F.REL_SHADOW_CFG_SAMPLE_EVERY 0 = n ∧ t.fget F.REL_RANGE_CFG_WINDOW 0 = w ∧ t = { s with fields := t.fields })) ∧
  (∀ (s : State),
    s.staging F.REL_SHADOW_CFG_DWELL_US 0 < 500 →
    Does (.relCommit) s (fun t => t.fget F.REL_STATUS_CFG_INVALID 0 = 1 ∧ t.fget F.REL_SHADOW_CFG_DWELL_US 0 = s.fget F.REL_SHADOW_CFG_DWELL_US 0))

/-- CORE_FAILED retires a free core, and begins a failover of a working one (R350); FAILOVER_JOIN completes and counts it
(R351); REPAIR_DONE rewrites the convicted tile's master from the image (R357); MODEL_VERIFY_DONE ends a verification
(R358). -/
def Obligations.failed_cores_are_replaced_and_masters_repaired : Prop :=
  (∀ (s : State) (c : Nat),
    c < 32 →
    s.stageOf c = none →
    s.rel.failovers = [] →
    s.fget F.CORE_STATUS_STATE c ≠ 4 →
    s.lookoutOf c = none →
    s.unit (unitCore c) ≠ 2 →
    Does (.coreFailed c true) s (fun t => t.fget F.CORE_STATUS_STATE c = 4 ∧ t.fget F.CORE_ROLE_ROLE c = 3 ∧ t.unit (unitCore c) = 2 ∧ Counted C.REL_CNT_RETIRE 0 1 s t ∧
        t.fget F.REL_STATUS_RETIRE_SEEN 0 = 1)) ∧
  (∀ (s : State) (c k : Nat) (m : Model) (r : StageRec),
    c < 32 →
    s.stageOf c = some (m, r) →
    s.rel.failovers = [] →
    s.fget F.CORE_ROLE_ROLE c = 1 →
    r.placed.contains c = true →
    s.pickLookout c = some k →
    Does (.coreFailed c true) s (fun t => t.rel.failovers.map (fun (f : Failover) => (f.core, f.lookout, f.context, f.model, f.stage)) = [(c, s.fget (lookCore k) 0, m.context, m.id, r.stage)])) ∧
  (∀ (s : State) (c k : Nat) (f : Failover) (m : Model),
    s.rel.failovers.find? (fun x => x.lookout == c && x.loaded) = some f →
    s.lookoutOf c = some k →
    s.model f.context f.model = some m →
    s.seedWaits c = false →
    Does (.failoverJoin c) s (fun t => t.rel.failovers = s.rel.failovers.filter (fun (x : Failover) => x.core != f.core) ∧ Counted C.REL_CNT_FAILOVER 0 1 s t)) ∧
  (∀ (s : State) (c e : Nat) (rep : Repairing) (m : Model) (r : StageRec) (off : Nat) (x : MapEnt),
    s.rel.repairs.find? (fun y => y.core == c && y.engine == e && !y.waiting) = some rep →
    s.stageOf c = some (m, r) →
    m.imageAt = some off →
    (s.engine c e).map = some x →
    Does (.repairDone c e) s (fun t => t.dram = (s.writeMaster (s.region c e) m.slot (s.weights m.context (s.image m.context off)) x).dram)) ∧
  (∀ (s : State) (ctx id : Nat) (m : Model),
    s.model ctx id = some m →
    m.verifying = true →
    Does (.modelVerifyDone ctx id) s (fun t => t.model ctx id = some { m with verifying := false }))

/-! ### The Keep -/

/-- A running Keep with a command of Table 15.12 and its input in the mailbox, which is not busy. -/
abbrev Asked (cmd ctx : Nat) (b : List Nat) (s : State) : Prop :=
  s.fget F.KEEP_MB_STATUS_BUSY 0 = 0 ∧ s.fget F.GLB_PWR_STATUS_STATE 0 ≠ 0 ∧ s.fget F.KEEP_STATUS_STATE 0 ≠ 0 ∧
  s.fget F.KEEP_MB_CMD_CMD 0 = cmd ∧ s.fget F.KEEP_MB_CMD_CONTEXT 0 = ctx ∧ ctx < 32 ∧ s.fget F.KEEP_MB_CMD_LEN 0 = b.length ∧
  b.length ≤ 4096 ∧ s.mbRead b.length = b
/-- The mailbox has answered with a status (R385). -/
abbrev Answered (status : Nat) (t : State) : Prop :=
  t.fget F.KEEP_MB_STATUS_BUSY 0 = 0 ∧ t.fget F.KEEP_MB_STATUS_DONE 0 = 1 ∧ t.fget F.KEEP_MB_STATUS_STATUS 0 = status

/-- CTX_DEFINE makes an undefined context defined; CTX_ENROLL and CTX_REVOKE change its keys, and are refused with status
5 while its interface is locked (R367); CTX_SWAP begins a hand-over or is refused with status 2 (R382); CTX_DESTROY of
a context without lanes, models and pages ends at once (R383); ATTEST answers at once or is queued while the device
settles (R371); KEY_ROTATE takes the other key generation (R378); REL_READ and KEY_RELEASE answer from the pending
load (R376); CERT_READ returns 4,096 bytes (R371). -/
def Obligations.mailbox_commands_run_and_answer : Prop :=
  (∀ (s : State) (ctx v : Nat),
    Asked 1 ctx [v] s →
    v ≤ 1 →
    s.ctxState ctx = 0 →
    Does (.ctxDefine) s (fun t => Answered 0 t ∧ t.ctxState ctx = 1 ∧ Tab.find t.keep.defs ctx = some ⟨v == 1, []⟩ ∧ t.fget F.KEEP_CTX_STATE_KEYGEN ctx = 0 ∧
        t.fget F.KEEP_CTX_STATE_KEYS ctx = 0)) ∧
  (∀ (s : State) (ctx : Nat) (b : List Nat) (d : CtxDef),
    Asked 2 ctx b s →
    b.length = 65 →
    zeroBytes b 1 4 = true →
    s.keyRefusal ctx (b.getD 0 0) true = 0 →
    Tab.find s.keep.defs ctx = some d →
    Does (.ctxEnroll) s (fun t => Answered 0 t ∧ Tab.find t.keep.defs ctx = some { d with keys := Tab.set d.keys (b.getD 0 0) (leAt b 4 4, slice b 8 57) })) ∧
  (∀ (s : State) (ctx : Nat) (b : List Nat),
    Asked 2 ctx b s →
    b.length = 65 →
    zeroBytes b 1 4 = true →
    b.getD 0 0 < 4 →
    s.locked ctx = true →
    Does (.ctxEnroll) s (fun t => Answered 5 t ∧ t.keep.defs = s.keep.defs ∧ Counted C.KEEP_CNT_MBREFUSE 0 1 s t)) ∧
  (∀ (s : State) (ctx slot : Nat) (d : CtxDef),
    Asked 3 ctx [slot] s →
    s.keyRefusal ctx slot true = 0 →
    Tab.find s.keep.defs ctx = some d →
    (Tab.find d.keys slot).isSome = true →
    Does (.ctxRevoke) s (fun t => Answered 0 t ∧ Tab.find t.keep.defs ctx = some { d with keys := Tab.erase d.keys slot })) ∧
  (∀ (s : State) (ctx enter : Nat),
    Asked 4 ctx [enter] s →
    enter < 32 →
    s.keep.swap = none →
    s.ctxState ctx = 2 →
    s.ctxState enter = 1 →
    (s.ctxLanes ctx).all (fun l => s.laneState l == 3) = true →
    s.swapFits ctx enter = true →
    Does (.ctxSwap) s (fun t => t.fget F.KEEP_MB_STATUS_BUSY 0 = 1 ∧ t.ctxState ctx = 3 ∧ t.keep.swap = some ⟨ctx, enter, .mailbox, false, false⟩ ∧
        (Tab.getD t.keep.frames ctx []).contains .swap = true)) ∧
  (∀ (s : State) (ctx enter : Nat),
    Asked 4 ctx [enter] s →
    enter < 32 →
    s.keep.swap = none →
    s.ctxState ctx ≠ 2 →
    Does (.ctxSwap) s (fun t => Answered 2 t ∧ t.keep = s.keep)) ∧
  (∀ (s : State) (ctx : Nat),
    Asked 5 ctx [] s →
    s.ctxState ctx = 1 →
    s.keep.swap = none →
    s.ctxLanes ctx = [] →
    s.ctxModels ctx = [] →
    s.parkedOf ctx = [] →
    Tab.find s.keep.pend ctx = none →
    s.keep.destroy = [] →
    s.handingOver ctx = false →
    s.fab.pages.any (fun (p : Nat × PageEnt) => p.2.owner == ctx) = false →
    Does (.ctxDestroy) s (fun t => Answered 0 t ∧ t.ctxState ctx = 0 ∧ Tab.find t.keep.defs ctx = none ∧ t.fget F.KEEP_CTX_STATE_KEYS ctx = 0 ∧
        t.fget F.KEEP_CTX_STATE_KEYGEN ctx = 0 ∧ t.keep.destroy = [])) ∧
  (∀ (s : State) (ctx : Nat) (b : List Nat),
    Asked 6 ctx b s →
    b.length = 96 →
    s.settling ctx = false →
    Does (.attest) s (fun t => Answered 0 t ∧ Counted C.KEEP_CNT_ATTEST 0 1 s t ∧ t.keep = s.keep ∧ t = { s with fields := t.fields })) ∧
  (∀ (s : State) (ctx : Nat) (b : List Nat),
    Asked 6 ctx b s →
    b.length = 96 →
    s.settling ctx = true →
    s.keep.queue.length < 16 →
    Does (.attest) s (fun t => t.keep.queue = s.keep.queue ++ [⟨ctx, slice b 0 32, slice b 32 64, .mailbox, s.ns⟩] ∧ t.fget F.KEEP_MB_STATUS_BUSY 0 = 1 ∧
        Counted C.KEEP_CNT_QUEUED 0 1 s t)) ∧
  (∀ (s : State) (ctx : Nat),
    Asked 7 ctx [] s →
    s.ctxLive ctx = true →
    s.keep.rot.contains ctx = false →
    Does (.keyRotate) s (fun t => Answered 0 t ∧ t.fget F.KEEP_CTX_STATE_KEYGEN ctx = 1 - s.fget F.KEEP_CTX_STATE_KEYGEN ctx ∧ t.fget F.KEEP_CTX_STATE_ROTATING ctx = 1 ∧
        t.fget F.KEEP_STATUS_ROTATING 0 = 1 ∧ t.keep.rot = s.keep.rot ++ [ctx])) ∧
  (∀ (s : State) (ctx : Nat) (p : PendLoad),
    Asked 8 ctx [] s →
    Tab.find s.keep.pend ctx = some p →
    Does (.relRead) s (fun t => Answered 0 t ∧ t.fget F.KEEP_MB_STATUS_OUT_LEN 0 = 2874 ∧ t.fget F.KEEP_MB_DATA_DATA 0 = leAt p.request 0 4 % 2 ^ 32 ∧ t.keep = s.keep)) ∧
  (∀ (s : State) (ctx : Nat),
    Asked 8 ctx [] s →
    Tab.find s.keep.pend ctx = none →
    Does (.relRead) s (fun t => Answered 8 t ∧ t.keep = s.keep)) ∧
  (∀ (s : State) (ctx : Nat) (b : List Nat) (p : PendLoad),
    Asked 9 ctx b s →
    b.length = 116 →
    Tab.find s.keep.pend ctx = some p →
    Does (.keyRelease) s (fun t => Tab.find t.keep.pend ctx = none ∧ (unwrapKey p b = none → Answered 7 t ∧ Counted C.KEEP_CNT_RELFAIL 0 1 s t))) ∧
  (∀ (s : State) (ctx : Nat) (b : List Nat),
    Asked 9 ctx b s →
    b.length = 116 →
    Tab.find s.keep.pend ctx = none →
    Does (.keyRelease) s (fun t => Answered 3 t ∧ t.keep = s.keep)) ∧
  (∀ (s : State) (ctx : Nat) (b : List Nat),
    Asked 10 ctx b s →
    b.length = 8 →
    zeroBytes b 1 4 = true →
    b.getD 0 0 < 4 →
    Does (.certRead) s (fun t => Answered 0 t ∧ t.fget F.KEEP_MB_STATUS_OUT_LEN 0 = 4096 ∧ t = { s with fields := t.fields }))

/-- RELEASE_TIMEOUT ends the pending load (R376); ROTATION_TIMER rotates after its period and ROTATION_DONE gives every
page the new generation (R378); PAGE_SCRUB_DONE zeroes and frees a page (R379); FRAME_BOUNDARY passes on new microcode
(R380); DECAY_CERTIFIED marks the core clean, and DECAY_TIMEOUT repeats once and then gives the core up (R381);
SETTLING_END and ATTEST_TIMEOUT empty the queue (R373); GET_MEASUREMENTS answers (R374); LOCK_INTERFACE,
START_INTERFACE, STOP_INTERFACE and TDI_ERROR move a TDI (R368); KEEP_COMMIT takes a legal timeout. -/
def Obligations.keys_pages_interfaces_and_decay : Prop :=
  (∀ (s : State) (ctx : Nat) (p : PendLoad),
    Tab.find s.keep.pend ctx = some p →
    s.fget F.KEEP_STATUS_STATE 0 ≠ 0 →
    p.since + s.fget F.KEEP_CONF_CFG_REL_TO_S 0 * 1000000000 ≤ s.ns →
    Does (.releaseTimeout ctx) s (fun t => Tab.find t.keep.pend ctx = none ∧ t.keep.wkeys = s.keep.wkeys)) ∧
  (∀ (s : State) (ctx h : Nat),
    s.fget F.KEEP_CONF_CFG_ROT_PERIOD_H 0 = h →
    h ≠ 0 →
    s.fget F.KEEP_STATUS_STATE 0 ≠ 0 →
    s.ctxLive ctx = true →
    s.keep.rot.contains ctx = false →
    Tab.getD s.keep.rotated ctx 0 + h * 3600000000000 ≤ s.ns →
    Does (.rotationTimer ctx) s (fun t => t.fget F.KEEP_CTX_STATE_KEYGEN ctx = 1 - s.fget F.KEEP_CTX_STATE_KEYGEN ctx ∧ t.fget F.KEEP_CTX_STATE_ROTATING ctx = 1 ∧
        t.keep.rot = s.keep.rot ++ [ctx] ∧ Tab.find t.keep.rotated ctx = some s.ns)) ∧
  (∀ (s : State) (ctx : Nat),
    s.keep.rot.contains ctx = true →
    s.fget F.KEEP_STATUS_STATE 0 ≠ 0 →
    s.fab.net.any (fun p => (p.typ == .memRead || p.typ == .readData) && p.context == ctx) = false →
    Does (.rotationDone ctx) s (fun t => t.keep.rot = s.keep.rot.filter (fun (x : Nat) => x != ctx) ∧ t.fget F.KEEP_CTX_STATE_ROTATING ctx = 0 ∧
        t.fab.pages = Tab.mapv s.fab.pages (fun _ (e : PageEnt) => if e.owner = ctx then { e with keygen := s.fget F.KEEP_CTX_STATE_KEYGEN ctx } else e))) ∧
  (∀ (s : State) (page : Nat) (e : PageEnt),
    Tab.find s.fab.pages page = some e →
    e.scrub = true →
    s.keep.destroy = [] →
    Does (.pageScrubDone page) s (fun t => t.dram = s.dram.filter (fun (x : Host.Cell) => x.1 / 2 ^ 20 != page) ∧ t.fab.pages = Tab.erase s.fab.pages page ∧
        t = { s with dram := t.dram, fab := { s.fab with pages := t.fab.pages } })) ∧
  (∀ (s : State) (ctx c : Nat),
    Tab.getD s.keep.frames ctx [] = [.microcode c] →
    s.itemsOpen ctx = false →
    (s.ctxCores ctx).all s.atBoundary = true →
    Does (.frameBoundary ctx) s (fun t => t.mgmt.act = s.mgmt.act.map (fun (a : Activation) => { a with cores := a.cores.filter (fun (d : Nat) => d != c) }) ∧
        (Tab.getD t.keep.frames ctx []).contains (.microcode c) = false)) ∧
  (∀ (s : State) (c : Nat) (b : Bleed),
    Tab.find s.keep.bleed c = some b →
    s.keep.swap = none →
    s.keep.destroy = [] →
    Does (.decayCertified c) s (fun t => Tab.find t.keep.bleed c = none ∧ t.fget F.KEEP_CORE_DATA_DECAY c = 2 ∧ t.fget F.KEEP_CORE_DATA_CLEAN c = 1 ∧
        (List.range 36).all (fun e => t.engine c e == (s.engine c e).zero) = true)) ∧
  (∀ (s : State) (c : Nat) (b : Bleed),
    Tab.find s.keep.bleed c = some b →
    b.since + 40000000 ≤ s.ns →
    b.fails = 0 →
    Does (.decayTimeout c) s (fun t => Tab.find t.keep.bleed c = some ⟨s.ns, 1, b.context⟩ ∧ t.fget F.KEEP_CORE_DATA_DECAY c = 1 ∧ Counted C.KEEP_CNT_DECAYFAIL 0 1 s t)) ∧
  (∀ (s : State) (c : Nat) (b : Bleed),
    Tab.find s.keep.bleed c = some b →
    b.since + 40000000 ≤ s.ns →
    b.fails ≠ 0 →
    s.keep.swap = none →
    s.keep.destroy = [] →
    Does (.decayTimeout c) s (fun t => Tab.find t.keep.bleed c = none ∧ t.fget F.KEEP_CORE_DATA_DECAY c = 3 ∧ Counted C.KEEP_CNT_DECAYFAIL 0 1 s t)) ∧
  (∀ (s : State),
    Does (.settlingEnd) s (fun t => t.keep.queue = s.keep.queue.filter (fun (r : AttReq) => s.settling r.ctx) ∧ t.keep.settle = s.keep.settle)) ∧
  (∀ (s : State),
    Does (.attestTimeout) s (fun t => t.keep.queue = s.keep.queue.filter (fun (r : AttReq) => decide (s.ns < r.since + 2000000000)) ∧
        t = { s with fields := t.fields, out := t.out, keep := { s.keep with queue := t.keep.queue } })) ∧
  (∀ (s : State) (nonce : List Nat),
    s.settling 0 = false →
    Does (.getMeasurements nonce) s (fun t => t = s.emit (.spdm 0 (s.measurements (slice nonce 0 32))))) ∧
  (∀ (s : State) (vf : Nat),
    1 ≤ vf →
    vf ≤ 32 →
    s.tdi vf = 0 →
    Does (.lockInterface vf) s (fun t => t.tdi vf = 1 ∧ (List.range 32).all (fun x => t.fget F.KEEP_CTX_STATE_CONF x == ofBool (t.confNow x)) = true ∧ t = { s with fields := t.fields, keep := t.keep })) ∧
  (∀ (s : State) (vf : Nat) (ide : Bool),
    1 ≤ vf →
    vf ≤ 32 →
    s.tdi vf = 1 →
    Does (.startInterface vf ide) s (fun t => t.tdi vf = 2 ∧ t.keep.ide = s.keep.ide ++ (if ide then [vf] else []) ∧ t = { s with fields := t.fields, keep := t.keep })) ∧
  (∀ (s : State) (vf : Nat),
    1 ≤ vf →
    vf ≤ 32 →
    s.tdi vf ≠ 0 →
    s.vfConf vf = [] →
    Does (.stopInterface vf) s (fun t => t.tdi vf = 0 ∧ t.keep.ide = s.keep.ide.filter (fun (v : Nat) => v != vf))) ∧
  (∀ (s : State) (vf : Nat),
    1 ≤ vf →
    vf ≤ 32 →
    s.tdi vf = 1 ∨ s.tdi vf = 2 →
    Does (.tdiError vf) s (fun t => t.tdi vf = 3 ∧ (s.ctxsOfVf vf).all (fun x => (s.ctxLanes x).all (fun l => s.laneState l != 2 || (s.fget F.ADM_LANE_STATE_SUSP_REASONS l).testBit 5 || t.laneState l == 3)) = true)) ∧
  (∀ (s : State) (n : Nat),
    s.staging F.KEEP_CONF_CFG_REL_TO_S 0 = n →
    1 ≤ n →
    n ≤ 60 →
    Does (.keepCommit) s (fun t => t.fget F.KEEP_CONF_CFG_REL_TO_S 0 = n ∧ [F.KEEP_CONF_CFG_POWER, F.KEEP_CONF_CFG_CNP_POLICY, F.KEEP_CONF_CFG_ROT_PERIOD_H].all (fun f => t.fget f 0 == s.staging f 0 % 2 ^ f.width) = true ∧
        t = { s with fields := t.fields })) ∧
  (∀ (s : State),
    60 < s.staging F.KEEP_CONF_CFG_REL_TO_S 0 →
    Does (.keepCommit) s (fun t => t.fget F.KEEP_STATUS_CFG_INVALID 0 = 1 ∧ t.fget F.KEEP_CONF_CFG_REL_TO_S 0 = s.fget F.KEEP_CONF_CFG_REL_TO_S 0))

/-! ### Management -/

/-- A message of an open session that has claimed, with a role that its command allows (R391 to R393). -/
abbrev Heard (m : MgtMsg) (role : Nat) (e : Session) (s : State) : Prop :=
  s.mgtUp = true ∧ s.session m.session = some e ∧ e.claiming = false ∧ m.bad = false ∧ role ≤ e.role
/-- The state once the session's idle time has started again (R392). -/
def heardAt (s : State) (m : MgtMsg) : State := s.updSession m.session (fun (e : Session) => { e with lastMsg := s.ns })
/-- The last thing sent out is the reply to a message. -/
abbrev Replied (m : MgtMsg) (typ status : Nat) (payload : List Nat) (t : State) : Prop :=
  t.out.getLast? = some (.reply m.session typ m.tag status payload)

/-- SESSION_HANDSHAKE opens a session whose chain leads to a trust anchor and counts any other (R389);
SESSION_IDLE_TIMEOUT closes it after 300 s (R392); CLAIM_MODULE with the claim code installs the client's anchor
(R391); HELLO, SUBSCRIBE, EVENT_ACK, FAULT_ACK, TELEMETRY_CFG, TELEMETRY_TIMER and TIME_SET act on the session, the
acknowledgements and the time (R359, R394, R398, R400, R401). -/
def Obligations.sessions_open_acknowledge_and_close : Prop :=
  (∀ (s : State) (chain : List Nat),
    s.mgtUp = true →
    s.mgmt.sessions.length < 4 →
    Does (.sessionHandshake chain false) s (fun t => Counted C.MGT_CNT_AUTHFAIL 0 1 s t ∧ t.mgmt.sessions.map (fun (e : Session) => e.id) = s.mgmt.sessions.map (fun (e : Session) => e.id))) ∧
  (∀ (s : State) (chain : List Nat),
    s.mgtUp = true →
    s.mgmt.sessions.length < 4 →
    s.fget F.MGT_STATUS_CLAIMED 0 = 1 →
    Does (.sessionHandshake chain true) s (fun t => t.mgmt.sessions.map (fun (e : Session) => (e.id, e.anchor, e.role)) = s.mgmt.sessions.map (fun (e : Session) => (e.id, e.anchor, e.role)) ++
          (s.anchorFor chain).elim [] (fun (x : Nat × Anchor) => [(s.mgmt.nextId, x.1, x.2.role)]) ∧ t.fget F.MGT_STATUS_LINK 0 ≠ 0)) ∧
  (∀ (s : State) (id : Nat) (e : Session),
    s.session id = some e →
    e.lastMsg + 300000000000 ≤ s.ns →
    Does (.sessionIdleTimeout id) s (fun t => t.mgmt.sessions = s.mgmt.sessions.filter (fun (x : Session) => x.id != id) ∧ t = { s with fields := t.fields, mgmt := t.mgmt })) ∧
  (∀ (s : State) (m : MgtMsg) (e : Session),
    Heard m 0 e s →
    Does (.hello m) s (fun t => Replied m 0x0001 0 s.helloBytes t ∧ t = { s with out := t.out, mgmt := t.mgmt })) ∧
  (∀ (s : State) (m : MgtMsg) (e : Session),
    s.mgtUp = true →
    s.session m.session = some e →
    e.claiming = true →
    m.bad = false →
    s.fget F.MGT_STATUS_CLAIMED 0 = 0 →
    s.mgmt.failedClaims = [] →
    Does (.claimModule m) s (fun t => (shake256 (m.payload.map (fun b => b % 256)) = claimDigest → t.fget F.MGT_STATUS_CLAIMED 0 = 1 ∧ Tab.find t.mgmt.anchors 0 = some ⟨2, e.key⟩ ∧ Replied m 0x0002 0 [] t) ∧
        (shake256 (m.payload.map (fun b => b % 256)) ≠ claimDigest → t.fget F.MGT_STATUS_CLAIMED 0 = 0 ∧ t.session m.session = none ∧ t.mgmt.failedClaims = [s.ns]))) ∧
  (∀ (s : State) (m : MgtMsg) (e : Session),
    Heard m 0 e s →
    Does (.claimModule m) s (fun t => Replied m 0x0002 4 [] t ∧ t.mgmt.anchors = s.mgmt.anchors)) ∧
  (∀ (s : State) (m : MgtMsg) (e : Session),
    Heard m 0 e s →
    m.payload.length = 8 →
    leAt m.payload 0 4 = 0xFFFFFFFF →
    Does (.subscribe m) s (fun t => (t.session m.session).map (fun (x : Session) => (x.sub, x.faultNext)) = some (some (s.fget F.MGT_EVT_HEAD_NEXT 0, leAt m.payload 4 4), s.fget F.REL_FR_HEAD_NEXT 0))) ∧
  (∀ (s : State) (m : MgtMsg) (e : Session),
    Heard m 1 e s →
    m.payload.length = 4 →
    Does (.eventAck m) s (fun t => t.mgmt.acked = Nat.max s.mgmt.acked (Nat.min (s.fget F.MGT_EVT_HEAD_NEXT 0) (leAt m.payload 0 4 + 1)) ∧ Replied m 0x0005 0 [] t)) ∧
  (∀ (s : State) (m : MgtMsg) (e : Session),
    Heard m 1 e s →
    m.payload.length = 4 →
    Does (.faultAck m) s (fun t => t.mgmt.faultAcked = Nat.max s.mgmt.faultAcked (Nat.min (s.fget F.REL_FR_HEAD_NEXT 0) (leAt m.payload 0 4 + 1)) ∧ Replied m 0x0007 0 [] t)) ∧
  (∀ (s : State) (m : MgtMsg) (e : Session) (p : Nat),
    Heard m 0 e s →
    m.payload.length = 4 →
    leAt m.payload 0 4 = p →
    p = 0 ∨ 10 ≤ p ∧ p ≤ 10000 →
    Does (.telemetryCfg m) s (fun t => (t.session m.session).map (fun (x : Session) => (x.period, x.teleAt)) = some (p, s.us + 1) ∧ Replied m 0x0008 0 [] t)) ∧
  (∀ (s : State) (id : Nat) (e : Session),
    s.mgtUp = true →
    s.session id = some e →
    s.teleDue e = true →
    Does (.telemetryTimer id) s (fun t => (t.session id).map (fun (x : Session) => x.teleAt) = some (s.us + 1) ∧ t.out.length = s.out.length + 1)) ∧
  (∀ (s : State) (m : MgtMsg) (e : Session),
    Heard m 1 e s →
    m.payload.length = 8 →
    Does (.timeSet m) s (fun t => t.fget F.MGT_TIME_OFS_SECONDS 0 = (leAt m.payload 0 8 - s.us) / 1000000 % 2 ^ 32 ∧ t.mgmt.timeSet = true ∧ Replied m 0x0052 0 [] t))

/-- REG_READ answers with the word that the access reads, and REG_WRITE writes with the PF's authority (R392); RING_CMD
hands its descriptor to the session's command list and KEEP_CMD its command to the Keep (R396); PASSPORT_READ answers
with a fresh snapshot (R131); UNIT_RECAL asks for passes (R407); REPAIR goes on from an image that passes (R357);
PEER_LIST, ANCHOR_SET, CONFIG_EXPORT and CONFIG_IMPORT act on the configuration (R390, R407, R410, R413). -/
def Obligations.management_reads_writes_and_configures : Prop :=
  (∀ (s : State) (m : MgtMsg) (e : Session),
    Heard m 0 e s →
    m.payload.length = 10 →
    m.payload.getD 0 0 = 0 →
    leAt m.payload 8 2 = 1 →
    leAt m.payload 4 4 + 4 ≤ 0xD10000 →
    Does (.regRead m) s (fun t => t = ((heardAt s m).busRead (mgtAccess 0 (leAt m.payload 4 4) false)).2.answer m.session 0x0010 m.tag 0
          (bytesOf 4 ((heardAt s m).busRead (mgtAccess 0 (leAt m.payload 4 4) false)).1))) ∧
  (∀ (s : State) (m : MgtMsg) (e : Session),
    Heard m 1 e s →
    m.payload.length = 12 →
    m.payload.getD 0 0 = 0 →
    Does (.regWrite m) s (fun t => t = ((heardAt s m).busWrite (mgtAccess 0 (leAt m.payload 4 4) true) (leAt m.payload 8 4)).answer m.session 0x0011 m.tag 0 [])) ∧
  (∀ (s : State) (m : MgtMsg) (e : Session) (d : List Nat),
    Heard m 2 e s →
    (m.payload.take 64).map (fun x => x % 256) = d →
    d.length = 64 →
    s.conf (s.ringCtx d) = false →
    dOp d ≠ 0x01 ∧ dOp d ≠ 0x1A ∧ dOp d ≠ 0x1B →
    s.serving = true →
    Does (.ringCmd m) s (fun t => t = (heardAt s m).ringTake m.session m.tag (mgtDesc d (m.payload.length - 64)) ((m.payload.drop 64).map (fun x => x % 256)))) ∧
  (∀ (s : State) (m : MgtMsg) (e : Session),
    Heard m 2 e s →
    4 ≤ m.payload.length →
    m.payload.getD 1 0 < 32 →
    s.fget F.GLB_PWR_STATUS_STATE 0 ≠ 0 →
    s.fget F.KEEP_STATUS_STATE 0 ≠ 0 →
    Does (.keepCmd m) s (fun t => t = (heardAt s m).keepRun (.session m.session m.tag) (m.payload.getD 0 0) (m.payload.getD 1 0) ((m.payload.drop 4).map (fun x => x % 256)))) ∧
  (∀ (s : State) (m : MgtMsg) (e : Session),
    Heard m 2 e s →
    4 ≤ m.payload.length →
    m.payload.getD 1 0 < 32 →
    s.fget F.GLB_PWR_STATUS_STATE 0 ≠ 0 →
    s.fget F.KEEP_STATUS_STATE 0 = 0 →
    Does (.keepCmd m) s (fun t => t.keep.waiting = s.keep.waiting ++ [⟨.session m.session m.tag, m.payload.getD 0 0, m.payload.getD 1 0, (m.payload.drop 4).map (fun x => x % 256)⟩])) ∧
  (∀ (s : State) (m : MgtMsg) (e : Session) (c g : Nat),
    Heard m 0 e s →
    m.payload = [c, g] →
    c < 32 →
    g < 32 →
    s.retired c = false →
    (s.inService c).contains g = true →
    Does (.passportRead m) s (fun t => t.free = s.free + 21504 ∧ (t.engine c g).passport.isSome = true ∧
        Replied m 0x0043 0 ((t.engine c g).passport.elim [] (fun (p : Passport) => t.passportBytes c g p)) t)) ∧
  (∀ (s : State) (m : MgtMsg) (e : Session),
    Heard m 1 e s →
    m.payload.length = 4 →
    Does (.unitRecal m) s (fun t => Replied m 0x0042 0 [] t ∧ (List.range 32).all (fun c => !bit (leAt m.payload 0 4) c || s.retired c || (s.inService c).all (fun e => (t.engine c e).calAsked)) = true)) ∧
  (∀ (s : State) (m : MgtMsg) (e : Session) (x : Model),
    Heard m 2 e s →
    m.payload.length = 32 →
    m.payload.getD 0 0 < 32 →
    s.model (m.payload.getD 0 0) (leAt m.payload 4 16) = some x →
    Does (.repair m) s (fun t => (if (heardAt s m).repairOk x (leAt m.payload 4 16) (leAt m.payload 20 4) (leAt m.payload 24 8)
          then (t.model (m.payload.getD 0 0) (leAt m.payload 4 16)).map (fun (y : Model) => y.imageAt) = some (some (leAt m.payload 24 8)) ∧ Replied m 0x0044 0 [] t
          else t.models = s.models ∧ Replied m 0x0044 4 [] t))) ∧
  (∀ (s : State) (m : MgtMsg) (e : Session),
    Heard m 2 e s →
    m.payload.length % 8 = 0 →
    m.payload.length ≤ 1024 →
    Does (.peerList m) s (fun t => t.mgmt.peers = (List.range (m.payload.length / 8)).map (fun (i : Nat) => leAt m.payload (8 * i) 8) ∧ Replied m 0x0050 0 [] t)) ∧
  (∀ (s : State) (m : MgtMsg) (e : Session),
    Heard m 2 e s →
    m.payload.length = 65 →
    m.payload.getD 0 0 < 4 →
    m.payload.getD 1 0 ≤ 2 ∨ m.payload.getD 1 0 = 0xFF →
    Does (.anchorSet m) s (fun t => (if anchorsOk (anchorPut s.mgmt.anchors (m.payload.getD 0 0) (m.payload.getD 1 0) (slice m.payload 8 57))
          then t.mgmt.anchors = anchorPut s.mgmt.anchors (m.payload.getD 0 0) (m.payload.getD 1 0) (slice m.payload 8 57) ∧ Replied m 0x0051 0 [] t
          else t.mgmt.anchors = s.mgmt.anchors ∧ Replied m 0x0051 4 [] t))) ∧
  (∀ (s : State) (m : MgtMsg) (e : Session),
    Heard m 0 e s →
    Does (.configExport m) s (fun t => Replied m 0x0053 0 (heardAt s m).configRecord t ∧ t = { s with out := t.out, mgmt := t.mgmt })) ∧
  (∀ (s : State) (m : MgtMsg) (e : Session),
    Heard m 2 e s →
    Does (.configImport m) s (fun t => (configOk (m.payload.map (fun x => x % 256)) = true → Replied m 0x0054 0 (bytesOf 4 ((heardAt s m).configApply (m.payload.map (fun x => x % 256))).2) t) ∧
        (configOk (m.payload.map (fun x => x % 256)) = false → Replied m 0x0054 1 [] t ∧ t.fget F.MGT_FW_DATA_STATE 1 = s.fget F.MGT_FW_DATA_STATE 1)))

/-- FW_STAGE takes the slot of its type, which is then not valid (R402); FW_ACTIVATE starts the restart or names why not
(R403); FW_READY begins the trial or commits, FW_READY_TIMEOUT and FW_HOLD_TIMEOUT go back, FW_COMMIT and FW_ROLLBACK
end the trial (R404 to R406); RECOVERY_IMAGE fills the active Keep slot (R364); UNIT_RETIRE, UNIT_RETEST and
RETEST_DONE retire a unit and test it (R408, R409). -/
def Obligations.firmware_is_staged_tried_and_kept : Prop :=
  (∀ (s : State) (m : MgtMsg) (e : Session) (typ fl : Nat),
    Heard m 2 e s →
    8 ≤ m.payload.length →
    m.payload.getD 0 0 = typ →
    m.payload.getD 1 0 = fl →
    1 ≤ typ ∧ typ ≤ 4 ∧ fl ≤ 1 →
    leAt m.payload 4 4 + (m.payload.length - 8) ≤ slotSize typ →
    s.stageRefusal m.session typ = 0 →
    Does (.fwStage m) s (fun t => t.fget (slotValid (s.fwIdle typ)) typ = 0 ∧ t.fget F.MGT_FW_DATA_STATE typ = 1 ∧ Tab.find t.mgmt.staging typ = some m.session ∧ Replied m 0x0030 0 [] t)) ∧
  (∀ (s : State) (m : MgtMsg) (e : Session) (typ fl : Nat),
    Heard m 2 e s →
    m.payload = [typ, fl] →
    1 ≤ typ ∧ typ ≤ 5 ∧ fl ≤ 3 →
    s.actRefusal typ (bit fl 1) = 0 →
    Does (.fwActivate m) s (fun t => t.mgmt.act.map (fun (a : Activation) => (a.typ, a.hold, a.atFrame, a.prev, a.phase)) = some (typ, bit fl 0, bit fl 1, s.fwActive typ, .restarting) ∧ t.fget F.MGT_FW_DATA_STATE typ = 2)) ∧
  (∀ (s : State) (m : MgtMsg) (e : Session) (typ fl r : Nat),
    Heard m 2 e s →
    m.payload = [typ, fl] →
    1 ≤ typ ∧ typ ≤ 5 ∧ fl ≤ 3 →
    s.actRefusal typ (bit fl 1) = r →
    r ≠ 0 →
    Does (.fwActivate m) s (fun t => t.mgmt.act = s.mgmt.act ∧ Replied m 0x0031 r [] t)) ∧
  (∀ (s : State) (a : Activation),
    s.mgmt.act = some a →
    a.typ = 2 →
    a.phase = .restarting →
    Does (.fwReady) s (fun t => t.mgmt.down = false ∧ t.mgmt.act = (if a.hold then some { a with phase := .trial, started := s.ns, answered := true } else none) ∧
        t.fget F.MGT_FW_DATA_STATE 2 = (if a.hold then 3 else 0) ∧ (a.hold = false → t.fget F.MGT_FW_DATA_ACTIVE 2 = (1 - a.prev) % 2))) ∧
  (∀ (s : State),
    s.mgmt.act = none →
    s.field.fw ≠ .running →
    Does (.fwReady) s (fun t => t.field.fw = .running)) ∧
  (∀ (s : State) (a : Activation),
    s.mgmt.act = some a →
    a.typ = 2 →
    a.phase = .restarting →
    a.moving = none →
    a.started + 2000000000 ≤ s.ns →
    Does (.fwReadyTimeout) s (fun t => t.mgmt.act.map (fun (x : Activation) => (x.typ, x.phase)) = some (2, .backing) ∧ t.fget F.MGT_FW_DATA_STATE 2 = 2)) ∧
  (∀ (s : State) (a : Activation),
    s.mgmt.act = some a →
    a.phase = .trial →
    a.started + 600000000000 ≤ s.ns →
    Does (.fwHoldTimeout) s (fun t => t.mgmt.act.map (fun (x : Activation) => (x.typ, x.phase, x.undo)) = some (a.typ, .backing, none) ∧ t.fget F.MGT_FW_DATA_STATE a.typ = 2)) ∧
  (∀ (s : State) (m : MgtMsg) (e : Session) (a : Activation) (typ : Nat),
    Heard m 2 e s →
    m.payload = [typ] →
    1 ≤ typ ∧ typ ≤ 4 →
    s.mgmt.act = some a →
    a.typ = typ →
    a.phase = .trial →
    Does (.fwCommit m) s (fun t => t.mgmt.act = none ∧ t.fget F.MGT_FW_DATA_ACTIVE typ = (1 - a.prev) % 2 ∧ t.fget F.MGT_FW_DATA_STATE typ = 0 ∧ Replied m 0x0032 0 [] t)) ∧
  (∀ (s : State) (m : MgtMsg) (e : Session) (a : Activation) (typ : Nat),
    Heard m 2 e s →
    m.payload = [typ] →
    1 ≤ typ ∧ typ ≤ 5 →
    s.mgmt.act = some a →
    a.typ = typ →
    a.phase = .trial →
    Does (.fwRollback m) s (fun t => t.mgmt.act.map (fun (x : Activation) => (x.typ, x.phase, x.undo)) = some (typ, .backing, some (m.session, m.tag)) ∧ t.fget F.MGT_FW_DATA_STATE typ = 2)) ∧
  (∀ (s : State) (m : MgtMsg) (e : Session) (typ : Nat),
    Heard m 2 e s →
    m.payload = [typ] →
    1 ≤ typ ∧ typ ≤ 5 →
    s.mgmt.act = none →
    Does (.fwRollback m) s (fun t => Replied m 0x0033 4 [] t ∧ t.mgmt.act = none)) ∧
  (∀ (s : State) (image : List Nat),
    s.power.slotPower = true →
    s.fget F.KEEP_STATUS_STATE 0 = 2 →
    image.length ≤ slotSize 1 →
    image.all (fun v => decide (v < 256)) = true →
    Does (.recoveryImage image) s (fun t => (if s.fwValid 1 image then Tab.find t.mgmt.images (2 + s.fwActive 1) = some image ∧ t.fget (slotValid (s.fwActive 1)) 1 = 1 else t = s))) ∧
  (∀ (s : State) (m : MgtMsg) (e : Session),
    Heard m 2 e s →
    m.payload.length = 7 →
    msgUnitOk m.payload = true →
    s.unit (msgUnit m.payload) ≠ 2 →
    s.lookouts ≠ [] →
    Does (.unitRetire m) s (fun t => t.unit (msgUnit m.payload) = 2 ∧ t.fget F.REL_UNIT_DATA_FAILS (msgUnit m.payload) = 3 ∧ t.fget F.REL_STATUS_RETIRE_SEEN 0 = 1 ∧ Replied m 0x0040 0 [] t)) ∧
  (∀ (s : State) (m : MgtMsg) (e : Session),
    Heard m 2 e s →
    m.payload.length = 7 →
    msgUnitOk m.payload = true →
    m.payload.getD 0 0 = 2 →
    m.payload.getD 6 0 = 0 →
    s.mgmt.retest = none →
    s.unit (msgUnit m.payload) = 2 →
    Does (.unitRetest m) s (fun t => t.mgmt.retest = some ⟨2, m.payload.getD 1 0, leAt m.payload 4 2, m.payload.getD 2 0⟩ ∧ Replied m 0x0041 0 [] t)) ∧
  (∀ (s : State) (c e l : Nat),
    s.mgmt.retest = some ⟨2, c, l, e⟩ →
    Does (.retestDone true) s (fun t => t.mgmt.retest = none ∧ t.unit (unitLane c e l) = 1 ∧ t.fget F.REL_UNIT_DATA_FAILS (unitLane c e l) = 0)) ∧
  (∀ (s : State) (x : Retest),
    s.mgmt.retest = some x →
    Does (.retestDone false) s (fun t => t.mgmt.retest = none ∧ (x.kind = 0 → t.fget F.CORE_STATUS_STATE x.core = 4)))

/-! ### Power, reset, clocks and temperature -/

/-- Slot power starts the host section with the cause of the start recorded (R416, R431), PERST# lets the link train
(R416), and loss of slot power, or a thermal trip, leaves nothing volatile in the host section (R362, R431). A
conventional reset keeps models and DRAM, and a device reset ends them (R418, R419); a device reset while a sensor is
too hot is ignored (R430), as is one of an unpowered host section. A reset free core raises its reset generation and
is free (R420). The orderly stop begins with its cause and ends with the device stopped (R430), begun by a write, by
stale housekeeping, by the housekeeping clock, or by the auxiliary supply with no drain (R415). -/
def Obligations.power_and_resets : Prop :=
  (∀ (s : State) (sense : Nat) (auxOk : Bool),
    s.power.slotPower = false →
    s.power.trip = false →
    Does (.hostPowerOn sense auxOk) s (fun t => t.power.slotPower = true ∧ t.bootNs = s.ns ∧ t.fget F.GLB_CLK_STATUS_LOCK 0 = 31 ∧ t.power.tripped = false ∧
        t.fget F.GLB_RST_CAUSE_CAUSE 0 = (if s.power.tripped = true then 4 else 0) ∧ t.fget F.GLB_PWR_STATUS_SENSE 0 = sense % 4)) ∧
  (∀ (s : State),
    s.power.slotPower = true →
    Does (.perstDeassert) s (fun t => t = ({ s with power := { s.power with linkUp := true } } : State))) ∧
  (∀ (s : State),
    s.power.slotPower = true →
    Does (.conventionalReset) s (fun t => t.power.linkUp = false ∧ t.fget F.HIF_LINK_GEN 0 = F.HIF_LINK_GEN.reset ∧ t.dram = s.dram ∧ t.models = s.models ∧ t.cores = s.cores ∧ t.field = s.field)) ∧
  (∀ (s : State) (sense : Nat) (auxOk : Bool),
    s.power.slotPower = true →
    s.hotForReset = false →
    Does (.deviceReset sense auxOk) s (fun t => t.fget F.GLB_RST_CAUSE_CAUSE 0 = 1 ∧ t.models = [] ∧ t.field = s.field ∧ t.bootNs = s.bootNs ∧ t.fget F.GLB_PWR_STATUS_STATE 0 = 0 ∧ t.fget F.GLB_THM_STATUS_STOPPING 0 = 0)) ∧
  (∀ (s : State) (sense : Nat) (auxOk : Bool),
    s.power.slotPower = true →
    s.hotForReset = true →
    Does (.deviceReset sense auxOk) s (fun t => t.fget F.GLB_THM_STATUS_RESET_REFUSED 0 = 1 ∧ t = { s with fields := t.fields, events := t.events, out := t.out, mgmt := t.mgmt })) ∧
  (∀ (s : State) (sense : Nat) (auxOk : Bool),
    s.power.slotPower = false →
    Does (.deviceReset sense auxOk) s (fun t => t = s)) ∧
  (∀ (s : State),
    s.power.slotPower = true →
    Does (.mgtWatchdog) s (fun t => t.fget F.GLB_RST_CAUSE_CAUSE 0 = 2 ∧ t.models = [] ∧ t.field = s.field)) ∧
  (∀ (s : State) (c : Nat),
    c < 32 →
    s.power.slotPower = true →
    s.fget F.CORE_ROLE_ROLE c = 0 →
    ¬ c ∈ s.power.resetting →
    s.fget F.GLB_PWR_STATUS_STATE 0 ≠ 3 →
    Does (.coreReset c) s (fun t => Tab.find t.seqs c = none ∧ t.fget F.KEEP_CORE_DATA_RESETGEN c = (s.fget F.KEEP_CORE_DATA_RESETGEN c + 1) % 2 ^ 16 ∧ t.fget F.CORE_STATUS_STATE c = 0 ∧
        t.fget F.CORE_ROLE_ROLE c = 0 ∧ t.models = s.models)) ∧
  (∀ (s : State),
    s.fget F.GLB_THM_STATUS_STOPPING 0 = 0 →
    s.fget F.GLB_PWR_STATUS_STATE 0 ≠ 0 →
    Does (.stopCommand) s (fun t => t.fget F.GLB_THM_STATUS_STOPPING 0 = 1 ∧ t.fget F.ADM_STATUS_FROZEN 0 = 1 ∧ t.power.stop = some (5, s.ns + s.fget F.GLB_THM_MISC_DRAIN 0 * 100000))) ∧
  (∀ (s : State),
    s.fget F.GLB_THM_STATUS_STOPPING 0 = 1 ∨ s.fget F.GLB_PWR_STATUS_STATE 0 = 0 →
    Does (.stopCommand) s (fun t => t = s)) ∧
  (∀ (s : State),
    s.fget F.GLB_THM_STATUS_STOPPING 0 = 0 →
    s.fget F.GLB_PWR_STATUS_STATE 0 ≠ 0 →
    s.hk.fresh + 10000000 < s.ns →
    Does (.housekeepingStale) s (fun t => t.fget F.GLB_THM_STATUS_STOPPING 0 = 1 ∧ t.power.stop = some (3, s.ns + s.fget F.GLB_THM_MISC_DRAIN 0 * 100000))) ∧
  (∀ (s : State) (c : Nat) (at' : Nat),
    s.power.stop = some (c, at') →
    at' ≤ s.ns →
    Does (.drainEnd) s (fun t => t.fget F.GLB_PWR_STATUS_STATE 0 = 3 ∧ t.power.stop = none ∧ t.dram = s.dram ∧ t.models = s.models)) ∧
  (∀ (s : State),
    s.power.slotPower = true →
    s.fget F.GLB_THM_STATUS_STOPPING 0 = 0 →
    s.fget F.GLB_PWR_STATUS_STATE 0 ≠ 0 →
    s.coresRun = true →
    Does (.auxSupplyFail) s (fun t => t.fget F.GLB_PWR_STATUS_AUX_OK 0 = 0 ∧ t.power.stop = some (4, s.ns) ∧ t.fget F.GLB_THM_STATUS_STOPPING 0 = 1)) ∧
  (∀ (s : State),
    s.power.slotPower = true →
    s.coresRun = false →
    Does (.auxSupplyFail) s (fun t => t = s.fset F.GLB_PWR_STATUS_AUX_OK 0 0)) ∧
  (∀ (s : State),
    s.power.slotPower = true →
    s.bar.up = false →
    Does (.hostPowerLoss) s (fun t => t.dram = [] ∧ t.sram = [] ∧ t.models = [] ∧ t.items = [] ∧ t.seqs = [] ∧ t.power.slotPower = false ∧ t.power.trip = false ∧ t.field = s.field ∧ t.bar.field = s.bar.field ∧ t.ns = s.ns)) ∧
  (∀ (s : State),
    s.power.slotPower = true →
    Does (.thermalTrip) s (fun t => t.power.trip = true ∧ t.power.tripped = true ∧ t.power.slotPower = false ∧ t.dram = [] ∧ t.models = [] ∧ t.field = s.field)) ∧
  (∀ (s : State) (sense : Nat) (auxOk : Bool),
    s.power.trip = true →
    Does (.hostPowerOn sense auxOk) s (fun t => t = s)) ∧
  (∀ (s : State) (p : Nat),
    s.power.slotPower = true →
    p < 6 →
    s.fget F.CNP_PORT_STATUS_STATE p = 3 →
    Does (.clockLoss (.canopy p)) s (fun t => t.fget F.CNP_PORT_STATUS_STATE p = (if s.cnp.running = true then 1 else 0) ∧ t.fget F.CNP_PORT_STATUS_KEY p = 0 ∧ t.fget F.CNP_PORT_PEER_VALID p = 0 ∧ t.cport p = .empty)) ∧
  (∀ (s : State),
    s.power.slotPower = true →
    Does (.clockLoss .pcie) s (fun t => t.power.linkUp = false ∧ t.dram = s.dram ∧ t.models = s.models)) ∧
  (∀ (s : State),
    s.power.slotPower = true →
    Does (.clockLoss .fabric) s (fun t => t.fget F.GLB_RST_CAUSE_CAUSE 0 = 3 ∧ t.models = [] ∧ t.field = s.field)) ∧
  (∀ (s : State),
    s.power.slotPower = true →
    Does (.clockLoss .dram) s (fun t => t.fget F.GLB_RST_CAUSE_CAUSE 0 = 3 ∧ t.models = [] ∧ t.field = s.field)) ∧
  (∀ (s : State),
    s.power.slotPower = true →
    s.fget F.GLB_THM_STATUS_STOPPING 0 = 0 →
    s.fget F.GLB_PWR_STATUS_STATE 0 ≠ 0 →
    Does (.clockLoss .housekeeping) s (fun t => t.power.stop = some (3, s.ns + s.fget F.GLB_THM_MISC_DRAIN 0 * 100000) ∧ t.fget F.GLB_THM_STATUS_STOPPING 0 = 1))

/-- Level 3 is withdrawn when its rise has stayed below half its threshold for 100 ms and no core is beyond the guardband,
and the array clock is nominal again (R427, R428); a level not in force is not withdrawn. The guardband of a core ends
once its sensors have stayed below the limit for 100 ms and the droop limit has cleared (R428). The overpower freeze
lifts once the mean has stayed below 290 W for 1 s (R415). GLB_THM_COMMIT applies the staged limits if they agree with
each other, and otherwise sets CFG_INVALID and applies none (R432). -/
def Obligations.thermal_control_acts : Prop :=
  (∀ (s : State),
    s.fget F.GLB_THM_STATUS_LEVEL 0 = 3 →
    s.fget F.GLB_THM_STATUS_STOPPING 0 = 0 →
    s.power.guard = [] →
    heldFor100 s.power.below 3 s.ns = true →
    Does (.thermalWithdraw 3) s (fun t => t.fget F.GLB_THM_STATUS_LEVEL 0 = 2 ∧ t.power.slow = false ∧ t.fget F.GLB_CLK_STATUS_GUARD 0 = 0 ∧ t.fget F.ADM_STATUS_FROZEN 0 = 1 ∧ t.power.suspended = [] ∧
        Counted C.GLB_THM_CNT_L2 0 1 s t)) ∧
  (∀ (s : State) (k : Nat),
    s.fget F.GLB_THM_STATUS_LEVEL 0 ≠ k →
    Does (.thermalWithdraw k) s (fun t => t = s)) ∧
  (∀ (s : State) (c : Nat),
    c ∈ s.power.guard →
    heldFor100 s.power.cool c s.ns = true →
    s.fget F.RST_STATUS_DROOP_LIMIT c = 0 →
    Does (.guardEnd c) s (fun t => t.power = { s.power with guard := s.power.guard.filter (fun x => x != c) } ∧
        t.fget F.GLB_THM_STATUS_GUARD_ANY 0 = (if s.power.guard.filter (fun x => x != c) = [] then 0 else 1))) ∧
  (∀ (s : State),
    s.power.overpower = true →
    s.power.coolPower ≠ 0 →
    s.power.coolPower + 1000000000 ≤ s.ns + 1 →
    Does (.overpowerClear) s (fun t => t.power = { s.power with overpower := false } ∧ t.fget F.ADM_STATUS_FROZEN 0 = (if 2 ≤ s.fget F.GLB_THM_STATUS_LEVEL 0 ∨ s.fget F.GLB_THM_STATUS_STOPPING 0 ≠ 0 then 1 else 0))) ∧
  (∀ (s : State) (r1 r2 r3 g st d dr : Nat),
    s.staging F.GLB_THM_RISE_RISE1 0 = r1 ∧ s.staging F.GLB_THM_RISE_RISE2 0 = r2 ∧ s.staging F.GLB_THM_RISE_RISE3 0 = r3 →
    s.staging F.GLB_THM_ABS_GUARD_C 0 = g ∧ s.staging F.GLB_THM_ABS_STOP_C 0 = st →
    s.staging F.GLB_THM_MISC_DRAM_STOP 0 = d ∧ s.staging F.GLB_THM_MISC_DRAIN 0 = dr →
    0 < r1 ∧ r1 < r2 ∧ r2 < r3 ∧ r3 < 256 →
    g < st ∧ st ≤ 1840 ∧ d ≤ 1600 ∧ dr ≤ 100 →
    Does (.glbThmCommit) s (fun t => t.fget F.GLB_THM_RISE_RISE1 0 = r1 ∧ t.fget F.GLB_THM_RISE_RISE2 0 = r2 ∧ t.fget F.GLB_THM_RISE_RISE3 0 = r3 ∧ t.fget F.GLB_THM_ABS_GUARD_C 0 = g ∧
        t.fget F.GLB_THM_ABS_STOP_C 0 = st ∧ t.fget F.GLB_THM_MISC_DRAM_STOP 0 = d ∧ t.fget F.GLB_THM_MISC_DRAIN 0 = dr ∧ t = { s with fields := t.fields })) ∧
  (∀ (s : State),
    s.staging F.GLB_THM_RISE_RISE2 0 ≤ s.staging F.GLB_THM_RISE_RISE1 0 ∨ 1840 < s.staging F.GLB_THM_ABS_STOP_C 0 ∨ 100 < s.staging F.GLB_THM_MISC_DRAIN 0 →
    Does (.glbThmCommit) s (fun t => t.fget F.GLB_THM_STATUS_CFG_INVALID 0 = 1 ∧ t = { s with fields := t.fields, events := t.events, out := t.out, mgmt := t.mgmt } ∧
        t.fget F.GLB_THM_RISE_RISE1 0 = s.fget F.GLB_THM_RISE_RISE1 0 ∧ t.fget F.GLB_THM_ABS_STOP_C 0 = s.fget F.GLB_THM_ABS_STOP_C 0)) ∧
  (∀ (s : State) (c : Nat),
    c < 32 →
    s.power.slotPower = true →
    s.stageOf c = none →
    s.fget F.CORE_STATUS_STATE c ≠ 4 →
    s.failing c true = true →
    s.rel.failovers = [] →
    Does (.clockLoss (.core c)) s (fun t => t.fget F.CORE_STATUS_STATE c = 4)) ∧
  (∀ (s : State),
    Does (.clockLoss .field) s (fun t => exec .fieldWatchdog s = .next t))

/-! ### Frames -/

/-- What each command may change. -/
def mayChange : Instr → List StatePart
  | .registerWrite .. | .counterClear .. | .regWrite .. =>
    allRegs ++ logParts ++ [.free, .staged, .latch, .lowHeld, .lastLog, .heldLog, .engines, .tiles, .rst, .cores,
      .seqs, .sram, .models, .fab, .dram, .items, .rings, .reads, .nextTag, .msix, .msixPending, .busMaster, .ats,
      .lanes, .bar, .hk, .cnp, .sync, .rel, .keep, .power]
  | .lowWordRead .. | .rcFieldRead .. =>
    allRegs ++ logParts ++ [.free, .latch, .readData, .lastLog, .heldLog, .hk]
  | .accessDiscarded .. =>
    logParts ++ [.regs .glb, .readData, .lastLog, .heldLog]
  | .bitPlaneCycle .. | .splitReplay .. =>
    logParts ++ [.regs .core, .regs .rst, .regs .eng, .regs .ring, .free, .lastLog, .heldLog, .engines, .cores,
      .rings]
  | .vectorComplete .. =>
    logParts ++ [.regs .epi, .regs .eng, .lastLog, .heldLog, .engines, .tiles]
  | .engCfgWrite .. =>
    logParts ++ [.regs .eng]
  | .calValidExpiry .. =>
    logParts ++ [.regs .eng, .regs .rel, .rel]
  | .transferSweep .. =>
    logParts ++ [.regs .epi, .lastLog, .heldLog, .tiles]
  | .drainSweep .. =>
    logParts ++ [.regs .epi, .regs .ring, .regs .rel, .free, .lastLog, .heldLog, .engines, .tiles, .cores, .seqs,
      .sram, .fab, .rings, .rel]
  | .sweepStart .. =>
    [.regs .rst, .engines, .rst]
  | .rowVisit .. =>
    logParts ++ [.regs .rst, .regs .mem, .regs .ring, .regs .adm, .regs .ctx, .regs .rel, .lastLog, .heldLog,
      .engines, .rst, .cores, .seqs, .fab, .items, .rings, .reads, .msixPending, .bar, .rel]
  | .sweepEnd .. =>
    logParts ++ [.regs .thm, .regs .rst, .regs .eng, .regs .ring, .regs .adm, .regs .ctx, .regs .rel, .engines, .rst,
      .cores, .seqs, .models, .fab, .items, .rings, .reads, .msixPending, .bar, .rel, .power]
  | .bulkLoad .. =>
    [.regs .core, .regs .rst, .regs .eng, .regs .keep, .engines, .rst, .fab, .rel]
  | .bulkLoadDone .. =>
    logParts ++ [.regs .core, .regs .epi, .regs .seq, .regs .rst, .regs .mem, .regs .ring, .regs .adm, .regs .ctx,
      .regs .rel, .regs .keep, .free, .engines, .tiles, .rst, .cores, .seqs, .models, .fab, .items, .rings, .reads,
      .msixPending, .bar, .rel, .keep]
  | .calibrationCycle .. =>
    [.free, .engines]
  | .calPassDone .. | .startupPass .. =>
    logParts ++ [.regs .core, .regs .rst, .regs .eng, .regs .rel, .free, .lastLog, .heldLog, .engines, .rst, .lanes,
      .rel]
  | .cellZeroDone .. =>
    logParts ++ [.regs .core, .regs .epi, .regs .seq, .regs .rst, .regs .eng, .regs .rel, .regs .keep, .free,
      .staged, .lastLog, .heldLog, .engines, .tiles, .rst, .cores, .seqs, .sram, .models, .fab, .dram, .lanes, .rel,
      .keep, .power]
  | .spareSubstitute .. | .unitRetire .. =>
    logParts ++ [.regs .core, .regs .rst, .regs .rel, .rst, .lanes, .rel]
  | .spareActivate .. =>
    logParts ++ [.regs .rst, .regs .rel, .rst, .rel]
  | .genVerifyDone .. =>
    logParts ++ [.regs .rst, .regs .ring, .regs .ctx, .regs .rel, .cores, .seqs, .models, .fab, .items, .rings,
      .reads, .msixPending, .bar, .rel]
  | .stageSwitchAdvance .. =>
    logParts ++ [.regs .core, .regs .epi, .regs .seq, .free, .engines, .tiles, .cores, .seqs, .models, .fab, .keep]
  | .oldPlacementRelease .. =>
    logParts ++ [.regs .core, .regs .seq, .regs .rst, .regs .eng, .regs .ring, .regs .rel, .regs .keep, .engines,
      .tiles, .rst, .cores, .seqs, .sram, .models, .fab, .dram, .rings, .msixPending, .rel, .keep]
  | .modelDigestForm .. =>
    [.models]
  | .rstCalPass .. =>
    [.engines]
  | .passportSnap .. | .passportRead .. =>
    logParts ++ [.regs .rel, .free, .engines, .rel]
  | .rstCommit .. =>
    logParts ++ [.regs .rst]
  | .coreStart .. =>
    logParts ++ [.regs .core, .regs .epi, .regs .seq, .free, .engines, .tiles, .cores, .seqs, .keep]
  | .coreStop .. | .coreHalt .. =>
    logParts ++ [.regs .core, .cores]
  | .coreResume .. | .coreVectorBoundary .. =>
    [.regs .core, .cores]
  | .coreStep .. =>
    [.cores]
  | .cadenceSlot .. =>
    logParts ++ [.regs .core, .regs .epi, .regs .eng, .lastLog, .heldLog, .engines, .tiles, .cores]
  | .bankSwitch .. =>
    logParts ++ [.regs .core, .regs .ring, .regs .adm, .cores, .rings, .msixPending, .lanes]
  | .cadCfgWrite .. | .debugEnter .. =>
    logParts ++ [.regs .core]
  | .scratchRowExpire .. =>
    [.regs .core, .engines, .cores]
  | .sramScrub .. =>
    logParts ++ [.regs .core, .regs .epi, .regs .rst, .regs .hif, .regs .ring, .regs .ctx, .regs .rel, .lastLog,
      .heldLog, .engines, .tiles, .rst, .cores, .seqs, .sram, .models, .fab, .items, .rings, .reads, .nextTag,
      .msixPending, .lanes, .bar, .rel]
  | .chunkFetchDone .. =>
    logParts ++ [.regs .epi, .regs .ring, .lastLog, .heldLog, .tiles, .cores, .seqs, .sram, .items, .rings]
  | .debugExit .. =>
    [.regs .core]
  | .vecEntry .. =>
    logParts ++ [.regs .epi, .regs .seq, .regs .rel, .engines, .tiles, .cores, .seqs, .fab, .items, .rel]
  | .itemEntry .. =>
    [.seqs]
  | .seqNop .. | .seta .. | .adda .. | .loop .. | .fence .. =>
    logParts ++ [.cores, .seqs]
  | .endEntry .. =>
    logParts ++ [.regs .seq, .regs .ring, .regs .ctx, .cores, .seqs, .fab, .items, .rings, .reads, .msixPending,
      .bar]
  | .issue .. =>
    logParts ++ [.regs .core, .lastLog, .heldLog, .engines, .cores, .seqs, .fab]
  | .drain .. =>
    [.regs .epi, .tiles, .seqs]
  | .send .. =>
    logParts ++ [.regs .core, .cores, .seqs, .sram, .fab]
  | .sendEmit .. =>
    logParts ++ [.cores, .seqs, .sram, .fab]
  | .scrw .. | .outh .. =>
    logParts ++ [.regs .core, .cores, .seqs]
  | .vop .. =>
    logParts ++ [.regs .core, .free, .cores, .seqs, .sram]
  | .fetch .. =>
    logParts ++ [.cores, .seqs, .fab, .reads, .nextTag]
  | .wback .. | .signal .. =>
    logParts ++ [.cores, .seqs, .fab]
  | .waitc .. =>
    logParts ++ [.regs .sync, .regs .syncCtl, .cores, .seqs, .fab, .sync]
  | .verdict .. =>
    logParts ++ [.regs .seq, .regs .ring, .regs .adm, .regs .ctx, .lastLog, .heldLog, .cores, .seqs, .items, .rings,
      .msixPending, .bar]
  | .sqDoorbell .. =>
    logParts ++ [.regs .hif, .regs .ring, .lastLog, .heldLog]
  | .cqDoorbell .. =>
    [.regs .hif, .regs .ring, .rings]
  | .descriptorTake .. =>
    [.regs .ring, .out, .rings, .reads, .nextTag, .lanes]
  | .item .. =>
    logParts ++ [.regs .ring, .regs .ctx, .items, .rings, .reads, .nextTag, .msixPending, .lanes, .bar]
  | .nop .. | .areaRead .. | .peerWindow .. =>
    [.regs .ring, .out, .rings, .msixPending]
  | .areaWrite .. =>
    [.regs .ring, .out, .models, .fab, .dram, .rings, .msixPending]
  | .load .. =>
    logParts ++ [.regs .core, .regs .seq, .regs .rst, .regs .eng, .regs .mem, .regs .ring, .regs .sync, .regs .rel,
      .regs .keep, .free, .engines, .rst, .cores, .seqs, .sram, .models, .fab, .dram, .rings, .msixPending, .rel,
      .keep]
  | .loadComplete .. =>
    logParts ++ [.regs .core, .regs .epi, .regs .seq, .regs .rst, .regs .mem, .regs .ring, .regs .sync, .regs
      .syncCtl, .regs .keep, .free, .engines, .tiles, .rst, .cores, .seqs, .models, .fab, .rings, .msixPending,
      .sync, .keep]
  | .unload .. =>
    logParts ++ [.regs .core, .regs .seq, .regs .rst, .regs .mem, .regs .ring, .regs .sync, .regs .syncCtl, .regs
      .keep, .engines, .tiles, .rst, .cores, .seqs, .models, .fab, .rings, .msixPending, .sync, .keep]
  | .admitLane .. =>
    logParts ++ [.regs .core, .regs .hif, .regs .ring, .regs .adm, .lastLog, .heldLog, .cores, .fab, .rings,
      .msixPending, .lanes, .bar]
  | .release .. =>
    [.regs .ring, .regs .adm, .out, .fab, .rings, .reads, .nextTag, .msixPending, .lanes]
  | .releaseComplete .. =>
    logParts ++ [.regs .core, .regs .ring, .regs .adm, .regs .ctx, .lastLog, .heldLog, .cores, .seqs, .fab, .items,
      .rings, .reads, .msixPending, .lanes, .bar]
  | .suspend .. =>
    logParts ++ [.regs .ring, .regs .adm, .items, .rings, .msixPending, .bar]
  | .resume .. =>
    logParts ++ [.regs .ring, .regs .adm, .rings, .msixPending, .bar]
  | .switch .. =>
    logParts ++ [.regs .core, .regs .seq, .regs .rst, .regs .eng, .regs .ring, .regs .rel, .regs .keep, .engines,
      .cores, .seqs, .sram, .models, .fab, .dram, .rings, .msixPending, .rel, .keep]
  | .bind .. =>
    [.regs .ring, .out, .rings, .msixPending, .lanes]
  | .areaFree .. =>
    [.regs .ring, .out, .models, .fab, .rings, .msixPending]
  | .descriptorReadFail .. | .hostReadFail .. =>
    logParts ++ [.regs .epi, .regs .hif, .regs .ring, .regs .ctx, .engines, .tiles, .cores, .seqs, .fab, .items,
      .rings, .reads, .msixPending, .bar]
  | .slowRead .. =>
    logParts ++ [.regs .hif, .lastLog, .heldLog, .items]
  | .irqModTimer .. =>
    [.out, .rings, .msixPending]
  | .atsInvalidate .. =>
    logParts ++ [.regs .hif, .regs .ring, .regs .ctx, .cores, .seqs, .fab, .items, .rings, .reads, .msixPending,
      .bar]
  | .vfFlr .. =>
    logParts ++ [.regs .core, .regs .seq, .regs .rst, .regs .mem, .regs .ring, .regs .adm, .regs .ctx, .regs .sync,
      .regs .syncCtl, .regs .keep, .staged, .lastLog, .heldLog, .engines, .tiles, .rst, .cores, .seqs, .models, .fab,
      .items, .rings, .reads, .nextTag, .msix, .msixPending, .busMaster, .ats, .lanes, .bar, .sync, .keep]
  | .pfFlr .. =>
    logParts ++ [.regs .core, .regs .ring, .regs .adm, .regs .keep, .staged, .items, .rings, .reads, .msix,
      .msixPending, .busMaster, .ats, .lanes, .bar, .keep]
  | .busMasterEnable .. =>
    logParts ++ [.regs .hif, .regs .ring, .regs .ctx, .cores, .seqs, .fab, .items, .rings, .reads, .msixPending,
      .busMaster, .bar]
  | .ringStart .. =>
    logParts ++ [.regs .ring, .rings]
  | .ringStop .. =>
    [.regs .ring]
  | .ringStopped .. =>
    logParts ++ [.regs .ring]
  | .ringCommit .. =>
    logParts ++ [.regs .ring, .rings, .msixPending]
  | .linkRetrain .. =>
    logParts ++ [.regs .hif, .regs .adm, .items]
  | .itemLookup .. =>
    [.regs .item]
  | .hostReadCompletion .. =>
    logParts ++ [.regs .hif, .regs .ring, .lastLog, .heldLog, .cores, .sram, .fab, .items, .rings, .reads,
      .msixPending]
  | .firstPacketTake .. =>
    logParts ++ [.regs .ctx, .cores, .sram, .fab, .items, .lanes, .bar]
  | .vectorPacket .. =>
    logParts ++ [.regs .fab, .lastLog, .heldLog, .cores, .sram, .fab, .items, .lanes, .rel]
  | .kpartPacket .. =>
    logParts ++ [.regs .epi, .regs .fab, .regs .rel, .engines, .tiles, .cores, .seqs, .sram, .fab, .items, .rel]
  | .exitPart .. =>
    logParts ++ [.regs .epi, .regs .fab, .regs .rel, .lastLog, .heldLog, .engines, .tiles, .cores, .seqs, .sram,
      .fab, .items, .rel]
  | .groupTransfer .. =>
    logParts ++ [.regs .epi, .regs .fab, .regs .rel, .lastLog, .heldLog, .engines, .tiles, .cores, .seqs, .fab,
      .items, .rel]
  | .epochClose .. =>
    logParts ++ [.regs .fab, .fab]
  | .memoryRead .. =>
    logParts ++ [.regs .fab, .regs .mem, .lastLog, .heldLog, .fab]
  | .memoryWrite .. =>
    logParts ++ [.regs .fab, .regs .mem, .fab, .dram]
  | .readData .. =>
    logParts ++ [.regs .epi, .regs .fab, .regs .ring, .regs .rel, .engines, .tiles, .cores, .seqs, .sram, .fab,
      .items, .rings, .rel]
  | .receipt .. | .receiptTimeout .. | .cnpReceiptTimeout .. =>
    logParts ++ [.regs .epi, .regs .rst, .regs .fab, .regs .ring, .regs .adm, .regs .ctx, .regs .rel, .engines,
      .tiles, .cores, .seqs, .sram, .fab, .dram, .items, .rings, .reads, .msixPending, .bar, .rel]
  | .patrolScrub .. =>
    logParts ++ [.regs .epi, .regs .rst, .regs .mem, .regs .ring, .regs .adm, .regs .ctx, .regs .rel, .lastLog,
      .heldLog, .engines, .tiles, .cores, .seqs, .sram, .fab, .dram, .items, .rings, .reads, .msixPending, .bar,
      .rel]
  | .dramRound .. =>
    [.free, .fab]
  | .fabCommit .. =>
    logParts ++ [.regs .fab]
  | .cnpStart .. | .cnpStop .. | .keyConfirm .. | .fenceRetry .. | .portDown .. | .moduleFault .. =>
    logParts ++ [.regs .cnp, .cnp]
  | .portTrained .. =>
    [.out, .cnp]
  | .initFrame .. =>
    logParts ++ [.regs .cnp, .free, .cnp]
  | .keyOffer .. | .keyRenewal .. =>
    [.free, .out, .cnp]
  | .cnpFrameRx .. =>
    logParts ++ [.regs .cnp, .regs .rel, .lastLog, .heldLog, .fab, .cnp, .rel]
  | .cnpAckTimeout .. =>
    [.regs .cnp, .out, .cnp]
  | .add .. | .claim .. | .waitGe .. =>
    logParts ++ [.regs .fab, .regs .sync, .regs .syncCtl, .lastLog, .heldLog, .cores, .seqs, .fab, .sync]
  | .peek .. =>
    logParts ++ [.regs .fab, .regs .syncCtl, .lastLog, .heldLog, .fab]
  | .cnpRetraction .. =>
    logParts ++ [.regs .ring, .regs .ctx, .regs .rel, .cores, .seqs, .fab, .items, .rings, .reads, .msixPending,
      .bar, .rel]
  | .modelDigestPacket .. =>
    logParts ++ [.regs .cnp, .models, .fab]
  | .modelDigestTimer .. =>
    [.fab, .cnp]
  | .bindingQuery .. | .itemCredit .. =>
    [.fab, .lanes]
  | .bindingReply .. =>
    logParts ++ [.regs .core, .regs .ring, .regs .adm, .cores, .models, .fab, .rings, .msixPending, .lanes, .bar]
  | .bindingTimeout .. =>
    logParts ++ [.regs .ring, .regs .adm, .rings, .msixPending, .lanes]
  | .bindingEnd .. =>
    logParts ++ [.regs .adm, .fab, .lanes]
  | .dwellEnd .. =>
    logParts ++ [.regs .core, .regs .rel, .rel]
  | .sampleCompare .. =>
    logParts ++ [.regs .core, .regs .epi, .regs .rst, .regs .eng, .regs .rel, .free, .lastLog, .heldLog, .engines,
      .tiles, .cores, .rel]
  | .checkRerun .. =>
    logParts ++ [.regs .core, .regs .epi, .regs .rst, .regs .eng, .regs .ring, .regs .ctx, .regs .rel, .free,
      .lastLog, .heldLog, .engines, .tiles, .rst, .cores, .seqs, .fab, .items, .rings, .reads, .msixPending, .lanes,
      .bar, .rel]
  | .katRun .. =>
    logParts ++ [.regs .core, .regs .rst, .regs .ring, .regs .ctx, .regs .rel, .rst, .cores, .seqs, .fab, .items,
      .rings, .reads, .msixPending, .lanes, .bar, .rel]
  | .katNow .. =>
    [.rel]
  | .rangeWindow .. =>
    logParts ++ [.regs .ring, .regs .ctx, .regs .rel, .lastLog, .heldLog, .cores, .seqs, .fab, .items, .rings,
      .reads, .msixPending, .bar, .rel]
  | .coreFailed .. =>
    logParts ++ [.regs .core, .regs .seq, .regs .rst, .regs .eng, .regs .adm, .regs .rel, .regs .keep, .engines,
      .rst, .cores, .seqs, .sram, .models, .fab, .dram, .items, .reads, .lanes, .bar, .rel, .keep]
  | .failoverJoin .. =>
    logParts ++ [.regs .core, .regs .epi, .regs .seq, .regs .rst, .regs .eng, .regs .fab, .regs .hif, .regs .ring,
      .regs .adm, .regs .ctx, .regs .rel, .regs .keep, .free, .engines, .tiles, .rst, .cores, .seqs, .sram, .models,
      .fab, .dram, .items, .rings, .reads, .nextTag, .msixPending, .lanes, .bar, .rel, .keep]
  | .repairDone .. =>
    logParts ++ [.regs .rst, .regs .ring, .regs .adm, .regs .ctx, .regs .rel, .cores, .seqs, .fab, .dram, .items,
      .rings, .reads, .msixPending, .bar, .rel]
  | .modelVerifyDone .. =>
    logParts ++ [.regs .rst, .regs .ring, .regs .adm, .regs .ctx, .regs .rel, .cores, .seqs, .models, .fab, .items,
      .rings, .reads, .msixPending, .bar, .rel]
  | .relCommit .. =>
    logParts ++ [.regs .rel]
  | .ctxDefine .. | .ctxEnroll .. | .ctxRevoke .. | .ctxSwap .. | .ctxDestroy .. | .attest .. | .keyRotate ..
    | .relRead .. | .keyRelease .. | .certRead .. | .keepCmd .. =>
    logParts ++ [.regs .core, .regs .seq, .regs .rst, .regs .eng, .regs .mem, .regs .ring, .regs .adm, .regs .ctx,
      .regs .sync, .regs .syncCtl, .regs .rel, .regs .keep, .free, .lastLog, .heldLog, .engines, .tiles, .rst,
      .cores, .seqs, .sram, .models, .fab, .dram, .items, .rings, .reads, .nextTag, .msixPending, .lanes, .bar,
      .sync, .rel, .keep]
  | .releaseTimeout .. =>
    logParts ++ [.regs .ring, .rings, .msixPending, .keep]
  | .rotationTimer .. =>
    [.regs .keep, .keep]
  | .rotationDone .. =>
    logParts ++ [.regs .keep, .fab, .keep]
  | .pageScrubDone .. =>
    logParts ++ [.regs .core, .regs .keep, .fab, .dram, .keep]
  | .frameBoundary .. =>
    logParts ++ [.regs .core, .regs .epi, .regs .seq, .regs .rst, .regs .eng, .regs .mem, .regs .ring, .regs .adm,
      .regs .ctx, .regs .rel, .regs .keep, .free, .engines, .tiles, .rst, .cores, .seqs, .sram, .models, .fab, .dram,
      .items, .rings, .reads, .msixPending, .bar, .rel, .keep]
  | .decayCertified .. =>
    logParts ++ [.regs .core, .regs .seq, .regs .rst, .regs .eng, .regs .mem, .regs .ring, .regs .adm, .regs .ctx,
      .regs .rel, .regs .keep, .engines, .cores, .seqs, .sram, .models, .fab, .dram, .items, .rings, .reads,
      .msixPending, .bar, .rel, .keep]
  | .decayTimeout .. =>
    logParts ++ [.regs .core, .regs .seq, .regs .rst, .regs .eng, .regs .mem, .regs .ring, .regs .adm, .regs .ctx,
      .regs .rel, .regs .keep, .engines, .rst, .cores, .seqs, .sram, .models, .fab, .dram, .items, .rings, .reads,
      .msixPending, .lanes, .bar, .rel, .keep]
  | .settlingEnd .. | .attestTimeout .. | .getMeasurements .. =>
    [.regs .keep, .out, .keep]
  | .stopInterface .. =>
    logParts ++ [.regs .core, .regs .seq, .regs .rst, .regs .mem, .regs .ring, .regs .adm, .regs .ctx, .regs .sync,
      .regs .syncCtl, .regs .keep, .lastLog, .heldLog, .engines, .tiles, .rst, .cores, .seqs, .models, .fab, .items,
      .rings, .reads, .nextTag, .msixPending, .lanes, .bar, .sync, .keep]
  | .tdiError .. | .fwActivate .. =>
    logParts ++ [.regs .core, .regs .adm, .regs .keep, .items, .bar, .keep]
  | .keepCommit .. =>
    logParts ++ [.regs .keep]
  | .lockInterface .. | .startInterface .. =>
    [.regs .core, .regs .keep, .keep]
  | .barrierLinkUp .. =>
    logParts ++ [.regs .gw, .regs .fld, .bar, .field]
  | .barrierLinkDown .. =>
    logParts ++ [.regs .keep, .regs .gw, .lastLog, .heldLog, .bar, .keep]
  | .barrierFrameRx .. =>
    logParts ++ [.regs .adm, .regs .ctx, .regs .keep, .regs .gw, .regs .fld, .lastLog, .heldLog, .items, .bar, .keep]
  | .barrierRetxTimeout .. | .heartbeat .. =>
    [.bar]
  | .heartbeatTimer .. | .hostPresent .. | .verdictMsg .. | .retraction .. | .setpointGpo .. | .firmwareCommand ..
    | .triggerEdge .. | .encoderFault .. | .encoderFaultClear .. | .cutoffReached .. | .laneEnable ..
    | .laneDisable .. =>
    [.regs .fld, .bar, .field]
  | .hostLost .. | .openLoop .. =>
    [.regs .fld, .regs .fdac, .bar, .field]
  | .fieldLost .. =>
    logParts ++ [.regs .adm, .regs .ctx, .regs .rel, .regs .gw, .items, .bar, .rel]
  | .itemCreated .. =>
    logParts ++ [.regs .ctx, .lastLog, .heldLog, .items, .bar]
  | .setpointAnalogue .. =>
    [.regs .fdac, .bar, .field]
  | .adcReport .. =>
    logParts ++ [.regs .hk, .free, .lastLog, .heldLog, .bar, .hk]
  | .stateMsg .. =>
    logParts ++ [.regs .adm, .regs .ctx, .regs .rel, .regs .keep, .regs .gw, .regs .fld, .regs .fdac, .items, .bar,
      .field, .rel, .keep]
  | .retractionResult .. =>
    logParts ++ [.regs .rel, .bar, .rel]
  | .fieldEventMsg .. | .fwStage .. =>
    logParts ++ [.bar]
  | .positionsMsg .. =>
    logParts ++ [.regs .ctx, .items, .bar]
  | .configWrite .. =>
    allRegs ++ [.staged, .fab, .bar, .field]
  | .configReadReply .. | .proxyRead .. | .proxyReadTimeout .. =>
    logParts ++ [.regs .core, .regs .ring, .regs .adm, .regs .gw, .readData, .cores, .rings, .msixPending, .lanes,
      .bar]
  | .firmwareData .. =>
    [.bar, .field]
  | .firmwareResult .. | .fwCommit .. =>
    logParts ++ [.regs .keep, .bar, .keep]
  | .fieldBrownout .. | .frstNAssert .. | .fieldWatchdog .. | .fwReadyTimeout .. =>
    logParts ++ [.regs .keep, .regs .gw, .regs .fld, .regs .fadc, .regs .fdac, .staged, .lastLog, .heldLog, .bar,
      .field, .keep]
  | .fieldBrownoutEnd .. | .frstNRelease .. =>
    [.regs .gw, .field]
  | .fieldReady .. =>
    [.regs .fld, .regs .fadc, .regs .fdac, .bar, .field]
  | .rejectOn .. | .rejectOff .. | .maxOnExpiry .. | .recordFree .. | .vpWriteAck .. | .spiAck .. =>
    [.regs .fld, .field]
  | .spiRead .. =>
    [.out]
  | .proxyWrite .. =>
    logParts ++ [.regs .adm, .regs .gw, .lastLog, .heldLog, .items, .bar]
  | .fldGwCommit .. =>
    [.regs .gw]
  | .fldCommit .. | .nvWriteDone .. | .calStore .. | .fdacCommit .. =>
    [.regs .fld, .regs .fadc, .regs .fdac, .field]
  | .fadcStart .. | .fadcCal .. | .entryResult .. =>
    [.regs .fld, .regs .fadc, .bar, .field]
  | .fadcStop .. | .fadcCommit .. =>
    [.regs .fadc, .field]
  | .fadcCalDone .. =>
    [.regs .fld, .regs .fadc, .free, .bar, .field]
  | .monitorReport .. =>
    [.regs .fld, .bar]
  | .fdacSet .. | .updateApply .. | .deglitchHoldEnd .. | .spanSwitch .. | .spanChangeEnd .. =>
    [.regs .fdac, .field]
  | .openLoopClear .. =>
    [.regs .fdac]
  | .hkEntryResult .. =>
    logParts ++ [.regs .thm, .regs .core, .regs .rst, .regs .eng, .regs .adm, .regs .rel, .regs .keep, .regs .hk,
      .free, .lastLog, .heldLog, .rst, .items, .bar, .hk, .rel, .keep, .power]
  | .hkCommit .. =>
    [.regs .hk]
  | .hkAospSend .. =>
    [.bar, .hk]
  | .fieldTempLost .. =>
    logParts ++ [.regs .hk]
  | .hostPowerOn .. =>
    logParts ++ [.regs .thm, .regs .core, .regs .keep, .regs .gw, .free, .bar, .keep, .power, .bootNs]
  | .perstDeassert .. =>
    [.power]
  | .conventionalReset .. =>
    logParts ++ [.regs .core, .regs .hif, .regs .ring, .regs .adm, .regs .keep, .staged, .items, .rings, .reads,
      .msix, .msixPending, .busMaster, .ats, .lanes, .bar, .keep, .power]
  | .deviceReset .. | .mgtWatchdog .. =>
    logParts ++ [.regs .thm, .regs .core, .regs .epi, .regs .seq, .regs .rst, .regs .eng, .regs .mem, .regs .ring,
      .regs .adm, .regs .ctx, .regs .sync, .regs .rel, .regs .keep, .free, .staged, .latch, .lowHeld, .engines,
      .tiles, .rst, .cores, .seqs, .sram, .models, .fab, .dram, .items, .rings, .reads, .msix, .msixPending,
      .busMaster, .ats, .lanes, .bar, .sync, .rel, .keep, .power]
  | .coreReset .. =>
    logParts ++ [.regs .thm, .regs .core, .regs .epi, .regs .seq, .regs .rst, .regs .eng, .regs .rel, .regs .keep,
      .free, .staged, .lastLog, .heldLog, .engines, .tiles, .rst, .cores, .seqs, .sram, .models, .fab, .dram, .lanes,
      .rel, .keep, .power]
  | .stopCommand .. | .auxSupplyFail .. | .housekeepingStale .. =>
    logParts ++ [.regs .thm, .regs .adm, .items, .bar, .power]
  | .drainEnd .. =>
    logParts ++ [.regs .thm, .regs .core, .regs .eng, .regs .ring, .regs .ctx, .engines, .tiles, .rst, .cores, .seqs,
      .sram, .fab, .items, .rings, .reads, .msixPending, .bar, .rel, .power]
  | .clockLoss .. =>
    allRegs ++ logParts ++ [.free, .staged, .latch, .lowHeld, .lastLog, .heldLog, .engines, .tiles, .rst, .cores,
      .seqs, .sram, .models, .fab, .dram, .items, .rings, .reads, .msix, .msixPending, .busMaster, .ats, .lanes,
      .bar, .field, .hk, .cnp, .sync, .rel, .keep, .power, .bootNs]
  | .thermalWithdraw .. =>
    logParts ++ [.regs .thm, .regs .adm, .rst, .power]
  | .guardEnd .. =>
    logParts ++ [.regs .thm, .regs .eng, .power]
  | .thermalTrip .. | .hostPowerLoss .. =>
    logParts ++ [.regs .glb, .regs .thm, .regs .core, .regs .epi, .regs .seq, .regs .rst, .regs .eng, .regs .fab,
      .regs .mem, .regs .hif, .regs .ring, .regs .adm, .regs .ctx, .regs .item, .regs .cnp, .regs .sync, .regs
      .syncCtl, .regs .rel, .regs .keep, .regs .hk, .regs .gw, .regs .vf, .staged, .latch, .lowHeld, .lastLog,
      .heldLog, .engines, .tiles, .rst, .cores, .seqs, .sram, .models, .fab, .dram, .items, .rings, .reads, .msix,
      .msixPending, .busMaster, .ats, .lanes, .bar, .hk, .cnp, .sync, .rel, .keep, .power]
  | .overpowerClear .. =>
    [.regs .adm, .power]
  | .glbThmCommit .. =>
    logParts ++ [.regs .thm]
  | .cnpCommit .. =>
    logParts ++ [.regs .cnp]
  | .recoveryImage .. | .sessionIdleTimeout .. =>
    [.regs .mgt, .mgmt]
  | .sessionHandshake .. =>
    logParts ++ [.free, .lastLog, .heldLog]
  | .telemetryTimer .. =>
    [.free, .out, .mgmt, .hk]
  | .fwReady .. =>
    logParts ++ [.regs .core, .regs .epi, .regs .seq, .regs .rst, .regs .eng, .regs .mem, .regs .ring, .regs .adm,
      .regs .ctx, .regs .sync, .regs .syncCtl, .regs .rel, .regs .keep, .regs .fld, .regs .fadc, .regs .fdac, .free,
      .staged, .lastLog, .heldLog, .engines, .tiles, .rst, .cores, .seqs, .sram, .models, .fab, .dram, .items,
      .rings, .reads, .nextTag, .msixPending, .lanes, .bar, .field, .sync, .rel, .keep]
  | .fwHoldTimeout .. =>
    [.regs .mgt, .regs .keep, .mgmt, .bar, .keep]
  | .retestDone .. =>
    logParts ++ [.regs .core, .regs .seq, .regs .rst, .regs .eng, .regs .rel, .regs .keep, .free, .lastLog, .heldLog,
      .engines, .rst, .cores, .seqs, .sram, .models, .fab, .dram, .lanes, .rel, .keep]
  | .mgtCommit .. | .claimModule .. | .subscribe .. =>
    logParts
  | .hello .. | .eventAck .. | .faultAck .. | .telemetryCfg .. | .peerList .. | .anchorSet .. | .timeSet ..
    | .configExport .. =>
    [.regs .mgt, .out, .mgmt]
  | .regRead .. =>
    allRegs ++ logParts ++ [.free, .latch, .readData, .lastLog, .heldLog, .cores, .rings, .msixPending, .lanes, .bar,
      .hk]
  | .ringCmd .. =>
    logParts ++ [.regs .hif, .regs .ring, .lastLog, .heldLog, .rings, .msixPending]
  | .fwRollback .. =>
    [.regs .mgt, .regs .keep, .out, .mgmt, .bar, .keep]
  | .unitRetest .. =>
    [.regs .mgt, .regs .core, .out, .mgmt]
  | .unitRecal .. =>
    [.regs .mgt, .out, .engines, .mgmt]
  | .repair .. =>
    [.regs .mgt, .out, .models, .mgmt, .rel]
  | .configImport .. =>
    allRegs ++ logParts ++ [.staged, .items, .bar, .field]

/-- For every command and every state, a command that answers a next state changes only the register blocks and the
components that mayChange lists for it; every register of another block reads as before, every other component is
equal, and neither the queue nor the time changes. -/
def Obligations.every_command_changes_only_its_parts : Prop :=
  ∀ (c : Instr) (s t : State), exec c s = .next t → ChangesOnly (mayChange c) s t

/-! ### Rules stated whole -/

/-- CQ_DOORBELL with H, for every ring: when (H − CQ_HEAD) mod 2^32 is at most (CQ_TAIL − CQ_HEAD) mod 2^32, CQ_HEAD
becomes H, nothing else but the completions waiting for a message changes, and the take conditions of R238 see the new
head at once; otherwise CQ_HEAD and everything else keeps its value but for RING_STATUS.CQH_BAD, which is set, and
HIF_CNT_DB_BAD, which counts. -/
def Obligations.head_doorbells_are_accepted_or_ignored : Prop :=
  (∀ (s : State) (f r v : Nat),
    ringExists f r = true →
    cntDiff (v % 2 ^ 32) (s.fget F.RING_CQ_HEAD_COUNT (ringKey f r)) ≤ cntDiff (s.fget F.RING_CQ_TAIL_COUNT (ringKey f r)) (s.fget F.RING_CQ_HEAD_COUNT (ringKey f r)) →
    Does (.cqDoorbell f r v) s (fun t => t.fget F.RING_CQ_HEAD_COUNT (ringKey f r) = v % 2 ^ 32 ∧ (t.ring (ringKey f r)).irq = irqAfter (s.ring (ringKey f r)).irq (v % 2 ^ 32) ∧
        OnlyFields [(F.RING_CQ_HEAD_COUNT, ringKey f r)] { s with rings := t.rings } t ∧
        (t.mayTake f (ringKey f r) = true ↔ (s.fset F.RING_CQ_HEAD_COUNT (ringKey f r) v).mayTake f (ringKey f r) = true))) ∧
  (∀ (s : State) (f r v : Nat),
    ringExists f r = true →
    cntDiff (s.fget F.RING_CQ_TAIL_COUNT (ringKey f r)) (s.fget F.RING_CQ_HEAD_COUNT (ringKey f r)) < cntDiff (v % 2 ^ 32) (s.fget F.RING_CQ_HEAD_COUNT (ringKey f r)) →
    Does (.cqDoorbell f r v) s (fun t => t.fget F.RING_STATUS_CQH_BAD (ringKey f r) = 1 ∧ Counted C.HIF_CNT_DB_BAD 0 1 s t ∧
        OnlyFields [(F.RING_STATUS_CQH_BAD, ringKey f r), (F.HIF_CNT_DB_BAD_COUNT, 0)] s t))

/-- An ADD that carries a counter beyond 0xFFFF_FFFF leaves it there, sets SYNC_WAIT.OVF and SYNC_STATUS.OVF_SEEN and
counts in SYNC_CNT_OVERFLOW; EVT_SYNC_OVERFLOW is logged where none was for that counter in the millisecond before,
and is held back otherwise. (For a counter on which nothing waits; R325 says what a wait adds.) -/
def Obligations.an_add_beyond_the_end_holds_there : Prop :=
  (∀ (s : State) (k i : Nat) (p : Packet) (o : CtrOp),
    s.packet k = some p →
    k < s.fab.nextKey →
    p.typ = .signal →
    s.behindSends p = false →
    ctrOp p.payload = o →
    o.op = 1 →
    o.ok = true →
    p.retx = false →
    ctrOf (s.blockOf p) p.src o = .inr i →
    s.waitsOf i = [] →
    0xFFFFFFFF < s.ctr i + o.operand →
    Does (.add ⟨k, .none⟩) s (fun t => t.ctr i = 0xFFFFFFFF ∧ t.fget F.SYNC_WAIT_OVF i = 1 ∧ t.fget F.SYNC_STATUS_OVF_SEEN 0 = 1 ∧ Counted C.SYNC_CNT_OVERFLOW 0 1 s t ∧
        ((Tab.find s.lastLog (Nat.pair 0x1301 i)).all (fun (x : Nat) => decide (x + 1000000 ≤ s.ns)) = true →
          (Tab.find t.events (s.fget F.MGT_EVT_HEAD_NEXT 0 % 262144)).map (fun (e : EventRec) => (e.code, e.argA)) = some (0x1301, i % 65536)) ∧
        ((Tab.find s.lastLog (Nat.pair 0x1301 i)).any (fun (x : Nat) => decide (s.ns < x + 1000000)) = true → t.events = s.events)))

/-- Every BAR0 register lies at a multiple of 4 and its fields within 32 bits (of a VF's MSI-X structures in its BAR0,
which are no registers, R443 says what they take). A BAR0 access of another size or alignment completes: a read
returns 0, a write changes no register that software writes and stages nothing, and the access is counted in
GLB_ACC_CNT. -/
def Obligations.other_sizes_and_alignments_are_discarded : Prop :=
  (∀ (r : Reg),
    r ∈ Reg.all →
    r.off % 4 = 0 ∧ ∀ f ∈ r.flds, f.reg = r.off ∧ f.lo + f.width ≤ 32) ∧
  (∀ (s : State) (a : Access),
    s.reached a = true →
    a.bar = 0 →
    accMsix a = none →
    a.size ≠ 4 ∨ a.off % 4 ≠ 0 →
    Does (.accessDiscarded a) s (fun t => t.readData = (if a.write = true then s.readData else [0]) ∧ Counted accCtr 0 1 s t ∧ t.staged = s.staged ∧
        ∀ r ∈ Reg.all, ∀ f ∈ r.flds, ∀ i : Nat, (f.acc = .rw ∨ f.acc = .rws ∨ f.acc = .stg ∨ f.acc = .wo) → t.fget f i = s.fget f i))

/-- A charge (with the converter's error, in 1/256 of a unit) above 255.5 units, that is 65,408 of those, converts to code
255 with the saturation flag; no other charge sets the flag. -/
def Obligations.conversions_saturate_above_their_range : Prop :=
  (∀ (charge : Nat) (err : Int),
    (65408 < (charge : Int) * 256 + err → convert charge err = (255, true)) ∧ ((charge : Int) * 256 + err ≤ 65408 → (convert charge err).2 = false))

/-! ### The machine as a whole -/

/-- From every state whose DRAM and SRAM are in canonical form (addresses strictly rising, no byte listed that reads as an
unlisted one does), every step that answers a next state, of a command or of a tick, leaves both in canonical form, so
that equal memories stay equal data (the form is the model's: assumption log 5). -/
def Obligations.every_step_keeps_the_memories_canonical : Prop :=
  ∀ s t : State, s.memWf = true → step s = .next t → t.memWf = true

/-- After reset every register field reads its reset value, but for HK_ENT_DATA, whose words hold the shipped table; the
memories are canonical and list nothing, no command waits, and neither section has power (the state before the first
power-up and the values of the internal registers are the model's choice: assumption log 3 and 4). -/
def Obligations.reset_holds_its_values : Prop :=
  (∀ (r : Reg),
    r ∈ Reg.all →
    r.off ≠ R.HK_ENT_DATA.off →
    ∀ f ∈ r.flds, ∀ i : Nat, State.reset.fget f i = f.reset) ∧
  (
    State.reset.memWf = true ∧ State.reset.dram = [] ∧ State.reset.sram = [] ∧ State.reset.pending = [] ∧ State.reset.power.slotPower = false ∧ State.reset.field.ready = false)

/-- The accesses that lie beyond the end of a memory: a scrub beyond a core's SRAM, and an undamaged request beyond DRAM. -/
def beyondMemory (s : State) : Instr → Bool
  | .sramScrub _ w _ => decide (sramSize ≤ w * 8)
  | .memoryRead ⟨k, none⟩ _ => (s.packet k).any (fun p => p.typ == .memRead && decide (dramSize < p.addr + p.len))
  | .memoryWrite k .none => (s.packet k).any (fun p => p.typ == .memWrite && decide (dramSize < p.addr + p.payload.length))
  | _ => false

/-- Every command of the table, for all its operands and in every state, completes: it answers a next state, which differs
from the state before only in the parts that mayChange lists for the command, with the same queue and at the same
time; but for an access that lies beyond the end of a memory, which faults: SRAM_SCRUB beyond a core's 6 MiB,
MEMORY_READ and MEMORY_WRITE of a request beyond the 48 GiB of DRAM (the fault is the model's: assumption log 5). No
command is refused in any state. -/
def Obligations.nothing_is_refused_and_only_memory_faults : Prop :=
  (∀ (c : Instr) (s : State), beyondMemory s c = false → Does c s (fun t => ChangesOnly (mayChange c) s t)) ∧
  (∀ (c : Instr) (s : State),
    (∀ r : Refusal, exec c s ≠ .refused r) ∧
    (∀ e : Fault, exec c s = .fault e →
      (∃ (k w : Nat) (x : EccErr), c = .sramScrub k w x ∧ sramSize ≤ w * 8 ∧ e = .sramAddress (w * 8)) ∨
      (∃ (k : Nat) (x : EccErr) (p : Packet), c = .memoryRead ⟨k, none⟩ x ∧ s.packet k = some p ∧ dramSize < p.addr + p.len ∧ e = .dramAddress p.addr) ∨
      (∃ (k : Nat) (p : Packet), c = .memoryWrite k .none ∧ s.packet k = some p ∧ dramSize < p.addr + p.payload.length ∧ e = .dramAddress p.addr)))
end

