-- ==== Sys2Proof/Laws/Tab.lean ====
section
/-! SUPPORT. What the tables and the memories do: reading after writing, and that every operation keeps the one
canonical form. -/

namespace Sys2Proof.Machine

variable {α β : Type}

/-! ### Tables -/

@[simp] theorem Tab.find_nil (n : Nat) : Tab.find ([] : Tab α) n = none := rfl

/-- A key reads what was just set under it. -/
@[simp] theorem Tab.find_set_self (t : Tab α) (n : Nat) (v : α) : Tab.find (Tab.set t n v) n = some v := by
  induction t with
  | nil => simp [Tab.set, Tab.find]
  | cons p r ih =>
    obtain ⟨k, w⟩ := p
    simp only [Tab.set]
    split
    · simp [Tab.find]
    · split
      · simp [Tab.find]
      · next h1 h2 => simp [Tab.find, ih, Ne.symm h2]

/-- Another key reads as before. -/
theorem Tab.find_set_ne (t : Tab α) {n m : Nat} (v : α) (h : m ≠ n) : Tab.find (Tab.set t n v) m = Tab.find t m := by
  induction t with
  | nil => simp [Tab.set, Tab.find, Ne.symm h]
  | cons p r ih =>
    obtain ⟨k, w⟩ := p
    simp only [Tab.set]
    split
    · simp [Tab.find, Ne.symm h]
    · split
      · next h1 h2 => subst h2; simp [Tab.find, Ne.symm h]
      · simp [Tab.find, ih]

theorem Tab.find_set (t : Tab α) (n m : Nat) (v : α) :
    Tab.find (Tab.set t n v) m = if m = n then some v else Tab.find t m := by
  split
  · next h => subst h; simp
  · next h => exact Tab.find_set_ne t v h

@[simp] theorem Tab.getD_set_self (t : Tab α) (n : Nat) (v d : α) : Tab.getD (Tab.set t n v) n d = v := by
  simp [Tab.getD]

theorem Tab.getD_set_ne (t : Tab α) {n m : Nat} (v d : α) (h : m ≠ n) :
    Tab.getD (Tab.set t n v) m d = Tab.getD t m d := by
  simp [Tab.getD, Tab.find_set_ne t v h]

/-- An erased key is not listed. -/
@[simp] theorem Tab.find_erase_self (t : Tab α) (n : Nat) : Tab.find (Tab.erase t n) n = none := by
  induction t with
  | nil => rfl
  | cons p r ih =>
    obtain ⟨k, w⟩ := p
    by_cases h : k = n
    · simp only [Tab.erase, List.filter, h, bne_self_eq_false]; exact ih
    · have h' : (k != n) = true := by simpa using h
      simp only [Tab.erase, List.filter, h', Tab.find, h, if_false]; exact ih

theorem Tab.find_erase_ne (t : Tab α) {n m : Nat} (h : m ≠ n) : Tab.find (Tab.erase t n) m = Tab.find t m := by
  induction t with
  | nil => rfl
  | cons p r ih =>
    obtain ⟨k, w⟩ := p
    by_cases hk : k = n
    · have : (k != n) = false := by simp [hk]
      simp only [Tab.erase, List.filter, this]
      have hm : ¬ k = m := fun e => h (by rw [← e, hk])
      simp only [Tab.find, hm, if_false]; exact ih
    · have : (k != n) = true := by simpa using hk
      simp only [Tab.erase, List.filter, this, Tab.find]
      split
      · rfl
      · exact ih

/-- Reading a table back after `Tab.put` with the reader's default. -/
@[simp] theorem Tab.getD_put_self [DecidableEq α] (t : Tab α) (n : Nat) (v d : α) :
    Tab.getD (Tab.put d t n v) n d = v := by
  unfold Tab.put
  split
  · next h => simp [Tab.getD, h]
  · simp

theorem Tab.getD_put_ne [DecidableEq α] (t : Tab α) {n m : Nat} (v d e : α) (h : m ≠ n) :
    Tab.getD (Tab.put d t n v) m e = Tab.getD t m e := by
  unfold Tab.put
  split
  · simp [Tab.getD, Tab.find_erase_ne t h]
  · exact Tab.getD_set_ne t v e h

theorem Tab.sorted_filter (t : Tab α) (p : Nat × α → Bool) (h : Tab.sorted t = true) : Tab.sorted (t.filter p) = true := by
  induction t with
  | nil => rfl
  | cons q r ih =>
    obtain ⟨k, w⟩ := q
    simp only [Tab.sorted, Bool.and_eq_true, List.all_eq_true, decide_eq_true_eq] at h
    simp only [List.filter]
    split
    · simp only [Tab.sorted, Bool.and_eq_true, List.all_eq_true, decide_eq_true_eq]
      exact ⟨fun e he => h.1 e (List.mem_of_mem_filter he), ih h.2⟩
    · exact ih h.2

theorem Tab.sorted_erase (t : Tab α) (n : Nat) (h : Tab.sorted t = true) : Tab.sorted (Tab.erase t n) = true :=
  Tab.sorted_filter t _ h

theorem Tab.mem_set {t : Tab α} {n : Nat} {v : α} {e : Nat × α} (h : e ∈ Tab.set t n v) : e = (n, v) ∨ e ∈ t := by
  induction t with
  | nil => simpa [Tab.set] using h
  | cons q r ih =>
    obtain ⟨k, w⟩ := q
    simp only [Tab.set] at h
    split at h
    · simpa using h
    · split at h
      · simp only [List.mem_cons] at h ⊢
        rcases h with h | h
        · exact Or.inl h
        · exact Or.inr (Or.inr h)
      · simp only [List.mem_cons] at h ⊢
        rcases h with h | h
        · exact Or.inr (Or.inl h)
        · rcases ih h with h | h
          · exact Or.inl h
          · exact Or.inr (Or.inr h)

/-- Setting a key keeps the keys rising. -/
theorem Tab.sorted_set (t : Tab α) (n : Nat) (v : α) (h : Tab.sorted t = true) : Tab.sorted (Tab.set t n v) = true := by
  induction t with
  | nil => simp [Tab.set, Tab.sorted]
  | cons q r ih =>
    obtain ⟨k, w⟩ := q
    have h0 := h
    simp only [Tab.sorted, Bool.and_eq_true, List.all_eq_true, decide_eq_true_eq] at h
    simp only [Tab.set]
    split
    · next hk =>
      rw [Tab.sorted, Bool.and_eq_true]
      refine ⟨?_, h0⟩
      simp only [List.all_eq_true, decide_eq_true_eq, List.mem_cons]
      rintro e (rfl | he)
      · exact hk
      · exact lt_trans hk (h.1 e he)
    · split
      · next hk =>
        subst hk
        simp only [Tab.sorted, Bool.and_eq_true, List.all_eq_true, decide_eq_true_eq]
        exact h
      · next h1 h2 =>
        simp only [Tab.sorted, Bool.and_eq_true, List.all_eq_true, decide_eq_true_eq]
        refine ⟨fun e he => ?_, ih h.2⟩
        rcases Tab.mem_set he with rfl | he
        · show k < n
          omega
        · exact h.1 e he

theorem Tab.sorted_put [DecidableEq α] (d : α) (t : Tab α) (n : Nat) (v : α) (h : Tab.sorted t = true) :
    Tab.sorted (Tab.put d t n v) = true := by
  unfold Tab.put
  split
  · exact Tab.sorted_erase t n h
  · exact Tab.sorted_set t n v h

/-! ### Cells of a memory -/

theorem cellSet_mem {m : List Host.Cell} {a : Nat} {b : BitVec 8} {c : Host.Cell} (h : c ∈ cellSet m a b) :
    c = (a, b) ∨ c ∈ m := by
  induction m with
  | nil =>
    simp only [cellSet] at h
    split at h
    · simp at h
    · simpa using h
  | cons q r ih =>
    simp only [cellSet] at h
    split at h
    · split at h
      · exact Or.inr h
      · simpa using h
    · split at h
      · split at h
        · exact Or.inr (List.mem_cons_of_mem _ h)
        · simp only [List.mem_cons] at h ⊢
          rcases h with h | h
          · exact Or.inl h
          · exact Or.inr (Or.inr h)
      · simp only [List.mem_cons] at h ⊢
        rcases h with h | h
        · exact Or.inr (Or.inl h)
        · rcases ih h with h | h
          · exact Or.inl h
          · exact Or.inr (Or.inr h)

/-- Storing a byte keeps the canonical form. -/
theorem cellSet_wf (m : List Host.Cell) (a : Nat) (b : BitVec 8) (h : cellsWf m = true) : cellsWf (cellSet m a b) = true := by
  induction m with
  | nil =>
    simp only [cellSet]
    split
    · rfl
    · next hb => simpa [cellsWf] using hb
  | cons c r ih =>
    have h0 := h
    simp only [cellsWf, Bool.and_eq_true, List.all_eq_true, decide_eq_true_eq] at h
    simp only [cellSet]
    split
    · next hlt =>
      split
      · exact h0
      · next hb =>
        rw [cellsWf, Bool.and_eq_true, Bool.and_eq_true]
        refine ⟨⟨by simpa using hb, ?_⟩, h0⟩
        simp only [List.all_eq_true, decide_eq_true_eq, List.mem_cons]
        rintro d (rfl | hd)
        · exact hlt
        · exact lt_trans hlt (h.1.2 d hd)
    · split
      · next hge heq =>
        split
        · exact h.2
        · next hb =>
          simp only [cellsWf, Bool.and_eq_true, List.all_eq_true, decide_eq_true_eq]
          exact ⟨⟨by simpa using hb, by rw [heq]; exact h.1.2⟩, h.2⟩
      · next hge hne =>
        simp only [cellsWf, Bool.and_eq_true, List.all_eq_true, decide_eq_true_eq]
        refine ⟨⟨h.1.1, fun d hd => ?_⟩, ih h.2⟩
        rcases cellSet_mem hd with rfl | hd
        · show c.1 < a
          omega
        · exact h.1.2 d hd

/-- Storing bytes keeps the canonical form. -/
theorem cellWrite_wf (bs : List Nat) (m : List Host.Cell) (a : Nat) (h : cellsWf m = true) :
    cellsWf (cellWrite m a bs) = true := by
  induction bs generalizing m a with
  | nil => exact h
  | cons b r ih => exact ih _ _ (cellSet_wf m a _ h)

theorem cellGet_absent (m : List Host.Cell) (a : Nat) (h : ∀ c ∈ m, a < c.1) : cellGet m a = 0 := by
  induction m with
  | nil => rfl
  | cons c r ih =>
    have hc : ¬ c.1 = a := by have := h c (by simp); omega
    simp only [cellGet, hc, if_false]
    exact ih (fun d hd => h d (List.mem_cons_of_mem _ hd))

/-- An address reads the byte just stored there. -/
theorem cellGet_cellSet_self (m : List Host.Cell) (a : Nat) (b : BitVec 8) (h : cellsWf m = true) :
    cellGet (cellSet m a b) a = b.toNat := by
  induction m with
  | nil =>
    simp only [cellSet]
    split
    · next hb => simp [cellGet, hb]
    · simp [cellGet]
  | cons c r ih =>
    simp only [cellsWf, Bool.and_eq_true, List.all_eq_true, decide_eq_true_eq] at h
    simp only [cellSet]
    split
    · next hlt =>
      split
      · next hb =>
        have hc : ¬ c.1 = a := by omega
        simp only [cellGet, hc, if_false, hb]
        rw [cellGet_absent r a (fun d hd => lt_trans hlt (h.1.2 d hd))]; rfl
      · simp [cellGet]
    · split
      · next heq =>
        split
        · next hb => rw [cellGet_absent r a (fun d hd => by rw [heq]; exact h.1.2 d hd), hb]; rfl
        · simp [cellGet]
      · next hne =>
        have hc : ¬ c.1 = a := fun e => hne e.symm
        simp only [cellGet, hc, if_false]
        exact ih h.2

/-- Every other address reads as before. -/
theorem cellGet_cellSet_ne (m : List Host.Cell) {a x : Nat} (b : BitVec 8) (h : x ≠ a) :
    cellGet (cellSet m a b) x = cellGet m x := by
  induction m with
  | nil =>
    simp only [cellSet]
    split
    · rfl
    · simp [cellGet, Ne.symm h]
  | cons c r ih =>
    simp only [cellSet]
    split
    · split
      · rfl
      · simp [cellGet, Ne.symm h]
    · split
      · next heq =>
        have hc : ¬ c.1 = x := by omega
        split
        · simp [cellGet, hc]
        · simp [cellGet, hc, Ne.symm h]
      · simp only [cellGet, ih]

/-- Storing bytes leaves every address outside them as it was. -/
theorem cellGet_cellWrite_out (bs : List Nat) (m : List Host.Cell) (a x : Nat) (h : x < a ∨ a + bs.length ≤ x) :
    cellGet (cellWrite m a bs) x = cellGet m x := by
  induction bs generalizing m a with
  | nil => rfl
  | cons b r ih =>
    simp only [List.length_cons] at h
    simp only [cellWrite]
    rw [ih _ _ (by omega), cellGet_cellSet_ne m _ (by omega)]

theorem cellGet_cellWrite_in (bs : List Nat) (m : List Host.Cell) (a i : Nat) (h : cellsWf m = true) (hi : i < bs.length) :
    cellGet (cellWrite m a bs) (a + i) = bs[i] % 256 := by
  induction bs generalizing m a i with
  | nil => simp at hi
  | cons b r ih =>
    simp only [cellWrite]
    cases i with
    | zero =>
      rw [cellGet_cellWrite_out r _ _ _ (by omega)]
      simp [cellGet_cellSet_self m a _ h, BitVec.toNat_ofNat]
    | succ j =>
      have := ih (cellSet m a (BitVec.ofNat 8 b)) (a + 1) j (cellSet_wf m a _ h) (by simpa using hi)
      rw [show a + (j + 1) = a + 1 + j by omega, this]; simp

/-- Bytes written read back. -/
theorem cellRead_cellWrite (bs : List Nat) (m : List Host.Cell) (a : Nat) (h : cellsWf m = true) :
    cellRead (cellWrite m a bs) a bs.length = bs.map (fun b => b % 256) := by
  apply List.ext_getElem
  · simp [cellRead]
  · intro i h1 h2
    simp only [cellRead, List.getElem_map, List.getElem_range]
    have hi : i < bs.length := by simpa using h2
    rw [cellGet_cellWrite_in bs m a i h hi]

end Sys2Proof.Machine
end

