-- ==== Sys2Proof/Laws/State.lean ====
section
/-! SUPPORT. One lemma for each named update of the state and each part of it that the update leaves alone, so that
no later proof unfolds a record update; and what a part reads after its own update. -/

namespace Sys2Proof.Machine

variable (s : State)

/-! ### State.fset changes `fields` only -/

@[simp] theorem State.fset_pending (f : Fld) (i v : Nat) : (s.fset f i v).pending = s.pending := rfl
@[simp] theorem State.fset_ns (f : Fld) (i v : Nat) : (s.fset f i v).ns = s.ns := rfl
@[simp] theorem State.fset_free (f : Fld) (i v : Nat) : (s.fset f i v).free = s.free := rfl
@[simp] theorem State.fset_staged (f : Fld) (i v : Nat) : (s.fset f i v).staged = s.staged := rfl
@[simp] theorem State.fset_latch (f : Fld) (i v : Nat) : (s.fset f i v).latch = s.latch := rfl
@[simp] theorem State.fset_lowHeld (f : Fld) (i v : Nat) : (s.fset f i v).lowHeld = s.lowHeld := rfl
@[simp] theorem State.fset_readData (f : Fld) (i v : Nat) : (s.fset f i v).readData = s.readData := rfl
@[simp] theorem State.fset_events (f : Fld) (i v : Nat) : (s.fset f i v).events = s.events := rfl
@[simp] theorem State.fset_lastLog (f : Fld) (i v : Nat) : (s.fset f i v).lastLog = s.lastLog := rfl
@[simp] theorem State.fset_heldLog (f : Fld) (i v : Nat) : (s.fset f i v).heldLog = s.heldLog := rfl
@[simp] theorem State.fset_out (f : Fld) (i v : Nat) : (s.fset f i v).out = s.out := rfl
@[simp] theorem State.fset_engines (f : Fld) (i v : Nat) : (s.fset f i v).engines = s.engines := rfl
@[simp] theorem State.fset_tiles (f : Fld) (i v : Nat) : (s.fset f i v).tiles = s.tiles := rfl
@[simp] theorem State.fset_rst (f : Fld) (i v : Nat) : (s.fset f i v).rst = s.rst := rfl
@[simp] theorem State.fset_cores (f : Fld) (i v : Nat) : (s.fset f i v).cores = s.cores := rfl
@[simp] theorem State.fset_seqs (f : Fld) (i v : Nat) : (s.fset f i v).seqs = s.seqs := rfl
@[simp] theorem State.fset_sram (f : Fld) (i v : Nat) : (s.fset f i v).sram = s.sram := rfl
@[simp] theorem State.fset_models (f : Fld) (i v : Nat) : (s.fset f i v).models = s.models := rfl
@[simp] theorem State.fset_fab (f : Fld) (i v : Nat) : (s.fset f i v).fab = s.fab := rfl
@[simp] theorem State.fset_dram (f : Fld) (i v : Nat) : (s.fset f i v).dram = s.dram := rfl
@[simp] theorem State.fset_items (f : Fld) (i v : Nat) : (s.fset f i v).items = s.items := rfl
@[simp] theorem State.fset_mgmt (f : Fld) (i v : Nat) : (s.fset f i v).mgmt = s.mgmt := rfl
@[simp] theorem State.fset_rings (f : Fld) (i v : Nat) : (s.fset f i v).rings = s.rings := rfl
@[simp] theorem State.fset_reads (f : Fld) (i v : Nat) : (s.fset f i v).reads = s.reads := rfl
@[simp] theorem State.fset_nextTag (f : Fld) (i v : Nat) : (s.fset f i v).nextTag = s.nextTag := rfl
@[simp] theorem State.fset_msix (f : Fld) (i v : Nat) : (s.fset f i v).msix = s.msix := rfl
@[simp] theorem State.fset_msixPending (f : Fld) (i v : Nat) : (s.fset f i v).msixPending = s.msixPending := rfl
@[simp] theorem State.fset_busMaster (f : Fld) (i v : Nat) : (s.fset f i v).busMaster = s.busMaster := rfl
@[simp] theorem State.fset_ats (f : Fld) (i v : Nat) : (s.fset f i v).ats = s.ats := rfl
@[simp] theorem State.fset_lanes (f : Fld) (i v : Nat) : (s.fset f i v).lanes = s.lanes := rfl
@[simp] theorem State.fset_bar (f : Fld) (i v : Nat) : (s.fset f i v).bar = s.bar := rfl
@[simp] theorem State.fset_field (f : Fld) (i v : Nat) : (s.fset f i v).field = s.field := rfl
@[simp] theorem State.fset_hk (f : Fld) (i v : Nat) : (s.fset f i v).hk = s.hk := rfl
@[simp] theorem State.fset_cnp (f : Fld) (i v : Nat) : (s.fset f i v).cnp = s.cnp := rfl
@[simp] theorem State.fset_sync (f : Fld) (i v : Nat) : (s.fset f i v).sync = s.sync := rfl
@[simp] theorem State.fset_rel (f : Fld) (i v : Nat) : (s.fset f i v).rel = s.rel := rfl
@[simp] theorem State.fset_keep (f : Fld) (i v : Nat) : (s.fset f i v).keep = s.keep := rfl
@[simp] theorem State.fset_power (f : Fld) (i v : Nat) : (s.fset f i v).power = s.power := rfl
@[simp] theorem State.fset_bootNs (f : Fld) (i v : Nat) : (s.fset f i v).bootNs = s.bootNs := rfl
@[simp] theorem State.fset_at_engine (f : Fld) (i v : Nat) (c' e' : Nat) : (s.fset f i v).engine c' e' = s.engine c' e' := rfl
@[simp] theorem State.fset_at_tile (f : Fld) (i v : Nat) (c' k' : Nat) : (s.fset f i v).tile c' k' = s.tile c' k' := rfl
@[simp] theorem State.fset_at_restorer (f : Fld) (i v : Nat) (c' : Nat) : (s.fset f i v).restorer c' = s.restorer c' := rfl
@[simp] theorem State.fset_at_core (f : Fld) (i v : Nat) (c' : Nat) : (s.fset f i v).core c' = s.core c' := rfl
@[simp] theorem State.fset_at_seq (f : Fld) (i v : Nat) (c' : Nat) : (s.fset f i v).seq c' = s.seq c' := rfl
@[simp] theorem State.fset_at_ring (f : Fld) (i v : Nat) (k' : Nat) : (s.fset f i v).ring k' = s.ring k' := rfl
@[simp] theorem State.fset_at_lane (f : Fld) (i v : Nat) (l' : Nat) : (s.fset f i v).lane l' = s.lane l' := rfl
@[simp] theorem State.fset_at_cport (f : Fld) (i v : Nat) (p' : Nat) : (s.fset f i v).cport p' = s.cport p' := rfl
@[simp] theorem State.fset_at_rej (f : Fld) (i v : Nat) (k' : Nat) : (s.fset f i v).rej k' = s.rej k' := rfl
@[simp] theorem State.fset_at_ao (f : Fld) (i v : Nat) (k' : Nat) : (s.fset f i v).ao k' = s.ao k' := rfl
@[simp] theorem State.fset_at_lookout (f : Fld) (i v : Nat) (k' : Nat) : (s.fset f i v).lookout k' = s.lookout k' := rfl

/-! ### State.stage changes `staged` only -/

@[simp] theorem State.stage_pending (f : Fld) (i v : Nat) : (s.stage f i v).pending = s.pending := rfl
@[simp] theorem State.stage_ns (f : Fld) (i v : Nat) : (s.stage f i v).ns = s.ns := rfl
@[simp] theorem State.stage_free (f : Fld) (i v : Nat) : (s.stage f i v).free = s.free := rfl
@[simp] theorem State.stage_fields (f : Fld) (i v : Nat) : (s.stage f i v).fields = s.fields := rfl
@[simp] theorem State.stage_latch (f : Fld) (i v : Nat) : (s.stage f i v).latch = s.latch := rfl
@[simp] theorem State.stage_lowHeld (f : Fld) (i v : Nat) : (s.stage f i v).lowHeld = s.lowHeld := rfl
@[simp] theorem State.stage_readData (f : Fld) (i v : Nat) : (s.stage f i v).readData = s.readData := rfl
@[simp] theorem State.stage_events (f : Fld) (i v : Nat) : (s.stage f i v).events = s.events := rfl
@[simp] theorem State.stage_lastLog (f : Fld) (i v : Nat) : (s.stage f i v).lastLog = s.lastLog := rfl
@[simp] theorem State.stage_heldLog (f : Fld) (i v : Nat) : (s.stage f i v).heldLog = s.heldLog := rfl
@[simp] theorem State.stage_out (f : Fld) (i v : Nat) : (s.stage f i v).out = s.out := rfl
@[simp] theorem State.stage_engines (f : Fld) (i v : Nat) : (s.stage f i v).engines = s.engines := rfl
@[simp] theorem State.stage_tiles (f : Fld) (i v : Nat) : (s.stage f i v).tiles = s.tiles := rfl
@[simp] theorem State.stage_rst (f : Fld) (i v : Nat) : (s.stage f i v).rst = s.rst := rfl
@[simp] theorem State.stage_cores (f : Fld) (i v : Nat) : (s.stage f i v).cores = s.cores := rfl
@[simp] theorem State.stage_seqs (f : Fld) (i v : Nat) : (s.stage f i v).seqs = s.seqs := rfl
@[simp] theorem State.stage_sram (f : Fld) (i v : Nat) : (s.stage f i v).sram = s.sram := rfl
@[simp] theorem State.stage_models (f : Fld) (i v : Nat) : (s.stage f i v).models = s.models := rfl
@[simp] theorem State.stage_fab (f : Fld) (i v : Nat) : (s.stage f i v).fab = s.fab := rfl
@[simp] theorem State.stage_dram (f : Fld) (i v : Nat) : (s.stage f i v).dram = s.dram := rfl
@[simp] theorem State.stage_items (f : Fld) (i v : Nat) : (s.stage f i v).items = s.items := rfl
@[simp] theorem State.stage_mgmt (f : Fld) (i v : Nat) : (s.stage f i v).mgmt = s.mgmt := rfl
@[simp] theorem State.stage_rings (f : Fld) (i v : Nat) : (s.stage f i v).rings = s.rings := rfl
@[simp] theorem State.stage_reads (f : Fld) (i v : Nat) : (s.stage f i v).reads = s.reads := rfl
@[simp] theorem State.stage_nextTag (f : Fld) (i v : Nat) : (s.stage f i v).nextTag = s.nextTag := rfl
@[simp] theorem State.stage_msix (f : Fld) (i v : Nat) : (s.stage f i v).msix = s.msix := rfl
@[simp] theorem State.stage_msixPending (f : Fld) (i v : Nat) : (s.stage f i v).msixPending = s.msixPending := rfl
@[simp] theorem State.stage_busMaster (f : Fld) (i v : Nat) : (s.stage f i v).busMaster = s.busMaster := rfl
@[simp] theorem State.stage_ats (f : Fld) (i v : Nat) : (s.stage f i v).ats = s.ats := rfl
@[simp] theorem State.stage_lanes (f : Fld) (i v : Nat) : (s.stage f i v).lanes = s.lanes := rfl
@[simp] theorem State.stage_bar (f : Fld) (i v : Nat) : (s.stage f i v).bar = s.bar := rfl
@[simp] theorem State.stage_field (f : Fld) (i v : Nat) : (s.stage f i v).field = s.field := rfl
@[simp] theorem State.stage_hk (f : Fld) (i v : Nat) : (s.stage f i v).hk = s.hk := rfl
@[simp] theorem State.stage_cnp (f : Fld) (i v : Nat) : (s.stage f i v).cnp = s.cnp := rfl
@[simp] theorem State.stage_sync (f : Fld) (i v : Nat) : (s.stage f i v).sync = s.sync := rfl
@[simp] theorem State.stage_rel (f : Fld) (i v : Nat) : (s.stage f i v).rel = s.rel := rfl
@[simp] theorem State.stage_keep (f : Fld) (i v : Nat) : (s.stage f i v).keep = s.keep := rfl
@[simp] theorem State.stage_power (f : Fld) (i v : Nat) : (s.stage f i v).power = s.power := rfl
@[simp] theorem State.stage_bootNs (f : Fld) (i v : Nat) : (s.stage f i v).bootNs = s.bootNs := rfl
@[simp] theorem State.stage_at_fget (f : Fld) (i v : Nat) (f' : Fld) (j : Nat) : (s.stage f i v).fget f' j = s.fget f' j := rfl
@[simp] theorem State.stage_at_engine (f : Fld) (i v : Nat) (c' e' : Nat) : (s.stage f i v).engine c' e' = s.engine c' e' := rfl
@[simp] theorem State.stage_at_tile (f : Fld) (i v : Nat) (c' k' : Nat) : (s.stage f i v).tile c' k' = s.tile c' k' := rfl
@[simp] theorem State.stage_at_restorer (f : Fld) (i v : Nat) (c' : Nat) : (s.stage f i v).restorer c' = s.restorer c' := rfl
@[simp] theorem State.stage_at_core (f : Fld) (i v : Nat) (c' : Nat) : (s.stage f i v).core c' = s.core c' := rfl
@[simp] theorem State.stage_at_seq (f : Fld) (i v : Nat) (c' : Nat) : (s.stage f i v).seq c' = s.seq c' := rfl
@[simp] theorem State.stage_at_ring (f : Fld) (i v : Nat) (k' : Nat) : (s.stage f i v).ring k' = s.ring k' := rfl
@[simp] theorem State.stage_at_lane (f : Fld) (i v : Nat) (l' : Nat) : (s.stage f i v).lane l' = s.lane l' := rfl
@[simp] theorem State.stage_at_cport (f : Fld) (i v : Nat) (p' : Nat) : (s.stage f i v).cport p' = s.cport p' := rfl
@[simp] theorem State.stage_at_rej (f : Fld) (i v : Nat) (k' : Nat) : (s.stage f i v).rej k' = s.rej k' := rfl
@[simp] theorem State.stage_at_ao (f : Fld) (i v : Nat) (k' : Nat) : (s.stage f i v).ao k' = s.ao k' := rfl
@[simp] theorem State.stage_at_lookout (f : Fld) (i v : Nat) (k' : Nat) : (s.stage f i v).lookout k' = s.lookout k' := rfl

/-! ### State.draw changes `free` only -/

@[simp] theorem State.draw_pending (n : Nat) : (s.draw n).pending = s.pending := rfl
@[simp] theorem State.draw_ns (n : Nat) : (s.draw n).ns = s.ns := rfl
@[simp] theorem State.draw_fields (n : Nat) : (s.draw n).fields = s.fields := rfl
@[simp] theorem State.draw_staged (n : Nat) : (s.draw n).staged = s.staged := rfl
@[simp] theorem State.draw_latch (n : Nat) : (s.draw n).latch = s.latch := rfl
@[simp] theorem State.draw_lowHeld (n : Nat) : (s.draw n).lowHeld = s.lowHeld := rfl
@[simp] theorem State.draw_readData (n : Nat) : (s.draw n).readData = s.readData := rfl
@[simp] theorem State.draw_events (n : Nat) : (s.draw n).events = s.events := rfl
@[simp] theorem State.draw_lastLog (n : Nat) : (s.draw n).lastLog = s.lastLog := rfl
@[simp] theorem State.draw_heldLog (n : Nat) : (s.draw n).heldLog = s.heldLog := rfl
@[simp] theorem State.draw_out (n : Nat) : (s.draw n).out = s.out := rfl
@[simp] theorem State.draw_engines (n : Nat) : (s.draw n).engines = s.engines := rfl
@[simp] theorem State.draw_tiles (n : Nat) : (s.draw n).tiles = s.tiles := rfl
@[simp] theorem State.draw_rst (n : Nat) : (s.draw n).rst = s.rst := rfl
@[simp] theorem State.draw_cores (n : Nat) : (s.draw n).cores = s.cores := rfl
@[simp] theorem State.draw_seqs (n : Nat) : (s.draw n).seqs = s.seqs := rfl
@[simp] theorem State.draw_sram (n : Nat) : (s.draw n).sram = s.sram := rfl
@[simp] theorem State.draw_models (n : Nat) : (s.draw n).models = s.models := rfl
@[simp] theorem State.draw_fab (n : Nat) : (s.draw n).fab = s.fab := rfl
@[simp] theorem State.draw_dram (n : Nat) : (s.draw n).dram = s.dram := rfl
@[simp] theorem State.draw_items (n : Nat) : (s.draw n).items = s.items := rfl
@[simp] theorem State.draw_mgmt (n : Nat) : (s.draw n).mgmt = s.mgmt := rfl
@[simp] theorem State.draw_rings (n : Nat) : (s.draw n).rings = s.rings := rfl
@[simp] theorem State.draw_reads (n : Nat) : (s.draw n).reads = s.reads := rfl
@[simp] theorem State.draw_nextTag (n : Nat) : (s.draw n).nextTag = s.nextTag := rfl
@[simp] theorem State.draw_msix (n : Nat) : (s.draw n).msix = s.msix := rfl
@[simp] theorem State.draw_msixPending (n : Nat) : (s.draw n).msixPending = s.msixPending := rfl
@[simp] theorem State.draw_busMaster (n : Nat) : (s.draw n).busMaster = s.busMaster := rfl
@[simp] theorem State.draw_ats (n : Nat) : (s.draw n).ats = s.ats := rfl
@[simp] theorem State.draw_lanes (n : Nat) : (s.draw n).lanes = s.lanes := rfl
@[simp] theorem State.draw_bar (n : Nat) : (s.draw n).bar = s.bar := rfl
@[simp] theorem State.draw_field (n : Nat) : (s.draw n).field = s.field := rfl
@[simp] theorem State.draw_hk (n : Nat) : (s.draw n).hk = s.hk := rfl
@[simp] theorem State.draw_cnp (n : Nat) : (s.draw n).cnp = s.cnp := rfl
@[simp] theorem State.draw_sync (n : Nat) : (s.draw n).sync = s.sync := rfl
@[simp] theorem State.draw_rel (n : Nat) : (s.draw n).rel = s.rel := rfl
@[simp] theorem State.draw_keep (n : Nat) : (s.draw n).keep = s.keep := rfl
@[simp] theorem State.draw_power (n : Nat) : (s.draw n).power = s.power := rfl
@[simp] theorem State.draw_bootNs (n : Nat) : (s.draw n).bootNs = s.bootNs := rfl
@[simp] theorem State.draw_at_fget (n : Nat) (f' : Fld) (j : Nat) : (s.draw n).fget f' j = s.fget f' j := rfl
@[simp] theorem State.draw_at_engine (n : Nat) (c' e' : Nat) : (s.draw n).engine c' e' = s.engine c' e' := rfl
@[simp] theorem State.draw_at_tile (n : Nat) (c' k' : Nat) : (s.draw n).tile c' k' = s.tile c' k' := rfl
@[simp] theorem State.draw_at_restorer (n : Nat) (c' : Nat) : (s.draw n).restorer c' = s.restorer c' := rfl
@[simp] theorem State.draw_at_core (n : Nat) (c' : Nat) : (s.draw n).core c' = s.core c' := rfl
@[simp] theorem State.draw_at_seq (n : Nat) (c' : Nat) : (s.draw n).seq c' = s.seq c' := rfl
@[simp] theorem State.draw_at_ring (n : Nat) (k' : Nat) : (s.draw n).ring k' = s.ring k' := rfl
@[simp] theorem State.draw_at_lane (n : Nat) (l' : Nat) : (s.draw n).lane l' = s.lane l' := rfl
@[simp] theorem State.draw_at_cport (n : Nat) (p' : Nat) : (s.draw n).cport p' = s.cport p' := rfl
@[simp] theorem State.draw_at_rej (n : Nat) (k' : Nat) : (s.draw n).rej k' = s.rej k' := rfl
@[simp] theorem State.draw_at_ao (n : Nat) (k' : Nat) : (s.draw n).ao k' = s.ao k' := rfl
@[simp] theorem State.draw_at_lookout (n : Nat) (k' : Nat) : (s.draw n).lookout k' = s.lookout k' := rfl

/-! ### State.emit changes `out` only -/

@[simp] theorem State.emit_pending (o : Out) : (s.emit o).pending = s.pending := rfl
@[simp] theorem State.emit_ns (o : Out) : (s.emit o).ns = s.ns := rfl
@[simp] theorem State.emit_free (o : Out) : (s.emit o).free = s.free := rfl
@[simp] theorem State.emit_fields (o : Out) : (s.emit o).fields = s.fields := rfl
@[simp] theorem State.emit_staged (o : Out) : (s.emit o).staged = s.staged := rfl
@[simp] theorem State.emit_latch (o : Out) : (s.emit o).latch = s.latch := rfl
@[simp] theorem State.emit_lowHeld (o : Out) : (s.emit o).lowHeld = s.lowHeld := rfl
@[simp] theorem State.emit_readData (o : Out) : (s.emit o).readData = s.readData := rfl
@[simp] theorem State.emit_events (o : Out) : (s.emit o).events = s.events := rfl
@[simp] theorem State.emit_lastLog (o : Out) : (s.emit o).lastLog = s.lastLog := rfl
@[simp] theorem State.emit_heldLog (o : Out) : (s.emit o).heldLog = s.heldLog := rfl
@[simp] theorem State.emit_engines (o : Out) : (s.emit o).engines = s.engines := rfl
@[simp] theorem State.emit_tiles (o : Out) : (s.emit o).tiles = s.tiles := rfl
@[simp] theorem State.emit_rst (o : Out) : (s.emit o).rst = s.rst := rfl
@[simp] theorem State.emit_cores (o : Out) : (s.emit o).cores = s.cores := rfl
@[simp] theorem State.emit_seqs (o : Out) : (s.emit o).seqs = s.seqs := rfl
@[simp] theorem State.emit_sram (o : Out) : (s.emit o).sram = s.sram := rfl
@[simp] theorem State.emit_models (o : Out) : (s.emit o).models = s.models := rfl
@[simp] theorem State.emit_fab (o : Out) : (s.emit o).fab = s.fab := rfl
@[simp] theorem State.emit_dram (o : Out) : (s.emit o).dram = s.dram := rfl
@[simp] theorem State.emit_items (o : Out) : (s.emit o).items = s.items := rfl
@[simp] theorem State.emit_mgmt (o : Out) : (s.emit o).mgmt = s.mgmt := rfl
@[simp] theorem State.emit_rings (o : Out) : (s.emit o).rings = s.rings := rfl
@[simp] theorem State.emit_reads (o : Out) : (s.emit o).reads = s.reads := rfl
@[simp] theorem State.emit_nextTag (o : Out) : (s.emit o).nextTag = s.nextTag := rfl
@[simp] theorem State.emit_msix (o : Out) : (s.emit o).msix = s.msix := rfl
@[simp] theorem State.emit_msixPending (o : Out) : (s.emit o).msixPending = s.msixPending := rfl
@[simp] theorem State.emit_busMaster (o : Out) : (s.emit o).busMaster = s.busMaster := rfl
@[simp] theorem State.emit_ats (o : Out) : (s.emit o).ats = s.ats := rfl
@[simp] theorem State.emit_lanes (o : Out) : (s.emit o).lanes = s.lanes := rfl
@[simp] theorem State.emit_bar (o : Out) : (s.emit o).bar = s.bar := rfl
@[simp] theorem State.emit_field (o : Out) : (s.emit o).field = s.field := rfl
@[simp] theorem State.emit_hk (o : Out) : (s.emit o).hk = s.hk := rfl
@[simp] theorem State.emit_cnp (o : Out) : (s.emit o).cnp = s.cnp := rfl
@[simp] theorem State.emit_sync (o : Out) : (s.emit o).sync = s.sync := rfl
@[simp] theorem State.emit_rel (o : Out) : (s.emit o).rel = s.rel := rfl
@[simp] theorem State.emit_keep (o : Out) : (s.emit o).keep = s.keep := rfl
@[simp] theorem State.emit_power (o : Out) : (s.emit o).power = s.power := rfl
@[simp] theorem State.emit_bootNs (o : Out) : (s.emit o).bootNs = s.bootNs := rfl
@[simp] theorem State.emit_at_fget (o : Out) (f' : Fld) (j : Nat) : (s.emit o).fget f' j = s.fget f' j := rfl
@[simp] theorem State.emit_at_engine (o : Out) (c' e' : Nat) : (s.emit o).engine c' e' = s.engine c' e' := rfl
@[simp] theorem State.emit_at_tile (o : Out) (c' k' : Nat) : (s.emit o).tile c' k' = s.tile c' k' := rfl
@[simp] theorem State.emit_at_restorer (o : Out) (c' : Nat) : (s.emit o).restorer c' = s.restorer c' := rfl
@[simp] theorem State.emit_at_core (o : Out) (c' : Nat) : (s.emit o).core c' = s.core c' := rfl
@[simp] theorem State.emit_at_seq (o : Out) (c' : Nat) : (s.emit o).seq c' = s.seq c' := rfl
@[simp] theorem State.emit_at_ring (o : Out) (k' : Nat) : (s.emit o).ring k' = s.ring k' := rfl
@[simp] theorem State.emit_at_lane (o : Out) (l' : Nat) : (s.emit o).lane l' = s.lane l' := rfl
@[simp] theorem State.emit_at_cport (o : Out) (p' : Nat) : (s.emit o).cport p' = s.cport p' := rfl
@[simp] theorem State.emit_at_rej (o : Out) (k' : Nat) : (s.emit o).rej k' = s.rej k' := rfl
@[simp] theorem State.emit_at_ao (o : Out) (k' : Nat) : (s.emit o).ao k' = s.ao k' := rfl
@[simp] theorem State.emit_at_lookout (o : Out) (k' : Nat) : (s.emit o).lookout k' = s.lookout k' := rfl

/-! ### State.setEngine changes `engines` only -/

@[simp] theorem State.setEngine_pending (c e : Nat) (g : Engine) : (s.setEngine c e g).pending = s.pending := rfl
@[simp] theorem State.setEngine_ns (c e : Nat) (g : Engine) : (s.setEngine c e g).ns = s.ns := rfl
@[simp] theorem State.setEngine_free (c e : Nat) (g : Engine) : (s.setEngine c e g).free = s.free := rfl
@[simp] theorem State.setEngine_fields (c e : Nat) (g : Engine) : (s.setEngine c e g).fields = s.fields := rfl
@[simp] theorem State.setEngine_staged (c e : Nat) (g : Engine) : (s.setEngine c e g).staged = s.staged := rfl
@[simp] theorem State.setEngine_latch (c e : Nat) (g : Engine) : (s.setEngine c e g).latch = s.latch := rfl
@[simp] theorem State.setEngine_lowHeld (c e : Nat) (g : Engine) : (s.setEngine c e g).lowHeld = s.lowHeld := rfl
@[simp] theorem State.setEngine_readData (c e : Nat) (g : Engine) : (s.setEngine c e g).readData = s.readData := rfl
@[simp] theorem State.setEngine_events (c e : Nat) (g : Engine) : (s.setEngine c e g).events = s.events := rfl
@[simp] theorem State.setEngine_lastLog (c e : Nat) (g : Engine) : (s.setEngine c e g).lastLog = s.lastLog := rfl
@[simp] theorem State.setEngine_heldLog (c e : Nat) (g : Engine) : (s.setEngine c e g).heldLog = s.heldLog := rfl
@[simp] theorem State.setEngine_out (c e : Nat) (g : Engine) : (s.setEngine c e g).out = s.out := rfl
@[simp] theorem State.setEngine_tiles (c e : Nat) (g : Engine) : (s.setEngine c e g).tiles = s.tiles := rfl
@[simp] theorem State.setEngine_rst (c e : Nat) (g : Engine) : (s.setEngine c e g).rst = s.rst := rfl
@[simp] theorem State.setEngine_cores (c e : Nat) (g : Engine) : (s.setEngine c e g).cores = s.cores := rfl
@[simp] theorem State.setEngine_seqs (c e : Nat) (g : Engine) : (s.setEngine c e g).seqs = s.seqs := rfl
@[simp] theorem State.setEngine_sram (c e : Nat) (g : Engine) : (s.setEngine c e g).sram = s.sram := rfl
@[simp] theorem State.setEngine_models (c e : Nat) (g : Engine) : (s.setEngine c e g).models = s.models := rfl
@[simp] theorem State.setEngine_fab (c e : Nat) (g : Engine) : (s.setEngine c e g).fab = s.fab := rfl
@[simp] theorem State.setEngine_dram (c e : Nat) (g : Engine) : (s.setEngine c e g).dram = s.dram := rfl
@[simp] theorem State.setEngine_items (c e : Nat) (g : Engine) : (s.setEngine c e g).items = s.items := rfl
@[simp] theorem State.setEngine_mgmt (c e : Nat) (g : Engine) : (s.setEngine c e g).mgmt = s.mgmt := rfl
@[simp] theorem State.setEngine_rings (c e : Nat) (g : Engine) : (s.setEngine c e g).rings = s.rings := rfl
@[simp] theorem State.setEngine_reads (c e : Nat) (g : Engine) : (s.setEngine c e g).reads = s.reads := rfl
@[simp] theorem State.setEngine_nextTag (c e : Nat) (g : Engine) : (s.setEngine c e g).nextTag = s.nextTag := rfl
@[simp] theorem State.setEngine_msix (c e : Nat) (g : Engine) : (s.setEngine c e g).msix = s.msix := rfl
@[simp] theorem State.setEngine_msixPending (c e : Nat) (g : Engine) : (s.setEngine c e g).msixPending = s.msixPending := rfl
@[simp] theorem State.setEngine_busMaster (c e : Nat) (g : Engine) : (s.setEngine c e g).busMaster = s.busMaster := rfl
@[simp] theorem State.setEngine_ats (c e : Nat) (g : Engine) : (s.setEngine c e g).ats = s.ats := rfl
@[simp] theorem State.setEngine_lanes (c e : Nat) (g : Engine) : (s.setEngine c e g).lanes = s.lanes := rfl
@[simp] theorem State.setEngine_bar (c e : Nat) (g : Engine) : (s.setEngine c e g).bar = s.bar := rfl
@[simp] theorem State.setEngine_field (c e : Nat) (g : Engine) : (s.setEngine c e g).field = s.field := rfl
@[simp] theorem State.setEngine_hk (c e : Nat) (g : Engine) : (s.setEngine c e g).hk = s.hk := rfl
@[simp] theorem State.setEngine_cnp (c e : Nat) (g : Engine) : (s.setEngine c e g).cnp = s.cnp := rfl
@[simp] theorem State.setEngine_sync (c e : Nat) (g : Engine) : (s.setEngine c e g).sync = s.sync := rfl
@[simp] theorem State.setEngine_rel (c e : Nat) (g : Engine) : (s.setEngine c e g).rel = s.rel := rfl
@[simp] theorem State.setEngine_keep (c e : Nat) (g : Engine) : (s.setEngine c e g).keep = s.keep := rfl
@[simp] theorem State.setEngine_power (c e : Nat) (g : Engine) : (s.setEngine c e g).power = s.power := rfl
@[simp] theorem State.setEngine_bootNs (c e : Nat) (g : Engine) : (s.setEngine c e g).bootNs = s.bootNs := rfl
@[simp] theorem State.setEngine_at_fget (c e : Nat) (g : Engine) (f' : Fld) (j : Nat) : (s.setEngine c e g).fget f' j = s.fget f' j := rfl
@[simp] theorem State.setEngine_at_tile (c e : Nat) (g : Engine) (c' k' : Nat) : (s.setEngine c e g).tile c' k' = s.tile c' k' := rfl
@[simp] theorem State.setEngine_at_restorer (c e : Nat) (g : Engine) (c' : Nat) : (s.setEngine c e g).restorer c' = s.restorer c' := rfl
@[simp] theorem State.setEngine_at_core (c e : Nat) (g : Engine) (c' : Nat) : (s.setEngine c e g).core c' = s.core c' := rfl
@[simp] theorem State.setEngine_at_seq (c e : Nat) (g : Engine) (c' : Nat) : (s.setEngine c e g).seq c' = s.seq c' := rfl
@[simp] theorem State.setEngine_at_ring (c e : Nat) (g : Engine) (k' : Nat) : (s.setEngine c e g).ring k' = s.ring k' := rfl
@[simp] theorem State.setEngine_at_lane (c e : Nat) (g : Engine) (l' : Nat) : (s.setEngine c e g).lane l' = s.lane l' := rfl
@[simp] theorem State.setEngine_at_cport (c e : Nat) (g : Engine) (p' : Nat) : (s.setEngine c e g).cport p' = s.cport p' := rfl
@[simp] theorem State.setEngine_at_rej (c e : Nat) (g : Engine) (k' : Nat) : (s.setEngine c e g).rej k' = s.rej k' := rfl
@[simp] theorem State.setEngine_at_ao (c e : Nat) (g : Engine) (k' : Nat) : (s.setEngine c e g).ao k' = s.ao k' := rfl
@[simp] theorem State.setEngine_at_lookout (c e : Nat) (g : Engine) (k' : Nat) : (s.setEngine c e g).lookout k' = s.lookout k' := rfl

/-! ### State.setTile changes `tiles` only -/

@[simp] theorem State.setTile_pending (c k : Nat) (x : Tile) : (s.setTile c k x).pending = s.pending := rfl
@[simp] theorem State.setTile_ns (c k : Nat) (x : Tile) : (s.setTile c k x).ns = s.ns := rfl
@[simp] theorem State.setTile_free (c k : Nat) (x : Tile) : (s.setTile c k x).free = s.free := rfl
@[simp] theorem State.setTile_fields (c k : Nat) (x : Tile) : (s.setTile c k x).fields = s.fields := rfl
@[simp] theorem State.setTile_staged (c k : Nat) (x : Tile) : (s.setTile c k x).staged = s.staged := rfl
@[simp] theorem State.setTile_latch (c k : Nat) (x : Tile) : (s.setTile c k x).latch = s.latch := rfl
@[simp] theorem State.setTile_lowHeld (c k : Nat) (x : Tile) : (s.setTile c k x).lowHeld = s.lowHeld := rfl
@[simp] theorem State.setTile_readData (c k : Nat) (x : Tile) : (s.setTile c k x).readData = s.readData := rfl
@[simp] theorem State.setTile_events (c k : Nat) (x : Tile) : (s.setTile c k x).events = s.events := rfl
@[simp] theorem State.setTile_lastLog (c k : Nat) (x : Tile) : (s.setTile c k x).lastLog = s.lastLog := rfl
@[simp] theorem State.setTile_heldLog (c k : Nat) (x : Tile) : (s.setTile c k x).heldLog = s.heldLog := rfl
@[simp] theorem State.setTile_out (c k : Nat) (x : Tile) : (s.setTile c k x).out = s.out := rfl
@[simp] theorem State.setTile_engines (c k : Nat) (x : Tile) : (s.setTile c k x).engines = s.engines := rfl
@[simp] theorem State.setTile_rst (c k : Nat) (x : Tile) : (s.setTile c k x).rst = s.rst := rfl
@[simp] theorem State.setTile_cores (c k : Nat) (x : Tile) : (s.setTile c k x).cores = s.cores := rfl
@[simp] theorem State.setTile_seqs (c k : Nat) (x : Tile) : (s.setTile c k x).seqs = s.seqs := rfl
@[simp] theorem State.setTile_sram (c k : Nat) (x : Tile) : (s.setTile c k x).sram = s.sram := rfl
@[simp] theorem State.setTile_models (c k : Nat) (x : Tile) : (s.setTile c k x).models = s.models := rfl
@[simp] theorem State.setTile_fab (c k : Nat) (x : Tile) : (s.setTile c k x).fab = s.fab := rfl
@[simp] theorem State.setTile_dram (c k : Nat) (x : Tile) : (s.setTile c k x).dram = s.dram := rfl
@[simp] theorem State.setTile_items (c k : Nat) (x : Tile) : (s.setTile c k x).items = s.items := rfl
@[simp] theorem State.setTile_mgmt (c k : Nat) (x : Tile) : (s.setTile c k x).mgmt = s.mgmt := rfl
@[simp] theorem State.setTile_rings (c k : Nat) (x : Tile) : (s.setTile c k x).rings = s.rings := rfl
@[simp] theorem State.setTile_reads (c k : Nat) (x : Tile) : (s.setTile c k x).reads = s.reads := rfl
@[simp] theorem State.setTile_nextTag (c k : Nat) (x : Tile) : (s.setTile c k x).nextTag = s.nextTag := rfl
@[simp] theorem State.setTile_msix (c k : Nat) (x : Tile) : (s.setTile c k x).msix = s.msix := rfl
@[simp] theorem State.setTile_msixPending (c k : Nat) (x : Tile) : (s.setTile c k x).msixPending = s.msixPending := rfl
@[simp] theorem State.setTile_busMaster (c k : Nat) (x : Tile) : (s.setTile c k x).busMaster = s.busMaster := rfl
@[simp] theorem State.setTile_ats (c k : Nat) (x : Tile) : (s.setTile c k x).ats = s.ats := rfl
@[simp] theorem State.setTile_lanes (c k : Nat) (x : Tile) : (s.setTile c k x).lanes = s.lanes := rfl
@[simp] theorem State.setTile_bar (c k : Nat) (x : Tile) : (s.setTile c k x).bar = s.bar := rfl
@[simp] theorem State.setTile_field (c k : Nat) (x : Tile) : (s.setTile c k x).field = s.field := rfl
@[simp] theorem State.setTile_hk (c k : Nat) (x : Tile) : (s.setTile c k x).hk = s.hk := rfl
@[simp] theorem State.setTile_cnp (c k : Nat) (x : Tile) : (s.setTile c k x).cnp = s.cnp := rfl
@[simp] theorem State.setTile_sync (c k : Nat) (x : Tile) : (s.setTile c k x).sync = s.sync := rfl
@[simp] theorem State.setTile_rel (c k : Nat) (x : Tile) : (s.setTile c k x).rel = s.rel := rfl
@[simp] theorem State.setTile_keep (c k : Nat) (x : Tile) : (s.setTile c k x).keep = s.keep := rfl
@[simp] theorem State.setTile_power (c k : Nat) (x : Tile) : (s.setTile c k x).power = s.power := rfl
@[simp] theorem State.setTile_bootNs (c k : Nat) (x : Tile) : (s.setTile c k x).bootNs = s.bootNs := rfl
@[simp] theorem State.setTile_at_fget (c k : Nat) (x : Tile) (f' : Fld) (j : Nat) : (s.setTile c k x).fget f' j = s.fget f' j := rfl
@[simp] theorem State.setTile_at_engine (c k : Nat) (x : Tile) (c' e' : Nat) : (s.setTile c k x).engine c' e' = s.engine c' e' := rfl
@[simp] theorem State.setTile_at_restorer (c k : Nat) (x : Tile) (c' : Nat) : (s.setTile c k x).restorer c' = s.restorer c' := rfl
@[simp] theorem State.setTile_at_core (c k : Nat) (x : Tile) (c' : Nat) : (s.setTile c k x).core c' = s.core c' := rfl
@[simp] theorem State.setTile_at_seq (c k : Nat) (x : Tile) (c' : Nat) : (s.setTile c k x).seq c' = s.seq c' := rfl
@[simp] theorem State.setTile_at_ring (c k : Nat) (x : Tile) (k' : Nat) : (s.setTile c k x).ring k' = s.ring k' := rfl
@[simp] theorem State.setTile_at_lane (c k : Nat) (x : Tile) (l' : Nat) : (s.setTile c k x).lane l' = s.lane l' := rfl
@[simp] theorem State.setTile_at_cport (c k : Nat) (x : Tile) (p' : Nat) : (s.setTile c k x).cport p' = s.cport p' := rfl
@[simp] theorem State.setTile_at_rej (c k : Nat) (x : Tile) (k' : Nat) : (s.setTile c k x).rej k' = s.rej k' := rfl
@[simp] theorem State.setTile_at_ao (c k : Nat) (x : Tile) (k' : Nat) : (s.setTile c k x).ao k' = s.ao k' := rfl
@[simp] theorem State.setTile_at_lookout (c k : Nat) (x : Tile) (k' : Nat) : (s.setTile c k x).lookout k' = s.lookout k' := rfl

/-! ### State.setRst changes `rst` only -/

@[simp] theorem State.setRst_pending (c : Nat) (r : Restorer) : (s.setRst c r).pending = s.pending := rfl
@[simp] theorem State.setRst_ns (c : Nat) (r : Restorer) : (s.setRst c r).ns = s.ns := rfl
@[simp] theorem State.setRst_free (c : Nat) (r : Restorer) : (s.setRst c r).free = s.free := rfl
@[simp] theorem State.setRst_fields (c : Nat) (r : Restorer) : (s.setRst c r).fields = s.fields := rfl
@[simp] theorem State.setRst_staged (c : Nat) (r : Restorer) : (s.setRst c r).staged = s.staged := rfl
@[simp] theorem State.setRst_latch (c : Nat) (r : Restorer) : (s.setRst c r).latch = s.latch := rfl
@[simp] theorem State.setRst_lowHeld (c : Nat) (r : Restorer) : (s.setRst c r).lowHeld = s.lowHeld := rfl
@[simp] theorem State.setRst_readData (c : Nat) (r : Restorer) : (s.setRst c r).readData = s.readData := rfl
@[simp] theorem State.setRst_events (c : Nat) (r : Restorer) : (s.setRst c r).events = s.events := rfl
@[simp] theorem State.setRst_lastLog (c : Nat) (r : Restorer) : (s.setRst c r).lastLog = s.lastLog := rfl
@[simp] theorem State.setRst_heldLog (c : Nat) (r : Restorer) : (s.setRst c r).heldLog = s.heldLog := rfl
@[simp] theorem State.setRst_out (c : Nat) (r : Restorer) : (s.setRst c r).out = s.out := rfl
@[simp] theorem State.setRst_engines (c : Nat) (r : Restorer) : (s.setRst c r).engines = s.engines := rfl
@[simp] theorem State.setRst_tiles (c : Nat) (r : Restorer) : (s.setRst c r).tiles = s.tiles := rfl
@[simp] theorem State.setRst_cores (c : Nat) (r : Restorer) : (s.setRst c r).cores = s.cores := rfl
@[simp] theorem State.setRst_seqs (c : Nat) (r : Restorer) : (s.setRst c r).seqs = s.seqs := rfl
@[simp] theorem State.setRst_sram (c : Nat) (r : Restorer) : (s.setRst c r).sram = s.sram := rfl
@[simp] theorem State.setRst_models (c : Nat) (r : Restorer) : (s.setRst c r).models = s.models := rfl
@[simp] theorem State.setRst_fab (c : Nat) (r : Restorer) : (s.setRst c r).fab = s.fab := rfl
@[simp] theorem State.setRst_dram (c : Nat) (r : Restorer) : (s.setRst c r).dram = s.dram := rfl
@[simp] theorem State.setRst_items (c : Nat) (r : Restorer) : (s.setRst c r).items = s.items := rfl
@[simp] theorem State.setRst_mgmt (c : Nat) (r : Restorer) : (s.setRst c r).mgmt = s.mgmt := rfl
@[simp] theorem State.setRst_rings (c : Nat) (r : Restorer) : (s.setRst c r).rings = s.rings := rfl
@[simp] theorem State.setRst_reads (c : Nat) (r : Restorer) : (s.setRst c r).reads = s.reads := rfl
@[simp] theorem State.setRst_nextTag (c : Nat) (r : Restorer) : (s.setRst c r).nextTag = s.nextTag := rfl
@[simp] theorem State.setRst_msix (c : Nat) (r : Restorer) : (s.setRst c r).msix = s.msix := rfl
@[simp] theorem State.setRst_msixPending (c : Nat) (r : Restorer) : (s.setRst c r).msixPending = s.msixPending := rfl
@[simp] theorem State.setRst_busMaster (c : Nat) (r : Restorer) : (s.setRst c r).busMaster = s.busMaster := rfl
@[simp] theorem State.setRst_ats (c : Nat) (r : Restorer) : (s.setRst c r).ats = s.ats := rfl
@[simp] theorem State.setRst_lanes (c : Nat) (r : Restorer) : (s.setRst c r).lanes = s.lanes := rfl
@[simp] theorem State.setRst_bar (c : Nat) (r : Restorer) : (s.setRst c r).bar = s.bar := rfl
@[simp] theorem State.setRst_field (c : Nat) (r : Restorer) : (s.setRst c r).field = s.field := rfl
@[simp] theorem State.setRst_hk (c : Nat) (r : Restorer) : (s.setRst c r).hk = s.hk := rfl
@[simp] theorem State.setRst_cnp (c : Nat) (r : Restorer) : (s.setRst c r).cnp = s.cnp := rfl
@[simp] theorem State.setRst_sync (c : Nat) (r : Restorer) : (s.setRst c r).sync = s.sync := rfl
@[simp] theorem State.setRst_rel (c : Nat) (r : Restorer) : (s.setRst c r).rel = s.rel := rfl
@[simp] theorem State.setRst_keep (c : Nat) (r : Restorer) : (s.setRst c r).keep = s.keep := rfl
@[simp] theorem State.setRst_power (c : Nat) (r : Restorer) : (s.setRst c r).power = s.power := rfl
@[simp] theorem State.setRst_bootNs (c : Nat) (r : Restorer) : (s.setRst c r).bootNs = s.bootNs := rfl
@[simp] theorem State.setRst_at_fget (c : Nat) (r : Restorer) (f' : Fld) (j : Nat) : (s.setRst c r).fget f' j = s.fget f' j := rfl
@[simp] theorem State.setRst_at_engine (c : Nat) (r : Restorer) (c' e' : Nat) : (s.setRst c r).engine c' e' = s.engine c' e' := rfl
@[simp] theorem State.setRst_at_tile (c : Nat) (r : Restorer) (c' k' : Nat) : (s.setRst c r).tile c' k' = s.tile c' k' := rfl
@[simp] theorem State.setRst_at_core (c : Nat) (r : Restorer) (c' : Nat) : (s.setRst c r).core c' = s.core c' := rfl
@[simp] theorem State.setRst_at_seq (c : Nat) (r : Restorer) (c' : Nat) : (s.setRst c r).seq c' = s.seq c' := rfl
@[simp] theorem State.setRst_at_ring (c : Nat) (r : Restorer) (k' : Nat) : (s.setRst c r).ring k' = s.ring k' := rfl
@[simp] theorem State.setRst_at_lane (c : Nat) (r : Restorer) (l' : Nat) : (s.setRst c r).lane l' = s.lane l' := rfl
@[simp] theorem State.setRst_at_cport (c : Nat) (r : Restorer) (p' : Nat) : (s.setRst c r).cport p' = s.cport p' := rfl
@[simp] theorem State.setRst_at_rej (c : Nat) (r : Restorer) (k' : Nat) : (s.setRst c r).rej k' = s.rej k' := rfl
@[simp] theorem State.setRst_at_ao (c : Nat) (r : Restorer) (k' : Nat) : (s.setRst c r).ao k' = s.ao k' := rfl
@[simp] theorem State.setRst_at_lookout (c : Nat) (r : Restorer) (k' : Nat) : (s.setRst c r).lookout k' = s.lookout k' := rfl

/-! ### State.setCore changes `cores` only -/

@[simp] theorem State.setCore_pending (c : Nat) (x : CoreSt) : (s.setCore c x).pending = s.pending := rfl
@[simp] theorem State.setCore_ns (c : Nat) (x : CoreSt) : (s.setCore c x).ns = s.ns := rfl
@[simp] theorem State.setCore_free (c : Nat) (x : CoreSt) : (s.setCore c x).free = s.free := rfl
@[simp] theorem State.setCore_fields (c : Nat) (x : CoreSt) : (s.setCore c x).fields = s.fields := rfl
@[simp] theorem State.setCore_staged (c : Nat) (x : CoreSt) : (s.setCore c x).staged = s.staged := rfl
@[simp] theorem State.setCore_latch (c : Nat) (x : CoreSt) : (s.setCore c x).latch = s.latch := rfl
@[simp] theorem State.setCore_lowHeld (c : Nat) (x : CoreSt) : (s.setCore c x).lowHeld = s.lowHeld := rfl
@[simp] theorem State.setCore_readData (c : Nat) (x : CoreSt) : (s.setCore c x).readData = s.readData := rfl
@[simp] theorem State.setCore_events (c : Nat) (x : CoreSt) : (s.setCore c x).events = s.events := rfl
@[simp] theorem State.setCore_lastLog (c : Nat) (x : CoreSt) : (s.setCore c x).lastLog = s.lastLog := rfl
@[simp] theorem State.setCore_heldLog (c : Nat) (x : CoreSt) : (s.setCore c x).heldLog = s.heldLog := rfl
@[simp] theorem State.setCore_out (c : Nat) (x : CoreSt) : (s.setCore c x).out = s.out := rfl
@[simp] theorem State.setCore_engines (c : Nat) (x : CoreSt) : (s.setCore c x).engines = s.engines := rfl
@[simp] theorem State.setCore_tiles (c : Nat) (x : CoreSt) : (s.setCore c x).tiles = s.tiles := rfl
@[simp] theorem State.setCore_rst (c : Nat) (x : CoreSt) : (s.setCore c x).rst = s.rst := rfl
@[simp] theorem State.setCore_seqs (c : Nat) (x : CoreSt) : (s.setCore c x).seqs = s.seqs := rfl
@[simp] theorem State.setCore_sram (c : Nat) (x : CoreSt) : (s.setCore c x).sram = s.sram := rfl
@[simp] theorem State.setCore_models (c : Nat) (x : CoreSt) : (s.setCore c x).models = s.models := rfl
@[simp] theorem State.setCore_fab (c : Nat) (x : CoreSt) : (s.setCore c x).fab = s.fab := rfl
@[simp] theorem State.setCore_dram (c : Nat) (x : CoreSt) : (s.setCore c x).dram = s.dram := rfl
@[simp] theorem State.setCore_items (c : Nat) (x : CoreSt) : (s.setCore c x).items = s.items := rfl
@[simp] theorem State.setCore_mgmt (c : Nat) (x : CoreSt) : (s.setCore c x).mgmt = s.mgmt := rfl
@[simp] theorem State.setCore_rings (c : Nat) (x : CoreSt) : (s.setCore c x).rings = s.rings := rfl
@[simp] theorem State.setCore_reads (c : Nat) (x : CoreSt) : (s.setCore c x).reads = s.reads := rfl
@[simp] theorem State.setCore_nextTag (c : Nat) (x : CoreSt) : (s.setCore c x).nextTag = s.nextTag := rfl
@[simp] theorem State.setCore_msix (c : Nat) (x : CoreSt) : (s.setCore c x).msix = s.msix := rfl
@[simp] theorem State.setCore_msixPending (c : Nat) (x : CoreSt) : (s.setCore c x).msixPending = s.msixPending := rfl
@[simp] theorem State.setCore_busMaster (c : Nat) (x : CoreSt) : (s.setCore c x).busMaster = s.busMaster := rfl
@[simp] theorem State.setCore_ats (c : Nat) (x : CoreSt) : (s.setCore c x).ats = s.ats := rfl
@[simp] theorem State.setCore_lanes (c : Nat) (x : CoreSt) : (s.setCore c x).lanes = s.lanes := rfl
@[simp] theorem State.setCore_bar (c : Nat) (x : CoreSt) : (s.setCore c x).bar = s.bar := rfl
@[simp] theorem State.setCore_field (c : Nat) (x : CoreSt) : (s.setCore c x).field = s.field := rfl
@[simp] theorem State.setCore_hk (c : Nat) (x : CoreSt) : (s.setCore c x).hk = s.hk := rfl
@[simp] theorem State.setCore_cnp (c : Nat) (x : CoreSt) : (s.setCore c x).cnp = s.cnp := rfl
@[simp] theorem State.setCore_sync (c : Nat) (x : CoreSt) : (s.setCore c x).sync = s.sync := rfl
@[simp] theorem State.setCore_rel (c : Nat) (x : CoreSt) : (s.setCore c x).rel = s.rel := rfl
@[simp] theorem State.setCore_keep (c : Nat) (x : CoreSt) : (s.setCore c x).keep = s.keep := rfl
@[simp] theorem State.setCore_power (c : Nat) (x : CoreSt) : (s.setCore c x).power = s.power := rfl
@[simp] theorem State.setCore_bootNs (c : Nat) (x : CoreSt) : (s.setCore c x).bootNs = s.bootNs := rfl
@[simp] theorem State.setCore_at_fget (c : Nat) (x : CoreSt) (f' : Fld) (j : Nat) : (s.setCore c x).fget f' j = s.fget f' j := rfl
@[simp] theorem State.setCore_at_engine (c : Nat) (x : CoreSt) (c' e' : Nat) : (s.setCore c x).engine c' e' = s.engine c' e' := rfl
@[simp] theorem State.setCore_at_tile (c : Nat) (x : CoreSt) (c' k' : Nat) : (s.setCore c x).tile c' k' = s.tile c' k' := rfl
@[simp] theorem State.setCore_at_restorer (c : Nat) (x : CoreSt) (c' : Nat) : (s.setCore c x).restorer c' = s.restorer c' := rfl
@[simp] theorem State.setCore_at_seq (c : Nat) (x : CoreSt) (c' : Nat) : (s.setCore c x).seq c' = s.seq c' := rfl
@[simp] theorem State.setCore_at_ring (c : Nat) (x : CoreSt) (k' : Nat) : (s.setCore c x).ring k' = s.ring k' := rfl
@[simp] theorem State.setCore_at_lane (c : Nat) (x : CoreSt) (l' : Nat) : (s.setCore c x).lane l' = s.lane l' := rfl
@[simp] theorem State.setCore_at_cport (c : Nat) (x : CoreSt) (p' : Nat) : (s.setCore c x).cport p' = s.cport p' := rfl
@[simp] theorem State.setCore_at_rej (c : Nat) (x : CoreSt) (k' : Nat) : (s.setCore c x).rej k' = s.rej k' := rfl
@[simp] theorem State.setCore_at_ao (c : Nat) (x : CoreSt) (k' : Nat) : (s.setCore c x).ao k' = s.ao k' := rfl
@[simp] theorem State.setCore_at_lookout (c : Nat) (x : CoreSt) (k' : Nat) : (s.setCore c x).lookout k' = s.lookout k' := rfl

/-! ### State.setSeq changes `seqs` only -/

@[simp] theorem State.setSeq_pending (c : Nat) (x : Sequencer) : (s.setSeq c x).pending = s.pending := rfl
@[simp] theorem State.setSeq_ns (c : Nat) (x : Sequencer) : (s.setSeq c x).ns = s.ns := rfl
@[simp] theorem State.setSeq_free (c : Nat) (x : Sequencer) : (s.setSeq c x).free = s.free := rfl
@[simp] theorem State.setSeq_fields (c : Nat) (x : Sequencer) : (s.setSeq c x).fields = s.fields := rfl
@[simp] theorem State.setSeq_staged (c : Nat) (x : Sequencer) : (s.setSeq c x).staged = s.staged := rfl
@[simp] theorem State.setSeq_latch (c : Nat) (x : Sequencer) : (s.setSeq c x).latch = s.latch := rfl
@[simp] theorem State.setSeq_lowHeld (c : Nat) (x : Sequencer) : (s.setSeq c x).lowHeld = s.lowHeld := rfl
@[simp] theorem State.setSeq_readData (c : Nat) (x : Sequencer) : (s.setSeq c x).readData = s.readData := rfl
@[simp] theorem State.setSeq_events (c : Nat) (x : Sequencer) : (s.setSeq c x).events = s.events := rfl
@[simp] theorem State.setSeq_lastLog (c : Nat) (x : Sequencer) : (s.setSeq c x).lastLog = s.lastLog := rfl
@[simp] theorem State.setSeq_heldLog (c : Nat) (x : Sequencer) : (s.setSeq c x).heldLog = s.heldLog := rfl
@[simp] theorem State.setSeq_out (c : Nat) (x : Sequencer) : (s.setSeq c x).out = s.out := rfl
@[simp] theorem State.setSeq_engines (c : Nat) (x : Sequencer) : (s.setSeq c x).engines = s.engines := rfl
@[simp] theorem State.setSeq_tiles (c : Nat) (x : Sequencer) : (s.setSeq c x).tiles = s.tiles := rfl
@[simp] theorem State.setSeq_rst (c : Nat) (x : Sequencer) : (s.setSeq c x).rst = s.rst := rfl
@[simp] theorem State.setSeq_cores (c : Nat) (x : Sequencer) : (s.setSeq c x).cores = s.cores := rfl
@[simp] theorem State.setSeq_sram (c : Nat) (x : Sequencer) : (s.setSeq c x).sram = s.sram := rfl
@[simp] theorem State.setSeq_models (c : Nat) (x : Sequencer) : (s.setSeq c x).models = s.models := rfl
@[simp] theorem State.setSeq_fab (c : Nat) (x : Sequencer) : (s.setSeq c x).fab = s.fab := rfl
@[simp] theorem State.setSeq_dram (c : Nat) (x : Sequencer) : (s.setSeq c x).dram = s.dram := rfl
@[simp] theorem State.setSeq_items (c : Nat) (x : Sequencer) : (s.setSeq c x).items = s.items := rfl
@[simp] theorem State.setSeq_mgmt (c : Nat) (x : Sequencer) : (s.setSeq c x).mgmt = s.mgmt := rfl
@[simp] theorem State.setSeq_rings (c : Nat) (x : Sequencer) : (s.setSeq c x).rings = s.rings := rfl
@[simp] theorem State.setSeq_reads (c : Nat) (x : Sequencer) : (s.setSeq c x).reads = s.reads := rfl
@[simp] theorem State.setSeq_nextTag (c : Nat) (x : Sequencer) : (s.setSeq c x).nextTag = s.nextTag := rfl
@[simp] theorem State.setSeq_msix (c : Nat) (x : Sequencer) : (s.setSeq c x).msix = s.msix := rfl
@[simp] theorem State.setSeq_msixPending (c : Nat) (x : Sequencer) : (s.setSeq c x).msixPending = s.msixPending := rfl
@[simp] theorem State.setSeq_busMaster (c : Nat) (x : Sequencer) : (s.setSeq c x).busMaster = s.busMaster := rfl
@[simp] theorem State.setSeq_ats (c : Nat) (x : Sequencer) : (s.setSeq c x).ats = s.ats := rfl
@[simp] theorem State.setSeq_lanes (c : Nat) (x : Sequencer) : (s.setSeq c x).lanes = s.lanes := rfl
@[simp] theorem State.setSeq_bar (c : Nat) (x : Sequencer) : (s.setSeq c x).bar = s.bar := rfl
@[simp] theorem State.setSeq_field (c : Nat) (x : Sequencer) : (s.setSeq c x).field = s.field := rfl
@[simp] theorem State.setSeq_hk (c : Nat) (x : Sequencer) : (s.setSeq c x).hk = s.hk := rfl
@[simp] theorem State.setSeq_cnp (c : Nat) (x : Sequencer) : (s.setSeq c x).cnp = s.cnp := rfl
@[simp] theorem State.setSeq_sync (c : Nat) (x : Sequencer) : (s.setSeq c x).sync = s.sync := rfl
@[simp] theorem State.setSeq_rel (c : Nat) (x : Sequencer) : (s.setSeq c x).rel = s.rel := rfl
@[simp] theorem State.setSeq_keep (c : Nat) (x : Sequencer) : (s.setSeq c x).keep = s.keep := rfl
@[simp] theorem State.setSeq_power (c : Nat) (x : Sequencer) : (s.setSeq c x).power = s.power := rfl
@[simp] theorem State.setSeq_bootNs (c : Nat) (x : Sequencer) : (s.setSeq c x).bootNs = s.bootNs := rfl
@[simp] theorem State.setSeq_at_fget (c : Nat) (x : Sequencer) (f' : Fld) (j : Nat) : (s.setSeq c x).fget f' j = s.fget f' j := rfl
@[simp] theorem State.setSeq_at_engine (c : Nat) (x : Sequencer) (c' e' : Nat) : (s.setSeq c x).engine c' e' = s.engine c' e' := rfl
@[simp] theorem State.setSeq_at_tile (c : Nat) (x : Sequencer) (c' k' : Nat) : (s.setSeq c x).tile c' k' = s.tile c' k' := rfl
@[simp] theorem State.setSeq_at_restorer (c : Nat) (x : Sequencer) (c' : Nat) : (s.setSeq c x).restorer c' = s.restorer c' := rfl
@[simp] theorem State.setSeq_at_core (c : Nat) (x : Sequencer) (c' : Nat) : (s.setSeq c x).core c' = s.core c' := rfl
@[simp] theorem State.setSeq_at_ring (c : Nat) (x : Sequencer) (k' : Nat) : (s.setSeq c x).ring k' = s.ring k' := rfl
@[simp] theorem State.setSeq_at_lane (c : Nat) (x : Sequencer) (l' : Nat) : (s.setSeq c x).lane l' = s.lane l' := rfl
@[simp] theorem State.setSeq_at_cport (c : Nat) (x : Sequencer) (p' : Nat) : (s.setSeq c x).cport p' = s.cport p' := rfl
@[simp] theorem State.setSeq_at_rej (c : Nat) (x : Sequencer) (k' : Nat) : (s.setSeq c x).rej k' = s.rej k' := rfl
@[simp] theorem State.setSeq_at_ao (c : Nat) (x : Sequencer) (k' : Nat) : (s.setSeq c x).ao k' = s.ao k' := rfl
@[simp] theorem State.setSeq_at_lookout (c : Nat) (x : Sequencer) (k' : Nat) : (s.setSeq c x).lookout k' = s.lookout k' := rfl

/-! ### State.sramWrite changes `sram` only -/

@[simp] theorem State.sramWrite_pending (c a : Nat) (b : List Nat) : (s.sramWrite c a b).pending = s.pending := rfl
@[simp] theorem State.sramWrite_ns (c a : Nat) (b : List Nat) : (s.sramWrite c a b).ns = s.ns := rfl
@[simp] theorem State.sramWrite_free (c a : Nat) (b : List Nat) : (s.sramWrite c a b).free = s.free := rfl
@[simp] theorem State.sramWrite_fields (c a : Nat) (b : List Nat) : (s.sramWrite c a b).fields = s.fields := rfl
@[simp] theorem State.sramWrite_staged (c a : Nat) (b : List Nat) : (s.sramWrite c a b).staged = s.staged := rfl
@[simp] theorem State.sramWrite_latch (c a : Nat) (b : List Nat) : (s.sramWrite c a b).latch = s.latch := rfl
@[simp] theorem State.sramWrite_lowHeld (c a : Nat) (b : List Nat) : (s.sramWrite c a b).lowHeld = s.lowHeld := rfl
@[simp] theorem State.sramWrite_readData (c a : Nat) (b : List Nat) : (s.sramWrite c a b).readData = s.readData := rfl
@[simp] theorem State.sramWrite_events (c a : Nat) (b : List Nat) : (s.sramWrite c a b).events = s.events := rfl
@[simp] theorem State.sramWrite_lastLog (c a : Nat) (b : List Nat) : (s.sramWrite c a b).lastLog = s.lastLog := rfl
@[simp] theorem State.sramWrite_heldLog (c a : Nat) (b : List Nat) : (s.sramWrite c a b).heldLog = s.heldLog := rfl
@[simp] theorem State.sramWrite_out (c a : Nat) (b : List Nat) : (s.sramWrite c a b).out = s.out := rfl
@[simp] theorem State.sramWrite_engines (c a : Nat) (b : List Nat) : (s.sramWrite c a b).engines = s.engines := rfl
@[simp] theorem State.sramWrite_tiles (c a : Nat) (b : List Nat) : (s.sramWrite c a b).tiles = s.tiles := rfl
@[simp] theorem State.sramWrite_rst (c a : Nat) (b : List Nat) : (s.sramWrite c a b).rst = s.rst := rfl
@[simp] theorem State.sramWrite_cores (c a : Nat) (b : List Nat) : (s.sramWrite c a b).cores = s.cores := rfl
@[simp] theorem State.sramWrite_seqs (c a : Nat) (b : List Nat) : (s.sramWrite c a b).seqs = s.seqs := rfl
@[simp] theorem State.sramWrite_models (c a : Nat) (b : List Nat) : (s.sramWrite c a b).models = s.models := rfl
@[simp] theorem State.sramWrite_fab (c a : Nat) (b : List Nat) : (s.sramWrite c a b).fab = s.fab := rfl
@[simp] theorem State.sramWrite_dram (c a : Nat) (b : List Nat) : (s.sramWrite c a b).dram = s.dram := rfl
@[simp] theorem State.sramWrite_items (c a : Nat) (b : List Nat) : (s.sramWrite c a b).items = s.items := rfl
@[simp] theorem State.sramWrite_mgmt (c a : Nat) (b : List Nat) : (s.sramWrite c a b).mgmt = s.mgmt := rfl
@[simp] theorem State.sramWrite_rings (c a : Nat) (b : List Nat) : (s.sramWrite c a b).rings = s.rings := rfl
@[simp] theorem State.sramWrite_reads (c a : Nat) (b : List Nat) : (s.sramWrite c a b).reads = s.reads := rfl
@[simp] theorem State.sramWrite_nextTag (c a : Nat) (b : List Nat) : (s.sramWrite c a b).nextTag = s.nextTag := rfl
@[simp] theorem State.sramWrite_msix (c a : Nat) (b : List Nat) : (s.sramWrite c a b).msix = s.msix := rfl
@[simp] theorem State.sramWrite_msixPending (c a : Nat) (b : List Nat) : (s.sramWrite c a b).msixPending = s.msixPending := rfl
@[simp] theorem State.sramWrite_busMaster (c a : Nat) (b : List Nat) : (s.sramWrite c a b).busMaster = s.busMaster := rfl
@[simp] theorem State.sramWrite_ats (c a : Nat) (b : List Nat) : (s.sramWrite c a b).ats = s.ats := rfl
@[simp] theorem State.sramWrite_lanes (c a : Nat) (b : List Nat) : (s.sramWrite c a b).lanes = s.lanes := rfl
@[simp] theorem State.sramWrite_bar (c a : Nat) (b : List Nat) : (s.sramWrite c a b).bar = s.bar := rfl
@[simp] theorem State.sramWrite_field (c a : Nat) (b : List Nat) : (s.sramWrite c a b).field = s.field := rfl
@[simp] theorem State.sramWrite_hk (c a : Nat) (b : List Nat) : (s.sramWrite c a b).hk = s.hk := rfl
@[simp] theorem State.sramWrite_cnp (c a : Nat) (b : List Nat) : (s.sramWrite c a b).cnp = s.cnp := rfl
@[simp] theorem State.sramWrite_sync (c a : Nat) (b : List Nat) : (s.sramWrite c a b).sync = s.sync := rfl
@[simp] theorem State.sramWrite_rel (c a : Nat) (b : List Nat) : (s.sramWrite c a b).rel = s.rel := rfl
@[simp] theorem State.sramWrite_keep (c a : Nat) (b : List Nat) : (s.sramWrite c a b).keep = s.keep := rfl
@[simp] theorem State.sramWrite_power (c a : Nat) (b : List Nat) : (s.sramWrite c a b).power = s.power := rfl
@[simp] theorem State.sramWrite_bootNs (c a : Nat) (b : List Nat) : (s.sramWrite c a b).bootNs = s.bootNs := rfl
@[simp] theorem State.sramWrite_at_fget (c a : Nat) (b : List Nat) (f' : Fld) (j : Nat) : (s.sramWrite c a b).fget f' j = s.fget f' j := rfl
@[simp] theorem State.sramWrite_at_engine (c a : Nat) (b : List Nat) (c' e' : Nat) : (s.sramWrite c a b).engine c' e' = s.engine c' e' := rfl
@[simp] theorem State.sramWrite_at_tile (c a : Nat) (b : List Nat) (c' k' : Nat) : (s.sramWrite c a b).tile c' k' = s.tile c' k' := rfl
@[simp] theorem State.sramWrite_at_restorer (c a : Nat) (b : List Nat) (c' : Nat) : (s.sramWrite c a b).restorer c' = s.restorer c' := rfl
@[simp] theorem State.sramWrite_at_core (c a : Nat) (b : List Nat) (c' : Nat) : (s.sramWrite c a b).core c' = s.core c' := rfl
@[simp] theorem State.sramWrite_at_seq (c a : Nat) (b : List Nat) (c' : Nat) : (s.sramWrite c a b).seq c' = s.seq c' := rfl
@[simp] theorem State.sramWrite_at_ring (c a : Nat) (b : List Nat) (k' : Nat) : (s.sramWrite c a b).ring k' = s.ring k' := rfl
@[simp] theorem State.sramWrite_at_lane (c a : Nat) (b : List Nat) (l' : Nat) : (s.sramWrite c a b).lane l' = s.lane l' := rfl
@[simp] theorem State.sramWrite_at_cport (c a : Nat) (b : List Nat) (p' : Nat) : (s.sramWrite c a b).cport p' = s.cport p' := rfl
@[simp] theorem State.sramWrite_at_rej (c a : Nat) (b : List Nat) (k' : Nat) : (s.sramWrite c a b).rej k' = s.rej k' := rfl
@[simp] theorem State.sramWrite_at_ao (c a : Nat) (b : List Nat) (k' : Nat) : (s.sramWrite c a b).ao k' = s.ao k' := rfl
@[simp] theorem State.sramWrite_at_lookout (c a : Nat) (b : List Nat) (k' : Nat) : (s.sramWrite c a b).lookout k' = s.lookout k' := rfl

/-! ### State.dramWrite changes `dram` only -/

@[simp] theorem State.dramWrite_pending (a : Nat) (b : List Nat) : (s.dramWrite a b).pending = s.pending := rfl
@[simp] theorem State.dramWrite_ns (a : Nat) (b : List Nat) : (s.dramWrite a b).ns = s.ns := rfl
@[simp] theorem State.dramWrite_free (a : Nat) (b : List Nat) : (s.dramWrite a b).free = s.free := rfl
@[simp] theorem State.dramWrite_fields (a : Nat) (b : List Nat) : (s.dramWrite a b).fields = s.fields := rfl
@[simp] theorem State.dramWrite_staged (a : Nat) (b : List Nat) : (s.dramWrite a b).staged = s.staged := rfl
@[simp] theorem State.dramWrite_latch (a : Nat) (b : List Nat) : (s.dramWrite a b).latch = s.latch := rfl
@[simp] theorem State.dramWrite_lowHeld (a : Nat) (b : List Nat) : (s.dramWrite a b).lowHeld = s.lowHeld := rfl
@[simp] theorem State.dramWrite_readData (a : Nat) (b : List Nat) : (s.dramWrite a b).readData = s.readData := rfl
@[simp] theorem State.dramWrite_events (a : Nat) (b : List Nat) : (s.dramWrite a b).events = s.events := rfl
@[simp] theorem State.dramWrite_lastLog (a : Nat) (b : List Nat) : (s.dramWrite a b).lastLog = s.lastLog := rfl
@[simp] theorem State.dramWrite_heldLog (a : Nat) (b : List Nat) : (s.dramWrite a b).heldLog = s.heldLog := rfl
@[simp] theorem State.dramWrite_out (a : Nat) (b : List Nat) : (s.dramWrite a b).out = s.out := rfl
@[simp] theorem State.dramWrite_engines (a : Nat) (b : List Nat) : (s.dramWrite a b).engines = s.engines := rfl
@[simp] theorem State.dramWrite_tiles (a : Nat) (b : List Nat) : (s.dramWrite a b).tiles = s.tiles := rfl
@[simp] theorem State.dramWrite_rst (a : Nat) (b : List Nat) : (s.dramWrite a b).rst = s.rst := rfl
@[simp] theorem State.dramWrite_cores (a : Nat) (b : List Nat) : (s.dramWrite a b).cores = s.cores := rfl
@[simp] theorem State.dramWrite_seqs (a : Nat) (b : List Nat) : (s.dramWrite a b).seqs = s.seqs := rfl
@[simp] theorem State.dramWrite_sram (a : Nat) (b : List Nat) : (s.dramWrite a b).sram = s.sram := rfl
@[simp] theorem State.dramWrite_models (a : Nat) (b : List Nat) : (s.dramWrite a b).models = s.models := rfl
@[simp] theorem State.dramWrite_fab (a : Nat) (b : List Nat) : (s.dramWrite a b).fab = s.fab := rfl
@[simp] theorem State.dramWrite_items (a : Nat) (b : List Nat) : (s.dramWrite a b).items = s.items := rfl
@[simp] theorem State.dramWrite_mgmt (a : Nat) (b : List Nat) : (s.dramWrite a b).mgmt = s.mgmt := rfl
@[simp] theorem State.dramWrite_rings (a : Nat) (b : List Nat) : (s.dramWrite a b).rings = s.rings := rfl
@[simp] theorem State.dramWrite_reads (a : Nat) (b : List Nat) : (s.dramWrite a b).reads = s.reads := rfl
@[simp] theorem State.dramWrite_nextTag (a : Nat) (b : List Nat) : (s.dramWrite a b).nextTag = s.nextTag := rfl
@[simp] theorem State.dramWrite_msix (a : Nat) (b : List Nat) : (s.dramWrite a b).msix = s.msix := rfl
@[simp] theorem State.dramWrite_msixPending (a : Nat) (b : List Nat) : (s.dramWrite a b).msixPending = s.msixPending := rfl
@[simp] theorem State.dramWrite_busMaster (a : Nat) (b : List Nat) : (s.dramWrite a b).busMaster = s.busMaster := rfl
@[simp] theorem State.dramWrite_ats (a : Nat) (b : List Nat) : (s.dramWrite a b).ats = s.ats := rfl
@[simp] theorem State.dramWrite_lanes (a : Nat) (b : List Nat) : (s.dramWrite a b).lanes = s.lanes := rfl
@[simp] theorem State.dramWrite_bar (a : Nat) (b : List Nat) : (s.dramWrite a b).bar = s.bar := rfl
@[simp] theorem State.dramWrite_field (a : Nat) (b : List Nat) : (s.dramWrite a b).field = s.field := rfl
@[simp] theorem State.dramWrite_hk (a : Nat) (b : List Nat) : (s.dramWrite a b).hk = s.hk := rfl
@[simp] theorem State.dramWrite_cnp (a : Nat) (b : List Nat) : (s.dramWrite a b).cnp = s.cnp := rfl
@[simp] theorem State.dramWrite_sync (a : Nat) (b : List Nat) : (s.dramWrite a b).sync = s.sync := rfl
@[simp] theorem State.dramWrite_rel (a : Nat) (b : List Nat) : (s.dramWrite a b).rel = s.rel := rfl
@[simp] theorem State.dramWrite_keep (a : Nat) (b : List Nat) : (s.dramWrite a b).keep = s.keep := rfl
@[simp] theorem State.dramWrite_power (a : Nat) (b : List Nat) : (s.dramWrite a b).power = s.power := rfl
@[simp] theorem State.dramWrite_bootNs (a : Nat) (b : List Nat) : (s.dramWrite a b).bootNs = s.bootNs := rfl
@[simp] theorem State.dramWrite_at_fget (a : Nat) (b : List Nat) (f' : Fld) (j : Nat) : (s.dramWrite a b).fget f' j = s.fget f' j := rfl
@[simp] theorem State.dramWrite_at_engine (a : Nat) (b : List Nat) (c' e' : Nat) : (s.dramWrite a b).engine c' e' = s.engine c' e' := rfl
@[simp] theorem State.dramWrite_at_tile (a : Nat) (b : List Nat) (c' k' : Nat) : (s.dramWrite a b).tile c' k' = s.tile c' k' := rfl
@[simp] theorem State.dramWrite_at_restorer (a : Nat) (b : List Nat) (c' : Nat) : (s.dramWrite a b).restorer c' = s.restorer c' := rfl
@[simp] theorem State.dramWrite_at_core (a : Nat) (b : List Nat) (c' : Nat) : (s.dramWrite a b).core c' = s.core c' := rfl
@[simp] theorem State.dramWrite_at_seq (a : Nat) (b : List Nat) (c' : Nat) : (s.dramWrite a b).seq c' = s.seq c' := rfl
@[simp] theorem State.dramWrite_at_ring (a : Nat) (b : List Nat) (k' : Nat) : (s.dramWrite a b).ring k' = s.ring k' := rfl
@[simp] theorem State.dramWrite_at_lane (a : Nat) (b : List Nat) (l' : Nat) : (s.dramWrite a b).lane l' = s.lane l' := rfl
@[simp] theorem State.dramWrite_at_cport (a : Nat) (b : List Nat) (p' : Nat) : (s.dramWrite a b).cport p' = s.cport p' := rfl
@[simp] theorem State.dramWrite_at_rej (a : Nat) (b : List Nat) (k' : Nat) : (s.dramWrite a b).rej k' = s.rej k' := rfl
@[simp] theorem State.dramWrite_at_ao (a : Nat) (b : List Nat) (k' : Nat) : (s.dramWrite a b).ao k' = s.ao k' := rfl
@[simp] theorem State.dramWrite_at_lookout (a : Nat) (b : List Nat) (k' : Nat) : (s.dramWrite a b).lookout k' = s.lookout k' := rfl

/-! ### State.post changes `fab` only -/

@[simp] theorem State.post_pending (p : Packet) : (s.post p).pending = s.pending := rfl
@[simp] theorem State.post_ns (p : Packet) : (s.post p).ns = s.ns := rfl
@[simp] theorem State.post_free (p : Packet) : (s.post p).free = s.free := rfl
@[simp] theorem State.post_fields (p : Packet) : (s.post p).fields = s.fields := rfl
@[simp] theorem State.post_staged (p : Packet) : (s.post p).staged = s.staged := rfl
@[simp] theorem State.post_latch (p : Packet) : (s.post p).latch = s.latch := rfl
@[simp] theorem State.post_lowHeld (p : Packet) : (s.post p).lowHeld = s.lowHeld := rfl
@[simp] theorem State.post_readData (p : Packet) : (s.post p).readData = s.readData := rfl
@[simp] theorem State.post_events (p : Packet) : (s.post p).events = s.events := rfl
@[simp] theorem State.post_lastLog (p : Packet) : (s.post p).lastLog = s.lastLog := rfl
@[simp] theorem State.post_heldLog (p : Packet) : (s.post p).heldLog = s.heldLog := rfl
@[simp] theorem State.post_out (p : Packet) : (s.post p).out = s.out := rfl
@[simp] theorem State.post_engines (p : Packet) : (s.post p).engines = s.engines := rfl
@[simp] theorem State.post_tiles (p : Packet) : (s.post p).tiles = s.tiles := rfl
@[simp] theorem State.post_rst (p : Packet) : (s.post p).rst = s.rst := rfl
@[simp] theorem State.post_cores (p : Packet) : (s.post p).cores = s.cores := rfl
@[simp] theorem State.post_seqs (p : Packet) : (s.post p).seqs = s.seqs := rfl
@[simp] theorem State.post_sram (p : Packet) : (s.post p).sram = s.sram := rfl
@[simp] theorem State.post_models (p : Packet) : (s.post p).models = s.models := rfl
@[simp] theorem State.post_dram (p : Packet) : (s.post p).dram = s.dram := rfl
@[simp] theorem State.post_items (p : Packet) : (s.post p).items = s.items := rfl
@[simp] theorem State.post_mgmt (p : Packet) : (s.post p).mgmt = s.mgmt := rfl
@[simp] theorem State.post_rings (p : Packet) : (s.post p).rings = s.rings := rfl
@[simp] theorem State.post_reads (p : Packet) : (s.post p).reads = s.reads := rfl
@[simp] theorem State.post_nextTag (p : Packet) : (s.post p).nextTag = s.nextTag := rfl
@[simp] theorem State.post_msix (p : Packet) : (s.post p).msix = s.msix := rfl
@[simp] theorem State.post_msixPending (p : Packet) : (s.post p).msixPending = s.msixPending := rfl
@[simp] theorem State.post_busMaster (p : Packet) : (s.post p).busMaster = s.busMaster := rfl
@[simp] theorem State.post_ats (p : Packet) : (s.post p).ats = s.ats := rfl
@[simp] theorem State.post_lanes (p : Packet) : (s.post p).lanes = s.lanes := rfl
@[simp] theorem State.post_bar (p : Packet) : (s.post p).bar = s.bar := rfl
@[simp] theorem State.post_field (p : Packet) : (s.post p).field = s.field := rfl
@[simp] theorem State.post_hk (p : Packet) : (s.post p).hk = s.hk := rfl
@[simp] theorem State.post_cnp (p : Packet) : (s.post p).cnp = s.cnp := rfl
@[simp] theorem State.post_sync (p : Packet) : (s.post p).sync = s.sync := rfl
@[simp] theorem State.post_rel (p : Packet) : (s.post p).rel = s.rel := rfl
@[simp] theorem State.post_keep (p : Packet) : (s.post p).keep = s.keep := rfl
@[simp] theorem State.post_power (p : Packet) : (s.post p).power = s.power := rfl
@[simp] theorem State.post_bootNs (p : Packet) : (s.post p).bootNs = s.bootNs := rfl
@[simp] theorem State.post_at_fget (p : Packet) (f' : Fld) (j : Nat) : (s.post p).fget f' j = s.fget f' j := rfl
@[simp] theorem State.post_at_engine (p : Packet) (c' e' : Nat) : (s.post p).engine c' e' = s.engine c' e' := rfl
@[simp] theorem State.post_at_tile (p : Packet) (c' k' : Nat) : (s.post p).tile c' k' = s.tile c' k' := rfl
@[simp] theorem State.post_at_restorer (p : Packet) (c' : Nat) : (s.post p).restorer c' = s.restorer c' := rfl
@[simp] theorem State.post_at_core (p : Packet) (c' : Nat) : (s.post p).core c' = s.core c' := rfl
@[simp] theorem State.post_at_seq (p : Packet) (c' : Nat) : (s.post p).seq c' = s.seq c' := rfl
@[simp] theorem State.post_at_ring (p : Packet) (k' : Nat) : (s.post p).ring k' = s.ring k' := rfl
@[simp] theorem State.post_at_lane (p : Packet) (l' : Nat) : (s.post p).lane l' = s.lane l' := rfl
@[simp] theorem State.post_at_cport (p : Packet) (p' : Nat) : (s.post p).cport p' = s.cport p' := rfl
@[simp] theorem State.post_at_rej (p : Packet) (k' : Nat) : (s.post p).rej k' = s.rej k' := rfl
@[simp] theorem State.post_at_ao (p : Packet) (k' : Nat) : (s.post p).ao k' = s.ao k' := rfl
@[simp] theorem State.post_at_lookout (p : Packet) (k' : Nat) : (s.post p).lookout k' = s.lookout k' := rfl

/-! ### State.postHeld changes `fab` only -/

@[simp] theorem State.postHeld_pending (p : Packet) : (s.postHeld p).pending = s.pending := rfl
@[simp] theorem State.postHeld_ns (p : Packet) : (s.postHeld p).ns = s.ns := rfl
@[simp] theorem State.postHeld_free (p : Packet) : (s.postHeld p).free = s.free := rfl
@[simp] theorem State.postHeld_fields (p : Packet) : (s.postHeld p).fields = s.fields := rfl
@[simp] theorem State.postHeld_staged (p : Packet) : (s.postHeld p).staged = s.staged := rfl
@[simp] theorem State.postHeld_latch (p : Packet) : (s.postHeld p).latch = s.latch := rfl
@[simp] theorem State.postHeld_lowHeld (p : Packet) : (s.postHeld p).lowHeld = s.lowHeld := rfl
@[simp] theorem State.postHeld_readData (p : Packet) : (s.postHeld p).readData = s.readData := rfl
@[simp] theorem State.postHeld_events (p : Packet) : (s.postHeld p).events = s.events := rfl
@[simp] theorem State.postHeld_lastLog (p : Packet) : (s.postHeld p).lastLog = s.lastLog := rfl
@[simp] theorem State.postHeld_heldLog (p : Packet) : (s.postHeld p).heldLog = s.heldLog := rfl
@[simp] theorem State.postHeld_out (p : Packet) : (s.postHeld p).out = s.out := rfl
@[simp] theorem State.postHeld_engines (p : Packet) : (s.postHeld p).engines = s.engines := rfl
@[simp] theorem State.postHeld_tiles (p : Packet) : (s.postHeld p).tiles = s.tiles := rfl
@[simp] theorem State.postHeld_rst (p : Packet) : (s.postHeld p).rst = s.rst := rfl
@[simp] theorem State.postHeld_cores (p : Packet) : (s.postHeld p).cores = s.cores := rfl
@[simp] theorem State.postHeld_seqs (p : Packet) : (s.postHeld p).seqs = s.seqs := rfl
@[simp] theorem State.postHeld_sram (p : Packet) : (s.postHeld p).sram = s.sram := rfl
@[simp] theorem State.postHeld_models (p : Packet) : (s.postHeld p).models = s.models := rfl
@[simp] theorem State.postHeld_dram (p : Packet) : (s.postHeld p).dram = s.dram := rfl
@[simp] theorem State.postHeld_items (p : Packet) : (s.postHeld p).items = s.items := rfl
@[simp] theorem State.postHeld_mgmt (p : Packet) : (s.postHeld p).mgmt = s.mgmt := rfl
@[simp] theorem State.postHeld_rings (p : Packet) : (s.postHeld p).rings = s.rings := rfl
@[simp] theorem State.postHeld_reads (p : Packet) : (s.postHeld p).reads = s.reads := rfl
@[simp] theorem State.postHeld_nextTag (p : Packet) : (s.postHeld p).nextTag = s.nextTag := rfl
@[simp] theorem State.postHeld_msix (p : Packet) : (s.postHeld p).msix = s.msix := rfl
@[simp] theorem State.postHeld_msixPending (p : Packet) : (s.postHeld p).msixPending = s.msixPending := rfl
@[simp] theorem State.postHeld_busMaster (p : Packet) : (s.postHeld p).busMaster = s.busMaster := rfl
@[simp] theorem State.postHeld_ats (p : Packet) : (s.postHeld p).ats = s.ats := rfl
@[simp] theorem State.postHeld_lanes (p : Packet) : (s.postHeld p).lanes = s.lanes := rfl
@[simp] theorem State.postHeld_bar (p : Packet) : (s.postHeld p).bar = s.bar := rfl
@[simp] theorem State.postHeld_field (p : Packet) : (s.postHeld p).field = s.field := rfl
@[simp] theorem State.postHeld_hk (p : Packet) : (s.postHeld p).hk = s.hk := rfl
@[simp] theorem State.postHeld_cnp (p : Packet) : (s.postHeld p).cnp = s.cnp := rfl
@[simp] theorem State.postHeld_sync (p : Packet) : (s.postHeld p).sync = s.sync := rfl
@[simp] theorem State.postHeld_rel (p : Packet) : (s.postHeld p).rel = s.rel := rfl
@[simp] theorem State.postHeld_keep (p : Packet) : (s.postHeld p).keep = s.keep := rfl
@[simp] theorem State.postHeld_power (p : Packet) : (s.postHeld p).power = s.power := rfl
@[simp] theorem State.postHeld_bootNs (p : Packet) : (s.postHeld p).bootNs = s.bootNs := rfl
@[simp] theorem State.postHeld_at_fget (p : Packet) (f' : Fld) (j : Nat) : (s.postHeld p).fget f' j = s.fget f' j := rfl
@[simp] theorem State.postHeld_at_engine (p : Packet) (c' e' : Nat) : (s.postHeld p).engine c' e' = s.engine c' e' := rfl
@[simp] theorem State.postHeld_at_tile (p : Packet) (c' k' : Nat) : (s.postHeld p).tile c' k' = s.tile c' k' := rfl
@[simp] theorem State.postHeld_at_restorer (p : Packet) (c' : Nat) : (s.postHeld p).restorer c' = s.restorer c' := rfl
@[simp] theorem State.postHeld_at_core (p : Packet) (c' : Nat) : (s.postHeld p).core c' = s.core c' := rfl
@[simp] theorem State.postHeld_at_seq (p : Packet) (c' : Nat) : (s.postHeld p).seq c' = s.seq c' := rfl
@[simp] theorem State.postHeld_at_ring (p : Packet) (k' : Nat) : (s.postHeld p).ring k' = s.ring k' := rfl
@[simp] theorem State.postHeld_at_lane (p : Packet) (l' : Nat) : (s.postHeld p).lane l' = s.lane l' := rfl
@[simp] theorem State.postHeld_at_cport (p : Packet) (p' : Nat) : (s.postHeld p).cport p' = s.cport p' := rfl
@[simp] theorem State.postHeld_at_rej (p : Packet) (k' : Nat) : (s.postHeld p).rej k' = s.rej k' := rfl
@[simp] theorem State.postHeld_at_ao (p : Packet) (k' : Nat) : (s.postHeld p).ao k' = s.ao k' := rfl
@[simp] theorem State.postHeld_at_lookout (p : Packet) (k' : Nat) : (s.postHeld p).lookout k' = s.lookout k' := rfl

/-! ### State.unpost changes `fab` only -/

@[simp] theorem State.unpost_pending (k : Nat) : (s.unpost k).pending = s.pending := rfl
@[simp] theorem State.unpost_ns (k : Nat) : (s.unpost k).ns = s.ns := rfl
@[simp] theorem State.unpost_free (k : Nat) : (s.unpost k).free = s.free := rfl
@[simp] theorem State.unpost_fields (k : Nat) : (s.unpost k).fields = s.fields := rfl
@[simp] theorem State.unpost_staged (k : Nat) : (s.unpost k).staged = s.staged := rfl
@[simp] theorem State.unpost_latch (k : Nat) : (s.unpost k).latch = s.latch := rfl
@[simp] theorem State.unpost_lowHeld (k : Nat) : (s.unpost k).lowHeld = s.lowHeld := rfl
@[simp] theorem State.unpost_readData (k : Nat) : (s.unpost k).readData = s.readData := rfl
@[simp] theorem State.unpost_events (k : Nat) : (s.unpost k).events = s.events := rfl
@[simp] theorem State.unpost_lastLog (k : Nat) : (s.unpost k).lastLog = s.lastLog := rfl
@[simp] theorem State.unpost_heldLog (k : Nat) : (s.unpost k).heldLog = s.heldLog := rfl
@[simp] theorem State.unpost_out (k : Nat) : (s.unpost k).out = s.out := rfl
@[simp] theorem State.unpost_engines (k : Nat) : (s.unpost k).engines = s.engines := rfl
@[simp] theorem State.unpost_tiles (k : Nat) : (s.unpost k).tiles = s.tiles := rfl
@[simp] theorem State.unpost_rst (k : Nat) : (s.unpost k).rst = s.rst := rfl
@[simp] theorem State.unpost_cores (k : Nat) : (s.unpost k).cores = s.cores := rfl
@[simp] theorem State.unpost_seqs (k : Nat) : (s.unpost k).seqs = s.seqs := rfl
@[simp] theorem State.unpost_sram (k : Nat) : (s.unpost k).sram = s.sram := rfl
@[simp] theorem State.unpost_models (k : Nat) : (s.unpost k).models = s.models := rfl
@[simp] theorem State.unpost_dram (k : Nat) : (s.unpost k).dram = s.dram := rfl
@[simp] theorem State.unpost_items (k : Nat) : (s.unpost k).items = s.items := rfl
@[simp] theorem State.unpost_mgmt (k : Nat) : (s.unpost k).mgmt = s.mgmt := rfl
@[simp] theorem State.unpost_rings (k : Nat) : (s.unpost k).rings = s.rings := rfl
@[simp] theorem State.unpost_reads (k : Nat) : (s.unpost k).reads = s.reads := rfl
@[simp] theorem State.unpost_nextTag (k : Nat) : (s.unpost k).nextTag = s.nextTag := rfl
@[simp] theorem State.unpost_msix (k : Nat) : (s.unpost k).msix = s.msix := rfl
@[simp] theorem State.unpost_msixPending (k : Nat) : (s.unpost k).msixPending = s.msixPending := rfl
@[simp] theorem State.unpost_busMaster (k : Nat) : (s.unpost k).busMaster = s.busMaster := rfl
@[simp] theorem State.unpost_ats (k : Nat) : (s.unpost k).ats = s.ats := rfl
@[simp] theorem State.unpost_lanes (k : Nat) : (s.unpost k).lanes = s.lanes := rfl
@[simp] theorem State.unpost_bar (k : Nat) : (s.unpost k).bar = s.bar := rfl
@[simp] theorem State.unpost_field (k : Nat) : (s.unpost k).field = s.field := rfl
@[simp] theorem State.unpost_hk (k : Nat) : (s.unpost k).hk = s.hk := rfl
@[simp] theorem State.unpost_cnp (k : Nat) : (s.unpost k).cnp = s.cnp := rfl
@[simp] theorem State.unpost_sync (k : Nat) : (s.unpost k).sync = s.sync := rfl
@[simp] theorem State.unpost_rel (k : Nat) : (s.unpost k).rel = s.rel := rfl
@[simp] theorem State.unpost_keep (k : Nat) : (s.unpost k).keep = s.keep := rfl
@[simp] theorem State.unpost_power (k : Nat) : (s.unpost k).power = s.power := rfl
@[simp] theorem State.unpost_bootNs (k : Nat) : (s.unpost k).bootNs = s.bootNs := rfl
@[simp] theorem State.unpost_at_fget (k : Nat) (f' : Fld) (j : Nat) : (s.unpost k).fget f' j = s.fget f' j := rfl
@[simp] theorem State.unpost_at_engine (k : Nat) (c' e' : Nat) : (s.unpost k).engine c' e' = s.engine c' e' := rfl
@[simp] theorem State.unpost_at_tile (k : Nat) (c' k' : Nat) : (s.unpost k).tile c' k' = s.tile c' k' := rfl
@[simp] theorem State.unpost_at_restorer (k : Nat) (c' : Nat) : (s.unpost k).restorer c' = s.restorer c' := rfl
@[simp] theorem State.unpost_at_core (k : Nat) (c' : Nat) : (s.unpost k).core c' = s.core c' := rfl
@[simp] theorem State.unpost_at_seq (k : Nat) (c' : Nat) : (s.unpost k).seq c' = s.seq c' := rfl
@[simp] theorem State.unpost_at_ring (k : Nat) (k' : Nat) : (s.unpost k).ring k' = s.ring k' := rfl
@[simp] theorem State.unpost_at_lane (k : Nat) (l' : Nat) : (s.unpost k).lane l' = s.lane l' := rfl
@[simp] theorem State.unpost_at_cport (k : Nat) (p' : Nat) : (s.unpost k).cport p' = s.cport p' := rfl
@[simp] theorem State.unpost_at_rej (k : Nat) (k' : Nat) : (s.unpost k).rej k' = s.rej k' := rfl
@[simp] theorem State.unpost_at_ao (k : Nat) (k' : Nat) : (s.unpost k).ao k' = s.ao k' := rfl
@[simp] theorem State.unpost_at_lookout (k : Nat) (k' : Nat) : (s.unpost k).lookout k' = s.lookout k' := rfl

/-! ### State.unhold changes `fab` only -/

@[simp] theorem State.unhold_pending (k : Nat) : (s.unhold k).pending = s.pending := rfl
@[simp] theorem State.unhold_ns (k : Nat) : (s.unhold k).ns = s.ns := rfl
@[simp] theorem State.unhold_free (k : Nat) : (s.unhold k).free = s.free := rfl
@[simp] theorem State.unhold_fields (k : Nat) : (s.unhold k).fields = s.fields := rfl
@[simp] theorem State.unhold_staged (k : Nat) : (s.unhold k).staged = s.staged := rfl
@[simp] theorem State.unhold_latch (k : Nat) : (s.unhold k).latch = s.latch := rfl
@[simp] theorem State.unhold_lowHeld (k : Nat) : (s.unhold k).lowHeld = s.lowHeld := rfl
@[simp] theorem State.unhold_readData (k : Nat) : (s.unhold k).readData = s.readData := rfl
@[simp] theorem State.unhold_events (k : Nat) : (s.unhold k).events = s.events := rfl
@[simp] theorem State.unhold_lastLog (k : Nat) : (s.unhold k).lastLog = s.lastLog := rfl
@[simp] theorem State.unhold_heldLog (k : Nat) : (s.unhold k).heldLog = s.heldLog := rfl
@[simp] theorem State.unhold_out (k : Nat) : (s.unhold k).out = s.out := rfl
@[simp] theorem State.unhold_engines (k : Nat) : (s.unhold k).engines = s.engines := rfl
@[simp] theorem State.unhold_tiles (k : Nat) : (s.unhold k).tiles = s.tiles := rfl
@[simp] theorem State.unhold_rst (k : Nat) : (s.unhold k).rst = s.rst := rfl
@[simp] theorem State.unhold_cores (k : Nat) : (s.unhold k).cores = s.cores := rfl
@[simp] theorem State.unhold_seqs (k : Nat) : (s.unhold k).seqs = s.seqs := rfl
@[simp] theorem State.unhold_sram (k : Nat) : (s.unhold k).sram = s.sram := rfl
@[simp] theorem State.unhold_models (k : Nat) : (s.unhold k).models = s.models := rfl
@[simp] theorem State.unhold_dram (k : Nat) : (s.unhold k).dram = s.dram := rfl
@[simp] theorem State.unhold_items (k : Nat) : (s.unhold k).items = s.items := rfl
@[simp] theorem State.unhold_mgmt (k : Nat) : (s.unhold k).mgmt = s.mgmt := rfl
@[simp] theorem State.unhold_rings (k : Nat) : (s.unhold k).rings = s.rings := rfl
@[simp] theorem State.unhold_reads (k : Nat) : (s.unhold k).reads = s.reads := rfl
@[simp] theorem State.unhold_nextTag (k : Nat) : (s.unhold k).nextTag = s.nextTag := rfl
@[simp] theorem State.unhold_msix (k : Nat) : (s.unhold k).msix = s.msix := rfl
@[simp] theorem State.unhold_msixPending (k : Nat) : (s.unhold k).msixPending = s.msixPending := rfl
@[simp] theorem State.unhold_busMaster (k : Nat) : (s.unhold k).busMaster = s.busMaster := rfl
@[simp] theorem State.unhold_ats (k : Nat) : (s.unhold k).ats = s.ats := rfl
@[simp] theorem State.unhold_lanes (k : Nat) : (s.unhold k).lanes = s.lanes := rfl
@[simp] theorem State.unhold_bar (k : Nat) : (s.unhold k).bar = s.bar := rfl
@[simp] theorem State.unhold_field (k : Nat) : (s.unhold k).field = s.field := rfl
@[simp] theorem State.unhold_hk (k : Nat) : (s.unhold k).hk = s.hk := rfl
@[simp] theorem State.unhold_cnp (k : Nat) : (s.unhold k).cnp = s.cnp := rfl
@[simp] theorem State.unhold_sync (k : Nat) : (s.unhold k).sync = s.sync := rfl
@[simp] theorem State.unhold_rel (k : Nat) : (s.unhold k).rel = s.rel := rfl
@[simp] theorem State.unhold_keep (k : Nat) : (s.unhold k).keep = s.keep := rfl
@[simp] theorem State.unhold_power (k : Nat) : (s.unhold k).power = s.power := rfl
@[simp] theorem State.unhold_bootNs (k : Nat) : (s.unhold k).bootNs = s.bootNs := rfl
@[simp] theorem State.unhold_at_fget (k : Nat) (f' : Fld) (j : Nat) : (s.unhold k).fget f' j = s.fget f' j := rfl
@[simp] theorem State.unhold_at_engine (k : Nat) (c' e' : Nat) : (s.unhold k).engine c' e' = s.engine c' e' := rfl
@[simp] theorem State.unhold_at_tile (k : Nat) (c' k' : Nat) : (s.unhold k).tile c' k' = s.tile c' k' := rfl
@[simp] theorem State.unhold_at_restorer (k : Nat) (c' : Nat) : (s.unhold k).restorer c' = s.restorer c' := rfl
@[simp] theorem State.unhold_at_core (k : Nat) (c' : Nat) : (s.unhold k).core c' = s.core c' := rfl
@[simp] theorem State.unhold_at_seq (k : Nat) (c' : Nat) : (s.unhold k).seq c' = s.seq c' := rfl
@[simp] theorem State.unhold_at_ring (k : Nat) (k' : Nat) : (s.unhold k).ring k' = s.ring k' := rfl
@[simp] theorem State.unhold_at_lane (k : Nat) (l' : Nat) : (s.unhold k).lane l' = s.lane l' := rfl
@[simp] theorem State.unhold_at_cport (k : Nat) (p' : Nat) : (s.unhold k).cport p' = s.cport p' := rfl
@[simp] theorem State.unhold_at_rej (k : Nat) (k' : Nat) : (s.unhold k).rej k' = s.rej k' := rfl
@[simp] theorem State.unhold_at_ao (k : Nat) (k' : Nat) : (s.unhold k).ao k' = s.ao k' := rfl
@[simp] theorem State.unhold_at_lookout (k : Nat) (k' : Nat) : (s.unhold k).lookout k' = s.lookout k' := rfl

/-! ### State.setEpoch changes `fab` only -/

@[simp] theorem State.setEpoch_pending (k : Nat) (e : EpochSt) : (s.setEpoch k e).pending = s.pending := rfl
@[simp] theorem State.setEpoch_ns (k : Nat) (e : EpochSt) : (s.setEpoch k e).ns = s.ns := rfl
@[simp] theorem State.setEpoch_free (k : Nat) (e : EpochSt) : (s.setEpoch k e).free = s.free := rfl
@[simp] theorem State.setEpoch_fields (k : Nat) (e : EpochSt) : (s.setEpoch k e).fields = s.fields := rfl
@[simp] theorem State.setEpoch_staged (k : Nat) (e : EpochSt) : (s.setEpoch k e).staged = s.staged := rfl
@[simp] theorem State.setEpoch_latch (k : Nat) (e : EpochSt) : (s.setEpoch k e).latch = s.latch := rfl
@[simp] theorem State.setEpoch_lowHeld (k : Nat) (e : EpochSt) : (s.setEpoch k e).lowHeld = s.lowHeld := rfl
@[simp] theorem State.setEpoch_readData (k : Nat) (e : EpochSt) : (s.setEpoch k e).readData = s.readData := rfl
@[simp] theorem State.setEpoch_events (k : Nat) (e : EpochSt) : (s.setEpoch k e).events = s.events := rfl
@[simp] theorem State.setEpoch_lastLog (k : Nat) (e : EpochSt) : (s.setEpoch k e).lastLog = s.lastLog := rfl
@[simp] theorem State.setEpoch_heldLog (k : Nat) (e : EpochSt) : (s.setEpoch k e).heldLog = s.heldLog := rfl
@[simp] theorem State.setEpoch_out (k : Nat) (e : EpochSt) : (s.setEpoch k e).out = s.out := rfl
@[simp] theorem State.setEpoch_engines (k : Nat) (e : EpochSt) : (s.setEpoch k e).engines = s.engines := rfl
@[simp] theorem State.setEpoch_tiles (k : Nat) (e : EpochSt) : (s.setEpoch k e).tiles = s.tiles := rfl
@[simp] theorem State.setEpoch_rst (k : Nat) (e : EpochSt) : (s.setEpoch k e).rst = s.rst := rfl
@[simp] theorem State.setEpoch_cores (k : Nat) (e : EpochSt) : (s.setEpoch k e).cores = s.cores := rfl
@[simp] theorem State.setEpoch_seqs (k : Nat) (e : EpochSt) : (s.setEpoch k e).seqs = s.seqs := rfl
@[simp] theorem State.setEpoch_sram (k : Nat) (e : EpochSt) : (s.setEpoch k e).sram = s.sram := rfl
@[simp] theorem State.setEpoch_models (k : Nat) (e : EpochSt) : (s.setEpoch k e).models = s.models := rfl
@[simp] theorem State.setEpoch_dram (k : Nat) (e : EpochSt) : (s.setEpoch k e).dram = s.dram := rfl
@[simp] theorem State.setEpoch_items (k : Nat) (e : EpochSt) : (s.setEpoch k e).items = s.items := rfl
@[simp] theorem State.setEpoch_mgmt (k : Nat) (e : EpochSt) : (s.setEpoch k e).mgmt = s.mgmt := rfl
@[simp] theorem State.setEpoch_rings (k : Nat) (e : EpochSt) : (s.setEpoch k e).rings = s.rings := rfl
@[simp] theorem State.setEpoch_reads (k : Nat) (e : EpochSt) : (s.setEpoch k e).reads = s.reads := rfl
@[simp] theorem State.setEpoch_nextTag (k : Nat) (e : EpochSt) : (s.setEpoch k e).nextTag = s.nextTag := rfl
@[simp] theorem State.setEpoch_msix (k : Nat) (e : EpochSt) : (s.setEpoch k e).msix = s.msix := rfl
@[simp] theorem State.setEpoch_msixPending (k : Nat) (e : EpochSt) : (s.setEpoch k e).msixPending = s.msixPending := rfl
@[simp] theorem State.setEpoch_busMaster (k : Nat) (e : EpochSt) : (s.setEpoch k e).busMaster = s.busMaster := rfl
@[simp] theorem State.setEpoch_ats (k : Nat) (e : EpochSt) : (s.setEpoch k e).ats = s.ats := rfl
@[simp] theorem State.setEpoch_lanes (k : Nat) (e : EpochSt) : (s.setEpoch k e).lanes = s.lanes := rfl
@[simp] theorem State.setEpoch_bar (k : Nat) (e : EpochSt) : (s.setEpoch k e).bar = s.bar := rfl
@[simp] theorem State.setEpoch_field (k : Nat) (e : EpochSt) : (s.setEpoch k e).field = s.field := rfl
@[simp] theorem State.setEpoch_hk (k : Nat) (e : EpochSt) : (s.setEpoch k e).hk = s.hk := rfl
@[simp] theorem State.setEpoch_cnp (k : Nat) (e : EpochSt) : (s.setEpoch k e).cnp = s.cnp := rfl
@[simp] theorem State.setEpoch_sync (k : Nat) (e : EpochSt) : (s.setEpoch k e).sync = s.sync := rfl
@[simp] theorem State.setEpoch_rel (k : Nat) (e : EpochSt) : (s.setEpoch k e).rel = s.rel := rfl
@[simp] theorem State.setEpoch_keep (k : Nat) (e : EpochSt) : (s.setEpoch k e).keep = s.keep := rfl
@[simp] theorem State.setEpoch_power (k : Nat) (e : EpochSt) : (s.setEpoch k e).power = s.power := rfl
@[simp] theorem State.setEpoch_bootNs (k : Nat) (e : EpochSt) : (s.setEpoch k e).bootNs = s.bootNs := rfl
@[simp] theorem State.setEpoch_at_fget (k : Nat) (e : EpochSt) (f' : Fld) (j : Nat) : (s.setEpoch k e).fget f' j = s.fget f' j := rfl
@[simp] theorem State.setEpoch_at_engine (k : Nat) (e : EpochSt) (c' e' : Nat) : (s.setEpoch k e).engine c' e' = s.engine c' e' := rfl
@[simp] theorem State.setEpoch_at_tile (k : Nat) (e : EpochSt) (c' k' : Nat) : (s.setEpoch k e).tile c' k' = s.tile c' k' := rfl
@[simp] theorem State.setEpoch_at_restorer (k : Nat) (e : EpochSt) (c' : Nat) : (s.setEpoch k e).restorer c' = s.restorer c' := rfl
@[simp] theorem State.setEpoch_at_core (k : Nat) (e : EpochSt) (c' : Nat) : (s.setEpoch k e).core c' = s.core c' := rfl
@[simp] theorem State.setEpoch_at_seq (k : Nat) (e : EpochSt) (c' : Nat) : (s.setEpoch k e).seq c' = s.seq c' := rfl
@[simp] theorem State.setEpoch_at_ring (k : Nat) (e : EpochSt) (k' : Nat) : (s.setEpoch k e).ring k' = s.ring k' := rfl
@[simp] theorem State.setEpoch_at_lane (k : Nat) (e : EpochSt) (l' : Nat) : (s.setEpoch k e).lane l' = s.lane l' := rfl
@[simp] theorem State.setEpoch_at_cport (k : Nat) (e : EpochSt) (p' : Nat) : (s.setEpoch k e).cport p' = s.cport p' := rfl
@[simp] theorem State.setEpoch_at_rej (k : Nat) (e : EpochSt) (k' : Nat) : (s.setEpoch k e).rej k' = s.rej k' := rfl
@[simp] theorem State.setEpoch_at_ao (k : Nat) (e : EpochSt) (k' : Nat) : (s.setEpoch k e).ao k' = s.ao k' := rfl
@[simp] theorem State.setEpoch_at_lookout (k : Nat) (e : EpochSt) (k' : Nat) : (s.setEpoch k e).lookout k' = s.lookout k' := rfl

/-! ### State.setRing changes `rings` only -/

@[simp] theorem State.setRing_pending (k : Nat) (r : Ring) : (s.setRing k r).pending = s.pending := rfl
@[simp] theorem State.setRing_ns (k : Nat) (r : Ring) : (s.setRing k r).ns = s.ns := rfl
@[simp] theorem State.setRing_free (k : Nat) (r : Ring) : (s.setRing k r).free = s.free := rfl
@[simp] theorem State.setRing_fields (k : Nat) (r : Ring) : (s.setRing k r).fields = s.fields := rfl
@[simp] theorem State.setRing_staged (k : Nat) (r : Ring) : (s.setRing k r).staged = s.staged := rfl
@[simp] theorem State.setRing_latch (k : Nat) (r : Ring) : (s.setRing k r).latch = s.latch := rfl
@[simp] theorem State.setRing_lowHeld (k : Nat) (r : Ring) : (s.setRing k r).lowHeld = s.lowHeld := rfl
@[simp] theorem State.setRing_readData (k : Nat) (r : Ring) : (s.setRing k r).readData = s.readData := rfl
@[simp] theorem State.setRing_events (k : Nat) (r : Ring) : (s.setRing k r).events = s.events := rfl
@[simp] theorem State.setRing_lastLog (k : Nat) (r : Ring) : (s.setRing k r).lastLog = s.lastLog := rfl
@[simp] theorem State.setRing_heldLog (k : Nat) (r : Ring) : (s.setRing k r).heldLog = s.heldLog := rfl
@[simp] theorem State.setRing_out (k : Nat) (r : Ring) : (s.setRing k r).out = s.out := rfl
@[simp] theorem State.setRing_engines (k : Nat) (r : Ring) : (s.setRing k r).engines = s.engines := rfl
@[simp] theorem State.setRing_tiles (k : Nat) (r : Ring) : (s.setRing k r).tiles = s.tiles := rfl
@[simp] theorem State.setRing_rst (k : Nat) (r : Ring) : (s.setRing k r).rst = s.rst := rfl
@[simp] theorem State.setRing_cores (k : Nat) (r : Ring) : (s.setRing k r).cores = s.cores := rfl
@[simp] theorem State.setRing_seqs (k : Nat) (r : Ring) : (s.setRing k r).seqs = s.seqs := rfl
@[simp] theorem State.setRing_sram (k : Nat) (r : Ring) : (s.setRing k r).sram = s.sram := rfl
@[simp] theorem State.setRing_models (k : Nat) (r : Ring) : (s.setRing k r).models = s.models := rfl
@[simp] theorem State.setRing_fab (k : Nat) (r : Ring) : (s.setRing k r).fab = s.fab := rfl
@[simp] theorem State.setRing_dram (k : Nat) (r : Ring) : (s.setRing k r).dram = s.dram := rfl
@[simp] theorem State.setRing_items (k : Nat) (r : Ring) : (s.setRing k r).items = s.items := rfl
@[simp] theorem State.setRing_mgmt (k : Nat) (r : Ring) : (s.setRing k r).mgmt = s.mgmt := rfl
@[simp] theorem State.setRing_reads (k : Nat) (r : Ring) : (s.setRing k r).reads = s.reads := rfl
@[simp] theorem State.setRing_nextTag (k : Nat) (r : Ring) : (s.setRing k r).nextTag = s.nextTag := rfl
@[simp] theorem State.setRing_msix (k : Nat) (r : Ring) : (s.setRing k r).msix = s.msix := rfl
@[simp] theorem State.setRing_msixPending (k : Nat) (r : Ring) : (s.setRing k r).msixPending = s.msixPending := rfl
@[simp] theorem State.setRing_busMaster (k : Nat) (r : Ring) : (s.setRing k r).busMaster = s.busMaster := rfl
@[simp] theorem State.setRing_ats (k : Nat) (r : Ring) : (s.setRing k r).ats = s.ats := rfl
@[simp] theorem State.setRing_lanes (k : Nat) (r : Ring) : (s.setRing k r).lanes = s.lanes := rfl
@[simp] theorem State.setRing_bar (k : Nat) (r : Ring) : (s.setRing k r).bar = s.bar := rfl
@[simp] theorem State.setRing_field (k : Nat) (r : Ring) : (s.setRing k r).field = s.field := rfl
@[simp] theorem State.setRing_hk (k : Nat) (r : Ring) : (s.setRing k r).hk = s.hk := rfl
@[simp] theorem State.setRing_cnp (k : Nat) (r : Ring) : (s.setRing k r).cnp = s.cnp := rfl
@[simp] theorem State.setRing_sync (k : Nat) (r : Ring) : (s.setRing k r).sync = s.sync := rfl
@[simp] theorem State.setRing_rel (k : Nat) (r : Ring) : (s.setRing k r).rel = s.rel := rfl
@[simp] theorem State.setRing_keep (k : Nat) (r : Ring) : (s.setRing k r).keep = s.keep := rfl
@[simp] theorem State.setRing_power (k : Nat) (r : Ring) : (s.setRing k r).power = s.power := rfl
@[simp] theorem State.setRing_bootNs (k : Nat) (r : Ring) : (s.setRing k r).bootNs = s.bootNs := rfl
@[simp] theorem State.setRing_at_fget (k : Nat) (r : Ring) (f' : Fld) (j : Nat) : (s.setRing k r).fget f' j = s.fget f' j := rfl
@[simp] theorem State.setRing_at_engine (k : Nat) (r : Ring) (c' e' : Nat) : (s.setRing k r).engine c' e' = s.engine c' e' := rfl
@[simp] theorem State.setRing_at_tile (k : Nat) (r : Ring) (c' k' : Nat) : (s.setRing k r).tile c' k' = s.tile c' k' := rfl
@[simp] theorem State.setRing_at_restorer (k : Nat) (r : Ring) (c' : Nat) : (s.setRing k r).restorer c' = s.restorer c' := rfl
@[simp] theorem State.setRing_at_core (k : Nat) (r : Ring) (c' : Nat) : (s.setRing k r).core c' = s.core c' := rfl
@[simp] theorem State.setRing_at_seq (k : Nat) (r : Ring) (c' : Nat) : (s.setRing k r).seq c' = s.seq c' := rfl
@[simp] theorem State.setRing_at_lane (k : Nat) (r : Ring) (l' : Nat) : (s.setRing k r).lane l' = s.lane l' := rfl
@[simp] theorem State.setRing_at_cport (k : Nat) (r : Ring) (p' : Nat) : (s.setRing k r).cport p' = s.cport p' := rfl
@[simp] theorem State.setRing_at_rej (k : Nat) (r : Ring) (k' : Nat) : (s.setRing k r).rej k' = s.rej k' := rfl
@[simp] theorem State.setRing_at_ao (k : Nat) (r : Ring) (k' : Nat) : (s.setRing k r).ao k' = s.ao k' := rfl
@[simp] theorem State.setRing_at_lookout (k : Nat) (r : Ring) (k' : Nat) : (s.setRing k r).lookout k' = s.lookout k' := rfl

/-! ### State.endRead changes `reads` only -/

@[simp] theorem State.endRead_pending (n : Nat) : (s.endRead n).pending = s.pending := rfl
@[simp] theorem State.endRead_ns (n : Nat) : (s.endRead n).ns = s.ns := rfl
@[simp] theorem State.endRead_free (n : Nat) : (s.endRead n).free = s.free := rfl
@[simp] theorem State.endRead_fields (n : Nat) : (s.endRead n).fields = s.fields := rfl
@[simp] theorem State.endRead_staged (n : Nat) : (s.endRead n).staged = s.staged := rfl
@[simp] theorem State.endRead_latch (n : Nat) : (s.endRead n).latch = s.latch := rfl
@[simp] theorem State.endRead_lowHeld (n : Nat) : (s.endRead n).lowHeld = s.lowHeld := rfl
@[simp] theorem State.endRead_readData (n : Nat) : (s.endRead n).readData = s.readData := rfl
@[simp] theorem State.endRead_events (n : Nat) : (s.endRead n).events = s.events := rfl
@[simp] theorem State.endRead_lastLog (n : Nat) : (s.endRead n).lastLog = s.lastLog := rfl
@[simp] theorem State.endRead_heldLog (n : Nat) : (s.endRead n).heldLog = s.heldLog := rfl
@[simp] theorem State.endRead_out (n : Nat) : (s.endRead n).out = s.out := rfl
@[simp] theorem State.endRead_engines (n : Nat) : (s.endRead n).engines = s.engines := rfl
@[simp] theorem State.endRead_tiles (n : Nat) : (s.endRead n).tiles = s.tiles := rfl
@[simp] theorem State.endRead_rst (n : Nat) : (s.endRead n).rst = s.rst := rfl
@[simp] theorem State.endRead_cores (n : Nat) : (s.endRead n).cores = s.cores := rfl
@[simp] theorem State.endRead_seqs (n : Nat) : (s.endRead n).seqs = s.seqs := rfl
@[simp] theorem State.endRead_sram (n : Nat) : (s.endRead n).sram = s.sram := rfl
@[simp] theorem State.endRead_models (n : Nat) : (s.endRead n).models = s.models := rfl
@[simp] theorem State.endRead_fab (n : Nat) : (s.endRead n).fab = s.fab := rfl
@[simp] theorem State.endRead_dram (n : Nat) : (s.endRead n).dram = s.dram := rfl
@[simp] theorem State.endRead_items (n : Nat) : (s.endRead n).items = s.items := rfl
@[simp] theorem State.endRead_mgmt (n : Nat) : (s.endRead n).mgmt = s.mgmt := rfl
@[simp] theorem State.endRead_rings (n : Nat) : (s.endRead n).rings = s.rings := rfl
@[simp] theorem State.endRead_nextTag (n : Nat) : (s.endRead n).nextTag = s.nextTag := rfl
@[simp] theorem State.endRead_msix (n : Nat) : (s.endRead n).msix = s.msix := rfl
@[simp] theorem State.endRead_msixPending (n : Nat) : (s.endRead n).msixPending = s.msixPending := rfl
@[simp] theorem State.endRead_busMaster (n : Nat) : (s.endRead n).busMaster = s.busMaster := rfl
@[simp] theorem State.endRead_ats (n : Nat) : (s.endRead n).ats = s.ats := rfl
@[simp] theorem State.endRead_lanes (n : Nat) : (s.endRead n).lanes = s.lanes := rfl
@[simp] theorem State.endRead_bar (n : Nat) : (s.endRead n).bar = s.bar := rfl
@[simp] theorem State.endRead_field (n : Nat) : (s.endRead n).field = s.field := rfl
@[simp] theorem State.endRead_hk (n : Nat) : (s.endRead n).hk = s.hk := rfl
@[simp] theorem State.endRead_cnp (n : Nat) : (s.endRead n).cnp = s.cnp := rfl
@[simp] theorem State.endRead_sync (n : Nat) : (s.endRead n).sync = s.sync := rfl
@[simp] theorem State.endRead_rel (n : Nat) : (s.endRead n).rel = s.rel := rfl
@[simp] theorem State.endRead_keep (n : Nat) : (s.endRead n).keep = s.keep := rfl
@[simp] theorem State.endRead_power (n : Nat) : (s.endRead n).power = s.power := rfl
@[simp] theorem State.endRead_bootNs (n : Nat) : (s.endRead n).bootNs = s.bootNs := rfl
@[simp] theorem State.endRead_at_fget (n : Nat) (f' : Fld) (j : Nat) : (s.endRead n).fget f' j = s.fget f' j := rfl
@[simp] theorem State.endRead_at_engine (n : Nat) (c' e' : Nat) : (s.endRead n).engine c' e' = s.engine c' e' := rfl
@[simp] theorem State.endRead_at_tile (n : Nat) (c' k' : Nat) : (s.endRead n).tile c' k' = s.tile c' k' := rfl
@[simp] theorem State.endRead_at_restorer (n : Nat) (c' : Nat) : (s.endRead n).restorer c' = s.restorer c' := rfl
@[simp] theorem State.endRead_at_core (n : Nat) (c' : Nat) : (s.endRead n).core c' = s.core c' := rfl
@[simp] theorem State.endRead_at_seq (n : Nat) (c' : Nat) : (s.endRead n).seq c' = s.seq c' := rfl
@[simp] theorem State.endRead_at_ring (n : Nat) (k' : Nat) : (s.endRead n).ring k' = s.ring k' := rfl
@[simp] theorem State.endRead_at_lane (n : Nat) (l' : Nat) : (s.endRead n).lane l' = s.lane l' := rfl
@[simp] theorem State.endRead_at_cport (n : Nat) (p' : Nat) : (s.endRead n).cport p' = s.cport p' := rfl
@[simp] theorem State.endRead_at_rej (n : Nat) (k' : Nat) : (s.endRead n).rej k' = s.rej k' := rfl
@[simp] theorem State.endRead_at_ao (n : Nat) (k' : Nat) : (s.endRead n).ao k' = s.ao k' := rfl
@[simp] theorem State.endRead_at_lookout (n : Nat) (k' : Nat) : (s.endRead n).lookout k' = s.lookout k' := rfl

/-! ### State.toField changes `bar` only -/

@[simp] theorem State.toField_pending (m : List Nat) : (s.toField m).pending = s.pending := rfl
@[simp] theorem State.toField_ns (m : List Nat) : (s.toField m).ns = s.ns := rfl
@[simp] theorem State.toField_free (m : List Nat) : (s.toField m).free = s.free := rfl
@[simp] theorem State.toField_fields (m : List Nat) : (s.toField m).fields = s.fields := rfl
@[simp] theorem State.toField_staged (m : List Nat) : (s.toField m).staged = s.staged := rfl
@[simp] theorem State.toField_latch (m : List Nat) : (s.toField m).latch = s.latch := rfl
@[simp] theorem State.toField_lowHeld (m : List Nat) : (s.toField m).lowHeld = s.lowHeld := rfl
@[simp] theorem State.toField_readData (m : List Nat) : (s.toField m).readData = s.readData := rfl
@[simp] theorem State.toField_events (m : List Nat) : (s.toField m).events = s.events := rfl
@[simp] theorem State.toField_lastLog (m : List Nat) : (s.toField m).lastLog = s.lastLog := rfl
@[simp] theorem State.toField_heldLog (m : List Nat) : (s.toField m).heldLog = s.heldLog := rfl
@[simp] theorem State.toField_out (m : List Nat) : (s.toField m).out = s.out := rfl
@[simp] theorem State.toField_engines (m : List Nat) : (s.toField m).engines = s.engines := rfl
@[simp] theorem State.toField_tiles (m : List Nat) : (s.toField m).tiles = s.tiles := rfl
@[simp] theorem State.toField_rst (m : List Nat) : (s.toField m).rst = s.rst := rfl
@[simp] theorem State.toField_cores (m : List Nat) : (s.toField m).cores = s.cores := rfl
@[simp] theorem State.toField_seqs (m : List Nat) : (s.toField m).seqs = s.seqs := rfl
@[simp] theorem State.toField_sram (m : List Nat) : (s.toField m).sram = s.sram := rfl
@[simp] theorem State.toField_models (m : List Nat) : (s.toField m).models = s.models := rfl
@[simp] theorem State.toField_fab (m : List Nat) : (s.toField m).fab = s.fab := rfl
@[simp] theorem State.toField_dram (m : List Nat) : (s.toField m).dram = s.dram := rfl
@[simp] theorem State.toField_items (m : List Nat) : (s.toField m).items = s.items := rfl
@[simp] theorem State.toField_mgmt (m : List Nat) : (s.toField m).mgmt = s.mgmt := rfl
@[simp] theorem State.toField_rings (m : List Nat) : (s.toField m).rings = s.rings := rfl
@[simp] theorem State.toField_reads (m : List Nat) : (s.toField m).reads = s.reads := rfl
@[simp] theorem State.toField_nextTag (m : List Nat) : (s.toField m).nextTag = s.nextTag := rfl
@[simp] theorem State.toField_msix (m : List Nat) : (s.toField m).msix = s.msix := rfl
@[simp] theorem State.toField_msixPending (m : List Nat) : (s.toField m).msixPending = s.msixPending := rfl
@[simp] theorem State.toField_busMaster (m : List Nat) : (s.toField m).busMaster = s.busMaster := rfl
@[simp] theorem State.toField_ats (m : List Nat) : (s.toField m).ats = s.ats := rfl
@[simp] theorem State.toField_lanes (m : List Nat) : (s.toField m).lanes = s.lanes := rfl
@[simp] theorem State.toField_field (m : List Nat) : (s.toField m).field = s.field := rfl
@[simp] theorem State.toField_hk (m : List Nat) : (s.toField m).hk = s.hk := rfl
@[simp] theorem State.toField_cnp (m : List Nat) : (s.toField m).cnp = s.cnp := rfl
@[simp] theorem State.toField_sync (m : List Nat) : (s.toField m).sync = s.sync := rfl
@[simp] theorem State.toField_rel (m : List Nat) : (s.toField m).rel = s.rel := rfl
@[simp] theorem State.toField_keep (m : List Nat) : (s.toField m).keep = s.keep := rfl
@[simp] theorem State.toField_power (m : List Nat) : (s.toField m).power = s.power := rfl
@[simp] theorem State.toField_bootNs (m : List Nat) : (s.toField m).bootNs = s.bootNs := rfl
@[simp] theorem State.toField_at_fget (m : List Nat) (f' : Fld) (j : Nat) : (s.toField m).fget f' j = s.fget f' j := rfl
@[simp] theorem State.toField_at_engine (m : List Nat) (c' e' : Nat) : (s.toField m).engine c' e' = s.engine c' e' := rfl
@[simp] theorem State.toField_at_tile (m : List Nat) (c' k' : Nat) : (s.toField m).tile c' k' = s.tile c' k' := rfl
@[simp] theorem State.toField_at_restorer (m : List Nat) (c' : Nat) : (s.toField m).restorer c' = s.restorer c' := rfl
@[simp] theorem State.toField_at_core (m : List Nat) (c' : Nat) : (s.toField m).core c' = s.core c' := rfl
@[simp] theorem State.toField_at_seq (m : List Nat) (c' : Nat) : (s.toField m).seq c' = s.seq c' := rfl
@[simp] theorem State.toField_at_ring (m : List Nat) (k' : Nat) : (s.toField m).ring k' = s.ring k' := rfl
@[simp] theorem State.toField_at_lane (m : List Nat) (l' : Nat) : (s.toField m).lane l' = s.lane l' := rfl
@[simp] theorem State.toField_at_cport (m : List Nat) (p' : Nat) : (s.toField m).cport p' = s.cport p' := rfl
@[simp] theorem State.toField_at_rej (m : List Nat) (k' : Nat) : (s.toField m).rej k' = s.rej k' := rfl
@[simp] theorem State.toField_at_ao (m : List Nat) (k' : Nat) : (s.toField m).ao k' = s.ao k' := rfl
@[simp] theorem State.toField_at_lookout (m : List Nat) (k' : Nat) : (s.toField m).lookout k' = s.lookout k' := rfl

/-! ### State.setLane changes `lanes` only -/

@[simp] theorem State.setLane_pending (l : Nat) (x : Lane) : (s.setLane l x).pending = s.pending := rfl
@[simp] theorem State.setLane_ns (l : Nat) (x : Lane) : (s.setLane l x).ns = s.ns := rfl
@[simp] theorem State.setLane_free (l : Nat) (x : Lane) : (s.setLane l x).free = s.free := rfl
@[simp] theorem State.setLane_fields (l : Nat) (x : Lane) : (s.setLane l x).fields = s.fields := rfl
@[simp] theorem State.setLane_staged (l : Nat) (x : Lane) : (s.setLane l x).staged = s.staged := rfl
@[simp] theorem State.setLane_latch (l : Nat) (x : Lane) : (s.setLane l x).latch = s.latch := rfl
@[simp] theorem State.setLane_lowHeld (l : Nat) (x : Lane) : (s.setLane l x).lowHeld = s.lowHeld := rfl
@[simp] theorem State.setLane_readData (l : Nat) (x : Lane) : (s.setLane l x).readData = s.readData := rfl
@[simp] theorem State.setLane_events (l : Nat) (x : Lane) : (s.setLane l x).events = s.events := rfl
@[simp] theorem State.setLane_lastLog (l : Nat) (x : Lane) : (s.setLane l x).lastLog = s.lastLog := rfl
@[simp] theorem State.setLane_heldLog (l : Nat) (x : Lane) : (s.setLane l x).heldLog = s.heldLog := rfl
@[simp] theorem State.setLane_out (l : Nat) (x : Lane) : (s.setLane l x).out = s.out := rfl
@[simp] theorem State.setLane_engines (l : Nat) (x : Lane) : (s.setLane l x).engines = s.engines := rfl
@[simp] theorem State.setLane_tiles (l : Nat) (x : Lane) : (s.setLane l x).tiles = s.tiles := rfl
@[simp] theorem State.setLane_rst (l : Nat) (x : Lane) : (s.setLane l x).rst = s.rst := rfl
@[simp] theorem State.setLane_cores (l : Nat) (x : Lane) : (s.setLane l x).cores = s.cores := rfl
@[simp] theorem State.setLane_seqs (l : Nat) (x : Lane) : (s.setLane l x).seqs = s.seqs := rfl
@[simp] theorem State.setLane_sram (l : Nat) (x : Lane) : (s.setLane l x).sram = s.sram := rfl
@[simp] theorem State.setLane_models (l : Nat) (x : Lane) : (s.setLane l x).models = s.models := rfl
@[simp] theorem State.setLane_fab (l : Nat) (x : Lane) : (s.setLane l x).fab = s.fab := rfl
@[simp] theorem State.setLane_dram (l : Nat) (x : Lane) : (s.setLane l x).dram = s.dram := rfl
@[simp] theorem State.setLane_items (l : Nat) (x : Lane) : (s.setLane l x).items = s.items := rfl
@[simp] theorem State.setLane_mgmt (l : Nat) (x : Lane) : (s.setLane l x).mgmt = s.mgmt := rfl
@[simp] theorem State.setLane_rings (l : Nat) (x : Lane) : (s.setLane l x).rings = s.rings := rfl
@[simp] theorem State.setLane_reads (l : Nat) (x : Lane) : (s.setLane l x).reads = s.reads := rfl
@[simp] theorem State.setLane_nextTag (l : Nat) (x : Lane) : (s.setLane l x).nextTag = s.nextTag := rfl
@[simp] theorem State.setLane_msix (l : Nat) (x : Lane) : (s.setLane l x).msix = s.msix := rfl
@[simp] theorem State.setLane_msixPending (l : Nat) (x : Lane) : (s.setLane l x).msixPending = s.msixPending := rfl
@[simp] theorem State.setLane_busMaster (l : Nat) (x : Lane) : (s.setLane l x).busMaster = s.busMaster := rfl
@[simp] theorem State.setLane_ats (l : Nat) (x : Lane) : (s.setLane l x).ats = s.ats := rfl
@[simp] theorem State.setLane_bar (l : Nat) (x : Lane) : (s.setLane l x).bar = s.bar := rfl
@[simp] theorem State.setLane_field (l : Nat) (x : Lane) : (s.setLane l x).field = s.field := rfl
@[simp] theorem State.setLane_hk (l : Nat) (x : Lane) : (s.setLane l x).hk = s.hk := rfl
@[simp] theorem State.setLane_cnp (l : Nat) (x : Lane) : (s.setLane l x).cnp = s.cnp := rfl
@[simp] theorem State.setLane_sync (l : Nat) (x : Lane) : (s.setLane l x).sync = s.sync := rfl
@[simp] theorem State.setLane_rel (l : Nat) (x : Lane) : (s.setLane l x).rel = s.rel := rfl
@[simp] theorem State.setLane_keep (l : Nat) (x : Lane) : (s.setLane l x).keep = s.keep := rfl
@[simp] theorem State.setLane_power (l : Nat) (x : Lane) : (s.setLane l x).power = s.power := rfl
@[simp] theorem State.setLane_bootNs (l : Nat) (x : Lane) : (s.setLane l x).bootNs = s.bootNs := rfl
@[simp] theorem State.setLane_at_fget (l : Nat) (x : Lane) (f' : Fld) (j : Nat) : (s.setLane l x).fget f' j = s.fget f' j := rfl
@[simp] theorem State.setLane_at_engine (l : Nat) (x : Lane) (c' e' : Nat) : (s.setLane l x).engine c' e' = s.engine c' e' := rfl
@[simp] theorem State.setLane_at_tile (l : Nat) (x : Lane) (c' k' : Nat) : (s.setLane l x).tile c' k' = s.tile c' k' := rfl
@[simp] theorem State.setLane_at_restorer (l : Nat) (x : Lane) (c' : Nat) : (s.setLane l x).restorer c' = s.restorer c' := rfl
@[simp] theorem State.setLane_at_core (l : Nat) (x : Lane) (c' : Nat) : (s.setLane l x).core c' = s.core c' := rfl
@[simp] theorem State.setLane_at_seq (l : Nat) (x : Lane) (c' : Nat) : (s.setLane l x).seq c' = s.seq c' := rfl
@[simp] theorem State.setLane_at_ring (l : Nat) (x : Lane) (k' : Nat) : (s.setLane l x).ring k' = s.ring k' := rfl
@[simp] theorem State.setLane_at_cport (l : Nat) (x : Lane) (p' : Nat) : (s.setLane l x).cport p' = s.cport p' := rfl
@[simp] theorem State.setLane_at_rej (l : Nat) (x : Lane) (k' : Nat) : (s.setLane l x).rej k' = s.rej k' := rfl
@[simp] theorem State.setLane_at_ao (l : Nat) (x : Lane) (k' : Nat) : (s.setLane l x).ao k' = s.ao k' := rfl
@[simp] theorem State.setLane_at_lookout (l : Nat) (x : Lane) (k' : Nat) : (s.setLane l x).lookout k' = s.lookout k' := rfl

/-! ### State.setItem changes `items` only -/

@[simp] theorem State.setItem_pending (r : Nat) (x : ItemCtx) : (s.setItem r x).pending = s.pending := rfl
@[simp] theorem State.setItem_ns (r : Nat) (x : ItemCtx) : (s.setItem r x).ns = s.ns := rfl
@[simp] theorem State.setItem_free (r : Nat) (x : ItemCtx) : (s.setItem r x).free = s.free := rfl
@[simp] theorem State.setItem_fields (r : Nat) (x : ItemCtx) : (s.setItem r x).fields = s.fields := rfl
@[simp] theorem State.setItem_staged (r : Nat) (x : ItemCtx) : (s.setItem r x).staged = s.staged := rfl
@[simp] theorem State.setItem_latch (r : Nat) (x : ItemCtx) : (s.setItem r x).latch = s.latch := rfl
@[simp] theorem State.setItem_lowHeld (r : Nat) (x : ItemCtx) : (s.setItem r x).lowHeld = s.lowHeld := rfl
@[simp] theorem State.setItem_readData (r : Nat) (x : ItemCtx) : (s.setItem r x).readData = s.readData := rfl
@[simp] theorem State.setItem_events (r : Nat) (x : ItemCtx) : (s.setItem r x).events = s.events := rfl
@[simp] theorem State.setItem_lastLog (r : Nat) (x : ItemCtx) : (s.setItem r x).lastLog = s.lastLog := rfl
@[simp] theorem State.setItem_heldLog (r : Nat) (x : ItemCtx) : (s.setItem r x).heldLog = s.heldLog := rfl
@[simp] theorem State.setItem_out (r : Nat) (x : ItemCtx) : (s.setItem r x).out = s.out := rfl
@[simp] theorem State.setItem_engines (r : Nat) (x : ItemCtx) : (s.setItem r x).engines = s.engines := rfl
@[simp] theorem State.setItem_tiles (r : Nat) (x : ItemCtx) : (s.setItem r x).tiles = s.tiles := rfl
@[simp] theorem State.setItem_rst (r : Nat) (x : ItemCtx) : (s.setItem r x).rst = s.rst := rfl
@[simp] theorem State.setItem_cores (r : Nat) (x : ItemCtx) : (s.setItem r x).cores = s.cores := rfl
@[simp] theorem State.setItem_seqs (r : Nat) (x : ItemCtx) : (s.setItem r x).seqs = s.seqs := rfl
@[simp] theorem State.setItem_sram (r : Nat) (x : ItemCtx) : (s.setItem r x).sram = s.sram := rfl
@[simp] theorem State.setItem_models (r : Nat) (x : ItemCtx) : (s.setItem r x).models = s.models := rfl
@[simp] theorem State.setItem_fab (r : Nat) (x : ItemCtx) : (s.setItem r x).fab = s.fab := rfl
@[simp] theorem State.setItem_dram (r : Nat) (x : ItemCtx) : (s.setItem r x).dram = s.dram := rfl
@[simp] theorem State.setItem_mgmt (r : Nat) (x : ItemCtx) : (s.setItem r x).mgmt = s.mgmt := rfl
@[simp] theorem State.setItem_rings (r : Nat) (x : ItemCtx) : (s.setItem r x).rings = s.rings := rfl
@[simp] theorem State.setItem_reads (r : Nat) (x : ItemCtx) : (s.setItem r x).reads = s.reads := rfl
@[simp] theorem State.setItem_nextTag (r : Nat) (x : ItemCtx) : (s.setItem r x).nextTag = s.nextTag := rfl
@[simp] theorem State.setItem_msix (r : Nat) (x : ItemCtx) : (s.setItem r x).msix = s.msix := rfl
@[simp] theorem State.setItem_msixPending (r : Nat) (x : ItemCtx) : (s.setItem r x).msixPending = s.msixPending := rfl
@[simp] theorem State.setItem_busMaster (r : Nat) (x : ItemCtx) : (s.setItem r x).busMaster = s.busMaster := rfl
@[simp] theorem State.setItem_ats (r : Nat) (x : ItemCtx) : (s.setItem r x).ats = s.ats := rfl
@[simp] theorem State.setItem_lanes (r : Nat) (x : ItemCtx) : (s.setItem r x).lanes = s.lanes := rfl
@[simp] theorem State.setItem_bar (r : Nat) (x : ItemCtx) : (s.setItem r x).bar = s.bar := rfl
@[simp] theorem State.setItem_field (r : Nat) (x : ItemCtx) : (s.setItem r x).field = s.field := rfl
@[simp] theorem State.setItem_hk (r : Nat) (x : ItemCtx) : (s.setItem r x).hk = s.hk := rfl
@[simp] theorem State.setItem_cnp (r : Nat) (x : ItemCtx) : (s.setItem r x).cnp = s.cnp := rfl
@[simp] theorem State.setItem_sync (r : Nat) (x : ItemCtx) : (s.setItem r x).sync = s.sync := rfl
@[simp] theorem State.setItem_rel (r : Nat) (x : ItemCtx) : (s.setItem r x).rel = s.rel := rfl
@[simp] theorem State.setItem_keep (r : Nat) (x : ItemCtx) : (s.setItem r x).keep = s.keep := rfl
@[simp] theorem State.setItem_power (r : Nat) (x : ItemCtx) : (s.setItem r x).power = s.power := rfl
@[simp] theorem State.setItem_bootNs (r : Nat) (x : ItemCtx) : (s.setItem r x).bootNs = s.bootNs := rfl
@[simp] theorem State.setItem_at_fget (r : Nat) (x : ItemCtx) (f' : Fld) (j : Nat) : (s.setItem r x).fget f' j = s.fget f' j := rfl
@[simp] theorem State.setItem_at_engine (r : Nat) (x : ItemCtx) (c' e' : Nat) : (s.setItem r x).engine c' e' = s.engine c' e' := rfl
@[simp] theorem State.setItem_at_tile (r : Nat) (x : ItemCtx) (c' k' : Nat) : (s.setItem r x).tile c' k' = s.tile c' k' := rfl
@[simp] theorem State.setItem_at_restorer (r : Nat) (x : ItemCtx) (c' : Nat) : (s.setItem r x).restorer c' = s.restorer c' := rfl
@[simp] theorem State.setItem_at_core (r : Nat) (x : ItemCtx) (c' : Nat) : (s.setItem r x).core c' = s.core c' := rfl
@[simp] theorem State.setItem_at_seq (r : Nat) (x : ItemCtx) (c' : Nat) : (s.setItem r x).seq c' = s.seq c' := rfl
@[simp] theorem State.setItem_at_ring (r : Nat) (x : ItemCtx) (k' : Nat) : (s.setItem r x).ring k' = s.ring k' := rfl
@[simp] theorem State.setItem_at_lane (r : Nat) (x : ItemCtx) (l' : Nat) : (s.setItem r x).lane l' = s.lane l' := rfl
@[simp] theorem State.setItem_at_cport (r : Nat) (x : ItemCtx) (p' : Nat) : (s.setItem r x).cport p' = s.cport p' := rfl
@[simp] theorem State.setItem_at_rej (r : Nat) (x : ItemCtx) (k' : Nat) : (s.setItem r x).rej k' = s.rej k' := rfl
@[simp] theorem State.setItem_at_ao (r : Nat) (x : ItemCtx) (k' : Nat) : (s.setItem r x).ao k' = s.ao k' := rfl
@[simp] theorem State.setItem_at_lookout (r : Nat) (x : ItemCtx) (k' : Nat) : (s.setItem r x).lookout k' = s.lookout k' := rfl

/-! ### State.setModel changes `models` only -/

@[simp] theorem State.setModel_pending (m : Model) : (s.setModel m).pending = s.pending := rfl
@[simp] theorem State.setModel_ns (m : Model) : (s.setModel m).ns = s.ns := rfl
@[simp] theorem State.setModel_free (m : Model) : (s.setModel m).free = s.free := rfl
@[simp] theorem State.setModel_fields (m : Model) : (s.setModel m).fields = s.fields := rfl
@[simp] theorem State.setModel_staged (m : Model) : (s.setModel m).staged = s.staged := rfl
@[simp] theorem State.setModel_latch (m : Model) : (s.setModel m).latch = s.latch := rfl
@[simp] theorem State.setModel_lowHeld (m : Model) : (s.setModel m).lowHeld = s.lowHeld := rfl
@[simp] theorem State.setModel_readData (m : Model) : (s.setModel m).readData = s.readData := rfl
@[simp] theorem State.setModel_events (m : Model) : (s.setModel m).events = s.events := rfl
@[simp] theorem State.setModel_lastLog (m : Model) : (s.setModel m).lastLog = s.lastLog := rfl
@[simp] theorem State.setModel_heldLog (m : Model) : (s.setModel m).heldLog = s.heldLog := rfl
@[simp] theorem State.setModel_out (m : Model) : (s.setModel m).out = s.out := rfl
@[simp] theorem State.setModel_engines (m : Model) : (s.setModel m).engines = s.engines := rfl
@[simp] theorem State.setModel_tiles (m : Model) : (s.setModel m).tiles = s.tiles := rfl
@[simp] theorem State.setModel_rst (m : Model) : (s.setModel m).rst = s.rst := rfl
@[simp] theorem State.setModel_cores (m : Model) : (s.setModel m).cores = s.cores := rfl
@[simp] theorem State.setModel_seqs (m : Model) : (s.setModel m).seqs = s.seqs := rfl
@[simp] theorem State.setModel_sram (m : Model) : (s.setModel m).sram = s.sram := rfl
@[simp] theorem State.setModel_fab (m : Model) : (s.setModel m).fab = s.fab := rfl
@[simp] theorem State.setModel_dram (m : Model) : (s.setModel m).dram = s.dram := rfl
@[simp] theorem State.setModel_items (m : Model) : (s.setModel m).items = s.items := rfl
@[simp] theorem State.setModel_mgmt (m : Model) : (s.setModel m).mgmt = s.mgmt := rfl
@[simp] theorem State.setModel_rings (m : Model) : (s.setModel m).rings = s.rings := rfl
@[simp] theorem State.setModel_reads (m : Model) : (s.setModel m).reads = s.reads := rfl
@[simp] theorem State.setModel_nextTag (m : Model) : (s.setModel m).nextTag = s.nextTag := rfl
@[simp] theorem State.setModel_msix (m : Model) : (s.setModel m).msix = s.msix := rfl
@[simp] theorem State.setModel_msixPending (m : Model) : (s.setModel m).msixPending = s.msixPending := rfl
@[simp] theorem State.setModel_busMaster (m : Model) : (s.setModel m).busMaster = s.busMaster := rfl
@[simp] theorem State.setModel_ats (m : Model) : (s.setModel m).ats = s.ats := rfl
@[simp] theorem State.setModel_lanes (m : Model) : (s.setModel m).lanes = s.lanes := rfl
@[simp] theorem State.setModel_bar (m : Model) : (s.setModel m).bar = s.bar := rfl
@[simp] theorem State.setModel_field (m : Model) : (s.setModel m).field = s.field := rfl
@[simp] theorem State.setModel_hk (m : Model) : (s.setModel m).hk = s.hk := rfl
@[simp] theorem State.setModel_cnp (m : Model) : (s.setModel m).cnp = s.cnp := rfl
@[simp] theorem State.setModel_sync (m : Model) : (s.setModel m).sync = s.sync := rfl
@[simp] theorem State.setModel_rel (m : Model) : (s.setModel m).rel = s.rel := rfl
@[simp] theorem State.setModel_keep (m : Model) : (s.setModel m).keep = s.keep := rfl
@[simp] theorem State.setModel_power (m : Model) : (s.setModel m).power = s.power := rfl
@[simp] theorem State.setModel_bootNs (m : Model) : (s.setModel m).bootNs = s.bootNs := rfl
@[simp] theorem State.setModel_at_fget (m : Model) (f' : Fld) (j : Nat) : (s.setModel m).fget f' j = s.fget f' j := rfl
@[simp] theorem State.setModel_at_engine (m : Model) (c' e' : Nat) : (s.setModel m).engine c' e' = s.engine c' e' := rfl
@[simp] theorem State.setModel_at_tile (m : Model) (c' k' : Nat) : (s.setModel m).tile c' k' = s.tile c' k' := rfl
@[simp] theorem State.setModel_at_restorer (m : Model) (c' : Nat) : (s.setModel m).restorer c' = s.restorer c' := rfl
@[simp] theorem State.setModel_at_core (m : Model) (c' : Nat) : (s.setModel m).core c' = s.core c' := rfl
@[simp] theorem State.setModel_at_seq (m : Model) (c' : Nat) : (s.setModel m).seq c' = s.seq c' := rfl
@[simp] theorem State.setModel_at_ring (m : Model) (k' : Nat) : (s.setModel m).ring k' = s.ring k' := rfl
@[simp] theorem State.setModel_at_lane (m : Model) (l' : Nat) : (s.setModel m).lane l' = s.lane l' := rfl
@[simp] theorem State.setModel_at_cport (m : Model) (p' : Nat) : (s.setModel m).cport p' = s.cport p' := rfl
@[simp] theorem State.setModel_at_rej (m : Model) (k' : Nat) : (s.setModel m).rej k' = s.rej k' := rfl
@[simp] theorem State.setModel_at_ao (m : Model) (k' : Nat) : (s.setModel m).ao k' = s.ao k' := rfl
@[simp] theorem State.setModel_at_lookout (m : Model) (k' : Nat) : (s.setModel m).lookout k' = s.lookout k' := rfl

/-! ### State.setCport changes `cnp` only -/

@[simp] theorem State.setCport_pending (p : Nat) (x : CnpPort) : (s.setCport p x).pending = s.pending := rfl
@[simp] theorem State.setCport_ns (p : Nat) (x : CnpPort) : (s.setCport p x).ns = s.ns := rfl
@[simp] theorem State.setCport_free (p : Nat) (x : CnpPort) : (s.setCport p x).free = s.free := rfl
@[simp] theorem State.setCport_fields (p : Nat) (x : CnpPort) : (s.setCport p x).fields = s.fields := rfl
@[simp] theorem State.setCport_staged (p : Nat) (x : CnpPort) : (s.setCport p x).staged = s.staged := rfl
@[simp] theorem State.setCport_latch (p : Nat) (x : CnpPort) : (s.setCport p x).latch = s.latch := rfl
@[simp] theorem State.setCport_lowHeld (p : Nat) (x : CnpPort) : (s.setCport p x).lowHeld = s.lowHeld := rfl
@[simp] theorem State.setCport_readData (p : Nat) (x : CnpPort) : (s.setCport p x).readData = s.readData := rfl
@[simp] theorem State.setCport_events (p : Nat) (x : CnpPort) : (s.setCport p x).events = s.events := rfl
@[simp] theorem State.setCport_lastLog (p : Nat) (x : CnpPort) : (s.setCport p x).lastLog = s.lastLog := rfl
@[simp] theorem State.setCport_heldLog (p : Nat) (x : CnpPort) : (s.setCport p x).heldLog = s.heldLog := rfl
@[simp] theorem State.setCport_out (p : Nat) (x : CnpPort) : (s.setCport p x).out = s.out := rfl
@[simp] theorem State.setCport_engines (p : Nat) (x : CnpPort) : (s.setCport p x).engines = s.engines := rfl
@[simp] theorem State.setCport_tiles (p : Nat) (x : CnpPort) : (s.setCport p x).tiles = s.tiles := rfl
@[simp] theorem State.setCport_rst (p : Nat) (x : CnpPort) : (s.setCport p x).rst = s.rst := rfl
@[simp] theorem State.setCport_cores (p : Nat) (x : CnpPort) : (s.setCport p x).cores = s.cores := rfl
@[simp] theorem State.setCport_seqs (p : Nat) (x : CnpPort) : (s.setCport p x).seqs = s.seqs := rfl
@[simp] theorem State.setCport_sram (p : Nat) (x : CnpPort) : (s.setCport p x).sram = s.sram := rfl
@[simp] theorem State.setCport_models (p : Nat) (x : CnpPort) : (s.setCport p x).models = s.models := rfl
@[simp] theorem State.setCport_fab (p : Nat) (x : CnpPort) : (s.setCport p x).fab = s.fab := rfl
@[simp] theorem State.setCport_dram (p : Nat) (x : CnpPort) : (s.setCport p x).dram = s.dram := rfl
@[simp] theorem State.setCport_items (p : Nat) (x : CnpPort) : (s.setCport p x).items = s.items := rfl
@[simp] theorem State.setCport_mgmt (p : Nat) (x : CnpPort) : (s.setCport p x).mgmt = s.mgmt := rfl
@[simp] theorem State.setCport_rings (p : Nat) (x : CnpPort) : (s.setCport p x).rings = s.rings := rfl
@[simp] theorem State.setCport_reads (p : Nat) (x : CnpPort) : (s.setCport p x).reads = s.reads := rfl
@[simp] theorem State.setCport_nextTag (p : Nat) (x : CnpPort) : (s.setCport p x).nextTag = s.nextTag := rfl
@[simp] theorem State.setCport_msix (p : Nat) (x : CnpPort) : (s.setCport p x).msix = s.msix := rfl
@[simp] theorem State.setCport_msixPending (p : Nat) (x : CnpPort) : (s.setCport p x).msixPending = s.msixPending := rfl
@[simp] theorem State.setCport_busMaster (p : Nat) (x : CnpPort) : (s.setCport p x).busMaster = s.busMaster := rfl
@[simp] theorem State.setCport_ats (p : Nat) (x : CnpPort) : (s.setCport p x).ats = s.ats := rfl
@[simp] theorem State.setCport_lanes (p : Nat) (x : CnpPort) : (s.setCport p x).lanes = s.lanes := rfl
@[simp] theorem State.setCport_bar (p : Nat) (x : CnpPort) : (s.setCport p x).bar = s.bar := rfl
@[simp] theorem State.setCport_field (p : Nat) (x : CnpPort) : (s.setCport p x).field = s.field := rfl
@[simp] theorem State.setCport_hk (p : Nat) (x : CnpPort) : (s.setCport p x).hk = s.hk := rfl
@[simp] theorem State.setCport_sync (p : Nat) (x : CnpPort) : (s.setCport p x).sync = s.sync := rfl
@[simp] theorem State.setCport_rel (p : Nat) (x : CnpPort) : (s.setCport p x).rel = s.rel := rfl
@[simp] theorem State.setCport_keep (p : Nat) (x : CnpPort) : (s.setCport p x).keep = s.keep := rfl
@[simp] theorem State.setCport_power (p : Nat) (x : CnpPort) : (s.setCport p x).power = s.power := rfl
@[simp] theorem State.setCport_bootNs (p : Nat) (x : CnpPort) : (s.setCport p x).bootNs = s.bootNs := rfl
@[simp] theorem State.setCport_at_fget (p : Nat) (x : CnpPort) (f' : Fld) (j : Nat) : (s.setCport p x).fget f' j = s.fget f' j := rfl
@[simp] theorem State.setCport_at_engine (p : Nat) (x : CnpPort) (c' e' : Nat) : (s.setCport p x).engine c' e' = s.engine c' e' := rfl
@[simp] theorem State.setCport_at_tile (p : Nat) (x : CnpPort) (c' k' : Nat) : (s.setCport p x).tile c' k' = s.tile c' k' := rfl
@[simp] theorem State.setCport_at_restorer (p : Nat) (x : CnpPort) (c' : Nat) : (s.setCport p x).restorer c' = s.restorer c' := rfl
@[simp] theorem State.setCport_at_core (p : Nat) (x : CnpPort) (c' : Nat) : (s.setCport p x).core c' = s.core c' := rfl
@[simp] theorem State.setCport_at_seq (p : Nat) (x : CnpPort) (c' : Nat) : (s.setCport p x).seq c' = s.seq c' := rfl
@[simp] theorem State.setCport_at_ring (p : Nat) (x : CnpPort) (k' : Nat) : (s.setCport p x).ring k' = s.ring k' := rfl
@[simp] theorem State.setCport_at_lane (p : Nat) (x : CnpPort) (l' : Nat) : (s.setCport p x).lane l' = s.lane l' := rfl
@[simp] theorem State.setCport_at_rej (p : Nat) (x : CnpPort) (k' : Nat) : (s.setCport p x).rej k' = s.rej k' := rfl
@[simp] theorem State.setCport_at_ao (p : Nat) (x : CnpPort) (k' : Nat) : (s.setCport p x).ao k' = s.ao k' := rfl
@[simp] theorem State.setCport_at_lookout (p : Nat) (x : CnpPort) (k' : Nat) : (s.setCport p x).lookout k' = s.lookout k' := rfl

/-! ### State.setLookout changes `rel` only -/

@[simp] theorem State.setLookout_pending (k : Nat) (x : Lookout) : (s.setLookout k x).pending = s.pending := rfl
@[simp] theorem State.setLookout_ns (k : Nat) (x : Lookout) : (s.setLookout k x).ns = s.ns := rfl
@[simp] theorem State.setLookout_free (k : Nat) (x : Lookout) : (s.setLookout k x).free = s.free := rfl
@[simp] theorem State.setLookout_fields (k : Nat) (x : Lookout) : (s.setLookout k x).fields = s.fields := rfl
@[simp] theorem State.setLookout_staged (k : Nat) (x : Lookout) : (s.setLookout k x).staged = s.staged := rfl
@[simp] theorem State.setLookout_latch (k : Nat) (x : Lookout) : (s.setLookout k x).latch = s.latch := rfl
@[simp] theorem State.setLookout_lowHeld (k : Nat) (x : Lookout) : (s.setLookout k x).lowHeld = s.lowHeld := rfl
@[simp] theorem State.setLookout_readData (k : Nat) (x : Lookout) : (s.setLookout k x).readData = s.readData := rfl
@[simp] theorem State.setLookout_events (k : Nat) (x : Lookout) : (s.setLookout k x).events = s.events := rfl
@[simp] theorem State.setLookout_lastLog (k : Nat) (x : Lookout) : (s.setLookout k x).lastLog = s.lastLog := rfl
@[simp] theorem State.setLookout_heldLog (k : Nat) (x : Lookout) : (s.setLookout k x).heldLog = s.heldLog := rfl
@[simp] theorem State.setLookout_out (k : Nat) (x : Lookout) : (s.setLookout k x).out = s.out := rfl
@[simp] theorem State.setLookout_engines (k : Nat) (x : Lookout) : (s.setLookout k x).engines = s.engines := rfl
@[simp] theorem State.setLookout_tiles (k : Nat) (x : Lookout) : (s.setLookout k x).tiles = s.tiles := rfl
@[simp] theorem State.setLookout_rst (k : Nat) (x : Lookout) : (s.setLookout k x).rst = s.rst := rfl
@[simp] theorem State.setLookout_cores (k : Nat) (x : Lookout) : (s.setLookout k x).cores = s.cores := rfl
@[simp] theorem State.setLookout_seqs (k : Nat) (x : Lookout) : (s.setLookout k x).seqs = s.seqs := rfl
@[simp] theorem State.setLookout_sram (k : Nat) (x : Lookout) : (s.setLookout k x).sram = s.sram := rfl
@[simp] theorem State.setLookout_models (k : Nat) (x : Lookout) : (s.setLookout k x).models = s.models := rfl
@[simp] theorem State.setLookout_fab (k : Nat) (x : Lookout) : (s.setLookout k x).fab = s.fab := rfl
@[simp] theorem State.setLookout_dram (k : Nat) (x : Lookout) : (s.setLookout k x).dram = s.dram := rfl
@[simp] theorem State.setLookout_items (k : Nat) (x : Lookout) : (s.setLookout k x).items = s.items := rfl
@[simp] theorem State.setLookout_mgmt (k : Nat) (x : Lookout) : (s.setLookout k x).mgmt = s.mgmt := rfl
@[simp] theorem State.setLookout_rings (k : Nat) (x : Lookout) : (s.setLookout k x).rings = s.rings := rfl
@[simp] theorem State.setLookout_reads (k : Nat) (x : Lookout) : (s.setLookout k x).reads = s.reads := rfl
@[simp] theorem State.setLookout_nextTag (k : Nat) (x : Lookout) : (s.setLookout k x).nextTag = s.nextTag := rfl
@[simp] theorem State.setLookout_msix (k : Nat) (x : Lookout) : (s.setLookout k x).msix = s.msix := rfl
@[simp] theorem State.setLookout_msixPending (k : Nat) (x : Lookout) : (s.setLookout k x).msixPending = s.msixPending := rfl
@[simp] theorem State.setLookout_busMaster (k : Nat) (x : Lookout) : (s.setLookout k x).busMaster = s.busMaster := rfl
@[simp] theorem State.setLookout_ats (k : Nat) (x : Lookout) : (s.setLookout k x).ats = s.ats := rfl
@[simp] theorem State.setLookout_lanes (k : Nat) (x : Lookout) : (s.setLookout k x).lanes = s.lanes := rfl
@[simp] theorem State.setLookout_bar (k : Nat) (x : Lookout) : (s.setLookout k x).bar = s.bar := rfl
@[simp] theorem State.setLookout_field (k : Nat) (x : Lookout) : (s.setLookout k x).field = s.field := rfl
@[simp] theorem State.setLookout_hk (k : Nat) (x : Lookout) : (s.setLookout k x).hk = s.hk := rfl
@[simp] theorem State.setLookout_cnp (k : Nat) (x : Lookout) : (s.setLookout k x).cnp = s.cnp := rfl
@[simp] theorem State.setLookout_sync (k : Nat) (x : Lookout) : (s.setLookout k x).sync = s.sync := rfl
@[simp] theorem State.setLookout_keep (k : Nat) (x : Lookout) : (s.setLookout k x).keep = s.keep := rfl
@[simp] theorem State.setLookout_power (k : Nat) (x : Lookout) : (s.setLookout k x).power = s.power := rfl
@[simp] theorem State.setLookout_bootNs (k : Nat) (x : Lookout) : (s.setLookout k x).bootNs = s.bootNs := rfl
@[simp] theorem State.setLookout_at_fget (k : Nat) (x : Lookout) (f' : Fld) (j : Nat) : (s.setLookout k x).fget f' j = s.fget f' j := rfl
@[simp] theorem State.setLookout_at_engine (k : Nat) (x : Lookout) (c' e' : Nat) : (s.setLookout k x).engine c' e' = s.engine c' e' := rfl
@[simp] theorem State.setLookout_at_tile (k : Nat) (x : Lookout) (c' k' : Nat) : (s.setLookout k x).tile c' k' = s.tile c' k' := rfl
@[simp] theorem State.setLookout_at_restorer (k : Nat) (x : Lookout) (c' : Nat) : (s.setLookout k x).restorer c' = s.restorer c' := rfl
@[simp] theorem State.setLookout_at_core (k : Nat) (x : Lookout) (c' : Nat) : (s.setLookout k x).core c' = s.core c' := rfl
@[simp] theorem State.setLookout_at_seq (k : Nat) (x : Lookout) (c' : Nat) : (s.setLookout k x).seq c' = s.seq c' := rfl
@[simp] theorem State.setLookout_at_ring (k : Nat) (x : Lookout) (k' : Nat) : (s.setLookout k x).ring k' = s.ring k' := rfl
@[simp] theorem State.setLookout_at_lane (k : Nat) (x : Lookout) (l' : Nat) : (s.setLookout k x).lane l' = s.lane l' := rfl
@[simp] theorem State.setLookout_at_cport (k : Nat) (x : Lookout) (p' : Nat) : (s.setLookout k x).cport p' = s.cport p' := rfl
@[simp] theorem State.setLookout_at_rej (k : Nat) (x : Lookout) (k' : Nat) : (s.setLookout k x).rej k' = s.rej k' := rfl
@[simp] theorem State.setLookout_at_ao (k : Nat) (x : Lookout) (k' : Nat) : (s.setLookout k x).ao k' = s.ao k' := rfl

/-! ### State.setClean changes `rel` only -/

@[simp] theorem State.setClean_pending (k : Nat) : (s.setClean k).pending = s.pending := rfl
@[simp] theorem State.setClean_ns (k : Nat) : (s.setClean k).ns = s.ns := rfl
@[simp] theorem State.setClean_free (k : Nat) : (s.setClean k).free = s.free := rfl
@[simp] theorem State.setClean_fields (k : Nat) : (s.setClean k).fields = s.fields := rfl
@[simp] theorem State.setClean_staged (k : Nat) : (s.setClean k).staged = s.staged := rfl
@[simp] theorem State.setClean_latch (k : Nat) : (s.setClean k).latch = s.latch := rfl
@[simp] theorem State.setClean_lowHeld (k : Nat) : (s.setClean k).lowHeld = s.lowHeld := rfl
@[simp] theorem State.setClean_readData (k : Nat) : (s.setClean k).readData = s.readData := rfl
@[simp] theorem State.setClean_events (k : Nat) : (s.setClean k).events = s.events := rfl
@[simp] theorem State.setClean_lastLog (k : Nat) : (s.setClean k).lastLog = s.lastLog := rfl
@[simp] theorem State.setClean_heldLog (k : Nat) : (s.setClean k).heldLog = s.heldLog := rfl
@[simp] theorem State.setClean_out (k : Nat) : (s.setClean k).out = s.out := rfl
@[simp] theorem State.setClean_engines (k : Nat) : (s.setClean k).engines = s.engines := rfl
@[simp] theorem State.setClean_tiles (k : Nat) : (s.setClean k).tiles = s.tiles := rfl
@[simp] theorem State.setClean_rst (k : Nat) : (s.setClean k).rst = s.rst := rfl
@[simp] theorem State.setClean_cores (k : Nat) : (s.setClean k).cores = s.cores := rfl
@[simp] theorem State.setClean_seqs (k : Nat) : (s.setClean k).seqs = s.seqs := rfl
@[simp] theorem State.setClean_sram (k : Nat) : (s.setClean k).sram = s.sram := rfl
@[simp] theorem State.setClean_models (k : Nat) : (s.setClean k).models = s.models := rfl
@[simp] theorem State.setClean_fab (k : Nat) : (s.setClean k).fab = s.fab := rfl
@[simp] theorem State.setClean_dram (k : Nat) : (s.setClean k).dram = s.dram := rfl
@[simp] theorem State.setClean_items (k : Nat) : (s.setClean k).items = s.items := rfl
@[simp] theorem State.setClean_mgmt (k : Nat) : (s.setClean k).mgmt = s.mgmt := rfl
@[simp] theorem State.setClean_rings (k : Nat) : (s.setClean k).rings = s.rings := rfl
@[simp] theorem State.setClean_reads (k : Nat) : (s.setClean k).reads = s.reads := rfl
@[simp] theorem State.setClean_nextTag (k : Nat) : (s.setClean k).nextTag = s.nextTag := rfl
@[simp] theorem State.setClean_msix (k : Nat) : (s.setClean k).msix = s.msix := rfl
@[simp] theorem State.setClean_msixPending (k : Nat) : (s.setClean k).msixPending = s.msixPending := rfl
@[simp] theorem State.setClean_busMaster (k : Nat) : (s.setClean k).busMaster = s.busMaster := rfl
@[simp] theorem State.setClean_ats (k : Nat) : (s.setClean k).ats = s.ats := rfl
@[simp] theorem State.setClean_lanes (k : Nat) : (s.setClean k).lanes = s.lanes := rfl
@[simp] theorem State.setClean_bar (k : Nat) : (s.setClean k).bar = s.bar := rfl
@[simp] theorem State.setClean_field (k : Nat) : (s.setClean k).field = s.field := rfl
@[simp] theorem State.setClean_hk (k : Nat) : (s.setClean k).hk = s.hk := rfl
@[simp] theorem State.setClean_cnp (k : Nat) : (s.setClean k).cnp = s.cnp := rfl
@[simp] theorem State.setClean_sync (k : Nat) : (s.setClean k).sync = s.sync := rfl
@[simp] theorem State.setClean_keep (k : Nat) : (s.setClean k).keep = s.keep := rfl
@[simp] theorem State.setClean_power (k : Nat) : (s.setClean k).power = s.power := rfl
@[simp] theorem State.setClean_bootNs (k : Nat) : (s.setClean k).bootNs = s.bootNs := rfl
@[simp] theorem State.setClean_at_fget (k : Nat) (f' : Fld) (j : Nat) : (s.setClean k).fget f' j = s.fget f' j := rfl
@[simp] theorem State.setClean_at_engine (k : Nat) (c' e' : Nat) : (s.setClean k).engine c' e' = s.engine c' e' := rfl
@[simp] theorem State.setClean_at_tile (k : Nat) (c' k' : Nat) : (s.setClean k).tile c' k' = s.tile c' k' := rfl
@[simp] theorem State.setClean_at_restorer (k : Nat) (c' : Nat) : (s.setClean k).restorer c' = s.restorer c' := rfl
@[simp] theorem State.setClean_at_core (k : Nat) (c' : Nat) : (s.setClean k).core c' = s.core c' := rfl
@[simp] theorem State.setClean_at_seq (k : Nat) (c' : Nat) : (s.setClean k).seq c' = s.seq c' := rfl
@[simp] theorem State.setClean_at_ring (k : Nat) (k' : Nat) : (s.setClean k).ring k' = s.ring k' := rfl
@[simp] theorem State.setClean_at_lane (k : Nat) (l' : Nat) : (s.setClean k).lane l' = s.lane l' := rfl
@[simp] theorem State.setClean_at_cport (k : Nat) (p' : Nat) : (s.setClean k).cport p' = s.cport p' := rfl
@[simp] theorem State.setClean_at_rej (k : Nat) (k' : Nat) : (s.setClean k).rej k' = s.rej k' := rfl
@[simp] theorem State.setClean_at_ao (k : Nat) (k' : Nat) : (s.setClean k).ao k' = s.ao k' := rfl

/-! ### State.setRej changes `field` only -/

@[simp] theorem State.setRej_pending (k : Nat) (x : RejOut) : (s.setRej k x).pending = s.pending := rfl
@[simp] theorem State.setRej_ns (k : Nat) (x : RejOut) : (s.setRej k x).ns = s.ns := rfl
@[simp] theorem State.setRej_free (k : Nat) (x : RejOut) : (s.setRej k x).free = s.free := rfl
@[simp] theorem State.setRej_fields (k : Nat) (x : RejOut) : (s.setRej k x).fields = s.fields := rfl
@[simp] theorem State.setRej_staged (k : Nat) (x : RejOut) : (s.setRej k x).staged = s.staged := rfl
@[simp] theorem State.setRej_latch (k : Nat) (x : RejOut) : (s.setRej k x).latch = s.latch := rfl
@[simp] theorem State.setRej_lowHeld (k : Nat) (x : RejOut) : (s.setRej k x).lowHeld = s.lowHeld := rfl
@[simp] theorem State.setRej_readData (k : Nat) (x : RejOut) : (s.setRej k x).readData = s.readData := rfl
@[simp] theorem State.setRej_events (k : Nat) (x : RejOut) : (s.setRej k x).events = s.events := rfl
@[simp] theorem State.setRej_lastLog (k : Nat) (x : RejOut) : (s.setRej k x).lastLog = s.lastLog := rfl
@[simp] theorem State.setRej_heldLog (k : Nat) (x : RejOut) : (s.setRej k x).heldLog = s.heldLog := rfl
@[simp] theorem State.setRej_out (k : Nat) (x : RejOut) : (s.setRej k x).out = s.out := rfl
@[simp] theorem State.setRej_engines (k : Nat) (x : RejOut) : (s.setRej k x).engines = s.engines := rfl
@[simp] theorem State.setRej_tiles (k : Nat) (x : RejOut) : (s.setRej k x).tiles = s.tiles := rfl
@[simp] theorem State.setRej_rst (k : Nat) (x : RejOut) : (s.setRej k x).rst = s.rst := rfl
@[simp] theorem State.setRej_cores (k : Nat) (x : RejOut) : (s.setRej k x).cores = s.cores := rfl
@[simp] theorem State.setRej_seqs (k : Nat) (x : RejOut) : (s.setRej k x).seqs = s.seqs := rfl
@[simp] theorem State.setRej_sram (k : Nat) (x : RejOut) : (s.setRej k x).sram = s.sram := rfl
@[simp] theorem State.setRej_models (k : Nat) (x : RejOut) : (s.setRej k x).models = s.models := rfl
@[simp] theorem State.setRej_fab (k : Nat) (x : RejOut) : (s.setRej k x).fab = s.fab := rfl
@[simp] theorem State.setRej_dram (k : Nat) (x : RejOut) : (s.setRej k x).dram = s.dram := rfl
@[simp] theorem State.setRej_items (k : Nat) (x : RejOut) : (s.setRej k x).items = s.items := rfl
@[simp] theorem State.setRej_mgmt (k : Nat) (x : RejOut) : (s.setRej k x).mgmt = s.mgmt := rfl
@[simp] theorem State.setRej_rings (k : Nat) (x : RejOut) : (s.setRej k x).rings = s.rings := rfl
@[simp] theorem State.setRej_reads (k : Nat) (x : RejOut) : (s.setRej k x).reads = s.reads := rfl
@[simp] theorem State.setRej_nextTag (k : Nat) (x : RejOut) : (s.setRej k x).nextTag = s.nextTag := rfl
@[simp] theorem State.setRej_msix (k : Nat) (x : RejOut) : (s.setRej k x).msix = s.msix := rfl
@[simp] theorem State.setRej_msixPending (k : Nat) (x : RejOut) : (s.setRej k x).msixPending = s.msixPending := rfl
@[simp] theorem State.setRej_busMaster (k : Nat) (x : RejOut) : (s.setRej k x).busMaster = s.busMaster := rfl
@[simp] theorem State.setRej_ats (k : Nat) (x : RejOut) : (s.setRej k x).ats = s.ats := rfl
@[simp] theorem State.setRej_lanes (k : Nat) (x : RejOut) : (s.setRej k x).lanes = s.lanes := rfl
@[simp] theorem State.setRej_bar (k : Nat) (x : RejOut) : (s.setRej k x).bar = s.bar := rfl
@[simp] theorem State.setRej_hk (k : Nat) (x : RejOut) : (s.setRej k x).hk = s.hk := rfl
@[simp] theorem State.setRej_cnp (k : Nat) (x : RejOut) : (s.setRej k x).cnp = s.cnp := rfl
@[simp] theorem State.setRej_sync (k : Nat) (x : RejOut) : (s.setRej k x).sync = s.sync := rfl
@[simp] theorem State.setRej_rel (k : Nat) (x : RejOut) : (s.setRej k x).rel = s.rel := rfl
@[simp] theorem State.setRej_keep (k : Nat) (x : RejOut) : (s.setRej k x).keep = s.keep := rfl
@[simp] theorem State.setRej_power (k : Nat) (x : RejOut) : (s.setRej k x).power = s.power := rfl
@[simp] theorem State.setRej_bootNs (k : Nat) (x : RejOut) : (s.setRej k x).bootNs = s.bootNs := rfl
@[simp] theorem State.setRej_at_fget (k : Nat) (x : RejOut) (f' : Fld) (j : Nat) : (s.setRej k x).fget f' j = s.fget f' j := rfl
@[simp] theorem State.setRej_at_engine (k : Nat) (x : RejOut) (c' e' : Nat) : (s.setRej k x).engine c' e' = s.engine c' e' := rfl
@[simp] theorem State.setRej_at_tile (k : Nat) (x : RejOut) (c' k' : Nat) : (s.setRej k x).tile c' k' = s.tile c' k' := rfl
@[simp] theorem State.setRej_at_restorer (k : Nat) (x : RejOut) (c' : Nat) : (s.setRej k x).restorer c' = s.restorer c' := rfl
@[simp] theorem State.setRej_at_core (k : Nat) (x : RejOut) (c' : Nat) : (s.setRej k x).core c' = s.core c' := rfl
@[simp] theorem State.setRej_at_seq (k : Nat) (x : RejOut) (c' : Nat) : (s.setRej k x).seq c' = s.seq c' := rfl
@[simp] theorem State.setRej_at_ring (k : Nat) (x : RejOut) (k' : Nat) : (s.setRej k x).ring k' = s.ring k' := rfl
@[simp] theorem State.setRej_at_lane (k : Nat) (x : RejOut) (l' : Nat) : (s.setRej k x).lane l' = s.lane l' := rfl
@[simp] theorem State.setRej_at_cport (k : Nat) (x : RejOut) (p' : Nat) : (s.setRej k x).cport p' = s.cport p' := rfl
@[simp] theorem State.setRej_at_lookout (k : Nat) (x : RejOut) (k' : Nat) : (s.setRej k x).lookout k' = s.lookout k' := rfl

/-! ### State.setAo changes `field` only -/

@[simp] theorem State.setAo_pending (k : Nat) (x : AnaOut) : (s.setAo k x).pending = s.pending := rfl
@[simp] theorem State.setAo_ns (k : Nat) (x : AnaOut) : (s.setAo k x).ns = s.ns := rfl
@[simp] theorem State.setAo_free (k : Nat) (x : AnaOut) : (s.setAo k x).free = s.free := rfl
@[simp] theorem State.setAo_fields (k : Nat) (x : AnaOut) : (s.setAo k x).fields = s.fields := rfl
@[simp] theorem State.setAo_staged (k : Nat) (x : AnaOut) : (s.setAo k x).staged = s.staged := rfl
@[simp] theorem State.setAo_latch (k : Nat) (x : AnaOut) : (s.setAo k x).latch = s.latch := rfl
@[simp] theorem State.setAo_lowHeld (k : Nat) (x : AnaOut) : (s.setAo k x).lowHeld = s.lowHeld := rfl
@[simp] theorem State.setAo_readData (k : Nat) (x : AnaOut) : (s.setAo k x).readData = s.readData := rfl
@[simp] theorem State.setAo_events (k : Nat) (x : AnaOut) : (s.setAo k x).events = s.events := rfl
@[simp] theorem State.setAo_lastLog (k : Nat) (x : AnaOut) : (s.setAo k x).lastLog = s.lastLog := rfl
@[simp] theorem State.setAo_heldLog (k : Nat) (x : AnaOut) : (s.setAo k x).heldLog = s.heldLog := rfl
@[simp] theorem State.setAo_out (k : Nat) (x : AnaOut) : (s.setAo k x).out = s.out := rfl
@[simp] theorem State.setAo_engines (k : Nat) (x : AnaOut) : (s.setAo k x).engines = s.engines := rfl
@[simp] theorem State.setAo_tiles (k : Nat) (x : AnaOut) : (s.setAo k x).tiles = s.tiles := rfl
@[simp] theorem State.setAo_rst (k : Nat) (x : AnaOut) : (s.setAo k x).rst = s.rst := rfl
@[simp] theorem State.setAo_cores (k : Nat) (x : AnaOut) : (s.setAo k x).cores = s.cores := rfl
@[simp] theorem State.setAo_seqs (k : Nat) (x : AnaOut) : (s.setAo k x).seqs = s.seqs := rfl
@[simp] theorem State.setAo_sram (k : Nat) (x : AnaOut) : (s.setAo k x).sram = s.sram := rfl
@[simp] theorem State.setAo_models (k : Nat) (x : AnaOut) : (s.setAo k x).models = s.models := rfl
@[simp] theorem State.setAo_fab (k : Nat) (x : AnaOut) : (s.setAo k x).fab = s.fab := rfl
@[simp] theorem State.setAo_dram (k : Nat) (x : AnaOut) : (s.setAo k x).dram = s.dram := rfl
@[simp] theorem State.setAo_items (k : Nat) (x : AnaOut) : (s.setAo k x).items = s.items := rfl
@[simp] theorem State.setAo_mgmt (k : Nat) (x : AnaOut) : (s.setAo k x).mgmt = s.mgmt := rfl
@[simp] theorem State.setAo_rings (k : Nat) (x : AnaOut) : (s.setAo k x).rings = s.rings := rfl
@[simp] theorem State.setAo_reads (k : Nat) (x : AnaOut) : (s.setAo k x).reads = s.reads := rfl
@[simp] theorem State.setAo_nextTag (k : Nat) (x : AnaOut) : (s.setAo k x).nextTag = s.nextTag := rfl
@[simp] theorem State.setAo_msix (k : Nat) (x : AnaOut) : (s.setAo k x).msix = s.msix := rfl
@[simp] theorem State.setAo_msixPending (k : Nat) (x : AnaOut) : (s.setAo k x).msixPending = s.msixPending := rfl
@[simp] theorem State.setAo_busMaster (k : Nat) (x : AnaOut) : (s.setAo k x).busMaster = s.busMaster := rfl
@[simp] theorem State.setAo_ats (k : Nat) (x : AnaOut) : (s.setAo k x).ats = s.ats := rfl
@[simp] theorem State.setAo_lanes (k : Nat) (x : AnaOut) : (s.setAo k x).lanes = s.lanes := rfl
@[simp] theorem State.setAo_bar (k : Nat) (x : AnaOut) : (s.setAo k x).bar = s.bar := rfl
@[simp] theorem State.setAo_hk (k : Nat) (x : AnaOut) : (s.setAo k x).hk = s.hk := rfl
@[simp] theorem State.setAo_cnp (k : Nat) (x : AnaOut) : (s.setAo k x).cnp = s.cnp := rfl
@[simp] theorem State.setAo_sync (k : Nat) (x : AnaOut) : (s.setAo k x).sync = s.sync := rfl
@[simp] theorem State.setAo_rel (k : Nat) (x : AnaOut) : (s.setAo k x).rel = s.rel := rfl
@[simp] theorem State.setAo_keep (k : Nat) (x : AnaOut) : (s.setAo k x).keep = s.keep := rfl
@[simp] theorem State.setAo_power (k : Nat) (x : AnaOut) : (s.setAo k x).power = s.power := rfl
@[simp] theorem State.setAo_bootNs (k : Nat) (x : AnaOut) : (s.setAo k x).bootNs = s.bootNs := rfl
@[simp] theorem State.setAo_at_fget (k : Nat) (x : AnaOut) (f' : Fld) (j : Nat) : (s.setAo k x).fget f' j = s.fget f' j := rfl
@[simp] theorem State.setAo_at_engine (k : Nat) (x : AnaOut) (c' e' : Nat) : (s.setAo k x).engine c' e' = s.engine c' e' := rfl
@[simp] theorem State.setAo_at_tile (k : Nat) (x : AnaOut) (c' k' : Nat) : (s.setAo k x).tile c' k' = s.tile c' k' := rfl
@[simp] theorem State.setAo_at_restorer (k : Nat) (x : AnaOut) (c' : Nat) : (s.setAo k x).restorer c' = s.restorer c' := rfl
@[simp] theorem State.setAo_at_core (k : Nat) (x : AnaOut) (c' : Nat) : (s.setAo k x).core c' = s.core c' := rfl
@[simp] theorem State.setAo_at_seq (k : Nat) (x : AnaOut) (c' : Nat) : (s.setAo k x).seq c' = s.seq c' := rfl
@[simp] theorem State.setAo_at_ring (k : Nat) (x : AnaOut) (k' : Nat) : (s.setAo k x).ring k' = s.ring k' := rfl
@[simp] theorem State.setAo_at_lane (k : Nat) (x : AnaOut) (l' : Nat) : (s.setAo k x).lane l' = s.lane l' := rfl
@[simp] theorem State.setAo_at_cport (k : Nat) (x : AnaOut) (p' : Nat) : (s.setAo k x).cport p' = s.cport p' := rfl
@[simp] theorem State.setAo_at_lookout (k : Nat) (x : AnaOut) (k' : Nat) : (s.setAo k x).lookout k' = s.lookout k' := rfl

/-! ### State.vtSet changes `field` only -/

@[simp] theorem State.vtSet_pending (slot w : Nat) : (s.vtSet slot w).pending = s.pending := rfl
@[simp] theorem State.vtSet_ns (slot w : Nat) : (s.vtSet slot w).ns = s.ns := rfl
@[simp] theorem State.vtSet_free (slot w : Nat) : (s.vtSet slot w).free = s.free := rfl
@[simp] theorem State.vtSet_fields (slot w : Nat) : (s.vtSet slot w).fields = s.fields := rfl
@[simp] theorem State.vtSet_staged (slot w : Nat) : (s.vtSet slot w).staged = s.staged := rfl
@[simp] theorem State.vtSet_latch (slot w : Nat) : (s.vtSet slot w).latch = s.latch := rfl
@[simp] theorem State.vtSet_lowHeld (slot w : Nat) : (s.vtSet slot w).lowHeld = s.lowHeld := rfl
@[simp] theorem State.vtSet_readData (slot w : Nat) : (s.vtSet slot w).readData = s.readData := rfl
@[simp] theorem State.vtSet_events (slot w : Nat) : (s.vtSet slot w).events = s.events := rfl
@[simp] theorem State.vtSet_lastLog (slot w : Nat) : (s.vtSet slot w).lastLog = s.lastLog := rfl
@[simp] theorem State.vtSet_heldLog (slot w : Nat) : (s.vtSet slot w).heldLog = s.heldLog := rfl
@[simp] theorem State.vtSet_out (slot w : Nat) : (s.vtSet slot w).out = s.out := rfl
@[simp] theorem State.vtSet_engines (slot w : Nat) : (s.vtSet slot w).engines = s.engines := rfl
@[simp] theorem State.vtSet_tiles (slot w : Nat) : (s.vtSet slot w).tiles = s.tiles := rfl
@[simp] theorem State.vtSet_rst (slot w : Nat) : (s.vtSet slot w).rst = s.rst := rfl
@[simp] theorem State.vtSet_cores (slot w : Nat) : (s.vtSet slot w).cores = s.cores := rfl
@[simp] theorem State.vtSet_seqs (slot w : Nat) : (s.vtSet slot w).seqs = s.seqs := rfl
@[simp] theorem State.vtSet_sram (slot w : Nat) : (s.vtSet slot w).sram = s.sram := rfl
@[simp] theorem State.vtSet_models (slot w : Nat) : (s.vtSet slot w).models = s.models := rfl
@[simp] theorem State.vtSet_fab (slot w : Nat) : (s.vtSet slot w).fab = s.fab := rfl
@[simp] theorem State.vtSet_dram (slot w : Nat) : (s.vtSet slot w).dram = s.dram := rfl
@[simp] theorem State.vtSet_items (slot w : Nat) : (s.vtSet slot w).items = s.items := rfl
@[simp] theorem State.vtSet_mgmt (slot w : Nat) : (s.vtSet slot w).mgmt = s.mgmt := rfl
@[simp] theorem State.vtSet_rings (slot w : Nat) : (s.vtSet slot w).rings = s.rings := rfl
@[simp] theorem State.vtSet_reads (slot w : Nat) : (s.vtSet slot w).reads = s.reads := rfl
@[simp] theorem State.vtSet_nextTag (slot w : Nat) : (s.vtSet slot w).nextTag = s.nextTag := rfl
@[simp] theorem State.vtSet_msix (slot w : Nat) : (s.vtSet slot w).msix = s.msix := rfl
@[simp] theorem State.vtSet_msixPending (slot w : Nat) : (s.vtSet slot w).msixPending = s.msixPending := rfl
@[simp] theorem State.vtSet_busMaster (slot w : Nat) : (s.vtSet slot w).busMaster = s.busMaster := rfl
@[simp] theorem State.vtSet_ats (slot w : Nat) : (s.vtSet slot w).ats = s.ats := rfl
@[simp] theorem State.vtSet_lanes (slot w : Nat) : (s.vtSet slot w).lanes = s.lanes := rfl
@[simp] theorem State.vtSet_bar (slot w : Nat) : (s.vtSet slot w).bar = s.bar := rfl
@[simp] theorem State.vtSet_hk (slot w : Nat) : (s.vtSet slot w).hk = s.hk := rfl
@[simp] theorem State.vtSet_cnp (slot w : Nat) : (s.vtSet slot w).cnp = s.cnp := rfl
@[simp] theorem State.vtSet_sync (slot w : Nat) : (s.vtSet slot w).sync = s.sync := rfl
@[simp] theorem State.vtSet_rel (slot w : Nat) : (s.vtSet slot w).rel = s.rel := rfl
@[simp] theorem State.vtSet_keep (slot w : Nat) : (s.vtSet slot w).keep = s.keep := rfl
@[simp] theorem State.vtSet_power (slot w : Nat) : (s.vtSet slot w).power = s.power := rfl
@[simp] theorem State.vtSet_bootNs (slot w : Nat) : (s.vtSet slot w).bootNs = s.bootNs := rfl
@[simp] theorem State.vtSet_at_fget (slot w : Nat) (f' : Fld) (j : Nat) : (s.vtSet slot w).fget f' j = s.fget f' j := rfl
@[simp] theorem State.vtSet_at_engine (slot w : Nat) (c' e' : Nat) : (s.vtSet slot w).engine c' e' = s.engine c' e' := rfl
@[simp] theorem State.vtSet_at_tile (slot w : Nat) (c' k' : Nat) : (s.vtSet slot w).tile c' k' = s.tile c' k' := rfl
@[simp] theorem State.vtSet_at_restorer (slot w : Nat) (c' : Nat) : (s.vtSet slot w).restorer c' = s.restorer c' := rfl
@[simp] theorem State.vtSet_at_core (slot w : Nat) (c' : Nat) : (s.vtSet slot w).core c' = s.core c' := rfl
@[simp] theorem State.vtSet_at_seq (slot w : Nat) (c' : Nat) : (s.vtSet slot w).seq c' = s.seq c' := rfl
@[simp] theorem State.vtSet_at_ring (slot w : Nat) (k' : Nat) : (s.vtSet slot w).ring k' = s.ring k' := rfl
@[simp] theorem State.vtSet_at_lane (slot w : Nat) (l' : Nat) : (s.vtSet slot w).lane l' = s.lane l' := rfl
@[simp] theorem State.vtSet_at_cport (slot w : Nat) (p' : Nat) : (s.vtSet slot w).cport p' = s.cport p' := rfl
@[simp] theorem State.vtSet_at_lookout (slot w : Nat) (k' : Nat) : (s.vtSet slot w).lookout k' = s.lookout k' := rfl

/-! ### Reading what was written -/

theorem Fld.key_inj {f g : Fld} {i j : Nat} : f.key i = g.key j ↔ f.code = g.code ∧ i = j := by
  simp [Fld.key, Nat.pair_eq_pair]

/-- A register field reads the value written to it, cut to its width. -/
@[simp] theorem State.fget_fset_self (f : Fld) (i v : Nat) : (s.fset f i v).fget f i = v % 2 ^ f.width := by
  simp [State.fget, State.fset]

/-- Every other field reads as before. -/
theorem State.fget_fset_ne {f g : Fld} {i j : Nat} (v : Nat) (h : g.code ≠ f.code ∨ j ≠ i) :
    (s.fset f i v).fget g j = s.fget g j := by
  have : g.key j ≠ f.key i := by
    rw [Ne, Fld.key_inj]; rintro ⟨h1, h2⟩; rcases h with h | h <;> contradiction
  simp [State.fget, State.fset, Tab.getD_put_ne _ _ _ _ this]

@[simp] theorem State.engine_setEngine (c e : Nat) (g : Engine) : (s.setEngine c e g).engine c e = g := by
  simp [State.engine, State.setEngine]

@[simp] theorem State.tile_setTile (c k : Nat) (x : Tile) : (s.setTile c k x).tile c k = x := by
  simp [State.tile, State.setTile]

@[simp] theorem State.restorer_setRst (c : Nat) (r : Restorer) : (s.setRst c r).restorer c = r := by
  simp [State.restorer, State.setRst]

@[simp] theorem State.core_setCore (c : Nat) (x : CoreSt) : (s.setCore c x).core c = x := by
  simp [State.core, State.setCore]

theorem State.core_setCore_ne {c d : Nat} (x : CoreSt) (h : d ≠ c) : (s.setCore c x).core d = s.core d := by
  simp [State.core, State.setCore, Tab.getD_set_ne _ _ _ h]

@[simp] theorem State.seq_setSeq (c : Nat) (x : Sequencer) : (s.setSeq c x).seq c = x := by
  simp [State.seq, State.setSeq]

theorem State.seq_setSeq_ne {c d : Nat} (x : Sequencer) (h : d ≠ c) : (s.setSeq c x).seq d = s.seq d := by
  simp [State.seq, State.setSeq, Tab.getD_set_ne _ _ _ h]

@[simp] theorem State.ring_setRing (k : Nat) (r : Ring) : (s.setRing k r).ring k = r := by
  simp [State.ring, State.setRing]

@[simp] theorem State.lane_setLane (l : Nat) (x : Lane) : (s.setLane l x).lane l = x := by
  simp [State.lane, State.setLane]

@[simp] theorem State.cport_setCport (p : Nat) (x : CnpPort) : (s.setCport p x).cport p = x := by
  simp [State.cport, State.setCport]

@[simp] theorem State.rej_setRej (k : Nat) (x : RejOut) : (s.setRej k x).rej k = x := by
  simp [State.rej, State.setRej]

@[simp] theorem State.ao_setAo (k : Nat) (x : AnaOut) : (s.setAo k x).ao k = x := by
  simp [State.ao, State.setAo]

@[simp] theorem State.lookout_setLookout (k : Nat) (x : Lookout) : (s.setLookout k x).lookout k = x := by
  simp [State.lookout, State.setLookout]

/-! ### The memories keep their canonical form -/

theorem State.sramWrite_wf (c a : Nat) (b : List Nat) (h : cellsWf s.sram = true) : cellsWf (s.sramWrite c a b).sram = true :=
  cellWrite_wf _ _ _ h

theorem State.dramWrite_wf (a : Nat) (b : List Nat) (h : cellsWf s.dram = true) : cellsWf (s.dramWrite a b).dram = true :=
  cellWrite_wf _ _ _ h

/-- DRAM reads back what was written to it. -/
theorem State.dramRead_dramWrite (a : Nat) (b : List Nat) (h : cellsWf s.dram = true) :
    (s.dramWrite a b).dramRead a b.length = b.map (fun x => x % 256) :=
  cellRead_cellWrite b s.dram a h

end Sys2Proof.Machine
end

