-- ==== Sys2Proof/Laws/Fields.lean ====
section
/-! SUPPORT. Which register fields the shared operations may change: every other one reads as before. -/

namespace Sys2Proof.Machine

/-- Every register field outside a list reads in `t` as in `s`. -/
def Reads (l : List Fld) (s t : State) : Prop :=
  ∀ (f : Fld) (i : Nat), l.all (fun g => f.code != g.code) = true → t.fget f i = s.fget f i

variable {l l' : List Fld} {s t u : State}

theorem Reads.refl (s : State) : Reads l s s := fun _ _ _ => rfl

theorem Reads.of_fields (h : t.fields = s.fields) : Reads l s t := fun _ _ _ => by simp [State.fget, h]

theorem Reads.trans (h : Reads l s t) (k : Reads l t u) : Reads l s u := fun f i hf => (k f i hf).trans (h f i hf)

theorem Reads.mono (h : Reads l s t) (hl : ∀ g ∈ l, g ∈ l') : Reads l' s t := fun f i hf => h f i (by
  rw [List.all_eq_true] at hf ⊢
  exact fun g hg => hf g (hl g hg))

theorem Reads.ite {c : Prop} [Decidable c] (h : Reads l s t) (k : Reads l s u) : Reads l s (if c then t else u) := by
  split
  · exact h
  · exact k

theorem Reads.fset (f : Fld) (i v : Nat) (h : Reads l s t) (hf : f ∈ l) : Reads l s (t.fset f i v) := fun g j hg => by
  rw [State.fget_fset_ne t v (Or.inl ?_)]
  · exact h g j hg
  · simpa using List.all_eq_true.mp hg f hf

theorem Reads.foldl {α : Type} (xs : List α) {f : State → α → State} (h : Reads l s t) (hf : ∀ u x, Reads l u (f u x)) :
    Reads l s (xs.foldl f t) := by
  induction xs generalizing t with
  | nil => exact h
  | cons x xs ih => exact ih (h.trans (hf t x))

theorem Reads.countAt (c : Ctr) (i j n : Nat) (h : Reads l s t) (hc : c.cnt ∈ l) : Reads l s (t.countAt c i j n) := by
  unfold State.countAt
  exact Reads.ite h (h.fset _ _ _ hc)

theorem Reads.count (c : Ctr) (i : Nat) (h : Reads l s t) (hc : c.cnt ∈ l) : Reads l s (t.count c i) := h.countAt c i i 1 hc

/-- The fields of the event log. -/
def logFlds : List Fld := [C.MGT_CNT_EVLOST.cnt, F.MGT_EVT_HEAD_NEXT]

theorem State.notifyHost_fields (s : State) (code : Nat) : (s.notifyHost code).fields = s.fields := by
  unfold State.notifyHost
  split <;> rfl

theorem State.log_reads (s : State) (e : Ev) : Reads logFlds s (s.log e) := by
  refine Reads.trans ?_ (Reads.of_fields (State.notifyHost_fields _ _))
  refine Reads.trans (Reads.fset F.MGT_EVT_HEAD_NEXT 0 _ (t := _) ?_ (by simp [logFlds])) (Reads.of_fields rfl)
  refine Reads.trans (Reads.ite (Reads.count _ _ (Reads.refl s) (by simp [logFlds])) (Reads.refl s)) (Reads.of_fields rfl)

/-- A record of the event log leaves every register field but those of the log. -/
theorem State.log_fget (s : State) (e : Ev) (f : Fld) (i : Nat) (h : logFlds.all (fun g => f.code != g.code) = true) :
    (s.log e).fget f i = s.fget f i := State.log_reads s e f i h

theorem State.logRate_reads (s : State) (limit i : Nat) (e : Ev) : Reads logFlds s (s.logRate limit i e) := by
  unfold State.logRate
  dsimp only
  split
  · refine Reads.ite (Reads.of_fields rfl) ((State.log_reads s _).trans (Reads.of_fields rfl))
  · exact (State.log_reads s _).trans (Reads.of_fields rfl)

theorem State.logRate_fget (s : State) (limit n : Nat) (e : Ev) (f : Fld) (i : Nat)
    (h : logFlds.all (fun g => f.code != g.code) = true) : (s.logRate limit n e).fget f i = s.fget f i :=
  State.logRate_reads s limit n e f i h

theorem State.count_fget (s : State) (c : Ctr) (n : Nat) (f : Fld) (i : Nat) (h : f.code ≠ c.cnt.code ∨ i ≠ n) :
    (s.count c n).fget f i = s.fget f i := by
  simp only [State.count, State.countAt]
  split
  · rfl
  · exact State.fget_fset_ne _ _ h

theorem State.flag_fget (s : State) (g : Fld) (n : Nat) (f : Fld) (i : Nat) (h : f.code ≠ g.code ∨ i ≠ n) :
    (s.flag g n).fget f i = s.fget f i := State.fget_fset_ne _ _ h

theorem State.toHost_fget (s : State) (m : List Nat) (f : Fld) (i : Nat) (h : f.code ≠ C.FLD_CNT_RXDISC.cnt.code) :
    (s.toHost m).fget f i = s.fget f i := by
  unfold State.toHost
  split
  · exact State.count_fget s _ _ _ _ (Or.inl h)
  · rfl

/-- What the field controller keeps up to date in its registers. -/
def refreshFlds : List Fld := [F.FLD_LANE_STATUS_ITEMS, F.FLD_LANE_STATUS_STATE, F.FLD_REJ_STATUS_ON,
  F.FLD_REJ_STATUS_QUEUE, F.FLD_REJ_STATUS_PEAK, F.FLD_STATUS_STATE, F.FLD_GPO_LEVEL_LEVEL]

theorem State.refreshLane_reads (s : State) (n : Nat) : Reads refreshFlds s (s.refreshLane n) := by
  unfold State.refreshLane
  have h : Reads refreshFlds s (s.fset F.FLD_LANE_STATUS_ITEMS n (Nat.min 65535 (s.live n))) :=
    Reads.fset _ _ _ (Reads.refl s) (by simp [refreshFlds])
  exact Reads.ite (h.fset _ _ _ (by simp [refreshFlds])) h

theorem State.drainOut_fields (s : State) (k : Nat) : (s.drainOut k).fields = s.fields := by
  unfold State.drainOut
  dsimp only
  split <;> rfl

theorem State.refreshOut_reads (s : State) (k : Nat) : Reads refreshFlds s (s.refreshOut k) := by
  unfold State.refreshOut
  refine Reads.fset _ _ _ (Reads.fset _ _ _ (Reads.fset _ _ _ (Reads.of_fields ?_) ?_) ?_) ?_
  · exact State.drainOut_fields s k
  all_goals simp [refreshFlds]

/-- Bringing the field controller's registers up to date leaves every other register field. -/
theorem State.fieldRefresh_reads (s : State) : Reads refreshFlds s s.fieldRefresh := by
  unfold State.fieldRefresh
  refine Reads.fset _ _ _ (Reads.fset _ _ _ (Reads.foldl _ (Reads.foldl _ (Reads.refl s) ?_) ?_) ?_) ?_
  · exact fun u x => State.refreshLane_reads u x
  · exact fun u x => State.refreshOut_reads u x
  all_goals simp [refreshFlds]

theorem State.fieldRefresh_fget (s : State) (f : Fld) (i : Nat) (h : refreshFlds.all (fun g => f.code != g.code) = true) :
    s.fieldRefresh.fget f i = s.fget f i := State.fieldRefresh_reads s f i h

end Sys2Proof.Machine
end

