-- ==== Sys2Proof/Laws/Frame.lean ====
section
/-! SUPPORT. Frames: which parts of the state an operation may change.  `Chg m s t` says that `t` differs from `s` only
in the parts whose bits are set in `m`, bit k standing for the k-th field of `State`, that its register fields differ
only in the blocks whose bits, from bit 40 on, are set, and that the memories keep their canonical form. -/

namespace Sys2Proof.Machine

/-- Whether a set of parts lies within another. -/
def Sub (a b : Nat) : Bool := (a ||| b) == b

theorem Sub.bit {a b k : Nat} (h : Sub a b = true) (hk : a.testBit k = true) : b.testBit k = true := by
  have : a ||| b = b := by simpa [Sub] using h
  rw [← this, Nat.testBit_or, hk, Bool.true_or]

theorem Sub.refl (a : Nat) : Sub a a = true := by simp [Sub]

theorem Sub.trans {a b c : Nat} (h : Sub a b = true) (h' : Sub b c = true) : Sub a c = true := by
  have h1 : a ||| b = b := by simpa [Sub] using h
  have h2 : b ||| c = c := by simpa [Sub] using h'
  have : a ||| c = c := by rw [← h2, ← Nat.or_assoc, h1]
  simp [Sub, this]

theorem Sub.of_bit {m k : Nat} (h : m.testBit k = true) : Sub (2 ^ k) m = true := by
  have : 2 ^ k ||| m = m := by
    apply Nat.eq_of_testBit_eq
    intro i
    rw [Nat.testBit_or, Nat.testBit_two_pow]
    by_cases hi : k = i
    · subst hi; simp [h]
    · simp [hi]
  simp [Sub, this]

/-- The number of the register block (Tables 19.1 and 19.2) in which a register lies. -/
def regBlk (r : Nat) : Nat :=
  bif Nat.blt r 0x600000 then
    bif Nat.blt r 0x101000 then
      bif Nat.blt r 0x20000 then (bif Nat.blt r 0x10000 then 0 else 1)
      else bif Nat.blt r 0x100000 then 2 else bif Nat.blt r 0x100800 then 3 else 4
    else bif Nat.blt r 0x300000 then
      bif Nat.blt r 0x102000 then 5 else bif Nat.blt r 0x104000 then 6 else 7
    else bif Nat.blt r 0x500000 then (bif Nat.blt r 0x400000 then 8 else 9)
    else bif Nat.blt r 0x501000 then 10 else 11
  else bif Nat.blt r 0xA00000 then
    bif Nat.blt r 0x700000 then
      bif Nat.blt r 0x601000 then 12 else bif Nat.blt r 0x602000 then 13 else 14
    else bif Nat.blt r 0x800000 then 15 else bif Nat.blt r 0x900000 then 16 else 17
  else bif Nat.blt r 0xD10000 then
    bif Nat.blt r 0xC00000 then (bif Nat.blt r 0xB00000 then 18 else 19)
    else bif Nat.blt r 0xD00000 then 20 else 21
  else bif Nat.blt r 0xD12000 then (bif Nat.blt r 0xD11000 then 22 else 23)
  else bif Nat.blt r 0xD20000 then 24 else 25

/-- The block of a stored field. -/
def keyBlk (k : Nat) : Nat := regBlk (keyReg k)

/-- The parts that setting a field changes. -/
def fm (f : Fld) : Nat := 8 ||| 2 ^ (40 + regBlk (f.code / 32))

/-- `t` differs from `s` in the parts of `m` only, and its memories are canonical if those of `s` are. -/
structure Chg (m : Nat) (s t : State) : Prop where
  pending : m.testBit 0 = true ∨ t.pending = s.pending
  ns : m.testBit 1 = true ∨ t.ns = s.ns
  free : m.testBit 2 = true ∨ t.free = s.free
  fields : m.testBit 3 = true ∨ t.fields = s.fields
  staged : m.testBit 4 = true ∨ t.staged = s.staged
  latch : m.testBit 5 = true ∨ t.latch = s.latch
  lowHeld : m.testBit 6 = true ∨ t.lowHeld = s.lowHeld
  readData : m.testBit 7 = true ∨ t.readData = s.readData
  events : m.testBit 8 = true ∨ t.events = s.events
  lastLog : m.testBit 9 = true ∨ t.lastLog = s.lastLog
  heldLog : m.testBit 10 = true ∨ t.heldLog = s.heldLog
  out : m.testBit 11 = true ∨ t.out = s.out
  engines : m.testBit 12 = true ∨ t.engines = s.engines
  tiles : m.testBit 13 = true ∨ t.tiles = s.tiles
  rst : m.testBit 14 = true ∨ t.rst = s.rst
  cores : m.testBit 15 = true ∨ t.cores = s.cores
  seqs : m.testBit 16 = true ∨ t.seqs = s.seqs
  sram : m.testBit 17 = true ∨ t.sram = s.sram
  models : m.testBit 18 = true ∨ t.models = s.models
  fab : m.testBit 19 = true ∨ t.fab = s.fab
  dram : m.testBit 20 = true ∨ t.dram = s.dram
  items : m.testBit 21 = true ∨ t.items = s.items
  mgmt : m.testBit 22 = true ∨ t.mgmt = s.mgmt
  rings : m.testBit 23 = true ∨ t.rings = s.rings
  reads : m.testBit 24 = true ∨ t.reads = s.reads
  nextTag : m.testBit 25 = true ∨ t.nextTag = s.nextTag
  msix : m.testBit 26 = true ∨ t.msix = s.msix
  msixPending : m.testBit 27 = true ∨ t.msixPending = s.msixPending
  busMaster : m.testBit 28 = true ∨ t.busMaster = s.busMaster
  ats : m.testBit 29 = true ∨ t.ats = s.ats
  lanes : m.testBit 30 = true ∨ t.lanes = s.lanes
  bar : m.testBit 31 = true ∨ t.bar = s.bar
  field : m.testBit 32 = true ∨ t.field = s.field
  hk : m.testBit 33 = true ∨ t.hk = s.hk
  cnp : m.testBit 34 = true ∨ t.cnp = s.cnp
  sync : m.testBit 35 = true ∨ t.sync = s.sync
  rel : m.testBit 36 = true ∨ t.rel = s.rel
  keep : m.testBit 37 = true ∨ t.keep = s.keep
  power : m.testBit 38 = true ∨ t.power = s.power
  bootNs : m.testBit 39 = true ∨ t.bootNs = s.bootNs
  regs : ∀ k, m.testBit (40 + keyBlk k) = true ∨ Tab.find t.fields k = Tab.find s.fields k
  dramWf : cellsWf s.dram = true → cellsWf t.dram = true
  sramWf : cellsWf s.sram = true → cellsWf t.sram = true

variable {m m' : Nat} {s t u : State}

theorem Chg.refl (m : Nat) (s : State) : Chg m s s :=
  ⟨Or.inr rfl, Or.inr rfl, Or.inr rfl, Or.inr rfl, Or.inr rfl, Or.inr rfl, Or.inr rfl, Or.inr rfl, Or.inr rfl, Or.inr rfl, Or.inr rfl, Or.inr rfl, Or.inr rfl, Or.inr rfl, Or.inr rfl, Or.inr rfl, Or.inr rfl, Or.inr rfl, Or.inr rfl, Or.inr rfl, Or.inr rfl, Or.inr rfl, Or.inr rfl, Or.inr rfl, Or.inr rfl, Or.inr rfl, Or.inr rfl, Or.inr rfl, Or.inr rfl, Or.inr rfl, Or.inr rfl, Or.inr rfl, Or.inr rfl, Or.inr rfl, Or.inr rfl, Or.inr rfl, Or.inr rfl, Or.inr rfl, Or.inr rfl, Or.inr rfl, fun _ => Or.inr rfl, id, id⟩

theorem part_step {α : Type} {m m' k : Nat} {a b c : α} (hs : Sub m' m = true)
    (h : m'.testBit k = true ∨ c = b) (h' : m.testBit k = true ∨ b = a) : m.testBit k = true ∨ c = a := by
  rcases h with h | h
  · exact Or.inl (Sub.bit hs h)
  · rcases h' with h' | h'
    · exact Or.inl h'
    · exact Or.inr (h.trans h')

/-- One step after another. -/
theorem Chg.step (g : Chg m' t u) (hs : Sub m' m = true) (k : Chg m s t) : Chg m s u :=
  ⟨part_step hs g.pending k.pending,
    part_step hs g.ns k.ns,
    part_step hs g.free k.free,
    part_step hs g.fields k.fields,
    part_step hs g.staged k.staged,
    part_step hs g.latch k.latch,
    part_step hs g.lowHeld k.lowHeld,
    part_step hs g.readData k.readData,
    part_step hs g.events k.events,
    part_step hs g.lastLog k.lastLog,
    part_step hs g.heldLog k.heldLog,
    part_step hs g.out k.out,
    part_step hs g.engines k.engines,
    part_step hs g.tiles k.tiles,
    part_step hs g.rst k.rst,
    part_step hs g.cores k.cores,
    part_step hs g.seqs k.seqs,
    part_step hs g.sram k.sram,
    part_step hs g.models k.models,
    part_step hs g.fab k.fab,
    part_step hs g.dram k.dram,
    part_step hs g.items k.items,
    part_step hs g.mgmt k.mgmt,
    part_step hs g.rings k.rings,
    part_step hs g.reads k.reads,
    part_step hs g.nextTag k.nextTag,
    part_step hs g.msix k.msix,
    part_step hs g.msixPending k.msixPending,
    part_step hs g.busMaster k.busMaster,
    part_step hs g.ats k.ats,
    part_step hs g.lanes k.lanes,
    part_step hs g.bar k.bar,
    part_step hs g.field k.field,
    part_step hs g.hk k.hk,
    part_step hs g.cnp k.cnp,
    part_step hs g.sync k.sync,
    part_step hs g.rel k.rel,
    part_step hs g.keep k.keep,
    part_step hs g.power k.power,
    part_step hs g.bootNs k.bootNs,
    fun n => part_step hs (g.regs n) (k.regs n), fun h => g.dramWf (k.dramWf h), fun h => g.sramWf (k.sramWf h)⟩

theorem Chg.upd_pending {x0} (h0 : m.testBit 0 = true) (k : Chg m s t) :
    Chg m s (State.mk x0 t.ns t.free t.fields t.staged t.latch t.lowHeld t.readData t.events t.lastLog t.heldLog t.out t.engines t.tiles t.rst t.cores t.seqs t.sram t.models t.fab t.dram t.items t.mgmt t.rings t.reads t.nextTag t.msix t.msixPending t.busMaster t.ats t.lanes t.bar t.field t.hk t.cnp t.sync t.rel t.keep t.power t.bootNs) :=
  ⟨Or.inl h0, k.ns, k.free, k.fields, k.staged, k.latch, k.lowHeld, k.readData, k.events, k.lastLog, k.heldLog, k.out, k.engines, k.tiles, k.rst, k.cores, k.seqs, k.sram, k.models, k.fab, k.dram, k.items, k.mgmt, k.rings, k.reads, k.nextTag, k.msix, k.msixPending, k.busMaster, k.ats, k.lanes, k.bar, k.field, k.hk, k.cnp, k.sync, k.rel, k.keep, k.power, k.bootNs, k.regs, k.dramWf, k.sramWf⟩

theorem Chg.upd_ns {x1} (h1 : m.testBit 1 = true) (k : Chg m s t) :
    Chg m s (State.mk t.pending x1 t.free t.fields t.staged t.latch t.lowHeld t.readData t.events t.lastLog t.heldLog t.out t.engines t.tiles t.rst t.cores t.seqs t.sram t.models t.fab t.dram t.items t.mgmt t.rings t.reads t.nextTag t.msix t.msixPending t.busMaster t.ats t.lanes t.bar t.field t.hk t.cnp t.sync t.rel t.keep t.power t.bootNs) :=
  ⟨k.pending, Or.inl h1, k.free, k.fields, k.staged, k.latch, k.lowHeld, k.readData, k.events, k.lastLog, k.heldLog, k.out, k.engines, k.tiles, k.rst, k.cores, k.seqs, k.sram, k.models, k.fab, k.dram, k.items, k.mgmt, k.rings, k.reads, k.nextTag, k.msix, k.msixPending, k.busMaster, k.ats, k.lanes, k.bar, k.field, k.hk, k.cnp, k.sync, k.rel, k.keep, k.power, k.bootNs, k.regs, k.dramWf, k.sramWf⟩

theorem Chg.upd_free {x2} (h2 : m.testBit 2 = true) (k : Chg m s t) :
    Chg m s (State.mk t.pending t.ns x2 t.fields t.staged t.latch t.lowHeld t.readData t.events t.lastLog t.heldLog t.out t.engines t.tiles t.rst t.cores t.seqs t.sram t.models t.fab t.dram t.items t.mgmt t.rings t.reads t.nextTag t.msix t.msixPending t.busMaster t.ats t.lanes t.bar t.field t.hk t.cnp t.sync t.rel t.keep t.power t.bootNs) :=
  ⟨k.pending, k.ns, Or.inl h2, k.fields, k.staged, k.latch, k.lowHeld, k.readData, k.events, k.lastLog, k.heldLog, k.out, k.engines, k.tiles, k.rst, k.cores, k.seqs, k.sram, k.models, k.fab, k.dram, k.items, k.mgmt, k.rings, k.reads, k.nextTag, k.msix, k.msixPending, k.busMaster, k.ats, k.lanes, k.bar, k.field, k.hk, k.cnp, k.sync, k.rel, k.keep, k.power, k.bootNs, k.regs, k.dramWf, k.sramWf⟩

theorem Chg.upd_fields {x3} (h3 : m.testBit 3 = true) (w3 : ∀ n, m.testBit (40 + keyBlk n) = true ∨ Tab.find x3 n = Tab.find t.fields n) (k : Chg m s t) :
    Chg m s (State.mk t.pending t.ns t.free x3 t.staged t.latch t.lowHeld t.readData t.events t.lastLog t.heldLog t.out t.engines t.tiles t.rst t.cores t.seqs t.sram t.models t.fab t.dram t.items t.mgmt t.rings t.reads t.nextTag t.msix t.msixPending t.busMaster t.ats t.lanes t.bar t.field t.hk t.cnp t.sync t.rel t.keep t.power t.bootNs) :=
  ⟨k.pending, k.ns, k.free, Or.inl h3, k.staged, k.latch, k.lowHeld, k.readData, k.events, k.lastLog, k.heldLog, k.out, k.engines, k.tiles, k.rst, k.cores, k.seqs, k.sram, k.models, k.fab, k.dram, k.items, k.mgmt, k.rings, k.reads, k.nextTag, k.msix, k.msixPending, k.busMaster, k.ats, k.lanes, k.bar, k.field, k.hk, k.cnp, k.sync, k.rel, k.keep, k.power, k.bootNs, fun n => part_step (Sub.refl m) (w3 n) (k.regs n), k.dramWf, k.sramWf⟩

theorem Chg.upd_staged {x4} (h4 : m.testBit 4 = true) (k : Chg m s t) :
    Chg m s (State.mk t.pending t.ns t.free t.fields x4 t.latch t.lowHeld t.readData t.events t.lastLog t.heldLog t.out t.engines t.tiles t.rst t.cores t.seqs t.sram t.models t.fab t.dram t.items t.mgmt t.rings t.reads t.nextTag t.msix t.msixPending t.busMaster t.ats t.lanes t.bar t.field t.hk t.cnp t.sync t.rel t.keep t.power t.bootNs) :=
  ⟨k.pending, k.ns, k.free, k.fields, Or.inl h4, k.latch, k.lowHeld, k.readData, k.events, k.lastLog, k.heldLog, k.out, k.engines, k.tiles, k.rst, k.cores, k.seqs, k.sram, k.models, k.fab, k.dram, k.items, k.mgmt, k.rings, k.reads, k.nextTag, k.msix, k.msixPending, k.busMaster, k.ats, k.lanes, k.bar, k.field, k.hk, k.cnp, k.sync, k.rel, k.keep, k.power, k.bootNs, k.regs, k.dramWf, k.sramWf⟩

theorem Chg.upd_latch {x5} (h5 : m.testBit 5 = true) (k : Chg m s t) :
    Chg m s (State.mk t.pending t.ns t.free t.fields t.staged x5 t.lowHeld t.readData t.events t.lastLog t.heldLog t.out t.engines t.tiles t.rst t.cores t.seqs t.sram t.models t.fab t.dram t.items t.mgmt t.rings t.reads t.nextTag t.msix t.msixPending t.busMaster t.ats t.lanes t.bar t.field t.hk t.cnp t.sync t.rel t.keep t.power t.bootNs) :=
  ⟨k.pending, k.ns, k.free, k.fields, k.staged, Or.inl h5, k.lowHeld, k.readData, k.events, k.lastLog, k.heldLog, k.out, k.engines, k.tiles, k.rst, k.cores, k.seqs, k.sram, k.models, k.fab, k.dram, k.items, k.mgmt, k.rings, k.reads, k.nextTag, k.msix, k.msixPending, k.busMaster, k.ats, k.lanes, k.bar, k.field, k.hk, k.cnp, k.sync, k.rel, k.keep, k.power, k.bootNs, k.regs, k.dramWf, k.sramWf⟩

theorem Chg.upd_lowHeld {x6} (h6 : m.testBit 6 = true) (k : Chg m s t) :
    Chg m s (State.mk t.pending t.ns t.free t.fields t.staged t.latch x6 t.readData t.events t.lastLog t.heldLog t.out t.engines t.tiles t.rst t.cores t.seqs t.sram t.models t.fab t.dram t.items t.mgmt t.rings t.reads t.nextTag t.msix t.msixPending t.busMaster t.ats t.lanes t.bar t.field t.hk t.cnp t.sync t.rel t.keep t.power t.bootNs) :=
  ⟨k.pending, k.ns, k.free, k.fields, k.staged, k.latch, Or.inl h6, k.readData, k.events, k.lastLog, k.heldLog, k.out, k.engines, k.tiles, k.rst, k.cores, k.seqs, k.sram, k.models, k.fab, k.dram, k.items, k.mgmt, k.rings, k.reads, k.nextTag, k.msix, k.msixPending, k.busMaster, k.ats, k.lanes, k.bar, k.field, k.hk, k.cnp, k.sync, k.rel, k.keep, k.power, k.bootNs, k.regs, k.dramWf, k.sramWf⟩

theorem Chg.upd_readData {x7} (h7 : m.testBit 7 = true) (k : Chg m s t) :
    Chg m s (State.mk t.pending t.ns t.free t.fields t.staged t.latch t.lowHeld x7 t.events t.lastLog t.heldLog t.out t.engines t.tiles t.rst t.cores t.seqs t.sram t.models t.fab t.dram t.items t.mgmt t.rings t.reads t.nextTag t.msix t.msixPending t.busMaster t.ats t.lanes t.bar t.field t.hk t.cnp t.sync t.rel t.keep t.power t.bootNs) :=
  ⟨k.pending, k.ns, k.free, k.fields, k.staged, k.latch, k.lowHeld, Or.inl h7, k.events, k.lastLog, k.heldLog, k.out, k.engines, k.tiles, k.rst, k.cores, k.seqs, k.sram, k.models, k.fab, k.dram, k.items, k.mgmt, k.rings, k.reads, k.nextTag, k.msix, k.msixPending, k.busMaster, k.ats, k.lanes, k.bar, k.field, k.hk, k.cnp, k.sync, k.rel, k.keep, k.power, k.bootNs, k.regs, k.dramWf, k.sramWf⟩

theorem Chg.upd_events {x8} (h8 : m.testBit 8 = true) (k : Chg m s t) :
    Chg m s (State.mk t.pending t.ns t.free t.fields t.staged t.latch t.lowHeld t.readData x8 t.lastLog t.heldLog t.out t.engines t.tiles t.rst t.cores t.seqs t.sram t.models t.fab t.dram t.items t.mgmt t.rings t.reads t.nextTag t.msix t.msixPending t.busMaster t.ats t.lanes t.bar t.field t.hk t.cnp t.sync t.rel t.keep t.power t.bootNs) :=
  ⟨k.pending, k.ns, k.free, k.fields, k.staged, k.latch, k.lowHeld, k.readData, Or.inl h8, k.lastLog, k.heldLog, k.out, k.engines, k.tiles, k.rst, k.cores, k.seqs, k.sram, k.models, k.fab, k.dram, k.items, k.mgmt, k.rings, k.reads, k.nextTag, k.msix, k.msixPending, k.busMaster, k.ats, k.lanes, k.bar, k.field, k.hk, k.cnp, k.sync, k.rel, k.keep, k.power, k.bootNs, k.regs, k.dramWf, k.sramWf⟩

theorem Chg.upd_lastLog {x9} (h9 : m.testBit 9 = true) (k : Chg m s t) :
    Chg m s (State.mk t.pending t.ns t.free t.fields t.staged t.latch t.lowHeld t.readData t.events x9 t.heldLog t.out t.engines t.tiles t.rst t.cores t.seqs t.sram t.models t.fab t.dram t.items t.mgmt t.rings t.reads t.nextTag t.msix t.msixPending t.busMaster t.ats t.lanes t.bar t.field t.hk t.cnp t.sync t.rel t.keep t.power t.bootNs) :=
  ⟨k.pending, k.ns, k.free, k.fields, k.staged, k.latch, k.lowHeld, k.readData, k.events, Or.inl h9, k.heldLog, k.out, k.engines, k.tiles, k.rst, k.cores, k.seqs, k.sram, k.models, k.fab, k.dram, k.items, k.mgmt, k.rings, k.reads, k.nextTag, k.msix, k.msixPending, k.busMaster, k.ats, k.lanes, k.bar, k.field, k.hk, k.cnp, k.sync, k.rel, k.keep, k.power, k.bootNs, k.regs, k.dramWf, k.sramWf⟩

theorem Chg.upd_heldLog {x10} (h10 : m.testBit 10 = true) (k : Chg m s t) :
    Chg m s (State.mk t.pending t.ns t.free t.fields t.staged t.latch t.lowHeld t.readData t.events t.lastLog x10 t.out t.engines t.tiles t.rst t.cores t.seqs t.sram t.models t.fab t.dram t.items t.mgmt t.rings t.reads t.nextTag t.msix t.msixPending t.busMaster t.ats t.lanes t.bar t.field t.hk t.cnp t.sync t.rel t.keep t.power t.bootNs) :=
  ⟨k.pending, k.ns, k.free, k.fields, k.staged, k.latch, k.lowHeld, k.readData, k.events, k.lastLog, Or.inl h10, k.out, k.engines, k.tiles, k.rst, k.cores, k.seqs, k.sram, k.models, k.fab, k.dram, k.items, k.mgmt, k.rings, k.reads, k.nextTag, k.msix, k.msixPending, k.busMaster, k.ats, k.lanes, k.bar, k.field, k.hk, k.cnp, k.sync, k.rel, k.keep, k.power, k.bootNs, k.regs, k.dramWf, k.sramWf⟩

theorem Chg.upd_out {x11} (h11 : m.testBit 11 = true) (k : Chg m s t) :
    Chg m s (State.mk t.pending t.ns t.free t.fields t.staged t.latch t.lowHeld t.readData t.events t.lastLog t.heldLog x11 t.engines t.tiles t.rst t.cores t.seqs t.sram t.models t.fab t.dram t.items t.mgmt t.rings t.reads t.nextTag t.msix t.msixPending t.busMaster t.ats t.lanes t.bar t.field t.hk t.cnp t.sync t.rel t.keep t.power t.bootNs) :=
  ⟨k.pending, k.ns, k.free, k.fields, k.staged, k.latch, k.lowHeld, k.readData, k.events, k.lastLog, k.heldLog, Or.inl h11, k.engines, k.tiles, k.rst, k.cores, k.seqs, k.sram, k.models, k.fab, k.dram, k.items, k.mgmt, k.rings, k.reads, k.nextTag, k.msix, k.msixPending, k.busMaster, k.ats, k.lanes, k.bar, k.field, k.hk, k.cnp, k.sync, k.rel, k.keep, k.power, k.bootNs, k.regs, k.dramWf, k.sramWf⟩

theorem Chg.upd_engines {x12} (h12 : m.testBit 12 = true) (k : Chg m s t) :
    Chg m s (State.mk t.pending t.ns t.free t.fields t.staged t.latch t.lowHeld t.readData t.events t.lastLog t.heldLog t.out x12 t.tiles t.rst t.cores t.seqs t.sram t.models t.fab t.dram t.items t.mgmt t.rings t.reads t.nextTag t.msix t.msixPending t.busMaster t.ats t.lanes t.bar t.field t.hk t.cnp t.sync t.rel t.keep t.power t.bootNs) :=
  ⟨k.pending, k.ns, k.free, k.fields, k.staged, k.latch, k.lowHeld, k.readData, k.events, k.lastLog, k.heldLog, k.out, Or.inl h12, k.tiles, k.rst, k.cores, k.seqs, k.sram, k.models, k.fab, k.dram, k.items, k.mgmt, k.rings, k.reads, k.nextTag, k.msix, k.msixPending, k.busMaster, k.ats, k.lanes, k.bar, k.field, k.hk, k.cnp, k.sync, k.rel, k.keep, k.power, k.bootNs, k.regs, k.dramWf, k.sramWf⟩

theorem Chg.upd_tiles {x13} (h13 : m.testBit 13 = true) (k : Chg m s t) :
    Chg m s (State.mk t.pending t.ns t.free t.fields t.staged t.latch t.lowHeld t.readData t.events t.lastLog t.heldLog t.out t.engines x13 t.rst t.cores t.seqs t.sram t.models t.fab t.dram t.items t.mgmt t.rings t.reads t.nextTag t.msix t.msixPending t.busMaster t.ats t.lanes t.bar t.field t.hk t.cnp t.sync t.rel t.keep t.power t.bootNs) :=
  ⟨k.pending, k.ns, k.free, k.fields, k.staged, k.latch, k.lowHeld, k.readData, k.events, k.lastLog, k.heldLog, k.out, k.engines, Or.inl h13, k.rst, k.cores, k.seqs, k.sram, k.models, k.fab, k.dram, k.items, k.mgmt, k.rings, k.reads, k.nextTag, k.msix, k.msixPending, k.busMaster, k.ats, k.lanes, k.bar, k.field, k.hk, k.cnp, k.sync, k.rel, k.keep, k.power, k.bootNs, k.regs, k.dramWf, k.sramWf⟩

theorem Chg.upd_rst {x14} (h14 : m.testBit 14 = true) (k : Chg m s t) :
    Chg m s (State.mk t.pending t.ns t.free t.fields t.staged t.latch t.lowHeld t.readData t.events t.lastLog t.heldLog t.out t.engines t.tiles x14 t.cores t.seqs t.sram t.models t.fab t.dram t.items t.mgmt t.rings t.reads t.nextTag t.msix t.msixPending t.busMaster t.ats t.lanes t.bar t.field t.hk t.cnp t.sync t.rel t.keep t.power t.bootNs) :=
  ⟨k.pending, k.ns, k.free, k.fields, k.staged, k.latch, k.lowHeld, k.readData, k.events, k.lastLog, k.heldLog, k.out, k.engines, k.tiles, Or.inl h14, k.cores, k.seqs, k.sram, k.models, k.fab, k.dram, k.items, k.mgmt, k.rings, k.reads, k.nextTag, k.msix, k.msixPending, k.busMaster, k.ats, k.lanes, k.bar, k.field, k.hk, k.cnp, k.sync, k.rel, k.keep, k.power, k.bootNs, k.regs, k.dramWf, k.sramWf⟩

theorem Chg.upd_cores {x15} (h15 : m.testBit 15 = true) (k : Chg m s t) :
    Chg m s (State.mk t.pending t.ns t.free t.fields t.staged t.latch t.lowHeld t.readData t.events t.lastLog t.heldLog t.out t.engines t.tiles t.rst x15 t.seqs t.sram t.models t.fab t.dram t.items t.mgmt t.rings t.reads t.nextTag t.msix t.msixPending t.busMaster t.ats t.lanes t.bar t.field t.hk t.cnp t.sync t.rel t.keep t.power t.bootNs) :=
  ⟨k.pending, k.ns, k.free, k.fields, k.staged, k.latch, k.lowHeld, k.readData, k.events, k.lastLog, k.heldLog, k.out, k.engines, k.tiles, k.rst, Or.inl h15, k.seqs, k.sram, k.models, k.fab, k.dram, k.items, k.mgmt, k.rings, k.reads, k.nextTag, k.msix, k.msixPending, k.busMaster, k.ats, k.lanes, k.bar, k.field, k.hk, k.cnp, k.sync, k.rel, k.keep, k.power, k.bootNs, k.regs, k.dramWf, k.sramWf⟩

theorem Chg.upd_seqs {x16} (h16 : m.testBit 16 = true) (k : Chg m s t) :
    Chg m s (State.mk t.pending t.ns t.free t.fields t.staged t.latch t.lowHeld t.readData t.events t.lastLog t.heldLog t.out t.engines t.tiles t.rst t.cores x16 t.sram t.models t.fab t.dram t.items t.mgmt t.rings t.reads t.nextTag t.msix t.msixPending t.busMaster t.ats t.lanes t.bar t.field t.hk t.cnp t.sync t.rel t.keep t.power t.bootNs) :=
  ⟨k.pending, k.ns, k.free, k.fields, k.staged, k.latch, k.lowHeld, k.readData, k.events, k.lastLog, k.heldLog, k.out, k.engines, k.tiles, k.rst, k.cores, Or.inl h16, k.sram, k.models, k.fab, k.dram, k.items, k.mgmt, k.rings, k.reads, k.nextTag, k.msix, k.msixPending, k.busMaster, k.ats, k.lanes, k.bar, k.field, k.hk, k.cnp, k.sync, k.rel, k.keep, k.power, k.bootNs, k.regs, k.dramWf, k.sramWf⟩

theorem Chg.upd_sram {x17} (h17 : m.testBit 17 = true) (w17 : cellsWf t.sram = true → cellsWf x17 = true) (k : Chg m s t) :
    Chg m s (State.mk t.pending t.ns t.free t.fields t.staged t.latch t.lowHeld t.readData t.events t.lastLog t.heldLog t.out t.engines t.tiles t.rst t.cores t.seqs x17 t.models t.fab t.dram t.items t.mgmt t.rings t.reads t.nextTag t.msix t.msixPending t.busMaster t.ats t.lanes t.bar t.field t.hk t.cnp t.sync t.rel t.keep t.power t.bootNs) :=
  ⟨k.pending, k.ns, k.free, k.fields, k.staged, k.latch, k.lowHeld, k.readData, k.events, k.lastLog, k.heldLog, k.out, k.engines, k.tiles, k.rst, k.cores, k.seqs, Or.inl h17, k.models, k.fab, k.dram, k.items, k.mgmt, k.rings, k.reads, k.nextTag, k.msix, k.msixPending, k.busMaster, k.ats, k.lanes, k.bar, k.field, k.hk, k.cnp, k.sync, k.rel, k.keep, k.power, k.bootNs, k.regs, k.dramWf, fun h => w17 (k.sramWf h)⟩

theorem Chg.upd_models {x18} (h18 : m.testBit 18 = true) (k : Chg m s t) :
    Chg m s (State.mk t.pending t.ns t.free t.fields t.staged t.latch t.lowHeld t.readData t.events t.lastLog t.heldLog t.out t.engines t.tiles t.rst t.cores t.seqs t.sram x18 t.fab t.dram t.items t.mgmt t.rings t.reads t.nextTag t.msix t.msixPending t.busMaster t.ats t.lanes t.bar t.field t.hk t.cnp t.sync t.rel t.keep t.power t.bootNs) :=
  ⟨k.pending, k.ns, k.free, k.fields, k.staged, k.latch, k.lowHeld, k.readData, k.events, k.lastLog, k.heldLog, k.out, k.engines, k.tiles, k.rst, k.cores, k.seqs, k.sram, Or.inl h18, k.fab, k.dram, k.items, k.mgmt, k.rings, k.reads, k.nextTag, k.msix, k.msixPending, k.busMaster, k.ats, k.lanes, k.bar, k.field, k.hk, k.cnp, k.sync, k.rel, k.keep, k.power, k.bootNs, k.regs, k.dramWf, k.sramWf⟩

theorem Chg.upd_fab {x19} (h19 : m.testBit 19 = true) (k : Chg m s t) :
    Chg m s (State.mk t.pending t.ns t.free t.fields t.staged t.latch t.lowHeld t.readData t.events t.lastLog t.heldLog t.out t.engines t.tiles t.rst t.cores t.seqs t.sram t.models x19 t.dram t.items t.mgmt t.rings t.reads t.nextTag t.msix t.msixPending t.busMaster t.ats t.lanes t.bar t.field t.hk t.cnp t.sync t.rel t.keep t.power t.bootNs) :=
  ⟨k.pending, k.ns, k.free, k.fields, k.staged, k.latch, k.lowHeld, k.readData, k.events, k.lastLog, k.heldLog, k.out, k.engines, k.tiles, k.rst, k.cores, k.seqs, k.sram, k.models, Or.inl h19, k.dram, k.items, k.mgmt, k.rings, k.reads, k.nextTag, k.msix, k.msixPending, k.busMaster, k.ats, k.lanes, k.bar, k.field, k.hk, k.cnp, k.sync, k.rel, k.keep, k.power, k.bootNs, k.regs, k.dramWf, k.sramWf⟩

theorem Chg.upd_dram {x20} (h20 : m.testBit 20 = true) (w20 : cellsWf t.dram = true → cellsWf x20 = true) (k : Chg m s t) :
    Chg m s (State.mk t.pending t.ns t.free t.fields t.staged t.latch t.lowHeld t.readData t.events t.lastLog t.heldLog t.out t.engines t.tiles t.rst t.cores t.seqs t.sram t.models t.fab x20 t.items t.mgmt t.rings t.reads t.nextTag t.msix t.msixPending t.busMaster t.ats t.lanes t.bar t.field t.hk t.cnp t.sync t.rel t.keep t.power t.bootNs) :=
  ⟨k.pending, k.ns, k.free, k.fields, k.staged, k.latch, k.lowHeld, k.readData, k.events, k.lastLog, k.heldLog, k.out, k.engines, k.tiles, k.rst, k.cores, k.seqs, k.sram, k.models, k.fab, Or.inl h20, k.items, k.mgmt, k.rings, k.reads, k.nextTag, k.msix, k.msixPending, k.busMaster, k.ats, k.lanes, k.bar, k.field, k.hk, k.cnp, k.sync, k.rel, k.keep, k.power, k.bootNs, k.regs, fun h => w20 (k.dramWf h), k.sramWf⟩

theorem Chg.upd_items {x21} (h21 : m.testBit 21 = true) (k : Chg m s t) :
    Chg m s (State.mk t.pending t.ns t.free t.fields t.staged t.latch t.lowHeld t.readData t.events t.lastLog t.heldLog t.out t.engines t.tiles t.rst t.cores t.seqs t.sram t.models t.fab t.dram x21 t.mgmt t.rings t.reads t.nextTag t.msix t.msixPending t.busMaster t.ats t.lanes t.bar t.field t.hk t.cnp t.sync t.rel t.keep t.power t.bootNs) :=
  ⟨k.pending, k.ns, k.free, k.fields, k.staged, k.latch, k.lowHeld, k.readData, k.events, k.lastLog, k.heldLog, k.out, k.engines, k.tiles, k.rst, k.cores, k.seqs, k.sram, k.models, k.fab, k.dram, Or.inl h21, k.mgmt, k.rings, k.reads, k.nextTag, k.msix, k.msixPending, k.busMaster, k.ats, k.lanes, k.bar, k.field, k.hk, k.cnp, k.sync, k.rel, k.keep, k.power, k.bootNs, k.regs, k.dramWf, k.sramWf⟩

theorem Chg.upd_mgmt {x22} (h22 : m.testBit 22 = true) (k : Chg m s t) :
    Chg m s (State.mk t.pending t.ns t.free t.fields t.staged t.latch t.lowHeld t.readData t.events t.lastLog t.heldLog t.out t.engines t.tiles t.rst t.cores t.seqs t.sram t.models t.fab t.dram t.items x22 t.rings t.reads t.nextTag t.msix t.msixPending t.busMaster t.ats t.lanes t.bar t.field t.hk t.cnp t.sync t.rel t.keep t.power t.bootNs) :=
  ⟨k.pending, k.ns, k.free, k.fields, k.staged, k.latch, k.lowHeld, k.readData, k.events, k.lastLog, k.heldLog, k.out, k.engines, k.tiles, k.rst, k.cores, k.seqs, k.sram, k.models, k.fab, k.dram, k.items, Or.inl h22, k.rings, k.reads, k.nextTag, k.msix, k.msixPending, k.busMaster, k.ats, k.lanes, k.bar, k.field, k.hk, k.cnp, k.sync, k.rel, k.keep, k.power, k.bootNs, k.regs, k.dramWf, k.sramWf⟩

theorem Chg.upd_rings {x23} (h23 : m.testBit 23 = true) (k : Chg m s t) :
    Chg m s (State.mk t.pending t.ns t.free t.fields t.staged t.latch t.lowHeld t.readData t.events t.lastLog t.heldLog t.out t.engines t.tiles t.rst t.cores t.seqs t.sram t.models t.fab t.dram t.items t.mgmt x23 t.reads t.nextTag t.msix t.msixPending t.busMaster t.ats t.lanes t.bar t.field t.hk t.cnp t.sync t.rel t.keep t.power t.bootNs) :=
  ⟨k.pending, k.ns, k.free, k.fields, k.staged, k.latch, k.lowHeld, k.readData, k.events, k.lastLog, k.heldLog, k.out, k.engines, k.tiles, k.rst, k.cores, k.seqs, k.sram, k.models, k.fab, k.dram, k.items, k.mgmt, Or.inl h23, k.reads, k.nextTag, k.msix, k.msixPending, k.busMaster, k.ats, k.lanes, k.bar, k.field, k.hk, k.cnp, k.sync, k.rel, k.keep, k.power, k.bootNs, k.regs, k.dramWf, k.sramWf⟩

theorem Chg.upd_reads {x24} (h24 : m.testBit 24 = true) (k : Chg m s t) :
    Chg m s (State.mk t.pending t.ns t.free t.fields t.staged t.latch t.lowHeld t.readData t.events t.lastLog t.heldLog t.out t.engines t.tiles t.rst t.cores t.seqs t.sram t.models t.fab t.dram t.items t.mgmt t.rings x24 t.nextTag t.msix t.msixPending t.busMaster t.ats t.lanes t.bar t.field t.hk t.cnp t.sync t.rel t.keep t.power t.bootNs) :=
  ⟨k.pending, k.ns, k.free, k.fields, k.staged, k.latch, k.lowHeld, k.readData, k.events, k.lastLog, k.heldLog, k.out, k.engines, k.tiles, k.rst, k.cores, k.seqs, k.sram, k.models, k.fab, k.dram, k.items, k.mgmt, k.rings, Or.inl h24, k.nextTag, k.msix, k.msixPending, k.busMaster, k.ats, k.lanes, k.bar, k.field, k.hk, k.cnp, k.sync, k.rel, k.keep, k.power, k.bootNs, k.regs, k.dramWf, k.sramWf⟩

theorem Chg.upd_msix {x26} (h26 : m.testBit 26 = true) (k : Chg m s t) :
    Chg m s (State.mk t.pending t.ns t.free t.fields t.staged t.latch t.lowHeld t.readData t.events t.lastLog t.heldLog t.out t.engines t.tiles t.rst t.cores t.seqs t.sram t.models t.fab t.dram t.items t.mgmt t.rings t.reads t.nextTag x26 t.msixPending t.busMaster t.ats t.lanes t.bar t.field t.hk t.cnp t.sync t.rel t.keep t.power t.bootNs) :=
  ⟨k.pending, k.ns, k.free, k.fields, k.staged, k.latch, k.lowHeld, k.readData, k.events, k.lastLog, k.heldLog, k.out, k.engines, k.tiles, k.rst, k.cores, k.seqs, k.sram, k.models, k.fab, k.dram, k.items, k.mgmt, k.rings, k.reads, k.nextTag, Or.inl h26, k.msixPending, k.busMaster, k.ats, k.lanes, k.bar, k.field, k.hk, k.cnp, k.sync, k.rel, k.keep, k.power, k.bootNs, k.regs, k.dramWf, k.sramWf⟩

theorem Chg.upd_msixPending {x27} (h27 : m.testBit 27 = true) (k : Chg m s t) :
    Chg m s (State.mk t.pending t.ns t.free t.fields t.staged t.latch t.lowHeld t.readData t.events t.lastLog t.heldLog t.out t.engines t.tiles t.rst t.cores t.seqs t.sram t.models t.fab t.dram t.items t.mgmt t.rings t.reads t.nextTag t.msix x27 t.busMaster t.ats t.lanes t.bar t.field t.hk t.cnp t.sync t.rel t.keep t.power t.bootNs) :=
  ⟨k.pending, k.ns, k.free, k.fields, k.staged, k.latch, k.lowHeld, k.readData, k.events, k.lastLog, k.heldLog, k.out, k.engines, k.tiles, k.rst, k.cores, k.seqs, k.sram, k.models, k.fab, k.dram, k.items, k.mgmt, k.rings, k.reads, k.nextTag, k.msix, Or.inl h27, k.busMaster, k.ats, k.lanes, k.bar, k.field, k.hk, k.cnp, k.sync, k.rel, k.keep, k.power, k.bootNs, k.regs, k.dramWf, k.sramWf⟩

theorem Chg.upd_busMaster {x28} (h28 : m.testBit 28 = true) (k : Chg m s t) :
    Chg m s (State.mk t.pending t.ns t.free t.fields t.staged t.latch t.lowHeld t.readData t.events t.lastLog t.heldLog t.out t.engines t.tiles t.rst t.cores t.seqs t.sram t.models t.fab t.dram t.items t.mgmt t.rings t.reads t.nextTag t.msix t.msixPending x28 t.ats t.lanes t.bar t.field t.hk t.cnp t.sync t.rel t.keep t.power t.bootNs) :=
  ⟨k.pending, k.ns, k.free, k.fields, k.staged, k.latch, k.lowHeld, k.readData, k.events, k.lastLog, k.heldLog, k.out, k.engines, k.tiles, k.rst, k.cores, k.seqs, k.sram, k.models, k.fab, k.dram, k.items, k.mgmt, k.rings, k.reads, k.nextTag, k.msix, k.msixPending, Or.inl h28, k.ats, k.lanes, k.bar, k.field, k.hk, k.cnp, k.sync, k.rel, k.keep, k.power, k.bootNs, k.regs, k.dramWf, k.sramWf⟩

theorem Chg.upd_ats {x29} (h29 : m.testBit 29 = true) (k : Chg m s t) :
    Chg m s (State.mk t.pending t.ns t.free t.fields t.staged t.latch t.lowHeld t.readData t.events t.lastLog t.heldLog t.out t.engines t.tiles t.rst t.cores t.seqs t.sram t.models t.fab t.dram t.items t.mgmt t.rings t.reads t.nextTag t.msix t.msixPending t.busMaster x29 t.lanes t.bar t.field t.hk t.cnp t.sync t.rel t.keep t.power t.bootNs) :=
  ⟨k.pending, k.ns, k.free, k.fields, k.staged, k.latch, k.lowHeld, k.readData, k.events, k.lastLog, k.heldLog, k.out, k.engines, k.tiles, k.rst, k.cores, k.seqs, k.sram, k.models, k.fab, k.dram, k.items, k.mgmt, k.rings, k.reads, k.nextTag, k.msix, k.msixPending, k.busMaster, Or.inl h29, k.lanes, k.bar, k.field, k.hk, k.cnp, k.sync, k.rel, k.keep, k.power, k.bootNs, k.regs, k.dramWf, k.sramWf⟩

theorem Chg.upd_lanes {x30} (h30 : m.testBit 30 = true) (k : Chg m s t) :
    Chg m s (State.mk t.pending t.ns t.free t.fields t.staged t.latch t.lowHeld t.readData t.events t.lastLog t.heldLog t.out t.engines t.tiles t.rst t.cores t.seqs t.sram t.models t.fab t.dram t.items t.mgmt t.rings t.reads t.nextTag t.msix t.msixPending t.busMaster t.ats x30 t.bar t.field t.hk t.cnp t.sync t.rel t.keep t.power t.bootNs) :=
  ⟨k.pending, k.ns, k.free, k.fields, k.staged, k.latch, k.lowHeld, k.readData, k.events, k.lastLog, k.heldLog, k.out, k.engines, k.tiles, k.rst, k.cores, k.seqs, k.sram, k.models, k.fab, k.dram, k.items, k.mgmt, k.rings, k.reads, k.nextTag, k.msix, k.msixPending, k.busMaster, k.ats, Or.inl h30, k.bar, k.field, k.hk, k.cnp, k.sync, k.rel, k.keep, k.power, k.bootNs, k.regs, k.dramWf, k.sramWf⟩

theorem Chg.upd_bar {x31} (h31 : m.testBit 31 = true) (k : Chg m s t) :
    Chg m s (State.mk t.pending t.ns t.free t.fields t.staged t.latch t.lowHeld t.readData t.events t.lastLog t.heldLog t.out t.engines t.tiles t.rst t.cores t.seqs t.sram t.models t.fab t.dram t.items t.mgmt t.rings t.reads t.nextTag t.msix t.msixPending t.busMaster t.ats t.lanes x31 t.field t.hk t.cnp t.sync t.rel t.keep t.power t.bootNs) :=
  ⟨k.pending, k.ns, k.free, k.fields, k.staged, k.latch, k.lowHeld, k.readData, k.events, k.lastLog, k.heldLog, k.out, k.engines, k.tiles, k.rst, k.cores, k.seqs, k.sram, k.models, k.fab, k.dram, k.items, k.mgmt, k.rings, k.reads, k.nextTag, k.msix, k.msixPending, k.busMaster, k.ats, k.lanes, Or.inl h31, k.field, k.hk, k.cnp, k.sync, k.rel, k.keep, k.power, k.bootNs, k.regs, k.dramWf, k.sramWf⟩

theorem Chg.upd_field {x32} (h32 : m.testBit 32 = true) (k : Chg m s t) :
    Chg m s (State.mk t.pending t.ns t.free t.fields t.staged t.latch t.lowHeld t.readData t.events t.lastLog t.heldLog t.out t.engines t.tiles t.rst t.cores t.seqs t.sram t.models t.fab t.dram t.items t.mgmt t.rings t.reads t.nextTag t.msix t.msixPending t.busMaster t.ats t.lanes t.bar x32 t.hk t.cnp t.sync t.rel t.keep t.power t.bootNs) :=
  ⟨k.pending, k.ns, k.free, k.fields, k.staged, k.latch, k.lowHeld, k.readData, k.events, k.lastLog, k.heldLog, k.out, k.engines, k.tiles, k.rst, k.cores, k.seqs, k.sram, k.models, k.fab, k.dram, k.items, k.mgmt, k.rings, k.reads, k.nextTag, k.msix, k.msixPending, k.busMaster, k.ats, k.lanes, k.bar, Or.inl h32, k.hk, k.cnp, k.sync, k.rel, k.keep, k.power, k.bootNs, k.regs, k.dramWf, k.sramWf⟩

theorem Chg.upd_hk {x33} (h33 : m.testBit 33 = true) (k : Chg m s t) :
    Chg m s (State.mk t.pending t.ns t.free t.fields t.staged t.latch t.lowHeld t.readData t.events t.lastLog t.heldLog t.out t.engines t.tiles t.rst t.cores t.seqs t.sram t.models t.fab t.dram t.items t.mgmt t.rings t.reads t.nextTag t.msix t.msixPending t.busMaster t.ats t.lanes t.bar t.field x33 t.cnp t.sync t.rel t.keep t.power t.bootNs) :=
  ⟨k.pending, k.ns, k.free, k.fields, k.staged, k.latch, k.lowHeld, k.readData, k.events, k.lastLog, k.heldLog, k.out, k.engines, k.tiles, k.rst, k.cores, k.seqs, k.sram, k.models, k.fab, k.dram, k.items, k.mgmt, k.rings, k.reads, k.nextTag, k.msix, k.msixPending, k.busMaster, k.ats, k.lanes, k.bar, k.field, Or.inl h33, k.cnp, k.sync, k.rel, k.keep, k.power, k.bootNs, k.regs, k.dramWf, k.sramWf⟩

theorem Chg.upd_cnp {x34} (h34 : m.testBit 34 = true) (k : Chg m s t) :
    Chg m s (State.mk t.pending t.ns t.free t.fields t.staged t.latch t.lowHeld t.readData t.events t.lastLog t.heldLog t.out t.engines t.tiles t.rst t.cores t.seqs t.sram t.models t.fab t.dram t.items t.mgmt t.rings t.reads t.nextTag t.msix t.msixPending t.busMaster t.ats t.lanes t.bar t.field t.hk x34 t.sync t.rel t.keep t.power t.bootNs) :=
  ⟨k.pending, k.ns, k.free, k.fields, k.staged, k.latch, k.lowHeld, k.readData, k.events, k.lastLog, k.heldLog, k.out, k.engines, k.tiles, k.rst, k.cores, k.seqs, k.sram, k.models, k.fab, k.dram, k.items, k.mgmt, k.rings, k.reads, k.nextTag, k.msix, k.msixPending, k.busMaster, k.ats, k.lanes, k.bar, k.field, k.hk, Or.inl h34, k.sync, k.rel, k.keep, k.power, k.bootNs, k.regs, k.dramWf, k.sramWf⟩

theorem Chg.upd_sync {x35} (h35 : m.testBit 35 = true) (k : Chg m s t) :
    Chg m s (State.mk t.pending t.ns t.free t.fields t.staged t.latch t.lowHeld t.readData t.events t.lastLog t.heldLog t.out t.engines t.tiles t.rst t.cores t.seqs t.sram t.models t.fab t.dram t.items t.mgmt t.rings t.reads t.nextTag t.msix t.msixPending t.busMaster t.ats t.lanes t.bar t.field t.hk t.cnp x35 t.rel t.keep t.power t.bootNs) :=
  ⟨k.pending, k.ns, k.free, k.fields, k.staged, k.latch, k.lowHeld, k.readData, k.events, k.lastLog, k.heldLog, k.out, k.engines, k.tiles, k.rst, k.cores, k.seqs, k.sram, k.models, k.fab, k.dram, k.items, k.mgmt, k.rings, k.reads, k.nextTag, k.msix, k.msixPending, k.busMaster, k.ats, k.lanes, k.bar, k.field, k.hk, k.cnp, Or.inl h35, k.rel, k.keep, k.power, k.bootNs, k.regs, k.dramWf, k.sramWf⟩

theorem Chg.upd_rel {x36} (h36 : m.testBit 36 = true) (k : Chg m s t) :
    Chg m s (State.mk t.pending t.ns t.free t.fields t.staged t.latch t.lowHeld t.readData t.events t.lastLog t.heldLog t.out t.engines t.tiles t.rst t.cores t.seqs t.sram t.models t.fab t.dram t.items t.mgmt t.rings t.reads t.nextTag t.msix t.msixPending t.busMaster t.ats t.lanes t.bar t.field t.hk t.cnp t.sync x36 t.keep t.power t.bootNs) :=
  ⟨k.pending, k.ns, k.free, k.fields, k.staged, k.latch, k.lowHeld, k.readData, k.events, k.lastLog, k.heldLog, k.out, k.engines, k.tiles, k.rst, k.cores, k.seqs, k.sram, k.models, k.fab, k.dram, k.items, k.mgmt, k.rings, k.reads, k.nextTag, k.msix, k.msixPending, k.busMaster, k.ats, k.lanes, k.bar, k.field, k.hk, k.cnp, k.sync, Or.inl h36, k.keep, k.power, k.bootNs, k.regs, k.dramWf, k.sramWf⟩

theorem Chg.upd_keep {x37} (h37 : m.testBit 37 = true) (k : Chg m s t) :
    Chg m s (State.mk t.pending t.ns t.free t.fields t.staged t.latch t.lowHeld t.readData t.events t.lastLog t.heldLog t.out t.engines t.tiles t.rst t.cores t.seqs t.sram t.models t.fab t.dram t.items t.mgmt t.rings t.reads t.nextTag t.msix t.msixPending t.busMaster t.ats t.lanes t.bar t.field t.hk t.cnp t.sync t.rel x37 t.power t.bootNs) :=
  ⟨k.pending, k.ns, k.free, k.fields, k.staged, k.latch, k.lowHeld, k.readData, k.events, k.lastLog, k.heldLog, k.out, k.engines, k.tiles, k.rst, k.cores, k.seqs, k.sram, k.models, k.fab, k.dram, k.items, k.mgmt, k.rings, k.reads, k.nextTag, k.msix, k.msixPending, k.busMaster, k.ats, k.lanes, k.bar, k.field, k.hk, k.cnp, k.sync, k.rel, Or.inl h37, k.power, k.bootNs, k.regs, k.dramWf, k.sramWf⟩

theorem Chg.upd_power {x38} (h38 : m.testBit 38 = true) (k : Chg m s t) :
    Chg m s (State.mk t.pending t.ns t.free t.fields t.staged t.latch t.lowHeld t.readData t.events t.lastLog t.heldLog t.out t.engines t.tiles t.rst t.cores t.seqs t.sram t.models t.fab t.dram t.items t.mgmt t.rings t.reads t.nextTag t.msix t.msixPending t.busMaster t.ats t.lanes t.bar t.field t.hk t.cnp t.sync t.rel t.keep x38 t.bootNs) :=
  ⟨k.pending, k.ns, k.free, k.fields, k.staged, k.latch, k.lowHeld, k.readData, k.events, k.lastLog, k.heldLog, k.out, k.engines, k.tiles, k.rst, k.cores, k.seqs, k.sram, k.models, k.fab, k.dram, k.items, k.mgmt, k.rings, k.reads, k.nextTag, k.msix, k.msixPending, k.busMaster, k.ats, k.lanes, k.bar, k.field, k.hk, k.cnp, k.sync, k.rel, k.keep, Or.inl h38, k.bootNs, k.regs, k.dramWf, k.sramWf⟩

theorem Chg.upd_free_hk {x2} {x33} (h2 : m.testBit 2 = true) (h33 : m.testBit 33 = true) (k : Chg m s t) :
    Chg m s (State.mk t.pending t.ns x2 t.fields t.staged t.latch t.lowHeld t.readData t.events t.lastLog t.heldLog t.out t.engines t.tiles t.rst t.cores t.seqs t.sram t.models t.fab t.dram t.items t.mgmt t.rings t.reads t.nextTag t.msix t.msixPending t.busMaster t.ats t.lanes t.bar t.field x33 t.cnp t.sync t.rel t.keep t.power t.bootNs) :=
  ⟨k.pending, k.ns, Or.inl h2, k.fields, k.staged, k.latch, k.lowHeld, k.readData, k.events, k.lastLog, k.heldLog, k.out, k.engines, k.tiles, k.rst, k.cores, k.seqs, k.sram, k.models, k.fab, k.dram, k.items, k.mgmt, k.rings, k.reads, k.nextTag, k.msix, k.msixPending, k.busMaster, k.ats, k.lanes, k.bar, k.field, Or.inl h33, k.cnp, k.sync, k.rel, k.keep, k.power, k.bootNs, k.regs, k.dramWf, k.sramWf⟩

theorem Chg.upd_fields_staged {x3} {x4} (h3 : m.testBit 3 = true) (h4 : m.testBit 4 = true) (w3 : ∀ n, m.testBit (40 + keyBlk n) = true ∨ Tab.find x3 n = Tab.find t.fields n) (k : Chg m s t) :
    Chg m s (State.mk t.pending t.ns t.free x3 x4 t.latch t.lowHeld t.readData t.events t.lastLog t.heldLog t.out t.engines t.tiles t.rst t.cores t.seqs t.sram t.models t.fab t.dram t.items t.mgmt t.rings t.reads t.nextTag t.msix t.msixPending t.busMaster t.ats t.lanes t.bar t.field t.hk t.cnp t.sync t.rel t.keep t.power t.bootNs) :=
  ⟨k.pending, k.ns, k.free, Or.inl h3, Or.inl h4, k.latch, k.lowHeld, k.readData, k.events, k.lastLog, k.heldLog, k.out, k.engines, k.tiles, k.rst, k.cores, k.seqs, k.sram, k.models, k.fab, k.dram, k.items, k.mgmt, k.rings, k.reads, k.nextTag, k.msix, k.msixPending, k.busMaster, k.ats, k.lanes, k.bar, k.field, k.hk, k.cnp, k.sync, k.rel, k.keep, k.power, k.bootNs, fun n => part_step (Sub.refl m) (w3 n) (k.regs n), k.dramWf, k.sramWf⟩

theorem Chg.upd_lastLog_heldLog {x9} {x10} (h9 : m.testBit 9 = true) (h10 : m.testBit 10 = true) (k : Chg m s t) :
    Chg m s (State.mk t.pending t.ns t.free t.fields t.staged t.latch t.lowHeld t.readData t.events x9 x10 t.out t.engines t.tiles t.rst t.cores t.seqs t.sram t.models t.fab t.dram t.items t.mgmt t.rings t.reads t.nextTag t.msix t.msixPending t.busMaster t.ats t.lanes t.bar t.field t.hk t.cnp t.sync t.rel t.keep t.power t.bootNs) :=
  ⟨k.pending, k.ns, k.free, k.fields, k.staged, k.latch, k.lowHeld, k.readData, k.events, Or.inl h9, Or.inl h10, k.out, k.engines, k.tiles, k.rst, k.cores, k.seqs, k.sram, k.models, k.fab, k.dram, k.items, k.mgmt, k.rings, k.reads, k.nextTag, k.msix, k.msixPending, k.busMaster, k.ats, k.lanes, k.bar, k.field, k.hk, k.cnp, k.sync, k.rel, k.keep, k.power, k.bootNs, k.regs, k.dramWf, k.sramWf⟩

theorem Chg.upd_out_mgmt {x11} {x22} (h11 : m.testBit 11 = true) (h22 : m.testBit 22 = true) (k : Chg m s t) :
    Chg m s (State.mk t.pending t.ns t.free t.fields t.staged t.latch t.lowHeld t.readData t.events t.lastLog t.heldLog x11 t.engines t.tiles t.rst t.cores t.seqs t.sram t.models t.fab t.dram t.items x22 t.rings t.reads t.nextTag t.msix t.msixPending t.busMaster t.ats t.lanes t.bar t.field t.hk t.cnp t.sync t.rel t.keep t.power t.bootNs) :=
  ⟨k.pending, k.ns, k.free, k.fields, k.staged, k.latch, k.lowHeld, k.readData, k.events, k.lastLog, k.heldLog, Or.inl h11, k.engines, k.tiles, k.rst, k.cores, k.seqs, k.sram, k.models, k.fab, k.dram, k.items, Or.inl h22, k.rings, k.reads, k.nextTag, k.msix, k.msixPending, k.busMaster, k.ats, k.lanes, k.bar, k.field, k.hk, k.cnp, k.sync, k.rel, k.keep, k.power, k.bootNs, k.regs, k.dramWf, k.sramWf⟩

theorem Chg.upd_engines_tiles {x12} {x13} (h12 : m.testBit 12 = true) (h13 : m.testBit 13 = true) (k : Chg m s t) :
    Chg m s (State.mk t.pending t.ns t.free t.fields t.staged t.latch t.lowHeld t.readData t.events t.lastLog t.heldLog t.out x12 x13 t.rst t.cores t.seqs t.sram t.models t.fab t.dram t.items t.mgmt t.rings t.reads t.nextTag t.msix t.msixPending t.busMaster t.ats t.lanes t.bar t.field t.hk t.cnp t.sync t.rel t.keep t.power t.bootNs) :=
  ⟨k.pending, k.ns, k.free, k.fields, k.staged, k.latch, k.lowHeld, k.readData, k.events, k.lastLog, k.heldLog, k.out, Or.inl h12, Or.inl h13, k.rst, k.cores, k.seqs, k.sram, k.models, k.fab, k.dram, k.items, k.mgmt, k.rings, k.reads, k.nextTag, k.msix, k.msixPending, k.busMaster, k.ats, k.lanes, k.bar, k.field, k.hk, k.cnp, k.sync, k.rel, k.keep, k.power, k.bootNs, k.regs, k.dramWf, k.sramWf⟩

theorem Chg.upd_models_keep {x18} {x37} (h18 : m.testBit 18 = true) (h37 : m.testBit 37 = true) (k : Chg m s t) :
    Chg m s (State.mk t.pending t.ns t.free t.fields t.staged t.latch t.lowHeld t.readData t.events t.lastLog t.heldLog t.out t.engines t.tiles t.rst t.cores t.seqs t.sram x18 t.fab t.dram t.items t.mgmt t.rings t.reads t.nextTag t.msix t.msixPending t.busMaster t.ats t.lanes t.bar t.field t.hk t.cnp t.sync t.rel x37 t.power t.bootNs) :=
  ⟨k.pending, k.ns, k.free, k.fields, k.staged, k.latch, k.lowHeld, k.readData, k.events, k.lastLog, k.heldLog, k.out, k.engines, k.tiles, k.rst, k.cores, k.seqs, k.sram, Or.inl h18, k.fab, k.dram, k.items, k.mgmt, k.rings, k.reads, k.nextTag, k.msix, k.msixPending, k.busMaster, k.ats, k.lanes, k.bar, k.field, k.hk, k.cnp, k.sync, k.rel, Or.inl h37, k.power, k.bootNs, k.regs, k.dramWf, k.sramWf⟩

theorem Chg.upd_fab_dram {x19} {x20} (h19 : m.testBit 19 = true) (h20 : m.testBit 20 = true) (w20 : cellsWf t.dram = true → cellsWf x20 = true) (k : Chg m s t) :
    Chg m s (State.mk t.pending t.ns t.free t.fields t.staged t.latch t.lowHeld t.readData t.events t.lastLog t.heldLog t.out t.engines t.tiles t.rst t.cores t.seqs t.sram t.models x19 x20 t.items t.mgmt t.rings t.reads t.nextTag t.msix t.msixPending t.busMaster t.ats t.lanes t.bar t.field t.hk t.cnp t.sync t.rel t.keep t.power t.bootNs) :=
  ⟨k.pending, k.ns, k.free, k.fields, k.staged, k.latch, k.lowHeld, k.readData, k.events, k.lastLog, k.heldLog, k.out, k.engines, k.tiles, k.rst, k.cores, k.seqs, k.sram, k.models, Or.inl h19, Or.inl h20, k.items, k.mgmt, k.rings, k.reads, k.nextTag, k.msix, k.msixPending, k.busMaster, k.ats, k.lanes, k.bar, k.field, k.hk, k.cnp, k.sync, k.rel, k.keep, k.power, k.bootNs, k.regs, fun h => w20 (k.dramWf h), k.sramWf⟩

theorem Chg.upd_fab_rel {x19} {x36} (h19 : m.testBit 19 = true) (h36 : m.testBit 36 = true) (k : Chg m s t) :
    Chg m s (State.mk t.pending t.ns t.free t.fields t.staged t.latch t.lowHeld t.readData t.events t.lastLog t.heldLog t.out t.engines t.tiles t.rst t.cores t.seqs t.sram t.models x19 t.dram t.items t.mgmt t.rings t.reads t.nextTag t.msix t.msixPending t.busMaster t.ats t.lanes t.bar t.field t.hk t.cnp t.sync x36 t.keep t.power t.bootNs) :=
  ⟨k.pending, k.ns, k.free, k.fields, k.staged, k.latch, k.lowHeld, k.readData, k.events, k.lastLog, k.heldLog, k.out, k.engines, k.tiles, k.rst, k.cores, k.seqs, k.sram, k.models, Or.inl h19, k.dram, k.items, k.mgmt, k.rings, k.reads, k.nextTag, k.msix, k.msixPending, k.busMaster, k.ats, k.lanes, k.bar, k.field, k.hk, k.cnp, k.sync, Or.inl h36, k.keep, k.power, k.bootNs, k.regs, k.dramWf, k.sramWf⟩

theorem Chg.upd_fab_keep {x19} {x37} (h19 : m.testBit 19 = true) (h37 : m.testBit 37 = true) (k : Chg m s t) :
    Chg m s (State.mk t.pending t.ns t.free t.fields t.staged t.latch t.lowHeld t.readData t.events t.lastLog t.heldLog t.out t.engines t.tiles t.rst t.cores t.seqs t.sram t.models x19 t.dram t.items t.mgmt t.rings t.reads t.nextTag t.msix t.msixPending t.busMaster t.ats t.lanes t.bar t.field t.hk t.cnp t.sync t.rel x37 t.power t.bootNs) :=
  ⟨k.pending, k.ns, k.free, k.fields, k.staged, k.latch, k.lowHeld, k.readData, k.events, k.lastLog, k.heldLog, k.out, k.engines, k.tiles, k.rst, k.cores, k.seqs, k.sram, k.models, Or.inl h19, k.dram, k.items, k.mgmt, k.rings, k.reads, k.nextTag, k.msix, k.msixPending, k.busMaster, k.ats, k.lanes, k.bar, k.field, k.hk, k.cnp, k.sync, k.rel, Or.inl h37, k.power, k.bootNs, k.regs, k.dramWf, k.sramWf⟩

theorem Chg.upd_reads_nextTag {x24} {x25} (h24 : m.testBit 24 = true) (h25 : m.testBit 25 = true) (k : Chg m s t) :
    Chg m s (State.mk t.pending t.ns t.free t.fields t.staged t.latch t.lowHeld t.readData t.events t.lastLog t.heldLog t.out t.engines t.tiles t.rst t.cores t.seqs t.sram t.models t.fab t.dram t.items t.mgmt t.rings x24 x25 t.msix t.msixPending t.busMaster t.ats t.lanes t.bar t.field t.hk t.cnp t.sync t.rel t.keep t.power t.bootNs) :=
  ⟨k.pending, k.ns, k.free, k.fields, k.staged, k.latch, k.lowHeld, k.readData, k.events, k.lastLog, k.heldLog, k.out, k.engines, k.tiles, k.rst, k.cores, k.seqs, k.sram, k.models, k.fab, k.dram, k.items, k.mgmt, k.rings, Or.inl h24, Or.inl h25, k.msix, k.msixPending, k.busMaster, k.ats, k.lanes, k.bar, k.field, k.hk, k.cnp, k.sync, k.rel, k.keep, k.power, k.bootNs, k.regs, k.dramWf, k.sramWf⟩

theorem Chg.upd_bar_field {x31} {x32} (h31 : m.testBit 31 = true) (h32 : m.testBit 32 = true) (k : Chg m s t) :
    Chg m s (State.mk t.pending t.ns t.free t.fields t.staged t.latch t.lowHeld t.readData t.events t.lastLog t.heldLog t.out t.engines t.tiles t.rst t.cores t.seqs t.sram t.models t.fab t.dram t.items t.mgmt t.rings t.reads t.nextTag t.msix t.msixPending t.busMaster t.ats t.lanes x31 x32 t.hk t.cnp t.sync t.rel t.keep t.power t.bootNs) :=
  ⟨k.pending, k.ns, k.free, k.fields, k.staged, k.latch, k.lowHeld, k.readData, k.events, k.lastLog, k.heldLog, k.out, k.engines, k.tiles, k.rst, k.cores, k.seqs, k.sram, k.models, k.fab, k.dram, k.items, k.mgmt, k.rings, k.reads, k.nextTag, k.msix, k.msixPending, k.busMaster, k.ats, k.lanes, Or.inl h31, Or.inl h32, k.hk, k.cnp, k.sync, k.rel, k.keep, k.power, k.bootNs, k.regs, k.dramWf, k.sramWf⟩

theorem Chg.upd_power_bootNs {x38} {x39} (h38 : m.testBit 38 = true) (h39 : m.testBit 39 = true) (k : Chg m s t) :
    Chg m s (State.mk t.pending t.ns t.free t.fields t.staged t.latch t.lowHeld t.readData t.events t.lastLog t.heldLog t.out t.engines t.tiles t.rst t.cores t.seqs t.sram t.models t.fab t.dram t.items t.mgmt t.rings t.reads t.nextTag t.msix t.msixPending t.busMaster t.ats t.lanes t.bar t.field t.hk t.cnp t.sync t.rel t.keep x38 x39) :=
  ⟨k.pending, k.ns, k.free, k.fields, k.staged, k.latch, k.lowHeld, k.readData, k.events, k.lastLog, k.heldLog, k.out, k.engines, k.tiles, k.rst, k.cores, k.seqs, k.sram, k.models, k.fab, k.dram, k.items, k.mgmt, k.rings, k.reads, k.nextTag, k.msix, k.msixPending, k.busMaster, k.ats, k.lanes, k.bar, k.field, k.hk, k.cnp, k.sync, k.rel, k.keep, Or.inl h38, Or.inl h39, k.regs, k.dramWf, k.sramWf⟩

theorem Chg.upd_free_bar_keep {x2} {x31} {x37} (h2 : m.testBit 2 = true) (h31 : m.testBit 31 = true) (h37 : m.testBit 37 = true) (k : Chg m s t) :
    Chg m s (State.mk t.pending t.ns x2 t.fields t.staged t.latch t.lowHeld t.readData t.events t.lastLog t.heldLog t.out t.engines t.tiles t.rst t.cores t.seqs t.sram t.models t.fab t.dram t.items t.mgmt t.rings t.reads t.nextTag t.msix t.msixPending t.busMaster t.ats t.lanes x31 t.field t.hk t.cnp t.sync t.rel x37 t.power t.bootNs) :=
  ⟨k.pending, k.ns, Or.inl h2, k.fields, k.staged, k.latch, k.lowHeld, k.readData, k.events, k.lastLog, k.heldLog, k.out, k.engines, k.tiles, k.rst, k.cores, k.seqs, k.sram, k.models, k.fab, k.dram, k.items, k.mgmt, k.rings, k.reads, k.nextTag, k.msix, k.msixPending, k.busMaster, k.ats, k.lanes, Or.inl h31, k.field, k.hk, k.cnp, k.sync, k.rel, Or.inl h37, k.power, k.bootNs, k.regs, k.dramWf, k.sramWf⟩

theorem Chg.upd_cores_seqs_reads {x15} {x16} {x24} (h15 : m.testBit 15 = true) (h16 : m.testBit 16 = true) (h24 : m.testBit 24 = true) (k : Chg m s t) :
    Chg m s (State.mk t.pending t.ns t.free t.fields t.staged t.latch t.lowHeld t.readData t.events t.lastLog t.heldLog t.out t.engines t.tiles t.rst x15 x16 t.sram t.models t.fab t.dram t.items t.mgmt t.rings x24 t.nextTag t.msix t.msixPending t.busMaster t.ats t.lanes t.bar t.field t.hk t.cnp t.sync t.rel t.keep t.power t.bootNs) :=
  ⟨k.pending, k.ns, k.free, k.fields, k.staged, k.latch, k.lowHeld, k.readData, k.events, k.lastLog, k.heldLog, k.out, k.engines, k.tiles, k.rst, Or.inl h15, Or.inl h16, k.sram, k.models, k.fab, k.dram, k.items, k.mgmt, k.rings, Or.inl h24, k.nextTag, k.msix, k.msixPending, k.busMaster, k.ats, k.lanes, k.bar, k.field, k.hk, k.cnp, k.sync, k.rel, k.keep, k.power, k.bootNs, k.regs, k.dramWf, k.sramWf⟩

theorem Chg.upd_tiles_rst_cores_seqs_sram {x13} {x14} {x15} {x16} {x17} (h13 : m.testBit 13 = true) (h14 : m.testBit 14 = true) (h15 : m.testBit 15 = true) (h16 : m.testBit 16 = true) (h17 : m.testBit 17 = true) (w17 : cellsWf t.sram = true → cellsWf x17 = true) (k : Chg m s t) :
    Chg m s (State.mk t.pending t.ns t.free t.fields t.staged t.latch t.lowHeld t.readData t.events t.lastLog t.heldLog t.out t.engines x13 x14 x15 x16 x17 t.models t.fab t.dram t.items t.mgmt t.rings t.reads t.nextTag t.msix t.msixPending t.busMaster t.ats t.lanes t.bar t.field t.hk t.cnp t.sync t.rel t.keep t.power t.bootNs) :=
  ⟨k.pending, k.ns, k.free, k.fields, k.staged, k.latch, k.lowHeld, k.readData, k.events, k.lastLog, k.heldLog, k.out, k.engines, Or.inl h13, Or.inl h14, Or.inl h15, Or.inl h16, Or.inl h17, k.models, k.fab, k.dram, k.items, k.mgmt, k.rings, k.reads, k.nextTag, k.msix, k.msixPending, k.busMaster, k.ats, k.lanes, k.bar, k.field, k.hk, k.cnp, k.sync, k.rel, k.keep, k.power, k.bootNs, k.regs, k.dramWf, fun h => w17 (k.sramWf h)⟩

theorem Chg.upd_reads_msix_msixPending_busMaster_ats {x24} {x26} {x27} {x28} {x29} (h24 : m.testBit 24 = true) (h26 : m.testBit 26 = true) (h27 : m.testBit 27 = true) (h28 : m.testBit 28 = true) (h29 : m.testBit 29 = true) (k : Chg m s t) :
    Chg m s (State.mk t.pending t.ns t.free t.fields t.staged t.latch t.lowHeld t.readData t.events t.lastLog t.heldLog t.out t.engines t.tiles t.rst t.cores t.seqs t.sram t.models t.fab t.dram t.items t.mgmt t.rings x24 t.nextTag x26 x27 x28 x29 t.lanes t.bar t.field t.hk t.cnp t.sync t.rel t.keep t.power t.bootNs) :=
  ⟨k.pending, k.ns, k.free, k.fields, k.staged, k.latch, k.lowHeld, k.readData, k.events, k.lastLog, k.heldLog, k.out, k.engines, k.tiles, k.rst, k.cores, k.seqs, k.sram, k.models, k.fab, k.dram, k.items, k.mgmt, k.rings, Or.inl h24, k.nextTag, Or.inl h26, Or.inl h27, Or.inl h28, Or.inl h29, k.lanes, k.bar, k.field, k.hk, k.cnp, k.sync, k.rel, k.keep, k.power, k.bootNs, k.regs, k.dramWf, k.sramWf⟩

theorem Chg.upd_group_54 {x12} {x13} {x14} {x15} {x16} {x17} {x19} {x36} (h12 : m.testBit 12 = true) (h13 : m.testBit 13 = true) (h14 : m.testBit 14 = true) (h15 : m.testBit 15 = true) (h16 : m.testBit 16 = true) (h17 : m.testBit 17 = true) (h19 : m.testBit 19 = true) (h36 : m.testBit 36 = true) (w17 : cellsWf t.sram = true → cellsWf x17 = true) (k : Chg m s t) :
    Chg m s (State.mk t.pending t.ns t.free t.fields t.staged t.latch t.lowHeld t.readData t.events t.lastLog t.heldLog t.out x12 x13 x14 x15 x16 x17 t.models x19 t.dram t.items t.mgmt t.rings t.reads t.nextTag t.msix t.msixPending t.busMaster t.ats t.lanes t.bar t.field t.hk t.cnp t.sync x36 t.keep t.power t.bootNs) :=
  ⟨k.pending, k.ns, k.free, k.fields, k.staged, k.latch, k.lowHeld, k.readData, k.events, k.lastLog, k.heldLog, k.out, Or.inl h12, Or.inl h13, Or.inl h14, Or.inl h15, Or.inl h16, Or.inl h17, k.models, Or.inl h19, k.dram, k.items, k.mgmt, k.rings, k.reads, k.nextTag, k.msix, k.msixPending, k.busMaster, k.ats, k.lanes, k.bar, k.field, k.hk, k.cnp, k.sync, Or.inl h36, k.keep, k.power, k.bootNs, k.regs, k.dramWf, fun h => w17 (k.sramWf h)⟩

theorem Chg.upd_group_55 {x3} {x4} {x5} {x6} {x18} {x19} {x20} {x21} {x22} {x23} {x24} {x30} {x35} {x36} {x37} {x38} (h3 : m.testBit 3 = true) (h4 : m.testBit 4 = true) (h5 : m.testBit 5 = true) (h6 : m.testBit 6 = true) (h18 : m.testBit 18 = true) (h19 : m.testBit 19 = true) (h20 : m.testBit 20 = true) (h21 : m.testBit 21 = true) (h22 : m.testBit 22 = true) (h23 : m.testBit 23 = true) (h24 : m.testBit 24 = true) (h30 : m.testBit 30 = true) (h35 : m.testBit 35 = true) (h36 : m.testBit 36 = true) (h37 : m.testBit 37 = true) (h38 : m.testBit 38 = true) (w3 : ∀ n, m.testBit (40 + keyBlk n) = true ∨ Tab.find x3 n = Tab.find t.fields n) (w20 : cellsWf t.dram = true → cellsWf x20 = true) (k : Chg m s t) :
    Chg m s (State.mk t.pending t.ns t.free x3 x4 x5 x6 t.readData t.events t.lastLog t.heldLog t.out t.engines t.tiles t.rst t.cores t.seqs t.sram x18 x19 x20 x21 x22 x23 x24 t.nextTag t.msix t.msixPending t.busMaster t.ats x30 t.bar t.field t.hk t.cnp x35 x36 x37 x38 t.bootNs) :=
  ⟨k.pending, k.ns, k.free, Or.inl h3, Or.inl h4, Or.inl h5, Or.inl h6, k.readData, k.events, k.lastLog, k.heldLog, k.out, k.engines, k.tiles, k.rst, k.cores, k.seqs, k.sram, Or.inl h18, Or.inl h19, Or.inl h20, Or.inl h21, Or.inl h22, Or.inl h23, Or.inl h24, k.nextTag, k.msix, k.msixPending, k.busMaster, k.ats, Or.inl h30, k.bar, k.field, k.hk, k.cnp, Or.inl h35, Or.inl h36, Or.inl h37, Or.inl h38, k.bootNs, fun n => part_step (Sub.refl m) (w3 n) (k.regs n), fun h => w20 (k.dramWf h), k.sramWf⟩

theorem Chg.upd_group_56 {x3} {x4} {x5} {x6} {x8} {x9} {x10} {x12} {x13} {x14} {x15} {x16} {x17} {x18} {x19} {x20} {x21} {x22} {x23} {x24} {x26} {x27} {x28} {x29} {x30} {x31} {x33} {x34} {x35} {x36} {x37} {x38} (h3 : m.testBit 3 = true) (h4 : m.testBit 4 = true) (h5 : m.testBit 5 = true) (h6 : m.testBit 6 = true) (h8 : m.testBit 8 = true) (h9 : m.testBit 9 = true) (h10 : m.testBit 10 = true) (h12 : m.testBit 12 = true) (h13 : m.testBit 13 = true) (h14 : m.testBit 14 = true) (h15 : m.testBit 15 = true) (h16 : m.testBit 16 = true) (h17 : m.testBit 17 = true) (h18 : m.testBit 18 = true) (h19 : m.testBit 19 = true) (h20 : m.testBit 20 = true) (h21 : m.testBit 21 = true) (h22 : m.testBit 22 = true) (h23 : m.testBit 23 = true) (h24 : m.testBit 24 = true) (h26 : m.testBit 26 = true) (h27 : m.testBit 27 = true) (h28 : m.testBit 28 = true) (h29 : m.testBit 29 = true) (h30 : m.testBit 30 = true) (h31 : m.testBit 31 = true) (h33 : m.testBit 33 = true) (h34 : m.testBit 34 = true) (h35 : m.testBit 35 = true) (h36 : m.testBit 36 = true) (h37 : m.testBit 37 = true) (h38 : m.testBit 38 = true) (w3 : ∀ n, m.testBit (40 + keyBlk n) = true ∨ Tab.find x3 n = Tab.find t.fields n) (w17 : cellsWf t.sram = true → cellsWf x17 = true) (w20 : cellsWf t.dram = true → cellsWf x20 = true) (k : Chg m s t) :
    Chg m s (State.mk t.pending t.ns t.free x3 x4 x5 x6 t.readData x8 x9 x10 t.out x12 x13 x14 x15 x16 x17 x18 x19 x20 x21 x22 x23 x24 t.nextTag x26 x27 x28 x29 x30 x31 t.field x33 x34 x35 x36 x37 x38 t.bootNs) :=
  ⟨k.pending, k.ns, k.free, Or.inl h3, Or.inl h4, Or.inl h5, Or.inl h6, k.readData, Or.inl h8, Or.inl h9, Or.inl h10, k.out, Or.inl h12, Or.inl h13, Or.inl h14, Or.inl h15, Or.inl h16, Or.inl h17, Or.inl h18, Or.inl h19, Or.inl h20, Or.inl h21, Or.inl h22, Or.inl h23, Or.inl h24, k.nextTag, Or.inl h26, Or.inl h27, Or.inl h28, Or.inl h29, Or.inl h30, Or.inl h31, k.field, Or.inl h33, Or.inl h34, Or.inl h35, Or.inl h36, Or.inl h37, Or.inl h38, k.bootNs, fun n => part_step (Sub.refl m) (w3 n) (k.regs n), fun h => w20 (k.dramWf h), fun h => w17 (k.sramWf h)⟩

theorem cellsWf_filter (p : Host.Cell → Bool) (l : List Host.Cell) (h : cellsWf l = true) : cellsWf (l.filter p) = true := by
  induction l with
  | nil => rfl
  | cons c r ih =>
    simp only [cellsWf, Bool.and_eq_true, List.all_eq_true] at h
    simp only [List.filter]
    split
    · simp only [cellsWf, Bool.and_eq_true, List.all_eq_true]
      exact ⟨⟨h.1.1, fun d hd => h.1.2 d (List.mem_of_mem_filter hd)⟩, ih h.2⟩
    · exact ih h.2

theorem Chg.ite {c : Prop} [Decidable c] (h : Chg m s t) (h' : Chg m s u) : Chg m s (if c then t else u) := by
  split
  · exact h
  · exact h'

theorem Chg.bite {c : Bool} (h : Chg m s t) (h' : Chg m s u) : Chg m s (bif c then t else u) := by
  cases c
  · exact h'
  · exact h

theorem Chg.foldl {β : Type} {l : List β} {f : State → β → State} (hf : ∀ (t : State) (x : β), Chg m s t → Chg m s (f t x))
    (h : Chg m s t) : Chg m s (l.foldl f t) := by
  induction l generalizing t with
  | nil => exact h
  | cons x r ih => exact ih (hf t x h)

theorem Chg.foldl_mem {β : Type} {l : List β} {f : State → β → State}
    (hf : ∀ (t : State) (x : β), x ∈ l → Chg m s t → Chg m s (f t x)) (h : Chg m s t) : Chg m s (l.foldl f t) := by
  induction l generalizing t with
  | nil => exact h
  | cons x r ih =>
    exact ih (fun t y hy => hf t y (List.mem_cons_of_mem _ hy)) (hf t x List.mem_cons_self h)

theorem mem_fld {l : List Fld} {x : Fld} (h : x ∈ l) (ha : l.all (fun f => Sub (fm f) m) = true) : Sub (fm x) m = true :=
  List.all_eq_true.mp ha x h

theorem mem_pair {l : List (Fld × Nat)} {x : Fld × Nat} (h : x ∈ l) (ha : l.all (fun p => Sub (fm p.1) m) = true) :
    Sub (fm x.1) m = true :=
  List.all_eq_true.mp ha x h

theorem mem_ctr {l : List Ctr} {x : Ctr} (h : x ∈ l) (ha : l.all (fun c => Sub (fm c.cnt) m) = true) :
    Sub (fm x.cnt) m = true :=
  List.all_eq_true.mp ha x h

theorem regBlk_lt (r : Nat) : regBlk r < 26 := by
  unfold regBlk
  simp only [Bool.cond_eq_ite]
  split_ifs <;> omega

theorem bit_range {m a b : Nat} (h : Sub ((2 ^ b - 1) <<< a) m = true) {i : Nat} (hi : i < b) : m.testBit (a + i) = true := by
  refine Sub.bit h ?_
  rw [Nat.testBit_shiftLeft, Nat.testBit_two_pow_sub_one]
  simp [hi]

theorem keyReg_key (f : Fld) (i : Nat) : keyReg (f.key i) = f.code / 32 := by
  simp [keyReg, Fld.key, Nat.unpair_pair]

theorem regs_fset {f : Fld} {i n : Nat} (t : State) (h : (fm f).testBit (40 + keyBlk n) = true ∨ n ≠ f.key i) (v : Nat) :
    (fm f).testBit (40 + keyBlk n) = true ∨ Tab.find (Tab.put f.reset t.fields (f.key i) v) n = Tab.find t.fields n := by
  rcases h with h | h
  · exact Or.inl h
  · refine Or.inr ?_
    unfold Tab.put
    split
    · exact Tab.find_erase_ne _ h
    · exact Tab.find_set_ne _ _ h

theorem fm_key (f : Fld) (i n : Nat) : (fm f).testBit (40 + keyBlk n) = true ∨ n ≠ f.key i := by
  by_cases h : n = f.key i
  · subst h
    left
    unfold fm keyBlk
    rw [keyReg_key, Nat.testBit_or, Nat.testBit_two_pow_self, Bool.or_true]
  · exact Or.inr h

theorem regs_keep {p : Nat → Bool} {x : Tab Nat} (h : ∀ n, m.testBit (40 + keyBlk n) = true ∨ p n = true) :
    ∀ n, m.testBit (40 + keyBlk n) = true ∨ Tab.find (Tab.keep x (fun k _ => p k)) n = Tab.find x n := by
  intro n
  rcases h n with h | h
  · exact Or.inl h
  · refine Or.inr ?_
    unfold Tab.keep
    induction x with
    | nil => rfl
    | cons e r ih =>
      obtain ⟨k, v⟩ := e
      by_cases hk : k = n
      · subst hk
        simp [List.filter, h, Tab.find]
      · by_cases hp : p k = true
        · simp [List.filter, hp, Tab.find, hk, ih]
        · have hp : p k = false := by simpa using hp
          simp [List.filter, hp, Tab.find, hk, ih]

theorem regs_any (h : Sub ((2 ^ 26 - 1) <<< 40) m = true) {x y : Tab Nat} :
    ∀ n, m.testBit (40 + keyBlk n) = true ∨ Tab.find x n = Tab.find y n :=
  fun n => Or.inl (bit_range h (regBlk_lt _))

theorem blk_fld {r : Nat} (h1 : 0xD10000 ≤ r) (h2 : r < 0xD20000) : 22 ≤ regBlk r ∧ regBlk r < 25 := by
  unfold regBlk
  simp only [Bool.cond_eq_ite, Nat.blt_eq]
  split_ifs <;> omega

theorem bit_fld {n : Nat} (h : Sub (7 <<< 62) m = true) (h1 : 0xD10000 ≤ keyReg n) (h2 : keyReg n < 0xD20000) :
    m.testBit (40 + keyBlk n) = true := by
  have hb := blk_fld h1 h2
  refine Sub.bit h ?_
  unfold keyBlk
  generalize regBlk (keyReg n) = b at hb
  obtain ⟨h1, h2⟩ := hb
  interval_cases b <;> rfl

theorem blk_host {r : Nat} (h : ¬ (0xD10000 ≤ r ∧ r < 0xD20000)) : regBlk r < 22 ∨ regBlk r = 25 := by
  unfold regBlk
  simp only [Bool.cond_eq_ite, Nat.blt_eq]
  split_ifs <;> omega

theorem bit_host {n : Nat} (h : Sub (0x23fffff <<< 40) m = true) (h1 : ¬ (0xD10000 ≤ keyReg n ∧ keyReg n < 0xD20000)) :
    m.testBit (40 + keyBlk n) = true := by
  have hb := blk_host h1
  refine Sub.bit h ?_
  unfold keyBlk
  generalize regBlk (keyReg n) = b at hb
  rcases hb with hb | hb
  · interval_cases b <;> rfl
  · subst hb; rfl

theorem blk_core {r : Nat} (h1 : 0x100000 ≤ r) (h2 : r < 0x300000) : 3 ≤ regBlk r ∧ regBlk r < 8 := by
  unfold regBlk
  simp only [Bool.cond_eq_ite, Nat.blt_eq]
  split_ifs <;> omega

theorem bit_core {n : Nat} (h : Sub (31 <<< 43) m = true) (h1 : 0x100000 ≤ keyReg n) (h2 : keyReg n < 0x300000) :
    m.testBit (40 + keyBlk n) = true := by
  have hb := blk_core h1 h2
  refine Sub.bit h ?_
  unfold keyBlk
  generalize regBlk (keyReg n) = b at hb
  obtain ⟨h1, h2⟩ := hb
  interval_cases b <;> rfl

theorem regs_core (h : Sub (31 <<< 43) m = true) {c : Nat} {x : Tab Nat} :
    ∀ n, m.testBit (40 + keyBlk n) = true ∨ Tab.find (Tab.keep x (fun k _ => !ofCore c k)) n = Tab.find x n := by
  refine regs_keep (fun n => ?_)
  by_cases hc : ofCore c n = true
  · simp only [ofCore, Bool.and_eq_true, decide_eq_true_eq] at hc
    exact Or.inl (bit_core h hc.1.1.1 (by omega))
  · exact Or.inr (by simpa using hc)

theorem regs_host (h : Sub (0x23fffff <<< 40) m = true) {p : Nat → Bool} {x : Tab Nat} :
    ∀ n, m.testBit (40 + keyBlk n) = true ∨ Tab.find (Tab.keep x (fun k _ => fieldSide (keyReg k) || p k)) n = Tab.find x n := by
  refine regs_keep (fun n => ?_)
  by_cases hc : 0xD10000 ≤ keyReg n ∧ keyReg n < 0xD20000
  · exact Or.inr (by simp [fieldSide, hc.1, hc.2])
  · exact Or.inl (bit_host h hc)

theorem blk_dev {r : Nat} (h : resetRegs r = true) :
    regBlk r = 1 ∨ (3 ≤ regBlk r ∧ regBlk r < 8) ∨ regBlk r = 12 ∨ regBlk r = 16 ∨ regBlk r = 19 := by
  simp only [resetRegs, Bool.or_eq_true, Bool.and_eq_true, decide_eq_true_eq] at h
  unfold regBlk
  simp only [Bool.cond_eq_ite, Nat.blt_eq]
  split_ifs <;> omega

theorem regs_dev (h : Sub (0x910fa <<< 40) m = true) {p : Nat → Bool} {x : Tab Nat} :
    ∀ n, m.testBit (40 + keyBlk n) = true ∨ Tab.find (Tab.keep x (fun k _ => !resetRegs (keyReg k) || p k)) n = Tab.find x n := by
  refine regs_keep (fun n => ?_)
  by_cases hc : resetRegs (keyReg n) = true
  · left
    have hb := blk_dev hc
    refine Sub.bit h ?_
    unfold keyBlk
    generalize regBlk (keyReg n) = b at hb
    rcases hb with hb | hb | hb | hb | hb
    · subst hb; rfl
    · obtain ⟨h1, h2⟩ := hb
      interval_cases b <;> rfl
    · subst hb; rfl
    · subst hb; rfl
    · subst hb; rfl
  · exact Or.inr (by simp [hc])

theorem regs_nv (h : Sub (7 <<< 62) m = true) {l x : Tab Nat} :
    ∀ n, m.testBit (40 + keyBlk n) = true ∨
      Tab.find ((l.filter (fun p => fieldSide (keyReg p.1))).foldl (fun t p => Tab.set t p.1 p.2) x) n = Tab.find x n := by
  intro n
  by_cases hc : fieldSide (keyReg n) = true
  · simp only [fieldSide, Bool.and_eq_true, decide_eq_true_eq] at hc
    exact Or.inl (bit_fld h hc.1 hc.2)
  · refine Or.inr ?_
    induction l generalizing x with
    | nil => rfl
    | cons e r ih =>
      by_cases he : fieldSide (keyReg e.1) = true
      · rw [List.filter_cons_of_pos (by simpa using he), List.foldl_cons, ih]
        exact Tab.find_set_ne _ _ (fun hn => hc (hn ▸ he))
      · rw [List.filter_cons_of_neg (by simpa using he), ih]

theorem Sub.fm (h : Sub ((2 ^ 26 - 1) <<< 40 ||| 8) m = true) (f : Fld) : Sub (fm f) m = true := by
  have h3 : m.testBit 3 = true := Sub.bit h rfl
  have hb : m.testBit (40 + regBlk (f.code / 32)) = true := bit_range (Sub.trans rfl h) (regBlk_lt _)
  have h1 : 8 ||| m = m := by
    have := Sub.of_bit h3
    simpa [Sub] using this
  have h2 : 2 ^ (40 + regBlk (f.code / 32)) ||| m = m := by
    have := Sub.of_bit hb
    simpa [Sub] using this
  unfold Sys2Proof.Machine.fm
  simp only [Sub, beq_iff_eq]
  rw [Nat.or_assoc, h2, h1]

theorem all_nil {β : Type} {p : β → Bool} : ([] : List β).all p = true := rfl

theorem all_fm {f : Fld} {i : Nat} {l : List (Fld × Nat)} (h : Sub (fm f) m = true)
    (hl : l.all (fun p => Sub (fm p.1) m) = true) : ((f, i) :: l).all (fun p => Sub (fm p.1) m) = true := by
  rw [List.all_cons, hl, Bool.and_true]
  exact h

theorem all_flat {β γ : Type} {l : List β} {g : β → List γ} {p : γ → Bool} (h : ∀ x, (g x).all p = true) :
    (l.flatMap g).all p = true := by
  rw [List.all_flatMap, List.all_eq_true]
  exact fun x _ => h x

theorem ite_fmc {c : Prop} [Decidable c] {f g : Ctr} (h : Sub (fm f.cnt) m = true) (h' : Sub (fm g.cnt) m = true) :
    Sub (fm (if c then f else g).cnt) m = true := by
  split
  · exact h
  · exact h'

theorem ite_fm {c : Prop} [Decidable c] {f g : Fld} (h : Sub (fm f) m = true) (h' : Sub (fm g) m = true) :
    Sub (fm (if c then f else g)) m = true := by
  split
  · exact h
  · exact h'

theorem Chg.foldl_fst {β γ : Type} {l : List β} {f : State × γ → β → State × γ} {p : State × γ}
    (hf : ∀ (p : State × γ) (x : β), Chg m s p.1 → Chg m s (f p x).1) (h : Chg m s p.1) : Chg m s (l.foldl f p).1 := by
  induction l generalizing p with
  | nil => exact h
  | cons x r ih => exact ih (hf p x h)

theorem Chg.foldl_snd {β γ : Type} {l : List β} {f : γ × State → β → γ × State} {p : γ × State}
    (hf : ∀ (p : γ × State) (x : β), Chg m s p.2 → Chg m s (f p x).2) (h : Chg m s p.2) : Chg m s (l.foldl f p).2 := by
  induction l generalizing p with
  | nil => exact h
  | cons x r ih => exact ih (hf p x h)

theorem Chg.elim {β : Type} {o : Option β} {f : β → State} (h : Chg m s t) (hf : ∀ x, o = some x → Chg m s (f x)) :
    Chg m s (o.elim t f) := by
  cases o with
  | none => exact h
  | some x => exact hf x rfl

theorem Chg.getD {o : Option State} (hf : ∀ u, o = some u → Chg m s u) (h : Chg m s t) : Chg m s (o.getD t) := by
  cases o with
  | none => exact h
  | some x => exact hf x rfl

theorem Chg.fst_mk {γ : Type} {x : γ} (h : Chg m s t) : Chg m s (t, x).1 := h

theorem Chg.snd_mk {γ : Type} {x : γ} (h : Chg m s t) : Chg m s (x, t).2 := h

theorem Chg.of_fst {γ : Type} {p : State × γ} {x : γ} (e : p = (t, x)) (h : Chg m s p.1) : Chg m s t := by
  rw [e] at h; exact h

theorem Chg.of_snd {γ : Type} {p : γ × State} {x : γ} (e : p = (x, t)) (h : Chg m s p.2) : Chg m s t := by
  rw [e] at h; exact h

theorem Chg.fst_ite {γ : Type} {c : Prop} [Decidable c] {p q : State × γ} (h : Chg m s p.1) (h' : Chg m s q.1) :
    Chg m s (if c then p else q).1 := by
  split
  · exact h
  · exact h'

theorem Chg.snd_ite {γ : Type} {c : Prop} [Decidable c] {p q : γ × State} (h : Chg m s p.2) (h' : Chg m s q.2) :
    Chg m s (if c then p else q).2 := by
  split
  · exact h
  · exact h'

/-- An outcome whose next state, if there is one, differs in the parts of `m` only. -/
def ChgR (m : Nat) (s : State) (r : Res) : Prop := ∀ t, r = .next t → Chg m s t

theorem ChgR.next (h : Chg m s t) : ChgR m s (.next t) := fun _ e => by cases e; exact h

theorem ChgR.fault {r : Fault} : ChgR m s (.fault r) := fun _ e => by cases e

theorem ChgR.refused {r : Refusal} : ChgR m s (.refused r) := fun _ e => by cases e

theorem ChgR.ite {c : Prop} [Decidable c] {a b : Res} (h : ChgR m s a) (h' : ChgR m s b) : ChgR m s (if c then a else b) := by
  split
  · exact h
  · exact h'

theorem ChgR.step {r : Res} (g : ChgR m' t r) (hs : Sub m' m = true) (k : Chg m s t) : ChgR m s r :=
  fun u e => Chg.step (g u e) hs k

theorem ChgR.elim {β : Type} {o : Option β} {a : Res} {f : β → Res} (h : ChgR m s a) (hf : ∀ x, o = some x → ChgR m s (f x)) :
    ChgR m s (o.elim a f) := by
  cases o with
  | none => exact h
  | some x => exact hf x rfl

/-- A state, if there is one, that differs in the parts of `m` only. -/
def ChgO (m : Nat) (s : State) (o : Option State) : Prop := ∀ t, o = some t → Chg m s t

theorem ChgO.some (h : Chg m s t) : ChgO m s (some t) := fun _ e => by cases e; exact h

theorem ChgO.none : ChgO m s none := fun _ e => by cases e

theorem ChgO.ite {c : Prop} [Decidable c] {a b : Option State} (h : ChgO m s a) (h' : ChgO m s b) :
    ChgO m s (if c then a else b) := by
  split
  · exact h
  · exact h'

theorem ChgO.step {o : Option State} (g : ChgO m' t o) (hs : Sub m' m = true) (k : Chg m s t) : ChgO m s o :=
  fun u e => Chg.step (g u e) hs k

theorem ChgR.app {r : Res} (g : ChgR m s r) (e : r = .next t) : Chg m s t := g t e

theorem ChgO.app {o : Option State} (g : ChgO m s o) (e : o = Option.some t) : Chg m s t := g t e

theorem ChgO.map {β : Type} {o : Option β} {f : β → State} (hf : ∀ x, o = Option.some x → Chg m s (f x)) : ChgO m s (o.map f) := by
  cases o with
  | none => exact ChgO.none
  | some x => exact ChgO.some (hf x rfl)

theorem ChgO.bind {β : Type} {o : Option β} {f : β → Option State} (hf : ∀ x, o = Option.some x → ChgO m s (f x)) :
    ChgO m s (o.bind f) := by
  cases o with
  | none => exact ChgO.none
  | some x => exact hf x rfl

end Sys2Proof.Machine
end

