-- ==== Sys2Proof/Laws/FrameOps.lean ====
section
/-! SUPPORT. The frames of the named operations, engines, tiles, sequencers and host operations: one lemma for each operation, which says
what part of the state it may change. -/

namespace Sys2Proof.Machine

theorem State.fset_chg (x0 : State) (x1 : Fld) (x2 : Nat) (x3 : Nat) :
    Chg (fm x1) x0 (State.fset x0 x1 x2 x3) := by
  have h8 : (fm x1).testBit 3 = true := by
    unfold fm
    rw [Nat.testBit_or]
    rfl
  exact Chg.upd_fields h8 (fun _ => regs_fset x0 (fm_key _ _ _) _) (Chg.refl _ _)

theorem State.stage_chg (x0 : State) (x1 : Fld) (x2 : Nat) (x3 : Nat) :
    Chg 0x10 x0 (State.stage x0 x1 x2 x3) := by
  unfold State.stage
  refine Chg.upd_staged rfl ?_
  exact Chg.refl _ _


theorem State.applyStaged_chg (x0 : State) (x1 : Fld) (x2 : Nat) :
    Chg (fm x1) x0 (State.applyStaged x0 x1 x2) := by
  exact State.fset_chg _ _ _ _

theorem State.applyAll_chg {m : Nat} {s t : State} {l : List (Fld × Nat)} :
    l.all (fun p => Sub (fm p.1) m) = true → Chg m s t → Chg m s (State.applyAll t l) := by
  intro h k
  unfold State.applyAll
  refine Chg.foldl_mem (fun u x hx k => ?_) k
  have hx : Sub (fm x.1) m = true := mem_pair hx h
  exact Chg.step (State.applyStaged_chg _ _ _) hx k

theorem State.countAt_chg (x0 : State) (x1 : Ctr) (x2 : Nat) (x3 : Nat) (x4 : Nat) :
    Chg (fm x1.cnt) x0 (State.countAt x0 x1 x2 x3 x4) := by
  unfold State.countAt
  exact Chg.ite (Chg.refl _ _) (State.fset_chg _ _ _ _)

theorem State.count_chg (x0 : State) (x1 : Ctr) (x2 : Nat) :
    Chg (fm x1.cnt) x0 (State.count x0 x1 x2) := by
  exact State.countAt_chg _ _ _ _ _

theorem State.countN_chg (x0 : State) (x1 : Ctr) (x2 : Nat) (x3 : Nat) :
    Chg (fm x1.cnt) x0 (State.countN x0 x1 x2 x3) := by
  exact State.countAt_chg _ _ _ _ _

theorem State.flag_chg (x0 : State) (x1 : Fld) (x2 : Nat) :
    Chg (fm x1) x0 (State.flag x0 x1 x2) := by
  exact State.fset_chg _ _ _ _

theorem State.draw_chg (x0 : State) (x1 : Nat) :
    Chg 0x4 x0 (State.draw x0 x1) := by
  unfold State.draw
  refine Chg.upd_free rfl ?_
  exact Chg.refl _ _


theorem State.emit_chg (x0 : State) (x1 : Out) :
    Chg 0x800 x0 (State.emit x0 x1) := by
  unfold State.emit
  refine Chg.upd_out rfl ?_
  exact Chg.refl _ _


theorem State.replyTo_chg (x0 : State) (x1 : Nat) (x2 : Nat) (x3 : Nat) (x4 : Nat) (x5 : List Nat) :
    Chg 0x800 x0 (State.replyTo x0 x1 x2 x3 x4 x5) := by
  unfold State.replyTo
  refine Chg.ite ?_ ?_
  · refine Chg.step (State.emit_chg _ _) rfl ?_
    exact Chg.refl _ _
  · exact Chg.refl _ _


theorem State.replyLong_chg (x0 : State) (x1 : Nat) (x2 : Nat) (x3 : Nat) (x4 : Nat) (x5 : List Nat) :
    Chg 0x800 x0 (State.replyLong x0 x1 x2 x3 x4 x5) := by
  unfold State.replyLong
  extract_lets w1 w2
  clear_value w1
  refine Chg.step (State.replyTo_chg _ _ _ _ _ _) rfl ?_
  refine Chg.upd_out rfl ?_
  exact Chg.refl _ _


theorem State.notifyHost_chg (x0 : State) (x1 : Nat) :
    Chg 0x400000 x0 (State.notifyHost x0 x1) := by
  unfold State.notifyHost
  extract_lets w1
  clear_value w1
  refine Chg.ite ?_ ?_
  · refine Chg.upd_mgmt rfl ?_
    exact Chg.refl _ _
  · exact Chg.refl _ _


theorem State.log_chg (x0 : State) (x1 : Ev) :
    Chg 0x20000400908 x0 (State.log x0 x1) := by
  unfold State.log
  extract_lets w1 w2 t3 t4 t5 w6 w7 t8
  clear_value w1
  clear_value w2
  have ht3 : Chg 0x20000400908 x0 t3 := by
    unfold t3
    refine Chg.ite ?_ ?_
    · refine Chg.step (State.count_chg _ _ _) rfl ?_
      exact Chg.refl _ _
    · exact Chg.refl _ _
  clear_value t3
  have ht4 : Chg 0x20000400908 x0 t4 := by
    unfold t4
    refine Chg.upd_events rfl ?_
    assumption
  clear_value t4
  have ht5 : Chg 0x20000400908 x0 t5 := by
    unfold t5
    refine Chg.step (State.fset_chg _ _ _ _) rfl ?_
    assumption
  clear_value t5
  clear_value w6
  clear_value w7
  have ht8 : Chg 0x20000400908 x0 t8 := by
    unfold t8
    refine Chg.upd_out_mgmt rfl rfl ?_
    assumption
  clear_value t8
  refine Chg.step (State.notifyHost_chg _ _) rfl ?_
  assumption


theorem State.logRate_chg (x0 : State) (x1 : Nat) (x2 : Nat) (x3 : Ev) :
    Chg 0x20000400f08 x0 (State.logRate x0 x1 x2 x3) := by
  unfold State.logRate
  extract_lets w1 w2 t3 t4
  clear_value w1
  clear_value w2
  have ht3 : Chg 0x20000400f08 x0 t3 := by
    unfold t3
    refine Chg.step (State.log_chg _ _) rfl ?_
    exact Chg.refl _ _
  clear_value t3
  have ht4 : Chg 0x20000400f08 x0 t4 := by
    unfold t4
    refine Chg.step (State.log_chg _ _) rfl ?_
    exact Chg.refl _ _
  clear_value t4
  split
  · refine Chg.ite ?_ ?_
    · refine Chg.upd_heldLog rfl ?_
      exact Chg.refl _ _
    · refine Chg.upd_lastLog_heldLog rfl rfl ?_
      assumption
  · refine Chg.upd_lastLog rfl ?_
    assumption


theorem State.logDue_chg (x0 : State) :
    Chg 0x20000400f08 x0 (State.logDue x0) := by
  unfold State.logDue
  refine Chg.foldl ?_ ?_
  · intro u1 u2 u3
    extract_lets t4
    have ht4 : Chg 0x20000400f08 x0 t4 := by
      unfold t4
      refine Chg.step (State.log_chg _ _) rfl ?_
      assumption
    clear_value t4
    refine Chg.upd_lastLog_heldLog rfl rfl ?_
    assumption
  · exact Chg.refl _ _


theorem State.setEngine_chg (x0 : State) (x1 : Nat) (x2 : Nat) (x3 : Engine) :
    Chg 0x1000 x0 (State.setEngine x0 x1 x2 x3) := by
  unfold State.setEngine
  refine Chg.upd_engines rfl ?_
  exact Chg.refl _ _


theorem State.setTile_chg (x0 : State) (x1 : Nat) (x2 : Nat) (x3 : Tile) :
    Chg 0x2000 x0 (State.setTile x0 x1 x2 x3) := by
  unfold State.setTile
  refine Chg.upd_tiles rfl ?_
  exact Chg.refl _ _


theorem State.setRst_chg (x0 : State) (x1 : Nat) (x2 : Restorer) :
    Chg 0x4000 x0 (State.setRst x0 x1 x2) := by
  unfold State.setRst
  refine Chg.upd_rst rfl ?_
  exact Chg.refl _ _


theorem State.setCore_chg (x0 : State) (x1 : Nat) (x2 : CoreSt) :
    Chg 0x8000 x0 (State.setCore x0 x1 x2) := by
  unfold State.setCore
  refine Chg.upd_cores rfl ?_
  exact Chg.refl _ _


theorem State.setSeq_chg (x0 : State) (x1 : Nat) (x2 : Sequencer) :
    Chg 0x10000 x0 (State.setSeq x0 x1 x2) := by
  unfold State.setSeq
  refine Chg.upd_seqs rfl ?_
  exact Chg.refl _ _


theorem State.sramWrite_chg (x0 : State) (x1 : Nat) (x2 : Nat) (x3 : List Nat) :
    Chg 0x20000 x0 (State.sramWrite x0 x1 x2 x3) := by
  unfold State.sramWrite
  refine Chg.upd_sram rfl ?_ ?_
  · exact cellWrite_wf _ _ _
  · exact Chg.refl _ _


theorem State.dramWrite_chg (x0 : State) (x1 : Nat) (x2 : List Nat) :
    Chg 0x100000 x0 (State.dramWrite x0 x1 x2) := by
  unfold State.dramWrite
  refine Chg.upd_dram rfl ?_ ?_
  · exact cellWrite_wf _ _ _
  · exact Chg.refl _ _


theorem State.pagedWrite_chg (x0 : State) (x1 : Paged) (x2 : List Nat) :
    Chg 0x100000 x0 (State.pagedWrite x0 x1 x2) := by
  unfold State.pagedWrite
  refine Chg.foldl ?_ ?_
  · intro u1 u2 u3
    refine Chg.step (State.dramWrite_chg _ _ _) rfl ?_
    assumption
  · exact Chg.refl _ _


theorem State.post_chg (x0 : State) (x1 : Packet) :
    Chg 0x80000 x0 (State.post x0 x1) := by
  unfold State.post
  extract_lets w1 w2
  clear_value w1
  clear_value w2
  refine Chg.upd_fab rfl ?_
  exact Chg.refl _ _


theorem State.postHeld_chg (x0 : State) (x1 : Packet) :
    Chg 0x80000 x0 (State.postHeld x0 x1) := by
  unfold State.postHeld
  extract_lets w1 w2 w3
  clear_value w1
  clear_value w2
  clear_value w3
  refine Chg.upd_fab rfl ?_
  exact Chg.refl _ _


theorem State.toPeer_chg (x0 : State) (x1 : Packet) :
    Chg 0x80000 x0 (State.toPeer x0 x1) := by
  unfold State.toPeer
  extract_lets w1 w2 w3
  clear_value w1
  clear_value w2
  clear_value w3
  refine Chg.upd_fab rfl ?_
  exact Chg.refl _ _


theorem State.unpost_chg (x0 : State) (x1 : Nat) :
    Chg 0x80000 x0 (State.unpost x0 x1) := by
  unfold State.unpost
  extract_lets w1
  clear_value w1
  refine Chg.upd_fab rfl ?_
  exact Chg.refl _ _


theorem State.receipt_chg (x0 : State) (x1 : Packet) (x2 : Bool) :
    Chg 0x80000 x0 (State.receipt x0 x1 x2) := by
  unfold State.receipt
  extract_lets w1 w2
  clear_value w1
  clear_value w2
  refine Chg.ite ?_ ?_
  · refine Chg.step (State.toPeer_chg _ _) rfl ?_
    exact Chg.refl _ _
  · refine Chg.step (State.post_chg _ _) rfl ?_
    exact Chg.refl _ _


theorem State.setModel_chg (x0 : State) (x1 : Model) :
    Chg 0x40000 x0 (State.setModel x0 x1) := by
  unfold State.setModel
  refine Chg.upd_models rfl ?_
  exact Chg.refl _ _


theorem State.setEpoch_chg (x0 : State) (x1 : Nat) (x2 : EpochSt) :
    Chg 0x80000 x0 (State.setEpoch x0 x1 x2) := by
  unfold State.setEpoch
  extract_lets w1
  clear_value w1
  refine Chg.upd_fab rfl ?_
  exact Chg.refl _ _


theorem State.setEntryEpoch_chg (x0 : State) (x1 : Nat) (x2 : EpochSt) :
    Chg 0x80000 x0 (State.setEntryEpoch x0 x1 x2) := by
  unfold State.setEntryEpoch
  extract_lets w1
  clear_value w1
  refine Chg.upd_fab rfl ?_
  exact Chg.refl _ _


theorem State.newEpoch_chg (x0 : State) (x1 : Nat) (x2 : Nat) :
    Chg 0x80000 x0 (State.newEpoch x0 x1 x2) := by
  unfold State.newEpoch
  refine Chg.step (State.setEntryEpoch_chg _ _ _) rfl ?_
  refine Chg.step (State.setEpoch_chg _ _ _) rfl ?_
  exact Chg.refl _ _


theorem State.rewriteRow_chg (x0 : State) (x1 : Nat) (x2 : Nat) (x3 : Nat) (x4 : List Nat) :
    Chg 0x1000 x0 (State.rewriteRow x0 x1 x2 x3 x4) := by
  unfold State.rewriteRow
  extract_lets w1 w2 w3 w4
  clear_value w1
  clear_value w2
  clear_value w3
  clear_value w4
  refine Chg.step (State.setEngine_chg _ _ _ _) rfl ?_
  exact Chg.refl _ _


theorem State.satLast_chg (x0 : State) (x1 : Nat) (x2 : Nat) (x3 : Nat) (x4 : Nat) (x5 : Nat) (x6 : Bool) (x7 : Bool) (x8 : Bool) :
    Chg 0x800000000008 x0 (State.satLast x0 x1 x2 x3 x4 x5 x6 x7 x8) := by
  unfold State.satLast
  extract_lets w1 t2 t3 t4 t5 t6 t7
  clear_value w1
  have ht2 : Chg 0x800000000008 x0 t2 := by
    unfold t2
    refine Chg.step (State.fset_chg _ _ _ _) rfl ?_
    exact Chg.refl _ _
  clear_value t2
  have ht3 : Chg 0x800000000008 x0 t3 := by
    unfold t3
    refine Chg.step (State.fset_chg _ _ _ _) rfl ?_
    assumption
  clear_value t3
  have ht4 : Chg 0x800000000008 x0 t4 := by
    unfold t4
    refine Chg.step (State.fset_chg _ _ _ _) rfl ?_
    assumption
  clear_value t4
  have ht5 : Chg 0x800000000008 x0 t5 := by
    unfold t5
    refine Chg.step (State.fset_chg _ _ _ _) rfl ?_
    assumption
  clear_value t5
  have ht6 : Chg 0x800000000008 x0 t6 := by
    unfold t6
    refine Chg.step (State.fset_chg _ _ _ _) rfl ?_
    assumption
  clear_value t6
  have ht7 : Chg 0x800000000008 x0 t7 := by
    unfold t7
    refine Chg.step (State.fset_chg _ _ _ _) rfl ?_
    assumption
  clear_value t7
  refine Chg.step (State.fset_chg _ _ _ _) rfl ?_
  assumption


theorem State.clip_chg (x0 : State) (x1 : Nat) (x2 : Nat) (x3 : Nat) (x4 : Nat) (x5 : Nat) (x6 : Bool) (x7 : Bool) (x8 : Bool) :
    Chg 0x820000400f08 x0 (State.clip x0 x1 x2 x3 x4 x5 x6 x7 x8) := by
  unfold State.clip
  extract_lets w1 t2 t3 t4 t5
  clear_value w1
  have ht2 : Chg 0x820000400f08 x0 t2 := by
    unfold t2
    refine Chg.step (State.count_chg _ _ _) rfl ?_
    exact Chg.refl _ _
  clear_value t2
  have ht3 : Chg 0x820000400f08 x0 t3 := by
    unfold t3
    refine Chg.ite ?_ ?_
    · refine Chg.step (State.count_chg _ _ _) rfl ?_
      assumption
    · assumption
  clear_value t3
  have ht4 : Chg 0x820000400f08 x0 t4 := by
    unfold t4
    refine Chg.step (State.flag_chg _ _ _) rfl ?_
    assumption
  clear_value t4
  have ht5 : Chg 0x820000400f08 x0 t5 := by
    unfold t5
    refine Chg.step (State.satLast_chg _ _ _ _ _ _ _ _ _) rfl ?_
    assumption
  clear_value t5
  refine Chg.step (State.logRate_chg _ _ _ _) rfl ?_
  assumption


theorem State.setSlip_chg (x0 : State) (x1 : Nat) (x2 : Nat) (x3 : Nat) (x4 : Nat) :
    Chg 0x800000000008 x0 (State.setSlip x0 x1 x2 x3 x4) := by
  unfold State.setSlip
  extract_lets w1 w2 w3 t4
  clear_value w1
  clear_value w2
  clear_value w3
  have ht4 : Chg 0x800000000008 x0 t4 := by
    unfold t4
    refine Chg.step (State.fset_chg _ _ _ _) rfl ?_
    exact Chg.refl _ _
  clear_value t4
  refine Chg.ite ?_ ?_
  · refine Chg.step (State.fset_chg _ _ _ _) rfl ?_
    assumption
  · assumption


theorem State.advance_chg (x0 : State) (x1 : Nat) (x2 : Nat) :
    Chg 0x800000001008 x0 (State.advance x0 x1 x2) := by
  unfold State.advance
  extract_lets w1 w2
  clear_value w1
  clear_value w2
  split
  · extract_lets t3 w4
    have ht3 : Chg 0x800000001008 x0 t3 := by
      unfold t3
      refine Chg.ite ?_ ?_
      · refine Chg.step (State.setSlip_chg _ _ _ _ _) rfl ?_
        exact Chg.refl _ _
      · exact Chg.refl _ _
    clear_value t3
    clear_value w4
    refine Chg.ite ?_ ?_
    · refine Chg.step (State.setEngine_chg _ _ _ _) rfl ?_
      assumption
    · exact Chg.refl _ _
  · extract_lets w5
    clear_value w5
    refine Chg.ite ?_ ?_
    · refine Chg.step (State.setEngine_chg _ _ _ _) rfl ?_
      exact Chg.refl _ _
    · exact Chg.refl _ _
  · exact Chg.refl _ _


theorem State.writeScratch_chg (x0 : State) (x1 : Nat) (x2 : Nat) (x3 : RowWrite) :
    Chg 0x80000009008 x0 (State.writeScratch x0 x1 x2 x3) := by
  unfold State.writeScratch
  extract_lets w1 t2 w3 w4 t5
  clear_value w1
  have ht2 : Chg 0x80000009008 x0 t2 := by
    unfold t2
    refine Chg.step (State.setEngine_chg _ _ _ _) rfl ?_
    exact Chg.refl _ _
  clear_value t2
  clear_value w3
  clear_value w4
  have ht5 : Chg 0x80000009008 x0 t5 := by
    unfold t5
    refine Chg.step (State.setCore_chg _ _ _) rfl ?_
    assumption
  clear_value t5
  refine Chg.ite ?_ ?_
  · assumption
  · refine Chg.step (State.count_chg _ _ _) rfl ?_
    assumption


theorem State.writeWindow_chg (x0 : State) (x1 : Nat) (x2 : Nat) :
    Chg 0x80000009008 x0 (State.writeWindow x0 x1 x2) := by
  unfold State.writeWindow
  split
  · exact Chg.refl _ _
  · extract_lets w1 t2
    clear_value w1
    have ht2 : Chg 0x80000009008 x0 t2 := by
      unfold t2
      refine Chg.step (State.setEngine_chg _ _ _ _) rfl ?_
      exact Chg.refl _ _
    clear_value t2
    refine Chg.foldl ?_ ?_
    · intro u3 u4 u5
      refine Chg.step (State.writeScratch_chg _ _ _ _) rfl ?_
      assumption
    · assumption


theorem State.idleWindow_chg (x0 : State) (x1 : Nat) (x2 : Nat) :
    Chg 0x80000009008 x0 (State.idleWindow x0 x1 x2) := by
  unfold State.idleWindow
  extract_lets w1 w2 w3 t4
  clear_value w1
  clear_value w2
  clear_value w3
  have ht4 : Chg 0x80000009008 x0 t4 := by
    unfold t4
    refine Chg.step (State.setCore_chg _ _ _) rfl ?_
    exact Chg.refl _ _
  clear_value t4
  refine Chg.foldl ?_ ?_
  · intro u5 u6 u7
    refine Chg.step (State.writeScratch_chg _ _ _ _) rfl ?_
    assumption
  · assumption


theorem State.satRecords_chg (x0 : State) (x1 : Nat) (x2 : Nat) (x3 : Nat) (x4 : SatDecision) (x5 : SatDecision) (x6 : List Nat) (x7 : List Nat) :
    Chg 0x820000400f08 x0 (State.satRecords x0 x1 x2 x3 x4 x5 x6 x7) := by
  unfold State.satRecords
  extract_lets w1 w2 w3 t4
  clear_value w3
  have ht4 : Chg 0x820000400f08 x0 t4 := by
    unfold t4
    refine Chg.ite ?_ ?_
    · unfold w1
      split
      · refine Chg.step (State.satLast_chg _ _ _ _ _ _ _ _ _) rfl ?_
        split
        · refine Chg.step (State.satLast_chg _ _ _ _ _ _ _ _ _) rfl ?_
          exact Chg.refl _ _
        · exact Chg.refl _ _
      · split
        · refine Chg.step (State.satLast_chg _ _ _ _ _ _ _ _ _) rfl ?_
          exact Chg.refl _ _
        · exact Chg.refl _ _
    · unfold w1
      split
      · refine Chg.step (State.satLast_chg _ _ _ _ _ _ _ _ _) rfl ?_
        split
        · refine Chg.step (State.satLast_chg _ _ _ _ _ _ _ _ _) rfl ?_
          exact Chg.refl _ _
        · exact Chg.refl _ _
      · split
        · refine Chg.step (State.satLast_chg _ _ _ _ _ _ _ _ _) rfl ?_
          exact Chg.refl _ _
        · exact Chg.refl _ _
  clear_value t4
  refine Chg.ite ?_ ?_
  · unfold w2
    split
    · refine Chg.step (State.clip_chg _ _ _ _ _ _ _ _ _) rfl ?_
      split
      · refine Chg.step (State.clip_chg _ _ _ _ _ _ _ _ _) rfl ?_
        assumption
      · assumption
    · split
      · refine Chg.step (State.clip_chg _ _ _ _ _ _ _ _ _) rfl ?_
        assumption
      · assumption
  · unfold w2
    split
    · refine Chg.step (State.clip_chg _ _ _ _ _ _ _ _ _) rfl ?_
      split
      · refine Chg.step (State.clip_chg _ _ _ _ _ _ _ _ _) rfl ?_
        assumption
      · assumption
    · split
      · refine Chg.step (State.clip_chg _ _ _ _ _ _ _ _ _) rfl ?_
        assumption
      · assumption


theorem State.issuePlane_chg (x0 : State) (x1 : Nat) (x2 : Nat) (x3 : EngVec) (x4 : Nat) (x5 : Nat) (x6 : Bool) :
    Chg 0xca0000409f0c x0 (State.issuePlane x0 x1 x2 x3 x4 x5 x6) := by
  unfold State.issuePlane
  extract_lets w1 w2 w3 w4 w5 w6 w7 w8 w9 w10 w11 w12 w13 w14 w15 w16 w17 w18 w19 w20 w21 w22 w23 w24 w25 w26 w27 t28 t29 t30 t31 t32 t33 t34 t35 t36
  clear_value w1
  clear_value w2
  clear_value w3
  clear_value w4
  clear_value w5
  clear_value w8
  clear_value w9
  clear_value w10
  clear_value w11
  clear_value w12
  clear_value w13
  clear_value w14
  clear_value w15
  clear_value w16
  clear_value w17
  clear_value w18
  clear_value w19
  clear_value w20
  clear_value w21
  clear_value w23
  clear_value w24
  clear_value w25
  clear_value w26
  clear_value w27
  have ht28 : Chg 0xca0000409f0c x0 t28 := by
    unfold t28
    refine Chg.step (State.draw_chg _ _) rfl ?_
    refine Chg.step (State.setEngine_chg _ _ _ _) rfl ?_
    exact Chg.refl _ _
  clear_value t28
  have ht29 : Chg 0xca0000409f0c x0 t29 := by
    unfold t29
    refine Chg.ite ?_ ?_
    · refine Chg.step (State.count_chg _ _ _) rfl ?_
      assumption
    · assumption
  clear_value t29
  have ht30 : Chg 0xca0000409f0c x0 t30 := by
    unfold t30
    refine Chg.step (State.countN_chg _ _ _ _) rfl ?_
    assumption
  clear_value t30
  have ht31 : Chg 0xca0000409f0c x0 t31 := by
    unfold t31
    refine Chg.step (State.count_chg _ _ _) rfl ?_
    assumption
  clear_value t31
  have ht32 : Chg 0xca0000409f0c x0 t32 := by
    unfold t32
    refine Chg.step (State.countN_chg _ _ _ _) rfl ?_
    assumption
  clear_value t32
  have ht33 : Chg 0xca0000409f0c x0 t33 := by
    unfold t33
    refine Chg.step (State.countN_chg _ _ _ _) rfl ?_
    assumption
  clear_value t33
  have ht34 : Chg 0xca0000409f0c x0 t34 := by
    unfold t34
    refine Chg.ite ?_ ?_
    · assumption
    · refine Chg.step (State.flag_chg _ _ _) rfl ?_
      assumption
  clear_value t34
  have ht35 : Chg 0xca0000409f0c x0 t35 := by
    unfold t35
    refine Chg.step (State.satRecords_chg _ _ _ _ _ _ _ _) rfl ?_
    assumption
  clear_value t35
  have ht36 : Chg 0xca0000409f0c x0 t36 := by
    unfold t36
    refine Chg.step (State.writeWindow_chg _ _ _) rfl ?_
    assumption
  clear_value t36
  refine Chg.ite ?_ ?_
  · refine Chg.step (State.setSlip_chg _ _ _ _ _) rfl ?_
    assumption
  · assumption


theorem State.runSplit_chg (x0 : State) (x1 : Nat) (x2 : Nat) (x3 : EngVec) (x4 : SplitReq) (x5 : List SplitReq) (x6 : Bool) :
    Chg 0xca0000409f0c x0 (State.runSplit x0 x1 x2 x3 x4 x5 x6) := by
  unfold State.runSplit
  extract_lets w1 w2 w3 w4 w5 w6 w7 w8 w9 w10 w11 w12 w13 w14 w15 w16 w17 w18 t19 t20 t21 t22 t23 t24 t25
  clear_value w1
  clear_value w2
  clear_value w3
  clear_value w4
  clear_value w5
  clear_value w6
  clear_value w7
  clear_value w8
  clear_value w9
  clear_value w10
  clear_value w11
  clear_value w12
  clear_value w13
  clear_value w14
  clear_value w15
  clear_value w16
  clear_value w17
  clear_value w18
  have ht19 : Chg 0xca0000409f0c x0 t19 := by
    unfold t19
    refine Chg.step (State.draw_chg _ _) rfl ?_
    refine Chg.step (State.setEngine_chg _ _ _ _) rfl ?_
    exact Chg.refl _ _
  clear_value t19
  have ht20 : Chg 0xca0000409f0c x0 t20 := by
    unfold t20
    refine Chg.ite ?_ ?_
    · refine Chg.step (State.count_chg _ _ _) rfl ?_
      assumption
    · assumption
  clear_value t20
  have ht21 : Chg 0xca0000409f0c x0 t21 := by
    unfold t21
    refine Chg.step (State.count_chg _ _ _) rfl ?_
    assumption
  clear_value t21
  have ht22 : Chg 0xca0000409f0c x0 t22 := by
    unfold t22
    refine Chg.step (State.count_chg _ _ _) rfl ?_
    assumption
  clear_value t22
  have ht23 : Chg 0xca0000409f0c x0 t23 := by
    unfold t23
    refine Chg.step (State.countN_chg _ _ _ _) rfl ?_
    assumption
  clear_value t23
  have ht24 : Chg 0xca0000409f0c x0 t24 := by
    unfold t24
    split
    · assumption
    · refine Chg.step (State.clip_chg _ _ _ _ _ _ _ _ _) rfl ?_
      assumption
  clear_value t24
  have ht25 : Chg 0xca0000409f0c x0 t25 := by
    unfold t25
    refine Chg.step (State.writeWindow_chg _ _ _) rfl ?_
    assumption
  clear_value t25
  refine Chg.ite ?_ ?_
  · refine Chg.step (State.setSlip_chg _ _ _ _ _) rfl ?_
    assumption
  · assumption


theorem State.accSat_chg (x0 : State) (x1 : Nat) (x2 : Nat) (x3 : Nat) :
    Chg 0x120000402f08 x0 (State.accSat x0 x1 x2 x3) := by
  unfold State.accSat
  extract_lets w1 t2 t3 t4
  clear_value w1
  have ht2 : Chg 0x120000402f08 x0 t2 := by
    unfold t2
    refine Chg.step (State.setTile_chg _ _ _ _) rfl ?_
    exact Chg.refl _ _
  clear_value t2
  have ht3 : Chg 0x120000402f08 x0 t3 := by
    unfold t3
    refine Chg.step (State.count_chg _ _ _) rfl ?_
    assumption
  clear_value t3
  have ht4 : Chg 0x120000402f08 x0 t4 := by
    unfold t4
    refine Chg.step (State.flag_chg _ _ _) rfl ?_
    assumption
  clear_value t4
  refine Chg.step (State.logRate_chg _ _ _ _) rfl ?_
  assumption


theorem State.addPass_chg (x0 : State) (x1 : Nat) (x2 : Nat) (x3 : Nat) (x4 : Nat) (x5 : Nat) (x6 : Nat) (x7 : Int) :
    Chg 0x120000402f08 x0 (State.addPass x0 x1 x2 x3 x4 x5 x6 x7) := by
  unfold State.addPass
  extract_lets w1 w2 w3
  clear_value w1
  clear_value w2
  clear_value w3
  split
  extract_lets t4
  have ht4 : Chg 0x120000402f08 x0 t4 := by
    unfold t4
    refine Chg.step (State.setTile_chg _ _ _ _) rfl ?_
    exact Chg.refl _ _
  clear_value t4
  refine Chg.ite ?_ ?_
  · refine Chg.step (State.accSat_chg _ _ _ _) rfl ?_
    assumption
  · assumption


theorem State.accumulate_chg (x0 : State) (x1 : Nat) (x2 : Nat) (x3 : EngVec) :
    Chg 0x120000402f08 x0 (State.accumulate x0 x1 x2 x3) := by
  unfold State.accumulate
  extract_lets w1 w2 t3 w4 w5 w6
  clear_value w1
  clear_value w2
  have ht3 : Chg 0x120000402f08 x0 t3 := by
    unfold t3
    refine Chg.foldl ?_ ?_
    · intro u7 u8 u9
      refine Chg.step (State.addPass_chg _ _ _ _ _ _ _ _) rfl ?_
      assumption
    · exact Chg.refl _ _
  clear_value t3
  clear_value w4
  clear_value w5
  clear_value w6
  refine Chg.step (State.setTile_chg _ _ _ _) rfl ?_
  assumption


theorem State.retireVec_chg (x0 : State) (x1 : Nat) (x2 : Nat) (x3 : EngVec) :
    Chg 0x800000001008 x0 (State.retireVec x0 x1 x2 x3) := by
  unfold State.retireVec
  extract_lets w1 w2 t3 t4
  clear_value w1
  clear_value w2
  have ht3 : Chg 0x800000001008 x0 t3 := by
    unfold t3
    refine Chg.step (State.count_chg _ _ _) rfl ?_
    exact Chg.refl _ _
  clear_value t3
  have ht4 : Chg 0x800000001008 x0 t4 := by
    unfold t4
    refine Chg.step (State.setEngine_chg _ _ _ _) rfl ?_
    assumption
  clear_value t4
  split
  · refine Chg.step (State.setEngine_chg _ _ _ _) rfl ?_
    assumption
  · refine Chg.ite ?_ ?_
    · refine Chg.step (State.setSlip_chg _ _ _ _ _) rfl ?_
      assumption
    · assumption


theorem execVectorComplete_chg (x0 : Nat) (x1 : Nat) (x2 : State) :
    ChgR 0x920000403f08 x2 (execVectorComplete x0 x1 x2) := by
  unfold execVectorComplete
  split
  · refine ChgR.next ?_
    exact Chg.refl _ _
  · extract_lets t1 t2 t3
    have ht1 : Chg 0x920000403f08 x2 t1 := by
      unfold t1
      refine Chg.step (State.accumulate_chg _ _ _ _) rfl ?_
      exact Chg.refl _ _
    clear_value t1
    have ht2 : Chg 0x920000403f08 x2 t2 := by
      unfold t2
      refine Chg.step (State.countN_chg _ _ _ _) rfl ?_
      assumption
    clear_value t2
    have ht3 : Chg 0x920000403f08 x2 t3 := by
      unfold t3
      refine Chg.step (State.retireVec_chg _ _ _ _) rfl ?_
      assumption
    clear_value t3
    refine ChgR.ite ?_ ?_
    · refine ChgR.next ?_
      exact Chg.refl _ _
    · refine ChgR.next ?_
      refine Chg.step (State.advance_chg _ _ _) rfl ?_
      assumption


theorem execEngCfgWrite_chg (x0 : Nat) (x1 : Nat) (x2 : Nat) (x3 : State) :
    ChgR 0x820000400908 x3 (execEngCfgWrite x0 x1 x2 x3) := by
  unfold execEngCfgWrite
  extract_lets w1 t2 t3 t4 t5 t6
  clear_value w1
  have ht2 : Chg 0x820000400908 x3 t2 := by
    unfold t2
    refine Chg.step (State.fset_chg _ _ _ _) rfl ?_
    exact Chg.refl _ _
  clear_value t2
  have ht3 : Chg 0x820000400908 x3 t3 := by
    unfold t3
    refine Chg.step (State.fset_chg _ _ _ _) rfl ?_
    assumption
  clear_value t3
  have ht4 : Chg 0x820000400908 x3 t4 := by
    unfold t4
    refine Chg.step (State.fset_chg _ _ _ _) rfl ?_
    assumption
  clear_value t4
  have ht5 : Chg 0x820000400908 x3 t5 := by
    unfold t5
    refine Chg.step (State.fset_chg _ _ _ _) rfl ?_
    assumption
  clear_value t5
  have ht6 : Chg 0x820000400908 x3 t6 := by
    unfold t6
    refine Chg.step (State.fset_chg _ _ _ _) rfl ?_
    assumption
  clear_value t6
  refine ChgR.ite ?_ ?_
  · refine ChgR.next ?_
    exact Chg.refl _ _
  · refine ChgR.ite ?_ ?_
    · refine ChgR.next ?_
      refine Chg.step (State.log_chg _ _) rfl ?_
      refine Chg.step (State.flag_chg _ _ _) rfl ?_
      exact Chg.refl _ _
    · refine ChgR.ite ?_ ?_
      · refine ChgR.next ?_
        refine Chg.step (State.fset_chg _ _ _ _) rfl ?_
        assumption
      · refine ChgR.next ?_
        refine Chg.step (State.log_chg _ _) rfl ?_
        refine Chg.step (State.flag_chg _ _ _) rfl ?_
        exact Chg.refl _ _


theorem State.l2Add_chg (x0 : State) (x1 : Nat) (x2 : Nat) (x3 : Nat) (x4 : Int) :
    Chg 0x120000402f08 x0 (State.l2Add x0 x1 x2 x3 x4) := by
  unfold State.l2Add
  extract_lets w1
  clear_value w1
  split
  extract_lets t2
  have ht2 : Chg 0x120000402f08 x0 t2 := by
    unfold t2
    refine Chg.step (State.setTile_chg _ _ _ _) rfl ?_
    exact Chg.refl _ _
  clear_value t2
  refine Chg.ite ?_ ?_
  · refine Chg.step (State.accSat_chg _ _ _ _) rfl ?_
    assumption
  · assumption


theorem execTransferSweep_chg (x0 : Nat) (x1 : Nat) (x2 : State) :
    ChgR 0x120000402f08 x2 (execTransferSweep x0 x1 x2) := by
  unfold execTransferSweep
  extract_lets w1 w2 w3 t4 t5 w6
  clear_value w1
  clear_value w2
  clear_value w3
  have ht4 : Chg 0x120000402f08 x2 t4 := by
    unfold t4
    refine Chg.foldl ?_ ?_
    · intro u7 u8 u9
      refine Chg.step (State.l2Add_chg _ _ _ _ _) rfl ?_
      assumption
    · exact Chg.refl _ _
  clear_value t4
  have ht5 : Chg 0x120000402f08 x2 t5 := by
    unfold t5
    refine Chg.step (State.setTile_chg _ _ _ _) rfl ?_
    assumption
  clear_value t5
  clear_value w6
  refine ChgR.ite ?_ ?_
  · refine ChgR.next ?_
    refine Chg.step (State.setTile_chg _ _ _ _) rfl ?_
    assumption
  · refine ChgR.next ?_
    exact Chg.refl _ _


theorem State.nextSeed_chg (x0 : State) (x1 : Nat) :
    Chg 0x100000000008 x0 (State.nextSeed x0 x1).2 := by
  unfold State.nextSeed
  extract_lets w1 w2 t3
  clear_value w1
  clear_value w2
  have ht3 : Chg 0x100000000008 x0 t3 := by
    unfold t3
    refine Chg.step (State.fset_chg _ _ _ _) rfl ?_
    exact Chg.refl _ _
  clear_value t3
  refine Chg.snd_mk ?_
  refine Chg.step (State.fset_chg _ _ _ _) rfl ?_
  assumption


theorem State.beginTile_chg (x0 : State) (x1 : Nat) (x2 : Nat) (x3 : Option Nat) (x4 : Bool) (x5 : Nat) (x6 : Nat) :
    Chg 0x120000402908 x0 (State.beginTile x0 x1 x2 x3 x4 x5 x6) := by
  unfold State.beginTile
  split
  extract_lets t1 w2 w3 w4 w5 w6 w7 w8 w9
  have ht1 : Chg 0x120000402908 x0 t1 := by
    unfold t1
    refine Chg.step (State.fset_chg _ _ _ _) rfl ?_
    refine Chg.of_snd (by assumption) ?_
    refine Chg.step (State.nextSeed_chg _ _) rfl ?_
    exact Chg.refl _ _
  clear_value t1
  clear_value w2
  clear_value w3
  clear_value w4
  clear_value w5
  clear_value w6
  clear_value w7
  clear_value w8
  clear_value w9
  split
  · refine Chg.step (State.setTile_chg _ _ _ _) rfl ?_
    assumption
  · extract_lets w10 w11 w12 t13 t14 t15 w16 w17 w18 t19
    clear_value w10
    clear_value w11
    clear_value w12
    have ht13 : Chg 0x120000402908 x0 t13 := by
      unfold t13
      refine Chg.step (State.setTile_chg _ _ _ _) rfl ?_
      assumption
    clear_value t13
    have ht14 : Chg 0x120000402908 x0 t14 := by
      unfold t14
      refine Chg.step (State.count_chg _ _ _) rfl ?_
      assumption
    clear_value t14
    have ht15 : Chg 0x120000402908 x0 t15 := by
      unfold t15
      refine Chg.step (State.flag_chg _ _ _) rfl ?_
      assumption
    clear_value t15
    clear_value w16
    clear_value w17
    clear_value w18
    have ht19 : Chg 0x120000402908 x0 t19 := by
      unfold t19
      refine Chg.step (State.setTile_chg _ _ _ _) rfl ?_
      assumption
    clear_value t19
    refine Chg.ite ?_ ?_
    · refine Chg.step (State.setTile_chg _ _ _ _) rfl ?_
      assumption
    · refine Chg.ite ?_ ?_
      · refine Chg.step (State.setTile_chg _ _ _ _) rfl ?_
        assumption
      · refine Chg.ite ?_ ?_
        · refine Chg.step (State.log_chg _ _) rfl ?_
          assumption
        · refine Chg.step (State.countN_chg _ _ _ _) rfl ?_
          assumption


theorem State.epiCounts_chg (x0 : State) (x1 : Nat) (x2 : Tab Nat) (x3 : List (Nat × ColOut)) :
    Chg 0x120000408f08 x0 (State.epiCounts x0 x1 x2 x3) := by
  unfold State.epiCounts
  extract_lets w1 w2 t3 t4 t5 w6
  clear_value w1
  clear_value w2
  have ht3 : Chg 0x120000408f08 x0 t3 := by
    unfold t3
    refine Chg.step (State.countN_chg _ _ _ _) rfl ?_
    exact Chg.refl _ _
  clear_value t3
  have ht4 : Chg 0x120000408f08 x0 t4 := by
    unfold t4
    refine Chg.step (State.countN_chg _ _ _ _) rfl ?_
    assumption
  clear_value t4
  have ht5 : Chg 0x120000408f08 x0 t5 := by
    unfold t5
    refine Chg.ite ?_ ?_
    · assumption
    · refine Chg.step (State.logRate_chg _ _ _ _) rfl ?_
      assumption
  clear_value t5
  clear_value w6
  refine Chg.step (State.setCore_chg _ _ _) rfl ?_
  assumption


theorem State.combineSums_chg (x0 : State) (x1 : Nat) (x2 : Nat) (x3 : Nat) (x4 : Nat) :
    Chg 0x28000 x0 (State.combineSums x0 x1 x2 x3 x4) := by
  unfold State.combineSums
  split
  · exact Chg.refl _ _
  · extract_lets w1 w2 w3 t4 w5
    clear_value w1
    clear_value w2
    clear_value w3
    have ht4 : Chg 0x28000 x0 t4 := by
      unfold t4
      refine Chg.step (State.setCore_chg _ _ _) rfl ?_
      exact Chg.refl _ _
    clear_value t4
    clear_value w5
    refine Chg.ite ?_ ?_
    · exact Chg.refl _ _
    · split
      · assumption
      · refine Chg.step (State.sramWrite_chg _ _ _ _) rfl ?_
        assumption


theorem State.reduce_chg (x0 : State) (x1 : Nat) (x2 : Desc) (x3 : DrainReq) (x4 : Nat) (x5 : FV) (x6 : FV) :
    Chg 0x28000 x0 (State.reduce x0 x1 x2 x3 x4 x5 x6) := by
  unfold State.reduce
  split
  · refine Chg.ite ?_ ?_
    · refine Chg.step (State.sramWrite_chg _ _ _ _) rfl ?_
      exact Chg.refl _ _
    · exact Chg.refl _ _
  · extract_lets w1 w2 t3
    clear_value w1
    clear_value w2
    have ht3 : Chg 0x28000 x0 t3 := by
      unfold t3
      refine Chg.step (State.setCore_chg _ _ _) rfl ?_
      exact Chg.refl _ _
    clear_value t3
    refine Chg.ite ?_ ?_
    · refine Chg.ite ?_ ?_
      · refine Chg.step (State.sramWrite_chg _ _ _ _) rfl ?_
        exact Chg.refl _ _
      · exact Chg.refl _ _
    · refine Chg.ite ?_ ?_
      · refine Chg.step (State.combineSums_chg _ _ _ _ _) rfl ?_
        assumption
      · assumption


theorem State.deliverCols_chg (x0 : State) (x1 : Nat) (x2 : DrainReq) (x3 : Tab Nat) (x4 : List ((Nat × Nat × Nat) × ColOut)) :
    Chg 0x120000428f08 x0 (State.deliverCols x0 x1 x2 x3 x4) := by
  unfold State.deliverCols
  extract_lets w1 w2 w3 t4 t5 w6 w7
  clear_value w1
  clear_value w2
  clear_value w3
  have ht4 : Chg 0x120000428f08 x0 t4 := by
    unfold t4
    refine Chg.step (State.sramWrite_chg _ _ _ _) rfl ?_
    exact Chg.refl _ _
  clear_value t4
  have ht5 : Chg 0x120000428f08 x0 t5 := by
    unfold t5
    refine Chg.step (State.epiCounts_chg _ _ _ _) rfl ?_
    assumption
  clear_value t5
  clear_value w6
  clear_value w7
  refine Chg.step (State.reduce_chg _ _ _ _ _ _ _) rfl ?_
  assumption


theorem State.drainValues_chg (x0 : State) (x1 : Nat) (x2 : Nat) (x3 : List (Nat × Nat × Nat)) :
    Chg 0x120000402f08 x0 (State.drainValues x0 x1 x2 x3).2 := by
  unfold State.drainValues
  extract_lets w1
  clear_value w1
  refine Chg.snd_mk ?_
  refine Chg.foldl ?_ ?_
  · intro u2 u3 u4
    refine Chg.step (State.accSat_chg _ _ _ _) rfl ?_
    assumption
  · exact Chg.refl _ _


theorem State.epilogue_chg (x0 : State) (x1 : Nat) (x2 : Nat) (x3 : DrainReq) (x4 : List (Nat × Nat × Nat)) :
    Chg 0x12000042af08 x0 (State.epilogue x0 x1 x2 x3 x4) := by
  unfold State.epilogue
  extract_lets w1
  clear_value w1
  split
  extract_lets w2
  clear_value w2
  refine Chg.step (State.deliverCols_chg _ _ _ _ _) rfl ?_
  refine Chg.of_snd (by assumption) ?_
  refine Chg.step (State.drainValues_chg _ _ _ _) rfl ?_
  exact Chg.refl _ _


theorem State.handOver_chg (x0 : State) (x1 : Nat) (x2 : Nat) (x3 : Nat) (x4 : DrainReq) (x5 : List (Nat × Nat × Nat)) :
    Chg 0x120000402f08 x0 (State.handOver x0 x1 x2 x3 x4 x5) := by
  unfold State.handOver
  extract_lets w1
  clear_value w1
  split
  extract_lets w2 w3 t4
  clear_value w2
  clear_value w3
  have ht4 : Chg 0x120000402f08 x0 t4 := by
    unfold t4
    refine Chg.step (State.countN_chg _ _ _ _) rfl ?_
    refine Chg.of_snd (by assumption) ?_
    refine Chg.step (State.drainValues_chg _ _ _ _) rfl ?_
    exact Chg.refl _ _
  clear_value t4
  refine Chg.step (State.setTile_chg _ _ _ _) rfl ?_
  assumption


theorem State.finishHanded_chg (x0 : State) (x1 : Nat) (x2 : Handed) :
    Chg 0x120000428f08 x0 (State.finishHanded x0 x1 x2) := by
  unfold State.finishHanded
  extract_lets w1 w2 w3 w4 w5 w6 t7 w8
  clear_value w1
  clear_value w2
  clear_value w3
  clear_value w4
  clear_value w5
  clear_value w6
  have ht7 : Chg 0x120000428f08 x0 t7 := by
    unfold t7
    refine Chg.step (State.countN_chg _ _ _ _) rfl ?_
    exact Chg.refl _ _
  clear_value t7
  clear_value w8
  refine Chg.step (State.deliverCols_chg _ _ _ _ _) rfl ?_
  assumption


theorem State.fallbackFinish_chg (x0 : State) (x1 : Nat) (x2 : Nat) :
    Chg 0x12000042af08 x0 (State.fallbackFinish x0 x1 x2) := by
  unfold State.fallbackFinish
  extract_lets w1 w2 t3 w4
  clear_value w2
  have ht3 : Chg 0x12000042af08 x0 t3 := by
    unfold t3
    refine Chg.foldl ?_ ?_
    · intro u5 u6 u7
      refine Chg.step (State.finishHanded_chg _ _ _) rfl ?_
      assumption
    · exact Chg.refl _ _
  clear_value t3
  clear_value w4
  refine Chg.step (State.setTile_chg _ _ _ _) rfl ?_
  assumption


theorem State.groupOut_chg (x0 : State) (x1 : Nat) (x2 : Nat) (x3 : DrainReq) (x4 : List (Nat × Nat × Nat)) :
    Chg 0x120000482f08 x0 (State.groupOut x0 x1 x2 x3 x4) := by
  unfold State.groupOut
  split
  · exact Chg.refl _ _
  · extract_lets w1 w2
    clear_value w1
    clear_value w2
    split
    extract_lets w3 w4 w5 w6 t7
    clear_value w3
    clear_value w4
    clear_value w5
    clear_value w6
    have ht7 : Chg 0x120000482f08 x0 t7 := by
      unfold t7
      refine Chg.step (State.postHeld_chg _ _) rfl ?_
      refine Chg.of_snd (by assumption) ?_
      refine Chg.step (State.drainValues_chg _ _ _ _) rfl ?_
      exact Chg.refl _ _
    clear_value t7
    refine Chg.step (State.setTile_chg _ _ _ _) rfl ?_
    assumption


theorem State.nextUse_chg (x0 : State) (x1 : Nat) (x2 : Nat) (x3 : DrainReq) :
    Chg 0x120000403908 x0 (State.nextUse x0 x1 x2 x3) := by
  unfold State.nextUse
  extract_lets t1
  have ht1 : Chg 0x120000403908 x0 t1 := by
    unfold t1
    refine Chg.step (State.beginTile_chg _ _ _ _ _ _ _) rfl ?_
    exact Chg.refl _ _
  clear_value t1
  refine Chg.foldl ?_ ?_
  · intro u2 u3 u4
    extract_lets w5
    clear_value w5
    split
    · refine Chg.ite ?_ ?_
      · refine Chg.step (State.setEngine_chg _ _ _ _) rfl ?_
        assumption
      · assumption
    · assumption
  · assumption


theorem State.sweepTile_chg (x0 : State) (x1 : Nat) (x2 : Nat) (x3 : DrainReq) :
    Chg 0x1200004abf08 x0 (State.sweepTile x0 x1 x2 x3) := by
  unfold State.sweepTile
  extract_lets w1 t2
  clear_value w1
  have ht2 : Chg 0x1200004abf08 x0 t2 := by
    unfold t2
    refine Chg.ite ?_ ?_
    · refine Chg.step (State.groupOut_chg _ _ _ _ _) rfl ?_
      exact Chg.refl _ _
    · split
      · refine Chg.step (State.fallbackFinish_chg _ _ _) rfl ?_
        refine Chg.step (State.handOver_chg _ _ _ _ _ _) rfl ?_
        exact Chg.refl _ _
      · refine Chg.step (State.epilogue_chg _ _ _ _ _) rfl ?_
        exact Chg.refl _ _
  clear_value t2
  refine Chg.step (State.nextUse_chg _ _ _ _) rfl ?_
  assumption


theorem State.runVop_chg (x0 : State) (x1 : Nat) (x2 : VopOp) (x3 : Nat) (x4 : Nat) (x5 : Nat) :
    Chg 0x8000002000c x0 (State.runVop x0 x1 x2 x3 x4 x5) := by
  unfold State.runVop
  extract_lets w1 t2
  clear_value w1
  have ht2 : Chg 0x8000002000c x0 t2 := by
    unfold t2
    refine Chg.step (State.draw_chg _ _) rfl ?_
    refine Chg.step (State.sramWrite_chg _ _ _ _) rfl ?_
    exact Chg.refl _ _
  clear_value t2
  refine Chg.step (State.countN_chg _ _ _ _) rfl ?_
  assumption


theorem State.setThread_chg (x0 : State) (x1 : Nat) (x2 : Sys2Proof.Thr) (x3 : Thread) :
    Chg 0x10000 x0 (State.setThread x0 x1 x2 x3) := by
  unfold State.setThread
  extract_lets w1
  clear_value w1
  split
  · refine Chg.step (State.setSeq_chg _ _ _) rfl ?_
    exact Chg.refl _ _
  · refine Chg.step (State.setSeq_chg _ _ _) rfl ?_
    exact Chg.refl _ _


theorem State.checkBreak_chg (x0 : State) (x1 : Nat) (x2 : Sys2Proof.Thr) :
    Chg 0x20000418908 x0 (State.checkBreak x0 x1 x2) := by
  unfold State.checkBreak
  extract_lets w1 w2 t3 t4
  clear_value w1
  clear_value w2
  have ht3 : Chg 0x20000418908 x0 t3 := by
    unfold t3
    refine Chg.step (State.setCore_chg _ _ _) rfl ?_
    exact Chg.refl _ _
  clear_value t3
  have ht4 : Chg 0x20000418908 x0 t4 := by
    unfold t4
    refine Chg.step (State.setThread_chg _ _ _ _) rfl ?_
    assumption
  clear_value t4
  refine Chg.ite ?_ ?_
  · refine Chg.step (State.log_chg _ _) rfl ?_
    assumption
  · exact Chg.refl _ _


theorem State.next_chg (x0 : State) (x1 : Nat) (x2 : Sys2Proof.Thr) :
    Chg 0x20000418908 x0 (State.next x0 x1 x2) := by
  unfold State.next
  extract_lets w1 w2
  clear_value w1
  clear_value w2
  refine Chg.step (State.checkBreak_chg _ _ _) rfl ?_
  refine Chg.step (State.setThread_chg _ _ _ _) rfl ?_
  exact Chg.refl _ _


theorem State.stall_chg (x0 : State) (x1 : Nat) (x2 : Sys2Proof.Thr) :
    Chg 0x10000 x0 (State.stall x0 x1 x2) := by
  unfold State.stall
  extract_lets w1
  clear_value w1
  refine Chg.step (State.setThread_chg _ _ _ _) rfl ?_
  exact Chg.refl _ _


theorem State.spillWait_chg (x0 : State) (x1 : Nat) (x2 : Sys2Proof.Thr) :
    Chg 0x80000010008 x0 (State.spillWait x0 x1 x2) := by
  unfold State.spillWait
  extract_lets t1
  have ht1 : Chg 0x80000010008 x0 t1 := by
    unfold t1
    refine Chg.ite ?_ ?_
    · exact Chg.refl _ _
    · refine Chg.step (State.count_chg _ _ _) rfl ?_
      exact Chg.refl _ _
  clear_value t1
  refine Chg.step (State.stall_chg _ _ _) rfl ?_
  assumption


theorem State.setAreg_chg (x0 : State) (x1 : Nat) (x2 : Nat) (x3 : Nat) :
    Chg 0x10000 x0 (State.setAreg x0 x1 x2 x3) := by
  unfold State.setAreg
  extract_lets w1
  clear_value w1
  refine Chg.ite ?_ ?_
  · exact Chg.refl _ _
  · refine Chg.step (State.setSeq_chg _ _ _) rfl ?_
    exact Chg.refl _ _


theorem execSeqNop_chg (x0 : Nat) (x1 : Sys2Proof.Thr) (x2 : State) :
    ChgR 0x20000418908 x2 (execSeqNop x0 x1 x2) := by
  unfold execSeqNop
  split
  · refine ChgR.next ?_
    exact Chg.refl _ _
  · refine ChgR.next ?_
    refine Chg.step (State.next_chg _ _ _) rfl ?_
    exact Chg.refl _ _


theorem execSeta_chg (x0 : Nat) (x1 : Sys2Proof.Thr) (x2 : State) :
    ChgR 0x20000418908 x2 (execSeta x0 x1 x2) := by
  unfold execSeta
  split
  · refine ChgR.next ?_
    exact Chg.refl _ _
  · extract_lets w1 w2
    clear_value w1
    clear_value w2
    refine ChgR.next ?_
    refine Chg.step (State.next_chg _ _ _) rfl ?_
    refine Chg.step (State.setAreg_chg _ _ _ _) rfl ?_
    exact Chg.refl _ _


theorem execAdda_chg (x0 : Nat) (x1 : Sys2Proof.Thr) (x2 : State) :
    ChgR 0x20000418908 x2 (execAdda x0 x1 x2) := by
  unfold execAdda
  split
  · refine ChgR.next ?_
    exact Chg.refl _ _
  · extract_lets w1 w2
    clear_value w1
    clear_value w2
    refine ChgR.next ?_
    refine Chg.step (State.next_chg _ _ _) rfl ?_
    refine Chg.step (State.setAreg_chg _ _ _ _) rfl ?_
    exact Chg.refl _ _


theorem execLoop_chg (x0 : Nat) (x1 : Sys2Proof.Thr) (x2 : State) :
    ChgR 0x20000418908 x2 (execLoop x0 x1 x2) := by
  unfold execLoop
  split
  · refine ChgR.next ?_
    exact Chg.refl _ _
  · extract_lets w1 w2
    clear_value w1
    clear_value w2
    refine ChgR.next ?_
    refine Chg.step (State.checkBreak_chg _ _ _) rfl ?_
    refine Chg.step (State.setThread_chg _ _ _ _) rfl ?_
    exact Chg.refl _ _


theorem State.stageEngine_chg (x0 : State) (x1 : Nat) (x2 : Nat) (x3 : Nat) (x4 : Thread) (x5 : Staged) (x6 : Nat) :
    Chg 0x9000 x0 (State.stageEngine x0 x1 x2 x3 x4 x5 x6) := by
  unfold State.stageEngine
  extract_lets w1 w2 w3 w4 w5 t6 w7
  clear_value w1
  clear_value w2
  clear_value w3
  clear_value w4
  clear_value w5
  have ht6 : Chg 0x9000 x0 t6 := by
    unfold t6
    refine Chg.step (State.setEngine_chg _ _ _ _) rfl ?_
    exact Chg.refl _ _
  clear_value t6
  clear_value w7
  refine Chg.step (State.setCore_chg _ _ _) rfl ?_
  assumption


theorem State.ackVec_chg (x0 : State) (x1 : Nat) (x2 : Nat) (x3 : Nat) (x4 : Nat) :
    Chg 0x88000 x0 (State.ackVec x0 x1 x2 x3 x4) := by
  unfold State.ackVec
  split
  · exact Chg.refl _ _
  · extract_lets w1 w2 t3 w4
    clear_value w2
    have ht3 : Chg 0x88000 x0 t3 := by
      unfold t3
      refine Chg.step (State.setCore_chg _ _ _) rfl ?_
      exact Chg.refl _ _
    clear_value t3
    clear_value w4
    split
    · exact Chg.refl _ _
    · refine Chg.ite ?_ ?_
      · exact Chg.refl _ _
      · refine Chg.ite ?_ ?_
        · assumption
        · refine Chg.step (State.post_chg _ _) rfl ?_
          assumption


theorem State.noteStaged_chg (x0 : State) (x1 : Nat) (x2 : Sys2Proof.Thr) :
    Chg 0x88000 x0 (State.noteStaged x0 x1 x2) := by
  unfold State.noteStaged
  extract_lets w1 w2
  clear_value w1
  clear_value w2
  refine Chg.ite ?_ ?_
  · exact Chg.refl _ _
  · refine Chg.step (State.ackVec_chg _ _ _ _ _) rfl ?_
    refine Chg.step (State.setCore_chg _ _ _) rfl ?_
    exact Chg.refl _ _


theorem State.runIssue_chg (x0 : State) (x1 : Nat) (x2 : Sys2Proof.Thr) (x3 : IssueOp) (x4 : List Nat) :
    Chg 0xa0000499f08 x0 (State.runIssue x0 x1 x2 x3 x4) := by
  unfold State.runIssue
  extract_lets w1 w2 w3 w4 t5 w6 t7 t8 w9 t10
  clear_value w1
  clear_value w2
  clear_value w3
  clear_value w4
  have ht5 : Chg 0xa0000499f08 x0 t5 := by
    unfold t5
    refine Chg.foldl ?_ ?_
    · intro u11 u12 u13
      refine Chg.step (State.stageEngine_chg _ _ _ _ _ _ _) rfl ?_
      assumption
    · exact Chg.refl _ _
  clear_value t5
  clear_value w6
  have ht7 : Chg 0xa0000499f08 x0 t7 := by
    unfold t7
    refine Chg.step (State.countN_chg _ _ _ _) rfl ?_
    assumption
  clear_value t7
  have ht8 : Chg 0xa0000499f08 x0 t8 := by
    unfold t8
    refine Chg.ite ?_ ?_
    · assumption
    · refine Chg.step (State.logRate_chg _ _ _ _) rfl ?_
      assumption
  clear_value t8
  clear_value w9
  have ht10 : Chg 0xa0000499f08 x0 t10 := by
    unfold t10
    refine Chg.step (State.setThread_chg _ _ _ _) rfl ?_
    assumption
  clear_value t10
  refine Chg.step (State.noteStaged_chg _ _ _) rfl ?_
  refine Chg.step (State.next_chg _ _ _) rfl ?_
  assumption


theorem execIssue_chg (x0 : Nat) (x1 : Sys2Proof.Thr) (x2 : State) :
    ChgR 0xa0000499f08 x2 (execIssue x0 x1 x2) := by
  unfold execIssue
  split
  · refine ChgR.next ?_
    exact Chg.refl _ _
  · extract_lets w1 w2
    clear_value w1
    clear_value w2
    refine ChgR.ite ?_ ?_
    · refine ChgR.next ?_
      refine Chg.step (State.spillWait_chg _ _ _) rfl ?_
      exact Chg.refl _ _
    · refine ChgR.ite ?_ ?_
      · refine ChgR.next ?_
        refine Chg.step (State.stall_chg _ _ _) rfl ?_
        exact Chg.refl _ _
      · refine ChgR.next ?_
        refine Chg.step (State.runIssue_chg _ _ _ _ _) rfl ?_
        exact Chg.refl _ _


theorem execDrain_chg (x0 : Nat) (x1 : Sys2Proof.Thr) (x2 : State) :
    ChgR 0x100000012008 x2 (execDrain x0 x1 x2) := by
  unfold execDrain
  split
  · refine ChgR.next ?_
    exact Chg.refl _ _
  · extract_lets w1 w2 w3 w4 w5 w6 t7 t8
    clear_value w1
    clear_value w2
    clear_value w3
    clear_value w4
    clear_value w5
    clear_value w6
    have ht7 : Chg 0x100000012008 x2 t7 := by
      unfold t7
      refine Chg.step (State.setTile_chg _ _ _ _) rfl ?_
      exact Chg.refl _ _
    clear_value t7
    have ht8 : Chg 0x100000012008 x2 t8 := by
      unfold t8
      refine Chg.ite ?_ ?_
      · refine Chg.step (State.count_chg _ _ _) rfl ?_
        assumption
      · assumption
    clear_value t8
    refine ChgR.ite ?_ ?_
    · refine ChgR.next ?_
      refine Chg.step (State.stall_chg _ _ _) rfl ?_
      exact Chg.refl _ _
    · refine ChgR.next ?_
      refine Chg.step (State.stall_chg _ _ _) rfl ?_
      refine Chg.step (State.setThread_chg _ _ _ _) rfl ?_
      assumption


theorem execScrw_chg (x0 : Nat) (x1 : Sys2Proof.Thr) (x2 : State) :
    ChgR 0xa0000418908 x2 (execScrw x0 x1 x2) := by
  unfold execScrw
  split
  · refine ChgR.next ?_
    exact Chg.refl _ _
  · extract_lets w1 w2 w3 w4 w5 w6 w7 t8 t9
    clear_value w1
    clear_value w2
    clear_value w3
    clear_value w4
    clear_value w5
    clear_value w6
    clear_value w7
    have ht8 : Chg 0xa0000418908 x2 t8 := by
      unfold t8
      refine Chg.step (State.setCore_chg _ _ _) rfl ?_
      exact Chg.refl _ _
    clear_value t8
    have ht9 : Chg 0xa0000418908 x2 t9 := by
      unfold t9
      refine Chg.step (State.countN_chg _ _ _ _) rfl ?_
      assumption
    clear_value t9
    refine ChgR.ite ?_ ?_
    · refine ChgR.next ?_
      refine Chg.step (State.spillWait_chg _ _ _) rfl ?_
      exact Chg.refl _ _
    · refine ChgR.next ?_
      refine Chg.step (State.next_chg _ _ _) rfl ?_
      assumption


theorem execVop_chg (x0 : Nat) (x1 : Sys2Proof.Thr) (x2 : State) :
    ChgR 0xa000043890c x2 (execVop x0 x1 x2) := by
  unfold execVop
  split
  · refine ChgR.next ?_
    exact Chg.refl _ _
  · extract_lets w1
    clear_value w1
    refine ChgR.ite ?_ ?_
    · refine ChgR.next ?_
      refine Chg.step (State.spillWait_chg _ _ _) rfl ?_
      exact Chg.refl _ _
    · refine ChgR.next ?_
      refine Chg.step (State.next_chg _ _ _) rfl ?_
      refine Chg.step (State.runVop_chg _ _ _ _ _ _) rfl ?_
      exact Chg.refl _ _


theorem State.setBuffer_chg (x0 : State) (x1 : Nat) (x2 : Buffer) :
    Chg 0x8000 x0 (State.setBuffer x0 x1 x2) := by
  unfold State.setBuffer
  extract_lets w1
  clear_value w1
  refine Chg.step (State.setCore_chg _ _ _) rfl ?_
  exact Chg.refl _ _


theorem execFetch_chg (x0 : Nat) (x1 : Sys2Proof.Thr) (x2 : State) :
    ChgR 0x20003498908 x2 (execFetch x0 x1 x2) := by
  unfold execFetch
  split
  · refine ChgR.next ?_
    exact Chg.refl _ _
  · extract_lets w1 w2 w3 w4
    clear_value w1
    clear_value w2
    clear_value w3
    clear_value w4
    split
    · refine ChgR.next ?_
      refine Chg.step (State.next_chg _ _ _) rfl ?_
      exact Chg.refl _ _
    · extract_lets w5 t6 w7 w8 t9 w10 t11
      clear_value w5
      have ht6 : Chg 0x20003498908 x2 t6 := by
        unfold t6
        refine Chg.step (State.setBuffer_chg _ _ _) rfl ?_
        exact Chg.refl _ _
      clear_value t6
      clear_value w7
      clear_value w8
      have ht9 : Chg 0x20003498908 x2 t9 := by
        unfold t9
        refine Chg.step (State.setCore_chg _ _ _) rfl ?_
        assumption
      clear_value t9
      clear_value w10
      have ht11 : Chg 0x20003498908 x2 t11 := by
        unfold t11
        refine Chg.ite ?_ ?_
        · split
          · assumption
          · extract_lets t12
            have ht12 : Chg 0x20003498908 x2 t12 := by
              unfold t12
              refine Chg.step (State.emit_chg _ _) rfl ?_
              assumption
            clear_value t12
            refine Chg.upd_reads_nextTag rfl rfl ?_
            assumption
        · refine Chg.foldl ?_ ?_
          · intro u13 u14 u15
            refine Chg.step (State.postHeld_chg _ _) rfl ?_
            assumption
          · assumption
      clear_value t11
      refine ChgR.ite ?_ ?_
      · refine ChgR.next ?_
        refine Chg.step (State.next_chg _ _ _) rfl ?_
        assumption
      · refine ChgR.next ?_
        refine Chg.step (State.next_chg _ _ _) rfl ?_
        exact Chg.refl _ _


theorem execWback_chg (x0 : Nat) (x1 : Sys2Proof.Thr) (x2 : State) :
    ChgR 0x20000498908 x2 (execWback x0 x1 x2) := by
  unfold execWback
  split
  · refine ChgR.next ?_
    exact Chg.refl _ _
  · split
    · refine ChgR.next ?_
      refine Chg.step (State.next_chg _ _ _) rfl ?_
      exact Chg.refl _ _
    · extract_lets w1 w2 w3 w4 t5
      clear_value w1
      clear_value w2
      clear_value w3
      clear_value w4
      have ht5 : Chg 0x20000498908 x2 t5 := by
        unfold t5
        refine Chg.ite ?_ ?_
        · split
          · exact Chg.refl _ _
          · refine Chg.step (State.emit_chg _ _) rfl ?_
            exact Chg.refl _ _
        · refine Chg.foldl ?_ ?_
          · intro u6 u7 u8
            refine Chg.step (State.postHeld_chg _ _) rfl ?_
            assumption
          · exact Chg.refl _ _
      clear_value t5
      refine ChgR.ite ?_ ?_
      · refine ChgR.next ?_
        refine Chg.step (State.next_chg _ _ _) rfl ?_
        assumption
      · refine ChgR.next ?_
        refine Chg.step (State.next_chg _ _ _) rfl ?_
        exact Chg.refl _ _


theorem execFence_chg (x0 : Nat) (x1 : Sys2Proof.Thr) (x2 : State) :
    ChgR 0x20000418908 x2 (execFence x0 x1 x2) := by
  unfold execFence
  split
  · refine ChgR.next ?_
    exact Chg.refl _ _
  · refine ChgR.ite ?_ ?_
    · refine ChgR.next ?_
      refine Chg.step (State.stall_chg _ _ _) rfl ?_
      exact Chg.refl _ _
    · refine ChgR.next ?_
      refine Chg.step (State.next_chg _ _ _) rfl ?_
      exact Chg.refl _ _


theorem State.setRing_chg (x0 : State) (x1 : Nat) (x2 : Ring) :
    Chg 0x800000 x0 (State.setRing x0 x1 x2) := by
  unfold State.setRing
  refine Chg.upd_rings rfl ?_
  exact Chg.refl _ _


theorem State.pciWrite_chg (x0 : State) (x1 : Nat) (x2 : Nat) (x3 : Nat) :
    Chg 0x20000000 x0 (State.pciWrite x0 x1 x2 x3) := by
  unfold State.pciWrite
  refine Chg.ite ?_ ?_
  · exact Chg.refl _ _
  · refine Chg.upd_ats rfl ?_
    exact Chg.refl _ _


theorem State.updTaken_chg (x0 : State) (x1 : Nat) (x2 : Nat) (x3 : Taken → Taken) :
    Chg 0x800000 x0 (State.updTaken x0 x1 x2 x3) := by
  unfold State.updTaken
  extract_lets w1
  clear_value w1
  refine Chg.step (State.setRing_chg _ _ _) rfl ?_
  exact Chg.refl _ _


theorem State.sendMsix_chg (x0 : State) (x1 : Nat) (x2 : Nat) :
    Chg 0x8000800 x0 (State.sendMsix x0 x1 x2) := by
  unfold State.sendMsix
  refine Chg.ite ?_ ?_
  · refine Chg.ite ?_ ?_
    · exact Chg.refl _ _
    · refine Chg.upd_msixPending rfl ?_
      exact Chg.refl _ _
  · refine Chg.step (State.emit_chg _ _) rfl ?_
    exact Chg.refl _ _


theorem State.ringMsg_chg (x0 : State) (x1 : Nat) :
    Chg 0x8800800 x0 (State.ringMsg x0 x1) := by
  unfold State.ringMsg
  extract_lets w1
  clear_value w1
  refine Chg.step (State.sendMsix_chg _ _ _) rfl ?_
  refine Chg.step (State.setRing_chg _ _ _) rfl ?_
  exact Chg.refl _ _


theorem State.ringIrq_chg (x0 : State) (x1 : Nat) :
    Chg 0x8800800 x0 (State.ringIrq x0 x1) := by
  unfold State.ringIrq
  refine Chg.ite ?_ ?_
  · refine Chg.step (State.ringMsg_chg _ _) rfl ?_
    exact Chg.refl _ _
  · exact Chg.refl _ _


theorem State.headWriteback_chg (x0 : State) (x1 : Nat) :
    Chg 0x800800 x0 (State.headWriteback x0 x1) := by
  unfold State.headWriteback
  extract_lets w1
  clear_value w1
  refine Chg.ite ?_ ?_
  · exact Chg.refl _ _
  · refine Chg.ite ?_ ?_
    · refine Chg.step (State.emit_chg _ _) rfl ?_
      refine Chg.step (State.setRing_chg _ _ _) rfl ?_
      exact Chg.refl _ _
    · refine Chg.step (State.setRing_chg _ _ _) rfl ?_
      exact Chg.refl _ _


theorem State.advanceHead_chg (x0 : State) (x1 : Nat) :
    Chg 0x8000000800808 x0 (State.advanceHead x0 x1) := by
  unfold State.advanceHead
  extract_lets w1 w2 w3 t4 t5
  clear_value w1
  clear_value w2
  clear_value w3
  have ht4 : Chg 0x8000000800808 x0 t4 := by
    unfold t4
    refine Chg.step (State.fset_chg _ _ _ _) rfl ?_
    exact Chg.refl _ _
  clear_value t4
  have ht5 : Chg 0x8000000800808 x0 t5 := by
    unfold t5
    refine Chg.step (State.setRing_chg _ _ _) rfl ?_
    assumption
  clear_value t5
  refine Chg.ite ?_ ?_
  · assumption
  · refine Chg.step (State.headWriteback_chg _ _) rfl ?_
    assumption


theorem State.releaseDesc_chg (x0 : State) (x1 : Nat) (x2 : Nat) :
    Chg 0x8000000800808 x0 (State.releaseDesc x0 x1 x2) := by
  unfold State.releaseDesc
  refine Chg.step (State.advanceHead_chg _ _) rfl ?_
  refine Chg.step (State.updTaken_chg _ _ _ _) rfl ?_
  exact Chg.refl _ _


theorem State.freeSlot_chg (x0 : State) (x1 : Nat) (x2 : Nat) :
    Chg 0x8000000800808 x0 (State.freeSlot x0 x1 x2) := by
  unfold State.freeSlot
  refine Chg.step (State.advanceHead_chg _ _) rfl ?_
  refine Chg.step (State.updTaken_chg _ _ _ _) rfl ?_
  exact Chg.refl _ _


theorem State.complete_chg (x0 : State) (x1 : Nat) (x2 : Nat) (x3 : Cpl) :
    Chg 0x8000008800808 x0 (State.complete x0 x1 x2 x3) := by
  unfold State.complete
  split
  · exact Chg.refl _ _
  · extract_lets w1 t2 w3 w4 t5 t6 t7 w8
    clear_value w1
    have ht2 : Chg 0x8000008800808 x0 t2 := by
      unfold t2
      refine Chg.ite ?_ ?_
      · refine Chg.step (State.releaseDesc_chg _ _ _) rfl ?_
        exact Chg.refl _ _
      · exact Chg.refl _ _
    clear_value t2
    clear_value w3
    clear_value w4
    have ht5 : Chg 0x8000008800808 x0 t5 := by
      unfold t5
      refine Chg.step (State.emit_chg _ _) rfl ?_
      assumption
    clear_value t5
    have ht6 : Chg 0x8000008800808 x0 t6 := by
      unfold t6
      refine Chg.step (State.fset_chg _ _ _ _) rfl ?_
      assumption
    clear_value t6
    have ht7 : Chg 0x8000008800808 x0 t7 := by
      unfold t7
      refine Chg.step (State.freeSlot_chg _ _ _) rfl ?_
      assumption
    clear_value t7
    clear_value w8
    refine Chg.ite ?_ ?_
    · exact Chg.refl _ _
    · refine Chg.ite ?_ ?_
      · refine Chg.step (State.setRing_chg _ _ _) rfl ?_
        exact Chg.refl _ _
      · refine Chg.ite ?_ ?_
        · refine Chg.step (State.replyLong_chg _ _ _ _ _ _) rfl ?_
          refine Chg.step (State.setRing_chg _ _ _) rfl ?_
          exact Chg.refl _ _
        · refine Chg.ite ?_ ?_
          · assumption
          · refine Chg.step (State.ringIrq_chg _ _) rfl ?_
            refine Chg.step (State.setRing_chg _ _ _) rfl ?_
            assumption


theorem State.done_chg (x0 : State) (x1 : Nat) (x2 : Nat) (x3 : Nat) :
    Chg 0x8000008800808 x0 (State.done x0 x1 x2 x3) := by
  unfold State.done
  refine Chg.step (State.complete_chg _ _ _ _) rfl ?_
  exact Chg.refl _ _


theorem State.hostRead_chg (x0 : State) (x1 : Nat) (x2 : Nat) (x3 : Nat) (x4 : ReadFor) (x5 : Bool) :
    Chg 0x3000800 x0 (State.hostRead x0 x1 x2 x3 x4 x5) := by
  unfold State.hostRead
  extract_lets w1 t2
  clear_value w1
  have ht2 : Chg 0x3000800 x0 t2 := by
    unfold t2
    refine Chg.step (State.emit_chg _ _) rfl ?_
    exact Chg.refl _ _
  clear_value t2
  refine Chg.upd_reads_nextTag rfl rfl ?_
  assumption


theorem State.endRead_chg (x0 : State) (x1 : Nat) :
    Chg 0x1000000 x0 (State.endRead x0 x1) := by
  unfold State.endRead
  refine Chg.upd_reads rfl ?_
  exact Chg.refl _ _


theorem State.toField_chg (x0 : State) (x1 : List Nat) :
    Chg 0x80000000 x0 (State.toField x0 x1) := by
  unfold State.toField
  extract_lets w1 w2
  clear_value w1
  clear_value w2
  refine Chg.upd_bar rfl ?_
  exact Chg.refl _ _


theorem State.toHost_chg (x0 : State) (x1 : List Nat) :
    Chg 0x4000000080000008 x0 (State.toHost x0 x1) := by
  unfold State.toHost
  extract_lets w1 w2
  clear_value w1
  clear_value w2
  refine Chg.ite ?_ ?_
  · refine Chg.step (State.count_chg _ _ _) rfl ?_
    exact Chg.refl _ _
  · refine Chg.upd_bar rfl ?_
    exact Chg.refl _ _


theorem State.setLane_chg (x0 : State) (x1 : Nat) (x2 : Lane) :
    Chg 0x40000000 x0 (State.setLane x0 x1 x2) := by
  unfold State.setLane
  refine Chg.upd_lanes rfl ?_
  exact Chg.refl _ _


theorem State.breakLane_chg (x0 : State) (x1 : Nat) (x2 : Nat) :
    Chg 0x10020000400908 x0 (State.breakLane x0 x1 x2) := by
  unfold State.breakLane
  extract_lets t1 t2
  have ht1 : Chg 0x10020000400908 x0 t1 := by
    unfold t1
    refine Chg.step (State.countAt_chg _ _ _ _ _) rfl ?_
    exact Chg.refl _ _
  clear_value t1
  have ht2 : Chg 0x10020000400908 x0 t2 := by
    unfold t2
    refine Chg.step (State.flag_chg _ _ _) rfl ?_
    assumption
  clear_value t2
  refine Chg.step (State.log_chg _ _) rfl ?_
  assumption


theorem State.setItem_chg (x0 : State) (x1 : Nat) (x2 : ItemCtx) :
    Chg 0x200000 x0 (State.setItem x0 x1 x2) := by
  unfold State.setItem
  refine Chg.upd_items rfl ?_
  exact Chg.refl _ _


theorem State.ctxLow_chg (x0 : State) :
    Chg 0x20020000400908 x0 (State.ctxLow x0) := by
  unfold State.ctxLow
  refine Chg.ite ?_ ?_
  · refine Chg.ite ?_ ?_
    · exact Chg.refl _ _
    · refine Chg.step (State.log_chg _ _) rfl ?_
      refine Chg.step (State.flag_chg _ _ _) rfl ?_
      exact Chg.refl _ _
  · refine Chg.step (State.fset_chg _ _ _ _) rfl ?_
    exact Chg.refl _ _


theorem State.createItem_chg (x0 : State) (x1 : ItemCtx) :
    Chg 0x20020000600908 x0 (State.createItem x0 x1) := by
  unfold State.createItem
  refine Chg.step (State.ctxLow_chg _) rfl ?_
  refine Chg.step (State.setItem_chg _ _ _) rfl ?_
  exact Chg.refl _ _


theorem State.closeItem_chg (x0 : State) (x1 : Nat) :
    Chg 0x20020000600908 x0 (State.closeItem x0 x1) := by
  unfold State.closeItem
  refine Chg.step (State.ctxLow_chg _) rfl ?_
  refine Chg.upd_items rfl ?_
  exact Chg.refl _ _


theorem State.itemState_chg (x0 : State) (x1 : Nat) (x2 : ItemState) :
    Chg 0x200000 x0 (State.itemState x0 x1 x2) := by
  unfold State.itemState
  split
  · exact Chg.refl _ _
  · refine Chg.step (State.setItem_chg _ _ _) rfl ?_
    exact Chg.refl _ _


theorem State.abandon_chg (x0 : State) (x1 : Nat) (x2 : Nat) :
    Chg 0x1098000 x0 (State.abandon x0 x1 x2) := by
  unfold State.abandon
  extract_lets w1 t2 w3
  have ht2 : Chg 0x1098000 x0 t2 := by
    unfold t2
    refine Chg.upd_cores_seqs_reads rfl rfl rfl ?_
    exact Chg.refl _ _
  clear_value t2
  clear_value w3
  refine Chg.upd_fab rfl ?_
  assumption


theorem State.sendVerdict_chg (x0 : State) (x1 : Nat) (x2 : Nat) :
    Chg 0x80200000 x0 (State.sendVerdict x0 x1 x2) := by
  unfold State.sendVerdict
  split
  · exact Chg.refl _ _
  · extract_lets t1
    have ht1 : Chg 0x80200000 x0 t1 := by
      unfold t1
      refine Chg.step (State.toField_chg _ _) rfl ?_
      exact Chg.refl _ _
    clear_value t1
    refine Chg.step (State.itemState_chg _ _ _) rfl ?_
    assumption


theorem State.suspend_chg (x0 : State) (x1 : Nat) (x2 : Nat) (x3 : Nat) :
    Chg 0x10020080600908 x0 (State.suspend x0 x1 x2 x3) := by
  unfold State.suspend
  extract_lets w1 t2 t3 t4
  clear_value w1
  have ht2 : Chg 0x10020080600908 x0 t2 := by
    unfold t2
    refine Chg.step (State.fset_chg _ _ _ _) rfl ?_
    exact Chg.refl _ _
  clear_value t2
  have ht3 : Chg 0x10020080600908 x0 t3 := by
    unfold t3
    refine Chg.step (State.fset_chg _ _ _ _) rfl ?_
    assumption
  clear_value t3
  have ht4 : Chg 0x10020080600908 x0 t4 := by
    unfold t4
    refine Chg.foldl ?_ ?_
    · intro u5 u6 u7
      refine Chg.step (State.sendVerdict_chg _ _ _) rfl ?_
      assumption
    · assumption
  clear_value t4
  refine Chg.ite ?_ ?_
  · exact Chg.refl _ _
  · refine Chg.step (State.log_chg _ _) rfl ?_
    assumption


theorem State.unsuspend_chg (x0 : State) (x1 : Nat) (x2 : Nat) :
    Chg 0x10020000400908 x0 (State.unsuspend x0 x1 x2) := by
  unfold State.unsuspend
  extract_lets w1 t2
  clear_value w1
  have ht2 : Chg 0x10020000400908 x0 t2 := by
    unfold t2
    refine Chg.step (State.fset_chg _ _ _ _) rfl ?_
    exact Chg.refl _ _
  clear_value t2
  refine Chg.ite ?_ ?_
  · exact Chg.refl _ _
  · refine Chg.ite ?_ ?_
    · refine Chg.step (State.log_chg _ _) rfl ?_
      refine Chg.step (State.fset_chg _ _ _ _) rfl ?_
      assumption
    · assumption


theorem State.suspendAll_chg (x0 : State) (x1 : List Nat) (x2 : Nat) (x3 : Nat) :
    Chg 0x10020080600908 x0 (State.suspendAll x0 x1 x2 x3) := by
  unfold State.suspendAll
  refine Chg.foldl ?_ ?_
  · intro u1 u2 u3
    refine Chg.step (State.suspend_chg _ _ _ _) rfl ?_
    assumption
  · exact Chg.refl _ _


theorem State.completeItem_chg (x0 : State) (x1 : Nat) (x2 : Nat) (x3 : Nat) :
    Chg 0x8000008a00808 x0 (State.completeItem x0 x1 x2 x3) := by
  unfold State.completeItem
  split
  · exact Chg.refl _ _
  · split
    · exact Chg.refl _ _
    · extract_lets t1
      have ht1 : Chg 0x8000008a00808 x0 t1 := by
        unfold t1
        refine Chg.step (State.setItem_chg _ _ _) rfl ?_
        exact Chg.refl _ _
      clear_value t1
      refine Chg.ite ?_ ?_
      · exact Chg.refl _ _
      · refine Chg.ite ?_ ?_
        · refine Chg.step (State.freeSlot_chg _ _ _) rfl ?_
          assumption
        · refine Chg.step (State.complete_chg _ _ _ _) rfl ?_
          assumption


theorem State.itemSlow_chg (x0 : State) (x1 : Nat) (x2 : Nat) :
    Chg 0x200000 x0 (State.itemSlow x0 x1 x2) := by
  unfold State.itemSlow
  split
  · exact Chg.refl _ _
  · refine Chg.step (State.setItem_chg _ _ _) rfl ?_
    exact Chg.refl _ _


theorem State.deliver_chg (x0 : State) (x1 : Nat) :
    Chg 0x30020000600f08 x0 (State.deliver x0 x1) := by
  unfold State.deliver
  split
  · exact Chg.refl _ _
  · extract_lets t1 t2 t3 t4 t5
    have ht1 : Chg 0x30020000600f08 x0 t1 := by
      unfold t1
      refine Chg.step (State.setItem_chg _ _ _) rfl ?_
      exact Chg.refl _ _
    clear_value t1
    have ht2 : Chg 0x30020000600f08 x0 t2 := by
      unfold t2
      refine Chg.step (State.countAt_chg _ _ _ _ _) rfl ?_
      assumption
    clear_value t2
    have ht3 : Chg 0x30020000600f08 x0 t3 := by
      unfold t3
      refine Chg.step (State.countAt_chg _ _ _ _ _) rfl ?_
      assumption
    clear_value t3
    have ht4 : Chg 0x30020000600f08 x0 t4 := by
      unfold t4
      refine Chg.step (State.logRate_chg _ _ _ _) rfl ?_
      assumption
    clear_value t4
    have ht5 : Chg 0x30020000600f08 x0 t5 := by
      unfold t5
      refine Chg.ite ?_ ?_
      · refine Chg.step (State.breakLane_chg _ _ _) rfl ?_
        assumption
      · assumption
    clear_value t5
    refine Chg.ite ?_ ?_
    · exact Chg.refl _ _
    · refine Chg.ite ?_ ?_
      · assumption
      · refine Chg.step (State.closeItem_chg _ _) rfl ?_
        assumption


theorem State.completeOk_chg (x0 : State) (x1 : Nat) (x2 : Nat) :
    Chg 0x38020008e00f08 x0 (State.completeOk x0 x1 x2) := by
  unfold State.completeOk
  split
  · exact Chg.refl _ _
  · extract_lets t1
    have ht1 : Chg 0x38020008e00f08 x0 t1 := by
      unfold t1
      refine Chg.step (State.completeItem_chg _ _ _ _) rfl ?_
      exact Chg.refl _ _
    clear_value t1
    refine Chg.ite ?_ ?_
    · assumption
    · refine Chg.step (State.deliver_chg _ _) rfl ?_
      assumption


theorem State.withholdItem_chg (x0 : State) (x1 : Nat) :
    Chg 0x81298000 x0 (State.withholdItem x0 x1) := by
  unfold State.withholdItem
  split
  · exact Chg.refl _ _
  · extract_lets t1
    have ht1 : Chg 0x81298000 x0 t1 := by
      unfold t1
      refine Chg.step (State.abandon_chg _ _ _) rfl ?_
      exact Chg.refl _ _
    clear_value t1
    refine Chg.ite ?_ ?_
    · assumption
    · refine Chg.ite ?_ ?_
      · refine Chg.step (State.sendVerdict_chg _ _ _) rfl ?_
        assumption
      · refine Chg.step (State.itemState_chg _ _ _) rfl ?_
        assumption


theorem State.endItem_chg (x0 : State) (x1 : Nat) (x2 : Nat) :
    Chg 0x28020089e98908 x0 (State.endItem x0 x1 x2) := by
  unfold State.endItem
  split
  · exact Chg.refl _ _
  · extract_lets t1 t2
    have ht1 : Chg 0x28020089e98908 x0 t1 := by
      unfold t1
      refine Chg.step (State.withholdItem_chg _ _) rfl ?_
      exact Chg.refl _ _
    clear_value t1
    have ht2 : Chg 0x28020089e98908 x0 t2 := by
      unfold t2
      refine Chg.step (State.completeItem_chg _ _ _ _) rfl ?_
      assumption
    clear_value t2
    refine Chg.ite ?_ ?_
    · assumption
    · refine Chg.step (State.closeItem_chg _ _) rfl ?_
      assumption


theorem State.verdictFormed_chg (x0 : State) (x1 : Nat) (x2 : Nat) (x3 : Nat) (x4 : List Nat) :
    Chg 0x38020088e00f08 x0 (State.verdictFormed x0 x1 x2 x3 x4) := by
  unfold State.verdictFormed
  split
  · exact Chg.refl _ _
  · extract_lets t1 t2 t3 t4
    have ht1 : Chg 0x38020088e00f08 x0 t1 := by
      unfold t1
      refine Chg.step (State.setItem_chg _ _ _) rfl ?_
      exact Chg.refl _ _
    clear_value t1
    have ht2 : Chg 0x38020088e00f08 x0 t2 := by
      unfold t2
      refine Chg.step (State.completeItem_chg _ _ _ _) rfl ?_
      assumption
    clear_value t2
    have ht3 : Chg 0x38020088e00f08 x0 t3 := by
      unfold t3
      refine Chg.step (State.count_chg _ _ _) rfl ?_
      assumption
    clear_value t3
    have ht4 : Chg 0x38020088e00f08 x0 t4 := by
      unfold t4
      refine Chg.step (State.logRate_chg _ _ _ _) rfl ?_
      assumption
    clear_value t4
    refine Chg.ite ?_ ?_
    · exact Chg.refl _ _
    · refine Chg.ite ?_ ?_
      · refine Chg.step (State.completeOk_chg _ _ _) rfl ?_
        assumption
      · refine Chg.ite ?_ ?_
        · refine Chg.ite ?_ ?_
          · refine Chg.step (State.completeOk_chg _ _ _) rfl ?_
            refine Chg.step (State.sendVerdict_chg _ _ _) rfl ?_
            assumption
          · refine Chg.step (State.closeItem_chg _ _) rfl ?_
            refine Chg.step (State.completeItem_chg _ _ _ _) rfl ?_
            assumption
        · refine Chg.step (State.closeItem_chg _ _) rfl ?_
          assumption


theorem State.inputDone_chg (x0 : State) (x1 : Nat) :
    Chg 0x8000000800808 x0 (State.inputDone x0 x1) := by
  unfold State.inputDone
  split
  · exact Chg.refl _ _
  · split
    · exact Chg.refl _ _
    · refine Chg.ite ?_ ?_
      · exact Chg.refl _ _
      · refine Chg.step (State.releaseDesc_chg _ _ _) rfl ?_
        exact Chg.refl _ _


end Sys2Proof.Machine
end

