-- ==== Sys2Proof/Laws/FrameCore.lean ====
section
/-! SUPPORT. The frames of reliability and thermal operations, restorers, cores and sequencer entries: one lemma for each operation, which says
what part of the state it may change. -/

namespace Sys2Proof.Machine

theorem State.storeFault_chg (x0 : State) (x1 : Nat) (x2 : List Nat) :
    Chg 0x400021000400908 x0 (State.storeFault x0 x1 x2) := by
  unfold State.storeFault
  extract_lets w1 w2 t3 w4 t5 t6 w7 w8
  clear_value w1
  clear_value w2
  have ht3 : Chg 0x400021000400908 x0 t3 := by
    unfold t3
    refine Chg.ite ?_ ?_
    · refine Chg.step (State.log_chg _ _) rfl ?_
      refine Chg.step (State.flag_chg _ _ _) rfl ?_
      refine Chg.step (State.count_chg _ _ _) rfl ?_
      exact Chg.refl _ _
    · exact Chg.refl _ _
  clear_value t3
  clear_value w4
  have ht5 : Chg 0x400021000400908 x0 t5 := by
    unfold t5
    refine Chg.upd_rel rfl ?_
    assumption
  clear_value t5
  have ht6 : Chg 0x400021000400908 x0 t6 := by
    unfold t6
    refine Chg.step (State.fset_chg _ _ _ _) rfl ?_
    assumption
  clear_value t6
  clear_value w7
  clear_value w8
  refine Chg.upd_out_mgmt rfl rfl ?_
  assumption


theorem State.putFault_chg (x0 : State) (x1 : Nat) (x2 : Nat) (x3 : Fault256) (x4 : List (List Nat)) (x5 : Bool) (x6 : Bool) (x7 : Bool) (x8 : Bool) :
    Chg 0x400021000400908 x0 (State.putFault x0 x1 x2 x3 x4 x5 x6 x7 x8) := by
  unfold State.putFault
  refine Chg.step (State.storeFault_chg _ _ _) rfl ?_
  exact Chg.refl _ _


theorem State.putFaults_chg (x0 : State) (x1 : Nat) (x2 : Fault256) (x3 : Bool) (x4 : Bool) (x5 : Nat) (x6 : Nat) (x7 : List (List Nat)) :
    Chg 0x400021000400908 x0 (State.putFaults x0 x1 x2 x3 x4 x5 x6 x7) := by
  induction' x5 with n ih generalizing x0 x6 x7
  · rw [State.putFaults]
    exact Chg.refl _ _
  · rw [State.putFaults]
    refine Chg.ite ?_ ?_
    · refine Chg.step (State.putFault_chg _ _ _ _ _ _ _ _ _) rfl ?_
      exact Chg.refl _ _
    · refine Chg.step (ih _ _ _) rfl ?_
      refine Chg.step (State.putFault_chg _ _ _ _ _ _ _ _ _) rfl ?_
      exact Chg.refl _ _


theorem State.fault_chg (x0 : State) (x1 : Fault256) (x2 : List (List Nat)) :
    Chg 0x400021000400908 x0 (State.fault x0 x1 x2) := by
  unfold State.fault
  extract_lets w1 w2 t3 w4 w5
  clear_value w1
  clear_value w2
  have ht3 : Chg 0x400021000400908 x0 t3 := by
    unfold t3
    refine Chg.upd_rel rfl ?_
    exact Chg.refl _ _
  clear_value t3
  clear_value w4
  refine Chg.step (State.putFaults_chg _ _ _ _ _ _ _ _) rfl ?_
  assumption


theorem State.unitFault_chg (x0 : State) (x1 : Nat) (x2 : Nat) (x3 : Nat) :
    Chg 0x400021000400908 x0 (State.unitFault x0 x1 x2 x3) := by
  unfold State.unitFault
  extract_lets w1 w2
  clear_value w1
  clear_value w2
  refine Chg.step (State.fault_chg _ _ _) rfl ?_
  exact Chg.refl _ _


theorem State.setLookout_chg (x0 : State) (x1 : Nat) (x2 : Lookout) :
    Chg 0x1000000000 x0 (State.setLookout x0 x1 x2) := by
  unfold State.setLookout
  extract_lets w1
  clear_value w1
  refine Chg.upd_rel rfl ?_
  exact Chg.refl _ _


theorem State.makeLookout_chg (x0 : State) (x1 : Nat) (x2 : Nat) :
    Chg 0x400081000000008 x0 (State.makeLookout x0 x1 x2) := by
  unfold State.makeLookout
  extract_lets t1 t2 t3 t4 t5 w6 t7
  have ht1 : Chg 0x400081000000008 x0 t1 := by
    unfold t1
    refine Chg.step (State.fset_chg _ _ _ _) (by unfold lookCore; split <;> rfl) ?_
    exact Chg.refl _ _
  clear_value t1
  have ht2 : Chg 0x400081000000008 x0 t2 := by
    unfold t2
    refine Chg.step (State.fset_chg _ _ _ _) (by unfold lookState; split <;> rfl) ?_
    assumption
  clear_value t2
  have ht3 : Chg 0x400081000000008 x0 t3 := by
    unfold t3
    refine Chg.step (State.fset_chg _ _ _ _) rfl ?_
    assumption
  clear_value t3
  have ht4 : Chg 0x400081000000008 x0 t4 := by
    unfold t4
    refine Chg.step (State.fset_chg _ _ _ _) rfl ?_
    assumption
  clear_value t4
  have ht5 : Chg 0x400081000000008 x0 t5 := by
    unfold t5
    refine Chg.step (State.setLookout_chg _ _ _) rfl ?_
    assumption
  clear_value t5
  clear_value w6
  have ht7 : Chg 0x400081000000008 x0 t7 := by
    unfold t7
    refine Chg.upd_rel rfl ?_
    assumption
  clear_value t7
  refine Chg.step (State.fset_chg _ _ _ _) rfl ?_
  assumption


theorem State.designate_chg (x0 : State) :
    Chg 0x400081000000008 x0 (State.designate x0) := by
  unfold State.designate
  refine Chg.foldl ?_ ?_
  · intro u1 u2 u3
    refine Chg.ite ?_ ?_
    · assumption
    · split
      · assumption
      · refine Chg.ite ?_ ?_
        · assumption
        · refine Chg.step (State.makeLookout_chg _ _ _) rfl ?_
          assumption
  · exact Chg.refl _ _


theorem State.unshieldLanes_chg (x0 : State) :
    Chg 0x20040400908 x0 (State.unshieldLanes x0) := by
  unfold State.unshieldLanes
  extract_lets w1 t2
  clear_value w1
  have ht2 : Chg 0x20040400908 x0 t2 := by
    unfold t2
    refine Chg.upd_lanes rfl ?_
    exact Chg.refl _ _
  clear_value t2
  refine Chg.ite ?_ ?_
  · exact Chg.refl _ _
  · refine Chg.foldl ?_ ?_
    · intro u3 u4 u5
      refine Chg.step (State.log_chg _ _) rfl ?_
      assumption
    · assumption


theorem State.beginZero_chg (x0 : State) (x1 : Nat) :
    Chg 0x400000004008 x0 (State.beginZero x0 x1) := by
  unfold State.beginZero
  extract_lets w1 t2 t3
  clear_value w1
  have ht2 : Chg 0x400000004008 x0 t2 := by
    unfold t2
    refine Chg.ite ?_ ?_
    · refine Chg.step (State.count_chg _ _ _) rfl ?_
      exact Chg.refl _ _
    · exact Chg.refl _ _
  clear_value t2
  have ht3 : Chg 0x400000004008 x0 t3 := by
    unfold t3
    refine Chg.step (State.setRst_chg _ _ _) rfl ?_
    assumption
  clear_value t3
  refine Chg.step (State.fset_chg _ _ _ _) rfl ?_
  assumption


theorem State.loseLookout_chg (x0 : State) (x1 : Nat) :
    Chg 0x4000a1040400908 x0 (State.loseLookout x0 x1) := by
  unfold State.loseLookout
  extract_lets w1 t2 t3 w4 t5 t6 t7
  clear_value w1
  have ht2 : Chg 0x4000a1040400908 x0 t2 := by
    unfold t2
    refine Chg.step (State.fset_chg _ _ _ _) (by unfold lookState; split <;> rfl) ?_
    exact Chg.refl _ _
  clear_value t2
  have ht3 : Chg 0x4000a1040400908 x0 t3 := by
    unfold t3
    refine Chg.step (State.fset_chg _ _ _ _) rfl ?_
    assumption
  clear_value t3
  clear_value w4
  have ht5 : Chg 0x4000a1040400908 x0 t5 := by
    unfold t5
    refine Chg.upd_rel rfl ?_
    assumption
  clear_value t5
  have ht6 : Chg 0x4000a1040400908 x0 t6 := by
    unfold t6
    refine Chg.step (State.log_chg _ _) rfl ?_
    assumption
  clear_value t6
  have ht7 : Chg 0x4000a1040400908 x0 t7 := by
    unfold t7
    refine Chg.step (State.fault_chg _ _ _) rfl ?_
    assumption
  clear_value t7
  refine Chg.step (State.designate_chg _) rfl ?_
  refine Chg.step (State.unshieldLanes_chg _) rfl ?_
  assumption


theorem State.suspect_chg (x0 : State) (x1 : Nat) (x2 : Nat) :
    Chg 0x400021000400908 x0 (State.suspect x0 x1 x2) := by
  unfold State.suspect
  extract_lets t1 t2 t3 w4 t5
  have ht1 : Chg 0x400021000400908 x0 t1 := by
    unfold t1
    refine Chg.step (State.fset_chg _ _ _ _) rfl ?_
    exact Chg.refl _ _
  clear_value t1
  have ht2 : Chg 0x400021000400908 x0 t2 := by
    unfold t2
    refine Chg.step (State.fset_chg _ _ _ _) rfl ?_
    assumption
  clear_value t2
  have ht3 : Chg 0x400021000400908 x0 t3 := by
    unfold t3
    refine Chg.step (State.fset_chg _ _ _ _) rfl ?_
    assumption
  clear_value t3
  clear_value w4
  have ht5 : Chg 0x400021000400908 x0 t5 := by
    unfold t5
    refine Chg.ite ?_ ?_
    · refine Chg.upd_rel rfl ?_
      assumption
    · assumption
  clear_value t5
  refine Chg.ite ?_ ?_
  · exact Chg.refl _ _
  · refine Chg.ite ?_ ?_
    · assumption
    · refine Chg.step (State.log_chg _ _) rfl ?_
      assumption


theorem State.removeCore_chg (x0 : State) (x1 : Nat) :
    Chg 0x4004a1040404908 x0 (State.removeCore x0 x1) := by
  unfold State.removeCore
  extract_lets w1 t2 t3
  clear_value w1
  have ht2 : Chg 0x4004a1040404908 x0 t2 := by
    unfold t2
    refine Chg.step (State.fset_chg _ _ _ _) rfl ?_
    exact Chg.refl _ _
  clear_value t2
  have ht3 : Chg 0x4004a1040404908 x0 t3 := by
    unfold t3
    refine Chg.step (State.fset_chg _ _ _ _) rfl ?_
    assumption
  clear_value t3
  split
  · assumption
  · refine Chg.step (State.loseLookout_chg _ _) rfl ?_
    refine Chg.step (State.beginZero_chg _ _) rfl ?_
    assumption


theorem State.retireUnit_chg (x0 : State) (x1 : Nat) (x2 : Nat) :
    Chg 0x400021000400908 x0 (State.retireUnit x0 x1 x2) := by
  unfold State.retireUnit
  extract_lets t1 t2 w3 t4 t5 t6 t7
  have ht1 : Chg 0x400021000400908 x0 t1 := by
    unfold t1
    refine Chg.step (State.fset_chg _ _ _ _) rfl ?_
    exact Chg.refl _ _
  clear_value t1
  have ht2 : Chg 0x400021000400908 x0 t2 := by
    unfold t2
    refine Chg.step (State.fset_chg _ _ _ _) rfl ?_
    assumption
  clear_value t2
  clear_value w3
  have ht4 : Chg 0x400021000400908 x0 t4 := by
    unfold t4
    refine Chg.upd_rel rfl ?_
    assumption
  clear_value t4
  have ht5 : Chg 0x400021000400908 x0 t5 := by
    unfold t5
    refine Chg.step (State.count_chg _ _ _) rfl ?_
    assumption
  clear_value t5
  have ht6 : Chg 0x400021000400908 x0 t6 := by
    unfold t6
    refine Chg.step (State.flag_chg _ _ _) rfl ?_
    assumption
  clear_value t6
  have ht7 : Chg 0x400021000400908 x0 t7 := by
    unfold t7
    refine Chg.step (State.log_chg _ _) rfl ?_
    assumption
  clear_value t7
  refine Chg.ite ?_ ?_
  · exact Chg.refl _ _
  · refine Chg.step (State.unitFault_chg _ _ _ _) rfl ?_
    assumption


theorem State.retire_chg (x0 : State) (x1 : Nat) (x2 : Nat) :
    Chg 0x4004a1040404908 x0 (State.retire x0 x1 x2) := by
  unfold State.retire
  extract_lets t1 w2 t3
  have ht1 : Chg 0x4004a1040404908 x0 t1 := by
    unfold t1
    refine Chg.step (State.retireUnit_chg _ _ _) rfl ?_
    exact Chg.refl _ _
  clear_value t1
  clear_value w2
  have ht3 : Chg 0x4004a1040404908 x0 t3 := by
    unfold t3
    refine Chg.step (State.retireUnit_chg _ _ _) rfl ?_
    assumption
  clear_value t3
  refine Chg.ite ?_ ?_
  · assumption
  · refine Chg.ite ?_ ?_
    · assumption
    · refine Chg.step (State.removeCore_chg _ _) rfl ?_
      assumption


theorem State.confirm_chg (x0 : State) (x1 : Nat) (x2 : Nat) :
    Chg 0x4004a1040404908 x0 (State.confirm x0 x1 x2) := by
  unfold State.confirm
  extract_lets t1 w2 t3 t4 t5 t6 t7 t8
  have ht1 : Chg 0x4004a1040404908 x0 t1 := by
    unfold t1
    refine Chg.step (State.suspect_chg _ _ _) rfl ?_
    exact Chg.refl _ _
  clear_value t1
  clear_value w2
  have ht3 : Chg 0x4004a1040404908 x0 t3 := by
    unfold t3
    refine Chg.step (State.fset_chg _ _ _ _) rfl ?_
    assumption
  clear_value t3
  have ht4 : Chg 0x4004a1040404908 x0 t4 := by
    unfold t4
    refine Chg.step (State.fset_chg _ _ _ _) rfl ?_
    assumption
  clear_value t4
  have ht5 : Chg 0x4004a1040404908 x0 t5 := by
    unfold t5
    refine Chg.step (State.count_chg _ _ _) rfl ?_
    assumption
  clear_value t5
  have ht6 : Chg 0x4004a1040404908 x0 t6 := by
    unfold t6
    refine Chg.step (State.flag_chg _ _ _) rfl ?_
    assumption
  clear_value t6
  have ht7 : Chg 0x4004a1040404908 x0 t7 := by
    unfold t7
    refine Chg.step (State.log_chg _ _) rfl ?_
    assumption
  clear_value t7
  have ht8 : Chg 0x4004a1040404908 x0 t8 := by
    unfold t8
    refine Chg.step (State.unitFault_chg _ _ _ _) rfl ?_
    assumption
  clear_value t8
  refine Chg.ite ?_ ?_
  · exact Chg.refl _ _
  · refine Chg.ite ?_ ?_
    · refine Chg.step (State.retire_chg _ _ _) rfl ?_
      assumption
    · assumption


theorem State.cleanWindow_chg (x0 : State) (x1 : Nat) :
    Chg 0x400021000400908 x0 (State.cleanWindow x0 x1) := by
  unfold State.cleanWindow
  extract_lets w1 t2 t3 t4 w5 t6
  clear_value w1
  have ht2 : Chg 0x400021000400908 x0 t2 := by
    unfold t2
    refine Chg.step (State.fset_chg _ _ _ _) rfl ?_
    exact Chg.refl _ _
  clear_value t2
  have ht3 : Chg 0x400021000400908 x0 t3 := by
    unfold t3
    refine Chg.step (State.fset_chg _ _ _ _) rfl ?_
    assumption
  clear_value t3
  have ht4 : Chg 0x400021000400908 x0 t4 := by
    unfold t4
    refine Chg.step (State.fset_chg _ _ _ _) rfl ?_
    assumption
  clear_value t4
  clear_value w5
  have ht6 : Chg 0x400021000400908 x0 t6 := by
    unfold t6
    refine Chg.upd_rel rfl ?_
    assumption
  clear_value t6
  refine Chg.ite ?_ ?_
  · exact Chg.refl _ _
  · refine Chg.ite ?_ ?_
    · refine Chg.step (State.log_chg _ _) rfl ?_
      assumption
    · refine Chg.step (State.fset_chg _ _ _ _) rfl ?_
      exact Chg.refl _ _


theorem State.convictItem_chg (x0 : State) (x1 : Nat) (x2 : Nat) (x3 : ItemCtx) :
    Chg 0x28020089e98908 x0 (State.convictItem x0 x1 x2 x3).1 := by
  unfold State.convictItem
  split
  · extract_lets t1 t2
    have ht1 : Chg 0x28020089e98908 x0 t1 := by
      unfold t1
      refine Chg.step (State.completeItem_chg _ _ _ _) rfl ?_
      refine Chg.step (State.withholdItem_chg _ _) rfl ?_
      exact Chg.refl _ _
    clear_value t1
    have ht2 : Chg 0x28020089e98908 x0 t2 := by
      unfold t2
      refine Chg.ite ?_ ?_
      · assumption
      · refine Chg.step (State.closeItem_chg _ _) rfl ?_
        assumption
    clear_value t2
    refine Chg.fst_mk ?_
    assumption
  · extract_lets t3 t4
    have ht3 : Chg 0x28020089e98908 x0 t3 := by
      unfold t3
      refine Chg.step (State.completeItem_chg _ _ _ _) rfl ?_
      refine Chg.step (State.withholdItem_chg _ _) rfl ?_
      exact Chg.refl _ _
    clear_value t3
    have ht4 : Chg 0x28020089e98908 x0 t4 := by
      unfold t4
      refine Chg.ite ?_ ?_
      · assumption
      · refine Chg.step (State.closeItem_chg _ _) rfl ?_
        assumption
    clear_value t4
    refine Chg.fst_mk ?_
    assumption
  · refine Chg.fst_mk ?_
    refine Chg.step (State.itemState_chg _ _ _) rfl ?_
    exact Chg.refl _ _
  · refine Chg.fst_mk ?_
    exact Chg.refl _ _


theorem State.convictLane_chg (x0 : State) (x1 : Nat) (x2 : Nat) (x3 : Nat) :
    Chg 0x28020089e98908 x0 (State.convictLane x0 x1 x2 x3).1 := by
  unfold State.convictLane
  extract_lets w1 w2 w3
  clear_value w1
  clear_value w2
  clear_value w3
  split
  extract_lets w4 w5 t6
  clear_value w4
  clear_value w5
  have ht6 : Chg 0x28020089e98908 x0 t6 := by
    unfold t6
    refine Chg.step (State.toField_chg _ _) rfl ?_
    refine Chg.of_fst (by assumption) ?_
    refine Chg.foldl_fst ?_ ?_
    · intro u7 u8 u9
      split
      refine Chg.fst_mk ?_
      refine Chg.of_fst (by assumption) ?_
      refine Chg.step (State.convictItem_chg _ _ _ _) rfl ?_
      assumption
    · refine Chg.fst_mk ?_
      exact Chg.refl _ _
  clear_value t6
  refine Chg.fst_ite ?_ ?_
  · refine Chg.fst_mk ?_
    assumption
  · refine Chg.fst_mk ?_
    refine Chg.of_fst (by assumption) ?_
    refine Chg.foldl_fst ?_ ?_
    · intro u10 u11 u12
      split
      refine Chg.fst_mk ?_
      refine Chg.of_fst (by assumption) ?_
      refine Chg.step (State.convictItem_chg _ _ _ _) rfl ?_
      assumption
    · refine Chg.fst_mk ?_
      exact Chg.refl _ _


theorem State.retractPeer_chg (x0 : State) (x1 : Nat) (x2 : Nat) (x3 : Nat) (x4 : Nat) (x5 : Nat) (x6 : Nat) (x7 : Nat) (x8 : Nat) :
    Chg 0x1000080000 x0 (State.retractPeer x0 x1 x2 x3 x4 x5 x6 x7 x8).1 := by
  unfold State.retractPeer
  split
  · refine Chg.fst_mk ?_
    exact Chg.refl _ _
  · extract_lets w1 w2 t3 w4 w5 t6
    clear_value w1
    clear_value w2
    have ht3 : Chg 0x1000080000 x0 t3 := by
      unfold t3
      refine Chg.upd_rel rfl ?_
      exact Chg.refl _ _
    clear_value t3
    clear_value w4
    clear_value w5
    have ht6 : Chg 0x1000080000 x0 t6 := by
      unfold t6
      refine Chg.step (State.toPeer_chg _ _) rfl ?_
      assumption
    clear_value t6
    refine Chg.fst_mk ?_
    assumption


theorem State.faultAwait_chg (x0 : State) (x1 : Fault256) (x2 : List (List Nat)) (x3 : List Nat) :
    Chg 0x400021000400908 x0 (State.faultAwait x0 x1 x2 x3) := by
  unfold State.faultAwait
  extract_lets w1 t2 w3 w4 w5
  clear_value w1
  have ht2 : Chg 0x400021000400908 x0 t2 := by
    unfold t2
    refine Chg.step (State.fault_chg _ _ _) rfl ?_
    exact Chg.refl _ _
  clear_value t2
  clear_value w3
  clear_value w4
  clear_value w5
  refine Chg.upd_rel rfl ?_
  assumption


theorem State.convictRanges_chg (x0 : State) (x1 : Fault256) (x2 : List (Nat × Nat × Nat)) :
    Chg 0x428021089e98908 x0 (State.convictRanges x0 x1 x2) := by
  unfold State.convictRanges
  split
  extract_lets t1 w2 w3 w4 t5
  have ht1 : Chg 0x428021089e98908 x0 t1 := by
    unfold t1
    refine Chg.step (State.count_chg _ _ _) rfl ?_
    refine Chg.of_fst (by assumption) ?_
    refine Chg.foldl_fst ?_ ?_
    · intro u6 u7 u8
      split
      split
      refine Chg.fst_mk ?_
      refine Chg.of_fst (by assumption) ?_
      refine Chg.step (State.retractPeer_chg _ _ _ _ _ _ _ _ _) rfl ?_
      refine Chg.of_fst (by assumption) ?_
      refine Chg.step (State.convictLane_chg _ _ _ _) rfl ?_
      assumption
    · refine Chg.fst_mk ?_
      exact Chg.refl _ _
  clear_value t1
  clear_value w2
  clear_value w3
  clear_value w4
  have ht5 : Chg 0x428021089e98908 x0 t5 := by
    unfold t5
    refine Chg.step (State.faultAwait_chg _ _ _ _) rfl ?_
    assumption
  clear_value t5
  refine Chg.step (State.log_chg _ _) rfl ?_
  assumption


theorem State.convict_chg (x0 : State) (x1 : Nat) (x2 : Nat) (x3 : Nat) (x4 : Nat) (x5 : Nat) (x6 : Nat) :
    Chg 0x428021089e98908 x0 (State.convict x0 x1 x2 x3 x4 x5 x6) := by
  unfold State.convict
  split
  · exact Chg.refl _ _
  · extract_lets w1 w2 w3
    clear_value w1
    clear_value w2
    clear_value w3
    refine Chg.step (State.convictRanges_chg _ _ _) rfl ?_
    exact Chg.refl _ _


theorem State.setClean_chg (x0 : State) (x1 : Nat) :
    Chg 0x1000000000 x0 (State.setClean x0 x1) := by
  unfold State.setClean
  extract_lets w1
  clear_value w1
  refine Chg.upd_rel rfl ?_
  exact Chg.refl _ _


theorem State.calFall_chg (x0 : State) (x1 : Nat) (x2 : Nat) :
    Chg 0x400821000400908 x0 (State.calFall x0 x1 x2) := by
  unfold State.calFall
  extract_lets w1 t2 t3 t4
  clear_value w1
  have ht2 : Chg 0x400821000400908 x0 t2 := by
    unfold t2
    refine Chg.step (State.fset_chg _ _ _ _) rfl ?_
    exact Chg.refl _ _
  clear_value t2
  have ht3 : Chg 0x400821000400908 x0 t3 := by
    unfold t3
    refine Chg.step (State.flag_chg _ _ _) rfl ?_
    assumption
  clear_value t3
  have ht4 : Chg 0x400821000400908 x0 t4 := by
    unfold t4
    refine Chg.step (State.log_chg _ _) rfl ?_
    assumption
  clear_value t4
  refine Chg.ite ?_ ?_
  · exact Chg.refl _ _
  · refine Chg.ite ?_ ?_
    · refine Chg.step (State.suspect_chg _ _ _) rfl ?_
      assumption
    · assumption


theorem State.calRise_chg (x0 : State) (x1 : Nat) (x2 : Nat) :
    Chg 0x800000000008 x0 (State.calRise x0 x1 x2) := by
  unfold State.calRise
  refine Chg.ite ?_ ?_
  · refine Chg.step (State.flag_chg _ _ _) rfl ?_
    exact Chg.refl _ _
  · exact Chg.refl _ _


theorem State.levelChange_chg (x0 : State) (x1 : Nat) :
    Chg 0x60000400908 x0 (State.levelChange x0 x1) := by
  unfold State.levelChange
  extract_lets t1 t2
  have ht1 : Chg 0x60000400908 x0 t1 := by
    unfold t1
    refine Chg.step (State.fset_chg _ _ _ _) rfl ?_
    exact Chg.refl _ _
  clear_value t1
  have ht2 : Chg 0x60000400908 x0 t2 := by
    unfold t2
    refine Chg.step (State.log_chg _ _) rfl ?_
    assumption
  clear_value t2
  refine Chg.ite ?_ ?_
  · refine Chg.step (State.count_chg _ _ _) rfl ?_
    assumption
  · refine Chg.ite ?_ ?_
    · refine Chg.step (State.count_chg _ _ _) rfl ?_
      assumption
    · refine Chg.ite ?_ ?_
      · refine Chg.step (State.count_chg _ _ _) rfl ?_
        assumption
      · assumption


theorem State.halvePeriod_chg (x0 : State) (x1 : Nat) :
    Chg 0x400000004008 x0 (State.halvePeriod x0 x1) := by
  unfold State.halvePeriod
  extract_lets w1 w2 t3
  clear_value w1
  clear_value w2
  have ht3 : Chg 0x400000004008 x0 t3 := by
    unfold t3
    refine Chg.step (State.fset_chg _ _ _ _) rfl ?_
    exact Chg.refl _ _
  clear_value t3
  refine Chg.ite ?_ ?_
  · exact Chg.refl _ _
  · refine Chg.step (State.setRst_chg _ _ _) rfl ?_
    assumption


theorem State.levelThree_chg (x0 : State) :
    Chg 0x10064080600908 x0 (State.levelThree x0) := by
  unfold State.levelThree
  extract_lets w1 t2 w3 t4 w5
  clear_value w1
  have ht2 : Chg 0x10064080600908 x0 t2 := by
    unfold t2
    refine Chg.step (State.flag_chg _ _ _) rfl ?_
    refine Chg.upd_power rfl ?_
    exact Chg.refl _ _
  clear_value t2
  clear_value w3
  have ht4 : Chg 0x10064080600908 x0 t4 := by
    unfold t4
    refine Chg.step (State.suspendAll_chg _ _ _ _) rfl ?_
    assumption
  clear_value t4
  clear_value w5
  refine Chg.upd_power rfl ?_
  assumption


theorem State.raiseLevel_chg (x0 : State) (x1 : Nat) :
    Chg 0x10064080600908 x0 (State.raiseLevel x0 x1) := by
  unfold State.raiseLevel
  extract_lets w1 t2 t3
  clear_value w1
  have ht2 : Chg 0x10064080600908 x0 t2 := by
    unfold t2
    refine Chg.step (State.levelChange_chg _ _) rfl ?_
    exact Chg.refl _ _
  clear_value t2
  have ht3 : Chg 0x10064080600908 x0 t3 := by
    unfold t3
    refine Chg.ite ?_ ?_
    · refine Chg.step (State.flag_chg _ _ _) rfl ?_
      assumption
    · assumption
  clear_value t3
  refine Chg.ite ?_ ?_
  · exact Chg.refl _ _
  · refine Chg.ite ?_ ?_
    · refine Chg.step (State.levelThree_chg _) rfl ?_
      assumption
    · assumption


theorem State.guardOn_chg (x0 : State) (x1 : Nat) :
    Chg 0x410865080600908 x0 (State.guardOn x0 x1) := by
  unfold State.guardOn
  extract_lets w1 t2 t3 t4 t5 t6
  clear_value w1
  have ht2 : Chg 0x410865080600908 x0 t2 := by
    unfold t2
    refine Chg.upd_power rfl ?_
    exact Chg.refl _ _
  clear_value t2
  have ht3 : Chg 0x410865080600908 x0 t3 := by
    unfold t3
    refine Chg.step (State.flag_chg _ _ _) rfl ?_
    assumption
  clear_value t3
  have ht4 : Chg 0x410865080600908 x0 t4 := by
    unfold t4
    refine Chg.step (State.count_chg _ _ _) rfl ?_
    assumption
  clear_value t4
  have ht5 : Chg 0x410865080600908 x0 t5 := by
    unfold t5
    refine Chg.step (State.raiseLevel_chg _ _) rfl ?_
    assumption
  clear_value t5
  have ht6 : Chg 0x410865080600908 x0 t6 := by
    unfold t6
    refine Chg.foldl ?_ ?_
    · intro u7 u8 u9
      refine Chg.step (State.calFall_chg _ _ _) rfl ?_
      assumption
    · assumption
  clear_value t6
  refine Chg.ite ?_ ?_
  · exact Chg.refl _ _
  · refine Chg.step (State.log_chg _ _) rfl ?_
    assumption


theorem State.convictMaster_chg (x0 : State) (x1 : Nat) (x2 : Nat) :
    Chg 0x438021089e98908 x0 (State.convictMaster x0 x1 x2) := by
  unfold State.convictMaster
  extract_lets w1 t2 w3
  clear_value w1
  have ht2 : Chg 0x438021089e98908 x0 t2 := by
    unfold t2
    refine Chg.step (State.convict_chg _ _ _ _ _ _ _) rfl ?_
    exact Chg.refl _ _
  clear_value t2
  clear_value w3
  refine Chg.ite ?_ ?_
  · exact Chg.refl _ _
  · split
    · assumption
    · extract_lets w4 t5 t6 w7 t8
      clear_value w4
      have ht5 : Chg 0x438021089e98908 x0 t5 := by
        unfold t5
        refine Chg.upd_rel rfl ?_
        assumption
      clear_value t5
      have ht6 : Chg 0x438021089e98908 x0 t6 := by
        unfold t6
        refine Chg.step (State.log_chg _ _) rfl ?_
        assumption
      clear_value t6
      clear_value w7
      have ht8 : Chg 0x438021089e98908 x0 t8 := by
        unfold t8
        refine Chg.step (State.suspendAll_chg _ _ _ _) rfl ?_
        assumption
      clear_value t8
      refine Chg.ite ?_ ?_
      · refine Chg.foldl ?_ ?_
        · intro u9 u10 u11
          refine Chg.step (State.breakLane_chg _ _ _) rfl ?_
          assumption
        · assumption
      · assumption


theorem State.digestMismatch_chg (x0 : State) (x1 : Nat) (x2 : Nat) :
    Chg 0x438421089e98908 x0 (State.digestMismatch x0 x1 x2) := by
  unfold State.digestMismatch
  extract_lets t1 t2
  have ht1 : Chg 0x438421089e98908 x0 t1 := by
    unfold t1
    refine Chg.step (State.flag_chg _ _ _) rfl ?_
    exact Chg.refl _ _
  clear_value t1
  have ht2 : Chg 0x438421089e98908 x0 t2 := by
    unfold t2
    refine Chg.step (State.log_chg _ _) rfl ?_
    assumption
  clear_value t2
  refine Chg.step (State.convictMaster_chg _ _ _) rfl ?_
  assumption


theorem State.checkDigest_chg (x0 : State) (x1 : Nat) (x2 : Nat) (x3 : List Nat) :
    Chg 0x438421089e99908 x0 (State.checkDigest x0 x1 x2 x3) := by
  unfold State.checkDigest
  extract_lets w1 t2
  clear_value w1
  have ht2 : Chg 0x438421089e99908 x0 t2 := by
    unfold t2
    refine Chg.step (State.setEngine_chg _ _ _ _) rfl ?_
    exact Chg.refl _ _
  clear_value t2
  refine Chg.ite ?_ ?_
  · refine Chg.step (State.setClean_chg _ _) rfl ?_
    assumption
  · refine Chg.step (State.digestMismatch_chg _ _ _) rfl ?_
    assumption


theorem execSweepStart_chg (x0 : Nat) (x1 : State) :
    ChgR 0x400000005008 x1 (execSweepStart x0 x1) := by
  unfold execSweepStart
  extract_lets w1 w2 w3 t4 t5 t6
  clear_value w1
  clear_value w2
  clear_value w3
  have ht4 : Chg 0x400000005008 x1 t4 := by
    unfold t4
    refine Chg.step (State.fset_chg _ _ _ _) rfl ?_
    exact Chg.refl _ _
  clear_value t4
  have ht5 : Chg 0x400000005008 x1 t5 := by
    unfold t5
    refine Chg.step (State.setRst_chg _ _ _) rfl ?_
    assumption
  clear_value t5
  have ht6 : Chg 0x400000005008 x1 t6 := by
    unfold t6
    refine Chg.foldl ?_ ?_
    · intro u7 u8 u9
      extract_lets w10
      clear_value w10
      refine Chg.step (State.setEngine_chg _ _ _ _) rfl ?_
      assumption
    · assumption
  clear_value t6
  refine ChgR.ite ?_ ?_
  · refine ChgR.next ?_
    exact Chg.refl _ _
  · refine ChgR.next ?_
    refine Chg.step (State.fset_chg _ _ _ _) rfl ?_
    assumption


theorem State.visitLag_chg (x0 : State) (x1 : Nat) (x2 : Nat) :
    Chg 0x420000404f08 x0 (State.visitLag x0 x1 x2) := by
  unfold State.visitLag
  extract_lets t1 w2 t3 t4
  have ht1 : Chg 0x420000404f08 x0 t1 := by
    unfold t1
    refine Chg.ite ?_ ?_
    · refine Chg.step (State.fset_chg _ _ _ _) rfl ?_
      exact Chg.refl _ _
    · exact Chg.refl _ _
  clear_value t1
  clear_value w2
  have ht3 : Chg 0x420000404f08 x0 t3 := by
    unfold t3
    refine Chg.step (State.setRst_chg _ _ _) rfl ?_
    assumption
  clear_value t3
  have ht4 : Chg 0x420000404f08 x0 t4 := by
    unfold t4
    refine Chg.step (State.flag_chg _ _ _) rfl ?_
    assumption
  clear_value t4
  refine Chg.ite ?_ ?_
  · refine Chg.step (State.logRate_chg _ _ _ _) rfl ?_
    assumption
  · assumption


theorem State.memUe_chg (x0 : State) (x1 : Nat) :
    Chg 0x2020000400908 x0 (State.memUe x0 x1) := by
  unfold State.memUe
  extract_lets t1 t2 t3 t4 t5 t6 t7
  have ht1 : Chg 0x2020000400908 x0 t1 := by
    unfold t1
    refine Chg.step (State.count_chg _ _ _) rfl ?_
    exact Chg.refl _ _
  clear_value t1
  have ht2 : Chg 0x2020000400908 x0 t2 := by
    unfold t2
    refine Chg.step (State.flag_chg _ _ _) rfl ?_
    assumption
  clear_value t2
  have ht3 : Chg 0x2020000400908 x0 t3 := by
    unfold t3
    refine Chg.step (State.fset_chg _ _ _ _) rfl ?_
    assumption
  clear_value t3
  have ht4 : Chg 0x2020000400908 x0 t4 := by
    unfold t4
    refine Chg.step (State.fset_chg _ _ _ _) rfl ?_
    assumption
  clear_value t4
  have ht5 : Chg 0x2020000400908 x0 t5 := by
    unfold t5
    refine Chg.step (State.fset_chg _ _ _ _) rfl ?_
    assumption
  clear_value t5
  have ht6 : Chg 0x2020000400908 x0 t6 := by
    unfold t6
    refine Chg.step (State.fset_chg _ _ _ _) rfl ?_
    assumption
  clear_value t6
  have ht7 : Chg 0x2020000400908 x0 t7 := by
    unfold t7
    refine Chg.step (State.fset_chg _ _ _ _) rfl ?_
    assumption
  clear_value t7
  refine Chg.step (State.log_chg _ _) rfl ?_
  assumption


theorem State.memCe_chg (x0 : State) (x1 : Nat) :
    Chg 0x2020000400f08 x0 (State.memCe x0 x1) := by
  unfold State.memCe
  extract_lets t1 t2 t3 t4 t5 t6 t7
  have ht1 : Chg 0x2020000400f08 x0 t1 := by
    unfold t1
    refine Chg.step (State.count_chg _ _ _) rfl ?_
    exact Chg.refl _ _
  clear_value t1
  have ht2 : Chg 0x2020000400f08 x0 t2 := by
    unfold t2
    refine Chg.step (State.flag_chg _ _ _) rfl ?_
    assumption
  clear_value t2
  have ht3 : Chg 0x2020000400f08 x0 t3 := by
    unfold t3
    refine Chg.step (State.fset_chg _ _ _ _) rfl ?_
    assumption
  clear_value t3
  have ht4 : Chg 0x2020000400f08 x0 t4 := by
    unfold t4
    refine Chg.step (State.fset_chg _ _ _ _) rfl ?_
    assumption
  clear_value t4
  have ht5 : Chg 0x2020000400f08 x0 t5 := by
    unfold t5
    refine Chg.step (State.fset_chg _ _ _ _) rfl ?_
    assumption
  clear_value t5
  have ht6 : Chg 0x2020000400f08 x0 t6 := by
    unfold t6
    refine Chg.step (State.fset_chg _ _ _ _) rfl ?_
    assumption
  clear_value t6
  have ht7 : Chg 0x2020000400f08 x0 t7 := by
    unfold t7
    refine Chg.step (State.fset_chg _ _ _ _) rfl ?_
    assumption
  clear_value t7
  refine Chg.step (State.logRate_chg _ _ _ _) rfl ?_
  assumption


theorem State.visitRow_chg (x0 : State) (x1 : Nat) (x2 : Nat) (x3 : Nat) (x4 : Nat) (x5 : Sys2Proof.EccErr) :
    Chg 0x43a421089e99f08 x0 (State.visitRow x0 x1 x2 x3 x4 x5) := by
  unfold State.visitRow
  extract_lets w1 w2 w3 t4 w5 t6 w7
  clear_value w1
  clear_value w2
  clear_value w3
  have ht4 : Chg 0x43a421089e99f08 x0 t4 := by
    unfold t4
    refine Chg.ite ?_ ?_
    · refine Chg.step (State.memCe_chg _ _) rfl ?_
      exact Chg.refl _ _
    · exact Chg.refl _ _
  clear_value t4
  clear_value w5
  have ht6 : Chg 0x43a421089e99f08 x0 t6 := by
    unfold t6
    refine Chg.step (State.rewriteRow_chg _ _ _ _ _) rfl ?_
    assumption
  clear_value t6
  clear_value w7
  split
  · refine Chg.step (State.digestMismatch_chg _ _ _) rfl ?_
    refine Chg.step (State.memUe_chg _ _) rfl ?_
    exact Chg.refl _ _
  · refine Chg.step (State.setEngine_chg _ _ _ _) rfl ?_
    assumption


theorem execRowVisit_chg (x0 : Nat) (x1 : Nat) (x2 : Nat) (x3 : Sys2Proof.EccErr) (x4 : State) :
    ChgR 0x43a421089e9df08 x4 (execRowVisit x0 x1 x2 x3 x4) := by
  unfold execRowVisit
  extract_lets w1 w2 w3 t4 t5 w6
  clear_value w1
  clear_value w2
  clear_value w3
  have ht4 : Chg 0x43a421089e9df08 x4 t4 := by
    unfold t4
    refine Chg.step (State.visitRow_chg _ _ _ _ _ _) rfl ?_
    exact Chg.refl _ _
  clear_value t4
  have ht5 : Chg 0x43a421089e9df08 x4 t5 := by
    unfold t5
    refine Chg.step (State.visitLag_chg _ _ _) rfl ?_
    assumption
  clear_value t5
  clear_value w6
  refine ChgR.ite ?_ ?_
  · refine ChgR.next ?_
    exact Chg.refl _ _
  · refine ChgR.next ?_
    refine Chg.step (State.setRst_chg _ _ _) rfl ?_
    assumption


theorem State.droop_chg (x0 : State) (x1 : Nat) (x2 : Nat) :
    Chg 0x410c65080604908 x0 (State.droop x0 x1 x2) := by
  unfold State.droop
  extract_lets t1 w2 t3 w4 t5 t6 t7
  have ht1 : Chg 0x410c65080604908 x0 t1 := by
    unfold t1
    refine Chg.step (State.fset_chg _ _ _ _) rfl ?_
    exact Chg.refl _ _
  clear_value t1
  clear_value w2
  have ht3 : Chg 0x410c65080604908 x0 t3 := by
    unfold t3
    refine Chg.step (State.fset_chg _ _ _ _) rfl ?_
    assumption
  clear_value t3
  clear_value w4
  have ht5 : Chg 0x410c65080604908 x0 t5 := by
    unfold t5
    refine Chg.step (State.setRst_chg _ _ _) rfl ?_
    assumption
  clear_value t5
  have ht6 : Chg 0x410c65080604908 x0 t6 := by
    unfold t6
    refine Chg.step (State.flag_chg _ _ _) rfl ?_
    assumption
  clear_value t6
  have ht7 : Chg 0x410c65080604908 x0 t7 := by
    unfold t7
    refine Chg.step (State.log_chg _ _) rfl ?_
    assumption
  clear_value t7
  refine Chg.ite ?_ ?_
  · refine Chg.step (State.guardOn_chg _ _) rfl ?_
    assumption
  · assumption


theorem State.noteSwept_chg (x0 : State) (x1 : Nat) (x2 : Nat) :
    Chg 0x40000 x0 (State.noteSwept x0 x1 x2) := by
  unfold State.noteSwept
  split
  · extract_lets w1
    clear_value w1
    refine Chg.ite ?_ ?_
    · exact Chg.refl _ _
    · refine Chg.step (State.setModel_chg _ _) rfl ?_
      exact Chg.refl _ _
  · exact Chg.refl _ _


theorem execSweepEnd_chg (x0 : Nat) (x1 : Nat) (x2 : State) :
    ChgR 0x438c65089edd908 x2 (execSweepEnd x0 x1 x2) := by
  unfold execSweepEnd
  extract_lets w1 t2 t3 t4 t5 t6
  clear_value w1
  have ht2 : Chg 0x438c65089edd908 x2 t2 := by
    unfold t2
    refine Chg.step (State.setRst_chg _ _ _) rfl ?_
    exact Chg.refl _ _
  clear_value t2
  have ht3 : Chg 0x438c65089edd908 x2 t3 := by
    unfold t3
    refine Chg.step (State.fset_chg _ _ _ _) rfl ?_
    assumption
  clear_value t3
  have ht4 : Chg 0x438c65089edd908 x2 t4 := by
    unfold t4
    refine Chg.step (State.count_chg _ _ _) rfl ?_
    assumption
  clear_value t4
  have ht5 : Chg 0x438c65089edd908 x2 t5 := by
    unfold t5
    refine Chg.ite ?_ ?_
    · refine Chg.step (State.count_chg _ _ _) rfl ?_
      assumption
    · assumption
  clear_value t5
  have ht6 : Chg 0x438c65089edd908 x2 t6 := by
    unfold t6
    refine Chg.foldl ?_ ?_
    · intro u7 u8 u9
      extract_lets w10 t11 t12
      clear_value w10
      have ht11 : Chg 0x438c65089edd908 x2 t11 := by
        unfold t11
        refine Chg.step (State.setEngine_chg _ _ _ _) rfl ?_
        assumption
      clear_value t11
      have ht12 : Chg 0x438c65089edd908 x2 t12 := by
        unfold t12
        refine Chg.step (State.checkDigest_chg _ _ _ _) rfl ?_
        assumption
      clear_value t12
      refine Chg.step (State.noteSwept_chg _ _ _) rfl ?_
      assumption
    · assumption
  clear_value t6
  refine ChgR.ite ?_ ?_
  · refine ChgR.next ?_
    exact Chg.refl _ _
  · refine ChgR.next ?_
    refine Chg.step (State.droop_chg _ _ _) rfl ?_
    assumption


theorem execModelDigestForm_chg (x0 : Nat) (x1 : Nat) (x2 : State) :
    ChgR 0x40000 x2 (execModelDigestForm x0 x1 x2) := by
  unfold execModelDigestForm
  split
  · refine ChgR.next ?_
    exact Chg.refl _ _
  · extract_lets w1
    clear_value w1
    refine ChgR.ite ?_ ?_
    · refine ChgR.next ?_
      exact Chg.refl _ _
    · refine ChgR.next ?_
      refine Chg.step (State.setModel_chg _ _) rfl ?_
      exact Chg.refl _ _


theorem execCalibrationCycle_chg (x0 : Nat) (x1 : Nat) (x2 : Nat) (x3 : Sys2Proof.CalSetting) (x4 : Bool) (x5 : State) :
    ChgR 0x1004 x5 (execCalibrationCycle x0 x1 x2 x3 x4 x5) := by
  unfold execCalibrationCycle
  refine ChgR.ite ?_ ?_
  · refine ChgR.next ?_
    exact Chg.refl _ _
  · split
    · refine ChgR.next ?_
      exact Chg.refl _ _
    · extract_lets w1 w2 w3 w4 w5 w6
      clear_value w1
      clear_value w2
      clear_value w3
      clear_value w4
      clear_value w5
      clear_value w6
      refine ChgR.ite ?_ ?_
      · refine ChgR.next ?_
        exact Chg.refl _ _
      · refine ChgR.next ?_
        refine Chg.step (State.draw_chg _ _) rfl ?_
        refine Chg.step (State.setEngine_chg _ _ _ _) rfl ?_
        exact Chg.refl _ _


theorem State.calFail_chg (x0 : State) (x1 : Nat) (x2 : Nat) (x3 : Nat) :
    Chg 0x4004a1040404f08 x0 (State.calFail x0 x1 x2 x3) := by
  unfold State.calFail
  extract_lets t1 t2 w3
  have ht1 : Chg 0x4004a1040404f08 x0 t1 := by
    unfold t1
    refine Chg.step (State.flag_chg _ _ _) rfl ?_
    exact Chg.refl _ _
  clear_value t1
  have ht2 : Chg 0x4004a1040404f08 x0 t2 := by
    unfold t2
    refine Chg.step (State.logRate_chg _ _ _ _) rfl ?_
    assumption
  clear_value t2
  clear_value w3
  refine Chg.ite ?_ ?_
  · refine Chg.step (State.confirm_chg _ _ _) rfl ?_
    assumption
  · refine Chg.step (State.suspect_chg _ _ _) rfl ?_
    assumption


theorem State.formPass_chg (x0 : State) (x1 : Nat) (x2 : Nat) (x3 : Nat) (x4 : Bool) :
    Chg 0x4004a1040405f0c x0 (State.formPass x0 x1 x2 x3 x4) := by
  unfold State.formPass
  extract_lets w1 w2 w3 w4 w5 t6 t7 t8
  clear_value w1
  clear_value w2
  clear_value w3
  clear_value w4
  clear_value w5
  have ht6 : Chg 0x4004a1040405f0c x0 t6 := by
    unfold t6
    refine Chg.step (State.setEngine_chg _ _ _ _) rfl ?_
    exact Chg.refl _ _
  clear_value t6
  have ht7 : Chg 0x4004a1040405f0c x0 t7 := by
    unfold t7
    refine Chg.step (State.draw_chg _ _) rfl ?_
    assumption
  clear_value t7
  have ht8 : Chg 0x4004a1040405f0c x0 t8 := by
    unfold t8
    refine Chg.foldl ?_ ?_
    · intro u9 u10 u11
      refine Chg.step (State.calFail_chg _ _ _ _) rfl ?_
      assumption
    · assumption
  clear_value t8
  refine Chg.foldl ?_ ?_
  · intro u12 u13 u14
    refine Chg.ite ?_ ?_
    · assumption
    · refine Chg.step (State.cleanWindow_chg _ _) rfl ?_
      assumption
  · assumption


theorem execCalPassDone_chg (x0 : Nat) (x1 : Nat) (x2 : Nat) (x3 : State) :
    ChgR 0x400ca1040405f0c x3 (execCalPassDone x0 x1 x2 x3) := by
  unfold execCalPassDone
  extract_lets w1 w2 t3 t4 t5
  clear_value w1
  clear_value w2
  have ht3 : Chg 0x400ca1040405f0c x3 t3 := by
    unfold t3
    refine Chg.step (State.setEngine_chg _ _ _ _) rfl ?_
    exact Chg.refl _ _
  clear_value t3
  have ht4 : Chg 0x400ca1040405f0c x3 t4 := by
    unfold t4
    refine Chg.step (State.formPass_chg _ _ _ _ _) rfl ?_
    assumption
  clear_value t4
  have ht5 : Chg 0x400ca1040405f0c x3 t5 := by
    unfold t5
    refine Chg.step (State.count_chg _ _ _) rfl ?_
    assumption
  clear_value t5
  refine ChgR.ite ?_ ?_
  · refine ChgR.next ?_
    exact Chg.refl _ _
  · refine ChgR.next ?_
    refine Chg.step (State.calRise_chg _ _ _) rfl ?_
    assumption


theorem State.startupRefs_chg (x0 : State) (x1 : Nat) (x2 : Nat) :
    Chg 0x1004 x0 (State.startupRefs x0 x1 x2) := by
  unfold State.startupRefs
  extract_lets w1 w2 w3
  clear_value w1
  clear_value w2
  clear_value w3
  refine Chg.step (State.draw_chg _ _) rfl ?_
  refine Chg.step (State.setEngine_chg _ _ _ _) rfl ?_
  exact Chg.refl _ _


theorem State.startupEngine_chg (x0 : State) (x1 : Nat) (x2 : Nat) :
    Chg 0x400ca1040405f0c x0 (State.startupEngine x0 x1 x2) := by
  unfold State.startupEngine
  extract_lets w1 w2 w3 t4 t5
  clear_value w1
  clear_value w2
  clear_value w3
  have ht4 : Chg 0x400ca1040405f0c x0 t4 := by
    unfold t4
    refine Chg.step (State.draw_chg _ _) rfl ?_
    refine Chg.step (State.setEngine_chg _ _ _ _) rfl ?_
    exact Chg.refl _ _
  clear_value t4
  have ht5 : Chg 0x400ca1040405f0c x0 t5 := by
    unfold t5
    refine Chg.step (State.formPass_chg _ _ _ _ _) rfl ?_
    refine Chg.step (State.formPass_chg _ _ _ _ _) rfl ?_
    assumption
  clear_value t5
  refine Chg.step (State.calRise_chg _ _ _) rfl ?_
  refine Chg.step (State.startupRefs_chg _ _ _) rfl ?_
  assumption


theorem execStartupPass_chg (x0 : Nat) (x1 : State) :
    ChgR 0x400ca1040405f0c x1 (execStartupPass x0 x1) := by
  unfold execStartupPass
  refine ChgR.ite ?_ ?_
  · refine ChgR.next ?_
    exact Chg.refl _ _
  · refine ChgR.next ?_
    refine Chg.foldl ?_ ?_
    · intro u1 u2 u3
      refine Chg.step (State.startupEngine_chg _ _ _) rfl ?_
      assumption
    · exact Chg.refl _ _


theorem execCalValidExpiry_chg (x0 : Nat) (x1 : Nat) (x2 : State) :
    ChgR 0x400821000400908 x2 (execCalValidExpiry x0 x1 x2) := by
  unfold execCalValidExpiry
  refine ChgR.ite ?_ ?_
  · refine ChgR.next ?_
    exact Chg.refl _ _
  · refine ChgR.next ?_
    refine Chg.step (State.calFall_chg _ _ _) rfl ?_
    exact Chg.refl _ _


theorem execRstCalPass_chg (x0 : Nat) (x1 : State) :
    ChgR 0x1000 x1 (execRstCalPass x0 x1) := by
  unfold execRstCalPass
  refine ChgR.ite ?_ ?_
  · refine ChgR.next ?_
    exact Chg.refl _ _
  · refine ChgR.next ?_
    refine Chg.foldl ?_ ?_
    · intro u1 u2 u3
      extract_lets w4
      clear_value w4
      refine Chg.step (State.setEngine_chg _ _ _ _) rfl ?_
      assumption
    · exact Chg.refl _ _


theorem State.substitute_chg (x0 : State) (x1 : Nat) (x2 : Nat) (x3 : Nat) :
    Chg 0x4004a1040404908 x0 (State.substitute x0 x1 x2 x3) := by
  unfold State.substitute
  extract_lets w1 t2 t3
  clear_value w1
  have ht2 : Chg 0x4004a1040404908 x0 t2 := by
    unfold t2
    refine Chg.step (State.flag_chg _ _ _) rfl ?_
    exact Chg.refl _ _
  clear_value t2
  have ht3 : Chg 0x4004a1040404908 x0 t3 := by
    unfold t3
    refine Chg.step (State.log_chg _ _) rfl ?_
    assumption
  clear_value t3
  refine Chg.ite ?_ ?_
  · exact Chg.refl _ _
  · split
    · refine Chg.step (State.retire_chg _ _ _) rfl ?_
      assumption
    · extract_lets w4 t5 t6 w7 w8
      clear_value w4
      have ht5 : Chg 0x4004a1040404908 x0 t5 := by
        unfold t5
        refine Chg.step (State.fset_chg _ _ _ _) rfl ?_
        exact Chg.refl _ _
      clear_value t5
      have ht6 : Chg 0x4004a1040404908 x0 t6 := by
        unfold t6
        refine Chg.step (State.fset_chg _ _ _ _) rfl ?_
        assumption
      clear_value t6
      clear_value w7
      clear_value w8
      refine Chg.step (State.setRst_chg _ _ _) rfl ?_
      assumption


theorem execSpareSubstitute_chg (x0 : Nat) (x1 : Nat) (x2 : Nat) (x3 : State) :
    ChgR 0x4004a1040404908 x3 (execSpareSubstitute x0 x1 x2 x3) := by
  unfold execSpareSubstitute
  refine ChgR.next ?_
  refine Chg.foldl ?_ ?_
  · intro u1 u2 u3
    refine Chg.step (State.substitute_chg _ _ _ _) rfl ?_
    assumption
  · exact Chg.refl _ _


theorem execSpareActivate_chg (x0 : Nat) (x1 : Nat) (x2 : Nat) (x3 : State) :
    ChgR 0x400421000404908 x3 (execSpareActivate x0 x1 x2 x3) := by
  unfold execSpareActivate
  extract_lets w1 w2 w3 t4 t5 t6
  clear_value w1
  clear_value w2
  clear_value w3
  have ht4 : Chg 0x400421000404908 x3 t4 := by
    unfold t4
    refine Chg.step (State.fset_chg _ _ _ _) rfl ?_
    exact Chg.refl _ _
  clear_value t4
  have ht5 : Chg 0x400421000404908 x3 t5 := by
    unfold t5
    refine Chg.step (State.setRst_chg _ _ _) rfl ?_
    assumption
  clear_value t5
  have ht6 : Chg 0x400421000404908 x3 t6 := by
    unfold t6
    refine Chg.step (State.log_chg _ _) rfl ?_
    assumption
  clear_value t6
  refine ChgR.ite ?_ ?_
  · refine ChgR.next ?_
    exact Chg.refl _ _
  · refine ChgR.next ?_
    refine Chg.step (State.unitFault_chg _ _ _ _) rfl ?_
    assumption


theorem State.zeroCore_chg (x0 : State) (x1 : Nat) :
    Chg 0x800000001008 x0 (State.zeroCore x0 x1) := by
  unfold State.zeroCore
  refine Chg.foldl ?_ ?_
  · intro u1 u2 u3
    extract_lets t4
    have ht4 : Chg 0x800000001008 x0 t4 := by
      unfold t4
      refine Chg.step (State.setEngine_chg _ _ _ _) rfl ?_
      assumption
    clear_value t4
    refine Chg.step (State.fset_chg _ _ _ _) rfl ?_
    assumption
  · exact Chg.refl _ _


theorem State.beginBleed_chg (x0 : State) (x1 : Nat) (x2 : Nat) (x3 : Nat) :
    Chg 0x800002000001008 x0 (State.beginBleed x0 x1 x2 x3) := by
  unfold State.beginBleed
  extract_lets t1 w2 t3
  have ht1 : Chg 0x800002000001008 x0 t1 := by
    unfold t1
    refine Chg.foldl ?_ ?_
    · intro u4 u5 u6
      refine Chg.step (State.setEngine_chg _ _ _ _) rfl ?_
      assumption
    · exact Chg.refl _ _
  clear_value t1
  clear_value w2
  have ht3 : Chg 0x800002000001008 x0 t3 := by
    unfold t3
    refine Chg.upd_keep rfl ?_
    assumption
  clear_value t3
  refine Chg.step (State.fset_chg _ _ _ _) rfl ?_
  assumption


theorem State.snapEngine_chg (x0 : State) (x1 : Nat) (x2 : Nat) :
    Chg 0x40002100040190c x0 (State.snapEngine x0 x1 x2) := by
  unfold State.snapEngine
  extract_lets w1 t2 w3 w4 t5 w6 w7 w8 w9 w10
  clear_value w1
  have ht2 : Chg 0x40002100040190c x0 t2 := by
    unfold t2
    refine Chg.step (State.draw_chg _ _) rfl ?_
    exact Chg.refl _ _
  clear_value t2
  clear_value w3
  clear_value w4
  have ht5 : Chg 0x40002100040190c x0 t5 := by
    unfold t5
    refine Chg.ite ?_ ?_
    · refine Chg.step (State.suspect_chg _ _ _) rfl ?_
      assumption
    · assumption
  clear_value t5
  clear_value w6
  clear_value w7
  clear_value w8
  clear_value w9
  clear_value w10
  refine Chg.step (State.setEngine_chg _ _ _ _) rfl ?_
  assumption


theorem execPassportSnap_chg (x0 : Nat) (x1 : State) :
    ChgR 0x40002100040190c x1 (execPassportSnap x0 x1) := by
  unfold execPassportSnap
  refine ChgR.ite ?_ ?_
  · refine ChgR.next ?_
    exact Chg.refl _ _
  · refine ChgR.next ?_
    refine Chg.foldl ?_ ?_
    · intro u1 u2 u3
      refine Chg.step (State.snapEngine_chg _ _ _) rfl ?_
      assumption
    · exact Chg.refl _ _


theorem execRstCommit_chg (x0 : Nat) (x1 : State) :
    ChgR 0x420000400908 x1 (execRstCommit x0 x1) := by
  unfold execRstCommit
  extract_lets w1 w2
  clear_value w1
  clear_value w2
  refine ChgR.ite ?_ ?_
  · refine ChgR.next ?_
    exact Chg.refl _ _
  · refine ChgR.ite ?_ ?_
    · refine ChgR.next ?_
      refine State.applyAll_chg (by repeat' (first | exact all_nil | refine all_fm rfl ?_)) ?_
      exact Chg.refl _ _
    · refine ChgR.next ?_
      refine Chg.step (State.log_chg _ _) rfl ?_
      refine Chg.step (State.flag_chg _ _ _) rfl ?_
      exact Chg.refl _ _


theorem State.rxPlace_chg (x0 : State) (x1 : Nat) (x2 : Nat) :
    Chg 0x8000 x0 (State.rxPlace x0 x1 x2).2 := by
  unfold State.rxPlace
  extract_lets w1 w2
  clear_value w1
  clear_value w2
  refine Chg.snd_mk ?_
  refine Chg.step (State.setCore_chg _ _ _) rfl ?_
  exact Chg.refl _ _


theorem State.landVec_chg (x0 : State) (x1 : Nat) (x2 : VecIn) (x3 : Bool) (x4 : Nat) :
    Chg 0x28000 x0 (State.landVec x0 x1 x2 x3 x4) := by
  unfold State.landVec
  extract_lets w1 w2
  clear_value w1
  clear_value w2
  split
  extract_lets w3 w4
  clear_value w3
  clear_value w4
  split
  extract_lets t5 w6 w7 w8
  have ht5 : Chg 0x28000 x0 t5 := by
    unfold t5
    refine Chg.step (State.sramWrite_chg _ _ _ _) rfl ?_
    refine Chg.of_snd (by assumption) ?_
    refine Chg.step (State.rxPlace_chg _ _ _) rfl ?_
    exact Chg.refl _ _
  clear_value t5
  clear_value w6
  clear_value w7
  clear_value w8
  refine Chg.step (State.setCore_chg _ _ _) rfl ?_
  assumption


theorem State.sendKParts_chg (x0 : State) (x1 : Nat) (x2 : VecIn) :
    Chg 0x80000 x0 (State.sendKParts x0 x1 x2) := by
  unfold State.sendKParts
  split
  · exact Chg.refl _ _
  · extract_lets w1 w2
    clear_value w1
    clear_value w2
    refine Chg.foldl ?_ ?_
    · intro u3 u4 u5
      refine Chg.step (State.postHeld_chg _ _) rfl ?_
      assumption
    · exact Chg.refl _ _


theorem State.dropVec_chg (x0 : State) (x1 : Nat) (x2 : Nat) (x3 : Nat) (x4 : Nat) :
    Chg 0x12000040b908 x0 (State.dropVec x0 x1 x2 x3 x4) := by
  unfold State.dropVec
  extract_lets w1 t2
  have ht2 : Chg 0x12000040b908 x0 t2 := by
    unfold t2
    refine Chg.foldl ?_ ?_
    · intro u3 u4 u5
      extract_lets w6
      clear_value w6
      refine Chg.ite ?_ ?_
      · refine Chg.step (State.setTile_chg _ _ _ _) rfl ?_
        assumption
      · assumption
    · exact Chg.refl _ _
  clear_value t2
  refine Chg.foldl ?_ ?_
  · intro u7 u8 u9
    extract_lets w10 w11 w12 t13 w14 t15
    clear_value w10
    clear_value w11
    clear_value w12
    have ht13 : Chg 0x12000040b908 x0 t13 := by
      unfold t13
      refine Chg.step (State.setEngine_chg _ _ _ _) rfl ?_
      assumption
    clear_value t13
    clear_value w14
    have ht15 : Chg 0x12000040b908 x0 t15 := by
      unfold t15
      refine Chg.step (State.setCore_chg _ _ _) rfl ?_
      assumption
    clear_value t15
    refine Chg.ite ?_ ?_
    · refine Chg.ite ?_ ?_
      · refine Chg.step (State.beginTile_chg _ _ _ _ _ _ _) rfl ?_
        assumption
      · assumption
    · assumption
  · assumption


theorem State.replayVec_chg (x0 : State) (x1 : Nat) (x2 : Nat) (x3 : Nat) (x4 : Nat) :
    Chg 0x12000069b908 x0 (State.replayVec x0 x1 x2 x3 x4) := by
  unfold State.replayVec
  extract_lets w1 w2 w3 t4 t5
  clear_value w1
  clear_value w2
  have ht4 : Chg 0x12000069b908 x0 t4 := by
    unfold t4
    refine Chg.foldl ?_ ?_
    · intro u6 u7 u8
      extract_lets t9 w10 t11 w12
      have ht9 : Chg 0x12000069b908 x0 t9 := by
        unfold t9
        refine Chg.step (State.dropVec_chg _ _ _ _ _) rfl ?_
        assumption
      clear_value t9
      clear_value w10
      have ht11 : Chg 0x12000069b908 x0 t11 := by
        unfold t11
        refine Chg.step (State.setSeq_chg _ _ _) rfl ?_
        assumption
      clear_value t11
      clear_value w12
      refine Chg.step (State.setCore_chg _ _ _) rfl ?_
      assumption
    · exact Chg.refl _ _
  clear_value t4
  have ht5 : Chg 0x12000069b908 x0 t5 := by
    unfold t5
    refine Chg.upd_items rfl ?_
    assumption
  clear_value t5
  split
  · assumption
  · refine Chg.step (State.sendKParts_chg _ _ _) rfl ?_
    assumption


theorem State.replayAll_chg (x0 : State) (x1 : Nat) :
    Chg 0x12000069b908 x0 (State.replayAll x0 x1) := by
  unfold State.replayAll
  refine Chg.foldl ?_ ?_
  · intro u1 u2 u3
    refine Chg.step (State.replayVec_chg _ _ _ _ _) rfl ?_
    assumption
  · exact Chg.refl _ _


theorem State.setOtherBank_chg (x0 : State) (x1 : Nat) (x2 : Tab Nat) :
    Chg 0x8000 x0 (State.setOtherBank x0 x1 x2) := by
  unfold State.setOtherBank
  extract_lets w1
  clear_value w1
  refine Chg.step (State.setCore_chg _ _ _) rfl ?_
  exact Chg.refl _ _


theorem State.zeroScratch_chg (x0 : State) (x1 : Nat) :
    Chg 0x9000 x0 (State.zeroScratch x0 x1) := by
  unfold State.zeroScratch
  extract_lets t1 w2
  have ht1 : Chg 0x9000 x0 t1 := by
    unfold t1
    refine Chg.foldl ?_ ?_
    · intro u3 u4 u5
      refine Chg.step (State.setEngine_chg _ _ _ _) rfl ?_
      assumption
    · exact Chg.refl _ _
  clear_value t1
  clear_value w2
  refine Chg.step (State.setCore_chg _ _ _) rfl ?_
  assumption


theorem State.beginCore_chg (x0 : State) (x1 : Nat) :
    Chg 0x3a000041b90c x0 (State.beginCore x0 x1) := by
  unfold State.beginCore
  extract_lets t1 t2 t3 t4 t5 w6 t7 w8 w9 t10 w11 t12 t13
  have ht1 : Chg 0x3a000041b90c x0 t1 := by
    unfold t1
    refine Chg.step (State.fset_chg _ _ _ _) rfl ?_
    exact Chg.refl _ _
  clear_value t1
  have ht2 : Chg 0x3a000041b90c x0 t2 := by
    unfold t2
    refine Chg.step (State.fset_chg _ _ _ _) rfl ?_
    assumption
  clear_value t2
  have ht3 : Chg 0x3a000041b90c x0 t3 := by
    unfold t3
    refine Chg.step (State.fset_chg _ _ _ _) rfl ?_
    assumption
  clear_value t3
  have ht4 : Chg 0x3a000041b90c x0 t4 := by
    unfold t4
    refine Chg.step (State.fset_chg _ _ _ _) rfl ?_
    assumption
  clear_value t4
  have ht5 : Chg 0x3a000041b90c x0 t5 := by
    unfold t5
    refine Chg.step (State.zeroScratch_chg _ _) rfl ?_
    assumption
  clear_value t5
  clear_value w6
  have ht7 : Chg 0x3a000041b90c x0 t7 := by
    unfold t7
    refine Chg.step (State.setCore_chg _ _ _) rfl ?_
    assumption
  clear_value t7
  clear_value w8
  clear_value w9
  have ht10 : Chg 0x3a000041b90c x0 t10 := by
    unfold t10
    refine Chg.step (State.setSeq_chg _ _ _) rfl ?_
    assumption
  clear_value t10
  clear_value w11
  have ht12 : Chg 0x3a000041b90c x0 t12 := by
    unfold t12
    refine Chg.ite ?_ ?_
    · assumption
    · refine Chg.step (State.draw_chg _ _) rfl ?_
      refine Chg.step (State.fset_chg _ _ _ _) rfl ?_
      assumption
  clear_value t12
  have ht13 : Chg 0x3a000041b90c x0 t13 := by
    unfold t13
    refine Chg.step (State.fset_chg _ _ _ _) rfl ?_
    assumption
  clear_value t13
  refine Chg.step (State.beginTile_chg _ _ _ _ _ _ _) rfl ?_
  refine Chg.step (State.beginTile_chg _ _ _ _ _ _ _) rfl ?_
  assumption


theorem State.coreStart_chg (x0 : State) (x1 : Nat) :
    Chg 0x3a200041b90c x0 (State.coreStart x0 x1) := by
  unfold State.coreStart
  extract_lets w1 w2 t3 t4
  clear_value w1
  clear_value w2
  have ht3 : Chg 0x3a200041b90c x0 t3 := by
    unfold t3
    refine Chg.step (State.flag_chg _ _ _) rfl ?_
    exact Chg.refl _ _
  clear_value t3
  have ht4 : Chg 0x3a200041b90c x0 t4 := by
    unfold t4
    refine Chg.step (State.fset_chg _ _ _ _) rfl ?_
    assumption
  clear_value t4
  refine Chg.ite ?_ ?_
  · exact Chg.refl _ _
  · refine Chg.ite ?_ ?_
    · refine Chg.ite ?_ ?_
      · refine Chg.upd_keep rfl ?_
        exact Chg.refl _ _
      · refine Chg.step (State.beginCore_chg _ _) rfl ?_
        exact Chg.refl _ _
    · refine Chg.step (State.log_chg _ _) rfl ?_
      assumption


theorem execCoreStart_chg (x0 : Nat) (x1 : State) :
    ChgR 0x3a200041b90c x1 (execCoreStart x0 x1) := by
  unfold execCoreStart
  refine ChgR.next ?_
  refine Chg.step (State.coreStart_chg _ _) rfl ?_
  exact Chg.refl _ _


theorem State.coreAsk_chg (x0 : State) (x1 : Nat) (x2 : CoreReq) :
    Chg 0xa0000408908 x0 (State.coreAsk x0 x1 x2) := by
  unfold State.coreAsk
  extract_lets w1 w2
  clear_value w1
  clear_value w2
  refine Chg.ite ?_ ?_
  · exact Chg.refl _ _
  · refine Chg.ite ?_ ?_
    · refine Chg.step (State.log_chg _ _) rfl ?_
      refine Chg.step (State.flag_chg _ _ _) rfl ?_
      exact Chg.refl _ _
    · refine Chg.step (State.setCore_chg _ _ _) rfl ?_
      exact Chg.refl _ _


theorem execCoreStop_chg (x0 : Nat) (x1 : State) :
    ChgR 0xa0000408908 x1 (execCoreStop x0 x1) := by
  unfold execCoreStop
  refine ChgR.next ?_
  refine Chg.step (State.coreAsk_chg _ _ _) rfl ?_
  exact Chg.refl _ _


theorem execCoreHalt_chg (x0 : Nat) (x1 : State) :
    ChgR 0xa0000408908 x1 (execCoreHalt x0 x1) := by
  unfold execCoreHalt
  refine ChgR.next ?_
  refine Chg.step (State.coreAsk_chg _ _ _) rfl ?_
  exact Chg.refl _ _


theorem State.coreResume_chg (x0 : State) (x1 : Nat) :
    Chg 0x80000008008 x0 (State.coreResume x0 x1) := by
  unfold State.coreResume
  extract_lets t1 t2 w3
  have ht1 : Chg 0x80000008008 x0 t1 := by
    unfold t1
    refine Chg.step (State.fset_chg _ _ _ _) rfl ?_
    exact Chg.refl _ _
  clear_value t1
  have ht2 : Chg 0x80000008008 x0 t2 := by
    unfold t2
    refine Chg.step (State.fset_chg _ _ _ _) rfl ?_
    assumption
  clear_value t2
  clear_value w3
  refine Chg.ite ?_ ?_
  · exact Chg.refl _ _
  · refine Chg.step (State.setCore_chg _ _ _) rfl ?_
    assumption


theorem execCoreResume_chg (x0 : Nat) (x1 : State) :
    ChgR 0x80000008008 x1 (execCoreResume x0 x1) := by
  unfold execCoreResume
  refine ChgR.next ?_
  refine Chg.step (State.coreResume_chg _ _) rfl ?_
  exact Chg.refl _ _


theorem State.coreStep_chg (x0 : State) (x1 : Nat) :
    Chg 0x8000 x0 (State.coreStep x0 x1) := by
  unfold State.coreStep
  extract_lets w1
  clear_value w1
  refine Chg.ite ?_ ?_
  · exact Chg.refl _ _
  · refine Chg.step (State.setCore_chg _ _ _) rfl ?_
    exact Chg.refl _ _


theorem execCoreStep_chg (x0 : Nat) (x1 : State) :
    ChgR 0x8000 x1 (execCoreStep x0 x1) := by
  unfold execCoreStep
  refine ChgR.next ?_
  refine Chg.step (State.coreStep_chg _ _) rfl ?_
  exact Chg.refl _ _


theorem execCoreVectorBoundary_chg (x0 : Nat) (x1 : State) :
    ChgR 0x80000008008 x1 (execCoreVectorBoundary x0 x1) := by
  unfold execCoreVectorBoundary
  extract_lets w1
  clear_value w1
  refine ChgR.ite ?_ ?_
  · refine ChgR.next ?_
    exact Chg.refl _ _
  · split
    · refine ChgR.next ?_
      refine Chg.step (State.setCore_chg _ _ _) rfl ?_
      refine Chg.step (State.fset_chg _ _ _ _) rfl ?_
      exact Chg.refl _ _
    · refine ChgR.next ?_
      refine Chg.step (State.setCore_chg _ _ _) rfl ?_
      refine Chg.step (State.fset_chg _ _ _ _) rfl ?_
      exact Chg.refl _ _
    · refine ChgR.next ?_
      exact Chg.refl _ _


theorem State.idleSlot_chg (x0 : State) (x1 : Nat) (x2 : Nat) :
    Chg 0x800000001008 x0 (State.idleSlot x0 x1 x2) := by
  unfold State.idleSlot
  extract_lets w1 w2
  clear_value w1
  clear_value w2
  split
  · refine Chg.step (State.setEngine_chg _ _ _ _) rfl ?_
    exact Chg.refl _ _
  · refine Chg.step (State.fset_chg _ _ _ _) rfl ?_
    exact Chg.refl _ _


theorem State.staleRows_chg (x0 : State) (x1 : Nat) (x2 : Nat) (x3 : Tab Nat) (x4 : List Nat) :
    Chg 0xa0000408f08 x0 (State.staleRows x0 x1 x2 x3 x4) := by
  unfold State.staleRows
  extract_lets w1 w2 t3 t4 w5 t6
  clear_value w1
  clear_value w2
  have ht3 : Chg 0xa0000408f08 x0 t3 := by
    unfold t3
    refine Chg.step (State.setCore_chg _ _ _) rfl ?_
    exact Chg.refl _ _
  clear_value t3
  have ht4 : Chg 0xa0000408f08 x0 t4 := by
    unfold t4
    refine Chg.step (State.countN_chg _ _ _ _) rfl ?_
    assumption
  clear_value t4
  clear_value w5
  have ht6 : Chg 0xa0000408f08 x0 t6 := by
    unfold t6
    refine Chg.step (State.fset_chg _ _ _ _) rfl ?_
    assumption
  clear_value t6
  refine Chg.ite ?_ ?_
  · exact Chg.refl _ _
  · refine Chg.ite ?_ ?_
    · exact Chg.refl _ _
    · refine Chg.step (State.logRate_chg _ _ _ _) rfl ?_
      assumption


theorem State.takeWrites_chg (x0 : State) (x1 : Nat) (x2 : Nat) (x3 : EngVec) :
    Chg 0x8000 x0 (State.takeWrites x0 x1 x2 x3).2 := by
  unfold State.takeWrites
  extract_lets w1 w2
  clear_value w1
  clear_value w2
  refine Chg.snd_ite ?_ ?_
  · refine Chg.snd_mk ?_
    exact Chg.refl _ _
  · refine Chg.snd_mk ?_
    refine Chg.step (State.setCore_chg _ _ _) rfl ?_
    exact Chg.refl _ _


theorem State.beginVec_chg (x0 : State) (x1 : Nat) (x2 : Nat) :
    Chg 0x8a000040bf08 x0 (State.beginVec x0 x1 x2) := by
  unfold State.beginVec
  extract_lets w1 w2 w3
  clear_value w1
  clear_value w2
  clear_value w3
  split
  · exact Chg.refl _ _
  · extract_lets w4 w5
    clear_value w4
    clear_value w5
    split
    extract_lets t6 t7 t8
    have ht6 : Chg 0x8a000040bf08 x0 t6 := by
      unfold t6
      refine Chg.step (State.staleRows_chg _ _ _ _ _) rfl ?_
      refine Chg.of_snd (by assumption) ?_
      refine Chg.step (State.takeWrites_chg _ _ _ _) rfl ?_
      exact Chg.refl _ _
    clear_value t6
    have ht7 : Chg 0x8a000040bf08 x0 t7 := by
      unfold t7
      refine Chg.step (State.setTile_chg _ _ _ _) rfl ?_
      assumption
    clear_value t7
    have ht8 : Chg 0x8a000040bf08 x0 t8 := by
      unfold t8
      refine Chg.step (State.setEngine_chg _ _ _ _) rfl ?_
      assumption
    clear_value t8
    refine Chg.step (State.advance_chg _ _ _) rfl ?_
    refine Chg.step (State.calRise_chg _ _ _) rfl ?_
    assumption


theorem State.beginSlot_chg (x0 : State) (x1 : List Nat) (x2 : VecIn) :
    Chg 0x8a000040bf08 x0 (State.beginSlot x0 x1 x2) := by
  unfold State.beginSlot
  refine Chg.foldl ?_ ?_
  · intro u1 u2 u3
    extract_lets t4 w5 t6
    have ht4 : Chg 0x8a000040bf08 x0 t4 := by
      unfold t4
      refine Chg.foldl ?_ ?_
      · intro u7 u8 u9
        refine Chg.ite ?_ ?_
        · refine Chg.step (State.beginVec_chg _ _ _) rfl ?_
          assumption
        · refine Chg.step (State.idleSlot_chg _ _ _) rfl ?_
          assumption
      · assumption
    clear_value t4
    clear_value w5
    have ht6 : Chg 0x8a000040bf08 x0 t6 := by
      unfold t6
      refine Chg.step (State.setCore_chg _ _ _) rfl ?_
      assumption
    clear_value t6
    refine Chg.step (State.count_chg _ _ _) rfl ?_
    assumption
  · exact Chg.refl _ _


theorem State.countWaits_chg (x0 : State) (x1 : List Nat) (x2 : VecIn) :
    Chg 0x120000401908 x0 (State.countWaits x0 x1 x2) := by
  unfold State.countWaits
  refine Chg.foldl ?_ ?_
  · intro u1 u2 u3
    extract_lets w4 t5
    clear_value w4
    have ht5 : Chg 0x120000401908 x0 t5 := by
      unfold t5
      refine Chg.foldl ?_ ?_
      · intro u6 u7 u8
        extract_lets w9
        clear_value w9
        refine Chg.step (State.setEngine_chg _ _ _ _) rfl ?_
        assumption
      · assumption
    clear_value t5
    refine Chg.ite ?_ ?_
    · assumption
    · refine Chg.step (State.log_chg _ _) rfl ?_
      refine Chg.step (State.count_chg _ _ _) rfl ?_
      assumption
  · exact Chg.refl _ _


theorem State.glade_chg (x0 : State) (x1 : Nat) :
    Chg 0x80000008008 x0 (State.glade x0 x1) := by
  unfold State.glade
  extract_lets w1
  clear_value w1
  refine Chg.step (State.count_chg _ _ _) rfl ?_
  refine Chg.step (State.setCore_chg _ _ _) rfl ?_
  exact Chg.refl _ _


theorem State.idleAll_chg (x0 : State) (x1 : List Nat) (x2 : Bool) :
    Chg 0x880000009008 x0 (State.idleAll x0 x1 x2) := by
  unfold State.idleAll
  refine Chg.foldl ?_ ?_
  · intro u1 u2 u3
    extract_lets t4
    have ht4 : Chg 0x880000009008 x0 t4 := by
      unfold t4
      refine Chg.foldl ?_ ?_
      · intro u5 u6 u7
        refine Chg.step (State.idleSlot_chg _ _ _) rfl ?_
        assumption
      · assumption
    clear_value t4
    refine Chg.ite ?_ ?_
    · refine Chg.step (State.glade_chg _ _) rfl ?_
      assumption
    · refine Chg.step (State.count_chg _ _ _) rfl ?_
      assumption
  · exact Chg.refl _ _


theorem execCadenceSlot_chg (x0 : Nat) (x1 : State) :
    ChgR 0x9a000040bf08 x1 (execCadenceSlot x0 x1) := by
  unfold execCadenceSlot
  extract_lets w1 w2 t3 w4
  clear_value w1
  clear_value w2
  have ht3 : Chg 0x9a000040bf08 x1 t3 := by
    unfold t3
    refine Chg.foldl ?_ ?_
    · intro u5 u6 u7
      extract_lets w8
      clear_value w8
      refine Chg.step (State.setCore_chg _ _ _) rfl ?_
      refine Chg.step (State.fset_chg _ _ _ _) rfl ?_
      assumption
    · exact Chg.refl _ _
  clear_value t3
  clear_value w4
  refine ChgR.ite ?_ ?_
  · refine ChgR.next ?_
    exact Chg.refl _ _
  · refine ChgR.ite ?_ ?_
    · split
      · refine ChgR.next ?_
        refine Chg.step (State.idleAll_chg _ _ _) rfl ?_
        assumption
      · extract_lets w9
        clear_value w9
        refine ChgR.ite ?_ ?_
        · refine ChgR.next ?_
          refine Chg.step (State.idleAll_chg _ _ _) rfl ?_
          refine Chg.step (State.countWaits_chg _ _ _) rfl ?_
          assumption
        · refine ChgR.next ?_
          refine Chg.step (State.beginSlot_chg _ _ _) rfl ?_
          assumption
    · refine ChgR.next ?_
      refine Chg.step (State.idleAll_chg _ _ _) rfl ?_
      assumption


theorem State.sendSample_chg (x0 : State) (x1 : Nat) (x2 : Nat) (x3 : DrainReq) :
    Chg 0x400001000000008 x0 (State.sendSample x0 x1 x2 x3) := by
  unfold State.sendSample
  extract_lets w1 w2 w3 t4 w5
  clear_value w1
  clear_value w2
  clear_value w3
  have ht4 : Chg 0x400001000000008 x0 t4 := by
    unfold t4
    refine Chg.step (State.count_chg _ _ _) rfl ?_
    exact Chg.refl _ _
  clear_value t4
  clear_value w5
  split
  · extract_lets w6 w7
    clear_value w6
    clear_value w7
    refine Chg.ite ?_ ?_
    · refine Chg.step (State.count_chg _ _ _) rfl ?_
      exact Chg.refl _ _
    · refine Chg.upd_rel rfl ?_
      assumption
  · exact Chg.refl _ _


theorem State.pickUse_chg (x0 : State) (x1 : Nat) (x2 : Nat) (x3 : DrainReq) :
    Chg 0x2004 x0 (State.pickUse x0 x1 x2 x3) := by
  unfold State.pickUse
  extract_lets w1 w2 w3 w4 t5
  clear_value w1
  clear_value w2
  clear_value w3
  clear_value w4
  have ht5 : Chg 0x2004 x0 t5 := by
    unfold t5
    refine Chg.step (State.draw_chg _ _) rfl ?_
    exact Chg.refl _ _
  clear_value t5
  split
  · exact Chg.refl _ _
  · refine Chg.ite ?_ ?_
    · exact Chg.refl _ _
    · refine Chg.ite ?_ ?_
      · refine Chg.step (State.setTile_chg _ _ _ _) rfl ?_
        assumption
      · assumption


theorem State.wakeDrain_chg (x0 : State) (x1 : Nat) (x2 : Sys2Proof.Thr) :
    Chg 0x20000418908 x0 (State.wakeDrain x0 x1 x2) := by
  unfold State.wakeDrain
  extract_lets w1 w2
  clear_value w1
  clear_value w2
  refine Chg.ite ?_ ?_
  · refine Chg.step (State.next_chg _ _ _) rfl ?_
    exact Chg.refl _ _
  · exact Chg.refl _ _


theorem State.wakeDrains_chg (x0 : State) (x1 : Nat) :
    Chg 0x20000418908 x0 (State.wakeDrains x0 x1) := by
  unfold State.wakeDrains
  refine Chg.step (State.wakeDrain_chg _ _ _) rfl ?_
  refine Chg.step (State.wakeDrain_chg _ _ _) rfl ?_
  exact Chg.refl _ _


theorem execCadCfgWrite_chg (x0 : Nat) (x1 : Nat) (x2 : State) :
    ChgR 0xa0000400908 x2 (execCadCfgWrite x0 x1 x2) := by
  unfold execCadCfgWrite
  extract_lets w1 w2
  clear_value w1
  clear_value w2
  refine ChgR.ite ?_ ?_
  · refine ChgR.next ?_
    exact Chg.refl _ _
  · refine ChgR.ite ?_ ?_
    · refine ChgR.next ?_
      refine Chg.step (State.log_chg _ _) rfl ?_
      refine Chg.step (State.flag_chg _ _ _) rfl ?_
      exact Chg.refl _ _
    · refine ChgR.ite ?_ ?_
      · refine ChgR.next ?_
        refine Chg.step (State.fset_chg _ _ _ _) rfl ?_
        refine Chg.step (State.fset_chg _ _ _ _) rfl ?_
        exact Chg.refl _ _
      · refine ChgR.next ?_
        refine Chg.step (State.log_chg _ _) rfl ?_
        refine Chg.step (State.flag_chg _ _ _) rfl ?_
        exact Chg.refl _ _


theorem execScratchRowExpire_chg (x0 : Nat) (x1 : Nat) (x2 : Nat) (x3 : State) :
    ChgR 0x80000009008 x3 (execScratchRowExpire x0 x1 x2 x3) := by
  unfold execScratchRowExpire
  extract_lets w1 w2 w3
  clear_value w1
  clear_value w2
  clear_value w3
  split
  · refine ChgR.next ?_
    exact Chg.refl _ _
  · refine ChgR.ite ?_ ?_
    · refine ChgR.next ?_
      exact Chg.refl _ _
    · refine ChgR.ite ?_ ?_
      · refine ChgR.next ?_
        refine Chg.step (State.writeScratch_chg _ _ _ _) rfl ?_
        exact Chg.refl _ _
      · refine ChgR.next ?_
        refine Chg.step (State.setCore_chg _ _ _) rfl ?_
        exact Chg.refl _ _


theorem State.sramErr_chg (x0 : State) (x1 : Nat) (x2 : Nat) (x3 : Bool) :
    Chg 0x80000000008 x0 (State.sramErr x0 x1 x2 x3) := by
  unfold State.sramErr
  extract_lets t1 t2
  have ht1 : Chg 0x80000000008 x0 t1 := by
    unfold t1
    refine Chg.step (State.fset_chg _ _ _ _) rfl ?_
    exact Chg.refl _ _
  clear_value t1
  have ht2 : Chg 0x80000000008 x0 t2 := by
    unfold t2
    refine Chg.step (State.fset_chg _ _ _ _) rfl ?_
    assumption
  clear_value t2
  refine Chg.step (State.fset_chg _ _ _ _) rfl ?_
  assumption


theorem State.replayAffected_chg (x0 : State) (x1 : Nat) :
    Chg 0x12000069b908 x0 (State.replayAffected x0 x1) := by
  unfold State.replayAffected
  extract_lets w1
  clear_value w1
  refine Chg.ite ?_ ?_
  · refine Chg.step (State.replayVec_chg _ _ _ _ _) rfl ?_
    exact Chg.refl _ _
  · split
    · exact Chg.refl _ _
    · refine Chg.step (State.replayVec_chg _ _ _ _ _) rfl ?_
      exact Chg.refl _ _


theorem State.reloadBuffer_chg (x0 : State) (x1 : Nat) (x2 : Buffer) :
    Chg 0x20000 x0 (State.reloadBuffer x0 x1 x2) := by
  unfold State.reloadBuffer
  split
  · exact Chg.refl _ _
  · refine Chg.step (State.sramWrite_chg _ _ _ _) rfl ?_
    exact Chg.refl _ _


theorem State.requestVec_chg (x0 : State) (x1 : Nat) (x2 : VecIn) :
    Chg 0x2c12008be9b908 x0 (State.requestVec x0 x1 x2) := by
  unfold State.requestVec
  extract_lets w1 t2 w3 t4
  clear_value w1
  have ht2 : Chg 0x2c12008be9b908 x0 t2 := by
    unfold t2
    refine Chg.step (State.setCore_chg _ _ _) rfl ?_
    exact Chg.refl _ _
  clear_value t2
  clear_value w3
  have ht4 : Chg 0x2c12008be9b908 x0 t4 := by
    unfold t4
    refine Chg.step (State.count_chg _ _ _) rfl ?_
    assumption
  clear_value t4
  split
  · refine Chg.ite ?_ ?_
    · split
      · assumption
      · refine Chg.ite ?_ ?_
        · refine Chg.step (State.endItem_chg _ _ _) rfl ?_
          assumption
        · refine Chg.step (State.hostRead_chg _ _ _ _ _ _) rfl ?_
          assumption
    · split
      · assumption
      · refine Chg.step (State.replayVec_chg _ _ _ _ _) rfl ?_
        assumption
  · assumption


theorem State.loadFailed_chg (x0 : State) (x1 : Nat) :
    Chg 0x40000 x0 (State.loadFailed x0 x1) := by
  unfold State.loadFailed
  split
  · refine Chg.ite ?_ ?_
    · refine Chg.step (State.setModel_chg _ _) rfl ?_
      exact Chg.refl _ _
    · exact Chg.refl _ _
  · exact Chg.refl _ _


theorem State.sramUe_chg (x0 : State) (x1 : Nat) (x2 : Nat) :
    Chg 0x42c5a10cbeff908 x0 (State.sramUe x0 x1 x2) := by
  unfold State.sramUe
  extract_lets t1 t2 t3 t4 w5 w6 w7 t8 t9 t10 w11 w12 w13 t14 w15 w16 w17
  have ht1 : Chg 0x42c5a10cbeff908 x0 t1 := by
    unfold t1
    refine Chg.step (State.count_chg _ _ _) rfl ?_
    exact Chg.refl _ _
  clear_value t1
  have ht2 : Chg 0x42c5a10cbeff908 x0 t2 := by
    unfold t2
    refine Chg.step (State.sramErr_chg _ _ _ _) rfl ?_
    assumption
  clear_value t2
  have ht3 : Chg 0x42c5a10cbeff908 x0 t3 := by
    unfold t3
    refine Chg.step (State.flag_chg _ _ _) rfl ?_
    assumption
  clear_value t3
  have ht4 : Chg 0x42c5a10cbeff908 x0 t4 := by
    unfold t4
    refine Chg.step (State.log_chg _ _) rfl ?_
    assumption
  clear_value t4
  clear_value w5
  clear_value w6
  clear_value w7
  have ht8 : Chg 0x42c5a10cbeff908 x0 t8 := by
    unfold t8
    refine Chg.upd_rel rfl ?_
    assumption
  clear_value t8
  have ht9 : Chg 0x42c5a10cbeff908 x0 t9 := by
    unfold t9
    refine Chg.ite ?_ ?_
    · refine Chg.step (State.confirm_chg _ _ _) rfl ?_
      assumption
    · refine Chg.step (State.suspect_chg _ _ _) rfl ?_
      assumption
  clear_value t9
  have ht10 : Chg 0x42c5a10cbeff908 x0 t10 := by
    unfold t10
    refine Chg.step (State.loadFailed_chg _ _) rfl ?_
    assumption
  clear_value t10
  clear_value w11
  clear_value w12
  clear_value w13
  have ht14 : Chg 0x42c5a10cbeff908 x0 t14 := by
    unfold t14
    refine Chg.step (State.setCore_chg _ _ _) rfl ?_
    assumption
  clear_value t14
  clear_value w15
  clear_value w16
  clear_value w17
  refine Chg.ite ?_ ?_
  · refine Chg.upd_rel rfl ?_
    assumption
  · refine Chg.ite ?_ ?_
    · split
      · refine Chg.ite ?_ ?_
        · refine Chg.step (State.requestVec_chg _ _ _) rfl ?_
          assumption
        · refine Chg.step (State.replayVec_chg _ _ _ _ _) rfl ?_
          assumption
      · assumption
    · split
      · refine Chg.step (State.replayAffected_chg _ _) rfl ?_
        assumption
      · refine Chg.step (State.replayAffected_chg _ _) rfl ?_
        refine Chg.step (State.reloadBuffer_chg _ _ _) rfl ?_
        assumption


theorem State.sramCe_chg (x0 : State) (x1 : Nat) (x2 : Nat) :
    Chg 0xa0000400f08 x0 (State.sramCe x0 x1 x2) := by
  unfold State.sramCe
  extract_lets t1 t2
  have ht1 : Chg 0xa0000400f08 x0 t1 := by
    unfold t1
    refine Chg.step (State.count_chg _ _ _) rfl ?_
    exact Chg.refl _ _
  clear_value t1
  have ht2 : Chg 0xa0000400f08 x0 t2 := by
    unfold t2
    refine Chg.step (State.sramErr_chg _ _ _ _) rfl ?_
    assumption
  clear_value t2
  refine Chg.step (State.logRate_chg _ _ _ _) rfl ?_
  assumption


theorem execSramScrub_chg (x0 : Nat) (x1 : Nat) (x2 : Sys2Proof.EccErr) (x3 : State) :
    ChgR 0x42c5a10cbefff08 x3 (execSramScrub x0 x1 x2 x3) := by
  unfold execSramScrub
  refine ChgR.ite ?_ ?_
  · exact ChgR.fault
  · split
    · refine ChgR.next ?_
      exact Chg.refl _ _
    · refine ChgR.next ?_
      refine Chg.step (State.sramCe_chg _ _ _) rfl ?_
      exact Chg.refl _ _
    · refine ChgR.next ?_
      refine Chg.step (State.sramUe_chg _ _ _) rfl ?_
      exact Chg.refl _ _


theorem execDebugEnter_chg (x0 : Nat) (x1 : State) :
    ChgR 0xa0000400908 x1 (execDebugEnter x0 x1) := by
  unfold execDebugEnter
  extract_lets w1
  clear_value w1
  refine ChgR.ite ?_ ?_
  · refine ChgR.next ?_
    refine Chg.step (State.log_chg _ _) rfl ?_
    refine Chg.step (State.flag_chg _ _ _) rfl ?_
    exact Chg.refl _ _
  · refine ChgR.next ?_
    exact Chg.refl _ _


theorem execDebugExit_chg (x0 : Nat) (x1 : State) :
    ChgR 0x80000000008 x1 (execDebugExit x0 x1) := by
  unfold execDebugExit
  refine ChgR.ite ?_ ?_
  · refine ChgR.next ?_
    exact Chg.refl _ _
  · refine ChgR.next ?_
    refine Chg.step (State.fset_chg _ _ _ _) rfl ?_
    exact Chg.refl _ _


theorem State.releaseVec_chg (x0 : State) (x1 : Nat) (x2 : Nat) (x3 : Nat) (x4 : Nat) :
    Chg 0x8000000808808 x0 (State.releaseVec x0 x1 x2 x3 x4) := by
  unfold State.releaseVec
  extract_lets w1 t2
  have ht2 : Chg 0x8000000808808 x0 t2 := by
    unfold t2
    refine Chg.foldl ?_ ?_
    · intro u3 u4 u5
      extract_lets w6
      clear_value w6
      refine Chg.step (State.setCore_chg _ _ _) rfl ?_
      assumption
    · exact Chg.refl _ _
  clear_value t2
  split
  · refine Chg.ite ?_ ?_
    · refine Chg.step (State.inputDone_chg _ _) rfl ?_
      assumption
    · assumption
  · assumption


theorem State.releaseItemVecs_chg (x0 : State) (x1 : Nat) (x2 : Nat) (x3 : Nat) :
    Chg 0x8000000808808 x0 (State.releaseItemVecs x0 x1 x2 x3) := by
  unfold State.releaseItemVecs
  extract_lets w1
  clear_value w1
  refine Chg.foldl ?_ ?_
  · intro u2 u3 u4
    refine Chg.step (State.releaseVec_chg _ _ _ _ _) rfl ?_
    assumption
  · exact Chg.refl _ _


theorem State.finishLast_chg (x0 : State) (x1 : Nat) (x2 : Nat) (x3 : Nat) (x4 : Nat) :
    Chg 0x8000000808808 x0 (State.finishLast x0 x1 x2 x3 x4) := by
  unfold State.finishLast
  split
  · exact Chg.refl _ _
  · refine Chg.ite ?_ ?_
    · exact Chg.refl _ _
    · refine Chg.ite ?_ ?_
      · refine Chg.ite ?_ ?_
        · refine Chg.step (State.releaseItemVecs_chg _ _ _ _) rfl ?_
          exact Chg.refl _ _
        · exact Chg.refl _ _
      · refine Chg.ite ?_ ?_
        · refine Chg.step (State.releaseVec_chg _ _ _ _ _) rfl ?_
          exact Chg.refl _ _
        · exact Chg.refl _ _


theorem State.finishPosted_chg (x0 : State) (x1 : Nat) :
    Chg 0x8000000808808 x0 (State.finishPosted x0 x1) := by
  unfold State.finishPosted
  split
  · exact Chg.refl _ _
  · refine Chg.ite ?_ ?_
    · exact Chg.refl _ _
    · refine Chg.foldl ?_ ?_
      · intro u1 u2 u3
        refine Chg.step (State.finishLast_chg _ _ _ _ _) rfl ?_
        assumption
      · exact Chg.refl _ _


theorem execBitPlaneCycle_chg (x0 : Nat) (x1 : Nat) (x2 : Bool) (x3 : State) :
    ChgR 0x8ca0000c09f0c x3 (execBitPlaneCycle x0 x1 x2 x3) := by
  unfold execBitPlaneCycle
  extract_lets t1
  have ht1 : Chg 0x8ca0000c09f0c x3 t1 := by
    unfold t1
    refine Chg.step (State.advance_chg _ _ _) rfl ?_
    exact Chg.refl _ _
  clear_value t1
  split
  · refine ChgR.next ?_
    refine Chg.step (State.finishPosted_chg _ _) rfl ?_
    refine Chg.step (State.idleWindow_chg _ _ _) rfl ?_
    assumption
  · extract_lets w2
    clear_value w2
    refine ChgR.ite ?_ ?_
    · refine ChgR.next ?_
      assumption
    · refine ChgR.next ?_
      refine Chg.step (State.finishPosted_chg _ _) rfl ?_
      refine Chg.step (State.issuePlane_chg _ _ _ _ _ _ _) rfl ?_
      assumption


theorem execSplitReplay_chg (x0 : Nat) (x1 : Nat) (x2 : Bool) (x3 : State) :
    ChgR 0x8ca0000c09f0c x3 (execSplitReplay x0 x1 x2 x3) := by
  unfold execSplitReplay
  split
  · refine ChgR.next ?_
    exact Chg.refl _ _
  · split
    · refine ChgR.next ?_
      exact Chg.refl _ _
    · refine ChgR.next ?_
      refine Chg.step (State.finishPosted_chg _ _) rfl ?_
      refine Chg.step (State.runSplit_chg _ _ _ _ _ _ _) rfl ?_
      exact Chg.refl _ _


theorem execDrainSweep_chg (x0 : Nat) (x1 : Nat) (x2 : State) :
    ChgR 0x408121000cbbf0c x2 (execDrainSweep x0 x1 x2) := by
  unfold execDrainSweep
  split
  · refine ChgR.next ?_
    exact Chg.refl _ _
  · refine ChgR.ite ?_ ?_
    · refine ChgR.next ?_
      exact Chg.refl _ _
    · refine ChgR.next ?_
      refine Chg.step (State.finishPosted_chg _ _) rfl ?_
      refine Chg.step (State.wakeDrains_chg _ _) rfl ?_
      refine Chg.step (State.pickUse_chg _ _ _ _) rfl ?_
      refine Chg.step (State.sweepTile_chg _ _ _ _) rfl ?_
      refine Chg.step (State.sendSample_chg _ _ _ _) rfl ?_
      exact Chg.refl _ _


theorem State.pmUe_chg (x0 : State) (x1 : Nat) :
    Chg 0x40032100069b908 x0 (State.pmUe x0 x1) := by
  unfold State.pmUe
  extract_lets t1 t2 t3 t4 w5 w6 w7 t8
  have ht1 : Chg 0x40032100069b908 x0 t1 := by
    unfold t1
    refine Chg.step (State.count_chg _ _ _) rfl ?_
    exact Chg.refl _ _
  clear_value t1
  have ht2 : Chg 0x40032100069b908 x0 t2 := by
    unfold t2
    refine Chg.step (State.flag_chg _ _ _) rfl ?_
    assumption
  clear_value t2
  have ht3 : Chg 0x40032100069b908 x0 t3 := by
    unfold t3
    refine Chg.step (State.log_chg _ _) rfl ?_
    assumption
  clear_value t3
  have ht4 : Chg 0x40032100069b908 x0 t4 := by
    unfold t4
    refine Chg.step (State.suspect_chg _ _ _) rfl ?_
    assumption
  clear_value t4
  clear_value w5
  clear_value w6
  clear_value w7
  have ht8 : Chg 0x40032100069b908 x0 t8 := by
    unfold t8
    split
    · assumption
    · extract_lets w9
      clear_value w9
      refine Chg.step (State.setSeq_chg _ _ _) rfl ?_
      assumption
  clear_value t8
  refine Chg.step (State.replayAll_chg _ _) rfl ?_
  assumption


theorem State.noteServed_chg (x0 : State) (x1 : Nat) (x2 : Nat) (x3 : Nat) :
    Chg 0x200000 x0 (State.noteServed x0 x1 x2 x3) := by
  unfold State.noteServed
  split
  · split
    · exact Chg.refl _ _
    · refine Chg.step (State.setItem_chg _ _ _) rfl ?_
      exact Chg.refl _ _
  · exact Chg.refl _ _


theorem execVecEntry_chg (x0 : Nat) (x1 : Sys2Proof.EccErr) (x2 : State) :
    ChgR 0x40032100069b908 x2 (execVecEntry x0 x1 x2) := by
  unfold execVecEntry
  extract_lets w1 w2 w3 t4 w5 w6
  clear_value w1
  clear_value w2
  clear_value w3
  have ht4 : Chg 0x40032100069b908 x2 t4 := by
    unfold t4
    refine Chg.ite ?_ ?_
    · refine Chg.step (State.count_chg _ _ _) rfl ?_
      exact Chg.refl _ _
    · exact Chg.refl _ _
  clear_value t4
  clear_value w5
  clear_value w6
  refine ChgR.ite ?_ ?_
  · refine ChgR.next ?_
    exact Chg.refl _ _
  · split
    · refine ChgR.next ?_
      exact Chg.refl _ _
    · split
      · refine ChgR.next ?_
        refine Chg.step (State.pmUe_chg _ _) rfl ?_
        exact Chg.refl _ _
      · extract_lets t7 t8
        have ht7 : Chg 0x40032100069b908 x2 t7 := by
          unfold t7
          refine Chg.step (State.setCore_chg _ _ _) rfl ?_
          assumption
        clear_value t7
        have ht8 : Chg 0x40032100069b908 x2 t8 := by
          unfold t8
          refine Chg.step (State.setThread_chg _ _ _ _) rfl ?_
          assumption
        clear_value t8
        refine ChgR.next ?_
        refine Chg.step (State.checkBreak_chg _ _ _) rfl ?_
        refine Chg.step (State.noteStaged_chg _ _ _) rfl ?_
        refine Chg.step (State.noteServed_chg _ _ _ _) rfl ?_
        assumption


theorem execItemEntry_chg (x0 : Nat) (x1 : State) :
    ChgR 0x10000 x1 (execItemEntry x0 x1) := by
  unfold execItemEntry
  extract_lets w1 w2
  clear_value w1
  clear_value w2
  split
  · refine ChgR.next ?_
    exact Chg.refl _ _
  · refine ChgR.ite ?_ ?_
    · refine ChgR.next ?_
      exact Chg.refl _ _
    · refine ChgR.next ?_
      refine Chg.step (State.setSeq_chg _ _ _) rfl ?_
      exact Chg.refl _ _


theorem State.endVec_chg (x0 : State) (x1 : Nat) (x2 : Thread) :
    Chg 0x8200000818808 x0 (State.endVec x0 x1 x2) := by
  unfold State.endVec
  extract_lets t1 t2 w3 t4 w5 w6 w7 t8 t9
  have ht1 : Chg 0x8200000818808 x0 t1 := by
    unfold t1
    refine Chg.step (State.setThread_chg _ _ _ _) rfl ?_
    exact Chg.refl _ _
  clear_value t1
  have ht2 : Chg 0x8200000818808 x0 t2 := by
    unfold t2
    refine Chg.step (State.count_chg _ _ _) rfl ?_
    assumption
  clear_value t2
  clear_value w3
  have ht4 : Chg 0x8200000818808 x0 t4 := by
    unfold t4
    refine Chg.step (State.setCore_chg _ _ _) rfl ?_
    assumption
  clear_value t4
  clear_value w5
  clear_value w6
  clear_value w7
  have ht8 : Chg 0x8200000818808 x0 t8 := by
    unfold t8
    refine Chg.step (State.setSeq_chg _ _ _) rfl ?_
    assumption
  clear_value t8
  have ht9 : Chg 0x8200000818808 x0 t9 := by
    unfold t9
    refine Chg.ite ?_ ?_
    · refine Chg.ite ?_ ?_
      · refine Chg.step (State.count_chg _ _ _) rfl ?_
        assumption
      · assumption
    · assumption
  clear_value t9
  refine Chg.step (State.finishLast_chg _ _ _ _ _) rfl ?_
  assumption


theorem State.endItemEntry_chg (x0 : State) (x1 : Nat) (x2 : Thread) :
    Chg 0x28220089e98908 x0 (State.endItemEntry x0 x1 x2) := by
  unfold State.endItemEntry
  extract_lets t1 t2 t3
  have ht1 : Chg 0x28220089e98908 x0 t1 := by
    unfold t1
    refine Chg.step (State.setThread_chg _ _ _ _) rfl ?_
    exact Chg.refl _ _
  clear_value t1
  have ht2 : Chg 0x28220089e98908 x0 t2 := by
    unfold t2
    refine Chg.step (State.count_chg _ _ _) rfl ?_
    assumption
  clear_value t2
  have ht3 : Chg 0x28220089e98908 x0 t3 := by
    unfold t3
    split
    · extract_lets t4
      have ht4 : Chg 0x28220089e98908 x0 t4 := by
        unfold t4
        refine Chg.step (State.completeItem_chg _ _ _ _) rfl ?_
        refine Chg.step (State.withholdItem_chg _ _) rfl ?_
        assumption
      clear_value t4
      refine Chg.ite ?_ ?_
      · refine Chg.ite ?_ ?_
        · assumption
        · refine Chg.step (State.closeItem_chg _ _) rfl ?_
          assumption
      · assumption
    · assumption
  clear_value t3
  refine Chg.step (State.finishLast_chg _ _ _ _ _) rfl ?_
  assumption


theorem execEndEntry_chg (x0 : Nat) (x1 : Sys2Proof.Thr) (x2 : State) :
    ChgR 0x28220089e98908 x2 (execEndEntry x0 x1 x2) := by
  unfold execEndEntry
  split
  · refine ChgR.next ?_
    exact Chg.refl _ _
  · extract_lets w1
    clear_value w1
    split
    · refine ChgR.next ?_
      exact Chg.refl _ _
    · refine ChgR.next ?_
      refine Chg.step (State.flag_chg _ _ _) rfl ?_
      refine Chg.step (State.setThread_chg _ _ _ _) rfl ?_
      exact Chg.refl _ _
    · refine ChgR.next ?_
      refine Chg.step (State.endVec_chg _ _ _) rfl ?_
      exact Chg.refl _ _
    · refine ChgR.next ?_
      refine Chg.step (State.endItemEntry_chg _ _ _) rfl ?_
      exact Chg.refl _ _


theorem State.sramBits_chg (x0 : State) (x1 : Nat) (x2 : Nat) (x3 : Nat) (x4 : Nat) (x5 : Nat) :
    Chg 0x20000 x0 (State.sramBits x0 x1 x2 x3 x4 x5) := by
  unfold State.sramBits
  extract_lets w1 w2 w3
  clear_value w1
  clear_value w2
  clear_value w3
  refine Chg.step (State.sramWrite_chg _ _ _ _) rfl ?_
  exact Chg.refl _ _


theorem State.emitOutput_chg (x0 : State) (x1 : Nat) (x2 : Sys2Proof.Thr) (x3 : SendOp) :
    Chg 0xa8000 x0 (State.emitOutput x0 x1 x2 x3) := by
  unfold State.emitOutput
  extract_lets w1 w2 w3 w4 t5 t6 w7
  clear_value w1
  clear_value w2
  clear_value w3
  clear_value w4
  have ht5 : Chg 0xa8000 x0 t5 := by
    unfold t5
    refine Chg.foldl ?_ ?_
    · intro u8 u9 u10
      split
      · assumption
      · refine Chg.step (State.sramBits_chg _ _ _ _ _ _) rfl ?_
        assumption
    · exact Chg.refl _ _
  clear_value t5
  have ht6 : Chg 0xa8000 x0 t6 := by
    unfold t6
    refine Chg.step (State.setCore_chg _ _ _) rfl ?_
    assumption
  clear_value t6
  clear_value w7
  split
  · assumption
  · extract_lets w11
    clear_value w11
    refine Chg.ite ?_ ?_
    · refine Chg.step (State.toPeer_chg _ _) rfl ?_
      assumption
    · split
      · assumption
      · refine Chg.step (State.postHeld_chg _ _) rfl ?_
        assumption


theorem State.sendPart_chg (x0 : State) (x1 : Nat) (x2 : Sys2Proof.Thr) (x3 : SendOp) (x4 : Nat) :
    Chg 0x88000 x0 (State.sendPart x0 x1 x2 x3 x4) := by
  unfold State.sendPart
  extract_lets w1 w2 w3 w4 t5 w6
  clear_value w1
  clear_value w2
  clear_value w3
  clear_value w4
  have ht5 : Chg 0x88000 x0 t5 := by
    unfold t5
    refine Chg.step (State.setCore_chg _ _ _) rfl ?_
    exact Chg.refl _ _
  clear_value t5
  clear_value w6
  split
  · exact Chg.refl _ _
  · split
    refine Chg.step (State.postHeld_chg _ _) rfl ?_
    assumption


theorem execSend_chg (x0 : Nat) (x1 : Sys2Proof.Thr) (x2 : State) :
    ChgR 0xa00004b8908 x2 (execSend x0 x1 x2) := by
  unfold execSend
  split
  · refine ChgR.next ?_
    exact Chg.refl _ _
  · extract_lets w1 w2
    clear_value w1
    clear_value w2
    refine ChgR.ite ?_ ?_
    · refine ChgR.next ?_
      refine Chg.step (State.spillWait_chg _ _ _) rfl ?_
      exact Chg.refl _ _
    · refine ChgR.ite ?_ ?_
      · refine ChgR.next ?_
        refine Chg.step (State.next_chg _ _ _) rfl ?_
        refine Chg.step (State.sendPart_chg _ _ _ _ _) rfl ?_
        exact Chg.refl _ _
      · refine ChgR.ite ?_ ?_
        · refine ChgR.next ?_
          refine Chg.step (State.next_chg _ _ _) rfl ?_
          refine Chg.step (State.emitOutput_chg _ _ _ _) rfl ?_
          exact Chg.refl _ _
        · refine ChgR.next ?_
          refine Chg.step (State.stall_chg _ _ _) rfl ?_
          exact Chg.refl _ _


theorem execSendEmit_chg (x0 : Nat) (x1 : Sys2Proof.Thr) (x2 : State) :
    ChgR 0x200004b8908 x2 (execSendEmit x0 x1 x2) := by
  unfold execSendEmit
  split
  · refine ChgR.next ?_
    exact Chg.refl _ _
  · extract_lets w1 w2
    clear_value w1
    clear_value w2
    refine ChgR.ite ?_ ?_
    · refine ChgR.next ?_
      exact Chg.refl _ _
    · refine ChgR.next ?_
      refine Chg.step (State.next_chg _ _ _) rfl ?_
      refine Chg.step (State.emitOutput_chg _ _ _ _) rfl ?_
      exact Chg.refl _ _


theorem State.verdictOdd_chg (x0 : State) (x1 : Nat) :
    Chg 0x220000400f08 x0 (State.verdictOdd x0 x1) := by
  unfold State.verdictOdd
  refine Chg.step (State.logRate_chg _ _ _ _) rfl ?_
  refine Chg.step (State.count_chg _ _ _) rfl ?_
  exact Chg.refl _ _


theorem execVerdict_chg (x0 : Nat) (x1 : Sys2Proof.Thr) (x2 : State) :
    ChgR 0x38220088e18f08 x2 (execVerdict x0 x1 x2) := by
  unfold execVerdict
  split
  · refine ChgR.next ?_
    exact Chg.refl _ _
  · extract_lets w1 w2 w3 t4 w5 w6 t7 t8
    clear_value w1
    clear_value w2
    clear_value w3
    have ht4 : Chg 0x38220088e18f08 x2 t4 := by
      unfold t4
      refine Chg.ite ?_ ?_
      · refine Chg.step (State.verdictOdd_chg _ _) rfl ?_
        exact Chg.refl _ _
      · exact Chg.refl _ _
    clear_value t4
    clear_value w5
    clear_value w6
    have ht7 : Chg 0x38220088e18f08 x2 t7 := by
      unfold t7
      refine Chg.step (State.setThread_chg _ _ _ _) rfl ?_
      assumption
    clear_value t7
    have ht8 : Chg 0x38220088e18f08 x2 t8 := by
      unfold t8
      split
      · refine Chg.ite ?_ ?_
        · assumption
        · refine Chg.ite ?_ ?_
          · refine Chg.step (State.verdictOdd_chg _ _) rfl ?_
            assumption
          · refine Chg.step (State.verdictFormed_chg _ _ _ _ _) rfl ?_
            assumption
      · assumption
    clear_value t8
    refine ChgR.ite ?_ ?_
    · refine ChgR.next ?_
      refine Chg.step (State.next_chg _ _ _) rfl ?_
      exact Chg.refl _ _
    · refine ChgR.ite ?_ ?_
      · refine ChgR.next ?_
        refine Chg.step (State.next_chg _ _ _) rfl ?_
        refine Chg.step (State.verdictOdd_chg _ _) rfl ?_
        exact Chg.refl _ _
      · refine ChgR.next ?_
        refine Chg.step (State.next_chg _ _ _) rfl ?_
        assumption


theorem execOuth_chg (x0 : Nat) (x1 : Sys2Proof.Thr) (x2 : State) :
    ChgR 0xa0000418908 x2 (execOuth x0 x1 x2) := by
  unfold execOuth
  split
  · refine ChgR.next ?_
    exact Chg.refl _ _
  · extract_lets w1 w2 w3 t4
    clear_value w1
    clear_value w2
    clear_value w3
    have ht4 : Chg 0xa0000418908 x2 t4 := by
      unfold t4
      split
      · exact Chg.refl _ _
      · split
        · exact Chg.refl _ _
        · refine Chg.ite ?_ ?_
          · exact Chg.refl _ _
          · refine Chg.step (State.emit_chg _ _) rfl ?_
            exact Chg.refl _ _
    clear_value t4
    refine ChgR.ite ?_ ?_
    · refine ChgR.next ?_
      refine Chg.step (State.spillWait_chg _ _ _) rfl ?_
      exact Chg.refl _ _
    · refine ChgR.next ?_
      refine Chg.step (State.next_chg _ _ _) rfl ?_
      assumption


end Sys2Proof.Machine
end

