-- ==== Sys2Proof/Laws/FrameHost.lean ====
section
/-! SUPPORT. The frames of rings, items, admission, the fabric and the Keep operations: one lemma for each operation, which says
what part of the state it may change. -/

namespace Sys2Proof.Machine

theorem State.dbBad_chg (x0 : State) (x1 : Nat) :
    Chg 0xc020000400f08 x0 (State.dbBad x0 x1) := by
  unfold State.dbBad
  extract_lets t1 t2
  have ht1 : Chg 0xc020000400f08 x0 t1 := by
    unfold t1
    refine Chg.step (State.flag_chg _ _ _) rfl ?_
    exact Chg.refl _ _
  clear_value t1
  have ht2 : Chg 0xc020000400f08 x0 t2 := by
    unfold t2
    refine Chg.step (State.count_chg _ _ _) rfl ?_
    assumption
  clear_value t2
  refine Chg.step (State.logRate_chg _ _ _ _) rfl ?_
  assumption


theorem State.doorTail_chg (x0 : State) (x1 : Nat) (x2 : Nat) :
    Chg 0xc020000400f08 x0 (State.doorTail x0 x1 x2) := by
  unfold State.doorTail
  extract_lets w1
  clear_value w1
  refine Chg.ite ?_ ?_
  · refine Chg.step (State.fset_chg _ _ _ _) rfl ?_
    exact Chg.refl _ _
  · refine Chg.step (State.dbBad_chg _ _) rfl ?_
    exact Chg.refl _ _


theorem execSqDoorbell_chg (x0 : Nat) (x1 : Nat) (x2 : Nat) (x3 : State) :
    ChgR 0xc020000400f08 x3 (execSqDoorbell x0 x1 x2 x3) := by
  unfold execSqDoorbell
  refine ChgR.ite ?_ ?_
  · refine ChgR.next ?_
    refine Chg.step (State.doorTail_chg _ _ _) rfl ?_
    exact Chg.refl _ _
  · refine ChgR.next ?_
    exact Chg.refl _ _


theorem State.doorHead_chg (x0 : State) (x1 : Nat) (x2 : Nat) :
    Chg 0xc000000800008 x0 (State.doorHead x0 x1 x2) := by
  unfold State.doorHead
  extract_lets w1 w2
  clear_value w1
  clear_value w2
  refine Chg.ite ?_ ?_
  · refine Chg.step (State.setRing_chg _ _ _) rfl ?_
    refine Chg.step (State.fset_chg _ _ _ _) rfl ?_
    exact Chg.refl _ _
  · refine Chg.step (State.count_chg _ _ _) rfl ?_
    refine Chg.step (State.flag_chg _ _ _) rfl ?_
    exact Chg.refl _ _


theorem execCqDoorbell_chg (x0 : Nat) (x1 : Nat) (x2 : Nat) (x3 : State) :
    ChgR 0xc000000800008 x3 (execCqDoorbell x0 x1 x2 x3) := by
  unfold execCqDoorbell
  refine ChgR.ite ?_ ?_
  · refine ChgR.next ?_
    refine Chg.step (State.doorHead_chg _ _ _) rfl ?_
    exact Chg.refl _ _
  · refine ChgR.next ?_
    exact Chg.refl _ _


theorem execIrqModTimer_chg (x0 : Nat) (x1 : Nat) (x2 : State) :
    ChgR 0x8800800 x2 (execIrqModTimer x0 x1 x2) := by
  unfold execIrqModTimer
  extract_lets w1 w2
  clear_value w1
  clear_value w2
  split
  · refine ChgR.next ?_
    exact Chg.refl _ _
  · refine ChgR.ite ?_ ?_
    · refine ChgR.next ?_
      refine Chg.step (State.ringMsg_chg _ _) rfl ?_
      exact Chg.refl _ _
    · refine ChgR.next ?_
      exact Chg.refl _ _


theorem State.zeroCounts_chg (x0 : State) (x1 : Nat) :
    Chg 0x8000000000008 x0 (State.zeroCounts x0 x1) := by
  unfold State.zeroCounts
  extract_lets t1 t2 t3 t4
  have ht1 : Chg 0x8000000000008 x0 t1 := by
    unfold t1
    refine Chg.step (State.fset_chg _ _ _ _) rfl ?_
    exact Chg.refl _ _
  clear_value t1
  have ht2 : Chg 0x8000000000008 x0 t2 := by
    unfold t2
    refine Chg.step (State.fset_chg _ _ _ _) rfl ?_
    assumption
  clear_value t2
  have ht3 : Chg 0x8000000000008 x0 t3 := by
    unfold t3
    refine Chg.step (State.fset_chg _ _ _ _) rfl ?_
    assumption
  clear_value t3
  have ht4 : Chg 0x8000000000008 x0 t4 := by
    unfold t4
    refine Chg.step (State.fset_chg _ _ _ _) rfl ?_
    assumption
  clear_value t4
  refine Chg.step (State.fset_chg _ _ _ _) rfl ?_
  assumption


theorem execRingStart_chg (x0 : Nat) (x1 : Nat) (x2 : State) :
    ChgR 0x8020000c00908 x2 (execRingStart x0 x1 x2) := by
  unfold execRingStart
  extract_lets w1 w2 t3 w4 t5 t6
  clear_value w1
  clear_value w2
  have ht3 : Chg 0x8020000c00908 x2 t3 := by
    unfold t3
    refine Chg.step (State.fset_chg _ _ _ _) rfl ?_
    refine Chg.step (State.zeroCounts_chg _ _) rfl ?_
    exact Chg.refl _ _
  clear_value t3
  clear_value w4
  have ht5 : Chg 0x8020000c00908 x2 t5 := by
    unfold t5
    refine Chg.step (State.flag_chg _ _ _) rfl ?_
    exact Chg.refl _ _
  clear_value t5
  have ht6 : Chg 0x8020000c00908 x2 t6 := by
    unfold t6
    refine Chg.step (State.fset_chg _ _ _ _) rfl ?_
    assumption
  clear_value t6
  refine ChgR.ite ?_ ?_
  · refine ChgR.next ?_
    exact Chg.refl _ _
  · refine ChgR.ite ?_ ?_
    · refine ChgR.next ?_
      refine Chg.step (State.setRing_chg _ _ _) rfl ?_
      assumption
    · refine ChgR.next ?_
      refine Chg.step (State.log_chg _ _) rfl ?_
      assumption


theorem execRingStop_chg (x0 : Nat) (x1 : Nat) (x2 : State) :
    ChgR 0x8000000000008 x2 (execRingStop x0 x1 x2) := by
  unfold execRingStop
  extract_lets w1
  clear_value w1
  refine ChgR.ite ?_ ?_
  · refine ChgR.next ?_
    refine Chg.step (State.fset_chg _ _ _ _) rfl ?_
    exact Chg.refl _ _
  · refine ChgR.next ?_
    exact Chg.refl _ _


theorem execRingStopped_chg (x0 : Nat) (x1 : Nat) (x2 : State) :
    ChgR 0x8020000400908 x2 (execRingStopped x0 x1 x2) := by
  unfold execRingStopped
  extract_lets w1
  clear_value w1
  refine ChgR.ite ?_ ?_
  · refine ChgR.next ?_
    refine Chg.step (State.log_chg _ _) rfl ?_
    refine Chg.step (State.fset_chg _ _ _ _) rfl ?_
    exact Chg.refl _ _
  · refine ChgR.next ?_
    exact Chg.refl _ _


theorem execRingCommit_chg (x0 : Nat) (x1 : Nat) (x2 : State) :
    ChgR 0x8020008c00908 x2 (execRingCommit x0 x1 x2) := by
  unfold execRingCommit
  extract_lets w1
  clear_value w1
  refine ChgR.ite ?_ ?_
  · refine ChgR.next ?_
    exact Chg.refl _ _
  · refine ChgR.ite ?_ ?_
    · refine ChgR.next ?_
      refine Chg.step (State.log_chg _ _) rfl ?_
      refine Chg.step (State.flag_chg _ _ _) rfl ?_
      exact Chg.refl _ _
    · refine ChgR.next ?_
      refine Chg.step (State.ringIrq_chg _ _) rfl ?_
      refine State.applyAll_chg (by repeat' (first | exact all_nil | refine all_fm rfl ?_)) ?_
      exact Chg.refl _ _


theorem State.descBad_chg (x0 : State) (x1 : Nat) (x2 : Nat) (x3 : Nat) :
    Chg 0xc020008c00f08 x0 (State.descBad x0 x1 x2 x3) := by
  unfold State.descBad
  extract_lets t1 t2 w3
  have ht1 : Chg 0xc020008c00f08 x0 t1 := by
    unfold t1
    refine Chg.step (State.count_chg _ _ _) rfl ?_
    exact Chg.refl _ _
  clear_value t1
  have ht2 : Chg 0xc020008c00f08 x0 t2 := by
    unfold t2
    refine Chg.step (State.logRate_chg _ _ _ _) rfl ?_
    assumption
  clear_value t2
  clear_value w3
  refine Chg.step (State.complete_chg _ _ _ _) rfl ?_
  assumption


theorem State.descArrive_chg (x0 : State) (x1 : Nat) (x2 : Nat) (x3 : List Nat) :
    Chg 0xc020008c00f08 x0 (State.descArrive x0 x1 x2 x3) := by
  unfold State.descArrive
  extract_lets t1 w2
  have ht1 : Chg 0xc020008c00f08 x0 t1 := by
    unfold t1
    refine Chg.step (State.updTaken_chg _ _ _ _) rfl ?_
    exact Chg.refl _ _
  clear_value t1
  clear_value w2
  refine Chg.ite ?_ ?_
  · refine Chg.step (State.complete_chg _ _ _ _) rfl ?_
    assumption
  · refine Chg.ite ?_ ?_
    · refine Chg.step (State.descBad_chg _ _ _ _) rfl ?_
      assumption
    · refine Chg.ite ?_ ?_
      · refine Chg.step (State.complete_chg _ _ _ _) rfl ?_
        assumption
      · assumption


theorem State.readDesc_chg (x0 : State) (x1 : Nat) (x2 : Nat) :
    Chg 0x3000800 x0 (State.readDesc x0 x1 x2) := by
  unfold State.readDesc
  refine Chg.step (State.hostRead_chg _ _ _ _ _ _) rfl ?_
  exact Chg.refl _ _


theorem execDescriptorTake_chg (x0 : Nat) (x1 : Nat) (x2 : State) :
    ChgR 0x8000043800808 x2 (execDescriptorTake x0 x1 x2) := by
  unfold execDescriptorTake
  extract_lets w1 w2 t3 w4 w5 t6 w7 w8
  clear_value w1
  clear_value w2
  have ht3 : Chg 0x8000043800808 x2 t3 := by
    unfold t3
    refine Chg.step (State.fset_chg _ _ _ _) rfl ?_
    exact Chg.refl _ _
  clear_value t3
  clear_value w4
  clear_value w5
  have ht6 : Chg 0x8000043800808 x2 t6 := by
    unfold t6
    refine Chg.ite ?_ ?_
    · refine Chg.step (State.setLane_chg _ _ _) rfl ?_
      assumption
    · assumption
  clear_value t6
  clear_value w7
  clear_value w8
  refine ChgR.ite ?_ ?_
  · refine ChgR.next ?_
    exact Chg.refl _ _
  · refine ChgR.next ?_
    refine Chg.step (State.readDesc_chg _ _ _) rfl ?_
    refine Chg.step (State.setRing_chg _ _ _) rfl ?_
    assumption


theorem State.inputBytes_chg (x0 : State) (x1 : Nat) (x2 : Nat) (x3 : List Nat) :
    Chg 0x2a8000 x0 (State.inputBytes x0 x1 x2 x3) := by
  unfold State.inputBytes
  split
  · exact Chg.refl _ _
  · extract_lets w1 t2
    clear_value w1
    have ht2 : Chg 0x2a8000 x0 t2 := by
      unfold t2
      refine Chg.step (State.setItem_chg _ _ _) rfl ?_
      exact Chg.refl _ _
    clear_value t2
    split
    · assumption
    · extract_lets w3 w4
      clear_value w3
      clear_value w4
      refine Chg.foldl ?_ ?_
      · intro u5 u6 u7
        extract_lets w8 t9
        clear_value w8
        have ht9 : Chg 0x2a8000 x0 t9 := by
          unfold t9
          refine Chg.step (State.landVec_chg _ _ _ _ _) rfl ?_
          assumption
        clear_value t9
        split
        · assumption
        · refine Chg.step (State.sendKParts_chg _ _ _) rfl ?_
          assumption
      · assumption


theorem State.inputLost_chg (x0 : State) (x1 : Nat) (x2 : Nat) :
    Chg 0x2c020089e98908 x0 (State.inputLost x0 x1 x2) := by
  unfold State.inputLost
  extract_lets t1 t2 t3
  have ht1 : Chg 0x2c020089e98908 x0 t1 := by
    unfold t1
    refine Chg.step (State.count_chg _ _ _) rfl ?_
    exact Chg.refl _ _
  clear_value t1
  have ht2 : Chg 0x2c020089e98908 x0 t2 := by
    unfold t2
    refine Chg.step (State.flag_chg _ _ _) rfl ?_
    assumption
  clear_value t2
  have ht3 : Chg 0x2c020089e98908 x0 t3 := by
    unfold t3
    split
    · assumption
    · refine Chg.step (State.log_chg _ _) rfl ?_
      assumption
  clear_value t3
  refine Chg.step (State.endItem_chg _ _ _) rfl ?_
  assumption


theorem State.descLost_chg (x0 : State) (x1 : Nat) (x2 : Nat) :
    Chg 0x8000008800808 x0 (State.descLost x0 x1 x2) := by
  unfold State.descLost
  extract_lets t1
  have ht1 : Chg 0x8000008800808 x0 t1 := by
    unfold t1
    refine Chg.step (State.updTaken_chg _ _ _ _) rfl ?_
    exact Chg.refl _ _
  clear_value t1
  refine Chg.step (State.complete_chg _ _ _ _) rfl ?_
  assumption


theorem State.readLost_chg (x0 : State) (x1 : HostRead) :
    Chg 0x2c120089e9b908 x0 (State.readLost x0 x1) := by
  unfold State.readLost
  extract_lets t1
  have ht1 : Chg 0x2c120089e9b908 x0 t1 := by
    unfold t1
    refine Chg.step (State.endRead_chg _ _) rfl ?_
    exact Chg.refl _ _
  clear_value t1
  split
  · refine Chg.step (State.descLost_chg _ _ _) rfl ?_
    assumption
  · refine Chg.step (State.inputLost_chg _ _ _) rfl ?_
    assumption
  · refine Chg.step (State.inputLost_chg _ _ _) rfl ?_
    assumption
  · refine Chg.step (State.done_chg _ _ _ _) rfl ?_
    assumption
  · refine Chg.step (State.replayAffected_chg _ _) rfl ?_
    assumption


theorem execDescriptorReadFail_chg (x0 : Nat) (x1 : State) :
    ChgR 0x2c120089e9b908 x1 (execDescriptorReadFail x0 x1) := by
  unfold execDescriptorReadFail
  split
  · refine ChgR.next ?_
    exact Chg.refl _ _
  · split
    · refine ChgR.ite ?_ ?_
      · refine ChgR.next ?_
        refine Chg.step (State.readLost_chg _ _) rfl ?_
        exact Chg.refl _ _
      · refine ChgR.next ?_
        exact Chg.refl _ _
    · refine ChgR.next ?_
      exact Chg.refl _ _


theorem execHostReadFail_chg (x0 : Nat) (x1 : State) :
    ChgR 0x2c120089e9b908 x1 (execHostReadFail x0 x1) := by
  unfold execHostReadFail
  split
  · refine ChgR.next ?_
    exact Chg.refl _ _
  · split
    · refine ChgR.next ?_
      exact Chg.refl _ _
    · refine ChgR.ite ?_ ?_
      · refine ChgR.next ?_
        refine Chg.step (State.readLost_chg _ _) rfl ?_
        exact Chg.refl _ _
      · refine ChgR.next ?_
        exact Chg.refl _ _


theorem State.readRepeat_chg (x0 : State) (x1 : HostRead) :
    Chg 0x1000800 x0 (State.readRepeat x0 x1) := by
  unfold State.readRepeat
  extract_lets t1
  have ht1 : Chg 0x1000800 x0 t1 := by
    unfold t1
    refine Chg.step (State.emit_chg _ _) rfl ?_
    exact Chg.refl _ _
  clear_value t1
  refine Chg.upd_reads rfl ?_
  assumption


theorem execHostReadCompletion_chg (x0 : Nat) (x1 : List Nat) (x2 : Bool) (x3 : State) :
    ChgR 0xc020009ea8f08 x3 (execHostReadCompletion x0 x1 x2 x3) := by
  unfold execHostReadCompletion
  split
  · refine ChgR.next ?_
    exact Chg.refl _ _
  · extract_lets t1 w2
    have ht1 : Chg 0xc020009ea8f08 x3 t1 := by
      unfold t1
      refine Chg.step (State.endRead_chg _ _) rfl ?_
      exact Chg.refl _ _
    clear_value t1
    clear_value w2
    refine ChgR.ite ?_ ?_
    · refine ChgR.ite ?_ ?_
      · refine ChgR.next ?_
        exact Chg.refl _ _
      · refine ChgR.next ?_
        refine Chg.step (State.readRepeat_chg _ _) rfl ?_
        exact Chg.refl _ _
    · split
      · refine ChgR.next ?_
        refine Chg.step (State.descArrive_chg _ _ _ _) rfl ?_
        assumption
      · refine ChgR.next ?_
        refine Chg.step (State.inputBytes_chg _ _ _ _) rfl ?_
        assumption
      · refine ChgR.next ?_
        refine Chg.step (State.inputBytes_chg _ _ _ _) rfl ?_
        assumption
      · refine ChgR.next ?_
        assumption
      · split
        · refine ChgR.next ?_
          assumption
        · refine ChgR.next ?_
          refine Chg.step (State.sramWrite_chg _ _ _ _) rfl ?_
          assumption


theorem State.readSlow_chg (x0 : State) (x1 : HostRead) :
    Chg 0x200000 x0 (State.readSlow x0 x1) := by
  unfold State.readSlow
  extract_lets w1
  split
  · unfold w1
    refine Chg.elim ?_ ?_
    · exact Chg.refl _ _
    · intro u2 u3
      refine Chg.step (State.setItem_chg _ _ _) rfl ?_
      exact Chg.refl _ _
  · unfold w1
    refine Chg.elim ?_ ?_
    · exact Chg.refl _ _
    · intro u4 u5
      refine Chg.step (State.setItem_chg _ _ _) rfl ?_
      exact Chg.refl _ _
  · split
    · exact Chg.refl _ _
    · refine Chg.step (State.itemSlow_chg _ _ _) rfl ?_
      exact Chg.refl _ _
  · exact Chg.refl _ _


theorem execSlowRead_chg (x0 : Nat) (x1 : Nat) (x2 : State) :
    ChgR 0x4020000600f08 x2 (execSlowRead x0 x1 x2) := by
  unfold execSlowRead
  split
  · refine ChgR.next ?_
    exact Chg.refl _ _
  · extract_lets t1 t2 t3
    have ht1 : Chg 0x4020000600f08 x2 t1 := by
      unfold t1
      refine Chg.step (State.count_chg _ _ _) rfl ?_
      exact Chg.refl _ _
    clear_value t1
    have ht2 : Chg 0x4020000600f08 x2 t2 := by
      unfold t2
      refine Chg.step (State.fset_chg _ _ _ _) rfl ?_
      assumption
    clear_value t2
    have ht3 : Chg 0x4020000600f08 x2 t3 := by
      unfold t3
      refine Chg.step (State.readSlow_chg _ _) rfl ?_
      refine Chg.step (State.flag_chg _ _ _) rfl ?_
      assumption
    clear_value t3
    refine ChgR.ite ?_ ?_
    · refine ChgR.next ?_
      exact Chg.refl _ _
    · refine ChgR.next ?_
      refine Chg.step (State.logRate_chg _ _ _ _) rfl ?_
      assumption


theorem State.begun_chg (x0 : State) (x1 : Nat) (x2 : Nat) :
    Chg 0x800000 x0 (State.begun x0 x1 x2) := by
  unfold State.begun
  refine Chg.step (State.updTaken_chg _ _ _ _) rfl ?_
  exact Chg.refl _ _


theorem State.cmdWrite_chg (x0 : State) (x1 : Nat) (x2 : Taken) (x3 : Nat) (x4 : List Nat) :
    Chg 0x800800 x0 (State.cmdWrite x0 x1 x2 x3 x4) := by
  unfold State.cmdWrite
  refine Chg.ite ?_ ?_
  · exact Chg.refl _ _
  · refine Chg.ite ?_ ?_
    · refine Chg.step (State.updTaken_chg _ _ _ _) rfl ?_
      exact Chg.refl _ _
    · refine Chg.step (State.emit_chg _ _) rfl ?_
      exact Chg.refl _ _


theorem execNop_chg (x0 : Nat) (x1 : Nat) (x2 : State) :
    ChgR 0x8000008800808 x2 (execNop x0 x1 x2) := by
  unfold execNop
  split
  · refine ChgR.next ?_
    exact Chg.refl _ _
  · refine ChgR.next ?_
    refine Chg.step (State.done_chg _ _ _ _) rfl ?_
    exact Chg.refl _ _


theorem State.allocPage_chg (x0 : State) (x1 : Nat) (x2 : Nat) (x3 : Nat) :
    ChgO 0x80000 x0 (State.allocPage x0 x1 x2 x3) := by
  unfold State.allocPage
  split
  · exact ChgO.none
  · extract_lets w1 w2
    clear_value w1
    clear_value w2
    refine ChgO.some ?_
    refine Chg.upd_fab rfl ?_
    exact Chg.refl _ _


theorem State.allocArea_chg (x0 : State) (x1 : Nat) (x2 : List Nat) :
    ChgO 0x80000 x0 (State.allocArea x0 x1 x2) := by
  induction' x2 with a l ih generalizing x0
  · rw [State.allocArea]
    refine ChgO.some ?_
    exact Chg.refl _ _
  · rw [State.allocArea]
    split
    · refine ChgO.step (ih _) rfl ?_
      exact Chg.refl _ _
    · refine ChgO.bind ?_
      intro u1 u2
      refine ChgO.step (ih _) rfl ?_
      refine ChgO.app ?_ (by assumption)
      refine ChgO.step (State.allocPage_chg _ _ _ _) rfl ?_
      exact Chg.refl _ _


theorem State.areaPut_chg (x0 : State) (x1 : Nat) (x2 : Nat) (x3 : List Nat) :
    Chg 0x100000 x0 (State.areaPut x0 x1 x2 x3) := by
  unfold State.areaPut
  refine Chg.foldl ?_ ?_
  · intro u1 u2 u3
    split
    · assumption
    · extract_lets w4 w5
      clear_value w4
      clear_value w5
      refine Chg.step (State.dramWrite_chg _ _ _) rfl ?_
      assumption
  · exact Chg.refl _ _


theorem State.scrubPages_chg (x0 : State) (x1 : PageEnt → Bool) :
    Chg 0x80000 x0 (State.scrubPages x0 x1) := by
  unfold State.scrubPages
  extract_lets w1 w2
  clear_value w1
  clear_value w2
  refine Chg.upd_fab rfl ?_
  exact Chg.refl _ _


theorem execAreaWrite_chg (x0 : Nat) (x1 : Nat) (x2 : Option (List Nat)) (x3 : State) :
    ChgR 0x80000089c0808 x3 (execAreaWrite x0 x1 x2 x3) := by
  unfold execAreaWrite
  extract_lets w1
  clear_value w1
  split
  · refine ChgR.next ?_
    exact Chg.refl _ _
  · extract_lets w2 w3 w4
    clear_value w2
    clear_value w3
    refine ChgR.ite ?_ ?_
    · refine ChgR.next ?_
      exact Chg.refl _ _
    · split
      · refine ChgR.next ?_
        refine Chg.step (State.done_chg _ _ _ _) rfl ?_
        exact Chg.refl _ _
      · split
        · refine ChgR.next ?_
          refine Chg.step (State.done_chg _ _ _ _) rfl ?_
          exact Chg.refl _ _
        · extract_lets t5 t6
          have ht5 : Chg 0x80000089c0808 x3 t5 := by
            unfold t5
            refine Chg.step (State.areaPut_chg _ _ _ _) rfl ?_
            refine ChgO.app ?_ (by assumption)
            refine ChgO.step (State.allocArea_chg _ _ _) rfl ?_
            exact Chg.refl _ _
          clear_value t5
          have ht6 : Chg 0x80000089c0808 x3 t6 := by
            unfold t6
            refine Chg.upd_models rfl ?_
            assumption
          clear_value t6
          refine ChgR.next ?_
          refine Chg.step (State.complete_chg _ _ _ _) rfl ?_
          assumption


theorem execAreaRead_chg (x0 : Nat) (x1 : Nat) (x2 : State) :
    ChgR 0x8000008800808 x2 (execAreaRead x0 x1 x2) := by
  unfold execAreaRead
  extract_lets w1
  clear_value w1
  split
  · refine ChgR.next ?_
    exact Chg.refl _ _
  · extract_lets w2 t3
    clear_value w2
    have ht3 : Chg 0x8000008800808 x2 t3 := by
      unfold t3
      refine Chg.step (State.cmdWrite_chg _ _ _ _ _) rfl ?_
      exact Chg.refl _ _
    clear_value t3
    refine ChgR.next ?_
    refine Chg.step (State.complete_chg _ _ _ _) rfl ?_
    assumption


theorem execAreaFree_chg (x0 : Nat) (x1 : Nat) (x2 : State) :
    ChgR 0x80000088c0808 x2 (execAreaFree x0 x1 x2) := by
  unfold execAreaFree
  extract_lets w1
  clear_value w1
  split
  · refine ChgR.next ?_
    exact Chg.refl _ _
  · extract_lets w2 t3 t4
    clear_value w2
    have ht3 : Chg 0x80000088c0808 x2 t3 := by
      unfold t3
      refine Chg.step (State.scrubPages_chg _ _) rfl ?_
      exact Chg.refl _ _
    clear_value t3
    have ht4 : Chg 0x80000088c0808 x2 t4 := by
      unfold t4
      refine Chg.upd_models rfl ?_
      assumption
    clear_value t4
    refine ChgR.ite ?_ ?_
    · refine ChgR.next ?_
      refine Chg.step (State.done_chg _ _ _ _) rfl ?_
      exact Chg.refl _ _
    · refine ChgR.next ?_
      refine Chg.step (State.done_chg _ _ _ _) rfl ?_
      assumption


theorem State.bindRing_chg (x0 : State) (x1 : Nat) (x2 : Nat) :
    Chg 0x8000040000008 x0 (State.bindRing x0 x1 x2) := by
  unfold State.bindRing
  extract_lets t1 t2 w3
  have ht1 : Chg 0x8000040000008 x0 t1 := by
    unfold t1
    refine Chg.step (State.flag_chg _ _ _) rfl ?_
    exact Chg.refl _ _
  clear_value t1
  have ht2 : Chg 0x8000040000008 x0 t2 := by
    unfold t2
    refine Chg.step (State.fset_chg _ _ _ _) rfl ?_
    assumption
  clear_value t2
  clear_value w3
  refine Chg.step (State.setLane_chg _ _ _) rfl ?_
  assumption


theorem State.unbindLane_chg (x0 : State) (x1 : Nat) :
    Chg 0x8000040000008 x0 (State.unbindLane x0 x1) := by
  unfold State.unbindLane
  split
  · exact Chg.refl _ _
  · extract_lets t1 t2 w3
    have ht1 : Chg 0x8000040000008 x0 t1 := by
      unfold t1
      refine Chg.step (State.fset_chg _ _ _ _) rfl ?_
      exact Chg.refl _ _
    clear_value t1
    have ht2 : Chg 0x8000040000008 x0 t2 := by
      unfold t2
      refine Chg.step (State.fset_chg _ _ _ _) rfl ?_
      assumption
    clear_value t2
    clear_value w3
    refine Chg.step (State.setLane_chg _ _ _) rfl ?_
    assumption


theorem execBind_chg (x0 : Nat) (x1 : Nat) (x2 : State) :
    ChgR 0x8000048800808 x2 (execBind x0 x1 x2) := by
  unfold execBind
  extract_lets w1
  clear_value w1
  split
  · refine ChgR.next ?_
    exact Chg.refl _ _
  · extract_lets w2 w3
    clear_value w2
    clear_value w3
    refine ChgR.ite ?_ ?_
    · refine ChgR.next ?_
      refine Chg.step (State.done_chg _ _ _ _) rfl ?_
      refine Chg.step (State.bindRing_chg _ _ _) rfl ?_
      exact Chg.refl _ _
    · refine ChgR.next ?_
      refine Chg.step (State.done_chg _ _ _ _) rfl ?_
      exact Chg.refl _ _


theorem execPeerWindow_chg (x0 : Nat) (x1 : Nat) (x2 : Bool) (x3 : State) :
    ChgR 0x8000008800808 x3 (execPeerWindow x0 x1 x2 x3) := by
  unfold execPeerWindow
  extract_lets w1 w2
  clear_value w1
  split
  · refine ChgR.next ?_
    exact Chg.refl _ _
  · extract_lets w3 w4 w5 w6 w7
    clear_value w3
    clear_value w4
    clear_value w5
    clear_value w6
    clear_value w7
    refine ChgR.ite ?_ ?_
    · refine ChgR.next ?_
      refine Chg.step (State.done_chg _ _ _ _) rfl ?_
      refine Chg.step (State.setRing_chg _ _ _) rfl ?_
      exact Chg.refl _ _
    · refine ChgR.ite ?_ ?_
      · refine ChgR.ite ?_ ?_
        · refine ChgR.next ?_
          refine Chg.step (State.done_chg _ _ _ _) rfl ?_
          refine Chg.step (State.setRing_chg _ _ _) rfl ?_
          exact Chg.refl _ _
        · refine ChgR.next ?_
          refine Chg.step (State.done_chg _ _ _ _) rfl ?_
          exact Chg.refl _ _
      · refine ChgR.next ?_
        refine Chg.step (State.done_chg _ _ _ _) rfl ?_
        refine Chg.step (State.setRing_chg _ _ _) rfl ?_
        exact Chg.refl _ _


theorem execAtsInvalidate_chg (x0 : Nat) (x1 : Nat) (x2 : Bool) (x3 : State) :
    ChgR 0x2c020089e98908 x3 (execAtsInvalidate x0 x1 x2 x3) := by
  unfold execAtsInvalidate
  extract_lets w1 w2 t3 t4 w5
  clear_value w1
  clear_value w2
  have ht3 : Chg 0x2c020089e98908 x3 t3 := by
    unfold t3
    refine Chg.step (State.count_chg _ _ _) rfl ?_
    exact Chg.refl _ _
  clear_value t3
  have ht4 : Chg 0x2c020089e98908 x3 t4 := by
    unfold t4
    refine Chg.step (State.setRing_chg _ _ _) rfl ?_
    assumption
  clear_value t4
  clear_value w5
  refine ChgR.ite ?_ ?_
  · refine ChgR.next ?_
    exact Chg.refl _ _
  · refine ChgR.ite ?_ ?_
    · refine ChgR.next ?_
      refine Chg.step (State.setRing_chg _ _ _) rfl ?_
      assumption
    · refine ChgR.next ?_
      refine Chg.foldl ?_ ?_
      · intro u6 u7 u8
        extract_lets t9
        have ht9 : Chg 0x2c020089e98908 x3 t9 := by
          unfold t9
          refine Chg.step (State.endItem_chg _ _ _) rfl ?_
          assumption
        clear_value t9
        refine Chg.upd_reads rfl ?_
        assumption
      · assumption


theorem State.resetFields_chg {m : Nat} {s t : State} {l : List Fld} {i : Nat} :
    m.testBit 4 = true → l.all (fun f => Sub (fm f) m) = true → Chg m s t → Chg m s (State.resetFields t l i) := by
  intro h4 h k
  unfold State.resetFields
  refine Chg.foldl_mem (fun u x hx k => ?_) k
  have hx : Sub (fm x) m = true := mem_fld hx h
  exact Chg.upd_staged h4 (Chg.step (State.fset_chg _ _ _ _) hx k)

theorem State.resetFunc_chg (x0 : State) (x1 : Nat) :
    Chg 0x800007d800018 x0 (State.resetFunc x0 x1) := by
  unfold State.resetFunc
  extract_lets w1 t2 t3
  clear_value w1
  have ht2 : Chg 0x800007d800018 x0 t2 := by
    unfold t2
    refine Chg.foldl ?_ ?_
    · intro u4 u5 u6
      split
      · assumption
      · refine Chg.ite ?_ ?_
        · refine Chg.step (State.unbindLane_chg _ _) rfl ?_
          assumption
        · assumption
    · exact Chg.refl _ _
  clear_value t2
  have ht3 : Chg 0x800007d800018 x0 t3 := by
    unfold t3
    refine Chg.foldl ?_ ?_
    · intro u7 u8 u9
      refine State.resetFields_chg rfl rfl ?_
      refine Chg.step (State.setRing_chg _ _ _) rfl ?_
      assumption
    · assumption
  clear_value t3
  refine Chg.upd_reads_msix_msixPending_busMaster_ats rfl rfl rfl rfl rfl ?_
  assumption


theorem State.flr_chg (x0 : State) (x1 : Nat) :
    Chg 0x800007da00018 x0 (State.flr x0 x1) := by
  unfold State.flr
  extract_lets w1 t2
  clear_value w1
  have ht2 : Chg 0x800007da00018 x0 t2 := by
    unfold t2
    refine Chg.upd_items rfl ?_
    exact Chg.refl _ _
  clear_value t2
  refine Chg.foldl ?_ ?_
  · intro u3 u4 u5
    extract_lets w6
    clear_value w6
    refine Chg.ite ?_ ?_
    · assumption
    · refine Chg.step (State.setRing_chg _ _ _) rfl ?_
      assumption
  · refine Chg.step (State.resetFunc_chg _ _) rfl ?_
    assumption


theorem execLinkRetrain_chg (x0 : Nat) (x1 : Nat) (x2 : Bool) (x3 : State) :
    ChgR 0x14020000600908 x3 (execLinkRetrain x0 x1 x2 x3) := by
  unfold execLinkRetrain
  extract_lets w1 t2 t3 t4 t5 t6
  clear_value w1
  have ht2 : Chg 0x14020000600908 x3 t2 := by
    unfold t2
    refine Chg.step (State.fset_chg _ _ _ _) rfl ?_
    exact Chg.refl _ _
  clear_value t2
  have ht3 : Chg 0x14020000600908 x3 t3 := by
    unfold t3
    refine Chg.step (State.fset_chg _ _ _ _) rfl ?_
    assumption
  clear_value t3
  have ht4 : Chg 0x14020000600908 x3 t4 := by
    unfold t4
    refine Chg.step (State.fset_chg _ _ _ _) rfl ?_
    assumption
  clear_value t4
  have ht5 : Chg 0x14020000600908 x3 t5 := by
    unfold t5
    refine Chg.step (State.fset_chg _ _ _ _) rfl ?_
    assumption
  clear_value t5
  have ht6 : Chg 0x14020000600908 x3 t6 := by
    unfold t6
    refine Chg.upd_items rfl ?_
    assumption
  clear_value t6
  refine ChgR.ite ?_ ?_
  · refine ChgR.next ?_
    exact Chg.refl _ _
  · refine ChgR.ite ?_ ?_
    · refine ChgR.next ?_
      refine Chg.step (State.log_chg _ _) rfl ?_
      refine Chg.step (State.flag_chg _ _ _) rfl ?_
      assumption
    · refine ChgR.next ?_
      assumption


theorem State.acceptItem_chg (x0 : State) (x1 : Nat) (x2 : Option Origin) (x3 : Nat) :
    Chg 0x40200000 x0 (State.acceptItem x0 x1 x2 x3) := by
  unfold State.acceptItem
  split
  · exact Chg.refl _ _
  · extract_lets w1 t2
    clear_value w1
    have ht2 : Chg 0x40200000 x0 t2 := by
      unfold t2
      refine Chg.step (State.setItem_chg _ _ _) rfl ?_
      exact Chg.refl _ _
    clear_value t2
    refine Chg.step (State.setLane_chg _ _ _) rfl ?_
    assumption


theorem State.joinInput_chg (x0 : State) (x1 : Nat) (x2 : Nat) (x3 : Option Origin) (x4 : Nat) :
    Chg 0x200200c0600908 x0 (State.joinInput x0 x1 x2 x3 x4).1 := by
  unfold State.joinInput
  split
  · refine Chg.fst_ite ?_ ?_
    · refine Chg.fst_mk ?_
      refine Chg.step (State.acceptItem_chg _ _ _ _) rfl ?_
      exact Chg.refl _ _
    · refine Chg.fst_mk ?_
      refine Chg.step (State.count_chg _ _ _) rfl ?_
      exact Chg.refl _ _
  · split
    · refine Chg.fst_mk ?_
      refine Chg.ite ?_ ?_
      · refine Chg.step (State.sendVerdict_chg _ _ _) rfl ?_
        exact Chg.refl _ _
      · exact Chg.refl _ _
    · extract_lets w1 t2
      clear_value w1
      have ht2 : Chg 0x200200c0600908 x0 t2 := by
        unfold t2
        refine Chg.step (State.createItem_chg _ _) rfl ?_
        exact Chg.refl _ _
      clear_value t2
      refine Chg.fst_ite ?_ ?_
      · refine Chg.fst_mk ?_
        exact Chg.refl _ _
      · refine Chg.fst_mk ?_
        refine Chg.step (State.acceptItem_chg _ _ _ _) rfl ?_
        assumption


theorem execItem_chg (x0 : Nat) (x1 : Nat) (x2 : State) :
    ChgR 0x280200cbe00908 x2 (execItem x0 x1 x2) := by
  unfold execItem
  extract_lets w1
  clear_value w1
  split
  · refine ChgR.next ?_
    exact Chg.refl _ _
  · extract_lets w2 t3 w4 w5
    clear_value w2
    have ht3 : Chg 0x280200cbe00908 x2 t3 := by
      unfold t3
      refine Chg.step (State.begun_chg _ _ _) rfl ?_
      exact Chg.refl _ _
    clear_value t3
    clear_value w4
    clear_value w5
    split
    · refine ChgR.next ?_
      refine Chg.step (State.complete_chg _ _ _ _) rfl ?_
      refine Chg.of_fst (by assumption) ?_
      refine Chg.step (State.joinInput_chg _ _ _ _ _) rfl ?_
      assumption
    · refine ChgR.ite ?_ ?_
      · refine ChgR.next ?_
        refine Chg.step (State.hostRead_chg _ _ _ _ _ _) rfl ?_
        refine Chg.of_fst (by assumption) ?_
        refine Chg.step (State.joinInput_chg _ _ _ _ _) rfl ?_
        assumption
      · split
        · refine ChgR.next ?_
          refine Chg.of_fst (by assumption) ?_
          refine Chg.step (State.joinInput_chg _ _ _ _ _) rfl ?_
          assumption
        · refine ChgR.next ?_
          refine Chg.ite ?_ ?_
          · refine Chg.step (State.sendVerdict_chg _ _ _) rfl ?_
            refine Chg.of_fst (by assumption) ?_
            refine Chg.step (State.joinInput_chg _ _ _ _ _) rfl ?_
            assumption
          · refine Chg.of_fst (by assumption) ?_
            refine Chg.step (State.joinInput_chg _ _ _ _ _) rfl ?_
            assumption


theorem execBusMasterEnable_chg (x0 : Nat) (x1 : State) :
    ChgR 0x2c020099e98908 x1 (execBusMasterEnable x0 x1) := by
  unfold execBusMasterEnable
  extract_lets t1 w2
  have ht1 : Chg 0x2c020099e98908 x1 t1 := by
    unfold t1
    refine Chg.ite ?_ ?_
    · exact Chg.refl _ _
    · refine Chg.upd_busMaster rfl ?_
      exact Chg.refl _ _
  clear_value t1
  clear_value w2
  refine ChgR.ite ?_ ?_
  · refine ChgR.next ?_
    exact Chg.refl _ _
  · refine ChgR.next ?_
    refine Chg.foldl ?_ ?_
    · intro u3 u4 u5
      refine Chg.step (State.inputLost_chg _ _ _) rfl ?_
      assumption
    · assumption


theorem State.enterVec_chg (x0 : State) (x1 : Nat) (x2 : VecIn) (x3 : Nat) :
    Chg 0xa8000 x0 (State.enterVec x0 x1 x2 x3) := by
  unfold State.enterVec
  extract_lets t1
  have ht1 : Chg 0xa8000 x0 t1 := by
    unfold t1
    refine Chg.step (State.landVec_chg _ _ _ _ _) rfl ?_
    exact Chg.refl _ _
  clear_value t1
  split
  · assumption
  · refine Chg.step (State.sendKParts_chg _ _ _) rfl ?_
    assumption


theorem State.enterPacket_chg (x0 : State) (x1 : Nat) (x2 : Nat) (x3 : Packet) :
    Chg 0x2a8000 x0 (State.enterPacket x0 x1 x2 x3) := by
  unfold State.enterPacket
  extract_lets w1 t2
  clear_value w1
  have ht2 : Chg 0x2a8000 x0 t2 := by
    unfold t2
    split
    · exact Chg.refl _ _
    · refine Chg.step (State.setItem_chg _ _ _) rfl ?_
      exact Chg.refl _ _
  clear_value t2
  split
  · exact Chg.refl _ _
  · refine Chg.step (State.enterVec_chg _ _ _ _) rfl ?_
    assumption


theorem State.returnCredit_chg (x0 : State) (x1 : Nat) (x2 : Nat) :
    Chg 0x80000 x0 (State.returnCredit x0 x1 x2) := by
  unfold State.returnCredit
  split
  · exact Chg.refl _ _
  · extract_lets w1
    clear_value w1
    refine Chg.step (State.toPeer_chg _ _) rfl ?_
    exact Chg.refl _ _


theorem execFirstPacketTake_chg (x0 : Nat) (x1 : State) :
    ChgR 0x200200c06a8908 x1 (execFirstPacketTake x0 x1) := by
  unfold execFirstPacketTake
  extract_lets w1 w2 w3
  clear_value w1
  clear_value w2
  clear_value w3
  split
  · refine ChgR.next ?_
    exact Chg.refl _ _
  · extract_lets w4 t5
    clear_value w4
    have ht5 : Chg 0x200200c06a8908 x1 t5 := by
      unfold t5
      refine Chg.step (State.setLane_chg _ _ _) rfl ?_
      exact Chg.refl _ _
    clear_value t5
    refine ChgR.ite ?_ ?_
    · refine ChgR.next ?_
      exact Chg.refl _ _
    · refine ChgR.ite ?_ ?_
      · refine ChgR.next ?_
        refine Chg.step (State.returnCredit_chg _ _ _) rfl ?_
        assumption
      · split
        · refine ChgR.next ?_
          refine Chg.step (State.returnCredit_chg _ _ _) rfl ?_
          refine Chg.of_fst (by assumption) ?_
          refine Chg.step (State.joinInput_chg _ _ _ _ _) rfl ?_
          assumption
        · refine ChgR.next ?_
          refine Chg.foldl ?_ ?_
          · intro u6 u7 u8
            refine Chg.step (State.enterPacket_chg _ _ _ _) rfl ?_
            assumption
          · refine Chg.of_fst (by assumption) ?_
            refine Chg.step (State.joinInput_chg _ _ _ _ _) rfl ?_
            assumption


theorem State.positionAt_chg (x0 : State) (x1 : Nat) (x2 : Nat) :
    Chg 0x20020080600908 x0 (State.positionAt x0 x1 x2) := by
  unfold State.positionAt
  extract_lets w1 w2 t3
  clear_value w1
  clear_value w2
  have ht3 : Chg 0x20020080600908 x0 t3 := by
    unfold t3
    refine Chg.upd_bar rfl ?_
    exact Chg.refl _ _
  clear_value t3
  refine Chg.foldl ?_ ?_
  · intro u4 u5 u6
    extract_lets t7
    have ht7 : Chg 0x20020080600908 x0 t7 := by
      unfold t7
      refine Chg.ite ?_ ?_
      · refine Chg.step (State.countAt_chg _ _ _ _ _) rfl ?_
        assumption
      · assumption
    clear_value t7
    refine Chg.step (State.closeItem_chg _ _) rfl ?_
    assumption
  · assumption


theorem State.itemCreated_chg (x0 : State) (x1 : Nat) (x2 : Nat) (x3 : Nat) (x4 : Nat) (x5 : Nat) :
    Chg 0x20020080600f08 x0 (State.itemCreated x0 x1 x2 x3 x4 x5) := by
  unfold State.itemCreated
  extract_lets t1 t2 t3 t4 w5 t6
  have ht1 : Chg 0x20020080600f08 x0 t1 := by
    unfold t1
    refine Chg.step (State.positionAt_chg _ _ _) rfl ?_
    exact Chg.refl _ _
  clear_value t1
  have ht2 : Chg 0x20020080600f08 x0 t2 := by
    unfold t2
    refine Chg.step (State.toField_chg _ _) rfl ?_
    assumption
  clear_value t2
  have ht3 : Chg 0x20020080600f08 x0 t3 := by
    unfold t3
    refine Chg.step (State.count_chg _ _ _) rfl ?_
    assumption
  clear_value t3
  have ht4 : Chg 0x20020080600f08 x0 t4 := by
    unfold t4
    refine Chg.step (State.flag_chg _ _ _) rfl ?_
    assumption
  clear_value t4
  clear_value w5
  have ht6 : Chg 0x20020080600f08 x0 t6 := by
    unfold t6
    refine Chg.step (State.createItem_chg _ _) rfl ?_
    assumption
  clear_value t6
  split
  · refine Chg.ite ?_ ?_
    · refine Chg.step (State.count_chg _ _ _) rfl ?_
      assumption
    · refine Chg.step (State.setItem_chg _ _ _) rfl ?_
      assumption
  · refine Chg.ite ?_ ?_
    · refine Chg.step (State.count_chg _ _ _) rfl ?_
      assumption
    · refine Chg.ite ?_ ?_
      · refine Chg.step (State.count_chg _ _ _) rfl ?_
        assumption
      · refine Chg.ite ?_ ?_
        · refine Chg.step (State.logRate_chg _ _ _ _) rfl ?_
          assumption
        · refine Chg.ite ?_ ?_
          · refine Chg.step (State.sendVerdict_chg _ _ _) rfl ?_
            assumption
          · assumption


theorem State.recordLost_chg (x0 : State) (x1 : Nat) :
    Chg 0x28020089e98908 x0 (State.recordLost x0 x1) := by
  unfold State.recordLost
  split
  · exact Chg.refl _ _
  · extract_lets t1 t2 t3 t4 t5 t6
    have ht1 : Chg 0x28020089e98908 x0 t1 := by
      unfold t1
      refine Chg.step (State.abandon_chg _ _ _) rfl ?_
      exact Chg.refl _ _
    clear_value t1
    have ht2 : Chg 0x28020089e98908 x0 t2 := by
      unfold t2
      refine Chg.ite ?_ ?_
      · assumption
      · refine Chg.step (State.sendVerdict_chg _ _ _) rfl ?_
        assumption
    clear_value t2
    have ht3 : Chg 0x28020089e98908 x0 t3 := by
      unfold t3
      refine Chg.step (State.completeItem_chg _ _ _ _) rfl ?_
      assumption
    clear_value t3
    have ht4 : Chg 0x28020089e98908 x0 t4 := by
      unfold t4
      refine Chg.step (State.count_chg _ _ _) rfl ?_
      assumption
    clear_value t4
    have ht5 : Chg 0x28020089e98908 x0 t5 := by
      unfold t5
      refine Chg.step (State.flag_chg _ _ _) rfl ?_
      assumption
    clear_value t5
    have ht6 : Chg 0x28020089e98908 x0 t6 := by
      unfold t6
      refine Chg.step (State.log_chg _ _) rfl ?_
      assumption
    clear_value t6
    refine Chg.step (State.closeItem_chg _ _) rfl ?_
    assumption


theorem execItemLookup_chg (x0 : Nat) (x1 : State) :
    ChgR 0x40000000000008 x1 (execItemLookup x0 x1) := by
  unfold execItemLookup
  extract_lets t1 t2 w3 w4 t5 t6 w7 t8
  have ht1 : Chg 0x40000000000008 x1 t1 := by
    unfold t1
    refine Chg.step (State.fset_chg _ _ _ _) rfl ?_
    exact Chg.refl _ _
  clear_value t1
  have ht2 : Chg 0x40000000000008 x1 t2 := by
    unfold t2
    refine Chg.step (State.fset_chg _ _ _ _) rfl ?_
    assumption
  clear_value t2
  clear_value w3
  clear_value w4
  have ht5 : Chg 0x40000000000008 x1 t5 := by
    unfold t5
    refine Chg.step (State.fset_chg _ _ _ _) rfl ?_
    assumption
  clear_value t5
  have ht6 : Chg 0x40000000000008 x1 t6 := by
    unfold t6
    refine Chg.step (State.fset_chg _ _ _ _) rfl ?_
    assumption
  clear_value t6
  clear_value w7
  have ht8 : Chg 0x40000000000008 x1 t8 := by
    unfold t8
    refine Chg.step (State.fset_chg _ _ _ _) rfl ?_
    assumption
  clear_value t8
  split
  · refine ChgR.next ?_
    refine Chg.step (State.fset_chg _ _ _ _) rfl ?_
    assumption
  · extract_lets t9
    have ht9 : Chg 0x40000000000008 x1 t9 := by
      unfold t9
      refine Chg.step (State.fset_chg _ _ _ _) rfl ?_
      assumption
    clear_value t9
    refine ChgR.next ?_
    refine Chg.step (State.fset_chg _ _ _ _) rfl ?_
    assumption


theorem State.admResult_chg (x0 : State) (x1 : Nat) (x2 : Nat) (x3 : List Nat) :
    Chg 0x18000008800808 x0 (State.admResult x0 x1 x2 x3) := by
  unfold State.admResult
  extract_lets t1 w2
  have ht1 : Chg 0x18000008800808 x0 t1 := by
    unfold t1
    refine Chg.step (State.fset_chg _ _ _ _) rfl ?_
    exact Chg.refl _ _
  clear_value t1
  clear_value w2
  split
  · assumption
  · refine Chg.step (State.done_chg _ _ _ _) rfl ?_
    refine Chg.step (State.cmdWrite_chg _ _ _ _ _) rfl ?_
    assumption


theorem State.admRefuse_chg (x0 : State) (x1 : Nat) (x2 : Nat) (x3 : Nat) (x4 : Lane) (x5 : Refused) :
    Chg 0x18020008c00908 x0 (State.admRefuse x0 x1 x2 x3 x4 x5) := by
  unfold State.admRefuse
  extract_lets t1 t2
  have ht1 : Chg 0x18020008c00908 x0 t1 := by
    unfold t1
    refine Chg.step (State.countAt_chg _ _ _ _ _) rfl ?_
    exact Chg.refl _ _
  clear_value t1
  have ht2 : Chg 0x18020008c00908 x0 t2 := by
    unfold t2
    refine Chg.step (State.log_chg _ _) rfl ?_
    assumption
  clear_value t2
  refine Chg.step (State.admResult_chg _ _ _ _) rfl ?_
  assumption


theorem State.laneAdmitted_chg (x0 : State) (x1 : Nat) :
    Chg 0x18020048c00908 x0 (State.laneAdmitted x0 x1) := by
  unfold State.laneAdmitted
  extract_lets w1 t2 t3 t4 t5
  clear_value w1
  have ht2 : Chg 0x18020048c00908 x0 t2 := by
    unfold t2
    refine Chg.step (State.fset_chg _ _ _ _) rfl ?_
    exact Chg.refl _ _
  clear_value t2
  have ht3 : Chg 0x18020048c00908 x0 t3 := by
    unfold t3
    refine Chg.step (State.countAt_chg _ _ _ _ _) rfl ?_
    assumption
  clear_value t3
  have ht4 : Chg 0x18020048c00908 x0 t4 := by
    unfold t4
    refine Chg.step (State.log_chg _ _) rfl ?_
    assumption
  clear_value t4
  have ht5 : Chg 0x18020048c00908 x0 t5 := by
    unfold t5
    refine Chg.step (State.setLane_chg _ _ _) rfl ?_
    assumption
  clear_value t5
  split
  · assumption
  · refine Chg.step (State.admResult_chg _ _ _ _) rfl ?_
    assumption


theorem State.askSwitch_chg (x0 : State) (x1 : List Nat) :
    Chg 0x80000000008 x0 (State.askSwitch x0 x1) := by
  unfold State.askSwitch
  refine Chg.foldl ?_ ?_
  · intro u1 u2 u3
    refine Chg.step (State.flag_chg _ _ _) rfl ?_
    assumption
  · exact Chg.refl _ _


theorem State.admCommit_chg (x0 : State) (x1 : Nat) (x2 : Nat) (x3 : Nat) (x4 : Lane) (x5 : Nat × Nat) (x6 : Option Nat) (x7 : ChainPlan) (x8 : Frac) :
    Chg 0x18080040008008 x0 (State.admCommit x0 x1 x2 x3 x4 x5 x6 x7 x8) := by
  unfold State.admCommit
  extract_lets w1 w2 t3 t4 t5 t6 t7 t8 t9 t10 t11 t12 t13 t14 t15
  clear_value w1
  clear_value w2
  have ht3 : Chg 0x18080040008008 x0 t3 := by
    unfold t3
    refine Chg.step (State.setLane_chg _ _ _) rfl ?_
    exact Chg.refl _ _
  clear_value t3
  have ht4 : Chg 0x18080040008008 x0 t4 := by
    unfold t4
    refine Chg.foldl ?_ ?_
    · intro u16 u17 u18
      refine Chg.foldl ?_ ?_
      · intro u19 u20 u21
        refine Chg.step (State.setOtherBank_chg _ _ _) rfl ?_
        assumption
      · assumption
    · assumption
  clear_value t4
  have ht5 : Chg 0x18080040008008 x0 t5 := by
    unfold t5
    refine Chg.foldl ?_ ?_
    · intro u22 u23 u24
      refine Chg.step (State.askSwitch_chg _ _) rfl ?_
      assumption
    · assumption
  clear_value t5
  have ht6 : Chg 0x18080040008008 x0 t6 := by
    unfold t6
    refine Chg.step (State.fset_chg _ _ _ _) rfl ?_
    assumption
  clear_value t6
  have ht7 : Chg 0x18080040008008 x0 t7 := by
    unfold t7
    refine Chg.step (State.fset_chg _ _ _ _) rfl ?_
    assumption
  clear_value t7
  have ht8 : Chg 0x18080040008008 x0 t8 := by
    unfold t8
    refine Chg.step (State.fset_chg _ _ _ _) rfl ?_
    assumption
  clear_value t8
  have ht9 : Chg 0x18080040008008 x0 t9 := by
    unfold t9
    refine Chg.step (State.fset_chg _ _ _ _) rfl ?_
    assumption
  clear_value t9
  have ht10 : Chg 0x18080040008008 x0 t10 := by
    unfold t10
    refine Chg.step (State.fset_chg _ _ _ _) rfl ?_
    assumption
  clear_value t10
  have ht11 : Chg 0x18080040008008 x0 t11 := by
    unfold t11
    refine Chg.step (State.fset_chg _ _ _ _) rfl ?_
    assumption
  clear_value t11
  have ht12 : Chg 0x18080040008008 x0 t12 := by
    unfold t12
    refine Chg.step (State.fset_chg _ _ _ _) rfl ?_
    assumption
  clear_value t12
  have ht13 : Chg 0x18080040008008 x0 t13 := by
    unfold t13
    refine Chg.step (State.fset_chg _ _ _ _) rfl ?_
    assumption
  clear_value t13
  have ht14 : Chg 0x18080040008008 x0 t14 := by
    unfold t14
    refine Chg.step (State.fset_chg _ _ _ _) rfl ?_
    assumption
  clear_value t14
  have ht15 : Chg 0x18080040008008 x0 t15 := by
    unfold t15
    refine Chg.step (State.fset_chg _ _ _ _) rfl ?_
    assumption
  clear_value t15
  split
  · assumption
  · refine Chg.step (State.bindRing_chg _ _ _) rfl ?_
    assumption


theorem State.bindQuery_chg (x0 : State) (x1 : Nat) (x2 : Lane) (x3 : Nat) (x4 : Nat) :
    Chg 0x80000 x0 (State.bindQuery x0 x1 x2 x3 x4) := by
  unfold State.bindQuery
  extract_lets w1
  clear_value w1
  refine Chg.step (State.toPeer_chg _ _) rfl ?_
  exact Chg.refl _ _


theorem State.putHostSpill_chg (x0 : State) (x1 : Nat) :
    Chg 0x800 x0 (State.putHostSpill x0 x1) := by
  unfold State.putHostSpill
  extract_lets w1
  clear_value w1
  split
  · exact Chg.refl _ _
  · extract_lets w2
    clear_value w2
    refine Chg.foldl ?_ ?_
    · intro u3 u4 u5
      split
      · assumption
      · refine Chg.step (State.emit_chg _ _) rfl ?_
        assumption
    · exact Chg.refl _ _


theorem State.admRun_chg (x0 : State) (x1 : Nat) (x2 : Nat) (x3 : Nat) (x4 : Lane) (x5 : List Nat) (x6 : Bool) (x7 : Option (Nat × Nat × Nat)) :
    Chg 0x180a0048c08908 x0 (State.admRun x0 x1 x2 x3 x4 x5 x6 x7) := by
  unfold State.admRun
  extract_lets w1 w2
  clear_value w1
  clear_value w2
  split
  · refine Chg.step (State.admRefuse_chg _ _ _ _ _ _) rfl ?_
    exact Chg.refl _ _
  · extract_lets t3 w4
    have ht3 : Chg 0x180a0048c08908 x0 t3 := by
      unfold t3
      refine Chg.step (State.putHostSpill_chg _ _) rfl ?_
      refine Chg.step (State.admCommit_chg _ _ _ _ _ _ _ _ _) rfl ?_
      exact Chg.refl _ _
    clear_value t3
    clear_value w4
    split
    · assumption
    · refine Chg.step (State.setLane_chg _ _ _) rfl ?_
      assumption


theorem State.askField_chg (x0 : State) (x1 : FieldAsk) :
    Chg 0x80000000 x0 (State.askField x0 x1) := by
  unfold State.askField
  extract_lets w1 w2 w3 t4
  clear_value w1
  clear_value w2
  clear_value w3
  have ht4 : Chg 0x80000000 x0 t4 := by
    unfold t4
    refine Chg.upd_bar rfl ?_
    exact Chg.refl _ _
  clear_value t4
  refine Chg.step (State.toField_chg _ _) rfl ?_
  refine Chg.step (State.toField_chg _ _) rfl ?_
  refine Chg.step (State.toField_chg _ _) rfl ?_
  assumption


theorem State.admField_chg (x0 : State) (x1 : Nat) (x2 : Nat) (x3 : Nat) (x4 : List Nat) (x5 : List Nat) (x6 : Option (Nat × Nat × Nat)) :
    Chg 0x180a00c8c08908 x0 (State.admField x0 x1 x2 x3 x4 x5 x6) := by
  unfold State.admField
  extract_lets w1
  clear_value w1
  refine Chg.ite ?_ ?_
  · refine Chg.step (State.askField_chg _ _) rfl ?_
    exact Chg.refl _ _
  · refine Chg.step (State.admRun_chg _ _ _ _ _ _ _ _) rfl ?_
    exact Chg.refl _ _


theorem State.admBegin_chg (x0 : State) (x1 : Nat) (x2 : Nat) (x3 : List Nat) (x4 : List Nat) :
    Chg 0x180a00c8c88908 x0 (State.admBegin x0 x1 x2 x3 x4) := by
  unfold State.admBegin
  extract_lets w1 w2 w3
  clear_value w1
  clear_value w2
  clear_value w3
  refine Chg.ite ?_ ?_
  · refine Chg.step (State.admRefuse_chg _ _ _ _ _ _) rfl ?_
    exact Chg.refl _ _
  · refine Chg.ite ?_ ?_
    · refine Chg.step (State.admRefuse_chg _ _ _ _ _ _) rfl ?_
      exact Chg.refl _ _
    · split
      · refine Chg.step (State.admRefuse_chg _ _ _ _ _ _) rfl ?_
        exact Chg.refl _ _
      · refine Chg.ite ?_ ?_
        · refine Chg.step (State.bindQuery_chg _ _ _ _ _) rfl ?_
          refine Chg.step (State.setLane_chg _ _ _) rfl ?_
          exact Chg.refl _ _
        · refine Chg.step (State.admField_chg _ _ _ _ _ _ _) rfl ?_
          exact Chg.refl _ _


theorem execAdmitLane_chg (x0 : Nat) (x1 : Nat) (x2 : Option (List Nat)) (x3 : State) :
    ChgR 0x1c0a00c8c88f08 x3 (execAdmitLane x0 x1 x2 x3) := by
  unfold execAdmitLane
  extract_lets w1
  clear_value w1
  split
  · refine ChgR.next ?_
    exact Chg.refl _ _
  · extract_lets w2
    clear_value w2
    refine ChgR.ite ?_ ?_
    · refine ChgR.next ?_
      refine Chg.step (State.done_chg _ _ _ _) rfl ?_
      exact Chg.refl _ _
    · split
      · refine ChgR.next ?_
        refine Chg.step (State.done_chg _ _ _ _) rfl ?_
        exact Chg.refl _ _
      · extract_lets w3 w4 w5
        clear_value w3
        clear_value w4
        clear_value w5
        refine ChgR.ite ?_ ?_
        · refine ChgR.next ?_
          refine Chg.step (State.descBad_chg _ _ _ _) rfl ?_
          exact Chg.refl _ _
        · refine ChgR.ite ?_ ?_
          · refine ChgR.next ?_
            refine Chg.step (State.descBad_chg _ _ _ _) rfl ?_
            exact Chg.refl _ _
          · refine ChgR.ite ?_ ?_
            · refine ChgR.next ?_
              refine Chg.step (State.done_chg _ _ _ _) rfl ?_
              exact Chg.refl _ _
            · refine ChgR.ite ?_ ?_
              · refine ChgR.next ?_
                exact Chg.refl _ _
              · refine ChgR.next ?_
                refine Chg.step (State.admBegin_chg _ _ _ _ _) rfl ?_
                refine Chg.step (State.begun_chg _ _ _) rfl ?_
                exact Chg.refl _ _


theorem State.flushRing_chg (x0 : State) (x1 : Nat) :
    Chg 0x8000003800808 x0 (State.flushRing x0 x1) := by
  unfold State.flushRing
  refine Chg.foldl ?_ ?_
  · intro u1 u2 u3
    extract_lets w4 t5 w6 w7
    clear_value w4
    have ht5 : Chg 0x8000003800808 x0 t5 := by
      unfold t5
      refine Chg.step (State.fset_chg _ _ _ _) rfl ?_
      assumption
    clear_value t5
    clear_value w6
    clear_value w7
    refine Chg.step (State.readDesc_chg _ _ _) rfl ?_
    refine Chg.step (State.setRing_chg _ _ _) rfl ?_
    assumption
  · exact Chg.refl _ _


theorem State.beginRelease_chg (x0 : State) (x1 : Nat) :
    Chg 0x18000043880808 x0 (State.beginRelease x0 x1) := by
  unfold State.beginRelease
  extract_lets t1 t2 w3 t4 w5 w6 t7
  have ht1 : Chg 0x18000043880808 x0 t1 := by
    unfold t1
    refine Chg.step (State.fset_chg _ _ _ _) rfl ?_
    exact Chg.refl _ _
  clear_value t1
  have ht2 : Chg 0x18000043880808 x0 t2 := by
    unfold t2
    split
    · assumption
    · refine Chg.step (State.unbindLane_chg _ _) rfl ?_
      refine Chg.step (State.flushRing_chg _ _) rfl ?_
      assumption
  clear_value t2
  clear_value w3
  have ht4 : Chg 0x18000043880808 x0 t4 := by
    unfold t4
    refine Chg.step (State.setLane_chg _ _ _) rfl ?_
    assumption
  clear_value t4
  clear_value w5
  have ht7 : Chg 0x18000043880808 x0 t7 := by
    unfold t7
    split
    · assumption
    · unfold w6
      refine Chg.step (State.toPeer_chg _ _) rfl ?_
      assumption
  clear_value t7
  split
  · assumption
  · unfold w6
    refine Chg.step (State.toPeer_chg _ _) rfl ?_
    assumption


theorem execRelease_chg (x0 : Nat) (x1 : Nat) (x2 : State) :
    ChgR 0x1800004b880808 x2 (execRelease x0 x1 x2) := by
  unfold execRelease
  extract_lets w1
  clear_value w1
  split
  · refine ChgR.next ?_
    exact Chg.refl _ _
  · extract_lets w2 t3 w4
    clear_value w2
    have ht3 : Chg 0x1800004b880808 x2 t3 := by
      unfold t3
      refine Chg.step (State.beginRelease_chg _ _) rfl ?_
      refine Chg.step (State.begun_chg _ _ _) rfl ?_
      exact Chg.refl _ _
    clear_value t3
    clear_value w4
    refine ChgR.ite ?_ ?_
    · refine ChgR.next ?_
      refine Chg.step (State.done_chg _ _ _ _) rfl ?_
      exact Chg.refl _ _
    · refine ChgR.ite ?_ ?_
      · refine ChgR.next ?_
        exact Chg.refl _ _
      · refine ChgR.next ?_
        refine Chg.step (State.setLane_chg _ _ _) rfl ?_
        assumption


theorem State.endReleased_chg (x0 : State) (x1 : Nat) :
    Chg 0x38020089e98f08 x0 (State.endReleased x0 x1) := by
  unfold State.endReleased
  split
  · exact Chg.refl _ _
  · extract_lets t1 t2 t3
    have ht1 : Chg 0x38020089e98f08 x0 t1 := by
      unfold t1
      refine Chg.step (State.countAt_chg _ _ _ _ _) rfl ?_
      exact Chg.refl _ _
    clear_value t1
    have ht2 : Chg 0x38020089e98f08 x0 t2 := by
      unfold t2
      refine Chg.step (State.logRate_chg _ _ _ _) rfl ?_
      assumption
    clear_value t2
    have ht3 : Chg 0x38020089e98f08 x0 t3 := by
      unfold t3
      refine Chg.step (State.breakLane_chg _ _ _) rfl ?_
      assumption
    clear_value t3
    refine Chg.ite ?_ ?_
    · exact Chg.refl _ _
    · refine Chg.step (State.endItem_chg _ _ _) rfl ?_
      refine Chg.step (State.setItem_chg _ _ _) rfl ?_
      assumption


theorem State.freeLane_chg (x0 : State) (x1 : Nat) :
    Chg 0x18020048c00908 x0 (State.freeLane x0 x1) := by
  unfold State.freeLane
  extract_lets w1 t2 t3 t4 t5 t6 t7 t8 t9 t10
  clear_value w1
  have ht2 : Chg 0x18020048c00908 x0 t2 := by
    unfold t2
    refine Chg.step (State.fset_chg _ _ _ _) rfl ?_
    exact Chg.refl _ _
  clear_value t2
  have ht3 : Chg 0x18020048c00908 x0 t3 := by
    unfold t3
    refine Chg.step (State.fset_chg _ _ _ _) rfl ?_
    assumption
  clear_value t3
  have ht4 : Chg 0x18020048c00908 x0 t4 := by
    unfold t4
    refine Chg.step (State.fset_chg _ _ _ _) rfl ?_
    assumption
  clear_value t4
  have ht5 : Chg 0x18020048c00908 x0 t5 := by
    unfold t5
    refine Chg.step (State.fset_chg _ _ _ _) rfl ?_
    assumption
  clear_value t5
  have ht6 : Chg 0x18020048c00908 x0 t6 := by
    unfold t6
    refine Chg.step (State.fset_chg _ _ _ _) rfl ?_
    assumption
  clear_value t6
  have ht7 : Chg 0x18020048c00908 x0 t7 := by
    unfold t7
    refine Chg.step (State.fset_chg _ _ _ _) rfl ?_
    assumption
  clear_value t7
  have ht8 : Chg 0x18020048c00908 x0 t8 := by
    unfold t8
    refine Chg.step (State.fset_chg _ _ _ _) rfl ?_
    assumption
  clear_value t8
  have ht9 : Chg 0x18020048c00908 x0 t9 := by
    unfold t9
    refine Chg.upd_lanes rfl ?_
    assumption
  clear_value t9
  have ht10 : Chg 0x18020048c00908 x0 t10 := by
    unfold t10
    refine Chg.step (State.log_chg _ _) rfl ?_
    assumption
  clear_value t10
  split
  · assumption
  · refine Chg.step (State.done_chg _ _ _ _) rfl ?_
    assumption


theorem State.dropEntries_chg (x0 : State) (x1 : Nat) :
    Chg 0x180a0048c08908 x0 (State.dropEntries x0 x1) := by
  unfold State.dropEntries
  extract_lets w1 w2
  clear_value w1
  split
  · refine Chg.step (State.freeLane_chg _ _) rfl ?_
    exact Chg.refl _ _
  · extract_lets w3 t4 w5 t6
    clear_value w3
    have ht4 : Chg 0x180a0048c08908 x0 t4 := by
      unfold t4
      refine Chg.foldl ?_ ?_
      · intro u7 u8 u9
        refine Chg.foldl ?_ ?_
        · intro u10 u11 u12
          extract_lets w13
          clear_value w13
          refine Chg.ite ?_ ?_
          · refine Chg.step (State.askSwitch_chg _ _) rfl ?_
            refine Chg.step (State.setOtherBank_chg _ _ _) rfl ?_
            assumption
          · refine Chg.step (State.setCore_chg _ _ _) rfl ?_
            assumption
        · assumption
      · exact Chg.refl _ _
    clear_value t4
    clear_value w5
    have ht6 : Chg 0x180a0048c08908 x0 t6 := by
      unfold t6
      refine Chg.step (State.setLane_chg _ _ _) rfl ?_
      assumption
    clear_value t6
    refine Chg.ite ?_ ?_
    · refine Chg.step (State.freeLane_chg _ _) rfl ?_
      assumption
    · assumption


theorem execReleaseComplete_chg (x0 : Nat) (x1 : State) :
    ChgR 0x380a00c9e98f08 x1 (execReleaseComplete x0 x1) := by
  unfold execReleaseComplete
  extract_lets w1
  clear_value w1
  refine ChgR.ite ?_ ?_
  · refine ChgR.next ?_
    exact Chg.refl _ _
  · refine ChgR.next ?_
    refine Chg.step (State.dropEntries_chg _ _) rfl ?_
    refine Chg.foldl ?_ ?_
    · intro u2 u3 u4
      refine Chg.step (State.endReleased_chg _ _) rfl ?_
      assumption
    · exact Chg.refl _ _


theorem execSuspend_chg (x0 : Nat) (x1 : Nat) (x2 : State) :
    ChgR 0x18020088e00908 x2 (execSuspend x0 x1 x2) := by
  unfold execSuspend
  extract_lets w1
  clear_value w1
  split
  · refine ChgR.next ?_
    exact Chg.refl _ _
  · extract_lets w2
    clear_value w2
    refine ChgR.ite ?_ ?_
    · refine ChgR.next ?_
      refine Chg.step (State.done_chg _ _ _ _) rfl ?_
      refine Chg.step (State.suspend_chg _ _ _ _) rfl ?_
      exact Chg.refl _ _
    · refine ChgR.next ?_
      refine Chg.step (State.done_chg _ _ _ _) rfl ?_
      exact Chg.refl _ _


theorem State.resumeLane_chg (x0 : State) (x1 : Nat) (x2 : Nat) (x3 : Nat) (x4 : Bool) :
    Chg 0x18020008c00908 x0 (State.resumeLane x0 x1 x2 x3 x4) := by
  unfold State.resumeLane
  extract_lets w1
  clear_value w1
  refine Chg.ite ?_ ?_
  · refine Chg.step (State.done_chg _ _ _ _) rfl ?_
    exact Chg.refl _ _
  · refine Chg.step (State.done_chg _ _ _ _) rfl ?_
    refine Chg.step (State.unsuspend_chg _ _ _) rfl ?_
    refine Chg.step (State.unsuspend_chg _ _ _) rfl ?_
    exact Chg.refl _ _


theorem State.fieldTold_chg (x0 : State) (x1 : FieldAsk) (x2 : Bool) :
    Chg 0x180a0048c08908 x0 (State.fieldTold x0 x1 x2) := by
  unfold State.fieldTold
  split
  · exact Chg.refl _ _
  · split
    · refine Chg.step (State.admRun_chg _ _ _ _ _ _ _ _) rfl ?_
      exact Chg.refl _ _
    · refine Chg.step (State.resumeLane_chg _ _ _ _ _) rfl ?_
      exact Chg.refl _ _


theorem execResume_chg (x0 : Nat) (x1 : Nat) (x2 : State) :
    ChgR 0x18020088c00908 x2 (execResume x0 x1 x2) := by
  unfold execResume
  extract_lets w1
  clear_value w1
  split
  · refine ChgR.next ?_
    exact Chg.refl _ _
  · extract_lets w2 w3
    clear_value w2
    clear_value w3
    refine ChgR.ite ?_ ?_
    · refine ChgR.next ?_
      refine Chg.step (State.done_chg _ _ _ _) rfl ?_
      exact Chg.refl _ _
    · refine ChgR.ite ?_ ?_
      · refine ChgR.next ?_
        refine Chg.step (State.askField_chg _ _) rfl ?_
        refine Chg.step (State.begun_chg _ _ _) rfl ?_
        exact Chg.refl _ _
      · refine ChgR.next ?_
        refine Chg.step (State.resumeLane_chg _ _ _ _ _) rfl ?_
        exact Chg.refl _ _


theorem execChunkFetchDone_chg (x0 : Nat) (x1 : Nat) (x2 : Nat) (x3 : State) :
    ChgR 0x8120000e3af08 x3 (execChunkFetchDone x0 x1 x2 x3) := by
  unfold execChunkFetchDone
  split
  · extract_lets t1 w2 t3 t4
    have ht1 : Chg 0x8120000e3af08 x3 t1 := by
      unfold t1
      refine Chg.step (State.setBuffer_chg _ _ _) rfl ?_
      exact Chg.refl _ _
    clear_value t1
    clear_value w2
    have ht3 : Chg 0x8120000e3af08 x3 t3 := by
      unfold t3
      refine Chg.step (State.setCore_chg _ _ _) rfl ?_
      assumption
    clear_value t3
    have ht4 : Chg 0x8120000e3af08 x3 t4 := by
      unfold t4
      refine Chg.ite ?_ ?_
      · refine Chg.step (State.itemSlow_chg _ _ _) rfl ?_
        assumption
      · assumption
    clear_value t4
    refine ChgR.ite ?_ ?_
    · refine ChgR.next ?_
      exact Chg.refl _ _
    · refine ChgR.next ?_
      refine Chg.step (State.finishPosted_chg _ _) rfl ?_
      refine Chg.step (State.wakeDrains_chg _ _) rfl ?_
      refine Chg.step (State.fallbackFinish_chg _ _ _) rfl ?_
      refine Chg.step (State.fallbackFinish_chg _ _ _) rfl ?_
      assumption
  · refine ChgR.next ?_
    exact Chg.refl _ _


theorem State.dropWaiting_chg (x0 : State) (x1 : List Nat) :
    Chg 0x40008000 x0 (State.dropWaiting x0 x1) := by
  unfold State.dropWaiting
  refine Chg.foldl ?_ ?_
  · intro u1 u2 u3
    extract_lets w4 w5 w6 t7
    clear_value w5
    clear_value w6
    have ht7 : Chg 0x40008000 x0 t7 := by
      unfold t7
      refine Chg.foldl ?_ ?_
      · intro u8 u9 u10
        extract_lets w11
        clear_value w11
        refine Chg.step (State.setLane_chg _ _ _) rfl ?_
        assumption
      · assumption
    clear_value t7
    refine Chg.step (State.setCore_chg _ _ _) rfl ?_
    assumption
  · exact Chg.refl _ _


theorem State.switchSeen_chg (x0 : State) (x1 : Nat) (x2 : Nat) (x3 : Nat) :
    Chg 0x18020048c00908 x0 (State.switchSeen x0 x1 x2 x3) := by
  unfold State.switchSeen
  refine Chg.foldl ?_ ?_
  · intro u1 u2 u3
    extract_lets w4 t5
    clear_value w4
    have ht5 : Chg 0x18020048c00908 x0 t5 := by
      unfold t5
      refine Chg.step (State.setLane_chg _ _ _) rfl ?_
      assumption
    clear_value t5
    refine Chg.ite ?_ ?_
    · refine Chg.ite ?_ ?_
      · refine Chg.ite ?_ ?_
        · refine Chg.step (State.laneAdmitted_chg _ _) rfl ?_
          assumption
        · refine Chg.ite ?_ ?_
          · refine Chg.step (State.freeLane_chg _ _) rfl ?_
            assumption
          · assumption
      · assumption
    · assumption
  · exact Chg.refl _ _


theorem execBankSwitch_chg (x0 : Nat) (x1 : State) :
    ChgR 0x180a0048c08908 x1 (execBankSwitch x0 x1) := by
  unfold execBankSwitch
  extract_lets w1 t2 t3
  clear_value w1
  have ht2 : Chg 0x180a0048c08908 x1 t2 := by
    unfold t2
    refine Chg.foldl ?_ ?_
    · intro u4 u5 u6
      extract_lets t7 t8
      have ht7 : Chg 0x180a0048c08908 x1 t7 := by
        unfold t7
        refine Chg.step (State.fset_chg _ _ _ _) rfl ?_
        assumption
      clear_value t7
      have ht8 : Chg 0x180a0048c08908 x1 t8 := by
        unfold t8
        refine Chg.step (State.fset_chg _ _ _ _) rfl ?_
        assumption
      clear_value t8
      refine Chg.step (State.setOtherBank_chg _ _ _) rfl ?_
      assumption
    · exact Chg.refl _ _
  clear_value t2
  have ht3 : Chg 0x180a0048c08908 x1 t3 := by
    unfold t3
    refine Chg.step (State.dropWaiting_chg _ _) rfl ?_
    assumption
  clear_value t3
  refine ChgR.ite ?_ ?_
  · refine ChgR.next ?_
    exact Chg.refl _ _
  · split
    · refine ChgR.next ?_
      assumption
    · refine ChgR.next ?_
      refine Chg.step (State.switchSeen_chg _ _ _ _) rfl ?_
      assumption


theorem State.fabErr_chg (x0 : State) (x1 : Nat) (x2 : Nat) (x3 : Packet) :
    Chg 0x1000000000008 x0 (State.fabErr x0 x1 x2 x3) := by
  unfold State.fabErr
  extract_lets t1 t2 t3
  have ht1 : Chg 0x1000000000008 x0 t1 := by
    unfold t1
    refine Chg.step (State.fset_chg _ _ _ _) rfl ?_
    exact Chg.refl _ _
  clear_value t1
  have ht2 : Chg 0x1000000000008 x0 t2 := by
    unfold t2
    refine Chg.step (State.fset_chg _ _ _ _) rfl ?_
    assumption
  clear_value t2
  have ht3 : Chg 0x1000000000008 x0 t3 := by
    unfold t3
    refine Chg.step (State.fset_chg _ _ _ _) rfl ?_
    assumption
  clear_value t3
  refine Chg.step (State.fset_chg _ _ _ _) rfl ?_
  assumption


theorem State.hdrFail_chg (x0 : State) (x1 : Packet) (x2 : Nat) :
    Chg 0x1020000480908 x0 (State.hdrFail x0 x1 x2) := by
  unfold State.hdrFail
  extract_lets t1 t2 t3 t4
  have ht1 : Chg 0x1020000480908 x0 t1 := by
    unfold t1
    refine Chg.step (State.unpost_chg _ _) rfl ?_
    exact Chg.refl _ _
  clear_value t1
  have ht2 : Chg 0x1020000480908 x0 t2 := by
    unfold t2
    refine Chg.step (State.count_chg _ _ _) rfl ?_
    assumption
  clear_value t2
  have ht3 : Chg 0x1020000480908 x0 t3 := by
    unfold t3
    refine Chg.step (State.flag_chg _ _ _) rfl ?_
    assumption
  clear_value t3
  have ht4 : Chg 0x1020000480908 x0 t4 := by
    unfold t4
    refine Chg.step (State.fabErr_chg _ _ _ _) rfl ?_
    assumption
  clear_value t4
  refine Chg.step (State.log_chg _ _) rfl ?_
  assumption


theorem State.payFail_chg (x0 : State) (x1 : Packet) :
    Chg 0x1020000480908 x0 (State.payFail x0 x1) := by
  unfold State.payFail
  extract_lets t1 t2 t3 t4
  have ht1 : Chg 0x1020000480908 x0 t1 := by
    unfold t1
    refine Chg.step (State.unpost_chg _ _) rfl ?_
    exact Chg.refl _ _
  clear_value t1
  have ht2 : Chg 0x1020000480908 x0 t2 := by
    unfold t2
    refine Chg.step (State.count_chg _ _ _) rfl ?_
    assumption
  clear_value t2
  have ht3 : Chg 0x1020000480908 x0 t3 := by
    unfold t3
    refine Chg.step (State.flag_chg _ _ _) rfl ?_
    assumption
  clear_value t3
  have ht4 : Chg 0x1020000480908 x0 t4 := by
    unfold t4
    refine Chg.step (State.fabErr_chg _ _ _ _) rfl ?_
    assumption
  clear_value t4
  refine Chg.step (State.log_chg _ _) rfl ?_
  assumption


theorem State.secondFail_chg (x0 : State) (x1 : Packet) (x2 : Bool) :
    Chg 0x400021000400908 x0 (State.secondFail x0 x1 x2) := by
  unfold State.secondFail
  extract_lets w1 w2 t3 t4
  clear_value w1
  clear_value w2
  have ht3 : Chg 0x400021000400908 x0 t3 := by
    unfold t3
    refine Chg.upd_rel rfl ?_
    exact Chg.refl _ _
  clear_value t3
  have ht4 : Chg 0x400021000400908 x0 t4 := by
    unfold t4
    refine Chg.ite ?_ ?_
    · refine Chg.step (State.suspect_chg _ _ _) rfl ?_
      assumption
    · assumption
  clear_value t4
  refine Chg.ite ?_ ?_
  · refine Chg.step (State.suspect_chg _ _ _) rfl ?_
    assumption
  · assumption


theorem State.fabReplay_chg (x0 : State) (x1 : Nat) (x2 : Packet) :
    Chg 0x112000069b908 x0 (State.fabReplay x0 x1 x2) := by
  unfold State.fabReplay
  refine Chg.step (State.replayVec_chg _ _ _ _ _) rfl ?_
  refine Chg.step (State.count_chg _ _ _) rfl ?_
  exact Chg.refl _ _


theorem State.partOk_chg (x0 : State) (x1 : Packet) :
    Chg 0x80000 x0 (State.partOk x0 x1) := by
  unfold State.partOk
  extract_lets w1
  clear_value w1
  refine Chg.upd_fab rfl ?_
  exact Chg.refl _ _


theorem State.partFail_chg (x0 : State) (x1 : Packet) :
    Chg 0x40112100069b908 x0 (State.partFail x0 x1) := by
  unfold State.partFail
  extract_lets t1 w2 t3 w4 t5
  have ht1 : Chg 0x40112100069b908 x0 t1 := by
    unfold t1
    refine Chg.step (State.receipt_chg _ _ _) rfl ?_
    refine Chg.step (State.payFail_chg _ _) rfl ?_
    exact Chg.refl _ _
  clear_value t1
  clear_value w2
  have ht3 : Chg 0x40112100069b908 x0 t3 := by
    unfold t3
    refine Chg.step (State.partOk_chg _ _) rfl ?_
    assumption
  clear_value t3
  clear_value w4
  have ht5 : Chg 0x40112100069b908 x0 t5 := by
    unfold t5
    refine Chg.ite ?_ ?_
    · refine Chg.step (State.secondFail_chg _ _ _) rfl ?_
      assumption
    · refine Chg.upd_fab rfl ?_
      assumption
  clear_value t5
  refine Chg.step (State.fabReplay_chg _ _ _) rfl ?_
  assumption


theorem State.rewriteCopies_chg (x0 : State) (x1 : Nat) (x2 : Nat) :
    Chg 0x100000 x0 (State.rewriteCopies x0 x1 x2) := by
  unfold State.rewriteCopies
  refine Chg.foldl ?_ ?_
  · intro u1 u2 u3
    split
    · assumption
    · extract_lets w4
      clear_value w4
      refine Chg.foldl ?_ ?_
      · intro u5 u6 u7
        refine Chg.foldl ?_ ?_
        · intro u8 u9 u10
          extract_lets t11 w12
          have ht11 : Chg 0x100000 x0 t11 := by
            unfold t11
            split
            · refine Chg.ite ?_ ?_
              · refine Chg.step (State.pagedWrite_chg _ _ _) rfl ?_
                assumption
              · assumption
            · assumption
          clear_value t11
          clear_value w12
          refine Chg.foldl ?_ ?_
          · intro u13 u14 u15
            split
            · refine Chg.ite ?_ ?_
              · refine Chg.step (State.pagedWrite_chg _ _ _) rfl ?_
                assumption
              · assumption
            · assumption
          · assumption
        · assumption
      · assumption
  · exact Chg.refl _ _


theorem State.regionUe_chg (x0 : State) (x1 : Nat) :
    Chg 0x438521089fbb908 x0 (State.regionUe x0 x1) := by
  unfold State.regionUe
  extract_lets w1
  clear_value w1
  refine Chg.ite ?_ ?_
  · refine Chg.foldl ?_ ?_
    · intro u2 u3 u4
      refine Chg.step (State.digestMismatch_chg _ _ _) rfl ?_
      assumption
    · exact Chg.refl _ _
  · refine Chg.ite ?_ ?_
    · refine Chg.step (State.recordLost_chg _ _) rfl ?_
      exact Chg.refl _ _
    · refine Chg.ite ?_ ?_
      · exact Chg.refl _ _
      · split
        · exact Chg.refl _ _
        · extract_lets w5
          clear_value w5
          refine Chg.ite ?_ ?_
          · refine Chg.foldl ?_ ?_
            · intro u6 u7 u8
              extract_lets w9
              clear_value w9
              refine Chg.ite ?_ ?_
              · assumption
              · refine Chg.step (State.replayAffected_chg _ _) rfl ?_
                refine Chg.foldl ?_ ?_
                · intro u10 u11 u12
                  refine Chg.step (State.reloadBuffer_chg _ _ _) rfl ?_
                  assumption
                · assumption
            · refine Chg.step (State.rewriteCopies_chg _ _ _) rfl ?_
              exact Chg.refl _ _
          · refine Chg.ite ?_ ?_
            · refine Chg.foldl ?_ ?_
              · intro u13 u14 u15
                refine Chg.ite ?_ ?_
                · refine Chg.step (State.replayAffected_chg _ _) rfl ?_
                  assumption
                · assumption
              · exact Chg.refl _ _
            · exact Chg.refl _ _


theorem State.epochDiscard_chg (x0 : State) (x1 : Packet) (x2 : Bool) :
    Chg 0x1021000480f08 x0 (State.epochDiscard x0 x1 x2) := by
  unfold State.epochDiscard
  extract_lets t1 t2 t3 t4 w5 t6
  have ht1 : Chg 0x1021000480f08 x0 t1 := by
    unfold t1
    refine Chg.step (State.unpost_chg _ _) rfl ?_
    exact Chg.refl _ _
  clear_value t1
  have ht2 : Chg 0x1021000480f08 x0 t2 := by
    unfold t2
    refine Chg.step (State.count_chg _ _ _) rfl ?_
    assumption
  clear_value t2
  have ht3 : Chg 0x1021000480f08 x0 t3 := by
    unfold t3
    refine Chg.step (State.logRate_chg _ _ _ _) rfl ?_
    assumption
  clear_value t3
  have ht4 : Chg 0x1021000480f08 x0 t4 := by
    unfold t4
    refine Chg.step (State.fabErr_chg _ _ _ _) rfl ?_
    refine Chg.step (State.flag_chg _ _ _) rfl ?_
    assumption
  clear_value t4
  clear_value w5
  have ht6 : Chg 0x1021000480f08 x0 t6 := by
    unfold t6
    refine Chg.ite ?_ ?_
    · refine Chg.upd_rel rfl ?_
      assumption
    · assumption
  clear_value t6
  refine Chg.step (State.receipt_chg _ _ _) rfl ?_
  assumption


theorem State.askFrame_chg (x0 : State) (x1 : Nat) (x2 : FrameWhy) :
    Chg 0x2000000000 x0 (State.askFrame x0 x1 x2) := by
  unfold State.askFrame
  extract_lets w1 w2
  clear_value w1
  clear_value w2
  refine Chg.ite ?_ ?_
  · exact Chg.refl _ _
  · refine Chg.upd_keep rfl ?_
    exact Chg.refl _ _


theorem State.advancePlanned_chg (x0 : State) (x1 : Model) (x2 : StageRec) (x3 : List Nat) :
    Chg 0x22000480908 x0 (State.advancePlanned x0 x1 x2 x3).1 := by
  unfold State.advancePlanned
  extract_lets w1 w2 w3 w4 w5 w6
  clear_value w1
  clear_value w2
  clear_value w3
  clear_value w4
  clear_value w5
  clear_value w6
  refine Chg.fst_ite ?_ ?_
  · refine Chg.fst_mk ?_
    refine Chg.step (State.askFrame_chg _ _ _) rfl ?_
    refine Chg.step (State.log_chg _ _) rfl ?_
    exact Chg.refl _ _
  · refine Chg.fst_mk ?_
    refine Chg.step (State.setEntryEpoch_chg _ _ _) rfl ?_
    refine Chg.step (State.setEpoch_chg _ _ _) rfl ?_
    exact Chg.refl _ _


theorem State.sendCloses_chg (x0 : State) (x1 : Model) (x2 : StageRec) (x3 : List Nat) :
    Chg 0x80000 x0 (State.sendCloses x0 x1 x2 x3) := by
  unfold State.sendCloses
  extract_lets w1 w2 w3
  clear_value w1
  clear_value w2
  clear_value w3
  refine Chg.foldl ?_ ?_
  · intro u4 u5 u6
    extract_lets w7
    clear_value w7
    refine Chg.ite ?_ ?_
    · refine Chg.step (State.postHeld_chg _ _) rfl ?_
      assumption
    · refine Chg.ite ?_ ?_
      · assumption
      · refine Chg.ite ?_ ?_
        · refine Chg.step (State.toPeer_chg _ _) rfl ?_
          assumption
        · split
          · assumption
          · refine Chg.step (State.postHeld_chg _ _) rfl ?_
            assumption
  · exact Chg.refl _ _


theorem State.advanceFailover_chg (x0 : State) (x1 : Model) (x2 : StageRec) :
    Chg 0x22081698908 x0 (State.advanceFailover x0 x1 x2) := by
  unfold State.advanceFailover
  extract_lets w1 w2 w3 w4 t5 t6 w7
  clear_value w1
  clear_value w2
  clear_value w3
  clear_value w4
  have ht5 : Chg 0x22081698908 x0 t5 := by
    unfold t5
    refine Chg.step (State.newEpoch_chg _ _ _) rfl ?_
    exact Chg.refl _ _
  clear_value t5
  have ht6 : Chg 0x22081698908 x0 t6 := by
    unfold t6
    refine Chg.step (State.askFrame_chg _ _ _) rfl ?_
    refine Chg.step (State.log_chg _ _) rfl ?_
    assumption
  clear_value t6
  clear_value w7
  refine Chg.ite ?_ ?_
  · assumption
  · refine Chg.foldl ?_ ?_
    · intro u8 u9 u10
      refine Chg.step (State.withholdItem_chg _ _) rfl ?_
      assumption
    · assumption


theorem execEpochClose_chg (x0 : Sys2Proof.Arrival) (x1 : State) :
    ChgR 0x1020000480908 x1 (execEpochClose x0 x1) := by
  unfold execEpochClose
  split
  · refine ChgR.next ?_
    exact Chg.refl _ _
  · refine ChgR.ite ?_ ?_
    · refine ChgR.next ?_
      exact Chg.refl _ _
    · split
      · refine ChgR.next ?_
        refine Chg.step (State.hdrFail_chg _ _ _) rfl ?_
        exact Chg.refl _ _
      · extract_lets w1 t2 t3 t4
        clear_value w1
        have ht2 : Chg 0x1020000480908 x1 t2 := by
          unfold t2
          refine Chg.step (State.unpost_chg _ _) rfl ?_
          exact Chg.refl _ _
        clear_value t2
        have ht3 : Chg 0x1020000480908 x1 t3 := by
          unfold t3
          refine Chg.step (State.setEpoch_chg _ _ _) rfl ?_
          assumption
        clear_value t3
        have ht4 : Chg 0x1020000480908 x1 t4 := by
          unfold t4
          refine Chg.step (State.setEntryEpoch_chg _ _ _) rfl ?_
          assumption
        clear_value t4
        refine ChgR.next ?_
        refine Chg.step (State.receipt_chg _ _ _) rfl ?_
        assumption


theorem State.landPacket_chg (x0 : State) (x1 : Packet) :
    Chg 0x402a8000 x0 (State.landPacket x0 x1) := by
  unfold State.landPacket
  extract_lets w1 t2
  clear_value w1
  have ht2 : Chg 0x402a8000 x0 t2 := by
    unfold t2
    refine Chg.step (State.setLane_chg _ _ _) rfl ?_
    exact Chg.refl _ _
  clear_value t2
  split
  · exact Chg.refl _ _
  · extract_lets w3
    clear_value w3
    refine Chg.ite ?_ ?_
    · split
      · refine Chg.ite ?_ ?_
        · refine Chg.ite ?_ ?_
          · refine Chg.step (State.enterPacket_chg _ _ _ _) rfl ?_
            exact Chg.refl _ _
          · exact Chg.refl _ _
        · refine Chg.ite ?_ ?_
          · assumption
          · exact Chg.refl _ _
      · assumption
    · split
      · refine Chg.ite ?_ ?_
        · refine Chg.step (State.enterVec_chg _ _ _ _) rfl ?_
          exact Chg.refl _ _
        · exact Chg.refl _ _
      · exact Chg.refl _ _


theorem execVectorPacket_chg (x0 : Nat) (x1 : Sys2Proof.Damage) (x2 : State) :
    ChgR 0x10210406a8f08 x2 (execVectorPacket x0 x1 x2) := by
  unfold execVectorPacket
  split
  · refine ChgR.next ?_
    exact Chg.refl _ _
  · refine ChgR.ite ?_ ?_
    · refine ChgR.next ?_
      exact Chg.refl _ _
    · split
      · refine ChgR.next ?_
        refine Chg.step (State.hdrFail_chg _ _ _) rfl ?_
        exact Chg.refl _ _
      · refine ChgR.next ?_
        refine Chg.step (State.receipt_chg _ _ _) rfl ?_
        refine Chg.step (State.payFail_chg _ _) rfl ?_
        exact Chg.refl _ _
      · extract_lets w1
        clear_value w1
        refine ChgR.ite ?_ ?_
        · refine ChgR.next ?_
          refine Chg.step (State.epochDiscard_chg _ _ _) rfl ?_
          exact Chg.refl _ _
        · refine ChgR.next ?_
          refine Chg.step (State.receipt_chg _ _ _) rfl ?_
          refine Chg.step (State.landPacket_chg _ _) rfl ?_
          refine Chg.step (State.unpost_chg _ _) rfl ?_
          exact Chg.refl _ _


theorem execKpartPacket_chg (x0 : Nat) (x1 : Sys2Proof.Damage) (x2 : State) :
    ChgR 0x4011210006bb908 x2 (execKpartPacket x0 x1 x2) := by
  unfold execKpartPacket
  split
  · refine ChgR.next ?_
    exact Chg.refl _ _
  · refine ChgR.ite ?_ ?_
    · refine ChgR.next ?_
      exact Chg.refl _ _
    · split
      · refine ChgR.next ?_
        refine Chg.step (State.hdrFail_chg _ _ _) rfl ?_
        exact Chg.refl _ _
      · refine ChgR.next ?_
        refine Chg.step (State.partFail_chg _ _) rfl ?_
        exact Chg.refl _ _
      · extract_lets t1 w2 w3 t4
        have ht1 : Chg 0x4011210006bb908 x2 t1 := by
          unfold t1
          refine Chg.step (State.unpost_chg _ _) rfl ?_
          exact Chg.refl _ _
        clear_value t1
        clear_value w2
        clear_value w3
        have ht4 : Chg 0x4011210006bb908 x2 t4 := by
          unfold t4
          split
          · assumption
          · refine Chg.ite ?_ ?_
            · assumption
            · refine Chg.step (State.landVec_chg _ _ _ _ _) rfl ?_
              assumption
        clear_value t4
        refine ChgR.next ?_
        refine Chg.step (State.receipt_chg _ _ _) rfl ?_
        refine Chg.step (State.partOk_chg _ _) rfl ?_
        assumption


theorem execExitPart_chg (x0 : Nat) (x1 : Sys2Proof.Damage) (x2 : State) :
    ChgR 0x4011210006bbf08 x2 (execExitPart x0 x1 x2) := by
  unfold execExitPart
  split
  · refine ChgR.next ?_
    exact Chg.refl _ _
  · refine ChgR.ite ?_ ?_
    · refine ChgR.next ?_
      exact Chg.refl _ _
    · split
      · refine ChgR.next ?_
        refine Chg.step (State.hdrFail_chg _ _ _) rfl ?_
        exact Chg.refl _ _
      · refine ChgR.next ?_
        refine Chg.step (State.partFail_chg _ _) rfl ?_
        exact Chg.refl _ _
      · extract_lets w1 t2 w3 w4 w5 t6
        clear_value w1
        have ht2 : Chg 0x4011210006bbf08 x2 t2 := by
          unfold t2
          refine Chg.step (State.unpost_chg _ _) rfl ?_
          exact Chg.refl _ _
        clear_value t2
        clear_value w3
        clear_value w4
        have ht6 : Chg 0x4011210006bbf08 x2 t6 := by
          unfold t6
          refine Chg.step (State.setCore_chg _ _ _) rfl ?_
          assumption
        clear_value t6
        refine ChgR.ite ?_ ?_
        · refine ChgR.next ?_
          refine Chg.step (State.epochDiscard_chg _ _ _) rfl ?_
          exact Chg.refl _ _
        · refine ChgR.next ?_
          refine Chg.step (State.receipt_chg _ _ _) rfl ?_
          refine Chg.step (State.partOk_chg _ _) rfl ?_
          refine Chg.step (State.combineSums_chg _ _ _ _ _) rfl ?_
          assumption


theorem execGroupTransfer_chg (x0 : Nat) (x1 : Sys2Proof.Damage) (x2 : State) :
    ChgR 0x40112100069bf08 x2 (execGroupTransfer x0 x1 x2) := by
  unfold execGroupTransfer
  split
  · refine ChgR.next ?_
    exact Chg.refl _ _
  · refine ChgR.ite ?_ ?_
    · refine ChgR.next ?_
      exact Chg.refl _ _
    · split
      · refine ChgR.next ?_
        refine Chg.step (State.hdrFail_chg _ _ _) rfl ?_
        exact Chg.refl _ _
      · refine ChgR.next ?_
        refine Chg.step (State.partFail_chg _ _) rfl ?_
        exact Chg.refl _ _
      · extract_lets w1 w2 t3 t4 w5 w6 t7
        clear_value w1
        clear_value w2
        have ht3 : Chg 0x40112100069bf08 x2 t3 := by
          unfold t3
          refine Chg.step (State.unpost_chg _ _) rfl ?_
          exact Chg.refl _ _
        clear_value t3
        have ht4 : Chg 0x40112100069bf08 x2 t4 := by
          unfold t4
          refine Chg.foldl ?_ ?_
          · intro u8 u9 u10
            refine Chg.step (State.l2Add_chg _ _ _ _ _) rfl ?_
            assumption
          · assumption
        clear_value t4
        clear_value w5
        clear_value w6
        have ht7 : Chg 0x40112100069bf08 x2 t7 := by
          unfold t7
          refine Chg.step (State.setTile_chg _ _ _ _) rfl ?_
          assumption
        clear_value t7
        refine ChgR.ite ?_ ?_
        · refine ChgR.next ?_
          refine Chg.step (State.epochDiscard_chg _ _ _) rfl ?_
          exact Chg.refl _ _
        · refine ChgR.ite ?_ ?_
          · refine ChgR.next ?_
            exact Chg.refl _ _
          · refine ChgR.next ?_
            refine Chg.step (State.receipt_chg _ _ _) rfl ?_
            refine Chg.step (State.partOk_chg _ _) rfl ?_
            assumption


theorem State.useCredit_chg (x0 : State) (x1 : Nat) :
    Chg 0x80000 x0 (State.useCredit x0 x1) := by
  unfold State.useCredit
  extract_lets w1 w2 w3
  clear_value w1
  clear_value w2
  clear_value w3
  refine Chg.upd_fab rfl ?_
  exact Chg.refl _ _


theorem execMemoryRead_chg (x0 : Sys2Proof.Arrival) (x1 : Sys2Proof.EccErr) (x2 : State) :
    ChgR 0x3020000480f08 x2 (execMemoryRead x0 x1 x2) := by
  unfold execMemoryRead
  split
  · refine ChgR.next ?_
    exact Chg.refl _ _
  · refine ChgR.ite ?_ ?_
    · refine ChgR.next ?_
      exact Chg.refl _ _
    · split
      · refine ChgR.next ?_
        refine Chg.step (State.hdrFail_chg _ _ _) rfl ?_
        exact Chg.refl _ _
      · extract_lets t1 w2
        have ht1 : Chg 0x3020000480f08 x2 t1 := by
          unfold t1
          refine Chg.step (State.useCredit_chg _ _) rfl ?_
          refine Chg.step (State.unpost_chg _ _) rfl ?_
          exact Chg.refl _ _
        clear_value t1
        clear_value w2
        refine ChgR.ite ?_ ?_
        · exact ChgR.fault
        · refine ChgR.ite ?_ ?_
          · refine ChgR.next ?_
            exact Chg.refl _ _
          · split
            · refine ChgR.next ?_
              refine Chg.step (State.post_chg _ _) rfl ?_
              refine Chg.step (State.memUe_chg _ _) rfl ?_
              assumption
            · refine ChgR.next ?_
              refine Chg.step (State.post_chg _ _) rfl ?_
              refine Chg.step (State.memCe_chg _ _) rfl ?_
              assumption
            · refine ChgR.next ?_
              refine Chg.step (State.post_chg _ _) rfl ?_
              assumption


theorem State.memWpar_chg (x0 : State) (x1 : Nat) :
    Chg 0x2020000400908 x0 (State.memWpar x0 x1) := by
  unfold State.memWpar
  extract_lets t1 t2 t3 t4 t5 t6 t7
  have ht1 : Chg 0x2020000400908 x0 t1 := by
    unfold t1
    refine Chg.step (State.count_chg _ _ _) rfl ?_
    exact Chg.refl _ _
  clear_value t1
  have ht2 : Chg 0x2020000400908 x0 t2 := by
    unfold t2
    refine Chg.step (State.flag_chg _ _ _) rfl ?_
    assumption
  clear_value t2
  have ht3 : Chg 0x2020000400908 x0 t3 := by
    unfold t3
    refine Chg.step (State.fset_chg _ _ _ _) rfl ?_
    assumption
  clear_value t3
  have ht4 : Chg 0x2020000400908 x0 t4 := by
    unfold t4
    refine Chg.step (State.fset_chg _ _ _ _) rfl ?_
    assumption
  clear_value t4
  have ht5 : Chg 0x2020000400908 x0 t5 := by
    unfold t5
    refine Chg.step (State.fset_chg _ _ _ _) rfl ?_
    assumption
  clear_value t5
  have ht6 : Chg 0x2020000400908 x0 t6 := by
    unfold t6
    refine Chg.step (State.fset_chg _ _ _ _) rfl ?_
    assumption
  clear_value t6
  have ht7 : Chg 0x2020000400908 x0 t7 := by
    unfold t7
    refine Chg.step (State.fset_chg _ _ _ _) rfl ?_
    assumption
  clear_value t7
  refine Chg.step (State.log_chg _ _) rfl ?_
  assumption


theorem execMemoryWrite_chg (x0 : Nat) (x1 : Sys2Proof.Damage) (x2 : State) :
    ChgR 0x3020000580908 x2 (execMemoryWrite x0 x1 x2) := by
  unfold execMemoryWrite
  split
  · refine ChgR.next ?_
    exact Chg.refl _ _
  · refine ChgR.ite ?_ ?_
    · refine ChgR.next ?_
      exact Chg.refl _ _
    · split
      · refine ChgR.next ?_
        refine Chg.step (State.hdrFail_chg _ _ _) rfl ?_
        exact Chg.refl _ _
      · refine ChgR.next ?_
        refine Chg.step (State.receipt_chg _ _ _) rfl ?_
        refine Chg.step (State.memWpar_chg _ _) rfl ?_
        refine Chg.step (State.payFail_chg _ _) rfl ?_
        exact Chg.refl _ _
      · refine ChgR.ite ?_ ?_
        · exact ChgR.fault
        · refine ChgR.ite ?_ ?_
          · refine ChgR.next ?_
            exact Chg.refl _ _
          · refine ChgR.next ?_
            refine Chg.step (State.receipt_chg _ _ _) rfl ?_
            refine Chg.step (State.dramWrite_chg _ _ _) rfl ?_
            refine Chg.step (State.useCredit_chg _ _) rfl ?_
            refine Chg.step (State.unpost_chg _ _) rfl ?_
            exact Chg.refl _ _


theorem State.unhold_chg (x0 : State) (x1 : Nat) :
    Chg 0x80000 x0 (State.unhold x0 x1) := by
  unfold State.unhold
  extract_lets w1
  clear_value w1
  refine Chg.upd_fab rfl ?_
  exact Chg.refl _ _


theorem State.resend_chg (x0 : State) (x1 : Packet) :
    Chg 0x1000000080008 x0 (State.resend x0 x1) := by
  unfold State.resend
  extract_lets w1 w2 w3 t4 w5
  clear_value w1
  clear_value w2
  clear_value w3
  have ht4 : Chg 0x1000000080008 x0 t4 := by
    unfold t4
    refine Chg.step (State.count_chg _ _ _) rfl ?_
    exact Chg.refl _ _
  clear_value t4
  clear_value w5
  refine Chg.ite ?_ ?_
  · refine Chg.upd_fab rfl ?_
    exact Chg.refl _ _
  · refine Chg.upd_fab rfl ?_
    assumption


theorem State.readFailed_chg (x0 : State) (x1 : Packet) :
    Chg 0x8120000e9b908 x0 (State.readFailed x0 x1) := by
  unfold State.readFailed
  extract_lets t1 w2 t3
  have ht1 : Chg 0x8120000e9b908 x0 t1 := by
    unfold t1
    refine Chg.step (State.unhold_chg _ _) rfl ?_
    exact Chg.refl _ _
  clear_value t1
  clear_value w2
  have ht3 : Chg 0x8120000e9b908 x0 t3 := by
    unfold t3
    refine Chg.step (State.setCore_chg _ _ _) rfl ?_
    assumption
  clear_value t3
  refine Chg.step (State.finishPosted_chg _ _) rfl ?_
  refine Chg.step (State.replayAffected_chg _ _) rfl ?_
  assumption


theorem execReadData_chg (x0 : Nat) (x1 : Sys2Proof.Damage) (x2 : State) :
    ChgR 0x409121000ebb908 x2 (execReadData x0 x1 x2) := by
  unfold execReadData
  split
  · refine ChgR.next ?_
    exact Chg.refl _ _
  · refine ChgR.ite ?_ ?_
    · refine ChgR.next ?_
      exact Chg.refl _ _
    · split
      · refine ChgR.next ?_
        refine Chg.step (State.hdrFail_chg _ _ _) rfl ?_
        exact Chg.refl _ _
      · extract_lets t1
        have ht1 : Chg 0x409121000ebb908 x2 t1 := by
          unfold t1
          refine Chg.step (State.payFail_chg _ _) rfl ?_
          exact Chg.refl _ _
        clear_value t1
        refine ChgR.next ?_
        split
        · assumption
        · refine Chg.ite ?_ ?_
          · refine Chg.step (State.readFailed_chg _ _) rfl ?_
            refine Chg.step (State.secondFail_chg _ _ _) rfl ?_
            assumption
          · refine Chg.step (State.resend_chg _ _) rfl ?_
            assumption
      · extract_lets t2
        have ht2 : Chg 0x409121000ebb908 x2 t2 := by
          unfold t2
          refine Chg.step (State.unpost_chg _ _) rfl ?_
          exact Chg.refl _ _
        clear_value t2
        split
        · refine ChgR.next ?_
          assumption
        · extract_lets t3
          have ht3 : Chg 0x409121000ebb908 x2 t3 := by
            unfold t3
            refine Chg.step (State.unhold_chg _ _) rfl ?_
            assumption
          clear_value t3
          refine ChgR.ite ?_ ?_
          · refine ChgR.next ?_
            refine Chg.step (State.readFailed_chg _ _) rfl ?_
            assumption
          · split
            · refine ChgR.next ?_
              assumption
            · refine ChgR.next ?_
              refine Chg.step (State.sramWrite_chg _ _ _ _) rfl ?_
              assumption


theorem State.lost_chg (x0 : State) (x1 : Packet) :
    Chg 0x439521089fbb908 x0 (State.lost x0 x1) := by
  unfold State.lost
  extract_lets t1 w2 t3
  have ht1 : Chg 0x439521089fbb908 x0 t1 := by
    unfold t1
    refine Chg.step (State.unhold_chg _ _) rfl ?_
    exact Chg.refl _ _
  clear_value t1
  clear_value w2
  have ht3 : Chg 0x439521089fbb908 x0 t3 := by
    unfold t3
    refine Chg.upd_fab rfl ?_
    assumption
  clear_value t3
  split
  · refine Chg.step (State.fabReplay_chg _ _ _) rfl ?_
    assumption
  · refine Chg.step (State.fabReplay_chg _ _ _) rfl ?_
    assumption
  · refine Chg.step (State.fabReplay_chg _ _ _) rfl ?_
    assumption
  · refine Chg.step (State.fabReplay_chg _ _ _) rfl ?_
    assumption
  · refine Chg.step (State.regionUe_chg _ _) rfl ?_
    assumption
  · refine Chg.step (State.readFailed_chg _ _) rfl ?_
    assumption
  · assumption


theorem State.acknowledged_chg (x0 : State) (x1 : Packet) :
    Chg 0x8000000808808 x0 (State.acknowledged x0 x1) := by
  unfold State.acknowledged
  refine Chg.ite ?_ ?_
  · refine Chg.step (State.releaseVec_chg _ _ _ _ _) rfl ?_
    exact Chg.refl _ _
  · refine Chg.step (State.releaseItemVecs_chg _ _ _ _) rfl ?_
    exact Chg.refl _ _


theorem execReceipt_chg (x0 : Sys2Proof.Arrival) (x1 : State) :
    ChgR 0x439521089fbb908 x1 (execReceipt x0 x1) := by
  unfold execReceipt
  split
  · refine ChgR.next ?_
    exact Chg.refl _ _
  · refine ChgR.ite ?_ ?_
    · refine ChgR.next ?_
      exact Chg.refl _ _
    · split
      · refine ChgR.next ?_
        refine Chg.step (State.hdrFail_chg _ _ _) rfl ?_
        exact Chg.refl _ _
      · extract_lets t1
        have ht1 : Chg 0x439521089fbb908 x1 t1 := by
          unfold t1
          refine Chg.step (State.unpost_chg _ _) rfl ?_
          exact Chg.refl _ _
        clear_value t1
        refine ChgR.ite ?_ ?_
        · refine ChgR.next ?_
          refine Chg.step (State.acknowledged_chg _ _) rfl ?_
          assumption
        · split
          · refine ChgR.next ?_
            assumption
          · extract_lets t2
            have ht2 : Chg 0x439521089fbb908 x1 t2 := by
              unfold t2
              refine Chg.step (State.unhold_chg _ _) rfl ?_
              assumption
            clear_value t2
            refine ChgR.ite ?_ ?_
            · refine ChgR.next ?_
              refine Chg.step (State.finishPosted_chg _ _) rfl ?_
              refine Chg.ite ?_ ?_
              · refine Chg.step (State.acknowledged_chg _ _) rfl ?_
                assumption
              · assumption
            · refine ChgR.ite ?_ ?_
              · refine ChgR.next ?_
                refine Chg.step (State.finishPosted_chg _ _) rfl ?_
                refine Chg.step (State.unhold_chg _ _) rfl ?_
                assumption
              · refine ChgR.ite ?_ ?_
                · refine ChgR.next ?_
                  refine Chg.step (State.finishPosted_chg _ _) rfl ?_
                  refine Chg.step (State.lost_chg _ _) rfl ?_
                  refine Chg.step (State.secondFail_chg _ _ _) rfl ?_
                  assumption
                · refine ChgR.next ?_
                  refine Chg.step (State.resend_chg _ _) rfl ?_
                  assumption


theorem execReceiptTimeout_chg (x0 : Nat) (x1 : State) :
    ChgR 0x439521089fbb908 x1 (execReceiptTimeout x0 x1) := by
  unfold execReceiptTimeout
  split
  · refine ChgR.next ?_
    exact Chg.refl _ _
  · extract_lets t1 t2 t3 t4
    have ht1 : Chg 0x439521089fbb908 x1 t1 := by
      unfold t1
      refine Chg.step (State.count_chg _ _ _) rfl ?_
      exact Chg.refl _ _
    clear_value t1
    have ht2 : Chg 0x439521089fbb908 x1 t2 := by
      unfold t2
      refine Chg.step (State.flag_chg _ _ _) rfl ?_
      assumption
    clear_value t2
    have ht3 : Chg 0x439521089fbb908 x1 t3 := by
      unfold t3
      refine Chg.step (State.fabErr_chg _ _ _ _) rfl ?_
      assumption
    clear_value t3
    have ht4 : Chg 0x439521089fbb908 x1 t4 := by
      unfold t4
      refine Chg.step (State.log_chg _ _) rfl ?_
      assumption
    clear_value t4
    refine ChgR.ite ?_ ?_
    · refine ChgR.next ?_
      exact Chg.refl _ _
    · refine ChgR.ite ?_ ?_
      · refine ChgR.next ?_
        refine Chg.step (State.finishPosted_chg _ _) rfl ?_
        refine Chg.step (State.lost_chg _ _) rfl ?_
        refine Chg.step (State.secondFail_chg _ _ _) rfl ?_
        assumption
      · refine ChgR.next ?_
        refine Chg.step (State.resend_chg _ _) rfl ?_
        assumption


theorem execPatrolScrub_chg (x0 : Nat) (x1 : Nat) (x2 : Sys2Proof.EccErr) (x3 : State) :
    ChgR 0x43a521089fbbf08 x3 (execPatrolScrub x0 x1 x2 x3) := by
  unfold execPatrolScrub
  extract_lets w1 t2 w3 t4 t5
  clear_value w1
  have ht2 : Chg 0x43a521089fbbf08 x3 t2 := by
    unfold t2
    split
    · exact Chg.refl _ _
    · refine Chg.step (State.memCe_chg _ _) rfl ?_
      exact Chg.refl _ _
    · refine Chg.step (State.regionUe_chg _ _) rfl ?_
      refine Chg.step (State.memUe_chg _ _) rfl ?_
      exact Chg.refl _ _
  clear_value t2
  clear_value w3
  have ht4 : Chg 0x43a521089fbbf08 x3 t4 := by
    unfold t4
    refine Chg.upd_fab rfl ?_
    assumption
  clear_value t4
  have ht5 : Chg 0x43a521089fbbf08 x3 t5 := by
    unfold t5
    refine Chg.upd_fab rfl ?_
    assumption
  clear_value t5
  refine ChgR.ite ?_ ?_
  · refine ChgR.next ?_
    exact Chg.refl _ _
  · refine ChgR.ite ?_ ?_
    · refine ChgR.next ?_
      refine Chg.step (State.fset_chg _ _ _ _) rfl ?_
      refine Chg.step (State.count_chg _ _ _) rfl ?_
      assumption
    · refine ChgR.next ?_
      refine Chg.step (State.flag_chg _ _ _) rfl ?_
      assumption


theorem execDramRound_chg (x0 : State) :
    ChgR 0x80004 x0 (execDramRound x0) := by
  unfold execDramRound
  extract_lets w1 t2 w3 w4 t5
  clear_value w1
  have ht2 : Chg 0x80004 x0 t2 := by
    unfold t2
    refine Chg.step (State.draw_chg _ _) rfl ?_
    exact Chg.refl _ _
  clear_value t2
  clear_value w3
  clear_value w4
  have ht5 : Chg 0x80004 x0 t5 := by
    unfold t5
    refine Chg.upd_fab rfl ?_
    assumption
  clear_value t5
  refine ChgR.next ?_
  assumption


theorem execFabCommit_chg (x0 : State) :
    ChgR 0x1020000400908 x0 (execFabCommit x0) := by
  unfold execFabCommit
  extract_lets w1
  clear_value w1
  refine ChgR.ite ?_ ?_
  · refine ChgR.next ?_
    refine Chg.step (State.log_chg _ _) rfl ?_
    refine Chg.step (State.flag_chg _ _ _) rfl ?_
    exact Chg.refl _ _
  · refine ChgR.next ?_
    refine Chg.step (State.applyStaged_chg _ _ _) rfl ?_
    exact Chg.refl _ _


theorem State.settleOn_chg (x0 : State) (x1 : Settle) :
    Chg 0x800002000000008 x0 (State.settleOn x0 x1) := by
  unfold State.settleOn
  extract_lets w1 t2
  clear_value w1
  have ht2 : Chg 0x800002000000008 x0 t2 := by
    unfold t2
    refine Chg.ite ?_ ?_
    · exact Chg.refl _ _
    · refine Chg.upd_keep rfl ?_
      exact Chg.refl _ _
  clear_value t2
  refine Chg.ite ?_ ?_
  · refine Chg.step (State.fset_chg _ _ _ _) rfl ?_
    assumption
  · assumption


theorem State.settleOff_chg (x0 : State) (x1 : Settle) :
    Chg 0x800002000000008 x0 (State.settleOff x0 x1) := by
  unfold State.settleOff
  extract_lets w1 t2
  clear_value w1
  have ht2 : Chg 0x800002000000008 x0 t2 := by
    unfold t2
    refine Chg.upd_keep rfl ?_
    exact Chg.refl _ _
  clear_value t2
  refine Chg.ite ?_ ?_
  · refine Chg.step (State.fset_chg _ _ _ _) rfl ?_
    assumption
  · assumption


theorem State.mbWrite_chg (x0 : State) (x1 : List Nat) :
    Chg 0x800000000000008 x0 (State.mbWrite x0 x1) := by
  unfold State.mbWrite
  refine Chg.foldl ?_ ?_
  · intro u1 u2 u3
    refine Chg.step (State.fset_chg _ _ _ _) rfl ?_
    assumption
  · exact Chg.refl _ _


theorem State.keepDone_chg (x0 : State) (x1 : KeepFrom) (x2 : Nat) (x3 : List Nat) :
    Chg 0x800000000000808 x0 (State.keepDone x0 x1 x2 x3) := by
  unfold State.keepDone
  extract_lets t1 t2 t3 t4 t5
  have ht1 : Chg 0x800000000000808 x0 t1 := by
    unfold t1
    refine Chg.ite ?_ ?_
    · exact Chg.refl _ _
    · refine Chg.step (State.count_chg _ _ _) rfl ?_
      exact Chg.refl _ _
  clear_value t1
  have ht2 : Chg 0x800000000000808 x0 t2 := by
    unfold t2
    refine Chg.step (State.mbWrite_chg _ _) rfl ?_
    assumption
  clear_value t2
  have ht3 : Chg 0x800000000000808 x0 t3 := by
    unfold t3
    refine Chg.step (State.fset_chg _ _ _ _) rfl ?_
    assumption
  clear_value t3
  have ht4 : Chg 0x800000000000808 x0 t4 := by
    unfold t4
    refine Chg.step (State.fset_chg _ _ _ _) rfl ?_
    assumption
  clear_value t4
  have ht5 : Chg 0x800000000000808 x0 t5 := by
    unfold t5
    refine Chg.step (State.fset_chg _ _ _ _) rfl ?_
    assumption
  clear_value t5
  split
  · refine Chg.step (State.fset_chg _ _ _ _) rfl ?_
    assumption
  · refine Chg.step (State.replyTo_chg _ _ _ _ _ _) rfl ?_
    assumption
  · refine Chg.step (State.emit_chg _ _) rfl ?_
    assumption


theorem State.setCtxState_chg (x0 : State) (x1 : Nat) (x2 : Nat) :
    Chg 0x800000000000008 x0 (State.setCtxState x0 x1 x2) := by
  unfold State.setCtxState
  refine Chg.step (State.fset_chg _ _ _ _) rfl ?_
  exact Chg.refl _ _


theorem State.ctxRefresh_chg (x0 : State) :
    Chg 0x800080000000008 x0 (State.ctxRefresh x0) := by
  unfold State.ctxRefresh
  extract_lets t1 t2
  have ht1 : Chg 0x800080000000008 x0 t1 := by
    unfold t1
    refine Chg.foldl ?_ ?_
    · intro u3 u4 u5
      extract_lets t6 t7
      have ht6 : Chg 0x800080000000008 x0 t6 := by
        unfold t6
        refine Chg.step (State.fset_chg _ _ _ _) rfl ?_
        assumption
      clear_value t6
      have ht7 : Chg 0x800080000000008 x0 t7 := by
        unfold t7
        refine Chg.step (State.fset_chg _ _ _ _) rfl ?_
        assumption
      clear_value t7
      refine Chg.step (State.fset_chg _ _ _ _) rfl ?_
      assumption
    · exact Chg.refl _ _
  clear_value t1
  have ht2 : Chg 0x800080000000008 x0 t2 := by
    unfold t2
    refine Chg.foldl ?_ ?_
    · intro u8 u9 u10
      refine Chg.ite ?_ ?_
      · refine Chg.step (State.fset_chg _ _ _ _) rfl ?_
        refine Chg.step (State.fset_chg _ _ _ _) rfl ?_
        assumption
      · assumption
    · assumption
  clear_value t2
  refine Chg.step (State.fset_chg _ _ _ _) rfl ?_
  assumption


end Sys2Proof.Machine
end

