-- ==== Sys2Proof/Laws/FrameLoad.lean ====
section
/-! SUPPORT. The frames of placement, sync counters, the loader, Canopy, reliability and the Keep: one lemma for each operation, which says
what part of the state it may change. -/

namespace Sys2Proof.Machine

theorem State.shares_chg (x0 : State) :
    Chg 0x2000000000008 x0 (State.shares x0) := by
  unfold State.shares
  extract_lets w1 w2 w3 w4 t5 t6
  clear_value w1
  clear_value w2
  clear_value w3
  clear_value w4
  have ht5 : Chg 0x2000000000008 x0 t5 := by
    unfold t5
    refine Chg.step (State.fset_chg _ _ _ _) rfl ?_
    exact Chg.refl _ _
  clear_value t5
  have ht6 : Chg 0x2000000000008 x0 t6 := by
    unfold t6
    refine Chg.step (State.fset_chg _ _ _ _) rfl ?_
    assumption
  clear_value t6
  refine Chg.step (State.fset_chg _ _ _ _) rfl ?_
  assumption


theorem State.syncTake_chg (x0 : State) (x1 : Nat) (x2 : Nat) (x3 : Nat) (x4 : Nat) :
    Chg 0x100000000000008 x0 (State.syncTake x0 x1 x2 x3 x4) := by
  unfold State.syncTake
  refine Chg.foldl ?_ ?_
  · intro u1 u2 u3
    extract_lets t4 t5 t6
    have ht4 : Chg 0x100000000000008 x0 t4 := by
      unfold t4
      refine Chg.step (State.fset_chg _ _ _ _) rfl ?_
      assumption
    clear_value t4
    have ht5 : Chg 0x100000000000008 x0 t5 := by
      unfold t5
      refine Chg.step (State.fset_chg _ _ _ _) rfl ?_
      assumption
    clear_value t5
    have ht6 : Chg 0x100000000000008 x0 t6 := by
      unfold t6
      refine Chg.step (State.fset_chg _ _ _ _) rfl ?_
      assumption
    clear_value t6
    refine Chg.step (State.fset_chg _ _ _ _) rfl ?_
    assumption
  · exact Chg.refl _ _


theorem elim_inr {α β ε : Type} {o : Option α} {e : ε} {f : α → ε ⊕ β} {r : β} (h : o.elim (.inl e) f = .inr r) :
    ∃ x, o = some x ∧ f x = .inr r := by
  cases o with
  | none => cases h
  | some x => exact ⟨x, rfl, h⟩

theorem or_some {α : Type} {o o' : Option α} {x : α} (h : o.or o' = some x) : o = some x ∨ o' = some x := by
  cases o with
  | none => exact .inr h
  | some y => exact .inl h

theorem ite_some {α : Type} {c : Prop} [Decidable c] {o : Option α} {x : α} (h : (if c then none else o) = some x) : o = some x := by
  split at h
  · cases h
  · exact h

theorem State.takePages_chg {s : State} {ctx use n : Nat} {p : List Nat} {t : State} (h : s.takePages ctx use n = some (p, t)) :
    Chg 0x80000 s t := by
  unfold State.takePages at h
  simp only at h
  split at h
  · cases h
  · cases h; exact Chg.upd_fab rfl (Chg.refl _ _)

theorem State.spillPages_chg {s : State} {ctx : Nat} {l : List (BufRec × Nat × Bool)} {y : List Nat × Bool × State}
    (h : s.spillPages ctx l = some y) : Chg 0x80000 s y.2.2 := by
  rcases or_some h with h | h
  · obtain ⟨x, h1, rfl⟩ := Option.map_eq_some_iff.mp h
    exact State.takePages_chg h1
  · obtain ⟨x, h1, rfl⟩ := Option.map_eq_some_iff.mp (ite_some h)
    exact State.takePages_chg h1

theorem State.planPages_chg {s : State} {ctx : Nat} {r : StageRec} {pos c : Nat} {l : List (BufRec × Nat × Bool)} {len off : Nat}
    {p : PosPlan} {t : State} (h : s.planPages ctx r pos c l len off = .inr (p, t)) : Chg 0x80000 s t := by
  obtain ⟨x, h1, h2⟩ := elim_inr h
  obtain ⟨y, h3, h4⟩ := elim_inr h2
  cases h4
  exact Chg.step (State.spillPages_chg h3) rfl (State.takePages_chg h1)

theorem State.planPos_chg {s : State} {ctx : Nat} {b : List Nat} {r : StageRec} {pos c off : Nat} {p : PosPlan} {t : State}
    (h : s.planPos ctx b r pos c off = .inr (p, t)) : Chg 0x80000 s t := by
  unfold State.planPos at h
  cases h1 : programAt b r.stage pos with
  | none => rw [h1] at h; cases h
  | some x =>
    rw [h1] at h
    obtain ⟨g, i⟩ := x
    simp only at h
    generalize placeBuffers _ _ _ = o at h
    cases o with
    | none => cases h
    | some l =>
      simp only at h
      generalize windowCheck _ _ _ _ _ = w at h
      cases w with
      | some e => cases h
      | none => exact State.planPages_chg h

theorem State.planAll_chg {s : State} {ctx : Nat} {b : List Nat} {l : List (StageRec × Nat × Nat)} {off : Nat} {p : List PosPlan}
    {t : State} (h : s.planAll ctx b l off = .inr (p, t)) : Chg 0x80000 s t := by
  induction l generalizing s p off with
  | nil => cases h; exact Chg.refl _ _
  | cons x r ih =>
    obtain ⟨g, pos, c⟩ := x
    simp only [State.planAll] at h
    split at h
    · cases h
    · next h1 =>
      split at h
      · cases h
      · next h2 => cases h; exact Chg.step (ih h2) rfl (State.planPos_chg h1)

theorem State.badRecord_chg (x0 : State) :
    Chg 0x200000000000008 x0 (State.badRecord x0) := by
  unfold State.badRecord
  refine Chg.step (State.count_chg _ _ _) rfl ?_
  exact Chg.refl _ _


theorem State.stray_chg (x0 : State) (x1 : CtrOp) (x2 : Nat) :
    Chg 0x200020000400f08 x0 (State.stray x0 x1 x2) := by
  unfold State.stray
  extract_lets t1
  have ht1 : Chg 0x200020000400f08 x0 t1 := by
    unfold t1
    refine Chg.step (State.flag_chg _ _ _) rfl ?_
    refine Chg.step (State.badRecord_chg _) rfl ?_
    exact Chg.refl _ _
  clear_value t1
  refine Chg.step (State.logRate_chg _ _ _ _) rfl ?_
  assumption


theorem State.setWaits_chg (x0 : State) (x1 : Nat) (x2 : List CtrWait) :
    Chg 0x300000800000008 x0 (State.setWaits x0 x1 x2) := by
  unfold State.setWaits
  extract_lets w1 t2 t3 t4 w5 t6
  clear_value w1
  have ht2 : Chg 0x300000800000008 x0 t2 := by
    unfold t2
    refine Chg.upd_sync rfl ?_
    exact Chg.refl _ _
  clear_value t2
  have ht3 : Chg 0x300000800000008 x0 t3 := by
    unfold t3
    refine Chg.step (State.fset_chg _ _ _ _) rfl ?_
    assumption
  clear_value t3
  have ht4 : Chg 0x300000800000008 x0 t4 := by
    unfold t4
    refine Chg.step (State.fset_chg _ _ _ _) rfl ?_
    assumption
  clear_value t4
  clear_value w5
  have ht6 : Chg 0x300000800000008 x0 t6 := by
    unfold t6
    refine Chg.step (State.fset_chg _ _ _ _) rfl ?_
    assumption
  clear_value t6
  refine Chg.step (State.fset_chg _ _ _ _) rfl ?_
  assumption


theorem State.ctrReply_chg (x0 : State) (x1 : CtrWait) (x2 : Nat) (x3 : Nat) :
    Chg 0x20000498908 x0 (State.ctrReply x0 x1 x2 x3) := by
  unfold State.ctrReply
  split
  · refine Chg.ite ?_ ?_
    · refine Chg.step (State.next_chg _ _ _) rfl ?_
      exact Chg.refl _ _
    · exact Chg.refl _ _
  · extract_lets w1 w2 w3
    clear_value w1
    clear_value w2
    clear_value w3
    refine Chg.ite ?_ ?_
    · refine Chg.step (State.post_chg _ _) rfl ?_
      exact Chg.refl _ _
    · refine Chg.step (State.toPeer_chg _ _) rfl ?_
      exact Chg.refl _ _


theorem State.headClaims_chg (x0 : State) (x1 : Nat) (x2 : Nat) :
    Chg 0x300020800498908 x0 (State.headClaims x0 x1 x2) := by
  induction' x2 with n ih generalizing x0
  · rw [State.headClaims]
    exact Chg.refl _ _
  · rw [State.headClaims]
    split
    · exact Chg.refl _ _
    · extract_lets w1 t2 t3
      clear_value w1
      have ht2 : Chg 0x300020800498908 x0 t2 := by
        unfold t2
        refine Chg.step (State.fset_chg _ _ _ _) rfl ?_
        exact Chg.refl _ _
      clear_value t2
      have ht3 : Chg 0x300020800498908 x0 t3 := by
        unfold t3
        refine Chg.step (State.setWaits_chg _ _ _) rfl ?_
        assumption
      clear_value t3
      refine Chg.ite ?_ ?_
      · exact Chg.refl _ _
      · refine Chg.step (ih _) rfl ?_
        refine Chg.step (State.ctrReply_chg _ _ _ _) rfl ?_
        assumption


theorem State.settleCtr_chg (x0 : State) (x1 : Nat) :
    Chg 0x300020800498908 x0 (State.settleCtr x0 x1) := by
  unfold State.settleCtr
  extract_lets w1 w2 t3 t4
  clear_value w1
  clear_value w2
  have ht3 : Chg 0x300020800498908 x0 t3 := by
    unfold t3
    refine Chg.step (State.setWaits_chg _ _ _) rfl ?_
    exact Chg.refl _ _
  clear_value t3
  have ht4 : Chg 0x300020800498908 x0 t4 := by
    unfold t4
    refine Chg.foldl ?_ ?_
    · intro u5 u6 u7
      refine Chg.step (State.ctrReply_chg _ _ _ _) rfl ?_
      assumption
    · assumption
  clear_value t4
  refine Chg.step (State.headClaims_chg _ _ _) rfl ?_
  assumption


theorem State.queueWait_chg (x0 : State) (x1 : Nat) (x2 : CtrWait) :
    Chg 0x300020800498908 x0 (State.queueWait x0 x1 x2) := by
  unfold State.queueWait
  extract_lets t1 t2 t3
  have ht1 : Chg 0x300020800498908 x0 t1 := by
    unfold t1
    refine Chg.step (State.count_chg _ _ _) rfl ?_
    exact Chg.refl _ _
  clear_value t1
  have ht2 : Chg 0x300020800498908 x0 t2 := by
    unfold t2
    refine Chg.step (State.flag_chg _ _ _) rfl ?_
    assumption
  clear_value t2
  have ht3 : Chg 0x300020800498908 x0 t3 := by
    unfold t3
    refine Chg.step (State.log_chg _ _) rfl ?_
    assumption
  clear_value t3
  refine Chg.ite ?_ ?_
  · refine Chg.step (State.ctrReply_chg _ _ _ _) rfl ?_
    refine Chg.step (State.fset_chg _ _ _ _) rfl ?_
    exact Chg.refl _ _
  · refine Chg.ite ?_ ?_
    · refine Chg.step (State.ctrReply_chg _ _ _ _) rfl ?_
      assumption
    · refine Chg.step (State.setWaits_chg _ _ _) rfl ?_
      exact Chg.refl _ _


theorem State.syncDrop_chg (x0 : State) (x1 : Nat) (x2 : Nat) :
    Chg 0x300020800498908 x0 (State.syncDrop x0 x1 x2) := by
  unfold State.syncDrop
  refine Chg.foldl ?_ ?_
  · intro u1 u2 u3
    extract_lets w4 t5 t6
    clear_value w4
    have ht5 : Chg 0x300020800498908 x0 t5 := by
      unfold t5
      refine Chg.step (State.setWaits_chg _ _ _) rfl ?_
      assumption
    clear_value t5
    have ht6 : Chg 0x300020800498908 x0 t6 := by
      unfold t6
      refine Chg.foldl ?_ ?_
      · intro u7 u8 u9
        refine Chg.step (State.ctrReply_chg _ _ _ _) rfl ?_
        assumption
      · assumption
    clear_value t6
    refine Chg.foldl_mem ?_ ?_
    · intro u10 u11 u12 u13
      refine Chg.step (State.fset_chg _ _ _ _) (mem_fld (by assumption) rfl) ?_
      assumption
    · assumption
  · exact Chg.refl _ _


theorem State.addCtr_chg (x0 : State) (x1 : Nat) (x2 : Nat) (x3 : Nat) (x4 : Nat) (x5 : Nat) :
    Chg 0x300020800498f08 x0 (State.addCtr x0 x1 x2 x3 x4 x5) := by
  unfold State.addCtr
  extract_lets w1 t2 t3 t4 t5 t6 t7 t8 t9 t10
  clear_value w1
  have ht2 : Chg 0x300020800498f08 x0 t2 := by
    unfold t2
    refine Chg.step (State.fset_chg _ _ _ _) rfl ?_
    exact Chg.refl _ _
  clear_value t2
  have ht3 : Chg 0x300020800498f08 x0 t3 := by
    unfold t3
    refine Chg.step (State.flag_chg _ _ _) rfl ?_
    assumption
  clear_value t3
  have ht4 : Chg 0x300020800498f08 x0 t4 := by
    unfold t4
    refine Chg.step (State.flag_chg _ _ _) rfl ?_
    assumption
  clear_value t4
  have ht5 : Chg 0x300020800498f08 x0 t5 := by
    unfold t5
    refine Chg.step (State.count_chg _ _ _) rfl ?_
    assumption
  clear_value t5
  have ht6 : Chg 0x300020800498f08 x0 t6 := by
    unfold t6
    refine Chg.ite ?_ ?_
    · refine Chg.step (State.logRate_chg _ _ _ _) rfl ?_
      assumption
    · assumption
  clear_value t6
  have ht7 : Chg 0x300020800498f08 x0 t7 := by
    unfold t7
    refine Chg.step (State.fset_chg _ _ _ _) rfl ?_
    assumption
  clear_value t7
  have ht8 : Chg 0x300020800498f08 x0 t8 := by
    unfold t8
    refine Chg.step (State.fset_chg _ _ _ _) rfl ?_
    assumption
  clear_value t8
  have ht9 : Chg 0x300020800498f08 x0 t9 := by
    unfold t9
    refine Chg.step (State.fset_chg _ _ _ _) rfl ?_
    assumption
  clear_value t9
  have ht10 : Chg 0x300020800498f08 x0 t10 := by
    unfold t10
    refine Chg.step (State.fset_chg _ _ _ _) rfl ?_
    assumption
  clear_value t10
  refine Chg.step (State.settleCtr_chg _ _) rfl ?_
  assumption


theorem State.opDamaged_chg (x0 : State) (x1 : Packet) (x2 : Sys2Proof.Damage) :
    ChgO 0x1020000480908 x0 (State.opDamaged x0 x1 x2) := by
  unfold State.opDamaged
  split
  · exact ChgO.none
  · refine ChgO.some ?_
    refine Chg.step (State.hdrFail_chg _ _ _) rfl ?_
    exact Chg.refl _ _
  · refine ChgO.some ?_
    refine Chg.ite ?_ ?_
    · refine Chg.step (State.receipt_chg _ _ _) rfl ?_
      refine Chg.step (State.payFail_chg _ _) rfl ?_
      exact Chg.refl _ _
    · refine Chg.step (State.payFail_chg _ _) rfl ?_
      exact Chg.refl _ _


theorem State.addArrive_chg (x0 : State) (x1 : Packet) :
    Chg 0x300020800498f08 x0 (State.addArrive x0 x1) := by
  unfold State.addArrive
  extract_lets w1 w2 w3 w4 t5 w6 w7 t8
  clear_value w1
  clear_value w2
  clear_value w3
  clear_value w4
  have ht5 : Chg 0x300020800498f08 x0 t5 := by
    unfold t5
    refine Chg.step (State.unpost_chg _ _) rfl ?_
    exact Chg.refl _ _
  clear_value t5
  clear_value w6
  clear_value w7
  have ht8 : Chg 0x300020800498f08 x0 t8 := by
    unfold t8
    refine Chg.upd_sync rfl ?_
    assumption
  clear_value t8
  refine Chg.ite ?_ ?_
  · refine Chg.step (State.receipt_chg _ _ _) rfl ?_
    refine Chg.step (State.badRecord_chg _) rfl ?_
    assumption
  · refine Chg.ite ?_ ?_
    · refine Chg.step (State.receipt_chg _ _ _) rfl ?_
      refine Chg.step (State.count_chg _ _ _) rfl ?_
      assumption
    · split
      · refine Chg.step (State.receipt_chg _ _ _) rfl ?_
        refine Chg.ite ?_ ?_
        · refine Chg.step (State.stray_chg _ _ _) rfl ?_
          assumption
        · assumption
      · refine Chg.step (State.receipt_chg _ _ _) rfl ?_
        refine Chg.step (State.addCtr_chg _ _ _ _ _ _) rfl ?_
        assumption


theorem execAdd_chg (x0 : Sys2Proof.Delivery) (x1 : State) :
    ChgR 0x301020800498f08 x1 (execAdd x0 x1) := by
  unfold execAdd
  split
  · refine ChgR.next ?_
    exact Chg.refl _ _
  · refine ChgR.ite ?_ ?_
    · refine ChgR.next ?_
      exact Chg.refl _ _
    · refine ChgR.next ?_
      refine Chg.getD ?_ ?_
      · intro u1 u2
        refine ChgO.app ?_ (by assumption)
        refine ChgO.step (State.opDamaged_chg _ _ _) rfl ?_
        exact Chg.refl _ _
      · refine Chg.step (State.addArrive_chg _ _) rfl ?_
        exact Chg.refl _ _


theorem State.ctrAnswer_chg (x0 : State) (x1 : Packet) (x2 : CtrOp) (x3 : Nat) (x4 : Nat) :
    Chg 0x80000 x0 (State.ctrAnswer x0 x1 x2 x3 x4) := by
  unfold State.ctrAnswer
  extract_lets w1 w2
  clear_value w1
  clear_value w2
  refine Chg.ite ?_ ?_
  · refine Chg.step (State.toPeer_chg _ _) rfl ?_
    exact Chg.refl _ _
  · refine Chg.step (State.post_chg _ _) rfl ?_
    exact Chg.refl _ _


theorem State.ctrRequest_chg {s : State} {a : Delivery} {op : Nat} {p : Packet} {o : CtrOp} {t : State}
    (h : s.ctrRequest a op = some (p, o, .inr t)) : Chg 0x201020000480f08 s t := by
  simp only [State.ctrRequest] at h
  split at h
  · cases h
  · split at h
    · cases h
    · split at h
      · next hd =>
        cases h
        exact Chg.step (State.opDamaged_chg _ _ _ _ hd) rfl (Chg.refl _ _)
      · split at h
        · cases h
          exact Chg.step (State.ctrAnswer_chg _ _ _ _ _) rfl (Chg.step (State.badRecord_chg _) rfl (Chg.step (State.unpost_chg _ _) rfl (Chg.refl _ _)))
        · split at h
          · cases h
            refine Chg.step (State.ctrAnswer_chg _ _ _ _ _) rfl (Chg.ite ?_ ?_)
            · exact Chg.step (State.stray_chg _ _ _) rfl (Chg.step (State.unpost_chg _ _) rfl (Chg.refl _ _))
            · exact Chg.step (State.unpost_chg _ _) rfl (Chg.refl _ _)
          · cases h

theorem execClaim_chg (x0 : Sys2Proof.Delivery) (x1 : State) :
    ChgR 0x301020800498f08 x1 (execClaim x0 x1) := by
  unfold execClaim
  split
  · refine ChgR.next ?_
    exact Chg.refl _ _
  · refine ChgR.next ?_
    refine Chg.step (State.ctrRequest_chg (by assumption)) rfl ?_
    exact Chg.refl _ _
  · extract_lets t1
    have ht1 : Chg 0x301020800498f08 x1 t1 := by
      unfold t1
      refine Chg.step (State.unpost_chg _ _) rfl ?_
      exact Chg.refl _ _
    clear_value t1
    refine ChgR.ite ?_ ?_
    · refine ChgR.next ?_
      refine Chg.step (State.ctrAnswer_chg _ _ _ _ _) rfl ?_
      assumption
    · refine ChgR.next ?_
      refine Chg.step (State.settleCtr_chg _ _) rfl ?_
      refine Chg.step (State.queueWait_chg _ _ _) rfl ?_
      assumption


theorem execWaitGe_chg (x0 : Sys2Proof.Delivery) (x1 : State) :
    ChgR 0x301020800498f08 x1 (execWaitGe x0 x1) := by
  unfold execWaitGe
  split
  · refine ChgR.next ?_
    exact Chg.refl _ _
  · refine ChgR.next ?_
    refine Chg.step (State.ctrRequest_chg (by assumption)) rfl ?_
    exact Chg.refl _ _
  · extract_lets t1
    have ht1 : Chg 0x301020800498f08 x1 t1 := by
      unfold t1
      refine Chg.step (State.unpost_chg _ _) rfl ?_
      exact Chg.refl _ _
    clear_value t1
    refine ChgR.ite ?_ ?_
    · refine ChgR.next ?_
      refine Chg.step (State.ctrAnswer_chg _ _ _ _ _) rfl ?_
      assumption
    · refine ChgR.next ?_
      refine Chg.step (State.queueWait_chg _ _ _) rfl ?_
      assumption


theorem execPeek_chg (x0 : Sys2Proof.Delivery) (x1 : State) :
    ChgR 0x201020000480f08 x1 (execPeek x0 x1) := by
  unfold execPeek
  split
  · refine ChgR.next ?_
    exact Chg.refl _ _
  · extract_lets w1
    clear_value w1
    refine ChgR.ite ?_ ?_
    · refine ChgR.next ?_
      refine Chg.getD ?_ ?_
      · intro u2 u3
        refine ChgO.app ?_ (by assumption)
        refine ChgO.step (State.opDamaged_chg _ _ _) rfl ?_
        exact Chg.refl _ _
      · refine Chg.step (State.ctrAnswer_chg _ _ _ _ _) rfl ?_
        refine Chg.step (State.badRecord_chg _) rfl ?_
        refine Chg.step (State.unpost_chg _ _) rfl ?_
        exact Chg.refl _ _
    · split
      · refine ChgR.next ?_
        exact Chg.refl _ _
      · refine ChgR.next ?_
        refine Chg.step (State.ctrRequest_chg (by assumption)) rfl ?_
        exact Chg.refl _ _
      · refine ChgR.next ?_
        refine Chg.step (State.ctrAnswer_chg _ _ _ _ _) rfl ?_
        refine Chg.step (State.unpost_chg _ _) rfl ?_
        exact Chg.refl _ _


theorem execSignal_chg (x0 : Nat) (x1 : Sys2Proof.Thr) (x2 : State) :
    ChgR 0x20000498908 x2 (execSignal x0 x1 x2) := by
  unfold execSignal
  split
  · refine ChgR.next ?_
    exact Chg.refl _ _
  · extract_lets w1 w2 w3
    clear_value w1
    clear_value w2
    clear_value w3
    split
    · refine ChgR.next ?_
      exact Chg.refl _ _
    · extract_lets w4 w5 w6
      clear_value w4
      clear_value w5
      clear_value w6
      refine ChgR.ite ?_ ?_
      · refine ChgR.next ?_
        refine Chg.step (State.stall_chg _ _ _) rfl ?_
        exact Chg.refl _ _
      · refine ChgR.ite ?_ ?_
        · refine ChgR.next ?_
          refine Chg.step (State.next_chg _ _ _) rfl ?_
          refine Chg.step (State.postHeld_chg _ _) rfl ?_
          exact Chg.refl _ _
        · refine ChgR.next ?_
          refine Chg.step (State.next_chg _ _ _) rfl ?_
          refine Chg.step (State.toPeer_chg _ _) rfl ?_
          exact Chg.refl _ _


theorem execWaitc_chg (x0 : Nat) (x1 : State) :
    ChgR 0x300020800498908 x1 (execWaitc x0 x1) := by
  unfold execWaitc
  split
  · refine ChgR.next ?_
    exact Chg.refl _ _
  · refine ChgR.ite ?_ ?_
    · refine ChgR.next ?_
      refine Chg.step (State.next_chg _ _ _) rfl ?_
      exact Chg.refl _ _
    · refine ChgR.ite ?_ ?_
      · refine ChgR.next ?_
        exact Chg.refl _ _
      · split
        · refine ChgR.next ?_
          exact Chg.refl _ _
        · extract_lets w1 w2 t3 w4
          clear_value w1
          clear_value w2
          have ht3 : Chg 0x300020800498908 x1 t3 := by
            unfold t3
            refine Chg.step (State.stall_chg _ _ _) rfl ?_
            exact Chg.refl _ _
          clear_value t3
          clear_value w4
          refine ChgR.ite ?_ ?_
          · refine ChgR.next ?_
            refine Chg.step (State.next_chg _ _ _) rfl ?_
            exact Chg.refl _ _
          · refine ChgR.next ?_
            refine Chg.step (State.settleCtr_chg _ _) rfl ?_
            refine Chg.step (State.queueWait_chg _ _ _) rfl ?_
            assumption


theorem State.setFormats_chg (x0 : State) (x1 : Nat) (x2 : StageRec) (x3 : List EntryTrace) :
    Chg 0x800000001008 x0 (State.setFormats x0 x1 x2 x3) := by
  unfold State.setFormats
  extract_lets t1
  have ht1 : Chg 0x800000001008 x0 t1 := by
    unfold t1
    refine Chg.foldl ?_ ?_
    · intro u2 u3 u4
      extract_lets w5
      clear_value w5
      refine Chg.step (State.setEngine_chg _ _ _ _) rfl ?_
      assumption
    · exact Chg.refl _ _
  clear_value t1
  refine Chg.foldl ?_ ?_
  · intro u6 u7 u8
    refine Chg.foldl ?_ ?_
    · intro u9 u10 u11
      extract_lets w12 w13 t14
      clear_value w12
      clear_value w13
      have ht14 : Chg 0x800000001008 x0 t14 := by
        unfold t14
        refine Chg.ite ?_ ?_
        · assumption
        · refine Chg.step (State.setEngine_chg _ _ _ _) rfl ?_
          assumption
      clear_value t14
      refine Chg.step (State.fset_chg _ _ _ _) rfl ?_
      refine Chg.step (State.fset_chg _ _ _ _) rfl ?_
      assumption
    · assumption
  · assumption


theorem State.engineOut_chg (x0 : State) (x1 : Nat) (x2 : Nat) :
    Chg 0x81000 x0 (State.engineOut x0 x1 x2) := by
  unfold State.engineOut
  extract_lets t1 w2
  have ht1 : Chg 0x81000 x0 t1 := by
    unfold t1
    refine Chg.step (State.setEngine_chg _ _ _ _) rfl ?_
    exact Chg.refl _ _
  clear_value t1
  clear_value w2
  refine Chg.upd_fab rfl ?_
  assumption


theorem State.setEngines_chg (x0 : State) (x1 : Nat) (x2 : List MapEnt) (x3 : List Nat) :
    Chg 0x800000081008 x0 (State.setEngines x0 x1 x2 x3) := by
  unfold State.setEngines
  extract_lets t1 w2
  have ht1 : Chg 0x800000081008 x0 t1 := by
    unfold t1
    refine Chg.foldl ?_ ?_
    · intro u3 u4 u5
      refine Chg.step (State.engineOut_chg _ _ _) rfl ?_
      assumption
    · exact Chg.refl _ _
  clear_value t1
  clear_value w2
  refine Chg.foldl ?_ ?_
  · intro u6 u7 u8
    extract_lets w9 t10 t11 t12 w13
    clear_value w9
    have ht10 : Chg 0x800000081008 x0 t10 := by
      unfold t10
      refine Chg.step (State.setEngine_chg _ _ _ _) rfl ?_
      assumption
    clear_value t10
    have ht11 : Chg 0x800000081008 x0 t11 := by
      unfold t11
      refine Chg.step (State.fset_chg _ _ _ _) rfl ?_
      assumption
    clear_value t11
    have ht12 : Chg 0x800000081008 x0 t12 := by
      unfold t12
      refine Chg.step (State.fset_chg _ _ _ _) rfl ?_
      assumption
    clear_value t12
    clear_value w13
    refine Chg.upd_fab rfl ?_
    assumption
  · assumption


theorem State.setRole_chg (x0 : State) (x1 : Nat) (x2 : Nat) (x3 : StageRec) (x4 : Nat) :
    Chg 0x800082000000008 x0 (State.setRole x0 x1 x2 x3 x4) := by
  unfold State.setRole
  extract_lets t1 t2 t3 t4 t5 t6 t7 t8 w9 t10
  have ht1 : Chg 0x800082000000008 x0 t1 := by
    unfold t1
    refine Chg.step (State.fset_chg _ _ _ _) rfl ?_
    exact Chg.refl _ _
  clear_value t1
  have ht2 : Chg 0x800082000000008 x0 t2 := by
    unfold t2
    refine Chg.step (State.fset_chg _ _ _ _) rfl ?_
    assumption
  clear_value t2
  have ht3 : Chg 0x800082000000008 x0 t3 := by
    unfold t3
    refine Chg.step (State.fset_chg _ _ _ _) rfl ?_
    assumption
  clear_value t3
  have ht4 : Chg 0x800082000000008 x0 t4 := by
    unfold t4
    refine Chg.step (State.fset_chg _ _ _ _) rfl ?_
    assumption
  clear_value t4
  have ht5 : Chg 0x800082000000008 x0 t5 := by
    unfold t5
    refine Chg.step (State.fset_chg _ _ _ _) rfl ?_
    assumption
  clear_value t5
  have ht6 : Chg 0x800082000000008 x0 t6 := by
    unfold t6
    refine Chg.step (State.fset_chg _ _ _ _) rfl ?_
    assumption
  clear_value t6
  have ht7 : Chg 0x800082000000008 x0 t7 := by
    unfold t7
    refine Chg.step (State.fset_chg _ _ _ _) rfl ?_
    assumption
  clear_value t7
  have ht8 : Chg 0x800082000000008 x0 t8 := by
    unfold t8
    refine Chg.step (State.fset_chg _ _ _ _) rfl ?_
    assumption
  clear_value t8
  clear_value w9
  have ht10 : Chg 0x800082000000008 x0 t10 := by
    unfold t10
    refine Chg.ite ?_ ?_
    · refine Chg.step (State.fset_chg _ _ _ _) rfl ?_
      refine Chg.upd_keep rfl ?_
      assumption
    · assumption
  clear_value t10
  refine Chg.ite ?_ ?_
  · refine Chg.step (State.fset_chg _ _ _ _) rfl ?_
    assumption
  · assumption


theorem State.setProgram_chg (x0 : State) (x1 : Nat) (x2 : StageRec) (x3 : Program) :
    Chg 0xa00000011008 x0 (State.setProgram x0 x1 x2 x3) := by
  unfold State.setProgram
  extract_lets w1 w2 w3 w4 t5 t6 t7 t8 t9 t10 t11 t12
  clear_value w1
  clear_value w2
  clear_value w3
  clear_value w4
  have ht5 : Chg 0xa00000011008 x0 t5 := by
    unfold t5
    refine Chg.step (State.setSeq_chg _ _ _) rfl ?_
    exact Chg.refl _ _
  clear_value t5
  have ht6 : Chg 0xa00000011008 x0 t6 := by
    unfold t6
    refine Chg.step (State.fset_chg _ _ _ _) rfl ?_
    assumption
  clear_value t6
  have ht7 : Chg 0xa00000011008 x0 t7 := by
    unfold t7
    refine Chg.step (State.fset_chg _ _ _ _) rfl ?_
    assumption
  clear_value t7
  have ht8 : Chg 0xa00000011008 x0 t8 := by
    unfold t8
    refine Chg.step (State.fset_chg _ _ _ _) rfl ?_
    assumption
  clear_value t8
  have ht9 : Chg 0xa00000011008 x0 t9 := by
    unfold t9
    refine Chg.step (State.fset_chg _ _ _ _) rfl ?_
    assumption
  clear_value t9
  have ht10 : Chg 0xa00000011008 x0 t10 := by
    unfold t10
    refine Chg.step (State.fset_chg _ _ _ _) rfl ?_
    assumption
  clear_value t10
  have ht11 : Chg 0xa00000011008 x0 t11 := by
    unfold t11
    refine Chg.step (State.fset_chg _ _ _ _) rfl ?_
    assumption
  clear_value t11
  have ht12 : Chg 0xa00000011008 x0 t12 := by
    unfold t12
    refine Chg.step (State.fset_chg _ _ _ _) rfl ?_
    assumption
  clear_value t12
  refine Chg.step (State.setFormats_chg _ _ _ _) rfl ?_
  assumption


theorem State.putConstant_chg (x0 : State) (x1 : Nat) (x2 : Buffer) :
    Chg 0x120000 x0 (State.putConstant x0 x1 x2) := by
  unfold State.putConstant
  split
  · exact Chg.refl _ _
  · extract_lets w1
    clear_value w1
    refine Chg.ite ?_ ?_
    · refine Chg.step (State.sramWrite_chg _ _ _ _) rfl ?_
      exact Chg.refl _ _
    · refine Chg.ite ?_ ?_
      · exact Chg.refl _ _
      · refine Chg.step (State.pagedWrite_chg _ _ _) rfl ?_
        exact Chg.refl _ _


theorem State.installCore_chg (x0 : State) (x1 : Nat) (x2 : List Nat) (x3 : StageRec) (x4 : PosPlan) (x5 : List MapEnt) (x6 : List Nat) :
    Chg 0x800e820001b9008 x0 (State.installCore x0 x1 x2 x3 x4 x5 x6) := by
  unfold State.installCore
  split
  · exact Chg.refl _ _
  · extract_lets w1 w2 w3 t4 t5 t6 t7 t8 t9 t10 t11 w12
    clear_value w1
    clear_value w2
    clear_value w3
    have ht4 : Chg 0x800e820001b9008 x0 t4 := by
      unfold t4
      refine Chg.step (State.setCore_chg _ _ _) rfl ?_
      exact Chg.refl _ _
    clear_value t4
    have ht5 : Chg 0x800e820001b9008 x0 t5 := by
      unfold t5
      refine Chg.step (State.setRole_chg _ _ _ _ _) rfl ?_
      assumption
    clear_value t5
    have ht6 : Chg 0x800e820001b9008 x0 t6 := by
      unfold t6
      refine Chg.step (State.fset_chg _ _ _ _) rfl ?_
      assumption
    clear_value t6
    have ht7 : Chg 0x800e820001b9008 x0 t7 := by
      unfold t7
      refine Chg.step (State.fset_chg _ _ _ _) rfl ?_
      assumption
    clear_value t7
    have ht8 : Chg 0x800e820001b9008 x0 t8 := by
      unfold t8
      refine Chg.step (State.fset_chg _ _ _ _) rfl ?_
      assumption
    clear_value t8
    have ht9 : Chg 0x800e820001b9008 x0 t9 := by
      unfold t9
      refine Chg.step (State.fset_chg _ _ _ _) rfl ?_
      assumption
    clear_value t9
    have ht10 : Chg 0x800e820001b9008 x0 t10 := by
      unfold t10
      refine Chg.step (State.setProgram_chg _ _ _ _) rfl ?_
      refine Chg.step (State.setEngines_chg _ _ _ _) rfl ?_
      assumption
    clear_value t10
    have ht11 : Chg 0x800e820001b9008 x0 t11 := by
      unfold t11
      refine Chg.step (State.pagedWrite_chg _ _ _) rfl ?_
      assumption
    clear_value t11
    clear_value w12
    refine Chg.foldl ?_ ?_
    · intro u13 u14 u15
      extract_lets w16
      clear_value w16
      split
      · refine Chg.step (State.putConstant_chg _ _ _) rfl ?_
        refine Chg.step (State.pagedWrite_chg _ _ _) rfl ?_
        assumption
      · assumption
    · assumption


theorem State.writeMaster_chg (x0 : State) (x1 : Nat) (x2 : Nat) (x3 : List Nat) (x4 : MapEnt) :
    Chg 0x100000 x0 (State.writeMaster x0 x1 x2 x3 x4) := by
  unfold State.writeMaster
  refine Chg.foldl ?_ ?_
  · intro u1 u2 u3
    refine Chg.step (State.dramWrite_chg _ _ _) rfl ?_
    assumption
  · exact Chg.refl _ _


theorem State.loadEnd_chg (x0 : State) (x1 : LoadReq) (x2 : Nat) (x3 : List Nat) :
    Chg 0x8000008800808 x0 (State.loadEnd x0 x1 x2 x3) := by
  unfold State.loadEnd
  split
  · exact Chg.refl _ _
  · refine Chg.step (State.done_chg _ _ _ _) rfl ?_
    refine Chg.step (State.cmdWrite_chg _ _ _ _ _) rfl ?_
    exact Chg.refl _ _


theorem State.loadRefuse_chg (x0 : State) (x1 : LoadReq) (x2 : List Nat) (x3 : LoadErr) (x4 : Nat) (x5 : List Nat) :
    Chg 0x8020008c00908 x0 (State.loadRefuse x0 x1 x2 x3 x4 x5) := by
  unfold State.loadRefuse
  extract_lets t1
  have ht1 : Chg 0x8020008c00908 x0 t1 := by
    unfold t1
    refine Chg.step (State.log_chg _ _) rfl ?_
    exact Chg.refl _ _
  clear_value t1
  refine Chg.step (State.loadEnd_chg _ _ _ _) rfl ?_
  assumption


theorem State.newInits_chg {s : State} {ctx : Nat} {b : List Nat} {x : Tab Paged} {y : List Nat} {t : State}
    (h : s.newInits ctx b = some (x, y, t)) : Chg 0x180000 s t := by
  simp only [State.newInits] at h
  split at h
  · cases h; exact Chg.refl _ _
  · obtain ⟨⟨p, u⟩, h1, h2⟩ := Option.map_eq_some_iff.mp h
    cases h2
    refine Chg.foldl ?_ (Chg.step (State.takePages_chg h1) rfl (Chg.refl _ _))
    intro v z k
    split
    · exact k
    · exact Chg.step (State.pagedWrite_chg _ _ _) rfl k

theorem State.loadGeneration_chg (x0 : State) (x1 : LoadReq) (x2 : Model) (x3 : List Nat) (x4 : List Nat) :
    Chg 0x8020008dc0908 x0 (State.loadGeneration x0 x1 x2 x3 x4) := by
  unfold State.loadGeneration
  split
  · refine Chg.step (State.loadRefuse_chg _ _ _ _ _ _) rfl ?_
    exact Chg.refl _ _
  · extract_lets w1 w2 t3 w4 w5 w6 w7
    clear_value w1
    clear_value w2
    have ht3 : Chg 0x8020008dc0908 x0 t3 := by
      unfold t3
      refine Chg.foldl ?_ ?_
      · intro u8 u9 u10
        refine Chg.step (State.writeMaster_chg _ _ _ _ _) rfl ?_
        assumption
      · refine Chg.step (State.newInits_chg (by assumption)) rfl ?_
        exact Chg.refl _ _
    clear_value t3
    clear_value w5
    clear_value w6
    clear_value w7
    refine Chg.step (State.setModel_chg _ _) rfl ?_
    assumption


theorem State.genMismatch_chg (x0 : State) (x1 : Model) (x2 : MapEnt) :
    Chg 0x428421089e98908 x0 (State.genMismatch x0 x1 x2) := by
  unfold State.genMismatch
  split
  · exact Chg.refl _ _
  · extract_lets w1 t2 t3
    clear_value w1
    have ht2 : Chg 0x428421089e98908 x0 t2 := by
      unfold t2
      refine Chg.step (State.flag_chg _ _ _) rfl ?_
      exact Chg.refl _ _
    clear_value t2
    have ht3 : Chg 0x428421089e98908 x0 t3 := by
      unfold t3
      refine Chg.step (State.log_chg _ _) rfl ?_
      assumption
    clear_value t3
    refine Chg.step (State.convict_chg _ _ _ _ _ _ _) rfl ?_
    assumption


theorem execGenVerifyDone_chg (x0 : Nat) (x1 : Nat) (x2 : State) :
    ChgR 0x428421089ed8908 x2 (execGenVerifyDone x0 x1 x2) := by
  unfold execGenVerifyDone
  split
  · refine ChgR.next ?_
    exact Chg.refl _ _
  · split
    · refine ChgR.next ?_
      exact Chg.refl _ _
    · extract_lets w1 w2 w3 w4 w5 t6 t7 t8 w9 t10 t11
      clear_value w1
      clear_value w2
      clear_value w3
      clear_value w4
      clear_value w5
      have ht6 : Chg 0x428421089ed8908 x2 t6 := by
        unfold t6
        refine Chg.step (State.setModel_chg _ _) rfl ?_
        exact Chg.refl _ _
      clear_value t6
      have ht7 : Chg 0x428421089ed8908 x2 t7 := by
        unfold t7
        refine Chg.foldl ?_ ?_
        · intro u12 u13 u14
          refine Chg.foldl ?_ ?_
          · intro u15 u16 u17
            extract_lets t18 t19
            have ht18 : Chg 0x428421089ed8908 x2 t18 := by
              unfold t18
              refine Chg.step (State.fset_chg _ _ _ _) rfl ?_
              assumption
            clear_value t18
            have ht19 : Chg 0x428421089ed8908 x2 t19 := by
              unfold t19
              refine Chg.step (State.fset_chg _ _ _ _) rfl ?_
              assumption
            clear_value t19
            refine Chg.step (State.fset_chg _ _ _ _) rfl ?_
            assumption
          · assumption
        · assumption
      clear_value t7
      have ht8 : Chg 0x428421089ed8908 x2 t8 := by
        unfold t8
        refine Chg.step (State.log_chg _ _) rfl ?_
        assumption
      clear_value t8
      clear_value w9
      have ht10 : Chg 0x428421089ed8908 x2 t10 := by
        unfold t10
        refine Chg.foldl ?_ ?_
        · intro u20 u21 u22
          refine Chg.ite ?_ ?_
          · assumption
          · refine Chg.step (State.genMismatch_chg _ _ _) rfl ?_
            assumption
        · exact Chg.refl _ _
      clear_value t10
      have ht11 : Chg 0x428421089ed8908 x2 t11 := by
        unfold t11
        refine Chg.step (State.setModel_chg _ _) rfl ?_
        assumption
      clear_value t11
      refine ChgR.ite ?_ ?_
      · refine ChgR.next ?_
        exact Chg.refl _ _
      · refine ChgR.ite ?_ ?_
        · refine ChgR.next ?_
          refine Chg.step (State.loadEnd_chg _ _ _ _) rfl ?_
          assumption
        · refine ChgR.next ?_
          refine Chg.step (State.loadRefuse_chg _ _ _ _ _ _) rfl ?_
          assumption


theorem State.askStages_chg (x0 : State) (x1 : Nat) (x2 : Nat) (x3 : List Nat) :
    Chg 0x80000 x0 (State.askStages x0 x1 x2 x3) := by
  unfold State.askStages
  refine Chg.foldl ?_ ?_
  · intro u1 u2 u3
    extract_lets w4
    clear_value w4
    refine Chg.step (State.toPeer_chg _ _) rfl ?_
    assumption
  · exact Chg.refl _ _


theorem State.leaveLookouts_chg (x0 : State) (x1 : List Nat) :
    Chg 0x400001000000008 x0 (State.leaveLookouts x0 x1) := by
  unfold State.leaveLookouts
  refine Chg.foldl ?_ ?_
  · intro u1 u2 u3
    extract_lets t4 w5 t6
    have ht4 : Chg 0x400001000000008 x0 t4 := by
      unfold t4
      refine Chg.step (State.fset_chg _ _ _ _) (by unfold lookState; split <;> rfl) ?_
      assumption
    clear_value t4
    clear_value w5
    have ht6 : Chg 0x400001000000008 x0 t6 := by
      unfold t6
      refine Chg.upd_rel rfl ?_
      assumption
    clear_value t6
    refine Chg.ite ?_ ?_
    · refine Chg.step (State.fset_chg _ _ _ _) rfl ?_
      assumption
    · assumption
  · exact Chg.refl _ _


theorem State.releaseTaken_chg (x0 : State) (x1 : List Nat) (x2 : List Nat) :
    Chg 0x400401000084008 x0 (State.releaseTaken x0 x1 x2) := by
  unfold State.releaseTaken
  extract_lets w1 t2
  clear_value w1
  have ht2 : Chg 0x400401000084008 x0 t2 := by
    unfold t2
    refine Chg.upd_fab rfl ?_
    exact Chg.refl _ _
  clear_value t2
  refine Chg.foldl ?_ ?_
  · intro u3 u4 u5
    refine Chg.step (State.beginZero_chg _ _) rfl ?_
    assumption
  · refine Chg.step (State.leaveLookouts_chg _ _) rfl ?_
    assumption


theorem State.loadPlace_chg (x0 : State) (x1 : LoadReq) (x2 : List Nat) (x3 : List Nat) :
    Chg 0xd0aea3008dfd90c x0 (State.loadPlace x0 x1 x2 x3) := by
  unfold State.loadPlace
  extract_lets w1 w2 w3 w4 w5 w6 w7 w8 w9 w10 w11 w12 w13 w14 t15 w16 w17 w18 w19 w20
  clear_value w1
  clear_value w2
  clear_value w3
  clear_value w4
  clear_value w5
  clear_value w6
  clear_value w7
  clear_value w8
  clear_value w9
  clear_value w10
  clear_value w11
  clear_value w12
  clear_value w13
  clear_value w14
  have ht15 : Chg 0xd0aea3008dfd90c x0 t15 := by
    unfold t15
    refine Chg.step (State.draw_chg _ _) rfl ?_
    exact Chg.refl _ _
  clear_value t15
  clear_value w16
  clear_value w17
  clear_value w18
  clear_value w19
  clear_value w20
  refine Chg.ite ?_ ?_
  · refine Chg.step (State.loadRefuse_chg _ _ _ _ _ _) rfl ?_
    exact Chg.refl _ _
  · refine Chg.ite ?_ ?_
    · refine Chg.step (State.loadRefuse_chg _ _ _ _ _ _) rfl ?_
      exact Chg.refl _ _
    · refine Chg.ite ?_ ?_
      · refine Chg.step (State.loadRefuse_chg _ _ _ _ _ _) rfl ?_
        exact Chg.refl _ _
      · split
        · refine Chg.step (State.loadRefuse_chg _ _ _ _ _ _) rfl ?_
          assumption
        · split
          · refine Chg.step (State.loadRefuse_chg _ _ _ _ _ _) rfl ?_
            assumption
          · split
            · refine Chg.step (State.loadRefuse_chg _ _ _ _ _ _) rfl ?_
              assumption
            · extract_lets w21 w22 t23 t24 w25 t26 t27 t28 w29 t30 t31 t32 w33 t34
              clear_value w21
              clear_value w22
              have ht23 : Chg 0xd0aea3008dfd90c x0 t23 := by
                unfold t23
                refine Chg.upd_fab rfl ?_
                refine Chg.step (State.planAll_chg (by assumption)) rfl ?_
                assumption
              clear_value t23
              have ht24 : Chg 0xd0aea3008dfd90c x0 t24 := by
                unfold t24
                refine Chg.foldl ?_ ?_
                · intro u35 u36 u37
                  refine Chg.step (State.writeMaster_chg _ _ _ _ _) rfl ?_
                  assumption
                · assumption
              clear_value t24
              clear_value w25
              have ht26 : Chg 0xd0aea3008dfd90c x0 t26 := by
                unfold t26
                refine Chg.foldl ?_ ?_
                · intro u38 u39 u40
                  refine Chg.step (State.syncTake_chg _ _ _ _ _) rfl ?_
                  assumption
                · assumption
              clear_value t26
              have ht27 : Chg 0xd0aea3008dfd90c x0 t27 := by
                unfold t27
                refine Chg.step (State.leaveLookouts_chg _ _) rfl ?_
                assumption
              clear_value t27
              have ht28 : Chg 0xd0aea3008dfd90c x0 t28 := by
                unfold t28
                refine Chg.foldl ?_ ?_
                · intro u41 u42 u43
                  split
                  · assumption
                  · extract_lets w44
                    clear_value w44
                    refine Chg.step (State.installCore_chg _ _ _ _ _ _ _) rfl ?_
                    assumption
                · assumption
              clear_value t28
              clear_value w29
              have ht30 : Chg 0xd0aea3008dfd90c x0 t30 := by
                unfold t30
                refine Chg.upd_models rfl ?_
                assumption
              clear_value t30
              have ht31 : Chg 0xd0aea3008dfd90c x0 t31 := by
                unfold t31
                refine Chg.ite ?_ ?_
                · refine Chg.step (State.log_chg _ _) rfl ?_
                  assumption
                · assumption
              clear_value t31
              have ht32 : Chg 0xd0aea3008dfd90c x0 t32 := by
                unfold t32
                refine Chg.foldl ?_ ?_
                · intro u45 u46 u47
                  refine Chg.step (State.newEpoch_chg _ _ _) rfl ?_
                  assumption
                · assumption
              clear_value t32
              clear_value w33
              have ht34 : Chg 0xd0aea3008dfd90c x0 t34 := by
                unfold t34
                refine Chg.step (State.askStages_chg _ _ _ _) rfl ?_
                assumption
              clear_value t34
              refine Chg.ite ?_ ?_
              · refine Chg.step (State.loadRefuse_chg _ _ _ _ _ _) rfl ?_
                assumption
              · refine Chg.ite ?_ ?_
                · refine Chg.step (State.loadRefuse_chg _ _ _ _ _ _) rfl ?_
                  refine Chg.step (State.releaseTaken_chg _ _ _) rfl ?_
                  assumption
                · refine Chg.step (State.shares_chg _) rfl ?_
                  refine Chg.step (State.ctxRefresh_chg _) rfl ?_
                  refine Chg.step (State.setCtxState_chg _ _ _) rfl ?_
                  assumption


theorem State.loadPlain_chg (x0 : State) (x1 : LoadReq) (x2 : List Nat) (x3 : List Nat) :
    Chg 0xd0aea3008dfd90c x0 (State.loadPlain x0 x1 x2 x3) := by
  unfold State.loadPlain
  split
  · refine Chg.step (State.loadRefuse_chg _ _ _ _ _ _) rfl ?_
    exact Chg.refl _ _
  · split
    · refine Chg.step (State.loadGeneration_chg _ _ _ _ _) rfl ?_
      exact Chg.refl _ _
    · refine Chg.step (State.loadPlace_chg _ _ _ _) rfl ?_
      exact Chg.refl _ _


theorem State.askRelease_chg (x0 : State) (x1 : LoadReq) (x2 : List Nat) :
    Chg 0x2000000004 x0 (State.askRelease x0 x1 x2) := by
  unfold State.askRelease
  extract_lets w1 w2 w3 w4 w5 w6 t7 w8 w9
  clear_value w1
  clear_value w2
  clear_value w3
  clear_value w4
  clear_value w5
  clear_value w6
  have ht7 : Chg 0x2000000004 x0 t7 := by
    unfold t7
    refine Chg.step (State.draw_chg _ _) rfl ?_
    exact Chg.refl _ _
  clear_value t7
  clear_value w8
  clear_value w9
  refine Chg.upd_keep rfl ?_
  assumption


theorem State.loadBegin_chg (x0 : State) (x1 : LoadReq) :
    Chg 0xd0aea3008dfd90c x0 (State.loadBegin x0 x1) := by
  unfold State.loadBegin
  extract_lets w1 w2
  clear_value w1
  clear_value w2
  split
  · refine Chg.step (State.loadRefuse_chg _ _ _ _ _ _) rfl ?_
    exact Chg.refl _ _
  · split
    · refine Chg.step (State.loadRefuse_chg _ _ _ _ _ _) rfl ?_
      exact Chg.refl _ _
    · refine Chg.ite ?_ ?_
      · refine Chg.step (State.loadPlain_chg _ _ _ _) rfl ?_
        exact Chg.refl _ _
      · refine Chg.ite ?_ ?_
        · refine Chg.step (State.loadRefuse_chg _ _ _ _ _ _) rfl ?_
          exact Chg.refl _ _
        · refine Chg.ite ?_ ?_
          · refine Chg.step (State.loadRefuse_chg _ _ _ _ _ _) rfl ?_
            exact Chg.refl _ _
          · refine Chg.step (State.askRelease_chg _ _ _) rfl ?_
            exact Chg.refl _ _


theorem execLoad_chg (x0 : Nat) (x1 : Nat) (x2 : State) :
    ChgR 0xd0aea3008dfd90c x2 (execLoad x0 x1 x2) := by
  unfold execLoad
  extract_lets w1
  clear_value w1
  split
  · refine ChgR.next ?_
    exact Chg.refl _ _
  · extract_lets w2 w3
    clear_value w2
    clear_value w3
    refine ChgR.ite ?_ ?_
    · refine ChgR.next ?_
      refine Chg.step (State.done_chg _ _ _ _) rfl ?_
      exact Chg.refl _ _
    · refine ChgR.ite ?_ ?_
      · refine ChgR.next ?_
        exact Chg.refl _ _
      · refine ChgR.ite ?_ ?_
        · refine ChgR.next ?_
          refine Chg.step (State.loadRefuse_chg _ _ _ _ _ _) rfl ?_
          exact Chg.refl _ _
        · refine ChgR.ite ?_ ?_
          · refine ChgR.next ?_
            exact Chg.refl _ _
          · refine ChgR.next ?_
            refine Chg.step (State.loadBegin_chg _ _) rfl ?_
            refine Chg.step (State.begun_chg _ _ _) rfl ?_
            exact Chg.refl _ _


theorem State.vacate_chg (x0 : State) (x1 : Nat) :
    Chg 0x68000009f008 x0 (State.vacate x0 x1) := by
  unfold State.vacate
  extract_lets w1 t2 t3 t4 t5 t6 t7 w8 t9
  clear_value w1
  have ht2 : Chg 0x68000009f008 x0 t2 := by
    unfold t2
    refine Chg.step (State.setCore_chg _ _ _) rfl ?_
    exact Chg.refl _ _
  clear_value t2
  have ht3 : Chg 0x68000009f008 x0 t3 := by
    unfold t3
    refine Chg.step (State.setSeq_chg _ _ _) rfl ?_
    assumption
  clear_value t3
  have ht4 : Chg 0x68000009f008 x0 t4 := by
    unfold t4
    refine Chg.foldl ?_ ?_
    · intro u10 u11 u12
      refine Chg.step (State.setTile_chg _ _ _ _) rfl ?_
      assumption
    · assumption
  clear_value t4
  have ht5 : Chg 0x68000009f008 x0 t5 := by
    unfold t5
    refine Chg.foldl_mem ?_ ?_
    · intro u13 u14 u15 u16
      refine Chg.step (State.fset_chg _ _ _ _) (mem_fld (by assumption) rfl) ?_
      assumption
    · assumption
  clear_value t5
  have ht6 : Chg 0x68000009f008 x0 t6 := by
    unfold t6
    refine Chg.step (State.fset_chg _ _ _ _) rfl ?_
    assumption
  clear_value t6
  have ht7 : Chg 0x68000009f008 x0 t7 := by
    unfold t7
    refine Chg.step (State.zeroScratch_chg _ _) rfl ?_
    assumption
  clear_value t7
  clear_value w8
  have ht9 : Chg 0x68000009f008 x0 t9 := by
    unfold t9
    refine Chg.upd_fab rfl ?_
    assumption
  clear_value t9
  refine Chg.step (State.beginZero_chg _ _) rfl ?_
  assumption


theorem State.releaseModel_chg (x0 : State) (x1 : Model) :
    Chg 0x300022800498908 x0 (State.releaseModel x0 x1) := by
  unfold State.releaseModel
  extract_lets t1 w2 w3 t4 w5
  have ht1 : Chg 0x300022800498908 x0 t1 := by
    unfold t1
    refine Chg.foldl ?_ ?_
    · intro u6 u7 u8
      refine Chg.step (State.syncDrop_chg _ _ _) rfl ?_
      assumption
    · exact Chg.refl _ _
  clear_value t1
  clear_value w2
  clear_value w3
  have ht4 : Chg 0x300022800498908 x0 t4 := by
    unfold t4
    refine Chg.upd_fab rfl ?_
    assumption
  clear_value t4
  clear_value w5
  refine Chg.upd_keep rfl ?_
  assumption


theorem State.leaveResident_chg (x0 : State) (x1 : Nat) :
    Chg 0x800080000000008 x0 (State.leaveResident x0 x1) := by
  unfold State.leaveResident
  refine Chg.ite ?_ ?_
  · refine Chg.step (State.ctxRefresh_chg _) rfl ?_
    refine Chg.step (State.setCtxState_chg _ _ _) rfl ?_
    exact Chg.refl _ _
  · exact Chg.refl _ _


theorem State.dropModel_chg (x0 : State) (x1 : Model) :
    Chg 0xb026a28004df908 x0 (State.dropModel x0 x1) := by
  unfold State.dropModel
  extract_lets t1 t2 t3
  have ht1 : Chg 0xb026a28004df908 x0 t1 := by
    unfold t1
    refine Chg.foldl ?_ ?_
    · intro u4 u5 u6
      refine Chg.step (State.vacate_chg _ _) rfl ?_
      assumption
    · exact Chg.refl _ _
  clear_value t1
  have ht2 : Chg 0xb026a28004df908 x0 t2 := by
    unfold t2
    refine Chg.step (State.releaseModel_chg _ _) rfl ?_
    assumption
  clear_value t2
  have ht3 : Chg 0xb026a28004df908 x0 t3 := by
    unfold t3
    refine Chg.upd_models rfl ?_
    assumption
  clear_value t3
  refine Chg.step (State.shares_chg _) rfl ?_
  refine Chg.step (State.leaveResident_chg _ _) rfl ?_
  assumption


theorem State.swapEnd_chg (x0 : State) (x1 : Nat) :
    Chg 0x800002000000808 x0 (State.swapEnd x0 x1) := by
  unfold State.swapEnd
  split
  · exact Chg.refl _ _
  · extract_lets w1
    clear_value w1
    refine Chg.ite ?_ ?_
    · refine Chg.step (State.keepDone_chg _ _ _ _) rfl ?_
      refine Chg.upd_keep rfl ?_
      exact Chg.refl _ _
    · exact Chg.refl _ _


theorem execLoadComplete_chg (x0 : Nat) (x1 : Nat) (x2 : State) :
    ChgR 0xb0a7a2808cdf90c x2 (execLoadComplete x0 x1 x2) := by
  unfold execLoadComplete
  split
  · refine ChgR.next ?_
    exact Chg.refl _ _
  · extract_lets w1 w2 w3 w4 w5 w6 t7 t8 t9 t10
    clear_value w1
    clear_value w2
    clear_value w3
    clear_value w4
    clear_value w5
    clear_value w6
    have ht7 : Chg 0xb0a7a2808cdf90c x2 t7 := by
      unfold t7
      refine Chg.foldl ?_ ?_
      · intro u11 u12 u13
        refine Chg.step (State.coreStart_chg _ _) rfl ?_
        assumption
      · exact Chg.refl _ _
    clear_value t7
    have ht8 : Chg 0xb0a7a2808cdf90c x2 t8 := by
      unfold t8
      refine Chg.step (State.dropModel_chg _ _) rfl ?_
      exact Chg.refl _ _
    clear_value t8
    have ht9 : Chg 0xb0a7a2808cdf90c x2 t9 := by
      unfold t9
      refine Chg.step (State.setModel_chg _ _) rfl ?_
      assumption
    clear_value t9
    have ht10 : Chg 0xb0a7a2808cdf90c x2 t10 := by
      unfold t10
      refine Chg.step (State.log_chg _ _) rfl ?_
      assumption
    clear_value t10
    refine ChgR.ite ?_ ?_
    · refine ChgR.next ?_
      exact Chg.refl _ _
    · split
      · refine ChgR.next ?_
        exact Chg.refl _ _
      · refine ChgR.next ?_
        refine Chg.step (State.swapEnd_chg _ _) rfl ?_
        refine Chg.step (State.setModel_chg _ _) rfl ?_
        assumption
      · extract_lets w14
        clear_value w14
        refine ChgR.next ?_
        refine Chg.step (State.loadRefuse_chg _ _ _ _ _ _) rfl ?_
        assumption
      · refine ChgR.next ?_
        refine Chg.step (State.loadEnd_chg _ _ _ _) rfl ?_
        assumption


theorem execUnload_chg (x0 : Nat) (x1 : Nat) (x2 : State) :
    ChgR 0xb0a6a2808cdf908 x2 (execUnload x0 x1 x2) := by
  unfold execUnload
  extract_lets w1
  clear_value w1
  split
  · refine ChgR.next ?_
    exact Chg.refl _ _
  · extract_lets w2 w3
    clear_value w2
    clear_value w3
    refine ChgR.ite ?_ ?_
    · refine ChgR.next ?_
      exact Chg.refl _ _
    · split
      · refine ChgR.next ?_
        refine Chg.step (State.done_chg _ _ _ _) rfl ?_
        exact Chg.refl _ _
      · extract_lets t4
        have ht4 : Chg 0xb0a6a2808cdf908 x2 t4 := by
          unfold t4
          refine Chg.step (State.log_chg _ _) rfl ?_
          refine Chg.step (State.dropModel_chg _ _) rfl ?_
          exact Chg.refl _ _
        clear_value t4
        refine ChgR.ite ?_ ?_
        · refine ChgR.next ?_
          refine Chg.step (State.done_chg _ _ _ _) rfl ?_
          exact Chg.refl _ _
        · refine ChgR.ite ?_ ?_
          · refine ChgR.next ?_
            exact Chg.refl _ _
          · refine ChgR.next ?_
            refine Chg.step (State.done_chg _ _ _ _) rfl ?_
            assumption


theorem State.genCore_chg (x0 : State) (x1 : NextGen) (x2 : Nat) (x3 : Nat) (x4 : Nat) :
    Chg 0x400000129008 x0 (State.genCore x0 x1 x2 x3 x4) := by
  unfold State.genCore
  extract_lets w1 w2 t3 t4 t5 t6 t7 t8 t9
  clear_value w1
  clear_value w2
  have ht3 : Chg 0x400000129008 x0 t3 := by
    unfold t3
    refine Chg.step (State.setCore_chg _ _ _) rfl ?_
    exact Chg.refl _ _
  clear_value t3
  have ht4 : Chg 0x400000129008 x0 t4 := by
    unfold t4
    refine Chg.foldl ?_ ?_
    · intro u10 u11 u12
      extract_lets w13
      clear_value w13
      refine Chg.step (State.setEngine_chg _ _ _ _) rfl ?_
      assumption
    · assumption
  clear_value t4
  have ht5 : Chg 0x400000129008 x0 t5 := by
    unfold t5
    refine Chg.step (State.fset_chg _ _ _ _) rfl ?_
    assumption
  clear_value t5
  have ht6 : Chg 0x400000129008 x0 t6 := by
    unfold t6
    refine Chg.step (State.fset_chg _ _ _ _) rfl ?_
    assumption
  clear_value t6
  have ht7 : Chg 0x400000129008 x0 t7 := by
    unfold t7
    refine Chg.step (State.fset_chg _ _ _ _) rfl ?_
    assumption
  clear_value t7
  have ht8 : Chg 0x400000129008 x0 t8 := by
    unfold t8
    refine Chg.step (State.fset_chg _ _ _ _) rfl ?_
    assumption
  clear_value t8
  have ht9 : Chg 0x400000129008 x0 t9 := by
    unfold t9
    refine Chg.step (State.fset_chg _ _ _ _) rfl ?_
    assumption
  clear_value t9
  refine Chg.foldl ?_ ?_
  · intro u14 u15 u16
    refine Chg.step (State.putConstant_chg _ _ _) rfl ?_
    assumption
  · assumption


theorem State.cloneCore_chg (x0 : State) (x1 : Nat) (x2 : Nat) :
    Chg 0x800e820001b9008 x0 (State.cloneCore x0 x1 x2) := by
  unfold State.cloneCore
  split
  · extract_lets w1 w2 t3 t4 w5 w6 t7 t8 t9 t10
    clear_value w1
    clear_value w2
    have ht3 : Chg 0x800e820001b9008 x0 t3 := by
      unfold t3
      refine Chg.step (State.setCore_chg _ _ _) rfl ?_
      exact Chg.refl _ _
    clear_value t3
    have ht4 : Chg 0x800e820001b9008 x0 t4 := by
      unfold t4
      refine Chg.step (State.setRole_chg _ _ _ _ _) rfl ?_
      assumption
    clear_value t4
    clear_value w5
    clear_value w6
    have ht7 : Chg 0x800e820001b9008 x0 t7 := by
      unfold t7
      refine Chg.step (State.setSeq_chg _ _ _) rfl ?_
      assumption
    clear_value t7
    have ht8 : Chg 0x800e820001b9008 x0 t8 := by
      unfold t8
      refine Chg.foldl_mem ?_ ?_
      · intro u11 u12 u13 u14
        refine Chg.step (State.fset_chg _ _ _ _) (mem_fld (by assumption) rfl) ?_
        assumption
      · assumption
    clear_value t8
    have ht9 : Chg 0x800e820001b9008 x0 t9 := by
      unfold t9
      refine Chg.foldl ?_ ?_
      · intro u15 u16 u17
        extract_lets t18 w19 w20 t21 w22
        have ht18 : Chg 0x800e820001b9008 x0 t18 := by
          unfold t18
          refine Chg.foldl_mem ?_ ?_
          · intro u23 u24 u25 u26
            refine Chg.step (State.fset_chg _ _ _ _) (mem_fld (by assumption) rfl) ?_
            assumption
          · assumption
        clear_value t18
        clear_value w19
        clear_value w20
        have ht21 : Chg 0x800e820001b9008 x0 t21 := by
          unfold t21
          refine Chg.step (State.setEngine_chg _ _ _ _) rfl ?_
          assumption
        clear_value t21
        clear_value w22
        refine Chg.ite ?_ ?_
        · refine Chg.step (State.setEngine_chg _ _ _ _) rfl ?_
          assumption
        · refine Chg.ite ?_ ?_
          · refine Chg.step (State.engineOut_chg _ _ _) rfl ?_
            assumption
          · refine Chg.upd_fab rfl ?_
            assumption
      · assumption
    clear_value t9
    have ht10 : Chg 0x800e820001b9008 x0 t10 := by
      unfold t10
      refine Chg.foldl ?_ ?_
      · intro u27 u28 u29
        refine Chg.ite ?_ ?_
        · assumption
        · refine Chg.step (State.putConstant_chg _ _ _) rfl ?_
          assumption
      · assumption
    clear_value t10
    assumption
  · exact Chg.refl _ _


theorem State.takeTarget_chg (x0 : State) (x1 : Option NextGen) (x2 : Nat) (x3 : Nat) (x4 : Nat) (x5 : Nat) :
    Chg 0x800e820001b9008 x0 (State.takeTarget x0 x1 x2 x3 x4 x5) := by
  unfold State.takeTarget
  extract_lets t1
  have ht1 : Chg 0x800e820001b9008 x0 t1 := by
    unfold t1
    refine Chg.ite ?_ ?_
    · exact Chg.refl _ _
    · refine Chg.step (State.cloneCore_chg _ _ _) rfl ?_
      exact Chg.refl _ _
  clear_value t1
  split
  · assumption
  · refine Chg.step (State.genCore_chg _ _ _ _ _) rfl ?_
    assumption


theorem State.beginSwitching_chg (x0 : State) (x1 : Model) (x2 : StageRec) (x3 : List Nat) (x4 : Bool) :
    Chg 0xc00e830001f9008 x0 (State.beginSwitching x0 x1 x2 x3 x4) := by
  unfold State.beginSwitching
  extract_lets w1 t2 w3 t4
  clear_value w1
  have ht2 : Chg 0xc00e830001f9008 x0 t2 := by
    unfold t2
    refine Chg.step (State.leaveLookouts_chg _ _) rfl ?_
    exact Chg.refl _ _
  clear_value t2
  clear_value w3
  have ht4 : Chg 0xc00e830001f9008 x0 t4 := by
    unfold t4
    refine Chg.foldl ?_ ?_
    · intro u5 u6 u7
      refine Chg.step (State.takeTarget_chg _ _ _ _ _ _) rfl ?_
      assumption
    · assumption
  clear_value t4
  refine Chg.step (State.setModel_chg _ _) rfl ?_
  assumption


theorem State.dropTarget_chg (x0 : State) (x1 : Model) (x2 : Switching) (x3 : Nat) :
    Chg 0x40000 x0 (State.dropTarget x0 x1 x2 x3) := by
  unfold State.dropTarget
  refine Chg.step (State.setModel_chg _ _) rfl ?_
  exact Chg.refl _ _


theorem State.retarget_chg (x0 : State) :
    Chg 0xc00e830001f9008 x0 (State.retarget x0) := by
  unfold State.retarget
  refine Chg.foldl ?_ ?_
  · intro u1 u2 u3
    split
    · assumption
    · split
      · extract_lets w4 t5
        clear_value w4
        have ht5 : Chg 0xc00e830001f9008 x0 t5 := by
          unfold t5
          refine Chg.step (State.takeTarget_chg _ _ _ _ _ _) rfl ?_
          refine Chg.step (State.leaveLookouts_chg _ _) rfl ?_
          assumption
        clear_value t5
        refine Chg.step (State.setModel_chg _ _) rfl ?_
        assumption
      · assumption
  · exact Chg.refl _ _


theorem State.finishGen_chg (x0 : State) (x1 : Nat) (x2 : Nat) :
    Chg 0x808022008c40908 x0 (State.finishGen x0 x1 x2) := by
  unfold State.finishGen
  split
  · exact Chg.refl _ _
  · split
    · exact Chg.refl _ _
    · extract_lets w1 t2 w3 t4 t5 t6
      clear_value w1
      have ht2 : Chg 0x808022008c40908 x0 t2 := by
        unfold t2
        refine Chg.step (State.setModel_chg _ _) rfl ?_
        exact Chg.refl _ _
      clear_value t2
      clear_value w3
      have ht4 : Chg 0x808022008c40908 x0 t4 := by
        unfold t4
        refine Chg.upd_keep rfl ?_
        assumption
      clear_value t4
      have ht5 : Chg 0x808022008c40908 x0 t5 := by
        unfold t5
        refine Chg.step (State.log_chg _ _) rfl ?_
        assumption
      clear_value t5
      have ht6 : Chg 0x808022008c40908 x0 t6 := by
        unfold t6
        refine Chg.step (State.settleOff_chg _ _) rfl ?_
        assumption
      clear_value t6
      refine Chg.ite ?_ ?_
      · exact Chg.refl _ _
      · split
        · assumption
        · refine Chg.step (State.done_chg _ _ _ _) rfl ?_
          assumption


theorem State.nextStageSwitch_chg (x0 : State) (x1 : Nat) (x2 : Nat) (x3 : Nat) :
    Chg 0xc00ea30005f9908 x0 (State.nextStageSwitch x0 x1 x2 x3) := by
  induction' x3 with n ih generalizing x0
  · rw [State.nextStageSwitch]
    exact Chg.refl _ _
  · rw [State.nextStageSwitch]
    split
    · exact Chg.refl _ _
    · split
      · exact Chg.refl _ _
      · split
        · exact Chg.refl _ _
        · extract_lets w1 w2
          clear_value w1
          clear_value w2
          split
          · exact Chg.refl _ _
          · extract_lets t3
            have ht3 : Chg 0xc00ea30005f9908 x0 t3 := by
              unfold t3
              refine Chg.step (State.log_chg _ _) rfl ?_
              refine Chg.step (State.setModel_chg _ _) rfl ?_
              exact Chg.refl _ _
            clear_value t3
            refine Chg.ite ?_ ?_
            · refine Chg.step (ih _) rfl ?_
              refine Chg.step (State.askFrame_chg _ _ _) rfl ?_
              assumption
            · refine Chg.step (State.beginSwitching_chg _ _ _ _ _) rfl ?_
              exact Chg.refl _ _


theorem execSwitch_chg (x0 : Nat) (x1 : Nat) (x2 : State) :
    ChgR 0xc08ea3008df9908 x2 (execSwitch x0 x1 x2) := by
  unfold execSwitch
  extract_lets w1
  clear_value w1
  split
  · refine ChgR.next ?_
    exact Chg.refl _ _
  · extract_lets w2 w3 w4
    clear_value w2
    clear_value w3
    clear_value w4
    split
    · refine ChgR.next ?_
      refine Chg.step (State.done_chg _ _ _ _) rfl ?_
      exact Chg.refl _ _
    · split
      · refine ChgR.next ?_
        refine Chg.step (State.done_chg _ _ _ _) rfl ?_
        exact Chg.refl _ _
      · extract_lets t5 w6 t7
        have ht5 : Chg 0xc08ea3008df9908 x2 t5 := by
          unfold t5
          refine Chg.step (State.settleOn_chg _ _) rfl ?_
          refine Chg.step (State.begun_chg _ _ _) rfl ?_
          exact Chg.refl _ _
        clear_value t5
        clear_value w6
        have ht7 : Chg 0xc08ea3008df9908 x2 t7 := by
          unfold t7
          refine Chg.step (State.setModel_chg _ _) rfl ?_
          assumption
        clear_value t7
        refine ChgR.ite ?_ ?_
        · refine ChgR.next ?_
          refine Chg.step (State.done_chg _ _ _ _) rfl ?_
          exact Chg.refl _ _
        · refine ChgR.ite ?_ ?_
          · refine ChgR.next ?_
            refine Chg.step (State.done_chg _ _ _ _) rfl ?_
            exact Chg.refl _ _
          · refine ChgR.ite ?_ ?_
            · refine ChgR.next ?_
              exact Chg.refl _ _
            · refine ChgR.ite ?_ ?_
              · refine ChgR.next ?_
                refine Chg.step (State.nextStageSwitch_chg _ _ _ _) rfl ?_
                assumption
              · refine ChgR.next ?_
                refine Chg.step (State.askFrame_chg _ _ _) rfl ?_
                assumption


theorem execStageSwitchAdvance_chg (x0 : Nat) (x1 : Nat) (x2 : Nat) (x3 : State) :
    ChgR 0x3a20004db90c x3 (execStageSwitchAdvance x0 x1 x2 x3) := by
  unfold execStageSwitchAdvance
  split
  · refine ChgR.next ?_
    exact Chg.refl _ _
  · split
    · extract_lets w1 w2
      clear_value w1
      clear_value w2
      refine ChgR.ite ?_ ?_
      · refine ChgR.next ?_
        exact Chg.refl _ _
      · split
        refine ChgR.ite ?_ ?_
        · refine ChgR.next ?_
          refine Chg.of_fst (by assumption) ?_
          refine Chg.step (State.advancePlanned_chg _ _ _ _) rfl ?_
          exact Chg.refl _ _
        · refine ChgR.next ?_
          refine Chg.foldl ?_ ?_
          · intro u3 u4 u5
            refine Chg.step (State.coreStart_chg _ _) rfl ?_
            assumption
          · refine Chg.step (State.setModel_chg _ _) rfl ?_
            refine Chg.of_fst (by assumption) ?_
            refine Chg.step (State.advancePlanned_chg _ _ _ _) rfl ?_
            exact Chg.refl _ _
    · refine ChgR.next ?_
      exact Chg.refl _ _


theorem execOldPlacementRelease_chg (x0 : Nat) (x1 : Nat) (x2 : Nat) (x3 : State) :
    ChgR 0xc08ea3008dff908 x3 (execOldPlacementRelease x0 x1 x2 x3) := by
  unfold execOldPlacementRelease
  split
  · refine ChgR.next ?_
    exact Chg.refl _ _
  · split
    · extract_lets w1 t2 w3 t4 t5 t6
      clear_value w1
      have ht2 : Chg 0xc08ea3008dff908 x3 t2 := by
        unfold t2
        refine Chg.step (State.sendCloses_chg _ _ _ _) rfl ?_
        exact Chg.refl _ _
      clear_value t2
      clear_value w3
      have ht4 : Chg 0xc08ea3008dff908 x3 t4 := by
        unfold t4
        refine Chg.step (State.setModel_chg _ _) rfl ?_
        assumption
      clear_value t4
      have ht5 : Chg 0xc08ea3008dff908 x3 t5 := by
        unfold t5
        refine Chg.foldl ?_ ?_
        · intro u7 u8 u9
          refine Chg.step (State.vacate_chg _ _) rfl ?_
          assumption
        · assumption
      clear_value t5
      have ht6 : Chg 0xc08ea3008dff908 x3 t6 := by
        unfold t6
        refine Chg.step (State.retarget_chg _) rfl ?_
        refine Chg.step (State.designate_chg _) rfl ?_
        assumption
      clear_value t6
      refine ChgR.ite ?_ ?_
      · refine ChgR.next ?_
        exact Chg.refl _ _
      · refine ChgR.next ?_
        refine Chg.step (State.nextStageSwitch_chg _ _ _ _) rfl ?_
        refine Chg.step (State.finishGen_chg _ _ _) rfl ?_
        assumption
    · refine ChgR.next ?_
      exact Chg.refl _ _


theorem State.frameResume_chg (x0 : State) (x1 : Nat) :
    Chg 0x8083a2008c5b90c x0 (State.frameResume x0 x1) := by
  unfold State.frameResume
  extract_lets w1 w2 t3 t4
  clear_value w1
  clear_value w2
  have ht3 : Chg 0x8083a2008c5b90c x0 t3 := by
    unfold t3
    refine Chg.upd_keep rfl ?_
    exact Chg.refl _ _
  clear_value t3
  have ht4 : Chg 0x8083a2008c5b90c x0 t4 := by
    unfold t4
    refine Chg.foldl ?_ ?_
    · intro u5 u6 u7
      extract_lets t8
      have ht8 : Chg 0x8083a2008c5b90c x0 t8 := by
        unfold t8
        refine Chg.step (State.coreStart_chg _ _) rfl ?_
        assumption
      clear_value t8
      refine Chg.ite ?_ ?_
      · refine Chg.step (State.coreAsk_chg _ _ _) rfl ?_
        assumption
      · assumption
    · assumption
  clear_value t4
  refine Chg.ite ?_ ?_
  · exact Chg.refl _ _
  · refine Chg.foldl ?_ ?_
    · intro u9 u10 u11
      refine Chg.step (State.finishGen_chg _ _ _) rfl ?_
      assumption
    · assumption


theorem State.pauseLoads_chg (x0 : State) (x1 : Bool) :
    Chg 0x4000 x0 (State.pauseLoads x0 x1) := by
  unfold State.pauseLoads
  refine Chg.foldl ?_ ?_
  · intro u1 u2 u3
    extract_lets w4
    clear_value w4
    split
    · refine Chg.ite ?_ ?_
      · refine Chg.step (State.setRst_chg _ _ _) rfl ?_
        assumption
      · assumption
    · assumption
  · exact Chg.refl _ _


theorem State.mirrorEngines_chg (x0 : State) (x1 : Nat) (x2 : Nat) :
    Chg 0x800c81000081008 x0 (State.mirrorEngines x0 x1 x2) := by
  unfold State.mirrorEngines
  extract_lets w1 w2 w3 w4 t5 t6 t7 t8 t9
  clear_value w1
  clear_value w2
  clear_value w3
  clear_value w4
  have ht5 : Chg 0x800c81000081008 x0 t5 := by
    unfold t5
    refine Chg.step (State.setLookout_chg _ _ _) rfl ?_
    exact Chg.refl _ _
  clear_value t5
  have ht6 : Chg 0x800c81000081008 x0 t6 := by
    unfold t6
    refine Chg.ite ?_ ?_
    · refine Chg.step (State.fset_chg _ _ _ _) rfl ?_
      assumption
    · assumption
  clear_value t6
  have ht7 : Chg 0x800c81000081008 x0 t7 := by
    unfold t7
    refine Chg.step (State.fset_chg _ _ _ _) rfl ?_
    assumption
  clear_value t7
  have ht8 : Chg 0x800c81000081008 x0 t8 := by
    unfold t8
    refine Chg.step (State.fset_chg _ _ _ _) rfl ?_
    assumption
  clear_value t8
  have ht9 : Chg 0x800c81000081008 x0 t9 := by
    unfold t9
    refine Chg.step (State.fset_chg _ _ _ _) rfl ?_
    assumption
  clear_value t9
  refine Chg.foldl ?_ ?_
  · intro u10 u11 u12
    extract_lets w13 w14 w15 t16 t17 w18
    clear_value w13
    clear_value w14
    clear_value w15
    have ht16 : Chg 0x800c81000081008 x0 t16 := by
      unfold t16
      refine Chg.foldl_mem ?_ ?_
      · intro u19 u20 u21 u22
        refine Chg.step (State.fset_chg _ _ _ _) (mem_fld (by assumption) rfl) ?_
        assumption
      · assumption
    clear_value t16
    have ht17 : Chg 0x800c81000081008 x0 t17 := by
      unfold t17
      refine Chg.step (State.setEngine_chg _ _ _ _) rfl ?_
      assumption
    clear_value t17
    clear_value w18
    refine Chg.ite ?_ ?_
    · refine Chg.upd_fab rfl ?_
      assumption
    · refine Chg.step (State.engineOut_chg _ _ _) rfl ?_
      assumption
  · assumption


theorem execBulkLoad_chg (x0 : Nat) (x1 : Nat) (x2 : Sys2Proof.BulkKind) (x3 : State) :
    ChgR 0x800c81000085008 x3 (execBulkLoad x0 x1 x2 x3) := by
  unfold execBulkLoad
  extract_lets t1 t2 w3 w4 t5 t6
  have ht1 : Chg 0x800c81000085008 x3 t1 := by
    unfold t1
    refine Chg.ite ?_ ?_
    · refine Chg.step (State.mirrorEngines_chg _ _ _) rfl ?_
      exact Chg.refl _ _
    · refine Chg.ite ?_ ?_
      · refine Chg.step (State.mirrorEngines_chg _ _ _) rfl ?_
        exact Chg.refl _ _
      · exact Chg.refl _ _
  clear_value t1
  have ht2 : Chg 0x800c81000085008 x3 t2 := by
    unfold t2
    refine Chg.ite ?_ ?_
    · refine Chg.step (State.pauseLoads_chg _ _) rfl ?_
      assumption
    · assumption
  clear_value t2
  clear_value w3
  clear_value w4
  have ht5 : Chg 0x800c81000085008 x3 t5 := by
    unfold t5
    refine Chg.ite ?_ ?_
    · refine Chg.step (State.count_chg _ _ _) rfl ?_
      assumption
    · assumption
  clear_value t5
  have ht6 : Chg 0x800c81000085008 x3 t6 := by
    unfold t6
    refine Chg.step (State.setRst_chg _ _ _) rfl ?_
    assumption
  clear_value t6
  refine ChgR.ite ?_ ?_
  · refine ChgR.next ?_
    exact Chg.refl _ _
  · refine ChgR.next ?_
    refine Chg.step (State.fset_chg _ _ _ _) rfl ?_
    assumption


theorem State.bulkEngine_chg (x0 : State) (x1 : Nat) (x2 : Nat) (x3 : Nat) (x4 : Option Nat) :
    Chg 0x43a421089e99908 x0 (State.bulkEngine x0 x1 x2 x3 x4) := by
  unfold State.bulkEngine
  extract_lets w1 w2 t3 w4 t5
  clear_value w1
  clear_value w2
  have ht3 : Chg 0x43a421089e99908 x0 t3 := by
    unfold t3
    refine Chg.foldl ?_ ?_
    · intro u6 u7 u8
      refine Chg.ite ?_ ?_
      · assumption
      · refine Chg.step (State.rewriteRow_chg _ _ _ _ _) rfl ?_
        assumption
    · exact Chg.refl _ _
  clear_value t3
  clear_value w4
  have ht5 : Chg 0x43a421089e99908 x0 t5 := by
    unfold t5
    refine Chg.step (State.setEngine_chg _ _ _ _) rfl ?_
    assumption
  clear_value t5
  split
  · refine Chg.step (State.digestMismatch_chg _ _ _) rfl ?_
    refine Chg.step (State.memUe_chg _ _) rfl ?_
    assumption
  · refine Chg.step (State.checkDigest_chg _ _ _ _) rfl ?_
    assumption


theorem execBulkLoadDone_chg (x0 : Sys2Proof.BulkEnd) (x1 : State) :
    ChgR 0xc3a7a3089edf90c x1 (execBulkLoadDone x0 x1) := by
  unfold execBulkLoadDone
  extract_lets w1 w2
  clear_value w1
  clear_value w2
  split
  · refine ChgR.next ?_
    exact Chg.refl _ _
  · extract_lets t3 w4 t5 t6 w7 t8 w9
    have ht3 : Chg 0xc3a7a3089edf90c x1 t3 := by
      unfold t3
      refine Chg.foldl ?_ ?_
      · intro u10 u11 u12
        refine Chg.step (State.bulkEngine_chg _ _ _ _ _) rfl ?_
        assumption
      · exact Chg.refl _ _
    clear_value t3
    clear_value w4
    have ht5 : Chg 0xc3a7a3089edf90c x1 t5 := by
      unfold t5
      refine Chg.step (State.setRst_chg _ _ _) rfl ?_
      assumption
    clear_value t5
    have ht6 : Chg 0xc3a7a3089edf90c x1 t6 := by
      unfold t6
      refine Chg.step (State.fset_chg _ _ _ _) rfl ?_
      assumption
    clear_value t6
    clear_value w7
    have ht8 : Chg 0xc3a7a3089edf90c x1 t8 := by
      unfold t8
      refine Chg.upd_rel rfl ?_
      assumption
    clear_value t8
    clear_value w9
    refine ChgR.ite ?_ ?_
    · refine ChgR.next ?_
      exact Chg.refl _ _
    · split
      · refine ChgR.next ?_
        refine Chg.ite ?_ ?_
        · assumption
        · refine Chg.step (State.pauseLoads_chg _ _) rfl ?_
          assumption
      · split
        · refine ChgR.next ?_
          assumption
        · extract_lets t13 t14 w15
          have ht13 : Chg 0xc3a7a3089edf90c x1 t13 := by
            unfold t13
            refine Chg.step (State.fset_chg _ _ _ _) (by unfold lookState; split <;> rfl) ?_
            assumption
          clear_value t13
          have ht14 : Chg 0xc3a7a3089edf90c x1 t14 := by
            unfold t14
            refine Chg.step (State.fset_chg _ _ _ _) rfl ?_
            assumption
          clear_value t14
          clear_value w15
          refine ChgR.next ?_
          refine Chg.step (State.setLookout_chg _ _ _) rfl ?_
          assumption
      · refine ChgR.next ?_
        refine Chg.step (State.frameResume_chg _ _) rfl ?_
        assumption
      · refine ChgR.next ?_
        assumption


theorem State.setCport_chg (x0 : State) (x1 : Nat) (x2 : CnpPort) :
    Chg 0x400000000 x0 (State.setCport x0 x1 x2) := by
  unfold State.setCport
  extract_lets w1
  clear_value w1
  refine Chg.upd_cnp rfl ?_
  exact Chg.refl _ _


theorem State.setPort_chg (x0 : State) (x1 : Nat) (x2 : Nat) :
    Chg 0x80000000000008 x0 (State.setPort x0 x1 x2) := by
  unfold State.setPort
  refine Chg.step (State.fset_chg _ _ _ _) rfl ?_
  exact Chg.refl _ _


theorem State.fencePort_chg (x0 : State) (x1 : Nat) (x2 : Nat) :
    Chg 0x80020400400908 x0 (State.fencePort x0 x1 x2) := by
  unfold State.fencePort
  extract_lets w1 t2 t3 t4 t5
  clear_value w1
  have ht2 : Chg 0x80020400400908 x0 t2 := by
    unfold t2
    refine Chg.step (State.setCport_chg _ _ _) rfl ?_
    exact Chg.refl _ _
  clear_value t2
  have ht3 : Chg 0x80020400400908 x0 t3 := by
    unfold t3
    refine Chg.step (State.setPort_chg _ _ _) rfl ?_
    assumption
  clear_value t3
  have ht4 : Chg 0x80020400400908 x0 t4 := by
    unfold t4
    refine Chg.step (State.fset_chg _ _ _ _) rfl ?_
    assumption
  clear_value t4
  have ht5 : Chg 0x80020400400908 x0 t5 := by
    unfold t5
    refine Chg.step (State.flag_chg _ _ _) rfl ?_
    assumption
  clear_value t5
  refine Chg.step (State.log_chg _ _) rfl ?_
  assumption


theorem State.dropPort_chg (x0 : State) (x1 : Nat) :
    Chg 0x80020400400908 x0 (State.dropPort x0 x1) := by
  unfold State.dropPort
  extract_lets w1 t2 t3 t4 t5
  clear_value w1
  have ht2 : Chg 0x80020400400908 x0 t2 := by
    unfold t2
    refine Chg.step (State.setCport_chg _ _ _) rfl ?_
    exact Chg.refl _ _
  clear_value t2
  have ht3 : Chg 0x80020400400908 x0 t3 := by
    unfold t3
    refine Chg.step (State.fset_chg _ _ _ _) rfl ?_
    assumption
  clear_value t3
  have ht4 : Chg 0x80020400400908 x0 t4 := by
    unfold t4
    refine Chg.step (State.fset_chg _ _ _ _) rfl ?_
    assumption
  clear_value t4
  have ht5 : Chg 0x80020400400908 x0 t5 := by
    unfold t5
    refine Chg.ite ?_ ?_
    · refine Chg.step (State.log_chg _ _) rfl ?_
      assumption
    · assumption
  clear_value t5
  refine Chg.step (State.setPort_chg _ _ _) rfl ?_
  assumption


theorem State.bringUp_chg (x0 : State) (x1 : Nat) :
    Chg 0x80020400400908 x0 (State.bringUp x0 x1) := by
  unfold State.bringUp
  refine Chg.ite ?_ ?_
  · refine Chg.step (State.setPort_chg _ _ _) rfl ?_
    exact Chg.refl _ _
  · refine Chg.ite ?_ ?_
    · refine Chg.step (State.fencePort_chg _ _ _) rfl ?_
      exact Chg.refl _ _
    · refine Chg.ite ?_ ?_
      · exact Chg.refl _ _
      · refine Chg.step (State.fset_chg _ _ _ _) rfl ?_
        refine Chg.step (State.setPort_chg _ _ _) rfl ?_
        refine Chg.step (State.setCport_chg _ _ _) rfl ?_
        exact Chg.refl _ _


theorem execCnpStart_chg (x0 : State) :
    ChgR 0x80020400400908 x0 (execCnpStart x0) := by
  unfold execCnpStart
  extract_lets w1 w2 t3 t4 t5
  clear_value w1
  clear_value w2
  have ht3 : Chg 0x80020400400908 x0 t3 := by
    unfold t3
    refine Chg.upd_cnp rfl ?_
    exact Chg.refl _ _
  clear_value t3
  have ht4 : Chg 0x80020400400908 x0 t4 := by
    unfold t4
    refine Chg.step (State.flag_chg _ _ _) rfl ?_
    exact Chg.refl _ _
  clear_value t4
  have ht5 : Chg 0x80020400400908 x0 t5 := by
    unfold t5
    refine Chg.step (State.fset_chg _ _ _ _) rfl ?_
    assumption
  clear_value t5
  refine ChgR.ite ?_ ?_
  · refine ChgR.next ?_
    refine Chg.foldl ?_ ?_
    · intro u6 u7 u8
      refine Chg.step (State.bringUp_chg _ _) rfl ?_
      assumption
    · assumption
  · refine ChgR.next ?_
    refine Chg.step (State.log_chg _ _) rfl ?_
    assumption


theorem execCnpStop_chg (x0 : State) :
    ChgR 0x80020400400908 x0 (execCnpStop x0) := by
  unfold execCnpStop
  extract_lets w1 t2
  clear_value w1
  have ht2 : Chg 0x80020400400908 x0 t2 := by
    unfold t2
    refine Chg.upd_cnp rfl ?_
    exact Chg.refl _ _
  clear_value t2
  refine ChgR.next ?_
  refine Chg.foldl ?_ ?_
  · intro u3 u4 u5
    refine Chg.ite ?_ ?_
    · assumption
    · refine Chg.step (State.dropPort_chg _ _) rfl ?_
      assumption
  · assumption


theorem execPortTrained_chg (x0 : Nat) (x1 : State) :
    ChgR 0x400000800 x1 (execPortTrained x0 x1) := by
  unfold execPortTrained
  extract_lets w1
  clear_value w1
  refine ChgR.ite ?_ ?_
  · refine ChgR.next ?_
    exact Chg.refl _ _
  · refine ChgR.next ?_
    refine Chg.step (State.emit_chg _ _) rfl ?_
    refine Chg.step (State.setCport_chg _ _ _) rfl ?_
    exact Chg.refl _ _


theorem State.sendOffer_chg (x0 : State) (x1 : Nat) (x2 : Nat) :
    Chg 0x400000804 x0 (State.sendOffer x0 x1 x2) := by
  unfold State.sendOffer
  extract_lets w1 t2 w3 w4 w5
  clear_value w1
  have ht2 : Chg 0x400000804 x0 t2 := by
    unfold t2
    refine Chg.step (State.draw_chg _ _) rfl ?_
    exact Chg.refl _ _
  clear_value t2
  clear_value w3
  clear_value w4
  clear_value w5
  refine Chg.step (State.emit_chg _ _) rfl ?_
  refine Chg.step (State.setCport_chg _ _ _) rfl ?_
  assumption


theorem execInitFrame_chg (x0 : Nat) (x1 : Sys2Proof.InitInfo) (x2 : State) :
    ChgR 0x8002040040090c x2 (execInitFrame x0 x1 x2) := by
  unfold execInitFrame
  extract_lets w1 t2 t3 t4 t5 t6 t7 w8 t9 t10
  clear_value w1
  have ht2 : Chg 0x8002040040090c x2 t2 := by
    unfold t2
    refine Chg.step (State.fset_chg _ _ _ _) rfl ?_
    exact Chg.refl _ _
  clear_value t2
  have ht3 : Chg 0x8002040040090c x2 t3 := by
    unfold t3
    refine Chg.step (State.fset_chg _ _ _ _) rfl ?_
    assumption
  clear_value t3
  have ht4 : Chg 0x8002040040090c x2 t4 := by
    unfold t4
    refine Chg.step (State.fset_chg _ _ _ _) rfl ?_
    assumption
  clear_value t4
  have ht5 : Chg 0x8002040040090c x2 t5 := by
    unfold t5
    refine Chg.step (State.fset_chg _ _ _ _) rfl ?_
    assumption
  clear_value t5
  have ht6 : Chg 0x8002040040090c x2 t6 := by
    unfold t6
    refine Chg.step (State.fset_chg _ _ _ _) rfl ?_
    assumption
  clear_value t6
  have ht7 : Chg 0x8002040040090c x2 t7 := by
    unfold t7
    refine Chg.step (State.emit_chg _ _) rfl ?_
    assumption
  clear_value t7
  clear_value w8
  have ht9 : Chg 0x8002040040090c x2 t9 := by
    unfold t9
    refine Chg.step (State.setPort_chg _ _ _) rfl ?_
    assumption
  clear_value t9
  have ht10 : Chg 0x8002040040090c x2 t10 := by
    unfold t10
    refine Chg.step (State.setCport_chg _ _ _) rfl ?_
    assumption
  clear_value t10
  refine ChgR.ite ?_ ?_
  · refine ChgR.next ?_
    exact Chg.refl _ _
  · refine ChgR.ite ?_ ?_
    · refine ChgR.next ?_
      refine Chg.step (State.fencePort_chg _ _ _) rfl ?_
      assumption
    · refine ChgR.next ?_
      refine Chg.step (State.sendOffer_chg _ _ _) rfl ?_
      assumption


theorem execKeyOffer_chg (x0 : Nat) (x1 : Sys2Proof.KeyOffer) (x2 : State) :
    ChgR 0x400000804 x2 (execKeyOffer x0 x1 x2) := by
  unfold execKeyOffer
  extract_lets w1 t2 w3
  clear_value w1
  have ht2 : Chg 0x400000804 x2 t2 := by
    unfold t2
    refine Chg.ite ?_ ?_
    · refine Chg.step (State.sendOffer_chg _ _ _) rfl ?_
      exact Chg.refl _ _
    · exact Chg.refl _ _
  clear_value t2
  clear_value w3
  refine ChgR.ite ?_ ?_
  · refine ChgR.next ?_
    exact Chg.refl _ _
  · split
    · refine ChgR.next ?_
      assumption
    · refine ChgR.next ?_
      refine Chg.step (State.emit_chg _ _) rfl ?_
      refine Chg.step (State.setCport_chg _ _ _) rfl ?_
      assumption


theorem execKeyConfirm_chg (x0 : Nat) (x1 : List Nat) (x2 : State) :
    ChgR 0x80020400400908 x2 (execKeyConfirm x0 x1 x2) := by
  unfold execKeyConfirm
  extract_lets w1 w2
  clear_value w1
  clear_value w2
  refine ChgR.ite ?_ ?_
  · refine ChgR.next ?_
    exact Chg.refl _ _
  · split
    · extract_lets w3 w4 w5 t6 t7
      clear_value w3
      clear_value w4
      clear_value w5
      have ht6 : Chg 0x80020400400908 x2 t6 := by
        unfold t6
        refine Chg.step (State.setCport_chg _ _ _) rfl ?_
        exact Chg.refl _ _
      clear_value t6
      have ht7 : Chg 0x80020400400908 x2 t7 := by
        unfold t7
        refine Chg.step (State.fset_chg _ _ _ _) rfl ?_
        assumption
      clear_value t7
      refine ChgR.ite ?_ ?_
      · refine ChgR.next ?_
        refine Chg.step (State.fencePort_chg _ _ _) rfl ?_
        exact Chg.refl _ _
      · refine ChgR.ite ?_ ?_
        · refine ChgR.next ?_
          assumption
        · refine ChgR.next ?_
          refine Chg.step (State.log_chg _ _) rfl ?_
          refine Chg.step (State.setPort_chg _ _ _) rfl ?_
          assumption
    · refine ChgR.next ?_
      exact Chg.refl _ _


theorem execKeyRenewal_chg (x0 : Nat) (x1 : State) :
    ChgR 0x400000804 x1 (execKeyRenewal x0 x1) := by
  unfold execKeyRenewal
  extract_lets w1
  clear_value w1
  split
  · refine ChgR.next ?_
    exact Chg.refl _ _
  · refine ChgR.ite ?_ ?_
    · refine ChgR.next ?_
      exact Chg.refl _ _
    · refine ChgR.next ?_
      refine Chg.step (State.sendOffer_chg _ _ _) rfl ?_
      exact Chg.refl _ _


theorem execFenceRetry_chg (x0 : Nat) (x1 : State) :
    ChgR 0x80020400400908 x1 (execFenceRetry x0 x1) := by
  unfold execFenceRetry
  extract_lets w1
  clear_value w1
  refine ChgR.ite ?_ ?_
  · refine ChgR.next ?_
    exact Chg.refl _ _
  · refine ChgR.next ?_
    refine Chg.step (State.bringUp_chg _ _) rfl ?_
    exact Chg.refl _ _


theorem execPortDown_chg (x0 : Nat) (x1 : State) :
    ChgR 0x80020400400908 x1 (execPortDown x0 x1) := by
  unfold execPortDown
  refine ChgR.ite ?_ ?_
  · refine ChgR.next ?_
    refine Chg.step (State.dropPort_chg _ _) rfl ?_
    exact Chg.refl _ _
  · refine ChgR.next ?_
    exact Chg.refl _ _


theorem execModuleFault_chg (x0 : Nat) (x1 : Bool) (x2 : State) :
    ChgR 0x80020400400908 x2 (execModuleFault x0 x1 x2) := by
  unfold execModuleFault
  extract_lets w1 t2
  clear_value w1
  have ht2 : Chg 0x80020400400908 x2 t2 := by
    unfold t2
    refine Chg.ite ?_ ?_
    · exact Chg.refl _ _
    · refine Chg.upd_cnp rfl ?_
      exact Chg.refl _ _
  clear_value t2
  refine ChgR.ite ?_ ?_
  · refine ChgR.next ?_
    exact Chg.refl _ _
  · refine ChgR.ite ?_ ?_
    · refine ChgR.next ?_
      refine Chg.upd_cnp rfl ?_
      exact Chg.refl _ _
    · refine ChgR.next ?_
      refine Chg.foldl ?_ ?_
      · intro u3 u4 u5
        refine Chg.ite ?_ ?_
        · assumption
        · refine Chg.step (State.fencePort_chg _ _ _) rfl ?_
          assumption
      · assumption


theorem State.noRoute_chg (x0 : State) :
    Chg 0x80020000400f08 x0 (State.noRoute x0) := by
  unfold State.noRoute
  refine Chg.step (State.logRate_chg _ _ _ _) rfl ?_
  refine Chg.step (State.count_chg _ _ _) rfl ?_
  exact Chg.refl _ _


theorem State.queueFlits_chg (x0 : State) (x1 : Nat) (x2 : Nat) (x3 : List (List Nat)) :
    Chg 0x400000000 x0 (State.queueFlits x0 x1 x2 x3) := by
  unfold State.queueFlits
  extract_lets w1
  clear_value w1
  refine Chg.step (State.setCport_chg _ _ _) rfl ?_
  exact Chg.refl _ _


theorem State.canopySend_chg (x0 : State) (x1 : Packet) :
    Chg 0x80020440480f08 x0 (State.canopySend x0 x1) := by
  unfold State.canopySend
  extract_lets w1 w2 t3
  clear_value w2
  have ht3 : Chg 0x80020440480f08 x0 t3 := by
    unfold t3
    refine Chg.ite ?_ ?_
    · refine Chg.step (State.setLane_chg _ _ _) rfl ?_
      exact Chg.refl _ _
    · exact Chg.refl _ _
  clear_value t3
  split
  · refine Chg.step (State.noRoute_chg _) rfl ?_
    unfold w1
    extract_lets w4
    clear_value w4
    refine Chg.upd_fab rfl ?_
    exact Chg.refl _ _
  · refine Chg.ite ?_ ?_
    · exact Chg.refl _ _
    · refine Chg.step (State.queueFlits_chg _ _ _ _) rfl ?_
      unfold w1
      extract_lets w5
      clear_value w5
      refine Chg.upd_fab rfl ?_
      assumption


theorem State.sendFrame_chg (x0 : State) (x1 : Nat) :
    Chg 0x400000800 x0 (State.sendFrame x0 x1) := by
  unfold State.sendFrame
  extract_lets w1 w2 w3
  clear_value w1
  clear_value w2
  clear_value w3
  split
  · exact Chg.refl _ _
  · refine Chg.ite ?_ ?_
    · exact Chg.refl _ _
    · split
      split
      · extract_lets w4 w5 w6
        clear_value w4
        clear_value w5
        clear_value w6
        refine Chg.step (State.emit_chg _ _) rfl ?_
        refine Chg.step (State.setCport_chg _ _ _) rfl ?_
        exact Chg.refl _ _
      · extract_lets w7
        clear_value w7
        refine Chg.ite ?_ ?_
        · refine Chg.step (State.emit_chg _ _) rfl ?_
          refine Chg.step (State.setCport_chg _ _ _) rfl ?_
          exact Chg.refl _ _
        · exact Chg.refl _ _


theorem State.canopyTick_chg (x0 : State) :
    Chg 0x80020440480f08 x0 (State.canopyTick x0) := by
  unfold State.canopyTick
  extract_lets t1
  have ht1 : Chg 0x80020440480f08 x0 t1 := by
    unfold t1
    refine Chg.foldl ?_ ?_
    · intro u2 u3 u4
      refine Chg.step (State.canopySend_chg _ _) rfl ?_
      assumption
    · exact Chg.refl _ _
  clear_value t1
  refine Chg.foldl ?_ ?_
  · intro u5 u6 u7
    refine Chg.step (State.sendFrame_chg _ _) rfl ?_
    assumption
  · assumption


theorem State.resendFrames_chg (x0 : State) (x1 : Nat) :
    Chg 0x80000400000808 x0 (State.resendFrames x0 x1) := by
  unfold State.resendFrames
  extract_lets w1 t2 t3
  clear_value w1
  have ht2 : Chg 0x80000400000808 x0 t2 := by
    unfold t2
    refine Chg.step (State.countN_chg _ _ _ _) rfl ?_
    exact Chg.refl _ _
  clear_value t2
  have ht3 : Chg 0x80000400000808 x0 t3 := by
    unfold t3
    refine Chg.foldl ?_ ?_
    · intro u4 u5 u6
      refine Chg.step (State.emit_chg _ _) rfl ?_
      assumption
    · assumption
  clear_value t3
  refine Chg.step (State.setCport_chg _ _ _) rfl ?_
  assumption


theorem execCnpAckTimeout_chg (x0 : Nat) (x1 : State) :
    ChgR 0x80000400000808 x1 (execCnpAckTimeout x0 x1) := by
  unfold execCnpAckTimeout
  extract_lets w1
  clear_value w1
  refine ChgR.ite ?_ ?_
  · refine ChgR.next ?_
    exact Chg.refl _ _
  · refine ChgR.next ?_
    refine Chg.step (State.resendFrames_chg _ _) rfl ?_
    exact Chg.refl _ _


theorem State.unbound_chg (x0 : State) (x1 : Packet) :
    Chg 0x80020000480f08 x0 (State.unbound x0 x1) := by
  unfold State.unbound
  extract_lets t1 t2
  have ht1 : Chg 0x80020000480f08 x0 t1 := by
    unfold t1
    refine Chg.step (State.count_chg _ _ _) rfl ?_
    exact Chg.refl _ _
  clear_value t1
  have ht2 : Chg 0x80020000480f08 x0 t2 := by
    unfold t2
    refine Chg.step (State.logRate_chg _ _ _ _) rfl ?_
    assumption
  clear_value t2
  refine Chg.step (State.receipt_chg _ _ _) rfl ?_
  assumption


theorem State.followEpoch_chg (x0 : State) (x1 : Packet) :
    Chg 0x80000 x0 (State.followEpoch x0 x1) := by
  unfold State.followEpoch
  extract_lets w1
  clear_value w1
  split
  · refine Chg.step (State.setEntryEpoch_chg _ _ _) rfl ?_
    exact Chg.refl _ _
  · refine Chg.ite ?_ ?_
    · refine Chg.step (State.setEntryEpoch_chg _ _ _) rfl ?_
      exact Chg.refl _ _
    · exact Chg.refl _ _


theorem State.deliverPeer_chg (x0 : State) (x1 : Packet) :
    Chg 0x80020000480f08 x0 (State.deliverPeer x0 x1) := by
  unfold State.deliverPeer
  extract_lets w1
  split
  · split
    · exact Chg.refl _ _
    · unfold w1
      refine Chg.step (State.post_chg _ _) rfl ?_
      exact Chg.refl _ _
  · split
    · refine Chg.step (State.unbound_chg _ _) rfl ?_
      exact Chg.refl _ _
    · extract_lets w2
      clear_value w2
      unfold w1
      refine Chg.step (State.post_chg _ _) rfl ?_
      refine Chg.step (State.followEpoch_chg _ _) rfl ?_
      exact Chg.refl _ _
  · split
    · refine Chg.step (State.unbound_chg _ _) rfl ?_
      exact Chg.refl _ _
    · unfold w1
      refine Chg.step (State.post_chg _ _) rfl ?_
      exact Chg.refl _ _
  · unfold w1
    refine Chg.step (State.post_chg _ _) rfl ?_
    exact Chg.refl _ _
  · unfold w1
    refine Chg.step (State.post_chg _ _) rfl ?_
    exact Chg.refl _ _
  · unfold w1
    refine Chg.step (State.post_chg _ _) rfl ?_
    exact Chg.refl _ _
  · unfold w1
    refine Chg.step (State.post_chg _ _) rfl ?_
    exact Chg.refl _ _
  · unfold w1
    refine Chg.step (State.post_chg _ _) rfl ?_
    exact Chg.refl _ _
  · exact Chg.refl _ _


theorem State.digestErr_chg (x0 : State) (x1 : Packet) :
    Chg 0x480021000480908 x0 (State.digestErr x0 x1) := by
  unfold State.digestErr
  extract_lets t1 t2 t3
  have ht1 : Chg 0x480021000480908 x0 t1 := by
    unfold t1
    refine Chg.step (State.count_chg _ _ _) rfl ?_
    exact Chg.refl _ _
  clear_value t1
  have ht2 : Chg 0x480021000480908 x0 t2 := by
    unfold t2
    refine Chg.step (State.log_chg _ _) rfl ?_
    assumption
  clear_value t2
  have ht3 : Chg 0x480021000480908 x0 t3 := by
    unfold t3
    refine Chg.ite ?_ ?_
    · refine Chg.step (State.fault_chg _ _ _) rfl ?_
      assumption
    · assumption
  clear_value t3
  refine Chg.ite ?_ ?_
  · refine Chg.step (State.receipt_chg _ _ _) rfl ?_
    assumption
  · assumption


theorem State.peerPacket_chg (x0 : State) (x1 : PktType) (x2 : List Nat) (x3 : List Nat) :
    Chg 0x480021400480f08 x0 (State.peerPacket x0 x1 x2 x3) := by
  unfold State.peerPacket
  extract_lets w1 w2 w3 w4 w5 w6 w7 t8
  clear_value w1
  clear_value w2
  clear_value w3
  clear_value w4
  clear_value w5
  clear_value w6
  clear_value w7
  have ht8 : Chg 0x480021400480f08 x0 t8 := by
    unfold t8
    refine Chg.upd_cnp rfl ?_
    exact Chg.refl _ _
  clear_value t8
  refine Chg.ite ?_ ?_
  · refine Chg.step (State.digestErr_chg _ _) rfl ?_
    exact Chg.refl _ _
  · refine Chg.ite ?_ ?_
    · exact Chg.refl _ _
    · refine Chg.ite ?_ ?_
      · refine Chg.step (State.deliverPeer_chg _ _) rfl ?_
        assumption
      · refine Chg.upd_cnp rfl ?_
        exact Chg.refl _ _


theorem State.forward_chg (x0 : State) (x1 : Nat) (x2 : Nat) (x3 : List Nat) (x4 : List (List Nat)) :
    Chg 0x80020400400f08 x0 (State.forward x0 x1 x2 x3 x4) := by
  unfold State.forward
  refine Chg.ite ?_ ?_
  · refine Chg.step (State.count_chg _ _ _) rfl ?_
    exact Chg.refl _ _
  · split
    · refine Chg.step (State.noRoute_chg _) rfl ?_
      exact Chg.refl _ _
    · extract_lets w1 w2
      clear_value w1
      clear_value w2
      refine Chg.step (State.queueFlits_chg _ _ _ _) rfl ?_
      exact Chg.refl _ _


theorem State.takePackets_chg (x0 : State) (x1 : Nat) (x2 : Nat) (x3 : Nat) :
    Chg 0x480021400480f08 x0 (State.takePackets x0 x1 x2 x3) := by
  induction' x3 with n ih generalizing x0
  · rw [State.takePackets]
    exact Chg.refl _ _
  · rw [State.takePackets]
    split
    · exact Chg.refl _ _
    · extract_lets w1 t2 w3 t4
      clear_value w1
      have ht2 : Chg 0x480021400480f08 x0 t2 := by
        unfold t2
        refine Chg.step (State.setCport_chg _ _ _) rfl ?_
        exact Chg.refl _ _
      clear_value t2
      clear_value w3
      have ht4 : Chg 0x480021400480f08 x0 t4 := by
        unfold t4
        split
        · refine Chg.step (State.count_chg _ _ _) rfl ?_
          assumption
        · refine Chg.ite ?_ ?_
          · refine Chg.step (State.peerPacket_chg _ _ _ _) rfl ?_
            assumption
          · refine Chg.step (State.forward_chg _ _ _ _ _) rfl ?_
            assumption
      clear_value t4
      refine Chg.ite ?_ ?_
      · exact Chg.refl _ _
      · refine Chg.step (ih _) rfl ?_
        assumption


theorem State.badFrame_chg (x0 : State) (x1 : Nat) :
    Chg 0x80020400400908 x0 (State.badFrame x0 x1) := by
  unfold State.badFrame
  extract_lets w1 t2
  clear_value w1
  have ht2 : Chg 0x80020400400908 x0 t2 := by
    unfold t2
    refine Chg.step (State.setCport_chg _ _ _) rfl ?_
    exact Chg.refl _ _
  clear_value t2
  refine Chg.ite ?_ ?_
  · refine Chg.step (State.dropPort_chg _ _) rfl ?_
    assumption
  · assumption


theorem State.badTag_chg (x0 : State) (x1 : Nat) :
    Chg 0x80020400400f08 x0 (State.badTag x0 x1) := by
  unfold State.badTag
  extract_lets t1 t2 w3 w4 t5
  have ht1 : Chg 0x80020400400f08 x0 t1 := by
    unfold t1
    refine Chg.step (State.count_chg _ _ _) rfl ?_
    exact Chg.refl _ _
  clear_value t1
  have ht2 : Chg 0x80020400400f08 x0 t2 := by
    unfold t2
    refine Chg.step (State.logRate_chg _ _ _ _) rfl ?_
    assumption
  clear_value t2
  clear_value w3
  clear_value w4
  have ht5 : Chg 0x80020400400f08 x0 t5 := by
    unfold t5
    refine Chg.step (State.setCport_chg _ _ _) rfl ?_
    assumption
  clear_value t5
  refine Chg.ite ?_ ?_
  · refine Chg.step (State.fencePort_chg _ _ _) rfl ?_
    assumption
  · refine Chg.step (State.badFrame_chg _ _) rfl ?_
    assumption


theorem State.frameBack_chg (x0 : State) (x1 : Nat) (x2 : List Nat) :
    Chg 0x80000400000808 x0 (State.frameBack x0 x1 x2) := by
  unfold State.frameBack
  extract_lets w1 w2 w3 w4 w5 w6 t7
  clear_value w1
  clear_value w3
  clear_value w5
  clear_value w6
  have ht7 : Chg 0x80000400000808 x0 t7 := by
    unfold t7
    refine Chg.step (State.setCport_chg _ _ _) rfl ?_
    exact Chg.refl _ _
  clear_value t7
  refine Chg.ite ?_ ?_
  · refine Chg.step (State.resendFrames_chg _ _) rfl ?_
    assumption
  · assumption


theorem State.seqFrame_chg (x0 : State) (x1 : Nat) (x2 : Nat) :
    Chg 0x80000400000008 x0 (State.seqFrame x0 x1 x2) := by
  unfold State.seqFrame
  extract_lets w1 t2
  clear_value w1
  have ht2 : Chg 0x80000400000008 x0 t2 := by
    unfold t2
    refine Chg.step (State.count_chg _ _ _) rfl ?_
    exact Chg.refl _ _
  clear_value t2
  refine Chg.ite ?_ ?_
  · assumption
  · refine Chg.step (State.setCport_chg _ _ _) rfl ?_
    assumption


theorem execCnpFrameRx_chg (x0 : Nat) (x1 : List Nat) (x2 : State) :
    ChgR 0x480021400480f08 x2 (execCnpFrameRx x0 x1 x2) := by
  unfold execCnpFrameRx
  extract_lets w1 w2 w3 w4 t5 w6 w7 w8 w9
  clear_value w1
  clear_value w2
  clear_value w3
  clear_value w4
  have ht5 : Chg 0x480021400480f08 x2 t5 := by
    unfold t5
    refine Chg.step (State.setCport_chg _ _ _) rfl ?_
    exact Chg.refl _ _
  clear_value t5
  clear_value w6
  clear_value w7
  clear_value w8
  clear_value w9
  refine ChgR.ite ?_ ?_
  · refine ChgR.next ?_
    exact Chg.refl _ _
  · refine ChgR.ite ?_ ?_
    · refine ChgR.next ?_
      refine Chg.step (State.badFrame_chg _ _) rfl ?_
      refine Chg.step (State.count_chg _ _ _) rfl ?_
      assumption
    · split
      · refine ChgR.next ?_
        refine Chg.step (State.badTag_chg _ _) rfl ?_
        assumption
      · split
        · refine ChgR.next ?_
          refine Chg.step (State.badTag_chg _ _) rfl ?_
          assumption
        · extract_lets w10 w11
          clear_value w10
          clear_value w11
          refine ChgR.ite ?_ ?_
          · refine ChgR.next ?_
            refine Chg.step (State.frameBack_chg _ _ _) rfl ?_
            assumption
          · refine ChgR.ite ?_ ?_
            · refine ChgR.next ?_
              refine Chg.step (State.seqFrame_chg _ _ _) rfl ?_
              assumption
            · refine ChgR.ite ?_ ?_
              · refine ChgR.next ?_
                refine Chg.step (State.badFrame_chg _ _) rfl ?_
                refine Chg.step (State.count_chg _ _ _) rfl ?_
                assumption
              · refine ChgR.next ?_
                refine Chg.step (State.takePackets_chg _ _ _ _) rfl ?_
                refine Chg.step (State.frameBack_chg _ _ _) rfl ?_
                refine Chg.step (State.setCport_chg _ _ _) rfl ?_
                assumption


theorem execCnpReceiptTimeout_chg (x0 : Nat) (x1 : State) :
    ChgR 0x439521089fbb908 x1 (execCnpReceiptTimeout x0 x1) := by
  unfold execCnpReceiptTimeout
  split
  · refine ChgR.next ?_
    exact Chg.refl _ _
  · refine ChgR.ite ?_ ?_
    · refine ChgR.next ?_
      exact Chg.refl _ _
    · refine ChgR.ite ?_ ?_
      · refine ChgR.next ?_
        refine Chg.step (State.lost_chg _ _) rfl ?_
        refine Chg.step (State.secondFail_chg _ _ _) rfl ?_
        exact Chg.refl _ _
      · refine ChgR.next ?_
        refine Chg.step (State.resend_chg _ _) rfl ?_
        exact Chg.refl _ _


theorem execBindingQuery_chg (x0 : Nat) (x1 : State) :
    ChgR 0x40080000 x1 (execBindingQuery x0 x1) := by
  unfold execBindingQuery
  split
  · refine ChgR.next ?_
    exact Chg.refl _ _
  · extract_lets t1 w2 w3
    have ht1 : Chg 0x40080000 x1 t1 := by
      unfold t1
      refine Chg.step (State.unpost_chg _ _) rfl ?_
      exact Chg.refl _ _
    clear_value t1
    clear_value w2
    clear_value w3
    refine ChgR.ite ?_ ?_
    · split
      · refine ChgR.next ?_
        assumption
      · extract_lets w4 t5
        clear_value w4
        have ht5 : Chg 0x40080000 x1 t5 := by
          unfold t5
          refine Chg.step (State.setLane_chg _ _ _) rfl ?_
          assumption
        clear_value t5
        refine ChgR.next ?_
        refine Chg.step (State.toPeer_chg _ _) rfl ?_
        assumption
    · refine ChgR.ite ?_ ?_
      · split
        · refine ChgR.next ?_
          assumption
        · refine ChgR.next ?_
          refine Chg.step (State.toPeer_chg _ _) rfl ?_
          assumption
      · refine ChgR.next ?_
        exact Chg.refl _ _


theorem execBindingReply_chg (x0 : Nat) (x1 : State) :
    ChgR 0x180a00c8cc8908 x1 (execBindingReply x0 x1) := by
  unfold execBindingReply
  split
  · refine ChgR.next ?_
    exact Chg.refl _ _
  · extract_lets t1 w2 w3 t4
    have ht1 : Chg 0x180a00c8cc8908 x1 t1 := by
      unfold t1
      refine Chg.step (State.unpost_chg _ _) rfl ?_
      exact Chg.refl _ _
    clear_value t1
    clear_value w2
    clear_value w3
    have ht4 : Chg 0x180a00c8cc8908 x1 t4 := by
      unfold t4
      refine Chg.step (State.setLane_chg _ _ _) rfl ?_
      assumption
    clear_value t4
    refine ChgR.ite ?_ ?_
    · refine ChgR.next ?_
      refine Chg.upd_models rfl ?_
      assumption
    · refine ChgR.ite ?_ ?_
      · split
        · refine ChgR.next ?_
          assumption
        · split
          · refine ChgR.next ?_
            refine Chg.step (State.setLane_chg _ _ _) rfl ?_
            assumption
          · refine ChgR.next ?_
            refine Chg.step (State.admField_chg _ _ _ _ _ _ _) rfl ?_
            assumption
      · refine ChgR.next ?_
        exact Chg.refl _ _


theorem execBindingTimeout_chg (x0 : Nat) (x1 : State) :
    ChgR 0x18020048c00908 x1 (execBindingTimeout x0 x1) := by
  unfold execBindingTimeout
  split
  · refine ChgR.next ?_
    exact Chg.refl _ _
  · refine ChgR.ite ?_ ?_
    · refine ChgR.next ?_
      exact Chg.refl _ _
    · refine ChgR.next ?_
      refine Chg.step (State.admRefuse_chg _ _ _ _ _ _) rfl ?_
      refine Chg.step (State.setLane_chg _ _ _) rfl ?_
      exact Chg.refl _ _


theorem execItemCredit_chg (x0 : Nat) (x1 : State) :
    ChgR 0x40080000 x1 (execItemCredit x0 x1) := by
  unfold execItemCredit
  split
  · refine ChgR.next ?_
    exact Chg.refl _ _
  · extract_lets t1
    have ht1 : Chg 0x40080000 x1 t1 := by
      unfold t1
      refine Chg.step (State.unpost_chg _ _) rfl ?_
      exact Chg.refl _ _
    clear_value t1
    refine ChgR.ite ?_ ?_
    · refine ChgR.next ?_
      exact Chg.refl _ _
    · split
      · refine ChgR.next ?_
        assumption
      · extract_lets w2
        clear_value w2
        refine ChgR.next ?_
        refine Chg.step (State.setLane_chg _ _ _) rfl ?_
        assumption


theorem execBindingEnd_chg (x0 : Nat) (x1 : State) :
    ChgR 0x10020040480908 x1 (execBindingEnd x0 x1) := by
  unfold execBindingEnd
  split
  · refine ChgR.next ?_
    exact Chg.refl _ _
  · extract_lets t1
    have ht1 : Chg 0x10020040480908 x1 t1 := by
      unfold t1
      refine Chg.step (State.unpost_chg _ _) rfl ?_
      exact Chg.refl _ _
    clear_value t1
    refine ChgR.ite ?_ ?_
    · refine ChgR.next ?_
      exact Chg.refl _ _
    · split
      · refine ChgR.next ?_
        assumption
      · extract_lets w2
        clear_value w2
        refine ChgR.next ?_
        refine Chg.step (State.breakLane_chg _ _ _) rfl ?_
        refine Chg.step (State.setLane_chg _ _ _) rfl ?_
        assumption


theorem execModelDigestTimer_chg (x0 : State) :
    ChgR 0x400080000 x0 (execModelDigestTimer x0) := by
  unfold execModelDigestTimer
  extract_lets w1 t2 w3 w4 w5
  clear_value w1
  have ht2 : Chg 0x400080000 x0 t2 := by
    unfold t2
    refine Chg.upd_cnp rfl ?_
    exact Chg.refl _ _
  clear_value t2
  clear_value w3
  clear_value w4
  clear_value w5
  refine ChgR.ite ?_ ?_
  · refine ChgR.next ?_
    exact Chg.refl _ _
  · refine ChgR.next ?_
    refine Chg.foldl ?_ ?_
    · intro u6 u7 u8
      refine Chg.foldl ?_ ?_
      · intro u9 u10 u11
        refine Chg.step (State.toPeer_chg _ _) rfl ?_
        assumption
      · assumption
    · assumption


theorem execModelDigestPacket_chg (x0 : Nat) (x1 : State) :
    ChgR 0x800200004c0908 x1 (execModelDigestPacket x0 x1) := by
  unfold execModelDigestPacket
  split
  · refine ChgR.next ?_
    exact Chg.refl _ _
  · extract_lets t1 t2
    have ht1 : Chg 0x800200004c0908 x1 t1 := by
      unfold t1
      refine Chg.step (State.unpost_chg _ _) rfl ?_
      exact Chg.refl _ _
    clear_value t1
    have ht2 : Chg 0x800200004c0908 x1 t2 := by
      unfold t2
      refine Chg.step (State.flag_chg _ _ _) rfl ?_
      assumption
    clear_value t2
    refine ChgR.ite ?_ ?_
    · refine ChgR.next ?_
      exact Chg.refl _ _
    · split
      · refine ChgR.next ?_
        refine Chg.step (State.count_chg _ _ _) rfl ?_
        assumption
      · extract_lets t3
        have ht3 : Chg 0x800200004c0908 x1 t3 := by
          unfold t3
          refine Chg.step (State.log_chg _ _) rfl ?_
          assumption
        clear_value t3
        refine ChgR.ite ?_ ?_
        · refine ChgR.next ?_
          assumption
        · refine ChgR.next ?_
          refine Chg.step (State.setModel_chg _ _) rfl ?_
          assumption


theorem execCnpRetraction_chg (x0 : Nat) (x1 : State) :
    ChgR 0x428021089e98908 x1 (execCnpRetraction x0 x1) := by
  unfold execCnpRetraction
  split
  · refine ChgR.next ?_
    exact Chg.refl _ _
  · extract_lets w1 t2 w3 w4 w5 w6 t7 w8 w9 w10
    clear_value w1
    have ht2 : Chg 0x428021089e98908 x1 t2 := by
      unfold t2
      refine Chg.step (State.unpost_chg _ _) rfl ?_
      exact Chg.refl _ _
    clear_value t2
    clear_value w3
    clear_value w4
    clear_value w5
    clear_value w6
    have ht7 : Chg 0x428021089e98908 x1 t7 := by
      unfold t7
      refine Chg.upd_rel rfl ?_
      assumption
    clear_value t7
    clear_value w8
    clear_value w9
    clear_value w10
    refine ChgR.ite ?_ ?_
    · refine ChgR.next ?_
      exact Chg.refl _ _
    · refine ChgR.ite ?_ ?_
      · refine ChgR.next ?_
        refine Chg.step (State.receipt_chg _ _ _) rfl ?_
        assumption
      · split
        split
        extract_lets t11
        have ht11 : Chg 0x428021089e98908 x1 t11 := by
          unfold t11
          refine Chg.step (State.faultAwait_chg _ _ _ _) rfl ?_
          refine Chg.of_fst (by assumption) ?_
          split
          · refine Chg.fst_mk ?_
            refine Chg.of_fst (by assumption) ?_
            refine Chg.step (State.convictLane_chg _ _ _ _) rfl ?_
            assumption
          · refine Chg.fst_mk ?_
            refine Chg.step (State.toPeer_chg _ _) rfl ?_
            refine Chg.of_fst (by assumption) ?_
            refine Chg.step (State.convictLane_chg _ _ _ _) rfl ?_
            assumption
        clear_value t11
        refine ChgR.next ?_
        refine Chg.step (State.receipt_chg _ _ _) rfl ?_
        assumption


theorem State.takeSubject_chg (x0 : State) (x1 : Nat) (x2 : Nat) (x3 : Lookout) :
    Chg 0x400001000000008 x0 (State.takeSubject x0 x1 x2 x3) := by
  unfold State.takeSubject
  extract_lets t1 t2
  have ht1 : Chg 0x400001000000008 x0 t1 := by
    unfold t1
    refine Chg.step (State.fset_chg _ _ _ _) (by unfold lookSubject; split <;> rfl) ?_
    exact Chg.refl _ _
  clear_value t1
  have ht2 : Chg 0x400001000000008 x0 t2 := by
    unfold t2
    refine Chg.step (State.fset_chg _ _ _ _) (by unfold lookState; split <;> rfl) ?_
    assumption
  clear_value t2
  refine Chg.step (State.setLookout_chg _ _ _) rfl ?_
  assumption


theorem State.beginStep_chg (x0 : State) (x1 : Nat) :
    Chg 0x400081000000008 x0 (State.beginStep x0 x1) := by
  unfold State.beginStep
  extract_lets w1 w2 w3
  clear_value w1
  clear_value w2
  clear_value w3
  refine Chg.ite ?_ ?_
  · refine Chg.step (State.takeSubject_chg _ _ _ _) rfl ?_
    exact Chg.refl _ _
  · split
    · refine Chg.step (State.fset_chg _ _ _ _) rfl ?_
      refine Chg.step (State.fset_chg _ _ _ _) (by unfold lookState; split <;> rfl) ?_
      exact Chg.refl _ _
    · refine Chg.step (State.takeSubject_chg _ _ _ _) rfl ?_
      exact Chg.refl _ _


theorem State.coreClean_chg (x0 : State) (x1 : Nat) :
    Chg 0x400021000400908 x0 (State.coreClean x0 x1) := by
  unfold State.coreClean
  refine Chg.foldl ?_ ?_
  · intro u1 u2 u3
    refine Chg.step (State.cleanWindow_chg _ _) rfl ?_
    assumption
  · refine Chg.step (State.cleanWindow_chg _ _) rfl ?_
    exact Chg.refl _ _


theorem State.dropSamples_chg (x0 : State) (x1 : Nat) :
    Chg 0x1000000000 x0 (State.dropSamples x0 x1) := by
  unfold State.dropSamples
  extract_lets w1
  clear_value w1
  refine Chg.upd_rel rfl ?_
  exact Chg.refl _ _


theorem execDwellEnd_chg (x0 : Nat) (x1 : State) :
    ChgR 0x4000a1000400908 x1 (execDwellEnd x0 x1) := by
  unfold execDwellEnd
  extract_lets w1 w2 t3
  clear_value w1
  clear_value w2
  have ht3 : Chg 0x4000a1000400908 x1 t3 := by
    unfold t3
    refine Chg.ite ?_ ?_
    · refine Chg.step (State.coreClean_chg _ _) rfl ?_
      refine Chg.step (State.setClean_chg _ _) rfl ?_
      exact Chg.refl _ _
    · exact Chg.refl _ _
  clear_value t3
  refine ChgR.ite ?_ ?_
  · refine ChgR.next ?_
    exact Chg.refl _ _
  · refine ChgR.next ?_
    refine Chg.step (State.beginStep_chg _ _) rfl ?_
    refine Chg.step (State.dropSamples_chg _ _) rfl ?_
    assumption


theorem State.rerunCycles_chg (x0 : State) (x1 : Nat) (x2 : Nat) (x3 : Nat) :
    Chg 0xca0000409f0c x0 (State.rerunCycles x0 x1 x2 x3) := by
  induction' x3 with n ih generalizing x0
  · rw [State.rerunCycles]
    exact Chg.refl _ _
  · rw [State.rerunCycles]
    split
    · exact Chg.refl _ _
    · split
      · refine Chg.step (ih _) rfl ?_
        refine Chg.step (State.runSplit_chg _ _ _ _ _ _ _) rfl ?_
        exact Chg.refl _ _
      · extract_lets w1
        clear_value w1
        refine Chg.ite ?_ ?_
        · exact Chg.refl _ _
        · refine Chg.step (ih _) rfl ?_
          refine Chg.step (State.issuePlane_chg _ _ _ _ _ _ _) rfl ?_
          exact Chg.refl _ _


theorem State.rerunPass_chg (x0 : State) (x1 : Bool) (x2 : Nat) (x3 : Nat) (x4 : EngVec) :
    Chg 0xda000040bf0c x0 (State.rerunPass x0 x1 x2 x3 x4) := by
  unfold State.rerunPass
  extract_lets w1 w2 t3 t4 t5 w6 t7 w8
  clear_value w1
  clear_value w2
  have ht3 : Chg 0xda000040bf0c x0 t3 := by
    unfold t3
    refine Chg.step (State.setEngine_chg _ _ _ _) rfl ?_
    exact Chg.refl _ _
  clear_value t3
  have ht4 : Chg 0xda000040bf0c x0 t4 := by
    unfold t4
    refine Chg.step (State.rerunCycles_chg _ _ _ _) rfl ?_
    assumption
  clear_value t4
  have ht5 : Chg 0xda000040bf0c x0 t5 := by
    unfold t5
    split
    · assumption
    · refine Chg.step (State.accumulate_chg _ _ _ _) rfl ?_
      assumption
  clear_value t5
  clear_value w6
  have ht7 : Chg 0xda000040bf0c x0 t7 := by
    unfold t7
    refine Chg.ite ?_ ?_
    · refine Chg.foldl ?_ ?_
      · intro u9 u10 u11
        refine Chg.step (State.l2Add_chg _ _ _ _ _) rfl ?_
        assumption
      · assumption
    · assumption
  clear_value t7
  clear_value w8
  refine Chg.ite ?_ ?_
  · assumption
  · refine Chg.step (State.setTile_chg _ _ _ _) rfl ?_
    assumption


theorem State.rerunUse_chg {s : State} {q : Sample} {c : Nat} {x : Tab Int} {y : Bool} {t : State}
    (h : s.rerunUse q c = (x, y, t)) : Chg 0xda000040bf0c s t := by
  simp only [State.rerunUse] at h
  cases h
  refine Chg.upd_engines_tiles rfl rfl (Chg.foldl ?_ (Chg.step (State.setTile_chg _ _ _ _) rfl (Chg.refl _ _)))
  intro v z k
  exact Chg.step (State.rerunPass_chg _ _ _ _ _) rfl k

theorem execSampleCompare_chg (x0 : Nat) (x1 : State) :
    ChgR 0x400da100040bf0c x1 (execSampleCompare x0 x1) := by
  unfold execSampleCompare
  split
  · extract_lets w1 t2
    clear_value w1
    have ht2 : Chg 0x400da100040bf0c x1 t2 := by
      unfold t2
      refine Chg.upd_rel rfl ?_
      exact Chg.refl _ _
    clear_value t2
    refine ChgR.ite ?_ ?_
    · refine ChgR.next ?_
      exact Chg.refl _ _
    · split
      extract_lets w3 t4 t5 t6 w7
      clear_value w3
      have ht4 : Chg 0x400da100040bf0c x1 t4 := by
        unfold t4
        refine Chg.step (State.setLookout_chg _ _ _) rfl ?_
        refine Chg.step (State.rerunUse_chg (by assumption)) rfl ?_
        assumption
      clear_value t4
      have ht5 : Chg 0x400da100040bf0c x1 t5 := by
        unfold t5
        refine Chg.step (State.count_chg _ _ _) rfl ?_
        assumption
      clear_value t5
      have ht6 : Chg 0x400da100040bf0c x1 t6 := by
        unfold t6
        refine Chg.step (State.logRate_chg _ _ _ _) rfl ?_
        assumption
      clear_value t6
      clear_value w7
      refine ChgR.ite ?_ ?_
      · refine ChgR.next ?_
        refine Chg.step (State.count_chg _ _ _) rfl ?_
        refine Chg.step (State.rerunUse_chg (by assumption)) rfl ?_
        assumption
      · refine ChgR.ite ?_ ?_
        · refine ChgR.next ?_
          assumption
        · refine ChgR.next ?_
          refine Chg.upd_rel rfl ?_
          assumption
  · refine ChgR.next ?_
    exact Chg.refl _ _


theorem State.dwellFailed_chg (x0 : State) (x1 : Nat) :
    Chg 0x1000000000 x0 (State.dwellFailed x0 x1) := by
  unfold State.dwellFailed
  refine Chg.foldl ?_ ?_
  · intro u1 u2 u3
    extract_lets w4
    clear_value w4
    refine Chg.ite ?_ ?_
    · refine Chg.step (State.setLookout_chg _ _ _) rfl ?_
      assumption
    · assumption
  · exact Chg.refl _ _


theorem State.convictSample_chg (x0 : State) (x1 : Sample) :
    Chg 0x428021089e98908 x0 (State.convictSample x0 x1) := by
  unfold State.convictSample
  refine Chg.ite ?_ ?_
  · refine Chg.step (State.convict_chg _ _ _ _ _ _ _) rfl ?_
    exact Chg.refl _ _
  · split
    · exact Chg.refl _ _
    · extract_lets w1
      clear_value w1
      refine Chg.step (State.convictRanges_chg _ _ _) rfl ?_
      exact Chg.refl _ _


theorem execCheckRerun_chg (x0 : Nat) (x1 : State) :
    ChgR 0x428da10c9e9ff0c x1 (execCheckRerun x0 x1) := by
  unfold execCheckRerun
  split
  · refine ChgR.next ?_
    exact Chg.refl _ _
  · extract_lets w1 t2 w3 t4 w5
    clear_value w1
    have ht2 : Chg 0x428da10c9e9ff0c x1 t2 := by
      unfold t2
      refine Chg.step (State.setCore_chg _ _ _) rfl ?_
      exact Chg.refl _ _
    clear_value t2
    clear_value w3
    have ht4 : Chg 0x428da10c9e9ff0c x1 t4 := by
      unfold t4
      refine Chg.upd_rel rfl ?_
      assumption
    clear_value t4
    clear_value w5
    refine ChgR.ite ?_ ?_
    · refine ChgR.next ?_
      exact Chg.refl _ _
    · split
      extract_lets w6 w7 t8
      clear_value w6
      clear_value w7
      have ht8 : Chg 0x428da10c9e9ff0c x1 t8 := by
        unfold t8
        refine Chg.step (State.confirm_chg _ _ _) rfl ?_
        refine Chg.step (State.dwellFailed_chg _ _) rfl ?_
        refine Chg.step (State.rerunUse_chg (by assumption)) rfl ?_
        assumption
      clear_value t8
      refine ChgR.ite ?_ ?_
      · refine ChgR.next ?_
        refine Chg.step (State.suspect_chg _ _ _) rfl ?_
        refine Chg.step (State.rerunUse_chg (by assumption)) rfl ?_
        assumption
      · refine ChgR.ite ?_ ?_
        · refine ChgR.next ?_
          refine Chg.step (State.confirm_chg _ _ _) rfl ?_
          refine Chg.step (State.rerunUse_chg (by assumption)) rfl ?_
          assumption
        · refine ChgR.ite ?_ ?_
          · refine ChgR.next ?_
            refine Chg.step (State.convictSample_chg _ _) rfl ?_
            assumption
          · refine ChgR.next ?_
            refine Chg.step (State.confirm_chg _ _ _) rfl ?_
            assumption


theorem State.katEnd_chg (x0 : State) (x1 : Nat) :
    Chg 0x400021000400908 x0 (State.katEnd x0 x1) := by
  unfold State.katEnd
  extract_lets t1 w2
  have ht1 : Chg 0x400021000400908 x0 t1 := by
    unfold t1
    refine Chg.ite ?_ ?_
    · exact Chg.refl _ _
    · refine Chg.step (State.coreClean_chg _ _) rfl ?_
      refine Chg.step (State.setClean_chg _ _) rfl ?_
      exact Chg.refl _ _
  clear_value t1
  clear_value w2
  refine Chg.upd_rel rfl ?_
  assumption


theorem execKatRun_chg (x0 : Nat) (x1 : Bool) (x2 : State) :
    ChgR 0x4284a10c9e9c908 x2 (execKatRun x0 x1 x2) := by
  unfold execKatRun
  extract_lets w1 t2 w3 w4 t5 w6 t7 t8 t9 t10 t11 w12
  clear_value w1
  have ht2 : Chg 0x4284a10c9e9c908 x2 t2 := by
    unfold t2
    refine Chg.step (State.setCore_chg _ _ _) rfl ?_
    exact Chg.refl _ _
  clear_value t2
  clear_value w3
  clear_value w4
  have ht5 : Chg 0x4284a10c9e9c908 x2 t5 := by
    unfold t5
    refine Chg.step (State.count_chg _ _ _) rfl ?_
    assumption
  clear_value t5
  clear_value w6
  have ht7 : Chg 0x4284a10c9e9c908 x2 t7 := by
    unfold t7
    refine Chg.upd_rel rfl ?_
    assumption
  clear_value t7
  have ht8 : Chg 0x4284a10c9e9c908 x2 t8 := by
    unfold t8
    refine Chg.step (State.count_chg _ _ _) rfl ?_
    assumption
  clear_value t8
  have ht9 : Chg 0x4284a10c9e9c908 x2 t9 := by
    unfold t9
    refine Chg.step (State.flag_chg _ _ _) rfl ?_
    assumption
  clear_value t9
  have ht10 : Chg 0x4284a10c9e9c908 x2 t10 := by
    unfold t10
    refine Chg.step (State.log_chg _ _) rfl ?_
    assumption
  clear_value t10
  have ht11 : Chg 0x4284a10c9e9c908 x2 t11 := by
    unfold t11
    refine Chg.ite ?_ ?_
    · refine Chg.ite ?_ ?_
      · refine Chg.step (State.suspect_chg _ _ _) rfl ?_
        assumption
      · assumption
    · refine Chg.ite ?_ ?_
      · refine Chg.step (State.convict_chg _ _ _ _ _ _ _) rfl ?_
        refine Chg.step (State.confirm_chg _ _ _) rfl ?_
        refine Chg.step (State.dwellFailed_chg _ _) rfl ?_
        assumption
      · assumption
  clear_value t11
  clear_value w12
  refine ChgR.ite ?_ ?_
  · refine ChgR.next ?_
    exact Chg.refl _ _
  · refine ChgR.next ?_
    refine Chg.ite ?_ ?_
    · refine Chg.step (State.katEnd_chg _ _) rfl ?_
      assumption
    · assumption


theorem execKatNow_chg (x0 : Nat) (x1 : State) :
    ChgR 0x1000000000 x1 (execKatNow x0 x1) := by
  unfold execKatNow
  extract_lets w1
  clear_value w1
  refine ChgR.ite ?_ ?_
  · refine ChgR.next ?_
    exact Chg.refl _ _
  · refine ChgR.next ?_
    refine Chg.upd_rel rfl ?_
    exact Chg.refl _ _


theorem execRangeWindow_chg (x0 : Nat) (x1 : Nat) (x2 : State) :
    ChgR 0x428021089e98f08 x2 (execRangeWindow x0 x1 x2) := by
  unfold execRangeWindow
  split
  · refine ChgR.next ?_
    exact Chg.refl _ _
  · split
    · extract_lets w1 w2 w3 w4 w5 t6 w7 w8 w9 w10 w11 t12 t13 t14 t15 t16
      clear_value w1
      clear_value w2
      clear_value w3
      clear_value w4
      clear_value w5
      have ht6 : Chg 0x428021089e98f08 x2 t6 := by
        unfold t6
        refine Chg.step (State.setCore_chg _ _ _) rfl ?_
        exact Chg.refl _ _
      clear_value t6
      clear_value w7
      clear_value w8
      clear_value w9
      clear_value w10
      clear_value w11
      have ht12 : Chg 0x428021089e98f08 x2 t12 := by
        unfold t12
        refine Chg.upd_rel rfl ?_
        assumption
      clear_value t12
      have ht13 : Chg 0x428021089e98f08 x2 t13 := by
        unfold t13
        refine Chg.step (State.count_chg _ _ _) rfl ?_
        assumption
      clear_value t13
      have ht14 : Chg 0x428021089e98f08 x2 t14 := by
        unfold t14
        refine Chg.step (State.flag_chg _ _ _) rfl ?_
        assumption
      clear_value t14
      have ht15 : Chg 0x428021089e98f08 x2 t15 := by
        unfold t15
        refine Chg.step (State.logRate_chg _ _ _ _) rfl ?_
        assumption
      clear_value t15
      have ht16 : Chg 0x428021089e98f08 x2 t16 := by
        unfold t16
        refine Chg.foldl ?_ ?_
        · intro u17 u18 u19
          refine Chg.step (State.suspect_chg _ _ _) rfl ?_
          assumption
        · assumption
      clear_value t16
      refine ChgR.ite ?_ ?_
      · refine ChgR.next ?_
        refine Chg.upd_rel rfl ?_
        exact Chg.refl _ _
      · refine ChgR.ite ?_ ?_
        · refine ChgR.next ?_
          assumption
        · refine ChgR.next ?_
          refine Chg.ite ?_ ?_
          · refine Chg.step (State.convict_chg _ _ _ _ _ _ _) rfl ?_
            assumption
          · assumption
    · refine ChgR.next ?_
      exact Chg.refl _ _


theorem State.takeLookout_chg (x0 : State) (x1 : Nat) (x2 : Nat) (x3 : Model) (x4 : StageRec) :
    Chg 0x400001000004008 x0 (State.takeLookout x0 x1 x2 x3 x4) := by
  unfold State.takeLookout
  extract_lets w1 w2 t3 t4 t5 w6 t7 w8
  clear_value w1
  clear_value w2
  have ht3 : Chg 0x400001000004008 x0 t3 := by
    unfold t3
    refine Chg.step (State.dropSamples_chg _ _) rfl ?_
    exact Chg.refl _ _
  clear_value t3
  have ht4 : Chg 0x400001000004008 x0 t4 := by
    unfold t4
    refine Chg.step (State.fset_chg _ _ _ _) (by unfold lookSubject; split <;> rfl) ?_
    assumption
  clear_value t4
  have ht5 : Chg 0x400001000004008 x0 t5 := by
    unfold t5
    refine Chg.step (State.fset_chg _ _ _ _) (by unfold lookState; split <;> rfl) ?_
    assumption
  clear_value t5
  clear_value w6
  have ht7 : Chg 0x400001000004008 x0 t7 := by
    unfold t7
    refine Chg.ite ?_ ?_
    · assumption
    · refine Chg.step (State.setRst_chg _ _ _) rfl ?_
      assumption
  clear_value t7
  clear_value w8
  refine Chg.upd_rel rfl ?_
  assumption


theorem State.takeBack_chg (x0 : State) :
    Chg 0x400081000058008 x0 (State.takeBack x0) := by
  unfold State.takeBack
  extract_lets w1
  clear_value w1
  split
  · refine Chg.step (State.makeLookout_chg _ _ _) rfl ?_
    refine Chg.step (State.dropTarget_chg _ _ _ _) rfl ?_
    refine Chg.step (State.setSeq_chg _ _ _) rfl ?_
    refine Chg.step (State.setCore_chg _ _ _) rfl ?_
    exact Chg.refl _ _
  · exact Chg.refl _ _


theorem State.seekLookout_chg (x0 : State) (x1 : Nat) :
    Chg 0x400081000058008 x0 (State.seekLookout x0 x1) := by
  unfold State.seekLookout
  refine Chg.ite ?_ ?_
  · refine Chg.step (State.takeBack_chg _) rfl ?_
    exact Chg.refl _ _
  · exact Chg.refl _ _


theorem State.targetFailed_chg (x0 : State) (x1 : Nat) (x2 : Model) :
    Chg 0xc00ea30405fd908 x0 (State.targetFailed x0 x1 x2) := by
  unfold State.targetFailed
  split
  · exact Chg.refl _ _
  · refine Chg.ite ?_ ?_
    · exact Chg.refl _ _
    · refine Chg.step (State.retarget_chg _) rfl ?_
      refine Chg.step (State.removeCore_chg _ _) rfl ?_
      refine Chg.step (State.retireUnit_chg _ _ _) rfl ?_
      refine Chg.step (State.dropTarget_chg _ _ _ _) rfl ?_
      exact Chg.refl _ _


theorem State.stopStage_chg (x0 : State) (x1 : Nat) (x2 : Model) (x3 : StageRec) :
    Chg 0x410021080600908 x0 (State.stopStage x0 x1 x2 x3) := by
  unfold State.stopStage
  extract_lets w1 t2 t3 w4 t5
  clear_value w1
  have ht2 : Chg 0x410021080600908 x0 t2 := by
    unfold t2
    refine Chg.step (State.suspendAll_chg _ _ _ _) rfl ?_
    exact Chg.refl _ _
  clear_value t2
  have ht3 : Chg 0x410021080600908 x0 t3 := by
    unfold t3
    refine Chg.foldl ?_ ?_
    · intro u6 u7 u8
      refine Chg.step (State.breakLane_chg _ _ _) rfl ?_
      assumption
    · assumption
  clear_value t3
  clear_value w4
  have ht5 : Chg 0x410021080600908 x0 t5 := by
    unfold t5
    refine Chg.upd_rel rfl ?_
    assumption
  clear_value t5
  refine Chg.step (State.unitFault_chg _ _ _ _) rfl ?_
  assumption


theorem State.declareFailed_chg (x0 : State) (x1 : Nat) (x2 : Model) (x3 : StageRec) :
    Chg 0x4100a30816dc908 x0 (State.declareFailed x0 x1 x2 x3) := by
  unfold State.declareFailed
  extract_lets t1 w2 w3 t4 t5
  have ht1 : Chg 0x4100a30816dc908 x0 t1 := by
    unfold t1
    refine Chg.step (State.fset_chg _ _ _ _) rfl ?_
    exact Chg.refl _ _
  clear_value t1
  clear_value w2
  clear_value w3
  have ht4 : Chg 0x4100a30816dc908 x0 t4 := by
    unfold t4
    refine Chg.upd_fab_rel rfl rfl ?_
    assumption
  clear_value t4
  have ht5 : Chg 0x4100a30816dc908 x0 t5 := by
    unfold t5
    refine Chg.step (State.seekLookout_chg _ _) rfl ?_
    refine Chg.step (State.advanceFailover_chg _ _ _) rfl ?_
    assumption
  clear_value t5
  split
  · refine Chg.step (State.stopStage_chg _ _ _ _) rfl ?_
    assumption
  · refine Chg.step (State.takeLookout_chg _ _ _ _ _) rfl ?_
    assumption


theorem execCoreFailed_chg (x0 : Nat) (x1 : Bool) (x2 : State) :
    ChgR 0xc10ea30c17fd908 x2 (execCoreFailed x0 x1 x2) := by
  unfold execCoreFailed
  refine ChgR.ite ?_ ?_
  · refine ChgR.next ?_
    exact Chg.refl _ _
  · split
    · extract_lets t1
      have ht1 : Chg 0xc10ea30c17fd908 x2 t1 := by
        unfold t1
        refine Chg.step (State.seekLookout_chg _ _) rfl ?_
        exact Chg.refl _ _
      clear_value t1
      refine ChgR.ite ?_ ?_
      · refine ChgR.next ?_
        exact Chg.refl _ _
      · split
        · refine ChgR.next ?_
          assumption
        · refine ChgR.next ?_
          refine Chg.step (State.takeLookout_chg _ _ _ _ _) rfl ?_
          assumption
    · refine ChgR.ite ?_ ?_
      · refine ChgR.next ?_
        refine Chg.step (State.declareFailed_chg _ _ _ _) rfl ?_
        exact Chg.refl _ _
      · refine ChgR.next ?_
        refine Chg.step (State.targetFailed_chg _ _ _) rfl ?_
        exact Chg.refl _ _
    · refine ChgR.ite ?_ ?_
      · refine ChgR.next ?_
        exact Chg.refl _ _
      · refine ChgR.next ?_
        refine Chg.step (State.removeCore_chg _ _) rfl ?_
        refine Chg.step (State.retireUnit_chg _ _ _) rfl ?_
        exact Chg.refl _ _


theorem State.lookoutSpent_chg (x0 : State) (x1 : Nat) :
    Chg 0xc00ea30405f9908 x0 (State.lookoutSpent x0 x1) := by
  unfold State.lookoutSpent
  extract_lets w1 t2 t3 t4 t5
  clear_value w1
  have ht2 : Chg 0xc00ea30405f9908 x0 t2 := by
    unfold t2
    refine Chg.step (State.fset_chg _ _ _ _) (by unfold lookState; split <;> rfl) ?_
    exact Chg.refl _ _
  clear_value t2
  have ht3 : Chg 0xc00ea30405f9908 x0 t3 := by
    unfold t3
    refine Chg.step (State.fset_chg _ _ _ _) rfl ?_
    assumption
  clear_value t3
  have ht4 : Chg 0xc00ea30405f9908 x0 t4 := by
    unfold t4
    refine Chg.step (State.retarget_chg _) rfl ?_
    refine Chg.step (State.designate_chg _) rfl ?_
    assumption
  clear_value t4
  have ht5 : Chg 0xc00ea30405f9908 x0 t5 := by
    unfold t5
    refine Chg.step (State.log_chg _ _) rfl ?_
    assumption
  clear_value t5
  refine Chg.ite ?_ ?_
  · assumption
  · refine Chg.step (State.unshieldLanes_chg _) rfl ?_
    refine Chg.step (State.fault_chg _ _ _) rfl ?_
    assumption


theorem State.joinStage_chg (x0 : State) (x1 : Nat) (x2 : Nat) :
    Chg 0x800fa20005bb90c x0 (State.joinStage x0 x1 x2) := by
  unfold State.joinStage
  extract_lets t1 t2 t3 w4 t5 w6 t7
  have ht1 : Chg 0x800fa20005bb90c x0 t1 := by
    unfold t1
    refine Chg.step (State.cloneCore_chg _ _ _) rfl ?_
    exact Chg.refl _ _
  clear_value t1
  have ht2 : Chg 0x800fa20005bb90c x0 t2 := by
    unfold t2
    refine Chg.foldl ?_ ?_
    · intro u8 u9 u10
      extract_lets w11
      clear_value w11
      refine Chg.step (State.setEngine_chg _ _ _ _) rfl ?_
      assumption
    · assumption
  clear_value t2
  have ht3 : Chg 0x800fa20005bb90c x0 t3 := by
    unfold t3
    refine Chg.step (State.beginCore_chg _ _) rfl ?_
    assumption
  clear_value t3
  clear_value w4
  have ht5 : Chg 0x800fa20005bb90c x0 t5 := by
    unfold t5
    refine Chg.step (State.setSeq_chg _ _ _) rfl ?_
    assumption
  clear_value t5
  clear_value w6
  have ht7 : Chg 0x800fa20005bb90c x0 t7 := by
    unfold t7
    refine Chg.step (State.setCore_chg _ _ _) rfl ?_
    assumption
  clear_value t7
  refine Chg.step (State.fset_chg _ _ _ _) rfl ?_
  assumption


theorem State.replayStage_chg (x0 : State) (x1 : Nat) (x2 : Nat) (x3 : List VecIn) :
    Chg 0x2d12008be9b908 x0 (State.replayStage x0 x1 x2 x3) := by
  unfold State.replayStage
  split
  · exact Chg.refl _ _
  · extract_lets w1 w2 t3 t4 t5 w6 w7 t8
    clear_value w1
    clear_value w2
    have ht3 : Chg 0x2d12008be9b908 x0 t3 := by
      unfold t3
      refine Chg.step (State.setCore_chg _ _ _) rfl ?_
      exact Chg.refl _ _
    clear_value t3
    have ht4 : Chg 0x2d12008be9b908 x0 t4 := by
      unfold t4
      refine Chg.foldl ?_ ?_
      · intro u9 u10 u11
        refine Chg.foldl ?_ ?_
        · intro u12 u13 u14
          refine Chg.ite ?_ ?_
          · assumption
          · refine Chg.step (State.dropVec_chg _ _ _ _ _) rfl ?_
            assumption
        · assumption
      · assumption
    clear_value t4
    have ht5 : Chg 0x2d12008be9b908 x0 t5 := by
      unfold t5
      refine Chg.foldl ?_ ?_
      · intro u15 u16 u17
        refine Chg.step (State.requestVec_chg _ _ _) rfl ?_
        assumption
      · assumption
    clear_value t5
    clear_value w6
    clear_value w7
    have ht8 : Chg 0x2d12008be9b908 x0 t8 := by
      unfold t8
      refine Chg.upd_fab rfl ?_
      assumption
    clear_value t8
    refine Chg.ite ?_ ?_
    · refine Chg.foldl ?_ ?_
      · intro u18 u19 u20
        refine Chg.step (State.resend_chg _ _) rfl ?_
        assumption
      · assumption
    · refine Chg.foldl ?_ ?_
      · intro u21 u22 u23
        refine Chg.step (State.replayVec_chg _ _ _ _ _) rfl ?_
        assumption
      · exact Chg.refl _ _


theorem execFailoverJoin_chg (x0 : Nat) (x1 : State) :
    ChgR 0xc3dfa30cbfff90c x1 (execFailoverJoin x0 x1) := by
  unfold execFailoverJoin
  split
  · split
    · refine ChgR.next ?_
      exact Chg.refl _ _
    · extract_lets w1 w2 t3 t4 w5 t6 t7 t8 t9 t10 t11 t12 t13 t14 t15
      clear_value w1
      clear_value w2
      have ht3 : Chg 0xc3dfa30cbfff90c x1 t3 := by
        unfold t3
        refine Chg.step (State.joinStage_chg _ _ _) rfl ?_
        exact Chg.refl _ _
      clear_value t3
      have ht4 : Chg 0xc3dfa30cbfff90c x1 t4 := by
        unfold t4
        refine Chg.step (State.setModel_chg _ _) rfl ?_
        assumption
      clear_value t4
      clear_value w5
      have ht6 : Chg 0xc3dfa30cbfff90c x1 t6 := by
        unfold t6
        refine Chg.upd_rel rfl ?_
        assumption
      clear_value t6
      have ht7 : Chg 0xc3dfa30cbfff90c x1 t7 := by
        unfold t7
        refine Chg.step (State.replayStage_chg _ _ _ _) rfl ?_
        refine Chg.step (State.fset_chg _ _ _ _) (by unfold lookState; split <;> rfl) ?_
        assumption
      clear_value t7
      have ht8 : Chg 0xc3dfa30cbfff90c x1 t8 := by
        unfold t8
        refine Chg.step (State.retireUnit_chg _ _ _) rfl ?_
        assumption
      clear_value t8
      have ht9 : Chg 0xc3dfa30cbfff90c x1 t9 := by
        unfold t9
        refine Chg.step (State.vacate_chg _ _) rfl ?_
        assumption
      clear_value t9
      have ht10 : Chg 0xc3dfa30cbfff90c x1 t10 := by
        unfold t10
        refine Chg.step (State.fset_chg _ _ _ _) rfl ?_
        assumption
      clear_value t10
      have ht11 : Chg 0xc3dfa30cbfff90c x1 t11 := by
        unfold t11
        refine Chg.step (State.fset_chg _ _ _ _) rfl ?_
        assumption
      clear_value t11
      have ht12 : Chg 0xc3dfa30cbfff90c x1 t12 := by
        unfold t12
        refine Chg.step (State.count_chg _ _ _) rfl ?_
        assumption
      clear_value t12
      have ht13 : Chg 0xc3dfa30cbfff90c x1 t13 := by
        unfold t13
        refine Chg.step (State.fault_chg _ _ _) rfl ?_
        assumption
      clear_value t13
      have ht14 : Chg 0xc3dfa30cbfff90c x1 t14 := by
        unfold t14
        refine Chg.step (State.log_chg _ _) rfl ?_
        assumption
      clear_value t14
      have ht15 : Chg 0xc3dfa30cbfff90c x1 t15 := by
        unfold t15
        refine Chg.foldl ?_ ?_
        · intro u16 u17 u18
          refine Chg.step (State.unsuspend_chg _ _ _) rfl ?_
          assumption
        · assumption
      clear_value t15
      refine ChgR.ite ?_ ?_
      · refine ChgR.next ?_
        exact Chg.refl _ _
      · refine ChgR.next ?_
        refine Chg.step (State.lookoutSpent_chg _ _) rfl ?_
        assumption
  · refine ChgR.next ?_
    exact Chg.refl _ _


theorem State.repairsEnd_chg (x0 : State) (x1 : Model) :
    Chg 0x10020000400908 x0 (State.repairsEnd x0 x1) := by
  unfold State.repairsEnd
  refine Chg.ite ?_ ?_
  · exact Chg.refl _ _
  · refine Chg.foldl ?_ ?_
    · intro u1 u2 u3
      refine Chg.step (State.unsuspend_chg _ _ _) rfl ?_
      assumption
    · exact Chg.refl _ _


theorem State.repairTile_chg (x0 : State) (x1 : Nat) (x2 : Nat) (x3 : Repairing) (x4 : Model) (x5 : MapEnt) (x6 : Nat) :
    Chg 0x438421089f98908 x0 (State.repairTile x0 x1 x2 x3 x4 x5 x6) := by
  unfold State.repairTile
  extract_lets w1 t2 w3 t4 t5
  clear_value w1
  have ht2 : Chg 0x438421089f98908 x0 t2 := by
    unfold t2
    refine Chg.step (State.writeMaster_chg _ _ _ _ _) rfl ?_
    exact Chg.refl _ _
  clear_value t2
  clear_value w3
  have ht4 : Chg 0x438421089f98908 x0 t4 := by
    unfold t4
    refine Chg.upd_rel rfl ?_
    assumption
  clear_value t4
  have ht5 : Chg 0x438421089f98908 x0 t5 := by
    unfold t5
    refine Chg.step (State.convict_chg _ _ _ _ _ _ _) rfl ?_
    assumption
  clear_value t5
  refine Chg.ite ?_ ?_
  · refine Chg.step (State.repairsEnd_chg _ _) rfl ?_
    refine Chg.step (State.setClean_chg _ _) rfl ?_
    assumption
  · refine Chg.step (State.digestMismatch_chg _ _ _) rfl ?_
    refine Chg.step (State.suspect_chg _ _ _) rfl ?_
    assumption


theorem execRepairDone_chg (x0 : Nat) (x1 : Nat) (x2 : State) :
    ChgR 0x438421089f98908 x2 (execRepairDone x0 x1 x2) := by
  unfold execRepairDone
  split
  · split
    · refine ChgR.next ?_
      refine Chg.step (State.repairTile_chg _ _ _ _ _ _ _) rfl ?_
      exact Chg.refl _ _
    · refine ChgR.next ?_
      exact Chg.refl _ _
  · refine ChgR.next ?_
    exact Chg.refl _ _


theorem State.convictTile_chg (x0 : State) (x1 : Model) (x2 : MapEnt) :
    Chg 0x438421089e98908 x0 (State.convictTile x0 x1 x2) := by
  unfold State.convictTile
  split
  · exact Chg.refl _ _
  · refine Chg.step (State.digestMismatch_chg _ _ _) rfl ?_
    exact Chg.refl _ _


theorem execModelVerifyDone_chg (x0 : Nat) (x1 : Nat) (x2 : State) :
    ChgR 0x438421089ed8908 x2 (execModelVerifyDone x0 x1 x2) := by
  unfold execModelVerifyDone
  split
  · refine ChgR.next ?_
    exact Chg.refl _ _
  · extract_lets t1 w2 w3 w4
    have ht1 : Chg 0x438421089ed8908 x2 t1 := by
      unfold t1
      refine Chg.step (State.setModel_chg _ _) rfl ?_
      exact Chg.refl _ _
    clear_value t1
    clear_value w2
    clear_value w3
    clear_value w4
    refine ChgR.ite ?_ ?_
    · refine ChgR.next ?_
      exact Chg.refl _ _
    · refine ChgR.ite ?_ ?_
      · refine ChgR.next ?_
        refine Chg.step (State.log_chg _ _) rfl ?_
        assumption
      · refine ChgR.next ?_
        refine Chg.foldl ?_ ?_
        · intro u5 u6 u7
          refine Chg.step (State.convictTile_chg _ _ _) rfl ?_
          assumption
        · assumption


theorem execRelCommit_chg (x0 : State) :
    ChgR 0x400020000400908 x0 (execRelCommit x0) := by
  unfold execRelCommit
  extract_lets w1 w2 w3
  clear_value w1
  clear_value w2
  clear_value w3
  refine ChgR.ite ?_ ?_
  · refine ChgR.next ?_
    refine State.applyAll_chg rfl ?_
    exact Chg.refl _ _
  · refine ChgR.next ?_
    refine Chg.step (State.log_chg _ _) rfl ?_
    refine Chg.step (State.flag_chg _ _ _) rfl ?_
    exact Chg.refl _ _


theorem State.setTdi_chg (x0 : State) (x1 : Nat) (x2 : Nat) :
    Chg 0x800082000000008 x0 (State.setTdi x0 x1 x2) := by
  unfold State.setTdi
  extract_lets w1
  clear_value w1
  refine Chg.step (State.ctxRefresh_chg _) rfl ?_
  refine Chg.upd_keep rfl ?_
  exact Chg.refl _ _


theorem State.setDef_chg (x0 : State) (x1 : Nat) (x2 : CtxDef) :
    Chg 0x800002000000008 x0 (State.setDef x0 x1 x2) := by
  unfold State.setDef
  extract_lets w1
  clear_value w1
  refine Chg.step (State.fset_chg _ _ _ _) rfl ?_
  refine Chg.upd_keep rfl ?_
  exact Chg.refl _ _


theorem State.tdiFail_chg (x0 : State) (x1 : Nat) :
    Chg 0x8100a2080600908 x0 (State.tdiFail x0 x1) := by
  unfold State.tdiFail
  extract_lets t1 t2
  have ht1 : Chg 0x8100a2080600908 x0 t1 := by
    unfold t1
    refine Chg.step (State.setTdi_chg _ _ _) rfl ?_
    exact Chg.refl _ _
  clear_value t1
  have ht2 : Chg 0x8100a2080600908 x0 t2 := by
    unfold t2
    refine Chg.foldl ?_ ?_
    · intro u3 u4 u5
      refine Chg.step (State.suspendAll_chg _ _ _ _) rfl ?_
      assumption
    · assumption
  clear_value t2
  refine Chg.ite ?_ ?_
  · exact Chg.refl _ _
  · refine Chg.step (State.log_chg _ _) rfl ?_
    assumption


theorem execTdiError_chg (x0 : Nat) (x1 : State) :
    ChgR 0x8100a2080600908 x1 (execTdiError x0 x1) := by
  unfold execTdiError
  refine ChgR.ite ?_ ?_
  · refine ChgR.next ?_
    exact Chg.refl _ _
  · refine ChgR.next ?_
    refine Chg.step (State.tdiFail_chg _ _) rfl ?_
    exact Chg.refl _ _


theorem execLockInterface_chg (x0 : Nat) (x1 : State) :
    ChgR 0x800082000000008 x1 (execLockInterface x0 x1) := by
  unfold execLockInterface
  refine ChgR.ite ?_ ?_
  · refine ChgR.next ?_
    exact Chg.refl _ _
  · refine ChgR.next ?_
    refine Chg.step (State.setTdi_chg _ _ _) rfl ?_
    exact Chg.refl _ _


theorem execStartInterface_chg (x0 : Nat) (x1 : Bool) (x2 : State) :
    ChgR 0x800082000000008 x2 (execStartInterface x0 x1 x2) := by
  unfold execStartInterface
  extract_lets t1 w2
  have ht1 : Chg 0x800082000000008 x2 t1 := by
    unfold t1
    refine Chg.step (State.setTdi_chg _ _ _) rfl ?_
    exact Chg.refl _ _
  clear_value t1
  clear_value w2
  refine ChgR.ite ?_ ?_
  · refine ChgR.next ?_
    exact Chg.refl _ _
  · refine ChgR.next ?_
    refine Chg.ite ?_ ?_
    · refine Chg.upd_keep rfl ?_
      assumption
    · assumption


theorem State.ctxDefine_chg (x0 : State) (x1 : KeepFrom) (x2 : Nat) (x3 : List Nat) :
    Chg 0x800082000000808 x0 (State.ctxDefine x0 x1 x2 x3) := by
  unfold State.ctxDefine
  extract_lets t1 t2 w3 t4
  have ht1 : Chg 0x800082000000808 x0 t1 := by
    unfold t1
    refine Chg.step (State.setDef_chg _ _ _) rfl ?_
    exact Chg.refl _ _
  clear_value t1
  have ht2 : Chg 0x800082000000808 x0 t2 := by
    unfold t2
    refine Chg.step (State.fset_chg _ _ _ _) rfl ?_
    assumption
  clear_value t2
  clear_value w3
  have ht4 : Chg 0x800082000000808 x0 t4 := by
    unfold t4
    refine Chg.upd_keep rfl ?_
    assumption
  clear_value t4
  refine Chg.ite ?_ ?_
  · refine Chg.step (State.keepDone_chg _ _ _ _) rfl ?_
    exact Chg.refl _ _
  · refine Chg.ite ?_ ?_
    · refine Chg.step (State.keepDone_chg _ _ _ _) rfl ?_
      exact Chg.refl _ _
    · refine Chg.step (State.keepDone_chg _ _ _ _) rfl ?_
      refine Chg.step (State.ctxRefresh_chg _) rfl ?_
      refine Chg.step (State.setCtxState_chg _ _ _) rfl ?_
      assumption


theorem State.ctxEnroll_chg (x0 : State) (x1 : KeepFrom) (x2 : Nat) (x3 : List Nat) :
    Chg 0x800002000000808 x0 (State.ctxEnroll x0 x1 x2 x3) := by
  unfold State.ctxEnroll
  extract_lets w1 w2
  clear_value w1
  clear_value w2
  split
  · refine Chg.step (State.keepDone_chg _ _ _ _) rfl ?_
    refine Chg.step (State.setDef_chg _ _ _) rfl ?_
    exact Chg.refl _ _
  · refine Chg.step (State.keepDone_chg _ _ _ _) rfl ?_
    exact Chg.refl _ _
  · refine Chg.step (State.keepDone_chg _ _ _ _) rfl ?_
    exact Chg.refl _ _


theorem State.ctxRevoke_chg (x0 : State) (x1 : KeepFrom) (x2 : Nat) (x3 : List Nat) :
    Chg 0x800002000000808 x0 (State.ctxRevoke x0 x1 x2 x3) := by
  unfold State.ctxRevoke
  extract_lets w1 w2
  clear_value w1
  clear_value w2
  split
  · refine Chg.ite ?_ ?_
    · refine Chg.step (State.keepDone_chg _ _ _ _) rfl ?_
      exact Chg.refl _ _
    · refine Chg.step (State.keepDone_chg _ _ _ _) rfl ?_
      refine Chg.step (State.setDef_chg _ _ _) rfl ?_
      exact Chg.refl _ _
  · refine Chg.step (State.keepDone_chg _ _ _ _) rfl ?_
    exact Chg.refl _ _
  · refine Chg.step (State.keepDone_chg _ _ _ _) rfl ?_
    exact Chg.refl _ _


theorem State.ctxSwap_chg (x0 : State) (x1 : KeepFrom) (x2 : Nat) (x3 : List Nat) :
    Chg 0x800002000000808 x0 (State.ctxSwap x0 x1 x2 x3) := by
  unfold State.ctxSwap
  extract_lets w1 w2 t3
  clear_value w1
  clear_value w2
  have ht3 : Chg 0x800002000000808 x0 t3 := by
    unfold t3
    refine Chg.upd_keep rfl ?_
    exact Chg.refl _ _
  clear_value t3
  refine Chg.ite ?_ ?_
  · refine Chg.step (State.keepDone_chg _ _ _ _) rfl ?_
    exact Chg.refl _ _
  · refine Chg.ite ?_ ?_
    · refine Chg.step (State.keepDone_chg _ _ _ _) rfl ?_
      exact Chg.refl _ _
    · refine Chg.ite ?_ ?_
      · refine Chg.step (State.keepDone_chg _ _ _ _) rfl ?_
        exact Chg.refl _ _
      · refine Chg.step (State.askFrame_chg _ _ _) rfl ?_
        refine Chg.step (State.setCtxState_chg _ _ _) rfl ?_
        assumption


theorem State.copyPage_chg (x0 : State) (x1 : Nat) (x2 : Nat) :
    Chg 0x100000 x0 (State.copyPage x0 x1 x2) := by
  unfold State.copyPage
  refine Chg.step (State.dramWrite_chg _ _ _) rfl ?_
  exact Chg.refl _ _


theorem State.scrubPage_chg (x0 : State) (x1 : Nat) :
    Chg 0x80000 x0 (State.scrubPage x0 x1) := by
  unfold State.scrubPage
  extract_lets w1
  clear_value w1
  refine Chg.upd_fab rfl ?_
  exact Chg.refl _ _


theorem State.parkRegion_chg (x0 : State) (x1 : Nat) (x2 : Nat) :
    Chg 0x180000 x0 (State.parkRegion x0 x1 x2).1 := by
  unfold State.parkRegion
  split
  · refine Chg.fst_mk ?_
    exact Chg.refl _ _
  · split
    · refine Chg.fst_mk ?_
      exact Chg.refl _ _
    · refine Chg.fst_mk ?_
      refine Chg.step (State.scrubPage_chg _ _) rfl ?_
      refine Chg.step (State.copyPage_chg _ _ _) rfl ?_
      refine ChgO.app ?_ (by assumption)
      refine ChgO.step (State.allocPage_chg _ _ _ _) rfl ?_
      exact Chg.refl _ _


theorem State.parkModel_chg (x0 : State) (x1 : Model) :
    Chg 0x20001c0000 x0 (State.parkModel x0 x1) := by
  unfold State.parkModel
  extract_lets w1
  clear_value w1
  split
  extract_lets w2
  clear_value w2
  refine Chg.upd_models_keep rfl rfl ?_
  refine Chg.of_fst (by assumption) ?_
  refine Chg.foldl_fst ?_ ?_
  · intro u3 u4 u5
    split
    refine Chg.fst_mk ?_
    refine Chg.of_fst (by assumption) ?_
    refine Chg.step (State.parkRegion_chg _ _ _) rfl ?_
    assumption
  · refine Chg.fst_mk ?_
    exact Chg.refl _ _


theorem State.restoreCore_chg (x0 : State) (x1 : Model) (x2 : StageRec) (x3 : Nat) (x4 : Nat) (x5 : CoreSt) :
    Chg 0x800e820001b9008 x0 (State.restoreCore x0 x1 x2 x3 x4 x5) := by
  unfold State.restoreCore
  extract_lets w1 t2 t3 t4 t5 t6 t7 t8 t9 w10 t11 t12
  clear_value w1
  have ht2 : Chg 0x800e820001b9008 x0 t2 := by
    unfold t2
    refine Chg.step (State.setCore_chg _ _ _) rfl ?_
    exact Chg.refl _ _
  clear_value t2
  have ht3 : Chg 0x800e820001b9008 x0 t3 := by
    unfold t3
    refine Chg.step (State.setRole_chg _ _ _ _ _) rfl ?_
    assumption
  clear_value t3
  have ht4 : Chg 0x800e820001b9008 x0 t4 := by
    unfold t4
    refine Chg.step (State.fset_chg _ _ _ _) rfl ?_
    assumption
  clear_value t4
  have ht5 : Chg 0x800e820001b9008 x0 t5 := by
    unfold t5
    refine Chg.step (State.fset_chg _ _ _ _) rfl ?_
    assumption
  clear_value t5
  have ht6 : Chg 0x800e820001b9008 x0 t6 := by
    unfold t6
    refine Chg.step (State.fset_chg _ _ _ _) rfl ?_
    assumption
  clear_value t6
  have ht7 : Chg 0x800e820001b9008 x0 t7 := by
    unfold t7
    refine Chg.step (State.fset_chg _ _ _ _) rfl ?_
    assumption
  clear_value t7
  have ht8 : Chg 0x800e820001b9008 x0 t8 := by
    unfold t8
    refine Chg.step (State.fset_chg _ _ _ _) rfl ?_
    assumption
  clear_value t8
  have ht9 : Chg 0x800e820001b9008 x0 t9 := by
    unfold t9
    split
    · assumption
    · refine Chg.step (State.fset_chg _ _ _ _) rfl ?_
      refine Chg.step (State.fset_chg _ _ _ _) rfl ?_
      assumption
  clear_value t9
  clear_value w10
  have ht11 : Chg 0x800e820001b9008 x0 t11 := by
    unfold t11
    refine Chg.step (State.setEngines_chg _ _ _ _) rfl ?_
    assumption
  clear_value t11
  have ht12 : Chg 0x800e820001b9008 x0 t12 := by
    unfold t12
    split
    · assumption
    · refine Chg.step (State.setProgram_chg _ _ _ _) rfl ?_
      assumption
  clear_value t12
  refine Chg.foldl ?_ ?_
  · intro u13 u14 u15
    refine Chg.step (State.putConstant_chg _ _ _) rfl ?_
    assumption
  · assumption


theorem State.restoreModel_chg (x0 : State) (x1 : Model) (x2 : List (Nat × CoreSt)) :
    Chg 0xc38ea3089ff9908 x0 (State.restoreModel x0 x1 x2) := by
  unfold State.restoreModel
  extract_lets w1 w2 w3 t4 w5 w6 t7 t8
  clear_value w1
  clear_value w2
  clear_value w3
  have ht4 : Chg 0xc38ea3089ff9908 x0 t4 := by
    unfold t4
    refine Chg.foldl ?_ ?_
    · intro u9 u10 u11
      extract_lets w12 t13
      clear_value w12
      have ht13 : Chg 0xc38ea3089ff9908 x0 t13 := by
        unfold t13
        refine Chg.upd_fab rfl ?_
        assumption
      clear_value t13
      refine Chg.step (State.scrubPage_chg _ _) rfl ?_
      refine Chg.step (State.copyPage_chg _ _ _) rfl ?_
      assumption
    · exact Chg.refl _ _
  clear_value t4
  clear_value w5
  clear_value w6
  have ht7 : Chg 0xc38ea3089ff9908 x0 t7 := by
    unfold t7
    refine Chg.upd_models rfl ?_
    assumption
  clear_value t7
  have ht8 : Chg 0xc38ea3089ff9908 x0 t8 := by
    unfold t8
    refine Chg.foldl ?_ ?_
    · intro u14 u15 u16
      refine Chg.foldl ?_ ?_
      · intro u17 u18 u19
        refine Chg.step (State.restoreCore_chg _ _ _ _ _ _) rfl ?_
        assumption
      · assumption
    · assumption
  clear_value t8
  refine Chg.foldl ?_ ?_
  · intro u20 u21 u22
    refine Chg.ite ?_ ?_
    · assumption
    · refine Chg.step (State.convictTile_chg _ _ _) rfl ?_
      assumption
  · assumption


theorem State.swapGo_chg (x0 : State) :
    Chg 0xc3aea3089ff9908 x0 (State.swapGo x0) := by
  unfold State.swapGo
  split
  · exact Chg.refl _ _
  · extract_lets w1 w2 t3 w4 t5 t6 t7
    clear_value w1
    clear_value w2
    have ht3 : Chg 0xc3aea3089ff9908 x0 t3 := by
      unfold t3
      refine Chg.step (State.setCtxState_chg _ _ _) rfl ?_
      exact Chg.refl _ _
    clear_value t3
    clear_value w4
    have ht5 : Chg 0xc3aea3089ff9908 x0 t5 := by
      unfold t5
      refine Chg.upd_keep rfl ?_
      assumption
    clear_value t5
    have ht6 : Chg 0xc3aea3089ff9908 x0 t6 := by
      unfold t6
      refine Chg.foldl ?_ ?_
      · intro u8 u9 u10
        refine Chg.step (State.restoreModel_chg _ _ _) rfl ?_
        assumption
      · assumption
    clear_value t6
    have ht7 : Chg 0xc3aea3089ff9908 x0 t7 := by
      unfold t7
      refine Chg.ite ?_ ?_
      · assumption
      · refine Chg.step (State.setCtxState_chg _ _ _) rfl ?_
        assumption
    clear_value t7
    refine Chg.ite ?_ ?_
    · exact Chg.refl _ _
    · refine Chg.ite ?_ ?_
      · refine Chg.step (State.keepDone_chg _ _ _ _) rfl ?_
        refine Chg.step (State.shares_chg _) rfl ?_
        refine Chg.step (State.ctxRefresh_chg _) rfl ?_
        refine Chg.upd_keep rfl ?_
        assumption
      · refine Chg.step (State.swapEnd_chg _ _) rfl ?_
        refine Chg.step (State.shares_chg _) rfl ?_
        refine Chg.step (State.ctxRefresh_chg _) rfl ?_
        assumption


theorem State.emptyCore_chg (x0 : State) (x1 : Nat) :
    Chg 0x8000013b008 x0 (State.emptyCore x0 x1) := by
  unfold State.emptyCore
  extract_lets t1 t2 t3 t4 w5 t6 w7 t8 t9
  have ht1 : Chg 0x8000013b008 x0 t1 := by
    unfold t1
    refine Chg.upd_sram rfl ?_ ?_
    · exact cellsWf_filter _ _
    · exact Chg.refl _ _
  clear_value t1
  have ht2 : Chg 0x8000013b008 x0 t2 := by
    unfold t2
    refine Chg.foldl ?_ ?_
    · intro u10 u11 u12
      extract_lets w13
      clear_value w13
      refine Chg.step (State.setEngine_chg _ _ _ _) rfl ?_
      assumption
    · assumption
  clear_value t2
  have ht3 : Chg 0x8000013b008 x0 t3 := by
    unfold t3
    refine Chg.step (State.setTile_chg _ _ _ _) rfl ?_
    refine Chg.step (State.setTile_chg _ _ _ _) rfl ?_
    assumption
  clear_value t3
  have ht4 : Chg 0x8000013b008 x0 t4 := by
    unfold t4
    refine Chg.step (State.zeroScratch_chg _ _) rfl ?_
    assumption
  clear_value t4
  clear_value w5
  have ht6 : Chg 0x8000013b008 x0 t6 := by
    unfold t6
    refine Chg.step (State.setCore_chg _ _ _) rfl ?_
    assumption
  clear_value t6
  clear_value w7
  have ht8 : Chg 0x8000013b008 x0 t8 := by
    unfold t8
    refine Chg.step (State.setSeq_chg _ _ _) rfl ?_
    assumption
  clear_value t8
  have ht9 : Chg 0x8000013b008 x0 t9 := by
    unfold t9
    refine Chg.step (State.fset_chg _ _ _ _) rfl ?_
    assumption
  clear_value t9
  refine Chg.foldl ?_ ?_
  · intro u14 u15 u16
    refine Chg.step (State.putConstant_chg _ _ _) rfl ?_
    assumption
  · assumption


theorem State.frameSwitch_chg (x0 : State) (x1 : Nat) (x2 : Nat) (x3 : Nat) :
    Chg 0x400000169008 x0 (State.frameSwitch x0 x1 x2 x3) := by
  unfold State.frameSwitch
  split
  · exact Chg.refl _ _
  · split
    · exact Chg.refl _ _
    · extract_lets w1 t2
      clear_value w1
      have ht2 : Chg 0x400000169008 x0 t2 := by
        unfold t2
        refine Chg.foldl ?_ ?_
        · intro u3 u4 u5
          refine Chg.foldl ?_ ?_
          · intro u6 u7 u8
            refine Chg.step (State.genCore_chg _ _ _ _ _) rfl ?_
            assumption
          · assumption
        · exact Chg.refl _ _
      clear_value t2
      refine Chg.step (State.setModel_chg _ _) rfl ?_
      assumption


theorem State.frameEpochs_chg (x0 : State) (x1 : Nat) :
    Chg 0x80000 x0 (State.frameEpochs x0 x1) := by
  unfold State.frameEpochs
  refine Chg.foldl ?_ ?_
  · intro u1 u2 u3
    refine Chg.foldl ?_ ?_
    · intro u4 u5 u6
      extract_lets w7
      clear_value w7
      refine Chg.step (State.newEpoch_chg _ _ _) rfl ?_
      assumption
    · assumption
  · exact Chg.refl _ _


theorem State.frameSwap_chg (x0 : State) (x1 : Nat) :
    Chg 0xc3aea3089fff908 x0 (State.frameSwap x0 x1) := by
  unfold State.frameSwap
  extract_lets w1 t2 t3 w4 t5
  clear_value w1
  have ht2 : Chg 0xc3aea3089fff908 x0 t2 := by
    unfold t2
    refine Chg.foldl ?_ ?_
    · intro u6 u7 u8
      refine Chg.step (State.parkModel_chg _ _) rfl ?_
      assumption
    · exact Chg.refl _ _
  clear_value t2
  have ht3 : Chg 0xc3aea3089fff908 x0 t3 := by
    unfold t3
    refine Chg.foldl ?_ ?_
    · intro u9 u10 u11
      refine Chg.step (State.vacate_chg _ _) rfl ?_
      assumption
    · assumption
  clear_value t3
  clear_value w4
  have ht5 : Chg 0xc3aea3089fff908 x0 t5 := by
    unfold t5
    refine Chg.upd_keep rfl ?_
    assumption
  clear_value t5
  refine Chg.step (State.swapGo_chg _) rfl ?_
  assumption


theorem State.frameDo_chg (x0 : State) (x1 : Nat) (x2 : FrameWhy) :
    Chg 0xc3aea3089fff908 x0 (State.frameDo x0 x1 x2) := by
  unfold State.frameDo
  split
  · refine Chg.step (State.frameSwitch_chg _ _ _ _) rfl ?_
    exact Chg.refl _ _
  · refine Chg.step (State.frameSwap_chg _ _) rfl ?_
    exact Chg.refl _ _
  · refine Chg.step (State.frameEpochs_chg _ _) rfl ?_
    exact Chg.refl _ _
  · extract_lets w1 w2
    clear_value w2
    refine Chg.upd_mgmt rfl ?_
    exact Chg.refl _ _


theorem execFrameBoundary_chg (x0 : Nat) (x1 : State) :
    ChgR 0xc3afa3089fff90c x1 (execFrameBoundary x0 x1) := by
  unfold execFrameBoundary
  extract_lets w1 w2 w3 w4 t5 t6 t7
  clear_value w1
  clear_value w2
  clear_value w3
  clear_value w4
  have ht5 : Chg 0xc3afa3089fff90c x1 t5 := by
    unfold t5
    refine Chg.upd_keep rfl ?_
    exact Chg.refl _ _
  clear_value t5
  have ht6 : Chg 0xc3afa3089fff90c x1 t6 := by
    unfold t6
    refine Chg.foldl ?_ ?_
    · intro u8 u9 u10
      refine Chg.step (State.emptyCore_chg _ _) rfl ?_
      assumption
    · assumption
  clear_value t6
  have ht7 : Chg 0xc3afa3089fff90c x1 t7 := by
    unfold t7
    refine Chg.foldl ?_ ?_
    · intro u11 u12 u13
      refine Chg.step (State.frameDo_chg _ _ _) rfl ?_
      assumption
    · assumption
  clear_value t7
  refine ChgR.ite ?_ ?_
  · refine ChgR.next ?_
    exact Chg.refl _ _
  · refine ChgR.next ?_
    refine Chg.step (State.frameResume_chg _ _) rfl ?_
    assumption


theorem State.endLane_chg (x0 : State) (x1 : Nat) :
    Chg 0x380200cbe98f08 x0 (State.endLane x0 x1) := by
  unfold State.endLane
  extract_lets w1 t2 w3 t4 w5 t6
  clear_value w1
  have ht2 : Chg 0x380200cbe98f08 x0 t2 := by
    unfold t2
    refine Chg.ite ?_ ?_
    · exact Chg.refl _ _
    · refine Chg.step (State.beginRelease_chg _ _) rfl ?_
      exact Chg.refl _ _
  clear_value t2
  clear_value w3
  have ht4 : Chg 0x380200cbe98f08 x0 t4 := by
    unfold t4
    refine Chg.foldl ?_ ?_
    · intro u7 u8 u9
      refine Chg.step (State.endReleased_chg _ _) rfl ?_
      assumption
    · assumption
  clear_value t4
  clear_value w5
  have ht6 : Chg 0x380200cbe98f08 x0 t6 := by
    unfold t6
    refine Chg.step (State.freeLane_chg _ _) rfl ?_
    refine Chg.step (State.setLane_chg _ _ _) rfl ?_
    assumption
  clear_value t6
  refine Chg.ite ?_ ?_
  · split
    · assumption
    · refine Chg.step (State.done_chg _ _ _ _) rfl ?_
      assumption
  · refine Chg.step (State.freeLane_chg _ _) rfl ?_
    assumption


theorem State.endLoads_chg (x0 : State) (x1 : Nat) :
    Chg 0x8022008c00908 x0 (State.endLoads x0 x1) := by
  unfold State.endLoads
  extract_lets w1 t2 t3
  clear_value w1
  have ht2 : Chg 0x8022008c00908 x0 t2 := by
    unfold t2
    refine Chg.upd_keep rfl ?_
    exact Chg.refl _ _
  clear_value t2
  have ht3 : Chg 0x8022008c00908 x0 t3 := by
    unfold t3
    split
    · exact Chg.refl _ _
    · refine Chg.step (State.loadRefuse_chg _ _ _ _ _ _) rfl ?_
      assumption
  clear_value t3
  refine Chg.foldl ?_ ?_
  · intro u4 u5 u6
    split
    · assumption
    · refine Chg.step (State.loadRefuse_chg _ _ _ _ _ _) rfl ?_
      assumption
  · assumption


theorem State.destroyCtx_chg (x0 : State) (x1 : Nat) (x2 : Option KeepFrom) :
    Chg 0xb3a6a28cbedff08 x0 (State.destroyCtx x0 x1 x2) := by
  unfold State.destroyCtx
  extract_lets t1 t2 t3 t4 w5 t6 t7 t8 t9
  have ht1 : Chg 0xb3a6a28cbedff08 x0 t1 := by
    unfold t1
    refine Chg.foldl ?_ ?_
    · intro u10 u11 u12
      refine Chg.step (State.endLane_chg _ _) rfl ?_
      assumption
    · exact Chg.refl _ _
  clear_value t1
  have ht2 : Chg 0xb3a6a28cbedff08 x0 t2 := by
    unfold t2
    refine Chg.step (State.endLoads_chg _ _) rfl ?_
    assumption
  clear_value t2
  have ht3 : Chg 0xb3a6a28cbedff08 x0 t3 := by
    unfold t3
    refine Chg.foldl ?_ ?_
    · intro u13 u14 u15
      refine Chg.step (State.dropModel_chg _ _) rfl ?_
      assumption
    · assumption
  clear_value t3
  have ht4 : Chg 0xb3a6a28cbedff08 x0 t4 := by
    unfold t4
    refine Chg.foldl ?_ ?_
    · intro u16 u17 u18
      refine Chg.step (State.releaseModel_chg _ _) rfl ?_
      assumption
    · assumption
  clear_value t4
  clear_value w5
  have ht6 : Chg 0xb3a6a28cbedff08 x0 t6 := by
    unfold t6
    refine Chg.upd_keep rfl ?_
    assumption
  clear_value t6
  have ht7 : Chg 0xb3a6a28cbedff08 x0 t7 := by
    unfold t7
    refine Chg.step (State.scrubPages_chg _ _) rfl ?_
    assumption
  clear_value t7
  have ht8 : Chg 0xb3a6a28cbedff08 x0 t8 := by
    unfold t8
    refine Chg.step (State.fset_chg _ _ _ _) rfl ?_
    assumption
  clear_value t8
  have ht9 : Chg 0xb3a6a28cbedff08 x0 t9 := by
    unfold t9
    refine Chg.step (State.fset_chg _ _ _ _) rfl ?_
    assumption
  clear_value t9
  refine Chg.step (State.ctxRefresh_chg _) rfl ?_
  refine Chg.step (State.setCtxState_chg _ _ _) rfl ?_
  assumption


theorem State.destroyOne_chg (x0 : State) (x1 : Destroy) :
    Chg 0x8000a2000400908 x0 (State.destroyOne x0 x1) := by
  unfold State.destroyOne
  extract_lets w1 t2 t3 t4 t5 w6
  clear_value w1
  have ht2 : Chg 0x8000a2000400908 x0 t2 := by
    unfold t2
    refine Chg.upd_keep rfl ?_
    exact Chg.refl _ _
  clear_value t2
  have ht3 : Chg 0x8000a2000400908 x0 t3 := by
    unfold t3
    refine Chg.step (State.fset_chg _ _ _ _) rfl ?_
    assumption
  clear_value t3
  have ht4 : Chg 0x8000a2000400908 x0 t4 := by
    unfold t4
    refine Chg.step (State.fset_chg _ _ _ _) rfl ?_
    assumption
  clear_value t4
  have ht5 : Chg 0x8000a2000400908 x0 t5 := by
    unfold t5
    refine Chg.step (State.log_chg _ _) rfl ?_
    refine Chg.step (State.setCtxState_chg _ _ _) rfl ?_
    assumption
  clear_value t5
  clear_value w6
  refine Chg.ite ?_ ?_
  · exact Chg.refl _ _
  · split
    · refine Chg.step (State.keepDone_chg _ _ _ _) rfl ?_
      refine Chg.step (State.ctxRefresh_chg _) rfl ?_
      assumption
    · refine Chg.ite ?_ ?_
      · refine Chg.step (State.ctxRefresh_chg _) rfl ?_
        assumption
      · refine Chg.step (State.setTdi_chg _ _ _) rfl ?_
        assumption


theorem State.destroyGo_chg (x0 : State) :
    Chg 0x8000a2000400908 x0 (State.destroyGo x0) := by
  unfold State.destroyGo
  refine Chg.foldl ?_ ?_
  · intro u1 u2 u3
    refine Chg.step (State.destroyOne_chg _ _) rfl ?_
    assumption
  · exact Chg.refl _ _


theorem State.ctxDestroy_chg (x0 : State) (x1 : KeepFrom) (x2 : Nat) (x3 : List Nat) :
    Chg 0xb3a6a28cbedff08 x0 (State.ctxDestroy x0 x1 x2 x3) := by
  unfold State.ctxDestroy
  refine Chg.ite ?_ ?_
  · refine Chg.step (State.keepDone_chg _ _ _ _) rfl ?_
    exact Chg.refl _ _
  · refine Chg.ite ?_ ?_
    · refine Chg.step (State.keepDone_chg _ _ _ _) rfl ?_
      exact Chg.refl _ _
    · refine Chg.step (State.destroyGo_chg _) rfl ?_
      refine Chg.step (State.destroyCtx_chg _ _ _) rfl ?_
      exact Chg.refl _ _


theorem State.endInterface_chg (x0 : State) (x1 : Nat) :
    Chg 0xb3a6a28cbedff08 x0 (State.endInterface x0 x1) := by
  unfold State.endInterface
  extract_lets w1
  clear_value w1
  refine Chg.ite ?_ ?_
  · refine Chg.step (State.setTdi_chg _ _ _) rfl ?_
    exact Chg.refl _ _
  · refine Chg.step (State.destroyGo_chg _) rfl ?_
    refine Chg.foldl ?_ ?_
    · intro u2 u3 u4
      refine Chg.step (State.destroyCtx_chg _ _ _) rfl ?_
      assumption
    · exact Chg.refl _ _


theorem execStopInterface_chg (x0 : Nat) (x1 : State) :
    ChgR 0xb3a6a28cbedff08 x1 (execStopInterface x0 x1) := by
  unfold execStopInterface
  refine ChgR.ite ?_ ?_
  · refine ChgR.next ?_
    exact Chg.refl _ _
  · refine ChgR.next ?_
    refine Chg.step (State.endInterface_chg _ _) rfl ?_
    exact Chg.refl _ _


theorem execVfFlr_chg (x0 : Nat) (x1 : State) :
    ChgR 0xb3a6a28ffedff18 x1 (execVfFlr x0 x1) := by
  unfold execVfFlr
  extract_lets t1
  have ht1 : Chg 0xb3a6a28ffedff18 x1 t1 := by
    unfold t1
    refine Chg.step (State.log_chg _ _) rfl ?_
    refine Chg.step (State.flr_chg _ _) rfl ?_
    exact Chg.refl _ _
  clear_value t1
  refine ChgR.ite ?_ ?_
  · refine ChgR.next ?_
    exact Chg.refl _ _
  · refine ChgR.next ?_
    refine Chg.ite ?_ ?_
    · assumption
    · refine Chg.step (State.endInterface_chg _ _) rfl ?_
      assumption


theorem execPfFlr_chg (x0 : State) :
    ChgR 0x8180a20fde00918 x0 (execPfFlr x0) := by
  unfold execPfFlr
  extract_lets t1 t2
  have ht1 : Chg 0x8180a20fde00918 x0 t1 := by
    unfold t1
    refine Chg.foldl ?_ ?_
    · intro u3 u4 u5
      refine Chg.step (State.flr_chg _ _) rfl ?_
      assumption
    · exact Chg.refl _ _
  clear_value t1
  have ht2 : Chg 0x8180a20fde00918 x0 t2 := by
    unfold t2
    refine Chg.step (State.log_chg _ _) rfl ?_
    assumption
  clear_value t2
  refine ChgR.next ?_
  refine Chg.foldl ?_ ?_
  · intro u6 u7 u8
    refine Chg.step (State.tdiFail_chg _ _) rfl ?_
    assumption
  · assumption


theorem execPageScrubDone_chg (x0 : Nat) (x1 : State) :
    ChgR 0x8000a2000580908 x1 (execPageScrubDone x0 x1) := by
  unfold execPageScrubDone
  split
  · refine ChgR.next ?_
    exact Chg.refl _ _
  · extract_lets w1 t2
    clear_value w1
    have ht2 : Chg 0x8000a2000580908 x1 t2 := by
      unfold t2
      refine Chg.upd_fab_dram rfl rfl ?_ ?_
      · exact cellsWf_filter _ _
      · exact Chg.refl _ _
    clear_value t2
    refine ChgR.ite ?_ ?_
    · refine ChgR.next ?_
      exact Chg.refl _ _
    · refine ChgR.next ?_
      refine Chg.step (State.destroyGo_chg _) rfl ?_
      assumption


theorem execDecayCertified_chg (x0 : Nat) (x1 : State) :
    ChgR 0xc3aea3089ff9908 x1 (execDecayCertified x0 x1) := by
  unfold execDecayCertified
  split
  · refine ChgR.next ?_
    exact Chg.refl _ _
  · extract_lets t1 w2 t3 t4 t5
    have ht1 : Chg 0xc3aea3089ff9908 x1 t1 := by
      unfold t1
      refine Chg.foldl ?_ ?_
      · intro u6 u7 u8
        refine Chg.step (State.setEngine_chg _ _ _ _) rfl ?_
        assumption
      · exact Chg.refl _ _
    clear_value t1
    clear_value w2
    have ht3 : Chg 0xc3aea3089ff9908 x1 t3 := by
      unfold t3
      refine Chg.upd_keep rfl ?_
      assumption
    clear_value t3
    have ht4 : Chg 0xc3aea3089ff9908 x1 t4 := by
      unfold t4
      refine Chg.step (State.fset_chg _ _ _ _) rfl ?_
      assumption
    clear_value t4
    have ht5 : Chg 0xc3aea3089ff9908 x1 t5 := by
      unfold t5
      refine Chg.step (State.fset_chg _ _ _ _) rfl ?_
      assumption
    clear_value t5
    refine ChgR.next ?_
    refine Chg.step (State.retarget_chg _) rfl ?_
    refine Chg.step (State.designate_chg _) rfl ?_
    refine Chg.step (State.destroyGo_chg _) rfl ?_
    refine Chg.step (State.swapGo_chg _) rfl ?_
    assumption


theorem execDecayTimeout_chg (x0 : Nat) (x1 : State) :
    ChgR 0xc3aea30c9ffd908 x1 (execDecayTimeout x0 x1) := by
  unfold execDecayTimeout
  split
  · refine ChgR.next ?_
    exact Chg.refl _ _
  · extract_lets t1 t2 w3 t4 t5
    have ht1 : Chg 0xc3aea30c9ffd908 x1 t1 := by
      unfold t1
      refine Chg.step (State.count_chg _ _ _) rfl ?_
      exact Chg.refl _ _
    clear_value t1
    have ht2 : Chg 0xc3aea30c9ffd908 x1 t2 := by
      unfold t2
      refine Chg.step (State.log_chg _ _) rfl ?_
      assumption
    clear_value t2
    clear_value w3
    have ht4 : Chg 0xc3aea30c9ffd908 x1 t4 := by
      unfold t4
      refine Chg.upd_keep rfl ?_
      assumption
    clear_value t4
    have ht5 : Chg 0xc3aea30c9ffd908 x1 t5 := by
      unfold t5
      refine Chg.step (State.fset_chg _ _ _ _) rfl ?_
      assumption
    clear_value t5
    refine ChgR.ite ?_ ?_
    · refine ChgR.next ?_
      exact Chg.refl _ _
    · refine ChgR.ite ?_ ?_
      · refine ChgR.next ?_
        refine Chg.step (State.beginBleed_chg _ _ _ _) rfl ?_
        refine Chg.step (State.suspect_chg _ _ _) rfl ?_
        assumption
      · refine ChgR.next ?_
        refine Chg.step (State.destroyGo_chg _) rfl ?_
        refine Chg.step (State.swapGo_chg _) rfl ?_
        refine Chg.step (State.retire_chg _ _ _) rfl ?_
        assumption


theorem State.rotate_chg (x0 : State) (x1 : Nat) :
    Chg 0x800002000000008 x0 (State.rotate x0 x1) := by
  unfold State.rotate
  extract_lets t1 w2 t3
  have ht1 : Chg 0x800002000000008 x0 t1 := by
    unfold t1
    refine Chg.step (State.fset_chg _ _ _ _) rfl ?_
    exact Chg.refl _ _
  clear_value t1
  clear_value w2
  have ht3 : Chg 0x800002000000008 x0 t3 := by
    unfold t3
    refine Chg.upd_keep rfl ?_
    assumption
  clear_value t3
  refine Chg.step (State.fset_chg _ _ _ _) rfl ?_
  refine Chg.step (State.fset_chg _ _ _ _) rfl ?_
  assumption


theorem State.keyRotate_chg (x0 : State) (x1 : KeepFrom) (x2 : Nat) (x3 : List Nat) :
    Chg 0x800002000000808 x0 (State.keyRotate x0 x1 x2 x3) := by
  unfold State.keyRotate
  refine Chg.ite ?_ ?_
  · refine Chg.step (State.keepDone_chg _ _ _ _) rfl ?_
    exact Chg.refl _ _
  · refine Chg.ite ?_ ?_
    · refine Chg.step (State.keepDone_chg _ _ _ _) rfl ?_
      exact Chg.refl _ _
    · refine Chg.ite ?_ ?_
      · refine Chg.step (State.keepDone_chg _ _ _ _) rfl ?_
        exact Chg.refl _ _
      · refine Chg.step (State.keepDone_chg _ _ _ _) rfl ?_
        refine Chg.step (State.rotate_chg _ _) rfl ?_
        exact Chg.refl _ _


theorem execRotationTimer_chg (x0 : Nat) (x1 : State) :
    ChgR 0x800002000000008 x1 (execRotationTimer x0 x1) := by
  unfold execRotationTimer
  extract_lets w1
  clear_value w1
  refine ChgR.ite ?_ ?_
  · refine ChgR.next ?_
    exact Chg.refl _ _
  · refine ChgR.next ?_
    refine Chg.step (State.rotate_chg _ _) rfl ?_
    exact Chg.refl _ _


theorem execRotationDone_chg (x0 : Nat) (x1 : State) :
    ChgR 0x800022000480908 x1 (execRotationDone x0 x1) := by
  unfold execRotationDone
  extract_lets w1 w2 w3 t4 t5 t6
  clear_value w1
  clear_value w2
  clear_value w3
  have ht4 : Chg 0x800022000480908 x1 t4 := by
    unfold t4
    refine Chg.upd_fab_keep rfl rfl ?_
    exact Chg.refl _ _
  clear_value t4
  have ht5 : Chg 0x800022000480908 x1 t5 := by
    unfold t5
    refine Chg.step (State.fset_chg _ _ _ _) rfl ?_
    assumption
  clear_value t5
  have ht6 : Chg 0x800022000480908 x1 t6 := by
    unfold t6
    refine Chg.step (State.fset_chg _ _ _ _) rfl ?_
    assumption
  clear_value t6
  refine ChgR.ite ?_ ?_
  · refine ChgR.next ?_
    exact Chg.refl _ _
  · refine ChgR.next ?_
    refine Chg.step (State.log_chg _ _) rfl ?_
    assumption


theorem State.relRead_chg (x0 : State) (x1 : KeepFrom) (x2 : Nat) (x3 : List Nat) :
    Chg 0x800000000000808 x0 (State.relRead x0 x1 x2 x3) := by
  unfold State.relRead
  refine Chg.ite ?_ ?_
  · refine Chg.step (State.keepDone_chg _ _ _ _) rfl ?_
    exact Chg.refl _ _
  · split
    · refine Chg.step (State.keepDone_chg _ _ _ _) rfl ?_
      exact Chg.refl _ _
    · refine Chg.step (State.keepDone_chg _ _ _ _) rfl ?_
      exact Chg.refl _ _


theorem State.releaseFail_chg (x0 : State) (x1 : Nat) (x2 : PendLoad) :
    Chg 0x8022008c00908 x0 (State.releaseFail x0 x1 x2) := by
  unfold State.releaseFail
  extract_lets w1 t2 t3
  clear_value w1
  have ht2 : Chg 0x8022008c00908 x0 t2 := by
    unfold t2
    refine Chg.upd_keep rfl ?_
    exact Chg.refl _ _
  clear_value t2
  have ht3 : Chg 0x8022008c00908 x0 t3 := by
    unfold t3
    refine Chg.step (State.log_chg _ _) rfl ?_
    assumption
  clear_value t3
  refine Chg.step (State.loadRefuse_chg _ _ _ _ _ _) rfl ?_
  assumption


theorem State.keyRelease_chg (x0 : State) (x1 : KeepFrom) (x2 : Nat) (x3 : List Nat) :
    Chg 0xd0aea3008dfd90c x0 (State.keyRelease x0 x1 x2 x3) := by
  unfold State.keyRelease
  refine Chg.ite ?_ ?_
  · refine Chg.step (State.keepDone_chg _ _ _ _) rfl ?_
    exact Chg.refl _ _
  · split
    · refine Chg.step (State.keepDone_chg _ _ _ _) rfl ?_
      exact Chg.refl _ _
    · split
      · refine Chg.step (State.keepDone_chg _ _ _ _) rfl ?_
        refine Chg.step (State.releaseFail_chg _ _ _) rfl ?_
        refine Chg.step (State.count_chg _ _ _) rfl ?_
        exact Chg.refl _ _
      · extract_lets w1 w2 w3 t4 t5
        clear_value w1
        clear_value w2
        clear_value w3
        have ht4 : Chg 0xd0aea3008dfd90c x0 t4 := by
          unfold t4
          refine Chg.upd_keep rfl ?_
          exact Chg.refl _ _
        clear_value t4
        have ht5 : Chg 0xd0aea3008dfd90c x0 t5 := by
          unfold t5
          refine Chg.step (State.keepDone_chg _ _ _ _) rfl ?_
          assumption
        clear_value t5
        refine Chg.step (State.loadPlain_chg _ _ _ _) rfl ?_
        assumption


theorem execReleaseTimeout_chg (x0 : Nat) (x1 : State) :
    ChgR 0x8022008c00908 x1 (execReleaseTimeout x0 x1) := by
  unfold execReleaseTimeout
  split
  · refine ChgR.next ?_
    exact Chg.refl _ _
  · refine ChgR.ite ?_ ?_
    · refine ChgR.next ?_
      exact Chg.refl _ _
    · refine ChgR.next ?_
      refine Chg.step (State.releaseFail_chg _ _ _) rfl ?_
      exact Chg.refl _ _


theorem State.certRead_chg (x0 : State) (x1 : KeepFrom) (x2 : Nat) (x3 : List Nat) :
    Chg 0x800000000000808 x0 (State.certRead x0 x1 x2 x3) := by
  unfold State.certRead
  refine Chg.ite ?_ ?_
  · refine Chg.step (State.keepDone_chg _ _ _ _) rfl ?_
    exact Chg.refl _ _
  · refine Chg.ite ?_ ?_
    · refine Chg.step (State.keepDone_chg _ _ _ _) rfl ?_
      exact Chg.refl _ _
    · refine Chg.step (State.keepDone_chg _ _ _ _) rfl ?_
      exact Chg.refl _ _


theorem State.attAnswer_chg (x0 : State) (x1 : AttReq) :
    Chg 0x800000000000808 x0 (State.attAnswer x0 x1) := by
  unfold State.attAnswer
  split
  · refine Chg.step (State.emit_chg _ _) rfl ?_
    exact Chg.refl _ _
  · refine Chg.step (State.keepDone_chg _ _ _ _) rfl ?_
    exact Chg.refl _ _


theorem State.attRequest_chg (x0 : State) (x1 : AttReq) :
    Chg 0x800002000000808 x0 (State.attRequest x0 x1) := by
  unfold State.attRequest
  extract_lets w1
  clear_value w1
  refine Chg.ite ?_ ?_
  · refine Chg.step (State.attAnswer_chg _ _) rfl ?_
    exact Chg.refl _ _
  · refine Chg.ite ?_ ?_
    · refine Chg.step (State.keepDone_chg _ _ _ _) rfl ?_
      exact Chg.refl _ _
    · refine Chg.step (State.count_chg _ _ _) rfl ?_
      refine Chg.upd_keep rfl ?_
      exact Chg.refl _ _


theorem State.attest_chg (x0 : State) (x1 : KeepFrom) (x2 : Nat) (x3 : List Nat) :
    Chg 0x800002000000808 x0 (State.attest x0 x1 x2 x3) := by
  unfold State.attest
  extract_lets t1
  have ht1 : Chg 0x800002000000808 x0 t1 := by
    unfold t1
    refine Chg.step (State.count_chg _ _ _) rfl ?_
    exact Chg.refl _ _
  clear_value t1
  refine Chg.ite ?_ ?_
  · refine Chg.step (State.keepDone_chg _ _ _ _) rfl ?_
    assumption
  · refine Chg.step (State.attRequest_chg _ _) rfl ?_
    assumption


theorem execGetMeasurements_chg (x0 : List Nat) (x1 : State) :
    ChgR 0x800002000000808 x1 (execGetMeasurements x0 x1) := by
  unfold execGetMeasurements
  refine ChgR.next ?_
  refine Chg.step (State.attRequest_chg _ _) rfl ?_
  exact Chg.refl _ _


theorem execSettlingEnd_chg (x0 : State) :
    ChgR 0x800002000000808 x0 (execSettlingEnd x0) := by
  unfold execSettlingEnd
  extract_lets w1 w2 t3
  clear_value w1
  clear_value w2
  have ht3 : Chg 0x800002000000808 x0 t3 := by
    unfold t3
    refine Chg.upd_keep rfl ?_
    exact Chg.refl _ _
  clear_value t3
  refine ChgR.next ?_
  refine Chg.foldl ?_ ?_
  · intro u4 u5 u6
    refine Chg.step (State.attAnswer_chg _ _) rfl ?_
    assumption
  · assumption


theorem execAttestTimeout_chg (x0 : State) :
    ChgR 0x800002000000808 x0 (execAttestTimeout x0) := by
  unfold execAttestTimeout
  extract_lets w1 w2 w3 t4
  clear_value w2
  clear_value w3
  have ht4 : Chg 0x800002000000808 x0 t4 := by
    unfold t4
    refine Chg.upd_keep rfl ?_
    exact Chg.refl _ _
  clear_value t4
  refine ChgR.next ?_
  refine Chg.foldl ?_ ?_
  · intro u5 u6 u7
    refine Chg.step (State.keepDone_chg _ _ _ _) rfl ?_
    assumption
  · assumption


theorem State.keepRun_chg (x0 : State) (x1 : KeepFrom) (x2 : Nat) (x3 : Nat) (x4 : List Nat) :
    Chg 0xf3aea38cbffff0c x0 (State.keepRun x0 x1 x2 x3 x4) := by
  unfold State.keepRun
  split
  · refine Chg.step (State.ctxDefine_chg _ _ _ _) rfl ?_
    exact Chg.refl _ _
  · refine Chg.step (State.ctxEnroll_chg _ _ _ _) rfl ?_
    exact Chg.refl _ _
  · refine Chg.step (State.ctxRevoke_chg _ _ _ _) rfl ?_
    exact Chg.refl _ _
  · refine Chg.step (State.ctxSwap_chg _ _ _ _) rfl ?_
    exact Chg.refl _ _
  · refine Chg.step (State.ctxDestroy_chg _ _ _ _) rfl ?_
    exact Chg.refl _ _
  · refine Chg.step (State.attest_chg _ _ _ _) rfl ?_
    exact Chg.refl _ _
  · refine Chg.step (State.keyRotate_chg _ _ _ _) rfl ?_
    exact Chg.refl _ _
  · refine Chg.step (State.relRead_chg _ _ _ _) rfl ?_
    exact Chg.refl _ _
  · refine Chg.step (State.keyRelease_chg _ _ _ _) rfl ?_
    exact Chg.refl _ _
  · refine Chg.step (State.certRead_chg _ _ _ _) rfl ?_
    exact Chg.refl _ _
  · refine Chg.step (State.keepDone_chg _ _ _ _) rfl ?_
    exact Chg.refl _ _


theorem State.keepTake_chg (x0 : State) (x1 : KeepAsk) :
    Chg 0xf3aea38cbffff0c x0 (State.keepTake x0 x1) := by
  unfold State.keepTake
  extract_lets w1
  clear_value w1
  refine Chg.ite ?_ ?_
  · refine Chg.upd_keep rfl ?_
    exact Chg.refl _ _
  · refine Chg.step (State.keepRun_chg _ _ _ _ _) rfl ?_
    exact Chg.refl _ _


theorem State.mailboxGo_chg (x0 : State) :
    Chg 0xf3aea38cbffff0c x0 (State.mailboxGo x0) := by
  unfold State.mailboxGo
  extract_lets t1 w2
  have ht1 : Chg 0xf3aea38cbffff0c x0 t1 := by
    unfold t1
    refine Chg.step (State.fset_chg _ _ _ _) rfl ?_
    exact Chg.refl _ _
  clear_value t1
  clear_value w2
  refine Chg.ite ?_ ?_
  · exact Chg.refl _ _
  · refine Chg.ite ?_ ?_
    · refine Chg.step (State.keepDone_chg _ _ _ _) rfl ?_
      assumption
    · refine Chg.step (State.keepTake_chg _ _) rfl ?_
      assumption


theorem State.mailbox_chg (x0 : State) (x1 : Nat) :
    Chg 0xf3aea38cbffff0c x0 (State.mailbox x0 x1) := by
  unfold State.mailbox
  refine Chg.ite ?_ ?_
  · refine Chg.step (State.mailboxGo_chg _) rfl ?_
    exact Chg.refl _ _
  · exact Chg.refl _ _


theorem execCtxDefine_chg (x0 : State) :
    ChgR 0xf3aea38cbffff0c x0 (execCtxDefine x0) := by
  unfold execCtxDefine
  refine ChgR.next ?_
  refine Chg.step (State.mailbox_chg _ _) rfl ?_
  exact Chg.refl _ _


theorem execCtxEnroll_chg (x0 : State) :
    ChgR 0xf3aea38cbffff0c x0 (execCtxEnroll x0) := by
  unfold execCtxEnroll
  refine ChgR.next ?_
  refine Chg.step (State.mailbox_chg _ _) rfl ?_
  exact Chg.refl _ _


theorem execCtxRevoke_chg (x0 : State) :
    ChgR 0xf3aea38cbffff0c x0 (execCtxRevoke x0) := by
  unfold execCtxRevoke
  refine ChgR.next ?_
  refine Chg.step (State.mailbox_chg _ _) rfl ?_
  exact Chg.refl _ _


theorem execCtxSwap_chg (x0 : State) :
    ChgR 0xf3aea38cbffff0c x0 (execCtxSwap x0) := by
  unfold execCtxSwap
  refine ChgR.next ?_
  refine Chg.step (State.mailbox_chg _ _) rfl ?_
  exact Chg.refl _ _


theorem execCtxDestroy_chg (x0 : State) :
    ChgR 0xf3aea38cbffff0c x0 (execCtxDestroy x0) := by
  unfold execCtxDestroy
  refine ChgR.next ?_
  refine Chg.step (State.mailbox_chg _ _) rfl ?_
  exact Chg.refl _ _


theorem execAttest_chg (x0 : State) :
    ChgR 0xf3aea38cbffff0c x0 (execAttest x0) := by
  unfold execAttest
  refine ChgR.next ?_
  refine Chg.step (State.mailbox_chg _ _) rfl ?_
  exact Chg.refl _ _


theorem execKeyRotate_chg (x0 : State) :
    ChgR 0xf3aea38cbffff0c x0 (execKeyRotate x0) := by
  unfold execKeyRotate
  refine ChgR.next ?_
  refine Chg.step (State.mailbox_chg _ _) rfl ?_
  exact Chg.refl _ _


theorem execRelRead_chg (x0 : State) :
    ChgR 0xf3aea38cbffff0c x0 (execRelRead x0) := by
  unfold execRelRead
  refine ChgR.next ?_
  refine Chg.step (State.mailbox_chg _ _) rfl ?_
  exact Chg.refl _ _


theorem execKeyRelease_chg (x0 : State) :
    ChgR 0xf3aea38cbffff0c x0 (execKeyRelease x0) := by
  unfold execKeyRelease
  refine ChgR.next ?_
  refine Chg.step (State.mailbox_chg _ _) rfl ?_
  exact Chg.refl _ _


theorem execCertRead_chg (x0 : State) :
    ChgR 0xf3aea38cbffff0c x0 (execCertRead x0) := by
  unfold execCertRead
  refine ChgR.next ?_
  refine Chg.step (State.mailbox_chg _ _) rfl ?_
  exact Chg.refl _ _


theorem execKeepCommit_chg (x0 : State) :
    ChgR 0x800020000400908 x0 (execKeepCommit x0) := by
  unfold execKeepCommit
  extract_lets w1
  clear_value w1
  refine ChgR.ite ?_ ?_
  · refine ChgR.next ?_
    refine State.applyAll_chg rfl ?_
    exact Chg.refl _ _
  · refine ChgR.next ?_
    refine Chg.step (State.log_chg _ _) rfl ?_
    refine Chg.step (State.flag_chg _ _ _) rfl ?_
    exact Chg.refl _ _


end Sys2Proof.Machine
end

