-- ==== Sys2Proof/Laws/FrameField.lean ====
section
/-! SUPPORT. The frames of the register space, resets, the barrier link and the field section: one lemma for each operation, which says
what part of the state it may change. -/

namespace Sys2Proof.Machine

theorem State.writeFld_chg (x0 : State) (x1 : Fld) (x2 : Nat) (x3 : Nat) :
    Chg 0x3ffffff0000000018 x0 (State.writeFld x0 x1 x2 x3) := by
  unfold State.writeFld
  extract_lets w1
  clear_value w1
  split
  · refine Chg.step (State.fset_chg _ _ _ _) (Sub.fm rfl _) ?_
    exact Chg.refl _ _
  · refine Chg.step (State.fset_chg _ _ _ _) (Sub.fm rfl _) ?_
    exact Chg.refl _ _
  · refine Chg.step (State.fset_chg _ _ _ _) (Sub.fm rfl _) ?_
    exact Chg.refl _ _
  · refine Chg.step (State.stage_chg _ _ _ _) rfl ?_
    exact Chg.refl _ _
  · exact Chg.refl _ _


theorem State.writeReg_chg (x0 : State) (x1 : Reg) (x2 : Nat) (x3 : Nat) :
    Chg 0x3ffffff0000000018 x0 (State.writeReg x0 x1 x2 x3) := by
  unfold State.writeReg
  refine Chg.foldl_mem ?_ ?_
  · intro u1 u2 u3 u4
    refine Chg.step (State.writeFld_chg _ _ _ _) rfl ?_
    assumption
  · exact Chg.refl _ _


theorem State.clearRegs_chg (x0 : State) :
    Chg 0x1c000000000000018 x0 (State.clearRegs x0 0xD10000 0xD20000) := by
  unfold State.clearRegs
  refine Chg.upd_fields_staged rfl rfl (regs_keep (fun n => ?_)) (Chg.refl _ _)
  by_cases h : 0xD10000 ≤ keyReg n ∧ keyReg n < 0xD20000
  · exact Or.inl (bit_fld rfl h.1 h.2)
  · refine Or.inr ?_
    simp only [Bool.or_eq_true, decide_eq_true_eq]
    omega

theorem State.clearCounters_chg (x0 : State) (x1 : Nat) (x2 : Nat) :
    Chg 0x3ffffff0000080008 x0 (State.clearCounters x0 x1 x2) := by
  unfold State.clearCounters
  extract_lets w1 w2 w3 t4
  clear_value w1
  clear_value w2
  clear_value w3
  have ht4 : Chg 0x3ffffff0000080008 x0 t4 := by
    unfold t4
    refine Chg.ite ?_ ?_
    · exact Chg.refl _ _
    · refine Chg.upd_fab rfl ?_
      exact Chg.refl _ _
  clear_value t4
  refine Chg.upd_fields rfl ?_ ?_
  · exact regs_any rfl
  · assumption


theorem State.writeCntCtrl_chg (x0 : State) (x1 : Reg) (x2 : Nat) (x3 : Nat) :
    Chg 0x3ffffff0000080018 x0 (State.writeCntCtrl x0 x1 x2 x3) := by
  unfold State.writeCntCtrl
  extract_lets t1
  have ht1 : Chg 0x3ffffff0000080018 x0 t1 := by
    unfold t1
    refine Chg.ite ?_ ?_
    · refine Chg.step (State.clearCounters_chg _ _ _) rfl ?_
      exact Chg.refl _ _
    · exact Chg.refl _ _
  clear_value t1
  refine Chg.step (State.writeReg_chg _ _ _ _) rfl ?_
  assumption


theorem State.clearCoreRegs_chg (x0 : State) (x1 : Nat) :
    Chg 0xf80000000018 x0 (State.clearCoreRegs x0 x1) := by
  unfold State.clearCoreRegs
  refine Chg.upd_fields_staged rfl rfl ?_ ?_
  · exact regs_core rfl
  · exact Chg.refl _ _


theorem State.clearCore_chg (x0 : State) (x1 : Nat) :
    Chg 0x800f8400003f018 x0 (State.clearCore x0 x1) := by
  unfold State.clearCore
  extract_lets t1 w2 t3 w4 t5 t6 w7
  have ht1 : Chg 0x800f8400003f018 x0 t1 := by
    unfold t1
    refine Chg.step (State.clearCoreRegs_chg _ _) rfl ?_
    exact Chg.refl _ _
  clear_value t1
  clear_value w2
  have ht3 : Chg 0x800f8400003f018 x0 t3 := by
    unfold t3
    refine Chg.upd_tiles_rst_cores_seqs_sram rfl rfl rfl rfl rfl ?_ ?_
    · exact cellsWf_filter _ _
    · assumption
  clear_value t3
  clear_value w4
  have ht5 : Chg 0x800f8400003f018 x0 t5 := by
    unfold t5
    refine Chg.foldl ?_ ?_
    · intro u8 u9 u10
      extract_lets w11 w12 w13
      clear_value w11
      clear_value w12
      clear_value w13
      refine Chg.step (State.setEngine_chg _ _ _ _) rfl ?_
      assumption
    · assumption
  clear_value t5
  have ht6 : Chg 0x800f8400003f018 x0 t6 := by
    unfold t6
    refine Chg.step (State.fset_chg _ _ _ _) rfl ?_
    assumption
  clear_value t6
  clear_value w7
  refine Chg.upd_power rfl ?_
  assumption


theorem State.setSide_chg (x0 : State) (x1 : Bool) (x2 : BarSide) :
    Chg 0x80000000 x0 (State.setSide x0 x1 x2) := by
  unfold State.setSide
  extract_lets w1
  clear_value w1
  refine Chg.ite ?_ ?_
  · refine Chg.upd_bar rfl ?_
    exact Chg.refl _ _
  · refine Chg.upd_bar rfl ?_
    exact Chg.refl _ _


theorem State.writesLost_chg (x0 : State) (x1 : Nat) :
    Chg 0x2000020080400f08 x0 (State.writesLost x0 x1) := by
  unfold State.writesLost
  extract_lets t1 t2 w3 t4
  have ht1 : Chg 0x2000020080400f08 x0 t1 := by
    unfold t1
    refine Chg.step (State.countN_chg _ _ _ _) rfl ?_
    exact Chg.refl _ _
  clear_value t1
  have ht2 : Chg 0x2000020080400f08 x0 t2 := by
    unfold t2
    refine Chg.step (State.flag_chg _ _ _) rfl ?_
    assumption
  clear_value t2
  clear_value w3
  have ht4 : Chg 0x2000020080400f08 x0 t4 := by
    unfold t4
    refine Chg.upd_bar rfl ?_
    assumption
  clear_value t4
  refine Chg.ite ?_ ?_
  · exact Chg.refl _ _
  · refine Chg.step (State.logRate_chg _ _ _ _) rfl ?_
    assumption


theorem State.linkTrain_chg (x0 : State) :
    Chg 0x2000000000000008 x0 (State.linkTrain x0) := by
  unfold State.linkTrain
  refine Chg.ite ?_ ?_
  · exact Chg.refl _ _
  · refine Chg.step (State.fset_chg _ _ _ _) rfl ?_
    exact Chg.refl _ _


theorem State.linkDown_chg (x0 : State) :
    Chg 0x2800022080400f08 x0 (State.linkDown x0) := by
  unfold State.linkDown
  extract_lets w1 w2 t3 t4 t5
  clear_value w1
  clear_value w2
  have ht3 : Chg 0x2800022080400f08 x0 t3 := by
    unfold t3
    refine Chg.upd_bar rfl ?_
    exact Chg.refl _ _
  clear_value t3
  have ht4 : Chg 0x2800022080400f08 x0 t4 := by
    unfold t4
    refine Chg.step (State.linkTrain_chg _) rfl ?_
    assumption
  clear_value t4
  have ht5 : Chg 0x2800022080400f08 x0 t5 := by
    unfold t5
    refine Chg.step (State.count_chg _ _ _) rfl ?_
    assumption
  clear_value t5
  refine Chg.ite ?_ ?_
  · refine Chg.step (State.linkTrain_chg _) rfl ?_
    exact Chg.refl _ _
  · refine Chg.step (State.writesLost_chg _ _) rfl ?_
    refine Chg.step (State.settleOff_chg _ _) rfl ?_
    refine Chg.step (State.log_chg _ _) rfl ?_
    assumption


theorem execBarrierLinkDown_chg (x0 : State) :
    ChgR 0x2800022080400f08 x0 (execBarrierLinkDown x0) := by
  unfold execBarrierLinkDown
  refine ChgR.next ?_
  refine Chg.step (State.linkDown_chg _) rfl ?_
  exact Chg.refl _ _


theorem State.sendHostState_chg (x0 : State) :
    Chg 0x80000000 x0 (State.sendHostState x0) := by
  unfold State.sendHostState
  refine Chg.step (State.toField_chg _ _) rfl ?_
  exact Chg.refl _ _


theorem State.sendFieldState_chg (x0 : State) :
    Chg 0x4000000080000008 x0 (State.sendFieldState x0) := by
  unfold State.sendFieldState
  extract_lets w1
  clear_value w1
  refine Chg.step (State.toHost_chg _ _) rfl ?_
  exact Chg.refl _ _


theorem State.sendEvent_chg (x0 : State) (x1 : List Nat) :
    Chg 0x4000000180000008 x0 (State.sendEvent x0 x1) := by
  unfold State.sendEvent
  extract_lets w1 w2
  clear_value w1
  clear_value w2
  refine Chg.ite ?_ ?_
  · refine Chg.step (State.toHost_chg _ _) rfl ?_
    refine Chg.upd_field rfl ?_
    exact Chg.refl _ _
  · refine Chg.ite ?_ ?_
    · refine Chg.upd_field rfl ?_
      exact Chg.refl _ _
    · refine Chg.upd_field rfl ?_
      exact Chg.refl _ _


theorem State.fieldEvent_chg (x0 : State) (x1 : Nat) (x2 : Nat) (x3 : Nat) (x4 : Nat) :
    Chg 0x4000000180000008 x0 (State.fieldEvent x0 x1 x2 x3 x4) := by
  unfold State.fieldEvent
  refine Chg.step (State.sendEvent_chg _ _) rfl ?_
  exact Chg.refl _ _


theorem State.fieldEventRate_chg (x0 : State) (x1 : Nat) (x2 : Nat) (x3 : Nat) (x4 : Nat) (x5 : Nat) :
    Chg 0x4000000180000008 x0 (State.fieldEventRate x0 x1 x2 x3 x4 x5) := by
  unfold State.fieldEventRate
  extract_lets w1 w2 w3 w4 t5 w6
  clear_value w1
  clear_value w2
  clear_value w3
  clear_value w4
  have ht5 : Chg 0x4000000180000008 x0 t5 := by
    unfold t5
    refine Chg.step (State.sendEvent_chg _ _) rfl ?_
    exact Chg.refl _ _
  clear_value t5
  clear_value w6
  split
  · refine Chg.ite ?_ ?_
    · refine Chg.upd_field rfl ?_
      exact Chg.refl _ _
    · refine Chg.upd_field rfl ?_
      assumption
  · refine Chg.upd_field rfl ?_
    assumption


theorem State.fieldEventsDue_chg (x0 : State) :
    Chg 0x4000000180000008 x0 (State.fieldEventsDue x0) := by
  unfold State.fieldEventsDue
  refine Chg.foldl ?_ ?_
  · intro u1 u2 u3
    extract_lets t4 w5
    have ht4 : Chg 0x4000000180000008 x0 t4 := by
      unfold t4
      refine Chg.step (State.sendEvent_chg _ _) rfl ?_
      assumption
    clear_value t4
    clear_value w5
    refine Chg.upd_field rfl ?_
    assumption
  · exact Chg.refl _ _


theorem execBarrierLinkUp_chg (x0 : State) :
    ChgR 0x6000020180400908 x0 (execBarrierLinkUp x0) := by
  unfold execBarrierLinkUp
  extract_lets w1 t2 t3 t4 t5 w6 w7 t8
  clear_value w1
  have ht2 : Chg 0x6000020180400908 x0 t2 := by
    unfold t2
    refine Chg.upd_bar rfl ?_
    exact Chg.refl _ _
  clear_value t2
  have ht3 : Chg 0x6000020180400908 x0 t3 := by
    unfold t3
    refine Chg.step (State.fset_chg _ _ _ _) rfl ?_
    assumption
  clear_value t3
  have ht4 : Chg 0x6000020180400908 x0 t4 := by
    unfold t4
    refine Chg.step (State.log_chg _ _) rfl ?_
    assumption
  clear_value t4
  have ht5 : Chg 0x6000020180400908 x0 t5 := by
    unfold t5
    refine Chg.step (State.sendFieldState_chg _) rfl ?_
    refine Chg.step (State.sendHostState_chg _) rfl ?_
    assumption
  clear_value t5
  clear_value w6
  clear_value w7
  have ht8 : Chg 0x6000020180400908 x0 t8 := by
    unfold t8
    refine Chg.upd_field rfl ?_
    assumption
  clear_value t8
  refine ChgR.ite ?_ ?_
  · refine ChgR.next ?_
    exact Chg.refl _ _
  · refine ChgR.next ?_
    refine Chg.foldl ?_ ?_
    · intro u9 u10 u11
      refine Chg.step (State.sendEvent_chg _ _) rfl ?_
      assumption
    · assumption


theorem State.discardFrame_chg (x0 : State) (x1 : Bool) (x2 : Bool) :
    Chg 0x6000000080000008 x0 (State.discardFrame x0 x1 x2) := by
  unfold State.discardFrame
  extract_lets t1 w2
  have ht1 : Chg 0x6000000080000008 x0 t1 := by
    unfold t1
    refine Chg.ite ?_ ?_
    · refine Chg.step (State.count_chg _ _ _) rfl ?_
      exact Chg.refl _ _
    · refine Chg.step (State.count_chg _ _ _) rfl ?_
      exact Chg.refl _ _
  clear_value t1
  clear_value w2
  refine Chg.ite ?_ ?_
  · refine Chg.step (State.setSide_chg _ _ _) rfl ?_
    assumption
  · assumption


theorem State.verdictsAcked_chg (x0 : State) (x1 : List (List Nat)) :
    Chg 0x30020000600f08 x0 (State.verdictsAcked x0 x1) := by
  unfold State.verdictsAcked
  refine Chg.foldl ?_ ?_
  · intro u1 u2 u3
    split
    · refine Chg.ite ?_ ?_
      · refine Chg.step (State.deliver_chg _ _) rfl ?_
        assumption
      · assumption
    · assumption
  · exact Chg.refl _ _


theorem State.takeAck_chg (x0 : State) (x1 : Bool) (x2 : List Nat) :
    Chg 0x30020080600f08 x0 (State.takeAck x0 x1 x2) := by
  unfold State.takeAck
  extract_lets w1 t2
  clear_value w1
  have ht2 : Chg 0x30020080600f08 x0 t2 := by
    unfold t2
    refine Chg.step (State.setSide_chg _ _ _) rfl ?_
    exact Chg.refl _ _
  clear_value t2
  refine Chg.ite ?_ ?_
  · assumption
  · refine Chg.step (State.verdictsAcked_chg _ _) rfl ?_
    assumption


theorem execBarrierFrameRx_chg (x0 : Bool) (x1 : List Nat) (x2 : State) :
    ChgR 0x6830022080600f08 x2 (execBarrierFrameRx x0 x1 x2) := by
  unfold execBarrierFrameRx
  refine ChgR.ite ?_ ?_
  · refine ChgR.next ?_
    exact Chg.refl _ _
  · split
    extract_lets t1 t2 w3 w4 t5 w6 t7 w8 w9
    have ht1 : Chg 0x6830022080600f08 x2 t1 := by
      unfold t1
      refine Chg.step (State.setSide_chg _ _ _) rfl ?_
      exact Chg.refl _ _
    clear_value t1
    have ht2 : Chg 0x6830022080600f08 x2 t2 := by
      unfold t2
      refine Chg.ite ?_ ?_
      · refine Chg.step (State.count_chg _ _ _) (ite_fmc rfl rfl) ?_
        assumption
      · assumption
    clear_value t2
    clear_value w3
    clear_value w4
    have ht5 : Chg 0x6830022080600f08 x2 t5 := by
      unfold t5
      refine Chg.step (State.discardFrame_chg _ _ _) rfl ?_
      refine Chg.step (State.setSide_chg _ _ _) rfl ?_
      assumption
    clear_value t5
    clear_value w6
    have ht7 : Chg 0x6830022080600f08 x2 t7 := by
      unfold t7
      refine Chg.step (State.takeAck_chg _ _ _) rfl ?_
      assumption
    clear_value t7
    clear_value w8
    clear_value w9
    refine ChgR.ite ?_ ?_
    · refine ChgR.next ?_
      refine Chg.ite ?_ ?_
      · refine Chg.step (State.linkDown_chg _) rfl ?_
        assumption
      · assumption
    · refine ChgR.ite ?_ ?_
      · refine ChgR.next ?_
        refine Chg.step (State.takeAck_chg _ _ _) rfl ?_
        assumption
      · refine ChgR.ite ?_ ?_
        · refine ChgR.next ?_
          refine Chg.step (State.setSide_chg _ _ _) rfl ?_
          assumption
        · refine ChgR.next ?_
          refine Chg.step (State.discardFrame_chg _ _ _) rfl ?_
          assumption


theorem execBarrierRetxTimeout_chg (x0 : Bool) (x1 : State) :
    ChgR 0x80000000 x1 (execBarrierRetxTimeout x0 x1) := by
  unfold execBarrierRetxTimeout
  extract_lets w1
  clear_value w1
  refine ChgR.ite ?_ ?_
  · refine ChgR.next ?_
    exact Chg.refl _ _
  · refine ChgR.next ?_
    refine Chg.step (State.setSide_chg _ _ _) rfl ?_
    exact Chg.refl _ _


theorem State.pop_chg (x0 : State) (x1 : Bool) :
    Chg 0x80000000 x0 (State.pop x0 x1) := by
  unfold State.pop
  split
  · exact Chg.refl _ _
  · extract_lets w1
    clear_value w1
    refine Chg.step (State.setSide_chg _ _ _) rfl ?_
    exact Chg.refl _ _


theorem State.onMsg_chg {m : Nat} {s t : State} {field : Bool} {p : List Nat → Bool} {f : State → List Nat → State}
    (h : m.testBit 31 = true) (k : Chg m s t) (hf : ∀ u x, Chg m s u → Chg m s (f u x)) :
    ChgR m s (t.onMsg field p f) := by
  unfold State.onMsg
  split
  · exact ChgR.next k
  · refine ChgR.ite (ChgR.next (hf _ _ ?_)) (ChgR.next k)
    exact Chg.step (State.pop_chg _ _) (Sub.of_bit h) k

theorem execHeartbeat_chg (x0 : Bool) (x1 : State) :
    ChgR 0x80000000 x1 (execHeartbeat x0 x1) := by
  unfold execHeartbeat
  refine State.onMsg_chg rfl ?_ ?_
  · exact Chg.refl _ _
  · intro u1 u2 u3
    extract_lets w4
    clear_value w4
    refine Chg.step (State.setSide_chg _ _ _) rfl ?_
    assumption


theorem State.answer_chg (x0 : State) (x1 : Nat) (x2 : Nat) (x3 : Nat) (x4 : Nat) (x5 : List Nat) :
    Chg 0x20000000808 x0 (State.answer x0 x1 x2 x3 x4 x5) := by
  unfold State.answer
  extract_lets t1
  have ht1 : Chg 0x20000000808 x0 t1 := by
    unfold t1
    refine Chg.ite ?_ ?_
    · refine Chg.step (State.count_chg _ _ _) rfl ?_
      exact Chg.refl _ _
    · exact Chg.refl _ _
  clear_value t1
  refine Chg.step (State.replyTo_chg _ _ _ _ _ _) rfl ?_
  assumption


theorem State.fwCheck_chg (x0 : State) (x1 : Nat) (x2 : Nat) :
    Chg 0x20000000008 x0 (State.fwCheck x0 x1 x2) := by
  unfold State.fwCheck
  refine Chg.step (State.fset_chg _ _ _ _) (by unfold slotValid; split <;> rfl) ?_
  exact Chg.refl _ _


theorem State.fwCommit_chg (x0 : State) (x1 : Activation) :
    Chg 0x800022000400908 x0 (State.fwCommit x0 x1) := by
  unfold State.fwCommit
  extract_lets w1 w2 w3 t4 t5 t6 t7 t8
  clear_value w1
  clear_value w2
  clear_value w3
  have ht4 : Chg 0x800022000400908 x0 t4 := by
    unfold t4
    refine Chg.upd_mgmt rfl ?_
    exact Chg.refl _ _
  clear_value t4
  have ht5 : Chg 0x800022000400908 x0 t5 := by
    unfold t5
    refine Chg.step (State.fset_chg _ _ _ _) rfl ?_
    assumption
  clear_value t5
  have ht6 : Chg 0x800022000400908 x0 t6 := by
    unfold t6
    refine Chg.step (State.fset_chg _ _ _ _) rfl ?_
    assumption
  clear_value t6
  have ht7 : Chg 0x800022000400908 x0 t7 := by
    unfold t7
    refine Chg.step (State.fset_chg _ _ _ _) rfl ?_
    assumption
  clear_value t7
  have ht8 : Chg 0x800022000400908 x0 t8 := by
    unfold t8
    refine Chg.ite ?_ ?_
    · refine Chg.step (State.log_chg _ _) rfl ?_
      refine Chg.step (State.fwCheck_chg _ _ _) rfl ?_
      refine Chg.step (State.fwCheck_chg _ _ _) rfl ?_
      assumption
    · assumption
  clear_value t8
  refine Chg.step (State.settleOff_chg _ _) rfl ?_
  refine Chg.step (State.log_chg _ _) rfl ?_
  assumption


theorem State.fwRolledBack_chg (x0 : State) (x1 : Activation) :
    Chg 0x800022000400908 x0 (State.fwRolledBack x0 x1) := by
  unfold State.fwRolledBack
  extract_lets w1 t2 t3 t4 t5 t6
  clear_value w1
  have ht2 : Chg 0x800022000400908 x0 t2 := by
    unfold t2
    refine Chg.upd_mgmt rfl ?_
    exact Chg.refl _ _
  clear_value t2
  have ht3 : Chg 0x800022000400908 x0 t3 := by
    unfold t3
    refine Chg.step (State.fset_chg _ _ _ _) rfl ?_
    assumption
  clear_value t3
  have ht4 : Chg 0x800022000400908 x0 t4 := by
    unfold t4
    refine Chg.step (State.fset_chg _ _ _ _) rfl ?_
    assumption
  clear_value t4
  have ht5 : Chg 0x800022000400908 x0 t5 := by
    unfold t5
    refine Chg.step (State.log_chg _ _) rfl ?_
    assumption
  clear_value t5
  have ht6 : Chg 0x800022000400908 x0 t6 := by
    unfold t6
    split
    · refine Chg.step (State.answer_chg _ _ _ _ _ _) rfl ?_
      assumption
    · refine Chg.ite ?_ ?_
      · assumption
      · refine Chg.step (State.answer_chg _ _ _ _ _ _) rfl ?_
        assumption
  clear_value t6
  refine Chg.step (State.settleOff_chg _ _) rfl ?_
  assumption


theorem State.fwReady_chg (x0 : State) (x1 : Activation) :
    Chg 0x800022000400908 x0 (State.fwReady x0 x1) := by
  unfold State.fwReady
  extract_lets t1 w2
  have ht1 : Chg 0x800022000400908 x0 t1 := by
    unfold t1
    refine Chg.step (State.answer_chg _ _ _ _ _ _) rfl ?_
    exact Chg.refl _ _
  clear_value t1
  clear_value w2
  refine Chg.ite ?_ ?_
  · refine Chg.step (State.fset_chg _ _ _ _) rfl ?_
    refine Chg.upd_mgmt rfl ?_
    assumption
  · refine Chg.step (State.fwCommit_chg _ _) rfl ?_
    assumption


theorem State.fwBack_chg (x0 : State) (x1 : Activation) (x2 : Option (Nat × Nat)) :
    Chg 0x20000400008 x0 (State.fwBack x0 x1 x2) := by
  unfold State.fwBack
  extract_lets w1
  clear_value w1
  refine Chg.step (State.fset_chg _ _ _ _) rfl ?_
  refine Chg.upd_mgmt rfl ?_
  exact Chg.refl _ _


theorem State.encMove_chg (x0 : State) (x1 : Nat) (x2 : Nat) :
    Chg 0x4000000100000008 x0 (State.encMove x0 x1 x2) := by
  unfold State.encMove
  extract_lets t1 w2 w3
  have ht1 : Chg 0x4000000100000008 x0 t1 := by
    unfold t1
    refine Chg.step (State.fset_chg _ _ _ _) rfl ?_
    exact Chg.refl _ _
  clear_value t1
  clear_value w3
  refine Chg.upd_field rfl ?_
  assumption


theorem State.encAll_chg (x0 : State) (x1 : List Nat) :
    Chg 0x4000000100000008 x0 (State.encAll x0 x1) := by
  unfold State.encAll
  refine Chg.foldl ?_ ?_
  · intro u1 u2 u3
    refine Chg.ite ?_ ?_
    · refine Chg.step (State.encMove_chg _ _ _) rfl ?_
      assumption
    · assumption
  · exact Chg.refl _ _


theorem State.vtSet_chg (x0 : State) (x1 : Nat) (x2 : Nat) :
    Chg 0x100000000 x0 (State.vtSet x0 x1 x2) := by
  unfold State.vtSet
  extract_lets w1
  clear_value w1
  refine Chg.upd_field rfl ?_
  exact Chg.refl _ _


theorem State.vtPut_chg (x0 : State) (x1 : Nat) (x2 : Nat) (x3 : Nat) (x4 : Bool) (x5 : Bool) (x6 : Bool) :
    Chg 0x100000000 x0 (State.vtPut x0 x1 x2 x3 x4 x5 x6) := by
  unfold State.vtPut
  refine Chg.step (State.vtSet_chg _ _ _) rfl ?_
  exact Chg.refl _ _


theorem State.setRej_chg (x0 : State) (x1 : Nat) (x2 : RejOut) :
    Chg 0x100000000 x0 (State.setRej x0 x1 x2) := by
  unfold State.setRej
  extract_lets w1
  clear_value w1
  refine Chg.upd_field rfl ?_
  exact Chg.refl _ _


theorem State.widen_chg (x0 : State) (x1 : Nat) (x2 : Nat) (x3 : Nat) (x4 : Nat) :
    Chg 0x4000000180000008 x0 (State.widen x0 x1 x2 x3 x4) := by
  unfold State.widen
  extract_lets w1 w2 t3 t4 t5
  clear_value w1
  have ht3 : Chg 0x4000000180000008 x0 t3 := by
    unfold t3
    split
    · exact Chg.refl _ _
    · refine Chg.step (State.setRej_chg _ _ _) rfl ?_
      exact Chg.refl _ _
  clear_value t3
  have ht4 : Chg 0x4000000180000008 x0 t4 := by
    unfold t4
    refine Chg.step (State.count_chg _ _ _) rfl ?_
    assumption
  clear_value t4
  have ht5 : Chg 0x4000000180000008 x0 t5 := by
    unfold t5
    refine Chg.step (State.flag_chg _ _ _) rfl ?_
    assumption
  clear_value t5
  refine Chg.step (State.fieldEventRate_chg _ _ _ _ _ _) rfl ?_
  assumption


theorem State.actuate_chg (x0 : State) (x1 : Nat) (x2 : Nat) (x3 : Nat) :
    Chg 0x4000000180000008 x0 (State.actuate x0 x1 x2 x3) := by
  unfold State.actuate
  extract_lets w1 w2 w3 w4 w5
  clear_value w1
  clear_value w2
  clear_value w3
  refine Chg.ite ?_ ?_
  · exact Chg.refl _ _
  · refine Chg.ite ?_ ?_
    · refine Chg.step (State.setRej_chg _ _ _) rfl ?_
      exact Chg.refl _ _
    · refine Chg.ite ?_ ?_
      · refine Chg.step (State.setRej_chg _ _ _) rfl ?_
        exact Chg.refl _ _
      · refine Chg.step (State.widen_chg _ _ _ _ _) rfl ?_
        exact Chg.refl _ _


theorem State.drainOut_chg (x0 : State) (x1 : Nat) :
    Chg 0x100000000 x0 (State.drainOut x0 x1) := by
  unfold State.drainOut
  extract_lets w1
  clear_value w1
  refine Chg.ite ?_ ?_
  · exact Chg.refl _ _
  · refine Chg.step (State.setRej_chg _ _ _) rfl ?_
    exact Chg.refl _ _


theorem State.refreshOut_chg (x0 : State) (x1 : Nat) :
    Chg 0x4000000100000008 x0 (State.refreshOut x0 x1) := by
  unfold State.refreshOut
  extract_lets t1 w2 t3 w4 w5 t6 w7 t8 t9
  have ht1 : Chg 0x4000000100000008 x0 t1 := by
    unfold t1
    refine Chg.step (State.drainOut_chg _ _) rfl ?_
    exact Chg.refl _ _
  clear_value t1
  clear_value w2
  have ht3 : Chg 0x4000000100000008 x0 t3 := by
    unfold t3
    refine Chg.step (State.setRej_chg _ _ _) rfl ?_
    assumption
  clear_value t3
  clear_value w4
  clear_value w5
  have ht6 : Chg 0x4000000100000008 x0 t6 := by
    unfold t6
    refine Chg.step (State.setRej_chg _ _ _) rfl ?_
    assumption
  clear_value t6
  clear_value w7
  have ht8 : Chg 0x4000000100000008 x0 t8 := by
    unfold t8
    refine Chg.step (State.fset_chg _ _ _ _) rfl ?_
    assumption
  clear_value t8
  have ht9 : Chg 0x4000000100000008 x0 t9 := by
    unfold t9
    refine Chg.step (State.fset_chg _ _ _ _) rfl ?_
    assumption
  clear_value t9
  refine Chg.step (State.fset_chg _ _ _ _) rfl ?_
  assumption


theorem State.refreshLane_chg (x0 : State) (x1 : Nat) :
    Chg 0x4000000000000008 x0 (State.refreshLane x0 x1) := by
  unfold State.refreshLane
  extract_lets t1
  have ht1 : Chg 0x4000000000000008 x0 t1 := by
    unfold t1
    refine Chg.step (State.fset_chg _ _ _ _) rfl ?_
    exact Chg.refl _ _
  clear_value t1
  refine Chg.ite ?_ ?_
  · refine Chg.step (State.fset_chg _ _ _ _) rfl ?_
    assumption
  · assumption


theorem State.fieldRefresh_chg (x0 : State) :
    Chg 0x4000000100000008 x0 (State.fieldRefresh x0) := by
  unfold State.fieldRefresh
  extract_lets t1 t2 t3
  have ht1 : Chg 0x4000000100000008 x0 t1 := by
    unfold t1
    refine Chg.foldl ?_ ?_
    · intro u4 u5 u6
      refine Chg.step (State.refreshLane_chg _ _) rfl ?_
      assumption
    · exact Chg.refl _ _
  clear_value t1
  have ht2 : Chg 0x4000000100000008 x0 t2 := by
    unfold t2
    refine Chg.foldl ?_ ?_
    · intro u7 u8 u9
      refine Chg.step (State.refreshOut_chg _ _) rfl ?_
      assumption
    · assumption
  clear_value t2
  have ht3 : Chg 0x4000000100000008 x0 t3 := by
    unfold t3
    refine Chg.step (State.fset_chg _ _ _ _) rfl ?_
    assumption
  clear_value t3
  refine Chg.step (State.fset_chg _ _ _ _) rfl ?_
  assumption


theorem State.setRec_chg (x0 : State) (x1 : Nat) (x2 : Nat) (x3 : FieldRec → FieldRec) :
    Chg 0x100000000 x0 (State.setRec x0 x1 x2 x3) := by
  unfold State.setRec
  extract_lets w1 w2
  clear_value w2
  refine Chg.upd_field rfl ?_
  exact Chg.refl _ _


theorem State.dropRec_chg (x0 : State) (x1 : Nat) (x2 : Nat) :
    Chg 0x100000000 x0 (State.dropRec x0 x1 x2) := by
  unfold State.dropRec
  extract_lets w1
  clear_value w1
  refine Chg.upd_field rfl ?_
  exact Chg.refl _ _


theorem State.actuateAll_chg (x0 : State) (x1 : Nat) (x2 : Nat) (x3 : List Nat) :
    Chg 0x4000000180000008 x0 (State.actuateAll x0 x1 x2 x3) := by
  unfold State.actuateAll
  refine Chg.foldl ?_ ?_
  · intro u1 u2 u3
    refine Chg.step (State.actuate_chg _ _ _ _) rfl ?_
    assumption
  · exact Chg.refl _ _


theorem State.takeEffect_chg (x0 : State) (x1 : FieldRec) (x2 : Nat) (x3 : Bool) :
    Chg 0x4000000180000008 x0 (State.takeEffect x0 x1 x2 x3) := by
  unfold State.takeEffect
  extract_lets w1 w2 t3 t4
  clear_value w1
  clear_value w2
  have ht3 : Chg 0x4000000180000008 x0 t3 := by
    unfold t3
    refine Chg.step (State.vtPut_chg _ _ _ _ _ _ _) rfl ?_
    exact Chg.refl _ _
  clear_value t3
  have ht4 : Chg 0x4000000180000008 x0 t4 := by
    unfold t4
    refine Chg.step (State.actuateAll_chg _ _ _ _) rfl ?_
    assumption
  clear_value t4
  refine Chg.step (State.setRec_chg _ _ _ _) rfl ?_
  assumption


theorem State.withholdTrigger_chg (x0 : State) (x1 : Nat) (x2 : Nat) (x3 : Nat) :
    Chg 0x4000000180000008 x0 (State.withholdTrigger x0 x1 x2 x3) := by
  unfold State.withholdTrigger
  extract_lets t1 t2
  have ht1 : Chg 0x4000000180000008 x0 t1 := by
    unfold t1
    refine Chg.step (State.vtPut_chg _ _ _ _ _ _ _) rfl ?_
    exact Chg.refl _ _
  clear_value t1
  have ht2 : Chg 0x4000000180000008 x0 t2 := by
    unfold t2
    refine Chg.step (State.actuateAll_chg _ _ _ _) rfl ?_
    assumption
  clear_value t2
  refine Chg.step (State.count_chg _ _ _) rfl ?_
  assumption


theorem State.newItem_chg (x0 : State) (x1 : Nat) (x2 : Nat) (x3 : Nat) (x4 : Nat) (x5 : Bool) :
    Chg 0x4000000180000008 x0 (State.newItem x0 x1 x2 x3 x4 x5) := by
  unfold State.newItem
  extract_lets w1 t2 w3 t4 t5
  clear_value w1
  have ht2 : Chg 0x4000000180000008 x0 t2 := by
    unfold t2
    refine Chg.ite ?_ ?_
    · refine Chg.step (State.vtPut_chg _ _ _ _ _ _ _) rfl ?_
      exact Chg.refl _ _
    · exact Chg.refl _ _
  clear_value t2
  clear_value w3
  have ht4 : Chg 0x4000000180000008 x0 t4 := by
    unfold t4
    refine Chg.upd_field rfl ?_
    assumption
  clear_value t4
  have ht5 : Chg 0x4000000180000008 x0 t5 := by
    unfold t5
    refine Chg.step (State.count_chg _ _ _) rfl ?_
    assumption
  clear_value t5
  refine Chg.ite ?_ ?_
  · refine Chg.step (State.fieldEventRate_chg _ _ _ _ _ _) rfl ?_
    refine Chg.step (State.withholdTrigger_chg _ _ _ _) rfl ?_
    exact Chg.refl _ _
  · refine Chg.step (State.toHost_chg _ _) rfl ?_
    assumption


theorem State.absentTrigger_chg (x0 : State) (x1 : Nat) (x2 : Nat) (x3 : Nat) :
    Chg 0x4000000180000008 x0 (State.absentTrigger x0 x1 x2 x3) := by
  unfold State.absentTrigger
  extract_lets w1 t2
  clear_value w1
  have ht2 : Chg 0x4000000180000008 x0 t2 := by
    unfold t2
    refine Chg.step (State.vtPut_chg _ _ _ _ _ _ _) rfl ?_
    exact Chg.refl _ _
  clear_value t2
  refine Chg.ite ?_ ?_
  · refine Chg.step (State.vtPut_chg _ _ _ _ _ _ _) rfl ?_
    exact Chg.refl _ _
  · refine Chg.step (State.actuateAll_chg _ _ _ _) rfl ?_
    assumption


theorem State.laneTrigger_chg (x0 : State) (x1 : Nat) (x2 : Nat) (x3 : Nat) :
    Chg 0x4000000180000008 x0 (State.laneTrigger x0 x1 x2 x3) := by
  unfold State.laneTrigger
  extract_lets w1 w2 t3 t4 t5 w6
  clear_value w1
  clear_value w2
  have ht3 : Chg 0x4000000180000008 x0 t3 := by
    unfold t3
    refine Chg.upd_field rfl ?_
    exact Chg.refl _ _
  clear_value t3
  have ht4 : Chg 0x4000000180000008 x0 t4 := by
    unfold t4
    refine Chg.ite ?_ ?_
    · refine Chg.step (State.fieldEventRate_chg _ _ _ _ _ _) rfl ?_
      refine Chg.step (State.count_chg _ _ _) rfl ?_
      assumption
    · assumption
  clear_value t4
  have ht5 : Chg 0x4000000180000008 x0 t5 := by
    unfold t5
    refine Chg.step (State.vtPut_chg _ _ _ _ _ _ _) rfl ?_
    assumption
  clear_value t5
  clear_value w6
  split
  · refine Chg.ite ?_ ?_
    · refine Chg.step (State.newItem_chg _ _ _ _ _ _) rfl ?_
      assumption
    · refine Chg.step (State.absentTrigger_chg _ _ _ _) rfl ?_
      assumption
  · refine Chg.ite ?_ ?_
    · refine Chg.upd_field rfl ?_
      assumption
    · refine Chg.step (State.withholdTrigger_chg _ _ _ _) rfl ?_
      assumption


theorem State.takeFifo_chg (x0 : State) :
    Chg 0x4000000180000008 x0 (State.takeFifo x0) := by
  unfold State.takeFifo
  extract_lets w1 w2 t3
  clear_value w1
  clear_value w2
  have ht3 : Chg 0x4000000180000008 x0 t3 := by
    unfold t3
    refine Chg.upd_field rfl ?_
    exact Chg.refl _ _
  clear_value t3
  refine Chg.foldl ?_ ?_
  · intro u4 u5 u6
    refine Chg.ite ?_ ?_
    · refine Chg.step (State.newItem_chg _ _ _ _ _ _) rfl ?_
      assumption
    · refine Chg.step (State.absentTrigger_chg _ _ _ _) rfl ?_
      assumption
  · assumption


theorem State.cutoffPass_chg (x0 : State) (x1 : FieldRec) :
    Chg 0x4000000180000008 x0 (State.cutoffPass x0 x1) := by
  unfold State.cutoffPass
  split
  · refine Chg.step (State.count_chg _ _ _) rfl ?_
    refine Chg.step (State.takeEffect_chg _ _ _ _) rfl ?_
    exact Chg.refl _ _
  · refine Chg.step (State.withholdTrigger_chg _ _ _ _) rfl ?_
    refine Chg.step (State.dropRec_chg _ _ _) rfl ?_
    exact Chg.refl _ _


theorem State.loadNv_chg (x0 : State) :
    Chg 0x1c000000000000008 x0 (State.loadNv x0) := by
  unfold State.loadNv
  refine Chg.upd_fields rfl ?_ ?_
  · exact regs_nv rfl
  · exact Chg.refl _ _


theorem State.fieldReset_chg (x0 : State) :
    Chg 0x1e800022180400f18 x0 (State.fieldReset x0) := by
  unfold State.fieldReset
  extract_lets t1 w2 w3 t4 w5 w6 w7
  have ht1 : Chg 0x1e800022180400f18 x0 t1 := by
    unfold t1
    refine Chg.step (State.linkDown_chg _) rfl ?_
    refine Chg.step (State.clearRegs_chg _) rfl ?_
    exact Chg.refl _ _
  clear_value t1
  clear_value w2
  clear_value w3
  have ht4 : Chg 0x1e800022180400f18 x0 t4 := by
    unfold t4
    refine Chg.upd_field rfl ?_
    assumption
  clear_value t4
  clear_value w5
  clear_value w6
  clear_value w7
  refine Chg.step (State.loadNv_chg _) rfl ?_
  refine Chg.upd_bar rfl ?_
  assumption


theorem State.nvFlag_chg (x0 : State) (x1 : Nat) :
    Chg 0x1c000000000000008 x0 (State.nvFlag x0 x1) := by
  unfold State.nvFlag
  extract_lets w1
  clear_value w1
  split
  · refine Chg.step (State.fset_chg _ _ _ _) rfl ?_
    exact Chg.refl _ _
  · refine Chg.step (State.fset_chg _ _ _ _) rfl ?_
    exact Chg.refl _ _
  · refine Chg.step (State.fset_chg _ _ _ _) rfl ?_
    exact Chg.refl _ _


theorem State.nvStart_chg (x0 : State) (x1 : Nat) :
    Chg 0x1c000000100000008 x0 (State.nvStart x0 x1) := by
  unfold State.nvStart
  extract_lets w1 w2 w3
  clear_value w1
  clear_value w2
  clear_value w3
  refine Chg.step (State.nvFlag_chg _ _) rfl ?_
  refine Chg.upd_field rfl ?_
  exact Chg.refl _ _


theorem execNvWriteDone_chg (x0 : Nat) (x1 : State) :
    ChgR 0x1c000000100000008 x1 (execNvWriteDone x0 x1) := by
  unfold execNvWriteDone
  split
  · refine ChgR.next ?_
    exact Chg.refl _ _
  · extract_lets w1 w2 w3 t4
    clear_value w1
    clear_value w2
    clear_value w3
    have ht4 : Chg 0x1c000000100000008 x1 t4 := by
      unfold t4
      refine Chg.upd_field rfl ?_
      exact Chg.refl _ _
    clear_value t4
    refine ChgR.next ?_
    refine Chg.step (State.nvFlag_chg _ _) rfl ?_
    assumption


theorem State.fieldRefuse_chg (x0 : State) :
    Chg 0x4000000180000008 x0 (State.fieldRefuse x0) := by
  unfold State.fieldRefuse
  refine Chg.step (State.fieldEvent_chg _ _ _ _ _) rfl ?_
  refine Chg.step (State.flag_chg _ _ _) rfl ?_
  exact Chg.refl _ _


theorem State.adcStart_chg (x0 : State) (x1 : Bool) :
    Chg 0xc000000180000008 x0 (State.adcStart x0 x1) := by
  unfold State.adcStart
  split
  · extract_lets t1 w2 t3
    have ht1 : Chg 0xc000000180000008 x0 t1 := by
      unfold t1
      refine Chg.foldl ?_ ?_
      · intro u4 u5 u6
        refine Chg.step (State.fset_chg _ _ _ _) rfl ?_
        assumption
      · exact Chg.refl _ _
    clear_value t1
    clear_value w2
    have ht3 : Chg 0xc000000180000008 x0 t3 := by
      unfold t3
      refine Chg.upd_field rfl ?_
      assumption
    clear_value t3
    refine Chg.step (State.fset_chg _ _ _ _) rfl ?_
    assumption
  · refine Chg.step (State.fieldEvent_chg _ _ _ _ _) rfl ?_
    refine Chg.step (State.fset_chg _ _ _ _) rfl ?_
    refine Chg.step (State.flag_chg _ _ _) rfl ?_
    exact Chg.refl _ _


theorem State.adcStop_chg (x0 : State) :
    Chg 0x8000000100000008 x0 (State.adcStop x0) := by
  unfold State.adcStop
  extract_lets w1
  clear_value w1
  refine Chg.ite ?_ ?_
  · exact Chg.refl _ _
  · refine Chg.step (State.fset_chg _ _ _ _) rfl ?_
    refine Chg.upd_field rfl ?_
    exact Chg.refl _ _


theorem execFadcStart_chg (x0 : Bool) (x1 : State) :
    ChgR 0xc000000180000008 x1 (execFadcStart x0 x1) := by
  unfold execFadcStart
  refine ChgR.ite ?_ ?_
  · refine ChgR.next ?_
    refine Chg.step (State.adcStart_chg _ _) rfl ?_
    exact Chg.refl _ _
  · refine ChgR.next ?_
    exact Chg.refl _ _


theorem execFadcStop_chg (x0 : State) :
    ChgR 0x8000000100000008 x0 (execFadcStop x0) := by
  unfold execFadcStop
  refine ChgR.ite ?_ ?_
  · refine ChgR.next ?_
    refine Chg.step (State.adcStop_chg _) rfl ?_
    exact Chg.refl _ _
  · refine ChgR.next ?_
    exact Chg.refl _ _


theorem State.adcWindow_chg (x0 : State) (x1 : Nat) (x2 : Int) :
    Chg 0xc000000180000008 x0 (State.adcWindow x0 x1 x2).2 := by
  unfold State.adcWindow
  extract_lets w1 w2 w3 w4 w5 t6 t7
  clear_value w1
  clear_value w2
  clear_value w3
  clear_value w4
  clear_value w5
  have ht6 : Chg 0xc000000180000008 x0 t6 := by
    unfold t6
    refine Chg.upd_field rfl ?_
    exact Chg.refl _ _
  clear_value t6
  have ht7 : Chg 0xc000000180000008 x0 t7 := by
    unfold t7
    refine Chg.step (State.fset_chg _ _ _ _) rfl ?_
    assumption
  clear_value t7
  refine Chg.snd_ite ?_ ?_
  · refine Chg.snd_mk ?_
    exact Chg.refl _ _
  · refine Chg.snd_ite ?_ ?_
    · refine Chg.snd_ite ?_ ?_
      · refine Chg.snd_mk ?_
        refine Chg.upd_field rfl ?_
        exact Chg.refl _ _
      · refine Chg.snd_mk ?_
        exact Chg.refl _ _
    · refine Chg.snd_ite ?_ ?_
      · refine Chg.snd_mk ?_
        refine Chg.step (State.fieldEventRate_chg _ _ _ _ _ _) rfl ?_
        refine Chg.step (State.count_chg _ _ _) rfl ?_
        assumption
      · refine Chg.snd_mk ?_
        exact Chg.refl _ _


theorem State.adcReport_chg (x0 : State) (x1 : Nat) (x2 : Int) (x3 : Bool) (x4 : Bool) (x5 : Nat) :
    Chg 0xc000000080000008 x0 (State.adcReport x0 x1 x2 x3 x4 x5) := by
  unfold State.adcReport
  refine Chg.ite ?_ ?_
  · exact Chg.refl _ _
  · refine Chg.ite ?_ ?_
    · refine Chg.step (State.count_chg _ _ _) rfl ?_
      exact Chg.refl _ _
    · refine Chg.step (State.toHost_chg _ _) rfl ?_
      exact Chg.refl _ _


theorem State.adcAdvance_chg (x0 : State) (x1 : Bool) (x2 : Nat) :
    Chg 0x8000000100000008 x0 (State.adcAdvance x0 x1 x2) := by
  unfold State.adcAdvance
  split
  extract_lets w1 t2 w3
  have ht2 : Chg 0x8000000100000008 x0 t2 := by
    unfold t2
    refine Chg.ite ?_ ?_
    · refine Chg.step (State.fset_chg _ _ _ _) (ite_fm rfl rfl) ?_
      exact Chg.refl _ _
    · exact Chg.refl _ _
  clear_value t2
  clear_value w3
  refine Chg.ite ?_ ?_
  · refine Chg.upd_field rfl ?_
    assumption
  · refine Chg.upd_field rfl ?_
    assumption


theorem execEntryResult_chg (x0 : Nat) (x1 : List Int) (x2 : State) :
    ChgR 0xc000000180000008 x2 (execEntryResult x0 x1 x2) := by
  unfold execEntryResult
  extract_lets w1 w2 w3 t4 t5 w6
  clear_value w1
  clear_value w2
  clear_value w3
  have ht4 : Chg 0xc000000180000008 x2 t4 := by
    unfold t4
    refine Chg.step (State.countN_chg _ _ _ _) rfl ?_
    exact Chg.refl _ _
  clear_value t4
  have ht5 : Chg 0xc000000180000008 x2 t5 := by
    unfold t5
    refine Chg.ite ?_ ?_
    · refine Chg.step (State.flag_chg _ _ _) rfl ?_
      assumption
    · assumption
  clear_value t5
  clear_value w6
  refine ChgR.ite ?_ ?_
  · refine ChgR.next ?_
    exact Chg.refl _ _
  · split
    extract_lets w7 t8 t9 t10 t11 t12
    clear_value w7
    have ht8 : Chg 0xc000000180000008 x2 t8 := by
      unfold t8
      refine Chg.step (State.fset_chg _ _ _ _) rfl ?_
      refine Chg.of_snd (by assumption) ?_
      refine Chg.step (State.adcWindow_chg _ _ _) rfl ?_
      assumption
    clear_value t8
    have ht9 : Chg 0xc000000180000008 x2 t9 := by
      unfold t9
      refine Chg.step (State.fset_chg _ _ _ _) rfl ?_
      assumption
    clear_value t9
    have ht10 : Chg 0xc000000180000008 x2 t10 := by
      unfold t10
      refine Chg.step (State.fset_chg _ _ _ _) rfl ?_
      assumption
    clear_value t10
    have ht11 : Chg 0xc000000180000008 x2 t11 := by
      unfold t11
      refine Chg.step (State.fset_chg _ _ _ _) rfl ?_
      assumption
    clear_value t11
    have ht12 : Chg 0xc000000180000008 x2 t12 := by
      unfold t12
      refine Chg.step (State.fset_chg _ _ _ _) rfl ?_
      assumption
    clear_value t12
    refine ChgR.next ?_
    refine Chg.step (State.adcAdvance_chg _ _ _) rfl ?_
    refine Chg.step (State.adcReport_chg _ _ _ _ _ _) rfl ?_
    assumption


theorem State.adcCommit_chg (x0 : State) :
    Chg 0x8000000100000008 x0 (State.adcCommit x0) := by
  unfold State.adcCommit
  extract_lets w1
  clear_value w1
  refine Chg.ite ?_ ?_
  · refine Chg.upd_field rfl ?_
    exact Chg.refl _ _
  · refine Chg.ite ?_ ?_
    · refine Chg.step (State.flag_chg _ _ _) rfl ?_
      exact Chg.refl _ _
    · refine State.applyAll_chg (all_flat (fun _ => by repeat' (first | exact all_nil | refine all_fm rfl ?_))) ?_
      exact Chg.refl _ _


theorem execFadcCommit_chg (x0 : State) :
    ChgR 0x8000000100000008 x0 (execFadcCommit x0) := by
  unfold execFadcCommit
  refine ChgR.ite ?_ ?_
  · refine ChgR.next ?_
    refine Chg.step (State.adcCommit_chg _) rfl ?_
    exact Chg.refl _ _
  · refine ChgR.next ?_
    exact Chg.refl _ _


theorem State.adcCal_chg (x0 : State) :
    Chg 0xc000000180000008 x0 (State.adcCal x0) := by
  unfold State.adcCal
  extract_lets w1
  clear_value w1
  refine Chg.ite ?_ ?_
  · refine Chg.step (State.fieldRefuse_chg _) rfl ?_
    refine Chg.step (State.flag_chg _ _ _) rfl ?_
    exact Chg.refl _ _
  · refine Chg.step (State.fset_chg _ _ _ _) rfl ?_
    refine Chg.upd_field rfl ?_
    exact Chg.refl _ _


theorem execFadcCal_chg (x0 : State) :
    ChgR 0xc000000180000008 x0 (execFadcCal x0) := by
  unfold execFadcCal
  refine ChgR.ite ?_ ?_
  · refine ChgR.next ?_
    refine Chg.step (State.adcCal_chg _) rfl ?_
    exact Chg.refl _ _
  · refine ChgR.next ?_
    exact Chg.refl _ _


theorem execFadcCalDone_chg (x0 : List (Int × Int × Int × Int)) (x1 : State) :
    ChgR 0xc00000018000000c x1 (execFadcCalDone x0 x1) := by
  unfold execFadcCalDone
  split
  · refine ChgR.next ?_
    exact Chg.refl _ _
  · extract_lets w1 t2 t3 w4 t5
    clear_value w1
    have ht2 : Chg 0xc00000018000000c x1 t2 := by
      unfold t2
      refine Chg.upd_field rfl ?_
      exact Chg.refl _ _
    clear_value t2
    have ht3 : Chg 0xc00000018000000c x1 t3 := by
      unfold t3
      refine Chg.step (State.fset_chg _ _ _ _) rfl ?_
      assumption
    clear_value t3
    clear_value w4
    have ht5 : Chg 0xc00000018000000c x1 t5 := by
      unfold t5
      refine Chg.foldl ?_ ?_
      · intro u6 u7 u8
        extract_lets w9 w10 w11
        clear_value w9
        clear_value w10
        clear_value w11
        refine Chg.step (State.fset_chg _ _ _ _) rfl ?_
        refine Chg.step (State.fset_chg _ _ _ _) rfl ?_
        assumption
      · assumption
    clear_value t5
    refine ChgR.ite ?_ ?_
    · refine ChgR.next ?_
      exact Chg.refl _ _
    · refine ChgR.ite ?_ ?_
      · refine ChgR.next ?_
        refine Chg.step (State.fieldEvent_chg _ _ _ _ _) rfl ?_
        refine Chg.step (State.flag_chg _ _ _) rfl ?_
        assumption
      · refine ChgR.next ?_
        refine Chg.step (State.fieldEvent_chg _ _ _ _ _) rfl ?_
        refine Chg.step (State.draw_chg _ _) rfl ?_
        assumption


theorem execCalStore_chg (x0 : State) :
    ChgR 0x1c000000100000008 x0 (execCalStore x0) := by
  unfold execCalStore
  refine ChgR.ite ?_ ?_
  · refine ChgR.next ?_
    refine Chg.step (State.nvStart_chg _ _) rfl ?_
    exact Chg.refl _ _
  · refine ChgR.next ?_
    exact Chg.refl _ _


theorem execMonitorReport_chg (x0 : Int) (x1 : Nat) (x2 : Nat) (x3 : State) :
    ChgR 0x4000000080000008 x3 (execMonitorReport x0 x1 x2 x3) := by
  unfold execMonitorReport
  refine ChgR.ite ?_ ?_
  · refine ChgR.next ?_
    exact Chg.refl _ _
  · refine ChgR.next ?_
    refine Chg.step (State.toHost_chg _ _) rfl ?_
    exact Chg.refl _ _


theorem State.setAo_chg (x0 : State) (x1 : Nat) (x2 : AnaOut) :
    Chg 0x100000000 x0 (State.setAo x0 x1 x2) := by
  unfold State.setAo
  extract_lets w1
  clear_value w1
  refine Chg.upd_field rfl ?_
  exact Chg.refl _ _


theorem State.aoCode_chg (x0 : State) (x1 : Nat) (x2 : Nat) (x3 : Nat) :
    Chg 0x10000000100000008 x0 (State.aoCode x0 x1 x2 x3) := by
  unfold State.aoCode
  extract_lets w1 w2 t3 t4
  clear_value w1
  clear_value w2
  have ht3 : Chg 0x10000000100000008 x0 t3 := by
    unfold t3
    refine Chg.step (State.setAo_chg _ _ _) rfl ?_
    exact Chg.refl _ _
  clear_value t3
  have ht4 : Chg 0x10000000100000008 x0 t4 := by
    unfold t4
    refine Chg.step (State.fset_chg _ _ _ _) rfl ?_
    assumption
  clear_value t4
  refine Chg.step (State.fset_chg _ _ _ _) rfl ?_
  assumption


theorem State.aoApply_chg (x0 : State) (x1 : Nat) :
    Chg 0x10000000100000008 x0 (State.aoApply x0 x1) := by
  unfold State.aoApply
  extract_lets w1 t2
  clear_value w1
  have ht2 : Chg 0x10000000100000008 x0 t2 := by
    unfold t2
    refine Chg.step (State.setAo_chg _ _ _) rfl ?_
    exact Chg.refl _ _
  clear_value t2
  split
  · exact Chg.refl _ _
  · refine Chg.ite ?_ ?_
    · refine Chg.step (State.fset_chg _ _ _ _) rfl ?_
      assumption
    · refine Chg.step (State.aoCode_chg _ _ _ _) rfl ?_
      assumption


theorem State.aoSet_chg (x0 : State) (x1 : Nat) (x2 : Nat) :
    Chg 0x10000000100000008 x0 (State.aoSet x0 x1 x2) := by
  unfold State.aoSet
  extract_lets w1 t2
  clear_value w1
  have ht2 : Chg 0x10000000100000008 x0 t2 := by
    unfold t2
    refine Chg.ite ?_ ?_
    · refine Chg.step (State.count_chg _ _ _) rfl ?_
      exact Chg.refl _ _
    · exact Chg.refl _ _
  clear_value t2
  refine Chg.ite ?_ ?_
  · exact Chg.refl _ _
  · refine Chg.step (State.setAo_chg _ _ _) rfl ?_
    assumption


theorem execFdacSet_chg (x0 : Nat) (x1 : State) :
    ChgR 0x10000000100000008 x1 (execFdacSet x0 x1) := by
  unfold execFdacSet
  refine ChgR.ite ?_ ?_
  · refine ChgR.next ?_
    refine Chg.step (State.aoSet_chg _ _ _) rfl ?_
    exact Chg.refl _ _
  · refine ChgR.next ?_
    exact Chg.refl _ _


theorem execUpdateApply_chg (x0 : Nat) (x1 : State) :
    ChgR 0x10000000100000008 x1 (execUpdateApply x0 x1) := by
  unfold execUpdateApply
  extract_lets w1
  clear_value w1
  refine ChgR.ite ?_ ?_
  · refine ChgR.next ?_
    exact Chg.refl _ _
  · refine ChgR.next ?_
    refine Chg.step (State.aoApply_chg _ _) rfl ?_
    exact Chg.refl _ _


theorem execDeglitchHoldEnd_chg (x0 : Nat) (x1 : State) :
    ChgR 0x10000000100000008 x1 (execDeglitchHoldEnd x0 x1) := by
  unfold execDeglitchHoldEnd
  extract_lets w1 t2
  clear_value w1
  have ht2 : Chg 0x10000000100000008 x1 t2 := by
    unfold t2
    refine Chg.step (State.setAo_chg _ _ _) rfl ?_
    exact Chg.refl _ _
  clear_value t2
  split
  · refine ChgR.next ?_
    exact Chg.refl _ _
  · refine ChgR.ite ?_ ?_
    · refine ChgR.next ?_
      exact Chg.refl _ _
    · refine ChgR.next ?_
      refine Chg.ite ?_ ?_
      · refine Chg.step (State.fset_chg _ _ _ _) rfl ?_
        assumption
      · assumption


theorem State.aoChange_chg (x0 : State) (x1 : Nat) (x2 : Nat) :
    Chg 0x10000000100000008 x0 (State.aoChange x0 x1 x2) := by
  unfold State.aoChange
  extract_lets w1 t2 w3
  clear_value w1
  have ht2 : Chg 0x10000000100000008 x0 t2 := by
    unfold t2
    refine Chg.ite ?_ ?_
    · exact Chg.refl _ _
    · refine Chg.step (State.aoCode_chg _ _ _ _) rfl ?_
      exact Chg.refl _ _
  clear_value t2
  clear_value w3
  refine Chg.step (State.fset_chg _ _ _ _) rfl ?_
  refine Chg.step (State.setAo_chg _ _ _) rfl ?_
  assumption


theorem State.aoSpan_chg (x0 : State) (x1 : Nat) (x2 : Nat) :
    Chg 0x10000000100000008 x0 (State.aoSpan x0 x1 x2) := by
  unfold State.aoSpan
  extract_lets w1
  clear_value w1
  refine Chg.ite ?_ ?_
  · exact Chg.refl _ _
  · refine Chg.ite ?_ ?_
    · refine Chg.step (State.setAo_chg _ _ _) rfl ?_
      exact Chg.refl _ _
    · refine Chg.step (State.aoChange_chg _ _ _) rfl ?_
      exact Chg.refl _ _


theorem State.aoPolicy_chg (x0 : State) (x1 : Nat) :
    Chg 0x10000000100000008 x0 (State.aoPolicy x0 x1) := by
  unfold State.aoPolicy
  extract_lets w1 t2
  clear_value w1
  have ht2 : Chg 0x10000000100000008 x0 t2 := by
    unfold t2
    refine Chg.step (State.setAo_chg _ _ _) rfl ?_
    exact Chg.refl _ _
  clear_value t2
  refine Chg.ite ?_ ?_
  · assumption
  · refine Chg.ite ?_ ?_
    · refine Chg.step (State.fset_chg _ _ _ _) rfl ?_
      assumption
    · split
      · refine Chg.step (State.fset_chg _ _ _ _) rfl ?_
        assumption
      · refine Chg.step (State.fset_chg _ _ _ _) rfl ?_
        assumption
      · refine Chg.step (State.fset_chg _ _ _ _) rfl ?_
        refine Chg.step (State.fset_chg _ _ _ _) rfl ?_
        assumption
      · refine Chg.step (State.fset_chg _ _ _ _) rfl ?_
        refine Chg.step (State.fset_chg _ _ _ _) rfl ?_
        assumption


theorem State.aoEnd_chg (x0 : State) (x1 : Nat) :
    Chg 0x10000000100000008 x0 (State.aoEnd x0 x1) := by
  unfold State.aoEnd
  extract_lets w1
  clear_value w1
  split
  · extract_lets t2
    have ht2 : Chg 0x10000000100000008 x0 t2 := by
      unfold t2
      refine Chg.step (State.setAo_chg _ _ _) rfl ?_
      exact Chg.refl _ _
    clear_value t2
    refine Chg.step (State.aoChange_chg _ _ _) rfl ?_
    assumption
  · refine Chg.ite ?_ ?_
    · refine Chg.step (State.aoPolicy_chg _ _) rfl ?_
      exact Chg.refl _ _
    · refine Chg.ite ?_ ?_
      · exact Chg.refl _ _
      · refine Chg.step (State.aoApply_chg _ _) rfl ?_
        exact Chg.refl _ _


theorem execSpanSwitch_chg (x0 : Nat) (x1 : State) :
    ChgR 0x10000000100000008 x1 (execSpanSwitch x0 x1) := by
  unfold execSpanSwitch
  extract_lets w1 t2
  clear_value w1
  have ht2 : Chg 0x10000000100000008 x1 t2 := by
    unfold t2
    refine Chg.step (State.setAo_chg _ _ _) rfl ?_
    exact Chg.refl _ _
  clear_value t2
  split
  · extract_lets t3
    have ht3 : Chg 0x10000000100000008 x1 t3 := by
      unfold t3
      refine Chg.step (State.setAo_chg _ _ _) rfl ?_
      exact Chg.refl _ _
    clear_value t3
    refine ChgR.ite ?_ ?_
    · refine ChgR.next ?_
      exact Chg.refl _ _
    · refine ChgR.ite ?_ ?_
      · refine ChgR.next ?_
        refine Chg.step (State.aoEnd_chg _ _) rfl ?_
        refine Chg.step (State.fset_chg _ _ _ _) rfl ?_
        assumption
      · refine ChgR.next ?_
        refine Chg.step (State.fset_chg _ _ _ _) rfl ?_
        assumption
  · refine ChgR.next ?_
    exact Chg.refl _ _


theorem execSpanChangeEnd_chg (x0 : Nat) (x1 : State) :
    ChgR 0x10000000100000008 x1 (execSpanChangeEnd x0 x1) := by
  unfold execSpanChangeEnd
  extract_lets w1 t2
  clear_value w1
  have ht2 : Chg 0x10000000100000008 x1 t2 := by
    unfold t2
    refine Chg.step (State.setAo_chg _ _ _) rfl ?_
    exact Chg.refl _ _
  clear_value t2
  split
  · refine ChgR.ite ?_ ?_
    · refine ChgR.next ?_
      exact Chg.refl _ _
    · refine ChgR.next ?_
      refine Chg.step (State.aoEnd_chg _ _) rfl ?_
      refine Chg.step (State.fset_chg _ _ _ _) rfl ?_
      assumption
  · refine ChgR.next ?_
    exact Chg.refl _ _


theorem State.dacCommit_chg (x0 : State) (x1 : Bool) :
    Chg 0x1c000000100000008 x0 (State.dacCommit x0 x1) := by
  unfold State.dacCommit
  extract_lets w1 t2 t3
  clear_value w1
  have ht2 : Chg 0x1c000000100000008 x0 t2 := by
    unfold t2
    refine State.applyAll_chg rfl ?_
    exact Chg.refl _ _
  clear_value t2
  have ht3 : Chg 0x1c000000100000008 x0 t3 := by
    unfold t3
    refine Chg.foldl ?_ ?_
    · intro u4 u5 u6
      refine Chg.step (State.aoSpan_chg _ _ _) rfl ?_
      assumption
    · assumption
  clear_value t3
  refine Chg.ite ?_ ?_
  · refine Chg.upd_field rfl ?_
    exact Chg.refl _ _
  · refine Chg.ite ?_ ?_
    · refine Chg.step (State.flag_chg _ _ _) rfl ?_
      exact Chg.refl _ _
    · refine Chg.ite ?_ ?_
      · refine Chg.step (State.nvStart_chg _ _) rfl ?_
        assumption
      · assumption


theorem execFdacCommit_chg (x0 : Bool) (x1 : State) :
    ChgR 0x1c000000100000008 x1 (execFdacCommit x0 x1) := by
  unfold execFdacCommit
  refine ChgR.ite ?_ ?_
  · refine ChgR.next ?_
    refine Chg.step (State.dacCommit_chg _ _) rfl ?_
    exact Chg.refl _ _
  · refine ChgR.next ?_
    exact Chg.refl _ _


theorem execOpenLoop_chg (x0 : Nat) (x1 : State) :
    ChgR 0x14000000180000008 x1 (execOpenLoop x0 x1) := by
  unfold execOpenLoop
  extract_lets t1 t2
  have ht1 : Chg 0x14000000180000008 x1 t1 := by
    unfold t1
    refine Chg.step (State.flag_chg _ _ _) rfl ?_
    exact Chg.refl _ _
  clear_value t1
  have ht2 : Chg 0x14000000180000008 x1 t2 := by
    unfold t2
    refine Chg.step (State.flag_chg _ _ _) rfl ?_
    assumption
  clear_value t2
  refine ChgR.ite ?_ ?_
  · refine ChgR.next ?_
    exact Chg.refl _ _
  · refine ChgR.next ?_
    refine Chg.step (State.fieldEvent_chg _ _ _ _ _) rfl ?_
    refine Chg.step (State.count_chg _ _ _) rfl ?_
    assumption


theorem execOpenLoopClear_chg (x0 : Nat) (x1 : State) :
    ChgR 0x10000000000000008 x1 (execOpenLoopClear x0 x1) := by
  unfold execOpenLoopClear
  refine ChgR.ite ?_ ?_
  · refine ChgR.next ?_
    exact Chg.refl _ _
  · refine ChgR.next ?_
    refine Chg.step (State.fset_chg _ _ _ _) rfl ?_
    exact Chg.refl _ _


theorem State.enableLane_chg (x0 : State) (x1 : Nat) :
    Chg 0x4000000180000008 x0 (State.enableLane x0 x1) := by
  unfold State.enableLane
  refine Chg.ite ?_ ?_
  · exact Chg.refl _ _
  · split
    · extract_lets t1 w2
      have ht1 : Chg 0x4000000180000008 x0 t1 := by
        unfold t1
        refine Chg.step (State.fset_chg _ _ _ _) rfl ?_
        exact Chg.refl _ _
      clear_value t1
      clear_value w2
      refine Chg.step (State.fieldRefresh_chg _) rfl ?_
      refine Chg.upd_field rfl ?_
      assumption
    · extract_lets t3 t4 t5
      have ht3 : Chg 0x4000000180000008 x0 t3 := by
        unfold t3
        refine Chg.step (State.flag_chg _ _ _) rfl ?_
        exact Chg.refl _ _
      clear_value t3
      have ht4 : Chg 0x4000000180000008 x0 t4 := by
        unfold t4
        refine Chg.step (State.fset_chg _ _ _ _) rfl ?_
        assumption
      clear_value t4
      have ht5 : Chg 0x4000000180000008 x0 t5 := by
        unfold t5
        refine Chg.ite ?_ ?_
        · refine Chg.step (State.fset_chg _ _ _ _) rfl ?_
          assumption
        · assumption
      clear_value t5
      refine Chg.step (State.fieldEvent_chg _ _ _ _ _) rfl ?_
      assumption


theorem State.disableLane_chg (x0 : State) (x1 : Nat) :
    Chg 0x4000000100000008 x0 (State.disableLane x0 x1) := by
  unfold State.disableLane
  refine Chg.ite ?_ ?_
  · refine Chg.step (State.fieldRefresh_chg _) rfl ?_
    refine Chg.step (State.fset_chg _ _ _ _) rfl ?_
    exact Chg.refl _ _
  · exact Chg.refl _ _


theorem execLaneEnable_chg (x0 : Nat) (x1 : State) :
    ChgR 0x4000000180000008 x1 (execLaneEnable x0 x1) := by
  unfold execLaneEnable
  refine ChgR.ite ?_ ?_
  · refine ChgR.next ?_
    exact Chg.refl _ _
  · refine ChgR.ite ?_ ?_
    · refine ChgR.next ?_
      refine Chg.step (State.fieldRefuse_chg _) rfl ?_
      exact Chg.refl _ _
    · refine ChgR.next ?_
      refine Chg.step (State.enableLane_chg _ _) rfl ?_
      exact Chg.refl _ _


theorem execLaneDisable_chg (x0 : Nat) (x1 : State) :
    ChgR 0x4000000180000008 x1 (execLaneDisable x0 x1) := by
  unfold execLaneDisable
  refine ChgR.ite ?_ ?_
  · refine ChgR.next ?_
    exact Chg.refl _ _
  · refine ChgR.ite ?_ ?_
    · refine ChgR.next ?_
      refine Chg.step (State.fieldRefuse_chg _) rfl ?_
      exact Chg.refl _ _
    · refine ChgR.next ?_
      refine Chg.step (State.disableLane_chg _ _) rfl ?_
      exact Chg.refl _ _


theorem State.fldCommit_chg (x0 : State) (x1 : Bool) :
    Chg 0x1c000000100000008 x0 (State.fldCommit x0 x1) := by
  unfold State.fldCommit
  extract_lets w1 w2 t3 t4
  clear_value w1
  clear_value w2
  have ht3 : Chg 0x1c000000100000008 x0 t3 := by
    unfold t3
    refine State.applyAll_chg rfl ?_
    exact Chg.refl _ _
  clear_value t3
  have ht4 : Chg 0x1c000000100000008 x0 t4 := by
    unfold t4
    refine Chg.ite ?_ ?_
    · refine Chg.step (State.nvStart_chg _ _) rfl ?_
      assumption
    · assumption
  clear_value t4
  refine Chg.ite ?_ ?_
  · refine Chg.upd_field rfl ?_
    exact Chg.refl _ _
  · refine Chg.ite ?_ ?_
    · refine Chg.step (State.flag_chg _ _ _) rfl ?_
      exact Chg.refl _ _
    · refine Chg.step (State.fieldRefresh_chg _) rfl ?_
      assumption


theorem execFldCommit_chg (x0 : Bool) (x1 : State) :
    ChgR 0x1c000000100000008 x1 (execFldCommit x0 x1) := by
  unfold execFldCommit
  refine ChgR.ite ?_ ?_
  · refine ChgR.next ?_
    refine Chg.step (State.fldCommit_chg _ _) rfl ?_
    exact Chg.refl _ _
  · refine ChgR.next ?_
    exact Chg.refl _ _


theorem State.runCommit_chg (x0 : State) (x1 : FieldCommit) :
    Chg 0x1c000000100000008 x0 (State.runCommit x0 x1) := by
  unfold State.runCommit
  split
  · refine Chg.step (State.fldCommit_chg _ _) rfl ?_
    exact Chg.refl _ _
  · refine Chg.step (State.adcCommit_chg _) rfl ?_
    exact Chg.refl _ _
  · refine Chg.step (State.dacCommit_chg _ _) rfl ?_
    exact Chg.refl _ _


theorem State.restage_chg (x0 : State) (x1 : Tab Nat) :
    Chg 0x10 x0 (State.restage x0 x1) := by
  unfold State.restage
  refine Chg.upd_staged rfl ?_
  exact Chg.refl _ _


theorem State.lateCommit_chg (x0 : State) (x1 : FieldCommit × Tab Nat) :
    Chg 0x1c000000100000018 x0 (State.lateCommit x0 x1) := by
  unfold State.lateCommit
  refine Chg.step (State.restage_chg _ _) rfl ?_
  refine Chg.step (State.runCommit_chg _ _) rfl ?_
  refine Chg.step (State.restage_chg _ _) rfl ?_
  exact Chg.refl _ _


theorem State.runCommits_chg (x0 : State) :
    Chg 0x1c000000100000018 x0 (State.runCommits x0) := by
  unfold State.runCommits
  extract_lets w1
  clear_value w1
  refine Chg.foldl ?_ ?_
  · intro u2 u3 u4
    refine Chg.step (State.lateCommit_chg _ _) rfl ?_
    assumption
  · refine Chg.upd_field rfl ?_
    exact Chg.refl _ _


theorem State.fieldPlain_chg (x0 : State) (x1 : Nat) (x2 : Nat) :
    Chg 0x3ffffff0180080018 x0 (State.fieldPlain x0 x1 x2) := by
  unfold State.fieldPlain
  split
  · exact Chg.refl _ _
  · refine Chg.ite ?_ ?_
    · refine Chg.step (State.writeCntCtrl_chg _ _ _ _) rfl ?_
      exact Chg.refl _ _
    · refine Chg.ite ?_ ?_
      · exact Chg.refl _ _
      · refine Chg.ite ?_ ?_
        · refine Chg.step (State.fieldRefuse_chg _) rfl ?_
          refine Chg.ite ?_ ?_
          · refine Chg.step (State.flag_chg _ _ _) rfl ?_
            exact Chg.refl _ _
          · exact Chg.refl _ _
        · refine Chg.step (State.writeReg_chg _ _ _ _) rfl ?_
          exact Chg.refl _ _


theorem State.adcCtrl_chg (x0 : State) (x1 : Nat) :
    Chg 0x1c000000180000008 x0 (State.adcCtrl x0 x1) := by
  unfold State.adcCtrl
  extract_lets t1 t2 t3
  have ht1 : Chg 0x1c000000180000008 x0 t1 := by
    unfold t1
    refine Chg.ite ?_ ?_
    · refine Chg.step (State.adcStart_chg _ _) rfl ?_
      exact Chg.refl _ _
    · exact Chg.refl _ _
  clear_value t1
  have ht2 : Chg 0x1c000000180000008 x0 t2 := by
    unfold t2
    refine Chg.ite ?_ ?_
    · refine Chg.step (State.adcStop_chg _) rfl ?_
      assumption
    · assumption
  clear_value t2
  have ht3 : Chg 0x1c000000180000008 x0 t3 := by
    unfold t3
    refine Chg.ite ?_ ?_
    · refine Chg.step (State.adcCal_chg _) rfl ?_
      assumption
    · assumption
  clear_value t3
  refine Chg.ite ?_ ?_
  · refine Chg.step (State.nvStart_chg _ _) rfl ?_
    assumption
  · assumption


theorem State.laneCtrl_chg (x0 : State) (x1 : Nat) :
    Chg 0x4000000180000008 x0 (State.laneCtrl x0 x1) := by
  unfold State.laneCtrl
  extract_lets w1 t2
  clear_value w1
  have ht2 : Chg 0x4000000180000008 x0 t2 := by
    unfold t2
    refine Chg.ite ?_ ?_
    · refine Chg.step (State.enableLane_chg _ _) rfl ?_
      exact Chg.refl _ _
    · exact Chg.refl _ _
  clear_value t2
  refine Chg.ite ?_ ?_
  · refine Chg.step (State.fieldRefuse_chg _) rfl ?_
    exact Chg.refl _ _
  · refine Chg.ite ?_ ?_
    · refine Chg.step (State.disableLane_chg _ _) rfl ?_
      assumption
    · assumption


theorem State.fieldWrite_chg (x0 : State) (x1 : Nat) (x2 : Nat) :
    Chg 0x3ffffff0180080018 x0 (State.fieldWrite x0 x1 x2) := by
  unfold State.fieldWrite
  split
  · refine Chg.step (State.toHost_chg _ _) rfl ?_
    exact Chg.refl _ _
  · refine Chg.ite ?_ ?_
    · refine Chg.step (State.fldCommit_chg _ _) rfl ?_
      exact Chg.refl _ _
    · exact Chg.refl _ _
  · refine Chg.step (State.laneCtrl_chg _ _) rfl ?_
    exact Chg.refl _ _
  · refine Chg.step (State.adcCtrl_chg _ _) rfl ?_
    exact Chg.refl _ _
  · refine Chg.ite ?_ ?_
    · refine Chg.step (State.adcCommit_chg _) rfl ?_
      exact Chg.refl _ _
    · exact Chg.refl _ _
  · refine Chg.ite ?_ ?_
    · refine Chg.step (State.dacCommit_chg _ _) rfl ?_
      exact Chg.refl _ _
    · exact Chg.refl _ _
  · refine Chg.step (State.aoSet_chg _ _ _) rfl ?_
    exact Chg.refl _ _
  · refine Chg.step (State.fieldRefresh_chg _) rfl ?_
    refine Chg.step (State.fieldPlain_chg _ _ _) rfl ?_
    exact Chg.refl _ _


theorem execConfigWrite_chg (x0 : State) :
    ChgR 0x3ffffff0180080018 x0 (execConfigWrite x0) := by
  unfold execConfigWrite
  refine State.onMsg_chg rfl ?_ ?_
  · exact Chg.refl _ _
  · intro u1 u2 u3
    refine Chg.step (State.fieldWrite_chg _ _ _) rfl ?_
    assumption


theorem State.copyWrite_chg (x0 : State) (x1 : Nat) (x2 : Nat) :
    Chg 0x80000000 x0 (State.copyWrite x0 x1 x2) := by
  unfold State.copyWrite
  extract_lets w1 w2 w3
  clear_value w2
  clear_value w3
  refine Chg.ite ?_ ?_
  · exact Chg.refl _ _
  · refine Chg.upd_bar rfl ?_
    exact Chg.refl _ _


theorem State.copySuspend_chg (x0 : State) (x1 : Nat) (x2 : Nat) :
    Chg 0x10020080600908 x0 (State.copySuspend x0 x1 x2) := by
  unfold State.copySuspend
  extract_lets w1
  clear_value w1
  refine Chg.ite ?_ ?_
  · refine Chg.step (State.suspend_chg _ _ _ _) rfl ?_
    exact Chg.refl _ _
  · exact Chg.refl _ _


theorem State.proxyPost_chg (x0 : State) (x1 : Nat) (x2 : Nat) :
    Chg 0x2010020080600f08 x0 (State.proxyPost x0 x1 x2) := by
  unfold State.proxyPost
  refine Chg.ite ?_ ?_
  · refine Chg.step (State.writesLost_chg _ _) rfl ?_
    exact Chg.refl _ _
  · refine Chg.step (State.toField_chg _ _) rfl ?_
    refine Chg.step (State.copyWrite_chg _ _ _) rfl ?_
    refine Chg.step (State.copySuspend_chg _ _ _) rfl ?_
    exact Chg.refl _ _


theorem execProxyWrite_chg (x0 : Sys2Proof.Access) (x1 : Nat) (x2 : State) :
    ChgR 0x2010020080600f08 x2 (execProxyWrite x0 x1 x2) := by
  unfold execProxyWrite
  refine ChgR.ite ?_ ?_
  · refine ChgR.next ?_
    refine Chg.step (State.proxyPost_chg _ _ _) rfl ?_
    exact Chg.refl _ _
  · refine ChgR.next ?_
    exact Chg.refl _ _


theorem State.proxyNext_chg (x0 : State) (x1 : ProxyRead) :
    Chg 0x80000000 x0 (State.proxyNext x0 x1) := by
  unfold State.proxyNext
  extract_lets w1 w2 t3
  clear_value w1
  clear_value w2
  have ht3 : Chg 0x80000000 x0 t3 := by
    unfold t3
    refine Chg.upd_bar rfl ?_
    exact Chg.refl _ _
  clear_value t3
  refine Chg.step (State.toField_chg _ _) rfl ?_
  assumption


theorem State.proxyFail_chg (x0 : State) :
    Chg 0x2000020000400908 x0 (State.proxyFail x0) := by
  unfold State.proxyFail
  refine Chg.step (State.log_chg _ _) rfl ?_
  refine Chg.step (State.flag_chg _ _ _) rfl ?_
  exact Chg.refl _ _


theorem State.proxyDone_chg (x0 : State) (x1 : ProxyRead) (x2 : Nat) :
    Chg 0x180a0048c08988 x0 (State.proxyDone x0 x1 x2) := by
  unfold State.proxyDone
  split
  · refine Chg.step (State.fieldTold_chg _ _ _) rfl ?_
    exact Chg.refl _ _
  · split
    · refine Chg.upd_readData rfl ?_
      exact Chg.refl _ _
    · refine Chg.step (State.answer_chg _ _ _ _ _ _) rfl ?_
      exact Chg.refl _ _


theorem State.proxyRun_chg (x0 : State) (x1 : Nat) (x2 : ProxyRead) :
    Chg 0x20180a00c8c08988 x0 (State.proxyRun x0 x1 x2) := by
  induction' x1 with n ih generalizing x0 x2
  · rw [State.proxyRun]
    refine Chg.step (State.proxyDone_chg _ _ _) rfl ?_
    exact Chg.refl _ _
  · rw [State.proxyRun]
    extract_lets w1 t2 t3
    clear_value w1
    have ht2 : Chg 0x20180a00c8c08988 x0 t2 := by
      unfold t2
      refine Chg.upd_bar rfl ?_
      exact Chg.refl _ _
    clear_value t2
    have ht3 : Chg 0x20180a00c8c08988 x0 t3 := by
      unfold t3
      refine Chg.step (State.proxyFail_chg _) rfl ?_
      assumption
    clear_value t3
    refine Chg.ite ?_ ?_
    · refine Chg.step (State.proxyNext_chg _ _) rfl ?_
      exact Chg.refl _ _
    · refine Chg.ite ?_ ?_
      · refine Chg.step (State.proxyDone_chg _ _ _) rfl ?_
        assumption
      · refine Chg.step (ih _ _) rfl ?_
        assumption


theorem State.proxyWord_chg (x0 : State) (x1 : ProxyRead) (x2 : Nat) :
    Chg 0x20180a00c8c08988 x0 (State.proxyWord x0 x1 x2) := by
  unfold State.proxyWord
  refine Chg.ite ?_ ?_
  · refine Chg.step (State.proxyDone_chg _ _ _) rfl ?_
    exact Chg.refl _ _
  · refine Chg.step (State.proxyRun_chg _ _ _) rfl ?_
    exact Chg.refl _ _


theorem State.proxyAsk_chg (x0 : State) (x1 : Nat) (x2 : Nat) (x3 : Nat) (x4 : Option (Nat × Nat)) :
    Chg 0x20180a00c8c08988 x0 (State.proxyAsk x0 x1 x2 x3 x4) := by
  unfold State.proxyAsk
  refine Chg.step (State.proxyRun_chg _ _ _) rfl ?_
  exact Chg.refl _ _


theorem execProxyRead_chg (x0 : Sys2Proof.Access) (x1 : State) :
    ChgR 0x20180a00c8c08988 x1 (execProxyRead x0 x1) := by
  unfold execProxyRead
  refine ChgR.ite ?_ ?_
  · refine ChgR.next ?_
    refine Chg.step (State.proxyAsk_chg _ _ _ _ _) rfl ?_
    exact Chg.refl _ _
  · refine ChgR.next ?_
    exact Chg.refl _ _


theorem State.proxyDrop_chg (x0 : State) (x1 : ProxyRead) :
    Chg 0x80000000 x0 (State.proxyDrop x0 x1) := by
  unfold State.proxyDrop
  extract_lets w1
  clear_value w1
  refine Chg.upd_bar rfl ?_
  exact Chg.refl _ _


theorem execConfigReadReply_chg (x0 : State) :
    ChgR 0x20180a00c8c08988 x0 (execConfigReadReply x0) := by
  unfold execConfigReadReply
  refine State.onMsg_chg rfl ?_ ?_
  · exact Chg.refl _ _
  · intro u1 u2 u3
    split
    · assumption
    · refine Chg.step (State.proxyWord_chg _ _ _) rfl ?_
      refine Chg.step (State.proxyDrop_chg _ _) rfl ?_
      assumption


theorem execProxyReadTimeout_chg (x0 : State) :
    ChgR 0x20180a00c8c08988 x0 (execProxyReadTimeout x0) := by
  unfold execProxyReadTimeout
  split
  · refine ChgR.next ?_
    exact Chg.refl _ _
  · extract_lets t1
    have ht1 : Chg 0x20180a00c8c08988 x0 t1 := by
      unfold t1
      refine Chg.step (State.proxyDrop_chg _ _) rfl ?_
      exact Chg.refl _ _
    clear_value t1
    refine ChgR.ite ?_ ?_
    · refine ChgR.next ?_
      exact Chg.refl _ _
    · refine ChgR.next ?_
      refine Chg.step (State.proxyWord_chg _ _ _) rfl ?_
      refine Chg.ite ?_ ?_
      · assumption
      · refine Chg.step (State.proxyFail_chg _) rfl ?_
        assumption


theorem execFldGwCommit_chg (x0 : State) :
    ChgR 0x2000000000000008 x0 (execFldGwCommit x0) := by
  unfold execFldGwCommit
  extract_lets w1
  clear_value w1
  refine ChgR.ite ?_ ?_
  · refine ChgR.next ?_
    refine Chg.step (State.flag_chg _ _ _) rfl ?_
    exact Chg.refl _ _
  · refine ChgR.next ?_
    refine Chg.step (State.applyStaged_chg _ _ _) rfl ?_
    exact Chg.refl _ _


theorem State.frozen_chg (x0 : State) :
    Chg 0x10000000000008 x0 (State.frozen x0) := by
  unfold State.frozen
  refine Chg.step (State.fset_chg _ _ _ _) rfl ?_
  exact Chg.refl _ _


theorem State.stopBegin_chg (x0 : State) (x1 : Nat) (x2 : Nat) :
    Chg 0x10064080600908 x0 (State.stopBegin x0 x1 x2) := by
  unfold State.stopBegin
  extract_lets t1 w2 t3 w4
  have ht1 : Chg 0x10064080600908 x0 t1 := by
    unfold t1
    refine Chg.step (State.frozen_chg _) rfl ?_
    refine Chg.step (State.flag_chg _ _ _) rfl ?_
    exact Chg.refl _ _
  clear_value t1
  clear_value w2
  have ht3 : Chg 0x10064080600908 x0 t3 := by
    unfold t3
    refine Chg.foldl ?_ ?_
    · intro u5 u6 u7
      refine Chg.step (State.breakLane_chg _ _ _) rfl ?_
      refine Chg.step (State.suspend_chg _ _ _ _) rfl ?_
      assumption
    · assumption
  clear_value t3
  clear_value w4
  refine Chg.ite ?_ ?_
  · exact Chg.refl _ _
  · refine Chg.upd_power rfl ?_
    assumption


theorem State.stopItem_chg (x0 : State) (x1 : Nat) :
    Chg 0x28020089e98908 x0 (State.stopItem x0 x1) := by
  unfold State.stopItem
  split
  · exact Chg.refl _ _
  · extract_lets t1
    have ht1 : Chg 0x28020089e98908 x0 t1 := by
      unfold t1
      refine Chg.ite ?_ ?_
      · refine Chg.step (State.withholdItem_chg _ _) rfl ?_
        exact Chg.refl _ _
      · exact Chg.refl _ _
    clear_value t1
    refine Chg.ite ?_ ?_
    · exact Chg.refl _ _
    · refine Chg.step (State.closeItem_chg _ _) rfl ?_
      refine Chg.step (State.completeItem_chg _ _ _ _) rfl ?_
      assumption


theorem State.coresOff_chg (x0 : State) :
    Chg 0x8810000bf008 x0 (State.coresOff x0) := by
  unfold State.coresOff
  extract_lets w1 t2 w3 w4 w5
  clear_value w1
  have ht2 : Chg 0x8810000bf008 x0 t2 := by
    unfold t2
    refine Chg.foldl ?_ ?_
    · intro u6 u7 u8
      extract_lets t9
      have ht9 : Chg 0x8810000bf008 x0 t9 := by
        unfold t9
        refine Chg.step (State.fset_chg _ _ _ _) rfl ?_
        assumption
      clear_value t9
      refine Chg.foldl ?_ ?_
      · intro u10 u11 u12
        refine Chg.step (State.fset_chg _ _ _ _) rfl ?_
        assumption
      · assumption
    · exact Chg.refl _ _
  clear_value t2
  clear_value w3
  clear_value w4
  clear_value w5
  refine Chg.upd_group_54 rfl rfl rfl rfl rfl rfl rfl rfl ?_ ?_
  · exact fun _ => rfl
  · assumption


theorem State.stopEnd_chg (x0 : State) (x1 : Nat) :
    Chg 0x288e5089ebf908 x0 (State.stopEnd x0 x1) := by
  unfold State.stopEnd
  extract_lets t1 w2 t3 t4 t5 w6 t7
  have ht1 : Chg 0x288e5089ebf908 x0 t1 := by
    unfold t1
    refine Chg.foldl ?_ ?_
    · intro u8 u9 u10
      refine Chg.step (State.stopItem_chg _ _) rfl ?_
      assumption
    · exact Chg.refl _ _
  clear_value t1
  clear_value w2
  have ht3 : Chg 0x288e5089ebf908 x0 t3 := by
    unfold t3
    refine Chg.step (State.sendHostState_chg _) rfl ?_
    refine Chg.upd_bar rfl ?_
    assumption
  clear_value t3
  have ht4 : Chg 0x288e5089ebf908 x0 t4 := by
    unfold t4
    refine Chg.step (State.coresOff_chg _) rfl ?_
    assumption
  clear_value t4
  have ht5 : Chg 0x288e5089ebf908 x0 t5 := by
    unfold t5
    refine Chg.step (State.fset_chg _ _ _ _) rfl ?_
    assumption
  clear_value t5
  clear_value w6
  have ht7 : Chg 0x288e5089ebf908 x0 t7 := by
    unfold t7
    refine Chg.upd_power rfl ?_
    assumption
  clear_value t7
  refine Chg.step (State.log_chg _ _) rfl ?_
  assumption


theorem State.rollMeans_chg (x0 : State) :
    Chg 0x200000004 x0 (State.rollMeans x0) := by
  unfold State.rollMeans
  extract_lets w1 w2 w3
  clear_value w1
  clear_value w2
  clear_value w3
  refine Chg.ite ?_ ?_
  · exact Chg.refl _ _
  · refine Chg.upd_free_hk rfl rfl ?_
    exact Chg.refl _ _


theorem State.sample_chg (x0 : State) (x1 : Nat) (x2 : Int) :
    Chg 0x200000000 x0 (State.sample x0 x1 x2) := by
  unfold State.sample
  extract_lets w1 w2
  clear_value w1
  clear_value w2
  refine Chg.upd_hk rfl ?_
  exact Chg.refl _ _


theorem State.showRises_chg (x0 : State) (x1 : Option (Nat × Tab Int)) :
    Chg 0x4020000000c x0 (State.showRises x0 x1) := by
  unfold State.showRises
  extract_lets w1 w2 t3 w4
  clear_value w1
  clear_value w2
  have ht3 : Chg 0x4020000000c x0 t3 := by
    unfold t3
    refine Chg.foldl ?_ ?_
    · intro u5 u6 u7
      extract_lets t8 w9
      have ht8 : Chg 0x4020000000c x0 t8 := by
        unfold t8
        refine Chg.step (State.fset_chg _ _ _ _) rfl ?_
        assumption
      clear_value t8
      clear_value w9
      refine Chg.step (State.sample_chg _ _ _) rfl ?_
      refine Chg.step (State.sample_chg _ _ _) rfl ?_
      refine Chg.step (State.fset_chg _ _ _ _) rfl ?_
      assumption
    · exact Chg.refl _ _
  clear_value t3
  clear_value w4
  refine Chg.step (State.draw_chg _ _) rfl ?_
  refine Chg.step (State.sample_chg _ _ _) rfl ?_
  refine Chg.step (State.fset_chg _ _ _ _) rfl ?_
  assumption


theorem State.riseLevels_chg (x0 : State) (x1 : Option (Nat × Tab Int)) :
    Chg 0x10464080604908 x0 (State.riseLevels x0 x1) := by
  unfold State.riseLevels
  extract_lets w1 w2 w3 w4 w5 w6 t7 t8 w9 w10 w11 w12 w13
  clear_value w1
  clear_value w2
  clear_value w3
  clear_value w4
  clear_value w5
  clear_value w6
  have ht7 : Chg 0x10464080604908 x0 t7 := by
    unfold t7
    refine Chg.foldl ?_ ?_
    · intro u14 u15 u16
      refine Chg.step (State.halvePeriod_chg _ _) rfl ?_
      assumption
    · exact Chg.refl _ _
  clear_value t7
  have ht8 : Chg 0x10464080604908 x0 t8 := by
    unfold t8
    refine Chg.step (State.raiseLevel_chg _ _) rfl ?_
    assumption
  clear_value t8
  clear_value w9
  clear_value w10
  clear_value w11
  clear_value w12
  clear_value w13
  refine Chg.upd_power rfl ?_
  assumption


theorem State.guardBand_chg (x0 : State) :
    Chg 0x410865080600908 x0 (State.guardBand x0) := by
  unfold State.guardBand
  extract_lets w1 t2 w3 w4
  clear_value w1
  have ht2 : Chg 0x410865080600908 x0 t2 := by
    unfold t2
    refine Chg.foldl ?_ ?_
    · intro u5 u6 u7
      refine Chg.ite ?_ ?_
      · refine Chg.step (State.guardOn_chg _ _) rfl ?_
        assumption
      · assumption
    · exact Chg.refl _ _
  clear_value t2
  clear_value w3
  clear_value w4
  refine Chg.upd_power rfl ?_
  assumption


theorem State.stopLimits_chg (x0 : State) :
    Chg 0x10064080600908 x0 (State.stopLimits x0) := by
  unfold State.stopLimits
  extract_lets t1
  have ht1 : Chg 0x10064080600908 x0 t1 := by
    unfold t1
    refine Chg.ite ?_ ?_
    · refine Chg.step (State.stopBegin_chg _ _ _) rfl ?_
      exact Chg.refl _ _
    · exact Chg.refl _ _
  clear_value t1
  refine Chg.ite ?_ ?_
  · refine Chg.step (State.stopBegin_chg _ _ _) rfl ?_
    assumption
  · assumption


theorem State.thermalRound_chg (x0 : State) :
    Chg 0x410c6528060490c x0 (State.thermalRound x0) := by
  unfold State.thermalRound
  extract_lets w1 w2 t3 t4 t5 w6 w7
  clear_value w1
  clear_value w2
  have ht3 : Chg 0x410c6528060490c x0 t3 := by
    unfold t3
    refine Chg.step (State.showRises_chg _ _) rfl ?_
    exact Chg.refl _ _
  clear_value t3
  have ht4 : Chg 0x410c6528060490c x0 t4 := by
    unfold t4
    refine Chg.step (State.stopLimits_chg _) rfl ?_
    assumption
  clear_value t4
  have ht5 : Chg 0x410c6528060490c x0 t5 := by
    unfold t5
    refine Chg.ite ?_ ?_
    · assumption
    · refine Chg.step (State.guardBand_chg _) rfl ?_
      refine Chg.step (State.riseLevels_chg _ _) rfl ?_
      assumption
  clear_value t5
  clear_value w6
  clear_value w7
  refine Chg.upd_power rfl ?_
  assumption


theorem State.withdraw_chg (x0 : State) (x1 : Nat) :
    Chg 0x10064000404908 x0 (State.withdraw x0 x1) := by
  unfold State.withdraw
  extract_lets w1 t2 t3 w4
  clear_value w1
  have ht2 : Chg 0x10064000404908 x0 t2 := by
    unfold t2
    refine Chg.step (State.fset_chg _ _ _ _) rfl ?_
    refine Chg.upd_power rfl ?_
    exact Chg.refl _ _
  clear_value t2
  have ht3 : Chg 0x10064000404908 x0 t3 := by
    unfold t3
    refine Chg.ite ?_ ?_
    · refine Chg.foldl ?_ ?_
      · intro u5 u6 u7
        refine Chg.step (State.unsuspend_chg _ _ _) rfl ?_
        assumption
      · assumption
    · refine Chg.ite ?_ ?_
      · refine Chg.upd_rst rfl ?_
        exact Chg.refl _ _
      · exact Chg.refl _ _
  clear_value t3
  clear_value w4
  refine Chg.step (State.frozen_chg _) rfl ?_
  refine Chg.step (State.levelChange_chg _ _) rfl ?_
  assumption


theorem State.hkWindow_chg (x0 : State) (x1 : Nat) :
    Chg 0x1000020200400f08 x0 (State.hkWindow x0 x1) := by
  unfold State.hkWindow
  extract_lets w1 w2 w3 w4 w5 t6 w7 t8 t9
  clear_value w1
  clear_value w2
  clear_value w3
  clear_value w4
  clear_value w5
  have ht6 : Chg 0x1000020200400f08 x0 t6 := by
    unfold t6
    refine Chg.step (State.fset_chg _ _ _ _) rfl ?_
    exact Chg.refl _ _
  clear_value t6
  clear_value w7
  have ht8 : Chg 0x1000020200400f08 x0 t8 := by
    unfold t8
    refine Chg.upd_hk rfl ?_
    assumption
  clear_value t8
  have ht9 : Chg 0x1000020200400f08 x0 t9 := by
    unfold t9
    refine Chg.step (State.fset_chg _ _ _ _) rfl ?_
    assumption
  clear_value t9
  refine Chg.ite ?_ ?_
  · refine Chg.ite ?_ ?_
    · refine Chg.upd_hk rfl ?_
      assumption
    · assumption
  · refine Chg.ite ?_ ?_
    · refine Chg.step (State.logRate_chg _ _ _ _) rfl ?_
      refine Chg.step (State.count_chg _ _ _) rfl ?_
      assumption
    · assumption


theorem State.hkResult_chg (x0 : State) (x1 : Nat) (x2 : List Nat) :
    Chg 0x1000020200400f08 x0 (State.hkResult x0 x1 x2) := by
  unfold State.hkResult
  extract_lets w1 t2 t3 t4
  clear_value w1
  have ht2 : Chg 0x1000020200400f08 x0 t2 := by
    unfold t2
    refine Chg.step (State.fset_chg _ _ _ _) rfl ?_
    exact Chg.refl _ _
  clear_value t2
  have ht3 : Chg 0x1000020200400f08 x0 t3 := by
    unfold t3
    refine Chg.step (State.fset_chg _ _ _ _) rfl ?_
    assumption
  clear_value t3
  have ht4 : Chg 0x1000020200400f08 x0 t4 := by
    unfold t4
    refine Chg.step (State.fset_chg _ _ _ _) rfl ?_
    assumption
  clear_value t4
  refine Chg.step (State.hkWindow_chg _ _) rfl ?_
  refine Chg.step (State.sample_chg _ _ _) rfl ?_
  refine Chg.step (State.sample_chg _ _ _) rfl ?_
  assumption


theorem State.hostRuns_chg (x0 : State) :
    Chg 0xc000e3080400908 x0 (State.hostRuns x0) := by
  unfold State.hostRuns
  extract_lets t1 w2 t3 w4 t5 t6
  have ht1 : Chg 0xc000e3080400908 x0 t1 := by
    unfold t1
    refine Chg.step (State.fset_chg _ _ _ _) rfl ?_
    exact Chg.refl _ _
  clear_value t1
  clear_value w2
  have ht3 : Chg 0xc000e3080400908 x0 t3 := by
    unfold t3
    refine Chg.ite ?_ ?_
    · refine Chg.step (State.log_chg _ _) rfl ?_
      refine Chg.step (State.fset_chg _ _ _ _) rfl ?_
      exact Chg.refl _ _
    · refine Chg.step (State.designate_chg _) rfl ?_
      refine Chg.upd_rel rfl ?_
      assumption
  clear_value t3
  clear_value w4
  have ht5 : Chg 0xc000e3080400908 x0 t5 := by
    unfold t5
    refine Chg.upd_bar rfl ?_
    assumption
  clear_value t5
  have ht6 : Chg 0xc000e3080400908 x0 t6 := by
    unfold t6
    refine Chg.ite ?_ ?_
    · refine Chg.step (State.sendHostState_chg _) rfl ?_
      assumption
    · assumption
  clear_value t6
  refine Chg.ite ?_ ?_
  · exact Chg.refl _ _
  · refine Chg.step (State.settleOff_chg _ _) rfl ?_
    assumption


theorem State.hkRound_chg (x0 : State) :
    Chg 0x1c10ce728060490c x0 (State.hkRound x0) := by
  unfold State.hkRound
  extract_lets w1 t2
  clear_value w1
  have ht2 : Chg 0x1c10ce728060490c x0 t2 := by
    unfold t2
    refine Chg.upd_hk rfl ?_
    exact Chg.refl _ _
  clear_value t2
  refine Chg.ite ?_ ?_
  · exact Chg.refl _ _
  · refine Chg.step (State.hostRuns_chg _) rfl ?_
    refine Chg.step (State.thermalRound_chg _) rfl ?_
    refine Chg.step (State.count_chg _ _ _) rfl ?_
    assumption


theorem State.hkPower_chg (x0 : State) (x1 : Nat) :
    Chg 0x10064200400908 x0 (State.hkPower x0 x1) := by
  unfold State.hkPower
  extract_lets t1 w2 w3 t4 w5 t6
  have ht1 : Chg 0x10064200400908 x0 t1 := by
    unfold t1
    refine Chg.step (State.sample_chg _ _ _) rfl ?_
    refine Chg.step (State.fset_chg _ _ _ _) rfl ?_
    exact Chg.refl _ _
  clear_value t1
  clear_value w2
  clear_value w3
  have ht4 : Chg 0x10064200400908 x0 t4 := by
    unfold t4
    refine Chg.upd_power rfl ?_
    assumption
  clear_value t4
  clear_value w5
  have ht6 : Chg 0x10064200400908 x0 t6 := by
    unfold t6
    refine Chg.upd_power rfl ?_
    assumption
  clear_value t6
  refine Chg.ite ?_ ?_
  · refine Chg.step (State.frozen_chg _) rfl ?_
    refine Chg.step (State.log_chg _ _) rfl ?_
    assumption
  · assumption


theorem State.hkAdvance_chg (x0 : State) (x1 : Bool) (x2 : Nat) :
    Chg 0x1c10ce728060490c x0 (State.hkAdvance x0 x1 x2) := by
  unfold State.hkAdvance
  extract_lets w1 w2 t3 w4 t5 w6
  clear_value w1
  clear_value w2
  have ht3 : Chg 0x1c10ce728060490c x0 t3 := by
    unfold t3
    refine Chg.step (State.fset_chg _ _ _ _) (ite_fm rfl rfl) ?_
    exact Chg.refl _ _
  clear_value t3
  clear_value w4
  have ht5 : Chg 0x1c10ce728060490c x0 t5 := by
    unfold t5
    refine Chg.ite ?_ ?_
    · refine Chg.upd_hk rfl ?_
      assumption
    · refine Chg.upd_hk rfl ?_
      assumption
  clear_value t5
  clear_value w6
  refine Chg.ite ?_ ?_
  · refine Chg.step (State.hkRound_chg _) rfl ?_
    assumption
  · refine Chg.ite ?_ ?_
    · refine Chg.upd_hk rfl ?_
      exact Chg.refl _ _
    · refine Chg.upd_hk rfl ?_
      exact Chg.refl _ _


theorem execHkEntryResult_chg (x0 : Nat) (x1 : List (List Nat)) (x2 : Nat) (x3 : State) :
    ChgR 0x1c10ce7280604f0c x3 (execHkEntryResult x0 x1 x2 x3) := by
  unfold execHkEntryResult
  extract_lets w1 w2 t3 t4 t5
  clear_value w1
  clear_value w2
  have ht3 : Chg 0x1c10ce7280604f0c x3 t3 := by
    unfold t3
    refine Chg.upd_hk rfl ?_
    exact Chg.refl _ _
  clear_value t3
  have ht4 : Chg 0x1c10ce7280604f0c x3 t4 := by
    unfold t4
    refine Chg.step (State.hkPower_chg _ _) rfl ?_
    refine Chg.step (State.rollMeans_chg _) rfl ?_
    assumption
  clear_value t4
  have ht5 : Chg 0x1c10ce7280604f0c x3 t5 := by
    unfold t5
    refine Chg.foldl ?_ ?_
    · intro u6 u7 u8
      refine Chg.step (State.hkResult_chg _ _ _) rfl ?_
      assumption
    · assumption
  clear_value t5
  refine ChgR.ite ?_ ?_
  · refine ChgR.next ?_
    exact Chg.refl _ _
  · refine ChgR.next ?_
    refine Chg.step (State.hkAdvance_chg _ _ _) rfl ?_
    assumption


theorem execHkCommit_chg (x0 : State) :
    ChgR 0x1000000000000008 x0 (execHkCommit x0) := by
  unfold execHkCommit
  extract_lets w1
  clear_value w1
  refine ChgR.ite ?_ ?_
  · refine ChgR.next ?_
    refine Chg.step (State.flag_chg _ _ _) rfl ?_
    exact Chg.refl _ _
  · refine ChgR.next ?_
    refine State.applyAll_chg (all_flat (fun _ => by repeat' (first | exact all_nil | refine all_fm rfl ?_))) ?_
    exact Chg.refl _ _


theorem State.hkMonitor_chg (x0 : State) (x1 : Int) :
    Chg 0x1000020200400f0c x0 (State.hkMonitor x0 x1) := by
  unfold State.hkMonitor
  extract_lets w1 t2 t3 t4 t5
  clear_value w1
  have ht2 : Chg 0x1000020200400f0c x0 t2 := by
    unfold t2
    refine Chg.upd_hk rfl ?_
    exact Chg.refl _ _
  clear_value t2
  have ht3 : Chg 0x1000020200400f0c x0 t3 := by
    unfold t3
    refine Chg.step (State.fset_chg _ _ _ _) rfl ?_
    assumption
  clear_value t3
  have ht4 : Chg 0x1000020200400f0c x0 t4 := by
    unfold t4
    refine Chg.step (State.fset_chg _ _ _ _) rfl ?_
    assumption
  clear_value t4
  have ht5 : Chg 0x1000020200400f0c x0 t5 := by
    unfold t5
    refine Chg.step (State.fset_chg _ _ _ _) rfl ?_
    assumption
  clear_value t5
  refine Chg.step (State.hkWindow_chg _ _) rfl ?_
  refine Chg.step (State.sample_chg _ _ _) rfl ?_
  refine Chg.step (State.rollMeans_chg _) rfl ?_
  assumption


theorem execFieldTempLost_chg (x0 : State) :
    ChgR 0x1000020000400908 x0 (execFieldTempLost x0) := by
  unfold execFieldTempLost
  extract_lets t1
  have ht1 : Chg 0x1000020000400908 x0 t1 := by
    unfold t1
    refine Chg.step (State.flag_chg _ _ _) rfl ?_
    exact Chg.refl _ _
  clear_value t1
  refine ChgR.ite ?_ ?_
  · refine ChgR.next ?_
    exact Chg.refl _ _
  · refine ChgR.next ?_
    refine Chg.step (State.log_chg _ _) rfl ?_
    refine Chg.step (State.fset_chg _ _ _ _) rfl ?_
    assumption


theorem State.aospFlush_chg (x0 : State) :
    Chg 0x280000000 x0 (State.aospFlush x0) := by
  unfold State.aospFlush
  split
  · exact Chg.refl _ _
  · extract_lets w1 t2
    clear_value w1
    have ht2 : Chg 0x280000000 x0 t2 := by
      unfold t2
      refine Chg.upd_hk rfl ?_
      exact Chg.refl _ _
    clear_value t2
    refine Chg.ite ?_ ?_
    · exact Chg.refl _ _
    · refine Chg.step (State.toField_chg _ _) rfl ?_
      assumption


theorem execHkAospSend_chg (x0 : Nat) (x1 : State) :
    ChgR 0x280000000 x1 (execHkAospSend x0 x1) := by
  unfold execHkAospSend
  extract_lets w1 w2 w3 w4
  clear_value w1
  clear_value w2
  clear_value w3
  clear_value w4
  refine ChgR.next ?_
  refine Chg.step (State.aospFlush_chg _) rfl ?_
  refine Chg.upd_hk rfl ?_
  exact Chg.refl _ _


theorem State.hostGone_chg (x0 : State) :
    Chg 0x14000000180000008 x0 (State.hostGone x0) := by
  unfold State.hostGone
  extract_lets w1 w2 t3 t4 t5 t6
  clear_value w1
  clear_value w2
  have ht3 : Chg 0x14000000180000008 x0 t3 := by
    unfold t3
    refine Chg.upd_field rfl ?_
    exact Chg.refl _ _
  clear_value t3
  have ht4 : Chg 0x14000000180000008 x0 t4 := by
    unfold t4
    refine Chg.foldl ?_ ?_
    · intro u7 u8 u9
      refine Chg.step (State.aoPolicy_chg _ _) rfl ?_
      assumption
    · assumption
  clear_value t4
  have ht5 : Chg 0x14000000180000008 x0 t5 := by
    unfold t5
    refine Chg.step (State.fieldEvent_chg _ _ _ _ _) rfl ?_
    assumption
  clear_value t5
  have ht6 : Chg 0x14000000180000008 x0 t6 := by
    unfold t6
    refine Chg.ite ?_ ?_
    · refine Chg.step (State.sendFieldState_chg _) rfl ?_
      assumption
    · assumption
  clear_value t6
  refine Chg.ite ?_ ?_
  · exact Chg.refl _ _
  · refine Chg.step (State.fieldRefresh_chg _) rfl ?_
    assumption


theorem State.hostCome_chg (x0 : State) (x1 : Nat) (x2 : Nat) :
    Chg 0x4000000180000008 x0 (State.hostCome x0 x1 x2) := by
  unfold State.hostCome
  extract_lets w1 w2 w3 w4 w5 t6 t7
  clear_value w1
  clear_value w2
  clear_value w3
  clear_value w4
  clear_value w5
  have ht6 : Chg 0x4000000180000008 x0 t6 := by
    unfold t6
    refine Chg.upd_bar_field rfl rfl ?_
    exact Chg.refl _ _
  clear_value t6
  have ht7 : Chg 0x4000000180000008 x0 t7 := by
    unfold t7
    refine Chg.ite ?_ ?_
    · assumption
    · refine Chg.step (State.sendFieldState_chg _) rfl ?_
      assumption
  clear_value t7
  refine Chg.step (State.fieldRefresh_chg _) rfl ?_
  assumption


theorem execHostLost_chg (x0 : State) :
    ChgR 0x14000000180000008 x0 (execHostLost x0) := by
  unfold execHostLost
  extract_lets w1 w2
  clear_value w1
  clear_value w2
  refine ChgR.ite ?_ ?_
  · refine ChgR.next ?_
    refine Chg.step (State.hostGone_chg _) rfl ?_
    exact Chg.refl _ _
  · refine ChgR.next ?_
    exact Chg.refl _ _


theorem execHostPresent_chg (x0 : State) :
    ChgR 0x4000000180000008 x0 (execHostPresent x0) := by
  unfold execHostPresent
  refine State.onMsg_chg rfl ?_ ?_
  · exact Chg.refl _ _
  · intro u1 u2 u3
    refine Chg.step (State.hostCome_chg _ _ _) rfl ?_
    assumption


theorem State.stateAtField_chg (x0 : State) (x1 : List Nat) :
    Chg 0x14000000180000008 x0 (State.stateAtField x0 x1) := by
  unfold State.stateAtField
  extract_lets t1 w2
  have ht1 : Chg 0x14000000180000008 x0 t1 := by
    unfold t1
    refine Chg.step (State.hostGone_chg _) rfl ?_
    exact Chg.refl _ _
  clear_value t1
  clear_value w2
  refine Chg.ite ?_ ?_
  · refine Chg.step (State.hostCome_chg _ _ _) rfl ?_
    exact Chg.refl _ _
  · refine Chg.upd_field rfl ?_
    assumption


theorem State.closeLost_chg (x0 : State) (x1 : Nat) :
    Chg 0x20020000600908 x0 (State.closeLost x0 x1) := by
  unfold State.closeLost
  extract_lets t1
  have ht1 : Chg 0x20020000600908 x0 t1 := by
    unfold t1
    refine Chg.ite ?_ ?_
    · refine Chg.step (State.countAt_chg _ _ _ _ _) rfl ?_
      exact Chg.refl _ _
    · exact Chg.refl _ _
  clear_value t1
  refine Chg.step (State.closeItem_chg _ _) rfl ?_
  assumption


theorem State.retractEnd_chg (x0 : State) (x1 : Retracting) :
    Chg 0x400021000400908 x0 (State.retractEnd x0 x1) := by
  unfold State.retractEnd
  extract_lets w1 t2 w3 w4 t5 w6 w7
  clear_value w1
  have ht2 : Chg 0x400021000400908 x0 t2 := by
    unfold t2
    refine Chg.upd_rel rfl ?_
    exact Chg.refl _ _
  clear_value t2
  clear_value w4
  have ht5 : Chg 0x400021000400908 x0 t5 := by
    unfold t5
    refine Chg.foldl ?_ ?_
    · intro u8 u9 u10
      refine Chg.step (State.storeFault_chg _ _ _) rfl ?_
      assumption
    · assumption
  clear_value t5
  clear_value w7
  refine Chg.upd_rel rfl ?_
  assumption


theorem State.fieldGone_chg (x0 : State) :
    Chg 0x2430021080600908 x0 (State.fieldGone x0) := by
  unfold State.fieldGone
  extract_lets w1 t2 t3 t4 t5 t6 t7
  clear_value w1
  have ht2 : Chg 0x2430021080600908 x0 t2 := by
    unfold t2
    refine Chg.upd_bar rfl ?_
    exact Chg.refl _ _
  clear_value t2
  have ht3 : Chg 0x2430021080600908 x0 t3 := by
    unfold t3
    refine Chg.step (State.fset_chg _ _ _ _) rfl ?_
    assumption
  clear_value t3
  have ht4 : Chg 0x2430021080600908 x0 t4 := by
    unfold t4
    refine Chg.step (State.flag_chg _ _ _) rfl ?_
    assumption
  clear_value t4
  have ht5 : Chg 0x2430021080600908 x0 t5 := by
    unfold t5
    refine Chg.step (State.log_chg _ _) rfl ?_
    assumption
  clear_value t5
  have ht6 : Chg 0x2430021080600908 x0 t6 := by
    unfold t6
    refine Chg.foldl ?_ ?_
    · intro u8 u9 u10
      refine Chg.step (State.breakLane_chg _ _ _) rfl ?_
      assumption
    · assumption
  clear_value t6
  have ht7 : Chg 0x2430021080600908 x0 t7 := by
    unfold t7
    refine Chg.foldl ?_ ?_
    · intro u11 u12 u13
      refine Chg.step (State.closeLost_chg _ _) rfl ?_
      assumption
    · assumption
  clear_value t7
  refine Chg.ite ?_ ?_
  · exact Chg.refl _ _
  · refine Chg.foldl ?_ ?_
    · intro u14 u15 u16
      refine Chg.step (State.retractEnd_chg _ _) rfl ?_
      assumption
    · assumption


theorem execFieldLost_chg (x0 : State) :
    ChgR 0x2430021080600908 x0 (execFieldLost x0) := by
  unfold execFieldLost
  extract_lets w1 w2
  clear_value w1
  clear_value w2
  refine ChgR.ite ?_ ?_
  · refine ChgR.next ?_
    refine Chg.step (State.fieldGone_chg _) rfl ?_
    exact Chg.refl _ _
  · refine ChgR.next ?_
    exact Chg.refl _ _


theorem State.fieldWasReset_chg (x0 : State) (x1 : Nat) :
    Chg 0x830022080600908 x0 (State.fieldWasReset x0 x1) := by
  unfold State.fieldWasReset
  extract_lets t1 w2 t3 w4 t5
  have ht1 : Chg 0x830022080600908 x0 t1 := by
    unfold t1
    refine Chg.foldl ?_ ?_
    · intro u6 u7 u8
      refine Chg.step (State.suspend_chg _ _ _ _) rfl ?_
      assumption
    · exact Chg.refl _ _
  clear_value t1
  have ht3 : Chg 0x830022080600908 x0 t3 := by
    unfold t3
    refine Chg.foldl ?_ ?_
    · intro u9 u10 u11
      refine Chg.step (State.closeLost_chg _ _) rfl ?_
      assumption
    · assumption
  clear_value t3
  clear_value w4
  have ht5 : Chg 0x830022080600908 x0 t5 := by
    unfold t5
    refine Chg.upd_bar rfl ?_
    assumption
  clear_value t5
  split
  · refine Chg.ite ?_ ?_
    · refine Chg.step (State.fwRolledBack_chg _ _) rfl ?_
      assumption
    · assumption
  · assumption


theorem State.stateAtHost_chg (x0 : State) (x1 : List Nat) :
    Chg 0x2c30023080600908 x0 (State.stateAtHost x0 x1) := by
  unfold State.stateAtHost
  extract_lets w1 w2 w3 w4 t5 t6 t7 t8 w9 w10 w11 t12
  clear_value w1
  clear_value w2
  clear_value w3
  clear_value w4
  have ht5 : Chg 0x2c30023080600908 x0 t5 := by
    unfold t5
    refine Chg.upd_bar rfl ?_
    exact Chg.refl _ _
  clear_value t5
  have ht6 : Chg 0x2c30023080600908 x0 t6 := by
    unfold t6
    refine Chg.step (State.fset_chg _ _ _ _) rfl ?_
    assumption
  clear_value t6
  have ht7 : Chg 0x2c30023080600908 x0 t7 := by
    unfold t7
    refine Chg.ite ?_ ?_
    · refine Chg.step (State.fieldWasReset_chg _ _) rfl ?_
      assumption
    · assumption
  clear_value t7
  have ht8 : Chg 0x2c30023080600908 x0 t8 := by
    unfold t8
    refine Chg.step (State.settleOff_chg _ _) rfl ?_
    assumption
  clear_value t8
  clear_value w9
  clear_value w10
  clear_value w11
  have ht12 : Chg 0x2c30023080600908 x0 t12 := by
    unfold t12
    refine Chg.upd_bar rfl ?_
    assumption
  clear_value t12
  refine Chg.ite ?_ ?_
  · refine Chg.step (State.settleOn_chg _ _) rfl ?_
    refine Chg.step (State.fieldGone_chg _) rfl ?_
    assumption
  · refine Chg.step (State.flag_chg _ _ _) rfl ?_
    assumption


theorem execStateMsg_chg (x0 : Bool) (x1 : State) :
    ChgR 0x16c30023180600908 x1 (execStateMsg x0 x1) := by
  unfold execStateMsg
  refine State.onMsg_chg rfl ?_ ?_
  · exact Chg.refl _ _
  · intro u1 u2 u3
    refine Chg.ite ?_ ?_
    · refine Chg.step (State.stateAtField_chg _ _) rfl ?_
      assumption
    · refine Chg.step (State.stateAtHost_chg _ _) rfl ?_
      assumption


theorem State.sendPositions_chg (x0 : State) :
    Chg 0x4000000080000008 x0 (State.sendPositions x0) := by
  unfold State.sendPositions
  extract_lets w1 w2
  clear_value w1
  refine Chg.ite ?_ ?_
  · exact Chg.refl _ _
  · refine Chg.step (State.toHost_chg _ _) rfl ?_
    refine Chg.step (State.toHost_chg _ _) rfl ?_
    exact Chg.refl _ _


theorem execHeartbeatTimer_chg (x0 : Bool) (x1 : List Nat) (x2 : State) :
    ChgR 0x4000000180000008 x2 (execHeartbeatTimer x0 x1 x2) := by
  unfold execHeartbeatTimer
  extract_lets w1 w2 t3 w4
  clear_value w1
  clear_value w2
  have ht3 : Chg 0x4000000180000008 x2 t3 := by
    unfold t3
    refine Chg.step (State.setSide_chg _ _ _) rfl ?_
    exact Chg.refl _ _
  clear_value t3
  clear_value w4
  refine ChgR.ite ?_ ?_
  · refine ChgR.next ?_
    exact Chg.refl _ _
  · refine ChgR.ite ?_ ?_
    · refine ChgR.next ?_
      refine Chg.step (State.sendPositions_chg _) rfl ?_
      refine Chg.step (State.toHost_chg _ _) rfl ?_
      refine Chg.step (State.encAll_chg _ _) rfl ?_
      assumption
    · refine ChgR.next ?_
      refine Chg.step (State.toField_chg _ _) rfl ?_
      assumption


theorem execPositionsMsg_chg (x0 : State) :
    ChgR 0x20020080600908 x0 (execPositionsMsg x0) := by
  unfold execPositionsMsg
  refine State.onMsg_chg rfl ?_ ?_
  · exact Chg.refl _ _
  · intro u1 u2 u3
    extract_lets w4
    clear_value w4
    refine Chg.step (State.positionAt_chg _ _ _) rfl ?_
    refine Chg.step (State.positionAt_chg _ _ _) rfl ?_
    assumption


theorem execItemCreated_chg (x0 : State) :
    ChgR 0x20020080600f08 x0 (execItemCreated x0) := by
  unfold execItemCreated
  refine State.onMsg_chg rfl ?_ ?_
  · exact Chg.refl _ _
  · intro u1 u2 u3
    refine Chg.step (State.itemCreated_chg _ _ _ _ _ _) rfl ?_
    assumption


theorem State.verdictAt_chg (x0 : State) (x1 : Nat) (x2 : Nat) (x3 : Nat) :
    Chg 0x4000000180000008 x0 (State.verdictAt x0 x1 x2 x3) := by
  unfold State.verdictAt
  split
  · refine Chg.step (State.count_chg _ _ _) rfl ?_
    exact Chg.refl _ _
  · extract_lets w1 w2
    clear_value w1
    clear_value w2
    refine Chg.ite ?_ ?_
    · refine Chg.step (State.fieldEventRate_chg _ _ _ _ _ _) rfl ?_
      refine Chg.step (State.count_chg _ _ _) rfl ?_
      exact Chg.refl _ _
    · refine Chg.ite ?_ ?_
      · exact Chg.refl _ _
      · refine Chg.step (State.fieldRefresh_chg _) rfl ?_
        refine Chg.step (State.takeEffect_chg _ _ _ _) rfl ?_
        exact Chg.refl _ _


theorem execVerdictMsg_chg (x0 : State) :
    ChgR 0x4000000180000008 x0 (execVerdictMsg x0) := by
  unfold execVerdictMsg
  refine State.onMsg_chg rfl ?_ ?_
  · exact Chg.refl _ _
  · intro u1 u2 u3
    refine Chg.step (State.verdictAt_chg _ _ _ _) rfl ?_
    assumption


theorem State.retractRec_chg (x0 : State) (x1 : FieldRec) :
    Chg 0x4000000180000008 x0 (State.retractRec x0 x1).1 := by
  unfold State.retractRec
  extract_lets w1 w2 t3 t4 w5 t6
  clear_value w1
  clear_value w2
  have ht3 : Chg 0x4000000180000008 x0 t3 := by
    unfold t3
    refine Chg.step (State.actuateAll_chg _ _ _ _) rfl ?_
    exact Chg.refl _ _
  clear_value t3
  have ht4 : Chg 0x4000000180000008 x0 t4 := by
    unfold t4
    refine Chg.step (State.setRec_chg _ _ _ _) rfl ?_
    assumption
  clear_value t4
  clear_value w5
  have ht6 : Chg 0x4000000180000008 x0 t6 := by
    unfold t6
    refine Chg.ite ?_ ?_
    · refine Chg.step (State.vtPut_chg _ _ _ _ _ _ _) rfl ?_
      assumption
    · assumption
  clear_value t6
  refine Chg.fst_mk ?_
  assumption


theorem State.retractAt_chg (x0 : State) (x1 : Nat) (x2 : Nat) (x3 : Nat) :
    Chg 0x4000000180000008 x0 (State.retractAt x0 x1 x2 x3) := by
  unfold State.retractAt
  extract_lets w1 w2
  clear_value w1
  clear_value w2
  refine Chg.ite ?_ ?_
  · refine Chg.step (State.toHost_chg _ _) rfl ?_
    exact Chg.refl _ _
  · refine Chg.step (State.fieldRefresh_chg _) rfl ?_
    refine Chg.foldl ?_ ?_
    · intro u3 u4 u5
      split
      refine Chg.step (State.toHost_chg _ _) rfl ?_
      refine Chg.of_fst (by assumption) ?_
      refine Chg.step (State.retractRec_chg _ _) rfl ?_
      assumption
    · exact Chg.refl _ _


theorem execRetraction_chg (x0 : State) :
    ChgR 0x4000000180000008 x0 (execRetraction x0) := by
  unfold execRetraction
  refine State.onMsg_chg rfl ?_ ?_
  · exact Chg.refl _ _
  · intro u1 u2 u3
    refine Chg.step (State.retractAt_chg _ _ _ _) rfl ?_
    assumption


theorem State.resultAt_chg (x0 : State) (x1 : List Nat) :
    Chg 0x400021000400908 x0 (State.resultAt x0 x1) := by
  unfold State.resultAt
  split
  · exact Chg.refl _ _
  · extract_lets w1 w2 w3 w4 w5 t6
    clear_value w1
    clear_value w2
    clear_value w3
    clear_value w4
    clear_value w5
    have ht6 : Chg 0x400021000400908 x0 t6 := by
      unfold t6
      refine Chg.upd_rel rfl ?_
      exact Chg.refl _ _
    clear_value t6
    refine Chg.ite ?_ ?_
    · refine Chg.step (State.retractEnd_chg _ _) rfl ?_
      assumption
    · assumption


theorem execRetractionResult_chg (x0 : State) :
    ChgR 0x400021080400908 x0 (execRetractionResult x0) := by
  unfold execRetractionResult
  refine State.onMsg_chg rfl ?_ ?_
  · exact Chg.refl _ _
  · intro u1 u2 u3
    refine Chg.step (State.resultAt_chg _ _) rfl ?_
    assumption


theorem State.gpoSet_chg (x0 : State) (x1 : Nat) (x2 : Nat) :
    Chg 0x4000000100000008 x0 (State.gpoSet x0 x1 x2) := by
  unfold State.gpoSet
  extract_lets w1 w2
  clear_value w1
  clear_value w2
  refine Chg.ite ?_ ?_
  · exact Chg.refl _ _
  · refine Chg.step (State.fieldRefresh_chg _) rfl ?_
    refine Chg.upd_field rfl ?_
    exact Chg.refl _ _


theorem execSetpointGpo_chg (x0 : State) :
    ChgR 0x4000000180000008 x0 (execSetpointGpo x0) := by
  unfold execSetpointGpo
  refine State.onMsg_chg rfl ?_ ?_
  · exact Chg.refl _ _
  · intro u1 u2 u3
    refine Chg.step (State.gpoSet_chg _ _ _) rfl ?_
    assumption


theorem execSetpointAnalogue_chg (x0 : State) :
    ChgR 0x10000000180000008 x0 (execSetpointAnalogue x0) := by
  unfold execSetpointAnalogue
  refine State.onMsg_chg rfl ?_ ?_
  · exact Chg.refl _ _
  · intro u1 u2 u3
    refine Chg.foldl ?_ ?_
    · intro u4 u5 u6
      refine Chg.ite ?_ ?_
      · refine Chg.step (State.aoSet_chg _ _ _) rfl ?_
        assumption
      · assumption
    · assumption


theorem execAdcReport_chg (x0 : State) :
    ChgR 0x1000020280400f0c x0 (execAdcReport x0) := by
  unfold execAdcReport
  refine State.onMsg_chg rfl ?_ ?_
  · exact Chg.refl _ _
  · intro u1 u2 u3
    extract_lets w4
    clear_value w4
    refine Chg.ite ?_ ?_
    · refine Chg.step (State.fset_chg _ _ _ _) rfl ?_
      assumption
    · refine Chg.step (State.hkMonitor_chg _ _) rfl ?_
      assumption


theorem execFieldEventMsg_chg (x0 : State) :
    ChgR 0x20080400908 x0 (execFieldEventMsg x0) := by
  unfold execFieldEventMsg
  refine State.onMsg_chg rfl ?_ ?_
  · exact Chg.refl _ _
  · intro u1 u2 u3
    refine Chg.step (State.log_chg _ _) rfl ?_
    assumption


theorem State.fieldFlash_chg (x0 : State) (x1 : List Nat) :
    Chg 0x100000000 x0 (State.fieldFlash x0 x1) := by
  unfold State.fieldFlash
  extract_lets w1
  clear_value w1
  refine Chg.upd_field rfl ?_
  exact Chg.refl _ _


theorem State.fieldFwKeep_chg (x0 : State) :
    Chg 0x100000000 x0 (State.fieldFwKeep x0) := by
  unfold State.fieldFwKeep
  extract_lets w1 w2 w3
  clear_value w1
  clear_value w2
  clear_value w3
  refine Chg.ite ?_ ?_
  · exact Chg.refl _ _
  · refine Chg.upd_field rfl ?_
    exact Chg.refl _ _


theorem State.fwPut_chg (x0 : State) (x1 : Nat) (x2 : Nat) (x3 : List Nat) :
    Chg 0x400000 x0 (State.fwPut x0 x1 x2 x3) := by
  unfold State.fwPut
  extract_lets w1 w2 w3
  clear_value w1
  clear_value w2
  clear_value w3
  refine Chg.upd_mgmt rfl ?_
  exact Chg.refl _ _


theorem State.fwErase_chg (x0 : State) (x1 : Nat) :
    Chg 0x400000 x0 (State.fwErase x0 x1) := by
  unfold State.fwErase
  extract_lets w1 w2
  clear_value w1
  clear_value w2
  refine Chg.upd_mgmt rfl ?_
  exact Chg.refl _ _


theorem execFirmwareData_chg (x0 : State) :
    ChgR 0x180000000 x0 (execFirmwareData x0) := by
  unfold execFirmwareData
  refine State.onMsg_chg rfl ?_ ?_
  · exact Chg.refl _ _
  · intro u1 u2 u3
    extract_lets w4
    clear_value w4
    refine Chg.ite ?_ ?_
    · refine Chg.step (State.fieldFlash_chg _ _) rfl ?_
      assumption
    · assumption


theorem State.fwResult_chg (x0 : State) (x1 : Nat) (x2 : Nat) :
    Chg 0x4000000080000008 x0 (State.fwResult x0 x1 x2) := by
  unfold State.fwResult
  refine Chg.step (State.toHost_chg _ _) rfl ?_
  exact Chg.refl _ _


theorem State.fwRestart_chg (x0 : State) (x1 : FieldFw) (x2 : Nat) :
    Chg 0x100000000 x0 (State.fwRestart x0 x1 x2) := by
  unfold State.fwRestart
  extract_lets w1
  clear_value w1
  refine Chg.upd_field rfl ?_
  exact Chg.refl _ _


theorem State.fwCommandAt_chg (x0 : State) (x1 : Nat) :
    Chg 0x4000000180000008 x0 (State.fwCommandAt x0 x1) := by
  unfold State.fwCommandAt
  refine Chg.ite ?_ ?_
  · refine Chg.step (State.fwResult_chg _ _ _) rfl ?_
    exact Chg.refl _ _
  · split
    · refine Chg.step (State.fwResult_chg _ _ _) rfl ?_
      refine Chg.step (State.fieldFlash_chg _ _) rfl ?_
      exact Chg.refl _ _
    · refine Chg.step (State.fwResult_chg _ _ _) rfl ?_
      exact Chg.refl _ _
    · refine Chg.ite ?_ ?_
      · refine Chg.step (State.fwRestart_chg _ _ _) rfl ?_
        exact Chg.refl _ _
      · refine Chg.step (State.fwResult_chg _ _ _) rfl ?_
        exact Chg.refl _ _
    · refine Chg.step (State.fwResult_chg _ _ _) rfl ?_
      refine Chg.step (State.fieldFwKeep_chg _) rfl ?_
      exact Chg.refl _ _
    · refine Chg.step (State.fwRestart_chg _ _ _) rfl ?_
      exact Chg.refl _ _
    · exact Chg.refl _ _


theorem execFirmwareCommand_chg (x0 : State) :
    ChgR 0x4000000180000008 x0 (execFirmwareCommand x0) := by
  unfold execFirmwareCommand
  refine State.onMsg_chg rfl ?_ ?_
  · exact Chg.refl _ _
  · intro u1 u2 u3
    refine Chg.step (State.fwCommandAt_chg _ _) rfl ?_
    assumption


theorem State.fwTell_chg (x0 : State) (x1 : Nat) :
    Chg 0x80000000 x0 (State.fwTell x0 x1) := by
  unfold State.fwTell
  refine Chg.step (State.toField_chg _ _) rfl ?_
  exact Chg.refl _ _


theorem State.fwResultAt_chg (x0 : State) (x1 : Nat) (x2 : Nat) :
    Chg 0x800022080400908 x0 (State.fwResultAt x0 x1 x2) := by
  unfold State.fwResultAt
  split
  · split
    · exact Chg.refl _ _
    · extract_lets w1 t2 t3 t4
      clear_value w1
      have ht2 : Chg 0x800022080400908 x0 t2 := by
        unfold t2
        refine Chg.upd_mgmt rfl ?_
        exact Chg.refl _ _
      clear_value t2
      have ht3 : Chg 0x800022080400908 x0 t3 := by
        unfold t3
        refine Chg.step (State.fset_chg _ _ _ _) (by unfold slotValid; split <;> rfl) ?_
        assumption
      clear_value t3
      have ht4 : Chg 0x800022080400908 x0 t4 := by
        unfold t4
        refine Chg.step (State.fset_chg _ _ _ _) rfl ?_
        assumption
      clear_value t4
      refine Chg.ite ?_ ?_
      · refine Chg.step (State.answer_chg _ _ _ _ _ _) rfl ?_
        refine Chg.step (State.log_chg _ _) rfl ?_
        assumption
      · refine Chg.step (State.answer_chg _ _ _ _ _ _) rfl ?_
        assumption
  · split
    · refine Chg.ite ?_ ?_
      · exact Chg.refl _ _
      · refine Chg.ite ?_ ?_
        · refine Chg.ite ?_ ?_
          · refine Chg.step (State.fwReady_chg _ _) rfl ?_
            exact Chg.refl _ _
          · refine Chg.step (State.fwTell_chg _ _) rfl ?_
            refine Chg.step (State.fwReady_chg _ _) rfl ?_
            exact Chg.refl _ _
        · refine Chg.step (State.fwRolledBack_chg _ _) rfl ?_
          exact Chg.refl _ _
    · exact Chg.refl _ _
  · split
    · refine Chg.ite ?_ ?_
      · refine Chg.step (State.fwRolledBack_chg _ _) rfl ?_
        exact Chg.refl _ _
      · exact Chg.refl _ _
    · exact Chg.refl _ _
  · exact Chg.refl _ _


theorem execFirmwareResult_chg (x0 : State) :
    ChgR 0x800022080400908 x0 (execFirmwareResult x0) := by
  unfold execFirmwareResult
  refine State.onMsg_chg rfl ?_ ?_
  · exact Chg.refl _ _
  · intro u1 u2 u3
    refine Chg.step (State.fwResultAt_chg _ _ _) rfl ?_
    assumption


theorem State.fieldFwReady_chg (x0 : State) :
    Chg 0x1c000000180000018 x0 (State.fieldFwReady x0) := by
  unfold State.fieldFwReady
  extract_lets w1 w2 t3 t4
  clear_value w1
  clear_value w2
  have ht3 : Chg 0x1c000000180000018 x0 t3 := by
    unfold t3
    refine Chg.step (State.fwRestart_chg _ _ _) rfl ?_
    exact Chg.refl _ _
  clear_value t3
  have ht4 : Chg 0x1c000000180000018 x0 t4 := by
    unfold t4
    refine Chg.step (State.fwResult_chg _ _ _) rfl ?_
    assumption
  clear_value t4
  refine Chg.step (State.fieldRefresh_chg _) rfl ?_
  refine Chg.step (State.runCommits_chg _) rfl ?_
  refine Chg.step (State.takeFifo_chg _) rfl ?_
  assumption


theorem State.fieldFwLate_chg (x0 : State) :
    Chg 0x1e800022180400f18 x0 (State.fieldFwLate x0) := by
  unfold State.fieldFwLate
  refine Chg.ite ?_ ?_
  · refine Chg.step (State.fwRestart_chg _ _ _) rfl ?_
    exact Chg.refl _ _
  · refine Chg.step (State.fieldReset_chg _) rfl ?_
    exact Chg.refl _ _


theorem execFieldBrownout_chg (x0 : State) :
    ChgR 0x1e800022180400f18 x0 (execFieldBrownout x0) := by
  unfold execFieldBrownout
  extract_lets w1
  clear_value w1
  refine ChgR.ite ?_ ?_
  · refine ChgR.next ?_
    exact Chg.refl _ _
  · refine ChgR.next ?_
    refine Chg.step (State.fieldReset_chg _) rfl ?_
    refine Chg.upd_field rfl ?_
    exact Chg.refl _ _


theorem execFieldBrownoutEnd_chg (x0 : State) :
    ChgR 0x2000000100000008 x0 (execFieldBrownoutEnd x0) := by
  unfold execFieldBrownoutEnd
  extract_lets w1
  clear_value w1
  refine ChgR.next ?_
  refine Chg.step (State.linkTrain_chg _) rfl ?_
  refine Chg.upd_field rfl ?_
  exact Chg.refl _ _


theorem execFrstNAssert_chg (x0 : State) :
    ChgR 0x1e800022180400f18 x0 (execFrstNAssert x0) := by
  unfold execFrstNAssert
  extract_lets w1
  clear_value w1
  refine ChgR.ite ?_ ?_
  · refine ChgR.next ?_
    exact Chg.refl _ _
  · refine ChgR.next ?_
    refine Chg.step (State.fieldReset_chg _) rfl ?_
    refine Chg.upd_field rfl ?_
    exact Chg.refl _ _


theorem execFrstNRelease_chg (x0 : State) :
    ChgR 0x2000000100000008 x0 (execFrstNRelease x0) := by
  unfold execFrstNRelease
  extract_lets w1
  clear_value w1
  refine ChgR.next ?_
  refine Chg.step (State.linkTrain_chg _) rfl ?_
  refine Chg.upd_field rfl ?_
  exact Chg.refl _ _


theorem execFieldReady_chg (x0 : List Nat) (x1 : Nat) (x2 : State) :
    ChgR 0x1c000000180000008 x2 (execFieldReady x0 x1 x2) := by
  unfold execFieldReady
  extract_lets t1 w2 t3 w4 w5 w6 t7 t8 t9 t10 t11 t12 t13
  have ht1 : Chg 0x1c000000180000008 x2 t1 := by
    unfold t1
    refine Chg.step (State.loadNv_chg _) rfl ?_
    exact Chg.refl _ _
  clear_value t1
  clear_value w2
  have ht3 : Chg 0x1c000000180000008 x2 t3 := by
    unfold t3
    refine Chg.step (State.fset_chg _ _ _ _) rfl ?_
    assumption
  clear_value t3
  clear_value w4
  clear_value w5
  clear_value w6
  have ht7 : Chg 0x1c000000180000008 x2 t7 := by
    unfold t7
    refine Chg.upd_field rfl ?_
    assumption
  clear_value t7
  have ht8 : Chg 0x1c000000180000008 x2 t8 := by
    unfold t8
    refine Chg.step (State.fset_chg _ _ _ _) rfl ?_
    assumption
  clear_value t8
  have ht9 : Chg 0x1c000000180000008 x2 t9 := by
    unfold t9
    refine Chg.step (State.fset_chg _ _ _ _) rfl ?_
    assumption
  clear_value t9
  have ht10 : Chg 0x1c000000180000008 x2 t10 := by
    unfold t10
    refine Chg.step (State.encAll_chg _ _) rfl ?_
    assumption
  clear_value t10
  have ht11 : Chg 0x1c000000180000008 x2 t11 := by
    unfold t11
    refine Chg.foldl ?_ ?_
    · intro u14 u15 u16
      refine Chg.step (State.aoPolicy_chg _ _) rfl ?_
      refine Chg.step (State.setAo_chg _ _ _) rfl ?_
      assumption
    · assumption
  clear_value t11
  have ht12 : Chg 0x1c000000180000008 x2 t12 := by
    unfold t12
    refine Chg.ite ?_ ?_
    · refine Chg.step (State.fieldEvent_chg _ _ _ _ _) rfl ?_
      assumption
    · assumption
  clear_value t12
  have ht13 : Chg 0x1c000000180000008 x2 t13 := by
    unfold t13
    refine Chg.ite ?_ ?_
    · refine Chg.step (State.sendFieldState_chg _) rfl ?_
      assumption
    · assumption
  clear_value t13
  refine ChgR.ite ?_ ?_
  · refine ChgR.next ?_
    exact Chg.refl _ _
  · refine ChgR.next ?_
    refine Chg.step (State.fieldRefresh_chg _) rfl ?_
    assumption


theorem execFieldWatchdog_chg (x0 : State) :
    ChgR 0x1e800022180400f18 x0 (execFieldWatchdog x0) := by
  unfold execFieldWatchdog
  refine ChgR.ite ?_ ?_
  · refine ChgR.next ?_
    exact Chg.refl _ _
  · refine ChgR.next ?_
    refine Chg.step (State.fieldReset_chg _) rfl ?_
    exact Chg.refl _ _


theorem execTriggerEdge_chg (x0 : Nat) (x1 : Bool) (x2 : List Nat) (x3 : State) :
    ChgR 0x4000000180000008 x3 (execTriggerEdge x0 x1 x2 x3) := by
  unfold execTriggerEdge
  extract_lets w1 t2 t3 w4
  clear_value w1
  have ht2 : Chg 0x4000000180000008 x3 t2 := by
    unfold t2
    refine Chg.step (State.fset_chg _ _ _ _) rfl ?_
    exact Chg.refl _ _
  clear_value t2
  have ht3 : Chg 0x4000000180000008 x3 t3 := by
    unfold t3
    refine Chg.step (State.encAll_chg _ _) rfl ?_
    assumption
  clear_value t3
  clear_value w4
  refine ChgR.ite ?_ ?_
  · refine ChgR.next ?_
    exact Chg.refl _ _
  · refine ChgR.next ?_
    refine Chg.step (State.fieldRefresh_chg _) rfl ?_
    refine Chg.foldl ?_ ?_
    · intro u5 u6 u7
      refine Chg.step (State.laneTrigger_chg _ _ _ _) rfl ?_
      assumption
    · assumption


theorem execEncoderFault_chg (x0 : Nat) (x1 : Bool) (x2 : State) :
    ChgR 0x4000000180000008 x2 (execEncoderFault x0 x1 x2) := by
  unfold execEncoderFault
  extract_lets w1 t2 t3 t4 t5 t6
  clear_value w1
  have ht2 : Chg 0x4000000180000008 x2 t2 := by
    unfold t2
    refine Chg.step (State.count_chg _ _ _) rfl ?_
    exact Chg.refl _ _
  clear_value t2
  have ht3 : Chg 0x4000000180000008 x2 t3 := by
    unfold t3
    refine Chg.step (State.flag_chg _ _ _) rfl ?_
    assumption
  clear_value t3
  have ht4 : Chg 0x4000000180000008 x2 t4 := by
    unfold t4
    refine Chg.step (State.flag_chg _ _ _) rfl ?_
    assumption
  clear_value t4
  have ht5 : Chg 0x4000000180000008 x2 t5 := by
    unfold t5
    refine Chg.step (State.fset_chg _ _ _ _) rfl ?_
    assumption
  clear_value t5
  have ht6 : Chg 0x4000000180000008 x2 t6 := by
    unfold t6
    refine Chg.step (State.flag_chg _ _ _) rfl ?_
    assumption
  clear_value t6
  refine ChgR.ite ?_ ?_
  · refine ChgR.next ?_
    exact Chg.refl _ _
  · refine ChgR.ite ?_ ?_
    · refine ChgR.next ?_
      assumption
    · refine ChgR.next ?_
      refine Chg.step (State.fieldRefresh_chg _) rfl ?_
      refine Chg.step (State.sendPositions_chg _) rfl ?_
      refine Chg.step (State.fieldEvent_chg _ _ _ _ _) rfl ?_
      assumption


theorem State.rejMove_chg (x0 : State) (x1 : Nat) (x2 : Nat) (x3 : Nat) :
    Chg 0x100000000 x0 (State.rejMove x0 x1 x2 x3) := by
  unfold State.rejMove
  extract_lets w1 w2 w3
  clear_value w1
  refine Chg.step (State.setRej_chg _ _ _) rfl ?_
  exact Chg.refl _ _


theorem execEncoderFaultClear_chg (x0 : Nat) (x1 : Nat) (x2 : State) :
    ChgR 0x4000000180000008 x2 (execEncoderFaultClear x0 x1 x2) := by
  unfold execEncoderFaultClear
  extract_lets w1 t2 t3 t4 t5 w6 t7
  clear_value w1
  have ht2 : Chg 0x4000000180000008 x2 t2 := by
    unfold t2
    refine Chg.step (State.fset_chg _ _ _ _) rfl ?_
    exact Chg.refl _ _
  clear_value t2
  have ht3 : Chg 0x4000000180000008 x2 t3 := by
    unfold t3
    refine Chg.step (State.fset_chg _ _ _ _) rfl ?_
    assumption
  clear_value t3
  have ht4 : Chg 0x4000000180000008 x2 t4 := by
    unfold t4
    refine Chg.step (State.encMove_chg _ _ _) rfl ?_
    assumption
  clear_value t4
  have ht5 : Chg 0x4000000180000008 x2 t5 := by
    unfold t5
    refine Chg.foldl ?_ ?_
    · intro u8 u9 u10
      refine Chg.step (State.rejMove_chg _ _ _ _) rfl ?_
      assumption
    · assumption
  clear_value t5
  clear_value w6
  have ht7 : Chg 0x4000000180000008 x2 t7 := by
    unfold t7
    refine Chg.foldl ?_ ?_
    · intro u11 u12 u13
      refine Chg.step (State.cutoffPass_chg _ _) rfl ?_
      assumption
    · assumption
  clear_value t7
  refine ChgR.ite ?_ ?_
  · refine ChgR.next ?_
    exact Chg.refl _ _
  · refine ChgR.next ?_
    refine Chg.step (State.fieldRefresh_chg _) rfl ?_
    refine Chg.step (State.sendPositions_chg _) rfl ?_
    refine Chg.step (State.fieldEvent_chg _ _ _ _ _) rfl ?_
    assumption


theorem execCutoffReached_chg (x0 : Nat) (x1 : Nat) (x2 : Nat) (x3 : State) :
    ChgR 0x4000000180000008 x3 (execCutoffReached x0 x1 x2 x3) := by
  unfold execCutoffReached
  split
  · refine ChgR.next ?_
    exact Chg.refl _ _
  · extract_lets w1
    clear_value w1
    refine ChgR.ite ?_ ?_
    · refine ChgR.next ?_
      exact Chg.refl _ _
    · refine ChgR.next ?_
      refine Chg.step (State.fieldRefresh_chg _) rfl ?_
      refine Chg.step (State.cutoffPass_chg _ _) rfl ?_
      refine Chg.step (State.encMove_chg _ _ _) rfl ?_
      exact Chg.refl _ _


theorem execRejectOn_chg (x0 : Nat) (x1 : Nat) (x2 : Nat) (x3 : State) :
    ChgR 0x4000000100000008 x3 (execRejectOn x0 x1 x2 x3) := by
  unfold execRejectOn
  extract_lets w1 t2 w3 w4
  clear_value w1
  have ht2 : Chg 0x4000000100000008 x3 t2 := by
    unfold t2
    refine Chg.step (State.encMove_chg _ _ _) rfl ?_
    exact Chg.refl _ _
  clear_value t2
  clear_value w3
  refine ChgR.ite ?_ ?_
  · refine ChgR.next ?_
    exact Chg.refl _ _
  · refine ChgR.next ?_
    refine Chg.step (State.fieldRefresh_chg _) rfl ?_
    refine Chg.step (State.setRej_chg _ _ _) rfl ?_
    assumption


theorem execRejectOff_chg (x0 : Nat) (x1 : Nat) (x2 : Nat) (x3 : State) :
    ChgR 0x4000000100000008 x3 (execRejectOff x0 x1 x2 x3) := by
  unfold execRejectOff
  extract_lets w1
  clear_value w1
  refine ChgR.ite ?_ ?_
  · refine ChgR.next ?_
    exact Chg.refl _ _
  · refine ChgR.next ?_
    refine Chg.step (State.fieldRefresh_chg _) rfl ?_
    refine Chg.step (State.rejMove_chg _ _ _ _) rfl ?_
    refine Chg.step (State.encMove_chg _ _ _) rfl ?_
    exact Chg.refl _ _


theorem execMaxOnExpiry_chg (x0 : Nat) (x1 : State) :
    ChgR 0x4000000100000008 x1 (execMaxOnExpiry x0 x1) := by
  unfold execMaxOnExpiry
  extract_lets w1 w2
  clear_value w1
  clear_value w2
  refine ChgR.ite ?_ ?_
  · refine ChgR.next ?_
    exact Chg.refl _ _
  · refine ChgR.next ?_
    refine Chg.step (State.fieldRefresh_chg _) rfl ?_
    refine Chg.step (State.setRej_chg _ _ _) rfl ?_
    exact Chg.refl _ _


theorem execRecordFree_chg (x0 : Nat) (x1 : Nat) (x2 : Nat) (x3 : State) :
    ChgR 0x4000000100000008 x3 (execRecordFree x0 x1 x2 x3) := by
  unfold execRecordFree
  split
  · refine ChgR.next ?_
    exact Chg.refl _ _
  · extract_lets w1
    clear_value w1
    refine ChgR.ite ?_ ?_
    · refine ChgR.next ?_
      exact Chg.refl _ _
    · refine ChgR.next ?_
      refine Chg.step (State.fieldRefresh_chg _) rfl ?_
      refine Chg.step (State.dropRec_chg _ _ _) rfl ?_
      refine Chg.step (State.encMove_chg _ _ _) rfl ?_
      exact Chg.refl _ _


theorem State.vtAck_chg (x0 : State) (x1 : Nat) (x2 : Nat) :
    Chg 0x4000000100000008 x0 (State.vtAck x0 x1 x2) := by
  unfold State.vtAck
  extract_lets w1 w2
  clear_value w1
  clear_value w2
  refine Chg.ite ?_ ?_
  · refine Chg.step (State.vtSet_chg _ _ _) rfl ?_
    exact Chg.refl _ _
  · refine Chg.step (State.count_chg _ _ _) rfl ?_
    exact Chg.refl _ _


theorem execVpWriteAck_chg (x0 : Nat) (x1 : Nat) (x2 : State) :
    ChgR 0x4000000100000008 x2 (execVpWriteAck x0 x1 x2) := by
  unfold execVpWriteAck
  refine ChgR.ite ?_ ?_
  · refine ChgR.next ?_
    refine Chg.step (State.vtAck_chg _ _ _) rfl ?_
    exact Chg.refl _ _
  · refine ChgR.next ?_
    exact Chg.refl _ _


theorem execSpiRead_chg (x0 : Nat) (x1 : Nat) (x2 : State) :
    ChgR 0x800 x2 (execSpiRead x0 x1 x2) := by
  unfold execSpiRead
  refine ChgR.ite ?_ ?_
  · refine ChgR.next ?_
    refine Chg.step (State.emit_chg _ _) rfl ?_
    exact Chg.refl _ _
  · refine ChgR.next ?_
    exact Chg.refl _ _


theorem execSpiAck_chg (x0 : Nat) (x1 : List Nat) (x2 : State) :
    ChgR 0x4000000100000008 x2 (execSpiAck x0 x1 x2) := by
  unfold execSpiAck
  refine ChgR.ite ?_ ?_
  · refine ChgR.next ?_
    refine Chg.foldl ?_ ?_
    · intro u1 u2 u3
      refine Chg.step (State.vtAck_chg _ _ _) rfl ?_
      assumption
    · exact Chg.refl _ _
  · refine ChgR.next ?_
    exact Chg.refl _ _


end Sys2Proof.Machine
end

