-- ==== Sys2Proof/Laws/FrameBoard.lean ====
section
/-! SUPPORT. The frames of power, register accesses, management and the tick: one lemma for each operation, which says
what part of the state it may change. -/

namespace Sys2Proof.Machine

theorem State.bootFw_chg (x0 : State) (x1 : Nat) :
    Chg 0x20000400908 x0 (State.bootFw x0 x1) := by
  unfold State.bootFw
  extract_lets t1 w2
  have ht1 : Chg 0x20000400908 x0 t1 := by
    unfold t1
    refine Chg.step (State.fwCheck_chg _ _ _) rfl ?_
    refine Chg.step (State.fwCheck_chg _ _ _) rfl ?_
    exact Chg.refl _ _
  clear_value t1
  clear_value w2
  refine Chg.ite ?_ ?_
  · assumption
  · refine Chg.step (State.log_chg _ _) rfl ?_
    refine Chg.step (State.fset_chg _ _ _ _) rfl ?_
    assumption


theorem State.undoTrial_chg (x0 : State) :
    Chg 0x800022080400908 x0 (State.undoTrial x0) := by
  unfold State.undoTrial
  split
  · exact Chg.refl _ _
  · refine Chg.ite ?_ ?_
    · refine Chg.step (State.fwTell_chg _ _) rfl ?_
      refine Chg.step (State.fwBack_chg _ _ _) rfl ?_
      exact Chg.refl _ _
    · refine Chg.step (State.fwRolledBack_chg _ _) rfl ?_
      exact Chg.refl _ _


theorem State.bootKeep_chg (x0 : State) :
    Chg 0x80002208040090c x0 (State.bootKeep x0) := by
  unfold State.bootKeep
  extract_lets t1 w2 t3 w4 w5 t6 t7 t8
  have ht1 : Chg 0x80002208040090c x0 t1 := by
    unfold t1
    refine Chg.step (State.bootFw_chg _ _) rfl ?_
    refine Chg.step (State.undoTrial_chg _) rfl ?_
    exact Chg.refl _ _
  clear_value t1
  clear_value w2
  have ht3 : Chg 0x80002208040090c x0 t3 := by
    unfold t3
    refine Chg.step (State.fset_chg _ _ _ _) rfl ?_
    assumption
  clear_value t3
  clear_value w4
  clear_value w5
  have ht6 : Chg 0x80002208040090c x0 t6 := by
    unfold t6
    refine Chg.upd_free_bar_keep rfl rfl rfl ?_
    assumption
  clear_value t6
  have ht7 : Chg 0x80002208040090c x0 t7 := by
    unfold t7
    refine Chg.step (State.bootFw_chg _ _) rfl ?_
    assumption
  clear_value t7
  have ht8 : Chg 0x80002208040090c x0 t8 := by
    unfold t8
    refine Chg.ite ?_ ?_
    · refine Chg.step (State.bootFw_chg _ _) rfl ?_
      refine Chg.step (State.bootFw_chg _ _) rfl ?_
      assumption
    · assumption
  clear_value t8
  refine Chg.ite ?_ ?_
  · refine Chg.step (State.fset_chg _ _ _ _) rfl ?_
    assumption
  · refine Chg.ite ?_ ?_
    · refine Chg.step (State.settleOn_chg _ _) rfl ?_
      refine Chg.step (State.fset_chg _ _ _ _) rfl ?_
      assumption
    · refine Chg.step (State.fset_chg _ _ _ _) rfl ?_
      assumption


theorem State.bootContexts_chg (x0 : State) :
    Chg 0x800082000000008 x0 (State.bootContexts x0) := by
  unfold State.bootContexts
  extract_lets t1 w2 t3
  have ht1 : Chg 0x800082000000008 x0 t1 := by
    unfold t1
    refine Chg.foldl ?_ ?_
    · intro u4 u5 u6
      extract_lets t7 t8
      have ht7 : Chg 0x800082000000008 x0 t7 := by
        unfold t7
        refine Chg.step (State.setCtxState_chg _ _ _) rfl ?_
        assumption
      clear_value t7
      have ht8 : Chg 0x800082000000008 x0 t8 := by
        unfold t8
        refine Chg.step (State.fset_chg _ _ _ _) rfl ?_
        assumption
      clear_value t8
      refine Chg.step (State.fset_chg _ _ _ _) rfl ?_
      assumption
    · exact Chg.refl _ _
  clear_value t1
  clear_value w2
  have ht3 : Chg 0x800082000000008 x0 t3 := by
    unfold t3
    refine Chg.upd_keep rfl ?_
    assumption
  clear_value t3
  refine Chg.step (State.ctxRefresh_chg _) rfl ?_
  assumption


theorem State.bootCores_chg (x0 : State) :
    Chg 0x80000000008 x0 (State.bootCores x0) := by
  unfold State.bootCores
  refine Chg.foldl ?_ ?_
  · intro u1 u2 u3
    refine Chg.ite ?_ ?_
    · refine Chg.step (State.fset_chg _ _ _ _) rfl ?_
      refine Chg.step (State.fset_chg _ _ _ _) rfl ?_
      assumption
    · assumption
  · exact Chg.refl _ _


theorem State.readSupply_chg (x0 : State) (x1 : Nat) (x2 : Bool) :
    Chg 0x44000000008 x0 (State.readSupply x0 x1 x2) := by
  unfold State.readSupply
  extract_lets t1 t2 w3
  have ht1 : Chg 0x44000000008 x0 t1 := by
    unfold t1
    refine Chg.step (State.fset_chg _ _ _ _) rfl ?_
    exact Chg.refl _ _
  clear_value t1
  have ht2 : Chg 0x44000000008 x0 t2 := by
    unfold t2
    refine Chg.step (State.fset_chg _ _ _ _) rfl ?_
    assumption
  clear_value t2
  clear_value w3
  refine Chg.upd_power rfl ?_
  assumption


theorem State.powerOn_chg (x0 : State) (x1 : Nat) (x2 : Bool) :
    Chg 0x28000ee08040090c x0 (State.powerOn x0 x1 x2) := by
  unfold State.powerOn
  extract_lets w1 w2 t3 t4 t5 t6 t7 t8 t9
  clear_value w1
  clear_value w2
  have ht3 : Chg 0x28000ee08040090c x0 t3 := by
    unfold t3
    refine Chg.upd_power_bootNs rfl rfl ?_
    exact Chg.refl _ _
  clear_value t3
  have ht4 : Chg 0x28000ee08040090c x0 t4 := by
    unfold t4
    refine Chg.step (State.readSupply_chg _ _ _) rfl ?_
    assumption
  clear_value t4
  have ht5 : Chg 0x28000ee08040090c x0 t5 := by
    unfold t5
    refine Chg.step (State.fset_chg _ _ _ _) rfl ?_
    assumption
  clear_value t5
  have ht6 : Chg 0x28000ee08040090c x0 t6 := by
    unfold t6
    refine Chg.step (State.linkTrain_chg _) rfl ?_
    assumption
  clear_value t6
  have ht7 : Chg 0x28000ee08040090c x0 t7 := by
    unfold t7
    refine Chg.step (State.bootKeep_chg _) rfl ?_
    assumption
  clear_value t7
  have ht8 : Chg 0x28000ee08040090c x0 t8 := by
    unfold t8
    refine Chg.step (State.bootCores_chg _) rfl ?_
    refine Chg.step (State.bootContexts_chg _) rfl ?_
    assumption
  clear_value t8
  have ht9 : Chg 0x28000ee08040090c x0 t9 := by
    unfold t9
    refine Chg.step (State.fset_chg _ _ _ _) rfl ?_
    assumption
  clear_value t9
  refine Chg.step (State.log_chg _ _) rfl ?_
  assumption


theorem execHostPowerOn_chg (x0 : Nat) (x1 : Bool) (x2 : State) :
    ChgR 0x28000ee08040090c x2 (execHostPowerOn x0 x1 x2) := by
  unfold execHostPowerOn
  refine ChgR.ite ?_ ?_
  · refine ChgR.next ?_
    exact Chg.refl _ _
  · refine ChgR.next ?_
    refine Chg.step (State.powerOn_chg _ _ _) rfl ?_
    exact Chg.refl _ _


theorem execPerstDeassert_chg (x0 : State) :
    ChgR 0x4000000000 x0 (execPerstDeassert x0) := by
  unfold execPerstDeassert
  extract_lets w1
  clear_value w1
  refine ChgR.ite ?_ ?_
  · refine ChgR.next ?_
    exact Chg.refl _ _
  · refine ChgR.next ?_
    refine Chg.upd_power rfl ?_
    exact Chg.refl _ _


theorem State.hostLoss_chg (x0 : State) :
    Chg 0x23fffff7efdffff78 x0 (State.hostLoss x0) := by
  unfold State.hostLoss
  extract_lets t1 w2 w3 w4 w5 w6 w7 w8
  have ht1 : Chg 0x23fffff7efdffff78 x0 t1 := by
    unfold t1
    refine Chg.step (State.linkDown_chg _) rfl ?_
    exact Chg.refl _ _
  clear_value t1
  clear_value w3
  clear_value w4
  clear_value w5
  clear_value w6
  clear_value w7
  clear_value w8
  refine Chg.upd_group_56 rfl rfl rfl rfl rfl rfl rfl rfl rfl rfl rfl rfl rfl rfl rfl rfl rfl rfl rfl rfl rfl rfl rfl rfl rfl rfl rfl rfl rfl rfl rfl rfl ?_ ?_ ?_ ?_
  · exact regs_host rfl
  · exact fun _ => rfl
  · exact fun _ => rfl
  · assumption


theorem execHostPowerLoss_chg (x0 : State) :
    ChgR 0x23fffff7efdffff78 x0 (execHostPowerLoss x0) := by
  unfold execHostPowerLoss
  extract_lets t1 w2
  have ht1 : Chg 0x23fffff7efdffff78 x0 t1 := by
    unfold t1
    refine Chg.step (State.hostLoss_chg _) rfl ?_
    exact Chg.refl _ _
  clear_value t1
  clear_value w2
  refine ChgR.ite ?_ ?_
  · refine ChgR.next ?_
    exact Chg.refl _ _
  · refine ChgR.next ?_
    refine Chg.upd_power rfl ?_
    assumption


theorem execThermalTrip_chg (x0 : State) :
    ChgR 0x23fffff7efdffff78 x0 (execThermalTrip x0) := by
  unfold execThermalTrip
  extract_lets t1 w2
  have ht1 : Chg 0x23fffff7efdffff78 x0 t1 := by
    unfold t1
    refine Chg.step (State.hostLoss_chg _) rfl ?_
    exact Chg.refl _ _
  clear_value t1
  clear_value w2
  refine ChgR.ite ?_ ?_
  · refine ChgR.next ?_
    exact Chg.refl _ _
  · refine ChgR.next ?_
    refine Chg.upd_power rfl ?_
    assumption


theorem State.resetFuncs_chg (x0 : State) :
    Chg 0x8180a20fde00918 x0 (State.resetFuncs x0) := by
  unfold State.resetFuncs
  extract_lets t1
  have ht1 : Chg 0x8180a20fde00918 x0 t1 := by
    unfold t1
    refine Chg.foldl ?_ ?_
    · intro u2 u3 u4
      refine Chg.step (State.resetFunc_chg _ _) rfl ?_
      assumption
    · exact Chg.refl _ _
  clear_value t1
  refine Chg.foldl ?_ ?_
  · intro u5 u6 u7
    refine Chg.step (State.tdiFail_chg _ _) rfl ?_
    assumption
  · assumption


theorem State.conventional_chg (x0 : State) :
    Chg 0x81c0a60fde00918 x0 (State.conventional x0) := by
  unfold State.conventional
  extract_lets t1 t2 w3
  have ht1 : Chg 0x81c0a60fde00918 x0 t1 := by
    unfold t1
    refine Chg.step (State.resetFuncs_chg _) rfl ?_
    exact Chg.refl _ _
  clear_value t1
  have ht2 : Chg 0x81c0a60fde00918 x0 t2 := by
    unfold t2
    refine Chg.foldl_mem ?_ ?_
    · intro u4 u5 u6 u7
      refine Chg.step (State.fset_chg _ _ _ _) (mem_fld (by assumption) rfl) ?_
      assumption
    · assumption
  clear_value t2
  clear_value w3
  refine Chg.upd_power rfl ?_
  assumption


theorem execConventionalReset_chg (x0 : State) :
    ChgR 0x81c0a60fde00918 x0 (execConventionalReset x0) := by
  unfold execConventionalReset
  refine ChgR.ite ?_ ?_
  · refine ChgR.next ?_
    exact Chg.refl _ _
  · refine ChgR.next ?_
    refine Chg.step (State.conventional_chg _) rfl ?_
    exact Chg.refl _ _


theorem State.resetCoreAll_chg (x0 : State) (x1 : Nat) :
    Chg 0x800f8600003f018 x0 (State.resetCoreAll x0 x1) := by
  unfold State.resetCoreAll
  extract_lets w1 w2 t3 t4 t5
  clear_value w1
  clear_value w2
  have ht3 : Chg 0x800f8600003f018 x0 t3 := by
    unfold t3
    refine Chg.step (State.clearCore_chg _ _) rfl ?_
    exact Chg.refl _ _
  clear_value t3
  have ht4 : Chg 0x800f8600003f018 x0 t4 := by
    unfold t4
    refine Chg.upd_cores rfl ?_
    assumption
  clear_value t4
  have ht5 : Chg 0x800f8600003f018 x0 t5 := by
    unfold t5
    refine Chg.step (State.zeroCore_chg _ _) rfl ?_
    assumption
  clear_value t5
  refine Chg.ite ?_ ?_
  · refine Chg.step (State.beginBleed_chg _ _ _ _) rfl ?_
    assumption
  · assumption


theorem State.deviceClear_chg (x0 : State) :
    Chg 0x918fa78fdfff978 x0 (State.deviceClear x0) := by
  unfold State.deviceClear
  extract_lets t1 t2 w3 w4 w5 w6 w7 w8 w9
  have ht1 : Chg 0x918fa78fdfff978 x0 t1 := by
    unfold t1
    refine Chg.step (State.resetFuncs_chg _) rfl ?_
    exact Chg.refl _ _
  clear_value t1
  have ht2 : Chg 0x918fa78fdfff978 x0 t2 := by
    unfold t2
    refine Chg.foldl ?_ ?_
    · intro u10 u11 u12
      refine Chg.step (State.resetCoreAll_chg _ _) rfl ?_
      assumption
    · assumption
  clear_value t2
  clear_value w4
  clear_value w5
  clear_value w6
  clear_value w7
  clear_value w8
  clear_value w9
  refine Chg.upd_group_55 rfl rfl rfl rfl rfl rfl rfl rfl rfl rfl rfl rfl rfl rfl rfl rfl ?_ ?_ ?_
  · exact regs_dev rfl
  · exact cellsWf_filter _ _
  · assumption


theorem State.endLanes_chg (x0 : State) :
    Chg 0x38020089e98908 x0 (State.endLanes x0) := by
  unfold State.endLanes
  extract_lets w1 t2
  clear_value w1
  have ht2 : Chg 0x38020089e98908 x0 t2 := by
    unfold t2
    refine Chg.foldl ?_ ?_
    · intro u3 u4 u5
      refine Chg.step (State.breakLane_chg _ _ _) rfl ?_
      refine Chg.step (State.suspend_chg _ _ _ _) rfl ?_
      assumption
    · exact Chg.refl _ _
  clear_value t2
  refine Chg.foldl ?_ ?_
  · intro u6 u7 u8
    refine Chg.step (State.stopItem_chg _ _) rfl ?_
    assumption
  · assumption


theorem State.reset'_chg (x0 : State) (x1 : Nat) (x2 : Nat) (x3 : Bool) :
    Chg 0xd3afe78fdfff97c x0 (State.reset' x0 x1 x2 x3) := by
  unfold State.reset'
  extract_lets w1 t2 t3 t4 t5 t6 t7 t8 t9
  clear_value w1
  have ht2 : Chg 0xd3afe78fdfff97c x0 t2 := by
    unfold t2
    refine Chg.step (State.sendHostState_chg _) rfl ?_
    refine Chg.upd_bar rfl ?_
    exact Chg.refl _ _
  clear_value t2
  have ht3 : Chg 0xd3afe78fdfff97c x0 t3 := by
    unfold t3
    refine Chg.step (State.shares_chg _) rfl ?_
    refine Chg.step (State.deviceClear_chg _) rfl ?_
    refine Chg.step (State.endLanes_chg _) rfl ?_
    assumption
  clear_value t3
  have ht4 : Chg 0xd3afe78fdfff97c x0 t4 := by
    unfold t4
    refine Chg.foldl_mem ?_ ?_
    · intro u10 u11 u12 u13
      refine Chg.step (State.fset_chg _ _ _ _) (mem_fld (by assumption) rfl) ?_
      assumption
    · assumption
  clear_value t4
  have ht5 : Chg 0xd3afe78fdfff97c x0 t5 := by
    unfold t5
    refine Chg.step (State.fset_chg _ _ _ _) rfl ?_
    assumption
  clear_value t5
  have ht6 : Chg 0xd3afe78fdfff97c x0 t6 := by
    unfold t6
    refine Chg.step (State.readSupply_chg _ _ _) rfl ?_
    refine Chg.step (State.frozen_chg _) rfl ?_
    assumption
  clear_value t6
  have ht7 : Chg 0xd3afe78fdfff97c x0 t7 := by
    unfold t7
    refine Chg.step (State.bootKeep_chg _) rfl ?_
    assumption
  clear_value t7
  have ht8 : Chg 0xd3afe78fdfff97c x0 t8 := by
    unfold t8
    refine Chg.step (State.bootCores_chg _) rfl ?_
    refine Chg.step (State.bootContexts_chg _) rfl ?_
    assumption
  clear_value t8
  have ht9 : Chg 0xd3afe78fdfff97c x0 t9 := by
    unfold t9
    refine Chg.step (State.fset_chg _ _ _ _) rfl ?_
    assumption
  clear_value t9
  refine Chg.step (State.log_chg _ _) rfl ?_
  assumption


theorem State.resetRefused_chg (x0 : State) (x1 : Nat) :
    Chg 0x60000400908 x0 (State.resetRefused x0 x1) := by
  unfold State.resetRefused
  refine Chg.step (State.log_chg _ _) rfl ?_
  refine Chg.step (State.flag_chg _ _ _) rfl ?_
  exact Chg.refl _ _


theorem State.deviceReset_chg (x0 : State) (x1 : Nat) (x2 : Bool) :
    Chg 0xd3afe78fdfff97c x0 (State.deviceReset x0 x1 x2) := by
  unfold State.deviceReset
  refine Chg.ite ?_ ?_
  · exact Chg.refl _ _
  · refine Chg.ite ?_ ?_
    · refine Chg.step (State.resetRefused_chg _ _) rfl ?_
      exact Chg.refl _ _
    · refine Chg.step (State.reset'_chg _ _ _ _) rfl ?_
      exact Chg.refl _ _


theorem execDeviceReset_chg (x0 : Nat) (x1 : Bool) (x2 : State) :
    ChgR 0xd3afe78fdfff97c x2 (execDeviceReset x0 x1 x2) := by
  unfold execDeviceReset
  refine ChgR.next ?_
  refine Chg.step (State.deviceReset_chg _ _ _) rfl ?_
  exact Chg.refl _ _


theorem State.resetNow_chg (x0 : State) (x1 : Nat) :
    Chg 0xd3afe78fdfff97c x0 (State.resetNow x0 x1) := by
  unfold State.resetNow
  refine Chg.step (State.reset'_chg _ _ _ _) rfl ?_
  exact Chg.refl _ _


theorem execMgtWatchdog_chg (x0 : State) :
    ChgR 0xd3afe78fdfff97c x0 (execMgtWatchdog x0) := by
  unfold execMgtWatchdog
  refine ChgR.ite ?_ ?_
  · refine ChgR.next ?_
    exact Chg.refl _ _
  · refine ChgR.next ?_
    refine Chg.step (State.resetNow_chg _ _) rfl ?_
    exact Chg.refl _ _


theorem State.resetFree_chg (x0 : State) (x1 : Nat) :
    Chg 0xc00fa504043ff1c x0 (State.resetFree x0 x1) := by
  unfold State.resetFree
  extract_lets t1 t2
  have ht1 : Chg 0xc00fa504043ff1c x0 t1 := by
    unfold t1
    refine Chg.step (State.clearCore_chg _ _) rfl ?_
    exact Chg.refl _ _
  clear_value t1
  have ht2 : Chg 0xc00fa504043ff1c x0 t2 := by
    unfold t2
    refine Chg.foldl ?_ ?_
    · intro u3 u4 u5
      refine Chg.step (State.startupEngine_chg _ _ _) rfl ?_
      assumption
    · assumption
  clear_value t2
  refine Chg.step (State.fset_chg _ _ _ _) rfl ?_
  refine Chg.step (State.fset_chg _ _ _ _) rfl ?_
  assumption


theorem State.leaveStage_chg (x0 : State) (x1 : Nat) :
    ChgO 0xc00e830001f9008 x0 (State.leaveStage x0 x1) := by
  unfold State.leaveStage
  split
  · exact ChgO.none
  · split
    · exact ChgO.none
    · refine ChgO.ite ?_ ?_
      · exact ChgO.none
      · refine ChgO.some ?_
        refine Chg.step (State.beginSwitching_chg _ _ _ _ _) rfl ?_
        exact Chg.refl _ _


theorem State.coreReset_chg (x0 : State) (x1 : Nat) :
    Chg 0xc00fe70405fff1c x0 (State.coreReset x0 x1) := by
  unfold State.coreReset
  refine Chg.ite ?_ ?_
  · exact Chg.refl _ _
  · split
    · refine Chg.step (State.settleOff_chg _ _) rfl ?_
      refine Chg.step (State.resetFree_chg _ _) rfl ?_
      refine Chg.step (State.settleOn_chg _ _) rfl ?_
      exact Chg.refl _ _
    · split
      · refine Chg.step (State.resetRefused_chg _ _) rfl ?_
        exact Chg.refl _ _
      · extract_lets w1
        clear_value w1
        refine Chg.step (State.settleOn_chg _ _) rfl ?_
        refine Chg.upd_power rfl ?_
        refine ChgO.app ?_ (by assumption)
        refine ChgO.step (State.leaveStage_chg _ _) rfl ?_
        exact Chg.refl _ _
    · split
      · exact Chg.refl _ _
      · refine Chg.step (State.settleOff_chg _ _) rfl ?_
        refine Chg.step (State.makeLookout_chg _ _ _) rfl ?_
        refine Chg.step (State.resetFree_chg _ _) rfl ?_
        refine Chg.step (State.dropSamples_chg _ _) rfl ?_
        refine Chg.step (State.settleOn_chg _ _) rfl ?_
        exact Chg.refl _ _
    · exact Chg.refl _ _


theorem execCoreReset_chg (x0 : Nat) (x1 : State) :
    ChgR 0xc00fe70405fff1c x1 (execCoreReset x0 x1) := by
  unfold execCoreReset
  refine ChgR.ite ?_ ?_
  · refine ChgR.next ?_
    exact Chg.refl _ _
  · refine ChgR.next ?_
    refine Chg.step (State.coreReset_chg _ _) rfl ?_
    exact Chg.refl _ _


theorem State.bleedAfter_chg (x0 : State) (x1 : Nat) (x2 : Option Place) :
    Chg 0x800002000001008 x0 (State.bleedAfter x0 x1 x2) := by
  unfold State.bleedAfter
  split
  · exact Chg.refl _ _
  · refine Chg.ite ?_ ?_
    · exact Chg.refl _ _
    · refine Chg.step (State.beginBleed_chg _ _ _ _) rfl ?_
      exact Chg.refl _ _


theorem State.zeroedReset_chg (x0 : State) (x1 : Nat) :
    Chg 0xc00fa704043ff1c x0 (State.zeroedReset x0 x1) := by
  unfold State.zeroedReset
  extract_lets w1
  clear_value w1
  refine Chg.ite ?_ ?_
  · exact Chg.refl _ _
  · refine Chg.ite ?_ ?_
    · refine Chg.step (State.settleOff_chg _ _) rfl ?_
      refine Chg.upd_power rfl ?_
      exact Chg.refl _ _
    · refine Chg.step (State.settleOff_chg _ _) rfl ?_
      refine Chg.step (State.resetFree_chg _ _) rfl ?_
      exact Chg.refl _ _


theorem execCellZeroDone_chg (x0 : Nat) (x1 : State) :
    ChgR 0xc00fa70405fff1c x1 (execCellZeroDone x0 x1) := by
  unfold execCellZeroDone
  extract_lets w1 w2 t3 t4 t5 t6 w7 t8 t9
  clear_value w1
  clear_value w2
  have ht3 : Chg 0xc00fa70405fff1c x1 t3 := by
    unfold t3
    refine Chg.step (State.zeroCore_chg _ _) rfl ?_
    exact Chg.refl _ _
  clear_value t3
  have ht4 : Chg 0xc00fa70405fff1c x1 t4 := by
    unfold t4
    refine Chg.step (State.bleedAfter_chg _ _ _) rfl ?_
    assumption
  clear_value t4
  have ht5 : Chg 0xc00fa70405fff1c x1 t5 := by
    unfold t5
    refine Chg.step (State.setRst_chg _ _ _) rfl ?_
    assumption
  clear_value t5
  have ht6 : Chg 0xc00fa70405fff1c x1 t6 := by
    unfold t6
    refine Chg.step (State.fset_chg _ _ _ _) rfl ?_
    assumption
  clear_value t6
  clear_value w7
  have ht8 : Chg 0xc00fa70405fff1c x1 t8 := by
    unfold t8
    refine Chg.step (State.setCore_chg _ _ _) rfl ?_
    assumption
  clear_value t8
  have ht9 : Chg 0xc00fa70405fff1c x1 t9 := by
    unfold t9
    refine Chg.ite ?_ ?_
    · refine Chg.step (State.fset_chg _ _ _ _) rfl ?_
      assumption
    · refine Chg.step (State.fset_chg _ _ _ _) rfl ?_
      refine Chg.step (State.fset_chg _ _ _ _) rfl ?_
      assumption
  clear_value t9
  refine ChgR.ite ?_ ?_
  · refine ChgR.next ?_
    exact Chg.refl _ _
  · refine ChgR.next ?_
    refine Chg.step (State.retarget_chg _) rfl ?_
    refine Chg.step (State.designate_chg _) rfl ?_
    refine Chg.step (State.zeroedReset_chg _ _) rfl ?_
    assumption


theorem State.lockLost_chg (x0 : State) (x1 : Nat) :
    Chg 0x40000000008 x0 (State.lockLost x0 x1) := by
  unfold State.lockLost
  refine Chg.step (State.fset_chg _ _ _ _) rfl ?_
  exact Chg.refl _ _


theorem State.coreDead_chg (x0 : State) (x1 : Nat) :
    Chg 0xc10ea30c17fd908 x0 (State.coreDead x0 x1) := by
  unfold State.coreDead
  split
  · refine ChgR.app ?_ (by assumption)
    refine ChgR.step (execCoreFailed_chg _ _ _) rfl ?_
    exact Chg.refl _ _
  · exact Chg.refl _ _


theorem State.clockEvent_chg (x0 : State) (x1 : Nat) (x2 : Nat) :
    Chg 0x20000400908 x0 (State.clockEvent x0 x1 x2) := by
  unfold State.clockEvent
  refine Chg.step (State.log_chg _ _) rfl ?_
  exact Chg.refl _ _


theorem execClockLoss_chg (x0 : Sys2Proof.Clock) (x1 : State) :
    ChgR 0x3fffffffffdffff7c x1 (execClockLoss x0 x1) := by
  unfold execClockLoss
  split
  · refine ChgR.step (execFieldWatchdog_chg _) rfl ?_
    exact Chg.refl _ _
  · refine ChgR.ite ?_ ?_
    · refine ChgR.next ?_
      exact Chg.refl _ _
    · refine ChgR.next ?_
      refine Chg.step (State.powerOn_chg _ _ _) rfl ?_
      refine Chg.step (State.hostLoss_chg _) rfl ?_
      exact Chg.refl _ _
  · refine ChgR.ite ?_ ?_
    · refine ChgR.next ?_
      exact Chg.refl _ _
    · split
      · refine ChgR.next ?_
        refine Chg.foldl ?_ ?_
        · intro u1 u2 u3
          refine Chg.step (State.coreDead_chg _ _) rfl ?_
          assumption
        · refine Chg.step (State.clockEvent_chg _ _ _) rfl ?_
          refine Chg.step (State.lockLost_chg _ _) rfl ?_
          exact Chg.refl _ _
      · refine ChgR.next ?_
        refine Chg.step (State.coreDead_chg _ _) rfl ?_
        refine Chg.step (State.clockEvent_chg _ _ _) rfl ?_
        exact Chg.refl _ _
      · refine ChgR.next ?_
        refine Chg.step (State.resetNow_chg _ _) rfl ?_
        refine Chg.step (State.clockEvent_chg _ _ _) rfl ?_
        refine Chg.step (State.lockLost_chg _ _) rfl ?_
        exact Chg.refl _ _
      · refine ChgR.next ?_
        refine Chg.step (State.resetNow_chg _ _) rfl ?_
        refine Chg.step (State.clockEvent_chg _ _ _) rfl ?_
        refine Chg.step (State.lockLost_chg _ _) rfl ?_
        exact Chg.refl _ _
      · refine ChgR.next ?_
        refine Chg.step (State.conventional_chg _) rfl ?_
        refine Chg.step (State.clockEvent_chg _ _ _) rfl ?_
        exact Chg.refl _ _
      · extract_lets t4
        have ht4 : Chg 0x3fffffffffdffff7c x1 t4 := by
          unfold t4
          refine Chg.step (State.clockEvent_chg _ _ _) rfl ?_
          exact Chg.refl _ _
        clear_value t4
        refine ChgR.ite ?_ ?_
        · refine ChgR.next ?_
          refine Chg.step (State.dropPort_chg _ _) rfl ?_
          assumption
        · refine ChgR.next ?_
          assumption
      · extract_lets t5
        have ht5 : Chg 0x3fffffffffdffff7c x1 t5 := by
          unfold t5
          refine Chg.step (State.clockEvent_chg _ _ _) rfl ?_
          refine Chg.step (State.lockLost_chg _ _) rfl ?_
          exact Chg.refl _ _
        clear_value t5
        refine ChgR.next ?_
        refine Chg.step (State.stopBegin_chg _ _ _) rfl ?_
        assumption


theorem execStopCommand_chg (x0 : State) :
    ChgR 0x10064080600908 x0 (execStopCommand x0) := by
  unfold execStopCommand
  refine ChgR.next ?_
  refine Chg.step (State.stopBegin_chg _ _ _) rfl ?_
  exact Chg.refl _ _


theorem execDrainEnd_chg (x0 : State) :
    ChgR 0x288e5089ebf908 x0 (execDrainEnd x0) := by
  unfold execDrainEnd
  split
  · refine ChgR.next ?_
    exact Chg.refl _ _
  · refine ChgR.ite ?_ ?_
    · refine ChgR.next ?_
      refine Chg.step (State.stopEnd_chg _ _) rfl ?_
      exact Chg.refl _ _
    · refine ChgR.next ?_
      exact Chg.refl _ _


theorem execAuxSupplyFail_chg (x0 : State) :
    ChgR 0x10064080600908 x0 (execAuxSupplyFail x0) := by
  unfold execAuxSupplyFail
  extract_lets t1
  have ht1 : Chg 0x10064080600908 x0 t1 := by
    unfold t1
    refine Chg.step (State.fset_chg _ _ _ _) rfl ?_
    exact Chg.refl _ _
  clear_value t1
  refine ChgR.ite ?_ ?_
  · refine ChgR.next ?_
    exact Chg.refl _ _
  · refine ChgR.ite ?_ ?_
    · refine ChgR.next ?_
      refine Chg.step (State.stopBegin_chg _ _ _) rfl ?_
      assumption
    · refine ChgR.next ?_
      assumption


theorem execOverpowerClear_chg (x0 : State) :
    ChgR 0x10004000000008 x0 (execOverpowerClear x0) := by
  unfold execOverpowerClear
  extract_lets w1
  clear_value w1
  refine ChgR.ite ?_ ?_
  · refine ChgR.next ?_
    exact Chg.refl _ _
  · refine ChgR.next ?_
    refine Chg.step (State.frozen_chg _) rfl ?_
    refine Chg.upd_power rfl ?_
    exact Chg.refl _ _


theorem execHousekeepingStale_chg (x0 : State) :
    ChgR 0x10064080600908 x0 (execHousekeepingStale x0) := by
  unfold execHousekeepingStale
  refine ChgR.ite ?_ ?_
  · refine ChgR.next ?_
    exact Chg.refl _ _
  · refine ChgR.next ?_
    refine Chg.step (State.stopBegin_chg _ _ _) rfl ?_
    exact Chg.refl _ _


theorem execThermalWithdraw_chg (x0 : Nat) (x1 : State) :
    ChgR 0x10064000404908 x1 (execThermalWithdraw x0 x1) := by
  unfold execThermalWithdraw
  refine ChgR.ite ?_ ?_
  · refine ChgR.next ?_
    refine Chg.step (State.withdraw_chg _ _) rfl ?_
    exact Chg.refl _ _
  · refine ChgR.next ?_
    exact Chg.refl _ _


theorem execGuardEnd_chg (x0 : Nat) (x1 : State) :
    ChgR 0x864000400908 x1 (execGuardEnd x0 x1) := by
  unfold execGuardEnd
  extract_lets w1 w2 t3 t4 t5
  clear_value w1
  clear_value w2
  have ht3 : Chg 0x864000400908 x1 t3 := by
    unfold t3
    refine Chg.upd_power rfl ?_
    exact Chg.refl _ _
  clear_value t3
  have ht4 : Chg 0x864000400908 x1 t4 := by
    unfold t4
    refine Chg.step (State.fset_chg _ _ _ _) rfl ?_
    assumption
  clear_value t4
  have ht5 : Chg 0x864000400908 x1 t5 := by
    unfold t5
    refine Chg.step (State.log_chg _ _) rfl ?_
    assumption
  clear_value t5
  refine ChgR.ite ?_ ?_
  · refine ChgR.next ?_
    exact Chg.refl _ _
  · refine ChgR.next ?_
    refine Chg.foldl ?_ ?_
    · intro u6 u7 u8
      refine Chg.step (State.calRise_chg _ _ _) rfl ?_
      assumption
    · assumption


theorem execGlbThmCommit_chg (x0 : State) :
    ChgR 0x60000400908 x0 (execGlbThmCommit x0) := by
  unfold execGlbThmCommit
  extract_lets w1 w2
  clear_value w2
  refine ChgR.ite ?_ ?_
  · refine ChgR.next ?_
    refine State.applyAll_chg rfl ?_
    exact Chg.refl _ _
  · refine ChgR.next ?_
    refine Chg.step (State.log_chg _ _) rfl ?_
    refine Chg.step (State.flag_chg _ _ _) rfl ?_
    exact Chg.refl _ _


theorem State.cnpCommit_chg (x0 : State) :
    Chg 0x80020000400908 x0 (State.cnpCommit x0) := by
  unfold State.cnpCommit
  extract_lets w1 w2 w3
  clear_value w1
  clear_value w2
  clear_value w3
  refine Chg.ite ?_ ?_
  · refine State.applyAll_chg rfl ?_
    exact Chg.refl _ _
  · refine Chg.step (State.log_chg _ _) rfl ?_
    refine Chg.step (State.flag_chg _ _ _) rfl ?_
    exact Chg.refl _ _


theorem execCnpCommit_chg (x0 : State) :
    ChgR 0x80020000400908 x0 (execCnpCommit x0) := by
  unfold execCnpCommit
  refine ChgR.next ?_
  refine Chg.step (State.cnpCommit_chg _) rfl ?_
  exact Chg.refl _ _


theorem execRecoveryImage_chg (x0 : List Nat) (x1 : State) :
    ChgR 0x20000400008 x1 (execRecoveryImage x0 x1) := by
  unfold execRecoveryImage
  extract_lets w1 w2 w3 w4
  clear_value w1
  clear_value w2
  clear_value w3
  clear_value w4
  refine ChgR.ite ?_ ?_
  · refine ChgR.next ?_
    exact Chg.refl _ _
  · refine ChgR.next ?_
    refine Chg.step (State.fset_chg _ _ _ _) (by unfold slotValid; split <;> rfl) ?_
    refine Chg.upd_mgmt rfl ?_
    exact Chg.refl _ _


theorem State.accError_chg (x0 : State) (x1 : Sys2Proof.Access) (x2 : Nat) :
    Chg 0x30000400f08 x0 (State.accError x0 x1 x2) := by
  unfold State.accError
  extract_lets w1 t2 t3 t4 t5 t6 t7 t8
  clear_value w1
  have ht2 : Chg 0x30000400f08 x0 t2 := by
    unfold t2
    refine Chg.step (State.fset_chg _ _ _ _) rfl ?_
    exact Chg.refl _ _
  clear_value t2
  have ht3 : Chg 0x30000400f08 x0 t3 := by
    unfold t3
    refine Chg.step (State.fset_chg _ _ _ _) rfl ?_
    assumption
  clear_value t3
  have ht4 : Chg 0x30000400f08 x0 t4 := by
    unfold t4
    refine Chg.step (State.fset_chg _ _ _ _) rfl ?_
    assumption
  clear_value t4
  have ht5 : Chg 0x30000400f08 x0 t5 := by
    unfold t5
    refine Chg.step (State.fset_chg _ _ _ _) rfl ?_
    assumption
  clear_value t5
  have ht6 : Chg 0x30000400f08 x0 t6 := by
    unfold t6
    refine Chg.step (State.fset_chg _ _ _ _) rfl ?_
    assumption
  clear_value t6
  have ht7 : Chg 0x30000400f08 x0 t7 := by
    unfold t7
    refine Chg.step (State.fset_chg _ _ _ _) rfl ?_
    assumption
  clear_value t7
  have ht8 : Chg 0x30000400f08 x0 t8 := by
    unfold t8
    refine Chg.step (State.flag_chg _ _ _) rfl ?_
    refine Chg.step (State.count_chg _ _ _) rfl ?_
    assumption
  clear_value t8
  refine Chg.step (State.logRate_chg _ _ _ _) rfl ?_
  assumption


theorem State.msixFlush_chg (x0 : State) (x1 : Nat) (x2 : Nat) :
    Chg 0x8000800 x0 (State.msixFlush x0 x1 x2) := by
  unfold State.msixFlush
  extract_lets w1
  clear_value w1
  refine Chg.ite ?_ ?_
  · refine Chg.step (State.emit_chg _ _) rfl ?_
    refine Chg.upd_msixPending rfl ?_
    exact Chg.refl _ _
  · exact Chg.refl _ _


theorem State.msixPut_chg (x0 : State) (x1 : Nat) (x2 : Nat) (x3 : Nat) :
    Chg 0xc000800 x0 (State.msixPut x0 x1 x2 x3) := by
  unfold State.msixPut
  extract_lets w1
  clear_value w1
  refine Chg.ite ?_ ?_
  · exact Chg.refl _ _
  · refine Chg.step (State.msixFlush_chg _ _ _) rfl ?_
    refine Chg.upd_msix rfl ?_
    exact Chg.refl _ _


theorem State.run_chg {m : Nat} {s t : State} {f : State → Res} (k : Chg m s t) (hf : ChgR m s (f t)) :
    Chg m s (t.run f) := by
  unfold State.run
  split
  · exact hf _ (by assumption)
  · exact k
  · exact k

theorem State.mgtCommit_chg (x0 : State) :
    Chg 0x20000400908 x0 (State.mgtCommit x0) := by
  unfold State.mgtCommit
  refine Chg.ite ?_ ?_
  · refine State.applyAll_chg rfl ?_
    exact Chg.refl _ _
  · refine Chg.step (State.log_chg _ _) rfl ?_
    refine Chg.step (State.flag_chg _ _ _) rfl ?_
    exact Chg.refl _ _


theorem State.ringRefuse_chg (x0 : State) (x1 : Nat) :
    Chg 0x8180a2080600908 x0 (State.ringRefuse x0 x1) := by
  unfold State.ringRefuse
  extract_lets t1
  have ht1 : Chg 0x8180a2080600908 x0 t1 := by
    unfold t1
    refine Chg.step (State.log_chg _ _) rfl ?_
    refine Chg.step (State.flag_chg _ _ _) rfl ?_
    exact Chg.refl _ _
  clear_value t1
  refine Chg.step (State.tdiFail_chg _ _) rfl ?_
  assumption


theorem State.vfCtxWrite_chg (x0 : State) (x1 : Nat) :
    Chg 0x8140a2080600908 x0 (State.vfCtxWrite x0 x1) := by
  unfold State.vfCtxWrite
  extract_lets w1 w2 w3 w4
  clear_value w1
  clear_value w2
  clear_value w3
  clear_value w4
  refine Chg.ite ?_ ?_
  · refine Chg.step (State.tdiFail_chg _ _) rfl ?_
    refine Chg.step (State.log_chg _ _) rfl ?_
    refine Chg.step (State.flag_chg _ _ _) rfl ?_
    exact Chg.refl _ _
  · refine Chg.step (State.ctxRefresh_chg _) rfl ?_
    refine Chg.step (State.fset_chg _ _ _ _) rfl ?_
    exact Chg.refl _ _


theorem State.topoWrite_chg (x0 : State) (x1 : Reg) (x2 : Nat) :
    Chg 0x3ffffff0000400918 x0 (State.topoWrite x0 x1 x2) := by
  unfold State.topoWrite
  extract_lets w1
  clear_value w1
  refine Chg.ite ?_ ?_
  · refine Chg.step (State.writeReg_chg _ _ _ _) rfl ?_
    exact Chg.refl _ _
  · refine Chg.step (State.log_chg _ _) rfl ?_
    refine Chg.step (State.flag_chg _ _ _) rfl ?_
    exact Chg.refl _ _


theorem State.epiWrite_chg (x0 : State) (x1 : Reg) (x2 : Nat) (x3 : Nat) :
    Chg 0x3ffffff0000400918 x0 (State.epiWrite x0 x1 x2 x3) := by
  unfold State.epiWrite
  refine Chg.ite ?_ ?_
  · refine Chg.step (State.log_chg _ _) rfl ?_
    refine Chg.step (State.flag_chg _ _ _) rfl ?_
    exact Chg.refl _ _
  · refine Chg.step (State.writeReg_chg _ _ _ _) rfl ?_
    exact Chg.refl _ _


theorem State.mbRegWrite_chg (x0 : State) (x1 : Reg) (x2 : Nat) (x3 : Nat) :
    Chg 0x3ffffff0000400918 x0 (State.mbRegWrite x0 x1 x2 x3) := by
  unfold State.mbRegWrite
  refine Chg.ite ?_ ?_
  · refine Chg.step (State.log_chg _ _) rfl ?_
    refine Chg.step (State.flag_chg _ _ _) rfl ?_
    exact Chg.refl _ _
  · refine Chg.step (State.writeReg_chg _ _ _ _) rfl ?_
    exact Chg.refl _ _


theorem State.coreCtrl_chg (x0 : State) (x1 : Nat) (x2 : Nat) :
    Chg 0x3a200041b90c x0 (State.coreCtrl x0 x1 x2) := by
  unfold State.coreCtrl
  refine Chg.ite ?_ ?_
  · refine Chg.step (State.coreAsk_chg _ _ _) rfl ?_
    exact Chg.refl _ _
  · refine Chg.ite ?_ ?_
    · refine Chg.step (State.coreAsk_chg _ _ _) rfl ?_
      exact Chg.refl _ _
    · refine Chg.ite ?_ ?_
      · refine Chg.step (State.coreStep_chg _ _) rfl ?_
        exact Chg.refl _ _
      · refine Chg.ite ?_ ?_
        · refine Chg.step (State.coreResume_chg _ _) rfl ?_
          exact Chg.refl _ _
        · refine Chg.ite ?_ ?_
          · refine Chg.step (State.coreStart_chg _ _) rfl ?_
            exact Chg.refl _ _
          · exact Chg.refl _ _


theorem State.rstCtrl_chg (x0 : State) (x1 : Nat) :
    Chg 0xd3afe78fdffff7c x0 (State.rstCtrl x0 x1) := by
  unfold State.rstCtrl
  extract_lets t1
  have ht1 : Chg 0xd3afe78fdffff7c x0 t1 := by
    unfold t1
    refine Chg.ite ?_ ?_
    · refine Chg.step (State.stopBegin_chg _ _ _) rfl ?_
      exact Chg.refl _ _
    · exact Chg.refl _ _
  clear_value t1
  refine Chg.ite ?_ ?_
  · refine Chg.step (State.deviceReset_chg _ _ _) rfl ?_
    assumption
  · refine Chg.ite ?_ ?_
    · refine Chg.step (State.coreReset_chg _ _) rfl ?_
      assumption
    · assumption


theorem State.onBit_chg {m : Nat} {s t : State} {v b : Nat} {f : State → Res} (k : Chg m s t) (hf : ChgR m s (f t)) :
    Chg m s (t.onBit v b f) := by
  unfold State.onBit
  exact Chg.ite (State.run_chg k hf) k

theorem State.takeLow_chg (x0 : State) (x1 : Reg) (x2 : Nat) (x3 : Nat) :
    Chg 0x3ffffff0000000058 x0 (State.takeLow x0 x1 x2 x3) := by
  unfold State.takeLow
  extract_lets w1
  clear_value w1
  split
  · exact Chg.refl _ _
  · refine Chg.step (State.writeReg_chg _ _ _ _) rfl ?_
    refine Chg.upd_lowHeld rfl ?_
    exact Chg.refl _ _


theorem State.holdLow_chg (x0 : State) (x1 : Reg) (x2 : Nat) (x3 : Nat) (x4 : Nat) :
    Chg 0x40 x0 (State.holdLow x0 x1 x2 x3 x4) := by
  unfold State.holdLow
  refine Chg.upd_lowHeld rfl ?_
  exact Chg.refl _ _


theorem State.ringWrite_chg (x0 : State) (x1 : Reg) (x2 : Nat) (x3 : Nat) (x4 : Nat) :
    Chg 0x3ffffff2088e00958 x0 (State.ringWrite x0 x1 x2 x3 x4) := by
  unfold State.ringWrite
  extract_lets w1 w2
  clear_value w1
  clear_value w2
  refine Chg.ite ?_ ?_
  · refine State.onBit_chg ?_ ?_
    · exact Chg.refl _ _
    · refine ChgR.step (execRingCommit_chg _ _ _) rfl ?_
      exact Chg.refl _ _
  · refine Chg.ite ?_ ?_
    · refine State.onBit_chg ?_ ?_
      · refine State.onBit_chg ?_ ?_
        · exact Chg.refl _ _
        · refine ChgR.step (execRingStart_chg _ _ _) rfl ?_
          exact Chg.refl _ _
      · refine ChgR.step (execRingStop_chg _ _ _) rfl ?_
        refine State.onBit_chg ?_ ?_
        · exact Chg.refl _ _
        · refine ChgR.step (execRingStart_chg _ _ _) rfl ?_
          exact Chg.refl _ _
    · refine Chg.ite ?_ ?_
      · refine Chg.step (State.ringRefuse_chg _ _) rfl ?_
        exact Chg.refl _ _
      · refine Chg.ite ?_ ?_
        · refine Chg.step (State.holdLow_chg _ _ _ _ _) rfl ?_
          exact Chg.refl _ _
        · refine Chg.ite ?_ ?_
          · refine Chg.step (State.writeReg_chg _ _ _ _) rfl ?_
            refine Chg.step (State.takeLow_chg _ _ _ _) rfl ?_
            exact Chg.refl _ _
          · refine Chg.step (State.writeReg_chg _ _ _ _) rfl ?_
            exact Chg.refl _ _


theorem State.regWrite_chg (x0 : State) (x1 : Nat) (x2 : Reg) (x3 : Nat) (x4 : Nat) :
    Chg 0x3ffffff7effffff7c x0 (State.regWrite x0 x1 x2 x3 x4) := by
  unfold State.regWrite
  extract_lets w1
  clear_value w1
  refine Chg.ite ?_ ?_
  · exact Chg.refl _ _
  · refine Chg.ite ?_ ?_
    · refine Chg.step (State.writeCntCtrl_chg _ _ _ _) rfl ?_
      exact Chg.refl _ _
    · split
      · refine Chg.step (State.ringWrite_chg _ _ _ _ _) rfl ?_
        exact Chg.refl _ _
      · split
        · refine Chg.ite ?_ ?_
          · refine Chg.step (State.mgtCommit_chg _) rfl ?_
            exact Chg.refl _ _
          · exact Chg.refl _ _
        · refine Chg.step (State.rstCtrl_chg _ _) rfl ?_
          exact Chg.refl _ _
        · refine State.onBit_chg ?_ ?_
          · exact Chg.refl _ _
          · refine ChgR.step (execGlbThmCommit_chg _) rfl ?_
            exact Chg.refl _ _
        · refine Chg.step (State.coreCtrl_chg _ _ _) rfl ?_
          exact Chg.refl _ _
        · refine State.run_chg ?_ ?_
          · exact Chg.refl _ _
          · refine ChgR.step (execCadCfgWrite_chg _ _ _) rfl ?_
            exact Chg.refl _ _
        · refine State.onBit_chg ?_ ?_
          · refine State.onBit_chg ?_ ?_
            · exact Chg.refl _ _
            · refine ChgR.step (execDebugEnter_chg _ _) rfl ?_
              exact Chg.refl _ _
          · refine ChgR.step (execDebugExit_chg _ _) rfl ?_
            refine State.onBit_chg ?_ ?_
            · exact Chg.refl _ _
            · refine ChgR.step (execDebugEnter_chg _ _) rfl ?_
              exact Chg.refl _ _
        · refine Chg.step (State.epiWrite_chg _ _ _ _) rfl ?_
          exact Chg.refl _ _
        · refine Chg.step (State.epiWrite_chg _ _ _ _) rfl ?_
          exact Chg.refl _ _
        · refine State.onBit_chg ?_ ?_
          · refine State.onBit_chg ?_ ?_
            · exact Chg.refl _ _
            · refine ChgR.step (execRstCalPass_chg _ _) rfl ?_
              exact Chg.refl _ _
          · refine ChgR.step (execPassportSnap_chg _ _) rfl ?_
            refine State.onBit_chg ?_ ?_
            · exact Chg.refl _ _
            · refine ChgR.step (execRstCalPass_chg _ _) rfl ?_
              exact Chg.refl _ _
        · refine State.onBit_chg ?_ ?_
          · exact Chg.refl _ _
          · refine ChgR.step (execRstCommit_chg _ _) rfl ?_
            exact Chg.refl _ _
        · refine State.run_chg ?_ ?_
          · exact Chg.refl _ _
          · refine ChgR.step (execEngCfgWrite_chg _ _ _ _) rfl ?_
            exact Chg.refl _ _
        · refine State.onBit_chg ?_ ?_
          · exact Chg.refl _ _
          · refine ChgR.step (execFabCommit_chg _) rfl ?_
            exact Chg.refl _ _
        · refine Chg.step (State.vfCtxWrite_chg _ _) rfl ?_
          exact Chg.refl _ _
        · refine Chg.step (State.holdLow_chg _ _ _ _ _) rfl ?_
          exact Chg.refl _ _
        · refine State.run_chg ?_ ?_
          · refine Chg.step (State.takeLow_chg _ _ _ _) rfl ?_
            exact Chg.refl _ _
          · refine ChgR.step (execItemLookup_chg _ _) rfl ?_
            refine Chg.step (State.takeLow_chg _ _ _ _) rfl ?_
            exact Chg.refl _ _
        · refine State.onBit_chg ?_ ?_
          · refine State.onBit_chg ?_ ?_
            · exact Chg.refl _ _
            · refine ChgR.step (execCnpStart_chg _) rfl ?_
              exact Chg.refl _ _
          · refine ChgR.step (execCnpStop_chg _) rfl ?_
            refine State.onBit_chg ?_ ?_
            · exact Chg.refl _ _
            · refine ChgR.step (execCnpStart_chg _) rfl ?_
              exact Chg.refl _ _
        · refine Chg.step (State.topoWrite_chg _ _ _) rfl ?_
          exact Chg.refl _ _
        · refine Chg.step (State.topoWrite_chg _ _ _) rfl ?_
          exact Chg.refl _ _
        · refine State.onBit_chg ?_ ?_
          · exact Chg.refl _ _
          · refine ChgR.step (execCnpCommit_chg _) rfl ?_
            exact Chg.refl _ _
        · refine State.onBit_chg ?_ ?_
          · exact Chg.refl _ _
          · refine ChgR.step (execKatNow_chg _ _) rfl ?_
            exact Chg.refl _ _
        · refine State.onBit_chg ?_ ?_
          · exact Chg.refl _ _
          · refine ChgR.step (execRelCommit_chg _) rfl ?_
            exact Chg.refl _ _
        · refine Chg.step (State.mbRegWrite_chg _ _ _ _) rfl ?_
          exact Chg.refl _ _
        · refine Chg.step (State.mbRegWrite_chg _ _ _ _) rfl ?_
          exact Chg.refl _ _
        · refine Chg.ite ?_ ?_
          · refine Chg.step (State.mailboxGo_chg _) rfl ?_
            exact Chg.refl _ _
          · exact Chg.refl _ _
        · refine State.onBit_chg ?_ ?_
          · exact Chg.refl _ _
          · refine ChgR.step (execKeepCommit_chg _) rfl ?_
            exact Chg.refl _ _
        · refine State.onBit_chg ?_ ?_
          · exact Chg.refl _ _
          · refine ChgR.step (execHkCommit_chg _) rfl ?_
            exact Chg.refl _ _
        · refine State.run_chg ?_ ?_
          · exact Chg.refl _ _
          · refine ChgR.step (execHkAospSend_chg _ _) rfl ?_
            exact Chg.refl _ _
        · refine State.onBit_chg ?_ ?_
          · exact Chg.refl _ _
          · refine ChgR.step (execFldGwCommit_chg _) rfl ?_
            exact Chg.refl _ _
        · refine Chg.step (State.writeReg_chg _ _ _ _) rfl ?_
          exact Chg.refl _ _


theorem State.doorWrite_chg (x0 : State) (x1 : Sys2Proof.Access) (x2 : Nat) :
    Chg 0xc020000c00f08 x0 (State.doorWrite x0 x1 x2) := by
  unfold State.doorWrite
  extract_lets w1
  clear_value w1
  refine Chg.ite ?_ ?_
  · refine State.run_chg ?_ ?_
    · exact Chg.refl _ _
    · refine ChgR.step (execSqDoorbell_chg _ _ _ _) rfl ?_
      exact Chg.refl _ _
  · refine Chg.ite ?_ ?_
    · refine State.run_chg ?_ ?_
      · exact Chg.refl _ _
      · refine ChgR.step (execCqDoorbell_chg _ _ _ _) rfl ?_
        exact Chg.refl _ _
    · refine Chg.step (State.count_chg _ _ _) rfl ?_
      exact Chg.refl _ _


theorem State.busWrite_chg (x0 : State) (x1 : Sys2Proof.Access) (x2 : Nat) :
    Chg 0x3ffffff7effffff7c x0 (State.busWrite x0 x1 x2) := by
  unfold State.busWrite
  refine Chg.ite ?_ ?_
  · refine Chg.step (State.doorWrite_chg _ _ _) rfl ?_
    exact Chg.refl _ _
  · split
    · refine Chg.step (State.accError_chg _ _ _) rfl ?_
      exact Chg.refl _ _
    · split
      · extract_lets t1
        have ht1 : Chg 0x3ffffff7effffff7c x0 t1 := by
          unfold t1
          refine Chg.step (State.msixPut_chg _ _ _ _) rfl ?_
          exact Chg.refl _ _
        clear_value t1
        refine Chg.ite ?_ ?_
        · refine Chg.step (State.msixPut_chg _ _ _ _) rfl ?_
          assumption
        · assumption
      · refine Chg.ite ?_ ?_
        · refine Chg.ite ?_ ?_
          · refine Chg.step (State.pciWrite_chg _ _ _ _) rfl ?_
            exact Chg.refl _ _
          · exact Chg.refl _ _
        · refine Chg.ite ?_ ?_
          · refine Chg.step (State.proxyPost_chg _ _ _) rfl ?_
            exact Chg.refl _ _
          · refine Chg.ite ?_ ?_
            · exact Chg.refl _ _
            · refine Chg.elim ?_ ?_
              · exact Chg.refl _ _
              · intro u2 u3
                refine Chg.step (State.regWrite_chg _ _ _ _ _) rfl ?_
                exact Chg.refl _ _


theorem State.readClear_chg (x0 : State) (x1 : Reg) (x2 : Nat) :
    Chg 0x3ffffff0000000008 x0 (State.readClear x0 x1 x2) := by
  unfold State.readClear
  extract_lets t1
  have ht1 : Chg 0x3ffffff0000000008 x0 t1 := by
    unfold t1
    refine Chg.foldl_mem ?_ ?_
    · intro u2 u3 u4 u5
      refine Chg.step (State.fset_chg _ _ _ _) (Sub.fm rfl _) ?_
      assumption
    · exact Chg.refl _ _
  clear_value t1
  refine Chg.ite ?_ ?_
  · refine Chg.foldl_mem ?_ ?_
    · intro u6 u7 u8 u9
      refine Chg.step (State.fset_chg _ _ _ _) (Sub.fm rfl _) ?_
      assumption
    · assumption
  · assumption


theorem State.regRead_chg (x0 : State) (x1 : Nat) (x2 : Reg) (x3 : Nat) :
    Chg 0x3ffffff020000002c x0 (State.regRead x0 x1 x2 x3).2 := by
  unfold State.regRead
  extract_lets t1 w2 w3 t4 t5 t6
  have ht1 : Chg 0x3ffffff020000002c x0 t1 := by
    unfold t1
    refine Chg.step (State.rollMeans_chg _) rfl ?_
    exact Chg.refl _ _
  clear_value t1
  clear_value w2
  clear_value w3
  have ht4 : Chg 0x3ffffff020000002c x0 t4 := by
    unfold t4
    refine Chg.upd_latch rfl ?_
    assumption
  clear_value t4
  have ht5 : Chg 0x3ffffff020000002c x0 t5 := by
    unfold t5
    refine Chg.ite ?_ ?_
    · refine Chg.upd_latch rfl ?_
      assumption
    · assumption
  clear_value t5
  have ht6 : Chg 0x3ffffff020000002c x0 t6 := by
    unfold t6
    refine Chg.ite ?_ ?_
    · refine Chg.step (State.draw_chg _ _) rfl ?_
      assumption
    · assumption
  clear_value t6
  refine Chg.snd_mk ?_
  refine Chg.step (State.readClear_chg _ _ _) rfl ?_
  assumption


theorem State.busRead_chg (x0 : State) (x1 : Sys2Proof.Access) :
    Chg 0x3ffffff0200400f2c x0 (State.busRead x0 x1).2 := by
  unfold State.busRead
  split
  · refine Chg.snd_mk ?_
    refine Chg.step (State.accError_chg _ _ _) rfl ?_
    exact Chg.refl _ _
  · split
    · refine Chg.snd_mk ?_
      exact Chg.refl _ _
    · refine Chg.snd_ite ?_ ?_
      · refine Chg.snd_mk ?_
        exact Chg.refl _ _
      · refine Chg.snd_ite ?_ ?_
        · refine Chg.snd_mk ?_
          exact Chg.refl _ _
        · split
          · refine Chg.snd_mk ?_
            exact Chg.refl _ _
          · refine Chg.snd_ite ?_ ?_
            · refine Chg.snd_mk ?_
              exact Chg.refl _ _
            · refine Chg.step (State.regRead_chg _ _ _ _) rfl ?_
              exact Chg.refl _ _


theorem State.hostGet_chg (x0 : State) (x1 : Sys2Proof.Access) :
    Chg 0x3ffffff0200400fac x0 (State.hostGet x0 x1) := by
  unfold State.hostGet
  extract_lets t1 t2
  have ht1 : Chg 0x3ffffff0200400fac x0 t1.2 := by
    unfold t1
    refine Chg.step (State.busRead_chg _ _) rfl ?_
    exact Chg.refl _ _
  clear_value t1
  have ht2 : Chg 0x3ffffff0200400fac x0 t2 := by
    unfold t2
    assumption
  clear_value t2
  refine Chg.upd_readData rfl ?_
  assumption


theorem execRegisterWrite_chg (x0 : Sys2Proof.Access) (x1 : Nat) (x2 : State) :
    ChgR 0x3ffffff7effffff7c x2 (execRegisterWrite x0 x1 x2) := by
  unfold execRegisterWrite
  refine ChgR.ite ?_ ?_
  · refine ChgR.next ?_
    refine Chg.step (State.busWrite_chg _ _ _) rfl ?_
    exact Chg.refl _ _
  · refine ChgR.next ?_
    exact Chg.refl _ _


theorem execLowWordRead_chg (x0 : Sys2Proof.Access) (x1 : State) :
    ChgR 0x3ffffff0200400fac x1 (execLowWordRead x0 x1) := by
  unfold execLowWordRead
  refine ChgR.ite ?_ ?_
  · refine ChgR.next ?_
    refine Chg.step (State.hostGet_chg _ _) rfl ?_
    exact Chg.refl _ _
  · refine ChgR.next ?_
    exact Chg.refl _ _


theorem execRcFieldRead_chg (x0 : Sys2Proof.Access) (x1 : State) :
    ChgR 0x3ffffff0200400fac x1 (execRcFieldRead x0 x1) := by
  unfold execRcFieldRead
  refine ChgR.ite ?_ ?_
  · refine ChgR.next ?_
    refine Chg.step (State.hostGet_chg _ _) rfl ?_
    exact Chg.refl _ _
  · refine ChgR.next ?_
    exact Chg.refl _ _


theorem execAccessDiscarded_chg (x0 : Sys2Proof.Access) (x1 : State) :
    ChgR 0x30000400f88 x1 (execAccessDiscarded x0 x1) := by
  unfold execAccessDiscarded
  split
  · extract_lets t1
    have ht1 : Chg 0x30000400f88 x1 t1 := by
      unfold t1
      refine Chg.step (State.accError_chg _ _ _) rfl ?_
      exact Chg.refl _ _
    clear_value t1
    refine ChgR.ite ?_ ?_
    · refine ChgR.next ?_
      exact Chg.refl _ _
    · refine ChgR.ite ?_ ?_
      · refine ChgR.next ?_
        refine Chg.step (State.accError_chg _ _ _) rfl ?_
        exact Chg.refl _ _
      · refine ChgR.next ?_
        refine Chg.upd_readData rfl ?_
        assumption
  · refine ChgR.next ?_
    exact Chg.refl _ _


theorem execCounterClear_chg (x0 : Sys2Proof.Access) (x1 : Nat) (x2 : State) :
    ChgR 0x3ffffff7effffff7c x2 (execCounterClear x0 x1 x2) := by
  unfold execCounterClear
  refine ChgR.ite ?_ ?_
  · refine ChgR.next ?_
    refine Chg.step (State.busWrite_chg _ _ _) rfl ?_
    exact Chg.refl _ _
  · refine ChgR.next ?_
    exact Chg.refl _ _


theorem execMgtCommit_chg (x0 : State) :
    ChgR 0x20000400908 x0 (execMgtCommit x0) := by
  unfold execMgtCommit
  refine ChgR.next ?_
  refine Chg.step (State.mgtCommit_chg _) rfl ?_
  exact Chg.refl _ _


theorem State.updSession_chg (x0 : State) (x1 : Nat) (x2 : Session → Session) :
    Chg 0x400000 x0 (State.updSession x0 x1 x2) := by
  unfold State.updSession
  extract_lets w1
  clear_value w1
  refine Chg.upd_mgmt rfl ?_
  exact Chg.refl _ _


theorem State.closeSession_chg (x0 : State) (x1 : Nat) :
    Chg 0x20000400008 x0 (State.closeSession x0 x1) := by
  unfold State.closeSession
  extract_lets w1 w2 t3 w4
  clear_value w2
  have ht3 : Chg 0x20000400008 x0 t3 := by
    unfold t3
    refine Chg.foldl ?_ ?_
    · intro u5 u6 u7
      refine Chg.step (State.fset_chg _ _ _ _) rfl ?_
      assumption
    · exact Chg.refl _ _
  clear_value t3
  clear_value w4
  refine Chg.upd_mgmt rfl ?_
  assumption


theorem State.mgtRun_chg {m : Nat} {s t : State} {q : MgtMsg} {typ role : Nat} {f : State → Session → State}
    (h : Sub 0x20000400808 m = true) (k : Chg m s t) (hf : ∀ u e, Chg m s u → Chg m s (f u e)) :
    ChgR m s (t.mgtRun q typ role f) := by
  have hs : Sub 0x400000 m = true := Sub.trans rfl h
  have ha : Sub 0x20000000808 m = true := Sub.trans rfl h
  have hc : Sub 0x20000400008 m = true := Sub.trans rfl h
  unfold State.mgtRun
  split
  · exact ChgR.next k
  · refine ChgR.ite (ChgR.next (Chg.step (State.closeSession_chg _ _) hc k)) ?_
    have ku : ∀ (id : Nat) (g : Session → Session), Chg m s (t.updSession id g) :=
      fun id g => Chg.step (State.updSession_chg _ id g) hs k
    exact ChgR.ite (ChgR.next (Chg.step (State.answer_chg _ _ _ _ _ _) ha (ku _ _)))
      (ChgR.ite (ChgR.next (Chg.step (State.answer_chg _ _ _ _ _ _) ha (ku _ _))) (ChgR.next (hf _ _ (ku _ _))))

theorem State.openSession_chg (x0 : State) (x1 : List Nat) (x2 : Nat) (x3 : Nat) (x4 : Bool) :
    Chg 0x20000400908 x0 (State.openSession x0 x1 x2 x3 x4) := by
  unfold State.openSession
  extract_lets w1 w2 w3 t4
  clear_value w1
  clear_value w2
  clear_value w3
  have ht4 : Chg 0x20000400908 x0 t4 := by
    unfold t4
    refine Chg.upd_mgmt rfl ?_
    exact Chg.refl _ _
  clear_value t4
  refine Chg.step (State.log_chg _ _) rfl ?_
  refine Chg.step (State.count_chg _ _ _) rfl ?_
  assumption


theorem State.authFail_chg (x0 : State) :
    Chg 0x20000400f08 x0 (State.authFail x0) := by
  unfold State.authFail
  refine Chg.step (State.logRate_chg _ _ _ _) rfl ?_
  refine Chg.step (State.count_chg _ _ _) rfl ?_
  exact Chg.refl _ _


theorem State.linkSeen_chg (x0 : State) :
    Chg 0x2000000000c x0 (State.linkSeen x0) := by
  unfold State.linkSeen
  refine Chg.ite ?_ ?_
  · exact Chg.refl _ _
  · refine Chg.step (State.draw_chg _ _) rfl ?_
    refine Chg.step (State.fset_chg _ _ _ _) rfl ?_
    exact Chg.refl _ _


theorem execSessionHandshake_chg (x0 : List Nat) (x1 : Bool) (x2 : State) :
    ChgR 0x20000400f0c x2 (execSessionHandshake x0 x1 x2) := by
  unfold execSessionHandshake
  extract_lets t1
  have ht1 : Chg 0x20000400f0c x2 t1 := by
    unfold t1
    refine Chg.step (State.linkSeen_chg _) rfl ?_
    exact Chg.refl _ _
  clear_value t1
  refine ChgR.ite ?_ ?_
  · refine ChgR.next ?_
    exact Chg.refl _ _
  · refine ChgR.ite ?_ ?_
    · refine ChgR.next ?_
      refine Chg.step (State.authFail_chg _) rfl ?_
      assumption
    · refine ChgR.ite ?_ ?_
      · split
        · refine ChgR.next ?_
          refine Chg.step (State.authFail_chg _) rfl ?_
          assumption
        · refine ChgR.next ?_
          refine Chg.step (State.openSession_chg _ _ _ _ _) rfl ?_
          assumption
      · refine ChgR.ite ?_ ?_
        · refine ChgR.next ?_
          refine Chg.step (State.openSession_chg _ _ _ _ _) rfl ?_
          assumption
        · refine ChgR.next ?_
          refine Chg.step (State.authFail_chg _) rfl ?_
          assumption


theorem execSessionIdleTimeout_chg (x0 : Nat) (x1 : State) :
    ChgR 0x20000400008 x1 (execSessionIdleTimeout x0 x1) := by
  unfold execSessionIdleTimeout
  split
  · refine ChgR.next ?_
    exact Chg.refl _ _
  · refine ChgR.ite ?_ ?_
    · refine ChgR.next ?_
      exact Chg.refl _ _
    · refine ChgR.next ?_
      refine Chg.step (State.closeSession_chg _ _) rfl ?_
      exact Chg.refl _ _


theorem State.claimFail_chg (x0 : State) (x1 : Nat) (x2 : Bool) :
    Chg 0x20000400008 x0 (State.claimFail x0 x1 x2) := by
  unfold State.claimFail
  extract_lets w1 t2
  clear_value w1
  have ht2 : Chg 0x20000400008 x0 t2 := by
    unfold t2
    refine Chg.ite ?_ ?_
    · refine Chg.upd_mgmt rfl ?_
      exact Chg.refl _ _
    · exact Chg.refl _ _
  clear_value t2
  refine Chg.step (State.closeSession_chg _ _) rfl ?_
  assumption


theorem execClaimModule_chg (x0 : Sys2Proof.MgtMsg) (x1 : State) :
    ChgR 0x20000400908 x1 (execClaimModule x0 x1) := by
  unfold execClaimModule
  refine State.mgtRun_chg rfl ?_ ?_
  · exact Chg.refl _ _
  · intro u1 u2 u3
    extract_lets w4 w5 t6 w7 t8 t9 t10
    clear_value w4
    clear_value w5
    have ht6 : Chg 0x20000400908 x1 t6 := by
      unfold t6
      refine Chg.upd_mgmt rfl ?_
      assumption
    clear_value t6
    clear_value w7
    have ht8 : Chg 0x20000400908 x1 t8 := by
      unfold t8
      refine Chg.upd_mgmt rfl ?_
      assumption
    clear_value t8
    have ht9 : Chg 0x20000400908 x1 t9 := by
      unfold t9
      refine Chg.step (State.fset_chg _ _ _ _) rfl ?_
      assumption
    clear_value t9
    have ht10 : Chg 0x20000400908 x1 t10 := by
      unfold t10
      refine Chg.step (State.updSession_chg _ _ _) rfl ?_
      assumption
    clear_value t10
    refine Chg.ite ?_ ?_
    · refine Chg.step (State.answer_chg _ _ _ _ _ _) rfl ?_
      assumption
    · refine Chg.ite ?_ ?_
      · refine Chg.step (State.claimFail_chg _ _ _) rfl ?_
        assumption
      · refine Chg.ite ?_ ?_
        · refine Chg.step (State.claimFail_chg _ _ _) rfl ?_
          assumption
        · refine Chg.step (State.answer_chg _ _ _ _ _ _) rfl ?_
          refine Chg.step (State.log_chg _ _) rfl ?_
          assumption


theorem execHello_chg (x0 : Sys2Proof.MgtMsg) (x1 : State) :
    ChgR 0x20000400808 x1 (execHello x0 x1) := by
  unfold execHello
  refine State.mgtRun_chg rfl ?_ ?_
  · exact Chg.refl _ _
  · intro u1 u2 u3
    refine Chg.step (State.answer_chg _ _ _ _ _ _) rfl ?_
    assumption


theorem State.catchUp_chg (x0 : State) (x1 : Nat) (x2 : Nat) (x3 : Nat) :
    Chg 0x400800 x0 (State.catchUp x0 x1 x2 x3) := by
  unfold State.catchUp
  extract_lets w1 w2 w3
  clear_value w1
  clear_value w2
  clear_value w3
  refine Chg.step (State.updSession_chg _ _ _) rfl ?_
  refine Chg.upd_out rfl ?_
  exact Chg.refl _ _


theorem State.eventsLost_chg (x0 : State) (x1 : Nat) (x2 : Nat) :
    Chg 0x20000400908 x0 (State.eventsLost x0 x1 x2) := by
  unfold State.eventsLost
  extract_lets w1 w2 t3
  clear_value w1
  clear_value w2
  have ht3 : Chg 0x20000400908 x0 t3 := by
    unfold t3
    refine Chg.step (State.log_chg _ _) rfl ?_
    exact Chg.refl _ _
  clear_value t3
  split
  · assumption
  · refine Chg.step (State.emit_chg _ _) rfl ?_
    assumption


theorem State.catchFaults_chg (x0 : State) (x1 : Nat) :
    Chg 0x400800 x0 (State.catchFaults x0 x1) := by
  unfold State.catchFaults
  extract_lets w1 w2 w3
  clear_value w1
  clear_value w2
  clear_value w3
  refine Chg.step (State.updSession_chg _ _ _) rfl ?_
  refine Chg.upd_out rfl ?_
  exact Chg.refl _ _


theorem State.subscribe_chg (x0 : State) (x1 : Nat) (x2 : Nat) (x3 : Nat) :
    Chg 0x20000400908 x0 (State.subscribe x0 x1 x2 x3) := by
  unfold State.subscribe
  extract_lets w1 t2 w3
  clear_value w1
  have ht2 : Chg 0x20000400908 x0 t2 := by
    unfold t2
    refine Chg.step (State.catchFaults_chg _ _) rfl ?_
    exact Chg.refl _ _
  clear_value t2
  clear_value w3
  refine Chg.ite ?_ ?_
  · refine Chg.step (State.updSession_chg _ _ _) rfl ?_
    assumption
  · refine Chg.ite ?_ ?_
    · refine Chg.step (State.catchUp_chg _ _ _ _) rfl ?_
      refine Chg.step (State.eventsLost_chg _ _ _) rfl ?_
      assumption
    · refine Chg.ite ?_ ?_
      · refine Chg.step (State.updSession_chg _ _ _) rfl ?_
        assumption
      · refine Chg.step (State.catchUp_chg _ _ _ _) rfl ?_
        assumption


theorem execSubscribe_chg (x0 : Sys2Proof.MgtMsg) (x1 : State) :
    ChgR 0x20000400908 x1 (execSubscribe x0 x1) := by
  unfold execSubscribe
  refine State.mgtRun_chg rfl ?_ ?_
  · exact Chg.refl _ _
  · intro u1 u2 u3
    refine Chg.ite ?_ ?_
    · refine Chg.step (State.answer_chg _ _ _ _ _ _) rfl ?_
      assumption
    · refine Chg.step (State.subscribe_chg _ _ _ _) rfl ?_
      refine Chg.step (State.answer_chg _ _ _ _ _ _) rfl ?_
      assumption


theorem execEventAck_chg (x0 : Sys2Proof.MgtMsg) (x1 : State) :
    ChgR 0x20000400808 x1 (execEventAck x0 x1) := by
  unfold execEventAck
  refine State.mgtRun_chg rfl ?_ ?_
  · exact Chg.refl _ _
  · intro u1 u2 u3
    extract_lets w4 w5
    clear_value w4
    clear_value w5
    refine Chg.ite ?_ ?_
    · refine Chg.step (State.answer_chg _ _ _ _ _ _) rfl ?_
      assumption
    · refine Chg.step (State.answer_chg _ _ _ _ _ _) rfl ?_
      refine Chg.upd_mgmt rfl ?_
      assumption


theorem execFaultAck_chg (x0 : Sys2Proof.MgtMsg) (x1 : State) :
    ChgR 0x20000400808 x1 (execFaultAck x0 x1) := by
  unfold execFaultAck
  refine State.mgtRun_chg rfl ?_ ?_
  · exact Chg.refl _ _
  · intro u1 u2 u3
    extract_lets w4 w5
    clear_value w4
    clear_value w5
    refine Chg.ite ?_ ?_
    · refine Chg.step (State.answer_chg _ _ _ _ _ _) rfl ?_
      assumption
    · refine Chg.step (State.answer_chg _ _ _ _ _ _) rfl ?_
      refine Chg.upd_mgmt rfl ?_
      assumption


theorem State.telemetry_chg (x0 : State) (x1 : Session) :
    Chg 0x400800 x0 (State.telemetry x0 x1) := by
  unfold State.telemetry
  extract_lets w1 w2 w3
  clear_value w1
  clear_value w2
  clear_value w3
  refine Chg.step (State.updSession_chg _ _ _) rfl ?_
  refine Chg.step (State.emit_chg _ _) rfl ?_
  exact Chg.refl _ _


theorem execTelemetryTimer_chg (x0 : Nat) (x1 : State) :
    ChgR 0x200400804 x1 (execTelemetryTimer x0 x1) := by
  unfold execTelemetryTimer
  split
  · refine ChgR.next ?_
    exact Chg.refl _ _
  · refine ChgR.ite ?_ ?_
    · refine ChgR.next ?_
      refine Chg.step (State.telemetry_chg _ _) rfl ?_
      refine Chg.step (State.rollMeans_chg _) rfl ?_
      exact Chg.refl _ _
    · refine ChgR.next ?_
      exact Chg.refl _ _


theorem execTelemetryCfg_chg (x0 : Sys2Proof.MgtMsg) (x1 : State) :
    ChgR 0x20000400808 x1 (execTelemetryCfg x0 x1) := by
  unfold execTelemetryCfg
  refine State.mgtRun_chg rfl ?_ ?_
  · exact Chg.refl _ _
  · intro u1 u2 u3
    extract_lets w4 w5
    clear_value w4
    clear_value w5
    refine Chg.ite ?_ ?_
    · refine Chg.step (State.answer_chg _ _ _ _ _ _) rfl ?_
      assumption
    · refine Chg.step (State.answer_chg _ _ _ _ _ _) rfl ?_
      refine Chg.step (State.updSession_chg _ _ _) rfl ?_
      assumption


theorem execTimeSet_chg (x0 : Sys2Proof.MgtMsg) (x1 : State) :
    ChgR 0x20000400808 x1 (execTimeSet x0 x1) := by
  unfold execTimeSet
  refine State.mgtRun_chg rfl ?_ ?_
  · exact Chg.refl _ _
  · intro u1 u2 u3
    extract_lets t4 w5
    have ht4 : Chg 0x20000400808 x1 t4 := by
      unfold t4
      refine Chg.step (State.fset_chg _ _ _ _) rfl ?_
      assumption
    clear_value t4
    clear_value w5
    refine Chg.ite ?_ ?_
    · refine Chg.step (State.answer_chg _ _ _ _ _ _) rfl ?_
      assumption
    · refine Chg.step (State.answer_chg _ _ _ _ _ _) rfl ?_
      refine Chg.upd_mgmt rfl ?_
      assumption


theorem State.regWords_chg (x0 : State) (x1 : Nat) (x2 : Nat) (x3 : Nat) (x4 : Nat) (x5 : Nat) (x6 : List Nat) :
    Chg 0x3ffffff02c8c08fac x0 (State.regWords x0 x1 x2 x3 x4 x5 x6) := by
  induction' x5 with n ih generalizing x0 x4 x6
  · rw [State.regWords]
    refine Chg.step (State.answer_chg _ _ _ _ _ _) rfl ?_
    exact Chg.refl _ _
  · rw [State.regWords]
    extract_lets w1 t2
    clear_value w1
    have ht2 : Chg 0x3ffffff02c8c08fac x0 t2.2 := by
      unfold t2
      refine Chg.step (State.busRead_chg _ _) rfl ?_
      exact Chg.refl _ _
    clear_value t2
    refine Chg.ite ?_ ?_
    · refine Chg.step (State.proxyRun_chg _ _ _) rfl ?_
      exact Chg.refl _ _
    · refine Chg.step (ih _ _ _) rfl ?_
      assumption


theorem execRegRead_chg (x0 : Sys2Proof.MgtMsg) (x1 : State) :
    ChgR 0x3ffffff02c8c08fac x1 (execRegRead x0 x1) := by
  unfold execRegRead
  refine State.mgtRun_chg rfl ?_ ?_
  · exact Chg.refl _ _
  · intro u1 u2 u3
    extract_lets w4 w5 w6
    clear_value w4
    clear_value w5
    clear_value w6
    refine Chg.ite ?_ ?_
    · refine Chg.step (State.answer_chg _ _ _ _ _ _) rfl ?_
      assumption
    · refine Chg.step (State.regWords_chg _ _ _ _ _ _ _) rfl ?_
      assumption


theorem execRegWrite_chg (x0 : Sys2Proof.MgtMsg) (x1 : State) :
    ChgR 0x3ffffff7effffff7c x1 (execRegWrite x0 x1) := by
  unfold execRegWrite
  refine State.mgtRun_chg rfl ?_ ?_
  · exact Chg.refl _ _
  · intro u1 u2 u3
    extract_lets w4 w5
    clear_value w4
    clear_value w5
    refine Chg.ite ?_ ?_
    · refine Chg.step (State.answer_chg _ _ _ _ _ _) rfl ?_
      assumption
    · refine Chg.step (State.answer_chg _ _ _ _ _ _) rfl ?_
      refine Chg.step (State.busWrite_chg _ _ _) rfl ?_
      assumption


theorem execPassportRead_chg (x0 : Sys2Proof.MgtMsg) (x1 : State) :
    ChgR 0x40002100040190c x1 (execPassportRead x0 x1) := by
  unfold execPassportRead
  refine State.mgtRun_chg rfl ?_ ?_
  · exact Chg.refl _ _
  · intro u1 u2 u3
    extract_lets w4 w5 t6
    clear_value w4
    clear_value w5
    have ht6 : Chg 0x40002100040190c x1 t6 := by
      unfold t6
      refine Chg.step (State.snapEngine_chg _ _ _) rfl ?_
      assumption
    clear_value t6
    refine Chg.ite ?_ ?_
    · refine Chg.step (State.answer_chg _ _ _ _ _ _) rfl ?_
      assumption
    · refine Chg.ite ?_ ?_
      · refine Chg.step (State.answer_chg _ _ _ _ _ _) rfl ?_
        assumption
      · refine Chg.step (State.answer_chg _ _ _ _ _ _) rfl ?_
        assumption


theorem execPeerList_chg (x0 : Sys2Proof.MgtMsg) (x1 : State) :
    ChgR 0x20000400808 x1 (execPeerList x0 x1) := by
  unfold execPeerList
  refine State.mgtRun_chg rfl ?_ ?_
  · exact Chg.refl _ _
  · intro u1 u2 u3
    extract_lets w4 w5
    clear_value w4
    clear_value w5
    refine Chg.ite ?_ ?_
    · refine Chg.step (State.answer_chg _ _ _ _ _ _) rfl ?_
      assumption
    · refine Chg.step (State.answer_chg _ _ _ _ _ _) rfl ?_
      refine Chg.upd_mgmt rfl ?_
      assumption


theorem execAnchorSet_chg (x0 : Sys2Proof.MgtMsg) (x1 : State) :
    ChgR 0x20000400808 x1 (execAnchorSet x0 x1) := by
  unfold execAnchorSet
  refine State.mgtRun_chg rfl ?_ ?_
  · exact Chg.refl _ _
  · intro u1 u2 u3
    extract_lets w4 w5 w6 w7
    clear_value w4
    clear_value w5
    clear_value w6
    clear_value w7
    refine Chg.ite ?_ ?_
    · refine Chg.step (State.answer_chg _ _ _ _ _ _) rfl ?_
      assumption
    · refine Chg.ite ?_ ?_
      · refine Chg.step (State.answer_chg _ _ _ _ _ _) rfl ?_
        refine Chg.upd_mgmt rfl ?_
        assumption
      · refine Chg.step (State.answer_chg _ _ _ _ _ _) rfl ?_
        assumption


theorem State.fwSend_chg (x0 : State) (x1 : Nat) (x2 : List Nat) :
    Chg 0x80000000 x0 (State.fwSend x0 x1 x2) := by
  unfold State.fwSend
  refine Chg.foldl ?_ ?_
  · intro u1 u2 u3
    refine Chg.step (State.toField_chg _ _) rfl ?_
    assumption
  · exact Chg.refl _ _


theorem State.stageDone_chg (x0 : State) (x1 : Session) (x2 : Nat) (x3 : Nat) :
    Chg 0x20080400908 x0 (State.stageDone x0 x1 x2 x3) := by
  unfold State.stageDone
  extract_lets w1 t2 w3 t4
  clear_value w1
  have ht2 : Chg 0x20080400908 x0 t2 := by
    unfold t2
    refine Chg.step (State.fwCheck_chg _ _ _) rfl ?_
    exact Chg.refl _ _
  clear_value t2
  clear_value w3
  have ht4 : Chg 0x20080400908 x0 t4 := by
    unfold t4
    refine Chg.step (State.fset_chg _ _ _ _) rfl ?_
    refine Chg.upd_mgmt rfl ?_
    assumption
  clear_value t4
  refine Chg.ite ?_ ?_
  · refine Chg.step (State.fwTell_chg _ _) rfl ?_
    refine Chg.upd_mgmt rfl ?_
    exact Chg.refl _ _
  · refine Chg.ite ?_ ?_
    · refine Chg.step (State.answer_chg _ _ _ _ _ _) rfl ?_
      refine Chg.step (State.log_chg _ _) rfl ?_
      assumption
    · refine Chg.step (State.answer_chg _ _ _ _ _ _) rfl ?_
      assumption


theorem State.stageBytes_chg (x0 : State) (x1 : Nat) (x2 : Nat) (x3 : List Nat) (x4 : Bool) :
    Chg 0x20080400008 x0 (State.stageBytes x0 x1 x2 x3 x4) := by
  unfold State.stageBytes
  extract_lets t1 t2 t3
  have ht1 : Chg 0x20080400008 x0 t1 := by
    unfold t1
    refine Chg.step (State.fset_chg _ _ _ _) (by unfold slotValid; split <;> rfl) ?_
    exact Chg.refl _ _
  clear_value t1
  have ht2 : Chg 0x20080400008 x0 t2 := by
    unfold t2
    refine Chg.step (State.fset_chg _ _ _ _) rfl ?_
    assumption
  clear_value t2
  have ht3 : Chg 0x20080400008 x0 t3 := by
    unfold t3
    refine Chg.ite ?_ ?_
    · assumption
    · refine Chg.step (State.fwErase_chg _ _) rfl ?_
      refine Chg.ite ?_ ?_
      · refine Chg.step (State.fwTell_chg _ _) rfl ?_
        assumption
      · assumption
  clear_value t3
  refine Chg.step (State.fwPut_chg _ _ _ _) rfl ?_
  refine Chg.ite ?_ ?_
  · refine Chg.step (State.fwSend_chg _ _ _) rfl ?_
    assumption
  · assumption


theorem execFwStage_chg (x0 : Sys2Proof.MgtMsg) (x1 : State) :
    ChgR 0x20080400908 x1 (execFwStage x0 x1) := by
  unfold execFwStage
  refine State.mgtRun_chg rfl ?_ ?_
  · exact Chg.refl _ _
  · intro u1 u2 u3
    extract_lets w4 w5 w6 w7 w8 w9 t10 t11
    clear_value w4
    clear_value w5
    clear_value w6
    clear_value w7
    clear_value w8
    clear_value w9
    have ht10 : Chg 0x20080400908 x1 t10 := by
      unfold t10
      refine Chg.upd_mgmt rfl ?_
      assumption
    clear_value t10
    have ht11 : Chg 0x20080400908 x1 t11 := by
      unfold t11
      refine Chg.step (State.stageBytes_chg _ _ _ _ _) rfl ?_
      assumption
    clear_value t11
    refine Chg.ite ?_ ?_
    · refine Chg.step (State.answer_chg _ _ _ _ _ _) rfl ?_
      assumption
    · refine Chg.ite ?_ ?_
      · refine Chg.step (State.answer_chg _ _ _ _ _ _) rfl ?_
        assumption
      · refine Chg.ite ?_ ?_
        · refine Chg.step (State.stageDone_chg _ _ _ _) rfl ?_
          assumption
        · refine Chg.step (State.answer_chg _ _ _ _ _ _) rfl ?_
          assumption


theorem State.keepDown_chg (x0 : State) :
    Chg 0x800002000000008 x0 (State.keepDown x0) := by
  unfold State.keepDown
  extract_lets w1 t2 w3
  clear_value w1
  have ht2 : Chg 0x800002000000008 x0 t2 := by
    unfold t2
    refine Chg.ite ?_ ?_
    · refine Chg.step (State.fset_chg _ _ _ _) rfl ?_
      exact Chg.refl _ _
    · exact Chg.refl _ _
  clear_value t2
  clear_value w3
  refine Chg.step (State.fset_chg _ _ _ _) rfl ?_
  refine Chg.upd_keep rfl ?_
  assumption


theorem State.keepUp_chg (x0 : State) :
    Chg 0xf3afa38cbffff0c x0 (State.keepUp x0) := by
  unfold State.keepUp
  extract_lets w1 t2 w3 w4 t5 t6 w7 w8 w9 t10 t11
  clear_value w1
  have ht2 : Chg 0xf3afa38cbffff0c x0 t2 := by
    unfold t2
    refine Chg.step (State.fset_chg _ _ _ _) rfl ?_
    exact Chg.refl _ _
  clear_value t2
  clear_value w3
  clear_value w4
  have ht5 : Chg 0xf3afa38cbffff0c x0 t5 := by
    unfold t5
    refine Chg.upd_free_bar_keep rfl rfl rfl ?_
    assumption
  clear_value t5
  have ht6 : Chg 0xf3afa38cbffff0c x0 t6 := by
    unfold t6
    refine Chg.step (State.fset_chg _ _ _ _) rfl ?_
    assumption
  clear_value t6
  clear_value w7
  clear_value w8
  clear_value w9
  have ht10 : Chg 0xf3afa38cbffff0c x0 t10 := by
    unfold t10
    refine Chg.upd_keep rfl ?_
    assumption
  clear_value t10
  have ht11 : Chg 0xf3afa38cbffff0c x0 t11 := by
    unfold t11
    refine Chg.foldl ?_ ?_
    · intro u12 u13 u14
      refine Chg.step (State.keepRun_chg _ _ _ _ _) rfl ?_
      assumption
    · assumption
  clear_value t11
  refine Chg.foldl ?_ ?_
  · intro u15 u16 u17
    refine Chg.step (State.coreStart_chg _ _) rfl ?_
    assumption
  · assumption


theorem State.mgtDown_chg (x0 : State) :
    Chg 0x20000400008 x0 (State.mgtDown x0) := by
  unfold State.mgtDown
  extract_lets t1 w2
  have ht1 : Chg 0x20000400008 x0 t1 := by
    unfold t1
    refine Chg.foldl ?_ ?_
    · intro u3 u4 u5
      refine Chg.step (State.closeSession_chg _ _) rfl ?_
      assumption
    · exact Chg.refl _ _
  clear_value t1
  clear_value w2
  refine Chg.upd_mgmt rfl ?_
  assumption


theorem State.setAct_chg (x0 : State) (x1 : Activation → Activation) :
    Chg 0x400000 x0 (State.setAct x0 x1) := by
  unfold State.setAct
  extract_lets w1
  clear_value w1
  refine Chg.upd_mgmt rfl ?_
  exact Chg.refl _ _


theorem State.partDown_chg (x0 : State) (x1 : Activation) :
    Chg 0x800022080400008 x0 (State.partDown x0 x1) := by
  unfold State.partDown
  split
  · refine Chg.step (State.keepDown_chg _) rfl ?_
    exact Chg.refl _ _
  · refine Chg.step (State.mgtDown_chg _) rfl ?_
    exact Chg.refl _ _
  · refine Chg.step (State.fwTell_chg _ _) rfl ?_
    exact Chg.refl _ _
  · extract_lets w1 t2
    clear_value w1
    have ht2 : Chg 0x800022080400008 x0 t2 := by
      unfold t2
      refine Chg.step (State.setAct_chg _ _) rfl ?_
      exact Chg.refl _ _
    clear_value t2
    refine Chg.ite ?_ ?_
    · refine Chg.foldl ?_ ?_
      · intro u3 u4 u5
        refine Chg.step (State.askFrame_chg _ _ _) rfl ?_
        assumption
      · assumption
    · assumption


theorem State.actBack_chg (x0 : State) (x1 : Activation) (x2 : Option (Nat × Nat)) :
    Chg 0x800022080400008 x0 (State.actBack x0 x1 x2) := by
  unfold State.actBack
  refine Chg.step (State.partDown_chg _ _) rfl ?_
  refine Chg.step (State.fwBack_chg _ _ _) rfl ?_
  exact Chg.refl _ _


theorem State.actReady_chg (x0 : State) (x1 : Activation) :
    Chg 0x800022000400908 x0 (State.actReady x0 x1) := by
  unfold State.actReady
  split
  · refine Chg.step (State.fwReady_chg _ _) rfl ?_
    exact Chg.refl _ _
  · refine Chg.step (State.fwRolledBack_chg _ _) rfl ?_
    exact Chg.refl _ _
  · exact Chg.refl _ _


theorem State.actStart_chg (x0 : State) (x1 : Session) (x2 : Nat) (x3 : Nat) (x4 : Bool) (x5 : Bool) :
    Chg 0x8100a2080600908 x0 (State.actStart x0 x1 x2 x3 x4 x5) := by
  unfold State.actStart
  extract_lets w1 w2 t3 t4 t5
  clear_value w1
  clear_value w2
  have ht3 : Chg 0x8100a2080600908 x0 t3 := by
    unfold t3
    refine Chg.upd_mgmt rfl ?_
    exact Chg.refl _ _
  clear_value t3
  have ht4 : Chg 0x8100a2080600908 x0 t4 := by
    unfold t4
    refine Chg.step (State.settleOn_chg _ _) rfl ?_
    refine Chg.step (State.fset_chg _ _ _ _) rfl ?_
    assumption
  clear_value t4
  have ht5 : Chg 0x8100a2080600908 x0 t5 := by
    unfold t5
    refine Chg.foldl ?_ ?_
    · intro u6 u7 u8
      refine Chg.step (State.tdiFail_chg _ _) rfl ?_
      assumption
    · assumption
  clear_value t5
  refine Chg.step (State.partDown_chg _ _) rfl ?_
  refine Chg.step (State.log_chg _ _) rfl ?_
  assumption


theorem execFwActivate_chg (x0 : Sys2Proof.MgtMsg) (x1 : State) :
    ChgR 0x8100a2080600908 x1 (execFwActivate x0 x1) := by
  unfold execFwActivate
  refine State.mgtRun_chg rfl ?_ ?_
  · exact Chg.refl _ _
  · intro u1 u2 u3
    extract_lets w4 w5 w6
    clear_value w4
    clear_value w5
    clear_value w6
    refine Chg.ite ?_ ?_
    · refine Chg.step (State.answer_chg _ _ _ _ _ _) rfl ?_
      assumption
    · refine Chg.ite ?_ ?_
      · refine Chg.step (State.answer_chg _ _ _ _ _ _) rfl ?_
        assumption
      · refine Chg.step (State.actStart_chg _ _ _ _ _ _) rfl ?_
        assumption


theorem State.microNext_chg (x0 : State) (x1 : Activation) :
    Chg 0xc00ea30005f9908 x0 (State.microNext x0 x1) := by
  unfold State.microNext
  refine Chg.ite ?_ ?_
  · exact Chg.refl _ _
  · split
    · refine Chg.step (State.actReady_chg _ _) rfl ?_
      exact Chg.refl _ _
    · split
      · refine Chg.step (State.setAct_chg _ _) rfl ?_
        exact Chg.refl _ _
      · extract_lets w1 w2
        clear_value w1
        clear_value w2
        split
        · exact Chg.refl _ _
        · extract_lets t3 w4
          have ht3 : Chg 0xc00ea30005f9908 x0 t3 := by
            unfold t3
            refine Chg.step (State.beginSwitching_chg _ _ _ _ _) rfl ?_
            exact Chg.refl _ _
          clear_value t3
          clear_value w4
          refine Chg.ite ?_ ?_
          · exact Chg.refl _ _
          · refine Chg.step (State.setAct_chg _ _) rfl ?_
            assumption


theorem execFwReady_chg (x0 : State) :
    ChgR 0x1cf3afa39cbffff1c x0 (execFwReady x0) := by
  unfold execFwReady
  split
  · refine ChgR.next ?_
    refine Chg.ite ?_ ?_
    · refine Chg.step (State.fieldFwReady_chg _) rfl ?_
      exact Chg.refl _ _
    · exact Chg.refl _ _
  · refine ChgR.ite ?_ ?_
    · refine ChgR.next ?_
      refine Chg.ite ?_ ?_
      · refine Chg.step (State.fieldFwReady_chg _) rfl ?_
        exact Chg.refl _ _
      · exact Chg.refl _ _
    · refine ChgR.ite ?_ ?_
      · refine ChgR.next ?_
        exact Chg.refl _ _
      · split
        · refine ChgR.next ?_
          refine Chg.step (State.actReady_chg _ _) rfl ?_
          refine Chg.step (State.keepUp_chg _) rfl ?_
          exact Chg.refl _ _
        · extract_lets w1
          clear_value w1
          refine ChgR.next ?_
          refine Chg.step (State.actReady_chg _ _) rfl ?_
          refine Chg.upd_mgmt rfl ?_
          exact Chg.refl _ _
        · refine ChgR.next ?_
          refine Chg.ite ?_ ?_
          · refine Chg.ite ?_ ?_
            · refine Chg.step (State.actReady_chg _ _) rfl ?_
              exact Chg.refl _ _
            · exact Chg.refl _ _
          · refine Chg.step (State.microNext_chg _ _) rfl ?_
            exact Chg.refl _ _


theorem execFwReadyTimeout_chg (x0 : State) :
    ChgR 0x1e800022180400f18 x0 (execFwReadyTimeout x0) := by
  unfold execFwReadyTimeout
  split
  · refine ChgR.next ?_
    refine Chg.ite ?_ ?_
    · refine Chg.step (State.fieldFwLate_chg _) rfl ?_
      exact Chg.refl _ _
    · exact Chg.refl _ _
  · extract_lets w1
    clear_value w1
    refine ChgR.ite ?_ ?_
    · refine ChgR.next ?_
      exact Chg.refl _ _
    · refine ChgR.ite ?_ ?_
      · split
        · refine ChgR.next ?_
          refine Chg.step (State.setAct_chg _ _) rfl ?_
          refine Chg.step (State.fieldFwLate_chg _) rfl ?_
          exact Chg.refl _ _
        · refine ChgR.next ?_
          refine Chg.step (State.fwRolledBack_chg _ _) rfl ?_
          refine Chg.step (State.fieldFwLate_chg _) rfl ?_
          exact Chg.refl _ _
        · refine ChgR.next ?_
          refine Chg.step (State.fwRolledBack_chg _ _) rfl ?_
          exact Chg.refl _ _
      · refine ChgR.ite ?_ ?_
        · refine ChgR.next ?_
          exact Chg.refl _ _
        · refine ChgR.next ?_
          refine Chg.step (State.actBack_chg _ _ _) rfl ?_
          exact Chg.refl _ _


theorem execFwHoldTimeout_chg (x0 : State) :
    ChgR 0x800022080400008 x0 (execFwHoldTimeout x0) := by
  unfold execFwHoldTimeout
  split
  · refine ChgR.next ?_
    exact Chg.refl _ _
  · refine ChgR.ite ?_ ?_
    · refine ChgR.next ?_
      exact Chg.refl _ _
    · refine ChgR.next ?_
      refine Chg.step (State.actBack_chg _ _ _) rfl ?_
      exact Chg.refl _ _


theorem execFwCommit_chg (x0 : Sys2Proof.MgtMsg) (x1 : State) :
    ChgR 0x800022080400908 x1 (execFwCommit x0 x1) := by
  unfold execFwCommit
  refine State.mgtRun_chg rfl ?_ ?_
  · exact Chg.refl _ _
  · intro u1 u2 u3
    extract_lets w4
    clear_value w4
    refine Chg.ite ?_ ?_
    · refine Chg.step (State.answer_chg _ _ _ _ _ _) rfl ?_
      assumption
    · split
      · refine Chg.step (State.answer_chg _ _ _ _ _ _) rfl ?_
        assumption
      · refine Chg.step (State.answer_chg _ _ _ _ _ _) rfl ?_
        refine Chg.step (State.fwCommit_chg _ _) rfl ?_
        refine Chg.ite ?_ ?_
        · refine Chg.step (State.fwTell_chg _ _) rfl ?_
          assumption
        · assumption


theorem execFwRollback_chg (x0 : Sys2Proof.MgtMsg) (x1 : State) :
    ChgR 0x800022080400808 x1 (execFwRollback x0 x1) := by
  unfold execFwRollback
  refine State.mgtRun_chg rfl ?_ ?_
  · exact Chg.refl _ _
  · intro u1 u2 u3
    extract_lets w4
    clear_value w4
    refine Chg.ite ?_ ?_
    · refine Chg.step (State.answer_chg _ _ _ _ _ _) rfl ?_
      assumption
    · split
      · refine Chg.step (State.answer_chg _ _ _ _ _ _) rfl ?_
        assumption
      · refine Chg.step (State.actBack_chg _ _ _) rfl ?_
        assumption


theorem State.ringTake_chg (x0 : State) (x1 : Nat) (x2 : Nat) (x3 : List Nat) (x4 : List Nat) :
    Chg 0xc020008c00f08 x0 (State.ringTake x0 x1 x2 x3 x4) := by
  unfold State.ringTake
  extract_lets w1 w2 t3 w4 w5
  clear_value w1
  clear_value w2
  have ht3 : Chg 0xc020008c00f08 x0 t3 := by
    unfold t3
    refine Chg.step (State.fset_chg _ _ _ _) rfl ?_
    exact Chg.refl _ _
  clear_value t3
  clear_value w4
  clear_value w5
  refine Chg.step (State.descArrive_chg _ _ _ _) rfl ?_
  refine Chg.step (State.setRing_chg _ _ _) rfl ?_
  assumption


theorem execRingCmd_chg (x0 : Sys2Proof.MgtMsg) (x1 : State) :
    ChgR 0xc020008c00f08 x1 (execRingCmd x0 x1) := by
  unfold execRingCmd
  extract_lets w1 w2 w3
  clear_value w1
  clear_value w2
  clear_value w3
  refine State.mgtRun_chg rfl ?_ ?_
  · exact Chg.refl _ _
  · intro u4 u5 u6
    refine Chg.ite ?_ ?_
    · refine Chg.step (State.answer_chg _ _ _ _ _ _) rfl ?_
      assumption
    · refine Chg.ite ?_ ?_
      · refine Chg.step (State.answer_chg _ _ _ _ _ _) rfl ?_
        assumption
      · refine Chg.ite ?_ ?_
        · refine Chg.step (State.answer_chg _ _ _ _ _ _) rfl ?_
          assumption
        · refine Chg.ite ?_ ?_
          · refine Chg.step (State.answer_chg _ _ _ _ _ _) rfl ?_
            assumption
          · refine Chg.step (State.ringTake_chg _ _ _ _ _) rfl ?_
            assumption


theorem execKeepCmd_chg (x0 : Sys2Proof.MgtMsg) (x1 : State) :
    ChgR 0xf3aea38cbffff0c x1 (execKeepCmd x0 x1) := by
  unfold execKeepCmd
  extract_lets w1 w2
  clear_value w1
  clear_value w2
  refine State.mgtRun_chg rfl ?_ ?_
  · exact Chg.refl _ _
  · intro u3 u4 u5
    refine Chg.ite ?_ ?_
    · refine Chg.step (State.answer_chg _ _ _ _ _ _) rfl ?_
      assumption
    · refine Chg.ite ?_ ?_
      · refine Chg.step (State.answer_chg _ _ _ _ _ _) rfl ?_
        assumption
      · refine Chg.step (State.keepTake_chg _ _) rfl ?_
        assumption


theorem execUnitRetire_chg (x0 : Sys2Proof.MgtMsg) (x1 : State) :
    ChgR 0x4004a1040404908 x1 (execUnitRetire x0 x1) := by
  unfold execUnitRetire
  refine State.mgtRun_chg rfl ?_ ?_
  · exact Chg.refl _ _
  · intro u1 u2 u3
    extract_lets w4 w5 w6 t7
    clear_value w4
    clear_value w5
    clear_value w6
    have ht7 : Chg 0x4004a1040404908 x1 t7 := by
      unfold t7
      refine Chg.step (State.fset_chg _ _ _ _) rfl ?_
      assumption
    clear_value t7
    refine Chg.ite ?_ ?_
    · refine Chg.step (State.answer_chg _ _ _ _ _ _) rfl ?_
      assumption
    · refine Chg.ite ?_ ?_
      · refine Chg.step (State.answer_chg _ _ _ _ _ _) rfl ?_
        assumption
      · refine Chg.ite ?_ ?_
        · refine Chg.step (State.answer_chg _ _ _ _ _ _) rfl ?_
          assumption
        · refine Chg.step (State.answer_chg _ _ _ _ _ _) rfl ?_
          refine Chg.step (State.retire_chg _ _ _) rfl ?_
          assumption


theorem execUnitRetest_chg (x0 : Sys2Proof.MgtMsg) (x1 : State) :
    ChgR 0xa0000400808 x1 (execUnitRetest x0 x1) := by
  unfold execUnitRetest
  refine State.mgtRun_chg rfl ?_ ?_
  · exact Chg.refl _ _
  · intro u1 u2 u3
    extract_lets w4 w5 w6 w7 w8 w9 t10
    clear_value w4
    clear_value w5
    clear_value w6
    clear_value w7
    clear_value w8
    clear_value w9
    have ht10 : Chg 0xa0000400808 x1 t10 := by
      unfold t10
      refine Chg.upd_mgmt rfl ?_
      assumption
    clear_value t10
    refine Chg.ite ?_ ?_
    · refine Chg.step (State.answer_chg _ _ _ _ _ _) rfl ?_
      assumption
    · refine Chg.ite ?_ ?_
      · refine Chg.step (State.answer_chg _ _ _ _ _ _) rfl ?_
        assumption
      · refine Chg.ite ?_ ?_
        · refine Chg.step (State.answer_chg _ _ _ _ _ _) rfl ?_
          assumption
        · refine Chg.step (State.answer_chg _ _ _ _ _ _) rfl ?_
          refine Chg.ite ?_ ?_
          · refine Chg.step (State.fset_chg _ _ _ _) rfl ?_
            assumption
          · assumption


theorem State.unitBack_chg (x0 : State) (x1 : Nat) :
    Chg 0x400021000400908 x0 (State.unitBack x0 x1) := by
  unfold State.unitBack
  extract_lets t1 t2 t3 w4 t5
  have ht1 : Chg 0x400021000400908 x0 t1 := by
    unfold t1
    refine Chg.step (State.fset_chg _ _ _ _) rfl ?_
    exact Chg.refl _ _
  clear_value t1
  have ht2 : Chg 0x400021000400908 x0 t2 := by
    unfold t2
    refine Chg.step (State.fset_chg _ _ _ _) rfl ?_
    assumption
  clear_value t2
  have ht3 : Chg 0x400021000400908 x0 t3 := by
    unfold t3
    refine Chg.step (State.fset_chg _ _ _ _) rfl ?_
    assumption
  clear_value t3
  clear_value w4
  have ht5 : Chg 0x400021000400908 x0 t5 := by
    unfold t5
    refine Chg.ite ?_ ?_
    · refine Chg.upd_rel rfl ?_
      assumption
    · assumption
  clear_value t5
  refine Chg.step (State.log_chg _ _) rfl ?_
  assumption


theorem State.coreBack_chg (x0 : State) (x1 : Nat) :
    Chg 0xc00ea30405fdf0c x0 (State.coreBack x0 x1) := by
  unfold State.coreBack
  extract_lets w1 t2 t3
  clear_value w1
  have ht2 : Chg 0xc00ea30405fdf0c x0 t2 := by
    unfold t2
    refine Chg.foldl ?_ ?_
    · intro u4 u5 u6
      refine Chg.step (State.unitBack_chg _ _) rfl ?_
      assumption
    · refine Chg.step (State.unitBack_chg _ _) rfl ?_
      exact Chg.refl _ _
  clear_value t2
  have ht3 : Chg 0xc00ea30405fdf0c x0 t3 := by
    unfold t3
    refine Chg.foldl ?_ ?_
    · intro u7 u8 u9
      refine Chg.step (State.startupEngine_chg _ _ _) rfl ?_
      assumption
    · assumption
  clear_value t3
  refine Chg.step (State.retarget_chg _) rfl ?_
  refine Chg.step (State.designate_chg _) rfl ?_
  refine Chg.step (State.fset_chg _ _ _ _) rfl ?_
  refine Chg.step (State.fset_chg _ _ _ _) rfl ?_
  assumption


theorem execRetestDone_chg (x0 : Bool) (x1 : State) :
    ChgR 0xc00ea30405fdf0c x1 (execRetestDone x0 x1) := by
  unfold execRetestDone
  split
  · refine ChgR.next ?_
    exact Chg.refl _ _
  · extract_lets w1 t2 w3 w4
    clear_value w1
    have ht2 : Chg 0xc00ea30405fdf0c x1 t2 := by
      unfold t2
      refine Chg.upd_mgmt rfl ?_
      exact Chg.refl _ _
    clear_value t2
    clear_value w3
    clear_value w4
    refine ChgR.ite ?_ ?_
    · refine ChgR.next ?_
      refine Chg.step (State.log_chg _ _) rfl ?_
      refine Chg.ite ?_ ?_
      · refine Chg.step (State.coreBack_chg _ _) rfl ?_
        assumption
      · refine Chg.step (State.unitBack_chg _ _) rfl ?_
        assumption
    · refine ChgR.next ?_
      refine Chg.step (State.log_chg _ _) rfl ?_
      refine Chg.ite ?_ ?_
      · refine Chg.step (State.fset_chg _ _ _ _) rfl ?_
        assumption
      · assumption


theorem execUnitRecal_chg (x0 : Sys2Proof.MgtMsg) (x1 : State) :
    ChgR 0x20000401808 x1 (execUnitRecal x0 x1) := by
  unfold execUnitRecal
  refine State.mgtRun_chg rfl ?_ ?_
  · exact Chg.refl _ _
  · intro u1 u2 u3
    extract_lets w4
    clear_value w4
    refine Chg.ite ?_ ?_
    · refine Chg.step (State.answer_chg _ _ _ _ _ _) rfl ?_
      assumption
    · refine Chg.step (State.answer_chg _ _ _ _ _ _) rfl ?_
      refine Chg.foldl ?_ ?_
      · intro u5 u6 u7
        refine State.run_chg ?_ ?_
        · assumption
        · refine ChgR.step (execRstCalPass_chg _ _) rfl ?_
          assumption
      · assumption


theorem State.repairFrom_chg (x0 : State) (x1 : Model) (x2 : Nat) :
    Chg 0x1000040000 x0 (State.repairFrom x0 x1 x2) := by
  unfold State.repairFrom
  extract_lets t1 w2 w3 w4
  have ht1 : Chg 0x1000040000 x0 t1 := by
    unfold t1
    refine Chg.step (State.setModel_chg _ _) rfl ?_
    exact Chg.refl _ _
  clear_value t1
  clear_value w3
  clear_value w4
  refine Chg.upd_rel rfl ?_
  assumption


theorem execRepair_chg (x0 : Sys2Proof.MgtMsg) (x1 : State) :
    ChgR 0x21000440808 x1 (execRepair x0 x1) := by
  unfold execRepair
  refine State.mgtRun_chg rfl ?_ ?_
  · exact Chg.refl _ _
  · intro u1 u2 u3
    extract_lets w4 w5 w6
    clear_value w4
    clear_value w5
    clear_value w6
    refine Chg.ite ?_ ?_
    · refine Chg.step (State.answer_chg _ _ _ _ _ _) rfl ?_
      assumption
    · split
      · refine Chg.step (State.answer_chg _ _ _ _ _ _) rfl ?_
        assumption
      · refine Chg.ite ?_ ?_
        · refine Chg.step (State.answer_chg _ _ _ _ _ _) rfl ?_
          refine Chg.step (State.repairFrom_chg _ _ _) rfl ?_
          assumption
        · refine Chg.step (State.answer_chg _ _ _ _ _ _) rfl ?_
          assumption


theorem State.partWrite_chg (x0 : State) (x1 : Nat) (x2 : List Nat) :
    Chg 0x3ffffff0000000018 x0 (State.partWrite x0 x1 x2) := by
  unfold State.partWrite
  refine Chg.foldl ?_ ?_
  · intro u1 u2 u3
    refine Chg.step (State.writeReg_chg _ _ _ _) rfl ?_
    assumption
  · exact Chg.refl _ _


theorem State.committed_chg {m : Nat} {s t : State} {ok : Bool} {f : State → State} (k : Chg m s (f t)) :
    ChgO m s (t.committed ok f) := by
  unfold State.committed
  exact ChgO.ite (ChgO.some k) ChgO.none

theorem State.importLanes_chg (x0 : State) (x1 : List Nat) :
    ChgO 0x3ffffff0180600918 x0 (State.importLanes x0 x1) := by
  unfold State.importLanes
  extract_lets t1 w2 w3 t4
  have ht1 : Chg 0x3ffffff0180600918 x0 t1 := by
    unfold t1
    refine Chg.step (State.partWrite_chg _ _ _) rfl ?_
    exact Chg.refl _ _
  clear_value t1
  clear_value w2
  clear_value w3
  have ht4 : Chg 0x3ffffff0180600918 x0 t4 := by
    unfold t4
    refine Chg.upd_bar rfl ?_
    assumption
  clear_value t4
  refine ChgO.ite ?_ ?_
  · exact ChgO.none
  · refine ChgO.some ?_
    refine Chg.step (State.fieldRefresh_chg _) rfl ?_
    refine Chg.foldl ?_ ?_
    · intro u5 u6 u7
      refine Chg.step (State.suspend_chg _ _ _ _) rfl ?_
      assumption
    · assumption


theorem State.importPolicy_chg (x0 : State) (x1 : List Nat) :
    ChgO 0x3ffffff0100000018 x0 (State.importPolicy x0 x1) := by
  unfold State.importPolicy
  extract_lets t1 w2
  have ht1 : Chg 0x3ffffff0100000018 x0 t1 := by
    unfold t1
    refine Chg.step (State.partWrite_chg _ _ _) rfl ?_
    exact Chg.refl _ _
  clear_value t1
  clear_value w2
  refine ChgO.ite ?_ ?_
  · exact ChgO.none
  · refine State.committed_chg ?_
    refine Chg.step (State.fldCommit_chg _ _) rfl ?_
    assumption


theorem State.importAdc_chg (x0 : State) (x1 : List Nat) :
    ChgO 0x3ffffff0100000018 x0 (State.importAdc x0 x1) := by
  unfold State.importAdc
  extract_lets t1
  have ht1 : Chg 0x3ffffff0100000018 x0 t1 := by
    unfold t1
    refine Chg.step (State.partWrite_chg _ _ _) rfl ?_
    exact Chg.refl _ _
  clear_value t1
  refine ChgO.ite ?_ ?_
  · exact ChgO.none
  · refine State.committed_chg ?_
    refine Chg.step (State.adcCommit_chg _) rfl ?_
    assumption


theorem State.importDac_chg (x0 : State) (x1 : List Nat) :
    ChgO 0x3ffffff0100000018 x0 (State.importDac x0 x1) := by
  unfold State.importDac
  extract_lets t1
  have ht1 : Chg 0x3ffffff0100000018 x0 t1 := by
    unfold t1
    refine Chg.step (State.partWrite_chg _ _ _) rfl ?_
    exact Chg.refl _ _
  clear_value t1
  refine ChgO.ite ?_ ?_
  · exact ChgO.none
  · refine State.committed_chg ?_
    refine Chg.step (State.dacCommit_chg _ _) rfl ?_
    assumption


theorem State.importTopo_chg (x0 : State) (x1 : List Nat) :
    ChgO 0x3ffffff0000000018 x0 (State.importTopo x0 x1) := by
  unfold State.importTopo
  extract_lets w1 t2 w3
  clear_value w1
  have ht2 : Chg 0x3ffffff0000000018 x0 t2 := by
    unfold t2
    refine Chg.step (State.partWrite_chg _ _ _) rfl ?_
    exact Chg.refl _ _
  clear_value t2
  clear_value w3
  refine ChgO.ite ?_ ?_
  · exact ChgO.none
  · refine State.committed_chg ?_
    refine State.applyAll_chg rfl ?_
    assumption


theorem State.importRel_chg (x0 : State) (x1 : List Nat) :
    ChgO 0x3ffffff0000400918 x0 (State.importRel x0 x1) := by
  unfold State.importRel
  extract_lets t1 w2 w3 w4
  have ht1 : Chg 0x3ffffff0000400918 x0 t1 := by
    unfold t1
    refine Chg.step (State.partWrite_chg _ _ _) rfl ?_
    exact Chg.refl _ _
  clear_value t1
  clear_value w2
  clear_value w3
  clear_value w4
  refine State.committed_chg ?_
  refine State.run_chg ?_ ?_
  · assumption
  · refine ChgR.step (execRelCommit_chg _) rfl ?_
    assumption


theorem State.importPeriod_chg (x0 : State) (x1 : List Nat) :
    ChgO 0x3ffffff0000400918 x0 (State.importPeriod x0 x1) := by
  unfold State.importPeriod
  extract_lets w1 w2 w3 w4
  clear_value w1
  clear_value w2
  clear_value w3
  clear_value w4
  refine State.committed_chg ?_
  refine Chg.foldl ?_ ?_
  · intro u5 u6 u7
    refine State.run_chg ?_ ?_
    · refine Chg.step (State.writeReg_chg _ _ _ _) rfl ?_
      assumption
    · refine ChgR.step (execRstCommit_chg _ _) rfl ?_
      refine Chg.step (State.writeReg_chg _ _ _ _) rfl ?_
      assumption
  · exact Chg.refl _ _


theorem State.importPart_chg (x0 : State) (x1 : Nat) (x2 : List Nat) :
    ChgO 0x3ffffff0180600918 x0 (State.importPart x0 x1 x2) := by
  unfold State.importPart
  split
  · refine ChgO.step (State.importLanes_chg _ _) rfl ?_
    exact Chg.refl _ _
  · refine ChgO.ite ?_ ?_
    · exact ChgO.none
    · refine ChgO.some ?_
      refine Chg.step (State.fieldRefresh_chg _) rfl ?_
      refine Chg.step (State.partWrite_chg _ _ _) rfl ?_
      exact Chg.refl _ _
  · refine ChgO.step (State.importPolicy_chg _ _) rfl ?_
    exact Chg.refl _ _
  · refine ChgO.step (State.importAdc_chg _ _) rfl ?_
    exact Chg.refl _ _
  · refine ChgO.step (State.importDac_chg _ _) rfl ?_
    exact Chg.refl _ _
  · refine ChgO.step (State.importTopo_chg _ _) rfl ?_
    exact Chg.refl _ _
  · extract_lets w1
    clear_value w1
    refine State.committed_chg ?_
    extract_lets w2
    clear_value w2
    refine Chg.upd_mgmt rfl ?_
    exact Chg.refl _ _
  · extract_lets t3 w4
    have ht3 : Chg 0x3ffffff0180600918 x0 t3 := by
      unfold t3
      refine Chg.step (State.partWrite_chg _ _ _) rfl ?_
      exact Chg.refl _ _
    clear_value t3
    clear_value w4
    refine State.committed_chg ?_
    refine State.run_chg ?_ ?_
    · assumption
    · refine ChgR.step (execKeepCommit_chg _) rfl ?_
      assumption
  · refine ChgO.step (State.importRel_chg _ _) rfl ?_
    exact Chg.refl _ _
  · refine ChgO.step (State.importPeriod_chg _ _) rfl ?_
    exact Chg.refl _ _
  · extract_lets w5
    clear_value w5
    refine State.committed_chg ?_
    extract_lets w6
    clear_value w6
    refine Chg.upd_mgmt rfl ?_
    exact Chg.refl _ _


theorem execConfigExport_chg (x0 : Sys2Proof.MgtMsg) (x1 : State) :
    ChgR 0x20000400808 x1 (execConfigExport x0 x1) := by
  unfold execConfigExport
  refine State.mgtRun_chg rfl ?_ ?_
  · exact Chg.refl _ _
  · intro u1 u2 u3
    refine Chg.step (State.answer_chg _ _ _ _ _ _) rfl ?_
    assumption


theorem State.configApply_chg (x0 : State) (x1 : List Nat) :
    Chg 0x3ffffff0180600918 x0 (State.configApply x0 x1).1 := by
  unfold State.configApply
  refine Chg.foldl_fst ?_ ?_
  · intro u1 u2 u3
    split
    · refine Chg.fst_mk ?_
      refine ChgO.app ?_ (by assumption)
      refine ChgO.step (State.importPart_chg _ _ _) rfl ?_
      assumption
    · refine Chg.fst_mk ?_
      assumption
  · refine Chg.fst_mk ?_
    exact Chg.refl _ _


theorem execConfigImport_chg (x0 : Sys2Proof.MgtMsg) (x1 : State) :
    ChgR 0x3ffffff0180600918 x1 (execConfigImport x0 x1) := by
  unfold execConfigImport
  extract_lets w1
  clear_value w1
  refine State.mgtRun_chg rfl ?_ ?_
  · exact Chg.refl _ _
  · intro u2 u3 u4
    extract_lets t5
    have ht5 : Chg 0x3ffffff0180600918 x1 t5.1 := by
      unfold t5
      refine Chg.step (State.configApply_chg _ _) rfl ?_
      assumption
    clear_value t5
    refine Chg.ite ?_ ?_
    · refine Chg.step (State.answer_chg _ _ _ _ _ _) rfl ?_
      assumption
    · refine Chg.step (State.answer_chg _ _ _ _ _ _) rfl ?_
      refine Chg.step (State.log_chg _ _) rfl ?_
      assumption


theorem State.notifyDue_chg (x0 : State) :
    Chg 0x8400800 x0 (State.notifyDue x0) := by
  unfold State.notifyDue
  extract_lets w1
  clear_value w1
  refine Chg.ite ?_ ?_
  · refine Chg.step (State.sendMsix_chg _ _ _) rfl ?_
    refine Chg.upd_mgmt rfl ?_
    exact Chg.refl _ _
  · exact Chg.refl _ _


theorem State.headsDue_chg (x0 : State) :
    Chg 0x800800 x0 (State.headsDue x0) := by
  unfold State.headsDue
  refine Chg.foldl ?_ ?_
  · intro u1 u2 u3
    refine Chg.step (State.headWriteback_chg _ _) rfl ?_
    assumption
  · exact Chg.refl _ _


theorem State.tick_chg (x0 : State) :
    Chg 0x40800207c8c80f0a x0 (State.tick x0) := by
  unfold State.tick
  extract_lets t1 t2 t3
  have ht1 : Chg 0x40800207c8c80f0a x0 t1 := by
    unfold t1
    refine Chg.upd_ns rfl ?_
    exact Chg.refl _ _
  clear_value t1
  have ht2 : Chg 0x40800207c8c80f0a x0 t2 := by
    unfold t2
    refine Chg.ite ?_ ?_
    · refine Chg.step (State.headsDue_chg _) rfl ?_
      refine Chg.step (State.notifyDue_chg _) rfl ?_
      refine Chg.step (State.logDue_chg _) rfl ?_
      assumption
    · assumption
  clear_value t2
  have ht3 : Chg 0x40800207c8c80f0a x0 t3 := by
    unfold t3
    refine Chg.ite ?_ ?_
    · refine Chg.step (State.aospFlush_chg _) rfl ?_
      refine Chg.step (State.canopyTick_chg _) rfl ?_
      assumption
    · assumption
  clear_value t3
  refine Chg.step (State.fieldEventsDue_chg _) rfl ?_
  assumption


end Sys2Proof.Machine
end

