-- ==== Sys2Proof/Laws/Parts.lean ====
section
/-! SUPPORT. The frames of Laws/Frame.lean in the words of Safety.lean: from a frame by numbers to `ChangesOnly`. -/

namespace Sys2Proof.Machine

/-- The number of a register block in a frame. -/
def blockNum : RegBlock → Nat
  | .glb => 0
  | .mgt => 1
  | .thm => 2
  | .core => 3
  | .epi => 4
  | .seq => 5
  | .rst => 6
  | .eng => 7
  | .fab => 8
  | .mem => 9
  | .hif => 10
  | .ring => 11
  | .adm => 12
  | .ctx => 13
  | .item => 14
  | .cnp => 15
  | .sync => 16
  | .syncCtl => 17
  | .rel => 18
  | .keep => 19
  | .hk => 20
  | .gw => 21
  | .fld => 22
  | .fadc => 23
  | .fdac => 24
  | .vf => 25

/-- The bit of a part in a frame. -/
def partNum : StatePart → Nat
  | .regs b => 40 + blockNum b
  | .free => 2
  | .staged => 4
  | .latch => 5
  | .lowHeld => 6
  | .readData => 7
  | .events => 8
  | .lastLog => 9
  | .heldLog => 10
  | .out => 11
  | .engines => 12
  | .tiles => 13
  | .rst => 14
  | .cores => 15
  | .seqs => 16
  | .sram => 17
  | .models => 18
  | .fab => 19
  | .dram => 20
  | .items => 21
  | .mgmt => 22
  | .rings => 23
  | .reads => 24
  | .nextTag => 25
  | .msix => 26
  | .msixPending => 27
  | .busMaster => 28
  | .ats => 29
  | .lanes => 30
  | .bar => 31
  | .field => 32
  | .hk => 33
  | .cnp => 34
  | .sync => 35
  | .rel => 36
  | .keep => 37
  | .power => 38
  | .bootNs => 39

/-- The number of a block is the one that frames use. -/
theorem blockNum_of (r : Nat) : blockNum (RegBlock.of r) = regBlk r := by
  unfold RegBlock.of
  by_cases h0 : r < 0x10000
  · rw [if_pos h0]
    unfold regBlk
    simp only [Bool.cond_eq_ite, Nat.blt_eq]
    rw [if_pos (by omega), if_pos (by omega), if_pos (by omega), if_pos (by omega)]
    rfl
  rw [if_neg h0]
  by_cases h1 : r < 0x20000
  · rw [if_pos h1]
    unfold regBlk
    simp only [Bool.cond_eq_ite, Nat.blt_eq]
    rw [if_pos (by omega), if_pos (by omega), if_pos (by omega), if_neg (by omega)]
    rfl
  rw [if_neg h1]
  by_cases h2 : r < 0x100000
  · rw [if_pos h2]
    unfold regBlk
    simp only [Bool.cond_eq_ite, Nat.blt_eq]
    rw [if_pos (by omega), if_pos (by omega), if_neg (by omega), if_pos (by omega)]
    rfl
  rw [if_neg h2]
  by_cases h3 : r < 0x100800
  · rw [if_pos h3]
    unfold regBlk
    simp only [Bool.cond_eq_ite, Nat.blt_eq]
    rw [if_pos (by omega), if_pos (by omega), if_neg (by omega), if_neg (by omega), if_pos (by omega)]
    rfl
  rw [if_neg h3]
  by_cases h4 : r < 0x101000
  · rw [if_pos h4]
    unfold regBlk
    simp only [Bool.cond_eq_ite, Nat.blt_eq]
    rw [if_pos (by omega), if_pos (by omega), if_neg (by omega), if_neg (by omega), if_neg (by omega)]
    rfl
  rw [if_neg h4]
  by_cases h5 : r < 0x102000
  · rw [if_pos h5]
    unfold regBlk
    simp only [Bool.cond_eq_ite, Nat.blt_eq]
    rw [if_pos (by omega), if_neg (by omega), if_pos (by omega), if_pos (by omega)]
    rfl
  rw [if_neg h5]
  by_cases h6 : r < 0x104000
  · rw [if_pos h6]
    unfold regBlk
    simp only [Bool.cond_eq_ite, Nat.blt_eq]
    rw [if_pos (by omega), if_neg (by omega), if_pos (by omega), if_neg (by omega), if_pos (by omega)]
    rfl
  rw [if_neg h6]
  by_cases h7 : r < 0x300000
  · rw [if_pos h7]
    unfold regBlk
    simp only [Bool.cond_eq_ite, Nat.blt_eq]
    rw [if_pos (by omega), if_neg (by omega), if_pos (by omega), if_neg (by omega), if_neg (by omega)]
    rfl
  rw [if_neg h7]
  by_cases h8 : r < 0x400000
  · rw [if_pos h8]
    unfold regBlk
    simp only [Bool.cond_eq_ite, Nat.blt_eq]
    rw [if_pos (by omega), if_neg (by omega), if_neg (by omega), if_pos (by omega), if_pos (by omega)]
    rfl
  rw [if_neg h8]
  by_cases h9 : r < 0x500000
  · rw [if_pos h9]
    unfold regBlk
    simp only [Bool.cond_eq_ite, Nat.blt_eq]
    rw [if_pos (by omega), if_neg (by omega), if_neg (by omega), if_pos (by omega), if_neg (by omega)]
    rfl
  rw [if_neg h9]
  by_cases h10 : r < 0x501000
  · rw [if_pos h10]
    unfold regBlk
    simp only [Bool.cond_eq_ite, Nat.blt_eq]
    rw [if_pos (by omega), if_neg (by omega), if_neg (by omega), if_neg (by omega), if_pos (by omega)]
    rfl
  rw [if_neg h10]
  by_cases h11 : r < 0x600000
  · rw [if_pos h11]
    unfold regBlk
    simp only [Bool.cond_eq_ite, Nat.blt_eq]
    rw [if_pos (by omega), if_neg (by omega), if_neg (by omega), if_neg (by omega), if_neg (by omega)]
    rfl
  rw [if_neg h11]
  by_cases h12 : r < 0x601000
  · rw [if_pos h12]
    unfold regBlk
    simp only [Bool.cond_eq_ite, Nat.blt_eq]
    rw [if_neg (by omega), if_pos (by omega), if_pos (by omega), if_pos (by omega)]
    rfl
  rw [if_neg h12]
  by_cases h13 : r < 0x602000
  · rw [if_pos h13]
    unfold regBlk
    simp only [Bool.cond_eq_ite, Nat.blt_eq]
    rw [if_neg (by omega), if_pos (by omega), if_pos (by omega), if_neg (by omega), if_pos (by omega)]
    rfl
  rw [if_neg h13]
  by_cases h14 : r < 0x700000
  · rw [if_pos h14]
    unfold regBlk
    simp only [Bool.cond_eq_ite, Nat.blt_eq]
    rw [if_neg (by omega), if_pos (by omega), if_pos (by omega), if_neg (by omega), if_neg (by omega)]
    rfl
  rw [if_neg h14]
  by_cases h15 : r < 0x800000
  · rw [if_pos h15]
    unfold regBlk
    simp only [Bool.cond_eq_ite, Nat.blt_eq]
    rw [if_neg (by omega), if_pos (by omega), if_neg (by omega), if_pos (by omega)]
    rfl
  rw [if_neg h15]
  by_cases h16 : r < 0x900000
  · rw [if_pos h16]
    unfold regBlk
    simp only [Bool.cond_eq_ite, Nat.blt_eq]
    rw [if_neg (by omega), if_pos (by omega), if_neg (by omega), if_neg (by omega), if_pos (by omega)]
    rfl
  rw [if_neg h16]
  by_cases h17 : r < 0xA00000
  · rw [if_pos h17]
    unfold regBlk
    simp only [Bool.cond_eq_ite, Nat.blt_eq]
    rw [if_neg (by omega), if_pos (by omega), if_neg (by omega), if_neg (by omega), if_neg (by omega)]
    rfl
  rw [if_neg h17]
  by_cases h18 : r < 0xB00000
  · rw [if_pos h18]
    unfold regBlk
    simp only [Bool.cond_eq_ite, Nat.blt_eq]
    rw [if_neg (by omega), if_neg (by omega), if_pos (by omega), if_pos (by omega), if_pos (by omega)]
    rfl
  rw [if_neg h18]
  by_cases h19 : r < 0xC00000
  · rw [if_pos h19]
    unfold regBlk
    simp only [Bool.cond_eq_ite, Nat.blt_eq]
    rw [if_neg (by omega), if_neg (by omega), if_pos (by omega), if_pos (by omega), if_neg (by omega)]
    rfl
  rw [if_neg h19]
  by_cases h20 : r < 0xD00000
  · rw [if_pos h20]
    unfold regBlk
    simp only [Bool.cond_eq_ite, Nat.blt_eq]
    rw [if_neg (by omega), if_neg (by omega), if_pos (by omega), if_neg (by omega), if_pos (by omega)]
    rfl
  rw [if_neg h20]
  by_cases h21 : r < 0xD10000
  · rw [if_pos h21]
    unfold regBlk
    simp only [Bool.cond_eq_ite, Nat.blt_eq]
    rw [if_neg (by omega), if_neg (by omega), if_pos (by omega), if_neg (by omega), if_neg (by omega)]
    rfl
  rw [if_neg h21]
  by_cases h22 : r < 0xD11000
  · rw [if_pos h22]
    unfold regBlk
    simp only [Bool.cond_eq_ite, Nat.blt_eq]
    rw [if_neg (by omega), if_neg (by omega), if_neg (by omega), if_pos (by omega), if_pos (by omega)]
    rfl
  rw [if_neg h22]
  by_cases h23 : r < 0xD12000
  · rw [if_pos h23]
    unfold regBlk
    simp only [Bool.cond_eq_ite, Nat.blt_eq]
    rw [if_neg (by omega), if_neg (by omega), if_neg (by omega), if_pos (by omega), if_neg (by omega)]
    rfl
  rw [if_neg h23]
  by_cases h24 : r < 0xD20000
  · rw [if_pos h24]
    unfold regBlk
    simp only [Bool.cond_eq_ite, Nat.blt_eq]
    rw [if_neg (by omega), if_neg (by omega), if_neg (by omega), if_neg (by omega), if_pos (by omega)]
    rfl
  rw [if_neg h24]
  unfold regBlk
  simp only [Bool.cond_eq_ite, Nat.blt_eq]
  rw [if_neg (by omega), if_neg (by omega), if_neg (by omega), if_neg (by omega), if_neg (by omega)]
  rfl

theorem partNum_inj {p q : StatePart} (h : partNum p = partNum q) : p = q := by
  cases p with
  | regs b => cases q with
    | regs c => cases b <;> cases c <;> first | rfl | (simp only [partNum, blockNum] at h; omega)
    | _ => cases b <;> simp only [partNum, blockNum] at h <;> omega
  | _ => cases q with
    | regs c => cases c <;> simp only [partNum, blockNum] at h <;> omega
    | _ => first | rfl | (simp only [partNum] at h; omega)

/-- The bits of some parts, with that of the register fields as a whole. -/
def maskOf (ps : List StatePart) : Nat := ps.foldr (fun p m => 2 ^ partNum p ||| m) 8

theorem maskOf_bit {ps : List StatePart} {k : Nat} (h : (maskOf ps).testBit k = true) :
    k = 3 ∨ ∃ p ∈ ps, partNum p = k := by
  induction ps with
  | nil =>
    left
    simp only [maskOf, List.foldr] at h
    rw [show (8 : Nat) = 2 ^ 3 from rfl, Nat.testBit_two_pow] at h
    simpa using (of_decide_eq_true h).symm
  | cons p r ih =>
    simp only [maskOf, List.foldr] at h ih
    rw [Nat.testBit_or, Bool.or_eq_true] at h
    rcases h with h | h
    · rw [Nat.testBit_two_pow] at h
      exact Or.inr ⟨p, List.mem_cons_self, of_decide_eq_true h⟩
    · rcases ih h with h | ⟨q, hq, h⟩
      · exact Or.inl h
      · exact Or.inr ⟨q, List.mem_cons_of_mem _ hq, h⟩

theorem maskOf_part {ps : List StatePart} {p : StatePart} {α : Type} {a b : α}
    (h : (maskOf ps).testBit (partNum p) = true ∨ a = b) (h3 : partNum p ≠ 3) (hp : p ∉ ps) : a = b := by
  rcases h with h | h
  · rcases maskOf_bit h with h | ⟨q, hq, h⟩
    · exact absurd h h3
    · exact absurd (partNum_inj h ▸ hq) hp
  · exact h

/-- A frame by numbers says what changes in words. -/
theorem changesOnly_of_chg {m : Nat} {ps : List StatePart} {s t : State} (h0 : Chg m s t) (hs : Sub m (maskOf ps) = true)
    (p0 : (maskOf ps).testBit 0 = false) (p1 : (maskOf ps).testBit 1 = false) : ChangesOnly ps s t := by
  have h : Chg (maskOf ps) s t := Chg.step h0 hs (Chg.refl _ _)
  refine ⟨h.pending.resolve_left (by simp [p0]), h.ns.resolve_left (by simp [p1]), ?_,
    maskOf_part (p := .free) h.free (by decide),
    maskOf_part (p := .staged) h.staged (by decide),
    maskOf_part (p := .latch) h.latch (by decide),
    maskOf_part (p := .lowHeld) h.lowHeld (by decide),
    maskOf_part (p := .readData) h.readData (by decide),
    maskOf_part (p := .events) h.events (by decide),
    maskOf_part (p := .lastLog) h.lastLog (by decide),
    maskOf_part (p := .heldLog) h.heldLog (by decide),
    maskOf_part (p := .out) h.out (by decide),
    maskOf_part (p := .engines) h.engines (by decide),
    maskOf_part (p := .tiles) h.tiles (by decide),
    maskOf_part (p := .rst) h.rst (by decide),
    maskOf_part (p := .cores) h.cores (by decide),
    maskOf_part (p := .seqs) h.seqs (by decide),
    maskOf_part (p := .sram) h.sram (by decide),
    maskOf_part (p := .models) h.models (by decide),
    maskOf_part (p := .fab) h.fab (by decide),
    maskOf_part (p := .dram) h.dram (by decide),
    maskOf_part (p := .items) h.items (by decide),
    maskOf_part (p := .mgmt) h.mgmt (by decide),
    maskOf_part (p := .rings) h.rings (by decide),
    maskOf_part (p := .reads) h.reads (by decide),
    maskOf_part (p := .nextTag) h.nextTag (by decide),
    maskOf_part (p := .msix) h.msix (by decide),
    maskOf_part (p := .msixPending) h.msixPending (by decide),
    maskOf_part (p := .busMaster) h.busMaster (by decide),
    maskOf_part (p := .ats) h.ats (by decide),
    maskOf_part (p := .lanes) h.lanes (by decide),
    maskOf_part (p := .bar) h.bar (by decide),
    maskOf_part (p := .field) h.field (by decide),
    maskOf_part (p := .hk) h.hk (by decide),
    maskOf_part (p := .cnp) h.cnp (by decide),
    maskOf_part (p := .sync) h.sync (by decide),
    maskOf_part (p := .rel) h.rel (by decide),
    maskOf_part (p := .keep) h.keep (by decide),
    maskOf_part (p := .power) h.power (by decide),
    maskOf_part (p := .bootNs) h.bootNs (by decide)⟩
  intro f i hp
  have := h.regs (f.key i)
  unfold State.fget Tab.getD
  have hb : 40 + keyBlk (f.key i) = partNum (.regs (RegBlock.of (f.code / 32))) := by
    show _ = 40 + blockNum (RegBlock.of (f.code / 32))
    unfold keyBlk
    rw [keyReg_key, blockNum_of]
  rw [hb] at this
  have h3 : partNum (.regs (RegBlock.of (f.code / 32))) ≠ 3 := by
    show 40 + blockNum _ ≠ 3
    omega
  rw [maskOf_part (p := .regs (RegBlock.of (f.code / 32))) this h3 hp]

end Sys2Proof.Machine
end

