-- ==== Sys2Proof/Tests/Slice0.lean ====
section
/-! SUPPORT. The model's own tests: for every statement with hypotheses a state and operands that meet them, and the
checks of WellFormed. -/

open Sys2Proof Sys2Proof.Machine

set_option maxRecDepth 100000


/-- Refused: a function beyond the 32 VFs (R229). -/
theorem test_ill_formed_access_of_function_33 :
    (.registerWrite ⟨33, false, 0, 0, 4, true⟩ 0 : Instr).wellFormed = false := by decide

/-- Refused: a management access with a VF's authority. -/
theorem test_ill_formed_management_access_of_a_vf :
    (.lowWordRead ⟨1, true, 0, 0, 4, false⟩ : Instr).wellFormed = false := by decide

/-- Refused: a BAR that no function has (R229). -/
theorem test_ill_formed_access_to_bar_1 :
    (.rcFieldRead ⟨0, false, 1, 0, 4, false⟩ : Instr).wellFormed = false := by decide

/-- Refused: a size that no access has (R12). -/
theorem test_ill_formed_access_of_three_bytes :
    (.accessDiscarded ⟨0, false, 0, 0, 3, false⟩ : Instr).wellFormed = false := by decide

/-- Refused: a value wider than a register (R11). -/
theorem test_ill_formed_value_of_33_bits :
    (.counterClear ⟨0, false, 0, 0, 4, true⟩ (2 ^ 32) : Instr).wellFormed = false := by decide

/-- Refused: a core beyond the 32. -/
theorem test_ill_formed_core_32 :
    (.coreStart 32 : Instr).wellFormed = false := by decide

/-- Refused: an engine beyond the 36 of a core (R35). -/
theorem test_ill_formed_engine_36 :
    (.bitPlaneCycle 0 36 false : Instr).wellFormed = false := by decide

/-- Refused: a spare column of a scratch engine. -/
theorem test_ill_formed_engine_32_of_the_spares :
    (.spareSubstitute 0 32 0 : Instr).wellFormed = false := by decide

/-- Refused: a column beyond the logical ones. -/
theorem test_ill_formed_column_1280 :
    (.spareSubstitute 0 0 1280 : Instr).wellFormed = false := by decide

/-- Refused: a spare beyond the 64. -/
theorem test_ill_formed_spare_64 :
    (.spareActivate 0 0 64 : Instr).wellFormed = false := by decide

/-- Refused: a segment beyond the two (R35). -/
theorem test_ill_formed_segment_2 :
    (.calPassDone 0 0 2 : Instr).wellFormed = false := by decide

/-- Refused: a tile beyond the two. -/
theorem test_ill_formed_tile_2 :
    (.drainSweep 0 2 : Instr).wellFormed = false := by decide

/-- Refused: a droop rate wider than its field. -/
theorem test_ill_formed_ppm_of_17_bits :
    (.sweepEnd 0 65536 : Instr).wellFormed = false := by decide

/-- Refused: a row beyond the 2,048 (R35). -/
theorem test_ill_formed_bad_row_2048 :
    (.bulkLoadDone ⟨0, some (0, 2048)⟩ : Instr).wellFormed = false := by decide

/-- Refused: a context beyond the 32. -/
theorem test_ill_formed_context_32 :
    (.loadComplete 32 0 : Instr).wellFormed = false := by decide

/-- Refused: a MODEL_ID wider than 128 bits. -/
theorem test_ill_formed_model_of_129_bits :
    (.genVerifyDone 0 (2 ^ 128) : Instr).wellFormed = false := by decide

/-- Refused: a stage number wider than 16 bits. -/
theorem test_ill_formed_stage_65536 :
    (.stageSwitchAdvance 0 0 65536 : Instr).wellFormed = false := by decide

/-- Refused: a scratch engine beyond the four (R148). -/
theorem test_ill_formed_scratch_engine_4 :
    (.scratchRowExpire 0 4 0 : Instr).wellFormed = false := by decide

/-- Refused: a word beyond the scratchpad. -/
theorem test_ill_formed_word_2_to_the_20 :
    (.sramScrub 0 (2 ^ 20) .none : Instr).wellFormed = false := by decide

/-- Refused: a window beyond the two of a spilled buffer (R160). -/
theorem test_ill_formed_window_2 :
    (.chunkFetchDone 0 0 2 : Instr).wellFormed = false := by decide

/-- Refused: a ring pair beyond the PF's 128 (R251). -/
theorem test_ill_formed_ring_128_of_the_pf :
    (.descriptorTake 0 128 : Instr).wellFormed = false := by decide

/-- Refused: a ring pair beyond a VF's eight (R251). -/
theorem test_ill_formed_ring_8_of_a_vf :
    (.sqDoorbell 1 8 0 : Instr).wellFormed = false := by decide

/-- Refused: a byte that is none. -/
theorem test_ill_formed_area_bytes_of_nine_bits :
    (.areaWrite 0 0 (some [256]) : Instr).wellFormed = false := by decide

/-- Refused: a lane beyond the 64. -/
theorem test_ill_formed_lane_64 :
    (.releaseComplete 64 : Instr).wellFormed = false := by decide

/-- Refused: no VF (R229). -/
theorem test_ill_formed_vf_0 :
    (.vfFlr 0 : Instr).wellFormed = false := by decide

/-- Refused: a VF beyond the 32 (R229). -/
theorem test_ill_formed_vf_33 :
    (.stopInterface 33 : Instr).wellFormed = false := by decide

/-- Refused: a link speed beyond Gen 6 (R231). -/
theorem test_ill_formed_link_generation_7 :
    (.linkRetrain 7 16 true : Instr).wellFormed = false := by decide

/-- Refused: a link width that is none (R231). -/
theorem test_ill_formed_link_width_3 :
    (.linkRetrain 6 3 true : Instr).wellFormed = false := by decide

/-- Refused: a router beyond the 45 nodes (R189). -/
theorem test_ill_formed_node_45 :
    (.vectorPacket 0 (.header 45) : Instr).wellFormed = false := by decide

/-- Refused: a router beyond the 45 nodes (R189). -/
theorem test_ill_formed_receipt_lost_at_node_45 :
    (.receipt ⟨0, some 45⟩ : Instr).wellFormed = false := by decide

/-- Refused: a page beyond device DRAM (R199). -/
theorem test_ill_formed_page_49152 :
    (.pageScrubDone 49152 : Instr).wellFormed = false := by decide

/-- Refused: a Canopy port beyond the six. -/
theorem test_ill_formed_port_6 :
    (.portTrained 6 : Instr).wellFormed = false := by decide

/-- Refused: a module cage beyond the three. -/
theorem test_ill_formed_cage_3 :
    (.moduleFault 3 true : Instr).wellFormed = false := by decide

/-- Refused: a Lookout place beyond the two (R26). -/
theorem test_ill_formed_place_2 :
    (.dwellEnd 2 : Instr).wellFormed = false := by decide

/-- Refused: a column beyond the lanes of an engine (R35). -/
theorem test_ill_formed_range_column_1344 :
    (.rangeWindow 0 1344 : Instr).wellFormed = false := by decide

/-- Refused: a bit beyond a barrier frame. -/
theorem test_ill_formed_bit_1024_of_a_frame :
    (.barrierFrameRx true [1024] : Instr).wellFormed = false := by decide

/-- Refused: fewer positions than encoders. -/
theorem test_ill_formed_three_encoder_positions :
    (.heartbeatTimer false [0, 0, 0] : Instr).wellFormed = false := by decide

/-- Refused: more inputs than the sixteen. -/
theorem test_ill_formed_levels_of_17_bits :
    (.fieldReady [0, 0, 0, 0] 65536 : Instr).wellFormed = false := by decide

/-- Refused: a trigger beyond the sixteen. -/
theorem test_ill_formed_trigger_16 :
    (.triggerEdge 16 true [0, 0, 0, 0] : Instr).wellFormed = false := by decide

/-- Refused: an encoder beyond the four. -/
theorem test_ill_formed_encoder_4 :
    (.encoderFault 4 0 : Instr).wellFormed = false := by decide

/-- Refused: a reject output beyond the eight. -/
theorem test_ill_formed_output_8 :
    (.maxOnExpiry 8 : Instr).wellFormed = false := by decide

/-- Refused: a slot beyond a proxy window's. -/
theorem test_ill_formed_slot_4096 :
    (.vpWriteAck 4096 0 : Instr).wellFormed = false := by decide

/-- Refused: an analogue output beyond the four. -/
theorem test_ill_formed_analogue_output_4 :
    (.updateApply 4 : Instr).wellFormed = false := by decide

/-- Refused: a table entry beyond the 64. -/
theorem test_ill_formed_entry_64 :
    (.hkEntryResult 64 [] 0 : Instr).wellFormed = false := by decide

/-- Refused: more sense levels than two pins give. -/
theorem test_ill_formed_sense_4 :
    (.hostPowerOn 4 false : Instr).wellFormed = false := by decide

/-- Refused: more recipients than four. -/
theorem test_ill_formed_alert_mask_of_five_bits :
    (.hkAospSend 16 : Instr).wellFormed = false := by decide

/-- Refused: a byte that is none. -/
theorem test_ill_formed_session_payload_of_nine_bits :
    (.hello ⟨0, 0, false, [256]⟩ : Instr).wellFormed = false := by decide

/-- Refused: a byte that is none. -/
theorem test_ill_formed_recovery_image_of_nine_bits :
    (.recoveryImage [256] : Instr).wellFormed = false := by decide

/-- A well-formed command of each family passes. -/
theorem test_well_formed :
    [Instr.registerWrite ⟨32, false, 0, 0, 4, true⟩ 0, .bitPlaneCycle 31 35 true, .spareActivate 31 31 63, .sqDoorbell 32 7 0,
      .areaWrite 33 200 none, .vfFlr 32, .portTrained 5, .triggerEdge 15 true [0, 0, 0, 0], .hkAospSend 15].all Instr.wellFormed
      = true := by decide

/-! ### The queue and reset -/

theorem test_meets_step_on_an_empty_queue_is_a_tick_1 :
    (fun (s : State) => decide ((s.pending = []))) (State.reset) = true := by
  decide

/-! ### Register accesses -/

/-- A module whose host section is powered and whose link is up, 5 µs after reset. -/
def tOn : State := { State.reset with power := { Power.empty with slotPower := true, linkUp := true }, ns := 5000 }

theorem test_meets_written_words_follow_the_access_codes_1 :
    (fun (s : State) (r : Reg) (i v : Nat) => decide ((r ∈ Reg.all))) (State.reset) (R.GLB_STATUS) (0) (1) = true := by
  decide

theorem test_meets_register_write_reaches_its_register_1 :
    (fun (s : State) (a : Access) (k v : Nat) => decide ((s.reached a = true)
      ∧ (k < 4)
      ∧ (wordAccess a (0x40 + 4 * k) true))) (tOn) (⟨0, true, 0, 0x4C, 4, true⟩) (3) (0x123456789) = true := by
  decide

theorem test_meets_register_write_reaches_its_register_2 :
    (fun (s : State) (a : Access) (v : Nat) => decide ((s.reached a = true)
      ∧ (wordAccess a 0x10 true)
      ∧ (v.testBit 0 = true)
      ∧ (s.fget F.GLB_STATUS_ACC_SEEN 0 < 2))) (tOn.fset F.GLB_STATUS_ACC_SEEN 0 1) (⟨0, true, 0, 0x10, 4, true⟩) (1) = true := by
  decide

theorem test_meets_register_write_reaches_its_register_3 :
    (fun (s : State) (a : Access) (v : Nat) => decide ((s.reached a = true)
      ∧ (wordAccess a 0x10008 true))) (tOn) (⟨0, true, 0, 0x10008, 4, true⟩) (255) = true := by
  decide

theorem test_meets_reads_latch_and_clear_1a :
    (fun (s : State) (a : Access) (r : Reg) (i : Nat) => decide ((s.reached a = true)
      ∧ (a.write = false)
      ∧ (a.bar = 0)
      ∧ (s.accessKind a = none)
      ∧ (accMsix a = none)
      ∧ (a.func ≠ 0 ∨ inProxy a.off = false)
      ∧ (accTarget a = some (r, i))
      ∧ (r.rc = false)
      ∧ (r.off ≠ R.HIF_VF_ID.off))) (tOn) (⟨0, true, 0, 0x10010, 4, false⟩) (R.MGT_TIME_LO) (0) = true := by
  decide

theorem test_meets_reads_latch_and_clear_1b :
    (fun (s : State) (a : Access) (r : Reg) (i : Nat) => decide ((s.reached a = true)
      ∧ (a.write = false)
      ∧ (a.bar = 0)
      ∧ (s.accessKind a = none)
      ∧ (accMsix a = none)
      ∧ (a.func ≠ 0 ∨ inProxy a.off = false)
      ∧ (accTarget a = some (r, i))
      ∧ (r.rc = false)
      ∧ (r.off ≠ R.HIF_VF_ID.off))) (tOn) (⟨0, true, 0, 0x40, 4, false⟩) (R.GLB_SCRATCH) (0) = true := by
  decide

theorem test_meets_reads_latch_and_clear_2a :
    (fun (s : State) (a : Access) (r : Reg) (i : Nat) => decide ((s.reached a = true)
      ∧ (a.write = false)
      ∧ (a.bar = 0)
      ∧ (s.accessKind a = none)
      ∧ (accMsix a = none)
      ∧ (a.func ≠ 0 ∨ inProxy a.off = false)
      ∧ (accTarget a = some (r, i))
      ∧ (r.rc = true))) (tOn) (⟨0, true, 0, 0x24, 4, false⟩) (R.GLB_ACC_HI) (0) = true := by
  decide

theorem test_meets_reads_latch_and_clear_2b :
    (fun (s : State) (a : Access) (r : Reg) (i : Nat) => decide ((s.reached a = true)
      ∧ (a.write = false)
      ∧ (a.bar = 0)
      ∧ (s.accessKind a = none)
      ∧ (accMsix a = none)
      ∧ (a.func ≠ 0 ∨ inProxy a.off = false)
      ∧ (accTarget a = some (r, i))
      ∧ (r.rc = true))) (tOn) (⟨0, true, 0, 0x400018, 4, false⟩) (R.MEM_ERR_HI) (0) = true := by
  decide

theorem test_meets_reads_latch_and_clear_3a :
    (fun (s : State) (a : Access) => decide ((s.reached a = true)
      ∧ (a.bar = 8)
      ∧ (a.off = 0)
      ∧ (a.size = 4)
      ∧ (a.write = false))) (tOn) (⟨0, false, 8, 0, 4, false⟩) = true := by
  decide

theorem test_meets_reads_latch_and_clear_3b :
    (fun (s : State) (a : Access) => decide ((s.reached a = true)
      ∧ (a.bar = 8)
      ∧ (a.off = 0)
      ∧ (a.size = 4)
      ∧ (a.write = false))) (tOn) (⟨3, false, 8, 0, 4, false⟩) = true := by
  decide

theorem test_meets_reads_latch_and_clear_4 :
    (fun (s : State) (a : Access) => decide ((s.reached a = true)
      ∧ (a.bar = 8)
      ∧ (a.off = 8)
      ∧ (a.size = 4)
      ∧ (a.write = false))) (tOn) (⟨0, false, 8, 8, 4, false⟩) = true := by
  decide

theorem test_meets_reads_latch_and_clear_5 :
    (fun (s : State) (a : Access) => decide ((s.reached a = true)
      ∧ (wordAccess a 0x10010 false)
      ∧ (Tab.find s.latch (pairKey 0x10010 0 (accWho a)) = none))) (tOn) (⟨0, true, 0, 0x10010, 4, false⟩) = true := by
  decide

theorem test_meets_reads_latch_and_clear_6 :
    (fun (s : State) (a : Access) => decide ((s.reached a = true)
      ∧ (wordAccess a 0x24 false)
      ∧ (Tab.find s.latch (pairKey 0x24 0 (accWho a)) = none))) ((tOn.fset F.GLB_ACC_HI_VALID 0 1).fset F.GLB_ACC_HI_FUNCTION 0 3) (⟨0, true, 0, 0x24, 4, false⟩) = true := by
  decide

theorem test_meets_discarded_access_is_recorded_1 :
    (fun (s : State) (a : Access) => decide ((s.reached a = true)
      ∧ (a.func = 0)
      ∧ (a.bar = 0)
      ∧ (a.size ≠ 4 ∨ a.off % 4 ≠ 0))) (tOn) (⟨0, true, 0, 0x42, 4, false⟩) = true := by
  decide

theorem test_meets_discarded_access_is_recorded_2 :
    (fun (s : State) (a : Access) => decide ((s.reached a = true)
      ∧ (a.func = 0)
      ∧ (a.bar = 0)
      ∧ (a.size = 4)
      ∧ (a.off % 4 = 0)
      ∧ (inProxy a.off = false)
      ∧ (accTarget a = none))) (tOn) (⟨0, true, 0, 0x3C, 4, false⟩) = true := by
  decide

theorem test_meets_discarded_access_is_recorded_3 :
    (fun (s : State) (a : Access) => decide ((s.reached a = true)
      ∧ (a.func = 0)
      ∧ (a.bar = 0)
      ∧ (a.size = 4)
      ∧ (a.off % 4 = 0)
      ∧ ((accTarget a).isSome = true)
      ∧ (0x100000 ≤ a.off)
      ∧ (a.off < 0x300000)
      ∧ (s.fget F.GLB_PWR_STATUS_STATE 0 = 3))) (tOn.fset F.GLB_PWR_STATUS_STATE 0 3) (⟨0, true, 0, 0x100004, 4, true⟩) = true := by
  decide

theorem test_meets_counter_clear_clears_the_block_1a :
    (fun (s : State) (a : Access) (v : Nat) (r : Reg) (i : Nat) => decide ((s.reached a = true)
      ∧ (a.write = true)
      ∧ (a.bar = 0)
      ∧ (s.accessKind a = none)
      ∧ (accMsix a = none)
      ∧ (a.func ≠ 0 ∨ inProxy a.off = false)
      ∧ (accTarget a = some (r, i))
      ∧ (r.cntCtrl = true)
      ∧ ((instCore r i).any s.retired = false)
      ∧ (v.testBit 0 = true))) (tOn.fset F.GLB_ACC_CNT_COUNT 0 9) (⟨0, true, 0, 0x30, 4, true⟩) (3) (R.GLB_CNT_CTRL) (0) = true := by
  decide

theorem test_meets_counter_clear_clears_the_block_1b :
    (fun (s : State) (a : Access) (v : Nat) (r : Reg) (i : Nat) => decide ((s.reached a = true)
      ∧ (a.write = true)
      ∧ (a.bar = 0)
      ∧ (s.accessKind a = none)
      ∧ (accMsix a = none)
      ∧ (a.func ≠ 0 ∨ inProxy a.off = false)
      ∧ (accTarget a = some (r, i))
      ∧ (r.cntCtrl = true)
      ∧ ((instCore r i).any s.retired = false)
      ∧ (v.testBit 0 = true))) (tOn) (⟨0, true, 0, 0x104040, 4, true⟩) (1) (R.ENG_CNT_CTRL) (0) = true := by
  decide

theorem test_meets_mgt_commit_applies_the_staged_fields_1 :
    (fun (s : State) => decide ((s.staging F.MGT_CFG_VECTOR 0 ≤ 511)
      ∧ (s.staging F.MGT_CFG_HOST_IRQ_EN 0 < 2)
      ∧ (s.staging F.MGT_HOST_MASK_BLOCKS 0 < 2 ^ 32))) ((State.reset.stage F.MGT_CFG_VECTOR 0 7).stage F.MGT_HOST_MASK_BLOCKS 0 3) = true := by
  decide

/-! ### The barrier link -/

/-- The barrier link up, the field controller ready, both sections held present, at 100 µs. -/
def tLink : State := { tOn with
  ns := 100000
  bar := { Barrier.empty with up := true, fieldHere := true }
  field := { FieldSec.empty with supply := true, ready := true, hostHere := true } }

/-- The same with a message that waits at the host section, or at the field section. -/
def tMsg (field : Bool) (m : List Nat) : State := tLink.setSide field { (tLink.bar.side field) with inbox := [m] }

/-- A host section with one message to send. -/
def tSend : State := tLink.toField [7, 0, 1, 0]

theorem test_meets_barrier_link_and_frames_1 :
    (fun (s : State) => decide ((s.bar.up = false)
      ∧ (s.power.slotPower = true)
      ∧ (s.field.supply = true)
      ∧ (s.field.frst = false))) ({ tLink with bar := { tLink.bar with up := false }, field := { tLink.field with events := [[6, 2]] } }) = true := by
  decide

theorem test_meets_barrier_link_and_frames_2 :
    (fun (s : State) => decide ((s.bar.up = true))) (tLink) = true := by
  decide

theorem test_meets_barrier_link_and_frames_3 :
    (fun (s : State) (d : Bool) => decide ((s.bar.up = true)
      ∧ (frameOk d (nextFrame s d) = true)
      ∧ (bit ((nextFrame s d).getD 4 0) 0 = false)
      ∧ (leAt (nextFrame s d) 0 2 = (s.bar.side d).expect))) (tSend) (true) = true := by
  decide

theorem test_meets_barrier_link_and_frames_4 :
    (fun (s : State) (d : Bool) (flips : List Nat) => decide ((s.bar.up = true)
      ∧ (frameOk d (flipBits (nextFrame s d) flips) = false)
      ∧ ((s.bar.side d).bad < 31))) (tSend) (true) ([70]) = true := by
  decide

theorem test_meets_barrier_link_and_frames_5 :
    (fun (s : State) (d : Bool) => decide ((s.bar.up = true)
      ∧ ((s.bar.side d).unacked ≠ [])
      ∧ ((s.bar.side d).acked + 2000 ≤ s.ns))) (tLink.setSide false { BarSide.empty with unacked := [⟨0, [[7]]⟩] }) (false) = true := by
  decide

/-! ### Presence of the two sections -/

/-! ### Messages across the barrier -/

/-- A lane 3 that uses encoder 1, admitted, with a lane field record that names it. -/
def tLane : State := ((tLink.fset F.ADM_LANE_STATE_STATE 3 2).setLane 3 { Lane.empty with field := true }).fset F.FLD_LANE_STATUS_STATE 3 1
/-- The same with an item 77 of the lane that the field controller holds. -/
def tRec (m : List Nat) : State :=
  let s : State := { tLane with field := { tLane.field with recs := [{ lane := 3, n := 4, pos := 1000, item := some 77 }] } }
  let s := (List.range 24).foldl (fun (s : State) k => s.fset F.FLD_LANE_DATA_DATA (3 * 24 + k) 0x10000) s
  s.setSide true { s.bar.field with inbox := [m] }

theorem test_meets_item_and_analogue_messages_1 :
    (fun (s : State) (m : List Nat) => decide ((s.front false = some m)
      ∧ (isType 1 m = true)
      ∧ (s.laneState (m.getD 1 0 % 64) = 2)
      ∧ ((s.ctxsOf (leAt m 4 6)) = [])
      ∧ (((s.pop false).positionAt (bits (m.getD 2 0) 4 2) (leAt m 10 4)).canCreate = true))) ((tLane).setSide false { tLane.bar.host with inbox := [[1, 3, 0x10, 0, 77, 0, 0, 0, 0, 0, 9, 0, 0, 0]] }) ([1, 3, 0x10, 0, 77, 0, 0, 0, 0, 0, 9, 0, 0, 0]) = true := by
  decide

theorem test_meets_item_and_analogue_messages_2 :
    (fun (s : State) (m : List Nat) (r : FieldRec) => decide ((s.front true = some m)
      ∧ (isType 2 m = true)
      ∧ (s.field.recs = [r])
      ∧ (r.lane = m.getD 1 0 % 64)
      ∧ (r.item = some (leAt m 4 6))
      ∧ (r.code = none)
      ∧ (r.hostGen = s.field.hostGen)
      ∧ (s.encBad (s.lrEnc r.lane) = false)
      ∧ (serialGe (s.encPos (s.lrEnc r.lane)) (s.cutoff r.lane r.pos) = false))) (tRec [2, 3, 5, 0, 77]) ([2, 3, 5, 0, 77]) ({ lane := 3, n := 4, pos := 1000, item := some 77 }) = true := by
  decide

theorem test_meets_item_and_analogue_messages_3 :
    (fun (s : State) (m : List Nat) => decide ((s.front true = some m)
      ∧ (isType 3 m = true)
      ∧ (s.field.recs.all (fun r => r.code.isNone) = true)
      ∧ (s.bar.field.queue.length < 4096))) (tRec [3, 3]) ([3, 3]) = true := by
  decide

theorem test_meets_item_and_analogue_messages_4 :
    (fun (s : State) (m : List Nat) => decide ((s.front true = some m)
      ∧ (isType 4 m = true)
      ∧ (m.getD 1 0 = 0)
      ∧ (s.field.hostHere = true))) (tMsg true [4, 0, 3, 0, 1, 0]) ([4, 0, 3, 0, 1, 0]) = true := by
  decide

theorem test_meets_item_and_analogue_messages_5 :
    (fun (s : State) (m : List Nat) => decide ((s.front true = some m)
      ∧ (isType 4 m = true)
      ∧ (m.getD 1 0 = 1)
      ∧ (s.field.hostHere = true))) (tMsg true [4, 1, 5, 0, 7, 0, 0, 0, 9, 1]) ([4, 1, 5, 0, 7, 0, 0, 0, 9, 1]) = true := by
  decide

theorem test_meets_item_and_analogue_messages_6 :
    (fun (s : State) (m : List Nat) => decide ((s.front false = some m)
      ∧ (isType 5 m = true)
      ∧ (m.getD 1 0 = 0))) (tMsg false [5, 0, 9, 1, 0x21, 0x43, 1, 0, 3]) ([5, 0, 9, 1, 0x21, 0x43, 1, 0, 3]) = true := by
  decide

theorem test_meets_item_and_analogue_messages_7 :
    (fun (s : State) (m : List Nat) => decide ((s.front false = some m)
      ∧ (isType 5 m = true)
      ∧ (m.getD 1 0 = 1))) (tMsg false [5, 1, 0x20, 0x10]) ([5, 1, 0x20, 0x10]) = true := by
  decide

theorem test_meets_heartbeats_and_status_messages_1 :
    (fun (s : State) (ps : List Nat) => decide ((s.bar.up = true))) (tLink) ([]) = true := by
  decide

theorem test_meets_heartbeats_and_status_messages_2 :
    (fun (s : State) (ps : List Nat) => decide ((s.bar.up = true)
      ∧ (s.field.ready = true))) (tLink) ([1, 2, 3, 4]) = true := by
  decide

theorem test_meets_heartbeats_and_status_messages_3 :
    (fun (s : State) (d : Bool) (m : List Nat) => decide ((s.front d = some m)
      ∧ (isType 7 m = true))) (tMsg true [7, 0, 1, 0]) (true) ([7, 0, 1, 0]) = true := by
  decide

theorem test_meets_heartbeats_and_status_messages_4 :
    (fun (s : State) => decide ((s.field.ready = true)
      ∧ (s.field.hostHere = true)
      ∧ (s.bar.field.beat + s.hostTo ≤ s.ns))) ({ tLink with ns := 10000000000 }) = true := by
  decide

theorem test_meets_heartbeats_and_status_messages_5 :
    (fun (s : State) (m : List Nat) => decide ((s.front true = some m)
      ∧ (hostRunning m = true))) (tMsg true [6, 0, 1, 5]) ([6, 0, 1, 5]) = true := by
  decide

theorem test_meets_heartbeats_and_status_messages_6 :
    (fun (s : State) => decide ((s.bar.fieldHere = true)
      ∧ (s.bar.host.beat + s.fieldTo ≤ s.ns))) ({ tLink with ns := 10000000000 }) = true := by
  decide

theorem test_meets_heartbeats_and_status_messages_7 :
    (fun (s : State) (m : List Nat) => decide ((s.front true = some m)
      ∧ (isStatus 0 m = true)
      ∧ (m.getD 2 0 = 1))) (tMsg true [6, 0, 1, 2]) ([6, 0, 1, 2]) = true := by
  decide

theorem test_meets_heartbeats_and_status_messages_8 :
    (fun (s : State) (m : List Nat) => decide ((s.front true = some m)
      ∧ (isStatus 0 m = true)
      ∧ (m.getD 2 0 ≠ 1))) (tMsg true [6, 0, 2, 2]) ([6, 0, 2, 2]) = true := by
  decide

theorem test_meets_heartbeats_and_status_messages_9 :
    (fun (s : State) (m : List Nat) => decide ((s.front false = some m)
      ∧ (isStatus 0 m = true)
      ∧ (s.bar.fieldKnown = true)
      ∧ (s.bar.fieldGen = m.getD 3 0)
      ∧ (m.getD 2 0 ≠ 0)
      ∧ (m.getD 3 0 < 256))) ({ tMsg false [6, 0, 1, 0] with bar := { (tMsg false [6, 0, 1, 0]).bar with fieldKnown := true } }) ([6, 0, 1, 0]) = true := by
  decide

theorem test_meets_heartbeats_and_status_messages_10 :
    (fun (s : State) (m : List Nat) => decide ((s.front false = some m)
      ∧ (isStatus 2 m = true))) (tMsg false [6, 2, 3, 14, 9, 0, 0, 0, 0, 0, 3, 1, 1, 0, 0, 0]) ([6, 2, 3, 14, 9, 0, 0, 0, 0, 0, 3, 1, 1, 0, 0, 0]) = true := by
  decide

theorem test_meets_heartbeats_and_status_messages_11 :
    (fun (s : State) (m : List Nat) => decide ((s.front false = some m)
      ∧ (isStatus 3 m = true))) (tMsg false [6, 3, 0, 0, 7, 0, 0, 0, 8, 0, 0, 0]) ([6, 3, 0, 0, 7, 0, 0, 0, 8, 0, 0, 0]) = true := by
  decide

theorem test_meets_heartbeats_and_status_messages_12 :
    (fun (s : State) (m : List Nat) (r : Retracting) (rest : List Retracting) => decide ((s.front false = some m)
      ∧ (isStatus 1 m = true)
      ∧ (s.rel.retracting = r :: rest)
      ∧ (bit (m.getD 11 0) 1 = false)
      ∧ (bit (m.getD 11 0) 2 = false)
      ∧ (m.getD 10 0 ≠ 0))) ({ tMsg false [6, 1, 0, 0, 9, 0, 0, 0, 0, 0, 3, 0] with rel := { Rel.empty with retracting := [⟨1, 0, [], 3, []⟩] } }) ([6, 1, 0, 0, 9, 0, 0, 0, 0, 0, 3, 0]) (⟨1, 0, [], 3, []⟩) ([]) = true := by
  decide

theorem test_meets_proxied_words_and_field_firmware_1 :
    (fun (s : State) (m : List Nat) => decide ((s.front true = some m)
      ∧ (isType 8 m = true)
      ∧ (leAt m 2 2 = 0x0008)
      ∧ (s.bar.field.queue.length < 4096))) (tMsg true [8, 0, 8, 0, 4, 0, 2, 0]) ([8, 0, 8, 0, 4, 0, 2, 0]) = true := by
  decide

theorem test_meets_proxied_words_and_field_firmware_2 :
    (fun (s : State) (m : List Nat) (p : ProxyRead) => decide ((s.front false = some m)
      ∧ (isType 9 m = true)
      ∧ (s.bar.proxy = [p])
      ∧ (p.tag = leAt m 8 2)
      ∧ (p.sess = none)
      ∧ (p.more = 0))) ({ tMsg false [9, 0, 4, 0, 0x34, 0x12, 0, 0, 2, 0] with bar := { (tMsg false [9, 0, 4, 0, 0x34, 0x12, 0, 0, 2, 0]).bar with proxy := [⟨0, 4, 2, 0, none, 0, [], none⟩] } }) ([9, 0, 4, 0, 0x34, 0x12, 0, 0, 2, 0]) (⟨0, 4, 2, 0, none, 0, [], none⟩) = true := by
  decide

theorem test_meets_proxied_words_and_field_firmware_3 :
    (fun (s : State) (m : List Nat) => decide ((s.front true = some m)
      ∧ (isStatus 5 m = true)
      ∧ (leAt m 4 4 < slotSize 5))) (tMsg true [6, 5, 0, 0, 2, 0, 0, 0, 1, 2, 3, 4, 5, 6, 7, 8]) ([6, 5, 0, 0, 2, 0, 0, 0, 1, 2, 3, 4, 5, 6, 7, 8]) = true := by
  decide

theorem test_meets_proxied_words_and_field_firmware_4 :
    (fun (s : State) (m : List Nat) => decide ((s.front true = some m)
      ∧ (isStatus 6 m = true)
      ∧ (s.field.fw = .running)
      ∧ (m.getD 2 0 = 5))) (tMsg true [6, 6, 5, 0]) ([6, 6, 5, 0]) = true := by
  decide

theorem test_meets_proxied_words_and_field_firmware_5 :
    (fun (s : State) (m : List Nat) (id tag : Nat) => decide ((s.front false = some m)
      ∧ (isStatus 7 m = true)
      ∧ (m.getD 2 0 = 2)
      ∧ (s.mgmt.stage5 = some (id, tag)))) ({ tMsg false [6, 7, 2, 0] with mgmt := { Mgmt.empty with stage5 := some (1, 2) } }) ([6, 7, 2, 0]) (1) (2) = true := by
  decide

/-! ### The charge engine and accumulation -/

/-- An 8-plane vector of one driven row, running in an engine. -/
def tVec : EngVec := ⟨0, 8, false, [(3, 5)], 0, 0, 0, 0, [], [], [], 0, true, 1, 9, 0, 0, [], [], 0, false, false⟩
/-- Engine 2 of core 1 in service with that vector. -/
def tEng : State := (tOn.fset F.CORE_CAD_CFG_SLOT_PLANES 1 8).setEngine 1 2 { Engine.empty with inService := true, run := some tVec, cells := [(3 * 1344, 2)] }

theorem test_meets_engines_run_and_keep_legal_values_1 :
    (fun (s : State) (c e : Nat) (v : EngVec) (p : Nat) (si : Bool) => decide (((s.engine c e).run = some v)
      ∧ (v.splits = [])
      ∧ (v.planes ≤ 8)
      ∧ (v.plane ≤ p ∧ p < v.planes)
      ∧ (s.planeIssued c e v p = true)
      ∧ ((List.range p).all (fun q => decide (q < v.plane) || !s.planeIssued c e v q) = true))) (tEng) (1) (2) (tVec) (0) (true) = true := by
  decide

theorem test_meets_engines_run_and_keep_legal_values_2 :
    (fun (s : State) (c e : Nat) (v : EngVec) (p : Nat) (w : Window) => decide (((s.engine c e).run = some v)
      ∧ (v.splits = [])
      ∧ (v.planes ≤ 8)
      ∧ (v.plane ≤ p ∧ p < v.planes)
      ∧ (s.planeIssued c e v p = true)
      ∧ ((List.range p).all (fun q => decide (q < v.plane) || !s.planeIssued c e v q) = true)
      ∧ (s.windowRow (s.engine c e) = some w)
      ∧ (w.row < 2048)
      ∧ ((s.rowsOn c e v p (segOf w.row)).contains w.row = true))) (tEng.setEngine 1 2 { (tEng.engine 1 2) with window := some ⟨3, [], tEng.ns, false⟩ }) (1) (2) (tVec) (0) (⟨3, [], tEng.ns, false⟩) = true := by
  decide

theorem test_meets_engines_run_and_keep_legal_values_3 :
    (fun (s : State) (c e : Nat) (v : EngVec) (p : Nat) => decide (((s.engine c e).run = some v)
      ∧ (v.splits = [])
      ∧ (v.planes ≤ 8)
      ∧ (v.plane ≤ p ∧ p < v.planes)
      ∧ (s.planeIssued c e v p = true)
      ∧ ((List.range p).all (fun q => decide (q < v.plane) || !s.planeIssued c e v q) = true))) (tEng.setEngine 1 2 { (tEng.engine 1 2) with window := some ⟨3, [], 0, false⟩ }) (1) (2) (tVec) (0) = true := by
  decide

theorem test_meets_engines_run_and_keep_legal_values_4 :
    (fun (s : State) (c e : Nat) (v u : EngVec) (si : Bool) => decide (((s.engine c e).run = some v)
      ∧ ((s.engine c e).tree = none)
      ∧ ((s.engine c e).next = some u)
      ∧ (u.begun = true)
      ∧ (s.vecDone c e v = true)
      ∧ (u.splits = [])
      ∧ (u.plane = 0)
      ∧ (0 < u.planes)
      ∧ ((s.advance c e).planeIssued c e { u with clock := (s.advance c e).fget F.ENG_SLIP_SLIP_CYC (eng c e) } 0 = true))) (tEng.setEngine 1 2 { (tEng.engine 1 2) with run := some { tVec with plane := 8 }, next := some { tVec with begun := true, item := 10 } }) (1) (2) ({ tVec with plane := 8 }) ({ tVec with begun := true, item := 10 }) (false) = true := by
  decide

theorem test_meets_engines_run_and_keep_legal_values_5 :
    (fun (s : State) (c e : Nat) (v : EngVec) (q : SplitReq) (rest : List SplitReq) (si : Bool) => decide (((s.engine c e).run = some v)
      ∧ (v.splits = q :: rest))) (tEng.setEngine 1 2 { (tEng.engine 1 2) with run := some { tVec with splits := [⟨0, 0, [0]⟩] } }) (1) (2) ({ tVec with splits := [⟨0, 0, [0]⟩] }) (⟨0, 0, [0]⟩) ([]) (false) = true := by
  decide

theorem test_meets_engines_run_and_keep_legal_values_6 :
    (fun (s : State) (c e : Nat) (v : EngVec) => decide ((s.finishing c e = some v)
      ∧ (Tab.getD (s.tile c v.tile).groupPass (s.headOf c e) 0 < 32))) (tEng.setEngine 1 2 { (tEng.engine 1 2) with run := none, tree := some { tVec with plane := 8 } }) (1) (2) ({ tVec with plane := 8 }) = true := by
  decide

theorem test_meets_engines_run_and_keep_legal_values_7 :
    (fun (s : State) (c e v : Nat) => decide ((s.retired c = false)
      ∧ (s.coreLocked c = false)
      ∧ (engCfgOk e v = true))) (tOn) (1) (2) (0x3381) = true := by
  decide

theorem test_meets_engines_run_and_keep_legal_values_8 :
    (fun (s : State) (c e v : Nat) => decide ((s.retired c = false)
      ∧ (s.coreLocked c = true))) (tOn.fset F.CORE_STATUS_STATE 1 2) (1) (2) (0x3381) = true := by
  decide

theorem test_meets_engines_run_and_keep_legal_values_9 :
    (fun (s : State) (c e v : Nat) => decide ((s.retired c = false)
      ∧ (s.coreLocked c = false)
      ∧ (engCfgOk e v = false))) (tOn) (1) (2) (0x3301) = true := by
  decide

theorem test_meets_engines_run_and_keep_legal_values_10 :
    (fun (s : State) (c e : Nat) => decide ((s.calCurrent c e = false)
      ∧ (s.fon F.ENG_STATUS_CAL_VALID (eng c e) = true)
      ∧ (s.fget F.CORE_STATUS_STATE c ≠ 2))) (tEng.fset F.ENG_STATUS_CAL_VALID (eng 1 2) 1) (1) (2) = true := by
  decide

theorem test_meets_engines_run_and_keep_legal_values_11 :
    (fun (s : State) (c e : Nat) => decide ((s.calCurrent c e = false)
      ∧ (s.fon F.ENG_STATUS_CAL_VALID (eng c e) = true)
      ∧ (s.fget F.CORE_STATUS_STATE c = 2))) ((tEng.fset F.ENG_STATUS_CAL_VALID (eng 1 2) 1).fset F.CORE_STATUS_STATE 1 2) (1) (2) = true := by
  decide

theorem test_meets_tiles_transfer_and_drain_1 :
    (fun (s : State) (c k : Nat) => decide ((s.groupFull c k = true))) ((tEng.setEngine 1 2 { (tEng.engine 1 2) with run := none, tree := some { tVec with plane := 8 } }).setTile 1 0 { Tile.empty with groupPass := [(2, 32)], acc := [(2048, 7)] }) (1) (0) = true := by
  decide

theorem test_meets_tiles_transfer_and_drain_2 :
    (fun (s : State) (c k : Nat) (q : DrainReq) => decide (((s.tile c k).drain = some q)
      ∧ (s.drainReady c k q = true))) (tOn.setTile 1 0 { Tile.empty with drain := some ⟨0, 0, true, false, 0, 0, 0, false, 1, 9, 0, 0⟩ }) (1) (0) (⟨0, 0, true, false, 0, 0, 0, false, 1, 9, 0, 0⟩) = true := by
  decide

theorem test_meets_sums_are_kept_and_moved_exactly :
    (l2Enter [some 3, none] 4).2 = false ∧ (∃ x ∈ ([some 3, none] : List (Option Int)), x = none) := by decide

/-! ### The restorer -/

/-- A stage of one core, core 1, and a model that it runs. -/
def tStage : StageRec := ⟨0, 1, 1, 1, 0, 0, 8, true, false, 4, 4, 0, 0, 0, 4, 4, 1, 0, 0, [1], 0, [], 5⟩
def tModel : Model := ⟨2, 7, 5, 0, .loaded, [tStage], [], [], [], [], [], [], none, none, false, [], false, [], [], none, 0, 0, none, false, [], 0, none⟩
/-- Core 1 serves stage 0 of the model of context 2, with engine 2 in service, and is stopped. -/
def tCore : State := (({ tEng with models := [tModel] } : State).setCore 1 { CoreSt.empty with place := some ⟨2, 7, 0, 0⟩ }).fset F.CORE_STATUS_STATE 1 1

theorem test_meets_sweeps_and_bulk_loads_1 :
    (fun (s : State) (c : Nat) => decide (((s.restorer c).sweeping = false)
      ∧ ((s.restorer c).bulk = none)
      ∧ ((s.restorer c).zeroing = false)
      ∧ (s.inService c ≠ [])
      ∧ ((s.restorer c).started + s.periodNs c ≤ s.ns))) ({ tEng with ns := 20000000 }) (1) = true := by
  decide

theorem test_meets_sweeps_and_bulk_loads_2 :
    (fun (s : State) (c us k : Nat) => decide (((s.restorer c).sweeping = true)
      ∧ ((s.restorer c).row < 2048)
      ∧ (s.inService c ≠ [])
      ∧ (s.mayOpen c ((s.inService c).getD (s.restorer c).idx 0) = true))) (tEng.setRst 1 { Restorer.empty with sweeping := true, row := 5 }) (1) (0) (0) = true := by
  decide

theorem test_meets_sweeps_and_bulk_loads_3 :
    (fun (s : State) (c ppm : Nat) => decide (((s.restorer c).sweeping = true)
      ∧ (2048 ≤ (s.restorer c).row))) (tEng.setRst 1 { Restorer.empty with sweeping := true, row := 2048 }) (1) (100) = true := by
  decide

theorem test_meets_sweeps_and_bulk_loads_4 :
    (fun (s : State) (c d : Nat) (k : BulkKind) => decide ((s.bulkDue c d k = true))) ({ tCore with models := [{ tModel with state := .starting }] }) (1) (1) (.start) = true := by
  decide

theorem test_meets_sweeps_and_bulk_loads_5 :
    (fun (s : State) (c : Nat) (b : BulkLoad) => decide (((s.restorer c).bulk = some b)
      ∧ (b.paused = false))) (tOn.setRst 1 { Restorer.empty with bulk := some ⟨.start, 0, 1, false⟩ }) (1) (⟨.start, 0, 1, false⟩) = true := by
  decide

theorem test_meets_sweeps_and_bulk_loads_6 :
    (fun (s : State) (c : Nat) => decide (((s.restorer c).zeroing = true)
      ∧ (s.power.resetting = []))) (tEng.setRst 1 { Restorer.empty with zeroing := true }) (1) = true := by
  decide

theorem test_meets_calibration_and_spares_1 :
    (fun (s : State) (c e seg : Nat) => decide (((s.calEngines c).contains e = true)
      ∧ (seg < 2)
      ∧ (s.segFree c e seg = true))) (tCore.setEngine 1 2 { tCore.engine 1 2 with run := none }) (1) (2) (1) = true := by
  decide

theorem test_meets_calibration_and_spares_2 :
    (fun (s : State) (c e seg : Nat) => decide (((s.calEngines c).contains e = true)
      ∧ (seg < 2)
      ∧ ((List.range 10).all (fun k => decide (16 ≤ Tab.getD (s.engine c e).calCycles (seg * 16 + k) 0)) = true))) (tCore.setEngine 1 2 { tCore.engine 1 2 with run := none, calAsked := true, calCycles := (List.range 10).map (fun k => (k, 16)) }) (1) (2) (0) = true := by
  decide

theorem test_meets_calibration_and_spares_3 :
    (fun (s : State) (c : Nat) => decide ((s.fget F.CORE_STATUS_STATE c = 1)
      ∧ (s.calEngines c = [2, 32, 33, 34, 35]))) (tCore) (1) = true := by
  decide

theorem test_meets_calibration_and_spares_4 :
    (fun (s : State) (c : Nat) => decide ((s.retired c = false))) (tCore) (1) = true := by
  decide

theorem test_meets_calibration_and_spares_5 :
    (fun (s : State) (c : Nat) => decide ((s.retired c = false))) (tCore) (1) = true := by
  decide

theorem test_meets_calibration_and_spares_6 :
    (fun (s : State) (c e col sp : Nat) => decide ((col < planCols (s.plan c e) * planSlices (s.plan c e))
      ∧ (s.spareFor c e col = none)
      ∧ ((List.range 64).all (fun sp => s.spareTarget c e sp != some col) = true)
      ∧ (s.pickSpare c e col = some sp)
      ∧ (s.unit (unitLane c e (col / 4)) ≠ 2)
      ∧ (col < 2048))) (tCore) (1) (2) (40) (groupOf 40) = true := by
  decide

theorem test_meets_calibration_and_spares_7 :
    (fun (s : State) (c e sp : Nat) => decide ((s.fget F.RST_SPARE_DATA_STATE (spareInst c e sp) = 1)
      ∧ (Tab.getD (s.restorer c).subSweep (e * 64 + sp) 1 ≤ (s.restorer c).sweeps)
      ∧ (s.atVectorStart c e = true))) (((tCore.setEngine 1 2 { tCore.engine 1 2 with run := none }).setRst 1 { Restorer.empty with sweeps := 1 }).fset F.RST_SPARE_DATA_STATE (spareInst 1 2 3) 1) (1) (2) (3) = true := by
  decide

theorem test_meets_calibration_and_spares_8 :
    (fun (s : State) (c lo hi : Nat) => decide ((s.retired c = false)
      ∧ (s.staging F.RST_PERIOD_LIM_MIN_US c = lo)
      ∧ (s.staging F.RST_PERIOD_LIM_MAX_US c = hi)
      ∧ (1000 ≤ lo)
      ∧ (lo ≤ hi)
      ∧ (hi ≤ 8000)
      ∧ (lo % 250 = 0)
      ∧ (hi % 250 = 0))) ((tCore.stage F.RST_PERIOD_LIM_MIN_US 1 1500).stage F.RST_PERIOD_LIM_MAX_US 1 7750) (1) (1500) (7750) = true := by
  decide

theorem test_meets_generations_switch_and_digests_form_1 :
    (fun (s : State) (ctx id : Nat) (m : Model) (n : NextGen) => decide ((s.model ctx id = some m)
      ∧ (m.next = some n)
      ∧ (n.ready = false)
      ∧ ((n.maps.zip m.regions).map (fun (x : MapEnt × Nat) => s.masterDigest x.2 n.slot n.gen x.1.plan x.1.stage x.1.index) = n.maps.map (fun e => e.digest))
      ∧ (shake256 (bytesOf 4 n.gen ++ bytesOf 4 n.maps.length ++ (n.maps.map (fun e => e.digest)).flatten) = n.digest))) ({ tCore with models := [{ tModel with next := some ⟨6, false, false, [], shake256 (bytesOf 4 6 ++ bytesOf 4 0), [], [], [], [], [], 1, 0, 0, none, 0, [], []⟩ }] }) (2) (7) ({ tModel with next := some ⟨6, false, false, [], shake256 (bytesOf 4 6 ++ bytesOf 4 0), [], [], [], [], [], 1, 0, 0, none, 0, [], []⟩ }) (⟨6, false, false, [], shake256 (bytesOf 4 6 ++ bytesOf 4 0), [], [], [], [], [], 1, 0, 0, none, 0, [], []⟩) = true := by
  decide

theorem test_meets_generations_switch_and_digests_form_2 :
    (fun (s : State) (ctx id stage : Nat) (m : Model) (w : Switching) (r : StageRec) => decide ((s.model ctx id = some m)
      ∧ (m.switching = some w)
      ∧ (m.stage stage = some r)
      ∧ (w.stage = stage)
      ∧ (w.advanced = false)
      ∧ ((w.targets.filter (fun c => !w.old.contains c)) = [])
      ∧ (w.old.all s.atBoundary = true)
      ∧ (s.epochFull m.context m.id r.stage = false))) ({ tOn with models := [{ tModel with switching := some ⟨0, [1], [1], false, false, []⟩ }] }) (2) (7) (0) ({ tModel with switching := some ⟨0, [1], [1], false, false, []⟩ }) (⟨0, [1], [1], false, false, []⟩) (tStage) = true := by
  decide

theorem test_meets_generations_switch_and_digests_form_3 :
    (fun (s : State) (ctx id stage : Nat) (m : Model) (w : Switching) (r : StageRec) => decide ((s.model ctx id = some m)
      ∧ (m.switching = some w)
      ∧ (m.stage stage = some r)
      ∧ (w.stage = stage)
      ∧ (w.advanced = true)
      ∧ (m.next = none)
      ∧ ((w.old.filter (fun c => !w.targets.contains c)).all (fun c => !s.coreOwes c) = true))) ({ tOn with models := [{ tModel with switching := some ⟨0, [1], [1], true, false, []⟩ }] }) (2) (7) (0) ({ tModel with switching := some ⟨0, [1], [1], true, false, []⟩ }) (⟨0, [1], [1], true, false, []⟩) (tStage) = true := by
  decide

theorem test_meets_generations_switch_and_digests_form_4 :
    (fun (s : State) (ctx id : Nat) (m : Model) => decide ((s.model ctx id = some m)
      ∧ (s.mgmt.down = false)
      ∧ (m.maps.length ≤ m.swept.length)
      ∧ (m.maps ≠ []))) ({ tCore with models := [{ tModel with maps := [⟨0, 0, 2, 0, 0, 0, 0, 8, 8, 0, 0, 0, 0, []⟩], swept := [0] }] }) (2) (7) ({ tModel with maps := [⟨0, 0, 2, 0, 0, 0, 0, 8, 8, 0, 0, 0, 0, []⟩], swept := [0] }) = true := by
  decide

/-! ### Core control -/

/-- That core with its program loaded, its engine written and calibrated and a glade in its table: it may start. -/
def tStart : State :=
  let s := ((tCore.setEngine 1 2 { tCore.engine 1 2 with run := none, written := true }).fset F.SEQ_STATUS_LOADED 1 1).fset F.KEEP_STATUS_STATE 0 1
  let s := [2, 32, 33, 34, 35].foldl (fun (s : State) e => s.fset F.ENG_STATUS_CAL_VALID (eng 1 e) 1) s
  (s.setCore 1 { s.core 1 with bank0 := [(0, 128)] }).fset F.CORE_CAD_CFG_LEN 1 4
/-- The core running. -/
def tRun : State := tCore.fset F.CORE_STATUS_STATE 1 2
/-- The core running, INIT ended, before slot 3 of its table. -/
def tSlot : State :=
  let s := ((tRun.fset F.SEQ_STATUS_INIT_DONE 1 1).fset F.CORE_CAD_STATUS_POS 1 2).fset F.CORE_CAD_CFG_LEN 1 4
  s.setCore 1 { s.core 1 with fresh := false }

theorem test_meets_core_commands_change_its_state_1 :
    (fun (s : State) (c : Nat) => decide ((s.retired c = false)
      ∧ (s.startReason c = 0)
      ∧ (s.seedWaits c = false))) (tStart) (1) = true := by
  decide

theorem test_meets_core_commands_change_its_state_2 :
    (fun (s : State) (c r : Nat) => decide ((s.retired c = false)
      ∧ (s.startReason c = r)
      ∧ (r ≠ 0)
      ∧ (r < 8))) (tCore) (1) (1) = true := by
  decide

theorem test_meets_core_commands_change_its_state_3 :
    (fun (s : State) (c : Nat) => decide ((s.fget F.CORE_STATUS_STATE c = 2)
      ∧ (s.serves c = false))) (tRun) (1) = true := by
  decide

theorem test_meets_core_commands_change_its_state_4 :
    (fun (s : State) (c : Nat) => decide ((s.fget F.CORE_STATUS_STATE c = 2)
      ∧ (s.serves c = false))) (tRun) (1) = true := by
  decide

theorem test_meets_core_commands_change_its_state_5 :
    (fun (s : State) (c : Nat) => decide ((s.fget F.CORE_STATUS_STATE c = 2)
      ∧ (s.serves c = true))) ((tRun.fset F.ADM_LANE_STATE_STATE 3 2).setLane 3 { Lane.empty with context := 2, model := 7, chain := [⟨0, [], 0, 0, 0⟩] }) (1) = true := by
  decide

theorem test_meets_core_commands_change_its_state_6 :
    (fun (s : State) (c : Nat) => decide ((s.fget F.CORE_STATUS_STATE c = 3)
      ∧ (s.allCalibrated c = true))) (tStart.fset F.CORE_STATUS_STATE 1 3) (1) = true := by
  decide

theorem test_meets_core_commands_change_its_state_7 :
    (fun (s : State) (c : Nat) => decide ((s.fget F.CORE_STATUS_STATE c = 3)
      ∧ (s.allCalibrated c = false))) (tCore.fset F.CORE_STATUS_STATE 1 3) (1) = true := by
  decide

theorem test_meets_core_commands_change_its_state_8 :
    (fun (s : State) (c : Nat) => decide ((s.fget F.CORE_STATUS_STATE c = 3))) (tCore.fset F.CORE_STATUS_STATE 1 3) (1) = true := by
  decide

theorem test_meets_core_commands_change_its_state_9 :
    (fun (s : State) (c : Nat) => decide ((s.atBoundary c = true)
      ∧ ((s.core c).req = .stop))) (tOn.setCore 1 { CoreSt.empty with req := .stop }) (1) = true := by
  decide

theorem test_meets_core_commands_change_its_state_10 :
    (fun (s : State) (c : Nat) => decide ((s.atBoundary c = true)
      ∧ ((s.core c).req = .halt))) (tOn.setCore 1 { CoreSt.empty with req := .halt }) (1) = true := by
  decide

theorem test_meets_cadence_and_core_memory_1 :
    (fun (s : State) (c : Nat) => decide (((s.peers c).all s.slotsRun = true)
      ∧ (s.nextPos c ≠ 0))) (tSlot) (1) = true := by
  decide

theorem test_meets_cadence_and_core_memory_2 :
    (fun (s : State) (c : Nat) => decide ((s.fon F.CORE_CAD_STATUS_SWITCH_PENDING c = true)
      ∧ ((s.peers c).all s.slotsRun = true)
      ∧ ((s.peers c).Nodup)
      ∧ (s.nextPos c = 0)
      ∧ (s.fget F.CORE_CAD_STATUS_BANK c < 2))) ((tSlot.fset F.CORE_CAD_STATUS_SWITCH_PENDING 1 1).setCore 1 { tSlot.core 1 with fresh := true }) (1) = true := by
  decide

theorem test_meets_cadence_and_core_memory_3 :
    (fun (s : State) (c v : Nat) => decide ((s.retired c = false)
      ∧ (s.coreLocked c = false)
      ∧ (4 ≤ v % 8192)
      ∧ (v % 8192 ≤ 4096)
      ∧ (1 ≤ v / 65536 % 16)
      ∧ (v / 65536 % 16 ≤ 8))) (tCore) (1) (0x81000) = true := by
  decide

theorem test_meets_cadence_and_core_memory_4 :
    (fun (s : State) (c v : Nat) => decide ((s.retired c = false)
      ∧ (s.coreLocked c = true))) (tRun) (1) (0x81000) = true := by
  decide

theorem test_meets_cadence_and_core_memory_5 :
    (fun (s : State) (c se row w : Nat) => decide ((Tab.find (s.core c).scrTime (se * 2048 + row) = some w)
      ∧ (se < 4)
      ∧ (row < 2048)
      ∧ (w + s.periodNs c < s.ns))) ({ tOn with ns := 20000000 }.setCore 1 { CoreSt.empty with scrTime := [(2049, 3)] }) (1) (1) (1) (3) = true := by
  decide

theorem test_meets_cadence_and_core_memory_6 :
    (fun (s : State) (c w : Nat) => decide ((w * 8 < sramSize))) (tOn) (1) (5) = true := by
  decide

theorem test_meets_cadence_and_core_memory_7 :
    (fun (s : State) (c w : Nat) => decide ((w * 8 < sramSize))) (tOn) (1) (5) = true := by
  decide

theorem test_meets_cadence_and_core_memory_8 :
    (fun (s : State) (c w : Nat) (err : EccErr) => decide ((sramSize ≤ w * 8))) (tOn) (1) (sramSize) (.none) = true := by
  decide

theorem test_meets_cadence_and_core_memory_9 :
    (fun (s : State) (c buf win : Nat) (f : Fetch) (b : Buffer) => decide (((s.core c).fetches = [f])
      ∧ (f.buf = buf)
      ∧ (f.win = win)
      ∧ ((s.core c).buffers = [b])
      ∧ (b.buf = buf)
      ∧ (win < 2)
      ∧ (s.reads = [])
      ∧ (s.fab.net = []))) (tOn.setCore 1 { CoreSt.empty with fetches := [{ thread := 0, buf := 4, chunk := 2, win := 1 }], buffers := [⟨4, 0, 8192, 4096, 0, true, false, 0, [], none, none, none⟩] }) (1) (4) (1) ({ thread := 0, buf := 4, chunk := 2, win := 1 }) (⟨4, 0, 8192, 4096, 0, true, false, 0, [], none, none, none⟩) = true := by
  decide

theorem test_meets_debug_mode_is_entered_and_left_1 :
    (fun (s : State) (c : Nat) => decide ((s.fget F.CORE_STATUS_STATE c = 1 ∨ s.fget F.CORE_STATUS_STATE c = 3)
      ∧ (s.conf (s.ctxOf c) = false)
      ∧ (s.fon F.KEEP_CORE_DATA_CLEAN c = true)
      ∧ (s.fget F.CORE_ROLE_ROLE c ≠ 2))) (tCore.fset F.KEEP_CORE_DATA_CLEAN 1 1) (1) = true := by
  decide

theorem test_meets_debug_mode_is_entered_and_left_2 :
    (fun (s : State) (c : Nat) => decide ((s.conf (s.ctxOf c) = true))) (tCore.fset F.KEEP_CTX_STATE_CONF 2 1) (1) = true := by
  decide

theorem test_meets_debug_mode_is_entered_and_left_3 :
    (fun (s : State) (c : Nat) => decide ((s.retired c = false))) (tCore.fset F.CORE_STATUS_DEBUG 1 1) (1) = true := by
  decide

/-! ### The stage sequencer -/

/-- Core 1 running, with one instruction at the program counter of each of its threads. -/
def tIns (w : Nat) : State := tRun.setSeq 1 { Sequencer.empty with
  pm := [(5, w)], regs := [(4, 0x1000)]
  vec := { Thread.empty with entry := .vec, pc := 5, a1 := 64, lane := 3, item := 77 }
  itm := { Thread.empty with entry := .item, pc := 5, a1 := 64, lane := 3, item := 77 } }
/-- The same with the ITEM thread alone. -/
def tItm (w : Nat) : State := (tIns w).setThread 1 .vec Thread.empty
/-- An instruction word from its opcode and its other bits. -/
def tOp (op rest : Nat) : Nat := op * 2 ^ 58 + rest

/-- A landed input vector that no thread has taken. -/
def tVin : VecIn := ⟨3, 77, 0, 0, 0x100, [1, 2, 3, 4], [1, 2, 3, 4], true, false, false, false, false, false, false, 0, 0⟩
/-- Two stages in a row. -/
def tStage0 : StageRec := { tStage with last := false, nextStage := 1, nextDevice := 255 }
def tStage1 : StageRec := { tStage with stage := 1, placed := [2] }
def tModel2 : Model := { tModel with stages := [tStage0, tStage1] }
/-- An item of lane 3 that came by a descriptor. -/
def tOrigin : Origin := ⟨1, 2, 5, 0x1000, 64, 0x2000, 64, false, false, 0⟩
def tOutCtx : ItemCtx := { ItemCtx.fresh 77 3 with state := .running, origin := some tOrigin }
def tOuth : State := { tItm (tOp 16 (4 * 2 ^ 54 + 1 * 2 ^ 21)) with items := [(0, tOutCtx)] }

theorem test_meets_entries_and_address_instructions_1 :
    (fun (s : State) (c : Nat) (v : VecIn) => decide (((s.seq c).vec.entry = .idle)
      ∧ (s.slotsRun c = true)
      ∧ (s.mayBegin c = true)
      ∧ ((issueEngines (s.seq c).pm 2048 (s.fget F.SEQ_PROG_VEC_PC c)).all (fun e => (s.engine c e).next.isNone) = true)
      ∧ (oldestReady (s.core c).vins [] = some v))) (tSlot.setCore 1 { tSlot.core 1 with vins := [tVin] }) (1) (tVin) = true := by
  decide

theorem test_meets_entries_and_address_instructions_2 :
    (fun (s : State) (c : Nat) (d : ItemDue) (r : List ItemDue) => decide (((s.seq c).due = d :: r)
      ∧ ((s.seq c).itm.entry = .idle)
      ∧ (s.fget F.CORE_STATUS_STATE c = 2))) (tRun.setSeq 1 { Sequencer.empty with due := [⟨3, 77, 0, 64, false⟩], itemPc := 9 }) (1) (⟨3, 77, 0, 64, false⟩) ([]) = true := by
  decide

theorem test_meets_entries_and_address_instructions_3 :
    (fun (s : State) (c w : Nat) => decide ((s.fetchOp c .itm 0x01 = some w)
      ∧ ((s.seq c).itm.entry = .init))) (tRun.setSeq 1 { Sequencer.empty with pm := [(5, tOp 1 0)], itm := { Thread.empty with entry := .init, pc := 5 } }) (1) (tOp 1 0) = true := by
  decide

theorem test_meets_entries_and_address_instructions_4 :
    (fun (s : State) (c w : Nat) => decide ((s.fetchOp c .vec 0x01 = some w)
      ∧ ((s.seq c).vec.entry = .vec))) (tIns (tOp 1 0)) (1) (tOp 1 0) = true := by
  decide

theorem test_meets_entries_and_address_instructions_5 :
    (fun (s : State) (c w : Nat) (th : Thr) => decide ((s.fetchOp c th 0x00 = some w))) (tIns 0) (1) (0) (.vec) = true := by
  decide

theorem test_meets_entries_and_address_instructions_6 :
    (fun (s : State) (c w : Nat) (th : Thr) => decide ((s.fetchOp c th 0x02 = some w))) (tIns (tOp 2 (4 * 2 ^ 54 + 255 * 2 ^ 46 + 0x80))) (1) (tOp 2 (4 * 2 ^ 54 + 255 * 2 ^ 46 + 0x80)) (.vec) = true := by
  decide

theorem test_meets_entries_and_address_instructions_7 :
    (fun (s : State) (c w : Nat) (th : Thr) => decide ((s.fetchOp c th 0x03 = some w))) (tIns (tOp 3 (4 * 2 ^ 54 + 0xFFFFF))) (1) (tOp 3 (4 * 2 ^ 54 + 0xFFFFF)) (.vec) = true := by
  decide

theorem test_meets_entries_and_address_instructions_8 :
    (fun (s : State) (c w : Nat) (th : Thr) => decide ((s.fetchOp c th 0x04 = some w))) (tIns (tOp 4 (9 * 65536 + 3))) (1) (tOp 4 (9 * 65536 + 3)) (.vec) = true := by
  decide

theorem test_meets_entries_and_address_instructions_9 :
    (fun (s : State) (c w : Nat) (th : Thr) => decide ((s.fetchOp c th 0x0C = some w)
      ∧ (s.fenceWaits c th (bits w 0 4) = false))) (tIns (tOp 12 15)) (1) (tOp 12 15) (.vec) = true := by
  decide

theorem test_meets_entries_and_address_instructions_10 :
    (fun (s : State) (c w : Nat) (th : Thr) => decide ((s.fetchOp c th 0x0C = some w)
      ∧ (s.fenceWaits c th (bits w 0 4) = true))) ((tIns (tOp 12 15)).setCore 1 { (tIns (tOp 12 15)).core 1 with scrQueue := [{ se := 0, row := 0, col0 := 0, values := [] }] }) (1) (tOp 12 15) (.vec) = true := by
  decide

theorem test_meets_issues_drains_and_sends_1 :
    (fun (s : State) (c w : Nat) (th : Thr) (es : List Nat) => decide ((s.fetchOp c th 0x05 = some w)
      ∧ (s.resident c (s.operand c th (issueOp w).as (issueOp w).off) (s.issueBytes c (issueOp w)) = true)
      ∧ (es = (rangeFrom (issueOp w).first ((issueOp w).last + 1 - (issueOp w).first)).filter (fun e => decide (32 ≤ e) || (s.engine c e).map.isSome))
      ∧ (es.all (fun e => (s.engine c e).next.isNone) = true))) (tIns (tOp 5 (4 * 2 ^ 54 + 33 * 2 ^ 31 + 33 * 2 ^ 25 + 1 * 2 ^ 23))) (1) (tOp 5 (4 * 2 ^ 54 + 33 * 2 ^ 31 + 33 * 2 ^ 25 + 1 * 2 ^ 23)) (.vec) ([33]) = true := by
  decide

theorem test_meets_issues_drains_and_sends_2 :
    (fun (s : State) (c w : Nat) (th : Thr) => decide ((s.fetchOp c th 0x05 = some w)
      ∧ (s.resident c (s.operand c th (issueOp w).as (issueOp w).off) (s.issueBytes c (issueOp w)) = true)
      ∧ ((s.engine c 33).next.isSome = true)
      ∧ ((issueOp w).first ≤ 33)
      ∧ (33 ≤ (issueOp w).last))) ((tIns (tOp 5 (4 * 2 ^ 54 + 33 * 2 ^ 31 + 33 * 2 ^ 25 + 1 * 2 ^ 23))).setEngine 1 33 { Engine.empty with next := some tVec }) (1) (tOp 5 (4 * 2 ^ 54 + 33 * 2 ^ 31 + 33 * 2 ^ 25 + 1 * 2 ^ 23)) (.vec) = true := by
  decide

theorem test_meets_issues_drains_and_sends_3 :
    (fun (s : State) (c w k : Nat) (th : Thr) => decide ((s.fetchOp c th 0x06 = some w)
      ∧ (k = (if (drainOp w).tile = 1 then 0 else if (drainOp w).tile = 2 then 1 else if (drainOp w).tile = 3 then Tab.getD (s.core c).lastTile (drainOp w).first 0 else Tab.getD (s.thread c th).tiles (drainOp w).first 0))
      ∧ ((s.tile c k).drain = none)
      ∧ ((s.thread c th).draining = false))) (tIns (tOp 6 (2 * 2 ^ 56 + 3 * 2 ^ 50))) (1) (tOp 6 (2 * 2 ^ 56 + 3 * 2 ^ 50)) (1) (.vec) = true := by
  decide

theorem test_meets_issues_drains_and_sends_4 :
    (fun (s : State) (c w : Nat) (th : Thr) (m : Model) (r : StageRec) => decide ((s.fetchOp c th 0x07 = some w)
      ∧ (s.resident c (s.operand c th (sendOp w).as (sendOp w).off) ((sendOp w).len * 64) = true)
      ∧ ((sendOp w).dest = 1)
      ∧ (s.stageOf c = some (m, r)))) (tIns (tOp 7 (4 * 2 ^ 54 + 1 * 2 ^ 21 + 1 * 2 ^ 18))) (1) (tOp 7 (4 * 2 ^ 54 + 1 * 2 ^ 21 + 1 * 2 ^ 18)) (.vec) (tModel) (tStage) = true := by
  decide

theorem test_meets_issues_drains_and_sends_5 :
    (fun (s : State) (c w : Nat) (th : Thr) (m : Model) (r n : StageRec) => decide ((s.fetchOp c th 0x07 = some w)
      ∧ (s.resident c (s.operand c th (sendOp w).as (sendOp w).off) ((sendOp w).len * 64) = true)
      ∧ ((sendOp w).dest ≠ 1)
      ∧ ((sendOp w).dest ≠ 3)
      ∧ (s.partsReady c (s.thread c th) = true)
      ∧ (s.stageOf c = some (m, r))
      ∧ (m.nextOn r = some n))) ({ (tIns (tOp 7 (4 * 2 ^ 54 + 1 * 2 ^ 21))) with models := [tModel2] }) (1) (tOp 7 (4 * 2 ^ 54 + 1 * 2 ^ 21)) (.vec) (tModel2) (tStage0) (tStage1) = true := by
  decide

theorem test_meets_issues_drains_and_sends_6 :
    (fun (s : State) (c w : Nat) (th : Thr) (m : Model) (r : StageRec) => decide ((s.fetchOp c th 0x07 = some w)
      ∧ ((sendOp w).dest = 3)
      ∧ ((s.thread c th).stalled = true)
      ∧ (s.partsReady c (s.thread c th) = true)
      ∧ (s.stageOf c = some (m, r)))) ((tIns (tOp 7 (4 * 2 ^ 54 + 1 * 2 ^ 21 + 3 * 2 ^ 18))).setThread 1 .vec { (tIns 0).thread 1 .vec with stalled := true }) (1) (tOp 7 (4 * 2 ^ 54 + 1 * 2 ^ 21 + 3 * 2 ^ 18)) (.vec) (tModel) (tStage) = true := by
  decide

theorem test_meets_vector_unit_and_spill_instructions_1 :
    (fun (s : State) (c w : Nat) (th : Thr) => decide ((s.fetchOp c th 0x08 = some w)
      ∧ (s.resident c (s.operand c th (scrwOp w).as (scrwOp w).off) (fmtBytes (scrwOp w).fmt ((scrwOp w).cnt + 1)) = true))) (tIns (tOp 8 (4 * 2 ^ 54 + 2 * 2 ^ 35 + 7 * 2 ^ 20 + 3 * 2 ^ 4))) (1) (tOp 8 (4 * 2 ^ 54 + 2 * 2 ^ 35 + 7 * 2 ^ 20 + 3 * 2 ^ 4)) (.vec) = true := by
  decide

theorem test_meets_vector_unit_and_spill_instructions_2 :
    (fun (s : State) (c w : Nat) (th : Thr) => decide ((s.fetchOp c th 0x09 = some w)
      ∧ ((vopSpans (vopOp w)).all (fun (x : Nat × Nat) => s.resident c (s.areg c th x.1) x.2) = true))) (tIns (tOp 9 (4 * 2 ^ 54))) (1) (tOp 9 (4 * 2 ^ 54)) (.vec) = true := by
  decide

theorem test_meets_vector_unit_and_spill_instructions_3 :
    (fun (s : State) (c w : Nat) (th : Thr) (x : Buffer) => decide ((s.fetchOp c th 0x0A = some w)
      ∧ (s.buffer c (bits w 50 8) = some x)
      ∧ (x.spilled = true)
      ∧ (x.host = false))) ((tIns (tOp 10 (4 * 2 ^ 50))).setCore 1 { CoreSt.empty with buffers := [⟨4, 0, 8192, 4096, 0, true, false, 0, [], none, none, none⟩] }) (1) (tOp 10 (4 * 2 ^ 50)) (.vec) (⟨4, 0, 8192, 4096, 0, true, false, 0, [], none, none, none⟩) = true := by
  decide

theorem test_meets_vector_unit_and_spill_instructions_4 :
    (fun (s : State) (c w : Nat) (th : Thr) (x : Buffer) => decide ((s.fetchOp c th 0x0B = some w)
      ∧ (s.buffer c (bits w 50 8) = some x)
      ∧ (x.spilled = true)
      ∧ (x.host = false))) ((tIns (tOp 11 (4 * 2 ^ 50))).setCore 1 { CoreSt.empty with buffers := [⟨4, 0, 128, 64, 0, true, false, 0, [], none, none, none⟩] }) (1) (tOp 11 (4 * 2 ^ 50)) (.vec) (⟨4, 0, 128, 64, 0, true, false, 0, [], none, none, none⟩) = true := by
  decide

theorem test_meets_vector_unit_and_spill_instructions_5 :
    (fun (s : State) (c w : Nat) (th : Thr) (x : Buffer) => decide ((s.fetchOp c th 0x0B = some w)
      ∧ (s.buffer c (bits w 50 8) = some x)
      ∧ (x.spilled = false))) ((tIns (tOp 11 (4 * 2 ^ 50))).setCore 1 { CoreSt.empty with buffers := [⟨4, 0, 128, 64, 0, false, false, 0, [], none, none, none⟩] }) (1) (tOp 11 (4 * 2 ^ 50)) (.vec) (⟨4, 0, 128, 64, 0, false, false, 0, [], none, none, none⟩) = true := by
  decide

theorem test_meets_program_counters_verdicts_and_outputs_1 :
    (fun (s : State) (c w : Nat) (th : Thr) (m : Model) (r : StageRec) => decide ((s.fetchOp c th 0x0D = some w)
      ∧ (s.stageOf c = some (m, r))
      ∧ (bit w 57 = true)
      ∧ (s.fab.held.all (fun p => p.thread != some (thrNum c th)) = true))) (tIns (tOp 13 (2 ^ 57 + 3 * 2 ^ 36 + 9 * 2 ^ 20))) (1) (tOp 13 (2 ^ 57 + 3 * 2 ^ 36 + 9 * 2 ^ 20)) (.vec) (tModel) (tStage) = true := by
  decide

theorem test_meets_program_counters_verdicts_and_outputs_2 :
    (fun (s : State) (c w : Nat) (m : Model) (r : StageRec) => decide ((s.fetchOp c .itm 0x0E = some w)
      ∧ ((s.seq c).joined = false)
      ∧ (s.sync.waits = [])
      ∧ (s.stageOf c = some (m, r))
      ∧ (bits w 20 16 ≠ 0)
      ∧ (bits w 20 16 ≤ s.ctr (r.syncBase + bits w 36 14))
      ∧ (s.ctr (r.syncBase + bits w 36 14) < 2 ^ 32)
      ∧ (s.fget F.SYNC_WAITTAB_USED 0 < 4096))) ((tItm (tOp 14 (3 * 2 ^ 36 + 9 * 2 ^ 20))).fset F.SYNC_VALUE_VALUE 3 11) (1) (tOp 14 (3 * 2 ^ 36 + 9 * 2 ^ 20)) (tModel) (tStage) = true := by
  decide

theorem test_meets_program_counters_verdicts_and_outputs_3 :
    (fun (s : State) (c w : Nat) (th : Thr) => decide ((s.fetchOp c th 0x0F = some w)
      ∧ ((s.thread c th).entry = .item)
      ∧ ((s.thread c th).verdict = false))) (tItm (tOp 15 (4 * 2 ^ 54))) (1) (tOp 15 (4 * 2 ^ 54)) (.itm) = true := by
  decide

theorem test_meets_program_counters_verdicts_and_outputs_4 :
    (fun (s : State) (c w n : Nat) (th : Thr) (y : ItemCtx) (o : Origin) => decide ((s.fetchOp c th 0x10 = some w)
      ∧ (s.resident c (s.operand c th (insAs w) (insOff w)) (bits w 21 16 * 64) = true)
      ∧ (s.ctxOn (s.thread c th).item (s.thread c th).lane = some (n, y))
      ∧ (y.origin = some o)
      ∧ (o.canopy = false)
      ∧ (y.cpl = false))) (tOuth) (1) (tOp 16 (4 * 2 ^ 54 + 1 * 2 ^ 21)) (0) (.itm) (tOutCtx) (tOrigin) = true := by
  decide

/-! ### The loader's end and the fabric -/

/-- Core 1 ready to start at the end of its model's load. -/
def tLoadEnd : State :=
  let s := [2, 32, 33, 34, 35].foldl (fun (s : State) e => s.setEngine 1 e { s.engine 1 e with bitWeights := [(0, [1])] }) tStart
  { s with models := [{ tModel with state := .starting, waiter := some (1, 130, 0) }] }
/-- One packet on the fabric. -/
def tPkt (p : Packet) : State := { tRun with fab := { Fabric.empty with net := [{ p with key := 9 }], nextKey := 10, credit := [(4, 4096)] } }
/-- The same with the item 77 of lane 3 running. -/
def tPktItem (p : Packet) : State := { tPkt p with items := [(0, tOutCtx)] }

theorem test_meets_packets_land_and_are_receipted_1 :
    (fun (s : State) (k n : Nat) (p : Packet) (r : StageRec) (x : ItemCtx) => decide ((s.packet k = some p)
      ∧ (p.typ = .vector)
      ∧ (p.remote = false)
      ∧ ((s.entryEpoch (stageKey p.context p.model p.stage)).judge p.epoch = 0)
      ∧ ((s.model p.context p.model).bind (fun m => m.stage p.dstStage) = some r)
      ∧ (s.ctxOn p.item p.lane = some (n, x))
      ∧ (x.state = .running)
      ∧ ((s.core r.entry).vins = []))) (tPktItem { Packet.empty with typ := .vector, context := 2, model := 7, lane := 3, item := 77, payload := [1, 2, 3, 4] }) (9) (0) ({ Packet.empty with key := 9, typ := .vector, context := 2, model := 7, lane := 3, item := 77, payload := [1, 2, 3, 4] }) (tStage) (tOutCtx) = true := by
  decide

theorem test_meets_packets_land_and_are_receipted_2 :
    (fun (s : State) (k : Nat) (p : Packet) => decide ((s.packet k = some p)
      ∧ (p.typ = .vector)
      ∧ (p.remote = false))) (tPkt { Packet.empty with typ := .vector }) (9) ({ Packet.empty with key := 9, typ := .vector }) = true := by
  decide

theorem test_meets_packets_land_and_are_receipted_3 :
    (fun (s : State) (k : Nat) (p : Packet) (m : Model) (r : StageRec) => decide ((s.packet k = some p)
      ∧ (p.typ = .kpart)
      ∧ (s.stageOf p.dst = some (m, r))
      ∧ ((s.core p.dst).vins = []))) (tPkt { Packet.empty with typ := .kpart, dst := 1, lane := 3, item := 77, payload := [1, 2, 3, 4] }) (9) ({ Packet.empty with key := 9, typ := .kpart, dst := 1, lane := 3, item := 77, payload := [1, 2, 3, 4] }) (tModel) (tStage) = true := by
  decide

theorem test_meets_packets_land_and_are_receipted_4 :
    (fun (s : State) (k : Nat) (p : Packet) => decide ((s.packet k = some p)
      ∧ (p.typ = .exitPart)
      ∧ ((s.epoch (stageKey p.context p.model p.stage)).judge p.epoch = 0))) (tPkt { Packet.empty with typ := .exitPart, dst := 1, lane := 3, item := 77, payload := [1, 2] }) (9) ({ Packet.empty with key := 9, typ := .exitPart, dst := 1, lane := 3, item := 77, payload := [1, 2] }) = true := by
  decide

theorem test_meets_packets_land_and_are_receipted_5 :
    (fun (s : State) (k : Nat) (p : Packet) => decide ((s.packet k = some p)
      ∧ (p.typ = .group)
      ∧ ((s.epoch (stageKey p.context p.model p.stage)).judge p.epoch = 0)
      ∧ ((s.tile p.dst (p.nOff % 2)).got.contains p.src = false))) (tPkt { Packet.empty with typ := .group, dst := 1, src := 4, eout := 3, cols := [(2048, 5)] }) (9) ({ Packet.empty with key := 9, typ := .group, dst := 1, src := 4, eout := 3, cols := [(2048, 5)] }) = true := by
  decide

theorem test_meets_packets_land_and_are_receipted_6 :
    (fun (s : State) (k : Nat) (p : Packet) (e : EpochSt) => decide ((s.packet k = some p)
      ∧ (p.typ = .epochClose)
      ∧ (s.epoch (stageKey p.context p.model p.stage) = e)
      ∧ (epochAhead p.epoch e.cur = 1)
      ∧ (e.waiting.contains p.src = true))) ((tPkt { Packet.empty with typ := .epochClose, src := 1, context := 2, model := 7, epoch := 4 }).setEpoch (stageKey 2 7 0) ⟨5, true, [1]⟩) (9) ({ Packet.empty with key := 9, typ := .epochClose, src := 1, context := 2, model := 7, epoch := 4 }) (⟨5, true, [1]⟩) = true := by
  decide

theorem test_meets_packets_land_and_are_receipted_7 :
    (fun (s : State) (k : Nat) (p q : Packet) => decide ((s.packet k = some p)
      ∧ (p.typ = .receipt)
      ∧ (p.nack = false)
      ∧ (s.fab.held = [q])
      ∧ (q.key = p.ref)
      ∧ (q.remote = false))) ({ tRun with fab := { Fabric.empty with net := [{ Packet.empty with key := 9, typ := .receipt, ref := 4 }], held := [{ Packet.empty with key := 4 }] } }) (9) ({ Packet.empty with key := 9, typ := .receipt, ref := 4 }) ({ Packet.empty with key := 4 }) = true := by
  decide

theorem test_meets_packets_land_and_are_receipted_8 :
    (fun (s : State) (k : Nat) (q : Packet) => decide ((s.fab.held = [q])
      ∧ (q.key = k)
      ∧ (q.remote = false)
      ∧ (q.retx = false)
      ∧ (q.sentNs + s.fget F.FAB_CFG_RECEIPT_TO_US 0 * 1000 ≤ s.ns))) ({ tRun with ns := 100000000, fab := { Fabric.empty with held := [{ Packet.empty with key := 4, typ := .vector }] } }) (4) ({ Packet.empty with key := 4, typ := .vector }) = true := by
  decide

theorem test_meets_memory_requests_and_the_controller_1 :
    (fun (s : State) (k : Nat) (p : Packet) => decide ((s.packet k = some p)
      ∧ (p.typ = .memRead)
      ∧ (p.addr + p.len ≤ dramSize)
      ∧ (s.memOpen = true))) (tPkt { Packet.empty with typ := .memRead, addr := 0x100, len := 8 }) (9) ({ Packet.empty with key := 9, typ := .memRead, addr := 0x100, len := 8 }) = true := by
  decide

theorem test_meets_memory_requests_and_the_controller_2 :
    (fun (s : State) (k : Nat) (p : Packet) => decide ((s.packet k = some p)
      ∧ (p.typ = .memWrite)
      ∧ (p.addr + p.payload.length ≤ dramSize)
      ∧ (s.memOpen = true)
      ∧ (cellsWf s.dram = true))) ({ tPkt { Packet.empty with typ := .memWrite, addr := 0x100, payload := [0, 5] } with dram := [(0x100, 3), (0x102, 7)] }) (9) ({ Packet.empty with key := 9, typ := .memWrite, addr := 0x100, payload := [0, 5] }) = true := by
  decide

theorem test_meets_memory_requests_and_the_controller_3 :
    (fun (s : State) (k : Nat) (p : Packet) => decide ((s.packet k = some p)
      ∧ (p.typ = .memWrite)
      ∧ (dramSize < p.addr + p.payload.length))) (tPkt { Packet.empty with typ := .memWrite, addr := dramSize, payload := [5] }) (9) ({ Packet.empty with key := 9, typ := .memWrite, addr := dramSize, payload := [5] }) = true := by
  decide

theorem test_meets_memory_requests_and_the_controller_4 :
    (fun (s : State) (k : Nat) (p : Packet) (err : EccErr) => decide ((s.packet k = some p)
      ∧ (p.typ = .memRead)
      ∧ (dramSize < p.addr + p.len))) (tPkt { Packet.empty with typ := .memRead, addr := dramSize, len := 1 }) (9) ({ Packet.empty with key := 9, typ := .memRead, addr := dramSize, len := 1 }) (.none) = true := by
  decide

theorem test_meets_memory_requests_and_the_controller_5 :
    (fun (s : State) (k : Nat) (p q : Packet) (b : Buffer) => decide ((s.packet k = some p)
      ∧ (p.typ = .readData)
      ∧ (p.nack = false)
      ∧ (s.fab.held.find? (fun x => x.key == p.ref) = some q)
      ∧ (s.buffer p.dst (p.nOff / 2) = some b))) ((let s := tPkt { Packet.empty with typ := .readData, dst := 1, nOff := 8, ref := 4, payload := [1, 2] }; { s with fab := { s.fab with held := [{ Packet.empty with key := 4 }] } }).setCore 1 { CoreSt.empty with buffers := [⟨4, 0, 128, 64, 0, true, false, 0, [], none, none, none⟩] }) (9) ({ Packet.empty with key := 9, typ := .readData, dst := 1, nOff := 8, ref := 4, payload := [1, 2] }) ({ Packet.empty with key := 4 }) (⟨4, 0, 128, 64, 0, true, false, 0, [], none, none, none⟩) = true := by
  decide

theorem test_meets_memory_requests_and_the_controller_6 :
    (fun (s : State) (b : Nat) => decide ((s.fab.patrol < 48127))) (tOn) (5) = true := by
  decide

theorem test_meets_memory_requests_and_the_controller_7 :
    (fun (s : State) (b : Nat) => decide ((s.fab.patrol = 48127))) ({ tOn with fab := { Fabric.empty with patrol := 48127 } }) (5) = true := by
  decide

theorem test_meets_memory_requests_and_the_controller_9 :
    (fun (s : State) (v : Nat) => decide ((s.staging F.FAB_CFG_RECEIPT_TO_US 0 = v)
      ∧ (1 ≤ v)
      ∧ (v ≤ 16))) (tOn.stage F.FAB_CFG_RECEIPT_TO_US 0 5) (5) = true := by
  decide

theorem test_meets_memory_requests_and_the_controller_10 :
    (fun (s : State) => decide ((16 < s.staging F.FAB_CFG_RECEIPT_TO_US 0))) (tOn.stage F.FAB_CFG_RECEIPT_TO_US 0 17) = true := by
  decide

/-! ### Rings -/

/-- A 64-byte descriptor. -/
def tDesc (op ctx lane item inLen outLen arg0 arg1 : Nat) : List Nat :=
  [op, 0, ctx, lane] ++ bytesOf 4 5 ++ bytesOf 6 item ++ [0, 0] ++ bytesOf 8 0x4000 ++ bytesOf 4 inLen ++ [0, 0, 0, 0]
    ++ bytesOf 8 0x8000 ++ bytesOf 4 outLen ++ [0, 0, 0, 0] ++ bytesOf 8 arg0 ++ bytesOf 8 arg1
/-- Ring 2 of function 1 running, of 16 entries each way, in a running host section. -/
def tRing : State :=
  let s := ((tRun.fset F.GLB_PWR_STATUS_STATE 0 1).fset F.RING_STATUS_STATE 130 1).fset F.RING_CFG_SQ_LOG2 130 4
  { s.fset F.RING_CFG_CQ_LOG2 130 4 with busMaster := [1] }
/-- The same with one checked descriptor that it has taken. -/
def tTaken (d : List Nat) : Taken := ⟨0, d, 0, true, false, false, true, [], [], 0, false, false⟩
def tCmd (d : List Nat) : State := tRing.setRing 130 { Ring.empty with taken := [tTaken d] }

theorem test_meets_descriptors_are_taken_and_read_1 :
    (fun (s : State) (f r : Nat) => decide ((ringExists f r = true)
      ∧ (s.mayTake f (ringKey f r) = true)
      ∧ (s.fget F.RING_CFG_KIND (ringKey f r) = 0))) (tRing.fset F.RING_SQ_TAIL_COUNT 130 1) (1) (2) = true := by
  decide

theorem test_meets_descriptors_are_taken_and_read_2 :
    (fun (s : State) (tag c buf win : Nat) (r : HostRead) (x : Buffer) (d : List Nat) => decide ((s.findRead tag = some r)
      ∧ (r.use = .chunk c buf win)
      ∧ (s.buffer c buf = some x))) ({ tRing.setCore 1 { CoreSt.empty with buffers := [⟨4, 0, 8192, 4096, 0, true, true, 0, [], none, none, none⟩] } with reads := [⟨3, 1, 0, 4, .chunk 1 4 0, false, false⟩] }) (3) (1) (4) (0) (⟨3, 1, 0, 4, .chunk 1 4 0, false, false⟩) (⟨4, 0, 8192, 4096, 0, true, true, 0, [], none, none, none⟩) ([1, 2, 3, 4]) = true := by
  decide

theorem test_meets_descriptors_are_taken_and_read_3 :
    (fun (s : State) (tag : Nat) (r : HostRead) (d : List Nat) => decide ((s.findRead tag = some r)
      ∧ (r.again = false))) ({ tRing with reads := [⟨3, 1, 0, 64, .desc 130 0, false, false⟩] }) (3) (⟨3, 1, 0, 64, .desc 130 0, false, false⟩) ([]) = true := by
  decide

theorem test_meets_descriptors_are_taken_and_read_4 :
    (fun (s : State) (tag k n : Nat) (r : HostRead) => decide ((s.findRead tag = some r)
      ∧ (r.use = .desc k n)
      ∧ (r.again = true))) ({ tCmd (tDesc 0x10 2 0 0 0 0 0 0) with reads := [⟨3, 1, 0, 64, .desc 130 0, true, false⟩] }) (3) (130) (0) (⟨3, 1, 0, 64, .desc 130 0, true, false⟩) = true := by
  decide

theorem test_meets_descriptors_are_taken_and_read_5 :
    (fun (s : State) (tag n off : Nat) (r : HostRead) => decide ((s.findRead tag = some r)
      ∧ (r.use = .input n off)
      ∧ (r.again = true))) ({ tRing with reads := [⟨3, 1, 0, 64, .input 0 0, true, false⟩] }) (3) (0) (0) (⟨3, 1, 0, 64, .input 0 0, true, false⟩) = true := by
  decide

theorem test_meets_descriptors_are_taken_and_read_6 :
    (fun (s : State) (tag ns : Nat) => decide (((s.findRead tag).isSome = true)
      ∧ (s.fget F.HIF_LAT_LIMIT_NS 0 < ns)
      ∧ (ns < 65536)
      ∧ (s.fget F.HIF_LAT_MAX_NS 0 < 65536))) ({ tRing with reads := [⟨3, 1, 0, 64, .desc 130 0, false, false⟩] }) (3) (60000) = true := by
  decide

theorem test_meets_doorbells_and_ring_control_1 :
    (fun (s : State) (f r v : Nat) => decide ((ringExists f r = true)
      ∧ (s.fget F.RING_STATUS_STATE (ringKey f r) = 1)
      ∧ (cntDiff (v % 2 ^ 32) (s.fget F.RING_SQ_TAIL_COUNT (ringKey f r)) ≤ s.sqSize (ringKey f r))
      ∧ (cntDiff (v % 2 ^ 32) (s.fget F.RING_SQ_HEAD_COUNT (ringKey f r)) ≤ s.sqSize (ringKey f r)))) (tRing) (1) (2) (3) = true := by
  decide

theorem test_meets_doorbells_and_ring_control_2 :
    (fun (s : State) (f r v : Nat) => decide ((ringExists f r = true)
      ∧ (s.sqSize (ringKey f r) < cntDiff (v % 2 ^ 32) (s.fget F.RING_SQ_TAIL_COUNT (ringKey f r))))) (tRing) (1) (2) (17) = true := by
  decide

theorem test_meets_doorbells_and_ring_control_3 :
    (fun (s : State) (f r : Nat) => decide ((ringExists f r = true)
      ∧ (s.ringStartReason f (ringKey f r) = 0))) (tRing.fset F.RING_STATUS_STATE 130 0) (1) (2) = true := by
  decide

theorem test_meets_doorbells_and_ring_control_4 :
    (fun (s : State) (f r k : Nat) => decide ((ringExists f r = true)
      ∧ (s.ringStartReason f (ringKey f r) = k)
      ∧ (k ≠ 0)
      ∧ (k < 8))) (tRing) (1) (2) (5) = true := by
  decide

theorem test_meets_doorbells_and_ring_control_5 :
    (fun (s : State) (f r : Nat) => decide ((ringExists f r = true)
      ∧ (s.fget F.RING_STATUS_STATE (ringKey f r) = 1))) (tRing) (1) (2) = true := by
  decide

theorem test_meets_doorbells_and_ring_control_6 :
    (fun (s : State) (f r : Nat) => decide ((ringExists f r = true)
      ∧ (s.fget F.RING_STATUS_STATE (ringKey f r) = 2)
      ∧ ((s.ring (ringKey f r)).taken.all (fun x => x.released && !x.slot) = true))) (tRing.fset F.RING_STATUS_STATE 130 2) (1) (2) = true := by
  decide

theorem test_meets_doorbells_and_ring_control_7 :
    (fun (s : State) (f r v : Nat) => decide ((ringExists f r = true)
      ∧ (s.staging F.RING_MOD_COUNT (ringKey f r) = v)
      ∧ (v ≠ 0)
      ∧ (v < 256))) (tRing.stage F.RING_MOD_COUNT 130 9) (1) (2) (9) = true := by
  decide

theorem test_meets_doorbells_and_ring_control_8 :
    (fun (s : State) (f r n a : Nat) (rest : List (Nat × Nat)) => decide (((s.ring (ringKey f r)).irq = (n, a) :: rest)
      ∧ (s.fon F.RING_CFG_IRQ_EN (ringKey f r) = true)
      ∧ (s.fget F.RING_MOD_TIME_US (ringKey f r) ≠ 0)
      ∧ (a + s.fget F.RING_MOD_TIME_US (ringKey f r) * 1000 ≤ s.ns))) (((tRing.fset F.RING_CFG_IRQ_EN 130 1).fset F.RING_MOD_TIME_US 130 1).setRing 130 { Ring.empty with irq := [(1, 100)] }) (1) (2) (1) (100) ([]) = true := by
  decide

theorem test_meets_doorbells_and_ring_control_9 :
    (fun (s : State) (f r : Nat) => decide ((s.ats.contains f = true)
      ∧ ((s.ring (ringKey f r)).window.isSome = true))) ({ tRing.setRing 130 { Ring.empty with window := some (0, 4096) } with ats := [1] }) (1) (2) = true := by
  decide

theorem test_meets_functions_reset_and_the_link_retrains_1 :
    (fun (s : State) (v : Nat) => decide ((1 ≤ v)
      ∧ (v ≤ 32)
      ∧ (s.tdi v = 0))) (tCmd (tDesc 0x10 2 0 0 0 0 0 0)) (1) = true := by
  decide

theorem test_meets_functions_reset_and_the_link_retrains_3 :
    (fun (s : State) (f : Nat) => decide ((f ≤ 32)
      ∧ (s.items = []))) ({ tRing with busMaster := [] }) (1) = true := by
  decide

theorem test_meets_functions_reset_and_the_link_retrains_4 :
    (fun (s : State) (g w : Nat) (flit : Bool) => decide ((s.power.linkUp = true)
      ∧ (1 ≤ g)
      ∧ (g ≤ 6)
      ∧ (w = 1 ∨ w = 2 ∨ w = 4 ∨ w = 8 ∨ w = 16))) (tRing) (4) (8) (false) = true := by
  decide

/-! ### Ring commands -/

def tPage : PageEnt := ⟨2, 1, 0, 0, false⟩
/-- A context's load area with its first page. -/
def tArea : State := { tCmd (tDesc 0x11 2 0 0 4 0 8 0) with fab := { tRing.fab with pages := [(1500, tPage)] } }
/-- A contract of lane 3 with the given flags. -/
def tCon (fl : Nat) : List Nat := [3, fl, 2, 0, 0, 0, 0, 0, 7] ++ List.replicate 15 0 ++ bytesOf 4 100000 ++ [0, 0, 0, 0] ++ bytesOf 4 80000 ++
  List.replicate 16 0 ++ bytesOf 4 4 ++ List.replicate 72 0
/-- A ready next generation. -/
def tNext : NextGen := ⟨6, true, false, [], [], [], [], [], [], [], 1, 0, 0, none, 0, [], []⟩

theorem test_meets_item_descriptors_join_their_context_1 :
    (fun (s : State) (f r : Nat) (d : Taken) => decide ((Runnable f r 1 d s)
      ∧ (s.ctxsOf (dItem d.bytes) = [])
      ∧ (s.canCreate = true)
      ∧ (s.busMaster.contains f = true))) (tCmd (tDesc 1 2 3 77 4 4 0 0)) (1) (2) (tTaken (tDesc 1 2 3 77 4 4 0 0)) = true := by
  decide

theorem test_meets_item_descriptors_join_their_context_2 :
    (fun (s : State) (f r n : Nat) (d : Taken) (x : ItemCtx) => decide ((Runnable f r 1 d s)
      ∧ (d.released = true)
      ∧ (s.ctxOn (dItem d.bytes) (dLane d.bytes) = some (n, x))
      ∧ (x.state ≠ .created)
      ∧ (f ≤ 32))) ({ tRing.setRing 130 { Ring.empty with taken := [{ tTaken (tDesc 1 2 3 77 4 4 0 0) with released := true }] } with items := [(0, tOutCtx)] }) (1) (2) (0) ({ tTaken (tDesc 1 2 3 77 4 4 0 0) with released := true }) (tOutCtx) = true := by
  decide

theorem test_meets_item_descriptors_join_their_context_3 :
    (fun (s : State) (v n : Nat) (x : ItemCtx) => decide ((s.ctxOn (s.fget F.ITEM_SEL_LO_ID_LO 0 + v % 65536 * 2 ^ 32) (v / 65536 % 64) = some (n, x))
      ∧ (s.conf (s.lane (v / 65536 % 64)).context = false))) ({ tRing.fset F.ITEM_SEL_LO_ID_LO 0 77 with items := [(0, tOutCtx)] }) (3 * 65536) (0) (tOutCtx) = true := by
  decide

theorem test_meets_item_descriptors_join_their_context_4 :
    (fun (s : State) (v : Nat) => decide ((s.ctxOn (s.fget F.ITEM_SEL_LO_ID_LO 0 + v % 65536 * 2 ^ 32) (v / 65536 % 64) = none))) (tRing) (3 * 65536) = true := by
  decide

theorem test_meets_commands_complete_with_their_status_1 :
    (fun (s : State) (f r : Nat) (d : Taken) => decide ((Runnable f r 0x10 d s))) (tCmd (tDesc 0x10 2 0 0 0 0 0 0)) (1) (2) (tTaken (tDesc 0x10 2 0 0 0 0 0 0)) = true := by
  decide

theorem test_meets_commands_complete_with_their_status_2 :
    (fun (s u : State) (f r : Nat) (d : Taken) (b : List Nat) => decide ((Runnable f r 0x11 d s)
      ∧ (s.loading (dCtx d.bytes) = false)
      ∧ (s.allocArea (dCtx d.bytes) (areaPages (dArg0 d.bytes) (dInLen d.bytes)) = some u)
      ∧ (b.length = dInLen d.bytes))) (tArea) (tArea) (1) (2) (tTaken (tDesc 0x11 2 0 0 4 0 8 0)) ([1, 2, 3, 4]) = true := by
  decide

theorem test_meets_commands_complete_with_their_status_3 :
    (fun (s : State) (f r : Nat) (d : Taken) => decide ((Runnable f r 0x12 d s))) (tCmd (tDesc 0x12 2 0 0 0 4 8 0)) (1) (2) (tTaken (tDesc 0x12 2 0 0 0 4 8 0)) = true := by
  decide

theorem test_meets_commands_complete_with_their_status_4 :
    (fun (s : State) (f r : Nat) (d : Taken) => decide ((Runnable f r 0x1C d s)
      ∧ (s.loading (dCtx d.bytes) = false))) ({ tCmd (tDesc 0x1C 2 0 0 0 0 0 0) with fab := tArea.fab }) (1) (2) (tTaken (tDesc 0x1C 2 0 0 0 0 0 0)) = true := by
  decide

theorem test_meets_commands_complete_with_their_status_5 :
    (fun (s : State) (f r : Nat) (d : Taken) => decide ((Runnable f r 0x1A d s)
      ∧ (dInLen d.bytes ≠ 0)
      ∧ (s.ats = []))) (tCmd (tDesc 0x1A 0 0 0 4096 0 5 0)) (1) (2) (tTaken (tDesc 0x1A 0 0 0 4096 0 5 0)) = true := by
  decide

theorem test_meets_commands_complete_with_their_status_6 :
    (fun (s : State) (f r g : Nat) (d : Taken) => decide ((Runnable f r 0x1B d s)
      ∧ (g = ringKey (s.ringFunc (ringKey f r) (s.lane (dLane d.bytes)).context) (dArg0 d.bytes % 256))
      ∧ (s.laneUp (dLane d.bytes) = true)
      ∧ ((s.lane (dLane d.bytes)).ring = none)
      ∧ (s.bindable g = true))) (((tCmd (tDesc 0x1B 0 3 0 0 0 5 0)).fset F.ADM_LANE_STATE_STATE 3 2).fset F.RING_CFG_KIND 133 1) (1) (2) (133) (tTaken (tDesc 0x1B 0 3 0 0 0 5 0)) = true := by
  decide

theorem test_meets_commands_complete_with_their_status_7 :
    (fun (s : State) (f r g : Nat) (d : Taken) => decide ((Runnable f r 0x1B d s)
      ∧ (g = ringKey (s.ringFunc (ringKey f r) (s.lane (dLane d.bytes)).context) (dArg0 d.bytes % 256))
      ∧ (s.bindable g = false))) ((tCmd (tDesc 0x1B 0 3 0 0 0 5 0)).fset F.ADM_LANE_STATE_STATE 3 2) (1) (2) (133) (tTaken (tDesc 0x1B 0 3 0 0 0 5 0)) = true := by
  decide

theorem test_meets_models_load_switch_and_unload_1 :
    (fun (s : State) (ctx id : Nat) (m : Model) => decide ((s.model ctx id = some m)
      ∧ (m.state = .starting)
      ∧ (m.waiter.isSome = true)
      ∧ ((m.stages.flatMap (fun (r : StageRec) => r.placed)).all (fun c => s.passed c && (s.restorer c).bulk.isNone && (s.inService c).all (fun e => (s.engine c e).written) && s.startReason c == 0) = true))) (tLoadEnd) (2) (7) ({ tModel with state := .starting, waiter := some (1, 130, 0) }) = true := by
  decide

theorem test_meets_models_load_switch_and_unload_2 :
    (fun (s : State) (f r : Nat) (d : Taken) (e : LoadErr) => decide ((Runnable f r 0x13 d s)
      ∧ (s.fget F.KEEP_STATUS_STATE 0 ≠ 0)
      ∧ (1056 ≤ dOutLen d.bytes)
      ∧ (s.loading (dCtx d.bytes) = false)
      ∧ (s.serialTurn d = true)
      ∧ (headerCheck (s.image (dCtx d.bytes) (dArg0 d.bytes)) = some e))) ((tCmd (tDesc 0x13 2 0 0 0 1056 0 0)).fset F.KEEP_STATUS_STATE 0 1) (1) (2) (tTaken (tDesc 0x13 2 0 0 0 1056 0 0)) ({ status := 0x01 }) = true := by
  decide

theorem test_meets_models_load_switch_and_unload_3 :
    (fun (s : State) (f r : Nat) (d : Taken) (b : List Nat) => decide ((Runnable f r 0x13 d s)
      ∧ (f ≤ 32)
      ∧ (s.fget F.KEEP_STATUS_STATE 0 ≠ 0)
      ∧ (1056 ≤ dOutLen d.bytes)
      ∧ (s.loading (dCtx d.bytes) = false)
      ∧ (s.serialTurn d = true)
      ∧ (s.image (dCtx d.bytes) (dArg0 d.bytes) = b))) ((tCmd (tDesc 0x13 2 0 0 0 1056 0 0)).fset F.KEEP_STATUS_STATE 0 1) (1) (2) (tTaken (tDesc 0x13 2 0 0 0 1056 0 0)) (((tCmd (tDesc 0x13 2 0 0 0 1056 0 0)).fset F.KEEP_STATUS_STATE 0 1).image 2 0) = true := by
  decide

theorem test_meets_models_load_switch_and_unload_4 :
    (fun (s : State) (f r : Nat) (d : Taken) (m : Model) => decide ((Runnable f r 0x14 d s)
      ∧ (s.serialTurn d = true)
      ∧ (s.model (dCtx d.bytes) (dModel d.bytes) = some m)
      ∧ ((List.range 64).all (fun l => s.laneState l == 0 || (s.lane l).context != dCtx d.bytes || (s.lane l).model != m.id) = true)
      ∧ ((m.stages.flatMap (fun (x : StageRec) => x.placed)).all s.atBoundary = true))) ({ tCmd (tDesc 0x14 2 0 0 0 0 7 0) with models := [{ tModel with stages := [] }] }) (1) (2) (tTaken (tDesc 0x14 2 0 0 0 0 7 0)) ({ tModel with stages := [] }) = true := by
  decide

theorem test_meets_models_load_switch_and_unload_5 :
    (fun (s : State) (f r : Nat) (d : Taken) (m : Model) (n : NextGen) => decide ((Runnable f r 0x19 d s)
      ∧ (s.model (dCtx d.bytes) (dModel d.bytes) = some m)
      ∧ (m.next = some n)
      ∧ (n.ready = true)
      ∧ (n.waiter = none)
      ∧ (d.bytes.getD 14 0 = 0))) ({ tCmd (tDesc 0x19 2 0 0 0 0 7 0) with models := [{ tModel with next := some tNext }] }) (1) (2) (tTaken (tDesc 0x19 2 0 0 0 0 7 0)) ({ tModel with next := some tNext }) (tNext) = true := by
  decide

theorem test_meets_lanes_are_suspended_resumed_and_released_1 :
    (fun (s : State) (f r : Nat) (d : Taken) => decide ((Runnable f r 0x17 d s)
      ∧ (s.laneState (dLane d.bytes) = 2)
      ∧ ((s.fget F.ADM_LANE_STATE_SUSP_REASONS (dLane d.bytes)).testBit 0 = false))) ((tCmd (tDesc 0x17 0 3 0 0 0 0 0)).fset F.ADM_LANE_STATE_STATE 3 2) (1) (2) (tTaken (tDesc 0x17 0 3 0 0 0 0 0)) = true := by
  decide

theorem test_meets_lanes_are_suspended_resumed_and_released_2 :
    (fun (s : State) (f r : Nat) (d : Taken) => decide ((Runnable f r 0x18 d s)
      ∧ (s.laneState (dLane d.bytes) = 3)
      ∧ (s.fget F.ADM_LANE_STATE_SUSP_REASONS (dLane d.bytes) = 1))) (((tCmd (tDesc 0x18 0 3 0 0 0 0 0)).fset F.ADM_LANE_STATE_STATE 3 3).fset F.ADM_LANE_STATE_SUSP_REASONS 3 1) (1) (2) (tTaken (tDesc 0x18 0 3 0 0 0 0 0)) = true := by
  decide

theorem test_meets_lanes_are_suspended_resumed_and_released_3 :
    (fun (s : State) (f r : Nat) (d : Taken) => decide ((Runnable f r 0x16 d s)
      ∧ (s.laneUp (dLane d.bytes) = true)
      ∧ (s.serialTurn d = true)
      ∧ ((s.lane (dLane d.bytes)).ring = none))) ((tCmd (tDesc 0x16 0 3 0 0 0 0 0)).fset F.ADM_LANE_STATE_STATE 3 2) (1) (2) (tTaken (tDesc 0x16 0 3 0 0 0 0 0)) = true := by
  decide

theorem test_meets_lanes_are_suspended_resumed_and_released_4 :
    (fun (s : State) (l : Nat) => decide ((s.laneState l = 4)
      ∧ ((s.lane l).switches = [])
      ∧ (s.items.all (fun p => p.2.lane != l) = true)
      ∧ (s.model (s.lane l).context (s.lane l).model = none))) (tRing.fset F.ADM_LANE_STATE_STATE 3 4) (3) = true := by
  decide

theorem test_meets_lanes_are_suspended_resumed_and_released_5 :
    (fun (s : State) (f r : Nat) (d : Taken) => decide ((Runnable f r 0x15 d s)
      ∧ (544 ≤ dOutLen d.bytes)
      ∧ (f ≤ 32))) (tCmd (tDesc 0x15 2 3 0 128 544 0 0)) (1) (2) (tTaken (tDesc 0x15 2 3 0 128 544 0 0)) = true := by
  decide

theorem test_meets_lanes_are_suspended_resumed_and_released_6 :
    (fun (s : State) (f r : Nat) (d : Taken) (b : List Nat) (z : StageRec) => decide ((Runnable f r 0x15 d s)
      ∧ (f ≤ 32)
      ∧ (544 ≤ dOutLen d.bytes)
      ∧ (b.length = 128)
      ∧ (b.all (fun v => decide (v < 256)) = true)
      ∧ (contractOk b = true)
      ∧ (s.ownerOf (contractLane b).context = s.ringFunc (ringKey f r) (contractLane b).context)
      ∧ ((contractLane b).src = true)
      ∧ (s.serialTurn d = true)
      ∧ (s.laneState (b.getD 0 0) = 0)
      ∧ ((s.model (contractLane b).context (contractLane b).model).bind (fun (m : Model) => m.stage (contractLane b).last) = some z)
      ∧ (z.last = false)
      ∧ (z.nextDevice ≠ 255))) ({ tCmd (tDesc 0x15 2 3 0 128 544 0 0) with models := [{ tModel with stages := [{ tStage with last := false, nextDevice := 3, nextStage := 1 }] }] } |>.fset F.HIF_VF_CTX_MASK 0 4) (1) (2) (tTaken (tDesc 0x15 2 3 0 128 544 0 0)) (tCon 0x24) ({ tStage with last := false, nextDevice := 3, nextStage := 1 }) = true := by
  decide

theorem test_meets_lanes_are_suspended_resumed_and_released_7 :
    (fun (s : State) (f r : Nat) (d : Taken) (b : List Nat) (z : StageRec) => decide ((Runnable f r 0x15 d s)
      ∧ (f ≤ 32)
      ∧ (544 ≤ dOutLen d.bytes)
      ∧ (b.length = 128)
      ∧ (b.all (fun v => decide (v < 256)) = true)
      ∧ (contractOk b = true)
      ∧ (s.ownerOf (contractLane b).context = s.ringFunc (ringKey f r) (contractLane b).context)
      ∧ ((contractLane b).field = false)
      ∧ ((contractLane b).src = false)
      ∧ (ringExists (s.ringFunc (ringKey f r) (contractLane b).context) (dArg0 d.bytes % 256) = true)
      ∧ (s.bindable (ringKey (s.ringFunc (ringKey f r) (contractLane b).context) (dArg0 d.bytes % 256)) = true)
      ∧ (s.serialTurn d = true)
      ∧ (s.laneState (b.getD 0 0) = 0)
      ∧ ((s.model (contractLane b).context (contractLane b).model).bind (fun (m : Model) => m.stage (contractLane b).last) = some z)
      ∧ (z.last = true))) (({ tCmd (tDesc 0x15 2 3 0 128 544 5 0) with models := [tModel] }).fset F.HIF_VF_CTX_MASK 0 4 |>.fset F.RING_CFG_KIND 133 1) (1) (2) (tTaken (tDesc 0x15 2 3 0 128 544 5 0)) (tCon 4) (tStage) = true := by
  decide

theorem test_meets_lanes_are_suspended_resumed_and_released_8 :
    (fun (s : State) (l : Nat) (p : Packet) => decide (((s.lane l).queue = [p])
      ∧ ((s.lane l).lastTake = none)
      ∧ (s.serving = true)
      ∧ (s.laneState l = 2)
      ∧ (s.ctxHeld (s.lane l).context = false)
      ∧ (s.ctxsOf p.item = [])
      ∧ (s.canCreate = true))) ((tRing.fset F.ADM_LANE_STATE_STATE 3 2).setLane 3 { Lane.empty with context := 2, model := 7, queue := [{ Packet.empty with lane := 3, item := 77 }] }) (3) ({ Packet.empty with lane := 3, item := 77 }) = true := by
  decide

/-! ### The field section -/

/-- A record that field lane 3 accepts: trigger 2, rising edge, encoder 1, outputs 0 and 2. -/
def tFRec (s : State) : State :=
  [0x00090112, 0x00100040, 0x00640005, 200, 1000, 2000, 0, 3000, 0, 0, 0, 0, 0, 0x05000100, 0, 0x400].zipIdx.foldl
    (fun (s : State) (p : Nat × Nat) => s.fset F.FLD_LANE_DATA_DATA (3 * 24 + p.2) p.1) s
/-- The lane on. -/
def tFOn : State := (tFRec tLink).fset F.FLD_LANE_STATUS_STATE 3 1
/-- The lane with an item at position 1000 whose encoder stands at a position. -/
def tFItem (pos : Nat) (c : Option Nat) : State :=
  let s : State := { tFOn with field := { tFOn.field with recs := [{ lane := 3, n := 4, pos := 1000, item := some 77, code := c }] } }
  s.fset F.FLD_ENC_POS_POS 1 pos

theorem test_meets_the_field_section_resets_and_becomes_ready_1 :
    (fun (s : State) => decide ((s.field.supply = true))) (tFItem 1 none) = true := by
  decide

theorem test_meets_the_field_section_resets_and_becomes_ready_2 :
    (fun (s : State) => decide ((s.field.supply = false))) (State.reset) = true := by
  decide

theorem test_meets_the_field_section_resets_and_becomes_ready_3 :
    (fun (s : State) => decide ((s.field.frst = false))) (tFItem 1 none) = true := by
  decide

theorem test_meets_the_field_section_resets_and_becomes_ready_4 :
    (fun (s : State) => decide ((s.field.frst = true))) ({ tLink with field := { tLink.field with frst := true } }) = true := by
  decide

theorem test_meets_the_field_section_resets_and_becomes_ready_5 :
    (fun (s : State) => decide ((s.field.supply = true)
      ∧ (s.field.frst = false))) (tFItem 1 none) = true := by
  decide

theorem test_meets_the_field_section_resets_and_becomes_ready_6 :
    (fun (s : State) (a b c d levels : Nat) => decide ((s.field.supply = true)
      ∧ (s.field.frst = false)
      ∧ (s.field.ready = false))) ({ tLink with field := { tLink.field with ready := false, hostHere := false, brown := true } }) (7) (8) (9) (10) (3) = true := by
  decide

theorem test_meets_triggers_encoders_and_cutoffs_1 :
    (fun (s : State) (trigger l a b c d : Nat) (rising : Bool) => decide ((s.field.ready = true)
      ∧ (s.field.hostHere = true)
      ∧ (s.field.fw = .running)
      ∧ (trigger < 16)
      ∧ ((List.range 64).filter (fun (x : Nat) => s.fLane x == 1 && s.lrByte x 0 % 16 == trigger && edgeOk (bits (s.lrByte x 0) 4 2) rising) = [l])
      ∧ ((s.field.recs.filter (fun r => r.item.isSome)).length < 65536)
      ∧ (s.bar.field.queue.length < 4096)
      ∧ (bit (s.lrByte l 0) 6 = false))) (tFOn) (2) (3) (500) (600) (700) (800) (true) = true := by
  decide

theorem test_meets_triggers_encoders_and_cutoffs_2 :
    (fun (s : State) (e : Nat) (wire : Bool) => decide ((s.field.ready = true)
      ∧ (e < 4))) (tFOn) (1) (true) = true := by
  decide

theorem test_meets_triggers_encoders_and_cutoffs_3 :
    (fun (s : State) (e pos : Nat) => decide ((s.field.ready = true)
      ∧ (s.encBad e = true)
      ∧ (e < 4))) ((tFItem 1100 none).fset F.FLD_ENC_STATUS_FAULT 1 1) (1) (2500) = true := by
  decide

theorem test_meets_triggers_encoders_and_cutoffs_4 :
    (fun (s : State) (l n pos id : Nat) (r : FieldRec) => decide ((s.field.ready = true)
      ∧ (s.field.recs = [r])
      ∧ (r.lane = l)
      ∧ (r.n = n)
      ∧ (r.code = none)
      ∧ (r.item = some id)
      ∧ (s.encBad (s.lrEnc l) = false)
      ∧ (serialGe (pos % 2 ^ 32) (s.cutoff l r.pos) = true))) (tFItem 1500 none) (3) (4) (2000) (77) ({ lane := 3, n := 4, pos := 1000, item := some 77 }) = true := by
  decide

theorem test_meets_triggers_encoders_and_cutoffs_5 :
    (fun (s : State) (k e pos : Nat) => decide ((s.field.ready = true)
      ∧ (k < 8)
      ∧ (e < 4)
      ∧ (s.encBad e = false))) (tFOn.setRej 2 { queue := [{ enc := 1, on := 100, off := 200, lane := 3 }, { enc := 1, on := 300, off := 400, lane := 3 }] }) (2) (1) (150) = true := by
  decide

theorem test_meets_triggers_encoders_and_cutoffs_6 :
    (fun (s : State) (k e pos : Nat) => decide ((s.field.ready = true)
      ∧ (k < 8)
      ∧ (e < 4)
      ∧ (s.encBad e = false))) (tFOn.setRej 2 { queue := [{ enc := 1, on := 100, off := 200, lane := 3 }, { enc := 1, on := 300, off := 400, lane := 3 }] }) (2) (1) (250) = true := by
  decide

theorem test_meets_triggers_encoders_and_cutoffs_7 :
    (fun (s : State) (k n m : Nat) => decide ((k < 8)
      ∧ (s.fget F.FLD_REJ_CFG_MAX_ON_US k = m)
      ∧ (m ≠ 0)
      ∧ ((s.rej k).since = some n)
      ∧ (n + m * 1000 ≤ s.ns))) ((tFOn.setRej 2 { queue := [{ enc := 1, on := 100, off := 200, lane := 3, started := true }], since := some 1000 }).fset F.FLD_REJ_CFG_MAX_ON_US 2 50) (2) (1000) (50) = true := by
  decide

theorem test_meets_triggers_encoders_and_cutoffs_8 :
    (fun (s : State) (l n pos : Nat) (r : FieldRec) => decide ((s.field.ready = true)
      ∧ (s.field.recs.find? (fun (x : FieldRec) => x.lane == l && x.n == n) = some r)
      ∧ (r.code.isSome = true)
      ∧ (s.encBad (s.lrEnc l) = false)
      ∧ (serialGe (pos % 2 ^ 32) (s.freeAt l r.pos) = true))) (tFItem 3900 (some 9)) (3) (4) (4100) ({ lane := 3, n := 4, pos := 1000, item := some 77, code := some 9 }) = true := by
  decide

theorem test_meets_field_lanes_and_the_verdict_port_1 :
    (fun (s : State) (l : Nat) => decide ((s.field.ready = true)
      ∧ (s.field.fw = .running)
      ∧ (l < 64)
      ∧ (s.fLane l = 0)
      ∧ (s.enableReason l = (0, 0)))) (tFRec tLink) (3) = true := by
  decide

theorem test_meets_field_lanes_and_the_verdict_port_2 :
    (fun (s : State) (l r k : Nat) => decide ((s.field.ready = true)
      ∧ (s.field.fw = .running)
      ∧ (l < 64)
      ∧ (s.fLane l = 0)
      ∧ (s.enableReason l = (r, k))
      ∧ (r ≠ 0))) ((tFRec tLink).fset F.FLD_LANE_DATA_DATA 75 100) (3) (4) (0) = true := by
  decide

theorem test_meets_field_lanes_and_the_verdict_port_3a :
    (fun (s : State) (l : Nat) => decide ((s.field.ready = true)
      ∧ (s.field.fw = .running)
      ∧ (l < 64)
      ∧ (s.fLane l = 1))) (tFItem 1 none) (3) = true := by
  decide

theorem test_meets_field_lanes_and_the_verdict_port_3b :
    (fun (s : State) (l : Nat) => decide ((s.field.ready = true)
      ∧ (s.field.fw = .running)
      ∧ (l < 64)
      ∧ (s.fLane l = 1))) (tFOn) (3) = true := by
  decide

theorem test_meets_field_lanes_and_the_verdict_port_4 :
    (fun (s : State) (slot v : Nat) => decide ((s.field.ready = true)
      ∧ (slot < 4096)
      ∧ (s.fLanes.any (fun l => bit (s.lrByte l 0) 6 && decide (s.lrNum l 4 2 ≤ slot) && decide (slot < s.lrNum l 4 2 + s.lrNum l 6 2)) = true)
      ∧ (bit (s.vtGet slot) 5 = true)
      ∧ (v % 65536 / 128 = s.vtGet slot / 128))) ((tFOn.fset F.FLD_LANE_DATA_DATA 72 0x00090152).vtSet 0x45 (vtWord 9 false true false 5)) (0x45) (640) = true := by
  decide

theorem test_meets_field_lanes_and_the_verdict_port_5 :
    (fun (s : State) (slot v : Nat) => decide ((s.field.ready = true)
      ∧ (slot < 4096)
      ∧ (bit (s.vtGet slot) 5 = false))) (tFOn) (0x45) (640) = true := by
  decide

theorem test_meets_field_lanes_and_the_verdict_port_6 :
    (fun (s : State) (slot count : Nat) => decide ((s.field.ready = true))) (tFOn) (4095) (2) = true := by
  decide

theorem test_meets_field_lanes_and_the_verdict_port_7 :
    (fun (s : State) (slot v : Nat) => decide ((s.field.ready = true)
      ∧ (slot < 4096)
      ∧ (s.fLanes.any (fun l => bit (s.lrByte l 0) 6 && decide (s.lrNum l 4 2 ≤ slot) && decide (slot < s.lrNum l 4 2 + s.lrNum l 6 2)) = true)
      ∧ (bit (s.vtGet slot) 5 = true)
      ∧ (v % 65536 / 128 = s.vtGet slot / 128))) ((tFOn.fset F.FLD_LANE_DATA_DATA 72 0x00090152).vtSet 0x45 (vtWord 9 false true false 5)) (0x45) (640) = true := by
  decide

theorem test_meets_field_lanes_and_the_verdict_port_8 :
    (fun (s : State) (a : Access) (v : Nat) => decide ((s.power.slotPower = true)
      ∧ (proxied a true = true)
      ∧ (s.bar.up = true)
      ∧ (s.bar.fieldHere = true)
      ∧ (0xD10050 ≤ a.off))) (tLink) (⟨0, true, 0, 0xD10054, 4, true⟩) (7) = true := by
  decide

theorem test_meets_field_lanes_and_the_verdict_port_9 :
    (fun (s : State) (a : Access) (v : Nat) => decide ((s.power.slotPower = true)
      ∧ (proxied a true = true)
      ∧ (s.bar.up = false))) (tOn) (⟨0, true, 0, 0xD10054, 4, true⟩) (7) = true := by
  decide

theorem test_meets_field_lanes_and_the_verdict_port_10 :
    (fun (s : State) (a : Access) => decide ((s.power.slotPower = true)
      ∧ (proxied a false = true)
      ∧ (s.bar.up = true)
      ∧ (s.bar.fieldHere = true)
      ∧ (s.bar.lostWrite = false))) (tLink) (⟨0, true, 0, 0xD10054, 4, false⟩) = true := by
  decide

theorem test_meets_field_lanes_and_the_verdict_port_11 :
    (fun (s : State) (p : ProxyRead) => decide ((s.bar.proxy = [p])
      ∧ (p.since + 5000 ≤ s.ns)
      ∧ (p.sess = none)
      ∧ (p.more = 0))) ({ tLink with bar := { tLink.bar with proxy := [⟨0, 0x54, 3, 1000, none, 0, [], none⟩] } }) (⟨0, 0x54, 3, 1000, none, 0, [], none⟩) = true := by
  decide

theorem test_meets_field_lanes_and_the_verdict_port_12 :
    (fun (s : State) (v : Nat) => decide ((s.staging F.FLD_GW_CFG_FIELD_TO 0 = v)
      ∧ (2 ≤ v)
      ∧ (v ≤ 1000))) (tOn.stage F.FLD_GW_CFG_FIELD_TO 0 25) (25) = true := by
  decide

/-! ### The analogue blocks -/

/-- The sequencer running over entries 0 (last), or stopped with a code waiting at output 1. -/
def tSeqOn : State := ((tLink.fset F.FADC_STATUS_STATE 0 1).fset F.FADC_ENT_CTL_CTL 0 8)
def tAo (x : AnaOut) : State := tLink.setAo 1 x

theorem test_meets_the_field_sequencer_runs_and_calibrates_1 :
    (fun (s : State) (cal : Bool) => decide ((s.field.ready = true)
      ∧ (s.adcReason cal = 0))) (tLink) (false) = true := by
  decide

theorem test_meets_the_field_sequencer_runs_and_calibrates_2 :
    (fun (s : State) (cal : Bool) (r : Nat) => decide ((s.field.ready = true)
      ∧ (s.adcReason cal = r)
      ∧ (r ≠ 0))) (tLink) (true) (4) = true := by
  decide

theorem test_meets_the_field_sequencer_runs_and_calibrates_3 :
    (fun (s : State) => decide ((s.field.ready = true)
      ∧ (s.fget F.FADC_STATUS_STATE 0 = 1))) ({ tSeqOn with field := { tSeqOn.field with loopA := some 0 } }) = true := by
  decide

theorem test_meets_the_field_sequencer_runs_and_calibrates_4 :
    (fun (s : State) (n : Nat) (raw : List Int) => decide ((s.fget F.FADC_STATUS_STATE 0 = 1)
      ∧ (s.field.loopA = some n)
      ∧ (s.field.loopB = none)
      ∧ (n < 64)
      ∧ (raw.length = s.entBits n 12 8 + 1)
      ∧ (raw.all (fun r => decide (-131072 ≤ r) && decide (r ≤ 131071)) = true))) ({ tSeqOn with field := { tSeqOn.field with loopA := some 0 } }) (0) ([100]) = true := by
  decide

theorem test_meets_the_field_sequencer_runs_and_calibrates_5 :
    (fun (s : State) => decide ((s.field.ready = true)
      ∧ (s.fget F.FADC_STATUS_STATE 0 = 0))) (tLink) = true := by
  decide

theorem test_meets_the_field_sequencer_runs_and_calibrates_6 :
    (fun (s : State) => decide ((s.field.ready = true)
      ∧ (s.fget F.FADC_STATUS_STATE 0 ≠ 0))) (tSeqOn) = true := by
  decide

theorem test_meets_the_field_sequencer_runs_and_calibrates_7 :
    (fun (s : State) (b : Nat) (sums : List (Int × Int × Int × Int)) => decide ((s.field.calStart = some b)
      ∧ (b + 12800000 ≤ s.ns)
      ∧ (sums.length = 12)
      ∧ (sums.all calPairOk = false))) ({ tLink with ns := 90000000, field := { tLink.field with calStart := some 5 } }) (5) (List.replicate 12 ((0, 0, 0, 0) : Int × Int × Int × Int)) = true := by
  decide

theorem test_meets_the_field_sequencer_runs_and_calibrates_8 :
    (fun (s : State) (b : Nat) (sums : List (Int × Int × Int × Int)) => decide ((s.field.calStart = some b)
      ∧ (b + 12800000 ≤ s.ns)
      ∧ (sums.length = 12)
      ∧ (sums.all calPairOk = true))) ({ tLink with ns := 90000000, field := { tLink.field with calStart := some 5 } }) (5) (List.replicate 12 ((0, 120795955, -120795955, 0) : Int × Int × Int × Int)) = true := by
  decide

theorem test_meets_the_field_sequencer_runs_and_calibrates_9 :
    (fun (s : State) => decide ((s.field.ready = true))) (tLink) = true := by
  decide

theorem test_meets_the_field_sequencer_runs_and_calibrates_10 :
    (fun (s : State) => decide ((s.field.ready = true)
      ∧ (s.field.fw = .running)
      ∧ (s.boundsOk = true))) (tLink.stage F.FADC_ENT_WHI_BOUND 5 77) = true := by
  decide

theorem test_meets_the_field_sequencer_runs_and_calibrates_11 :
    (fun (s : State) => decide ((s.field.ready = true)
      ∧ (s.field.fw = .running)
      ∧ (s.boundsOk = false))) ((tLink.stage F.FADC_ENT_WHI_BOUND 5 77).stage F.FADC_ENT_WLO_BOUND 5 78) = true := by
  decide

theorem test_meets_the_field_sequencer_runs_and_calibrates_12 :
    (fun (s : State) (temp : Int) (supply rail : Nat) => decide ((s.field.ready = true)
      ∧ (s.field.hostHere = true)
      ∧ (s.bar.field.queue.length < 4096))) (tLink) (-40) (24000) (3300) = true := by
  decide

theorem test_meets_the_analogue_outputs_1 :
    (fun (s : State) (code : Nat) => decide ((s.field.ready = true)
      ∧ (s.field.hostHere = true))) (tAo { span := 4 }) (70000) = true := by
  decide

theorem test_meets_the_analogue_outputs_2 :
    (fun (s : State) (k c : Nat) (x : AnaOut) => decide ((k < 4)
      ∧ (s.field.ready = true)
      ∧ (s.ao k = x)
      ∧ (x.hold = none)
      ∧ (x.change = none)
      ∧ (x.waiting = some c)
      ∧ (c < 65536)
      ∧ (x.last.all (fun t => decide (t + 1000 ≤ s.ns)) = true))) (tAo { waiting := some 0x8000, last := some 5 }) (1) (0x8000) ({ waiting := some 0x8000, last := some 5 }) = true := by
  decide

theorem test_meets_the_analogue_outputs_3 :
    (fun (s : State) (k e : Nat) => decide (((s.ao k).hold = some e)
      ∧ (e ≤ s.ns))) ((tAo { hold := some 7 }).fset F.FDAC_OUT_STATE 1 2) (1) (7) = true := by
  decide

theorem test_meets_the_analogue_outputs_4 :
    (fun (s : State) (nv : Bool) => decide ((s.field.ready = true)
      ∧ (s.field.fw = .running)
      ∧ ((List.range 4).any (fun k => [5, 6].contains (s.staging F.FDAC_CFG_SPAN k)) = false))) (tLink.stage F.FDAC_CFG_SPAN 1 4) (true) = true := by
  decide

theorem test_meets_the_analogue_outputs_5 :
    (fun (s : State) (nv : Bool) => decide ((s.field.ready = true)
      ∧ (s.field.fw = .running)
      ∧ ((List.range 4).any (fun k => [5, 6].contains (s.staging F.FDAC_CFG_SPAN k)) = true))) (tLink.stage F.FDAC_CFG_SPAN 1 5) (true) = true := by
  decide

theorem test_meets_the_analogue_outputs_6 :
    (fun (s : State) (k b n : Nat) => decide (((s.ao k).change = some (b, n, false))
      ∧ (b + 25000 ≤ s.ns)
      ∧ (n ≠ 7))) (tAo { span := 4, change := some (10, 0, false) }) (1) (10) (0) = true := by
  decide

theorem test_meets_the_analogue_outputs_7 :
    (fun (s : State) (k b n : Nat) => decide (((s.ao k).change = some (b, n, true))
      ∧ (b + 50000 ≤ s.ns)
      ∧ ((s.ao k).queued = [])
      ∧ ((s.ao k).policy = false)
      ∧ ((s.ao k).waiting = none))) (tAo { span := 0, change := some (10, 0, true) }) (1) (10) (0) = true := by
  decide

theorem test_meets_the_analogue_outputs_8 :
    (fun (s : State) (k : Nat) => decide ((k < 4)
      ∧ (s.field.ready = true)
      ∧ ((s.ao k).span = 4)
      ∧ (s.fget F.FDAC_OUT_STATE k ≠ 0)
      ∧ (s.fon F.FDAC_OUT_OPEN_LOOP k = false))) ((tAo { span := 4 }).fset F.FDAC_OUT_STATE 1 1) (1) = true := by
  decide

theorem test_meets_the_analogue_outputs_9 :
    (fun (s : State) (k : Nat) => decide ((k < 4))) (tLink.fset F.FDAC_OUT_OPEN_LOOP 1 1) (1) = true := by
  decide

theorem test_meets_the_analogue_outputs_10 :
    (fun (s : State) (nv : Bool) => decide ((s.field.ready = true)
      ∧ (s.field.fw = .running)
      ∧ (2 ≤ s.staging F.FLD_HOST_TO_TO 0)
      ∧ (s.staging F.FLD_HOST_TO_TO 0 ≤ 1000)
      ∧ ((rangeFrom 8 16).any (fun k => s.staging F.FLD_POL_ACTION k == 3) = false))) ((tLink.stage F.FLD_HOST_TO_TO 0 20).stage F.FLD_POL_ACTION 3 2) (true) = true := by
  decide

theorem test_meets_the_analogue_outputs_11 :
    (fun (s : State) (kind : Nat) (v : Tab Nat) => decide ((s.field.nvWrites = [(kind, v)]))) ({ tLink with field := { tLink.field with nvWrites := [(1, [(F.FDAC_CFG_SPAN.key 0, 4)])] } }) (1) ([(F.FDAC_CFG_SPAN.key 0, 4)]) = true := by
  decide

theorem test_meets_the_housekeeping_monitor_1 :
    (fun (s : State) (n x mw : Nat) => decide ((s.power.slotPower = true)
      ∧ (s.power.trip = false)
      ∧ (s.hk.loopA = n)
      ∧ (s.hkCount n = 1)
      ∧ (s.hkRepeat n = 1)
      ∧ (x < 4096)
      ∧ (s.hkEnd 0 ≠ n)
      ∧ (s.hkFirst n < 64))) ({ (((tOn.fset F.HK_ENT_DATA_WORD 0 5).fset F.HK_ENT_DATA_WORD 1 0x8000).fset F.HK_ENT_DATA_WORD 2 0x8000) with hk := { tOn.hk with loopB := 2 } }) (0) (100) (150000) = true := by
  decide

theorem test_meets_the_housekeeping_monitor_2 :
    (fun (s : State) => decide (((List.range 128).all (fun (ch : Nat) =>
    decide (sext 16 (s.staging F.HK_WLO_BOUND ch) ≤ sext 16 (s.staging F.HK_WHI_BOUND ch)) &&
    decide (2 * (s.staging F.HK_HYST_HYST ch : Int) ≤ sext 16 (s.staging F.HK_WHI_BOUND ch) - sext 16 (s.staging F.HK_WLO_BOUND ch))) = true))) (tOn.stage F.HK_WHI_BOUND 5 77) = true := by
  decide

theorem test_meets_the_housekeeping_monitor_3 :
    (fun (s : State) (ch : Nat) => decide ((ch < 128)
      ∧ (sext 16 (s.staging F.HK_WHI_BOUND ch) < sext 16 (s.staging F.HK_WLO_BOUND ch)))) ((tOn.stage F.HK_WHI_BOUND 5 77).stage F.HK_WLO_BOUND 5 78) (5) = true := by
  decide

theorem test_meets_the_housekeeping_monitor_4 :
    (fun (s : State) (mask : Nat) => decide ((s.hk.aosp = none)
      ∧ (s.hk.aospLast = none)
      ∧ (mask < 16))) (tOn.fset F.HK_AOSP_CODE01_CODES 0 0x12345678) (2) = true := by
  decide

theorem test_meets_the_housekeeping_monitor_5 :
    (fun (s : State) => decide ((s.power.slotPower = true)
      ∧ (s.fget F.HK_STATUS_FIELD_TEMP_LOST 0 = 0)
      ∧ (s.hk.monitor.getD s.bootNs + 10000000 ≤ s.ns))) ({ tOn with ns := 20000000 }) = true := by
  decide

/-! ### Canopy and the sync counters -/

/-- Device 0 of a ring of two along X; port 0 in a state. -/
def tCnp (st : Nat) (x : CnpPort) : State :=
  ((((({ tRun with cnp := { tRun.cnp with running := true } }).fset F.CNP_TOPO_DIM_X 0 2).fset F.CNP_TOPO_DIM_Y 0 1).fset F.CNP_TOPO_DIM_Z 0 1).setPort 0 st).setCport 0 x
def tOffer (g : Nat) : KeyOffer := ⟨[1], [2], 0, 0, g, [3]⟩
def tInit : InitInfo := ⟨1, 1, 2, 1, 1, 0, 0, [512, 512, 64, 64, 16, 16], 100⟩
def tKey : LinkKey := ⟨[], [], [], [], 0⟩
def tFrame (k : Nat) (crc : List Nat) : List Nat := List.replicate 6 0 ++ [k] ++ List.replicate 289 0 ++ crc
/-- A packet of the fabric that waits for its command. -/
def tPost (p : Packet) : State := let s := tCnp 3 { key := some tKey }; { s with fab := { s.fab with net := [{ p with key := 9 }], nextKey := 20 } }

theorem test_meets_canopy_ports_train_key_and_fence_1 :
    (fun (s : State) => decide ((s.cnpStartReason = 0))) ({ tCnp 0 {} with cnp := {} }) = true := by
  decide

theorem test_meets_canopy_ports_train_key_and_fence_2 :
    (fun (s : State) (r : Nat) => decide ((s.cnpStartReason = r)
      ∧ (r ≠ 0))) ((tCnp 0 {}).fset F.CNP_TOPO_DIM_Y 0 0) (1) = true := by
  decide

theorem test_meets_canopy_ports_train_key_and_fence_4 :
    (fun (s : State) (p : Nat) => decide ((p < 6)
      ∧ (s.port p = 1)
      ∧ ((s.cport p).trained = false))) (tCnp 1 {}) (0) = true := by
  decide

theorem test_meets_canopy_ports_train_key_and_fence_5 :
    (fun (s : State) (p : Nat) (i : InitInfo) => decide ((p < 6)
      ∧ (s.port p = 1)
      ∧ ((s.cport p).trained = true)
      ∧ (s.initReason p i = 0))) (tCnp 1 { trained := true }) (0) (tInit) = true := by
  decide

theorem test_meets_canopy_ports_train_key_and_fence_6 :
    (fun (s : State) (p r : Nat) (i : InitInfo) => decide ((p < 6)
      ∧ (s.port p = 1)
      ∧ ((s.cport p).trained = true)
      ∧ (s.initReason p i = r)
      ∧ (r ≠ 0))) (tCnp 1 { trained := true }) (0) (3) ({ tInit with rttNs := 2501 }) = true := by
  decide

theorem test_meets_canopy_ports_train_key_and_fence_7 :
    (fun (s : State) (p : Nat) (m o : KeyOffer) => decide ((p < 6)
      ∧ (s.port p = 2)
      ∧ ((s.cport p).mine = some m))) (tCnp 2 { mine := some (tOffer 0) }) (0) (tOffer 0) (tOffer 1) = true := by
  decide

theorem test_meets_canopy_ports_train_key_and_fence_8 :
    (fun (s : State) (p : Nat) (m o : KeyOffer) (sig : List Nat) => decide ((p < 6)
      ∧ (s.port p = 2)
      ∧ ((s.cport p).mine = some m)
      ∧ ((s.cport p).theirs = some o))) (tCnp 2 { mine := some (tOffer 0), theirs := some (tOffer 0), secret := 3 }) (0) (tOffer 0) (tOffer 0) ([]) = true := by
  decide

theorem test_meets_canopy_ports_train_key_and_fence_9 :
    (fun (s : State) (p : Nat) (k : LinkKey) => decide ((p < 6)
      ∧ (s.port p = 3)
      ∧ ((s.cport p).key = some k)
      ∧ ((s.cport p).mine = none)
      ∧ ((s.cport p).keyedNs + 3600000000000 ≤ s.ns))) ({ tCnp 3 { key := some tKey } with ns := 4000000000000 }) (0) (tKey) = true := by
  decide

theorem test_meets_canopy_ports_train_key_and_fence_10 :
    (fun (s : State) (p : Nat) => decide ((p < 6)
      ∧ (s.port p = 4)
      ∧ (s.cnp.running = true)
      ∧ ((s.cport p).fencedNs + 1000000000 ≤ s.ns)
      ∧ (portUsed s.dims p = true)
      ∧ (s.cnp.faulty.contains (p / 2) = false))) ({ tCnp 4 {} with ns := 2000000000 }) (0) = true := by
  decide

theorem test_meets_canopy_ports_train_key_and_fence_11 :
    (fun (s : State) (p : Nat) => decide ((p < 6)
      ∧ (s.port p = 3))) (tCnp 3 { key := some tKey }) (0) = true := by
  decide

theorem test_meets_canopy_ports_train_key_and_fence_12 :
    (fun (s : State) (cage : Nat) => decide ((cage < 3))) (tCnp 3 {}) (0) = true := by
  decide

theorem test_meets_canopy_ports_train_key_and_fence_13 :
    (fun (s : State) (cage : Nat) => decide ((cage < 3))) ({ tRun with cnp := { tRun.cnp with faulty := [1] } }) (1) = true := by
  decide

theorem test_meets_canopy_ports_train_key_and_fence_14 :
    (fun (s : State) (a r d : Nat) => decide ((s.staging F.CNP_CFG_ACK_TO_NS 0 = a)
      ∧ (s.staging F.CNP_CFG_RECEIPT_TO_US 0 = r)
      ∧ (s.staging F.CNP_DIGEST_CFG_PERIOD_MS 0 = d)
      ∧ (1000 ≤ a ∧ a ≤ 10000 ∧ 4 ≤ r ∧ r ≤ 100 ∧ 10 ≤ d ∧ d ≤ 10000))) (((tRun.stage F.CNP_CFG_ACK_TO_NS 0 2000).stage F.CNP_CFG_RECEIPT_TO_US 0 5).stage F.CNP_DIGEST_CFG_PERIOD_MS 0 100) (2000) (5) (100) = true := by
  decide

theorem test_meets_canopy_ports_train_key_and_fence_15 :
    (fun (s : State) => decide ((s.staging F.CNP_CFG_RECEIPT_TO_US 0 < 4))) (tRun.stage F.CNP_CFG_RECEIPT_TO_US 0 3) = true := by
  decide

theorem test_meets_canopy_frames_and_receipts_1 :
    (fun (s : State) (p : Nat) (b : List Nat) => decide ((p < 6)
      ∧ (s.port p = 3)
      ∧ (b.length = 300)
      ∧ (b.all (fun v => decide (v < 256)) = true)
      ∧ (b.getD 6 0 % 4 ≠ 2)
      ∧ (crc32 (slice b 0 296) ≠ leAt b 296 4)
      ∧ ((s.cport p).bad < 63))) (tCnp 3 { key := some tKey }) (0) (tFrame 1 [1, 2, 3, 4]) = true := by
  decide

theorem test_meets_canopy_frames_and_receipts_2 :
    (fun (s : State) (p : Nat) (b : List Nat) (k : LinkKey) => decide ((p < 6)
      ∧ (s.port p = 3)
      ∧ (b.length = 300)
      ∧ (b.all (fun v => decide (v < 256)) = true)
      ∧ (b.getD 6 0 = 1)
      ∧ (crc32 (slice b 0 296) = leAt b 296 4)
      ∧ ((s.cport p).keyFor 0 = some k)
      ∧ (leAt b 0 3 = (s.cport p).received)
      ∧ ((s.cport p).received < 2 ^ 24)
      ∧ ((s.cport p).bad < 63)
      ∧ ((s.cport p).authFails = []))) (tCnp 3 { key := some tKey }) (0) (tFrame 1 [89, 241, 230, 80]) (tKey) = true := by
  decide

theorem test_meets_canopy_frames_and_receipts_3 :
    (fun (s : State) (p : Nat) => decide ((p < 6)
      ∧ (s.port p = 3)
      ∧ ((s.cport p).unacked ≠ [])
      ∧ ((s.cport p).ackNs + s.fget F.CNP_CFG_ACK_TO_NS 0 ≤ s.ns))) (tCnp 3 { key := some tKey, unacked := [(0, [7])] }) (0) = true := by
  decide

theorem test_meets_canopy_frames_and_receipts_4 :
    (fun (s : State) (k : Nat) (q : Packet) => decide ((s.fab.held.find? (fun x => x.key == k) = some q)
      ∧ (q.remote = true)
      ∧ (q.sentNs + s.fget F.CNP_CFG_RECEIPT_TO_US 0 * 1000 ≤ s.ns)
      ∧ (q.retx = false))) ((let s := tCnp 3 {}; { s with fab := { s.fab with held := [{ key := 9, remote := true, typ := .vector }] }, ns := 1000000 })) (9) ({ key := 9, remote := true, typ := .vector }) = true := by
  decide

theorem test_meets_canopy_frames_and_receipts_5 :
    (fun (s : State) (k : Nat) (p : Packet) => decide ((s.packet k = some p)
      ∧ (p.typ = .retraction)
      ∧ (s.behindSends p = false)
      ∧ ((Tab.find s.rel.applied (p.payload.getD 4 0 * 2 ^ 32 + leAt p.payload 0 4)).isSome = true))) ((let s := tPost { typ := .retraction, remote := true, dev := 1 }; { s with rel := { s.rel with applied := [(0, 1)] } })) (9) ({ key := 9, typ := .retraction, remote := true, dev := 1 }) = true := by
  decide

theorem test_meets_canopy_frames_and_receipts_6 :
    (fun (s : State) (k : Nat) (p : Packet) => decide ((s.packet k = some p)
      ∧ (p.typ = .retraction)
      ∧ (s.behindSends p = false)
      ∧ (Tab.find s.rel.applied (p.payload.getD 4 0 * 2 ^ 32 + leAt p.payload 0 4) = none))) (tPost { typ := .retraction, remote := true, dev := 1, payload := [3, 0, 0, 0, 1] }) (9) ({ key := 9, typ := .retraction, remote := true, dev := 1, payload := [3, 0, 0, 0, 1] }) = true := by
  decide

theorem test_meets_canopy_frames_and_receipts_7 :
    (fun (s : State) (k : Nat) (p : Packet) (m : Model) => decide ((s.packet k = some p)
      ∧ (p.typ = .digest)
      ∧ (s.mgmt.down = false)
      ∧ (s.models.find? (fun (x : Model) => x.id == p.model && x.gen == leAt p.payload 0 4 && !x.digest.isEmpty) = some m))) ((let s := tPost { typ := .digest, model := 7 }; { s with models := [{ tModel with gen := 0, digest := [1] }] })) (9) ({ key := 9, typ := .digest, model := 7 }) ({ tModel with gen := 0, digest := [1] }) = true := by
  decide

theorem test_meets_canopy_frames_and_receipts_8 :
    (fun (s : State) (m : Model) => decide ((s.mgmt.down = false)
      ∧ (s.fget F.CNP_DIGEST_CFG_EN 0 = 1)
      ∧ (s.cnp.digestNs + s.fget F.CNP_DIGEST_CFG_PERIOD_MS 0 * 1000000 ≤ s.ns)
      ∧ (s.models = [m])
      ∧ (m.digest ≠ []))) ({ (((tCnp 3 {}).fset F.CNP_DIGEST_CFG_EN 0 1).fset F.CNP_DIGEST_PEERS_MASK 0 6) with models := [{ tModel with gen := 0, digest := [1] }], ns := 20000000000 }) ({ tModel with gen := 0, digest := [1] }) = true := by
  decide

theorem test_meets_canopy_bindings_and_sync_counters_1 :
    (fun (s : State) (k l : Nat) (p : Packet) => decide ((s.packet k = some p)
      ∧ (p.bindCode = 1)
      ∧ ((List.range 64).find? (fun (l : Nat) => s.laneUp l && (s.lane l).src && (s.lane l).peerIn.isNone
    && (s.lane l).model == p.model && (s.lane l).first == p.dstStage) = some l))) (((tPost { typ := .binding, nOff := 1, dev := 1, model := 7, dstStage := 2, lane := 5 }).setLane 3 { Lane.empty with src := true, model := 7, first := 2 }).fset F.ADM_LANE_STATE_STATE 3 2) (9) (3) ({ key := 9, typ := .binding, nOff := 1, dev := 1, model := 7, dstStage := 2, lane := 5 }) = true := by
  decide

theorem test_meets_canopy_bindings_and_sync_counters_2 :
    (fun (s : State) (k : Nat) (p : Packet) => decide ((s.packet k = some p)
      ∧ (p.bindCode = 6))) ({ tPost { typ := .binding, nOff := 6, dev := 1, model := 7, dstStage := 2 } with models := [tModel] }) (9) ({ key := 9, typ := .binding, nOff := 6, dev := 1, model := 7, dstStage := 2 }) = true := by
  decide

theorem test_meets_canopy_bindings_and_sync_counters_3 :
    (fun (s : State) (l k n a : Nat) (b : List Nat) => decide (((s.lane l).asked = some (k, n, b, a))
      ∧ (a + 100000 ≤ s.ns))) (tLink.setLane 3 { Lane.empty with asked := some (130, 0, List.replicate 128 0, 0) }) (3) (130) (0) (0) (List.replicate 128 0) = true := by
  decide

theorem test_meets_canopy_bindings_and_sync_counters_4 :
    (fun (s : State) (k l : Nat) (p : Packet) => decide ((s.packet k = some p)
      ∧ (p.bindCode = 3)
      ∧ (s.laneTo p.dev p.lane = some l))) ((tPost { typ := .binding, nOff := 3, dev := 1, lane := 5 }).setLane 3 { Lane.empty with peerOut := some (1, 5) }) (9) (3) ({ key := 9, typ := .binding, nOff := 3, dev := 1, lane := 5 }) = true := by
  decide

theorem test_meets_canopy_bindings_and_sync_counters_5 :
    (fun (s : State) (k l : Nat) (p : Packet) => decide ((s.packet k = some p)
      ∧ (p.bindCode = 4)
      ∧ ((s.lane p.lane).peerIn ≠ some p.dev)
      ∧ (s.laneTo p.dev p.lane = some l))) ((tPost { typ := .binding, nOff := 4, dev := 1, lane := 5 }).setLane 3 { Lane.empty with peerOut := some (1, 5), credits := 4 }) (9) (3) ({ key := 9, typ := .binding, nOff := 4, dev := 1, lane := 5 }) = true := by
  decide

theorem test_meets_canopy_bindings_and_sync_counters_6 :
    (fun (s : State) (k i : Nat) (p : Packet) (o : CtrOp) => decide ((s.packet k = some p)
      ∧ (k < s.fab.nextKey)
      ∧ (p.typ = .signal)
      ∧ (s.behindSends p = false)
      ∧ (ctrOp p.payload = o)
      ∧ (o.op = 1)
      ∧ (o.ok = true)
      ∧ (p.retx = false)
      ∧ (ctrOf (s.blockOf p) p.src o = .inr i)
      ∧ (s.waitsOf i = []))) (tPost { typ := .signal, src := 44, payload := [1, 0, 5, 0x40, 3, 0, 0, 0, 0, 0, 44, 2] }) (9) (16389) ({ key := 9, typ := .signal, src := 44, payload := [1, 0, 5, 0x40, 3, 0, 0, 0, 0, 0, 44, 2] }) (⟨1, 0, 0x4005, 3, 0, 44, 2, 0⟩) = true := by
  decide

theorem test_meets_canopy_bindings_and_sync_counters_7 :
    (fun (s : State) (k : Nat) (p : Packet) (o : CtrOp) => decide ((s.packet k = some p)
      ∧ (k < s.fab.nextKey)
      ∧ (p.typ = .signal)
      ∧ (s.behindSends p = false)
      ∧ (ctrOp p.payload = o)
      ∧ (o.op = 1)
      ∧ (o.ok = true)
      ∧ (p.retx = true)
      ∧ ((Tab.getD s.sync.seen (s.originDev p * 64 + o.node) []).contains (p.ref % 65536) = true))) ((let s := tPost { typ := .signal, src := 44, retx := true, ref := 6, payload := [1, 0, 5, 0x40, 3, 0, 0, 0, 0, 0, 44, 2] }; { s with sync := { s.sync with seen := [(44, [6])] } })) (9) ({ key := 9, typ := .signal, src := 44, retx := true, ref := 6, payload := [1, 0, 5, 0x40, 3, 0, 0, 0, 0, 0, 44, 2] }) (⟨1, 0, 0x4005, 3, 0, 44, 2, 0⟩) = true := by
  decide

theorem test_meets_canopy_bindings_and_sync_counters_8 :
    (fun (s : State) (k i : Nat) (p : Packet) (o : CtrOp) => decide ((s.ctrRequest ⟨k, .none⟩ 2 = some (p, o, .inl i))
      ∧ (o.operand ≠ 0)
      ∧ (s.waitsOf i = [])
      ∧ (s.fget F.SYNC_WAITTAB_USED 0 < 4096)
      ∧ (o.operand ≤ s.ctr i))) ((tPost { typ := .counterOp, src := 44, payload := [2, 0, 5, 0x40, 3, 0, 0, 0, 0, 0, 44, 2] }).fset F.SYNC_VALUE_VALUE 16389 10) (9) (16389) ({ key := 9, typ := .counterOp, src := 44, payload := [2, 0, 5, 0x40, 3, 0, 0, 0, 0, 0, 44, 2] }) (⟨2, 0, 0x4005, 3, 0, 44, 2, 0⟩) = true := by
  decide

theorem test_meets_canopy_bindings_and_sync_counters_9 :
    (fun (s : State) (k i : Nat) (p : Packet) (o : CtrOp) => decide ((s.ctrRequest ⟨k, .none⟩ 2 = some (p, o, .inl i))
      ∧ (s.waitsOf i = [])
      ∧ (s.fget F.SYNC_WAITTAB_USED 0 < 4096)
      ∧ (s.ctr i < o.operand))) ((tPost { typ := .counterOp, src := 44, payload := [2, 0, 5, 0x40, 3, 0, 0, 0, 0, 0, 44, 2] }).fset F.SYNC_VALUE_VALUE 16389 2) (9) (16389) ({ key := 9, typ := .counterOp, src := 44, payload := [2, 0, 5, 0x40, 3, 0, 0, 0, 0, 0, 44, 2] }) (⟨2, 0, 0x4005, 3, 0, 44, 2, 0⟩) = true := by
  decide

theorem test_meets_canopy_bindings_and_sync_counters_10 :
    (fun (s : State) (k i : Nat) (p : Packet) (o : CtrOp) => decide ((s.ctrRequest ⟨k, .none⟩ 3 = some (p, o, .inl i))
      ∧ (o.operand ≤ s.ctr i))) ((tPost { typ := .counterOp, src := 44, payload := [3, 0, 5, 0x40, 3, 0, 0, 0, 0, 0, 44, 2] }).fset F.SYNC_VALUE_VALUE 16389 10) (9) (16389) ({ key := 9, typ := .counterOp, src := 44, payload := [3, 0, 5, 0x40, 3, 0, 0, 0, 0, 0, 44, 2] }) (⟨3, 0, 0x4005, 3, 0, 44, 2, 0⟩) = true := by
  decide

theorem test_meets_canopy_bindings_and_sync_counters_11 :
    (fun (s : State) (k i : Nat) (p : Packet) (o : CtrOp) => decide ((s.ctrRequest ⟨k, .none⟩ 3 = some (p, o, .inl i))
      ∧ (s.fget F.SYNC_WAITTAB_USED 0 < 4096)
      ∧ (s.ctr i < o.operand))) (tPost { typ := .counterOp, src := 44, payload := [3, 0, 5, 0x40, 3, 0, 0, 0, 0, 0, 44, 2] }) (9) (16389) ({ key := 9, typ := .counterOp, src := 44, payload := [3, 0, 5, 0x40, 3, 0, 0, 0, 0, 0, 44, 2] }) (⟨3, 0, 0x4005, 3, 0, 44, 2, 0⟩) = true := by
  decide

theorem test_meets_canopy_bindings_and_sync_counters_12 :
    (fun (s : State) (k i : Nat) (p : Packet) (o : CtrOp) => decide ((s.ctrRequest ⟨k, .none⟩ 4 = some (p, o, .inl i)))) (tPost { typ := .counterOp, src := 44, payload := [4, 0, 5, 0x40, 0, 0, 0, 0, 0, 0, 44, 2] }) (9) (16389) ({ key := 9, typ := .counterOp, src := 44, payload := [4, 0, 5, 0x40, 0, 0, 0, 0, 0, 0, 44, 2] }) (⟨4, 0, 0x4005, 0, 0, 44, 2, 0⟩) = true := by
  decide

/-! ### Reliability -/

def tSample : Sample := ⟨0, 1, 0, [], 0, 0, [], [], [(2048, 0)], false, 3, 77, [(2048, 0)]⟩
/-- Lookout 0 mirrors the running core 1. -/
def tLook : State := (((tRun.fset F.REL_LOOKOUT_STATE0 0 2).fset F.REL_LOOKOUT_SUBJECT0 0 1).fset F.KEEP_STATUS_STATE 0 1).fset F.CORE_ROLE_ROLE 1 1
def tRet (sm : Sample) : State := let s := tLook.setCore 1 { tLook.core 1 with check := true }; { s with rel := { s.rel with returned := [sm] } }

theorem test_meets_lookouts_compare_and_check_1 :
    (fun (s : State) (k c : Nat) => decide ((k < 2)
      ∧ (s.stepOver k = true)
      ∧ (s.fget F.KEEP_STATUS_STATE 0 ≠ 0)
      ∧ (s.rel.failovers = [])
      ∧ (s.rel.suspects = [])
      ∧ (s.fget (lookState k) 0 ≠ 2)
      ∧ (s.nextSubject k s.rotation = some c)
      ∧ (c < 32))) ((tLook.fset F.KEEP_CTX_STATE_STATE 2 2).fset F.REL_LOOKOUT_STATE0 0 3) (0) (1) = true := by
  decide

theorem test_meets_lookouts_compare_and_check_2 :
    (fun (s : State) (k c d : Nat) (m : Sample) => decide ((s.mirroring k = some (c, d))
      ∧ (s.rel.samples.find? (fun x => x.lookout == k) = some m)
      ∧ (m.core = d)
      ∧ (m.spoiled = false)
      ∧ ((({ s with rel := { s.rel with samples := s.rel.samples.erase m } } : State).rerunUse m c).2.1 = false))) ({ tLook with rel := { tLook.rel with samples := [tSample] } }) (0) (11) (1) (tSample) = true := by
  decide

theorem test_meets_lookouts_compare_and_check_3 :
    (fun (s : State) (k c d : Nat) (m : Sample) => decide ((s.mirroring k = some (c, d))
      ∧ (s.rel.samples.find? (fun x => x.lookout == k) = some m)
      ∧ (m.core = d)
      ∧ (m.spoiled = true))) ({ tLook with rel := { tLook.rel with samples := [{ tSample with spoiled := true }] } }) (0) (11) (1) ({ tSample with spoiled := true }) = true := by
  decide

theorem test_meets_lookouts_compare_and_check_4a :
    (fun (s u : State) (c : Nat) (m : Sample) (r : Tab Int) (odd : Bool) => decide ((s.rel.returned.find? (fun x => x.core == c) = some m)
      ∧ ((s.core c).check = true)
      ∧ ((atRerun s c m).rerunUse m c = (r, odd, u))
      ∧ (u.agree m r m.drained = true))) (tRet tSample) (((atRerun (tRet tSample) 1 tSample).rerunUse tSample 1).2.2) (1) (tSample) ([(2048, 0)]) (false) = true := by
  decide

theorem test_meets_lookouts_compare_and_check_4b :
    (fun (s u : State) (c : Nat) (m : Sample) (r : Tab Int) (odd : Bool) => decide ((s.rel.returned.find? (fun x => x.core == c) = some m)
      ∧ ((s.core c).check = true)
      ∧ ((atRerun s c m).rerunUse m c = (r, odd, u))
      ∧ (u.agree m r m.drained = true))) (tRet { tSample with mirror := [(2048, 99999999)] }) (((atRerun (tRet { tSample with mirror := [(2048, 99999999)] }) 1 { tSample with mirror := [(2048, 99999999)] }).rerunUse { tSample with mirror := [(2048, 99999999)] } 1).2.2) (1) ({ tSample with mirror := [(2048, 99999999)] }) ([(2048, 0)]) (false) = true := by
  decide

theorem test_meets_lookouts_compare_and_check_5 :
    (fun (s : State) (c : Nat) => decide ((s.katTurn = some c)
      ∧ ((s.core c).check = true)
      ∧ (Tab.find s.rel.katAgain c = none)
      ∧ (Tab.getD s.rel.katWindows c 0 < 63))) (let s := tRet tSample; { s with rel := { s.rel with katAsked := some 1 } }) (1) = true := by
  decide

theorem test_meets_lookouts_compare_and_check_6 :
    (fun (s : State) (c : Nat) => decide ((s.katTurn = some c)
      ∧ ((s.core c).check = true)
      ∧ (Tab.find s.rel.katAgain c = none))) (let s := tRet tSample; { s with rel := { s.rel with katAsked := some 1 } }) (1) = true := by
  decide

theorem test_meets_lookouts_compare_and_check_7 :
    (fun (s : State) (c : Nat) => decide ((s.katCores.contains c = true))) (tLook) (11) = true := by
  decide

theorem test_meets_lookouts_compare_and_check_8 :
    (fun (s : State) (c j key : Nat) (e : EnvCol) (m : Model) (r : StageRec) => decide (((s.tileCols c)[j]? = some key)
      ∧ (s.envFor c key = some e)
      ∧ (s.stageOf c = some (m, r))
      ∧ (s.fget F.REL_RANGE_CFG_WINDOW 0 ≤ (Tab.getD (s.core c).stats key .empty).count)
      ∧ (envViolated e (Tab.getD (s.core c).stats key .empty) = false))) ((let m : Model := { tModel with stages := [{ tStage with envelope := [⟨0, 0, 0, 0, 0, 0, 1000000⟩] }] }; let s : State := { tRun with models := [m] }; let s := s.setEngine 1 2 { (s.engine 1 2) with head := 2, map := some ⟨0, 0, 2, 0, 0, 0, 0, 1, 1, 0, 0, 0, 0, []⟩ }; s.setCore 1 { s.core 1 with stats := [(2048, { count := 5000 })] })) (1) (0) (2048) (⟨0, 0, 0, 0, 0, 0, 1000000⟩) ({ tModel with stages := [{ tStage with envelope := [⟨0, 0, 0, 0, 0, 0, 1000000⟩] }] }) ({ tStage with envelope := [⟨0, 0, 0, 0, 0, 0, 1000000⟩] }) = true := by
  decide

theorem test_meets_lookouts_compare_and_check_9 :
    (fun (s : State) (d n w : Nat) => decide ((s.staging F.REL_SHADOW_CFG_DWELL_US 0 = d)
      ∧ (s.staging F.REL_SHADOW_CFG_SAMPLE_EVERY 0 = n)
      ∧ (s.staging F.REL_RANGE_CFG_WINDOW 0 = w)
      ∧ (500 ≤ d ∧ d ≤ 10000 ∧ 1 ≤ n ∧ n ≤ 63 ∧ 256 ≤ w ∧ w ≤ 65536))) (((tOn.stage F.REL_SHADOW_CFG_DWELL_US 0 2000).stage F.REL_SHADOW_CFG_SAMPLE_EVERY 0 8).stage F.REL_RANGE_CFG_WINDOW 0 512) (2000) (8) (512) = true := by
  decide

theorem test_meets_lookouts_compare_and_check_10 :
    (fun (s : State) => decide ((s.staging F.REL_SHADOW_CFG_DWELL_US 0 < 500))) (tOn.stage F.REL_SHADOW_CFG_DWELL_US 0 100) = true := by
  decide

theorem test_meets_failed_cores_are_replaced_and_masters_repaired_1 :
    (fun (s : State) (c : Nat) => decide ((c < 32)
      ∧ (s.stageOf c = none)
      ∧ (s.rel.failovers = [])
      ∧ (s.fget F.CORE_STATUS_STATE c ≠ 4)
      ∧ (s.lookoutOf c = none)
      ∧ (s.unit (unitCore c) ≠ 2))) (tOn) (5) = true := by
  decide

theorem test_meets_failed_cores_are_replaced_and_masters_repaired_2 :
    (fun (s : State) (c k : Nat) (m : Model) (r : StageRec) => decide ((c < 32)
      ∧ (s.stageOf c = some (m, r))
      ∧ (s.rel.failovers = [])
      ∧ (s.fget F.CORE_ROLE_ROLE c = 1)
      ∧ (r.placed.contains c = true)
      ∧ (s.pickLookout c = some k))) (tLook) (1) (0) (tModel) (tStage) = true := by
  decide

theorem test_meets_failed_cores_are_replaced_and_masters_repaired_3 :
    (fun (s : State) (c k : Nat) (f : Failover) (m : Model) => decide ((s.rel.failovers.find? (fun x => x.lookout == c && x.loaded) = some f)
      ∧ (s.lookoutOf c = some k)
      ∧ (s.model f.context f.model = some m)
      ∧ (s.seedWaits c = false))) ({ tLook with rel := { tLook.rel with failovers := [⟨1, 11, 2, 7, 0, 0, true⟩] } }) (11) (0) (⟨1, 11, 2, 7, 0, 0, true⟩) (tModel) = true := by
  decide

theorem test_meets_failed_cores_are_replaced_and_masters_repaired_4 :
    (fun (s : State) (c e : Nat) (rep : Repairing) (m : Model) (r : StageRec) (off : Nat) (x : MapEnt) => decide ((s.rel.repairs.find? (fun y => y.core == c && y.engine == e && !y.waiting) = some rep)
      ∧ (s.stageOf c = some (m, r))
      ∧ (m.imageAt = some off)
      ∧ ((s.engine c e).map = some x))) ((let s : State := { tLook with models := [{ tModel with imageAt := some 0 }], rel := { tLook.rel with repairs := [⟨1, 2, false, 0⟩] } }; s.setEngine 1 2 { (s.engine 1 2) with map := some ⟨0, 0, 2, 0, 0, 0, 0, 1, 1, 0, 0, 0, 0, []⟩ })) (1) (2) (⟨1, 2, false, 0⟩) ({ tModel with imageAt := some 0 }) (tStage) (0) (⟨0, 0, 2, 0, 0, 0, 0, 1, 1, 0, 0, 0, 0, []⟩) = true := by
  decide

theorem test_meets_failed_cores_are_replaced_and_masters_repaired_5 :
    (fun (s : State) (ctx id : Nat) (m : Model) => decide ((s.model ctx id = some m)
      ∧ (m.verifying = true))) ({ tLook with models := [{ tModel with verifying := true }] }) (2) (7) ({ tModel with verifying := true }) = true := by
  decide

/-! ### The Keep -/

def tMb (cmd ctx : Nat) (b : List Nat) : State :=
  ((((((tRun.fset F.GLB_PWR_STATUS_STATE 0 1).fset F.KEEP_STATUS_STATE 0 1).fset F.KEEP_MB_CMD_CMD 0 cmd).fset F.KEEP_MB_CMD_CONTEXT 0 ctx).fset F.KEEP_MB_CMD_LEN 0 b.length).mbWrite b)
/-- A defined context 4 with one key. -/
def tDef (s : State) : State := (s.setDef 4 ⟨false, [(1, (7, [9]))]⟩).setCtxState 4 1
def tPend : PendLoad := ⟨0, false, 130, 0, 7, 5, 0, 0, [], [1, 2, 3], 0⟩

theorem test_meets_mailbox_commands_run_and_answer_1 :
    (fun (s : State) (ctx v : Nat) => decide ((Asked 1 ctx [v] s)
      ∧ (v ≤ 1)
      ∧ (s.ctxState ctx = 0))) (tMb 1 4 [1]) (4) (1) = true := by
  decide

theorem test_meets_mailbox_commands_run_and_answer_2 :
    (fun (s : State) (ctx : Nat) (b : List Nat) (d : CtxDef) => decide ((Asked 2 ctx b s)
      ∧ (b.length = 65)
      ∧ (zeroBytes b 1 4 = true)
      ∧ (s.keyRefusal ctx (b.getD 0 0) true = 0)
      ∧ (Tab.find s.keep.defs ctx = some d))) (tDef (tMb 2 4 ([2, 0, 0, 0, 8, 0, 0, 0] ++ List.replicate 57 6))) (4) ([2, 0, 0, 0, 8, 0, 0, 0] ++ List.replicate 57 6) (⟨false, [(1, (7, [9]))]⟩) = true := by
  decide

theorem test_meets_mailbox_commands_run_and_answer_3 :
    (fun (s : State) (ctx : Nat) (b : List Nat) => decide ((Asked 2 ctx b s)
      ∧ (b.length = 65)
      ∧ (zeroBytes b 1 4 = true)
      ∧ (b.getD 0 0 < 4)
      ∧ (s.locked ctx = true))) ((tDef (tMb 2 4 ([2, 0, 0, 0, 8, 0, 0, 0] ++ List.replicate 57 6))).fset F.HIF_VF_CTX_MASK 2 16 |>.setTdi 3 1) (4) ([2, 0, 0, 0, 8, 0, 0, 0] ++ List.replicate 57 6) = true := by
  decide

theorem test_meets_mailbox_commands_run_and_answer_4 :
    (fun (s : State) (ctx slot : Nat) (d : CtxDef) => decide ((Asked 3 ctx [slot] s)
      ∧ (s.keyRefusal ctx slot true = 0)
      ∧ (Tab.find s.keep.defs ctx = some d)
      ∧ ((Tab.find d.keys slot).isSome = true))) (tDef (tMb 3 4 [1])) (4) (1) (⟨false, [(1, (7, [9]))]⟩) = true := by
  decide

theorem test_meets_mailbox_commands_run_and_answer_5 :
    (fun (s : State) (ctx enter : Nat) => decide ((Asked 4 ctx [enter] s)
      ∧ (enter < 32)
      ∧ (s.keep.swap = none)
      ∧ (s.ctxState ctx = 2)
      ∧ (s.ctxState enter = 1)
      ∧ ((s.ctxLanes ctx).all (fun l => s.laneState l == 3) = true)
      ∧ (s.swapFits ctx enter = true))) ((tDef (tMb 4 2 [4])).setCtxState 2 2) (2) (4) = true := by
  decide

theorem test_meets_mailbox_commands_run_and_answer_6 :
    (fun (s : State) (ctx enter : Nat) => decide ((Asked 4 ctx [enter] s)
      ∧ (enter < 32)
      ∧ (s.keep.swap = none)
      ∧ (s.ctxState ctx ≠ 2))) (tMb 4 2 [4]) (2) (4) = true := by
  decide

theorem test_meets_mailbox_commands_run_and_answer_7 :
    (fun (s : State) (ctx : Nat) => decide ((Asked 5 ctx [] s)
      ∧ (s.ctxState ctx = 1)
      ∧ (s.keep.swap = none)
      ∧ (s.ctxLanes ctx = [])
      ∧ (s.ctxModels ctx = [])
      ∧ (s.parkedOf ctx = [])
      ∧ (Tab.find s.keep.pend ctx = none)
      ∧ (s.keep.destroy = [])
      ∧ (s.handingOver ctx = false)
      ∧ (s.fab.pages.any (fun (p : Nat × PageEnt) => p.2.owner == ctx) = false))) (tDef (tMb 5 4 [])) (4) = true := by
  decide

theorem test_meets_mailbox_commands_run_and_answer_8 :
    (fun (s : State) (ctx : Nat) (b : List Nat) => decide ((Asked 6 ctx b s)
      ∧ (b.length = 96)
      ∧ (s.settling ctx = false))) (tMb 6 4 (List.replicate 96 7)) (4) (List.replicate 96 7) = true := by
  decide

theorem test_meets_mailbox_commands_run_and_answer_9 :
    (fun (s : State) (ctx : Nat) (b : List Nat) => decide ((Asked 6 ctx b s)
      ∧ (b.length = 96)
      ∧ (s.settling ctx = true)
      ∧ (s.keep.queue.length < 16))) ((let s := tMb 6 4 (List.replicate 96 7); { s with keep := { s.keep with settle := [.field] } })) (4) (List.replicate 96 7) = true := by
  decide

theorem test_meets_mailbox_commands_run_and_answer_10 :
    (fun (s : State) (ctx : Nat) => decide ((Asked 7 ctx [] s)
      ∧ (s.ctxLive ctx = true)
      ∧ (s.keep.rot.contains ctx = false))) (tDef (tMb 7 4 [])) (4) = true := by
  decide

theorem test_meets_mailbox_commands_run_and_answer_11 :
    (fun (s : State) (ctx : Nat) (p : PendLoad) => decide ((Asked 8 ctx [] s)
      ∧ (Tab.find s.keep.pend ctx = some p))) ((let s := tMb 8 4 []; { s with keep := { s.keep with pend := [(4, tPend)] } })) (4) (tPend) = true := by
  decide

theorem test_meets_mailbox_commands_run_and_answer_12 :
    (fun (s : State) (ctx : Nat) => decide ((Asked 8 ctx [] s)
      ∧ (Tab.find s.keep.pend ctx = none))) (tMb 8 4 []) (4) = true := by
  decide

theorem test_meets_mailbox_commands_run_and_answer_13 :
    (fun (s : State) (ctx : Nat) (b : List Nat) (p : PendLoad) => decide ((Asked 9 ctx b s)
      ∧ (b.length = 116)
      ∧ (Tab.find s.keep.pend ctx = some p))) ((let s := tMb 9 4 (List.replicate 116 7); { s with keep := { s.keep with pend := [(4, tPend)] } })) (4) (List.replicate 116 7) (tPend) = true := by
  decide

theorem test_meets_mailbox_commands_run_and_answer_14 :
    (fun (s : State) (ctx : Nat) (b : List Nat) => decide ((Asked 9 ctx b s)
      ∧ (b.length = 116)
      ∧ (Tab.find s.keep.pend ctx = none))) (tMb 9 4 (List.replicate 116 7)) (4) (List.replicate 116 7) = true := by
  decide

theorem test_meets_mailbox_commands_run_and_answer_15 :
    (fun (s : State) (ctx : Nat) (b : List Nat) => decide ((Asked 10 ctx b s)
      ∧ (b.length = 8)
      ∧ (zeroBytes b 1 4 = true)
      ∧ (b.getD 0 0 < 4))) (tMb 10 4 [1, 0, 0, 0, 0, 0, 0, 0]) (4) ([1, 0, 0, 0, 0, 0, 0, 0]) = true := by
  decide

theorem test_meets_keys_pages_interfaces_and_decay_1 :
    (fun (s : State) (ctx : Nat) (p : PendLoad) => decide ((Tab.find s.keep.pend ctx = some p)
      ∧ (s.fget F.KEEP_STATUS_STATE 0 ≠ 0)
      ∧ (p.since + s.fget F.KEEP_CONF_CFG_REL_TO_S 0 * 1000000000 ≤ s.ns))) ((let s := tMb 9 4 []; { s with keep := { s.keep with pend := [(4, tPend)] }, ns := 100000000000 })) (4) (tPend) = true := by
  decide

theorem test_meets_keys_pages_interfaces_and_decay_2 :
    (fun (s : State) (ctx h : Nat) => decide ((s.fget F.KEEP_CONF_CFG_ROT_PERIOD_H 0 = h)
      ∧ (h ≠ 0)
      ∧ (s.fget F.KEEP_STATUS_STATE 0 ≠ 0)
      ∧ (s.ctxLive ctx = true)
      ∧ (s.keep.rot.contains ctx = false)
      ∧ (Tab.getD s.keep.rotated ctx 0 + h * 3600000000000 ≤ s.ns))) ({ tDef (tMb 7 4 []) with ns := 3600000000000000 }) (4) (720) = true := by
  decide

theorem test_meets_keys_pages_interfaces_and_decay_3 :
    (fun (s : State) (ctx : Nat) => decide ((s.keep.rot.contains ctx = true)
      ∧ (s.fget F.KEEP_STATUS_STATE 0 ≠ 0)
      ∧ (s.fab.net.any (fun p => (p.typ == .memRead || p.typ == .readData) && p.context == ctx) = false))) ((let s := tMb 7 4 []; { s with keep := { s.keep with rot := [4] }, fab := { s.fab with pages := [(1500, ⟨4, 1, 1, 0, false⟩)] } })) (4) = true := by
  decide

theorem test_meets_keys_pages_interfaces_and_decay_4 :
    (fun (s : State) (page : Nat) (e : PageEnt) => decide ((Tab.find s.fab.pages page = some e)
      ∧ (e.scrub = true)
      ∧ (s.keep.destroy = []))) ({ tRun with fab := { tRun.fab with pages := [(1500, ⟨4, 1, 1, 0, true⟩)] }, dram := [(1500 * 2 ^ 20, 7)] }) (1500) (⟨4, 1, 1, 0, true⟩) = true := by
  decide

theorem test_meets_keys_pages_interfaces_and_decay_5 :
    (fun (s : State) (ctx c : Nat) => decide ((Tab.getD s.keep.frames ctx [] = [.microcode c])
      ∧ (s.itemsOpen ctx = false)
      ∧ ((s.ctxCores ctx).all s.atBoundary = true))) ({ tCore.setEngine 1 2 Engine.empty with keep := { tCore.keep with frames := [(2, [.microcode 1])] } }) (2) (1) = true := by
  decide

theorem test_meets_keys_pages_interfaces_and_decay_6 :
    (fun (s : State) (c : Nat) (b : Bleed) => decide ((Tab.find s.keep.bleed c = some b)
      ∧ (s.keep.swap = none)
      ∧ (s.keep.destroy = []))) ({ tRun with keep := { tRun.keep with bleed := [(1, ⟨0, 0, 2⟩)] } }) (1) (⟨0, 0, 2⟩) = true := by
  decide

theorem test_meets_keys_pages_interfaces_and_decay_7 :
    (fun (s : State) (c : Nat) (b : Bleed) => decide ((Tab.find s.keep.bleed c = some b)
      ∧ (b.since + 40000000 ≤ s.ns)
      ∧ (b.fails = 0))) ({ tRun with keep := { tRun.keep with bleed := [(1, ⟨0, 0, 2⟩)] }, ns := 50000000 }) (1) (⟨0, 0, 2⟩) = true := by
  decide

theorem test_meets_keys_pages_interfaces_and_decay_8 :
    (fun (s : State) (c : Nat) (b : Bleed) => decide ((Tab.find s.keep.bleed c = some b)
      ∧ (b.since + 40000000 ≤ s.ns)
      ∧ (b.fails ≠ 0)
      ∧ (s.keep.swap = none)
      ∧ (s.keep.destroy = []))) ({ tRun with keep := { tRun.keep with bleed := [(1, ⟨0, 1, 2⟩)] }, ns := 50000000 }) (1) (⟨0, 1, 2⟩) = true := by
  decide

theorem test_meets_keys_pages_interfaces_and_decay_11 :
    (fun (s : State) (nonce : List Nat) => decide ((s.settling 0 = false))) (tRun) ([1]) = true := by
  decide

theorem test_meets_keys_pages_interfaces_and_decay_12 :
    (fun (s : State) (vf : Nat) => decide ((1 ≤ vf)
      ∧ (vf ≤ 32)
      ∧ (s.tdi vf = 0))) (tRun) (3) = true := by
  decide

theorem test_meets_keys_pages_interfaces_and_decay_13 :
    (fun (s : State) (vf : Nat) (ide : Bool) => decide ((1 ≤ vf)
      ∧ (vf ≤ 32)
      ∧ (s.tdi vf = 1))) (tRun.setTdi 3 1) (3) (true) = true := by
  decide

theorem test_meets_keys_pages_interfaces_and_decay_14 :
    (fun (s : State) (vf : Nat) => decide ((1 ≤ vf)
      ∧ (vf ≤ 32)
      ∧ (s.tdi vf ≠ 0)
      ∧ (s.vfConf vf = []))) (tRun.setTdi 3 1) (3) = true := by
  decide

theorem test_meets_keys_pages_interfaces_and_decay_15 :
    (fun (s : State) (vf : Nat) => decide ((1 ≤ vf)
      ∧ (vf ≤ 32)
      ∧ (s.tdi vf = 1 ∨ s.tdi vf = 2))) (((tRun.fset F.HIF_VF_CTX_MASK 2 4).setLane 3 { Lane.empty with context := 2 }).fset F.ADM_LANE_STATE_STATE 3 2 |>.setTdi 3 1) (3) = true := by
  decide

theorem test_meets_keys_pages_interfaces_and_decay_16 :
    (fun (s : State) (n : Nat) => decide ((s.staging F.KEEP_CONF_CFG_REL_TO_S 0 = n)
      ∧ (1 ≤ n)
      ∧ (n ≤ 60))) (tRun.stage F.KEEP_CONF_CFG_REL_TO_S 0 20) (20) = true := by
  decide

theorem test_meets_keys_pages_interfaces_and_decay_17 :
    (fun (s : State) => decide ((60 < s.staging F.KEEP_CONF_CFG_REL_TO_S 0))) (tRun.stage F.KEEP_CONF_CFG_REL_TO_S 0 61) = true := by
  decide

/-! ### Management -/

def tSess : Session := ⟨5, 0, 2, [1], false, 0, none, 0, 0, 0, [], []⟩
/-- Session 5 of an administrator is open. -/
def tMgt : State := ({ tRun with mgmt := { tRun.mgmt with sessions := [tSess], nextId := 6, anchors := [(0, ⟨2, [1]⟩)] } }).fset F.GLB_PWR_STATUS_STATE 0 1
def tMsg5 (p : List Nat) : MgtMsg := ⟨5, 3, false, p⟩
def tActv (typ : Nat) (ph : ActPhase) (hold : Bool) : Activation := ⟨typ, hold, false, 5, 3, none, false, 0, ph, 0, [], none, none⟩
def tAct (typ : Nat) (ph : ActPhase) (hold : Bool) : State := { tMgt with ns := 700000000000, mgmt := { tMgt.mgmt with act := some (tActv typ ph hold) } }

theorem test_meets_sessions_open_acknowledge_and_close_1 :
    (fun (s : State) (chain : List Nat) => decide ((s.mgtUp = true)
      ∧ (s.mgmt.sessions.length < 4))) (tMgt) ([]) = true := by
  decide

theorem test_meets_sessions_open_acknowledge_and_close_2 :
    (fun (s : State) (chain : List Nat) => decide ((s.mgtUp = true)
      ∧ (s.mgmt.sessions.length < 4)
      ∧ (s.fget F.MGT_STATUS_CLAIMED 0 = 1))) (tMgt.fset F.MGT_STATUS_CLAIMED 0 1) ([]) = true := by
  decide

theorem test_meets_sessions_open_acknowledge_and_close_3 :
    (fun (s : State) (id : Nat) (e : Session) => decide ((s.session id = some e)
      ∧ (e.lastMsg + 300000000000 ≤ s.ns))) ({ tMgt with ns := 400000000000 }) (5) (tSess) = true := by
  decide

theorem test_meets_sessions_open_acknowledge_and_close_4 :
    (fun (s : State) (m : MgtMsg) (e : Session) => decide ((Heard m 0 e s))) (tMgt) (tMsg5 []) (tSess) = true := by
  decide

theorem test_meets_sessions_open_acknowledge_and_close_5 :
    (fun (s : State) (m : MgtMsg) (e : Session) => decide ((s.mgtUp = true)
      ∧ (s.session m.session = some e)
      ∧ (e.claiming = true)
      ∧ (m.bad = false)
      ∧ (s.fget F.MGT_STATUS_CLAIMED 0 = 0)
      ∧ (s.mgmt.failedClaims = []))) ({ tMgt with mgmt := { tMgt.mgmt with sessions := [{ tSess with claiming := true }], anchors := [] } }) (tMsg5 [7]) ({ tSess with claiming := true }) = true := by
  decide

theorem test_meets_sessions_open_acknowledge_and_close_6 :
    (fun (s : State) (m : MgtMsg) (e : Session) => decide ((Heard m 0 e s))) (tMgt) (tMsg5 [7]) (tSess) = true := by
  decide

theorem test_meets_sessions_open_acknowledge_and_close_7 :
    (fun (s : State) (m : MgtMsg) (e : Session) => decide ((Heard m 0 e s)
      ∧ (m.payload.length = 8)
      ∧ (leAt m.payload 0 4 = 0xFFFFFFFF))) (tMgt) (tMsg5 [255, 255, 255, 255, 7, 0, 0, 0]) (tSess) = true := by
  decide

theorem test_meets_sessions_open_acknowledge_and_close_8 :
    (fun (s : State) (m : MgtMsg) (e : Session) => decide ((Heard m 1 e s)
      ∧ (m.payload.length = 4))) (tMgt.fset F.MGT_EVT_HEAD_NEXT 0 10) (tMsg5 [4, 0, 0, 0]) (tSess) = true := by
  decide

theorem test_meets_sessions_open_acknowledge_and_close_9 :
    (fun (s : State) (m : MgtMsg) (e : Session) => decide ((Heard m 1 e s)
      ∧ (m.payload.length = 4))) (tMgt.fset F.REL_FR_HEAD_NEXT 0 10) (tMsg5 [4, 0, 0, 0]) (tSess) = true := by
  decide

theorem test_meets_sessions_open_acknowledge_and_close_10 :
    (fun (s : State) (m : MgtMsg) (e : Session) (p : Nat) => decide ((Heard m 0 e s)
      ∧ (m.payload.length = 4)
      ∧ (leAt m.payload 0 4 = p)
      ∧ (p = 0 ∨ 10 ≤ p ∧ p ≤ 10000))) (tMgt) (tMsg5 [20, 0, 0, 0]) (tSess) (20) = true := by
  decide

theorem test_meets_sessions_open_acknowledge_and_close_11 :
    (fun (s : State) (id : Nat) (e : Session) => decide ((s.mgtUp = true)
      ∧ (s.session id = some e)
      ∧ (s.teleDue e = true))) ({ tMgt with ns := 100000000, mgmt := { tMgt.mgmt with sessions := [{ tSess with period := 10 }] } }) (5) ({ tSess with period := 10 }) = true := by
  decide

theorem test_meets_sessions_open_acknowledge_and_close_12 :
    (fun (s : State) (m : MgtMsg) (e : Session) => decide ((Heard m 1 e s)
      ∧ (m.payload.length = 8))) (tMgt) (tMsg5 [0, 0, 0, 0, 1, 0, 0, 0]) (tSess) = true := by
  decide

theorem test_meets_management_reads_writes_and_configures_1 :
    (fun (s : State) (m : MgtMsg) (e : Session) => decide ((Heard m 0 e s)
      ∧ (m.payload.length = 10)
      ∧ (m.payload.getD 0 0 = 0)
      ∧ (leAt m.payload 8 2 = 1)
      ∧ (leAt m.payload 4 4 + 4 ≤ 0xD10000))) (tMgt) (tMsg5 [0, 0, 0, 0, 0x40, 0, 0, 0, 1, 0]) (tSess) = true := by
  decide

theorem test_meets_management_reads_writes_and_configures_2 :
    (fun (s : State) (m : MgtMsg) (e : Session) => decide ((Heard m 1 e s)
      ∧ (m.payload.length = 12)
      ∧ (m.payload.getD 0 0 = 0))) (tMgt) (tMsg5 [0, 0, 0, 0, 0x40, 0, 0, 0, 1, 2, 3, 4]) (tSess) = true := by
  decide

theorem test_meets_management_reads_writes_and_configures_3 :
    (fun (s : State) (m : MgtMsg) (e : Session) (d : List Nat) => decide ((Heard m 2 e s)
      ∧ ((m.payload.take 64).map (fun x => x % 256) = d)
      ∧ (d.length = 64)
      ∧ (s.conf (s.ringCtx d) = false)
      ∧ (dOp d ≠ 0x01 ∧ dOp d ≠ 0x1A ∧ dOp d ≠ 0x1B)
      ∧ (s.serving = true))) (tMgt) (tMsg5 (tDesc 0x17 0 3 0 0 0 0 0)) (tSess) (tDesc 0x17 0 3 0 0 0 0 0) = true := by
  decide

theorem test_meets_management_reads_writes_and_configures_4 :
    (fun (s : State) (m : MgtMsg) (e : Session) => decide ((Heard m 2 e s)
      ∧ (4 ≤ m.payload.length)
      ∧ (m.payload.getD 1 0 < 32)
      ∧ (s.fget F.GLB_PWR_STATUS_STATE 0 ≠ 0)
      ∧ (s.fget F.KEEP_STATUS_STATE 0 ≠ 0))) (tMgt.fset F.KEEP_STATUS_STATE 0 1) (tMsg5 [7, 4, 0, 0]) (tSess) = true := by
  decide

theorem test_meets_management_reads_writes_and_configures_5 :
    (fun (s : State) (m : MgtMsg) (e : Session) => decide ((Heard m 2 e s)
      ∧ (4 ≤ m.payload.length)
      ∧ (m.payload.getD 1 0 < 32)
      ∧ (s.fget F.GLB_PWR_STATUS_STATE 0 ≠ 0)
      ∧ (s.fget F.KEEP_STATUS_STATE 0 = 0))) (tMgt) (tMsg5 [7, 4, 0, 0]) (tSess) = true := by
  decide

theorem test_meets_management_reads_writes_and_configures_6 :
    (fun (s : State) (m : MgtMsg) (e : Session) (c g : Nat) => decide ((Heard m 0 e s)
      ∧ (m.payload = [c, g])
      ∧ (c < 32)
      ∧ (g < 32)
      ∧ (s.retired c = false)
      ∧ ((s.inService c).contains g = true))) (tMgt) (tMsg5 [1, 2]) (tSess) (1) (2) = true := by
  decide

theorem test_meets_management_reads_writes_and_configures_7 :
    (fun (s : State) (m : MgtMsg) (e : Session) => decide ((Heard m 1 e s)
      ∧ (m.payload.length = 4))) (tMgt) (tMsg5 [2, 0, 0, 0]) (tSess) = true := by
  decide

theorem test_meets_management_reads_writes_and_configures_8 :
    (fun (s : State) (m : MgtMsg) (e : Session) (x : Model) => decide ((Heard m 2 e s)
      ∧ (m.payload.length = 32)
      ∧ (m.payload.getD 0 0 < 32)
      ∧ (s.model (m.payload.getD 0 0) (leAt m.payload 4 16) = some x))) (tMgt) (tMsg5 ([2, 0, 0, 0, 7] ++ List.replicate 27 0)) (tSess) (tModel) = true := by
  decide

theorem test_meets_management_reads_writes_and_configures_9 :
    (fun (s : State) (m : MgtMsg) (e : Session) => decide ((Heard m 2 e s)
      ∧ (m.payload.length % 8 = 0)
      ∧ (m.payload.length ≤ 1024))) (tMgt) (tMsg5 (List.replicate 16 1)) (tSess) = true := by
  decide

theorem test_meets_management_reads_writes_and_configures_10 :
    (fun (s : State) (m : MgtMsg) (e : Session) => decide ((Heard m 2 e s)
      ∧ (m.payload.length = 65)
      ∧ (m.payload.getD 0 0 < 4)
      ∧ (m.payload.getD 1 0 ≤ 2 ∨ m.payload.getD 1 0 = 0xFF))) (tMgt) (tMsg5 ([1, 1] ++ List.replicate 63 3)) (tSess) = true := by
  decide

theorem test_meets_management_reads_writes_and_configures_11 :
    (fun (s : State) (m : MgtMsg) (e : Session) => decide ((Heard m 0 e s))) (tMgt) (tMsg5 []) (tSess) = true := by
  decide

theorem test_meets_management_reads_writes_and_configures_12 :
    (fun (s : State) (m : MgtMsg) (e : Session) => decide ((Heard m 2 e s))) (tMgt) (tMsg5 []) (tSess) = true := by
  decide

theorem test_meets_firmware_is_staged_tried_and_kept_1 :
    (fun (s : State) (m : MgtMsg) (e : Session) (typ fl : Nat) => decide ((Heard m 2 e s)
      ∧ (8 ≤ m.payload.length)
      ∧ (m.payload.getD 0 0 = typ)
      ∧ (m.payload.getD 1 0 = fl)
      ∧ (1 ≤ typ ∧ typ ≤ 4 ∧ fl ≤ 1)
      ∧ (leAt m.payload 4 4 + (m.payload.length - 8) ≤ slotSize typ)
      ∧ (s.stageRefusal m.session typ = 0))) (tMgt) (tMsg5 [2, 1, 0, 0, 0, 0, 0, 0, 9, 9]) (tSess) (2) (1) = true := by
  decide

theorem test_meets_firmware_is_staged_tried_and_kept_2 :
    (fun (s : State) (m : MgtMsg) (e : Session) (typ fl : Nat) => decide ((Heard m 2 e s)
      ∧ (m.payload = [typ, fl])
      ∧ (1 ≤ typ ∧ typ ≤ 5 ∧ fl ≤ 3)
      ∧ (s.actRefusal typ (bit fl 1) = 0))) (tMgt.fset F.MGT_FW_DATA_B_VALID 2 1) (tMsg5 [2, 1]) (tSess) (2) (1) = true := by
  decide

theorem test_meets_firmware_is_staged_tried_and_kept_3 :
    (fun (s : State) (m : MgtMsg) (e : Session) (typ fl r : Nat) => decide ((Heard m 2 e s)
      ∧ (m.payload = [typ, fl])
      ∧ (1 ≤ typ ∧ typ ≤ 5 ∧ fl ≤ 3)
      ∧ (s.actRefusal typ (bit fl 1) = r)
      ∧ (r ≠ 0))) (tMgt) (tMsg5 [2, 1]) (tSess) (2) (1) (6) = true := by
  decide

theorem test_meets_firmware_is_staged_tried_and_kept_4a :
    (fun (s : State) (a : Activation) => decide ((s.mgmt.act = some a)
      ∧ (a.typ = 2)
      ∧ (a.phase = .restarting))) (tAct 2 .restarting true) (tActv 2 .restarting true) = true := by
  decide

theorem test_meets_firmware_is_staged_tried_and_kept_4b :
    (fun (s : State) (a : Activation) => decide ((s.mgmt.act = some a)
      ∧ (a.typ = 2)
      ∧ (a.phase = .restarting))) (tAct 2 .restarting false) (tActv 2 .restarting false) = true := by
  decide

theorem test_meets_firmware_is_staged_tried_and_kept_5 :
    (fun (s : State) => decide ((s.mgmt.act = none)
      ∧ (s.field.fw ≠ .running))) ({ tMgt with field := { tLink.field with fw := .restarting } }) = true := by
  decide

theorem test_meets_firmware_is_staged_tried_and_kept_6 :
    (fun (s : State) (a : Activation) => decide ((s.mgmt.act = some a)
      ∧ (a.typ = 2)
      ∧ (a.phase = .restarting)
      ∧ (a.moving = none)
      ∧ (a.started + 2000000000 ≤ s.ns))) (tAct 2 .restarting true) (tActv 2 .restarting true) = true := by
  decide

theorem test_meets_firmware_is_staged_tried_and_kept_7 :
    (fun (s : State) (a : Activation) => decide ((s.mgmt.act = some a)
      ∧ (a.phase = .trial)
      ∧ (a.started + 600000000000 ≤ s.ns))) (tAct 2 .trial true) (tActv 2 .trial true) = true := by
  decide

theorem test_meets_firmware_is_staged_tried_and_kept_8 :
    (fun (s : State) (m : MgtMsg) (e : Session) (a : Activation) (typ : Nat) => decide ((Heard m 2 e s)
      ∧ (m.payload = [typ])
      ∧ (1 ≤ typ ∧ typ ≤ 4)
      ∧ (s.mgmt.act = some a)
      ∧ (a.typ = typ)
      ∧ (a.phase = .trial))) (tAct 2 .trial true) (tMsg5 [2]) (tSess) (tActv 2 .trial true) (2) = true := by
  decide

theorem test_meets_firmware_is_staged_tried_and_kept_9 :
    (fun (s : State) (m : MgtMsg) (e : Session) (a : Activation) (typ : Nat) => decide ((Heard m 2 e s)
      ∧ (m.payload = [typ])
      ∧ (1 ≤ typ ∧ typ ≤ 5)
      ∧ (s.mgmt.act = some a)
      ∧ (a.typ = typ)
      ∧ (a.phase = .trial))) (tAct 2 .trial true) (tMsg5 [2]) (tSess) (tActv 2 .trial true) (2) = true := by
  decide

theorem test_meets_firmware_is_staged_tried_and_kept_10 :
    (fun (s : State) (m : MgtMsg) (e : Session) (typ : Nat) => decide ((Heard m 2 e s)
      ∧ (m.payload = [typ])
      ∧ (1 ≤ typ ∧ typ ≤ 5)
      ∧ (s.mgmt.act = none))) (tMgt) (tMsg5 [2]) (tSess) (2) = true := by
  decide

theorem test_meets_firmware_is_staged_tried_and_kept_11 :
    (fun (s : State) (image : List Nat) => decide ((s.power.slotPower = true)
      ∧ (s.fget F.KEEP_STATUS_STATE 0 = 2)
      ∧ (image.length ≤ slotSize 1)
      ∧ (image.all (fun v => decide (v < 256)) = true))) (tMgt.fset F.KEEP_STATUS_STATE 0 2) ([1, 2]) = true := by
  decide

theorem test_meets_firmware_is_staged_tried_and_kept_12 :
    (fun (s : State) (m : MgtMsg) (e : Session) => decide ((Heard m 2 e s)
      ∧ (m.payload.length = 7)
      ∧ (msgUnitOk m.payload = true)
      ∧ (s.unit (msgUnit m.payload) ≠ 2)
      ∧ (s.lookouts ≠ []))) (tMgt.fset F.REL_LOOKOUT_STATE0 0 2) (tMsg5 [2, 1, 2, 0, 5, 0, 0]) (tSess) = true := by
  decide

theorem test_meets_firmware_is_staged_tried_and_kept_13 :
    (fun (s : State) (m : MgtMsg) (e : Session) => decide ((Heard m 2 e s)
      ∧ (m.payload.length = 7)
      ∧ (msgUnitOk m.payload = true)
      ∧ (m.payload.getD 0 0 = 2)
      ∧ (m.payload.getD 6 0 = 0)
      ∧ (s.mgmt.retest = none)
      ∧ (s.unit (msgUnit m.payload) = 2))) (tMgt.fset F.REL_UNIT_DATA_STATE (unitLane 1 2 5) 2) (tMsg5 [2, 1, 2, 0, 5, 0, 0]) (tSess) = true := by
  decide

theorem test_meets_firmware_is_staged_tried_and_kept_14 :
    (fun (s : State) (c e l : Nat) => decide ((s.mgmt.retest = some ⟨2, c, l, e⟩))) ({ tMgt with mgmt := { tMgt.mgmt with retest := some ⟨2, 1, 5, 2⟩ } }) (1) (2) (5) = true := by
  decide

theorem test_meets_firmware_is_staged_tried_and_kept_15 :
    (fun (s : State) (x : Retest) => decide ((s.mgmt.retest = some x))) ({ tMgt with mgmt := { tMgt.mgmt with retest := some ⟨0, 1, 5, 2⟩ } }) (⟨0, 1, 5, 2⟩) = true := by
  decide

/-! ### Power, reset, clocks and temperature -/

def tFree : State := tRun.fset F.CORE_ROLE_ROLE 1 0
def tPow (p : Power) : State := { (tRun.fset F.GLB_PWR_STATUS_STATE 0 1) with power := { p with slotPower := true } }

theorem test_meets_power_and_resets_1 :
    (fun (s : State) (sense : Nat) (auxOk : Bool) => decide ((s.power.slotPower = false)
      ∧ (s.power.trip = false))) (State.reset) (0) (true) = true := by
  decide

theorem test_meets_power_and_resets_2 :
    (fun (s : State) => decide ((s.power.slotPower = true))) (tRun) = true := by
  decide

theorem test_meets_power_and_resets_3 :
    (fun (s : State) => decide ((s.power.slotPower = true))) (tRun) = true := by
  decide

theorem test_meets_power_and_resets_4 :
    (fun (s : State) (sense : Nat) (auxOk : Bool) => decide ((s.power.slotPower = true)
      ∧ (s.hotForReset = false))) (tRun) (0) (true) = true := by
  decide

theorem test_meets_power_and_resets_5 :
    (fun (s : State) (sense : Nat) (auxOk : Bool) => decide ((s.power.slotPower = true)
      ∧ (s.hotForReset = true))) (tRun.fset F.HK_CH_DATA_VALUE 3 1700) (0) (true) = true := by
  decide

theorem test_meets_power_and_resets_6 :
    (fun (s : State) (sense : Nat) (auxOk : Bool) => decide ((s.power.slotPower = false))) (State.reset) (0) (true) = true := by
  decide

theorem test_meets_power_and_resets_7 :
    (fun (s : State) => decide ((s.power.slotPower = true))) (tRun) = true := by
  decide

theorem test_meets_power_and_resets_8 :
    (fun (s : State) (c : Nat) => decide ((c < 32)
      ∧ (s.power.slotPower = true)
      ∧ (s.fget F.CORE_ROLE_ROLE c = 0)
      ∧ (¬ c ∈ s.power.resetting)
      ∧ (s.fget F.GLB_PWR_STATUS_STATE 0 ≠ 3))) (tFree) (1) = true := by
  decide

theorem test_meets_power_and_resets_9 :
    (fun (s : State) => decide ((s.fget F.GLB_THM_STATUS_STOPPING 0 = 0)
      ∧ (s.fget F.GLB_PWR_STATUS_STATE 0 ≠ 0))) (tMgt) = true := by
  decide

theorem test_meets_power_and_resets_10 :
    (fun (s : State) => decide ((s.fget F.GLB_THM_STATUS_STOPPING 0 = 1 ∨ s.fget F.GLB_PWR_STATUS_STATE 0 = 0))) (tRun) = true := by
  decide

theorem test_meets_power_and_resets_11 :
    (fun (s : State) => decide ((s.fget F.GLB_THM_STATUS_STOPPING 0 = 0)
      ∧ (s.fget F.GLB_PWR_STATUS_STATE 0 ≠ 0)
      ∧ (s.hk.fresh + 10000000 < s.ns))) ({ tMgt with ns := 20000000 }) = true := by
  decide

theorem test_meets_power_and_resets_12 :
    (fun (s : State) (c : Nat) (at' : Nat) => decide ((s.power.stop = some (c, at'))
      ∧ (at' ≤ s.ns))) (tPow { Power.empty with stop := some (5, 100) }) (5) (100) = true := by
  decide

theorem test_meets_power_and_resets_13 :
    (fun (s : State) => decide ((s.power.slotPower = true)
      ∧ (s.fget F.GLB_THM_STATUS_STOPPING 0 = 0)
      ∧ (s.fget F.GLB_PWR_STATUS_STATE 0 ≠ 0)
      ∧ (s.coresRun = true))) (tMgt) = true := by
  decide

theorem test_meets_power_and_resets_14 :
    (fun (s : State) => decide ((s.power.slotPower = true)
      ∧ (s.coresRun = false))) (tOn) = true := by
  decide

theorem test_meets_power_and_resets_15 :
    (fun (s : State) => decide ((s.power.slotPower = true)
      ∧ (s.bar.up = false))) (tRun) = true := by
  decide

theorem test_meets_power_and_resets_16 :
    (fun (s : State) => decide ((s.power.slotPower = true))) (tRun) = true := by
  decide

theorem test_meets_power_and_resets_17 :
    (fun (s : State) (sense : Nat) (auxOk : Bool) => decide ((s.power.trip = true))) ({ State.reset with power := { Power.empty with trip := true } }) (0) (true) = true := by
  decide

theorem test_meets_power_and_resets_18 :
    (fun (s : State) (p : Nat) => decide ((s.power.slotPower = true)
      ∧ (p < 6)
      ∧ (s.fget F.CNP_PORT_STATUS_STATE p = 3))) (tCnp 3 { key := some tKey }) (0) = true := by
  decide

theorem test_meets_power_and_resets_19 :
    (fun (s : State) => decide ((s.power.slotPower = true))) (tRun) = true := by
  decide

theorem test_meets_power_and_resets_20 :
    (fun (s : State) => decide ((s.power.slotPower = true))) (tRun) = true := by
  decide

theorem test_meets_power_and_resets_21 :
    (fun (s : State) => decide ((s.power.slotPower = true))) (tRun) = true := by
  decide

theorem test_meets_power_and_resets_22 :
    (fun (s : State) => decide ((s.power.slotPower = true)
      ∧ (s.fget F.GLB_THM_STATUS_STOPPING 0 = 0)
      ∧ (s.fget F.GLB_PWR_STATUS_STATE 0 ≠ 0))) (tMgt) = true := by
  decide

theorem test_meets_thermal_control_acts_1 :
    (fun (s : State) => decide ((s.fget F.GLB_THM_STATUS_LEVEL 0 = 3)
      ∧ (s.fget F.GLB_THM_STATUS_STOPPING 0 = 0)
      ∧ (s.power.guard = [])
      ∧ (heldFor100 s.power.below 3 s.ns = true))) ((tPow { Power.empty with slow := true, below := [(3, 5)] }).fset F.GLB_THM_STATUS_LEVEL 0 3 |> fun s => { s with ns := 200000000 }) = true := by
  decide

theorem test_meets_thermal_control_acts_2 :
    (fun (s : State) (k : Nat) => decide ((s.fget F.GLB_THM_STATUS_LEVEL 0 ≠ k))) (tRun) (2) = true := by
  decide

theorem test_meets_thermal_control_acts_3 :
    (fun (s : State) (c : Nat) => decide ((c ∈ s.power.guard)
      ∧ (heldFor100 s.power.cool c s.ns = true)
      ∧ (s.fget F.RST_STATUS_DROOP_LIMIT c = 0))) ({ tPow { Power.empty with guard := [1], cool := [(1, 5)] } with ns := 200000000 }) (1) = true := by
  decide

theorem test_meets_thermal_control_acts_4 :
    (fun (s : State) => decide ((s.power.overpower = true)
      ∧ (s.power.coolPower ≠ 0)
      ∧ (s.power.coolPower + 1000000000 ≤ s.ns + 1))) ({ tPow { Power.empty with overpower := true, coolPower := 5 } with ns := 2000000000 }) = true := by
  decide

theorem test_meets_thermal_control_acts_5 :
    (fun (s : State) (r1 r2 r3 g st d dr : Nat) => decide ((s.staging F.GLB_THM_RISE_RISE1 0 = r1 ∧ s.staging F.GLB_THM_RISE_RISE2 0 = r2 ∧ s.staging F.GLB_THM_RISE_RISE3 0 = r3)
      ∧ (s.staging F.GLB_THM_ABS_GUARD_C 0 = g ∧ s.staging F.GLB_THM_ABS_STOP_C 0 = st)
      ∧ (s.staging F.GLB_THM_MISC_DRAM_STOP 0 = d ∧ s.staging F.GLB_THM_MISC_DRAIN 0 = dr)
      ∧ (0 < r1 ∧ r1 < r2 ∧ r2 < r3 ∧ r3 < 256)
      ∧ (g < st ∧ st ≤ 1840 ∧ d ≤ 1600 ∧ dr ≤ 100))) ({ tOn with staged := [(F.GLB_THM_RISE_RISE1.key 0, 1), (F.GLB_THM_MISC_DRAIN.key 0, 100)] }) (1) (16) (32) (1600) (1760) (1520) (100) = true := by
  decide

theorem test_meets_thermal_control_acts_6 :
    (fun (s : State) => decide ((s.staging F.GLB_THM_RISE_RISE2 0 ≤ s.staging F.GLB_THM_RISE_RISE1 0 ∨ 1840 < s.staging F.GLB_THM_ABS_STOP_C 0 ∨ 100 < s.staging F.GLB_THM_MISC_DRAIN 0))) ({ tOn with staged := [(F.GLB_THM_RISE_RISE1.key 0, 200)] }) = true := by
  decide

theorem test_meets_thermal_control_acts_7 :
    (fun (s : State) (c : Nat) => decide ((c < 32)
      ∧ (s.power.slotPower = true)
      ∧ (s.stageOf c = none)
      ∧ (s.fget F.CORE_STATUS_STATE c ≠ 4)
      ∧ (s.failing c true = true)
      ∧ (s.rel.failovers = []))) (tFree) (2) = true := by
  decide

/-! ### Frames -/

/-! ### Rules stated whole -/

theorem test_meets_head_doorbells_are_accepted_or_ignored_1 :
    (fun (s : State) (f r v : Nat) => decide ((ringExists f r = true)
      ∧ (cntDiff (v % 2 ^ 32) (s.fget F.RING_CQ_HEAD_COUNT (ringKey f r)) ≤ cntDiff (s.fget F.RING_CQ_TAIL_COUNT (ringKey f r)) (s.fget F.RING_CQ_HEAD_COUNT (ringKey f r))))) (tRing.fset F.RING_CQ_TAIL_COUNT 130 4) (1) (2) (3) = true := by
  decide

theorem test_meets_head_doorbells_are_accepted_or_ignored_2 :
    (fun (s : State) (f r v : Nat) => decide ((ringExists f r = true)
      ∧ (cntDiff (s.fget F.RING_CQ_TAIL_COUNT (ringKey f r)) (s.fget F.RING_CQ_HEAD_COUNT (ringKey f r)) < cntDiff (v % 2 ^ 32) (s.fget F.RING_CQ_HEAD_COUNT (ringKey f r))))) (tRing.fset F.RING_CQ_TAIL_COUNT 130 4) (1) (2) (5) = true := by
  decide

theorem test_meets_an_add_beyond_the_end_holds_there_1 :
    (fun (s : State) (k i : Nat) (p : Packet) (o : CtrOp) => decide ((s.packet k = some p)
      ∧ (k < s.fab.nextKey)
      ∧ (p.typ = .signal)
      ∧ (s.behindSends p = false)
      ∧ (ctrOp p.payload = o)
      ∧ (o.op = 1)
      ∧ (o.ok = true)
      ∧ (p.retx = false)
      ∧ (ctrOf (s.blockOf p) p.src o = .inr i)
      ∧ (s.waitsOf i = [])
      ∧ (0xFFFFFFFF < s.ctr i + o.operand))) ((tPost { typ := .signal, src := 44, payload := [1, 0, 5, 0x40, 3, 0, 0, 0, 0, 0, 44, 2] }).fset F.SYNC_VALUE_VALUE 16389 0xFFFFFFFF) (9) (16389) ({ key := 9, typ := .signal, src := 44, payload := [1, 0, 5, 0x40, 3, 0, 0, 0, 0, 0, 44, 2] }) (⟨1, 0, 0x4005, 3, 0, 44, 2, 0⟩) = true := by
  decide

theorem test_meets_other_sizes_and_alignments_are_discarded_1 :
    (fun (r : Reg) => decide ((r ∈ Reg.all))) (R.GLB_ACC_HI) = true := by
  decide

theorem test_meets_other_sizes_and_alignments_are_discarded_2 :
    (fun (s : State) (a : Access) => decide ((s.reached a = true)
      ∧ (a.bar = 0)
      ∧ (accMsix a = none)
      ∧ (a.size ≠ 4 ∨ a.off % 4 ≠ 0))) (tOn) (⟨0, true, 0, 0x42, 4, false⟩) = true := by
  decide

/-! ### The machine as a whole -/

theorem test_meets_reset_holds_its_values_1 :
    (fun (r : Reg) => decide ((r ∈ Reg.all)
      ∧ (r.off ≠ R.HK_ENT_DATA.off))) (R.GLB_STATUS) = true := by
  decide
end

/-! SUPPORT. The register map (Tables 2.8 to 19.6) as the register accesses use it, what a written word does to a
register field by field (R15), how an access of the PF's BAR0 is classified (R12, R444), and the statements about the
step, reset and the register accesses that rest on these. -/

namespace Sys2Proof.Machine

/-! ### The register map -/

/-- Every field stands in its own register and within the register's 32 bits. -/
theorem Reg.all_fields_within : ∀ r ∈ Reg.all, ∀ f ∈ r.flds, f.reg = r.off ∧ 0 < f.width ∧ f.lo + f.width ≤ 32 := by
  decide +kernel

/-- No two fields of a register share their number. -/
theorem Reg.all_codes_nodup : ∀ r ∈ Reg.all, (r.flds.map Fld.code).Nodup := by
  decide +kernel

/-- A field's number gives back its register. -/
theorem Reg.code_div {r : Reg} (hr : r ∈ Reg.all) {f : Fld} (hf : f ∈ r.flds) : f.code / 32 = r.off := by
  obtain ⟨hreg, hpos, hlo⟩ := Reg.all_fields_within r hr f hf
  rw [Fld.code, hreg]
  omega

/-! ### What a written word does to each field (Table 0.5) -/

/-- The `i`-th copy of a field has the same value, and the same value staged, in both states. -/
def SameFld (f : Fld) (i : Nat) (s t : State) : Prop :=
  t.fget f i = s.fget f i ∧ Tab.find t.staged (f.key i) = Tab.find s.staged (f.key i)

section
variable {f g : Fld} {i j v : Nat} {s t u : State}

@[simp] theorem State.find_stage_self : Tab.find (s.stage f i v).staged (f.key i) = some (v % 2 ^ f.width) :=
  Tab.find_set_self _ _ _

@[simp] theorem State.staging_stage_self : (s.stage f i v).staging f i = v % 2 ^ f.width := by
  simp [State.staging, Tab.getD]

theorem SameFld.refl : SameFld f i s s := ⟨rfl, rfl⟩

theorem SameFld.trans (h : SameFld f i s t) (k : SameFld f i t u) : SameFld f i s u :=
  ⟨k.1.trans h.1, k.2.trans h.2⟩

theorem SameFld.staging (h : SameFld f i s t) : t.staging f i = s.staging f i := by
  obtain ⟨hval, hstg⟩ := h
  rw [State.staging, State.staging, Tab.getD, Tab.getD, hval, hstg]

/-- Setting another field, or another copy of this one. -/
theorem SameFld.fset (h : f.code ≠ g.code ∨ i ≠ j) : SameFld f i s (s.fset g j v) :=
  ⟨State.fget_fset_ne s v h, rfl⟩

/-- Staging a value for another field. -/
theorem SameFld.stage (h : f.code ≠ g.code) : SameFld f i s (s.stage g j v) :=
  ⟨rfl, Tab.find_set_ne _ _ fun e => h (Fld.key_inj.mp e).1⟩

/-- Writing a word to another field. -/
theorem SameFld.writeFld_ne (h : f.code ≠ g.code) : SameFld f i s (s.writeFld g j v) := by
  unfold State.writeFld
  cases g.acc with
  | rw => exact .fset (Or.inl h)
  | rws => exact .fset (Or.inl h)
  | w1c => exact .fset (Or.inl h)
  | stg => exact .stage h
  | ro => exact .refl
  | wo => exact .refl
  | rc => exact .refl

/-- What a written word does to a field depends on that field only. -/
theorem SameFld.writeFld (h : SameFld f i s t) : SameFld f i (s.writeFld f i v) (t.writeFld f i v) := by
  obtain ⟨hval, hstg⟩ := h
  unfold State.writeFld
  cases f.acc with
  | rw | rws => simp [SameFld, hstg]
  | w1c => simp [SameFld, hval, hstg]
  | stg => simp [SameFld, hval]
  | ro | wo | rc => exact ⟨hval, hstg⟩

theorem SameFld.foldl_writeFld_ne (l : List Fld) (h : f.code ∉ l.map Fld.code) :
    SameFld f i s (l.foldl (fun s g => s.writeFld g i v) s) := by
  induction l generalizing s with
  | nil => exact .refl
  | cons g l ih =>
    rw [List.map_cons, List.mem_cons, not_or] at h
    exact (SameFld.writeFld_ne h.1).trans (ih h.2)

theorem SameFld.foldl_writeFld (l : List Fld) (hl : (l.map Fld.code).Nodup) (hf : f ∈ l) :
    SameFld f i (s.writeFld f i v) (l.foldl (fun s g => s.writeFld g i v) s) := by
  induction l generalizing s with
  | nil => cases hf
  | cons g l ih =>
    rw [List.map_cons, List.nodup_cons] at hl
    obtain rfl | hf := List.mem_cons.mp hf
    · exact SameFld.foldl_writeFld_ne l hl.1
    · have hne : f.code ≠ g.code := fun e => hl.1 (e ▸ List.mem_map_of_mem hf)
      exact (SameFld.writeFld_ne hne).writeFld.trans (ih hl.2 hf)

/-- A word written to a register does to each of its fields what it does to that field alone. -/
theorem State.writeReg_sameFld {r : Reg} (hr : r ∈ Reg.all) (hf : f ∈ r.flds) :
    SameFld f i (s.writeFld f i v) (s.writeReg r i v) :=
  SameFld.foldl_writeFld r.flds (Reg.all_codes_nodup r hr) hf

theorem State.writeFld_rw (h : f.acc = .rw ∨ f.acc = .rws) : (s.writeFld f i v).fget f i = v / 2 ^ f.lo % 2 ^ f.width := by
  obtain h | h := h <;> simp [State.writeFld, h, bits]

theorem State.writeFld_w1c (h : f.acc = .w1c) (hw : f.width = 1) (hb : s.fget f i < 2) :
    (s.writeFld f i v).fget f i = if v.testBit f.lo then 0 else s.fget f i := by
  have hbit : bits v f.lo 1 = (v.testBit f.lo).toNat := (Nat.toNat_testBit v f.lo).symm
  simp only [State.writeFld, h, State.fget_fset_self, hw, hbit]
  obtain h0 | h1 : s.fget f i = 0 ∨ s.fget f i = 1 := by omega
  · simp [h0]
  · cases v.testBit f.lo <;> simp [h1]

theorem State.writeFld_stg (h : f.acc = .stg) :
    (s.writeFld f i v).staging f i = v / 2 ^ f.lo % 2 ^ f.width ∧ (s.writeFld f i v).fget f i = s.fget f i := by
  simp [State.writeFld, h, bits]

theorem State.writeFld_ignored (h : f.acc = .ro ∨ f.acc = .rc ∨ f.acc = .wo) : s.writeFld f i v = s := by
  obtain h | h | h := h <;> simp [State.writeFld, h]

end

/-- Settles O3: each field of a register is written as it would be alone, and alone as its access code says. -/
theorem writtenWordsFollowTheAccessCodes : Obligations.written_words_follow_the_access_codes := by
  unfold Obligations.written_words_follow_the_access_codes
  intro s r i v hr f hf
  have hsame : SameFld f i (s.writeFld f i v) (s.writeReg r i v) := State.writeReg_sameFld hr hf
  rw [hsame.1, hsame.staging]
  refine ⟨State.writeFld_rw, ?_, State.writeFld_stg, ?_⟩
  · rintro ⟨hacc, hwidth, hbit⟩
    exact State.writeFld_w1c hacc hwidth hbit
  · intro hacc
    rw [State.writeFld_ignored hacc]

/-! ### The queue and reset -/

/-- Settles O1: with a command at the front of the queue a step is that command's meaning. -/
theorem stepRunsTheFrontCommand : Obligations.step_runs_the_front_command := fun _ _ _ => rfl

/-- As shipped a register field reads its reset value, unless it is the housekeeping table's word. -/
theorem State.reset_fget {f : Fld} (h : f.code ≠ F.HK_ENT_DATA_WORD.code) (i : Nat) : State.reset.fget f i = f.reset := by
  simp [State.fget, State.reset, shippedFields, shippedTable, List.zipIdx, Tab.getD, Tab.find, Fld.key_inj, Ne.symm h]

/-- Settles O59: only words of HK_ENT_DATA are listed among the register fields as shipped. -/
theorem resetHoldsItsValues : Obligations.reset_holds_its_values := by
  unfold Obligations.reset_holds_its_values
  refine ⟨fun r hr hoff f hf i => State.reset_fget (fun hcode => hoff ?_) i, rfl, rfl, rfl, rfl, rfl, rfl⟩
  rw [← Reg.code_div hr hf, hcode]
  rfl

/-! ### Which accesses of the PF's BAR0 are discarded (R12, R444) -/

section
variable {s : State} {a : Access}

theorem accMsix_pf_bar0 (hfunc : a.func = 0) (hbar : a.bar = 0) : accMsix a = none := by
  simp [accMsix, hfunc, hbar]

theorem State.accessKind_not_whole (hfunc : a.func = 0) (hbar : a.bar = 0) (h : a.size ≠ 4 ∨ a.off % 4 ≠ 0) :
    s.accessKind a = some 0 := by
  have hwhole : (a.size == 4 && a.off % 4 == 0) = false := by
    rw [Bool.and_eq_false_iff, beq_eq_false_iff_ne, beq_eq_false_iff_ne]
    exact h
  simp [State.accessKind, accMsix_pf_bar0 hfunc hbar, hbar, hwhole]

variable (hfunc : a.func = 0) (hbar : a.bar = 0) (hsize : a.size = 4) (halign : a.off % 4 = 0)
  (hproxy : inProxy a.off = false)
include hfunc hbar hsize halign hproxy

/-- A whole word outside the proxy window: what decides is the register that it names. -/
theorem State.accessKind_whole :
    s.accessKind a = if (accTarget a).isNone then some 1 else if s.unavailable a then some 2 else none := by
  simp [State.accessKind, accMsix_pf_bar0 hfunc hbar, hbar, hsize, halign, hproxy]

theorem State.accessKind_no_register (h : accTarget a = none) : s.accessKind a = some 1 := by
  rw [State.accessKind_whole hfunc hbar hsize halign hproxy, h]
  rfl

theorem State.accessKind_register (h : (accTarget a).isSome = true) :
    s.accessKind a = if s.unavailable a then some 2 else none := by
  have hnone : (accTarget a).isNone = false := by rw [← Option.not_isSome, h]; rfl
  rw [State.accessKind_whole hfunc hbar hsize halign hproxy, hnone]
  rfl

end

/-! ### What a discarded access leaves (R444, R446) -/

section
variable {s : State} {a : Access} {k : Nat}

theorem State.fon_fset_ne (s : State) {f g : Fld} {i j : Nat} (v : Nat) (h : g.code ≠ f.code ∨ j ≠ i) :
    (s.fset f i v).fon g j = s.fon g j := by
  rw [State.fon, State.fon, State.fget_fset_ne s v h]

/-- A counter counts one occurrence, unless it is frozen or full (R61). -/
theorem State.count_fget_self (s : State) (c : Ctr) (i : Nat) :
    (s.count c i).fget c.cnt i =
      if s.fon c.frz i then s.fget c.cnt i else min 0xFFFFFFFF (s.fget c.cnt i + 1) % 2 ^ c.cnt.width := by
  unfold State.count State.countAt
  split
  · rfl
  · exact State.fget_fset_self _ _ _ _

theorem State.accError_readData (s : State) (a : Access) (k : Nat) : (s.accError a k).readData = s.readData :=
  (State.accError_chg s a k).readData.resolve_left (by decide)

theorem State.accError_staged (s : State) (a : Access) (k : Nat) : (s.accError a k).staged = s.staged :=
  (State.accError_chg s a k).staged.resolve_left (by decide)

/-- The record's registers, ACC_SEEN and the count after a discarded access of the PF. -/
theorem State.accError_fields (hfunc : a.func = 0) (hk : k < 4) :
    (s.accError a k).fget F.GLB_ACC_LO_KIND 0 = k ∧
    (s.accError a k).fget F.GLB_ACC_LO_WRITE 0 = ofBool a.write ∧
    (s.accError a k).fget F.GLB_ACC_HI_FUNCTION 0 = a.func ∧
    (s.accError a k).fget F.GLB_ACC_HI_MGT 0 = ofBool a.mgt ∧
    (s.accError a k).fget F.GLB_ACC_HI_VALID 0 = 1 ∧
    (s.accError a k).fget F.GLB_STATUS_ACC_SEEN 0 = 1 ∧
    Counted accCtr 0 1 s (s.accError a k) ∧
    (s.accError a k).fget F.GLB_ACC_LO_OFFSET 0 = a.off % 2 ^ 26 := by
  have hmgt : ofBool a.mgt % 2 ^ F.GLB_ACC_HI_MGT.width = ofBool a.mgt := by cases a.mgt <;> rfl
  have hwrite : ofBool a.write % 2 ^ F.GLB_ACC_LO_WRITE.width = ofBool a.write := by cases a.write <;> rfl
  have hkind : k % 2 ^ F.GLB_ACC_LO_KIND.width = k := Nat.mod_eq_of_lt hk
  unfold State.accError
  refine ⟨?_, ?_, ?_, ?_, ?_, ?_, ?_, ?_⟩
  all_goals
    simp (disch := decide) only [State.logRate_fget, State.flag, State.count_fget, State.fget_fset_ne,
      State.fget_fset_self, hmgt, hwrite, hkind]
  · rw [hfunc]
    rfl
  · rfl
  · rfl
  · simp (disch := decide) only [Counted, State.logRate_fget, State.fget_fset_ne, State.count_fget_self,
      State.fon_fset_ne]
  · simp [hfunc, F.GLB_ACC_LO_OFFSET]

/-- ACCESS_DISCARDED of a PF access with a cause records it. -/
theorem execAccessDiscarded_records (hreach : s.reached a = true) (hfunc : a.func = 0) (hk : k < 4)
    (hkind : s.accessKind a = some k) : Does (.accessDiscarded a) s (fun t => Discarded a k s t) := by
  obtain ⟨fkind, fwrite, ffunc, fmgt, fvalid, fseen, hcount, hoff⟩ := State.accError_fields (s := s) hfunc hk
  cases hwrite : a.write with
  | true =>
    refine ⟨s.accError a k, ?_, ?_⟩
    · simp [exec, execAccessDiscarded, hkind, hreach, hwrite]
    · exact ⟨fkind, fwrite, ffunc, fmgt, fvalid, fseen, hcount, by simp [hwrite, State.accError_readData],
        State.accError_staged s a k, fun _ => hoff⟩
  | false =>
    refine ⟨{ s.accError a k with readData := [0] }, ?_, ?_⟩
    · simp [exec, execAccessDiscarded, hkind, hreach, hwrite]
    · exact ⟨fkind, fwrite, ffunc, fmgt, fvalid, fseen, hcount, by simp [hwrite],
        State.accError_staged s a k, fun _ => hoff⟩

end

/-- Settles O6: each of the three causes is the one that the access is discarded for, and the record names it. -/
theorem discardedAccessIsRecorded : Obligations.discarded_access_is_recorded := by
  unfold Obligations.discarded_access_is_recorded
  refine ⟨?_, ?_, ?_⟩
  · intro s a hreach hfunc hbar hwhole
    exact execAccessDiscarded_records hreach hfunc (by decide) (State.accessKind_not_whole hfunc hbar hwhole)
  · intro s a hreach hfunc hbar hsize halign hproxy hnone
    exact execAccessDiscarded_records hreach hfunc (by decide)
      (State.accessKind_no_register hfunc hbar hsize halign hproxy hnone)
  · intro s a hreach hfunc hbar hsize halign hsome hlo hhi hstate
    have hproxy : inProxy a.off = false := by simp [inProxy]; omega
    have hgone : s.unavailable a = true := by simp [State.unavailable, hfunc, hlo, hhi, hstate]
    refine execAccessDiscarded_records hreach hfunc (by decide) ?_
    rw [State.accessKind_register hfunc hbar hsize halign hproxy hsome, hgone]
    rfl

/-! ### What a written word of the PF's BAR0 reaches -/

section
variable {s : State} {a : Access} {r : Reg} {i off v : Nat}

/-- A PF access to a whole word outside the proxy window and the core windows, where a register stands, is served. -/
theorem State.accessKind_served {w : Bool} (ha : wordAccess a off w) (hoff : off < 0x100000) (halign : off % 4 = 0)
    (hreg : findReg off = some (r, i)) : accTarget a = some (r, i) ∧ s.accessKind a = none := by
  obtain ⟨hfunc, hbar, rfl, hsize, -⟩ := ha
  have htarget : accTarget a = some (r, i) := by
    rw [accTarget, if_pos hfunc, if_pos (by omega), hreg]
  have hproxy : inProxy a.off = false := by simp [inProxy]; omega
  have hthere : s.unavailable a = false := by simp [State.unavailable]; omega
  refine ⟨htarget, ?_⟩
  rw [State.accessKind_register hfunc hbar hsize halign hproxy (by rw [htarget]; rfl), hthere]
  rfl

/-- REGISTER_WRITE of such a word is the write to the register. -/
theorem execRegisterWrite_word (hreach : s.reached a = true) (ha : wordAccess a off true) (hoff : off < 0x100000)
    (halign : off % 4 = 0) (hreg : findReg off = some (r, i)) :
    exec (.registerWrite a v) s = .next (s.regWrite (accWho a) r i (v % 2 ^ 32)) := by
  obtain ⟨htarget, hkind⟩ := State.accessKind_served (s := s) ha hoff halign hreg
  obtain ⟨hfunc, hbar, rfl, hsize, hwrite⟩ := ha
  have hproxy : inProxy a.off = false := by simp [inProxy]; omega
  have hmsix := accMsix_pf_bar0 hfunc hbar
  simp [exec, execRegisterWrite, hwrite, hreach, State.busWrite, hbar, hkind, hmsix, hproxy, htarget]

theorem findReg_scratch {k : Nat} (hk : k < 4) : findReg (0x40 + 4 * k) = some (R.GLB_SCRATCH, k) := by
  interval_cases k <;> rfl

/-- Setting one field changes the fields only, and only that field. -/
theorem OnlyFields.fset (s : State) (f : Fld) (i v : Nat) : OnlyFields [(f, i)] s (s.fset f i v) :=
  ⟨rfl, fun _ _ h => State.fget_fset_ne s v (h (f, i) (List.mem_singleton_self _))⟩

end

/-- Settles O4: each of the three words reaches `State.writeFld` of its one writable field. -/
theorem registerWriteReachesItsRegister : Obligations.register_write_reaches_its_register := by
  unfold Obligations.register_write_reaches_its_register
  refine ⟨?_, ?_, ?_⟩
  · intro s a k v hreach hk ha
    have hexec : exec (.registerWrite a v) s = .next (s.writeFld F.GLB_SCRATCH_VALUE k (v % 2 ^ 32)) :=
      execRegisterWrite_word hreach ha (by omega) (by omega) (findReg_scratch hk)
    refine ⟨_, hexec, ?_, OnlyFields.fset _ _ _ _⟩
    rw [State.writeFld_rw (Or.inl rfl)]
    simp [F.GLB_SCRATCH_VALUE]
  · intro s a v hreach ha hbit hseen
    have hexec : exec (.registerWrite a v) s = .next (s.writeFld F.GLB_STATUS_ACC_SEEN 0 (v % 2 ^ 32)) :=
      execRegisterWrite_word hreach ha (by omega) (by omega) (rfl : findReg 0x10 = some (R.GLB_STATUS, 0))
    refine ⟨_, hexec, ?_, OnlyFields.fset _ _ _ _⟩
    have hlow : (v % 2 ^ 32).testBit F.GLB_STATUS_ACC_SEEN.lo = true := by
      rw [Nat.testBit_mod_two_pow]
      exact hbit
    rw [State.writeFld_w1c rfl rfl hseen, if_pos hlow]
  · intro s a v hreach ha
    have hexec : exec (.registerWrite a v) s = .next (s.writeFld F.MGT_HOST_MASK_BLOCKS 0 (v % 2 ^ 32)) :=
      execRegisterWrite_word hreach ha (by omega) (by omega) (rfl : findReg 0x10008 = some (R.MGT_HOST_MASK, 0))
    refine ⟨_, hexec, ?_, rfl⟩
    rw [(State.writeFld_stg rfl).1]
    simp [F.MGT_HOST_MASK_BLOCKS]

/-! ### Commits apply staged values together (R16) -/

section
variable {s t : State} {f : Fld} {i : Nat} {l l' : List (Fld × Nat)}

theorem SameFld.applyAll (h : ∀ p ∈ l, f.code ≠ p.1.code ∨ i ≠ p.2) : SameFld f i s (s.applyAll l) := by
  induction l generalizing s with
  | nil => exact .refl
  | cons p l ih =>
    rw [List.forall_mem_cons] at h
    exact (SameFld.fset h.1).trans (ih h.2)

/-- A field of the list takes the value staged before the commit, whatever stands before it in the list. -/
theorem State.applyAll_fget (hl : (l.map fun p => p.1.key p.2).Nodup) (hf : (f, i) ∈ l) :
    (s.applyAll l).fget f i = s.staging f i % 2 ^ f.width := by
  induction l generalizing s with
  | nil => cases hf
  | cons p l ih =>
    rw [List.map_cons, List.nodup_cons, List.mem_map, not_exists] at hl
    obtain ⟨hp, hl⟩ := hl
    have hother : ∀ q ∈ l, p.1.code ≠ q.1.code ∨ p.2 ≠ q.2 := fun q hq => by
      by_contra hsame
      exact hp q ⟨hq, Fld.key_inj.mpr (by push Not at hsame; exact ⟨hsame.1.symm, hsame.2.symm⟩)⟩
    obtain rfl | hf := List.mem_cons.mp hf
    · exact (SameFld.applyAll hother).1.trans (State.fget_fset_self s f i _)
    · have hne : f.code ≠ p.1.code ∨ i ≠ p.2 := (hother _ hf).imp Ne.symm Ne.symm
      exact (ih hl hf).trans (congrArg (· % 2 ^ f.width) (SameFld.fset hne).staging)

/-- A commit changes nothing but the listed fields. -/
theorem State.applyAll_onlyFields (s : State) (l : List (Fld × Nat)) : OnlyFields l s (s.applyAll l) := by
  refine ⟨?_, fun f i h => (SameFld.applyAll h).1⟩
  induction l generalizing s with
  | nil => rfl
  | cons p l ih => exact ih (s.applyStaged p.1 p.2)

theorem OnlyFields.mono (h : OnlyFields l s t) (hl : l ⊆ l') : OnlyFields l' s t :=
  ⟨h.1, fun f i hf => h.2 f i fun p hp => hf p (hl hp)⟩

end

/-- Settles O8: the vector is legal, so the three staged values are applied, each within its field's width. -/
theorem mgtCommitAppliesTheStagedFields : Obligations.mgt_commit_applies_the_staged_fields := by
  unfold Obligations.mgt_commit_applies_the_staged_fields
  intro s hvec hirq hmask
  have hcommit : s.mgtCommit = s.applyAll [(F.MGT_CFG_HOST_IRQ_EN, 0), (F.MGT_CFG_VECTOR, 0), (F.MGT_HOST_MASK_BLOCKS, 0)] :=
    if_pos hvec
  have fits (f : Fld) (h : s.staging f 0 < 2 ^ f.width) : s.staging f 0 % 2 ^ f.width = s.staging f 0 :=
    Nat.mod_eq_of_lt h
  refine ⟨s.mgtCommit, rfl, ?_⟩
  rw [hcommit]
  refine ⟨?_, ?_, ?_, (State.applyAll_onlyFields s _).mono (by simp)⟩
  · rw [State.applyAll_fget (by decide) (by simp), fits _ (Nat.lt_succ_of_le hvec)]
  · rw [State.applyAll_fget (by decide) (by simp), fits _ hirq]
  · rw [State.applyAll_fget (by decide) (by simp), fits _ hmask]

/-! ### Reads -/

/-- A module in service whose record of discarded accesses holds BAR = 1 and nothing else. -/
def barRecord : State :=
  State.fset { State.reset with power := { Power.empty with slotPower := true, linkUp := true } } F.GLB_ACC_HI_BAR 0 1

/-- The PF's read of GLB_ACC_HI. -/
def accHiRead : Access := ⟨0, false, 0, 0x24, 4, false⟩

theorem exec_accHiRead_barRecord : exec (.rcFieldRead accHiRead) barRecord = .next (barRecord.hostGet accHiRead) := rfl

theorem readData_accHiRead_barRecord : (barRecord.hostGet accHiRead).readData = [2 ^ F.GLB_ACC_HI_BAR.lo] := by
  decide

/-- Refutes O5: a read of GLB_ACC_HI also shows the field BAR (bit 7, Table 19.5), which the last clause leaves out of the
word that it says the read returns.  Where the record has BAR = 1 and nothing else the read returns 128, and that clause
says 0.  No command sets BAR, which reads 0 in every BAR0 record: the clause lacks that premise. -/
theorem not_readsLatchAndClear : ¬ Obligations.reads_latch_and_clear := by
  unfold Obligations.reads_latch_and_clear
  rintro ⟨-, -, -, -, -, haccHi⟩
  obtain ⟨t, hexec, hdata, -⟩ := haccHi barRecord accHiRead (by decide) (by decide) (by decide)
  rw [exec_accHiRead_barRecord] at hexec
  cases hexec
  rw [readData_accHiRead_barRecord] at hdata
  exact absurd hdata (by decide)

end Sys2Proof.Machine

/-! SUPPORT. The counter control registers (R61), the charge engine's conversions, cycles and registers (R38 to R62,
R83, R110, R119), and the statements about them. -/

namespace Sys2Proof.Machine

/-! ### Conversions (R39) -/

/-- Settles O57: the test against 65,408 decides between code 255 with the flag and a code without it. -/
theorem conversionsSaturateAboveTheirRange : Obligations.conversions_saturate_above_their_range := by
  unfold Obligations.conversions_saturate_above_their_range
  refine fun charge err => ⟨fun habove => ?_, fun hwithin => ?_⟩
  · rw [convert, if_pos habove]
  · rw [convert, if_neg (Int.not_lt.mpr hwithin)]

/-! ### Counter control (R61) -/

/-- The cleared counters reset to 0, and none is a field of the register that clears it. -/
theorem Reg.cleared_counters : ∀ r ∈ Reg.all, ∀ f ∈ cntFields r.off ++ cntAll r.off,
    f.reset = 0 ∧ f.code ∉ r.flds.map Fld.code := by
  decide +kernel

theorem regAt_mem {off i : Nat} {r : Reg} (h : regAt off = some (r, i)) : r ∈ Reg.all := by
  obtain ⟨r', hmem, hinst⟩ := List.exists_of_findSome?_eq_some h
  obtain ⟨_, -, hpair⟩ := Option.map_eq_some_iff.mp hinst
  cases hpair
  exact hmem

theorem findReg_mem {off i : Nat} {r : Reg} (h : findReg off = some (r, i)) : r ∈ Reg.all := by
  unfold findReg at h
  split at h
  · next hat => cases h; exact regAt_mem hat
  · split at h
    · cases h
    · split at h
      · next hat =>
        split at h
        · cases h; exact regAt_mem hat
        · cases h
      · cases h

/-- An access names a register of the map, or the identity register of a VF. -/
theorem accTarget_mem {a : Access} {r : Reg} {i : Nat} (h : accTarget a = some (r, i)) : r ∈ Reg.all := by
  unfold accTarget at h
  split_ifs at h with hpf hoff hid hring
  · exact findReg_mem h
  · cases h
    decide +kernel
  · obtain ⟨p, hp, hpair⟩ := Option.map_eq_some_iff.mp h
    cases hpair
    exact findReg_mem hp

theorem Tab.find_keep {α : Type} (t : Tab α) (p : Nat → Bool) (n : Nat) :
    Tab.find (Tab.keep t fun k _ => p k) n = if p n then Tab.find t n else none := by
  induction t with
  | nil => simp [Tab.keep]
  | cons e l ih =>
    obtain ⟨k, v⟩ := e
    rw [Tab.keep] at ih ⊢
    by_cases hk : k = n
    · subst hk
      cases hp : p k <;> simp_all [Tab.find]
    · cases hp : p k <;> simp [Tab.find, hp, hk, ih]

theorem Fld.unpair_key (f : Fld) (i : Nat) : (Nat.unpair (f.key i)).1 = f.code := by
  rw [Fld.key, Nat.unpair_pair]

/-- A field within the low 32 bits of a word does not see the word's other bits. -/
theorem bits_mod_word {v lo w : Nat} (h : lo + w ≤ 32) : v % 2 ^ 32 / 2 ^ lo % 2 ^ w = v / 2 ^ lo % 2 ^ w := by
  refine Nat.eq_of_testBit_eq fun k => ?_
  simp only [Nat.testBit_mod_two_pow, Nat.testBit_div_two_pow]
  rw [← Bool.and_assoc]
  congr 1
  by_cases hk : k < w
  · simp [hk, show k + lo < 32 by omega]
  · simp [hk]

section
variable {s : State} {off i j v : Nat} {f : Fld} {r : Reg}

/-- What CLEAR does to a field: the written copy of a block's counters, and every copy of those that have one for each
lane or output, return to their reset values. -/
theorem State.clearCounters_fget (s : State) (off i : Nat) (f : Fld) (j : Nat) :
    (s.clearCounters off i).fget f j =
      if (∃ g ∈ cntFields off, g.code = f.code ∧ j = i) ∨ (∃ g ∈ cntAll off, g.code = f.code) then f.reset
      else s.fget f j := by
  have hkept : (!((cntFields off).map fun g => g.key i).contains (f.key j)
      && !((cntAll off).map Fld.code).contains (Nat.unpair (f.key j)).1) =
      !decide ((∃ g ∈ cntFields off, g.code = f.code ∧ j = i) ∨ (∃ g ∈ cntAll off, g.code = f.code)) := by
    rw [← Bool.not_or, Bool.not_inj_iff, Bool.eq_iff_iff]
    simp only [Bool.or_eq_true, List.contains_iff_mem, List.mem_map, decide_eq_true_eq, Fld.key_inj, Fld.unpair_key]
    simp only [@eq_comm _ i j]
  have hfields : (s.clearCounters off i).fields = Tab.keep s.fields fun k _ =>
      !((cntFields off).map fun g => g.key i).contains k && !((cntAll off).map Fld.code).contains (Nat.unpair k).1 := by
    unfold State.clearCounters
    split <;> rfl
  rw [State.fget, State.fget, hfields, Tab.getD, Tab.find_keep, hkept]
  by_cases hcleared : (∃ g ∈ cntFields off, g.code = f.code ∧ j = i) ∨ (∃ g ∈ cntAll off, g.code = f.code)
  · simp [hcleared]
  · simp [hcleared, Tab.getD]

/-- A word written to one copy of a field leaves every other field and every other copy. -/
theorem State.writeFld_fget_ne {g : Fld} (h : f.code ≠ g.code ∨ j ≠ i) : (s.writeFld g i v).fget f j = s.fget f j := by
  unfold State.writeFld
  cases g.acc with
  | rw | rws | w1c => exact State.fget_fset_ne _ _ h
  | stg | ro | wo | rc => rfl

theorem State.writeReg_fget_ne (h : ∀ g ∈ r.flds, f.code ≠ g.code ∨ j ≠ i) : (s.writeReg r i v).fget f j = s.fget f j := by
  unfold State.writeReg
  generalize r.flds = l at h
  induction l generalizing s with
  | nil => rfl
  | cons g l ih =>
    rw [List.forall_mem_cons] at h
    exact (ih h.2).trans (State.writeFld_fget_ne h.1)

/-- COUNTER_CLEAR of an access that is served writes its word to the counter control register that it names. -/
theorem execCounterClear_served {a : Access} (hreach : s.reached a = true) (hwrite : a.write = true) (hbar : a.bar = 0)
    (hkind : s.accessKind a = none) (hmsix : accMsix a = none) (hproxy : a.func ≠ 0 ∨ inProxy a.off = false)
    (htarget : accTarget a = some (r, i)) (hctrl : r.cntCtrl = true) (hlive : (instCore r i).any s.retired = false) :
    exec (.counterClear a v) s = .next (s.writeCntCtrl r i (v % 2 ^ 32)) := by
  have hnot : (decide (a.func = 0) && inProxy a.off) = false := by
    rw [Bool.and_eq_false_iff, decide_eq_false_iff_not]
    exact hproxy
  have hreg (w : Nat) : s.regWrite (accWho a) r i w = s.writeCntCtrl r i w := by simp [State.regWrite, hlive, hctrl]
  simp [exec, execCounterClear, State.busWrite, hwrite, hreach, hbar, htarget, hctrl, hkind, hmsix, hnot, hreg]

end

/-- Settles O7: CLEAR returns the counters to their reset value 0, and the write that follows takes the word's bits into
the other fields, none of which is a counter. -/
theorem counterClearClearsTheBlock : Obligations.counter_clear_clears_the_block := by
  unfold Obligations.counter_clear_clears_the_block
  intro s a v r i hreach hwrite hbar hkind hmsix hproxy htarget hctrl hlive hclear
  have hr : r ∈ Reg.all := accTarget_mem htarget
  have hcounter := Reg.cleared_counters r hr
  have hword : s.writeCntCtrl r i (v % 2 ^ 32) = (s.clearCounters r.off i).writeReg r i (v % 2 ^ 32) := by
    have hbit : bit (v % 2 ^ 32) 0 = true := by rw [bit, Nat.testBit_mod_two_pow]; exact hclear
    rw [State.writeCntCtrl, if_pos hbit]
  refine ⟨_, execCounterClear_served hreach hwrite hbar hkind hmsix hproxy htarget hctrl hlive, ?_⟩
  rw [hword]
  have hkeep (f : Fld) (j : Nat) (h : f.code ∉ r.flds.map Fld.code) :
      ((s.clearCounters r.off i).writeReg r i (v % 2 ^ 32)).fget f j = (s.clearCounters r.off i).fget f j :=
    State.writeReg_fget_ne fun g hg => Or.inl fun hcode => h (hcode ▸ List.mem_map_of_mem hg)
  refine ⟨fun f hf => ?_, fun f hf j => ?_, fun f hf hrw => ?_, fun f j hone hall => ?_⟩
  · obtain ⟨hzero, hother⟩ := hcounter f (List.mem_append_left _ hf)
    rw [hkeep f i hother, State.clearCounters_fget, if_pos (Or.inl ⟨f, hf, rfl, rfl⟩), hzero]
  · obtain ⟨hzero, hother⟩ := hcounter f (List.mem_append_right _ hf)
    rw [hkeep f j hother, State.clearCounters_fget, if_pos (Or.inr ⟨f, hf, rfl⟩), hzero]
  · obtain ⟨-, -, hfit⟩ := Reg.all_fields_within r hr f hf
    rw [(State.writeReg_sameFld hr hf).1, State.writeFld_rw (Or.inl hrw)]
    exact bits_mod_word hfit
  · rw [List.forall_mem_append] at hone
    rw [State.writeReg_fget_ne hone.2, State.clearCounters_fget, if_neg]
    rintro (⟨g, hg, hcode, rfl⟩ | ⟨g, hg, hcode⟩)
    · exact (hone.1 g hg).elim (fun h => h hcode.symm) (fun h => h rfl)
    · exact hall g hg hcode.symm

/-! ### What the parts of a bit-plane cycle leave alone -/

section
variable {s t u : State} {m c e : Nat} {f : Fld} {i : Nat} {g : Engine}

/-- A field outside the blocks of a frame reads as before. -/
theorem Chg.fget (h : Chg m s t) (hm : m.testBit (40 + regBlk (f.code / 32)) = false) : t.fget f i = s.fget f i := by
  have hkey := (h.regs (f.key i)).resolve_left (by rw [keyBlk, keyReg_key, hm]; decide)
  rw [State.fget, State.fget, Tab.getD, Tab.getD, hkey]

theorem State.engine_congr (h : t.engines = s.engines) (c e : Nat) : t.engine c e = s.engine c e := by
  rw [State.engine, State.engine, h]

theorem SameBut.of_eq {α : Type} {k : Nat} {a b : Tab α} (h : b = a) : SameBut k a b := fun _ _ => by rw [h]

theorem SameBut.trans {α : Type} {k : Nat} {a b d : Tab α} (h : SameBut k a b) (h' : SameBut k b d) : SameBut k a d :=
  fun j hj => (h' j hj).trans (h j hj)

theorem State.setEngine_sameBut (s : State) (c e : Nat) (g : Engine) : SameBut (eng c e) s.engines (s.setEngine c e g).engines :=
  fun _ hj => Tab.find_set_ne _ _ hj

/-- A vector but for the row writes that it still has to make, which a write window takes. -/
def EngVec.noWrites (v : EngVec) : EngVec := { v with writes := [] }

/-- What an engine holds beside its cells, corrections and row writes: its vectors and its rewrite window. -/
def Engine.vecs (g : Engine) : Option EngVec × Option EngVec × Option EngVec × Option Window :=
  (g.run.map EngVec.noWrites, g.tree, g.next, g.window)

theorem Engine.foldl_vecs {α : Type} {f : Engine → α → Engine} (hf : ∀ g x, (f g x).vecs = g.vecs) (l : List α)
    (g : Engine) : (l.foldl f g).vecs = g.vecs := by
  induction l generalizing g with
  | nil => rfl
  | cons x l ih => exact (ih _).trans (hf g x)

theorem Engine.setLevel_vecs (g : Engine) (row col v : Nat) : (g.setLevel row col v).vecs = g.vecs := rfl

theorem Engine.writeRow_vecs (g : Engine) (row : Nat) (lev : Nat → Nat) (spare : Nat → Option Nat) :
    (g.writeRow row lev spare).vecs = g.vecs := by
  unfold Engine.writeRow
  refine ((Engine.foldl_vecs (fun g sp => ?_) _ _).trans (Engine.foldl_vecs (fun g k => ?_) _ _)).trans
    (Engine.foldl_vecs (fun g col => ?_) _ _)
  · split
    · split
      · exact Engine.setLevel_vecs ..
      · rfl
    · exact Engine.setLevel_vecs ..
  · exact Engine.setLevel_vecs ..
  · exact Engine.setLevel_vecs ..

theorem Engine.addRef_vecs (g : Engine) (t now k seg kind : Nat) (rows : List Nat) (code : Nat) :
    (g.addRef t now k seg kind rows code).vecs = g.vecs := by
  unfold Engine.addRef
  extract_lets e key
  split
  · rfl
  · split
    · rfl
    · extract_lets l g'
      split <;> rfl

theorem Engine.addRefs_vecs (g : Engine) (t now seg kind : Nat) (rows codes : List Nat) :
    (g.addRefs t now seg kind rows codes).vecs = g.vecs :=
  Engine.foldl_vecs (fun g _ => Engine.addRef_vecs g ..) _ _

/-- `t` has in engine `e` of core `c` the vectors and the rewrite window of `s`, and the same in every other engine;
the stand-ins counted are the same. -/
structure KeepsVecs (c e : Nat) (s t : State) : Prop where
  vecs : (t.engine c e).vecs = (s.engine c e).vecs
  others : SameBut (eng c e) s.engines t.engines
  standin : ∀ j, t.fget F.RST_CNT_STANDIN_COUNT j = s.fget F.RST_CNT_STANDIN_COUNT j

theorem KeepsVecs.refl : KeepsVecs c e s s := ⟨rfl, .of_eq rfl, fun _ => rfl⟩

theorem KeepsVecs.trans (h : KeepsVecs c e s t) (h' : KeepsVecs c e t u) : KeepsVecs c e s u :=
  ⟨h'.vecs.trans h.vecs, h.others.trans h'.others, fun j => (h'.standin j).trans (h.standin j)⟩

theorem KeepsVecs.ite {p : Prop} [Decidable p] (h : KeepsVecs c e s t) (h' : KeepsVecs c e s u) :
    KeepsVecs c e s (if p then t else u) := by
  split
  · exact h
  · exact h'

/-- An operation that changes neither the engines nor the restorer's registers. -/
theorem KeepsVecs.of_chg (h : Chg m s t) (hengines : m.testBit 12 = false := by rfl)
    (hregs : m.testBit 46 = false := by rfl) : KeepsVecs c e s t :=
  have heq : t.engines = s.engines := h.engines.resolve_left (by simp [hengines])
  ⟨by rw [State.engine_congr heq], .of_eq heq, fun _ => h.fget hregs⟩

theorem KeepsVecs.setEngine (h : g.vecs = (s.engine c e).vecs) : KeepsVecs c e s (s.setEngine c e g) :=
  ⟨by rw [State.engine_setEngine, h], State.setEngine_sameBut s c e g, fun _ => rfl⟩

theorem KeepsVecs.writeScratch (w : RowWrite) : KeepsVecs c e s (s.writeScratch c e w) := by
  unfold State.writeScratch
  extract_lets g s' k key s''
  have hrow : KeepsVecs c e s s' := .setEngine (Engine.writeRow_vecs ..)
  have hcore : KeepsVecs c e s s'' := hrow.trans (.of_chg (State.setCore_chg ..))
  exact hcore.ite (hcore.trans (.of_chg (State.count_chg ..)))

theorem KeepsVecs.writeWindow : KeepsVecs c e s (s.writeWindow c e) := by
  unfold State.writeWindow
  split
  · exact .refl
  · next v hrun =>
    have hset : KeepsVecs c e s (s.setEngine c e { s.engine c e with run := some { v with writes := v.writes.drop 4 } }) :=
      .setEngine (by simp [Engine.vecs, hrun, EngVec.noWrites])
    exact List.foldlRecOn _ _ hset fun t ht w _ => ht.trans (.writeScratch w)

end

/-! ### A cycle (R38 to R51, R110) -/

/-- A cycle of engine `e` of core `c` has run: its running vector is now `v`, the row in its rewrite window is used up if
the cycle is the window's, and a stand-in is counted if one happened. -/
structure CycleRan (c e : Nat) (v : EngVec) (standin hit : Bool) (s t : State) : Prop where
  run : (t.engine c e).run.map EngVec.noWrites = some v.noWrites
  tree : (t.engine c e).tree = (s.engine c e).tree
  next : (t.engine c e).next = (s.engine c e).next
  window : (t.engine c e).window = (s.engine c e).window.map fun y => { y with used := y.used || standin }
  others : SameBut (eng c e) s.engines t.engines
  counted : t.fget F.RST_CNT_STANDIN_COUNT c =
    if hit then (s.count C.RST_CNT_STANDIN c).fget F.RST_CNT_STANDIN_COUNT c else s.fget F.RST_CNT_STANDIN_COUNT c

section
variable {s t u : State} {c e p k : Nat} {v w : EngVec} {si hit : Bool} {g : Engine}

theorem CycleRan.trans (h : CycleRan c e v si hit s t) (h' : KeepsVecs c e t u) : CycleRan c e v si hit s u := by
  obtain ⟨hrun, htree, hnext, hwindow, hothers, hcounted⟩ := h
  obtain ⟨hvecs, hothers', hstandin⟩ := h'
  simp only [Engine.vecs, Prod.mk.injEq] at hvecs
  obtain ⟨hrun', htree', hnext', hwindow'⟩ := hvecs
  exact ⟨hrun'.trans hrun, htree'.trans htree, hnext'.trans hnext, hwindow'.trans hwindow, hothers.trans hothers',
    (hstandin c).trans hcounted⟩

/-- What a part of the running vector that no write window touches reads after the cycle. -/
theorem CycleRan.run_map {α : Type} (h : CycleRan c e v si hit s t) (φ : EngVec → α) (hφ : ∀ w, φ w.noWrites = φ w) :
    (t.engine c e).run.map φ = some (φ v) := by
  have hrun := congrArg (Option.map φ) h.run
  rw [Option.map_map, Option.map_some, hφ] at hrun
  rw [← hrun]
  exact congrArg (Option.map · _) (funext fun w => (hφ w).symm)

/-- The engine takes the vector after the cycle, free values are drawn and a stand-in is counted. -/
theorem CycleRan.of_setEngine (n : Nat) (hg : g.vecs = (s.engine c e).vecs) :
    let s' := (s.setEngine c e { g with
      run := some v, window := g.window.map fun y => { y with used := y.used || si } }).draw n
    CycleRan c e v si hit s (if hit then s'.count C.RST_CNT_STANDIN c else s') := by
  intro s'
  simp only [Engine.vecs, Prod.mk.injEq] at hg
  obtain ⟨-, htree, hnext, hwindow⟩ := hg
  have hengine : s'.engine c e = { g with
      run := some v, window := g.window.map fun y => { y with used := y.used || si } } := State.engine_setEngine ..
  have hengines : (if hit then s'.count C.RST_CNT_STANDIN c else s').engines = s'.engines := by
    split
    · exact (State.count_chg ..).engines.resolve_left (by decide)
    · rfl
  have hothers : SameBut (eng c e) s.engines s'.engines := State.setEngine_sameBut s c e _
  refine ⟨?_, ?_, ?_, ?_, by rw [hengines]; exact hothers, ?_⟩
  · rw [State.engine_congr hengines, hengine]
    rfl
  · rw [State.engine_congr hengines, hengine, ← htree]
  · rw [State.engine_congr hengines, hengine, ← hnext]
  · rw [State.engine_congr hengines, hengine, ← hwindow]
  · split
    · rw [← show C.RST_CNT_STANDIN.cnt = F.RST_CNT_STANDIN_COUNT from rfl, State.count_fget_self, State.count_fget_self]
      rfl
    · rfl

/-- Whether the row in the rewrite window stands in for a driven row of a plane. -/
def State.standsIn (s : State) (c e : Nat) (v : EngVec) (p : Nat) (standin : Bool) : Bool :=
  let x := if standin then s.windowRow (s.engine c e) else none
  x.elim false fun y => ((s.rowsOn c e v p 0).filter (fun r => (standRows v x).contains r)
    ++ (s.rowsOn c e v p 1).filter fun r => (standRows v x).contains r).contains y.row

theorem State.standsIn_of_no_window : s.standsIn c e v p false = false := rfl

theorem State.standsIn_of_driven {w : Window} (hw : s.windowRow (s.engine c e) = some w) (hrow : w.row < 2048)
    (hdriven : (s.rowsOn c e v p (segOf w.row)).contains w.row = true) : s.standsIn c e v p true = true := by
  have hseg : segOf w.row = 0 ∨ segOf w.row = 1 := by unfold segOf; omega
  obtain hseg | hseg := hseg <;>
    simp_all [State.standsIn, standRows]

/-- Plane `p` of the running vector `v` has been issued: the vector stands before the next plane, one cycle later. -/
def PlaneRan (c e : Nat) (v : EngVec) (p : Nat) (standin : Bool) (s t : State) : Prop :=
  ∃ replays splits sums clips, CycleRan c e { v with
    plane := p + 1, clock := v.clock + 1, issued := v.issued + 1
    replays := replays, splits := splits, sums := sums, clips := clips } standin (s.standsIn c e v p standin) s t

/-- A plane that is issued moves the running vector to the next plane and costs it one cycle (R38, R42). -/
theorem State.issuePlane_cycleRan (s : State) (c e : Nat) (v : EngVec) (p k : Nat) (si : Bool) :
    PlaneRan c e v p si s (s.issuePlane c e v p k si) := by
  unfold State.issuePlane
  extract_lets i g x st n0 seg stoodIn conv0 conv1 w left sat0 sat1 d r0 r1 sums0 sums1 clips splits v' codes cal g0 g1
    hit g2 s0 s1 s2 s3 s4 s5 s6 s7 s8
  have hg0 : g0.vecs = g.vecs := by
    unfold g0
    split
    · exact Engine.addRefs_vecs ..
    · rfl
  have hg1 : g1.vecs = g.vecs := by
    unfold g1
    split
    · exact (Engine.addRefs_vecs ..).trans hg0
    · exact hg0
  have hcount : CycleRan c e v' si (s.standsIn c e v p si) s s1 := .of_setEngine 2688 hg1
  have hcounters : KeepsVecs c e s1 s5 :=
    (((KeepsVecs.of_chg (State.countN_chg ..)).trans (.of_chg (State.count_chg ..))).trans
      (.of_chg (State.countN_chg ..))).trans (.of_chg (State.countN_chg ..))
  have hflag : KeepsVecs c e s5 s6 := .ite .refl (.of_chg (State.flag_chg ..))
  have hwindow : KeepsVecs c e s6 s8 := (KeepsVecs.of_chg (State.satRecords_chg ..)).trans .writeWindow
  have hslip : KeepsVecs c e s8 (if s8.vecDone c e v' then s8.setSlip c e v'.clock g2.idle else s8) :=
    .ite (.of_chg (State.setSlip_chg ..)) .refl
  exact ⟨_, _, _, _, hcount.trans (((hcounters.trans hflag).trans hwindow).trans hslip)⟩

/-- A granted replay costs the running vector one cycle and moves it on no plane (R46). -/
theorem State.runSplit_cycleRan (s : State) (c e : Nat) (v : EngVec) (q : SplitReq) (rest : List SplitReq) (si : Bool) :
    ∃ sums clips hit, CycleRan c e { v with
      clock := v.clock + 1, issued := v.issued + 1, splits := rest, sums := sums, clips := clips } si hit s
      (s.runSplit c e v q rest si) := by
  unfold State.runSplit
  extract_lets i plan g x st rows stood n0 w res sums clipped clips v' n1 g1 hit g2 s0 s1 s2 s3 s4 s5 s6
  have hg1 : g1.vecs = g.vecs := by
    unfold g1
    split
    · exact (Engine.addRefs_vecs ..).trans (Engine.addRefs_vecs ..)
    · rfl
  have hcount : CycleRan c e v' si hit s s1 := .of_setEngine 2752 hg1
  have hcounters : KeepsVecs c e s1 s4 :=
    ((KeepsVecs.of_chg (State.count_chg ..)).trans (.of_chg (State.count_chg ..))).trans (.of_chg (State.countN_chg ..))
  have hclip : KeepsVecs c e s4 s5 := by
    unfold s5
    generalize clipped = l
    split
    · exact .refl
    · exact .of_chg (State.clip_chg ..)
  have hslip : KeepsVecs c e s6 (if s6.vecDone c e v' then s6.setSlip c e v'.clock g2.idle else s6) :=
    .ite (.of_chg (State.setSlip_chg ..)) .refl
  exact ⟨_, _, _, hcount.trans (((hcounters.trans hclip).trans .writeWindow).trans hslip)⟩

end

/-! ### BIT_PLANE_CYCLE and SPLIT_REPLAY -/

section
variable {s : State} {c e p n k : Nat} {v u : EngVec} {si : Bool}

/-- The search for the next plane passes over those that drive no row (R44). -/
theorem State.nextPlane_eq {q : Nat} (hqp : q ≤ p) (hn : p < q + n) (hp : p < v.planes)
    (hissued : s.planeIssued c e v p = true) (hskip : ∀ r, q ≤ r → r < p → s.planeIssued c e v r = false) :
    s.nextPlane c e v n q k = (p, k + (p - q)) := by
  induction n generalizing q k with
  | zero => omega
  | succ n ih =>
    rw [State.nextPlane, if_neg (by omega)]
    obtain rfl | hlt := Nat.eq_or_lt_of_le hqp
    · rw [if_pos hissued, Nat.sub_self, Nat.add_zero]
    · rw [hskip q le_rfl hlt, if_neg Bool.false_ne_true,
        ih hlt (by omega) fun r hr hrp => hskip r (by omega) hrp, Prod.mk.injEq]
      exact ⟨rfl, by omega⟩

/-- A vector with a plane left to issue is not done. -/
theorem State.vecDone_of_plane_left (hplanes : v.planes ≤ 8) (hp : v.plane ≤ p ∧ p < v.planes)
    (hissued : s.planeIssued c e v p = true) : s.vecDone c e v = false := by
  have hleft : p ∈ (List.range 8).filter fun q => decide (v.plane ≤ q) && decide (q < v.planes) && s.planeIssued c e v q := by
    simp [hp, hissued]
    omega
  have hpos : s.planesLeft c e v v.plane ≠ 0 := (List.length_pos_of_mem hleft).ne'
  simp [State.vecDone, hpos]

/-- While the running vector is not done, the one behind it waits. -/
theorem State.advance_of_not_done (hrun : (s.engine c e).run = some v) (hdone : s.vecDone c e v = false) :
    s.advance c e = s := by
  unfold State.advance
  extract_lets g i
  have hg : g.run = some v := hrun
  split
  · next v' w hv _ _ =>
    cases hg.symm.trans hv
    simp [hdone]
  · next hv _ => cases hg.symm.trans hv
  · rfl

/-- Once the running vector is done, a begun vector behind it runs and the done one stands in the tree (R43). -/
theorem State.advance_of_done (hrun : (s.engine c e).run = some v) (htree : (s.engine c e).tree = none)
    (hnext : (s.engine c e).next = some u) (hbegun : u.begun = true) (hdone : s.vecDone c e v = true) :
    (s.advance c e).engine c e = { s.engine c e with
      run := some { u with clock := (s.advance c e).fget F.ENG_SLIP_SLIP_CYC (eng c e) }
      tree := some v, next := none, idle := 0 } := by
  have hadvance : s.advance c e =
      let s' := if v.issued = 0 then s.setSlip c e v.clock (s.engine c e).idle else s
      s'.setEngine c e { s.engine c e with
        run := some { u with clock := s'.fget F.ENG_SLIP_SLIP_CYC (eng c e) }, tree := some v, next := none, idle := 0 } := by
    simp [State.advance, hrun, htree, hnext, hbegun, hdone]
  rw [hadvance, State.engine_setEngine]
  rfl

theorem State.advance_others (s : State) (c e : Nat) : SameBut (eng c e) s.engines (s.advance c e).engines := by
  have hslip (clock idle : Nat) : (s.setSlip c e clock idle).engines = s.engines :=
    (State.setSlip_chg ..).engines.resolve_left (by decide)
  unfold State.advance
  extract_lets g i
  split
  · extract_lets s' w
    have hs' : s'.engines = s.engines := by
      unfold s'
      split
      · exact hslip ..
      · rfl
    split
    · rw [← hs']
      exact State.setEngine_sameBut s' c e _
    · exact .of_eq rfl
  · split
    · exact State.setEngine_sameBut s c e _
    · exact .of_eq rfl
  · exact .of_eq rfl

/-- BIT_PLANE_CYCLE issues the next plane that drives a row of the vector that runs once `State.advance` has been made. -/
theorem execBitPlaneCycle_issues (hrun : ((s.advance c e).engine c e).run = some v) (hsplits : v.splits = [])
    (hplanes : p < v.plane + 9) (hp : v.plane ≤ p ∧ p < v.planes) (hissued : (s.advance c e).planeIssued c e v p = true)
    (hskip : ∀ q, v.plane ≤ q → q < p → (s.advance c e).planeIssued c e v q = false) :
    Does (.bitPlaneCycle c e si) s (PlaneRan c e v p si (s.advance c e)) := by
  obtain ⟨replays, splits, sums, clips, hcycle⟩ := (s.advance c e).issuePlane_cycleRan c e v p (0 + (p - v.plane)) si
  refine ⟨_, ?_, replays, splits, sums, clips, hcycle.trans (.of_chg (State.finishPosted_chg _ c))⟩
  have hnext := State.nextPlane_eq (k := 0) hp.1 hplanes hp.2 hissued hskip
  simp [exec, execBitPlaneCycle, hrun, hsplits, hnext, hp.2]

/-- The same where the running vector itself has a plane left. -/
theorem execBitPlaneCycle_running (hrun : (s.engine c e).run = some v) (hsplits : v.splits = []) (hplanes : v.planes ≤ 8)
    (hp : v.plane ≤ p ∧ p < v.planes) (hissued : s.planeIssued c e v p = true)
    (hskip : (List.range p).all (fun q => decide (q < v.plane) || !s.planeIssued c e v q) = true) :
    Does (.bitPlaneCycle c e si) s (PlaneRan c e v p si s) := by
  have hadvance : s.advance c e = s := State.advance_of_not_done hrun (State.vecDone_of_plane_left hplanes hp hissued)
  have hskip' (q : Nat) (hq : v.plane ≤ q) (hqp : q < p) : s.planeIssued c e v q = false := by
    have hall := List.all_eq_true.mp hskip q (List.mem_range.mpr hqp)
    simpa [Nat.not_lt.mpr hq] using hall
  have hissue := execBitPlaneCycle_issues (s := s) (c := c) (e := e) (v := v) (p := p) (si := si)
  rw [hadvance] at hissue
  exact hissue hrun hsplits (by omega) hp hissued hskip'

/-- SPLIT_REPLAY runs the oldest granted replay. -/
theorem execSplitReplay_runs {q : SplitReq} {rest : List SplitReq} (hrun : (s.engine c e).run = some v)
    (hsplits : v.splits = q :: rest) : Does (.splitReplay c e si) s (fun t => ∃ sums clips hit, CycleRan c e { v with
      clock := v.clock + 1, issued := v.issued + 1, splits := rest, sums := sums, clips := clips } si hit s t) := by
  obtain ⟨sums, clips, hit, hcycle⟩ := s.runSplit_cycleRan c e v q rest si
  refine ⟨_, ?_, sums, clips, hit, hcycle.trans (.of_chg (State.finishPosted_chg _ c))⟩
  simp [exec, execSplitReplay, hrun, hsplits]

/-- The row in the rewrite window stands in a window that no cycle has used yet. -/
theorem State.window_of_windowRow {w : Window} (h : s.windowRow (s.engine c e) = some w) :
    (s.engine c e).window = some w := by
  unfold State.windowRow at h
  split at h
  · cases h
  · next hwindow =>
    split at h
    · cases h; exact hwindow
    · cases h

end

/-! ### VECTOR_COMPLETE (R83) -/

section
variable {s t u : State} {c e : Nat} {v : EngVec}

/-- `t` has the passes of `s` in tile `k` of core `c`: those of the open group and those of the tile's use. -/
def SamePasses (c k : Nat) (s t : State) : Prop :=
  (t.tile c k).groupPass = (s.tile c k).groupPass ∧ (t.tile c k).usePass = (s.tile c k).usePass

theorem State.tile_congr (h : t.tiles = s.tiles) (c k : Nat) : t.tile c k = s.tile c k := by
  rw [State.tile, State.tile, h]

theorem SamePasses.trans {k : Nat} (h : SamePasses c k s t) (h' : SamePasses c k t u) : SamePasses c k s u :=
  ⟨h'.1.trans h.1, h'.2.trans h.2⟩

/-- Recording a held sum counts no pass. -/
theorem State.accSat_samePasses (s : State) (c k key : Nat) : SamePasses c k s (s.accSat c k key) := by
  unfold State.accSat
  extract_lets tl s0 s1 s2
  have htiles : (s2.logRate 1000000 c { code := 0x0402, core := c }).tiles = s0.tiles :=
    ((State.logRate_chg ..).tiles.resolve_left (by decide)).trans
      (((State.flag_chg ..).tiles.resolve_left (by decide)).trans ((State.count_chg ..).tiles.resolve_left (by decide)))
  rw [SamePasses, State.tile_congr htiles, State.tile_setTile]
  exact ⟨rfl, rfl⟩

/-- Adding a column's contribution counts no pass. -/
theorem State.addPass_samePasses (s : State) (c k h base pass n : Nat) (x : Int) :
    SamePasses c k s (s.addPass c k h base pass n x) := by
  unfold State.addPass
  extract_lets tl key g
  split
  extract_lets s'
  have hsum : SamePasses c k s s' := by
    rw [SamePasses, State.tile_setTile]
    exact ⟨rfl, rfl⟩
  split
  · exact hsum.trans (s'.accSat_samePasses c k key)
  · exact hsum

/-- A finished vector's contribution counts one pass of its chain in its tile. -/
theorem State.accumulate_passes (s : State) (c e : Nat) (v : EngVec) :
    ((s.accumulate c e v).tile c v.tile).groupPass = tally (s.tile c v.tile).groupPass (s.headOf c e) ∧
    ((s.accumulate c e v).tile c v.tile).usePass = tally (s.tile c v.tile).usePass (s.headOf c e) := by
  unfold State.accumulate
  extract_lets h base s' x clips rows
  obtain ⟨hgroup, huse⟩ : SamePasses c v.tile s s' :=
    List.foldlRecOn _ _ ⟨rfl, rfl⟩ fun t ht n _ => ht.trans (t.addPass_samePasses ..)
  rw [State.tile_setTile, ← hgroup, ← huse]
  exact ⟨rfl, rfl⟩

theorem State.retireVec_others (s : State) (c e : Nat) (v : EngVec) :
    SameBut (eng c e) s.engines (s.retireVec c e v).engines := by
  unfold State.retireVec
  extract_lets i g s' s''
  have hcount : s'.engines = s.engines := (State.count_chg ..).engines.resolve_left (by decide)
  have hset (g : Engine) : SameBut (eng c e) s.engines (s'.setEngine c e g).engines := by
    rw [← hcount]
    exact State.setEngine_sameBut s' c e g
  split
  · exact hset _
  · split
    · have hslip : (s''.setSlip c e v.clock g.idle).engines = s''.engines :=
        (State.setSlip_chg ..).engines.resolve_left (by decide)
      rw [hslip]
      exact hset _
    · exact hset _

/-- VECTOR_COMPLETE of a finished vector whose group takes a further pass. -/
theorem execVectorComplete_passes (hfin : s.finishing c e = some v)
    (hroom : Tab.getD (s.tile c v.tile).groupPass (s.headOf c e) 0 < 32) :
    ∃ t, exec (.vectorComplete c e) s = .next t ∧ t.tile c v.tile = (s.accumulate c e v).tile c v.tile ∧
      SameBut (eng c e) s.engines t.engines := by
  let s' := (s.accumulate c e v).countN C.ENG_CNT_PSKIP (eng c e) (skippedTail v)
  refine ⟨(s'.retireVec c e v).advance c e, ?_, ?_, ?_⟩
  · simp [exec, execVectorComplete, hfin, hroom, s']
  · exact State.tile_congr (((State.advance_chg ..).tiles.resolve_left (by decide)).trans
      (((State.retireVec_chg ..).tiles.resolve_left (by decide)).trans
        ((State.countN_chg ..).tiles.resolve_left (by decide)))) c v.tile
  · have hengines : s'.engines = s.engines :=
      ((State.countN_chg ..).engines.resolve_left (by decide)).trans
        ((State.accumulate_chg ..).engines.resolve_left (by decide))
    rw [← hengines]
    exact (s'.retireVec_others c e v).trans ((s'.retireVec c e v).advance_others c e)

end

/-! ### ENG_CFG and CAL_VALID (R58, R119) -/

section
variable {s t : State} {c e v : Nat} {f : Fld} {i w : Nat} {l : List (Fld × Nat)}

/-- Setting one of the listed fields more. -/
theorem OnlyFields.then_fset (h : OnlyFields l s t) (hf : (f, i) ∈ l) : OnlyFields l s (t.fset f i w) := by
  obtain ⟨hother, hfields⟩ := h
  refine ⟨?_, fun g j hg => ?_⟩
  · conv_lhs => rw [hother]
    rfl
  · rw [State.fget_fset_ne t w (hg (f, i) hf), hfields g j hg]

/-- Setting a field leaves every copy of a field of another number. -/
theorem State.fget_fset_of_code_ne (s : State) {g : Fld} {i j w : Nat} (h : f.code ≠ g.code) :
    (s.fset g i w).fget f j = s.fget f j :=
  State.fget_fset_ne s w (Or.inl h)

/-- The legal value `v` written to the `i`-th ENG_CFG. -/
def State.setEngCfg (s : State) (i v : Nat) : State :=
  (((((s.fset F.ENG_CFG_SLICE_PLAN i (bits v 0 2)).fset F.ENG_CFG_PLANES i (bits v 4 4)).fset F.ENG_CFG_SIGNED i
    (bits v 8 1)).fset F.ENG_CFG_SPLIT_EN i (bits v 9 1)).fset F.ENG_CFG_REPLAY_MAX i (bits v 10 2)).fset
    F.ENG_CFG_SEG_EN i (bits v 12 2)

theorem State.setEngCfg_fields (s : State) (i v : Nat) :
    (s.setEngCfg i v).fget F.ENG_CFG_SLICE_PLAN i = v % 4 ∧ (s.setEngCfg i v).fget F.ENG_CFG_PLANES i = v / 16 % 16 ∧
    (s.setEngCfg i v).fget F.ENG_CFG_SIGNED i = v / 256 % 2 ∧ (s.setEngCfg i v).fget F.ENG_CFG_SPLIT_EN i = v / 512 % 2 ∧
    (s.setEngCfg i v).fget F.ENG_CFG_REPLAY_MAX i = v / 1024 % 4 ∧ (s.setEngCfg i v).fget F.ENG_CFG_SEG_EN i = v / 4096 % 4 ∧
    OnlyFields [(F.ENG_CFG_SLICE_PLAN, i), (F.ENG_CFG_PLANES, i), (F.ENG_CFG_SIGNED, i), (F.ENG_CFG_SPLIT_EN, i),
      (F.ENG_CFG_REPLAY_MAX, i), (F.ENG_CFG_SEG_EN, i)] s (s.setEngCfg i v) := by
  unfold State.setEngCfg
  refine ⟨?_, ?_, ?_, ?_, ?_, ?_, ?_⟩
  case refine_7 =>
    refine ((((((OnlyFields.fset s _ i _).mono ?_).then_fset ?_).then_fset ?_).then_fset ?_).then_fset ?_).then_fset ?_
    all_goals simp
  all_goals
    simp (disch := decide) only [State.fget_fset_of_code_ne, State.fget_fset_self]
    simp [bits, F.ENG_CFG_SLICE_PLAN, F.ENG_CFG_PLANES, F.ENG_CFG_SIGNED, F.ENG_CFG_SPLIT_EN, F.ENG_CFG_REPLAY_MAX,
      F.ENG_CFG_SEG_EN]

theorem execEngCfgWrite_legal (hlive : s.retired c = false) (hlock : s.coreLocked c = false) (hok : engCfgOk e v = true) :
    exec (.engCfgWrite c e v) s = .next (s.setEngCfg (eng c e) v) := by
  simp [exec, execEngCfgWrite, State.setEngCfg, hlive, hlock, hok]

theorem execEngCfgWrite_locked (hlive : s.retired c = false) (hlock : s.coreLocked c = true) :
    exec (.engCfgWrite c e v) s =
      .next ((s.flag F.ENG_STATUS_REFUSED_WRITE (eng c e)).log { code := 0x0301, core := c, engine := e }) := by
  simp [exec, execEngCfgWrite, hlive, hlock]

theorem execEngCfgWrite_illegal (hlive : s.retired c = false) (hlock : s.coreLocked c = false)
    (hok : engCfgOk e v = false) : exec (.engCfgWrite c e v) s =
      .next ((s.flag F.ENG_STATUS_CFG_INVALID (eng c e)).log { code := 0x0303, core := c, engine := e }) := by
  simp [exec, execEngCfgWrite, hlive, hlock, hok]

/-- A flag raised with a record of the log reads 1, and no field outside the log changes beside it. -/
theorem State.flag_log_fget (s : State) (g : Fld) (i : Nat) (r : Ev) (hg : g.width = 1)
    (hlog : logFlds.all (fun h => g.code != h.code) = true) : ((s.flag g i).log r).fget g i = 1 := by
  rw [State.log_fget _ _ _ _ hlog, State.flag, State.fget_fset_self, hg]
  rfl

theorem State.flag_log_fget_ne (s : State) {g : Fld} (i : Nat) (r : Ev) {j : Nat} (hne : f.code ≠ g.code)
    (hlog : logFlds.all (fun h => f.code != h.code) = true) : ((s.flag g i).log r).fget f j = s.fget f j := by
  rw [State.log_fget _ _ _ _ hlog, State.flag_fget _ _ _ _ _ (Or.inl hne)]

theorem execCalValidExpiry_falls (hcal : s.calCurrent c e = false) :
    exec (.calValidExpiry c e) s = .next (s.calFall c e) := by
  simp [exec, execCalValidExpiry, hcal]

/-- CAL_VALID of an engine falls alone where its core does not run. -/
theorem State.calFall_of_idle (hon : s.fon F.ENG_STATUS_CAL_VALID (eng c e) = true) (hstate : s.fget F.CORE_STATUS_STATE c ≠ 2) :
    s.calFall c e = s.fset F.ENG_STATUS_CAL_VALID (eng c e) 0 := by
  have hsame : (s.fset F.ENG_STATUS_CAL_VALID (eng c e) 0).fget F.CORE_STATUS_STATE c = s.fget F.CORE_STATUS_STATE c :=
    State.fget_fset_of_code_ne s (by decide)
  simp [State.calFall, hon, hsame, hstate]

/-- Where the core runs, the fall also raises UNCAL_RUN (R54). -/
theorem State.calFall_of_running (hon : s.fon F.ENG_STATUS_CAL_VALID (eng c e) = true)
    (hstate : s.fget F.CORE_STATUS_STATE c = 2) :
    (s.calFall c e).fget F.ENG_STATUS_CAL_VALID (eng c e) = 0 ∧ (s.calFall c e).fget F.ENG_STATUS_UNCAL_RUN (eng c e) = 1 := by
  have hsame : (s.fset F.ENG_STATUS_CAL_VALID (eng c e) 0).fget F.CORE_STATUS_STATE c = 2 :=
    (State.fget_fset_of_code_ne s (by decide)).trans hstate
  unfold State.calFall
  extract_lets i s0 s1 s2
  have hsuspect (f : Fld) (hf : Nat.testBit 0x400021000400908 (40 + regBlk (f.code / 32)) = false) :
      (s2.suspect (unitEngine c e) 0x08).fget f i = s2.fget f i := (State.suspect_chg ..).fget hf
  rw [if_neg (by simp [hon, i]), if_pos hsame, hsuspect _ (by decide), hsuspect _ (by decide)]
  refine ⟨?_, State.flag_log_fget _ _ _ _ rfl (by decide)⟩
  rw [State.flag_log_fget_ne _ _ _ (by decide) (by decide)]
  exact State.fget_fset_self ..

end

/-- Settles O13: BIT_PLANE_CYCLE and SPLIT_REPLAY end in a cycle that has run (`PlaneRan`, `CycleRan`), VECTOR_COMPLETE in
the tile after `State.accumulate`, and the two register rows in their fields. -/
theorem enginesRunAndKeepLegalValues : Obligations.engines_run_and_keep_legal_values := by
  unfold Obligations.engines_run_and_keep_legal_values
  refine ⟨?_, ?_, ?_, ?_, ?_, ?_, ?_, ?_, ?_, ?_, ?_⟩
  · intro s c e v p si hrun hsplits hplanes hp hissued hskip
    obtain ⟨t, hexec, _, _, _, _, hcycle⟩ := execBitPlaneCycle_running (si := si) hrun hsplits hplanes hp hissued hskip
    exact ⟨t, hexec, hcycle.run_map _ fun _ => rfl, hcycle.others⟩
  · intro s c e v p w hrun hsplits hplanes hp hissued hskip hwindow hrow hdriven
    obtain ⟨t, hexec, _, _, _, _, hcycle⟩ := execBitPlaneCycle_running (si := true) hrun hsplits hplanes hp hissued hskip
    refine ⟨t, hexec, ?_, ?_⟩
    · have hcounted := hcycle.counted
      rw [State.standsIn_of_driven hwindow hrow hdriven, if_pos rfl] at hcounted
      exact hcounted.trans (State.count_fget_self ..)
    · rw [hcycle.window, State.window_of_windowRow hwindow]
      simp
  · intro s c e v p hrun hsplits hplanes hp hissued hskip
    obtain ⟨t, hexec, _, _, _, _, hcycle⟩ := execBitPlaneCycle_running (si := false) hrun hsplits hplanes hp hissued hskip
    refine ⟨t, hexec, ?_, hcycle.counted⟩
    rw [hcycle.window]
    simp
  · intro s c e v u si hrun htree hnext hbegun hdone hsplits hplane hplanes hissued
    have hadvance := State.advance_of_done hrun htree hnext hbegun hdone
    obtain ⟨t, hexec, _, _, _, _, hcycle⟩ := execBitPlaneCycle_issues (si := si) (p := 0)
      (congrArg Engine.run hadvance) hsplits (by omega) ⟨hplane.le, hplanes⟩ hissued (by omega)
    refine ⟨t, hexec, hcycle.run_map _ fun _ => rfl, ?_, ?_, (s.advance_others c e).trans hcycle.others⟩
    · rw [hcycle.tree, hadvance]
    · rw [hcycle.next, hadvance]
  · intro s c e v q rest si hrun hsplits
    obtain ⟨t, hexec, _, _, _, hcycle⟩ := execSplitReplay_runs (si := si) hrun hsplits
    exact ⟨t, hexec, hcycle.run_map _ fun _ => rfl, hcycle.others⟩
  · intro s c e v hfin hroom
    obtain ⟨t, hexec, htile, hothers⟩ := execVectorComplete_passes hfin hroom
    obtain ⟨hgroup, huse⟩ := s.accumulate_passes c e v
    refine ⟨t, hexec, ?_, ?_, hothers⟩
    · rw [htile, hgroup, tally, Tab.getD_set_self]
    · rw [htile, huse, tally, Tab.getD_set_self]
  · intro s c e v hlive hlock hok
    exact ⟨_, execEngCfgWrite_legal hlive hlock hok, State.setEngCfg_fields s (eng c e) v⟩
  · intro s c e v hlive hlock
    refine ⟨_, execEngCfgWrite_locked hlive hlock, State.flag_log_fget _ _ _ _ rfl (by decide), ?_, ?_⟩
    all_goals exact State.flag_log_fget_ne _ _ _ (by decide) (by decide)
  · intro s c e v hlive hlock hok
    exact ⟨_, execEngCfgWrite_illegal hlive hlock hok, State.flag_log_fget _ _ _ _ rfl (by decide),
      State.flag_log_fget_ne _ _ _ (by decide) (by decide)⟩
  · intro s c e hcal hon hstate
    refine ⟨_, execCalValidExpiry_falls hcal, ?_⟩
    rw [State.calFall_of_idle hon hstate]
    exact ⟨State.fget_fset_self .., OnlyFields.fset ..⟩
  · intro s c e hcal hon hstate
    exact ⟨_, execCalValidExpiry_falls hcal, State.calFall_of_running hon hstate⟩

end Sys2Proof.Machine

/-! SUPPORT. The rounding generator, the held sums and the second level (R83, R85, R88), the sequencer's threads, engines
that take a vector and packets that are posted (R94, R136, R167, R169), and the statements about them. -/

namespace Sys2Proof.Machine

/-! ### Sums, their second level and the rounding generator (R83, R85, R88) -/

section
variable {v : Int} {g sh : Nat} {l : List (Option Int)}

theorem hold32_within (hlo : -2147483648 ≤ v) (hhi : v ≤ 2147483647) : hold32 v = (v, false) := by
  have hclamp : clampI (-2147483648) 2147483647 v = v := by
    rw [clampI, if_neg (by omega), if_neg (by omega)]
  simp [hold32, hclamp]

theorem hold32_above (h : 2147483647 < v) : hold32 v = (2147483647, true) := by
  have hclamp : clampI (-2147483648) 2147483647 v = 2147483647 := by
    rw [clampI, if_neg (by omega), if_pos h]
  simp [hold32, hclamp, h.ne]

theorem hold32_below (h : v < -2147483648) : hold32 v = (-2147483648, true) := by
  have hclamp : clampI (-2147483648) 2147483647 v = -2147483648 := by
    rw [clampI, if_pos h]
  simp [hold32, hclamp, h.ne']

/-- A value that the second level's limits do not hold stands as it is. -/
theorem hold40_of_not_held (h : (hold40 v).2 = false) : (hold40 v).1 = v := by
  simpa [hold40] using h

theorem l2Enter_length (l : List (Option Int)) (v : Int) : (l2Enter l v).1.length = l.length := by
  induction l generalizing v with
  | nil => rfl
  | cons x r ih =>
    cases x with
    | none => rfl
    | some w => exact congrArg (· + 1) (ih _)

/-- What enters a second level with a free place adds itself to the waiting sums: a sum on its way is merged with the
next one, and nothing of it is lost unless it is held. -/
theorem l2Enter_sum (hplace : none ∈ l) (hexact : (l2Enter l v).2 = false) :
    ((l2Enter l v).1.filterMap id).sum = (l.filterMap id).sum + v := by
  induction l generalizing v with
  | nil => cases hplace
  | cons x r ih =>
    cases x with
    | none => exact add_comm v _
    | some w =>
      obtain ⟨hhold, hrest⟩ : (hold40 (w + v)).2 = false ∧ (l2Enter r (hold40 (w + v)).1).2 = false :=
        Bool.or_eq_false_iff.mp hexact
      have hmerged := ih (by simpa using hplace) hrest
      calc ((l2Enter (some w :: r) v).1.filterMap id).sum
          = ((l2Enter r (hold40 (w + v)).1).1.filterMap id).sum := rfl
        _ = (r.filterMap id).sum + (w + v) := by rw [hmerged, hold40_of_not_held hhold]
        _ = ((some w :: r).filterMap id).sum + v := by
          rw [show (some w :: r).filterMap id = w :: r.filterMap id from rfl, List.sum_cons]
          omega

/-- The taps of the generator reach its top bit, so a step from an odd state leaves a state with that bit set. -/
theorem genStep_bounds (hpos : 0 < g) (hlt : g < 65536) : 0 < genStep g ∧ genStep g < 65536 := by
  unfold genStep
  split
  · have htap : (g / 2) ^^^ 0xB400 ≠ 0 := fun h => by
      have := Nat.xor_eq_zero_iff.mp h
      omega
    exact ⟨Nat.pos_of_ne_zero htap, Nat.xor_lt_two_pow (n := 16) (by omega) (by omega)⟩
  · omega

theorem roundSr_floor_or_next (x : Int) (sh gen : Nat) :
    roundSr x sh gen = x / ((2 ^ sh : Nat) : Int) ∨ roundSr x sh gen = x / ((2 ^ sh : Nat) : Int) + 1 := by
  by_cases hsh : sh = 0
  · simp [roundSr, hsh]
  · rw [roundSr, if_neg hsh]
    extract_lets q f u
    split
    · exact .inr rfl
    · exact .inl rfl

end

/-- Settles O14: the limits of `hold32`, `l2Enter_sum` by induction over the levels, and the generator's taps. -/
theorem sumsAreKeptAndMovedExactly : Obligations.sums_are_kept_and_moved_exactly := by
  unfold Obligations.sums_are_kept_and_moved_exactly
  refine ⟨fun _ => hold32_within, fun _ => hold32_above, fun _ => hold32_below, ?_, fun _ => genStep_bounds,
    fun x sh gen _ => roundSr_floor_or_next x sh gen⟩
  rintro l v hexact ⟨_, hplace, rfl⟩
  exact ⟨l2Enter_sum hplace hexact, l2Enter_length l v⟩

/-! ### Threads (R164, R168) -/

section
variable {s t u : State} {c : Nat} {th : Thr} {i : Instr}

@[simp] theorem State.thread_setThread (s : State) (c : Nat) (th : Thr) (x : Thread) :
    (s.setThread c th x).thread c th = x := by
  cases th <;> simp [State.thread, State.setThread]

theorem State.thread_congr (h : t.seqs = s.seqs) (c : Nat) (th : Thr) : t.thread c th = s.thread c th := by
  cases th <;> rw [State.thread, State.thread, State.seq, State.seq, h]

/-- Setting a thread changes the sequencers only. -/
theorem State.setThread_only_seqs (s : State) (c : Nat) (th : Thr) (x : Thread) :
    s.setThread c th x = { s with seqs := (s.setThread c th x).seqs } := by
  cases th <;> rfl

@[simp] theorem State.thread_stall (s : State) (c : Nat) (th : Thr) :
    (s.stall c th).thread c th = { s.thread c th with stalled := true } :=
  s.thread_setThread c th _

/-- The breakpoint of R187 stops a thread where it stands. -/
theorem State.checkBreak_position (s : State) (c : Nat) (th : Thr) :
    ((s.checkBreak c th).thread c th).pc = (s.thread c th).pc ∧
    ((s.checkBreak c th).thread c th).loops = (s.thread c th).loops := by
  unfold State.checkBreak
  extract_lets x k s1 s2
  split
  · have hlog (r : Ev) : (s2.log r).thread c th = s2.thread c th :=
      State.thread_congr ((State.log_chg s2 r).seqs.resolve_left (by decide)) c th
    rw [hlog, State.thread_setThread]
    exact ⟨rfl, rfl⟩
  · exact ⟨rfl, rfl⟩

/-- An instruction that leaves the sequencers moves its thread on from where the thread stood. -/
theorem State.next_moved (h : t.seqs = s.seqs) : Moved c th s (t.next c th) := by
  rw [Moved, ← State.thread_congr h]
  unfold State.next
  obtain ⟨hpc, hloops⟩ := State.checkBreak_position (t.setThread c th _) c th
  rw [hpc, hloops, State.thread_setThread]

theorem State.next_fab (s : State) (c : Nat) (th : Thr) : (s.next c th).fab = s.fab :=
  (State.next_chg s c th).fab.resolve_left (by decide)

/-- A command that acts on the fabric and then moves its thread on. -/
theorem Does.of_next (hexec : exec i s = .next (u.next c th)) (hseqs : u.seqs = s.seqs) :
    Does i s (fun t => Moved c th s t ∧ t.fab = u.fab) :=
  ⟨_, hexec, State.next_moved hseqs, State.next_fab u c th⟩

end

/-! ### ISSUE (R167) -/

section
variable {s : State} {c e tile fmt w : Nat} {th : Thr} {x : Thread} {st : Staged} {es : List Nat}

/-- The vector of a thread's entry waits in the engine's second staging buffer. -/
def Engine.holdsNext (g : Engine) (x : Thread) : Bool :=
  g.next.any fun v => v.lane == x.lane && v.item == x.item && v.index == x.index && !v.begun

theorem State.stageEngine_holdsNext (s : State) (c e tile : Nat) (x : Thread) (st : Staged) (fmt : Nat) :
    ((s.stageEngine c e tile x st fmt).engine c e).holdsNext x = true := by
  simp [State.stageEngine, Engine.holdsNext]

theorem State.stageEngine_others (s : State) (c e tile : Nat) (x : Thread) (st : Staged) (fmt : Nat) :
    SameBut (eng c e) s.engines (s.stageEngine c e tile x st fmt).engines :=
  State.setEngine_sameBut s c e _

/-- Every engine that a list names takes the vector; one that already holds it keeps it. -/
theorem State.foldl_stageEngine_holdsNext (h : e ∈ es ∨ (s.engine c e).holdsNext x = true) :
    ((es.foldl (fun s e => s.stageEngine c e tile x st fmt) s).engine c e).holdsNext x = true := by
  induction es generalizing s with
  | nil => exact h.resolve_left (List.not_mem_nil)
  | cons d es ih =>
    refine ih ?_
    by_cases hed : e = d
    · subst hed
      exact .inr (s.stageEngine_holdsNext c e tile x st fmt)
    · refine h.imp (fun hmem => (List.mem_cons.mp hmem).resolve_left hed) fun hholds => ?_
      have hkept := s.stageEngine_others c d tile x st fmt (eng c e) (by unfold eng; omega)
      have hsame : (s.stageEngine c d tile x st fmt).engine c e = s.engine c e := congrArg (·.getD .empty) hkept
      rw [hsame]
      exact hholds

/-- Past the staging an ISSUE touches no engine. -/
theorem State.runIssue_engines (s : State) (c : Nat) (th : Thr) (o : IssueOp) (es : List Nat) :
    (s.runIssue c th o es).engines = (es.foldl (fun u e => u.stageEngine c e (s.issueTile c o.first o.tile) (s.thread c th)
      (s.stageInput c (s.thread c th) o (s.operand c th o.as o.off)) o.fmt) s).engines := by
  unfold State.runIssue
  extract_lets x a st tile s1 nans s2 s3 y s4
  have hcount : s2.engines = s1.engines := (State.countN_chg ..).engines.resolve_left (by decide)
  have hlog : s3.engines = s2.engines := by
    unfold s3
    split
    · rfl
    · exact (State.logRate_chg ..).engines.resolve_left (by decide)
  have hthread : s4.engines = s3.engines := (State.setThread_chg ..).engines.resolve_left (by decide)
  have hnext : (s4.next c th).engines = s4.engines := (State.next_chg ..).engines.resolve_left (by decide)
  have hnote : ((s4.next c th).noteStaged c th).engines = (s4.next c th).engines :=
    (State.noteStaged_chg ..).engines.resolve_left (by decide)
  rw [hnote, hnext, hthread, hlog, hcount]

theorem mem_rangeFrom {a n k : Nat} : k ∈ rangeFrom a n ↔ a ≤ k ∧ k < a + n := by
  simp only [rangeFrom, List.mem_map, List.mem_range]
  constructor
  · rintro ⟨i, hi, rfl⟩
    omega
  · exact fun ⟨hle, hlt⟩ => ⟨k - a, by omega, by omega⟩

/-- The engines that an ISSUE names: of the stationary ones only those with a mapping entry. -/
def State.issueTargets (s : State) (c : Nat) (o : IssueOp) : List Nat :=
  (rangeFrom o.first (o.last + 1 - o.first)).filter fun e => decide (32 ≤ e) || (s.engine c e).map.isSome

variable (hfetch : s.fetchOp c th 0x05 = some w)
  (hres : s.resident c (s.operand c th (issueOp w).as (issueOp w).off) (s.issueBytes c (issueOp w)) = true)
include hfetch hres

theorem execIssue_runs (hfree : (s.issueTargets c (issueOp w)).all (fun e => (s.engine c e).next.isNone) = true) :
    exec (.issue c th) s = .next (s.runIssue c th (issueOp w) (s.issueTargets c (issueOp w))) := by
  have hnone : (s.issueTargets c (issueOp w)).any (fun e => (s.engine c e).next.isSome) = false := by
    simpa using hfree
  simp only [State.issueTargets] at hnone ⊢
  simp [exec, execIssue, hfetch, hres, hnone]

/-- A taken second staging buffer stalls the ISSUE. -/
theorem execIssue_stalls (he : e ∈ s.issueTargets c (issueOp w)) (htaken : (s.engine c e).next.isSome = true) :
    exec (.issue c th) s = .next (s.stall c th) := by
  have hany : (s.issueTargets c (issueOp w)).any (fun e => (s.engine c e).next.isSome) = true :=
    List.any_eq_true.mpr ⟨e, he, htaken⟩
  simp only [State.issueTargets] at hany
  simp only [exec, execIssue, hfetch, hres, hany, Bool.not_true, Bool.false_eq_true, if_false, if_true]

end

/-! ### DRAIN (R94, R96) -/

section
variable {s : State} {c w : Nat} {th : Thr}

/-- The tile that a DRAIN names: one by number, the one of the last ISSUE, or the one that this entry's ISSUE took. -/
def State.drainTile (s : State) (c : Nat) (th : Thr) (o : DrainOp) : Nat :=
  if o.tile = 1 then 0 else if o.tile = 2 then 1 else if o.tile = 3 then Tab.getD (s.core c).lastTile o.first 0
    else Tab.getD (s.thread c th).tiles o.first 0

/-- The request that a DRAIN makes of its tile. -/
def State.drainRequest (s : State) (c : Nat) (th : Thr) (o : DrainOp) : DrainReq :=
  ⟨o.desc, o.next, o.nextZero, o.group, s.operand c th o.ad o.off, o.first, o.last, s.inFlight c (s.drainTile c th o),
    (s.thread c th).lane, (s.thread c th).item, (s.thread c th).index, threadNum th⟩

/-- DRAIN: a tile without a request takes this one, and the thread waits for the sweep. -/
theorem execDrain_requests (hfetch : s.fetchOp c th 0x06 = some w)
    (hnone : (s.tile c (s.drainTile c th (drainOp w))).drain = none) (hdrain : (s.thread c th).draining = false) :
    Does (.drain c th) s (fun t => t.thread c th = { s.thread c th with draining := true, stalled := true } ∧
      (t.tile c (s.drainTile c th (drainOp w))).drain = some (s.drainRequest c th (drainOp w))) := by
  let s1 := s.setTile c (s.drainTile c th (drainOp w))
    { s.tile c (s.drainTile c th (drainOp w)) with drain := some (s.drainRequest c th (drainOp w)) }
  let s2 := if s.inFlight c (s.drainTile c th (drainOp w)) then s1.count C.CORE_EPI_CNT_DRAINWAIT c else s1
  let s3 := s2.setThread c th { s.thread c th with draining := true }
  have htiles : (s3.stall c th).tiles = s1.tiles := by
    rw [(State.stall_chg s3 c th).tiles.resolve_left (by decide), (State.setThread_chg ..).tiles.resolve_left (by decide)]
    unfold s2
    split
    · exact (State.count_chg ..).tiles.resolve_left (by decide)
    · rfl
  refine ⟨s3.stall c th, ?_, ?_, ?_⟩
  · have hgo : ¬((s.thread c th).draining || (s.tile c (s.drainTile c th (drainOp w))).drain.isSome) = true := by
      simp [hdrain, hnone]
    change execDrain c th s = _
    rw [execDrain, hfetch]
    exact if_neg hgo
  · rw [State.thread_stall, State.thread_setThread]
  · rw [State.tile_congr htiles, State.tile_setTile]

end

/-! ### SEND and SEND_EMIT (R136, R169) -/

section
variable {s t : State} {c w : Nat} {th : Thr} {m : Model} {r n : StageRec} {o : SendOp}

theorem length_of_append {α : Type} {a b : List α} {x : α} (h : b = a ++ [x]) : b.length = a.length + 1 := by
  rw [h, List.length_append, List.length_singleton]

theorem getLast?_map_of_append {α β : Type} {a b : List α} {x : α} {f : α → β} {y : β} (h : b = a ++ [x])
    (hx : f x = y) : b.getLast?.map f = some y := by
  rw [h, List.getLast?_concat, Option.map_some, hx]

theorem State.stageOf_congr (hplace : (t.core c).place = (s.core c).place) (hmodels : t.models = s.models) :
    t.stageOf c = s.stageOf c := by
  simp only [State.stageOf, State.model, hplace, hmodels]

/-- A part goes to the exit core of the stage, and its sender keeps it until its receipt. -/
theorem State.sendPart_held (hstage : s.stageOf c = some (m, r)) (pc : Nat) :
    ∃ p : Packet, (s.sendPart c th o pc).fab.held = s.fab.held ++ [p] ∧ (p.typ, p.src, p.dst, p.payload) =
      (PktType.exitPart, c, r.exit, s.sramRead c (s.operand c th o.as o.off) (o.len * 64)) := by
  simp only [State.sendPart, hstage]
  exact ⟨_, rfl, rfl⟩

/-- A stage's output packet goes to the Canopy node where the SEND names the next device, and otherwise to the next stage's
entry core. -/
theorem State.emitOutput_posts (hstage : s.stageOf c = some (m, r)) : ∃ u : State, u.fab = s.fab ∧
    (o.dest = 3 → ∃ p : Packet, s.emitOutput c th o = u.toPeer p ∧
      (p.typ, p.src, p.dev, p.dstStage) = (PktType.vector, c, r.nextDevice, r.nextStage)) ∧
    (o.dest ≠ 3 → ∀ n, m.nextOn r = some n → ∃ p : Packet, s.emitOutput c th o = u.postHeld p ∧
      (p.typ, p.src, p.dst, p.dstStage) = (PktType.vector, c, n.entry, n.stage)) := by
  unfold State.emitOutput
  extract_lets x a k mine s1 s2
  have hsram : Chg 0x20000 s s1 := Chg.foldl (fun t p ht => by
    split
    · exact ht
    · exact (State.sramBits_chg ..).step rfl ht) (.refl ..)
  have hplace : (s2.core c).place = (s.core c).place := by rw [State.core_setCore]
  have hmodels : s2.models = s.models := hsram.models.resolve_left (by decide)
  rw [State.stageOf_congr hplace hmodels, hstage]
  refine ⟨s2, hsram.fab.resolve_left (by decide), fun hdest => ⟨_, if_pos hdest, rfl⟩, fun hdest n hnext => ?_⟩
  simp only [if_neg hdest, hnext]
  exact ⟨_, rfl, rfl⟩

/-- To a next stage on this device the output packet is posted and kept. -/
theorem State.emitOutput_to_next (hstage : s.stageOf c = some (m, r)) (hdest : o.dest ≠ 3) (hnext : m.nextOn r = some n) :
    ∃ p : Packet, (s.emitOutput c th o).fab.held = s.fab.held ++ [p] ∧
      (p.typ, p.src, p.dst, p.dstStage) = (PktType.vector, c, n.entry, n.stage) := by
  obtain ⟨u, hfab, -, hpost⟩ := State.emitOutput_posts (th := th) (o := o) hstage
  obtain ⟨p, hemit, hp⟩ := hpost hdest n hnext
  rw [hemit, ← hfab]
  exact ⟨_, rfl, hp⟩

/-- To another device the output packet is given to the Canopy node and kept. -/
theorem State.emitOutput_to_peer (hstage : s.stageOf c = some (m, r)) (hdest : o.dest = 3) :
    ∃ p : Packet, (s.emitOutput c th o).fab.canopy = s.fab.canopy ++ [p] ∧
      (s.emitOutput c th o).fab.held = s.fab.held ++ [p] ∧
      (p.typ, p.src, p.dev, p.dstStage) = (PktType.vector, c, r.nextDevice, r.nextStage) := by
  obtain ⟨u, hfab, hpeer, -⟩ := State.emitOutput_posts (th := th) (o := o) hstage
  obtain ⟨p, hemit, hp⟩ := hpeer hdest
  have htyp : p.typ = .vector := congrArg Prod.fst hp
  have hkept : p.typ.kept = true := by rw [htyp]; rfl
  rw [hemit, ← hfab]
  exact ⟨_, rfl, if_pos hkept, hp⟩

theorem State.sendPart_seqs (s : State) (c : Nat) (th : Thr) (o : SendOp) (pc : Nat) :
    (s.sendPart c th o pc).seqs = s.seqs :=
  (State.sendPart_chg ..).seqs.resolve_left (by decide)

theorem State.emitOutput_seqs (s : State) (c : Nat) (th : Thr) (o : SendOp) : (s.emitOutput c th o).seqs = s.seqs :=
  (State.emitOutput_chg ..).seqs.resolve_left (by decide)

variable (hfetch : s.fetchOp c th 0x07 = some w)
include hfetch

theorem execSendEmit_emits (hdest : (sendOp w).dest ≠ 1) (hstalled : (s.thread c th).stalled = true)
    (hparts : s.partsReady c (s.thread c th) = true) :
    exec (.sendEmit c th) s = .next ((s.emitOutput c th (sendOp w)).next c th) := by
  simp [exec, execSendEmit, hfetch, hdest, hstalled, hparts]

variable (hres : s.resident c (s.operand c th (sendOp w).as (sendOp w).off) ((sendOp w).len * 64) = true)
include hres

theorem execSend_part (hdest : (sendOp w).dest = 1) :
    exec (.send c th) s = .next ((s.sendPart c th (sendOp w) (s.thread c th).pc).next c th) := by
  simp [exec, execSend, hfetch, hres, hdest]

theorem execSend_emits (hdest : (sendOp w).dest ≠ 1) (hparts : s.partsReady c (s.thread c th) = true) :
    exec (.send c th) s = .next ((s.emitOutput c th (sendOp w)).next c th) := by
  simp [exec, execSend, hfetch, hres, hdest, hparts]

end

/-- Settles O23: an ISSUE runs into each of its engines or stalls, a DRAIN leaves its request, and a SEND ends in the
packet that `State.sendPart` or `State.emitOutput` posts. -/
theorem issuesDrainsAndSends : Obligations.issues_drains_and_sends := by
  unfold Obligations.issues_drains_and_sends
  refine ⟨?_, ?_, ?_, ?_, ?_, ?_⟩
  · rintro s c w th es hfetch hres rfl hfree
    refine ⟨_, execIssue_runs hfetch hres hfree, List.all_eq_true.mpr fun e he => ?_⟩
    rw [State.engine_congr (s.runIssue_engines c th (issueOp w) _)]
    exact State.foldl_stageEngine_holdsNext (.inl he)
  · intro s c w th hfetch hres htaken hfirst hlast
    have hnamed : 33 ∈ s.issueTargets c (issueOp w) :=
      List.mem_filter.mpr ⟨mem_rangeFrom.mpr (by omega), rfl⟩
    refine ⟨_, execIssue_stalls hfetch hres hnamed htaken, ?_, ?_, s.setThread_only_seqs c th _⟩
    all_goals rw [State.thread_stall]
  · rintro s c w k th hfetch rfl hnone hdrain
    obtain ⟨t, hexec, hthread, htile⟩ := execDrain_requests hfetch hnone hdrain
    exact ⟨t, hexec, by rw [hthread], by rw [hthread], by rw [hthread], congrArg (Option.map _) htile⟩
  · intro s c w th m r hfetch hres hdest hstage
    obtain ⟨p, hheld, hp⟩ := State.sendPart_held (th := th) (o := sendOp w) hstage (s.thread c th).pc
    obtain ⟨t, hexec, hmoved, hfab⟩ := Does.of_next (execSend_part hfetch hres hdest) (s.sendPart_seqs ..)
    rw [← hfab] at hheld
    exact ⟨t, hexec, hmoved, getLast?_map_of_append hheld hp, length_of_append hheld⟩
  · intro s c w th m r n hfetch hres hdest hpeer hparts hstage hnext
    obtain ⟨p, hheld, hp⟩ := State.emitOutput_to_next (th := th) hstage hpeer hnext
    obtain ⟨t, hexec, hmoved, hfab⟩ := Does.of_next (execSend_emits hfetch hres hdest hparts) (s.emitOutput_seqs ..)
    rw [← hfab] at hheld
    exact ⟨t, hexec, hmoved, getLast?_map_of_append hheld hp, length_of_append hheld⟩
  · intro s c w th m r hfetch hdest hstalled hparts hstage
    obtain ⟨p, hcanopy, hheld, hp⟩ := State.emitOutput_to_peer (th := th) hstage hdest
    obtain ⟨t, hexec, hmoved, hfab⟩ :=
      Does.of_next (execSendEmit_emits hfetch (by omega) hstalled hparts) (s.emitOutput_seqs ..)
    rw [← hfab] at hcanopy hheld
    exact ⟨t, hexec, hmoved, getLast?_map_of_append hcanopy hp, length_of_append hheld⟩

end Sys2Proof.Machine

/-! SUPPORT. What thermal control leaves behind (R415, R427, R428, R432), a free core that loses its clock (R350, R422), and
the statement about them. -/

namespace Sys2Proof.Machine

/-! ### Thermal control (R415, R427, R428, R432) -/

section
variable {s t : State} {c k : Nat} {f : Fld} {i : Nat}

/-- A record of the log changes the fields, the events, what goes out and the management state only. -/
theorem State.log_only (s : State) (e : Ev) : s.log e = { s with
    fields := (s.log e).fields, events := (s.log e).events, out := (s.log e).out, mgmt := (s.log e).mgmt } := by
  unfold State.log State.notifyHost State.count State.countAt
  dsimp only
  split_ifs <;> rfl

/-- Level 3 is lifted: the array clock is nominal and no lane is suspended for temperature. -/
def State.liftThree (s : State) : State :=
  (List.range 64).foldl (fun s l => s.unsuspend l 1)
    (({ s with power := { s.power with slow := false, suspended := [] } } : State).fset F.GLB_CLK_STATUS_GUARD 0 0)

theorem State.withdraw_three (s : State) : s.withdraw 3 = (s.liftThree.levelChange 2).frozen := rfl

/-- Only the lanes' suspension, with its records, changes besides the clock and the list of lanes. -/
theorem State.liftThree_chg (s : State) :
    Chg 0x10020000400908
      (({ s with power := { s.power with slow := false, suspended := [] } } : State).fset F.GLB_CLK_STATUS_GUARD 0 0)
      s.liftThree :=
  Chg.foldl (fun t l ht => (t.unsuspend_chg l 1).step (Sub.refl _) ht) (Chg.refl _ _)

/-- A field of the thermal block but GUARD of the array clock outlives the lift. -/
theorem State.liftThree_fget (hblk : regBlk (f.code / 32) = 2) (hne : f.code ≠ F.GLB_CLK_STATUS_GUARD.code) :
    s.liftThree.fget f i = s.fget f i := by
  rw [s.liftThree_chg.fget (by rw [hblk]; decide), State.fget_fset_of_code_ne _ hne]
  rfl

theorem State.levelChange_two (s : State) :
    s.levelChange 2 = ((s.fset F.GLB_THM_STATUS_LEVEL 0 2).log { code := 0x0101, argA := 2 }).count C.GLB_THM_CNT_L2 0 := rfl

theorem State.levelChange_two_level (s : State) : (s.levelChange 2).fget F.GLB_THM_STATUS_LEVEL 0 = 2 := by
  rw [State.levelChange_two, State.count_fget _ _ _ _ _ (by decide), State.log_fget _ _ _ _ (by decide),
    State.fget_fset_self]
  rfl

/-- A fall to level 2 counts in the counter of that level (log entry 81). -/
theorem State.levelChange_two_counted (s : State) : Counted C.GLB_THM_CNT_L2 0 1 s (s.levelChange 2) := by
  let u := (s.fset F.GLB_THM_STATUS_LEVEL 0 2).log { code := 0x0101, argA := 2 }
  have hkeep (f : Fld) (hlog : logFlds.all (fun g => f.code != g.code) = true)
      (hne : f.code ≠ F.GLB_THM_STATUS_LEVEL.code) : u.fget f 0 = s.fget f 0 :=
    (State.log_fget _ _ _ _ hlog).trans (State.fget_fset_of_code_ne s hne)
  have hcount : u.fget C.GLB_THM_CNT_L2.cnt 0 = s.fget C.GLB_THM_CNT_L2.cnt 0 := hkeep _ (by decide) (by decide)
  have hfrozen : u.fon C.GLB_THM_CNT_L2.frz 0 = s.fon C.GLB_THM_CNT_L2.frz 0 :=
    congrArg (· != 0) (hkeep _ (by decide) (by decide))
  rw [Counted, State.levelChange_two, State.count_fget_self, hcount, hfrozen]

theorem execThermalWithdraw_of_may (h : s.mayWithdraw k = true) :
    exec (.thermalWithdraw k) s = .next (s.withdraw k) := by
  simp [exec, execThermalWithdraw, h]

theorem execThermalWithdraw_not_in_force (h : s.fget F.GLB_THM_STATUS_LEVEL 0 ≠ k) :
    exec (.thermalWithdraw k) s = .next s := by
  have hlevel : (s.fget F.GLB_THM_STATUS_LEVEL 0 == k) = false := beq_eq_false_iff_ne.mpr h
  have hmay : s.mayWithdraw k = false := by simp [State.mayWithdraw, hlevel]
  simp [exec, execThermalWithdraw, hmay]

/-- What lasts of a withdrawal of level 3: level 2, the nominal clock, admission still frozen, and no lane suspended. -/
theorem State.withdraw_three_leaves (s : State) :
    (s.withdraw 3).fget F.GLB_THM_STATUS_LEVEL 0 = 2 ∧
    (s.withdraw 3).power = { s.power with slow := false, suspended := [] } ∧
    (s.withdraw 3).fget F.GLB_CLK_STATUS_GUARD 0 = 0 ∧
    (s.withdraw 3).fget F.ADM_STATUS_FROZEN 0 = 1 ∧
    Counted C.GLB_THM_CNT_L2 0 1 s (s.withdraw 3) := by
  have hlevel := s.liftThree.levelChange_two_level
  have hfrozen {f : Fld} (h : f.code ≠ F.ADM_STATUS_FROZEN.code) (i : Nat) :
      (s.withdraw 3).fget f i = (s.liftThree.levelChange 2).fget f i := by
    rw [State.withdraw_three, State.frozen, State.fget_fset_of_code_ne _ h]
  refine ⟨?_, ?_, ?_, ?_, ?_⟩
  · rw [hfrozen (by decide), hlevel]
  · rw [State.withdraw_three, (State.frozen_chg _).power.resolve_left (by decide),
      (State.levelChange_chg _ 2).power.resolve_left (by decide), s.liftThree_chg.power.resolve_left (by decide)]
    rfl
  · have hsame : (s.liftThree.levelChange 2).fget F.GLB_CLK_STATUS_GUARD 0 = s.liftThree.fget F.GLB_CLK_STATUS_GUARD 0 := by
      rw [State.levelChange_two, State.count_fget _ _ _ _ _ (by decide), State.log_fget _ _ _ _ (by decide),
        State.fget_fset_of_code_ne _ (by decide)]
    rw [hfrozen (by decide), hsame, s.liftThree_chg.fget (by decide), State.fget_fset_self]
    rfl
  · rw [State.withdraw_three, State.frozen, State.fget_fset_self, hlevel]
    rfl
  · rw [Counted, hfrozen (by decide), s.liftThree.levelChange_two_counted, State.fon, State.fon,
      State.liftThree_fget rfl (by decide), State.liftThree_fget rfl (by decide)]

/-! ### The guardband and module power (R415, R428) -/

theorem State.calRises_chg (s : State) (c : Nat) (es : List Nat) :
    Chg 0x800000000008 s (es.foldl (fun s e => s.calRise c e) s) :=
  Chg.foldl (fun t e ht => (t.calRise_chg c e).step (Sub.refl _) ht) (Chg.refl _ _)

/-- GUARD_END of a core that has been cool for long enough takes it from the list, and what follows touches neither
the supplies nor GUARD_ANY. -/
theorem execGuardEnd_ends (hc : c ∈ s.power.guard) (hcool : heldFor100 s.power.cool c s.ns = true)
    (hdroop : s.fget F.RST_STATUS_DROOP_LIMIT c = 0) :
    Does (.guardEnd c) s (fun t => t.power = { s.power with guard := s.power.guard.filter (fun x => x != c) } ∧
      t.fget F.GLB_THM_STATUS_GUARD_ANY 0 = ofBool (!(s.power.guard.filter (fun x => x != c)).isEmpty)) := by
  let g := s.power.guard.filter (fun x => x != c)
  let u := ({ s with power := { s.power with guard := g } } : State).fset F.GLB_THM_STATUS_GUARD_ANY 0 (ofBool (!g.isEmpty))
  let v := u.log { code := 0x0102, core := c }
  have hrise := v.calRises_chg c (List.range 36)
  refine ⟨(List.range 36).foldl (fun s e => s.calRise c e) v, ?_, ?_, ?_⟩
  · simp [exec, execGuardEnd, hc, hcool, State.fon, hdroop, v, u, g]
  · exact (hrise.power.resolve_left (by decide)).trans ((u.log_chg _).power.resolve_left (by decide))
  · rw [hrise.fget (by decide), State.log_fget _ _ _ _ (by decide), State.fget_fset_self]
    cases g.isEmpty <;> rfl

/-- What freezes admission: level 2 or 3, module power, or an orderly stop (R415, R426, R430). -/
theorem State.frozen_fget (s : State) : s.frozen.fget F.ADM_STATUS_FROZEN 0 =
    if 2 ≤ s.fget F.GLB_THM_STATUS_LEVEL 0 ∨ s.power.overpower = true ∨ s.fget F.GLB_THM_STATUS_STOPPING 0 ≠ 0 then 1
    else 0 := by
  rw [State.frozen, State.fget_fset_self, ofBool, apply_ite (· % 2 ^ F.ADM_STATUS_FROZEN.width)]
  exact if_congr (by simp [State.fon, or_assoc]) rfl rfl

theorem execOverpowerClear_lifts (hover : s.power.overpower = true) (hcool : s.power.coolPower ≠ 0)
    (hlong : s.power.coolPower + 1000000000 ≤ s.ns + 1) :
    exec .overpowerClear s = .next ({ s with power := { s.power with overpower := false } } : State).frozen := by
  have hshort : ¬ s.ns + 1 < s.power.coolPower + 1000000000 := by omega
  simp [exec, execOverpowerClear, hover, hcool, hshort]

/-! ### GLB_THM_COMMIT (R432) -/

/-- The limits that GLB_THM_COMMIT applies. -/
def thermalLimits : List (Fld × Nat) := [(F.GLB_THM_RISE_RISE1, 0), (F.GLB_THM_RISE_RISE2, 0), (F.GLB_THM_RISE_RISE3, 0),
  (F.GLB_THM_ABS_GUARD_C, 0), (F.GLB_THM_ABS_STOP_C, 0), (F.GLB_THM_MISC_DRAM_STOP, 0), (F.GLB_THM_MISC_DRAIN, 0)]

/-- Whether the staged limits agree with each other (R432). -/
def State.limitsAgree (s : State) : Prop :=
  0 < s.staging F.GLB_THM_RISE_RISE1 0 ∧ s.staging F.GLB_THM_RISE_RISE1 0 < s.staging F.GLB_THM_RISE_RISE2 0 ∧
  s.staging F.GLB_THM_RISE_RISE2 0 < s.staging F.GLB_THM_RISE_RISE3 0 ∧
  s.staging F.GLB_THM_ABS_GUARD_C 0 < s.staging F.GLB_THM_ABS_STOP_C 0 ∧
  s.staging F.GLB_THM_ABS_STOP_C 0 ≤ 1840 ∧ s.staging F.GLB_THM_MISC_DRAM_STOP 0 ≤ 1600 ∧
  s.staging F.GLB_THM_MISC_DRAIN 0 ≤ 100

theorem execGlbThmCommit_applies (h : s.limitsAgree) : exec .glbThmCommit s = .next (s.applyAll thermalLimits) := by
  obtain ⟨h1, h2, h3, h4, h5, h6, h7⟩ := h
  simp [exec, execGlbThmCommit, h1, h2, h3, h4, h5, h6, h7, thermalLimits]

theorem execGlbThmCommit_refuses (h : ¬ s.limitsAgree) :
    exec .glbThmCommit s = .next ((s.flag F.GLB_THM_STATUS_CFG_INVALID 0).log { code := 0x0109 }) := by
  simp only [State.limitsAgree, ← and_assoc] at h
  simp [exec, execGlbThmCommit, h]

/-- Limits that agree with each other fit into their fields. -/
theorem State.limitsAgree_fit (h : s.limitsAgree) (hrise : s.staging F.GLB_THM_RISE_RISE3 0 < 256) :
    ∀ p ∈ thermalLimits, s.staging p.1 p.2 < 2 ^ p.1.width := by
  obtain ⟨-, h1, h2, h3, h4, h5, h6⟩ := h
  simp only [thermalLimits, List.forall_mem_cons]
  exact ⟨(by omega : _ < 256), (by omega : _ < 256), (by omega : _ < 256), (by omega : _ < 4096),
    (by omega : _ < 4096), (by omega : _ < 4096), (by omega : _ < 128), by simp⟩

/-- The commit puts every staged limit into force. -/
theorem State.applyAll_thermalLimits_fget (h : s.limitsAgree) (hrise : s.staging F.GLB_THM_RISE_RISE3 0 < 256) {f : Fld}
    (hf : (f, 0) ∈ thermalLimits) : (s.applyAll thermalLimits).fget f 0 = s.staging f 0 := by
  rw [State.applyAll_fget (by decide) hf, Nat.mod_eq_of_lt (s.limitsAgree_fit h hrise _ hf)]

/-! ### A core that loses its clock (R350, R422) -/

theorem State.seat_mem_freeCores {taken : List Nat} (h : s.seat k taken = some c) : c ∈ s.freeCores := by
  unfold State.seat at h
  split at h
  · split at h
    · next hfree =>
      cases h
      exact List.contains_iff_mem.mp hfree
    · cases h
  · exact List.mem_of_find?_eq_some h

theorem State.freeCores_not_retired (h : c ∈ s.freeCores) : s.fget F.CORE_STATUS_STATE c ≠ 4 := by
  unfold State.freeCores at h
  split at h
  · cases h
  · intro hstate
    simp [hstate] at h

theorem lookCore_code_ne (k : Nat) : F.CORE_STATUS_STATE.code ≠ (lookCore k).code := by
  unfold lookCore
  split <;> decide

theorem lookState_code_ne (k : Nat) : F.CORE_STATUS_STATE.code ≠ (lookState k).code := by
  unfold lookState
  split <;> decide

/-- The Lookout role given to one core leaves the state of every other. -/
theorem State.makeLookout_state_ne {d : Nat} (h : c ≠ d) :
    (s.makeLookout k d).fget F.CORE_STATUS_STATE c = s.fget F.CORE_STATUS_STATE c := by
  unfold State.makeLookout
  rw [State.fget_fset_of_code_ne _ (by decide)]
  show (((((s.fset (lookCore k) 0 d).fset (lookState k) 0 3).fset F.CORE_ROLE_ROLE d 2).fset F.CORE_STATUS_STATE d 1)).fget
    F.CORE_STATUS_STATE c = _
  rw [State.fget_fset_ne _ _ (Or.inr h), State.fget_fset_of_code_ne _ (by decide),
    State.fget_fset_of_code_ne _ (lookState_code_ne k), State.fget_fset_of_code_ne _ (lookCore_code_ne k)]

/-- A retired core is never given the Lookout role. -/
theorem State.designate_retired (h : s.fget F.CORE_STATUS_STATE c = 4) :
    s.designate.fget F.CORE_STATUS_STATE c = 4 := by
  unfold State.designate
  refine List.foldlRecOn (motive := fun u : State => u.fget F.CORE_STATUS_STATE c = 4) _ _ h fun u hu k _ => ?_
  split
  · exact hu
  · split
    · exact hu
    · next d hd =>
      split
      · exact hu
      · have hne : c ≠ d := by
          rintro rfl
          exact State.freeCores_not_retired (State.seat_mem_freeCores hd) hu
        rw [State.makeLookout_state_ne hne, hu]

/-- A Lookout that is lost, and the cores that take its role, leave a retired core as it is. -/
theorem State.loseLookout_retired (h : s.fget F.CORE_STATUS_STATE c = 4) :
    (s.loseLookout k).fget F.CORE_STATUS_STATE c = 4 := by
  unfold State.loseLookout
  refine State.designate_retired ?_
  rw [(State.unshieldLanes_chg _).fget (by decide), (State.fault_chg ..).fget (by decide),
    (State.log_chg ..).fget (by decide)]
  show ((s.fset (lookState k) 0 0).fset F.REL_STATUS_LOOKOUTS 0 _).fget F.CORE_STATUS_STATE c = 4
  rw [State.fget_fset_of_code_ne _ (by decide), State.fget_fset_of_code_ne _ (lookState_code_ne k), h]

theorem State.removeCore_retires (s : State) (c : Nat) : (s.removeCore c).fget F.CORE_STATUS_STATE c = 4 := by
  have hgone : ((s.fset F.CORE_STATUS_STATE c 4).fset F.CORE_ROLE_ROLE c 3).fget F.CORE_STATUS_STATE c = 4 := by
    rw [State.fget_fset_of_code_ne _ (by decide), State.fget_fset_self]
    rfl
  unfold State.removeCore
  extract_lets wasLook s' s''
  cases wasLook with
  | none => exact hgone
  | some k => exact State.loseLookout_retired (((State.beginZero_chg ..).fget (by decide)).trans hgone)

theorem State.core_congr (h : t.cores = s.cores) (c : Nat) : t.core c = s.core c := by
  rw [State.core, State.core, h]

/-- A core that serves no stage and fails is retired and leaves the pool (R25, R350). -/
theorem execCoreFailed_free {fatal : Bool} (hc : c < 32) (hfail : s.failing c fatal = true) (hstage : s.stageOf c = none)
    (hstate : s.fget F.CORE_STATUS_STATE c ≠ 4) :
    execCoreFailed c fatal s = .next ((s.retireUnit (unitCore c) 0x07).removeCore c) := by
  have hin : ¬ 32 ≤ c := by omega
  unfold execCoreFailed
  rw [if_neg (by simp [hin, hfail]), hstage]
  split <;> simp_all

theorem execClockLoss_core (hpower : s.power.slotPower = true) :
    exec (.clockLoss (.core c)) s = .next ((s.clockEvent c 255).coreDead c) := by
  simp [exec, execClockLoss, hpower]

theorem execFieldWatchdog_next (s : State) : execFieldWatchdog s = .next (s.run execFieldWatchdog) := by
  unfold State.run execFieldWatchdog
  split <;> rfl

end

/-- Settles O52: what a withdrawal of level 3 leaves (`State.withdraw_three_leaves`), the end of a guardband and of the
freeze, the commit of limits that agree, and the loss of a free core's clock. -/
theorem thermalControlActs : Obligations.thermal_control_acts := by
  unfold Obligations.thermal_control_acts
  refine ⟨?_, ?_, ?_, ?_, ?_, ?_, ?_, ?_⟩
  · intro s hlevel hstop hguard hheld
    have hmay : s.mayWithdraw 3 = true := by simp [State.mayWithdraw, State.fon, hlevel, hstop, hguard, hheld]
    obtain ⟨hlower, hpower, hclock, hfrozen, hcounted⟩ := s.withdraw_three_leaves
    exact ⟨_, execThermalWithdraw_of_may hmay, hlower, by rw [hpower], hclock, hfrozen, by rw [hpower], hcounted⟩
  · intro s k hlevel
    exact ⟨s, execThermalWithdraw_not_in_force hlevel, rfl⟩
  · intro s c hc hcool hdroop
    obtain ⟨t, hexec, hpower, hany⟩ := execGuardEnd_ends hc hcool hdroop
    refine ⟨t, hexec, hpower, hany.trans ?_⟩
    cases s.power.guard.filter (fun x => x != c) <;> rfl
  · intro s hover hcool hlong
    refine ⟨_, execOverpowerClear_lifts hover hcool hlong, rfl, ?_⟩
    rw [State.frozen_fget]
    exact if_congr (or_congr_right (or_iff_right Bool.false_ne_true)) rfl rfl
  · intro s r1 r2 r3 g st d dr hrise habs hmisc hr hlim
    obtain ⟨rfl, rfl, rfl⟩ := hrise
    obtain ⟨rfl, rfl⟩ := habs
    obtain ⟨rfl, rfl⟩ := hmisc
    obtain ⟨h1, h2, h3, hmax⟩ := hr
    obtain ⟨h4, h5, h6, h7⟩ := hlim
    have hagree : s.limitsAgree := ⟨h1, h2, h3, h4, h5, h6, h7⟩
    refine ⟨_, execGlbThmCommit_applies hagree, ?_, ?_, ?_, ?_, ?_, ?_, ?_, (s.applyAll_onlyFields thermalLimits).1⟩
    all_goals exact State.applyAll_thermalLimits_fget hagree hmax (by simp [thermalLimits])
  · intro s hbad
    have hdisagree : ¬ s.limitsAgree := by
      rintro ⟨h1, h2, h3, h4, h5, h6, h7⟩
      omega
    refine ⟨_, execGlbThmCommit_refuses hdisagree, State.flag_log_fget _ _ _ _ rfl (by decide), State.log_only _ _, ?_, ?_⟩
    all_goals exact State.flag_log_fget_ne _ _ _ (by decide) (by decide)
  · intro s c hc hpower hstage hstate hfail _
    let u := s.clockEvent c 255
    have hlog : Chg 0x20000400908 s u := s.log_chg _
    have hstage' : u.stageOf c = none := by
      rw [State.stageOf_congr (congrArg CoreSt.place (State.core_congr (hlog.cores.resolve_left (by decide)) c))
        (hlog.models.resolve_left (by decide)), hstage]
    have hstate' : u.fget F.CORE_STATUS_STATE c ≠ 4 := by rwa [hlog.fget (by decide)]
    refine ⟨_, execClockLoss_core hpower, ?_⟩
    rw [State.coreDead, execCoreFailed_free hc (by simp [State.failing]) hstage' hstate']
    exact State.removeCore_retires _ c
  · intro s
    exact ⟨_, execFieldWatchdog_next s, execFieldWatchdog_next s⟩

end Sys2Proof.Machine

/-! SUPPORT. States in which a command of the restorer, of calibration or of the loader does not do what a statement says
of it (R117, R127, R186, R250), and the refutations of those statements. -/

namespace Sys2Proof.Machine

/-- Whether an outcome is a next state of which `p` holds. -/
def Res.nextIs (r : Res) (p : State → Bool) : Bool :=
  match r with
  | .next t => p t
  | .fault _ => false
  | .refused _ => false

/-- What a statement of a command says of its next state holds of the state that the command answers. -/
theorem Does.nextIs {c : Instr} {s : State} {P : State → Prop} {p : State → Bool} (h : Does c s P)
    (hp : ∀ t, P t → p t = true) : Res.nextIs (exec c s) p = true := by
  obtain ⟨t, hexec, ht⟩ := h
  rw [hexec]
  exact hp t ht

/-! ### A core that is zeroed while a switch waits for one (R108, R127) -/

/-- A stage of one core, which core 5 serves. -/
def movingStage : StageRec := ⟨0, 1, 1, 1, 0, 0, 8, true, false, 4, 4, 0, 0, 0, 4, 4, 1, 0, 0, [5], 0, [], 5⟩

/-- A model whose stage migrates from core 5 to a target that was given up, which 255 says. -/
def movingModel : Model := ⟨0, 1, 5, 0, .loaded, [movingStage], [], [], [], [], [], [], none,
  some ⟨0, [255], [5], false, false, []⟩, false, [], false, [], [], none, 0, 0, none, false, [], 0, none⟩

/-- Lookouts stand on cores 30 and 31, core 5 serves the migrating stage, and core 0 is written to level 0. -/
def zeroingTarget : State :=
  (((((({ State.reset with
    models := [movingModel]
    cores := [(5, { CoreSt.empty with place := some ⟨0, 1, 0, 0⟩ })]
    rst := [(0, { Restorer.empty with zeroing := true })] } : State).fset F.CORE_ROLE_ROLE 5 1).fset
      F.REL_LOOKOUT_CORE0 0 30).fset F.REL_LOOKOUT_STATE0 0 3).fset F.REL_LOOKOUT_CORE1 0 31).fset
      F.REL_LOOKOUT_STATE1 0 3)

theorem cellZeroDone_zeroingTarget :
    Res.nextIs (exec (.cellZeroDone 0) zeroingTarget) (fun t => (t.core 0).place.isNone) = false := by
  decide +kernel

/-- Refutes O16: CELL_ZERO_DONE frees the core, and where a switch gave up a target and waits for a core that is available
(R127), the core that was just written to level 0 (R108) becomes its new target at once and holds a place again. -/
theorem not_sweepsAndBulkLoads : ¬ Obligations.sweeps_and_bulk_loads := by
  unfold Obligations.sweeps_and_bulk_loads
  rintro ⟨-, -, -, -, -, hzero⟩
  have hplace := (hzero zeroingTarget 0 (by decide) rfl).nextIs (p := fun t => (t.core 0).place.isNone)
    fun t ⟨_, hnone, _⟩ => by rw [hnone]; rfl
  exact Bool.false_ne_true (cellZeroDone_zeroingTarget.symm.trans hplace)

/-! ### A calibration setting that has run its sixteen cycles (R117) -/

/-- A setting that is not due counts no further cycle. -/
theorem execCalibrationCycle_full {s : State} {c e seg k : Nat} {setting : CalSetting} {split : Bool}
    (hk : calIndex setting = some k)
    (hfull : 16 ≤ Tab.getD (s.engine c e).calCycles (seg * 16 + k * 2 + ofBool split) 0) :
    exec (.calibrationCycle c e seg setting split) s = .next s := by
  have hdue : settingDue setting (Tab.getD (s.engine c e).calCycles (seg * 16 + k * 2 + ofBool split) 0) = false := by
    simp [settingDue, hfull]
  simp [exec, execCalibrationCycle, hk, hdue]

/-- Engine 0 of core 0 is in service, and its pass has run the 16 cycles of injection 64 on segment 0. -/
def calibratedEngine : State :=
  State.reset.setEngine 0 0 { Engine.empty with inService := true, calCycles := [(2, 16)] }

/-- Refutes O17: CALIBRATION_CYCLE is claimed to count a cycle of any setting on a free segment, but a configuration runs
16 cycles at each setting (R117), and a setting that has run them counts no seventeenth. -/
theorem not_calibrationAndSpares : ¬ Obligations.calibration_and_spares := by
  unfold Obligations.calibration_and_spares
  rintro ⟨hcycle, -⟩
  obtain ⟨t, hexec, hcount, -⟩ := hcycle calibratedEngine 0 0 0 (by decide) (by decide) (by decide)
  rw [execCalibrationCycle_full rfl (by decide)] at hexec
  cases hexec
  exact absurd hcount (by decide)

/-! ### A command of a function that was reset (R250) -/

/-- An UNLOAD of model 0 of context 0 that ring 0 of function 1 had taken when the function was reset. -/
def orphanedUnload : Taken := ⟨0, [0x14], 0, true, false, false, true, [], [], 0, false, true⟩

/-- A model that no core serves. -/
def placelessModel : Model := ⟨0, 0, 5, 0, .loaded, [], [], [], [], [], [], [], none, none, false, [], false, [], [],
  none, 0, 0, none, false, [], 0, none⟩

/-- A device that holds the model and the orphaned UNLOAD. -/
def orphanedRing : State :=
  { State.reset with models := [placelessModel], rings := [(ringKey 1 0, { Ring.empty with taken := [orphanedUnload] })] }

theorem unload_orphanedRing :
    Res.nextIs (exec (.unload 1 0) orphanedRing) (fun t => t.fget F.RING_CQ_TAIL_COUNT (ringKey 1 0) == 1) = false := by
  decide +kernel

/-- Refutes O33: UNLOAD takes the model out, but where its function was reset after the command was taken (R250), the
command ends without a completion in the ring, and the tail of the completion queue stays. -/
theorem not_modelsLoadSwitchAndUnload : ¬ Obligations.models_load_switch_and_unload := by
  unfold Obligations.models_load_switch_and_unload
  rintro ⟨-, -, -, hunload, -⟩
  have htail := (hunload orphanedRing 1 0 orphanedUnload placelessModel (by decide) (by decide) (by decide) (by decide)
    (by decide)).nextIs (p := fun t => t.fget F.RING_CQ_TAIL_COUNT (ringKey 1 0) == 1)
    fun t ⟨⟨htail, _⟩, _⟩ => by rw [htail]; rfl
  exact Bool.false_ne_true (unload_orphanedRing.symm.trans htail)

end Sys2Proof.Machine

/-! SUPPORT. Sessions and what an answer to one of their messages holds (R391 to R393), the operations behind the messages
(R131, R133, R357, R396, R413), and the statement about them. -/

namespace Sys2Proof.Machine

/-! ### The sessions that are open (R393) -/

/-- The same sessions are open, in the same order. -/
def SameSessions (s t : State) : Prop := t.mgmt.sessions.map Session.id = s.mgmt.sessions.map Session.id

section
variable {s t u : State} {m : Nat}

theorem SameSessions.refl (s : State) : SameSessions s s := rfl

theorem SameSessions.trans (h : SameSessions s t) (h' : SameSessions t u) : SameSessions s u := Eq.trans h' h

theorem SameSessions.of_mgmt (h : t.mgmt = s.mgmt) : SameSessions s t := by rw [SameSessions, h]

/-- An operation that leaves the management state alone. -/
theorem SameSessions.of_chg (h : Chg m s t) (hm : m.testBit 22 = false := by rfl) : SameSessions s t :=
  .of_mgmt (h.mgmt.resolve_left (by simp [hm]))

theorem SameSessions.ite {p : Prop} [Decidable p] (h : SameSessions s t) (h' : SameSessions s u) :
    SameSessions s (if p then t else u) := by
  split
  · exact h
  · exact h'

theorem SameSessions.foldl {α : Type} {l : List α} {f : State → α → State} (hf : ∀ u x, SameSessions u (f u x)) :
    SameSessions s (l.foldl f s) :=
  List.foldlRecOn (motive := SameSessions s) _ _ (.refl s) fun u hu x _ => hu.trans (hf u x)

theorem State.pushTo_id (s : State) (r : EventRec) (e : Session) : (s.pushTo r e).2.id = e.id := by
  unfold State.pushTo
  split
  · rfl
  · split <;> rfl

theorem State.notifyHost_sameSessions (s : State) (code : Nat) : SameSessions s (s.notifyHost code) := by
  unfold State.notifyHost
  exact .ite rfl (.refl s)

/-- A record of the log is pushed to the sessions and closes none. -/
theorem State.log_sameSessions (s : State) (e : Ev) : SameSessions s (s.log e) := by
  unfold State.log
  extract_lets q r s1 s2 s3 ps mgmt s4
  have hcount : SameSessions s s1 := .ite (.of_chg (State.count_chg ..)) (.refl s)
  have hpush : SameSessions s3 s4 := by
    simp only [SameSessions, s4, ps, List.map_map]
    exact List.map_congr_left fun e _ => s3.pushTo_id r e
  exact (hcount.trans (.of_mgmt rfl)).trans (hpush.trans (s4.notifyHost_sameSessions e.code))

theorem State.suspect_sameSessions (s : State) (v reason : Nat) : SameSessions s (s.suspect v reason) := by
  unfold State.suspect
  extract_lets s1 s2 s3 rel s4
  have h1 : SameSessions s s1 := .of_mgmt rfl
  have h4 : SameSessions s1 s4 := .ite (.of_mgmt rfl) (.of_mgmt rfl)
  exact .ite (.refl s) (h1.trans (.ite (.refl s1) (h4.trans (s4.log_sameSessions _))))

/-- A session with a number is open. -/
def State.hasSession (s : State) (id : Nat) : Prop := id ∈ s.mgmt.sessions.map Session.id

theorem SameSessions.hasSession {id : Nat} (h : SameSessions s t) (hs : s.hasSession id) : t.hasSession id := by
  rw [State.hasSession, h]
  exact hs

end

/-! ### Messages and their answers (R391 to R393) -/

section
variable {s t : State} {m : MgtMsg} {e : Session} {role need typ status : Nat} {payload : List Nat} {c : Instr}
  {P : State → Prop} {f : State → Session → State}

theorem heard_session_id (h : Heard m role e s) : e.id = m.session := by
  obtain ⟨-, hsession, -⟩ := h
  rw [State.session] at hsession
  have hid := List.find?_some hsession
  exact beq_iff_eq.mp hid

theorem heard_hasSession (h : Heard m role e s) : (heardAt s m).hasSession m.session := by
  have hsame : SameSessions s (heardAt s m) := by
    simp only [SameSessions, heardAt, State.updSession, List.map_map]
    refine List.map_congr_left fun x _ => ?_
    simp only [Function.comp]
    split <;> rfl
  have hopen : m.session ∈ s.mgmt.sessions.map Session.id := by
    rw [← heard_session_id h]
    exact List.mem_map_of_mem (List.mem_of_find?_eq_some h.2.1)
  exact hsame.hasSession hopen

/-- A message that is heard runs on the state with the session's idle time started again. -/
theorem State.mgtRun_heard (h : Heard m role e s) (hneed : need ≤ role) :
    s.mgtRun m typ need f = .next (f (heardAt s m) e) := by
  have hid := heard_session_id h
  obtain ⟨hup, hsession, hclaim, hbad, hrole⟩ := h
  have hlow : ¬ e.role < need := by omega
  simp [State.mgtRun, hup, hsession, hclaim, hbad, hlow, hid, heardAt]

theorem State.answer_mgmt (s : State) (id typ tag status : Nat) (payload : List Nat) :
    (s.answer id typ tag status payload).mgmt = s.mgmt :=
  (State.answer_chg ..).mgmt.resolve_left (by decide)

/-- An answer that reports no bad message is a reply, and counts nothing. -/
theorem State.answer_ok (s : State) (id typ tag : Nat) (payload : List Nat) :
    s.answer id typ tag 0 payload = s.replyTo id typ tag 0 payload := rfl

theorem State.replyTo_out (s : State) (id typ tag status : Nat) (payload : List Nat) :
    s.replyTo id typ tag status payload = { s with out := (s.replyTo id typ tag status payload).out } := by
  unfold State.replyTo
  split <;> rfl

theorem State.answer_fget (s : State) {f : Fld} {i id typ tag status : Nat} {payload : List Nat}
    (hf : f.code ≠ C.MGT_CNT_MSGBAD.cnt.code) : (s.answer id typ tag status payload).fget f i = s.fget f i := by
  unfold State.answer
  rw [State.replyTo_out]
  split
  · exact State.count_fget s _ 0 f i (.inl hf)
  · rfl

/-- The answer to a session that is open is the last thing sent out. -/
theorem State.answer_replied (h : s.hasSession m.session) :
    Replied m typ status payload (s.answer m.session typ m.tag status payload) := by
  have hopen : s.mgmt.sessions.any (fun e => e.id == m.session) = true := by
    obtain ⟨e, he, hid⟩ := List.mem_map.mp h
    exact List.any_eq_true.mpr ⟨e, he, beq_iff_eq.mpr hid⟩
  unfold State.answer
  extract_lets s'
  have hmgmt : s'.mgmt = s.mgmt := by
    unfold s'
    split
    · exact (State.count_chg ..).mgmt.resolve_left (by decide)
    · rfl
  rw [Replied, State.replyTo, hmgmt, if_pos hopen]
  exact List.getLast?_concat

end

/-! ### Passports, requested passes and repairs (R131, R133, R357) -/

section
variable {s t u : State} {c g : Nat}

theorem State.snapEngine_passport (s : State) (c g : Nat) : ((s.snapEngine c g).engine c g).passport.isSome = true := by
  unfold State.snapEngine
  extract_lets
  rw [State.engine_setEngine]
  rfl

theorem State.snapEngine_free (s : State) (c g : Nat) : (s.snapEngine c g).free = s.free + 21504 := by
  unfold State.snapEngine
  extract_lets d s1 g1 cls s2
  have hsuspect : s2.free = s1.free := by
    unfold s2
    split
    · exact (State.suspect_chg ..).free.resolve_left (by decide)
    · rfl
  exact hsuspect

theorem State.snapEngine_sameSessions (s : State) (c g : Nat) : SameSessions s (s.snapEngine c g) := by
  unfold State.snapEngine
  extract_lets d s1 g1 cls s2
  have h1 : SameSessions s s1 := .of_mgmt rfl
  have h2 : SameSessions s1 s2 := .ite (s1.suspect_sameSessions ..) (.refl s1)
  exact (h1.trans h2).trans (.of_mgmt rfl)

/-- `t` differs from `s` only in that regular passes are asked for on more engines. -/
structure AsksMore (s t : State) : Prop where
  others : t = { s with engines := t.engines }
  inService : ∀ c e, (t.engine c e).inService = (s.engine c e).inService
  asked : ∀ c e, (s.engine c e).calAsked = true → (t.engine c e).calAsked = true

theorem AsksMore.refl (s : State) : AsksMore s s := ⟨rfl, fun _ _ => rfl, fun _ _ => id⟩

theorem AsksMore.trans (h : AsksMore s t) (h' : AsksMore t u) : AsksMore s u := by
  refine ⟨?_, fun c e => (h'.inService c e).trans (h.inService c e), fun c e => h'.asked c e ∘ h.asked c e⟩
  rw [h'.others, h.others]

theorem AsksMore.services (h : AsksMore s t) (c : Nat) : t.inService c = s.inService c := by
  rw [State.inService, State.inService]
  exact List.filter_congr fun e _ => h.inService c e

/-- An engine reads as it was written, or as before where another one was written. -/
theorem State.engine_setEngine_eq_or (s : State) (c e : Nat) (x : Engine) (c' e' : Nat) :
    ((s.setEngine c e x).engine c' e' = x ∧ s.engine c' e' = s.engine c e) ∨
    (s.setEngine c e x).engine c' e' = s.engine c' e' := by
  by_cases hkey : c' * 64 + e' = c * 64 + e
  · refine .inl ⟨?_, ?_⟩
    · simp [State.engine, State.setEngine, hkey]
    · rw [State.engine, State.engine, hkey]
  · exact .inr (Tab.getD_set_ne _ _ _ hkey)

theorem AsksMore.askEngine (s : State) (c e : Nat) :
    AsksMore s (s.setEngine c e { s.engine c e with calAsked := true }) := by
  refine ⟨rfl, fun c' e' => ?_, fun c' e' hasked => ?_⟩
  all_goals
    obtain ⟨hnew, hold⟩ | hsame := s.engine_setEngine_eq_or c e { s.engine c e with calAsked := true } c' e'
  · rw [hnew, hold]
  · rw [hsame]
  · rw [hnew]
  · rw [hsame, hasked]

/-- A regular pass asked for on each engine of a list. -/
def State.askEngines (s : State) (c : Nat) (es : List Nat) : State :=
  es.foldl (fun s e => s.setEngine c e { s.engine c e with calAsked := true }) s

theorem AsksMore.askEngines (s : State) (c : Nat) (es : List Nat) : AsksMore s (s.askEngines c es) :=
  List.foldlRecOn (motive := AsksMore s) _ _ (.refl s) fun t ht e _ => ht.trans (.askEngine t c e)

theorem State.askEngines_asked (s : State) (c : Nat) {es : List Nat} {e : Nat} (he : e ∈ es) :
    ((s.askEngines c es).engine c e).calAsked = true := by
  induction es generalizing s with
  | nil => cases he
  | cons x es ih =>
    obtain rfl | he := List.mem_cons.mp he
    · refine (AsksMore.askEngines _ c es).asked c e ?_
      rw [State.engine_setEngine]
    · exact ih (s.setEngine c x { s.engine c x with calAsked := true }) he

/-- RST_CAL_PASS asks on every engine in service of a core that is not retired (R133). -/
theorem State.run_rstCalPass (s : State) (c : Nat) : AsksMore s (s.run (execRstCalPass c)) ∧
    (s.retired c = false → ∀ e ∈ s.inService c, ((s.run (execRstCalPass c)).engine c e).calAsked = true) := by
  cases hretired : s.retired c with
  | true =>
    have hrun : s.run (execRstCalPass c) = s := by simp [State.run, execRstCalPass, hretired]
    rw [hrun]
    exact ⟨.refl s, nofun⟩
  | false =>
    have hrun : s.run (execRstCalPass c) = s.askEngines c (s.inService c) := by
      simp [State.run, execRstCalPass, hretired, State.askEngines]
    rw [hrun]
    exact ⟨.askEngines s c _, fun _ e he => s.askEngines_asked c he⟩

/-- A pass on each core of a list. -/
theorem State.foldl_rstCalPass (cs : List Nat) (s : State) :
    AsksMore s (cs.foldl (fun s c => s.run (execRstCalPass c)) s) ∧
    ∀ c ∈ cs, s.retired c = false → ∀ e ∈ s.inService c,
      ((cs.foldl (fun s c => s.run (execRstCalPass c)) s).engine c e).calAsked = true := by
  induction cs generalizing s with
  | nil => exact ⟨.refl s, fun _ hc => nomatch hc⟩
  | cons d cs ih =>
    obtain ⟨hone, hasked⟩ := s.run_rstCalPass d
    obtain ⟨hmore, hall⟩ := ih (s.run (execRstCalPass d))
    refine ⟨hone.trans hmore, fun c hc hlive e he => ?_⟩
    obtain rfl | hc := List.mem_cons.mp hc
    · exact hmore.asked c e (hasked hlive e he)
    · refine hall c hc ?_ e ?_
      · rw [hone.others]
        exact hlive
      · rw [hone.services]
        exact he

end

/-! ### The parts of a configuration record (R413) -/

section
variable {s t : State} {m : Nat}

/-- A state, if there is one, with the same sessions open. -/
def KeepsSessions (s : State) (o : Option State) : Prop := ∀ t, o = some t → SameSessions s t

theorem KeepsSessions.of_chg {o : Option State} (h : ChgO m s o) (hm : m.testBit 22 = false := by rfl) : KeepsSessions s o :=
  fun t ht => .of_chg (h t ht) hm

theorem KeepsSessions.none : KeepsSessions s .none := by
  intro t ht
  cases ht

theorem KeepsSessions.some (h : SameSessions s t) : KeepsSessions s (.some t) := fun _ ht => Option.some.inj ht ▸ h

theorem KeepsSessions.ite {p : Prop} [Decidable p] {o o' : Option State} (h : KeepsSessions s o) (h' : KeepsSessions s o') :
    KeepsSessions s (if p then o else o') := by
  split
  · exact h
  · exact h'

/-- A part whose check passes is applied to the state in which it is staged. -/
theorem KeepsSessions.committed {ok : Bool} {f : State → State} (h : SameSessions s t) (hf : ∀ u, SameSessions u (f u)) :
    KeepsSessions s (t.committed ok f) :=
  .ite (.some (h.trans (hf t))) .none

/-- An outcome whose next state, if there is one, has the same sessions open. -/
def AnswersSessions (s : State) (r : Res) : Prop := ∀ t, r = .next t → SameSessions s t

theorem AnswersSessions.next (h : SameSessions s t) : AnswersSessions s (.next t) := by
  intro u hu
  cases hu
  exact h

theorem AnswersSessions.ite {p : Prop} [Decidable p] {r r' : Res} (h : AnswersSessions s r) (h' : AnswersSessions s r') :
    AnswersSessions s (if p then r else r') := by
  split
  · exact h
  · exact h'

theorem AnswersSessions.run {f : State → Res} (h : AnswersSessions s (f s)) : SameSessions s (s.run f) := by
  unfold State.run
  split
  · next t ht => exact h t ht
  · exact .refl s
  · exact .refl s

/-- A commit that applies its staged fields. -/
theorem AnswersSessions.applyAll (s : State) (l : List (Fld × Nat)) : AnswersSessions s (.next (s.applyAll l)) :=
  .next (.of_mgmt (by rw [(s.applyAll_onlyFields l).1]))

/-- A commit that is refused: a flag and a record. -/
theorem AnswersSessions.flag_log (s : State) (g : Fld) (i : Nat) (r : Ev) : AnswersSessions s (.next ((s.flag g i).log r)) :=
  .next ((SameSessions.of_mgmt rfl).trans (State.log_sameSessions _ r))

theorem execKeepCommit_answersSessions (s : State) : AnswersSessions s (execKeepCommit s) :=
  .ite (.applyAll s _) (.flag_log s _ _ _)

theorem execRelCommit_answersSessions (s : State) : AnswersSessions s (execRelCommit s) :=
  .ite (.applyAll s _) (.flag_log s _ _ _)

theorem execRstCommit_answersSessions (s : State) (c : Nat) : AnswersSessions s (execRstCommit c s) :=
  .ite (.next (.refl s)) (.ite (.applyAll s _) (.flag_log s _ _ _))

theorem State.partWrite_sameSessions (s : State) (p : Nat) (b : List Nat) : SameSessions s (s.partWrite p b) :=
  .of_chg (State.partWrite_chg ..)

theorem State.suspend_sameSessions (s : State) (l bit' argA : Nat) : SameSessions s (s.suspend l bit' argA) := by
  unfold State.suspend
  extract_lets m s1 s2 s3
  have hverdicts : SameSessions s2 s3 := .foldl fun u p => .of_chg (State.sendVerdict_chg ..)
  have hreasons : SameSessions s s2 := .of_mgmt rfl
  exact .ite (.refl s) ((hreasons.trans hverdicts).trans (s3.log_sameSessions _))

theorem State.importLanes_keepsSessions (s : State) (b : List Nat) : KeepsSessions s (s.importLanes b) := by
  unfold State.importLanes
  extract_lets s1 cs bar s2
  have hwrite : SameSessions s s1 := s.partWrite_sameSessions 0 b
  clear_value s1
  refine .ite .none (.some ?_)
  have hcopies : SameSessions s1 s2 := .of_mgmt rfl
  exact ((hwrite.trans hcopies).trans (.foldl fun u l => u.suspend_sameSessions l 2 0x31)).trans
    (.of_chg (State.fieldRefresh_chg _))

theorem State.importPart_keepsSessions (s : State) (p : Nat) (b : List Nat) : KeepsSessions s (s.importPart p b) := by
  unfold State.importPart
  split
  case h_1 => exact s.importLanes_keepsSessions b
  case h_2 => exact .ite .none (.some ((s.partWrite_sameSessions 1 b).trans (.of_chg (State.fieldRefresh_chg _))))
  case h_3 => exact .of_chg (State.importPolicy_chg s b)
  case h_4 => exact .of_chg (State.importAdc_chg s b)
  case h_5 => exact .of_chg (State.importDac_chg s b)
  case h_6 => exact .of_chg (State.importTopo_chg s b)
  case h_7 => exact .committed (.refl s) fun u => .refl u
  case h_8 => exact .committed (s.partWrite_sameSessions 7 b) fun u => (execKeepCommit_answersSessions u).run
  case h_9 => exact .committed (s.partWrite_sameSessions 8 b) fun u => (execRelCommit_answersSessions u).run
  case h_10 =>
    refine .committed (.refl s) fun u => .foldl fun v c => ?_
    exact (SameSessions.of_chg (State.writeReg_chg v R.RST_PERIOD_LIM c _)).trans (execRstCommit_answersSessions _ c).run
  case h_11 => exact .committed (.refl s) fun u => .refl u

/-- The import of a configuration record closes no session. -/
theorem State.configApply_sameSessions (s : State) (b : List Nat) : SameSessions s (s.configApply b).1 := by
  unfold State.configApply
  refine List.foldlRecOn (motive := fun a : State × Nat => SameSessions s a.1) _ _ (.refl s) fun a ha x _ => ?_
  split
  · next t ht => exact ha.trans (State.importPart_keepsSessions _ _ _ t ht)
  · exact ha

end

/-! ### What the management messages come to (R390 to R413) -/

section
variable {s t : State} {m : MgtMsg} {e : Session} {role : Nat}

theorem State.model_congr (h : t.models = s.models) (ctx id : Nat) : t.model ctx id = s.model ctx id := by
  rw [State.model, State.model, h]

/-- A model that takes the place of one with its context and number is found under them. -/
theorem State.model_setModel {ctx id : Nat} {x y : Model} (h : s.model ctx id = some x) (hctx : y.context = x.context)
    (hid : y.id = x.id) : (s.setModel y).model ctx id = some y := by
  rw [State.model] at h
  have hx : x.context = ctx ∧ x.id = id := by simpa using List.find?_some h
  obtain ⟨rfl, rfl⟩ := hx
  rw [State.model, State.setModel]
  dsimp only
  generalize s.models = l at h
  induction l with
  | nil => cases h
  | cons z l ih =>
    by_cases hz : z.context = x.context ∧ z.id = x.id
    · simp [hctx, hid, hz]
    · have htail : l.find? (fun m => m.context == x.context && m.id == x.id) = some x := by
        simpa [List.find?_cons, hz] using h
      simpa [List.find?_cons, hctx, hid, hz] using ih htail

/-- REPAIR with an image that passes lets the model's repairs go on from it. -/
theorem State.repairFrom_model {ctx id off : Nat} {x : Model} (h : s.model ctx id = some x) :
    (s.repairFrom x off).model ctx id = some { x with imageAt := some off } :=
  (State.model_congr rfl ctx id).trans (State.model_setModel h rfl rfl)

theorem exec_regRead_heard (h : Heard m 0 e s) (hlen : m.payload.length = 10) (hspace : m.payload.getD 0 0 = 0)
    (hone : leAt m.payload 8 2 = 1) (hend : leAt m.payload 4 4 + 4 ≤ 0xD10000) :
    let r := (heardAt s m).busRead (mgtAccess 0 (leAt m.payload 4 4) false)
    exec (.regRead m) s = .next (r.2.answer m.session 0x0010 m.tag 0 (bytesOf 4 r.1)) := by
  have hdirect : proxied (mgtAccess 0 (leAt m.payload 4 4) false) false = false := by
    simp [proxied, mgtAccess]
    omega
  have hwindow : ¬ 0xD10000 < leAt m.payload 4 4 + 4 := by omega
  simp [-List.getD_eq_getElem?_getD, exec, execRegRead, State.mgtRun_heard h, heard_session_id h, hlen, hspace, hone,
    State.regWords, hdirect, hwindow]

theorem exec_regWrite_heard (h : Heard m 1 e s) (hlen : m.payload.length = 12) (hspace : m.payload.getD 0 0 = 0) :
    exec (.regWrite m) s = .next (((heardAt s m).busWrite (mgtAccess 0 (leAt m.payload 4 4) true)
      (leAt m.payload 8 4)).answer m.session 0x0011 m.tag 0 []) := by
  simp [-List.getD_eq_getElem?_getD, exec, execRegWrite, State.mgtRun_heard h, heard_session_id h, hlen, hspace]

/-- RING_CMD hands over any command that a session may give of a context that is not confidential. -/
theorem exec_ringCmd_heard {d : List Nat} (h : Heard m 2 e s) (hd : (m.payload.take 64).map (fun x => x % 256) = d)
    (hlen : d.length = 64) (hconf : s.conf (s.ringCtx d) = false) (hop : dOp d ≠ 0x01 ∧ dOp d ≠ 0x1A ∧ dOp d ≠ 0x1B)
    (hserving : s.serving = true) :
    exec (.ringCmd m) s = .next ((heardAt s m).ringTake m.session m.tag (mgtDesc d (m.payload.length - 64))
      ((m.payload.drop 64).map (fun x => x % 256))) := by
  have hrole : ringRole (dOp d) ≤ 2 := by
    unfold ringRole
    split <;> decide
  have hconf' : (heardAt s m).conf ((heardAt s m).ringCtx d) = false := hconf
  have hserving' : (heardAt s m).serving = true := hserving
  simp [exec, execRingCmd, hd, State.mgtRun_heard h hrole, heard_session_id h, hlen, hconf', hop, hserving']

theorem exec_keepCmd_heard (h : Heard m 2 e s) (hlen : 4 ≤ m.payload.length) (hctx : m.payload.getD 1 0 < 32)
    (hpower : s.fget F.GLB_PWR_STATUS_STATE 0 ≠ 0) :
    exec (.keepCmd m) s = .next ((heardAt s m).keepTake
      ⟨.session m.session m.tag, m.payload.getD 0 0, m.payload.getD 1 0, (m.payload.drop 4).map (fun x => x % 256)⟩) := by
  have hrole (p : Prop) [Decidable p] : (if p then 0 else 2) ≤ 2 := by split <;> decide
  have hshort : ¬ m.payload.length < 4 := by omega
  have hwide : ¬ 32 ≤ m.payload.getD 1 0 := by omega
  have hpower' : (heardAt s m).fget F.GLB_PWR_STATUS_STATE 0 ≠ 0 := hpower
  simp [-List.getD_eq_getElem?_getD, exec, execKeepCmd, State.mgtRun_heard h (hrole _), heard_session_id h, hshort, hwide,
    hpower']

theorem exec_passportRead_heard {c g : Nat} (h : Heard m 0 e s) (hpayload : m.payload = [c, g]) (hc : c < 32) (hg : g < 32)
    (hlive : s.retired c = false) (hservice : (s.inService c).contains g = true) :
    let t := (heardAt s m).snapEngine c g
    exec (.passportRead m) s = .next (t.answer m.session 0x0043 m.tag 0
      ((t.engine c g).passport.elim [] (fun p => t.passportBytes c g p))) := by
  have hlive' : (heardAt s m).retired c = false := hlive
  have hservice' : g ∈ (heardAt s m).inService c := List.contains_iff_mem.mp hservice
  simp [exec, execPassportRead, State.mgtRun_heard h, heard_session_id h, hpayload, Nat.not_le.mpr hc, Nat.not_le.mpr hg,
    hlive', hservice']

theorem exec_unitRecal_heard (h : Heard m 1 e s) (hlen : m.payload.length = 4) :
    exec (.unitRecal m) s = .next ((((List.range 32).filter (fun c => bit (leAt m.payload 0 4) c)).foldl
      (fun s c => s.run (execRstCalPass c)) (heardAt s m)).answer m.session 0x0042 m.tag 0 []) := by
  simp [exec, execUnitRecal, State.mgtRun_heard h, heard_session_id h, hlen]

theorem exec_repair_heard {x : Model} (h : Heard m 2 e s) (hlen : m.payload.length = 32) (hctx : m.payload.getD 0 0 < 32)
    (hmodel : s.model (m.payload.getD 0 0) (leAt m.payload 4 16) = some x) :
    exec (.repair m) s = .next (
      if (heardAt s m).repairOk x (leAt m.payload 4 16) (leAt m.payload 20 4) (leAt m.payload 24 8) then
        ((heardAt s m).repairFrom x (leAt m.payload 24 8)).answer m.session 0x0044 m.tag 0 []
      else (heardAt s m).answer m.session 0x0044 m.tag 4 []) := by
  have hwide : ¬ 32 ≤ m.payload.getD 0 0 := by omega
  have hmodel' : (heardAt s m).model (m.payload.getD 0 0) (leAt m.payload 4 16) = some x := hmodel
  simp [-List.getD_eq_getElem?_getD, exec, execRepair, State.mgtRun_heard h, heard_session_id h, hlen, hwide, hmodel']

theorem exec_peerList_heard (h : Heard m 2 e s) (hmod : m.payload.length % 8 = 0) (hlen : m.payload.length ≤ 1024) :
    exec (.peerList m) s = .next (({ heardAt s m with mgmt := { (heardAt s m).mgmt with
      peers := (List.range (m.payload.length / 8)).map (fun i => leAt m.payload (8 * i) 8) } } : State).answer
        m.session 0x0050 m.tag 0 []) := by
  have hshort : ¬ 1024 < m.payload.length := by omega
  simp [exec, execPeerList, State.mgtRun_heard h, heard_session_id h, hmod, hshort]

theorem exec_anchorSet_heard (h : Heard m 2 e s) (hlen : m.payload.length = 65) (hslot : m.payload.getD 0 0 < 4)
    (hrole : m.payload.getD 1 0 ≤ 2 ∨ m.payload.getD 1 0 = 0xFF) :
    let t := anchorPut s.mgmt.anchors (m.payload.getD 0 0) (m.payload.getD 1 0) (slice m.payload 8 57)
    exec (.anchorSet m) s = .next (
      if anchorsOk t then
        ({ heardAt s m with mgmt := { (heardAt s m).mgmt with anchors := t } } : State).answer m.session 0x0051 m.tag 0 []
      else (heardAt s m).answer m.session 0x0051 m.tag 4 []) := by
  have hwide : ¬ 4 ≤ m.payload.getD 0 0 := by omega
  have hform : ¬ (2 < m.payload.getD 1 0 ∧ ¬ m.payload.getD 1 0 = 0xFF) := by omega
  have hanchors : (heardAt s m).mgmt.anchors = s.mgmt.anchors := rfl
  simp [-List.getD_eq_getElem?_getD, exec, execAnchorSet, State.mgtRun_heard h, heard_session_id h, hlen, hwide, hform,
    hanchors]

theorem exec_configExport_heard (h : Heard m 0 e s) :
    exec (.configExport m) s = .next ((heardAt s m).answer m.session 0x0053 m.tag 0 (heardAt s m).configRecord) := by
  simp [exec, execConfigExport, State.mgtRun_heard h, heard_session_id h]

theorem exec_configImport_heard (h : Heard m 2 e s) :
    let b := m.payload.map (fun x => x % 256)
    let r := (heardAt s m).configApply b
    exec (.configImport m) s = .next (
      if configOk b then
        (r.1.log { code := 0x160B, engine := e.anchor, argB := r.2 }).answer m.session 0x0054 m.tag 0 (bytesOf 4 r.2)
      else (heardAt s m).answer m.session 0x0054 m.tag 1 []) := by
  intro b r
  cases hok : configOk b <;>
    simp [exec, execConfigImport, State.mgtRun_heard h, heard_session_id h, hok, b, r]

end

/-- Settles O49: each message is heard (`State.mgtRun_heard`) and ends in the answer of its operation. -/
theorem managementReadsWritesAndConfigures : Obligations.management_reads_writes_and_configures := by
  unfold Obligations.management_reads_writes_and_configures
  refine ⟨?_, ?_, ?_, ?_, ?_, ?_, ?_, ?_, ?_, ?_, ?_, ?_⟩
  · intro s m e h hlen hspace hone hend
    exact ⟨_, exec_regRead_heard h hlen hspace hone hend, rfl⟩
  · intro s m e h hlen hspace
    exact ⟨_, exec_regWrite_heard h hlen hspace, rfl⟩
  · intro s m e d h hd hlen hconf hop hserving
    exact ⟨_, exec_ringCmd_heard h hd hlen hconf hop hserving, rfl⟩
  · intro s m e h hlen hctx hpower hkeep
    exact ⟨_, exec_keepCmd_heard h hlen hctx hpower, if_neg hkeep⟩
  · intro s m e h hlen hctx hpower hkeep
    exact ⟨_, exec_keepCmd_heard h hlen hctx hpower, congrArg (fun t : State => t.keep.waiting) (if_pos hkeep)⟩
  · intro s m e c g h hpayload hc hg hlive hservice
    let u := (heardAt s m).snapEngine c g
    have hopen : u.hasSession m.session := (State.snapEngine_sameSessions _ c g).hasSession (heard_hasSession h)
    have hanswer := u.answer_chg m.session 0x0043 m.tag 0 ((u.engine c g).passport.elim [] (fun p => u.passportBytes c g p))
    have hengine := State.engine_congr (hanswer.engines.resolve_left (by decide)) c g
    refine ⟨_, exec_passportRead_heard h hpayload hc hg hlive hservice, ?_, ?_, ?_⟩
    · exact (hanswer.free.resolve_left (by decide)).trans (State.snapEngine_free _ c g)
    · exact (congrArg (fun x : Engine => x.passport.isSome) hengine).trans (State.snapEngine_passport _ c g)
    · have hreplied := State.answer_replied (typ := 0x0043) (status := 0)
        (payload := (u.engine c g).passport.elim [] (fun p => u.passportBytes c g p)) hopen
      rw [hengine]
      exact hreplied
  · intro s m e h hlen
    let cs := (List.range 32).filter (fun c => bit (leAt m.payload 0 4) c)
    obtain ⟨hmore, hasked⟩ := State.foldl_rstCalPass cs (heardAt s m)
    have hopen := (SameSessions.of_mgmt (congrArg State.mgmt hmore.others)).hasSession (heard_hasSession h)
    refine ⟨_, exec_unitRecal_heard h hlen, State.answer_replied hopen, List.all_eq_true.mpr fun c hc => ?_⟩
    cases hbit : bit (leAt m.payload 0 4) c with
    | false => rfl
    | true =>
      cases hretired : s.retired c with
      | true => rfl
      | false =>
        refine List.all_eq_true.mpr fun g hg => ?_
        rw [State.engine_congr ((State.answer_chg ..).engines.resolve_left (by decide)) c g]
        exact hasked c (List.mem_filter.mpr ⟨hc, hbit⟩) hretired g hg
  · intro s m e x h hlen hctx hmodel
    refine ⟨_, exec_repair_heard h hlen hctx hmodel, ?_⟩
    cases hok : (heardAt s m).repairOk x (leAt m.payload 4 16) (leAt m.payload 20 4) (leAt m.payload 24 8) with
    | true =>
      have hopen : ((heardAt s m).repairFrom x (leAt m.payload 24 8)).hasSession m.session := heard_hasSession h
      refine ⟨?_, State.answer_replied hopen⟩
      have hrepaired := State.repairFrom_model (s := heardAt s m) (off := leAt m.payload 24 8) hmodel
      rw [if_pos rfl, State.model_congr ((State.answer_chg ..).models.resolve_left (by decide)), hrepaired]
      rfl
    | false =>
      exact ⟨(State.answer_chg ..).models.resolve_left (by decide), State.answer_replied (heard_hasSession h)⟩
  · intro s m e h hmod hlen
    refine ⟨_, exec_peerList_heard h hmod hlen, ?_, State.answer_replied (heard_hasSession h)⟩
    rw [State.answer_mgmt]
  · intro s m e h hlen hslot hrole
    refine ⟨_, exec_anchorSet_heard h hlen hslot hrole, ?_⟩
    split
    · exact ⟨congrArg Mgmt.anchors (State.answer_mgmt ..), State.answer_replied (heard_hasSession h)⟩
    · exact ⟨(congrArg Mgmt.anchors (State.answer_mgmt ..)).trans rfl, State.answer_replied (heard_hasSession h)⟩
  · intro s m e h
    refine ⟨_, exec_configExport_heard h, State.answer_replied (heard_hasSession h), ?_⟩
    rw [State.answer_ok, State.replyTo_out]
    rfl
  · intro s m e h
    refine ⟨_, exec_configImport_heard h, fun hok => ?_, fun hbad => ?_⟩
    · rw [if_pos hok]
      exact State.answer_replied (((State.configApply_sameSessions ..).trans
        (State.log_sameSessions _ _)).hasSession (heard_hasSession h))
    · rw [if_neg (by simp [hbad])]
      exact ⟨State.answer_replied (heard_hasSession h), State.answer_fget (heardAt s m) (by decide)⟩

end Sys2Proof.Machine

/-! SUPPORT. The core's commands and debug mode (R140, R141, R161), and two states in which a command does not do what a
statement says (R150, R160). -/

namespace Sys2Proof.Machine

/-! ### START, STOP, HALT, RESUME and STEP (R140, R141) -/

section
variable {s t : State} {c r : Nat} {req : CoreReq}

theorem State.seq_congr (h : t.seqs = s.seqs) (c : Nat) : t.seq c = s.seq c := by
  rw [State.seq, State.seq, h]

theorem State.setCore_sameBut (s : State) (c : Nat) (x : CoreSt) : SameBut c s.cores (s.setCore c x).cores :=
  fun _ hj => Tab.find_set_ne _ _ hj

/-- A core begins with INIT (R164); the seed and the tiles that it begins afterwards leave its state, its sequencer and
its cadence as they are. -/
theorem State.beginCore_begins (s : State) (c : Nat) :
    (s.beginCore c).fget F.CORE_STATUS_STATE c = 2 ∧ (s.beginCore c).fget F.SEQ_STATUS_INIT_DONE c = 0 ∧
    ((s.beginCore c).seq c).itm.entry = .init ∧ ((s.beginCore c).seq c).vec.entry = .idle ∧
    ((s.beginCore c).core c).fresh = true := by
  unfold State.beginCore
  extract_lets s1 s2 s3 s4 s5 k s6 q itm s7 fix s8 s9
  have hseed : Chg 0x12000040290c s7 s8 :=
    Chg.ite (Chg.refl _ _) ((State.draw_chg ..).step rfl ((State.fset_chg ..).step rfl (Chg.refl _ _)))
  have htiles := (State.beginTile_chg (s9.beginTile c 0 (some q.begin0) false 0 35) c 1 (some q.begin1) false 0 35).step rfl
    ((State.beginTile_chg ..).step rfl ((State.fset_chg ..).step rfl hseed))
  have hstate : s4.fget F.CORE_STATUS_STATE c = 2 := by
    rw [State.fget_fset_of_code_ne s3 (by decide), State.fget_fset_of_code_ne s2 (by decide),
      State.fget_fset_of_code_ne s1 (by decide)]
    exact State.fget_fset_self ..
  have hfields : s7.fields = s4.fields := (State.zeroScratch_chg s4 c).fields.resolve_left (by decide)
  have hkept (f : Fld) : s7.fget f c = s4.fget f c := by rw [State.fget, State.fget, hfields]
  have hseq := State.seq_congr (htiles.seqs.resolve_left (by decide)) c
  have hcore := State.core_congr (htiles.cores.resolve_left (by decide)) c
  refine ⟨?_, ?_, ?_, ?_, ?_⟩
  · rw [htiles.fget (by decide), hkept, hstate]
  · rw [htiles.fget (by decide), hkept]
    exact State.fget_fset_self ..
  · rw [hseq, State.seq_setSeq]
  · rw [hseq, State.seq_setSeq]
    rfl
  · rw [hcore, State.setSeq_at_core, State.core_setCore]

theorem execCoreStart_begins (hlive : s.retired c = false) (hready : s.startReason c = 0) (hseed : s.seedWaits c = false) :
    exec (.coreStart c) s = .next (s.beginCore c) := by
  simp [exec, execCoreStart, State.coreStart, hlive, hready, hseed]

theorem execCoreStart_refused (hlive : s.retired c = false) (hreason : s.startReason c = r) (hr : r ≠ 0) :
    exec (.coreStart c) s = .next (((s.flag F.CORE_STATUS_START_REFUSED c).fset F.CORE_STATUS_REASON c r).log
      { code := 0x0602, context := s.ctxOf c, core := c, argA := r }) := by
  simp [exec, execCoreStart, State.coreStart, hlive, hreason, hr]
  rfl

/-- Outside a stage that serves a lane, a STOP or a HALT of a running core is noted until the boundary. -/
theorem State.coreAsk_noted (hstate : s.fget F.CORE_STATUS_STATE c = 2) (hserves : s.serves c = false) :
    s.coreAsk c req = s.setCore c { s.core c with req := req } := by
  simp [State.coreAsk, State.retired, hstate, hserves]

theorem State.coreAsk_refused (hstate : s.fget F.CORE_STATUS_STATE c = 2) (hserves : s.serves c = true) :
    s.coreAsk c req =
      (s.flag F.CORE_STATUS_HALT_REFUSED c).log { code := 0x0603, context := s.ctxOf c, core := c } := by
  simp [State.coreAsk, State.retired, hstate, hserves]

theorem State.coreResume_runs (hstate : s.fget F.CORE_STATUS_STATE c = 3) (hcal : s.allCalibrated c = true) :
    s.coreResume c = ((s.fset F.CORE_STATUS_STATE c 2).fset F.CORE_STATUS_DEBUG c 0).setCore c { s.core c with req := .none } := by
  simp [State.coreResume, hstate, hcal]

theorem State.coreResume_uncalibrated (hcal : s.allCalibrated c = false) : s.coreResume c = s := by
  simp [State.coreResume, hcal]

theorem State.coreStep_halted (hstate : s.fget F.CORE_STATUS_STATE c = 3) :
    s.coreStep c = s.setCore c { s.core c with req := .stepping } := by
  simp [State.coreStep, hstate]

theorem execCoreVectorBoundary_stops (hbound : s.atBoundary c = true) (hreq : (s.core c).req = .stop) :
    exec (.coreVectorBoundary c) s =
      .next ((s.fset F.CORE_STATUS_STATE c 1).setCore c { s.core c with req := .none }) := by
  simp [exec, execCoreVectorBoundary, hbound, hreq]

theorem execCoreVectorBoundary_halts (hbound : s.atBoundary c = true) (hreq : (s.core c).req = .halt) :
    exec (.coreVectorBoundary c) s =
      .next ((s.fset F.CORE_STATUS_STATE c 3).setCore c { s.core c with req := .none }) := by
  simp [exec, execCoreVectorBoundary, hbound, hreq]

end

/-- Settles O19: a start that is allowed begins the core (`State.beginCore_begins`), and every other command sets the
fields and the request that its rule names. -/
theorem coreCommandsChangeItsState : Obligations.core_commands_change_its_state := by
  unfold Obligations.core_commands_change_its_state
  refine ⟨?_, ?_, ?_, ?_, ?_, ?_, ?_, ?_, ?_, ?_⟩
  · intro s c hlive hready hseed
    exact ⟨_, execCoreStart_begins hlive hready hseed, s.beginCore_begins c⟩
  · intro s c r hlive hreason hr hlt
    have hlog := State.log_chg ((s.flag F.CORE_STATUS_START_REFUSED c).fset F.CORE_STATUS_REASON c r)
      { code := 0x0602, context := s.ctxOf c, core := c, argA := r }
    refine ⟨_, execCoreStart_refused hlive hreason hr, ?_, ?_, ?_, hlog.cores.resolve_left (by decide),
      hlog.seqs.resolve_left (by decide), hlog.engines.resolve_left (by decide)⟩
    · rw [hlog.fget (by decide), State.fget_fset_of_code_ne _ (by decide)]
      exact State.fget_fset_self ..
    · rw [hlog.fget (by decide), State.fget_fset_self]
      exact Nat.mod_eq_of_lt (lt_trans hlt (by decide))
    · rw [hlog.fget (by decide), State.fget_fset_of_code_ne _ (by decide)]
      exact State.fget_fset_of_code_ne s (by decide)
  · intro s c hstate hserves
    refine ⟨_, congrArg Host.Outcome.next (State.coreAsk_noted hstate hserves), ?_, s.setCore_sameBut c _, rfl⟩
    rw [State.core_setCore]
  · intro s c hstate hserves
    refine ⟨_, congrArg Host.Outcome.next (State.coreAsk_noted hstate hserves), ?_, s.setCore_sameBut c _, rfl⟩
    rw [State.core_setCore]
  · intro s c hstate hserves
    refine ⟨_, congrArg Host.Outcome.next (State.coreAsk_refused hstate hserves), State.flag_log_fget _ _ _ _ rfl (by decide),
      (State.log_chg ..).cores.resolve_left (by decide), ?_⟩
    exact (State.flag_log_fget_ne _ _ _ (by decide) (by decide)).trans hstate
  · intro s c hstate hcal
    have hfields := ((OnlyFields.fset s F.CORE_STATUS_STATE c 2).mono
      (l' := [(F.CORE_STATUS_STATE, c), (F.CORE_STATUS_DEBUG, c)]) (by simp)).then_fset
      (f := F.CORE_STATUS_DEBUG) (i := c) (w := 0) (by simp)
    refine ⟨_, congrArg Host.Outcome.next (State.coreResume_runs hstate hcal), ?_, ?_, ?_, hfields.2, rfl⟩
    · rw [State.setCore_at_fget, State.fget_fset_of_code_ne _ (by decide)]
      exact State.fget_fset_self ..
    · rw [State.setCore_at_fget]
      exact State.fget_fset_self ..
    · rw [State.core_setCore]
  · intro s c _ hcal
    exact ⟨_, rfl, State.coreResume_uncalibrated hcal⟩
  · intro s c hstate
    refine ⟨_, congrArg Host.Outcome.next (State.coreStep_halted hstate), ?_, s.setCore_sameBut c _, rfl⟩
    rw [State.core_setCore]
  · intro s c hbound hreq
    refine ⟨_, execCoreVectorBoundary_stops hbound hreq, ?_, ?_, (OnlyFields.fset s _ c 1).2⟩
    · rw [State.setCore_at_fget]
      exact State.fget_fset_self ..
    · rw [State.core_setCore]
  · intro s c hbound hreq
    refine ⟨_, execCoreVectorBoundary_halts hbound hreq, ?_, ?_, (OnlyFields.fset s _ c 3).2⟩
    · rw [State.setCore_at_fget]
      exact State.fget_fset_self ..
    · rw [State.core_setCore]

/-! ### Debug mode (R161, R370) -/

section
variable {s : State} {c : Nat}

theorem execDebugEnter_enters (hstate : s.fget F.CORE_STATUS_STATE c = 1 ∨ s.fget F.CORE_STATUS_STATE c = 3)
    (hconf : s.conf (s.ctxOf c) = false) (hclean : s.fon F.KEEP_CORE_DATA_CLEAN c = true)
    (hrole : s.fget F.CORE_ROLE_ROLE c ≠ 2) : exec (.debugEnter c) s =
      .next ((s.flag F.CORE_STATUS_DEBUG c).log { code := 0x0608, context := s.ctxOf c, core := c }) := by
  simp [exec, execDebugEnter, hstate, hconf, hclean, hrole]

theorem execDebugEnter_confidential (hconf : s.conf (s.ctxOf c) = true) : exec (.debugEnter c) s = .next s := by
  simp [exec, execDebugEnter, hconf]

theorem execDebugExit_clears (hlive : s.retired c = false) :
    exec (.debugExit c) s = .next (s.fset F.CORE_STATUS_DEBUG c 0) := by
  simp [exec, execDebugExit, hlive]

end

/-- Settles O21: the four conditions of DEBUG_ENTER set the flag with its record, a confidential context alone keeps the
state, and DEBUG_EXIT writes the one field. -/
theorem debugModeIsEnteredAndLeft : Obligations.debug_mode_is_entered_and_left := by
  unfold Obligations.debug_mode_is_entered_and_left
  refine ⟨?_, ?_, ?_⟩
  · intro s c hstate hconf hclean hrole
    exact ⟨_, execDebugEnter_enters hstate hconf hclean hrole, State.flag_log_fget _ _ _ _ rfl (by decide)⟩
  · intro s c hconf
    exact ⟨_, execDebugEnter_confidential hconf, rfl⟩
  · intro s c hlive
    exact ⟨_, execDebugExit_clears hlive, State.fget_fset_self .., OnlyFields.fset ..⟩

/-! ### A scratch row whose engine runs a vector (R150) -/

/-- A vector that runs in a scratch engine of tile 0. -/
def scratchVector : EngVec := ⟨0, 8, true, [(3, 5)], 0, 0, 0, 0, [], [], [], 0, true, 0, 0, 0, 0, [], [], 0, false, false⟩

/-- Row 0 of scratch engine 32 of core 0 was last written 20 ms ago, and a vector runs in the engine. -/
def busyScratch : State :=
  ({ State.reset with ns := 20000000, cores := [(0, { CoreSt.empty with scrTime := [(0, 0)] })] } : State).setEngine 0 32
    { Engine.empty with run := some scratchVector }

theorem scratchRowExpire_busyScratch :
    Res.nextIs (exec (.scratchRowExpire 0 0 0) busyScratch) (fun t => (Tab.find (t.core 0).scrTime 0).isNone) = false := by
  decide +kernel

/-- Refutes O20: SCRATCH_ROW_EXPIRE is claimed to zero an expired row at once, but where a vector runs in the row's engine
the write of level 0 waits for a write window that the program leaves unused (R150), and the row's time stands until then. -/
theorem not_cadenceAndCoreMemory : ¬ Obligations.cadence_and_core_memory := by
  unfold Obligations.cadence_and_core_memory
  rintro ⟨-, -, -, -, hexpire, -⟩
  have htime := (hexpire busyScratch 0 0 0 0 (by decide) (by decide) (by decide) (by decide)).nextIs
    (p := fun t => (Tab.find (t.core 0).scrTime 0).isNone) fun t ⟨hnone, _⟩ => by
      rw [hnone]
      rfl
  exact Bool.false_ne_true (scratchRowExpire_busyScratch.symm.trans htime)

/-! ### A chunk in the pages of the spill area (R160) -/

/-- Buffer 0, spilled to page 5 of DRAM, with chunks of 64 B. -/
def pagedBuffer : Buffer := ⟨0, 0, 128, 64, 0, true, false, 0, [5], none, none, none⟩

/-- A FETCH of chunk 0 of buffer 0 into window 0. -/
def fetchWord : Nat := 0x0A * 2 ^ 58

/-- The VEC thread of core 0 stands at the FETCH. -/
def fetching : State :=
  { State.reset with
    cores := [(0, { CoreSt.empty with buffers := [pagedBuffer] })]
    seqs := [(0, { Sequencer.empty with pm := [(0, fetchWord)], vec := { Thread.empty with entry := .vec } })] }

theorem fetch_fetching : Res.nextIs (exec (.fetch 0 .vec) fetching)
    (fun t => (t.fab.net.getLast?).map (fun p => p.addr) == some (chunkAddr pagedBuffer 0)) = false := by
  decide +kernel

/-- Refutes O24: FETCH is claimed to read at `chunkAddr`, but that is the chunk's offset in the spill area, and the read
goes to the area's page in DRAM (R160): here to page 5, not to address 0. -/
theorem not_vectorUnitAndSpillInstructions : ¬ Obligations.vector_unit_and_spill_instructions := by
  unfold Obligations.vector_unit_and_spill_instructions
  rintro ⟨-, -, hfetch, -, -⟩
  have haddr := (hfetch fetching 0 fetchWord .vec pagedBuffer (by decide) (by decide) rfl rfl).nextIs
    (p := fun t => (t.fab.net.getLast?).map (fun p => p.addr) == some (chunkAddr pagedBuffer 0)) fun t ⟨_, hnet, _⟩ => by
      have h := congrArg (Option.map fun x => x.2.2.1) hnet
      rw [Option.map_map] at h
      exact beq_iff_eq.mpr h
  exact Bool.false_ne_true (fetch_fetching.symm.trans haddr)

end Sys2Proof.Machine

/-! SUPPORT. Every command completes within the parts that its row lists, but for an access beyond the end of a memory
(R155, R199, R201), and every step keeps the memories in their canonical form. -/

namespace Sys2Proof.Machine

/-! ### Every command completes -/

/-- An outcome that is a next state. -/
def Completes (r : Res) : Prop := ∃ t, r = .next t

section
variable {α β : Type} {p : Prop} [Decidable p] {r r' : Res} {s t : State}

theorem Completes.next : Completes (.next t) := ⟨t, rfl⟩

theorem Completes.ite (h : Completes r) (h' : Completes r') : Completes (if p then r else r') := by
  split
  · exact h
  · exact h'

/-- Where the condition of an event is missing, the command completes at once. -/
theorem Completes.guard (h : Completes r) : Completes (if p then .next t else r) := .ite .next h

theorem Completes.option {o : Option α} {f : α → Res} (h : Completes r) (hf : ∀ x, Completes (f x)) :
    Completes (match o with | none => r | some x => f x) := by
  cases o with
  | none => exact h
  | some x => exact hf x

/-- Where what an event names is not there, the command completes at once. -/
theorem Completes.found {o : Option α} {f : α → Res} (hf : ∀ x, Completes (f x)) :
    Completes (match o with | none => .next t | some x => f x) := .option .next hf

theorem Completes.both {o : Option α} {q : Option β} {f : α → β → Res} (hf : ∀ x y, Completes (f x y)) :
    Completes (match o, q with | some x, some y => f x y | _, _ => .next t) := by
  cases o with
  | none => exact .next
  | some x =>
    cases q with
    | none => exact .next
    | some y => exact hf x y

theorem Completes.cons {l : List α} {f : α → List α → Res} (hf : ∀ x xs, Completes (f x xs)) :
    Completes (match l with | [] => .next t | x :: xs => f x xs) := by
  cases l with
  | nil => exact .next
  | cons x xs => exact hf x xs

theorem execSpanSwitch_completes {k : Nat} : Completes (execSpanSwitch k s) := by
  unfold execSpanSwitch
  extract_lets x
  split
  · exact .guard (.guard .next)
  · exact .next

theorem execSpanChangeEnd_completes {k : Nat} : Completes (execSpanChangeEnd k s) := by
  unfold execSpanChangeEnd
  extract_lets x
  split
  · exact .guard .next
  · exact .next

end

/-! ### Accesses beyond the end of a memory (R155, R199, R201) -/

section
variable {s : State} {k w : Nat} {a : Arrival} {damage : Damage} {err : EccErr} {p : Packet}

theorem execSramScrub_completes (h : beyondMemory s (.sramScrub k w err) = false) : Completes (execSramScrub k w err s) := by
  unfold execSramScrub
  rw [if_neg (of_decide_eq_false h)]
  cases err with
  | none | single | double => exact .next

theorem execMemoryRead_completes (h : beyondMemory s (.memoryRead a err) = false) : Completes (execMemoryRead a err s) := by
  obtain ⟨k, lost⟩ := a
  unfold execMemoryRead
  split
  · exact .next
  next p hp =>
    split
    · exact .next
    next hbne =>
      have htyp : p.typ = .memRead := by simpa using hbne
      cases lost with
      | some n => exact .next
      | none =>
        have hend : ¬ dramSize < p.addr + p.len := by simpa [beyondMemory, hp, htyp] using h
        dsimp only
        rw [if_neg hend]
        refine .guard ?_
        cases err with
        | none | single | double => exact .next

theorem execMemoryWrite_completes (h : beyondMemory s (.memoryWrite k damage) = false) :
    Completes (execMemoryWrite k damage s) := by
  unfold execMemoryWrite
  split
  · exact .next
  next p hp =>
    split
    · exact .next
    next hbne =>
      have htyp : p.typ = .memWrite := by simpa using hbne
      cases damage with
      | header | payload => exact .next
      | none =>
        have hend : ¬ dramSize < p.addr + p.payload.length := by simpa [beyondMemory, hp, htyp] using h
        dsimp only
        rw [if_neg hend]
        exact .guard .next

theorem execSramScrub_faults (h : sramSize ≤ w * 8) : execSramScrub k w err s = .fault (.sramAddress (w * 8)) := if_pos h

theorem execMemoryRead_faults (hp : s.packet k = some p) (htyp : p.typ = .memRead) (h : dramSize < p.addr + p.len) :
    execMemoryRead ⟨k, none⟩ err s = .fault (.dramAddress p.addr) := by
  simp [execMemoryRead, hp, htyp, h]

theorem execMemoryWrite_faults (hp : s.packet k = some p) (htyp : p.typ = .memWrite) (h : dramSize < p.addr + p.payload.length) :
    execMemoryWrite k .none s = .fault (.dramAddress p.addr) := by
  simp [execMemoryWrite, hp, htyp, h]

end

-- The arms' matches unify with the lemmas' matches only while they unfold to the case distinctions themselves.
set_option smartUnfolding false in
theorem exec_completes {c : Instr} {s : State} (h : beyondMemory s c = false) : Completes (exec c s) := by
  cases c with
  | spareSubstitute | coreStart | coreStop | coreHalt | coreResume | coreStep | pfFlr | dramRound | cnpStop |
    ctxDefine | ctxEnroll | ctxRevoke | ctxSwap | ctxDestroy | attest | keyRotate | relRead | keyRelease |
    certRead | settlingEnd | attestTimeout | getMeasurements | barrierLinkDown | fieldBrownoutEnd |
    frstNRelease | hkAospSend | deviceReset | stopCommand | cnpCommit | mgtCommit =>
    exact .next
  | registerWrite | lowWordRead | rcFieldRead | counterClear | calValidExpiry | transferSweep | sweepStart |
    rowVisit | sweepEnd | bulkLoad | calPassDone | startupPass | cellZeroDone | spareActivate | rstCalPass |
    passportSnap | debugEnter | debugExit | sqDoorbell | cqDoorbell | descriptorTake | releaseComplete | vfFlr
    | busMasterEnable | ringStop | ringStopped | fabCommit | cnpStart | portTrained | fenceRetry |
    cnpAckTimeout | portDown | modelDigestTimer | dwellEnd | katRun | katNow | relCommit | rotationTimer |
    rotationDone | frameBoundary | stopInterface | tdiError | keepCommit | lockInterface | startInterface |
    barrierLinkUp | barrierRetxTimeout | hostLost | fieldLost | fieldBrownout | frstNAssert | fieldReady |
    fieldWatchdog | triggerEdge | encoderFaultClear | rejectOn | rejectOff | maxOnExpiry | vpWriteAck |
    spiRead | spiAck | proxyWrite | proxyRead | fldGwCommit | fldCommit | fadcStart | fadcStop | fadcCal |
    calStore | entryResult | fadcCommit | monitorReport | fdacSet | updateApply | fdacCommit | openLoop |
    openLoopClear | hkEntryResult | hkCommit | fieldTempLost | hostPowerOn | perstDeassert | conventionalReset
    | coreReset | mgtWatchdog | thermalWithdraw | guardEnd | thermalTrip | overpowerClear | glbThmCommit |
    hostPowerLoss | housekeepingStale | recoveryImage =>
    exact .guard .next
  | heartbeat | hostPresent | itemCreated | verdictMsg | retraction | setpointGpo | setpointAnalogue |
    adcReport | stateMsg | retractionResult | fieldEventMsg | positionsMsg | configWrite | configReadReply |
    firmwareData | firmwareCommand | firmwareResult =>
    exact .found fun _ => .guard .next
  | hello | claimModule | subscribe | eventAck | faultAck | telemetryCfg | regRead | regWrite | ringCmd |
    keepCmd | fwStage | fwActivate | fwCommit | fwRollback | unitRetire | unitRetest | unitRecal |
    passportRead | repair | peerList | anchorSet | timeSet | configExport | configImport =>
    exact .found fun _ => .guard (.guard (.guard .next))
  | seqNop | seta | adda | loop | nop | areaRead | itemLookup | decayCertified | nvWriteDone =>
    exact .found fun _ => .next
  | bitPlaneCycle | vectorComplete | drainSweep | modelDigestForm | drain | sendEmit | scrw | vop | fence |
    outh | suspend | bind | areaFree | slowRead | keyRenewal | add | bindingTimeout | releaseTimeout |
    pageScrubDone | cutoffReached | recordFree | deglitchHoldEnd | drainEnd | sessionIdleTimeout |
    telemetryTimer | fwHoldTimeout | retestDone =>
    exact .found fun _ => .guard .next
  | rstCommit | atsInvalidate | ringStart | ringCommit | linkRetrain | patrolScrub | initFrame | moduleFault |
    heartbeatTimer | encoderFault | laneEnable | laneDisable | auxSupplyFail =>
    exact .guard (.guard .next)
  | itemEntry | irqModTimer | proxyReadTimeout =>
    exact .cons fun _ _ => .guard .next
  | bankSwitch | keyOffer =>
    exact .guard (.found fun _ => .next)
  | chunkFetchDone =>
    exact .both fun _ _ => .guard .next
  | repairDone =>
    exact .both fun _ _ => .both fun _ _ => .next
  | splitReplay =>
    exact .found fun _ => .cons fun _ _ => .next
  | accessDiscarded | scratchRowExpire | issue | verdict | release | resume | receiptTimeout |
    cnpReceiptTimeout | cnpRetraction | modelVerifyDone | decayTimeout | fadcCalDone =>
    exact .found fun _ => .guard (.guard .next)
  | epochClose | itemCredit | bindingEnd =>
    exact .found fun _ => .guard (.found fun _ => .next)
  | engCfgWrite | cadCfgWrite =>
    exact .guard (.guard (.guard .next))
  | fetch | wback =>
    exact .found fun _ => .found fun _ => .guard .next
  | failoverJoin =>
    exact .both fun _ _ => .found fun _ => .guard .next
  | oldPlacementRelease =>
    exact .found fun _ => .both fun _ _ => .guard .next
  | calibrationCycle =>
    exact .guard (.found fun _ => .guard .next)
  | stageSwitchAdvance | rangeWindow =>
    exact .found fun _ => .both fun _ _ => .guard (.guard .next)
  | genVerifyDone | signal =>
    exact .found fun _ => .found fun _ => .guard (.guard .next)
  | send =>
    exact .found fun _ => .guard (.guard (.guard .next))
  | cadenceSlot =>
    exact .guard (.ite (.found fun _ => .guard .next) .next)
  | areaWrite =>
    exact .found fun _ => .guard (.found fun _ => .found fun _ => .next)
  | sampleCompare =>
    exact .both fun _ _ => .guard (.guard (.guard .next))
  | modelDigestPacket =>
    exact .found fun _ => .guard (.found fun _ => .guard .next)
  | keyConfirm =>
    exact .guard (.both fun _ _ => .guard (.guard .next))
  | peerWindow =>
    exact .found fun _ => .guard (.ite (.guard .next) .next)
  | barrierFrameRx =>
    exact .guard (.guard (.guard (.guard .next)))
  | load | checkRerun =>
    exact .found fun _ => .guard (.guard (.guard (.guard .next)))
  | bindingQuery =>
    exact .found fun _ => .ite (.found fun _ => .next) (.ite (.cons fun _ _ => .next) .next)
  | unload =>
    exact .found fun _ => .guard (.found fun _ => .guard (.guard .next))
  | sessionHandshake =>
    exact .guard (.guard (.ite (.found fun _ => .next) (.guard .next)))
  | waitc =>
    exact .found fun _ => .guard (.guard (.found fun _ => .guard .next))
  | bindingReply =>
    exact .found fun _ => .guard (.ite (.found fun _ => .found fun _ => .next) .next)
  | cnpFrameRx =>
    exact .guard (.guard (.found fun _ => .found fun _ => .guard (.guard (.guard .next))))
  | switch =>
    exact .found fun _ => .found fun _ => .found fun _ => .guard (.guard (.guard (.guard .next)))
  | admitLane =>
    exact .found fun _ => .guard (.found fun _ => .guard (.guard (.guard (.guard .next))))
  | receipt =>
    exact .found fun _ => .guard (.option (.ite .next (.found fun _ => .ite .next (.guard (.guard .next)))) fun _ => .next)
  | claim | waitGe =>
    exact (.found fun | (_, _, .inl _) => .guard .next | (_, _, .inr _) => .next)
  | peek =>
    exact .found fun _ => .guard (.found fun | (_, _, .inl _) => .next | (_, _, .inr _) => .next)
  | spanChangeEnd => exact execSpanChangeEnd_completes
  | spanSwitch => exact execSpanSwitch_completes
  | vectorPacket k damage | exitPart k damage =>
    refine .found fun _ => .guard ?_
    cases damage with
    | none => exact .guard .next
    | header | payload => exact .next
  | groupTransfer k damage =>
    refine .found fun _ => .guard ?_
    cases damage with
    | none => exact .guard (.guard .next)
    | header | payload => exact .next
  | kpartPacket k damage =>
    refine .found fun _ => .guard ?_
    cases damage with
    | none | header | payload => exact .next
  | readData k damage =>
    refine .found fun _ => .guard ?_
    cases damage with
    | none => exact .found fun _ => .guard (.found fun _ => .next)
    | header | payload => exact .next
  | firstPacketTake =>
    exact .cons fun _ _ => .guard (.guard (.found fun _ => .next))
  | item =>
    exact .found fun _ => .found fun _ => .guard (.found fun _ => .next)
  | clockLoss clock =>
    cases clock with
    | canopy => exact .guard (.guard .next)
    | field | keep | array | core | fabric | dram | pcie | housekeeping => exact .guard .next
  | bulkLoadDone =>
    refine .found fun _ => .guard ?_
    split
    · exact .next
    · exact .found fun _ => .next
    · exact .next
    · exact .next
  | hostReadFail =>
    refine .found fun _ => ?_
    split
    · exact .next
    · exact .guard .next
  | descriptorReadFail =>
    refine .found fun _ => ?_
    split
    · exact .guard .next
    · exact .next
  | fwReadyTimeout =>
    refine .found fun _ => .guard (.ite ?_ (.guard .next))
    split
    · exact .next
    · exact .next
    · exact .next
  | fwReady =>
    refine .found fun _ => .guard (.guard ?_)
    split
    · exact .next
    · exact .next
    · exact .next
  | coreFailed =>
    refine .guard ?_
    split
    · exact .guard (.found fun _ => .next)
    · exact .guard .next
    · exact .guard .next
  | loadComplete =>
    refine .found fun _ => .guard ?_
    split
    · exact .next
    · exact .next
    · exact .next
    · exact .next
  | coreVectorBoundary =>
    refine .guard ?_
    split
    · exact .next
    · exact .next
    · exact .next
  | hostReadCompletion =>
    refine .found fun _ => .ite (.guard .next) ?_
    split
    · exact .next
    · exact .next
    · exact .next
    · exact .next
    · exact .found fun _ => .next
  | endEntry =>
    refine .found fun _ => ?_
    split
    · exact .next
    · exact .next
    · exact .next
    · exact .next
  | vecEntry c err =>
    refine .guard (.found fun _ => ?_)
    cases err with
    | none | single | double => exact .next
  | sramScrub => exact execSramScrub_completes h
  | memoryRead => exact execMemoryRead_completes h
  | memoryWrite => exact execMemoryWrite_completes h

/-- The three accesses that `beyondMemory` names. -/
theorem beyondMemory_cases {c : Instr} {s : State} (h : beyondMemory s c = true) :
    (∃ (k w : Nat) (x : EccErr), c = .sramScrub k w x ∧ sramSize ≤ w * 8) ∨
    (∃ (k : Nat) (x : EccErr) (p : Packet), c = .memoryRead ⟨k, none⟩ x ∧ s.packet k = some p ∧ p.typ = .memRead ∧
      dramSize < p.addr + p.len) ∨
    (∃ (k : Nat) (p : Packet), c = .memoryWrite k .none ∧ s.packet k = some p ∧ p.typ = .memWrite ∧
      dramSize < p.addr + p.payload.length) := by
  unfold beyondMemory at h
  split at h
  · next k w x => exact .inl ⟨k, w, x, rfl, of_decide_eq_true h⟩
  · next k x =>
    obtain ⟨p, hp, hbeyond⟩ := (Option.any_eq_true _ _).mp h
    exact .inr (.inl ⟨k, x, p, rfl, hp, by simpa using hbeyond⟩)
  · next k =>
    obtain ⟨p, hp, hbeyond⟩ := (Option.any_eq_true _ _).mp h
    exact .inr (.inr ⟨k, p, rfl, hp, by simpa using hbeyond⟩)
  · exact absurd h Bool.false_ne_true

/-! ### The parts that a command may change -/

/-- A command whose frame fits the parts that its row lists changes those parts alone. -/
theorem ChgR.within {m : Nat} {s : State} {r : Res} {ps : List StatePart} (h : ChgR m s r)
    (hs : Sub m (maskOf ps) = true := by dsimp only [mayChange]; rfl) : ChgR (maskOf ps) s r :=
  h.step hs (Chg.refl _ _)

theorem exec_within (c : Instr) (s : State) : ChgR (maskOf (mayChange c)) s (exec c s) := by
  cases c with
  | registerWrite => exact .within (execRegisterWrite_chg _ _ _)
  | lowWordRead => exact .within (execLowWordRead_chg _ _)
  | rcFieldRead => exact .within (execRcFieldRead_chg _ _)
  | accessDiscarded => exact .within (execAccessDiscarded_chg _ _)
  | counterClear => exact .within (execCounterClear_chg _ _ _)
  | bitPlaneCycle => exact .within (execBitPlaneCycle_chg _ _ _ _)
  | splitReplay => exact .within (execSplitReplay_chg _ _ _ _)
  | vectorComplete => exact .within (execVectorComplete_chg _ _ _)
  | engCfgWrite => exact .within (execEngCfgWrite_chg _ _ _ _)
  | calValidExpiry => exact .within (execCalValidExpiry_chg _ _ _)
  | transferSweep => exact .within (execTransferSweep_chg _ _ _)
  | drainSweep => exact .within (execDrainSweep_chg _ _ _)
  | sweepStart => exact .within (execSweepStart_chg _ _)
  | rowVisit => exact .within (execRowVisit_chg _ _ _ _ _)
  | sweepEnd => exact .within (execSweepEnd_chg _ _ _)
  | bulkLoad => exact .within (execBulkLoad_chg _ _ _ _)
  | bulkLoadDone => exact .within (execBulkLoadDone_chg _ _)
  | calibrationCycle => exact .within (execCalibrationCycle_chg _ _ _ _ _ _)
  | calPassDone => exact .within (execCalPassDone_chg _ _ _ _)
  | startupPass => exact .within (execStartupPass_chg _ _)
  | cellZeroDone => exact .within (execCellZeroDone_chg _ _)
  | spareSubstitute => exact .within (execSpareSubstitute_chg _ _ _ _)
  | spareActivate => exact .within (execSpareActivate_chg _ _ _ _)
  | genVerifyDone => exact .within (execGenVerifyDone_chg _ _ _)
  | stageSwitchAdvance => exact .within (execStageSwitchAdvance_chg _ _ _ _)
  | oldPlacementRelease => exact .within (execOldPlacementRelease_chg _ _ _ _)
  | modelDigestForm => exact .within (execModelDigestForm_chg _ _ _)
  | rstCalPass => exact .within (execRstCalPass_chg _ _)
  | passportSnap => exact .within (execPassportSnap_chg _ _)
  | rstCommit => exact .within (execRstCommit_chg _ _)
  | coreStart => exact .within (execCoreStart_chg _ _)
  | coreStop => exact .within (execCoreStop_chg _ _)
  | coreHalt => exact .within (execCoreHalt_chg _ _)
  | coreResume => exact .within (execCoreResume_chg _ _)
  | coreStep => exact .within (execCoreStep_chg _ _)
  | coreVectorBoundary => exact .within (execCoreVectorBoundary_chg _ _)
  | cadenceSlot => exact .within (execCadenceSlot_chg _ _)
  | bankSwitch => exact .within (execBankSwitch_chg _ _)
  | cadCfgWrite => exact .within (execCadCfgWrite_chg _ _ _)
  | scratchRowExpire => exact .within (execScratchRowExpire_chg _ _ _ _)
  | sramScrub => exact .within (execSramScrub_chg _ _ _ _)
  | chunkFetchDone => exact .within (execChunkFetchDone_chg _ _ _ _)
  | debugEnter => exact .within (execDebugEnter_chg _ _)
  | debugExit => exact .within (execDebugExit_chg _ _)
  | vecEntry => exact .within (execVecEntry_chg _ _ _)
  | itemEntry => exact .within (execItemEntry_chg _ _)
  | seqNop => exact .within (execSeqNop_chg _ _ _)
  | endEntry => exact .within (execEndEntry_chg _ _ _)
  | seta => exact .within (execSeta_chg _ _ _)
  | adda => exact .within (execAdda_chg _ _ _)
  | loop => exact .within (execLoop_chg _ _ _)
  | issue => exact .within (execIssue_chg _ _ _)
  | drain => exact .within (execDrain_chg _ _ _)
  | send => exact .within (execSend_chg _ _ _)
  | sendEmit => exact .within (execSendEmit_chg _ _ _)
  | scrw => exact .within (execScrw_chg _ _ _)
  | vop => exact .within (execVop_chg _ _ _)
  | fetch => exact .within (execFetch_chg _ _ _)
  | wback => exact .within (execWback_chg _ _ _)
  | fence => exact .within (execFence_chg _ _ _)
  | signal => exact .within (execSignal_chg _ _ _)
  | waitc => exact .within (execWaitc_chg _ _)
  | verdict => exact .within (execVerdict_chg _ _ _)
  | outh => exact .within (execOuth_chg _ _ _)
  | sqDoorbell => exact .within (execSqDoorbell_chg _ _ _ _)
  | cqDoorbell => exact .within (execCqDoorbell_chg _ _ _ _)
  | descriptorTake => exact .within (execDescriptorTake_chg _ _ _)
  | item => exact .within (execItem_chg _ _ _)
  | nop => exact .within (execNop_chg _ _ _)
  | areaWrite => exact .within (execAreaWrite_chg _ _ _ _)
  | areaRead => exact .within (execAreaRead_chg _ _ _)
  | load => exact .within (execLoad_chg _ _ _)
  | loadComplete => exact .within (execLoadComplete_chg _ _ _)
  | unload => exact .within (execUnload_chg _ _ _)
  | admitLane => exact .within (execAdmitLane_chg _ _ _ _)
  | release => exact .within (execRelease_chg _ _ _)
  | releaseComplete => exact .within (execReleaseComplete_chg _ _)
  | suspend => exact .within (execSuspend_chg _ _ _)
  | resume => exact .within (execResume_chg _ _ _)
  | switch => exact .within (execSwitch_chg _ _ _)
  | peerWindow => exact .within (execPeerWindow_chg _ _ _ _)
  | bind => exact .within (execBind_chg _ _ _)
  | areaFree => exact .within (execAreaFree_chg _ _ _)
  | descriptorReadFail => exact .within (execDescriptorReadFail_chg _ _)
  | hostReadFail => exact .within (execHostReadFail_chg _ _)
  | slowRead => exact .within (execSlowRead_chg _ _ _)
  | irqModTimer => exact .within (execIrqModTimer_chg _ _ _)
  | atsInvalidate => exact .within (execAtsInvalidate_chg _ _ _ _)
  | vfFlr => exact .within (execVfFlr_chg _ _)
  | pfFlr => exact .within (execPfFlr_chg _)
  | busMasterEnable => exact .within (execBusMasterEnable_chg _ _)
  | ringStart => exact .within (execRingStart_chg _ _ _)
  | ringStop => exact .within (execRingStop_chg _ _ _)
  | ringStopped => exact .within (execRingStopped_chg _ _ _)
  | ringCommit => exact .within (execRingCommit_chg _ _ _)
  | linkRetrain => exact .within (execLinkRetrain_chg _ _ _ _)
  | itemLookup => exact .within (execItemLookup_chg _ _)
  | hostReadCompletion => exact .within (execHostReadCompletion_chg _ _ _ _)
  | firstPacketTake => exact .within (execFirstPacketTake_chg _ _)
  | vectorPacket => exact .within (execVectorPacket_chg _ _ _)
  | kpartPacket => exact .within (execKpartPacket_chg _ _ _)
  | exitPart => exact .within (execExitPart_chg _ _ _)
  | groupTransfer => exact .within (execGroupTransfer_chg _ _ _)
  | epochClose => exact .within (execEpochClose_chg _ _)
  | memoryRead => exact .within (execMemoryRead_chg _ _ _)
  | memoryWrite => exact .within (execMemoryWrite_chg _ _ _)
  | readData => exact .within (execReadData_chg _ _ _)
  | receipt => exact .within (execReceipt_chg _ _)
  | receiptTimeout => exact .within (execReceiptTimeout_chg _ _)
  | patrolScrub => exact .within (execPatrolScrub_chg _ _ _ _)
  | dramRound => exact .within (execDramRound_chg _)
  | fabCommit => exact .within (execFabCommit_chg _)
  | cnpStart => exact .within (execCnpStart_chg _)
  | cnpStop => exact .within (execCnpStop_chg _)
  | portTrained => exact .within (execPortTrained_chg _ _)
  | initFrame => exact .within (execInitFrame_chg _ _ _)
  | keyOffer => exact .within (execKeyOffer_chg _ _ _)
  | keyConfirm => exact .within (execKeyConfirm_chg _ _ _)
  | fenceRetry => exact .within (execFenceRetry_chg _ _)
  | cnpFrameRx => exact .within (execCnpFrameRx_chg _ _ _)
  | cnpAckTimeout => exact .within (execCnpAckTimeout_chg _ _)
  | portDown => exact .within (execPortDown_chg _ _)
  | keyRenewal => exact .within (execKeyRenewal_chg _ _)
  | moduleFault => exact .within (execModuleFault_chg _ _ _)
  | cnpReceiptTimeout => exact .within (execCnpReceiptTimeout_chg _ _)
  | add => exact .within (execAdd_chg _ _)
  | claim => exact .within (execClaim_chg _ _)
  | waitGe => exact .within (execWaitGe_chg _ _)
  | peek => exact .within (execPeek_chg _ _)
  | cnpRetraction => exact .within (execCnpRetraction_chg _ _)
  | modelDigestPacket => exact .within (execModelDigestPacket_chg _ _)
  | modelDigestTimer => exact .within (execModelDigestTimer_chg _)
  | bindingQuery => exact .within (execBindingQuery_chg _ _)
  | bindingReply => exact .within (execBindingReply_chg _ _)
  | bindingTimeout => exact .within (execBindingTimeout_chg _ _)
  | itemCredit => exact .within (execItemCredit_chg _ _)
  | bindingEnd => exact .within (execBindingEnd_chg _ _)
  | dwellEnd => exact .within (execDwellEnd_chg _ _)
  | sampleCompare => exact .within (execSampleCompare_chg _ _)
  | checkRerun => exact .within (execCheckRerun_chg _ _)
  | katRun => exact .within (execKatRun_chg _ _ _)
  | katNow => exact .within (execKatNow_chg _ _)
  | rangeWindow => exact .within (execRangeWindow_chg _ _ _)
  | coreFailed => exact .within (execCoreFailed_chg _ _ _)
  | failoverJoin => exact .within (execFailoverJoin_chg _ _)
  | repairDone => exact .within (execRepairDone_chg _ _ _)
  | modelVerifyDone => exact .within (execModelVerifyDone_chg _ _ _)
  | relCommit => exact .within (execRelCommit_chg _)
  | ctxDefine => exact .within (execCtxDefine_chg _)
  | ctxEnroll => exact .within (execCtxEnroll_chg _)
  | ctxRevoke => exact .within (execCtxRevoke_chg _)
  | ctxSwap => exact .within (execCtxSwap_chg _)
  | ctxDestroy => exact .within (execCtxDestroy_chg _)
  | attest => exact .within (execAttest_chg _)
  | keyRotate => exact .within (execKeyRotate_chg _)
  | relRead => exact .within (execRelRead_chg _)
  | keyRelease => exact .within (execKeyRelease_chg _)
  | certRead => exact .within (execCertRead_chg _)
  | releaseTimeout => exact .within (execReleaseTimeout_chg _ _)
  | rotationTimer => exact .within (execRotationTimer_chg _ _)
  | rotationDone => exact .within (execRotationDone_chg _ _)
  | pageScrubDone => exact .within (execPageScrubDone_chg _ _)
  | frameBoundary => exact .within (execFrameBoundary_chg _ _)
  | decayCertified => exact .within (execDecayCertified_chg _ _)
  | decayTimeout => exact .within (execDecayTimeout_chg _ _)
  | settlingEnd => exact .within (execSettlingEnd_chg _)
  | attestTimeout => exact .within (execAttestTimeout_chg _)
  | getMeasurements => exact .within (execGetMeasurements_chg _ _)
  | stopInterface => exact .within (execStopInterface_chg _ _)
  | tdiError => exact .within (execTdiError_chg _ _)
  | keepCommit => exact .within (execKeepCommit_chg _)
  | lockInterface => exact .within (execLockInterface_chg _ _)
  | startInterface => exact .within (execStartInterface_chg _ _ _)
  | barrierLinkUp => exact .within (execBarrierLinkUp_chg _)
  | barrierLinkDown => exact .within (execBarrierLinkDown_chg _)
  | barrierFrameRx => exact .within (execBarrierFrameRx_chg _ _ _)
  | barrierRetxTimeout => exact .within (execBarrierRetxTimeout_chg _ _)
  | heartbeatTimer => exact .within (execHeartbeatTimer_chg _ _ _)
  | heartbeat => exact .within (execHeartbeat_chg _ _)
  | hostLost => exact .within (execHostLost_chg _)
  | hostPresent => exact .within (execHostPresent_chg _)
  | fieldLost => exact .within (execFieldLost_chg _)
  | itemCreated => exact .within (execItemCreated_chg _)
  | verdictMsg => exact .within (execVerdictMsg_chg _)
  | retraction => exact .within (execRetraction_chg _)
  | setpointGpo => exact .within (execSetpointGpo_chg _)
  | setpointAnalogue => exact .within (execSetpointAnalogue_chg _)
  | adcReport => exact .within (execAdcReport_chg _)
  | stateMsg => exact .within (execStateMsg_chg _ _)
  | retractionResult => exact .within (execRetractionResult_chg _)
  | fieldEventMsg => exact .within (execFieldEventMsg_chg _)
  | positionsMsg => exact .within (execPositionsMsg_chg _)
  | configWrite => exact .within (execConfigWrite_chg _)
  | configReadReply => exact .within (execConfigReadReply_chg _)
  | firmwareData => exact .within (execFirmwareData_chg _)
  | firmwareCommand => exact .within (execFirmwareCommand_chg _)
  | firmwareResult => exact .within (execFirmwareResult_chg _)
  | fieldBrownout => exact .within (execFieldBrownout_chg _)
  | fieldBrownoutEnd => exact .within (execFieldBrownoutEnd_chg _)
  | frstNAssert => exact .within (execFrstNAssert_chg _)
  | frstNRelease => exact .within (execFrstNRelease_chg _)
  | fieldReady => exact .within (execFieldReady_chg _ _ _)
  | fieldWatchdog => exact .within (execFieldWatchdog_chg _)
  | triggerEdge => exact .within (execTriggerEdge_chg _ _ _ _)
  | encoderFault => exact .within (execEncoderFault_chg _ _ _)
  | encoderFaultClear => exact .within (execEncoderFaultClear_chg _ _ _)
  | cutoffReached => exact .within (execCutoffReached_chg _ _ _ _)
  | rejectOn => exact .within (execRejectOn_chg _ _ _ _)
  | rejectOff => exact .within (execRejectOff_chg _ _ _ _)
  | maxOnExpiry => exact .within (execMaxOnExpiry_chg _ _)
  | recordFree => exact .within (execRecordFree_chg _ _ _ _)
  | laneEnable => exact .within (execLaneEnable_chg _ _)
  | laneDisable => exact .within (execLaneDisable_chg _ _)
  | vpWriteAck => exact .within (execVpWriteAck_chg _ _ _)
  | spiRead => exact .within (execSpiRead_chg _ _ _)
  | spiAck => exact .within (execSpiAck_chg _ _ _)
  | proxyWrite => exact .within (execProxyWrite_chg _ _ _)
  | proxyRead => exact .within (execProxyRead_chg _ _)
  | proxyReadTimeout => exact .within (execProxyReadTimeout_chg _)
  | fldGwCommit => exact .within (execFldGwCommit_chg _)
  | fldCommit => exact .within (execFldCommit_chg _ _)
  | nvWriteDone => exact .within (execNvWriteDone_chg _ _)
  | fadcStart => exact .within (execFadcStart_chg _ _)
  | fadcStop => exact .within (execFadcStop_chg _)
  | fadcCal => exact .within (execFadcCal_chg _)
  | fadcCalDone => exact .within (execFadcCalDone_chg _ _)
  | calStore => exact .within (execCalStore_chg _)
  | entryResult => exact .within (execEntryResult_chg _ _ _)
  | fadcCommit => exact .within (execFadcCommit_chg _)
  | monitorReport => exact .within (execMonitorReport_chg _ _ _ _)
  | fdacSet => exact .within (execFdacSet_chg _ _)
  | updateApply => exact .within (execUpdateApply_chg _ _)
  | deglitchHoldEnd => exact .within (execDeglitchHoldEnd_chg _ _)
  | fdacCommit => exact .within (execFdacCommit_chg _ _)
  | spanSwitch => exact .within (execSpanSwitch_chg _ _)
  | spanChangeEnd => exact .within (execSpanChangeEnd_chg _ _)
  | openLoop => exact .within (execOpenLoop_chg _ _)
  | openLoopClear => exact .within (execOpenLoopClear_chg _ _)
  | hkEntryResult => exact .within (execHkEntryResult_chg _ _ _ _)
  | hkCommit => exact .within (execHkCommit_chg _)
  | hkAospSend => exact .within (execHkAospSend_chg _ _)
  | fieldTempLost => exact .within (execFieldTempLost_chg _)
  | hostPowerOn => exact .within (execHostPowerOn_chg _ _ _)
  | perstDeassert => exact .within (execPerstDeassert_chg _)
  | conventionalReset => exact .within (execConventionalReset_chg _)
  | deviceReset => exact .within (execDeviceReset_chg _ _ _)
  | coreReset => exact .within (execCoreReset_chg _ _)
  | stopCommand => exact .within (execStopCommand_chg _)
  | drainEnd => exact .within (execDrainEnd_chg _)
  | mgtWatchdog => exact .within (execMgtWatchdog_chg _)
  | clockLoss => exact .within (execClockLoss_chg _ _)
  | thermalWithdraw => exact .within (execThermalWithdraw_chg _ _)
  | guardEnd => exact .within (execGuardEnd_chg _ _)
  | thermalTrip => exact .within (execThermalTrip_chg _)
  | auxSupplyFail => exact .within (execAuxSupplyFail_chg _)
  | overpowerClear => exact .within (execOverpowerClear_chg _)
  | glbThmCommit => exact .within (execGlbThmCommit_chg _)
  | cnpCommit => exact .within (execCnpCommit_chg _)
  | hostPowerLoss => exact .within (execHostPowerLoss_chg _)
  | housekeepingStale => exact .within (execHousekeepingStale_chg _)
  | recoveryImage => exact .within (execRecoveryImage_chg _ _)
  | sessionHandshake => exact .within (execSessionHandshake_chg _ _ _)
  | sessionIdleTimeout => exact .within (execSessionIdleTimeout_chg _ _)
  | telemetryTimer => exact .within (execTelemetryTimer_chg _ _)
  | fwReady => exact .within (execFwReady_chg _)
  | fwReadyTimeout => exact .within (execFwReadyTimeout_chg _)
  | fwHoldTimeout => exact .within (execFwHoldTimeout_chg _)
  | retestDone => exact .within (execRetestDone_chg _ _)
  | mgtCommit => exact .within (execMgtCommit_chg _)
  | hello => exact .within (execHello_chg _ _)
  | claimModule => exact .within (execClaimModule_chg _ _)
  | subscribe => exact .within (execSubscribe_chg _ _)
  | eventAck => exact .within (execEventAck_chg _ _)
  | faultAck => exact .within (execFaultAck_chg _ _)
  | telemetryCfg => exact .within (execTelemetryCfg_chg _ _)
  | regRead => exact .within (execRegRead_chg _ _)
  | regWrite => exact .within (execRegWrite_chg _ _)
  | ringCmd => exact .within (execRingCmd_chg _ _)
  | keepCmd => exact .within (execKeepCmd_chg _ _)
  | fwStage => exact .within (execFwStage_chg _ _)
  | fwActivate => exact .within (execFwActivate_chg _ _)
  | fwCommit => exact .within (execFwCommit_chg _ _)
  | fwRollback => exact .within (execFwRollback_chg _ _)
  | unitRetire => exact .within (execUnitRetire_chg _ _)
  | unitRetest => exact .within (execUnitRetest_chg _ _)
  | unitRecal => exact .within (execUnitRecal_chg _ _)
  | passportRead => exact .within (execPassportRead_chg _ _)
  | repair => exact .within (execRepair_chg _ _)
  | peerList => exact .within (execPeerList_chg _ _)
  | anchorSet => exact .within (execAnchorSet_chg _ _)
  | timeSet => exact .within (execTimeSet_chg _ _)
  | configExport => exact .within (execConfigExport_chg _ _)
  | configImport => exact .within (execConfigImport_chg _ _)

theorem two_le_partNum (p : StatePart) : 2 ≤ partNum p := by
  cases p with
  | regs b => exact le_add_right (by decide)
  | _ => decide

/-- No part is that of the queue or of the time. -/
theorem maskOf_testBit_of_lt_two {ps : List StatePart} {k : Nat} (hk : k < 2) : (maskOf ps).testBit k = false := by
  refine Bool.eq_false_iff.mpr fun h => ?_
  obtain rfl | ⟨p, -, rfl⟩ := maskOf_bit h
  · exact absurd hk (by decide)
  · exact absurd hk (two_le_partNum p).not_gt

theorem exec_changesOnly {c : Instr} {s t : State} (h : exec c s = .next t) : ChangesOnly (mayChange c) s t :=
  changesOnly_of_chg (exec_within c s t h) (Sub.refl _) (maskOf_testBit_of_lt_two (by decide)) (maskOf_testBit_of_lt_two (by decide))

/-! ### The machine as a whole (R155, R199, R201) -/

theorem State.memWf_of_chg {m : Nat} {s t : State} (h : Chg m s t) (hs : s.memWf = true) : t.memWf = true := by
  rw [State.memWf, Bool.and_eq_true] at *
  exact ⟨h.dramWf hs.1, h.sramWf hs.2⟩

/-- Settles O58: a tick and every command lie in a frame (`State.tick_chg`, `exec_within`), and what lies in a frame keeps
the canonical form of both memories. -/
theorem everyStepKeepsTheMemoriesCanonical : Obligations.every_step_keeps_the_memories_canonical := by
  unfold Obligations.every_step_keeps_the_memories_canonical
  intro s t hwf hstep
  unfold step at hstep
  split at hstep
  · cases hstep
    exact State.memWf_of_chg s.tick_chg hwf
  · next c rest _ => exact State.memWf_of_chg (exec_within c { s with pending := rest } t hstep) hwf

/-- Settles O60: every arm ends in a next state where the access lies within its memory (`exec_completes`), inside the
frame of its row (`exec_changesOnly`), and the three accesses beyond an end fault. -/
theorem nothingIsRefusedAndOnlyMemoryFaults : Obligations.nothing_is_refused_and_only_memory_faults := by
  unfold Obligations.nothing_is_refused_and_only_memory_faults
  refine ⟨fun c s hin => ?_, fun c s => ?_⟩
  · obtain ⟨t, ht⟩ := exec_completes hin
    exact ⟨t, ht, exec_changesOnly ht⟩
  · cases hb : beyondMemory s c with
    | false =>
      obtain ⟨t, ht⟩ := exec_completes hb
      rw [ht]
      exact ⟨nofun, nofun⟩
    | true =>
      rcases beyondMemory_cases hb with ⟨k, w, x, rfl, hw⟩ | ⟨k, x, p, rfl, hp, htyp, hlt⟩ | ⟨k, p, rfl, hp, htyp, hlt⟩
      · have hf : exec (.sramScrub k w x) s = .fault (.sramAddress (w * 8)) := execSramScrub_faults hw
        rw [hf]
        exact ⟨nofun, fun e he => .inl ⟨k, w, x, rfl, hw, by cases he; rfl⟩⟩
      · have hf : exec (.memoryRead ⟨k, none⟩ x) s = .fault (.dramAddress p.addr) := execMemoryRead_faults hp htyp hlt
        rw [hf]
        exact ⟨nofun, fun e he => .inr (.inl ⟨k, x, p, rfl, hp, hlt, by cases he; rfl⟩)⟩
      · have hf : exec (.memoryWrite k .none) s = .fault (.dramAddress p.addr) := execMemoryWrite_faults hp htyp hlt
        rw [hf]
        exact ⟨nofun, fun e he => .inr (.inr ⟨k, p, rfl, hp, hlt, by cases he; rfl⟩)⟩

end Sys2Proof.Machine

/-! SUPPORT. The stage sequencer's entries and the instructions that move a thread on (R164 to R168), the program's counter
operations, verdicts and outputs (R170, R319, R324), and the statements about them. -/

namespace Sys2Proof.Machine

/-! ### What moving on leaves of a core's sequencer (R164, R187) -/

/-- A thread past its instruction, stopped at the breakpoint or not. -/
def Thread.stepped (x : Thread) (b : Bool) : Thread :=
  { x with pc := (stepPc x.pc x.loops).1, loops := (stepPc x.pc x.loops).2, draining := false, stalled := false, atBreak := b }

section
variable {s t : State} {c : Nat} {th : Thr}

theorem State.thread_of_seq (h : t.seq c = s.seq c) : t.thread c th = s.thread c th := by
  cases th with
  | vec => exact congrArg Sequencer.vec h
  | itm => exact congrArg Sequencer.itm h

@[simp] theorem State.setThread_regs (s : State) (c : Nat) (th : Thr) (x : Thread) :
    ((s.setThread c th x).seq c).regs = (s.seq c).regs := by
  cases th <;> simp [State.setThread]

theorem State.setThread_thread (s : State) (c : Nat) (th : Thr) :
    (s.setThread c th (s.thread c th)).seq c = s.seq c := by
  cases th <;> exact State.seq_setSeq ..

theorem State.setThread_setThread (s : State) (c : Nat) (th : Thr) (x y : Thread) :
    ((s.setThread c th x).setThread c th y).seq c = (s.setThread c th y).seq c := by
  cases th <;> simp [State.setThread]

/-- The breakpoint of R187 marks the thread and changes no more of its sequencer. -/
theorem State.checkBreak_seq (s : State) (c : Nat) (th : Thr) :
    ∃ b, (s.checkBreak c th).seq c = (s.setThread c th { s.thread c th with atBreak := b }).seq c := by
  unfold State.checkBreak
  extract_lets x k s1 s2
  split
  · refine ⟨true, (State.seq_congr ((State.log_chg s2 _).seqs.resolve_left (by decide)) c).trans ?_⟩
    cases th <;> rfl
  · exact ⟨x.atBreak, (s.setThread_thread c th).symm⟩

/-- Moving on steps the thread and changes no more of its sequencer. -/
theorem State.next_seq (s : State) (c : Nat) (th : Thr) :
    ∃ b, (s.next c th).seq c = (s.setThread c th ((s.thread c th).stepped b)).seq c := by
  unfold State.next
  extract_lets x p
  obtain ⟨b, hbreak⟩ := State.checkBreak_seq (s.setThread c th _) c th
  refine ⟨b, ?_⟩
  rw [hbreak, State.thread_setThread, State.setThread_setThread]
  rfl

theorem State.next_thread (s : State) (c : Nat) (th : Thr) :
    ∃ b, (s.next c th).thread c th = (s.thread c th).stepped b := by
  obtain ⟨b, hseq⟩ := s.next_seq c th
  exact ⟨b, (State.thread_of_seq hseq).trans (s.thread_setThread c th _)⟩

@[simp] theorem State.next_regs (s : State) (c : Nat) (th : Thr) : ((s.next c th).seq c).regs = (s.seq c).regs := by
  obtain ⟨b, hseq⟩ := s.next_seq c th
  rw [hseq, State.setThread_regs]

@[simp] theorem State.next_areg (s : State) (c : Nat) (th : Thr) (r : Nat) :
    (s.next c th).areg c th r = s.areg c th r := by
  obtain ⟨b, hthread⟩ := s.next_thread c th
  have ha1 : ((s.next c th).thread c th).a1 = (s.thread c th).a1 := by
    rw [hthread]
    rfl
  rw [State.areg, ha1, State.next_regs, State.areg]

/-- A thread moves on from where it stands, whatever else of it the instruction has changed. -/
theorem State.next_moved_of (hpc : (t.thread c th).pc = (s.thread c th).pc)
    (hloops : (t.thread c th).loops = (s.thread c th).loops) : Moved c th s (t.next c th) := by
  obtain ⟨b, hthread⟩ := t.next_thread c th
  rw [Moved, hthread, Thread.stepped, hpc, hloops]

/-- A record of the log withdraws nothing that has gone out. -/
theorem State.log_out (s : State) (e : Ev) : s.out <+: (s.log e).out := by
  unfold State.log
  extract_lets q r s1 s2 s3 ps mgmt s4
  have hcount : s1.out = s.out := by
    unfold s1
    split
    · exact (State.count_chg ..).out.resolve_left (by decide)
    · rfl
  rw [(State.notifyHost_chg s4 e.code).out.resolve_left (by decide), ← hcount]
  exact List.prefix_append ..

theorem State.checkBreak_out (s : State) (c : Nat) (th : Thr) : s.out <+: (s.checkBreak c th).out := by
  unfold State.checkBreak
  extract_lets x k s1 s2
  split
  · have hmark : s2.out = s.out := (State.setThread_chg s1 ..).out.resolve_left (by decide)
    exact hmark ▸ s2.log_out _
  · exact List.prefix_rfl

theorem State.next_out (s : State) (c : Nat) (th : Thr) : s.out <+: (s.next c th).out := by
  have hthread (x : Thread) : (s.setThread c th x).out = s.out := (State.setThread_chg ..).out.resolve_left (by decide)
  exact hthread _ ▸ State.checkBreak_out ..

end

/-! ### Entries (R164 to R167) -/

section
variable {s : State} {c w : Nat} {v : VecIn} {d : ItemDue} {r : List ItemDue}

/-- The thread that a VEC entry begins with. -/
def vecThread (pc : Nat) (v : VecIn) : Thread :=
  { Thread.empty with entry := .vec, pc := pc, lane := v.lane, item := v.item, index := v.index, a1 := v.addr }

/-- VEC_ENTRY: the thread begins at the stage's VEC program; what is noted of the vector lies outside the sequencer. -/
theorem execVecEntry_begins (hidle : (s.seq c).vec.entry = .idle) (hruns : s.slotsRun c = true)
    (hmay : s.mayBegin c = true)
    (hfree : (issueEngines (s.seq c).pm 2048 (s.fget F.SEQ_PROG_VEC_PC c)).all (fun e => (s.engine c e).next.isNone) = true)
    (hready : oldestReady (s.core c).vins [] = some v) :
    Does (.vecEntry c .none) s (fun t =>
      ∃ b, (t.seq c).vec = { vecThread (s.fget F.SEQ_PROG_VEC_PC c) v with atBreak := b }) := by
  have hnone : (issueEngines (s.seq c).pm 2048 (s.fget F.SEQ_PROG_VEC_PC c)).any (fun e => (s.engine c e).next.isSome)
      = false := by
    simpa using hfree
  let s1 := s.setCore c { s.core c with vins := (s.core c).vins.map (fun x =>
    if x.lane = v.lane ∧ x.item = v.item ∧ x.index = v.index then { x with taken := true } else x) }
  let s2 := s1.setThread c .vec (vecThread (s.fget F.SEQ_PROG_VEC_PC c) v)
  let s3 := (s2.noteServed c v.lane v.item).noteStaged c .vec
  have hseqs : s3.seqs = s2.seqs :=
    ((State.noteStaged_chg ..).seqs.resolve_left (by decide)).trans ((State.noteServed_chg ..).seqs.resolve_left (by decide))
  refine ⟨s3.checkBreak c .vec, ?_, ?_⟩
  · simp [exec, execVecEntry, hidle, hruns, hmay, hnone, hready, s3, s2, s1, vecThread]
  · obtain ⟨b, hbreak⟩ := s3.checkBreak_seq c .vec
    refine ⟨b, (State.thread_of_seq (th := .vec) hbreak).trans ?_⟩
    rw [State.thread_setThread, State.thread_congr hseqs, State.thread_setThread]

theorem execItemEntry_begins (hdue : (s.seq c).due = d :: r) (hidle : (s.seq c).itm.entry = .idle)
    (hruns : s.fget F.CORE_STATUS_STATE c = 2) :
    exec (.itemEntry c) s = .next (s.setSeq c { s.seq c with due := r, itm := { Thread.empty with
      entry := .item, pc := (s.seq c).itemPc, lane := d.lane, item := d.item, index := d.index, a1 := d.a1 } }) := by
  simp [exec, execItemEntry, hdue, hidle, hruns]

/-- The end of INIT (R164). -/
theorem execEndEntry_init (hfetch : s.fetchOp c .itm 0x01 = some w) (hinit : (s.seq c).itm.entry = .init) :
    exec (.endEntry c .itm) s = .next ((s.setThread c .itm .empty).flag F.SEQ_STATUS_INIT_DONE c) := by
  simp [exec, execEndEntry, hfetch, State.thread, hinit]

theorem execEndEntry_vec (hfetch : s.fetchOp c .vec 0x01 = some w) (hvec : (s.seq c).vec.entry = .vec) :
    exec (.endEntry c .vec) s = .next (s.endVec c (s.seq c).vec) := by
  simp [exec, execEndEntry, hfetch, State.thread, hvec]

/-- The end of a VEC entry frees its thread; the item that it makes due and the vector that it finishes leave the thread
free. -/
theorem State.endVec_idle (s : State) (c : Nat) (x : Thread) : ((s.endVec c x).seq c).vec = .empty := by
  unfold State.endVec
  extract_lets s1 s2 k s3 last q late s4 s5
  have h2 : s2.seqs = s1.seqs := (State.count_chg ..).seqs.resolve_left (by decide)
  have h3 : (s3.seq c).vec = .empty := by
    change (s2.seq c).vec = _
    rw [State.seq_congr h2]
    exact s.thread_setThread c .vec .empty
  have h4 : (s4.seq c).vec = .empty := (congrArg Sequencer.vec (State.seq_setSeq ..)).trans h3
  have h5 : (s5.seq c).vec = .empty := by
    unfold s5
    split
    · split
      · rw [State.seq_congr ((State.count_chg s4 ..).seqs.resolve_left (by decide)), h4]
      · exact h4
    · exact h3
  rw [State.seq_congr ((State.finishLast_chg s5 ..).seqs.resolve_left (by decide)), h5]

end

/-! ### Address registers (R166) -/

section
variable {s u : State} {c q r v : Nat} {th : Thr} {i : Instr}

theorem State.thread_setAreg (s : State) (c r v : Nat) (th : Thr) : (s.setAreg c r v).thread c th = s.thread c th := by
  unfold State.setAreg
  split
  · rfl
  · cases th <;> simp [State.thread]

theorem State.areg_setAreg_self (hr : 2 ≤ r) : (s.setAreg c r v).areg c th r = v % 2 ^ 23 := by
  have h0 : r ≠ 0 := by omega
  have h1 : r ≠ 1 := by omega
  have hle : ¬r ≤ 1 := by omega
  simp only [State.areg, State.setAreg, if_neg h0, if_neg h1, if_neg hle, State.seq_setSeq, Tab.getD_put_self]

/-- A0 and A1 are not written, and any other register keeps its value when one beside it is. -/
theorem State.areg_setAreg_ne (h : q ≠ r ∨ r < 2) : (s.setAreg c r v).areg c th q = s.areg c th q := by
  have hregs : Tab.getD ((s.setAreg c r v).seq c).regs q 0 = Tab.getD (s.seq c).regs q 0 := by
    unfold State.setAreg
    split
    · rfl
    · have hne : q ≠ r := by omega
      rw [State.seq_setSeq, Tab.getD_put_ne _ _ _ _ hne]
  rw [State.areg, State.thread_setAreg, hregs, State.areg]

/-- An instruction that writes one address register and moves on. -/
theorem Does.of_setAreg (hexec : exec i s = .next ((s.setAreg c r v).next c th)) :
    Does i s (fun t => Moved c th s t ∧ (2 ≤ r → t.areg c th r = v % 2 ^ 23) ∧
      (List.range 16).all (fun q => (q == r && decide (2 ≤ q)) || t.areg c th q == s.areg c th q) = true) := by
  have hthread := s.thread_setAreg c r v th
  refine ⟨_, hexec, State.next_moved_of (by rw [hthread]) (by rw [hthread]), fun hr => ?_, List.all_eq_true.mpr fun q _ => ?_⟩
  · rw [State.next_areg, State.areg_setAreg_self hr]
  · by_cases hwritten : q = r ∧ 2 ≤ q
    · obtain ⟨rfl, hq⟩ := hwritten
      simp [hq]
    · have hkept : q ≠ r ∨ r < 2 := by omega
      simp [State.areg_setAreg_ne hkept]

end

section
variable {s : State} {c w : Nat} {th : Thr}

theorem execSeqNop_moves (hfetch : s.fetchOp c th 0x00 = some w) : exec (.seqNop c th) s = .next (s.next c th) := by
  simp [exec, execSeqNop, hfetch]

theorem execSeta_writes (hfetch : s.fetchOp c th 0x02 = some w) : exec (.seta c th) s = .next ((s.setAreg c (bits w 54 4)
    ((if bits w 46 8 = 255 then 0 else s.bufBase c (bits w 46 8)) + bits w 0 23)).next c th) := by
  simp [exec, execSeta, hfetch]

theorem execAdda_writes (hfetch : s.fetchOp c th 0x03 = some w) : exec (.adda c th) s = .next ((s.setAreg c (bits w 54 4)
    (addaValue (s.areg c th (bits w 54 4)) (s.areg c th (bits w 33 4)) (bits w 37 17) (sext 20 (bits w 0 20)))).next
      c th) := by
  simp [exec, execAdda, hfetch]

/-- The frame that a LOOP opens over the instructions that follow (R168). -/
def loopFrame (pc w : Nat) : LoopFrame := ⟨pc + 1, bits w 16 11, bits w 0 16 - 1⟩

theorem execLoop_opens (hfetch : s.fetchOp c th 0x04 = some w) : exec (.loop c th) s =
    .next ((s.setThread c th { s.thread c th with
      pc := (s.thread c th).pc + 1
      loops := loopFrame (s.thread c th).pc w :: (s.thread c th).loops, stalled := false }).checkBreak c th) := by
  simp [exec, execLoop, hfetch, loopFrame]

theorem execFence_moves (hfetch : s.fetchOp c th 0x0C = some w) (hdone : s.fenceWaits c th (bits w 0 4) = false) :
    exec (.fence c th) s = .next (s.next c th) := by
  simp [exec, execFence, hfetch, hdone]

theorem execFence_stalls (hfetch : s.fetchOp c th 0x0C = some w) (hwaits : s.fenceWaits c th (bits w 0 4) = true) :
    exec (.fence c th) s = .next (s.stall c th) := by
  simp [exec, execFence, hfetch, hwaits]

end

/-- Settles O22: an entry begins and ends in the thread that its lemma names, an instruction moves on as `State.next_seq`
says, and SETA and ADDA write the one register (`Does.of_setAreg`). -/
theorem entriesAndAddressInstructions : Obligations.entries_and_address_instructions := by
  unfold Obligations.entries_and_address_instructions
  refine ⟨?_, ?_, ?_, ?_, ?_, ?_, ?_, ?_, ?_, ?_⟩
  · intro s c v hidle hruns hmay hfree hready
    obtain ⟨t, hexec, b, hvec⟩ := execVecEntry_begins hidle hruns hmay hfree hready
    refine ⟨t, hexec, ?_⟩
    dsimp only
    rw [hvec]
    exact ⟨rfl, rfl, rfl, rfl⟩
  · intro s c d r hdue hidle hruns
    refine ⟨_, execItemEntry_begins hdue hidle hruns, ?_, ?_, ?_, ?_, rfl⟩
    all_goals rw [State.seq_setSeq]
  · intro s c w hfetch hinit
    refine ⟨_, execEndEntry_init hfetch hinit, ?_, State.fget_fset_self .., OnlyFields.fset (s.setThread c .itm .empty) _ c 1⟩
    exact congrArg Thread.entry (s.thread_setThread c .itm .empty)
  · intro s c w hfetch hvec
    exact ⟨_, execEndEntry_vec hfetch hvec, congrArg Thread.entry (s.endVec_idle c _)⟩
  · intro s c w th hfetch
    have hnext := s.next_chg c th
    exact ⟨_, execSeqNop_moves hfetch, State.next_moved_of rfl rfl, s.next_regs c th, hnext.engines.resolve_left (by decide),
      hnext.sram.resolve_left (by decide)⟩
  · intro s c w th hfetch
    exact Does.of_setAreg (execSeta_writes hfetch)
  · intro s c w th hfetch
    exact Does.of_setAreg (execAdda_writes hfetch)
  · intro s c w th hfetch
    refine ⟨_, execLoop_opens hfetch, ?_⟩
    obtain ⟨hpc, hloops⟩ := State.checkBreak_position (s.setThread c th _) c th
    rw [hpc, hloops, State.thread_setThread]
    exact ⟨rfl, rfl⟩
  · intro s c w th hfetch hdone
    exact ⟨_, execFence_moves hfetch hdone, State.next_moved_of rfl rfl⟩
  · intro s c w th hfetch hwaits
    refine ⟨_, execFence_stalls hfetch hwaits, ?_, ?_, s.setThread_only_seqs c th _⟩
    all_goals rw [State.thread_stall]

/-! ### SIGNAL (R319) -/

section
variable {s : State} {c w : Nat} {th : Thr} {m : Model} {r : StageRec}

/-- The packet of a SIGNAL to a counter of this device. -/
def State.signalPacket (s : State) (c w : Nat) (th : Thr) (m : Model) (r : StageRec) : Packet :=
  { Packet.empty with
    typ := .signal, src := c, context := m.context, model := m.id, stage := r.stage
    payload := ({ op := 1, index := bits w 36 14, operand := bits w 20 16, node := c, context := m.context } : CtrOp).bytes
    thread := some (thrNum c th), dst := 41, dstStage := r.stage, ref := s.fab.nextKey }

/-- Behind no packet of its thread that is not receipted, a SIGNAL on this device is posted. -/
theorem execSignal_posts (hfetch : s.fetchOp c th 0x0D = some w) (hstage : s.stageOf c = some (m, r))
    (hlocal : bit w 57 = true) (hheld : s.fab.held.all (fun p => p.thread != some (thrNum c th)) = true) :
    exec (.signal c th) s = .next ((s.postHeld (s.signalPacket c w th m r)).next c th) := by
  have hfree : s.fab.held.any (fun p => p.thread == some (thrNum c th)) = false := by
    simpa using hheld
  simp [exec, execSignal, hfetch, hstage, hlocal, hfree, State.signalPacket]

end

/-! ### WAITC (R324, R325) -/

section
variable {s : State} {c i w : Nat} {l : List CtrWait} {q : CtrWait} {m : Model} {r : StageRec}

@[simp] theorem State.setWaits_ctr (s : State) (i j : Nat) (l : List CtrWait) : (s.setWaits i l).ctr j = s.ctr j := by
  unfold State.setWaits State.ctr
  simp only [State.fget_fset_of_code_ne _ (show F.SYNC_VALUE_VALUE.code ≠ F.SYNC_WAITTAB_PEAK.code by decide),
    State.fget_fset_of_code_ne _ (show F.SYNC_VALUE_VALUE.code ≠ F.SYNC_WAITTAB_USED.code by decide),
    State.fget_fset_of_code_ne _ (show F.SYNC_VALUE_VALUE.code ≠ F.SYNC_WAIT_WAITS.code by decide),
    State.fget_fset_of_code_ne _ (show F.SYNC_VALUE_VALUE.code ≠ F.SYNC_WAIT_CLAIMS.code by decide)]
  rfl

theorem State.waitsOf_setWaits (s : State) (i : Nat) (l : List CtrWait) : (s.setWaits i l).waitsOf i = l :=
  Tab.getD_put_self ..

/-- Where nothing waits on a counter there is nothing to settle. -/
theorem State.settleCtr_no_waits (h : s.waitsOf i = []) : s.settleCtr i = s.setWaits i [] := by
  simp [State.settleCtr, h, State.waitsOf_setWaits, State.headClaims]

/-- A claim of a core that the counter holds, with no claim ahead of it, takes its amount at once. -/
theorem State.queueWait_claims (hno : s.waitsOf i = []) (hclaim : q.claim = true) (hcore : q.core = some c)
    (hholds : q.amount ≤ s.ctr i) :
    s.queueWait i q = (s.fset F.SYNC_VALUE_VALUE i (s.ctr i - q.amount)).next c .itm := by
  simp [State.queueWait, State.ctrReply, hno, hclaim, hcore, hholds]

/-- The claim of a WAITC, which the core's INIT thread waits for. -/
def State.waitcClaim (s : State) (c w : Nat) (m : Model) : CtrWait :=
  ⟨s.fget F.CNP_TOPO_ID_DEVICE 0, c, m.context, 0, bits w 36 14, bits w 20 16, true, some c⟩

theorem execWaitc_claims (hfetch : s.fetchOp c .itm 0x0E = some w) (hjoined : (s.seq c).joined = false)
    (hwaits : s.sync.waits = []) (hstage : s.stageOf c = some (m, r)) (hamount : bits w 20 16 ≠ 0) :
    exec (.waitc c) s = .next (((s.stall c .itm).queueWait (r.syncBase + bits w 36 14) (s.waitcClaim c w m)).settleCtr
      (r.syncBase + bits w 36 14)) := by
  have hdev : (s.stall c .itm).fget F.CNP_TOPO_ID_DEVICE 0 = s.fget F.CNP_TOPO_ID_DEVICE 0 := rfl
  simp [exec, execWaitc, hfetch, hjoined, hwaits, hstage, hamount, State.waitcClaim, hdev]

/-- A claim that is met at once and settles nothing else takes its amount and moves the INIT thread on. -/
theorem State.claim_settled (hno : s.waitsOf i = []) (hclaim : q.claim = true) (hcore : q.core = some c)
    (hholds : q.amount ≤ s.ctr i) (hlt : s.ctr i < 2 ^ 32) :
    Moved c .itm s ((s.queueWait i q).settleCtr i) ∧ ((s.queueWait i q).settleCtr i).ctr i = s.ctr i - q.amount := by
  let s1 := s.fset F.SYNC_VALUE_VALUE i (s.ctr i - q.amount)
  have hnext := s1.next_chg c .itm
  have hwaits : (s1.next c .itm).waitsOf i = [] := by
    rw [State.waitsOf, hnext.sync.resolve_left (by decide)]
    exact hno
  rw [State.queueWait_claims hno hclaim hcore hholds, State.settleCtr_no_waits hwaits]
  constructor
  · rw [Moved, State.thread_congr ((State.setWaits_chg ..).seqs.resolve_left (by decide))]
    exact State.next_moved_of (t := s1) rfl rfl
  · have hfits : s.ctr i - q.amount < 2 ^ F.SYNC_VALUE_VALUE.width := lt_of_le_of_lt (Nat.sub_le ..) hlt
    rw [State.setWaits_ctr, State.ctr, hnext.fget (by decide), State.fget_fset_self, Nat.mod_eq_of_lt hfits]

end

/-! ### VERDICT and OUTH (R168, R170) -/

section
variable {s : State} {c w n : Nat} {th : Thr} {y : ItemCtx} {o : Origin}

/-- The first VERDICT of an ITEM entry: what it publishes leaves the sequencers, where the thread has noted the verdict. -/
theorem execVerdict_accepts (hfetch : s.fetchOp c th 0x0F = some w) (hitem : (s.thread c th).entry = .item)
    (hfirst : (s.thread c th).verdict = false) :
    ∃ u : State, exec (.verdict c th) s = .next (u.next c th) ∧ u.thread c th = { s.thread c th with verdict := true } := by
  change ∃ u : State, execVerdict c th s = _ ∧ _
  rw [execVerdict, hfetch]
  have hin : ¬((s.thread c th).entry != .item) = true := by simp [hitem]
  have hnot : ¬(s.thread c th).verdict = true := by simp [hfirst]
  simp only [hin, hnot]
  refine ⟨_, rfl, ?_⟩
  generalize hnote : State.setThread _ c th _ = s2
  have hnoted : s2.thread c th = { s.thread c th with verdict := true } := by
    rw [← hnote, State.thread_setThread]
  refine Eq.trans ?_ hnoted
  split
  · split
    · rfl
    · split
      · exact State.thread_congr ((State.verdictOdd_chg ..).seqs.resolve_left (by decide)) c th
      · exact State.thread_congr ((State.verdictFormed_chg ..).seqs.resolve_left (by decide)) c th
  · rfl

/-- OUTH with its operand resident, for an item of a descriptor that is not complete (R168, R239). -/
theorem execOuth_writes (hfetch : s.fetchOp c th 0x10 = some w)
    (hres : s.resident c (s.operand c th (insAs w) (insOff w)) (bits w 21 16 * 64) = true)
    (hctx : s.ctxOn (s.thread c th).item (s.thread c th).lane = some (n, y)) (horigin : y.origin = some o)
    (hhost : o.canopy = false) (hopen : y.cpl = false) :
    exec (.outh c th) s = .next ((s.emit (.hostWrite o.func (o.outAddr + bits w 0 21 * 64)
      (s.sramRead c (s.operand c th (insAs w) (insOff w)) (bits w 21 16 * 64)))).next c th) := by
  simp [exec, execOuth, hfetch, hres, hctx, horigin, hhost, hopen]

end

/-- Settles O25: SIGNAL posts its packet, WAITC's claim is met and settled (`State.claim_settled`), VERDICT notes itself in
the thread, and what OUTH emits stays among the outputs (`State.next_out`). -/
theorem programCountersVerdictsAndOutputs : Obligations.program_counters_verdicts_and_outputs := by
  unfold Obligations.program_counters_verdicts_and_outputs
  refine ⟨?_, ?_, ?_, ?_⟩
  · intro s c w th m r hfetch hstage hlocal hheld
    obtain ⟨t, hexec, hmoved, hfab⟩ := Does.of_next (execSignal_posts hfetch hstage hlocal hheld) rfl
    exact ⟨t, hexec, hmoved, getLast?_map_of_append (congrArg Fabric.held hfab) rfl⟩
  · intro s c w m r hfetch hjoined hwaits hstage hamount hholds hlt _
    have hno : s.waitsOf (r.syncBase + bits w 36 14) = [] := by
      rw [State.waitsOf, hwaits]
      rfl
    obtain ⟨hmoved, htaken⟩ := State.claim_settled (s := s.stall c .itm) (q := s.waitcClaim c w m) (c := c) hno rfl rfl
      hholds hlt
    rw [Moved, State.thread_stall] at hmoved
    exact ⟨_, execWaitc_claims hfetch hjoined hwaits hstage hamount, hmoved, htaken⟩
  · intro s c w th hfetch hitem hfirst
    obtain ⟨u, hexec, hthread⟩ := execVerdict_accepts hfetch hitem hfirst
    obtain ⟨b, hnext⟩ := u.next_thread c th
    refine ⟨_, hexec, State.next_moved_of (by rw [hthread]) (by rw [hthread]), ?_⟩
    rw [hnext, hthread]
    rfl
  · intro s c w n th y o hfetch hres hctx horigin hhost hopen
    refine ⟨_, execOuth_writes hfetch hres hctx horigin hhost hopen, State.next_moved_of rfl rfl, ?_⟩
    exact (State.next_out ..).subset (List.mem_append_right _ (List.mem_singleton_self _))

end Sys2Proof.Machine

/-! SUPPORT. What DRAM_ROUND gives to best effort (R202), what the completion of a command does after its function was
reset (R250), and the refutations of the two statements that leave these out. -/

namespace Sys2Proof.Machine

/-- A command answers one next state, of which whatever it does holds. -/
theorem Does.both {c : Instr} {s : State} {P Q : State → Prop} (hP : Does c s P) (hQ : Does c s Q) : ∃ t, P t ∧ Q t := by
  obtain ⟨t, hexec, ht⟩ := hP
  obtain ⟨u, hexec', hu⟩ := hQ
  obtain rfl : t = u := by simpa using hexec.symm.trans hexec'
  exact ⟨t, ht, hu⟩

/-! ### Best effort's credit (R202) -/

/-- What the five classes with a share of Table 8.5 left of the round, in bytes. -/
def State.unusedShares (s : State) : Nat := (List.range 5).foldl (fun n k => n + Tab.getD s.fab.credit k 0) 0

theorem dramRound_bestEffort (s : State) :
    Does .dramRound s (fun t => Tab.find t.fab.credit 5 = some s.unusedShares) :=
  ⟨_, rfl, Tab.find_set_self _ 5 _⟩

/-- The end of a round in which the system class used none of its 20 GB/s. -/
def unusedRound : State := { State.reset with fab := { Fabric.empty with credit := [(2, 20000)] } }

/-- Refutes O27: DRAM_ROUND is claimed to give every class its share alone, and best effort has no share, but it gets what
the other classes left of the round before (R202), here the 20,000 bytes of the system class. -/
theorem not_memoryRequestsAndTheController : ¬ Obligations.memory_requests_and_the_controller := by
  unfold Obligations.memory_requests_and_the_controller
  rintro ⟨-, -, -, -, -, -, -, hround, -, -⟩
  obtain ⟨t, ⟨hshares, -⟩, hbest⟩ := (hround unusedRound).both (dramRound_bestEffort unusedRound)
  have hshare : Tab.find t.fab.credit 5 = some (unusedRound.memShare 5 * 100) :=
    List.map_inj_left.mp hshares 5 (by decide)
  have hunused : unusedRound.unusedShares = 20000 := by decide
  have hnone : unusedRound.memShare 5 = 0 := rfl
  rw [hbest, hunused, hnone] at hshare
  exact absurd hshare (by decide)

/-! ### A command of a function that was reset (R250) -/

section
variable {s : State} {k n f r : Nat} {c : Cpl} {d : Taken}

/-- A command whose function was reset is forgotten, and its completion is not written. -/
theorem State.complete_orphan (htaken : s.takenDesc k n = some d) (hslot : d.slot = true) (horphan : d.orphan = true) :
    s.complete k n c = s.setRing k { s.ring k with taken := (s.ring k).taken.filter (fun x => x.number != n) } := by
  simp [State.complete, htaken, hslot, horphan]

theorem State.cmd_slot {op : Nat} (hcmd : s.cmd k op = some d) : d.slot = true := by
  have hfound := List.find?_some hcmd
  simp only [Bool.and_eq_true] at hfound
  obtain ⟨⟨⟨-, hslot⟩, -⟩, -⟩ := hfound
  exact hslot

theorem nop_orphan_fields (hrun : Runnable f r 0x10 d s) (horphan : d.orphan = true) :
    Does (.nop f r) s (fun t => t.fields = s.fields) := by
  obtain ⟨-, hcmd, htaken⟩ := hrun
  have hexec : exec (.nop f r) s = .next (s.done (ringKey f r) d.number 0) := by
    simp [exec, execNop, cmdKey, hcmd]
  refine ⟨_, hexec, ?_⟩
  rw [State.done, State.complete_orphan htaken (State.cmd_slot hcmd) horphan]
  exact s.setRing_fields ..

/-- The tail of a completion queue that takes a completion does not stay. -/
theorem not_completed_of_fields {status : Nat} {t : State} (h : t.fields = s.fields) : ¬ Completed k status s t := by
  rintro ⟨htail, -⟩
  have hsame : t.fget F.RING_CQ_TAIL_COUNT k = s.fget F.RING_CQ_TAIL_COUNT k := by simp only [State.fget, h]
  omega

end

/-- A NOP that ring 0 of function 1 had taken when the function was reset. -/
def orphanedNop : Taken := { orphanedUnload with bytes := 0x10 :: List.replicate 63 0 }

/-- A device whose ring holds it. -/
def orphanedNopRing : State :=
  { State.reset with rings := [(ringKey 1 0, { Ring.empty with taken := [orphanedNop] })] }

/-- Refutes O32: NOP is claimed to complete with status 0, but where its function was reset after the command was taken
(R250), the command ends without a completion in the ring, and no register changes. -/
theorem not_commandsCompleteWithTheirStatus : ¬ Obligations.commands_complete_with_their_status := by
  unfold Obligations.commands_complete_with_their_status
  rintro ⟨hnop, -⟩
  have hrun : Runnable 1 0 0x10 orphanedNop orphanedNopRing := by decide
  obtain ⟨t, ⟨hcompleted, -⟩, hfields⟩ := (hnop _ 1 0 _ hrun).both (nop_orphan_fields hrun rfl)
  exact not_completed_of_fields hfields hcompleted

end Sys2Proof.Machine

/-! SUPPORT. Messages across the barrier: what a side does with the message that it acts on next, what the shared
operations of the field section leave of its records and of the host's presence (R262, R263, R269 to R273, R279, R280,
R294), and the statements about these messages. -/

namespace Sys2Proof.Machine

/-! ### Taking a message -/

section
variable {s t : State} {d : Bool} {m : List Nat} {x : BarSide}

/-- A side acts on the message that comes next when the command is meant for it. -/
theorem State.onMsg_front {p : List Nat → Bool} {g : State → List Nat → State} (hfront : s.front d = some m)
    (hp : p m = true) : s.onMsg d p g = .next (g (s.pop d) m) := by
  simp [State.onMsg, hfront, hp]

/-- A command that acts on a side's next message does so when that message is meant for it. -/
theorem Does.of_front {c : Instr} {p : List Nat → Bool} {g : State → List Nat → State} {P : State → Prop}
    (hexec : exec c s = s.onMsg d p g) (hfront : s.front d = some m) (hp : p m = true) (hP : P (g (s.pop d) m)) :
    Does c s P :=
  ⟨_, hexec.trans (State.onMsg_front hfront hp), hP⟩

theorem State.setSide_only (s : State) (d : Bool) (x : BarSide) :
    s.setSide d x = { s with bar := (s.setSide d x).bar } := by
  cases d <;> rfl

@[simp] theorem State.setSide_side (s : State) (d : Bool) (x : BarSide) : (s.setSide d x).bar.side d = x := by
  cases d <;> rfl

/-- Taking a message changes the barrier link only. -/
theorem State.pop_only (s : State) (d : Bool) : s.pop d = { s with bar := (s.pop d).bar } := by
  unfold State.pop
  split
  · rfl
  · exact s.setSide_only ..

theorem State.pop_fields (s : State) (d : Bool) : (s.pop d).fields = s.fields := by rw [State.pop_only]

theorem State.pop_field (s : State) (d : Bool) : (s.pop d).field = s.field := by rw [State.pop_only]

theorem State.pop_fget (s : State) (d : Bool) (f : Fld) (i : Nat) : (s.pop d).fget f i = s.fget f i := by
  rw [State.pop_only]
  rfl

/-- Taking a message leaves what its side has yet to send. -/
theorem State.pop_queue (s : State) (d : Bool) : ((s.pop d).bar.side d).queue = (s.bar.side d).queue := by
  unfold State.pop
  split
  · rfl
  · rw [State.setSide_side]

theorem State.pop_reported (s : State) (d : Bool) :
    (s.pop d).bar.fieldKnown = s.bar.fieldKnown ∧ (s.pop d).bar.fieldGen = s.bar.fieldGen := by
  unfold State.pop
  split
  · exact ⟨rfl, rfl⟩
  · cases d <;> exact ⟨rfl, rfl⟩

/-- What leaves the link as it is leaves the inbox without the message that was taken. -/
theorem inbox_of_bar (h : t.bar = (s.pop d).bar) : (t.bar.side d).inbox = ((s.pop d).bar.side d).inbox := by rw [h]

/-- A message handed to the field section's transmitter changes its queue only. -/
theorem State.toHost_bar (s : State) (m : List Nat) : (s.toHost m).bar =
    { s.bar with field := { s.bar.field with queue := (s.toHost m).bar.field.queue } } := by
  unfold State.toHost
  split
  · rw [(State.count_chg ..).bar.resolve_left (by decide)]
  · rfl

theorem State.toHost_host (s : State) (m : List Nat) : (s.toHost m).bar.host = s.bar.host := by rw [State.toHost_bar]

theorem State.toHost_beats (s : State) (m : List Nat) : (s.toHost m).bar.field.beats = s.bar.field.beats := by
  rw [State.toHost_bar]

theorem State.toHost_space (h : s.bar.field.queue.length < 4096) : s.toHost m =
    { s with bar := { s.bar with field := { s.bar.field with queue := s.bar.field.queue ++ [slice m 0 16] } } } :=
  if_neg (Nat.not_le.mpr h)

end

/-! ### Records, the host's presence and the general outputs (R268, R279, R280) -/

/-- The records of items, what is held of the host, and the general outputs that were set. -/
def FieldSec.held (x : FieldSec) : List FieldRec × Bool × Nat × Nat × Nat × Bool :=
  (x.recs, x.hostHere, x.hostGen, x.hostState, x.gpo, x.gpoPolicy)

/-- The field section holds the same records, of the host the same, and the same general outputs. -/
def SameHeld (s t : State) : Prop := t.field.held = s.field.held

section
variable {s t u : State} {m : Nat}

theorem SameHeld.refl (s : State) : SameHeld s s := rfl

theorem SameHeld.trans (h : SameHeld s t) (h' : SameHeld t u) : SameHeld s u := Eq.trans h' h

theorem SameHeld.of_chg (h : Chg m s t) (hm : m.testBit 32 = false := by rfl) : SameHeld s t := by
  rw [SameHeld, h.field.resolve_left (by simp [hm])]

theorem SameHeld.ite {p : Prop} [Decidable p] (h : SameHeld s t) (h' : SameHeld s u) :
    SameHeld s (if p then t else u) := by
  split
  · exact h
  · exact h'

theorem SameHeld.foldl {α : Type} {l : List α} {f : State → α → State} (hf : ∀ u x, SameHeld u (f u x)) :
    SameHeld s (l.foldl f s) :=
  List.foldlRecOn (motive := SameHeld s) _ _ (.refl s) fun u hu x _ => hu.trans (hf u x)

theorem SameHeld.recs (h : SameHeld s t) : t.field.recs = s.field.recs := congrArg (·.1) h
theorem SameHeld.hostHere (h : SameHeld s t) : t.field.hostHere = s.field.hostHere := congrArg (·.2.1) h
theorem SameHeld.hostGen (h : SameHeld s t) : t.field.hostGen = s.field.hostGen := congrArg (·.2.2.1) h
theorem SameHeld.hostState (h : SameHeld s t) : t.field.hostState = s.field.hostState := congrArg (·.2.2.2.1) h
theorem SameHeld.gpo (h : SameHeld s t) : t.field.gpo = s.field.gpo := congrArg (·.2.2.2.2.1) h
theorem SameHeld.gpoPolicy (h : SameHeld s t) : t.field.gpoPolicy = s.field.gpoPolicy := congrArg (·.2.2.2.2.2) h

theorem SameHeld.setRej (s : State) (k : Nat) (x : RejOut) : SameHeld s (s.setRej k x) := rfl

theorem SameHeld.fset (s : State) (f : Fld) (i v : Nat) : SameHeld s (s.fset f i v) := rfl

theorem State.drainOut_sameHeld (s : State) (k : Nat) : SameHeld s (s.drainOut k) := by
  unfold State.drainOut
  exact .ite (.refl s) (.setRej ..)

theorem State.refreshOut_sameHeld (s : State) (k : Nat) : SameHeld s (s.refreshOut k) := by
  unfold State.refreshOut
  extract_lets s1 x s2 on y s3 n s4 s5
  have h3 : SameHeld s s3 := ((s.drainOut_sameHeld k).trans (.setRej ..)).trans (.setRej s2 ..)
  exact ((h3.trans (.fset ..)).trans (.fset s4 ..)).trans (.fset s5 ..)

theorem State.fieldRefresh_sameHeld (s : State) : SameHeld s s.fieldRefresh := by
  unfold State.fieldRefresh
  extract_lets s1 s2 s3
  have h1 : SameHeld s s1 := .foldl fun u l => .of_chg (u.refreshLane_chg l)
  have h2 : SameHeld s1 s2 := .foldl fun u k => u.refreshOut_sameHeld k
  exact ((h1.trans h2).trans (.fset ..)).trans (.fset s3 ..)

theorem State.sendEvent_sameHeld (s : State) (m : List Nat) : SameHeld s (s.sendEvent m) := by
  unfold State.sendEvent
  exact .ite (.trans (t := { s with field := { s.field with dropped := 0 } }) rfl (.of_chg (State.toHost_chg ..)))
    (.ite rfl rfl)

theorem State.fieldEventRate_sameHeld (s : State) (code i lane out item : Nat) :
    SameHeld s (s.fieldEventRate code i lane out item) := by
  unfold State.fieldEventRate
  extract_lets k held m
  split
  · exact .ite rfl ((s.sendEvent_sameHeld m).trans rfl)
  · exact (s.sendEvent_sameHeld m).trans rfl

theorem State.widen_sameHeld (s : State) (k l on off : Nat) : SameHeld s (s.widen k l on off) := by
  unfold State.widen
  extract_lets x grow s1 s2 s3
  have h1 : SameHeld s s1 := by
    unfold s1
    split <;> rfl
  have h2 : SameHeld s1 s2 := .of_chg (State.count_chg ..)
  exact ((h1.trans h2).trans rfl).trans (s3.fieldEventRate_sameHeld ..)

theorem State.actuate_sameHeld (s : State) (k l d : Nat) : SameHeld s (s.actuate k l d) := by
  unfold State.actuate
  exact .ite (.refl s) (.ite rfl (.ite rfl (s.widen_sameHeld ..)))

theorem State.actuateAll_sameHeld (s : State) (l pos : Nat) (ks : List Nat) : SameHeld s (s.actuateAll l pos ks) :=
  .foldl fun u k => u.actuate_sameHeld k l _

theorem State.aoPolicy_sameHeld (s : State) (k : Nat) : SameHeld s (s.aoPolicy k) := by
  unfold State.aoPolicy
  refine .ite rfl (.ite rfl ?_)
  split <;> rfl

/-- A verdict that takes effect gives its code to the record of its trigger. -/
theorem State.takeEffect_recs (s : State) (r : FieldRec) (code : Nat) (withheld : Bool) :
    (s.takeEffect r code withheld).field.recs = s.field.recs.map (fun x => if x.lane == r.lane && x.n == r.n then
      { x with
        code := some (if withheld then s.lrWithheld r.lane else code % 16)
        enq := (s.lrFire r.lane (if withheld then s.lrWithheld r.lane else code % 16)).foldl setBit x.enq }
      else x) := by
  unfold State.takeEffect
  extract_lets c ks s1 s2
  have hkept : s2.field.recs = s.field.recs := (s1.actuateAll_sameHeld ..).recs
  exact congrArg (List.map _) hkept

end

/-! ### The host as the field controller holds it (R263, R279, R280) -/

section
variable {s : State}

/-- The host that is lost is held absent, and the general outputs take their policy. -/
theorem State.hostGone_held (h : s.field.hostHere = true) :
    s.hostGone.field.hostHere = false ∧ s.hostGone.field.gpoPolicy = true := by
  unfold State.hostGone
  rw [h, Bool.not_true, if_neg (by decide)]
  extract_lets _ f s1 s2 s3 s4
  have h2 : SameHeld s1 s2 := .foldl fun u k => u.aoPolicy_sameHeld k
  have h3 : SameHeld s2 s3 := s2.sendEvent_sameHeld _
  have h4 : SameHeld s3 s4 := .ite (.of_chg s3.sendFieldState_chg) (.refl s3)
  have hall := ((h2.trans h3).trans h4).trans s4.fieldRefresh_sameHeld
  exact ⟨hall.hostHere, hall.gpoPolicy⟩

theorem State.hostGone_absent (s : State) : s.hostGone.field.hostHere = false := by
  cases h : s.field.hostHere with
  | true => exact (State.hostGone_held h).1
  | false =>
    rw [State.hostGone, h]
    exact h

/-- The host that comes is held present with its generation and its state. -/
theorem State.hostCome_held (s : State) (gen st : Nat) : (s.hostCome gen st).field.hostHere = true ∧
    (s.hostCome gen st).field.hostGen = gen ∧ (s.hostCome gen st).field.hostState = st := by
  unfold State.hostCome
  extract_lets was recs _ _ _ s1 s2
  have h2 : SameHeld s1 s2 := .ite (.refl s1) (.of_chg s1.sendFieldState_chg)
  have hall := h2.trans s2.fieldRefresh_sameHeld
  exact ⟨hall.hostHere, hall.hostGen, hall.hostState⟩

theorem execHostLost_silent (hready : s.field.ready = true) (hhere : s.field.hostHere = true)
    (hsilent : s.bar.field.beat + s.hostTo ≤ s.ns) : exec .hostLost s = .next s.hostGone := by
  simp [exec, execHostLost, hready, hhere, hsilent]

end

/-! ### The field section as the host section holds it (R263) -/

section
variable {s : State} {m : List Nat}

/-- The field section that is lost is held absent, and FIELD_LOST_SEEN records it. -/
theorem State.fieldGone_absent (h : s.bar.fieldHere = true) : s.fieldGone.bar.fieldHere = false ∧
    s.fieldGone.fget F.FLD_GW_STATUS_FIELD_PRESENT 0 = 0 ∧ s.fieldGone.fget F.FLD_GW_STATUS_FIELD_LOST_SEEN 0 = 1 := by
  unfold State.fieldGone
  rw [h, Bool.not_true, if_neg (by decide)]
  extract_lets _ s1 s2 s3 s4 s5 s6
  -- what follows the two fields reaches neither the gateway's registers nor the link
  have h4 : Chg 0x430021000600908 s3 s4 := (State.log_chg ..).step rfl (.refl _ s3)
  have h5 : Chg 0x430021000600908 s3 s5 := .foldl (fun u l hu => (u.breakLane_chg l 2).step rfl hu) h4
  have h6 : Chg 0x430021000600908 s3 s6 := .foldl (fun u n hu => (u.closeLost_chg n).step rfl hu) h5
  have hrest := Chg.foldl (l := s6.rel.retracting) (fun u r hu => (u.retractEnd_chg r).step rfl hu) h6
  refine ⟨?_, ?_, ?_⟩
  · rw [hrest.bar.resolve_left (by decide)]
    rfl
  · rw [hrest.fget (by decide)]
    exact (State.fget_fset_of_code_ne s2 (by decide)).trans (State.fget_fset_self ..)
  · rw [hrest.fget (by decide)]
    exact State.fget_fset_self ..

theorem execFieldLost_silent (hhere : s.bar.fieldHere = true) (hsilent : s.bar.host.beat + s.fieldTo ≤ s.ns) :
    exec .fieldLost s = .next s.fieldGone := by
  simp [exec, execFieldLost, hhere, hsilent]

/-- A state message of a field section that has not been reset. -/
theorem State.stateAtHost_same (hknown : s.bar.fieldKnown = true) (hsame : s.bar.fieldGen = m.getD 3 0)
    (hstate : m.getD 2 0 ≠ 0) : ∃ u : State, u.fget F.FLD_GW_STATUS_FIELD_GEN 0 = m.getD 3 0 % 2 ^ 8 ∧
      u.bar = { s.bar with fieldGen := m.getD 3 0, fieldState := m.getD 2 0, fieldKnown := true } ∧
      s.stateAtHost m = State.flag { u with bar := { u.bar with
        fieldHere := true, host := { u.bar.host with beat := u.ns } } } F.FLD_GW_STATUS_FIELD_PRESENT 0 := by
  unfold State.stateAtHost
  extract_lets _ gen old reset s1 s2 s3 s4 _ host _ s5
  have hreset : reset = false := by simp [reset, old, gen, hknown, hsame]
  have hs3 : s3 = s2 := by simp [s3, hreset]
  rw [if_neg hstate]
  refine ⟨s4, ?_, ?_, rfl⟩
  · rw [(s3.settleOff_chg .field).fget (by decide), hs3]
    exact State.fget_fset_self ..
  · rw [(s3.settleOff_chg .field).bar.resolve_left (by decide), hs3]
    rfl

/-- The record that an event leaves in the log, under the number that was next. -/
theorem State.log_event (s : State) (e : Ev) :
    (Tab.find (s.log e).events (s.fget F.MGT_EVT_HEAD_NEXT 0 % 262144)).map
      (fun r => (r.code, r.source, r.item, r.lane, r.engine, r.count)) =
    some (e.code, e.source, e.item, e.lane, e.engine, e.count) := by
  unfold State.log
  extract_lets q r s1 s2 s3 ps mgmt s4
  have hevents : (s4.notifyHost e.code).events = Tab.set s1.events (q % 262144) r :=
    (s4.notifyHost_chg e.code).events.resolve_left (by decide)
  rw [hevents, Tab.find_set_self]
  rfl

end

/-! ### Positions (R224) -/

section
variable {s : State}

/-- A position closes contexts and is noted; of the link nothing else changes. -/
theorem State.positionAt_bar (s : State) (e pos : Nat) :
    (s.positionAt e pos).bar = { s.bar with positions := Tab.set s.bar.positions e pos } := by
  unfold State.positionAt
  extract_lets done _ s1
  have hclosed := Chg.foldl (m := 0x20020000600908) (l := done) (s := s1)
    (f := fun s p => (if p.2.state = .created then s.countAt C.CTX_CNT_NOINPUT 0 0 1 else s).closeItem p.1)
    (fun u p hu => (State.closeItem_chg _ p.1).step rfl (.ite ((State.countAt_chg ..).step rfl hu) hu)) (.refl _ s1)
  exact hclosed.bar.resolve_left (by decide)

theorem State.positionAt_inbox (s : State) (e pos : Nat) (d : Bool) :
    ((s.positionAt e pos).bar.side d).inbox = (s.bar.side d).inbox := by
  rw [State.positionAt_bar]
  cases d <;> rfl

theorem State.positionAt_positions (s : State) (e pos : Nat) :
    (s.positionAt e pos).bar.positions = Tab.set s.bar.positions e pos := by rw [State.positionAt_bar]

theorem State.closeItem_items (s : State) (n : Nat) : (s.closeItem n).items = Tab.erase s.items n :=
  (State.ctxLow_chg _).items.resolve_left (by decide)

/-- A position makes no context. -/
theorem State.positionAt_items (s : State) (e pos : Nat) : (s.positionAt e pos).items ⊆ s.items := by
  unfold State.positionAt
  extract_lets done _ s1
  refine List.foldlRecOn (motive := fun u : State => u.items ⊆ s.items) _ _ (List.Subset.refl _) fun u hu p _ => ?_
  rw [State.closeItem_items]
  have hcount : (if p.2.state = .created then u.countAt C.CTX_CNT_NOINPUT 0 0 1 else u).items = u.items := by
    split
    · exact (State.countAt_chg ..).items.resolve_left (by decide)
    · rfl
  rw [hcount]
  exact fun q hq => hu (List.mem_of_mem_filter hq)

end

/-! ### Heartbeats (R262) -/

section
variable {s : State} {ps : List Nat}

theorem State.sendPositions_host (s : State) : s.sendPositions.bar.host = s.bar.host := by
  unfold State.sendPositions
  split
  · rfl
  · exact (State.toHost_host ..).trans (State.toHost_host ..)

theorem State.sendPositions_beats (s : State) : s.sendPositions.bar.field.beats = s.bar.field.beats := by
  unfold State.sendPositions
  split
  · rfl
  · exact (State.toHost_beats ..).trans (State.toHost_beats ..)

theorem execHeartbeatTimer_host (hup : s.bar.up = true) : exec (.heartbeatTimer false ps) s =
    .next ((s.setSide false { s.bar.host with beats := (s.bar.host.beats + 1) % 65536 }).toField
      ([7, 0] ++ bytesOf 2 ((s.bar.host.beats + 1) % 65536))) := by
  simp [exec, execHeartbeatTimer, hup, Barrier.side]

theorem execHeartbeatTimer_field (hup : s.bar.up = true) (hready : s.field.ready = true) :
    exec (.heartbeatTimer true ps) s =
      .next ((((s.setSide true { s.bar.field with beats := (s.bar.field.beats + 1) % 65536 }).encAll
        (ps.map (fun p => p % 2 ^ 32))).toHost
          ([7, 0] ++ bytesOf 2 ((s.bar.field.beats + 1) % 65536))).sendPositions) := by
  simp [exec, execHeartbeatTimer, hup, hready, Barrier.side]

/-- A result that is not the last adds its item to the record in progress (R354). -/
theorem State.resultAt_middle {m : List Nat} {r : Retracting} {rest : List Retracting}
    (hretracting : s.rel.retracting = r :: rest) (hlast : bit (m.getD 11 0) 1 = false)
    (hnone : bit (m.getD 11 0) 2 = false) (houts : m.getD 10 0 ≠ 0) :
    s.resultAt m = { s with rel := { s.rel with retracting := { r with entries := r.entries ++
      [faultEntry 2 r.lane (m.getD 10 0) 0 (leAt m 4 6) (leAt m 4 6)] } :: rest } } := by
  rw [State.resultAt, hretracting]
  simp only [hlast, hnone, houts, Bool.false_or, decide_false, Bool.false_eq_true, if_false]

end

/-- Settles O11: the timers and the messages of presence reach `State.hostGone`, `State.hostCome`, `State.fieldGone` and
`State.stateAtHost`, of which the lemmas above say what is held afterwards; the other messages are recorded as they are. -/
theorem heartbeatsAndStatusMessages : Obligations.heartbeats_and_status_messages := by
  unfold Obligations.heartbeats_and_status_messages
  refine ⟨?_, ?_, ?_, ?_, ?_, ?_, ?_, ?_, ?_, ?_, ?_, ?_⟩
  · intro s ps hup
    exact ⟨_, execHeartbeatTimer_host hup, rfl, rfl, rfl⟩
  · intro s ps hup hready
    refine ⟨_, execHeartbeatTimer_field hup hready, ?_, ?_⟩
    · rw [State.sendPositions_beats, State.toHost_beats, (State.encAll_chg ..).bar.resolve_left (by decide)]
      rfl
    · rw [State.sendPositions_host, State.toHost_host, (State.encAll_chg ..).bar.resolve_left (by decide)]
      rfl
  · intro s d m hfront htype
    refine Does.of_front (execHeartbeat.eq_1 d s) hfront htype ⟨?_, ?_, ?_⟩
    · rw [State.setSide_side, State.pop_only]
    · rw [State.setSide_side]
    · rw [State.setSide_only, State.pop_only]
  · intro s hready hhere hsilent
    exact ⟨_, execHostLost_silent hready hhere hsilent, State.hostGone_held hhere⟩
  · intro s m hfront hrunning
    obtain ⟨hhere, hgen, hstate⟩ := (s.pop true).hostCome_held (m.getD 3 0) 1
    exact Does.of_front (execHostPresent.eq_1 s) hfront hrunning ⟨hhere, hstate, hgen⟩
  · intro s hhere hsilent
    exact ⟨_, execFieldLost_silent hhere hsilent, State.fieldGone_absent hhere⟩
  · intro s m hfront hkind hstate
    have hcome : (s.pop true).stateAtField m = (s.pop true).hostCome (m.getD 3 0) 1 := if_pos hstate
    refine Does.of_front (execStateMsg.eq_1 true s) hfront hkind ?_
    simp only [if_true, hcome]
    exact (s.pop true).hostCome_held (m.getD 3 0) 1
  · intro s m hfront hkind hstate
    have hgone : (s.pop true).stateAtField m = { (s.pop true).hostGone with
        field := { (s.pop true).hostGone.field with hostState := m.getD 2 0, hostGen := m.getD 3 0 } } := if_neg hstate
    refine Does.of_front (execStateMsg.eq_1 true s) hfront hkind ?_
    simp only [if_true, hgone]
    exact ⟨(s.pop true).hostGone_absent, trivial, trivial⟩
  · intro s m hfront hkind hknown hsame hstate hgen
    obtain ⟨hpopKnown, hpopGen⟩ := s.pop_reported false
    obtain ⟨u, hfget, hu, hmsg⟩ := State.stateAtHost_same (hpopKnown.trans hknown) (hpopGen.trans hsame) hstate
    refine Does.of_front (execStateMsg.eq_1 false s) hfront hkind ?_
    simp only [Bool.false_eq_true, if_false, hmsg]
    refine ⟨?_, rfl, ?_, ?_, ?_⟩
    · show u.bar.host.inbox = _
      rw [hu]
      rfl
    · show u.bar.fieldState = _
      rw [hu]
    · exact State.fget_fset_self ..
    · refine (State.fget_fset_of_code_ne _ (by decide)).trans (hfget.trans (Nat.mod_eq_of_lt hgen))
  · intro s m hfront hkind
    refine Does.of_front (execFieldEventMsg.eq_1 s) hfront hkind ⟨?_, ?_⟩
    · exact inbox_of_bar ((State.log_chg ..).bar.resolve_left (by decide))
    · rw [← s.pop_fget false]
      exact State.log_event ..
  · intro s m hfront hkind
    have hkind3 : m.getD 1 0 = 3 := by
      simp only [isStatus, Bool.and_eq_true, beq_iff_eq] at hkind
      exact hkind.2
    refine Does.of_front (execPositionsMsg.eq_1 s) hfront (by simp [hkind]) ?_
    simp only [hkind3, if_true]
    rw [State.positionAt_positions, State.positionAt_positions]
    refine ⟨(State.positionAt_inbox ..).trans (State.positionAt_inbox ..), ?_, Tab.find_set_self ..⟩
    exact (Tab.find_set_ne _ _ (by decide)).trans (Tab.find_set_self ..)
  · intro s m r rest hfront hkind hretracting hlast hnone houts
    refine Does.of_front (execRetractionResult.eq_1 s) hfront hkind ?_
    have hrel : (s.pop false).rel.retracting = r :: rest := by rw [State.pop_only, hretracting]
    rw [State.resultAt_middle hrel hlast hnone houts, State.pop_only]
    exact ⟨rfl, rfl, rfl⟩

/-! ### Item-created messages (R222) -/

section
variable {s t : State} {item lane n : Nat} {x : ItemCtx}

theorem Tab.mem_set_self {α : Type} (t : Tab α) (n : Nat) (v : α) : (n, v) ∈ Tab.set t n v := by
  induction t with
  | nil => exact List.mem_singleton_self _
  | cons p r ih =>
    obtain ⟨k, w⟩ := p
    simp only [Tab.set]
    split
    · exact List.mem_cons_self
    · split
      · exact List.mem_cons_self
      · exact List.mem_cons_of_mem _ ih

theorem State.ctxOn_congr (h : t.items = s.items) (item lane : Nat) : t.ctxOn item lane = s.ctxOn item lane := by
  rw [State.ctxOn, State.ctxOn, State.ctxsOf, State.ctxsOf, h]

theorem State.ctxsOf_nil_of_subset (h : t.items ⊆ s.items) (hnone : s.ctxsOf item = []) : t.ctxsOf item = [] := by
  rw [State.ctxsOf, List.filter_eq_nil_iff] at hnone ⊢
  exact fun p hp => hnone p (h hp)

/-- A context that is set for an item without one is the context of its item and lane. -/
theorem State.ctxOn_setItem (hnone : s.ctxsOf x.item = []) :
    (s.setItem n x).ctxOn x.item x.lane = some (n, x) := by
  have honly : ∀ p ∈ (s.setItem n x).ctxsOf x.item, p = (n, x) := fun p hp => by
    obtain ⟨hset, hitem⟩ := List.mem_filter.mp hp
    refine (Tab.mem_set hset).resolve_right fun hold => ?_
    exact List.filter_eq_nil_iff.mp hnone p hold hitem
  have hthere : (n, x) ∈ (s.setItem n x).ctxsOf x.item := List.mem_filter.mpr ⟨Tab.mem_set_self .., by simp⟩
  have hsome : ((s.setItem n x).ctxOn x.item x.lane).isSome := List.find?_isSome.mpr ⟨_, hthere, by simp⟩
  obtain ⟨p, hp⟩ := Option.isSome_iff_exists.mp hsome
  rw [hp, honly p (List.mem_of_find?_eq_some hp)]

theorem State.createItem_ctxOn (hnone : s.ctxsOf x.item = []) : (s.createItem x).ctxOn x.item x.lane =
    some (s.freeRecord, { x with indexed := true, field := (s.lane x.lane).field }) := by
  rw [State.createItem, State.ctxOn_congr ((State.ctxLow_chg _).items.resolve_left (by decide))]
  exact State.ctxOn_setItem (x := { x with indexed := true, field := (s.lane x.lane).field }) hnone

/-- The trigger of an item without a context makes one, where the lane is admitted and a record is free. -/
theorem State.itemCreated_creates {l enc trig pos : Nat} (hlane : s.laneState l = 2) (hnone : s.ctxsOf item = [])
    (hfree : (s.positionAt enc pos).canCreate = true) : s.itemCreated l enc trig item pos =
      (s.positionAt enc pos).createItem ((s.positionAt enc pos).withTrigger (ItemCtx.fresh item l) enc trig pos) := by
  unfold State.itemCreated
  extract_lets s1 s2 s3 s4 n s5
  have hnone1 : s1.ctxsOf item = [] := State.ctxsOf_nil_of_subset (s.positionAt_items enc pos) hnone
  have hlane1 : s1.laneState l = 2 := ((s.positionAt_chg enc pos).fget (by decide)).trans hlane
  have hlane5 : s5.laneState l = 2 := ((s1.createItem_chg _).fget (by decide)).trans hlane1
  have hup : s1.laneUp l = true := by simp [State.laneUp, hlane1]
  have hon : s1.ctxOn item l = none := by rw [State.ctxOn, hnone1, List.find?_nil]
  have hcan : s1.canCreate = true := hfree
  simp only [hon, hnone1, hup, hcan, hlane5, List.isEmpty_nil, Bool.not_true, Bool.false_eq_true, if_false,
    Nat.reduceEqDiff]
  rfl

end

/-! ### Verdicts and retractions (R269, R272) -/

section
variable {s : State} {r : FieldRec} {lane code item : Nat}

/-- A verdict that comes before the cutoff, of an item that has none and of the host's present generation, takes effect. -/
theorem State.verdictAt_live (hrecs : s.field.recs = [r]) (hlane : r.lane = lane) (hitem : r.item = some item)
    (hnone : r.code = none) (hgen : r.hostGen = s.field.hostGen) (henc : s.encBad (s.lrEnc r.lane) = false)
    (hcutoff : serialGe (s.encPos (s.lrEnc r.lane)) (s.cutoff r.lane r.pos) = false) :
    s.verdictAt lane code item = (s.takeEffect r code (code == 255)).fieldRefresh := by
  subst hlane
  simp [State.verdictAt, hrecs, hitem, hnone, hgen, henc, hcutoff]

theorem State.retractAt_none {first last : Nat} (hnone : s.field.recs.all (fun r => r.code.isNone) = true) :
    s.retractAt lane first last = s.toHost ([6, 1, 0, 0] ++ bytesOf 6 0 ++ [0, 6]) := by
  have hempty : s.field.recs.filter (fun r => r.lane == lane && r.code.isSome &&
      r.item.any (fun i => inRange48 first last i)) = [] := by
    rw [List.filter_eq_nil_iff]
    intro r hr
    have hcode := List.all_eq_true.mp hnone r hr
    simp only [Option.isNone_iff_eq_none] at hcode
    simp [hcode]
  rw [State.retractAt, hempty]
  rfl

end

/-! ### Setpoints and reports (R280, R294, R301) -/

section
variable {s : State} {k j code : Nat}

theorem State.gpoSet_here (hhere : s.field.hostHere = true) (mask levels : Nat) :
    (s.gpoSet mask levels).field.gpoPolicy = false ∧
    (s.gpoSet mask levels).field.gpo = ((s.field.gpo &&& (65535 - mask % 65536)) ||| (levels &&& mask % 65536)) := by
  unfold State.gpoSet
  rw [hhere, Bool.not_true, if_neg (by decide)]
  exact ⟨(State.fieldRefresh_sameHeld _).gpoPolicy, (State.fieldRefresh_sameHeld _).gpo⟩

/-- A code that arrives while the host is present waits at its output (R294). -/
theorem State.aoSet_field (hhere : s.field.hostHere = true) : (s.aoSet k code).field = { s.field with
    aos := Tab.set s.field.aos k { s.ao k with waiting := some (code % 65536) } } := by
  unfold State.aoSet
  rw [hhere, Bool.not_true, if_neg (by decide)]
  extract_lets x s1
  have hfield : s1.field = s.field := by
    unfold s1
    split
    · exact (State.count_chg ..).field.resolve_left (by decide)
    · rfl
  rw [State.setAo, hfield]

theorem State.aoSet_waiting (hhere : s.field.hostHere = true) : ((s.aoSet k code).ao j).waiting =
    if j = k then some (code % 65536) else (s.ao j).waiting := by
  rw [State.ao, State.aoSet_field hhere]
  split
  next hjk => rw [hjk, Tab.getD_set_self]
  next hjk => rw [Tab.getD_set_ne _ _ _ hjk, State.ao]

/-- What a setpoint message does at one output. -/
def State.setpoint (m : List Nat) (s : State) (k : Nat) : State :=
  if (m.getD 2 0).testBit k then s.aoSet k (leAt m (4 + 2 * k) 2) else s

theorem State.setpoint_hostHere {m : List Nat} (hhere : s.field.hostHere = true) :
    (s.setpoint m k).field.hostHere = true := by
  unfold State.setpoint
  split
  · rw [State.aoSet_field hhere, hhere]
  · exact hhere

theorem State.setpoint_waiting {m : List Nat} (hhere : s.field.hostHere = true) :
    ((s.setpoint m k).ao j).waiting = if j = k ∧ (m.getD 2 0).testBit j = true
      then some (leAt m (4 + 2 * j) 2 % 65536) else (s.ao j).waiting := by
  unfold State.setpoint
  split
  next hbit =>
    rw [State.aoSet_waiting hhere]
    by_cases hjk : j = k
    · subst hjk
      rw [if_pos rfl, if_pos ⟨rfl, hbit⟩]
    · rw [if_neg hjk, if_neg (fun h => hjk h.1)]
  next hbit => rw [if_neg (fun h : j = k ∧ _ => hbit (h.1 ▸ h.2))]

/-- A setpoint message reaches the outputs of its mask among those it goes through, and no other. -/
theorem State.foldl_setpoint_waiting {m ks : List Nat} (hhere : s.field.hostHere = true) :
    ((ks.foldl (State.setpoint m) s).ao j).waiting = if j ∈ ks ∧ (m.getD 2 0).testBit j = true
      then some (leAt m (4 + 2 * j) 2 % 65536) else (s.ao j).waiting := by
  induction ks generalizing s with
  | nil => simp
  | cons k ks ih =>
    rw [List.foldl_cons, ih (State.setpoint_hostHere hhere), State.setpoint_waiting hhere]
    by_cases hjk : j = k
    · by_cases hbit : (m.getD 2 0).testBit j = true
      · simp only [hjk ▸ hbit, List.mem_cons, true_or, and_true, if_true, hjk, ite_self]
      · rw [if_neg (fun h => hbit h.2), if_neg (fun h => hbit h.2), if_neg (fun h => hbit h.2)]
    · simp only [hjk, List.mem_cons, false_or, false_and, if_false]

theorem State.foldl_setpoint_bar (m ks : List Nat) (s : State) : (ks.foldl (State.setpoint m) s).bar = s.bar := by
  have hchg := Chg.foldl (m := 0x10000000100000008) (l := ks) (s := s) (f := State.setpoint m)
    (fun u k hu => .ite ((State.aoSet_chg ..).step rfl hu) hu) (.refl _ s)
  exact hchg.bar.resolve_left (by decide)

/-- What changes register fields alone once a message has been taken. -/
theorem OnlyFields.of_pop {l : List (Fld × Nat)} {t : State} {d : Bool} (hbar : t.bar = (s.pop d).bar)
    (h : OnlyFields l (s.pop d) t) : OnlyFields l { s with bar := t.bar } t := by
  rw [hbar, ← State.pop_only]
  exact h

/-- A report of the monitor is noted with its time (R301). -/
theorem State.hkMonitor_monitor (s : State) (temp : Int) : (s.hkMonitor temp).hk.monitor = some s.ns := by
  have hroll (u : State) : u.rollMeans.hk.monitor = u.hk.monitor := by
    unfold State.rollMeans
    split <;> rfl
  have hwindow (u : State) (ch : Nat) : (u.hkWindow ch).hk.monitor = u.hk.monitor := by
    unfold State.hkWindow
    extract_lets v lo hi hy out s1 _ s2 s3
    split
    · split <;> rfl
    · split
      · rw [(State.logRate_chg ..).hk.resolve_left (by decide), (State.count_chg ..).hk.resolve_left (by decide)]
        rfl
      · rfl
  unfold State.hkMonitor
  extract_lets _ s1 s2 s3 s4
  exact (hwindow _ 127).trans (hroll s4)

end

/-- Settles O10: each message reaches the operation of its rule, of which the lemmas above say what it leaves. -/
theorem itemAndAnalogueMessages : Obligations.item_and_analogue_messages := by
  unfold Obligations.item_and_analogue_messages
  refine ⟨?_, ?_, ?_, ?_, ?_, ?_, ?_⟩
  · intro s m hfront htype hlane hnone hfree
    have hlane' : (s.pop false).laneState (m.getD 1 0 % 64) = 2 := (s.pop_fget ..).trans hlane
    have hnone' : (s.pop false).ctxsOf (leAt m 4 6) = [] := by rw [State.pop_only]; exact hnone
    have hpassed : ((s.pop false).positionAt (bits (m.getD 2 0) 4 2) (leAt m 10 4)).ctxsOf (leAt m 4 6) = [] :=
      State.ctxsOf_nil_of_subset (State.positionAt_items ..) hnone'
    refine Does.of_front (execItemCreated.eq_1 s) hfront htype ?_
    rw [State.itemCreated_creates hlane' hnone' hfree]
    refine ⟨?_, ?_⟩
    · refine (congrArg (fun b => (Barrier.side b false).inbox)
        ((State.createItem_chg ..).bar.resolve_left (by decide))).trans (State.positionAt_inbox ..)
    · have hon := State.createItem_ctxOn (x := State.withTrigger ((s.pop false).positionAt
        (bits (m.getD 2 0) 4 2) (leAt m 10 4)) (ItemCtx.fresh (leAt m 4 6) (m.getD 1 0 % 64))
        (bits (m.getD 2 0) 4 2) (m.getD 2 0 % 16) (leAt m 10 4)) hpassed
      refine (congrArg _ hon).trans ?_
      simp [State.withTrigger]
  · intro s m r hfront htype hrecs hlane hitem hcode hgen henc hcutoff
    refine Does.of_front (execVerdictMsg.eq_1 s) hfront htype ?_
    obtain ⟨b, hpop⟩ : ∃ b, s.pop true = { s with bar := b } := ⟨_, s.pop_only true⟩
    rw [hpop, State.verdictAt_live (s := { s with bar := b }) hrecs hlane hitem hcode hgen henc hcutoff,
      (State.fieldRefresh_sameHeld _).recs, State.takeEffect_recs]
    have hwithheld : ({ s with bar := b } : State).lrWithheld r.lane = s.lrWithheld r.lane := rfl
    simp [hrecs, hitem, hwithheld]
  · intro s m hfront htype hnone hspace
    refine Does.of_front (execRetraction.eq_1 s) hfront htype ?_
    have hqueue : (s.pop true).bar.field.queue = s.bar.field.queue := s.pop_queue true
    rw [State.retractAt_none (by rw [State.pop_field, hnone]), State.toHost_space (by rw [hqueue]; exact hspace)]
    refine ⟨rfl, ?_, ?_⟩
    · rw [← hqueue]
      rfl
    · rw [State.pop_only]
  · intro s m hfront htype hkind hhere
    obtain ⟨hpolicy, hgpo⟩ := State.gpoSet_here (s := s.pop true) (by rw [State.pop_field, hhere]) (leAt m 2 2) (leAt m 4 2)
    refine Does.of_front (execSetpointGpo.eq_1 s) hfront (by rw [htype, hkind]; rfl) ⟨?_, hpolicy, ?_⟩
    · exact inbox_of_bar ((State.gpoSet_chg ..).bar.resolve_left (by decide))
    · rw [hgpo, State.pop_field]
  · intro s m hfront htype hkind hhere
    have hhere' : (s.pop true).field.hostHere = true := by rw [State.pop_field, hhere]
    refine Does.of_front (execSetpointAnalogue.eq_1 s) hfront (by rw [htype, hkind]; rfl) ⟨?_, ?_⟩
    · exact inbox_of_bar (State.foldl_setpoint_bar m (List.range 4) _)
    · refine List.map_congr_left fun k hk => ?_
      have hrange : k ∈ List.range 4 := hk
      have hao : (s.pop true).ao k = s.ao k := by rw [State.ao, State.pop_field, State.ao]
      refine (State.foldl_setpoint_waiting hhere').trans ?_
      simp only [hrange, true_and, hao]
  · intro s m hfront htype hkind
    refine Does.of_front (execAdcReport.eq_1 s) hfront htype ?_
    simp only [hkind, if_true]
    refine ⟨inbox_of_bar (State.fset_bar ..), ?_, ?_⟩
    · rw [State.fget_fset_self]
      have hwidth : F.HK_FADC_RES_RESULT.width = 32 := rfl
      rw [hwidth]
      omega
    · exact OnlyFields.of_pop (State.fset_bar ..) (OnlyFields.fset ..)
  · intro s m hfront htype hkind
    refine Does.of_front (execAdcReport.eq_1 s) hfront htype ?_
    simp only [hkind, one_ne_zero, if_false]
    refine ⟨inbox_of_bar ((State.hkMonitor_chg ..).bar.resolve_left (by decide)), ?_⟩
    rw [State.hkMonitor_monitor, State.pop_only]

end Sys2Proof.Machine

/-! SUPPORT. Two commands of a function that was reset after the command was taken (R250), and the refutations of the
statements about ITEM and about the admission commands. -/

namespace Sys2Proof.Machine

section
variable {s : State} {f r k n : Nat} {d : Taken} {x : ItemCtx}

/-! ### An ADMIT whose contract is not read (R214) -/

theorem exec_admitLane_unread (hcmd : s.cmd (ringKey f r) 0x15 = some d) (hfunc : ringKey f r / 128 < mgtFunc)
    (hlen : 544 ≤ dOutLen d.bytes) : exec (.admitLane f r none) s = .next (s.done (ringKey f r) d.number 0x64) := by
  have hfits : outShort (ringKey f r) d 544 = false := by simp [outShort, hlen]
  have hinput : cmdInput (ringKey f r) d none = none := if_neg (Nat.not_le.mpr hfunc)
  simp [exec, execAdmitLane, cmdKey, hcmd, hfits, hinput]

theorem admitLane_orphan_fields (hrun : Runnable f r 0x15 d s) (hfunc : ringKey f r / 128 < mgtFunc)
    (hlen : 544 ≤ dOutLen d.bytes) (horphan : d.orphan = true) :
    Does (.admitLane f r none) s (fun t => t.fields = s.fields) := by
  obtain ⟨-, hcmd, htaken⟩ := hrun
  refine ⟨_, exec_admitLane_unread hcmd hfunc hlen, ?_⟩
  rw [State.done, State.complete_orphan htaken (State.cmd_slot hcmd) horphan]
  exact s.setRing_fields ..

/-! ### An ITEM whose input is there (R243) -/

theorem State.takenDesc_begun (htaken : s.takenDesc k n = some d) :
    (s.begun k n).takenDesc k n = some { d with started := true } := by
  have hnumber : d.number = n := by simpa using List.find?_some htaken
  have hsame : ((fun t : Taken => t.number == n) ∘ fun t => if t.number = n then { t with started := true } else t) =
      fun t : Taken => t.number == n := by
    funext t
    simp only [Function.comp]
    split <;> rfl
  rw [State.takenDesc, State.begun, State.updTaken, State.ring_setRing, List.find?_map, hsame]
  rw [State.takenDesc] at htaken
  rw [htaken, Option.map_some, if_pos hnumber]

theorem exec_item_duplicate (hcmd : s.cmd (ringKey f r) 1 = some d)
    (hon : s.ctxOn (dItem d.bytes) (dLane d.bytes) = some (n, x)) (hstate : x.state ≠ .created) :
    ∃ c, c.status = 0x42 ∧ exec (.item f r) s =
      .next (((s.begun (ringKey f r) d.number).count C.CTX_CNT_DUP 0).complete (ringKey f r) d.number c) := by
  have hon' : (s.begun (ringKey f r) d.number).ctxOn (dItem d.bytes) (dLane d.bytes) = some (n, x) := hon
  refine ⟨⟨0x42, true, 0xFF, 0,
    ((s.begun (ringKey f r) d.number).count C.CTX_CNT_DUP 0).sinceTake (ringKey f r) d.number, true⟩, rfl, ?_⟩
  simp only [exec, execItem, hcmd, State.joinInput, hon', hstate, if_false]

theorem item_orphan_tail (hrun : Runnable f r 1 d s)
    (hon : s.ctxOn (dItem d.bytes) (dLane d.bytes) = some (n, x)) (hstate : x.state ≠ .created)
    (horphan : d.orphan = true) :
    Does (.item f r) s (fun t => t.fget F.RING_CQ_TAIL_COUNT k = s.fget F.RING_CQ_TAIL_COUNT k) := by
  obtain ⟨-, hcmd, htaken⟩ := hrun
  obtain ⟨c, -, hexec⟩ := exec_item_duplicate hcmd hon hstate
  refine ⟨_, hexec, ?_⟩
  have hrings := (State.count_chg (s.begun (ringKey f r) d.number) C.CTX_CNT_DUP 0).rings.resolve_left (by decide)
  have htaken' : ((s.begun (ringKey f r) d.number).count C.CTX_CNT_DUP 0).takenDesc (ringKey f r) d.number =
      some { d with started := true } := by
    rw [State.takenDesc, State.ring, hrings]
    exact State.takenDesc_begun htaken
  rw [State.complete_orphan htaken' (State.cmd_slot (d := d) hcmd) horphan]
  exact State.count_fget _ _ _ _ _ (.inl (by decide))

end

/-! ### The refutations -/

/-- An ADMIT of 544 bytes for its result, which ring 0 of function 1 has taken. -/
def takenAdmit : Taken := ⟨0, 0x15 :: List.replicate 40 0 ++ [4] ++ List.replicate 22 0, 0, true, false, false, true, [],
  [], 0, false, false⟩

/-- Function 1 is reset while its ring holds the ADMIT. -/
def resetAdmit : State :=
  State.flr { State.reset with rings := [(ringKey 1 0, { Ring.empty with taken := [takenAdmit] })] } 1

theorem runnable_resetAdmit : Runnable 1 0 0x15 { takenAdmit with orphan := true } resetAdmit := by
  decide +kernel

/-- Refutes O34: an ADMIT whose contract could not be read is claimed to complete with 0x64, but where its function was
reset after the command was taken (R250), it ends without a completion in the ring, and no register changes. -/
theorem not_lanesAreSuspendedResumedAndReleased : ¬ Obligations.lanes_are_suspended_resumed_and_released := by
  unfold Obligations.lanes_are_suspended_resumed_and_released
  rintro ⟨-, -, -, -, hadmit, -⟩
  obtain ⟨t, ⟨hcompleted, -⟩, hfields⟩ := (hadmit _ 1 0 _ runnable_resetAdmit (by decide) (by decide)).both
    (admitLane_orphan_fields runnable_resetAdmit (by decide) (by decide) rfl)
  exact not_completed_of_fields hfields hcompleted

/-- A second ITEM of item 0 of lane 0 that ring 0 of function 1 holds as one of a function that was reset. -/
def orphanedItem : Taken := { orphanedUnload with bytes := 1 :: List.replicate 63 0, released := true }

/-- A device that holds the command, and the item's context since its first input came. -/
def orphanedItemRing : State :=
  { State.reset with
    items := [(0, { ItemCtx.fresh 0 0 with state := .running })]
    rings := [(ringKey 1 0, { Ring.empty with taken := [orphanedItem] })] }

/-- Refutes O31: a second input of an item is claimed to complete with status 0x42 whatever became of its function, but a
command of a function that was reset ends without a completion in the ring (R250), and the tail of the completion queue
stays. A reset forgets the descriptors of an item ring, so it leaves no such ITEM: the clause lacks that premise. -/
theorem not_itemDescriptorsJoinTheirContext : ¬ Obligations.item_descriptors_join_their_context := by
  unfold Obligations.item_descriptors_join_their_context
  rintro ⟨-, hsecond, -, -⟩
  have hrun : Runnable 1 0 1 orphanedItem orphanedItemRing := by decide
  have hon : orphanedItemRing.ctxOn (dItem orphanedItem.bytes) (dLane orphanedItem.bytes) =
      some (0, { ItemCtx.fresh 0 0 with state := .running }) := by decide
  have hstate : (ItemCtx.state { ItemCtx.fresh 0 0 with state := .running }) ≠ .created := by decide
  obtain ⟨t, ⟨⟨htail, -⟩, -⟩, hstays⟩ := (hsecond _ 1 0 0 _ _ hrun rfl hon hstate (by decide)).both
    (item_orphan_tail (k := ringKey 1 0) hrun hon hstate rfl)
  rw [htail] at hstays
  omega

end Sys2Proof.Machine

/-! SUPPORT. Doorbells, ring control and moderated messages (R235 to R252), the takes and the reads of host memory (R234, R238,
R242, R249), function level resets (R250) and the training of the host link (R231). -/

namespace Sys2Proof.Machine

/-! ### Writing one ring, one field and one counter -/

section
variable {s t : State} {f : Fld} {k j : Nat}

theorem State.ring_setRing_ne (s : State) (x : Ring) (h : j ≠ k) : (s.setRing k x).ring j = s.ring j := by
  simp [State.ring, State.setRing, Tab.getD_set_ne _ _ _ h]

theorem State.ring_congr (h : t.rings = s.rings) (k : Nat) : t.ring k = s.ring k := by
  rw [State.ring, State.ring, h]

/-- A field cuts what is written to it by itself. -/
theorem State.fset_mod (s : State) (f : Fld) (i v : Nat) : s.fset f i (v % 2 ^ f.width) = s.fset f i v := by
  rw [State.fset, State.fset, Nat.mod_mod]

theorem OnlyFields.then_count {l : List (Fld × Nat)} {c : Ctr} {i : Nat} (h : OnlyFields l s t) (hc : (c.cnt, i) ∈ l) :
    OnlyFields l s (t.count c i) := by
  unfold State.count State.countAt
  split
  · exact h
  · exact h.then_fset hc

theorem OnlyFields.setRing_only {l : List (Fld × Nat)} (h : OnlyFields l s t) (k : Nat) (x : Ring) :
    t.setRing k x = { s with fields := t.fields, rings := (t.setRing k x).rings } :=
  congrArg (fun u : State => { u with rings := (t.setRing k x).rings }) h.1

/-- What every step of a fold keeps, the fold keeps. -/
theorem State.foldl_keeps {α β : Type} {g : State → β} {step : State → α → State} (hstep : ∀ u x, g (step u x) = g u)
    (l : List α) (s : State) : g (l.foldl step s) = g s := by
  induction l generalizing s with
  | nil => rfl
  | cons x l ih => exact (ih _).trans (hstep s x)

end

/-! ### Head doorbells (R244) -/

section
variable {s : State} {k h : Nat}

theorem State.doorHead_accepted (hle : cntDiff h (s.fget F.RING_CQ_HEAD_COUNT k) ≤
      cntDiff (s.fget F.RING_CQ_TAIL_COUNT k) (s.fget F.RING_CQ_HEAD_COUNT k)) :
    s.doorHead k h = (s.fset F.RING_CQ_HEAD_COUNT k h).setRing k { s.ring k with irq := irqAfter (s.ring k).irq h } :=
  if_pos hle

theorem State.doorHead_ignored (hlt : cntDiff (s.fget F.RING_CQ_TAIL_COUNT k) (s.fget F.RING_CQ_HEAD_COUNT k) <
      cntDiff h (s.fget F.RING_CQ_HEAD_COUNT k)) :
    s.doorHead k h = (s.flag F.RING_STATUS_CQH_BAD k).count C.HIF_CNT_DB_BAD 0 :=
  if_neg (Nat.not_le.mpr hlt)

/-- Which completions wait for a message is no condition of a take (R238). -/
theorem State.mayTake_setRing_irq (s : State) (func k : Nat) (irq : List (Nat × Nat)) :
    (s.setRing k { s.ring k with irq := irq }).mayTake func k = s.mayTake func k := by
  simp only [State.mayTake, State.ring_setRing]
  rfl

end

/-- Settles O54: the two sides of R244's test are `State.doorHead_accepted` and `State.doorHead_ignored`. -/
theorem headDoorbellsAreAcceptedOrIgnored : Obligations.head_doorbells_are_accepted_or_ignored := by
  unfold Obligations.head_doorbells_are_accepted_or_ignored
  refine ⟨?_, ?_⟩
  · intro s f r v hring hle
    have hexec : exec (.cqDoorbell f r v) s = .next (s.doorHead (ringKey f r) (v % 2 ^ 32)) := if_pos hring
    rw [State.doorHead_accepted hle] at hexec
    have honly := OnlyFields.fset s F.RING_CQ_HEAD_COUNT (ringKey f r) (v % 2 ^ 32)
    refine ⟨_, hexec, ?_, ?_, ⟨rfl, honly.2⟩, ?_⟩
    · rw [State.setRing_at_fget, State.fget_fset_self]
      exact Nat.mod_mod _ _
    · rw [State.ring_setRing]
    · rw [← State.fset_mod s F.RING_CQ_HEAD_COUNT (ringKey f r) v]
      exact iff_of_eq (congrArg (· = true) (State.mayTake_setRing_irq _ _ _ _))
  · intro s f r v hring hlt
    have hexec : exec (.cqDoorbell f r v) s = .next (s.doorHead (ringKey f r) (v % 2 ^ 32)) := if_pos hring
    rw [State.doorHead_ignored hlt] at hexec
    refine ⟨_, hexec, ?_, ?_, ?_⟩
    · rw [State.count_fget _ _ _ _ _ (.inl (by decide)), State.flag, State.fget_fset_self]
      rfl
    · rw [Counted, State.count_fget_self, State.flag, State.fon_fset_ne _ _ (.inl (by decide)),
        State.fget_fset_ne _ _ (.inl (by decide))]
    · exact ((OnlyFields.fset s F.RING_STATUS_CQH_BAD _ 1).mono (by simp)).then_count (by simp [C.HIF_CNT_DB_BAD])

/-! ### Tail doorbells (R237) -/

section
variable {s : State} {k v : Nat}

theorem State.doorTail_accepted (hrun : s.fget F.RING_STATUS_STATE k = 1)
    (htail : cntDiff v (s.fget F.RING_SQ_TAIL_COUNT k) ≤ s.sqSize k)
    (hhead : cntDiff v (s.fget F.RING_SQ_HEAD_COUNT k) ≤ s.sqSize k) :
    s.doorTail k v = s.fset F.RING_SQ_TAIL_COUNT k v := by
  simp [State.doorTail, hrun, htail, hhead]

theorem State.doorTail_beyond (hfar : s.sqSize k < cntDiff v (s.fget F.RING_SQ_TAIL_COUNT k)) :
    s.doorTail k v = s.dbBad k := by
  simp [State.doorTail, Nat.not_le.mpr hfar]

theorem State.dbBad_flags (s : State) (k : Nat) : (s.dbBad k).fget F.RING_STATUS_DB_BAD k = 1 ∧
    (s.dbBad k).fget F.RING_SQ_TAIL_COUNT k = s.fget F.RING_SQ_TAIL_COUNT k := by
  unfold State.dbBad
  refine ⟨?_, ?_⟩
  · rw [State.logRate_fget _ _ _ _ _ _ (by decide), State.count_fget _ _ _ _ _ (.inl (by decide)), State.flag,
      State.fget_fset_self]
    rfl
  · rw [State.logRate_fget _ _ _ _ _ _ (by decide), State.count_fget _ _ _ _ _ (.inl (by decide)), State.flag,
      State.fget_fset_of_code_ne _ (by decide)]

/-! ### Starting and stopping a ring (R235, R250, R252) -/

variable {f r : Nat}

/-- A ring runs, with its counts at 0. -/
def State.runFromZero (s : State) (k : Nat) : State := (s.zeroCounts k).fset F.RING_STATUS_STATE k 1

theorem State.runFromZero_counts (s : State) (k : Nat) :
    (s.runFromZero k).fget F.RING_STATUS_STATE k = 1 ∧
    (s.runFromZero k).fget F.RING_SQ_TAIL_COUNT k = 0 ∧ (s.runFromZero k).fget F.RING_SQ_HEAD_COUNT k = 0 ∧
    (s.runFromZero k).fget F.RING_CQ_TAIL_COUNT k = 0 ∧ (s.runFromZero k).fget F.RING_CQ_HEAD_COUNT k = 0 := by
  unfold State.runFromZero State.zeroCounts
  refine ⟨?_, ?_, ?_, ?_, ?_⟩
  all_goals simp (disch := decide) only [State.fget_fset_of_code_ne, State.fget_fset_self, Nat.zero_mod]
  rfl

theorem State.runFromZero_onlyFields (s : State) (k : Nat) :
    OnlyFields [(F.RING_SQ_HEAD_COUNT, k), (F.RING_SQ_TAIL_COUNT, k), (F.RING_CQ_TAIL_COUNT, k),
      (F.RING_CQ_HEAD_COUNT, k), (F.RING_SQ_TAKE_COUNT, k), (F.RING_STATUS_STATE, k)] s (s.runFromZero k) := by
  unfold State.runFromZero State.zeroCounts
  refine ((((((OnlyFields.fset s _ k _).mono ?_).then_fset ?_).then_fset ?_).then_fset ?_).then_fset ?_).then_fset ?_
  all_goals simp

/-- A ring as RING_START leaves it: of what it held, the commands of a function that was reset run on. -/
def Ring.started (x : Ring) : Ring :=
  { x with taken := x.taken.filter (fun t => t.orphan), irq := [], wroteHead := 0, headDue := false }

theorem execRingStart_starts (hring : ringExists f r = true) (hok : s.ringStartReason f (ringKey f r) = 0) :
    exec (.ringStart f r) s = .next ((s.runFromZero (ringKey f r)).setRing (ringKey f r) (s.ring (ringKey f r)).started) := by
  have hsame : (s.runFromZero (ringKey f r)).ring (ringKey f r) = s.ring (ringKey f r) :=
    State.ring_congr (by rw [(State.runFromZero_onlyFields s _).1]) _
  rw [← hsame]
  simp only [exec, execRingStart, hring, hok, Bool.not_true, Bool.false_eq_true, if_false, if_true]
  rfl

theorem execRingStart_refuses (hring : ringExists f r = true) (hbad : s.ringStartReason f (ringKey f r) ≠ 0) :
    exec (.ringStart f r) s = .next (((s.flag F.RING_STATUS_START_REFUSED (ringKey f r)).fset F.RING_STATUS_REASON
      (ringKey f r) (s.ringStartReason f (ringKey f r))).log { code := 0x0D01, argA := r, argB := f }) := by
  simp only [exec, execRingStart, hring, hbad, Bool.not_true, Bool.false_eq_true, if_false]

theorem execRingStop_stops (hring : ringExists f r = true) (hrun : s.fget F.RING_STATUS_STATE (ringKey f r) = 1) :
    exec (.ringStop f r) s = .next (s.fset F.RING_STATUS_STATE (ringKey f r) 2) := by
  simp [exec, execRingStop, hring, hrun]

theorem execRingStopped_ends (hring : ringExists f r = true) (hstop : s.fget F.RING_STATUS_STATE (ringKey f r) = 2)
    (hdone : (s.ring (ringKey f r)).taken.all (fun x => x.released && !x.slot) = true) :
    exec (.ringStopped f r) s = .next ((s.fset F.RING_STATUS_STATE (ringKey f r) 0).log
      { code := 0x0D04, argA := r, argB := f }) := by
  have hleft : (s.ring (ringKey f r)).taken.all (fun x => x.orphan || (x.released && !x.slot)) = true := by
    rw [List.all_eq_true] at hdone ⊢
    intro x hx
    rw [hdone x hx, Bool.or_true]
  simp only [exec, execRingStopped, hring, hstop, hleft, beq_self_eq_true, Bool.and_self, if_true]

/-! ### Moderation and its message (R246, R252), and the peer window (R248) -/

theorem execRingCommit_applies (hring : ringExists f r = true) (hmod : s.staging F.RING_MOD_COUNT (ringKey f r) ≠ 0) :
    exec (.ringCommit f r) s = .next ((s.applyAll [(F.RING_MOD_COUNT, ringKey f r), (F.RING_MOD_TIME_US, ringKey f r)]).ringIrq
      (ringKey f r)) := by
  simp only [exec, execRingCommit, hring, hmod, Bool.not_true, Bool.false_eq_true, if_false]

theorem State.ringIrq_fget (s : State) (k : Nat) (g : Fld) (i : Nat) : (s.ringIrq k).fget g i = s.fget g i := by
  rw [State.fget, State.fget, (State.ringIrq_chg s k).fields.resolve_left (by decide)]

theorem execIrqModTimer_sends {n a : Nat} {rest : List (Nat × Nat)} (hirq : (s.ring (ringKey f r)).irq = (n, a) :: rest)
    (hen : s.fon F.RING_CFG_IRQ_EN (ringKey f r) = true) (hus : s.fget F.RING_MOD_TIME_US (ringKey f r) ≠ 0)
    (hdue : a + s.fget F.RING_MOD_TIME_US (ringKey f r) * 1000 ≤ s.ns) :
    exec (.irqModTimer f r) s = .next (s.ringMsg (ringKey f r)) := by
  simp [exec, execIrqModTimer, hirq, hen, hus, hdue]

/-- The message covers every completion that waited, whether it goes out or its vector is masked. -/
theorem State.ringMsg_covers (s : State) (k : Nat) : ((s.ringMsg k).ring k).irq = [] ∧
    s.ringMsg k = { s with
      rings := (s.ringMsg k).rings, out := (s.ringMsg k).out, msixPending := (s.ringMsg k).msixPending } := by
  unfold State.ringMsg State.sendMsix
  dsimp only
  split_ifs <;> exact ⟨congrArg Ring.irq (State.ring_setRing s k _), rfl⟩

theorem execAtsInvalidate_keeps (hats : s.ats.contains f = true) (hwindow : (s.ring (ringKey f r)).window.isSome = true) :
    exec (.atsInvalidate f r true) s = .next ((s.count C.HIF_CNT_ATSINV 0).setRing (ringKey f r)
      { s.ring (ringKey f r) with windowOk := true }) := by
  have hthere : (s.ring (ringKey f r)).window.isNone = false := by rw [← Option.not_isSome, hwindow]; rfl
  simp only [exec, execAtsInvalidate, hats, hthere, Bool.not_true, Bool.or_self, Bool.false_eq_true, if_false, if_true]

end

/-- Settles O29: each command is the update that its lemma names, and the fields follow from the update. -/
theorem doorbellsAndRingControl : Obligations.doorbells_and_ring_control := by
  unfold Obligations.doorbells_and_ring_control
  refine ⟨?_, ?_, ?_, ?_, ?_, ?_, ?_, ?_, ?_⟩
  · intro s f r v hring hrun htail hhead
    have hexec : exec (.sqDoorbell f r v) s = .next (s.doorTail (ringKey f r) (v % 2 ^ 32)) := if_pos hring
    rw [State.doorTail_accepted hrun htail hhead] at hexec
    refine ⟨_, hexec, ?_, OnlyFields.fset _ _ _ _⟩
    rw [State.fget_fset_self]
    exact Nat.mod_mod _ _
  · intro s f r v hring hfar
    have hexec : exec (.sqDoorbell f r v) s = .next (s.doorTail (ringKey f r) (v % 2 ^ 32)) := if_pos hring
    rw [State.doorTail_beyond hfar] at hexec
    exact ⟨_, hexec, (State.dbBad_flags s _).symm⟩
  · intro s f r hring hok
    obtain ⟨hstate, hsqTail, hsqHead, hcqTail, hcqHead⟩ := State.runFromZero_counts s (ringKey f r)
    refine ⟨_, execRingStart_starts hring hok, ?_⟩
    simp only [State.setRing_at_fget, State.ring_setRing]
    exact ⟨hstate, hsqTail, hsqHead, hcqTail, hcqHead, rfl, (State.runFromZero_onlyFields s _).setRing_only _ _⟩
  · rintro s f r k hring rfl hbad hk
    refine ⟨_, execRingStart_refuses hring hbad, ?_, ?_, ?_, (State.log_chg _ _).rings.resolve_left (by decide)⟩
    · rw [State.log_fget _ _ _ _ (by decide), State.fget_fset_of_code_ne _ (by decide), State.flag, State.fget_fset_self]
      rfl
    · rw [State.log_fget _ _ _ _ (by decide), State.fget_fset_self]
      exact Nat.mod_eq_of_lt (hk.trans (by decide))
    · rw [State.log_fget _ _ _ _ (by decide), State.fget_fset_of_code_ne _ (by decide), State.flag,
        State.fget_fset_of_code_ne _ (by decide)]
  · intro s f r hring hrun
    exact ⟨_, execRingStop_stops hring hrun, State.fget_fset_self _ _ _ _, OnlyFields.fset _ _ _ _⟩
  · intro s f r hring hstop hdone
    refine ⟨_, execRingStopped_ends hring hstop hdone, ?_⟩
    beta_reduce
    rw [State.log_fget _ _ _ _ (by decide), State.fget_fset_self]
    rfl
  · rintro s f r v hring rfl hmod hv
    refine ⟨_, execRingCommit_applies hring hmod, ?_, fun g i h => ?_⟩
    · have hapart : F.RING_MOD_COUNT.code ≠ F.RING_MOD_TIME_US.code := by decide
      rw [State.ringIrq_fget, State.applyAll_fget (by simp [Fld.key_inj, hapart]) (by simp)]
      exact Nat.mod_eq_of_lt hv
    · rw [State.ringIrq_fget]
      exact (State.applyAll_onlyFields _ _).2 g i h
  · intro s f r n a rest hirq hen hus hdue
    exact ⟨_, execIrqModTimer_sends hirq hen hus hdue, State.ringMsg_covers s (ringKey f r)⟩
  · intro s f r hats hwindow
    refine ⟨_, execAtsInvalidate_keeps hats hwindow, ?_⟩
    beta_reduce
    rw [State.ring_setRing]
    exact ⟨rfl, rfl⟩

/-! ### A function level reset (R250) -/

section
variable {s : State} {f k : Nat}

/-- A ring as a reset leaves it: of its descriptors those of commands that run on, no message due and no peer window. -/
def Ring.cleared (x : Ring) : Bool := x.taken.all (fun t => t.orphan) && x.irq.isEmpty && x.window.isNone

theorem State.resetFields_frame (s : State) (k : Nat) : Chg 0x8000000000018 s (s.resetFields ringFields k) :=
  State.resetFields_chg rfl rfl (Chg.refl _ s)

/-- One ring's part of a reset. -/
def State.resetRing (s : State) (k : Nat) : State := (s.setRing k .empty).resetFields ringFields k

theorem State.resetRing_ring (s : State) (j k : Nat) : (s.resetRing j).ring k = (s.setRing j .empty).ring k :=
  State.ring_congr ((State.resetFields_frame _ j).rings.resolve_left (by decide)) k

theorem State.foldl_resetRing (ks : List Nat) (hk : k ∈ ks ∨ s.ring k = .empty) :
    (ks.foldl State.resetRing s).ring k = .empty := by
  induction ks generalizing s with
  | nil => exact hk.resolve_left List.not_mem_nil
  | cons j ks ih =>
    rw [List.foldl_cons]
    refine ih ?_
    rw [State.resetRing_ring]
    by_cases hj : k = j
    · rw [hj, State.ring_setRing]
      exact .inr rfl
    · rw [State.ring_setRing_ne s .empty hj]
      exact hk.imp_left fun h => (List.mem_cons.mp h).resolve_left hj

theorem State.resetFunc_ring (s : State) (hk : k ∈ ringsOf f) : (s.resetFunc f).ring k = .empty :=
  State.foldl_resetRing (ringsOf f) (.inl hk)

/-- The rings of a function that still hold something after its reset: those of the commands that run on. -/
def State.restoreTaken (s : State) (left : List (Nat × List Taken)) : State :=
  left.foldl (fun s p => if p.2.isEmpty then s else s.setRing p.1 { s.ring p.1 with taken := p.2 }) s

theorem State.restoreTaken_cleared (left : List (Nat × List Taken)) (horphan : ∀ p ∈ left, p.2.all (fun t => t.orphan) = true)
    (hclear : (s.ring k).cleared = true) : ((s.restoreTaken left).ring k).cleared = true := by
  induction left generalizing s with
  | nil => exact hclear
  | cons p left ih =>
    obtain ⟨hp, hleft⟩ := List.forall_mem_cons.mp horphan
    refine ih hleft ?_
    dsimp only
    split
    · exact hclear
    · by_cases hk : k = p.1
      · subst hk
        rw [State.ring_setRing]
        simp only [Ring.cleared, Bool.and_eq_true] at hclear ⊢
        obtain ⟨⟨-, hirq⟩, hwindow⟩ := hclear
        exact ⟨⟨hp, hirq⟩, hwindow⟩
      · rwa [State.ring_setRing_ne _ _ hk]

theorem State.restoreTaken_frame (s : State) (left : List (Nat × List Taken)) : Chg 0x800000 s (s.restoreTaken left) := by
  refine Chg.foldl (fun u p hu => ?_) (Chg.refl _ s)
  dsimp only
  split
  · exact hu
  · exact Chg.step (State.setRing_chg _ _ _) rfl hu

/-- A reset clears the function and puts the commands that run on back into their rings. -/
theorem State.flr_restores (s : State) (f : Nat) : ∃ (u : State) (left : List (Nat × List Taken)),
    s.flr f = (u.resetFunc f).restoreTaken left ∧ u.busMaster = s.busMaster ∧
    ∀ p ∈ left, p.2.all (fun t => t.orphan) = true := by
  refine ⟨_, _, rfl, rfl, ?_⟩
  intro p hp
  obtain ⟨k, -, rfl⟩ := List.mem_map.mp hp
  dsimp only
  split <;> simp

theorem State.flr_ring_cleared (s : State) (hk : k ∈ ringsOf f) : ((s.flr f).ring k).cleared = true := by
  obtain ⟨u, left, hflr, -, horphan⟩ := State.flr_restores s f
  rw [hflr]
  refine State.restoreTaken_cleared left horphan ?_
  rw [State.resetFunc_ring u hk]
  rfl

theorem State.resetFunc_busMaster (s : State) (f : Nat) :
    (s.resetFunc f).busMaster = s.busMaster.filter (fun g => g != f) := by
  unfold State.resetFunc
  refine congrArg (List.filter fun g => g != f) ?_
  refine (State.foldl_keeps (g := State.busMaster) (fun u k => ?_) _ _).trans (State.foldl_keeps (fun u l => ?_) _ _)
  · exact (State.resetFields_frame _ k).busMaster.resolve_left (by decide)
  · split
    · rfl
    · split_ifs
      · exact (State.unbindLane_chg u l).busMaster.resolve_left (by decide)
      · rfl

theorem State.flr_busMaster (s : State) (f : Nat) : (s.flr f).busMaster = s.busMaster.filter (fun g => g != f) := by
  obtain ⟨u, left, hflr, hu, -⟩ := State.flr_restores s f
  rw [hflr, (State.restoreTaken_frame _ left).busMaster.resolve_left (by decide), State.resetFunc_busMaster, hu]

/-- The reads of the function end but for those of spilled chunks. -/
theorem State.flr_reads (s : State) (f : Nat) : (s.flr f).reads.all (fun r => r.func != f || (match r.use with
    | .chunk _ _ _ => true
    | _ => false)) = true := by
  obtain ⟨u, left, hflr, -, -⟩ := State.flr_restores s f
  rw [hflr, (State.restoreTaken_frame _ left).reads.resolve_left (by decide), State.resetFunc]
  exact List.all_eq_true.mpr fun r hr => (List.mem_filter.mp hr).2

theorem State.foldl_flr_busMaster (fs : List Nat) (s : State) :
    ∀ g ∈ (fs.foldl (fun s f => s.flr f) s).busMaster, g ∈ s.busMaster ∧ g ∉ fs := by
  induction fs generalizing s with
  | nil => exact fun g hg => ⟨hg, List.not_mem_nil⟩
  | cons f fs ih =>
    intro g hg
    obtain ⟨hmem, hrest⟩ := ih (s.flr f) g hg
    rw [State.flr_busMaster, List.mem_filter, bne_iff_ne] at hmem
    exact ⟨hmem.1, List.not_mem_cons_of_ne_of_not_mem hmem.2 hrest⟩

theorem execVfFlr_unlocked (hlo : 1 ≤ f) (hhi : f ≤ 32) (htdi : s.tdi f = 0) :
    exec (.vfFlr f) s = .next ((s.flr f).log { code := 0x0C04, argA := f }) := by
  have hf : (decide (f = 0) || decide (32 < f)) = false := by
    simp only [Bool.or_eq_false_iff, decide_eq_false_iff_not]
    omega
  have hkeep : ((s.flr f).log { code := 0x0C04, argA := f }).tdi f = 0 := by
    rw [State.tdi, (State.log_chg _ _).keep.resolve_left (by decide), (State.flr_chg s f).keep.resolve_left (by decide)]
    exact htdi
  simp only [exec, execVfFlr, hf, hkeep, Bool.false_eq_true, if_false, if_true]

/-! ### Bus mastering and the link (R231, R250) -/

theorem execBusMasterEnable_idle (hf : f ≤ 32) (hitems : s.items = []) : exec (.busMasterEnable f) s =
    .next (if s.busMaster.contains f then s else { s with busMaster := s.busMaster ++ [f] }) := by
  have hitems' : (if s.busMaster.contains f then s else { s with busMaster := s.busMaster ++ [f] }).items = [] := by
    split <;> exact hitems
  simp only [exec, execBusMasterEnable, Nat.not_lt.mpr hf, if_false, hitems', List.filter_nil, List.foldl_nil]

/-- The registers of a link that trains at a generation, a width and a format. -/
def State.trained (s : State) (gen width : Nat) (flit : Bool) : State :=
  (((s.fset F.HIF_LINK_GEN 0 gen).fset F.HIF_LINK_WIDTH 0 width).fset F.HIF_LINK_FLIT 0 (ofBool flit)).fset
    F.ADM_CAPS_PCIE_GBS 0 (pcieGbs gen width)

theorem State.trained_link (s : State) {gen width : Nat} {flit : Bool} (hgen : gen < 16) (hwidth : width < 32) :
    (s.trained gen width flit).fget F.HIF_LINK_GEN 0 = gen ∧ (s.trained gen width flit).fget F.HIF_LINK_WIDTH 0 = width ∧
    (s.trained gen width flit).fget F.HIF_LINK_FLIT 0 = ofBool flit := by
  unfold State.trained
  refine ⟨?_, ?_, ?_⟩
  all_goals simp (disch := decide) only [State.fget_fset_of_code_ne, State.fget_fset_self]
  · exact Nat.mod_eq_of_lt hgen
  · exact Nat.mod_eq_of_lt hwidth
  · cases flit <;> rfl

/-- The fields of HIF_LINK that a training sets. -/
def linkFlds : List Fld := [F.HIF_LINK_GEN, F.HIF_LINK_WIDTH, F.HIF_LINK_FLIT]

/-- Neither the event log nor HIF_STATUS.LINK_DEGRADED is a field of the link. -/
theorem linkFlds_apart : ∀ g ∈ linkFlds, logFlds.all (fun h => g.code != h.code) = true ∧
    g.code ≠ F.HIF_STATUS_LINK_DEGRADED.code := by
  decide

/-- A retrain to less is reported, which leaves the link's registers as trained. -/
theorem execLinkRetrain_trains {gen width : Nat} (flit : Bool) (hup : s.power.linkUp = true) (hlo : 1 ≤ gen) (hhi : gen ≤ 6)
    (hwidth : width = 1 ∨ width = 2 ∨ width = 4 ∨ width = 8 ∨ width = 16) :
    Does (.linkRetrain gen width flit) s (fun t =>
      ∀ g ∈ linkFlds, t.fget g 0 = (s.trained gen width flit).fget g 0) := by
  have hok : (!s.power.linkUp || decide (gen = 0) || decide (6 < gen) ||
      !(width == 1 || width == 2 || width == 4 || width == 8 || width == 16)) = false := by
    have hlegal : (width == 1 || width == 2 || width == 4 || width == 8 || width == 16) = true := by
      simpa [or_assoc] using hwidth
    simp only [hup, hlegal, Bool.not_true, Bool.false_or, Bool.or_false, Bool.or_eq_false_iff, decide_eq_false_iff_not]
    omega
  unfold Does
  simp only [exec, execLinkRetrain, hok, Bool.false_eq_true, if_false]
  split
  · refine ⟨_, rfl, fun g hg => ?_⟩
    obtain ⟨hlog, hflag⟩ := linkFlds_apart g hg
    rw [State.log_fget _ _ _ _ hlog, State.flag, State.fget_fset_of_code_ne _ hflag]
    rfl
  · exact ⟨_, rfl, fun _ _ => rfl⟩

end

/-- Settles O30: what a reset leaves (`State.flr_ring_cleared`, `State.flr_reads`, `State.flr_busMaster`), for the PF folded
over every function, and the two commands that only set. -/
theorem functionsResetAndTheLinkRetrains : Obligations.functions_reset_and_the_link_retrains := by
  unfold Obligations.functions_reset_and_the_link_retrains
  refine ⟨?_, ?_, ?_, ?_⟩
  · intro s v hlo hhi htdi
    have hlog := State.log_chg (s.flr v) { code := 0x0C04, argA := v }
    refine ⟨_, execVfFlr_unlocked hlo hhi htdi, ?_, ?_, List.all_eq_true.mpr fun k hk => ?_⟩
    · rw [hlog.busMaster.resolve_left (by decide), State.flr_busMaster]
      simp
    · rw [hlog.reads.resolve_left (by decide)]
      exact State.flr_reads s v
    · have hring : ringKey v k ∈ ringsOf v := by
        rw [ringsOf, ringCount, if_neg (by omega)]
        exact List.mem_map_of_mem hk
      rw [State.ring_congr (hlog.rings.resolve_left (by decide))]
      exact State.flr_ring_cleared s hring
  · intro s
    refine ⟨_, rfl, List.all_eq_true.mpr fun g hg => ?_⟩
    rw [State.foldl_keeps (g := State.busMaster) fun u v => (State.tdiFail_chg u v).busMaster.resolve_left (by decide),
      (State.log_chg _ _).busMaster.resolve_left (by decide)] at hg
    have hnot := (State.foldl_flr_busMaster _ s g hg).2
    rw [List.mem_range] at hnot
    exact decide_eq_true (by omega)
  · intro s f hf hitems
    refine ⟨_, execBusMasterEnable_idle hf hitems, ?_⟩
    split
    · next h => exact ⟨h, rfl⟩
    · exact ⟨by simp, rfl⟩
  · intro s g w flit hup hlo hhi hw
    obtain ⟨t, hexec, hsame⟩ := execLinkRetrain_trains flit hup hlo hhi hw
    obtain ⟨hgen, hwidth, hflit⟩ := State.trained_link s (gen := g) (width := w) (flit := flit) (by omega) (by omega)
    exact ⟨t, hexec, (hsame _ (by decide)).trans hgen, (hsame _ (by decide)).trans hwidth,
      (hsame _ (by decide)).trans hflit⟩

/-! ### An input read that fails for good (R249) -/

section
variable {s : State} {n off status : Nat} {x : ItemCtx} {q : HostRead}

/-- An item whose work is abandoned gives up the input that it asked for again. -/
theorem State.abandon_drops_reread (hitem : s.item n = some x) (huse : q.use = .again n off) :
    q ∉ (s.abandon x.lane x.item).reads := by
  intro hmem
  have hkept := (List.mem_filter.mp hmem).2
  simp [huse, hitem] at hkept

theorem State.withholdItem_reads (hitem : s.item n = some x) :
    (s.withholdItem n).reads = (s.abandon x.lane x.item).reads := by
  simp only [State.withholdItem, hitem]
  split_ifs
  · rfl
  · exact (State.sendVerdict_chg _ _ _).reads.resolve_left (by decide)
  · exact (State.itemState_chg _ _ _).reads.resolve_left (by decide)

theorem State.endItem_reads (hitem : s.item n = some x) : (s.endItem n status).reads = (s.abandon x.lane x.item).reads := by
  have hcompleted : ((s.withholdItem n).completeItem n status 0xFF).reads = (s.abandon x.lane x.item).reads :=
    ((State.completeItem_chg _ _ _ _).reads.resolve_left (by decide)).trans (State.withholdItem_reads hitem)
  simp only [State.endItem, hitem]
  split_ifs
  · exact hcompleted
  · exact ((State.closeItem_chg _ _).reads.resolve_left (by decide)).trans hcompleted

theorem State.inputLost_drops_reread (hitem : s.item n = some x) (huse : q.use = .again n off) :
    q ∉ (s.inputLost n status).reads := by
  have hitem' : ((s.count C.HIF_CNT_RDERR 0).flag F.HIF_STATUS_READ_ERR_SEEN 0).item n = some x := by
    rw [State.item, (State.flag_chg _ _ _).items.resolve_left (by decide),
      (State.count_chg _ _ _).items.resolve_left (by decide)]
    exact hitem
  have hlogged (e : Ev) : (((s.count C.HIF_CNT_RDERR 0).flag F.HIF_STATUS_READ_ERR_SEEN 0).log e).item n = some x := by
    rw [State.item, (State.log_chg _ _).items.resolve_left (by decide)]
    exact hitem'
  simp only [State.inputLost, hitem']
  rw [State.endItem_reads (hlogged _)]
  exact State.abandon_drops_reread (hlogged _) huse

theorem hostReadFail_drops_reread {tag pos : Nat} {r : HostRead} (hread : s.findRead tag = some r)
    (hinput : r.use = .input n pos)
    (hagain : r.again = true) (hitem : s.item n = some x) (huse : q.use = .again n off) :
    Does (.hostReadFail tag) s (fun t => q ∉ t.reads) := by
  refine ⟨s.readLost r, ?_, ?_⟩
  · simp [exec, execHostReadFail, hread, hinput, hagain]
  · simp only [State.readLost, hinput]
    exact State.inputLost_drops_reread (s := s.endRead r.tag) hitem huse

end

/-- The read of an item's input, which has failed once. -/
def failedRead : HostRead := ⟨3, 1, 0, 64, .input 0 0, true, false⟩

/-- Another read of the same input, asked for again. -/
def rereadInput : HostRead := ⟨4, 1, 0, 64, .again 0 0, false, false⟩

/-- A device with both reads under way for a running item. -/
def rereadingItem : State :=
  { State.reset with
    items := [(0, { ItemCtx.fresh 0 0 with state := .running })]
    reads := [failedRead, rereadInput] }

/-- Refutes O28: HOST_READ_FAIL is claimed to end the failed read of an item's input and no other, but the item ends
(R243, R249) and with its work every other read of its input, here one that was asked for again. The clause speaks of
every state and lacks the premise that the item has no other read. -/
theorem not_descriptorsAreTakenAndRead : ¬ Obligations.descriptors_are_taken_and_read := by
  unfold Obligations.descriptors_are_taken_and_read
  rintro ⟨-, -, -, -, hfail, -⟩
  obtain ⟨t, ⟨-, hreads⟩, hdropped⟩ := (hfail rereadingItem 3 0 0 failedRead rfl rfl rfl).both
    (hostReadFail_drops_reread (q := rereadInput) rfl rfl rfl rfl rfl)
  rw [hreads] at hdropped
  exact hdropped (by decide)

end Sys2Proof.Machine

/-! SUPPORT. The barrier link (R258, R259, R263): its training and its loss, the acceptance of a frame, its discard and the
frames that are sent again. -/

namespace Sys2Proof.Machine

-- One proof after the other: proofs elaborated side by side each take a stack of their own, and the text as a whole is
-- compiled close to its memory limit.
set_option Elab.async false

/-! ### One side beside the other -/

section
variable {s t : State} {d : Bool} {x : BarSide}

theorem State.setSide_other (s : State) (d : Bool) (x : BarSide) : (s.setSide d x).bar.side (!d) = s.bar.side (!d) := by
  cases d <;> rfl

/-- Replacing the far side leaves this one. -/
theorem State.setSide_far (s : State) (d : Bool) (x : BarSide) : (s.setSide (!d) x).bar.side d = s.bar.side d := by
  cases d <;> rfl

theorem State.setSide_ns (s : State) (d : Bool) (x : BarSide) : (s.setSide d x).ns = s.ns := by
  cases d <;> rfl

theorem Barrier.side_congr (h : t.bar = s.bar) (d : Bool) : t.bar.side d = s.bar.side d := by rw [h]

theorem State.count_bar (s : State) (c : Ctr) (i : Nat) : (s.count c i).bar = s.bar := by
  unfold State.count State.countAt
  split <;> rfl

theorem State.count_ns (s : State) (c : Ctr) (i : Nat) : (s.count c i).ns = s.ns := by
  unfold State.count State.countAt
  split <;> rfl

end

/-! ### Training (R258) -/

/-- The link is up, and both sides number their frames from 0. -/
def NumbersFromZero (b : Barrier) : Prop :=
  b.up = true ∧ b.host.next = 0 ∧ b.host.expect = 0 ∧ b.field.next = 0 ∧ b.field.expect = 0

section
variable {s t : State} {m : List Nat}

theorem NumbersFromZero.toHost (h : NumbersFromZero s.bar) (m : List Nat) : NumbersFromZero (s.toHost m).bar := by
  rw [State.toHost_bar]
  exact h

theorem State.toHost_field (s : State) (m : List Nat) : (s.toHost m).field = s.field :=
  (State.toHost_chg s m).field.resolve_left (by decide)

theorem State.toHost_reads (s : State) (m : List Nat) : Reads [C.FLD_CNT_RXDISC.cnt] s (s.toHost m) := by
  unfold State.toHost
  exact .ite (.count _ _ (.refl s) (by simp)) (.of_fields rfl)

/-- An event that is sent over a link that is up goes into the transmit queue. -/
theorem State.sendEvent_of_up (hup : s.bar.up = true) : ∃ m', s.sendEvent m =
    ({ s with field := { s.field with dropped := 0 } } : State).toHost m' :=
  ⟨_, if_pos hup⟩

/-- A field event reaches no register but the count of messages that were dropped. -/
theorem State.sendEvent_reads (s : State) (m : List Nat) : Reads [C.FLD_CNT_RXDISC.cnt] s (s.sendEvent m) := by
  unfold State.sendEvent
  exact .ite (.trans (.of_fields rfl) (State.toHost_reads _ _)) (.ite (.of_fields rfl) (.of_fields rfl))

/-- Handing kept events over one by one keeps none of them, and leaves the numbering of the frames. -/
theorem State.foldl_sendEvent_of_up (ms : List (List Nat)) (h : NumbersFromZero s.bar) :
    NumbersFromZero (ms.foldl State.sendEvent s).bar ∧ (ms.foldl State.sendEvent s).field.events = s.field.events := by
  induction ms generalizing s with
  | nil => exact ⟨h, rfl⟩
  | cons m ms ih =>
    obtain ⟨m', hsend⟩ := State.sendEvent_of_up (m := m) h.1
    have hnum : NumbersFromZero (s.sendEvent m).bar := by
      rw [hsend]
      exact NumbersFromZero.toHost (s := { s with field := { s.field with dropped := 0 } }) h m'
    have hevents : (s.sendEvent m).field.events = s.field.events := by rw [hsend, State.toHost_field]
    obtain ⟨hnums, hkept⟩ := ih hnum
    exact ⟨hnums, hkept.trans hevents⟩

/-- The events that the field section kept are on their way. -/
def State.eventsHanded (s : State) : State := { s with field := { s.field with events := [] } }

theorem State.eventsHanded_bar (s : State) : s.eventsHanded.bar = s.bar := rfl

theorem State.eventsHanded_fget (s : State) (f : Fld) (i : Nat) : s.eventsHanded.fget f i = s.fget f i := rfl

/-- The link once both sides have restarted, and each has sent its state. -/
def State.linkOpened (s : State) : State :=
  State.sendFieldState (State.sendHostState ((({ s with bar := { s.bar with
    up := true, host := s.bar.host.restart s.ns, field := s.bar.field.restart s.ns } } : State).fset
      F.FLD_GW_STATUS_LINK 0 2).log { code := 0x0E02 }))

theorem State.linkOpened_numbers (s : State) : NumbersFromZero s.linkOpened.bar := by
  refine NumbersFromZero.toHost ?_ _
  rw [State.sendHostState, State.toField, (State.log_chg _ _).bar.resolve_left (by decide)]
  exact ⟨rfl, rfl, rfl, rfl, rfl⟩

theorem State.linkOpened_link (s : State) : s.linkOpened.fget F.FLD_GW_STATUS_LINK 0 = 2 := by
  rw [State.linkOpened, State.sendFieldState, State.toHost_fget _ _ _ _ (by decide), State.sendHostState,
    State.toField_at_fget, State.log_fget _ _ _ _ (by decide), State.fget_fset_self]
  rfl

theorem execBarrierLinkUp_trains (hup : s.bar.up = false) (hpower : s.linkPowered = true) :
    exec .barrierLinkUp s = .next (s.linkOpened.field.events.foldl State.sendEvent s.linkOpened.eventsHanded) := by
  have hgo : (s.bar.up || !s.linkPowered) = false := by simp [hup, hpower]
  simp only [exec, execBarrierLinkUp, hgo, Bool.false_eq_true, if_false]
  rfl

/-! ### Loss (R263) -/

theorem State.settleOff_bar (s : State) (w : Settle) : (s.settleOff w).bar = s.bar :=
  (State.settleOff_chg s w).bar.resolve_left (by decide)

theorem State.log_bar (s : State) (e : Ev) : (s.log e).bar = s.bar :=
  (State.log_chg s e).bar.resolve_left (by decide)

theorem State.logRate_bar (s : State) (limit i : Nat) (e : Ev) : (s.logRate limit i e).bar = s.bar :=
  (State.logRate_chg s limit i e).bar.resolve_left (by decide)

/-- Writes that are lost leave of the link all but the record of it. -/
theorem State.writesLost_bar (s : State) (n : Nat) :
    (s.writesLost n).bar = { s.bar with lostWrite := (s.writesLost n).bar.lostWrite } := by
  unfold State.writesLost
  split
  · rfl
  · dsimp only
    rw [State.logRate_bar]
    have hcount : (s.countN C.FLD_GW_CNT_WLOST 0 n).bar = s.bar := (State.countN_chg ..).bar.resolve_left (by decide)
    simp only [State.flag, State.fset_bar, hcount]

theorem State.writesLost_reads (s : State) (n : Nat) : Reads (C.FLD_GW_CNT_WLOST.cnt :: F.FLD_GW_STATUS_WRITE_LOST :: logFlds)
    s (s.writesLost n) := by
  unfold State.writesLost
  extract_lets s1 s2 b s3
  have h2 : Reads (C.FLD_GW_CNT_WLOST.cnt :: F.FLD_GW_STATUS_WRITE_LOST :: logFlds) s s2 :=
    .fset _ _ _ (.countAt C.FLD_GW_CNT_WLOST 0 0 n (.refl s) (by simp)) (by simp)
  have h3 : Reads logFlds s2 (s3.logRate 1000000 0 { code := 0x0E0E, count := n }) :=
    .trans (t := s3) (.of_fields rfl) (s3.logRate_reads _ _ _)
  exact .ite (.refl s) (h2.trans (h3.mono fun g hg => List.mem_cons_of_mem _ (List.mem_cons_of_mem _ hg)))

/-- What the loss of the link makes of the link itself. -/
def Barrier.fallen (b : Barrier) (now : Nat) : Barrier :=
  { b with up := false, downAt := now, host := b.host.restart now, field := b.field.restart now }

theorem State.linkDown_of_up (hup : s.bar.up = true) : ∃ n, s.linkDown =
    ((((({ s with bar := s.bar.fallen s.ns } : State).fset F.FLD_GW_STATUS_LINK 0 (ofBool s.linkPowered)).count
      C.FLD_GW_CNT_LINKDOWN 0).log { code := 0x0E01 }).settleOff .field).writesLost n :=
  ⟨((s.bar.host.unacked.flatMap (fun f => f.msgs)).countP isWriteMsg), by
    unfold State.linkDown
    rw [hup, Bool.not_true, if_neg Bool.false_ne_true]
    rfl⟩

/-- The link falls, and of the link only the record of lost writes differs besides. -/
theorem State.linkDown_bar (hup : s.bar.up = true) :
    s.linkDown.bar = { s.bar.fallen s.ns with lostWrite := s.linkDown.bar.lostWrite } := by
  obtain ⟨n, hdown⟩ := State.linkDown_of_up hup
  rw [hdown, State.writesLost_bar, State.settleOff_bar, State.log_bar, State.count_bar]
  rfl

theorem State.linkDown_link (hup : s.bar.up = true) :
    s.linkDown.fget F.FLD_GW_STATUS_LINK 0 = ofBool s.linkPowered := by
  obtain ⟨n, hdown⟩ := State.linkDown_of_up hup
  rw [hdown, State.writesLost_reads _ _ _ _ (by decide), (State.settleOff_chg _ _).fget (by decide),
    State.log_fget _ _ _ _ (by decide), State.count_fget _ _ _ _ _ (.inl (by decide)), State.fget_fset_self]
  cases s.linkPowered <;> rfl

end

/-! ### Reception (R259) -/

section
variable {s : State} {d : Bool} {flips b : List Nat}

/-- The far side has put its next frame on the wire. -/
def State.frameSent (s : State) (d : Bool) : State :=
  let tx := (s.bar.side (!d)).transmit s.ns
  if tx.2.2 then (s.setSide (!d) tx.2.1).count (if d then C.FLD_GW_CNT_RETX else C.FLD_CNT_RETX) 0
  else s.setSide (!d) tx.2.1

theorem State.frameSent_side (s : State) (d : Bool) : (s.frameSent d).bar.side d = s.bar.side d := by
  unfold State.frameSent
  dsimp only
  split
  · rw [State.count_bar, State.setSide_far]
  · rw [State.setSide_far]

theorem State.frameSent_ns (s : State) (d : Bool) : (s.frameSent d).ns = s.ns := by
  unfold State.frameSent
  dsimp only
  split
  · rw [State.count_ns, State.setSide_ns]
  · rw [State.setSide_ns]

/-- An acknowledgement concerns what a side has sent, not what it receives. -/
theorem BarSide.acknowledge_received (x : BarSide) (ack : Nat) (nak : Bool) (now : Nat) :
    (x.acknowledge ack nak now).inbox = x.inbox ∧ (x.acknowledge ack nak now).expect = x.expect ∧
    (x.acknowledge ack nak now).heard = x.heard ∧ (x.acknowledge ack nak now).bad = x.bad := by
  unfold BarSide.acknowledge
  cases x.unacked.findIdx? (fun f => f.seq == ack) <;> cases nak <;> exact ⟨rfl, rfl, rfl, rfl⟩

theorem State.takeAck_side (s : State) (d : Bool) (b : List Nat) : (s.takeAck d b).bar.side d =
    ({ s.bar.side d with heard := s.ns, bad := 0 } : BarSide).acknowledge (leAt b 2 2) (bit (b.getD 4 0) 1) s.ns := by
  unfold State.takeAck
  extract_lets x u
  cases d with
  | true => rfl
  | false => exact Barrier.side_congr ((State.verdictsAcked_chg u _).bar.resolve_left (by decide)) false

/-- A frame with the expected number, whose acknowledgement has been taken, is accepted. -/
def State.acceptFrame (s : State) (d : Bool) (b : List Nat) : State :=
  s.setSide d { s.bar.side d with
    expect := ((s.bar.side d).expect + 1) % 65536, gap := false, inbox := (s.bar.side d).inbox ++ frameMsgs b }

theorem execBarrierFrameRx_accepts (hup : s.bar.up = true) (hok : frameOk d (nextFrame s d) = true)
    (hmsg : bit ((nextFrame s d).getD 4 0) 0 = false) (hseq : leAt (nextFrame s d) 0 2 = (s.bar.side d).expect) :
    exec (.barrierFrameRx d []) s =
      .next (((s.frameSent d).takeAck d (nextFrame s d)).acceptFrame d (nextFrame s d)) := by
  rw [← s.frameSent_side d] at hseq
  unfold nextFrame State.frameSent at *
  dsimp only at hseq
  simp only [exec, execBarrierFrameRx, hup, flipBits, List.foldl_nil, hok, hmsg, hseq, Bool.not_true, Bool.false_eq_true,
    if_false, if_true]
  rfl

/-- A frame that fails a check, while the link stands, only counts and asks for the gap to be closed. -/
theorem execBarrierFrameRx_discards (hup : s.bar.up = true) (hbad : frameOk d (flipBits (nextFrame s d) flips) = false)
    (hfew : (s.bar.side d).bad < 31) : exec (.barrierFrameRx d flips) s =
      .next (((s.frameSent d).setSide d { (s.frameSent d).bar.side d with
        bad := ((s.frameSent d).bar.side d).bad + 1 }).discardFrame d true) := by
  rw [← s.frameSent_side d] at hfew
  have hstands : ¬ 32 ≤ ((s.frameSent d).bar.side d).bad + 1 := by omega
  unfold nextFrame State.frameSent at *
  dsimp only at hstands
  simp only [exec, execBarrierFrameRx, hup, hbad, hstands, Bool.not_true, Bool.not_false, Bool.false_eq_true, if_false,
    if_true]

/-- What a side holds once it has accepted the frame that the other one sent. -/
theorem State.accepted_side (s : State) (d : Bool) (b : List Nat) :
    ((((s.frameSent d).takeAck d b).acceptFrame d b).bar.side d).inbox = (s.bar.side d).inbox ++ frameMsgs b ∧
    ((((s.frameSent d).takeAck d b).acceptFrame d b).bar.side d).expect = ((s.bar.side d).expect + 1) % 65536 ∧
    ((((s.frameSent d).takeAck d b).acceptFrame d b).bar.side d).heard = s.ns ∧
    ((((s.frameSent d).takeAck d b).acceptFrame d b).bar.side d).bad = 0 := by
  obtain ⟨hinbox, hexpect, hheard, hbad⟩ := BarSide.acknowledge_received { s.bar.side d with heard := s.ns, bad := 0 }
    (leAt b 2 2) (bit (b.getD 4 0) 1) s.ns
  simp only [State.acceptFrame, State.setSide_side, State.takeAck_side, State.frameSent_side, State.frameSent_ns,
    hinbox, hexpect, hheard, hbad, and_self]

theorem State.discardFrame_side (s : State) (d : Bool) : (s.discardFrame d true).bar.side d =
    { s.bar.side d with nak := (s.bar.side d).nak || !(s.bar.side d).gap, gap := true } := by
  unfold State.discardFrame
  extract_lets u x
  have hx : x = s.bar.side d := Barrier.side_congr (by unfold u; split <;> exact State.count_bar ..) d
  rw [if_pos rfl, State.setSide_side, hx]

/-- What a side holds once it has discarded a damaged frame that the other one sent. -/
theorem State.discarded_side (s : State) (d : Bool) :
    (((s.frameSent d).setSide d { (s.frameSent d).bar.side d with
      bad := ((s.frameSent d).bar.side d).bad + 1 }).discardFrame d true).bar.side d =
    { s.bar.side d with
      bad := (s.bar.side d).bad + 1, nak := (s.bar.side d).nak || !(s.bar.side d).gap, gap := true } := by
  simp only [State.discardFrame_side, State.setSide_side, State.frameSent_side]

theorem execBarrierRetxTimeout_resends (hup : s.bar.up = true) (hwait : (s.bar.side d).unacked ≠ [])
    (hdue : (s.bar.side d).acked + 2000 ≤ s.ns) : exec (.barrierRetxTimeout d) s =
      .next (s.setSide d { s.bar.side d with resend := (s.bar.side d).unacked.length, acked := s.ns }) := by
  simp [exec, execBarrierRetxTimeout, hup, hwait, hdue]

end

/-- Settles O9: training and loss are `State.linkOpened` and `Barrier.fallen`, a frame is accepted by `State.acceptFrame` or
discarded by `State.discardFrame`, and the lemmas above say what each leaves of the two sides. -/
theorem barrierLinkAndFrames : Obligations.barrier_link_and_frames := by
  unfold Obligations.barrier_link_and_frames
  refine ⟨?_, ?_, ?_, ?_, ?_⟩
  · intro s hup hslot hsupply hfrst
    have hpower : s.linkPowered = true := by simp [State.linkPowered, hslot, hsupply, hfrst]
    obtain ⟨⟨hopen, hhn, hhe, hfn, hfe⟩, hevents⟩ := State.foldl_sendEvent_of_up s.linkOpened.field.events
      (s := s.linkOpened.eventsHanded) (by rw [State.eventsHanded_bar]; exact s.linkOpened_numbers)
    have hreads : Reads [C.FLD_CNT_RXDISC.cnt] s.linkOpened.eventsHanded _ :=
      Reads.foldl s.linkOpened.field.events (.refl _) State.sendEvent_reads
    have hlink := (hreads F.FLD_GW_STATUS_LINK 0 (by decide)).trans ((State.eventsHanded_fget ..).trans s.linkOpened_link)
    exact ⟨_, execBarrierLinkUp_trains hup hpower, hopen, hlink, hhn, hhe, hfn, hfe, hevents⟩
  · intro s hup
    have hbar := State.linkDown_bar hup
    refine ⟨_, rfl, ?_, ?_, State.linkDown_link hup, ?_, ?_, ?_, ?_⟩
    all_goals
      rw [hbar]
      rfl
  · intro s d hup hok hmsg hseq
    obtain ⟨hinbox, hexpect, hheard, hbad⟩ := s.accepted_side d (nextFrame s d)
    exact ⟨_, execBarrierFrameRx_accepts hup hok hmsg hseq, hinbox, hexpect, hheard, hbad⟩
  · intro s d flips hup hbad hfew
    have hside := s.discarded_side d
    refine ⟨_, execBarrierFrameRx_discards hup hbad hfew, ?_, ?_, ?_, fun hgap => ?_⟩
    all_goals rw [hside]
    simp [hgap]
  · intro s d hup hwait hdue
    refine ⟨_, execBarrierRetxTimeout_resends hup hwait hdue, ?_, ?_, ?_, s.setSide_other d _⟩
    all_goals rw [State.setSide_side]

end Sys2Proof.Machine

/-! SUPPORT. What the shared operations of the field controller leave of its own state and of its registers, the encoders'
positions, and the resets and the start of the field section (R254 to R256, R264, R265, R297, R421). -/

namespace Sys2Proof.Machine

-- One proof after the other: proofs elaborated side by side each take a stack of their own, and the text as a whole is
-- compiled close to its memory limit.
set_option Elab.async false

/-! ### What is neither an output nor an event -/

/-- The field controller's state without its reject outputs and without the events it keeps. -/
def FieldSec.quiet (x : FieldSec) : FieldSec :=
  { x with outs := [], events := [], dropped := 0, lastEv := [], heldEv := [] }

/-- The two field controllers differ at most in reject outputs and kept events. -/
def SameQuiet (s t : State) : Prop := t.field.quiet = s.field.quiet

section
variable {s t u : State} {m : Nat}

theorem SameQuiet.refl (s : State) : SameQuiet s s := rfl

theorem SameQuiet.trans (h : SameQuiet s t) (h' : SameQuiet t u) : SameQuiet s u := Eq.trans h' h

theorem SameQuiet.of_field (h : t.field = s.field) : SameQuiet s t := congrArg FieldSec.quiet h

theorem SameQuiet.of_chg (h : Chg m s t) (hm : m.testBit 32 = false := by rfl) : SameQuiet s t :=
  .of_field (h.field.resolve_left (by simp [hm]))

theorem SameQuiet.ite {p : Prop} [Decidable p] (h : SameQuiet s t) (h' : SameQuiet s u) :
    SameQuiet s (if p then t else u) := by
  split
  · exact h
  · exact h'

theorem SameQuiet.foldl {α : Type} {l : List α} {f : State → α → State} (hf : ∀ u x, SameQuiet u (f u x)) :
    SameQuiet s (l.foldl f s) :=
  State.foldl_keeps (g := fun u => u.field.quiet) hf l s

theorem SameQuiet.setRej (s : State) (k : Nat) (x : RejOut) : SameQuiet s (s.setRej k x) := rfl

theorem SameQuiet.fset (s : State) (f : Fld) (i v : Nat) : SameQuiet s (s.fset f i v) := rfl

theorem SameQuiet.ready (h : SameQuiet s t) : t.field.ready = s.field.ready := congrArg (·.ready) h
theorem SameQuiet.recs (h : SameQuiet s t) : t.field.recs = s.field.recs := congrArg (·.recs) h
theorem SameQuiet.next (h : SameQuiet s t) : t.field.next = s.field.next := congrArg (·.next) h
theorem SameQuiet.counts (h : SameQuiet s t) : t.field.counts = s.field.counts := congrArg (·.counts) h
theorem SameQuiet.vt (h : SameQuiet s t) : t.field.vt = s.field.vt := congrArg (·.vt) h
theorem SameQuiet.aos (h : SameQuiet s t) : t.field.aos = s.field.aos := congrArg (·.aos) h
theorem SameQuiet.hostHere (h : SameQuiet s t) : t.field.hostHere = s.field.hostHere := congrArg (·.hostHere) h
theorem SameQuiet.gpoPolicy (h : SameQuiet s t) : t.field.gpoPolicy = s.field.gpoPolicy := congrArg (·.gpoPolicy) h

theorem State.refreshOut_sameQuiet (s : State) (k : Nat) : SameQuiet s (s.refreshOut k) := by
  unfold State.refreshOut State.drainOut
  extract_lets x s1 y s2 on z s3 n s4 s5
  have h1 : SameQuiet s s1 := .ite (.refl s) (.setRej ..)
  have h3 : SameQuiet s s3 := (h1.trans (.setRej ..)).trans (.setRej s2 ..)
  exact ((h3.trans (.fset ..)).trans (.fset s4 ..)).trans (.fset s5 ..)

theorem State.fieldRefresh_sameQuiet (s : State) : SameQuiet s s.fieldRefresh := by
  unfold State.fieldRefresh
  extract_lets s1 s2 s3
  have h1 : SameQuiet s s1 := .foldl fun u l => .of_chg (u.refreshLane_chg l)
  have h2 : SameQuiet s1 s2 := .foldl fun u k => u.refreshOut_sameQuiet k
  exact ((h1.trans h2).trans (.fset ..)).trans (.fset s3 ..)

theorem State.sendEvent_sameQuiet (s : State) (m : List Nat) : SameQuiet s (s.sendEvent m) := by
  unfold State.sendEvent
  exact .ite (.trans (t := { s with field := { s.field with dropped := 0 } }) rfl (.of_field (State.toHost_field ..)))
    (.ite rfl rfl)

theorem State.fieldEvent_sameQuiet (s : State) (code lane out item : Nat) :
    SameQuiet s (s.fieldEvent code lane out item) :=
  s.sendEvent_sameQuiet _

end

/-! ### Registers that the operations reach -/

/-- What sending to the host section may change: the count of messages that found its queue full. -/
def sendFlds : List Fld := [C.FLD_CNT_RXDISC.cnt]

section
variable {s t : State}

theorem State.fieldEvent_reads (s : State) (code lane out item : Nat) :
    Reads sendFlds s (s.fieldEvent code lane out item) :=
  s.sendEvent_reads _

theorem State.sendFieldState_reads (s : State) : Reads sendFlds s s.sendFieldState := s.toHost_reads _

/-- STATE shows the field controller's state. -/
theorem State.fieldRefresh_state (s : State) : s.fieldRefresh.fget F.FLD_STATUS_STATE 0 = s.fieldRefresh.fieldMode := by
  have hmode : s.fieldRefresh.fieldMode = s.fieldMode := by
    simp only [State.fieldMode, s.fieldRefresh_sameQuiet.ready, s.fieldRefresh_sameQuiet.hostHere]
  have hsmall : s.fieldMode < 3 := by
    unfold State.fieldMode
    split_ifs <;> decide
  rw [hmode]
  unfold State.fieldRefresh
  extract_lets s1 s2 s3
  have h1 : SameQuiet s s1 := .foldl fun u l => .of_chg (u.refreshLane_chg l)
  have h2 : SameQuiet s s2 := h1.trans (.foldl fun u k => u.refreshOut_sameQuiet k)
  have hmode2 : s2.fieldMode = s.fieldMode := by simp only [State.fieldMode, h2.ready, h2.hostHere]
  rw [State.fget_fset_of_code_ne _ (by decide), State.fget_fset_self, hmode2]
  exact Nat.mod_eq_of_lt (lt_trans hsmall (by decide))

end

/-! ### Encoders (R264) -/

/-- The field controller's state without which due positions are reached. -/
def FieldSec.unmoved (x : FieldSec) : FieldSec := { x with recs := x.recs.map fun r => { r with reached := 0 } }

/-- The two field controllers differ at most in which due positions are reached. -/
def SameUnmoved (s t : State) : Prop := t.field.unmoved = s.field.unmoved

section
variable {s t u : State}

theorem SameUnmoved.trans (h : SameUnmoved s t) (h' : SameUnmoved t u) : SameUnmoved s u := Eq.trans h' h

theorem SameUnmoved.ready (h : SameUnmoved s t) : t.field.ready = s.field.ready := congrArg (·.ready) h
theorem SameUnmoved.gpoPolicy (h : SameUnmoved s t) : t.field.gpoPolicy = s.field.gpoPolicy := congrArg (·.gpoPolicy) h

/-- A position changes its register and what is reached, nothing else. -/
theorem State.encMove_sameUnmoved (s : State) (e pos : Nat) : SameUnmoved s (s.encMove e pos) := by
  unfold State.encMove
  extract_lets s1 f
  have hf : ∀ r, ({ f r with reached := 0 } : FieldRec) = { r with reached := 0 } := fun r => by
    unfold f
    dsimp only
    split <;> rfl
  refine congrArg (fun l => ({ s.field with recs := l } : FieldSec)) ?_
  rw [List.map_map]
  exact List.map_congr_left fun r _ => hf r

theorem State.encMove_reads (s : State) (e pos : Nat) : Reads [F.FLD_ENC_POS_POS] s (s.encMove e pos) :=
  .trans (.fset F.FLD_ENC_POS_POS e pos (.refl s) (by simp)) (.of_fields rfl)

theorem State.encPos_encMove_self (s : State) (e pos : Nat) : (s.encMove e pos).encPos e = pos % 2 ^ 32 :=
  s.fget_fset_self F.FLD_ENC_POS_POS e pos

theorem State.encPos_encMove_ne (s : State) {e j : Nat} (pos : Nat) (h : j ≠ e) : (s.encMove e pos).encPos j = s.encPos j :=
  s.fget_fset_ne pos (.inr h)

theorem State.encAll_sameUnmoved (s : State) (ps : List Nat) : SameUnmoved s (s.encAll ps) :=
  State.foldl_keeps (g := fun u => u.field.unmoved) (fun u p => by
    split
    · exact u.encMove_sameUnmoved p.2 p.1
    · rfl) _ s

theorem State.encAll_reads (s : State) (ps : List Nat) : Reads [F.FLD_ENC_POS_POS] s (s.encAll ps) :=
  .foldl _ (.refl s) fun u p => .ite (u.encMove_reads p.2 p.1) (.refl u)

theorem State.encAll_four (s : State) (a b c d : Nat) :
    s.encAll [a, b, c, d] = (((s.encMove 0 a).encMove 1 b).encMove 2 c).encMove 3 d := by
  simp [State.encAll]

theorem State.encPos_encAll (s : State) (a b c d : Nat) : (List.range 4).map (s.encAll [a, b, c, d]).encPos =
    [a % 2 ^ 32, b % 2 ^ 32, c % 2 ^ 32, d % 2 ^ 32] := by
  have hrange : List.range 4 = [0, 1, 2, 3] := rfl
  rw [State.encAll_four, hrange]
  simp (disch := decide) only [List.map_cons, List.map_nil, State.encPos_encMove_self, State.encPos_encMove_ne]

/-- Positions show as they were taken as long as nothing sets their registers. -/
theorem Reads.encPos {l : List Fld} (h : Reads l s t) (hl : l.all (fun g => F.FLD_ENC_POS_POS.code != g.code) = true) :
    t.encPos = s.encPos :=
  funext fun e => h _ e hl

end

/-! ### A fold that reaches one part once -/

section
variable {α β : Type} {g : State → β} {step : State → α → State} {l : List α} {a : α}

/-- A part of the state that only one element of the fold reaches: at the end it stands as that element left it, on a state
in which the part stood as at the start. -/
theorem State.foldl_once (hl : l.Nodup) (ha : a ∈ l) (hother : ∀ u x, x ≠ a → g (step u x) = g u) (s : State) :
    ∃ u, g u = g s ∧ g (l.foldl step s) = g (step u a) := by
  induction l generalizing s with
  | nil => cases ha
  | cons x l ih =>
    obtain ⟨hx, hl⟩ := List.nodup_cons.mp hl
    obtain rfl | ha := List.mem_cons.mp ha
    · refine ⟨s, rfl, ?_⟩
      have hrest : ∀ y ∈ l, y ≠ a := fun y hy e => hx (e ▸ hy)
      exact List.foldlRecOn (motive := fun u => g u = g (step s a)) l step rfl fun u hu y hy =>
        (hother u y (hrest y hy)).trans hu
    · have hne : x ≠ a := fun e => hx (e ▸ ha)
      obtain ⟨u, hu, hend⟩ := ih hl ha (step s x)
      exact ⟨u, hu.trans (hother s x hne), hend⟩

end

/-! ### Analogue outputs one by one (R293 to R297) -/

section
variable {s : State} {k j : Nat}

theorem State.ao_setAo_ne (s : State) (x : AnaOut) (h : j ≠ k) : (s.setAo k x).ao j = s.ao j := by
  simp [State.ao, State.setAo, Tab.getD_set_ne _ _ _ h]

theorem State.ao_congr {t : State} (h : t.field.aos = s.field.aos) (k : Nat) : t.ao k = s.ao k := by
  rw [State.ao, State.ao, h]

/-- The registers of an output's code and state. -/
def outFlds : List Fld := [F.FDAC_OUT_CODE, F.FDAC_OUT_STATE]

/-- An output that takes its policy notes it, and sets only its code and its state. -/
theorem State.aoPolicy_field (s : State) (k : Nat) :
    (s.aoPolicy k).field = (s.setAo k { s.ao k with policy := true, waiting := none }).field := by
  unfold State.aoPolicy
  extract_lets x s1
  split
  · rfl
  · split
    · rfl
    · split <;> rfl

theorem State.aoPolicy_reads (s : State) (k : Nat) : Reads outFlds s (s.aoPolicy k) := by
  unfold State.aoPolicy
  extract_lets x s1
  have h1 : Reads outFlds s s1 := .of_fields rfl
  have hcode : F.FDAC_OUT_CODE ∈ outFlds := by simp [outFlds]
  have hstate : F.FDAC_OUT_STATE ∈ outFlds := by simp [outFlds]
  refine .ite h1 (.ite (h1.fset _ _ _ hstate) ?_)
  split
  · exact h1.fset _ _ _ hstate
  · exact h1.fset _ _ _ hstate
  · exact (h1.fset _ _ _ hcode).fset _ _ _ hstate
  · exact (h1.fset _ _ _ hcode).fset _ _ _ hstate

/-- Every output starts from the span of its register, under its policy. -/
def State.aoStart (s : State) (k : Nat) : State := (s.setAo k { span := s.fget F.FDAC_CFG_SPAN k }).aoPolicy k

theorem State.aoStart_field (s : State) (k : Nat) : ∃ x : AnaOut, x.policy = true ∧
    (s.aoStart k).field = { s.field with aos := Tab.set (Tab.set s.field.aos k { span := s.fget F.FDAC_CFG_SPAN k }) k x } :=
  ⟨_, rfl, State.aoPolicy_field ..⟩

theorem State.aoStart_policy (s : State) (k : Nat) : ((s.aoStart k).ao k).policy = true := by
  obtain ⟨x, hx, hfield⟩ := s.aoStart_field k
  rw [State.ao, hfield, Tab.getD_set_self, hx]

theorem State.aoStart_other (s : State) (h : k ≠ j) : (s.aoStart j).ao k = s.ao k := by
  obtain ⟨x, -, hfield⟩ := s.aoStart_field j
  rw [State.ao, hfield, Tab.getD_set_ne _ _ _ h, Tab.getD_set_ne _ _ _ h, State.ao]

/-- What starting the outputs leaves of the field controller. -/
theorem State.foldl_aoStart (ks : List Nat) (s : State) :
    (ks.foldl State.aoStart s).field = { s.field with aos := (ks.foldl State.aoStart s).field.aos } :=
  List.foldlRecOn (motive := fun u : State => u.field = { s.field with aos := u.field.aos }) ks _ rfl fun u hu k _ => by
    obtain ⟨x, -, hfield⟩ := u.aoStart_field k
    rw [hfield, hu]

end

/-! ### Resets (R254, R255, R421) -/

section
variable {s : State}

/-- What the field controller still holds once it is reset: supply, pin, non-volatile values and firmware. -/
def FieldSec.afterReset (f : FieldSec) : FieldSec :=
  { FieldSec.empty with
    supply := f.supply, frst := f.frst, brown := f.brown, nv := f.nv
    fwSlots := f.fwSlots, fwShipped := f.fwShipped, fwSlot := f.fwSlot, fwSvn := f.fwSvn }

theorem State.linkDown_field (s : State) : s.linkDown.field = s.field :=
  (State.linkDown_chg s).field.resolve_left (by decide)

theorem State.fieldReset_field (s : State) : s.fieldReset.field = s.field.afterReset := by
  unfold State.fieldReset
  extract_lets s1 f s2 side
  have hf : f = s.field := State.linkDown_field _
  rw [← hf]
  rfl

theorem State.linkTrain_bar (s : State) : s.linkTrain.bar = s.bar := by
  unfold State.linkTrain
  split <;> rfl

theorem State.linkTrain_field (s : State) : s.linkTrain.field = s.field := by
  unfold State.linkTrain
  split <;> rfl

theorem State.linkDown_up (s : State) : s.linkDown.bar.up = false := by
  cases hup : s.bar.up with
  | true =>
    rw [State.linkDown_bar hup]
    rfl
  | false =>
    have hdown : s.linkDown = s.linkTrain := by rw [State.linkDown, hup, Bool.not_false, if_pos rfl]
    rw [hdown, State.linkTrain_bar, hup]

/-- A reset of the field controller takes the link with it. -/
theorem State.fieldReset_up (s : State) : s.fieldReset.bar.up = false := State.linkDown_up _

theorem State.fieldReset_cleared (s : State) : FieldCleared s.fieldReset := by
  refine ⟨?_, ?_, ?_, ?_, ?_, s.fieldReset_up⟩
  all_goals
    rw [State.fieldReset_field]
    rfl

theorem State.linkTrain_link (s : State) : s.linkTrain.fget F.FLD_GW_STATUS_LINK 0 =
    if s.bar.up then s.fget F.FLD_GW_STATUS_LINK 0 else ofBool s.linkPowered := by
  unfold State.linkTrain
  split
  · rfl
  · rw [State.fget_fset_self]
    cases s.linkPowered <;> rfl

theorem State.linkTrain_onlyFields (s : State) : OnlyFields [(F.FLD_GW_STATUS_LINK, 0)] s s.linkTrain := by
  unfold State.linkTrain
  split
  · exact ⟨rfl, fun _ _ _ => rfl⟩
  · exact OnlyFields.fset ..

/-- Training in a state whose field section has just changed reaches LINK alone besides. -/
theorem State.linkTrain_after (s : State) (f : FieldSec) : OnlyFields [(F.FLD_GW_STATUS_LINK, 0)]
    { s with field := ({ s with field := f } : State).linkTrain.field } ({ s with field := f } : State).linkTrain := by
  rw [State.linkTrain_field]
  exact State.linkTrain_onlyFields _

end

/-! ### The start (R256, R265, R297) -/

section
variable {s : State} {levels : Nat}

/-- The field controller is ready, with the next reset generation and the values of its non-volatile memory. -/
def State.readied (s : State) (levels : Nat) : State :=
  let u := s.loadNv
  let gen := (u.fget F.FLD_STATUS_FIELD_GEN 0 + 1) % 256
  let v : State := { u.fset F.FLD_STATUS_FIELD_GEN 0 gen with field := { u.field with
    ready := true, gpoPolicy := true, nv := Tab.put 0 u.field.nv (F.FLD_STATUS_FIELD_GEN.key 0) gen, brown := false } }
  (v.fset F.FLD_STATUS_NV_VALID 0 1).fset F.FLD_TRIG_LEVEL_LEVEL 0 levels

/-- A field controller that starts reports a brown-out and its state. -/
def State.announce (s : State) (brown : Bool) : State :=
  let u := if brown then s.fieldEvent 0x0E0C 255 255 0 else s
  if u.bar.up then u.sendFieldState else u

/-- The field controller as it starts, before it refreshes its registers. -/
def State.fieldStarted (s : State) (ps : List Nat) (levels : Nat) : State :=
  ((List.range 4).foldl State.aoStart ((s.readied levels).encAll ps)).announce s.field.brown

theorem execFieldReady_starts (hsupply : s.field.supply = true) (hfrst : s.field.frst = false)
    (hready : s.field.ready = false) (ps : List Nat) : exec (.fieldReady ps levels) s =
      .next (s.fieldStarted (ps.map (fun p => p % 2 ^ 32)) levels).fieldRefresh := by
  simp only [exec, execFieldReady, hsupply, hfrst, hready, Bool.not_true, Bool.or_self, Bool.false_eq_true, if_false]
  rfl

theorem State.announce_sameQuiet (s : State) (brown : Bool) : SameQuiet s (s.announce brown) := by
  unfold State.announce
  extract_lets u
  have hu : SameQuiet s u := .ite (s.fieldEvent_sameQuiet ..) (.refl s)
  exact .ite (hu.trans (.of_chg u.sendFieldState_chg)) hu

theorem State.announce_reads (s : State) (brown : Bool) : Reads sendFlds s (s.announce brown) := by
  unfold State.announce
  extract_lets u
  have hu : Reads sendFlds s u := .ite (s.fieldEvent_reads _ _ _ _) (.refl s)
  exact .ite (hu.trans u.sendFieldState_reads) hu

theorem State.aoStart_reads (s : State) (k : Nat) : Reads outFlds s (s.aoStart k) :=
  .trans (t := s.setAo k { span := s.fget F.FDAC_CFG_SPAN k }) (.of_fields rfl) (State.aoPolicy_reads _ k)

/-- What the start reaches once the encoders' positions are taken. -/
def startFlds : List Fld := outFlds ++ sendFlds ++ refreshFlds

theorem State.fieldStarted_reads (s : State) (ps : List Nat) (levels : Nat) :
    Reads startFlds ((s.readied levels).encAll ps) (s.fieldStarted ps levels).fieldRefresh := by
  have houts : Reads outFlds ((s.readied levels).encAll ps) _ := .foldl (List.range 4) (.refl _) State.aoStart_reads
  refine Reads.trans (Reads.trans (houts.mono ?_) ((State.announce_reads _ s.field.brown).mono ?_))
    ((State.fieldRefresh_reads _).mono ?_)
  all_goals
    intro f hf
    simp only [startFlds, List.mem_append, hf, true_or, or_true]

theorem State.fieldStarted_fget (s : State) (ps : List Nat) (levels : Nat) {f : Fld}
    (hf : (F.FLD_ENC_POS_POS :: startFlds).all (fun g => f.code != g.code) = true) :
    (s.fieldStarted ps levels).fieldRefresh.fget f 0 = (s.readied levels).fget f 0 := by
  rw [List.all_cons, Bool.and_eq_true] at hf
  exact (s.fieldStarted_reads ps levels f 0 hf.2).trans
    ((s.readied levels).encAll_reads ps f 0 (by rw [List.all_cons, hf.1]; rfl))

theorem State.readied_fields (s : State) (levels : Nat) :
    (s.readied levels).fget F.FLD_STATUS_FIELD_GEN 0 = (s.loadNv.fget F.FLD_STATUS_FIELD_GEN 0 + 1) % 256 ∧
    (s.readied levels).fget F.FLD_STATUS_NV_VALID 0 = 1 ∧
    (s.readied levels).fget F.FLD_TRIG_LEVEL_LEVEL 0 = levels % 65536 := by
  unfold State.readied
  extract_lets u gen v
  have hgen : v.fget F.FLD_STATUS_FIELD_GEN 0 = gen :=
    (u.fget_fset_self F.FLD_STATUS_FIELD_GEN 0 gen).trans (Nat.mod_mod _ 256)
  refine ⟨?_, ?_, State.fget_fset_self ..⟩
  all_goals simp (disch := decide) only [State.fget_fset_of_code_ne, State.fget_fset_self]
  · exact hgen
  · rfl

/-- The start leaves the controller ready with the general outputs under their policy, and every analogue output too. -/
theorem State.fieldStarted_holds (s : State) (ps : List Nat) (levels : Nat) :
    (s.fieldStarted ps levels).fieldRefresh.field.ready = true ∧
    (s.fieldStarted ps levels).fieldRefresh.field.gpoPolicy = true ∧
    ∀ k < 4, ((s.fieldStarted ps levels).fieldRefresh.ao k).policy = true := by
  have hmoved := (s.readied levels).encAll_sameUnmoved ps
  have haos := State.foldl_aoStart (List.range 4) ((s.readied levels).encAll ps)
  have hquiet : SameQuiet ((List.range 4).foldl State.aoStart ((s.readied levels).encAll ps))
      (s.fieldStarted ps levels).fieldRefresh := (State.announce_sameQuiet _ _).trans (State.fieldRefresh_sameQuiet _)
  refine ⟨?_, ?_, fun k hk => ?_⟩
  · rw [hquiet.ready, haos]
    exact hmoved.ready
  · rw [hquiet.gpoPolicy, haos]
    exact hmoved.gpoPolicy
  · rw [State.ao_congr hquiet.aos]
    obtain ⟨u, -, hend⟩ := State.foldl_once (g := fun u => u.ao k) (step := State.aoStart) List.nodup_range
      (List.mem_range.mpr hk) (fun u j hj => u.aoStart_other (Ne.symm hj)) ((s.readied levels).encAll ps)
    exact (congrArg AnaOut.policy hend).trans (u.aoStart_policy k)

end

/-- Settles O35: the three resets are `State.fieldReset`, the two returns are `State.linkTrain`, and the start is
`State.fieldStarted`, refreshed. -/
theorem theFieldSectionResetsAndBecomesReady : Obligations.the_field_section_resets_and_becomes_ready := by
  unfold Obligations.the_field_section_resets_and_becomes_ready
  refine ⟨?_, ?_, ?_, ?_, ?_, ?_⟩
  · intro s hsupply
    have hexec : exec .fieldBrownout s =
        .next ({ s with field := { s.field with supply := false, brown := true } } : State).fieldReset := by
      simp only [exec, execFieldBrownout, hsupply, Bool.not_true, Bool.false_eq_true, if_false]
    refine ⟨_, hexec, ?_, ?_, State.fieldReset_cleared _, ?_⟩
    all_goals
      rw [State.fieldReset_field]
      rfl
  · intro s hsupply
    refine ⟨_, rfl, State.linkTrain_field _, ?_, State.linkTrain_after ..⟩
    rw [State.linkTrain_link, State.linkPowered, Bool.and_true]
    rfl
  · intro s hfrst
    have hexec : exec .frstNAssert s =
        .next ({ s with field := { s.field with frst := true } } : State).fieldReset := by
      simp only [exec, execFrstNAssert, hfrst, Bool.false_eq_true, if_false]
    refine ⟨_, hexec, ?_, State.fieldReset_cleared _, ?_, ?_⟩
    all_goals
      rw [State.fieldReset_field]
      rfl
  · intro s hfrst
    refine ⟨_, rfl, State.linkTrain_field _, ?_, State.linkTrain_after ..⟩
    rw [State.linkTrain_link, State.linkPowered, Bool.not_false, Bool.and_true]
    rfl
  · intro s hsupply hfrst
    have hexec : exec .fieldWatchdog s = .next s.fieldReset := by
      simp only [exec, execFieldWatchdog, hsupply, hfrst, Bool.not_true, Bool.or_self, Bool.false_eq_true, if_false]
    refine ⟨_, hexec, State.fieldReset_cleared s, ?_, ?_, ?_⟩
    all_goals rw [State.fieldReset_field]
    · rfl
    · exact hsupply
    · exact hfrst
  · intro s a b c d levels hsupply hfrst hready
    obtain ⟨hnow, hgpo, hao⟩ := s.fieldStarted_holds ([a, b, c, d].map (fun p => p % 2 ^ 32)) levels
    obtain ⟨hgen, hnv, htrig⟩ := s.readied_fields levels
    refine ⟨_, execFieldReady_starts hsupply hfrst hready _, hnow, ?_, ?_, ?_, ?_, hgpo, State.fieldRefresh_state _, ?_⟩
    · rw [State.fieldStarted_fget _ _ _ (by decide), hgen]
    · rw [State.fieldStarted_fget _ _ _ (by decide), hnv]
    · rw [State.fieldStarted_fget _ _ _ (by decide), htrig]
    · rw [(State.fieldStarted_reads _ _ _).encPos (by decide)]
      exact (State.encPos_encAll ..).trans (by simp only [Nat.mod_mod])
    · exact List.all_eq_true.mpr fun k hk => hao k (List.mem_range.mp hk)

end Sys2Proof.Machine

/-! SUPPORT. Triggers, encoder faults, cutoffs and reject commands (R264, R268 to R270, R273): what each leaves of the
records, of the verdict table, of the reject queues and of the registers. -/

namespace Sys2Proof.Machine

-- One proof after the other: proofs elaborated side by side each take a stack of their own, and the text as a whole is
-- compiled close to its memory limit.
set_option Elab.async false

/-! ### Counting, lane records and the verdict table -/

section
variable {s t u : State} {l l' : List Fld} {c : Ctr} {i v k : Nat}

/-- A count that stands between what reaches neither the counter nor its FREEZE, and what does not reach the counter. -/
theorem Counted.of_reads (hb : Reads l s u) (ha : Reads l' (u.count c i) t)
    (hcnt : (l ++ l').all (fun g => c.cnt.code != g.code) = true) (hfrz : l.all (fun g => c.frz.code != g.code) = true) :
    Counted c i 1 s t := by
  rw [List.all_append, Bool.and_eq_true] at hcnt
  obtain ⟨hl, hl'⟩ := hcnt
  rw [Counted, ha _ _ hl', State.count_fget_self, State.fon, State.fon, hb _ _ hfrz, hb _ _ hl]

/-- The field records of the lanes are the same. -/
def SameLaneData (s t : State) : Prop := ∀ i, t.fget F.FLD_LANE_DATA_DATA i = s.fget F.FLD_LANE_DATA_DATA i

theorem Reads.sameLaneData (h : Reads l s t) (hl : l.all (fun g => F.FLD_LANE_DATA_DATA.code != g.code) = true) :
    SameLaneData s t :=
  fun i => h _ i hl

theorem SameLaneData.lrByte (h : SameLaneData s t) : t.lrByte = s.lrByte := by
  funext l off
  rw [State.lrByte, State.lrByte, h]

theorem SameLaneData.lrNum (h : SameLaneData s t) : t.lrNum = s.lrNum := by
  funext l off n
  rw [State.lrNum, State.lrNum, h.lrByte]

theorem SameLaneData.lrEnc (h : SameLaneData s t) : t.lrEnc = s.lrEnc := by
  funext l
  rw [State.lrEnc, State.lrEnc, h.lrByte]

theorem SameLaneData.lrWithheld (h : SameLaneData s t) : t.lrWithheld = s.lrWithheld := by
  funext l
  rw [State.lrWithheld, State.lrWithheld, h.lrByte]

theorem SameLaneData.vtSlot (h : SameLaneData s t) : t.vtSlot = s.vtSlot := by
  funext l n
  rw [State.vtSlot, State.vtSlot, h.lrNum]

theorem State.vtGet_of_put {slot w : Nat} (h : t.field.vt = (s.vtSet slot w).field.vt) : t.vtGet slot = w % 65536 := by
  rw [State.vtGet, h]
  exact Tab.getD_put_self ..

/-- The slot of a trigger after it was written. -/
theorem State.vtGet_of_vtPut {l n code : Nat} {withheld valid retracted : Bool}
    (h : t.field.vt = (s.vtPut l n code withheld valid retracted).field.vt) :
    t.vtGet (s.vtSlot l n) = vtWord code withheld valid retracted n % 65536 :=
  State.vtGet_of_put h

theorem bit_setBit (v i : Nat) : bit (setBit v i) i = true := by
  simp [bit, setBit]

theorem bit_clrBit (v i : Nat) : bit (clrBit v i) i = false := by
  unfold bit clrBit
  split
  next hset =>
    have hquot : (v - 2 ^ i * 1) / 2 ^ i = v / 2 ^ i - 1 := Nat.sub_mul_div ..
    rw [Nat.mul_one] at hquot
    rw [Nat.testBit_eq_decide_div_mod_eq, decide_eq_true_eq] at hset
    rw [Nat.testBit_eq_decide_div_mod_eq, decide_eq_false_iff_not, hquot]
    omega
  next hclear => exact Bool.eq_false_iff.mpr hclear

end

/-! ### What verdicts and cutoffs reach (R269 to R271) -/

section
variable {s : State}

theorem State.fieldEventRate_reads (s : State) (code i lane out item : Nat) :
    Reads sendFlds s (s.fieldEventRate code i lane out item) := by
  unfold State.fieldEventRate
  extract_lets k held m
  have hsend : Reads sendFlds s (s.sendEvent m) := s.sendEvent_reads m
  split
  · exact .ite (.of_fields rfl) (hsend.trans (.of_fields rfl))
  · exact hsend.trans (.of_fields rfl)

theorem State.fieldEventRate_sameQuiet (s : State) (code i lane out item : Nat) :
    SameQuiet s (s.fieldEventRate code i lane out item) := by
  unfold State.fieldEventRate
  extract_lets k held m
  split
  · exact .ite rfl ((s.sendEvent_sameQuiet m).trans rfl)
  · exact (s.sendEvent_sameQuiet m).trans rfl

/-- What an actuation may set: the record of a queue that was full. -/
def actuateFlds : List Fld := C.FLD_CNT_QFULL.cnt :: F.FLD_STATUS_QFULL_SEEN :: sendFlds

theorem State.widen_reads (s : State) (k l on off : Nat) : Reads actuateFlds s (s.widen k l on off) := by
  unfold State.widen
  extract_lets x grow s1 s2 s3
  have h1 : Reads actuateFlds s s1 := by
    refine .of_fields ?_
    unfold s1
    split <;> rfl
  have h3 : Reads actuateFlds s s3 := (h1.count _ _ (by simp [actuateFlds])).fset _ _ _ (by simp [actuateFlds])
  exact h3.trans ((s3.fieldEventRate_reads _ _ _ _ _).mono fun g hg => by simp [actuateFlds, hg])

theorem State.widen_sameQuiet (s : State) (k l on off : Nat) : SameQuiet s (s.widen k l on off) := by
  unfold State.widen
  extract_lets x grow s1 s2 s3
  have h1 : SameQuiet s s1 := by
    unfold s1
    split <;> rfl
  have h2 : SameQuiet s1 s2 := .of_chg (State.count_chg ..)
  exact ((h1.trans h2).trans rfl).trans (s3.fieldEventRate_sameQuiet ..)

theorem State.actuateAll_reads (s : State) (l pos : Nat) (ks : List Nat) : Reads actuateFlds s (s.actuateAll l pos ks) :=
  .foldl ks (.refl s) fun u k => by
    unfold State.actuate
    exact .ite (.refl u) (.ite (.of_fields rfl) (.ite (.of_fields rfl) (u.widen_reads _ _ _ _)))

theorem State.actuateAll_sameQuiet (s : State) (l pos : Nat) (ks : List Nat) : SameQuiet s (s.actuateAll l pos ks) :=
  .foldl fun u k => by
    unfold State.actuate
    exact .ite (.refl u) (.ite rfl (.ite rfl (u.widen_sameQuiet ..)))

theorem State.takeEffect_reads (s : State) (r : FieldRec) (code : Nat) (withheld : Bool) :
    Reads actuateFlds s (s.takeEffect r code withheld) := by
  unfold State.takeEffect
  extract_lets c ks s1 s2
  have h1 : Reads actuateFlds s s1 := .of_fields rfl
  exact (h1.trans (s1.actuateAll_reads _ _ _)).trans (.of_fields rfl)

/-- A verdict that takes effect is written to the slot of its trigger. -/
theorem State.takeEffect_vt (s : State) (r : FieldRec) (code : Nat) (withheld : Bool) :
    (s.takeEffect r code withheld).field.vt = (s.vtPut r.lane r.n
      (if withheld then s.lrWithheld r.lane else code % 16) withheld true false).field.vt := by
  unfold State.takeEffect
  extract_lets c ks s1 s2
  exact (s1.actuateAll_sameQuiet ..).vt

/-- What a cutoff that passes may set. -/
def cutoffFlds : List Fld := C.FLD_CNT_WITHHELD.cnt :: C.FLD_CNT_NOREC.cnt :: actuateFlds

theorem State.cutoffPass_reads (s : State) (r : FieldRec) : Reads cutoffFlds s (s.cutoffPass r) := by
  have hmore : ∀ g ∈ actuateFlds, g ∈ cutoffFlds := fun g hg => by simp [cutoffFlds, hg]
  unfold State.cutoffPass
  split
  · exact ((s.takeEffect_reads r 0 true).mono hmore).count _ _ (by simp [cutoffFlds])
  · unfold State.withholdTrigger
    extract_lets s1 s2
    have h1 : Reads cutoffFlds s s1 := .of_fields rfl
    exact (h1.trans ((s1.actuateAll_reads _ _ _).mono hmore)).count _ _ (by simp [cutoffFlds])

end

/-! ### Encoders' positions and the records -/

section
variable {s t : State} {e : Nat}

theorem SameUnmoved.next (h : SameUnmoved s t) : t.field.next = s.field.next := congrArg (·.next) h
theorem SameUnmoved.counts (h : SameUnmoved s t) : t.field.counts = s.field.counts := congrArg (·.counts) h
theorem SameUnmoved.vt (h : SameUnmoved s t) : t.field.vt = s.field.vt := congrArg (·.vt) h
theorem SameUnmoved.fw (h : SameUnmoved s t) : t.field.fw = s.field.fw := congrArg (·.fw) h
theorem SameUnmoved.hostHere (h : SameUnmoved s t) : t.field.hostHere = s.field.hostHere := congrArg (·.hostHere) h
theorem SameUnmoved.hostGen (h : SameUnmoved s t) : t.field.hostGen = s.field.hostGen := congrArg (·.hostGen) h
theorem SameUnmoved.outs (h : SameUnmoved s t) : t.field.outs = s.field.outs := congrArg (·.outs) h

/-- What does not look at which due positions are reached, the records show as before. -/
theorem SameUnmoved.map_recs (h : SameUnmoved s t) {β : Type} (f : FieldRec → β)
    (hf : ∀ r, f { r with reached := 0 } = f r) : t.field.recs.map f = s.field.recs.map f := by
  have hrecs : t.field.unmoved.recs.map f = s.field.unmoved.recs.map f := congrArg (fun x => x.recs.map f) h
  have hcomp : (f ∘ fun r : FieldRec => { r with reached := 0 }) = f := funext hf
  simpa [FieldSec.unmoved, hcomp] using hrecs

theorem SameUnmoved.recs_length (h : SameUnmoved s t) : t.field.recs.length = s.field.recs.length := by
  simpa using congrArg List.length (h.map_recs (fun _ => ()) fun _ => rfl)

theorem SameUnmoved.items_length (h : SameUnmoved s t) :
    (t.field.recs.filter (fun r => r.item.isSome)).length = (s.field.recs.filter (fun r => r.item.isSome)).length := by
  have hitems := congrArg (fun l => (l.filter Option.isSome).length) (h.map_recs FieldRec.item fun _ => rfl)
  simpa [List.filter_map, Function.comp_def] using hitems

theorem State.encPos_encAll_at (s : State) (a b c d : Nat) (he : e < 4) :
    (s.encAll [a, b, c, d]).encPos e = [a, b, c, d].getD e 0 % 2 ^ 32 := by
  rw [State.encAll_four]
  interval_cases e
  all_goals
    simp (disch := decide) only [State.encPos_encMove_self, State.encPos_encMove_ne]
    rfl

end

/-! ### Triggers (R268) -/

section
variable {s : State} {l trigger pos : Nat} {rising : Bool}

/-- The level of a trigger and the positions that an edge brings. -/
def State.edgeTaken (s : State) (trigger : Nat) (rising : Bool) (ps : List Nat) : State :=
  (s.fset F.FLD_TRIG_LEVEL_LEVEL 0 (if rising then setBit (s.fget F.FLD_TRIG_LEVEL_LEVEL 0) trigger
    else clrBit (s.fget F.FLD_TRIG_LEVEL_LEVEL 0) trigger)).encAll ps

/-- What an edge brings is kept in these registers. -/
def edgeFlds : List Fld := [F.FLD_TRIG_LEVEL_LEVEL, F.FLD_ENC_POS_POS]

theorem State.edgeTaken_reads (s : State) (trigger : Nat) (rising : Bool) (ps : List Nat) :
    Reads edgeFlds s (s.edgeTaken trigger rising ps) :=
  (Reads.fset _ _ _ (.refl s) (by simp [edgeFlds])).trans ((State.encAll_reads _ ps).mono (by simp [edgeFlds]))

theorem State.edgeTaken_sameUnmoved (s : State) (trigger : Nat) (rising : Bool) (ps : List Nat) :
    SameUnmoved s (s.edgeTaken trigger rising ps) :=
  State.encAll_sameUnmoved _ ps

theorem State.encMove_bar (s : State) (e pos : Nat) : (s.encMove e pos).bar = s.bar := rfl

theorem State.edgeTaken_bar (s : State) (trigger : Nat) (rising : Bool) (ps : List Nat) :
    (s.edgeTaken trigger rising ps).bar = s.bar :=
  State.foldl_keeps (g := fun u => u.bar) (fun u p => by
    split
    · exact u.encMove_bar p.2 p.1
    · rfl) _ _

theorem State.edgeTaken_level (s : State) (ps : List Nat) (htrigger : trigger < 16) :
    bit ((s.edgeTaken trigger rising ps).fget F.FLD_TRIG_LEVEL_LEVEL 0) trigger = rising := by
  have hwidth : F.FLD_TRIG_LEVEL_LEVEL.width = 16 := rfl
  rw [State.edgeTaken, State.encAll_reads _ _ _ _ (by decide), State.fget_fset_self, hwidth, bit, Nat.testBit_mod_two_pow,
    decide_eq_true htrigger, Bool.true_and]
  cases rising
  · exact bit_clrBit ..
  · exact bit_setBit ..

/-- An edge that one lane acts on. -/
theorem execTriggerEdge_one (hready : s.field.ready = true) (htrigger : trigger < 16)
    (hlane : (List.range 64).filter (fun x => s.fLane x == 1 && s.lrByte x 0 % 16 == trigger &&
      edgeOk (bits (s.lrByte x 0) 4 2) rising) = [l]) (ps : List Nat) :
    exec (.triggerEdge trigger rising ps) s = .next
      (((s.edgeTaken trigger rising (ps.map (fun p => p % 2 ^ 32))).laneTrigger l trigger
        ((s.edgeTaken trigger rising (ps.map (fun p => p % 2 ^ 32))).encPos (s.lrEnc l))).fieldRefresh) := by
  obtain ⟨u, hu⟩ : ∃ u, s.edgeTaken trigger rising (ps.map (fun p => p % 2 ^ 32)) = u := ⟨_, rfl⟩
  have hreads : Reads edgeFlds s u := hu ▸ s.edgeTaken_reads _ _ _
  have hdata := hreads.sameLaneData (by decide)
  have hlane' : (List.range 64).filter (fun x => u.fLane x == 1 && u.lrByte x 0 % 16 == trigger &&
      edgeOk (bits (u.lrByte x 0) 4 2) rising) = [l] := by
    simp only [State.fLane, hdata.lrByte, hreads F.FLD_LANE_STATUS_STATE _ (by decide)]
    exact hlane
  rw [hu, ← hdata.lrEnc]
  unfold State.edgeTaken at hu
  simp only [exec, execTriggerEdge, hready, Nat.not_le.mpr htrigger, decide_false, Bool.not_true, Bool.or_self,
    Bool.false_eq_true, if_false, hu, hlane', List.foldl_cons, List.foldl_nil]

/-- A new item on a lane: its slot, its identifier and its record. -/
def State.itemAdded (s : State) (l n pos : Nat) : State :=
  let u := s.vtPut l n 0 false false false
  { u with field := { u.field with
    next := (u.field.next + 1) % 2 ^ 40
    recs := u.field.recs ++ [{ lane := l, n := n, pos := pos, hostGen := u.field.hostGen
                               item := some (s.fget F.FLD_STATUS_FIELD_GEN 0 * 2 ^ 40 + s.field.next) }] } }

/-- The trigger count of a lane advances. -/
def State.triggerCounted (s : State) (l : Nat) : State :=
  { s with field := { s.field with counts := Tab.set s.field.counts l (Tab.getD s.field.counts l 0 + 1) } }

theorem State.newItem_creates {n : Nat} (hrecs : (s.field.recs.filter (fun r => r.item.isSome)).length < 65536)
    (hspace : s.bar.field.queue.length < 4096) :
    ∃ m, s.newItem l n trigger pos true = ((s.itemAdded l n pos).count C.FLD_CNT_ITEM 0).toHost m := by
  have hfree : ¬ ((decide (65536 ≤ (s.field.recs.filter (fun r => r.item.isSome)).length) ||
      decide (4096 ≤ s.bar.field.queue.length)) = true) := by
    simp [hrecs, hspace]
  exact ⟨_, if_neg hfree⟩

/-- While the host is present and a record is free, a trigger creates an item and reports it. -/
theorem State.laneTrigger_creates (hfw : s.field.fw = .running) (hhere : s.field.hostHere = true)
    (hport : bit (s.lrByte l 0) 6 = false) (hrecs : (s.field.recs.filter (fun r => r.item.isSome)).length < 65536)
    (hspace : s.bar.field.queue.length < 4096) : ∃ m, s.laneTrigger l trigger pos =
      (((s.triggerCounted l).itemAdded l (Tab.getD s.field.counts l 0) pos).count C.FLD_CNT_ITEM 0).toHost m := by
  obtain ⟨m, hm⟩ := State.newItem_creates (s := s.triggerCounted l) (l := l) (trigger := trigger) (pos := pos)
    (n := Tab.getD s.field.counts l 0) hrecs hspace
  refine ⟨m, ?_⟩
  unfold State.laneTrigger
  extract_lets n f s1 s2
  have hs2 : s2 = s1 := if_neg (by
    have hs1 : s1.lrByte l 0 = s.lrByte l 0 := rfl
    rw [hs1, hport]
    exact Bool.false_ne_true)
  have hfw1 : s1.field.fw = .running := hfw
  have hhere1 : s1.field.hostHere = true := hhere
  simp only [hs2, hfw1, hhere1, if_true]
  exact hm

end

/-! ### Encoder faults (R273) -/

section
variable {s : State} {e pos : Nat}

/-- A fault that comes or goes is reported. -/
def State.tellFault (s : State) : State := ((s.fieldEvent 0x0E07 255 255 0).sendPositions).fieldRefresh

/-- What reporting a fault may set. -/
def tellFlds : List Fld := sendFlds ++ refreshFlds

theorem State.sendPositions_reads (s : State) : Reads sendFlds s s.sendPositions := by
  unfold State.sendPositions
  exact .ite (.refl s) ((State.toHost_reads _ _).trans (State.toHost_reads _ _))

theorem State.tellFault_reads (s : State) : Reads tellFlds s s.tellFault := by
  have hsend : Reads sendFlds s (s.fieldEvent 0x0E07 255 255 0).sendPositions :=
    (s.fieldEvent_reads _ _ _ _).trans (State.sendPositions_reads _)
  exact (hsend.mono fun g hg => List.mem_append_left _ hg).trans
    ((State.fieldRefresh_reads _).mono fun g hg => List.mem_append_right _ hg)

theorem State.tellFault_sameQuiet (s : State) : SameQuiet s s.tellFault :=
  ((s.fieldEvent_sameQuiet ..).trans (.of_chg (State.sendPositions_chg _))).trans (State.fieldRefresh_sameQuiet _)

/-- The flags that an encoder's fault leaves. -/
def State.faultNoted (s : State) (e : Nat) (wire : Bool) : State :=
  ((((s.count C.FLD_CNT_ENCERR 0).flag F.FLD_ENC_STATUS_FAULT e).flag F.FLD_ENC_STATUS_FAULT_SEEN e).fset
    F.FLD_ENC_STATUS_WIRE e (ofBool wire)).flag F.FLD_STATUS_ENC_FAULT_SEEN 0

theorem execEncoderFault_notes (hready : s.field.ready = true) (he : e < 4) (wire : Bool) :
    exec (.encoderFault e wire) s =
      .next (if s.encBad e then s.faultNoted e wire else (s.faultNoted e wire).tellFault) := by
  simp only [exec, execEncoderFault, hready, Nat.not_le.mpr he, decide_false, Bool.not_true, Bool.or_self,
    Bool.false_eq_true, if_false]
  split <;> rfl

theorem State.faultNoted_fields (s : State) (e : Nat) (wire : Bool) :
    (s.faultNoted e wire).fget F.FLD_ENC_STATUS_FAULT e = 1 ∧
    (s.faultNoted e wire).fget F.FLD_ENC_STATUS_FAULT_SEEN e = 1 ∧
    (s.faultNoted e wire).fget F.FLD_ENC_STATUS_WIRE e = ofBool wire ∧
    (s.faultNoted e wire).fget F.FLD_STATUS_ENC_FAULT_SEEN 0 = 1 := by
  unfold State.faultNoted State.flag
  refine ⟨?_, ?_, ?_, ?_⟩
  all_goals simp (disch := decide) only [State.fget_fset_of_code_ne, State.fget_fset_self]
  case refine_3 => cases wire <;> rfl
  all_goals rfl

theorem State.faultNoted_reads (s : State) (e : Nat) (wire : Bool) : Reads [F.FLD_ENC_STATUS_FAULT,
    F.FLD_ENC_STATUS_FAULT_SEEN, F.FLD_ENC_STATUS_WIRE, F.FLD_STATUS_ENC_FAULT_SEEN] (s.count C.FLD_CNT_ENCERR 0)
    (s.faultNoted e wire) := by
  refine .fset _ _ _ (.fset _ _ _ (.fset _ _ _ (.fset _ _ _ (.refl _) ?_) ?_) ?_) ?_
  all_goals simp

theorem State.rejMove_reads (s : State) (k e pos : Nat) : Reads cutoffFlds s (s.rejMove k e pos) := .of_fields rfl

/-- The fault is gone, and the encoder stands at a position. -/
def State.faultLifted (s : State) (e pos : Nat) : State :=
  ((s.fset F.FLD_ENC_STATUS_FAULT e 0).fset F.FLD_ENC_STATUS_WIRE e 0).encMove e pos

/-- A fault that clears moves the reject outputs, passes the cutoffs that came meanwhile, and is reported. -/
theorem execEncoderFaultClear_lifts (hready : s.field.ready = true) (hbad : s.encBad e = true) :
    ∃ late : List FieldRec, exec (.encoderFaultClear e pos) s = .next (late.foldl State.cutoffPass ((List.range 8).foldl
      (fun s k => s.rejMove k e (pos % 2 ^ 32)) (s.faultLifted e (pos % 2 ^ 32)))).tellFault := by
  apply Exists.intro
  simp only [exec, execEncoderFaultClear, hready, hbad, Bool.not_true, Bool.or_self, Bool.false_eq_true, if_false]
  rfl

/-- What may change once the fault is gone and the position is taken. -/
def liftFlds : List Fld := cutoffFlds ++ tellFlds

theorem State.faultLifted_reads (s : State) (late : List FieldRec) (e pos : Nat) : Reads liftFlds s
    (late.foldl State.cutoffPass ((List.range 8).foldl (fun s k => s.rejMove k e pos) s)).tellFault := by
  have hmoved : Reads cutoffFlds s ((List.range 8).foldl (fun s k => s.rejMove k e pos) s) :=
    .foldl _ (.refl s) fun u k => u.rejMove_reads k e pos
  have hpassed := Reads.foldl late hmoved State.cutoffPass_reads
  exact (hpassed.mono fun g hg => List.mem_append_left _ hg).trans
    ((State.tellFault_reads _).mono fun g hg => List.mem_append_right _ hg)

theorem State.faultLifted_fields (s : State) (e pos : Nat) : (s.faultLifted e pos).fget F.FLD_ENC_STATUS_FAULT e = 0 ∧
    (s.faultLifted e pos).fget F.FLD_ENC_STATUS_WIRE e = 0 ∧ (s.faultLifted e pos).encPos e = pos % 2 ^ 32 := by
  unfold State.faultLifted
  refine ⟨?_, ?_, State.encPos_encMove_self ..⟩
  all_goals
    rw [State.encMove_reads _ _ _ _ _ (by decide)]
    simp (disch := decide) only [State.fget_fset_of_code_ne, State.fget_fset_self, Nat.zero_mod]

end

/-! ### Cutoffs and the end of records (R268, R269) -/

section
variable {s : State} {l n pos id : Nat} {r : FieldRec}

theorem execCutoffReached_passes (hready : s.field.ready = true) (hrecs : s.field.recs = [r]) (hlane : r.lane = l)
    (hn : r.n = n) (hcode : r.code = none) (hitem : r.item = some id) (henc : s.encBad (s.lrEnc l) = false)
    (hcutoff : serialGe (pos % 2 ^ 32) (s.cutoff l r.pos) = true) : exec (.cutoffReached l n pos) s =
      .next ((((s.encMove (s.lrEnc l) (pos % 2 ^ 32)).takeEffect r 0 true).count C.FLD_CNT_WITHHELD 0).fieldRefresh) := by
  have hfind : s.field.recs.find? (fun x => x.lane == l && x.n == n) = some r := by simp [hrecs, hlane, hn]
  simp only [exec, execCutoffReached, hfind, hready, hcode, henc, hcutoff, Bool.not_true, Option.isSome_none, Bool.or_self,
    Bool.false_eq_true, if_false, State.cutoffPass, hitem]

theorem execRecordFree_frees (hready : s.field.ready = true)
    (hfind : s.field.recs.find? (fun x => x.lane == l && x.n == n) = some r) (hcode : r.code.isSome = true)
    (henc : s.encBad (s.lrEnc l) = false) (hpassed : serialGe (pos % 2 ^ 32) (s.freeAt l r.pos) = true) :
    exec (.recordFree l n pos) s = .next (((s.encMove (s.lrEnc l) (pos % 2 ^ 32)).dropRec l n).fieldRefresh) := by
  have hnone : r.code.isNone = false := by rw [← Option.not_isSome, hcode]; rfl
  simp only [exec, execRecordFree, hfind, hready, hnone, henc, hpassed, Bool.not_true, Bool.or_self, Bool.false_eq_true,
    if_false]

end

/-! ### Reject outputs (R270) -/

section
variable {s t : State} {k j e pos : Nat}

theorem State.rej_setRej_ne (s : State) (x : RejOut) (h : j ≠ k) : (s.setRej k x).rej j = s.rej j := by
  simp [State.rej, State.setRej, Tab.getD_set_ne _ _ _ h]

theorem State.rej_congr (h : t.field.outs = s.field.outs) (k : Nat) : t.rej k = s.rej k := by
  rw [State.rej, State.rej, h]

theorem State.refreshLane_rej (s : State) (l k : Nat) : (s.refreshLane l).rej k = s.rej k :=
  State.rej_congr (by rw [(s.refreshLane_chg l).field.resolve_left (by decide)]) k

/-- What the level of an output follows, beside the registers. -/
def RejOut.shown (x : RejOut) : List RejEntry × Bool × Bool × Bool := (x.queue, x.maxed, x.policy, x.held)

/-- MAX_ON_US switches an output off only while its command stands. -/
def State.settleOut (s : State) (k : Nat) : State :=
  s.setRej k { s.rej k with maxed := (s.rej k).maxed && s.rejBase k }

/-- An output's registers show its level and its queue. -/
def State.showOut (s : State) (k : Nat) : State :=
  let u := s.setRej k { s.rej k with since := if s.rejLevel k then some ((s.rej k).since.getD s.ns) else none }
  let v := (u.fset F.FLD_REJ_STATUS_ON k (ofBool (s.rejLevel k))).fset F.FLD_REJ_STATUS_QUEUE k (s.rej k).queue.length
  v.fset F.FLD_REJ_STATUS_PEAK k (Nat.max (s.rej k).queue.length (v.fget F.FLD_REJ_STATUS_PEAK k))

theorem State.refreshOut_steps (s : State) (k : Nat) : s.refreshOut k = ((s.drainOut k).settleOut k).showOut k := rfl

/-- A drained output takes its policy; its queue and what MAX_ON_US did to it stay. -/
theorem State.drainOut_keeps (s : State) (k j : Nat) :
    ((s.drainOut k).rej j).queue = (s.rej j).queue ∧ ((s.drainOut k).rej j).maxed = (s.rej j).maxed := by
  unfold State.drainOut
  extract_lets x
  split
  · exact ⟨rfl, rfl⟩
  · by_cases hjk : j = k
    · subst hjk
      rw [State.rej_setRej]
      exact ⟨rfl, rfl⟩
    · rw [State.rej_setRej_ne _ _ hjk]
      exact ⟨rfl, rfl⟩

theorem State.drainOut_rej_ne (s : State) (h : j ≠ k) : (s.drainOut k).rej j = s.rej j := by
  unfold State.drainOut
  extract_lets x
  split
  · rfl
  · exact s.rej_setRej_ne _ h

theorem State.settleOut_rej (s : State) (k : Nat) :
    (s.settleOut k).rej k = { s.rej k with maxed := (s.rej k).maxed && s.rejBase k } :=
  s.rej_setRej k _

theorem State.settleOut_rej_ne (s : State) (h : j ≠ k) : (s.settleOut k).rej j = s.rej j :=
  s.rej_setRej_ne _ h

theorem State.showOut_shown (s : State) (k : Nat) : ((s.showOut k).rej k).shown = (s.rej k).shown := by
  have hrej : (s.showOut k).rej k = { s.rej k with
      since := if s.rejLevel k then some ((s.rej k).since.getD s.ns) else none } := s.rej_setRej k _
  rw [hrej]
  rfl

theorem State.showOut_rej_ne (s : State) (h : j ≠ k) : (s.showOut k).rej j = s.rej j :=
  s.rej_setRej_ne _ h

theorem State.refreshOut_rej_ne (s : State) (h : j ≠ k) : (s.refreshOut k).rej j = s.rej j := by
  rw [State.refreshOut_steps, State.showOut_rej_ne _ h, State.settleOut_rej_ne _ h, State.drainOut_rej_ne _ h]

theorem State.refreshOut_queue (s : State) (k j : Nat) : ((s.refreshOut k).rej j).queue = (s.rej j).queue := by
  by_cases hjk : j = k
  · subst hjk
    have hshown : (((s.drainOut j).settleOut j).showOut j |>.rej j).queue = (((s.drainOut j).settleOut j).rej j).queue :=
      congrArg (·.1) (State.showOut_shown _ j)
    rw [State.refreshOut_steps, hshown, State.settleOut_rej]
    exact (s.drainOut_keeps j j).1
  · rw [s.refreshOut_rej_ne hjk]

/-- Refreshing the registers moves no reject queue. -/
theorem State.fieldRefresh_queue (s : State) (k : Nat) : (s.fieldRefresh.rej k).queue = (s.rej k).queue := by
  unfold State.fieldRefresh
  extract_lets s1 s2 s3
  have h1 : (s1.rej k).queue = (s.rej k).queue := State.foldl_keeps (g := fun u => (u.rej k).queue)
    (fun u l => congrArg RejOut.queue (u.refreshLane_rej l k)) _ s
  have h2 : (s2.rej k).queue = (s1.rej k).queue :=
    State.foldl_keeps (g := fun u => (u.rej k).queue) (fun u j => u.refreshOut_queue j k) _ s1
  rw [State.fset_at_rej, State.fset_at_rej, h2, h1]

/-- A reject entry of an encoder that has reached a position is on once its own on position is passed. -/
def RejEntry.reach (e pos lead : Nat) (y : RejEntry) : RejEntry :=
  if y.enc == e && serialGe pos (lessLead y.on lead) then { y with started := true } else y

theorem RejEntry.reach_eq (e pos lead : Nat) (y : RejEntry) : y.reach e pos lead =
    if y.enc = e ∧ serialGe pos (lessLead y.on lead) = true then { y with started := true } else y := by
  simp [RejEntry.reach]

theorem State.encMove_rej (s : State) (e pos k : Nat) : (s.encMove e pos).rej k = s.rej k :=
  State.rej_congr (s.encMove_sameUnmoved e pos).outs k

theorem State.encMove_lead (s : State) (e pos k : Nat) : (s.encMove e pos).lead k = s.lead k :=
  s.encMove_reads e pos _ _ (by decide)

theorem execRejectOn_reaches (hready : s.field.ready = true) (hk : k < 8) (he : e < 4) (henc : s.encBad e = false) :
    exec (.rejectOn k e pos) s = .next (((s.encMove e (pos % 2 ^ 32)).setRej k { s.rej k with
      queue := (s.rej k).queue.map (RejEntry.reach e (pos % 2 ^ 32) (s.lead k)) }).fieldRefresh) := by
  have hguard : (!s.field.ready || decide (8 ≤ k) || decide (4 ≤ e) || s.encBad e) = false := by
    simp [hready, henc, hk, he]
  simp only [exec, execRejectOn, hguard, Bool.false_eq_true, if_false, State.encMove_rej, State.encMove_lead]
  rfl

theorem execRejectOff_reaches (hready : s.field.ready = true) (hk : k < 8) (he : e < 4) (henc : s.encBad e = false) :
    exec (.rejectOff k e pos) s = .next (((s.encMove e (pos % 2 ^ 32)).setRej k { s.rej k with
      queue := ((s.rej k).queue.filter (fun y => !(y.enc == e && serialGe (pos % 2 ^ 32) (lessLead y.off (s.lead k))))).map
        (RejEntry.reach e (pos % 2 ^ 32) (s.lead k)) }).fieldRefresh) := by
  have hguard : (!s.field.ready || decide (8 ≤ k) || decide (4 ≤ e) || s.encBad e) = false := by
    simp [hready, henc, hk, he]
  simp only [exec, execRejectOff, hguard, Bool.false_eq_true, if_false, State.rejMove, State.encMove_rej, State.encMove_lead]
  rfl

/-- The registers that the refresh of an output sets, and those that follow. -/
def levelFlds : List Fld := [F.FLD_REJ_STATUS_ON, F.FLD_REJ_STATUS_QUEUE, F.FLD_REJ_STATUS_PEAK, F.FLD_STATUS_STATE,
  F.FLD_GPO_LEVEL_LEVEL]

/-- What an output's queue and the encoders ask for does not look at the registers that a refresh sets. -/
theorem State.rejBase_congr (h : Reads levelFlds s t) (hqueue : (t.rej k).queue = (s.rej k).queue) :
    t.rejBase k = s.rejBase k := by
  have hdata := h.sameLaneData (by decide)
  have hlane : t.fLane = s.fLane := funext fun l => h _ l (by decide)
  have hbad : t.encBad = s.encBad := funext fun e => congrArg (· != 0) (h F.FLD_ENC_STATUS_FAULT e (by decide))
  have hhold : t.fon F.FLD_ENC_CFG_FAULT_HOLD = s.fon F.FLD_ENC_CFG_FAULT_HOLD :=
    funext fun e => congrArg (· != 0) (h F.FLD_ENC_CFG_FAULT_HOLD e (by decide))
  simp only [State.rejBase, State.badEncs, State.fLanes, hdata.lrByte, hdata.lrEnc, hlane, hbad, hhold, hqueue]
  rfl

/-- Two states show an output the same: its lanes, the encoders and the policy, whether the controller is ready, and the
output itself. -/
structure SameLevel (k : Nat) (s t : State) : Prop where
  reads : Reads levelFlds s t
  ready : t.field.ready = s.field.ready
  shown : (t.rej k).shown = (s.rej k).shown

theorem SameLevel.rejBase (h : SameLevel k s t) : t.rejBase k = s.rejBase k :=
  State.rejBase_congr h.reads (congrArg (·.1) h.shown)

theorem SameLevel.maxed (h : SameLevel k s t) : (t.rej k).maxed = (s.rej k).maxed := congrArg (·.2.1) h.shown

theorem SameLevel.rejLevel (h : SameLevel k s t) : t.rejLevel k = s.rejLevel k := by
  have hpolicy : (t.rej k).policy = (s.rej k).policy := congrArg (·.2.2.1) h.shown
  have hheld : (t.rej k).held = (s.rej k).held := congrArg (·.2.2.2) h.shown
  have haction : t.fget F.FLD_POL_ACTION k = s.fget F.FLD_POL_ACTION k := h.reads _ k (by decide)
  have hlevel : t.fon F.FLD_POL_LEVEL k = s.fon F.FLD_POL_LEVEL k :=
    congrArg (· != 0) (h.reads F.FLD_POL_LEVEL k (by decide))
  simp only [State.rejLevel, h.ready, h.maxed, hpolicy, hheld, h.rejBase, haction, hlevel]

theorem State.showOut_reads (s : State) (k : Nat) : Reads levelFlds s (s.showOut k) := by
  unfold State.showOut
  refine .fset _ _ _ (.fset _ _ _ (.fset _ _ _ (.of_fields rfl) ?_) ?_) ?_
  all_goals simp [levelFlds]

theorem State.showOut_sameLevel (s : State) (k : Nat) : SameLevel k s (s.showOut k) :=
  ⟨s.showOut_reads k, rfl, s.showOut_shown k⟩

theorem State.showOut_on (s : State) (k : Nat) : (s.showOut k).fget F.FLD_REJ_STATUS_ON k = ofBool (s.rejLevel k) := by
  unfold State.showOut
  simp (disch := decide) only [State.fget_fset_of_code_ne, State.fget_fset_self]
  cases s.rejLevel k <;> rfl

/-- Refreshing another output leaves this one's ON. -/
theorem State.refreshOut_on_ne (s : State) (h : k ≠ j) :
    (s.refreshOut j).fget F.FLD_REJ_STATUS_ON k = s.fget F.FLD_REJ_STATUS_ON k := by
  have hdrain : (s.drainOut j).fget F.FLD_REJ_STATUS_ON k = s.fget F.FLD_REJ_STATUS_ON k := by
    rw [State.fget, s.drainOut_fields, State.fget]
  unfold State.refreshOut
  extract_lets s1 x s2 on y s3 n s4 s5
  rw [State.fget_fset_of_code_ne _ (by decide), State.fget_fset_of_code_ne _ (by decide), State.fget_fset_ne _ _ (.inr h)]
  exact hdrain

theorem State.refreshOut_sameLevel_ne (s : State) (h : k ≠ j) : SameLevel k s (s.refreshOut j) := by
  refine ⟨?_, (s.refreshOut_sameQuiet j).ready, by rw [s.refreshOut_rej_ne h]⟩
  rw [State.refreshOut_steps]
  exact .trans (.of_fields (s.drainOut_fields j)) (.trans (t := (s.drainOut j).settleOut j) (.of_fields rfl)
    (State.showOut_reads _ j))

/-- A refreshed output stays switched off by MAX_ON_US while its command stands, and ON shows its level. -/
theorem State.refreshOut_shows (s : State) (k : Nat) :
    ((s.refreshOut k).rej k).maxed = ((s.rej k).maxed && (s.refreshOut k).rejBase k) ∧
    (s.refreshOut k).fget F.FLD_REJ_STATUS_ON k = ofBool ((s.refreshOut k).rejLevel k) := by
  have hshow := ((s.drainOut k).settleOut k).showOut_sameLevel k
  have hsettle : ((s.drainOut k).settleOut k).rejBase k = (s.drainOut k).rejBase k :=
    State.rejBase_congr (.of_fields rfl) (by rw [State.settleOut_rej])
  rw [State.refreshOut_steps]
  refine ⟨?_, ?_⟩
  · rw [hshow.maxed, hshow.rejBase, hsettle, State.settleOut_rej, ← (s.drainOut_keeps k k).2]
  · rw [State.showOut_on, hshow.rejLevel]

/-- What a refreshed output shows: whether MAX_ON_US switched it off, what it asks for, its level and its ON. -/
def State.outView (k : Nat) (s : State) : RejOut × Bool × Bool × Nat :=
  (s.rej k, s.rejBase k, s.rejLevel k, s.fget F.FLD_REJ_STATUS_ON k)

theorem State.refreshOut_outView_ne (s : State) (h : j ≠ k) : State.outView k (s.refreshOut j) = State.outView k s := by
  have hsame := s.refreshOut_sameLevel_ne (Ne.symm h)
  rw [State.outView, s.refreshOut_rej_ne (Ne.symm h), hsame.rejBase, hsame.rejLevel, s.refreshOut_on_ne (Ne.symm h),
    State.outView]

/-- The outputs are refreshed one after the other; each then shows its own level. -/
theorem State.refreshOuts_shows (s : State) (hk : k < 8) :
    (((List.range 8).foldl State.refreshOut s).rej k).maxed =
      ((s.rej k).maxed && ((List.range 8).foldl State.refreshOut s).rejBase k) ∧
    ((List.range 8).foldl State.refreshOut s).fget F.FLD_REJ_STATUS_ON k =
      ofBool (((List.range 8).foldl State.refreshOut s).rejLevel k) := by
  obtain ⟨u, hu, hend⟩ := State.foldl_once (step := State.refreshOut) (g := State.outView k) List.nodup_range
    (List.mem_range.mpr hk) (fun u j hj => u.refreshOut_outView_ne hj) s
  generalize (List.range 8).foldl State.refreshOut s = t at hend ⊢
  obtain ⟨hmaxed, hon⟩ := u.refreshOut_shows k
  obtain ⟨hrej, hbase, hlevel, hshown⟩ : t.rej k = (u.refreshOut k).rej k ∧ t.rejBase k = (u.refreshOut k).rejBase k ∧
      t.rejLevel k = (u.refreshOut k).rejLevel k ∧
      t.fget F.FLD_REJ_STATUS_ON k = (u.refreshOut k).fget F.FLD_REJ_STATUS_ON k := by
    simpa only [State.outView, Prod.mk.injEq] using hend
  have hstart : u.rej k = s.rej k := congrArg (·.1) hu
  refine ⟨?_, ?_⟩
  · rw [hrej, hbase, hmaxed, hstart]
  · rw [hshown, hlevel, hon]

/-- After a refresh an output is switched off by MAX_ON_US as long as its command stands, and ON shows its level. -/
theorem State.fieldRefresh_shows (s : State) (hk : k < 8) :
    (s.fieldRefresh.rej k).maxed = ((s.rej k).maxed && s.fieldRefresh.rejBase k) ∧
    s.fieldRefresh.fget F.FLD_REJ_STATUS_ON k = ofBool (s.fieldRefresh.rejLevel k) := by
  unfold State.fieldRefresh
  extract_lets s1 s2 s3
  have hlanes : s1.rej k = s.rej k := State.foldl_keeps (g := fun u => u.rej k) (fun u l => u.refreshLane_rej l k) _ s
  obtain ⟨hmaxed, hon⟩ : (s2.rej k).maxed = ((s1.rej k).maxed && s2.rejBase k) ∧
      s2.fget F.FLD_REJ_STATUS_ON k = ofBool (s2.rejLevel k) := s1.refreshOuts_shows hk
  generalize (List.range 16).foldl _ _ = gpo
  have hread : Reads [F.FLD_STATUS_STATE, F.FLD_GPO_LEVEL_LEVEL] s2 (s3.fset F.FLD_GPO_LEVEL_LEVEL 0 gpo) :=
    .fset _ _ _ (.fset _ _ _ (.refl s2) (by simp)) (by simp)
  have hrest : SameLevel k s2 (s3.fset F.FLD_GPO_LEVEL_LEVEL 0 gpo) :=
    ⟨hread.mono (by simp [levelFlds]), by rw [State.fset_field, State.fset_field],
      by rw [State.fset_at_rej, State.fset_at_rej]⟩
  refine ⟨?_, ?_⟩
  · rw [hrest.maxed, hrest.rejBase, hmaxed, hlanes]
  · rw [hrest.rejLevel, hread _ _ (by decide), hon]

theorem execMaxOnExpiry_expires {n m : Nat} (hk : k < 8) (hm : s.fget F.FLD_REJ_CFG_MAX_ON_US k = m) (hpos : m ≠ 0)
    (hsince : (s.rej k).since = some n) (hdue : n + m * 1000 ≤ s.ns) :
    exec (.maxOnExpiry k) s = .next ((s.setRej k { s.rej k with maxed := true }).fieldRefresh) := by
  subst hm
  simp [exec, execMaxOnExpiry, hpos, hsince, hdue, hk]

end

/-! ### The clauses -/

section
variable {s : State} {trigger l n e k a b c d pos id : Nat} {rising wire : Bool} {r : FieldRec}

theorem vtWord_lt (code tag : Nat) (withheld valid retracted : Bool) : vtWord code withheld valid retracted tag < 65536 := by
  have hbit : ∀ x : Bool, ofBool x < 2 := fun x => by cases x <;> decide
  have hwithheld := hbit withheld
  have hvalid := hbit valid
  have hretracted := hbit retracted
  unfold vtWord
  omega

/-- What reporting a new item may set. -/
def itemFlds : List Fld := C.FLD_CNT_RXDISC.cnt :: refreshFlds

/-- A new item that is counted, reported and shown. -/
def State.itemTold (s : State) (m : List Nat) : State := ((s.count C.FLD_CNT_ITEM 0).toHost m).fieldRefresh

theorem State.itemTold_sameQuiet (s : State) (m : List Nat) : SameQuiet s (s.itemTold m) :=
  .trans (.trans (.of_chg (State.count_chg ..)) (.of_field (State.toHost_field ..))) (State.fieldRefresh_sameQuiet _)

theorem State.itemTold_reads (s : State) (m : List Nat) : Reads itemFlds (s.count C.FLD_CNT_ITEM 0) (s.itemTold m) :=
  ((State.toHost_reads _ _).mono (by simp [itemFlds])).trans
    ((State.fieldRefresh_reads _).mono fun g hg => by simp [itemFlds, hg])

theorem State.triggerCounted_vtSlot (s : State) (l : Nat) : (s.triggerCounted l).vtSlot = s.vtSlot :=
  SameLaneData.vtSlot fun _ => rfl

theorem State.itemAdded_reads (s : State) (l n pos : Nat) : Reads [] s ((s.triggerCounted l).itemAdded l n pos) :=
  .of_fields rfl

theorem State.itemAdded_vt (s : State) (l n pos : Nat) :
    (s.itemAdded l n pos).field.vt = (s.vtPut l n 0 false false false).field.vt := rfl

theorem State.itemAdded_next (s : State) (l n pos : Nat) : ((s.triggerCounted l).itemAdded l n pos).field.next =
    (s.field.next + 1) % 2 ^ 40 := rfl

theorem State.itemAdded_recs (s : State) (l n pos : Nat) : ((s.triggerCounted l).itemAdded l n pos).field.recs =
    s.field.recs ++ [{ lane := l, n := n, pos := pos, hostGen := s.field.hostGen
                       item := some (s.fget F.FLD_STATUS_FIELD_GEN 0 * 2 ^ 40 + s.field.next) }] := rfl

/-- The slot of a new item tells its trigger number and nothing else. -/
theorem State.itemTold_slot (s : State) (l n pos : Nat) (m : List Nat) :
    (((s.triggerCounted l).itemAdded l n pos).itemTold m).vtGet (s.vtSlot l n) = vtWord 0 false false false n := by
  rw [← s.triggerCounted_vtSlot l, State.vtGet_of_vtPut ((State.itemTold_sameQuiet _ m).vt.trans (State.itemAdded_vt ..))]
  exact Nat.mod_eq_of_lt (vtWord_lt ..)

/-- The edge that a lane acts on makes its item. -/
theorem triggerEdge_creates (hready : s.field.ready = true) (hhere : s.field.hostHere = true)
    (hfw : s.field.fw = .running) (htrigger : trigger < 16)
    (hlane : (List.range 64).filter (fun x => s.fLane x == 1 && s.lrByte x 0 % 16 == trigger &&
      edgeOk (bits (s.lrByte x 0) 4 2) rising) = [l])
    (hrecs : (s.field.recs.filter (fun r => r.item.isSome)).length < 65536) (hspace : s.bar.field.queue.length < 4096)
    (hport : bit (s.lrByte l 0) 6 = false) :
    Does (.triggerEdge trigger rising [a, b, c, d]) s (fun t =>
      t.field.recs.getLast? = some { lane := l, n := Tab.getD s.field.counts l 0
                                     pos := [a, b, c, d].getD (s.lrEnc l) 0 % 2 ^ 32
                                     item := some (s.fget F.FLD_STATUS_FIELD_GEN 0 * 2 ^ 40 + s.field.next)
                                     hostGen := s.field.hostGen } ∧
      t.field.recs.length = s.field.recs.length + 1 ∧ t.field.next = (s.field.next + 1) % 2 ^ 40 ∧
      t.vtGet (s.vtSlot l (Tab.getD s.field.counts l 0)) = vtWord 0 false false false (Tab.getD s.field.counts l 0) ∧
      (bit (t.fget F.FLD_TRIG_LEVEL_LEVEL 0) trigger) = rising ∧
      (List.range 4).map t.encPos = [a % 2 ^ 32, b % 2 ^ 32, c % 2 ^ 32, d % 2 ^ 32] ∧
      Counted C.FLD_CNT_ITEM 0 1 s t) := by
  have hexec := execTriggerEdge_one hready htrigger hlane [a, b, c, d]
  obtain ⟨p, hp⟩ : ∃ p, [a, b, c, d].getD (s.lrEnc l) 0 % 2 ^ 32 = p := ⟨_, rfl⟩
  obtain ⟨u, hu⟩ : ∃ u, s.edgeTaken trigger rising ([a, b, c, d].map (fun p => p % 2 ^ 32)) = u := ⟨_, rfl⟩
  have hreads : Reads edgeFlds s u := hu ▸ s.edgeTaken_reads _ _ _
  have hmoved : SameUnmoved s u := hu ▸ s.edgeTaken_sameUnmoved ..
  have hbar : u.bar = s.bar := hu ▸ s.edgeTaken_bar ..
  have hlevel : bit (u.fget F.FLD_TRIG_LEVEL_LEVEL 0) trigger = rising := hu ▸ s.edgeTaken_level _ htrigger
  have hfour : (List.range 4).map u.encPos = [a % 2 ^ 32, b % 2 ^ 32, c % 2 ^ 32, d % 2 ^ 32] := by
    rw [← hu]
    exact (State.encPos_encAll ..).trans (by simp only [Nat.mod_mod])
  have hpos : u.encPos (s.lrEnc l) = p := by
    have henc : s.lrEnc l < 4 := Nat.mod_lt _ (by decide)
    rw [← hu, ← hp]
    refine (State.encPos_encAll_at _ _ _ _ _ henc).trans ?_
    interval_cases s.lrEnc l <;> exact Nat.mod_mod ..
  have hdata := hreads.sameLaneData (by decide)
  obtain ⟨m, hm⟩ := u.laneTrigger_creates (l := l) (trigger := trigger) (pos := p) (hmoved.fw.trans hfw)
    (hmoved.hostHere.trans hhere) (by rw [hdata.lrByte, hport]) (by rwa [hmoved.items_length]) (by rwa [hbar])
  rw [hu, hpos, hm] at hexec
  rw [hp]
  have hadded := u.itemAdded_reads l (Tab.getD u.field.counts l 0) p
  have hrecs := u.itemAdded_recs l (Tab.getD u.field.counts l 0) p
  have hnext := u.itemAdded_next l (Tab.getD u.field.counts l 0) p
  have hslot := u.itemTold_slot l (Tab.getD u.field.counts l 0) p m
  generalize (u.triggerCounted l).itemAdded l (Tab.getD u.field.counts l 0) p = v at *
  have hquiet := v.itemTold_sameQuiet m
  have hall := (hadded.mono (by simp)).trans ((Reads.count C.FLD_CNT_ITEM 0 (.refl _) (by simp)).trans
    ((v.itemTold_reads m).mono fun g hg => List.mem_cons_of_mem C.FLD_CNT_ITEM.cnt hg))
  refine ⟨v.itemTold m, hexec, ?_, ?_, ?_, ?_, ?_, ?_, ?_⟩
  · rw [hquiet.recs, hrecs, List.getLast?_concat, hreads _ _ (by decide), hmoved.hostGen, hmoved.next, hmoved.counts]
  · rw [hquiet.recs, hrecs, List.length_append, hmoved.recs_length, List.length_singleton]
  · rw [hquiet.next, hnext, hmoved.next]
  · rw [← hdata.vtSlot, ← hmoved.counts, hslot]
  · rw [hall _ _ (by decide), hlevel]
  · rw [hall.encPos (by decide), hfour]
  · exact Counted.of_reads (hreads.trans (hadded.mono (by simp))) (v.itemTold_reads m) (by decide) (by decide)

/-- A fault is noted, counted and, unless it stood already, reported. -/
theorem encoderFault_notes (hready : s.field.ready = true) (he : e < 4) :
    Does (.encoderFault e wire) s (fun t => t.encBad e = true ∧ t.fget F.FLD_ENC_STATUS_FAULT_SEEN e = 1 ∧
      t.fget F.FLD_ENC_STATUS_WIRE e = ofBool wire ∧ t.fget F.FLD_STATUS_ENC_FAULT_SEEN 0 = 1 ∧
      Counted C.FLD_CNT_ENCERR 0 1 s t ∧ t.field.recs = s.field.recs) := by
  have hexec := execEncoderFault_notes hready he wire
  have htold : Reads tellFlds (s.faultNoted e wire)
      (if s.encBad e then s.faultNoted e wire else (s.faultNoted e wire).tellFault) :=
    .ite (.refl _) (State.tellFault_reads _)
  have hquiet : SameQuiet (s.faultNoted e wire)
      (if s.encBad e then s.faultNoted e wire else (s.faultNoted e wire).tellFault) :=
    .ite (.refl _) (State.tellFault_sameQuiet _)
  generalize (if s.encBad e then s.faultNoted e wire else (s.faultNoted e wire).tellFault) = t at *
  obtain ⟨hfault, hseen, hwire, hany⟩ := s.faultNoted_fields e wire
  refine ⟨t, hexec, ?_, ?_, ?_, ?_, ?_, ?_⟩
  · rw [State.encBad, State.fon, htold _ _ (by decide), hfault]
    rfl
  · rw [htold _ _ (by decide), hseen]
  · rw [htold _ _ (by decide), hwire]
  · rw [htold _ _ (by decide), hany]
  · have hstart : Reads [] s s := .refl s
    exact Counted.of_reads hstart (((s.faultNoted_reads e wire).mono fun g hg => List.mem_append_left _ hg).trans
      (htold.mono fun g hg => List.mem_append_right _ hg)) (by decide) (by decide)
  · rw [hquiet.recs]
    exact congrArg (·.recs) ((State.count_chg s C.FLD_CNT_ENCERR 0).field.resolve_left (by decide))

/-- A fault that clears is gone, and the encoder stands where it was read. -/
theorem encoderFaultClear_lifts (hready : s.field.ready = true) (hbad : s.encBad e = true) :
    Does (.encoderFaultClear e pos) s (fun t => t.encBad e = false ∧ t.fget F.FLD_ENC_STATUS_WIRE e = 0 ∧
      t.encPos e = pos % 2 ^ 32) := by
  obtain ⟨late, hexec⟩ := execEncoderFaultClear_lifts (pos := pos) hready hbad
  have hreads := (s.faultLifted e (pos % 2 ^ 32)).faultLifted_reads late e (pos % 2 ^ 32)
  obtain ⟨hfault, hwire, hpos⟩ := s.faultLifted_fields e (pos % 2 ^ 32)
  refine ⟨_, hexec, ?_, ?_, ?_⟩
  · rw [State.encBad, State.fon, hreads _ _ (by decide), hfault]
    rfl
  · rw [hreads _ _ (by decide), hwire]
  · rw [hreads.encPos (by decide), hpos, Nat.mod_mod]

theorem State.fieldRefresh_encPos (s : State) (e : Nat) : s.fieldRefresh.encPos e = s.encPos e :=
  s.fieldRefresh_reads _ e (by decide)

theorem State.setRej_encPos (s : State) (k : Nat) (x : RejOut) (e : Nat) : (s.setRej k x).encPos e = s.encPos e := rfl

theorem State.dropRec_encPos (s : State) (l n e : Nat) : (s.dropRec l n).encPos e = s.encPos e := rfl

theorem State.count_encPos (s : State) (i e : Nat) : (s.count C.FLD_CNT_WITHHELD i).encPos e = s.encPos e :=
  Reads.count (l := [C.FLD_CNT_WITHHELD.cnt]) _ _ (.refl s) (by simp) _ e (by decide)

/-- The item of a cutoff without a verdict takes the withheld code. -/
theorem cutoffReached_withholds (hready : s.field.ready = true) (hrecs : s.field.recs = [r]) (hcode : r.code = none)
    (hitem : r.item = some id) (henc : s.encBad (s.lrEnc r.lane) = false)
    (hcutoff : serialGe (pos % 2 ^ 32) (s.cutoff r.lane r.pos) = true) :
    Does (.cutoffReached r.lane r.n pos) s (fun t =>
      t.field.recs.map (fun (x : FieldRec) => (x.lane, x.n, x.item, x.code)) =
        [(r.lane, r.n, some id, some (s.lrWithheld r.lane))] ∧
      t.vtGet (s.vtSlot r.lane r.n) = vtWord (s.lrWithheld r.lane) true true false r.n % 65536 ∧
      t.encPos (s.lrEnc r.lane) = pos % 2 ^ 32 ∧ Counted C.FLD_CNT_WITHHELD 0 1 s t) := by
  have hexec := execCutoffReached_passes hready hrecs rfl rfl hcode hitem henc hcutoff
  have hreads := s.encMove_reads (s.lrEnc r.lane) (pos % 2 ^ 32)
  have hmoved := s.encMove_sameUnmoved (s.lrEnc r.lane) (pos % 2 ^ 32)
  have hpos := s.encPos_encMove_self (s.lrEnc r.lane) (pos % 2 ^ 32)
  generalize s.encMove (s.lrEnc r.lane) (pos % 2 ^ 32) = u at hexec hreads hmoved hpos
  have hdata := hreads.sameLaneData (by decide)
  have htake := u.takeEffect_reads r 0 true
  have htaken := u.takeEffect_recs r 0 true
  have hvt := u.takeEffect_vt r 0 true
  have hquiet : SameQuiet (u.takeEffect r 0 true) ((u.takeEffect r 0 true).count C.FLD_CNT_WITHHELD 0).fieldRefresh :=
    .trans (.of_chg (State.count_chg ..)) (State.fieldRefresh_sameQuiet _)
  refine ⟨_, hexec, ?_, ?_, ?_, ?_⟩
  · rw [hquiet.recs, htaken, List.map_map, hmoved.map_recs _ (fun x => ?_), hrecs, hdata.lrWithheld]
    · simp [hitem]
    · simp only [Function.comp_apply]
      split <;> rfl
  · rw [← hdata.vtSlot, ← hdata.lrWithheld]
    rw [if_pos rfl] at hvt
    exact State.vtGet_of_vtPut (hquiet.vt.trans hvt)
  · rw [State.fieldRefresh_encPos, State.count_encPos, htake.encPos (by decide), hpos, Nat.mod_mod]
  · exact Counted.of_reads ((hreads.mono fun g hg => List.mem_append_left _ hg).trans
      (htake.mono fun g hg => List.mem_append_right _ hg)) (State.fieldRefresh_reads _) (by decide) (by decide)

theorem rejectOn_starts (hready : s.field.ready = true) (hk : k < 8) (he : e < 4) (henc : s.encBad e = false) :
    Does (.rejectOn k e pos) s (fun t => (t.rej k).queue = (s.rej k).queue.map (fun (y : RejEntry) =>
        if y.enc = e ∧ serialGe (pos % 2 ^ 32) (lessLead y.on (s.lead k)) = true then { y with started := true } else y) ∧
      t.encPos e = pos % 2 ^ 32 ∧ (∀ j : Fin 8, j.val ≠ k → (t.rej j.val).queue = (s.rej j.val).queue)) := by
  refine ⟨_, execRejectOn_reaches hready hk he henc, ?_, ?_, fun j hj => ?_⟩
  · rw [State.fieldRefresh_queue, State.rej_setRej]
    exact List.map_congr_left fun y _ => RejEntry.reach_eq ..
  · rw [State.fieldRefresh_encPos, State.setRej_encPos, State.encPos_encMove_self, Nat.mod_mod]
  · rw [State.fieldRefresh_queue, State.rej_setRej_ne _ _ hj, State.encMove_rej]

theorem rejectOff_frees (hready : s.field.ready = true) (hk : k < 8) (he : e < 4) (henc : s.encBad e = false) :
    Does (.rejectOff k e pos) s (fun t => (t.rej k).queue = ((s.rej k).queue.filter (fun (y : RejEntry) =>
        !(y.enc == e && serialGe (pos % 2 ^ 32) (lessLead y.off (s.lead k))))).map (fun (y : RejEntry) =>
        if y.enc = e ∧ serialGe (pos % 2 ^ 32) (lessLead y.on (s.lead k)) = true then { y with started := true } else y) ∧
      t.encPos e = pos % 2 ^ 32) := by
  refine ⟨_, execRejectOff_reaches hready hk he henc, ?_, ?_⟩
  · rw [State.fieldRefresh_queue, State.rej_setRej]
    exact List.map_congr_left fun y _ => RejEntry.reach_eq ..
  · rw [State.fieldRefresh_encPos, State.setRej_encPos, State.encPos_encMove_self, Nat.mod_mod]

theorem recordFree_frees (hready : s.field.ready = true)
    (hfind : s.field.recs.find? (fun x => x.lane == l && x.n == n) = some r) (hcode : r.code.isSome = true)
    (henc : s.encBad (s.lrEnc l) = false) (hpassed : serialGe (pos % 2 ^ 32) (s.freeAt l r.pos) = true) :
    Does (.recordFree l n pos) s (fun t => t.field.recs.any (fun (x : FieldRec) => x.lane == l && x.n == n) = false ∧
      t.encPos (s.lrEnc l) = pos % 2 ^ 32 ∧ t.field.vt = s.field.vt) := by
  refine ⟨_, execRecordFree_frees hready hfind hcode henc hpassed, ?_, ?_, ?_⟩
  · rw [(State.fieldRefresh_sameQuiet _).recs]
    refine List.any_eq_false.mpr fun x hx => ?_
    exact Bool.eq_false_iff.mp ((Bool.not_eq_true' _).mp (List.mem_filter.mp hx).2)
  · rw [State.fieldRefresh_encPos, State.dropRec_encPos, State.encPos_encMove_self, Nat.mod_mod]
  · rw [(State.fieldRefresh_sameQuiet _).vt, ← (s.encMove_sameUnmoved (s.lrEnc l) (pos % 2 ^ 32)).vt]
    rfl

end

/-- Settles O36: each clause follows its event to the refresh of the registers, which reaches none of what it tells. -/
theorem triggersEncodersAndCutoffs : Obligations.triggers_encoders_and_cutoffs := by
  unfold Obligations.triggers_encoders_and_cutoffs
  refine ⟨?_, ?_, ?_, ?_, ?_, ?_, ?_, ?_⟩
  · intro s trigger l a b c d rising hready hhere hfw htrigger hlane hrecs hspace hport
    exact triggerEdge_creates hready hhere hfw htrigger hlane hrecs hspace hport
  · intro s e wire hready he
    exact encoderFault_notes hready he
  · intro s e pos hready hbad _
    exact encoderFaultClear_lifts hready hbad
  · intro s l n pos id r hready hrecs hlane hn hcode hitem henc hcutoff
    subst hlane hn
    exact cutoffReached_withholds hready hrecs hcode hitem henc hcutoff
  · intro s k e pos hready hk he henc
    exact rejectOn_starts hready hk he henc
  · intro s k e pos hready hk he henc
    exact rejectOff_frees hready hk he henc
  · intro s k n m hk hm hpos hsince hdue
    obtain ⟨hmaxed, hon⟩ := (s.setRej k { s.rej k with maxed := true }).fieldRefresh_shows hk
    refine ⟨_, execMaxOnExpiry_expires hk hm hpos hsince hdue, ?_, hon, ?_⟩
    · rw [hmaxed, State.rej_setRej, Bool.true_and]
    · rw [State.fieldRefresh_queue, State.rej_setRej]
  · intro s l n pos r hready hfind hcode henc hpassed
    exact recordFree_frees hready hfind hcode henc hpassed
end Sys2Proof.Machine

/-! SUPPORT. The analogue outputs one by one (R294 to R298): what a code, a span and their ends leave of an output and of
its registers, and the commits that outlast a reset (R282, R297). -/

namespace Sys2Proof.Machine

-- One proof after the other: proofs elaborated side by side each take a stack of their own, and the text as a whole is
-- compiled close to its memory limit.
set_option Elab.async false

/-! ### Codes (R294, R295) -/

section
variable {s : State} {k j code c st e n b : Nat} {x : AnaOut}

/-- A code in force begins its output's deglitch hold, or ends it. -/
theorem State.aoCode_ao (s : State) (k code st : Nat) :
    ∃ hold, (s.aoCode k code st).ao k = { s.ao k with hold := hold } :=
  ⟨_, s.ao_setAo k _⟩

theorem State.aoCode_ao_ne (s : State) (code st : Nat) (h : k ≠ j) : (s.aoCode j code st).ao k = s.ao k :=
  s.ao_setAo_ne _ h

theorem State.aoCode_code (s : State) (k code st : Nat) : (s.aoCode k code st).fget F.FDAC_OUT_CODE k = code % 65536 := by
  unfold State.aoCode
  rw [State.fget_fset_of_code_ne _ (by decide), State.fget_fset_self]
  rfl

theorem State.aoCode_reads (s : State) (k code st : Nat) : Reads outFlds s (s.aoCode k code st) := by
  refine .fset _ _ _ (.fset _ _ _ (.of_fields rfl) ?_) ?_
  all_goals simp [outFlds]

/-- A waiting code is in force once applied, and its output waits no more. -/
theorem State.aoApply_applies (hwait : (s.ao k).waiting = some c) (hc : c < 65536) :
    (s.aoApply k).fget F.FDAC_OUT_CODE k = c ∧ ((s.aoApply k).ao k).waiting = none ∧
    ((s.aoApply k).ao k).last = some s.ns := by
  have happly : s.aoApply k =
      if (s.ao k).span = 7 then
        (s.setAo k { s.ao k with waiting := none, last := some s.ns, policy := false }).fset F.FDAC_OUT_CODE k c
      else (s.setAo k { s.ao k with waiting := none, last := some s.ns, policy := false }).aoCode k c 1 := by
    rw [State.aoApply, hwait]
  have hself := s.ao_setAo k { s.ao k with waiting := none, last := some s.ns, policy := false }
  generalize s.setAo k { s.ao k with waiting := none, last := some s.ns, policy := false } = u at happly hself
  rw [happly]
  split
  · refine ⟨(State.fget_fset_self ..).trans (Nat.mod_eq_of_lt hc), ?_, ?_⟩
    all_goals rw [State.fset_at_ao, hself]
  · obtain ⟨hold, hao⟩ := u.aoCode_ao k c 1
    refine ⟨(u.aoCode_code k c 1).trans (Nat.mod_eq_of_lt hc), ?_, ?_⟩
    all_goals rw [hao, hself]

theorem State.aoApply_none (hwait : (s.ao k).waiting = none) : s.aoApply k = s := by rw [State.aoApply, hwait]

theorem execUpdateApply_applies (hk : k < 4) (hready : s.field.ready = true) (hhold : (s.ao k).hold = none)
    (hchange : (s.ao k).change = none) (hlast : (s.ao k).last.all (fun t => decide (t + 1000 ≤ s.ns)) = true) :
    exec (.updateApply k) s = .next (s.aoApply k) := by
  have hspaced : (s.ao k).last.any (fun t => decide (s.ns < t + 1000)) = false := by
    cases hl : (s.ao k).last with
    | none => rfl
    | some t => simpa [hl] using hlast
  simp only [exec, execUpdateApply, hready, hhold, hchange, hspaced, Nat.not_le.mpr hk, decide_false, Bool.not_true,
    Option.isSome_none, Bool.or_self, Bool.false_eq_true, if_false]

theorem execDeglitchHoldEnd_ends (hhold : (s.ao k).hold = some e) (hdue : e ≤ s.ns) :
    exec (.deglitchHoldEnd k) s = .next (if s.fget F.FDAC_OUT_STATE k = 2
      then (s.setAo k { s.ao k with hold := none }).fset F.FDAC_OUT_STATE k 1
      else s.setAo k { s.ao k with hold := none }) := by
  simp only [exec, execDeglitchHoldEnd, hhold, Nat.not_lt.mpr hdue, if_false]
  rfl

/-- A setpoint for an output that already waits is counted. -/
theorem State.aoSet_reads (s : State) (k code : Nat) : Reads [C.FDAC_CNT_COALESCE.cnt] s (s.aoSet k code) := by
  unfold State.aoSet
  extract_lets x s1
  have h1 : Reads [C.FDAC_CNT_COALESCE.cnt] s s1 := .ite (.count _ _ (.refl s) (by simp)) (.refl s)
  exact .ite (.refl s) (h1.trans (.of_fields rfl))

theorem State.aoSet_counted (hhere : s.field.hostHere = true) (hwait : (s.ao k).waiting.isSome = true) :
    Counted C.FDAC_CNT_COALESCE 0 1 s (s.aoSet k code) := by
  have hset : (s.aoSet k code).fields = (s.count C.FDAC_CNT_COALESCE 0).fields := by
    simp only [State.aoSet, hhere, hwait, Bool.not_true, Bool.false_eq_true, if_false, if_true]
    rfl
  exact Counted.of_reads (l := []) (l' := []) (.refl s) (.of_fields hset) (by decide) (by decide)

end

/-! ### Spans (R296) -/

section
variable {s : State} {k j new b n : Nat}

/-- A span change begins at an output whose queue stays. -/
theorem State.aoChange_ao (s : State) (k new : Nat) : ((s.aoChange k new).ao k).change = some (s.ns, new, false) ∧
    ((s.aoChange k new).ao k).queued = (s.ao k).queued := by
  unfold State.aoChange
  extract_lets x s1
  have hns : s1.ns = s.ns := by unfold s1; split <;> rfl
  have hqueued : (s1.ao k).queued = (s.ao k).queued := by
    unfold s1
    split
    · rfl
    · obtain ⟨hold, hao⟩ := s.aoCode_ao k (safeCode x.span) 3
      rw [hao]
  rw [State.fset_at_ao, State.ao_setAo, hns]
  exact ⟨rfl, hqueued⟩

theorem State.aoChange_ao_ne (s : State) (new : Nat) (h : k ≠ j) : (s.aoChange j new).ao k = s.ao k := by
  unfold State.aoChange
  extract_lets x s1
  have h1 : s1.ao k = s.ao k := by
    unfold s1
    split
    · rfl
    · exact s.aoCode_ao_ne _ _ h
  rw [State.fset_at_ao, State.ao_setAo_ne _ _ h, h1]

theorem State.aoChange_reads (s : State) (k new : Nat) : Reads outFlds s (s.aoChange k new) := by
  unfold State.aoChange
  extract_lets x s1
  have h1 : Reads outFlds s s1 := .ite (.refl s) (s.aoCode_reads _ _ _)
  exact .fset _ _ _ (h1.trans (.of_fields rfl)) (by simp [outFlds])

theorem State.aoSpan_ao_ne (s : State) (new : Nat) (h : k ≠ j) : (s.aoSpan j new).ao k = s.ao k := by
  unfold State.aoSpan
  extract_lets x
  split
  · rfl
  · split
    · exact s.ao_setAo_ne _ h
    · exact s.aoChange_ao_ne new h

theorem State.aoSpan_reads (s : State) (k new : Nat) : Reads outFlds s (s.aoSpan k new) := by
  unfold State.aoSpan
  extract_lets x
  exact .ite (.refl s) (.ite (.of_fields rfl) (s.aoChange_reads _ _))

/-- An output that is asked for a span will have it, unless spans are queued with no change in progress. -/
theorem State.aoSpan_target (s : State) (k new : Nat)
    (h : ¬ ((s.ao k).change.isNone = true ∧ (s.ao k).queued ≠ [])) : ((s.aoSpan k new).ao k).target = new := by
  unfold State.aoSpan
  extract_lets x
  split
  next hsame => exact hsame
  next =>
    split
    next =>
      rw [State.ao_setAo, AnaOut.target]
      exact List.getLastD_concat
    next hchange =>
      have hnone : (s.ao k).change.isNone = true := by simpa using hchange
      have hempty : (s.ao k).queued = [] := by
        by_contra hqueued
        exact h ⟨hnone, hqueued⟩
      obtain ⟨hnew, hqueued⟩ := s.aoChange_ao k new
      rw [AnaOut.target, hnew, hqueued, hempty]
      rfl

/-- A span change ends at an output with nothing queued, no policy and nothing waiting. -/
theorem State.aoEnd_idle (hqueued : (s.ao k).queued = []) (hpolicy : (s.ao k).policy = false)
    (hwait : (s.ao k).waiting = none) : s.aoEnd k = s := by
  simp only [State.aoEnd, hqueued, hpolicy, State.aoApply_none hwait, Bool.false_eq_true, if_false, ite_self]

theorem execSpanSwitch_switches (hchange : (s.ao k).change = some (b, n, false)) (hdue : b + 25000 ≤ s.ns) (hn : n ≠ 7) :
    exec (.spanSwitch k) s = .next ((s.setAo k { s.ao k with span := n, change := some (b, n, true), hold := none }).fset
      F.FDAC_OUT_CODE k (safeCode n)) := by
  simp only [exec, execSpanSwitch, hchange, Nat.not_lt.mpr hdue, hn, if_false]

theorem execSpanChangeEnd_ends (hchange : (s.ao k).change = some (b, n, true)) (hdue : b + 50000 ≤ s.ns) :
    exec (.spanChangeEnd k) s = .next (((s.setAo k { s.ao k with change := none }).fset F.FDAC_OUT_STATE k 1).aoEnd k) := by
  simp only [exec, execSpanChangeEnd, hchange, Nat.not_lt.mpr hdue, if_false]

end

/-! ### Commits and non-volatile writes (R282, R297) -/

section
variable {s : State} {k kind : Nat} {nv : Bool}

theorem State.nvFlag_field (s : State) (kind : Nat) : (s.nvFlag kind).field = s.field := by
  unfold State.nvFlag
  extract_lets busy
  split <;> rfl

/-- The flags of the non-volatile writes. -/
def nvFlds : List Fld := [F.FLD_STATUS_NV_VALID, F.FDAC_STATUS_NV_BUSY, F.FADC_STATUS_NV_BUSY]

theorem State.nvFlag_reads (s : State) (kind : Nat) : Reads nvFlds s (s.nvFlag kind) := by
  unfold State.nvFlag
  extract_lets busy
  split
  all_goals exact .fset _ _ _ (.refl s) (by simp [nvFlds])

theorem State.nvStart_aos (s : State) (kind : Nat) : (s.nvStart kind).field.aos = s.field.aos := by
  unfold State.nvStart
  rw [State.nvFlag_field]

theorem State.nvStart_reads (s : State) (kind : Nat) : Reads nvFlds s (s.nvStart kind) := by
  unfold State.nvStart
  extract_lets ks snap
  exact .trans (.of_fields rfl) (State.nvFlag_reads _ kind)

/-- While the policy is being written, the kept values are not the ones in force. -/
theorem State.nvStart_invalid (s : State) : (s.nvStart 0).fget F.FLD_STATUS_NV_VALID 0 = 0 := by
  have hflag : ∀ u : State, u.field.nvWrites.any (fun p => p.1 == 0) = true →
      (u.nvFlag 0).fget F.FLD_STATUS_NV_VALID 0 = 0 := by
    intro u hu
    rw [State.nvFlag, hu]
    exact State.fget_fset_self ..
  exact hflag _ (by simp)

/-- The vector of the spans, and that of the policies with the general-purpose outputs, list each field once. -/
theorem nvFields_nodup_spans : ((nvFields 1).map fun p => p.1.key p.2).Nodup := by decide

theorem nvFields_nodup_policy : (((F.FLD_GPO_SRC_SRC, 0) :: nvFields 0).map fun p => p.1.key p.2).Nodup := by decide

/-- Each output is asked for the span that its register then holds. -/
def State.aoCommit (s : State) (k : Nat) : State := s.aoSpan k (s.fget F.FDAC_CFG_SPAN k)

/-- The vector of spans and policies in force, and every output asked for its span. -/
def State.spansAsked (s : State) : State := (List.range 4).foldl State.aoCommit (s.applyAll (nvFields 1))

theorem execFdacCommit_asks (hready : s.field.ready = true) (hfw : s.field.fw = .running)
    (hlegal : (List.range 4).any (fun k => [5, 6].contains (s.staging F.FDAC_CFG_SPAN k)) = false) :
    exec (.fdacCommit nv) s = .next (if nv then s.spansAsked.nvStart 1 else s.spansAsked) := by
  have hrunning : (s.field.fw != FieldFw.running) = false := by simp [hfw]
  simp only [exec, execFdacCommit, State.dacCommit, hready, hrunning, hlegal, Bool.false_eq_true, if_false, if_true]
  rfl

theorem execFdacCommit_refuses (hready : s.field.ready = true) (hfw : s.field.fw = .running)
    (hillegal : (List.range 4).any (fun k => [5, 6].contains (s.staging F.FDAC_CFG_SPAN k)) = true) :
    exec (.fdacCommit nv) s = .next (s.flag F.FDAC_STATUS_CFG_INVALID 0) := by
  have hrunning : (s.field.fw != FieldFw.running) = false := by simp [hfw]
  simp only [exec, execFdacCommit, State.dacCommit, hready, hrunning, hillegal, Bool.false_eq_true, if_false, if_true]

theorem State.applyAll_ao (s : State) (l : List (Fld × Nat)) (k : Nat) : (s.applyAll l).ao k = s.ao k := by
  rw [(s.applyAll_onlyFields l).1]
  rfl

theorem mem_nvFields_spans {f : Fld} (hk : k < 4)
    (hf : f ∈ [F.FDAC_CFG_SPAN, F.FDAC_CFG_DEGLITCH, F.FDAC_POL_ACTION, F.FDAC_POL_CODE]) : (f, k) ∈ nvFields 1 :=
  List.mem_flatMap.mpr ⟨k, List.mem_range.mpr hk, List.mem_map_of_mem (f := fun g => (g, k)) hf⟩

theorem mem_nvFields_policy {f : Fld} (hk : k < 24) (hf : f ∈ [F.FLD_POL_ACTION, F.FLD_POL_LEVEL]) :
    (f, k) ∈ nvFields 0 :=
  List.mem_cons_of_mem _
    (List.mem_flatMap.mpr ⟨k, List.mem_range.mpr hk, List.mem_map_of_mem (f := fun g => (g, k)) hf⟩)

theorem State.spansAsked_fget (s : State) {f : Fld} (hf : (f, k) ∈ nvFields 1)
    (hout : outFlds.all (fun g => f.code != g.code) = true) : s.spansAsked.fget f k = s.staging f k % 2 ^ f.width := by
  have hreads : Reads outFlds (s.applyAll (nvFields 1)) s.spansAsked :=
    .foldl _ (.refl _) fun u j => u.aoSpan_reads j _
  rw [hreads f k hout, State.applyAll_fget nvFields_nodup_spans hf]

/-- An output will have the span committed for it, unless spans are queued with no change in progress. -/
theorem State.spansAsked_target (s : State) (hk : k < 4)
    (h : ¬ ((s.ao k).change.isNone = true ∧ (s.ao k).queued ≠ [])) :
    (s.spansAsked.ao k).target = s.staging F.FDAC_CFG_SPAN k % 8 := by
  obtain ⟨u, hu, hend⟩ := State.foldl_once (step := State.aoCommit) (g := fun u => (u.ao k, u.fget F.FDAC_CFG_SPAN k))
    List.nodup_range (List.mem_range.mpr hk)
    (fun u j hj => Prod.ext (u.aoSpan_ao_ne _ (Ne.symm hj)) (u.aoSpan_reads j _ F.FDAC_CFG_SPAN k (by decide)))
    (s.applyAll (nvFields 1))
  have hao : u.ao k = s.ao k := (Prod.mk.inj hu).1.trans (s.applyAll_ao _ k)
  have hspan : u.fget F.FDAC_CFG_SPAN k = s.staging F.FDAC_CFG_SPAN k % 8 :=
    (Prod.mk.inj hu).2.trans (State.applyAll_fget nvFields_nodup_spans (mem_nvFields_spans hk (by simp)))
  rw [State.spansAsked, (Prod.mk.inj hend).1, State.aoCommit, hspan]
  exact u.aoSpan_target k _ (by rwa [hao])

/-- What a commit of the policy leaves before the refresh. -/
def State.policyApplied (s : State) (nv : Bool) : State :=
  if nv then (s.applyAll ((F.FLD_GPO_SRC_SRC, 0) :: nvFields 0)).nvStart 0
  else s.applyAll ((F.FLD_GPO_SRC_SRC, 0) :: nvFields 0)

theorem execFldCommit_applies (hready : s.field.ready = true) (hfw : s.field.fw = .running)
    (hlow : 2 ≤ s.staging F.FLD_HOST_TO_TO 0) (hhigh : s.staging F.FLD_HOST_TO_TO 0 ≤ 1000)
    (hlegal : (rangeFrom 8 16).any (fun k => s.staging F.FLD_POL_ACTION k == 3) = false) :
    exec (.fldCommit nv) s = .next (s.policyApplied nv).fieldRefresh := by
  have hrunning : (s.field.fw != FieldFw.running) = false := by simp [hfw]
  simp only [exec, execFldCommit, State.fldCommit, hready, hrunning, hlegal, Nat.not_lt.mpr hlow, Nat.not_lt.mpr hhigh,
    decide_false, Bool.or_self, Bool.false_eq_true, if_false, if_true]
  rfl

theorem State.policyApplied_fget (s : State) (nv : Bool) {f : Fld} (hf : (f, k) ∈ (F.FLD_GPO_SRC_SRC, 0) :: nvFields 0)
    (hother : (nvFlds ++ refreshFlds).all (fun g => f.code != g.code) = true) :
    (s.policyApplied nv).fieldRefresh.fget f k = s.staging f k % 2 ^ f.width := by
  rw [List.all_append, Bool.and_eq_true] at hother
  obtain ⟨hflag, hrefresh⟩ := hother
  have hreads : Reads nvFlds (s.applyAll ((F.FLD_GPO_SRC_SRC, 0) :: nvFields 0)) (s.policyApplied nv) :=
    .ite (State.nvStart_reads _ 0) (.refl _)
  rw [State.fieldRefresh_fget _ _ _ hrefresh, hreads f k hflag, State.applyAll_fget nvFields_nodup_policy hf]

/-- A write of some values ends with the last of them kept. -/
theorem Tab.find_foldl_set {α : Type} (t v : Tab α) (d : Nat × α) (hv : v ≠ []) :
    (Tab.find (v.foldl (fun t x => Tab.set t x.1 x.2) t) (v.getLastD d).1).isSome = true := by
  obtain ⟨w, x, rfl⟩ := (List.eq_nil_or_concat v).resolve_left hv
  rw [List.concat_eq_append, List.foldl_append, List.getLastD_concat, List.foldl_cons, List.foldl_nil, Tab.find_set_self]
  rfl

/-- The values that a non-volatile write keeps. -/
def FieldSec.written (x : FieldSec) (kind : Nat) (v : Tab Nat) : FieldSec :=
  { x with
    nv := v.foldl (fun t x => Tab.set t x.1 x.2)
      (Tab.keep x.nv (fun k _ => !((nvFields kind).map (fun p => p.1.key p.2)).contains k))
    nvWrites := [] }

theorem execNvWriteDone_keeps {v : Tab Nat} (hwrites : s.field.nvWrites = [(kind, v)]) :
    exec (.nvWriteDone kind) s = .next (({ s with field := s.field.written kind v } : State).nvFlag kind) := by
  have hfind : s.field.nvWrites.find? (fun p => p.1 == kind) = some (kind, v) := by simp [hwrites]
  have herase : s.field.nvWrites.erase (kind, v) = [] := by simp [hwrites]
  simp only [exec, execNvWriteDone, hfind, herase]
  rfl

/-- With no write in progress, a kind's flag says that none is. -/
theorem State.nvFlag_idle (h : s.field.nvWrites = []) : (s.nvFlag 1).fget F.FDAC_STATUS_NV_BUSY 0 = 0 ∧
    (s.nvFlag 0).fget F.FLD_STATUS_NV_VALID 0 = 1 ∧ (s.nvFlag 2).fget F.FADC_STATUS_NV_BUSY 0 = 0 := by
  simp only [State.nvFlag, h, List.any_nil]
  exact ⟨State.fget_fset_self .., State.fget_fset_self .., State.fget_fset_self ..⟩

end

/-! ### The open-loop alarm (R298) -/

section
variable {s : State} {k : Nat}

/-- An open loop is flagged at its output. -/
def State.loopFlagged (s : State) (k : Nat) : State :=
  (s.flag F.FDAC_OUT_OPEN_LOOP k).flag F.FDAC_STATUS_OPEN_LOOP_SEEN 0

theorem execOpenLoop_flags (hk : k < 4) (hready : s.field.ready = true) (hspan : (s.ao k).span = 4)
    (hon : s.fget F.FDAC_OUT_STATE k ≠ 0) (hnew : s.fon F.FDAC_OUT_OPEN_LOOP k = false) :
    exec (.openLoop k) s = .next (((s.loopFlagged k).count C.FDAC_CNT_OPENLOOP 0).fieldEvent 0x1001 255 k 0) := by
  have hcurrent : ((s.ao k).span != 4) = false := by simp [hspan]
  have hdrives : (s.fget F.FDAC_OUT_STATE k == 0) = false := by simp [hon]
  simp only [exec, execOpenLoop, hready, hcurrent, hdrives, hnew, Nat.not_le.mpr hk, decide_false, Bool.not_true, Bool.or_self,
    Bool.false_eq_true, if_false]
  rfl

theorem State.loopFlagged_fields (s : State) (k : Nat) : (s.loopFlagged k).fget F.FDAC_OUT_OPEN_LOOP k = 1 ∧
    (s.loopFlagged k).fget F.FDAC_STATUS_OPEN_LOOP_SEEN 0 = 1 := by
  unfold State.loopFlagged State.flag
  refine ⟨?_, State.fget_fset_self ..⟩
  rw [State.fget_fset_of_code_ne _ (by decide)]
  exact State.fget_fset_self ..

theorem State.loopFlagged_reads (s : State) (k : Nat) :
    Reads [F.FDAC_OUT_OPEN_LOOP, F.FDAC_STATUS_OPEN_LOOP_SEEN] s (s.loopFlagged k) := by
  refine .fset _ _ _ (.fset _ _ _ (.refl s) ?_) ?_
  all_goals simp

/-- The alarm is counted and reported, and the output stays as it is. -/
theorem openLoop_alarms (hk : k < 4) (hready : s.field.ready = true) (hspan : (s.ao k).span = 4)
    (hon : s.fget F.FDAC_OUT_STATE k ≠ 0) (hnew : s.fon F.FDAC_OUT_OPEN_LOOP k = false) :
    Does (.openLoop k) s (fun t => t.fget F.FDAC_OUT_OPEN_LOOP k = 1 ∧ t.fget F.FDAC_STATUS_OPEN_LOOP_SEEN 0 = 1 ∧
      Counted C.FDAC_CNT_OPENLOOP 0 1 s t ∧ t.field.aos = s.field.aos) := by
  obtain ⟨hloop, hseen⟩ := s.loopFlagged_fields k
  have htold : Reads sendFlds ((s.loopFlagged k).count C.FDAC_CNT_OPENLOOP 0) _ :=
    State.fieldEvent_reads _ 0x1001 255 k 0
  have hcount : Reads [C.FDAC_CNT_OPENLOOP.cnt] (s.loopFlagged k) ((s.loopFlagged k).count C.FDAC_CNT_OPENLOOP 0) :=
    .count _ _ (.refl _) (by simp)
  have hfield : ((s.loopFlagged k).count C.FDAC_CNT_OPENLOOP 0).field = s.field :=
    (State.count_chg ..).field.resolve_left (by decide)
  refine ⟨_, execOpenLoop_flags hk hready hspan hon hnew, ?_, ?_, ?_, ?_⟩
  · rw [htold _ _ (by decide), hcount _ _ (by decide), hloop]
  · rw [htold _ _ (by decide), hcount _ _ (by decide), hseen]
  · exact Counted.of_reads (s.loopFlagged_reads k) htold (by decide) (by decide)
  · rw [(State.fieldEvent_sameQuiet _ _ _ _ _).aos, hfield]

end

/-- Settles O39: each clause follows its event to the output or the commit that it names. -/
theorem theAnalogueOutputs : Obligations.the_analogue_outputs := by
  unfold Obligations.the_analogue_outputs
  refine ⟨?_, ?_, ?_, ?_, ?_, ?_, ?_, ?_, ?_, ?_, ?_⟩
  · intro s code hready hhere
    have hexec : exec (.fdacSet code) s = .next (s.aoSet (s.fget F.FDAC_SEL_OUTPUT 0) code) := by
      simp only [exec, execFdacSet, hready, if_true]
    refine ⟨_, hexec, ?_, State.aoSet_reads _ _ _ _ _ (by decide), State.aoSet_counted hhere⟩
    rw [State.aoSet_waiting hhere, if_pos rfl]
  · intro s k c x hk hready hx hhold hchange hwait hc hlast
    subst hx
    exact ⟨_, execUpdateApply_applies hk hready hhold hchange hlast, State.aoApply_applies hwait hc⟩
  · intro s k e hhold hdue
    refine ⟨_, execDeglitchHoldEnd_ends hhold hdue, ?_, ?_⟩
    · split
      · rw [State.fset_at_ao, State.ao_setAo]
      · rw [State.ao_setAo]
    · split
      · exact State.fget_fset_self ..
      · rfl
  · intro s nv hready hfw hlegal
    have haos : (if nv then s.spansAsked.nvStart 1 else s.spansAsked).field.aos = s.spansAsked.field.aos := by
      split
      · exact State.nvStart_aos ..
      · rfl
    have hreads : Reads nvFlds s.spansAsked (if nv then s.spansAsked.nvStart 1 else s.spansAsked) :=
      .ite (State.nvStart_reads _ 1) (.refl _)
    refine ⟨_, execFdacCommit_asks hready hfw hlegal, List.all_eq_true.mpr fun k hk => ?_⟩
    have hk4 : k < 4 := List.mem_range.mp hk
    rw [Bool.and_eq_true, State.ao_congr haos]
    refine ⟨List.all_eq_true.mpr fun f hf => ?_, ?_⟩
    · have hapart : (nvFlds ++ outFlds).all (fun g => f.code != g.code) = true := by
        fin_cases hf <;> decide
      rw [List.all_append, Bool.and_eq_true] at hapart
      rw [beq_iff_eq, hreads _ _ hapart.1, s.spansAsked_fget (mem_nvFields_spans hk4 hf) hapart.2]
    · by_cases hstuck : (s.ao k).change.isNone = true ∧ (s.ao k).queued ≠ []
      · simp [hstuck.1, hstuck.2]
      · rw [s.spansAsked_target hk4 hstuck]
        simp
  · intro s nv hready hfw hillegal
    exact ⟨_, execFdacCommit_refuses hready hfw hillegal, rfl⟩
  · intro s k b n hchange hdue hn
    refine ⟨_, execSpanSwitch_switches hchange hdue hn, ?_, ?_, State.fget_fset_self ..⟩
    all_goals rw [State.fset_at_ao, State.ao_setAo]
  · intro s k b n hchange hdue hqueued hpolicy hwait
    have hao := s.ao_setAo k { s.ao k with change := none }
    have hcode : (s.setAo k { s.ao k with change := none }).fget F.FDAC_OUT_CODE k = s.fget F.FDAC_OUT_CODE k := rfl
    have hexec := execSpanChangeEnd_ends hchange hdue
    generalize s.setAo k { s.ao k with change := none } = u at hao hcode hexec
    rw [State.aoEnd_idle (by rw [State.fset_at_ao, hao, hqueued]) (by rw [State.fset_at_ao, hao, hpolicy])
      (by rw [State.fset_at_ao, hao, hwait])] at hexec
    refine ⟨_, hexec, ?_, State.fget_fset_self .., ?_⟩
    · rw [State.fset_at_ao, hao]
    · rw [State.fget_fset_of_code_ne _ (by decide), hcode]
  · intro s k hk hready hspan hon hnew
    exact openLoop_alarms hk hready hspan hon hnew
  · intro s k hk
    have hexec : exec (.openLoopClear k) s = .next (s.fset F.FDAC_OUT_OPEN_LOOP k 0) := by
      simp only [exec, execOpenLoopClear, Nat.not_le.mpr hk, if_false]
    exact ⟨_, hexec, State.fget_fset_self .., OnlyFields.fset ..⟩
  · intro s nv hready hfw hlow hhigh hlegal
    refine ⟨_, execFldCommit_applies hready hfw hlow hhigh hlegal, ?_, ?_, List.all_eq_true.mpr fun k hk =>
      List.all_eq_true.mpr fun f hf => ?_, fun hnv => ?_⟩
    · rw [State.policyApplied_fget _ _ (by simp [nvFields]) (by decide)]
      exact Nat.mod_eq_of_lt (lt_of_le_of_lt hhigh (by decide))
    · exact State.policyApplied_fget _ _ (by simp) (by decide)
    · have hmem : (f, k) ∈ nvFields 0 := mem_nvFields_policy (List.mem_range.mp hk) hf
      have hapart : (nvFlds ++ refreshFlds).all (fun g => f.code != g.code) = true := by
        fin_cases hf <;> decide
      rw [beq_iff_eq, State.policyApplied_fget _ _ (List.mem_cons_of_mem _ hmem) hapart]
    · rw [State.fieldRefresh_fget _ _ _ (by decide), hnv, State.policyApplied, if_pos rfl, State.nvStart_invalid]
  · intro s kind v hwrites
    obtain ⟨hspans, hpolicy, hcal⟩ := State.nvFlag_idle (s := { s with field := s.field.written kind v }) rfl
    refine ⟨_, execNvWriteDone_keeps hwrites, ?_, ?_, ?_, ?_, fun hv => ?_⟩
    · rw [State.nvFlag_field]
      rfl
    · rintro rfl
      exact hspans
    · rintro rfl
      exact hpolicy
    · rintro rfl
      exact hcal
    · rw [State.nvFlag_field]
      exact Tab.find_foldl_set _ v _ hv

end Sys2Proof.Machine

/-! SUPPORT. A proxied read of the host section's own that is not answered (R281). -/

namespace Sys2Proof.Machine

-- One proof after the other: proofs elaborated side by side each take a stack of their own, and the text as a whole is
-- compiled close to its memory limit.
set_option Elab.async false

section
variable {s : State} {p : ProxyRead} {q : FieldAsk}

theorem State.fieldTold_readData (s : State) (q : FieldAsk) (on : Bool) : (s.fieldTold q on).readData = s.readData :=
  (s.fieldTold_chg q on).readData.resolve_left (by decide)

/-- A read of the host section's own that times out tells its command and hands no word to a function. -/
theorem execProxyReadTimeout_own (hproxy : s.bar.proxy = [p]) (hdue : p.since + 5000 ≤ s.ns) (hown : p.own = some q)
    (hmore : p.more = 0) : exec .proxyReadTimeout s = .next ((s.proxyDrop p).fieldTold q false) := by
  simp only [exec, execProxyReadTimeout, hproxy, Nat.not_lt.mpr hdue, State.proxyWord, State.proxyDone, hown, hmore,
    Option.isSome_some, if_true, if_false]
  rfl

theorem execProxyReadTimeout_own_readData (hproxy : s.bar.proxy = [p]) (hdue : p.since + 5000 ≤ s.ns)
    (hown : p.own = some q) (hmore : p.more = 0) : Does .proxyReadTimeout s (fun t => t.readData = s.readData) :=
  ⟨_, execProxyReadTimeout_own hproxy hdue hown hmore, State.fieldTold_readData ..⟩

/-- A read of a field lane's state for command 0 of ring 0, sent at time 0. -/
def ownRead : ProxyRead :=
  { func := 0, addr := 0, tag := 0, since := 0, sess := none, more := 0, got := []
    own := some { ring := 0, number := 0, lane := 0, contract := none, peer := none } }

/-- 5 µs later the read is not answered. -/
def ownReadLate : State := { State.reset with ns := 5000, bar := { State.reset.bar with proxy := [ownRead] } }

end

/-- Refutes O37: the clause of PROXY_READ_TIMEOUT does not set apart a read of the host section's own. In `ownReadLate`
such a read is 5 µs late: its command is told, and no function is handed the word 0. -/
theorem not_fieldLanesAndTheVerdictPort : ¬ Obligations.field_lanes_and_the_verdict_port := by
  unfold Obligations.field_lanes_and_the_verdict_port
  rintro ⟨-, -, -, -, -, -, -, -, -, -, htimeout, -⟩
  obtain ⟨t, hexec, hword, -⟩ := htimeout ownReadLate ownRead rfl (le_refl 5000) rfl rfl
  obtain ⟨t', hexec', hkept⟩ :=
    execProxyReadTimeout_own_readData (s := ownReadLate) (p := ownRead) rfl (le_refl 5000) rfl rfl
  rw [hexec] at hexec'
  cases hexec'
  have hnone : t.readData = [] := hkept
  exact List.cons_ne_nil 0 [] (hword.symm.trans hnone)

end Sys2Proof.Machine

/-! SUPPORT. The input sequencer with its self-calibration and its window bounds (R285 to R292), and the commits that put
in force a vector with the same fields of every entry or channel (R290, R303). -/

namespace Sys2Proof.Machine

-- One proof after the other: proofs elaborated side by side each take a stack of their own, and the text as a whole is
-- compiled close to its memory limit.
set_option Elab.async false

/-! ### Commits of the same fields of every copy (R290, R303) -/

section
variable {s : State} {fs : List Fld} {f : Fld} {i n : Nat}

/-- The listed fields of each of the copies below `n`. -/
def instFlds (fs : List Fld) (n : Nat) : List (Fld × Nat) :=
  (List.range n).flatMap fun i => fs.map fun f => (f, i)

theorem mem_instFlds (hf : f ∈ fs) (hi : i < n) : (f, i) ∈ instFlds fs n :=
  List.mem_flatMap.mpr ⟨i, List.mem_range.mpr hi, List.mem_map_of_mem (f := fun g => (g, i)) hf⟩

/-- Fields of different numbers have different keys, in one copy and across copies. -/
theorem instFlds_keys_nodup (h : (fs.map Fld.code).Nodup) (n : Nat) :
    ((instFlds fs n).map fun p => p.1.key p.2).Nodup := by
  have hkeys : (instFlds fs n).map (fun p => p.1.key p.2) = (List.range n).flatMap fun i => fs.map fun g => g.key i := by
    simp only [instFlds, List.map_flatMap, List.map_map, Function.comp_def]
  rw [hkeys, List.nodup_flatMap]
  constructor
  · intro i _
    have hcodes : fs.map (fun g => g.key i) = (fs.map Fld.code).map fun c => Nat.pair c i := by
      rw [List.map_map]
      rfl
    rw [hcodes]
    exact h.map fun a b hab => (Nat.pair_eq_pair.mp hab).1
  · refine List.nodup_range.imp fun {i j} hij k hki hkj => ?_
    obtain ⟨g, -, rfl⟩ := List.mem_map.mp hki
    obtain ⟨g', -, hsame⟩ := List.mem_map.mp hkj
    exact hij (Fld.key_inj.mp hsame).2.symm

/-- A commit of such a vector puts every staged value of it in force, cut to its width. -/
theorem State.applyAll_instFlds (s : State) (h : (fs.map Fld.code).Nodup) (n : Nat) :
    (List.range n).all (fun i => fs.all fun f => (s.applyAll (instFlds fs n)).fget f i == s.staging f i % 2 ^ f.width) = true :=
  List.all_eq_true.mpr fun _ hi => List.all_eq_true.mpr fun _ hf =>
    beq_iff_eq.mpr (State.applyAll_fget (instFlds_keys_nodup h n) (mem_instFlds hf (List.mem_range.mp hi)))

end

/-! ### Starting and stopping (R289) -/

section
variable {s : State} {cal : Bool} {r : Nat}

/-- Every result is marked as not yet valid. -/
def State.resultsCleared (s : State) : State := (List.range 64).foldl (fun s n => s.fset F.FADC_RES_VALID n 0) s

theorem State.resultsCleared_reads (s : State) : Reads [F.FADC_RES_VALID] s s.resultsCleared :=
  .foldl _ (.refl s) fun u n => .fset _ n 0 (.refl u) (by simp)

theorem State.resultsCleared_valid {n : Nat} (hn : n < 64) : s.resultsCleared.fget F.FADC_RES_VALID n = 0 := by
  obtain ⟨u, -, hend⟩ := State.foldl_once (g := fun u => u.fget F.FADC_RES_VALID n)
    (step := fun s n => s.fset F.FADC_RES_VALID n 0) List.nodup_range (List.mem_range.mpr hn)
    (fun u j hj => State.fget_fset_ne u 0 (Or.inr hj.symm)) s
  exact hend.trans (State.fget_fset_self ..)

/-- Both loops stand at their first entries, with every comparator armed. -/
def State.loopsBegun (s : State) : State :=
  { s with field := { s.field with loopA := some 0, loopB := if s.adcDual then some s.adcSplit else none, disarmed := [] } }

theorem State.loopsBegun_fget (s : State) (f : Fld) (i : Nat) : s.loopsBegun.fget f i = s.fget f i := rfl

theorem execFadcStart_starts (hready : s.field.ready = true) (h : s.adcReason cal = 0) :
    exec (.fadcStart cal) s = .next (s.resultsCleared.loopsBegun.fset F.FADC_STATUS_STATE 0 1) := by
  simp only [exec, execFadcStart, hready, if_true, State.adcStart, h]
  rfl

theorem execFadcStart_refuses (hready : s.field.ready = true) (h : s.adcReason cal = r) (hr : r ≠ 0) :
    exec (.fadcStart cal) s =
      .next (((s.flag F.FADC_STATUS_START_REFUSED 0).fset F.FADC_STATUS_REASON 0 r).fieldEvent 0x0F04 255 255 0) := by
  subst h
  simp only [exec, execFadcStart, hready, if_true, State.adcStart]

theorem State.adcReason_le (s : State) (cal : Bool) : s.adcReason cal ≤ 4 := by
  unfold State.adcReason
  extract_lets a b
  split_ifs <;> decide

theorem execFadcStop_stops (hready : s.field.ready = true) (hruns : s.fget F.FADC_STATUS_STATE 0 = 1) :
    exec .fadcStop s = .next (({ s with field := { s.field with loopA := none, loopB := none } } : State).fset
      F.FADC_STATUS_STATE 0 0) := by
  simp only [exec, execFadcStop, hready, State.adcStop, hruns, bne_self_eq_false, Bool.false_eq_true, if_false, if_true]

theorem SameQuiet.loopA {t : State} (h : SameQuiet s t) : t.field.loopA = s.field.loopA := congrArg (·.loopA) h
theorem SameQuiet.loopB {t : State} (h : SameQuiet s t) : t.field.loopB = s.field.loopB := congrArg (·.loopB) h
theorem SameQuiet.calStart {t : State} (h : SameQuiet s t) : t.field.calStart = s.field.calStart := congrArg (·.calStart) h

/-- A start that is allowed begins both loops, with no result valid. -/
theorem fadcStart_starts (hready : s.field.ready = true) (h : s.adcReason cal = 0) :
    Does (.fadcStart cal) s (fun t => t.fget F.FADC_STATUS_STATE 0 = 1 ∧ t.field.loopA = some 0 ∧
      t.field.loopB = (if s.adcDual then some s.adcSplit else none) ∧ t.field.disarmed = [] ∧
      (List.range 64).all (fun n => t.fget F.FADC_RES_VALID n == 0) = true) := by
  have hmode : s.resultsCleared.adcDual = s.adcDual := by
    rw [State.adcDual, State.adcDual, State.fon, State.fon, s.resultsCleared_reads _ _ (by decide)]
  have hsplit : s.resultsCleared.adcSplit = s.adcSplit := s.resultsCleared_reads F.FADC_CFG_SPLIT 0 (by decide)
  refine ⟨_, execFadcStart_starts hready h, State.fget_fset_self .., rfl, ?_, rfl, ?_⟩
  · rw [State.fset_field, State.loopsBegun, hmode, hsplit]
  · refine List.all_eq_true.mpr fun n hn => beq_iff_eq.mpr ?_
    rw [State.fget_fset_of_code_ne _ (by decide), State.loopsBegun_fget]
    exact State.resultsCleared_valid (List.mem_range.mp hn)

/-- A start that is not allowed names why, and the sequencer stays as it is. -/
theorem fadcStart_refuses (hready : s.field.ready = true) (h : s.adcReason cal = r) (hr : r ≠ 0) :
    Does (.fadcStart cal) s (fun t => t.fget F.FADC_STATUS_START_REFUSED 0 = 1 ∧ t.fget F.FADC_STATUS_REASON 0 = r ∧
      t.fget F.FADC_STATUS_STATE 0 = s.fget F.FADC_STATUS_STATE 0 ∧ t.field.loopA = s.field.loopA ∧
      t.field.loopB = s.field.loopB) := by
  have hr4 : r ≤ 4 := h ▸ s.adcReason_le cal
  have hquiet := ((s.flag F.FADC_STATUS_START_REFUSED 0).fset F.FADC_STATUS_REASON 0 r).fieldEvent_sameQuiet 0x0F04 255 255 0
  refine ⟨_, execFadcStart_refuses hready h hr, ?_, ?_, ?_, hquiet.loopA, hquiet.loopB⟩
  · rw [State.fieldEvent_reads _ _ _ _ _ _ _ (by decide), State.fget_fset_of_code_ne _ (by decide)]
    exact State.fget_fset_self ..
  · rw [State.fieldEvent_reads _ _ _ _ _ _ _ (by decide), State.fget_fset_self]
    exact Nat.mod_eq_of_lt (lt_of_le_of_lt hr4 (by decide))
  · rw [State.fieldEvent_reads _ _ _ _ _ _ _ (by decide), State.fget_fset_of_code_ne _ (by decide)]
    exact State.flag_fget _ _ _ _ _ (Or.inl (by decide))

end

/-! ### Results (R285 to R291) -/

section
variable {s t : State} {l : List Fld} {n : Nat} {raw : List Int}

/-- What an entry's codes and the order of the entries depend on: its control words, the mode, and the factors. -/
def entryFlds : List Fld := [F.FADC_ENT_CTL_CTL, F.FADC_CFG_MODE, F.FADC_CFG_SPLIT, F.FADC_CALF_OFS_OFFSET,
  F.FADC_CALF_GAIN_GAIN]

/-- The entries are set as before. -/
def SameEntries (s t : State) : Prop := ∀ f ∈ entryFlds, ∀ i, t.fget f i = s.fget f i

theorem Reads.sameEntries (h : Reads l s t) (hl : entryFlds.all (fun f => l.all fun g => f.code != g.code) = true) :
    SameEntries s t :=
  fun f hf i => h f i (List.all_eq_true.mp hl f hf)

theorem SameEntries.entBits (h : SameEntries s t) : t.entBits = s.entBits := by
  funext n lo w
  rw [State.entBits, State.entBits, h _ (by simp [entryFlds])]

theorem SameEntries.loopFrom (h : SameEntries s t) : t.loopFrom = s.loopFrom := by
  funext n limit k
  induction k generalizing n with
  | zero => rfl
  | succ k ih => rw [State.loopFrom, State.loopFrom, h.entBits, ih]

theorem SameEntries.loopAEnts (h : SameEntries s t) : t.loopAEnts = s.loopAEnts := by
  have hmode : t.adcDual = s.adcDual := by
    rw [State.adcDual, State.adcDual, State.fon, State.fon, h _ (by simp [entryFlds])]
  have hsplit : t.adcSplit = s.adcSplit := h F.FADC_CFG_SPLIT (by simp [entryFlds]) 0
  rw [State.loopAEnts, State.loopAEnts, h.loopFrom, hmode, hsplit]

theorem SameEntries.corrected (h : SameEntries s t) : t.corrected = s.corrected := by
  funext r conv gain
  simp only [State.corrected, h F.FADC_CALF_OFS_OFFSET (by simp [entryFlds]), h F.FADC_CALF_GAIN_GAIN (by simp [entryFlds])]

theorem SameEntries.entCodes (h : SameEntries s t) : t.entCodes = s.entCodes := by
  funext n raw
  simp only [State.entCodes, h.entBits, h.corrected]

/-- Saturated conversions are counted, and noted. -/
def State.satNoted (s : State) (raw : List Int) : State :=
  if decide (0 < raw.countP rawSat) then (s.countN C.FADC_CNT_SAT 0 (raw.countP rawSat)).flag F.FADC_STATUS_SAT_SEEN 0
  else s.countN C.FADC_CNT_SAT 0 (raw.countP rawSat)

theorem State.satNoted_reads (s : State) (raw : List Int) :
    Reads [C.FADC_CNT_SAT.cnt, F.FADC_STATUS_SAT_SEEN] s (s.satNoted raw) := by
  have hcount : Reads [C.FADC_CNT_SAT.cnt, F.FADC_STATUS_SAT_SEEN] s (s.countN C.FADC_CNT_SAT 0 (raw.countP rawSat)) :=
    .countAt _ _ _ _ (.refl s) (by simp)
  exact .ite (hcount.fset _ _ _ (by simp)) hcount

/-- What a window comparator may set. -/
def windowFlds : List Fld := F.FADC_WIN_STATUS_LEFT :: C.FADC_CNT_WIN.cnt :: sendFlds

theorem State.adcWindow_reads (s : State) (n : Nat) (v : Int) : Reads windowFlds s (s.adcWindow n v).2 := by
  unfold State.adcWindow
  extract_lets lo hi hy out armed s1 s2
  have hleft : Reads windowFlds s s2 := .fset _ _ _ (.of_fields rfl) (by simp [windowFlds])
  have htold : Reads windowFlds s ((s2.count C.FADC_CNT_WIN 0).fieldEventRate 0x0F01 n 255 n 0) :=
    (hleft.count _ _ (by simp [windowFlds])).trans
      ((State.fieldEventRate_reads _ _ _ _ _ _).mono fun g hg => by simp [windowFlds, hg])
  split
  · exact .refl s
  · split
    · split
      · exact .of_fields rfl
      · exact .refl s
    · split
      · exact htold
      · exact .refl s

/-- A result with its flags. -/
def State.resultPut (s : State) (n : Nat) (v : Int) (out sat : Bool) (loop : Nat) : State :=
  ((((s.fset F.FADC_RES_VALUE n (toBits 18 v)).fset F.FADC_RES_OUT n (ofBool out)).fset F.FADC_RES_SAT n (ofBool sat)).fset
    F.FADC_RES_VALID n 1).fset F.FADC_RES_LOOP n (loop % 256)

theorem toBits_lt (w : Nat) (v : Int) : toBits w v < 2 ^ w := by
  have hpos : (0 : Int) < ((2 ^ w : Nat) : Int) := Int.natCast_pos.mpr (Nat.two_pow_pos w)
  rw [toBits, Int.toNat_lt (Int.emod_nonneg _ hpos.ne')]
  exact Int.emod_lt_of_pos v hpos

theorem ofBool_lt (b : Bool) : ofBool b < 2 := by cases b <;> decide

theorem State.resultPut_fields (s : State) (n : Nat) (v : Int) (out sat : Bool) (loop : Nat) :
    (s.resultPut n v out sat loop).fget F.FADC_RES_VALUE n = toBits 18 v ∧
    (s.resultPut n v out sat loop).fget F.FADC_RES_SAT n = ofBool sat ∧
    (s.resultPut n v out sat loop).fget F.FADC_RES_VALID n = 1 ∧
    (s.resultPut n v out sat loop).fget F.FADC_RES_LOOP n = loop % 256 := by
  unfold State.resultPut
  simp (disch := decide) only [State.fget_fset_of_code_ne, State.fget_fset_self]
  exact ⟨Nat.mod_eq_of_lt (toBits_lt 18 v), Nat.mod_eq_of_lt (ofBool_lt sat), rfl, Nat.mod_mod _ _⟩

/-- The fields of a result. -/
def resultFlds : List Fld := [F.FADC_RES_VALUE, F.FADC_RES_OUT, F.FADC_RES_SAT, F.FADC_RES_VALID, F.FADC_RES_LOOP]

theorem State.resultPut_reads (s : State) (n : Nat) (v : Int) (out sat : Bool) (loop : Nat) :
    Reads resultFlds s (s.resultPut n v out sat loop) := by
  refine .fset _ _ _ (.fset _ _ _ (.fset _ _ _ (.fset _ _ _ (.fset _ _ _ (.refl s) ?_) ?_) ?_) ?_) ?_
  all_goals simp [resultFlds]

/-- What a report may count: one that was left out, and a message that was dropped. -/
def reportFlds : List Fld := C.FADC_CNT_RPTSKIP.cnt :: sendFlds

theorem State.adcReport_reads (s : State) (n : Nat) (v : Int) (out sat : Bool) (loop : Nat) :
    Reads reportFlds s (s.adcReport n v out sat loop) := by
  unfold State.adcReport
  exact .ite (.refl s) (.ite (.count _ _ (.refl s) (by simp [reportFlds]))
    ((s.toHost_reads _).mono fun g hg => List.mem_cons_of_mem _ hg))

/-- Loop A moves on, counting its rounds. -/
theorem State.adcAdvance_reads (s : State) (n : Nat) : Reads [F.FADC_LOOP_LOOP_A] s (s.adcAdvance false n) := by
  unfold State.adcAdvance
  exact .trans (.ite (.fset _ _ _ (.refl s) (by simp)) (.refl s)) (.of_fields rfl)

theorem State.adcAdvance_loopA (s : State) (n : Nat) :
    (s.adcAdvance false n).field.loopA = some (nextEntry s.loopAEnts n).1 := rfl

/-- The rounded mean of an entry's corrected codes (R288). -/
def State.entMean (s : State) (n : Nat) (raw : List Int) : Int :=
  roundHalfEven ((s.entCodes n raw).foldl (fun a b => a + b) 0) raw.length

/-- An entry of loop A is converted: what saturated is noted, and the mean goes through the window comparator into the
result and the report. -/
def State.entryDone (s : State) (n : Nat) (raw : List Int) : State :=
  let u := s.satNoted raw
  let v := u.entMean n raw
  let w := (u.adcWindow n v).2
  let out := (u.adcWindow n v).1
  let sat := decide (0 < raw.countP rawSat)
  let loop := w.fget F.FADC_LOOP_LOOP_A 0
  (w.resultPut n v out sat loop).adcReport n v out sat loop

theorem execEntryResult_converts (hruns : s.fget F.FADC_STATUS_STATE 0 = 1) (hloopA : s.field.loopA = some n)
    (hloopB : s.field.loopB = none) (hlen : raw.length = s.entBits n 12 8 + 1)
    (hraw : raw.all (fun r => decide (-131072 ≤ r) && decide (r ≤ 131071)) = true) :
    exec (.entryResult n raw) s = .next ((s.entryDone n raw).adcAdvance false n) := by
  have hrange : raw.any (fun r => decide (r < -131072) || decide (131071 < r)) = false := by
    rw [← Bool.not_eq_true', List.not_any_eq_all_not, ← hraw]
    simp only [Bool.not_or, ← decide_not, Int.not_lt]
  have hA : (s.field.loopA == some n) = true := by simp [hloopA]
  have hB : (s.field.loopB == some n) = false := by simp [hloopB]
  have hcount : (raw.length != s.entBits n 12 8 + 1) = false := by simp [hlen]
  simp only [exec, execEntryResult, hruns, hA, hB, hcount, hrange, bne_self_eq_false, Bool.or_true, Bool.not_true, Bool.or_self,
    Bool.false_eq_true, if_false]
  rfl

/-- The result and its flags stand as they were written, and the entries are set as before. -/
theorem State.entryDone_writes (s : State) (n : Nat) (raw : List Int) :
    (s.entryDone n raw).fget F.FADC_RES_VALUE n = toBits 18 (s.entMean n raw) ∧
    (s.entryDone n raw).fget F.FADC_RES_SAT n = ofBool (raw.any rawSat) ∧
    (s.entryDone n raw).fget F.FADC_RES_VALID n = 1 ∧
    (s.entryDone n raw).fget F.FADC_RES_LOOP n = s.fget F.FADC_LOOP_LOOP_A 0 % 256 ∧
    SameEntries s (s.entryDone n raw) := by
  unfold State.entryDone
  extract_lets u v w out sat loop
  have hnoted : Reads _ s u := s.satNoted_reads raw
  have hwindow : Reads windowFlds u w := u.adcWindow_reads n v
  have hreport : Reads reportFlds (w.resultPut n v out sat loop) _ :=
    State.adcReport_reads _ n v out sat loop
  have hmean : v = s.entMean n raw := by
    rw [State.entMean, ← (hnoted.sameEntries (by decide)).entCodes]
    rfl
  have hsat : sat = raw.any rawSat := by
    rw [Bool.eq_iff_iff, decide_eq_true_iff, List.countP_pos_iff, List.any_eq_true]
  have hloop : loop = s.fget F.FADC_LOOP_LOOP_A 0 :=
    (hwindow _ 0 (by decide)).trans (hnoted _ 0 (by decide))
  obtain ⟨hvalue, hflag, hvalid, hround⟩ := w.resultPut_fields n v out sat loop
  refine ⟨?_, ?_, ?_, ?_, fun f hf i => ?_⟩
  · rw [hreport _ _ (by decide), hvalue, hmean]
  · rw [hreport _ _ (by decide), hflag, hsat]
  · rw [hreport _ _ (by decide), hvalid]
  · rw [hreport _ _ (by decide), hround, hloop]
  · rw [hreport.sameEntries (by decide) f hf, (w.resultPut_reads n v out sat loop).sameEntries (by decide) f hf,
      hwindow.sameEntries (by decide) f hf, hnoted.sameEntries (by decide) f hf]

/-- The mean of an entry of loop A with its flags, and the entry that follows. -/
theorem entryResult_writes (hruns : s.fget F.FADC_STATUS_STATE 0 = 1) (hloopA : s.field.loopA = some n)
    (hloopB : s.field.loopB = none) (hlen : raw.length = s.entBits n 12 8 + 1)
    (hraw : raw.all (fun r => decide (-131072 ≤ r) && decide (r ≤ 131071)) = true) :
    Does (.entryResult n raw) s (fun t => t.fget F.FADC_RES_VALUE n = toBits 18 (s.entMean n raw) ∧
      t.fget F.FADC_RES_SAT n = ofBool (raw.any rawSat) ∧ t.fget F.FADC_RES_VALID n = 1 ∧
      t.fget F.FADC_RES_LOOP n = s.fget F.FADC_LOOP_LOOP_A 0 % 256 ∧
      t.field.loopA = some (nextEntry s.loopAEnts n).1) := by
  obtain ⟨hvalue, hsat, hvalid, hloop, hentries⟩ := s.entryDone_writes n raw
  have hmoves := (s.entryDone n raw).adcAdvance_reads n
  refine ⟨_, execEntryResult_converts hruns hloopA hloopB hlen hraw, ?_, ?_, ?_, ?_, ?_⟩
  · rw [hmoves _ _ (by decide), hvalue]
  · rw [hmoves _ _ (by decide), hsat]
  · rw [hmoves _ _ (by decide), hvalid]
  · rw [hmoves _ _ (by decide), hloop]
  · rw [State.adcAdvance_loopA, hentries.loopAEnts]

end

/-! ### Self-calibration (R292) -/

section
variable {s : State} {b : Nat} {sums : List (Int × Int × Int × Int)}

theorem execFadcCal_begins (hready : s.field.ready = true) (hstopped : s.fget F.FADC_STATUS_STATE 0 = 0) :
    exec .fadcCal s = .next (({ s with field := { s.field with calStart := some s.ns } } : State).fset
      F.FADC_STATUS_STATE 0 2) := by
  simp only [exec, execFadcCal, hready, State.adcCal, hstopped, bne_self_eq_false, Bool.false_eq_true, if_false, if_true]

theorem execFadcCal_refuses (hready : s.field.ready = true) (hbusy : s.fget F.FADC_STATUS_STATE 0 ≠ 0) :
    exec .fadcCal s = .next (s.flag F.FADC_STATUS_REFUSED_WRITE 0).fieldRefuse := by
  simp only [exec, execFadcCal, hready, State.adcCal, bne_iff_ne.mpr hbusy, if_true]

/-- A refused write is flagged and reported. -/
theorem State.fieldRefuse_reads (s : State) :
    Reads sendFlds (s.flag F.FLD_STATUS_REFUSED_WRITE 0) s.fieldRefuse :=
  State.fieldEvent_reads _ 0x0E09 255 255 0

/-- While the sequencer does not stand still, a calibration is refused and changes nothing of the sequencer. -/
theorem fadcCal_refuses (hready : s.field.ready = true) (hbusy : s.fget F.FADC_STATUS_STATE 0 ≠ 0) :
    Does .fadcCal s (fun t => t.fget F.FADC_STATUS_REFUSED_WRITE 0 = 1 ∧ t.fget F.FLD_STATUS_REFUSED_WRITE 0 = 1 ∧
      t.field.calStart = s.field.calStart ∧ t.fget F.FADC_STATUS_STATE 0 = s.fget F.FADC_STATUS_STATE 0) := by
  have htold := (s.flag F.FADC_STATUS_REFUSED_WRITE 0).fieldRefuse_reads
  refine ⟨_, execFadcCal_refuses hready hbusy, ?_, ?_, (State.fieldEvent_sameQuiet _ 0x0E09 255 255 0).calStart, ?_⟩
  · rw [htold _ _ (by decide), State.flag_fget _ _ _ _ _ (Or.inl (by decide))]
    exact State.fget_fset_self ..
  · rw [htold _ _ (by decide)]
    exact State.fget_fset_self ..
  · rw [htold _ _ (by decide), State.flag_fget _ _ _ _ _ (Or.inl (by decide)),
      State.flag_fget _ _ _ _ _ (Or.inl (by decide))]

/-- The calibration is over and the sequencer stands still. -/
def State.calEnded (s : State) : State :=
  ({ s with field := { s.field with calStart := none } } : State).fset F.FADC_STATUS_STATE 0 0

/-- The factors of one pair, from two free values that settle inexact quotients: copy `i / 6 * 8 + i % 6` for the
`i`-th pair. -/
def State.calPut (n : Nat) (s : State) (p : (Int × Int × Int × Int) × Nat) : State :=
  (s.fset F.FADC_CALF_OFS_OFFSET (p.2 / 6 * 8 + p.2 % 6)
      (toBits 20 (openRound (n + 2 * p.2) (p.1.1 + p.1.2.2.2) 128))).fset F.FADC_CALF_GAIN_GAIN (p.2 / 6 * 8 + p.2 % 6)
    (toBits 24 (openRound (n + 2 * p.2 + 1) (2 ^ 22 * 2359296 * 1024) (10 * (p.1.2.1 - p.1.2.2.1))))

/-- The factors of all pairs. -/
def State.calFactors (s : State) (sums : List (Int × Int × Int × Int)) : State :=
  sums.zipIdx.foldl (State.calPut s.free) s

theorem execFadcCalDone_fails (hstart : s.field.calStart = some b) (hdue : b + 12800000 ≤ s.ns) (hlen : sums.length = 12)
    (hbad : sums.all calPairOk = false) :
    exec (.fadcCalDone sums) s = .next ((s.calEnded.flag F.FADC_STATUS_CAL_FAIL 0).fieldEvent 0x0F03 255 255 0) := by
  simp only [exec, execFadcCalDone, hstart, hlen, hbad, Nat.not_lt.mpr hdue, bne_self_eq_false, decide_false, Bool.or_self,
    Bool.not_false, Bool.false_eq_true, if_false, if_true]
  rfl

theorem execFadcCalDone_takes (hstart : s.field.calStart = some b) (hdue : b + 12800000 ≤ s.ns) (hlen : sums.length = 12)
    (hok : sums.all calPairOk = true) :
    exec (.fadcCalDone sums) s = .next (((s.calEnded.calFactors sums).draw 24).fieldEvent 0x0F02 255 255 0) := by
  simp only [exec, execFadcCalDone, hstart, hlen, hok, Nat.not_lt.mpr hdue, bne_self_eq_false, decide_false, Bool.or_self,
    Bool.not_true, Bool.false_eq_true, if_false]
  rfl

theorem State.calFactors_reads (s : State) (sums : List (Int × Int × Int × Int)) :
    Reads [F.FADC_CALF_OFS_OFFSET, F.FADC_CALF_GAIN_GAIN] s (s.calFactors sums) :=
  .foldl _ (.refl s) fun u p => .fset _ _ _ (.fset _ _ _ (.refl u) (by simp)) (by simp)

theorem State.calFactors_free (s : State) (sums : List (Int × Int × Int × Int)) : (s.calFactors sums).free = s.free :=
  State.foldl_keeps (g := State.free) (step := State.calPut s.free) (fun _ _ => rfl) _ s

theorem State.calFactors_field (s : State) (sums : List (Int × Int × Int × Int)) : (s.calFactors sums).field = s.field :=
  State.foldl_keeps (g := State.field) (step := State.calPut s.free) (fun _ _ => rfl) _ s

/-- The first pair alone gives copy 0 its offset: every later pair has another copy. -/
theorem State.calFactors_first (s : State) (x : Int × Int × Int × Int) (rest : List (Int × Int × Int × Int)) :
    (s.calFactors (x :: rest)).fget F.FADC_CALF_OFS_OFFSET 0 =
      toBits 20 (openRound s.free (x.1 + x.2.2.2) 128) % 2 ^ 20 := by
  have hfirst : (s.calPut s.free (x, 0)).fget F.FADC_CALF_OFS_OFFSET 0 =
      toBits 20 (openRound s.free (x.1 + x.2.2.2) 128) % 2 ^ 20 := by
    simp only [State.calPut, Nat.zero_div, Nat.zero_mod, Nat.zero_mul, Nat.mul_zero, Nat.add_zero]
    rw [State.fget_fset_of_code_ne _ (by decide), State.fget_fset_self]
    rfl
  rw [State.calFactors, List.zipIdx_cons, List.foldl_cons]
  refine List.foldlRecOn (motive := fun (u : State) => u.fget F.FADC_CALF_OFS_OFFSET 0 =
    toBits 20 (openRound s.free (x.1 + x.2.2.2) 128) % 2 ^ 20) _ _ hfirst fun u hu p hp => ?_
  have hlater : 1 ≤ p.2 := (List.mem_zipIdx hp).1
  have hother : 0 ≠ p.2 / 6 * 8 + p.2 % 6 := by omega
  rw [State.calPut, State.fget_fset_of_code_ne _ (by decide), State.fget_fset_ne _ _ (Or.inr hother), hu]

/-- A pair out of bounds: the failure is flagged, and every factor stays. -/
theorem fadcCalDone_fails (hstart : s.field.calStart = some b) (hdue : b + 12800000 ≤ s.ns) (hlen : sums.length = 12)
    (hbad : sums.all calPairOk = false) :
    Does (.fadcCalDone sums) s (fun t => t.fget F.FADC_STATUS_STATE 0 = 0 ∧ t.fget F.FADC_STATUS_CAL_FAIL 0 = 1 ∧
      t.field.calStart = none ∧ ∀ i, t.fget F.FADC_CALF_OFS_OFFSET i = s.fget F.FADC_CALF_OFS_OFFSET i ∧
        t.fget F.FADC_CALF_GAIN_GAIN i = s.fget F.FADC_CALF_GAIN_GAIN i) := by
  have htold : Reads sendFlds (s.calEnded.flag F.FADC_STATUS_CAL_FAIL 0) _ := State.fieldEvent_reads _ 0x0F03 255 255 0
  have hended : Reads [F.FADC_STATUS_STATE, F.FADC_STATUS_CAL_FAIL] s (s.calEnded.flag F.FADC_STATUS_CAL_FAIL 0) :=
    .fset _ _ _ (.fset _ _ _ (.of_fields rfl) (by simp)) (by simp)
  refine ⟨_, execFadcCalDone_fails hstart hdue hlen hbad, ?_, ?_,
    (State.fieldEvent_sameQuiet _ 0x0F03 255 255 0).calStart, fun i => ⟨?_, ?_⟩⟩
  · rw [htold _ _ (by decide), State.flag_fget _ _ _ _ _ (Or.inl (by decide))]
    exact State.fget_fset_self ..
  · rw [htold _ _ (by decide)]
    exact State.fget_fset_self ..
  · rw [htold _ _ (by decide), hended _ _ (by decide)]
  · rw [htold _ _ (by decide), hended _ _ (by decide)]

/-- Every pair in bounds: the factors are taken, with two free values drawn for each pair (log entry 75). -/
theorem fadcCalDone_takes (hstart : s.field.calStart = some b) (hdue : b + 12800000 ≤ s.ns) (hlen : sums.length = 12)
    (hok : sums.all calPairOk = true) :
    Does (.fadcCalDone sums) s (fun t => t.fget F.FADC_STATUS_STATE 0 = 0 ∧
      t.fget F.FADC_STATUS_CAL_FAIL 0 = s.fget F.FADC_STATUS_CAL_FAIL 0 ∧ t.field.calStart = none ∧
      t.free = s.free + 24 ∧ t.fget F.FADC_CALF_OFS_OFFSET 0 =
        toBits 20 (openRound s.free ((sums.getD 0 (0, 0, 0, 0)).1 + (sums.getD 0 (0, 0, 0, 0)).2.2.2) 128) % 2 ^ 20) := by
  have htold : Reads sendFlds ((s.calEnded.calFactors sums).draw 24) _ := State.fieldEvent_reads _ 0x0F02 255 255 0
  have hfactors := s.calEnded.calFactors_reads sums
  refine ⟨_, execFadcCalDone_takes hstart hdue hlen hok, ?_, ?_, ?_, ?_, ?_⟩
  · rw [htold _ _ (by decide), State.draw_at_fget, hfactors _ _ (by decide)]
    exact State.fget_fset_self ..
  · rw [htold _ _ (by decide), State.draw_at_fget, hfactors _ _ (by decide)]
    exact State.fget_fset_of_code_ne _ (by decide)
  · rw [(State.fieldEvent_sameQuiet _ _ _ _ _).calStart, State.draw_field, State.calFactors_field]
    rfl
  · rw [(State.fieldEvent_chg ..).free.resolve_left (by decide), State.draw, State.calFactors_free]
    rfl
  · obtain ⟨x, rest, rfl⟩ : ∃ x rest, sums = x :: rest := List.exists_cons_of_length_eq_add_one hlen
    rw [htold _ _ (by decide), State.draw_at_fget, State.calFactors_first]
    rfl

theorem execCalStore_writes (hready : s.field.ready = true) : exec .calStore s = .next (s.nvStart 2) := by
  simp only [exec, execCalStore, hready, if_true]

/-- The write of the factors in force begins, and NV_BUSY says so. -/
theorem State.nvStart_cal (s : State) : (s.nvStart 2).fget F.FADC_STATUS_NV_BUSY 0 = 1 ∧
    (s.nvStart 2).field.nvWrites.length = s.field.nvWrites.length + 1 ∧
    OnlyFields [(F.FADC_STATUS_NV_BUSY, 0)] { s with field := (s.nvStart 2).field } (s.nvStart 2) := by
  have hfield : (s.nvStart 2).field = _ := State.nvFlag_field _ 2
  refine ⟨?_, ?_, ?_⟩
  · have hflag : ∀ u : State, u.field.nvWrites.any (fun p => p.1 == 2) = true →
        (u.nvFlag 2).fget F.FADC_STATUS_NV_BUSY 0 = 1 := by
      intro u hu
      simp only [State.nvFlag, hu]
      exact State.fget_fset_self ..
    exact hflag _ (by simp)
  · rw [hfield]
    exact List.length_append
  · rw [hfield]
    exact OnlyFields.fset ..

end

/-! ### Window bounds and the monitor's report (R290, R291) -/

section
variable {s : State}

/-- The bounds of an entry's window. -/
def boundFlds : List Fld := [F.FADC_ENT_WLO_BOUND, F.FADC_ENT_WHI_BOUND, F.FADC_ENT_HYST_HYST]

theorem execFadcCommit_applies (hready : s.field.ready = true) (hfw : s.field.fw = .running) (hok : s.boundsOk = true) :
    exec .fadcCommit s = .next (s.applyAll (instFlds boundFlds 64)) := by
  have hrunning : (s.field.fw != FieldFw.running) = false := by simp [hfw]
  simp only [exec, execFadcCommit, State.adcCommit, hready, hrunning, hok, Bool.not_true, Bool.false_eq_true, if_false, if_true]
  rfl

theorem execFadcCommit_refuses (hready : s.field.ready = true) (hfw : s.field.fw = .running) (hbad : s.boundsOk = false) :
    exec .fadcCommit s = .next (s.flag F.FADC_STATUS_CFG_INVALID 0) := by
  have hrunning : (s.field.fw != FieldFw.running) = false := by simp [hfw]
  simp only [exec, execFadcCommit, State.adcCommit, hready, hrunning, hbad, Bool.not_false, Bool.false_eq_true, if_false, if_true]

theorem execMonitorReport_sends {temp : Int} {supply rail : Nat} (hready : s.field.ready = true)
    (hhere : s.field.hostHere = true) : exec (.monitorReport temp supply rail) s =
      .next (s.toHost ([5, 1] ++ bytesOf 2 (toBits 16 temp) ++ bytesOf 2 supply ++ bytesOf 2 rail)) := by
  simp only [exec, execMonitorReport, hready, hhere, Bool.not_true, Bool.or_self, Bool.false_eq_true, if_false]

end

/-- Settles O38: each clause follows its event to the loops, the result, the factors or the bounds that it names. The
rounding of the factors (log entry 75) is `openRound`'s. -/
theorem theFieldSequencerRunsAndCalibrates : Obligations.the_field_sequencer_runs_and_calibrates := by
  unfold Obligations.the_field_sequencer_runs_and_calibrates
  refine ⟨?_, ?_, ?_, ?_, ?_, ?_, ?_, ?_, ?_, ?_, ?_, ?_⟩
  · intro s cal hready hreason
    exact fadcStart_starts hready hreason
  · intro s cal r hready hreason hr
    exact fadcStart_refuses hready hreason hr
  · intro s hready hruns
    exact ⟨_, execFadcStop_stops hready hruns, State.fget_fset_self .., rfl, rfl, (OnlyFields.fset ..).2⟩
  · intro s n raw hruns hloopA hloopB _ hlen hraw
    exact entryResult_writes hruns hloopA hloopB hlen hraw
  · intro s hready hstopped
    exact ⟨_, execFadcCal_begins hready hstopped, State.fget_fset_self .., rfl, OnlyFields.fset ..⟩
  · intro s hready hbusy
    exact fadcCal_refuses hready hbusy
  · intro s b sums hstart hdue hlen hbad
    obtain ⟨t, hexec, hstate, hfail, hcal, hkept⟩ := fadcCalDone_fails hstart hdue hlen hbad
    refine ⟨t, hexec, hstate, hfail, hcal, List.all_eq_true.mpr fun i _ => ?_⟩
    rw [Bool.and_eq_true, beq_iff_eq, beq_iff_eq]
    exact hkept i
  · intro s b sums hstart hdue hlen hok
    exact fadcCalDone_takes hstart hdue hlen hok
  · intro s hready
    exact ⟨_, execCalStore_writes hready, s.nvStart_cal⟩
  · intro s hready hfw hok
    exact ⟨_, execFadcCommit_applies hready hfw hok, s.applyAll_instFlds (by decide) 64, (s.applyAll_onlyFields _).1⟩
  · intro s hready hfw hbad
    exact ⟨_, execFadcCommit_refuses hready hfw hbad, rfl⟩
  · intro s temp supply rail hready hhere hspace
    refine ⟨_, execMonitorReport_sends hready hhere, ?_, ?_⟩
    all_goals rw [State.toHost_space hspace]

end Sys2Proof.Machine

/-! SUPPORT. The housekeeping monitor (R299, R301, R303) and the setpoints that the host section sends (R294). -/

namespace Sys2Proof.Machine

-- One proof after the other: proofs elaborated side by side each take a stack of their own, and the text as a whole is
-- compiled close to its memory limit.
set_option Elab.async false

/-! ### Channels and their windows (R299) -/

section
variable {s t : State} {n ch x : Nat}

theorem roundHalfEven_one (x : Int) : roundHalfEven x 1 = x := by
  simp [roundHalfEven]

/-- What a channel's window comparator may set. -/
def hkWindowFlds : List Fld := F.HK_CH_DATA_OUT :: F.HK_WIN_STATUS_LEFT :: C.HK_CNT_WIN.cnt :: logFlds

theorem State.hkWindow_reads (s : State) (ch : Nat) : Reads hkWindowFlds s (s.hkWindow ch) := by
  unfold State.hkWindow
  extract_lets v lo hi hy out s1 armed s2 s3
  have hout : Reads hkWindowFlds s s1 := .fset _ _ _ (.refl s) (by simp [hkWindowFlds])
  have hleft : Reads hkWindowFlds s s3 :=
    .fset _ _ _ (.trans (t := s1) hout (.of_fields rfl)) (by simp [hkWindowFlds])
  have hlogged : Reads hkWindowFlds s ((s3.count C.HK_CNT_WIN 0).logRate 1000000 ch { code := 0x1101, engine := ch }) :=
    (hleft.count _ _ (by simp [hkWindowFlds])).trans
      ((State.logRate_reads _ _ _ _).mono fun g hg => by simp [hkWindowFlds, hg])
  split
  · split
    · exact hout.trans (.of_fields rfl)
    · exact hout
  · split
    · exact hlogged
    · exact hout

theorem State.hkWindow_fresh (s : State) (ch : Nat) : (s.hkWindow ch).hk.fresh = s.hk.fresh := by
  unfold State.hkWindow
  extract_lets v lo hi hy out s1 armed s2 s3
  have hlogged : ((s3.count C.HK_CNT_WIN 0).logRate 1000000 ch { code := 0x1101, engine := ch }).hk = s3.hk :=
    ((State.logRate_chg ..).hk.resolve_left (by decide)).trans ((State.count_chg ..).hk.resolve_left (by decide))
  split
  · split <;> rfl
  · split
    · rw [hlogged]
      rfl
    · rfl

/-- A channel shows a code: raw, in engineering units, and whether its result is valid. -/
def State.hkShown (s : State) (ch mean : Nat) : State :=
  ((s.fset F.HK_CH_DATA_RAW ch mean).fset F.HK_CH_DATA_VALUE ch (toBits 16 (Config.housekeepingScale ch mean))).fset
    F.HK_CH_DATA_VALID ch (ofBool (decide (ch < 100) || decide (126 < ch)))

/-- The samples of what a channel shows, taken into the means of the window in progress. -/
def State.hkSampled (s : State) (ch mean : Nat) : State := (s.sample ch (s.hkVal ch)).sample (256 + ch) mean

theorem State.hkResult_one (s : State) (ch x : Nat) :
    s.hkResult ch [x] = ((s.hkShown ch x).hkSampled ch x).hkWindow ch := by
  have hmean : (roundHalfEven ((([x] : List Nat).sum : Nat) : Int) [x].length).toNat = x := by
    rw [List.sum_singleton, List.length_singleton, roundHalfEven_one, Int.toNat_natCast]
  unfold State.hkResult
  rw [hmean]
  rfl

theorem State.hkShown_fields (s : State) (hch : ch < 100) (hx : x < 4096) :
    (s.hkShown ch x).fget F.HK_CH_DATA_RAW ch = x ∧
    (s.hkShown ch x).fget F.HK_CH_DATA_VALID ch = 1 ∧
    (s.hkShown ch x).fget F.HK_CH_DATA_VALUE ch = toBits 16 (Config.housekeepingScale ch x) := by
  unfold State.hkShown
  simp (disch := decide) only [State.fget_fset_of_code_ne, State.fget_fset_self, hch, decide_true, Bool.true_or]
  exact ⟨Nat.mod_eq_of_lt hx, rfl, Nat.mod_eq_of_lt (toBits_lt 16 _)⟩

theorem State.hkSampled_fget (s : State) (ch mean : Nat) (f : Fld) (i : Nat) :
    (s.hkSampled ch mean).fget f i = s.fget f i := rfl

/-- A single conversion of a channel below 100 is shown as it is, and is valid. -/
theorem State.hkResult_one_shows (s : State) (hch : ch < 100) (hx : x < 4096) :
    (s.hkResult ch [x]).fget F.HK_CH_DATA_RAW ch = x ∧
    (s.hkResult ch [x]).fget F.HK_CH_DATA_VALID ch = 1 ∧
    (s.hkResult ch [x]).fget F.HK_CH_DATA_VALUE ch = toBits 16 (Config.housekeepingScale ch x) := by
  obtain ⟨hraw, hvalid, hvalue⟩ := s.hkShown_fields hch hx
  have hwindow := ((s.hkShown ch x).hkSampled ch x).hkWindow_reads ch
  rw [State.hkResult_one]
  refine ⟨?_, ?_, ?_⟩
  · rw [hwindow _ _ (by decide), State.hkSampled_fget, hraw]
  · rw [hwindow _ _ (by decide), State.hkSampled_fget, hvalid]
  · rw [hwindow _ _ (by decide), State.hkSampled_fget, hvalue]

/-- What a channel's result does not set: the table of entries. -/
theorem State.hkResult_one_table (s : State) (ch x i : Nat) :
    (s.hkResult ch [x]).fget F.HK_ENT_DATA_WORD i = s.fget F.HK_ENT_DATA_WORD i := by
  have hshown : Reads [F.HK_CH_DATA_RAW, F.HK_CH_DATA_VALUE, F.HK_CH_DATA_VALID] s (s.hkShown ch x) := by
    refine .fset _ _ _ (.fset _ _ _ (.fset _ _ _ (.refl s) ?_) ?_) ?_
    all_goals simp
  rw [State.hkResult_one, State.hkWindow_reads _ _ _ _ (by decide), State.hkSampled_fget, hshown _ _ (by decide)]

theorem State.hkResult_one_fresh (s : State) (ch x : Nat) : (s.hkResult ch [x]).hk.fresh = s.hk.fresh := by
  rw [State.hkResult_one, State.hkWindow_fresh]
  rfl

/-! ### Entries and loops (R299, R300) -/

/-- The table of entries is the same. -/
def SameTable (s t : State) : Prop := ∀ i, t.fget F.HK_ENT_DATA_WORD i = s.fget F.HK_ENT_DATA_WORD i

theorem SameTable.hkBits (h : SameTable s t) : t.hkBits = s.hkBits := by
  funext n lo w
  rw [State.hkBits, State.hkBits, h]

theorem SameTable.hkFirst (h : SameTable s t) : t.hkFirst = s.hkFirst := by
  funext n
  rw [State.hkFirst, State.hkFirst, h.hkBits]

theorem SameTable.hkEnd (h : SameTable s t) : t.hkEnd = s.hkEnd := by
  funext n
  simp only [State.hkEnd, State.hkLast, h.hkBits]

theorem State.rollMeans_fresh (s : State) : s.rollMeans.hk.fresh = s.hk.fresh := by
  unfold State.rollMeans
  split <;> rfl

theorem State.hkPower_fresh (s : State) (mw : Nat) : (s.hkPower mw).hk.fresh = s.hk.fresh := by
  unfold State.hkPower
  extract_lets s1 cool power s2 power2 s3
  have hfrozen : ((s3.log { code := 0x0105 }).frozen).hk = s3.hk :=
    ((State.frozen_chg _).hk.resolve_left (by decide)).trans ((State.log_chg ..).hk.resolve_left (by decide))
  split
  · rw [hfrozen]
    rfl
  · rfl

/-- A result has come, with the module's power; the windows of the means move on. -/
def State.hkHeard (s : State) (mw : Nat) : State :=
  (({ s with hk := { s.hk with fresh := s.ns } } : State).rollMeans).hkPower mw

theorem State.hkHeard_fresh (s : State) (mw : Nat) : (s.hkHeard mw).hk.fresh = s.ns := by
  rw [State.hkHeard, State.hkPower_fresh, State.rollMeans_fresh]

theorem State.hkHeard_sameTable (s : State) (mw : Nat) : SameTable s (s.hkHeard mw) := fun i =>
  ((State.hkPower_chg _ mw).fget (by decide)).trans ((State.rollMeans_chg _).fget (by decide))

/-- Short of its loop's end, loop A goes on to the next entry. -/
theorem State.hkAdvance_next (h : s.hkEnd 0 ≠ n) :
    s.hkAdvance false n = { s with hk := { s.hk with loopA := n + 1 } } := by
  simp only [State.hkAdvance, h, Bool.false_eq_true, if_false]

theorem execHkEntryResult_converts {mw : Nat} (hpower : s.power.slotPower = true) (htrip : s.power.trip = false)
    (hloop : s.hk.loopA = n) (hcount : s.hkCount n = 1) (hrepeat : s.hkRepeat n = 1) (hx : x < 4096) (hch : ch < 128)
    (hfirst : (s.hkHeard mw).hkFirst n = ch) :
    exec (.hkEntryResult n [[x]] mw) s = .next (((s.hkHeard mw).hkResult ch [x]).hkAdvance false n) := by
  have hA : (s.hk.loopA == n) = true := beq_iff_eq.mpr hloop
  have hA' : (s.hk.loopA != n) = false := by simp [hloop]
  have hone : (([[x]] : List (List Nat)).length != s.hkCount n) = false := by simp [hcount]
  have hcodes : ([[x]] : List (List Nat)).any (fun r => r.length != s.hkRepeat n || r.any (fun x => decide (4096 ≤ x))) =
      false := by
    simp [hrepeat, hx]
  have hplace : ((s.hkHeard mw).hkFirst n + 0) % 128 = ch := by
    rw [hfirst, Nat.add_zero, Nat.mod_eq_of_lt hch]
  rw [← hplace]
  simp only [exec, execHkEntryResult, hpower, htrip, hA, hA', hone, hcodes, Bool.true_or, Bool.not_true, Bool.or_self,
    Bool.false_eq_true, if_false]
  rfl

/-- One conversion of one channel, short of the loop's end: the channel shows it, and the loop moves on. -/
theorem hkEntryResult_shows {mw : Nat} (hpower : s.power.slotPower = true) (htrip : s.power.trip = false)
    (hloop : s.hk.loopA = n) (hcount : s.hkCount n = 1) (hrepeat : s.hkRepeat n = 1) (hx : x < 4096)
    (hend : s.hkEnd 0 ≠ n) (hfirst : s.hkFirst n < 64) :
    Does (.hkEntryResult n [[x]] mw) s (fun t => t.fget F.HK_CH_DATA_RAW (s.hkFirst n) = x ∧
      t.fget F.HK_CH_DATA_VALID (s.hkFirst n) = 1 ∧
      t.fget F.HK_CH_DATA_VALUE (s.hkFirst n) = toBits 16 (Config.housekeepingScale (s.hkFirst n) x) ∧
      t.hk.loopA = n + 1 ∧ t.hk.fresh = s.ns) := by
  have htable := s.hkHeard_sameTable mw
  have hexec := execHkEntryResult_converts hpower htrip hloop hcount hrepeat hx (hfirst.trans (by decide))
    (congrFun htable.hkFirst n)
  have htable' : SameTable s ((s.hkHeard mw).hkResult (s.hkFirst n) [x]) := fun i =>
    (State.hkResult_one_table ..).trans (htable i)
  rw [State.hkAdvance_next (by rwa [htable'.hkEnd])] at hexec
  obtain ⟨hraw, hvalid, hvalue⟩ := (s.hkHeard mw).hkResult_one_shows (hfirst.trans (by decide)) hx
  exact ⟨_, hexec, hraw, hvalid, hvalue, rfl, (State.hkResult_one_fresh ..).trans (s.hkHeard_fresh mw)⟩

end

/-! ### Window bounds (R303) -/

section
variable {s : State} {ch : Nat}

/-- The bounds of a channel's window. -/
def hkBoundFlds : List Fld := [F.HK_WLO_BOUND, F.HK_WHI_BOUND, F.HK_HYST_HYST]

/-- Whether the staged bounds of a channel keep R290's rule. -/
def State.hkBoundOk (s : State) (ch : Nat) : Bool :=
  decide (sext 16 (s.staging F.HK_WLO_BOUND ch) ≤ sext 16 (s.staging F.HK_WHI_BOUND ch)) &&
    decide (2 * (s.staging F.HK_HYST_HYST ch : Int) ≤
      sext 16 (s.staging F.HK_WHI_BOUND ch) - sext 16 (s.staging F.HK_WLO_BOUND ch))

theorem execHkCommit_eq (s : State) : exec .hkCommit s = if !(List.range 128).all s.hkBoundOk
    then .next (s.flag F.HK_STATUS_CFG_INVALID 0) else .next (s.applyAll (instFlds hkBoundFlds 128)) := rfl

theorem execHkCommit_applies (hok : (List.range 128).all s.hkBoundOk = true) :
    exec .hkCommit s = .next (s.applyAll (instFlds hkBoundFlds 128)) := by
  rw [execHkCommit_eq, hok, Bool.not_true, if_neg Bool.false_ne_true]

/-- One channel with its bounds in the wrong order spoils the whole vector. -/
theorem execHkCommit_refuses (hch : ch < 128)
    (hbad : sext 16 (s.staging F.HK_WHI_BOUND ch) < sext 16 (s.staging F.HK_WLO_BOUND ch)) :
    exec .hkCommit s = .next (s.flag F.HK_STATUS_CFG_INVALID 0) := by
  have hwrong : s.hkBoundOk ch = false := by
    rw [State.hkBoundOk, decide_eq_false (Int.not_le.mpr hbad), Bool.false_and]
  have hall : (List.range 128).all s.hkBoundOk = false :=
    List.all_eq_false.mpr ⟨ch, List.mem_range.mpr hch, by simp [hwrong]⟩
  rw [execHkCommit_eq, hall, Bool.not_false, if_pos rfl]

end

/-! ### Setpoints and the field temperature (R294, R301) -/

section
variable {s : State} {mask : Nat}

/-- The codes of the setpoint registers that a mask selects, 0 for the others. -/
def State.aospMasked (s : State) (mask : Nat) : List Nat :=
  s.aospCodes.zipIdx.map (fun x => if mask.testBit x.2 then x.1 else 0)

/-- With no message waiting and none sent before, a SEND goes out at once. -/
theorem execHkAospSend_sends (hnone : s.hk.aosp = none) (hfirst : s.hk.aospLast = none) (hmask : mask < 16) :
    exec (.hkAospSend mask) s = .next (({ s with hk := { s.hk with aosp := none, aospLast := some s.ns } } : State).toField
      ([4, 1, mask, 0] ++ (s.aospMasked mask).flatMap (bytesOf 2))) := by
  simp only [exec, execHkAospSend, hnone, Nat.mod_eq_of_lt hmask, State.aospFlush, hfirst, Option.any_none, Bool.false_eq_true,
    if_false]
  rfl

/-- A record takes the number that was next, and the one after it is next. -/
theorem State.log_next (s : State) (e : Ev) :
    (s.log e).fget F.MGT_EVT_HEAD_NEXT 0 = (s.fget F.MGT_EVT_HEAD_NEXT 0 + 1) % 2 ^ 32 := by
  unfold State.log
  extract_lets q r s1 s2 s3 ps mgmt s4
  have hfields : (s4.notifyHost e.code).fget F.MGT_EVT_HEAD_NEXT 0 = s3.fget F.MGT_EVT_HEAD_NEXT 0 :=
    Reads.of_fields (l := []) (State.notifyHost_fields s4 e.code) _ _ rfl
  rw [hfields]
  exact State.fget_fset_self ..

theorem execFieldTempLost_flags (hpower : s.power.slotPower = true) (hnew : s.fget F.HK_STATUS_FIELD_TEMP_LOST 0 = 0)
    (hdue : s.hk.monitor.getD s.bootNs + 10000000 ≤ s.ns) :
    exec .fieldTempLost s = .next (((s.flag F.HK_STATUS_FIELD_TEMP_LOST 0).fset F.HK_CH_DATA_VALID 127 0).log
      { code := 0x1102, engine := 127 }) := by
  simp only [exec, execFieldTempLost, hpower, State.fon, hnew, Nat.not_lt.mpr hdue, bne_self_eq_false, decide_false,
    Bool.not_true, Bool.or_self, Bool.false_eq_true, if_false]

/-- The field temperature is lost: flagged, channel 127 not valid, and one record logged. -/
theorem fieldTempLost_marks (hpower : s.power.slotPower = true) (hnew : s.fget F.HK_STATUS_FIELD_TEMP_LOST 0 = 0)
    (hdue : s.hk.monitor.getD s.bootNs + 10000000 ≤ s.ns) :
    Does .fieldTempLost s (fun t => t.fget F.HK_STATUS_FIELD_TEMP_LOST 0 = 1 ∧ t.fget F.HK_CH_DATA_VALID 127 = 0 ∧
      t.fget F.MGT_EVT_HEAD_NEXT 0 = (s.fget F.MGT_EVT_HEAD_NEXT 0 + 1) % 2 ^ 32) := by
  refine ⟨_, execFieldTempLost_flags hpower hnew hdue, ?_, ?_, ?_⟩
  · rw [State.log_fget _ _ _ _ (by decide), State.fget_fset_of_code_ne _ (by decide)]
    exact State.fget_fset_self ..
  · rw [State.log_fget _ _ _ _ (by decide)]
    exact State.fget_fset_self ..
  · rw [State.log_next, State.fget_fset_of_code_ne _ (by decide), State.flag_fget _ _ _ _ _ (Or.inl (by decide))]

end

/-- Settles O40: an entry's result goes through `State.hkResult` into its channel, a commit applies the bounds of every
channel or none, a SEND goes out at once, and the loss of the field temperature is flagged and logged. -/
theorem theHousekeepingMonitor : Obligations.the_housekeeping_monitor := by
  unfold Obligations.the_housekeeping_monitor
  refine ⟨?_, ?_, ?_, ?_, ?_⟩
  · intro s n x mw hpower htrip hloop hcount hrepeat hx hend hfirst
    exact hkEntryResult_shows hpower htrip hloop hcount hrepeat hx hend hfirst
  · intro s hok
    exact ⟨_, execHkCommit_applies hok, s.applyAll_instFlds (by decide) 128, (s.applyAll_onlyFields _).1⟩
  · intro s ch hch hbad
    exact ⟨_, execHkCommit_refuses hch hbad, rfl⟩
  · intro s mask hnone hfirst hmask
    exact ⟨_, execHkAospSend_sends hnone hfirst hmask, rfl, rfl, rfl, rfl⟩
  · intro s hpower hnew hdue
    exact fieldTempLost_marks hpower hnew hdue

end Sys2Proof.Machine

/-! SUPPORT. A tick of the block's own clock (R401), and the frame of every command (R441, R442, R281, R397). -/

namespace Sys2Proof.Machine

-- One proof after the other: proofs elaborated side by side each take a stack of their own, and the text as a whole is
-- compiled close to its memory limit.
set_option Elab.async false

/-! ### A tick (R401) -/

/-- What a tick does once its nanosecond has passed changes neither the queue nor a clock. -/
theorem State.tick_rest_chg (s : State) : Chg 0x40800207c8c80f08 { s with ns := s.ns + 1 } s.tick := by
  unfold State.tick
  refine (State.fieldEventsDue_chg _).step rfl (Chg.ite ?_ ?_)
  · refine (State.aospFlush_chg _).step rfl ((State.canopyTick_chg _).step rfl (Chg.ite ?_ (Chg.refl _ _)))
    exact (State.headsDue_chg _).step rfl ((State.notifyDue_chg _).step rfl ((State.logDue_chg _).step rfl (Chg.refl _ _)))
  · refine Chg.ite ?_ (Chg.refl _ _)
    exact (State.headsDue_chg _).step rfl ((State.notifyDue_chg _).step rfl ((State.logDue_chg _).step rfl (Chg.refl _ _)))

/-- Settles O2: the step on an empty queue is `State.tick`, and all that follows its nanosecond lies in a frame without the
queue, the time and the time of the last power-up. -/
theorem stepOnAnEmptyQueueIsATick : Obligations.step_on_an_empty_queue_is_a_tick := by
  unfold Obligations.step_on_an_empty_queue_is_a_tick
  intro s hempty
  have hframe := s.tick_rest_chg
  have hns : s.tick.ns = s.ns + 1 := hframe.ns.resolve_left (by decide)
  have hboot : s.tick.bootNs = s.bootNs := hframe.bootNs.resolve_left (by decide)
  refine ⟨s.tick, ?_, hns, ?_, hboot, ?_⟩
  · rw [step, hempty]
  · exact (hframe.pending.resolve_left (by decide)).trans hempty
  · rw [State.us, hns, hboot]

/-! ### Every command's frame -/

/-- Settles O53: every command lies in the frame of its row (`exec_within`), so it changes the parts listed for it alone
(`exec_changesOnly`). -/
theorem everyCommandChangesOnlyItsParts : Obligations.every_command_changes_only_its_parts := by
  unfold Obligations.every_command_changes_only_its_parts
  intro c s t h
  exact exec_changesOnly h

end Sys2Proof.Machine

/-! SUPPORT. States in which a command of a failover, of a key rotation or of a firmware activation does not do what a
statement says of it (R55, R351, R378, R402, R403), and the refutations of those statements. -/

namespace Sys2Proof.Machine

-- One proof after the other: proofs elaborated side by side each take a stack of their own, and the text as a whole is
-- compiled close to its memory limit.
set_option Elab.async false

/-! ### A Lookout with an engine that is not calibrated (R55, R351) -/

/-- Core 1 failed, and Lookout 11 has loaded the weights and the code of the stage it served. -/
def loadedFailover : Failover := ⟨1, 11, 0, 0, 0, 0, true⟩

/-- Core 11 is a Lookout with engine 0 in service, whose CAL_VALID is 0; the Keep runs. -/
def uncalibratedLookout : State :=
  ((({ State.reset with
    models := [placelessModel]
    rel := { State.reset.rel with failovers := [loadedFailover] } } : State).setEngine 11 0
      { Engine.empty with inService := true }).fset F.REL_LOOKOUT_STATE0 0 2).fset F.REL_LOOKOUT_CORE0 0 11 |>.fset
      F.KEEP_STATUS_STATE 0 1

theorem exec_failoverJoin_uncalibratedLookout :
    Res.nextIs (exec (.failoverJoin 11) uncalibratedLookout) (fun t => t.rel.failovers.isEmpty) = false := by
  decide +kernel

/-- Refutes O45: FAILOVER_JOIN is claimed to complete every loaded failover whose seed does not wait, but an engine in
service without CAL_VALID keeps the Lookout from leaving the stopped state (R55), and the failover stays. -/
theorem not_failedCoresAreReplacedAndMastersRepaired :
    ¬ Obligations.failed_cores_are_replaced_and_masters_repaired := by
  unfold Obligations.failed_cores_are_replaced_and_masters_repaired
  rintro ⟨-, -, hjoin, -⟩
  have hgone := (hjoin uncalibratedLookout 11 0 loadedFailover placelessModel (by decide) (by decide) (by decide)
    (by decide)).nextIs (p := fun t => t.rel.failovers.isEmpty) fun t ⟨hrest, _⟩ => by rw [hrest]; rfl
  exact Bool.false_ne_true (exec_failoverJoin_uncalibratedLookout.symm.trans hgone)

/-! ### A read under the old key that is still held (R378) -/

/-- Context 0 rotates, and a memory read of it is held before the fabric. -/
def rotatingReader : State :=
  ({ State.reset with
    keep := { State.reset.keep with rot := [0] }
    fab := { State.reset.fab with held := [{ Packet.empty with typ := .memRead }] } } : State).fset F.KEEP_STATUS_STATE 0 1

theorem exec_rotationDone_rotatingReader :
    Res.nextIs (exec (.rotationDone 0) rotatingReader) (fun t => t.keep.rot.isEmpty) = false := by
  decide +kernel

/-- Refutes O47: ROTATION_DONE is claimed to end the rotation where no read of the context is in the fabric, but a read
that is held before the fabric still takes the old key (R378), and the rotation goes on. -/
theorem not_keysPagesInterfacesAndDecay : ¬ Obligations.keys_pages_interfaces_and_decay := by
  unfold Obligations.keys_pages_interfaces_and_decay
  rintro ⟨-, -, hrotation, -⟩
  have hgone := (hrotation rotatingReader 0 (by decide) (by decide) (by decide)).nextIs
    (p := fun t => t.keep.rot.isEmpty) fun t ⟨hrest, _⟩ => by rw [hrest]; rfl
  exact Bool.false_ne_true (exec_rotationDone_rotatingReader.symm.trans hgone)

/-! ### A management controller that goes back while its own image is staged (R402, R403) -/

/-- The management controller restarts from its trial slot since 0 ns. -/
def restartingMgt : Activation := ⟨2, false, false, 7, 0, none, false, 0, .restarting, 0, [], none, none⟩

/-- Session 7 stages an image of the management controller, whose restart has run out of time. -/
def stagingRestart : State :=
  { State.reset with
    ns := 2000000000
    mgmt := { State.reset.mgmt with
      act := some restartingMgt, staging := [(2, 7)], sessions := [⟨7, 0, 2, [], false, 0, none, 0, 0, 0, [], []⟩] } }

theorem exec_fwReadyTimeout_stagingRestart :
    Res.nextIs (exec .fwReadyTimeout stagingRestart) (fun t => t.fget F.MGT_FW_DATA_STATE 2 == 2) = false := by
  decide +kernel

/-- Refutes O50: FW_READY_TIMEOUT takes the management controller back to its previous slot with STATE 2, but going down
closes its sessions, and a session that was staging the same type gives its image up, which sets STATE to 0 (R402). -/
theorem not_firmwareIsStagedTriedAndKept : ¬ Obligations.firmware_is_staged_tried_and_kept := by
  unfold Obligations.firmware_is_staged_tried_and_kept
  rintro ⟨-, -, -, -, -, hlate, -⟩
  have hstate := (hlate stagingRestart restartingMgt (by decide) (by decide) (by decide) (by decide) (by decide)).nextIs
    (p := fun t => t.fget F.MGT_FW_DATA_STATE 2 == 2) fun t ⟨_, htwo⟩ => by rw [htwo]; rfl
  exact Bool.false_ne_true (exec_fwReadyTimeout_stagingRestart.symm.trans hstate)

end Sys2Proof.Machine

/-! SUPPORT. Management sessions (R359, R389 to R401): what finds a session, what a record of the log leaves of the
management state, and what each command does to the session that sends it. -/

namespace Sys2Proof.Machine

-- One proof after the other: proofs elaborated side by side each take a stack of their own, and the text as a whole is
-- compiled close to its memory limit.
set_option Elab.async false

/-! ### Finding a session, and changing it -/

section
variable {s t : State} {id : Nat} {e : Session} {f : Session → Session}

theorem State.session_id (h : s.session id = some e) : e.id = id := by
  rw [State.session] at h
  have hid := List.find?_some h
  exact beq_iff_eq.mp hid

theorem State.session_congr (h : t.mgmt = s.mgmt) (id : Nat) : t.session id = s.session id := by
  rw [State.session, State.session, h]

/-- A changed session is found as it was changed. -/
theorem State.session_updSession (hf : ∀ x, (f x).id = x.id) (h : s.session id = some e) :
    (s.updSession id f).session id = some (f e) := by
  have hsame : (fun x : Session => x.id == id) ∘ (fun x => if x.id = id then f x else x) = fun x => x.id == id := by
    funext x
    simp only [Function.comp]
    split
    · rw [hf]
    · rfl
  have hid := State.session_id h
  rw [State.session] at h
  show (s.mgmt.sessions.map _).find? _ = _
  rw [List.find?_map, hsame, h, Option.map_some, if_pos hid]

theorem State.updSession_sameSessions (hf : ∀ x, (f x).id = x.id) : SameSessions s (s.updSession id f) := by
  simp only [SameSessions, State.updSession, List.map_map]
  refine List.map_congr_left fun x _ => ?_
  simp only [Function.comp]
  split
  · exact hf x
  · rfl

theorem State.hasSession_of_session (h : s.session id = some e) : s.hasSession id := by
  rw [State.hasSession, ← State.session_id h]
  exact List.mem_map_of_mem (List.mem_of_find?_eq_some h)

/-- The session whose message is heard, with its idle time started again (R392). -/
theorem heardAt_session {m : MgtMsg} (h : s.session m.session = some e) :
    (heardAt s m).session m.session = some { e with lastMsg := s.ns } :=
  State.session_updSession (f := fun x => { x with lastMsg := s.ns }) (fun _ => rfl) h

/-- Writing one field after the other reaches the fields alone. -/
theorem State.foldl_fset_only {α : Type} (g : α → Fld) (i v : α → Nat) (l : List α) (s : State) :
    l.foldl (fun s x => s.fset (g x) (i x) (v x)) s =
      { s with fields := (l.foldl (fun s x => s.fset (g x) (i x) (v x)) s).fields } := by
  induction l generalizing s with
  | nil => rfl
  | cons x l ih => exact ih (s.fset (g x) (i x) (v x))

/-- Closing a session reaches the fields and the management state. -/
theorem State.closeSession_only (s : State) (id : Nat) :
    s.closeSession id = { s with fields := (s.closeSession id).fields, mgmt := (s.closeSession id).mgmt } := by
  unfold State.closeSession
  extract_lets waits gone s1
  obtain ⟨fs, hs1⟩ : ∃ fs, s1 = { s with fields := fs } :=
    ⟨_, State.foldl_fset_only (fun _ => F.MGT_FW_DATA_STATE) (fun p => p.1) (fun _ => 0) gone s⟩
  rw [hs1]

theorem State.closeSession_mgmt (s : State) (id : Nat) : (s.closeSession id).mgmt =
    { s.mgmt with
      sessions := s.mgmt.sessions.filter (fun x => x.id != id), staging := (s.closeSession id).mgmt.staging } := by
  have hkeep (l : List (Nat × Nat)) :
      (l.foldl (fun s (p : Nat × Nat) => s.fset F.MGT_FW_DATA_STATE p.1 0) s).mgmt = s.mgmt := by
    rw [State.foldl_fset_only (fun _ => F.MGT_FW_DATA_STATE) (fun p : Nat × Nat => p.1) (fun _ => 0)]
  simp only [State.closeSession, hkeep]

theorem State.closeSession_fget (s : State) (id : Nat) {g : Fld} (i : Nat) (h : g.code ≠ F.MGT_FW_DATA_STATE.code) :
    (s.closeSession id).fget g i = s.fget g i :=
  State.foldl_keeps (g := fun u : State => u.fget g i) (fun u p => u.fget_fset_of_code_ne h) _ s

theorem State.closeSession_session (s : State) (id : Nat) : (s.closeSession id).session id = none := by
  rw [State.session, s.closeSession_mgmt]
  simp

end

/-! ### What a record of the log leaves of the management state -/

section
variable {s : State} {e : Ev}

/-- A record of the log pushes itself to the sessions and asks for a notification of the host. -/
theorem State.log_mgmt (s : State) (e : Ev) :
    ∃ (u : State) (r : EventRec), (s.log e).mgmt =
      { s.mgmt with sessions := s.mgmt.sessions.map (fun x => (u.pushTo r x).2), notify := (s.log e).mgmt.notify } := by
  unfold State.log
  extract_lets q r s1 s2 s3 ps mgmt s4
  have h1 : s1.mgmt = s.mgmt := by
    unfold s1
    split
    · exact (State.count_chg ..).mgmt.resolve_left (by decide)
    · rfl
  have h4 : s4.mgmt = { s.mgmt with sessions := s.mgmt.sessions.map (fun x => (s3.pushTo r x).2) } := by
    have hps : ps.map Prod.snd = s1.mgmt.sessions.map (fun x => (s3.pushTo r x).2) := List.map_map
    rw [← h1, ← hps]
    rfl
  refine ⟨s3, r, ?_⟩
  unfold State.notifyHost
  split
  · rw [h4]
  · rw [h4]

/-- What a record leaves of each session: all but its subscription. -/
theorem State.log_sessions {α : Type} (s : State) (e : Ev) {φ : Session → α} (hφ : ∀ x u, φ { x with sub := u } = φ x) :
    (s.log e).mgmt.sessions.map φ = s.mgmt.sessions.map φ := by
  obtain ⟨u, r, hlog⟩ := s.log_mgmt e
  rw [hlog, List.map_map]
  refine List.map_congr_left fun x _ => ?_
  show φ (u.pushTo r x).2 = φ x
  unfold State.pushTo
  split
  · rfl
  · split
    · exact hφ x _
    · rfl

end

/-! ### Handshakes and claims (R389, R391) -/

section
variable {s : State} {chain : List Nat} {m : MgtMsg} {e : Session}

theorem State.linkSeen_reads (s : State) : Reads [F.MGT_STATUS_LINK] s s.linkSeen := by
  unfold State.linkSeen
  exact .ite (.refl s) ((Reads.refl s).fset _ _ _ (List.mem_singleton.mpr rfl))

theorem State.linkSeen_mgmt (s : State) : s.linkSeen.mgmt = s.mgmt :=
  s.linkSeen_chg.mgmt.resolve_left (by decide)

/-- After a first handshake the link has a rate. -/
theorem State.linkSeen_link (s : State) : s.linkSeen.fget F.MGT_STATUS_LINK 0 ≠ 0 := by
  unfold State.linkSeen
  split
  · next h => exact bne_iff_ne.mp h
  · have hlink : ((s.fset F.MGT_STATUS_LINK 0 (1 + Config.unstated s.free % 2)).draw 1).fget F.MGT_STATUS_LINK 0 =
        (1 + Config.unstated s.free % 2) % 2 ^ F.MGT_STATUS_LINK.width := State.fget_fset_self ..
    have hwidth : 2 ^ F.MGT_STATUS_LINK.width = 4 := rfl
    rw [hlink, hwidth]
    omega

theorem State.authFail_link (s : State) : s.authFail.fget F.MGT_STATUS_LINK 0 = s.fget F.MGT_STATUS_LINK 0 := by
  rw [State.authFail, State.logRate_fget _ _ _ _ _ _ (by decide), State.count_fget _ _ _ _ _ (.inl (by decide))]

theorem State.authFail_sessions {α : Type} (s : State) {φ : Session → α} (hφ : ∀ x u, φ { x with sub := u } = φ x) :
    s.authFail.mgmt.sessions.map φ = s.mgmt.sessions.map φ := by
  have hcount : (s.count C.MGT_CNT_AUTHFAIL 0).mgmt = s.mgmt := (State.count_chg ..).mgmt.resolve_left (by decide)
  rw [State.authFail, State.logRate, ← hcount]
  extract_lets k held
  split
  · split
    · rfl
    · exact State.log_sessions _ _ hφ
  · exact State.log_sessions _ _ hφ

theorem State.openSession_sessions {α : Type} (s : State) (chain : List Nat) (anchor role : Nat) (claiming : Bool)
    {φ : Session → α} (hφ : ∀ x u, φ { x with sub := u } = φ x) :
    (s.openSession chain anchor role claiming).mgmt.sessions.map φ = s.mgmt.sessions.map φ ++
      [φ ⟨s.mgmt.nextId, anchor, role, Config.chainKey chain, claiming, s.ns, none, 0, 0, 0, [], []⟩] := by
  unfold State.openSession
  extract_lets id e _ s1
  have hcount : (s1.count C.MGT_CNT_SESSION 0).mgmt = s1.mgmt := (State.count_chg ..).mgmt.resolve_left (by decide)
  rw [State.log_sessions _ _ hφ, hcount, List.map_append]
  rfl

theorem State.openSession_link (s : State) (chain : List Nat) (anchor role : Nat) (claiming : Bool) :
    (s.openSession chain anchor role claiming).fget F.MGT_STATUS_LINK 0 = s.fget F.MGT_STATUS_LINK 0 := by
  unfold State.openSession
  extract_lets id e _ s1
  rw [State.log_fget _ _ _ _ (by decide), State.count_fget _ _ _ _ _ (.inl (by decide))]
  rfl

theorem execSessionHandshake_fails (hup : s.mgtUp = true) (hroom : s.mgmt.sessions.length < 4) :
    exec (.sessionHandshake chain false) s = .next s.linkSeen.authFail := by
  have hfull : ¬ 4 ≤ s.mgmt.sessions.length := by omega
  simp [exec, execSessionHandshake, hup, hfull]

/-- On a claimed module a handshake opens a session for the anchor of its chain, or fails. -/
theorem execSessionHandshake_claimed (hup : s.mgtUp = true) (hroom : s.mgmt.sessions.length < 4)
    (hclaimed : s.fget F.MGT_STATUS_CLAIMED 0 = 1) :
    exec (.sessionHandshake chain true) s = .next ((s.anchorFor chain).elim s.linkSeen.authFail
      fun x => s.linkSeen.openSession chain x.1 x.2.role false) := by
  have hfull : ¬ 4 ≤ s.mgmt.sessions.length := by omega
  have hon : s.linkSeen.fon F.MGT_STATUS_CLAIMED 0 = true := by
    rw [State.fon, s.linkSeen_reads _ _ (by decide), hclaimed]
    rfl
  have hanchor : s.linkSeen.anchorFor chain = s.anchorFor chain := by
    rw [State.anchorFor, State.anchorFor, s.linkSeen_mgmt]
  simp only [exec, execSessionHandshake, hup, hfull, hon, hanchor, Bool.not_true, Bool.false_or, decide_false,
    Bool.false_eq_true, if_false, if_true]
  cases s.anchorFor chain <;> rfl

/-- A session that has claimed the module: it has the first anchor and its role. -/
def Session.owning (e : Session) : Session := { e with claiming := false, anchor := 0, role := 2 }

/-- The state once a claim with the claim code has installed its sender's anchor (R391). -/
def State.anchored (s : State) (e : Session) : State :=
  (({ s with
    mgmt := { s.mgmt with failedClaims := [], anchors := Tab.set s.mgmt.anchors 0 ⟨2, e.key⟩ } } : State).fset
      F.MGT_STATUS_CLAIMED 0 1).updSession e.id Session.owning

/-- That state with the record of the claim. -/
def State.claimed (s : State) (e : Session) : State := (s.anchored e).log { code := 0x1603, engine := 0 }

theorem State.claimed_flag (s : State) (e : Session) : (s.claimed e).fget F.MGT_STATUS_CLAIMED 0 = 1 := by
  rw [State.claimed, State.log_fget _ _ _ _ (by decide)]
  exact State.fget_fset_self { s with
    mgmt := { s.mgmt with failedClaims := [], anchors := Tab.set s.mgmt.anchors 0 ⟨2, e.key⟩ } } F.MGT_STATUS_CLAIMED 0 1

theorem State.claimed_anchors (s : State) (e : Session) : Tab.find (s.claimed e).mgmt.anchors 0 = some ⟨2, e.key⟩ := by
  obtain ⟨u, r, hlog⟩ := (s.anchored e).log_mgmt { code := 0x1603, engine := 0 }
  rw [State.claimed, hlog]
  exact Tab.find_set_self ..

theorem State.claimed_sameSessions (s : State) (e : Session) : SameSessions s (s.claimed e) := by
  have hsame : SameSessions s (s.anchored e) :=
    SameSessions.trans (.refl s) (State.updSession_sameSessions (s := (({ s with
      mgmt := { s.mgmt with failedClaims := [], anchors := Tab.set s.mgmt.anchors 0 ⟨2, e.key⟩ } } : State).fset
        F.MGT_STATUS_CLAIMED 0 1)) (id := e.id) (f := Session.owning) fun _ => rfl)
  exact hsame.trans (State.log_sameSessions _ _)

/-- A claiming session's CLAIM runs as a message that is heard. -/
theorem State.mgtRun_claiming {f : State → Session → State} (hup : s.mgtUp = true)
    (hsession : s.session m.session = some e) (hclaiming : e.claiming = true) (hbad : m.bad = false) :
    s.mgtRun m 0x0002 0 f = .next (f (heardAt s m) e) := by
  simp [State.mgtRun, hup, hsession, hclaiming, hbad, State.session_id hsession, heardAt]

/-- What a claiming session's CLAIM does where no claim has failed before. -/
theorem execClaimModule_claims (hup : s.mgtUp = true) (hsession : s.session m.session = some e)
    (hclaiming : e.claiming = true) (hbad : m.bad = false) (hunclaimed : s.fget F.MGT_STATUS_CLAIMED 0 = 0)
    (hnone : s.mgmt.failedClaims = []) :
    exec (.claimModule m) s = .next
      (if shake256 (m.payload.map (fun b => b % 256)) = claimDigest
        then ((heardAt s m).claimed e).answer m.session 0x0002 m.tag 0 []
        else (heardAt s m).claimFail m.session true) := by
  have hid := State.session_id hsession
  have hon : (heardAt s m).fon F.MGT_STATUS_CLAIMED 0 = false := by
    rw [State.fon, show (heardAt s m).fget F.MGT_STATUS_CLAIMED 0 = 0 from hunclaimed]
    rfl
  have hrecent : (heardAt s m).mgmt.failedClaims = [] := hnone
  rw [exec, execClaimModule, State.mgtRun_claiming hup hsession hclaiming hbad]
  simp only [hon, hclaiming, hrecent, List.filter_nil, List.length_nil, hid]
  by_cases hcode : shake256 (m.payload.map (fun b => b % 256)) = claimDigest
  · simp only [hcode, bne_self_eq_false, if_true, Bool.not_true, Bool.or_self, Bool.false_eq_true, if_false, Nat.reduceLeDiff]
    rw [State.claimed, State.anchored, hid]
    rfl
  · have hne : (shake256 (m.payload.map (fun b => b % 256)) != claimDigest) = true := bne_iff_ne.mpr hcode
    simp only [hcode, hne, if_true, Bool.not_true, Bool.or_self, Bool.false_eq_true, if_false, Nat.reduceLeDiff]
    rw [← hrecent]

end

/-! ### What each message does (R359, R394, R398, R400, R401) -/

section
variable {s : State} {m : MgtMsg} {e : Session}

theorem execSessionIdleTimeout_closes {id : Nat} (hsession : s.session id = some e)
    (hidle : e.lastMsg + 300000000000 ≤ s.ns) : exec (.sessionIdleTimeout id) s = .next (s.closeSession id) := by
  have hlate : ¬ s.ns < e.lastMsg + 300000000000 := by omega
  simp only [exec, execSessionIdleTimeout, hsession, if_neg hlate]

theorem execHello_answers (h : Heard m 0 e s) :
    exec (.hello m) s = .next ((heardAt s m).answer m.session 0x0001 m.tag 0 s.helloBytes) := by
  have hid := heard_session_id h
  rw [exec, execHello, State.mgtRun_heard h (Nat.zero_le _), hid]
  rfl

/-- A session that is no longer claiming may not claim. -/
theorem execClaimModule_refuses (h : Heard m 0 e s) :
    exec (.claimModule m) s = .next ((heardAt s m).answer m.session 0x0002 m.tag 4 []) := by
  have hid := heard_session_id h
  obtain ⟨-, -, hclaiming, -⟩ := id h
  rw [exec, execClaimModule, State.mgtRun_heard h (Nat.zero_le _), if_pos (by simp [hclaiming]), hid]

theorem execSubscribe_runs (h : Heard m 0 e s) (hlen : m.payload.length = 8) :
    exec (.subscribe m) s = .next (((heardAt s m).answer m.session 0x0003 m.tag 0 []).subscribe m.session
      (leAt m.payload 0 4) (leAt m.payload 4 4)) := by
  have hid := heard_session_id h
  rw [exec, execSubscribe, State.mgtRun_heard h (Nat.zero_le _), if_neg (by simp [hlen]), hid]

theorem execEventAck_runs (h : Heard m 1 e s) (hlen : m.payload.length = 4) :
    exec (.eventAck m) s = .next (({ heardAt s m with mgmt := { (heardAt s m).mgmt with
      acked := Nat.max s.mgmt.acked (Nat.min (s.fget F.MGT_EVT_HEAD_NEXT 0) (leAt m.payload 0 4 + 1)) } } : State).answer
        m.session 0x0005 m.tag 0 []) := by
  have hid := heard_session_id h
  rw [exec, execEventAck, State.mgtRun_heard h (Nat.le_refl _), if_neg (by simp [hlen]), hid]
  rfl

theorem execFaultAck_runs (h : Heard m 1 e s) (hlen : m.payload.length = 4) :
    exec (.faultAck m) s = .next (({ heardAt s m with mgmt := { (heardAt s m).mgmt with
      faultAcked := Nat.max s.mgmt.faultAcked (Nat.min (s.fget F.REL_FR_HEAD_NEXT 0) (leAt m.payload 0 4 + 1)) } } : State).answer
        m.session 0x0007 m.tag 0 []) := by
  have hid := heard_session_id h
  rw [exec, execFaultAck, State.mgtRun_heard h (Nat.le_refl _), if_neg (by simp [hlen]), hid]
  rfl

theorem execTelemetryCfg_runs (h : Heard m 0 e s) (hlen : m.payload.length = 4)
    (hp : leAt m.payload 0 4 = 0 ∨ 10 ≤ leAt m.payload 0 4 ∧ leAt m.payload 0 4 ≤ 10000) :
    exec (.telemetryCfg m) s = .next (((heardAt s m).updSession m.session
      (fun x => { x with period := leAt m.payload 0 4, teleAt := s.us + 1 })).answer m.session 0x0008 m.tag 0 []) := by
  have hid := heard_session_id h
  rw [exec, execTelemetryCfg, State.mgtRun_heard h (Nat.zero_le _)]
  dsimp only
  rw [if_neg (by simpa [hlen] using or_iff_not_imp_left.mp hp), hid]
  rfl

theorem execTimeSet_runs (h : Heard m 1 e s) (hlen : m.payload.length = 8) :
    exec (.timeSet m) s = .next (({ (heardAt s m).fset F.MGT_TIME_OFS_SECONDS 0 ((leAt m.payload 0 8 - s.us) / 1000000) with
      mgmt := { (heardAt s m).mgmt with timeSet := true } } : State).answer m.session 0x0052 m.tag 0 []) := by
  have hid := heard_session_id h
  rw [exec, execTimeSet, State.mgtRun_heard h (Nat.le_refl _), if_neg (by simp [hlen]), hid]
  rfl

theorem execTelemetryTimer_due {id : Nat} (hup : s.mgtUp = true) (hsession : s.session id = some e)
    (hdue : s.teleDue e = true) : exec (.telemetryTimer id) s = .next (s.rollMeans.telemetry e) := by
  simp only [exec, execTelemetryTimer, hup, hsession, hdue, if_true]

/-- A telemetry record notes its time. -/
theorem State.telemetry_session {x : Session} {id : Nat} (hid : x.id = id) (hsession : s.session id = some e) :
    ((s.telemetry x).session id).map (fun y => y.teleAt) = some (s.us + 1) := by
  subst hid
  unfold State.telemetry
  extract_lets items lates t
  have hset : ∀ y : Session, ({ y with teleAt := t, teleItem := items, teleLate := lates } : Session).id = y.id := fun _ => rfl
  rw [State.session_updSession (s := s.emit _) hset hsession]
  rfl

/-- A subscription to what follows notes the head of the log, and the head of the fault records (R359, R398). -/
theorem State.subscribe_now (hsession : s.session m.session = some e) (mask : Nat) :
    (s.subscribe m.session 0xFFFFFFFF mask).session m.session =
      some { e with faultNext := s.fget F.REL_FR_HEAD_NEXT 0, sub := some (s.fget F.MGT_EVT_HEAD_NEXT 0, mask) } := by
  have hfaults : (s.catchFaults m.session).session m.session = some { e with faultNext := s.fget F.REL_FR_HEAD_NEXT 0 } := by
    exact State.session_updSession (f := fun x => { x with faultNext := s.fget F.REL_FR_HEAD_NEXT 0 }) (fun _ => rfl) hsession
  rw [State.subscribe, if_pos rfl]
  exact State.session_updSession (f := fun x => { x with sub := some (s.fget F.MGT_EVT_HEAD_NEXT 0, mask) })
    (fun _ => rfl) hfaults

end

/-- Settles O48, command by command: a message that is heard runs on `heardAt` (`State.mgtRun_heard`), and its answer is
the last thing sent, as its session is open. -/
theorem sessionsOpenAcknowledgeAndClose : Obligations.sessions_open_acknowledge_and_close := by
  unfold Obligations.sessions_open_acknowledge_and_close
  refine ⟨?_, ?_, ?_, ?_, ?_, ?_, ?_, ?_, ?_, ?_, ?_, ?_⟩
  · intro s chain hup hroom
    refine ⟨_, execSessionHandshake_fails hup hroom, ?_, ?_⟩
    · exact Counted.of_reads s.linkSeen_reads (State.logRate_reads _ _ _ _) (by decide) (by decide)
    · rw [State.authFail_sessions _ fun _ _ => rfl, State.linkSeen_mgmt]
  · intro s chain hup hroom hclaimed
    refine ⟨_, execSessionHandshake_claimed hup hroom hclaimed, ?_⟩
    cases s.anchorFor chain with
    | none =>
      simp only [Option.elim, List.append_nil]
      exact ⟨by rw [State.authFail_sessions _ fun _ _ => rfl, State.linkSeen_mgmt],
        by rw [State.authFail_link]; exact s.linkSeen_link⟩
    | some x =>
      simp only [Option.elim]
      exact ⟨by rw [State.openSession_sessions _ _ _ _ _ fun _ _ => rfl, State.linkSeen_mgmt],
        by rw [State.openSession_link]; exact s.linkSeen_link⟩
  · intro s id e hsession hidle
    exact ⟨_, execSessionIdleTimeout_closes hsession hidle, by rw [State.closeSession_mgmt], s.closeSession_only id⟩
  · intro s m e h
    refine ⟨_, execHello_answers h, State.answer_replied (heard_hasSession h), ?_⟩
    rw [State.answer_ok, State.replyTo_out]
    rfl
  · intro s m e hup hsession hclaiming hbad hunclaimed hnone
    refine ⟨_, execClaimModule_claims hup hsession hclaiming hbad hunclaimed hnone, fun hcode => ?_, fun hcode => ?_⟩
    · rw [if_pos hcode]
      have hopen : ((heardAt s m).claimed e).hasSession m.session :=
        (State.claimed_sameSessions _ e).hasSession (State.hasSession_of_session (heardAt_session hsession))
      exact ⟨by rw [State.answer_fget _ (by decide), State.claimed_flag],
        by rw [State.answer_mgmt, State.claimed_anchors], State.answer_replied hopen⟩
    · rw [if_neg hcode, State.claimFail, if_pos rfl]
      refine ⟨?_, State.closeSession_session .., ?_⟩
      · rw [State.closeSession_fget _ _ _ (by decide)]
        exact hunclaimed
      · rw [State.closeSession_mgmt]
        show s.mgmt.failedClaims ++ [s.ns] = [s.ns]
        rw [hnone]
        rfl
  · intro s m e h
    exact ⟨_, execClaimModule_refuses h, State.answer_replied (heard_hasSession h), by rw [State.answer_mgmt]; rfl⟩
  · intro s m e h hlen hseq
    have hsession : ((heardAt s m).answer m.session 0x0003 m.tag 0 []).session m.session = some { e with lastMsg := s.ns } :=
      (State.session_congr (State.answer_mgmt ..) _).trans (heardAt_session h.2.1)
    refine ⟨_, execSubscribe_runs h hlen, ?_⟩
    beta_reduce
    rw [hseq, State.subscribe_now hsession, State.answer_fget _ (by decide), State.answer_fget _ (by decide)]
    rfl
  · intro s m e h hlen
    refine ⟨_, execEventAck_runs h hlen, ?_, State.answer_replied (heard_hasSession h)⟩
    rw [State.answer_mgmt]
  · intro s m e h hlen
    refine ⟨_, execFaultAck_runs h hlen, ?_, State.answer_replied (heard_hasSession h)⟩
    rw [State.answer_mgmt]
  · rintro s m e p h hlen rfl hp
    have hset : ∀ x : Session, ({ x with period := leAt m.payload 0 4, teleAt := s.us + 1 } : Session).id = x.id := fun _ => rfl
    refine ⟨_, execTelemetryCfg_runs h hlen hp, ?_, State.answer_replied ?_⟩
    · rw [State.session_congr (State.answer_mgmt ..), State.session_updSession hset (heardAt_session h.2.1)]
      rfl
    · exact (State.updSession_sameSessions hset).hasSession (heard_hasSession h)
  · intro s id e hup hsession hdue
    have hframe := s.rollMeans_chg
    have hmgmt : s.rollMeans.mgmt = s.mgmt := hframe.mgmt.resolve_left (by decide)
    refine ⟨_, execTelemetryTimer_due hup hsession hdue, ?_, ?_⟩
    · rw [State.telemetry_session (State.session_id hsession) ((State.session_congr hmgmt id).trans hsession), State.us, State.us,
        hframe.ns.resolve_left (by decide), hframe.bootNs.resolve_left (by decide)]
    · exact (List.length_append ..).trans (by rw [hframe.out.resolve_left (by decide)]; rfl)
  · intro s m e h hlen
    refine ⟨_, execTimeSet_runs h hlen, ?_, ?_, State.answer_replied (heard_hasSession h)⟩
    · rw [State.answer_fget _ (by decide)]
      exact State.fget_fset_self ..
    · rw [State.answer_mgmt]

end Sys2Proof.Machine

/-! SUPPORT. A repeated ADD whose origin is another device, and the refutation of the statement that takes the tags of its
origin from another place than the counter unit does (R325). -/

namespace Sys2Proof.Machine

-- One proof after the other: proofs elaborated side by side each take a stack of their own, and the text as a whole is
-- compiled close to its memory limit.
set_option Elab.async false

/-- A retransmitted ADD of 1 from node 0 of peer device 1. -/
def repeatedAdd : Packet := { Packet.empty with typ := .signal, remote := true, dev := 1, retx := true, payload := [1, 0, 0, 0, 1] }

/-- The packet has arrived, and its tag stands under the number 64, where no operation of device 1 notes its tags. -/
def repeatedAddArrived : State :=
  { State.reset with
    fab := { State.reset.fab with net := [repeatedAdd], nextKey := 1 }
    sync := { State.reset.sync with seen := [(64, [0])] } }

theorem exec_add_repeatedAddArrived :
    Res.nextIs (exec (.add ⟨0, .none⟩) repeatedAddArrived) (fun t => t.fget C.SYNC_CNT_DUP.cnt 0 == 1) = false := by
  decide +kernel

/-- Refutes O43: a retransmitted ADD is a duplicate where its tag stands under the number of its origin, which is 256 times
the device plus the node (R325). Under 64 times the device plus the node, where the statement looks, the tags of device 1
do not stand, and the ADD is not counted in SYNC_CNT_DUP. -/
theorem not_canopyBindingsAndSyncCounters : ¬ Obligations.canopy_bindings_and_sync_counters := by
  unfold Obligations.canopy_bindings_and_sync_counters
  rintro ⟨-, -, -, -, -, -, hrepeated, -⟩
  have hcounted := (hrepeated repeatedAddArrived 0 repeatedAdd ⟨1, 0, 0, 1, 0, 0, 0, 0⟩ (by decide) (by decide) (by decide)
    (by decide) (by decide) (by decide) (by decide) (by decide) (by decide)).nextIs
    (p := fun t => t.fget C.SYNC_CNT_DUP.cnt 0 == 1) fun t ⟨hcount, _⟩ => by rw [hcount]; rfl
  exact Bool.false_ne_true (exec_add_repeatedAddArrived.symm.trans hcounted)

end Sys2Proof.Machine

/-! SUPPORT. An ADD that carries its counter beyond the end (R325, R326). -/

namespace Sys2Proof.Machine

-- One proof after the other: proofs elaborated side by side each take a stack of their own, and the text as a whole is
-- compiled close to its memory limit.
set_option Elab.async false

/-! ### Records that come at most once in a while -/

section
variable {s : State} {limit i : Nat} {e : Ev}

/-- The record that an event leaves names its code and its argument. -/
theorem State.log_event_argA (s : State) (e : Ev) :
    (Tab.find (s.log e).events (s.fget F.MGT_EVT_HEAD_NEXT 0 % 262144)).map (fun r => (r.code, r.argA)) =
      some (e.code, e.argA % 65536) := by
  unfold State.log
  extract_lets q r s1 s2 s3 ps mgmt s4
  have hevents : (s4.notifyHost e.code).events = Tab.set s1.events (q % 262144) r :=
    (s4.notifyHost_chg e.code).events.resolve_left (by decide)
  rw [hevents, Tab.find_set_self]
  rfl

/-- Where the last record of its kind is long past, or there was none, an event is logged. -/
theorem State.logRate_event_due
    (h : (Tab.find s.lastLog (Nat.pair e.code i)).all (fun x => decide (x + limit ≤ s.ns)) = true) :
    (Tab.find (s.logRate limit i e).events (s.fget F.MGT_EVT_HEAD_NEXT 0 % 262144)).map (fun r => (r.code, r.argA)) =
      some (e.code, e.argA % 65536) := by
  unfold State.logRate
  extract_lets k held
  split
  · next t ht =>
    have hlate : ¬ s.ns < t + limit := by
      rw [ht] at h
      simpa using h
    rw [if_neg hlate]
    exact s.log_event_argA _
  · exact s.log_event_argA e

/-- Soon after a record of its kind an event is held back. -/
theorem State.logRate_events_held
    (h : (Tab.find s.lastLog (Nat.pair e.code i)).any (fun x => decide (s.ns < x + limit)) = true) :
    (s.logRate limit i e).events = s.events := by
  unfold State.logRate
  extract_lets k held
  split
  · next t ht =>
    have hsoon : s.ns < t + limit := by
      rw [ht] at h
      simpa using h
    rw [if_pos hsoon]
  · next hnone =>
    rw [hnone] at h
    simp at h

end

/-! ### The counter at its end -/

section
variable {s : State} {i n dev node ctx k : Nat} {p : Packet}

/-- A counter at its end, flagged. -/
def State.ctrFlagged (s : State) (i : Nat) : State :=
  ((s.fset F.SYNC_VALUE_VALUE i 0xFFFFFFFF).flag F.SYNC_WAIT_OVF i).flag F.SYNC_STATUS_OVF_SEEN 0

/-- A counter held at its end: flagged and counted, before the event. -/
def State.ctrHeld (s : State) (i : Nat) : State := (s.ctrFlagged i).count C.SYNC_CNT_OVERFLOW 0

/-- The event of a counter held at its end, at most one per millisecond. -/
def State.ctrHeldLogged (s : State) (i dev node : Nat) : State :=
  s.logRate 1000000 i { code := 0x1301, context := s.fget F.SYNC_OWNER_CONTEXT i, argA := i, argB := originWord dev node }

/-- The origin of the last ADD of a counter. -/
def State.noteOrigin (s : State) (i dev node ctx : Nat) : State :=
  (((s.fset F.SYNC_LAST_DEVICE i dev).fset F.SYNC_LAST_NODE i node).fset F.SYNC_LAST_CONTEXT i ctx).fset F.SYNC_LAST_VALID i 1

/-- The fields that an ADD writes after its counter and the flags of an overflow. -/
def addAfterFlds : List Fld := [F.SYNC_LAST_DEVICE, F.SYNC_LAST_NODE, F.SYNC_LAST_CONTEXT, F.SYNC_LAST_VALID,
  F.SYNC_WAIT_CLAIMS, F.SYNC_WAIT_WAITS, F.SYNC_WAITTAB_USED, F.SYNC_WAITTAB_PEAK]

theorem State.noteOrigin_reads (s : State) (i dev node ctx : Nat) : Reads addAfterFlds s (s.noteOrigin i dev node ctx) :=
  ((((Reads.refl s).fset _ _ _ (by simp [addAfterFlds])).fset _ _ _ (by simp [addAfterFlds])).fset _ _ _
    (by simp [addAfterFlds])).fset _ _ _ (by simp [addAfterFlds])

theorem State.setWaits_reads (s : State) (i : Nat) (l : List CtrWait) : Reads addAfterFlds s (s.setWaits i l) := by
  unfold State.setWaits
  extract_lets sync s1 s2 s3 used s4
  have h1 : Reads addAfterFlds s s1 := .of_fields rfl
  have h2 : Reads addAfterFlds s s2 := h1.fset _ _ _ (by simp [addAfterFlds])
  have h3 : Reads addAfterFlds s s3 := h2.fset _ _ _ (by simp [addAfterFlds])
  have h4 : Reads addAfterFlds s s4 := h3.fset _ _ _ (by simp [addAfterFlds])
  exact h4.fset _ _ _ (by simp [addAfterFlds])

theorem State.ctrHeld_sync (s : State) (i : Nat) : (s.ctrHeld i).sync = s.sync :=
  (State.count_chg (s.ctrFlagged i) C.SYNC_CNT_OVERFLOW 0).sync.resolve_left (by decide)

theorem State.ctrHeld_events (s : State) (i : Nat) : (s.ctrHeld i).events = s.events :=
  (State.count_chg (s.ctrFlagged i) C.SYNC_CNT_OVERFLOW 0).events.resolve_left (by decide)

theorem State.ctrHeld_lastLog (s : State) (i : Nat) : (s.ctrHeld i).lastLog = s.lastLog :=
  (State.count_chg (s.ctrFlagged i) C.SYNC_CNT_OVERFLOW 0).lastLog.resolve_left (by decide)

theorem State.ctrHeld_ns (s : State) (i : Nat) : (s.ctrHeld i).ns = s.ns :=
  (State.count_chg (s.ctrFlagged i) C.SYNC_CNT_OVERFLOW 0).ns.resolve_left (by decide)

theorem State.ctrFlagged_reads (s : State) (i : Nat) :
    Reads [F.SYNC_VALUE_VALUE, F.SYNC_WAIT_OVF, F.SYNC_STATUS_OVF_SEEN] s (s.ctrFlagged i) :=
  (((Reads.refl s).fset _ _ _ (by simp)).fset _ _ _ (by simp)).fset _ _ _ (by simp)

theorem State.ctrHeld_head (s : State) (i : Nat) :
    (s.ctrHeld i).fget F.MGT_EVT_HEAD_NEXT 0 = s.fget F.MGT_EVT_HEAD_NEXT 0 := by
  rw [State.ctrHeld, State.count_fget _ _ _ _ _ (.inl (by decide)), s.ctrFlagged_reads i _ _ (by decide)]

theorem State.ctrHeldLogged_sync (s : State) (i dev node : Nat) : (s.ctrHeldLogged i dev node).sync = s.sync :=
  (State.logRate_chg s 1000000 i { code := 0x1301, context := s.fget F.SYNC_OWNER_CONTEXT i, argA := i
                                   argB := originWord dev node }).sync.resolve_left (by decide)

theorem State.noteOrigin_sync (s : State) (i dev node ctx : Nat) : (s.noteOrigin i dev node ctx).sync = s.sync := rfl

theorem State.noteOrigin_events (s : State) (i dev node ctx : Nat) : (s.noteOrigin i dev node ctx).events = s.events := rfl

theorem State.setWaits_events (s : State) (i : Nat) (l : List CtrWait) : (s.setWaits i l).events = s.events := rfl

/-- An ADD beyond the end of a counter on which nothing waits. -/
theorem State.addCtr_overflows (hno : s.waitsOf i = []) (hover : 0xFFFFFFFF < s.ctr i + n) :
    s.addCtr i n dev node ctx = (((s.ctrHeld i).ctrHeldLogged i dev node).noteOrigin i dev node ctx).setWaits i [] := by
  have hnone : (((s.ctrHeld i).ctrHeldLogged i dev node).noteOrigin i dev node ctx).waitsOf i = [] := by
    rw [State.waitsOf, State.noteOrigin_sync, State.ctrHeldLogged_sync, State.ctrHeld_sync]
    exact hno
  have hmin : Nat.min (s.ctr i + n) 0xFFFFFFFF = 0xFFFFFFFF := Nat.min_eq_right hover.le
  rw [← State.settleCtr_no_waits hnone]
  simp only [State.addCtr, if_pos hover, hmin]
  rfl

/-- The number under which the tags of an ADD's origin are noted. -/
def State.addOrigin (s : State) (p : Packet) : Nat := s.originDev p * 256 + (ctrOp p.payload).node

/-- The tags of the origin of an ADD, with its own behind them. -/
def State.addTags (s : State) (p : Packet) : List Nat := Tab.getD s.sync.seen (s.addOrigin p) [] ++ [p.ref % 65536]

/-- The tags of every origin, with the last 64 of this one. -/
def State.seenNow (s : State) (p : Packet) : Tab (List Nat) :=
  Tab.set s.sync.seen (s.addOrigin p) ((s.addTags p).drop ((s.addTags p).length - 64))

/-- The ADD is off the fabric, and its tag is noted. -/
def State.tagNoted (s : State) (p : Packet) : State :=
  { s.unpost p.key with sync := { s.sync with seen := s.seenNow p } }

/-- A first ADD that arrives whole is applied and receipted. -/
theorem execAdd_applies (hp : s.packet k = some p) (htyp : p.typ = .signal) (hbehind : s.behindSends p = false)
    (hop : (ctrOp p.payload).op = 1) (hok : (ctrOp p.payload).ok = true) (hretx : p.retx = false)
    (hctr : ctrOf (s.blockOf p) p.src (ctrOp p.payload) = .inr i) :
    exec (.add ⟨k, .none⟩) s = .next (((s.tagNoted p).addCtr i (ctrOp p.payload).operand (s.originDev p)
      (ctrOp p.payload).node (ctrOp p.payload).context).receipt p false) := by
  have hrun : execAdd ⟨k, .none⟩ s = .next (s.addArrive p) := by
    simp [execAdd, hp, htyp, hbehind, State.opDamaged]
  have hblock : (s.unpost p.key).blockOf p = s.blockOf p := rfl
  have happly : s.addArrive p = ((s.tagNoted p).addCtr i (ctrOp p.payload).operand (s.originDev p)
      (ctrOp p.payload).node (ctrOp p.payload).context).receipt p false := by
    unfold State.addArrive
    extract_lets o dev org tags s1
    have hbad : (o.op != 1 || !o.ok) = false := by simp [o, hop, hok]
    rw [if_neg (by simp [hbad]), if_neg (by simp [hretx]), show s1.blockOf p = s.blockOf p from rfl,
      show ctrOf (s.blockOf p) p.src o = .inr i from hctr]
    rfl
  rw [exec, hrun, happly]

/-- What an ADD beyond the end leaves: the counter at its end, the flags, the count and the event. -/
theorem State.addCtr_overflow_leaves (hno : s.waitsOf i = []) (hover : 0xFFFFFFFF < s.ctr i + n) :
    Reads (addAfterFlds ++ logFlds) (s.ctrHeld i) (s.addCtr i n dev node ctx) ∧
    (s.addCtr i n dev node ctx).events = ((s.ctrHeld i).ctrHeldLogged i dev node).events := by
  rw [State.addCtr_overflows hno hover]
  refine ⟨fun f j hf => ?_, by rw [State.setWaits_events, State.noteOrigin_events]⟩
  rw [List.all_append, Bool.and_eq_true] at hf
  obtain ⟨hafter, hlog⟩ := hf
  rw [State.setWaits_reads _ _ _ _ _ hafter, State.noteOrigin_reads _ _ _ _ _ _ _ hafter]
  exact State.logRate_fget (s.ctrHeld i) _ _ _ _ _ hlog

theorem State.ctrHeld_fields (s : State) (i : Nat) :
    (s.ctrHeld i).fget F.SYNC_VALUE_VALUE i = 0xFFFFFFFF ∧ (s.ctrHeld i).fget F.SYNC_WAIT_OVF i = 1 ∧
    (s.ctrHeld i).fget F.SYNC_STATUS_OVF_SEEN 0 = 1 := by
  refine ⟨?_, ?_, ?_⟩
  all_goals rw [State.ctrHeld, State.ctrFlagged, State.count_fget _ _ _ _ _ (.inl (by decide))]
  · rw [State.flag_fget _ _ _ _ _ (.inl (by decide)), State.flag_fget _ _ _ _ _ (.inl (by decide)), State.fget_fset_self]
    rfl
  · rw [State.flag_fget _ _ _ _ _ (.inl (by decide)), State.flag, State.fget_fset_self]
    rfl
  · rw [State.flag, State.fget_fset_self]
    rfl

end

/-- Settles O55: where nothing waits on the counter, an ADD writes the counter and the flags, counts, and logs at most once
a millisecond (`State.addCtr_overflows`); its receipt reaches the fabric alone. -/
theorem anAddBeyondTheEndHoldsThere : Obligations.an_add_beyond_the_end_holds_there := by
  unfold Obligations.an_add_beyond_the_end_holds_there
  rintro s k i p o hp - htyp hbehind rfl hop hok hretx hctr hno hover
  have hno' : (s.tagNoted p).waitsOf i = [] := hno
  have hover' : 0xFFFFFFFF < (s.tagNoted p).ctr i + (ctrOp p.payload).operand := hover
  obtain ⟨hadd, hevents⟩ := State.addCtr_overflow_leaves (dev := s.originDev p) (node := (ctrOp p.payload).node)
    (ctx := (ctrOp p.payload).context) hno' hover'
  have hreceipt := State.receipt_chg ((s.tagNoted p).addCtr i (ctrOp p.payload).operand (s.originDev p)
    (ctrOp p.payload).node (ctrOp p.payload).context) p false
  have hreads := hadd.trans (Reads.of_fields (hreceipt.fields.resolve_left (by decide)))
  have hlogged := (hreceipt.events.resolve_left (by decide)).trans hevents
  obtain ⟨hvalue, hovf, hseen⟩ := (s.tagNoted p).ctrHeld_fields i
  refine ⟨_, execAdd_applies hp htyp hbehind hop hok hretx hctr, ?_, ?_, ?_, ?_, fun hdue => ?_, fun hsoon => ?_⟩
  · rw [State.ctr, hreads _ _ (by decide), hvalue]
  · rw [hreads _ _ (by decide), hovf]
  · rw [hreads _ _ (by decide), hseen]
  · exact Counted.of_reads (s := s.tagNoted p) (State.ctrFlagged_reads _ i) hreads (by decide) (by decide)
  · have hhead : s.fget F.MGT_EVT_HEAD_NEXT 0 = ((s.tagNoted p).ctrHeld i).fget F.MGT_EVT_HEAD_NEXT 0 :=
      ((s.tagNoted p).ctrHeld_head i).symm
    rw [hlogged, State.ctrHeldLogged, hhead]
    refine State.logRate_event_due ?_
    rw [State.ctrHeld_lastLog, State.ctrHeld_ns]
    exact hdue
  · rw [hlogged]
    refine (State.logRate_events_held ?_).trans (State.ctrHeld_events _ i)
    rw [State.ctrHeld_lastLog, State.ctrHeld_ns]
    exact hsoon

end Sys2Proof.Machine

/-! SUPPORT. Lookouts and checks (R336, R338, R339, R341, R342, R344): what a step, a comparison, a known-answer kernel and
a range window each leave. -/

namespace Sys2Proof.Machine

-- One proof after the other: proofs elaborated side by side each take a stack of their own, and the text as a whole is
-- compiled close to its memory limit.
set_option Elab.async false

/-! ### The end of a dwell (R336) -/

section
variable {s : State} {k c : Nat}

theorem lookSubject_ne_lookState (k j : Nat) : (lookSubject k).code ≠ (lookState j).code := by
  unfold lookSubject lookState
  split <;> split <;> decide

theorem lookSubject_holds (hc : c < 32) : c % 2 ^ (lookSubject k).width = c := by
  have hwidth : (lookSubject k).width = 5 := by
    unfold lookSubject
    split <;> rfl
  rw [hwidth]
  omega

theorem lookState_holds {v : Nat} (hv : v < 4) : v % 2 ^ (lookState k).width = v := by
  have hwidth : (lookState k).width = 2 := by
    unfold lookState
    split <;> rfl
  rw [hwidth]
  omega

/-- A Lookout loads its new subject. -/
theorem State.takeSubject_leaves (s : State) (x : Lookout) (hc : c < 32) :
    (s.takeSubject k c x).fget (lookSubject k) 0 = c ∧ (s.takeSubject k c x).fget (lookState k) 0 = 1 ∧
    (∃ n, (s.takeSubject k c x).lookout k = { x with comparable := 0, failed := false, epoch := n }) ∧
    s.takeSubject k c x = { s with fields := (s.takeSubject k c x).fields, rel := (s.takeSubject k c x).rel } := by
  unfold State.takeSubject
  extract_lets s1 s2
  refine ⟨?_, ?_, ⟨_, State.lookout_setLookout ..⟩, rfl⟩
  · show s2.fget (lookSubject k) 0 = c
    rw [State.fget_fset_of_code_ne _ (lookSubject_ne_lookState k k), State.fget_fset_self, lookSubject_holds hc]
  · show s2.fget (lookState k) 0 = 1
    rw [State.fget_fset_self, lookState_holds (by decide)]

/-- With no suspects a Lookout's next step is an ordinary one. -/
theorem State.beginStep_ordinary (hsuspects : s.rel.suspects = []) (hnext : s.nextSubject k s.rotation = some c) :
    s.beginStep k = s.takeSubject k c { s.lookout k with
      steps := (s.lookout k).steps + 1, pos := rankCore c + 1, inserted := false } := by
  unfold State.beginStep
  extract_lets l x sus
  have hsus : sus = [] := by
    unfold sus
    rw [hsuspects, List.filter_nil]
  rw [hsus, List.isEmpty_nil, if_neg (by simp)]
  simp only [l, hnext, x]

/-- A step that is over, of a Lookout that does not mirror, drops its samples and begins the next one. -/
theorem execDwellEnd_steps (hk : k < 2) (hover : s.stepOver k = true) (hkeep : s.fget F.KEEP_STATUS_STATE 0 ≠ 0)
    (hfail : s.rel.failovers = []) (hstate : s.fget (lookState k) 0 ≠ 2) :
    exec (.dwellEnd k) s = .next ((s.dropSamples k).beginStep k) := by
  have hplace : ¬ 2 ≤ k := by omega
  have hkeep' : (s.fget F.KEEP_STATUS_STATE 0 == 0) = false := beq_eq_false_iff_ne.mpr hkeep
  simp [exec, execDwellEnd, hplace, hover, hkeep', hfail, hstate]

end

/-! ### Comparing a sample (R338, R339) -/

section
variable {s t u : State} {k c d : Nat} {m : Sample}

/-- Running a tile use again leaves the engines, the tiles and the reliability controller. -/
theorem State.rerunUse_leaves (s : State) (m : Sample) (c : Nat) :
    (s.rerunUse m c).2.2.engines = s.engines ∧ (s.rerunUse m c).2.2.tiles = s.tiles ∧
    (s.rerunUse m c).2.2.rel = s.rel :=
  ⟨rfl, rfl, (State.rerunUse_chg (s := s) rfl).rel.resolve_left (by decide)⟩

/-- A sample leaves the Lookout's queue. -/
def State.sampleTaken (s : State) (m : Sample) : State := { s with rel := { s.rel with samples := s.rel.samples.erase m } }

/-- The state in which a Lookout has run a sample's tile use again. -/
def State.sampleRerun (s : State) (m : Sample) (c : Nat) : State := ((s.sampleTaken m).rerunUse m c).2.2

/-- The same with one more comparable sample. -/
def State.sampleCounted (s : State) (m : Sample) (c k : Nat) : State :=
  let x := (s.sampleRerun m c).lookout k
  (s.sampleRerun m c).setLookout k { x with comparable := x.comparable + 1 }

theorem State.sampleRerun_leaves (s : State) (m : Sample) (c : Nat) :
    (s.sampleRerun m c).engines = s.engines ∧ (s.sampleRerun m c).tiles = s.tiles ∧
    (s.sampleRerun m c).rel = (s.sampleTaken m).rel :=
  (s.sampleTaken m).rerunUse_leaves m c

theorem State.sampleCounted_leaves (s : State) (m : Sample) (c k : Nat) :
    (s.sampleCounted m c k).engines = s.engines ∧ (s.sampleCounted m c k).tiles = s.tiles ∧
    (s.sampleCounted m c k).rel.samples = s.rel.samples.erase m ∧
    ((s.sampleCounted m c k).lookout k).comparable = (s.lookout k).comparable + 1 := by
  obtain ⟨hengines, htiles, hrel⟩ := s.sampleRerun_leaves m c
  refine ⟨hengines, htiles, congrArg Rel.samples hrel, ?_⟩
  rw [State.sampleCounted, State.lookout_setLookout, State.lookout, hrel]
  rfl

/-- A comparison that finds a mismatch: it is counted and logged, and the sample returns to its subject. -/
def State.mismatched (s : State) (m : Sample) (d : Nat) (l : Tab Int) : State :=
  let t := (s.count C.REL_CNT_MISMATCH 0).logRate 1000000 d
    { code := 0x1401, context := (s.count C.REL_CNT_MISMATCH 0).ctxOf d, core := d, lane := m.lane, item := m.item }
  { t with rel := { t.rel with returned := t.rel.returned ++ [{ m with mirror := l }] } }

theorem State.mismatched_leaves (s : State) (m : Sample) (d : Nat) (l : Tab Int) :
    (s.mismatched m d l).engines = s.engines ∧ (s.mismatched m d l).tiles = s.tiles ∧
    (s.mismatched m d l).rel = { s.rel with returned := (s.mismatched m d l).rel.returned } := by
  unfold State.mismatched
  extract_lets t
  have hlog : Chg 0x20000400f08 (s.count C.REL_CNT_MISMATCH 0) t := State.logRate_chg ..
  have hcount := State.count_chg s C.REL_CNT_MISMATCH 0
  have hrel : t.rel = s.rel := (hlog.rel.resolve_left (by decide)).trans (hcount.rel.resolve_left (by decide))
  refine ⟨(hlog.engines.resolve_left (by decide)).trans (hcount.engines.resolve_left (by decide)),
    (hlog.tiles.resolve_left (by decide)).trans (hcount.tiles.resolve_left (by decide)), ?_⟩
  exact congrArg (fun r : Rel => { r with returned := t.rel.returned ++ [{ m with mirror := l }] }) hrel

/-- A Lookout's comparison of a sample that is not spoiled. -/
theorem execSampleCompare_compares (hmirror : s.mirroring k = some (c, d))
    (hsample : s.rel.samples.find? (fun x => x.lookout == k) = some m) (hcore : m.core = d) (hspoiled : m.spoiled = false)
    (hodd : ((s.sampleTaken m).rerunUse m c).2.1 = false) :
    exec (.sampleCompare k) s = .next
      (if (s.sampleCounted m c k).agree m m.drained ((s.sampleTaken m).rerunUse m c).1 then s.sampleCounted m c k
        else (s.sampleCounted m c k).mismatched m d ((s.sampleTaken m).rerunUse m c).1) := by
  have hodd' : (m.spoiled || ((s.sampleTaken m).rerunUse m c).2.1) = false := by rw [hspoiled, hodd]; rfl
  have hsame : (m.core != d) = false := by rw [hcore]; exact bne_self_eq_false d
  have hrun : execSampleCompare k s =
      if m.core != d then .next s
      else if m.spoiled || ((s.sampleTaken m).rerunUse m c).2.1 then .next ((s.sampleRerun m c).count C.REL_CNT_NOCOMP 0)
      else if (s.sampleCounted m c k).agree m m.drained ((s.sampleTaken m).rerunUse m c).1 then .next (s.sampleCounted m c k)
      else .next ((s.sampleCounted m c k).mismatched m d ((s.sampleTaken m).rerunUse m c).1) := by
    rw [execSampleCompare, hmirror, hsample]
    rfl
  rw [exec, hrun, hsame, hodd', if_neg Bool.false_ne_true, if_neg Bool.false_ne_true]
  split
  · rfl
  · rfl

theorem execSampleCompare_spoiled (hmirror : s.mirroring k = some (c, d))
    (hsample : s.rel.samples.find? (fun x => x.lookout == k) = some m) (hcore : m.core = d) (hspoiled : m.spoiled = true) :
    exec (.sampleCompare k) s = .next ((s.sampleRerun m c).count C.REL_CNT_NOCOMP 0) := by
  simp [exec, execSampleCompare, hmirror, hsample, hcore, hspoiled, State.sampleRerun, State.sampleTaken]

/-- The first two rows of Table 14.2. -/
theorem execCheckRerun_agrees {r : Tab Int} {odd : Bool} (hback : s.rel.returned.find? (fun x => x.core == c) = some m)
    (hcheck : (s.core c).check = true) (hrerun : (atRerun s c m).rerunUse m c = (r, odd, u))
    (hown : u.agree m r m.drained = true) :
    exec (.checkRerun c) s = .next (if u.agree m r m.mirror then u.suspect (unitCore c) 1
      else u.confirm (unitCore (s.fget (lookCore m.lookout) 0)) 1) := by
  have hrun : execCheckRerun c s =
      let look := (atRerun s c m).fget (lookCore m.lookout) 0
      let (r, _, s) := (atRerun s c m).rerunUse m c
      if s.agree m r m.drained && s.agree m r m.mirror then .next (s.suspect (unitCore c) 0x01)
      else if s.agree m r m.drained then .next (s.confirm (unitCore look) 0x01)
      else if s.agree m r m.mirror then .next (((s.dwellFailed c).confirm (unitCore c) 0x01).convictSample m)
      else .next (((s.dwellFailed c).confirm (unitCore c) 0x01).confirm (unitCore look) 0x01) := by
    simp only [execCheckRerun, hback, hcheck, Bool.not_true, Bool.false_eq_true, if_false]
    rfl
  rw [exec, hrun, hrerun]
  simp only [hown, Bool.true_and, if_true]
  split <;> rfl

end

/-! ### Known-answer kernels (R342) -/

section
variable {s : State} {c : Nat}

/-- A kernel has run: its window is taken, and it is counted. -/
def State.katCounted (s : State) (c : Nat) : State :=
  (s.setCore c { s.core c with check := false }).count C.REL_CNT_KAT 0

/-- What a kernel notes, where none is to be run again. -/
def State.katNoted (s : State) (c : Nat) (ok : Bool) : State :=
  let t := s.katCounted c
  { t with rel := { t.rel with
      katWindows := Tab.set t.rel.katWindows c (Tab.getD s.rel.katWindows c 0 + 1)
      katFail := t.rel.katFail || !ok
      katAgain := if !ok then Tab.set t.rel.katAgain c (Tab.getD s.rel.katWindows c 0 % 6) else Tab.erase t.rel.katAgain c } }

/-- A kernel that failed is counted, flagged and logged. -/
def State.katFailed (s : State) (c : Nat) : State :=
  let t := (s.count C.REL_CNT_KATFAIL 0).flag F.REL_STATUS_KAT_FAIL_SEEN 0
  t.log { code := 0x1403, context := t.ctxOf c, core := c }

theorem State.katCounted_rel (s : State) (c : Nat) : (s.katCounted c).rel = s.rel :=
  (State.count_chg (s.setCore c { s.core c with check := false }) C.REL_CNT_KAT 0).rel.resolve_left (by decide)

theorem State.katCounted_core (s : State) (c : Nat) : ((s.katCounted c).core c).check = false := by
  have hcores : (s.katCounted c).cores = (s.setCore c { s.core c with check := false }).cores :=
    (State.count_chg (s.setCore c { s.core c with check := false }) C.REL_CNT_KAT 0).cores.resolve_left (by decide)
  rw [State.core_congr hcores, State.core_setCore]

/-- A first run of a kernel: what it notes, and where it fails, what it counts and logs. -/
theorem execKatRun_first (hturn : s.katTurn = some c) (hcheck : (s.core c).check = true)
    (hagain : Tab.find s.rel.katAgain c = none) (ok : Bool) :
    ∃ limit, 64 ≤ limit ∧ exec (.katRun c ok) s = .next
      (let t := if ok then s.katNoted c ok else (s.katNoted c ok).katFailed c
       if limit ≤ Tab.getD s.rel.katWindows c 0 + 1 && (Tab.find t.rel.katAgain c).isNone then t.katEnd c else t) := by
  have hguard : ¬ (s.katTurn != some c || !((s.core c).check || (s.lookoutOf c).isSome)) = true := by
    simp [hturn, hcheck]
  rw [exec, execKatRun, if_neg hguard]
  extract_lets x s1 n again s2 _ s3 s4 s5 s6 s7 limit t
  have hfirst : again = false := by
    show (Tab.find s.rel.katAgain c).isSome = false
    rw [hagain]
    rfl
  have h3 : s3 = s.katNoted c ok := by
    simp only [s3, hfirst, Bool.not_false, Bool.and_true]
    rfl
  have h7 : s7 = t := by
    have h6 : s6 = s3.katFailed c := rfl
    unfold s7 t
    rw [hfirst, h6, h3]
    simp only [Bool.false_eq_true, if_false]
  refine ⟨limit, ?_, ?_⟩
  · unfold limit
    split <;> decide
  · rw [h7]
    rfl

theorem State.katNoted_only (s : State) (c : Nat) (ok : Bool) : s.katNoted c ok =
    { s with fields := (s.katNoted c ok).fields, cores := (s.katNoted c ok).cores, rel := (s.katNoted c ok).rel } := by
  have hcount : s.katCounted c = { s with fields := (s.katCounted c).fields, cores := (s.katCounted c).cores } := by
    unfold State.katCounted State.count State.countAt
    split <;> rfl
  unfold State.katNoted
  rw [hcount]

theorem State.katNoted_reads (s : State) (c : Nat) (ok : Bool) : Reads [C.REL_CNT_KAT.cnt] s (s.katNoted c ok) :=
  ((Reads.of_fields (l := [C.REL_CNT_KAT.cnt]) (t := s.setCore c { s.core c with check := false }) rfl).count _ 0
    (by simp)).trans (.of_fields rfl)

/-- A kernel that passes, short of the last, leaves what it notes. -/
theorem execKatRun_passes (hturn : s.katTurn = some c) (hcheck : (s.core c).check = true)
    (hagain : Tab.find s.rel.katAgain c = none) (hleft : Tab.getD s.rel.katWindows c 0 < 63) :
    exec (.katRun c true) s = .next (s.katNoted c true) := by
  obtain ⟨limit, hlimit, hexec⟩ := execKatRun_first hturn hcheck hagain true
  have hshort : ¬ limit ≤ Tab.getD s.rel.katWindows c 0 + 1 := by omega
  simpa [hshort] using hexec

theorem State.katFailed_rel (s : State) (c : Nat) : (s.katFailed c).rel = s.rel := by
  have hlog := State.log_chg ((s.count C.REL_CNT_KATFAIL 0).flag F.REL_STATUS_KAT_FAIL_SEEN 0)
    { code := 0x1403, context := ((s.count C.REL_CNT_KATFAIL 0).flag F.REL_STATUS_KAT_FAIL_SEEN 0).ctxOf c, core := c }
  exact (hlog.rel.resolve_left (by decide)).trans ((State.count_chg s C.REL_CNT_KATFAIL 0).rel.resolve_left (by decide))

theorem State.katFailed_reads (s : State) (c : Nat) :
    Reads (F.REL_STATUS_KAT_FAIL_SEEN :: logFlds) (s.count C.REL_CNT_KATFAIL 0) (s.katFailed c) :=
  ((Reads.refl _).fset _ _ _ (List.mem_cons_self ..)).trans ((State.log_reads _ _).mono fun _ h => List.mem_cons_of_mem _ h)

theorem State.katFailed_cores (s : State) (c : Nat) : (s.katFailed c).cores = s.cores := by
  have hlog := State.log_chg ((s.count C.REL_CNT_KATFAIL 0).flag F.REL_STATUS_KAT_FAIL_SEEN 0)
    { code := 0x1403, context := ((s.count C.REL_CNT_KATFAIL 0).flag F.REL_STATUS_KAT_FAIL_SEEN 0).ctxOf c, core := c }
  exact (hlog.cores.resolve_left (by decide)).trans ((State.count_chg s C.REL_CNT_KATFAIL 0).cores.resolve_left (by decide))

/-- A kernel that fails is to be run again, so the suite goes on. -/
theorem execKatRun_fails (hturn : s.katTurn = some c) (hcheck : (s.core c).check = true)
    (hagain : Tab.find s.rel.katAgain c = none) : exec (.katRun c false) s = .next ((s.katNoted c false).katFailed c) := by
  obtain ⟨limit, -, hexec⟩ := execKatRun_first hturn hcheck hagain false
  have hsome : (Tab.find ((s.katNoted c false).katFailed c).rel.katAgain c).isNone = false := by
    rw [State.katFailed_rel]
    show (Tab.find (Tab.set _ c _) c).isNone = false
    rw [Tab.find_set_self]
    rfl
  simpa [hsome] using hexec

/-- The suite is asked for on a named core. -/
def State.katNamed (s : State) (c : Nat) : State :=
  let windows := Tab.erase s.rel.katWindows c
  { s with rel := { s.rel with
      katAsked := some c, katFail := false, katWindows := windows, katAgain := Tab.erase s.rel.katAgain c } }

theorem execKatNow_names (hcore : s.katCores.contains c = true) : exec (.katNow c) s = .next (s.katNamed c) := by
  simp only [exec, execKatNow, hcore, Bool.not_true, Bool.false_eq_true, if_false]
  rfl

end

/-! ### Range windows (R344) and REL_COMMIT (R360) -/

section
variable {s : State} {c j key : Nat} {e : EnvCol} {m : Model} {r : StageRec}

/-- The window of a column has ended without a violation, and the next one begins. -/
def State.windowPassed (s : State) (c j key : Nat) : State :=
  let t := s.setCore c { s.core c with stats := Tab.erase (s.core c).stats key }
  let first := (Tab.getD s.rel.ranges (c * 65536 + j) ⟨s.ns, 0, 0, false⟩).first
  { t with rel := { t.rel with ranges := Tab.set t.rel.ranges (c * 65536 + j) ⟨s.ns, first, 0, false⟩ } }

/-- A full window without a violation: the next one begins, and the violations in a row start again. -/
theorem execRangeWindow_good (hkey : (s.tileCols c)[j]? = some key) (henv : s.envFor c key = some e)
    (hstage : s.stageOf c = some (m, r))
    (hfull : s.fget F.REL_RANGE_CFG_WINDOW 0 ≤ (Tab.getD (s.core c).stats key .empty).count)
    (hgood : envViolated e (Tab.getD (s.core c).stats key .empty) = false) :
    exec (.rangeWindow c j) s = .next (s.windowPassed c j key) := by
  have hshort : ¬ (Tab.getD (s.core c).stats key .empty).count < s.fget F.REL_RANGE_CFG_WINDOW 0 := by omega
  simp only [exec, execRangeWindow, hkey, henv, hstage, hshort, hgood, decide_false, Bool.false_and, Bool.and_false,
    Bool.false_eq_true, if_false, Bool.not_false, if_true]
  rfl

/-- The fields that REL_COMMIT applies. -/
def relLimits : List (Fld × Nat) := [(F.REL_CFG_RETRACT_SCOPE, 0), (F.REL_SHADOW_CFG_DWELL_US, 0),
  (F.REL_SHADOW_CFG_SAMPLE_EVERY, 0), (F.REL_SHADOW_CFG_TOL_SCALE, 0), (F.REL_RANGE_CFG_WINDOW, 0), (F.REL_RANGE_CFG_CONVICT, 0)]

theorem execRelCommit_applies (hd : 500 ≤ s.staging F.REL_SHADOW_CFG_DWELL_US 0 ∧ s.staging F.REL_SHADOW_CFG_DWELL_US 0 ≤ 10000)
    (hn : 1 ≤ s.staging F.REL_SHADOW_CFG_SAMPLE_EVERY 0 ∧ s.staging F.REL_SHADOW_CFG_SAMPLE_EVERY 0 ≤ 63)
    (hw : 256 ≤ s.staging F.REL_RANGE_CFG_WINDOW 0 ∧ s.staging F.REL_RANGE_CFG_WINDOW 0 ≤ 65536) :
    exec .relCommit s = .next (s.applyAll relLimits) := by
  simp only [exec, execRelCommit, hd, hn, hw, decide_true, Bool.and_self, if_true]
  rfl

theorem execRelCommit_refuses (hd : s.staging F.REL_SHADOW_CFG_DWELL_US 0 < 500) :
    exec .relCommit s = .next ((s.flag F.REL_STATUS_CFG_INVALID 0).log { code := 0x140E }) := by
  have hlow : ¬ 500 ≤ s.staging F.REL_SHADOW_CFG_DWELL_US 0 := by omega
  simp [exec, execRelCommit, hlow]

end

/-- Settles O44, clause by clause from what each command leaves. -/
theorem lookoutsCompareAndCheck : Obligations.lookouts_compare_and_check := by
  unfold Obligations.lookouts_compare_and_check
  refine ⟨?_, ?_, ?_, ?_, ?_, ?_, ?_, ?_, ?_, ?_⟩
  · intro s k c hk hover hkeep hfail hsuspects hstate hnext hc
    have hbegin : (s.dropSamples k).beginStep k = (s.dropSamples k).takeSubject k c { s.lookout k with
        steps := (s.lookout k).steps + 1, pos := rankCore c + 1, inserted := false } :=
      State.beginStep_ordinary hsuspects hnext
    obtain ⟨hsubject, hload, ⟨n, hlook⟩, honly⟩ := (s.dropSamples k).takeSubject_leaves (k := k) { s.lookout k with
        steps := (s.lookout k).steps + 1, pos := rankCore c + 1, inserted := false } hc
    refine ⟨_, execDwellEnd_steps hk hover hkeep hfail hstate, ?_⟩
    rw [hbegin]
    exact ⟨hsubject, hload, by rw [hlook], by rw [hlook], by rw [hlook], honly⟩
  · intro s k c d m hmirror hsample hcore hspoiled hodd
    obtain ⟨hengines, htiles, hsamples, hcomparable⟩ := s.sampleCounted_leaves m c k
    refine ⟨_, execSampleCompare_compares hmirror hsample hcore hspoiled hodd, ?_⟩
    split
    · exact ⟨hcomparable, hsamples, hengines, htiles⟩
    · obtain ⟨hengines', htiles', hrel⟩ := (s.sampleCounted m c k).mismatched_leaves m d ((s.sampleTaken m).rerunUse m c).1
      refine ⟨?_, by rw [hrel]; exact hsamples, hengines'.trans hengines, htiles'.trans htiles⟩
      rw [State.lookout, hrel]
      exact hcomparable
  · intro s k c d m hmirror hsample hcore hspoiled
    obtain ⟨hengines, htiles, hrel⟩ := s.sampleRerun_leaves m c
    have hcount := State.count_chg (s.sampleRerun m c) C.REL_CNT_NOCOMP 0
    have hrel' : ((s.sampleRerun m c).count C.REL_CNT_NOCOMP 0).rel = (s.sampleTaken m).rel :=
      (hcount.rel.resolve_left (by decide)).trans hrel
    refine ⟨_, execSampleCompare_spoiled hmirror hsample hcore hspoiled, ?_, ?_, ?_,
      (hcount.engines.resolve_left (by decide)).trans hengines, (hcount.tiles.resolve_left (by decide)).trans htiles⟩
    · rw [hrel']
      rfl
    · rw [State.lookout, hrel']
      rfl
    · rw [hrel']
      rfl
  · intro s u c m r odd hback hcheck hrerun hown
    exact ⟨_, execCheckRerun_agrees hback hcheck hrerun hown, rfl⟩
  · intro s c hturn hcheck hagain hleft
    refine ⟨_, execKatRun_passes hturn hcheck hagain hleft, ?_, ?_, s.katCounted_core c, ?_, ?_⟩
    · exact State.count_fget_self (s.setCore c { s.core c with check := false }) C.REL_CNT_KAT 0
    · exact Tab.getD_set_self ..
    · show ((s.katCounted c).rel.katFail || !true) = _
      rw [State.katCounted_rel, Bool.not_true, Bool.or_false]
    · exact s.katNoted_only c true
  · intro s c hturn hcheck hagain
    refine ⟨_, execKatRun_fails hturn hcheck hagain, ?_, ?_, ?_, ?_, ?_⟩
    · exact Counted.of_reads (s.katNoted_reads c false) (State.katFailed_reads _ c) (by decide) (by decide)
    · exact State.flag_log_fget _ _ _ _ rfl (by decide)
    · rw [State.katFailed_rel]
      exact Bool.or_true _
    · rw [State.katFailed_rel]
      exact Tab.find_set_self ..
    · rw [State.core_congr (State.katFailed_cores _ c)]
      exact s.katCounted_core c
  · intro s c hcore
    refine ⟨_, execKatNow_names hcore, rfl, rfl, ?_, ?_, rfl⟩
    · exact Tab.find_erase_self ..
    · exact Tab.find_erase_self ..
  · intro s c j key e m r hkey henv hstage hfull hgood
    refine ⟨_, execRangeWindow_good hkey henv hstage hfull hgood, Tab.getD_set_self .., ?_, rfl⟩
    show Tab.find ((s.setCore c _).core c).stats key = none
    rw [State.core_setCore]
    exact Tab.find_erase_self ..
  · rintro s d n w rfl rfl rfl ⟨hd, hd', hn, hn', hw, hw'⟩
    have hdistinct : (relLimits.map fun p => p.1.key p.2).Nodup := by decide
    refine ⟨_, execRelCommit_applies ⟨hd, hd'⟩ ⟨hn, hn'⟩ ⟨hw, hw'⟩, ?_, ?_, ?_, ?_⟩
    · rw [State.applyAll_fget hdistinct (by decide)]
      exact Nat.mod_eq_of_lt (lt_of_le_of_lt hd' (by decide))
    · rw [State.applyAll_fget hdistinct (by decide)]
      exact Nat.mod_eq_of_lt (lt_of_le_of_lt hn' (by decide))
    · rw [State.applyAll_fget hdistinct (by decide)]
      exact Nat.mod_eq_of_lt (lt_of_le_of_lt hw' (by decide))
    · exact (State.applyAll_onlyFields s relLimits).1
  · intro s hd
    refine ⟨_, execRelCommit_refuses hd, ?_, ?_⟩
    · exact State.flag_log_fget s F.REL_STATUS_CFG_INVALID 0 _ rfl (by decide)
    · exact State.flag_log_fget_ne s 0 _ (by decide) (by decide)

end Sys2Proof.Machine

/-! SUPPORT. Canopy ports (R306, R308, R313, R314, R331, R384, R451): what a port's fencing, its loss and its training
leave, and what each command of a port does. -/

namespace Sys2Proof.Machine

-- One proof after the other: proofs elaborated side by side each take a stack of their own, and the text as a whole is
-- compiled close to its memory limit.
set_option Elab.async false

/-! ### Changing one port -/

section
variable {s t u : State} {p q v w : Nat}

/-- `t` differs from `s` in no other port's state and reason, in no dimension and not in what runs or is faulty; port `p`
is in state `v`. -/
structure OnePort (p v : Nat) (s t : State) : Prop where
  state : t.port p = v
  others : ∀ q, q ≠ p → t.port q = s.port q
  reasons : ∀ q, q ≠ p → t.fget F.CNP_PORT_STATUS_FENCE q = s.fget F.CNP_PORT_STATUS_FENCE q
  dims : t.dims = s.dims
  faulty : t.cnp.faulty = s.cnp.faulty
  running : t.cnp.running = s.cnp.running

/-- A state that a port keeps. -/
theorem OnePort.refl (h : s.port p = v) : OnePort p v s s := ⟨h, fun _ _ => rfl, fun _ _ => rfl, rfl, rfl, rfl⟩

theorem State.cport_congr (h : t.cnp = s.cnp) (p : Nat) : t.cport p = s.cport p := by
  rw [State.cport, State.cport, h]

theorem State.log_cnp (s : State) (e : Ev) : (s.log e).cnp = s.cnp := (State.log_chg s e).cnp.resolve_left (by decide)

theorem State.log_port (s : State) (e : Ev) (p : Nat) : (s.log e).port p = s.port p := State.log_fget _ _ _ _ (by decide)

/-- The fields that taking a port up or down writes, apart from the port's state and reason. -/
def portFlds : List Fld := [F.CNP_STATUS_FENCE_SEEN, F.CNP_PORT_PEER_VALID, F.CNP_PORT_STATUS_KEY] ++ logFlds

/-- What reaches the fields of a port's loss alone leaves every port's state and reason, and the dimensions. -/
theorem Reads.ports (h : Reads portFlds s t) : (∀ q, t.port q = s.port q) ∧
    (∀ q, t.fget F.CNP_PORT_STATUS_FENCE q = s.fget F.CNP_PORT_STATUS_FENCE q) ∧ t.dims = s.dims :=
  ⟨fun q => h _ q (by decide), fun q => h _ q (by decide),
    by rw [State.dims, State.dims, h _ _ (by decide), h _ _ (by decide), h _ _ (by decide)]⟩

/-- A port's state and its reason are written, and other fields besides. -/
theorem OnePort.of_writes (hv : v < 8) (h : Reads portFlds s t) (hu : Reads portFlds
    ((t.fset F.CNP_PORT_STATUS_STATE p v).fset F.CNP_PORT_STATUS_FENCE p w) u)
    (hfaulty : u.cnp.faulty = s.cnp.faulty) (hrunning : u.cnp.running = s.cnp.running) : OnePort p v s u := by
  obtain ⟨hport, hreason, hdims⟩ := h.ports
  obtain ⟨hport', hreason', hdims'⟩ := hu.ports
  refine ⟨?_, fun q hq => ?_, fun q hq => ?_, hdims'.trans (Eq.trans ?_ hdims), hfaulty, hrunning⟩
  · rw [hport', State.port, State.fget_fset_of_code_ne _ (by decide), State.fget_fset_self]
    exact Nat.mod_eq_of_lt hv
  · rw [hport', State.port, State.fget_fset_ne _ _ (.inr hq), State.fget_fset_ne _ _ (.inr hq), ← hport]
    rfl
  · rw [hreason', State.fget_fset_ne _ _ (.inr hq), State.fget_fset_ne _ _ (.inr hq), hreason]
  · simp (disch := decide) only [State.dims, State.fget_fset_of_code_ne]

/-- A port that is fenced. -/
theorem State.fencePort_leaves (s : State) (p reason : Nat) : OnePort p 4 s (s.fencePort p reason) ∧
    (s.fencePort p reason).fget F.CNP_PORT_STATUS_FENCE p = reason % 16 ∧
    (s.fencePort p reason).fget F.CNP_STATUS_FENCE_SEEN 0 = 1 ∧
    (s.fencePort p reason).cport p = { CnpPort.empty with fencedNs := s.ns } := by
  unfold State.fencePort
  extract_lets x s1 s2 s3 s4
  have h1 : Reads portFlds s s1 := .of_fields rfl
  have h4 : Reads portFlds s3 s4 := (Reads.refl s3).fset _ _ _ (by simp [portFlds])
  have hlog : Reads portFlds s3 (s4.log { code := 0x1203, engine := p, argA := reason }) :=
    h4.trans ((s4.log_reads _).mono fun _ h => List.mem_append_right _ h)
  have hcnp : (s4.log { code := 0x1203, engine := p, argA := reason }).cnp = s1.cnp := s4.log_cnp _
  refine ⟨.of_writes (by decide) h1 hlog (congrArg Cnp.faulty hcnp :) (congrArg Cnp.running hcnp :), ?_, ?_, ?_⟩
  · rw [hlog.ports.2.1]
    exact State.fget_fset_self s2 F.CNP_PORT_STATUS_FENCE p reason
  · rw [State.log_fget _ _ _ _ (by decide)]
    exact State.fget_fset_self s3 F.CNP_STATUS_FENCE_SEEN 0 1
  · rw [State.cport_congr hcnp]
    exact State.cport_setCport ..

theorem State.dropPort_reads (s : State) (p : Nat) : ∃ u, Reads portFlds s u ∧ u.fget F.CNP_PORT_PEER_VALID p = 0 ∧
    u.cnp = (s.setCport p .empty).cnp ∧ s.dropPort p = u.setPort p (if s.cnp.running then 1 else 0) := by
  unfold State.dropPort
  extract_lets was s1 s2 s3 s4
  have h3 : Reads portFlds s s3 :=
    ((Reads.of_fields (t := s1) rfl).fset _ _ _ (by simp [portFlds])).fset _ _ _ (by simp [portFlds])
  have hvalid : s3.fget F.CNP_PORT_PEER_VALID p = 0 := by
    rw [State.fget_fset_of_code_ne _ (by decide), State.fget_fset_self, Nat.zero_mod]
  have hcnp : s4.cnp = s1.cnp := by
    unfold s4
    split
    · exact s3.log_cnp _
    · rfl
  refine ⟨s4, ?_, ?_, hcnp, ?_⟩
  · exact .ite (h3.trans ((s3.log_reads _).mono fun _ h => List.mem_append_right _ h)) h3
  · unfold s4
    split
    · rw [State.log_fget _ _ _ _ (by decide), hvalid]
    · exact hvalid
  · rw [hcnp]
    rfl

/-- A port that went down: its key, its buffers and what it knew of its peer are gone (R314). -/
theorem State.dropPort_leaves (s : State) (p : Nat) : OnePort p (if s.cnp.running then 1 else 0) s (s.dropPort p) ∧
    (s.dropPort p).fget F.CNP_PORT_PEER_VALID p = 0 ∧ (s.dropPort p).cport p = .empty := by
  obtain ⟨u, hreads, hvalid, hcnp, hdrop⟩ := s.dropPort_reads p
  obtain ⟨hport, hreason, hdims⟩ := hreads.ports
  rw [hdrop, State.setPort]
  refine ⟨⟨?_, fun q hq => ?_, fun q hq => ?_, ?_, (congrArg Cnp.faulty hcnp :), (congrArg Cnp.running hcnp :)⟩, ?_, ?_⟩
  · rw [State.port, State.fget_fset_self]
    split <;> rfl
  · rw [State.port, State.fget_fset_ne _ _ (.inr hq), ← hport]
    rfl
  · rw [State.fget_fset_of_code_ne _ (by decide), hreason]
  · rw [← hdims]
    simp (disch := decide) only [State.dims, State.fget_fset_of_code_ne]
  · rw [State.fget_fset_of_code_ne _ (by decide), hvalid]
  · exact (State.cport_congr hcnp p).trans (State.cport_setCport ..)

/-- The state that START gives a port (R306). -/
def State.broughtUp (s : State) (p : Nat) : Nat :=
  if !portUsed s.dims p then 5 else if s.cnp.faulty.contains (p / 2) then 4
  else if s.port p = 3 || s.port p = 2 then s.port p else 1

theorem State.bringUp_onePort (s : State) (p : Nat) : OnePort p (s.broughtUp p) s (s.bringUp p) := by
  unfold State.broughtUp State.bringUp
  split
  · refine ⟨State.fget_fset_self .., fun q hq => State.fget_fset_ne _ _ (.inr hq),
      fun q hq => State.fget_fset_of_code_ne _ (by decide), ?_, rfl, rfl⟩
    simp (disch := decide) only [State.dims, State.setPort, State.fget_fset_of_code_ne]
  · split
    · exact (s.fencePort_leaves p 6).1
    · split
      · exact .refl rfl
      · exact .of_writes (t := s.setCport p .empty) (by decide) (.of_fields rfl) (.refl _) rfl rfl

/-- Taking up the ports of a list, each with a result that its own state, the dimensions and what runs decide. -/
theorem foldl_onePort {f : State → Nat → State} {g : State → Nat → Nat} (hf : ∀ u p, OnePort p (g u p) u (f u p))
    (hg : ∀ u t p, t.port p = u.port p → t.dims = u.dims → t.cnp.faulty = u.cnp.faulty → t.cnp.running = u.cnp.running →
      g t p = g u p) (l : List Nat) (hl : l.Nodup) (s : State) :
    (∀ p, (l.foldl f s).port p = if p ∈ l then g s p else s.port p) ∧ (l.foldl f s).cnp.running = s.cnp.running := by
  induction l generalizing s with
  | nil => exact ⟨fun p => by simp, rfl⟩
  | cons a l ih =>
    obtain ⟨hnotin, hl⟩ := List.nodup_cons.mp hl
    obtain ⟨ihport, ihrun⟩ := ih hl (f s a)
    have ha := hf s a
    refine ⟨fun p => ?_, ihrun.trans ha.running⟩
    rw [List.foldl_cons, ihport]
    by_cases hp : p = a
    · subst hp
      simp [hnotin, ha.state]
    · have hsame : g (f s a) p = g s p := hg _ _ _ (ha.others p hp) ha.dims ha.faulty ha.running
      simp only [List.mem_cons, hp, false_or, hsame, ha.others p hp]

end

/-! ### Starting and stopping (R331) -/

section
variable {s : State}

/-- The states of the six ports, after each of them was taken up or down. -/
theorem ports_after {f : State → Nat → State} {g : State → Nat → Nat} (hf : ∀ u p, OnePort p (g u p) u (f u p))
    (hg : ∀ u t p, t.port p = u.port p → t.dims = u.dims → t.cnp.faulty = u.cnp.faulty → t.cnp.running = u.cnp.running →
      g t p = g u p) (s : State) :
    (List.range 6).map ((List.range 6).foldl f s).port = (List.range 6).map (g s) ∧
      ((List.range 6).foldl f s).cnp.running = s.cnp.running := by
  obtain ⟨hport, hrun⟩ := foldl_onePort hf hg (List.range 6) List.nodup_range s
  refine ⟨List.map_congr_left fun p hp => ?_, hrun⟩
  rw [hport, if_pos hp]

/-- The block runs, or does not. -/
def State.runningSet (s : State) (r : Bool) : State := { s with cnp := { s.cnp with running := r } }

theorem execCnpStart_starts (h : s.cnpStartReason = 0) :
    exec .cnpStart s = .next ((List.range 6).foldl State.bringUp (s.runningSet true)) := by
  simp only [exec, execCnpStart, h, if_true]
  rfl

theorem execCnpStart_refuses (h : s.cnpStartReason ≠ 0) : exec .cnpStart s = .next
    (((s.flag F.CNP_STATUS_START_REFUSED 0).fset F.CNP_STATUS_REASON 0 s.cnpStartReason).log
      { code := 0x1209, argA := s.cnpStartReason }) := by
  simp only [exec, execCnpStart, if_neg h]

theorem State.cnpStartReason_lt (s : State) : s.cnpStartReason < 16 := by
  unfold State.cnpStartReason
  extract_lets n
  split
  · decide
  · split
    · decide
    · split <;> decide

/-- A port goes down, unless it is unused. -/
def State.stopPort (s : State) (p : Nat) : State := if s.port p = 5 then s else s.dropPort p

theorem State.stopPort_onePort (s : State) (p : Nat) :
    OnePort p (if s.port p = 5 then 5 else if s.cnp.running then 1 else 0) s (s.stopPort p) := by
  unfold State.stopPort
  split
  · next h => exact .refl h
  · exact (s.dropPort_leaves p).1

theorem execCnpStop_stops : exec .cnpStop s = .next ((List.range 6).foldl State.stopPort (s.runningSet false)) := rfl

end

/-! ### Training, and the INIT exchange (R308) -/

section
variable {s : State} {p r : Nat} {i : InitInfo}

theorem execPortTrained_trains (hp : p < 6) (hstate : s.port p = 1) (hnew : (s.cport p).trained = false) :
    exec (.portTrained p) s = .next
      ((s.setCport p { s.cport p with trained := true }).emit (.canopy p 2 (s.initBytes p []))) := by
  have hport : ¬ 6 ≤ p := by omega
  simp [exec, execPortTrained, hport, hstate, hnew]

/-- What an INIT frame tells of the peer and of the way to it. -/
def State.peerNoted (s : State) (p : Nat) (i : InitInfo) : State :=
  ((((s.fset F.CNP_PORT_PEER_DEVICE p i.device).fset F.CNP_PORT_PEER_PORT p i.port).fset F.CNP_PORT_PEER_VALID p 1).fset
    F.CNP_PORT_DELAY_RTT_NS p i.rttNs).fset F.CNP_PORT_DELAY_D_NS p (ceilDiv (ceilDiv i.rttNs 2) 10 * 10)

/-- The same, with this end's INIT frame sent. -/
def State.initSent (s : State) (p : Nat) (i : InitInfo) : State :=
  (s.peerNoted p i).emit (.canopy p 2 ((s.peerNoted p i).initBytes p (initEcho i)))

/-- The fields that an INIT frame writes. -/
def initFlds : List Fld := [F.CNP_PORT_PEER_DEVICE, F.CNP_PORT_PEER_PORT, F.CNP_PORT_PEER_VALID, F.CNP_PORT_DELAY_RTT_NS,
  F.CNP_PORT_DELAY_D_NS]

theorem State.peerNoted_reads (s : State) (p : Nat) (i : InitInfo) : Reads initFlds s (s.peerNoted p i) := by
  have h1 : Reads initFlds s (s.fset F.CNP_PORT_PEER_DEVICE p i.device) := (Reads.refl s).fset _ _ _ (by simp [initFlds])
  have h2 := h1.fset F.CNP_PORT_PEER_PORT p i.port (by simp [initFlds])
  have h3 := h2.fset F.CNP_PORT_PEER_VALID p 1 (by simp [initFlds])
  have h4 := h3.fset F.CNP_PORT_DELAY_RTT_NS p i.rttNs (by simp [initFlds])
  exact h4.fset F.CNP_PORT_DELAY_D_NS p _ (by simp [initFlds])

theorem State.initSent_reason (s : State) (p : Nat) (i : InitInfo) : (s.initSent p i).initReason p i = s.initReason p i := by
  have hreads : Reads initFlds s (s.initSent p i) := (s.peerNoted_reads p i).trans (.of_fields rfl)
  have hdims : (s.initSent p i).dims = s.dims := by
    rw [State.dims, State.dims, hreads _ _ (by decide), hreads _ _ (by decide), hreads _ _ (by decide)]
  have hme : (s.initSent p i).me = s.me := hreads _ _ (by decide)
  have horder : (s.initSent p i).fget F.CNP_TOPO_ID_ORDER 0 = s.fget F.CNP_TOPO_ID_ORDER 0 := hreads _ _ (by decide)
  rw [State.initReason, State.initReason, hdims, hme, horder]

theorem State.initReason_lt (s : State) (p : Nat) (i : InitInfo) : s.initReason p i < 16 := by
  unfold State.initReason
  extract_lets n
  split
  · decide
  · split
    · decide
    · split <;> decide

theorem State.peerNoted_fields (s : State) (p : Nat) (i : InitInfo) :
    (s.peerNoted p i).fget F.CNP_PORT_PEER_VALID p = 1 ∧
    (s.peerNoted p i).fget F.CNP_PORT_PEER_DEVICE p = i.device % 2 ^ F.CNP_PORT_PEER_DEVICE.width ∧
    (s.peerNoted p i).fget F.CNP_PORT_DELAY_RTT_NS p = i.rttNs % 2 ^ F.CNP_PORT_DELAY_RTT_NS.width := by
  refine ⟨?_, ?_, ?_⟩
  all_goals simp (disch := decide) only [State.peerNoted, State.fget_fset_of_code_ne, State.fget_fset_self]
  rfl

/-- A port that goes on to keying. -/
def State.keying (s : State) (p : Nat) (i : InitInfo) : State :=
  ((s.initSent p i).setPort p 2).setCport p { s.cport p with
    credit := (List.range 6).map (fun k => (k, i.credits.getD k 0)) }

theorem State.keying_fget (s : State) (p : Nat) (i : InitInfo) {f : Fld} (hf : f.code ≠ F.CNP_PORT_STATUS_STATE.code) :
    (s.keying p i).fget f p = (s.peerNoted p i).fget f p :=
  State.fget_fset_of_code_ne (s.initSent p i) (i := p) (j := p) (w := 2) hf

/-- An INIT frame on a port that trains: it fences, or keying begins. -/
theorem execInitFrame_runs (hp : p < 6) (hstate : s.port p = 1) (htrained : (s.cport p).trained = true) :
    exec (.initFrame p i) s = .next (if s.initReason p i != 0 then (s.initSent p i).fencePort p (s.initReason p i)
      else (s.keying p i).sendOffer p 0) := by
  have hguard : ¬ (decide (6 ≤ p) || s.port p != 1 || !(s.cport p).trained) = true := by
    simp [hp, hstate, htrained]
  rw [exec, execInitFrame, if_neg hguard, ← s.initSent_reason p i]
  show (if (s.initSent p i).initReason p i != 0 then Host.Outcome.next _ else _) = _
  split <;> rfl

/-- What an offer leaves: the key it is made with, and nothing of the registers. -/
theorem State.sendOffer_leaves (s : State) (p gen : Nat) : ∃ k o, o.device = s.me ∧ o.port = p ∧ o.gen = gen ∧
    (s.sendOffer p gen).cport p = { s.cport p with secret := k, mine := some o, theirs := none } ∧
    s.sendOffer p gen = { s with
      cnp := (s.sendOffer p gen).cnp, out := (s.sendOffer p gen).out, free := s.free + 33 } :=
  ⟨_, _, rfl, rfl, rfl, State.cport_setCport .., rfl⟩

theorem State.sendOffer_fget (s : State) (p gen : Nat) (f : Fld) (j : Nat) : (s.sendOffer p gen).fget f j = s.fget f j := rfl

theorem State.sendOffer_free (s : State) (p gen : Nat) : (s.sendOffer p gen).free = s.free + 33 := rfl

theorem State.keying_port (s : State) (p : Nat) (i : InitInfo) : (s.keying p i).port p = 2 :=
  State.fget_fset_self (s.initSent p i) F.CNP_PORT_STATUS_STATE p 2

theorem State.keying_credit (s : State) (p : Nat) (i : InitInfo) :
    ((s.keying p i).cport p).credit = (List.range 6).map (fun k => (k, i.credits.getD k 0)) :=
  congrArg CnpPort.credit (State.cport_setCport ..)

theorem State.keying_free (s : State) (p : Nat) (i : InitInfo) : (s.keying p i).free = s.free := by
  have hnoted : (s.peerNoted p i).free = s.free := by
    simp only [State.peerNoted, State.fset_free]
  rw [← hnoted]
  rfl

end

/-! ### Keying (R313, R384) -/

section
variable {s : State} {p : Nat} {m o : KeyOffer} {sig : List Nat}

theorem execKeyOffer_signs (hp : p < 6) (hstate : s.port p = 2) (hmine : (s.cport p).mine = some m) :
    exec (.keyOffer p o) s = .next ((s.setCport p { s.cport p with theirs := some o }).emit
      (.canopy p 4 (Config.ed448Sign s.keep.ak (offersDigest m o)))) := by
  have hport : ¬ 6 ≤ p := by omega
  simp [exec, execKeyOffer, hport, hstate, hmine]

/-- A port of which both ends hold both offers takes the keys. -/
def State.keyed (s : State) (p : Nat) (m o : KeyOffer) : State :=
  let k := linkKeys (s.cport p).secret m o (offersDigest m o)
  let x : CnpPort := { s.cport p with
    key := some k, prev := none, secret := 0, mine := none, theirs := none, keyedNs := s.ns
    idleOut := 0, idleIn := 0, idleOld := (s.cport p).idleIn, ackNs := s.ns }
  (((s.setCport p x).fset F.CNP_PORT_STATUS_KEY p (k.gen % 2)).setPort p 3).log { code := 0x1201, engine := p }

theorem next_ite_not {c : Bool} {t u : State} :
    (if (!c) = true then Host.Outcome.next u else .next t : Res) = .next (if c = true then t else u) := by
  cases c with
  | true => rfl
  | false => rfl

theorem execKeyConfirm_decides (hp : p < 6) (hstate : s.port p = 2) (hmine : (s.cport p).mine = some m)
    (htheirs : (s.cport p).theirs = some o) :
    exec (.keyConfirm p sig) s = .next (if keysOk s m o sig then s.keyed p m o else s.fencePort p 5) := by
  have hport : ¬ 6 ≤ p := by omega
  have hup : ((2 : Nat) == 3) = false := rfl
  have hrun : execKeyConfirm p sig s = if !keysOk s m o sig then .next (s.fencePort p 5) else .next (s.keyed p m o) := by
    simp only [execKeyConfirm, hport, hstate, hup, hmine, htheirs, keysOk, State.keyed, decide_false, beq_self_eq_true,
      Bool.true_or, Bool.not_true, Bool.or_self, Bool.false_eq_true, if_false]
  rw [exec, hrun]
  exact next_ite_not

theorem State.keyed_leaves (s : State) (p : Nat) (m o : KeyOffer) : (s.keyed p m o).port p = 3 ∧
    ((s.keyed p m o).cport p).key = some (linkKeys (s.cport p).secret m o (offersDigest m o)) ∧
    ((s.keyed p m o).cport p).secret = 0 ∧ ((s.keyed p m o).cport p).mine = none ∧ ((s.keyed p m o).cport p).theirs = none := by
  unfold State.keyed
  extract_lets k _ x
  have hport : (((s.setCport p x).fset F.CNP_PORT_STATUS_KEY p (k.gen % 2)).setPort p 3).cport p = x :=
    State.cport_setCport ..
  rw [State.cport_congr (State.log_cnp ..), hport, State.log_port]
  exact ⟨State.fget_fset_self .., rfl, rfl, rfl, rfl⟩

theorem execKeyRenewal_offers {k : LinkKey} (hp : p < 6) (hstate : s.port p = 3) (hkey : (s.cport p).key = some k)
    (hmine : (s.cport p).mine = none) (hdue : (s.cport p).keyedNs + 3600000000000 ≤ s.ns) :
    exec (.keyRenewal p) s = .next (s.sendOffer p (k.gen + 1)) := by
  have hport : ¬ 6 ≤ p := by omega
  have hlate : ¬ s.ns < (s.cport p).keyedNs + 3600000000000 := by omega
  simp [exec, execKeyRenewal, hport, hstate, hkey, hmine, hlate]

end

/-! ### Retries, losses and module faults (R308, R314, R451) -/

section
variable {s : State} {p cage : Nat}

theorem execFenceRetry_retries (hp : p < 6) (hstate : s.port p = 4) (hrun : s.cnp.running = true)
    (hdue : (s.cport p).fencedNs + 1000000000 ≤ s.ns) : exec (.fenceRetry p) s = .next (s.bringUp p) := by
  have hport : ¬ 6 ≤ p := by omega
  have hlate : ¬ s.ns < (s.cport p).fencedNs + 1000000000 := by omega
  simp [exec, execFenceRetry, hport, hstate, hrun, hlate]

/-- A used port that is neither keying nor up, in a cage that is not faulty, trains from nothing. -/
theorem State.bringUp_trains (hused : portUsed s.dims p = true) (hgood : s.cnp.faulty.contains (p / 2) = false)
    (hdown : s.port p ≠ 3 ∧ s.port p ≠ 2) :
    s.bringUp p = ((s.setCport p .empty).setPort p 1).fset F.CNP_PORT_STATUS_FENCE p 0 := by
  simp only [State.bringUp, hused, hgood, hdown, Bool.not_true, Bool.false_eq_true, if_false, decide_false, Bool.or_self]

theorem execPortDown_drops (hp : p < 6) (hstate : s.port p = 3) : exec (.portDown p) s = .next (s.dropPort p) := by
  simp [exec, execPortDown, hp, hstate]

/-- A cage that is faulty. -/
def State.cageFaulty (s : State) (cage : Nat) : State :=
  if s.cnp.faulty.contains cage then s else { s with cnp := { s.cnp with faulty := s.cnp.faulty ++ [cage] } }

/-- A port is fenced for its module, unless it is unused or down. -/
def State.faultPort (s : State) (p : Nat) : State := if s.port p = 5 || s.port p = 0 then s else s.fencePort p 6

theorem execModuleFault_fences (hcage : cage < 3) : exec (.moduleFault cage true) s =
    .next (((s.cageFaulty cage).faultPort (2 * cage)).faultPort (2 * cage + 1)) := by
  have hthree : ¬ 3 ≤ cage := by omega
  simp only [exec, execModuleFault, hthree, if_false, Bool.not_true, Bool.false_eq_true]
  rfl

theorem State.cageFaulty_leaves (s : State) (cage : Nat) : (s.cageFaulty cage).cnp.faulty.contains cage = true ∧
    (s.cageFaulty cage).fields = s.fields := by
  unfold State.cageFaulty
  split
  · next h => exact ⟨h, rfl⟩
  · exact ⟨by simp, rfl⟩

theorem State.faultPort_leaves (s : State) (p : Nat) :
    OnePort p (if s.port p = 5 || s.port p = 0 then s.port p else 4) s (s.faultPort p) ∧
    (¬ (s.port p = 5 || s.port p = 0) = true → (s.faultPort p).fget F.CNP_PORT_STATUS_FENCE p = 6) := by
  unfold State.faultPort
  obtain ⟨hport, hreason, -⟩ := s.fencePort_leaves p 6
  split
  · next h => exact ⟨.refl rfl, fun hn => absurd h hn⟩
  · exact ⟨hport, fun _ => hreason⟩

end

/-! ### CNP_COMMIT (R331) -/

section
variable {s : State}

/-- The fields that CNP_COMMIT applies. -/
def cnpLimits : List (Fld × Nat) :=
  [(F.CNP_CFG_ACK_TO_NS, 0), (F.CNP_CFG_RECEIPT_TO_US, 0), (F.CNP_DIGEST_CFG_PERIOD_MS, 0), (F.CNP_DIGEST_CFG_EN, 0)] ++
    (List.range 4).map (fun i => (F.CNP_DIGEST_PEERS_MASK, i))

theorem execCnpCommit_applies (ha : 1000 ≤ s.staging F.CNP_CFG_ACK_TO_NS 0 ∧ s.staging F.CNP_CFG_ACK_TO_NS 0 ≤ 10000)
    (hr : 4 ≤ s.staging F.CNP_CFG_RECEIPT_TO_US 0 ∧ s.staging F.CNP_CFG_RECEIPT_TO_US 0 ≤ 100)
    (hd : 10 ≤ s.staging F.CNP_DIGEST_CFG_PERIOD_MS 0 ∧ s.staging F.CNP_DIGEST_CFG_PERIOD_MS 0 ≤ 10000) :
    exec .cnpCommit s = .next (s.applyAll cnpLimits) := by
  simp only [exec, execCnpCommit, State.cnpCommit, ha, hr, hd, decide_true, Bool.and_self, if_true]
  rfl

theorem execCnpCommit_refuses (hr : s.staging F.CNP_CFG_RECEIPT_TO_US 0 < 4) :
    exec .cnpCommit s = .next ((s.flag F.CNP_STATUS_CFG_INVALID 0).log { code := 0x120B }) := by
  have hlow : ¬ 4 ≤ s.staging F.CNP_CFG_RECEIPT_TO_US 0 := by omega
  simp [exec, execCnpCommit, State.cnpCommit, hlow]

end

/-- Settles O41, command by command: `OnePort` says what each leaves of the six ports. -/
theorem canopyPortsTrainKeyAndFence : Obligations.canopy_ports_train_key_and_fence := by
  unfold Obligations.canopy_ports_train_key_and_fence
  refine ⟨?_, ?_, ?_, ?_, ?_, ?_, ?_, ?_, ?_, ?_, ?_, ?_, ?_, ?_, ?_⟩
  · intro s hreason
    obtain ⟨hports, hrun⟩ := ports_after (g := State.broughtUp) State.bringUp_onePort
      (fun u t p hport hdims hfaulty _ => by simp only [State.broughtUp, hport, hdims, hfaulty]) (s.runningSet true)
    exact ⟨_, execCnpStart_starts hreason, hrun, hports⟩
  · rintro s r rfl hreason
    refine ⟨_, execCnpStart_refuses hreason, ?_, ?_, State.log_cnp _ _⟩
    · rw [State.log_fget _ _ _ _ (by decide), State.fget_fset_of_code_ne _ (by decide), State.flag, State.fget_fset_self]
      rfl
    · rw [State.log_fget _ _ _ _ (by decide), State.fget_fset_self]
      exact Nat.mod_eq_of_lt s.cnpStartReason_lt
  · intro s
    obtain ⟨hports, hrun⟩ := ports_after (g := fun u p => if u.port p = 5 then 5 else if u.cnp.running then 1 else 0)
      State.stopPort_onePort (fun u t p hport _ _ hrun => by simp only [hport, hrun]) (s.runningSet false)
    exact ⟨_, execCnpStop_stops, hrun, hports⟩
  · intro s p hp hstate hnew
    exact ⟨_, execPortTrained_trains hp hstate hnew, congrArg CnpPort.trained (State.cport_setCport ..), rfl, rfl⟩
  · intro s p i hp hstate htrained hreason
    refine ⟨_, execInitFrame_runs hp hstate htrained, ?_⟩
    rw [hreason, if_neg (by decide)]
    obtain ⟨hvalid, hdevice, hrtt⟩ := s.peerNoted_fields p i
    obtain ⟨secret, o, -, hport, hgen, hcport, -⟩ := (s.keying p i).sendOffer_leaves p 0
    refine ⟨?_, ?_, ?_, ?_, ?_, ?_, ?_⟩
    · exact (State.sendOffer_fget ..).trans (s.keying_port p i)
    · rw [State.sendOffer_fget, State.keying_fget _ _ _ (by decide), hvalid]
    · rw [State.sendOffer_fget, State.keying_fget _ _ _ (by decide), hdevice]
    · rw [State.sendOffer_fget, State.keying_fget _ _ _ (by decide), hrtt]
    · rw [hcport, ← s.keying_credit p i]
    · rw [hcport, ← hgen]
      show some (o.port, o.gen) = some (p, o.gen)
      rw [hport]
    · rw [State.sendOffer_free, State.keying_free]
  · rintro s p r i hp hstate htrained rfl hreason
    refine ⟨_, execInitFrame_runs hp hstate htrained, ?_⟩
    rw [if_pos (bne_iff_ne.mpr hreason)]
    obtain ⟨hport, hfence, hseen, hcport⟩ := (s.initSent p i).fencePort_leaves p (s.initReason p i)
    refine ⟨hport.state, hfence.trans (Nat.mod_eq_of_lt ?_), hseen, by rw [hcport]; rfl⟩
    exact s.initReason_lt p i
  · intro s p m o hp hstate hmine
    refine ⟨_, execKeyOffer_signs hp hstate hmine, ?_, ?_, rfl, rfl⟩
    · exact (congrArg CnpPort.mine (State.cport_setCport (s := s) ..)).trans hmine
    · exact congrArg CnpPort.theirs (State.cport_setCport (s := s) ..)
  · intro s p m o sig hp hstate hmine htheirs
    refine ⟨_, execKeyConfirm_decides hp hstate hmine htheirs, fun hok => ?_, fun hok => ?_⟩
    · rw [if_pos hok]
      exact s.keyed_leaves p m o
    · rw [hok, if_neg Bool.false_ne_true]
      obtain ⟨hport, hfence, -, hcport⟩ := s.fencePort_leaves p 5
      exact ⟨hport.state, hfence, by rw [hcport]; rfl⟩
  · intro s p k hp hstate hkey hmine hdue
    obtain ⟨secret, o, hdev, hport, hgen, hcport, honly⟩ := s.sendOffer_leaves p (k.gen + 1)
    refine ⟨_, execKeyRenewal_offers hp hstate hkey hmine hdue, ?_, by rw [hcport]; exact hkey, by rw [honly]; exact hstate, honly⟩
    show ((((s.sendOffer p (k.gen + 1)).cport p).mine).map fun o => (o.device, o.port, o.gen)) = some (s.me, p, k.gen + 1)
    rw [hcport, ← hdev, ← hgen]
    show some (o.device, o.port, o.gen) = some (o.device, p, o.gen)
    rw [hport]
  · intro s p hp hstate hrun hdue hused hgood
    refine ⟨_, execFenceRetry_retries hp hstate hrun hdue, ?_⟩
    rw [State.bringUp_trains hused hgood (by omega)]
    refine ⟨?_, State.fget_fset_self .., congrArg CnpPort.key (State.cport_setCport (s := s) ..)⟩
    rw [State.port, State.fget_fset_of_code_ne _ (by decide)]
    exact State.fget_fset_self ..
  · intro s p hp hstate
    obtain ⟨hport, hvalid, hcport⟩ := s.dropPort_leaves p
    refine ⟨_, execPortDown_drops hp hstate, hport.state, ?_, ?_, ?_, hvalid⟩
    all_goals rw [hcport]; rfl
  · intro s cage hcage
    obtain ⟨hfirst, hreason⟩ := (s.cageFaulty cage).faultPort_leaves (2 * cage)
    obtain ⟨hsecond, hreason'⟩ := ((s.cageFaulty cage).faultPort (2 * cage)).faultPort_leaves (2 * cage + 1)
    have hold : ∀ q, (s.cageFaulty cage).port q = s.port q := fun q =>
      Reads.of_fields (l := []) (s.cageFaulty_leaves cage).2 _ q rfl
    refine ⟨_, execModuleFault_fences hcage, ?_, ?_⟩
    · rw [hsecond.faulty, hfirst.faulty]
      exact (s.cageFaulty_leaves cage).1
    · simp only [List.all_cons, List.all_nil, Bool.and_true, Bool.and_eq_true]
      have hne : 2 * cage ≠ 2 * cage + 1 := by omega
      refine ⟨?_, ?_⟩
      · rw [hsecond.others _ hne, hsecond.reasons _ hne, hfirst.state, ← hold (2 * cage)]
        split
        · exact beq_self_eq_true _
        · next hup => rw [hreason hup]; rfl
      · have hport : s.port (2 * cage + 1) = ((s.cageFaulty cage).faultPort (2 * cage)).port (2 * cage + 1) := by
          rw [hfirst.others _ hne.symm, hold]
        rw [hsecond.state, hport]
        split
        · exact beq_self_eq_true _
        · next hup => rw [hreason' hup]; rfl
  · intro s cage hcage
    have hthree : ¬ 3 ≤ cage := by omega
    exact ⟨_, by simp only [exec, execModuleFault, hthree, if_false, Bool.not_false, if_true], rfl⟩
  · rintro s a r d rfl rfl rfl ⟨ha, ha', hr, hr', hd, hd'⟩
    have hdistinct : (cnpLimits.map fun p => p.1.key p.2).Nodup := by decide
    refine ⟨_, execCnpCommit_applies ⟨ha, ha'⟩ ⟨hr, hr'⟩ ⟨hd, hd'⟩, ?_, ?_, ?_, (State.applyAll_onlyFields s cnpLimits).1⟩
    · rw [State.applyAll_fget hdistinct (by decide)]
      exact Nat.mod_eq_of_lt (lt_of_le_of_lt ha' (by decide))
    · rw [State.applyAll_fget hdistinct (by decide)]
      exact Nat.mod_eq_of_lt (lt_of_le_of_lt hr' (by decide))
    · rw [State.applyAll_fget hdistinct (by decide)]
      exact Nat.mod_eq_of_lt (lt_of_le_of_lt hd' (by decide))
  · intro s hr
    refine ⟨_, execCnpCommit_refuses hr, ?_, ?_⟩
    · exact State.flag_log_fget s F.CNP_STATUS_CFG_INVALID 0 _ rfl (by decide)
    · exact State.flag_log_fget_ne s 0 _ (by decide) (by decide)

end Sys2Proof.Machine

/-! SUPPORT. Frames, receipts, digests and retractions between devices (R312, R313, R317, R329, R330, R356): what a port
keeps count of, and what each command leaves. -/

namespace Sys2Proof.Machine

-- One proof after the other: proofs elaborated side by side each take a stack of their own, and the text as a whole is
-- compiled close to its memory limit.
set_option Elab.async false

/-! ### What a port has received in order, and the frames in a row that failed -/

section
variable {s t : State} {p q n : Nat}

/-- The data frames that a port received in order, and the frames in a row that failed. -/
def CnpPort.inOrder (x : CnpPort) : Nat × Nat := (x.received, x.bad)

/-- A port that keeps both counts. -/
def KeepsOrder (p : Nat) (s t : State) : Prop := (t.cport p).inOrder = (s.cport p).inOrder

theorem KeepsOrder.refl (s : State) : KeepsOrder p s s := rfl

theorem KeepsOrder.trans {u : State} (h : KeepsOrder p s t) (h' : KeepsOrder p t u) : KeepsOrder p s u := Eq.trans h' h

theorem KeepsOrder.of_cnp (h : t.cnp = s.cnp) : KeepsOrder p s t := by
  rw [KeepsOrder, State.cport_congr h]

theorem KeepsOrder.ite {c : Prop} [Decidable c] {u : State} (h : KeepsOrder p s t) (h' : KeepsOrder p s u) :
    KeepsOrder p s (if c then t else u) := by
  split
  · exact h
  · exact h'

theorem State.cport_setCport_ne (s : State) (x : CnpPort) (h : p ≠ q) : (s.setCport q x).cport p = s.cport p :=
  Tab.getD_set_ne _ _ _ h

theorem KeepsOrder.setCport {x : CnpPort} (h : x.inOrder = (s.cport q).inOrder) : KeepsOrder p s (s.setCport q x) := by
  by_cases hpq : p = q
  · rw [hpq, KeepsOrder, State.cport_setCport, h]
  · rw [KeepsOrder, State.cport_setCport_ne _ _ hpq]

theorem State.forward_keepsOrder (s : State) (q idx : Nat) (h : List Nat) (body : List (List Nat)) :
    KeepsOrder p s (s.forward q idx h body) := by
  unfold State.forward
  split
  · exact .of_cnp ((State.count_chg ..).cnp.resolve_left (by decide))
  · split
    · exact .of_cnp ((State.noRoute_chg s).cnp.resolve_left (by decide))
    · exact .setCport rfl

theorem State.peerPacket_keepsOrder (s : State) (typ : PktType) (h payload : List Nat) :
    KeepsOrder p s (s.peerPacket typ h payload) := by
  unfold State.peerPacket
  extract_lets dev q seg key old _ _ s1
  split
  · exact .of_cnp ((State.digestErr_chg ..).cnp.resolve_left (by decide))
  · split
    · exact .refl s
    · split
      · have hparts : KeepsOrder p s s1 := rfl
        exact hparts.trans (.of_cnp ((State.deliverPeer_chg s1 _).cnp.resolve_left (by decide)))
      · exact rfl

/-- Taking whole packets leaves both counts of the port. -/
theorem State.takePackets_keepsOrder (s : State) (q idx fuel : Nat) : KeepsOrder p s (s.takePackets q idx fuel) := by
  induction fuel generalizing s with
  | zero => exact .refl s
  | succ fuel ih =>
    unfold State.takePackets
    extract_lets x
    split
    · exact .refl s
    · next h rest _ =>
      extract_lets n s1 body s2
      have h1 : KeepsOrder p s s1 := .setCport rfl
      have h2 : KeepsOrder p s1 s2 := by
        unfold s2
        split
        · exact .of_cnp ((State.count_chg ..).cnp.resolve_left (by decide))
        · split
          · exact s1.peerPacket_keepsOrder ..
          · exact s1.forward_keepsOrder ..
      split
      · exact .refl s
      · exact (h1.trans h2).trans (ih s2)

end

/-! ### Frames (R312, R313) -/

section
variable {s : State} {p : Nat} {b : List Nat}

/-- Short of 64 in a row, a frame that fails is counted, and asked for again once for each gap. -/
theorem State.badFrame_counts (h : (s.cport p).bad < 63) : s.badFrame p = s.setCport p { s.cport p with
    bad := (s.cport p).bad + 1, nak := (s.cport p).nak || !(s.cport p).gap, gap := true } := by
  have hfew : ¬ 64 ≤ (s.cport p).bad + 1 := by omega
  simp only [State.badFrame, if_neg hfew]

/-- The bytes of a frame are taken as they are. -/
theorem frame_bytes (hlen : b.length = 300) (hbytes : b.all (fun v => decide (v < 256)) = true) :
    (slice b 0 300).map (fun v => v % 256) = b := by
  refine List.ext_getElem (by simp [slice, hlen]) fun i hi hi' => ?_
  have hlt : b[i] < 256 := of_decide_eq_true (List.all_eq_true.mp hbytes _ (List.getElem_mem hi'))
  simp [slice, List.getElem?_eq_getElem hi', Nat.mod_eq_of_lt hlt]

/-- A frame whose CRC differs. -/
theorem execCnpFrameRx_badCrc (hp : p < 6) (hup : s.port p = 3) (hlen : b.length = 300)
    (hbytes : b.all (fun v => decide (v < 256)) = true) (hkind : b.getD 6 0 % 4 ≠ 2)
    (hcrc : crc32 (slice b 0 296) ≠ leAt b 296 4) :
    exec (.cnpFrameRx p b) s = .next (((s.setCport p ((s.cport p).idleSeen (b.getD 6 0 % 4) (bits (b.getD 6 0) 3 1))).count
      C.CNP_CNT_CRC 0).badFrame p) := by
  have hport : ¬ 6 ≤ p := by omega
  have hbad : (crc32 (slice b 0 296) != leAt b 296 4) = true := bne_iff_ne.mpr hcrc
  have hkind' : (b.getD 6 0 % 4 == 2) = false := beq_eq_false_iff_ne.mpr hkind
  rw [exec, execCnpFrameRx, frame_bytes hlen hbytes]
  simp only [hport, hup, hkind', hbad, decide_false, bne_self_eq_false, Bool.or_self, Bool.false_eq_true, if_false, if_true]

/-- A data frame that is authentic and whole: it is taken in order. -/
def State.frameTaken (s : State) (p : Nat) (x : CnpPort) (b plain : List Nat) : State :=
  let idx := 2 * (b.getD 7 0 % 4) + bits (b.getD 7 0) 2 1
  let fs := (List.range (Nat.min 4 (bits (b.getD 7 0) 3 3))).map (fun i => slice plain (64 * i) 64)
  let y : CnpPort := { x with
    received := x.received + 1, gap := false, ackDue := true, rx := Tab.set x.rx idx (Tab.getD x.rx idx [] ++ fs) }
  ((s.setCport p y).frameBack p b).takePackets p idx 520

/-- A number with SEQ equal to the count of frames received, which has not wrapped, is that count (R312). -/
theorem CnpPort.extend_received {x : CnpPort} (h : x.received < 2 ^ 24) : x.extend x.received = x.received := by
  have hzero : (x.received + 2 ^ 24 - x.received % 2 ^ 24) % 2 ^ 24 = 0 := by
    rw [Nat.mod_eq_of_lt h]
    omega
  unfold CnpPort.extend
  extract_lets d
  have hd : d = 0 := hzero
  rw [hd, if_pos (by decide), Nat.add_zero]

theorem next_ite_bne {a b : Nat} {t u : State} :
    (if (a != b) = true then Host.Outcome.next t else .next u : Res) = .next (if a = b then u else t) := by
  by_cases h : a = b
  · rw [if_pos h, h, bne_self_eq_false, if_neg Bool.false_ne_true]
  · rw [if_neg h, if_pos (bne_iff_ne.mpr h)]

/-- A data frame with a good CRC that is next in order, under a key that the port has. -/
theorem execCnpFrameRx_inOrder {k : LinkKey} (hp : p < 6) (hup : s.port p = 3) (hlen : b.length = 300)
    (hbytes : b.all (fun v => decide (v < 256)) = true) (hkind : b.getD 6 0 = 1)
    (hcrc : crc32 (slice b 0 296) = leAt b 296 4) (hkey : (s.cport p).keyFor 0 = some k)
    (hseq : leAt b 0 3 = (s.cport p).received) (hwrap : (s.cport p).received < 2 ^ 24) :
    exec (.cnpFrameRx p b) s = .next
      ((Config.gcmOpen k.rx (frameNonce k.rxSalt (s.cport p).received) (slice b 0 16) (slice b 16 280)).elim
        ((s.setCport p (s.cport p)).badTag p)
        fun plain => if parityWord (slice plain 0 256) = leAt plain 256 8
          then (s.setCport p (s.cport p)).frameTaken p (s.cport p) b plain
          else ((s.setCport p (s.cport p)).count C.CNP_CNT_CRC 0).badFrame p) := by
  have hport : ¬ 6 ≤ p := by omega
  have hgood : (crc32 (slice b 0 296) != leAt b 296 4) = false := by rw [hcrc]; exact bne_self_eq_false _
  have hnext : (leAt b 0 3 != (s.cport p).received % 2 ^ 24) = false := by
    rw [hseq, Nat.mod_eq_of_lt hwrap]
    exact bne_self_eq_false _
  have hnumber : (s.cport p).extend (leAt b 0 3) = (s.cport p).received := by rw [hseq, CnpPort.extend_received hwrap]
  have hseen : (s.cport p).idleSeen (1 % 4) 0 = s.cport p := rfl
  have hgen : bits 1 3 1 = 0 := rfl
  rw [exec, execCnpFrameRx, frame_bytes hlen hbytes]
  simp only [hport, hup, hkind, hgood, hgen, hseen, hkey, hnext, hnumber, decide_false, bne_self_eq_false, Bool.or_self,
    Bool.false_eq_true, if_false]
  rw [if_neg (by decide)]
  simp only [if_true]
  generalize Config.gcmOpen k.rx (frameNonce k.rxSalt (s.cport p).received) (slice b 0 16) (slice b 16 280) = opened
  cases opened with
  | none => rfl
  | some plain =>
    rw [Option.elim_some]
    exact next_ite_bne

/-- ACK, credits and a frame that does not ask for others again: no frame has failed since. -/
theorem State.frameBack_clears (hnak : bit (b.getD 6 0) 2 = false) :
    ((s.frameBack p b).cport p).inOrder = ((s.cport p).received, 0) := by
  unfold State.frameBack
  extract_lets x ack left add cr old s1
  rw [hnak, if_neg Bool.false_ne_true]
  exact congrArg CnpPort.inOrder (State.cport_setCport ..)

/-- A frame taken in order counts as one more, and no frame has failed since. -/
theorem State.frameTaken_inOrder {plain : List Nat} {x : CnpPort} (hkind : b.getD 6 0 = 1) :
    ((s.frameTaken p x b plain).cport p).inOrder = (x.received + 1, 0) := by
  have hnak : bit (b.getD 6 0) 2 = false := by rw [hkind]; rfl
  unfold State.frameTaken
  extract_lets idx fs y
  have hback : (((s.setCport p y).frameBack p b).cport p).inOrder = (((s.setCport p y).cport p).received, 0) :=
    State.frameBack_clears hnak
  rw [State.takePackets_keepsOrder, hback, State.cport_setCport]

theorem State.badFrame_leaves (h : (s.cport p).bad < 63) : ((s.badFrame p).cport p).bad = (s.cport p).bad + 1 ∧
    ((s.badFrame p).cport p).received = (s.cport p).received ∧ ((s.badFrame p).cport p).authFails = (s.cport p).authFails ∧
    ((s.cport p).gap = false → ((s.badFrame p).cport p).nak = true) ∧ (s.badFrame p).fab = s.fab ∧
    (s.badFrame p).fields = s.fields := by
  rw [State.badFrame_counts h, State.cport_setCport]
  refine ⟨rfl, rfl, rfl, fun hgap => ?_, rfl, rfl⟩
  show ((s.cport p).nak || !(s.cport p).gap) = true
  rw [hgap]
  exact Bool.or_true _

/-- A first failed tag is noted, and the frame fails. -/
theorem State.badTag_leaves (hauth : (s.cport p).authFails = []) (hbad : (s.cport p).bad < 63) :
    ((s.badTag p).cport p).authFails = [s.ns] ∧ ((s.badTag p).cport p).received = (s.cport p).received := by
  unfold State.badTag
  extract_lets s1 s2 x fs s3
  have hlog := State.logRate_chg s1 1000000 p { code := 0x1204, engine := p }
  have hcount := State.count_chg s C.CNP_CNT_AUTH 0
  have hx : x = s.cport p :=
    State.cport_congr ((hlog.cnp.resolve_left (by decide)).trans (hcount.cnp.resolve_left (by decide))) p
  have hns : s2.ns = s.ns := (hlog.ns.resolve_left (by decide)).trans (hcount.ns.resolve_left (by decide))
  have hfs : fs = [s.ns] := by
    unfold fs
    rw [hx, hauth, hns]
    rfl
  have hcport : s3.cport p = { s.cport p with authFails := [s.ns] } := by
    unfold s3
    rw [State.cport_setCport, hx, hfs]
  obtain ⟨-, hreceived, hauths, -⟩ := State.badFrame_leaves (s := s3) (p := p) (by rw [hcport]; exact hbad)
  rw [hfs, if_neg (by simp), hreceived, hauths, hcport]
  exact ⟨rfl, rfl⟩

end

/-! ### Sending again (R312, R317) -/

section
variable {s : State} {p k : Nat} {q : Packet}

theorem execCnpAckTimeout_resends (hp : p < 6) (hup : s.port p = 3) (hleft : (s.cport p).unacked ≠ [])
    (hdue : (s.cport p).ackNs + s.fget F.CNP_CFG_ACK_TO_NS 0 ≤ s.ns) :
    exec (.cnpAckTimeout p) s = .next (s.resendFrames p) := by
  have hport : ¬ 6 ≤ p := by omega
  have hlate : ¬ s.ns < (s.cport p).ackNs + s.fget F.CNP_CFG_ACK_TO_NS 0 := by omega
  simp [exec, execCnpAckTimeout, hport, hup, hleft, hlate]

theorem State.foldl_emit {α : Type} (g : α → Out) (l : List α) (s : State) :
    l.foldl (fun s x => s.emit (g x)) s = { s with out := s.out ++ l.map g } := by
  induction l generalizing s with
  | nil => simp
  | cons x l ih =>
    rw [List.foldl_cons, ih]
    simp [State.emit]

theorem State.countN_fget_self (s : State) (c : Ctr) (i n : Nat) : (s.countN c i n).fget c.cnt i =
    if s.fon c.frz i then s.fget c.cnt i else min 0xFFFFFFFF (s.fget c.cnt i + n) % 2 ^ c.cnt.width := by
  unfold State.countN State.countAt
  split
  · rfl
  · exact State.fget_fset_self _ _ _ _

theorem State.resendFrames_leaves (s : State) (p : Nat) :
    (s.resendFrames p).out = s.out ++ (s.cport p).unacked.map (fun f => Out.canopy p 1 f.2) ∧
    ((s.resendFrames p).cport p).unacked = (s.cport p).unacked ∧ ((s.resendFrames p).cport p).ackNs = s.ns ∧
    Counted C.CNP_CNT_RETX 0 (s.cport p).unacked.length s (s.resendFrames p) := by
  unfold State.resendFrames
  extract_lets x s1 s2
  have hcount := State.countN_chg s C.CNP_CNT_RETX 0 x.unacked.length
  have h2 : s2 = { s1 with out := s1.out ++ x.unacked.map fun f => Out.canopy p 1 f.2 } :=
    State.foldl_emit (fun f : Nat × List Nat => Out.canopy p 1 f.2) x.unacked s1
  have hout : s1.out = s.out := hcount.out.resolve_left (by decide)
  have hns : s2.ns = s.ns := by
    rw [h2]
    exact hcount.ns.resolve_left (by decide)
  have hfields : s2.fields = s1.fields := by rw [h2]
  refine ⟨?_, ?_, ?_, ?_⟩
  · show s2.out = _
    rw [h2, ← hout]
  · rw [State.cport_setCport]
  · rw [State.cport_setCport]
    exact hns
  · rw [Counted, ← State.countN_fget_self]
    exact Reads.of_fields (l := []) hfields _ _ rfl

theorem execCnpReceiptTimeout_resends (hheld : s.fab.held.find? (fun x => x.key == k) = some q) (hremote : q.remote = true)
    (hdue : q.sentNs + s.fget F.CNP_CFG_RECEIPT_TO_US 0 * 1000 ≤ s.ns) (hfirst : q.retx = false) :
    exec (.cnpReceiptTimeout k) s = .next (s.resend q) := by
  have hlate : ¬ s.ns < q.sentNs + s.fget F.CNP_CFG_RECEIPT_TO_US 0 * 1000 := by omega
  simp [exec, execCnpReceiptTimeout, hheld, hremote, hlate, hfirst]

end

/-! ### Retractions and digests (R329, R330, R356) -/

section
variable {s : State} {k : Nat} {p : Packet} {m : Model}

/-- The number under which a retraction is noted: its origin, and its number there. -/
def Packet.retractKey (p : Packet) : Nat := p.payload.getD 4 0 * 2 ^ 32 + leAt p.payload 0 4

theorem execCnpRetraction_again (hp : s.packet k = some p) (htyp : p.typ = .retraction) (hbehind : s.behindSends p = false)
    (happlied : (Tab.find s.rel.applied p.retractKey).isSome = true) :
    exec (.cnpRetraction k) s = .next ((s.unpost k).receipt p false) := by
  have hguard : (p.typ != .retraction || s.behindSends p) = false := by simp [htyp, hbehind]
  have hnoted : (Tab.find (s.unpost k).rel.applied (p.payload.getD 4 0 * 2 ^ 32 + leAt p.payload 0 4)).isSome = true :=
    happlied
  rw [exec, execCnpRetraction, hp]
  simp only [hguard, hnoted, Bool.false_eq_true, if_false, if_true]

/-- The retractions that were applied are the same. -/
def SameApplied (s t : State) : Prop := t.rel.applied = s.rel.applied

theorem State.storeFault_sameApplied (s : State) (f : Nat) (b : List Nat) : SameApplied s (s.storeFault f b) := by
  unfold State.storeFault
  extract_lets n b s1 src s2 s3 ps
  have hrel : s1.rel = s.rel := by
    unfold s1
    split
    · exact ((State.log_chg ..).rel.resolve_left (by decide)).trans ((State.count_chg ..).rel.resolve_left (by decide))
    · rfl
  exact (congrArg Rel.applied hrel :)

theorem State.putFaults_sameApplied (s : State) (f : Nat) (h : Fault256) (retr esc : Bool) (n seq : Nat)
    (es : List (List Nat)) : SameApplied s (s.putFaults f h retr esc n seq es) := by
  induction n generalizing s seq es with
  | zero => rfl
  | succ n ih =>
    unfold State.putFaults
    extract_lets rest lost s1
    have h1 : SameApplied s s1 := s.storeFault_sameApplied f _
    split
    · exact h1
    · exact (ih s1 (seq + 1) rest).trans h1

/-- A fault record leaves the retractions that were applied. -/
theorem State.faultAwait_sameApplied (s : State) (h : Fault256) (es : List (List Nat)) (lanes : List Nat) :
    SameApplied s (s.faultAwait h es lanes) :=
  State.putFaults_sameApplied { s with rel := { s.rel with nextFault := s.rel.nextFault + 1 } } _ _ _ _ _ _ _

/-- A retraction is noted as applied. -/
def State.retractNoted (s : State) (k : Nat) (p : Packet) : State :=
  { s.unpost k with rel := { s.rel with applied := Tab.set s.rel.applied p.retractKey 1 } }

/-- A new retraction is noted, and what it does beyond leaves what was applied. -/
theorem execCnpRetraction_new (hp : s.packet k = some p) (htyp : p.typ = .retraction) (hbehind : s.behindSends p = false)
    (hnew : Tab.find s.rel.applied p.retractKey = none) :
    ∃ t, exec (.cnpRetraction k) s = .next t ∧ SameApplied (s.retractNoted k p) t := by
  have hnoted : (Tab.find (s.unpost k).rel.applied (p.payload.getD 4 0 * 2 ^ 32 + leAt p.payload 0 4)).isSome = false := by
    rw [show Tab.find (s.unpost k).rel.applied (p.payload.getD 4 0 * 2 ^ 32 + leAt p.payload 0 4) = none from hnew]
    rfl
  have hguard : (p.typ != .retraction || s.behindSends p) = false := by simp [htyp, hbehind]
  rw [exec, execCnpRetraction, hp]
  simp only [hguard, hnoted, Bool.false_eq_true, if_false]
  have hconvict : SameApplied (s.retractNoted k p) ((s.retractNoted k p).convictLane p.lane (leAt p.payload 12 6)
      (leAt p.payload 18 6)).1 :=
    congrArg Rel.applied ((State.convictLane_chg ..).rel.resolve_left (by decide))
  split
  · exact ⟨_, rfl, (congrArg Rel.applied ((State.receipt_chg ..).rel.resolve_left (by decide))).trans
      ((State.faultAwait_sameApplied ..).trans hconvict)⟩
  · exact ⟨_, rfl, (congrArg Rel.applied ((State.receipt_chg ..).rel.resolve_left (by decide))).trans
      ((State.faultAwait_sameApplied ..).trans
        ((congrArg Rel.applied ((State.toPeer_chg ..).rel.resolve_left (by decide))).trans hconvict))⟩

theorem execModelDigestPacket_compares (hp : s.packet k = some p) (htyp : p.typ = .digest) (hup : s.mgmt.down = false)
    (hmodel : s.models.find? (fun x => x.id == p.model && x.gen == leAt p.payload 0 4 && !x.digest.isEmpty) = some m) :
    exec (.modelDigestPacket k) s = .next (if m.digest = slice p.payload 64 64 then s.unpost k
      else (((s.unpost k).flag F.CNP_STATUS_DIGEST_DIFF_SEEN 0).log
        { code := 0x1208, context := m.context, argA := p.dev, argB := ((s.unpost k).flag F.CNP_STATUS_DIGEST_DIFF_SEEN 0).me }).setModel
          { m with verifying := true }) := by
  have hmodel' : (s.unpost k).models.find? (fun x => x.id == p.model && x.gen == leAt p.payload 0 4 && !x.digest.isEmpty) =
      some m := hmodel
  simp only [exec, execModelDigestPacket, hp, htyp, hup, hmodel', bne_self_eq_false, Bool.or_self, Bool.false_eq_true, if_false]
  split
  · rfl
  · rfl

/-- The devices with which this one exchanges digests (R329). -/
def State.digestDevices (s : State) : List Nat :=
  (List.range 128).filter fun d => d != s.me && bit (s.fget F.CNP_DIGEST_PEERS_MASK (d / 32)) (d % 32)

/-- When the period has passed, the digest of a model goes to each of these devices. -/
theorem execModelDigestTimer_sends (hup : s.mgmt.down = false) (hen : s.fget F.CNP_DIGEST_CFG_EN 0 = 1)
    (hdue : s.cnp.digestNs + s.fget F.CNP_DIGEST_CFG_PERIOD_MS 0 * 1000000 ≤ s.ns) (hone : s.models = [m]) (hdigest : m.digest ≠ []) :
    ∃ g : State → Nat → Packet, exec .modelDigestTimer s =
      .next (s.digestDevices.foldl (fun s d => s.toPeer (g s d)) { s with cnp := { s.cnp with digestNs := s.ns } }) := by
  have hon : s.fon F.CNP_DIGEST_CFG_EN 0 = true := by rw [State.fon, hen]; rfl
  have hlate : decide (s.ns < s.cnp.digestNs + s.fget F.CNP_DIGEST_CFG_PERIOD_MS 0 * 1000000) = false :=
    decide_eq_false (by omega)
  have hfilter : s.models.filter (fun m => !m.digest.isEmpty) = [m] := by
    rw [hone, List.filter_singleton, List.isEmpty_eq_false_iff.mpr hdigest]
    rfl
  refine ⟨?_, ?_⟩
  rotate_left
  · rw [exec, execModelDigestTimer]
    simp only [hup, hon, hlate, hfilter, Bool.not_true, Bool.or_self, Bool.false_eq_true, if_false, List.foldl_cons, List.foldl_nil]
    rfl

theorem State.flag_log_models (s : State) (f : Fld) (i : Nat) (e : Ev) : ((s.flag f i).log e).models = s.models :=
  (State.log_chg ..).models.resolve_left (by decide)

/-- Sending one packet to each device of a list. -/
theorem State.foldl_toPeer {α : Type} {g : State → α → Packet} (l : List α) (s : State) :
    (l.foldl (fun s d => s.toPeer (g s d)) s).fab.canopy.length = s.fab.canopy.length + l.length ∧
    l.foldl (fun s d => s.toPeer (g s d)) s = { s with fab := (l.foldl (fun s d => s.toPeer (g s d)) s).fab } := by
  induction l generalizing s with
  | nil => exact ⟨rfl, rfl⟩
  | cons d l ih =>
    obtain ⟨hlen, honly⟩ := ih (s.toPeer (g s d))
    refine ⟨?_, honly⟩
    rw [List.foldl_cons, hlen, List.length_cons]
    show (s.fab.canopy ++ [_]).length + l.length = _
    rw [List.length_append, List.length_singleton]
    omega

end

section
variable {s : State} {p : Nat} {b : List Nat}

theorem CnpPort.idleSeen_keeps (x : CnpPort) (kind gen : Nat) : (x.idleSeen kind gen).bad = x.bad ∧
    (x.idleSeen kind gen).received = x.received ∧ (x.idleSeen kind gen).gap = x.gap := by
  unfold CnpPort.idleSeen
  split
  · exact ⟨rfl, rfl, rfl⟩
  · split
    · exact ⟨rfl, rfl, rfl⟩
    · exact ⟨rfl, rfl, rfl⟩

/-- A frame whose CRC differs is counted, the port's frames that failed go up by one, and it asks for the frame again. -/
theorem badCrc_counts {x : CnpPort} (hbad : x.bad = (s.cport p).bad) (hreceived : x.received = (s.cport p).received)
    (hgap : x.gap = (s.cport p).gap) (hfew : (s.cport p).bad < 63) :
    let t := ((s.setCport p x).count C.CNP_CNT_CRC 0).badFrame p
    Counted C.CNP_CNT_CRC 0 1 s t ∧ (t.cport p).bad = (s.cport p).bad + 1 ∧ (t.cport p).received = (s.cport p).received ∧
      ((s.cport p).gap = false → (t.cport p).nak = true) ∧ t.fab = s.fab := by
  intro t
  have hcount := State.count_chg (s.setCport p x) C.CNP_CNT_CRC 0
  have hx : ((s.setCport p x).count C.CNP_CNT_CRC 0).cport p = x :=
    (State.cport_congr (hcount.cnp.resolve_left (by decide)) p).trans (State.cport_setCport ..)
  obtain ⟨hbad', hreceived', -, hnak, hfab, hfields⟩ :=
    State.badFrame_leaves (s := (s.setCport p x).count C.CNP_CNT_CRC 0) (p := p) (by rw [hx, hbad]; exact hfew)
  rw [hx] at hbad' hreceived' hnak
  have hbefore : Reads [] s (s.setCport p x) := Reads.of_fields rfl
  have hafter : Reads [] ((s.setCport p x).count C.CNP_CNT_CRC 0) t := Reads.of_fields hfields
  refine ⟨Counted.of_reads hbefore hafter rfl rfl, ?_, ?_, fun h => hnak (hgap.trans h),
    hfab.trans (hcount.fab.resolve_left (by decide))⟩
  · rw [hbad', hbad]
  · rw [hreceived', hreceived]

end

/-- What holds of each answer, by the cases of an optional value and of a condition on it, holds of the answer taken. -/
theorem elim_ite_holds {α : Type} {c : α → Prop} [DecidablePred c] {P Q R : State → Bool} {u : State} {f g : α → State}
    (o : Option α) (hu : P u = true) (hf : ∀ v, c v → Q (f v) = true) (hg : ∀ v, ¬ c v → R (g v) = true) :
    (o.elim (P (o.elim u fun v => if c v then f v else g v))
      fun v => if c v then Q (o.elim u fun v => if c v then f v else g v) else R (o.elim u fun v => if c v then f v else g v)) =
      true := by
  cases o with
  | none => exact hu
  | some v =>
    simp only [Option.elim_some]
    split
    · next h => exact hf v h
    · next h => exact hg v h

/-- Settles O42: a frame with a bad CRC and a frame in order by what a port keeps count of, sending again by the packets
kept for it, a retraction by the table of those that were applied. -/
theorem canopyFramesAndReceipts : Obligations.canopy_frames_and_receipts := by
  unfold Obligations.canopy_frames_and_receipts
  refine ⟨?_, ?_, ?_, ?_, ?_, ?_, ?_, ?_⟩
  · intro s p b hp hup hlen hbytes hkind hcrc hfew
    obtain ⟨hbad, hreceived, hgap⟩ := CnpPort.idleSeen_keeps (s.cport p) (b.getD 6 0 % 4) (bits (b.getD 6 0) 3 1)
    exact ⟨_, execCnpFrameRx_badCrc hp hup hlen hbytes hkind hcrc, badCrc_counts hbad hreceived hgap hfew⟩
  · intro s p b k hp hup hlen hbytes hkind hcrc hkey hseq hwrap hfew hauth
    refine ⟨_, execCnpFrameRx_inOrder hp hup hlen hbytes hkind hcrc hkey hseq hwrap, ?_⟩
    have hsame : (s.setCport p (s.cport p)).cport p = s.cport p := State.cport_setCport ..
    refine elim_ite_holds (c := fun x => parityWord (slice x 0 256) = leAt x 256 8)
      (P := fun t => decide ((t.cport p).received = (s.cport p).received) && decide ((t.cport p).authFails = [s.ns]))
      (Q := fun t => decide ((t.cport p).received = (s.cport p).received + 1) && decide ((t.cport p).bad = 0))
      (R := fun t => decide ((t.cport p).received = (s.cport p).received) && decide ((t.cport p).bad = (s.cport p).bad + 1))
      _ ?_ ?_ ?_
    · obtain ⟨hauths, hreceived⟩ := State.badTag_leaves (s := s.setCport p (s.cport p)) (p := p) (by rw [hsame, hauth])
        (by rw [hsame]; exact hfew)
      rw [hsame] at hreceived
      rw [Bool.and_eq_true, decide_eq_true_iff, decide_eq_true_iff]
      exact ⟨hreceived, hauths⟩
    · intro plain _
      have horder := State.frameTaken_inOrder (s := s.setCport p (s.cport p)) (p := p) (x := s.cport p) (plain := plain) hkind
      rw [Bool.and_eq_true, decide_eq_true_iff, decide_eq_true_iff]
      exact Prod.mk.inj horder
    · intro plain _
      obtain ⟨-, hbad, hreceived, -⟩ := badCrc_counts (x := s.cport p) rfl rfl rfl hfew
      rw [Bool.and_eq_true, decide_eq_true_iff, decide_eq_true_iff]
      exact ⟨hreceived, hbad⟩
  · intro s p hp hup hleft hdue
    exact ⟨_, execCnpAckTimeout_resends hp hup hleft hdue, s.resendFrames_leaves p⟩
  · intro s k q hheld hremote hdue hfirst
    have hkey : q.key = k := by simpa using List.find?_some hheld
    have hresend : s.resend q = { s with fab := (s.resend q).fab } ∧ (s.resend q).fab.canopy =
        s.fab.canopy.filter (fun x => x.key != q.key) ++ [{ q with retx := true, sentNs := s.ns }] ∧
        (s.resend q).fab.held.length = s.fab.held.length := by
      unfold State.resend
      rw [if_pos hremote]
      exact ⟨rfl, rfl, List.length_map ..⟩
    obtain ⟨honly, hcanopy, hlen⟩ := hresend
    exact ⟨_, execCnpReceiptTimeout_resends hheld hremote hdue hfirst, hkey ▸ hcanopy, honly, hlen⟩
  · intro s k p hp htyp hbehind happlied
    exact ⟨_, execCnpRetraction_again hp htyp hbehind happlied, rfl⟩
  · intro s k p hp htyp hbehind hnew
    obtain ⟨t, ht, hsame⟩ := execCnpRetraction_new hp htyp hbehind hnew
    refine ⟨t, ht, ?_⟩
    show Tab.find t.rel.applied p.retractKey = some 1
    rw [show t.rel.applied = Tab.set s.rel.applied p.retractKey 1 from hsame]
    exact Tab.find_set_self ..
  · intro s k p m hp htyp hup hmodel
    refine ⟨_, execModelDigestPacket_compares hp htyp hup hmodel, fun heq => if_pos heq, fun hne => ?_⟩
    rw [if_neg hne]
    refine ⟨by rw [State.setModel_at_fget, State.flag_log_fget _ _ _ _ rfl (by decide)], ?_⟩
    obtain ⟨y, hy⟩ : ∃ y, s.model m.context m.id = some y :=
      Option.isSome_iff_exists.mp (List.find?_isSome.mpr ⟨m, List.mem_of_find?_eq_some hmodel, by simp⟩)
    have hyid : y.context = m.context ∧ y.id = m.id := by simpa using List.find?_some hy
    obtain ⟨hctx, hid⟩ := hyid
    have hsame := State.model_congr ((s.unpost k).flag_log_models F.CNP_STATUS_DIGEST_DIFF_SEEN 0
      { code := 0x1208, context := m.context, argA := p.dev, argB := ((s.unpost k).flag F.CNP_STATUS_DIGEST_DIFF_SEEN 0).me })
      m.context m.id
    rw [State.model_setModel (y := { m with verifying := true }) (hsame.trans hy) hctx.symm hid.symm]
    rfl
  · intro s m hup hen hdue hone hdigest
    obtain ⟨g, hg⟩ := execModelDigestTimer_sends hup hen hdue hone hdigest
    obtain ⟨hlen, honly⟩ := State.foldl_toPeer (g := g) s.digestDevices { s with cnp := { s.cnp with digestNs := s.ns } }
    have hcnp := congrArg State.cnp honly
    refine ⟨_, hg, congrArg Cnp.digestNs hcnp, hlen, ?_⟩
    rw [hcnp]
    exact honly

end Sys2Proof.Machine

/-! SUPPORT. Power, resets, clock losses and the orderly stop (R362, R415, R416, R418 to R421, R430, R431): what the boot
that ends each start leaves, what the orderly stop freezes, and what each loss clears. -/

namespace Sys2Proof.Machine

-- One proof after the other: proofs elaborated side by side each take a stack of their own, and the text as a whole is
-- compiled close to its memory limit.
set_option Elab.async false

/-! ### The boot that ends each start (R364, R416, R419) -/

section
variable {s : State} {f : Fld} {i cause sense : Nat} {auxOk : Bool}

/-- The steps that end a start from slot power and a device reset alike: the Keep boots, contexts and retirements come back,
and the cause is recorded. -/
def State.booted (s : State) (cause : Nat) : State :=
  (s.bootKeep.bootContexts.bootCores.fset F.GLB_RST_CAUSE_CAUSE 0 cause).log { code := 0x0106, argA := cause }

theorem State.booted_chg (s : State) (cause : Nat) : Chg 0x8000e208040090c s (s.booted cause) :=
  (State.log_chg ..).step rfl <| (State.fset_chg ..).step rfl <| (State.bootCores_chg ..).step rfl <|
    (State.bootContexts_chg ..).step rfl <| (State.bootKeep_chg ..).step rfl <| Chg.refl _ _

theorem State.booted_cause (s : State) (cause : Nat) : (s.booted cause).fget F.GLB_RST_CAUSE_CAUSE 0 = cause % 16 := by
  rw [State.booted, State.log_fget _ _ _ _ (by decide), State.fget_fset_self]
  rfl

/-- Booting leaves the global registers as they are, the cause of the start apart. -/
theorem State.booted_global (s : State) (cause : Nat) (hblk : regBlk (f.code / 32) = 2)
    (hne : f.code ≠ F.GLB_RST_CAUSE_CAUSE.code) : (s.booted cause).fget f i = s.fget f i := by
  rw [State.booted, Chg.fget (State.log_chg ..) (by rw [hblk]; rfl), State.fget_fset_of_code_ne _ hne,
    Chg.fget (State.bootCores_chg ..) (by rw [hblk]; rfl), Chg.fget (State.bootContexts_chg ..) (by rw [hblk]; rfl),
    Chg.fget (State.bootKeep_chg ..) (by rw [hblk]; rfl)]

/-- The supply as it is read leaves every field but the two it writes. -/
theorem State.readSupply_fget (hsense : f.code ≠ F.GLB_PWR_STATUS_SENSE.code) (haux : f.code ≠ F.GLB_PWR_STATUS_AUX_OK.code) :
    (s.readSupply sense auxOk).fget f i = s.fget f i :=
  (State.fget_fset_of_code_ne _ haux).trans (State.fget_fset_of_code_ne _ hsense)

theorem State.readSupply_sense (s : State) (sense : Nat) (auxOk : Bool) :
    (s.readSupply sense auxOk).fget F.GLB_PWR_STATUS_SENSE 0 = sense % 4 :=
  (State.fget_fset_of_code_ne _ (by decide)).trans (State.fget_fset_self ..)

/-- The host section's start before it boots. -/
def State.poweredUp (s : State) (sense : Nat) (auxOk : Bool) : State :=
  ((({ s with bootNs := s.ns, power := { s.power with slotPower := true, tripped := false } } : State).readSupply sense auxOk).fset
    F.GLB_CLK_STATUS_LOCK 0 31).linkTrain

theorem State.powerOn_boots (s : State) (sense : Nat) (auxOk : Bool) :
    s.powerOn sense auxOk = (s.poweredUp sense auxOk).booted (if s.power.tripped then 4 else 0) := rfl

theorem State.powerOn_leaves (s : State) (sense : Nat) (auxOk : Bool) :
    (s.powerOn sense auxOk).power.slotPower = true ∧ (s.powerOn sense auxOk).bootNs = s.ns ∧
    (s.powerOn sense auxOk).fget F.GLB_CLK_STATUS_LOCK 0 = 31 ∧ (s.powerOn sense auxOk).power.tripped = false ∧
    (s.powerOn sense auxOk).fget F.GLB_RST_CAUSE_CAUSE 0 = (if s.power.tripped = true then 4 else 0) ∧
    (s.powerOn sense auxOk).fget F.GLB_PWR_STATUS_SENSE 0 = sense % 4 := by
  rw [State.powerOn_boots]
  have hboot := State.booted_chg (s.poweredUp sense auxOk) (if s.power.tripped then 4 else 0)
  have hlink := State.linkTrain_chg ((({ s with bootNs := s.ns, power := { s.power with slotPower := true, tripped := false } } :
    State).readSupply sense auxOk).fset F.GLB_CLK_STATUS_LOCK 0 31)
  have hpower := hboot.power.resolve_left (by decide) |>.trans (hlink.power.resolve_left (by decide))
  have hbootNs := hboot.bootNs.resolve_left (by decide) |>.trans (hlink.bootNs.resolve_left (by decide))
  refine ⟨by rw [hpower]; rfl, hbootNs, ?_, by rw [hpower]; rfl, ?_, ?_⟩
  · rw [State.booted_global _ _ rfl (by decide), State.poweredUp, hlink.fget rfl, State.fget_fset_self]
    rfl
  · rw [State.booted_cause]
    split <;> rfl
  · rw [State.booted_global _ _ rfl (by decide), State.poweredUp, hlink.fget rfl, State.fget_fset_of_code_ne _ (by decide),
      State.readSupply_sense]

/-! ### Device reset (R419, R421, R422) -/

/-- The registers beyond those of a block that return to their reset values. -/
def State.globalsReset (s : State) : State :=
  [F.REL_LOOKOUT_STATE0, F.REL_LOOKOUT_STATE1, F.REL_LOOKOUT_CORE0, F.REL_LOOKOUT_CORE1, F.REL_STATUS_LOOKOUTS,
    F.GLB_THM_STATUS_STOPPING, F.GLB_PWR_STATUS_STATE].foldl (fun s f => s.fset f 0 f.reset) s

/-- The field section hears that the host section restarts. -/
def State.resetTold (s : State) : State :=
  ({ s with bar := { s.bar with hostState := 2 } } : State).sendHostState

/-- A device reset before it boots. -/
def State.resetDown (s : State) (sense : Nat) (auxOk : Bool) : State :=
  (s.resetTold.endLanes.deviceClear.shares.globalsReset.fset F.GLB_CLK_STATUS_LOCK 0 31).frozen.readSupply sense auxOk

theorem State.reset'_boots (s : State) (cause sense : Nat) (auxOk : Bool) :
    s.reset' cause sense auxOk = (s.resetDown sense auxOk).booted cause := rfl

theorem State.deviceClear_models (s : State) : s.deviceClear.models = [] := by
  unfold State.deviceClear
  extract_lets s1 s2 _
  clear_value s2
  rfl

theorem State.globalsReset_leaves (s : State) : s.globalsReset.models = s.models ∧
    s.globalsReset.fget F.GLB_PWR_STATUS_STATE 0 = 0 ∧ s.globalsReset.fget F.GLB_THM_STATUS_STOPPING 0 = 0 := by
  refine ⟨rfl, ?_, ?_⟩
  all_goals
    rw [State.globalsReset]
    simp (disch := decide) only [List.foldl_cons, List.foldl_nil, State.fget_fset_of_code_ne, State.fget_fset_self]
    rfl

theorem State.resetDown_leaves (s : State) (sense : Nat) (auxOk : Bool) : (s.resetDown sense auxOk).models = [] ∧
    (s.resetDown sense auxOk).fget F.GLB_PWR_STATUS_STATE 0 = 0 ∧
    (s.resetDown sense auxOk).fget F.GLB_THM_STATUS_STOPPING 0 = 0 := by
  rw [State.resetDown]
  have hmodels : s.resetTold.endLanes.deviceClear.shares.models = [] :=
    ((State.shares_chg _).models.resolve_left (by decide)).trans (State.deviceClear_models _)
  generalize s.resetTold.endLanes.deviceClear.shares = u at hmodels
  obtain ⟨hsame, hstate, hstopping⟩ := u.globalsReset_leaves
  refine ⟨?_, ?_, ?_⟩
  · rw [(State.readSupply_chg ..).models.resolve_left (by decide), (State.frozen_chg _).models.resolve_left (by decide),
      (State.fset_chg ..).models.resolve_left (by decide), hsame, hmodels]
  · rw [State.readSupply_fget (by decide) (by decide), Chg.fget (State.frozen_chg _) rfl,
      State.fget_fset_of_code_ne _ (by decide), hstate]
  · rw [State.readSupply_fget (by decide) (by decide), Chg.fget (State.frozen_chg _) rfl,
      State.fget_fset_of_code_ne _ (by decide), hstopping]

/-- A device reset records its cause and ends every model; the field section, and the time of the start, stay. -/
theorem State.reset'_leaves (s : State) (cause sense : Nat) (auxOk : Bool) :
    (s.reset' cause sense auxOk).fget F.GLB_RST_CAUSE_CAUSE 0 = cause % 16 ∧ (s.reset' cause sense auxOk).models = [] ∧
    (s.reset' cause sense auxOk).field = s.field ∧ (s.reset' cause sense auxOk).bootNs = s.bootNs ∧
    (s.reset' cause sense auxOk).fget F.GLB_PWR_STATUS_STATE 0 = 0 ∧
    (s.reset' cause sense auxOk).fget F.GLB_THM_STATUS_STOPPING 0 = 0 := by
  have hreset := State.reset'_chg s cause sense auxOk
  obtain ⟨hmodels, hstate, hstopping⟩ := s.resetDown_leaves sense auxOk
  refine ⟨?_, ?_, hreset.field.resolve_left (by decide), hreset.bootNs.resolve_left (by decide), ?_, ?_⟩
  all_goals rw [State.reset'_boots]
  · exact State.booted_cause ..
  · rw [(State.booted_chg ..).models.resolve_left (by decide), hmodels]
  · rw [State.booted_global _ _ rfl (by decide), hstate]
  · rw [State.booted_global _ _ rfl (by decide), hstopping]

/-- A device reset for a PLL that has lost lock. -/
theorem lockLost_resets (s : State) (lock core engine : Nat) :
    let t := ((s.lockLost lock).clockEvent core engine).resetNow 3
    t.fget F.GLB_RST_CAUSE_CAUSE 0 = 3 ∧ t.models = [] ∧ t.field = s.field := by
  intro t
  obtain ⟨hcause, hmodels, hfield, -⟩ := State.reset'_leaves ((s.lockLost lock).clockEvent core engine) 3
    (((s.lockLost lock).clockEvent core engine).fget F.GLB_PWR_STATUS_SENSE 0)
    (((s.lockLost lock).clockEvent core engine).fon F.GLB_PWR_STATUS_AUX_OK 0)
  exact ⟨hcause, hmodels, hfield.trans ((State.log_chg ..).field.resolve_left (by decide))⟩

end

/-! ### Core reset (R420) -/

section
variable {s : State} {c : Nat}

/-- A core without its registers, its threads and what its memories hold. -/
def State.coreEmptied (s : State) (c : Nat) : State :=
  let s := s.clearCoreRegs c
  { s with
    sram := s.sram.filter (fun x => x.1 / 2 ^ 23 != c)
    seqs := Tab.erase s.seqs c
    cores := Tab.set s.cores c { CoreSt.empty with place := (s.core c).place }
    tiles := Tab.keep s.tiles (fun k _ => k / 2 != c)
    rst := Tab.erase s.rst c }

/-- An engine that keeps its master bindings and the weights in its cells alone. -/
def Engine.bound (g : Engine) (e : Nat) : Engine :=
  { Engine.empty with cells := if e < 32 then g.cells else [], map := g.map, head := g.head, inService := g.inService
                      written := g.written, expected := g.expected }

/-- The core's resetting is over. -/
def State.resetOver (s : State) (c : Nat) : State :=
  { s with power := { s.power with resetting := s.power.resetting.filter (fun x => x != c) } }

/-- The reset generation of a core rises. -/
def State.raiseGen (s : State) (c : Nat) : State :=
  s.fset F.KEEP_CORE_DATA_RESETGEN c (s.fget F.KEEP_CORE_DATA_RESETGEN c + 1)

/-- Every engine of a core returns to what it is bound to. -/
def State.enginesBound (s : State) (c : Nat) : State :=
  (List.range 36).foldl (fun s e => s.setEngine c e ((s.engine c e).bound e)) s

theorem State.clearCore_steps (s : State) (c : Nat) :
    s.clearCore c = (((s.coreEmptied c).enginesBound c).raiseGen c).resetOver c := rfl

theorem State.enginesBound_chg (s : State) (c : Nat) : Chg 0x1000 s (s.enginesBound c) :=
  Chg.foldl (fun _ _ h => (State.setEngine_chg ..).step rfl h) (Chg.refl _ _)

theorem State.coreEmptied_gen (s : State) (c : Nat) :
    (s.coreEmptied c).fget F.KEEP_CORE_DATA_RESETGEN c = s.fget F.KEEP_CORE_DATA_RESETGEN c := by
  have hout : ofCore c (F.KEEP_CORE_DATA_RESETGEN.key c) = false := by
    rw [ofCore, keyReg_key]
    rfl
  show Tab.getD (Tab.keep s.fields fun k _ => !ofCore c k) _ _ = Tab.getD s.fields _ _
  rw [Tab.getD, Tab.find_keep, hout]
  rfl

/-- Clearing a core ends its threads and raises its reset generation. -/
theorem State.clearCore_leaves (s : State) (c : Nat) : Tab.find (s.clearCore c).seqs c = none ∧
    (s.clearCore c).fget F.KEEP_CORE_DATA_RESETGEN c = (s.fget F.KEEP_CORE_DATA_RESETGEN c + 1) % 2 ^ 16 := by
  have hengines := (s.coreEmptied c).enginesBound_chg c
  have hgen := (hengines.fget (f := F.KEEP_CORE_DATA_RESETGEN) (i := c) rfl).trans (s.coreEmptied_gen c)
  have hseqs : Tab.find ((s.coreEmptied c).enginesBound c).seqs c = none := by
    rw [hengines.seqs.resolve_left (by decide)]
    exact Tab.find_erase_self ..
  rw [State.clearCore_steps]
  generalize (s.coreEmptied c).enginesBound c = u at hgen hseqs
  refine ⟨hseqs, ?_⟩
  rw [← hgen]
  exact State.fget_fset_self ..

/-- A core that is reset is free, its threads have ended, and its reset generation has risen. -/
theorem State.resetFree_leaves (s : State) (c : Nat) : Tab.find (s.resetFree c).seqs c = none ∧
    (s.resetFree c).fget F.KEEP_CORE_DATA_RESETGEN c = (s.fget F.KEEP_CORE_DATA_RESETGEN c + 1) % 2 ^ 16 ∧
    (s.resetFree c).fget F.CORE_STATUS_STATE c = 0 ∧ (s.resetFree c).fget F.CORE_ROLE_ROLE c = 0 := by
  unfold State.resetFree
  extract_lets s1 s2
  have hclear : Tab.find s1.seqs c = none ∧
      s1.fget F.KEEP_CORE_DATA_RESETGEN c = (s.fget F.KEEP_CORE_DATA_RESETGEN c + 1) % 2 ^ 16 := s.clearCore_leaves c
  have hpass : Chg 0x400ca1040405f0c s1 s2 :=
    Chg.foldl (fun _ _ h => (State.startupEngine_chg ..).step rfl h) (Chg.refl _ _)
  obtain ⟨hseqs, hgen⟩ := hclear
  clear_value s2 s1
  refine ⟨?_, ?_, ?_, ?_⟩
  · exact (congrArg (Tab.find · c) (hpass.seqs.resolve_left (by decide))).trans hseqs
  · simp (disch := decide) only [State.fget_fset_of_code_ne]
    rw [hpass.fget rfl]
    exact hgen
  · rw [State.fget_fset_of_code_ne _ (by decide), State.fget_fset_self, Nat.zero_mod]
  · rw [State.fget_fset_self, Nat.zero_mod]

theorem State.settleOn_reads (s : State) (w : Settle) : Reads [F.KEEP_STATUS_STATE] s (s.settleOn w) := by
  unfold State.settleOn
  extract_lets _ s1
  have h1 : Reads [F.KEEP_STATUS_STATE] s s1 := .ite (.refl s) (.of_fields rfl)
  exact .ite (h1.fset _ _ _ (by simp)) h1

theorem State.settleOff_reads (s : State) (w : Settle) : Reads [F.KEEP_STATUS_STATE] s (s.settleOff w) := by
  unfold State.settleOff
  extract_lets _ s1
  have h1 : Reads [F.KEEP_STATUS_STATE] s s1 := .of_fields rfl
  exact .ite (h1.fset _ _ _ (by simp)) h1

/-- The reset of a free core. -/
theorem execCoreReset_frees (hc : c < 32) (hpower : s.power.slotPower = true) (hrole : s.fget F.CORE_ROLE_ROLE c = 0)
    (hresetting : ¬ c ∈ s.power.resetting) (hstate : s.fget F.GLB_PWR_STATUS_STATE 0 ≠ 3) :
    exec (.coreReset c) s = .next (((s.settleOn (.core c)).resetFree c).settleOff (.core c)) := by
  have hcore : ¬ 32 ≤ c := by omega
  simp [exec, execCoreReset, State.coreReset, hpower, hrole, hresetting, hstate, hcore]

theorem freedCore_leaves (s : State) (c : Nat) :
    let t := ((s.settleOn (.core c)).resetFree c).settleOff (.core c)
    Tab.find t.seqs c = none ∧
      t.fget F.KEEP_CORE_DATA_RESETGEN c = (s.fget F.KEEP_CORE_DATA_RESETGEN c + 1) % 2 ^ 16 ∧
      t.fget F.CORE_STATUS_STATE c = 0 ∧ t.fget F.CORE_ROLE_ROLE c = 0 ∧ t.models = s.models := by
  intro t
  have hon := State.settleOn_chg s (.core c)
  have hreset := State.resetFree_chg (s.settleOn (.core c)) c
  have hoff := State.settleOff_chg ((s.settleOn (.core c)).resetFree c) (.core c)
  have hreads := State.settleOff_reads ((s.settleOn (.core c)).resetFree c) (.core c)
  obtain ⟨hseqs, hgen, hstate, hrole⟩ := (s.settleOn (.core c)).resetFree_leaves c
  refine ⟨?_, ?_, ?_, ?_, ?_⟩
  · rw [hoff.seqs.resolve_left (by decide), hseqs]
  · rw [hreads _ _ (by decide), hgen, s.settleOn_reads (.core c) _ _ (by decide)]
  · rw [hreads _ _ (by decide), hstate]
  · rw [hreads _ _ (by decide), hrole]
  · rw [hoff.models.resolve_left (by decide), hreset.models.resolve_left (by decide), hon.models.resolve_left (by decide)]

end

/-! ### The orderly stop (R430) -/

section
variable {s : State} {cause drain : Nat}

/-- The fields that breaking off a lane writes. -/
def brokenFlds : List Fld :=
  [C.ADM_CNT_BROKEN.cnt, F.ADM_LANE_STATE_BROKEN, F.ADM_LANE_STATE_SUSP_REASONS, F.ADM_LANE_STATE_STATE] ++ logFlds

theorem Reads.log {l : List Fld} {t : State} (h : Reads l s t) (e : Ev) (hl : ∀ g ∈ logFlds, g ∈ l) : Reads l s (t.log e) :=
  h.trans ((t.log_reads e).mono hl)

theorem State.breakLane_reads (s : State) (l cause : Nat) : Reads brokenFlds s (s.breakLane l cause) :=
  (((Reads.refl s).countAt _ _ _ _ (by simp [brokenFlds])).fset _ _ _ (by simp [brokenFlds])).log _
    fun _ h => List.mem_append_right _ h

theorem State.suspend_reads (s : State) (l bit' argA : Nat) : Reads brokenFlds s (s.suspend l bit' argA) := by
  unfold State.suspend
  extract_lets m s1 s2 s3
  have h2 : Reads brokenFlds s s2 :=
    ((Reads.refl s).fset _ _ _ (by simp [brokenFlds])).fset _ _ _ (by simp [brokenFlds])
  have h3 : Reads brokenFlds s s3 :=
    h2.foldl _ fun u p => .of_fields ((State.sendVerdict_chg u p.1 0xFF).fields.resolve_left (by decide))
  exact .ite (.refl s) (h3.log _ fun _ h => List.mem_append_right _ h)

/-- The lanes of the stop: each is suspended, and then broken. -/
def State.lanesStopped (s : State) : State :=
  ((List.range 64).filter s.laneUp).foldl (fun s l => (s.suspend l 4 0xFFFF).breakLane l 3) s

theorem State.lanesStopped_reads (s : State) : Reads brokenFlds s s.lanesStopped :=
  (Reads.refl s).foldl _ fun u l => (u.suspend_reads l 4 0xFFFF).trans (State.breakLane_reads _ l 3)

/-- The stop begins where none is under way and the device is not booting. -/
theorem State.stopBegin_stops (hstopping : s.fget F.GLB_THM_STATUS_STOPPING 0 = 0) (hstate : s.fget F.GLB_PWR_STATUS_STATE 0 ≠ 0) :
    (s.stopBegin cause drain).fget F.GLB_THM_STATUS_STOPPING 0 = 1 ∧ (s.stopBegin cause drain).fget F.ADM_STATUS_FROZEN 0 = 1 ∧
    (s.stopBegin cause drain).power.stop = some (cause, s.ns + drain) := by
  have hoff : s.fon F.GLB_THM_STATUS_STOPPING 0 = false := by rw [State.fon, hstopping]; rfl
  have hlanes := (s.flag F.GLB_THM_STATUS_STOPPING 0).frozen.lanesStopped_reads
  have hflag : (s.flag F.GLB_THM_STATUS_STOPPING 0).fget F.GLB_THM_STATUS_STOPPING 0 = 1 := State.fget_fset_self ..
  have hns : (s.stopBegin cause drain).ns = s.ns := (State.stopBegin_chg ..).ns.resolve_left (by decide)
  unfold State.stopBegin at hns ⊢
  rw [hoff, Bool.false_or, if_neg (by simpa using hstate)] at hns ⊢
  refine ⟨(hlanes F.GLB_THM_STATUS_STOPPING 0 (by decide)).trans ?_, (hlanes F.ADM_STATUS_FROZEN 0 (by decide)).trans ?_, ?_⟩
  · rw [Chg.fget (State.frozen_chg _) rfl, hflag]
  · rw [State.frozen_fget, hflag, if_pos (.inr (.inr one_ne_zero))]
  · exact congrArg (fun n => some (cause, n + drain)) hns

/-- Beginning to stop writes the flag of the stop, the freeze, and what breaking off lanes writes. -/
theorem State.stopBegin_reads (s : State) (cause drain : Nat) :
    Reads (F.GLB_THM_STATUS_STOPPING :: F.ADM_STATUS_FROZEN :: brokenFlds) s (s.stopBegin cause drain) := by
  unfold State.stopBegin
  refine .ite (.refl s) (Reads.trans ?_ (.of_fields rfl))
  have hfrozen : Reads (F.GLB_THM_STATUS_STOPPING :: F.ADM_STATUS_FROZEN :: brokenFlds) s
      (s.flag F.GLB_THM_STATUS_STOPPING 0).frozen :=
    ((Reads.refl s).fset _ _ _ (by simp)).fset _ _ _ (by simp)
  exact hfrozen.trans ((State.lanesStopped_reads _).mono fun _ h => by simp [h])

/-- A stop under way, or a device that boots, lets nothing begin. -/
theorem State.stopBegin_keeps (h : s.fget F.GLB_THM_STATUS_STOPPING 0 = 1 ∨ s.fget F.GLB_PWR_STATUS_STATE 0 = 0) :
    s.stopBegin cause drain = s := by
  rw [State.stopBegin, if_pos]
  rcases h with h | h
  · simp [State.fon, h]
  · simp [h]

theorem State.stopEnd_leaves (s : State) (cause : Nat) : (s.stopEnd cause).fget F.GLB_PWR_STATUS_STATE 0 = 3 ∧
    (s.stopEnd cause).power.stop = none := by
  unfold State.stopEnd
  extract_lets s1 _ s2 s3 s4 _ s5
  have hlog := State.log_chg s5 { code := 0x0103, argA := cause }
  refine ⟨?_, ?_⟩
  · rw [hlog.fget rfl]
    exact State.fget_fset_self s3 F.GLB_PWR_STATUS_STATE 0 3
  · rw [hlog.power.resolve_left (by decide)]

end

/-! ### Losses of power and of a clock (R362, R418, R422, R431) -/

section
variable {s : State} {p : Nat}

/-- The host section without power holds nothing that is volatile; the field section runs on. -/
theorem State.hostLoss_field (s : State) : s.hostLoss.field = s.field ∧ s.hostLoss.ns = s.ns :=
  ⟨(State.linkDown_chg s).field.resolve_left (by decide), (State.linkDown_chg s).ns.resolve_left (by decide)⟩

theorem State.hostLoss_barField (h : s.bar.up = false) : s.hostLoss.bar.field = s.bar.field := by
  have hdown : s.linkDown = s.linkTrain := by
    rw [State.linkDown, h]
    rfl
  show s.linkDown.bar.field = _
  rw [hdown, State.linkTrain_bar]

/-- The link's registers stand at their reset values. -/
def State.linkCleared (s : State) : State :=
  [F.HIF_LINK_GEN, F.HIF_LINK_WIDTH, F.HIF_LINK_FLIT, F.HIF_LINK_ATS].foldl (fun s f => s.fset f 0 f.reset) s

/-- The link is down. -/
def State.unlinked (s : State) : State := { s with power := { s.power with linkUp := false } }

theorem State.linkCleared_gen (s : State) : s.linkCleared.unlinked.fget F.HIF_LINK_GEN 0 = F.HIF_LINK_GEN.reset := by
  show s.linkCleared.fget F.HIF_LINK_GEN 0 = _
  unfold State.linkCleared
  simp (disch := decide) only [List.foldl_cons, List.foldl_nil, State.fget_fset_of_code_ne, State.fget_fset_self]
  rfl

theorem State.conventional_clears (s : State) : s.conventional = s.resetFuncs.linkCleared.unlinked := rfl

theorem execHostPowerLoss_clears (hpower : s.power.slotPower = true) :
    exec .hostPowerLoss s = .next { s.hostLoss with power := { s.hostLoss.power with trip := false } } := by
  simp only [exec, execHostPowerLoss, hpower, Bool.not_true, Bool.false_and, Bool.false_eq_true, if_false]

theorem execThermalTrip_clears (hpower : s.power.slotPower = true) :
    exec .thermalTrip s = .next { s.hostLoss with power := { s.hostLoss.power with trip := true, tripped := true } } := by
  simp only [exec, execThermalTrip, hpower, Bool.not_true, Bool.false_eq_true, if_false]

theorem execDeviceReset_refuses {sense : Nat} {auxOk : Bool} (hpower : s.power.slotPower = true) (hhot : s.hotForReset = true) :
    exec (.deviceReset sense auxOk) s =
      .next ((s.flag F.GLB_THM_STATUS_RESET_REFUSED 0).log { code := 0x0107, core := 255 }) := by
  simp only [exec, execDeviceReset, State.deviceReset, hpower, hhot, Bool.not_true, Bool.false_eq_true, if_false, if_true]
  rfl

/-- A conventional reset takes the link down and keeps what Table 17.2 keeps. -/
theorem State.conventional_leaves (s : State) : s.conventional.power.linkUp = false ∧
    s.conventional.fget F.HIF_LINK_GEN 0 = F.HIF_LINK_GEN.reset ∧ s.conventional.dram = s.dram ∧
    s.conventional.models = s.models ∧ s.conventional.cores = s.cores ∧ s.conventional.field = s.field := by
  have h := State.conventional_chg s
  refine ⟨?_, ?_, h.dram.resolve_left (by decide), h.models.resolve_left (by decide), h.cores.resolve_left (by decide),
    h.field.resolve_left (by decide)⟩
  · rw [State.conventional_clears]
    rfl
  · rw [State.conventional_clears, State.linkCleared_gen]

/-- A port that went down has no key. -/
theorem State.dropPort_key (s : State) (p : Nat) : (s.dropPort p).fget F.CNP_PORT_STATUS_KEY p = 0 := by
  unfold State.dropPort
  extract_lets was s1 s2 s3 s4
  have hkey : s3.fget F.CNP_PORT_STATUS_KEY p = 0 := (State.fget_fset_self ..).trans (Nat.zero_mod _)
  rw [State.setPort, State.fget_fset_of_code_ne _ (by decide)]
  unfold s4
  split
  · rw [State.log_fget _ _ _ _ (by decide), hkey]
  · exact hkey

/-- A port that is up goes down with its clock. -/
theorem execClockLoss_canopy (hpower : s.power.slotPower = true) (hp : p < 6) (hup : s.port p = 3) :
    exec (.clockLoss (.canopy p)) s = .next ((s.clockEvent 255 p).dropPort p) := by
  have hport : (s.clockEvent 255 p).port p = 3 := (s.log_port _ p).trans hup
  simp [exec, execClockLoss, hpower, hp, hport]

end

/-- Settles O51, command by command: each start ends in `booted`, each stop begins in `stopBegin`. -/
theorem powerAndResets : Obligations.power_and_resets := by
  unfold Obligations.power_and_resets
  refine ⟨?_, ?_, ?_, ?_, ?_, ?_, ?_, ?_, ?_, ?_, ?_, ?_, ?_, ?_, ?_, ?_, ?_, ?_, ?_, ?_, ?_, ?_⟩
  · intro s sense auxOk hpower htrip
    exact ⟨_, by simp only [exec, execHostPowerOn, hpower, htrip, Bool.or_self, Bool.false_eq_true, if_false],
      s.powerOn_leaves sense auxOk⟩
  · intro s hpower
    exact ⟨_, by simp only [exec, execPerstDeassert, hpower, Bool.not_true, Bool.false_eq_true, if_false], rfl⟩
  · intro s hpower
    exact ⟨_, by simp only [exec, execConventionalReset, hpower, Bool.not_true, Bool.false_eq_true, if_false],
      s.conventional_leaves⟩
  · intro s sense auxOk hpower hcool
    exact ⟨_, by simp only [exec, execDeviceReset, State.deviceReset, hpower, hcool, Bool.not_true, Bool.false_eq_true, if_false],
      s.reset'_leaves 1 sense auxOk⟩
  · intro s sense auxOk hpower hhot
    exact ⟨_, execDeviceReset_refuses hpower hhot,
      State.flag_log_fget s F.GLB_THM_STATUS_RESET_REFUSED 0 _ rfl (by decide), State.log_only ..⟩
  · intro s sense auxOk hpower
    exact ⟨_, by simp only [exec, execDeviceReset, State.deviceReset, hpower, Bool.not_false, if_true], rfl⟩
  · intro s hpower
    obtain ⟨hcause, hmodels, hfield, -⟩ := s.reset'_leaves 2 (s.fget F.GLB_PWR_STATUS_SENSE 0) (s.fon F.GLB_PWR_STATUS_AUX_OK 0)
    exact ⟨_, by simp only [exec, execMgtWatchdog, State.resetNow, hpower, Bool.not_true, Bool.false_eq_true, if_false],
      hcause, hmodels, hfield⟩
  · intro s c hc hpower hrole hresetting hstate
    exact ⟨_, execCoreReset_frees hc hpower hrole hresetting hstate, freedCore_leaves s c⟩
  · intro s hstopping hstate
    exact ⟨_, rfl, State.stopBegin_stops hstopping hstate⟩
  · intro s h
    exact ⟨_, rfl, State.stopBegin_keeps h⟩
  · intro s hstopping hstate hstale
    have hlate : ¬ s.ns ≤ s.hk.fresh + 10000000 := by omega
    obtain ⟨hflag, -, hstop⟩ := State.stopBegin_stops (cause := 3) (drain := s.drainNs) hstopping hstate
    exact ⟨_, by simp only [exec, execHousekeepingStale, hlate, if_false], hflag, hstop⟩
  · intro s c at' hstop hdue
    have hchg := State.stopEnd_chg s c
    obtain ⟨hstate, hover⟩ := s.stopEnd_leaves c
    exact ⟨_, by simp only [exec, execDrainEnd, hstop, hdue, if_true], hstate, hover, hchg.dram.resolve_left (by decide),
      hchg.models.resolve_left (by decide)⟩
  · intro s hpower hstopping hstate hrun
    have hrun' : (s.fset F.GLB_PWR_STATUS_AUX_OK 0 0).coresRun = true := by
      rw [← hrun, State.coresRun, State.coresRun]
      simp (disch := decide) only [State.fget_fset_of_code_ne]
    obtain ⟨hflag, -, hstop⟩ := State.stopBegin_stops (s := s.fset F.GLB_PWR_STATUS_AUX_OK 0 0) (cause := 4) (drain := 0)
      (by rw [State.fget_fset_of_code_ne _ (by decide), hstopping])
      (by rw [State.fget_fset_of_code_ne _ (by decide)]; exact hstate)
    refine ⟨_, by simp only [exec, execAuxSupplyFail, hpower, hrun', Bool.not_true, Bool.false_eq_true, if_false, if_true], ?_,
      hstop, hflag⟩
    rw [State.stopBegin_reads _ _ _ _ _ (by decide), State.fget_fset_self, Nat.zero_mod]
  · intro s hpower hrest
    have hrest' : (s.fset F.GLB_PWR_STATUS_AUX_OK 0 0).coresRun = false := by
      rw [← hrest, State.coresRun, State.coresRun]
      simp (disch := decide) only [State.fget_fset_of_code_ne]
    exact ⟨_, by simp only [exec, execAuxSupplyFail, hpower, hrest', Bool.not_true, Bool.false_eq_true, if_false], rfl⟩
  · intro s hpower hdown
    exact ⟨_, execHostPowerLoss_clears hpower, rfl, rfl, rfl, rfl, rfl, rfl, rfl, s.hostLoss_field.1,
      State.hostLoss_barField hdown, s.hostLoss_field.2⟩
  · intro s hpower
    exact ⟨_, execThermalTrip_clears hpower, rfl, rfl, rfl, rfl, rfl, s.hostLoss_field.1⟩
  · intro s sense auxOk htrip
    exact ⟨_, by simp only [exec, execHostPowerOn, htrip, Bool.or_true, if_true], rfl⟩
  · intro s p hpower hp hup
    obtain ⟨⟨hstate, -, -, -, -, -⟩, hvalid, hempty⟩ := (s.clockEvent 255 p).dropPort_leaves p
    have hrunning : (s.clockEvent 255 p).cnp.running = s.cnp.running := congrArg Cnp.running (s.log_cnp _)
    exact ⟨_, execClockLoss_canopy hpower hp hup, hrunning ▸ hstate, State.dropPort_key .., hvalid, hempty⟩
  · intro s hpower
    obtain ⟨hlink, -, hdram, hmodels, -⟩ := (s.clockEvent 255 255).conventional_leaves
    have hevent := State.log_chg s { code := 0x0108, core := 255, engine := 255 }
    exact ⟨_, by simp only [exec, execClockLoss, hpower, Bool.not_true, Bool.false_eq_true, if_false], hlink,
      hdram.trans (hevent.dram.resolve_left (by decide)), hmodels.trans (hevent.models.resolve_left (by decide))⟩
  · intro s hpower
    exact ⟨_, by simp only [exec, execClockLoss, hpower, Bool.not_true, Bool.false_eq_true, if_false],
      lockLost_resets s 1 255 255⟩
  · intro s hpower
    exact ⟨_, by simp only [exec, execClockLoss, hpower, Bool.not_true, Bool.false_eq_true, if_false],
      lockLost_resets s 2 255 255⟩
  · intro s hpower hstopping hstate
    have hkeep {f : Fld} (hne : f.code ≠ F.GLB_CLK_STATUS_LOCK.code) (hlog : logFlds.all (fun g => f.code != g.code) = true) :
        ((s.lockLost 4).clockEvent 255 255).fget f 0 = s.fget f 0 :=
      (State.log_fget _ _ _ _ hlog).trans (State.fget_fset_of_code_ne _ hne)
    obtain ⟨hflag, -, hstop⟩ := State.stopBegin_stops (s := (s.lockLost 4).clockEvent 255 255) (cause := 3)
      (drain := ((s.lockLost 4).clockEvent 255 255).drainNs) ((hkeep (by decide) (by decide)).trans hstopping)
      (by rw [hkeep (by decide) (by decide)]; exact hstate)
    refine ⟨_, by simp only [exec, execClockLoss, hpower, Bool.not_true, Bool.false_eq_true, if_false], ?_, hflag⟩
    have hns : ((s.lockLost 4).clockEvent 255 255).ns = s.ns := (State.log_chg ..).ns.resolve_left (by decide)
    rw [hstop, State.drainNs, hkeep (by decide) (by decide), hns]

end Sys2Proof.Machine

/-! SUPPORT. The mailbox of the Keep (R367, R371, R376, R378, R382, R383, R385): how a command is taken and answered, what a
load that goes on leaves of the pending ones, and what each command leaves. -/

namespace Sys2Proof.Machine

-- One proof after the other: proofs elaborated side by side each take a stack of their own, and the text as a whole is
-- compiled close to its memory limit.
set_option Elab.async false

/-! ### Taking a command and answering it (R385) -/

section
variable {s t : State} {cmd ctx status : Nat} {b out : List Nat}

/-- The mailbox with a command under way. -/
def State.busy (s : State) : State := s.fset F.KEEP_MB_STATUS_BUSY 0 1

theorem State.busy_fget (s : State) {f : Fld} {i : Nat} (h : f.code ≠ F.KEEP_MB_STATUS_BUSY.code) :
    s.busy.fget f i = s.fget f i := State.fget_fset_of_code_ne _ h

theorem State.mbRead_congr (h : ∀ i, t.fget F.KEEP_MB_DATA_DATA i = s.fget F.KEEP_MB_DATA_DATA i) (n : Nat) :
    t.mbRead n = s.mbRead n := by
  simp only [State.mbRead, h]

/-- A command that the mailbox was asked for is run. -/
theorem State.mailbox_runs (h : Asked cmd ctx b s) : s.mailbox cmd = s.busy.keepRun .mailbox cmd ctx b := by
  obtain ⟨hbusy, hstate, hkeep, hcmd, hctx, -, hlen, hshort, hdata⟩ := h
  have hfree : s.fon F.KEEP_MB_STATUS_BUSY 0 = false := by rw [State.fon, hbusy]; rfl
  have hon : (s.fget F.GLB_PWR_STATUS_STATE 0 == 0) = false := beq_eq_false_iff_ne.mpr hstate
  have hread : s.busy.mbRead b.length = b := by
    rw [State.mbRead_congr (fun i => s.busy_fget (by decide)), hdata]
  have hlong : ¬ 4096 < b.length := by omega
  rw [State.mailbox, if_pos hcmd, State.mailboxGo, hfree, hon, Bool.false_and, Bool.or_self, if_neg Bool.false_ne_true]
  show (if 4096 < s.busy.fget F.KEEP_MB_CMD_LEN 0 then _ else s.busy.keepTake ⟨.mailbox, s.busy.fget F.KEEP_MB_CMD_CMD 0,
    s.busy.fget F.KEEP_MB_CMD_CONTEXT 0, s.busy.mbRead (s.busy.fget F.KEEP_MB_CMD_LEN 0)⟩) = _
  rw [s.busy_fget (by decide), s.busy_fget (by decide), s.busy_fget (by decide), hlen, hcmd, hctx, hread, if_neg hlong,
    State.keepTake, s.busy_fget (by decide), if_neg hkeep]

/-- The registers of an answer. -/
def answerFlds : List Fld := [C.KEEP_CNT_MBREFUSE.cnt, F.KEEP_MB_DATA_DATA, F.KEEP_MB_STATUS_BUSY, F.KEEP_MB_STATUS_DONE,
  F.KEEP_MB_STATUS_STATUS, F.KEEP_MB_STATUS_OUT_LEN]

/-- Nothing but register fields differs. -/
def FieldsOnly (s t : State) : Prop := t = { s with fields := t.fields }

theorem FieldsOnly.trans {u : State} (h : FieldsOnly s t) (h' : FieldsOnly t u) : FieldsOnly s u := by
  rw [FieldsOnly, h', h]

theorem FieldsOnly.keep (h : FieldsOnly s t) : t.keep = s.keep := by
  rw [h]

theorem State.fset_fieldsOnly (s : State) (f : Fld) (i v : Nat) : FieldsOnly s (s.fset f i v) := rfl

theorem State.count_fieldsOnly (s : State) (c : Ctr) (i : Nat) : FieldsOnly s (s.count c i) := by
  unfold State.count State.countAt
  split
  · rfl
  · rfl

theorem State.mbWrite_fieldsOnly (s : State) (b : List Nat) : FieldsOnly s (s.mbWrite b) :=
  State.foldl_fset_only (fun _ => F.KEEP_MB_DATA_DATA) (fun i => i) (fun i => leAt b (4 * i) 4) _ s

theorem State.mbWrite_reads (s : State) (b : List Nat) : Reads [F.KEEP_MB_DATA_DATA] s (s.mbWrite b) :=
  (Reads.refl s).foldl _ fun u _ => (Reads.refl u).fset _ _ _ (by simp)

/-- An answer in the mailbox's registers, after the count of a refusal. -/
def State.mbAnswer (s : State) (status : Nat) (out : List Nat) : State :=
  ((((s.mbWrite out).fset F.KEEP_MB_STATUS_BUSY 0 0).fset F.KEEP_MB_STATUS_DONE 0 1).fset F.KEEP_MB_STATUS_STATUS 0 status).fset
    F.KEEP_MB_STATUS_OUT_LEN 0 out.length

theorem State.keepDone_mailbox (s : State) (status : Nat) (out : List Nat) : s.keepDone .mailbox status out =
    (if status = 0 then s else s.count C.KEEP_CNT_MBREFUSE 0).mbAnswer status out := rfl

theorem State.mbAnswer_answered (s : State) (hstatus : status < 256) (out : List Nat) : Answered status (s.mbAnswer status out) ∧
    (s.mbAnswer status out).fget F.KEEP_MB_STATUS_OUT_LEN 0 = out.length % 2 ^ 13 := by
  unfold State.mbAnswer
  refine ⟨⟨?_, ?_, ?_⟩, State.fget_fset_self ..⟩
  all_goals simp (disch := decide) only [State.fget_fset_of_code_ne, State.fget_fset_self]
  · rfl
  · rfl
  · exact Nat.mod_eq_of_lt hstatus

theorem State.mbAnswer_reads (s : State) (status : Nat) (out : List Nat) :
    Reads [F.KEEP_MB_DATA_DATA, F.KEEP_MB_STATUS_BUSY, F.KEEP_MB_STATUS_DONE, F.KEEP_MB_STATUS_STATUS, F.KEEP_MB_STATUS_OUT_LEN] s
      (s.mbAnswer status out) :=
  (((((s.mbWrite_reads out).mono (by simp)).fset _ _ _ (by simp)).fset _ _ _ (by simp)).fset _ _ _ (by simp)).fset _ _ _ (by simp)

theorem State.mbAnswer_fieldsOnly (s : State) (status : Nat) (out : List Nat) : FieldsOnly s (s.mbAnswer status out) :=
  (s.mbWrite_fieldsOnly out).trans rfl

/-- The mailbox shows the status, and the length of what it returns. -/
theorem State.keepDone_answered (s : State) (hstatus : status < 256) (out : List Nat) :
    Answered status (s.keepDone .mailbox status out) ∧
    (s.keepDone .mailbox status out).fget F.KEEP_MB_STATUS_OUT_LEN 0 = out.length % 2 ^ 13 :=
  State.mbAnswer_answered _ hstatus out

theorem State.keepDone_fieldsOnly (s : State) (status : Nat) (out : List Nat) : FieldsOnly s (s.keepDone .mailbox status out) := by
  rw [State.keepDone_mailbox]
  split
  · exact s.mbAnswer_fieldsOnly ..
  · exact (s.count_fieldsOnly ..).trans (State.mbAnswer_fieldsOnly ..)

theorem State.keepDone_reads (s : State) (status : Nat) (out : List Nat) :
    Reads answerFlds s (s.keepDone .mailbox status out) := by
  rw [State.keepDone_mailbox]
  exact Reads.trans (.ite (.refl s) ((Reads.refl s).count C.KEEP_CNT_MBREFUSE 0 (by simp [answerFlds])))
    ((State.mbAnswer_reads _ _ _).mono (by simp [answerFlds]))

/-- A refusal is counted. -/
theorem State.keepDone_counted (s : State) (hrefused : status ≠ 0) (out : List Nat) :
    Counted C.KEEP_CNT_MBREFUSE 0 1 s (s.keepDone .mailbox status out) := by
  rw [State.keepDone_mailbox, if_neg hrefused]
  exact Counted.of_reads (.refl s) (State.mbAnswer_reads _ _ _) (l := []) rfl rfl

theorem Counted.busy {c : Ctr} (h : Counted c 0 1 s.busy t) (hcnt : c.cnt.code ≠ F.KEEP_MB_STATUS_BUSY.code)
    (hfrz : c.frz.code ≠ F.KEEP_MB_STATUS_BUSY.code) : Counted c 0 1 s t := by
  rw [Counted, State.fon, s.busy_fget hcnt, s.busy_fget hfrz] at h
  exact h

end

/-! ### A load that goes on leaves the other pending ones (R376) -/

section
variable {s t u : State} {m : Nat}

/-- The loads that wait for their keys are the same. -/
def SamePend (s t : State) : Prop := t.keep.pend = s.keep.pend

theorem SamePend.trans (h : SamePend s t) (h' : SamePend t u) : SamePend s u := Eq.trans h' h

theorem SamePend.of_chg (h : Chg m s t) (hm : m.testBit 37 = false) : SamePend s t :=
  congrArg Keep.pend (h.keep.resolve_left (by simp [hm]))

theorem SamePend.foldl {α : Type} {f : State → α → State} (hf : ∀ s x, SamePend s (f s x)) (l : List α) (s : State) :
    SamePend s (l.foldl f s) := by
  induction l generalizing s with
  | nil => rfl
  | cons x l ih => exact (hf s x).trans (ih _)

theorem SamePend.ite {c : Prop} [Decidable c] (h : SamePend s t) (h' : SamePend s u) : SamePend s (if c then t else u) := by
  split
  · exact h
  · exact h'

theorem State.setRole_samePend (s : State) (c ctx : Nat) (r : StageRec) (pos : Nat) : SamePend s (s.setRole c ctx r pos) := by
  unfold State.setRole
  extract_lets s1 s2 s3 s4 s5 s6 s7 s8 _ s9
  have h8 : SamePend s s8 := by
    simp only [SamePend, s1, s2, s3, s4, s5, s6, s7, s8, State.fset_keep]
  clear_value s8
  have h9 : SamePend s s9 := .ite h8 h8
  exact .ite h9 h9

theorem State.installCore_samePend (s : State) (ctx : Nat) (b : List Nat) (r : StageRec) (pl : PosPlan) (ms : List MapEnt)
    (regions : List Nat) : SamePend s (s.installCore ctx b r pl ms regions) := by
  unfold State.installCore
  split
  · rfl
  · next g i _ =>
    extract_lets c bank _ s1 s2 s3 s4 s5 s6 s7 s8 recs
    have h2 : SamePend s s2 := State.setRole_samePend s1 c ctx r pl.pos
    have h7 : SamePend s6 s7 :=
      (SamePend.of_chg (State.setEngines_chg ..) rfl).trans (.of_chg (State.setProgram_chg ..) rfl)
    have h8 : SamePend s7 s8 := .of_chg (State.pagedWrite_chg ..) rfl
    have h6 : SamePend s2 s6 := rfl
    clear_value s8 s7 s6 s2
    refine (((h2.trans h6).trans h7).trans h8).trans (.foldl (fun u x => ?_) _ _)
    dsimp only
    split
    · exact (SamePend.of_chg (State.pagedWrite_chg ..) rfl).trans (.of_chg (State.putConstant_chg ..) rfl)
    · rfl

/-- Installing the core of one planned position. -/
theorem State.installed_samePend (s : State) (ctx : Nat) (b : List Nat) (placed : List StageRec) (maps : List MapEnt)
    (regions : List Nat) (p : PosPlan) : SamePend s
      (match placed.find? (fun r => r.stage == p.stage) with
        | none => s
        | some r =>
          let mine := (maps.zip regions).filter (fun (x : MapEnt × Nat) => x.1.stage == p.stage && x.1.pos == p.pos)
          s.installCore ctx b r p (mine.map Prod.fst) (mine.map Prod.snd)) := by
  split
  · rfl
  · exact s.installCore_samePend ..

/-- Placing a model leaves the loads that wait. -/
theorem State.loadPlace_samePend (s : State) (q : LoadReq) (b w : List Nat) : SamePend s (s.loadPlace q b w) := by
  unfold State.loadPlace
  extract_lets st maps needs pool short sum looks failAt full others unsh taken placed n s1 jobs regions digs bad model
  have h1 : SamePend s s1 := .of_chg (State.draw_chg ..) rfl
  have hrefuse (v : State) (e : LoadErr) (k : Nat) (l : List Nat) : SamePend v (v.loadRefuse q b e k l) :=
    .of_chg (State.loadRefuse_chg ..) rfl
  clear_value s1 digs bad model regions jobs n placed taken unsh others full failAt looks sum short pool needs maps st
  refine .ite (hrefuse ..) (.ite (hrefuse ..) (.ite (hrefuse ..) ?_))
  split
  · exact h1.trans (hrefuse ..)
  · split
    · exact h1.trans (hrefuse ..)
    · next plans u hplan =>
      have hu : SamePend s1 u := .of_chg (State.planAll_chg hplan) rfl
      split
      · exact h1.trans (hrefuse ..)
      · extract_lets kg _ u1 u2 placed' u3 u4 u5 m u6 u7 u8 devs u9
        have h2 : SamePend u1 u2 := .foldl (fun _ _ => .of_chg (State.writeMaster_chg ..) rfl) _ _
        have hmasters : SamePend s u2 := (h1.trans hu).trans ((show SamePend u u1 from rfl).trans h2)
        have h3 : SamePend u2 u3 := .foldl (fun _ _ => .of_chg (State.syncTake_chg ..) rfl) _ _
        have h4 : SamePend u3 u4 := .of_chg (State.leaveLookouts_chg ..) rfl
        have h5 : SamePend u4 u5 := .foldl (fun v p => v.installed_samePend q.ctx b placed' maps regions p) _ _
        have h7 : SamePend u6 u7 := .ite (.of_chg (State.log_chg ..) rfl) rfl
        have h8 : SamePend u7 u8 := .foldl (fun _ _ => .of_chg (State.newEpoch_chg ..) rfl) _ _
        have h9 : SamePend u8 u9 := .of_chg (State.askStages_chg ..) rfl
        have hcores : SamePend s u9 :=
          ((hmasters.trans h3).trans (h4.trans h5)).trans ((show SamePend u5 u6 from rfl).trans (h7.trans (h8.trans h9)))
        clear_value u9 u8 u7 u6 u5 u4 u3 u2
        refine .ite (h1.trans (hrefuse ..)) (.ite ?_ ?_)
        · exact hmasters.trans ((SamePend.of_chg (State.releaseTaken_chg ..) rfl).trans (hrefuse ..))
        · exact hcores.trans ((SamePend.of_chg (State.setCtxState_chg ..) rfl).trans
            ((SamePend.of_chg (State.ctxRefresh_chg _) rfl).trans (.of_chg (State.shares_chg _) rfl)))

/-- A load that has its key goes on, and the others wait as before. -/
theorem State.loadPlain_samePend (s : State) (q : LoadReq) (b w : List Nat) : SamePend s (s.loadPlain q b w) := by
  unfold State.loadPlain
  split
  · exact .of_chg (State.loadRefuse_chg ..) rfl
  · split
    · exact .of_chg (State.loadGeneration_chg ..) rfl
    · exact s.loadPlace_samePend q b w

end

/-! ### What a command decides on, with the mailbox busy -/

theorem State.busy_ctxState (s : State) (ctx : Nat) : s.busy.ctxState ctx = s.ctxState ctx := s.busy_fget (by decide)

theorem State.busy_ownerOf (s : State) (ctx : Nat) : s.busy.ownerOf ctx = s.ownerOf ctx := by
  simp (disch := decide) only [State.ownerOf, State.busy_fget]

theorem State.busy_locked (s : State) (ctx : Nat) : s.busy.locked ctx = s.locked ctx := by
  rw [State.locked, State.busy_ownerOf]
  rfl

theorem State.busy_keyRefusal (s : State) (ctx slot : Nat) (ok : Bool) :
    s.busy.keyRefusal ctx slot ok = s.keyRefusal ctx slot ok := by
  rw [State.keyRefusal, State.busy_locked, State.busy_ctxState]
  rfl

theorem State.busy_ctxLanes (s : State) (ctx : Nat) : s.busy.ctxLanes ctx = s.ctxLanes ctx := by
  have hstate (l : Nat) : s.busy.laneState l = s.laneState l := s.busy_fget (by decide)
  simp only [State.ctxLanes, hstate]
  rfl

theorem State.busy_freeCores (s : State) : s.busy.freeCores = s.freeCores := by
  simp (disch := decide) only [State.freeCores, State.unit, State.busy_fget]
  rfl

theorem State.busy_reserve (s : State) : s.busy.reserve = s.reserve := by
  have hlook (k : Nat) : s.busy.fget (lookState k) 0 = s.fget (lookState k) 0 := by
    unfold lookState
    split
    · exact s.busy_fget (by decide)
    · exact s.busy_fget (by decide)
  have hseat (k : Nat) (l : List Nat) : s.busy.seat k l = s.seat k l := by
    have hcore (k : Nat) : s.busy.fget (lookCore k) 0 = s.fget (lookCore k) 0 := by
      unfold lookCore
      split
      · exact s.busy_fget (by decide)
      · exact s.busy_fget (by decide)
    have hunit (u : Nat) : s.busy.unit u = s.unit u := s.busy_fget (by decide)
    have hdue (k : Nat) : s.busy.dueCore k = s.dueCore k := by
      simp only [State.dueCore, hcore, hlook, hunit]
      rfl
    simp only [State.seat, State.busy_freeCores, hdue]
  simp only [State.reserve, hlook, hseat]

theorem State.busy_pool (s : State) (ctx : Nat) : s.busy.pool ctx = s.pool ctx := by
  rw [State.pool, State.pool, State.freeFor, State.busy_freeCores, State.busy_reserve]
  rfl

theorem State.busy_swapFits (s : State) (leave enter : Nat) : s.busy.swapFits leave enter = s.swapFits leave enter := by
  have hunit (u : Nat) : s.busy.unit u = s.unit u := s.busy_fget (by decide)
  simp only [State.swapFits, State.busy_pool, hunit]
  rfl

/-! ### Contexts, keys and swaps (R367, R378, R382) -/

section
variable {s : State} {ctx : Nat} {b : List Nat} {d : CtxDef} {f : Fld} {i : Nat}

/-- The fields that follow ownership and the states of interfaces. -/
def ctxFlds : List Fld := [F.KEEP_CTX_STATE_CONF, F.KEEP_CTX_STATE_TDI, F.KEEP_CTX_STATE_OWNER, F.CORE_STATUS_DEBUG,
  F.KEEP_CORE_DATA_CLEAN, F.KEEP_STATUS_CONF_ACTIVE]

theorem State.ctxRefresh_reads (s : State) : Reads ctxFlds s s.ctxRefresh := by
  unfold State.ctxRefresh
  extract_lets s1 s2
  have h1 : Reads ctxFlds s s1 := (Reads.refl s).foldl _ fun u _ =>
    (((Reads.refl u).fset _ _ _ (by simp [ctxFlds])).fset _ _ _ (by simp [ctxFlds])).fset _ _ _ (by simp [ctxFlds])
  have h2 : Reads ctxFlds s s2 := h1.foldl _ fun u _ =>
    .ite (((Reads.refl u).fset _ _ _ (by simp [ctxFlds])).fset _ _ _ (by simp [ctxFlds])) (.refl u)
  exact h2.fset _ _ _ (by simp [ctxFlds])

theorem State.keepDone_keep (s : State) (from' : KeepFrom) (status : Nat) (out : List Nat) :
    (s.keepDone from' status out).keep = s.keep := (State.keepDone_chg ..).keep.resolve_left (by decide)

theorem State.ctxRefresh_keep (s : State) : s.ctxRefresh.keep = s.keep := (State.ctxRefresh_chg s).keep.resolve_left (by decide)

/-- An answer of status 0 after what depends on the contexts was brought up to date. -/
def State.refreshDone (s : State) : State := s.ctxRefresh.keepDone .mailbox 0 []

theorem State.refreshDone_answered (s : State) : Answered 0 s.refreshDone := (State.keepDone_answered _ (by decide) _).1

theorem State.refreshDone_keep (s : State) : s.refreshDone.keep = s.keep :=
  (State.keepDone_keep ..).trans s.ctxRefresh_keep

theorem State.refreshDone_fget (hdone : answerFlds.all (fun g => f.code != g.code) = true)
    (hrefresh : ctxFlds.all (fun g => f.code != g.code) = true) : s.refreshDone.fget f i = s.fget f i :=
  (State.keepDone_reads _ _ _ f i hdone).trans (s.ctxRefresh_reads f i hrefresh)

/-- The time of a context's last rotation is now. -/
def State.rotatedNow (s : State) (ctx : Nat) : State :=
  { s with keep := { s.keep with rotated := Tab.set s.keep.rotated ctx s.ns } }

theorem State.rotatedNow_fget (s : State) (ctx : Nat) : (s.rotatedNow ctx).fget f i = s.fget f i := rfl

theorem State.setDef_keys (s : State) (ctx : Nat) (d : CtxDef) :
    (s.setDef ctx d).fget F.KEEP_CTX_STATE_KEYS ctx = keyBits d % 2 ^ 4 := State.fget_fset_self ..

/-- A context that is defined, before the registers that follow it are. -/
def State.ctxMade (s : State) (ctx : Nat) (conf : Bool) : State :=
  (((s.setDef ctx ⟨conf, []⟩).fset F.KEEP_CTX_STATE_KEYGEN ctx 0).rotatedNow ctx).setCtxState ctx 1

theorem State.ctxDefine_makes {v : Nat} (hv : v ≤ 1) (hfree : s.ctxState ctx = 0) :
    s.ctxDefine .mailbox ctx [v] = (s.ctxMade ctx (v == 1)).refreshDone := by
  have hbit : ¬ 1 < v := by omega
  simp only [State.ctxDefine, List.length_singleton, List.getD_cons_zero, bne_self_eq_false, hbit, decide_false, hfree,
    Bool.or_self, Bool.false_eq_true, if_false]
  rfl

theorem State.ctxMade_leaves (s : State) (ctx : Nat) (conf : Bool) : (s.ctxMade ctx conf).ctxState ctx = 1 ∧
    Tab.find (s.ctxMade ctx conf).keep.defs ctx = some ⟨conf, []⟩ ∧
    (s.ctxMade ctx conf).fget F.KEEP_CTX_STATE_KEYGEN ctx = 0 ∧ (s.ctxMade ctx conf).fget F.KEEP_CTX_STATE_KEYS ctx = 0 := by
  refine ⟨State.fget_fset_self .., Tab.find_set_self .., ?_, ?_⟩
  · rw [State.ctxMade, State.setCtxState, State.fget_fset_of_code_ne _ (by decide), State.rotatedNow_fget,
      State.fget_fset_self, Nat.zero_mod]
  · rw [State.ctxMade, State.setCtxState, State.fget_fset_of_code_ne _ (by decide), State.rotatedNow_fget,
      State.fget_fset_of_code_ne _ (by decide), State.setDef_keys]
    rfl

theorem State.ctxEnroll_enrolls (hlen : b.length = 65) (hzero : zeroBytes b 1 4 = true)
    (hfree : s.keyRefusal ctx (b.getD 0 0) true = 0) (hdef : Tab.find s.keep.defs ctx = some d) :
    s.ctxEnroll .mailbox ctx b =
      (s.setDef ctx { d with keys := Tab.set d.keys (b.getD 0 0) (leAt b 4 4, slice b 8 57) }).keepDone .mailbox 0 [] := by
  simp only [State.ctxEnroll, hlen, hzero, beq_self_eq_true, Bool.and_self, hfree, hdef]

/-- An interface that is locked refuses a key's enrolment. -/
theorem State.ctxEnroll_locked (hlen : b.length = 65) (hzero : zeroBytes b 1 4 = true) (hslot : b.getD 0 0 < 4)
    (hlocked : s.locked ctx = true) : s.ctxEnroll .mailbox ctx b = s.keepDone .mailbox 5 [] := by
  have hfree : ¬ 4 ≤ b.getD 0 0 := by omega
  have hrefused : s.keyRefusal ctx (b.getD 0 0) true = 5 := by
    simp only [State.keyRefusal, hfree, hlocked, Bool.not_true, decide_false, Bool.or_self, Bool.false_eq_true, if_false, if_true]
  simp only [State.ctxEnroll, hlen, hzero, beq_self_eq_true, Bool.and_self, hrefused]

theorem State.ctxRevoke_revokes {slot : Nat} (hfree : s.keyRefusal ctx slot true = 0) (hdef : Tab.find s.keep.defs ctx = some d)
    (hkey : (Tab.find d.keys slot).isSome = true) :
    s.ctxRevoke .mailbox ctx [slot] = (s.setDef ctx { d with keys := Tab.erase d.keys slot }).keepDone .mailbox 0 [] := by
  have hthere : (Tab.find d.keys slot).isNone = false := by rw [Option.isNone_eq_false_iff, hkey]
  simp only [State.ctxRevoke, List.length_singleton, List.getD_cons_zero, beq_self_eq_true, hfree, hdef, hthere,
    Bool.false_eq_true, if_false]

/-- A hand-over begins from a resident context. -/
def State.swapBegun (s : State) (leave enter : Nat) : State :=
  (({ s with keep := { s.keep with swap := some ⟨leave, enter, .mailbox, false, false⟩ } } : State).setCtxState leave 3).askFrame
    leave .swap

theorem State.ctxSwap_begins {enter : Nat} (henter : enter < 32) (hnone : s.keep.swap = none) (hleave : s.ctxState ctx = 2)
    (hdefined : s.ctxState enter = 1) (hlanes : (s.ctxLanes ctx).all (fun l => s.laneState l == 3) = true)
    (hfits : s.swapFits ctx enter = true) : s.ctxSwap .mailbox ctx [enter] = s.swapBegun ctx enter := by
  have hlow : ¬ 32 ≤ enter := by omega
  have hsuspended : (s.ctxLanes ctx).any (fun l => s.laneState l != 3) = false := by
    rw [List.any_eq_false]
    intro l hl
    rw [beq_iff_eq.mp (List.all_eq_true.mp hlanes l hl)]
    decide
  simp only [State.ctxSwap, List.length_singleton, List.getD_cons_zero, bne_self_eq_false, hlow, decide_false, hnone,
    Option.isSome_none, hleave, hdefined, hsuspended, hfits, Bool.not_true, Bool.or_self, Bool.false_eq_true, if_false]
  rfl

theorem State.askFrame_leaves (s : State) (ctx : Nat) (w : FrameWhy) : (s.askFrame ctx w).fields = s.fields ∧
    (s.askFrame ctx w).keep.swap = s.keep.swap ∧ (Tab.getD (s.askFrame ctx w).keep.frames ctx []).contains w = true := by
  unfold State.askFrame
  extract_lets l
  split
  · next h => exact ⟨rfl, rfl, h⟩
  · refine ⟨rfl, rfl, ?_⟩
    show (Tab.getD (Tab.set s.keep.frames ctx (l ++ [w])) ctx []).contains w = true
    rw [Tab.getD, Tab.find_set_self]
    simp

/-- A context that is not resident does not leave. -/
theorem State.ctxSwap_refuses {enter : Nat} (henter : enter < 32) (hnone : s.keep.swap = none) (hleave : s.ctxState ctx ≠ 2) :
    s.ctxSwap .mailbox ctx [enter] = s.keepDone .mailbox 2 [] := by
  have hlow : ¬ 32 ≤ enter := by omega
  have hother : (s.ctxState ctx != 2) = true := bne_iff_ne.mpr hleave
  simp only [State.ctxSwap, List.length_singleton, List.getD_cons_zero, bne_self_eq_false, hlow, decide_false, hnone,
    Option.isSome_none, hother, Bool.true_or, Bool.or_self, Bool.false_eq_true, if_false, if_true]

theorem State.keyRotate_rotates (hlive : s.ctxLive ctx = true) (hstill : s.keep.rot.contains ctx = false) :
    s.keyRotate .mailbox ctx [] = (s.rotate ctx).keepDone .mailbox 0 [] := by
  simp only [State.keyRotate, List.isEmpty_nil, hlive, hstill, Bool.not_true, Bool.false_eq_true, if_false]

theorem State.rotate_leaves (s : State) (ctx : Nat) :
    (s.rotate ctx).fget F.KEEP_CTX_STATE_KEYGEN ctx = 1 - s.fget F.KEEP_CTX_STATE_KEYGEN ctx ∧
    (s.rotate ctx).fget F.KEEP_CTX_STATE_ROTATING ctx = 1 ∧ (s.rotate ctx).fget F.KEEP_STATUS_ROTATING 0 = 1 ∧
    (s.rotate ctx).keep.rot = s.keep.rot ++ [ctx] := by
  unfold State.rotate
  extract_lets s1 _ s2
  have hgen : s2.fget F.KEEP_CTX_STATE_KEYGEN ctx = 1 - s.fget F.KEEP_CTX_STATE_KEYGEN ctx :=
    (State.fget_fset_self ..).trans (Nat.mod_eq_of_lt (Nat.lt_succ_of_le (Nat.sub_le ..)))
  refine ⟨?_, ?_, State.fget_fset_self .., rfl⟩
  · rw [State.fget_fset_of_code_ne _ (by decide), State.fget_fset_of_code_ne _ (by decide), hgen]
  · rw [State.fget_fset_of_code_ne _ (by decide), State.fget_fset_self]
    rfl

end

/-! ### Destruction (R383) -/

section
variable {s t : State} {ctx : Nat}

theorem State.handingOver_congr (hkeep : t.keep.bleed = s.keep.bleed) (hrst : t.rst = s.rst) (hcores : t.cores = s.cores)
    (ctx : Nat) : t.handingOver ctx = s.handingOver ctx := by
  simp only [State.handingOver, State.restorer, State.ctxOf, State.core, hkeep, hrst, hcores]

/-- Whether a page of a context is left. -/
def State.ownsPage (s : State) (ctx : Nat) : Bool := s.fab.pages.any fun p => p.2.owner == ctx

theorem State.scrubPages_ownsPage (s : State) (p : PageEnt → Bool) (ctx : Nat) :
    (s.scrubPages p).ownsPage ctx = s.ownsPage ctx := by
  rw [State.ownsPage, State.ownsPage, State.scrubPages, Tab.mapv, List.any_map]
  refine congrArg (List.any s.fab.pages) (funext fun e => ?_)
  simp only [Function.comp_apply]
  split
  · rfl
  · rfl

/-- The destruction of a context that has nothing to end is noted. -/
def State.ctxForgotten (s : State) (ctx : Nat) : State :=
  { s with keep := { s.keep with
    parked := s.keep.parked.filter (fun p => p.1.context != ctx)
    wkeys := s.keep.wkeys.filter (fun k => k.context != ctx), frames := Tab.erase s.keep.frames ctx
    rot := s.keep.rot.filter (fun x => x != ctx), destroy := s.keep.destroy ++ [(⟨ctx, some .mailbox⟩ : Destroy)] } }

/-- A context no longer rotates. -/
def State.rotationEnded (s : State) (ctx : Nat) : State :=
  (s.fset F.KEEP_CTX_STATE_ROTATING ctx 0).fset F.KEEP_STATUS_ROTATING 0 (ofBool (!s.keep.rot.isEmpty))

/-- A context that is being destroyed. -/
def State.leaving (s : State) (ctx : Nat) : State :=
  ((((s.ctxForgotten ctx).scrubPages fun e => e.owner == ctx).rotationEnded ctx).setCtxState ctx 4).ctxRefresh

theorem State.destroyCtx_leaving (hlanes : s.ctxLanes ctx = []) (hmodels : s.ctxModels ctx = []) (hparked : s.parkedOf ctx = [])
    (hpend : Tab.find s.keep.pend ctx = none) : s.destroyCtx ctx (some .mailbox) = s.leaving ctx := by
  have hload : s.endLoads ctx = s := by
    rw [State.endLoads, hpend]
    show List.foldl _ s (s.ctxModels ctx) = s
    rw [hmodels]
    rfl
  unfold State.destroyCtx
  rw [hlanes]
  dsimp only [List.foldl_nil]
  rw [hload, hmodels]
  dsimp only [List.foldl_nil]
  rw [hparked]
  rfl

theorem State.leaving_leaves (s : State) (ctx : Nat) : (s.leaving ctx).handingOver ctx = s.handingOver ctx ∧
    (s.leaving ctx).ownsPage ctx = s.ownsPage ctx ∧
    (s.leaving ctx).keep.destroy = s.keep.destroy ++ [⟨ctx, some .mailbox⟩] := by
  have h := State.ctxRefresh_chg ((((s.ctxForgotten ctx).scrubPages fun e => e.owner == ctx).rotationEnded ctx).setCtxState ctx 4)
  have hkeep := State.ctxRefresh_keep
    ((((s.ctxForgotten ctx).scrubPages fun e => e.owner == ctx).rotationEnded ctx).setCtxState ctx 4)
  refine ⟨State.handingOver_congr (congrArg Keep.bleed hkeep) (h.rst.resolve_left (by decide))
    (h.cores.resolve_left (by decide)) ctx,
    ?_, congrArg Keep.destroy hkeep⟩
  have hfab : (s.leaving ctx).ownsPage ctx = ((s.ctxForgotten ctx).scrubPages fun e => e.owner == ctx).ownsPage ctx :=
    congrArg (fun x : Fabric => x.pages.any fun p => p.2.owner == ctx) (h.fab.resolve_left (by decide))
  exact hfab.trans (State.scrubPages_ownsPage ..)

/-- A context whose definition and keys are gone. -/
def State.ctxEnded (s : State) (d : Destroy) : State :=
  ((((({ s with keep := { s.keep with destroy := s.keep.destroy.erase d, defs := Tab.erase s.keep.defs d.context } } :
    State).fset F.KEEP_CTX_STATE_KEYS d.context 0).fset F.KEEP_CTX_STATE_KEYGEN d.context 0).setCtxState d.context 0).log
      { code := 0x1507, context := d.context })

theorem State.destroyOne_ends (hcores : s.handingOver ctx = false) (hpages : s.ownsPage ctx = false) :
    s.destroyOne ⟨ctx, some .mailbox⟩ = (s.ctxEnded ⟨ctx, some .mailbox⟩).refreshDone := by
  have hpages' : s.fab.pages.any (fun p => p.2.owner == ctx) = false := hpages
  simp only [State.destroyOne, hcores, hpages', Bool.or_self, Bool.false_eq_true, if_false]
  rfl

theorem State.ctxEnded_leaves (s : State) (d : Destroy) : (s.ctxEnded d).ctxState d.context = 0 ∧
    Tab.find (s.ctxEnded d).keep.defs d.context = none ∧ (s.ctxEnded d).keep.destroy = s.keep.destroy.erase d ∧
    (s.ctxEnded d).fget F.KEEP_CTX_STATE_KEYS d.context = 0 ∧ (s.ctxEnded d).fget F.KEEP_CTX_STATE_KEYGEN d.context = 0 := by
  refine ⟨?_, ?_, ?_, ?_, ?_⟩
  all_goals rw [State.ctxEnded]
  · exact (State.log_fget _ _ _ _ (by decide)).trans (State.fget_fset_self ..)
  · rw [(State.log_chg ..).keep.resolve_left (by decide)]
    exact Tab.find_erase_self ..
  · rw [(State.log_chg ..).keep.resolve_left (by decide)]
    rfl
  · rw [State.log_fget _ _ _ _ (by decide), State.setCtxState, State.fget_fset_of_code_ne _ (by decide),
      State.fget_fset_of_code_ne _ (by decide), State.fget_fset_self, Nat.zero_mod]
  · rw [State.log_fget _ _ _ _ (by decide), State.setCtxState, State.fget_fset_of_code_ne _ (by decide),
      State.fget_fset_self, Nat.zero_mod]

/-- A context with no lane, model, page and load ends at once. -/
theorem State.ctxDestroy_ends (hdefined : s.ctxState ctx = 1) (hswap : s.keep.swap = none) (hlanes : s.ctxLanes ctx = [])
    (hmodels : s.ctxModels ctx = []) (hparked : s.parkedOf ctx = []) (hpend : Tab.find s.keep.pend ctx = none)
    (hnone : s.keep.destroy = []) (hcores : s.handingOver ctx = false) (hpages : s.ownsPage ctx = false) :
    s.ctxDestroy .mailbox ctx [] = ((s.leaving ctx).ctxEnded ⟨ctx, some .mailbox⟩).refreshDone := by
  obtain ⟨hcores', hpages', hdestroy⟩ := s.leaving_leaves ctx
  simp only [State.ctxDestroy, List.isEmpty_nil, hdefined, hswap, Option.any_none, beq_self_eq_true, Bool.true_or, Bool.not_true,
    Bool.or_self, Bool.false_eq_true, if_false]
  rw [State.destroyCtx_leaving hlanes hmodels hparked hpend, State.destroyGo, hdestroy, hnone, List.nil_append,
    List.foldl_cons, List.foldl_nil, State.destroyOne_ends (hcores'.trans hcores) (hpages'.trans hpages)]

end

/-! ### Attestation, releases and certificates (R371, R376) -/

section
variable {s : State} {ctx : Nat} {b : List Nat} {p : PendLoad}

theorem State.attest_answers (hlen : b.length = 96) (hcalm : s.settling ctx = false) : ∃ out,
    s.attest .mailbox ctx b = (s.count C.KEEP_CNT_ATTEST 0).keepDone .mailbox 0 out := by
  have hcalm' : (s.count C.KEEP_CNT_ATTEST 0).settling ctx = false := by
    rw [State.settling, (State.count_chg ..).keep.resolve_left (by decide)]
    exact hcalm
  simp only [State.attest, State.attRequest, hlen, bne_self_eq_false, hcalm', Bool.not_false, Bool.false_eq_true, if_false, if_true]
  exact ⟨_, rfl⟩

/-- An attestation request waits in the queue. -/
def State.attQueued (s : State) (r : AttReq) : State := { s with keep := { s.keep with queue := s.keep.queue ++ [r] } }

theorem State.attest_waits (hlen : b.length = 96) (hsettling : s.settling ctx = true) (hroom : s.keep.queue.length < 16) :
    s.attest .mailbox ctx b = ((s.count C.KEEP_CNT_ATTEST 0).attQueued
      ⟨ctx, slice b 0 32, slice b 32 64, .mailbox, s.ns⟩).count C.KEEP_CNT_QUEUED 0 := by
  have hcount := State.count_chg s C.KEEP_CNT_ATTEST 0
  have hkeep := hcount.keep.resolve_left (by decide)
  have hns := hcount.ns.resolve_left (by decide)
  have hsettling' : (s.count C.KEEP_CNT_ATTEST 0).settling ctx = true := by
    rw [State.settling, hkeep]
    exact hsettling
  have hroom' : ¬ 16 ≤ (s.count C.KEEP_CNT_ATTEST 0).keep.queue.length := by
    rw [hkeep]
    omega
  rw [← hns]
  simp only [State.attest, State.attRequest, hlen, bne_self_eq_false, hsettling', hroom', Bool.not_true, Bool.false_eq_true,
    if_false]
  rfl

theorem slice_slice (l : List Nat) {n m : Nat} (h : n ≤ m) : slice (slice l 0 m) 0 n = slice l 0 n := by
  refine List.map_congr_left fun i hi => ?_
  have hlt : i < m := lt_of_lt_of_le (List.mem_range.mp hi) h
  simp [slice, hlt]

/-- The first word of what is written into the mailbox's data. -/
theorem State.mbWrite_first (s : State) (h : b ≠ []) : (s.mbWrite b).fget F.KEEP_MB_DATA_DATA 0 = leAt b 0 4 % 2 ^ 32 := by
  have hpos : 0 < ceilDiv (Nat.min 4096 b.length) 4 := by
    have hlen := List.length_pos_of_ne_nil h
    have hmin : 0 < Nat.min 4096 b.length := Nat.lt_min.mpr ⟨by decide, hlen⟩
    exact Nat.div_pos (by omega) (by decide)
  obtain ⟨n, hn⟩ := Nat.exists_eq_succ_of_ne_zero hpos.ne'
  rw [State.mbWrite, hn, List.range_succ_eq_map, List.foldl_cons, List.foldl_map]
  refine (State.foldl_keeps (g := fun u : State => u.fget F.KEEP_MB_DATA_DATA 0)
    (fun u i => State.fget_fset_ne _ _ (.inr (Nat.succ_ne_zero i).symm)) _ _).trans ?_
  exact State.fget_fset_self ..

theorem State.keepDone_first (s : State) (h : b ≠ []) :
    (s.keepDone .mailbox 0 b).fget F.KEEP_MB_DATA_DATA 0 = leAt b 0 4 % 2 ^ 32 := by
  rw [State.keepDone_mailbox, if_pos rfl, State.mbAnswer]
  simp (disch := decide) only [State.fget_fset_of_code_ne]
  exact s.mbWrite_first h

theorem State.relRead_returns (hpend : Tab.find s.keep.pend ctx = some p) :
    s.relRead .mailbox ctx [] = s.keepDone .mailbox 0 (slice p.request 0 2874) := by
  simp only [State.relRead, List.isEmpty_nil, hpend, Bool.not_true, Bool.false_eq_true, if_false]

theorem State.relRead_refuses (hpend : Tab.find s.keep.pend ctx = none) :
    s.relRead .mailbox ctx [] = s.keepDone .mailbox 8 [] := by
  simp only [State.relRead, List.isEmpty_nil, hpend, Bool.not_true, Bool.false_eq_true, if_false]

theorem State.keyRelease_refuses (hlen : b.length = 116) (hpend : Tab.find s.keep.pend ctx = none) :
    s.keyRelease .mailbox ctx b = s.keepDone .mailbox 3 [] := by
  simp only [State.keyRelease, hlen, hpend, bne_self_eq_false, Bool.false_eq_true, if_false]

theorem State.keyRelease_fails (hlen : b.length = 116) (hpend : Tab.find s.keep.pend ctx = some p) (hkey : unwrapKey p b = none) :
    s.keyRelease .mailbox ctx b = ((s.count C.KEEP_CNT_RELFAIL 0).releaseFail ctx p).keepDone .mailbox 7 [] := by
  simp only [State.keyRelease, hlen, hpend, hkey, bne_self_eq_false, Bool.false_eq_true, if_false]

/-- A pending load that ends is no longer pending. -/
theorem State.releaseFail_pend (s : State) (ctx : Nat) (p : PendLoad) : Tab.find (s.releaseFail ctx p).keep.pend ctx = none := by
  unfold State.releaseFail
  extract_lets _ s1 s2
  have h1 : Tab.find s1.keep.pend ctx = none := Tab.find_erase_self ..
  have h2 : s2.keep = s1.keep := (State.log_chg ..).keep.resolve_left (by decide)
  rw [(State.loadRefuse_chg ..).keep.resolve_left (by decide), h2, h1]

/-- A release that fails is counted. -/
theorem State.releaseFailed_counted (s : State) (ctx : Nat) (p : PendLoad) : Counted C.KEEP_CNT_RELFAIL 0 1 s
    (((s.count C.KEEP_CNT_RELFAIL 0).releaseFail ctx p).keepDone .mailbox 7 []) := by
  rw [Counted, State.keepDone_reads _ _ _ _ _ (by decide), Chg.fget (State.releaseFail_chg ..) rfl, State.count_fget_self]

/-- Whatever the answer of the key service, the load is no longer pending. -/
theorem State.keyRelease_pend (hlen : b.length = 116) (hpend : Tab.find s.keep.pend ctx = some p) :
    Tab.find (s.keyRelease .mailbox ctx b).keep.pend ctx = none := by
  cases hkey : unwrapKey p b with
  | none => rw [State.keyRelease_fails hlen hpend hkey, State.keepDone_keep, State.releaseFail_pend]
  | some k =>
    simp only [State.keyRelease, hlen, hpend, hkey, bne_self_eq_false, Bool.false_eq_true, if_false]
    rw [State.loadPlain_samePend, State.keepDone_keep]
    exact Tab.find_erase_self ..

theorem State.certRead_returns (hlen : b.length = 8) (hzero : zeroBytes b 1 4 = true) (hcert : b.getD 0 0 < 4) :
    s.certRead .mailbox ctx b =
      s.keepDone .mailbox 0 ((List.range 4096).map fun i => Config.certByte (b.getD 0 0) (leAt b 4 4 + i) % 256) := by
  have hchain : ¬ 4 ≤ b.getD 0 0 := by omega
  simp only [State.certRead, hlen, hzero, hchain, bne_self_eq_false, Bool.not_true, Bool.or_self, Bool.false_eq_true, if_false]

end

theorem State.mailbox_next {s t : State} {cmd ctx : Nat} {b : List Nat} (h : Asked cmd ctx b s)
    (hrun : s.busy.keepRun .mailbox cmd ctx b = t) : (Host.Outcome.next (s.mailbox cmd) : Res) = .next t := by
  rw [State.mailbox_runs h, hrun]

/-- What a swap that has begun shows. -/
theorem State.swapBegun_leaves (s : State) (leave enter : Nat) : (s.busy.swapBegun leave enter).fget F.KEEP_MB_STATUS_BUSY 0 = 1 ∧
    (s.busy.swapBegun leave enter).ctxState leave = 3 ∧
    (s.busy.swapBegun leave enter).keep.swap = some ⟨leave, enter, .mailbox, false, false⟩ ∧
    (Tab.getD (s.busy.swapBegun leave enter).keep.frames leave []).contains .swap = true := by
  obtain ⟨hfields, hswap, hframe⟩ := State.askFrame_leaves (({ s.busy with keep := { s.busy.keep with
    swap := some ⟨leave, enter, .mailbox, false, false⟩ } } : State).setCtxState leave 3) leave .swap
  have hreads := Reads.of_fields (l := []) hfields
  refine ⟨(hreads _ _ rfl).trans ?_, (hreads _ _ rfl).trans (State.fget_fset_self ..), hswap, hframe⟩
  rw [State.setCtxState, State.fget_fset_of_code_ne _ (by decide)]
  exact State.fget_fset_self s F.KEEP_MB_STATUS_BUSY 0 1

/-- Settles O46, command by command: each runs with the mailbox busy, and answers through `keepDone`. -/
theorem mailboxCommandsRunAndAnswer : Obligations.mailbox_commands_run_and_answer := by
  unfold Obligations.mailbox_commands_run_and_answer
  refine ⟨?_, ?_, ?_, ?_, ?_, ?_, ?_, ?_, ?_, ?_, ?_, ?_, ?_, ?_, ?_⟩
  · intro s ctx v hask hv hfree
    obtain ⟨hstate, hdefs, hgen, hkeys⟩ := s.busy.ctxMade_leaves ctx (v == 1)
    refine ⟨_, State.mailbox_next hask (State.ctxDefine_makes hv ((s.busy_ctxState ctx).trans hfree)),
      State.refreshDone_answered _, ?_, ?_, ?_, ?_⟩
    · exact (State.refreshDone_fget (by decide) (by decide)).trans hstate
    · rw [State.refreshDone_keep, hdefs]
    · exact (State.refreshDone_fget (by decide) (by decide)).trans hgen
    · exact (State.refreshDone_fget (by decide) (by decide)).trans hkeys
  · intro s ctx b d hask hlen hzero hfree hdef
    refine ⟨_, State.mailbox_next hask (State.ctxEnroll_enrolls hlen hzero ((s.busy_keyRefusal ..).trans hfree) hdef),
      (State.keepDone_answered _ (by decide) _).1, ?_⟩
    rw [State.keepDone_keep]
    exact Tab.find_set_self ..
  · intro s ctx b hask hlen hzero hslot hlocked
    exact ⟨_, State.mailbox_next hask (State.ctxEnroll_locked hlen hzero hslot ((s.busy_locked ctx).trans hlocked)),
      (State.keepDone_answered _ (by decide) _).1, congrArg Keep.defs (State.keepDone_keep ..),
      Counted.busy (State.keepDone_counted (status := 5) s.busy (by decide) []) (by decide) (by decide)⟩
  · intro s ctx slot d hask hfree hdef hkey
    refine ⟨_, State.mailbox_next hask (State.ctxRevoke_revokes ((s.busy_keyRefusal ..).trans hfree) hdef hkey),
      (State.keepDone_answered _ (by decide) _).1, ?_⟩
    rw [State.keepDone_keep]
    exact Tab.find_set_self ..
  · intro s ctx enter hask henter hnone hleave hdefined hlanes hfits
    have hlanes' : (s.busy.ctxLanes ctx).all (fun l => s.busy.laneState l == 3) = true := by
      rw [s.busy_ctxLanes, ← hlanes]
      exact congrArg (List.all _) (funext fun l => congrArg (· == 3) (s.busy_fget (by decide)))
    exact ⟨_, State.mailbox_next hask (State.ctxSwap_begins henter hnone ((s.busy_ctxState ctx).trans hleave)
      ((s.busy_ctxState enter).trans hdefined) hlanes' ((s.busy_swapFits ..).trans hfits)), s.swapBegun_leaves ctx enter⟩
  · intro s ctx enter hask henter hnone hleave
    exact ⟨_, State.mailbox_next hask (State.ctxSwap_refuses henter hnone ((s.busy_ctxState ctx).trans_ne hleave)),
      (State.keepDone_answered _ (by decide) _).1, State.keepDone_keep ..⟩
  · intro s ctx hask hdefined hswap hlanes hmodels hparked hpend hnone hcores hpages
    obtain ⟨-, -, hdestroy⟩ := s.busy.leaving_leaves ctx
    obtain ⟨hstate, hdefs, hempty, hkeys, hgen⟩ := (s.busy.leaving ctx).ctxEnded_leaves ⟨ctx, some .mailbox⟩
    refine ⟨_, State.mailbox_next hask (State.ctxDestroy_ends ((s.busy_ctxState ctx).trans hdefined) hswap
      ((s.busy_ctxLanes ctx).trans hlanes) hmodels hparked hpend hnone hcores hpages),
      State.refreshDone_answered _, ?_, ?_, ?_, ?_, ?_⟩
    · exact (State.refreshDone_fget (by decide) (by decide)).trans hstate
    · rw [State.refreshDone_keep, hdefs]
    · exact (State.refreshDone_fget (by decide) (by decide)).trans hkeys
    · exact (State.refreshDone_fget (by decide) (by decide)).trans hgen
    · rw [State.refreshDone_keep, hempty, hdestroy, show s.busy.keep.destroy = [] from hnone, List.nil_append,
        List.erase_cons_head]
  · intro s ctx b hask hlen hcalm
    obtain ⟨out, hattest⟩ := State.attest_answers (s := s.busy) hlen hcalm
    have hfields : FieldsOnly s ((s.busy.count C.KEEP_CNT_ATTEST 0).keepDone .mailbox 0 out) :=
      ((s.fset_fieldsOnly ..).trans (s.busy.count_fieldsOnly ..)).trans (State.keepDone_fieldsOnly ..)
    exact ⟨_, State.mailbox_next hask hattest, (State.keepDone_answered _ (by decide) _).1,
      Counted.busy (Counted.of_reads (.refl _) (State.keepDone_reads _ 0 out) (l := []) rfl rfl) (by decide) (by decide),
      hfields.keep, hfields⟩
  · intro s ctx b hask hlen hsettling hroom
    have hcount := State.count_chg s.busy C.KEEP_CNT_ATTEST 0
    have hqueued := State.count_chg ((s.busy.count C.KEEP_CNT_ATTEST 0).attQueued
      ⟨ctx, slice b 0 32, slice b 32 64, .mailbox, s.ns⟩) C.KEEP_CNT_QUEUED 0
    refine ⟨_, State.mailbox_next hask (State.attest_waits (s := s.busy) hlen hsettling hroom), ?_, ?_, ?_⟩
    · exact (congrArg Keep.queue (hqueued.keep.resolve_left (by decide))).trans
        (congrArg (fun k : Keep => k.queue ++ _) (hcount.keep.resolve_left (by decide)))
    · rw [State.count_fget _ _ _ _ _ (.inl (by decide))]
      exact (State.count_fget _ _ _ _ _ (.inl (by decide))).trans (State.fget_fset_self ..)
    · have hbefore : Reads [F.KEEP_MB_STATUS_BUSY, C.KEEP_CNT_ATTEST.cnt] s ((s.busy.count C.KEEP_CNT_ATTEST 0).attQueued
          ⟨ctx, slice b 0 32, slice b 32 64, .mailbox, s.ns⟩) :=
        (((Reads.refl s).fset _ _ _ (by simp)).count C.KEEP_CNT_ATTEST 0 (by simp)).trans (.of_fields rfl)
      exact Counted.of_reads hbefore (.refl _) (l' := []) (by decide) (by decide)
  · intro s ctx hask hlive hstill
    obtain ⟨hgen, hrotating, hany, hrot⟩ := s.busy.rotate_leaves ctx
    have hlive' : s.busy.ctxLive ctx = true := by
      rw [State.ctxLive, s.busy_ctxState]
      exact hlive
    refine ⟨_, State.mailbox_next hask (State.keyRotate_rotates hlive' hstill), (State.keepDone_answered _ (by decide) _).1,
      ?_, ?_, ?_, ?_⟩
    · rw [State.keepDone_reads _ _ _ _ _ (by decide), hgen, s.busy_fget (by decide)]
    · rw [State.keepDone_reads _ _ _ _ _ (by decide), hrotating]
    · rw [State.keepDone_reads _ _ _ _ _ (by decide), hany]
    · rw [State.keepDone_keep, hrot]
      rfl
  · intro s ctx p hask hpend
    obtain ⟨hanswered, hlen⟩ := s.busy.keepDone_answered (status := 0) (by decide) (slice p.request 0 2874)
    refine ⟨_, State.mailbox_next hask (State.relRead_returns hpend), hanswered, ?_, ?_, State.keepDone_keep ..⟩
    · rw [hlen, slice, List.length_map, List.length_range]
      rfl
    · rw [State.keepDone_first _ (by simp [slice]), leAt, slice_slice _ (by decide)]
      rfl
  · intro s ctx hask hpend
    exact ⟨_, State.mailbox_next hask (State.relRead_refuses hpend), (State.keepDone_answered _ (by decide) _).1,
      State.keepDone_keep ..⟩
  · intro s ctx b p hask hlen hpend
    refine ⟨_, State.mailbox_next hask rfl, State.keyRelease_pend hlen hpend, fun hkey => ?_⟩
    show Answered 7 (s.busy.keyRelease .mailbox ctx b) ∧ Counted C.KEEP_CNT_RELFAIL 0 1 s (s.busy.keyRelease .mailbox ctx b)
    rw [State.keyRelease_fails (s := s.busy) hlen hpend hkey]
    exact ⟨(State.keepDone_answered _ (by decide) _).1, Counted.busy (State.releaseFailed_counted ..) (by decide) (by decide)⟩
  · intro s ctx b hask hlen hpend
    exact ⟨_, State.mailbox_next hask (State.keyRelease_refuses hlen hpend), (State.keepDone_answered _ (by decide) _).1,
      State.keepDone_keep ..⟩
  · intro s ctx b hask hlen hzero hcert
    obtain ⟨hanswered, hout⟩ := s.busy.keepDone_answered (status := 0) (by decide)
      ((List.range 4096).map fun i => Config.certByte (b.getD 0 0) (leAt b 4 4 + i) % 256)
    refine ⟨_, State.mailbox_next hask (State.certRead_returns (ctx := ctx) hlen hzero hcert), hanswered, ?_,
      (s.fset_fieldsOnly ..).trans (State.keepDone_fieldsOnly ..)⟩
    rw [hout, List.length_map, List.length_range]
    rfl

end Sys2Proof.Machine
